-- ==== Sys2Proof/Word.lean ====
section
/-! DEFINITION. The word types of the XK17: a word is 16 bits (R5, R7). -/

namespace Sys2Proof

/-- A word: 16 bits (R5).  Every register is one word (R7). -/
abbrev Word := BitVec 16

/-- A byte of endpoint memory or of the flash. -/
abbrev Byte := BitVec 8

end Sys2Proof
end

