-- ==== Sys2Proof/Syntax.lean ====
section
/-! DEFINITION. The commands the XK17 takes from outside: one constructor for each row of the
operation table, with the operands that the row's event carries.  The part has no opcode words, so
an operand is what arrives with the event: a register address and value, the words on a link, the
outcome of a host access, a reading of the power die. -/

namespace Sys2Proof

/-- A port: 0 is UP, 1 to 16 are D1 to D16 (R5). -/
abbrev PortN := Fin 17
/-- A downstream port Dm, held as m - 1. -/
abbrev DnN := Fin 16
/-- A domain: 0 is the PF, 1 to 7 are VF1 to VF7 (R5). -/
abbrev DomN := Fin 8
/-- VFd, held as d - 1. -/
abbrev VfN := Fin 7
/-- A local endpoint. -/
abbrev EpN := Fin 32
/-- A crew. -/
abbrev CrewN := Fin 8
/-- Eight words: a command or transfer descriptor, an event entry, a black-box entry. -/
abbrev W8 := Vector Word 8

/-- The party that makes a register access (R194, R199, R385). -/
inductive Path where
  /-- PCIe through PF BAR0. -/
  | pf
  /-- PCIe through the VF BAR0 of VF v + 1. -/
  | vf (v : VfN)
  /-- The management SPI. -/
  | mg
  /-- The hub function, carrying out a request from the root. -/
  | hub
  /-- A command of domain d, whose register writes act as PCIe writes (R219). -/
  | cmd (d : DomN)
  /-- The configuration image (R381). -/
  | image
  /-- The stow set, restored at a wake (R341). -/
  | restore
  deriving DecidableEq, Repr

/-- How the host answered a read badly (R206, R242). -/
inductive ReadFail where
  /-- Answered with Unsupported Request. -/
  | ur
  /-- Answered with Completer Abort. -/
  | ca
  /-- Completed poisoned. -/
  | poisoned
  deriving DecidableEq, Repr

/-- What a read of host memory was for (R242). -/
inductive ReadUse where
  /-- A doorbell page. -/
  | page
  /-- Command descriptors. -/
  | commands
  /-- A transfer descriptor of endpoint k. -/
  | descriptor (k : EpN)
  /-- The data of a SEND on endpoint k. -/
  | sendData (k : EpN)
  deriving DecidableEq, Repr

/-- An error of the PCIe link or transaction layer (R205). -/
inductive LinkErr where
  | receiver | badTlp | badDllp | replayTimeout | replayRollover | dlProtocol | overflow | fcProtocol | malformed
  deriving DecidableEq, Repr

/-- A request that the endpoint does not serve (R190). -/
inductive BadRequest where
  /-- An I/O request, a locked read, or a memory request with Memory Space Enable 0. -/
  | unsupported
  /-- A read of BAR0 longer than 16 DW. -/
  | tooLong
  /-- A poisoned write. -/
  | poisonedWrite
  /-- A write to BAR2. -/
  | bar2Write
  /-- A packet that the link or the transaction layer refuses (R205). -/
  | link (e : LinkErr)
  deriving DecidableEq, Repr

/-- A read request of the host, or the read of TB_TIME0 by another path (R146, R185, R190, R193, R194). -/
inductive HostRead where
  /-- TB_TIME0, alone, through path p. -/
  | reg (p : Path)
  /-- `n` DW from byte offset `off` of function d's BAR0. -/
  | bar0 (d : DomN) (off : Word) (n : Nat)
  /-- `n` DW from byte offset `off` of BAR2. -/
  | bar2 (off : Word) (n : Nat)
  /-- The DW at byte offset `off` of function d's configuration space. -/
  | config (d : DomN) (off : Nat)
  deriving DecidableEq, Repr

/-- A configuration-space field that software writes (R185 to R189, R203, R204, R207, VSEC). -/
inductive CfgField where
  | memorySpace | busMaster | msixEnable | functionMask | powerState | pmeEnable | pmeStatus
  | maxPayload | maxReadRequest | extendedTag | aspmL1 | clockPm | vfMemorySpace
  | bar0 | bar2 | vfBar0 | cto
  | aerUncStatus | aerUncMask | aerUncSeverity | aerCorStatus | aerCorMask
  /-- SERR# Enable, the four reporting enables of Device Control, and the four W1C bits of Device Status. -/
  | serrEnable | errorReporting | deviceStatus
  deriving DecidableEq, Repr

/-- Which mask an unmask clears (R204). -/
inductive MaskKind where
  /-- The mask bit of vector v's table entry. -/
  | vector (v : Fin 32)
  /-- Function Mask. -/
  | function
  deriving DecidableEq, Repr

/-- Which arbiter (The two arbiters). -/
inductive ArbName where
  | hma | ula
  deriving DecidableEq, Repr

/-- What the power sequencer saw fail or fall. -/
inductive FlushCause where
  | vsys | vlink | test
  deriving DecidableEq, Repr

/-- What a metering slot converts (R319). -/
inductive Sample where
  /-- A port's own slot: its current and voltage; `reg` says whether the loop regulates where the current
  lies within the tolerance of its limit (R300). -/
  | pair (i v : Word) (reg : Bool)
  /-- The port's spare slot: what the current and the voltage channel read, of which an idle channel's word is
  not used (R319). -/
  | spare (cur volt : Word)
  deriving DecidableEq, Repr

/-- A byte-enable pattern of a DW (R192). -/
inductive ByteEn where
  /-- All four bytes. -/
  | full
  /-- Bytes 0 and 1, and not both of 2 and 3. -/
  | both
  /-- Exactly one of bytes 0 and 1. -/
  | one
  /-- Only bytes 2 and 3, or none. -/
  | none
  deriving DecidableEq, Repr

/-- What the SFDP tables report (R374, R375, R380, R382). -/
structure Sfdp where
  /-- 256-byte page program. -/
  page256 : Bool
  /-- 4 KiB erase. -/
  erase4k : Bool
  erase64 : Bool
  suspend : Bool
  /-- Size in bytes. -/
  size    : Nat
  /-- Widest fast read offered: 0 = 1, 1 = 2, 2 = 4 bits. -/
  width   : Nat
  /-- 4-byte addressing instructions are listed. -/
  addr4   : Bool
  deriving DecidableEq, Repr

/-- The control symbols of a link (R52). -/
inductive Sym where
  | sop | eop | eab | idl | skp | crd | stk | pre | rsm | trn
  deriving DecidableEq, Repr

/-- One word time of what a port receives (R50, R51). -/
inductive RxUnit where
  /-- A word at Paddle: its 32 half-bits, the first one in bit 31, and whether it follows an ESC. -/
  | paddle (esc : Bool) (halves : BitVec 32)
  /-- A word above Paddle: its two characters, and the running disparity before them, true for positive. -/
  | chars (rd : Bool) (c1 c2 : BitVec 10)
  /-- A control word, decoded. -/
  | control (k : Sym) (param : BitVec 8)
  deriving DecidableEq, Repr

/-- A port and what it receives in one word time. -/
structure RxAt where
  port : PortN
  word : RxUnit
  deriving DecidableEq, Repr

/-- A port that loses its signal, and whether its FLD input is high at that moment (R72, R74). -/
structure SdLoss where
  port    : PortN
  fldHigh : Bool
  deriving DecidableEq, Repr

/-- The two argument words and the check word of a training set (R62). -/
structure TsSet where
  a0  : Word
  a1  : Word
  chk : Word
  deriving DecidableEq, Repr

/-- The rows of the operation table, in its order. -/
inductive Instr where
  /-- POR (R29): VSYS falls below 2.60 V, which asserts power-on reset and clears everything on both dies. -/
  | por
  /-- POR_RELEASE (R30): VSYS has stayed at or above 2.80 V for 64 LPO cycles, so POR is released, RST_CAUSE
  is set to 0x0001 and the wake order starts. -/
  | porRelease (straps : Word)
  /-- RESET_N_ASSERT (R41): A filtered low on RESET_N resets both dies as the RESET_N row of the reset table
  states. -/
  | resetNAssert
  /-- RESET_N_RELEASE (R41): The rising edge of RESET_N samples the straps and wakes the device to RUN. -/
  | resetNRelease (straps : Word)
  /-- AON_BROWNOUT (R345): The low-power KREG limit is exceeded, so the AON domain resets, B0 and B1 are
  invalidated, BOR is set and the device wakes to RUN. -/
  | aonBrownout
  /-- SWRST (R43): A write of 1 to GCTRL.SWRST resets the Link die, except the PCIe link and configuration
  space. -/
  | swrst (p : Path)
  /-- CFG_LOAD (R36): A write of 1 to GCTRL.CFG_LOAD starts reading, checking and applying the configuration
  image. -/
  | cfgLoad (p : Path)
  /-- BYTEWR_CLEAR (R45): A write of 1 to GCTRL.CNT_CLR clears GSTAT.BYTEWR. -/
  | bytewrClear (p : Path)
  /-- BYTE_WRITE (R45): A byte write to a register is ignored and counted in GSTAT.BYTEWR. -/
  | byteWrite (p : Path) (off : Word)
  /-- CFG_IMAGE_CHECKED (R36): The image read and check end, setting CFG_NONE, CFG_ERR or CFG_DONE. -/
  | cfgImageChecked (readOk : Bool) (ws : List Word)
  /-- PERST_ASSERT (R40): PE_PERST_N low resets the PCIe endpoint, MSI-X and the HMA queues, and tears down
  all domains. -/
  | perstAssert
  /-- PERST_RELEASE (R38): The release of PE_PERST_N starts PCIe link training and the readiness of
  configuration space. -/
  | perstRelease
  /-- PCIE_CONFIG_READY (R38): Configuration space becomes ready once CFG_BUSY is 0, ending the Retry Status
  answers. -/
  | pcieConfigReady
  /-- HOT_RESET (R40): A PCIe hot reset or DL_Down resets the endpoint as PE_PERST_N does, except the AER
  sticky bits. -/
  | hotReset (dlDown : Bool)
  /-- FLR_PF (R40): An FLR on the PF tears down domain 0 and clears VF Enable. -/
  | flrPf
  /-- FLR_VF (R209): An FLR on VFd tears down domain d within 100 ms. -/
  | flrVf (v : VfN)
  /-- VF_ENABLE (R188): Setting VF Enable brings VFs 1 to NumVFs into existence within 1 ms. -/
  | vfEnable
  /-- VF_DISABLE (R245): Clearing VF Enable, or lowering NumVFs, tears down the affected VF domains with cause
  4. -/
  | vfDisable
  /-- NUMVFS_WRITE (R188): A write to NumVFs is stored, capped at 7, only while VF Enable = 0. -/
  | numvfsWrite (n : Nat)
  /-- PCIE_CONFIG_WRITE (R185): A configuration write to another implemented PCIe capability field takes
  effect as PCI Express defines. -/
  | pcieConfigWrite (d : DomN) (field : CfgField) (v : BitVec 64)
  /-- TREE_RESET (R42): Four valid RST sets with argument 1 on UP are recognised as a tree reset: RST goes
  down every trained port and tree-reset state is cleared. -/
  | treeReset
  /-- PORT_RESET_RX (R40): Four valid RST sets with argument 2 on UP are recognised as a port reset, which
  clears the addresses, the hub requests and local transfers. -/
  | portResetRx
  /-- RST_DRIVE_END (R42): After 1 ms, the RST sent on the downstream ports ends. -/
  | rstDriveEnd (ports : Word)
  /-- CLK_PLAN_WRITE (R23): A write to CLK_PLAN sets PLL enable, reference selection, CORE source and CLK_OUT,
  and moves CORE to FIRC if PLL_EN is cleared. -/
  | clkPlanWrite (p : Path) (v : Word)
  /-- PLL_LOCK (R23): The PLL locks to its active reference within 60 µs of a reference being present. -/
  | pllLock (xin : Bool)
  /-- REF_FALLBACK (R24): The recovered reference is lost, so the PLL moves hitlessly to XIN, REF_FB is set
  and syntonisation ends. -/
  | refFallback (xin : Bool)
  /-- REF_RETURN (R24): The upstream link is at Half or above with REF_SEL = 1, so the PLL returns hitlessly
  to the recovered reference. -/
  | refReturn
  /-- SD_QUALIFIED (R67): SD has been asserted for 100 µs with power-good present, so the port leaves DETECT
  for ALIGN. -/
  | sdQualified (n : PortN)
  /-- SIGNAL_LOSS (R72): SD is deasserted for 10 µs (110 µs on a feathering link), or power-good is lost, so
  the port returns to DETECT. -/
  | signalLoss (x : SdLoss)
  /-- DETECT_HOLD_END (R67): The 16 ms hold of DETECT after a training failure ends. -/
  | detectHoldEnd (n : PortN)
  /-- WORD_ALIGN (R54): Three ESC–IDL pairs at one alignment give word alignment, and ALIGN moves to CAPS or
  TRIAL_SWITCH. -/
  | wordAlign (n : PortN)
  /-- ALIGN_TIMEOUT (R67): ALIGN times out after 2 ms, returning to DETECT and setting TFAIL. -/
  | alignTimeout (n : PortN)
  /-- TS_CAP_RX (R67): A valid TS_CAP is received, in CAPS or as a capability update in PADDLE or ACTIVE. -/
  | tsCapRx (n : PortN) (a0 a1 chk : Word)
  /-- TS_ACK_RX (R67): A TS_ACK echoing the port's own words is received, and after two of them CAPS
  completes. -/
  | tsAckRx (n : PortN) (a0 a1 chk : Word)
  /-- CAPS_TIMEOUT (R67): CAPS times out after 4 ms, returning to DETECT and setting TFAIL. -/
  | capsTimeout (n : PortN)
  /-- TS_TRIAL_RX (R67): A TS_TRIAL is received; the child echoes it, and each end switches rate after two are
  sent and received. -/
  | tsTrialRx (n : PortN) (a0 a1 chk : Word)
  /-- SWITCH_TIMEOUT (R69): SWITCH times out after 500 µs and the rate fails. -/
  | switchTimeout (n : PortN)
  /-- TS_READY_RX (R67): After 64 clean words, two TS_READY move RALIGN to TRIAL. -/
  | tsReadyRx (n : PortN) (clean : Nat) (args : Word × Word) (chk : Word)
  /-- RALIGN_TIMEOUT (R67): RALIGN times out after 100 µs and the rate fails. -/
  | ralignTimeout (n : PortN)
  /-- TRIAL_SENT (R67): The 8,192 words of PRBS-15 have been sent, and TS_RESULT follows. -/
  | trialSent (n : PortN) (rx : List (Option Word))
  /-- TS_RESULT_RX (R69): The parent judges the TS_RESULT counts against TRIAL_THR, and either sends TS_GO or
  fails the rate and tries the next candidate. -/
  | tsResultRx (n : PortN) (a0 a1 chk : Word)
  /-- TRIAL_TIMEOUT (R69): TRIAL outlasts its trial time plus 200 µs and the rate fails. -/
  | trialTimeout (n : PortN)
  /-- TS_GO_RX (R67): A TS_GO is received and the link enters PADDLE or ACTIVE. -/
  | tsGoRx (n : PortN) (a0 a1 chk : Word)
  /-- STEP_UP (R68): Step-up conditions hold in PADDLE, so the port leaves for SWITCH after the packet in
  progress ends. -/
  | stepUp (n : PortN)
  /-- CAP_UPDATE_SEND (R70): The XK17's own cause for a reduced rate mask ends, so it sends a capability
  update. -/
  | capUpdateSend (n : PortN)
  /-- TS_DOWN_RX (R72): A valid TS_DOWN from the partner sends the port to ALIGN. -/
  | tsDownRx (n : PortN) (a0 a1 chk : Word)
  /-- TS_DIS_RX (R72): Two valid TS_DIS from the partner send the port to DETECT. -/
  | tsDisRx (n : PortN) (a0 a1 chk : Word)
  /-- ERROR_BURST (R72): Eight errored words in a row on an electrical port trigger a retrain with reason 3.
  -/
  | errorBurst (n : PortN) (within1s : Bool)
  /-- ERROR_RATE (R72): A 1 ms SLOW window ends with 16 or more errored words, which triggers a retrain with
  reason 3. -/
  | errorRate (n : PortN) (within1s : Bool)
  /-- PORT_RETRAIN (R72): A write of 1 to PORT_CTRL.RETRAIN clears the cap and retrains from ALIGN with reason
  5. -/
  | portRetrain (p : Path) (n : PortN)
  /-- PORT_CNT_CLR (R8): A write of 1 to PORT_CTRL.CNT_CLR clears PORT_ERRCNT, PORT_CODEERR and PORT_FLOOD. -/
  | portCntClr (p : Path) (n : PortN)
  /-- FLOOD_START (R74): FLD asserts, or 4 errored words arrive within 16 word times, on an optical port; a
  flood episode starts and received words are discarded. -/
  | floodStart (n : PortN) (fldHigh : Bool)
  /-- FLOOD_END (R74): FLD is low and 32 clean words in a row have arrived, so the episode ends and
  TS_TALLYREQ is sent. -/
  | floodEnd (n : PortN)
  /-- FLOOD_TIMEOUT (R74): A flood episode outlasts FLOOD_MAX, which forces a retrain and sets FLOODX. -/
  | floodTimeout (n : PortN) (within1s : Bool)
  /-- PORT_DISABLE (R76): A write of 0 to PORT_CTRL.EN enters DISABLING: the port stomps, sends TS_DIS and
  drives TXEN low. -/
  | portDisable (p : Path) (n : PortN)
  /-- DISABLE_DONE (R76): The disable sequence ends, credits are reset and the port enters DISABLED, or DETECT
  if an enable is deferred. -/
  | disableDone (n : PortN)
  /-- PORT_ENABLE (R77): A write of 1 to PORT_CTRL.EN enters DETECT, or is deferred during DISABLING. -/
  | portEnable (p : Path) (n : PortN)
  /-- CRD_RX (R61): A received CRD word adds credits of its class to the available credits. -/
  | crdRx (n : PortN) (param : Word)
  /-- TS_TALLYREQ_RX (R61): A TS_TALLYREQ is answered with TS_TALLY carrying the cumulative credits returned.
  -/
  | tsTallyreqRx (n : PortN) (x : TsSet)
  /-- TS_TALLY_RX (R61): A TS_TALLY is compared with the credits received, and the difference is added to the
  available credits. -/
  | tsTallyRx (n : PortN) (a0 a1 chk : Word)
  /-- SKP_SEND (R56): Every 512 word times, the port sends one SKP word. -/
  | skpSend (n : PortN)
  /-- PRE_RX (R58): A PRE suspends the packet being received, or is a code violation that leaves the packet
  malformed.  `came`: the words since the fourth header word, or since the packet was last resumed; none before
  the fourth header word. -/
  | preRx (n : PortN) (came : Option Nat)
  /-- RSM_RX (R59): An RSM and its offset word resume the suspended packet, or discard it on a count mismatch.
  `off` and `top`: bits [9:0] and [15:10] of the offset word. -/
  | rsmRx (n : PortN) (off : BitVec 10) (top : BitVec 6)
  /-- RECEIVE_WITHOUT_CREDIT (R281): A word arrives while the receive buffer is full; the packet is handled as
  malformed and the word is counted. -/
  | receiveWithoutCredit (n : PortN)
  /-- PACKET_HEADER_RX (R90): A packet's header check is taken and its route is decided once, or the packet is
  discarded. -/
  | packetHeaderRx (n : PortN) (w0 : Word) (w1 : Word) (w2 : Word) (w3 : Word) (len : Word)
  /-- PACKET_TRAILER_RX (R86): A packet's trailer passes or fails, or the packet is found malformed; a failed
  copy is closed with EAB.  The words after the header: the payload, and the two trailer words as far as the
  packet has them. -/
  | packetTrailerRx (n : PortN) (payload : List Word) (t0 t1 : Option Word)
  /-- EAB_RX (R86): A received EAB discards the packet and closes started copies with the received reason. -/
  | eabRx (n : PortN) (reason : BitVec 8) (words : Word) (pcls : Bool)
  /-- SELECTOR_START (R114): At a packet boundary, the transmit selector starts the first packet that has its
  credits, by the rule's order. -/
  | selectorStart (m : DnN)
  /-- RECORD_EXPIRY (R107): A record still unanswered 4 ms after its request was sent is freed and counted. -/
  | recordExpiry (m : DnN) (addr : Word) (endp : BitVec 5) (tag : BitVec 7)
  /-- PROXY_RX (R95): The proxy forwarder takes a PROXY whose trailer has passed and answers STALL, GONE or
  NAK, or sends the inner packet. -/
  | proxyRx
  /-- HUBREQ_RX (R99): A hub request is queued, refused when four are held, or recognised as a retry. -/
  | hubreqRx
  /-- GET_NODE_INFO (R100): The hub function returns the node information words. -/
  | getNodeInfo
  /-- SET_ADDRESS (R100): The hub function sets NODE_ADDR or LOCAL_ADDR after the response has been queued. -/
  | setAddress
  /-- GET_PORT_STATUS (R100): The hub function returns a port's status words. -/
  | getPortStatus
  /-- SET_PORT_FEATURE_ENABLE (R77): The hub function sets PORT_CTRL.EN = 1. -/
  | setPortFeatureEnable
  /-- CLEAR_PORT_FEATURE_ENABLE (R76): The hub function sets PORT_CTRL.EN = 0. -/
  | clearPortFeatureEnable
  /-- SET_PORT_FEATURE_RETRAIN (R72): The hub function writes PORT_CTRL.RETRAIN = 1. -/
  | setPortFeatureRetrain
  /-- CLEAR_PORT_FEATURE_EVENTS (R100): The hub function writes 0x03FF to PORT_EVT. -/
  | clearPortFeatureEvents
  /-- SET_PORT_FEATURE_PORT_RESET (R63): The hub function sends a port reset on a port that has a link. -/
  | setPortFeaturePortReset
  /-- SET_PORT_FEATURE_FRAG (R100): The hub function sets PORT_CTRL.FRAG_EN = 1. -/
  | setPortFeatureFrag
  /-- CLEAR_PORT_FEATURE_FRAG (R100): The hub function sets PORT_CTRL.FRAG_EN = 0. -/
  | clearPortFeatureFrag
  /-- SET_PORT_FEATURE_SUSPEND (R172): The hub function starts selective suspend of a port. -/
  | setPortFeatureSuspend
  /-- CLEAR_PORT_FEATURE_SUSPEND (R173): The hub function resumes a selectively suspended port. -/
  | clearPortFeatureSuspend
  /-- SET_PORT_FEATURE_BCN_FWD (R175): The hub function enables beacon forwarding on a port. -/
  | setPortFeatureBcnFwd
  /-- CLEAR_PORT_FEATURE_BCN_FWD (R175): The hub function disables beacon forwarding on a port. -/
  | clearPortFeatureBcnFwd
  /-- SET_ROUTE (R100): The hub function writes a port's routing range, refusing overlaps. -/
  | setRoute
  /-- SET_MCAST (R100): The hub function writes a multicast entry and clears MC_HITS. -/
  | setMcast
  /-- SET_SCHEDULE (R109): The hub function writes schedule entries, which take effect at the next stroke
  boundary. -/
  | setSchedule
  /-- SET_CREW (R100): The hub function writes a crew's four registers together. -/
  | setCrew
  /-- SET_CLOCK_PLAN (R100): The hub function writes CLK_PLAN, unless REGLOCK.HUB_CLK refuses it. -/
  | setClockPlan
  /-- GET_METER (R328): The hub function returns live or snapshot meter values. -/
  | getMeter
  /-- SET_PORT_POWER (R100): The hub function writes PPS_CTRL.ON of a port. -/
  | setPortPower
  /-- READ_LOG (R373): The hub function returns black-box entries from B0. -/
  | readLog
  /-- SERVICE_WATCHDOG (R360): The hub function makes one watchdog service write on the bus path, only when
  the hub is headless. -/
  | serviceWatchdog
  /-- GET_SURVEY_RECORD (R100): The hub function returns the kept survey record, or NOTREADY. -/
  | getSurveyRecord
  /-- SET_BUDGET (R297): The hub function writes PPS_BUDGET with clamping. -/
  | setBudget
  /-- SSPLIT_RX (R121): The TT takes an SSPLIT: it matches a slot, takes a slot and chunks and sends the inner
  request, or refuses with NAK, STALL or a periodic drop. -/
  | ssplitRx
  /-- CSPLIT_RX (R121): The TT answers a CSPLIT with NYET, the stored answer, NAK, EMPTY or STALL. -/
  | csplitRx
  /-- CHUNK_GRANT (R119): A free chunk is given to an answer waiting in its port's receive buffer, with the
  lowest port winning. -/
  | chunkGrant
  /-- TT_SLOT_TIMEOUT (R122): A non-periodic slot reaches its TT_TMO-th stroke boundary without its answer and
  fails. -/
  | ttSlotTimeout (j : Fin 48)
  /-- TT_SLOT_EXPIRE (R122): A stored or failed slot still uncollected at the 2 × TT_TMO-th boundary is freed
  silently. -/
  | ttSlotExpire (j : Fin 48)
  /-- PERIODIC_SLOT_EXPIRE (R123): A periodic slot still held at the boundary that ends stroke n + 1 is freed
  silently. -/
  | periodicSlotExpire (j : Fin 48)
  /-- TT_CNT_CLR (R8): A write of 1 to TT_CTRL.CNT_CLR clears TT_ERR and resets TT_HWM. -/
  | ttCntClr (p : Path)
  /-- STROKE_BOUNDARY (R148): A stroke boundary falls on the grid when locked, or at the arrival of an
  accepted beacon otherwise. -/
  | strokeBoundary
  /-- BEACON_MISSED (R148): No beacon is accepted by 2 µs after its expected arrival, so a boundary is placed
  and MISSED advances. -/
  | beaconMissed
  /-- STK_BEACON_RX (R150): An STK beacon on UP is checked, and if accepted drives the servo, the period
  detection and the suspend timer. -/
  | stkBeaconRx (ws : List Word) (chk : Word) (whole : Bool)
  /-- SLEW_TICK (R155): Every ⌈1,000,000 ÷ TB_SLEW⌉ ticks, one tick of the pending correction is added or
  withheld. -/
  | slewTick
  /-- HOLDOVER_EXPIRY (R157): Holdover outlasts HOLD_MAX, so HOLDOVER clears, HOLDEXP is set and held cues are
  released. -/
  | holdoverExpiry
  /-- TB_TIME0_READ (R146): A read of TB_TIME0 latches TB_TIME1–3 and TB_STROKE0/1 for that access path. -/
  | tbTime0Read (r : HostRead)
  /-- CATCH (R161): A crew's catch instant arrives: held cues are released, CATCH pins pulse and a snapshot
  may be taken. -/
  | catchDue (crews : BitVec 8)
  /-- CATCH_PIN_END (R164): A CATCH pin's pulse ends after WIDTH × 40 ns. -/
  | catchPinEnd (i : Fin 4)
  /-- STROKE_OUT_END (R165): The 1 µs STROKE_OUT pulse ends. -/
  | strokeOutEnd
  /-- CENSUS_OPEN (R130): A census OPEN is taken: the census engine resends or builds the report for the heat
  and sends it. -/
  | censusOpen
  /-- SURVEY_OPEN (R137): A survey OPEN with a new sweep number starts the sweep, records the depth and sends
  PROBE 1. -/
  | surveyOpen
  /-- PROBE_TIMEOUT (R137): 1 ms after a PROBE with no matching ECHO, the next PROBE is sent, or probing ends
  after the third. -/
  | probeTimeout
  /-- SURVEY_PROBE (R139): A PROBE from below adds the port to the walk set and is answered with an ECHO
  carrying T. -/
  | surveyProbe
  /-- SURVEY_ECHO (R140): A matching ECHO gives t4, and the hop delay d is computed and stored. -/
  | surveyEcho
  /-- SURVEY_TOKEN (R141): A TOKEN for the current sweep leads to the hub's RECORD once its probing ends, or
  is answered with RETURN or ignored. -/
  | surveyToken
  /-- RECORD_SENT (R141): The RECORD's EOP has left UP, so the walk of the downstream ports starts. -/
  | recordSent
  /-- PROBE_WAIT_TIMEOUT (R141): The wait for a hub partner's PROBE ends without one, and the port is closed
  with a BREAK of cause 3. -/
  | probeWaitTimeout
  /-- SURVEY_PORT_TIMEOUT (R141): A walked port's SURVEY_TMO timer expires, and the port is closed with a
  BREAK of cause 1. -/
  | surveyPortTimeout (m : DnN)
  /-- SURVEY_RETURN (R141): A RETURN finishes the port, and the hub goes on to the next port or sends RETURN
  upward. -/
  | surveyReturn
  /-- SURVEY_KEEP (R141): A KEEP of the current sweep restarts the waiting port's timer. -/
  | surveyKeep
  /-- KEEP_TIMER (R142): Every SURVEY_TMO ÷ 4 while holding the token, the hub sends KEEP on UP. -/
  | keepTimer
  /-- UP_SUSPEND_TIMEOUT (R168): The UP suspend timer expires, so the bus is suspended and UP enters the hold.
  -/
  | upSuspendTimeout
  /-- PORT_SILENCE_TIMEOUT (R168): A downstream silence timer expires, so the port is quiet and enters the
  hold. -/
  | portSilenceTimeout (m : DnN)
  /-- HOLD_IDL_DONE (R169): The 100 µs of IDL on a holding port ends, TXEN goes low and HELD reads 1. -/
  | holdIdlDone (n : PortN)
  /-- PORT_SUSPEND (R172): A write of PORT_FEATHER.SUSP = 1 stops beacons on the port from the next beacon on.
  -/
  | portSuspend (p : Path) (m : DnN)
  /-- PORT_RESUME (R173): A write of PORT_FEATHER.SUSP = 0 resumes beacons, or drives Dn_BCN for 20 ms after a
  hold. -/
  | portResume (p : Path) (m : DnN)
  /-- BEACON_FROM_ABOVE (R175): UP_BCN asserted for 1 µs while UP is held is recognised; it is forwarded and
  presented as the UP_SD wake source. -/
  | beaconFromAbove
  /-- UP_BCN_DEASSERT (R176): UP_BCN deasserts, so UP's hold ends and EV_RESUME is raised. -/
  | upBcnDeassert
  /-- BCN_DRIVE_END (R176): A Dn_BCN drive ends after its minimum 20 ms and the port's hold ends. -/
  | bcnDriveEnd (m : DnN)
  /-- UP_HOLD_SD_END (R177): SD on a held UP stays asserted for 1 ms with UP_BCN deasserted, which ends UP's
  hold. -/
  | upHoldSdEnd
  /-- TX_IDLE_DARK (R183): The transmitter has had nothing to send for 64 ns × 2^IDLE and goes dark. -/
  | txIdleDark (n : PortN)
  /-- TX_WAKE (R182): A dark transmitter wakes for a packet, a training set, a beacon or waiting credits, and
  sends wake IDL. -/
  | txWake (n : PortN)
  /-- DARK_LIMIT (R182): After 100 µs dark, the transmitter wakes, sends one SKP and any waiting CRD, and goes
  dark again. -/
  | darkLimit (n : PortN)
  /-- SCHED_PREWAKE (R184): The transmitter wakes so that its first useful word falls at a scheduled window or
  a catch instant. -/
  | schedPrewake (n : PortN)
  /-- SCHED_WINDOW_END (R184): A scheduled window ends and the transmitter goes dark once it has nothing to
  send. -/
  | schedWindowEnd (n : PortN)
  /-- L1_ENTRY (R191): After 8 µs with nothing to send, the XK17 requests ASPM L1. -/
  | l1Entry
  /-- L1_EXIT (R191): A doorbell watch, a write or a message due in L1 starts the exit from L1. -/
  | l1Exit
  /-- MEM_REQUEST_REFUSED (R190): An I/O, locked, over-long, poisoned or disabled-space memory request
  completes with UR or CA, or is discarded. -/
  | memRequestRefused (d : DomN) (kind : BadRequest)
  /-- D3HOT_ENTRY (R207): A function enters D3hot and stops issuing requests and messages. -/
  | d3hotEntry (d : DomN)
  /-- D0_RETURN (R207): A function returns to D0, and its held events are written and their vectors fire. -/
  | d0Return (d : DomN)
  /-- DOM_RIGHTS_WRITE (R200): A PF write to DOM_RIGHTS sets rights and moves WDT_SERVICE, clearing it in the
  previous holder. -/
  | domRightsWrite (d : DomN) (v : Word)
  /-- GAP_TIMER_END (R203): A vector's gap timer ends, and a held flag sends one message or the vector becomes
  idle. -/
  | gapTimerEnd (d : DomN) (v : Fin 32)
  /-- MSIX_UNMASK (R204): A vector or Function Mask is cleared, and its pending message is sent. -/
  | msixUnmask (d : DomN) (which : MaskKind)
  /-- COMPLETION_TIMEOUT (R206): A read issued by the XK17 times out after the completion timeout. -/
  | completionTimeout (d : DomN) (u : ReadUse)
  /-- HMA_DECISION (R263): The HMA chooses the next grant by slot entry, level, grant age and ID, and updates
  ages, quotas and hints. -/
  | hmaDecision
  /-- ULA_DECISION (R271): The ULA's 4-cycle arbitration phase picks the next packet for UP. -/
  | ulaDecision
  /-- ULA_PREEMPT (R272): A preemption phase finds a periodic winner, so PRE is sent, the word count is stored
  and the holder is suspended. -/
  | ulaPreempt (sent : Nat)
  /-- ULA_RESUME (R273): After a periodic EOP, the ULA resumes the suspended packet with RSM and the offset
  word, or closes it if its input failed. -/
  | ulaResume
  /-- EMERGENCY_GRANT (R270): HMA requester 19 takes the path at the next beat boundary and sets the holder
  aside. -/
  | emergencyGrant
  /-- HOLD_CUTOFF (R268): A holder goes longer than its hold limit without progress, so it is cut off,
  EV_CUTOFF is raised and a new decision is taken. -/
  | holdCutoff (arb : ArbName)
  /-- CUT_CLEAR (R269): A write of 1 to a CUT bit makes the requester eligible again from the next decision.
  -/
  | cutClear (p : Path) (arb : ArbName) (half : Fin 2) (v : Word)
  /-- DOORBELL_WATCH (R215): A domain's adaptive watch interval expires and the doorbell page read is
  presented to the HMA. -/
  | doorbellWatch (d : DomN)
  /-- PRESTROKE_WATCH (R216): LEAD µs before a predicted stroke boundary, an extra doorbell page read is made.
  -/
  | prestrokeWatch (d : DomN)
  /-- DOORBELL_READ_DONE (R213): The doorbell page read completes, and changed counts start fetches and adjust
  the interval. -/
  | doorbellReadDone (d : DomN) (cmdPi : Word) (evtCi : Word) (pis : List Word)
  /-- DOORBELL_RETRY (R242): FAST after a failed doorbell read, the watcher retries once, and a second failure
  puts the domain in FAULT. -/
  | doorbellRetry (d : DomN)
  /-- HOST_READ_FAILED (R242): A read that fails by timeout, UR, CA or poison is handled by its purpose and
  sets HOSTERR. -/
  | hostReadFailed (d : DomN) (u : ReadUse) (kind : ReadFail)
  /-- COMMAND_FETCH_DONE (R219): Up to 8 command descriptors arrive and are queued for execution in ring
  order. -/
  | commandFetchDone (d : DomN) (cmds : List W8)
  /-- NOP (R218): The NOP command completes with OK. -/
  | nop (d : DomN)
  /-- RING_SET (R218): The RING_SET command sets an owned endpoint's transfer ring. -/
  | ringSet (d : DomN)
  /-- RING_STOP (R218): The RING_STOP command stops an endpoint's ring, completes its descriptors with STOPPED
  and empties its buffer. -/
  | ringStop (d : DomN)
  /-- EP_HALT (R218): The EP_HALT command halts an endpoint, or clears its halt and EP_SEQ.VALID. -/
  | epHalt (d : DomN)
  /-- PORT_POWER (R218): The PORT_POWER command writes PPS_CTRL.ON, gated by the PORT_POWER right. -/
  | portPower (d : DomN)
  /-- CMD_SET_BUDGET (R218): The SET_BUDGET command writes PPS_BUDGET, gated by the PORT_POWER right. -/
  | cmdSetBudget (d : DomN)
  /-- PPS_LIMIT (R218): The PPS_LIMIT command writes PPS_ILIM, PPS_PFOLD, PPS_TFAULT or PPS_RETRY of a port.
  -/
  | ppsLimit (d : DomN)
  /-- METER_SNAP (R330): The METER_SNAP command requests a snapshot and completes with the new MTR_SEQ. -/
  | meterSnap (d : DomN)
  /-- METER_READ (R218): The METER_READ command writes live or snapshot meter data to host memory. -/
  | meterRead (d : DomN)
  /-- CREW_SET (R218): The CREW_SET command writes a crew's four registers together. -/
  | crewSet (d : DomN)
  /-- CATCH_PIN (R218): The CATCH_PIN command writes a CATCH_PIN register. -/
  | catchPin (d : DomN)
  /-- LOG_READ (R373): The LOG_READ command writes black-box entries to host memory. -/
  | logRead (d : DomN)
  /-- PORT_STATUS (R218): The PORT_STATUS command writes a port's status words to host memory. -/
  | portStatus (d : DomN)
  /-- NODE_INFO (R218): The NODE_INFO command writes the node information to host memory. -/
  | nodeInfo (d : DomN)
  /-- COMMAND_DATA_DONE (R219): A command's host data writes have been issued, and its EV_CMD follows. -/
  | commandDataDone (d : DomN)
  /-- DESCRIPTOR_FETCH_DONE (R221): Transfer descriptors arrive and are checked; a bad one completes with
  BADDESC. -/
  | descriptorFetchDone (d : DomN) (k : EpN) (descs : List W8)
  /-- SEND_DATA_FETCH_DONE (R221): The SEND data has arrived in the endpoint buffer, which is now full. -/
  | sendDataFetchDone (d : DomN) (k : EpN) (data : List Nat)
  /-- RECV_DRAIN (R221): A full OUT buffer is drained into a fetched RECV's host buffer, and the RECV
  completes. -/
  | recvDrain (k : EpN)
  /-- EVENT_WRITE (R224): An event entry is written to the event ring once space allows, and its vector fires.
  -/
  | eventWrite (d : DomN)
  /-- LOCAL_SETUP (R232): A SETUP to endpoint 0 is ACKed and stored, ending the open control transfer. -/
  | localSetup
  /-- LOCAL_OUT_DATA (R230): A BOUT or a CDATA with data is stored and ACKed, ACKed again as a retry, or
  NAKed. -/
  | localOutData
  /-- LOCAL_IN_REQUEST (R230): A BINQ or an empty CDATA gets the data, a repeat of it, a confirmation and NAK,
  or NAK. -/
  | localInRequest
  /-- LOCAL_CSTAT (R232): A CSTAT is answered by the fetched STATUS descriptor, or with NAK. -/
  | localCstat
  /-- LOCAL_POUT (R230): A POUT is stored in an empty buffer, or overruns. -/
  | localPout
  /-- LOCAL_PINQ (R230): A PINQ gets PIND with the data and empties the buffer, or gets EMPTY. -/
  | localPinq
  /-- CONFIRM_TIMEOUT (R231): 4 ms pass with no request to an endpoint holding sent data, so the SEND
  completes OK and the buffer empties. -/
  | confirmTimeout (k : EpN)
  /-- EP_MISSED (R233): EP_PERIOD strokes pass with the buffer full and no request, so EP_ERR.MISSED advances.
  -/
  | epMissed (k : EpN)
  /-- LN_ENABLE (R226): A write of 1 to LN_CTRL.EN enables the local node and sends a capability update,
  unless headless. -/
  | lnEnable (p : Path)
  /-- LN_DISABLE (R226): A write of 0 to LN_CTRL.EN unassigns LOCAL_ADDR and completes fetched descriptors
  with STOPPED. -/
  | lnDisable (p : Path)
  /-- EP_ENABLE (R228): A write of EP_CFG.EN from 0 to 1 checks the buffer allocation and enables the endpoint
  or sets ALLOCERR. -/
  | epEnable (p : Path) (k : EpN)
  /-- EP_DISABLE (R236): A write clearing EP_CFG.EN empties the endpoint's buffer. -/
  | epDisable (p : Path) (k : EpN)
  /-- EP_CNT_CLR (R8): A write of 1 to EP_CFG.CNT_CLR clears EP_ERR. -/
  | epCntClr (p : Path) (k : EpN)
  /-- EPMASK_WRITE (R229): A PF write to DOM_EPMASK moves endpoints whose ring is not set to domain d. -/
  | epmaskWrite (d : DomN) (half : Fin 2) (v : Word)
  /-- DOMAIN_ENABLE (R239): A write of 1 to DOM_CTRL.EN moves an OFF domain to RUN, or is deferred during
  teardown. -/
  | domainEnable (d : DomN)
  /-- DOMAIN_DISABLE (R245): A write of 0 to DOM_CTRL.EN starts a cause 1 teardown, with its first steps. -/
  | domainDisable (d : DomN)
  /-- TEARDOWN_COMPLETE (R246): Once the domain's reads have ended, endpoints and rights return to domain 0,
  STATE becomes 0 and a deferred enable takes effect. -/
  | teardownComplete (d : DomN)
  /-- RESYNC_GO (R250): A write of 1 to DOM_SUMCTL.GO moves a RUN or FAULT domain to EASY, or is ignored. -/
  | resyncGo (d : DomN)
  /-- EASY_STATE (R251): All started work has ended, so the domain enters SUMMARY and its counts are taken. -/
  | easyState (d : DomN)
  /-- SUMMARY_DONE (R252): The last Summary Block write is issued, so DOM_SUMSEQ advances, BUSY clears and the
  domain returns to RUN. -/
  | summaryDone (d : DomN)
  /-- QUEUE_POINTER_MISMATCH (R279): The two copies of a queue pointer differ, so the queue is reset, Q_ERR is
  set and EV_QUEUE_ERR is raised. -/
  | queuePointerMismatch (q : Nat) (wr : Bool) (rd : Bool)
  /-- QUEUE_INJECT (R279): A write of 1 to Q_CTRL.INJ forces a pointer mismatch on the queue named by INJ_Q.
  -/
  | queueInject (p : Path) (q : BitVec 8)
  /-- Q_CNT_CLR (R8): A write of 1 to Q_CTRL.CNT_CLR clears Q_ERRCNT. -/
  | qCntClr (p : Path)
  /-- EVF_POP (R283): A management SPI read of EVF_DATA0 pops the head entry, or underruns on an empty FIFO.
  -/
  | evfPop
  /-- EVF_FLUSH (R285): A write of 1 to EVF_CTRL.FLUSH empties the management event FIFO and clears LOST. -/
  | evfFlush (p : Path)
  /-- PPS_ON (R293): A write of PPS_CTRL.ON = 1 reserves 4 W and starts RAMP, or enters WAIT, as the state
  allows. -/
  | ppsOn (p : Path) (m : DnN)
  /-- PPS_OFF (R304): A write of PPS_CTRL.ON = 0 moves ON to STOPPING, WAIT or RETRY to OFF, or is noted in
  RAMP. -/
  | ppsOff (p : Path) (m : DnN)
  /-- PPS_FCLR (R312): A write of 1 to PPS_CTRL.FCLR clears USED and ends LATCHED. -/
  | ppsFclr (p : Path) (m : DnN)
  /-- METER_SAMPLE (R319): A sequencer slot ends with a port's current and voltage sample, or a spare-slot
  sample, and the energy accumulator is updated. -/
  | meterSample (m : DnN) (x : Sample)
  /-- POWER_GOOD (R303): The gate has held at 8 V for PGDLY and VOUT is up, so PG is set and RAMP ends at the
  power-good checkpoint. -/
  | powerGood (m : DnN) (vgs : Word)
  /-- POWER_GOOD_LOSS (R303): A power-good condition fails for 100 µs and PG clears. -/
  | powerGoodLoss (m : DnN)
  /-- FOLD_TMO (R301): The foldback timer passes TFAULT, so the gate turns off and the switch enters RETRY. -/
  | foldTmo (m : DnN)
  /-- OC (R302): VSNS exceeds 2 × ILIM, so the fast trip pulls the gate down within 1 µs. -/
  | oc (m : DnN)
  /-- SHORT_OFF (R307): VOUT stays above 2 V for 20 ms in OFF, and the switch latches. -/
  | shortOff (m : DnN)
  /-- GATE_STUCK (R307): 1 ms after gate drive starts the gate-source voltage is below 3 V, so the gate turns
  off and the switch latches. -/
  | gateStuck (m : DnN) (vgs : Word)
  /-- REVERSE (R307): VOUT exceeds VLINK_IN + 0.5 V for 10 µs, so the gate turns off and the switch latches.
  -/
  | reverse (m : DnN)
  /-- LEGOPEN (R315): A gang leg reads below one eighth of the others' mean for 1 ms, and gang policy DROP or
  DERATE applies. -/
  | legopen (m : DnN)
  /-- RETRY_END (R310): The RETRY off time ends and the switch re-enters RAMP. -/
  | retryEnd (m : DnN)
  /-- RETRY_COUNT_CLEAR (R310): PG has held for 1 s without a fault, so USED clears. -/
  | retryCountClear (m : DnN)
  /-- GATE_OFF_CHECKPOINT (R305): The gate falls below 1 V, or 1 ms passes, in STOPPING; the switch re-ramps
  or releases its allocation and discharges. -/
  | gateOffCheckpoint (m : DnN) (vgs : Word)
  /-- DISCHARGE_END (R304): 100 ms after the checkpoint, DISCHARGE ends and the switch enters OFF. -/
  | dischargeEnd (m : DnN)
  /-- OFF_DISCHARGE_END (R306): The first 100 ms of OFF end, the discharge path turns off and the SHORT_OFF
  check arms. -/
  | offDischargeEnd (m : DnN)
  /-- BUDGET_WRITE (R297): A write to PPS_BUDGET is stored with clamping, and frees budget for waiting ports.
  -/
  | budgetWrite (p : Path) (v : Word)
  /-- PCLASS_WRITE (R298): A write to PORT_PCLASS of port 0 stores the class and sends a capability update on
  UP. -/
  | pclassWrite (p : Path) (v : Word)
  /-- GANG_WRITE (R313): A write to PPS_GANG forms gangs, or is refused for a gang with a member not in OFF.
  -/
  | gangWrite (p : Path) (v : Word)
  /-- VLINK_LOW (R318): VLINK_IN falls below 9.0 V, so VLOW is set, starts are held and a flush may be
  triggered. -/
  | vlinkLow
  /-- VLINK_RESTORED (R318): VLINK_IN rises through 9.0 V, so VLOW clears and the VLINK wake source may act.
  -/
  | vlinkRestored
  /-- SNAPSHOT_GO (R329): A write of 1 to MTR_SNAP.GO requests a snapshot, merged if one is in progress. -/
  | snapshotGo (p : Path)
  /-- SNAPSHOT_COMPLETE (R330): The snapshot copy completes, the new bank becomes visible, MTR_SEQ advances
  and EV_METER_READY is raised. -/
  | snapshotComplete
  /-- FEATHER_IDLE_EXPIRY (R337): The idle count reaches FEATHER_IDLE and the device enters FEATHER. -/
  | featherIdleExpiry
  /-- STOW_IDLE_EXPIRY (R337): The idle count reaches STOW_IDLE with the STOW conditions holding, and the
  device enters STOW. -/
  | stowIdleExpiry
  /-- PM_REQ_FEATHER (R338): A write of PM_CTRL.REQ = 1 enters FEATHER at once if its conditions hold. -/
  | pmReqFeather (p : Path)
  /-- PM_REQ_STOW (R338): A write of PM_CTRL.REQ = 2 enters STOW at once if its conditions hold. -/
  | pmReqStow (p : Path)
  /-- KREG_LOW_POWER (R340): OFFDLY after PWR_EN falls, KREG enters low-power mode. -/
  | kregLowPower
  /-- KREG_BOOST_END (R344): 1 ms after the last high-current action in STOW, KREG returns to low-power mode.
  -/
  | kregBoostEnd
  /-- KREG_HEAVY (R343): The low-power load exceeds 96 µA and KREG_STAT.HEAVY is set. -/
  | kregHeavy
  /-- WAKE_SOURCE (R347): An enabled wake source is recognised in FEATHER or STOW and starts the wake order.
  -/
  | wakeSource (pins : BitVec 8) (srcs : Word) (during : Bool)
  /-- CORE_PG_RISE (R349): CORE_PG goes high after PWR_EN, and the SETTLE wait starts. -/
  | corePgRise
  /-- LINK_DIE_RESET_RELEASE (R349): After SETTLE or the fixed DLY, the Link die reset is released, the core
  runs on FIRC and the device proceeds to RUN. -/
  | linkDieResetRelease (sfdp : Option Sfdp)
  /-- POWER_UP_FAILURE (R352): CORE_PG is not high DLY after PWR_EN rose, so PWR_EN goes low and the attempt
  is recorded. -/
  | powerUpFailure
  /-- POWER_UP_RETRY (R352): 100 ms after a power-up failure the wake order restarts, or PUFAIL is set after
  three failures. -/
  | powerUpRetry
  /-- LINK_DIE_POWER_LOSS (R353): CORE_PG is low for 10 µs while PWR_EN is high, so the link is isolated,
  CORELOSS is set and PWR_EN is held low. -/
  | linkDiePowerLoss
  /-- CORELOSS_RESTART (R353): After PWR_EN has been low for 10 ms, the wake order runs with B1 to B4 invalid.
  -/
  | corelossRestart
  /-- WDT_TIMEOUT (R362): WDT_COUNT reaches WDT_PERIOD, so the watchdog expires with CAUSE 1, asserts
  WDT_NMI_N and starts grace. -/
  | wdtTimeout
  /-- WDT_SERVICE_WRITE (R361): A service write arms a path, completes a service, or fails and expires the
  watchdog. -/
  | wdtServiceWrite (p : Path) (v : Word)
  /-- WDT_KEY_WRITE (R365): A write to WDT_KEY advances or breaks the key sequence, and the full sequence
  clears EN unless locked. -/
  | wdtKeyWrite (p : Path) (v : Word)
  /-- WDT_ENABLE (R365): A write of 1 to WDT_CTRL.EN enables the watchdog and restarts the count. -/
  | wdtEnable (p : Path)
  /-- WDT_LOCK_SET (R366): A write of 1 to WDT_LOCK locks HRST_EN, MG_SVC, WDT_GRACE and the key until POR. -/
  | wdtLockSet (p : Path)
  /-- WDT_PERIOD_WRITE (R359): A write to WDT_PERIOD or WDT_WINDOW in the open window is pending until the
  next service; outside it is refused. -/
  | wdtPeriodWrite (p : Path) (window : Bool) (v : Word)
  /-- WDT_GRACE_END (R364): Grace ends: a black-box entry is written, the Link die resets, WDT_NMI_N is
  released and HOST_RST_N may be pulsed. -/
  | wdtGraceEnd
  /-- HOST_RST_END (R364): After 10 units, HOST_RST_N is released. -/
  | hostRstEnd
  /-- BB_ENTRY (R368): A black-box entry reaches B0 and is stored at HEAD, or dropped while frozen. -/
  | bbEntry
  /-- BB_REARM (R370): A write of 1 to BB_CTRL.REARM clears TRIG and FROZEN. -/
  | bbRearm (p : Path)
  /-- BB_CLEAR (R370): A write of 1 to BB_CTRL.CLEAR zeroes the record, HEAD, COUNT and LOST, and rearms. -/
  | bbClear (p : Path)
  /-- BB_INDEX_WRITE (R372): A write to BB_INDEX copies a B0 slot into BB_DATA0–7, or starts a flash copy. -/
  | bbIndexWrite (p : Path) (v : Word)
  /-- BB_FLASH_COPY_DONE (R372): The flash read for BB_INDEX completes, or fails and sets RDERR. -/
  | bbFlashCopyDone (mgPath : Bool) (e : Option W8)
  /-- LG_SCAN (R374): A write of LG_EN from 0 to 1, a Link die reset release or an applied image starts a scan
  of the flash region. -/
  | lgScan
  /-- LG_SCAN_DONE (R374): The scan ends: the last gasp is armed at the lowest erased slot, or FULL is set. -/
  | lgScanDone (slot : Option Nat)
  /-- SUPPLY_FAIL (R376): VSYS stays below 2.95 V for 2 µs, so the flush starts: SUPPLY_FAIL is stored and the
  slot contents are fixed. -/
  | supplyFail
  /-- BB_TEST_FLUSH (R376): A write of 1 to BB_CTRL.TEST starts a test flush. -/
  | bbTestFlush (p : Path)
  /-- FLASH_SUSPENDED (R376): The flash reports the host operation suspended, so PWR_EN goes low and
  programming starts. -/
  | flashSuspended
  /-- PAGE_PROGRAM_DONE (R376): A flush page program completes, and the next page starts or the flush ends
  with SLOT and LAST updated. -/
  | pageProgramDone
  /-- SUPPLY_RESTORED (R377): VSYS stays at 3.00 V for 1 ms after a flush, so FLUSH_DONE is written and the
  Link die restarts. -/
  | supplyRestored
  /-- FL_READ (R382): The READ flash operation reads a byte into FL_STAT.DATA. -/
  | flRead (p : Path) (addr : BitVec 32)
  /-- FL_NEXT (R382): The NEXT flash operation reads the following byte. -/
  | flNext (p : Path)
  /-- FL_PROGRAM (R382): The PROGRAM flash operation programs N bytes within one page, unless R375 refuses it.
  -/
  | flProgram (p : Path) (addr : BitVec 32) (n : BitVec 12) (ws : List Word)
  /-- FL_ERASE4K (R382): The ERASE4K flash operation erases a 4 KiB sector, unless R375 refuses it. -/
  | flErase4k (p : Path) (addr : BitVec 32)
  /-- FL_ERASE64K (R382): The ERASE64K flash operation erases a 64 KiB block, unless R375 refuses it. -/
  | flErase64k (p : Path) (addr : BitVec 32)
  /-- FL_ABORT (R382): The ABORT flash operation discards the frame being assembled. -/
  | flAbort (p : Path)
  /-- FL_OP_DONE (R382): A host flash operation ends, BUSY clears and DONE is set. -/
  | flOpDone (byte : BitVec 8) (fail : Bool)
  /-- MG_WRITE (R383): A management SPI frame with opcode 0x02 writes one register. -/
  | mgWrite (addr : Word) (v : Word)
  /-- MG_READ (R383): A management SPI frame with opcode 0x03 reads one register. -/
  | mgRead (addr : Word)
  /-- MG_WRITE_BURST (R383): A management SPI frame with opcode 0x0A writes consecutive word addresses. -/
  | mgWriteBurst (addr : Word) (ws : List Word)
  /-- MG_READ_BURST (R383): A management SPI frame with opcode 0x0B reads consecutive word addresses. -/
  | mgReadBurst (addr : Word) (n : Nat)
  /-- MG_STATUS (R383): A management SPI frame with opcode 0x05 returns the status byte and clears LDMISS and
  FRAMEERR. -/
  | mgStatus
  /-- REGLOCK_WRITE (R428): A write to REGLOCK sets the limits and LOCK, or is refused for locked bits and
  sets REF. -/
  | reglockWrite (p : Path) (v : Word)
  /-- REGISTER_WRITE (R8): A write to a register with no row of its own acts by its fields' access codes.
  One DW, and those that follow it in the same request (R193). -/
  | registerWrite (p : Path) (off : Word) (dw : ByteEn × BitVec 32) (more : List (ByteEn × BitVec 32))
  /-- XIN_LOSS (R23): The clock on XIN stops while XIN is the PLL's reference, so the PLL loses lock, REF_ACT
  and PLL_LOCK read 0 and CORE moves to FIRC. -/
  | xinLoss
  /-- CODE_VIOLATION (R52): An errored or misplaced word is received on a port: it is discarded, counted in
  PORT_CODEERR and a TS_TALLYREQ becomes due. -/
  | codeViolation (x : RxAt)
  /-- EOP_SENT (R121): A packet's last word leaves an output. The words it held free buffer space for CRD, and
  TT chunks or slots, PIND sends and census reports complete. -/
  | eopSent (n : PortN)
  /-- SD_CHANGE (R179): SD deasserts or asserts on a feathering link, and the receiver powers its termination
  and clock recovery down or up. -/
  | sdChange (n : PortN) (level : Bool)
  /-- MG_CS_N_FALLING (R344): MG_CS_N falls in STOW with MG_BOOST = 1, and KREG switches to normal mode within
  10 µs, before the frame's clocks. -/
  | mgCsNFalling
  /-- FRAMEERR (R383): A management SPI frame carries an unknown opcode or ends when MG_CS_N rises early, so
  FRAMEERR is set and nothing is written. -/
  | frameerr
  /-- UNEXPECTED_COMPLETION (R206): A completion arrives that matches no outstanding read, for example after
  its timeout; it is discarded and logged as Unexpected Completion in the PF. -/
  | unexpectedCompletion
  /-- PCIE_L0_REACHED (R208): The PCIe link reaches L0, and the XK17 releases PE_WAKE_N. -/
  | pcieL0Reached
  deriving DecidableEq, Repr

end Sys2Proof
end

