-- ==== Sys2Proof/Decode.lean ====
section
/-! DEFINITION. The reading of a table word.  The operation table gives no row any bits: a command is an
event with its operands, and no word spells one. -/

namespace Sys2Proof

/-- The command that a word of `nbits` bits spells by the table: none, since no row has bits. -/
def decodeTableWord (_nbits _w : Nat) : Option Instr := none

end Sys2Proof
end

