-- ==== Sys2Proof/Config.lean ====
section
/-! DEFINITION. What one part fixes and what the spec leaves open: the fused identifier, and the
free values that no rule gives.  Each is a constant with no body, so no proof can see its value. -/

namespace Sys2Proof.Config

/-- The fused 64-bit UID, word `i` (ID_UID0–3).  Bit 0 of word 0 is not taken from here: it is
always 0 (R227).  Log entry 3. -/
opaque fuse : Nat → Word

/-- Whether the LPO has an edge in an idle tick: no rule gives its phase to CORE.  Log entry 5. -/
opaque lpoEdge : Nat → Bool

/-- Whether a watchdog unit ends in an idle tick: WDOSC depends on no other clock (R356).
Log entry 5. -/
opaque wdoscUnit : Nat → Bool

/-- The residence r_n of a regenerated beacon on port n, in ticks: R151 bounds the delay and gives
no value.  Log entry 8. -/
opaque residence : Nat → Nat → Nat

/-- The frequency of XIN against the recovered clock that TB_SYNT holds (R153).  Log entry 9. -/
opaque synt : Nat → Word

/-- How many words of a packet in progress have left an output when it is cut short: the spec gives
word times, and the model counts no word times.  Log entry 10. -/
opaque wordsSent : Nat → Nat

/-- The header of the TLP that an AER header log records (R187): the events carry no TLP.
Log entry 11. -/
opaque tlpHeader : Nat → BitVec 128

/-- The greatest time an operation took, in µs, where an entry records a duration.  Log entry 12. -/
opaque duration : Nat → Nat

/-- A reading that no rule gives: the gate voltage and the like, at the moment a row reports.
Log entry 13. -/
opaque reading : Nat → Word

/-- Whether the completion buffer has space for a further read while others are outstanding: the spec names
the buffer and gives no size (R268).  Log entry 122. -/
opaque completionRoom : Nat → Bool

/-- Whether the PCIe link trained to x1, and whether to 2.5 GT/s: R185 lets it fall back and the row of the link
carries neither.  Log entry 133. -/
opaque linkX1 : Nat → Bool

/-- Which of the banks B2 to B4, at bits 1 to 3, pass their check at a wake from FEATHER: what the retained
contents became is no state of the model (R342).  Log entry 135. -/
opaque banksGood : Nat → Word

/-- A clock starts on XIN, which the table gives no row of its own (R416).  Log entry 74. -/
opaque xinStarts : Nat → Bool

/-- See `linkX1`. -/
opaque linkGen1 : Nat → Bool

/-- Whether a port in RALIGN has aligned at the trial rate before its first TS_READY: the rows carry no word
alignment above Paddle (R76).  Log entry 151. -/
opaque trialAligned : Nat → Bool

/-- How many IDL words beyond 64 a port sends in RALIGN before its two TS_READY (R67).  Log entry 152. -/
opaque readyIdl : Nat → Nat

/-- COUNT of the valid configuration image that the flash holds, 0 for none, where no load has looked: the
flash's contents are no state of the model (R374).  Log entry 167. -/
opaque flashImage : Nat → Nat

end Sys2Proof.Config
end

