-- ==== Sys2Proof/Machine/Bits.lean ====
section
/-! DEFINITION. Bit-field helpers: reading and writing the fields of a 16-bit register, saturating
counters, and the words of longer values (Numbers, units and names in Scope, R7). -/

namespace Sys2Proof.Machine

open Sys2Proof

/-- Bit `i` of a register word. -/
def bit (w : Word) (i : Nat) : Bool := w.getLsbD i

/-- Field `[lo + len - 1 : lo]` of a register word. -/
def fld (w : Word) (lo len : Nat) : Nat := (w.toNat >>> lo) % 2 ^ len

/-- The word that holds `b` at bit `i` and 0 elsewhere. -/
def atBit (b : Bool) (i : Nat) : Word := if b then BitVec.ofNat 16 (2 ^ i) else 0#16

/-- The word that holds the `len` low bits of `v` from bit `lo` up, and 0 elsewhere. -/
def atFld (v lo len : Nat) : Word := BitVec.ofNat 16 ((v % 2 ^ len) * 2 ^ lo)

/-- A register word with bit `i` replaced. -/
def setBit (w : Word) (i : Nat) (b : Bool) : Word :=
  (w &&& ~~~ (BitVec.ofNat 16 (2 ^ i))) ||| atBit b i

/-- A register word with field `[lo + len - 1 : lo]` replaced. -/
def setFld (w : Word) (lo len v : Nat) : Word :=
  (w &&& ~~~ (BitVec.ofNat 16 ((2 ^ len - 1) * 2 ^ lo))) ||| atFld v lo len

/-- The bits of `old` where `mask` is 0 and those of `new` where it is 1. -/
def mergeMask (mask old new : Word) : Word := (old &&& ~~~ mask) ||| (new &&& mask)

/-- The OR of a list of words: a register composed of its fields. -/
def orAll (ws : List Word) : Word := ws.foldl (· ||| ·) 0#16

/-- A count that stays at `top` once it reaches it. -/
def satInc (top n : Nat) : Nat := if n < top then n + 1 else n

/-- A count advanced by `k` that stays at `top` once it reaches it. -/
def satAdd (top n k : Nat) : Nat := min top (n + k)

/-- `v` brought into the range `lo` to `hi`. -/
def clampN (lo hi v : Nat) : Nat := max lo (min hi v)

/-- Word `i` of a value, bits `[16 i + 15 : 16 i]`. -/
def wordOf (v i : Nat) : Word := BitVec.ofNat 16 (v / 2 ^ (16 * i))

/-- A number as a word. -/
def w16 (n : Nat) : Word := BitVec.ofNat 16 n

/-- The value whose words are `ws`, the least significant first. -/
def ofWords : List Word → Nat
  | [] => 0
  | w :: ws => w.toNat + 65536 * ofWords ws

/-- Replace word `i` of a value of `n` words. -/
def setWordOf (v i : Nat) (w : Word) : Nat :=
  v - ((v / 2 ^ (16 * i)) % 65536) * 2 ^ (16 * i) + w.toNat * 2 ^ (16 * i)

/-- The number of set bits of the first `n`. -/
def popCount (n v : Nat) : Nat := (List.range n).foldl (fun a i => a + (v / 2 ^ i) % 2) 0

/-- Two's complement reading of a 16-bit value. -/
def sInt (w : Word) : Int := w.toInt

/-- Element `i` of a list of words, 0 where there is none. -/
def wAt (ws : List Word) (i : Nat) : Word := ws.getD i 0#16

/-- A word is the byte pair (first byte in the low half, R7). -/
def bytesLE (w : Word) : List Nat := [w.toNat % 256, w.toNat / 256]

end Sys2Proof.Machine
end

