-- ==== Sys2Proof/Machine/Tab.lean ====
section
/-! DEFINITION. A sparse table in canonical form: keys strictly rising, and no entry equal to what
an unlisted key reads as.  Equal tables are equal lists.  It holds the endpoint memory, the slots
of B0, the multicast table, the schedules and the slot tables. -/

namespace Sys2Proof.Machine

open Sys2Proof

/-- What key `k` reads as: its entry, or `d` where none is listed. -/
def tabGet {α : Type} (d : α) : List (Nat × α) → Nat → α
  | [], _ => d
  | (j, a) :: t, k => if j = k then a else tabGet d t k

/-- Put `a` at key `k`, before the first larger key. -/
def tabPut {α : Type} (k : Nat) (a : α) : List (Nat × α) → List (Nat × α)
  | [] => [(k, a)]
  | (j, b) :: t => if k < j then (k, a) :: (j, b) :: t
    else if k = j then (k, a) :: t else (j, b) :: tabPut k a t

/-- Remove key `k`. -/
def tabDel {α : Type} (k : Nat) (t : List (Nat × α)) : List (Nat × α) :=
  t.filter fun e => e.1 != k

/-- Write `a` at key `k`; writing what an unlisted key reads as removes the entry. -/
def tabSet {α : Type} [DecidableEq α] (d : α) (t : List (Nat × α)) (k : Nat) (a : α) :
    List (Nat × α) :=
  if a = d then tabDel k t else tabPut k a t

/-- The canonical form: keys strictly rising, and no entry equal to the default. -/
def tabWf {α : Type} [DecidableEq α] (d : α) : List (Nat × α) → Bool
  | [] => true
  | (j, a) :: t => a != d && t.all (fun e => j < e.1) && tabWf d t

/-- Write a list of values at consecutive keys. -/
def tabSetRange {α : Type} [DecidableEq α] (d : α) (t : List (Nat × α)) (k : Nat) :
    List α → List (Nat × α)
  | [] => t
  | a :: as => tabSetRange d (tabSet d t k a) (k + 1) as

end Sys2Proof.Machine
end

