-- ==== Sys2Proof/Machine/Types.lean ====
section
/-! DEFINITION. The plain data that several blocks share: packet headers and packets, events,
black-box entries, and what the part puts out on its pins and buses. -/

namespace Sys2Proof.Machine

open Sys2Proof

/-- A packet header (Packet layout in chapter 4). The epoch, tag and class are kept as the four header words
carry them; HCHK is recomputed whenever the header is sent (R79). -/
structure Hdr where
  typ   : BitVec 4
  odd   : Bool
  pcls  : Bool
  hop   : BitVec 10
  addr  : Word
  endp  : BitVec 5
  epoch : BitVec 4
  tag   : BitVec 7
  tsb   : BitVec 8
  deriving DecidableEq, Repr

/-- A whole packet: header and payload words (the trailer is computed, R80). -/
structure Pkt where
  hdr     : Hdr
  payload : List Word
  deriving DecidableEq, Repr

/-- An event raised by a block: code, SRC and the data words W1 to W5 (R222). -/
structure Ev where
  code : Nat
  src  : Nat
  w1   : Word := 0#16
  w2   : Word := 0#16
  w3   : Word := 0#16
  w4   : Word := 0#16
  w5   : Word := 0#16
  deriving DecidableEq, Repr

/-- An event queued for one domain, with the W6 and SEQ it got when it was raised (R222, R224).
`force` marks the EV_CMD of a command in progress at a GO, which EASY lets out (R251). -/
structure EvQ where
  ev    : Ev
  time  : Word
  seq   : Nat
  force : Bool := false
  deriving DecidableEq, Repr

/-- The eight words of a black-box entry (R367). -/
abbrev Entry := W8

/-- A slot that holds no entry reads all zero (R367). -/
def Entry.zero : Entry := Vector.replicate 8 0#16

/-- A black-box entry of code `c` and source `src`, stamped with TB_TIME (`aon = false`) or AON
time (R367). -/
def mkEntry (c src : Nat) (w2 w3 : Word) (aon : Bool) (time : Nat) : Entry :=
  #v[w16 c, w16 (src % 256 + if aon then 0x8000 else 0), w2, w3,
     wordOf time 0, wordOf time 1, wordOf time 2, wordOf time 3]

/-- The kinds of training set (R62). -/
inductive TsKind where
  | cap | ack | trial | ready | result | go | down | dis | rst | tallyReq | tally
  deriving DecidableEq, Repr

/-- The type code of a training set, its parameter byte (R62). -/
def tsCode : TsKind → Nat
  | .cap => 0x01
  | .ack => 0x02
  | .trial => 0x03
  | .ready => 0x04
  | .result => 0x05
  | .go => 0x06
  | .down => 0x07
  | .dis => 0x08
  | .tally => 0x09
  | .tallyReq => 0x0A
  | .rst => 0xE5

/-- How the flash controller carries out an operation (R380): bits at a time (0 = 1, 1 = 2, 2 = 4), FL_SCK
at 50 MHz, and 4-byte addressing. -/
structure FlMode where
  width : Nat
  fast  : Bool
  addr4 : Bool
  deriving DecidableEq, Repr

/-- The error messages of PCI Express (R205). -/
inductive ErrMsg where
  | cor | nonFatal | fatal
  deriving DecidableEq, Repr

/-- What the part puts out, in the order it puts it out. -/
inductive Out where
  /-- A training set on port n: the rate it goes out at, its type, its two arguments and its check word (R62, R67,
  R76). -/
  | ts (n : PortN) (rate : Nat) (k : TsKind) (a0 a1 chk : Word)
  /-- A CRD word on port n with its parameter (R60). -/
  | crd (n : PortN) (param : Nat)
  /-- SKP on port n (R56). -/
  | skp (n : PortN)
  /-- A whole packet on port n, closed with EOP. -/
  | pkt (n : PortN) (p : Pkt)
  /-- A packet on port n closed with EAB after so many of its words, with the reason (R60, R86, R113). -/
  | eab (n : PortN) (p : Pkt) (words reason : Nat)
  /-- PRE on port n (R58). -/
  | pre (n : PortN)
  /-- RSM and its offset word on port n (R59). -/
  | rsm (n : PortN) (off : Nat)
  /-- An STK beacon on port n: the seven words after STK (R57). -/
  | stk (n : PortN) (words : List Word)
  /-- RST sets with this argument, 1 for a tree reset and 2 for a port reset, driven on port m + 1, or ended
  (R63). -/
  | rst (m : DnN) (arg : Nat) (on : Bool)
  /-- The IDL words with which a dark transmitter of port n wakes, or a trial begins: how many (R67, R182). -/
  | idl (n : PortN) (words : Nat)
  /-- The pattern of a trial on port n: the state its generator starts from and how many words (R67). -/
  | prbs (n : PortN) (seed : BitVec 15) (words : Nat)
  /-- A memory write of function d: address and bytes (R189). -/
  | hostWrite (d : DomN) (addr : Nat) (bytes : List Nat)
  /-- A memory read of function d: address and length (R189). -/
  | hostRead (d : DomN) (addr len : Nat)
  /-- An MSI-X message of function d (R202). -/
  | msix (d : DomN) (vec : Nat) (addr data : Nat)
  /-- A PM_PME message of function d (R208). -/
  | pme (d : DomN)
  /-- An error message of function d (R205). -/
  | errMsg (d : DomN) (k : ErrMsg)
  /-- A completion with Unsupported Request (`true`) or Completer Abort for function d (R190). -/
  | badCompletion (d : DomN) (ur : Bool)
  /-- Configuration Request Retry Status for a request to function d (R38). -/
  | retryStatus (d : DomN)
  /-- A successful completion of function d, with the DWs it returns (R185, R190, R192). -/
  | completion (d : DomN) (data : List (BitVec 32))
  /-- A value read by a party through a register access. -/
  | readData (p : Path) (v : Word)
  /-- The management status byte (R383). -/
  | mgStatus (v : Nat)
  /-- A flash operation started: OP, address, count, and how (R376, R380, R382). -/
  | flash (op addr n : Nat) (how : FlMode)
  /-- Bytes programmed by a host operation or by the last-gasp writer: with 4-byte addressing, address and bytes
  (R376, R380, R382). -/
  | flashPage (addr4 : Bool) (addr : Nat) (bytes : List Nat)
  /-- The flash's suspend command, or its resume command (R376, R377). -/
  | flashCmd (resume : Bool)
  deriving DecidableEq, Repr

end Sys2Proof.Machine
end

