-- ==== Sys2Proof/Machine/StHost.lean ====
section
/-! DEFINITION. The state of the Link die's host side: global registers, clocks, the PCIe
endpoint, the eight domains with their rings and vectors, the local node, the two arbiters, the
queue checker with the management event FIFO, and the flash controller, with reset values. -/

namespace Sys2Proof.Machine

open Sys2Proof

/-! ## Global registers and clocks (chapters 1, 2 and 21) -/

/-- GSTAT, REGLOCK and SCRATCH (R36, R45, R428, R430). -/
structure Glob where
  bytewr  : Nat
  cfgBusy : Bool
  cfgDone : Bool
  cfgErr  : Bool
  cfgNone : Bool
  /-- GCTRL.CFG_LOAD reads 1 until the load it started ends. -/
  cfgLoad : Bool
  /-- COUNT of the image applied since the Link die's reset, 0 for none, and its FLAGS (R380, R381). -/
  imgCount : Nat
  imgFlags : Nat
  /-- COUNT of the valid image in the flash, 0 for none, as far as a load has found it since (R374). -/
  imgSeen : Option Nat
  hubPwr  : Bool
  hubClk  : Bool
  mgWr    : Bool
  ref     : Bool
  lock    : Bool
  scratch : Word
  /-- PORT_PCLASS.REQ of port 0, the class this XK17 asks for (R298). -/
  pclass0 : Nat
  deriving DecidableEq, Repr

/-- The global registers at reset. -/
def Glob.reset : Glob where
  bytewr := 0
  cfgBusy := false
  cfgDone := false
  cfgErr := false
  cfgNone := false
  cfgLoad := false
  imgCount := 0
  imgFlags := 0
  imgSeen := none
  hubPwr := false
  hubClk := false
  mgWr := false
  ref := false
  lock := false
  scratch := 0#16
  pclass0 := 7

/-- CLK_PLAN and the PLL (R21 to R24). -/
structure Clk where
  plan    : Word
  pllLock : Bool
  corePll : Bool
  /-- REF_ACT: 0 none, 1 XIN, 2 recovered (R23). -/
  refAct  : Nat
  refFb   : Bool
  badPlan : Bool
  xinOk   : Bool
  /-- The recovered reference was lost while the PLL relocked: REF_FB is set at lock. -/
  fbDue   : Bool
  deriving DecidableEq, Repr

/-- The clocks after reset: CORE on FIRC, the PLL off. -/
def Clk.reset : Clk where
  plan := 0#16
  pllLock := false
  corePll := false
  refAct := 0
  refFb := false
  badPlan := false
  xinOk := false
  fbDue := false

/-! ## PCI Express endpoint (chapter 9) -/

/-- State of the PCIe link. -/
inductive PLink where
  | down | l0 | l1
  deriving DecidableEq, Repr

/-- One function's configuration space that software writes, and its AER registers (R185 to R187, R205). -/
structure Fn where
  mse     : Bool
  bme     : Bool
  msixEn  : Bool
  fnMask  : Bool
  d3      : Bool
  extTag  : Bool
  /-- SERR# Enable, and the reporting enables of Device Control: correctable, non-fatal, fatal, Unsupported
  Request (R205). -/
  serr    : Bool
  errEn   : BitVec 4
  /-- Device Status: correctable, non-fatal, fatal and Unsupported Request detected (R205). -/
  devStat : BitVec 4
  mps     : Nat
  mrrs    : Nat
  aerUnc     : BitVec 32
  aerUncMask : BitVec 32
  aerUncSev  : BitVec 32
  aerCor     : BitVec 32
  aerCorMask : BitVec 32
  /-- First Error Pointer, and the header log it describes (R187). -/
  firstErr   : Nat
  hdrLog     : BitVec 128
  /-- A Function Level Reset is under way (R209). -/
  flr     : Bool
  deriving DecidableEq, Repr

/-- A function after reset.  The AER mask and severity defaults are those of PCI Express Base 2.1. -/
def Fn.reset : Fn where
  mse := false
  bme := false
  msixEn := false
  fnMask := false
  d3 := false
  extTag := false
  serr := false
  errEn := 0#4
  devStat := 0#4
  mps := 0
  mrrs := 2
  aerUnc := 0#32
  aerUncMask := 0#32
  aerUncSev := 0x00062030#32
  aerCor := 0#32
  aerCorMask := 0x00002000#32
  firstErr := 0
  hdrLog := 0#128
  flr := false

/-- A read of host memory that is outstanding (R189, R206). -/
structure ReadOut where
  dom : DomN
  use : ReadUse
  /-- Descriptors that it fetches. -/
  n   : Nat
  /-- A pre-stroke watch (R216). -/
  pre : Bool
  /-- Bytes that it fetches, and their place in the data that the move fetches. -/
  off : Nat
  len : Nat
  deriving DecidableEq, Repr

/-- The PCIe endpoint. -/
structure Pcie where
  link     : PLink
  /-- Configuration space is ready (R38). -/
  ready    : Bool
  fns      : Vector Fn 8
  vfe      : Bool
  numVfs   : Nat
  vfMse    : Bool
  aspmL1   : Bool
  clkPm    : Bool
  /-- PE_CLKREQ_N is deasserted (R191). -/
  clkReqHi : Bool
  bar0     : Nat
  bar2     : Nat
  vfBar0   : Nat
  cto      : Nat
  /-- The link came up at x1, or at 2.5 GT/s (R185). -/
  x1       : Bool
  gen1     : Bool
  reads    : List ReadOut
  deriving DecidableEq, Repr

/-- The PCIe endpoint after a reset of it. -/
def Pcie.reset : Pcie where
  link := .down
  ready := false
  fns := Vector.replicate 8 Fn.reset
  vfe := false
  numVfs := 0
  vfMse := false
  aspmL1 := false
  clkPm := false
  clkReqHi := false
  bar0 := 0
  bar2 := 0
  vfBar0 := 0
  cto := 200
  x1 := false
  gen1 := false
  reads := []

/-! ## Domains (chapters 9, 10 and 11) -/

/-- Domain states (R238), in the order of their codes. -/
inductive DomSt where
  | off | run | easy | summary | fault | teardown
  deriving DecidableEq, Repr

/-- A ring that is running, or why it stopped (R214, R242). -/
inductive RingSt where
  | running | ringErr | hostErr
  deriving DecidableEq, Repr

/-- A command fetched from the ring: its count and eight words (R218). -/
structure Cmd where
  count : Word
  w     : W8
  deriving DecidableEq, Repr

/-- A command in progress, with the result its EV_CMD carries (R219). -/
structure CmdRun where
  cmd    : Cmd
  /-- Result words W4 and W5. -/
  r4     : Word
  r5     : Word
  /-- Host data still to be written: address and bytes. -/
  data   : Option (Nat × List Nat)
  /-- Waits for a snapshot copy (R330). -/
  snap   : Bool
  deriving DecidableEq, Repr

/-- An MSI-X table entry. -/
structure Msix where
  addr : Nat
  data : Nat
  mask : Bool
  deriving DecidableEq, Repr

/-- A domain's registers, rings, events and vectors. -/
structure Dom where
  en        : Bool
  st        : DomSt
  defer     : Bool
  teardowns : Nat
  db        : Nat
  cmdBase   : Nat
  evtBase   : Nat
  sum       : Nat
  cmdSz     : Word
  evtSz     : Word
  /-- DOM_SUMCTL.BUSY and IGN, DOM_SUMSEQ. -/
  busy      : Bool
  ign       : Nat
  sumSeq    : Word
  /-- DOM_STAT when GO was accepted, and the reads outstanding then (R255). -/
  goStat    : Word
  goReads   : Nat
  rights    : Word
  denied    : Nat
  cadence   : Word
  err       : Word
  evLost    : Nat
  evtMap    : Vector Word 4
  mod       : Word
  cmdPi     : Word
  /-- CMD_PI as last read, whether it was accepted or not (R213, R255). -/
  cmdRaw    : Word
  cmdNext   : Word
  cmdRing   : RingSt
  cmdQ      : List Cmd
  cmdRun    : Option CmdRun
  lastCtag  : Word
  lastStat  : Nat
  evtCi     : Word
  /-- EVT_CI as last read: the XK17 acts only on counts that differ from it (R213). -/
  evtRaw    : Word
  /-- The next watch compares with the XK17's own consumer counts (R253). -/
  recheck   : Bool
  producer  : Word
  evq       : List EvQ
  evSeq     : Nat
  /-- Bytes 0 to 11 of the oldest entry have been written, and its last four are due (R223). -/
  evPart    : Bool
  /-- Messages due that have no place in the IN engine's queue yet, oldest first (R202, R240). -/
  msgs      : List Nat
  /-- Present watch interval, in units of 0.5 µs (R215). -/
  interval  : Nat
  /-- A doorbell read failed and its retry is due (R242). -/
  retry     : Bool
  msix      : Vector Msix 32
  held      : BitVec 32
  gapRun    : BitVec 32
  pba       : BitVec 32
  tdCause   : Nat
  tdStart   : Nat
  tdTimeouts : Nat
  tdCut     : Bool
  /-- The Summary Block's counts, taken at the Easy state: its 1,024 words (R251, R255). -/
  block     : List Word
  /-- Bytes of the block that have been issued (R252). -/
  sumAt     : Nat
  deriving DecidableEq, Repr

/-- DOM_RIGHTS and the other registers of domain d at reset. -/
def Dom.reset (d : DomN) : Dom where
  en := false
  st := .off
  defer := false
  teardowns := 0
  db := 0
  cmdBase := 0
  evtBase := 0
  sum := 0
  cmdSz := 0#16
  evtSz := 0#16
  busy := false
  ign := 0
  sumSeq := 0#16
  goStat := 0#16
  goReads := 0
  rights := if d = 0 then 0x001F#16 else 0x0000#16
  denied := 0
  cadence := 0x9814#16
  err := 0#16
  evLost := 0
  evtMap := Vector.replicate 4 0#16
  mod := 0#16
  cmdPi := 0#16
  cmdRaw := 0#16
  cmdNext := 0#16
  cmdRing := .running
  cmdQ := []
  cmdRun := none
  lastCtag := 0#16
  lastStat := 0
  evtCi := 0#16
  evtRaw := 0#16
  recheck := false
  producer := 0#16
  evq := []
  evSeq := 0
  evPart := false
  msgs := []
  interval := 20
  retry := false
  msix := Vector.replicate 32 { addr := 0, data := 0, mask := true }
  held := 0#32
  gapRun := 0#32
  pba := 0#32
  tdCause := 0
  tdStart := 0
  tdTimeouts := 0
  tdCut := false
  block := []
  sumAt := 0

/-! ## Local node (chapter 10) -/

/-- A transfer descriptor: its count and eight words (R220). -/
structure Desc where
  count : Word
  w     : W8
  deriving DecidableEq, Repr

/-- The last answer other than NAK, which a retry with the same TAG draws again (R230, R232). -/
inductive EpAns where
  | none | ack | data | cstat | stall
  deriving DecidableEq, Repr

/-- A local endpoint (R226 to R237). -/
structure Ep where
  en       : Bool
  typ      : Nat
  dirIn    : Bool
  buf      : Nat
  size     : Nat
  owner    : DomN
  full     : Bool
  sent     : Bool
  halt     : Bool
  cueHeld  : Bool
  /-- The held cue's place in the order in which the local node accepted them (R161). -/
  cueOrd   : Nat
  ring     : Bool
  ringErr  : Bool
  allocErr : Bool
  stage    : Nat
  period   : Nat
  overrun  : Nat
  setupLost : Nat
  missed   : Nat
  seqTag   : BitVec 7
  seqValid : Bool
  retries  : Nat
  /-- Size code, base and counts of the transfer ring (R212, R218). -/
  ringSize : Nat
  ringBase : Nat
  next     : Word
  pi       : Word
  /-- EPk_PI as last read, whether it was accepted or not (R213, R256). -/
  piRaw    : Word
  /-- Bytes of the SEND at the head that have been asked for, and of the buffer that have been drained. -/
  asked    : Nat
  moved    : Nat
  /-- Descriptors fetched and not completed, oldest first: from DONE up to NEXT. -/
  descs    : List Desc
  /-- Bytes in the buffer. -/
  len      : Nat
  /-- The buffer's data came from a SEND, not from the root. -/
  inData   : Bool
  /-- The buffer holds a SETUP (R232). -/
  setup    : Bool
  /-- The packet in the buffer was a cue, the crew that holds it, and whether its data has reached the host (R234). -/
  cue      : Bool
  crew     : Option CrewN
  stroke   : Nat
  drained  : Bool
  /-- The catch has come and the completion follows the data write, with LATE = 1. -/
  late     : Bool
  /-- Bus TAG of the packet in the buffer. -/
  tag      : BitVec 7
  /-- Catch instant of the held cue (R160). -/
  catchAt  : Nat
  /-- SENDs whose PIND has been handed over and whose EOP has not left, with bytes and TAG (R230). -/
  flight   : List (Desc × Nat × BitVec 7)
  ans      : EpAns
  deriving DecidableEq, Repr

/-- Endpoint k at reset. -/
def Ep.reset (k : EpN) : Ep where
  en := false
  typ := if k = 0 then 0 else 1
  dirIn := false
  buf := k.val * 16
  size := 64
  owner := 0
  full := false
  sent := false
  halt := false
  cueHeld := false
  cueOrd := 0
  ring := false
  ringErr := false
  allocErr := false
  stage := 0
  period := 0
  overrun := 0
  setupLost := 0
  missed := 0
  seqTag := 0#7
  seqValid := false
  retries := 0
  ringSize := 0
  ringBase := 0
  next := 0#16
  pi := 0#16
  piRaw := 0#16
  asked := 0
  moved := 0
  descs := []
  len := 0
  inData := false
  setup := false
  cue := false
  crew := none
  stroke := 0
  drained := false
  late := false
  tag := 0#7
  catchAt := 0
  flight := []
  ans := .none

/-- The local node. -/
structure Ln where
  en    : Bool
  uid   : Vector Word 4
  cls   : Word
  eps   : Vector Ep 32
  /-- The 32 KiB of endpoint memory; an address that is not listed reads 0. -/
  mem   : List Host.Cell
  deriving DecidableEq, Repr

/-- The local node at reset: EN follows the straps, the UID is the hub's with bit 0 set (R226, R227). -/
def Ln.reset (en : Bool) (uid : Vector Word 4) : Ln where
  en := en
  uid := uid.set 0 (uid[0] ||| 0x0001#16)
  cls := 0#16
  eps := Vector.ofFn Ep.reset
  mem := []

/-! ## Arbiters (chapter 12) -/

/-- What both arbiters keep (R259 to R269). -/
structure Arb where
  ctrl   : Word
  window : Word
  quota  : Word
  starve : Word
  hold   : Word
  flags  : BitVec 32
  cuts   : BitVec 32
  pri    : Vector Word 28
  slots  : List (Nat × Word)
  ptr    : Nat
  gage   : Vector Nat 28
  wage   : Vector Nat 28
  tokens : Vector Nat 28
  /-- Window and quota in force: writes count from the next window start (R265). -/
  curWin : Nat
  curQuo : Nat
  wpos   : Nat
  hint   : Vector Word 28
  holder : Option Nat
  aside  : Option Nat
  deriving DecidableEq, Repr

/-- An arbiter at reset, with its own limits and levels. -/
def Arb.reset (starve hold : Word) (pri hint : Nat → Word) (slots : List (Nat × Word)) : Arb where
  ctrl := 0x0007#16
  window := 0x0100#16
  quota := 0x0020#16
  starve := starve
  hold := hold
  flags := 0#32
  cuts := 0#32
  pri := Vector.ofFn fun r => pri r.val
  slots := slots
  ptr := 0
  gage := Vector.replicate 28 65535
  wage := Vector.replicate 28 0
  tokens := Vector.replicate 28 32
  curWin := 256
  curQuo := 32
  wpos := 0
  hint := Vector.ofFn fun r => hint r.val
  holder := none
  aside := none

/-- A request at the HMA (R259).  A move of several PCIe requests presents them one after another and
keeps its place in the queue until the last. -/
inductive HReq where
  /-- A read of the OUT engine of domain d. -/
  | read (d : DomN) (u : ReadUse)
  /-- A doorbell watch of domain d, a pre-stroke watch or not: it waits in the watch queue. -/
  | watch (d : DomN) (pre : Bool)
  /-- The drain of endpoint k into host memory. -/
  | drain (d : DomN) (k : EpN)
  /-- The oldest event entry of domain d that may be written. -/
  | entry (d : DomN)
  /-- An MSI-X message of vector v. -/
  | msg (d : DomN) (v : Nat)
  /-- The Summary Block of domain d. -/
  | block (d : DomN)
  /-- The host data of domain d's command. -/
  | data (d : DomN)
  deriving DecidableEq, Repr

/-- The host-memory arbiter: the queues of its requesters, and the request that has been granted and has
not been issued to its end (R270). -/
structure Hma where
  arb  : Arb
  reqs : Vector (List HReq) 20
  cur  : Option HReq
  /-- The last write of a grant whose owner has gone, set aside for requester 19: its domain, address and bytes
  (R246, R270). -/
  left : Option (DomN × Nat × List Nat)
  deriving DecidableEq, Repr

/-- HMA levels at reset (HMA requesters table). -/
def hmaPriReset (r : Nat) : Word :=
  if r = 16 ∨ r = 17 then 0x0002#16 else if r = 19 then 0x0000#16 else if r < 20 then 0x0001#16 else 0x0000#16

/-- The HMA at reset: slot entries 0 and 32 are the summary writer's (R264). -/
def Hma.reset : Hma where
  arb := Arb.reset 0x0400#16 0x0064#16 hmaPriReset
    (fun r => if r = 19 then 0x0000#16 else 0xFFFF#16) [(0, 0x8011#16), (32, 0x8011#16)]
  reqs := Vector.replicate 20 []
  cur := none
  left := none

/-! ## Queue checker, management event FIFO and black-box FIFO (chapters 13 and 18) -/

/-- A doorbell watch in the queue: its domain, and whether it is a pre-stroke watch (R217). -/
abbrev Watch := DomN × Bool

/-- The queue registers and the FIFOs of chapter 13. -/
structure Que where
  err0    : Word
  err1    : Word
  errCnt  : Nat
  last    : Word
  injQ    : Nat
  evfCtrl : Word
  /-- Entries of four words, oldest first (R282). -/
  evf     : List (Vector Word 4)
  evfUnder : Bool
  evfRst  : Bool
  evfLost : Nat
  evfData : Vector Word 4
  watches : List Watch
  /-- The black-box write FIFO, oldest first, and the entries dropped from it (R369). -/
  bbf     : List Entry
  bbfLost : Nat
  deriving DecidableEq, Repr

/-- The queue checker at reset. -/
def Que.reset : Que where
  err0 := 0#16
  err1 := 0#16
  errCnt := 0
  last := 0#16
  injQ := 0
  evfCtrl := 0x1FFC#16
  evf := []
  evfUnder := false
  evfRst := false
  evfLost := 0
  evfData := Vector.replicate 4 0#16
  watches := []
  bbf := []
  bbfLost := 0

/-! ## Flash controller (chapter 18) -/

/-- The operation the controller is carrying out. -/
inductive FlOp where
  | read | next | program | erase
  deriving DecidableEq, Repr

/-- The flash controller: FL_STAT and the frame being assembled (R382). -/
structure Fl where
  done  : Bool
  err   : Bool
  prot  : Bool
  susp  : Bool
  data  : Nat
  sfdp  : Option Sfdp
  /-- The path that owns the frame, and its words so far. -/
  frame : Option (Path × List Word)
  op    : Option FlOp
  addr  : Nat
  /-- A host operation that a flush left suspended, found at the restart (R377). -/
  left  : Option FlOp
  /-- Its resume command has not been sent yet (R377). -/
  leftDue : Bool
  deriving DecidableEq, Repr

/-- The flash controller at reset. -/
def Fl.reset : Fl where
  done := false
  err := false
  prot := false
  susp := false
  data := 0
  sfdp := none
  frame := none
  op := none
  addr := 0
  left := none
  leftDue := false

end Sys2Proof.Machine
end

