-- ==== Sys2Proof/Machine/StLink.lean ====
section
/-! DEFINITION. The state of the Link die's bus side: ports, packets in flight, records, routing
tables, the hub function, the translator, the time base and crews, the census and the survey, and
the upstream arbiter's queues, with reset values. -/

namespace Sys2Proof.Machine

open Sys2Proof

/-! ## Packets in flight (chapters 4 and 5) -/

/-- What the end of a packet on its output does besides, or its SOP (R121, R123, R130, R137, R139, R141,
R230). -/
inductive OnEop where
  | none
  /-- The inner request of TT slot j has been sent. -/
  | innerSent (j : Fin 48)
  /-- An inner POUT that its crew has released holds this many chunks, whose slot is free already
  (R119, R123). -/
  | chunks (c : Nat)
  /-- The answer that frees TT slot j has been sent on UP. -/
  | answerSent (j : Fin 48)
  /-- The PIND of endpoint k has left; its SEND completes. -/
  | pindSent (k : EpN)
  /-- The census report has left UP. -/
  | reportSent
  /-- The survey record has left UP. -/
  | recordSent
  /-- A PROBE: t1 is taken as its SOP leaves UP (R137). -/
  | probe
  /-- An ECHO for a PROBE whose SOP arrived at t2: T is written as its own SOP leaves (R139). -/
  | echo (t2 : Nat)
  deriving DecidableEq, Repr

/-- A packet waiting for an output or being sent on it. -/
structure TxPkt where
  /-- The received packet it copies, 0 for a packet that comes from no receive buffer. -/
  pid  : Nat
  /-- The number of the packet whose header check gives its place in the order of R114. -/
  ord  : Nat
  /-- The port it arrived on. -/
  src  : Option PortN
  pkt  : Pkt
  /-- Words, header and trailer counted (R60). -/
  len  : Nat
  /-- The whole packet has arrived and its trailer has passed; with `fail`, its trailer has failed. -/
  done : Bool
  /-- It must be closed with EAB and this reason. -/
  fail : Option Nat
  /-- It starts only once `done` (R111). -/
  saf  : Bool
  /-- Held by a crew until a catch instant of TB_TIME (R160). -/
  cue  : Option (CrewN × Nat)
  /-- Its catch has come: rule 1 of R114. -/
  free : Bool
  act  : OnEop
  deriving DecidableEq, Repr

/-- What becomes of a received packet once its trailer has passed (R87). -/
inductive Deliver where
  | hub | loc | proxy | census | survey
  /-- To the TT, for split-mode port Dm. -/
  | tt (m : DnN)
  /-- A wrapped response goes up as a PROXY (R96). -/
  | wrap
  /-- The XK17's own answer, to ULA requester r. -/
  | answer (r : Nat) (p : Pkt)
  /-- An answer to the request in TT slot j. -/
  | slot (j : Fin 48)
  deriving DecidableEq, Repr

/-- A packet in a receive buffer: it stays until its last copy has ended (R112). -/
structure RxPkt where
  pid   : Nat
  hdr   : Hdr
  /-- Arrival stamp of SOP, in ticks, and CORE ran on the PLL when it was taken (R140). -/
  stamp : Nat
  pll   : Bool
  len   : Nat
  /-- Its end has been received. -/
  ended : Bool
  /-- Multicast or broadcast. -/
  mc    : Bool
  /-- Its header check failed or it has been discarded: nothing more of it is checked (R86). -/
  bad   : Bool
  /-- Words of it received up to the time `since`: to its header check, to its last suspension, or to the
  RSM that ended it (R59, R119). -/
  got   : Nat
  since : Nat
  dest  : List Deliver
  /-- It came over a link that has gone down since: it gives no credits back (R71, R288). -/
  old   : Bool
  deriving DecidableEq, Repr

/-- An outstanding-tag record (R106). -/
structure Rec where
  addr  : Word
  endp  : BitVec 5
  tag   : BitVec 7
  epoch : BitVec 4
  pcls  : Bool
  typ   : BitVec 4
  deriving DecidableEq, Repr

/-! ## Ports (chapter 3) -/

/-- Training states (R67), in the order of their codes. -/
inductive TrSt where
  | disabled | detect | align | caps | paddle | switch | ralign | trial | active | disabling | failed
  deriving DecidableEq, Repr

/-- One port of the Link die. -/
structure Port where
  en       : Bool
  optical  : Bool
  maxRate  : Nat
  fragEn   : Bool
  /-- Fragment support as the last TS_CAP sent it (R58, R64). -/
  fragSent : Bool
  floodMax : Nat
  st       : TrSt
  rate     : Nat
  defer    : Bool
  flooding : Bool
  /-- FLD is asserted (R74). -/
  fld      : Bool
  pcap0    : Word
  pcap1    : Word
  best     : Nat
  cap      : Nat
  lastFail : Nat
  steps    : Nat
  trialThr : Nat
  hold     : Nat
  attempts : Nat
  hdrErr   : Nat
  crcErr   : Nat
  codeErr  : Nat
  floodEp  : Nat
  floodDisc : Nat
  ptx      : Nat
  ntx      : Nat
  /-- Credits returned to the partner and received from it since link-up, modulo 65,536 (R61). -/
  retP     : Nat
  retN     : Nat
  gotP     : Nat
  gotN     : Nat
  rangeLo  : Word
  rangeHi  : Word
  epoch    : Nat
  evt      : Word
  dly      : Nat
  /-- TS_CAP sets: the last valid one received in CAPS, and whether two identical ones came. -/
  capRx    : Option (Word × Word)
  capTwo   : Bool
  /-- TS_ACK sets received that echo this port's words. -/
  ackRx    : Nat
  /-- Rate under trial, and the rates already tried in this pass. -/
  tryRate  : Nat
  tried    : List Nat
  /-- Sets of the present step received: TS_TRIAL or TS_READY. -/
  setRx    : Nat
  /-- ALIGN was entered from a failed trial. -/
  fromTrial : Bool
  /-- Own and partner's trial results. -/
  myErrs   : Option Nat
  hisErrs  : Option Nat
  disRx    : Nat
  /-- DETECT is held for 16 ms after a training failure. -/
  wait16   : Bool
  /-- Rate of the previous link-up since the last reset of the Link die. -/
  lastRate : Option Nat
  /-- The port has passed through DETECT since its last link-up (R127). -/
  viaDetect : Bool
  /-- A RETRAIN write is being carried out. -/
  retrain  : Bool
  /-- TS_TALLYREQ is due, and the ticks until another may be sent (R61). -/
  tallyDue : Bool
  tallyWait : Nat
  /-- Training sets that wait for the end of the packet being sent (R55). -/
  tsDue    : List (TsKind × Word × Word)
  /-- Credits of each class that wait for the dark transmitter to wake (R182). -/
  crdP     : Nat
  crdN     : Nat
  /-- The transmitter is dark (R180). -/
  dark     : Bool
  /-- RST is being driven on this port, and with which argument: 1 a tree reset, 2 a port reset (R63). -/
  rstOut   : Bool
  rstArg   : Nat
  /-- Receive buffer, the packet being received and the suspended one. -/
  rx       : List RxPkt
  rxCur    : Option Nat
  rxSusp   : Option Nat
  txq      : List TxPkt
  txCur    : Option TxPkt
  recs     : List Rec
  deriving DecidableEq, Repr

/-- A port at reset. -/
def Port.reset : Port where
  en := true
  optical := false
  maxRate := 4
  fragEn := true
  fragSent := true
  floodMax := 5
  st := .detect
  rate := 0
  defer := false
  flooding := false
  fld := false
  pcap0 := 0#16
  pcap1 := 0#16
  best := 0
  cap := 4
  lastFail := 0
  steps := 0
  trialThr := 0
  hold := 0
  attempts := 0
  hdrErr := 0
  crcErr := 0
  codeErr := 0
  floodEp := 0
  floodDisc := 0
  ptx := 0
  ntx := 0
  retP := 0
  retN := 0
  gotP := 0
  gotN := 0
  rangeLo := 0xFFFF#16
  rangeHi := 0x0000#16
  epoch := 0
  evt := 0#16
  dly := 0
  capRx := none
  capTwo := false
  ackRx := 0
  tryRate := 0
  tried := []
  setRx := 0
  fromTrial := false
  myErrs := none
  hisErrs := none
  disRx := 0
  wait16 := false
  lastRate := none
  viaDetect := true
  retrain := false
  tallyDue := false
  tallyWait := 0
  tsDue := []
  crdP := 0
  crdN := 0
  dark := false
  rstOut := false
  rstArg := 0
  rx := []
  rxCur := none
  rxSusp := none
  txq := []
  txCur := none
  recs := []

/-! ## Routing, hub function (chapter 4) -/

/-- A multicast entry (R92). -/
structure McEnt where
  grp   : Word
  ports : Word
  loc   : Word
  hits  : Word
  deriving DecidableEq, Repr

/-- An entry that was never written. -/
def McEnt.zero : McEnt := { grp := 0#16, ports := 0#16, loc := 0#16, hits := 0#16 }

/-- A whole packet handed to a block of the part after its trailer passed. -/
structure Inbox where
  /-- The number it was received under. -/
  pid   : Nat
  dest  : Deliver
  port  : PortN
  pkt   : Pkt
  stamp : Nat
  pll   : Bool
  mc    : Bool
  deriving DecidableEq, Repr

/-- A queued hub request (R97, R99). -/
structure HubReq where
  pkt : Pkt
  mc  : Bool
  deriving DecidableEq, Repr

/-- The last unicast request completed: its TAG and setup block, and the payload of its response (R99). -/
structure Kept where
  tag   : BitVec 7
  block : List Nat
  odd   : Bool
  words : List Word
  deriving DecidableEq, Repr

/-- Routing and the hub function. -/
structure Bus where
  node    : Word
  loc     : Word
  noroute : Nat
  hubnak  : Nat
  /-- The multicast table; an entry that is not listed reads zero. -/
  mc      : List (Nat × McEnt)
  /-- Schedule words as written: key 64·p + j, p = 0 for UP. -/
  sched   : List (Nat × Word)
  /-- Schedule words in force since the last stroke boundary (R109). -/
  schedAct : List (Nat × Word)
  /-- The number the next received packet takes. -/
  pid     : Nat
  inbox   : List Inbox
  hubQ    : List HubReq
  kept    : Option Kept
  deriving DecidableEq, Repr

/-- Routing at reset. -/
def Bus.reset : Bus where
  node := 0xFFFE#16
  loc := 0xFFFE#16
  noroute := 0
  hubnak := 0
  mc := []
  sched := []
  schedAct := []
  pid := 1
  inbox := []
  hubQ := []
  kept := none

/-! ## Transaction translator (chapter 5) -/

/-- States of a TT slot (R121). -/
inductive SlotSt where
  | waiting | stored | failed
  deriving DecidableEq, Repr

/-- One split transaction (R119). -/
structure Slot where
  port   : DnN
  addr   : Word
  endp   : BitVec 5
  tag    : BitVec 7
  epoch  : BitVec 4
  pcls   : Bool
  ityp   : BitVec 4
  st     : SlotSt
  /-- Chunks held by the inner payload and by the answer. -/
  inCh   : Nat
  ansCh  : Nat
  ans    : Option Pkt
  /-- The inner request has been sent. -/
  sent   : Bool
  /-- The received packet that is its answer, while that arrives or waits for chunks (R119). -/
  rx     : Option Nat
  /-- The answer has fully arrived and waits in the port's receive buffer for chunks (R119). -/
  wants  : Option Pkt
  /-- Stroke boundaries since acceptance, and TT_TMO then in force (R122). -/
  strokes : Nat
  tmo    : Nat
  deriving DecidableEq, Repr

/-- The translator. -/
structure Tt where
  en     : Bool
  slots  : Vector (Option Slot) 48
  hwmS   : Nat
  hwmC   : Nat
  errTmo : Nat
  errPdrop : Nat
  errNosplit : Nat
  errRec : Nat
  tmo    : Nat
  deriving DecidableEq, Repr

/-- The translator at reset. -/
def Tt.reset : Tt where
  en := true
  slots := Vector.replicate 48 none
  hwmS := 0
  hwmC := 0
  errTmo := 0
  errPdrop := 0
  errNosplit := 0
  errRec := 0
  tmo := 16

/-! ## Time base and crews (chapter 7) -/

/-- A crew's registers (R159). -/
structure Crew where
  mask0 : Word
  mask1 : Word
  ofs   : Word
  en    : Bool
  snap  : Bool
  late  : Bool
  miss  : Bool
  far   : Bool
  ovr   : Bool
  pass  : Bool
  deriving DecidableEq, Repr

/-- A crew at reset. -/
def Crew.reset : Crew where
  mask0 := 0#16
  mask1 := 0#16
  ofs := 0#16
  en := false
  snap := false
  late := false
  miss := false
  far := false
  ovr := false
  pass := false

/-- What a read of TB_TIME0 latched: TB_TIME bits [63:16] and the stroke number (R146). -/
structure Latch where
  hi     : Nat
  stroke : Nat
  deriving DecidableEq, Repr

/-- The time base. -/
structure Tb where
  servo   : Bool
  so      : Bool
  lockWin : Nat
  holdMax : Nat
  locked  : Bool
  holdover : Bool
  dlyOk   : Bool
  dlyPll  : Bool
  bcnOk   : Bool
  badBcn  : Nat
  missed  : Nat
  step    : Bool
  loss    : Bool
  holdExp : Bool
  time    : BitVec 64
  stroke  : BitVec 32
  /-- Time of the current stroke's boundary. -/
  bound   : BitVec 64
  len     : Nat
  valid   : Bool
  offset  : BitVec 32
  hop     : BitVec 32
  resid   : Nat
  slew    : Nat
  synt    : Word
  /-- TB_SYNT is applied as a rate correction (R153), and the part of a tick it has gathered, in units of
  10⁻⁸ tick. -/
  corr    : Bool
  corrAcc : Int
  /-- Unapplied part of the last offset (R155). -/
  todo    : Int
  /-- Accepted beacons in a row inside, and outside, the lock window (R156, R157). -/
  runIn   : Nat
  runOut  : Nat
  /-- Lengths that the last beacon's k fitted, and current-length failures in a row (R152). -/
  fits    : List Nat
  badLen  : Nat
  latch   : Vector Latch 10
  pins    : Vector Word 4
  /-- CATCH pins asserted, and STROKE_OUT. -/
  catchOn : Vector Bool 4
  soOn    : Bool
  prestroke : Nat
  crews   : Vector Crew 8
  deriving DecidableEq, Repr

/-- The time base at reset. -/
def Tb.reset : Tb where
  servo := true
  so := false
  lockWin := 5
  holdMax := 100
  locked := false
  holdover := false
  dlyOk := false
  dlyPll := false
  bcnOk := false
  badBcn := 0
  missed := 0
  step := false
  loss := false
  holdExp := false
  time := 0#64
  stroke := 0#32
  bound := 0#64
  len := 1
  valid := false
  offset := 0#32
  hop := 0#32
  resid := 0
  slew := 100
  synt := 0#16
  corr := false
  corrAcc := 0
  todo := 0
  runIn := 0
  runOut := 0
  fits := []
  badLen := 0
  latch := Vector.replicate 10 { hi := 0, stroke := 0 }
  pins := Vector.replicate 4 0x1900#16
  catchOn := Vector.replicate 4 false
  soOn := false
  prestroke := 10
  crews := Vector.replicate 8 Crew.reset

/-! ## Census and survey (chapter 6) -/

/-- What the root was last told about a port (R130). -/
structure View where
  kind : Nat
  rate : Nat
  cap0 : Word
  cap1 : Word
  deriving DecidableEq, Repr

/-- The census engine. -/
structure Cen where
  lastHeat : Option Word
  report   : List Word
  /-- The report of LASTHEAT was handed over, and its EOP has left UP. -/
  handed   : Bool
  sent     : Bool
  views    : Vector (Option View) 16
  attaches : Vector Nat 16
  /-- The view that each entry of the report becomes once delivered, and the attaches it counts. -/
  entries  : List (DnN × View × Nat)
  deriving DecidableEq, Repr

/-- The census engine at reset. -/
def Cen.reset : Cen where
  lastHeat := none
  report := []
  handed := false
  sent := false
  views := Vector.replicate 16 none
  attaches := Vector.replicate 16 0
  entries := []

/-- Where the token walk stands (R141). -/
inductive Walk where
  /-- No token has arrived. -/
  | idle
  /-- The token is held until probing ends. -/
  | probing
  /-- The RECORD is on its way out of UP. -/
  | record
  /-- The RECORD's EOP has left UP. -/
  | recordOut
  /-- Waiting for a PROBE from the hub on Dm. -/
  | waitProbe (m : DnN)
  /-- The token is below Dm. -/
  | below (m : DnN)
  /-- RETURN has been sent. -/
  | done
  deriving DecidableEq, Repr

/-- The survey engine. -/
structure Sur where
  sweep    : Option Word
  tmo      : Nat
  depth    : Nat
  /-- Number of the last PROBE sent in this sweep, 0 for none. -/
  probe    : Nat
  /-- Probing has ended. -/
  ended    : Bool
  t1       : Nat
  t1Pll    : Bool
  measured : Bool
  measPll  : Bool
  walkSet  : Vector (Option Word) 16
  walk     : Walk
  /-- The later of SURVEY_TMO and 4 ms since the OPEN has passed. -/
  probeLate : Bool
  forwarded : Vector Nat 16
  kept     : Option (List Word)
  deriving DecidableEq, Repr

/-- The survey engine at reset. -/
def Sur.reset : Sur where
  sweep := none
  tmo := 1
  depth := 0
  probe := 0
  ended := true
  t1 := 0
  t1Pll := false
  measured := false
  measPll := false
  walkSet := Vector.replicate 16 none
  walk := .idle
  probeLate := false
  forwarded := Vector.replicate 16 0
  kept := none

end Sys2Proof.Machine
end

