-- ==== Sys2Proof/Machine/StPower.lean ====
section
/-! DEFINITION. The state of the Power die (R14): straps and reset cause, the power-state logic,
the watchdog, the black box, the port switches, the meter, the always-on domain and the management
port, each with its reset value. -/

namespace Sys2Proof.Machine

open Sys2Proof

/-! ## Straps, reset cause and reset pins (chapter 2) -/

/-- STRAPS, RST_CAUSE and the level of the reset inputs (R29, R33, R41, R44). -/
structure Rst where
  /-- STRAPS: HL, WD, PE and FL at bits 0 to 3. -/
  straps : Word
  /-- RST_CAUSE. -/
  cause  : Word
  /-- POR is asserted. -/
  por    : Bool
  /-- RESET_N is low. -/
  pin    : Bool
  /-- PE_PERST_N is low. -/
  perst  : Bool
  /-- RESET_N fell during a flush, which finishes first (R40); and it has risen again since. -/
  due    : Bool
  dueRise : Bool
  deriving DecidableEq, Repr

/-! ## Power states, KREG and wake (chapter 16) -/

/-- Device power states (R334); the coded ones are PM_STAT.STATE. -/
inductive PmSt where
  | off | run | feather | stow | enterFeather | enterStow | waking
  deriving DecidableEq, Repr

/-- Power-state logic, KREG and wake registers (R334 to R355). -/
structure Pm where
  st          : PmSt
  /-- PM_CTRL: FEATHER_EN, STOW_EN, HOSTED. -/
  ctrl        : Word
  b1Ok        : Bool
  b2Ok        : Bool
  b3Ok        : Bool
  b4Ok        : Bool
  why         : Nat
  puFail      : Bool
  reqDrop     : Bool
  featherIdle : Word
  stowIdle    : Word
  retSel      : Word
  /-- RET_SEL as sampled at t_e: a write during an entry counts from the next (R339, R340). -/
  retUsed     : Word
  wakeEn      : Word
  wakePol     : Word
  wakeEdge    : Word
  wakeMode    : Word
  wakeCause   : Word
  wakeTime    : Nat
  /-- Levels of the WAKE0 to WAKE7 pins (R336, R347). -/
  pins        : Word
  /-- LPO cycles since the FEATHER conditions began to hold, which both idle timers count (R337). -/
  idle        : Nat
  /-- KREG_CTRL. -/
  kregCtrl    : Word
  /-- KREG_STAT.MODE: 1 is low-power. -/
  kregLow     : Bool
  /-- KREG_STAT.BOOST. -/
  boost       : Bool
  /-- KREG_STAT.HEAVY. -/
  heavy       : Bool
  pwrSeq      : Word
  /-- The PWR_EN pin. -/
  pwrEn       : Bool
  /-- The CORE_PG pin, or the fixed delay, has been seen since PWR_EN rose (R349). -/
  corePg      : Bool
  /-- Power-up failures in a row (R352). -/
  attempts    : Nat
  /-- The 100 ms wait after a power-up failure runs (R352). -/
  puWait      : Bool
  /-- The 10 ms of PWR_EN low after a Link die power loss, or the restart wait after a flush (R353, R377). -/
  lossWait    : Bool
  /-- A bus-suspend request waits for every port's hold (R338). -/
  suspendReq  : Bool
  /-- Sources whose events are replayed after the wake (R354). -/
  replay      : Word
  /-- The write frame that the MG source holds: word address and data words (R354). -/
  mgHeld      : Option (Nat × List Word)
  /-- B1: the stow set's 2,020 words in table order, when its check word is good (R341, R342). -/
  b1          : Option (List Word)
  /-- AON time at FEATHER entry (R351). -/
  featherAon  : Nat
  /-- What the Link die starts from: 0 a wake from STOW, 1 a restart with every bank invalid and TB_TIME
  from AON time, 2 a restart with TB_TIME at 0 (R40, R351, R353). -/
  restart     : Nat
  deriving DecidableEq, Repr

/-- Power-state registers at their reset values; the device in RUN. -/
def Pm.reset : Pm where
  st := .run
  ctrl := 0x0003#16
  b1Ok := false
  b2Ok := false
  b3Ok := false
  b4Ok := false
  why := 0
  puFail := false
  reqDrop := false
  featherIdle := 0x0064#16
  stowIdle := 0x03E8#16
  retSel := 0x000E#16
  retUsed := 0x000E#16
  wakeEn := 0x2F00#16
  wakePol := 0x0000#16
  wakeEdge := 0x00FF#16
  wakeMode := 0x3FFF#16
  wakeCause := 0x0000#16
  wakeTime := 0
  pins := 0x0000#16
  idle := 0
  kregCtrl := 0x0003#16
  kregLow := false
  boost := false
  heavy := false
  pwrSeq := 0x1128#16
  pwrEn := true
  corePg := true
  attempts := 0
  puWait := false
  lossWait := false
  suspendReq := false
  replay := 0x0000#16
  mgHeld := none
  b1 := none
  featherAon := 0
  restart := 2

/-! ## Watchdog (chapter 17) -/

/-- The watchdog (R356 to R366). -/
structure Wdt where
  en       : Bool
  lock     : Bool
  hrstEn   : Bool
  mgSvc    : Bool
  /-- WDT_PERIOD and WDT_WINDOW as last written. -/
  period   : Word
  window   : Word
  graceReg : Word
  /-- The period and window the running period uses (R359). -/
  curPeriod : Nat
  curWindow : Nat
  pend     : Bool
  count    : Nat
  grace    : Bool
  cause    : Nat
  save     : Nat
  armHost  : Bool
  armBus   : Bool
  armMg    : Bool
  wref     : Bool
  /-- The first key was the last write to WDT_KEY (R365). -/
  key      : Bool
  expiries : Nat
  /-- HOST_RST_N is driven low (R364). -/
  hostRst  : Bool
  /-- Counting pauses from an entry until the device is next in RUN (R358). -/
  paused    : Bool
  /-- WDT_STAT and TB_TIME at expiry, for the NMI save area (R363). -/
  statAtExp : Word
  timeAtExp : Nat
  deriving DecidableEq, Repr

/-- The watchdog's registers at reset; EN follows STRAPS.WD, and WDT_LOCK is kept by the caller. -/
def Wdt.reset (wd lock : Bool) : Wdt where
  en := wd
  lock := lock
  hrstEn := false
  mgSvc := false
  period := 0x07D0#16
  window := 0x0000#16
  graceReg := 0x000A#16
  curPeriod := 2000
  curWindow := 0
  pend := false
  count := 0
  grace := false
  cause := 0
  save := 0
  armHost := false
  armBus := false
  armMg := false
  wref := false
  key := false
  expiries := 0
  hostRst := false
  paused := false
  statAtExp := 0x0000#16
  timeAtExp := 0

/-! ## Black box (chapter 18) -/

/-- BB_INDEX and the entry last copied, one per path (R372). -/
structure BbWin where
  index : Word
  data  : Entry
  /-- A flash copy is under way. -/
  wait  : Bool
  deriving DecidableEq, Repr

/-- A flush in progress: the contents fixed at its step 1 (R376). -/
structure Flush where
  cause   : FlushCause
  /-- The entries of the slot, oldest first. -/
  entries : List Entry
  head    : Nat
  aon     : Nat
  /-- Pages programmed so far. -/
  pages   : Nat
  /-- The flash pins have been released to the writer (step 2 done). -/
  pins    : Bool
  deriving DecidableEq, Repr

/-- B0, its registers and the last-gasp writer (R367 to R378). -/
structure Bb where
  /-- EN, FREEZE, LG_EN, LINKPWR, ARM_STOW and FLUSH_P. -/
  ctrl     : Word
  trig0    : Word
  trig1    : Word
  post     : Word
  /-- The 256 slots of B0; a slot that is not listed holds no entry. -/
  slots    : List (Nat × Entry)
  head     : Nat
  count    : Nat
  lost     : Nat
  trig     : Bool
  frozen   : Bool
  trigSlot : Nat
  /-- Entries stored after the trigger (R370). -/
  after    : Nat
  pf       : BbWin
  mgw      : BbWin
  flash0   : Word
  flash1   : Word
  armed    : Bool
  scan     : Bool
  nosusp   : Bool
  full     : Bool
  done     : Bool
  rderr    : Bool
  slot     : Nat
  last     : Nat
  flush    : Option Flush
  /-- A flush that was not a test has ended and VSYS has not yet come back (R377). -/
  flushed  : Bool
  /-- The flash's opcodes and address mode, copied at arming (R374). -/
  armHow   : Option Sfdp
  /-- A scan waits for the end of an image load (R374). -/
  scanDue  : Bool
  deriving DecidableEq, Repr

/-- A copy window at reset. -/
def BbWin.reset : BbWin := { index := 0#16, data := Entry.zero, wait := false }

/-- The black box after POR: B0 empty, registers at their reset values. -/
def Bb.reset : Bb where
  ctrl := 0x0001#16
  trig0 := 0x0080#16
  trig1 := 0x0000#16
  post := 0x0010#16
  slots := []
  head := 0
  count := 0
  lost := 0
  trig := false
  frozen := false
  trigSlot := 0
  after := 0
  pf := BbWin.reset
  mgw := BbWin.reset
  flash0 := 0#16
  flash1 := 0#16
  armed := false
  scan := false
  nosusp := false
  full := false
  done := false
  rderr := false
  slot := 0
  last := 0
  flush := none
  flushed := false
  armHow := none
  scanDue := false

/-! ## Port power switches (chapter 14) -/

/-- Switch states (R304), in the order of their codes. -/
inductive PpsSt where
  | off | wait | ramp | on | retry | latched | stopping | discharge
  deriving DecidableEq, Repr

/-- The switch of one downstream port, and its account of the budget (R290 to R315). -/
structure Pps where
  /-- PPS_CTRL.ON, the latest command. -/
  on       : Bool
  fitted   : Bool
  st       : PpsSt
  pg       : Bool
  limit    : Bool
  fold     : Bool
  derated  : Bool
  senseOk  : Bool
  /-- Full-scale readings in a row (R309). -/
  pinned   : Nat
  ilim     : Word
  pfold    : Word
  tfault   : Word
  retry    : Word
  fault    : Word
  faults   : Nat
  used     : Nat
  voffEn   : Bool
  /-- PPS_VOFFCHK.ARMED: the discharge time is over. -/
  voffArmed : Bool
  voffHigh : Bool
  gateEn   : Bool
  vgs      : Nat
  pgdly    : Word
  /-- The 100 ms discharge of OFF is over or not needed is `false`: the path is on while this is `true` (R306). -/
  discharging : Bool
  /-- This leg of a gang is latched and does not run (R315). -/
  lost     : Bool
  /-- The fault that latched this leg, which FCLR checks afresh for SENSE_FAULT and SHORT_OFF (R312). -/
  latchBy  : Word
  /-- A bias check requested for a start, from the next whole frame on; and the check of this frame (R299, R320). -/
  chkReq   : Bool
  chkDue   : Bool
  /-- FCLR has asked for a fresh sense check outside RAMP and ON (R312). -/
  recheck  : Bool
  /-- In WAIT: the budget is there, and the start waits for VLINK or for the sequencer (R309, R318). -/
  due      : Bool
  /-- PORT_PCLASS.GRANT, in watts. -/
  grant    : Nat
  /-- PORT_PCLASS.RSV: 4 W reserved. -/
  rsv      : Bool
  /-- PORT_PCLASS.REQ, REQV and PEND. -/
  req      : Nat
  reqv     : Bool
  pend     : Bool
  deriving DecidableEq, Repr

/-- A switch at reset. -/
def Pps.reset : Pps where
  on := false
  fitted := true
  st := .off
  pg := false
  limit := false
  fold := false
  derated := false
  senseOk := false
  pinned := 0
  ilim := 0x0028#16
  pfold := 0x00C8#16
  tfault := 0x0014#16
  retry := 0x0003#16
  fault := 0#16
  faults := 0
  used := 0
  voffEn := true
  voffArmed := false
  voffHigh := false
  gateEn := true
  vgs := 0
  pgdly := 0x0001#16
  discharging := true
  lost := false
  latchBy := 0#16
  chkReq := false
  chkDue := false
  recheck := false
  due := false
  grant := 0
  rsv := false
  req := 0
  reqv := false
  pend := false

/-- The budget, the gangs and PPS_GSTAT (R292 to R298, R313 to R318). -/
structure PpsG where
  budget  : Nat
  gang    : Word
  clamp   : Bool
  gangref : Bool
  vlow    : Bool
  deriving DecidableEq, Repr

/-- The global part of the switches at reset. -/
def PpsG.reset : PpsG := { budget := 0, gang := 0#16, clamp := false, gangref := false, vlow := false }

/-! ## Meter (chapter 15) -/

/-- One port's live values, accumulator and snapshot (R323 to R330). -/
structure MPort where
  i  : Word
  v  : Word
  p  : BitVec 32
  /-- The exact 72-bit sum of R324. -/
  e  : BitVec 72
  si : Word
  sv : Word
  sp : BitVec 32
  se : BitVec 48
  deriving DecidableEq, Repr

/-- One meter port at POR. -/
def MPort.reset : MPort := { i := 0#16, v := 0#16, p := 0#32, e := 0#72, si := 0#16, sv := 0#16, sp := 0#32, se := 0#48 }

/-- What a snapshot being copied holds for one port. -/
structure MSnap where
  i : Word
  v : Word
  p : BitVec 32
  e : BitVec 48
  deriving DecidableEq, Repr

/-- The meter (R319 to R333). -/
structure Mtr where
  rdyEv  : Bool
  gap    : Bool
  merged : Bool
  go     : Bool
  src    : Nat
  seq    : Word
  temp   : Word
  vlink  : Word
  ports  : Vector MPort 16
  /-- A snapshot being copied: its source and the values of its instant (R330). -/
  copy   : Option (Nat × List MSnap)
  /-- Domains whose METER_SNAP command completes with the copy (R330). -/
  waiters : List DomN
  /-- The frame number and the slot that runs (R319). -/
  frame   : Nat
  slot    : Nat
  deriving DecidableEq, Repr

/-- The meter at POR. -/
def Mtr.reset : Mtr where
  rdyEv := true
  gap := false
  merged := false
  go := false
  src := 0
  seq := 0#16
  temp := 0#16
  vlink := 0#16
  ports := Vector.replicate 16 MPort.reset
  copy := none
  waiters := []
  frame := 0
  slot := 0

/-! ## Always-on domain (chapters 1, 8, 9, 16) -/

/-- Where a port stands in its hold (R169). -/
inductive Hold where
  | none
  /-- The 100 µs of IDL are being sent. -/
  | idl
  /-- TXEN is low and PORT_FEATHER.HELD reads 1. -/
  | held
  deriving DecidableEq, Repr

/-- What drives a downstream Dn_BCN (R173, R175, R177). -/
inductive Bcn where
  | none
  /-- The AON forwarder, following UP_BCN; `min` is true once its 20 ms are over. -/
  | fwd (min : Bool)
  /-- A 20 ms beacon that the Link die drives. -/
  | drive
  deriving DecidableEq, Repr

/-- The always-on part of one port (R168 to R177). -/
structure AonPort where
  /-- PORT_FEATHER's RW fields. -/
  feather : Word
  hold    : Hold
  bcn     : Bcn
  /-- A 20 ms beacon is owed and starts once the device is in RUN (R175). -/
  bcnDue  : Bool
  /-- Level of SD. -/
  sd      : Bool
  /-- PORT_CTRL.EN as copied at STOW entry (R340). -/
  enCopy  : Bool
  /-- SD was deasserted during the hold (R177). -/
  sdFell  : Bool
  deriving DecidableEq, Repr

/-- The AON part of a downstream port at reset. -/
def AonPort.reset (n : PortN) : AonPort where
  feather := if n = 0 then 0x0043#16 else 0x0047#16
  hold := .none
  bcn := .none
  bcnDue := false
  sd := false
  enCopy := true
  sdFell := false

/-- An event of the Power die waiting for the Link die, with its AON stamp (R17). -/
structure XEv where
  ev    : Ev
  stamp : Nat
  deriving DecidableEq, Repr

/-- The always-on domain. -/
structure Aon where
  /-- LPO cycles since POR (R351). -/
  time    : Nat
  ports   : Vector AonPort 17
  /-- Level of UP_BCN, and that a beacon from above has been recognised since it rose (R174). -/
  upBcn   : Bool
  bcnSeen : Bool
  /-- PME_Status and PME_En of each function (R208). -/
  pmeStat : Vector Bool 8
  pmeEn   : Vector Bool 8
  /-- PM_PME messages that wait for the link to reach L0 (R208). -/
  pmeDue  : Vector Bool 8
  /-- PE_WAKE_N is driven low (R208, R348). -/
  peWake  : Bool
  /-- The crossing queue (R17) and its count of dropped events. -/
  xq      : List XEv
  xqDrop  : Nat
  /-- The pointer mismatches of the crossing queue held for the next delivery, oldest first (R280): Q_LAST of each. -/
  xqErr   : List Word
  deriving DecidableEq, Repr

/-- The AON domain after POR. -/
def Aon.reset : Aon where
  time := 0
  ports := Vector.ofFn AonPort.reset
  upBcn := false
  bcnSeen := false
  pmeStat := Vector.replicate 8 false
  pmeEn := Vector.replicate 8 false
  pmeDue := Vector.replicate 8 false
  peWake := false
  xq := []
  xqDrop := 0
  xqErr := []

/-- The management port's sticky status bits, its TB_TIME and MG_CS_N state (R383). -/
structure Mg where
  ldMiss   : Bool
  frameErr : Bool
  /-- MG_CS_N is low. -/
  cs       : Bool
  deriving DecidableEq, Repr

/-- The management port at reset. -/
def Mg.reset : Mg := { ldMiss := false, frameErr := false, cs := false }

end Sys2Proof.Machine
end

