-- ==== Sys2Proof/Machine/State.lean ====
section
/-! DEFINITION. The state of the XK17 as plain data, the reasons a step can stop, and the state
right after reset. -/

namespace Sys2Proof.Machine

open Sys2Proof

/-- Why a step stops with a fault.  No row of the operation table does, so the type has no
constructor: nothing can be raised. -/
inductive Fault where
  deriving DecidableEq, Repr

/-- Why a step refuses a command. -/
inductive Refusal where
  /-- Raised by the dispatcher for a row without a meaning; no row is left without one.  Safe. -/
  | notModelled (mnemonic : String)
  deriving DecidableEq, Repr

/-- The ULA: the arbiter, its requesters' packets, and preemption (R259 to R275). -/
structure Ula where
  arb    : Arb
  reqs   : Vector (List TxPkt) 28
  /-- ULA_PREEMPT.EN, MAXRUN and COUNT. -/
  preEn  : Bool
  maxRun : Nat
  preCnt : Nat
  /-- The suspended packet, its requester and the words already sent (R272). -/
  susp   : Option (TxPkt × Nat)
  /-- Packets sent in this suspension. -/
  run    : Nat
  deriving DecidableEq, Repr

/-- ULA levels at reset (ULA requesters table). -/
def ulaPriReset (r : Nat) : Word :=
  if r = 16 ∨ r = 17 then 0x000A#16 else if r = 19 then 0x0000#16 else 0x0009#16

/-- The ULA at reset. -/
def Ula.reset : Ula where
  arb := Arb.reset 0x0800#16 0x00C8#16 ulaPriReset (fun _ => 0xFFFF#16) []
  reqs := Vector.replicate 28 []
  preEn := true
  maxRun := 8
  preCnt := 0
  susp := none
  run := 0

/-- The machine. -/
structure State where
  /-- Commands waiting, first in, first out. -/
  pending : List Instr
  /-- Counter that the free values of Config are applied to. -/
  fresh   : Nat
  /-- What the part has put out, newest first. -/
  out     : List Out
  /- Power die -/
  rst     : Rst
  pm      : Pm
  wdt     : Wdt
  bb      : Bb
  pps     : Vector Pps 16
  ppsg    : PpsG
  mtr     : Mtr
  aon     : Aon
  mg      : Mg
  /- Link die -/
  glob    : Glob
  clk     : Clk
  pcie    : Pcie
  doms    : Vector Dom 8
  ln      : Ln
  hma     : Hma
  ula     : Ula
  que     : Que
  fl      : Fl
  ports   : Vector Port 17
  bus     : Bus
  tt      : Tt
  tb      : Tb
  cen     : Cen
  sur     : Sur
  deriving DecidableEq, Repr

/-- ID_UID0–3: the fused UID, whose bit 0 is always 0 (R227). -/
def idUid : Vector Word 4 :=
  #v[Config.fuse 0 &&& 0xFFFE#16, Config.fuse 1, Config.fuse 2, Config.fuse 3]

/-- GSTAT.HEADLESS: every strap combination but HL = 0 with PE = 1 (R35). -/
def headlessOf (straps : Word) : Bool := straps.getLsbD 0 || !straps.getLsbD 2

/-- The machine right after a power-on reset, at the end of step 3 of Power-on: RUN on FIRC, every
bank invalid, the straps of a hosted fixture without watchdog and without image (log entry 1). -/
def State.reset : State where
  pending := []
  fresh := 0
  out := []
  rst := { straps := 0x0004#16, cause := 0x0001#16, por := false, pin := false, perst := false, due := false, dueRise := false }
  pm := Pm.reset
  wdt := Wdt.reset false false
  bb := Bb.reset
  pps := Vector.replicate 16 Pps.reset
  ppsg := PpsG.reset
  mtr := Mtr.reset
  aon := Aon.reset
  mg := Mg.reset
  glob := Glob.reset
  clk := Clk.reset
  pcie := Pcie.reset
  doms := Vector.ofFn Dom.reset
  ln := Ln.reset (!headlessOf 0x0004#16) idUid
  hma := Hma.reset
  ula := Ula.reset
  que := Que.reset
  fl := Fl.reset
  ports := Vector.replicate 17 Port.reset
  bus := Bus.reset
  tt := Tt.reset
  tb := Tb.reset
  cen := Cen.reset
  sur := Sur.reset

end Sys2Proof.Machine
end

