-- ==== Sys2Proof/Machine/Flags.lean ====
section
/-! DEFINITION. Every status word and flag that software reads, composed from the state: the RO
and W1C fields of each block's register detail, in the order of the chapters. -/

namespace Sys2Proof.Machine

open Sys2Proof

/-- Element `i` of a vector, or `d` beyond its end. -/
def vAt {α : Type} {n : Nat} (v : Vector α n) (d : α) (i : Nat) : α := if h : i < n then v[i] else d

/-- A vector with one element rewritten. -/
def vMod {α : Type} {n : Nat} (v : Vector α n) (i : Fin n) (f : α → α) : Vector α n :=
  v.set i.val (f v[i.val]) i.isLt

/-- The port number of Dm. -/
def dnPort (m : DnN) : PortN := ⟨m.val + 1, by omega⟩

/-- The downstream ports, D1 to D16. -/
def dnAll : List DnN := List.finRange 16

/-- All ports, UP first. -/
def portAll : List PortN := List.finRange 17

/-- All domains. -/
def domAll : List DomN := List.finRange 8

/-- All endpoints. -/
def epAll : List EpN := List.finRange 32

/-! ## Which parts run -/

/-- The Link die is powered, out of reset and clocked (R14, R19, R334). -/
def linkOn (s : State) : Bool := s.pm.st = .run && !s.rst.por && !s.rst.pin

/-- The Link die holds its state: it runs, or is in FEATHER with its clocks stopped (R334, R339). -/
def linkHeld (s : State) : Bool := (s.pm.st = .run || s.pm.st = .feather) && !s.rst.por && !s.rst.pin

/-- The Power die runs: VSYS is above POR and RESET_N is high. -/
def powerOn (s : State) : Bool := !s.rst.por && !s.rst.pin

/-- GSTAT.HEADLESS (R35). -/
def headless (s : State) : Bool := headlessOf s.rst.straps

/-- GSTAT.STRAP_ERR: HL = 0 with PE = 0 (R34). -/
def strapErr (s : State) : Bool := !bit s.rst.straps 0 && !bit s.rst.straps 2

/-- The PCIe endpoint is enabled by its strap (Strap combinations). -/
def epStrap (s : State) : Bool := bit s.rst.straps 2

/-- CORE runs on the PLL. -/
def onPll (s : State) : Bool := s.clk.corePll

/-- Ticks of CORE per cycle (R6, R21). -/
def ticksPerCycle (s : State) : Nat := if s.clk.corePll then 1 else 4

/-- TB_TIME as a number. -/
def now (s : State) : Nat := s.tb.time.toNat

/-- AON time in ticks (R351). -/
def ticksOf (lpo : Nat) : Nat := lpo * 12207031 / 1000

/-! ## Global and clocks (chapters 1, 2) -/

/-- CLK_STAT. -/
def clkStat (c : Clk) : Word :=
  orAll [atBit c.pllLock 0, atBit c.corePll 1, atBit (bit c.plan 3 && !c.corePll) 2,
    atFld c.refAct 3 2, atBit c.refFb 5, atBit c.xinOk 6, atBit c.badPlan 7]

/-- CLK_OUT is driven; otherwise it is held low (R21). -/
def clkOut (s : State) : Bool := linkOn s && s.clk.corePll && bit s.clk.plan 4

/-- GSTAT. -/
def gstat (s : State) : Word :=
  orAll [atFld s.glob.bytewr 0 8, atBit s.glob.cfgBusy 8, atBit s.glob.cfgDone 9,
    atBit s.glob.cfgErr 10, atBit s.glob.cfgNone 11, atBit (headless s) 12, atBit (strapErr s) 13]

/-- REGLOCK. -/
def regLock (g : Glob) : Word :=
  orAll [atBit g.hubPwr 0, atBit g.hubClk 1, atBit g.mgWr 2, atBit g.ref 14, atBit g.lock 15]

/-- BUS_STAT. -/
def busStat (b : Bus) : Word := atFld b.noroute 0 8 ||| atFld b.hubnak 8 8

/-! ## Ports (chapters 3 and 8) -/

/-- PORT_STAT.STATE codes (R67). -/
def trCode : TrSt → Nat
  | .disabled => 0
  | .detect => 1
  | .align => 2
  | .caps => 3
  | .paddle => 4
  | .switch => 5
  | .ralign => 6
  | .trial => 7
  | .active => 8
  | .disabling => 9
  | .failed => 10

/-- The port has a link: PADDLE or ACTIVE (R71). -/
def isUp (p : Port) : Bool := p.st = .paddle || p.st = .active

/-- Both ends have set fragment support (R58). -/
def fragOn (p : Port) : Bool := isUp p && p.fragSent && bit p.pcap0 4

/-- A rate mask limited to the codes up to `r` (R64). -/
def rateMask (r : Nat) : Nat := 2 ^ r - 1

/-- Capability word 0 as port n sends it (R64). -/
def portCap0 (s : State) (n : PortN) : Word :=
  let p := s.ports[n]
  let mask := if !s.clk.corePll || s.glob.cfgBusy then 1
    else Nat.land (if p.optical then 3 else 15) (rateMask p.maxRate)
  orAll [atFld mask 0 4, atBit p.fragEn 4, atBit true 5, atBit true 6, atBit p.optical 7,
    atFld (if n = 0 then s.glob.pclass0 else 7) 8 3, atBit true 11, atFld 1 12 4]

/-- Capability word 1 (R65). -/
def portCap1 (s : State) : Word := 0x1768#16 ||| atBit s.ln.en 4

/-- PORT_STAT. -/
def portStat (s : State) (n : PortN) : Word :=
  let p := s.ports[n]
  orAll [atFld (trCode p.st) 0 4, atFld p.rate 4 3, atBit (isUp p) 7, atBit p.defer 8,
    atBit p.flooding 9, atBit (fragOn p) 10, atBit (bit p.pcap0 11) 11,
    atBit (p.st = .paddle && p.hold != 0) 12, atBit (n != 0) 13]

/-- PORT_CTRL; its W1S bits read 0 but for RETRAIN while the retrain runs. -/
def portCtrl (p : Port) : Word :=
  orAll [atBit p.en 0, atBit p.optical 1, atBit p.retrain 2, atFld p.maxRate 4 3,
    atBit p.fragEn 7, atFld p.floodMax 11 5]

/-- PORT_RATE. -/
def portRate (p : Port) : Word :=
  orAll [atFld p.rate 0 3, atFld p.best 3 3, atFld p.cap 6 3, atFld p.lastFail 9 3,
    atFld p.steps 12 4]

/-- PORT_TRAIN. -/
def portTrain (p : Port) : Word :=
  orAll [atFld p.trialThr 0 8, atFld p.hold 8 4, atFld p.attempts 12 4]

/-- PORT_ERRCNT. -/
def portErrCnt (p : Port) : Word := atFld p.hdrErr 0 8 ||| atFld p.crcErr 8 8

/-- PORT_FLOOD. -/
def portFlood (p : Port) : Word := atFld p.floodEp 0 8 ||| atFld p.floodDisc 8 8

/-- PORT_CREDIT. -/
def portCredit (p : Port) : Word := atFld p.ptx 0 5 ||| atFld p.ntx 5 6

/-- The port is in a hold whose TXEN is low (R169). -/
def isHeld (a : AonPort) : Bool := a.hold = .held

/-- The conditions of R179 but for IDLE_EN and SCHED_EN. -/
def canFeather (p : Port) (a : AonPort) : Bool :=
  p.st = .active && 2 ≤ p.rate && bit p.pcap0 6 && a.hold = .none

/-- R179 holds for port n's transmitter. -/
def feathers (p : Port) (a : AonPort) : Bool :=
  canFeather p a && (bit a.feather 0 || bit a.feather 1)

/-- Schedule feathering runs (R184). -/
def schedRuns (s : State) (n : PortN) : Bool :=
  feathers s.ports[n] s.aon.ports[n] && bit s.aon.ports[n].feather 0 && s.tb.locked

/-- PORT_FEATHER. -/
def portFeather (s : State) (n : PortN) : Word :=
  let p := s.ports[n]
  let a := s.aon.ports[n]
  let run := schedRuns s n
  let mode := if run then (if bit a.feather 1 then 2 else 3)
    else if feathers p a && bit a.feather 1 then 1 else 0
  let why := if run then 0 else if !feathers p a then 1 else if !bit a.feather 0 then 3 else 2
  orAll [a.feather &&& 0x00FF#16, atFld mode 8 2, atFld why 10 2, atBit p.dark 12,
    atBit (isHeld a) 13, atBit (if n = 0 then s.aon.upBcn else a.bcn != .none) 14]

/-! ## Switches and budget (chapter 14) -/

/-- PPS_STAT.STATE codes (R304). -/
def ppsCode : PpsSt → Nat
  | .off => 0
  | .wait => 1
  | .ramp => 2
  | .on => 3
  | .retry => 4
  | .latched => 5
  | .stopping => 6
  | .discharge => 7

/-- The gang that Dm belongs to, as its first member and its size: size 1 for none (R313). -/
def gangOf (g : Word) (m : DnN) : Nat × Nat :=
  let q := m.val / 4
  let k := m.val / 2
  if bit g (8 + q) then (4 * q, 4) else if bit g k then (2 * k, 2) else (m.val, 1)

/-- The lead of Dm's gang; Dm itself when it is in none. -/
def leadOf (g : Word) (m : DnN) : DnN :=
  let q := m.val / 4
  let k := m.val / 2
  if bit g (8 + q) then ⟨4 * q, by omega⟩ else if bit g k then ⟨2 * k, by omega⟩ else m

/-- Members of Dm's gang, lead first. -/
def gangMembers (g : Word) (m : DnN) : List DnN :=
  dnAll.filter fun x => leadOf g x = leadOf g m

/-- Dm has a switch of its own to act on: fitted, and no mere member of a gang (R290, R314). -/
def isLead (g : Word) (m : DnN) : Bool := leadOf g m = m

/-- Dm trains on power-good: it is fitted and leads or is outside a gang (R290, R314). -/
def switched (s : State) (m : DnN) : Bool := s.pps[m].fitted && isLead s.ppsg.gang m

/-- The legs of the switch that Dm belongs to: its lead and the members that are fitted, since the PPS logic
of a port with FITTED = 0 is idle (R290, R314). -/
def gangLegs (s : State) (m : DnN) : List DnN :=
  (gangMembers s.ppsg.gang m).filter fun x => s.pps[x].fitted || x = leadOf s.ppsg.gang m

/-- Power-good of the switch that Dm leads: that of all its running legs (R314). -/
def gangPg (s : State) (m : DnN) : Bool :=
  let legs := (gangLegs s m).filter fun x => !s.pps[x].lost
  !legs.isEmpty && legs.all fun x => s.pps[x].pg

/-- Power-good for Dm's training, true on a port without a switch. -/
def powerGood (s : State) (m : DnN) : Bool := !switched s m || gangPg s m

/-- The state that Dm's leg shows: a leg of a gang that is lost is latched (R315). -/
def legSt (p : Pps) : PpsSt := if p.lost then .latched else p.st

/-- PPS_STAT of Dm. -/
def ppsStat (s : State) (m : DnN) : Word :=
  let p := s.pps[m]
  let gang := gangOf s.ppsg.gang m
  let code := if gang.2 = 1 then 0 else if gang.1 = m.val then 1 else 2
  orAll [atFld (ppsCode (legSt p)) 0 3, atBit (if code = 1 then gangPg s m else p.pg) 3, atBit p.limit 4, atBit p.fold 5,
    atBit p.derated 6, atFld code 7 2, atBit p.senseOk 9, atBit p.on 10]

/-- PPS_FCNT. -/
def ppsFcnt (p : Pps) : Word := atFld p.faults 0 8 ||| atFld p.used 8 4

/-- PPS_GRANTED: the total of the grants (R292). -/
def granted (v : Vector Pps 16) : Nat := v.toList.foldl (fun a p => a + p.grant) 0

/-- The total of the reservations, 4 W each (R292). -/
def reserved (v : Vector Pps 16) : Nat := v.toList.foldl (fun a p => a + if p.rsv then 4 else 0) 0

/-- Free budget (R292). -/
def freeBudget (s : State) : Nat := s.ppsg.budget - granted s.pps - reserved s.pps

/-- PPS_GSTAT. -/
def ppsGstat (s : State) : Word :=
  orAll [atBit s.ppsg.clamp 0, atBit s.ppsg.gangref 1,
    atBit (s.pps.toList.any fun p => p.st = .wait) 2, atBit (s.pps.toList.any fun p => p.pend) 3,
    atBit s.ppsg.vlow 4, atFld (reserved s.pps) 8 8]

/-- PORT_PCLASS of port n. -/
def portPclass (s : State) (n : PortN) : Word :=
  if h : n.val = 0 then atFld s.glob.pclass0 0 3
  else
    let p := s.pps[n.val - 1]'(by omega)
    orAll [atFld p.req 0 3, atBit p.reqv 3, atBit p.rsv 4, atBit p.pend 5, atFld p.grant 8 8]

/-! ## Meter (chapter 15) -/

/-- MTR_STAT.  The sequencer runs while MEAS runs, which is in RUN and only then (R319). -/
def mtrStat (s : State) : Word :=
  orAll [atBit s.mtr.copy.isNone 0, atBit (linkOn s) 1, atBit s.mtr.gap 2, atBit s.mtr.merged 3]

/-- MTR_SNAP. -/
def mtrSnap (m : Mtr) : Word := atBit m.go 0 ||| atFld m.src 1 2

/-! ## Translator (chapter 5) -/

/-- Dm is in split mode (R117). -/
def splitMode (s : State) (m : DnN) : Bool :=
  let p := s.ports[dnPort m]
  let u := s.ports[0]
  isUp p && p.rate ≤ 2 && isUp u && 3 ≤ u.rate

/-- TT_STAT. -/
def ttStat (s : State) : Word :=
  orAll (dnAll.map fun m => atBit (splitMode s m) m.val)

/-- Slots in use. -/
def slotsUsed (t : Tt) : Nat := (t.slots.toList.filter Option.isSome).length

/-- Chunks held by a released inner POUT (R119, R123). -/
def outChunks (t : TxPkt) : Nat :=
  match t.act with
  | .chunks c => c
  | _ => 0

/-- Chunks in use: those of the slots, and those of released inner POUTs not yet sent (R119). -/
def chunksUsed (s : State) : Nat :=
  s.tt.slots.toList.foldl (fun a o => match o with
    | some x => a + x.inCh + x.ansCh
    | none => a) 0 +
  s.ports.toList.foldl (fun a p => (p.txq ++ p.txCur.toList).foldl (fun a t => a + outChunks t) a) 0

/-- TT_FREE. -/
def ttFree (s : State) : Word := atFld (48 - slotsUsed s.tt) 0 6 ||| atFld (48 - chunksUsed s) 6 6

/-- Note the most slots and chunks in use (TT_HWM). -/
def noteHwm (s : State) : State :=
  { s with tt := { s.tt with hwmS := max s.tt.hwmS (slotsUsed s.tt), hwmC := max s.tt.hwmC (chunksUsed s) } }

/-- TT_HWM. -/
def ttHwm (t : Tt) : Word := atFld t.hwmS 0 6 ||| atFld t.hwmC 6 6

/-- TT_ERR. -/
def ttErr (t : Tt) : Word :=
  orAll [atFld t.errTmo 0 4, atFld t.errPdrop 4 4, atFld t.errNosplit 8 4, atFld t.errRec 12 4]

/-! ## Time base and crews (chapter 7) -/

/-- The length of a stroke code, in ticks (R147). -/
def strokeTicks (len : Nat) : Nat := 50000 * 2 ^ len

/-- TB_STAT. -/
def tbStat (s : State) : Word :=
  let t := s.tb
  orAll [atBit t.locked 0, atBit t.holdover 1, atBit (s.clk.refAct == 2) 2, atBit t.dlyOk 3,
    atBit t.dlyPll 4, atBit t.bcnOk 5, atFld t.badBcn 6 2, atFld t.missed 8 4, atBit t.step 12,
    atBit t.loss 13, atBit t.holdExp 14]

/-- Cues that crew k holds now, in transmit queues and at the local node (R160). -/
def crewHeld (s : State) (k : CrewN) : Nat :=
  (s.ports.toList.foldl (fun a p => a + (p.txq.filter fun t => t.cue.any fun c => c.1 = k).length) 0)
    + (s.ln.eps.toList.filter fun e => e.cueHeld && e.crew = some k).length

/-- CREW_CTRL of crew k. -/
def crewCtrl (s : State) (k : CrewN) : Word :=
  let c := s.tb.crews[k]
  orAll [atBit c.en 0, atBit c.snap 1, atBit c.late 2, atBit c.miss 8, atBit c.far 9,
    atBit c.ovr 10, atBit c.pass 11, atFld (min 15 (crewHeld s k)) 12 4]

/-! ## Power states (chapter 16) -/

/-- PM_STAT.STATE codes (R334). -/
def pmCode : PmSt → Nat
  | .off => 0
  | .run => 0
  | .feather => 1
  | .stow => 2
  | .enterFeather => 4
  | .enterStow => 5
  | .waking => 6

/-- PM_STAT.  During the watchdog's grace WHY reads 3 (R358). -/
def pmStat (s : State) : Word :=
  let p := s.pm
  orAll [atFld (pmCode p.st) 0 3, atBit p.b1Ok 3, atBit p.b2Ok 4, atBit p.b3Ok 5, atBit p.b4Ok 6,
    atFld (if s.wdt.grace then 3 else p.why) 8 3, atBit p.puFail 11, atBit p.reqDrop 12]

/-- KREG_STAT. -/
def kregStat (p : Pm) : Word :=
  orAll [atBit p.kregLow 0, atBit (!p.kregLow) 1, atBit p.boost 2, atBit p.heavy 3]

/-! ## Watchdog (chapter 17) -/

/-- Units in the closed part of the present period (R357). -/
def closedUnits (w : Wdt) : Nat := w.curPeriod * w.curWindow / 16

/-- WDT_STAT.OPEN: the window is open; while EN = 0 it counts as open, during grace as closed (R357). -/
def wdtOpen (w : Wdt) : Bool := !w.grace && (!w.en || closedUnits w ≤ w.count)

/-- WDT_CTRL. -/
def wdtCtrl (w : Wdt) : Word :=
  orAll [atBit w.en 0, atBit w.lock 1, atBit w.hrstEn 2, atBit w.mgSvc 3]

/-- WDT_STAT. -/
def wdtStat (w : Wdt) : Word :=
  orAll [atBit (wdtOpen w) 0, atBit w.grace 1, atFld w.cause 2 2, atFld w.save 4 2,
    atBit (w.armHost || w.armBus || w.armMg) 6, atBit w.wref 7, atBit w.pend 8]

/-! ## Black box and flash (chapter 18) -/

/-- BB_STAT. -/
def bbStat (b : Bb) : Word :=
  orAll [atFld b.count 0 9, atBit b.trig 9, atBit b.frozen 10, atFld b.lost 11 5]

/-- BB_HEAD. -/
def bbHead (b : Bb) : Word := atFld b.head 0 8 ||| atFld b.trigSlot 8 8

/-- BB_FLASH_STAT. -/
def bbFlashStat (b : Bb) : Word :=
  orAll [atBit b.armed 0, atBit b.scan 1, atBit b.flush.isSome 2, atBit b.nosusp 3, atBit b.full 4,
    atBit b.done 5, atBit b.rderr 6, atBit (b.pf.wait || b.mgw.wait) 7, atFld b.slot 8 4,
    atFld b.last 12 4]

/-- FL_STAT.BUSY: an operation, an image load or a scan runs (R382). -/
def flBusy (s : State) : Bool := s.fl.op.isSome || s.glob.cfgBusy || s.bb.scan

/-- The read width in use: single-bit on FIRC and before an image has been applied (R380). -/
def flWidth (s : State) : Nat :=
  if !s.clk.corePll || s.glob.imgCount = 0 then 0
  else min (min 2 (s.glob.imgFlags % 4)) ((s.fl.sfdp.map fun x => x.width).getD 0)

/-- 4-byte addressing is in use: above 128 Mbit, where the SFDP tables list it (R380). -/
def flFour (s : State) : Bool := s.fl.sfdp.any fun x => 0x1000000 < x.size && x.addr4

/-- The address that goes to the flash: 3 bytes carry its low 24 bits (R380; DEDUCED, log 130). -/
def flAddr (s : State) (addr : Nat) : Nat := if flFour s then addr else addr % 0x1000000

/-- A flush has begun and waits for the flash pins (R376). -/
def flushWaits (b : Bb) : Bool := b.flush.any fun f => !f.pins

/-- Bytes of the flash in use: without 4-byte addressing only the lowest 16 MiB (R380). -/
def flSize (x : Sfdp) : Nat := if x.addr4 then x.size else min x.size 0x1000000

/-- How an operation is carried out: a read with the width in use, at 50 MHz with FLAGS.FAST50 and CORE on the
PLL; a program or an erase single-bit (R380). -/
def flMode (s : State) (read : Bool) : FlMode where
  width := if read then flWidth s else 0
  fast := read && s.clk.corePll && s.glob.imgCount != 0 && bit (w16 s.glob.imgFlags) 2
  addr4 := flFour s

/-- FL_STAT. -/
def flStat (s : State) : Word :=
  orAll [atBit (flBusy s) 0, atBit s.fl.done 1, atBit s.fl.err 2, atBit s.fl.prot 3,
    atBit s.fl.susp 4, atBit s.fl.sfdp.isSome 5, atFld (flWidth s) 6 2, atFld s.fl.data 8 8]

/-! ## Queues (chapter 13) -/

/-- EVF_STAT. -/
def evfStat (q : Que) : Word :=
  orAll [atFld q.evf.length 0 8, atBit q.evf.isEmpty 8, atBit q.evfUnder 9, atBit q.evfRst 10,
    atFld q.evfLost 11 5]

/-- MG_IRQ_N is driven low (R286); it is released in reset and in STOW (R392). -/
def mgIrq (s : State) : Bool := linkHeld s && bit s.que.evfCtrl 12 && !s.que.evf.isEmpty

/-! ## Arbiters (chapter 12) -/

/-- HMA_STAT. -/
def hmaStat (h : Hma) : Word :=
  orAll [atFld (h.arb.holder.getD 31) 0 5, atBit h.arb.holder.isSome 5, atBit h.arb.aside.isSome 6,
    atFld (h.arb.aside.getD 0) 7 5]

/-- ULA_STAT. -/
def ulaStat (s : State) : Word :=
  let a := s.ula.arb
  orAll [atFld (a.holder.getD 31) 0 5, atBit a.holder.isSome 5, atBit a.aside.isSome 6,
    atFld (a.aside.getD 0) 7 5, atBit (fragOn s.ports[0]) 12]

/-- ULA_PREEMPT. -/
def ulaPreempt (u : Ula) : Word :=
  orAll [atBit u.preEn 0, atFld u.maxRun 1 4, atFld u.preCnt 8 8]

/-! ## PCIe functions and domains (chapters 9 and 11) -/

/-- The endpoint is enabled by its strap and not held by PE_PERST_N. -/
def epUp (s : State) : Bool := epStrap s && !s.rst.perst

/-- Domain d exists (R198). -/
def domExists (s : State) (d : DomN) : Bool :=
  epStrap s && (d = 0 || (s.pcie.vfe && d.val ≤ s.pcie.numVfs))

/-- Function d may issue requests: it exists, is in D0 and has Bus Master Enable (R189, R207). -/
def fnLive (s : State) (d : DomN) : Bool :=
  domExists s d && s.pcie.fns[d].bme && !s.pcie.fns[d].d3

/-- DOM_STAT.STATE codes (R238). -/
def domCode : DomSt → Nat
  | .off => 0
  | .run => 1
  | .easy => 2
  | .summary => 3
  | .fault => 4
  | .teardown => 5

/-- Domain d is enabled: neither OFF nor in TEARDOWN. -/
def domOn (x : Dom) : Bool := x.st != .off && x.st != .teardown

/-- One of the domain's three requesters has its bit set (R276). -/
def domBits (s : State) (hb ub : BitVec 32) (d : DomN) : Bool :=
  let _ := s
  hb.getLsbD d.val || hb.getLsbD (8 + d.val) || ub.getLsbD (20 + d.val)

/-- DOM_STAT of domain d. -/
def domStat (s : State) (d : DomN) : Word :=
  let x := s.doms[d]
  orAll [atFld (domCode x.st) 0 3, atBit x.defer 3, atBit (fnLive s d) 4,
    atBit (domBits s s.hma.arb.cuts s.ula.arb.cuts d) 5,
    atBit (domBits s s.hma.arb.flags s.ula.arb.flags d) 6, atFld x.teardowns 8 8]

/-- DOM_ERR. -/
def domErr (x : Dom) : Word := (x.err &&& 0x001F#16) ||| atFld x.evLost 8 8

/-- DOM_RIGHTS. -/
def domRights (x : Dom) : Word := (x.rights &&& 0x001F#16) ||| atFld x.denied 8 8

/-- DOM_SUMCTL; GO always reads 0 once judged. -/
def domSumctl (x : Dom) : Word := atBit x.busy 1 ||| atFld x.ign 8 8

/-- DOM_EPMASK0 (`half = 0`) or DOM_EPMASK1 of domain d, from the endpoints' owners (R229). -/
def domEpmask (s : State) (d : DomN) (half : Nat) : Word :=
  orAll ((List.range 16).map fun j =>
    atBit (vAt (s.ln.eps.map fun e => decide (e.owner = d)) false (16 * half + j)) j)

/-- DOM_QOS: the same storage as four level fields (R275). -/
def domQos (s : State) (d : DomN) : Word :=
  let a := vAt s.hma.arb.pri 0#16 d.val
  let b := vAt s.hma.arb.pri 0#16 (8 + d.val)
  let u := vAt s.ula.arb.pri 0#16 (20 + d.val)
  orAll [atFld (fld a 0 2) 0 2, atFld (fld b 0 2) 2 2, atFld (fld u 0 4) 4 4]

/-- Entries of the event ring and of the command ring (R211). -/
def ringLen (sz : Nat) : Nat := 16 * 2 ^ sz

/-- DOM_EVTSZ.SIZE as a count of entries. -/
def evtSize (x : Dom) : Nat := ringLen (fld x.evtSz 0 4)

/-- DOM_CMDSZ as a count of entries. -/
def cmdSize (x : Dom) : Nat := ringLen (fld x.cmdSz 0 4)

/-- Entries that may still be written before the ring is full (R224). -/
def evtFree (x : Dom) : Nat := evtSize x - (x.producer - x.evtCi).toNat

/-- The domain may write event entries now (R224, R238, R207). -/
def evtWritable (s : State) (d : DomN) : Bool :=
  let x := s.doms[d]
  (x.st = .run || x.st = .fault) && fnLive s d

/-! ## Local node (chapter 10) -/

/-- LN_STAT. -/
def lnStat (s : State) : Word :=
  orAll [atBit s.ln.en 0, atBit (s.bus.loc != 0xFFFE#16) 1,
    atFld (s.ln.eps.toList.filter fun e => e.full).length 8 6]

/-- EP_CFG. -/
def epCfg (e : Ep) : Word := orAll [atBit e.en 0, atFld e.typ 1 2, atBit e.dirIn 3]

/-- EP_OWNER. -/
def epOwner (s : State) (e : Ep) : Word :=
  atFld e.owner.val 0 3 ||| atBit (domOn s.doms[e.owner]) 3

/-- EP_STAT. -/
def epStat (e : Ep) : Word :=
  orAll [atBit e.full 0, atBit e.sent 1, atBit e.halt 2, atBit e.cueHeld 3, atBit e.ring 4,
    atBit e.ringErr 5, atBit e.allocErr 6, atFld e.stage 8 2]

/-- EP_ERR. -/
def epErr (e : Ep) : Word :=
  orAll [atFld e.overrun 0 8, atFld e.setupLost 8 4, atFld e.missed 12 4]

/-- EP_SEQ. -/
def epSeq (e : Ep) : Word :=
  orAll [atFld e.seqTag.toNat 0 7, atBit e.seqValid 7, atFld e.retries 8 8]

/-! ## Status summary (chapter 21) -/

/-- INT_SUM (R427). -/
def intSum (s : State) : Word :=
  orAll [
    atBit (s.ports.toList.any fun p => p.evt != 0#16) 0,
    atBit ((s.pps.toList.any fun p => p.fault != 0#16) || s.ppsg.clamp || s.ppsg.gangref) 1,
    atBit (s.tb.step || s.tb.loss || s.tb.holdExp ||
      s.tb.crews.toList.any fun c => c.miss || c.far || c.ovr || c.pass) 2,
    atBit (s.hma.arb.flags != 0#32 || s.hma.arb.cuts != 0#32 || s.ula.arb.flags != 0#32 ||
      s.ula.arb.cuts != 0#32) 3,
    atBit (s.que.err0 != 0#16 || s.que.err1 != 0#16) 4,
    atBit s.wdt.grace 5,
    atBit (s.bb.trig || s.bb.done) 6,
    atBit (!s.que.evf.isEmpty) 7,
    atBit (s.doms.toList.any fun x => x.err &&& 0x001F#16 != 0#16) 8,
    atBit (s.clk.refFb || s.clk.badPlan) 9,
    atBit (s.rst.cause != 0#16) 10]

end Sys2Proof.Machine
end

