-- ==== Sys2Proof/Machine/Operands.lean ====
section
/-! DEFINITION. The register map (chapter 21): every register and table word by name, and the
addresses of PF BAR0 and of a VF BAR0.  An address that names none is reserved (R421). -/

namespace Sys2Proof.Machine

open Sys2Proof

/-- Registers of a PORT block. -/
inductive PortReg where
  | ctrl | stat | cap0 | cap1 | pcap0 | pcap1 | rate | train | errcnt | codeerr | flood | credit
  | rangeLo | rangeHi | feather | epoch | evt | dly | pclass
  deriving DecidableEq, Repr

/-- Registers of a PPS block. -/
inductive PpsReg where
  | ctrl | stat | ilim | pfold | tfault | retry | fault | fcnt | voffchk | gatechk | pgdly
  deriving DecidableEq, Repr

/-- Registers of a METER port block. -/
inductive MtrReg where
  | i | v | p (k : Fin 2) | e (k : Fin 3) | si | sv | sp (k : Fin 2) | se (k : Fin 3)
  deriving DecidableEq, Repr

/-- Registers of an endpoint. -/
inductive EpReg where
  | cfg | buf | size | owner | stat | period | err | seq
  deriving DecidableEq, Repr

/-- Registers of a domain block. -/
inductive DomReg where
  | ctrl | stat | db (i : Fin 4) | cmd (i : Fin 4) | cmdSz | evt (i : Fin 4) | evtSz | sum (i : Fin 4)
  | sumctl | sumseq | epmask (i : Fin 2) | rights | cadence | qos | err | evtmap (i : Fin 4) | mod
  deriving DecidableEq, Repr

/-- Registers of a crew. -/
inductive CrewReg where
  | mask0 | mask1 | catchOfs | ctrl
  deriving DecidableEq, Repr

/-- The registers that the HMA and the ULA share. -/
inductive ArbReg where
  | ctrl | stat | window | quota | starve | hold | flag (i : Fin 2) | cut (i : Fin 2)
  | pri (r : Fin 28) | hint (r : Fin 28) | slot (j : Fin 64)
  deriving DecidableEq, Repr

/-- Words of a multicast entry. -/
inductive McReg where
  | grp | ports | loc | hits
  deriving DecidableEq, Repr

/-- Every register and table word of PF BAR0 (R421). -/
inductive Reg where
  | idPart | idRev | idUid (i : Fin 4) | straps | gctrl | gstat | rstCause | clkPlan | clkStat
  | intSum | nodeAddr | localAddr | busStat | reglock | scratch
  | pmCtrl | pmStat | featherIdle | stowIdle | retSel | wakeEn | wakePol | wakeEdge | wakeMode
  | wakeCause | wakeTime (i : Fin 4) | kregCtrl | kregStat | pwrSeq
  | wdtCtrl | wdtPeriod | wdtWindow | wdtGrace | wdtService | wdtKey | wdtStat | wdtCount
  | bbCtrl | bbStat | bbTrig0 | bbTrig1 | bbPost | bbHead | bbIndex | bbData (i : Fin 8)
  | bbFlash (i : Fin 2) | bbFlashStat | flCtrl | flStat
  | tbCtrl | tbStat | tbTime (i : Fin 4) | tbStroke (i : Fin 2) | tbPeriod | tbOffset (i : Fin 2)
  | tbHopdly (i : Fin 2) | tbResid | tbSlew | tbSynt | catchPin (i : Fin 4) | prestroke
  | crew (k : CrewN) (r : CrewReg)
  | arb (a : ArbName) (r : ArbReg) | ulaPreempt
  | qCtrl | qErr (i : Fin 2) | qErrCnt | qLast | evfCtrl | evfStat | evfData (i : Fin 4)
  | port (n : PortN) (r : PortReg)
  | pps (m : DnN) (r : PpsReg) | ppsBudget | ppsGranted | ppsGang | ppsGstat
  | mtrCtrl | mtrStat | mtrSnap | mtrSeq | mtrTemp | mtrVlink | mtr (m : DnN) (r : MtrReg)
  | ttCtrl | ttStat | ttFree | ttHwm | ttErr | ttTmo
  | lnCtrl | lnStat | lnUid (i : Fin 4) | lnClass | ep (k : EpN) (r : EpReg)
  | dom (d : DomN) (r : DomReg)
  | mc (k : Fin 256) (r : McReg) | sched (p : PortN) (j : Fin 64)
  deriving DecidableEq, Repr

/-- A number below n as an index. -/
def finOf? (n i : Nat) : Option (Fin n) := if h : i < n then some ⟨i, h⟩ else none

/-- GLOBAL, by word index. -/
def globAt : Nat → Option Reg
  | 0 => some .idPart
  | 1 => some .idRev
  | 2 => some (.idUid 0)
  | 3 => some (.idUid 1)
  | 4 => some (.idUid 2)
  | 5 => some (.idUid 3)
  | 6 => some .straps
  | 7 => some .gctrl
  | 8 => some .gstat
  | 9 => some .rstCause
  | 10 => some .clkPlan
  | 11 => some .clkStat
  | 12 => some .intSum
  | 13 => some .nodeAddr
  | 14 => some .localAddr
  | 15 => some .busStat
  | 16 => some .reglock
  | 17 => some .scratch
  | _ => none

/-- POWER STATES, by word index. -/
def pmAt : Nat → Option Reg
  | 0 => some .pmCtrl
  | 1 => some .pmStat
  | 2 => some .featherIdle
  | 3 => some .stowIdle
  | 4 => some .retSel
  | 5 => some .wakeEn
  | 6 => some .wakePol
  | 7 => some .wakeEdge
  | 8 => some .wakeMode
  | 9 => some .wakeCause
  | 10 => some (.wakeTime 0)
  | 11 => some (.wakeTime 1)
  | 12 => some (.wakeTime 2)
  | 13 => some (.wakeTime 3)
  | 14 => some .kregCtrl
  | 15 => some .kregStat
  | 16 => some .pwrSeq
  | _ => none

/-- WATCHDOG, by word index. -/
def wdtAt : Nat → Option Reg
  | 0 => some .wdtCtrl
  | 1 => some .wdtPeriod
  | 2 => some .wdtWindow
  | 3 => some .wdtGrace
  | 4 => some .wdtService
  | 5 => some .wdtKey
  | 6 => some .wdtStat
  | 7 => some .wdtCount
  | _ => none

/-- BLACK BOX, by word index. -/
def bbAt (w : Nat) : Option Reg :=
  match w with
  | 0 => some .bbCtrl
  | 1 => some .bbStat
  | 2 => some .bbTrig0
  | 3 => some .bbTrig1
  | 4 => some .bbPost
  | 5 => some .bbHead
  | 6 => some .bbIndex
  | 15 => some (.bbFlash 0)
  | 16 => some (.bbFlash 1)
  | 17 => some .bbFlashStat
  | 18 => some .flCtrl
  | 19 => some .flStat
  | _ => if 7 ≤ w then (finOf? 8 (w - 7)).map .bbData else none

/-- A register of a crew, by word index. -/
def crewAt (k : CrewN) : Nat → Option Reg
  | 0 => some (.crew k .mask0)
  | 1 => some (.crew k .mask1)
  | 2 => some (.crew k .catchOfs)
  | 3 => some (.crew k .ctrl)
  | _ => none

/-- TIME, by word index. -/
def timeAt (w : Nat) : Option Reg :=
  match w with
  | 0 => some .tbCtrl
  | 1 => some .tbStat
  | 2 => some (.tbTime 0)
  | 3 => some (.tbTime 1)
  | 4 => some (.tbTime 2)
  | 5 => some (.tbTime 3)
  | 6 => some (.tbStroke 0)
  | 7 => some (.tbStroke 1)
  | 8 => some .tbPeriod
  | 9 => some (.tbOffset 0)
  | 10 => some (.tbOffset 1)
  | 11 => some (.tbHopdly 0)
  | 12 => some (.tbHopdly 1)
  | 13 => some .tbResid
  | 14 => some .tbSlew
  | 15 => some .tbSynt
  | 16 => some (.catchPin 0)
  | 17 => some (.catchPin 1)
  | 18 => some (.catchPin 2)
  | 19 => some (.catchPin 3)
  | 20 => some .prestroke
  | _ => if 32 ≤ w then (finOf? 8 ((w - 32) / 4)).bind fun k => crewAt k (w % 4) else none

/-- The six registers with which both arbiter blocks begin. -/
def arbHead (a : ArbName) : Nat → Option Reg
  | 0 => some (.arb a .ctrl)
  | 1 => some (.arb a .stat)
  | 2 => some (.arb a .window)
  | 3 => some (.arb a .quota)
  | 4 => some (.arb a .starve)
  | 5 => some (.arb a .hold)
  | _ => none

/-- The flag and cut registers of an arbiter. -/
def arbBits (a : ArbName) : Nat → Option Reg
  | 0 => some (.arb a (.flag 0))
  | 1 => some (.arb a (.flag 1))
  | 2 => some (.arb a (.cut 0))
  | 3 => some (.arb a (.cut 1))
  | _ => none

/-- A requester's level or hint register; the HMA has 20 requesters and the ULA 28. -/
def arbList (a : ArbName) (f : Fin 28 → ArbReg) (i : Nat) : Option Reg :=
  if a = .hma && 20 ≤ i then none else (finOf? 28 i).map fun r => .arb a (f r)

/-- HMA, by word index. -/
def hmaAt (w : Nat) : Option Reg :=
  if w < 6 then arbHead .hma w
  else if w < 10 then arbBits .hma (w - 6)
  else if 16 ≤ w ∧ w < 36 then arbList .hma .pri (w - 16)
  else if 40 ≤ w then arbList .hma .hint (w - 40)
  else none

/-- ULA, by word index. -/
def ulaAt (w : Nat) : Option Reg :=
  if w < 6 then arbHead .ula w
  else if w = 6 then some .ulaPreempt
  else if w < 11 then arbBits .ula (w - 7)
  else if 16 ≤ w ∧ w < 44 then arbList .ula .pri (w - 16)
  else if 44 ≤ w then arbList .ula .hint (w - 44)
  else none

/-- QUEUE, by word index. -/
def queAt : Nat → Option Reg
  | 0 => some .qCtrl
  | 1 => some (.qErr 0)
  | 2 => some (.qErr 1)
  | 3 => some .qErrCnt
  | 4 => some .qLast
  | 5 => some .evfCtrl
  | 6 => some .evfStat
  | 7 => some (.evfData 0)
  | 8 => some (.evfData 1)
  | 9 => some (.evfData 2)
  | 10 => some (.evfData 3)
  | _ => none

/-- A PORT block, by word index; port 0 has no routing range. -/
def portAt (n : PortN) (w : Nat) : Option Reg :=
  match w with
  | 0 => some (.port n .ctrl)
  | 1 => some (.port n .stat)
  | 2 => some (.port n .cap0)
  | 3 => some (.port n .cap1)
  | 4 => some (.port n .pcap0)
  | 5 => some (.port n .pcap1)
  | 6 => some (.port n .rate)
  | 7 => some (.port n .train)
  | 8 => some (.port n .errcnt)
  | 9 => some (.port n .codeerr)
  | 10 => some (.port n .flood)
  | 11 => some (.port n .credit)
  | 12 => if n = 0 then none else some (.port n .rangeLo)
  | 13 => if n = 0 then none else some (.port n .rangeHi)
  | 14 => some (.port n .feather)
  | 15 => some (.port n .epoch)
  | 16 => some (.port n .evt)
  | 17 => some (.port n .dly)
  | 18 => some (.port n .pclass)
  | _ => none

/-- A PPS block, by word index. -/
def ppsAt (m : DnN) : Nat → Option Reg
  | 0 => some (.pps m .ctrl)
  | 1 => some (.pps m .stat)
  | 2 => some (.pps m .ilim)
  | 3 => some (.pps m .pfold)
  | 4 => some (.pps m .tfault)
  | 5 => some (.pps m .retry)
  | 6 => some (.pps m .fault)
  | 7 => some (.pps m .fcnt)
  | 8 => some (.pps m .voffchk)
  | 9 => some (.pps m .gatechk)
  | 10 => some (.pps m .pgdly)
  | _ => none

/-- The global registers of the port switches, by word index. -/
def ppsGlobAt : Nat → Option Reg
  | 0 => some .ppsBudget
  | 1 => some .ppsGranted
  | 2 => some .ppsGang
  | 3 => some .ppsGstat
  | _ => none

/-- The global registers of METER, by word index. -/
def mtrGlobAt : Nat → Option Reg
  | 0 => some .mtrCtrl
  | 1 => some .mtrStat
  | 2 => some .mtrSnap
  | 3 => some .mtrSeq
  | 4 => some .mtrTemp
  | 5 => some .mtrVlink
  | _ => none

/-- A METER port block, by word index. -/
def mtrAt (m : DnN) : Nat → Option Reg
  | 0 => some (.mtr m .i)
  | 1 => some (.mtr m .v)
  | 2 => some (.mtr m (.p 0))
  | 3 => some (.mtr m (.p 1))
  | 4 => some (.mtr m (.e 0))
  | 5 => some (.mtr m (.e 1))
  | 6 => some (.mtr m (.e 2))
  | 7 => some (.mtr m .si)
  | 8 => some (.mtr m .sv)
  | 9 => some (.mtr m (.sp 0))
  | 10 => some (.mtr m (.sp 1))
  | 11 => some (.mtr m (.se 0))
  | 12 => some (.mtr m (.se 1))
  | 13 => some (.mtr m (.se 2))
  | _ => none

/-- TT, by word index. -/
def ttAt : Nat → Option Reg
  | 0 => some .ttCtrl
  | 1 => some .ttStat
  | 2 => some .ttFree
  | 3 => some .ttHwm
  | 4 => some .ttErr
  | 5 => some .ttTmo
  | _ => none

/-- LOCAL NODE, by word index. -/
def lnAt : Nat → Option Reg
  | 0 => some .lnCtrl
  | 1 => some .lnStat
  | 2 => some (.lnUid 0)
  | 3 => some (.lnUid 1)
  | 4 => some (.lnUid 2)
  | 5 => some (.lnUid 3)
  | 6 => some .lnClass
  | _ => none

/-- An endpoint's registers, by word index. -/
def epAt (k : EpN) : Nat → Option Reg
  | 0 => some (.ep k .cfg)
  | 1 => some (.ep k .buf)
  | 2 => some (.ep k .size)
  | 3 => some (.ep k .owner)
  | 4 => some (.ep k .stat)
  | 5 => some (.ep k .period)
  | 6 => some (.ep k .err)
  | 7 => some (.ep k .seq)
  | _ => none

/-- A domain block, by word index. -/
def domAt (w : Nat) : Option DomReg :=
  match w with
  | 0 => some .ctrl
  | 1 => some .stat
  | 10 => some .cmdSz
  | 15 => some .evtSz
  | 20 => some .sumctl
  | 21 => some .sumseq
  | 22 => some (.epmask 0)
  | 23 => some (.epmask 1)
  | 24 => some .rights
  | 25 => some .cadence
  | 26 => some .qos
  | 27 => some .err
  | 32 => some .mod
  | _ =>
    if w < 6 then (finOf? 4 (w - 2)).map .db
    else if w < 10 then (finOf? 4 (w - 6)).map .cmd
    else if w < 15 then (finOf? 4 (w - 11)).map .evt
    else if w < 20 then (finOf? 4 (w - 16)).map .sum
    else if 28 ≤ w then (finOf? 4 (w - 28)).map .evtmap
    else none

/-- A multicast entry's words. -/
def mcAt (k : Fin 256) : Nat → Option Reg
  | 0 => some (.mc k .grp)
  | 1 => some (.mc k .ports)
  | 2 => some (.mc k .loc)
  | 3 => some (.mc k .hits)
  | _ => none

/-- The register at word index `w` of PF BAR0, which is also the management SPI's word address and a
configuration image record's address (R384, R381). -/
def regAtWord (w : Nat) : Option Reg :=
  if w < 0x100 then globAt w
  else if w < 0x180 then pmAt (w - 0x100)
  else if w < 0x1C0 then wdtAt (w - 0x180)
  else if w < 0x200 then bbAt (w - 0x1C0)
  else if w < 0x280 then timeAt (w - 0x200)
  else if w < 0x300 then hmaAt (w - 0x280)
  else if w < 0x380 then ulaAt (w - 0x300)
  else if w < 0x400 then queAt (w - 0x380)
  else if w < 0x900 then (finOf? 17 ((w - 0x400) / 64)).bind fun n => portAt n (w % 64)
  else if w < 0xB00 then (finOf? 16 ((w - 0x900) / 32)).bind fun m => ppsAt m (w % 32)
  else if w < 0xC00 then ppsGlobAt (w - 0xB00)
  else if w < 0xC40 then mtrGlobAt (w - 0xC00)
  else if w < 0xD80 then (finOf? 16 ((w - 0xC40) / 16)).bind fun m => mtrAt m (w % 16)
  else if w < 0xDC0 then ttAt (w - 0xD80)
  else if w < 0xE00 then lnAt (w - 0xDC0)
  else if w < 0x1000 then (finOf? 32 ((w - 0xE00) / 8)).bind fun k => epAt k (w % 8)
  else if w < 0x1400 then (finOf? 8 ((w - 0x1000) / 128)).bind fun d =>
    (domAt (w % 128)).map fun r => .dom d r
  else if w < 0x2000 then none
  else if w < 0x2040 then (finOf? 64 (w - 0x2000)).map fun j => .arb .hma (.slot j)
  else if w < 0x2080 then (finOf? 64 (w - 0x2040)).map fun j => .arb .ula (.slot j)
  else if w < 0x2400 then none
  else if w < 0x2800 then (finOf? 256 ((w - 0x2400) / 4)).bind fun k => mcAt k (w % 4)
  else if w < 0x2C00 then (finOf? 17 ((w - 0x2800) / 64 + 1)).bind fun n =>
    (finOf? 64 (w % 64)).map fun j => .sched n j
  else if w < 0x2C10 then (finOf? 64 (w - 0x2C00)).map fun j => .sched 0 j
  else none

/-- The register at byte offset `off` of PF BAR0; a register sits at a 4-byte stride (R192). -/
def regAtPf (off : Nat) : Option Reg := if off % 4 = 0 then regAtWord (off / 4) else none

/-- The register at byte offset `off` of the VF BAR0 of domain d (R425). -/
def regAtVf (d : DomN) (off : Nat) : Option Reg :=
  if off % 4 != 0 then none
  else if off < 0x84 then (domAt (off / 4)).map fun r => .dom d r
  else match off with
    | 0x200 => some .idPart
    | 0x204 => some .idRev
    | 0x210 => some (.tbTime 0)
    | 0x214 => some (.tbTime 1)
    | 0x218 => some (.tbTime 2)
    | 0x21C => some (.tbTime 3)
    | 0x220 => some (.tbStroke 0)
    | 0x224 => some (.tbStroke 1)
    | 0x230 => some .wdtService
    | _ => none

/-- The domain of VF v. -/
def vfDom (v : VfN) : DomN := ⟨v.val + 1, by omega⟩

/-- The register that a party reaches at an offset of its own window. -/
def regAt (p : Path) (off : Nat) : Option Reg :=
  match p with
  | .vf v => regAtVf (vfDom v) off
  | .cmd _ => regAtPf off
  | .pf => regAtPf off
  | .mg => regAtPf off
  | .hub => regAtPf off
  | .image => regAtPf off
  | .restore => regAtPf off

/-- The register is held on the Power die (R14). -/
def onPowerDie : Reg → Bool
  | .straps => true
  | .rstCause => true
  | .pmCtrl => true
  | .pmStat => true
  | .featherIdle => true
  | .stowIdle => true
  | .retSel => true
  | .wakeEn => true
  | .wakePol => true
  | .wakeEdge => true
  | .wakeMode => true
  | .wakeCause => true
  | .wakeTime _ => true
  | .kregCtrl => true
  | .kregStat => true
  | .pwrSeq => true
  | .wdtCtrl => true
  | .wdtPeriod => true
  | .wdtWindow => true
  | .wdtGrace => true
  | .wdtService => true
  | .wdtKey => true
  | .wdtStat => true
  | .wdtCount => true
  | .bbCtrl => true
  | .bbStat => true
  | .bbTrig0 => true
  | .bbTrig1 => true
  | .bbPost => true
  | .bbHead => true
  | .bbIndex => true
  | .bbData _ => true
  | .bbFlash _ => true
  | .bbFlashStat => true
  | .pps _ _ => true
  | .ppsBudget => true
  | .ppsGranted => true
  | .ppsGang => true
  | .ppsGstat => true
  | .mtrCtrl => true
  | .mtrStat => true
  | .mtrSnap => true
  | .mtrSeq => true
  | .mtrTemp => true
  | .mtrVlink => true
  | .mtr _ _ => true
  | _ => false

end Sys2Proof.Machine
end

