-- ==== Sys2Proof/Machine/RegRead.lean ====
section
/-! DEFINITION. What a read of each register returns (the register details of the chapters). -/

namespace Sys2Proof.Machine

open Sys2Proof

/-- The latch of an access path (R194). -/
def latchOf : Path → Fin 10
  | .pf => 0
  | .vf v => ⟨v.val + 1, by omega⟩
  | .hub => 8
  | .mg => 9
  | .cmd _ => 0
  | .image => 0
  | .restore => 0

/-- A PORT register. -/
def portRead (s : State) (n : PortN) : PortReg → Word
  | .ctrl => portCtrl s.ports[n]
  | .stat => portStat s n
  | .cap0 => portCap0 s n
  | .cap1 => portCap1 s
  | .pcap0 => s.ports[n].pcap0
  | .pcap1 => s.ports[n].pcap1
  | .rate => portRate s.ports[n]
  | .train => portTrain s.ports[n]
  | .errcnt => portErrCnt s.ports[n]
  | .codeerr => w16 s.ports[n].codeErr
  | .flood => portFlood s.ports[n]
  | .credit => portCredit s.ports[n]
  | .rangeLo => s.ports[n].rangeLo
  | .rangeHi => s.ports[n].rangeHi
  | .feather => portFeather s n
  | .epoch => w16 s.ports[n].epoch
  | .evt => s.ports[n].evt
  | .dly => if n = 0 then w16 (min 65535 s.tb.hop.toNat) else w16 s.ports[n].dly
  | .pclass => portPclass s n

/-- A PPS register. -/
def ppsRead (s : State) (m : DnN) : PpsReg → Word
  | .ctrl => atBit s.pps[m].on 0 ||| atBit s.pps[m].fitted 1
  | .stat => ppsStat s m
  | .ilim => s.pps[m].ilim
  | .pfold => s.pps[m].pfold
  | .tfault => s.pps[m].tfault
  | .retry => s.pps[m].retry
  | .fault => s.pps[m].fault
  | .fcnt => ppsFcnt s.pps[m]
  | .voffchk => orAll [atBit s.pps[m].voffEn 0, atBit s.pps[m].voffArmed 1, atBit s.pps[m].voffHigh 2]
  | .gatechk => atBit s.pps[m].gateEn 0 ||| atFld s.pps[m].vgs 8 8
  | .pgdly => s.pps[m].pgdly

/-- A METER port register: the energy register is the top 48 bits of the sum (R324). -/
def mtrRead (p : MPort) : MtrReg → Word
  | .i => p.i
  | .v => p.v
  | .p k => wordOf p.p.toNat k.val
  | .e k => wordOf (p.e.toNat / 2 ^ 24) k.val
  | .si => p.si
  | .sv => p.sv
  | .sp k => wordOf p.sp.toNat k.val
  | .se k => wordOf p.se.toNat k.val

/-- An endpoint register. -/
def epRead (s : State) (k : EpN) : EpReg → Word
  | .cfg => epCfg s.ln.eps[k]
  | .buf => w16 s.ln.eps[k].buf
  | .size => w16 s.ln.eps[k].size
  | .owner => epOwner s s.ln.eps[k]
  | .stat => epStat s.ln.eps[k]
  | .period => w16 s.ln.eps[k].period
  | .err => epErr s.ln.eps[k]
  | .seq => epSeq s.ln.eps[k]

/-- A domain register at reset, as a domain that does not exist reads (R198). -/
def domResetVal (d : DomN) : DomReg → Word
  | .epmask _ => if d = 0 then 0xFFFF#16 else 0#16
  | .rights => if d = 0 then 0x001F#16 else 0#16
  | .cadence => 0x9814#16
  | .qos => 0x0095#16
  | _ => 0#16

/-- A register of a domain that exists. -/
def domLive (s : State) (d : DomN) : DomReg → Word
  | .ctrl => atBit s.doms[d].en 0
  | .stat => domStat s d
  | .db i => wordOf s.doms[d].db i.val
  | .cmd i => wordOf s.doms[d].cmdBase i.val
  | .cmdSz => s.doms[d].cmdSz
  | .evt i => wordOf s.doms[d].evtBase i.val
  | .evtSz => s.doms[d].evtSz
  | .sum i => wordOf s.doms[d].sum i.val
  | .sumctl => domSumctl s.doms[d]
  | .sumseq => s.doms[d].sumSeq
  | .epmask i => domEpmask s d i.val
  | .rights => domRights s.doms[d]
  | .cadence => s.doms[d].cadence
  | .qos => domQos s d
  | .err => domErr s.doms[d]
  | .evtmap i => s.doms[d].evtMap[i]
  | .mod => s.doms[d].mod

/-- A domain register (R198). -/
def domRead (s : State) (d : DomN) (r : DomReg) : Word :=
  if domExists s d then domLive s d r else domResetVal d r

/-- A crew register. -/
def crewRead (s : State) (k : CrewN) : CrewReg → Word
  | .mask0 => s.tb.crews[k].mask0
  | .mask1 => s.tb.crews[k].mask1
  | .catchOfs => s.tb.crews[k].ofs
  | .ctrl => crewCtrl s k

/-- A register of an arbiter, but for its status. -/
def arbRead (x : Arb) (stat : Word) : ArbReg → Word
  | .ctrl => x.ctrl
  | .stat => stat
  | .window => x.window
  | .quota => x.quota
  | .starve => x.starve
  | .hold => x.hold
  | .flag i => wordOf x.flags.toNat i.val
  | .cut i => wordOf x.cuts.toNat i.val
  | .pri r => x.pri[r]
  | .hint r => x.hint[r]
  | .slot j => tabGet 0#16 x.slots j.val

/-- A word of a multicast entry. -/
def mcRead (e : McEnt) : McReg → Word
  | .grp => e.grp
  | .ports => e.ports
  | .loc => e.loc
  | .hits => e.hits

/-- Multicast entry k. -/
def mcEnt (s : State) (k : Nat) : McEnt := tabGet McEnt.zero s.bus.mc k

/-- Key of schedule word j of port p. -/
def schedKey (p : PortN) (j : Nat) : Nat := 64 * p.val + j

/-- TB_CTRL. -/
def tbCtrl (t : Tb) : Word :=
  orAll [atBit t.servo 0, atBit t.so 1, atFld t.lockWin 4 4, atFld t.holdMax 8 8]

/-- The black-box window of a path (R372). -/
def bbWin (b : Bb) : Path → BbWin
  | .mg => b.mgw
  | _ => b.pf

/-- What a read of a register returns to path `p`, before any latch or pop. -/
def readReg (s : State) (p : Path) : Reg → Word
  | .idPart => 0x4B17#16
  | .idRev => 0x00A1#16
  | .idUid i => idUid[i]
  | .straps => s.rst.straps
  | .gctrl => atBit s.glob.cfgLoad 1
  | .gstat => gstat s
  | .rstCause => s.rst.cause
  | .clkPlan => s.clk.plan
  | .clkStat => clkStat s.clk
  | .intSum => intSum s
  | .nodeAddr => s.bus.node
  | .localAddr => s.bus.loc
  | .busStat => busStat s.bus
  | .reglock => regLock s.glob
  | .scratch => s.glob.scratch
  | .pmCtrl => s.pm.ctrl
  | .pmStat => pmStat s
  | .featherIdle => s.pm.featherIdle
  | .stowIdle => s.pm.stowIdle
  | .retSel => s.pm.retSel
  | .wakeEn => s.pm.wakeEn
  | .wakePol => s.pm.wakePol
  | .wakeEdge => s.pm.wakeEdge
  | .wakeMode => s.pm.wakeMode
  | .wakeCause => s.pm.wakeCause
  | .wakeTime i => wordOf s.pm.wakeTime i.val
  | .kregCtrl => s.pm.kregCtrl
  | .kregStat => kregStat s.pm
  | .pwrSeq => s.pm.pwrSeq
  | .wdtCtrl => wdtCtrl s.wdt
  | .wdtPeriod => s.wdt.period
  | .wdtWindow => s.wdt.window
  | .wdtGrace => s.wdt.graceReg
  | .wdtService => 0#16
  | .wdtKey => 0#16
  | .wdtStat => wdtStat s.wdt
  | .wdtCount => w16 s.wdt.count
  | .bbCtrl => s.bb.ctrl ||| atBit (s.bb.flush.any fun f => f.cause = .test) 8
  | .bbStat => bbStat s.bb
  | .bbTrig0 => s.bb.trig0
  | .bbTrig1 => s.bb.trig1
  | .bbPost => s.bb.post
  | .bbHead => bbHead s.bb
  | .bbIndex => (bbWin s.bb p).index
  | .bbData i => (bbWin s.bb p).data[i]
  | .bbFlash i => if i = 0 then s.bb.flash0 else s.bb.flash1
  | .bbFlashStat => bbFlashStat s.bb
  | .flCtrl => 0#16
  | .flStat => flStat s
  | .tbCtrl => tbCtrl s.tb
  | .tbStat => tbStat s
  | .tbTime i => if i = 0 then wordOf (now s) 0 else wordOf s.tb.latch[latchOf p].hi (i.val - 1)
  | .tbStroke i => wordOf s.tb.latch[latchOf p].stroke i.val
  | .tbPeriod => atFld s.tb.len 0 2 ||| atBit s.tb.valid 2
  | .tbOffset i => wordOf s.tb.offset.toNat i.val
  | .tbHopdly i => wordOf s.tb.hop.toNat i.val
  | .tbResid => w16 s.tb.resid
  | .tbSlew => w16 s.tb.slew
  | .tbSynt => s.tb.synt
  | .catchPin i => s.tb.pins[i]
  | .prestroke => w16 s.tb.prestroke
  | .crew k r => crewRead s k r
  | .arb .hma r => arbRead s.hma.arb (hmaStat s.hma) r
  | .arb .ula r => arbRead s.ula.arb (ulaStat s) r
  | .ulaPreempt => ulaPreempt s.ula
  | .qCtrl => atFld s.que.injQ 8 8
  | .qErr i => if i = 0 then s.que.err0 else s.que.err1
  | .qErrCnt => w16 s.que.errCnt
  | .qLast => s.que.last
  | .evfCtrl => s.que.evfCtrl
  | .evfStat => evfStat s.que
  | .evfData i => s.que.evfData[i]
  | .port n r => portRead s n r
  | .pps m r => ppsRead s m r
  | .ppsBudget => w16 s.ppsg.budget
  | .ppsGranted => w16 (granted s.pps)
  | .ppsGang => s.ppsg.gang
  | .ppsGstat => ppsGstat s
  | .mtrCtrl => atBit s.mtr.rdyEv 0
  | .mtrStat => mtrStat s
  | .mtrSnap => mtrSnap s.mtr
  | .mtrSeq => s.mtr.seq
  | .mtrTemp => s.mtr.temp
  | .mtrVlink => s.mtr.vlink
  | .mtr m r => mtrRead s.mtr.ports[m] r
  | .ttCtrl => atBit s.tt.en 0
  | .ttStat => ttStat s
  | .ttFree => ttFree s
  | .ttHwm => ttHwm s.tt
  | .ttErr => ttErr s.tt
  | .ttTmo => w16 s.tt.tmo
  | .lnCtrl => atBit s.ln.en 0
  | .lnStat => lnStat s
  | .lnUid i => s.ln.uid[i]
  | .lnClass => s.ln.cls
  | .ep k r => epRead s k r
  | .dom d r => domRead s d r
  | .mc k r => mcRead (mcEnt s k.val) r
  | .sched p j => tabGet 0#16 s.bus.sched (schedKey p j.val)

end Sys2Proof.Machine
end

