-- ==== Sys2Proof/Machine/Crc.lean ====
section
/-! DEFINITION. The three cyclic checks of the bus: HCHK (R79), the CRC-16 of R57 and the CRC-32
of R80.  All run most-significant bit first and reflect nothing. -/

namespace Sys2Proof.Machine

open Sys2Proof

/-- One bit of a most-significant-bit-first CRC of width `n` with polynomial `poly`. -/
def crcBit (n poly : Nat) (acc : Nat) (b : Bool) : Nat :=
  let top := (acc / 2 ^ (n - 1)) % 2 == 1
  let sh := (acc * 2) % 2 ^ n
  if top != b then Nat.xor sh poly else sh

/-- One byte, most significant bit first. -/
def crcByte (n poly : Nat) (acc : Nat) (byte : Nat) : Nat :=
  [7, 6, 5, 4, 3, 2, 1, 0].foldl (fun a i => crcBit n poly a (byte.testBit i)) acc

/-- A list of bytes. -/
def crcBytes (n poly init : Nat) (bytes : List Nat) : Nat := bytes.foldl (crcByte n poly) init

/-- The bytes of words, most significant byte first. -/
def bytesBE (ws : List Word) : List Nat := ws.flatMap fun w => [w.toNat / 256, w.toNat % 256]

/-- Words as they lie in host memory, little-endian (R211). -/
def hostBytes (ws : List Word) : List Nat := ws.flatMap bytesLE

/-- HCHK: x^8 + x^2 + x + 1, initial value 0x00, the result XORed with 0x55 (R79). -/
def hchk (bytes : List Nat) : Nat := Nat.xor (crcBytes 8 0x07 0x00 bytes) 0x55

/-- The check word of R57: x^16 + x^12 + x^5 + 1, initial value 0xFFFF, no final XOR. -/
def crc16 (ws : List Word) : Word := BitVec.ofNat 16 (crcBytes 16 0x1021 0xFFFF (bytesBE ws))

/-- The trailer of R80: 0x04C1_1DB7, initial value 0xFFFF_FFFF, the result complemented. -/
def crc32 (bytes : List Nat) : Nat := Nat.xor (crcBytes 32 0x04C11DB7 0xFFFFFFFF bytes) 0xFFFFFFFF

/-- The two trailer words of a payload: CRC[31:16], then CRC[15:0] (R80). -/
def trailerOf (payload : List Word) : Word × Word :=
  let c := if payload.isEmpty then 0 else crc32 (bytesBE payload)
  (wordOf c 1, wordOf c 0)

/-- The check word of a training set: over 0x00pp, argument 0 and argument 1 (R62). -/
def trainCheck (kind : Nat) (a0 a1 : Word) : Word := crc16 [w16 kind, a0, a1]

end Sys2Proof.Machine
end

