-- ==== Sys2Proof/Machine/Ops.lean ====
section
/-! DEFINITION. The operations that every family shares: putting something out, changing one
element of the state, storing black-box entries, raising events, and the outcome of a command. -/

namespace Sys2Proof.Machine

open Sys2Proof

/-- The outcome type of a command. -/
abbrev Outcome := Host.Outcome State Fault Refusal

/-- Carry out `f` when `g` holds; leave the state alone otherwise. -/
def whenDo (g : Bool) (f : State → State) (s : State) : State := if g then f s else s

/-- A command of the Link die: it acts while the Link die runs (R19, R334). -/
def onLink (s : State) (f : State → State) : Outcome := .next (whenDo (linkOn s) f s)

/-- A command of the Power die: it acts while VSYS is above POR and RESET_N is high. -/
def onPower (s : State) (f : State → State) : Outcome := .next (whenDo (powerOn s) f s)

/-- Put something out. -/
def emit (s : State) (o : Out) : State := { s with out := o :: s.out }

/-- Put out a list, the first element first. -/
def emits (s : State) (os : List Out) : State := { s with out := os.reverse ++ s.out }

/-- Take a number for a free value. -/
def bump (s : State) : State := { s with fresh := s.fresh + 1 }

/-! ## One element of the state -/

/-- Change port n. -/
def modPort (s : State) (n : PortN) (f : Port → Port) : State :=
  { s with ports := vMod s.ports n f }

/-- Change the AON part of port n. -/
def modAon (s : State) (n : PortN) (f : AonPort → AonPort) : State :=
  { s with aon := { s.aon with ports := vMod s.aon.ports n f } }

/-- Change the switch of Dm. -/
def modPps (s : State) (m : DnN) (f : Pps → Pps) : State := { s with pps := vMod s.pps m f }

/-- Change domain d. -/
def modDom (s : State) (d : DomN) (f : Dom → Dom) : State := { s with doms := vMod s.doms d f }

/-- Change endpoint k. -/
def modEp (s : State) (k : EpN) (f : Ep → Ep) : State :=
  { s with ln := { s.ln with eps := vMod s.ln.eps k f } }

/-- Change function d. -/
def modFn (s : State) (d : DomN) (f : Fn → Fn) : State :=
  { s with pcie := { s.pcie with fns := vMod s.pcie.fns d f } }

/-- Change crew k. -/
def modCrew (s : State) (k : CrewN) (f : Crew → Crew) : State :=
  { s with tb := { s.tb with crews := vMod s.tb.crews k f } }

/-- Change TT slot j. -/
def modSlot (s : State) (j : Fin 48) (f : Option Slot → Option Slot) : State :=
  { s with tt := { s.tt with slots := vMod s.tt.slots j f } }

/-! ## Black box (R367 to R370) -/

/-- The entry is a trigger (R370). -/
def isTrigger (b : Bb) (e : Entry) : Bool :=
  let code := e[0].toNat % 256
  bit b.trig0 (code / 16) || (bit b.trig1 15 && fld b.trig1 0 8 == code)

/-- Freeze once BB_POST.N further entries follow the trigger (R370). -/
def bbFreeze (b : Bb) : Bb :=
  { b with frozen := b.frozen || (bit b.ctrl 1 && b.trig && fld b.post 0 8 ≤ b.after) }

/-- Store an entry that has reached B0 (R368, R369, R370). -/
def bbStore (b : Bb) (e : Entry) : Bb :=
  if !bit b.ctrl 0 then b
  else if b.frozen then { b with lost := satInc 31 b.lost }
  else
    let first := isTrigger b e && !b.trig
    bbFreeze { b with
      slots := tabSet Entry.zero b.slots b.head e
      head := (b.head + 1) % 256
      count := satInc 256 b.count
      trig := b.trig || first
      trigSlot := if first then b.head else b.trigSlot
      after := if first then 0 else if b.trig then b.after + 1 else b.after }

/-- A Power die block writes an entry straight into B0, with AON time (R367). -/
def bbPow (s : State) (code src : Nat) (w2 w3 : Word) : State :=
  { s with bb := bbStore s.bb (mkEntry code src w2 w3 true s.aon.time) }

/-- The black-box write FIFO takes an entry, or drops and counts it when full (R369). -/
def bbfPush (q : Que) (e : Entry) : Que :=
  if q.bbf.length < 16 then { q with bbf := q.bbf ++ [e] }
  else { q with bbfLost := q.bbfLost + 1 }

/-- A Link die block offers an entry with TB_TIME to the black-box write FIFO (R368, R369). -/
def bbLink (s : State) (code src : Nat) (w2 w3 : Word) : State :=
  { s with
    que := if s.que.bbf.length < 16 || bit s.bb.ctrl 0 then bbfPush s.que (mkEntry code src w2 w3 false (now s))
      else s.que
    bb := if s.que.bbf.length < 16 || !bit s.bb.ctrl 0 then s.bb
      else { s.bb with lost := satInc 31 s.bb.lost } }

/-- Entries dropped from a full FIFO are reported once it has room (R369). -/
def bbReport (s : State) : State :=
  if s.que.bbfLost = 0 || 16 ≤ s.que.bbf.length then s
  else { s with que :=
    { bbfPush s.que (mkEntry 0x85 0 (w16 s.que.bbfLost) 0#16 false (now s)) with bbfLost := 0 } }

/-! ## Events (R201, R222, R224, R282) -/

/-- The event group of a code (R201); EV_RESYNC_DONE and unlisted codes have none. -/
def evGroup (code : Nat) : Option Nat :=
  match code with
  | 0x01 => some 0
  | 0x02 => some 1
  | 0x03 => some 2
  | 0x04 => some 3
  | 0x05 => some 3
  | 0x06 => some 4
  | 0x07 => some 5
  | 0x08 => some 5
  | 0x09 => some 5
  | 0x0A => some 6
  | 0x0B => some 6
  | 0x0C => some 7
  | 0x0D => some 7
  | 0x0F => some 8
  | 0x10 => some 9
  | 0x11 => some 9
  | 0x12 => some 9
  | 0x13 => some 10
  | 0x14 => some 11
  | 0x15 => some 11
  | _ => none

/-- TB_TIME bits [25:10], as W6 and W3 of an event carry them (R222, R282). -/
def evTime (ticks : Nat) : Word := BitVec.ofNat 16 (ticks / 1024)

/-- EV_XFER and EV_CMD wait without a bound; the other events use the backlog (R224). -/
def waitsFree (code : Nat) : Bool := code == 0x01 || code == 0x02

/-- The number of the 32 backlog places in use: events other than EV_XFER and EV_CMD that the ring
has no room for (R224). -/
def backlog (room : Nat) (x : Dom) : Nat :=
  ((x.evq.drop room).filter fun e => !waitsFree e.ev.code).length

/-- Raise an event to a domain: SEQ is used whether or not it is kept (R222, R224). -/
def domRaise (room : Nat) (ticks : Nat) (force : Bool) (e : Ev) (x : Dom) : Dom :=
  let keep := waitsFree e.code || x.evq.length < room || backlog room x < 32
  { x with
    evSeq := (x.evSeq + 1) % 32768
    evq := if keep then x.evq ++ [{ ev := e, time := evTime ticks, seq := x.evSeq, force := force }]
      else x.evq
    evLost := if keep then x.evLost else satInc 255 x.evLost }

/-- Ring places that queued events of domain d may take now. -/
def evRoom (s : State) (d : DomN) : Nat := if evtWritable s d then evtFree s.doms[d] else 0

/-- Offer an event once to the management event FIFO (R282, R285). -/
def evfOffer (ticks : Nat) (e : Ev) (q : Que) : Que :=
  match evGroup e.code with
  | none => q
  | some g =>
    if !bit q.evfCtrl g then q
    else if q.evf.length < 128 then
      { q with evf := q.evf ++ [#v[w16 (e.code + 256 * (e.src % 256)), e.w1, e.w2, evTime ticks]] }
    else { q with evfLost := satInc 31 q.evfLost }

/-- The domain that an arbiter's requester serves, if it serves one (R276). -/
def reqDom (hma : Bool) (r : Nat) : Option Nat :=
  if hma then (if r < 16 then some (r % 8) else none)
  else if 20 ≤ r then some (r - 20) else none

/-- Which domains an event code is raised to (Event codes). The codes that name one domain are
raised by `raiseDom`. -/
def evFor (e : Ev) (d : DomN) (x : Dom) : Bool :=
  domOn x && (match e.code with
    | 0x04 => bit x.rights 0
    | 0x05 => bit x.rights 0
    | 0x06 => bit x.rights 2
    | 0x0A => d = 0 || reqDom (e.w1 = 0#16) e.src == some d.val
    | 0x0B => d = 0 || reqDom (e.w1 = 0#16) e.src == some d.val
    | 0x0C => d = 0
    | 0x0D => d = 0
    | 0x0F => d = 0 && (x.st = .run || x.st = .fault)
    | _ => true)

/-- PME: the first event raised to a function in D3hot with PME_En = 1 sets PME_Status (R208). -/
def pmeHit (s : State) (hit : DomN → Bool) : DomN → Bool := fun d =>
  hit d && s.pcie.fns[d].d3 && s.aon.pmeEn[d] && !s.aon.pmeStat[d]

/-- PE_WAKE_N is driven when PME_Status is set and the link is neither in L0 nor in L1 (R208). -/
def wakeNow (s : State) : Bool := s.pcie.link = .down

/-- PE_WAKE_N is driven low while PME_Status = 1 in any function and the link is down (R208). -/
def drivePeWake (s : State) : State :=
  { s with aon := { s.aon with
    peWake := s.aon.peWake || (epStrap s && s.pcie.link = .down && s.aon.pmeStat.toList.any id) } }

/-- Raise an event to the domains that `hit` names and to the management event FIFO, stamped
`ticks`. -/
def raiseTo (s : State) (hit : DomN → Bool) (force : Bool) (ticks : Nat) (e : Ev) : State :=
  { s with
    doms := Vector.ofFn fun d =>
      if hit d then domRaise (evRoom s d) ticks force e s.doms[d] else s.doms[d]
    que := evfOffer ticks e s.que
    aon := { s.aon with
      pmeStat := Vector.ofFn fun d => s.aon.pmeStat[d] || pmeHit s hit d
      pmeDue := Vector.ofFn fun d => s.aon.pmeDue[d] || (s.pcie.link != .l0 && pmeHit s hit d)
      peWake := s.aon.peWake || (wakeNow s && domAll.any (pmeHit s hit)) }
    out := (if s.pcie.link = .l0 then (domAll.filter (pmeHit s hit)).map Out.pme else []) ++ s.out }

/-- The crossing queue takes an event with its AON stamp, or drops and counts it (R17). -/
def xqPush (a : Aon) (e : Ev) : Aon :=
  if a.xq.length < 64 then { a with xq := a.xq ++ [{ ev := e, stamp := a.time }] }
  else { a with xqDrop := a.xqDrop + 1 }

/-- Raise an event whose code decides who receives it (Event codes).  While the Link die does not
run, an event of the Power die waits in the crossing queue (R17, R339). -/
def raise (s : State) (e : Ev) : State :=
  if linkOn s then raiseTo s (fun d => evFor e d s.doms[d]) false (now s) e
  else { s with aon := xqPush s.aon e }

/-- Raise an event to one domain (EV_XFER, EV_CMD, EV_RESYNC_DONE). -/
def raiseDom (s : State) (d : DomN) (force : Bool) (e : Ev) : State :=
  raiseTo s (fun x => x = d && domOn s.doms[d]) force (now s) e

/-- Set PORT_EVT bits; any bit that becomes 1 raises EV_PORT_CHANGE (PORT_EVT). -/
def portEvt (s : State) (n : PortN) (bits : Word) : State :=
  let new := bits &&& ~~~ s.ports[n].evt
  let s' := modPort s n fun p => { p with evt := p.evt ||| bits }
  if new = 0#16 then s'
  else raise s' { code := 0x03, src := n.val, w1 := new, w2 := portStat s' n }

/-! ## The metering sequencer (R319 to R322) -/

/-- A frame begins at slot 0: the bias checks requested before it are due in it (R320). -/
def newFrame (s : State) : State :=
  { s with
    mtr := { s.mtr with frame := s.mtr.frame + 1, slot := 0 }
    pps := s.pps.map fun p => { p with chkDue := p.chkDue || p.chkReq, chkReq := false } }

/-- The sequencer stops: MTR_STAT.GAP is set, and it starts again at slot 0 of a new frame (R322). -/
def meterStop (s : State) : State := newFrame { s with mtr := { s.mtr with gap := true } }

/-! ## Folding an operation over a list -/

/-- Carry out `f` for each element in turn. -/
def forEach {α : Type} (l : List α) (f : State → α → State) (s : State) : State := l.foldl f s

end Sys2Proof.Machine
end

