-- ==== Sys2Proof/Machine/HostQueue.lean ====
section
/-! DEFINITION. The requests at the host-memory arbiter: what each requester asks for, the PCIe requests
that a move is cut into, the entries of an event ring, and the queues (R189, R191, R208, R220 to R224,
R240, R241, R259). -/

namespace Sys2Proof.Machine

open Sys2Proof

/-! ## Endpoint memory -/

/-- Read `n` bytes of endpoint memory from address `a`. -/
def memRead (mem : List Host.Cell) (a n : Nat) : List Nat :=
  (List.range n).map fun i => (tabGet 0#8 mem (a + i)).toNat

/-- Write bytes into endpoint memory from address `a`. -/
def memWrite (mem : List Host.Cell) (a : Nat) (bs : List Nat) : List Host.Cell :=
  tabSetRange 0#8 mem a (bs.map fun b => BitVec.ofNat 8 b)

/-- Byte address of an endpoint's buffer (R228). -/
def bufAddr (e : Ep) : Nat := e.buf * 64

/-! ## Descriptors and their fetches (R219 to R221) -/

/-- OP of a transfer descriptor (R220): 1 RECV, 2 SEND, 3 STATUS_OK, 4 STATUS_STALL. -/
def descOp (d : Desc) : Nat := fld d.w[5] 0 4

/-- LEN of a transfer descriptor. -/
def descLen (d : Desc) : Nat := d.w[4].toNat

/-- Host buffer address of a transfer descriptor. -/
def descAddr (d : Desc) : Nat := ofWords [d.w[0], d.w[1], d.w[2], d.w[3]]

/-- The descriptors that have been fetched and have not completed, oldest first: those of PINDs on their
way, and the rest (R256). -/
def fetched (e : Ep) : List Desc := e.flight.map (·.1) ++ e.descs

/-- Entries of an endpoint's transfer ring. -/
def ringEntries (e : Ep) : Nat := ringLen e.ringSize

/-- Host address of the entry at count `c` of a ring. -/
def slotAddr (base size : Nat) (c : Word) : Nat := base + (c.toNat % size) * 16

/-- Entries that one read fetches from count `c` on: up to `lim`, to the end of the ring and of the 4 KiB
(R189). -/
def fetchLen (lim base size : Nat) (c : Word) : Nat :=
  min lim (min (size - c.toNat % size) ((4096 - slotAddr base size c % 4096) / 16))

/-- Command descriptors that one read fetches: up to 8 (R219). -/
def cmdFetchLen (x : Dom) : Nat :=
  fetchLen (min 8 (x.cmdPi - x.cmdNext).toNat) x.cmdBase (cmdSize x) x.cmdNext

/-- Transfer descriptors that one read fetches: up to two ahead (R221). -/
def descFetchLen (e : Ep) : Nat :=
  fetchLen (min (2 - (fetched e).length) (e.pi - e.next).toNat) e.ringBase (ringEntries e) e.next

/-- The endpoint's ring is running for its owner (R214, R221), on an endpoint and a node that are
enabled (R226, R228). -/
def ringRuns (s : State) (k : EpN) : Bool :=
  let e := s.ln.eps[k]
  e.ring && !e.ringErr && e.en && s.ln.en && s.doms[e.owner].st = .run

/-- A move of endpoint k that has begun may go on: in RUN, in EASY, and in FAULT if it writes (R244,
R251). -/
def ringLive (s : State) (k : EpN) : Bool :=
  let e := s.ln.eps[k]
  let st := s.doms[e.owner].st
  e.ring && !e.ringErr && (st = .run || st = .fault || (st = .easy && (e.moved != 0 || s.hma.cur = some (.drain e.owner k))))

/-- The SEND at the head of endpoint k's ring wants its data. -/
def sendWanted (s : State) (k : EpN) : Bool :=
  let e := s.ln.eps[k]
  !e.full && (e.descs.head?).any (fun x => descOp x = 2 && e.asked < descLen x) &&
    (ringRuns s k || (e.asked != 0 && e.ring && !e.ringErr &&
      (s.doms[e.owner].st = .easy || s.doms[e.owner].st = .fault)))

/-- The data in endpoint k's buffer is to be drained into the RECV at the head of its ring. -/
def drainWanted (s : State) (k : EpN) : Bool :=
  let e := s.ln.eps[k]
  e.full && !e.inData && !e.drained && (e.descs.head?).any (fun x => descOp x = 1) && ringLive s k

/-! ## PCIe requests (R189) -/

/-- Length of the first of the requests that carry `n` bytes from `addr`: none crosses 4 KiB or is
longer than `lim` (R189). -/
def pieceLen (lim addr n : Nat) : Nat := min n (min lim (4096 - addr % 4096))

/-- Cut a host access into requests of at most `lim` bytes (R189). -/
def pieces (lim : Nat) : Nat → Nat → Nat → List (Nat × Nat)
  | 0, _, _ => []
  | fuel + 1, addr, n =>
    if n = 0 then []
    else (addr, pieceLen lim addr n) :: pieces lim fuel (addr + pieceLen lim addr n) (n - pieceLen lim addr n)

/-- Bytes that a Max_Payload_Size or Max_Read_Request_Size code stands for. -/
def sizeOfCode (c : Nat) : Nat := 128 * 2 ^ c

/-- Longest memory write: Max_Payload_Size, and at most 256 bytes (R189). -/
def maxWrite (s : State) : Nat := min 256 (sizeOfCode s.pcie.fns[0].mps)

/-- Longest memory read: Max_Read_Request_Size, and at most 512 bytes (R189). -/
def maxRead (s : State) : Nat := min 512 (sizeOfCode s.pcie.fns[0].mrrs)

/-- The memory writes that carry `bytes` to `addr` for function d. -/
def hostWrites (s : State) (d : DomN) (addr : Nat) (bytes : List Nat) : List Out :=
  (pieces (maxWrite s) bytes.length addr bytes.length).map fun x =>
    .hostWrite d x.1 ((bytes.drop (x.1 - addr)).take x.2)

/-- The PM_PME messages that waited for the link go out (R208). -/
def sendPmes (s : State) : State :=
  emits { s with aon := { s.aon with pmeDue := Vector.replicate 8 false } }
    ((domAll.filter fun d => s.aon.pmeDue[d]).map Out.pme)

/-- Something is due to be sent: a link in L1 leaves it for L0 (R191). -/
def leaveL1 (s : State) : State :=
  if s.pcie.link = .l1 then sendPmes { s with pcie := { s.pcie with link := .l0, clkReqHi := false } } else s

/-- Put something out on PCIe. -/
def toHost (s : State) (o : Out) : State := emit (leaveL1 s) o

/-! ## Event entries (R212, R222 to R224, R251) -/

/-- GEN of the entry at producer count `p` (R222). -/
def genOf (x : Dom) (p : Word) : Bool := (p.toNat / evtSize x + 1) % 2 = 1

/-- The eight words of an entry at producer count `p` (R222). -/
def entryOf (x : Dom) (p : Word) (q : EvQ) : List Word :=
  [w16 (q.ev.code + 256 * (q.ev.src % 256)), q.ev.w1, q.ev.w2, q.ev.w3, q.ev.w4, q.ev.w5, q.time,
   atFld q.seq 0 15 ||| atBit (genOf x p) 15]

/-- Host address of the entry at producer count `p` (R211, R212). -/
def entryAddr (x : Dom) (p : Word) : Nat := slotAddr x.evtBase (evtSize x) p

/-- The entry that the domain writes next, and what is left: the oldest in RUN and FAULT; in EASY an entry
that is part-written, and the EV_CMD of the command that was in progress (R224, R251). -/
def pickEntry (x : Dom) : Option (EvQ × List EvQ) :=
  if evtFree x = 0 then none
  else match x.st with
    | .run => x.evq.head?.map fun q => (q, x.evq.drop 1)
    | .fault => x.evq.head?.map fun q => (q, x.evq.drop 1)
    | .easy => (x.evq.find? fun q => q.force).map fun q => (q, x.evq.eraseP fun q => q.force)
    | _ => none

/-- Entries that domain d may write now. -/
def evDue (s : State) (d : DomN) : Nat :=
  let x := s.doms[d]
  if !fnLive s d then 0
  else match x.st with
    | .run => min x.evq.length (evtFree x)
    | .fault => min x.evq.length (evtFree x)
    | .easy => min (x.evq.filter fun q => q.force).length (evtFree x)
    | _ => 0

/-! ## What a request writes next -/

/-- One memory write of a move: its address and bytes, and whether the move ends with it. -/
structure Piece where
  addr  : Nat
  bytes : List Nat
  last  : Bool

/-- The next write of a move of `bytes` to `addr`, of which `done` bytes have been issued. -/
def pieceAt (lim addr : Nat) (bytes : List Nat) (done : Nat) : Piece :=
  let n := pieceLen lim (addr + done) (bytes.length - done)
  { addr := addr + done, bytes := (bytes.drop done).take n, last := bytes.length ≤ done + n }

/-- Bytes that a drain of endpoint e moves into the RECV at the head of its ring. -/
def drainLen (e : Ep) : Nat :=
  match e.descs with
  | x :: _ => min e.len (descLen x)
  | [] => 0

/-- The next write of a drain. -/
def drainPiece (s : State) (k : EpN) : Option Piece :=
  let e := s.ln.eps[k]
  e.descs.head?.map fun x =>
    pieceAt (maxWrite s) (descAddr x) (memRead s.ln.mem (bufAddr e) (drainLen e)) e.moved

/-- The next write of an entry: one of 16 bytes, or 12 bytes and then 4 with SPLITW (R223). -/
def entryPiece (x : Dom) : Option Piece :=
  (pickEntry x).map fun q =>
    let bs := hostBytes (entryOf x x.producer q.1)
    let a := entryAddr x x.producer
    if !bit x.evtSz 4 then { addr := a, bytes := bs, last := true }
    else if x.evPart then { addr := a + 12, bytes := bs.drop 12, last := true }
    else { addr := a, bytes := bs.take 12, last := false }

/-- The next write of a Summary Block: eight of 256 bytes, or less where R189 says so (R252). -/
def blockPiece (s : State) (x : Dom) : Piece :=
  pieceAt (min (maxWrite s) (256 - x.sumAt % 256)) x.sum (hostBytes x.block) x.sumAt

/-- The host data that a command of the domain still has to write. -/
def cmdData (x : Dom) : Option (Nat × List Nat) := x.cmdRun.bind fun r => r.data

/-- The write that request q presents. -/
def nextWrite (s : State) : HReq → Option Piece
  | .drain _ k => drainPiece s k
  | .entry d => entryPiece s.doms[d]
  | .block d => some (blockPiece s s.doms[d])
  | .data d => (cmdData s.doms[d]).map fun x => pieceAt (maxWrite s) x.1 x.2 0
  | _ => none

/-- A write of request q that is not its last has been issued. -/
def advance (s : State) (p : Piece) : HReq → State
  | .drain _ k => modEp s k fun e => { e with moved := e.moved + p.bytes.length }
  | .entry d => modDom s d fun x => { x with evPart := true }
  | .block d => modDom s d fun x => { x with sumAt := x.sumAt + p.bytes.length }
  | .data d => modDom s d fun x =>
    { x with cmdRun := x.cmdRun.map fun r =>
      { r with data := r.data.map fun y => (y.1 + p.bytes.length, y.2.drop p.bytes.length) } }
  | _ => s

/-- The domain that a request belongs to. -/
def domOf : HReq → DomN
  | .read d _ => d
  | .watch d _ => d
  | .drain d _ => d
  | .entry d => d
  | .msg d _ => d
  | .block d => d
  | .data d => d

/-- Issue a write of request q. -/
def putWrite (s : State) (q : HReq) (p : Piece) : State := toHost s (.hostWrite (domOf q) p.addr p.bytes)

/-! ## The queues (R221, R240, R259, R278) -/

/-- The queue of HMA requester r. -/
def queueOf (s : State) (r : Nat) : List HReq := vAt s.hma.reqs [] r

/-- Replace the queue of requester r. -/
def setQueue (s : State) (r : Nat) (l : List HReq) : State :=
  { s with hma := { s.hma with reqs := s.hma.reqs.setIfInBounds r l } }

/-- The request is still to be carried out. -/
def wanted (s : State) : HReq → Bool
  | .read d .commands =>
    let x := s.doms[d]
    x.st = .run && x.cmdRing = .running && x.cmdQ.isEmpty && x.cmdPi != x.cmdNext
  | .read d (.descriptor k) =>
    let e := s.ln.eps[k]
    e.owner = d && ringRuns s k && (fetched e).length < 2 && e.next != e.pi
  | .read d (.sendData k) => s.ln.eps[k].owner = d && sendWanted s k
  | .read _ .page => false
  | .watch d _ => s.doms[d].st = .run
  | .drain d k => s.ln.eps[k].owner = d && drainWanted s k && drainLen s.ln.eps[k] != 0
  | .entry d => evDue s d != 0
  | .msg _ _ => true
  | .block d => s.doms[d].st = .summary
  | .data d => (cmdData s.doms[d]).isSome

/-- The eight places of requester r's queue are taken: a granted request keeps its place until it has been
issued to its end, so that a cut-off can put it back (R240, R268). -/
def queueFull (s : State) (r : Nat) : Bool :=
  8 ≤ (queueOf s r).length + if s.hma.arb.holder = some r then 1 else 0

/-- One place of the IN engine's queue of domain d is taken: by a message that is due, else by an entry
(R202, R240). -/
def feedOne (s : State) (d : DomN) : State :=
  let r := 8 + d.val
  let l := queueOf s r
  let cur := if s.hma.cur = some (.entry d) then 1 else 0
  if queueFull s r then s
  else match s.doms[d].msgs with
    | v :: t => setQueue (modDom s d fun x => { x with msgs := t }) r (l ++ [.msg d v])
    | [] =>
      if (l.filter fun q => q = .entry d).length + cur < evDue s d then setQueue s r (l ++ [.entry d]) else s

/-- The domain of an engine's requester. -/
def engineDom (r : Nat) : DomN := ⟨r % 8, Nat.mod_lt _ (by decide)⟩

/-- The queue of requester r as it stands: requests that nobody wants any longer are gone, and an IN engine
has presented the messages and entries that are due, as far as its eight places go. -/
def tidy (s : State) (r : Nat) : State :=
  let s1 := setQueue s r ((queueOf s r).filter (wanted s))
  if 8 ≤ r && r < 16 then forEach (List.range 8) (fun a _ => feedOne a (engineDom r)) s1 else s1

/-- Present a request to the HMA, once; a full queue of 8 stalls the requester (R221, R240). -/
def hmaAsk (s : State) (r : Nat) (q : HReq) : State :=
  let s1 := tidy s r
  let l := queueOf s1 r
  if l.contains q || s1.hma.cur = some q || queueFull s1 r then s1 else setQueue s1 r (l ++ [q])

/-- A message of vector v of domain d is due (R202). -/
def dueMsg (s : State) (d : DomN) (v : Nat) : State := modDom s d fun x => { x with msgs := x.msgs ++ [v] }

/-- The granted request of requester r has been issued to its end, or is gone (R270). -/
def hmaDone (s : State) (r : Nat) : State :=
  if s.hma.arb.holder = some r then
    { s with hma := { s.hma with cur := none, arb := { s.hma.arb with holder := none } } }
  else s

/-- Requester r holds the path with request q, which has not been issued to its end. -/
def holdPath (s : State) (r : Nat) (q : HReq) : State :=
  { s with hma := { s.hma with cur := some q, arb := { s.hma.arb with holder := some r } } }

/-- Requester 19 has a request: no decision is taken and the holder is set aside (R270). -/
def emergency (s : State) : Bool := s.wdt.save = 1

/-- Request q has been granted and may be issued: it is not set aside (R270). -/
def pathHeld (s : State) (q : HReq) : Bool := s.hma.cur = some q && s.hma.arb.holder.isSome && !emergency s

/-- The last write of the granted request q goes out, and the path is free. -/
def issueLast (s : State) (r : Nat) (q : HReq) : State :=
  hmaDone (match nextWrite s q with
    | some p => putWrite s q p
    | none => s) r

/-- The granted request q comes to its end although its owner goes: its write is issued, or is kept as it stands
until requester 19 lets the path go on (R246, R270). -/
def endGrant (s : State) (r : Nat) (q : HReq) : State :=
  match emergency s, nextWrite s q with
  | true, some p => { s with hma := { s.hma with cur := none, left := some (domOf q, p.addr, p.bytes) } }
  | _, _ => issueLast s r q

/-- A write of domain d that has been granted is issued, and the path is free (R189, R246). -/
def issueGranted (s : State) (d : DomN) : State :=
  match s.hma.arb.holder, s.hma.cur with
  | some r, some q => if 8 ≤ r && r != 16 && domOf q = d then endGrant s r q else s
  | _, _ => s

/-- The drain of endpoint k that has been granted is withdrawn: its buffer empties by something else (R232,
R236, R237). -/
def cutDrain (s : State) (k : EpN) : State :=
  let o := s.ln.eps[k].owner
  if s.hma.cur = some (.drain o k) then hmaDone s (8 + o.val) else s

/-- A read of host memory is under way: outstanding. -/
def readDue (s : State) (d : DomN) (u : ReadUse) : Bool :=
  s.pcie.reads.any fun x => x.dom = d && x.use = u

/-- Reads of HMA requester d that are outstanding. -/
def outReads (s : State) (d : DomN) : Nat :=
  (s.pcie.reads.filter fun r => r.dom = d && r.use != .page).length

/-- Ask for a read of host memory, unless it is under way. -/
def askRead (s : State) (r : Nat) (d : DomN) (u : ReadUse) : State :=
  if readDue s d u then s else hmaAsk s r (.read d u)

end Sys2Proof.Machine
end

