-- ==== Sys2Proof/Machine/Coding.lean ====
section
/-! DEFINITION. The line codes of a port: Manchester half-bits at Paddle (R50), 8b/10b characters with
their running disparity above it (R51), the control symbols (R52), and the Paddle escape scheme (R53). -/

namespace Sys2Proof.Machine

open Sys2Proof

/-- A word on a link: a data word, or a control word with its parameter byte (R51, R52). -/
inductive LineWord where
  | data (w : Word)
  | ctl (k : Sym) (param : BitVec 8)
  deriving DecidableEq, Repr

/-! ## Control symbols (R52) -/

/-- All symbols. -/
def symAll : List Sym := [.sop, .eop, .eab, .idl, .skp, .crd, .stk, .pre, .rsm, .trn]

/-- The byte of a symbol's K character: Kx.y is x + 32 y. -/
def symK : Sym → Nat
  | .sop => 27 + 32 * 7
  | .eop => 29 + 32 * 7
  | .eab => 30 + 32 * 7
  | .idl => 28 + 32 * 5
  | .skp => 28 + 32 * 0
  | .crd => 28 + 32 * 2
  | .stk => 28 + 32 * 1
  | .pre => 28 + 32 * 3
  | .rsm => 28 + 32 * 6
  | .trn => 23 + 32 * 7

/-- A symbol's Paddle escape code. -/
def symEsc : Sym → Nat
  | .sop => 1
  | .eop => 2
  | .eab => 3
  | .idl => 4
  | .skp => 5
  | .crd => 6
  | .stk => 7
  | .pre => 8
  | .rsm => 9
  | .trn => 10

/-- A control word as the code gives it: a CRD with a count of 0 is a code violation (R52). -/
def ctlOf (k : Option Sym) (param : BitVec 8) : Option LineWord :=
  match k with
  | some k => if k = .crd ∧ param.toNat % 16 = 0 then none else some (.ctl k param)
  | none => none

/-! ## Paddle (R50, R53) -/

/-- The escape word. -/
def escWord : Word := 0x7E5A#16

/-- The words that carry a line word at Paddle (R53). -/
def escape : LineWord → List Word
  | .data w => if w = escWord then [escWord, 0#16] else [w]
  | .ctl k p => [escWord, BitVec.ofNat 16 (symEsc k * 256 + p.toNat)]

/-- The line word that a code word stands for, none for a code violation (R52, R53). -/
def codeWord (w : Word) : Option LineWord :=
  let code := fld w 8 8
  let param := BitVec.ofNat 8 (fld w 0 8)
  if code = 0 then (if param = 0#8 then some (.data escWord) else none)
  else ctlOf (symAll.find? fun k => symEsc k = code) param

/-- The words received at Paddle with their escapes removed, none for each code violation (R53). -/
def unescape : List Word → List (Option LineWord)
  | [] => []
  | [w] => if w = escWord then [] else [some (.data w)]
  | w :: v :: ws => if w = escWord then codeWord v :: unescape ws else some (.data w) :: unescape (v :: ws)

/-- The half-bits of a bit, the first one first: 1 is low then high (R50). -/
def halfBits (b : Bool) : List Bool := [!b, b]

/-- The half-bits of a word, most significant bit first (log entry 114). -/
def manchester (w : Word) : List Bool := (List.range 16).flatMap fun i => halfBits (w.getLsbD (15 - i))

/-- The bits that half-bits carry, none where a pair has no transition (R50). -/
def unManchester : List Bool → Option (List Bool)
  | [] => some []
  | [_] => none
  | a :: b :: l => if a = b then none else (unManchester l).map fun r => b :: r

/-- The word whose bits are `l`, most significant first. -/
def wordOfBits (l : List Bool) : Word := l.foldl (fun w b => (w <<< 1) ||| (if b then 1#16 else 0#16)) 0#16

/-- The 32 half-bits of a word, the first one in bit 31. -/
def halfList (h : BitVec 32) : List Bool := (List.range 32).map fun i => h.getLsbD (31 - i)

/-- The word that 32 half-bits carry (R50). -/
def paddleWord (h : BitVec 32) : Option Word := (unManchester (halfList h)).map wordOfBits

/-! ## 8b/10b (R51).  The code itself is the usual one of that name: log entry 115. -/

/-- The six bits abcdei of x for negative running disparity, and whether the other disparity complements
them. -/
def code6 (k : Bool) (x : Nat) : BitVec 6 × Bool :=
  if k && x == 28 then (0b001111#6, true) else
  ([(0b100111#6, true), (0b011101#6, true), (0b101101#6, true), (0b110001#6, false),
    (0b110101#6, true), (0b101001#6, false), (0b011001#6, false), (0b111000#6, true),
    (0b111001#6, true), (0b100101#6, false), (0b010101#6, false), (0b110100#6, false),
    (0b001101#6, false), (0b101100#6, false), (0b011100#6, false), (0b010111#6, true),
    (0b011011#6, true), (0b100011#6, false), (0b010011#6, false), (0b110010#6, false),
    (0b001011#6, false), (0b101010#6, false), (0b011010#6, false), (0b111010#6, true),
    (0b110011#6, true), (0b100110#6, false), (0b010110#6, false), (0b110110#6, true),
    (0b001110#6, false), (0b101110#6, true), (0b011110#6, true), (0b101011#6, true)]).getD x (0#6, false)

/-- The four bits fghj of y for negative running disparity, and whether the other disparity complements
them; `alt` selects the alternate form of D.x.7. -/
def code4 (k alt : Bool) (y : Nat) : BitVec 4 × Bool :=
  if k then
    ([(0b1011#4, true), (0b0110#4, true), (0b1010#4, true), (0b1100#4, true),
      (0b1101#4, true), (0b0101#4, true), (0b1001#4, true), (0b0111#4, true)]).getD y (0#4, false)
  else if y == 7 then (if alt then (0b0111#4, true) else (0b1110#4, true))
  else
    ([(0b1011#4, true), (0b1001#4, false), (0b0101#4, false), (0b1100#4, true),
      (0b1101#4, true), (0b1010#4, false), (0b0110#4, false)]).getD y (0#4, false)

/-- Set bits of a code. -/
def ones {n : Nat} (v : BitVec n) : Nat := popCount n v.toNat

/-- Running disparity after a block of `n` bits: positive is true (R51). -/
def nextRd {n : Nat} (rd : Bool) (v : BitVec n) : Bool :=
  if 2 * ones v = n then rd else n < 2 * ones v

/-- The alternate form of D.x.7 keeps runs short. -/
def altForm (rd : Bool) (x : Nat) : Bool :=
  if rd then x == 11 || x == 13 || x == 14 else x == 17 || x == 18 || x == 20

/-- The character of a byte, `k` for a K character, at running disparity `rd` (R51). -/
def charOf (rd k : Bool) (b : Nat) : BitVec 10 :=
  let c := code6 k (b % 32)
  let six := if rd && c.2 then ~~~ c.1 else c.1
  let rd' := nextRd rd six
  let d := code4 k (altForm rd' (b % 32)) (b / 32)
  let four := if rd' && d.2 then ~~~ d.1 else d.1
  six ++ four

/-- What a character stands for at running disparity `rd`: a K character of the table or a data byte; none
for an invalid character and for a disparity error (R51, R52). -/
def readChar (rd : Bool) (c : BitVec 10) : Option (Sym ⊕ Nat) :=
  match (List.range 256).find? fun b => charOf rd false b = c with
  | some b => some (.inr b)
  | none => (symAll.find? fun k => charOf rd true (symK k) = c).map .inl

/-- The line word that two characters carry, none for a code violation: a K character in the second place,
an invalid character, a disparity error, a CRD of count 0 (R51, R52). -/
def readChars (rd : Bool) (c1 c2 : BitVec 10) : Option LineWord :=
  match readChar rd c1, readChar (nextRd rd c1) c2 with
  | some (.inr hi), some (.inr lo) => some (.data (BitVec.ofNat 16 (hi * 256 + lo)))
  | some (.inl k), some (.inr p) => ctlOf (some k) (BitVec.ofNat 8 p)
  | _, _ => none

/-- The two characters of a line word, and the running disparity after them (R51). -/
def charsOf (rd : Bool) (w : LineWord) : BitVec 10 × BitVec 10 × Bool :=
  let p : Bool × Nat × Nat := match w with
    | .data w => (false, w.toNat / 256, w.toNat % 256)
    | .ctl k p => (true, symK k, p.toNat)
  let c1 := charOf rd p.1 p.2.1
  let rd1 := nextRd rd c1
  let c2 := charOf rd1 false p.2.2
  (c1, c2, nextRd rd1 c2)

/-- What is received is a code violation by its coding alone (R50 to R53). -/
def codeBad : RxUnit → Bool
  | .paddle esc h =>
    match paddleWord h with
    | none => true
    | some w => esc && (codeWord w).isNone
  | .chars rd c1 c2 => (readChars rd c1 c2).isNone
  | .control k p => (ctlOf (some k) p).isNone

/-! ## The pattern of a trial (R67) -/

/-- The state of the PRBS-15 generator at the start of a trial: all ones (R67). -/
def prbsSeed : BitVec 15 := 0x7FFF#15

/-- One bit of PRBS-15, x^15 + x^14 + 1: the bit sent and the next state (R67). -/
def prbsBit (x : BitVec 15) : Bool × BitVec 15 :=
  let b := x.getLsbD 14 != x.getLsbD 13
  (b, (x <<< 1) ||| (if b then 1#15 else 0#15))

/-- One word of the pattern, most significant bit first, and the next state (R67). -/
def prbsWord (x : BitVec 15) : Word × BitVec 15 :=
  (List.range 16).foldl (fun a _ =>
    let r := prbsBit a.2
    ((a.1 <<< 1) ||| (if r.1 then 1#16 else 0#16), r.2)) (0#16, x)

/-- The words of the pattern from a state of its generator (R67). -/
def prbsWords : Nat → BitVec 15 → List Word
  | 0, _ => []
  | k + 1, x => let r := prbsWord x; r.1 :: prbsWords k r.2

end Sys2Proof.Machine
end

