-- ==== Sys2Proof/Machine/Packet.lean ====
section
/-! DEFINITION. Packets and the buffers they pass through: header words and their check (R78 to
R84), credits (R60, R88), the copies of a received packet, closing them with EAB (R86, R113), the
queues of the upstream arbiter, and what a receive buffer returns. -/

namespace Sys2Proof.Machine

open Sys2Proof

/-! ## Headers -/

/-- The header that four words spell (R78). -/
def hdrOf (w0 w1 w2 w3 : Word) : Hdr where
  typ := BitVec.ofNat 4 (fld w0 12 4)
  odd := bit w0 11
  pcls := bit w0 10
  hop := BitVec.ofNat 10 (fld w0 0 10)
  addr := w1
  endp := BitVec.ofNat 5 (fld w2 11 5)
  epoch := BitVec.ofNat 4 (fld w2 7 4)
  tag := BitVec.ofNat 7 (fld w2 0 7)
  tsb := BitVec.ofNat 8 (fld w3 8 8)

/-- Header word 0. -/
def hdrW0 (h : Hdr) : Word :=
  orAll [atFld h.typ.toNat 12 4, atBit h.odd 11, atBit h.pcls 10, atFld h.hop.toNat 0 10]

/-- Header word 2. -/
def hdrW2 (h : Hdr) : Word :=
  orAll [atFld h.endp.toNat 11 5, atFld h.epoch.toNat 7 4, atFld h.tag.toNat 0 7]

/-- The seven bytes that HCHK covers (R79). -/
def hchkBytes (w0 w1 w2 : Word) (tsb : Nat) : List Nat := bytesBE [w0, w1, w2] ++ [tsb]

/-- The four words of a header, HCHK recomputed (R78, R79, R84). -/
def hdrWords (h : Hdr) : List Word :=
  let c := hchk (hchkBytes (hdrW0 h) h.addr (hdrW2 h) h.tsb.toNat)
  [hdrW0 h, h.addr, hdrW2 h, w16 (h.tsb.toNat * 256 + c)]

/-- The words of a packet between SOP and EOP (R78, R80). -/
def pktWords (p : Pkt) : List Word :=
  let t := trailerOf p.payload
  hdrWords p.hdr ++ p.payload ++ [t.1, t.2]

/-- The class that a type demands: some true for periodic, some false for non-periodic, none for
either (R82). -/
def typeClass (t : Nat) : Option Bool :=
  if t = 6 ∨ t = 7 ∨ t = 8 then some true
  else if t = 9 ∨ t = 10 ∨ t = 11 then none
  else some false

/-- The header check: HCHK matches and PCLS agrees with the type (R79, R82). -/
def hdrOk (w0 w1 w2 w3 : Word) : Bool :=
  let h := hdrOf w0 w1 w2 w3
  hchk (hchkBytes w0 w1 w2 (fld w3 8 8)) == fld w3 0 8 &&
    ((typeClass h.typ.toNat).all fun c => c == h.pcls)

/-- A POUT's CUE bit, W3[15] (R82). -/
def cueBit (h : Hdr) : Bool := h.typ = 6#4 && h.tsb.getLsbD 7

/-- The types that expect an answer (Transactions, R101). -/
def expectsAnswer (h : Hdr) : Bool :=
  let t := h.typ.toNat
  t ≤ 4 || t == 7 || t == 14 || t == 15 || ((t == 9) && !h.pcls) || t == 10

/-- The types a packet going up answers with (answer column of Transactions). -/
def isAnswerType (t : Nat) : Bool :=
  t == 1 || t == 2 || t == 5 || t == 8 || t == 9 || t == 10 || t == 11 || t == 14 || t == 15

/-- A packet is malformed (R81): `words` are its payload words. -/
def malformed (h : Hdr) (payload : List Word) : Bool :=
  (h.odd && payload.isEmpty) ||
  (h.odd && fld (payload.getLastD 0#16) 0 8 != 0) ||
  (if h.pcls then decide (512 < payload.length + 6) else decide (518 < payload.length + 6)) ||
  (cueBit h && decide (payload.length < 2))

/-- A handshake that answers a packet with header `h` (R83, R85). -/
def hshk (h : Hdr) (code : Nat) (payload : List Word) : Pkt where
  hdr := { h with typ := 11#4, odd := false, hop := 0#10, tsb := BitVec.ofNat 8 code }
  payload := payload

/-- GONE for a request, from hub `node` and port n (R83). -/
def goneOf (h : Hdr) (node : Word) (n : PortN) : Pkt := hshk h 0x05 [node, w16 n.val]

/-- The header a record would answer with (R106, R124). -/
def recHdr (r : Rec) : Hdr where
  typ := r.typ
  odd := false
  pcls := r.pcls
  hop := 0#10
  addr := r.addr
  endp := r.endp
  epoch := r.epoch
  tag := r.tag
  tsb := 0#8

/-- A packet that comes from no receive buffer: it is whole from its start (R111). -/
def ownTx (p : Pkt) (act : OnEop) : TxPkt where
  pid := 0
  ord := 0
  src := none
  pkt := p
  len := p.payload.length + 6
  done := true
  fail := none
  saf := true
  cue := none
  free := false
  act := act

/-! ## Credits (R60, R88) -/

/-- Credits that `w` words take. -/
def creditsOf (w : Nat) : Nat := (w + 31) / 32

/-- Add credits of a class; the excess above the advertisement goes to the other class (R88). -/
def addCredits (n : Bool) (k : Nat) (p : Port) : Port :=
  if n then
    let t := p.ntx + k
    { p with ntx := min 48 t, ptx := min 16 (p.ptx + (t - 48)) }
  else
    let t := p.ptx + k
    { p with ptx := min 16 t, ntx := min 48 (p.ntx + (t - 16)) }

/-- The port has the credits a packet needs (R60). -/
def hasCredits (p : Port) (t : TxPkt) : Bool :=
  if t.pkt.hdr.pcls then creditsOf t.len ≤ p.ptx else creditsOf t.len ≤ p.ntx

/-- Take the credits of a packet at its SOP (R60). -/
def takeCredits (t : TxPkt) (p : Port) : Port :=
  if t.pkt.hdr.pcls then { p with ptx := p.ptx - creditsOf t.len }
  else { p with ntx := p.ntx - creditsOf t.len }

/-- The CRD words that return `k` credits of a class, at most 15 in each (R60, R289). -/
def crdWords (n : PortN) (nonPer : Bool) (k : Nat) : List Out :=
  let base := if nonPer then 0x80 else 0
  List.replicate (k / 15) (Out.crd n (base + 15)) ++
    (if k % 15 = 0 then [] else [Out.crd n (base + k % 15)])

/-- The credits that wait on port n go out, and count as returned (R61, R182). -/
def sendCrd (s : State) (n : PortN) : State :=
  let p := s.ports[n]
  emits (modPort s n fun q =>
    { q with
      crdP := 0, crdN := 0
      retP := (q.retP + q.crdP) % 65536
      retN := (q.retN + q.crdN) % 65536 }) (crdWords n false p.crdP ++ crdWords n true p.crdN)

/-- The partner's wake time in ns, from its FWAKE; the reserved values count as 4 (R65, R180). -/
def fwakeNs (p : Port) : Nat :=
  match fld p.pcap1 0 3 with
  | 0 => 64
  | 1 => 128
  | 2 => 256
  | 3 => 512
  | _ => 1000

/-- The word time of a rate in ns; at Paddle no transmitter feathers (R49, R179). -/
def wordNs (rate : Nat) : Nat :=
  match rate with
  | 1 => 2560
  | 2 => 160
  | 3 => 40
  | _ => 10

/-- IDL words sent on waking: the partner's wake time in whole words (R180). -/
def wakeWords (p : Port) : Nat := (fwakeNs p + wordNs p.rate - 1) / wordNs p.rate

/-- A dark transmitter wakes: IDL for the partner's wake time, then what waits (R180, R182). -/
def wakeTx (s : State) (n : PortN) : State :=
  if s.ports[n].dark then
    sendCrd (emit (modPort s n fun p => { p with dark := false }) (.idl n (wakeWords s.ports[n]))) n
  else s

/-- A transmitter that may not feather is lit (R179). -/
def stayLit (s : State) (n : PortN) : State :=
  if feathers s.ports[n] s.aon.ports[n] then s else wakeTx s n

/-- Port n returns `k` credits of a class to its partner; on a dark transmitter they wait, until 8 of a
class wake it (R61, R88, R182). -/
def returnCredits (s : State) (n : PortN) (nonPer : Bool) (k : Nat) : State :=
  if k = 0 || !isUp s.ports[n] then s
  else
    let s1 := modPort s n fun p => if nonPer then { p with crdN := p.crdN + k } else { p with crdP := p.crdP + k }
    if !s.ports[n].dark then sendCrd s1 n
    else if 8 ≤ s1.ports[n].crdP || 8 ≤ s1.ports[n].crdN then wakeTx s1 n
    else s1

/-! ## Training sets between packets (R55, R61, R62) -/

/-- Port n's transmitter is between packets; on UP a suspended packet has not ended (R55, R58). -/
def txFree (s : State) (n : PortN) : Bool := s.ports[n].txCur.isNone && (n != 0 || s.ula.susp.isNone)

/-- The rate at which port n transmits: its link's, that of a trial once both ends have switched, else Paddle
(R67). -/
def txRate (s : State) (n : PortN) : Nat :=
  let p := s.ports[n]
  match p.st with
  | .active => p.rate
  | .trial => p.tryRate
  | .ralign => p.tryRate
  | _ => 1

/-- The counts that a TS_TALLY carries are those of the moment it leaves (R61). -/
def tsArgs (p : Port) (k : TsKind) (a : Word × Word) : Word × Word :=
  if k = .tally then (w16 p.retP, w16 p.retN) else a

/-- A training set leaves port n at rate `r`, waking it (R62, R182). -/
def putTsAt (s : State) (n : PortN) (r : Nat) (k : TsKind) (a0 a1 : Word) : State :=
  let s1 := wakeTx s n
  let a := tsArgs s1.ports[n] k (a0, a1)
  emit s1 (.ts n r k a.1 a.2 (trainCheck (tsCode k) a.1 a.2))

/-- A training set leaves port n at the rate at which it transmits. -/
def putTs (s : State) (n : PortN) (k : TsKind) (a0 a1 : Word) : State := putTsAt s n (txRate s n) k a0 a1

/-- Send a training set: between packets at once, else at the end of the packet (R55). -/
def sendTs (s : State) (n : PortN) (k : TsKind) (a0 a1 : Word) : State :=
  if txFree s n then putTs s n k a0 a1
  else modPort s n fun p => { p with tsDue := p.tsDue ++ [(k, a0, a1)] }

/-- Send a training set twice. -/
def sendTs2 (s : State) (n : PortN) (k : TsKind) (a0 a1 : Word) : State :=
  sendTs (sendTs s n k a0 a1) n k a0 a1

/-- Training sets that waited go out. -/
def flushTs (s : State) (n : PortN) : State :=
  forEach s.ports[n].tsDue (fun a x => putTs a n x.1 x.2.1 x.2.2) (modPort s n fun p => { p with tsDue := [] })

/-- TS_TALLYREQ goes out when it is due, the port is between packets, and 64 µs have passed since the last
(R61). -/
def tallyTry (s : State) (n : PortN) : State :=
  let p := s.ports[n]
  if p.tallyDue && p.tallyWait = 0 && isUp p && txFree s n then
    putTs (modPort s n fun q => { q with tallyDue := false, tallyWait := 25600 }) n .tallyReq 0#16 0#16
  else s

/-- Ask the partner for a tally at the next packet boundary (R61). -/
def wantTally (s : State) (n : PortN) : State :=
  if isUp s.ports[n] then tallyTry (modPort s n fun p => { p with tallyDue := true }) n else s

/-- A packet boundary on port n: what waited for it goes out (R55, R61). -/
def boundary (s : State) (n : PortN) : State := if txFree s n then tallyTry (flushTs s n) n else s

/-- The receive entry with number `pid`. -/
def findRx (p : Port) (pid : Nat) : Option RxPkt := p.rx.find? fun r => r.pid = pid

/-- The packet that port n is receiving, unless it has been discarded already. -/
def rxGood (p : Port) : Option RxPkt := (p.rxCur.bind (findRx p)).filter fun r => !r.bad

/-! ## Copies of a received packet -/

/-- Numbers of the received packets that some output still holds a copy of (R112). -/
def livePids (s : State) : List Nat :=
  (s.ports.toList.flatMap fun p => p.txq.map (·.pid) ++ (p.txCur.toList.map (·.pid))) ++
  (s.ula.reqs.toList.flatMap fun l => l.map (·.pid)) ++ (s.ula.susp.toList.map (·.1.pid))

/-- Free the receive-buffer space of every ended packet without copies and without a delivery
still to be made, and return its credits, but for one of an earlier link-up (R61, R71, R112). -/
def sweepRx (s : State) : State :=
  let live := livePids s
  let held := s.tt.slots.toList.filterMap fun o => o.bind fun x => if x.wants.isSome then x.rx else none
  let gone (r : RxPkt) : Bool := r.ended && !live.contains r.pid && !held.contains r.pid
  forEach portAll (fun a n =>
    let fr := s.ports[n].rx.filter gone
    let kP := (fr.filter fun r => r.hdr.pcls && !r.old).foldl (fun x r => x + creditsOf r.len) 0
    let kN := (fr.filter fun r => !r.hdr.pcls && !r.old).foldl (fun x r => x + creditsOf r.len) 0
    returnCredits (returnCredits (modPort a n fun p => { p with rx := p.rx.filter fun r => !gone r })
      n false kP) n true kN) s

/-- Close the packet that port n is sending with EAB (R60, R86).  `whole` says that all its words
have gone; otherwise how many have is a free value. -/
def closeEab (s : State) (n : PortN) (reason : Nat) (whole : Bool) : State :=
  match s.ports[n].txCur with
  | none => s
  | some t =>
    let w := if whole then t.len else min t.len (Config.wordsSent s.fresh)
    let s1 := modPort s n fun p =>
      addCredits (!t.pkt.hdr.pcls) (creditsOf t.len - creditsOf w) { p with txCur := none }
    let s2 := if n = 0 then
        { s1 with ula := { s1.ula with arb := { s1.ula.arb with holder := none } } } else s1
    bump (emit s2 (.eab n t.pkt w reason))

/-- Close the suspended packet of UP: RSM, its offset word, then EAB; after a failed trailer, `whole`, the
packet's remaining words come before EAB (R273). -/
def closeSusp (s : State) (reason : Nat) (whole : Bool) : State :=
  match s.ula.susp with
  | none => s
  | some (t, w) =>
    let sent := if whole then t.len else w
    emits { modPort s 0 (addCredits (!t.pkt.hdr.pcls) (creditsOf t.len - creditsOf sent)) with
      ula := { s.ula with susp := none, run := 0, arb := { s.ula.arb with aside := none } } }
      [.rsm 0 w, .eab 0 t.pkt sent reason]

/-- Everything that port n is sending is closed with EAB, a suspended packet of UP after the one in
progress. -/
def endTx (s : State) (n : PortN) (reason : Nat) : State :=
  let s1 := closeEab s n reason false
  if n = 0 then closeSusp s1 reason false else s1

/-- An answer that is lost gives the chunks it has taken back, and its slot waits on (R121). -/
def loseAnswer (pid : Nat) (o : Option Slot) : Option Slot :=
  o.map fun x => if x.rx = some pid then { x with rx := none, ansCh := 0, wants := none } else x

/-- End every copy of received packet `pid` because its input failed: a copy not started is
discarded, a copy being sent is closed with EAB, and a suspended one is closed once UP is free
(R86, R113, R273): `whole` says that its trailer has failed, so that all its words are here. -/
def stompCopies (s : State) (pid reason : Nat) (whole : Bool) : State :=
  let s0 := { s with tt := { s.tt with slots := s.tt.slots.map (loseAnswer pid) } }
  let s1 := forEach portAll (fun a n =>
    if a.ports[n].txCur.any (fun t => t.pid = pid) then boundary (closeEab a n reason whole) n else a) s0
  let s2 := { s1 with
    ports := s1.ports.map fun p => { p with txq := p.txq.filter fun t => t.pid != pid }
    ula := { s1.ula with
      reqs := s1.ula.reqs.map fun l => l.filter fun t => t.pid != pid
      susp := s1.ula.susp.map fun x =>
        if x.1.pid = pid then ({ x.1 with fail := some reason, done := whole }, x.2) else x } }
  if s2.ports[0].txCur.isNone && s2.ula.susp.any (fun x => x.1.pid = pid)
  then boundary (closeSusp s2 reason whole) 0 else s2

/-- The packet `pid` that port n is receiving is discarded before its end: its copies end now, the rest of
its words is discarded as it arrives, and its credits come back at its end (R58, R59, R74, R86, R88). -/
def spoilRx (s : State) (n : PortN) (pid reason : Nat) : State :=
  modPort (stompCopies s pid reason false) n fun p =>
    { p with
      rx := p.rx.map fun r => if r.pid = pid then { r with bad := true, dest := [] } else r
      rxCur := some pid
      rxSusp := if p.rxSusp = some pid then none else p.rxSusp }

/-- The end of the packet `pid` that port n receives, with its copies ended: they end now, and its words
give their credits back (R86, R88). -/
def dropRx (s : State) (n : PortN) (pid reason : Nat) (whole : Bool) : State :=
  let s1 := stompCopies s pid reason whole
  sweepRx (modPort s1 n fun p =>
    { p with
      rx := p.rx.map fun r => if r.pid = pid then { r with ended := true, dest := [] } else r
      rxCur := if p.rxCur = some pid then none else p.rxCur
      rxSusp := if p.rxSusp = some pid then none else p.rxSusp })

/-! ## What in flight refers to a TT slot (R121, R122) -/

/-- A packet whose end would have acted on slot j does so no more.  An inner request of the slot that is still to
be sent holds `c` chunks until then (R119). -/
def detachSlot (j : Fin 48) (c : Nat) (t : TxPkt) : TxPkt :=
  if t.act = .innerSent j then { t with act := if c = 0 then .none else .chunks c }
  else if t.act = .answerSent j then { t with act := .none } else t

/-- The chunks that slot j holds for its inner request (R119). -/
def heldChunks (s : State) (j : Fin 48) : Nat := (s.tt.slots[j].map (·.inCh)).getD 0

/-- An answer still arriving for slot j is discarded as it arrives (R122). -/
def dropAnswer (s : State) (j : Fin 48) : State :=
  { s with ports := s.ports.map fun p =>
    { p with rx := p.rx.map fun r => { r with dest := r.dest.filter fun d => d != .slot j } } }

/-- Nothing in flight refers to slot j any more: neither a packet's end nor an answer arriving.  DESIGN CHOICE:
an inner request of the slot that still waits in the port's transmit queue is sent all the same; the spec
withdraws it at the queue's reset alone (R123, R124; log entry 143).  It keeps its `c` chunks until it has been
sent (R119). -/
def forgetSlot (s : State) (j : Fin 48) (c : Nat) : State :=
  let s1 := dropAnswer s j
  { s1 with
    ports := s1.ports.map fun p =>
      { p with txq := p.txq.map (detachSlot j c), txCur := p.txCur.map (detachSlot j c) }
    ula := { s1.ula with
      reqs := s1.ula.reqs.map fun l => l.map (detachSlot j c)
      susp := s1.ula.susp.map fun x => (detachSlot j c x.1, x.2) } }


/-! ## The upstream arbiter's queues (R260) -/

/-- Queue a packet for UP at ULA requester r; while UP has no link or is held it is discarded as it
arrives (R125, R169). -/
def ulaPush (s : State) (r : Nat) (t : TxPkt) : State :=
  if isUp s.ports[0] then
    { s with ula := { s.ula with reqs := s.ula.reqs.setIfInBounds r (vAt s.ula.reqs [] r ++ [t]) } }
  else s

/-- ULA requester of a packet that concerns Dm (R260). -/
def ulaOf (m : DnN) : Nat := m.val

end Sys2Proof.Machine
end

