-- ==== Sys2Proof/Machine/Budget.lean ====
section
/-! DEFINITION. The power budget as one account (R292 to R297): reservations, grants, the class of
a partner, and the moments at which an allocation is released. -/

namespace Sys2Proof.Machine

open Sys2Proof

/-- The grant of a power class, in watts (Power classes). -/
def classWatts (c : Nat) : Nat :=
  match c with
  | 0 => 4
  | 1 => 15
  | 2 => 35
  | 3 => 70
  | 7 => 0
  | _ => 140

/-- A port's present allocation: granted, or 4 W reserved (R294). -/
def allocation (p : Pps) : Nat := p.grant + if p.rsv then 4 else 0

/-- The class decision of R294 for one port, given the free budget: the new account, and whether
the class was granted. -/
def decideClass (free : Nat) (c : Nat) (p : Pps) : Pps × Bool :=
  let t := classWatts c
  if t ≤ free + allocation p then
    ({ p with req := c, reqv := true, grant := t, rsv := false, pend := false }, true)
  else
    ({ p with req := c, reqv := true, grant := p.grant + (if p.rsv then 4 else 0), rsv := false,
              pend := true }, false)

/-- EV_BUDGET: SRC the port or 0, W1 PPS_GSTAT, W2 PPS_GRANTED (R317). -/
def evBudget (s : State) (src : Nat) : State :=
  raise s { code := 0x05, src := src, w1 := ppsGstat s, w2 := w16 (granted s.pps) }

/-- Take the partner's class on Dm (R290, R294): a port without a switch of its own takes no budget
and its class counts as granted.  EV_BUDGET is raised when PEND is set or cleared (R317). -/
def classGrant (s : State) (m : DnN) (c : Nat) : State :=
  if !switched s m then modPps s m fun p => { p with req := c, reqv := true, pend := false }
  else
    let d := decideClass (freeBudget s) c s.pps[m]
    let s1 := modPps s m fun _ => d.1
    if !d.2 then
      evBudget (modPort s1 (dnPort m) fun q => { q with hold := 1 }) (dnPort m).val
    else if s.pps[m].pend then evBudget s1 (dnPort m).val
    else s1

/-- The partner's class is granted on Dm (R68, R290). -/
def classOk (s : State) (m : DnN) : Bool := !switched s m || !s.pps[m].pend

/-- A training state later than DETECT (R295): neither DISABLED nor DETECT itself. -/
def pastDetect (st : TrSt) : Bool := st != .disabled && st != .detect

/-- A reservation still open when the port enters DETECT from a later training state becomes a grant of 4 W
(R295). -/
def settleRsv (p : Pps) : Pps :=
  if p.rsv then { p with rsv := false, grant := p.grant + 4 } else p

/-- Release the allocation of a port (R295). -/
def release (p : Pps) : Pps := { p with grant := 0, rsv := false, pend := false }

end Sys2Proof.Machine
end

