-- ==== Sys2Proof/Machine/Walk.lean ====
section
/-! DEFINITION. The packets of the survey (R128, R136) and the walk of the downstream ports that a
TOKEN starts (R141): which port comes next, BREAK records, RETURN, and a port that detaches. -/

namespace Sys2Proof.Machine

open Sys2Proof

/-- The header of a census or survey packet (R128). -/
def engineHdr (typ : BitVec 4) (addr : Word) (tsb : Nat) : Hdr where
  typ := typ
  odd := false
  pcls := false
  hop := 0#10
  addr := addr
  endp := 0#5
  epoch := 0#4
  tag := 0#7
  tsb := BitVec.ofNat 8 tsb

/-- A SURVEY packet. -/
def surveyPkt (addr : Word) (tsb : Nat) (payload : List Word) : Pkt where
  hdr := engineHdr 13#4 addr tsb
  payload := payload

/-- The hub has an address (R128). -/
def assigned (s : State) : Bool := s.bus.node != 0xFFFE#16

/-- Hand a packet to the ULA as requester 17 (R132, R141); a hub without an address sends none (R128). -/
def engineUp (s : State) (p : Pkt) (act : OnEop) : State :=
  if assigned s then ulaPush s 17 (ownTx p act) else s

/-- Send a packet that comes from no receive buffer on Dm, in the place of packet `ord` (R114). -/
def sendAt (s : State) (m : DnN) (ord : Nat) (p : Pkt) (act : OnEop) : State :=
  modPort s (dnPort m) fun q => { q with txq := q.txq ++ [{ ownTx p act with ord := ord }] }

/-- Send a survey packet on Dm, behind every packet whose header check has passed; a hub without an address
sends none (R128). -/
def sendDown (s : State) (m : DnN) (p : Pkt) (act : OnEop) : State :=
  if assigned s then sendAt s m s.bus.pid p act else s

/-- Set where the walk stands. -/
def setWalk (s : State) (w : Walk) : State := { s with sur := { s.sur with walk := w } }

/-- The port takes part in the walk: it has a link, and is in the walk set or has a hub as partner
(R141, step 2). -/
def walkable (s : State) (m : DnN) : Bool :=
  let p := s.ports[dnPort m]
  isUp p && (s.sur.walkSet[m].isSome || bit p.pcap0 11)

/-- The BREAK record of Dm (R141, Break record). -/
def sendBreak (s : State) (m : DnN) (cause : Nat) : State :=
  let n := (dnPort m).val
  engineUp s (surveyPkt s.bus.node 0x06
    ([w16 (0x2000 + s.sur.depth % 1024), s.sur.sweep.getD 0#16, s.bus.node,
      atFld n 0 5 ||| atFld cause 5 3, s.sur.walkSet[m].getD 0xFFFE#16, w16 s.sur.forwarded[m]] ++
      List.replicate 10 0#16)) .none

/-- Take the ports of `l` in turn (R141, step 2): TOKEN to a port in the walk set, a wait for a hub
that has sent no PROBE, a BREAK when that wait is over already, RETURN when no port remains. -/
def walkFrom (s : State) : List DnN → State
  | [] => engineUp (setWalk s .done) (surveyPkt s.bus.node 0x07 [s.sur.sweep.getD 0#16]) .none
  | m :: rest =>
    if !walkable s m then walkFrom s rest
    else match s.sur.walkSet[m] with
      | some a => sendDown (setWalk s (.below m)) m (surveyPkt a 0x04 [s.sur.sweep.getD 0#16]) .none
      | none => if s.sur.probeLate then walkFrom (sendBreak s m 3) rest else setWalk s (.waitProbe m)

/-- The ports above Dm. -/
def portsAfter (m : DnN) : List DnN := dnAll.filter fun x => m < x

/-- Go on with the port after Dm. -/
def walkNext (s : State) (m : DnN) : State := walkFrom s (portsAfter m)

/-- The walk waits on Dm. -/
def walkAt (s : State) (m : DnN) : Bool := s.sur.walk = .below m || s.sur.walk = .waitProbe m

/-- Dm detaches: a walk that waits on it closes it with a BREAK, cause 2 (R141). -/
def surveyDetach (s : State) (m : DnN) : State :=
  if walkAt s m then walkNext (sendBreak s m 2) m else s

end Sys2Proof.Machine
end

