-- ==== Sys2Proof/Machine/Link.lean ====
section
/-! DEFINITION. What a port's training state machine is made of (chapter 3): entering each state,
link-up and link-down with what they settle (R71, R124, R125), the choice of the rate (R68, R69),
retrains (R72, R73) and the hold of a suspended port (R169). -/

namespace Sys2Proof.Machine

open Sys2Proof

/-! ## Loss of lock (R157) -/

/-- Lose lock: LOCKED clears, LOSS is set, holdover begins, EV_TIME_LOCK is raised (R157). -/
def loseLock (s : State) : State :=
  if !s.tb.locked then s
  else
    let s1 := { s with tb := { s.tb with locked := false, loss := true, holdover := true } }
    bbLink (raise s1 { code := 0x08, src := 0, w1 := tbStat s1 }) 0x41 0 (tbStat s1) 0#16

/-- The XK17 is syntonised: the recovered clock is the reference, and UP runs at Half or above (R153). -/
def syntonised (s : State) : Bool :=
  s.clk.refAct == 2 && isUp s.ports[(0 : PortN)] && 2 ≤ s.ports[(0 : PortN)].rate

/-- The conditions of R156 but for the run of eight beacons. -/
def lockCond (s : State) : Bool :=
  syntonised s && s.clk.corePll && s.tb.servo && s.tb.valid && s.tb.dlyOk && s.tb.dlyPll

/-- Lock is lost when a condition of R156 ceases to hold (R157). -/
def lockKeep (s : State) : State := if s.tb.locked && !lockCond s then loseLock s else s

/-- Lock is gained (R156). -/
def gainLock (s : State) : State :=
  if !s.tb.locked && lockCond s && 8 ≤ s.tb.runIn then
    let s1 := { s with tb := { s.tb with locked := true, holdover := false } }
    raise s1 { code := 0x08, src := 0, w1 := tbStat s1 }
  else s

/-- LOCKED follows its conditions, whichever of them changed last (R156, R157). -/
def lockCheck (s : State) : State := gainLock (lockKeep s)

/-! ## Settling outstanding work -/

/-- GONE packets for every record of Dm (R124). -/
def recordGones (s : State) (m : DnN) : List TxPkt :=
  s.ports[dnPort m].recs.map fun r => ownTx (goneOf (recHdr r) s.bus.node (dnPort m)) .none

/-- The header of the transaction a slot holds. -/
def slotHdr (x : Slot) : Hdr where
  typ := x.ityp
  odd := false
  pcls := x.pcls
  hop := 0#10
  addr := x.addr
  endp := x.endp
  epoch := x.epoch
  tag := x.tag
  tsb := 0#8

/-- The slot is on Dm and its answer has not fully arrived (R124). -/
def slotOpen (m : DnN) (x : Slot) : Bool := x.port = m && x.st != .stored && x.wants.isNone

/-- GONE packets for the slots of Dm whose answers have not fully arrived; a slot with an inner
POUT draws none (R124). -/
def slotGones (s : State) (m : DnN) : List TxPkt :=
  (s.tt.slots.toList.filterMap id).filterMap fun x =>
    if (slotOpen m x && x.ityp != 6#4) = true then
      some (ownTx (goneOf (slotHdr x) s.bus.node (dnPort m)) .none)
    else none

/-- The packet that port n is receiving, and a suspended one, are discarded (R86, R113). -/
def dropOpen (s : State) (n : PortN) (reason : Nat) : State :=
  match s.ports[n].rxCur, s.ports[n].rxSusp with
  | some a, some b => dropRx (dropRx s n a reason false) n b reason false
  | some a, none => dropRx s n a reason false
  | none, some b => dropRx s n b reason false
  | none, none => sweepRx s

/-- No packet waits for UP, and none is suspended (R125). -/
def ulaEmpty (u : Ula) : Ula :=
  { u with reqs := Vector.replicate 28 [], susp := none, run := 0, arb := { u.arb with holder := none, aside := none } }

/-- A downstream link-down is settled (R124): records and unanswered slots turn into GONE, the
transmit queue is discarded, a packet partly received is stomped. -/
def settleDown (s : State) (m : DnN) : State :=
  let n := dnPort m
  let gones := recordGones s m ++ slotGones s m
  let s1 := forEach gones (fun a t => ulaPush a (ulaOf m) t) s
  let freed := (List.finRange 48).filter fun j => s1.tt.slots[j].any (slotOpen m)
  let s2 := forEach freed (fun a j => forgetSlot (modSlot a j fun _ => none) j (heldChunks a j))
    (modPort s1 n fun p => { p with recs := [], txq := [] })
  dropOpen s2 n 3

/-- Free every TT slot without an answer (R125, R126). -/
def freeSlots (s : State) : State :=
  forEach (List.finRange 48) (fun a j => forgetSlot (modSlot a j fun _ => none) j (heldChunks a j)) s

/-- An UP link-down is settled (R125): every record and slot is freed, every packet waiting for UP
is discarded, and the packet being received is stomped. -/
def settleUp (s : State) : State :=
  let s1 := freeSlots s
  let s2 := { s1 with ports := s1.ports.map fun p => { p with recs := [] }, ula := ulaEmpty s1.ula }
  dropOpen (modPort s2 0 fun p => { p with txq := [], txCur := none }) 0 3

/-! ## Link-up and link-down (R71) -/

/-- The port part of a link-up at rate `r`: epoch, credits and counts (R60, R71). -/
def portUp (st : TrSt) (r : Nat) (p : Port) : Port :=
  { p with
    st := st
    rate := r
    epoch := (p.epoch + 1) % 16
    ptx := 16
    ntx := 48
    retP := 0
    retN := 0
    gotP := 0
    gotN := 0
    lastRate := some r
    viaDetect := false
    retrain := false
    tallyDue := false
    tallyWait := 0
    tsDue := []
    crdP := 0
    crdN := 0
    dark := false
    disRx := 0
    ackRx := 0
    setRx := 0
    fromTrial := false
    myErrs := none
    hisErrs := none
    rx := p.rx.map fun r => { r with old := true }
    hold := if st = .paddle then p.hold else 0 }

/-- What a link-up on UP ends besides: the sweep, the kept record, and the measured hop delay
(R137, R100, R156). -/
def upFresh (s : State) : State :=
  { s with
    sur := { s.sur with sweep := none, walk := .idle, kept := none, ended := true, probe := 0 }
    tb := { s.tb with dlyOk := false, dlyPll := false } }

/-- Count an attach of Dm for the census: the port reached its link after passing DETECT (R127, R131). -/
def countAttach (s : State) (n : PortN) : State :=
  if h : n.val = 0 then s
  else if s.ports[n].viaDetect then
    { s with cen := { s.cen with
        attaches := vMod s.cen.attaches ⟨n.val - 1, by omega⟩ (· + 1) } }
  else s

/-- Link-up of port n at rate `r`: PADDLE for code 1, ACTIVE above (R71). -/
def linkUp (s : State) (n : PortN) (r : Nat) : State :=
  let st : TrSt := if r = 1 then .paddle else .active
  let changed := s.ports[n].lastRate.any fun x => x != r
  let s0 := countAttach s n
  let s1 := modPort s0 n (portUp st r)
  let s2 := if n = 0 then upFresh s1 else s1
  let s3 := bbLink s2 0x30 n.val (portRate s2.ports[n]) (w16 s2.ports[n].epoch)
  portEvt s3 n (if changed then 0x0005#16 else 0x0001#16)

/-- Link-down of port n with the reason that LINK_DOWN records (R71, R124, R125).  A packet being
sent, and on UP a suspended one, is first ended with EAB, reason 3 (R72). -/
def linkDown (s : State) (n : PortN) (reason : Nat) : State :=
  let s1 := endTx s n 3
  let s2 := bbLink s1 0x31 n.val (w16 reason) (portStat s1 n)
  let s3 := modPort s2 n fun p =>
    { p with rate := 0, ptx := 0, ntx := 0, dark := false, tallyDue := false, tsDue := [], crdP := 0, crdN := 0 }
  let s4 := if h : n.val = 0 then loseLock { settleUp s3 with
        sur := { s3.sur with sweep := none, walk := .idle, ended := true, probe := 0 } }
    else settleDown s3 ⟨n.val - 1, by omega⟩
  portEvt s4 n 0x0002#16

/-! ## Entering states (R67) -/

/-- Fields that a new pass through CAPS starts from. -/
def freshPass (p : Port) : Port :=
  { p with
    capRx := none
    capTwo := false
    ackRx := 0
    tried := []
    tryRate := 0
    setRx := 0
    fromTrial := false
    myErrs := none
    hisErrs := none
    disRx := 0 }

/-- Enter DETECT: partner words read 0, the cap ends, counts since DETECT clear (R67, R73). -/
def portDetect (wait : Bool) (p : Port) : Port :=
  { freshPass p with
    st := .detect
    rate := 0
    pcap0 := 0#16
    pcap1 := 0#16
    cap := 4
    steps := 0
    attempts := 0
    hold := 0
    wait16 := wait
    viaDetect := true
    retrain := false
    dark := false }

/-- Port n enters DETECT; an open reservation of its switch becomes a grant (R295), and a survey that
waits on it closes it (R141).  DESIGN CHOICE: also when the port comes from a retrain through ALIGN, where R127
names PADDLE and ACTIVE alone (log entry 149). -/
def detectNow (s : State) (n : PortN) (wait : Bool) : State :=
  let s1 := modPort s n (portDetect wait)
  let settle := pastDetect s.ports[n].st
  if h : n.val = 0 then s1
  else surveyDetach (modPps s1 ⟨n.val - 1, by omega⟩ fun p => if settle then settleRsv p else p) ⟨n.val - 1, by omega⟩

/-- A port that need send no IDL is held at once (R172).  SD that is low as the hold begins counts as
deasserted during it (R177). -/
def holdNow (s : State) (n : PortN) : State :=
  modAon s n fun a => { a with hold := .held, sdFell := !a.sd }

/-- A port with SUSP = 1 that is not in PADDLE or ACTIVE enters the hold at once (R172); a disabled
port does so when it is enabled again (When events coincide). -/
def suspHold (s : State) (n : PortN) : State :=
  let p := s.ports[n]
  if bit s.aon.ports[n].feather 3 && s.aon.ports[n].hold = .none && !isUp p && p.st != .disabled &&
      p.st != .disabling then
    holdNow (if p.st = .detect then s else detectNow s n false) n
  else s

/-- Port n enters DETECT, or the hold of its selective suspend. -/
def toDetect (s : State) (n : PortN) (wait : Bool) : State := suspHold (detectNow s n wait) n

/-- Enter ALIGN for a new pass. -/
def portAlign (p : Port) : Port := { freshPass p with st := .align, rate := 0, hold := 0 }

/-- Enter ALIGN from a failed trial (R69). -/
def portAlignTrial (p : Port) : Port :=
  { p with st := .align, rate := 0, fromTrial := true, setRx := 0, myErrs := none, hisErrs := none }

/-- Retrain from PADDLE or ACTIVE: EAB, two TS_DOWN with the reason, link-down, ALIGN (R72). -/
def retrain (s : State) (n : PortN) (reason : Nat) : State :=
  let r := s.ports[n].rate
  let s1 := modPort (endTx s n 3) n fun p => { p with tsDue := [] }
  let s2 := sendTs2 s1 n .down (w16 r) (w16 reason)
  suspHold (modPort (linkDown s2 n reason) n portAlign) n

/-- Retrain because of errors or a flood: the cap of R73 when ACTIVE ended within 1 s, which a port that
goes on to DETECT loses again. -/
def errRetrain (s : State) (n : PortN) (reason : Nat) (within1s : Bool) : State :=
  let p := s.ports[n]
  let c := if p.st = .active && within1s then p.rate - 1 else p.cap
  retrain (modPort s n fun q => { q with cap := c }) n reason

/-- Signal loss or the loss of power-good (R72, R67): a link goes down with reason 0; a port in training
returns to DETECT without a failure; FAILED is left. -/
def signalLost (s : State) (n : PortN) : State :=
  match s.ports[n].st with
  | .paddle => toDetect (linkDown s n 0) n false
  | .active => toDetect (linkDown s n 0) n false
  | .align => toDetect s n false
  | .caps => toDetect s n false
  | .switch => toDetect s n false
  | .ralign => toDetect s n false
  | .trial => toDetect s n false
  | .failed => toDetect s n false
  | _ => s

/-! ## Choosing the rate (R68, R69) -/

/-- The media limit: Half when the port is optical or the media do not match (R66, R68). -/
def mediaMax (p : Port) : Nat := if p.optical || bit p.pcap0 7 != p.optical then 2 else 4

/-- Rates above Paddle that both ends could run, before MAXRATE, the cap and the clock limit them. -/
def commonRates (p : Port) : List Nat :=
  [4, 3, 2].filter fun r => bit p.pcap0 (r - 1) && r ≤ mediaMax p

/-- The candidate rates above Paddle, highest first (R68). -/
def candidates (s : State) (n : PortN) : List Nat :=
  let p := s.ports[n]
  (commonRates p).filter fun r => bit (portCap0 s n) (r - 1) && r ≤ p.maxRate && r ≤ p.cap

/-- The partner's power class is granted, for a downstream port (R68). -/
def grantOk (s : State) (n : PortN) : Bool :=
  if h : n.val = 0 then true else classOk s ⟨n.val - 1, by omega⟩

/-- PORT_TRAIN.HOLD when the parent stays at Paddle: the first of the register's reasons that
holds, 0 when every candidate has failed its trial. -/
def holdReason (s : State) (n : PortN) : Nat :=
  let p := s.ports[n]
  if !grantOk s n then 1
  else if !s.clk.corePll || s.glob.cfgBusy then 2
  else if commonRates p = [] then 3
  else if candidates s n = [] then 4
  else 0

/-- The rate the parent may try now, if any (R68, R31). -/
def nextTrial (s : State) (n : PortN) : Option Nat :=
  if grantOk s n && s.clk.corePll && !s.glob.cfgBusy then
    ((candidates s n).filter fun r => !s.ports[n].tried.contains r).head?
  else none

/-- The parent starts a trial of rate `r`: SWITCH, TS_TRIAL (R67). -/
def startTrial (s : State) (n : PortN) (r : Nat) : State :=
  suspHold (sendTs2 (modPort s n fun p =>
    { p with
      st := .switch
      tryRate := r
      tried := p.tried ++ [r]
      setRx := 0
      fromTrial := false
      myErrs := none
      hisErrs := none
      hold := 0
      attempts := satInc 15 p.attempts }) n .trial (w16 r) 0#16) n

/-- The parent goes on from CAPS or from a failed trial: a trial, or TS_GO for Paddle with the
reason recorded (R68, R69). -/
def parentChoose (s : State) (n : PortN) : State :=
  match nextTrial s n with
  | some r => startTrial s n r
  | none =>
    let h := holdReason s n
    linkUp (sendTs (modPort s n fun p => { p with hold := h }) n .go 1#16 0#16) n 1

/-- BEST: the highest candidate found at CAPS (PORT_RATE). -/
def noteBest (s : State) (n : PortN) : State :=
  modPort s n fun p => { p with best := ((candidates s n).head?).getD 1 }

/-- The parent applies R68 again in PADDLE or ACTIVE (R70): it steps up if it may, retrains when
the present rate is no candidate any more, and otherwise records why it is held.  DEDUCED (log entry 137): the
sets that wait for a packet's end, such as the two TS_ACK of the update, go out after its EAB and before the two
TS_DOWN. -/
def reeval (s : State) (n : PortN) : State :=
  let p := s.ports[n]
  if n = 0 then s
  else if p.st = .paddle then
    match nextTrial s n with
    | some r => if txFree s n then startTrial (linkDown s n 10) n r else s
    | none => modPort s n fun q => { q with hold := holdReason s n }
  else if p.st = .active then
    if (candidates s n).contains p.rate && grantOk s n then s else retrain (flushTs (endTx s n 3) n) n 7
  else s

/-- A rate has failed (R69): both ends return to ALIGN; the parent counts the step-down. -/
def failRate (s : State) (n : PortN) : State :=
  modPort s n fun p =>
    if n = 0 then portAlignTrial p
    else { portAlignTrial p with lastFail := p.tryRate, steps := satInc 15 p.steps }

/-! ## Holds (R169) -/

/-- Port n enters the hold: link-down with reason 9, IDL for 100 µs, DETECT (R169). -/
def enterHold (s : State) (n : PortN) : State :=
  let s1 := if isUp s.ports[n] then detectNow (linkDown s n 9) n false else s
  modAon s1 n fun a => { a with hold := .idl, sdFell := !a.sd }

end Sys2Proof.Machine
end

