-- ==== Sys2Proof/Machine/Switch.lean ====
section
/-! DEFINITION. The port power switches (chapter 14): the budget pass, starts and waits, the switch
states, faults and retries, gangs, and the rows that the Power die's timers and comparators send. -/

namespace Sys2Proof.Machine

open Sys2Proof

/-! ## Gangs as one switch (R313, R314) -/

/-- The lead of Dm's switch as the gangs now stand. -/
def leadNow (s : State) (m : DnN) : DnN := leadOf s.ppsg.gang m

/-- Change every leg of the switch that `l` leads, but for legs that are lost (R314, R315).  The
lead's record also holds the state of the whole switch. -/
def modLegs (s : State) (l : DnN) (f : Pps → Pps) : State :=
  forEach (gangLegs s l) (fun a x =>
    if s.pps[x].lost && x != l then a else modPps a x f) s

/-- A start may go on: VLINK_IN is not low, and the metering sequencer runs (R309, R318). -/
def canStart (s : State) : Bool := !s.ppsg.vlow && linkOn s

/-- Enter RAMP: each leg's gate stays held until its bias check has passed (R299, R304, R320). -/
def enterRamp (s : State) (l : DnN) : State :=
  modLegs s l fun p =>
    { p with st := .ramp, due := false, discharging := false, voffArmed := false, chkReq := true
             chkDue := false, recheck := false }

/-- Enter WAIT; `due` says that the budget is already there.  EV_BUDGET is raised (R293, R317). -/
def enterWait (s : State) (l : DnN) (due : Bool) : State :=
  evBudget (modLegs s l fun p =>
    { p with st := .wait, due := due, discharging := false, voffArmed := false }) (dnPort l).val

/-- Enter OFF: the discharge path runs for 100 ms (R304, R306). -/
def enterOff (s : State) (l : DnN) : State :=
  modLegs s l fun p =>
    { p with st := .off, due := false, discharging := true, voffArmed := false, limit := false, fold := false }

/-- Enter STOPPING: the gates are pulled down (R304). -/
def enterStopping (s : State) (l : DnN) : State :=
  modLegs s l fun p => { p with st := .stopping, limit := false, fold := false }

/-- Start with an allocation that is already held (R305, R310, R318). -/
def startHeld (s : State) (l : DnN) : State :=
  if canStart s then enterRamp s l else enterWait s l true

/-- Reserve 4 W and start, or wait (R293). -/
def reserveStart (s : State) (l : DnN) : State :=
  if 4 ≤ freeBudget s then startHeld (modPps s l fun p => { p with rsv := true }) l
  else enterWait s l false

/-! ## The budget pass (R296) -/

/-- One port's turn in the pass: a reservation for a port in WAIT. -/
def passWait (s : State) (m : DnN) : State :=
  let p := s.pps[m]
  if p.st = .wait && !p.due && isLead s.ppsg.gang m && 4 ≤ freeBudget s then
    let s1 := modPps s m fun q => { q with rsv := true, due := true }
    if canStart s1 then enterRamp s1 m else s1
  else s

/-- One port's turn in the pass: the class of a port with PEND (R294). -/
def passPend (s : State) (m : DnN) : State :=
  let p := s.pps[m]
  if p.pend then
    let d := decideClass (freeBudget s) p.req p
    if d.2 then reeval (evBudget (modPps s m fun _ => d.1) (dnPort m).val) (dnPort m) else s
  else s

/-- The pass over the ports in ascending order (R296). -/
def budgetPass (s : State) : State := forEach dnAll (fun a m => passPend (passWait a m) m) s

/-- Starts that waited for VLINK or for the sequencer go on (R309, R318). -/
def startWaiting (s : State) : State :=
  if canStart s then
    forEach dnAll (fun a m =>
      if a.pps[m].st = .wait && a.pps[m].due && isLead a.ppsg.gang m then enterRamp a m else a) s
  else s

/-- Take the partner's class on Dm; a grant that shrinks frees budget for the others (R294, R296). -/
def takeClass (s : State) (m : DnN) (c : Nat) : State :=
  let s1 := classGrant s m c
  if granted s1.pps + reserved s1.pps < granted s.pps + reserved s.pps then budgetPass s1 else s1

/-- Release the allocation of a switch (R295): PEND clears with EV_BUDGET, and the pass runs. -/
def releaseAll (s : State) (l : DnN) : State :=
  let p := s.pps[l]
  let s1 := modPps s l release
  let s2 := if p.pend then evBudget s1 (dnPort l).val else s1
  if allocation p = 0 then s2 else budgetPass s2

/-! ## Commands (R291, R304) -/

/-- PPS_CTRL.ON = 1 (R293, R304). -/
def switchOn (s : State) (m : DnN) : State :=
  let s1 := modPps s m fun p => { p with on := true }
  if !switched s m then s1
  else match s.pps[m].st with
    | .off => reserveStart s1 m
    | .discharge => reserveStart s1 m
    | _ => s1

/-- PPS_CTRL.ON = 0 (R304). -/
def switchOff (s : State) (m : DnN) : State :=
  let s1 := modPps s m fun p => { p with on := false }
  if !switched s m then s1
  else match s.pps[m].st with
    | .wait => releaseAll (enterOff s1 m) m
    | .on => enterStopping s1 m
    | .retry => releaseAll (enterOff s1 m) m
    | _ => s1

/-- A write of PPS_CTRL.ON. -/
def switchWrite (s : State) (m : DnN) (v : Bool) : State := if v then switchOn s m else switchOff s m

/-! ## Faults (R307 to R315) -/

/-- Record a fault on Dm: its bit, FAULTS, EV_PPS_FAULT for a newly set bit, a black-box entry
(R307, R317). -/
def recordFault (s : State) (m : DnN) (bits : Word) : State :=
  let new := bits &&& ~~~ s.pps[m].fault
  let s1 := modPps s m fun p => { p with fault := p.fault ||| bits, faults := satInc 255 p.faults }
  let s2 := if new = 0#16 then s1
    else raise s1 { code := 0x04, src := (dnPort m).val, w1 := s1.pps[m].fault, w2 := ppsStat s1 m }
  bbPow s2 0x20 (dnPort m).val new (ppsStat s1 m)

/-- RETRYX: no retry is left (R310).  It is no check of R307, so FAULTS does not advance. -/
def recordRetryx (s : State) (m : DnN) : State :=
  if bit s.pps[m].fault 7 then s
  else
    let s1 := modPps s m fun p => { p with fault := p.fault ||| 0x0080#16 }
    raise s1 { code := 0x04, src := (dnPort m).val, w1 := s1.pps[m].fault, w2 := ppsStat s1 m }

/-- Enter LATCHED: gates off, PPS_LATCH, and the allocation released (R295).  `m` is the leg that failed. -/
def latchSwitch (s : State) (l m : DnN) (why : Word) : State :=
  let s1 := modLegs s l fun p =>
    { p with st := .latched, due := false, limit := false, fold := false, discharging := false,
             voffArmed := false, recheck := false }
  let s2 := modPps s1 m fun p => { p with latchBy := why }
  releaseAll (bbPow s2 0x21 (dnPort l).val s2.pps[l].fault (ppsFcnt s2.pps[l])) l

/-- A fault retires a ramp or a running switch: STOPPING if the latest command is 0, else a retry if
one is left, else RETRYX and LATCHED (R305, R310). -/
def retire (s : State) (l : DnN) : State :=
  let p := s.pps[l]
  let count := fld p.retry 0 4
  if !p.on then enterStopping s l
  else if p.used < count || count = 15 then
    modPps (modLegs s l fun q => { q with st := .retry, limit := false, fold := false }) l
      fun q => { q with used := satInc 15 q.used }
  else latchSwitch (recordRetryx s l) l l 0#16

/-- The power-good checkpoint: a RAMP ends when every running leg has PG (R303, R305, R314). -/
def pgCheckpoint (s : State) (l : DnN) : State :=
  if s.pps[l].st = .ramp && gangPg s l then
    if s.pps[l].on then modLegs s l fun p => { p with st := .on } else enterStopping s l
  else s

/-- A leg of a gang is lost (R315): GANG_LEG, and the gang's policy.  Under DERATE the legs left may all have
PG, which ends a RAMP. -/
def loseLeg (s : State) (m : DnN) (why : Word) : State :=
  let l := leadNow s m
  let s1 := modPps s m fun p =>
    { p with lost := true, st := if m = l then p.st else .latched, limit := false, fold := false, latchBy := why
             recheck := false }
  let s2 := bbPow s1 0x22 (dnPort m).val (w16 (dnPort l).val) s.ppsg.gang
  let left := (gangLegs s l).any fun x => !s2.pps[x].lost
  if !bit s.ppsg.gang 12 || !left then latchSwitch s2 l m why
  else pgCheckpoint (modPps s2 l fun p => { p with derated := true }) l

/-- A fault that loses a leg in a gang and latches a single switch (R307, R315). -/
def legFault (s : State) (m : DnN) (bits : Word) : State :=
  let s1 := recordFault s m bits
  if (gangLegs s m).length = 1 then latchSwitch s1 (leadNow s m) m bits else loseLeg s1 m bits

/-- Dm's checks run: it has a switch of its own, whatever the lead of its gang has (R290, R307). -/
def checksRun (s : State) (m : DnN) : Bool := s.pps[m].fitted

/-- The switch that Dm belongs to is in RAMP or ON. -/
def starts (s : State) (m : DnN) : Bool :=
  s.pps[leadNow s m].st = .ramp || s.pps[leadNow s m].st = .on

/-- Dm's gate is driven: it has a switch (R290), in ON, and in RAMP once the leg's bias check has passed
(R299). -/
def driven (s : State) (m : DnN) : Bool :=
  checksRun s m && (s.pps[leadNow s m].st = .on ||
    (s.pps[leadNow s m].st = .ramp && !s.pps[m].chkReq && !s.pps[m].chkDue))

/-! ## The loop (R300, R314) -/

/-- VDS in mV, with its floor of 1 V, from the last readings of VLINK_IN and Dn_VOUT. -/
def vds (s : State) (m : DnN) : Nat := max 1000 (s.mtr.vlink.toNat - s.mtr.ports[m].v.toNat)

/-- ILIM, the lead's, in units of 0.25 mV. -/
def ilimN (s : State) (m : DnN) : Nat := fld s.pps[leadNow s m].ilim 0 8

/-- PFOLD, the lead's, in units of 0.5 mV·V. -/
def pfoldN (s : State) (m : DnN) : Nat := s.pps[leadNow s m].pfold.toNat

/-- The constant-power term is the smaller one (R300): PFOLD × 0.5 mV·V ÷ VDS < ILIM × 0.25 mV. -/
def powerTerm (s : State) (m : DnN) : Bool := 2000 * pfoldN s m < ilimN s m * vds s m

/-- VLIM in µV (R300). -/
def vlim (s : State) (m : DnN) : Nat := min (250 * ilimN s m) (500000 * pfoldN s m / vds s m)

/-- How far the loop may stand from VLIM: 5 % or 0.1 mV, in µV. -/
def vlimTol (s : State) (m : DnN) : Nat := max (vlim s m / 20) 100

/-- The loop regulates: never below its band, always above it; within it the sample says so.  A reading is
in units of 2 µV. -/
def regulates (s : State) (m : DnN) (i : Word) (reg : Bool) : Bool :=
  if 2 * i.toInt < (vlim s m : Int) - vlimTol s m then false
  else if (vlim s m : Int) + vlimTol s m < 2 * i.toInt then true
  else reg

/-- FOLD of every port whose gate is driven follows the limits and the readings. -/
def noteFold (s : State) : State :=
  { s with pps := Vector.ofFn fun m : DnN => { s.pps[m] with fold := driven s m && !s.pps[m].lost && powerTerm s m } }

/-- OC or FOLD_TMO on a leg (R301, R302, R310, R314).  A trip in the cycle of a write of ON = 0 finds
the switch in STOPPING and is recorded there. -/
def tripFault (s : State) (m : DnN) (bits : Word) : State :=
  let l := leadNow s m
  if !checksRun s m || s.pps[m].lost then s
  else if driven s m then retire (recordFault s m bits) l
  else if s.pps[l].st = .stopping && !s.pps[l].on then recordFault s m bits
  else s

/-- Row OC (R302). -/
def execOc (m : DnN) (s : State) : Outcome := onPower s fun s => tripFault s m 0x0001#16

/-- Row FOLD_TMO (R301): the timer runs while LIMIT = 1.  With the sequencer stopped the loop acts on and no
reading shows it (R316). -/
def execFoldTmo (m : DnN) (s : State) : Outcome :=
  onPower s fun s => whenDo (driven s m && (s.pps[m].limit || !linkOn s)) (tripFault · m 0x0002#16) s

/-- Row SHORT_OFF (R307): in OFF, after its discharge time, with the check enabled. -/
def execShortOff (m : DnN) (s : State) : Outcome :=
  onPower s fun s => whenDo (checksRun s m && s.pps[m].st = .off && s.pps[m].voffArmed && s.pps[m].voffEn)
    (fun s => latchSwitch (recordFault (modPps s m fun p => { p with voffHigh := true }) m 0x0004#16)
      (leadNow s m) m 0x0004#16) s

/-- Row GATE_STUCK (R307, R315): `vgs` is the gate-source voltage read, in 0.1 V, and below 3 V. -/
def execGateStuck (m : DnN) (vgs : Word) (s : State) : Outcome :=
  onPower s fun s => whenDo (checksRun s m && driven s m && s.pps[m].gateEn && !s.pps[m].lost && fld vgs 0 8 < 30)
    (fun s => legFault (modPps s m fun p => { p with vgs := fld vgs 0 8 }) m 0x0008#16) s

/-- REVERSE in every state (R307): the whole switch latches. -/
def reverseFault (s : State) (m : DnN) : State :=
  let s1 := recordFault s m 0x0010#16
  if s.pps[leadNow s m].st = .latched then s1 else latchSwitch s1 (leadNow s m) m 0x0010#16

/-- Row REVERSE (R307). -/
def execReverse (m : DnN) (s : State) : Outcome :=
  onPower s fun s => whenDo (checksRun s m) (reverseFault · m) s

/-- The running legs of Dm's gang other than Dm (R315). -/
def otherLegs (s : State) (m : DnN) : List DnN := (gangLegs s m).filter fun x => x != m && !s.pps[x].lost

/-- The sum of the current readings of some legs, in units of 2 µV. -/
def sumReadings (s : State) (ls : List DnN) : Int := ls.foldl (fun a x => a + s.mtr.ports[x].i.toInt) 0

/-- Dm's last reading is below one eighth of the mean of the other running legs, and that mean is at least
ILIM ÷ 4, ILIM being in units of 0.25 mV (R315). -/
def legOpen (s : State) (m : DnN) : Bool :=
  let n : Int := (otherLegs s m).length
  let sum := sumReadings s (otherLegs s m)
  0 < n && 8 * n * s.mtr.ports[m].i.toInt < sum && 125 * n * (ilimN s m : Int) ≤ 4 * sum

/-- Row LEGOPEN (R315): in a gang that is ON with PG. -/
def execLegopen (m : DnN) (s : State) : Outcome :=
  onPower s fun s => whenDo (checksRun s m && legOpen s m &&
      s.pps[leadNow s m].st = .on && gangPg s m && !s.pps[m].lost)
    (fun s => loseLeg (recordFault s m 0x0040#16) m 0x0040#16) s

/-! ## Power-good and timers (R303 to R306, R310) -/

/-- PG of a leg is set, which may end a RAMP (R303, R305, R314). -/
def setPg (s : State) (m : DnN) (vgs : Word) : State :=
  pgCheckpoint (modPps s m fun p => { p with pg := true, vgs := fld vgs 0 8 }) (leadNow s m)

/-- Row POWER_GOOD (R303, R305): `vgs` is the gate-source voltage read, in 0.1 V, and no less than 8 V. -/
def execPowerGood (m : DnN) (vgs : Word) (s : State) : Outcome :=
  onPower s fun s => whenDo (checksRun s m && driven s m && !s.pps[m].lost && 80 ≤ fld vgs 0 8) (setPg · m vgs) s

/-- Row POWER_GOOD_LOSS (R303, R72): PG clears, and the link of the lead loses its signal. -/
def execPowerGoodLoss (m : DnN) (s : State) : Outcome :=
  onPower s fun s => whenDo s.pps[m].pg (fun s =>
    let l := leadNow s m
    let s1 := modPps s m fun p => { p with pg := false }
    if linkOn s && switched s l && !gangPg s1 l then signalLost s1 (dnPort l) else s1) s

/-- Row RETRY_END (R310, R318). -/
def execRetryEnd (m : DnN) (s : State) : Outcome :=
  onPower s fun s => whenDo (s.pps[m].st = .retry && isLead s.ppsg.gang m) (startHeld · m) s

/-- Row RETRY_COUNT_CLEAR (R310). -/
def execRetryCountClear (m : DnN) (s : State) : Outcome :=
  onPower s fun s => whenDo (gangPg s m) (fun s => modPps s m fun p => { p with used := 0 }) s

/-- Gate-off confirmed (R305): a new ramp with the allocation kept, or the allocation released and
DISCHARGE. -/
def gateOff (s : State) (l : DnN) (vgs : Word) : State :=
  let s1 := modPps s l fun p => { p with vgs := fld vgs 0 8 }
  if s.pps[l].on then startHeld s1 l
  else releaseAll (modLegs s1 l fun p => { p with st := .discharge, discharging := true }) l

/-- Row GATE_OFF_CHECKPOINT (R305, R295, R296). -/
def execGateOffCheckpoint (m : DnN) (vgs : Word) (s : State) : Outcome :=
  onPower s fun s => whenDo (s.pps[m].st = .stopping && isLead s.ppsg.gang m) (gateOff · m vgs) s

/-- Row DISCHARGE_END (R304). -/
def execDischargeEnd (m : DnN) (s : State) : Outcome :=
  onPower s fun s => whenDo (s.pps[m].st = .discharge && isLead s.ppsg.gang m) (enterOff · m) s

/-- Row OFF_DISCHARGE_END (R306): the discharge path turns off and the SHORT_OFF check arms. -/
def execOffDischargeEnd (m : DnN) (s : State) : Outcome :=
  onPower s fun s => whenDo (s.pps[m].st = .off && checksRun s m)
    (fun s => modPps s m fun p => { p with discharging := false, voffArmed := true }) s

/-! ## Latch clear, budget and gang writes (R297, R312, R313) -/

/-- Clear the latches of every leg of the switch, and USED (R312, R315).  A leg that SENSE_FAULT latched is
checked afresh. -/
def clearLegs (s : State) (l : DnN) : State :=
  modPps (forEach (gangLegs s l) (fun a x => modPps a x fun p =>
    { p with lost := false, derated := false, st := s.pps[l].st, latchBy := 0#16
             recheck := bit p.latchBy 5, chkReq := p.chkReq || bit p.latchBy 5 }) s) l
    fun q => { q with used := 0 }

/-- A leg that SHORT_OFF latched and whose VOUT is still above 2 V, with the check enabled (R312). -/
def stillShort (s : State) (l : DnN) : Option DnN :=
  (gangLegs s l).find? fun x => bit s.pps[x].latchBy 2 && s.pps[x].voffHigh && s.pps[x].voffEn

/-- LATCHED ends (R312): WAIT and a reservation with ON = 1, OFF with ON = 0. -/
def endLatch (s : State) (l : DnN) : State :=
  if s.pps[l].on && s.pps[l].fitted then passWait (enterWait s l false) l else enterOff s l

/-- PPS_CTRL.FCLR = 1 (R312): USED clears and LATCHED ends.  A switch latched by SHORT_OFF whose VOUT is
still above 2 V latches again at once, one latched by SENSE_FAULT at its next sense check.  In a gang that is
off, the lost legs are in LATCHED by themselves, and the write ends that in the same way (R315; DEDUCED,
log 57). -/
def faultClear (s : State) (m : DnN) : State :=
  if !isLead s.ppsg.gang m then s
  else if s.pps[m].st = .latched then
    let s1 := clearLegs s m
    match stillShort s m with
    | some x => latchSwitch (recordFault s1 x 0x0004#16) m x 0x0004#16
    | none => endLatch s1 m
  else if s.pps[m].st = .off && (gangLegs s m).any fun x => s.pps[x].lost then clearLegs s m
  else s

/-- A write of `w` to the budget (R297): clamped to 2,240 and to what is held. -/
def budgetWrite (s : State) (w : Nat) : State :=
  let held := granted s.pps + reserved s.pps
  let v := min w 2240
  if v < held then
    let s1 := { s with ppsg := { s.ppsg with budget := held, clamp := true } }
    bbPow (evBudget s1 0) 0x23 0 (w16 w) (w16 held)
  else
    let s1 := { s with ppsg := { s.ppsg with budget := v } }
    if s.ppsg.budget < v then budgetPass s1 else s1

/-- Ports 4q + 1 to 4q + 4 (or a pair of them) are all in OFF. -/
def allOff (s : State) (lo n : Nat) : Bool :=
  (List.range n).all fun i => vAt (s.pps.map fun p => decide (legSt p = .off)) true (lo + i)

/-- The bits that the write gives quad `q`: whether any was refused, and the three bits (R313). -/
def gangQuad (s : State) (v : Word) (q : Nat) : Bool × List (Nat × Bool) :=
  let old := s.ppsg.gang
  let b := bit v (8 + q)
  if b != bit old (8 + q) then
    if allOff s (4 * q) 4 then (false, [(8 + q, b), (2 * q, bit v (2 * q)), (2 * q + 1, bit v (2 * q + 1))])
    else (true, [])
  else if b then (false, [(2 * q, bit v (2 * q)), (2 * q + 1, bit v (2 * q + 1))])
  else
    let ok (k : Nat) : Bool := bit v k == bit old k || allOff s (2 * k) 2
    (!(ok (2 * q) && ok (2 * q + 1)),
      (if ok (2 * q) then [(2 * q, bit v (2 * q))] else []) ++
      (if ok (2 * q + 1) then [(2 * q + 1, bit v (2 * q + 1))] else []))

/-- A write to PPS_GANG (R313). -/
def gangWrite (s : State) (v : Word) : State :=
  let qs := (List.range 4).map (gangQuad s v)
  let g := (qs.flatMap (·.2)).foldl (fun w b => setBit w b.1 b.2) s.ppsg.gang
  { s with ppsg := { s.ppsg with
      gang := setBit g 12 (bit v 12)
      gangref := s.ppsg.gangref || qs.any (·.1) } }

end Sys2Proof.Machine
end

