-- ==== Sys2Proof/Machine/Training.lean ====
section
/-! DEFINITION. The rows of one link (chapter 3): the training state machine, retrains, floods,
disabling and enabling a port, credits on the wire and fragments. -/

namespace Sys2Proof.Machine

open Sys2Proof

/-! ## Receiving -/

/-- Count an errored word (PORT_CODEERR). -/
def countCode (s : State) (n : PortN) : State :=
  modPort s n fun p => { p with codeErr := satInc 65535 p.codeErr }

/-- A word discarded for a code violation: counted, and a tally is asked for (R52, R61). -/
def codeViolated (s : State) (n : PortN) : State := wantTally (countCode s n) n

/-- Act on what port n receives: during a flood every word is discarded (R74). -/
def onRx (n : PortN) (f : State → State) (s : State) : State := whenDo (!s.ports[n].flooding) f s

/-- A set stands inside a packet: it is misplaced (R55). -/
def tsMisplaced (p : Port) : Bool := (rxGood p).isSome || p.rxSusp.isSome

/-- Act on a training set between packets whose check word is right; any other is ignored and counted
(R55, R62, PORT_CODEERR). -/
def onTs (n : PortN) (k : TsKind) (a0 a1 chk : Word) (f : State → State) (s : State) : State :=
  onRx n (fun s =>
    if trainCheck (tsCode k) a0 a1 = chk && !tsMisplaced s.ports[n] then f s else countCode s n) s

/-! ## DETECT, ALIGN and CAPS (R66, R67) -/

/-- The conditions of DETECT to be left: power-good on a switched port, no hold of 16 ms, and no
bus hold or beacon (R67, R169). -/
def mayLeaveDetect (s : State) (n : PortN) : Bool :=
  let p := s.ports[n]
  p.st = .detect && !p.wait16 && s.aon.ports[n].hold = .none &&
    (if h : n.val = 0 then !s.aon.upBcn
     else s.aon.ports[n].bcn = .none && powerGood s ⟨n.val - 1, by omega⟩)

/-- The level of SD, which the AON domain sees in every power state (R177, R347). -/
def noteSd (n : PortN) (level : Bool) (s : State) : State :=
  modAon s n fun a => { a with sd := level, sdFell := a.sdFell || (!level && a.hold != .none) }

/-- SD has been asserted for 100 µs: DETECT is left for ALIGN (R67). -/
def sdQualified (s : State) (n : PortN) : State :=
  if mayLeaveDetect s n then modPort s n portAlign else s

/-- Row SD_QUALIFIED (R67). -/
def execSdQualified (n : PortN) (s : State) : Outcome :=
  onPower s fun s => whenDo (linkOn s) (sdQualified · n) (noteSd n true s)

/-- SD has been low for long enough: while FLD is asserted in a flood this is part of the flood (R74). -/
def sdLost (s : State) (n : PortN) (fldHigh : Bool) : State :=
  let s1 := modPort s n fun p => { p with fld := p.optical && fldHigh }
  if s.ports[n].flooding && s.ports[n].optical && fldHigh then s1 else signalLost s1 n

/-- Row SIGNAL_LOSS (R72, R67, R74): `fldHigh` is the level of FLD at that moment. -/
def execSignalLoss (x : SdLoss) (s : State) : Outcome :=
  onPower s fun s => whenDo (linkOn s) (sdLost · x.port x.fldHigh) (noteSd x.port false s)

/-- Row DETECT_HOLD_END (R67). -/
def execDetectHoldEnd (n : PortN) (s : State) : Outcome :=
  onLink s fun s => modPort s n fun p => { p with wait16 := false }

/-- Enter CAPS: TS_CAP goes out at least twice (R67). -/
def enterCaps (s : State) (n : PortN) : State :=
  sendTs2 (modPort s n fun p => { p with st := .caps, fragSent := p.fragEn }) n .cap (portCap0 s n) (portCap1 s)

/-- ALIGN ends (R67, R69): CAPS, or the next trial when it was entered from a failed one. -/
def aligned (s : State) (n : PortN) : State :=
  let p := s.ports[n]
  if p.st != .align then s
  else if !p.fromTrial then enterCaps s n
  else if n = 0 then modPort s n fun q => { q with st := .switch, setRx := 0, fromTrial := false }
  else parentChoose s n

/-- Row WORD_ALIGN (R54, R67). -/
def execWordAlign (n : PortN) (s : State) : Outcome := onLink s fun s => onRx n (aligned · n) s

/-- A training failure: DETECT held for 16 ms, TFAIL (R67). -/
def trainFail (s : State) (n : PortN) : State := portEvt (toDetect s n true) n 0x0008#16

/-- Row ALIGN_TIMEOUT (R67). -/
def execAlignTimeout (n : PortN) (s : State) : Outcome :=
  onLink s fun s => whenDo (s.ports[n].st = .align) (trainFail · n) s

/-- Row CAPS_TIMEOUT (R67). -/
def execCapsTimeout (n : PortN) (s : State) : Outcome :=
  onLink s fun s => whenDo (s.ports[n].st = .caps) (trainFail · n) s

/-- The partner's words are refused: version 0, or Paddle missing from its mask (R66). -/
def badCap (a0 : Word) : Bool := fld a0 12 4 == 0 || !bit a0 0

/-- The port enters FAILED; a link is taken down first, with the capability reason (R66). -/
def refuseCap (s : State) (n : PortN) : State :=
  let s1 := if isUp s.ports[n] then linkDown s n 7 else s
  let p := s1.ports[n]
  let s2 := portEvt (bbLink (modPort s1 n fun q => { freshPass q with st := .failed, rate := 0, retrain := false })
    0x33 n.val p.pcap0 p.pcap1) n 0x0040#16
  let s3 := suspHold s2 n
  if h : n.val = 0 then s3 else surveyDetach s3 ⟨n.val - 1, by omega⟩

/-- The partner's words are accepted: kept, the medium compared, and for a parent the class taken
into account (R66, R294). -/
def acceptCap (s : State) (n : PortN) (a0 a1 : Word) : State :=
  let s1 := stayLit (modPort s n fun p => { p with pcap0 := a0, pcap1 := a1 }) n
  let s2 := if bit a0 7 != s1.ports[n].optical then portEvt s1 n 0x0080#16 else s1
  if h : n.val = 0 then s2 else takeClass s2 ⟨n.val - 1, by omega⟩ (fld a0 8 3)

/-- CAPS is complete: the parent chooses, the child waits (R67, R68). -/
def capsDone (s : State) (n : PortN) : State := if n = 0 then s else parentChoose s n

/-- A TS_CAP in CAPS: the second identical one is accepted and acknowledged (R67). -/
def capInCaps (s : State) (n : PortN) (a0 a1 : Word) : State :=
  let p := s.ports[n]
  if p.capRx != some (a0, a1) then
    modPort s n fun q => { q with capRx := some (a0, a1), capTwo := false }
  else if p.capTwo then s
  else if badCap a0 then refuseCap s n
  else
    let s1 := acceptCap (modPort s n fun q => { q with capTwo := true }) n a0 a1
    let s2 := sendTs2 (noteBest s1 n) n .ack a0 a1
    if 2 ≤ s2.ports[n].ackRx then capsDone s2 n else s2

/-- A capability update in PADDLE or ACTIVE (R70). -/
def capUpdated (s : State) (n : PortN) (a0 a1 : Word) : State :=
  if badCap a0 then refuseCap s n
  else reeval (portEvt (sendTs2 (acceptCap s n a0 a1) n .ack a0 a1) n 0x0100#16) n

/-- A capability update that reaches the parent in SWITCH: the trial is given up and R68 applied
again (When events coincide). -/
def capInSwitch (s : State) (n : PortN) (a0 a1 : Word) : State :=
  if badCap a0 then refuseCap s n
  else
    let s1 := portEvt (sendTs2 (acceptCap s n a0 a1) n .ack a0 a1) n 0x0100#16
    parentChoose (modPort s1 n fun p => { p with tried := p.tried.erase p.tryRate }) n

/-- A TS_CAP received, by the port's state. -/
def capRx (s : State) (n : PortN) (a0 a1 : Word) : State :=
  match s.ports[n].st with
  | .caps => capInCaps s n a0 a1
  | .paddle => capUpdated s n a0 a1
  | .active => capUpdated s n a0 a1
  | .switch => if n = 0 then s else capInSwitch s n a0 a1
  | _ => s

/-- Row TS_CAP_RX (R66, R67, R70, R294). -/
def execTsCapRx (n : PortN) (a0 a1 chk : Word) (s : State) : Outcome :=
  onLink s fun s => onTs n .cap a0 a1 chk (capRx · n a0 a1) s

/-- A TS_ACK that echoes the port's own words (R67, R70). -/
def ackRx (s : State) (n : PortN) (a0 a1 : Word) : State :=
  if a0 != portCap0 s n || a1 != portCap1 s then s
  else
    let k := min 2 (s.ports[n].ackRx + 1)
    let s1 := modPort s n fun p => { p with ackRx := k }
    if k < 2 then s1
    else if s.ports[n].st = .caps then if s.ports[n].capTwo then capsDone s1 n else s1
    else reeval s1 n

/-- Row TS_ACK_RX (R67, R68, R70). -/
def execTsAckRx (n : PortN) (a0 a1 chk : Word) (s : State) : Outcome :=
  onLink s fun s => onTs n .ack a0 a1 chk (ackRx · n a0 a1) s

/-! ## SWITCH, RALIGN and TRIAL (R67, R69) -/

/-- The rate field of a training set's argument 0. -/
def tsRate (a0 : Word) : Nat := fld a0 0 3

/-- Both sets of SWITCH have been exchanged: IDL at the new rate, then two TS_READY (R67).  DESIGN CHOICE: the
partner needs 64 clean words first; how many more IDL words go out is a free value (log entry 152). -/
def enterRalign (s : State) (n : PortN) : State :=
  let s1 := modPort s n fun p => { p with st := .ralign, setRx := 0 }
  sendTs2 (bump (emit s1 (.idl n (64 + Config.readyIdl s.fresh)))) n .ready (w16 s.ports[n].tryRate) 0#16

/-- The child in SWITCH has received `k` TS_TRIAL for rate `r`: after the second it echoes two and switches
(R67). -/
def childSwitch (s : State) (r k : Nat) : State :=
  let s1 := modPort s 0 fun q =>
    { q with st := .switch, tryRate := r, setRx := k, fromTrial := false, myErrs := none, hisErrs := none }
  if k < 2 then s1 else enterRalign (sendTs2 s1 0 .trial (w16 r) 0#16) 0

/-- The child follows a TS_TRIAL.  It leaves PADDLE by a step-up, after the packet in progress has ended; until
then the sets count (R67). -/
def childTrial (s : State) (r : Nat) : State :=
  let p := s.ports[(0 : PortN)]
  let k := if (p.st = .switch || p.st = .paddle) && p.tryRate = r then min 2 (p.setRx + 1) else 1
  if p.st = .paddle then
    (if txFree s 0 then childSwitch (linkDown s 0 10) r k
     else modPort s 0 fun q => { q with tryRate := r, setRx := k })
  else childSwitch s r k

/-- A packet of UP has ended: a child that received TS_TRIAL during it leaves PADDLE now (R67, R31). -/
def childLeave (s : State) : State :=
  let p := s.ports[(0 : PortN)]
  if p.st = .paddle && p.setRx != 0 && txFree s 0 && s.clk.corePll && !s.glob.cfgBusy then
    childSwitch (linkDown s 0 10) p.tryRate p.setRx
  else s

/-- The child is already following this trial. -/
def followsTrial (p : Port) (r : Nat) : Bool := p.st = .switch && p.tryRate = r && p.setRx != 0

/-- CAPS is complete at the child: it has sent two TS_ACK and received two (R67). -/
def capsOver (p : Port) : Bool := p.capTwo && 2 ≤ p.ackRx

/-- A TS_TRIAL received.  No trial starts on FIRC or during an image load (R31). -/
def trialRx (s : State) (n : PortN) (r : Nat) : State :=
  let p := s.ports[n]
  if n = 0 then
    if r < 2 || 4 < r || !s.clk.corePll || (s.glob.cfgBusy && !followsTrial p r) then s
    else match p.st with
      | .caps => if capsOver p then childTrial s r else s
      | .switch => childTrial s r
      | .paddle => childTrial s r
      | _ => s
  else if p.st = .switch && p.tryRate = r then
    if p.setRx = 0 then modPort s n fun q => { q with setRx := 1 } else enterRalign s n
  else s

/-- Row TS_TRIAL_RX (R67). -/
def execTsTrialRx (n : PortN) (a0 a1 chk : Word) (s : State) : Outcome :=
  onLink s fun s => onTs n .trial a0 a1 chk (trialRx · n (tsRate a0)) s

/-- Row SWITCH_TIMEOUT (R67, R69).  DESIGN CHOICE: no TS_DOWN goes out at this time-out or at that of RALIGN;
the rule says only that the rate has failed (log entry 109). -/
def execSwitchTimeout (n : PortN) (s : State) : Outcome :=
  onLink s fun s => whenDo (s.ports[n].st = .switch) (failRate · n) s

/-- A TS_READY received in RALIGN after 64 clean words; the second one starts the trial, in
which the port sends 8,192 words of PRBS-15 (R67). -/
def readyRx (s : State) (n : PortN) (clean r : Nat) : State :=
  let p := s.ports[n]
  if p.st != .ralign || p.tryRate != r || clean < 64 then s
  else if p.setRx = 0 then modPort s n fun q => { q with setRx := 1 }
  else emit (modPort s n fun q => { q with st := .trial, setRx := 0, myErrs := none, hisErrs := none })
    (.prbs n prbsSeed 8192)

/-- Row TS_READY_RX (R67): `clean` is the number of clean words that came before it in RALIGN. -/
def execTsReadyRx (n : PortN) (clean : Nat) (args : Word × Word) (chk : Word) (s : State) : Outcome :=
  onLink s fun s => onTs n .ready args.1 args.2 chk (readyRx · n clean (tsRate args.1)) s

/-- Row RALIGN_TIMEOUT (R67, R69). -/
def execRalignTimeout (n : PortN) (s : State) : Outcome :=
  onLink s fun s => whenDo (s.ports[n].st = .ralign) (failRate · n) s

/-- The parent judges both counts once it has them (R69). -/
def judge (s : State) (n : PortN) : State :=
  let p := s.ports[n]
  if n = 0 then s
  else match p.myErrs, p.hisErrs with
    | some a, some b =>
      if a ≤ p.trialThr && b ≤ p.trialThr then
        linkUp (sendTs s n .go (w16 p.tryRate) 0#16) n p.tryRate
      else failRate (sendTs2 s n .down (w16 p.tryRate) 1#16) n
    | _, _ => s

/-- How many of the words received in a trial differ from the pattern or carry a code violation (R67). -/
def trialErrs (x : BitVec 15) : List (Option Word) → Nat
  | [] => 0
  | w :: ws =>
    let r := prbsWord x
    (if w = some r.1 then 0 else 1) + trialErrs r.2 ws

/-- The pattern has been sent; `errs` of the received words were errored (R67). -/
def trialSent (s : State) (n : PortN) (errs : Nat) : State :=
  if s.ports[n].st != .trial || s.ports[n].myErrs.isSome then s
  else judge (sendTs (modPort s n fun p => { p with myErrs := some errs }) n .result
    (w16 s.ports[n].tryRate) (w16 errs)) n

/-- Row TRIAL_SENT (R67, R69): `rx` are the words received in the trial, none for one that carries a code
violation. -/
def execTrialSent (n : PortN) (rx : List (Option Word)) (s : State) : Outcome :=
  onLink s fun s => trialSent s n (min 65535 (trialErrs prbsSeed rx))

/-- A TS_RESULT received in TRIAL (R69). -/
def resultRx (s : State) (n : PortN) (r : Nat) (errs : Word) : State :=
  if s.ports[n].st != .trial || s.ports[n].tryRate != r then s
  else judge (modPort s n fun p => { p with hisErrs := some errs.toNat }) n

/-- Row TS_RESULT_RX (R69). -/
def execTsResultRx (n : PortN) (a0 a1 chk : Word) (s : State) : Outcome :=
  onLink s fun s => onTs n .result a0 a1 chk (resultRx · n (tsRate a0) a1) s

/-- Row TRIAL_TIMEOUT (R67, R69): TS_DOWN with reason 2, and the rate has failed. -/
def execTrialTimeout (n : PortN) (s : State) : Outcome :=
  onLink s fun s => whenDo (s.ports[n].st = .trial)
    (fun s => failRate (sendTs2 s n .down (w16 s.ports[n].tryRate) 2#16) n) s

/-- A TS_GO received by the child (R67). -/
def goRx (s : State) (r : Nat) : State :=
  let p := s.ports[(0 : PortN)]
  match p.st with
  | .caps => if r = 1 && capsOver p then linkUp s 0 1 else s
  | .switch => if r = 1 then linkUp s 0 1 else s
  | .trial => if r = p.tryRate && s.clk.corePll then linkUp s 0 r else s
  | _ => s

/-- Row TS_GO_RX (R67, R71): only a parent sends it, so it means something on UP alone. -/
def execTsGoRx (n : PortN) (a0 a1 chk : Word) (s : State) : Outcome :=
  onLink s fun s => onTs n .go a0 a1 chk (fun s => if n = 0 then goRx s (tsRate a0) else s) s

/-! ## Step-up and capability updates (R68, R70) -/

/-- Row STEP_UP (R68, R71). -/
def execStepUp (n : PortN) (s : State) : Outcome :=
  onLink s fun s => whenDo (s.ports[n].st = .paddle) (reeval · n) s

/-- Send a capability update (R70): TS_CAP on a link that is up; sets of a trial received before it
count no more. -/
def capUpdate (s : State) (n : PortN) : State :=
  if isUp s.ports[n] || (n = 0 && s.ports[n].st = .switch) then
    sendTs (modPort s n fun p => { p with ackRx := 0, setRx := 0, fragSent := p.fragEn }) n .cap
      (portCap0 s n) (portCap1 s)
  else s

/-- Row CAP_UPDATE_SEND (R70). -/
def execCapUpdateSend (n : PortN) (s : State) : Outcome := onLink s fun s => capUpdate s n

/-! ## Retrain triggers (R72, R73) -/

/-- A TS_DOWN received: the link goes down with its reason, or the trial has failed (R72, R69). -/
def downRx (s : State) (n : PortN) (reason : Nat) : State :=
  match s.ports[n].st with
  | .paddle => suspHold (modPort (linkDown s n reason) n portAlign) n
  | .active => suspHold (modPort (linkDown s n reason) n portAlign) n
  | .switch => failRate s n
  | .ralign => failRate s n
  | .trial => failRate s n
  | _ => s

/-- Row TS_DOWN_RX (R72). -/
def execTsDownRx (n : PortN) (a0 a1 chk : Word) (s : State) : Outcome :=
  onLink s fun s => onTs n .down a0 a1 chk (downRx · n a1.toNat) s

/-- A TS_DIS received: the second one takes the link down (R72). -/
def disRx (s : State) (n : PortN) : State :=
  if !isUp s.ports[n] then s
  else if s.ports[n].disRx = 0 then modPort s n fun p => { p with disRx := 1 }
  else toDetect (linkDown s n 8) n false

/-- Row TS_DIS_RX (R72). -/
def execTsDisRx (n : PortN) (a0 a1 chk : Word) (s : State) : Outcome :=
  onLink s fun s => onTs n .dis a0 a1 chk (disRx · n) s

/-- An error retrain: ERRTRN, reason 3, the cap (R72, R73). -/
def errorRetrain (s : State) (n : PortN) (within1s : Bool) : State :=
  errRetrain (portEvt s n 0x0200#16) n 3 within1s

/-- Row ERROR_BURST (R72): electrical ports only.  `within1s`: ACTIVE began less than 1 s ago. -/
def execErrorBurst (n : PortN) (within1s : Bool) (s : State) : Outcome :=
  onLink s fun s => whenDo (isUp s.ports[n] && !s.ports[n].optical) (errorRetrain · n within1s) s

/-- Row ERROR_RATE (R72). -/
def execErrorRate (n : PortN) (within1s : Bool) (s : State) : Outcome :=
  onLink s fun s => whenDo (isUp s.ports[n] && !s.ports[n].flooding) (errorRetrain · n within1s) s

/-- PORT_CTRL.RETRAIN = 1 (R72, R73, When events coincide).  It reads 1 while the retrain it started runs: a port
that a hold takes to DETECT, or that ends in FAILED, has none (R8). -/
def retrainWrite (s : State) (n : PortN) : State :=
  let p := s.ports[n]
  let s1 := modPort s n fun q => { q with cap := 4 }
  let mark (t : State) : State := modPort t n fun q => { portAlign q with retrain := true }
  match p.st with
  | .paddle => modPort (retrain s1 n 5) n fun q => { q with retrain := decide (q.st = .align) }
  | .active => modPort (retrain s1 n 5) n fun q => { q with retrain := decide (q.st = .align) }
  | .align => if p.retrain then s1 else mark s1
  | .caps => if p.retrain then s1 else mark s1
  | .switch => if p.retrain then s1 else mark s1
  | .ralign => if p.retrain then s1 else mark s1
  | .trial => if p.retrain then s1 else mark s1
  | .failed => toDetect s1 n false
  | _ => s1

/-- PORT_CTRL.CNT_CLR = 1. -/
def portCntClr (s : State) (n : PortN) : State :=
  modPort s n fun p => { p with hdrErr := 0, crcErr := 0, codeErr := 0, floodEp := 0, floodDisc := 0 }

/-! ## Floods (R74) -/

/-- A packet lost to a flood counts in PORT_FLOOD.DISCARDS (R74). -/
def floodDrop (s : State) (n : PortN) : State :=
  modPort s n fun p => { p with floodDisc := satInc 255 p.floodDisc }

/-- A flood episode starts on an optical port, or FLD joins one that runs. -/
def floodStart (s : State) (n : PortN) (fldHigh : Bool) : State :=
  let p := s.ports[n]
  if !p.optical then s
  else if p.flooding then modPort s n fun q => { q with fld := q.fld || fldHigh }
  else
    let s1 := modPort s n fun q =>
      { q with
        flooding := true
        fld := fldHigh
        floodEp := satInc 255 q.floodEp }
    let s2 := match rxGood p with
      | some r => floodDrop (spoilRx s1 n r.pid 2) n
      | none => s1
    portEvt s2 n 0x0010#16

/-- Row FLOOD_START (R74): `fldHigh` says that FLD asserted, otherwise errored words started it. -/
def execFloodStart (n : PortN) (fldHigh : Bool) (s : State) : Outcome :=
  onLink s fun s => floodStart s n fldHigh

/-- Row FLOOD_END (R74, R61). -/
def execFloodEnd (n : PortN) (s : State) : Outcome :=
  onLink s fun s => whenDo s.ports[n].flooding
    (fun s => wantTally (modPort s n fun p => { p with flooding := false, fld := false }) n) s

/-- Row FLOOD_TIMEOUT (R74, R72): FLOODX, FLOOD_RETRAIN, and a retrain with reason 4. -/
def execFloodTimeout (n : PortN) (within1s : Bool) (s : State) : Outcome :=
  onLink s fun s => whenDo (s.ports[n].flooding && isUp s.ports[n])
    (fun s => errRetrain (bbLink (portEvt s n 0x0020#16) 0x32 n.val (portFlood s.ports[n]) 0#16)
      n 4 within1s) s

/-! ## Disabling and enabling (R76, R77) -/

/-- UP's hold has ended: EV_RESUME is raised (R176).  The entry of the Link die is written when the event
reaches it. -/
def upResumed (s : State) : State :=
  let s1 := raise { s with aon := { s.aon with bcnSeen := false } } { code := 0x12, src := 0 }
  if linkOn s then bbLink s1 0x36 0 0#16 0#16 else s1

/-- The rate of a port's TS_DIS sets: the rate it transmits at, but Paddle where it is not word-aligned (R76).
DESIGN CHOICE: in RALIGN no word of the table says when the port has aligned at the trial rate; before its first
TS_READY that is a free value (log entry 151). -/
def disRate (s : State) (n : PortN) : Nat :=
  let p := s.ports[n]
  if p.st = .ralign && p.setRx = 0 && !Config.trialAligned s.fresh then 1 else txRate s n

/-- PORT_CTRL.EN = 0 (R76): DISABLING from any state; in DISABLING a deferred enable is cancelled.  DESIGN CHOICE:
a held UP that is disabled ends its hold, which raises EV_RESUME (R176) and resumes no quiet port: of the ends
without a beacon R177 names SD alone (log entry 154). -/
def portOff (s : State) (n : PortN) : State :=
  match s.ports[n].st with
  | .disabled => modPort s n fun p => { p with en := false }
  | .disabling => modPort s n fun p => { p with en := false, defer := false }
  | _ =>
    let r := disRate s n
    let s1 := bump (forEach [1, 2, 3, 4] (fun a (_ : Nat) => putTsAt a n r .dis 0#16 0#16) (endTx s n 3))
    let s2 := if isUp s1.ports[n] then linkDown s1 n 8 else s1
    let s3 := modAon (modPort s2 n fun p =>
      { portDetect false p with st := .disabling, en := false, defer := false, ptx := 0, ntx := 0 }) n
      fun a => { a with hold := .none }
    if h : n.val = 0 then (if s.aon.ports[n].hold = .none then s3 else upResumed s3) else surveyDetach s3 ⟨n.val - 1, by omega⟩

/-- The port leaves DISABLED: DETECT, or a hold that needs no IDL while SUSP = 1 (R77, R172). -/
def leaveDisabled (s : State) (n : PortN) : State :=
  toDetect (modPort s n fun p => { p with en := true, defer := false }) n false

/-- PORT_CTRL.EN = 1 (R76, R77). -/
def portOnWrite (s : State) (n : PortN) : State :=
  match s.ports[n].st with
  | .disabled => leaveDisabled s n
  | .disabling => modPort s n fun p => { p with en := true, defer := true }
  | _ => modPort s n fun p => { p with en := true }

/-- A write of PORT_CTRL.EN. -/
def portEnWrite (s : State) (n : PortN) (v : Bool) : State := if v then portOnWrite s n else portOff s n

/-- Row DISABLE_DONE (R76, R77): credits are reset and DISABLED is reached. -/
def execDisableDone (n : PortN) (s : State) : Outcome :=
  onLink s fun s => whenDo (s.ports[n].st = .disabling) (fun s =>
    let s1 := modPort s n fun p => { p with st := .disabled, ptx := 0, ntx := 0 }
    if s.ports[n].defer then leaveDisabled s1 n else s1) s

/-! ## Credits, skips and fragments (R56 to R61) -/

/-- A CRD word: a count of 0 is a code violation (R52, R61). -/
def crdRx (s : State) (n : PortN) (param : Word) : State :=
  let k := fld param 0 4
  if k = 0 then codeViolated s n
  else if !isUp s.ports[n] then s
  else modPort s n fun p =>
    let q := addCredits (bit param 7) k p
    if bit param 7 then { q with gotN := (q.gotN + k) % 65536 }
    else { q with gotP := (q.gotP + k) % 65536 }

/-- Row CRD_RX (R61, R88). -/
def execCrdRx (n : PortN) (param : Word) (s : State) : Outcome :=
  onLink s fun s => onRx n (crdRx · n param) s

/-- Row TS_TALLYREQ_RX (R61). -/
def execTsTallyreqRx (n : PortN) (x : TsSet) (s : State) : Outcome :=
  onLink s fun s => onTs n .tallyReq x.a0 x.a1 x.chk (whenDo (isUp s.ports[n]) fun s =>
    sendTs s n .tally (w16 s.ports[n].retP) (w16 s.ports[n].retN)) s

/-- The difference between a tally and the credits received is added (R61). -/
def tallyRx (a0 a1 : Word) (p : Port) : Port :=
  let dP := (a0 - w16 p.gotP).toNat
  let dN := (a1 - w16 p.gotN).toNat
  { addCredits true dN (addCredits false dP p) with gotP := a0.toNat, gotN := a1.toNat }

/-- Row TS_TALLY_RX (R61). -/
def execTsTallyRx (n : PortN) (a0 a1 chk : Word) (s : State) : Outcome :=
  onLink s fun s => onTs n .tally a0 a1 chk (whenDo (isUp s.ports[n]) fun s => modPort s n (tallyRx a0 a1)) s

/-- Port n's transmitter sends words: neither off nor dark nor held (R67, R169, R182). -/
def txOn (s : State) (n : PortN) : Bool :=
  let p := s.ports[n]
  linkOn s && p.st != .disabled && p.st != .disabling && !p.dark && s.aon.ports[n].hold != .held &&
    (p.st != .detect || (if h : n.val = 0 then true else powerGood s ⟨n.val - 1, by omega⟩))

/-- Row SKP_SEND (R56). -/
def execSkpSend (n : PortN) (s : State) : Outcome :=
  onLink s fun s => whenDo (txOn s n) (fun s => emit s (.skp n)) s

/-- A packet being received is treated as malformed: CRC counts, started copies end with EAB,
reason 1; one that has been discarded already counts no more (R86). -/
def malformRx (s : State) (n : PortN) : State :=
  let s1 := modPort s n fun p => { p with crcErr := satInc 255 p.crcErr }
  match rxGood s.ports[n] with
  | some r => spoilRx s1 n r.pid 1
  | none => if s.ports[n].rxCur.isNone then s1 else s

/-- The packet that port n is receiving is suspended after `words` more of its words (R58, R59). -/
def suspendRx (words pid : Nat) (p : Port) : Port :=
  { p with
    rxSusp := some pid
    rxCur := none
    rx := p.rx.map fun r => if r.pid = pid then { r with got := r.got + words } else r }

/-- PRE suspends a non-periodic packet on a link with fragments, else it is a code violation that
leaves the packet it interrupted malformed (R58).  `came`: as in the row. -/
def preRx (s : State) (n : PortN) (came : Option Nat) : State :=
  let p := s.ports[n]
  match rxGood p with
  | some r =>
    if fragOn p && came.isSome && p.rxSusp.isNone && !r.hdr.pcls then modPort s n (suspendRx (came.getD 0) r.pid)
    else malformRx (codeViolated s n) n
  | none => if came.isNone then malformRx (codeViolated s n) n else codeViolated s n

/-- Row PRE_RX (R58). -/
def execPreRx (n : PortN) (came : Option Nat) (s : State) : Outcome :=
  onLink s fun s => onRx n (preRx · n came) s

/-- The suspended packet is discarded, and the mismatch counted (R59). -/
def rsmLost (s : State) (n : PortN) : State :=
  match s.ports[n].rxSusp with
  | some pid => spoilRx (countCode s n) n pid 3
  | none => s

/-- RSM and its offset word (R58, R59). -/
def rsmRx (s : State) (n : PortN) (off : Word) : State :=
  let p := s.ports[n]
  match p.rxSusp with
  | none => codeViolated s n
  | some pid =>
    if (rxGood p).isSome then codeViolated s n
    else if (findRx p pid).any fun r => r.got = off.toNat then
      modPort s n fun q =>
        { q with
          rxCur := some pid
          rxSusp := none
          rx := q.rx.map fun r => if r.pid = pid then { r with since := now s } else r }
    else rsmLost s n

/-- Row RSM_RX (R58, R59): an RSM inside a flood is lost, and with it the packet (When events coincide). -/
def execRsmRx (n : PortN) (off : BitVec 10) (top : BitVec 6) (s : State) : Outcome :=
  onLink s fun s =>
    if s.ports[n].flooding then
      (if s.ports[n].rxSusp.isSome then floodDrop (rsmLost s n) n else s)
    else rsmRx s n (top ++ off)

/-- Row RECEIVE_WITHOUT_CREDIT (R281). -/
def execReceiveWithoutCredit (n : PortN) (s : State) : Outcome :=
  onLink s fun s => onRx n (fun s => malformRx (countCode s n) n) s

/-- A control word stands where R55 does not let it: IDL or a training set inside a packet, EOP or EAB
outside one.  SOP, PRE, RSM and the sets have rows of their own. -/
def misplaced (p : Port) : RxUnit → Bool
  | .control .idl _ => (rxGood p).isSome
  | .control .eop _ => p.rxCur.isNone
  | .control .eab _ => p.rxCur.isNone
  | .control .trn _ => tsMisplaced p
  | _ => false

/-- Row CODE_VIOLATION (R50 to R53, R55, R61): what has been received is errored, or misplaced. -/
def execCodeViolation (x : RxAt) (s : State) : Outcome :=
  onLink s fun s =>
    onRx x.port (whenDo (codeBad x.word || misplaced s.ports[x.port] x.word) (codeViolated · x.port)) s

end Sys2Proof.Machine
end

