-- ==== Sys2Proof/Machine/Local.lean ====
section
/-! DEFINITION. The local node (chapter 10): endpoint memory, the single buffer of an endpoint, what
completes a transfer descriptor, and the answers to the root (R226 to R237). -/

namespace Sys2Proof.Machine

open Sys2Proof

/-! ## Payload bytes -/

/-- The data bytes of a payload: two per word, high byte first, the pad byte left out (R80). -/
def payloadBytes (p : Pkt) : List Nat :=
  (bytesBE p.payload).take (2 * p.payload.length - if p.hdr.odd then 1 else 0)

/-- Words of bytes, high byte first, a pad byte of 0 at the end (R80). -/
def wordsOfBytes : List Nat → List Word
  | [] => []
  | [a] => [w16 (a * 256)]
  | a :: b :: t => w16 (a * 256 + b) :: wordsOfBytes t

/-- The endpoint that a header names. -/
def epIdx (h : Hdr) : EpN := h.endp.toFin

/-! ## Completions held back (R224) -/

/-- The event queue of domain d beyond what the ring can take now (R224). -/
def evWaiting (s : State) (d : DomN) : List EvQ := s.doms[d].evq.drop (evRoom s d)

/-- The endpoint's completion waits for event-ring space, so it takes no further descriptor (R224). -/
def epStalled (s : State) (k : EpN) : Bool :=
  (evWaiting s s.ln.eps[k].owner).any fun q => q.ev.code = 1 && q.ev.src = k.val

/-- The data of a read of endpoint k that is under way is no longer wanted. -/
def voidReads (s : State) (f : ReadUse → Bool) : State :=
  { s with pcie := { s.pcie with reads := s.pcie.reads.map fun x => if f x.use then { x with n := 0 } else x } }

/-- Up to two descriptors are kept fetched ahead (R221). -/
def askDesc (s : State) (k : EpN) : State :=
  let e := s.ln.eps[k]
  if ringRuns s k && (fetched e).length < 2 && e.next != e.pi && !epStalled s k then
    askRead s e.owner.val e.owner (.descriptor k)
  else s

/-! ## Completions (R220, R221, R234) -/

/-- EV_XFER to the owner of endpoint k. -/
def xferEvent (s : State) (k : EpN) (status : Nat) (count : Word) (bytes : Nat) (tag : BitVec 7)
    (cue late : Bool) : State :=
  raiseDom s s.ln.eps[k].owner false
    { code := 0x01, src := k.val, w1 := orAll [atFld status 0 4, atBit cue 4, atBit late 5],
      w2 := count, w3 := w16 bytes, w4 := w16 tag.toNat, w5 := wordOf s.tb.stroke.toNat 0 }

/-- A descriptor completes: with IOC = 0 an OK completion writes no event (R220). -/
def completeDesc (s : State) (k : EpN) (d : Desc) (status bytes : Nat) (tag : BitVec 7)
    (cue late : Bool) : State :=
  if status = 0 && !bit d.w[5] 4 then s else xferEvent s k status d.count bytes tag cue late

/-- The oldest descriptor completes (R221). -/
def completeHead (s : State) (k : EpN) (status bytes : Nat) (cue late : Bool) : State :=
  match s.ln.eps[k].descs with
  | [] => s
  | d :: t =>
    completeDesc (modEp s k fun e => { e with descs := t, asked := 0, moved := 0 }) k d status bytes
      s.ln.eps[k].tag cue late

/-! ## What an endpoint's ring goes on with (R220, R221) -/

/-- A transfer descriptor that R220 allows on the endpoint. -/
def descOk (e : Ep) (x : Desc) : Bool :=
  match descOp x with
  | 1 => (e.typ = 0 || !e.dirIn) && descLen x ≤ 1024
  | 2 => (e.typ = 0 || e.dirIn) && descLen x ≤ e.size
  | 3 => e.typ = 0 && descLen x ≤ 1024
  | 4 => e.typ = 0 && descLen x ≤ 1024
  | _ => false

/-- A bad descriptor at the head completes with BADDESC, and the ring carries on (R220); while its event
waits the endpoint takes no further one (R224). -/
def dropBad (s : State) (k : EpN) : State :=
  let e := s.ln.eps[k]
  if !epStalled s k && (e.descs.head?).any (fun x => !descOk e x) then completeHead s k 5 0 false false else s

/-- Data of a SEND arrives in the buffer, `off` bytes from its start. -/
def putData (s : State) (k : EpN) (off : Nat) (bytes : List Nat) : State :=
  { s with ln := { s.ln with mem := memWrite s.ln.mem (bufAddr s.ln.eps[k] + off) bytes } }

/-- The last byte of a SEND of `n` bytes is in the buffer, which is full (R221). -/
def fillBuf (s : State) (k : EpN) (n : Nat) : State :=
  modEp s k fun e =>
    { e with full := true, sent := false, len := n, inData := true, setup := false, cue := false }

/-- The oldest descriptor's own work: the data of a SEND into an empty buffer, the drain of a full
one into a RECV (R221).  A SEND of no bytes needs no read. -/
def askData (s : State) (k : EpN) : State :=
  let e := s.ln.eps[k]
  if epStalled s k then s
  else match e.descs with
    | [] => s
    | x :: _ =>
      if descOp x = 2 && descLen x = 0 && !e.full && ringRuns s k then fillBuf s k 0
      else if sendWanted s k then askRead s e.owner.val e.owner (.sendData k)
      else if drainWanted s k && drainLen e != 0 then hmaAsk s (8 + e.owner.val) (.drain e.owner k)
      else s

/-- The endpoint asks for what it can go on with (R221). -/
def epAsk (s : State) (k : EpN) : State :=
  let s1 := if ringRuns s k then dropBad s k else s
  askData (askDesc s1 k) k

/-- Every fetched descriptor completes with one status, those of PINDs on their way included; the oldest that
waits is the held cue's, if there is one (R234, R237). -/
def completeAll (s : State) (k : EpN) (status : Nat) : State :=
  let e := s.ln.eps[k]
  forEach (e.flight.map (fun x => (x.1, false)) ++ e.descs.mapIdx fun i d => (d, e.cueHeld && i == 0))
    (fun a x => completeDesc a k x.1 status 0 e.tag x.2 false)
    (voidReads (modEp s k fun x => { x with descs := [], flight := [], asked := 0, moved := 0 })
      fun u => u = .sendData k)

/-- The buffer empties (R236). -/
def emptied (e : Ep) : Ep :=
  { e with full := false, sent := false, len := 0, setup := false, cue := false, cueHeld := false,
           crew := none, drained := false, late := false, inData := false, asked := 0, moved := 0 }

/-- Empty the buffer of endpoint k, and go on with the ring. -/
def emptyEp (s : State) (k : EpN) : State := epAsk (modEp s k emptied) k

/-- End an endpoint's work: fetched descriptors complete, the buffer empties, and a drain of it that was granted
is withdrawn (R226, R236, R237). -/
def stopEp (s : State) (k : EpN) (status : Nat) : State := modEp (completeAll (cutDrain s k) k status) k emptied

/-- What a tree or port reset does to every endpoint (R237). -/
def localBusReset (s : State) : State :=
  forEach epAll (fun a k => epAsk (modEp (stopEp a k 2) k fun e =>
    { e with halt := false, seqValid := false, ans := .none, stage := 0 }) k) s

/-- Sent data is confirmed: the SEND completes with OK and the buffer empties (R231). -/
def confirm (s : State) (k : EpN) : State := emptyEp (completeHead s k 0 s.ln.eps[k].len false false) k

/-- Store a packet's data in the buffer.  The data of a SEND that is being fetched is not wanted any more: it is
fetched again once the buffer is empty (R221, R236). -/
def storeBuf (s : State) (k : EpN) (p : Pkt) (isSetup : Bool) : State :=
  let bs := payloadBytes p
  let a := bufAddr s.ln.eps[k]
  let s1 := voidReads { s with ln := { s.ln with mem := memWrite s.ln.mem a bs } } fun u => u = .sendData k
  modEp s1 k fun e =>
    { e with full := true, sent := false, len := bs.length, setup := isSetup, cue := cueBit p.hdr,
             cueHeld := false, crew := none, drained := false, late := false, inData := false, asked := 0,
             moved := 0, tag := p.hdr.tag,
             stroke := s.tb.stroke.toNat }

/-! ## Answers (R230) -/

/-- Hand an answer of endpoint k to ULA requester 20 + d (R229). -/
def lnSend (s : State) (k : EpN) (p : Pkt) (act : OnEop) : State :=
  ulaPush s (20 + s.ln.eps[k].owner.val) (ownTx p act)

/-- Record an answer other than NAK (R230). -/
def noteAns (s : State) (k : EpN) (tag : BitVec 7) (a : EpAns) : State :=
  modEp s k fun e => { e with seqTag := tag, seqValid := true, ans := a }

/-- Answer with a handshake. -/
def lnHshk (s : State) (k : EpN) (h : Hdr) (code : Nat) : State := lnSend s k (hshk h code []) .none

/-- Answer ACK. -/
def lnAck (s : State) (k : EpN) (h : Hdr) : State := noteAns (lnHshk s k h 0x01) k h.tag .ack

/-- Answer NAK. -/
def lnNak (s : State) (k : EpN) (h : Hdr) : State := lnHshk s k h 0x02

/-- Answer STALL. -/
def lnStall (s : State) (k : EpN) (h : Hdr) : State := noteAns (lnHshk s k h 0x03) k h.tag .stall

/-- A retry recognised: the same answer once more (R102). -/
def lnRetry (s : State) (k : EpN) : State := modEp s k fun e => { e with retries := satInc 255 e.retries }

/-- The TAG is new at the endpoint (R230). -/
def isNew (e : Ep) (h : Hdr) : Bool := !e.seqValid || e.seqTag != h.tag

/-- The data in the buffer as a packet of type `typ` in answer to `h`. -/
def dataPkt (s : State) (k : EpN) (h : Hdr) (typ : BitVec 4) : Pkt where
  hdr := { h with typ := typ, odd := decide (s.ln.eps[k].len % 2 = 1), hop := 0#10, tsb := 0#8 }
  payload := wordsOfBytes (memRead s.ln.mem (bufAddr s.ln.eps[k]) s.ln.eps[k].len)

/-- The first packet in the inbox that `f` names, and the state without it. -/
def takeInbox (s : State) (f : Inbox → Bool) : Option (Inbox × State) :=
  (s.bus.inbox.find? f).map fun x =>
    (x, { s with bus := { s.bus with inbox := s.bus.inbox.eraseP f } })

/-- A packet for the local node of a type that `f` accepts. -/
def forLocal (f : Pkt → Bool) (x : Inbox) : Bool := x.dest = .loc && f x.pkt

/-- The answer of an endpoint whose owner is being torn down: NAK, EMPTY to PINQ, a POUT discarded
without counting it (R246).  A SETUP is never answered with NAK (R103, R4).  DESIGN CHOICE: it draws STALL (log
entry 118). -/
def tornAnswer (s : State) (x : Inbox) (k : EpN) : State :=
  let h := x.pkt.hdr
  if x.mc || h.typ = 6#4 then s
  else if h.typ = 0#4 then lnStall s k h
  else if h.typ = 7#4 then noteAns (lnHshk s k h 0x06) k h.tag .data
  else lnNak s k h

/-- The endpoint answers as R246 step 3 states: each one that the domain owns, enabled or not. -/
def isTorn (s : State) (k : EpN) : Bool := s.doms[s.ln.eps[k].owner].st = .teardown

/-- The answers of endpoint k's owner have a place in the queue of ULA requester 20 + d, which has 8
(R240). -/
def answerRoom (s : State) (k : EpN) : Bool := (vAt s.ula.reqs [] (20 + s.ln.eps[k].owner.val)).length < 8

/-- The packet may be taken: it draws no answer, or the answer has a place; one whose owner's queue is full
keeps no other domain's waiting (R230, R235, R240). -/
def mayTake (s : State) (x : Inbox) : Bool :=
  !s.ln.en || x.mc || x.pkt.hdr.typ = 6#4 || answerRoom s (epIdx x.pkt.hdr)

/-- Take the oldest packet for the local node that `f` accepts and that may be taken, and act on it (R240).  A node that is not enabled is absent: what still waits for it is discarded
(R226). -/
def onLocal (f : Pkt → Bool) (act : State → Inbox → EpN → State) (s : State) : State :=
  match takeInbox s (fun x => forLocal f x && mayTake s x) with
  | none => s
  | some (x, s1) =>
    let k := epIdx x.pkt.hdr
    if !s1.ln.en then s1
    else if isTorn s1 k then tornAnswer s1 x k
    else act s1 x k

/-- A type that some endpoint serves; others draw STALL or nothing (R94, R101). -/
def localTakes (h : Hdr) : Bool :=
  h.typ.toNat ≤ 4 || h.typ = 6#4 || h.typ = 7#4

/-- A request of a type that no endpoint serves (R94, R101). -/
def unserved (x : Inbox) : Bool := x.dest = .loc && !localTakes x.pkt.hdr

/-- The oldest request of a type that no endpoint serves whose answer has a place draws STALL, or NAK in a
teardown (R94, R240, R246). -/
def serveOther (s : State) : State :=
  match takeInbox s (fun x => unserved x && mayTake s x) with
  | none => s
  | some (x, s1) =>
    let k := epIdx x.pkt.hdr
    if !s1.ln.en then s1 else if isTorn s1 k then tornAnswer s1 x k else lnStall s1 k x.pkt.hdr

/-- Such requests are answered as far as the places of their owners go. -/
def serveOthers (s : State) : State := forEach (List.range 8) (fun a _ => serveOther a) s

/-- A request with a new TAG confirms sent data, and the buffer empties (R231). -/
def confirmNew (s : State) (k : EpN) (h : Hdr) : State :=
  if s.ln.eps[k].sent && isNew s.ln.eps[k] h then confirm s k else s

/-- STALL to a request, which confirms sent data if its TAG is new (R230, R231). -/
def stallNew (s : State) (k : EpN) (h : Hdr) : State := lnStall (confirmNew s k h) k h

/-- SEND, STATUS_OK or STATUS_STALL: what a SETUP ends (R232). -/
def endedBySetup (d : Desc) : Bool := descOp d = 2 || descOp d = 3 || descOp d = 4

/-- SETUP to endpoint 0 (R230, R232); to another endpoint, or not of 8 bytes, it draws STALL.  A retry of
one that drew ACK draws ACK; after a STALL the SETUP is acted on, since an endpoint enabled meanwhile takes
every SETUP (R230).  DESIGN CHOICE, log entry 119. -/
def setupAct (s : State) (x : Inbox) (k : EpN) : State :=
  let e := s.ln.eps[k]
  let h := x.pkt.hdr
  if x.mc then s
  else if !e.en || k != 0 || x.pkt.payload.length != 4 || h.odd then stallNew s k h
  else if !isNew e h && e.ans = .ack then lnAck (lnRetry s k) k h
  else
    let out := e.descs.filter endedBySetup
    let s1 := modEp (cutDrain s k) k fun e =>
      { emptied e with
        setupLost := if e.full && e.setup then satInc 15 e.setupLost else e.setupLost
        halt := false
        descs := e.descs.filter fun d => !endedBySetup d
        stage := if wAt x.pkt.payload 3 = 0#16 then 2 else 1 }
    let s2 := forEach out (fun a d => completeDesc a k d 3 0 e.tag false false)
      (voidReads s1 fun u => u = .sendData k)
    epAsk (lnAck (storeBuf s2 k x.pkt true) k h) k

/-- Row LOCAL_SETUP (R232). -/
def execLocalSetup (s : State) : Outcome :=
  onLink s fun s => onLocal (fun p => p.hdr.typ = 0#4) setupAct s

/-- The endpoint takes OUT data of this type: CDATA on the control endpoint, BOUT on a bulk OUT one. -/
def takesOut (e : Ep) (p : Pkt) : Bool :=
  if p.hdr.typ = 1#4 then e.typ = 0 else e.typ = 1 && !e.dirIn

/-- A multicast or broadcast BOUT is stored only if the buffer is empty; otherwise it overruns, and
it is never answered (R235).  A packet that the endpoint does not take is discarded. -/
def groupStore (s : State) (k : EpN) (p : Pkt) : State :=
  let e := s.ln.eps[k]
  if !e.en || e.halt || !takesOut e p || e.size < (payloadBytes p).length then s
  else if e.full then
    modEp s k fun e => { e with overrun := satInc 255 e.overrun }
  else epAsk (storeBuf s k p false) k

/-- NAK to a request with a new TAG; sent data is confirmed by it, and the buffer empties (R231). -/
def confirmNak (s : State) (k : EpN) (h : Hdr) : State :=
  lnNak (confirmNew s k h) k h

/-- A BOUT, or a CDATA with data (R230).  An endpoint that is halted or not enabled answers STALL, to a
retry of a request that it answered before as well.  DESIGN CHOICE, log entry 119. -/
def outAct (s : State) (x : Inbox) (k : EpN) : State :=
  let e := s.ln.eps[k]
  let h := x.pkt.hdr
  if x.mc then (if h.typ = 3#4 then groupStore s k x.pkt else s)
  else if !e.en || e.halt || !takesOut e x.pkt || e.size < (payloadBytes x.pkt).length then stallNew s k h
  else if !isNew e h && e.ans = .ack then lnAck (lnRetry s k) k h
  else if !isNew e h && e.ans = .stall then lnStall (lnRetry s k) k h
  else if e.full then confirmNak s k h
  else epAsk (lnAck (storeBuf s k x.pkt false) k h) k

/-- Row LOCAL_OUT_DATA (R230, R102). -/
def execLocalOutData (s : State) : Outcome :=
  onLink s fun s => onLocal (fun p => p.hdr.typ = 3#4 || (p.hdr.typ = 1#4 && !p.payload.isEmpty)) outAct s

/-- The endpoint takes IN requests of this type. -/
def takesIn (e : Ep) (p : Pkt) : Bool :=
  p.payload.isEmpty && if p.hdr.typ = 1#4 then e.typ = 0 else e.typ = 1 && e.dirIn

/-- The type that answers an IN request with data: CDATA or BIND. -/
def inType (h : Hdr) : BitVec 4 := if h.typ = 1#4 then 1#4 else 5#4

/-- A BINQ, or an empty CDATA (R230, R231). -/
def inAct (s : State) (x : Inbox) (k : EpN) : State :=
  let e := s.ln.eps[k]
  let h := x.pkt.hdr
  if x.mc then s
  else if !e.en || e.halt || !takesIn e x.pkt then stallNew s k h
  else if !isNew e h && e.ans = .stall then lnStall (lnRetry s k) k h
  else if !isNew e h && e.sent then lnSend (lnRetry s k) k (dataPkt s k h (inType h)) .none
  else if !isNew e h then lnNak s k h
  else if e.full && !e.sent && e.inData then
    noteAns (modEp (lnSend s k (dataPkt s k h (inType h)) .none) k fun e =>
      { e with sent := true, tag := h.tag }) k h.tag .data
  else confirmNak s k h

/-- Row LOCAL_IN_REQUEST (R230, R231). -/
def execLocalInRequest (s : State) : Outcome :=
  onLink s fun s => onLocal (fun p => p.hdr.typ = 4#4 || (p.hdr.typ = 1#4 && p.payload.isEmpty)) inAct s

/-- A CSTAT that is no retry: the oldest descriptor decides, since descriptors are consumed in ring order
(R221, R230, R232); while a completion of the endpoint waits it takes none (R224). -/
def cstatNew (s : State) (k : EpN) (h : Hdr) : State :=
  let idle (t : State) : State := modEp t k fun e => { e with stage := 0, tag := h.tag }
  match if epStalled s k then none else (s.ln.eps[k].descs.head?).map descOp with
  | some 3 => epAsk (completeHead (idle (noteAns (lnSend s k
      { hdr := { h with hop := 0#10, tsb := 0#8 }, payload := [] } .none) k h.tag .cstat)) k 0 0 false false) k
  | some 4 => epAsk (completeHead (idle (lnStall s k h)) k 0 0 false false) k
  | _ => lnNak (modEp s k fun e => { e with stage := if e.stage = 0 then 0 else 2 }) k h

/-- A CSTAT (R230, R232): one with a new TAG confirms sent data first (R231). -/
def cstatAct (s : State) (x : Inbox) (k : EpN) : State :=
  let e := s.ln.eps[k]
  let h := x.pkt.hdr
  if x.mc then s
  else if !e.en || e.halt || k != 0 || !x.pkt.payload.isEmpty then stallNew s k h
  else if !isNew e h && e.ans = .cstat then
    lnSend (lnRetry s k) k { hdr := { h with hop := 0#10, tsb := 0#8 }, payload := [] } .none
  else if !isNew e h && e.ans = .stall then lnStall (lnRetry s k) k h
  else cstatNew (confirmNew s k h) k h

/-- Row LOCAL_CSTAT (R230, R232). -/
def execLocalCstat (s : State) : Outcome :=
  onLink s fun s => onLocal (fun p => p.hdr.typ = 2#4) cstatAct s

/-- A PINQ (R230). -/
def pinqAct (s : State) (x : Inbox) (k : EpN) : State :=
  let e := s.ln.eps[k]
  let h := x.pkt.hdr
  if x.mc then s
  else if !e.en || e.halt || !(e.typ = 2 && e.dirIn) || !x.pkt.payload.isEmpty then stallNew s k h
  else if e.full then
    let s1 := lnSend s k (dataPkt s k h 8#4) (.pindSent k)
    let s2 := modEp s1 k fun e =>
      { emptied e with
        flight := e.flight ++ (e.descs.take 1).map fun d => (d, e.len, h.tag)
        descs := e.descs.drop 1
        tag := h.tag }
    epAsk (noteAns s2 k h.tag .data) k
  else noteAns (lnHshk s k h 0x06) k h.tag .data

/-- Row LOCAL_PINQ (R230). -/
def execLocalPinq (s : State) : Outcome :=
  onLink s fun s => onLocal (fun p => p.hdr.typ = 7#4) pinqAct s

/-- The PIND of endpoint k has left: its SEND completes with OK (R230). -/
def pindLeft (s : State) (k : EpN) : State :=
  match s.ln.eps[k].flight with
  | [] => s
  | (d, n, tag) :: t => epAsk (completeDesc (modEp s k fun e => { e with flight := t }) k d 0 n tag false false) k

/-- Row CONFIRM_TIMEOUT (R231). -/
def execConfirmTimeout (k : EpN) (s : State) : Outcome :=
  onLink s fun s => whenDo s.ln.eps[k].sent (confirm · k) s

/-- Row EP_MISSED (R233). -/
def execEpMissed (k : EpN) (s : State) : Outcome :=
  onLink s fun s => whenDo (s.ln.eps[k].typ = 2 && s.ln.eps[k].period != 0 && s.ln.eps[k].full)
    (fun s => modEp s k fun e => { e with missed := satInc 15 e.missed }) s

/-! ## Draining (R221, R232, R234) -/

/-- Status of a drained RECV: SETUP, OVERFLOW or OK.  DESIGN CHOICE: a RECV of fewer than 8 bytes that drains a
SETUP completes with OVERFLOW and the bytes that it takes (R220, R232; log entry 161). -/
def drainStatus (e : Ep) (d : Desc) : Nat := if descLen d < e.len then 4 else if e.setup then 1 else 0

/-- The last write of the drain of endpoint k has been issued: the RECV completes and the buffer empties,
but for a held cue, which waits for its catch (R221, R234). -/
def drained (s : State) (k : EpN) : State :=
  let e := s.ln.eps[k]
  match e.descs with
  | [] => s
  | x :: _ =>
    if e.cueHeld then modEp s k fun e => { e with drained := true, moved := 0 }
    else emptyEp (completeHead s k (drainStatus e x) (drainLen e) e.cue e.late) k

/-- The drain of endpoint k ends: with the last write that the HMA granted it, or at once when it moves no
byte (R221). -/
def drain (s : State) (k : EpN) : State :=
  let e := s.ln.eps[k]
  let q := HReq.drain e.owner k
  if pathHeld s q && e.full then drained (issueLast s (8 + e.owner.val) q) k
  else if drainWanted s k && drainLen e = 0 && !epStalled s k then drained s k
  else s

/-- Row RECV_DRAIN (R221, R234, R244). -/
def execRecvDrain (k : EpN) (s : State) : Outcome := onLink s (drain · k)

/-- A held cue of the local node is let go: at its catch its completion is written if its data has
reached the host, else the drain completes it, with LATE = 1 at a catch (R161, R234). -/
def cueDone (s : State) (k : EpN) (atCatch : Bool) : State :=
  let e := s.ln.eps[k]
  if !e.cueHeld then s
  else if e.drained then
    let st := match e.descs with
      | x :: _ => drainStatus e x
      | [] => 0
    emptyEp (completeHead s k st (drainLen e) true false) k
  else epAsk (modEp s k fun e => { e with cueHeld := false, crew := none, late := atCatch }) k

/-! ## LN_CTRL and EP_CFG writes (R226, R228, R236) -/

/-- LN_CTRL.EN = 1: refused while headless; a change sends a capability update (R226). -/
def lnEnable (s : State) : State :=
  if headless s || s.ln.en then s
  else forEach epAll epAsk (capUpdate { s with ln := { s.ln with en := true } } 0)

/-- LN_CTRL.EN = 0 (R226, R236). -/
def lnDisable (s : State) : State :=
  if !s.ln.en then s
  else
    let s1 := forEach epAll (fun a k => stopEp a k 3) s
    capUpdate { s1 with
      ln := { s1.ln with en := false }
      bus := { s1.bus with loc := 0xFFFE#16, inbox := s1.bus.inbox.filter fun x => x.dest != .loc } } 0

/-- Bytes that a buffer occupies (R228). -/
def bufBytes (size : Nat) : Nat := (size + 63) / 64 * 64

/-- The buffer of endpoint k passes the checks of R228. -/
def bufOk (s : State) (k : EpN) : Bool :=
  let e := s.ln.eps[k]
  bufAddr e + bufBytes e.size ≤ 32768 &&
  !(e.typ = 2 && 1012 < e.size) &&
  epAll.all fun j =>
    let o := s.ln.eps[j]
    j = k || !o.en || bufAddr o + bufBytes o.size ≤ bufAddr e || bufAddr e + bufBytes e.size ≤ bufAddr o

/-- EP_CFG.EN from 0 to 1 (R228). -/
def epEnable (s : State) (k : EpN) : State :=
  if s.ln.eps[k].en then s
  else if bufOk s k then epAsk (modEp s k fun e => { e with en := true }) k
  else modEp s k fun e => { e with allocErr := true }

/-- EP_CFG.EN = 0: the buffer empties (R236). -/
def epDisable (s : State) (k : EpN) : State :=
  if s.ln.eps[k].en then
    voidReads (modEp (cutDrain s k) k fun e => { emptied e with en := false }) fun u => u = .sendData k
  else s

end Sys2Proof.Machine
end

