-- ==== Sys2Proof/Machine/Cue.lean ====
section
/-! DEFINITION. Crews and cues (R159 to R165): which crew holds an output's cues, the catch instant,
cues that are not held, and the release of held cues at a catch or before it. -/

namespace Sys2Proof.Machine

open Sys2Proof

/-- All crews. -/
def crewAll : List CrewN := List.finRange 8

/-- The outputs in a crew's mask: bit 0 the local node, bits 1 to 16 D1 to D16 (R159). -/
def crewHas (c : Crew) (out : Nat) : Bool := if out < 16 then bit c.mask0 out else bit c.mask1 (out - 16)

/-- The lowest-numbered enabled crew that an output belongs to (R159). -/
def crewOf (s : State) (out : Nat) : Option CrewN :=
  crewAll.find? fun k => s.tb.crews[k].en && crewHas s.tb.crews[k] out

/-- D: how far the catch stroke lies ahead of the current one, signed (R160). -/
def cueDist (s : State) (c : Nat) : Int := (BitVec.ofNat 32 c - s.tb.stroke).toInt

/-- The catch instant in ticks of TB_TIME (R160). -/
def catchInstant (s : State) (k : CrewN) (d : Int) : Int :=
  (s.tb.bound.toNat : Int) + d * (strokeTicks s.tb.len : Int) + (s.tb.crews[k].ofs.toNat : Int) * 16

/-- The flags of the cases in which a cue is not held: MISS, FAR, OVER, PASS at bits 8 to 11 (R162). -/
def cueFlags (s : State) (k : CrewN) (d : Int) (full : Bool) : Word :=
  orAll [atBit (decide (d ≤ 64) && (decide (d < 0) || decide (catchInstant s k d < (now s : Int) + 400))) 8,
    atBit (decide (64 < d)) 9, atBit full 10, atBit (!s.tb.locked && !s.tb.holdover) 11]

/-- Set a crew's flags and raise EV_CATCH_MISS (R162, R167). -/
def flagCrew (s : State) (k : CrewN) (f : Word) : State :=
  let s1 := modCrew s k fun c =>
    { c with miss := c.miss || bit f 8, far := c.far || bit f 9, ovr := c.ovr || bit f 10,
             pass := c.pass || bit f 11 }
  let w := crewCtrl s1 k
  bbLink (raise s1 { code := 0x09, src := k.val, w1 := w }) 0x43 k.val w 0#16

/-- What becomes of a cue when its trailer has passed (R160, R162). -/
inductive CueFate where
  /-- Held until the catch instant. -/
  | hold (k : CrewN) (at_ : Nat)
  /-- Not held, sent or delivered at once. -/
  | pass
  /-- Late, and discarded because CREW_CTRL.LATE = 1. -/
  | drop
  deriving DecidableEq, Repr

/-- Judge a cue for output `out`: its fate, and the state with the crew's flags (R160, R162). -/
def judgeCue (s : State) (out : Nat) (p : Pkt) (full : Bool) : CueFate × State :=
  match crewOf s out with
  | none => (.pass, s)
  | some k =>
    let d := cueDist s ((wAt p.payload 0).toNat * 65536 + (wAt p.payload 1).toNat)
    let f := cueFlags s k d full
    if f = 0#16 then (.hold k (catchInstant s k d).toNat, s)
    else if bit f 8 && s.tb.crews[k].late then (.drop, flagCrew s k f)
    else (.pass, flagCrew s k f)

/-- Words held for catches in a port's transmit queue (R162). -/
def heldWords (p : Port) : Nat := (p.txq.filter fun t => t.cue.isSome).foldl (fun a t => a + t.len) 0

/-- CUE_HOLD: the copies of cue `pid` that wait on Dm are judged once the trailer has passed (R160). -/
def settleCue (s : State) (m : DnN) (pid : Nat) : State :=
  let n := dnPort m
  let mine (t : TxPkt) : Bool := t.pid = pid && pid != 0 && cueBit t.pkt.hdr && t.done
  match s.ports[n].txq.find? mine with
  | none => s
  | some t =>
    let r := judgeCue s n.val t.pkt (decide (384 < heldWords s.ports[n] + t.len))
    match r.1 with
    | .hold k i => modPort r.2 n fun p =>
        { p with txq := p.txq.map fun x => if mine x then { x with cue := some (k, i) } else x }
    | .pass => r.2
    | .drop => sweepRx (modPort r.2 n fun p => { p with txq := p.txq.filter fun x => !mine x })

/-- The end of an inner POUT that its crew has released gives back chunks alone (R119, R123). -/
def releasedAct (slots : Vector (Option Slot) 48) (a : OnEop) : OnEop :=
  match a with
  | .innerSent j => .chunks ((slots[j].map (·.inCh)).getD 0)
  | a => a

/-- Cues held on Dm that `f` names start by rule 1 of R114, in the order they were accepted (R161). -/
def freeCues (slots : Vector (Option Slot) 48) (f : CrewN × Nat → Bool) (p : Port) : Port :=
  { p with txq := p.txq.map fun t =>
    if t.cue.any f then { t with cue := none, free := true, act := releasedAct slots t.act } else t }

/-- TT slot j holds an inner POUT that port p lets go of: the slot is free (R123). -/
def releasesSlot (f : CrewN × Nat → Bool) (j : Fin 48) (p : Port) : Bool :=
  p.txq.any fun t => t.cue.any f && t.act = .innerSent j

/-- Put endpoint `k` behind those whose cues were accepted no later. -/
def putCue (s : State) (k : EpN) : List EpN → List EpN
  | [] => [k]
  | x :: l => if s.ln.eps[x].cueOrd ≤ s.ln.eps[k].cueOrd then x :: putCue s k l else k :: x :: l

/-- The endpoints that hold a cue, in the order in which the cues were accepted (R161). -/
def cueEps (s : State) : List EpN :=
  (epAll.filter fun k => s.ln.eps[k].cueHeld).foldl (fun l k => putCue s k l) []

/-- How many held cues `f` names, with their crews, in queue order and then at the local node. -/
def heldList (s : State) (f : PortN → CrewN × Nat → Bool) : List CrewN :=
  (portAll.flatMap fun n => (s.ports[n].txq.filterMap fun t => t.cue).filter (f n)).map (·.1) ++
  ((cueEps s).filterMap fun k =>
    let e := s.ln.eps[k]
    if e.crew.any (fun c => f 0 (c, e.catchAt)) then e.crew else none)

/-- Let go of the held cues that `f` names, port 0 standing for the local node (R161). -/
def releaseCues (s : State) (f : PortN → CrewN × Nat → Bool) (atCatch : Bool) : State :=
  let s1 := { s with
    ports := Vector.ofFn fun n => freeCues s.tt.slots (f n) s.ports[n]
    tt := { s.tt with
      slots := Vector.ofFn fun j =>
        if portAll.any (fun n => releasesSlot (f n) j s.ports[n]) then none else s.tt.slots[j] } }
  forEach (cueEps s) (fun a k =>
    let e := s.ln.eps[k]
    if e.crew.any (fun c => f 0 (c, e.catchAt)) then cueDone a k atCatch else a) s1

/-- Held cues released before their catch, each with the flag `flag` of its crew (R162). -/
def releaseEarly (s : State) (f : PortN → CrewN × Nat → Bool) (flag : Word) : State :=
  releaseCues (forEach (heldList s f) (fun a k => flagCrew a k flag) s) f false

/-- The earliest catch instant for which crew k holds a cue. -/
def nextCatch (s : State) (k : CrewN) : Option Nat :=
  ((portAll.flatMap fun n => (s.ports[n].txq.filterMap fun t => t.cue).filterMap fun c =>
    if c.1 = k then some c.2 else none) ++
  (epAll.filterMap fun j =>
    let e := s.ln.eps[j]
    if e.cueHeld && e.crew = some k then some e.catchAt else none)).min?

/-! ## Snapshots (R329 to R332) -/

/-- The values of every port at the snapshot instant: the last completed samples and accumulators
(R324, R329). -/
def snapValues (m : Mtr) : List MSnap :=
  m.ports.toList.map fun p => { i := p.i, v := p.v, p := p.p, e := BitVec.ofNat 48 (p.e.toNat / 2 ^ 24) }

/-- Put a port's snapshot into the bank. -/
def putSnap (l : List MSnap) (m : DnN) (p : MPort) : MPort :=
  match l[m.val]? with
  | some x => { p with si := x.i, sv := x.v, sp := x.p, se := x.e }
  | none => p

/-- The copy completes: the new bank is visible, MTR_SEQ advances, SRC is recorded, GO clears, and
EV_METER_READY is raised while RDY_EV = 1 (R330). -/
def snapBank (s : State) (src : Nat) (l : List MSnap) : State :=
  let s1 := { s with mtr := { s.mtr with
    copy := none
    go := false
    src := src
    seq := s.mtr.seq + 1#16
    ports := Vector.ofFn fun m => putSnap l m s.mtr.ports[m] } }
  if s.mtr.rdyEv then raise s1 { code := 0x06, src := 0, w1 := s1.mtr.seq } else s1

/-- Request a snapshot from source `src`: merged into a copy in progress (R331), completed at once
while the sequencer is stopped (R332). -/
def snapRequest (s : State) (src : Nat) : State :=
  match s.mtr.copy with
  | some _ => { s with mtr := { s.mtr with merged := true } }
  | none =>
    if linkOn s then { s with mtr := { s.mtr with copy := some (src, snapValues s.mtr) } }
    else snapBank s src (snapValues s.mtr)

end Sys2Proof.Machine
end

