-- ==== Sys2Proof/Machine/LocalCue.lean ====
section
/-! DEFINITION. POUT at the local node: an ordinary store, a cue held for its crew, an overrun
(R230, R234, R235). -/

namespace Sys2Proof.Machine

open Sys2Proof

/-- The place of the next cue that the local node accepts, behind all that it holds (R161). -/
def nextCueOrd (s : State) : Nat := epAll.foldl (fun a k => max a (s.ln.eps[k].cueOrd + 1)) 0

/-- Store a POUT that the endpoint can take; a cue is held or not as its crew says (R160, R234). -/
def poutStore (s : State) (k : EpN) (p : Pkt) : State :=
  if cueBit p.hdr then
    let r := judgeCue s 0 p false
    match r.1 with
    | .drop => r.2
    | .pass => epAsk (storeBuf r.2 k p false) k
    | .hold c i => epAsk (modEp (storeBuf r.2 k p false) k fun e =>
        { e with cueHeld := true, cueOrd := nextCueOrd s, crew := some c, catchAt := i }) k
  else epAsk (storeBuf s k p false) k

/-- A POUT draws no answer: it is stored in an empty buffer, or it overruns (R230, R234). -/
def poutAct (s : State) (x : Inbox) (k : EpN) : State :=
  let e := s.ln.eps[k]
  if !e.en || e.halt || !(e.typ = 2 && !e.dirIn) || e.size < (payloadBytes x.pkt).length then s
  else if e.full then modEp s k fun e => { e with overrun := satInc 255 e.overrun }
  else poutStore s k x.pkt

/-- Row LOCAL_POUT (R230, R234). -/
def execLocalPout (s : State) : Outcome :=
  onLink s fun s => onLocal (fun p => p.hdr.typ = 6#4) poutAct s

end Sys2Proof.Machine
end

