-- ==== Sys2Proof/Machine/Vectors.lean ====
section
/-! DEFINITION. MSI-X vectors: what fires one, the gap timers, the masks and the PBA (R201 to R204),
and what a domain may send when its function comes back to life (R207). -/

namespace Sys2Proof.Machine

open Sys2Proof

/-- Bit v of a vector set replaced. -/
def putVec (x : BitVec 32) (v : Nat) (b : Bool) : BitVec 32 :=
  let m : BitVec 32 := 1#32 <<< v
  if b then x ||| m else x &&& ~~~m

/-- Table entry v of domain d. -/
def msixEnt (s : State) (d : DomN) (v : Nat) : Msix := vAt s.doms[d].msix { addr := 0, data := 0, mask := true } v

/-- Vector v of domain d is masked: by its entry or by Function Mask (R204). -/
def vecMasked (s : State) (d : DomN) (v : Nat) : Bool := s.pcie.fns[d].fnMask || (msixEnt s d v).mask

/-- Set or clear a held flag. -/
def holdVec (s : State) (d : DomN) (v : Nat) (b : Bool) : State :=
  modDom s d fun x => { x with held := putVec x.held v b }

/-- Start a gap timer, or end it. -/
def gapVec (s : State) (d : DomN) (v : Nat) (b : Bool) : State :=
  modDom s d fun x => { x with gapRun := putVec x.gapRun v b }

/-- Set or clear a PBA bit. -/
def pbaVec (s : State) (d : DomN) (v : Nat) (b : Bool) : State :=
  modDom s d fun x => { x with pba := putVec x.pba v b }

/-- A message of vector v is due: it waits for its grant, it sets the PBA bit while masked, and nothing
happens while MSI-X Enable = 0 (R202, R204).  A function that may issue no request keeps it as a held flag
(R207). -/
def sendMsg (s : State) (d : DomN) (v : Nat) : State :=
  if !s.pcie.fns[d].msixEn then s
  else if vecMasked s d v then pbaVec s d v true
  else if !fnLive s d then holdVec s d v true
  else pbaVec (dueMsg s d v) d v false

/-- The write of a message of vector v is issued with the table entry as it stands (R204).  A vector that
was masked meanwhile keeps the message in its PBA bit.  DEDUCED, log entry 120. -/
def issueMsg (s : State) (d : DomN) (v : Nat) : State :=
  if !s.pcie.fns[d].msixEn then s
  else if vecMasked s d v then pbaVec s d v true
  else toHost s (.msix d v (msixEnt s d v).addr (msixEnt s d v).data)

/-- DOM_MOD.GAP of domain d. -/
def gapOf (s : State) (d : DomN) : Nat := fld s.doms[d].mod 0 8

/-- Vector v of domain d fires (R202, R203): vector 0 is never moderated. -/
def fire (s : State) (d : DomN) (v : Nat) : State :=
  if !s.pcie.fns[d].msixEn then s
  else if v = 0 || gapOf s d = 0 then sendMsg s d v
  else if s.doms[d].gapRun.getLsbD v then holdVec s d v true
  else gapVec (sendMsg s d v) d v true

/-- A gap timer ends (R203).  In D3hot it runs out and a held flag stays set (When events coincide). -/
def gapEnd (s : State) (d : DomN) (v : Nat) : State :=
  if !s.doms[d].gapRun.getLsbD v then s
  else if !s.doms[d].held.getLsbD v then gapVec s d v false
  else if !fnLive s d then gapVec s d v false
  else sendMsg (holdVec s d v false) d v

/-- Row GAP_TIMER_END (R203). -/
def execGapTimerEnd (d : DomN) (v : Fin 32) (s : State) : Outcome := onLink s fun s => gapEnd s d v.val

/-- A message pending in the PBA is sent once its mask is clear; while the gap timer runs it waits for
it (R204).  It is one message with one that was held already (R203).  DESIGN CHOICE: it waits as the held flag,
and the PBA bit clears at the unmask (log entry 158). -/
def pbaRelease (s : State) (d : DomN) (v : Nat) : State :=
  if !s.doms[d].pba.getLsbD v || vecMasked s d v || !s.pcie.fns[d].msixEn then s
  else if s.doms[d].gapRun.getLsbD v then holdVec (pbaVec s d v false) d v true
  else sendMsg (holdVec (pbaVec s d v false) d v false) d v

/-- A held message whose gap timer has ended is sent (R207).  DESIGN CHOICE: it does not start the timer again
(R203; log entry 159). -/
def heldRelease (s : State) (d : DomN) (v : Nat) : State :=
  if !s.doms[d].held.getLsbD v || s.doms[d].gapRun.getLsbD v || !fnLive s d then s
  else sendMsg (holdVec s d v false) d v

/-- Every message of domain d that nothing keeps back any longer. -/
def releaseMsgs (s : State) (d : DomN) : State :=
  forEach (List.range 32) (fun a v => heldRelease (pbaRelease a d v) d v) s

/-- Clear a vector's mask bit. -/
def clearMask (s : State) (d : DomN) (v : Fin 32) : State :=
  modDom s d fun x => { x with msix := vMod x.msix v fun m => { m with mask := false } }

/-- The mask clears, and what it held is sent (R204). -/
def unmask (s : State) (d : DomN) : MaskKind → State
  | .vector v => pbaRelease (clearMask s d v) d v.val
  | .function => releaseMsgs (modFn s d fun f => { f with fnMask := false }) d

/-! ## The MSI-X table and the PBA as the window shows them (R187, R195) -/

/-- Vectors of domain d (R201). -/
def vecCount (d : DomN) : Nat := if d = 0 then 32 else 8

/-- DW i of the table entry m: address low, address high, data, control. -/
def msixDw (m : Msix) (i : Nat) : BitVec 32 :=
  match i with
  | 0 => BitVec.ofNat 32 m.addr
  | 1 => BitVec.ofNat 32 (m.addr / 2 ^ 32)
  | 2 => BitVec.ofNat 32 m.data
  | _ => if m.mask then 1#32 else 0#32

/-- Write DW i of a table entry.  The two low address bits are 0. -/
def msixPut (m : Msix) (i : Nat) (v : BitVec 32) : Msix :=
  match i with
  | 0 => { m with addr := m.addr / 2 ^ 32 * 2 ^ 32 + v.toNat / 4 * 4 }
  | 1 => { m with addr := m.addr % 2 ^ 32 + v.toNat * 2 ^ 32 }
  | 2 => { m with data := v.toNat }
  | _ => { m with mask := v.getLsbD 0 }

/-- A DW write to the table at DW index j (R195): clearing a mask sends what it held. -/
def msixWrite (s : State) (d : DomN) (j : Nat) (v : BitVec 32) : State :=
  if h : j / 4 < 32 then
    let k : Fin 32 := ⟨j / 4, h⟩
    pbaRelease (modDom s d fun x => { x with msix := vMod x.msix k fun m => msixPut m (j % 4) v }) d k.val
  else s

end Sys2Proof.Machine
end

