-- ==== Sys2Proof/Machine/Domain.lean ====
section
/-! DEFINITION. The life of a domain: enable, the resync up to the Easy state, faults and teardown
(R238 to R250), the rights and the endpoint ownership that the PF gives (R199, R200, R229). -/

namespace Sys2Proof.Machine

open Sys2Proof

/-! ## Rights (R199, R200) -/

/-- Domain d holds WDT_SERVICE. -/
def holdsWdt (s : State) (d : DomN) : Bool := bit s.doms[d].rights 4

/-- WDT_SERVICE moves to domain d: its previous holder loses it in the same cycle, and a first write of
a service that is still unmatched is discarded (R200). -/
def giveRight (s : State) (d : DomN) : State :=
  if holdsWdt s d then s
  else { s with
    doms := Vector.ofFn fun x => { s.doms[x] with rights := setBit s.doms[x].rights 4 (decide (x = d)) }
    wdt := { s.wdt with armHost := false } }

/-- DOM_ERR.CFGWR of domain d (R211, R229). -/
def cfgwr (s : State) (d : DomN) : State := modDom s d fun x => { x with err := x.err ||| 0x0008#16 }

/-- A refusal for want of a right: DENIED advances (R199, R200). -/
def denied (s : State) (d : DomN) : State := modDom s d fun x => { x with denied := satInc 255 x.denied }

/-- A PF write to DOM_RIGHTS of domain d (R199, R200): a domain in TEARDOWN is not given the service
right, and its holder keeps it against a clear. -/
def rightsWrite (s : State) (d : DomN) (v : Word) : State :=
  let s1 := modDom s d fun x => { x with rights := (x.rights &&& 0x0010#16) ||| (v &&& 0x000F#16) }
  if !bit v 4 || holdsWdt s d then s1
  else if s.doms[d].st = .teardown then cfgwr s1 0
  else giveRight s1 d

/-- One bit of a PF write to DOM_EPMASK: endpoint k moves to domain d unless its ring is set or d is in
TEARDOWN (R229). -/
def ownWrite (d : DomN) (s : State) (k : EpN) : State :=
  let e := s.ln.eps[k]
  if e.owner = d then s
  else if e.ring || s.doms[d].st = .teardown then cfgwr s 0
  else modEp s k fun e => { e with owner := d }

/-- A PF write to DOM_EPMASK0 or DOM_EPMASK1 of domain d (R229): a 0 bit is ignored. -/
def epmaskWrite (s : State) (d : DomN) (half : Nat) (v : Word) : State :=
  forEach (epAll.filter fun k => k.val / 16 = half && bit v (k.val % 16)) (ownWrite d) s

/-! ## Enable (R239, R249) -/

/-- DOM_CADENCE.FAST, in units of 0.5 µs. -/
def fastOf (x : Dom) : Nat := fld x.cadence 0 11

/-- What enabling a domain does to its registers (R212, R239). -/
def domStart (x : Dom) : Dom :=
  { x with
    en := true, st := .run, defer := false, cmdPi := 0#16, cmdRaw := 0#16, cmdNext := 0#16,
    cmdRing := .running, cmdQ := [], cmdRun := none, lastCtag := 0#16, lastStat := 0, evtCi := 0#16,
    evtRaw := 0#16, recheck := false, producer := 0#16, evq := [], evSeq := 0, evPart := false, msgs := [],
    evLost := 0, interval := fastOf x, retry := false }

/-- A write of 1 to DOM_CTRL.EN in the domain's own window (R239, R249). -/
def domEnable (s : State) (d : DomN) : State :=
  match s.doms[d].st with
  | .off => modDom s d domStart
  | .teardown => modDom s d fun x => { x with defer := true }
  | _ => s

/-! ## Teardown (R245 to R249) -/

/-- The ungranted requests of requester r go (R246, R250). -/
def dropReqs (s : State) (r : Nat) : State := setQueue s r []

/-- The ungranted requests of domain d in a queue that every domain shares go. -/
def dropShared (s : State) (r : Nat) (d : DomN) : State :=
  setQueue s r ((queueOf s r).filter fun q => domOf q != d)

/-- The queued watches of domain d go, one that waits for its allotment included. -/
def dropWatches (s : State) (d : DomN) : State :=
  let s1 := if s.hma.cur.any (fun q => domOf q = d) then hmaDone s 16 else s
  { s1 with que := { s1.que with watches := s1.que.watches.filter fun w => w.1 != d } }

/-- Step 3 of R246 for one endpoint. -/
def tearEp (e : Ep) : Ep :=
  { emptied e with
    descs := [], flight := [], halt := false, ring := false, ringErr := false, ringSize := 0,
    ringBase := 0, next := 0#16, pi := 0#16, piRaw := 0#16, seqValid := false, ans := .none, stage := 0 }

/-- Steps 1 and 2 of R246 for the domain's own registers. -/
def tearDom (cause ticks : Nat) (x : Dom) : Dom :=
  { x with
    en := false, st := .teardown, defer := false, tdCause := cause, tdStart := ticks, tdTimeouts := 0,
    tdCut := false, cmdQ := [], cmdRun := none, retry := false, busy := false, evq := [], evPart := false,
    msgs := [], block := [], sumAt := 0, held := 0#32, gapRun := 0#32, pba := 0#32 }

/-- Requests of domain d that have been granted end: a write is issued (R246, step 4), but the last write of a
Summary Block, which holds its SEQ copy, is withdrawn (When events coincide). -/
def endGranted (s : State) (d : DomN) : State :=
  if s.hma.cur = some (.block d) then hmaDone s 17 else issueGranted s d

/-- Steps 1 to 3 of R246.  A write that has been granted is issued (step 4); a read that has been granted
and waits for its allotment keeps the path. -/
def tearBegin (s : State) (d : DomN) (cause : Nat) : State :=
  let s1 := dropWatches (endGranted s d) d
  let s2 := modDom s1 d (tearDom cause (now s))
  let s3 := dropReqs (dropReqs s2 d.val) (8 + d.val)
  let s4 := dropShared (dropShared s3 17 d) 18 d
  serveOthers { s4 with
    ula := { s4.ula with reqs := s4.ula.reqs.setIfInBounds (20 + d.val) [] }
    mtr := { s4.mtr with waiters := s4.mtr.waiters.filter fun x => x != d }
    ln := { s4.ln with eps := s4.ln.eps.map fun e => if e.owner = d then tearEp e else e } }

/-- The levels of domain d's three requesters at their reset values (DOM_QOS). -/
def qosReset (s : State) (d : DomN) : State :=
  { s with
    hma := { s.hma with arb := { s.hma.arb with
      pri := (s.hma.arb.pri.setIfInBounds d.val 0x0001#16).setIfInBounds (8 + d.val) 0x0001#16 } }
    ula := { s.ula with arb := { s.ula.arb with pri := s.ula.arb.pri.setIfInBounds (20 + d.val) 0x0009#16 } } }

/-- The registers of a domain after a teardown of the given cause (R245, R247): TEARDOWNS counts on after
cause 1, and takes its reset value with the others after causes 2 to 6. -/
def domAfter (d : DomN) (cause : Nat) (x : Dom) : Dom :=
  if cause = 1 then { x with st := .off, defer := false, denied := 0, teardowns := satInc 255 x.teardowns }
  else if cause = 2 then { Dom.reset d with rights := x.rights }
  else { Dom.reset d with rights := ((Dom.reset d).rights &&& 0x000F#16) ||| (x.rights &&& 0x0010#16) }

/-- The domain's endpoints return to domain 0, and WDT_SERVICE with them (R229, R200). -/
def handBack (s : State) (d : DomN) : State :=
  let s1 := { s with ln := { s.ln with eps := s.ln.eps.map fun e => if e.owner = d then { e with owner := 0 } else e } }
  if holdsWdt s d then giveRight s1 0 else s1

/-- Clear the cut-off and starvation flags of requester r, and refill its tokens (R246, R258, R265). -/
def arbClean (r : Nat) (a : Arb) : Arb :=
  { a with
    flags := putVec a.flags r false
    cuts := putVec a.cuts r false
    tokens := a.tokens.setIfInBounds r a.curQuo }

/-- Step 5 of R246 in the arbiters: the tokens, the flags and any saved progress. -/
def arbRelease (s : State) (d : DomN) : State :=
  { s with
    hma := { s.hma with
      arb := arbClean (8 + d.val) (arbClean d.val s.hma.arb)
      reqs := (s.hma.reqs.setIfInBounds d.val []).setIfInBounds (8 + d.val) [] }
    ula := { s.ula with arb := arbClean (20 + d.val) s.ula.arb } }

/-- The registers of domain d after a teardown, DOM_QOS included. -/
def domSettle (s : State) (d : DomN) (cause : Nat) : State :=
  let s1 := modDom s d (domAfter d cause)
  if 3 ≤ cause then qosReset s1 d else s1

/-- EV_TEARDOWN_DONE of domain d (R248): a domain other than 0 returns its endpoints. -/
def tearEvent (s : State) (d : DomN) : Ev :=
  let x := s.doms[d]
  { code := 0x0F, src := d.val, w1 := w16 x.tdCause
    w2 := if d = 0 then 0#16 else domEpmask s d 0
    w3 := if d = 0 then 0#16 else domEpmask s d 1
    w4 := w16 (min 65535 ((now s - x.tdStart) / 400))
    w5 := orAll [atFld (min 255 x.tdTimeouts) 0 8, atBit x.tdCut 8, atBit x.defer 9] }

/-- No read of domain d is outstanding, and none of its requests holds the HMA or is set aside there (R246,
R251). -/
def grantsEnded (s : State) (d : DomN) : Bool :=
  !(s.pcie.reads.any fun r => r.dom = d) && !(s.hma.cur.any fun q => domOf q = d) &&
    !(s.hma.left.any fun x => x.1 = d)

/-- Nothing that was granted to domain d is still under way: no read, no request at the HMA, and no answer on UP
(R246, step 4). -/
def quiesced (s : State) (d : DomN) : Bool :=
  grantsEnded s d && s.ula.arb.holder != some (20 + d.val) && s.ula.arb.aside != some (20 + d.val)

/-- EV_TEARDOWN_DONE is raised when domain 0 is in RUN or FAULT; otherwise the black-box entry is the only
record (R248). -/
def raiseTorn (s : State) (ev : Ev) : State :=
  if s.doms[(0 : DomN)].st = .run || s.doms[(0 : DomN)].st = .fault then raise s ev else s

/-- Steps 5 and 6 of R246. -/
def tearEnd (s : State) (d : DomN) : State :=
  let x := s.doms[d]
  let ev := tearEvent s d
  let s1 := domSettle (arbRelease (handBack s d) d) d x.tdCause
  let s2 := bbLink (raiseTorn (modFn s1 d fun f => { f with flr := false }) ev) 0x50 d.val (w16 x.tdCause) ev.w4
  if x.defer then domEnable s2 d else s2

/-- Row TEARDOWN_COMPLETE (R246). -/
def execTeardownComplete (d : DomN) (s : State) : Outcome :=
  onLink s fun s => whenDo (s.doms[d].st = .teardown && quiesced s d) (tearEnd · d) s

/-- An OFF domain that a reset of the host interface reaches: its registers take their reset values and
what it owned returns to domain 0, with nothing to take apart. -/
def offReset (s : State) (d : DomN) (cause : Nat) : State :=
  modFn (domSettle (arbRelease (handBack s d) d) d cause) d fun f => { f with flr := false }

/-- A teardown trigger reaches domain d (R245). -/
def teardown (s : State) (d : DomN) (cause : Nat) : State :=
  match s.doms[d].st with
  | .off => if 2 ≤ cause then offReset s d cause else s
  | .teardown =>
    modDom s d fun x => { x with defer := false, tdCause := if 2 ≤ cause then cause else x.tdCause }
  | _ => tearBegin s d cause

/-- Tear down every domain that exists or is still being taken apart. -/
def teardownAll (s : State) (cause : Nat) : State :=
  forEach (domAll.filter fun d => domExists s d || s.doms[d].st != .off) (fun a d => teardown a d cause) s

/-- A write of 0 to DOM_CTRL.EN in the domain's own window (R245, R249). -/
def domDisable (s : State) (d : DomN) : State := teardown s d 1

/-! ## Faults and resync (R242 to R251) -/

/-- Domain d enters FAULT from RUN, and the black box records it (R242, R244). -/
def domFault (s : State) (d : DomN) : State :=
  if s.doms[d].st != .run then s
  else
    let s1 := dropWatches (modDom s d fun x => { x with st := .fault, retry := false }) d
    bbLink s1 0x51 d.val (domErr s.doms[d]) 0#16

/-- What a GO changes in the domain: commands that were not started are given back (R250, R251).  EASY lets
out the entry that is part-written or granted (`part`), and later the EV_CMD of the command in progress. -/
def goDom (stat : Word) (reads : Nat) (part : Bool) (x : Dom) : Dom :=
  { x with
    st := .easy, busy := true, goStat := stat, goReads := reads, retry := false, cmdQ := []
    cmdNext := x.cmdNext - w16 x.cmdQ.length
    evq := match x.evq with
      | q :: t => { q with force := part } :: t.map fun q => { q with force := false }
      | [] => [] }

/-- A write of 1 to DOM_SUMCTL.GO (R250). -/
def domGo (s : State) (d : DomN) : State :=
  let x := s.doms[d]
  if x.st = .run || x.st = .fault then
    let part := x.evPart || s.hma.cur = some (.entry d)
    tidy (tidy (dropWatches (modDom s d (goDom (domStat s d) (outReads s d) part)) d) d.val) (8 + d.val)
  else modDom s d fun x => { x with ign := satInc 255 x.ign }

end Sys2Proof.Machine
end

