-- ==== Sys2Proof/Machine/Info.lean ====
section
/-! DEFINITION. The words that the hub requests and the host commands share: node information, port
status, meter data and black-box entries (R100, R218, R373), and the field rules of the registers
that commands write. -/

namespace Sys2Proof.Machine

open Sys2Proof

/-- Word 8 of Node information. -/
def nodeWord8 (s : State) : Word :=
  orAll [atFld 16 0 5, atBit s.ln.en 8, atBit (headless s) 9, atBit (onPll s) 10]

/-- The 16 words of Node information (R100). -/
def nodeInfo (s : State) : List Word :=
  [0x4B17#16, 0x00A1#16] ++ idUid.toList ++
    [s.bus.node, s.bus.loc, nodeWord8 s, s.rst.cause, s.rst.straps] ++
    (if s.ln.en then s.ln.uid.toList else [0#16, 0#16, 0#16, 0#16]) ++ [0#16]

/-- PPS_STAT of port n, 0 for UP. -/
def ppsStatOf (s : State) (n : PortN) : Word :=
  if h : n.val = 0 then 0#16 else ppsStat s ⟨n.val - 1, by omega⟩

/-- The 8 words of GET_PORT_STATUS (R100). -/
def portInfo (s : State) (n : PortN) : List Word :=
  let p := s.ports[n]
  [portStat s n, portRate p, p.evt, p.pcap0, p.pcap1, ppsStatOf s n, portFlood p, w16 p.codeErr]

/-- The 7 words of one port in GET_METER: live, or the last snapshot (R100, R328). -/
def meterPort (snap : Bool) (p : MPort) : List Word :=
  if snap then
    [p.si, p.sv, wordOf p.sp.toNat 1, wordOf p.sp.toNat 0,
     wordOf p.se.toNat 2, wordOf p.se.toNat 1, wordOf p.se.toNat 0]
  else
    let e := p.e.toNat / 2 ^ 24
    [p.i, p.v, wordOf p.p.toNat 1, wordOf p.p.toNat 0, wordOf e 2, wordOf e 1, wordOf e 0]

/-- The words of GET_METER for one port, or for all (`port = 0`). -/
def meterInfo (s : State) (snap : Bool) (port : Nat) : List Word :=
  let ms := dnAll.filter fun m => port = 0 || m.val + 1 = port
  [s.mtr.seq, atBit s.mtr.copy.isNone 0] ++ ms.flatMap fun m => meterPort snap s.mtr.ports[m]

/-- Slot `i` of B0, whole (R372, R373). -/
def bbSlot (b : Bb) (i : Nat) : Entry := tabGet Entry.zero b.slots i

/-- Entries `first` up to `first + count`, stopping at entry 255 (R373). -/
def logEntries (b : Bb) (first count : Nat) : List Entry :=
  (List.range (min count (256 - first))).map fun i => bbSlot b (first + i)

/-! ## Field rules of registers that commands write -/

/-- A value as CATCH_PIN stores it: reserved bits 0, a WIDTH of 0 stored as 1. -/
def pinPut (v : Word) : Word :=
  atFld (fld v 0 5) 0 5 ||| atFld (max 1 (fld v 8 8)) 8 8

/-- Write one of PPS_ILIM, PPS_PFOLD, PPS_TFAULT and PPS_RETRY, in that order, with its clamps. -/
def limitPut (which : Nat) (v : Word) (p : Pps) : Pps :=
  match which with
  | 0 => { p with ilim := w16 (clampN 8 240 (fld v 0 8)) }
  | 1 => { p with pfold := if v = 0#16 then 1#16 else v }
  | 2 => { p with tfault := w16 (clampN 1 200 (fld v 0 8)) }
  | _ => { p with retry := w16 (fld v 0 4) }

end Sys2Proof.Machine
end

