-- ==== Sys2Proof/Machine/Route.lean ====
section
/-! DEFINITION. Packets through the part (chapters 4 and 5): the header check and the route (R84 to
R96, R106, R107, R117), the trailer (R86, R87), the transmit selectors (R114, R115), and what the end
of a packet frees. -/

namespace Sys2Proof.Machine

open Sys2Proof

/-! ## Counters -/

/-- Count a packet in BUS_STAT.NOROUTE, modulo 256. -/
def countNoroute (s : State) : State := { s with bus := { s.bus with noroute := (s.bus.noroute + 1) % 256 } }

/-- Count in TT_ERR.REC. -/
def countRec (s : State) : State := { s with tt := { s.tt with errRec := satInc 15 s.tt.errRec } }

/-- Count in TT_ERR.NOSPLIT. -/
def countNosplit (s : State) : State := { s with tt := { s.tt with errNosplit := satInc 15 s.tt.errNosplit } }

/-- Count in TT_ERR.PDROP. -/
def countPdrop (s : State) : State := { s with tt := { s.tt with errPdrop := satInc 15 s.tt.errPdrop } }

/-! ## Receiving a header -/

/-- Ticks of a word at a rate (R49). -/
def wordTicks (rate : Nat) : Nat :=
  match rate with
  | 1 => 1024
  | 2 => 64
  | 3 => 16
  | _ => 4

/-- The word times that line words take at a rate: at Paddle two for an escaped one (R53). -/
def wordTimes (rate : Nat) (l : List LineWord) : Nat :=
  if rate = 1 then (l.flatMap escape).length else l.length

/-- The arrival stamp of a packet's SOP at its header check, when its own word or words and the four header
words `ws` have come: its first bit (R53, R149).  DESIGN CHOICE: no SKP, CRD or STK came between them (log entry
153). -/
def sopStamp (s : State) (n : PortN) (ws : List Word) : Nat :=
  let r := s.ports[n].rate
  now s - wordTimes r (.ctl .sop 0#8 :: ws.map .data) * wordTicks r

/-- A packet with header words `ws` enters port n's receive buffer under the next number. -/
def addRx (s : State) (n : PortN) (ws : List Word) (h : Hdr) (len : Nat) (mc bad : Bool) (dest : List Deliver) : State :=
  let r : RxPkt := { pid := s.bus.pid, hdr := h, stamp := sopStamp s n ws, pll := onPll s, len := len, ended := false, mc := mc,
                     bad := bad, got := 4, since := now s, dest := dest, old := false }
  modPort { s with bus := { s.bus with pid := s.bus.pid + 1 } } n fun p =>
    { p with rx := p.rx ++ [r], rxCur := some s.bus.pid }

/-- The header of a packet sent on: HOP incremented (R84). -/
def nextHop (h : Hdr) : Hdr := { h with hop := h.hop + 1#10 }

/-- A copy of received packet `pid`, payload still to come. -/
def copyTx (pid : Nat) (src : PortN) (h : Hdr) (len : Nat) (saf : Bool) : TxPkt where
  pid := pid
  ord := pid
  src := some src
  pkt := { hdr := h, payload := [] }
  len := len
  done := false
  fail := none
  saf := saf
  cue := none
  free := false
  act := .none

/-- A copy from UP for Dm: stored and forwarded to a faster port, and while a crew may hold it
(R111, R160). -/
def copyDown (s : State) (m : DnN) (h : Hdr) (pid len : Nat) : State :=
  let p := s.ports[dnPort m]
  let saf := decide (s.ports[0].rate < p.rate) || (cueBit h && (crewOf s (dnPort m).val).isSome)
  modPort s (dnPort m) fun q => { q with txq := q.txq ++ [copyTx pid 0 (nextHop h) len saf] }

/-- A copy from Dm for UP, through ULA requester m - 1 (R91, R111). -/
def copyUp (s : State) (m : DnN) (h : Hdr) (pid len : Nat) : State :=
  ulaPush s (ulaOf m) (copyTx pid (dnPort m) (nextHop h) len
    (decide (s.ports[dnPort m].rate < s.ports[0].rate)))

/-- A multicast or broadcast ADDR, which from below is discarded (R89). -/
def groupAddr (h : Hdr) : Bool := 0xF000 ≤ h.addr.toNat && h.addr != 0xFFFE#16

/-- No route of any kind is left for a packet with HOP = 1,023 (R85). -/
def hopFull (h : Hdr) : Bool := h.hop = 1023#10

/-! ## Routing from UP (R90 to R93, R106, R117) -/

/-- The record matches ADDR, ENDP and TAG. -/
def recMatch (h : Hdr) (r : Rec) : Bool := r.addr = h.addr && r.endp = h.endp && r.tag = h.tag

/-- The record of a request (R106). -/
def recOf (h : Hdr) : Rec :=
  { addr := h.addr, endp := h.endp, tag := h.tag, epoch := h.epoch, pcls := h.pcls, typ := h.typ }

/-- Room for a record of `h` on a port: one that it replaces, or fewer than 64 (R106). -/
def recRoom (p : Port) (h : Hdr) : Bool := p.recs.any (recMatch h) || p.recs.length < 64

/-- Make, or replace, the record of a request. -/
def recMake (h : Hdr) (p : Port) : Port :=
  { p with recs := p.recs.filter (fun r => !recMatch h r) ++ [recOf h] }

/-- The port whose range holds an address, the lowest first (R90, rule 5). -/
def rangePort (s : State) (a : Word) : Option DnN :=
  if a = 0#16 || 0xF000 ≤ a.toNat then none
  else dnAll.find? fun m => s.ports[dnPort m].rangeLo.toNat ≤ a.toNat && a.toNat ≤ s.ports[dnPort m].rangeHi.toNat

/-- The types that are answered GONE when their port has no link (R91). -/
def goneType (h : Hdr) : Bool := h.typ.toNat ≤ 4 || h.typ = 14#4 || h.typ = 15#4

/-- Forward a unicast packet to Dm, with its record when it expects an answer (R84, R106). -/
def forwardDown (s : State) (m : DnN) (h : Hdr) (pid len : Nat) : State × List Deliver :=
  let n := dnPort m
  if !expectsAnswer h then (copyDown s m h pid len, [])
  else if !recRoom s.ports[n] h then
    (countRec s, if h.pcls then [] else [.answer (ulaOf m) (hshk h 0x02 [])])
  else
    let s1 := modPort s n (recMake h)
    (copyDown s1 m { h with epoch := BitVec.ofNat 4 s.ports[n].epoch } pid len, [])

/-- The slot holds the packet's port, ADDR, ENDP and TAG. -/
def slotMatch (m : DnN) (h : Hdr) (o : Option Slot) : Bool :=
  o.any fun x => x.port = m && x.addr = h.addr && x.endp = h.endp && x.tag = h.tag

/-- The slot that a split packet matches. -/
def findSlot (s : State) (m : DnN) (h : Hdr) : Option (Fin 48) :=
  (List.finRange 48).find? fun j => slotMatch m h s.tt.slots[j]

/-- Rule 5 of R90: the packet's port is Dm (R91, R117).  A CSPLIT for a slot kept over a link-down still
goes to the TT (R124).  DESIGN CHOICE: a packet with HOP = 1,023 is counted in NOROUTE before anything
else answers it (log entry 110). -/
def toPort (s : State) (m : DnN) (h : Hdr) (pid len : Nat) : State × List Deliver :=
  if hopFull h then (countNoroute s, [])
  else if !isUp s.ports[dnPort m] && h.typ = 10#4 && (findSlot s m h).isSome then (s, [.tt m])
  else if !isUp s.ports[dnPort m] then
    (s, if goneType h then [.answer (ulaOf m) (goneOf h s.bus.node (dnPort m))] else [])
  else if splitMode s m then
    if h.typ = 9#4 || h.typ = 10#4 then (s, [.tt m])
    else (countNosplit s, if expectsAnswer h then [.answer (ulaOf m) (hshk h 0x03 [])] else [])
  else forwardDown s m h pid len

/-- What the hub's own place takes of a multicast or broadcast packet: of SURVEY an OPEN alone (R93, R94,
R129, R136).  DESIGN CHOICE: an OPEN sent to a multicast group with HUB = 1 reaches the engines as a broadcast one
does (log entry 147). -/
def hubCopy (h : Hdr) : List Deliver :=
  if h.typ = 14#4 then [.hub] else if h.typ = 12#4 then [.census]
  else if h.typ = 13#4 && h.tsb = 1#8 then [.survey] else []

/-- Copies of a multicast or broadcast packet to the ports of `ms` that have a link (R92, R93). -/
def copyAll (s : State) (ms : List DnN) (h : Hdr) (pid len : Nat) : State :=
  if hopFull h then s
  else forEach (ms.filter fun m => isUp s.ports[dnPort m]) (fun a m => copyDown a m h pid len) s

/-- The multicast entry that serves a group: the lowest valid index (R92). -/
def mcFind (s : State) (g : Word) : Option (Nat × McEnt) :=
  s.bus.mc.find? fun e => bit e.2.loc 15 && e.2.grp = g

/-- Multicast (R92, R85). -/
def toGroup (s : State) (h : Hdr) (pid len : Nat) : State × List Deliver :=
  match mcFind s h.addr with
  | none => (countNoroute s, [])
  | some (k, e) =>
    let s1 := { s with bus := { s.bus with mc := tabSet McEnt.zero s.bus.mc k { e with hits := e.hits + 1#16 } } }
    let dest := (if bit e.loc 0 then hubCopy h else []) ++ (if bit e.loc 1 && s.ln.en then [.loc] else [])
    let s2 := if hopFull h && !bit e.loc 0 && !(bit e.loc 1 && s.ln.en) then countNoroute s1 else s1
    (copyAll s2 (dnAll.filter fun m => bit e.ports m.val) h pid len, dest)

/-- The hub's own address (R90, rule 3). -/
def isNode (s : State) (a : Word) : Bool := a = s.bus.node

/-- Routing of a packet received on UP: the first rule of R90 that matches.  DESIGN CHOICE: a SURVEY packet of a
TSB that R136 does not list for this direction is routed on as any packet, and dropped only where it would reach
an engine (log entry 148). -/
def routeUp (s : State) (h : Hdr) (pid len : Nat) : State × List Deliver :=
  if h.addr = 0xFFFF#16 then
    (copyAll s dnAll h pid len, hubCopy h ++ if s.ln.en then [.loc] else [])
  else if 0xF000 ≤ h.addr.toNat && h.addr.toNat ≤ 0xFFFD then toGroup s h pid len
  else if isNode s h.addr then
    (s, if h.typ = 14#4 then [.hub] else if h.typ = 15#4 then [.proxy]
        else if expectsAnswer h then [.answer 16 (hshk h 0x03 [])] else [])
  else if s.ln.en && s.bus.loc != 0xFFFE#16 && h.addr = s.bus.loc then (s, [.loc])
  else match rangePort s h.addr with
    | some m => toPort s m h pid len
    | none => (countNoroute s, [])

/-- R138: an ECHO or TOKEN with HOP = 0 goes to the survey engine whatever its ADDR. -/
def echoTap (h : Hdr) : List Deliver :=
  if h.typ = 13#4 && h.hop = 0#10 && (h.tsb = 3#8 || h.tsb = 4#8) then [.survey] else []

/-- A header received on UP whose check has passed. -/
def headerUp (s : State) (ws : List Word) (h : Hdr) (len : Nat) : State :=
  let r := routeUp s h s.bus.pid len
  addRx r.1 0 ws h len (groupAddr h) false (r.2 ++ echoTap h)

/-! ## Routing from a downstream port (R89, R96, R107, R136) -/

/-- The slot on Dm that waits for this answer (R119). -/
def slotOf (s : State) (m : DnN) (h : Hdr) : Option (Fin 48) :=
  (List.finRange 48).find? fun j => s.tt.slots[j].any fun x =>
    slotMatch m h (some x) && x.st = .waiting && x.rx.isNone

/-- Where a packet that goes up from Dm goes: wrapped when its partner is unassigned (R89, R96). -/
def upward (s : State) (m : DnN) (h : Hdr) (pid len : Nat) : State × List Deliver :=
  if groupAddr h then (countNoroute s, [])
  else if hopFull h then (countNoroute s, [])
  else if h.addr = 0xFFFE#16 then
    if s.bus.node = 0xFFFE#16 || h.pcls || 1016 < 2 * (len - 6) - (if h.odd then 1 else 0) then
      (countNoroute s, [])
    else (s, [.wrap])
  else (copyUp s m h pid len, [])

/-- A packet from below is copied to UP as it is: no address class of R89 keeps or wraps it, and UP has a
link (R85, R125). -/
def copiesUp (s : State) (h : Hdr) : Bool :=
  h.addr.toNat < 0xF000 && !hopFull h && isUp s.ports[(0 : PortN)]

/-- A survey packet from below (R136, R141).  A RECORD or BREAK shorter than its 16 words is discarded.
DESIGN CHOICE: an OPEN, ECHO or TOKEN from below is discarded too, without a count (log entry 116). -/
def surveyUp (s : State) (m : DnN) (h : Hdr) (pid len : Nat) : State × List Deliver :=
  if h.tsb = 2#8 || h.tsb = 7#8 || h.tsb = 8#8 then (s, if h.hop = 0#10 then [.survey] else [])
  else if (h.tsb = 5#8 || h.tsb = 6#8) && 22 ≤ len then
    let r := upward s m h pid len
    (r.1, if copiesUp s h then r.2 ++ [.survey] else r.2)
  else (s, [])

/-- A response from below (R84, R107): the epoch check, the slot or the record it answers, the EPOCH
restored.  One with a multicast or broadcast ADDR counts in NOROUTE (R89).  DEDUCED: and not in TT_ERR.REC
besides (log entry 139). -/
def answerUp (s : State) (m : DnN) (h : Hdr) (pid len : Nat) : Hdr × State × List Deliver :=
  let p := s.ports[dnPort m]
  if groupAddr h then (h, countNoroute s, [])
  else if h.epoch.toNat != p.epoch then (h, countRec s, [])
  else match slotOf s m h with
    | some j => (h, modSlot s j fun o => o.map fun x => { x with rx := some pid }, [.slot j])
    | none =>
      match p.recs.find? (recMatch h) with
      | none => (h, countRec s, [])
      | some r =>
        let s1 := modPort s (dnPort m) fun q => { q with recs := q.recs.filter fun x => !recMatch h x }
        let h1 := { h with epoch := r.epoch }
        let u := upward s1 m h1 pid len
        (h1, u.1, u.2)

/-- A header received on Dm whose check has passed.  DESIGN CHOICE: a packet with ADDR = 0xFFFE that is no
response has no record to restore an EPOCH from, and is wrapped by R96 with no epoch check and with the EPOCH it
carries (log entry 141). -/
def headerDown (s : State) (m : DnN) (ws : List Word) (h : Hdr) (len : Nat) : State :=
  let pid := s.bus.pid
  let r : Hdr × State × List Deliver :=
    if isAnswerType h.typ.toNat then answerUp s m h pid len
    else if h.typ = 13#4 then (h, surveyUp s m h pid len)
    else (h, upward s m h pid len)
  addRx r.2.1 (dnPort m) ws r.1 len false false r.2.2

/-- A SOP ends the discarding of a packet whose close never came; one inside a packet is misplaced and
leaves that packet malformed. -/
def rxUnclosed (s : State) (n : PortN) : State :=
  let s1 := if (rxGood s.ports[n]).isSome then malformRx (countCode s n) n else s
  match s1.ports[n].rxCur with
  | some pid => dropRx s1 n pid 1 false
  | none => s1

/-- Row PACKET_HEADER_RX: the header check, then the route, decided once (R79, R82, R86, R90).  A
non-periodic packet between PRE and RSM is misplaced: it is counted and discarded (R58). -/
def headerRx (s : State) (n : PortN) (w0 w1 w2 w3 : Word) (len : Nat) : State :=
  let h := hdrOf w0 w1 w2 w3
  let ws := [w0, w1, w2, w3]
  let s0 := rxUnclosed s n
  if !hdrOk w0 w1 w2 w3 then
    addRx (modPort s0 n fun p => { p with hdrErr := satInc 255 p.hdrErr }) n ws h len false true []
  else if s0.ports[n].rxSusp.isSome && !h.pcls then addRx (countCode s0 n) n ws h len false true []
  else if hn : n.val = 0 then headerUp s0 ws h len
  else headerDown s0 ⟨n.val - 1, by omega⟩ ws h len

/-- A header that comes in a flood: its packet is discarded and counted once, and its words hold credits until
its end, which gives them back in the class of its PCLS bit (R74, R88). -/
def floodHeader (s : State) (n : PortN) (w0 w1 w2 w3 : Word) (len : Nat) : State :=
  addRx (floodDrop (rxUnclosed s n) n) n [w0, w1, w2, w3] (hdrOf w0 w1 w2 w3) len false true []

/-- Row PACKET_HEADER_RX (R90): `len` is the packet's length in words. -/
def execPacketHeaderRx (n : PortN) (w0 w1 w2 w3 len : Word) (s : State) : Outcome :=
  onLink s fun s => whenDo (isUp s.ports[n]) (fun s =>
    if s.ports[n].flooding then floodHeader s n w0 w1 w2 w3 len.toNat else headerRx s n w0 w1 w2 w3 len.toNat) s

/-! ## The trailer (R86, R87, R119) -/

/-- Words that a payload takes in the TT buffer, in chunks (R119). -/
def chunksOf (words : Nat) : Nat := (words + 255) / 256

/-- Words of a packet that have arrived on port n: one a word time since its header check or since its RSM,
none while it is suspended (R49, R59; log entry 111). -/
def wordsIn (s : State) (n : PortN) (r : RxPkt) : Nat :=
  if s.ports[n].rxCur = some r.pid then min r.len (r.got + (now s - r.since) / wordTicks s.ports[n].rate)
  else min r.len r.got

/-- Chunks that the words of a slot's answer need so far (R119). -/
def chunksDue (s : State) (x : Slot) : Nat :=
  match x.wants with
  | some p => chunksOf p.payload.length
  | none =>
    match x.rx.bind (findRx s.ports[dnPort x.port]) with
    | some r => chunksOf (min (r.len - 6) (wordsIn s (dnPort x.port) r - 4))
    | none => 0

/-- The slot's answer asks for a chunk. -/
def asksChunk (s : State) (x : Slot) : Bool := x.st = .waiting && x.ansCh < chunksDue s x

/-- An answer that has fully arrived and has its chunks is stored (R121). -/
def storeAnswer (x : Slot) : Slot :=
  match x.wants with
  | some p =>
    if chunksOf p.payload.length ≤ x.ansCh then { x with st := .stored, ans := some p, rx := none, wants := none }
    else x
  | none => x

/-- The slot that the allocator serves: the lowest port's (R119).  DESIGN CHOICE: of two answers of one port, the
one whose header check came first (log entry 142). -/
def chunkWinner (s : State) : Option (Fin 48) :=
  let asks := (List.finRange 48).filterMap fun j =>
    (s.tt.slots[j].filter (asksChunk s)).map fun x => (x.port.val, x.rx.getD 0, j)
  (asks.foldl (fun (a : Option (Nat × Nat × Fin 48)) b => match a with
    | none => some b
    | some a => if b.1 < a.1 || (b.1 = a.1 && b.2.1 < a.2.1) then some b else some a) none).map (·.2.2)

/-- One cycle of the allocator: a free chunk goes to the winner (R119). -/
def chunkStep (s : State) : State :=
  if 48 ≤ chunksUsed s then s
  else match chunkWinner s with
    | some j => sweepRx (noteHwm (modSlot s j fun o => o.map fun x => storeAnswer { x with ansCh := x.ansCh + 1 }))
    | none => s

/-- The answer of slot j has fully arrived: it is stored once it has its chunks, and stays in the receive
buffer until then (R119, R121). -/
def slotAnswer (s : State) (j : Fin 48) (pid : Nat) (p : Pkt) : State :=
  if s.tt.slots[j].any fun x => x.st = .waiting && x.rx = some pid then
    chunkStep (chunkStep (modSlot s j fun o => o.map fun x => storeAnswer { x with wants := some p }))
  else s

/-- A response of an unassigned partner goes up as a PROXY (R96). -/
def wrapPkt (s : State) (n : PortN) (p : Pkt) (inner : List Word) : Pkt where
  hdr := { p.hdr with
    typ := 15#4, pcls := false, hop := p.hdr.hop + 1#10, addr := s.bus.node, tsb := BitVec.ofNat 8 n.val }
  payload := inner ++ p.payload

/-- The census and survey engines take this packet: a known subtype, no shorter than its layout
(R129, R136).  DESIGN CHOICE: a CENSUS OPEN is taken whatever its length, a missing word read as 0; the rule
gives CENSUS no length (log entry 117). -/
def engineTakes (p : Pkt) : Bool :=
  let t := p.hdr.tsb.toNat
  let n := p.payload.length
  if p.hdr.typ = 12#4 then t = 1
  else if t = 1 || t = 2 then 2 ≤ n else if t = 3 then 4 ≤ n else (t = 4 || t = 7 || t = 8) && 1 ≤ n

/-- A RECORD or BREAK forwarded from Dm in this sweep is counted (R141, Break record). -/
def countForwarded (s : State) (n : PortN) : State :=
  if h : n.val = 0 then s
  else { s with sur := { s.sur with
    forwarded := vMod s.sur.forwarded ⟨n.val - 1, by omega⟩ (satInc 65535) } }

/-- Put a whole packet before a block of the part. -/
def inboxPush (s : State) (n : PortN) (r : RxPkt) (d : Deliver) (p : Pkt) : State :=
  { s with bus := { s.bus with inbox := s.bus.inbox ++ [{ pid := r.pid, dest := d, port := n, pkt := p, stamp := r.stamp, pll := r.pll, mc := r.mc }] } }

/-- One delivery of a received packet whose trailer has passed (R87).  `raw` is its header as
received. -/
def deliver (n : PortN) (r : RxPkt) (raw : List Word) (p : Pkt) (s : State) (d : Deliver) : State :=
  match d with
  | .answer k q => ulaPush s k (ownTx q .none)
  | .slot j => slotAnswer s j r.pid p
  | .wrap => ulaPush s (n.val - 1) (ownTx (wrapPkt s n p raw) .none)
  | .loc =>
    if localTakes p.hdr then inboxPush s n r d p
    else if r.mc || !expectsAnswer p.hdr then s
    else serveOther (inboxPush s n r d p)
  | .survey =>
    if p.hdr.tsb = 5#8 || p.hdr.tsb = 6#8 then countForwarded s n
    else if engineTakes p then inboxPush s n r d p else s
  | .census => if engineTakes p then inboxPush s n r d p else s
  | _ => inboxPush s n r d p

/-- The copies of packet `pid` are complete: payload and length are known. -/
def finishCopies (pid : Nat) (payload : List Word) (s : State) : State :=
  let fin (t : TxPkt) : TxPkt :=
    if t.pid = pid then { t with pkt := { t.pkt with payload := payload }, len := payload.length + 6, done := true }
    else t
  { s with
    ports := s.ports.map fun p => { p with txq := p.txq.map fin, txCur := p.txCur.map fin }
    ula := { s.ula with
      reqs := s.ula.reqs.map fun l => l.map fin
      susp := s.ula.susp.map fun x => (fin x.1, x.2) } }

/-- The header words as received of a packet from Dm: a response came with the EPOCH of its link. -/
def rawHdr (s : State) (n : PortN) (h : Hdr) : List Word :=
  hdrWords (if isAnswerType h.typ.toNat then { h with epoch := BitVec.ofNat 4 s.ports[n].epoch } else h)

/-- A trailer that passes: copies are completed, cues are judged, deliveries made (R87, R160). -/
def trailerGood (s : State) (n : PortN) (r : RxPkt) (payload : List Word) : State :=
  let s1 := finishCopies r.pid payload (modPort s n fun p =>
    { p with
      rxCur := none
      rx := p.rx.map fun x => if x.pid = r.pid then { x with ended := true, len := payload.length + 6 } else x })
  let s2 := if n = 0 then forEach dnAll (fun a m => settleCue a m r.pid) s1 else s1
  let p : Pkt := { hdr := r.hdr, payload := payload }
  sweepRx (r.dest.foldl (deliver n r (rawHdr s n r.hdr) p) s2)

/-- The number of words that packet `pid` turned out to have. -/
def setRxLen (s : State) (n : PortN) (pid words : Nat) : State :=
  modPort s n fun p => { p with rx := p.rx.map fun x => if x.pid = pid then { x with len := words } else x }

/-- A trailer failure or a malformed packet counts in PORT_ERRCNT.CRC (R86). -/
def countCrc (s : State) (n : PortN) : State := modPort s n fun p => { p with crcErr := satInc 255 p.crcErr }

/-- The words between the header and the close spell a payload with its trailer (R80, R81). -/
def bodyOk (h : Hdr) (ws : List Word) : Bool :=
  let payload := ws.take (ws.length - 2)
  let t := ws.drop (ws.length - 2)
  2 ≤ ws.length && trailerOf payload = (wAt t 0, wAt t 1) && !malformed h payload

/-- A packet ends with EOP (R80, R81, R86): `ws` are its words after the fourth header word.  With no header
taken they are all of its words, fewer than four: such a packet is malformed and gives its credits back. -/
def trailerRx (s : State) (n : PortN) (ws : List Word) : State :=
  match s.ports[n].rxCur.bind (findRx s.ports[n]) with
  | none =>
    if ws.length < 4 then returnCredits (countCrc s n) n (!bit (wAt ws 0) 10) (creditsOf ws.length) else s
  | some r =>
    let s1 := setRxLen s n r.pid (ws.length + 4)
    if r.bad then dropRx s1 n r.pid 1 true
    else if bodyOk r.hdr ws then trailerGood s1 n r (ws.take (ws.length - 2))
    else dropRx (countCrc s1 n) n r.pid 1 true

/-- A packet of which `words` words came ends in a flood: all of it is discarded, and its credits come back
(R74, R88).  One that ended before its fourth header word counts in DISCARDS here. -/
def floodClose (s : State) (n : PortN) (words : Nat) (pcls : Bool) : State :=
  match s.ports[n].rxCur with
  | some pid => dropRx (setRxLen s n pid words) n pid 2 false
  | none => returnCredits (floodDrop s n) n (!pcls) (creditsOf words)

/-- The words that end a packet, in their order (R80). -/
def endWords (payload : List Word) (t0 t1 : Option Word) : List Word := payload ++ t0.toList ++ t1.toList

/-- Row PACKET_TRAILER_RX (R86). -/
def execPacketTrailerRx (n : PortN) (payload : List Word) (t0 t1 : Option Word) (s : State) : Outcome :=
  onLink s fun s => whenDo (isUp s.ports[n]) (fun s =>
    let ws := endWords payload t0 t1
    if s.ports[n].flooding then
      (if s.ports[n].rxCur.isSome then floodClose s n (ws.length + 4) false
       else if ws.length < 4 then floodClose s n ws.length (bit (wAt ws 0) 10) else s)
    else trailerRx s n ws) s

/-- An EAB received (R86, R88): the packet is discarded, with credits for the words received. -/
def eabRx (s : State) (n : PortN) (reason words : Nat) (pcls : Bool) : State :=
  match s.ports[n].rxCur with
  | none => returnCredits s n (!pcls) (creditsOf words)
  | some pid =>
    dropRx (setRxLen s n pid words) n pid reason false

/-- Row EAB_RX (R86). -/
def execEabRx (n : PortN) (reason : BitVec 8) (words : Word) (pcls : Bool) (s : State) : Outcome :=
  onLink s fun s => whenDo (isUp s.ports[n]) (fun s =>
    if s.ports[n].flooding then floodClose s n words.toNat pcls
    else eabRx s n reason.toNat words.toNat pcls) s

/-! ## The transmit selectors (R111, R114, R115) -/

/-- The packet may start: not held, and whole if it must be (R111, R160). -/
def startable (t : TxPkt) : Bool := t.cue.isNone && (t.done || !t.saf)

/-- The next catch of the crews that hold a packet for the port, wherever they hold their cues (R115,
R163). -/
def portCatch (s : State) (p : Port) : Option Nat :=
  (p.txq.filterMap fun x => x.cue.bind fun c => nextCatch s c.1).min?

/-- A non-periodic packet ends before that catch (R115). -/
def beforeCatch (s : State) (p : Port) (t : TxPkt) : Bool :=
  match portCatch s p with
  | none => true
  | some c => now s + t.len * wordTicks p.rate ≤ c

/-- Put a packet behind those whose header checks passed no later. -/
def putInOrder (t : TxPkt) : List TxPkt → List TxPkt
  | [] => [t]
  | x :: l => if x.ord ≤ t.ord then x :: putInOrder t l else t :: x :: l

/-- Packets in the order their header checks passed (R114). -/
def inOrder (l : List TxPkt) : List TxPkt := l.foldl (fun a t => putInOrder t a) []

/-- The packets that have words in the transmit queue, with `p` words left for periodic and `n` for
non-periodic packets: a packet behind a full queue still stalls at its producer (R278).  DESIGN CHOICE: each
class counts its own words, since neither class ever blocks the other (R114; log entry 126). -/
def inQueue : Nat → Nat → List TxPkt → List TxPkt
  | _, _, [] => []
  | p, n, t :: l =>
    if t.pkt.hdr.pcls then (if p = 0 then inQueue 0 n l else t :: inQueue (p - t.len) n l)
    else (if n = 0 then inQueue p 0 l else t :: inQueue p (n - t.len) l)

/-- The packets that stall at their producers because the words of their class are full (R278). -/
def stalled : Nat → Nat → List TxPkt → List TxPkt
  | _, _, [] => []
  | p, n, t :: l =>
    if t.pkt.hdr.pcls then (if p = 0 then t :: stalled 0 n l else stalled (p - t.len) n l)
    else (if n = 0 then t :: stalled p 0 l else stalled p (n - t.len) l)

/-- The order of R114: released cues, then periodic, then non-periodic packets, each with the credits
of its class, among those that have words in the 512-word transmit queue (R278). -/
def selectTx (s : State) (p : Port) : Option TxPkt :=
  let ok := (inQueue 512 512 p.txq).filter fun t => startable t && hasCredits p t
  ((ok.filter fun t => t.free) ++ inOrder (ok.filter fun t => !t.free && t.pkt.hdr.pcls) ++
    inOrder (ok.filter fun t => !t.free && !t.pkt.hdr.pcls && beforeCatch s p t)).head?

/-- A packet whose SOP leaves now: an ECHO takes its turnaround T = t3 - t2 (R139). -/
def withTurn (s : State) (t : TxPkt) : TxPkt :=
  match t.act with
  | .echo t2 =>
    let d := now s - t2
    { t with pkt := { t.pkt with payload := t.pkt.payload.take 2 ++ [wordOf d 1, wordOf d 0] } }
  | _ => t

/-- The departure stamp t1 of a PROBE, and whether CORE ran on the PLL when it was taken (R137, R140). -/
def noteT1 (s : State) (t : TxPkt) : State :=
  if t.act = .probe then { s with sur := { s.sur with t1 := now s, t1Pll := onPll s } } else s

/-- Start the packet: its credits are taken (R60), and a stamp is taken as its SOP leaves (R137, R139). -/
def startTx (n : PortN) (t : TxPkt) (s : State) : State :=
  modPort (noteT1 s t) n fun p => takeCredits t { p with txq := p.txq.erase t, txCur := some (withTurn s t) }

/-- The transmitter of port n is at a packet boundary and may send packets. -/
def atBoundary (s : State) (n : PortN) : Bool :=
  isUp s.ports[n] && s.ports[n].txCur.isNone && !s.ports[n].dark && !s.ports[n].rstOut &&
    s.aon.ports[n].hold = .none

/-- Row SELECTOR_START (R114). -/
def execSelectorStart (m : DnN) (s : State) : Outcome :=
  onLink s fun s => whenDo (atBoundary s (dnPort m))
    (fun s => match selectTx s s.ports[dnPort m] with
      | some t => startTx (dnPort m) t s
      | none => s) s

/-- Row RECORD_EXPIRY (R107). -/
def execRecordExpiry (m : DnN) (addr : Word) (endp : BitVec 5) (tag : BitVec 7) (s : State) : Outcome :=
  onLink s fun s =>
    let f (r : Rec) : Bool := r.addr = addr && r.endp = endp && r.tag = tag
    whenDo (s.ports[dnPort m].recs.any f)
      (fun s => countRec (modPort s (dnPort m) fun p => { p with recs := p.recs.filter fun r => !f r })) s

/-! ## The end of a packet (R119, R121, R123, R141) -/

/-- Free TT slot j; the chunks of an inner request that has not been sent stay with it (R119). -/
def freeSlot (s : State) (j : Fin 48) : State := sweepRx (forgetSlot (modSlot s j fun _ => none) j (heldChunks s j))

/-- An inner request has been sent: its chunks are given back, and an inner POUT's slot is freed
(R119, R123). -/
def innerSent (x : Slot) : Option Slot :=
  if x.ityp = 6#4 then none else some { x with sent := true, inCh := 0 }

/-- What the end of a packet does besides. -/
def eopAct (s : State) (a : OnEop) : State :=
  match a with
  | .none => s
  | .innerSent j =>
    if s.tt.slots[j].any fun x => (innerSent x).isNone then freeSlot s j
    else modSlot s j fun o => o.bind innerSent
  | .chunks _ => s
  | .answerSent j => freeSlot s j
  | .pindSent k => pindLeft s k
  | .reportSent => { s with cen := { s.cen with sent := true } }
  | .recordSent => if s.sur.walk = .record then setWalk s .recordOut else s
  | .probe => s
  | .echo _ => s

/-- A packet's last word has left port n. -/
def eopSent (s : State) (n : PortN) : State :=
  match s.ports[n].txCur with
  | none => s
  | some t =>
    if !t.done || t.fail.isSome then s
    else
      let s1 := emit (modPort s n fun p => { p with txCur := none }) (.pkt n t.pkt)
      let s2 := if n = 0 then
          { s1 with ula := { s1.ula with arb := { s1.ula.arb with holder := none } } } else s1
      boundary (sweepRx (eopAct s2 t.act)) n

/-- Row EOP_SENT (R67, R119, R121, R289). -/
def execEopSent (n : PortN) (s : State) : Outcome :=
  onLink s fun s => if n = 0 then childLeave (eopSent s n) else eopSent s n

end Sys2Proof.Machine
end

