-- ==== Sys2Proof/Machine/Split.lean ====
section
/-! DEFINITION. The proxy forwarder (R95) and the transaction translator (R117 to R123). -/

namespace Sys2Proof.Machine

open Sys2Proof

/-! ## The proxy forwarder (R95, R106) -/

/-- The record of a PROXY inner packet: the EPOCH is that of the outer PROXY (R106). -/
def proxyRec (inner outer : Hdr) : Rec := { recOf inner with epoch := outer.epoch }

/-- Send the inner packet of a PROXY on Dm (R84, R95). -/
def proxySend (s : State) (m : DnN) (ord : Nat) (outer inner : Hdr) (payload : List Word) : State :=
  let n := dnPort m
  let h := { inner with hop := outer.hop + 1#10 }
  if expectsAnswer inner then
    let s1 := modPort s n fun p =>
      { p with recs := p.recs.filter (fun r => !recMatch inner r) ++ [proxyRec inner outer] }
    sendAt s1 m ord { hdr := { h with epoch := BitVec.ofNat 4 s.ports[n].epoch }, payload := payload } .none
  else sendAt s m ord { hdr := h, payload := payload } .none

/-- What the forwarder does with a PROXY for port Dm whose contents are in order (R95).  DESIGN CHOICE: GONE
and NAK answer a PROXY with HOP = 1,023 before it is counted in NOROUTE (log entry 110). -/
def proxyTo (s : State) (m : DnN) (ord : Nat) (outer inner : Hdr) (payload : List Word) : State :=
  if !isUp s.ports[dnPort m] then
    ulaPush s (ulaOf m) (ownTx (goneOf outer s.bus.node (dnPort m)) .none)
  else if expectsAnswer inner && !recRoom s.ports[dnPort m] inner then
    ulaPush (countRec s) (ulaOf m) (ownTx (hshk outer 0x02 []) .none)
  else if hopFull outer then countNoroute s
  else proxySend s m ord outer inner payload

/-- The PROXY is answered STALL: a bad port, a short payload, or an inner header that R95 refuses. -/
def proxyBad (p : Pkt) : Bool :=
  let i := hdrOf (wAt p.payload 0) (wAt p.payload 1) (wAt p.payload 2) (wAt p.payload 3)
  let n := p.hdr.tsb.toNat
  n = 0 || 16 < n || p.payload.length < 4 || i.addr != 0xFFFE#16 || i.typ = 15#4 || i.pcls ||
    p.hdr.odd != i.odd

/-- Take a PROXY whose trailer has passed (R95). -/
def proxyRx (s : State) (ord : Nat) (p : Pkt) : State :=
  let i := hdrOf (wAt p.payload 0) (wAt p.payload 1) (wAt p.payload 2) (wAt p.payload 3)
  let k := p.hdr.tsb.toNat - 1
  if proxyBad p then ulaPush s 16 (ownTx (hshk p.hdr 0x03 []) .none)
  else if h : k < 16 then proxyTo s ⟨k, h⟩ ord p.hdr i (p.payload.drop 4)
  else s

/-- Row PROXY_RX (R95). -/
def execProxyRx (s : State) : Outcome :=
  onLink s fun s => match takeInbox s (fun x => x.dest = .proxy) with
    | some (x, s1) => proxyRx s1 x.pid x.pkt
    | none => s

/-! ## The translator -/

/-- The port that a packet for the TT names. -/
def ttPort (d : Deliver) : Option DnN :=
  match d with
  | .tt m => some m
  | _ => none

/-- Hand a TT answer to the ULA as requester 18 (R120). -/
def ttSend (s : State) (p : Pkt) (act : OnEop) : State := ulaPush s 18 (ownTx p act)

/-- A plain handshake of the TT. -/
def ttHshk (s : State) (h : Hdr) (code : Nat) : State := ttSend s (hshk h code []) .none

/-- SSPLIT up: the slot number in W3[15:8] (R118). -/
def ssplitUp (h : Hdr) (j : Fin 48) : Pkt where
  hdr := { h with typ := 9#4, odd := false, hop := 0#10, tsb := BitVec.ofNat 8 j.val }
  payload := []

/-- Inner TYPE of a split packet, W3[15:12] (R118). -/
def innerType (h : Hdr) : Nat := h.tsb.toNat / 16

/-- Inner TYPEs that the TT takes (R118). -/
def splitTypes : List Nat := [0, 1, 2, 3, 4, 6, 7, 14]

/-- The TT refuses this SSPLIT (R118).  DESIGN CHOICE: with TT_CTRL.EN = 0 an SSPLIT that repeats a held slot
is refused as well; R118 says so of any, the text of TT_CTRL of new ones alone (log entry 112). -/
def splitRefused (s : State) (h : Hdr) : Bool :=
  !s.tt.en || !splitTypes.contains (innerType h) || typeClass (innerType h) != some h.pcls

/-- The lowest-numbered free slot, if the chunks for `words` are free as well (R119). -/
def roomFor (s : State) (words : Nat) : Option (Fin 48) :=
  if chunksUsed s + chunksOf words ≤ 48 then
    (List.finRange 48).find? fun j => s.tt.slots[j].isNone
  else none

/-- The header of the inner request, EPOCH as received: TYPE from W3[15:12], CUE from W3[11] (R118, R120). -/
def innerHdr (h : Hdr) : Hdr :=
  { h with
    typ := BitVec.ofNat 4 (innerType h)
    hop := h.hop + 1#10
    tsb := if h.tsb.getLsbD 3 && innerType h = 6 then 0x80#8 else 0#8 }

/-- The inner request of an SSPLIT (R118, R120). -/
def innerPkt (s : State) (m : DnN) (p : Pkt) : Pkt :=
  let h := innerHdr p.hdr
  { hdr := if expectsAnswer h then { h with epoch := BitVec.ofNat 4 s.ports[dnPort m].epoch } else h
    payload := p.payload }

/-- The slot that an accepted SSPLIT takes (R119). -/
def newSlot (s : State) (m : DnN) (p : Pkt) : Slot where
  port := m
  addr := p.hdr.addr
  endp := p.hdr.endp
  tag := p.hdr.tag
  epoch := p.hdr.epoch
  pcls := p.hdr.pcls
  ityp := BitVec.ofNat 4 (innerType p.hdr)
  st := .waiting
  inCh := chunksOf p.payload.length
  ansCh := 0
  ans := none
  sent := false
  rx := none
  wants := none
  strokes := 0
  tmo := s.tt.tmo

/-- Queue an inner request on Dm: an inner POUT with CUE = 1 is judged as any cue (R123, R160). -/
def queueInner (s : State) (m : DnN) (j : Fin 48) (ord : Nat) (q : Pkt) : State :=
  let t := { ownTx q (.innerSent j) with ord := ord }
  let put (s : State) (t : TxPkt) : State := modPort s (dnPort m) fun p => { p with txq := p.txq ++ [t] }
  if !cueBit q.hdr then put s t
  else
    let r := judgeCue s (dnPort m).val q (decide (384 < heldWords s.ports[dnPort m] + t.len))
    match r.1 with
    | .hold k i => put r.2 { t with cue := some (k, i) }
    | .pass => put r.2 t
    | .drop => freeSlot r.2 j

/-- Take slot j for an SSPLIT and send its inner request, in the place of the SSPLIT's header check (R114,
R120). -/
def acceptSplit (s : State) (m : DnN) (j : Fin 48) (ord : Nat) (p : Pkt) : State :=
  queueInner (noteHwm (modSlot s j fun _ => some (newSlot s m p))) m j ord (innerPkt s m p)

/-- A non-periodic SSPLIT (R121). -/
def splitN (s : State) (m : DnN) (ord : Nat) (p : Pkt) : State :=
  match findSlot s m p.hdr with
  | some j => ttSend s (ssplitUp p.hdr j) .none
  | none =>
    match roomFor s p.payload.length with
    | some j => acceptSplit (ttSend s (ssplitUp p.hdr j) .none) m j ord p
    | none => ttHshk s p.hdr 0x02

/-- A periodic SSPLIT: one that matches a held slot frees it with all its chunks (R123). -/
def splitP (s : State) (m : DnN) (ord : Nat) (p : Pkt) : State :=
  let s1 := match findSlot s m p.hdr with
    | some j => sweepRx (forgetSlot (modSlot s j fun _ => none) j 0)
    | none => s
  match roomFor s1 p.payload.length with
  | some j => acceptSplit s1 m j ord p
  | none => countPdrop s1

/-- The inner POUT of this SSPLIT has CUE = 1 and names no catch stroke: it is malformed (R81, R160). -/
def splitMalformed (p : Pkt) : Bool := cueBit (innerHdr p.hdr) && p.payload.length < 2

/-- The SSPLIT's port has left split mode since its header check.  DESIGN CHOICE: it is answered as the slot it
would hold at the link-down, with GONE, and an inner POUT is discarded (R124, R288; log entry 113). -/
def splitLate (s : State) (m : DnN) (p : Pkt) : State :=
  if innerType p.hdr = 6 then s else ulaPush s (ulaOf m) (ownTx (goneOf p.hdr s.bus.node (dnPort m)) .none)

/-- Take an SSPLIT whose trailer has passed (R118, R121, R123).  A malformed inner POUT is handled as a
trailer failure on UP (R81, R86). -/
def ssplitRx (s : State) (m : DnN) (ord : Nat) (p : Pkt) : State :=
  if hopFull p.hdr then countNoroute s
  else if !splitMode s m then splitLate s m p
  else if splitRefused s p.hdr then (if p.hdr.pcls then countPdrop s else ttHshk s p.hdr 0x03)
  else if splitMalformed p then countCrc s 0
  else if p.hdr.pcls then splitP s m ord p
  else splitN s m ord p

/-- A packet for the TT of the given type. -/
def forTt (typ : BitVec 4) (x : Inbox) : Bool := (ttPort x.dest).isSome && x.pkt.hdr.typ = typ

/-- Take the oldest split packet of a type and act on it. -/
def onTt (typ : BitVec 4) (act : State → DnN → Nat → Pkt → State) (s : State) : State :=
  match takeInbox s (forTt typ) with
  | none => s
  | some (x, s1) => match ttPort x.dest with
    | some m => act s1 m x.pid x.pkt
    | none => s1

/-- Row SSPLIT_RX (R118, R119, R121, R123). -/
def execSsplitRx (s : State) : Outcome := onLink s fun s => onTt 9#4 ssplitRx s

/-- CSPLIT up with a stored answer (R118). -/
def csplitUp (h : Hdr) (a : Pkt) : Pkt where
  hdr := { h with
    typ := 10#4
    odd := a.hdr.odd
    pcls := a.hdr.pcls
    hop := 0#10
    tsb := BitVec.ofNat 8 (16 * a.hdr.typ.toNat + a.hdr.tsb.toNat % 16) }
  payload := a.payload

/-- The answer to a CSPLIT that matches slot j (R121, R123). -/
def csplitSlot (s : State) (j : Fin 48) (x : Slot) (h : Hdr) : State :=
  match x.st, x.ans with
  | .stored, some a => ttSend s (csplitUp h a) (.answerSent j)
  | .failed, _ => freeSlot (ttHshk s h 0x02) j
  | _, _ => if x.pcls then ttSend s (hshk h 0x06 []) (.answerSent j) else ttHshk s h 0x04

/-- Take a CSPLIT whose trailer has passed (R121).  DESIGN CHOICE: a payload that it carries against R118 is
ignored (log entry 144). -/
def csplitRx (s : State) (m : DnN) (p : Pkt) : State :=
  match findSlot s m p.hdr with
  | none => ttHshk s p.hdr 0x03
  | some j => match s.tt.slots[j] with
    | none => s
    | some x =>
      if x.ityp.toNat != innerType p.hdr || x.pcls != p.hdr.pcls then ttHshk s p.hdr 0x03
      else csplitSlot s j x p.hdr

/-- Row CSPLIT_RX (R121, R123). -/
def execCsplitRx (s : State) : Outcome := onLink s fun s => onTt 10#4 (fun s m _ p => csplitRx s m p) s

/-- Row CHUNK_GRANT (R119). -/
def execChunkGrant (s : State) : Outcome := onLink s chunkStep

/-- The slot's answer has not fully arrived (R122). -/
def unanswered (x : Slot) : Bool := x.st = .waiting && x.wants.isNone

/-- A non-periodic slot fails: the chunks of its answer are given back, the rest is discarded, TMO
counts (R122). -/
def failSlot (s : State) (j : Fin 48) : State :=
  let s1 := modSlot (dropAnswer s j) j fun o => o.map fun x =>
    { x with st := .failed, ansCh := 0, ans := none, rx := none, wants := none }
  sweepRx { s1 with tt := { s1.tt with errTmo := satInc 15 s1.tt.errTmo } }

/-- Act on slot j when `f` holds of what it holds. -/
def onSlot (s : State) (j : Fin 48) (f : Slot → Bool) (act : State → State) : State :=
  whenDo (s.tt.slots[j].any f) act s

/-- Row TT_SLOT_TIMEOUT (R122). -/
def execTtSlotTimeout (j : Fin 48) (s : State) : Outcome :=
  onLink s fun s => onSlot s j (fun x => !x.pcls && unanswered x && x.tmo ≤ x.strokes) (failSlot · j)

/-- Row TT_SLOT_EXPIRE (R122). -/
def execTtSlotExpire (j : Fin 48) (s : State) : Outcome :=
  onLink s fun s => onSlot s j (fun x => !x.pcls && x.st != .waiting && 2 * x.tmo ≤ x.strokes) (freeSlot · j)

/-- Row PERIODIC_SLOT_EXPIRE (R123): held at the boundary that ends stroke n + 1. -/
def execPeriodicSlotExpire (j : Fin 48) (s : State) : Outcome :=
  onLink s fun s => onSlot s j (fun x => x.pcls && 2 ≤ x.strokes) (freeSlot · j)

/-- TT_CTRL.CNT_CLR = 1. -/
def ttCntClr (s : State) : State :=
  { s with tt := { s.tt with errTmo := 0, errPdrop := 0, errNosplit := 0, errRec := 0,
                             hwmS := slotsUsed s.tt, hwmC := chunksUsed s } }

end Sys2Proof.Machine
end

