-- ==== Sys2Proof/Machine/Survey.lean ====
section
/-! DEFINITION. Census heats (R127 to R134) and survey sweeps (R136 to R143). -/

namespace Sys2Proof.Machine

open Sys2Proof

/-! ## Census -/

/-- The KIND of Dm's entry in a report of mode `mode`, 0 for no entry (R131). -/
def entryKind (s : State) (mode : Nat) (m : DnN) : Nat :=
  let p := s.ports[dnPort m]
  match isUp p, s.cen.views[m] with
  | true, none => 1
  | true, some v =>
    if s.cen.attaches[m] != 0 then 1
    else if v.rate != p.rate || v.cap0 != p.pcap0 || v.cap1 != p.pcap1 then 3
    else if 2 ≤ mode then 1 else 0
  | false, some v => if v.kind = 2 then 0 else 2
  | false, none => 0

/-- The view that Dm's entry becomes once delivered: for DEPARTED the words last delivered (R131). -/
def entryView (s : State) (kind : Nat) (m : DnN) : View :=
  let p := s.ports[dnPort m]
  match s.cen.views[m] with
  | some v => if kind = 2 then { v with kind := 2, rate := 0 }
      else { kind := kind, rate := p.rate, cap0 := p.pcap0, cap1 := p.pcap1 }
  | none => { kind := kind, rate := p.rate, cap0 := p.pcap0, cap1 := p.pcap1 }

/-- The four words of an entry (Census report). -/
def entryWords (s : State) (m : DnN) (v : View) (att : Nat) : List Word :=
  let p := s.ports[dnPort m]
  [orAll [atFld v.kind 12 4, atFld p.epoch 8 4, atFld v.rate 5 3, atFld (dnPort m).val 0 5],
   v.cap0, v.cap1, atFld (min 255 att) 0 8 ||| atFld p.hold 8 4]

/-- The entries of a new report, in port order (R131). -/
def entriesOf (s : State) (mode : Nat) : List (DnN × View × Nat) :=
  dnAll.filterMap fun m =>
    let k := entryKind s mode m
    if k = 0 then none else some (m, entryView s k m, s.cen.attaches[m])

/-- The words of a report (Census report). -/
def reportWords (s : State) (h : Word) (mode : Nat) (es : List (DnN × View × Nat)) : List Word :=
  [h, orAll [atBit (decide (2 ≤ mode)) 0, atBit s.ln.en 1, atBit s.clk.corePll 2, atFld es.length 4 5],
   orAll (dnAll.map fun m => atBit (isUp s.ports[dnPort m]) m.val)] ++
  es.flatMap fun e => entryWords s e.1 e.2.1 e.2.2

/-- Hand a report to the ULA and raise EV_CENSUS (R132). -/
def sendReport (s : State) (h : Word) (k : Nat) (ws : List Word) : State :=
  raise (engineUp s { hdr := engineHdr 12#4 s.bus.node 0x02, payload := ws } .reportSent)
    { code := 0x14, src := 0, w1 := h, w2 := w16 k }

/-- The delivered report becomes the delivered view of every port it names (R130, step 2). -/
def deliverViews (c : Cen) : Cen :=
  c.entries.foldl (fun c e => { c with
    views := vMod c.views e.1 fun _ => some e.2.1
    attaches := vMod c.attaches e.1 fun n => n - e.2.2 }) c

/-- A packet that no longer counts as the report. -/
def notReport (t : TxPkt) : TxPkt := if t.act = .reportSent then { t with act := .none } else t

/-- A report still unsent is discarded when a new one is built (R130).  DESIGN CHOICE: so is a RETRY copy of a
report that was sent, while it is queued (log entry 145); and a report whose SOP has left UP runs to its end and
is never counted as delivered (log entry 146). -/
def dropReport (s : State) : State :=
  { s with
    ula := { s.ula with
      reqs := s.ula.reqs.map fun l => l.filter fun t => t.act != .reportSent
      susp := s.ula.susp.map fun x => (notReport x.1, x.2) }
    ports := s.ports.map fun p => { p with txCur := p.txCur.map notReport } }

/-- Build the report for heat `h`, and send it if it must be (R130, steps 2 to 4). -/
def newReport (s : State) (h : Word) (mode : Nat) : State :=
  let s0 := dropReport s
  let s1 := { s0 with cen := if s.cen.sent then deliverViews s.cen else s.cen }
  let es := entriesOf s1 mode
  let ws := reportWords s1 h mode es
  let go := !es.isEmpty || mode != 0
  let s2 := { s1 with cen := { s1.cen with lastHeat := some h, report := ws, handed := go, sent := false, entries := es } }
  if go then sendReport s2 h es.length ws else s2

/-- RETRY = 1 in a report's word 1. -/
def retryWords (ws : List Word) : List Word :=
  ws.mapIdx fun i w => if i = 1 then w ||| 0x0008#16 else w

/-- The report of LASTHEAT waits for UP or is being sent; one that was lost with the link does neither
(R125, R130). -/
def reportQueued (s : State) : Bool :=
  s.cen.handed &&
    ((vAt s.ula.reqs [] 17).any (fun t => t.act = .reportSent) || s.ports[(0 : PortN)].txCur.any (fun t => t.act = .reportSent) ||
      s.ula.susp.any fun x => x.1.act = .reportSent)

/-- OPEN for heat `h` (R130): the report of LASTHEAT once more, nothing while it is queued, or a new
report. -/
def censusOpen (s : State) (p : Pkt) : State :=
  let h := wAt p.payload 0
  if !assigned s then s
  else if s.cen.lastHeat = some h && s.cen.sent then
    sendReport s h s.cen.entries.length (retryWords s.cen.report)
  else if s.cen.lastHeat = some h && reportQueued s then s
  else newReport s h (fld (wAt p.payload 1) 0 2)

/-- Row CENSUS_OPEN (R129 to R132). -/
def execCensusOpen (s : State) : Outcome :=
  onLink s fun s => match takeInbox s (fun x => x.dest = .census) with
    | some (x, s1) => censusOpen s1 x.pkt
    | none => s

/-! ## Survey: probing (R137 to R140) -/

/-- Take the oldest survey packet of a subtype that arrived on UP (`up`) or below. -/
def onSurvey (tsb : Nat) (up : Bool) (act : State → Inbox → State) (s : State) : State :=
  match takeInbox s (fun x => x.dest = .survey && x.pkt.hdr.tsb.toNat = tsb && decide (x.port = 0) == up) with
  | some (x, s1) => act s1 x
  | none => s

/-- The packet's sweep number is the current one (R136). -/
def thisSweep (s : State) (x : Inbox) : Bool := s.sur.sweep = some (wAt x.pkt.payload 0)

/-- Send PROBE `k` on UP (R137). -/
def sendProbe (s : State) (k : Nat) : State :=
  engineUp { s with sur := { s.sur with probe := k } }
    (surveyPkt s.bus.node 0x02 [s.sur.sweep.getD 0#16, w16 k]) .probe

/-- OPEN with a new sweep number (R137). -/
def surveyOpen (s : State) (x : Inbox) : State :=
  let n := wAt x.pkt.payload 0
  if !assigned s || s.sur.sweep = some n then s
  else sendProbe { s with sur := { Sur.reset with
    sweep := some n
    tmo := max 1 (fld (wAt x.pkt.payload 1) 0 8)
    depth := (x.pkt.hdr.hop.toNat + 1) % 1024
    ended := false
    kept := s.sur.kept } } 1

/-- Row SURVEY_OPEN (R137). -/
def execSurveyOpen (s : State) : Outcome := onLink s fun s => onSurvey 1 true surveyOpen s

/-- The 16 words of this hub's record (Hub record). -/
def recordWords (s : State) : List Word :=
  let bits (f : DnN → Bool) : Word := orAll (dnAll.map fun m => atBit (f m) m.val)
  [w16 (0x1000 + s.sur.depth % 1024), s.sur.sweep.getD 0#16, s.bus.node,
   orAll [atFld s.ports[0].rate 0 3, atBit (s.clk.refAct == 2) 3, atBit s.sur.measured 4,
     atBit (s.sur.measured && s.sur.measPll) 5, atBit s.tb.locked 6, atBit s.ln.en 7],
   wordOf s.tb.hop.toNat 1, wordOf s.tb.hop.toNat 0, w16 s.tb.resid,
   bits (fun m => isUp s.ports[dnPort m]), bits (fun m => bit s.ports[dnPort m].pcap0 11),
   bits (fun m => s.sur.walkSet[m].isSome), bits (splitMode s)] ++ idUid.toList ++
  [atFld s.ports[0].epoch 0 4]

/-- Hand the RECORD to the ULA, keep a copy, raise EV_SURVEY (R141, step 1); a hub without an address sends
none (R128). -/
def sendRecord (s : State) : State :=
  if !assigned s then s else
  let ws := recordWords s
  let s1 := { s with sur := { s.sur with walk := .record, kept := some ws } }
  raise (engineUp s1 (surveyPkt s.bus.node 0x05 ws) .recordSent)
    { code := 0x15, src := 0, w1 := s.sur.sweep.getD 0#16, w2 := w16 s.sur.depth }

/-- Probing ends; a token that was held for it goes on (R137, R141). -/
def probingEnds (s : State) : State :=
  let s1 := { s with sur := { s.sur with ended := true } }
  if s.sur.walk = .probing then sendRecord s1 else s1

/-- Row PROBE_TIMEOUT (R137). -/
def execProbeTimeout (s : State) : Outcome :=
  onLink s fun s => whenDo (s.sur.sweep.isSome && !s.sur.ended)
    (fun s => if s.sur.probe < 3 then sendProbe s (s.sur.probe + 1) else probingEnds s) s

/-- A PROBE from the partner on Dm (R139): the walk set, the ECHO whose T is written as it leaves, and a walk
that waited for it. -/
def surveyProbe (s : State) (m : DnN) (x : Inbox) : State :=
  let a := x.pkt.hdr.addr
  let sw := wAt x.pkt.payload 0
  let s1 := { s with sur := { s.sur with walkSet := vMod s.sur.walkSet m fun _ => some a } }
  let s2 := sendDown s1 m (surveyPkt a 0x03 [sw, wAt x.pkt.payload 1, 0#16, 0#16]) (.echo x.stamp)
  if s.sur.walk = .waitProbe m then
    sendDown (setWalk s2 (.below m)) m (surveyPkt a 0x04 [sw]) .none
  else s2

/-- Row SURVEY_PROBE (R139, R141). -/
def execSurveyProbe (s : State) : Outcome :=
  onLink s fun s => onSurvey 2 false (fun s x =>
    if h : x.port.val = 0 then s
    else if thisSweep s x then surveyProbe s ⟨x.port.val - 1, by omega⟩ x else s) s

/-- d = ((t4 - t1) - T) / 2, rounded down (R140). -/
def hopDelay (t4 t1 t : Nat) : BitVec 32 := BitVec.ofInt 32 (((t4 : Int) - t1 - t) / 2)

/-- An ECHO that matches the last PROBE (R140). -/
def surveyEcho (s : State) (x : Inbox) : State :=
  let t := (wAt x.pkt.payload 2).toNat * 65536 + (wAt x.pkt.payload 3).toNat
  let pll := s.sur.t1Pll && x.pll
  if !thisSweep s x || s.sur.ended || (wAt x.pkt.payload 1).toNat != s.sur.probe then s
  else probingEnds (lockCheck { s with
    sur := { s.sur with measured := true, measPll := pll }
    tb := { s.tb with hop := hopDelay x.stamp s.sur.t1 t, dlyOk := true, dlyPll := pll } })

/-- Row SURVEY_ECHO (R138, R140). -/
def execSurveyEcho (s : State) : Outcome := onLink s fun s => onSurvey 3 true surveyEcho s

/-! ## Survey: the token walk (R141, R142) -/

/-- A TOKEN for the current sweep (R141). -/
def surveyToken (s : State) (x : Inbox) : State :=
  if !thisSweep s x then s
  else match s.sur.walk with
    | .idle => if s.sur.ended then sendRecord s else setWalk s .probing
    | .done => engineUp s (surveyPkt s.bus.node 0x07 [s.sur.sweep.getD 0#16]) .none
    | _ => s

/-- Row SURVEY_TOKEN (R138, R141). -/
def execSurveyToken (s : State) : Outcome := onLink s fun s => onSurvey 4 true surveyToken s

/-- Row RECORD_SENT (R141, step 2). -/
def execRecordSent (s : State) : Outcome :=
  onLink s fun s => whenDo (s.sur.walk = .recordOut) (walkFrom · dnAll) s

/-- The later of SURVEY_TMO and 4 ms since the OPEN has passed: a wait for a PROBE ends (R141). -/
def probeWaitOver (s : State) : State :=
  let s1 := { s with sur := { s.sur with probeLate := true } }
  match s.sur.walk with
  | .waitProbe m => walkNext (sendBreak s1 m 3) m
  | _ => s1

/-- Row PROBE_WAIT_TIMEOUT (R141). -/
def execProbeWaitTimeout (s : State) : Outcome :=
  onLink s fun s => whenDo s.sur.sweep.isSome probeWaitOver s

/-- Row SURVEY_PORT_TIMEOUT (R141, step 4). -/
def execSurveyPortTimeout (m : DnN) (s : State) : Outcome :=
  onLink s fun s => whenDo (s.sur.walk = .below m) (fun s => walkNext (sendBreak s m 1) m) s

/-- Row SURVEY_RETURN (R141, step 4). -/
def execSurveyReturn (s : State) : Outcome :=
  onLink s fun s => onSurvey 7 false (fun s x =>
    if h : x.port.val = 0 then s
    else
      let m : DnN := ⟨x.port.val - 1, by omega⟩
      if thisSweep s x && s.sur.walk = .below m then walkNext s m else s) s

/-- Row SURVEY_KEEP (R141, step 3): it restarts the port's timer, and changes nothing else. -/
def execSurveyKeep (s : State) : Outcome := onLink s fun s => onSurvey 8 false (fun s _ => s) s

/-- Row KEEP_TIMER (R142): a hub that holds the token sends KEEP. -/
def execKeepTimer (s : State) : Outcome :=
  onLink s fun s => whenDo (s.sur.walk != .idle && s.sur.walk != .done)
    (fun s => engineUp s (surveyPkt s.bus.node 0x08 [s.sur.sweep.getD 0#16]) .none) s

end Sys2Proof.Machine
end

