-- ==== Sys2Proof/Machine/Time.lean ====
section
/-! DEFINITION. The time base (R145 to R158) and the rows of catches and pins (R161 to R165). -/

namespace Sys2Proof.Machine

open Sys2Proof

/-! ## Stroke boundaries (R109, R148) -/

/-- A stroke boundary: number and time of the stroke, schedules written take effect, TT slots count
it, and STROKE_OUT goes high (R109, R122, R148, R165). -/
def strokeStart (s : State) (n : BitVec 32) (b : BitVec 64) : State :=
  { s with
    tb := { s.tb with stroke := n, bound := b, soOn := s.tb.so || s.tb.soOn }
    bus := { s.bus with schedAct := s.bus.sched }
    tt := { s.tt with slots := s.tt.slots.map fun o => o.map fun x => { x with strokes := x.strokes + 1 } } }

/-- Boundaries lie on the grid of TB_TIME (R148). -/
def onGrid (s : State) : Bool := s.tb.locked || s.tb.holdover

/-- The grid boundary at or before the present TB_TIME. -/
def gridStart (s : State) : State :=
  let p := strokeTicks s.tb.len
  strokeStart s (BitVec.ofNat 32 (now s / p)) (BitVec.ofNat 64 (now s / p * p))

/-- TB_TIME has passed a multiple of the stroke length since it was `old`, and the boundary there has not
been taken yet (R148). -/
def gridCheck (old : Nat) (s : State) : State :=
  let p := strokeTicks s.tb.len
  whenDo (onGrid s && old / p < now s / p && s.tb.bound != BitVec.ofNat 64 (now s / p * p)) gridStart s

/-- TB_TIME stands at a multiple of the stroke length whose boundary has not been taken (R148). -/
def gridDue (s : State) : Bool :=
  onGrid s && now s % strokeTicks s.tb.len = 0 && s.tb.bound != s.tb.time

/-- Row STROKE_BOUNDARY (R148): on the grid while locked or in holdover.  Otherwise the arrival of an
accepted beacon is the boundary, and STK_BEACON_RX makes it. -/
def execStrokeBoundary (s : State) : Outcome := onLink s fun s => whenDo (gridDue s) gridStart s

/-- A beacon missed: counted; off the grid the boundary is placed one stroke after the last; four in
a row lose the lock (R148, R157).  DESIGN CHOICE: it also restarts the run of eight accepted beacons of
R156, which does not say so (log entry 104), and goes by without a break of the run of three accepted beacons
outside LOCK_WIN or of the run of failures of the k check (R152, R157; log entry 155). -/
def beaconMissed (s : State) : State :=
  let s1 := { s with tb := { s.tb with missed := satInc 15 s.tb.missed, bcnOk := false, runIn := 0, fits := [] } }
  if onGrid s then (if s.tb.locked && 4 ≤ s1.tb.missed then loseLock s1 else s1)
  else if s.tb.valid then
    strokeStart s1 (s.tb.stroke + 1#32) (s.tb.bound + BitVec.ofNat 64 (strokeTicks s.tb.len))
  else s1

/-- Row BEACON_MISSED (R148, R157). -/
def execBeaconMissed (s : State) : Outcome := onLink s beaconMissed

/-! ## Beacons (R150 to R155) -/

/-- The k of a beacon for a stroke length (R150). -/
def beaconK (f : Nat) (n : Nat) (len : Nat) : Nat := (f / strokeTicks len + (2 ^ 32 - n % 2 ^ 32)) % 2 ^ 32

/-- The stroke lengths whose k lies in 0 to 255 (R152). -/
def beaconFits (f n : Nat) : List Nat := [0, 1, 2, 3].filter fun l => beaconK f n l ≤ 255

/-- O as a signed count of ticks (R155).  DESIGN CHOICE: TB_TIME at the row STK_BEACON_RX is the stamp of the STK
word's first bit (R149; log entry 150). -/
def beaconOffset (s : State) (f : Nat) : Int :=
  (BitVec.ofNat 64 f + BitVec.ofNat 64 s.tb.hop.toNat - s.tb.time).toInt

/-- The period detection of R152 on an accepted beacon. -/
def takePeriod (fits : List Nat) (t : Tb) : Tb :=
  match fits with
  | [l] => if t.fits = [l] then { t with len := l, valid := true, fits := fits, badLen := 0 }
      else { t with fits := fits }
  | _ => { t with fits := fits }

/-- A step of TB_TIME by O (R155, R157): held cues whose catch is now past are released with MISS.
DESIGN CHOICE: what a slew has not applied yet is discarded, and the run of R156 restarts (log entry
105). -/
def timeStep (s : State) (o : Int) : State :=
  let s1 := { s with tb := { s.tb with time := s.tb.time + BitVec.ofInt 64 o, step := true, todo := 0, runIn := 0 } }
  let ow := BitVec.ofInt 32 o
  let s2 := bbLink (raise s1 { code := 0x07, src := 0, w1 := wordOf ow.toNat 0, w2 := wordOf ow.toNat 1 })
    0x40 0 (wordOf ow.toNat 0) (wordOf ow.toNat 1)
  let s3 := loseLock s2
  let s4 := { s3 with tb := { s3.tb with holdover := false } }
  releaseEarly s4 (fun _ c => decide (c.2 ≤ now s4)) 0x0100#16

/-- The servo takes the offset of an accepted beacon (R155). -/
def servo (s : State) (o : Int) : State :=
  if !s.tb.servo then s
  else if 400 < o.natAbs then timeStep s o
  else { s with tb := { s.tb with todo := o } }

/-- The run of beacons inside or outside the lock window (R156, R157). -/
def lockRun (s : State) (o : Int) : State :=
  if o.natAbs ≤ 4 * s.tb.lockWin then
    { s with tb := { s.tb with runIn := satInc 8 s.tb.runIn, runOut := 0 } }
  else
    let s1 := { s with tb := { s.tb with runIn := 0, runOut := satInc 3 s.tb.runOut } }
    if s.tb.locked && 3 ≤ s1.tb.runOut then loseLock s1 else s1

/-- A downstream port carries beacons: it has a link, is not being suspended, and is not held
(R151, R172). -/
def carriesBeacon (s : State) (m : DnN) : Bool :=
  isUp s.ports[dnPort m] && !bit s.aon.ports[dnPort m].feather 3 && s.aon.ports[dnPort m].hold = .none

/-- The regenerated beacon of Dm: the same N, F_out = F + d + r_n, a fresh check word (R151). -/
def beaconOut (s : State) (n f : Nat) (m : DnN) : Out :=
  let t := (f + s.tb.hop.toNat + Config.residence s.fresh (dnPort m).val) % 2 ^ 64
  let ws := [wordOf n 1, wordOf n 0, wordOf t 3, wordOf t 2, wordOf t 1, wordOf t 0]
  .stk (dnPort m) (ws ++ [crc16 ws])

/-- The beacon is regenerated on every downstream port that carries it; TB_RESID is the residence of
the lowest, and each PORT_DLY the residence of its port (R151, R429). -/
def regenerate (s : State) (n f : Nat) : State :=
  let ms := dnAll.filter (carriesBeacon s)
  let res (m : DnN) : Nat := min 65535 (Config.residence s.fresh (dnPort m).val)
  let r := (ms.head?.map res).getD 0
  let s1 := forEach ms (fun a m => modPort (wakeTx a (dnPort m)) (dnPort m) fun p => { p with dly := res m })
    { s with tb := { s.tb with resid := r } }
  bump (emits s1 (ms.map (beaconOut s n f)))

/-- Dm is quiet: held by silence and not by SUSP, with no beacon on it yet (R177). -/
def isQuiet (a : AonPort) : Bool := a.hold != .none && !bit a.feather 3 && a.bcn = .none

/-- Every quiet port is driven with Dn_BCN for 20 ms (R177). -/
def resumeQuiet (s : State) : State :=
  forEach dnAll (fun a m => modAon a (dnPort m) fun p => if isQuiet p then { p with bcn := .drive } else p) s

/-- An accepted beacon of stroke `n` and time `f` (R148, R151 to R156).  DESIGN CHOICE: TB_OFFSET, EV_TIME_STEP
and the black box take the low 32 bits of an O that does not fit them (log entry 156), and the beacon whose step
ends lock or holdover is no boundary itself (log entry 157). -/
def beaconTake (s : State) (n f : Nat) (fits : List Nat) : State :=
  let s0 := { s with tb := takePeriod fits { s.tb with
    missed := 0, bcnOk := true
    badLen := if fits.contains s.tb.len then 0 else s.tb.badLen
    synt := if s.clk.refAct = 2 then Config.synt s.fresh else s.tb.synt } }
  let o := beaconOffset s0 f
  let s1 := regenerate { s0 with tb := { s0.tb with offset := BitVec.ofInt 32 o } } n f
  let s1 := if s.aon.ports[(0 : PortN)].hold = .none then resumeQuiet s1 else s1
  let s2 := gainLock (servo (lockRun s1 o) o)
  if onGrid s then s2 else strokeStart s2 (BitVec.ofNat 32 n) s2.tb.time

/-- A beacon that fails the k check (R150, R152). -/
def beaconRefuse (s : State) : State :=
  { s with tb := { s.tb with badBcn := satInc 3 s.tb.badBcn, badLen := satInc 2 s.tb.badLen, fits := [] } }

/-- A beacon on UP: its six data words and check word; `whole` says that no flood fell inside it
(R57, R150). -/
def stkRx (s : State) (ws : List Word) (chk : Word) (whole : Bool) : State :=
  let n := (wAt ws 0).toNat * 65536 + (wAt ws 1).toNat
  let f := ofWords [wAt ws 5, wAt ws 4, wAt ws 3, wAt ws 2]
  let fits := beaconFits f n
  if !whole || !isUp s.ports[0] then s
  else if crc16 (ws.take 6) != chk || ws.length != 6 then countCode s 0
  else if fits.contains s.tb.len || (2 ≤ s.tb.badLen && !fits.isEmpty) then beaconTake s n f fits
  else beaconRefuse s

/-- Row STK_BEACON_RX (R57, R150 to R156). -/
def execStkBeaconRx (ws : List Word) (chk : Word) (whole : Bool) (s : State) : Outcome :=
  onLink s fun s => onRx 0 (stkRx · ws chk whole) s

/-- CATCHi is mapped to crew k and enabled (R164). -/
def pinOf (k : CrewN) (w : Word) : Bool := bit w 0 && fld w 1 3 = k.val

/-- Crew k holds a cue whose catch instant TB_TIME has reached (R161, R163). -/
def catchDue (s : State) (k : CrewN) : Bool := (nextCatch s k).any fun i => i ≤ now s

/-- The catch of crew k (R161, R163, R164): the cues whose instant has come are released, and the pins
mapped to it assert. -/
def catchCrew (s : State) (k : CrewN) : State :=
  let s1 := releaseCues s (fun _ c => c.1 = k && c.2 ≤ now s) true
  { s1 with tb := { s1.tb with
    catchOn := Vector.ofFn fun j : Fin 4 => s1.tb.catchOn[j] || pinOf k s1.tb.pins[j] } }

/-- The crews of `crews` whose catch has come make it; one snapshot serves them all (R161, R163). -/
def catchAll (s : State) (crews : BitVec 8) : State :=
  let ks := crewAll.filter fun k => crews.getLsbD k.val && catchDue s k
  let s1 := forEach ks catchCrew s
  if ks.any fun k => s.tb.crews[k].snap then snapRequest s1 3 else s1

/-- TB_TIME, which was `old`, has advanced: it may have passed a boundary of the grid (R148) and reached
catches (R161). -/
def timeMoved (old : Nat) (s : State) : State := catchAll (gridCheck old s) 0xFF#8

/-- One tick of the pending correction is added or withheld (R155). -/
def slewTick (t : Tb) : Tb :=
  if !t.servo || t.todo = 0 then t
  else if 0 < t.todo then { t with time := t.time + 1#64, todo := t.todo - 1 }
  else { t with time := t.time - 1#64, todo := t.todo + 1 }

/-- Row SLEW_TICK (R155): the time base may pass a boundary or reach a catch by it (R148, R161). -/
def execSlewTick (s : State) : Outcome := onLink s fun s => timeMoved (now s) { s with tb := slewTick s.tb }

/-- Holdover outlasts HOLD_MAX: HOLDEXP, and held cues are released with PASS (R157, R162). -/
def holdoverExpiry (s : State) : State :=
  let s1 := { s with tb := { s.tb with holdover := false, holdExp := true } }
  releaseEarly (bbLink s1 0x42 0 (tbStat s1) 0#16) (fun _ _ => true) 0x0800#16

/-- Row HOLDOVER_EXPIRY (R157). -/
def execHoldoverExpiry (s : State) : Outcome := onLink s fun s => whenDo s.tb.holdover holdoverExpiry s

/-! ## Reads (R146, R194) -/

/-- A read of TB_TIME0 latches the higher words and the stroke number for its path (R146). -/
def latchTime (s : State) (p : Path) : State :=
  { s with tb := { s.tb with
    latch := vMod s.tb.latch (latchOf p) fun _ => { hi := now s / 65536, stroke := s.tb.stroke.toNat } } }

/-! ## Catches and pins (R161 to R165) -/

/-- Row CATCH (R161, R163): the crews of `crews` make the catch that TB_TIME has reached; before it the row
changes nothing, and the tick that reaches it makes it as well (log entry 138). -/
def execCatch (crews : BitVec 8) (s : State) : Outcome := onLink s fun s => catchAll s crews

/-- Row CATCH_PIN_END (R164). -/
def execCatchPinEnd (i : Fin 4) (s : State) : Outcome :=
  onLink s fun s => { s with tb := { s.tb with catchOn := vMod s.tb.catchOn i fun _ => false } }

/-- Row STROKE_OUT_END (R165). -/
def execStrokeOutEnd (s : State) : Outcome := onLink s fun s => { s with tb := { s.tb with soOn := false } }

/-! ## Crew writes (R159, R162) -/

/-- Cues of crew k that a write leaves without it: EN cleared, or the output's mask bit removed. -/
def lostBy (old new : Crew) (k : CrewN) (n : PortN) (c : CrewN × Nat) : Bool :=
  c.1 = k && old.en && (!new.en || (crewHas old n.val && !crewHas new n.val))

/-- Put a crew's registers; cues that lose their crew are released with PASS (When events coincide). -/
def crewPut (s : State) (k : CrewN) (new : Crew) : State :=
  releaseEarly (modCrew s k fun _ => new) (lostBy s.tb.crews[k] new k) 0x0800#16

/-- CREW_CTRL as written: EN, SNAP and LATE stored, the four flags cleared where 1 is written. -/
def crewCtrlWrite (v : Word) (c : Crew) : Crew :=
  { c with en := bit v 0, snap := bit v 1, late := bit v 2, miss := c.miss && !bit v 8,
           far := c.far && !bit v 9, ovr := c.ovr && !bit v 10, pass := c.pass && !bit v 11 }

/-- All four registers of a crew written together (SET_CREW, CREW_SET). -/
def crewSet (s : State) (k : CrewN) (m0 m1 ofs ctrl : Word) : State :=
  crewPut s k (crewCtrlWrite ctrl { s.tb.crews[k] with mask0 := m0, mask1 := m1 &&& 0x0001#16, ofs := ofs })

end Sys2Proof.Machine
end

