-- ==== Sys2Proof/Machine/Command.lean ====
section
/-! DEFINITION. The command ring of a domain: fetch, the commands one at a time in ring order, their
results, and the event ring that carries them (R212, R218, R219, R222 to R225, R251). -/

namespace Sys2Proof.Machine

open Sys2Proof

/-! ## Fetching commands (R219) -/

/-- An entry written to the event ring waits for it: the command ring takes no further command. -/
def cmdStalled (s : State) (d : DomN) : Bool := (evWaiting s d).any fun q => q.ev.code = 2

/-- Ask for the next command descriptors once those fetched have all started (R219). -/
def cmdAsk (s : State) (d : DomN) : State :=
  let x := s.doms[d]
  if x.st = .run && x.cmdRing = .running && x.cmdQ.isEmpty && x.cmdPi != x.cmdNext then
    askRead s d.val d .commands
  else s

/-! ## Completing a command (R218, R219) -/

/-- A command completes: EV_CMD is raised, and EASY lets it out (R251). -/
def finishCmd (s : State) (d : DomN) (c : Cmd) (status : Nat) (r4 r5 : Word) : State :=
  let s1 := modDom s d fun x => { x with cmdRun := none, lastCtag := c.w[1], lastStat := status }
  raiseDom s1 d (s.doms[d].st = .easy)
    { code := 0x02, src := 0, w1 := w16 status, w2 := c.count, w3 := c.w[1], w4 := r4, w5 := r5 }

/-- A command that ends at once: with OK and its effect, or with a status and no effect. -/
def endCmd (s : State) (d : DomN) (c : Cmd) (status : Nat) (f : State → State) (r4 : Word) : State :=
  if status = 0 then finishCmd (f s) d c 0 r4 0#16 else finishCmd s d c status 0#16 0#16

/-- A command with host data: the data waits for the statistics writer (R259). -/
def dataCmd (s : State) (d : DomN) (c : Cmd) (status : Nat) (ws : List Word) (r4 : Nat) : State :=
  let a := ofWords [c.w[4], c.w[5], c.w[6], c.w[7]]
  let run : CmdRun := { cmd := c, r4 := w16 r4, r5 := 0#16, data := some (a, hostBytes ws), snap := false }
  if status = 0 && !ws.isEmpty then hmaAsk (modDom s d fun x => { x with cmdRun := some run }) 18 (.data d)
  else if status = 0 then finishCmd s d c 0 (w16 r4) 0#16
  else finishCmd s d c status 0#16 0#16

/-- The domain lacks right `r`: DENIED advances (R199). -/
def deny (s : State) (d : DomN) (r : Nat) : State := if bit s.doms[d].rights r then s else denied s d

/-- Status of a command that right `r` gates, with its parameter check: DENIED before BADPARAM. -/
def gate (s : State) (d : DomN) (r : Nat) (ok : Bool) : Nat :=
  if !bit s.doms[d].rights r then 3 else if ok then 0 else 2

/-- The host address of a command is 4-byte-aligned (R218). -/
def addrOk (c : Cmd) : Bool := c.w[4].toNat % 4 = 0

/-! ## The commands (R218) -/

/-- OP codes of the command table. -/
def listedOps : List Nat := [0x01, 0x02, 0x03, 0x04, 0x10, 0x11, 0x12, 0x20, 0x21, 0x30, 0x31, 0x40, 0x50, 0x51]

/-- OP of a command. -/
def cmdOp (c : Cmd) : Nat := fld c.w[0] 0 8

/-- The endpoint that P0 names. -/
def cmdEp (c : Cmd) : EpN := ⟨fld c.w[2] 0 5, Nat.mod_lt _ (by decide)⟩

/-- P0 as a number, and P1. -/
def cmdP0 (c : Cmd) : Nat := c.w[2].toNat

/-- P1 as a number. -/
def cmdP1 (c : Cmd) : Nat := c.w[3].toNat

/-- P0 names a downstream port, 1 to 16. -/
def portOk (c : Cmd) : Bool := 1 ≤ cmdP0 c && cmdP0 c ≤ 16

/-- The downstream port that P0 names. -/
def cmdDn (c : Cmd) : DnN := ⟨(cmdP0 c - 1) % 16, Nat.mod_lt _ (by decide)⟩

/-- Command NOP. -/
def cmdNop (s : State) (d : DomN) (c : Cmd) : State := finishCmd s d c 0 0#16 0#16

/-- The base address that P2 to P5 give. -/
def cmdBase (c : Cmd) : Nat := ofWords [c.w[4], c.w[5], c.w[6], c.w[7]]

/-- Status of a command on an endpoint: BADPARAM, NOTOWNER, BUSY. -/
def epStatus (s : State) (d : DomN) (c : Cmd) (ok busy : Bool) : Nat :=
  if !ok then 2 else if s.ln.eps[cmdEp c].owner != d then 4 else if busy then 5 else 0

/-- The ring of an endpoint is set: its producer and consumer counts start at P1. -/
def ringSet (s : State) (c : Cmd) : State :=
  modEp s (cmdEp c) fun e =>
    { e with ring := true, ringErr := false, ringSize := fld c.w[2] 8 4, ringBase := cmdBase c,
             next := c.w[3], pi := c.w[3], piRaw := c.w[3], descs := [] }

/-- Command RING_SET. -/
def cmdRingSet (s : State) (d : DomN) (c : Cmd) : State :=
  endCmd s d c (epStatus s d c (fld c.w[2] 8 4 ≤ 8 && c.w[4].toNat % 64 = 0) s.ln.eps[cmdEp c].ring)
    (fun s => ringSet s c) 0#16

/-- A request about endpoint k. -/
def aboutEp (k : EpN) : HReq → Bool
  | .read _ (.descriptor j) => j = k
  | .read _ (.sendData j) => j = k
  | .drain _ j => j = k
  | _ => false

/-- The requests of endpoint k are withdrawn; a write that was granted is issued first. -/
def dropEpReqs (s : State) (k : EpN) : State :=
  let s1 := match s.hma.cur, s.hma.arb.holder with
    | some q, some r => if aboutEp k q then endGrant s r q else s
    | _, _ => s
  { s1 with hma := { s1.hma with reqs := s1.hma.reqs.map fun l => l.filter fun q => !aboutEp k q } }

/-- The ring of endpoint k stops: its descriptors complete with STOPPED and its buffer empties. -/
def ringStop (s : State) (k : EpN) : State :=
  let s1 := stopEp (dropEpReqs s k) k 3
  let s2 := voidReads s1 fun u => u = .descriptor k || u = .sendData k
  modEp s2 k fun e => { e with ring := false, ringErr := false }

/-- Command RING_STOP. -/
def cmdRingStop (s : State) (d : DomN) (c : Cmd) : State :=
  endCmd s d c (epStatus s d c true false) (fun s => ringStop s (cmdEp c)) s.ln.eps[cmdEp c].next

/-- A RING_STOP of endpoint k is unfinished: a read that it withdrew is still outstanding. -/
def stopOpen (s : State) (k : EpN) : Bool :=
  !s.ln.eps[k].ring && s.pcie.reads.any fun x => x.use = .descriptor k || x.use = .sendData k

/-- What EP_HALT does. -/
def epHalt (s : State) (k : EpN) (v : Bool) : State :=
  modEp s k fun e => if v then { e with halt := true } else { e with halt := false, seqValid := false, ans := .none }

/-- Command EP_HALT. -/
def cmdEpHalt (s : State) (d : DomN) (c : Cmd) : State :=
  endCmd s d c (epStatus s d c (cmdP1 c ≤ 1) (stopOpen s (cmdEp c)))
    (fun s => epHalt s (cmdEp c) (cmdP1 c = 1)) 0#16

/-- Command PORT_POWER. -/
def cmdPortPower (s : State) (d : DomN) (c : Cmd) : State :=
  endCmd (deny s d 0) d c (gate s d 0 (portOk c && cmdP1 c ≤ 1))
    (fun s => switchWrite s (cmdDn c) (cmdP1 c = 1)) 0#16

/-- Command SET_BUDGET. -/
def cmdSetBudget (s : State) (d : DomN) (c : Cmd) : State :=
  endCmd (deny s d 0) d c (gate s d 0 true) (fun s => budgetWrite s (cmdP0 c)) 0#16

/-- Command PPS_LIMIT. -/
def cmdPpsLimit (s : State) (d : DomN) (c : Cmd) : State :=
  endCmd (deny s d 0) d c (gate s d 0 (portOk c && cmdP1 c ≤ 3))
    (fun s => modPps s (cmdDn c) (limitPut (cmdP1 c) c.w[4])) 0#16

/-- A METER_SNAP that waits for the copy (R330). -/
def snapWait (s : State) (d : DomN) (c : Cmd) : State :=
  let s1 := snapRequest s 2
  let run : CmdRun := { cmd := c, r4 := 0#16, r5 := 0#16, data := none, snap := true }
  let s2 := modDom s1 d fun x => { x with cmdRun := some run }
  { s2 with mtr := { s2.mtr with waiters := s2.mtr.waiters ++ [d] } }

/-- Command METER_SNAP. -/
def cmdMeterSnap (s : State) (d : DomN) (c : Cmd) : State :=
  if gate s d 2 true = 0 then snapWait s d c else finishCmd (deny s d 2) d c 3 0#16 0#16

/-- Command METER_READ. -/
def cmdMeterRead (s : State) (d : DomN) (c : Cmd) : State :=
  let ws := meterInfo s (cmdP1 c = 1) (cmdP0 c)
  dataCmd (deny s d 2) d c (gate s d 2 (cmdP0 c ≤ 16 && cmdP1 c ≤ 1 && addrOk c)) ws (2 * ws.length)

/-- Command CREW_SET. -/
def cmdCrewSet (s : State) (d : DomN) (c : Cmd) : State :=
  endCmd (deny s d 1) d c (gate s d 1 (cmdP0 c ≤ 7))
    (fun s => crewSet s ⟨cmdP0 c % 8, Nat.mod_lt _ (by decide)⟩ c.w[4] c.w[5] c.w[6] c.w[7]) 0#16

/-- Write CATCH_PINi: EN = 0 holds the pin deasserted (R164). -/
def pinWrite (s : State) (i : Fin 4) (v : Word) : State :=
  { s with tb := { s.tb with
    pins := s.tb.pins.set i.val (pinPut v) i.isLt
    catchOn := vMod s.tb.catchOn i fun on => on && bit v 0 } }

/-- Command CATCH_PIN. -/
def cmdCatchPin (s : State) (d : DomN) (c : Cmd) : State :=
  endCmd (deny s d 1) d c (gate s d 1 (cmdP0 c ≤ 3))
    (fun s => pinWrite s ⟨cmdP0 c % 4, Nat.mod_lt _ (by decide)⟩ c.w[3]) 0#16

/-- Command LOG_READ. -/
def cmdLogRead (s : State) (d : DomN) (c : Cmd) : State :=
  let es := logEntries s.bb (cmdP0 c) (cmdP1 c)
  dataCmd (deny s d 3) d c (gate s d 3 (cmdP0 c ≤ 255 && 1 ≤ cmdP1 c && cmdP1 c ≤ 256 && addrOk c))
    (es.flatMap fun e => e.toList) es.length

/-- Command PORT_STATUS. -/
def cmdPortStatus (s : State) (d : DomN) (c : Cmd) : State :=
  dataCmd s d c (if cmdP0 c ≤ 16 && addrOk c then 0 else 2)
    (portInfo s ⟨cmdP0 c % 17, Nat.mod_lt _ (by decide)⟩) 16

/-- Command NODE_INFO. -/
def cmdNodeInfo (s : State) (d : DomN) (c : Cmd) : State :=
  dataCmd s d c (if addrOk c then 0 else 2) (nodeInfo s) 32

/-! ## One command at a time (R219) -/

/-- The domain may start its next command.  DESIGN CHOICE: in FAULT, where R244 stops the reads alone, a command
that has been fetched and not started waits for RUN (log entry 162). -/
def cmdReady (s : State) (d : DomN) : Bool :=
  let x := s.doms[d]
  x.st = .run && x.cmdRun.isNone && !cmdStalled s d

/-- Commands at the head of the queue whose OP is not listed complete with BADOP, one at a time. -/
def skipBad (s : State) (d : DomN) : State :=
  match s.doms[d].cmdQ with
  | [] => s
  | c :: t =>
    if cmdReady s d && !listedOps.contains (cmdOp c) then
      finishCmd (modDom s d fun x => { x with cmdQ := t }) d c 1 0#16 0#16
    else s

/-- Go on with the command ring (R219). -/
def cmdGoOn (s : State) (d : DomN) : State := cmdAsk (skipBad s d) d

/-- Start the command at the head of domain d's queue when its OP is `op` (R219). -/
def runCmd (op : Nat) (f : State → DomN → Cmd → State) (d : DomN) (s : State) : State :=
  match s.doms[d].cmdQ with
  | [] => s
  | c :: t =>
    if cmdReady s d && cmdOp c = op then cmdAsk (f (modDom s d fun x => { x with cmdQ := t }) d c) d else s

/-- Row NOP (R218). -/
def execNop (d : DomN) (s : State) : Outcome := onLink s (runCmd 0x01 cmdNop d)

/-- Row RING_SET (R218). -/
def execRingSet (d : DomN) (s : State) : Outcome := onLink s (runCmd 0x02 cmdRingSet d)

/-- Row RING_STOP (R218). -/
def execRingStop (d : DomN) (s : State) : Outcome := onLink s (runCmd 0x03 cmdRingStop d)

/-- Row EP_HALT (R218). -/
def execEpHalt (d : DomN) (s : State) : Outcome := onLink s (runCmd 0x04 cmdEpHalt d)

/-- Row PORT_POWER (R218). -/
def execPortPower (d : DomN) (s : State) : Outcome := onLink s (runCmd 0x10 cmdPortPower d)

/-- Row CMD_SET_BUDGET (R218). -/
def execCmdSetBudget (d : DomN) (s : State) : Outcome := onLink s (runCmd 0x11 cmdSetBudget d)

/-- Row PPS_LIMIT (R218). -/
def execPpsLimit (d : DomN) (s : State) : Outcome := onLink s (runCmd 0x12 cmdPpsLimit d)

/-- Row METER_SNAP (R330). -/
def execMeterSnap (d : DomN) (s : State) : Outcome := onLink s (runCmd 0x20 cmdMeterSnap d)

/-- Row METER_READ (R218). -/
def execMeterRead (d : DomN) (s : State) : Outcome := onLink s (runCmd 0x21 cmdMeterRead d)

/-- Row CREW_SET (R218). -/
def execCrewSet (d : DomN) (s : State) : Outcome := onLink s (runCmd 0x30 cmdCrewSet d)

/-- Row CATCH_PIN (R218). -/
def execCatchPin (d : DomN) (s : State) : Outcome := onLink s (runCmd 0x31 cmdCatchPin d)

/-- Row LOG_READ (R373). -/
def execLogRead (d : DomN) (s : State) : Outcome := onLink s (runCmd 0x40 cmdLogRead d)

/-- Row PORT_STATUS (R218). -/
def execPortStatus (d : DomN) (s : State) : Outcome := onLink s (runCmd 0x50 cmdPortStatus d)

/-- Row NODE_INFO (R218). -/
def execNodeInfo (d : DomN) (s : State) : Outcome := onLink s (runCmd 0x51 cmdNodeInfo d)

/-- The last host data of domain d's command has been issued, and the command completes (R219). -/
def cmdDataDone (s : State) (d : DomN) : State :=
  match s.doms[d].cmdRun with
  | none => s
  | some r => finishCmd s d r.cmd 0 r.r4 r.r5

/-- Row COMMAND_DATA_DONE (R219): the write has been granted to the statistics writer (R259). -/
def execCommandDataDone (d : DomN) (s : State) : Outcome :=
  onLink s fun s => whenDo (pathHeld s (.data d)) (fun s => cmdDataDone (issueLast s 18 (.data d)) d) s

/-- The commands that wait for the snapshot copy complete with the new MTR_SEQ (R330). -/
def snapWaiters (s : State) : State :=
  forEach s.mtr.waiters (fun a d =>
    match a.doms[d].cmdRun with
    | some r => if r.snap then finishCmd a d r.cmd 0 a.mtr.seq 0#16 else a
    | none => a) { s with mtr := { s.mtr with waiters := [] } }

/-! ## Writing event entries (R202, R223, R224, R251) -/

/-- The vector that DOM_EVTMAP gives an event, vector 0 for EV_RESYNC_DONE (R201). -/
def vectorOf (x : Dom) (code : Nat) : Nat :=
  match evGroup code with
  | some g => fld (vAt x.evtMap 0#16 (g / 3)) (g % 3 * 5) 5
  | none => 0

/-- What an entry that has been written lets go on: its endpoint, or the command ring (R224). -/
def afterEntry (s : State) (d : DomN) (q : EvQ) : State :=
  if q.ev.code = 1 then epAsk s ⟨q.ev.src % 32, Nat.mod_lt _ (by decide)⟩
  else if q.ev.code = 2 then cmdGoOn s d
  else s

/-- The entry q has been written: the producer count moves on, and its vector fires (R202, R223). -/
def entryDone (s : State) (d : DomN) (q : EvQ) (rest : List EvQ) : State :=
  let s1 := modDom s d fun x => { x with producer := x.producer + 1#16, evq := rest, evPart := false }
  afterEntry (fire s1 d (vectorOf s1.doms[d] q.ev.code)) d q

/-- The last write of the entry that the HMA granted to domain d goes out. -/
def eventWrite (s : State) (d : DomN) : State :=
  match pickEntry s.doms[d] with
  | some (q, rest) => entryDone (issueLast s (8 + d.val) (.entry d)) d q rest
  | none => hmaDone s (8 + d.val)

/-- Row EVENT_WRITE (R224): the entry has been granted (R259). -/
def execEventWrite (d : DomN) (s : State) : Outcome :=
  onLink s fun s => whenDo (pathHeld s (.entry d)) (eventWrite · d) s

end Sys2Proof.Machine
end

