-- ==== Sys2Proof/Machine/Pcie.lean ====
section
/-! DEFINITION. The PCI Express endpoint: configuration space, the virtual functions, power states
and PME, link states, error reporting and the resets of the host interface (R185 to R191, R205 to
R209). -/

namespace Sys2Proof.Machine

open Sys2Proof

/-! ## Error reporting (R205, R206) -/

/-- Record an uncorrectable error in the header log when it is the first unmasked one. -/
def logHeader (b : Nat) (hdr : BitVec 128) (f : Fn) : Fn :=
  if f.aerUncMask.getLsbD b || f.aerUnc &&& ~~~f.aerUncMask != 0#32 then f
  else { f with firstErr := b, hdrLog := hdr }

/-- An error of status bit `b` is reported as an Advisory Non-Fatal one: PCI Express makes it so and its severity
is non-fatal. -/
def isAdvisory (b : Nat) (advisory : Bool) (f : Fn) : Bool := advisory && !f.aerUncSev.getLsbD b

/-- The bits of Device Status that an uncorrectable error sets: correctable, non-fatal, fatal and Unsupported
Request detected (log entry 15). -/
def devBits (b : Nat) (adv : Bool) (f : Fn) : BitVec 4 :=
  (if adv then 1#4 else if f.aerUncSev.getLsbD b then 4#4 else 2#4) ||| if b = 20 then 8#4 else 0#4

/-- An error of status bit `b` in a function, as an Advisory Non-Fatal one where PCI Express makes it so
and its severity is non-fatal. -/
def aerFn (b : Nat) (advisory : Bool) (hdr : BitVec 128) (f : Fn) : Fn :=
  let adv := isAdvisory b advisory f
  let f1 := if adv && f.aerCorMask.getLsbD 13 then f else logHeader b hdr f
  { f1 with
    aerUnc := f1.aerUnc ||| (1#32 <<< b)
    aerCor := if adv then f1.aerCor ||| 0x00002000#32 else f1.aerCor
    devStat := f1.devStat ||| devBits b adv f }

/-- Unsupported Request is reported: its own enable is set (log entry 15). -/
def urReported (b : Nat) (pf : Fn) : Bool := b != 20 || pf.errEn.getLsbD 3

/-- The message that reports an uncorrectable error logged in function `f`, if none of its masks keeps it back
and its reporting is enabled; the enables are the PF's for every function (R205; log entry 15). -/
def uncMsg (b : Nat) (advisory : Bool) (pf f : Fn) : Option ErrMsg :=
  if f.aerUncMask.getLsbD b then none
  else if isAdvisory b advisory f then
    (if !f.aerCorMask.getLsbD 13 && pf.errEn.getLsbD 0 && urReported b pf then some .cor else none)
  else if f.aerUncSev.getLsbD b then
    (if pf.serr || (pf.errEn.getLsbD 2 && urReported b pf) then some .fatal else none)
  else if pf.serr || (pf.errEn.getLsbD 1 && urReported b pf) then some .nonFatal
  else none

/-- Put out an error message of function d, if there is one. -/
def sendErr (s : State) (d : DomN) (m : Option ErrMsg) : State :=
  match m with
  | some k => emit s (.errMsg d k)
  | none => s

/-- Log an error in function d, and report it (R205). -/
def aerLog (s : State) (d : DomN) (b : Nat) (advisory : Bool) : State :=
  sendErr (bump (modFn s d (aerFn b advisory (Config.tlpHeader s.fresh)))) d
    (uncMsg b advisory s.pcie.fns[(0 : DomN)] s.pcie.fns[d])

/-- A completion that matches no outstanding read is discarded and logged in the PF (R205, R206). -/
def unexpected (s : State) : State := if epUp s then aerLog s 0 16 true else s

/-- Row UNEXPECTED_COMPLETION (R206). -/
def execUnexpectedCompletion (s : State) : Outcome := onLink s unexpected

/-- A correctable error of status bit `b` in the PF, and its report (R205; log entry 15). -/
def aerCorLog (s : State) (b : Nat) : State :=
  let f := s.pcie.fns[(0 : DomN)]
  sendErr (modFn s 0 fun f => { f with aerCor := f.aerCor ||| (1#32 <<< b), devStat := f.devStat ||| 1#4 }) 0
    (if !f.aerCorMask.getLsbD b && f.errEn.getLsbD 0 then some .cor else none)

/-- An error of the link or the transaction layer is logged in the PF, and what carried it is discarded
(R205). -/
def linkError (s : State) : LinkErr → State
  | .receiver => aerCorLog s 0
  | .badTlp => aerCorLog s 6
  | .badDllp => aerCorLog s 7
  | .replayRollover => aerCorLog s 8
  | .replayTimeout => aerCorLog s 12
  | .dlProtocol => aerLog s 0 4 false
  | .fcProtocol => aerLog s 0 13 false
  | .overflow => aerLog s 0 17 false
  | .malformed => aerLog s 0 18 false

/-- Unsupported Request to function d: logged there, and completed so (R190). -/
def unsupported (s : State) (d : DomN) : State := emit (aerLog s d 20 true) (.badCompletion d true)

/-! ## Windows (R190, R196 to R198, R207, R209) -/

/-- Function d answers a memory request to its BAR0. -/
def winOpen (s : State) (d : DomN) : Bool :=
  epUp s && domExists s d && (if d = 0 then s.pcie.fns[0].mse else s.pcie.vfMse) &&
    !s.pcie.fns[d].d3 && !s.pcie.fns[d].flr

/-- A memory request to a BAR0 that is not open: Unsupported Request, logged in the function addressed, with
a completion for a read (R190, R209).  In D3hot the BARs answer nothing (R207). -/
def winRefuse (s : State) (d : DomN) (read : Bool) : State :=
  if !epUp s || !domExists s d || s.pcie.fns[d].d3 then s
  else if read then unsupported s d
  else aerLog s d 20 false

/-- A memory request to function d that an open window does not serve as it stands; a closed one refuses it
(R190, R207, R209). -/
def onWindow (s : State) (d : DomN) (read : Bool) (f : State → State) : State :=
  if winOpen s d then f s else winRefuse s d read

/-- A request that the endpoint does not serve (R190), or an error below it (R205; log entry 121).  A function in
D3hot answers nothing (R207). -/
def refuseRequest (s : State) (d : DomN) : BadRequest → State
  | .unsupported => if s.pcie.fns[d].d3 then s else unsupported s d
  | .tooLong => onWindow s d true fun s => emit (aerLog s d 15 true) (.badCompletion d false)
  | .poisonedWrite => onWindow s d false fun s => aerLog s d 12 true
  | .bar2Write => onWindow s d false id
  | .link e => linkError s e

/-- Row MEM_REQUEST_REFUSED (R190, R205). -/
def execMemRequestRefused (d : DomN) (kind : BadRequest) (s : State) : Outcome :=
  onLink s fun s => whenDo (epUp s && domExists s d) (refuseRequest · d kind) s

/-- Configuration requests are carried out: the endpoint is up, its configuration space is ready and no
image is being loaded (R38). -/
def cfgOpen (s : State) : Bool := epUp s && s.pcie.ready && !s.glob.cfgBusy

/-- A configuration request to function d: carried out and completed, answered with Retry Status until
configuration space is ready, or with Unsupported Request by a function that does not exist (R38, R198). -/
def onCfg (d : DomN) (f : State → State) (s : State) : State :=
  if !epUp s then s
  else if !cfgOpen s then emit s (.retryStatus d)
  else if domExists s d then f (emit s (.completion d []))
  else emit s (.badCompletion d true)

/-- Row MSIX_UNMASK (R204): a host write to the table in BAR0, which a closed window refuses (R190, R207, R209),
or a configuration write to Function Mask. -/
def execMsixUnmask (d : DomN) (which : MaskKind) (s : State) : Outcome :=
  onLink s fun s => match which with
    | .vector v =>
      if !winOpen s d then winRefuse s d false else whenDo (decide (v.val < vecCount d)) (unmask · d which) s
    | .function => onCfg d (unmask · d which) s

/-! ## Link states (R191, R208) -/

/-- Something waits to be sent, or for the host-memory path: the emergency save and a write that it set aside
among it (R270). -/
def hostWork (s : State) : Bool :=
  !s.que.watches.isEmpty || s.hma.cur.isSome || s.hma.left.isSome || (emergency s && fnLive s 0) || s.hma.reqs.toList.any (fun l => !l.isEmpty) ||
    s.aon.pmeDue.toList.any id ||
    domAll.any fun d => evDue s d != 0 || (fnLive s d && !s.doms[d].msgs.isEmpty)

/-- Row L1_ENTRY (R191). -/
def execL1Entry (s : State) : Outcome :=
  onLink s fun s => whenDo (epUp s && s.pcie.aspmL1 && s.pcie.link = .l0 && s.pcie.reads.isEmpty && !hostWork s)
    (fun s => { s with pcie := { s.pcie with link := .l1, clkReqHi := s.pcie.clkPm } }) s

/-- Row L1_EXIT (R191). -/
def execL1Exit (s : State) : Outcome := onLink s leaveL1

/-- Row PCIE_L0_REACHED (R185, R208): at x1 or x2, at 2.5 or 5.0 GT/s, as the training came out (log entry
133). -/
def execPcieL0Reached (s : State) : Outcome :=
  onLink s fun s => whenDo (epUp s) (fun s => sendPmes
    { bump s with
      pcie := { s.pcie with
        link := .l0, clkReqHi := false, x1 := Config.linkX1 s.fresh, gen1 := Config.linkGen1 s.fresh }
      aon := { s.aon with peWake := false } }) s

/-! ## Resets of the host interface (R40, R209) -/

/-- A function after a reset that keeps the AER sticky bits. -/
def fnSticky (f : Fn) : Fn :=
  { Fn.reset with
    aerUnc := f.aerUnc, aerUncMask := f.aerUncMask, aerUncSev := f.aerUncSev, aerCor := f.aerCor,
    aerCorMask := f.aerCorMask, firstErr := f.firstErr, hdrLog := f.hdrLog }

/-- The emergency save is abandoned, and SAVE reads 3 (R363). -/
def abandonSave (s : State) : State :=
  if s.wdt.save = 1 then { s with wdt := { s.wdt with save := 3 } } else s

/-- The HMA queues are emptied and nothing is granted (R40, R209). -/
def hmaClear (s : State) : State :=
  { s with
    hma := { s.hma with reqs := Vector.replicate 20 [], cur := none, left := none, arb := { s.hma.arb with holder := none, aside := none } }
    que := { s.que with watches := [] } }

/-- PE_PERST_N, a hot reset or a link-down reaches the endpoint (R40, R245): cause 5 or 6, `w` as the
black-box entry gives it. -/
def pcieReset (s : State) (sticky : Bool) (cause w : Nat) : State :=
  let s1 := abandonSave (hmaClear (teardownAll s cause))
  let s2 := { s1 with pcie := { Pcie.reset with fns := if sticky then s1.pcie.fns.map fnSticky else Pcie.reset.fns } }
  drivePeWake (bbLink s2 0x52 0 (w16 w) 0#16)

/-- PE_PERST_N falls (R40, R44).  While the Link die is in reset or without power, nothing of the endpoint
is there but the configuration space that SWRST keeps. -/
def perstFall (s : State) : State :=
  let s1 := if linkHeld s then pcieReset s false 5 1 else drivePeWake { s with pcie := Pcie.reset }
  { s1 with rst := { s1.rst with perst := true, cause := s1.rst.cause ||| 0x0008#16 } }

/-- Row PERST_ASSERT (R40): with STRAP_PE low the pin has no effect (R46), and under POR no strap has been
sampled; its level is kept in each case, for the sampling that follows.  DESIGN CHOICE (log 165): the cause is
the fall of the pin, so a sampling that enables the endpoint under a pin already low sets no RST_CAUSE.PERST. -/
def execPerstAssert (s : State) : Outcome :=
  .next (if s.rst.por || !epStrap s then { s with rst := { s.rst with perst := true } } else whenDo (epUp s) perstFall s)

/-- Row PCIE_CONFIG_READY (R38). -/
def execPcieConfigReady (s : State) : Outcome :=
  onLink s fun s => whenDo (epUp s && !s.glob.cfgBusy) (fun s => { s with pcie := { s.pcie with ready := true } }) s

/-- Row HOT_RESET (R40): a hot reset, or DL_Down. -/
def execHotReset (dlDown : Bool) (s : State) : Outcome :=
  onLink s fun s => whenDo (epUp s) (fun s => pcieReset s true 6 (if dlDown then 3 else 2)) s

/-- The virtual functions cease to exist: each of their domains is torn down (R245). -/
def vfsGone (s : State) (cause : Nat) : State :=
  let vfs := domAll.filter fun d => d != 0 && domExists s d
  let s1 := forEach vfs (fun a d => modFn (teardown a d cause) d fun _ => Fn.reset) s
  { s1 with pcie := { s1.pcie with vfe := false } }

/-- An FLR on the PF (R40, R209).  Max_Payload_Size and the link controls are not function state. -/
def flrPf (s : State) : State :=
  let s1 := abandonSave (vfsGone (teardown s 0 3) 3)
  let s2 := modFn s1 0 fun f => { fnSticky f with mps := f.mps, flr := decide (s1.doms[0].st = .teardown) }
  let p := s2.pcie
  let s3 := { s2 with pcie := { p with numVfs := 0, vfMse := false, bar0 := 0, bar2 := 0, vfBar0 := 0, cto := 200 } }
  bbLink s3 0x53 0 0#16 0#16

/-- An FLR on VFd (R209, R245). -/
def flrVf (s : State) (d : DomN) : State :=
  let s1 := teardown s d 2
  let s2 := modFn s1 d fun f => { fnSticky f with flr := decide (s1.doms[d].st = .teardown) }
  bbLink s2 0x53 d.val 0#16 0#16

/-- Row FLR_VF (R209). -/
def execFlrVf (v : VfN) (s : State) : Outcome :=
  onLink s fun s => onCfg (vfDom v) (flrVf · (vfDom v)) s

/-! ## Virtual functions (R188, R245) -/

/-- Row VF_ENABLE (R188). -/
def execVfEnable (s : State) : Outcome :=
  onLink s fun s => onCfg 0 (fun s => { s with pcie := { s.pcie with vfe := true } }) s

/-- Row VF_DISABLE (R245).  NumVFs cannot be lowered while VF Enable = 1 (R188). -/
def execVfDisable (s : State) : Outcome :=
  onLink s fun s => onCfg 0 (whenDo s.pcie.vfe (vfsGone · 4)) s

/-- Row NUMVFS_WRITE (R188): stored, a value above 7 as 7, only while VF Enable = 0. -/
def execNumvfsWrite (n : Nat) (s : State) : Outcome :=
  onLink s fun s => onCfg 0 (whenDo (!s.pcie.vfe) fun s => { s with pcie := { s.pcie with numVfs := min 7 n } }) s

/-! ## Power states (R207) -/

/-- A function enters D3hot: it issues no request and sends no message. -/
def d3Enter (s : State) (d : DomN) : State := modFn s d fun f => { f with d3 := true }

/-- A function returns to D0: the messages it held back are sent. -/
def d0Return (s : State) (d : DomN) : State :=
  if s.pcie.fns[d].d3 then releaseMsgs (modFn s d fun f => { f with d3 := false }) d else s

/-- Row D3HOT_ENTRY (R207). -/
def execD3hotEntry (d : DomN) (s : State) : Outcome :=
  onLink s fun s => onCfg d (d3Enter · d) s

/-- Row D0_RETURN (R207). -/
def execD0Return (d : DomN) (s : State) : Outcome :=
  onLink s fun s => onCfg d (d0Return · d) s

/-! ## Configuration writes (R185 to R189, R203 to R208) -/

/-- A write of 1 to PME_Status: PE_WAKE_N is released once no function's is left (R208). -/
def pmeClear (s : State) (d : DomN) : State :=
  let ps := vMod s.aon.pmeStat d fun _ => false
  { s with aon := { s.aon with pmeStat := ps, pmeDue := vMod s.aon.pmeDue d fun _ => false, peWake := s.aon.peWake && ps.toList.any id } }

/-- AER status and mask bits that the XK17 implements (R205). -/
def aerUncBits : BitVec 32 := 0x0017F010#32

/-- The correctable ones. -/
def aerCorBits : BitVec 32 := 0x000031C1#32

/-- A write to a function's AER register. -/
def aerWrite (field : CfgField) (v : BitVec 32) (f : Fn) : Fn :=
  match field with
  | .aerUncStatus => { f with aerUnc := f.aerUnc &&& ~~~v }
  | .aerUncMask => { f with aerUncMask := v &&& aerUncBits }
  | .aerUncSeverity => { f with aerUncSev := (f.aerUncSev &&& ~~~aerUncBits) ||| (v &&& aerUncBits) }
  | .aerCorStatus => { f with aerCor := f.aerCor &&& ~~~v }
  | .aerCorMask => { f with aerCorMask := v &&& aerCorBits }
  | .deviceStatus => { f with devStat := f.devStat &&& ~~~(v.setWidth 4) }
  | _ => f

/-- A field that every function has. -/
def fnWrite (s : State) (d : DomN) (field : CfgField) (v : BitVec 64) : State :=
  let on := v.getLsbD 0
  match field with
  | .busMaster => releaseMsgs (modFn s d fun f => { f with bme := on }) d
  | .msixEnable => releaseMsgs (modFn s d fun f => { f with msixEn := on }) d
  | .functionMask => releaseMsgs (modFn s d fun f => { f with fnMask := on }) d
  | .powerState =>
    if v.toNat % 4 = 3 then d3Enter s d else if v.toNat % 4 = 0 then d0Return s d else s
  | .pmeEnable => { s with aon := { s.aon with pmeEn := vMod s.aon.pmeEn d fun _ => on } }
  | .pmeStatus => if on then pmeClear s d else s
  | _ => modFn s d (aerWrite field (v.setWidth 32))

/-- A field that only the PF has. -/
def pfWrite (s : State) (field : CfgField) (v : BitVec 64) : State :=
  let on := v.getLsbD 0
  let n := v.toNat
  match field with
  | .memorySpace => modFn s 0 fun f => { f with mse := on }
  | .maxPayload => modFn s 0 fun f => { f with mps := n % 8 }
  | .maxReadRequest => modFn s 0 fun f => { f with mrrs := n % 8 }
  | .extendedTag => modFn s 0 fun f => { f with extTag := on }
  | .serrEnable => modFn s 0 fun f => { f with serr := on }
  | .errorReporting => modFn s 0 fun f => { f with errEn := v.setWidth 4 }
  | .aspmL1 => { s with pcie := { s.pcie with aspmL1 := on } }
  | .clockPm => { s with pcie := { s.pcie with clkPm := on } }
  | .vfMemorySpace => { s with pcie := { s.pcie with vfMse := on } }
  | .bar0 => { s with pcie := { s.pcie with bar0 := n / 65536 * 65536 } }
  | .bar2 => { s with pcie := { s.pcie with bar2 := n / 32768 * 32768 } }
  | .vfBar0 => { s with pcie := { s.pcie with vfBar0 := n / 4096 * 4096 } }
  | .cto => { s with pcie := { s.pcie with cto := clampN 1 1000 n } }
  | _ => s

/-- The field is in the PF alone: for a VF it is read-only zero (SR-IOV). -/
def pfOnly : CfgField → Bool
  | .memorySpace => true
  | .maxPayload => true
  | .maxReadRequest => true
  | .extendedTag => true
  | .serrEnable => true
  | .errorReporting => true
  | .aspmL1 => true
  | .clockPm => true
  | .vfMemorySpace => true
  | .bar0 => true
  | .bar2 => true
  | .vfBar0 => true
  | .cto => true
  | _ => false

/-- A configuration write. -/
def cfgWrite (s : State) (d : DomN) (field : CfgField) (v : BitVec 64) : State :=
  if pfOnly field then (if d = 0 then pfWrite s field v else s) else fnWrite s d field v

/-- Row PCIE_CONFIG_WRITE (R185). -/
def execPcieConfigWrite (d : DomN) (field : CfgField) (v : BitVec 64) (s : State) : Outcome :=
  onLink s fun s => onCfg d (cfgWrite · d field v) s

end Sys2Proof.Machine
end

