-- ==== Sys2Proof/Machine/Doorbell.lean ====
section
/-! DEFINITION. The doorbell watches and the reads of host memory: what the HMA issues, what arrives,
and what follows when a read fails (R206, R213 to R217, R221, R241, R242). -/

namespace Sys2Proof.Machine

open Sys2Proof

/-! ## Issuing a granted read (R189, R219, R221, R241) -/

/-- What every ring of domain d, and its command ring, asks for now. -/
def reask (s : State) (d : DomN) : State :=
  cmdAsk (forEach (epAll.filter fun k => s.ln.eps[k].owner = d) epAsk s) d

/-- A read request as it goes out: its address, and how the outstanding read is remembered. -/
structure ReadReq where
  addr : Nat
  out  : ReadOut

/-- The read of SEND data for endpoint k that comes next: one request of those that R189 cuts it into. -/
def sendRead (s : State) (d : DomN) (k : EpN) : Option ReadReq :=
  let e := s.ln.eps[k]
  (e.descs.head?.filter fun x => descOp x = 2 && !e.full && e.ring && !e.ringErr && e.asked < descLen x).map fun x =>
    { addr := descAddr x + e.asked
      out := { dom := d, use := .sendData k, n := 1, pre := false, off := e.asked
               len := pieceLen (maxRead s) (descAddr x + e.asked) (descLen x - e.asked) } }

/-- A read of `n` descriptors, when there is one. -/
def descRead (d : DomN) (u : ReadUse) (addr n : Nat) : Option ReadReq :=
  if n = 0 then none else some { addr := addr, out := { dom := d, use := u, n := n, pre := false, off := 0, len := 16 * n } }

/-- The PCIe read that a granted request stands for, if there is still one to issue: a ring that has stopped, or
whose domain is in FAULT, fetches nothing more (R214, R244). -/
def readOf (s : State) : HReq → Option ReadReq
  | .watch d pre =>
    some { addr := s.doms[d].db, out := { dom := d, use := .page, n := 1, pre := pre, off := 0, len := 128 } }
  | .read d .commands =>
    let x := s.doms[d]
    let runs := x.cmdRing = .running && x.st != .fault
    descRead d .commands (slotAddr x.cmdBase (cmdSize x) x.cmdNext) (if runs then cmdFetchLen x else 0)
  | .read d (.descriptor k) =>
    let e := s.ln.eps[k]
    let runs := e.ring && !e.ringErr && s.doms[d].st != .fault
    descRead d (.descriptor k) (slotAddr e.ringBase (ringEntries e) e.next) (if runs then descFetchLen e else 0)
  | .read d (.sendData k) => sendRead s d k
  | _ => none

/-- A read is within its allotment: 3 for each OUT engine, 8 for the watcher and one for each domain
(R241). -/
def readAllowed (s : State) : HReq → Bool
  | .watch d _ =>
    decide ((s.pcie.reads.filter fun r => r.use = .page).length < 8) &&
      !(s.pcie.reads.any fun r => r.use = .page && r.dom = d)
  | q => outReads s (domOf q) < 3

/-- The completion buffer has space for a further read (R268): with no read outstanding it has; otherwise
the spec gives no size.  Log entry 122. -/
def bufferRoom (s : State) : Bool := s.pcie.reads.isEmpty || Config.completionRoom s.fresh

/-- The data of a SEND has been asked for up to the end of this read. -/
def noteAsked (s : State) (x : ReadOut) : State :=
  match x.use with
  | .sendData k => modEp s k fun e => { e with asked := x.off + x.len }
  | _ => s

/-- Issue a read: the request goes out and the read is outstanding. -/
def putRead (s : State) (x : ReadReq) : State :=
  let s1 := toHost s (.hostRead x.out.dom x.addr x.out.len)
  noteAsked { s1 with pcie := { s1.pcie with reads := s1.pcie.reads ++ [x.out] } } x.out

/-- What requester r asks for once a read of its has been issued: a SEND whose data takes further requests
keeps its place at the front. -/
def afterRead (s : State) (r : Nat) (q : HReq) : State :=
  match q with
  | .read d (.sendData k) => reask (if (sendRead s d k).isSome then setQueue s r (q :: queueOf s r) else s) d
  | .read d _ => reask s d
  | _ => s

/-- Requester r has the grant for the read q: it is issued, or waits for its allotment or for completion
buffer space (R241, R268). -/
def grantRead (s : State) (r : Nat) (q : HReq) : State :=
  match readOf s q with
  | none => s
  | some x => if readAllowed s q && bufferRoom s then afterRead (putRead (bump s) x) r q else bump (holdPath s r q)

/-- A holder that waits for its allotment goes on when it can, and a write set aside goes out; not while
requester 19 has a request (R270). -/
def issueHeld (s : State) : State :=
  if emergency s then s
  else match s.hma.arb.holder, s.hma.cur, s.hma.left with
    | some r, some q, _ => if r < 8 || r = 16 then grantRead (hmaDone s r) r q else s
    | some r, none, some x =>
      hmaDone (toHost { s with hma := { s.hma with left := none } } (.hostWrite x.1 x.2.1 x.2.2)) r
    | _, _, _ => s

/-- Once requester 19 has no request any more, the holder that was set aside goes on (R270). -/
def resumeAside (f : State → State) (s : State) : State :=
  let t := f s
  if emergency s && !emergency t then issueHeld t else t

/-- Row FLR_PF (R40): it abandons the emergency save. -/
def execFlrPf (s : State) : Outcome := onLink s (resumeAside (onCfg 0 flrPf))

/-! ## A read ends (R206, R246) -/

/-- The outstanding read of domain d for `u`. -/
def findRead (s : State) (d : DomN) (u : ReadUse) : Option ReadOut :=
  s.pcie.reads.find? fun x => x.dom = d && x.use = u

/-- The read is no longer outstanding. -/
def endRead (s : State) (x : ReadOut) : State :=
  { s with pcie := { s.pcie with reads := s.pcie.reads.erase x } }

/-- What an endpoint's read leaves to be asked for again. -/
def askAgain (s : State) : ReadUse → State
  | .descriptor k => epAsk s k
  | .sendData k => epAsk s k
  | .commands => s
  | .page => s

/-- The completion of a read of domain d arrives: `f` uses its data unless the domain is being torn down
or the data is no longer wanted.  A completion that matches no read is unexpected (R206). -/
def onRead (s : State) (d : DomN) (u : ReadUse) (f : State → ReadOut → State) : State :=
  match findRead s d u with
  | none => unexpected s
  | some x =>
    let s1 := endRead s x
    if s.doms[d].st = .teardown then issueHeld s1
    else issueHeld (if x.n = 0 then askAgain s1 u else f s1 x)

/-! ## The doorbell page (R213 to R217) -/

/-- Queue a watch of domain d, merged with one of its kind that is still queued (R217). -/
def pushWatch (s : State) (d : DomN) (pre : Bool) : State :=
  if s.que.watches.contains (d, pre) then s
  else { s with que := { s.que with watches := s.que.watches ++ [(d, pre)] } }

/-- The watcher reads the page of domain d (R215, R238). -/
def watched (s : State) (d : DomN) : Bool := s.doms[d].st = .run && fnLive s d

/-- Row DOORBELL_WATCH (R215). -/
def execDoorbellWatch (d : DomN) (s : State) : Outcome :=
  onLink s fun s => whenDo (watched s d) (pushWatch · d false) s

/-- Row PRESTROKE_WATCH (R216). -/
def execPrestrokeWatch (d : DomN) (s : State) : Outcome :=
  onLink s fun s => whenDo (watched s d && bit s.doms[d].cadence 15 && s.tb.prestroke != 0 && s.tb.valid)
    (pushWatch · d true) s

/-- Row DOORBELL_RETRY (R242). -/
def execDoorbellRetry (d : DomN) (s : State) : Outcome :=
  onLink s fun s => whenDo (watched s d && s.doms[d].retry) (pushWatch · d false) s

/-- An EV_CMD that answers no command: CTAG 0 (R214, R242). -/
def cmdNote (s : State) (d : DomN) (status w4 : Nat) : State :=
  raiseDom s d false { code := 0x02, src := 0, w1 := w16 status, w2 := s.doms[d].cmdNext, w4 := w16 w4 }

/-- Set bits of DOM_ERR. -/
def domErrSet (s : State) (d : DomN) (bits : Word) : State := modDom s d fun x => { x with err := x.err ||| bits }

/-- CMD_PI as the next watch compares it: the last one read, or after a resync the XK17's own count (R213,
R253). -/
def cmdSeen (x : Dom) : Word := if x.recheck then x.cmdNext else x.cmdRaw

/-- EVT_CI as the next watch compares it. -/
def evtSeen (x : Dom) : Word := if x.recheck then x.evtCi else x.evtRaw

/-- EPk_PI as the next watch of the endpoint's owner compares it. -/
def piSeen (x : Dom) (e : Ep) : Word := if x.recheck then e.next else e.piRaw

/-- A new CMD_PI (R213, R214): out of range, it stops the command ring, and a fetch that has not been
granted is withdrawn. -/
def takeCmdPi (s : State) (d : DomN) (v : Word) : State :=
  let x := s.doms[d]
  let s1 := modDom s d fun x => { x with cmdRaw := v }
  if v = cmdSeen x || x.cmdRing != .running then s1
  else if (v - x.cmdNext).toNat ≤ cmdSize x then cmdAsk (modDom s1 d fun x => { x with cmdPi := v }) d
  else cmdNote (tidy (domErrSet (modDom s1 d fun x => { x with cmdRing := .ringErr }) d 0x0001#16) d.val) d 7 0

/-- A new EVT_CI: one ahead of the producer count is ignored and recorded (R214).  DEDUCED: counts wrap, so one
that lies further behind than the ring is long counts as ahead (R212, R288; log entry 164). -/
def takeEvtCi (s : State) (d : DomN) (v : Word) : State :=
  let x := s.doms[d]
  let s1 := modDom s d fun x => { x with evtRaw := v }
  if v = evtSeen x then s1
  else if evtSize x < (x.producer - v).toNat then domErrSet s1 d 0x0004#16
  else modDom s1 d fun x => { x with evtCi := v }

/-- Count of the oldest descriptor of the endpoint that has not completed (R256). -/
def doneOf (e : Ep) : Word :=
  match fetched e with
  | x :: _ => x.count
  | [] => e.next

/-- The producer count lies within the ring, ahead of what has been fetched and completed (R214). -/
def piOk (e : Ep) (v : Word) : Bool :=
  (v - doneOf e).toNat ≤ ringEntries e && (v - e.next).toNat ≤ ringEntries e

/-- Endpoint k's ring stops with an EV_XFER of the given status, and a fetch that has not been granted is
withdrawn (R214, R242). -/
def stopRing (s : State) (k : EpN) (status : Nat) : State :=
  let d := s.ln.eps[k].owner
  let s1 := domErrSet (modEp s k fun e => { e with ringErr := true }) d 0x0002#16
  xferEvent (tidy s1 d.val) k status s.ln.eps[k].next 0 0#7 false false

/-- The count of endpoint k is looked at: its domain owns it, and its ring is set (R214). -/
def looksAt (s : State) (d : DomN) (k : EpN) : Bool :=
  s.ln.eps[k].owner = d && s.ln.eps[k].ring

/-- A new EPk_PI (R213, R214). -/
def takePi (d : DomN) (pis : List Word) (s : State) (k : EpN) : State :=
  let v := wAt pis k.val
  let e := s.ln.eps[k]
  if !looksAt s d k then s
  else
    let s1 := modEp s k fun e => { e with piRaw := v }
    if v = piSeen s.doms[d] e || e.ringErr then s1
    else if piOk e v then epAsk (modEp s1 k fun e => { e with pi := v }) k
    else stopRing s1 k 7

/-- A watch found a count that changed (R215). -/
def pageChanged (s : State) (d : DomN) (cmdPi evtCi : Word) (pis : List Word) : Bool :=
  let x := s.doms[d]
  cmdPi != cmdSeen x || evtCi != evtSeen x ||
    epAll.any fun k => looksAt s d k && wAt pis k.val != piSeen x s.ln.eps[k]

/-- Events wait for space in the event ring. -/
def eventsWait (x : Dom) : Bool := !x.evq.isEmpty && evtFree x = 0

/-- Slow limit of the watch interval: FAST × 2^DBL, at most 16 ms (R215). -/
def slowOf (x : Dom) : Nat := min 32000 (fastOf x * 2 ^ fld x.cadence 11 4)

/-- The interval after a watch (R215, R216). -/
def nextInterval (changed pre : Bool) (x : Dom) : Dom :=
  { x with interval :=
      if changed || eventsWait x then fastOf x
      else if pre then x.interval
      else max (fastOf x) (min (2 * x.interval) (slowOf x)) }

/-- The doorbell page has been read (R213).  DESIGN CHOICE: a page read at GO whose data comes in EASY changes
nothing, the counts "as last read" of R255 among it (log entry 163). -/
def pageDone (s : State) (d : DomN) (cmdPi evtCi : Word) (pis : List Word) (pre : Bool) : State :=
  if s.doms[d].st != .run then s
  else
    let ch := pageChanged s d cmdPi evtCi pis
    let s1 := takeEvtCi (takeCmdPi (modDom s d fun x => { x with retry := false }) d cmdPi) d evtCi
    let s2 := forEach epAll (takePi d pis) s1
    modDom s2 d fun x => { nextInterval ch pre x with recheck := false }

/-- Row DOORBELL_READ_DONE (R213). -/
def execDoorbellReadDone (d : DomN) (cmdPi evtCi : Word) (pis : List Word) (s : State) : Outcome :=
  onLink s fun s => onRead s d .page fun s x => pageDone s d cmdPi evtCi pis x.pre

/-! ## Command and transfer descriptors, SEND data (R219, R221) -/

/-- Pair descriptors with their counts. -/
def countedFrom (c : Word) : List W8 → List (Word × W8)
  | [] => []
  | w :: ws => (c, w) :: countedFrom (c + 1#16) ws

/-- Command descriptors have arrived: they are queued in ring order; in EASY they are given back (R251). -/
def cmdsDone (s : State) (d : DomN) (ws : List W8) : State :=
  if s.doms[d].st = .easy then s
  else cmdGoOn (modDom s d fun x =>
    { x with
      cmdQ := x.cmdQ ++ (countedFrom x.cmdNext ws).map fun p => { count := p.1, w := p.2 }
      cmdNext := x.cmdNext + w16 ws.length }) d

/-- Row COMMAND_FETCH_DONE (R219). -/
def execCommandFetchDone (d : DomN) (cmds : List W8) (s : State) : Outcome :=
  onLink s fun s => onRead s d .commands fun s x => cmdsDone s d (cmds.take x.n)

/-- Transfer descriptors have arrived; a bad one completes with BADDESC when its turn comes (R220). -/
def descsDone (s : State) (k : EpN) (ws : List W8) : State :=
  epAsk (modEp s k fun e =>
    { e with
      descs := e.descs ++ (countedFrom e.next ws).map fun p => { count := p.1, w := p.2 }
      next := e.next + w16 ws.length }) k

/-- Row DESCRIPTOR_FETCH_DONE (R221). -/
def execDescriptorFetchDone (d : DomN) (k : EpN) (descs : List W8) (s : State) : Outcome :=
  onLink s fun s => onRead s d (.descriptor k) fun s x => descsDone s k (descs.take x.n)

/-- A completion with data for the SEND at the head of endpoint k's ring has arrived; with the last one the
buffer is full (R221). -/
def sendDone (s : State) (k : EpN) (x : ReadOut) (data : List Nat) : State :=
  match s.ln.eps[k].descs with
  | [] => s
  | y :: _ =>
    let s1 := putData s k x.off ((List.range x.len).map fun i => data.getD i 0 % 256)
    if descLen y ≤ s.ln.eps[k].asked && !readDue s1 x.dom x.use then fillBuf s1 k (descLen y) else s1

/-- Row SEND_DATA_FETCH_DONE (R221): the oldest outstanding read of the SEND's data completes. -/
def execSendDataFetchDone (d : DomN) (k : EpN) (data : List Nat) (s : State) : Outcome :=
  onLink s fun s => onRead s d (.sendData k) fun s x => sendDone s k x data

/-! ## Failed reads (R206, R242) -/

/-- The outcome of a failed read, by what it was for (R242). -/
def readOutcome (s : State) (d : DomN) (x : ReadOut) : State :=
  match x.use with
  | .sendData k =>
    if x.n = 0 then epAsk s k
    else epAsk (completeHead (voidReads s fun u => u = .sendData k) k 6 0 false false) k
  | .descriptor k => if x.n = 0 then epAsk s k else stopRing s k 6
  | .commands => cmdNote (tidy (modDom s d fun x => { x with cmdRing := .hostErr }) d.val) d 6 1
  | .page =>
    if s.doms[d].st != .run then s
    else if s.doms[d].retry then cmdNote (domFault s d) d 6 2
    else modDom s d fun x => { x with retry := true }

/-- A read of domain d fails: HOSTERR is set (R242); during a teardown its failure changes nothing else
but the count of timeouts (R246, R248). -/
def failRead (s : State) (d : DomN) (x : ReadOut) (timeout : Bool) : State :=
  let s1 := domErrSet (endRead s x) d 0x0010#16
  issueHeld (if s.doms[d].st = .teardown then
      modDom s1 d fun y => { y with tdTimeouts := y.tdTimeouts + if timeout then 1 else 0 }
    else readOutcome s1 d x)

/-- Row COMPLETION_TIMEOUT (R206). -/
def execCompletionTimeout (d : DomN) (u : ReadUse) (s : State) : Outcome :=
  onLink s fun s => match findRead s d u with
    | none => s
    | some x => failRead (aerLog s d 14 false) d x true

/-- Row HOST_READ_FAILED (R242): a poisoned completion is reported in the requesting function (R205). -/
def execHostReadFailed (d : DomN) (u : ReadUse) (kind : ReadFail) (s : State) : Outcome :=
  onLink s fun s => match findRead s d u with
    | none => unexpected s
    | some x => failRead (if kind = .poisoned then aerLog s d 12 false else s) d x false

end Sys2Proof.Machine
end

