-- ==== Sys2Proof/Machine/Summary.lean ====
section
/-! DEFINITION. The Easy state and the Summary Block (R251 to R256). -/

namespace Sys2Proof.Machine

open Sys2Proof

/-- A list of words brought to `n` words with zeros. -/
def padTo (n : Nat) (ws : List Word) : List Word := (ws ++ List.replicate n 0#16).take n

/-- Four words of an address or a time. -/
def words4 (v : Nat) : List Word := [wordOf v 0, wordOf v 1, wordOf v 2, wordOf v 3]

/-- One bit of each of the three requesters of domain d, from bit `lo` (Summary Block, 0x022). -/
def threeBits (h u : BitVec 32) (d : DomN) (lo : Nat) : Word :=
  orAll [atBit (h.getLsbD d.val) lo, atBit (h.getLsbD (8 + d.val)) (lo + 1), atBit (u.getLsbD (20 + d.val)) (lo + 2)]

/-- Bytes 0x000 to 0x03F. -/
def blockHead (s : State) (d : DomN) : List Word :=
  let x := s.doms[d]
  let f := s.pcie.fns[d]
  let mse := if d = 0 then f.mse else s.pcie.vfMse
  padTo 32 ([0x5355#16, x.sumSeq + 1#16, 1#16, w16 d.val] ++ words4 (now s) ++
    [wordOf s.tb.stroke.toNat 0, wordOf s.tb.stroke.toNat 1, x.goStat, domErr x, domRights x,
     domEpmask s d 0, domEpmask s d 1, domQos s d,
     orAll [atBit mse 0, atBit f.bme 1, atBit f.msixEn 2, atBit f.fnMask 3],
     threeBits s.hma.arb.cuts s.ula.arb.cuts d 0 ||| threeBits s.hma.arb.flags s.ula.arb.flags d 4,
     s.bus.node, s.bus.loc])

/-- Code of the command ring's state. -/
def ringCode : RingSt → Nat
  | .running => 0
  | .ringErr => 1
  | .hostErr => 2

/-- Bytes 0x040 to 0x05F: the command ring. -/
def blockCmd (x : Dom) : List Word :=
  padTo 16 [x.cmdRaw, x.cmdNext, x.cmdSz, w16 (ringCode x.cmdRing), x.lastCtag, w16 x.lastStat]

/-- The events that wait in the backlog (R224). -/
def backlogged (x : Dom) : List EvQ := x.evq.filter fun q => !waitsFree q.ev.code

/-- Bytes 0x060 to 0x07F: the event ring. -/
def blockEvt (x : Dom) : List Word :=
  padTo 16 [x.producer, x.evtCi, x.evtSz, atBit (genOf x x.producer) 0, atFld x.evSeq 0 15,
    w16 (min 32 (backlogged x).length), w16 (min 63 (x.evq.filter fun q => waitsFree q.ev.code).length),
    w16 x.evLost]

/-- Bytes 0x080 to 0x0BF: the cadence, the bases and the vectors. -/
def blockRings (x : Dom) : List Word :=
  padTo 32 ([x.cadence, w16 x.interval, 0#16, 0#16] ++ words4 x.db ++ words4 x.cmdBase ++ words4 x.evtBase ++
    x.evtMap.toList ++ [x.mod, wordOf x.held.toNat 0, wordOf x.held.toNat 1,
      wordOf x.gapRun.toNat 0, wordOf x.gapRun.toNat 1])

/-- Bytes 0x0C0 to 0x0FF: the hints and the reads at GO. -/
def blockArb (s : State) (d : DomN) : List Word :=
  padTo 32 [vAt s.hma.arb.hint 0#16 d.val, vAt s.hma.arb.hint 0#16 (8 + d.val),
    vAt s.ula.arb.hint 0#16 (20 + d.val), w16 s.doms[d].goReads]

/-- An endpoint record (R256). -/
def epRecord (s : State) (d : DomN) (k : EpN) : List Word :=
  let e := s.ln.eps[k]
  if e.owner != d then List.replicate 16 0#16
  else
    let fl := orAll [atBit true 0, atBit e.ring 1, atFld e.ringSize 2 4, atFld (fetched e).length 6 2, atBit e.cueHeld 8]
    [epCfg e, epStat e, epSeq e, epErr e, fl, e.piRaw, e.next, doneOf e] ++ words4 e.ringBase ++
      [w16 e.len, (((fetched e).head?).map fun x => x.w[6]).getD 0#16, w16 e.size, w16 e.buf]

/-- Words of an entry that waits, as it will be written at its place in the ring. -/
def waitingEntry (x : Dom) (i : Nat) : List Word :=
  match x.evq[i]? with
  | some q => if waitsFree q.ev.code then [] else entryOf x (x.producer + w16 i) q
  | none => []

/-- Bytes 0x500 to 0x6FF: the backlog, oldest first. -/
def blockBacklog (x : Dom) : List Word :=
  padTo 256 ((List.range x.evq.length).flatMap fun i => waitingEntry x i)

/-- The Summary Block of domain d (R255): 1,024 words, the last the check word over the others. -/
def summaryBlock (s : State) (d : DomN) : List Word :=
  let x := s.doms[d]
  let body := blockHead s d ++ blockCmd x ++ blockEvt x ++ blockRings x ++ blockArb s d ++
    (epAll.flatMap fun k => epRecord s d k) ++ blockBacklog x ++ List.replicate 126 0#16 ++ [x.sumSeq + 1#16]
  body ++ [crc16 body]

/-- A move of endpoint k is part-way: bytes have been asked for or drained, its ring has not stopped, and its
requester is not cut off (R251; When events coincide). -/
def partWay (s : State) (d : DomN) (k : EpN) : Bool :=
  let e := s.ln.eps[k]
  e.owner = d && e.ring && !e.ringErr && ((e.asked != 0 && !e.full && !s.hma.arb.cuts.getLsbD d.val) ||
    (e.moved != 0 && !s.hma.arb.cuts.getLsbD (8 + d.val)))

/-- A command of domain d is in progress.  One that waits for its host data alone does not count while the
function may issue no request (R251; When events coincide). -/
def cmdBusy (s : State) (d : DomN) : Bool :=
  s.doms[d].cmdRun.any fun r => fnLive s d || r.data.isNone

/-- Writes that the function may issue are still to come: the rest of an entry, the EV_CMD of a command that was
in progress, or the rest of a data move (R251). -/
def writesLeft (s : State) (d : DomN) : Bool :=
  let x := s.doms[d]
  fnLive s d && (x.evPart || (x.evq.any fun q => q.force) || epAll.any (partWay s d))

/-- All work that had started has ended, and the EV_CMD of a command that was in progress has been written
(R251).  With Bus Master Enable = 0 or in D3hot it is reached all the same (When events coincide). -/
def easyReached (s : State) (d : DomN) : Bool :=
  s.doms[d].st = .easy && !cmdBusy s d && !writesLeft s d && grantsEnded s d

/-- The domain leaves EASY for SUMMARY, and its counts are taken (R251). -/
def easyEnd (s : State) (d : DomN) : State :=
  let b := summaryBlock s d
  hmaAsk (modDom s d fun x => { x with st := .summary, block := b, sumAt := 0 }) 17 (.block d)

/-- Row EASY_STATE (R251). -/
def execEasyState (d : DomN) (s : State) : Outcome := onLink s fun s => whenDo (easyReached s d) (easyEnd · d) s

/-- What the end of a summary changes in the domain (R252, R253): its next watch compares with its own
counts. -/
def domResume (x : Dom) : Dom :=
  { x with
    st := .run, busy := false, sumSeq := x.sumSeq + 1#16, err := x.err &&& 0xFFE0#16, block := [], sumAt := 0
    cmdRing := .running, cmdPi := x.cmdNext, recheck := true, interval := fastOf x, retry := false }

/-- The block is complete: the domain runs again, watches at once, and EV_RESYNC_DONE follows the events
that were held (R252, R253). -/
def summaryEnd (s : State) (d : DomN) : State :=
  let s1 := modDom s d domResume
  let s2 := { s1 with ln := { s1.ln with eps := s1.ln.eps.map fun e =>
    if e.owner = d && e.ring then { e with pi := e.next } else e } }
  reask (raiseDom (pushWatch s2 d false) d false { code := 0x0E, src := 0, w1 := s2.doms[d].sumSeq }) d

/-- Row SUMMARY_DONE (R252): the last write has been granted to the summary writer (R259). -/
def execSummaryDone (d : DomN) (s : State) : Outcome :=
  onLink s fun s => whenDo (pathHeld s (.block d)) (fun s => summaryEnd (issueLast s 17 (.block d)) d) s

end Sys2Proof.Machine
end

