-- ==== Sys2Proof/Machine/Arbiter.lean ====
section
/-! DEFINITION. The two arbiters: eligibility, the decision, quotas, starvation and hints, the hold
cut-off, the upstream preemption, and writes to levels and slot entries (R259 to R276). -/

namespace Sys2Proof.Machine

open Sys2Proof

/-! ## One decision (R262 to R267) -/

/-- Slot entry j of an arbiter. -/
def slotAt (a : Arb) (j : Nat) : Word := tabGet 0#16 a.slots (j % 64)

/-- The owner that a slot entry names, if it is valid. -/
def slotOwner (e : Word) : Option Nat := if bit e 15 then some (fld e 0 5) else none

/-- QUOTA_EN. -/
def quotaOn (a : Arb) : Bool := bit a.ctrl 2

/-- The better of two requesters, the lower ID first: the higher level, then the larger grant age
(rules 2 to 4 of R263). -/
def better (a : Arb) (lvl : Nat → Nat) (w : Option Nat) (r : Nat) : Option Nat :=
  match w with
  | none => some r
  | some x =>
    if lvl x < lvl r || (lvl r = lvl x && vAt a.gage 0 x < vAt a.gage 0 r) then some r else some x

/-- The winner of a decision among the requesters that `elig` names (R263). -/
def winner (a : Arb) (n : Nat) (elig : Nat → Bool) (lvl : Nat → Nat) : Option Nat :=
  match (slotOwner (slotAt a a.ptr)).filter elig with
  | some r => some r
  | none => ((List.range n).filter elig).foldl (better a lvl) none

/-- Wait age of requester r after a decision that `win` takes (R266). -/
def wageAfter (a : Arb) (elig : Nat → Bool) (win r : Nat) : Nat :=
  if r = win then 0 else if elig r then satInc 65535 (vAt a.wage 0 r) else vAt a.wage 0 r

/-- Requesters that this decision flags as starved (R266). -/
def starved (a : Arb) (n : Nat) (elig : Nat → Bool) (win : Nat) : List Nat :=
  (List.range n).filter fun r =>
    r != win && elig r && bit a.ctrl 1 && !a.flags.getLsbD r && vAt a.wage 0 r < 65535 &&
      a.starve.toNat < vAt a.wage 0 r + 1

/-- Tokens of requester r after a decision (R265): `l3` names the level-3 requesters. -/
def tokensAfter (a : Arb) (l3 : Nat → Bool) (spend last : Bool) (win r : Nat) : Nat :=
  if last && l3 r then fld a.quota 0 6
  else if r = win && spend then vAt a.tokens 0 r - 1
  else vAt a.tokens 0 r

/-- Distance to the next valid entry of requester r, from the pointer, not before `i` entries. -/
def slotFrom (a : Arb) (r : Nat) (i : Nat) : Option Nat :=
  ((List.range 64).find? fun j => slotOwner (slotAt a (a.ptr + i + j)) = some r).map fun j => i + j + 1

/-- Hint of requester r after a decision (R267): `masked` says that its quota masks it now. -/
def hintOf (a : Arb) (masked : Bool) (holds : Bool) (r : Nat) : Word :=
  if holds then 0#16
  else if a.cuts.getLsbD r then 0xFFFF#16
  else match slotFrom a r (if masked then a.curWin - a.wpos else 0) with
    | some k => w16 k
    | none => 0xFFFF#16

/-- What a decision won by `win` changes in the arbiter's books, but for the hints. -/
def bookWin (a : Arb) (n : Nat) (elig : Nat → Bool) (lvl : Nat → Nat) (l3 : Nat → Bool) (win : Nat) : Arb :=
  let spend := quotaOn a && lvl win = 3
  let last := a.curWin ≤ a.wpos + 1
  { a with
    ptr := (a.ptr + 1) % 64
    gage := Vector.ofFn fun r => if r.val = win then 0 else if r.val < n then satInc 65535 a.gage[r] else a.gage[r]
    wage := Vector.ofFn fun r => if r.val < n then wageAfter a elig win r.val else a.wage[r]
    flags := (starved a n elig win).foldl (fun f r => putVec f r true) a.flags
    tokens := Vector.ofFn fun r => tokensAfter a l3 spend last win r.val
    wpos := if last then 0 else a.wpos + 1
    curWin := if last then fld a.window 0 11 else a.curWin
    curQuo := if last then fld a.quota 0 6 else a.curQuo }

/-- The hints after a decision. -/
def bookHints (a : Arb) (n : Nat) (l3 : Nat → Bool) (holds : Nat → Bool) : Arb :=
  { a with hint := Vector.ofFn fun r =>
      if r.val < n then hintOf a (quotaOn a && l3 r.val && vAt a.tokens 0 r.val = 0) (holds r.val) r.val else a.hint[r] }

/-- EV_STARVE and its black-box entry for each requester that was flagged (R266). -/
def raiseStarve (w : Nat) (s : State) (r : Nat) : State :=
  bbLink (raise s { code := 0x0A, src := r, w1 := w16 w }) 0x60 r (w16 w) 0#16

/-! ## The host-memory arbiter (R259, R261, R270) -/

/-- Replace the HMA's arbiter. -/
def setHma (s : State) (a : Arb) : State := { s with hma := { s.hma with arb := a } }

/-- The request may be granted now: its function may issue requests, a read not in FAULT, a message not in
SUMMARY (R189, R244, R251, R261). -/
def mayGrant (s : State) (q : HReq) : Bool :=
  wanted s q && fnLive s (domOf q) && (match q with
    | .read d _ => s.doms[d].st != .fault
    | .msg d _ => s.doms[d].st = .run || s.doms[d].st = .fault || s.doms[d].st = .easy
    | _ => true)

/-- The watches as the watcher presents them, oldest first. -/
def watchReqs (s : State) : List HReq := s.que.watches.map fun w => .watch w.1 w.2

/-- The request that HMA requester r presents: its oldest that may be granted (R259, R261). -/
def hmaNext (s : State) (r : Nat) : Option HReq :=
  (if r = 16 then watchReqs s else queueOf s r).find? (mayGrant s)

/-- HMA requester r has a request that may be granted. -/
def hmaHas (s : State) (r : Nat) : Bool := (hmaNext s r).isSome

/-- The request q of requester r leaves its queue. -/
def takeReq (s : State) (r : Nat) (q : HReq) : State :=
  match q with
  | .watch d pre => { s with que := { s.que with watches := s.que.watches.erase (d, pre) } }
  | _ => setQueue s r ((queueOf s r).erase q)

/-- A write of requester r is granted: the last of its move keeps the path until its own row, any other is
issued and its move stays at the front of the queue (R189, R259). -/
def grantWrite (s : State) (r : Nat) (q : HReq) : State :=
  match nextWrite s q with
  | none => s
  | some p => if p.last then holdPath s r q else setQueue (advance (putWrite s q p) p q) r (q :: queueOf s r)

/-- Requester r is granted (R259, R270): one PCIe request. -/
def grantReq (s : State) (r : Nat) : State :=
  match hmaNext s r with
  | none => s
  | some q =>
    let s1 := takeReq s r q
    match q with
    | .read _ _ => grantRead s1 r q
    | .watch _ _ => grantRead s1 r q
    | .msg d v => issueMsg s1 d v
    | _ => grantWrite s1 r q

/-- Level of HMA requester r. -/
def hmaLvl (s : State) (r : Nat) : Nat := fld (vAt s.hma.arb.pri 0#16 r) 0 2

/-- HMA requester r is eligible (R261). -/
def hmaElig (s : State) (r : Nat) : Bool :=
  hmaHas s r && !s.hma.arb.cuts.getLsbD r &&
    !(quotaOn s.hma.arb && hmaLvl s r = 3 && vAt s.hma.arb.tokens 0 r = 0)

/-- HMA requesters that a decision flags: 17 never is (R264). -/
def hmaStarved (s : State) (win : Nat) : List Nat :=
  (starved s.hma.arb 19 (fun r => r != 17 && hmaElig s r) win)

/-- The decision that `win` takes: the books, the flags and the grant (R263 to R267). -/
def hmaGrant (s : State) (win : Nat) : State :=
  let st := hmaStarved s win
  let a := bookWin s.hma.arb 19 (hmaElig s) (hmaLvl s) (fun r => hmaLvl s r = 3) win
  let a1 := { a with flags := st.foldl (fun f r => putVec f r true) s.hma.arb.flags }
  let a2 := bookHints a1 19 (fun r => hmaLvl s r = 3) (fun r => r = win)
  grantReq (forEach st (raiseStarve 0) (setHma s a2)) win

/-- Every queue as it stands. -/
def tidyAll (s : State) : State := forEach (List.range 19) tidy s

/-- A decision of the HMA, when a requester is eligible. -/
def hmaDecide (s : State) : State :=
  let s1 := tidyAll s
  match winner s1.hma.arb 19 (hmaElig s1) (hmaLvl s1) with
  | some win => hmaGrant s1 win
  | none => s1

/-- The path is free for a decision: nobody holds it, and requester 19 has no request (R270). -/
def hmaFree (s : State) : Bool := s.hma.arb.holder.isNone && !emergency s

/-- Row HMA_DECISION (R263). -/
def execHmaDecision (s : State) : Outcome := onLink s fun s => whenDo (hmaFree s) hmaDecide s

/-! ## The upstream link arbiter (R260, R261, R271 to R273) -/

/-- Replace the ULA's arbiter. -/
def setUla (s : State) (a : Arb) : State := { s with ula := { s.ula with arb := a } }

/-- NLVL of ULA requester r. -/
def nlvl (s : State) (r : Nat) : Nat := fld (vAt s.ula.arb.pri 0#16 r) 0 2

/-- PLVL of ULA requester r. -/
def plvl (s : State) (r : Nat) : Nat := fld (vAt s.ula.arb.pri 0#16 r) 2 2

/-- Requester r has spent its quota (R265). -/
def ulaSpent (s : State) (r : Nat) : Bool := quotaOn s.ula.arb && vAt s.ula.arb.tokens 0 r = 0

/-- The oldest packet of a class that requester r presents. -/
def oldest (s : State) (r : Nat) (p : Bool) : Option TxPkt :=
  (vAt s.ula.reqs [] r).find? fun t => t.pkt.hdr.pcls = p

/-- The packet may start on UP: it may be handed over and UP has its credits (R60, R111, R261). -/
def upReady (s : State) (t : TxPkt) : Bool := startable t && hasCredits s.ports[0] t

/-- The periodic packet with which requester r may compete: above the level of a suspended packet. -/
def perCand (s : State) (above : Option Nat) (r : Nat) : Option TxPkt :=
  if s.ula.arb.cuts.getLsbD r || (plvl s r = 3 && ulaSpent s r) || (above.any fun l => plvl s r ≤ l) then none
  else (oldest s r true).filter (upReady s)

/-- The non-periodic packet with which requester r may compete. -/
def nonCand (s : State) (above : Option Nat) (r : Nat) : Option TxPkt :=
  if s.ula.arb.cuts.getLsbD r || (nlvl s r = 3 && ulaSpent s r) || above.isSome then none
  else (oldest s r false).filter (upReady s)

/-- The packet with which requester r competes: its periodic one first (R263). -/
def ulaCand (s : State) (above : Option Nat) (r : Nat) : Option TxPkt :=
  (perCand s above r).or (nonCand s above r)

/-- The level of the request with which requester r competes. -/
def ulaLvl (s : State) (above : Option Nat) (r : Nat) : Nat :=
  if (perCand s above r).isSome then plvl s r else nlvl s r

/-- A level-3 requester of the ULA (R265). -/
def ulaL3 (s : State) (r : Nat) : Bool := nlvl s r = 3 || plvl s r = 3

/-- Without tokens, requester r is masked in every class that it carries: 16 and 17 carry non-periodic packets
alone (R260, R265, R267). -/
def ulaMaskable (s : State) (r : Nat) : Bool := nlvl s r = 3 && (plvl s r = 3 || r = 16 || r = 17)

/-- Take a packet out of requester r's queue and start it on UP; its place may serve an answer that waits
(R240). -/
def startUp (s : State) (r : Nat) (t : TxPkt) : State :=
  let s1 := { s with ula := { s.ula with
    reqs := s.ula.reqs.setIfInBounds r ((vAt s.ula.reqs [] r).erase t)
    arb := { s.ula.arb with holder := some r } } }
  serveOther (startTx 0 t s1)

/-- The decision that `win` takes on UP. -/
def ulaGrant (s : State) (above : Option Nat) (win : Nat) : State :=
  let elig (r : Nat) : Bool := (ulaCand s above r).isSome
  let a := bookWin s.ula.arb 28 elig (ulaLvl s above) (ulaL3 s) win
  let a1 := bookHints a 28 (ulaMaskable s) (fun r => r = win || s.ula.arb.aside = some r)
  let s1 := forEach (starved s.ula.arb 28 elig win) (raiseStarve 1) (setUla s a1)
  match ulaCand s above win with
  | some t => startUp s1 win t
  | none => s1

/-- A decision of the ULA among the requests that `above` allows. -/
def ulaDecide (s : State) (above : Option Nat) : State :=
  match winner s.ula.arb 28 (fun r => (ulaCand s above r).isSome) (ulaLvl s above) with
  | some win => ulaGrant s above win
  | none => s

/-- NLVL of the suspended packet's requester. -/
def suspLvl (s : State) : Option Nat := s.ula.arb.aside.map (nlvl s)

/-- A further packet may be sent in this suspension (R273). -/
def mayRun (s : State) : Bool :=
  match s.ula.susp with
  | none => true
  | some (t, _) => t.fail.isNone && fragOn s.ports[0] && (s.ula.maxRun = 0 || s.ula.run < s.ula.maxRun)

/-- One more packet of the suspension. -/
def countRun (s : State) : State :=
  if s.ula.susp.isSome then { s with ula := { s.ula with run := s.ula.run + 1 } } else s

/-- A decision at a packet boundary of UP (R271, R273). -/
def ulaDecision (s : State) : State :=
  let s1 := ulaDecide s (suspLvl s)
  if s1.ports[0].txCur.isSome then countRun s1 else s1

/-- Row ULA_DECISION (R271). -/
def execUlaDecision (s : State) : Outcome :=
  onLink s fun s => whenDo (atBoundary s 0 && mayRun s) ulaDecision s

/-- PRE may interrupt the packet on UP, of which `sent` words have been handed over (R272). -/
def preemptible (s : State) (sent : Nat) : Bool :=
  fragOn s.ports[0] && s.ula.preEn && s.ula.susp.isNone && s.ula.arb.holder.isSome &&
    s.ports[0].txCur.any fun t => !t.pkt.hdr.pcls && 4 ≤ sent && sent + 9 ≤ t.len

/-- The holder is suspended: PRE goes out and the words already sent are stored (R272). -/
def suspendUp (s : State) (t : TxPkt) (sent : Nat) : State :=
  let u := s.ula
  let s1 := modPort s 0 fun p => { p with txCur := none }
  emit { s1 with ula := { u with
    susp := some (t, sent), run := 0, preCnt := (u.preCnt + 1) % 256,
    arb := { u.arb with aside := u.arb.holder, holder := none } } } (.pre 0)

/-- A periodic request above the holder's NLVL takes UP (R272). -/
def preempt (s : State) (sent : Nat) : State :=
  match s.ports[0].txCur, s.ula.arb.holder with
  | some t, some r =>
    if (winner s.ula.arb 28 (fun x => (ulaCand s (some (nlvl s r)) x).isSome) (ulaLvl s (some (nlvl s r)))).isSome then
      ulaDecision (suspendUp s t sent)
    else s
  | _, _ => s

/-- Row ULA_PREEMPT (R272). -/
def execUlaPreempt (sent : Nat) (s : State) : Outcome :=
  onLink s fun s => whenDo (preemptible s sent) (preempt · sent) s

/-- The suspended packet must be resumed now: its input failed, no request may run, or the run is over
(R273). -/
def mustResume (s : State) : Bool :=
  !mayRun s ||
    (winner s.ula.arb 28 (fun x => (ulaCand s (suspLvl s) x).isSome) (ulaLvl s (suspLvl s))).isNone

/-- RSM, the offset word, and the rest of the packet (R273). -/
def resumeUp (s : State) (t : TxPkt) (w : Nat) : State :=
  let u := s.ula
  let s1 := modPort s 0 fun p => { p with txCur := some t }
  emit { s1 with ula := { u with
    susp := none, run := 0, arb := { u.arb with holder := u.arb.aside, aside := none } } } (.rsm 0 w)

/-- The suspended packet goes on, or is closed when its input failed (R273). -/
def ulaResume (s : State) : State :=
  match s.ula.susp with
  | none => s
  | some (t, w) =>
    match t.fail with
    | some r => boundary (sweepRx (closeSusp s r t.done)) 0
    | none => if mustResume s then resumeUp s t w else s

/-- Row ULA_RESUME (R273). -/
def execUlaResume (s : State) : Outcome := onLink s fun s => whenDo (atBoundary s 0) ulaResume s

/-! ## Hold cut-off (R268, R269, R276) -/

/-- EV_CUTOFF and its black-box entry. -/
def raiseCutoff (s : State) (w r : Nat) : State :=
  bbLink (raise s { code := 0x0B, src := r, w1 := w16 w }) 0x61 r (w16 w) 0#16

/-- The HMA's holder is cut off and its request kept (R268): only a read waits by a cause of its own. -/
def hmaCut (s : State) (r : Nat) (q : HReq) : State :=
  let s1 := match q with
    | .watch d pre => { s with que := { s.que with watches := (d, pre) :: s.que.watches } }
    | _ => setQueue s r (q :: queueOf s r)
  let s2 := hmaDone (setHma s1 { s1.hma.arb with cuts := putVec s1.hma.arb.cuts r true }) r
  let s3 := if r < 8 && s.doms[engineDom r].st = .teardown then
      modDom s2 (engineDom r) fun x => { x with tdCut := true }
    else s2
  hmaDecide (raiseCutoff s3 0 r)

/-- The ULA's holder is cut off: the packet is closed with EAB, reason 3 (R268). -/
def ulaCut (s : State) (r : Nat) : State :=
  let s1 := boundary (sweepRx (closeEab s 0 3 false)) 0
  let s2 := raiseCutoff (setUla s1 { s1.ula.arb with cuts := putVec s1.ula.arb.cuts r true }) 1 r
  if atBoundary s2 0 && mayRun s2 then ulaDecision s2 else s2

/-- A holder went longer than its limit without progress (R268); in the HMA hold accounting pauses while
requester 19 has a request (R270). -/
def holdCutoff (s : State) : ArbName → State
  | .hma =>
    match s.hma.arb.holder, s.hma.cur with
    | some r, some q => if bit s.hma.arb.ctrl 0 && (r < 8 || r = 16) && !emergency s then hmaCut s r q else s
    | _, _ => s
  | .ula =>
    match s.ula.arb.holder with
    | some r =>
      if bit s.ula.arb.ctrl 0 && r < 16 && s.ports[0].txCur.any (fun t => !t.done) then ulaCut s r else s
    | none => s

/-- Row HOLD_CUTOFF (R268). -/
def execHoldCutoff (arb : ArbName) (s : State) : Outcome := onLink s (holdCutoff · arb)

/-- Clear CUT bits of an arbiter (R269). -/
def cutClear (s : State) (arb : ArbName) (mask : BitVec 32) : State :=
  match arb with
  | .hma => setHma s { s.hma.arb with cuts := s.hma.arb.cuts &&& ~~~mask }
  | .ula => setUla s { s.ula.arb with cuts := s.ula.arb.cuts &&& ~~~mask }

/-! ## Levels and slot entries (R264, R265, R274, R275) -/

/-- A requester that moves to level 3 receives Q tokens for the rest of the window (R265). -/
def grantTokens (was now : Bool) (r : Nat) (a : Arb) : Arb :=
  if now && !was then { a with tokens := a.tokens.setIfInBounds r a.curQuo } else a

/-- Level 3 in either field of a level register. -/
def isL3 (hma : Bool) (v : Word) : Bool := fld v 0 2 = 3 || (!hma && fld v 2 2 = 3)

/-- Write a level register: HMA 17 and 19 and ULA 19 are read only (R264). -/
def priPut (hma : Bool) (r : Nat) (v : Word) (a : Arb) : Arb :=
  let v1 := atFld (fld v 0 4) 0 (if hma then 2 else 4)
  if r = 19 || (hma && r = 17) then a
  else grantTokens (isL3 hma (vAt a.pri 0#16 r)) (isL3 hma v1) r { a with pri := a.pri.setIfInBounds r v1 }

/-- A write to DOM_QOS of domain d (R275). -/
def qosWrite (s : State) (d : DomN) (v : Word) : State :=
  let h := priPut true (8 + d.val) (w16 (fld v 2 2)) (priPut true d.val (w16 (fld v 0 2)) s.hma.arb)
  setUla (setHma s h) (priPut false (20 + d.val) (w16 (fld v 4 4)) s.ula.arb)

/-- A value as a slot entry stores it: an entry that names no requester stores VALID = 0 (R264). -/
def slotVal (hma : Bool) (v : Word) : Word :=
  let r := fld v 0 5
  let ok := r != 19 && r < (if hma then 20 else 28)
  atFld r 0 5 ||| atBit (bit v 15 && ok) 15

/-- Write slot entry j: HMA entries 0 and 32 are read only (R264). -/
def slotPut (hma : Bool) (j : Nat) (v : Word) (a : Arb) : Arb :=
  if hma && (j = 0 || j = 32) then a else { a with slots := tabSet 0#16 a.slots j (slotVal hma v) }

end Sys2Proof.Machine
end

