-- ==== Sys2Proof/Machine/Entry.lean ====
section
/-! DEFINITION. What a reset of the Link die clears, the stow set, and the entries into FEATHER and
STOW with their conditions (R40, R336 to R342). -/

namespace Sys2Proof.Machine

open Sys2Proof

/-! ## The Link die's reset (R40, R43, R145) -/

/-- The account of a downstream port when its PORT block resets: an open reservation becomes a grant where
the port was in a training state later than DETECT (R295). -/
def ppsLinkReset (settle : Bool) (p : Pps) : Pps :=
  { (if settle then settleRsv p else p) with req := 0, reqv := false, pend := false }

/-- The flash controller after its reset: what a flush left behind is remembered, and so is the operation that
a flush waits for (R376, R377). -/
def flKeep (s : State) : Fl :=
  { Fl.reset with left := s.fl.left, leftDue := s.fl.leftDue, op := if flushWaits s.bb then s.fl.op else none }

/-- A flash copy that the reset cuts off reads 0 (R372). -/
def bbWinCut (w : BbWin) : BbWin := if w.wait then { w with data := Entry.zero, wait := false } else w

/-- The black box when the Link die is lost: a scan and a flash copy end. -/
def bbLinkReset (b : Bb) : Bb :=
  { b with scan := false, scanDue := false, rderr := b.rderr || b.pf.wait || b.mgw.wait, pf := bbWinCut b.pf, mgw := bbWinCut b.mgw }

/-- A function's configuration space as SWRST keeps it. -/
def fnKeep (f : Fn) : Fn := { f with flr := false }

/-- The watchdog when the domains take their reset values: the service right returns to domain 0, and a first
write of another holder is discarded (R200). -/
def wdtRight (s : State) : Wdt := { s.wdt with armHost := s.wdt.armHost && bit s.doms[(0 : DomN)].rights 4 }

/-- Every register of the Link die takes its reset value.  With `keepPcie` the PCIe link and the
configuration space keep theirs (GCTRL.SWRST); otherwise the link is down, and a PME_Status drives PE_WAKE_N
(R208). -/
def linkReset (s : State) (keepPcie : Bool) : State :=
  drivePeWake { s with
    glob := Glob.reset
    clk := { Clk.reset with xinOk := s.clk.xinOk }
    pcie := if keepPcie then { s.pcie with reads := [], fns := s.pcie.fns.map fnKeep } else Pcie.reset
    doms := Vector.ofFn Dom.reset
    ln := Ln.reset (!headless s) idUid
    hma := Hma.reset
    ula := Ula.reset
    que := Que.reset
    fl := flKeep s
    ports := Vector.replicate 17 Port.reset
    bus := Bus.reset
    tt := Tt.reset
    tb := Tb.reset
    cen := Cen.reset
    sur := Sur.reset
    pps := Vector.ofFn fun m : DnN => ppsLinkReset (pastDetect s.ports[dnPort m].st) s.pps[m]
    bb := bbLinkReset s.bb
    wdt := wdtRight s
    mtr := { s.mtr with waiters := [] } }

/-! ## The stow set (R341) -/

/-- Addresses and ports of the stow set. -/
def stowPorts : List Reg :=
  [Reg.nodeAddr, Reg.localAddr]
    ++ (portAll.flatMap fun n => [Reg.port n PortReg.ctrl, Reg.port n PortReg.train])
    ++ (dnAll.flatMap fun m => [Reg.port (dnPort m) PortReg.rangeLo, Reg.port (dnPort m) PortReg.rangeHi])
    ++ [Reg.port 0 PortReg.pclass]

/-- The tables of the stow set: multicast entries, downstream and upstream schedules. -/
def stowTables : List Reg :=
  ((List.finRange 256).flatMap fun k => [Reg.mc k McReg.grp, Reg.mc k McReg.ports, Reg.mc k McReg.loc])
    ++ (dnAll.flatMap fun m => (List.finRange 64).map fun j => Reg.sched (dnPort m) j)
    ++ ((List.finRange 64).take 16).map fun j => Reg.sched 0 j

/-- Crews, time base and translator of the stow set. -/
def stowTime : List Reg :=
  ((List.finRange 8).flatMap fun k =>
    [Reg.crew k CrewReg.mask0, Reg.crew k CrewReg.mask1, Reg.crew k CrewReg.catchOfs, Reg.crew k CrewReg.ctrl])
    ++ [Reg.tbCtrl, Reg.tbSlew, Reg.prestroke, Reg.catchPin 0, Reg.catchPin 1, Reg.catchPin 2,
        Reg.catchPin 3, Reg.ttCtrl, Reg.ttTmo]

/-- The local node of the stow set. -/
def stowLocal : List Reg :=
  [Reg.lnCtrl, Reg.lnUid 0, Reg.lnUid 1, Reg.lnUid 2, Reg.lnUid 3, Reg.lnClass]
    ++ (epAll.map fun k => Reg.ep k EpReg.cfg) ++ (epAll.map fun k => Reg.ep k EpReg.buf)
    ++ epAll.map fun k => Reg.ep k EpReg.size

/-- The stow set's registers, in table order. -/
def stowSet : List Reg := stowPorts ++ (stowTables ++ (stowTime ++ stowLocal))

/-- Write-1 fields of a stow-set register, which are restored as 0 (R341). -/
def stowMask : Reg → Word
  | .port _ .ctrl => 0xFFF3#16
  | .port _ .train => 0x00FF#16
  | .port _ .pclass => 0x0007#16
  | .crew _ .ctrl => 0x0007#16
  | .ttCtrl => 0x0001#16
  | .ep _ .cfg => 0x000F#16
  | _ => 0xFFFF#16

/-- The words of B1 (R341). -/
def stowWords (s : State) : List Word := stowSet.map fun r => readReg s .restore r &&& stowMask r

/-! ## Entry conditions (R336) -/

/-- Port n is held, DISABLED or FAILED, or in DETECT with its SD deasserted. -/
def portQuiet (s : State) (n : PortN) : Bool :=
  let p := s.ports[n]
  let a := s.aon.ports[n]
  isHeld a || p.st = .disabled || p.st = .failed || (p.st = .detect && !a.sd && a.hold = .none)

/-- No domain is enabled with its function in D0 (R336). -/
def domsAsleep (s : State) : Bool := domAll.all fun d => !domOn s.doms[d] || s.pcie.fns[d].d3

/-- Every domain is OFF: one in TEARDOWN is not (R336, R238). -/
def domsOff (s : State) : Bool := domAll.all fun d => s.doms[d].st = .off

/-- PE_PERST_N is asserted, or the endpoint is held in reset (R46). -/
def pcieOff (s : State) : Bool := s.rst.perst || !epStrap s

/-- An image load, a summary, a teardown or a flash operation runs, a flush and a copy for BB_INDEX among
the last, or the black-box FIFO holds entries. -/
def linkBusy (s : State) : Bool :=
  flBusy s || s.bb.flush.isSome || s.bb.pf.wait || s.bb.mgw.wait || !s.que.bbf.isEmpty ||
    s.doms.toList.any fun x => x.st = .easy || x.st = .summary || x.st = .teardown

/-- What RET_SEL must keep: B4 while a domain is enabled, B3 while a buffer is full. -/
def retOk (s : State) : Bool :=
  (!(s.doms.toList.any domOn) || bit s.pm.retSel 3) &&
  (!(s.ln.eps.toList.any fun e => e.full) || bit s.pm.retSel 2)

/-- WAKE pins at the active level that WAKE_POL chooses (R347). -/
def pinsActive (p : Pm) : Word := (p.pins ^^^ p.wakePol) &&& 0x00FF#16

/-- Enabled level-sensitive wake sources that are asserted: WAKE0 to 7 with WAKE_EDGE = 0. -/
def levelAwake (p : Pm) : Word := pinsActive p &&& p.wakeEn &&& (~~~ p.wakeEdge)

/-- The FEATHER column: the code of the first condition that fails, 0 when all hold.  The device enters
no lower state during the watchdog's grace (R358). -/
def whyFeather (s : State) : Nat :=
  if s.wdt.grace then 3
  else if !(portAll.all (portQuiet s)) then 1
  else if !domsAsleep s || !((s.pcie.link = .l1 && s.pcie.clkReqHi) || pcieOff s) then 2
  else if linkBusy s then 3
  else if !retOk s then 4
  else if levelAwake s.pm != 0#16 then 5
  else if !bit s.pm.ctrl 0 then 6
  else 0

/-- The STOW column. -/
def whyStow (s : State) : Nat :=
  let hosted := bit s.pm.ctrl 2
  if s.wdt.grace then 3
  else if !(portAll.all (portQuiet s)) then 1
  else if !(domsOff s || (hosted && domsAsleep s)) || !(pcieOff s || hosted) then 2
  else if linkBusy s then 3
  else if levelAwake s.pm != 0#16 then 5
  else if !bit s.pm.ctrl 1 then 6
  else 0

/-! ## FEATHER (R339) -/

/-- Lock and holdover end: held cues are released with PASS (R339, R157, R162). -/
def endLock (s : State) : State :=
  let s1 := loseLock s
  releaseEarly { s1 with tb := { s1.tb with holdover := false } } (fun _ _ => true) 0x0800#16

/-- FEATHER entry: lock ends, CLK_PLAN takes its reset value, the selection of banks is sampled and
the clocks stop (R339).  The sequencer stops with them (R322). -/
def enterFeather (s : State) : State :=
  let s1 := meterStop (endLock s)
  { s1 with
    clk := { s1.clk with plan := 0#16, pllLock := false, corePll := false, refAct := 0, fbDue := false }
    wdt := { s1.wdt with paused := true }
    pm := { s1.pm with st := .feather, why := 0, retUsed := s.pm.retSel, wakeCause := 0#16,
                       featherAon := s.aon.time } }

/-- Banks B2 to B4 that were not selected take their reset contents (R342): the multicast table and
the schedules; endpoint memory; the domains' ring state. -/
def bankReset (sel : Word) (s : State) : State :=
  let s1 := if bit sel 1 then s else
    { s with bus := { s.bus with mc := [], sched := [], schedAct := [] } }
  let s2 := if bit sel 2 then s1 else { s1 with ln := { s1.ln with mem := [] } }
  if bit sel 3 then s2 else { s2 with
    doms := s2.doms.map fun x => { x with cmdQ := [], cmdRun := none, cmdPi := 0#16, cmdRaw := 0#16,
                                          cmdNext := 0#16, evtCi := 0#16, evtRaw := 0#16, recheck := false,
                                          producer := 0#16, evq := [], evPart := false, msgs := [] }
    ln := { s2.ln with eps := s2.ln.eps.map fun e =>
      { e with ring := false, ringSize := 0, ringBase := 0, next := 0#16, pi := 0#16, piRaw := 0#16, descs := [],
               flight := [], asked := 0, moved := 0 } } }

/-! ## STOW (R340) -/

/-- STOW entry: B1 is filled if selected, PORT_CTRL.EN is copied, the Link die is reset and PWR_EN
goes low.  `why`: 1 idle timer, 2 REQ, 3 bus suspend.  A device in FEATHER restarts its core first,
and finds the banks it did not select at their reset contents.  XIN stops (R392). -/
def enterStow (s0 : State) (why : Nat) : State :=
  let s := if s0.pm.st = .feather then bankReset s0.pm.retUsed s0 else s0
  let s1 := meterStop (bbPow s 0x10 0 s.pm.retSel (w16 why))
  let b1 := if bit s.pm.retSel 0 then some (stowWords s) else none
  let aonPorts := Vector.ofFn fun n : PortN => { s.aon.ports[n] with enCopy := s.ports[n].en }
  linkReset { s1 with
    clk := { s1.clk with xinOk := false }
    aon := { s1.aon with ports := aonPorts }
    wdt := { s1.wdt with paused := true }
    pm := { s1.pm with st := .stow, why := 0, restart := 0, retUsed := s.pm.retSel, wakeCause := 0#16, b1 := b1,
                       pwrEn := false, corePg := false } } false

/-! ## Requests (R338, R355) -/

/-- Discard a request, with the code that shows why. -/
def denyReq (s : State) (why : Nat) : State := { s with pm := { s.pm with why := why } }

/-- WHY of a request for STOW while power-up fails: the condition that bars STOW, 7 when CORE_PG alone does
(R336, R352). -/
def failWhy (s : State) : Nat := if whyStow s = 0 then 7 else whyStow s

/-- Discard a request that arrives during a wake: REQDROP, and WHY where CORE_PG's failure refuses STOW (R355,
R336). -/
def dropReq (s : State) (stow : Bool) : State :=
  { s with pm := { s.pm with
    reqDrop := true
    why := if stow && s.pm.attempts != 0 then failWhy s else s.pm.why } }

/-- PM_CTRL.REQ = 1 (R338).  In FEATHER, the state asked for, WHY reads 0 (R336). -/
def reqFeather (s : State) : State :=
  match s.pm.st with
  | .run => if whyFeather s = 0 then enterFeather s else denyReq s (whyFeather s)
  | .feather => denyReq s 0
  | .waking => dropReq s false
  | _ => s

/-- PM_CTRL.REQ = 2 (R338). -/
def reqStow (s : State) : State :=
  match s.pm.st with
  | .run => if whyStow s = 0 then enterStow s 2 else denyReq s (whyStow s)
  | .feather => if whyStow s = 0 then enterStow s 2 else denyReq s (whyStow s)
  | .waking => dropReq s true
  | _ => s

/-- The request of a bus suspend: STOW, else FEATHER, else RUN (R170, R338). -/
def busSuspendReq (s : State) : State :=
  let s1 := { s with pm := { s.pm with suspendReq := false } }
  if whyStow s = 0 then enterStow s1 3
  else
    let s2 := if whyFeather s = 0 then enterFeather s1 else s1
    denyReq s2 (whyStow s)

/-- Every port has completed its hold: none has a link and none still sends its 100 µs of IDL. -/
def holdsDone (s : State) : Bool :=
  portAll.all fun n => !isUp s.ports[n] && s.aon.ports[n].hold != .idl

/-- Evaluate a bus-suspend request that waits, once every port has completed its hold (R338). -/
def trySuspend (s : State) : State :=
  if linkOn s && s.pm.suspendReq && holdsDone s then busSuspendReq s else s

end Sys2Proof.Machine
end

