-- ==== Sys2Proof/Machine/Watchdog.lean ====
section
/-! DEFINITION. The watchdog: its window, service, expiry, emergency save and grace (R356 to R366), and
the restart of the Link die that resets share (R40). -/

namespace Sys2Proof.Machine

open Sys2Proof

/-! ## Restart of the Link die (R40) -/

/-- The Link die is in reset and restarts by steps 3 to 7 of Power-on: no bank is restored.  `how` is
Pm.restart; a loss of power makes B1 invalid (R353).  Where PWR_EN is low, what will raise it goes on waiting;
a bus-suspend request waits for RUN (R355).  KREG is in normal mode, as in every wake (R343). -/
def restartLink (s : State) (how : Nat) : State :=
  let s1 := meterStop s
  { s1 with
    pm := { s1.pm with
      st := .waking, restart := how, attempts := if s.pm.pwrEn then 0 else s.pm.attempts
      b1 := if how = 1 then none else s.pm.b1, puWait := s.pm.puWait && !s.pm.pwrEn
      lossWait := s.pm.lossWait && !s.pm.pwrEn, mgHeld := none, replay := 0#16
      kregLow := false, boost := false } }

/-- PWR_EN goes high: step 2 of the wake order (R349). -/
def raisePwr (s : State) : State :=
  { s with pm := { s.pm with pwrEn := true, corePg := false, puWait := false, lossWait := false } }

/-- A wake from STOW sets the PF's PME_Status, where its PME_En is set, and drives PE_WAKE_N (R348). -/
def pmeWake (s : State) : State :=
  let pme := s.aon.pmeEn[(0 : DomN)] && epStrap s
  { s with aon := { s.aon with
      pmeStat := vMod s.aon.pmeStat (0 : DomN) fun b => b || pme
      peWake := s.aon.peWake || pme } }

/-- The Link die loses its power without an orderly entry: its save is abandoned, its registers are lost, and B1
is invalid (R18, R353). -/
def cutLink (s : State) : State := restartLink (linkReset (abandonSave s) false) 1

/-- GCTRL.SWRST (R40, R43): the PCIe link and configuration space stay, and the save is abandoned. -/
def softReset (s : State) : State :=
  let s1 := restartLink (linkReset (abandonSave s) true) 2
  { s1 with rst := { s1.rst with cause := s1.rst.cause ||| 0x0010#16 } }

/-! ## Expiry (R362, R363) -/

/-- The emergency save runs: domain 0 is enabled, its function in D0 with Bus Master Enable, the PCIe
link up, and DOM_SUM not zero (R363). -/
def saveRuns (s : State) : Bool :=
  linkOn s && domOn s.doms[(0 : DomN)] && fnLive s 0 && s.pcie.link != .down && s.doms[(0 : DomN)].sum != 0

/-- The watchdog's fields at an expiry (R362). -/
def wdtGrace (cause save : Nat) (w : Wdt) : Wdt :=
  { w with grace := true, cause := cause, count := 0, save := save }

/-- The watchdog expires (R362). -/
def wdtExpire (s : State) (cause : Nat) : State :=
  let w := wdtGrace cause (if saveRuns s then 1 else 3) s.wdt
  bbPow { s with wdt := { w with statAtExp := wdtStat w, timeAtExp := now s } } 0x70 0 (w16 cause) (w16 w.expiries)

/-- The watchdog counts its period (R356, R358). -/
def wdtCounts (w : Wdt) : Bool := w.en && !w.grace && !w.paused

/-- The watchdog counts its grace (R358, R362). -/
def graceCounts (w : Wdt) : Bool := w.grace && !w.paused

/-- Row WDT_TIMEOUT (R362). -/
def execWdtTimeout (s : State) : Outcome := onPower s fun s => whenDo (wdtCounts s.wdt) (wdtExpire · 1) s

/-! ## Service (R360, R361) -/

/-- A service path. -/
def armedBy (w : Wdt) : Path → Bool
  | .hub => w.armBus
  | .mg => w.armMg
  | _ => w.armHost

/-- Arm a path. -/
def armPath (w : Wdt) : Path → Wdt
  | .hub => { w with armBus := true }
  | .mg => { w with armMg := true }
  | _ => { w with armHost := true }

/-- A completed service: the count restarts, pending values take effect, every path is disarmed (R359,
R361). -/
def serviced (w : Wdt) : Wdt :=
  { w with count := 0, armHost := false, armBus := false, armMg := false, pend := false,
           curPeriod := w.period.toNat, curWindow := w.window.toNat }

/-- Judging a service write that reaches the watchdog on an acting path (R361). -/
def serviceJudge (s : State) (p : Path) (v : Word) : State :=
  if !s.wdt.en || s.wdt.grace then s
  else if v = 0x5A3C#16 then { s with wdt := armPath s.wdt p }
  else if v != 0xA5C3#16 || !armedBy s.wdt p then wdtExpire s 3
  else if wdtOpen s.wdt then { s with wdt := serviced s.wdt }
  else wdtExpire s 2

/-- The path acts (R360): the holder's own window, the hub function while headless, the management SPI
while MG_SVC = 1. -/
def servicePath (s : State) : Path → Bool
  | .pf => holdsWdt s 0
  | .vf v => holdsWdt s (vfDom v)
  | .hub => headless s
  | .mg => s.wdt.mgSvc
  | _ => false

/-- SERVICE_WATCHDOG writes nothing for another VALUE than the two of a service (R360). -/
def serviceValue (v : Word) : Path → Bool
  | .hub => v = 0x5A3C#16 || v = 0xA5C3#16
  | _ => true

/-- A write to WDT_SERVICE (R200, R360, R361). -/
def serviceWrite (s : State) (p : Path) (v : Word) : State :=
  whenDo (servicePath s p && serviceValue v p) (serviceJudge · p v) s

/-! ## Register writes (R359, R365, R366) -/

/-- A refusal sets WREF. -/
def wref (w : Wdt) : Wdt := { w with wref := true }

/-- A write of `new` to a field held at `old`: refused when it would change and may not (R10). -/
def rwGate (free : Bool) (old new : Word) (f : Wdt → Wdt) (w : Wdt) : Wdt :=
  if free then f w else if new = old then w else wref w

/-- WDT_CTRL.EN set: the count restarts when it was 0 (R356). -/
def wdtSetEn (w : Wdt) : Wdt := if w.en then w else { w with en := true, count := 0 }

/-- WDT_CTRL (R365, R366): HRST_EN and MG_SVC are locked by WDT_LOCK. -/
def wdtCtrlWrite (v : Word) (w : Wdt) : Wdt :=
  let w1 := rwGate (!w.lock) (atBit w.hrstEn 2 ||| atBit w.mgSvc 3) (v &&& 0x000C#16)
    (fun x => { x with hrstEn := bit v 2, mgSvc := bit v 3 }) w
  let w2 := if bit v 0 then wdtSetEn w1 else w1
  { w2 with lock := w2.lock || bit v 1 }

/-- WDT_PERIOD: 0 is stored as 1; pending until the next service (R359). -/
def wdtPeriodWrite (v : Word) (w : Wdt) : Wdt :=
  let n := if v = 0#16 then 1#16 else v
  rwGate (wdtOpen w) w.period n (fun x => { x with period := n, pend := true }) w

/-- WDT_WINDOW (R359). -/
def wdtWindowWrite (v : Word) (w : Wdt) : Wdt :=
  let n := v &&& 0x000F#16
  rwGate (wdtOpen w) w.window n (fun x => { x with window := n, pend := true }) w

/-- WDT_GRACE: 0 is stored as 1; locked by WDT_LOCK (R366). -/
def wdtGraceWrite (v : Word) (w : Wdt) : Wdt :=
  let n := w16 (max 1 (fld v 0 8))
  rwGate (!w.lock) w.graceReg n (fun x => { x with graceReg := n }) w

/-- EN is cleared: WDT_COUNT reads 0 (R356). -/
def wdtOff (w : Wdt) : Wdt := { w with en := false, count := 0, key := false }

/-- WDT_KEY (R365): the sequence clears EN, and is refused under WDT_LOCK or in grace. -/
def wdtKeyWrite (v : Word) (w : Wdt) : Wdt :=
  if v = 0x6B1D#16 then { w with key := true }
  else if v = 0xD1B6#16 && w.key then
    if w.lock || w.grace then wref { w with key := false } else wdtOff w
  else { w with key := false }

/-- WDT_STAT: WREF is W1C. -/
def wdtStatWrite (v : Word) (w : Wdt) : Wdt := { w with wref := w.wref && !bit v 7 }

/-! ## The emergency save (R363) -/

/-- The 15 most recent black-box entries, oldest first. -/
def lastEntries (b : Bb) : List Word :=
  (List.range 15).flatMap fun i => (tabGet Entry.zero b.slots ((b.head + 241 + i) % 256)).toList

/-- Words 0x000 to 0x01B of the NMI save area. -/
def saveHead (s : State) : List Word :=
  let w := s.wdt
  [0x574E#16, w16 w.expiries, w.statAtExp, w.period, w.window, w.graceReg, 0#16, 0#16] ++ words4 w.timeAtExp ++
    [wordOf s.tb.stroke.toNat 0, wordOf s.tb.stroke.toNat 1]

/-- Words 0x01C to 0x033. -/
def saveStat (s : State) : List Word :=
  let hc := s.hma.arb.cuts.toNat
  let uc := s.ula.arb.cuts.toNat
  [clkStat s.clk, tbStat s, gstat s, busStat s.bus, s.que.err0, s.que.err1,
   hmaStat s.hma, ulaStat s, wordOf hc 0, wordOf hc 1, wordOf uc 0, wordOf uc 1]

/-- Words 0x034 to 0x0FF. -/
def savePorts (s : State) : List Word :=
  List.replicate 6 0#16 ++ (domAll.map fun d => domStat s d) ++ (domAll.map fun d => domErr s.doms[d]) ++
    padTo 32 (portAll.map fun n => portStat s n) ++ (dnAll.map fun m => ppsStat s m) ++
    (dnAll.map fun m => s.pps[m].fault) ++ List.replicate 16 0#16

/-- The NMI save area: 256 words, the last the check word over the others (R363). -/
def saveArea (s : State) : List Word :=
  let body := saveHead s ++ saveStat s ++ savePorts s ++ lastEntries s.bb ++ List.replicate 6 0#16 ++
    [w16 s.wdt.expiries]
  body ++ [crc16 body]

/-- The path while requester 19 has it: the holder is set aside (R270). -/
def aside19 (a : Arb) : Arb := { a with holder := some 19, aside := a.holder }

/-- The EV_WDT_PRE entry. -/
def preEvent (s : State) : EvQ :=
  { ev := { code := 0x0D, src := 0, w1 := s.wdt.statAtExp }
    time := evTime s.wdt.timeAtExp
    seq := s.doms[(0 : DomN)].evSeq }

/-- The entry at domain 0's producer count, whatever the ring holds; in a full ring it replaces the
oldest, which is counted (R225, R363).  An ordinary entry that was part-written there is written whole at the
next count.  DESIGN CHOICE, log entry 123. -/
def preDom (x : Dom) : Dom :=
  { x with
    evPart := false
    producer := x.producer + 1#16, evSeq := (x.evSeq + 1) % 32768
    evLost := if evtFree x = 0 then satInc 255 x.evLost else x.evLost }

/-- The writes of that entry (R223). -/
def preWrites (x : Dom) (q : EvQ) : List Out :=
  let bs := hostBytes (entryOf x x.producer q)
  let a := entryAddr x x.producer
  if bit x.evtSz 4 then [.hostWrite 0 a (bs.take 12), .hostWrite 0 (a + 12) (bs.drop 12)] else [.hostWrite 0 a bs]

/-- Requester 19 writes the save area and EV_WDT_PRE, and sends the message; the holder resumes (R270,
R363). -/
def emergencySave (s : State) : State :=
  let area := saveArea { s with hma := { s.hma with arb := aside19 s.hma.arb } }
  let x := s.doms[(0 : DomN)]
  let q := preEvent s
  let s1 := emits (leaveL1 s) (hostWrites s 0 (x.sum + 0x800) (hostBytes area) ++ preWrites x q)
  let s2 := modDom s1 0 preDom
  let s3 := issueMsg { s2 with que := evfOffer s.wdt.timeAtExp q.ev s2.que } 0 (vectorOf x 0x0D)
  { s3 with wdt := { s3.wdt with save := 2 } }

/-- Row EMERGENCY_GRANT (R270, R363). -/
def execEmergencyGrant (s : State) : Outcome :=
  onLink s fun s => whenDo (s.wdt.save = 1 && fnLive s 0) (resumeAside emergencySave) s

/-! ## The end of grace (R364) -/

/-- What the end of grace clears; a pending value applies from the restart, at which counting begins again. -/
def graceEnd (w : Wdt) : Wdt :=
  { serviced w with
    grace := false, cause := 0, save := 0, wref := false, hostRst := w.hrstEn, paused := true
    expiries := (w.expiries + 1) % 65536 }

/-- PWR_EN is low and nothing else will raise it: no wait of a power loss or a power-up failure runs, and no
flush (R352, R353, R377). -/
def pwrStuck (s : State) : Bool :=
  !s.pm.pwrEn && !s.pm.puWait && !s.pm.lossWait && s.bb.flush.isNone && !s.bb.flushed

/-- Grace ends: the black-box entry, the watchdog row of the reset table, HOST_RST_N (R44, R364). -/
def watchdogReset (s : State) : State :=
  let s1 := bbPow s 0x71 0 (w16 s.wdt.save) (atBit s.wdt.hrstEn 0)
  let s2 := restartLink (linkReset s1 false) 2
  let s3 := { s2 with wdt := graceEnd s2.wdt, rst := { s2.rst with cause := 0#16 } }
  if pwrStuck s3 then raisePwr s3 else s3

/-- Row WDT_GRACE_END (R364): a grace that began in FEATHER or STOW does not end before RUN (R358; log 23). -/
def execWdtGraceEnd (s : State) : Outcome := onPower s fun s => whenDo (graceCounts s.wdt) watchdogReset s

/-- Row HOST_RST_END (R364). -/
def execHostRstEnd (s : State) : Outcome := onPower s fun s => { s with wdt := { s.wdt with hostRst := false } }

end Sys2Proof.Machine
end

