-- ==== Sys2Proof/Machine/Reset.lean ====
section
/-! DEFINITION. The resets that reach the Power die: POR, RESET_N and the AON brown-out (R29, R40, R41,
R44, R345). -/

namespace Sys2Proof.Machine

open Sys2Proof

/-! ## Power die registers (R40, R325, R371) -/

/-- The energy sum stays; the live values and the snapshot bank take their reset values (R325). -/
def mportKeep (p : MPort) : MPort := { MPort.reset with e := p.e }

/-- The meter after a reset that clears Power die registers (R325). -/
def mtrClear (m : Mtr) : Mtr := { Mtr.reset with ports := m.ports.map mportKeep }

/-- B0 keeps its entries and the state of R371; the other black-box registers are reset. -/
def bbKeep (b : Bb) : Bb :=
  { Bb.reset with
    slots := b.slots, head := b.head, count := b.count, lost := b.lost, trig := b.trig
    frozen := b.frozen, trigSlot := b.trigSlot, after := b.after }

/-- The AON domain after its reset: the levels of its pins are what they are, every hold is gone.  PME_Status
and PME_En clear at POR and at RESET_N alone (R208), so a brown-out, `bor`, keeps them and PE_WAKE_N (DEDUCED,
log 136). -/
def aonClear (bor : Bool) (a : Aon) : Aon :=
  { Aon.reset with
    upBcn := a.upBcn
    ports := Vector.ofFn fun n : PortN => { AonPort.reset n with sd := a.ports[n].sd }
    pmeStat := if bor then a.pmeStat else Aon.reset.pmeStat
    pmeEn := if bor then a.pmeEn else Aon.reset.pmeEn
    pmeDue := if bor then a.pmeDue else Aon.reset.pmeDue
    peWake := bor && a.peWake }

/-- The watchdog after a reset that clears Power die registers: WDT_LOCK and the count of expiries since
POR stay, and counting waits for RUN (R32, R365, R366). -/
def wdtClear (straps : Word) (w : Wdt) : Wdt :=
  { Wdt.reset (bit straps 1) w.lock with expiries := w.expiries, paused := true }

/-- The power-state logic: the device is on its way to RUN, PWR_EN low until the wake order raises it.
RESET_N keeps B1's contents; the brown-out makes them invalid. -/
def pmClear (how : Nat) (p : Pm) : Pm :=
  { Pm.reset with
    st := .waking, pwrEn := false, corePg := false, restart := how, pins := p.pins
    b1 := if how = 2 then p.b1 else none }

/-- Every register of the Power die takes its reset value, but for what `bb` keeps, the energy sums,
STRAPS and RST_CAUSE; every port switch goes off through its discharge path.  VLOW shows the level of VLINK_IN,
which no reset changes (R318). -/
def powerReset (s : State) (how : Nat) (bb : Bb) : State :=
  { s with
    pm := pmClear how s.pm
    wdt := wdtClear s.rst.straps s.wdt
    bb := bb
    pps := Vector.replicate 16 Pps.reset
    ppsg := { PpsG.reset with vlow := s.ppsg.vlow }
    mtr := mtrClear s.mtr
    aon := aonClear (how = 1) s.aon
    mg := { Mg.reset with cs := s.mg.cs } }

/-- STRAP_ERR is recorded when the straps are sampled (R34). -/
def strapCheck (s : State) : State := if strapErr s then bbPow s 0x05 0 s.rst.straps 0#16 else s

/-- STRAPS after a sampling (R33). -/
def sampled (straps : Word) (r : Rst) : Rst := { r with straps := straps &&& 0x000F#16 }

/-- The straps are sampled (R33); the watchdog takes STRAPS.WD (R365). -/
def sampleStraps (s : State) (straps : Word) : State :=
  { s with rst := sampled straps s.rst, wdt := { s.wdt with en := bit straps 1 } }

/-! ## RESET_N (R40, R41) -/

/-- RESET_N is low: both dies are reset, and it stays so while the pin is low. -/
def pinReset (s : State) : State :=
  let s1 := linkReset s false
  let s2 := powerReset s1 2 (bbKeep s1.bb)
  { s2 with rst := { s2.rst with pin := true, due := false, dueRise := false, cause := s2.rst.cause ||| 0x0004#16 } }

/-- The rising edge: the straps are sampled and the device wakes to RUN.  A PE_PERST_N that is low already holds
the endpoint and sets no RST_CAUSE.PERST (DESIGN CHOICE, log 165). -/
def pinRise (s : State) : State :=
  raisePwr (strapCheck { s with rst := { s.rst with pin := false } })

/-- RESET_N falls.  A flush in progress finishes first (R40). -/
def pinFall (s : State) : State :=
  if s.rst.por then { s with rst := { s.rst with pin := true, cause := s.rst.cause ||| 0x0004#16 } }
  else if s.bb.flush.isSome then { s with rst := { s.rst with due := true, dueRise := false } }
  else pinReset s

/-- Row RESET_N_ASSERT (R41). -/
def execResetNAssert (s : State) : Outcome := .next (if s.rst.pin then s else pinFall s)

/-- RESET_N rises.  The straps are sampled at the edge, also while the reset waits for the end of a flush; the
watchdog takes STRAPS.WD when that reset takes effect (R365). -/
def pinRelease (s : State) (straps : Word) : State :=
  if s.rst.por then { s with rst := { s.rst with pin := false } }
  else if s.rst.due then { s with rst := { sampled straps s.rst with dueRise := true } }
  else if s.rst.pin then pinRise (sampleStraps s straps)
  else s

/-- Row RESET_N_RELEASE (R33, R41). -/
def execResetNRelease (straps : Word) (s : State) : Outcome := .next (pinRelease s straps)

/-- A reset that waited for the end of a flush takes effect. -/
def dueReset (s : State) : State :=
  if s.rst.due then (if s.rst.dueRise then pinRise (pinReset s) else pinReset s) else s

/-! ## POR (R29, R30, R44) -/

/-- RESET_N is low at this moment, a fall that waits for the end of a flush included. -/
def pinLow (r : Rst) : Bool := r.pin || (r.due && !r.dueRise)

/-- POR: everything on both dies is cleared; the levels of pins are what they are.  A RESET_N that acts at
the same time leaves its bit for RST_CAUSE (When events coincide of chapter 2). -/
def porFall (s : State) : State :=
  let r := State.reset
  { r with
    pending := s.pending, fresh := s.fresh, out := s.out
    rst := { r.rst with
      straps := 0#16, cause := if s.rst.pin || s.rst.due then 0x0004#16 else 0#16
      por := true, pin := pinLow s.rst, perst := s.rst.perst }
    pps := Vector.replicate 16 { Pps.reset with discharging := false }
    pm := { r.pm with st := .off, pwrEn := false, corePg := false, pins := s.pm.pins }
    wdt := { r.wdt with paused := true }
    clk := { r.clk with xinOk := s.clk.xinOk }
    aon := aonClear false s.aon
    ppsg := { r.ppsg with vlow := s.ppsg.vlow }
    mg := { r.mg with cs := s.mg.cs } }

/-- Row POR (R29). -/
def execPor (s : State) : Outcome := .next (porFall s)

/-- POR is released: every switch is in OFF with its discharge path on (R306, R392), the straps are sampled,
RST_CAUSE takes 0x0001 and the bit of a RESET_N that acted meanwhile, and the wake order starts unless RESET_N is low (R30, R44).  A PE_PERST_N that is low already sets no
RST_CAUSE.PERST (DESIGN CHOICE, log 165). -/
def porRise (s : State) (straps : Word) : State :=
  let s1 := sampleStraps s straps
  let s2 := { s1 with
    rst := { s1.rst with por := false, cause := s1.rst.cause ||| 0x0001#16 }
    pm := { s1.pm with st := .waking, restart := 2 }
    pps := s1.pps.map fun p => { p with discharging := true } }
  let s3 := strapCheck (bbPow s2 0x02 0 s2.rst.cause 0#16)
  if s.rst.pin then s3 else raisePwr s3

/-- Row POR_RELEASE (R30, R33, R44). -/
def execPorRelease (straps : Word) (s : State) : Outcome :=
  .next (whenDo s.rst.por (porRise · straps) s)

/-! ## AON brown-out (R40, R345) -/

/-- A port of the forwarder when the AON domain restarts with UP_BCN still asserted. -/
def reforward (up : Bool) (n : PortN) (a : AonPort) : AonPort :=
  if up && n != 0 then { a with bcn := .fwd false } else a

/-- The AON domain and the Power die registers are reset, B0 and B1 are invalid, and the device wakes to
RUN; from STOW that is a wake which PME shows (R348). -/
def brownOut (s : State) : State :=
  let s1 := powerReset (linkReset (whenDo (s.pm.st = .stow) pmeWake s) false) 1 Bb.reset
  let s2 := { s1 with
    rst := { s1.rst with cause := s1.rst.cause ||| 0x0002#16 }
    aon := { s1.aon with ports := Vector.ofFn fun n : PortN => reforward s1.aon.upBcn n s1.aon.ports[n] } }
  dueReset (raisePwr (bbPow s2 0x02 0 s2.rst.cause 0#16))

/-- The device is in STOW, entering it or waking (R345). -/
def lowKeep (s : State) : Bool := s.pm.st = .stow || s.pm.st = .enterStow || s.pm.st = .waking

/-- Row AON_BROWNOUT (R345). -/
def execAonBrownout (s : State) : Outcome := onPower s fun s => whenDo (lowKeep s) brownOut s

end Sys2Proof.Machine
end

