-- ==== Sys2Proof/Machine/BlackBox.lean ====
section
/-! DEFINITION. The black-box record and its windows, the scan and arming of the last gasp, and the
flush (R367 to R379). -/

namespace Sys2Proof.Machine

open Sys2Proof

/-! ## The record (R368 to R371) -/

/-- The oldest entry of the Link die's FIFO reaches B0 (R368). -/
def bbArrive (s : State) : State :=
  match s.que.bbf with
  | [] => s
  | e :: t => bbReport { s with que := { s.que with bbf := t }, bb := bbStore s.bb e }

/-- Row BB_ENTRY (R368, R369). -/
def execBbEntry (s : State) : Outcome := onLink s bbArrive

/-- BB_CTRL.REARM (R370). -/
def bbRearm (b : Bb) : Bb := { b with trig := false, frozen := false, after := 0 }

/-- BB_CTRL.CLEAR (R370). -/
def bbClear (b : Bb) : Bb := bbRearm { b with slots := [], head := 0, count := 0, lost := 0 }

/-! ## Reading (R372) -/

/-- Change the window of a path. -/
def modWin (b : Bb) (mgPath : Bool) (f : BbWin → BbWin) : Bb :=
  if mgPath then { b with mgw := f b.mgw } else { b with pf := f b.pf }

/-- Address of the flash region (R374). -/
def regionAt (b : Bb) : Nat := b.flash1.toNat * 65536 + b.flash0.toNat

/-- BB_INDEX with SRC = 0: the slot is copied as it stands. -/
def winCopy (b : Bb) (v : Word) (w : BbWin) : BbWin :=
  { w with index := v, data := tabGet Entry.zero b.slots (fld v 0 8), wait := false }

/-- A flash copy that cannot be made, or failed: the data read 0. -/
def winFail (w : BbWin) : BbWin := { w with data := Entry.zero, wait := false }

/-- A write to BB_INDEX (R372).  A flash copy needs the Link die. -/
def indexWrite (s : State) (mgPath : Bool) (v0 : Word) : State :=
  let v := v0 &&& 0x01FF#16
  if !bit v 8 then { s with bb := modWin s.bb mgPath (winCopy s.bb v) }
  else if !linkOn s then
    { s with bb := { modWin s.bb mgPath (fun w => winFail { w with index := v }) with rderr := true } }
  else
    emit { s with bb := modWin s.bb mgPath fun w => { w with index := v, wait := true } }
      (.flash 1 (flAddr s (regionAt s.bb + 16 * fld v 0 8)) 16 (flMode s true))

/-- The flash read for BB_INDEX ends: with its eight words, or failed (R372). -/
def flashCopied (s : State) (mgPath : Bool) (e : Option W8) : State :=
  let w := if mgPath then s.bb.mgw else s.bb.pf
  if !w.wait then s
  else match e with
    | some x => { s with bb := modWin s.bb mgPath fun w => { w with data := x, wait := false } }
    | none => { s with bb := { modWin s.bb mgPath winFail with rderr := true } }

/-- Row BB_FLASH_COPY_DONE (R372). -/
def execBbFlashCopyDone (mgPath : Bool) (e : Option W8) (s : State) : Outcome :=
  onLink s (flashCopied · mgPath e)

/-! ## Arming (R374) -/

/-- Pages per slot. -/
def flushPages (b : Bb) : Nat := 2 ^ (fld b.ctrl 6 2 + 1)

/-- Slots of the region. -/
def flushSlots (b : Bb) : Nat := 16 / flushPages b

/-- COUNT of the valid image in the flash, 0 for none: what the last load found, else what the flash holds, which
is outside the model (R374; DESIGN CHOICE, log 167). -/
def imageHere (s : State) : Nat := s.glob.imgSeen.getD (Config.flashImage s.fresh)

/-- What a scan needs: page program and 4 KiB erase from the SFDP tables, a region inside the flash, and
no overlap with a valid image. -/
def scanReady (s : State) : Bool :=
  match s.fl.sfdp with
  | none => false
  | some x => x.page256 && x.erase4k && regionAt s.bb + 4096 ≤ flSize x &&
      (imageHere s = 0 || 0x0C + 4 * imageHere s ≤ regionAt s.bb)

/-- A scan runs: it reads the region, or sets FULL where it lacks what it needs (R374). -/
def scanGo (s : State) : State :=
  let s1 := bump { s with bb := { s.bb with scanDue := false } }
  if scanReady s then
    emit { s1 with bb := { s1.bb with scan := true } } (.flash 1 (regionAt s.bb) 4096 (flMode s true))
  else { s1 with bb := { s1.bb with full := true } }

/-- A scan starts, if LG_EN = 1 and ARMED = 0 (R374).  While an image load has the flash it waits for the end of
the load, which tells whether a valid image is there, and in FEATHER for RUN. -/
def scanStart (s : State) : State :=
  if !linkHeld s || !bit s.bb.ctrl 3 || s.bb.armed || s.bb.scan then s
  else if s.glob.cfgBusy || !linkOn s then { s with bb := { s.bb with scanDue := true } }
  else scanGo s

/-- A scan that waited for the end of an image load, or for RUN, starts. -/
def scanLate (s : State) : State :=
  if s.bb.scanDue then scanStart { s with bb := { s.bb with scanDue := false } } else s

/-- Row LG_SCAN (R374). -/
def execLgScan (s : State) : Outcome := onLink s scanStart

/-- The scan has read the region: the lowest erased slot, if there is one; at arming the flash's opcodes and
address mode go to the Power die (R374). -/
def scanDone (how : Option Sfdp) (slot : Option Nat) (b : Bb) : Bb :=
  match slot with
  | some k =>
    if k < flushSlots b then { b with scan := false, armed := bit b.ctrl 3, slot := k, full := false, armHow := how }
    else { b with scan := false, full := true }
  | none => { b with scan := false, full := true }

/-- Row LG_SCAN_DONE (R374). -/
def execLgScanDone (slot : Option Nat) (s : State) : Outcome :=
  onLink s fun s => whenDo s.bb.scan (fun s => { s with bb := scanDone s.fl.sfdp slot s.bb }) s

/-! ## The flush (R376) -/

/-- Code of the cause in SUPPLY_FAIL and in the seal. -/
def causeCode : FlushCause → Nat
  | .vsys => 1
  | .vlink => 2
  | .test => 3

/-- The newest `n` entries of B0, oldest first. -/
def newest (b : Bb) (n : Nat) : List Entry :=
  (List.range n).map fun i => tabGet Entry.zero b.slots ((b.head + 256 - n + i) % 256)

/-- Words that were not programmed. -/
def erased (n : Nat) : List Word := List.replicate n 0xFFFF#16

/-- The words of the slot: the entries, erased words, and the seal (R376). -/
def slotWords (f : Flush) (pages : Nat) : List Word :=
  let ents := f.entries.flatMap fun e => e.toList
  let body := ents ++ erased (128 * pages - 8 - ents.length) ++
    [0x0083#16, orAll [atFld f.entries.length 0 8, atFld (causeCode f.cause) 8 4, atBit true 15], w16 f.head]
  body ++ [crc16 body] ++ words4 f.aon

/-- The address mode copied at arming is 4-byte addressing (R374, R380). -/
def armFour (x : Sfdp) : Bool := 0x1000000 < x.size && x.addr4

/-- Page `i` of the slot and its address. -/
def pageOut (s : State) (f : Flush) (i : Nat) : Out :=
  let p := flushPages s.bb
  .flashPage (s.bb.armHow.any armFour) (regionAt s.bb + 256 * (p * s.bb.slot + i)) (bytesBE (((slotWords f p).drop (128 * i)).take 128))

/-- The flash runs an erase or a program that must be suspended, or, without suspend support, end. -/
def flashWorks (s : State) : Bool := linkOn s && (s.fl.op = some .erase || s.fl.op = some .program)

/-- Step 3: the Link die loses power without an orderly entry (R18, R376). -/
def flushCut (s : State) : State :=
  if s.pm.st = .stow then { s with pm := { s.pm with pwrEn := false } }
  else
    let s1 := cutLink s
    { s1 with pm := { s1.pm with pwrEn := false, corePg := false, puWait := false, lossWait := false } }

/-- Steps 2 to 4: the writer takes the pins, PWR_EN goes low unless this is a test, and the first page is
programmed.  `held` is a host operation that was suspended; one that an earlier flush left is not forgotten. -/
def flushGo (s : State) (f : Flush) (held : Option FlOp) : State :=
  let s1 := { s with
    bb := { s.bb with flush := some { f with pins := true } }
    fl := if f.cause = .test then { s.fl with susp := held.isSome }
      else { s.fl with left := held.or s.fl.left, leftDue := held.isSome || s.fl.leftDue } }
  emit (if f.cause = .test then s1 else flushCut s1) (pageOut s f 0)

/-- KREG returns to normal mode for the flush; a boost, where low-power mode follows it (R344). -/
def kregUp (p : Pm) : Pm := { p with kregLow := false, boost := p.st = .stow && bit p.kregCtrl 0 }

/-- Step 1: SUPPLY_FAIL is stored and the slot's contents are fixed; step 2 begins with the suspend command to a
flash that erases or programs (R376). -/
def flushBegin (s : State) (c : FlushCause) : State :=
  let s1 := bbPow { s with pm := kregUp s.pm } 0x80 0 (w16 (causeCode c)) (bbFlashStat s.bb)
  let n := min s1.bb.count (16 * flushPages s1.bb - 1)
  let f : Flush := { cause := c, entries := newest s1.bb n, head := s1.bb.head, aon := s1.aon.time,
                     pages := 0, pins := false }
  if flashWorks s1 then
    let s2 := { s1 with bb := { s1.bb with flush := some f } }
    if s1.bb.nosusp then s2 else emit s2 (.flashCmd false)
  else flushGo s1 f none

/-- Why a trigger finds the last gasp not armed: FLUSH_SKIP's code, 0 when it is armed (R376). -/
def flushBar (s : State) : Nat :=
  if !s.bb.armed then (if s.bb.full && !s.bb.scan then 2 else 1)
  else if s.pm.st = .stow && !bit s.bb.ctrl 5 then 3
  else 0

/-- A trigger of the flush (R376).  One that arrives during a flush finds it under way. -/
def flushTrigger (s : State) (c : FlushCause) : State :=
  if s.bb.flush.isSome then s
  else if flushBar s = 0 then flushBegin s c
  else bbPow s 0x82 0 (w16 (flushBar s)) 0#16

/-- Row SUPPLY_FAIL (R376). -/
def execSupplyFail (s : State) : Outcome := onPower s (flushTrigger · .vsys)

/-- The flush waits for the flash, and the host operation is out of the way. -/
def flushPins (s : State) (held : Option FlOp) : State :=
  match s.bb.flush with
  | some f => if f.pins then s else flushGo s f held
  | none => s

/-- Row FLASH_SUSPENDED (R376): a flash with suspend support reports the operation suspended, whatever has become
of the Link die meanwhile. -/
def execFlashSuspended (s : State) : Outcome :=
  onPower s fun s => whenDo ((s.fl.op = some .erase || s.fl.op = some .program) && !s.bb.nosusp)
    (fun s => flushPins s s.fl.op) s

/-- Step 5: SLOT advances, LAST and DONE are set, FULL if no slot remains (R376); an operation that a test flush
suspended is resumed (R377). -/
def flushEnd (s : State) (f : Flush) : State :=
  let b := s.bb
  let more := b.slot + 1 < flushSlots b
  let s1 := { s with
    bb := { b with flush := none, slot := b.slot + 1, last := b.slot, done := true
                   full := b.full || !more, armed := b.armed && more
                   flushed := b.flushed || f.cause != .test }
    fl := { s.fl with susp := false } }
  dueReset (if s.fl.susp then emit s1 (.flashCmd true) else s1)

/-- A page is done: the next one, or the end (R376). -/
def flashPageDone (s : State) : State :=
  match s.bb.flush with
  | none => s
  | some f =>
    if !f.pins then s
    else
      let g := { f with pages := f.pages + 1 }
      if g.pages < flushPages s.bb then
        emit { s with bb := { s.bb with flush := some g } } (pageOut s g g.pages)
      else flushEnd s g

/-- Row PAGE_PROGRAM_DONE (R376). -/
def execPageProgramDone (s : State) : Outcome := onPower s flashPageDone

/-- VSYS is back after a flush: FLUSH_DONE, and the Link die restarts as after a power loss, also where a wake from
STOW has started it meanwhile (R353, R377). -/
def supplyBack (s0 : State) : State :=
  let s := whenDo (linkHeld s0) cutLink s0
  let s1 := bbPow { s with bb := { s.bb with flushed := false } } 0x81 0 (w16 s.bb.last) (w16 (Config.duration s.fresh))
  let s2 := bump { s1 with pm := { s1.pm with
    st := .waking, restart := 1, pwrEn := false, corePg := false, lossWait := true, kregLow := false, boost := false
    wakeCause := s1.pm.wakeCause ||| 0x8000#16 } }
  bbPow s2 0x13 0 (pmStat s2) 0#16

/-- Row SUPPLY_RESTORED (R377). -/
def execSupplyRestored (s : State) : Outcome :=
  onPower s fun s => whenDo (s.bb.flushed && s.bb.flush.isNone) supplyBack s

/-! ## Register writes -/

/-- The RW fields of BB_CTRL: FLUSH_P is ignored while LG_EN = 1 (R374).  With LG_EN cleared the last gasp
is not armed. -/
def bbCtrlPut (v : Word) (b : Bb) : Bb :=
  let mask := if bit b.ctrl 3 then 0x003B#16 else 0x00FB#16
  { b with ctrl := mergeMask mask b.ctrl v, armed := b.armed && bit v 3, scan := b.scan && bit v 3 }

/-- BB_CTRL (R370, R374, R376). -/
def bbCtrlWrite (s : State) (v : Word) : State :=
  let b1 := bbCtrlPut v s.bb
  let b2 := if bit v 2 then bbRearm b1 else b1
  let b3 := if bit v 9 then bbClear b2 else b2
  let s1 := { s with bb := b3 }
  let s2 := if bit v 3 && !bit s.bb.ctrl 3 then scanStart s1 else s1
  if bit v 8 then flushTrigger s2 .test else s2

/-- BB_FLASH0 and BB_FLASH1: ignored while LG_EN = 1 (R374). -/
def bbFlashWrite (b : Bb) (i : Fin 2) (v : Word) : Bb :=
  if bit b.ctrl 3 then b
  else if i = 0 then { b with flash0 := v &&& 0xF000#16 } else { b with flash1 := v }

/-- BB_FLASH_STAT: DONE and RDERR are W1C. -/
def bbFlashStatWrite (v : Word) (b : Bb) : Bb := { b with done := b.done && !bit v 5, rderr := b.rderr && !bit v 6 }

end Sys2Proof.Machine
end

