-- ==== Sys2Proof/Machine/Clock.lean ====
section
/-! DEFINITION. The clock plan, the PLL and its references (R21 to R24). -/

namespace Sys2Proof.Machine

open Sys2Proof

/-- The reference the PLL may take now: 2 the recovered clock, 1 XIN, 0 none (R23). -/
def refTarget (s : State) : Nat :=
  if fld s.clk.plan 1 2 = 1 && isUp s.ports[(0 : PortN)] && 2 ≤ s.ports[(0 : PortN)].rate then 2
  else if s.clk.xinOk then 1 else 0

/-- What CORE's move to FIRC does to port n: a link above Paddle retrains with reason 6, and a trial fails
its rate (R22, R26, R31; When events coincide of chapter 3). -/
def fircPort (s : State) (n : PortN) : State :=
  match s.ports[n].st with
  | .active => retrain s n 6
  | .switch => failRate s n
  | .ralign => failRate s n
  | .trial => failRate s n
  | _ => s

/-- CORE moves to FIRC (R22, R31, R157). -/
def coreToFirc (s : State) : State :=
  lockKeep (forEach portAll fircPort { s with clk := { s.clk with corePll := false } })

/-- The reference that the PLL runs from becomes `r`.  Leaving the recovered clock ends syntonisation, and
TB_SYNT is applied from then on; the recovered clock ends the correction (R153). -/
def refTo (r : Nat) (s : State) : State :=
  { s with
    clk := { s.clk with refAct := r }
    tb := { s.tb with corr := r != 2 && (s.tb.corr || s.clk.refAct == 2) } }

/-- The PLL has no lock any more (R23). -/
def pllDrop (s : State) : State :=
  coreToFirc { refTo 0 s with clk := { s.clk with pllLock := false, refAct := 0 } }

/-- CORE follows CORE_SEL while the PLL is locked. -/
def coreSelect (s : State) : State :=
  if bit s.clk.plan 3 then
    (if s.clk.pllLock then { s with clk := { s.clk with corePll := true } } else s)
  else if s.clk.corePll then coreToFirc s else s

/-- The locked PLL moves hitlessly to the reference that REF_SEL asks for; with none it loses lock (R24).  Where
it leaves the recovered clock with REF_SEL still at 1, that is the fallback and sets REF_FB.
DESIGN CHOICE: a CLK_PLAN write takes the recovered clock whenever R23 allows it; after a fallback because
that clock stopped, no rule says how the part knows that it runs again (log entry 106). -/
def refFollow (s : State) : State :=
  if !s.clk.pllLock || refTarget s = s.clk.refAct then s
  else if refTarget s = 0 then pllDrop s
  else
    let s1 := refTo (refTarget s) s
    lockCheck { s1 with clk := { s1.clk with refFb := s1.clk.refFb || (s.clk.refAct == 2 && fld s.clk.plan 1 2 == 1) } }

/-- CLK_PLAN as stored: a reserved REF_SEL leaves the field and sets BADPLAN. -/
def planPut (v : Word) (c : Clk) : Clk :=
  if 2 ≤ fld v 1 2 then
    { c with plan := (v &&& 0x0019#16) ||| (c.plan &&& 0x0006#16), badPlan := true }
  else { c with plan := v &&& 0x001F#16 }

/-- A write to CLK_PLAN (R23, R24, R39). -/
def planWrite (s : State) (v : Word) : State :=
  let s1 := { s with clk := planPut v s.clk }
  if !bit s1.clk.plan 0 then
    (if s1.clk.pllLock || s1.clk.corePll then
      let s2 := pllDrop s1
      { s2 with clk := { s2.clk with fbDue := false } }
    else { s1 with clk := { s1.clk with fbDue := false } })
  else lockCheck (coreSelect (refFollow s1))

/-- The PLL locks to the reference it may take (R23); `xin` says that a clock is present on XIN.
DESIGN CHOICE: until PLL_LOCK, REF_ACT keeps reading 0 (log entry 107). -/
def pllLock (s : State) (xin : Bool) : State :=
  let s1 := { s with clk := { s.clk with xinOk := xin } }
  let t := refTarget s1
  if bit s1.clk.plan 0 && !s1.clk.pllLock && t != 0 then
    lockCheck (coreSelect { refTo t s1 with clk := { s1.clk with
      pllLock := true, refAct := t, refFb := s1.clk.refFb || (s1.clk.fbDue && t == 1), fbDue := false } })
  else s1

/-- Row PLL_LOCK (R23). -/
def execPllLock (xin : Bool) (s : State) : Outcome := onLink s (pllLock · xin)

/-- The recovered clock is lost: the PLL falls back to XIN, or has no reference (R24). -/
def refFallback (s : State) (xin : Bool) : State :=
  let c := { s.clk with xinOk := xin }
  if c.pllLock && c.refAct = 2 then
    (if xin then lockKeep { refTo 1 s with clk := { c with refAct := 1, refFb := true } } else pllDrop { s with clk := c })
  else if bit c.plan 0 && !c.pllLock then { s with clk := { c with fbDue := true } }
  else { s with clk := c }

/-- Row REF_FALLBACK (R24). -/
def execRefFallback (xin : Bool) (s : State) : Outcome := onLink s (refFallback · xin)

/-- Row REF_RETURN (R24). -/
def execRefReturn (s : State) : Outcome :=
  onLink s fun s => whenDo (s.clk.pllLock && s.clk.refAct == 1 && refTarget s == 2)
    (fun s => lockCheck (refTo 2 s)) s

/-- The clock on XIN stops (R23).  DESIGN CHOICE: when it is the reference the PLL loses lock, even where
R23 would allow the recovered clock (log entry 108). -/
def xinLoss (s : State) : State :=
  let s1 := { s with clk := { s.clk with xinOk := false } }
  if s1.clk.refAct = 1 then pllDrop s1 else s1

/-- Row XIN_LOSS (R23): the level is seen in every state. -/
def execXinLoss (s : State) : Outcome := onPower s xinLoss

end Sys2Proof.Machine
end

