-- ==== Sys2Proof/Machine/Flash.lean ====
section
/-! DEFINITION. The flash controller: host frames through FL_CTRL (R375, R382), and the start of an
image load (R36). -/

namespace Sys2Proof.Machine

open Sys2Proof

/-! ## Refusals (R375, R382) -/

/-- A frame is refused: ERR, and the frame is discarded. -/
def flErr (s : State) : State := { s with fl := { s.fl with err := true, frame := none } }

/-- R375 refuses an erase or a program: PROT and FL_PROT. -/
def flProt (s : State) (op : Nat) : State :=
  bbLink { s with fl := { s.fl with prot := true } } 0x86 0 (w16 op) 0#16

/-- Bytes `lo` up to `lo + n` touch the flash region. -/
def touches (s : State) (lo n : Nat) : Bool := lo < regionAt s.bb + 4096 && regionAt s.bb < lo + n

/-- An operation starts.  What an erase or a program leaves of the image in the flash is not known (R374). -/
def flStart (s : State) (o : FlOp) (op addr n : Nat) : State :=
  let reads := o = .read || o = .next
  emit { s with
    fl := { s.fl with op := some o, addr := if reads then addr else s.fl.addr }
    glob := { s.glob with imgSeen := if reads then s.glob.imgSeen else none } }
    (.flash op addr n (flMode s reads))

/-! ## Operations (R382) -/

/-- PROGRAM: N bytes within one page, the first in [15:8] of the first data word. -/
def flProgram (s : State) (addr n : Nat) (ws : List Word) : State :=
  if n = 0 || 256 < n || 256 < addr % 256 + n then flErr s
  else if s.bb.armed && touches s addr n then flProt s 3
  else emit (flStart s .program 3 addr n) (.flashPage (flFour s) addr ((bytesBE ws).take n))

/-- ERASE4K (`op` = 4) and ERASE64K (`op` = 5), of the sector or block that holds the address. -/
def flErase (s : State) (op addr : Nat) : State :=
  let size := if op = 4 then 4096 else 65536
  let lacks := if op = 4 then s.fl.sfdp.any (fun x => !x.erase4k) else !s.fl.sfdp.any (fun x => x.erase64)
  if lacks then flErr s
  else if s.bb.armed && (s.bb.nosusp || touches s (addr / size * size) size) then flProt s op
  else flStart s .erase op (addr / size * size) size

/-- A complete frame is carried out. -/
def flCarry (s : State) (ws : List Word) : State :=
  let s1 := { s with fl := { s.fl with frame := none } }
  let addr := flAddr s ((wAt ws 1).toNat * 65536 + (wAt ws 2).toNat)
  match fld (wAt ws 0) 12 4 with
  | 1 => flStart s1 .read 1 addr 1
  | 2 => flStart s1 .next 2 (flAddr s ((s.fl.addr + 1) % 2 ^ 32)) 1
  | 3 => flProgram s1 addr (fld (wAt ws 0) 0 12) (ws.drop 3)
  | 4 => flErase s1 4 addr
  | 5 => flErase s1 5 addr
  | 6 => s1
  | _ => flErr s1

/-- Words of a frame, from its word 0. -/
def flWords (w : Word) : Nat :=
  match fld w 12 4 with
  | 1 => 3
  | 3 => 3 + (fld w 0 12 + 1) / 2
  | 4 => 3
  | 5 => 3
  | _ => 1

/-- A frame whose words are `ws` so far: carried out once complete. -/
def flTake (s : State) (p : Path) (ws : List Word) : State :=
  if flWords (wAt ws 0) ≤ ws.length then flCarry s ws
  else { s with fl := { s.fl with frame := some (p, ws) } }

/-- A write of one word to FL_CTRL by path p (R382). -/
def flWrite (s : State) (p : Path) (v : Word) : State :=
  if flBusy s then flErr s
  else match s.fl.frame with
    | none => flTake s p [v]
    | some (q, ws) => if q = p then flTake s p (ws ++ [v]) else flErr s

/-- The words of a frame written one after the other. -/
def flFrame (s : State) (p : Path) (ws : List Word) : State := forEach ws (fun a w => flWrite a p w) s

/-- A write to FL_CTRL by path p: PF BAR0 while it is open (R190, R207, R209), and the management SPI unless
REGLOCK refuses it (R428). -/
def flGate (s : State) (p : Path) (f : State → State) : State :=
  match p with
  | .pf => if winOpen s 0 then f s else winRefuse s 0 false
  | .mg => if s.glob.mgWr then { s with glob := { s.glob with ref := true } } else f s
  | _ => s

/-- A frame with an address. -/
def addrFrame (op n addr : Nat) : List Word := [w16 (op * 4096 + n % 4096), wordOf addr 1, wordOf addr 0]

/-- ABORT: the frame being assembled is discarded; one of another path may not be touched (R382). -/
def flAbort (s : State) (p : Path) : State :=
  if flBusy s then flErr s
  else match s.fl.frame with
    | none => s
    | some (q, _) => if q = p then { s with fl := { s.fl with frame := none } } else flErr s

/-- A host operation ends: BUSY clears and DONE is set; a read loads DATA (R382). -/
def flDone (s : State) (o : FlOp) (byte : BitVec 8) (fail : Bool) : State :=
  let data := if o = .read || o = .next then byte.toNat else s.fl.data
  { s with fl := { s.fl with op := none, done := true, data := data, err := s.fl.err || fail } }

/-- An operation that a flush left suspended ends after the restart: FL_SUSPEND, and no DONE (R377). -/
def flLeft (s : State) (o : FlOp) : State :=
  bbLink { s with fl := { s.fl with op := none, left := none } } 0x84 0 (if o = .erase then 1#16 else 2#16) 1#16

/-- What the controller notes of the end of operation `o`: nothing while it is in reset. -/
def flNote (s : State) (o : FlOp) (byte : BitVec 8) (fail : Bool) : State :=
  if !linkOn s then { s with fl := { s.fl with op := none } }
  else if s.fl.left.isSome then flLeft s o
  else flDone s o byte fail

/-- The flash reports an operation ended.  A flush that waits for it goes on (R376). -/
def flOpDone (s : State) (byte : BitVec 8) (fail : Bool) : State :=
  match s.fl.op with
  | none => s
  | some o => if s.fl.susp then s else flushPins (flNote s o byte fail) none

/-- Row FL_OP_DONE (R376, R377, R382). -/
def execFlOpDone (byte : BitVec 8) (fail : Bool) (s : State) : Outcome :=
  onPower s fun s => whenDo (linkOn s || flushWaits s.bb) (flOpDone · byte fail) s

/-- FL_STAT: DONE, ERR and PROT are W1C. -/
def flStatWrite (v : Word) (f : Fl) : Fl :=
  { f with done := f.done && !bit v 1, err := f.err && !bit v 2, prot := f.prot && !bit v 3 }

/-! ## The image (R36, R381) -/

/-- The configuration image starts loading. -/
def imageStart (s : State) : State :=
  emit { s with glob := { s.glob with cfgBusy := true, cfgDone := false, cfgNone := false } } (.flash 1 0 12 (flMode s true))

/-- GCTRL.CFG_LOAD (R36): a load that runs is not started again; the bit reads 1 until CFG_BUSY is 0. -/
def cfgLoadGo (s : State) : State :=
  let s1 := if s.glob.cfgBusy then s else imageStart s
  { s1 with glob := { s1.glob with cfgLoad := true } }

end Sys2Proof.Machine
end

