-- ==== Sys2Proof/Machine/ConfigSpace.lean ====
section
/-! DEFINITION. What a read of configuration space returns: the header, the capability structures and
their fixed fields (R185 to R187, R196, R207, R208, VSEC).  The layout inside a structure is that of PCI
Express Base 2.1 and SR-IOV 1.1, which the spec names and does not repeat: PRESUMED, log entry 124. -/

namespace Sys2Proof.Machine

open Sys2Proof

/-- A DW of two words, the high one first. -/
def dw2 (hi lo : Nat) : BitVec 32 := BitVec.ofNat 32 (hi % 65536 * 65536 + lo % 65536)

/-- One bit of a DW. -/
def dwBit (b : Bool) (i : Nat) : BitVec 32 := if b then 1#32 <<< i else 0#32

/-- A field of a DW. -/
def dwFld (v lo : Nat) : BitVec 32 := BitVec.ofNat 32 v <<< lo

/-- The OR of the fields of a DW. -/
def orDw (l : List (BitVec 32)) : BitVec 32 := l.foldl (· ||| ·) 0#32

/-- A half of a 64-bit memory BAR (R196): type 64-bit, prefetchable or not. -/
def barDw (base : Nat) (pref high : Bool) : BitVec 32 :=
  if high then BitVec.ofNat 32 (base / 2 ^ 32) else orDw [BitVec.ofNat 32 base, dwBit true 2, dwBit pref 3]

/-- The configuration header (R186, R196).  A VF carries no BARs of its own, and its Vendor and Device ID
read all ones, as SR-IOV has it. -/
def cfgHeader (s : State) (d : DomN) (off : Nat) : BitVec 32 :=
  let f := s.pcie.fns[d]
  let pf := d = 0
  match off with
  | 0x00 => if pf then dw2 0x0917 0x1D9A else 0xFFFFFFFF#32
  | 0x04 => orDw [dwBit (pf && f.mse) 1, dwBit f.bme 2, dwBit (pf && f.serr) 8, dwBit true 20]
  | 0x08 => 0x0C8000A1#32
  | 0x10 => if pf then barDw s.pcie.bar0 false false else 0#32
  | 0x14 => if pf then barDw s.pcie.bar0 false true else 0#32
  | 0x18 => if pf then barDw s.pcie.bar2 true false else 0#32
  | 0x1C => if pf then barDw s.pcie.bar2 true true else 0#32
  | 0x2C => dw2 0x0917 0x1D9A
  | 0x34 => 0x00000040#32
  | _ => 0#32

/-- Power Management, version 3: PME from D3hot alone, No_Soft_Reset (R187, R207, R208). -/
def cfgPm (s : State) (d : DomN) (off : Nat) : BitVec 32 :=
  match off with
  | 0x40 => dw2 0x4003 0x5001
  | 0x44 => orDw [dwFld (if s.pcie.fns[d].d3 then 3 else 0) 0, dwBit true 3, dwBit s.aon.pmeEn[d] 8, dwBit s.aon.pmeStat[d] 15]
  | _ => 0#32

/-- MSI-X (R187, R201). -/
def cfgMsix (s : State) (d : DomN) (off : Nat) : BitVec 32 :=
  let f := s.pcie.fns[d]
  match off with
  | 0x50 => orDw [dw2 0 0x7011, dwFld (if d = 0 then 31 else 7) 16, dwBit f.fnMask 30, dwBit f.msixEn 31]
  | 0x54 => if d = 0 then 0x00006000#32 else 0x00000800#32
  | 0x58 => if d = 0 then 0x00006800#32 else 0x00000C00#32
  | _ => 0#32

/-- PCI Express, version 2 (R185, R187): 256-byte payloads, extended tags, role-based errors, FLR; x2 at
5.0 GT/s with ASPM L1 and clock power management. -/
def cfgPcie (s : State) (d : DomN) (off : Nat) : BitVec 32 :=
  let p := s.pcie
  let f := p.fns[d]
  let pf := d = 0
  match off with
  | 0x70 => dw2 0x0002 0x0010
  | 0x74 => orDw [dwFld 1 0, dwBit true 5, dwFld 5 9, dwBit true 15, dwBit true 28]
  | 0x78 => orDw [dwFld f.errEn.toNat 0, dwFld f.devStat.toNat 16, dwFld f.mps 5, dwBit f.extTag 8, dwFld (if pf then f.mrrs else 0) 12,
      dwBit (p.reads.any fun r => r.dom = d) 21]
  | 0x7C => orDw [dwFld 2 0, dwFld 2 4, dwFld 2 10, dwFld 2 15, dwBit true 18]
  | 0x80 => orDw [dwBit (pf && p.aspmL1) 1, dwBit (pf && p.clkPm) 8,
      dwFld (if p.gen1 then 1 else 2) 16, dwFld (if p.x1 then 1 else 2) 20, dwBit true 28]
  | _ => 0#32

/-- AER, version 1 (R187, R205): the last of a VF's extended list. -/
def cfgAer (s : State) (d : DomN) (off : Nat) : BitVec 32 :=
  let f := s.pcie.fns[d]
  match off with
  | 0x100 => if d = 0 then 0x14010001#32 else 0x00010001#32
  | 0x104 => f.aerUnc
  | 0x108 => f.aerUncMask
  | 0x10C => f.aerUncSev
  | 0x110 => f.aerCor
  | 0x114 => f.aerCorMask
  | 0x118 => dwFld (f.firstErr % 32) 0
  | 0x11C => f.hdrLog.extractLsb' 96 32
  | 0x120 => f.hdrLog.extractLsb' 64 32
  | 0x124 => f.hdrLog.extractLsb' 32 32
  | 0x128 => f.hdrLog.extractLsb' 0 32
  | _ => 0#32

/-- SR-IOV, version 1 (R187, R188, R196): in the PF alone. -/
def cfgSriov (s : State) (off : Nat) : BitVec 32 :=
  let p := s.pcie
  match off with
  | 0x140 => 0x18010010#32
  | 0x148 => orDw [dwBit p.vfe 0, dwBit p.vfMse 3]
  | 0x14C => dw2 7 7
  | 0x150 => dw2 0 p.numVfs
  | 0x154 => dw2 1 1
  | 0x158 => dw2 0x0918 0
  | 0x15C => 1#32
  | 0x160 => 1#32
  | 0x164 => barDw p.vfBar0 false false
  | 0x168 => barDw p.vfBar0 false true
  | _ => 0#32

/-- The vendor-specific capability and the Device Serial Number, the fused UID (R185, R187, VSEC). -/
def cfgVendor (s : State) (off : Nat) : BitVec 32 :=
  match off with
  | 0x180 => 0x1C01000B#32
  | 0x184 => 0x00C10017#32
  | 0x188 => dw2 0 s.pcie.cto
  | 0x1C0 => 0x00010003#32
  | 0x1C4 => dw2 idUid[1].toNat idUid[0].toNat
  | 0x1C8 => dw2 idUid[3].toNat idUid[2].toNat
  | _ => 0#32

/-- The DW at byte offset `off` of function d's configuration space.  What is not listed reads 0: an absent
capability, Interrupt Pin, BAR4 and the expansion ROM among it (R185, R196). -/
def cfgRead (s : State) (d : DomN) (off : Nat) : BitVec 32 :=
  let o := off / 4 * 4
  if o < 0x40 then cfgHeader s d o
  else if o < 0x50 then cfgPm s d o
  else if o < 0x70 then cfgMsix s d o
  else if o < 0x100 then cfgPcie s d o
  else if o < 0x140 then cfgAer s d o
  else if d != 0 then 0#32
  else if o < 0x180 then cfgSriov s o
  else cfgVendor s o

/-! ## Where the windows lie (R196) -/

/-- The address of function d's BAR0: VFd sits at the VF BAR0 base + (d - 1) × 0x1000. -/
def winBase (s : State) (d : DomN) : Nat := if d = 0 then s.pcie.bar0 else s.pcie.vfBar0 + (d.val - 1) * 0x1000

/-- The size of function d's BAR0: 64 KiB, and 4 KiB for a VF. -/
def winSize (d : DomN) : Nat := if d = 0 then 0x10000 else 0x1000

/-- The function and the offset that a memory address names in the BAR0 windows that are open. -/
def winOf (s : State) (addr : Nat) : Option (DomN × Nat) :=
  (domAll.find? fun d => winOpen s d && decide (winBase s d ≤ addr) && decide (addr < winBase s d + winSize d)).map
    fun d => (d, addr - winBase s d)

/-- The offset in BAR2 that a memory address names, while the PF answers. -/
def bar2Of (s : State) (addr : Nat) : Option Nat :=
  if winOpen s 0 && decide (s.pcie.bar2 ≤ addr) && decide (addr < s.pcie.bar2 + 0x8000) then some (addr - s.pcie.bar2)
  else none

end Sys2Proof.Machine
end

