-- ==== Sys2Proof/Machine/Queue.lean ====
section
/-! DEFINITION. The pointer check of the queues and what the reset of each does to its users, and the
management event FIFO (R277 to R287). -/

namespace Sys2Proof.Machine

open Sys2Proof

/-! ## Identifiers (R278) -/

/-- The queues of the table, by identifier. -/
def queueIds : List Nat :=
  (List.range 17) ++ ((List.range 17).map fun n => 0x20 + n) ++ [0x40] ++
    ((List.range 20).map fun r => 0x50 + r) ++ [0x70, 0x71, 0x72, 0x73]

/-- Bit of a queue: 0 to 15 in Q_ERR0, 16 + k for bit k of Q_ERR1. -/
def queueBit (q : Nat) : Nat :=
  if q < 0x40 then q % 0x20
  else if q = 0x40 then 17
  else if q < 0x70 then 18
  else q - 0x70 + 19

/-! ## Effects of a queue reset -/

/-- A receive buffer: started copies end with EAB, reason 4, and the port retrains with reason 3; neither
ERRTRN nor the cap follows. -/
def resetRx (s : State) (n : PortN) : State :=
  let s1 := forEach (s.ports[n].rx.map (·.pid)) (fun a pid => stompCopies a pid 4 false) s
  let s2 := sweepRx (modPort s1 n fun p => { p with rx := [], rxCur := none, rxSusp := none })
  if isUp s2.ports[n] then retrain s2 n 3 else s2

/-- A transmit queue: the packet in progress ends with EAB, reason 4, and queued packets are discarded,
held cues with them; on UP a suspended packet is closed too. Packets that stall behind a full queue are not
in it and stay, but for held cues (R278; that the packet in progress takes no place of the 512: DESIGN CHOICE, log 126). -/
def resetTx (s : State) (n : PortN) : State :=
  sweepRx (boundary (modPort (endTx s n 4) n fun p => { p with txq := (stalled 512 512 p.txq).filter fun t => t.cue.isNone }) n)

/-- Inner requests of the TT that have not been sent, those that a crew has released among them. -/
def isInner (t : TxPkt) : Bool :=
  match t.act with
  | .innerSent _ => true
  | .chunks _ => true
  | _ => false

/-- The packet holds no chunks any more. -/
def dropChunks (t : TxPkt) : TxPkt :=
  match t.act with
  | .chunks _ => { t with act := .none }
  | .innerSent _ => { t with act := .none }
  | _ => t

/-- An answer out of a slot's chunks. -/
def isStored (t : TxPkt) : Bool :=
  match t.act with
  | .answerSent _ => true
  | _ => false

/-- The TT slot queue: every slot and chunk is freed without an answer, inner requests not yet sent are
discarded, and so are stored answers that wait for UP (one whose SOP has left runs to its end: DESIGN
CHOICE, log 126). -/
def resetTt (s : State) : State :=
  let s1 := { s with
    ports := s.ports.map fun p =>
      { p with txq := p.txq.filter fun t => !isInner t, txCur := p.txCur.map dropChunks }
    ula := { s.ula with reqs := s.ula.reqs.map fun l => l.filter fun t => !isStored t } }
  sweepRx (freeSlots s1)

/-- Domain d enters FAULT with HOSTERR. -/
def hostFault (s : State) (d : DomN) : State := domFault (domErrSet s d 0x0010#16) d

/-- What requester r had queued or granted goes: its requests, and the state without them. -/
def takeQueue (s : State) (r : Nat) : List HReq × State :=
  let s1 := tidy s r
  let cur := if s1.hma.arb.holder = some r then s1.hma.cur.toList else []
  (cur ++ queueOf s1 r, hmaDone (setQueue s1 r []) r)

/-- The OUT queue of domain d: descriptors whose data fetch is discarded complete with HOSTERR. -/
def resetOut (s : State) (d : DomN) : State :=
  let x := takeQueue s d.val
  forEach x.1 (fun a q => match q with
    | .read _ (.sendData k) => completeHead (voidReads a fun u => u = .sendData k) k 6 0 false false
    | _ => a) (hostFault x.2 d)

/-- The IN queue of domain d: discarded drains complete with HOSTERR, the event entries that were queued for
writing are lost and counted, and discarded messages are sent again. -/
def resetIn (s : State) (d : DomN) : State :=
  let x := takeQueue s (8 + d.val)
  let n := (x.1.filter fun q => q = .entry d).length
  let msgs := x.1.filterMap fun q => match q with
    | .msg _ v => some v
    | _ => none
  let s1 := modDom x.2 d fun y =>
    { y with evq := y.evq.drop n, evPart := false, evLost := satAdd 255 y.evLost n, msgs := msgs ++ y.msgs }
  forEach x.1 (fun a q => match q with
    | .drain _ k => completeHead a k 6 0 a.ln.eps[k].cue false
    | _ => a) (hostFault s1 d)

/-- The doorbell watches: those queued are lost, and every interval returns to FAST. -/
def resetWatch (s : State) : State :=
  let s1 := hmaDone s 16
  { s1 with
    que := { s1.que with watches := [] }
    doms := s1.doms.map fun x => { x with interval := fastOf x } }

/-- The summary writer: a Summary Block in progress restarts from its first write. -/
def resetSum (s : State) : State :=
  forEach domAll (fun a d => if a.doms[d].st = .summary then hmaAsk a 17 (.block d) else a)
    { (takeQueue s 17).2 with doms := (takeQueue s 17).2.doms.map fun x => { x with sumAt := 0 } }

/-- The statistics writer: a command whose host data is discarded completes with HOSTERR. -/
def resetStat (s : State) : State :=
  forEach domAll (fun a d => match a.doms[d].cmdRun with
    | some r => if r.data.isSome then finishCmd (domErrSet a d 0x0010#16) d r.cmd 6 0#16 0#16 else a
    | none => a) (takeQueue s 18).2

/-- The request queue of HMA requester r.  The NMI save restarts from its first write. -/
def resetHma (s : State) (r : Nat) : State :=
  if r < 8 then resetOut s (engineDom r)
  else if r < 16 then resetIn s (engineDom r)
  else if r = 16 then resetWatch s
  else if r = 17 then resetSum s
  else if r = 18 then resetStat s
  else s

/-- The management event FIFO. -/
def resetEvf (q : Que) : Que :=
  { q with evf := [], evfRst := true, evfLost := satAdd 31 q.evfLost q.evf.length }

/-- The crossing queue: the loss is counted for the entry of R17. -/
def resetXq (a : Aon) : Aon := { a with xq := [], xqDrop := a.xqDrop + a.xq.length }

/-- What the reset of queue `q` discards, and what follows for its users. -/
def queueEffect (s : State) (q : Nat) : State :=
  if h : q < 17 then resetRx s ⟨q, h⟩
  else if h : q - 0x20 < 17 ∧ 0x20 ≤ q then resetTx s ⟨q - 0x20, h.1⟩
  else if q = 0x40 then resetTt s
  else if 0x50 ≤ q && q < 0x64 then resetHma s (q - 0x50)
  else if q = 0x70 then resetWatch s
  else if q = 0x71 then { s with que := { s.que with bbf := [] } }
  else if q = 0x72 then { s with que := resetEvf s.que }
  else { s with aon := resetXq s.aon }

/-! ## The report (R279, R280) -/

/-- Set a bit of Q_ERR0 or Q_ERR1. -/
def queueErr (q : Que) (b : Nat) : Que :=
  if b < 16 then { q with err0 := setBit q.err0 b true } else { q with err1 := setBit q.err1 (b - 16) true }

/-- Steps 2 to 4 of R279: Q_ERR, Q_ERRCNT, Q_LAST, EV_QUEUE_ERR and the black-box entry. -/
def queueReport (s : State) (last : Word) : State :=
  let b := queueBit (fld last 0 8)
  let q := { queueErr s.que b with errCnt := satInc 65535 s.que.errCnt, last := last }
  let s1 := { s with que := q }
  bbLink (raise s1 { code := 0x0C, src := b, w1 := q.err0, w2 := q.err1 }) 0x62 (fld last 0 8) last (w16 q.errCnt)

/-- Q_LAST for a reset of queue `q`. -/
def queueLast (q : Nat) (wr rd inj : Bool) : Word := orAll [atFld q 0 8, atBit wr 8, atBit rd 9, atBit inj 10]

/-- A mismatch on queue `q`: a Link die queue while the Link die runs; the crossing queue at any time, its
report held while the Link die is unpowered (R279, R280).  After a reset of the black-box write FIFO the entry of
R279 is the first one written, and a loss that waited for room follows it. -/
def queueMismatch (s : State) (q : Nat) (wr rd inj : Bool) : State :=
  let last := queueLast q wr rd inj
  if !queueIds.contains q then s
  else if linkOn s then bbReport (queueReport (queueEffect s q) last)
  else if q = 0x73 then { s with aon := { resetXq s.aon with xqErr := s.aon.xqErr ++ [last] } }
  else s

/-- Row QUEUE_POINTER_MISMATCH (R279). -/
def execQueuePointerMismatch (q : Nat) (wr rd : Bool) (s : State) : Outcome :=
  onPower s (queueMismatch · q wr rd false)

/-- A forced mismatch: which pointer's copies differ is left open (Q_CTRL). -/
def queueInject (s : State) (q : Nat) : State :=
  let r := Config.reading s.fresh
  bump (queueMismatch s q (bit r 0) (bit r 1) true)

/-! ## The management event FIFO (R283 to R286) -/

/-- A pop: the head's words are loaded into EVF_DATA0 to 3; on an empty FIFO UNDER is set (R283, R284). -/
def evfPop (q : Que) : Que :=
  match q.evf with
  | e :: t => { q with evf := t, evfData := e }
  | [] => { q with evfUnder := true }

/-- EVF_CTRL.FLUSH. -/
def evfFlush (q : Que) : Que := { q with evf := [], evfLost := 0 }

end Sys2Proof.Machine
end

