-- ==== Sys2Proof/Machine/Meter.lean ====
section
/-! DEFINITION. The metering sequencer's samples, the energy accumulators, the bias check and the
snapshots (R309, R319 to R333). -/

namespace Sys2Proof.Machine

open Sys2Proof

/-- A pair sample's signed power product, exact (R323). -/
def product (i v : Word) : Int := i.toInt * v.toNat

/-- A port's own slot ends: its live registers change together and the product is added to the
accumulator (R324, R327). -/
def takePair (i v : Word) (p : MPort) : MPort :=
  { p with i := i, v := v, p := BitVec.ofInt 32 (product i v), e := p.e + BitVec.ofInt 72 (product i v) }

/-- A current reading at full scale (R309). -/
def fullScale (i : Word) : Bool := i = 0x7FFF#16 || i = 0x8000#16

/-- SENSE_FAULT: the leg's gate is turned off and the switch latches, or the gang loses the leg
(R307, R315). -/
def senseFault (s : State) (m : DnN) : State := legFault s m 0x0020#16

/-- The sense checks run for Dm now (R307, R312): fitted, its leg not lost, in RAMP or ON, or checked afresh
after FCLR. -/
def senseRuns (s : State) (m : DnN) : Bool :=
  checksRun s m && !s.pps[m].lost && (starts s m || s.pps[m].recheck)

/-- What a pair sample shows of the switch: the loop, the output voltage, a pinned reading.  SENSE_OK is the
result of the bias checks alone (PPS_STAT). -/
def notePair (s : State) (m : DnN) (i v : Word) (reg : Bool) : State :=
  let n := if fullScale i then min 4 (s.pps[m].pinned + 1) else 0
  let lim := driven s m && !s.pps[m].lost && regulates s m i reg
  let s1 := noteFold (modPps s m fun p => { p with limit := lim, voffHigh := 2000 < v.toNat, pinned := n })
  if n = 4 && senseRuns s1 m then senseFault (modPps s1 m fun p => { p with pinned := 0 }) m
  else s1

/-- Shift of a bias-check sample against the sample before it, in units of 2 µV. -/
def biasShift (i inj : Word) : Int := inj.toInt - i.toInt

/-- The check passes when the shift lies between 1.6 mV and 2.4 mV (R309). -/
def biasOk (i inj : Word) : Bool := 800 ≤ biasShift i inj && biasShift i inj ≤ 1200

/-- A bias check is due for port m in this frame (R320): one requested before the frame began, or the check of
every 31st frame in RAMP or ON. -/
def biasDue (s : State) (m : DnN) : Bool :=
  senseRuns s m && (s.pps[m].chkDue || (s.mtr.frame % 31 = 0 && starts s m))

/-- A bias-check sample: it enters no reading (R320), and a failed check is SENSE_FAULT.  One sample serves
every check that is due; a check asked for within the frame waits for the next one. -/
def takeBias (s : State) (m : DnN) (inj : Word) : State :=
  let ok := biasOk s.mtr.ports[m].i inj
  let s1 := modPps s m fun p => { p with senseOk := ok, chkDue := false, recheck := p.recheck && p.chkReq }
  if ok then s1 else senseFault s1 m

/-- What the voltage channel converts in slot 31: VLINK_IN in every eighth frame, the die temperature four
frames later (R319). -/
def takeAux (v : Word) (t : Mtr) : Mtr :=
  if t.frame % 8 = 0 then { t with vlink := v } else if t.frame % 8 = 4 then { t with temp := v } else t

/-- A port's spare slot ends: its bias check where one is due, and in slot 31 the voltage channel (R319). -/
def spareEnds (s : State) (m : DnN) (cur volt : Word) : State :=
  let s1 := if biasDue s m then takeBias s m cur else s
  if m.val = 15 then { s1 with mtr := takeAux volt s1.mtr } else s1

/-- A slot ends with its sample (R319). -/
def meterSample (s : State) (m : DnN) : Sample → State
  | .pair i v reg => notePair { s with mtr := { s.mtr with ports := vMod s.mtr.ports m (takePair i v) } } m i v reg
  | .spare cur volt => spareEnds s m cur volt

/-- The slot of a sample: 2(m - 1) for a port's own, the next one for its spare slot (R319). -/
def sampleSlot (m : DnN) : Sample → Nat
  | .pair _ _ _ => 2 * m.val
  | .spare _ _ => 2 * m.val + 1

/-- The next slot, and after slot 31 the next frame (R319). -/
def nextSlot (s : State) : State :=
  if s.mtr.slot = 31 then newFrame s else { s with mtr := { s.mtr with slot := s.mtr.slot + 1 } }

/-- Row METER_SAMPLE (R319): the slot that runs ends with its sample. -/
def execMeterSample (m : DnN) (x : Sample) (s : State) : Outcome :=
  onLink s fun s => whenDo (s.mtr.slot = sampleSlot m x) (fun s => nextSlot (meterSample s m x)) s

/-- A write of 1 to MTR_SNAP.GO (R329). -/
def snapGo (s : State) : State := snapRequest { s with mtr := { s.mtr with go := true } } 1

/-- The copy completes, and the commands that wait for it with it (R330). -/
def snapDone (s : State) : State :=
  match s.mtr.copy with
  | some (src, l) => snapWaiters (snapBank s src l)
  | none => s

/-- Row SNAPSHOT_COMPLETE (R330). -/
def execSnapshotComplete (s : State) : Outcome := onPower s snapDone

end Sys2Proof.Machine
end

