-- ==== Sys2Proof/Machine/Suspend.lean ====
section
/-! DEFINITION. Bus suspend, selective suspend, the end of holds, and feathering (chapter 8).  The
rows that may wake the device stand in Wake.lean. -/

namespace Sys2Proof.Machine

open Sys2Proof

/-! ## Suspend (R168 to R170) -/

/-- Row UP_SUSPEND_TIMEOUT (R168 to R170): UP enters the hold, EV_SUSPEND, a STOW request. -/
def upSuspend (s : State) : State :=
  let s1 := bbLink (raise (enterHold s 0) { code := 0x11, src := 0 }) 0x35 0 0#16 0#16
  { s1 with pm := { s1.pm with suspendReq := true } }

/-- Row UP_SUSPEND_TIMEOUT (R168, R169, R170). -/
def execUpSuspendTimeout (s : State) : Outcome :=
  onLink s fun s => whenDo (isUp s.ports[(0 : PortN)]) upSuspend s

/-- Row PORT_SILENCE_TIMEOUT (R168, R169). -/
def execPortSilenceTimeout (m : DnN) (s : State) : Outcome :=
  onLink s fun s => whenDo (isUp s.ports[dnPort m]) (enterHold · (dnPort m)) s

/-- The 100 µs of IDL end: TXEN goes low, and the bus-suspend request is evaluated once every port
has completed its hold (R169, R338). -/
def idlDone (s : State) (n : PortN) : State :=
  trySuspend (modAon s n fun a => { a with hold := .held })

/-- Row HOLD_IDL_DONE (R169, R338). -/
def execHoldIdlDone (n : PortN) (s : State) : Outcome :=
  onLink s fun s => whenDo (s.aon.ports[n].hold = .idl) (idlDone · n) s

/-! ## PORT_FEATHER writes (R172, R173) -/

/-- SUSP becomes 1: a port without a link is held at once; one with a link sends no further beacon
(R172). -/
def suspendPort (s : State) (n : PortN) : State := suspHold s n

/-- SUSP becomes 0: after the hold, Dn_BCN is driven for 20 ms, unless the forwarder drives it already
(R173, R175). -/
def resumePort (s : State) (n : PortN) : State :=
  modAon s n fun a =>
    if a.hold = .none then a
    else match a.bcn with
      | .fwd _ => a
      | _ => { a with bcn := .drive }

/-- The RW fields of PORT_FEATHER: BFWD and SUSP are reserved for port 0. -/
def featherMask (n : PortN) : Word := if n = 0 then 0x00F3#16 else 0x00FF#16

/-- A write of PORT_FEATHER (R172, R173, R175). -/
def featherWrite (s : State) (n : PortN) (v : Word) : State :=
  let old := s.aon.ports[n].feather
  let new := v &&& featherMask n
  let s1 := stayLit (modAon s n fun a => { a with feather := new }) n
  if bit new 3 && !bit old 3 then suspendPort s1 n
  else if !bit new 3 && bit old 3 then resumePort s1 n
  else s1

/-! ## The end of holds (R176, R177) -/

/-- UP's hold ends and EV_RESUME is raised (R176). -/
def endUpHold (s : State) : State := upResumed (modAon s 0 fun a => { a with hold := .none, sdFell := false })

/-- A downstream hold ends with its Dn_BCN, but for a port with SUSP = 1 (R173, R176). -/
def endDnHold (a : AonPort) : AonPort :=
  { a with bcn := .none, hold := if bit a.feather 3 then a.hold else .none, sdFell := false }

/-- The forwarder follows UP_BCN down: a forwarded Dn_BCN whose 20 ms are over ends (R175). -/
def fwdEnd (a : AonPort) : AonPort :=
  match a.bcn with
  | .fwd true => endDnHold a
  | _ => a

/-- UP_BCN deasserts (R175, R176). -/
def upBcnFall (s : State) : State :=
  let held := s.aon.ports[(0 : PortN)].hold != .none
  let s1 := { s with aon := { s.aon with upBcn := false, bcnSeen := false, ports := s.aon.ports.map fwdEnd } }
  if s.aon.upBcn && held then endUpHold s1 else s1

/-- Row UP_BCN_DEASSERT (R175, R176). -/
def execUpBcnDeassert (s : State) : Outcome := onPower s upBcnFall

/-- 20 ms of a Dn_BCN are over: a driven one ends; a forwarded one lasts while UP_BCN does (R173,
R175, R176). -/
def bcnOver (up : Bool) (a : AonPort) : AonPort :=
  match a.bcn with
  | .drive => endDnHold a
  | .fwd _ => if up then { a with bcn := .fwd true } else endDnHold a
  | .none => a

/-- Row BCN_DRIVE_END (R173, R176). -/
def execBcnDriveEnd (m : DnN) (s : State) : Outcome :=
  onPower s fun s => modAon s (dnPort m) (bcnOver s.aon.upBcn)

/-- Quiet ports are resumed by the Link die, or once it runs (R175, R177). -/
def resumeLater (s : State) : State :=
  forEach dnAll (fun a m => modAon a (dnPort m) fun p => if isQuiet p then { p with bcnDue := true } else p) s

/-- UP's hold ends without a beacon (R177). -/
def upSdEnd (s : State) : State :=
  let s1 := endUpHold s
  if linkOn s then resumeQuiet s1 else resumeLater s1

/-- Row UP_HOLD_SD_END (R177). -/
def execUpHoldSdEnd (s : State) : Outcome :=
  onPower s fun s =>
    let a := s.aon.ports[(0 : PortN)]
    whenDo (a.hold != .none && a.sdFell && !s.aon.upBcn) upSdEnd (modAon s 0 fun a => { a with sd := true })

/-! ## Feathering (R179 to R184) -/

/-- Port n has nothing to send: no packet is being sent, none is one that its selector or the ULA can start, no
training set waits and no RST is driven (R182). -/
def txIdle (s : State) (n : PortN) : Bool :=
  let p := s.ports[n]
  p.txCur.isNone && !p.tallyDue && p.tsDue.isEmpty && !p.rstOut &&
    (if n = 0 then s.ula.susp.isNone && (List.range 28).all fun r => (ulaCand s none r).isNone
     else (selectTx s p).isNone)

/-- Ticks since the last stroke boundary. -/
def strokePos (s : State) : Nat := (s.tb.time - s.tb.bound).toNat

/-- The slot length of port n in ticks: an eightieth of the stroke, on UP a twentieth (R108). -/
def slotTicks (s : State) (n : PortN) : Nat := strokeTicks s.tb.len / (if n = 0 then 20 else 80)

/-- Slots of port n: they cover the first 80 % of the stroke (R108). -/
def slotCount (n : PortN) : Nat := if n = 0 then 16 else 64

/-- Schedule entry `w` is active in stroke `stroke` (R109). -/
def entryActive (stroke : Nat) (w : Word) : Bool :=
  let m := 2 ^ min 6 (fld w 12 3)
  bit w 15 && stroke % m = fld w 6 6 % m

/-- The direction bit of the XK17's own transmitter: IN on UP, OUT elsewhere (R109). -/
def txDir (n : PortN) : Nat := if n = 0 then 4 else 5

/-- `pos` ticks after the boundary lie in an active slot of port n's transmitter, in this stroke or in the next
one, which takes the schedule as written (R108, R109, R184). -/
def inWindow (s : State) (n : PortN) (pos : Nat) : Bool :=
  let len := strokeTicks s.tb.len
  let next := decide (len ≤ pos)
  let j := (if next then pos - len else pos) / slotTicks s n
  let w := tabGet 0#16 (if next then s.bus.sched else s.bus.schedAct) (64 * n.val + j)
  j < slotCount n && entryActive (if next then s.tb.stroke + 1#32 else s.tb.stroke).toNat w && bit w (txDir n)

/-- `pos` lies in the periodic part of the stroke: its slots (R108). -/
def inPeriodic (s : State) (n : PortN) (pos : Nat) : Bool := pos / slotTicks s n < slotCount n

/-- Ticks from TXEN rising to the first useful word (R180). -/
def wakeTicks (s : State) (n : PortN) : Nat := wakeWords s.ports[n] * wordTicks s.ports[n].rate

/-- A catch of cues that port n holds falls within `lead` ticks. -/
def catchSoon (s : State) (n : PortN) (lead : Nat) : Bool :=
  s.ports[n].txq.any fun t => t.cue.any fun c => c.2 ≤ now s + lead

/-- The schedule or a catch keeps port n awake, or wakes it now: inside a window, or no further before one or
before a catch than the wake takes (R184). -/
def keepsLit (s : State) (n : PortN) : Bool :=
  inWindow s n (strokePos s) || inWindow s n (strokePos s + wakeTicks s n) || catchSoon s n (wakeTicks s n)

/-- Go dark: TXEN low (R180). -/
def darken (s : State) (n : PortN) : State := modPort s n fun p => { p with dark := true }

/-- Row TX_IDLE_DARK (R179, R183): the idle timer runs where schedule feathering does not, and in the
non-periodic part of every stroke, not so near a window or a catch that the wake for it has come; with
IDLE_EN = 0 it does not run. -/
def execTxIdleDark (n : PortN) (s : State) : Outcome :=
  onLink s fun s =>
    whenDo (feathers s.ports[n] s.aon.ports[n] && bit s.aon.ports[n].feather 1 && txIdle s n &&
      (if schedRuns s n then !inPeriodic s n (strokePos s) && !keepsLit s n else !catchSoon s n (wakeTicks s n)))
      (darken · n) s

/-- Row TX_WAKE (R180, R182): there is something to send. -/
def execTxWake (n : PortN) (s : State) : Outcome := onLink s fun s => whenDo (!txIdle s n) (wakeTx · n) s

/-- Row DARK_LIMIT (R182): it wakes for one SKP and the credits that wait, and goes dark again. -/
def execDarkLimit (n : PortN) (s : State) : Outcome :=
  onLink s fun s => whenDo s.ports[n].dark (fun s => darken (emit (wakeTx s n) (.skp n)) n) s

/-- Row SCHED_PREWAKE (R180, R184): the transmitter wakes for a window, or for a catch whose cues it
holds. -/
def execSchedPrewake (n : PortN) (s : State) : Outcome :=
  onLink s fun s =>
    whenDo ((schedRuns s n && inWindow s n (strokePos s + wakeTicks s n)) || catchSoon s n (wakeTicks s n))
      (wakeTx · n) s

/-- Outside its windows, in the periodic part of the stroke, port n goes dark as soon as it has nothing to
send (R184). -/
def schedDark (s : State) (n : PortN) : State :=
  whenDo (schedRuns s n && !s.ports[n].dark && inPeriodic s n (strokePos s) && !keepsLit s n && txIdle s n)
    (darken · n) s

/-- Row SCHED_WINDOW_END (R184): in the rest of the stroke the idle timer alone darkens (R183). -/
def execSchedWindowEnd (n : PortN) (s : State) : Outcome :=
  onLink s fun s =>
    whenDo (schedRuns s n && inPeriodic s n (strokePos s) && !keepsLit s n && txIdle s n) (darken · n) s

end Sys2Proof.Machine
end

