-- ==== Sys2Proof/Machine/RegPut.lean ====
section
/-! DEFINITION. What a write does to the registers of each block, by its fields' access codes (R8, R10
and the register details of the chapters): the global, power, watchdog, black-box, time, arbiter and
queue blocks. -/

namespace Sys2Proof.Machine

open Sys2Proof

/-! ## Global (R9, R36, R43 to R45, R428, R430) -/

/-- REGLOCK (R428): bits 0 to 2 are locked by LOCK; a refusal sets REF even as 1 is written to it. -/
def reglockWrite (v : Word) (g : Glob) : Glob :=
  let same := bit v 0 == g.hubPwr && bit v 1 == g.hubClk && bit v 2 == g.mgWr
  let g1 := { g with ref := g.ref && !bit v 14, lock := g.lock || bit v 15 }
  if g.lock && !same then { g1 with ref := true }
  else { g1 with hubPwr := bit v 0, hubClk := bit v 1, mgWr := bit v 2 }

/-- GCTRL (R36, R43, R45): SWRST is set by the PF and the management SPI alone, and the configuration
image does not write GCTRL (R381). -/
def gctrlWrite (s : State) (p : Path) (v : Word) : State :=
  if p = .pf || p = .mg then
    let s1 := if bit v 2 then { s with glob := { s.glob with bytewr := 0 } } else s
    let s2 := if bit v 1 then cfgLoadGo s1 else s1
    if bit v 0 then softReset s2 else s2
  else s

/-- The other registers of GLOBAL. -/
def globWrite (s : State) (p : Path) (v : Word) : Reg → State
  | .gctrl => gctrlWrite s p v
  | .gstat => { s with glob := { s.glob with cfgErr := s.glob.cfgErr && !bit v 10 } }
  | .rstCause => { s with rst := { s.rst with cause := s.rst.cause &&& ~~~v } }
  | .clkPlan => planWrite s v
  | .clkStat => { s with clk := { s.clk with refFb := s.clk.refFb && !bit v 5, badPlan := s.clk.badPlan && !bit v 7 } }
  | .nodeAddr => if p = .restore then { s with bus := { s.bus with node := v } } else s
  | .localAddr => if p = .restore then { s with bus := { s.bus with loc := v } } else s
  | .reglock => { s with glob := reglockWrite v s.glob }
  | .scratch => { s with glob := { s.glob with scratch := v } }
  | _ => s

/-! ## Power states (chapter 16) -/

/-- PWR_SEQ: a DLY or OFFDLY of 0 is stored as 1. -/
def pwrSeqPut (v : Word) : Word :=
  orAll [atFld (fld v 0 1) 0 1, atFld (max 1 (fld v 1 6)) 1 6, atFld (fld v 7 3) 7 3, atFld (max 1 (fld v 10 4)) 10 4]

/-- PM_CTRL: the RW fields, then REQ (R338). -/
def pmCtrlWrite (s : State) (v : Word) : State :=
  let s1 := { s with pm := { s.pm with ctrl := v &&& 0x0007#16 } }
  match fld v 4 2 with
  | 1 => reqFeather s1
  | 2 => reqStow s1
  | _ => s1

/-- The RW and W1C registers of the power states, but for PM_CTRL. -/
def pmPut (v : Word) (p : Pm) : Reg → Pm
  | .pmStat => { p with puFail := p.puFail && !bit v 11, reqDrop := p.reqDrop && !bit v 12 }
  | .featherIdle => { p with featherIdle := v }
  | .stowIdle => { p with stowIdle := v }
  | .retSel => { p with retSel := v &&& 0x000F#16 }
  | .wakeEn => { p with wakeEn := v &&& 0x3FFF#16 }
  | .wakePol => { p with wakePol := v &&& 0x00FF#16 }
  | .wakeEdge => { p with wakeEdge := v &&& 0x00FF#16 }
  | .wakeMode => { p with wakeMode := v &&& 0x3FFF#16 }
  | .kregCtrl => { p with kregCtrl := v &&& 0x0003#16, kregLow := p.kregLow && bit v 0 }
  | .kregStat => { p with heavy := p.heavy && !bit v 3 }
  | .pwrSeq => { p with pwrSeq := pwrSeqPut v }
  | _ => p

/-- A register of the power states. -/
def pmWrite (s : State) (v : Word) (r : Reg) : State :=
  if r = .pmCtrl then pmCtrlWrite s v else { s with pm := pmPut v s.pm r }

/-! ## Watchdog (chapter 17) -/

/-- The watchdog's registers, but for WDT_SERVICE. -/
def wdtPut (v : Word) (w : Wdt) : Reg → Wdt
  | .wdtCtrl => wdtCtrlWrite v w
  | .wdtPeriod => wdtPeriodWrite v w
  | .wdtWindow => wdtWindowWrite v w
  | .wdtGrace => wdtGraceWrite v w
  | .wdtKey => wdtKeyWrite v w
  | .wdtStat => wdtStatWrite v w
  | _ => w

/-- The domain whose window a PCIe path is. -/
def pathDom : Path → Option DomN
  | .pf => some 0
  | .vf v => some (vfDom v)
  | _ => none

/-- WDT_SERVICE: a write from a window that does not hold the right is ignored and counted (R200). -/
def serviceReg (s : State) (p : Path) (v : Word) : State :=
  match pathDom p with
  | some d => if holdsWdt s d then serviceWrite s p v else denied s d
  | none => serviceWrite s p v

/-- A register of the watchdog.  The image does not write WDT_SERVICE and WDT_KEY (R381). -/
def wdtWrite (s : State) (p : Path) (v : Word) (r : Reg) : State :=
  if p = .image && (r = .wdtService || r = .wdtKey) then s
  else if r = .wdtService then serviceReg s p v
  else { s with wdt := wdtPut v s.wdt r }

/-! ## Black box and flash (chapter 18) -/

/-- A register of BLACK BOX.  The image does not write FL_CTRL (R381). -/
def bbWrite (s : State) (p : Path) (v : Word) : Reg → State
  | .bbCtrl => bbCtrlWrite s v
  | .bbTrig0 => { s with bb := { s.bb with trig0 := v } }
  | .bbTrig1 => { s with bb := { s.bb with trig1 := v &&& 0x80FF#16 } }
  | .bbPost => { s with bb := { s.bb with post := v &&& 0x00FF#16 } }
  | .bbIndex => indexWrite s (p = .mg) v
  | .bbFlash i => { s with bb := bbFlashWrite s.bb i v }
  | .bbFlashStat => { s with bb := bbFlashStatWrite v s.bb }
  | .flCtrl => if p = .image then s else flWrite s p v
  | .flStat => { s with fl := flStatWrite v s.fl }
  | _ => s

/-! ## Time (chapter 7) -/

/-- TB_CTRL: a LOCK_WIN or HOLD_MAX of 0 is stored as 1; STROKE_OUT follows SO_EN. -/
def tbCtrlPut (v : Word) (t : Tb) : Tb :=
  { t with servo := bit v 0, so := bit v 1, soOn := t.soOn && bit v 1
           lockWin := max 1 (fld v 4 4), holdMax := max 1 (fld v 8 8) }

/-- A crew register: a change may release the crew's cues early. -/
def crewWrite (s : State) (k : CrewN) (v : Word) : CrewReg → State
  | .mask0 => crewPut s k { s.tb.crews[k] with mask0 := v }
  | .mask1 => crewPut s k { s.tb.crews[k] with mask1 := v &&& 0x0001#16 }
  | .catchOfs => crewPut s k { s.tb.crews[k] with ofs := v }
  | .ctrl => crewPut s k (crewCtrlWrite v s.tb.crews[k])

/-- A register of TIME. -/
def timeWrite (s : State) (v : Word) : Reg → State
  | .tbCtrl => lockCheck { s with tb := tbCtrlPut v s.tb }
  | .tbStat => { s with tb := { s.tb with
      step := s.tb.step && !bit v 12, loss := s.tb.loss && !bit v 13, holdExp := s.tb.holdExp && !bit v 14 } }
  | .tbSlew => { s with tb := { s.tb with slew := clampN 1 100 (fld v 0 7) } }
  | .catchPin i => pinWrite s i v
  | .prestroke => { s with tb := { s.tb with prestroke := min 100 (fld v 0 7) } }
  | .crew k r => crewWrite s k v r
  | _ => s

/-! ## Arbiters (chapter 12) -/

/-- A limit or control register of an arbiter, with its clamp. -/
def arbPut (hma : Bool) (v : Word) (a : Arb) : ArbReg → Arb
  | .ctrl => { a with ctrl := v &&& 0x0007#16 }
  | .window => { a with window := w16 (clampN 16 1024 (fld v 0 11)) }
  | .quota => { a with quota := w16 (max 1 (fld v 0 6)) }
  | .starve => { a with starve := w16 (max 1 (fld v 0 12)) }
  | .hold => { a with hold := w16 (max 1 (fld v 0 10)) }
  | .flag i => { a with flags := a.flags &&& ~~~(BitVec.ofNat 32 (v.toNat * 65536 ^ i.val)) }
  | .pri r => priPut hma r.val v a
  | .slot j => slotPut hma j.val v a
  | _ => a

/-- Only PF BAR0 and the management SPI reach the CUT and FLAG registers (R276). -/
def arbBarred (p : Path) (r : ArbReg) : Bool :=
  p != .pf && p != .mg && (match r with
    | .flag _ => true
    | .cut _ => true
    | _ => false)

/-- A register of an arbiter: a 1 written to a CUT bit makes the requester eligible again (R269). -/
def arbWrite (s : State) (p : Path) (n : ArbName) (v : Word) (r : ArbReg) : State :=
  if arbBarred p r then s
  else match r with
  | .cut i => cutClear s n (BitVec.ofNat 32 (v.toNat * 65536 ^ i.val))
  | _ => match n with
    | .hma => setHma s (arbPut true v s.hma.arb r)
    | .ula => setUla s (arbPut false v s.ula.arb r)

/-- ULA_PREEMPT. -/
def preemptPut (v : Word) (u : Ula) : Ula := { u with preEn := bit v 0, maxRun := fld v 1 4 }

/-! ## Queues (chapter 13) -/

/-- Q_CTRL: INJ_Q is stored, and INJ acts on it. -/
def qCtrlWrite (s : State) (v : Word) : State :=
  let s1 := { s with que := { s.que with
    injQ := fld v 8 8, errCnt := if bit v 1 then 0 else s.que.errCnt } }
  if bit v 0 then queueInject s1 (fld v 8 8) else s1

/-- A register of QUEUE. -/
def queWrite (s : State) (v : Word) : Reg → State
  | .qCtrl => qCtrlWrite s v
  | .qErr i => { s with que :=
      if i = 0 then { s.que with err0 := s.que.err0 &&& ~~~v } else { s.que with err1 := s.que.err1 &&& ~~~v } }
  | .evfCtrl =>
    let q := { s.que with evfCtrl := v &&& 0x1FFF#16 }
    { s with que := if bit v 13 then evfFlush q else q }
  | .evfStat => { s with que := { s.que with
      evfUnder := s.que.evfUnder && !bit v 9, evfRst := s.que.evfRst && !bit v 10 } }
  | _ => s

end Sys2Proof.Machine
end

