-- ==== Sys2Proof/Machine/RegPutB.lean ====
section
/-! DEFINITION. What a write does to the registers of the ports, the switches, the meter, the
translator, the local node, the domains and the tables. -/

namespace Sys2Proof.Machine

open Sys2Proof

/-! ## Ports (chapters 3, 4, 8, 14) -/

/-- The RW fields of PORT_CTRL but for EN, with their clamps. -/
def portCtrlPut (v : Word) (p : Port) : Port :=
  { p with
    optical := bit v 1
    maxRate := if fld v 4 3 = 0 then 1 else min 4 (fld v 4 3)
    fragEn := bit v 7
    floodMax := max 1 (fld v 11 5) }

/-- PORT_CTRL (R72, R76, R77). -/
def portCtrlWrite (s : State) (n : PortN) (v : Word) : State :=
  let s1 := portEnWrite (modPort s n (portCtrlPut v)) n (bit v 0)
  let s2 := if bit v 2 then retrainWrite s1 n else s1
  if bit v 3 then portCntClr s2 n else s2

/-- A class as PORT_PCLASS of port 0 stores it (R298). -/
def pclassVal (c : Nat) : Nat := if c = 5 || c = 6 then 4 else c % 8

/-- PORT_PCLASS of port 0: a change sends a capability update (R298). -/
def pclassWrite (s : State) (v : Word) : State :=
  let c := pclassVal (fld v 0 3)
  let s1 := { s with glob := { s.glob with pclass0 := c } }
  if c != s.glob.pclass0 && isUp s.ports[(0 : PortN)] then capUpdate s1 0 else s1

/-- A PORT register. -/
def portWrite (s : State) (n : PortN) (v : Word) : PortReg → State
  | .ctrl => portCtrlWrite s n v
  | .train => modPort s n fun p => { p with trialThr := fld v 0 8 }
  | .rangeLo => if n = 0 then s else modPort s n fun p => { p with rangeLo := v }
  | .rangeHi => if n = 0 then s else modPort s n fun p => { p with rangeHi := v }
  | .feather => featherWrite s n v
  | .evt => modPort s n fun p => { p with evt := p.evt &&& ~~~v }
  | .pclass => if n = 0 then pclassWrite s v else s
  | _ => s

/-! ## Switches (chapter 14) -/

/-- FITTED takes a value: without a switch the logic is idle, its discharge path and its SHORT_OFF check
included; a switch that becomes fitted enters OFF, with its discharge (R290, R306; DEDUCED, log 134). -/
def fitPut (v : Bool) (p : Pps) : Pps :=
  if v && !p.fitted then { p with fitted := true, discharging := true, voffArmed := false }
  else if !v then { p with fitted := false, discharging := false, voffArmed := false, voffHigh := false
                           limit := false, fold := false, pinned := 0, recheck := false, chkReq := false
                           chkDue := false }
  else p

/-- PPS_CTRL: FITTED is written only in OFF, which a lost leg is not; then ON, then FCLR (R290, R291, R312,
R315).  A gang works as one switch, so a member's FITTED is written only while its lead is in OFF too (R314;
DEDUCED, log 127). -/
def ppsCtrlWrite (s : State) (m : DnN) (v : Word) : State :=
  let off := legSt s.pps[leadNow s m] = .off
  let s1 := modPps s m fun p => if legSt p = .off && off then fitPut (bit v 1) p else p
  let s2 := switchWrite s1 m (bit v 0)
  if bit v 2 then faultClear s2 m else s2

/-- A PPS register. -/
def ppsWrite (s : State) (m : DnN) (v : Word) : PpsReg → State
  | .ctrl => ppsCtrlWrite s m v
  | .ilim => noteFold (modPps s m (limitPut 0 v))
  | .pfold => noteFold (modPps s m (limitPut 1 v))
  | .tfault => modPps s m (limitPut 2 v)
  | .retry => modPps s m (limitPut 3 v)
  | .fault => modPps s m fun p => { p with fault := p.fault &&& ~~~v }
  | .voffchk => modPps s m fun p => { p with voffEn := bit v 0 }
  | .gatechk => modPps s m fun p => { p with gateEn := bit v 0 }
  | .pgdly => modPps s m fun p => { p with pgdly := w16 (max 1 (fld v 0 8)) }
  | _ => s

/-- A global register of the switches. -/
def ppsGlobWrite (s : State) (v : Word) : Reg → State
  | .ppsBudget => budgetWrite s (fld v 0 12)
  | .ppsGang => gangWrite s v
  | .ppsGstat => { s with ppsg := { s.ppsg with clamp := s.ppsg.clamp && !bit v 0, gangref := s.ppsg.gangref && !bit v 1 } }
  | _ => s

/-! ## Meter and translator (chapters 15 and 5) -/

/-- A global register of METER. -/
def mtrWrite (s : State) (v : Word) : Reg → State
  | .mtrCtrl => { s with mtr := { s.mtr with rdyEv := bit v 0 } }
  | .mtrStat => { s with mtr := { s.mtr with gap := s.mtr.gap && !bit v 2, merged := s.mtr.merged && !bit v 3 } }
  | .mtrSnap => if bit v 0 then snapGo s else s
  | _ => s

/-- A register of TT. -/
def ttWrite (s : State) (v : Word) : Reg → State
  | .ttCtrl =>
    let s1 := { s with tt := { s.tt with en := bit v 0 } }
    if bit v 1 then ttCntClr s1 else s1
  | .ttTmo => { s with tt := { s.tt with tmo := max 1 (fld v 0 8) } }
  | _ => s

/-! ## Local node (chapter 10) -/

/-- A register of LOCAL NODE. -/
def lnWrite (s : State) (v : Word) : Reg → State
  | .lnCtrl => if bit v 0 then lnEnable s else lnDisable s
  | .lnUid i => { s with ln := { s.ln with uid := s.ln.uid.set i.val v i.isLt } }
  | .lnClass => { s with ln := { s.ln with cls := v } }
  | _ => s

/-- EP_CFG.TYPE as stored: endpoint 0 is always control, and no other is. -/
def epTypeVal (k : EpN) (t : Nat) : Nat := if k = 0 then 0 else if t = 2 then 2 else 1

/-- EP_CFG: TYPE and DIR are ignored while EN = 1; then EN and CNT_CLR (R228, R236). -/
def epCfgWrite (s : State) (k : EpN) (v : Word) : State :=
  let s1 := modEp s k fun e => if e.en then e else { e with typ := epTypeVal k (fld v 1 2), dirIn := bit v 3 }
  let s2 := if bit v 0 then epEnable s1 k else epDisable s1 k
  if bit v 4 then modEp s2 k fun e => { e with overrun := 0, setupLost := 0, missed := 0 } else s2

/-- An endpoint register.  EP_BUF and EP_SIZE are ignored while EN = 1 but for the restore of the stow
set (R228, R341). -/
def epWrite (s : State) (p : Path) (k : EpN) (v : Word) : EpReg → State
  | .cfg => epCfgWrite s k v
  | .buf => modEp s k fun e => if e.en && p != .restore then e else { e with buf := fld v 0 9 }
  | .size => modEp s k fun e =>
      if e.en && p != .restore then e else { e with size := clampN 8 1024 (fld v 0 11) }
  | .stat => modEp s k fun e => { e with allocErr := e.allocErr && !bit v 6 }
  | .period => modEp s k fun e => { e with period := min 64 (fld v 0 7) }
  | _ => s

/-! ## Domains (chapters 9 to 12) -/

/-- A ring size as stored: at most 8. -/
def sizeVal (v : Word) : Nat := min 8 (fld v 0 4)

/-- A field that R211 guards: refused with CFGWR while the domain is enabled. -/
def guarded (s : State) (d : DomN) (f : Dom → Dom) : State :=
  if domOn s.doms[d] then cfgwr s d else modDom s d f

/-- Word i of an address whose lowest word has reserved bits. -/
def addrPut (a i : Nat) (v mask : Word) : Nat := setWordOf a i (if i = 0 then v &&& mask else v)

/-- DOM_CADENCE: FAST is brought into 1 to 2,000. -/
def cadencePut (v : Word) : Word := atFld (clampN 1 2000 (fld v 0 11)) 0 11 ||| (v &&& 0xF800#16)

/-- One vector number of DOM_EVTMAP: a VF has eight vectors. -/
def vecVal (d : DomN) (v : Nat) : Nat := if d != 0 && 8 ≤ v then 0 else v

/-- DOM_EVTMAP of domain d. -/
def evtmapPut (d : DomN) (v : Word) : Word :=
  orAll [atFld (vecVal d (fld v 0 5)) 0 5, atFld (vecVal d (fld v 5 5)) 5 5, atFld (vecVal d (fld v 10 5)) 10 5]

/-- A write through domain d's own window. -/
def domOwn (s : State) (d : DomN) (v : Word) : DomReg → State
  | .ctrl => if bit v 0 then domEnable s d else domDisable s d
  | .db i => guarded s d fun x => { x with db := addrPut x.db i.val v 0xF000#16 }
  | .cmd i => guarded s d fun x => { x with cmdBase := addrPut x.cmdBase i.val v 0xFFC0#16 }
  | .cmdSz => guarded s d fun x => { x with cmdSz := w16 (sizeVal v) }
  | .evt i => guarded s d fun x => { x with evtBase := addrPut x.evtBase i.val v 0xFFC0#16 }
  | .evtSz => guarded s d fun x => { x with evtSz := w16 (sizeVal v) ||| (v &&& 0x0010#16) }
  | .sum i => modDom s d fun x => if x.busy then x else { x with sum := addrPut x.sum i.val v 0xFFC0#16 }
  | .sumctl => if bit v 0 then domGo s d else s
  | .cadence => modDom s d fun x => { x with cadence := cadencePut v }
  | .err => modDom s d fun x => { x with err := x.err &&& ~~~(v &&& 0x001F#16) }
  | .evtmap i => modDom s d fun x => { x with evtMap := x.evtMap.set i.val (evtmapPut d v) i.isLt }
  | .mod => modDom s d fun x => { x with mod := v &&& 0x01FF#16 }
  | _ => s

/-- A write that only the PF makes (R199). -/
def domPf (s : State) (d : DomN) (v : Word) : DomReg → State
  | .epmask i => epmaskWrite s d i.val v
  | .rights => rightsWrite s d v
  | .qos => qosWrite s d v
  | _ => s

/-- The register is one of the three that only the PF writes. -/
def pfWrites : DomReg → Bool
  | .epmask _ => true
  | .rights => true
  | .qos => true
  | _ => false

/-- A domain register (R198, R199): the PF's window reaches domain 0 and the three registers of every
domain; a VF's window reaches its own domain but for those three.  DESIGN CHOICE: the configuration image writes
as the PF does (R36; log entry 160). -/
def domWrite (s : State) (p : Path) (d : DomN) (v : Word) (r : DomReg) : State :=
  if !domExists s d then s
  else match p with
    | .vf w => if vfDom w = d && !pfWrites r then domOwn s d v r else s
    | _ => if pfWrites r then domPf s d v r else if d = 0 then domOwn s d v r else s

/-! ## Tables (chapters 4 and 5) -/

/-- A word of multicast entry k. -/
def mcPut (v : Word) (e : McEnt) : McReg → McEnt
  | .grp => { e with grp := v }
  | .ports => { e with ports := v }
  | .loc => { e with loc := v &&& 0x8003#16 }
  | .hits => e

/-- Write a word of the multicast table. -/
def mcWrite (s : State) (k : Fin 256) (v : Word) (r : McReg) : State :=
  { s with bus := { s.bus with mc := tabSet McEnt.zero s.bus.mc k.val (mcPut v (mcEnt s k.val) r) } }

/-- Write a schedule word: it takes effect at the next stroke boundary (R109). -/
def schedWrite (s : State) (p : PortN) (j : Nat) (v : Word) : State :=
  { s with bus := { s.bus with sched := tabSet 0#16 s.bus.sched (schedKey p j) (v &&& 0xFFF0#16) } }

/-! ## Every register -/

/-- A write of `v` to register `r` by path `p`, once it has been let through. -/
def writeReg (s : State) (p : Path) (v : Word) (r : Reg) : State :=
  match r with
  | .crew k x => timeWrite s v (.crew k x)
  | .arb n x => arbWrite s p n v x
  | .ulaPreempt => { s with ula := preemptPut v s.ula }
  | .port n x => portWrite s n v x
  | .pps m x => ppsWrite s m v x
  | .ep k x => epWrite s p k v x
  | .dom d x => domWrite s p d v x
  | .mc k x => mcWrite s k v x
  | .sched n j => schedWrite s n j.val v
  | .pmCtrl => pmWrite s v r
  | .pmStat => pmWrite s v r
  | .featherIdle => pmWrite s v r
  | .stowIdle => pmWrite s v r
  | .retSel => pmWrite s v r
  | .wakeEn => pmWrite s v r
  | .wakePol => pmWrite s v r
  | .wakeEdge => pmWrite s v r
  | .wakeMode => pmWrite s v r
  | .kregCtrl => pmWrite s v r
  | .kregStat => pmWrite s v r
  | .pwrSeq => pmWrite s v r
  | .wdtCtrl => wdtWrite s p v r
  | .wdtPeriod => wdtWrite s p v r
  | .wdtWindow => wdtWrite s p v r
  | .wdtGrace => wdtWrite s p v r
  | .wdtService => wdtWrite s p v r
  | .wdtKey => wdtWrite s p v r
  | .wdtStat => wdtWrite s p v r
  | .bbCtrl => bbWrite s p v r
  | .bbTrig0 => bbWrite s p v r
  | .bbTrig1 => bbWrite s p v r
  | .bbPost => bbWrite s p v r
  | .bbIndex => bbWrite s p v r
  | .bbFlash _ => bbWrite s p v r
  | .bbFlashStat => bbWrite s p v r
  | .flCtrl => bbWrite s p v r
  | .flStat => bbWrite s p v r
  | .tbCtrl => timeWrite s v r
  | .tbStat => timeWrite s v r
  | .tbSlew => timeWrite s v r
  | .catchPin _ => timeWrite s v r
  | .prestroke => timeWrite s v r
  | .qCtrl => queWrite s v r
  | .qErr _ => queWrite s v r
  | .evfCtrl => queWrite s v r
  | .evfStat => queWrite s v r
  | .ppsBudget => ppsGlobWrite s v r
  | .ppsGang => ppsGlobWrite s v r
  | .ppsGstat => ppsGlobWrite s v r
  | .mtrCtrl => mtrWrite s v r
  | .mtrStat => mtrWrite s v r
  | .mtrSnap => mtrWrite s v r
  | .ttCtrl => ttWrite s v r
  | .ttTmo => ttWrite s v r
  | .lnCtrl => lnWrite s v r
  | .lnUid _ => lnWrite s v r
  | .lnClass => lnWrite s v r
  | _ => globWrite s p v r

end Sys2Proof.Machine
end

