-- ==== Sys2Proof/Machine/Regs.lean ====
section
/-! DEFINITION. How each party reaches the registers (R8, R19, R192 to R199, R383 to R385, R428), and the
rows that are a write of one register. -/

namespace Sys2Proof.Machine

open Sys2Proof

/-! ## The management SPI (R19, R354, R383, R384) -/

/-- The register at a management word address. -/
def mgReg (addr : Nat) : Option Reg := if addr < 0x4000 then regAtWord addr else none

/-- The Link die does not answer the management SPI for this register (R19). -/
def mgMisses (s : State) (addr : Nat) : Bool :=
  !linkOn s && (mgReg addr).any fun r => !onPowerDie r

/-- REGLOCK.MG_WR refuses a management write, but for a service that may act (R428). -/
def mgBarred (s : State) (r : Option Reg) : Bool :=
  linkHeld s && s.glob.mgWr && !(r = some .wdtService && s.wdt.mgSvc)

/-- LDMISS is set (R383). -/
def ldMiss (s : State) : State := { s with mg := { s.mg with ldMiss := true } }

/-- One word of a management write. -/
def mgWord (s : State) (addr : Nat) (v : Word) : State :=
  if mgBarred s (mgReg addr) then { s with glob := { s.glob with ref := true } }
  else if mgMisses s addr then ldMiss s
  else match mgReg addr with
    | some r => writeReg s .mg v r
    | none => s

/-- The words of a burst with their addresses, modulo 65,536 (R384). -/
def burst (addr : Nat) (ws : List Word) : List (Nat × Word) :=
  ws.zipIdx.map fun x => ((addr + x.2) % 65536, x.1)

/-- The MG source is recorded for replay and holds no frame yet, and the device is not in RUN (R354). -/
def mgMayHold (s : State) : Bool := s.pm.st != .run && bit s.pm.replay 12 && s.pm.mgHeld.isNone

/-- A management write frame.  The first that misses a Link die register after the MG cause is held. -/
def mgWrite (s : State) (addr : Nat) (ws : List Word) : State :=
  let hold := mgMayHold s && (burst addr ws).any fun x => mgMisses s x.1
  let s1 := forEach (burst addr ws) (fun a x => mgWord a x.1 x.2) s
  if hold then { s1 with pm := { s1.pm with mgHeld := some (addr, ws) } } else s1

/-- What a management read of a register does beside returning it: EVF_DATA0 pops, TB_TIME0 latches
(R194, R283, R384). -/
def mgSide (s : State) : Reg → State
  | .evfData i => if i = 0 then { s with que := evfPop s.que } else s
  | .tbTime i => if i = 0 then latchTime s .mg else s
  | _ => s

/-- One word of a management read. -/
def mgReadWord (s : State) (addr : Nat) : State :=
  if mgMisses s addr then emit (ldMiss s) (.readData .mg 0#16)
  else match mgReg addr with
    | some r => let s1 := mgSide s r; emit s1 (.readData .mg (readReg s1 .mg r))
    | none => emit s (.readData .mg 0#16)

/-- The status byte (R383): LINK and EVF show the Link die powered and out of reset, in FEATHER too. -/
def mgStatusByte (s : State) : Nat :=
  (if linkHeld s then 128 else 0) + (if linkHeld s && !s.que.evf.isEmpty then 64 else 0) +
  (if s.mg.ldMiss then 32 else 0) + (if s.mg.frameErr then 16 else 0) + (if s.pm.kregLow then 0 else 8) +
  (if s.bb.flush.isSome then 4 else 0) + (if s.bb.armed then 2 else 0)

/-- A frame: the status byte goes out while its opcode comes in, and MG_CS_N is high again at its end. -/
def mgFrame (s : State) (f : State → State) : State :=
  let s1 := f (emit s (.mgStatus (mgStatusByte s)))
  { s1 with mg := { s1.mg with cs := false } }

/-- Row MG_WRITE (R383, R384). -/
def execMgWrite (addr v : Word) (s : State) : Outcome :=
  onPower s fun s => mgFrame s (mgWrite · addr.toNat [v])

/-- Row MG_READ (R383, R384). -/
def execMgRead (addr : Word) (s : State) : Outcome :=
  onPower s fun s => mgFrame s (mgReadWord · addr.toNat)

/-- Row MG_WRITE_BURST (R383, R384). -/
def execMgWriteBurst (addr : Word) (ws : List Word) (s : State) : Outcome :=
  onPower s fun s => mgFrame s (mgWrite · addr.toNat ws)

/-- Row MG_READ_BURST (R383, R384). -/
def execMgReadBurst (addr : Word) (n : Nat) (s : State) : Outcome :=
  onPower s fun s => mgFrame s
    (forEach (List.range n) fun a i => mgReadWord a ((addr.toNat + i) % 65536))

/-- LDMISS and FRAMEERR clear (R383). -/
def mgClear (s : State) : State := { s with mg := { s.mg with ldMiss := false, frameErr := false } }

/-- Row MG_STATUS (R383). -/
def execMgStatus (s : State) : Outcome := onPower s fun s => mgFrame s mgClear

/-- Row FRAMEERR (R383): the status byte has gone out with the opcode's bits. -/
def execFrameerr (s : State) : Outcome :=
  onPower s fun s => mgFrame s fun s => { s with mg := { s.mg with frameErr := true } }

/-! ## Frames of the flash controller (R375, R382) -/

/-- Word address of FL_CTRL (R382, R384). -/
def flCtrlAddr : Nat := 0x1D2

/-- A frame for the flash controller by path p: `f` while the Link die runs.  Otherwise only the management SPI
answers, and its words meet the Link die as every write there does (R19, R428). -/
def flRow (s : State) (p : Path) (ws : List Word) (f : State → State) : State :=
  if linkOn s then flGate s p f
  else if p = .mg then forEach ws (fun a w => mgWrite a flCtrlAddr [w]) s
  else s

/-- A row whose frame has the words `ws`. -/
def flFrameRow (s : State) (p : Path) (ws : List Word) : Outcome :=
  onPower s fun s => flRow s p ws (flFrame · p ws)

/-- Row FL_READ (R382). -/
def execFlRead (p : Path) (addr : BitVec 32) (s : State) : Outcome := flFrameRow s p (addrFrame 1 0 addr.toNat)

/-- Row FL_NEXT (R382). -/
def execFlNext (p : Path) (s : State) : Outcome := flFrameRow s p [0x2000#16]

/-- Row FL_PROGRAM (R375, R382): N and the data words. -/
def execFlProgram (p : Path) (addr : BitVec 32) (n : BitVec 12) (ws : List Word) (s : State) : Outcome :=
  flFrameRow s p (addrFrame 3 n.toNat addr.toNat ++ ws.take ((n.toNat + 1) / 2))

/-- Row FL_ERASE4K (R375, R382). -/
def execFlErase4k (p : Path) (addr : BitVec 32) (s : State) : Outcome := flFrameRow s p (addrFrame 4 0 addr.toNat)

/-- Row FL_ERASE64K (R375, R382). -/
def execFlErase64k (p : Path) (addr : BitVec 32) (s : State) : Outcome := flFrameRow s p (addrFrame 5 0 addr.toNat)

/-- Row FL_ABORT (R382). -/
def execFlAbort (p : Path) (s : State) : Outcome :=
  onPower s fun s => flRow s p [0x6000#16] (flAbort · p)

/-! ## PCIe (R192, R195, R197) -/

/-- GSTAT.BYTEWR advances (R45). -/
def countByte (s : State) : State := { s with glob := { s.glob with bytewr := satInc 255 s.glob.bytewr } }

/-- Offset of the MSI-X table of a function's BAR0, and its size in bytes. -/
def msixBase (d : DomN) : Nat := if d = 0 then 0x6000 else 0x800

/-- Offset of the PBA. -/
def pbaBase (d : DomN) : Nat := if d = 0 then 0x6800 else 0xC00

/-- The offset lies in the MSI-X table. -/
def inMsix (d : DomN) (off : Nat) : Bool := msixBase d ≤ off && off < msixBase d + 16 * vecCount d

/-- The offset lies in the PBA. -/
def inPba (d : DomN) (off : Nat) : Bool := pbaBase d ≤ off && off < pbaBase d + 8

/-- A DW of a memory write to function d's BAR0. -/
def dwWrite (s : State) (p : Path) (d : DomN) (off : Nat) (be : ByteEn) (v : BitVec 32) : State :=
  if inMsix d off then (if be = .full then msixWrite s d ((off - msixBase d) / 4) v else countByte s)
  else if inPba d off then (if be = .full then s else countByte s)
  else match regAt p off, be with
    | some r, .full => writeReg s p (v.setWidth 16) r
    | some r, .both => writeReg s p (v.setWidth 16) r
    | some _, .one => countByte s
    | _, _ => s

/-- A memory write by PCIe through a window that is open; a closed one is an Unsupported Request. -/
def hostDw (s : State) (p : Path) (d : DomN) (off : Nat) (be : ByteEn) (v : BitVec 32) : State :=
  if !linkOn s then s
  else if winOpen s d then dwWrite s p d (off / 4 * 4) be v
  else winRefuse s d false

/-- A write of a register by a party inside the Link die. -/
def innerWrite (s : State) (p : Path) (off : Nat) (v : Word) : State :=
  if linkOn s then (match regAt p off with
    | some r => writeReg s p v r
    | none => s) else s

/-- Path p writes the 16-bit register at byte offset `off` of its window. -/
def pathWrite (s : State) (p : Path) (off : Nat) (v : Word) : State :=
  match p with
  | .pf => hostDw s p 0 off .full (v.setWidth 32)
  | .vf w => hostDw s p (vfDom w) off .full (v.setWidth 32)
  | .mg => mgWrite s (off / 4) [v]
  | .hub => innerWrite s p off v
  | .cmd _ => innerWrite s p off v
  | .image => innerWrite s p off v
  | .restore => s

/-- One DW of a write of registers, by the host's memory write or the management SPI. -/
def registerDw (s : State) (p : Path) (off : Nat) (be : ByteEn) (v : BitVec 32) : State :=
  match p with
  | .pf => hostDw s p 0 off be v
  | .vf w => hostDw s p (vfDom w) off be v
  | _ => if be = .full || be = .both then pathWrite s p (off / 4 * 4) (v.setWidth 16) else s

/-- A write of several DW acts as writes of one DW in ascending address order, with nothing between them
(R193); those after a GCTRL.SWRST are lost with the reset. -/
def registerWrite (s : State) (p : Path) (off : Nat) (dws : List (ByteEn × BitVec 32)) : State :=
  forEach dws.zipIdx (fun a x => registerDw a p (off + 4 * x.2) x.1.1 x.1.2) s

/-- Row REGISTER_WRITE (R8, R192, R193, R195). -/
def execRegisterWrite (p : Path) (off : Word) (dw : ByteEn × BitVec 32) (more : List (ByteEn × BitVec 32))
    (s : State) : Outcome :=
  onPower s fun s => registerWrite s p off.toNat (dw :: more)

/-- Row BYTE_WRITE (R45, R192). -/
def execByteWrite (p : Path) (off : Word) (s : State) : Outcome :=
  onPower s fun s => registerDw s p off.toNat .one 0#32

/-! ## Rows that write one register -/

/-- A write of `v` by path p, as a row. -/
def regRow (p : Path) (off : Nat) (v : Word) (s : State) : Outcome := onPower s fun s => pathWrite s p off v

/-- Row SWRST (R43). -/
def execSwrst (p : Path) (s : State) : Outcome := regRow p 0x1C 0x0001#16 s

/-- Row CFG_LOAD (R36). -/
def execCfgLoad (p : Path) (s : State) : Outcome := regRow p 0x1C 0x0002#16 s

/-- Row BYTEWR_CLEAR (R45). -/
def execBytewrClear (p : Path) (s : State) : Outcome := regRow p 0x1C 0x0004#16 s

/-- Row CLK_PLAN_WRITE (R23, R39). -/
def execClkPlanWrite (p : Path) (v : Word) (s : State) : Outcome := regRow p 0x28 v s

/-- Row REGLOCK_WRITE (R428). -/
def execReglockWrite (p : Path) (v : Word) (s : State) : Outcome := regRow p 0x40 v s

/-- Offset of port n's block. -/
def portOff0 (n : PortN) : Nat := 0x1000 + 0x100 * n.val

/-- PORT_CTRL as it stands, with its write-1 fields 0. -/
def ctrlNow (s : State) (n : PortN) : Word := portCtrl s.ports[n] &&& 0xFFF3#16

/-- Row PORT_RETRAIN (R72). -/
def execPortRetrain (p : Path) (n : PortN) (s : State) : Outcome :=
  regRow p (portOff0 n) (ctrlNow s n ||| 0x0004#16) s

/-- Row PORT_CNT_CLR (R8). -/
def execPortCntClr (p : Path) (n : PortN) (s : State) : Outcome :=
  regRow p (portOff0 n) (ctrlNow s n ||| 0x0008#16) s

/-- Row PORT_DISABLE (R76). -/
def execPortDisable (p : Path) (n : PortN) (s : State) : Outcome :=
  regRow p (portOff0 n) (setBit (ctrlNow s n) 0 false) s

/-- Row PORT_ENABLE (R77). -/
def execPortEnable (p : Path) (n : PortN) (s : State) : Outcome :=
  regRow p (portOff0 n) (ctrlNow s n ||| 0x0001#16) s

/-- Row PORT_SUSPEND (R172). -/
def execPortSuspend (p : Path) (m : DnN) (s : State) : Outcome :=
  regRow p (portOff0 (dnPort m) + 0x38) (s.aon.ports[dnPort m].feather ||| 0x0008#16) s

/-- Row PORT_RESUME (R173). -/
def execPortResume (p : Path) (m : DnN) (s : State) : Outcome :=
  regRow p (portOff0 (dnPort m) + 0x38) (setBit s.aon.ports[dnPort m].feather 3 false) s

/-- Row PCLASS_WRITE (R298). -/
def execPclassWrite (p : Path) (v : Word) (s : State) : Outcome := regRow p 0x1048 v s

/-- Row TT_CNT_CLR (R8). -/
def execTtCntClr (p : Path) (s : State) : Outcome := regRow p 0x3600 (atBit s.tt.en 0 ||| 0x0002#16) s

/-- Row LN_ENABLE (R226). -/
def execLnEnable (p : Path) (s : State) : Outcome := regRow p 0x3700 0x0001#16 s

/-- Row LN_DISABLE (R226). -/
def execLnDisable (p : Path) (s : State) : Outcome := regRow p 0x3700 0x0000#16 s

/-- Offset of endpoint k's block. -/
def epOff0 (k : EpN) : Nat := 0x3800 + 0x20 * k.val

/-- Row EP_ENABLE (R228). -/
def execEpEnable (p : Path) (k : EpN) (s : State) : Outcome :=
  regRow p (epOff0 k) (epCfg s.ln.eps[k] ||| 0x0001#16) s

/-- Row EP_DISABLE (R236). -/
def execEpDisable (p : Path) (k : EpN) (s : State) : Outcome :=
  regRow p (epOff0 k) (setBit (epCfg s.ln.eps[k]) 0 false) s

/-- Row EP_CNT_CLR (R8). -/
def execEpCntClr (p : Path) (k : EpN) (s : State) : Outcome :=
  regRow p (epOff0 k) (epCfg s.ln.eps[k] ||| 0x0010#16) s

/-- Offset of domain d's block in PF BAR0. -/
def domOff0 (d : DomN) : Nat := 0x4000 + 0x200 * d.val

/-- Row DOM_RIGHTS_WRITE (R199, R200). -/
def execDomRightsWrite (d : DomN) (v : Word) (s : State) : Outcome := regRow .pf (domOff0 d + 0x60) v s

/-- Row EPMASK_WRITE (R229). -/
def execEpmaskWrite (d : DomN) (half : Fin 2) (v : Word) (s : State) : Outcome :=
  regRow .pf (domOff0 d + 0x58 + 4 * half.val) v s

/-- A write through domain d's own window. -/
def ownRow (d : DomN) (off : Nat) (v : Word) (s : State) : Outcome :=
  onPower s fun s =>
    if h : d.val = 0 then pathWrite s .pf (0x4000 + off) v
    else pathWrite s (.vf ⟨d.val - 1, by omega⟩) off v

/-- Row DOMAIN_ENABLE (R239). -/
def execDomainEnable (d : DomN) (s : State) : Outcome := ownRow d 0x00 0x0001#16 s

/-- Row DOMAIN_DISABLE (R245). -/
def execDomainDisable (d : DomN) (s : State) : Outcome := ownRow d 0x00 0x0000#16 s

/-- Row RESYNC_GO (R250). -/
def execResyncGo (d : DomN) (s : State) : Outcome := ownRow d 0x50 0x0001#16 s

/-- Offset of the CUT registers of an arbiter. -/
def cutOff (a : ArbName) : Nat := match a with
  | .hma => 0xA20
  | .ula => 0xC24

/-- Row CUT_CLEAR (R269): a write of 1 to bits of a CUT register, word 0 or word 1. -/
def execCutClear (p : Path) (arb : ArbName) (half : Fin 2) (v : Word) (s : State) : Outcome :=
  regRow p (cutOff arb + 4 * half.val) v s

/-- Row QUEUE_INJECT (R279). -/
def execQueueInject (p : Path) (q : BitVec 8) (s : State) : Outcome :=
  regRow p 0xE00 (w16 (q.toNat * 256 + 1)) s

/-- Row Q_CNT_CLR (R8). -/
def execQCntClr (p : Path) (s : State) : Outcome := regRow p 0xE00 (w16 (s.que.injQ * 256 + 2)) s

/-- Row EVF_POP (R283): a management read of EVF_DATA0. -/
def execEvfPop (s : State) : Outcome := onPower s fun s => mgFrame s (mgReadWord · 0x387)

/-- Row EVF_FLUSH (R285). -/
def execEvfFlush (p : Path) (s : State) : Outcome := regRow p 0xE14 (s.que.evfCtrl ||| 0x2000#16) s

/-- Offset of the switch of Dm. -/
def ppsOff0 (m : DnN) : Nat := 0x2400 + 0x80 * m.val

/-- Row PPS_ON (R293). -/
def execPpsOn (p : Path) (m : DnN) (s : State) : Outcome :=
  regRow p (ppsOff0 m) (atBit s.pps[m].fitted 1 ||| 0x0001#16) s

/-- Row PPS_OFF (R304). -/
def execPpsOff (p : Path) (m : DnN) (s : State) : Outcome := regRow p (ppsOff0 m) (atBit s.pps[m].fitted 1) s

/-- Row PPS_FCLR (R312). -/
def execPpsFclr (p : Path) (m : DnN) (s : State) : Outcome :=
  regRow p (ppsOff0 m) (orAll [atBit s.pps[m].on 0, atBit s.pps[m].fitted 1, 0x0004#16]) s

/-- Row BUDGET_WRITE (R297). -/
def execBudgetWrite (p : Path) (v : Word) (s : State) : Outcome := regRow p 0x2C00 v s

/-- Row GANG_WRITE (R313). -/
def execGangWrite (p : Path) (v : Word) (s : State) : Outcome := regRow p 0x2C08 v s

/-- Row SNAPSHOT_GO (R329). -/
def execSnapshotGo (p : Path) (s : State) : Outcome := regRow p 0x3008 0x0001#16 s

/-- Row PM_REQ_FEATHER (R338). -/
def execPmReqFeather (p : Path) (s : State) : Outcome := regRow p 0x400 (s.pm.ctrl ||| 0x0010#16) s

/-- Row PM_REQ_STOW (R338). -/
def execPmReqStow (p : Path) (s : State) : Outcome := regRow p 0x400 (s.pm.ctrl ||| 0x0020#16) s

/-- Row WDT_SERVICE_WRITE (R360, R361): PF BAR0, a VF's alias, the root or the management SPI. -/
def execWdtServiceWrite (p : Path) (v : Word) (s : State) : Outcome :=
  regRow p (match p with | .vf _ => 0x230 | _ => 0x610) v s

/-- Row WDT_KEY_WRITE (R365). -/
def execWdtKeyWrite (p : Path) (v : Word) (s : State) : Outcome := regRow p 0x614 v s

/-- Row WDT_ENABLE (R365). -/
def execWdtEnable (p : Path) (s : State) : Outcome := regRow p 0x600 (wdtCtrl s.wdt ||| 0x0001#16) s

/-- Row WDT_LOCK_SET (R366). -/
def execWdtLockSet (p : Path) (s : State) : Outcome := regRow p 0x600 (wdtCtrl s.wdt &&& 0x000C#16 ||| 0x0002#16) s

/-- Row WDT_PERIOD_WRITE (R359): WDT_PERIOD, or WDT_WINDOW. -/
def execWdtPeriodWrite (p : Path) (window : Bool) (v : Word) (s : State) : Outcome :=
  regRow p (if window then 0x608 else 0x604) v s

/-- Row BB_REARM (R370). -/
def execBbRearm (p : Path) (s : State) : Outcome := regRow p 0x700 (s.bb.ctrl ||| 0x0004#16) s

/-- Row BB_CLEAR (R370). -/
def execBbClear (p : Path) (s : State) : Outcome := regRow p 0x700 (s.bb.ctrl ||| 0x0200#16) s

/-- Row BB_TEST_FLUSH (R376). -/
def execBbTestFlush (p : Path) (s : State) : Outcome := regRow p 0x700 (s.bb.ctrl ||| 0x0100#16) s

/-- Row BB_INDEX_WRITE (R372). -/
def execBbIndexWrite (p : Path) (v : Word) (s : State) : Outcome := regRow p 0x718 v s

/-! ## Reads by the host (R146, R185, R190, R192 to R197) -/

/-- The path by which the host reads function d's BAR0. -/
def pathOf (d : DomN) : Path := if h : d.val = 0 then .pf else .vf ⟨d.val - 1, by omega⟩

/-- DW i of the PBA of domain d: a pending bit for each of its vectors (R197). -/
def pbaDw (s : State) (d : DomN) (i : Nat) : BitVec 32 :=
  if i = 0 then s.doms[d].pba &&& (if d = 0 then 0xFFFFFFFF#32 else 0x000000FF#32) else 0#32

/-- A DW of function d's BAR0 as the host reads it (R192, R195, R197): whatever the byte enables, a register
stands in bits [15:0] and bits [31:16] read 0. -/
def dwRead (s : State) (d : DomN) (off : Nat) : BitVec 32 :=
  if inMsix d off then
    msixDw (msixEnt s d ((off - msixBase d) / 16)) ((off - msixBase d) / 4 % 4)
  else if inPba d off then pbaDw s d ((off - pbaBase d) / 4)
  else match regAt (pathOf d) off with
    | some r => (readReg s (pathOf d) r).setWidth 32
    | none => 0#32

/-- One DW of a read of BAR0: it latches at TB_TIME0, so that later DWs return the latched values (R193). -/
def readDw (d : DomN) (x : State × List (BitVec 32)) (off : Nat) : State × List (BitVec 32) :=
  let s1 := if regAt (pathOf d) off = some (.tbTime 0) then latchTime x.1 (pathOf d) else x.1
  (s1, x.2 ++ [dwRead s1 d off])

/-- Completions of at most `lim` bytes for `ws`, the first DW of which lies at `addr`: they part on 64-byte
boundaries (R190). -/
def rcbSplit (lim : Nat) : Nat → Nat → List (BitVec 32) → List (List (BitVec 32))
  | 0, _, _ => []
  | fuel + 1, addr, ws =>
    let n := if 4 * ws.length ≤ lim then ws.length else (lim - addr % 64) / 4
    if ws.isEmpty then [] else ws.take n :: rcbSplit lim fuel (addr + 4 * n) (ws.drop n)

/-- The completions of a read: each as long as R190 and Max_Payload_Size allow (log entry 125). -/
def complete (s : State) (d : DomN) (addr : Nat) (ws : List (BitVec 32)) : State :=
  emits s ((rcbSplit (maxWrite s) ws.length addr ws).map fun c => .completion d c)

/-- A read of `n` DW of function d's BAR0: of 1 to 16 with data, of more with Completer Abort (R190). -/
def bar0Read (s : State) (d : DomN) (off n : Nat) : State :=
  if !linkOn s then s
  else if !winOpen s d then winRefuse s d true
  else if 16 < n then refuseRequest s d .tooLong
  else
    let r := ((List.range n).map fun i => off / 4 * 4 + 4 * i).foldl (readDw d) (s, [])
    complete r.1 d off r.2

/-- Four bytes of endpoint memory as a DW. -/
def memDw (s : State) (addr : Nat) : BitVec 32 :=
  (memRead s.ln.mem addr 4).zipIdx.foldl (fun a x => a ||| dwFld x.1 (8 * x.2)) 0#32

/-- A read of BAR2, up to 512 bytes: endpoint memory (R190, R196).  A longer one draws Completer Abort, as it
does at BAR0: DESIGN CHOICE, log entry 125. -/
def bar2Read (s : State) (off n : Nat) : State :=
  if !linkOn s then s
  else if !winOpen s 0 then winRefuse s 0 true
  else if 128 < n then refuseRequest s 0 .tooLong
  else complete s 0 off ((List.range n).map fun i => memDw s ((off / 4 * 4 + 4 * i) % 32768))

/-- A configuration read (R38, R185 to R188). -/
def configRead (s : State) (d : DomN) (off : Nat) : State :=
  if !linkOn s || !epUp s then s
  else if !cfgOpen s then emit s (.retryStatus d)
  else if domExists s d then emit s (.completion d [cfgRead s d off])
  else emit s (.badCompletion d true)

/-- A read of TB_TIME0 alone (R146, R194): PF BAR0, a VF's alias, the hub function or the management SPI. -/
def timeRead (s : State) (p : Path) : State :=
  match p with
  | .pf => bar0Read s 0 0x808 1
  | .vf v => bar0Read s (vfDom v) 0x210 1
  | .hub => whenDo (linkOn s) (fun s => emit (latchTime s p) (.readData p (wordOf (now s) 0))) s
  | .mg => mgFrame s (mgReadWord · 0x202)
  | _ => s

/-- A read request of the host.  The table's one row about a read is that of TB_TIME0; every other read
changes nothing (R194), and the row carries them all (log entry 125). -/
def hostRead (s : State) : HostRead → State
  | .reg p => timeRead s p
  | .bar0 d off n => bar0Read s d off.toNat n
  | .bar2 off n => bar2Read s off.toNat n
  | .config d off => configRead s d off

/-- Row TB_TIME0_READ (R146). -/
def execTbTime0Read (r : HostRead) (s : State) : Outcome := onPower s (hostRead · r)

end Sys2Proof.Machine
end

