-- ==== Sys2Proof/Machine/Wake.lean ====
section
/-! DEFINITION. The restart of the Link die, the configuration image, the wake order and its sources, the
keep-alive regulator and power failures (R17, R36, R40, R318, R337 to R355, R381). -/

namespace Sys2Proof.Machine

open Sys2Proof

/-! ## What a wake delivers (R17, R175, R280, R354) -/

/-- TB_TIME at an AON stamp (R351). -/
def stampTicks (s : State) (stamp : Nat) : Nat := now s - (ticksOf s.aon.time - ticksOf stamp)

/-- An event of the crossing queue reaches the Link die; EV_RESUME is entered in the black box with it. -/
def deliverX (s : State) (x : XEv) : State :=
  let s1 := raiseTo s (fun d => evFor x.ev d s.doms[d]) false (stampTicks s x.stamp) x.ev
  if x.ev.code = 0x12 then bbLink s1 0x36 0 0#16 0#16 else s1

/-- The crossing queue is delivered in order; dropped events and every held pointer mismatch are reported. -/
def deliverQueue (s : State) : State :=
  let n := s.aon.xqDrop
  let e := s.aon.xqErr
  let s1 := forEach s.aon.xq deliverX { s with aon := { s.aon with xq := [], xqDrop := 0, xqErr := [] } }
  let s2 := if n = 0 then s1 else bbPow s1 0x14 0 (w16 n) 0#16
  forEach e queueReport s2

/-- EV_WAKE for the causes that are replayed (R354). -/
def replayWake (s : State) : State :=
  let s1 := { s with pm := { s.pm with replay := 0#16 } }
  if s.pm.replay = 0#16 then s1
  else raise s1 { code := 0x13, src := 0, w1 := s.pm.wakeCause }

/-- One word of the held management frame: what missed the Link die is written now (R354). -/
def heldWord (s : State) (x : Nat × Word) : State :=
  match mgReg x.1 with
  | some r => if onPowerDie r then s else mgWord s x.1 x.2
  | none => s

/-- The held management frame is applied. -/
def applyHeld (s : State) : State :=
  match s.pm.mgHeld with
  | some (a, ws) => forEach (burst a ws) heldWord { s with pm := { s.pm with mgHeld := none } }
  | none => s

/-- Beacons that the Link die owes start now (R175). -/
def driveDue (s : State) : State :=
  forEach dnAll (fun a m => modAon a (dnPort m) fun p =>
    if p.bcnDue then { p with bcn := .drive, bcnDue := false } else p) s

/-- What follows once the device is in RUN (R17, R175, R318, R354). -/
def arrive (s : State) : State := startWaiting (driveDue (applyHeld (replayWake (deliverQueue s))))

/-- Every port is held, or has nothing to hold: DISABLED, FAILED, or in DETECT without a signal (R336, R355). -/
def allHeld (s : State) : Bool := portAll.all (portQuiet s)

/-- The entries in the black-box write FIFO reach B0 (R368). -/
def drainBb (s : State) : State := forEach s.que.bbf (fun a _ => bbArrive a) s

/-- A bus-suspend request that a restart has met is evaluated afresh, if every port is held now, once the entries
that the restart itself wrote are in B0 (R355; DEDUCED, log 166). -/
def suspendAfresh (s : State) : State :=
  if !s.pm.suspendReq then s
  else if allHeld s then busSuspendReq (drainBb s)
  else { s with pm := { s.pm with suspendReq := false } }

/-! ## Restart (R40, R341, R342, R349, R351, R356, R377) -/

/-- Apply B1's stow set as register writes, in table order (R341). -/
def applyB1 (s : State) : State :=
  match s.pm.b1 with
  | some ws => forEach (stowSet.zip ws) (fun a x => writeReg a .restore x.2 x.1) s
  | none => s

/-- B1 is applied at this restart. -/
def b1Applies (s : State) : Bool := s.pm.restart = 0 && s.pm.b1.isSome

/-- The watchdog at the release of the Link die reset: counting goes on, and restarts unless this is a
wake from STOW (R356, R358). -/
def wdtRelease (p : Pm) (w : Wdt) : Wdt :=
  { w with paused := false, count := if p.restart = 0 || w.grace then w.count else 0 }

/-- TB_TIME at the release (R351). -/
def startTime (s : State) : BitVec 64 := if s.pm.restart = 2 then 0#64 else BitVec.ofNat 64 (ticksOf s.aon.time)

/-- The Link die's reset is released: registers at their reset values, CORE on FIRC, RUN. -/
def releaseCore (s : State) (sfdp : Option Sfdp) : State :=
  { s with
    pm := { s.pm with st := .run, idle := 0, attempts := 0, puWait := false, why := 0
                      b1Ok := b1Applies s, b2Ok := false, b3Ok := false, b4Ok := false }
    wdt := wdtRelease s.pm s.wdt
    ln := Ln.reset (!headless s) idUid
    tb := { s.tb with time := startTime s }
    fl := { s.fl with sfdp := sfdp, op := if flushWaits s.bb && s.fl.op.isSome then s.fl.op else s.fl.left }
    bb := { s.bb with nosusp := sfdp.any fun x => !x.suspend } }

/-- A port with SUSP = 1 is held from the release on (R172). -/
def suspAll (s : State) : State := forEach dnAll (fun a m => suspHold a (dnPort m)) s

/-- The image is loaded when STRAPS.FL = 1 and B1 has not been applied (R342). -/
def loadImage (s : State) : State := if bit s.rst.straps 3 && !s.pm.b1Ok then imageStart s else s

/-- WAKE is recorded at the end of a wake from FEATHER or STOW. -/
def recordWake (s : State) : State := bbPow s 0x11 0 s.pm.wakeCause (pmStat s)

/-- The operation that a flush left suspended is resumed, once (R377). -/
def resumeLeft (s : State) : State :=
  if s.fl.leftDue && !flushWaits s.bb then emit { s with fl := { s.fl with leftDue := false } } (.flashCmd true) else s

/-- The release of the Link die reset, and what follows up to RUN (R349): `sfdp` is what the SFDP read of
the flash gave (R380). -/
def linkRelease (s : State) (sfdp : Option Sfdp) : State :=
  let s1 := bbLink (resumeLeft (releaseCore s sfdp)) 0x01 0 s.rst.cause s.pm.wakeCause
  let s2 := if b1Applies s then applyB1 s1 else s1
  let s3 := if s.pm.restart = 0 then recordWake s2 else s2
  suspendAfresh (scanStart (loadImage (arrive (suspAll s3))))

/-- The wake order has reached the release (R349). -/
def mayRelease (s : State) : Bool :=
  s.pm.st = .waking && s.pm.pwrEn && (bit s.pm.pwrSeq 0 || s.pm.corePg)

/-- Row LINK_DIE_RESET_RELEASE (R349). -/
def execLinkDieResetRelease (sfdp : Option Sfdp) (s : State) : Outcome :=
  onPower s fun s => whenDo (mayRelease s) (linkRelease · sfdp) s

/-! ## The image (R36, R381) -/

/-- Why the check of an image fails, 0 when it passes (R381). -/
def imageBad (ws : List Word) : Nat :=
  let n := (wAt ws 2).toNat
  let recs := (ws.drop 6).take (2 * n)
  let crc := (wAt ws 4).toNat * 65536 + (wAt ws 5).toNat
  if wAt ws 1 != 1#16 then 1
  else if n = 0 || 5000 < n then 2
  else if recs.length != 2 * n || crc32 (bytesBE (ws.take 4 ++ recs)) != crc then 3
  else if (List.range n).any fun i => 0x3FFF < (wAt recs (2 * i)).toNat then 4
  else 0

/-- One record of the image: a word address and its data. -/
def imageRecord (recs : List Word) (s : State) (i : Nat) : State :=
  if linkOn s then
    (match regAtWord (wAt recs (2 * i)).toNat with
      | some r => writeReg s .image (wAt recs (2 * i + 1)) r
      | none => s)
  else s

/-- The load ends. -/
def imageOver (s : State) : State := { s with glob := { s.glob with cfgBusy := false, cfgLoad := false } }

/-- An image failed its check (R36): there is no valid one, but after a failed read, 5, which tells nothing. -/
def imageFail (s : State) (ws : List Word) (why : Nat) : State :=
  bbLink { s with glob := { s.glob with cfgErr := true, imgSeen := if why = 5 then none else some 0 } } 0x04 0
    (w16 why) (wAt ws 2)

/-- An image is applied in order; FLAGS take effect after the last record (R381). -/
def imageApply (s : State) (ws : List Word) : State :=
  let n := (wAt ws 2).toNat
  let s1 := forEach (List.range n) (imageRecord ((ws.drop 6).take (2 * n))) s
  bbLink { s1 with glob := { s1.glob with cfgDone := true, imgCount := n, imgSeen := some n, imgFlags := fld (wAt ws 3) 0 3 } }
    0x03 0 (w16 n) 0#16

/-- The image read and its check end (R36). -/
def imageChecked (s : State) (readOk : Bool) (ws : List Word) : State :=
  if !readOk then scanLate (imageOver (imageFail s ws 5))
  else if wAt ws 0 != 0x584B#16 then scanLate (imageOver { s with glob := { s.glob with cfgNone := true, imgSeen := some 0 } })
  else if imageBad ws != 0 then scanLate (imageOver (imageFail s ws (imageBad ws)))
  else scanStart (imageOver (imageApply s ws))

/-- Row CFG_IMAGE_CHECKED (R36, R381): the words read from the flash, from address 0. -/
def execCfgImageChecked (readOk : Bool) (ws : List Word) (s : State) : Outcome :=
  onLink s fun s => whenDo s.glob.cfgBusy (imageChecked · readOk ws) s

/-! ## Wakes (R347 to R351, R354) -/

/-- Steps 1 and 2 of the wake order from STOW; PME wakes the host (R348, R349). -/
def beginWake (s : State) : State :=
  pmeWake { s with
    pm := { s.pm with
      st := .waking, restart := 0, kregLow := false, boost := false, pwrEn := true, corePg := false
      attempts := 0, puWait := false, lossWait := false } }

/-- The banks that a wake from FEATHER finds retained: those that were selected and pass their check (R342). -/
def banksKept (s : State) : Word := s.pm.retUsed &&& Config.banksGood s.fresh

/-- A wake from FEATHER (R342, R350, R351).  A scan that LG_EN asked for in FEATHER runs now (R374). -/
def featherWake (s : State) : State :=
  let kept := banksKept s
  let s1 := bump (bankReset kept s)
  let gone := ticksOf (s.aon.time - s.pm.featherAon)
  suspendAfresh (scanLate (arrive (recordWake { s1 with
    pm := { s1.pm with st := .run, idle := 0, why := 0, b1Ok := false, b2Ok := bit kept 1
                       b3Ok := bit kept 2, b4Ok := bit kept 3 }
    wdt := { s1.wdt with paused := false }
    tb := { s1.tb with time := s1.tb.time + BitVec.ofNat 64 gone } })))

/-- Record causes: the first sets WAKE_TIME; those of an entry with WAKE_MODE = 0 are not replayed. -/
def noteCause (hits : Word) (during : Bool) (time : Nat) (p : Pm) : Pm :=
  { p with
    wakeCause := p.wakeCause ||| hits
    wakeTime := if p.wakeCause &&& 0x3FFF#16 = 0#16 then time else p.wakeTime
    replay := p.replay ||| (if during then hits &&& p.wakeMode else hits) }

/-- Sources that act in the present state: PCIE only in FEATHER (R347). -/
def wakeHits (s : State) (srcs : Word) : Word :=
  srcs &&& s.pm.wakeEn &&& (if s.pm.st = .feather then 0x3FFF#16 else 0x1FFF#16)

/-- Wake sources are recognised; `during` says that this was while the entry ran (R347, R354).  They act in
FEATHER and in STOW, and while the wake from STOW runs; a reset's or power-on's own wake order knows none. -/
def wakeHit (s : State) (srcs : Word) (during : Bool) : State :=
  let hits := wakeHits s srcs
  if hits = 0#16 then s
  else
    let s1 := { s with pm := noteCause hits during s.aon.time s.pm }
    match s.pm.st with
    | .stow => beginWake s1
    | .feather => featherWake s1
    | .waking => if s.pm.restart = 0 then s1 else s
    | _ => s

/-- WAKE pins whose edge or level is recognised as the pins take new levels (R347). -/
def pinHits (p : Pm) (pins : Word) : Word :=
  let act := (pins ^^^ p.wakePol) &&& 0x00FF#16
  (act &&& ~~~ pinsActive p &&& p.wakeEdge) ||| (act &&& ~~~ p.wakeEdge)

/-- Wake sources (R347, R354): the levels of WAKE0 to WAKE7, and the other sources recognised. -/
def wakeSource (s : State) (pins : BitVec 8) (srcs : Word) (during : Bool) : State :=
  let w : Word := pins.setWidth 16
  let hits := pinHits s.pm w ||| (srcs &&& 0x3F00#16)
  wakeHit { s with pm := { s.pm with pins := w } } hits during

/-- Row WAKE_SOURCE (R347, R354). -/
def execWakeSource (pins : BitVec 8) (srcs : Word) (during : Bool) (s : State) : Outcome :=
  onPower s (wakeSource · pins srcs during)

/-- Row CORE_PG_RISE (R349). -/
def execCorePgRise (s : State) : Outcome :=
  onPower s fun s => whenDo (s.pm.st = .waking && s.pm.pwrEn)
    (fun s => { s with pm := { s.pm with corePg := true } }) s

/-- Row PERST_RELEASE (R38, R347): the pin is released and link training starts; it is a wake source while
the endpoint is enabled. -/
def execPerstRelease (s : State) : Outcome :=
  .next (whenDo s.rst.perst (fun s =>
    let s1 := { s with rst := { s.rst with perst := false } }
    if powerOn s && epStrap s then wakeHit s1 0x0800#16 false else s1) s)

/-- The wake bit of SD rising on port n: UP in DETECT, or a port whose EN was 1 at entry (R347).  Without the
Link die, UP is in DETECT when its EN was 1. -/
def sdWake (s : State) (n : PortN) : Word :=
  if n = 0 then
    (if (if s.pm.st = .feather then s.ports[n].st = .detect else s.aon.ports[n].enCopy) && s.aon.ports[n].hold = .none
      then 0x0100#16 else 0#16)
  else if (if s.pm.st = .feather then s.ports[n].en else s.aon.ports[n].enCopy) then 0x0200#16 else 0#16

/-- SD drops on a link whose partner feathers: a packet being received is discarded, and its copies end
with reason 3 (R113, When events coincide of chapter 8). -/
def sdDrop (s : State) (n : PortN) : State :=
  match s.ports[n].rxCur with
  | some pid => if linkOn s && canFeather s.ports[n] s.aon.ports[n] then dropRx s n pid 3 false else s
  | none => s

/-- SD changes on port n. -/
def sdChange (s : State) (n : PortN) (level : Bool) : State :=
  let s1 := noteSd n level s
  if level && !s.aon.ports[n].sd then wakeHit s1 (sdWake s n) false
  else if !level then sdDrop s1 n
  else s1

/-- Row SD_CHANGE (R179, R347): on a feathering link SD follows the partner's darkness and nothing goes
down; in a low state its rise is a wake source. -/
def execSdChange (n : PortN) (level : Bool) (s : State) : Outcome := onPower s (sdChange · n level)

/-! ## Power failures (R352, R353) -/

/-- After the third failure: PUFAIL, and STOW, where the watchdog does not count and WHY reads 0 (R336).  During
a grace that counts no lower state is entered: the device stays as it is until grace ends; one that is paused
since STOW leaves the device in STOW (R352, R358; log 23). -/
def powerUpStop (s : State) : State :=
  let s1 := { s with pm := { s.pm with puFail := true, attempts := 0, puWait := false } }
  if graceCounts s.wdt then s1
  else { s1 with
    pm := { s1.pm with st := .stow, why := 0, boost := bit s.pm.kregCtrl 0 }
    wdt := { s1.wdt with paused := true }
    clk := { s1.clk with xinOk := false } }

/-- CORE_PG did not rise in time: PWR_EN goes low, and another attempt follows in 100 ms, unless this was the
third (R352). -/
def powerUpFail (s : State) : State :=
  let n := s.pm.attempts + 1
  let s1 := bbPow { s with pm := { s.pm with pwrEn := false, attempts := n, puWait := true } } 0x12 0 (w16 n) 0#16
  if 3 ≤ n then powerUpStop s1 else s1

/-- Row POWER_UP_FAILURE (R352). -/
def execPowerUpFailure (s : State) : Outcome :=
  onPower s fun s => whenDo (s.pm.st = .waking && s.pm.pwrEn && !s.pm.corePg && !bit s.pm.pwrSeq 0) powerUpFail s

/-- Row POWER_UP_RETRY (R352): 100 ms later, another attempt. -/
def execPowerUpRetry (s : State) : Outcome :=
  onPower s fun s => whenDo (s.pm.st = .waking && s.pm.puWait) raisePwr s

/-- The Link die loses power in RUN or FEATHER (R18, R353). -/
def corelossStart (s : State) : State :=
  let s1 := cutLink s
  bbPow { s1 with pm := { s1.pm with
    pwrEn := false, corePg := false, lossWait := true, wakeCause := s1.pm.wakeCause ||| 0x8000#16 } }
    0x13 0 (pmStat s) 0#16

/-- Row LINK_DIE_POWER_LOSS (R353): with MODE = 1 CORE_PG is ignored. -/
def execLinkDiePowerLoss (s : State) : Outcome :=
  onPower s fun s => whenDo ((s.pm.st = .run || s.pm.st = .feather) && s.pm.pwrEn && !bit s.pm.pwrSeq 0) corelossStart s

/-- Row CORELOSS_RESTART (R353). -/
def execCorelossRestart (s : State) : Outcome := onPower s fun s => whenDo s.pm.lossWait raisePwr s

/-! ## The keep-alive regulator (R343, R344) -/

/-- Row KREG_LOW_POWER (R340, R343).  A management frame that runs keeps normal mode with MG_BOOST = 1 (R344). -/
def execKregLowPower (s : State) : Outcome :=
  onPower s fun s => whenDo (s.pm.st = .stow && bit s.pm.kregCtrl 0 && !s.pm.boost && s.bb.flush.isNone)
    (fun s => { s with pm :=
      if s.mg.cs && bit s.pm.kregCtrl 1 then { s.pm with boost := true } else { s.pm with kregLow := true } }) s

/-- Row KREG_BOOST_END (R344): no flush runs, and no management frame that boosts. -/
def execKregBoostEnd (s : State) : Outcome :=
  onPower s fun s => whenDo (s.pm.st = .stow && s.pm.boost && !(s.mg.cs && bit s.pm.kregCtrl 1) && s.bb.flush.isNone)
    (fun s => { s with pm := { s.pm with boost := false, kregLow := bit s.pm.kregCtrl 0 } }) s

/-- The low-power load is heavy. -/
def kregHeavy (s : State) : State :=
  let s1 := { s with pm := { s.pm with heavy := true } }
  bbPow s1 0x15 0 (kregStat s1.pm) 0#16

/-- Row KREG_HEAVY (R343). -/
def execKregHeavy (s : State) : Outcome := onPower s fun s => whenDo s.pm.kregLow kregHeavy s

/-- MG_CS_N falls: a boost of KREG in STOW, and the MG wake source (R344, R347). -/
def csFall (s : State) : State :=
  let boost := s.pm.st = .stow && bit s.pm.kregCtrl 1 && s.pm.kregLow
  let p := if boost then { s.pm with kregLow := false, boost := true } else s.pm
  wakeHit { s with mg := { s.mg with cs := true }, pm := p } 0x1000#16 false

/-- Row MG_CS_N_FALLING (R344, R347). -/
def execMgCsNFalling (s : State) : Outcome := onPower s csFall

/-! ## Idle timers (R337) -/

/-- The count has reached a timer's setting, in units of 32 LPO cycles; 0 never acts. -/
def idleOver (s : State) (units : Word) : Bool := units != 0#16 && 32 * units.toNat ≤ s.pm.idle

/-- The FEATHER conditions fail as a timer is looked at: both timers are cleared, and WHY shows the condition
(R336, R337). -/
def idleFails (s : State) : State := denyReq { s with pm := { s.pm with idle := 0 } } (whyFeather s)

/-- The FEATHER timer reaches its count. -/
def featherExpiry (s : State) : State :=
  if !idleOver s s.pm.featherIdle then s
  else if whyFeather s != 0 then idleFails s
  else enterFeather s

/-- Row FEATHER_IDLE_EXPIRY (R337). -/
def execFeatherIdleExpiry (s : State) : Outcome := onLink s featherExpiry

/-- The STOW timer reaches its count, while the FEATHER and the STOW conditions hold, in RUN or in FEATHER. -/
def stowExpiry (s : State) : State :=
  if !idleOver s s.pm.stowIdle || !(s.pm.st = .feather || s.pm.st = .run) then s
  else if whyFeather s != 0 then idleFails s
  else if whyStow s != 0 then denyReq s (whyStow s)
  else enterStow s 1

/-- Row STOW_IDLE_EXPIRY (R337). -/
def execStowIdleExpiry (s : State) : Outcome := onPower s stowExpiry

/-! ## VLINK (R318) -/

/-- Row VLINK_LOW (R318, R376). -/
def execVlinkLow (s : State) : Outcome :=
  onPower s fun s =>
    let s1 := { s with ppsg := { s.ppsg with vlow := true } }
    if bit s.bb.ctrl 4 && !s.ppsg.vlow then flushTrigger s1 .vlink else s1

/-- Row VLINK_RESTORED (R318, R347). -/
def execVlinkRestored (s : State) : Outcome :=
  onPower s fun s => whenDo s.ppsg.vlow
    (fun s => wakeHit (startWaiting { s with ppsg := { s.ppsg with vlow := false } }) 0x0400#16 false) s

/-! ## A beacon from above (R28, R174, R175) -/

/-- A held port when the beacon is recognised: the forwarder serves it, taking over a Dn_BCN that the Link
die drives already, or the Link die will (R175). -/
def beaconPort (run : Bool) (n : PortN) (a : AonPort) : AonPort :=
  if n = 0 || a.hold = .none || bit a.feather 3 then a
  else if bit a.feather 2 then
    (match a.bcn with
      | .fwd _ => a
      | _ => { a with bcn := .fwd false })
  else if a.bcn != .none then a
  else if run then { a with bcn := .drive }
  else { a with bcnDue := true }

/-- UP_BCN has been asserted for 1 µs: recognised while UP is held, once for each assertion (R174). -/
def beaconAbove (s : State) : State :=
  let s1 := { s with aon := { s.aon with upBcn := true } }
  if s.aon.ports[(0 : PortN)].hold = .none || s.aon.bcnSeen then s1
  else
    wakeHit { s1 with aon := { s1.aon with
      bcnSeen := true
      ports := Vector.ofFn fun n : PortN => beaconPort (linkOn s) n s.aon.ports[n] } } 0x0100#16 false

/-- Row BEACON_FROM_ABOVE (R174, R175). -/
def execBeaconFromAbove (s : State) : Outcome := onPower s beaconAbove

end Sys2Proof.Machine
end

