-- ==== Sys2Proof/Machine/Hub.lean ====
section
/-! DEFINITION. The hub function (R97 to R100): the queue of requests, retries, the status of a request,
and what each request does and answers. -/

namespace Sys2Proof.Machine

open Sys2Proof

/-! ## The setup block (R97) -/

/-- REQ. -/
def hubReq (p : Pkt) : Nat := fld (wAt p.payload 0) 8 8

/-- FLAGS: DIR in bit 7. -/
def hubFlags (p : Pkt) : Nat := fld (wAt p.payload 0) 0 8

/-- VALUE. -/
def hubValue (p : Pkt) : Word := wAt p.payload 1

/-- INDEX. -/
def hubIndex (p : Pkt) : Nat := (wAt p.payload 2).toNat

/-- LENGTH. -/
def hubLen (p : Pkt) : Nat := (wAt p.payload 3).toNat

/-- Word i of the data that follows the setup block. -/
def hubData (p : Pkt) (i : Nat) : Word := wAt p.payload (4 + i)

/-- The setup block as bytes. -/
def hubBlock (p : Pkt) : List Nat := (payloadBytes p).take 8

/-- The downstream port that INDEX names, 1 to 16. -/
def hubDn (p : Pkt) : DnN := ⟨(hubIndex p - 1) % 16, Nat.mod_lt _ (by decide)⟩

/-- INDEX names a downstream port. -/
def hubDnOk (p : Pkt) : Bool := 1 ≤ hubIndex p && hubIndex p ≤ 16

/-- The port that INDEX names, 0 to 16. -/
def hubPort (p : Pkt) : PortN := ⟨hubIndex p % 17, Nat.mod_lt _ (by decide)⟩

/-! ## Status (R98) -/

/-- The faults of form: 2 BADLEN for a short block, 1 BADREQ for a wrong DIR or flag, 2 BADLEN for a
LENGTH not allowed or that disagrees with the payload; 0 for none. -/
def hubForm (p : Pkt) (toRoot lenOk : Bool) : Nat :=
  let n := (payloadBytes p).length
  if n < 8 then 2
  else if hubFlags p != (if toRoot then 128 else 0) then 1
  else if !lenOk || n != 8 + (if toRoot then 0 else hubLen p) then 2 else 0

/-- The status of a request: its form, then DENIED, BADVAL and NOTREADY. -/
def hubStatus (p : Pkt) (toRoot lenOk denied valOk ready : Bool) : Nat :=
  if hubForm p toRoot lenOk != 0 then hubForm p toRoot lenOk
  else if denied then 4 else if !valOk then 3 else if !ready then 5 else 0

/-! ## Answers (R97, R99) -/

/-- The response to the request in `p`: ADDR, EPOCH and TAG are the request's, ENDP and HOP are 0. -/
def hubAnswer (p : Pkt) (odd : Bool) (ws : List Word) : Pkt where
  hdr := { p.hdr with typ := 14#4, odd := odd, pcls := false, hop := 0#10, endp := 0#5, tsb := 0#8 }
  payload := ws

/-- Hand the response to a unicast request to the ULA, and keep it (R94, R99). -/
def hubReply (s : State) (r : HubReq) (status : Nat) (odd : Bool) (data : List Word) : State :=
  let ws := w16 status :: data
  let s1 := ulaPush s 16 (ownTx (hubAnswer r.pkt odd ws) .none)
  if r.mc then s
  else { s1 with bus := { s1.bus with
    kept := some { tag := r.pkt.hdr.tag, block := hubBlock r.pkt, odd := odd, words := ws } } }

/-- End a request that writes: its effect when the status is OK, then its response. -/
def hubDo (s : State) (r : HubReq) (status : Nat) (f : State → State) : State :=
  hubReply (if status = 0 then f s else s) r status false []

/-- End a request that reads. -/
def hubGet (s : State) (r : HubReq) (status : Nat) (bytes : List Nat) : State :=
  if status = 0 then hubReply s r 0 (decide (bytes.length % 2 = 1)) (wordsOfBytes bytes)
  else hubReply s r status false []

/-! ## Requests that no row carries out (R98, R100) -/

/-- Features that SET_PORT_FEATURE and CLEAR_PORT_FEATURE serve (Port features). -/
def hubFeatures (req : Nat) : List Nat := if req = 4 then [1, 2, 4, 5, 6, 7] else [1, 3, 5, 6, 7]

/-- The status of a request whose setup block is short, whose REQ is unknown, or whose feature is not
served in its direction. -/
def hubBad (p : Pkt) : Option Nat :=
  if (payloadBytes p).length < 8 then some 2
  else if hubReq p = 0 || 16 < hubReq p then some 1
  else if (hubReq p = 4 || hubReq p = 5) && !(hubFeatures (hubReq p)).contains (hubValue p).toNat then
    some (hubStatus p false (hubLen p = 0) false false true)
  else none

/-- The front of the queue leaves it. -/
def hubPop (s : State) : State := { s with bus := { s.bus with hubQ := s.bus.hubQ.drop 1 } }

/-- Answer up to `n` such requests at the front of the queue. -/
def hubDrain : Nat → State → State
  | 0, s => s
  | n + 1, s =>
    match s.bus.hubQ.head?.bind fun r => (hubBad r.pkt).map fun st => (r, st) with
    | some (r, st) => hubDrain n (hubReply (hubPop s) r st false [])
    | none => s

/-! ## Arrival (R94, R99) -/

/-- HUBNAK advances, modulo 256. -/
def countHubnak (s : State) : State := { s with bus := { s.bus with hubnak := (s.bus.hubnak + 1) % 256 } }

/-- The same TAG and an identical setup block (R99). -/
def hubSame (p : Pkt) (r : HubReq) : Bool := !r.mc && r.pkt.hdr.tag = p.hdr.tag && hubBlock r.pkt = hubBlock p

/-- The request repeats the kept one. -/
def hubRepeats (s : State) (p : Pkt) : Option Kept :=
  s.bus.kept.filter fun k => k.tag = p.hdr.tag && k.block = hubBlock p

/-- Queue a request. -/
def hubPush (s : State) (r : HubReq) : State := { s with bus := { s.bus with hubQ := s.bus.hubQ ++ [r] } }

/-- A request finds its place, if fewer than four are held. -/
def hubPlace (s : State) (r : HubReq) : State :=
  if s.bus.hubQ.length < 4 then hubDrain 4 (hubPush s r)
  else if r.mc then countHubnak s
  else ulaPush (countHubnak s) 16 (ownTx (hshk r.pkt.hdr 0x02 []) .none)

/-- A hub request arrives: multicast and broadcast ones act only for SET_CLOCK_PLAN and SERVICE_WATCHDOG;
a retry is answered from what is kept, or with the first copy. -/
def hubArrive (s : State) (x : Inbox) : State :=
  if x.mc then
    if hubReq x.pkt = 0x0A || hubReq x.pkt = 0x0E then hubPlace s { pkt := x.pkt, mc := true } else s
  else if s.bus.hubQ.any (hubSame x.pkt) then s
  else match hubRepeats s x.pkt with
    | some k => ulaPush s 16 (ownTx (hubAnswer x.pkt k.odd k.words) .none)
    | none => hubPlace s { pkt := x.pkt, mc := false }

/-- Row HUBREQ_RX (R87, R94, R97, R99). -/
def execHubreqRx (s : State) : Outcome :=
  onLink s fun s => match takeInbox s (fun x => x.dest = .hub) with
    | some (x, s1) => hubArrive s1 x
    | none => s

/-- Carry out the request at the front of the queue when `f` names it (R99). -/
def onHub (f : Pkt → Bool) (act : State → HubReq → State) (s : State) : State :=
  match s.bus.hubQ.head? with
  | none => s
  | some r => if (hubBad r.pkt).isNone && f r.pkt then hubDrain 4 (act (hubPop s) r) else s

/-- A row of the hub function for REQ `req`. -/
def hubRow (req : Nat) (act : State → HubReq → State) (s : State) : Outcome :=
  onLink s (onHub (fun p => hubReq p = req) act)

/-! ## Reading requests -/

/-- GET_NODE_INFO. -/
def getNodeInfo (s : State) (r : HubReq) : State :=
  let n := hubLen r.pkt
  hubGet s r (hubStatus r.pkt true (1 ≤ n && n ≤ 32) false (hubValue r.pkt = 0#16 && hubIndex r.pkt = 0) true)
    ((bytesBE (nodeInfo s)).take n)

/-- Row GET_NODE_INFO (R100). -/
def execGetNodeInfo (s : State) : Outcome := hubRow 0x01 getNodeInfo s

/-- GET_PORT_STATUS. -/
def getPortStatus (s : State) (r : HubReq) : State :=
  hubGet s r (hubStatus r.pkt true (hubLen r.pkt = 16) false (hubValue r.pkt = 0#16 && hubIndex r.pkt ≤ 16) true)
    (bytesBE (portInfo s (hubPort r.pkt)))

/-- Row GET_PORT_STATUS (R100). -/
def execGetPortStatus (s : State) : Outcome := hubRow 0x03 getPortStatus s

/-- GET_METER. -/
def getMeter (s : State) (r : HubReq) : State :=
  let k := hubIndex r.pkt
  hubGet s r (hubStatus r.pkt true (hubLen r.pkt = if k = 0 then 228 else 18) false
      ((hubValue r.pkt).toNat ≤ 1 && k ≤ 16) true)
    (bytesBE (meterInfo s (hubValue r.pkt = 1#16) k))

/-- Row GET_METER (R100, R328, R333). -/
def execGetMeter (s : State) : Outcome := hubRow 0x0B getMeter s

/-- READ_LOG. -/
def readLog (s : State) (r : HubReq) : State :=
  let n := hubLen r.pkt
  let first := (hubValue r.pkt).toNat
  hubGet s r (hubStatus r.pkt true (n % 16 = 0 && 16 ≤ n && n ≤ 1008) false (first ≤ 255 && hubIndex r.pkt = 0) true)
    (bytesBE ((logEntries s.bb first (n / 16)).flatMap fun e => e.toList))

/-- Row READ_LOG (R100, R373). -/
def execReadLog (s : State) : Outcome := hubRow 0x0D readLog s

/-- GET_SURVEY_RECORD. -/
def getSurveyRecord (s : State) (r : HubReq) : State :=
  hubGet s r (hubStatus r.pkt true (hubLen r.pkt = 32) false (hubValue r.pkt = 0#16 && hubIndex r.pkt = 0)
      s.sur.kept.isSome)
    (bytesBE (s.sur.kept.getD []))

/-- Row GET_SURVEY_RECORD (R100). -/
def execGetSurveyRecord (s : State) : Outcome := hubRow 0x0F getSurveyRecord s

/-! ## SET_ADDRESS -/

/-- VALUE is an address that a node may have, or unassigns it. -/
def addressOk (v : Word) : Bool := (1 ≤ v.toNat && v.toNat ≤ 0xEFFF) || v = 0xFFFE#16

/-- The address of the hub node, or of the local node. -/
def putAddress (loc : Bool) (v : Word) (b : Bus) : Bus := if loc then { b with loc := v } else { b with node := v }

/-- SET_ADDRESS: the address changes after the response has been queued. -/
def setAddress (s : State) (r : HubReq) : State :=
  let i := hubIndex r.pkt
  let v := hubValue r.pkt
  let st := hubStatus r.pkt false (hubLen r.pkt = 0) false (addressOk v && (i = 0 || (i = 0x11 && s.ln.en))) true
  let s1 := hubDo s r st id
  if st = 0 then { s1 with bus := putAddress (i = 0x11) v s1.bus } else s1

/-- Row SET_ADDRESS (R100). -/
def execSetAddress (s : State) : Outcome := hubRow 0x02 setAddress s

/-! ## Port features -/

/-- A row of SET_PORT_FEATURE (REQ 4) or CLEAR_PORT_FEATURE (REQ 5). -/
def featureRow (req feature : Nat) (denied : State → DnN → Bool) (f : State → DnN → State) (s : State) : Outcome :=
  onLink s (onHub (fun p => hubReq p = req && (hubValue p).toNat = feature) fun s r =>
    let m := hubDn r.pkt
    hubDo s r (hubStatus r.pkt false (hubLen r.pkt = 0) (hubDnOk r.pkt && denied s m) (hubDnOk r.pkt) true)
      fun s => f s m)

/-- Never refused in the present state. -/
def neverDenied (_ : State) (_ : DnN) : Bool := false

/-- Row SET_PORT_FEATURE_ENABLE (R77, R100). -/
def execSetPortFeatureEnable (s : State) : Outcome :=
  featureRow 4 1 neverDenied (fun s m => portEnWrite s (dnPort m) true) s

/-- Row CLEAR_PORT_FEATURE_ENABLE (R76, R100). -/
def execClearPortFeatureEnable (s : State) : Outcome :=
  featureRow 5 1 neverDenied (fun s m => portEnWrite s (dnPort m) false) s

/-- Row SET_PORT_FEATURE_RETRAIN (R72, R100). -/
def execSetPortFeatureRetrain (s : State) : Outcome :=
  featureRow 4 2 neverDenied (fun s m => retrainWrite s (dnPort m)) s

/-- Row CLEAR_PORT_FEATURE_EVENTS (R100). -/
def execClearPortFeatureEvents (s : State) : Outcome :=
  featureRow 5 3 neverDenied (fun s m => writeReg s .hub 0x03FF#16 (.port (dnPort m) .evt)) s

/-- RST starts on Dm with argument 1, a tree reset, or 2, a port reset: sets between packets, repeated while it
lasts (R55, R63; `lineFill`). -/
def driveRst (arg : Nat) (s : State) (m : DnN) : State :=
  sendTs (emit (modPort s (dnPort m) fun p => { p with rstOut := true, rstArg := arg }) (.rst m arg true)) (dnPort m) .rst
    (w16 arg) 0#16

/-- Row SET_PORT_FEATURE_PORT_RESET (R63, R100). -/
def execSetPortFeaturePortReset (s : State) : Outcome :=
  featureRow 4 4 (fun s m => !isUp s.ports[dnPort m]) (driveRst 2) s

/-- FRAG_EN of Dm. -/
def putFrag (v : Bool) (s : State) (m : DnN) : State := modPort s (dnPort m) fun p => { p with fragEn := v }

/-- Row SET_PORT_FEATURE_FRAG (R100). -/
def execSetPortFeatureFrag (s : State) : Outcome := featureRow 4 5 neverDenied (putFrag true) s

/-- Row CLEAR_PORT_FEATURE_FRAG (R100). -/
def execClearPortFeatureFrag (s : State) : Outcome := featureRow 5 5 neverDenied (putFrag false) s

/-- One bit of PORT_FEATHER of Dm. -/
def putFeather (i : Nat) (v : Bool) (s : State) (m : DnN) : State :=
  featherWrite s (dnPort m) (setBit s.aon.ports[dnPort m].feather i v)

/-- Row SET_PORT_FEATURE_SUSPEND (R172). -/
def execSetPortFeatureSuspend (s : State) : Outcome := featureRow 4 6 neverDenied (putFeather 3 true) s

/-- Row CLEAR_PORT_FEATURE_SUSPEND (R173). -/
def execClearPortFeatureSuspend (s : State) : Outcome := featureRow 5 6 neverDenied (putFeather 3 false) s

/-- Row SET_PORT_FEATURE_BCN_FWD (R175). -/
def execSetPortFeatureBcnFwd (s : State) : Outcome := featureRow 4 7 neverDenied (putFeather 2 true) s

/-- Row CLEAR_PORT_FEATURE_BCN_FWD (R175). -/
def execClearPortFeatureBcnFwd (s : State) : Outcome := featureRow 5 7 neverDenied (putFeather 2 false) s

/-! ## Tables and crews -/

/-- The addresses that a range matches: none outside 0x0001 to 0xEFFF (PORT_RANGE_LO, PORT_RANGE_HI). -/
def rangeOf (lo hi : Word) : Nat × Nat := (max 1 lo.toNat, min 0xEFFF hi.toNat)

/-- Two ranges share an address. -/
def overlaps (a b : Nat × Nat) : Bool := max a.1 b.1 ≤ min a.2 b.2

/-- The range contains an address. -/
def contains (a : Nat × Nat) (v : Word) : Bool := a.1 ≤ v.toNat && v.toNat ≤ a.2

/-- The range may be given to Dm: no other port's range, not NODE_ADDR, not an assigned LOCAL_ADDR. -/
def rangeFree (s : State) (m : DnN) (a : Nat × Nat) : Bool :=
  !contains a s.bus.node && !contains a s.bus.loc &&
    dnAll.all fun o => o = m || !overlaps a (rangeOf s.ports[dnPort o].rangeLo s.ports[dnPort o].rangeHi)

/-- SET_ROUTE. -/
def setRoute (s : State) (r : HubReq) : State :=
  let m := hubDn r.pkt
  let lo := hubData r.pkt 0
  let hi := hubData r.pkt 1
  hubDo s r (hubStatus r.pkt false (hubLen r.pkt = 4) false
      (hubValue r.pkt = 0#16 && hubDnOk r.pkt && rangeFree s m (rangeOf lo hi)) true)
    fun s => modPort s (dnPort m) fun p => { p with rangeLo := lo, rangeHi := hi }

/-- Row SET_ROUTE (R100). -/
def execSetRoute (s : State) : Outcome := hubRow 0x06 setRoute s

/-- SET_MCAST: the three words together, MC_HITS cleared. -/
def setMcast (s : State) (r : HubReq) : State :=
  let e : McEnt := { grp := hubData r.pkt 0, ports := hubData r.pkt 1, loc := hubData r.pkt 2 &&& 0x8003#16, hits := 0#16 }
  hubDo s r (hubStatus r.pkt false (hubLen r.pkt = 6) false (hubValue r.pkt = 0#16 && hubIndex r.pkt ≤ 255) true)
    fun s => { s with bus := { s.bus with mc := tabSet McEnt.zero s.bus.mc (hubIndex r.pkt) e } }

/-- Row SET_MCAST (R100). -/
def execSetMcast (s : State) : Outcome := hubRow 0x07 setMcast s

/-- SET_SCHEDULE: the words from entry VALUE on. -/
def setSchedule (s : State) (r : HubReq) : State :=
  let k := hubLen r.pkt / 2
  let first := (hubValue r.pkt).toNat
  let top := if hubIndex r.pkt = 0 then 16 else 64
  hubDo s r (hubStatus r.pkt false (hubLen r.pkt % 2 = 0 && 1 ≤ k && k ≤ 64) false
      (hubIndex r.pkt ≤ 16 && first + k ≤ top) true)
    fun s => forEach (List.range k) (fun a i => schedWrite a (hubPort r.pkt) (first + i) (hubData r.pkt i)) s

/-- Row SET_SCHEDULE (R100, R109). -/
def execSetSchedule (s : State) : Outcome := hubRow 0x08 setSchedule s

/-- The crew that INDEX names. -/
def hubCrew (p : Pkt) : CrewN := ⟨hubIndex p % 8, Nat.mod_lt _ (by decide)⟩

/-- SET_CREW. -/
def setCrew (s : State) (r : HubReq) : State :=
  let d := hubData r.pkt
  hubDo s r (hubStatus r.pkt false (hubLen r.pkt = 8) false (hubValue r.pkt = 0#16 && hubIndex r.pkt ≤ 7) true)
    fun s => crewSet s (hubCrew r.pkt) (d 0) (d 1) (d 2) (d 3)

/-- Row SET_CREW (R100, R167). -/
def execSetCrew (s : State) : Outcome := hubRow 0x09 setCrew s

/-! ## Clock plan, power and watchdog -/

/-- SET_CLOCK_PLAN: a reserved REF_SEL answers BADVAL, and the write is still made (R98, R100, R428). -/
def setClockPlan (s : State) (r : HubReq) : State :=
  let v := hubValue r.pkt
  let st := hubStatus r.pkt false (hubLen r.pkt = 0) s.glob.hubClk (hubIndex r.pkt = 0) true
  let bad := 2 ≤ fld v 1 2
  hubReply (if st = 0 then planWrite s v else s) r (if st = 0 && bad then 3 else st) false []

/-- Row SET_CLOCK_PLAN (R100, R428). -/
def execSetClockPlan (s : State) : Outcome := hubRow 0x0A setClockPlan s

/-- SET_PORT_POWER. -/
def setPortPower (s : State) (r : HubReq) : State :=
  let v := (hubValue r.pkt).toNat
  hubDo s r (hubStatus r.pkt false (hubLen r.pkt = 0) s.glob.hubPwr (hubDnOk r.pkt && v ≤ 1) true)
    fun s => switchWrite s (hubDn r.pkt) (v = 1)

/-- Row SET_PORT_POWER (R100, R428). -/
def execSetPortPower (s : State) : Outcome := hubRow 0x0C setPortPower s

/-- SERVICE_WATCHDOG. -/
def serviceWatchdog (s : State) (r : HubReq) : State :=
  let v := hubValue r.pkt
  hubDo s r (hubStatus r.pkt false (hubLen r.pkt = 0) (!headless s)
      ((v = 0x5A3C#16 || v = 0xA5C3#16) && hubIndex r.pkt = 0) true)
    fun s => serviceWrite s .hub v

/-- Row SERVICE_WATCHDOG (R100, R360). -/
def execServiceWatchdog (s : State) : Outcome := hubRow 0x0E serviceWatchdog s

/-- SET_BUDGET: the whole 16-bit VALUE (R297). -/
def setBudget (s : State) (r : HubReq) : State :=
  hubDo s r (hubStatus r.pkt false (hubLen r.pkt = 0) s.glob.hubPwr (hubIndex r.pkt = 0) true)
    fun s => budgetWrite s (hubValue r.pkt).toNat

/-- Row SET_BUDGET (R100, R297, R428). -/
def execSetBudget (s : State) : Outcome := hubRow 0x10 setBudget s

/-! ## Bus resets (R40, R42, R63, R126, R134, R137, R237) -/

/-- UP is word-aligned, so that RST sets are recognised (R63). -/
def upAligned (s : State) : Bool :=
  match s.ports[(0 : PortN)].st with
  | .disabled => false
  | .detect => false
  | .align => false
  | .disabling => false
  | .failed => false
  | _ => true

/-- The addresses and the hub function's state (R99). -/
def busCleared (b : Bus) : Bus :=
  { b with node := 0xFFFE#16, loc := 0xFFFE#16, hubQ := [], kept := none
           inbox := b.inbox.filter fun x => x.dest != .hub }

/-- What both bus resets clear: addresses, hub function, current sweep, local transfers; then
EV_BUS_RESET to every enabled domain (R42). -/
def bothResets (s : State) (how : Word) : State :=
  let s1 := localBusReset { s with
    bus := busCleared s.bus
    sur := { s.sur with sweep := none, walk := .idle, ended := true, probe := 0 } }
  bbLink (raise s1 { code := 0x10, src := 0, w1 := how }) 0x34 0 how 0#16

/-- Row PORT_RESET_RX (R40, R42). -/
def execPortResetRx (s : State) : Outcome :=
  onLink s fun s => onRx 0 (whenDo (upAligned s) (bothResets · 2#16)) s

/-- A downstream port at a tree reset: the packet in progress ends with EAB, reason 4, the queue is
discarded, the range empties, and RST starts on a port with a link (R42, R126). -/
def treePort (s : State) (m : DnN) : State :=
  let n := dnPort m
  let s1 := modPort (closeEab s n 4 false) n fun p => { p with txq := [], rangeLo := 0xFFFF#16, rangeHi := 0#16 }
  if isUp s.ports[n] then boundary (driveRst 1 s1 m) n else s1

/-- Tables that a tree reset clears: multicast, and the downstream schedules. -/
def treeTables (b : Bus) : Bus :=
  { b with mc := [], sched := b.sched.filter fun e => e.1 < 64, schedAct := b.schedAct.filter fun e => e.1 < 64 }

/-- A tree reset (R40, R126, R134). -/
def treeReset (s : State) : State :=
  let s1 := bothResets (sweepRx (freeSlots (forEach dnAll treePort s))) 1#16
  { s1 with
    bus := treeTables s1.bus
    tb := { s1.tb with crews := Vector.replicate 8 Crew.reset }
    cen := Cen.reset
    sur := Sur.reset }

/-- Row TREE_RESET (R42). -/
def execTreeReset (s : State) : Outcome :=
  onLink s fun s => onRx 0 (whenDo (upAligned s) treeReset) s

/-- RST ends on Dm. -/
def endRst (s : State) (m : DnN) : State :=
  if s.ports[dnPort m].rstOut then
    emit (modPort s (dnPort m) fun p => { p with rstOut := false }) (.rst m 0 false)
  else s

/-- Row RST_DRIVE_END (R42, R63): the ports whose 1 ms is over. -/
def execRstDriveEnd (ports : Word) (s : State) : Outcome :=
  onLink s fun s => forEach (dnAll.filter fun m => bit ports m.val) endRst s

end Sys2Proof.Machine
end

