-- ==== Sys2Proof/Machine/Dispatch.lean ====
section
/-! DEFINITION. The dispatch: one arm for each command, each one call of its meaning. -/

namespace Sys2Proof.Machine

open Sys2Proof

/-- What a command does to everything but the queue. -/
def exec (i : Instr) (s : State) : Host.Outcome State Fault Refusal :=
  match i with
  | .por => Sys2Proof.Machine.execPor s
  | .porRelease straps => Sys2Proof.Machine.execPorRelease straps s
  | .resetNAssert => Sys2Proof.Machine.execResetNAssert s
  | .resetNRelease straps => Sys2Proof.Machine.execResetNRelease straps s
  | .aonBrownout => Sys2Proof.Machine.execAonBrownout s
  | .swrst p => Sys2Proof.Machine.execSwrst p s
  | .cfgLoad p => Sys2Proof.Machine.execCfgLoad p s
  | .bytewrClear p => Sys2Proof.Machine.execBytewrClear p s
  | .byteWrite p off => Sys2Proof.Machine.execByteWrite p off s
  | .cfgImageChecked readOk ws => Sys2Proof.Machine.execCfgImageChecked readOk ws s
  | .perstAssert => Sys2Proof.Machine.execPerstAssert s
  | .perstRelease => Sys2Proof.Machine.execPerstRelease s
  | .pcieConfigReady => Sys2Proof.Machine.execPcieConfigReady s
  | .hotReset dlDown => Sys2Proof.Machine.execHotReset dlDown s
  | .flrPf => Sys2Proof.Machine.execFlrPf s
  | .flrVf v => Sys2Proof.Machine.execFlrVf v s
  | .vfEnable => Sys2Proof.Machine.execVfEnable s
  | .vfDisable => Sys2Proof.Machine.execVfDisable s
  | .numvfsWrite n => Sys2Proof.Machine.execNumvfsWrite n s
  | .pcieConfigWrite d field v => Sys2Proof.Machine.execPcieConfigWrite d field v s
  | .treeReset => Sys2Proof.Machine.execTreeReset s
  | .portResetRx => Sys2Proof.Machine.execPortResetRx s
  | .rstDriveEnd ports => Sys2Proof.Machine.execRstDriveEnd ports s
  | .clkPlanWrite p v => Sys2Proof.Machine.execClkPlanWrite p v s
  | .pllLock xin => Sys2Proof.Machine.execPllLock xin s
  | .refFallback xin => Sys2Proof.Machine.execRefFallback xin s
  | .refReturn => Sys2Proof.Machine.execRefReturn s
  | .sdQualified n => Sys2Proof.Machine.execSdQualified n s
  | .signalLoss x => Sys2Proof.Machine.execSignalLoss x s
  | .detectHoldEnd n => Sys2Proof.Machine.execDetectHoldEnd n s
  | .wordAlign n => Sys2Proof.Machine.execWordAlign n s
  | .alignTimeout n => Sys2Proof.Machine.execAlignTimeout n s
  | .tsCapRx n a0 a1 chk => Sys2Proof.Machine.execTsCapRx n a0 a1 chk s
  | .tsAckRx n a0 a1 chk => Sys2Proof.Machine.execTsAckRx n a0 a1 chk s
  | .capsTimeout n => Sys2Proof.Machine.execCapsTimeout n s
  | .tsTrialRx n a0 a1 chk => Sys2Proof.Machine.execTsTrialRx n a0 a1 chk s
  | .switchTimeout n => Sys2Proof.Machine.execSwitchTimeout n s
  | .tsReadyRx n clean args chk => Sys2Proof.Machine.execTsReadyRx n clean args chk s
  | .ralignTimeout n => Sys2Proof.Machine.execRalignTimeout n s
  | .trialSent n rx => Sys2Proof.Machine.execTrialSent n rx s
  | .tsResultRx n a0 a1 chk => Sys2Proof.Machine.execTsResultRx n a0 a1 chk s
  | .trialTimeout n => Sys2Proof.Machine.execTrialTimeout n s
  | .tsGoRx n a0 a1 chk => Sys2Proof.Machine.execTsGoRx n a0 a1 chk s
  | .stepUp n => Sys2Proof.Machine.execStepUp n s
  | .capUpdateSend n => Sys2Proof.Machine.execCapUpdateSend n s
  | .tsDownRx n a0 a1 chk => Sys2Proof.Machine.execTsDownRx n a0 a1 chk s
  | .tsDisRx n a0 a1 chk => Sys2Proof.Machine.execTsDisRx n a0 a1 chk s
  | .errorBurst n within1s => Sys2Proof.Machine.execErrorBurst n within1s s
  | .errorRate n within1s => Sys2Proof.Machine.execErrorRate n within1s s
  | .portRetrain p n => Sys2Proof.Machine.execPortRetrain p n s
  | .portCntClr p n => Sys2Proof.Machine.execPortCntClr p n s
  | .floodStart n fldHigh => Sys2Proof.Machine.execFloodStart n fldHigh s
  | .floodEnd n => Sys2Proof.Machine.execFloodEnd n s
  | .floodTimeout n within1s => Sys2Proof.Machine.execFloodTimeout n within1s s
  | .portDisable p n => Sys2Proof.Machine.execPortDisable p n s
  | .disableDone n => Sys2Proof.Machine.execDisableDone n s
  | .portEnable p n => Sys2Proof.Machine.execPortEnable p n s
  | .crdRx n param => Sys2Proof.Machine.execCrdRx n param s
  | .tsTallyreqRx n x => Sys2Proof.Machine.execTsTallyreqRx n x s
  | .tsTallyRx n a0 a1 chk => Sys2Proof.Machine.execTsTallyRx n a0 a1 chk s
  | .skpSend n => Sys2Proof.Machine.execSkpSend n s
  | .preRx n came => Sys2Proof.Machine.execPreRx n came s
  | .rsmRx n off top => Sys2Proof.Machine.execRsmRx n off top s
  | .receiveWithoutCredit n => Sys2Proof.Machine.execReceiveWithoutCredit n s
  | .packetHeaderRx n w0 w1 w2 w3 len => Sys2Proof.Machine.execPacketHeaderRx n w0 w1 w2 w3 len s
  | .packetTrailerRx n payload t0 t1 => Sys2Proof.Machine.execPacketTrailerRx n payload t0 t1 s
  | .eabRx n reason words pcls => Sys2Proof.Machine.execEabRx n reason words pcls s
  | .selectorStart m => Sys2Proof.Machine.execSelectorStart m s
  | .recordExpiry m addr endp tag => Sys2Proof.Machine.execRecordExpiry m addr endp tag s
  | .proxyRx => Sys2Proof.Machine.execProxyRx s
  | .hubreqRx => Sys2Proof.Machine.execHubreqRx s
  | .getNodeInfo => Sys2Proof.Machine.execGetNodeInfo s
  | .setAddress => Sys2Proof.Machine.execSetAddress s
  | .getPortStatus => Sys2Proof.Machine.execGetPortStatus s
  | .setPortFeatureEnable => Sys2Proof.Machine.execSetPortFeatureEnable s
  | .clearPortFeatureEnable => Sys2Proof.Machine.execClearPortFeatureEnable s
  | .setPortFeatureRetrain => Sys2Proof.Machine.execSetPortFeatureRetrain s
  | .clearPortFeatureEvents => Sys2Proof.Machine.execClearPortFeatureEvents s
  | .setPortFeaturePortReset => Sys2Proof.Machine.execSetPortFeaturePortReset s
  | .setPortFeatureFrag => Sys2Proof.Machine.execSetPortFeatureFrag s
  | .clearPortFeatureFrag => Sys2Proof.Machine.execClearPortFeatureFrag s
  | .setPortFeatureSuspend => Sys2Proof.Machine.execSetPortFeatureSuspend s
  | .clearPortFeatureSuspend => Sys2Proof.Machine.execClearPortFeatureSuspend s
  | .setPortFeatureBcnFwd => Sys2Proof.Machine.execSetPortFeatureBcnFwd s
  | .clearPortFeatureBcnFwd => Sys2Proof.Machine.execClearPortFeatureBcnFwd s
  | .setRoute => Sys2Proof.Machine.execSetRoute s
  | .setMcast => Sys2Proof.Machine.execSetMcast s
  | .setSchedule => Sys2Proof.Machine.execSetSchedule s
  | .setCrew => Sys2Proof.Machine.execSetCrew s
  | .setClockPlan => Sys2Proof.Machine.execSetClockPlan s
  | .getMeter => Sys2Proof.Machine.execGetMeter s
  | .setPortPower => Sys2Proof.Machine.execSetPortPower s
  | .readLog => Sys2Proof.Machine.execReadLog s
  | .serviceWatchdog => Sys2Proof.Machine.execServiceWatchdog s
  | .getSurveyRecord => Sys2Proof.Machine.execGetSurveyRecord s
  | .setBudget => Sys2Proof.Machine.execSetBudget s
  | .ssplitRx => Sys2Proof.Machine.execSsplitRx s
  | .csplitRx => Sys2Proof.Machine.execCsplitRx s
  | .chunkGrant => Sys2Proof.Machine.execChunkGrant s
  | .ttSlotTimeout j => Sys2Proof.Machine.execTtSlotTimeout j s
  | .ttSlotExpire j => Sys2Proof.Machine.execTtSlotExpire j s
  | .periodicSlotExpire j => Sys2Proof.Machine.execPeriodicSlotExpire j s
  | .ttCntClr p => Sys2Proof.Machine.execTtCntClr p s
  | .strokeBoundary => Sys2Proof.Machine.execStrokeBoundary s
  | .beaconMissed => Sys2Proof.Machine.execBeaconMissed s
  | .stkBeaconRx ws chk whole => Sys2Proof.Machine.execStkBeaconRx ws chk whole s
  | .slewTick => Sys2Proof.Machine.execSlewTick s
  | .holdoverExpiry => Sys2Proof.Machine.execHoldoverExpiry s
  | .tbTime0Read r => Sys2Proof.Machine.execTbTime0Read r s
  | .catchDue crews => Sys2Proof.Machine.execCatch crews s
  | .catchPinEnd pin => Sys2Proof.Machine.execCatchPinEnd pin s
  | .strokeOutEnd => Sys2Proof.Machine.execStrokeOutEnd s
  | .censusOpen => Sys2Proof.Machine.execCensusOpen s
  | .surveyOpen => Sys2Proof.Machine.execSurveyOpen s
  | .probeTimeout => Sys2Proof.Machine.execProbeTimeout s
  | .surveyProbe => Sys2Proof.Machine.execSurveyProbe s
  | .surveyEcho => Sys2Proof.Machine.execSurveyEcho s
  | .surveyToken => Sys2Proof.Machine.execSurveyToken s
  | .recordSent => Sys2Proof.Machine.execRecordSent s
  | .probeWaitTimeout => Sys2Proof.Machine.execProbeWaitTimeout s
  | .surveyPortTimeout m => Sys2Proof.Machine.execSurveyPortTimeout m s
  | .surveyReturn => Sys2Proof.Machine.execSurveyReturn s
  | .surveyKeep => Sys2Proof.Machine.execSurveyKeep s
  | .keepTimer => Sys2Proof.Machine.execKeepTimer s
  | .upSuspendTimeout => Sys2Proof.Machine.execUpSuspendTimeout s
  | .portSilenceTimeout m => Sys2Proof.Machine.execPortSilenceTimeout m s
  | .holdIdlDone n => Sys2Proof.Machine.execHoldIdlDone n s
  | .portSuspend p m => Sys2Proof.Machine.execPortSuspend p m s
  | .portResume p m => Sys2Proof.Machine.execPortResume p m s
  | .beaconFromAbove => Sys2Proof.Machine.execBeaconFromAbove s
  | .upBcnDeassert => Sys2Proof.Machine.execUpBcnDeassert s
  | .bcnDriveEnd m => Sys2Proof.Machine.execBcnDriveEnd m s
  | .upHoldSdEnd => Sys2Proof.Machine.execUpHoldSdEnd s
  | .txIdleDark n => Sys2Proof.Machine.execTxIdleDark n s
  | .txWake n => Sys2Proof.Machine.execTxWake n s
  | .darkLimit n => Sys2Proof.Machine.execDarkLimit n s
  | .schedPrewake n => Sys2Proof.Machine.execSchedPrewake n s
  | .schedWindowEnd n => Sys2Proof.Machine.execSchedWindowEnd n s
  | .l1Entry => Sys2Proof.Machine.execL1Entry s
  | .l1Exit => Sys2Proof.Machine.execL1Exit s
  | .memRequestRefused d kind => Sys2Proof.Machine.execMemRequestRefused d kind s
  | .d3hotEntry d => Sys2Proof.Machine.execD3hotEntry d s
  | .d0Return d => Sys2Proof.Machine.execD0Return d s
  | .domRightsWrite d v => Sys2Proof.Machine.execDomRightsWrite d v s
  | .gapTimerEnd d v => Sys2Proof.Machine.execGapTimerEnd d v s
  | .msixUnmask d which => Sys2Proof.Machine.execMsixUnmask d which s
  | .completionTimeout d u => Sys2Proof.Machine.execCompletionTimeout d u s
  | .hmaDecision => Sys2Proof.Machine.execHmaDecision s
  | .ulaDecision => Sys2Proof.Machine.execUlaDecision s
  | .ulaPreempt sent => Sys2Proof.Machine.execUlaPreempt sent s
  | .ulaResume => Sys2Proof.Machine.execUlaResume s
  | .emergencyGrant => Sys2Proof.Machine.execEmergencyGrant s
  | .holdCutoff arb => Sys2Proof.Machine.execHoldCutoff arb s
  | .cutClear p arb half v => Sys2Proof.Machine.execCutClear p arb half v s
  | .doorbellWatch d => Sys2Proof.Machine.execDoorbellWatch d s
  | .prestrokeWatch d => Sys2Proof.Machine.execPrestrokeWatch d s
  | .doorbellReadDone d cmdPi evtCi pis => Sys2Proof.Machine.execDoorbellReadDone d cmdPi evtCi pis s
  | .doorbellRetry d => Sys2Proof.Machine.execDoorbellRetry d s
  | .hostReadFailed d u kind => Sys2Proof.Machine.execHostReadFailed d u kind s
  | .commandFetchDone d cmds => Sys2Proof.Machine.execCommandFetchDone d cmds s
  | .nop d => Sys2Proof.Machine.execNop d s
  | .ringSet d => Sys2Proof.Machine.execRingSet d s
  | .ringStop d => Sys2Proof.Machine.execRingStop d s
  | .epHalt d => Sys2Proof.Machine.execEpHalt d s
  | .portPower d => Sys2Proof.Machine.execPortPower d s
  | .cmdSetBudget d => Sys2Proof.Machine.execCmdSetBudget d s
  | .ppsLimit d => Sys2Proof.Machine.execPpsLimit d s
  | .meterSnap d => Sys2Proof.Machine.execMeterSnap d s
  | .meterRead d => Sys2Proof.Machine.execMeterRead d s
  | .crewSet d => Sys2Proof.Machine.execCrewSet d s
  | .catchPin d => Sys2Proof.Machine.execCatchPin d s
  | .logRead d => Sys2Proof.Machine.execLogRead d s
  | .portStatus d => Sys2Proof.Machine.execPortStatus d s
  | .nodeInfo d => Sys2Proof.Machine.execNodeInfo d s
  | .commandDataDone d => Sys2Proof.Machine.execCommandDataDone d s
  | .descriptorFetchDone d k descs => Sys2Proof.Machine.execDescriptorFetchDone d k descs s
  | .sendDataFetchDone d k data => Sys2Proof.Machine.execSendDataFetchDone d k data s
  | .recvDrain k => Sys2Proof.Machine.execRecvDrain k s
  | .eventWrite d => Sys2Proof.Machine.execEventWrite d s
  | .localSetup => Sys2Proof.Machine.execLocalSetup s
  | .localOutData => Sys2Proof.Machine.execLocalOutData s
  | .localInRequest => Sys2Proof.Machine.execLocalInRequest s
  | .localCstat => Sys2Proof.Machine.execLocalCstat s
  | .localPout => Sys2Proof.Machine.execLocalPout s
  | .localPinq => Sys2Proof.Machine.execLocalPinq s
  | .confirmTimeout k => Sys2Proof.Machine.execConfirmTimeout k s
  | .epMissed k => Sys2Proof.Machine.execEpMissed k s
  | .lnEnable p => Sys2Proof.Machine.execLnEnable p s
  | .lnDisable p => Sys2Proof.Machine.execLnDisable p s
  | .epEnable p k => Sys2Proof.Machine.execEpEnable p k s
  | .epDisable p k => Sys2Proof.Machine.execEpDisable p k s
  | .epCntClr p k => Sys2Proof.Machine.execEpCntClr p k s
  | .epmaskWrite d half v => Sys2Proof.Machine.execEpmaskWrite d half v s
  | .domainEnable d => Sys2Proof.Machine.execDomainEnable d s
  | .domainDisable d => Sys2Proof.Machine.execDomainDisable d s
  | .teardownComplete d => Sys2Proof.Machine.execTeardownComplete d s
  | .resyncGo d => Sys2Proof.Machine.execResyncGo d s
  | .easyState d => Sys2Proof.Machine.execEasyState d s
  | .summaryDone d => Sys2Proof.Machine.execSummaryDone d s
  | .queuePointerMismatch q wr rd => Sys2Proof.Machine.execQueuePointerMismatch q wr rd s
  | .queueInject p q => Sys2Proof.Machine.execQueueInject p q s
  | .qCntClr p => Sys2Proof.Machine.execQCntClr p s
  | .evfPop => Sys2Proof.Machine.execEvfPop s
  | .evfFlush p => Sys2Proof.Machine.execEvfFlush p s
  | .ppsOn p m => Sys2Proof.Machine.execPpsOn p m s
  | .ppsOff p m => Sys2Proof.Machine.execPpsOff p m s
  | .ppsFclr p m => Sys2Proof.Machine.execPpsFclr p m s
  | .meterSample m x => Sys2Proof.Machine.execMeterSample m x s
  | .powerGood m vgs => Sys2Proof.Machine.execPowerGood m vgs s
  | .powerGoodLoss m => Sys2Proof.Machine.execPowerGoodLoss m s
  | .foldTmo m => Sys2Proof.Machine.execFoldTmo m s
  | .oc m => Sys2Proof.Machine.execOc m s
  | .shortOff m => Sys2Proof.Machine.execShortOff m s
  | .gateStuck m vgs => Sys2Proof.Machine.execGateStuck m vgs s
  | .reverse m => Sys2Proof.Machine.execReverse m s
  | .legopen m => Sys2Proof.Machine.execLegopen m s
  | .retryEnd m => Sys2Proof.Machine.execRetryEnd m s
  | .retryCountClear m => Sys2Proof.Machine.execRetryCountClear m s
  | .gateOffCheckpoint m vgs => Sys2Proof.Machine.execGateOffCheckpoint m vgs s
  | .dischargeEnd m => Sys2Proof.Machine.execDischargeEnd m s
  | .offDischargeEnd m => Sys2Proof.Machine.execOffDischargeEnd m s
  | .budgetWrite p v => Sys2Proof.Machine.execBudgetWrite p v s
  | .pclassWrite p v => Sys2Proof.Machine.execPclassWrite p v s
  | .gangWrite p v => Sys2Proof.Machine.execGangWrite p v s
  | .vlinkLow => Sys2Proof.Machine.execVlinkLow s
  | .vlinkRestored => Sys2Proof.Machine.execVlinkRestored s
  | .snapshotGo p => Sys2Proof.Machine.execSnapshotGo p s
  | .snapshotComplete => Sys2Proof.Machine.execSnapshotComplete s
  | .featherIdleExpiry => Sys2Proof.Machine.execFeatherIdleExpiry s
  | .stowIdleExpiry => Sys2Proof.Machine.execStowIdleExpiry s
  | .pmReqFeather p => Sys2Proof.Machine.execPmReqFeather p s
  | .pmReqStow p => Sys2Proof.Machine.execPmReqStow p s
  | .kregLowPower => Sys2Proof.Machine.execKregLowPower s
  | .kregBoostEnd => Sys2Proof.Machine.execKregBoostEnd s
  | .kregHeavy => Sys2Proof.Machine.execKregHeavy s
  | .wakeSource pins srcs during => Sys2Proof.Machine.execWakeSource pins srcs during s
  | .corePgRise => Sys2Proof.Machine.execCorePgRise s
  | .linkDieResetRelease sfdp => Sys2Proof.Machine.execLinkDieResetRelease sfdp s
  | .powerUpFailure => Sys2Proof.Machine.execPowerUpFailure s
  | .powerUpRetry => Sys2Proof.Machine.execPowerUpRetry s
  | .linkDiePowerLoss => Sys2Proof.Machine.execLinkDiePowerLoss s
  | .corelossRestart => Sys2Proof.Machine.execCorelossRestart s
  | .wdtTimeout => Sys2Proof.Machine.execWdtTimeout s
  | .wdtServiceWrite p v => Sys2Proof.Machine.execWdtServiceWrite p v s
  | .wdtKeyWrite p v => Sys2Proof.Machine.execWdtKeyWrite p v s
  | .wdtEnable p => Sys2Proof.Machine.execWdtEnable p s
  | .wdtLockSet p => Sys2Proof.Machine.execWdtLockSet p s
  | .wdtPeriodWrite p window v => Sys2Proof.Machine.execWdtPeriodWrite p window v s
  | .wdtGraceEnd => Sys2Proof.Machine.execWdtGraceEnd s
  | .hostRstEnd => Sys2Proof.Machine.execHostRstEnd s
  | .bbEntry => Sys2Proof.Machine.execBbEntry s
  | .bbRearm p => Sys2Proof.Machine.execBbRearm p s
  | .bbClear p => Sys2Proof.Machine.execBbClear p s
  | .bbIndexWrite p v => Sys2Proof.Machine.execBbIndexWrite p v s
  | .bbFlashCopyDone mgPath e => Sys2Proof.Machine.execBbFlashCopyDone mgPath e s
  | .lgScan => Sys2Proof.Machine.execLgScan s
  | .lgScanDone slot => Sys2Proof.Machine.execLgScanDone slot s
  | .supplyFail => Sys2Proof.Machine.execSupplyFail s
  | .bbTestFlush p => Sys2Proof.Machine.execBbTestFlush p s
  | .flashSuspended => Sys2Proof.Machine.execFlashSuspended s
  | .pageProgramDone => Sys2Proof.Machine.execPageProgramDone s
  | .supplyRestored => Sys2Proof.Machine.execSupplyRestored s
  | .flRead p addr => Sys2Proof.Machine.execFlRead p addr s
  | .flNext p => Sys2Proof.Machine.execFlNext p s
  | .flProgram p addr n ws => Sys2Proof.Machine.execFlProgram p addr n ws s
  | .flErase4k p addr => Sys2Proof.Machine.execFlErase4k p addr s
  | .flErase64k p addr => Sys2Proof.Machine.execFlErase64k p addr s
  | .flAbort p => Sys2Proof.Machine.execFlAbort p s
  | .flOpDone byte fail => Sys2Proof.Machine.execFlOpDone byte fail s
  | .mgWrite addr v => Sys2Proof.Machine.execMgWrite addr v s
  | .mgRead addr => Sys2Proof.Machine.execMgRead addr s
  | .mgWriteBurst addr ws => Sys2Proof.Machine.execMgWriteBurst addr ws s
  | .mgReadBurst addr n => Sys2Proof.Machine.execMgReadBurst addr n s
  | .mgStatus => Sys2Proof.Machine.execMgStatus s
  | .reglockWrite p v => Sys2Proof.Machine.execReglockWrite p v s
  | .registerWrite p off dw more => Sys2Proof.Machine.execRegisterWrite p off dw more s
  | .xinLoss => Sys2Proof.Machine.execXinLoss s
  | .codeViolation x => Sys2Proof.Machine.execCodeViolation x s
  | .eopSent n => Sys2Proof.Machine.execEopSent n s
  | .sdChange n level => Sys2Proof.Machine.execSdChange n level s
  | .mgCsNFalling => Sys2Proof.Machine.execMgCsNFalling s
  | .frameerr => Sys2Proof.Machine.execFrameerr s
  | .unexpectedCompletion => Sys2Proof.Machine.execUnexpectedCompletion s
  | .pcieL0Reached => Sys2Proof.Machine.execPcieL0Reached s

end Sys2Proof.Machine
end

