-- ==== Sys2Proof/Machine/Idle.lean ====
section
/-! DEFINITION. One tick of 2.5 ns without a command: the clocks of the part advance (R6, R20, R145,
R337, R351, R356).  The table has no row for a tick; log entry 5. -/

namespace Sys2Proof.Machine

open Sys2Proof

/-- The rate correction of one tick on the PLL: XIN is TB_SYNT × 10⁻⁸ fast against the recovered clock, so
that much is taken off, a whole tick at a time (R153, R157). -/
def corrTick (pll : Bool) (t : Tb) : Tb :=
  if !t.corr || !pll then t
  else
    let a := t.corrAcc - sInt t.synt
    if 100000000 ≤ a then { t with time := t.time + 1#64, corrAcc := a - 100000000 }
    else if a ≤ -100000000 then { t with time := t.time - 1#64, corrAcc := a + 100000000 }
    else { t with corrAcc := a }

/-- TB_TIME advances by 1 a CORE cycle on the PLL and by 4 on FIRC (R145), and may reach a boundary of the
grid (R148) and catches (R161). -/
def tickCore (s : State) : State :=
  if linkOn s then
    let t := { s.tb with time := s.tb.time + BitVec.ofNat 64 (ticksPerCycle s) }
    timeMoved (now s) { s with tb := corrTick s.clk.corePll t }
  else s

/-- The wait between two TS_TALLYREQ of port n runs, and a due one goes out at its end (R61). -/
def tickTally (s : State) (n : PortN) : State :=
  tallyTry (modPort s n fun p => { p with tallyWait := p.tallyWait - ticksPerCycle s }) n

/-- One CORE cycle of the ports and of the translator: tally waits (R61), the allocator of the TT's chunks
(R119), and schedule feathering (R184). -/
def tickPorts (s : State) : State :=
  if linkOn s then forEach portAll schedDark (chunkStep (forEach portAll tickTally s)) else s

/-- The LPO cycles since the FEATHER conditions began to hold; 0 at every tick at which they fail, whether or not
an LPO cycle ends with it (R337). -/
def idleCount (s : State) (edge : Nat) : Nat :=
  if (s.pm.st = .run || s.pm.st = .feather) && whyFeather s = 0 then s.pm.idle + edge else 0

/-- AON time advances by 1 an LPO cycle (R351), and the idle timers with it. -/
def tickLpo (s : State) : State :=
  if powerOn s then
    let edge := if Config.lpoEdge s.fresh then 1 else 0
    { s with aon := { s.aon with time := s.aon.time + edge }, pm := { s.pm with idle := idleCount s edge } }
  else s

/-- WDT_COUNT advances by a unit (R356, R362), unless it is paused, in grace too (R358; log 23).  The unit that
ends a period or the grace is a row of its own, so the count stops one short of it. -/
def unitCount (w : Wdt) : Nat :=
  if graceCounts w then min (w.graceReg.toNat - 1) (w.count + 1)
  else if wdtCounts w then min (w.curPeriod - 1) (w.count + 1)
  else w.count

/-- A watchdog unit may end. -/
def tickWdt (s : State) : State :=
  if powerOn s && Config.wdoscUnit s.fresh then { s with wdt := { s.wdt with count := unitCount s.wdt } } else s

/-- A clock may start on XIN while the Link die is powered (R416; log entry 74). -/
def tickXin (s : State) : State :=
  if linkOn s && Config.xinStarts s.fresh then { s with clk := { s.clk with xinOk := true } } else s

/-- A tick in which no command waits. -/
def idleTick (s : State) : State := bump (tickXin (tickWdt (tickLpo (tickPorts (tickCore s)))))

end Sys2Proof.Machine
end

