-- ==== Sys2Proof/Machine/Step.lean ====
section
/-! DEFINITION. One step: the command at the front of the queue, or an idle tick. -/

namespace Sys2Proof.Machine

open Sys2Proof

/-- Take the command at the front of the queue and carry it out with the queue's rest; with an empty
queue the clocks advance by a tick (log entry 5). -/
def step (s : State) : Host.Outcome State Fault Refusal :=
  match s.pending with
  | [] => .next (idleTick s)
  | c :: cs => exec c { s with pending := cs }

/-- The state with the command that a table word spells at the front of its queue; unchanged where the
word spells none. -/
def State.withFetchWord (s : State) (nbits w : Nat) : State :=
  match decodeTableWord nbits w with
  | some c => { s with pending := c :: s.pending }
  | none => s

end Sys2Proof.Machine
end

