-- ==== Sys2Proof/Safety.lean ====
section
/-! DEFINITION. What counts as a safe run, in the terms that the statements use: tables and memory in
their canonical form, the parts of the state that a command may change, and the commands that need a
die to run. -/

namespace Sys2Proof.Safety

open Sys2Proof Sys2Proof.Machine

/-- The step answers a next state. -/
def runs (o : Host.Outcome State Fault Refusal) : Prop := ∃ t, o = .next t

/-- The addressed memory and tables are in canonical form: endpoint memory, the multicast table and the
schedules. -/
def tablesWf (s : State) : Bool :=
  tabWf 0#8 s.ln.mem && tabWf McEnt.zero s.bus.mc && tabWf 0#16 s.bus.sched

/-- A part of the state. -/
inductive Part where
  | rst | pm | wdt | bb | pps | ppsg | mtr | aon | mg | glob | clk | pcie | doms | ln | hma | ula | que | fl
  | ports | bus | tt | tb | cen | sur
  /-- What the part has put out. -/
  | out
  deriving DecidableEq, Repr

/-- The part is the same in both states. -/
def same (s t : State) : Part → Prop
  | .rst => t.rst = s.rst
  | .pm => t.pm = s.pm
  | .wdt => t.wdt = s.wdt
  | .bb => t.bb = s.bb
  | .pps => t.pps = s.pps
  | .ppsg => t.ppsg = s.ppsg
  | .mtr => t.mtr = s.mtr
  | .aon => t.aon = s.aon
  | .mg => t.mg = s.mg
  | .glob => t.glob = s.glob
  | .clk => t.clk = s.clk
  | .pcie => t.pcie = s.pcie
  | .doms => t.doms = s.doms
  | .ln => t.ln = s.ln
  | .hma => t.hma = s.hma
  | .ula => t.ula = s.ula
  | .que => t.que = s.que
  | .fl => t.fl = s.fl
  | .ports => t.ports = s.ports
  | .bus => t.bus = s.bus
  | .tt => t.tt = s.tt
  | .tb => t.tb = s.tb
  | .cen => t.cen = s.cen
  | .sur => t.sur = s.sur
  | .out => t.out = s.out

/-- Every part but those listed is unchanged. -/
def only (ps : List Part) (s t : State) : Prop := ∀ p, p ∉ ps → same s t p

/-- The parts in which raising an event shows: the domains, the management event FIFO, PME in the
always-on domain, and what is put out. -/
def evParts : List Part := [.doms, .que, .aon, .out]

/-- No function sleeps with PME armed, so raising an event puts nothing out but the event. -/
def noPme (s : State) : Prop := ∀ d : DomN, s.pcie.fns[d].d3 = false

/-- The ports other than n are unchanged. -/
def portsBut (n : PortN) (s t : State) : Prop := ∀ m : PortN, m ≠ n → t.ports[m] = s.ports[m]

/-- The switches other than that of Dm are unchanged. -/
def ppsBut (m : DnN) (s t : State) : Prop := ∀ x : DnN, x ≠ m → t.pps[x] = s.pps[x]

/-- The domains other than d are unchanged. -/
def domsBut (d : DomN) (s t : State) : Prop := ∀ x : DomN, x ≠ d → t.doms[x] = s.doms[x]

/-- The endpoints other than k are unchanged, and so is the rest of the local node. -/
def epsBut (k : EpN) (s t : State) : Prop :=
  (∀ x : EpN, x ≠ k → t.ln.eps[x] = s.ln.eps[x]) ∧ { t.ln with eps := s.ln.eps } = s.ln

/-- A command that writes registers by path `p`. -/
def writesBy : Instr → Option Path
  | .swrst p => some p
  | .cfgLoad p => some p
  | .bytewrClear p => some p
  | .byteWrite p _ => some p
  | .clkPlanWrite p _ => some p
  | .portRetrain p _ => some p
  | .portCntClr p _ => some p
  | .portDisable p _ => some p
  | .portEnable p _ => some p
  | .ttCntClr p => some p
  | .portSuspend p _ => some p
  | .portResume p _ => some p
  | .cutClear p _ _ _ => some p
  | .lnEnable p => some p
  | .lnDisable p => some p
  | .epEnable p _ => some p
  | .epDisable p _ => some p
  | .epCntClr p _ => some p
  | .queueInject p _ => some p
  | .qCntClr p => some p
  | .evfFlush p => some p
  | .ppsOn p _ => some p
  | .ppsOff p _ => some p
  | .ppsFclr p _ => some p
  | .budgetWrite p _ => some p
  | .pclassWrite p _ => some p
  | .gangWrite p _ => some p
  | .snapshotGo p => some p
  | .pmReqFeather p => some p
  | .pmReqStow p => some p
  | .wdtServiceWrite p _ => some p
  | .wdtKeyWrite p _ => some p
  | .wdtEnable p => some p
  | .wdtLockSet p => some p
  | .wdtPeriodWrite p _ _ => some p
  | .bbRearm p => some p
  | .bbClear p => some p
  | .bbIndexWrite p _ => some p
  | .bbTestFlush p => some p
  | .reglockWrite p _ => some p
  | .registerWrite p _ _ _ => some p
  | _ => none

/-- A pin or a supply acts on the part even while it is held in reset. -/
def actsInReset : Instr → Bool
  | .por => true
  | .porRelease _ => true
  | .resetNAssert => true
  | .resetNRelease _ => true
  | .perstAssert => true
  | .perstRelease => true
  | _ => false

/-- A command of the Power die, of the management SPI or of a pin, or a register write by the management SPI:
it needs no running Link die.  Every other command is one of the Link die. -/
def powerDieRow : Instr → Bool
  | .por => true
  | .porRelease _ => true
  | .resetNAssert => true
  | .resetNRelease _ => true
  | .aonBrownout => true
  | .perstAssert => true
  | .perstRelease => true
  | .sdQualified _ => true
  | .signalLoss _ => true
  | .beaconFromAbove => true
  | .upBcnDeassert => true
  | .bcnDriveEnd _ => true
  | .upHoldSdEnd => true
  | .queuePointerMismatch _ _ _ => true
  | .evfPop => true
  | .powerGood _ _ => true
  | .powerGoodLoss _ => true
  | .foldTmo _ => true
  | .oc _ => true
  | .shortOff _ => true
  | .gateStuck _ _ => true
  | .reverse _ => true
  | .legopen _ => true
  | .retryEnd _ => true
  | .retryCountClear _ => true
  | .gateOffCheckpoint _ _ => true
  | .dischargeEnd _ => true
  | .offDischargeEnd _ => true
  | .vlinkLow => true
  | .vlinkRestored => true
  | .snapshotComplete => true
  | .stowIdleExpiry => true
  | .kregLowPower => true
  | .kregBoostEnd => true
  | .kregHeavy => true
  | .wakeSource _ _ _ => true
  | .corePgRise => true
  | .linkDieResetRelease _ => true
  | .powerUpFailure => true
  | .powerUpRetry => true
  | .linkDiePowerLoss => true
  | .corelossRestart => true
  | .wdtTimeout => true
  | .wdtGraceEnd => true
  | .hostRstEnd => true
  | .supplyFail => true
  | .flashSuspended => true
  | .pageProgramDone => true
  | .supplyRestored => true
  | .flOpDone _ _ => true
  | .mgWrite _ _ => true
  | .mgRead _ => true
  | .mgWriteBurst _ _ => true
  | .mgReadBurst _ _ => true
  | .mgStatus => true
  | .xinLoss => true
  | .sdChange _ _ => true
  | .mgCsNFalling => true
  | .frameerr => true
  | .flRead p _ => p == .mg
  | .flNext p => p == .mg
  | .flProgram p _ _ _ => p == .mg
  | .flErase4k p _ => p == .mg
  | .flErase64k p _ => p == .mg
  | .flAbort p => p == .mg
  | c => writesBy c == some .mg

/-- A command that may move CORE to the PLL: the writes that reach CLK_PLAN, and the lock of the PLL that such a
write has asked for (R39). -/
def movesCore : Instr → Bool
  | .pllLock _ => true
  | .clkPlanWrite _ _ => true
  | .registerWrite _ _ _ _ => true
  | .mgWrite _ _ => true
  | .mgWriteBurst _ _ => true
  | .setClockPlan => true
  | .cfgImageChecked _ _ => true
  | _ => false

/-- Path p reaches the registers of PF BAR0 now: the host through its open window, the management SPI
while REGLOCK lets it write, and the parties inside the Link die while it runs. -/
def reaches (s : State) : Path → Bool
  | .pf => linkOn s && winOpen s 0
  | .mg => linkOn s && !s.glob.mgWr
  | .hub => linkOn s
  | .cmd _ => linkOn s
  | .image => linkOn s
  | .vf _ => false
  | .restore => false

/-- Event `e`, raised in `s`, has reached every domain it is for. -/
def tells (s t : State) (e : Ev) : Prop :=
  ∀ d : DomN, evFor e d s.doms[d] = true → t.doms[d] = domRaise (evRoom s d) (now s) false e s.doms[d]

/-- A Link die block has handed an entry to the black-box write FIFO, stamped with TB_TIME. -/
def logsLink (s t : State) (code src : Nat) (w2 w3 : Word) : Prop :=
  t.que.bbf = (bbfPush s.que (mkEntry code src w2 w3 false (now s))).bbf

/-- A Power die block has stored an entry in B0, stamped with AON time. -/
def logsPower (s t : State) (code src : Nat) (w2 w3 : Word) : Prop :=
  t.bb = bbStore s.bb (mkEntry code src w2 w3 true s.aon.time)

/-- A training set reaches port n between packets, outside a flood, with its check word right. -/
abbrev setComes (s : State) (n : PortN) (k : TsKind) (a0 a1 chk : Word) : Prop :=
  linkOn s = true ∧ s.ports[n].flooding = false ∧ tsMisplaced s.ports[n] = false ∧ chk = trainCheck (tsCode k) a0 a1

/-- Port n is at a boundary and its transmitter is lit, so a training set goes out at once. -/
abbrev txReady (s : State) (n : PortN) : Prop := txFree s n = true ∧ s.ports[n].dark = false

/-- A training set as port n puts it out at rate `r`. -/
def setOut (n : PortN) (r : Nat) (k : TsKind) (a0 a1 : Word) : Out :=
  .ts n r k a0 a1 (trainCheck (tsCode k) a0 a1)

/-- The command has put out `x` twice, one directly after the other. -/
def sentTwice (s t : State) (x : Out) : Prop := ∃ later before, t.out = later ++ x :: x :: (before ++ s.out)

/-- A link-down of port n with this reason is in the black-box write FIFO, if that has room beside `used` entries
that come before it. -/
def downLogged (s t : State) (n : PortN) (reason : Word) (used : Nat) : Prop :=
  s.que.bbf.length + used < 16 → mkEntry 0x31 n.val reason (portStat s n) false (now s) ∈ t.que.bbf

/-- No selective suspend holds port n. -/
abbrev notSusp (s : State) (n : PortN) : Prop := bit s.aon.ports[n].feather 3 = false

/-- The hub function holds one request, a unicast one that has come through UP's link, for REQ `req`; its
setup block is whole and its LENGTH and DIR agree with the payload. -/
abbrev hubAsked (s : State) (r : HubReq) (req : Nat) (toRoot : Bool) : Prop :=
  linkOn s = true ∧ isUp s.ports[(0 : PortN)] = true ∧ s.bus.hubQ = [r] ∧ r.mc = false ∧ hubBad r.pkt = none ∧
    hubReq r.pkt = req ∧ hubForm r.pkt toRoot true = 0

/-- The request has been answered with this status and these data words, and the answer is kept for a retry. -/
def hubKept (t : State) (r : HubReq) (status : Nat) (odd : Bool) (data : List Word) : Prop :=
  t.bus.hubQ = [] ∧
    t.bus.kept = some { tag := r.pkt.hdr.tag, block := hubBlock r.pkt, odd := odd, words := w16 status :: data }

/-- And the response waits for UP, at requester 16 of the ULA. -/
def hubAnswered (t : State) (r : HubReq) (status : Nat) (odd : Bool) (data : List Word) : Prop :=
  hubKept t r status odd data ∧ ownTx (hubAnswer r.pkt odd (w16 status :: data)) .none ∈ vAt t.ula.reqs [] 16

/-- A reading request has been answered with status 0 and these bytes. -/
def hubRead (t : State) (r : HubReq) (bytes : List Nat) : Prop :=
  hubAnswered t r 0 (decide (bytes.length % 2 = 1)) (wordsOfBytes bytes)

/-- The survey packet `x` of a subtype waits, from UP or from below; with it taken the state is `u`. -/
abbrev surveyHas (s : State) (tsb : Nat) (up : Bool) (x : Inbox) (u : State) : Prop :=
  linkOn s = true ∧
    takeInbox s (fun x => x.dest = .survey && x.pkt.hdr.tsb.toNat = tsb && decide (x.port = 0) == up) = some (x, u)

/-- An engine's packet waits for UP, at requester 17 of the ULA. -/
def engineSent (t : State) (p : Pkt) (act : OnEop) : Prop := ownTx p act ∈ vAt t.ula.reqs [] 17

/-- A BREAK record of Dm with this cause waits for UP. -/
def breakSent (t : State) (m : DnN) (cause : Nat) : Prop :=
  ∃ y ∈ vAt t.ula.reqs [] 17, y.pkt.hdr.tsb = 6#8 ∧
    wAt y.pkt.payload 3 = (atFld (dnPort m).val 0 5 ||| atFld cause 5 3)

/-- Dm's switch is fitted and in no gang. -/
abbrev single (s : State) (m : DnN) : Prop :=
  s.pps[m].fitted = true ∧ leadOf s.ppsg.gang m = m ∧ gangLegs s m = [m]

/-- A configuration request reaches function d: its space is ready, and the function exists. -/
abbrev cfgReaches (s : State) (d : DomN) : Prop := linkOn s = true ∧ cfgOpen s = true ∧ domExists s d = true

/-- Domain d may start its next command, which is `c` of OP `op`. -/
abbrev cmdFront (s : State) (d : DomN) (op : Nat) (c : Cmd) : Prop :=
  linkOn s = true ∧ cmdReady s d = true ∧ s.doms[d].cmdQ.head? = some c ∧ cmdOp c = op

/-- The command has completed with this status. -/
def cmdEnded (s t : State) (d : DomN) (c : Cmd) (status : Nat) : Prop :=
  t.doms[d].lastCtag = c.w[1] ∧ t.doms[d].lastStat = status ∧ t.doms[d].cmdRun = none ∧
    t.doms[d].cmdQ = s.doms[d].cmdQ.tail

/-- The command waits for the statistics writer with its host data. -/
def cmdData (s t : State) (d : DomN) (c : Cmd) (r4 : Nat) (ws : List Word) : Prop :=
  t.doms[d].cmdRun = some { cmd := c, r4 := w16 r4, r5 := 0#16, data := some (cmdBase c, hostBytes ws), snap := false } ∧
    t.doms[d].cmdQ = s.doms[d].cmdQ.tail

/-- A unicast packet `x` that `f` accepts waits for endpoint k of the enabled local node, whose answer has room;
the endpoint is enabled, not halted, and its owner is not being torn down.  With it taken the state is `u`. -/
abbrev localHas (s : State) (f : Pkt → Bool) (k : EpN) (x : Inbox) (u : State) : Prop :=
  linkOn s = true ∧ isUp s.ports[(0 : PortN)] = true ∧ takeInbox s (fun p => forLocal f p && mayTake s p) = some (x, u) ∧ epIdx x.pkt.hdr = k ∧
    x.mc = false ∧ s.ln.en = true ∧ answerRoom s k = true ∧ isTorn s k = false ∧ s.ln.eps[k].en = true ∧
    s.ln.eps[k].halt = false

/-- Endpoint k has handed `p` to its owner's requester of the ULA. -/
def lnSent (s t : State) (k : EpN) (p : Pkt) (act : OnEop) : Prop :=
  ownTx p act ∈ vAt t.ula.reqs [] (20 + s.ln.eps[k].owner.val)

/-- Endpoint k has answered with a handshake. -/
def lnShook (s t : State) (k : EpN) (h : Hdr) (code : Nat) : Prop := lnSent s t k (hshk h code []) .none

/-- A host write of the piece p for domain d has gone out. -/
def wrote (t : State) (d : DomN) (p : Piece) : Prop := .hostWrite d p.addr p.bytes ∈ t.out

end Sys2Proof.Safety
end

