-- ==== Sys2Proof/Certificates/Slice0/Obligations.lean ====
section
/-! DEFINITION. The statements about the XK17 for the provers: the machine as a whole, and each family of
commands with what it does and what it leaves alone. -/

open Sys2Proof Sys2Proof.Machine Sys2Proof.Safety


/-! ## The machine as a whole -/

/-- A step takes the command at the front of the queue and carries it out on the state with the queue's
rest. -/
def Obligations.StepRunsFront : Prop :=
  ∀ (c : Instr) (cs : List Instr) (s : State), s.pending = c :: cs →
    step s = exec c { s with pending := cs }

/-- Every command, on every state, answers a next state, and no command changes the queue of waiting
commands: so a step never stops, and it takes exactly the front command off a queue that holds one.
That a command whose rule does not apply in the present state changes nothing is the model's inference (log entries 17 and 18). -/
def Obligations.EveryCommandCompletes : Prop :=
  (∀ (c : Instr) (s : State), ∃ t, exec c s = .next t ∧ t.pending = s.pending) ∧
  (∀ s : State, ∃ t, step s = .next t ∧ t.pending = s.pending.tail)

/-- A step with no command waiting is one CORE cycle (log entry 5, the model's own choice).  While the Link die
runs TB_TIME advances by 1 on the PLL and by 4 on FIRC; where TB_SYNT corrects the rate, XIN being that much fast
against the recovered clock, a tick is left out or added each time a whole one has gathered (log entry 132, the
model's choice), and the wait of a port between two tallies runs down.  AON time advances by 1 in an LPO cycle and
WDT_COUNT by one in a unit of the watchdog, at free values of the model (log entry 5), and so may a clock appear
on XIN (log entry 74).  While the Link die does not run its parts stand still. -/
def Obligations.IdleTickAdvancesTime : Prop :=
  ∀ s : State, s.pending = [] → ∃ t, step s = .next t ∧ t.pending = [] ∧ t.fresh = s.fresh + 1 ∧
    (linkOn s = true → s.tb.corr = false →
      t.tb.time = s.tb.time + (if s.clk.corePll then 1#64 else 4#64) ∧ t.tb.corrAcc = s.tb.corrAcc) ∧
    (linkOn s = true → s.tb.corr = true → s.clk.corePll = false → t.tb.time = s.tb.time + 4#64) ∧
    (linkOn s = true → s.tb.corr = true → s.clk.corePll = true →
      let a := s.tb.corrAcc - sInt s.tb.synt
      (100000000 ≤ a → t.tb.time = s.tb.time + 2#64 ∧ t.tb.corrAcc = a - 100000000) ∧
      (a ≤ -100000000 → t.tb.time = s.tb.time ∧ t.tb.corrAcc = a + 100000000) ∧
      (-100000000 < a → a < 100000000 → t.tb.time = s.tb.time + 1#64 ∧ t.tb.corrAcc = a)) ∧
    (∀ n : PortN, linkOn s = true → s.ports[n].tallyDue = false →
      t.ports[n].tallyWait = s.ports[n].tallyWait - (if s.clk.corePll then 1 else 4)) ∧
    t.aon.time = s.aon.time + (if powerOn s && Config.lpoEdge s.fresh then 1 else 0) ∧
    (powerOn s = true → s.pm.st ≠ .run → t.pm = { s.pm with
      idle := if s.pm.st = .feather ∧ whyFeather s = 0 then s.pm.idle + (if Config.lpoEdge s.fresh then 1 else 0)
        else 0 }) ∧
    t.wdt = (if powerOn s && Config.wdoscUnit s.fresh then { s.wdt with count := unitCount s.wdt } else s.wdt) ∧
    t.clk = { s.clk with xinOk := s.clk.xinOk || (linkOn s && Config.xinStarts s.fresh) } ∧
    (linkOn s = false → only [.aon, .pm, .wdt] s t) ∧
    only [.pm, .wdt, .mtr, .aon, .clk, .doms, .ln, .hma, .que, .ports, .bus, .tt, .tb, .out] s t

/-- Every step keeps the canonical form of endpoint memory, of the multicast table and of the schedules:
addresses strictly rising, and no entry that reads as an unlisted one does. -/
def Obligations.StepKeepsTables : Prop :=
  ∀ s t : State, tablesWf s = true → step s = .next t → tablesWf t = true

/-- Endpoint memory, the multicast table and the schedules have the canonical form at reset, with nothing
listed, and so are the slots of B0 empty: the model's choices where the spec gives the contents no value (log
entries 2, 6, 7 and 103). -/
def Obligations.ResetTables : Prop :=
  tablesWf State.reset = true ∧ State.reset.ln.mem = [] ∧ State.reset.bus.mc = [] ∧
    State.reset.bus.sched = [] ∧ State.reset.bb.slots = [] ∧ State.reset.pending = []

/-- WDT_LOCK, once set, stays set through every step, whatever command it carries out, but for POR, which clears
it.  A write of 1 to it sets it and does not set EN.  While it is set, a write that would change HRST_EN, MG_SVC or
WDT_GRACE is refused and sets WREF, as is the key sequence, which sets WREF too; one that carries the present values
is not refused and sets no WREF.  Without it these writes are stored. -/
def Obligations.WdtLockStays : Prop :=
  (∀ s t : State, s.wdt.lock = true → (∀ cs, s.pending ≠ .por :: cs) → step s = .next t → t.wdt.lock = true) ∧
  (∀ s : State, ∃ t, exec .por s = .next t ∧ t.wdt.lock = false) ∧
  (∀ p (v : BitVec 32) (w : Word) (s : State), p ≠ .mg → reaches s p = true → w = v.setWidth 16 →
    ∃ t, exec (.registerWrite p 0x600#16 (.full, v) []) s = .next t ∧ only [.wdt] s t ∧
      t.wdt.lock = (s.wdt.lock || bit w 1) ∧ t.wdt.en = (s.wdt.en || bit w 0) ∧
      (s.wdt.lock = true → t.wdt.hrstEn = s.wdt.hrstEn ∧ t.wdt.mgSvc = s.wdt.mgSvc ∧
        t.wdt.wref = (s.wdt.wref || bit w 2 != s.wdt.hrstEn || bit w 3 != s.wdt.mgSvc)) ∧
      (s.wdt.lock = false → t.wdt.hrstEn = bit w 2 ∧ t.wdt.mgSvc = bit w 3 ∧ t.wdt.wref = s.wdt.wref)) ∧
  (∀ (v : Word) (s : State), reaches s .mg = true →
    ∃ t, exec (.mgWrite 0x180#16 v) s = .next t ∧ only [.wdt, .mg, .out] s t ∧
      t.wdt.lock = (s.wdt.lock || bit v 1) ∧ t.wdt.en = (s.wdt.en || bit v 0) ∧
      (s.wdt.lock = true → t.wdt.hrstEn = s.wdt.hrstEn ∧ t.wdt.mgSvc = s.wdt.mgSvc ∧
        t.wdt.wref = (s.wdt.wref || bit v 2 != s.wdt.hrstEn || bit v 3 != s.wdt.mgSvc)) ∧
      (s.wdt.lock = false → t.wdt.hrstEn = bit v 2 ∧ t.wdt.mgSvc = bit v 3 ∧ t.wdt.wref = s.wdt.wref)) ∧
  (∀ p (v : BitVec 32) (n : Word) (s : State), p ≠ .mg → reaches s p = true → n = w16 (max 1 (v.toNat % 256)) →
    ∃ t, exec (.registerWrite p 0x60C#16 (.full, v) []) s = .next t ∧
      (s.wdt.lock = true → t.wdt = { s.wdt with wref := s.wdt.wref || n != s.wdt.graceReg }) ∧
      (s.wdt.lock = false → t.wdt = { s.wdt with graceReg := n }) ∧ only [.wdt] s t) ∧
  (∀ p (s : State), p = .pf ∨ p = .mg → reaches s p = true → s.wdt.lock = true → s.wdt.key = true →
    ∃ t, exec (.wdtKeyWrite p 0xD1B6#16) s = .next t ∧ t.wdt = { s.wdt with wref := true, key := false } ∧
      only [.wdt] s t)

/-- While VSYS is below POR or RESET_N is low, every command changes nothing, register accesses by any path and
the frames of the management SPI included; only the two supplies and pins that hold or end a reset, and
PE_PERST_N, whose level is kept, still act.  That a row is then without effect is read from the rules (log entry
18, the model's inference). -/
def Obligations.PowerDieInReset : Prop :=
  ∀ (c : Instr) (s : State), powerOn s = false → actsInReset c = false → exec c s = .next s

/-- A command of the Link die changes nothing while the Link die does not run: in FEATHER and STOW, during
a wake, and in reset.  So does a register access by every path but the management SPI.  That FEATHER stands here
with an unpowered Link die, and that such a row is without effect, are the model's inferences (log entries 18
and 19). -/
def Obligations.LinkDieOff : Prop :=
  ∀ (c : Instr) (s : State), linkOn s = false → powerDieRow c = false → exec c s = .next s

/-! ## Resets (chapter 2) -/

/-- POR clears everything on both dies, WDT_LOCK included, and the device is off; commands that wait stay.
RST_CAUSE keeps the bit of a RESET_N that acts at the same time.  When POR is released the straps are sampled,
its bit of RST_CAUSE is set, and unless RESET_N is low the wake order starts with PWR_EN high.  A switch whose
port is off discharges its output from the release on.
What a reset does to pins and to operations that outlive it is the model's inference (log entry 21). -/
def Obligations.PorAndRelease : Prop :=
  (∀ s : State, ∃ t, exec .por s = .next t ∧ t.pending = s.pending ∧ t.rst.por = true ∧
    t.rst.cause = (if s.rst.pin || s.rst.due then 0x0004#16 else 0#16) ∧
    t.pm.st = .off ∧ t.pm.pwrEn = false ∧ t.wdt.lock = false ∧ t.bb = Bb.reset ∧ t.mtr = Mtr.reset ∧
    t.pps = Vector.replicate 16 { Pps.reset with discharging := false } ∧ t.ports = Vector.replicate 17 Port.reset ∧
    t.ln.mem = [] ∧ t.bus = Bus.reset ∧ t.tb = Tb.reset ∧ t.doms = Vector.ofFn Dom.reset) ∧
  (∀ (straps : Word) (s : State), s.rst.por = true → s.rst.pin = false →
    ∃ t, exec (.porRelease straps) s = .next t ∧ t.rst.por = false ∧ t.rst.cause = s.rst.cause ||| 0x0001#16 ∧
      t.rst.straps = straps &&& 0x000F#16 ∧ t.wdt.en = straps.getLsbD 1 ∧ t.pm.st = .waking ∧
      t.pm.pwrEn = true ∧ (∀ m : DnN, t.pps[m] = { s.pps[m] with discharging := true }) ∧
      only [.rst, .wdt, .pm, .pps, .bb] s t) ∧
  (∀ (straps : Word) (s : State), s.rst.por = true → s.rst.pin = true →
    ∃ t, exec (.porRelease straps) s = .next t ∧ t.rst.por = false ∧ t.rst.cause = s.rst.cause ||| 0x0001#16 ∧
      t.pm.pwrEn = s.pm.pwrEn ∧ only [.rst, .wdt, .pm, .pps, .bb] s t)

/-- A low on RESET_N resets both dies and sets its bit of RST_CAUSE, keeping B0's record, B1, the energy sums,
WDT_LOCK and the count of expiries; its rise samples the straps and starts the wake.  An AON brown-out in
STOW or during a wake sets its bit, invalidates B1 and empties B0 but for the entry of the reset, and the device
wakes; PME_En and PME_Status stay, and from STOW the PF's PME_Status is set where its PME_En is.  The
count of expiries kept across RESET_N is log entry 23, the states in which a brown-out is recognised log
entry 24, and what it keeps of PME log entry 136: the model's inferences. -/
def Obligations.PinResetAndBrownOut : Prop :=
  (∀ s : State, s.rst.pin = false → s.rst.por = false → s.bb.flush = none →
    ∃ t, exec .resetNAssert s = .next t ∧ t.rst.pin = true ∧ t.rst.cause = s.rst.cause ||| 0x0004#16 ∧
      t.rst.straps = s.rst.straps ∧ t.pm.st = .waking ∧ t.pm.pwrEn = false ∧ t.pm.b1 = s.pm.b1 ∧
      t.wdt.lock = s.wdt.lock ∧ t.wdt.expiries = s.wdt.expiries ∧ t.wdt.grace = false ∧
      t.bb.slots = s.bb.slots ∧ t.bb.head = s.bb.head ∧ t.bb.count = s.bb.count ∧ t.bb.armed = false ∧
      (∀ m : DnN, t.mtr.ports[m].e = s.mtr.ports[m].e) ∧ t.pps = Vector.replicate 16 Pps.reset ∧
      t.ports = Vector.replicate 17 Port.reset ∧ t.ln.mem = [] ∧ t.tb = Tb.reset) ∧
  (∀ (straps : Word) (s : State), s.rst.pin = true → s.rst.por = false → s.rst.due = false →
    ∃ t, exec (.resetNRelease straps) s = .next t ∧ t.rst.pin = false ∧
      t.rst.straps = straps &&& 0x000F#16 ∧ t.wdt.en = straps.getLsbD 1 ∧ t.pm.pwrEn = true ∧
      t.rst.cause = s.rst.cause ∧ only [.rst, .wdt, .pm, .bb] s t) ∧
  (∀ s : State, powerOn s = true → s.pm.st = .stow ∨ s.pm.st = .waking → s.rst.due = false →
    ∃ t, exec .aonBrownout s = .next t ∧ t.rst.cause = s.rst.cause ||| 0x0002#16 ∧ t.pm.st = .waking ∧
      t.pm.pwrEn = true ∧ t.pm.b1 = none ∧ t.bb.count = 1 ∧ t.bb.head = 1 ∧ t.wdt.lock = s.wdt.lock ∧
      t.aon.time = 0 ∧ t.ports = Vector.replicate 17 Port.reset ∧ t.aon.pmeEn = s.aon.pmeEn ∧
      (∀ d : DomN, t.aon.pmeStat[d] = (s.aon.pmeStat[d] ||
        (decide (d = 0) && decide (s.pm.st = .stow) && s.aon.pmeEn[(0 : DomN)] && epStrap s))))

/-! ## Registers (chapters 1 and 21) -/

/-- A register write of one DW by a path that reaches the registers, with all lanes or both lower ones, writes
the register its offset names; one with no lanes, or to an offset that names no register, changes nothing; a write
of several DW acts as writes of one DW in ascending address order, with nothing between them; a host's write
through a window that is closed, the PF's or a VF's, writes nothing and is logged as an Unsupported Request, which
for a window closed by a link state or a reset is the model's choice (log entry 25); while the Link die does not
run, a path other than the management SPI writes nothing, and the path that restores B1 takes no command. -/
def Obligations.RegisterWrites : Prop :=
  (∀ p (off : Word) be v r (s : State), reaches s p = true → be = .full ∨ be = .both →
    regAtWord (off.toNat / 4) = some r →
    exec (.registerWrite p off (be, v) []) s = .next (writeReg s p (v.setWidth 16) r)) ∧
  (∀ w (off : Word) be v r (s : State), linkOn s = true → winOpen s (vfDom w) = true → be = .full ∨ be = .both →
    regAtVf (vfDom w) (off.toNat / 4 * 4) = some r →
    exec (.registerWrite (.vf w) off (be, v) []) s = .next (writeReg s (.vf w) (v.setWidth 16) r)) ∧
  (∀ (off : Word) v (s : State), reaches s .pf = true → ¬ (0x6000 ≤ off.toNat ∧ off.toNat < 0x6808) →
    exec (.registerWrite .pf off (.none, v) []) s = .next s) ∧
  (∀ p (off : Word) be v (s : State), reaches s p = true → be = .full ∨ be = .both →
    regAtWord (off.toNat / 4) = none → ¬ (0x6000 ≤ off.toNat ∧ off.toNat < 0x6808) →
    exec (.registerWrite p off (be, v) []) s = .next s) ∧
  (∀ p (off : Word) x y more (s t u : State), off.toNat + 4 < 0x10000 → powerOn t = powerOn s →
    exec (.registerWrite p off x []) s = .next t → exec (.registerWrite p (off + 4#16) y more) t = .next u →
    exec (.registerWrite p off x (y :: more)) s = .next u) ∧
  (∀ (off : Word) be v (s : State), linkOn s = true → winOpen s 0 = false →
    exec (.registerWrite .pf off (be, v) []) s = .next (winRefuse s 0 false)) ∧
  (∀ w (off : Word) be v (s : State), linkOn s = true → winOpen s (vfDom w) = false →
    exec (.registerWrite (.vf w) off (be, v) []) s = .next (winRefuse s (vfDom w) false)) ∧
  (∀ p (off : Word) x more (s : State), linkOn s = false → p ≠ .mg →
    exec (.registerWrite p off x more) s = .next s) ∧
  (∀ (off : Word) x more (s : State), exec (.registerWrite .restore off x more) s = .next s)

/-- A plain register reads back what was written to it, in its writable bits. -/
def Obligations.WrittenRegistersReadBack : Prop :=
  ∀ (s : State) (v : Word),
    (∀ rm ∈ [(Reg.scratch, 0xFFFF#16), (.featherIdle, 0xFFFF#16), (.stowIdle, 0xFFFF#16), (.retSel, 0x000F#16),
        (.wakeEn, 0x3FFF#16), (.wakePol, 0x00FF#16), (.wakeEdge, 0x00FF#16), (.wakeMode, 0x3FFF#16),
        (.kregCtrl, 0x0003#16), (.bbTrig0, 0xFFFF#16), (.bbTrig1, 0x80FF#16), (.bbPost, 0x00FF#16),
        (.lnClass, 0xFFFF#16), (.lnUid 0, 0xFFFF#16), (.lnUid 3, 0xFFFF#16), (.arb .hma .ctrl, 0x0007#16),
        (.arb .ula .ctrl, 0x0007#16)],
      readReg (writeReg s .pf v rm.1) .pf rm.1 = v &&& rm.2) ∧
    (∀ k : Fin 256, readReg (writeReg s .pf v (.mc k .grp)) .pf (.mc k .grp) = v ∧
      readReg (writeReg s .pf v (.mc k .ports)) .pf (.mc k .ports) = v ∧
      readReg (writeReg s .pf v (.mc k .loc)) .pf (.mc k .loc) = v &&& 0x8003#16) ∧
    (∀ (p : PortN) (j : Fin 64), readReg (writeReg s .pf v (.sched p j)) .pf (.sched p j) = v &&& 0xFFF0#16) ∧
    (∀ m : DnN, readReg (writeReg s .pf v (.port (dnPort m) .rangeLo)) .pf (.port (dnPort m) .rangeLo) = v ∧
      readReg (writeReg s .pf v (.port (dnPort m) .rangeHi)) .pf (.port (dnPort m) .rangeHi) = v)

/-- Writing 1 to a bit that is cleared by writing 1 clears it, and writing 0 leaves it: in RST_CAUSE, CLK_STAT,
TB_STAT, the queue, port, switch and domain errors, the flags and cut-offs of both arbiters, the flags of a crew
and ALLOC_ERR of an endpoint.  CUEPASS of a crew is said for a write that leaves the crew enabled. -/
def Obligations.WriteOneClears : Prop :=
  ∀ (s : State) (v : Word),
    (writeReg s .pf v .rstCause).rst.cause = s.rst.cause &&& ~~~v ∧
    (writeReg s .pf v (.qErr 0)).que.err0 = s.que.err0 &&& ~~~v ∧
    (writeReg s .pf v (.qErr 1)).que.err1 = s.que.err1 &&& ~~~v ∧
    (∀ n : PortN, (writeReg s .pf v (.port n .evt)).ports[n].evt = s.ports[n].evt &&& ~~~v ∧
      portsBut n s (writeReg s .pf v (.port n .evt))) ∧
    (∀ m : DnN, (writeReg s .pf v (.pps m .fault)).pps[m].fault = s.pps[m].fault &&& ~~~v ∧
      ppsBut m s (writeReg s .pf v (.pps m .fault))) ∧
    writeReg s .pf v .clkStat =
      { s with clk := { s.clk with refFb := s.clk.refFb && !bit v 5, badPlan := s.clk.badPlan && !bit v 7 } } ∧
    writeReg s .pf v .tbStat =
      { s with tb := { s.tb with
        step := s.tb.step && !bit v 12, loss := s.tb.loss && !bit v 13, holdExp := s.tb.holdExp && !bit v 14 } } ∧
    (∀ k : CrewN, let c := (writeReg s .pf v (.crew k .ctrl)).tb.crews[k]
      c.miss = (s.tb.crews[k].miss && !bit v 8) ∧ c.far = (s.tb.crews[k].far && !bit v 9) ∧
      c.ovr = (s.tb.crews[k].ovr && !bit v 10) ∧
      (bit v 0 = true → c.pass = (s.tb.crews[k].pass && !bit v 11))) ∧
    (domExists s 0 = true →
      (writeReg s .pf v (.dom 0 .err)).doms[(0 : DomN)].err = s.doms[(0 : DomN)].err &&& ~~~(v &&& 0x001F#16) ∧
      domsBut 0 s (writeReg s .pf v (.dom 0 .err))) ∧
    (∀ w : VfN, domExists s (vfDom w) = true →
      (writeReg s (.vf w) v (.dom (vfDom w) .err)).doms[vfDom w].err =
        s.doms[vfDom w].err &&& ~~~(v &&& 0x001F#16) ∧ domsBut (vfDom w) s (writeReg s (.vf w) v (.dom (vfDom w) .err))) ∧
    (∀ i : Fin 2, let m : BitVec 32 := BitVec.ofNat 32 (v.toNat * 65536 ^ i.val)
      (writeReg s .pf v (.arb .hma (.flag i))).hma.arb.flags = s.hma.arb.flags &&& ~~~m ∧
      (writeReg s .pf v (.arb .ula (.flag i))).ula.arb.flags = s.ula.arb.flags &&& ~~~m ∧
      (writeReg s .pf v (.arb .hma (.cut i))).hma.arb.cuts = s.hma.arb.cuts &&& ~~~m ∧
      (writeReg s .pf v (.arb .ula (.cut i))).ula.arb.cuts = s.ula.arb.cuts &&& ~~~m) ∧
    (∀ k : EpN, (writeReg s .pf v (.ep k .stat)).ln.eps[k].allocErr = (s.ln.eps[k].allocErr && !bit v 6) ∧
      epsBut k s (writeReg s .pf v (.ep k .stat)))

/-- The management port: every frame puts out the status byte and ends with MG_CS_N high; a write writes the
register its word address names, a burst those that follow, each word in turn, with the address modulo 65,536;
a read returns the register, a burst those that follow, and a burst from TB_TIME0 returns one consistent TB_TIME.
A frame on the wrong number of clocks sets FRAMEERR.  That a frame has one status byte, of the state at its start,
and that a burst's words act at its end are the model's choices (log entries 76 and 96). -/
def Obligations.ManagementFrames : Prop :=
  (∀ (a v : Word) r (s : State), reaches s .mg = true → a.toNat < 0x4000 → regAtWord a.toNat = some r →
    exec (.mgWrite a v) s = .next
      (let t := writeReg (emit s (.mgStatus (mgStatusByte s))) .mg v r
       { t with mg := { t.mg with cs := false } })) ∧
  (∀ (a : Word) (ws : List Word) (rs : List Reg) (s : State),
    let go (k : Nat) : State :=
      ((rs.zip ws).take k).foldl (fun u x => writeReg u .mg x.2 x.1) (emit s (.mgStatus (mgStatusByte s)))
    reaches s .mg = true → rs.length = ws.length →
    (∀ i < ws.length, (a.toNat + i) % 65536 < 0x4000 ∧ regAtWord ((a.toNat + i) % 65536) = rs[i]?) →
    (∀ k < ws.length, reaches (go k) .mg = true) →
    exec (.mgWriteBurst a ws) s = .next { go ws.length with mg := { (go ws.length).mg with cs := false } }) ∧
  (∀ (v w : Word) (s : State), powerOn s = true → s.glob.mgWr = false ∨ linkHeld s = false →
    ∃ t, exec (.mgWriteBurst 0x0102#16 [v, w]) s = .next t ∧ t.pm.featherIdle = v ∧ t.pm.stowIdle = w ∧
      t.out = .mgStatus (mgStatusByte s) :: s.out ∧ t.mg = { s.mg with cs := false } ∧ only [.pm, .mg, .out] s t) ∧
  (∀ (a : Word) r (s : State), linkOn s = true → a.toNat < 0x4000 → regAtWord a.toNat = some r →
    r ≠ .evfData 0 → r ≠ .tbTime 0 →
    ∃ t, exec (.mgRead a) s = .next t ∧
      t.out = .readData .mg (readReg s .mg r) :: .mgStatus (mgStatusByte s) :: s.out ∧
      t.mg = { s.mg with cs := false } ∧ only [.mg, .out] s t) ∧
  (∀ (a : Word) (n : Nat) (s : State), linkOn s = true →
    (∀ i < n, mgReg ((a.toNat + i) % 65536) ≠ some (.evfData 0) ∧ mgReg ((a.toNat + i) % 65536) ≠ some (.tbTime 0)) →
    ∃ t, exec (.mgReadBurst a n) s = .next t ∧
      t.out = ((List.range n).map fun i => Out.readData .mg
        ((mgReg ((a.toNat + i) % 65536)).elim 0#16 (readReg s .mg ·))).reverse ++ .mgStatus (mgStatusByte s) :: s.out ∧
      t.mg = { s.mg with cs := false } ∧ only [.mg, .out] s t) ∧
  (∀ s : State, linkOn s = true →
    ∃ t, exec (.mgReadBurst 0x0202#16 4) s = .next t ∧ t.tb.time = s.tb.time ∧
      t.out = [.readData .mg (wordOf (now s) 3), .readData .mg (wordOf (now s) 2), .readData .mg (wordOf (now s) 1),
        .readData .mg (wordOf (now s) 0), .mgStatus (mgStatusByte s)] ++ s.out ∧ only [.tb, .mg, .out] s t) ∧
  (∀ s : State, powerOn s = true →
    ∃ t, exec .mgStatus s = .next t ∧ t.mg.ldMiss = false ∧ t.mg.frameErr = false ∧ t.mg.cs = false ∧
      t.out = .mgStatus (mgStatusByte s) :: s.out ∧ only [.mg, .out] s t) ∧
  (∀ s : State, powerOn s = true →
    ∃ t, exec .frameerr s = .next t ∧ t.mg = { s.mg with frameErr := true, cs := false } ∧
      t.out = .mgStatus (mgStatusByte s) :: s.out ∧ only [.mg, .out] s t)

/-- A management access to a register of the Link die while it does not answer sets LDMISS, reads 0 and
writes nothing, and a register of the Power die answers all the same; REGLOCK.MG_WR bars every write but an
acting service, and sets REF.  That FEATHER stands with an unpowered Link die for an access is the model's inference (log
entry 19). -/
def Obligations.ManagementMisses : Prop :=
  (∀ (a : Word) r (s : State), powerOn s = true → linkOn s = false → a.toNat < 0x4000 →
    regAtWord a.toNat = some r → onPowerDie r = false →
    ∃ t, exec (.mgRead a) s = .next t ∧ t.mg = { ldMiss := true, frameErr := s.mg.frameErr, cs := false } ∧
      t.out = .readData .mg 0#16 :: .mgStatus (mgStatusByte s) :: s.out ∧ only [.mg, .out] s t) ∧
  (∀ (a v : Word) r (s : State), powerOn s = true → linkOn s = false →
    s.glob.mgWr = false ∨ linkHeld s = false → a.toNat < 0x4000 →
    regAtWord a.toNat = some r → onPowerDie r = false →
    ∃ t, exec (.mgWrite a v) s = .next t ∧ t.mg = { ldMiss := true, frameErr := s.mg.frameErr, cs := false } ∧
      t.out = .mgStatus (mgStatusByte s) :: s.out ∧ only [.mg, .out, .pm] s t ∧
      t.pm = (if s.pm.st ≠ .run ∧ bit s.pm.replay 12 = true ∧ s.pm.mgHeld = none
        then { s.pm with mgHeld := some (a.toNat, [v]) } else s.pm)) ∧
  (∀ (v : Word) (s : State), powerOn s = true → linkOn s = false → s.glob.mgWr = false ∨ linkHeld s = false →
    ∃ t, exec (.mgWrite 0x0104#16 v) s = .next t ∧ t.pm.retSel = v &&& 0x000F#16 ∧
      t.mg = { s.mg with cs := false } ∧ only [.pm, .mg, .out] s t) ∧
  (∀ (a v : Word) (s : State), linkHeld s = true → s.glob.mgWr = true → mgMayHold s = false →
    mgReg a.toNat ≠ some .wdtService →
    ∃ t, exec (.mgWrite a v) s = .next t ∧ t.glob = { s.glob with ref := true } ∧
      t.mg = { s.mg with cs := false } ∧ t.out = .mgStatus (mgStatusByte s) :: s.out ∧ only [.glob, .mg, .out] s t)

/-! ## Global commands (chapter 2) -/

/-- SWRST resets the Link die and keeps the PCIe link and configuration space, B0, the switches and the
metering sums, and sets its bit of RST_CAUSE; BYTEWR_CLEAR clears the count; a write to REGLOCK sets its
three locks unless LOCK is set, when a change is refused and sets REF; SCRATCH holds what is written.  What SWRST
keeps beside the listed parts is the model's inference (log entries 21 and 22). -/
def Obligations.GlobalCommands : Prop :=
  (∀ p (s : State), p = .pf ∨ p = .mg → reaches s p = true →
    ∃ t, exec (.swrst p) s = .next t ∧ t.rst.cause = s.rst.cause ||| 0x0010#16 ∧ t.pm.st = .waking ∧
      t.ports = Vector.replicate 17 Port.reset ∧ t.doms = Vector.ofFn Dom.reset ∧ t.tb = Tb.reset ∧
      t.bus = Bus.reset ∧ t.glob = Glob.reset ∧ t.ln.mem = [] ∧ t.hma = Hma.reset ∧ t.ula = Ula.reset ∧
      t.tt = Tt.reset ∧ t.que = Que.reset ∧ t.cen = Cen.reset ∧ t.sur = Sur.reset ∧
      t.pcie.link = s.pcie.link ∧ t.pcie.bar0 = s.pcie.bar0 ∧ t.pcie.numVfs = s.pcie.numVfs ∧
      t.pcie.reads = [] ∧ t.bb.slots = s.bb.slots ∧ t.wdt.lock = s.wdt.lock ∧ t.wdt.count = s.wdt.count ∧
      (∀ m : DnN, t.pps[m].st = s.pps[m].st ∧ t.pps[m].on = s.pps[m].on) ∧ t.mtr.ports = s.mtr.ports ∧
      t.out = s.out) ∧
  (∀ p (s : State), p = .pf ∨ p = .mg → reaches s p = true →
    ∃ t, exec (.bytewrClear p) s = .next t ∧ t.glob = { s.glob with bytewr := 0 } ∧ only [.glob] s t) ∧
  (∀ p (s : State), p = .pf ∨ p = .mg → reaches s p = true → s.glob.cfgBusy = false →
    ∃ t, exec (.cfgLoad p) s = .next t ∧
      t.glob = { s.glob with cfgBusy := true, cfgDone := false, cfgNone := false, cfgLoad := true } ∧
      t.out = .flash 1 0 12 (flMode s true) :: s.out ∧ only [.glob, .out] s t) ∧
  (∀ p (s : State), p = .pf ∨ p = .mg → reaches s p = true → s.glob.cfgBusy = true →
    ∃ t, exec (.cfgLoad p) s = .next t ∧ t.glob = { s.glob with cfgLoad := true } ∧ only [.glob] s t) ∧
  (∀ p (v : Word) (s : State), reaches s p = true → s.glob.lock = false →
    ∃ t, exec (.reglockWrite p v) s = .next t ∧
      t.glob = { s.glob with hubPwr := bit v 0, hubClk := bit v 1, mgWr := bit v 2,
                             ref := s.glob.ref && !bit v 14, lock := bit v 15 } ∧ only [.glob] s t) ∧
  (∀ p (v : Word) (s : State), reaches s p = true → s.glob.lock = true →
    bit v 0 ≠ s.glob.hubPwr ∨ bit v 1 ≠ s.glob.hubClk ∨ bit v 2 ≠ s.glob.mgWr →
    ∃ t, exec (.reglockWrite p v) s = .next t ∧ t.glob = { s.glob with ref := true } ∧ only [.glob] s t)

/-- The check of a configuration image ends the load.  An image that cannot be read or fails its check, one without
records among them, sets CFG_ERR and is logged with the reason, an erased flash sets CFG_NONE, and neither writes a
register.  An image that passes is applied record by record in its order, each as a write of its path to the register
at its word address; then CFG_DONE is set, its FLAGS take effect, and IMAGE_APPLIED is logged.  BUSY ends in every case.
A scan for the last gasp that waited for the load starts then, and so does one after every image applied: it reads the
region, or sets FULL.  Without a load that runs the row changes nothing (log entry 17), and what a scan knows of the
image after a failed read is a free value of the model (log entry 167). -/
def Obligations.ConfigurationImage : Prop :=
  (∀ ok ws (s : State), linkOn s = true → s.glob.cfgBusy = false → exec (.cfgImageChecked ok ws) s = .next s) ∧
  (∀ ws (s : State), linkOn s = true → s.glob.cfgBusy = true →
    ∃ t, exec (.cfgImageChecked false ws) s = .next t ∧
      t.glob = { s.glob with cfgBusy := false, cfgLoad := false, cfgErr := true, imgSeen := none } ∧
      logsLink s t 0x04 0 5#16 (wAt ws 2) ∧ (s.bb.scanDue = false → t.out = s.out) ∧ only [.glob, .que, .bb, .out] s t) ∧
  (∀ ws (s : State), linkOn s = true → s.glob.cfgBusy = true → wAt ws 0 ≠ 0x584B#16 →
    ∃ t, exec (.cfgImageChecked true ws) s = .next t ∧
      t.glob = { s.glob with cfgBusy := false, cfgLoad := false, cfgNone := true, imgSeen := some 0 } ∧
      (s.bb.scanDue = false → only [.glob] s t) ∧ only [.glob, .bb, .out] s t) ∧
  (∀ ws (s : State), linkOn s = true → s.glob.cfgBusy = true → wAt ws 0 = 0x584B#16 →
    imageBad ws ≠ 0 ∨ (wAt ws 1 = 1#16 ∧ wAt ws 2 = 0#16) →
    ∃ t, exec (.cfgImageChecked true ws) s = .next t ∧
      t.glob = { s.glob with cfgBusy := false, cfgLoad := false, cfgErr := true, imgSeen := some 0 } ∧
      logsLink s t 0x04 0 (if wAt ws 1 = 1#16 ∧ wAt ws 2 = 0#16 then 2#16 else w16 (imageBad ws)) (wAt ws 2) ∧
      (s.bb.scanDue = false → t.out = s.out) ∧ only [.glob, .que, .bb, .out] s t) ∧
  (∀ ws (us : Nat → State) (s u : State), linkOn s = true → s.glob.cfgBusy = true → wAt ws 0 = 0x584B#16 →
    imageBad ws = 0 → us 0 = s →
    (∀ i < (wAt ws 2).toNat, us (i + 1) = (if linkOn (us i) then
      (match regAtWord (wAt ws (6 + 2 * i)).toNat with
        | some r => writeReg (us i) .image (wAt ws (7 + 2 * i)) r
        | none => us i) else us i)) →
    u = us (wAt ws 2).toNat →
    ∃ t, exec (.cfgImageChecked true ws) s = .next t ∧
      t.glob = { u.glob with cfgBusy := false, cfgLoad := false, cfgDone := true, imgCount := (wAt ws 2).toNat,
                             imgSeen := some (wAt ws 2).toNat, imgFlags := fld (wAt ws 3) 0 3 } ∧
      logsLink u t 0x03 0 (wAt ws 2) 0#16 ∧
      (bit u.bb.ctrl 3 = false ∨ u.bb.armed = true → t.out = u.out) ∧
      (linkOn u = true → bit u.bb.ctrl 3 = true → u.bb.armed = false → u.bb.scan = false →
        (let ready := scanReady { u with glob := { u.glob with imgSeen := some (wAt ws 2).toNat } }
         (ready = true → t.bb.scan = true ∧ t.out = .flash 1 (regionAt u.bb) 4096 (flMode t true) :: u.out) ∧
         (ready = false → t.bb.full = true ∧ t.out = u.out))) ∧
      only [.glob, .que, .bb, .out] u t) ∧
  (∀ ok ws seen (s : State), linkOn s = true → s.glob.cfgBusy = true → s.bb.scanDue = true →
    bit s.bb.ctrl 3 = true → s.bb.armed = false → s.bb.scan = false →
    (ok = false ∧ seen = none) ∨
      (ok = true ∧ (wAt ws 0 ≠ 0x584B#16 ∨ imageBad ws ≠ 0) ∧ seen = some 0) →
    ∃ t, exec (.cfgImageChecked ok ws) s = .next t ∧ t.bb.scanDue = false ∧
      (let ready := scanReady { s with glob := { s.glob with imgSeen := seen } }
       (ready = true → t.bb.scan = true ∧ t.bb.full = s.bb.full ∧
         t.out = .flash 1 (regionAt s.bb) 4096 (flMode s true) :: s.out) ∧
       (ready = false → t.bb.scan = false ∧ t.bb.full = true ∧ t.out = s.out)))

/-- A write of one lane of a register is ignored and counted in GSTAT.BYTEWR, through the PF's window and
through a VF's; at a reserved address it is ignored and not counted. -/
def Obligations.ByteWritesIgnored : Prop :=
  (∀ (off : Word) v r (s : State), reaches s .pf = true → regAtWord (off.toNat / 4) = some r →
    ∃ t, exec (.registerWrite .pf off (.one, v) []) s = .next t ∧ exec (.byteWrite .pf off) s = .next t ∧
      t.glob = { s.glob with bytewr := satInc 255 s.glob.bytewr } ∧ only [.glob] s t) ∧
  (∀ w (off : Word) v r (s : State), linkOn s = true → winOpen s (vfDom w) = true →
    regAtVf (vfDom w) (off.toNat / 4 * 4) = some r →
    ∃ t, exec (.registerWrite (.vf w) off (.one, v) []) s = .next t ∧ exec (.byteWrite (.vf w) off) s = .next t ∧
      t.glob = { s.glob with bytewr := satInc 255 s.glob.bytewr } ∧ only [.glob] s t) ∧
  (∀ (off : Word) v (s : State), reaches s .pf = true → regAtWord (off.toNat / 4) = none →
    ¬ (0x6000 ≤ off.toNat ∧ off.toNat < 0x6808) →
    exec (.registerWrite .pf off (.one, v) []) s = .next s ∧ exec (.byteWrite .pf off) s = .next s) ∧
  (∀ w (off : Word) v (s : State), linkOn s = true → winOpen s (vfDom w) = true →
    regAtVf (vfDom w) (off.toNat / 4 * 4) = none → ¬ (0x800 ≤ off.toNat ∧ off.toNat < 0xC08) →
    exec (.registerWrite (.vf w) off (.one, v) []) s = .next s ∧ exec (.byteWrite (.vf w) off) s = .next s)

/-- SCRATCH holds what is written to it, by any path that reaches it, and nothing else changes; every reset
that reaches the Link die clears it: POR, RESET_N, the AON brown-out, GCTRL.SWRST, the watchdog's, and that of a
loss of the Link die's power, by its supervisor or by a flush at a failing supply; the restart after the loss finds
it clear.  A RESET_N that falls during a flush waits, and clears it with the flush's last page.  How the waiting
reset is kept, and in which states a brown-out, the end of grace and a loss of power act, are the model's inferences
(log entries 21, 23, 24 and 66). -/
def Obligations.ScratchRegister : Prop :=
  (∀ p (v : BitVec 32) (s : State), p ≠ .mg → reaches s p = true →
    ∃ t, exec (.registerWrite p 0x44#16 (.full, v) []) s = .next t ∧
      t.glob = { s.glob with scratch := v.setWidth 16 } ∧ only [.glob] s t ∧
      readReg t p .scratch = v.setWidth 16) ∧
  (∀ (v : Word) (s : State), reaches s .mg = true →
    ∃ t, exec (.mgWrite 0x0011#16 v) s = .next t ∧ t.glob = { s.glob with scratch := v } ∧
      only [.glob, .mg, .out] s t ∧ readReg t .mg .scratch = v) ∧
  (∀ s : State, ∃ t, exec .por s = .next t ∧ t.glob.scratch = 0#16) ∧
  (∀ s : State, s.rst.pin = false → s.rst.por = false → s.bb.flush = none →
    ∃ t, exec .resetNAssert s = .next t ∧ t.glob.scratch = 0#16) ∧
  (∀ s : State, powerOn s = true → s.pm.st = .stow ∨ s.pm.st = .waking → s.rst.due = false →
    ∃ t, exec .aonBrownout s = .next t ∧ t.glob.scratch = 0#16) ∧
  (∀ p (s : State), p = .pf ∨ p = .mg → reaches s p = true →
    ∃ t, exec (.swrst p) s = .next t ∧ t.glob.scratch = 0#16) ∧
  (∀ s : State, powerOn s = true → s.wdt.grace = true → s.wdt.paused = false →
    ∃ t, exec .wdtGraceEnd s = .next t ∧ t.glob.scratch = 0#16) ∧
  (∀ s : State, powerOn s = true → s.pm.st = .run ∨ s.pm.st = .feather → s.pm.pwrEn = true → bit s.pm.pwrSeq 0 = false →
    ∃ t, exec .linkDiePowerLoss s = .next t ∧ t.glob.scratch = 0#16) ∧
  (∀ s : State, powerOn s = true → s.pm.lossWait = true →
    ∃ t, exec .corelossRestart s = .next t ∧ t.glob = s.glob ∧ t.pm.pwrEn = true) ∧
  (∀ s : State, powerOn s = true → s.bb.flush = none → flushBar s = 0 → flashWorks s = false → s.pm.st ≠ .stow →
    ∃ t, exec .supplyFail s = .next t ∧ t.glob.scratch = 0#16) ∧
  (∀ f (s : State), powerOn s = true → s.rst.due = false → s.bb.flush = some f →
    ∃ t, exec .resetNAssert s = .next t ∧ t.rst = { s.rst with due := true, dueRise := false } ∧ only [.rst] s t) ∧
  (∀ f (s : State), powerOn s = true → s.rst.due = true → s.bb.flush = some f → f.pins = true →
    flushPages s.bb ≤ f.pages + 1 →
    ∃ t, exec .pageProgramDone s = .next t ∧ t.glob.scratch = 0#16 ∧ t.rst.due = false ∧ t.bb.flush = none ∧
      t.rst.pin = !s.rst.dueRise)

/-! ## Clocks and the time base (chapters 1 and 7) -/

/-- CLK_PLAN stores its fields, a reserved REF_SEL leaving that field and setting BADPLAN; with EN = 0 the
PLL has no lock and CORE runs on FIRC; with EN = 1 a locked PLL that has a clock on XIN keeps its lock, runs
from the reference that REF_SEL and R23 give, and CORE follows CORE_SEL.  The PLL locks to the reference R23 lets it take, and CORE follows CORE_SEL; a recovered clock that stops
falls back to XIN with REF_FB and without losing lock, and the time base applies TB_SYNT from then on; with no
clock on XIN the lock goes and CORE runs on FIRC; the return to the recovered clock ends that correction; an
XIN that stops while it is the reference takes the lock with it.  The model's choices in this are what a reserved
REF_SEL leaves of the write (log entry 88), that a written REF_SEL = 0 is no fallback (89), that a CLK_PLAN write
takes the recovered clock whenever R23 allows it (106), that REF_ACT reads 0 until PLL_LOCK (107), and that an XIN
lost as the reference takes the lock where the recovered clock was allowed too (108).
Over every step and every command: CORE moves to the PLL only by a command that may write CLK_PLAN or by the lock of
the PLL, with CORE_SEL = 1 in CLK_PLAN; so no reset and no time-out moves it there (R39).  The clauses say so for
states in which a Link die that does not run has no lock, which every step keeps. -/
def Obligations.ClockPlanAndPll : Prop :=
  (∀ p (v : Word) (s : State), reaches s p = true →
    ∃ t, exec (.clkPlanWrite p v) s = .next t ∧
      t.clk.plan = (if 2 ≤ fld v 1 2 then (v &&& 0x0019#16) ||| (s.clk.plan &&& 0x0006#16) else v &&& 0x001F#16) ∧
      t.clk.badPlan = (s.clk.badPlan || decide (2 ≤ fld v 1 2)) ∧
      (bit v 0 = false → t.clk.pllLock = false ∧ t.clk.corePll = false ∧ t.clk.fbDue = false) ∧
      (bit v 0 = true → s.clk.pllLock = true → s.clk.xinOk = true → t.clk.pllLock = true ∧
        t.clk.corePll = bit v 3 ∧
        t.clk.refAct = (if fld t.clk.plan 1 2 = 1 ∧ isUp s.ports[(0 : PortN)] = true ∧ 2 ≤ s.ports[(0 : PortN)].rate
          then 2 else 1)) ∧
      only [.bb, .pps, .aon, .clk, .doms, .ula, .que, .ports, .tt, .tb, .sur, .out] s t) ∧
  (∀ (xin : Bool) (s : State), linkOn s = true → bit s.clk.plan 0 = true → s.clk.pllLock = false →
    refTarget { s with clk := { s.clk with xinOk := xin } } ≠ 0 →
    ∃ t, exec (.pllLock xin) s = .next t ∧ t.clk.pllLock = true ∧ t.clk.xinOk = xin ∧ t.clk.plan = s.clk.plan ∧
      t.clk.refAct = refTarget { s with clk := { s.clk with xinOk := xin } } ∧ t.clk.fbDue = false ∧
      t.clk.corePll = bit s.clk.plan 3 ∧
      only [.bb, .pps, .aon, .clk, .doms, .ula, .que, .ports, .tt, .tb, .sur, .out] s t) ∧
  (∀ s : State, linkOn s = true → s.clk.pllLock = true → s.clk.refAct = 2 →
    ∃ t, exec (.refFallback true) s = .next t ∧
      t.clk = { s.clk with xinOk := true, refAct := 1, refFb := true } ∧ t.tb.corr = true ∧
      only [.bb, .aon, .clk, .doms, .que, .tb, .out] s t) ∧
  (∀ s : State, linkOn s = true → s.clk.pllLock = true → s.clk.refAct = 2 →
    ∃ t, exec (.refFallback false) s = .next t ∧
      t.clk = { s.clk with xinOk := false, refAct := 0, pllLock := false, corePll := false } ∧
      only [.bb, .pps, .aon, .clk, .doms, .ula, .que, .ports, .tt, .tb, .sur, .out] s t) ∧
  (∀ s : State, linkOn s = true → s.clk.pllLock = true → s.clk.refAct = 1 → refTarget s = 2 →
    ∃ t, exec .refReturn s = .next t ∧ t.clk = { s.clk with refAct := 2 } ∧ t.tb.corr = false ∧
      only [.bb, .aon, .clk, .doms, .que, .tb, .out] s t) ∧
  (∀ s : State, powerOn s = true → s.clk.refAct = 1 →
    ∃ t, exec .xinLoss s = .next t ∧
      t.clk = { s.clk with xinOk := false, refAct := 0, pllLock := false, corePll := false } ∧
      only [.bb, .pps, .aon, .clk, .doms, .ula, .que, .ports, .tt, .tb, .sur, .out] s t) ∧
  (∀ s : State, powerOn s = true → s.clk.refAct ≠ 1 →
    ∃ t, exec .xinLoss s = .next t ∧ t.clk = { s.clk with xinOk := false } ∧ only [.clk] s t) ∧
  (∀ (c : Instr) (s t : State), (linkOn s = false → s.clk.pllLock = false) → exec c s = .next t →
    s.clk.corePll = false → t.clk.corePll = true → movesCore c = true ∧ bit t.clk.plan 3 = true) ∧
  (∀ s t : State, (linkOn s = false → s.clk.pllLock = false) → step s = .next t → s.clk.corePll = false →
    t.clk.corePll = true → ∃ c cs, s.pending = c :: cs ∧ movesCore c = true) ∧
  (∀ s t : State, (linkOn s = false → s.clk.pllLock = false) → step s = .next t →
    (linkOn t = false → t.clk.pllLock = false))

/-- On the grid, a boundary falls where TB_TIME is a multiple of the stroke length: it takes its number and its
time from TB_TIME, the schedules written since take effect, every translator slot counts it and STROKE_OUT goes
high if it is enabled; a boundary already taken is not taken again.  A missed beacon is counted; off the grid
the boundary is placed one stroke after the last; the fourth in a row loses the lock, and the time base is in
holdover.  That a boundary is taken once is log entry 44, and that a missed beacon restarts the run of R156 log
entry 104, the model's choices. -/
def Obligations.StrokeBoundaries : Prop :=
  (∀ s : State, linkOn s = true → s.tb.locked || s.tb.holdover → now s % strokeTicks s.tb.len = 0 →
    s.tb.bound ≠ s.tb.time →
    ∃ t, exec .strokeBoundary s = .next t ∧
      t.tb = { s.tb with stroke := BitVec.ofNat 32 (now s / strokeTicks s.tb.len), bound := s.tb.time,
                         soOn := s.tb.so || s.tb.soOn } ∧
      t.bus = { s.bus with schedAct := s.bus.sched } ∧
      (∀ j : Fin 48, t.tt.slots[j] = s.tt.slots[j].map fun x => { x with strokes := x.strokes + 1 }) ∧
      only [.bus, .tt, .tb] s t) ∧
  (∀ s : State, linkOn s = true → s.tb.bound = s.tb.time → exec .strokeBoundary s = .next s) ∧
  (∀ s : State, linkOn s = true → s.tb.locked = false → s.tb.holdover = false → s.tb.valid = true →
    ∃ t, exec .beaconMissed s = .next t ∧
      t.tb = { s.tb with missed := satInc 15 s.tb.missed, bcnOk := false, runIn := 0, fits := [],
                         stroke := s.tb.stroke + 1#32,
                         bound := s.tb.bound + BitVec.ofNat 64 (strokeTicks s.tb.len),
                         soOn := s.tb.so || s.tb.soOn } ∧
      t.bus = { s.bus with schedAct := s.bus.sched } ∧ only [.bus, .tt, .tb] s t) ∧
  (∀ s : State, linkOn s = true → s.tb.locked = true → s.tb.missed < 3 →
    ∃ t, exec .beaconMissed s = .next t ∧
      t.tb = { s.tb with missed := s.tb.missed + 1, bcnOk := false, runIn := 0, fits := [] } ∧ only [.tb] s t) ∧
  (∀ s : State, linkOn s = true → s.tb.locked = true → 3 ≤ s.tb.missed →
    ∃ t, exec .beaconMissed s = .next t ∧ t.tb.locked = false ∧ t.tb.loss = true ∧ t.tb.holdover = true ∧
      t.tb.stroke = s.tb.stroke ∧ t.tb.bound = s.tb.bound ∧ only [.bb, .aon, .doms, .que, .tb, .out] s t)

/-- A beacon on UP: one that a flood cut, and any while UP has no link, changes nothing; a wrong check word
counts a code violation; a good one whose k fits the stroke length in use clears the count of missed beacons and
gives TB_OFFSET its O, and off the grid it is the boundary of the stroke it names; one whose k fits no length is
refused and counted.  A good one goes out on every downstream port that carries beacons, and on no other, with the
same N and the time F + d + r; with the servo on an O of more than 400 ticks is added at once, sets STEP and loses
the lock, and a smaller one replaces the correction to be slewed in; the eighth in a row within LOCK_WIN gains the
lock when the other conditions hold, and the third in a row outside it loses the lock.  The residence r is a free
value.  The model's choices: O is taken at TB_TIME of the row (log entry 150) and TB_OFFSET takes its low 32 bits
(156), a wrong check word counts in CODEERR (50), a step discards the slew and restarts the run (105) and makes no
boundary of its own (157), and a beacon while UP has no link changes nothing (18). -/
def Obligations.StrokeBeacons : Prop :=
  (∀ ws chk (s : State), linkOn s = true → isUp s.ports[(0 : PortN)] = false →
    exec (.stkBeaconRx ws chk true) s = .next s) ∧
  (∀ ws chk (s : State), linkOn s = true → exec (.stkBeaconRx ws chk false) s = .next s) ∧
  (∀ ws chk (s : State), linkOn s = true → isUp s.ports[(0 : PortN)] = true → s.ports[(0 : PortN)].flooding = false →
    crc16 (ws.take 6) ≠ chk →
    ∃ t, exec (.stkBeaconRx ws chk true) s = .next t ∧
      t.ports[(0 : PortN)].codeErr = satInc 65535 s.ports[(0 : PortN)].codeErr ∧ portsBut 0 s t ∧ only [.ports] s t) ∧
  (∀ a b c d e f (s : State), linkOn s = true → isUp s.ports[(0 : PortN)] = true →
    s.ports[(0 : PortN)].flooding = false →
    (beaconFits (ofWords [f, e, d, c]) (a.toNat * 65536 + b.toNat)).contains s.tb.len = true →
    let o := beaconOffset s (ofWords [f, e, d, c])
    let sends (m : DnN) : Prop :=
      isUp s.ports[dnPort m] = true ∧ bit s.aon.ports[dnPort m].feather 3 = false ∧ s.aon.ports[dnPort m].hold = .none
    let inWin : Prop := o.natAbs ≤ 4 * s.tb.lockWin
    ∃ t, exec (.stkBeaconRx [a, b, c, d, e, f] (crc16 [a, b, c, d, e, f]) true) s = .next t ∧
      t.tb.missed = 0 ∧ t.tb.bcnOk = true ∧ t.tb.badLen = 0 ∧ t.tb.offset = BitVec.ofInt 32 o ∧
      (s.tb.locked = false → s.tb.holdover = false →
        t.tb.stroke = BitVec.ofNat 32 (a.toNat * 65536 + b.toNat) ∧ t.tb.bound = t.tb.time ∧
        t.bus.schedAct = s.bus.sched) ∧
      (∀ m : DnN, sends m →
        let x := (ofWords [f, e, d, c] + s.tb.hop.toNat + Config.residence s.fresh (dnPort m).val) % 2 ^ 64
        let ws := [a, b, wordOf x 3, wordOf x 2, wordOf x 1, wordOf x 0]
        Out.stk (dnPort m) (ws ++ [crc16 ws]) ∈ t.out) ∧
      (∀ (m : DnN) ws, ¬ sends m → Out.stk (dnPort m) ws ∈ t.out → Out.stk (dnPort m) ws ∈ s.out) ∧
      (s.tb.servo = false → t.tb.time = s.tb.time ∧ t.tb.todo = s.tb.todo) ∧
      (s.tb.servo = true → o.natAbs ≤ 400 → t.tb.time = s.tb.time ∧ t.tb.todo = o ∧ t.tb.step = s.tb.step) ∧
      (s.tb.servo = true → 400 < o.natAbs →
        t.tb.time = s.tb.time + BitVec.ofInt 64 o ∧ t.tb.todo = 0 ∧ t.tb.step = true ∧ t.tb.locked = false ∧
        t.tb.holdover = false) ∧
      (inWin → o.natAbs ≤ 400 ∨ s.tb.servo = false → t.tb.runIn = satInc 8 s.tb.runIn ∧ t.tb.runOut = 0) ∧
      (¬ inWin → t.tb.runIn = 0 ∧ t.tb.runOut = satInc 3 s.tb.runOut) ∧
      (s.tb.locked = false → lockCond s = true → inWin → 7 ≤ s.tb.runIn →
        o.natAbs ≤ 400 → t.tb.locked = true ∧ t.tb.holdover = false) ∧
      (s.tb.locked = false → s.tb.runIn < 7 → t.tb.locked = false) ∧
      (s.tb.locked = true → ¬ inWin → 2 ≤ s.tb.runOut → o.natAbs ≤ 400 →
        t.tb.locked = false ∧ t.tb.loss = true ∧ t.tb.holdover = true) ∧
      only [.bb, .aon, .doms, .ln, .hma, .que, .ports, .bus, .tt, .tb, .out] s t) ∧
  (∀ a b c d e f (s : State), linkOn s = true → isUp s.ports[(0 : PortN)] = true →
    s.ports[(0 : PortN)].flooding = false →
    beaconFits (ofWords [f, e, d, c]) (a.toNat * 65536 + b.toNat) = [] →
    ∃ t, exec (.stkBeaconRx [a, b, c, d, e, f] (crc16 [a, b, c, d, e, f]) true) s = .next t ∧
      t.tb = { s.tb with badBcn := satInc 3 s.tb.badBcn, badLen := satInc 2 s.tb.badLen, fits := [] } ∧
      only [.tb] s t)

/-- A slew tick adds or withholds one tick of the correction that is left; the end of a holdover sets HOLDEXP
and logs TB_STAT; a catch that TB_TIME has reached asserts the pins mapped to its crew and releases the cues held
for it, and a row before that instant changes nothing; CATCH_PIN_END and STROKE_OUT_END end their pulses.  That a
row names the crews that catch, that the tick which reaches the instant makes the catch too, and that a slew tick
may take a boundary are the model's choices (log entries 42, 44 and 138), and so is that the end of a holdover that
does not run, or a catch that is not due, changes nothing (17 and 18). -/
def Obligations.SlewHoldoverAndPins : Prop :=
  (∀ s : State, linkOn s = true → s.tb.servo = true → 0 < s.tb.todo →
    ∃ t, exec .slewTick s = .next t ∧ t.tb.time = s.tb.time + 1#64 ∧ t.tb.todo = s.tb.todo - 1 ∧
      only [.mtr, .aon, .doms, .ln, .hma, .que, .ports, .bus, .tt, .tb, .out] s t) ∧
  (∀ s : State, linkOn s = true → s.tb.servo = true → s.tb.todo < 0 →
    ∃ t, exec .slewTick s = .next t ∧ t.tb.time = s.tb.time - 1#64 ∧ t.tb.todo = s.tb.todo + 1 ∧
      only [.mtr, .aon, .doms, .ln, .hma, .que, .ports, .bus, .tt, .tb, .out] s t) ∧
  (∀ s : State, linkOn s = true → s.tb.holdover = true →
    ∃ t, exec .holdoverExpiry s = .next t ∧ t.tb.holdover = false ∧ t.tb.holdExp = true ∧ t.tb.time = s.tb.time ∧
      (s.que.bbf.length < 16 →
        mkEntry 0x42 0 (tbStat { s with tb := { s.tb with holdover := false, holdExp := true } }) 0#16 false (now s) ∈
          t.que.bbf) ∧
      only [.bb, .aon, .doms, .ln, .hma, .que, .ports, .tt, .tb, .out] s t) ∧
  (∀ s : State, linkOn s = true → s.tb.holdover = false → exec .holdoverExpiry s = .next s) ∧
  (∀ (k : CrewN) i (s : State), linkOn s = true → nextCatch s k = some i → i ≤ now s →
    ∃ t, exec (.catchDue (1#8 <<< k.val)) s = .next t ∧
      (∀ j : Fin 4, t.tb.catchOn[j] = (s.tb.catchOn[j] || pinOf k s.tb.pins[j])) ∧
      (∀ (n : PortN) x c, x ∈ t.ports[n].txq → x.cue = some (k, c) → now s < c) ∧
      t.tb.crews = s.tb.crews ∧ t.tb.time = s.tb.time ∧ (s.tb.crews[k].snap = false → t.mtr = s.mtr) ∧
      only [.mtr, .aon, .doms, .ln, .hma, .que, .ports, .tt, .tb, .out] s t) ∧
  (∀ crews (s : State), linkOn s = true → (∀ k i, nextCatch s k = some i → now s < i) →
    exec (.catchDue crews) s = .next s) ∧
  (∀ (i : Fin 4) (s : State), linkOn s = true →
    ∃ t, exec (.catchPinEnd i) s = .next t ∧ t.tb.catchOn[i] = false ∧
      (∀ j : Fin 4, j ≠ i → t.tb.catchOn[j] = s.tb.catchOn[j]) ∧ t.tb.time = s.tb.time ∧ only [.tb] s t) ∧
  (∀ s : State, linkOn s = true →
    ∃ t, exec .strokeOutEnd s = .next t ∧ t.tb = { s.tb with soOn := false } ∧ only [.tb] s t)

/-! ## Links (chapter 3) -/

/-- A port that may leave DETECT goes to ALIGN when SD qualifies, and its SD is noted in every power state; SD
that is lost takes a port in training back to DETECT and a link down, but is part of a flood while FLD is
asserted; a port in ALIGN that has found word alignment sends two TS_CAP and is in CAPS; an ALIGN or CAPS that
takes too long is a training failure, which holds DETECT until DETECT_HOLD_END.
Rows whose timer does not run or whose rule does not apply change nothing (log entries 17 and 18), and a port with SUSP = 1 that loses its link is held at once (94). -/
def Obligations.DetectAndAlign : Prop :=
  (∀ n (s : State), linkOn s = true → mayLeaveDetect s n = true →
    ∃ t, exec (.sdQualified n) s = .next t ∧ t.ports[n] = portAlign s.ports[n] ∧ portsBut n s t ∧
      t.aon.ports[n].sd = true ∧ only [.ports, .aon] s t) ∧
  (∀ n (s : State), powerOn s = true → linkOn s = false →
    ∃ t, exec (.sdQualified n) s = .next t ∧ t.aon.ports[n].sd = true ∧ only [.aon] s t) ∧
  (∀ n fld (s : State), linkOn s = true → s.ports[n].flooding = false → notSusp s n →
    s.ports[n].st ∈ [.align, .caps, .switch, .ralign, .trial, .failed] →
    ∃ t, exec (.signalLoss ⟨n, fld⟩) s = .next t ∧ t.ports[n].st = .detect ∧ t.ports[n].rate = 0 ∧
      t.ports[n].cap = 4 ∧ t.ports[n].wait16 = false ∧ t.aon.ports[n].sd = false ∧
      only [.pps, .aon, .ula, .ports, .sur] s t) ∧
  (∀ n fld (s : State), linkOn s = true → s.ports[n].flooding = false → s.ports[n].st ∈ [.paddle, .active] →
    ∃ t, exec (.signalLoss ⟨n, fld⟩) s = .next t ∧ t.ports[n].st = .detect ∧ t.ports[n].rate = 0 ∧
      t.ports[n].evt = s.ports[n].evt ||| 0x0002#16 ∧ t.aon.ports[n].sd = false ∧
      only [.bb, .pps, .aon, .doms, .ula, .que, .ports, .tt, .tb, .sur, .out] s t) ∧
  (∀ n (s : State), linkOn s = true → s.ports[n].flooding = true → s.ports[n].optical = true →
    ∃ t, exec (.signalLoss ⟨n, true⟩) s = .next t ∧ t.ports[n] = { s.ports[n] with fld := true } ∧ portsBut n s t ∧
      only [.ports, .aon] s t) ∧
  (∀ n (s : State), linkOn s = true →
    ∃ t, exec (.detectHoldEnd n) s = .next t ∧ t.ports[n] = { s.ports[n] with wait16 := false } ∧
      portsBut n s t ∧ only [.ports] s t) ∧
  (∀ n (s : State), linkOn s = true → s.ports[n].flooding = false → s.ports[n].st = .align →
    s.ports[n].fromTrial = false → txReady s n →
    ∃ t, exec (.wordAlign n) s = .next t ∧ t.ports[n].st = .caps ∧ portsBut n s t ∧
      t.out = setOut n 1 .cap (portCap0 s n) (portCap1 s) :: setOut n 1 .cap (portCap0 s n) (portCap1 s) :: s.out ∧
      only [.ports, .out] s t) ∧
  (∀ n (s : State), linkOn s = true → s.ports[n].st ≠ .align → exec (.wordAlign n) s = .next s ∧
    exec (.alignTimeout n) s = .next s) ∧
  (∀ n (s : State), linkOn s = true → notSusp s n → s.ports[n].st = .align →
    ∃ t, exec (.alignTimeout n) s = .next t ∧ t.ports[n].st = .detect ∧ t.ports[n].wait16 = true ∧
      t.ports[n].evt = s.ports[n].evt ||| 0x0008#16 ∧
      only [.pps, .aon, .doms, .ula, .que, .ports, .sur, .out] s t) ∧
  (∀ n (s : State), linkOn s = true → notSusp s n → s.ports[n].st = .caps →
    ∃ t, exec (.capsTimeout n) s = .next t ∧ t.ports[n].st = .detect ∧ t.ports[n].wait16 = true ∧
      t.ports[n].evt = s.ports[n].evt ||| 0x0008#16 ∧
      only [.pps, .aon, .doms, .ula, .que, .ports, .sur, .out] s t)

/-- A training set whose check word is wrong, or that stands inside a packet, is ignored and counted, and one
that comes during a flood is lost, whatever its type.  That it is counted in CODEERR and asks for no tally are
the model's inferences (log entries 50 and 52). -/
def Obligations.BadTrainingSets : Prop :=
  ∀ n clean a0 a1 chk (s : State), linkOn s = true →
    ∀ x ∈ [(TsKind.cap, Instr.tsCapRx n a0 a1 chk), (.ack, .tsAckRx n a0 a1 chk), (.trial, .tsTrialRx n a0 a1 chk),
        (.ready, .tsReadyRx n clean (a0, a1) chk), (.result, .tsResultRx n a0 a1 chk), (.go, .tsGoRx n a0 a1 chk),
        (.down, .tsDownRx n a0 a1 chk), (.dis, .tsDisRx n a0 a1 chk), (.tallyReq, .tsTallyreqRx n ⟨a0, a1, chk⟩),
        (.tally, .tsTallyRx n a0 a1 chk)],
      (s.ports[n].flooding = true → exec x.2 s = .next s) ∧
      (s.ports[n].flooding = false →
        (chk ≠ trainCheck (tsCode x.1) a0 a1 ∨ tsMisplaced s.ports[n] = true) →
        ∃ t, exec x.2 s = .next t ∧
          t.ports[n] = { s.ports[n] with codeErr := satInc 65535 s.ports[n].codeErr } ∧ portsBut n s t ∧
          only [.ports] s t)

/-- In CAPS a first TS_CAP is kept; the second identical one gives the partner's words and is acknowledged, and one
whose words are refused puts the port into FAILED; on UP, words that come while the link is up are an update.  A
TS_ACK counts only if it echoes the port's own words, and the second one completes CAPS: a parent then starts the
trial of its best candidate or sends TS_GO for Paddle, and a child waits.  An update is answered with two TS_ACK and
sets CAPUPD, and after it, or after the second TS_ACK of its own update, a parent applies its choice again: in PADDLE
it starts a trial or records why not, in ACTIVE it retrains with reason 7 once its rate is no candidate (that the
two TS_ACK go out before the two TS_DOWN is log entry 137, the model's inference).  CAP_UPDATE_SEND sends TS_CAP on
a link that is up, and sets of a trial received before count no more.  That a capability update is a row of its own is
log entry 73, and that the row changes nothing in other states log entry 18, the model's choices. -/
def Obligations.Capabilities : Prop :=
  (∀ n a0 a1 chk (s : State), setComes s n .cap a0 a1 chk → s.ports[n].st = .caps →
    s.ports[n].capRx ≠ some (a0, a1) →
    ∃ t, exec (.tsCapRx n a0 a1 chk) s = .next t ∧
      t.ports[n] = { s.ports[n] with capRx := some (a0, a1), capTwo := false } ∧ portsBut n s t ∧
      only [.ports] s t) ∧
  (∀ n a0 a1 chk (s : State), setComes s n .cap a0 a1 chk → s.ports[n].st = .caps →
    s.ports[n].capRx = some (a0, a1) → s.ports[n].capTwo = false → badCap a0 = false → s.ports[n].ackRx < 2 →
    txReady s n →
    ∃ t, exec (.tsCapRx n a0 a1 chk) s = .next t ∧ t.ports[n].capTwo = true ∧ t.ports[n].pcap0 = a0 ∧
      t.ports[n].pcap1 = a1 ∧ t.ports[n].st = .caps ∧ setOut n 1 .ack a0 a1 ∈ t.out ∧
      only [.bb, .pps, .aon, .doms, .ula, .que, .ports, .tt, .tb, .cen, .sur, .out] s t) ∧
  (∀ n a0 a1 chk (s : State), setComes s n .cap a0 a1 chk → s.ports[n].st = .caps → notSusp s n →
    s.ports[n].capRx = some (a0, a1) → s.ports[n].capTwo = false → badCap a0 = true →
    ∃ t, exec (.tsCapRx n a0 a1 chk) s = .next t ∧ t.ports[n].st = .failed ∧
      t.ports[n].evt = s.ports[n].evt ||| 0x0040#16 ∧
      only [.bb, .pps, .aon, .doms, .ula, .que, .ports, .tt, .tb, .cen, .sur, .out] s t) ∧
  (∀ a0 a1 chk (s : State), setComes s 0 .cap a0 a1 chk → isUp s.ports[(0 : PortN)] = true → badCap a0 = false →
    ∃ t, exec (.tsCapRx 0 a0 a1 chk) s = .next t ∧ t.ports[(0 : PortN)].pcap0 = a0 ∧
      t.ports[(0 : PortN)].pcap1 = a1 ∧ t.ports[(0 : PortN)].rate = s.ports[(0 : PortN)].rate ∧
      t.ports[(0 : PortN)].evt &&& 0x0100#16 = 0x0100#16 ∧
      (txReady s 0 → sentTwice s t (setOut 0 (txRate s 0) .ack a0 a1)) ∧
      only [.bb, .pps, .aon, .doms, .ula, .que, .ports, .tt, .tb, .cen, .sur, .out] s t) ∧
  (∀ n a0 a1 chk (s : State), setComes s n .ack a0 a1 chk → a0 ≠ portCap0 s n ∨ a1 ≠ portCap1 s →
    exec (.tsAckRx n a0 a1 chk) s = .next s) ∧
  (∀ n a0 a1 chk (s : State), setComes s n .ack a0 a1 chk → a0 = portCap0 s n → a1 = portCap1 s →
    s.ports[n].ackRx = 0 →
    ∃ t, exec (.tsAckRx n a0 a1 chk) s = .next t ∧ t.ports[n] = { s.ports[n] with ackRx := 1 } ∧ portsBut n s t ∧
      only [.ports] s t) ∧
  (∀ a0 a1 chk (s : State), setComes s 0 .ack a0 a1 chk → a0 = portCap0 s 0 → a1 = portCap1 s →
    s.ports[(0 : PortN)].ackRx = 1 →
    ∃ t, exec (.tsAckRx 0 a0 a1 chk) s = .next t ∧
      t.ports[(0 : PortN)] = { s.ports[(0 : PortN)] with ackRx := 2 } ∧ portsBut 0 s t ∧ only [.ports] s t) ∧
  (∀ (m : DnN) a0 a1 chk (s : State), setComes s (dnPort m) .ack a0 a1 chk → a0 = portCap0 s (dnPort m) →
    a1 = portCap1 s → s.ports[dnPort m].ackRx = 1 → s.ports[dnPort m].st = .caps → s.ports[dnPort m].capTwo = true →
    txReady s (dnPort m) → notSusp s (dnPort m) →
    ∃ t, exec (.tsAckRx (dnPort m) a0 a1 chk) s = .next t ∧
      (∀ r, nextTrial s (dnPort m) = some r → t.ports[dnPort m].st = .switch ∧ t.ports[dnPort m].tryRate = r ∧
        sentTwice s t (setOut (dnPort m) 1 .trial (w16 r) 0#16)) ∧
      (nextTrial s (dnPort m) = none → t.ports[dnPort m].st = .paddle ∧ t.ports[dnPort m].rate = 1 ∧
        t.ports[dnPort m].hold = holdReason s (dnPort m) ∧ setOut (dnPort m) 1 .go 1#16 0#16 ∈ t.out) ∧
      only [.bb, .aon, .doms, .que, .ports, .tb, .cen, .sur, .out] s t) ∧
  (∀ (m : DnN) a0 a1 chk (s : State), setComes s (dnPort m) .ack a0 a1 chk → a0 = portCap0 s (dnPort m) →
    a1 = portCap1 s → s.ports[dnPort m].ackRx = 1 → txReady s (dnPort m) → notSusp s (dnPort m) →
    ∃ t, exec (.tsAckRx (dnPort m) a0 a1 chk) s = .next t ∧
      (∀ r, s.ports[dnPort m].st = .paddle → nextTrial s (dnPort m) = some r →
        t.ports[dnPort m].st = .switch ∧ t.ports[dnPort m].tryRate = r) ∧
      (s.ports[dnPort m].st = .paddle → nextTrial s (dnPort m) = none →
        t.ports[dnPort m] = { s.ports[dnPort m] with ackRx := 2, hold := holdReason s (dnPort m) }) ∧
      (s.ports[dnPort m].st = .active → (candidates s (dnPort m)).contains s.ports[dnPort m].rate = false →
        t.ports[dnPort m].st = .align ∧
        sentTwice s t (setOut (dnPort m) s.ports[dnPort m].rate .down (w16 s.ports[dnPort m].rate) 7#16)) ∧
      only [.bb, .pps, .aon, .doms, .ula, .que, .ports, .tt, .tb, .cen, .sur, .out] s t) ∧
  (∀ (m : DnN) a0 a1 chk (s : State), setComes s (dnPort m) .cap a0 a1 chk → s.ports[dnPort m].st = .active →
    badCap a0 = false → 2 ≤ s.ports[dnPort m].rate → bit a0 (s.ports[dnPort m].rate - 1) = false →
    txReady s (dnPort m) → notSusp s (dnPort m) →
    ∃ t, exec (.tsCapRx (dnPort m) a0 a1 chk) s = .next t ∧ t.ports[dnPort m].st = .align ∧
      t.ports[dnPort m].evt &&& 0x0102#16 = 0x0102#16 ∧ sentTwice s t (setOut (dnPort m) s.ports[dnPort m].rate .ack a0 a1) ∧
      sentTwice s t (setOut (dnPort m) s.ports[dnPort m].rate .down (w16 s.ports[dnPort m].rate) 7#16) ∧
      only [.bb, .pps, .aon, .doms, .ula, .que, .ports, .tt, .tb, .cen, .sur, .out] s t) ∧
  (∀ n (s : State), linkOn s = true → isUp s.ports[n] = true → txReady s n →
    ∃ t, exec (.capUpdateSend n) s = .next t ∧
      t.ports[n] = { s.ports[n] with ackRx := 0, setRx := 0, fragSent := s.ports[n].fragEn } ∧ portsBut n s t ∧
      t.out = setOut n (txRate s n) .cap (portCap0 s n) (portCap1 s) :: s.out ∧ only [.ports, .out] s t) ∧
  (∀ n (s : State), linkOn s = true → s.ports[n].st ∈ [.disabled, .detect, .align, .caps, .ralign, .trial] →
    exec (.capUpdateSend n) s = .next s)

/-- The steps of a trial: the child follows the second TS_TRIAL with its echo and RALIGN, the parent the second
echo; two TS_READY after 64 clean words start the pattern; each end sends its count of errored words, and the
parent judges both: TS_GO and the link at the new rate, or TS_DOWN with reason 1 and the rate has failed, as it
has at each time-out.  A TS_GO moves only UP, and on a downstream port it changes nothing.  No trial starts on FIRC.
The model's choices: SWITCH and RALIGN send no TS_DOWN at their time-outs (log entry 109), a row in another state than
its own changes nothing (18), and how many IDL words go out before TS_READY is a free value (152). -/
def Obligations.Trials : Prop :=
  (∀ a0 a1 chk (s : State), setComes s 0 .trial a0 a1 chk → 2 ≤ tsRate a0 → tsRate a0 ≤ 4 → s.clk.corePll = true →
    s.glob.cfgBusy = false → s.ports[(0 : PortN)].st = .caps → capsOver s.ports[(0 : PortN)] = true →
    ∃ t, exec (.tsTrialRx 0 a0 a1 chk) s = .next t ∧ t.ports[(0 : PortN)].st = .switch ∧
      t.ports[(0 : PortN)].tryRate = tsRate a0 ∧ t.ports[(0 : PortN)].setRx = 1 ∧ portsBut 0 s t ∧
      only [.ports] s t) ∧
  (∀ a0 a1 chk (s : State), setComes s 0 .trial a0 a1 chk → 2 ≤ tsRate a0 → tsRate a0 ≤ 4 → s.clk.corePll = true →
    s.ports[(0 : PortN)].st = .switch → s.ports[(0 : PortN)].tryRate = tsRate a0 →
    s.ports[(0 : PortN)].setRx = 1 → txReady s 0 →
    ∃ t, exec (.tsTrialRx 0 a0 a1 chk) s = .next t ∧ t.ports[(0 : PortN)].st = .ralign ∧
      (∃ k, 64 ≤ k ∧ t.out = setOut 0 (tsRate a0) .ready (w16 (tsRate a0)) 0#16 ::
        setOut 0 (tsRate a0) .ready (w16 (tsRate a0)) 0#16 :: .idl 0 k ::
        setOut 0 1 .trial (w16 (tsRate a0)) 0#16 :: setOut 0 1 .trial (w16 (tsRate a0)) 0#16 :: s.out) ∧
      portsBut 0 s t ∧ only [.ports, .out] s t) ∧
  (∀ a0 a1 chk (s : State), setComes s 0 .trial a0 a1 chk → 2 ≤ tsRate a0 → tsRate a0 ≤ 4 → s.clk.corePll = true →
    s.glob.cfgBusy = false → s.ports[(0 : PortN)].st = .paddle → txFree s 0 = false →
    ∃ t, exec (.tsTrialRx 0 a0 a1 chk) s = .next t ∧ t.ports[(0 : PortN)].st = .paddle ∧
      t.ports[(0 : PortN)].rate = s.ports[(0 : PortN)].rate ∧ t.ports[(0 : PortN)].tryRate = tsRate a0 ∧
      t.ports[(0 : PortN)].setRx = (if s.ports[(0 : PortN)].tryRate = tsRate a0
        then min 2 (s.ports[(0 : PortN)].setRx + 1) else 1) ∧
      portsBut 0 s t ∧ only [.ports] s t) ∧
  (∀ a0 a1 chk (s : State), setComes s 0 .trial a0 a1 chk → s.clk.corePll = false →
    exec (.tsTrialRx 0 a0 a1 chk) s = .next s) ∧
  (∀ (m : DnN) a0 a1 chk (s : State), setComes s (dnPort m) .trial a0 a1 chk → s.ports[dnPort m].st = .switch →
    s.ports[dnPort m].tryRate = tsRate a0 → s.ports[dnPort m].setRx ≠ 0 → txReady s (dnPort m) →
    ∃ t, exec (.tsTrialRx (dnPort m) a0 a1 chk) s = .next t ∧ t.ports[dnPort m].st = .ralign ∧
      (∃ k, 64 ≤ k ∧ t.out = setOut (dnPort m) (tsRate a0) .ready (w16 (tsRate a0)) 0#16 ::
        setOut (dnPort m) (tsRate a0) .ready (w16 (tsRate a0)) 0#16 :: .idl (dnPort m) k :: s.out) ∧
      portsBut (dnPort m) s t ∧ only [.ports, .out] s t) ∧
  (∀ n (s : State), linkOn s = true →
    (s.ports[n].st = .switch → ∃ t, exec (.switchTimeout n) s = .next t ∧ t.ports[n].st = .align ∧
      t.ports[n].fromTrial = true ∧ (n ≠ 0 → t.ports[n].lastFail = s.ports[n].tryRate ∧
        t.ports[n].steps = satInc 15 s.ports[n].steps) ∧ portsBut n s t ∧ only [.ports] s t) ∧
    (s.ports[n].st = .ralign → ∃ t, exec (.ralignTimeout n) s = .next t ∧ t.ports[n].st = .align ∧
      t.ports[n].fromTrial = true ∧ (n ≠ 0 → t.ports[n].lastFail = s.ports[n].tryRate ∧
        t.ports[n].steps = satInc 15 s.ports[n].steps) ∧ portsBut n s t ∧ only [.ports] s t) ∧
    (s.ports[n].st = .trial → txReady s n → ∃ t, exec (.trialTimeout n) s = .next t ∧ t.ports[n].st = .align ∧
      t.ports[n].fromTrial = true ∧ (n ≠ 0 → t.ports[n].lastFail = s.ports[n].tryRate) ∧
      t.out = setOut n s.ports[n].tryRate .down (w16 s.ports[n].tryRate) 2#16 ::
        setOut n s.ports[n].tryRate .down (w16 s.ports[n].tryRate) 2#16 :: s.out ∧
      portsBut n s t ∧ only [.ports, .out] s t)) ∧
  (∀ n clean a0 a1 chk (s : State), setComes s n .ready a0 a1 chk → s.ports[n].st = .ralign →
    s.ports[n].tryRate = tsRate a0 → 64 ≤ clean →
    ∃ t, exec (.tsReadyRx n clean (a0, a1) chk) s = .next t ∧
      (s.ports[n].setRx = 0 → t.ports[n] = { s.ports[n] with setRx := 1 } ∧ t.out = s.out) ∧
      (s.ports[n].setRx ≠ 0 →
        t.ports[n] = { s.ports[n] with st := .trial, setRx := 0, myErrs := none, hisErrs := none } ∧
        t.out = .prbs n prbsSeed 8192 :: s.out) ∧
      portsBut n s t ∧ only [.ports, .out] s t) ∧
  (∀ n rx (s : State), linkOn s = true → s.ports[n].st = .trial → s.ports[n].myErrs = none →
    n = 0 ∨ s.ports[n].hisErrs = none → txReady s n →
    ∃ t, exec (.trialSent n rx) s = .next t ∧
      t.ports[n] = { s.ports[n] with myErrs := some (min 65535 (trialErrs prbsSeed rx)) } ∧ portsBut n s t ∧
      t.out = setOut n s.ports[n].tryRate .result (w16 s.ports[n].tryRate)
        (w16 (min 65535 (trialErrs prbsSeed rx))) :: s.out ∧
      only [.ports, .out] s t) ∧
  (∀ n a0 a1 chk (s : State), setComes s n .result a0 a1 chk → s.ports[n].st = .trial →
    s.ports[n].tryRate = tsRate a0 → n = 0 ∨ s.ports[n].myErrs = none →
    ∃ t, exec (.tsResultRx n a0 a1 chk) s = .next t ∧
      t.ports[n] = { s.ports[n] with hisErrs := some a1.toNat } ∧ portsBut n s t ∧ only [.ports] s t) ∧
  (∀ (m : DnN) a0 a1 chk e (s : State), setComes s (dnPort m) .result a0 a1 chk → s.ports[dnPort m].st = .trial →
    s.ports[dnPort m].tryRate = tsRate a0 → s.ports[dnPort m].myErrs = some e → txReady s (dnPort m) →
    2 ≤ tsRate a0 →
    ∃ t, exec (.tsResultRx (dnPort m) a0 a1 chk) s = .next t ∧
      (e ≤ s.ports[dnPort m].trialThr ∧ a1.toNat ≤ s.ports[dnPort m].trialThr →
        t.ports[dnPort m].st = .active ∧ t.ports[dnPort m].rate = tsRate a0 ∧
        t.ports[dnPort m].epoch = (s.ports[dnPort m].epoch + 1) % 16 ∧
        setOut (dnPort m) (tsRate a0) .go (w16 (tsRate a0)) 0#16 ∈ t.out) ∧
      (¬ (e ≤ s.ports[dnPort m].trialThr ∧ a1.toNat ≤ s.ports[dnPort m].trialThr) →
        t.ports[dnPort m].st = .align ∧ t.ports[dnPort m].lastFail = tsRate a0 ∧
        setOut (dnPort m) (tsRate a0) .down (w16 (tsRate a0)) 1#16 ∈ t.out) ∧
      only [.bb, .aon, .doms, .que, .ports, .tb, .cen, .sur, .out] s t) ∧
  (∀ a0 a1 chk (s : State), setComes s 0 .go a0 a1 chk → s.ports[(0 : PortN)].st = .trial → s.clk.corePll = true →
    tsRate a0 = s.ports[(0 : PortN)].tryRate → 2 ≤ tsRate a0 →
    ∃ t, exec (.tsGoRx 0 a0 a1 chk) s = .next t ∧ t.ports[(0 : PortN)].st = .active ∧
      t.ports[(0 : PortN)].rate = tsRate a0 ∧ t.ports[(0 : PortN)].ptx = 16 ∧ t.ports[(0 : PortN)].ntx = 48 ∧
      only [.bb, .aon, .doms, .que, .ports, .tb, .cen, .sur, .out] s t) ∧
  (∀ a0 a1 chk (s : State), setComes s 0 .go a0 a1 chk → s.ports[(0 : PortN)].st = .caps → tsRate a0 = 1 →
    capsOver s.ports[(0 : PortN)] = true →
    ∃ t, exec (.tsGoRx 0 a0 a1 chk) s = .next t ∧ t.ports[(0 : PortN)].st = .paddle ∧
      t.ports[(0 : PortN)].rate = 1 ∧ only [.bb, .aon, .doms, .que, .ports, .tb, .cen, .sur, .out] s t) ∧
  (∀ (m : DnN) a0 a1 chk (s : State), setComes s (dnPort m) .go a0 a1 chk →
    exec (.tsGoRx (dnPort m) a0 a1 chk) s = .next s) ∧
  (∀ (m : DnN) (s : State), linkOn s = true → s.ports[dnPort m].st = .paddle → nextTrial s (dnPort m) = none →
    ∃ t, exec (.stepUp (dnPort m)) s = .next t ∧
      t.ports[dnPort m] = { s.ports[dnPort m] with hold := holdReason s (dnPort m) } ∧
      portsBut (dnPort m) s t ∧ only [.ports] s t) ∧
  (∀ (m : DnN) r (s : State), linkOn s = true → s.ports[dnPort m].st = .paddle →
    nextTrial s (dnPort m) = some r → txFree s (dnPort m) = true → notSusp s (dnPort m) →
    ∃ t, exec (.stepUp (dnPort m)) s = .next t ∧ t.ports[dnPort m].st = .switch ∧
      t.ports[dnPort m].tryRate = r ∧ t.ports[dnPort m].rate = 0 ∧
      only [.bb, .pps, .aon, .doms, .ula, .que, .ports, .tt, .tb, .sur, .out] s t)

/-- A link goes down: on TS_DOWN, with the partner's reason in the LINK_DOWN entry, to ALIGN; on the second TS_DIS,
to DETECT; on an error burst, an error rate, a flood that lasts too long and a RETRAIN, to ALIGN, with two TS_DOWN
that carry the rate and the reason, which LINK_DOWN records too, and with the cap one below the rate where ACTIVE
ended within 1 s, or cleared by RETRAIN.
The model's choices: rows in states where their rule does not apply (log entries 17 and 18), a set whose check fails (50), no TS_DOWN at the time-outs of a trial (109). -/
def Obligations.LinksGoDown : Prop :=
  (∀ n a0 a1 chk (s : State), setComes s n .down a0 a1 chk → isUp s.ports[n] = true → notSusp s n →
    ∃ t, exec (.tsDownRx n a0 a1 chk) s = .next t ∧ t.ports[n].st = .align ∧ t.ports[n].rate = 0 ∧
      t.ports[n].evt = s.ports[n].evt ||| 0x0002#16 ∧ downLogged s t n a1 0 ∧
      only [.bb, .pps, .aon, .doms, .ula, .que, .ports, .tt, .tb, .sur, .out] s t) ∧
  (∀ n a0 a1 chk (s : State), setComes s n .down a0 a1 chk → s.ports[n].st ∈ [.switch, .ralign, .trial] →
    ∃ t, exec (.tsDownRx n a0 a1 chk) s = .next t ∧ t.ports[n].st = .align ∧ t.ports[n].fromTrial = true ∧
      portsBut n s t ∧ only [.ports] s t) ∧
  (∀ n a0 a1 chk (s : State), setComes s n .dis a0 a1 chk → isUp s.ports[n] = true →
    ∃ t, exec (.tsDisRx n a0 a1 chk) s = .next t ∧
      (s.ports[n].disRx = 0 → t.ports[n] = { s.ports[n] with disRx := 1 }) ∧
      (s.ports[n].disRx ≠ 0 → t.ports[n].st = .detect ∧ t.ports[n].rate = 0 ∧ downLogged s t n 8#16 0) ∧
      only [.bb, .pps, .aon, .doms, .ula, .que, .ports, .tt, .tb, .sur, .out] s t) ∧
  (∀ n w (s : State), linkOn s = true → isUp s.ports[n] = true → s.ports[n].optical = false → notSusp s n →
    ∃ t, exec (.errorBurst n w) s = .next t ∧ t.ports[n].st = .align ∧
      t.ports[n].evt = s.ports[n].evt ||| 0x0202#16 ∧
      t.ports[n].cap = (if s.ports[n].st = .active ∧ w = true then s.ports[n].rate - 1 else s.ports[n].cap) ∧
      sentTwice s t (setOut n (txRate s n) .down (w16 s.ports[n].rate) 3#16) ∧ downLogged s t n 3#16 0 ∧
      only [.bb, .pps, .aon, .doms, .ula, .que, .ports, .tt, .tb, .sur, .out] s t) ∧
  (∀ n w (s : State), linkOn s = true → isUp s.ports[n] = true → s.ports[n].flooding = false → notSusp s n →
    ∃ t, exec (.errorRate n w) s = .next t ∧ t.ports[n].st = .align ∧
      t.ports[n].evt = s.ports[n].evt ||| 0x0202#16 ∧
      t.ports[n].cap = (if s.ports[n].st = .active ∧ w = true then s.ports[n].rate - 1 else s.ports[n].cap) ∧
      sentTwice s t (setOut n (txRate s n) .down (w16 s.ports[n].rate) 3#16) ∧ downLogged s t n 3#16 0 ∧
      only [.bb, .pps, .aon, .doms, .ula, .que, .ports, .tt, .tb, .sur, .out] s t) ∧
  (∀ n w (s : State), linkOn s = true → isUp s.ports[n] = true → s.ports[n].flooding = true → notSusp s n →
    ∃ t, exec (.floodTimeout n w) s = .next t ∧ t.ports[n].st = .align ∧
      t.ports[n].evt = s.ports[n].evt ||| 0x0022#16 ∧
      t.ports[n].cap = (if s.ports[n].st = .active ∧ w = true then s.ports[n].rate - 1 else s.ports[n].cap) ∧
      sentTwice s t (setOut n (txRate s n) .down (w16 s.ports[n].rate) 4#16) ∧ downLogged s t n 4#16 1 ∧
      only [.bb, .pps, .aon, .doms, .ula, .que, .ports, .tt, .tb, .sur, .out] s t) ∧
  (∀ p n (s : State), reaches s p = true → s.ports[n].en = true → isUp s.ports[n] = true → notSusp s n →
    ∃ t, exec (.portRetrain p n) s = .next t ∧ t.ports[n].st = .align ∧ t.ports[n].cap = 4 ∧
      t.ports[n].retrain = true ∧ sentTwice s t (setOut n (txRate s n) .down (w16 s.ports[n].rate) 5#16) ∧
      downLogged s t n 5#16 0 ∧
      only [.bb, .pps, .aon, .doms, .ula, .que, .ports, .tt, .tb, .sur, .out] s t)

/-- A flood on an optical port starts an episode, counted with its event, and its end asks for a tally, which goes
out at once or waits for the packet's end and the 64 µs; on an electrical port nothing changes.  PORT_CTRL: EN = 0
sends four TS_DIS from every state and is DISABLING until DISABLE_DONE, with a link-down of reason 8 where there was
a link; EN = 1 leaves DISABLED for DETECT and is deferred in DISABLING, where EN = 0 cancels it; and CNT_CLR clears
the five counts.
The rows of PORT_CTRL name one field and leave the others (log entry 72), and rows in other states change nothing (17 and 18): the model's choices. -/
def Obligations.FloodsAndPortControl : Prop :=
  (∀ n f (s : State), linkOn s = true → s.ports[n].optical = false → exec (.floodStart n f) s = .next s) ∧
  (∀ n f (s : State), linkOn s = true → s.ports[n].optical = true → s.ports[n].flooding = false →
    ∃ t, exec (.floodStart n f) s = .next t ∧ t.ports[n].flooding = true ∧ t.ports[n].fld = f ∧
      t.ports[n].floodEp = satInc 255 s.ports[n].floodEp ∧ t.ports[n].evt = s.ports[n].evt ||| 0x0010#16 ∧
      t.ports[n].floodDisc = (if (rxGood s.ports[n]).isSome then satInc 255 s.ports[n].floodDisc
        else s.ports[n].floodDisc) ∧
      only [.aon, .doms, .ula, .que, .ports, .tt, .out] s t) ∧
  (∀ n f (s : State), linkOn s = true → s.ports[n].optical = true → s.ports[n].flooding = true →
    ∃ t, exec (.floodStart n f) s = .next t ∧ t.ports[n] = { s.ports[n] with fld := s.ports[n].fld || f } ∧
      portsBut n s t ∧ only [.ports] s t) ∧
  (∀ n (s : State), linkOn s = true → s.ports[n].flooding = true →
    ∃ t, exec (.floodEnd n) s = .next t ∧ t.ports[n].flooding = false ∧ t.ports[n].fld = false ∧
      (isUp s.ports[n] = true → s.ports[n].tallyWait = 0 → txReady s n →
        t.out = setOut n (txRate s n) .tallyReq 0#16 0#16 :: s.out ∧ t.ports[n].tallyWait = 25600 ∧
        t.ports[n].tallyDue = false) ∧
      (isUp s.ports[n] = true → s.ports[n].tallyWait ≠ 0 ∨ txFree s n = false →
        t.out = s.out ∧ t.ports[n].tallyDue = true) ∧
      portsBut n s t ∧ only [.ports, .out] s t) ∧
  (∀ p n (s : State), reaches s p = true → s.ports[n].st ≠ .disabled → s.ports[n].st ≠ .disabling →
    ∃ t, exec (.portDisable p n) s = .next t ∧ t.ports[n].st = .disabling ∧ t.ports[n].en = false ∧
      t.ports[n].rate = 0 ∧ t.ports[n].ptx = 0 ∧ t.ports[n].ntx = 0 ∧
      (let x := setOut n (disRate s n) .dis 0#16 0#16
       ∃ later before, t.out = later ++ x :: x :: x :: x :: (before ++ s.out)) ∧
      (isUp s.ports[n] = true → t.ports[n].evt = s.ports[n].evt ||| 0x0002#16 ∧ downLogged s t n 8#16 0) ∧
      (isUp s.ports[n] = false → t.ports[n].evt = s.ports[n].evt) ∧
      only [.bb, .aon, .doms, .ula, .que, .ports, .tt, .tb, .sur, .out] s t) ∧
  (∀ p n (s : State), reaches s p = true → s.ports[n].st = .disabled ∨ s.ports[n].st = .disabling →
    ∃ t, exec (.portDisable p n) s = .next t ∧ t.ports[n].st = s.ports[n].st ∧ t.ports[n].en = false ∧
      (s.ports[n].st = .disabling → t.ports[n].defer = false) ∧ portsBut n s t ∧ only [.ports] s t) ∧
  (∀ p n (s : State), reaches s p = true → s.ports[n].st = .disabled → notSusp s n →
    ∃ t, exec (.portEnable p n) s = .next t ∧ t.ports[n].st = .detect ∧ t.ports[n].en = true ∧
      only [.pps, .aon, .ula, .ports, .sur] s t) ∧
  (∀ p n (s : State), reaches s p = true → s.ports[n].st = .disabling →
    ∃ t, exec (.portEnable p n) s = .next t ∧ t.ports[n].st = .disabling ∧ t.ports[n].en = true ∧
      t.ports[n].defer = true ∧ only [.ports] s t) ∧
  (∀ n (s : State), linkOn s = true → s.ports[n].st = .disabling → s.ports[n].defer = false →
    ∃ t, exec (.disableDone n) s = .next t ∧ t.ports[n] = { s.ports[n] with st := .disabled, ptx := 0, ntx := 0 } ∧
      portsBut n s t ∧ only [.ports] s t) ∧
  (∀ n (s : State), linkOn s = true → s.ports[n].st = .disabling → s.ports[n].defer = true → notSusp s n →
    ∃ t, exec (.disableDone n) s = .next t ∧ t.ports[n].st = .detect ∧ t.ports[n].en = true ∧
      t.ports[n].defer = false ∧ only [.pps, .aon, .ula, .ports, .sur] s t) ∧
  (∀ p n (s : State), reaches s p = true → s.ports[n].en = true → s.ports[n].st ≠ .disabled →
    s.ports[n].st ≠ .disabling →
    ∃ t, exec (.portCntClr p n) s = .next t ∧ t.ports[n].hdrErr = 0 ∧ t.ports[n].crcErr = 0 ∧
      t.ports[n].codeErr = 0 ∧ t.ports[n].floodEp = 0 ∧ t.ports[n].floodDisc = 0 ∧
      t.ports[n].st = s.ports[n].st ∧ portsBut n s t ∧ only [.ports] s t)

/-- CRD adds its count of credits of its class, and what goes beyond the advertisement of 16 or 48 to the other
class, and a count of 0 is a code violation; a tally is answered with the credits returned since link-up, and one
received adds the difference to the credits counted so far, its excess likewise; SKP goes
out while the transmitter is on; PRE suspends a non-periodic packet on a link with fragments and RSM with the
offset that has been received resumes it; a packet received without credit, and a word that cannot be decoded or
stands where it may not, are counted.
The model's choices: SKP with the transmitter off and CODE_VIOLATION of a word that is none change nothing (log entry
18), the words of a packet cut short (10), what may stand inside a packet (52), when CRD goes out (93), one word a word time (111), a misplaced SOP between PRE and RSM (131). -/
def Obligations.CreditsAndFragments : Prop :=
  (∀ n param (s : State), linkOn s = true → s.ports[n].flooding = false → isUp s.ports[n] = true →
    fld param 0 4 ≠ 0 →
    ∃ t, exec (.crdRx n param) s = .next t ∧
      (bit param 7 = true → t.ports[n].ntx = min 48 (s.ports[n].ntx + fld param 0 4) ∧
        t.ports[n].ptx = min 16 (s.ports[n].ptx + (s.ports[n].ntx + fld param 0 4 - 48)) ∧
        t.ports[n].gotN = (s.ports[n].gotN + fld param 0 4) % 65536 ∧ t.ports[n].gotP = s.ports[n].gotP) ∧
      (bit param 7 = false → t.ports[n].ptx = min 16 (s.ports[n].ptx + fld param 0 4) ∧
        t.ports[n].ntx = min 48 (s.ports[n].ntx + (s.ports[n].ptx + fld param 0 4 - 16)) ∧
        t.ports[n].gotP = (s.ports[n].gotP + fld param 0 4) % 65536 ∧ t.ports[n].gotN = s.ports[n].gotN) ∧
      portsBut n s t ∧ only [.ports] s t) ∧
  (∀ n param (s : State), linkOn s = true → s.ports[n].flooding = false → fld param 0 4 = 0 →
    ∃ t, exec (.crdRx n param) s = .next t ∧ t.ports[n].codeErr = satInc 65535 s.ports[n].codeErr ∧
      t.ports[n].ptx = s.ports[n].ptx ∧ t.ports[n].ntx = s.ports[n].ntx ∧ portsBut n s t ∧
      only [.ports, .out] s t) ∧
  (∀ n a0 a1 chk (s : State), setComes s n .tallyReq a0 a1 chk → isUp s.ports[n] = true → txReady s n →
    ∃ t, exec (.tsTallyreqRx n ⟨a0, a1, chk⟩) s = .next t ∧
      t.out = setOut n (txRate s n) .tally (w16 s.ports[n].retP) (w16 s.ports[n].retN) :: s.out ∧ only [.out] s t) ∧
  (∀ n a0 a1 chk (s : State), setComes s n .tally a0 a1 chk → isUp s.ports[n] = true →
    ∃ t, exec (.tsTallyRx n a0 a1 chk) s = .next t ∧ t.ports[n].gotP = a0.toNat ∧ t.ports[n].gotN = a1.toNat ∧
      (let dP := (a0 - w16 s.ports[n].gotP).toNat
       let dN := (a1 - w16 s.ports[n].gotN).toNat
       (s.ports[n].ptx + dP ≤ 16 → s.ports[n].ntx + dN ≤ 48 →
         t.ports[n].ptx = s.ports[n].ptx + dP ∧ t.ports[n].ntx = s.ports[n].ntx + dN) ∧
       (16 ≤ s.ports[n].ptx + dP → s.ports[n].ntx + dN + (s.ports[n].ptx + dP - 16) ≤ 48 →
         t.ports[n].ptx = 16 ∧ t.ports[n].ntx = s.ports[n].ntx + dN + (s.ports[n].ptx + dP - 16)) ∧
       (48 ≤ s.ports[n].ntx + dN → s.ports[n].ptx + dP + (s.ports[n].ntx + dN - 48) ≤ 16 →
         t.ports[n].ntx = 48 ∧ t.ports[n].ptx = s.ports[n].ptx + dP + (s.ports[n].ntx + dN - 48))) ∧
      portsBut n s t ∧ only [.ports] s t) ∧
  (∀ n (s : State), linkOn s = true → txOn s n = true →
    ∃ t, exec (.skpSend n) s = .next t ∧ t.out = .skp n :: s.out ∧ only [.out] s t) ∧
  (∀ n (s : State), linkOn s = true → txOn s n = false → exec (.skpSend n) s = .next s) ∧
  (∀ n words r (s : State), linkOn s = true → s.ports[n].flooding = false → rxGood s.ports[n] = some r →
    fragOn s.ports[n] = true → s.ports[n].rxSusp = none → r.hdr.pcls = false →
    ∃ t, exec (.preRx n (some words)) s = .next t ∧ t.ports[n].rxSusp = some r.pid ∧ t.ports[n].rxCur = none ∧
      portsBut n s t ∧ only [.ports] s t) ∧
  (∀ n came (s : State), linkOn s = true → s.ports[n].flooding = false → rxGood s.ports[n] = none →
    ∃ t, exec (.preRx n came) s = .next t ∧ t.ports[n].codeErr = satInc 65535 s.ports[n].codeErr ∧
      portsBut n s t ∧ only [.ports, .out] s t) ∧
  (∀ n (off : BitVec 10) pid r (s : State), linkOn s = true → s.ports[n].flooding = false → s.ports[n].rxSusp = some pid →
    rxGood s.ports[n] = none → findRx s.ports[n] pid = some r → r.got = off.toNat →
    ∃ t, exec (.rsmRx n off 0#6) s = .next t ∧ t.ports[n].rxCur = some pid ∧ t.ports[n].rxSusp = none ∧
      portsBut n s t ∧ only [.ports] s t) ∧
  (∀ n off top (s : State), linkOn s = true → s.ports[n].flooding = false → s.ports[n].rxSusp = none →
    ∃ t, exec (.rsmRx n off top) s = .next t ∧ t.ports[n].codeErr = satInc 65535 s.ports[n].codeErr ∧
      portsBut n s t ∧ only [.ports, .out] s t) ∧
  (∀ n (s : State), linkOn s = true → s.ports[n].flooding = false → rxGood s.ports[n] = none →
    ∃ t, exec (.receiveWithoutCredit n) s = .next t ∧
      t.ports[n] = { s.ports[n] with codeErr := satInc 65535 s.ports[n].codeErr,
                                     crcErr := if s.ports[n].rxCur = none then satInc 255 s.ports[n].crcErr
                                       else s.ports[n].crcErr } ∧
      portsBut n s t ∧ only [.ports] s t) ∧
  (∀ n u (s : State), linkOn s = true → s.ports[n].flooding = false →
    (codeBad u || misplaced s.ports[n] u) = true →
    ∃ t, exec (.codeViolation ⟨n, u⟩) s = .next t ∧ t.ports[n].codeErr = satInc 65535 s.ports[n].codeErr ∧
      portsBut n s t ∧ only [.ports, .out] s t) ∧
  (∀ n u (s : State), linkOn s = true → (codeBad u || misplaced s.ports[n] u) = false →
    exec (.codeViolation ⟨n, u⟩) s = .next s)

/-! ## The hub function (chapter 4) -/

/-- A request that arrives is queued while fewer than four are held; a fifth is answered NAK and counted; a retry
of an answered one draws the kept answer; one that no request code serves is answered with its status; with no
request waiting nothing changes (log entry 18, the model's choice).  What counts as a retry is log entry 78, and that an error is
answered with its status alone log entry 79, the model's inferences. -/
def Obligations.HubArrivals : Prop :=
  (∀ x (s t : State), linkOn s = true → takeInbox s (fun x => x.dest = .hub) = some (x, t) → x.mc = false →
    s.bus.hubQ = [] → hubRepeats s x.pkt = none → hubBad x.pkt = none →
    ∃ u, exec .hubreqRx s = .next u ∧ u.bus = { t.bus with hubQ := [{ pkt := x.pkt, mc := false }] } ∧
      only [.bus] s u) ∧
  (∀ x (s t : State), linkOn s = true → takeInbox s (fun x => x.dest = .hub) = some (x, t) → x.mc = false →
    4 ≤ s.bus.hubQ.length → s.bus.hubQ.any (hubSame x.pkt) = false → hubRepeats s x.pkt = none →
    isUp s.ports[(0 : PortN)] = true →
    ∃ u, exec .hubreqRx s = .next u ∧ u.bus = { t.bus with hubnak := (s.bus.hubnak + 1) % 256 } ∧
      ownTx (hshk x.pkt.hdr 0x02 []) .none ∈ vAt u.ula.reqs [] 16 ∧ only [.bus, .ula] s u) ∧
  (∀ x k (s t : State), linkOn s = true → takeInbox s (fun x => x.dest = .hub) = some (x, t) → x.mc = false →
    s.bus.hubQ.any (hubSame x.pkt) = false → hubRepeats s x.pkt = some k → isUp s.ports[(0 : PortN)] = true →
    ∃ u, exec .hubreqRx s = .next u ∧ u.bus = t.bus ∧
      ownTx (hubAnswer x.pkt k.odd k.words) .none ∈ vAt u.ula.reqs [] 16 ∧ only [.bus, .ula] s u) ∧
  (∀ x st (s t : State), linkOn s = true → takeInbox s (fun x => x.dest = .hub) = some (x, t) → x.mc = false →
    s.bus.hubQ = [] → hubRepeats s x.pkt = none → hubBad x.pkt = some st → isUp s.ports[(0 : PortN)] = true →
    ∃ u, exec .hubreqRx s = .next u ∧ hubAnswered u { pkt := x.pkt, mc := false } st false [] ∧
      only [.bus, .ula] s u) ∧
  (∀ s : State, linkOn s = true → takeInbox s (fun x => x.dest = .hub) = none → exec .hubreqRx s = .next s)

/-- The requests that read: each is answered with its data from the state as it stands, and changes nothing but
the queue of requests, the kept answer and the ULA; a wrong VALUE, INDEX or LENGTH draws BADVAL, and what cannot be read
yet NOTREADY.  The LENGTH that GET_METER takes is log entry 80, and that an error is answered with its status alone log
entry 79, the model's inferences. -/
def Obligations.HubReads : Prop :=
  (∀ r (s : State), hubAsked s r 0x01 true → 1 ≤ hubLen r.pkt → hubLen r.pkt ≤ 32 → hubValue r.pkt = 0#16 →
    hubIndex r.pkt = 0 →
    ∃ t, exec .getNodeInfo s = .next t ∧ hubRead t r ((bytesBE (nodeInfo s)).take (hubLen r.pkt)) ∧
      only [.bus, .ula] s t) ∧
  (∀ r (s : State), hubAsked s r 0x03 true → hubLen r.pkt = 16 → hubValue r.pkt = 0#16 → hubIndex r.pkt ≤ 16 →
    ∃ t, exec .getPortStatus s = .next t ∧ hubRead t r (bytesBE (portInfo s (hubPort r.pkt))) ∧
      only [.bus, .ula] s t) ∧
  (∀ r (s : State), hubAsked s r 0x0B true → (hubValue r.pkt).toNat ≤ 1 → hubIndex r.pkt ≤ 16 →
    hubLen r.pkt = (if hubIndex r.pkt = 0 then 228 else 18) →
    ∃ t, exec .getMeter s = .next t ∧
      hubRead t r (bytesBE (meterInfo s (hubValue r.pkt = 1#16) (hubIndex r.pkt))) ∧ only [.bus, .ula] s t) ∧
  (∀ r (s : State), hubAsked s r 0x0D true → hubLen r.pkt % 16 = 0 → 16 ≤ hubLen r.pkt → hubLen r.pkt ≤ 1008 →
    (hubValue r.pkt).toNat ≤ 255 → hubIndex r.pkt = 0 →
    ∃ t, exec .readLog s = .next t ∧
      hubRead t r (bytesBE ((logEntries s.bb (hubValue r.pkt).toNat (hubLen r.pkt / 16)).flatMap fun e => e.toList)) ∧
      only [.bus, .ula] s t) ∧
  (∀ r ws (s : State), hubAsked s r 0x0F true → hubLen r.pkt = 32 → hubValue r.pkt = 0#16 → hubIndex r.pkt = 0 →
    s.sur.kept = some ws →
    ∃ t, exec .getSurveyRecord s = .next t ∧ hubRead t r (bytesBE ws) ∧ only [.bus, .ula] s t) ∧
  (∀ r (s : State), hubAsked s r 0x0F true → hubLen r.pkt = 32 → hubValue r.pkt = 0#16 → hubIndex r.pkt = 0 →
    s.sur.kept = none →
    ∃ t, exec .getSurveyRecord s = .next t ∧ hubAnswered t r 5 false [] ∧ only [.bus, .ula] s t) ∧
  (∀ r (s : State), hubAsked s r 0x01 true → 1 ≤ hubLen r.pkt → hubLen r.pkt ≤ 32 → hubValue r.pkt ≠ 0#16 →
    ∃ t, exec .getNodeInfo s = .next t ∧ hubAnswered t r 3 false [] ∧ only [.bus, .ula] s t)

/-- SET_PORT_FEATURE and CLEAR_PORT_FEATURE act on the downstream port that INDEX names and answer OK; PORT_RESET
on a port without a link is DENIED, and an INDEX that names no downstream port is BADVAL, with no effect.  That a
port held without a link is held at once is log entry 94, and that RST waits for the packet in progress log entry
85, the model's inferences. -/
def Obligations.HubPortFeatures : Prop :=
  (∀ (m : DnN) r (s : State), hubAsked s r 4 false → hubLen r.pkt = 0 → hubIndex r.pkt = m.val + 1 →
    ((hubValue r.pkt).toNat = 1 → s.ports[dnPort m].st = .disabled → notSusp s (dnPort m) →
      ∃ t, exec .setPortFeatureEnable s = .next t ∧ hubAnswered t r 0 false [] ∧
        t.ports[dnPort m].st = .detect ∧ t.ports[dnPort m].en = true ∧
        only [.pps, .aon, .ula, .ports, .sur, .bus] s t) ∧
    ((hubValue r.pkt).toNat = 2 → isUp s.ports[dnPort m] = true → notSusp s (dnPort m) →
      ∃ t, exec .setPortFeatureRetrain s = .next t ∧ hubAnswered t r 0 false [] ∧
        t.ports[dnPort m].st = .align ∧ t.ports[dnPort m].cap = 4 ∧ t.ports[dnPort m].retrain = true ∧
        only [.bb, .pps, .aon, .doms, .ula, .que, .ports, .tt, .tb, .sur, .out, .bus] s t) ∧
    ((hubValue r.pkt).toNat = 4 → isUp s.ports[dnPort m] = true →
      ∃ t, exec .setPortFeaturePortReset s = .next t ∧ hubAnswered t r 0 false [] ∧
        t.ports[dnPort m].rstOut = true ∧ .rst m 2 true ∈ t.out ∧ portsBut (dnPort m) s t ∧
        only [.ula, .ports, .out, .bus] s t) ∧
    ((hubValue r.pkt).toNat = 4 → isUp s.ports[dnPort m] = false →
      ∃ t, exec .setPortFeaturePortReset s = .next t ∧ hubAnswered t r 4 false [] ∧ only [.ula, .bus] s t) ∧
    ((hubValue r.pkt).toNat = 5 →
      ∃ t, exec .setPortFeatureFrag s = .next t ∧ hubAnswered t r 0 false [] ∧
        t.ports[dnPort m] = { s.ports[dnPort m] with fragEn := true } ∧ portsBut (dnPort m) s t ∧
        only [.ula, .ports, .bus] s t) ∧
    ((hubValue r.pkt).toNat = 6 →
      ∃ t, exec .setPortFeatureSuspend s = .next t ∧ hubAnswered t r 0 false [] ∧
        bit t.aon.ports[dnPort m].feather 3 = true ∧
        (isUp s.ports[dnPort m] = true → t.aon.ports[dnPort m].hold = s.aon.ports[dnPort m].hold) ∧
        only [.pps, .aon, .ula, .ports, .sur, .out, .bus] s t) ∧
    ((hubValue r.pkt).toNat = 7 →
      ∃ t, exec .setPortFeatureBcnFwd s = .next t ∧ hubAnswered t r 0 false [] ∧
        bit t.aon.ports[dnPort m].feather 2 = true ∧ only [.aon, .ula, .ports, .out, .bus] s t)) ∧
  (∀ (m : DnN) r (s : State), hubAsked s r 5 false → hubLen r.pkt = 0 → hubIndex r.pkt = m.val + 1 →
    ((hubValue r.pkt).toNat = 1 → s.ports[dnPort m].st ≠ .disabled → s.ports[dnPort m].st ≠ .disabling →
      ∃ t, exec .clearPortFeatureEnable s = .next t ∧ hubAnswered t r 0 false [] ∧
        t.ports[dnPort m].st = .disabling ∧ t.ports[dnPort m].en = false ∧
        only [.bb, .aon, .doms, .ula, .que, .ports, .tt, .tb, .sur, .out, .bus] s t) ∧
    ((hubValue r.pkt).toNat = 3 →
      ∃ t, exec .clearPortFeatureEvents s = .next t ∧ hubAnswered t r 0 false [] ∧
        t.ports[dnPort m] = { s.ports[dnPort m] with evt := s.ports[dnPort m].evt &&& 0xFC00#16 } ∧
        portsBut (dnPort m) s t ∧ only [.ula, .ports, .bus] s t) ∧
    ((hubValue r.pkt).toNat = 5 →
      ∃ t, exec .clearPortFeatureFrag s = .next t ∧ hubAnswered t r 0 false [] ∧
        t.ports[dnPort m] = { s.ports[dnPort m] with fragEn := false } ∧ portsBut (dnPort m) s t ∧
        only [.ula, .ports, .bus] s t) ∧
    ((hubValue r.pkt).toNat = 6 →
      ∃ t, exec .clearPortFeatureSuspend s = .next t ∧ hubAnswered t r 0 false [] ∧
        bit t.aon.ports[dnPort m].feather 3 = false ∧
        (bit s.aon.ports[dnPort m].feather 3 = true → s.aon.ports[dnPort m].hold = .held →
          s.aon.ports[dnPort m].bcn = .none → t.aon.ports[dnPort m].bcn = .drive) ∧
        only [.aon, .ula, .ports, .out, .bus] s t) ∧
    ((hubValue r.pkt).toNat = 7 →
      ∃ t, exec .clearPortFeatureBcnFwd s = .next t ∧ hubAnswered t r 0 false [] ∧
        bit t.aon.ports[dnPort m].feather 2 = false ∧ only [.aon, .ula, .ports, .out, .bus] s t)) ∧
  (∀ r (s : State), hubAsked s r 4 false → hubLen r.pkt = 0 → hubIndex r.pkt = 0 ∨ 16 < hubIndex r.pkt →
    ∀ x ∈ [(1, Instr.setPortFeatureEnable), (2, .setPortFeatureRetrain), (4, .setPortFeaturePortReset),
        (5, .setPortFeatureFrag), (6, .setPortFeatureSuspend), (7, .setPortFeatureBcnFwd)],
      (hubValue r.pkt).toNat = x.1 →
      ∃ t, exec x.2 s = .next t ∧ hubAnswered t r 3 false [] ∧ only [.ula, .bus] s t)

/-- SET_ADDRESS, SET_ROUTE, SET_MCAST, SET_SCHEDULE and SET_CREW write what they carry, SET_SCHEDULE every entry of
its run, and answer OK; an address that no node may have, a range that belongs elsewhere, or a run of entries past
the port's last one is refused and nothing is written.  That an error is answered with its status alone is log
entry 79, and that ranges overlap as cut to 0x0001 to 0xEFFF log entry 82, the model's inferences. -/
def Obligations.HubTables : Prop :=
  (∀ r (s : State), hubAsked s r 0x02 false → hubLen r.pkt = 0 → addressOk (hubValue r.pkt) = true →
    (hubIndex r.pkt = 0 →
      ∃ t, exec .setAddress s = .next t ∧ hubAnswered t r 0 false [] ∧ t.bus.node = hubValue r.pkt ∧
        t.bus.loc = s.bus.loc ∧ only [.ula, .bus] s t) ∧
    (hubIndex r.pkt = 0x11 → s.ln.en = true →
      ∃ t, exec .setAddress s = .next t ∧ hubAnswered t r 0 false [] ∧ t.bus.loc = hubValue r.pkt ∧
        t.bus.node = s.bus.node ∧ only [.ula, .bus] s t)) ∧
  (∀ r (s : State), hubAsked s r 0x02 false → hubLen r.pkt = 0 → addressOk (hubValue r.pkt) = false →
    ∃ t, exec .setAddress s = .next t ∧ hubAnswered t r 3 false [] ∧ t.bus.node = s.bus.node ∧
      t.bus.loc = s.bus.loc ∧ only [.ula, .bus] s t) ∧
  (∀ (m : DnN) r (s : State), hubAsked s r 0x06 false → hubLen r.pkt = 4 → hubValue r.pkt = 0#16 →
    hubIndex r.pkt = m.val + 1 →
    (rangeFree s m (rangeOf (hubData r.pkt 0) (hubData r.pkt 1)) = true →
      ∃ t, exec .setRoute s = .next t ∧ hubAnswered t r 0 false [] ∧
        t.ports[dnPort m] = { s.ports[dnPort m] with rangeLo := hubData r.pkt 0, rangeHi := hubData r.pkt 1 } ∧
        portsBut (dnPort m) s t ∧ only [.ula, .ports, .bus] s t) ∧
    (rangeFree s m (rangeOf (hubData r.pkt 0) (hubData r.pkt 1)) = false →
      ∃ t, exec .setRoute s = .next t ∧ hubAnswered t r 3 false [] ∧ only [.ula, .bus] s t)) ∧
  (∀ r (s : State), hubAsked s r 0x07 false → hubLen r.pkt = 6 → hubValue r.pkt = 0#16 → hubIndex r.pkt ≤ 255 →
    ∃ t, exec .setMcast s = .next t ∧ hubAnswered t r 0 false [] ∧
      tabGet McEnt.zero t.bus.mc (hubIndex r.pkt) =
        { grp := hubData r.pkt 0, ports := hubData r.pkt 1, loc := hubData r.pkt 2 &&& 0x8003#16, hits := 0#16 } ∧
      (∀ k, k ≠ hubIndex r.pkt → tabGet McEnt.zero t.bus.mc k = tabGet McEnt.zero s.bus.mc k) ∧
      only [.ula, .bus] s t) ∧
  (∀ (n : PortN) r (s : State), hubAsked s r 0x08 false → hubIndex r.pkt = n.val → hubLen r.pkt % 2 = 0 →
    2 ≤ hubLen r.pkt → hubLen r.pkt ≤ 128 →
    (hubValue r.pkt).toNat + hubLen r.pkt / 2 ≤ (if n = 0 then 16 else 64) →
    ∃ t, exec .setSchedule s = .next t ∧ hubAnswered t r 0 false [] ∧
      (∀ i < hubLen r.pkt / 2, tabGet 0#16 t.bus.sched (schedKey n ((hubValue r.pkt).toNat + i)) =
        hubData r.pkt i &&& 0xFFF0#16) ∧
      (∀ k, (∀ i < hubLen r.pkt / 2, k ≠ schedKey n ((hubValue r.pkt).toNat + i)) →
        tabGet 0#16 t.bus.sched k = tabGet 0#16 s.bus.sched k) ∧
      t.bus.schedAct = s.bus.schedAct ∧ only [.ula, .bus] s t) ∧
  (∀ (n : PortN) r (s : State), hubAsked s r 0x08 false → hubIndex r.pkt = n.val → hubLen r.pkt % 2 = 0 →
    2 ≤ hubLen r.pkt → hubLen r.pkt ≤ 128 →
    (if n = 0 then 16 else 64) < (hubValue r.pkt).toNat + hubLen r.pkt / 2 →
    ∃ t, exec .setSchedule s = .next t ∧ hubAnswered t r 3 false [] ∧ t.bus.sched = s.bus.sched ∧
      only [.ula, .bus] s t) ∧
  (∀ r (s : State), hubAsked s r 0x08 false → hubLen r.pkt % 2 = 1 ∨ hubLen r.pkt < 2 ∨ 128 < hubLen r.pkt →
    ∃ t, exec .setSchedule s = .next t ∧ hubAnswered t r 2 false [] ∧ t.bus.sched = s.bus.sched ∧
      only [.ula, .bus] s t) ∧
  (∀ (k : CrewN) r (s : State), hubAsked s r 0x09 false → hubLen r.pkt = 8 → hubValue r.pkt = 0#16 →
    hubIndex r.pkt = k.val →
    ∃ t, exec .setCrew s = .next t ∧ hubAnswered t r 0 false [] ∧
      t.tb.crews[k].mask0 = hubData r.pkt 0 ∧ t.tb.crews[k].mask1 = hubData r.pkt 1 &&& 0x0001#16 ∧
      t.tb.crews[k].ofs = hubData r.pkt 2 ∧ t.tb.crews[k].en = bit (hubData r.pkt 3) 0 ∧
      t.tb.crews[k].snap = bit (hubData r.pkt 3) 1 ∧ t.tb.crews[k].late = bit (hubData r.pkt 3) 2 ∧
      (∀ j : CrewN, j ≠ k → t.tb.crews[j] = s.tb.crews[j]) ∧
      only [.bb, .aon, .doms, .ln, .hma, .que, .ports, .tt, .tb, .out, .ula, .bus] s t)

/-- SET_CLOCK_PLAN, SET_PORT_POWER and SET_BUDGET act unless REGLOCK locks them, when they are DENIED and change
nothing; a reserved REF_SEL answers BADVAL, and the write is still made; SERVICE_WATCHDOG is DENIED on a hosted
part, and on a headless one judges the value.  What a reserved REF_SEL leaves of the write is log entry 88, and that
REGLOCK.REF stays as it is log entry 81, the model's inferences. -/
def Obligations.HubPowerAndClock : Prop :=
  (∀ r (s : State), hubAsked s r 0x0A false → hubLen r.pkt = 0 → hubIndex r.pkt = 0 → s.glob.hubClk = false →
    ∃ t, exec .setClockPlan s = .next t ∧
      hubKept t r (if 2 ≤ fld (hubValue r.pkt) 1 2 then 3 else 0) false [] ∧
      t.clk.plan = (if 2 ≤ fld (hubValue r.pkt) 1 2
        then (hubValue r.pkt &&& 0x0019#16) ||| (s.clk.plan &&& 0x0006#16) else hubValue r.pkt &&& 0x001F#16) ∧
      only [.bb, .pps, .aon, .clk, .doms, .ula, .que, .ports, .tt, .tb, .sur, .out, .bus] s t) ∧
  (∀ (m : DnN) r (s : State), hubAsked s r 0x0C false → hubLen r.pkt = 0 → hubIndex r.pkt = m.val + 1 →
    (hubValue r.pkt).toNat ≤ 1 → s.glob.hubPwr = false →
    ∃ t, exec .setPortPower s = .next t ∧ hubAnswered t r 0 false [] ∧
      t.pps[m].on = decide ((hubValue r.pkt).toNat = 1) ∧
      only [.bb, .pps, .aon, .doms, .ula, .que, .ports, .tt, .tb, .sur, .out, .bus] s t) ∧
  (∀ r (s : State), hubAsked s r 0x10 false → hubLen r.pkt = 0 → hubIndex r.pkt = 0 → s.glob.hubPwr = false →
    granted s.pps + reserved s.pps ≤ min (hubValue r.pkt).toNat 2240 →
    ∃ t, exec .setBudget s = .next t ∧ hubAnswered t r 0 false [] ∧
      t.ppsg.budget = min (hubValue r.pkt).toNat 2240 ∧
      only [.bb, .pps, .ppsg, .aon, .doms, .ula, .que, .ports, .tt, .tb, .sur, .out, .bus] s t) ∧
  (∀ r (s : State), hubLen r.pkt = 0 → hubIndex r.pkt = 0 →
    (hubAsked s r 0x0A false → s.glob.hubClk = true →
      ∃ t, exec .setClockPlan s = .next t ∧ hubAnswered t r 4 false [] ∧ only [.ula, .bus] s t) ∧
    (hubAsked s r 0x10 false → s.glob.hubPwr = true →
      ∃ t, exec .setBudget s = .next t ∧ hubAnswered t r 4 false [] ∧ only [.ula, .bus] s t) ∧
    (hubAsked s r 0x0C false → s.glob.hubPwr = true →
      ∃ t, exec .setPortPower s = .next t ∧ hubAnswered t r 4 false [] ∧ only [.ula, .bus] s t) ∧
    (hubAsked s r 0x0E false → headless s = false →
      ∃ t, exec .serviceWatchdog s = .next t ∧ hubAnswered t r 4 false [] ∧ only [.ula, .bus] s t)) ∧
  (∀ r (s : State), hubAsked s r 0x0E false → hubLen r.pkt = 0 → hubIndex r.pkt = 0 → headless s = true →
    s.wdt.en = true → s.wdt.grace = false →
    (hubValue r.pkt = 0x5A3C#16 →
      ∃ t, exec .serviceWatchdog s = .next t ∧ hubAnswered t r 0 false [] ∧ t.wdt.armBus = true ∧
        t.wdt.armHost = s.wdt.armHost ∧ t.wdt.armMg = s.wdt.armMg ∧ t.wdt.count = s.wdt.count ∧
        only [.wdt, .ula, .bus] s t) ∧
    (hubValue r.pkt = 0xA5C3#16 → s.wdt.armBus = true → wdtOpen s.wdt = true →
      ∃ t, exec .serviceWatchdog s = .next t ∧ hubAnswered t r 0 false [] ∧ t.wdt.count = 0 ∧
        t.wdt.armBus = false ∧ only [.wdt, .ula, .bus] s t))

/-- A port reset from above unassigns both addresses and clears the hub function and the current sweep; a tree reset
besides clears the multicast table, the downstream schedules, the crews, the census and the survey, empties every
range, and drives RST on every downstream port with a link, until RST_DRIVE_END.  Neither acts before UP is
word-aligned.  Which states those are, that the written and the active schedules both go, and that RST waits for a
packet in progress are the model's inferences (log entries 83, 84 and 85). -/
def Obligations.BusResets : Prop :=
  (∀ s : State, linkOn s = true → s.ports[(0 : PortN)].flooding = false → upAligned s = true →
    ∃ t, exec .portResetRx s = .next t ∧ t.bus.node = 0xFFFE#16 ∧ t.bus.loc = 0xFFFE#16 ∧ t.bus.hubQ = [] ∧
      t.bus.kept = none ∧ t.bus.mc = s.bus.mc ∧ t.bus.sched = s.bus.sched ∧ t.sur.sweep = none ∧
      t.sur.walk = .idle ∧ (∀ k : EpN, t.ln.eps[k].halt = false ∧ t.ln.eps[k].stage = 0) ∧
      only [.bb, .aon, .pcie, .doms, .ln, .hma, .que, .bus, .sur, .out] s t) ∧
  (∀ s : State, linkOn s = true → s.ports[(0 : PortN)].flooding = false → upAligned s = true →
    ∃ t, exec .treeReset s = .next t ∧ t.bus.node = 0xFFFE#16 ∧ t.bus.loc = 0xFFFE#16 ∧ t.bus.mc = [] ∧
      (∀ e ∈ t.bus.sched, e.1 < 64) ∧ t.cen = Cen.reset ∧ t.sur = Sur.reset ∧
      (∀ k : CrewN, t.tb.crews[k] = Crew.reset) ∧
      (∀ m : DnN, t.ports[dnPort m].rangeLo = 0xFFFF#16 ∧ t.ports[dnPort m].rangeHi = 0#16 ∧
        t.ports[dnPort m].txq = [] ∧ t.ports[dnPort m].txCur = none ∧
        (isUp s.ports[dnPort m] = true → t.ports[dnPort m].rstOut = true ∧ .rst m 1 true ∈ t.out)) ∧
      (∀ j : Fin 48, t.tt.slots[j] = none) ∧
      only [.bb, .aon, .pcie, .doms, .ln, .hma, .ula, .que, .ports, .bus, .tt, .tb, .cen, .sur, .out] s t) ∧
  (∀ s : State, linkOn s = true → upAligned s = false → exec .portResetRx s = .next s ∧
    exec .treeReset s = .next s) ∧
  (∀ w (s : State), linkOn s = true →
    ∃ t, exec (.rstDriveEnd w) s = .next t ∧
      (∀ m : DnN, t.ports[dnPort m].rstOut = (s.ports[dnPort m].rstOut && !bit w m.val)) ∧
      (∀ m : DnN, bit w m.val = true → s.ports[dnPort m].rstOut = true → .rst m 0 false ∈ t.out) ∧
      only [.ports, .out] s t)

/-! ## Packets, the proxy forwarder and the translator (chapters 4 and 5) -/

/-- A header whose check fails counts in the header errors and its packet is discarded; one that passes is given
its number and its route: the hub's own request to the hub, an address that no range holds to NOROUTE, a packet
for a port with a link to that port with HOP incremented, one for a port without a link to GONE, and one from
below to UP.  In a flood it is received only to be discarded: it is counted, routed nowhere, and its credits go back at
its end.  How such a packet is followed is log entry 140, and that a header on a port without a link changes nothing log
entry 18, the model's choices. -/
def Obligations.PacketHeaders : Prop :=
  (∀ n w0 w1 w2 w3 len (s : State), linkOn s = true → isUp s.ports[n] = true → s.ports[n].flooding = true →
    s.ports[n].rxCur = none →
    ∃ t, exec (.packetHeaderRx n w0 w1 w2 w3 len) s = .next t ∧
      t.ports[n].floodDisc = satInc 255 s.ports[n].floodDisc ∧ t.ports[n].hdrErr = s.ports[n].hdrErr ∧
      (∃ r ∈ t.ports[n].rx, r.pid = s.bus.pid ∧ r.bad = true ∧ r.dest = []) ∧
      t.ports[n].rxCur = some s.bus.pid ∧ t.bus = { s.bus with pid := s.bus.pid + 1 } ∧
      portsBut n s t ∧ only [.ports, .bus] s t) ∧
  (∀ n w0 w1 w2 w3 len (s : State), linkOn s = true → isUp s.ports[n] = false →
    exec (.packetHeaderRx n w0 w1 w2 w3 len) s = .next s) ∧
  (∀ n w0 w1 w2 w3 len (s : State), linkOn s = true → isUp s.ports[n] = true → s.ports[n].flooding = false →
    s.ports[n].rxCur = none →
    (hdrOk w0 w1 w2 w3 = false →
      ∃ t, exec (.packetHeaderRx n w0 w1 w2 w3 len) s = .next t ∧
        t.ports[n].hdrErr = satInc 255 s.ports[n].hdrErr ∧ t.ports[n].rxCur = some s.bus.pid ∧
        t.bus = { s.bus with pid := s.bus.pid + 1 } ∧ portsBut n s t ∧ only [.ports, .bus] s t)) ∧
  (∀ w0 w1 w2 w3 len (s : State), linkOn s = true → isUp s.ports[(0 : PortN)] = true →
    s.ports[(0 : PortN)].flooding = false → s.ports[(0 : PortN)].rxCur = none →
    s.ports[(0 : PortN)].rxSusp = none → hdrOk w0 w1 w2 w3 = true →
    ((hdrOf w0 w1 w2 w3).typ = 14#4 → w1 = s.bus.node → (w1.toNat < 0xF000 ∨ w1 = 0xFFFE#16) →
      ∃ t, exec (.packetHeaderRx 0 w0 w1 w2 w3 len) s = .next t ∧
        (∃ r ∈ t.ports[(0 : PortN)].rx, r.pid = s.bus.pid ∧ r.dest = [.hub] ∧ r.hdr = hdrOf w0 w1 w2 w3 ∧
          r.bad = false ∧ r.mc = false) ∧
        t.ports[(0 : PortN)].rxCur = some s.bus.pid ∧ t.bus = { s.bus with pid := s.bus.pid + 1 } ∧
        portsBut 0 s t ∧ only [.ports, .bus] s t) ∧
    (w1 ≠ s.bus.node → s.ln.en = false → w1.toNat < 0xF000 → rangePort s w1 = none →
      ∃ t, exec (.packetHeaderRx 0 w0 w1 w2 w3 len) s = .next t ∧
        t.bus = { s.bus with pid := s.bus.pid + 1, noroute := (s.bus.noroute + 1) % 256 } ∧
        portsBut 0 s t ∧ only [.ports, .bus] s t) ∧
    (∀ m : DnN, w1 ≠ s.bus.node → s.ln.en = false → w1.toNat < 0xF000 → rangePort s w1 = some m →
      hopFull (hdrOf w0 w1 w2 w3) = false → isUp s.ports[dnPort m] = true → splitMode s m = false →
      expectsAnswer (hdrOf w0 w1 w2 w3) = false →
      ∃ t, exec (.packetHeaderRx 0 w0 w1 w2 w3 len) s = .next t ∧
        (∃ saf, t.ports[dnPort m] = { s.ports[dnPort m] with
          txq := s.ports[dnPort m].txq ++
            [copyTx s.bus.pid 0 (nextHop (hdrOf w0 w1 w2 w3)) len.toNat saf] }) ∧
        only [.ports, .bus] s t) ∧
    (∀ m : DnN, w1 ≠ s.bus.node → s.ln.en = false → w1.toNat < 0xF000 → rangePort s w1 = some m →
      hopFull (hdrOf w0 w1 w2 w3) = false → isUp s.ports[dnPort m] = false →
      goneType (hdrOf w0 w1 w2 w3) = true →
      ∃ t, exec (.packetHeaderRx 0 w0 w1 w2 w3 len) s = .next t ∧
        (∃ r ∈ t.ports[(0 : PortN)].rx, r.pid = s.bus.pid ∧
          r.dest = [.answer (ulaOf m) (goneOf (hdrOf w0 w1 w2 w3) s.bus.node (dnPort m))]) ∧
        t.ports[dnPort m] = s.ports[dnPort m] ∧ only [.ports, .bus] s t)) ∧
  (∀ (m : DnN) w0 w1 w2 w3 len (s : State), linkOn s = true → isUp s.ports[dnPort m] = true →
    s.ports[dnPort m].flooding = false → s.ports[dnPort m].rxCur = none → s.ports[dnPort m].rxSusp = none →
    hdrOk w0 w1 w2 w3 = true → isUp s.ports[(0 : PortN)] = true → w1.toNat < 0xF000 →
    isAnswerType (hdrOf w0 w1 w2 w3).typ.toNat = false → (hdrOf w0 w1 w2 w3).typ ≠ 13#4 →
    hopFull (hdrOf w0 w1 w2 w3) = false →
    ∃ t, exec (.packetHeaderRx (dnPort m) w0 w1 w2 w3 len) s = .next t ∧
      (∃ saf, vAt t.ula.reqs [] (ulaOf m) = vAt s.ula.reqs [] (ulaOf m) ++
        [copyTx s.bus.pid (dnPort m) (nextHop (hdrOf w0 w1 w2 w3)) len.toNat saf]) ∧
      t.ports[dnPort m].rxCur = some s.bus.pid ∧ portsBut (dnPort m) s t ∧ only [.ula, .ports, .bus] s t)

/-- A packet whose trailer or payload is wrong counts and is discarded; a good one for the hub is handed to the hub;
an EAB ends the packet being received, and one with none in reception gives its credits back; in a flood a packet's
end only gives its credits back, and one that ended before its header counts as discarded there.  That the rows carry
header and trailer apart is log entry 51, and how a packet is followed in a flood log entry 140, the model's choices. -/
def Obligations.PacketEnds : Prop :=
  (∀ n p t0 t1 ws pid r (s : State), linkOn s = true → s.ports[n].flooding = false → isUp s.ports[n] = true →
    ws = endWords p t0 t1 →
    s.ports[n].rxCur = some pid → findRx s.ports[n] pid = some r → r.bad = false →
    (bodyOk r.hdr ws = false →
      ∃ t, exec (.packetTrailerRx n p t0 t1) s = .next t ∧ t.ports[n].crcErr = satInc 255 s.ports[n].crcErr ∧
        t.ports[n].rxCur = none ∧ only [.ula, .ports, .tt, .out] s t) ∧
    (bodyOk r.hdr ws = true → r.dest = [.hub] →
      ∃ t, exec (.packetTrailerRx n p t0 t1) s = .next t ∧
        (∃ x ∈ t.bus.inbox, x.pid = r.pid ∧ x.dest = .hub ∧ x.port = n ∧ x.mc = r.mc ∧
          x.pkt = { hdr := r.hdr, payload := ws.take (ws.length - 2) }) ∧
        t.ports[n].crcErr = s.ports[n].crcErr ∧ t.ports[n].rxCur = none ∧
        only [.bb, .aon, .doms, .ula, .que, .ports, .bus, .tt, .tb, .out] s t)) ∧
  (∀ n p t0 t1 (s : State), linkOn s = true → s.ports[n].flooding = false → isUp s.ports[n] = true →
    s.ports[n].rxCur = none → (endWords p t0 t1).length < 4 →
    ∃ t, exec (.packetTrailerRx n p t0 t1) s = .next t ∧ t.ports[n].crcErr = satInc 255 s.ports[n].crcErr ∧
      portsBut n s t ∧ only [.ports, .out] s t) ∧
  (∀ n p t0 t1 ws (s : State), linkOn s = true → isUp s.ports[n] = true → s.ports[n].flooding = true →
    ws = endWords p t0 t1 →
    (s.ports[n].rxCur = none → 4 ≤ ws.length → exec (.packetTrailerRx n p t0 t1) s = .next s) ∧
    (s.ports[n].rxCur = none → ws.length < 4 →
      ∃ t u, exec (.packetTrailerRx n p t0 t1) s = .next t ∧
        u.ports[n] = { s.ports[n] with floodDisc := satInc 255 s.ports[n].floodDisc } ∧ portsBut n s u ∧
        only [.ports] s u ∧ t = returnCredits u n (!bit (wAt ws 0) 10) (creditsOf ws.length)) ∧
    (∀ pid, s.ports[n].rxCur = some pid →
      ∃ t, exec (.packetTrailerRx n p t0 t1) s = .next t ∧ t.ports[n].rxCur = none ∧
        t.ports[n].floodDisc = s.ports[n].floodDisc ∧ t.ports[n].crcErr = s.ports[n].crcErr ∧
        only [.ula, .ports, .tt, .out] s t)) ∧
  (∀ n reason words pcls (s : State), linkOn s = true → isUp s.ports[n] = true → s.ports[n].flooding = true →
    (s.ports[n].rxCur = none →
      ∃ t u, exec (.eabRx n reason words pcls) s = .next t ∧
        u.ports[n] = { s.ports[n] with floodDisc := satInc 255 s.ports[n].floodDisc } ∧ portsBut n s u ∧
        only [.ports] s u ∧ t = returnCredits u n (!pcls) (creditsOf words.toNat)) ∧
    (∀ pid, s.ports[n].rxCur = some pid →
      ∃ t, exec (.eabRx n reason words pcls) s = .next t ∧ t.ports[n].rxCur = none ∧
        t.ports[n].floodDisc = s.ports[n].floodDisc ∧ only [.ula, .ports, .tt, .out] s t)) ∧
  (∀ n reason words pcls pid (s : State), linkOn s = true → s.ports[n].flooding = false → isUp s.ports[n] = true →
    s.ports[n].rxCur = some pid →
    ∃ t, exec (.eabRx n reason words pcls) s = .next t ∧ t.ports[n].rxCur = none ∧
      t.ports[n].crcErr = s.ports[n].crcErr ∧ only [.ula, .ports, .tt, .out] s t) ∧
  (∀ n reason words pcls (s : State), linkOn s = true → s.ports[n].flooding = false → isUp s.ports[n] = true →
    s.ports[n].rxCur = none →
    exec (.eabRx n reason words pcls) s = .next (returnCredits s n (!pcls) (creditsOf words.toNat)))

/-- A transmit selector starts the packet that R114 names and takes its credits, a record that expires is counted,
and the end of a packet puts it out and frees the transmitter; a TS_TRIAL that came during it takes UP out of PADDLE now.
The model's choices: EOP_SENT with nothing in transmission and SELECTOR_START with nothing to send change nothing (log
entry 18), a packet without credits while a port drives RST (85), HOP 1,023 (110), the 512 words of a transmit queue
(126). -/
def Obligations.SelectorsAndEnds : Prop :=
  (∀ (m : DnN) x (s : State), linkOn s = true → atBoundary s (dnPort m) = true →
    selectTx s s.ports[dnPort m] = some x → x.act = .none →
    ∃ t, exec (.selectorStart m) s = .next t ∧
      t.ports[dnPort m] = takeCredits x
        { s.ports[dnPort m] with txq := s.ports[dnPort m].txq.erase x, txCur := some x } ∧
      portsBut (dnPort m) s t ∧ only [.ports] s t) ∧
  (∀ (m : DnN) (s : State), linkOn s = true → (atBoundary s (dnPort m) = false ∨
    selectTx s s.ports[dnPort m] = none) → exec (.selectorStart m) s = .next s) ∧
  (∀ (m : DnN) addr endp tag (s : State), linkOn s = true →
    (s.ports[dnPort m].recs.any (fun r => r.addr = addr && r.endp = endp && r.tag = tag)) = true →
    ∃ t, exec (.recordExpiry m addr endp tag) s = .next t ∧
      t.ports[dnPort m] = { s.ports[dnPort m] with
        recs := s.ports[dnPort m].recs.filter fun r => !(r.addr = addr && r.endp = endp && r.tag = tag) } ∧
      t.tt = { s.tt with errRec := satInc 15 s.tt.errRec } ∧ portsBut (dnPort m) s t ∧ only [.ports, .tt] s t) ∧
  (∀ n x (s : State), linkOn s = true → s.ports[n].txCur = some x → x.done = true → x.fail = none → x.act = .none →
    (n ≠ 0 ∨ s.ports[n].st ≠ .paddle ∨ s.ports[n].setRx = 0) →
    ∃ t, exec (.eopSent n) s = .next t ∧ .pkt n x.pkt ∈ t.out ∧ t.ports[n].txCur = none ∧
      only [.ula, .ports, .out] s t) ∧
  (∀ x (s : State), linkOn s = true → s.ports[(0 : PortN)].txCur = some x → x.done = true → x.fail = none →
    x.act = .none → s.ports[(0 : PortN)].st = .paddle → s.ports[(0 : PortN)].setRx = 1 → s.ula.susp = none →
    s.clk.corePll = true → s.glob.cfgBusy = false →
    ∃ t, exec (.eopSent 0) s = .next t ∧ .pkt 0 x.pkt ∈ t.out ∧ t.ports[(0 : PortN)].txCur = none ∧
      t.ports[(0 : PortN)].st = .switch ∧ t.ports[(0 : PortN)].tryRate = s.ports[(0 : PortN)].tryRate ∧
      only [.bb, .pps, .aon, .doms, .ula, .que, .ports, .tt, .tb, .cen, .sur, .out] s t) ∧
  (∀ n (s : State), linkOn s = true → s.ports[n].txCur = none →
    (n ≠ 0 ∨ s.ports[n].st ≠ .paddle ∨ s.ports[n].setRx = 0) → exec (.eopSent n) s = .next s)

/-- The proxy forwarder and the transaction translator: a PROXY that R95 refuses draws STALL, one for a port
without a link GONE and one that would need a 65th record NAK; a good one sends its inner packet on the port, with
the outer HOP + 1 and, where it expects an answer, the port's EPOCH and a record that keeps the outer EPOCH; an
SSPLIT takes a slot or is turned away, and draws GONE where its port has no split mode any more (log entry 113, the
model's choice); a CSPLIT collects the answer its slot holds, whatever payload it carries (144); chunks are granted
one a cycle while any is free, of one port's answers the one whose header check came first (142); slots time out and
expire once they have seen the strokes of their rule (47).  Rows of a slot that is free, PROXY_RX with an empty inbox
and CHUNK_GRANT with nothing to grant change nothing (17 and 18). -/
def Obligations.ProxyAndSplits : Prop :=
  (∀ x u (s : State), linkOn s = true → takeInbox s (fun x => x.dest = .proxy) = some (x, u) →
    isUp s.ports[(0 : PortN)] = true → proxyBad x.pkt = true →
    ∃ t, exec .proxyRx s = .next t ∧ t.bus = u.bus ∧
      ownTx (hshk x.pkt.hdr 0x03 []) .none ∈ vAt t.ula.reqs [] 16 ∧ only [.ula, .bus] s t) ∧
  (∀ (m : DnN) x u (s : State), linkOn s = true → takeInbox s (fun x => x.dest = .proxy) = some (x, u) →
    isUp s.ports[(0 : PortN)] = true → proxyBad x.pkt = false → x.pkt.hdr.tsb.toNat = m.val + 1 →
    isUp s.ports[dnPort m] = false →
    ∃ t, exec .proxyRx s = .next t ∧ t.bus = u.bus ∧
      ownTx (goneOf x.pkt.hdr s.bus.node (dnPort m)) .none ∈ vAt t.ula.reqs [] (ulaOf m) ∧
      only [.ula, .bus] s t) ∧
  (∀ (m : DnN) x u (s : State), linkOn s = true → takeInbox s (fun x => x.dest = .proxy) = some (x, u) →
    proxyBad x.pkt = false → x.pkt.hdr.tsb.toNat = m.val + 1 → isUp s.ports[dnPort m] = true →
    let i := hdrOf (wAt x.pkt.payload 0) (wAt x.pkt.payload 1) (wAt x.pkt.payload 2) (wAt x.pkt.payload 3)
    let inner (h : Hdr) : Pkt := { hdr := h, payload := x.pkt.payload.drop 4 }
    (expectsAnswer i = true → s.ports[dnPort m].recs.length = 64 →
      (∀ r ∈ s.ports[dnPort m].recs, recMatch i r = false) → isUp s.ports[(0 : PortN)] = true →
      ∃ t, exec .proxyRx s = .next t ∧ t.bus = u.bus ∧
        ownTx (hshk x.pkt.hdr 0x02 []) .none ∈ vAt t.ula.reqs [] (ulaOf m) ∧
        t.tt = { s.tt with errRec := satInc 15 s.tt.errRec } ∧ only [.ula, .bus, .tt] s t) ∧
    (expectsAnswer i = true → s.ports[dnPort m].recs.length < 64 → hopFull x.pkt.hdr = false →
      ∃ t, exec .proxyRx s = .next t ∧ t.bus = u.bus ∧
        t.ports[dnPort m] = { s.ports[dnPort m] with
          recs := s.ports[dnPort m].recs.filter (fun r => !recMatch i r) ++
            [{ recOf i with epoch := x.pkt.hdr.epoch }],
          txq := s.ports[dnPort m].txq ++ [{ ownTx (inner { i with
            hop := x.pkt.hdr.hop + 1#10, epoch := BitVec.ofNat 4 s.ports[dnPort m].epoch }) .none with ord := x.pid }] } ∧
        portsBut (dnPort m) s t ∧ only [.ports, .bus] s t) ∧
    (expectsAnswer i = false → hopFull x.pkt.hdr = false →
      ∃ t, exec .proxyRx s = .next t ∧ t.bus = u.bus ∧
        t.ports[dnPort m] = { s.ports[dnPort m] with
          txq := s.ports[dnPort m].txq ++ [{ ownTx (inner { i with hop := x.pkt.hdr.hop + 1#10 }) .none with ord := x.pid }] } ∧
        portsBut (dnPort m) s t ∧ only [.ports, .bus] s t)) ∧
  (∀ s : State, linkOn s = true → takeInbox s (fun x => x.dest = .proxy) = none → exec .proxyRx s = .next s) ∧
  (∀ (m : DnN) x u (s : State), linkOn s = true → takeInbox s (forTt 9#4) = some (x, u) → ttPort x.dest = some m →
    isUp s.ports[(0 : PortN)] = true → hopFull x.pkt.hdr = false → x.pkt.hdr.pcls = false →
    (splitMode s m = false → innerType x.pkt.hdr ≠ 6 →
      ∃ t, exec .ssplitRx s = .next t ∧ t.bus = u.bus ∧
        ownTx (goneOf x.pkt.hdr s.bus.node (dnPort m)) .none ∈ vAt t.ula.reqs [] (ulaOf m) ∧
        only [.ula, .bus] s t) ∧
    (splitMode s m = true →
    (splitRefused s x.pkt.hdr = true →
      ∃ t, exec .ssplitRx s = .next t ∧ t.bus = u.bus ∧
        ownTx (hshk x.pkt.hdr 0x03 []) .none ∈ vAt t.ula.reqs [] 18 ∧ only [.ula, .bus] s t) ∧
    (∀ j, splitRefused s x.pkt.hdr = false → findSlot s m x.pkt.hdr = none →
      roomFor s x.pkt.payload.length = some j →
      ∃ t, exec .ssplitRx s = .next t ∧ t.bus = u.bus ∧ t.tt.slots[j] = some (newSlot s m x.pkt) ∧
        ownTx (ssplitUp x.pkt.hdr j) .none ∈ vAt t.ula.reqs [] 18 ∧ only [.ula, .ports, .bus, .tt] s t) ∧
    (splitRefused s x.pkt.hdr = false → findSlot s m x.pkt.hdr = none → roomFor s x.pkt.payload.length = none →
      ∃ t, exec .ssplitRx s = .next t ∧ t.bus = u.bus ∧
        ownTx (hshk x.pkt.hdr 0x02 []) .none ∈ vAt t.ula.reqs [] 18 ∧ only [.ula, .bus] s t))) ∧
  (∀ (m : DnN) x u (s : State), linkOn s = true → takeInbox s (forTt 10#4) = some (x, u) → ttPort x.dest = some m →
    isUp s.ports[(0 : PortN)] = true →
    (findSlot s m x.pkt.hdr = none →
      ∃ t, exec .csplitRx s = .next t ∧ t.bus = u.bus ∧
        ownTx (hshk x.pkt.hdr 0x03 []) .none ∈ vAt t.ula.reqs [] 18 ∧ only [.ula, .bus] s t) ∧
    (∀ j y a, findSlot s m x.pkt.hdr = some j → s.tt.slots[j] = some y →
      y.ityp.toNat = innerType x.pkt.hdr → y.pcls = x.pkt.hdr.pcls → y.st = .stored → y.ans = some a →
      ∃ t, exec .csplitRx s = .next t ∧ t.bus = u.bus ∧
        ownTx (csplitUp x.pkt.hdr a) (.answerSent j) ∈ vAt t.ula.reqs [] 18 ∧ only [.ula, .bus] s t) ∧
    (∀ j y, findSlot s m x.pkt.hdr = some j → s.tt.slots[j] = some y →
      y.ityp.toNat = innerType x.pkt.hdr → y.pcls = x.pkt.hdr.pcls → y.st = .failed →
      ∃ t, exec .csplitRx s = .next t ∧ t.bus = u.bus ∧ t.tt.slots[j] = none ∧
        ownTx (hshk x.pkt.hdr 0x02 []) .none ∈ vAt t.ula.reqs [] 18 ∧
        only [.ula, .ports, .bus, .tt, .out] s t)) ∧
  (∀ j (s : State), linkOn s = true → chunkWinner s = some j → chunksUsed s < 48 →
    ∃ t, exec .chunkGrant s = .next t ∧
      t.tt.slots[j].map (·.ansCh) = s.tt.slots[j].map (fun x => x.ansCh + 1) ∧ only [.ports, .tt, .out] s t) ∧
  (∀ s : State, linkOn s = true → (48 ≤ chunksUsed s ∨ chunkWinner s = none) → exec .chunkGrant s = .next s) ∧
  (∀ j x (s : State), linkOn s = true → s.tt.slots[j] = some x →
    (x.pcls = false → unanswered x = true → x.tmo ≤ x.strokes →
      ∃ t, exec (.ttSlotTimeout j) s = .next t ∧ t.tt.slots[j].map (·.st) = some .failed ∧
        t.tt.errTmo = satInc 15 s.tt.errTmo ∧ only [.ports, .tt, .out] s t) ∧
    (x.pcls = false → x.st ≠ .waiting → 2 * x.tmo ≤ x.strokes →
      ∃ t, exec (.ttSlotExpire j) s = .next t ∧ t.tt.slots[j] = none ∧ only [.ula, .ports, .tt, .out] s t) ∧
    (x.pcls = true → 2 ≤ x.strokes →
      ∃ t, exec (.periodicSlotExpire j) s = .next t ∧ t.tt.slots[j] = none ∧
        only [.ula, .ports, .tt, .out] s t)) ∧
  (∀ j (s : State), linkOn s = true → s.tt.slots[j] = none →
    exec (.ttSlotTimeout j) s = .next s ∧ exec (.ttSlotExpire j) s = .next s ∧
      exec (.periodicSlotExpire j) s = .next s) ∧
  (∀ p (s : State), reaches s p = true →
    ∃ t, exec (.ttCntClr p) s = .next t ∧
      t.tt = { s.tt with errTmo := 0, errPdrop := 0, errNosplit := 0, errRec := 0,
                         hwmS := slotsUsed s.tt, hwmC := chunksUsed s } ∧ only [.tt] s t)

/-! ## Census and survey (chapter 6) -/

/-- An OPEN for a new heat becomes a report of the ports, sent and kept; the heat of the last report draws it again
with RETRY, or nothing while it is queued; a hub without an address discards the OPEN.  A report that was sent becomes
the delivered view of the ports it names before the new one is built: each of them takes the view of its entry and
loses the attaches that the entry told.  An OPEN is taken at any length, an unsent report of the old heat, its copies
too, gives way to the new one, and the row without an OPEN in the inbox changes nothing (log entries 117, 145, 146 and
18, the model's choices). -/
def Obligations.CensusHeats : Prop :=
  (∀ s : State, linkOn s = true → takeInbox s (fun x => x.dest = .census) = none →
    exec .censusOpen s = .next s) ∧
  (∀ x u (s : State), linkOn s = true → takeInbox s (fun x => x.dest = .census) = some (x, u) →
    (s.bus.node = 0xFFFE#16 → exec .censusOpen s = .next u) ∧
    (s.bus.node ≠ 0xFFFE#16 → s.cen.lastHeat = some (wAt x.pkt.payload 0) → s.cen.sent = true →
      isUp s.ports[(0 : PortN)] = true →
      ∃ t, exec .censusOpen s = .next t ∧
        engineSent t { hdr := engineHdr 12#4 s.bus.node 0x02, payload := retryWords s.cen.report } .reportSent ∧
        t.bus = u.bus ∧ only [.bus, .ula, .doms, .que, .aon, .out] s t) ∧
    (s.bus.node ≠ 0xFFFE#16 → s.cen.lastHeat = some (wAt x.pkt.payload 0) → s.cen.sent = false →
      reportQueued s = true → exec .censusOpen s = .next u) ∧
    (∀ mode es, s.bus.node ≠ 0xFFFE#16 →
      (s.cen.lastHeat ≠ some (wAt x.pkt.payload 0) ∨ reportQueued s = false) → s.cen.sent = false →
      mode = fld (wAt x.pkt.payload 1) 0 2 → es = entriesOf s mode →
      ((es ≠ [] ∨ mode ≠ 0) → isUp s.ports[(0 : PortN)] = true →
        ∃ t, exec .censusOpen s = .next t ∧
          t.cen = { s.cen with
            lastHeat := some (wAt x.pkt.payload 0), report := reportWords s (wAt x.pkt.payload 0) mode es
            handed := true, sent := false, entries := es } ∧
          engineSent t { hdr := engineHdr 12#4 s.bus.node 0x02
                         payload := reportWords s (wAt x.pkt.payload 0) mode es } .reportSent ∧
          t.bus = u.bus ∧ only [.bus, .ula, .ports, .cen, .doms, .que, .aon, .out] s t) ∧
      (es = [] → mode = 0 →
        ∃ t, exec .censusOpen s = .next t ∧
          t.cen = { s.cen with
            lastHeat := some (wAt x.pkt.payload 0), report := reportWords s (wAt x.pkt.payload 0) mode es
            handed := false, sent := false, entries := [] } ∧
          t.bus = u.bus ∧ only [.bus, .ula, .ports, .cen] s t)) ∧
    (∀ mode d es, s.bus.node ≠ 0xFFFE#16 → s.cen.lastHeat ≠ some (wAt x.pkt.payload 0) → s.cen.sent = true →
      mode = fld (wAt x.pkt.payload 1) 0 2 → d = { s with cen := deliverViews s.cen } → es = entriesOf d mode →
      (es ≠ [] ∨ mode ≠ 0) → isUp s.ports[(0 : PortN)] = true →
      ∃ t, exec .censusOpen s = .next t ∧
        t.cen = { deliverViews s.cen with
          lastHeat := some (wAt x.pkt.payload 0), report := reportWords d (wAt x.pkt.payload 0) mode es
          handed := true, sent := false, entries := es } ∧
        (∀ m v n, s.cen.entries.filter (fun e => e.1 = m) = [(m, v, n)] →
          t.cen.views[m] = some v ∧ t.cen.attaches[m] = s.cen.attaches[m] - n) ∧
        (∀ m, s.cen.entries.filter (fun e => e.1 = m) = [] →
          t.cen.views[m] = s.cen.views[m] ∧ t.cen.attaches[m] = s.cen.attaches[m]) ∧
        engineSent t { hdr := engineHdr 12#4 s.bus.node 0x02
                       payload := reportWords d (wAt x.pkt.payload 0) mode es } .reportSent ∧
        t.bus = u.bus ∧ only [.bus, .ula, .ports, .cen, .doms, .que, .aon, .out] s t))

/-- An OPEN of a new sweep sends PROBE 1; each timeout sends the next until three have gone; a PROBE from below
joins the walk set and draws an ECHO; the ECHO of the last PROBE measures the delay; packets of other sweeps are
discarded.  At which moments the four stamps are taken is log entry 46, the model's inference; that the timeout with no
probe out changes nothing is log entry 17, the model's choice. -/
def Obligations.SurveyProbing : Prop :=
  (∀ x u (s : State), surveyHas s 1 true x u → s.bus.node ≠ 0xFFFE#16 →
    (s.sur.sweep = some (wAt x.pkt.payload 0) → exec .surveyOpen s = .next u) ∧
    (s.sur.sweep ≠ some (wAt x.pkt.payload 0) → isUp s.ports[(0 : PortN)] = true →
      ∃ t, exec .surveyOpen s = .next t ∧
        t.sur = { Sur.reset with
          sweep := some (wAt x.pkt.payload 0), tmo := max 1 (fld (wAt x.pkt.payload 1) 0 8)
          depth := (x.pkt.hdr.hop.toNat + 1) % 1024, ended := false, probe := 1, kept := s.sur.kept } ∧
        engineSent t (surveyPkt s.bus.node 0x02 [wAt x.pkt.payload 0, 1#16]) .probe ∧
        t.bus = u.bus ∧ only [.bus, .ula, .sur] s t)) ∧
  (∀ s : State, linkOn s = true →
    (∀ sw, s.sur.sweep = some sw → s.sur.ended = false → s.sur.probe < 3 → s.bus.node ≠ 0xFFFE#16 →
      isUp s.ports[(0 : PortN)] = true →
      ∃ t, exec .probeTimeout s = .next t ∧ t.sur = { s.sur with probe := s.sur.probe + 1 } ∧
        engineSent t (surveyPkt s.bus.node 0x02 [sw, w16 (s.sur.probe + 1)]) .probe ∧ only [.ula, .sur] s t) ∧
    (s.sur.sweep.isSome = true → s.sur.ended = false → 3 ≤ s.sur.probe → s.sur.walk ≠ .probing →
      ∃ t, exec .probeTimeout s = .next t ∧ t.sur = { s.sur with ended := true } ∧ only [.sur] s t) ∧
    ((s.sur.sweep = none ∨ s.sur.ended = true) → exec .probeTimeout s = .next s)) ∧
  (∀ (m : DnN) x u (s : State), surveyHas s 2 false x u → x.port = dnPort m →
    (thisSweep s x = false → exec .surveyProbe s = .next u) ∧
    (thisSweep s x = true → s.bus.node ≠ 0xFFFE#16 → s.sur.walk ≠ .waitProbe m →
      ∃ t, exec .surveyProbe s = .next t ∧ t.sur.walkSet[m] = some x.pkt.hdr.addr ∧
        t.ports[dnPort m] = { s.ports[dnPort m] with
          txq := s.ports[dnPort m].txq ++
            [{ ownTx (surveyPkt x.pkt.hdr.addr 0x03 [wAt x.pkt.payload 0, wAt x.pkt.payload 1, 0#16, 0#16])
                (.echo x.stamp) with ord := s.bus.pid }] } ∧
        t.bus = u.bus ∧ portsBut (dnPort m) s t ∧ only [.bus, .ports, .sur] s t)) ∧
  (∀ x u (s : State), surveyHas s 3 true x u →
    (thisSweep s x = false ∨ s.sur.ended = true ∨ (wAt x.pkt.payload 1).toNat ≠ s.sur.probe →
      exec .surveyEcho s = .next u) ∧
    (thisSweep s x = true → s.sur.ended = false → (wAt x.pkt.payload 1).toNat = s.sur.probe →
      s.sur.walk ≠ .probing →
      ∃ t, exec .surveyEcho s = .next t ∧
        t.sur = { s.sur with measured := true, measPll := s.sur.t1Pll && x.pll, ended := true } ∧
        t.tb.hop = hopDelay x.stamp s.sur.t1
          ((wAt x.pkt.payload 2).toNat * 65536 + (wAt x.pkt.payload 3).toNat) ∧
        t.tb.dlyOk = true ∧ t.tb.dlyPll = (s.sur.t1Pll && x.pll) ∧
        only [.bus, .tb, .sur, .bb, .doms, .que, .aon, .out] s t))

/-- The TOKEN sends this hub's RECORD, and after it the walk takes the ports in turn: a TOKEN to a port of the walk
set, a wait for the PROBE of a hub that has sent none, a BREAK for one that does not answer, RETURN when none is left,
KEEP while it lasts.  That a RECORD or BREAK
counts as forwarded once its route is decided is log entry 48, the model's inference; that a timeout whose timer does
not run changes nothing is log entry 17, and that a row whose state does not hold changes nothing log entry 18, the
model's choices. -/
def Obligations.SurveyWalk : Prop :=
  (∀ x u (s : State), surveyHas s 4 true x u →
    (thisSweep s x = false → exec .surveyToken s = .next u) ∧
    (thisSweep s x = true → s.sur.walk = .idle → s.sur.ended = true → s.bus.node ≠ 0xFFFE#16 →
      isUp s.ports[(0 : PortN)] = true →
      ∃ t, exec .surveyToken s = .next t ∧
        t.sur = { s.sur with walk := .record, kept := some (recordWords s) } ∧
        engineSent t (surveyPkt s.bus.node 0x05 (recordWords s)) .recordSent ∧
        only [.bus, .ula, .sur, .doms, .que, .aon, .out] s t) ∧
    (thisSweep s x = true → s.sur.walk = .idle → s.sur.ended = false →
      ∃ t, exec .surveyToken s = .next t ∧ t.sur = { s.sur with walk := .probing } ∧ only [.bus, .sur] s t) ∧
    (thisSweep s x = true → s.sur.walk = .done → s.bus.node ≠ 0xFFFE#16 → isUp s.ports[(0 : PortN)] = true →
      ∃ t, exec .surveyToken s = .next t ∧
        engineSent t (surveyPkt s.bus.node 0x07 [s.sur.sweep.getD 0#16]) .none ∧ only [.bus, .ula] s t)) ∧
  (∀ s : State, linkOn s = true → s.sur.walk = .recordOut → s.bus.node ≠ 0xFFFE#16 →
    ((∀ m : DnN, walkable s m = false) → isUp s.ports[(0 : PortN)] = true →
      ∃ t, exec .recordSent s = .next t ∧ t.sur = { s.sur with walk := .done } ∧
        engineSent t (surveyPkt s.bus.node 0x07 [s.sur.sweep.getD 0#16]) .none ∧ only [.ula, .sur] s t) ∧
    (∀ (m : DnN) a, (∀ k : DnN, k < m → walkable s k = false) → walkable s m = true → s.sur.walkSet[m] = some a →
      ∃ t, exec .recordSent s = .next t ∧ t.sur = { s.sur with walk := .below m } ∧
        t.ports[dnPort m] = { s.ports[dnPort m] with
          txq := s.ports[dnPort m].txq ++
            [{ ownTx (surveyPkt a 0x04 [s.sur.sweep.getD 0#16]) .none with ord := s.bus.pid }] } ∧
        portsBut (dnPort m) s t ∧ only [.ports, .sur] s t) ∧
    (∀ m : DnN, (∀ k : DnN, k < m → walkable s k = false) → walkable s m = true → s.sur.walkSet[m] = none →
      (s.sur.probeLate = false →
        ∃ t, exec .recordSent s = .next t ∧ t.sur = { s.sur with walk := .waitProbe m } ∧ only [.sur] s t) ∧
      (s.sur.probeLate = true → isUp s.ports[(0 : PortN)] = true →
        ∃ t, exec .recordSent s = .next t ∧ breakSent t m 3 ∧ t.sur.walk ≠ .recordOut ∧
          only [.ula, .ports, .sur] s t))) ∧
  (∀ s : State, linkOn s = true → s.sur.walk ≠ .recordOut → exec .recordSent s = .next s) ∧
  (∀ s : State, linkOn s = true → s.sur.sweep.isSome = true →
    ((∀ m, s.sur.walk ≠ .waitProbe m) →
      ∃ t, exec .probeWaitTimeout s = .next t ∧ t.sur = { s.sur with probeLate := true } ∧ only [.sur] s t) ∧
    (∀ m, s.sur.walk = .waitProbe m → s.bus.node ≠ 0xFFFE#16 → isUp s.ports[(0 : PortN)] = true →
      ∃ t, exec .probeWaitTimeout s = .next t ∧ t.sur.probeLate = true ∧ breakSent t m 3 ∧
        t.sur.walk ≠ .waitProbe m ∧ only [.ula, .ports, .sur] s t)) ∧
  (∀ m (s : State), linkOn s = true →
    (s.sur.walk = .below m → s.bus.node ≠ 0xFFFE#16 → isUp s.ports[(0 : PortN)] = true →
      ∃ t, exec (.surveyPortTimeout m) s = .next t ∧ breakSent t m 1 ∧ t.sur.walk ≠ .below m ∧
        only [.ula, .ports, .sur] s t) ∧
    (s.sur.walk ≠ .below m → exec (.surveyPortTimeout m) s = .next s)) ∧
  (∀ (m : DnN) x u (s : State), surveyHas s 7 false x u → x.port = dnPort m →
    (thisSweep s x = true → s.sur.walk = .below m →
      ∃ t, exec .surveyReturn s = .next t ∧ t = walkNext u m ∧ t.sur.walk ≠ .below m ∧
        only [.ula, .ports, .bus, .sur] s t) ∧
    ((thisSweep s x = false ∨ s.sur.walk ≠ .below m) → exec .surveyReturn s = .next u)) ∧
  (∀ x u (s : State), surveyHas s 8 false x u → exec .surveyKeep s = .next u) ∧
  (∀ s : State, linkOn s = true →
    (s.sur.walk ≠ .idle → s.sur.walk ≠ .done → s.bus.node ≠ 0xFFFE#16 → isUp s.ports[(0 : PortN)] = true →
      ∃ t, exec .keepTimer s = .next t ∧
        engineSent t (surveyPkt s.bus.node 0x08 [s.sur.sweep.getD 0#16]) .none ∧ only [.ula] s t) ∧
    ((s.sur.walk = .idle ∨ s.sur.walk = .done) → exec .keepTimer s = .next s))

/-! ## Suspend, holds and feathering (chapter 8) -/

/-- Silence puts a port with a link into the hold, and on UP asks for STOW; the hold's IDL ends with TXEN low; SUSP
holds a port and clearing it drives the beacon; a beacon from above is taken once; holds end with their beacon.  That
a port without a link is held at once is log entry 94, the model's inference; that the time-outs of silence and of a
suspend, and HOLD_IDL_DONE, change nothing where nothing of theirs runs is log entries 17 and 18, the model's choices. -/
def Obligations.HoldsAndResumes : Prop :=
  (∀ s : State, linkOn s = true →
    (isUp s.ports[(0 : PortN)] = true →
      ∃ t, exec .upSuspendTimeout s = .next t ∧ t.aon.ports[(0 : PortN)].hold = .idl ∧
        t.ports[(0 : PortN)].st = .detect ∧ t.pm = { s.pm with suspendReq := true } ∧
        only [.pm, .bb, .pps, .aon, .doms, .ula, .que, .ports, .tt, .tb, .sur, .out] s t) ∧
    (isUp s.ports[(0 : PortN)] = false → exec .upSuspendTimeout s = .next s)) ∧
  (∀ m (s : State), linkOn s = true →
    (isUp s.ports[dnPort m] = true →
      ∃ t, exec (.portSilenceTimeout m) s = .next t ∧ t.aon.ports[dnPort m].hold = .idl ∧
        t.ports[dnPort m].st = .detect ∧
        only [.bb, .pps, .aon, .doms, .ula, .que, .ports, .tt, .tb, .sur, .out] s t) ∧
    (isUp s.ports[dnPort m] = false → exec (.portSilenceTimeout m) s = .next s)) ∧
  (∀ n (s : State), linkOn s = true →
    (s.aon.ports[n].hold = .idl → s.pm.suspendReq = false →
      ∃ t, exec (.holdIdlDone n) s = .next t ∧ t.aon.ports[n] = { s.aon.ports[n] with hold := .held } ∧
        (∀ k : PortN, k ≠ n → t.aon.ports[k] = s.aon.ports[k]) ∧ only [.aon] s t) ∧
    (s.aon.ports[n].hold ≠ .idl → exec (.holdIdlDone n) s = .next s)) ∧
  (∀ p (m : DnN) (s : State), reaches s p = true →
    (bit s.aon.ports[dnPort m].feather 3 = false →
      ∃ t, exec (.portSuspend p m) s = .next t ∧ bit t.aon.ports[dnPort m].feather 3 = true ∧
        (isUp s.ports[dnPort m] = true → t.aon.ports[dnPort m].hold = s.aon.ports[dnPort m].hold) ∧
        (isUp s.ports[dnPort m] = false → s.aon.ports[dnPort m].hold = .none →
          s.ports[dnPort m].st ≠ .disabled → s.ports[dnPort m].st ≠ .disabling →
          t.aon.ports[dnPort m].hold = .held) ∧
        only [.pps, .aon, .ula, .ports, .sur, .out] s t) ∧
    (bit s.aon.ports[dnPort m].feather 3 = true →
      ∃ t, exec (.portResume p m) s = .next t ∧ bit t.aon.ports[dnPort m].feather 3 = false ∧
        t.aon.ports[dnPort m].hold = s.aon.ports[dnPort m].hold ∧
        (s.aon.ports[dnPort m].hold ≠ .none → s.aon.ports[dnPort m].bcn = .none →
          t.aon.ports[dnPort m].bcn = .drive) ∧
        (s.aon.ports[dnPort m].hold = .none → t.aon.ports[dnPort m].bcn = s.aon.ports[dnPort m].bcn) ∧
        only [.aon, .ports, .out] s t)) ∧
  (∀ s : State, powerOn s = true →
    ((s.aon.ports[(0 : PortN)].hold = .none ∨ s.aon.bcnSeen = true) →
      ∃ t, exec .beaconFromAbove s = .next t ∧ t.aon = { s.aon with upBcn := true } ∧ only [.aon] s t) ∧
    (s.aon.ports[(0 : PortN)].hold ≠ .none → s.aon.bcnSeen = false → s.pm.st = .run →
      ∃ t, exec .beaconFromAbove s = .next t ∧ t.aon.upBcn = true ∧ t.aon.bcnSeen = true ∧
        (∀ m : DnN, s.aon.ports[dnPort m].hold ≠ .none → bit s.aon.ports[dnPort m].feather 3 = false →
          (bit s.aon.ports[dnPort m].feather 2 = true → s.aon.ports[dnPort m].bcn = .none →
            t.aon.ports[dnPort m].bcn = .fwd false) ∧
          (bit s.aon.ports[dnPort m].feather 2 = false → s.aon.ports[dnPort m].bcn = .none → linkOn s = true →
            t.aon.ports[dnPort m].bcn = .drive)) ∧
        only [.aon] s t) ∧
    (s.aon.upBcn = true → s.aon.ports[(0 : PortN)].hold ≠ .none →
      ∃ t, exec .upBcnDeassert s = .next t ∧ t.aon.ports[(0 : PortN)].hold = .none ∧ t.aon.upBcn = false ∧
        only [.bb, .aon, .doms, .que, .out] s t) ∧
    ((s.aon.upBcn = false ∨ s.aon.ports[(0 : PortN)].hold = .none) →
      ∃ t, exec .upBcnDeassert s = .next t ∧ t.aon.upBcn = false ∧ t.aon.bcnSeen = false ∧ only [.aon] s t) ∧
    (s.aon.ports[(0 : PortN)].hold ≠ .none → s.aon.ports[(0 : PortN)].sdFell = true → s.aon.upBcn = false →
      ∃ t, exec .upHoldSdEnd s = .next t ∧ t.aon.ports[(0 : PortN)].hold = .none ∧
        t.aon.ports[(0 : PortN)].sd = true ∧ only [.bb, .aon, .doms, .que, .out] s t) ∧
    ((s.aon.ports[(0 : PortN)].hold = .none ∨ s.aon.ports[(0 : PortN)].sdFell = false ∨ s.aon.upBcn = true) →
      ∃ t, exec .upHoldSdEnd s = .next t ∧
        t.aon.ports[(0 : PortN)] = { s.aon.ports[(0 : PortN)] with sd := true } ∧ only [.aon] s t)) ∧
  (∀ (m : DnN) (s : State), powerOn s = true →
    ∃ t, exec (.bcnDriveEnd m) s = .next t ∧
      (s.aon.ports[dnPort m].bcn = .drive → t.aon.ports[dnPort m].bcn = .none ∧
        (bit s.aon.ports[dnPort m].feather 3 = false → t.aon.ports[dnPort m].hold = .none)) ∧
      (∀ d, s.aon.ports[dnPort m].bcn = .fwd d → s.aon.upBcn = true →
        t.aon.ports[dnPort m].bcn = .fwd true ∧ t.aon.ports[dnPort m].hold = s.aon.ports[dnPort m].hold) ∧
      only [.aon] s t)

/-- A feathering transmitter goes dark when its idle timer ends with nothing to send, outside the periodic part of a
stroke where schedule feathering runs and no nearer to a window or a catch than its wake takes, and when a window
ends in the periodic part; it wakes, with IDL for the partner's wake time, for something to send, for a window, of
the next stroke too, or a catch, and once in the dark limit for a SKP.  That a row without its condition changes
nothing, and that credits which wait go out with the wake, are the model's inferences (log entries 17, 18 and 93). -/
def Obligations.Feathering : Prop :=
  (∀ n (s : State), linkOn s = true →
    let may : Prop := (schedRuns s n = true → inPeriodic s n (strokePos s) = false ∧ keepsLit s n = false) ∧
      (schedRuns s n = false → catchSoon s n (wakeTicks s n) = false)
    (feathers s.ports[n] s.aon.ports[n] = true → bit s.aon.ports[n].feather 1 = true → txIdle s n = true → may →
      ∃ t, exec (.txIdleDark n) s = .next t ∧ t.ports[n] = { s.ports[n] with dark := true } ∧
        portsBut n s t ∧ only [.ports] s t) ∧
    ((feathers s.ports[n] s.aon.ports[n] = false ∨ bit s.aon.ports[n].feather 1 = false ∨ txIdle s n = false ∨ ¬ may) →
      exec (.txIdleDark n) s = .next s)) ∧
  (∀ n (s : State), linkOn s = true →
    (s.ports[n].dark = true → txIdle s n = false →
      ∃ t, exec (.txWake n) s = .next t ∧ t.ports[n].dark = false ∧ .idl n (wakeWords s.ports[n]) ∈ t.out ∧
        portsBut n s t ∧ only [.ports, .out] s t) ∧
    ((s.ports[n].dark = false ∨ txIdle s n = true) → exec (.txWake n) s = .next s)) ∧
  (∀ n (s : State), linkOn s = true →
    (s.ports[n].dark = true →
      ∃ t, exec (.darkLimit n) s = .next t ∧ t.ports[n].dark = true ∧ t.ports[n].crdP = 0 ∧ t.ports[n].crdN = 0 ∧
        .skp n ∈ t.out ∧ portsBut n s t ∧ only [.ports, .out] s t) ∧
    (s.ports[n].dark = false → exec (.darkLimit n) s = .next s)) ∧
  (∀ n (s : State), linkOn s = true → s.ports[n].dark = true →
    ((schedRuns s n = true ∧ inWindow s n (strokePos s + wakeTicks s n) = true) ∨
      catchSoon s n (wakeTicks s n) = true) →
    ∃ t, exec (.schedPrewake n) s = .next t ∧ t.ports[n].dark = false ∧
      .idl n (wakeWords s.ports[n]) ∈ t.out ∧ portsBut n s t ∧ only [.ports, .out] s t) ∧
  (∀ n (s : State), linkOn s = true →
    (schedRuns s n = true → inPeriodic s n (strokePos s) = true → keepsLit s n = false → txIdle s n = true →
      ∃ t, exec (.schedWindowEnd n) s = .next t ∧ t.ports[n] = { s.ports[n] with dark := true } ∧
        portsBut n s t ∧ only [.ports] s t) ∧
    ((schedRuns s n = false ∨ inPeriodic s n (strokePos s) = false ∨ keepsLit s n = true ∨ txIdle s n = false) →
      exec (.schedWindowEnd n) s = .next s))

/-! ## Port power and metering (chapters 14 and 15) -/

/-- Commands and the budget: ON reserves 4 W and starts, or waits; OFF stops; FCLR ends a latch, in WAIT with a
reservation or in OFF by ON, but a switch that SHORT_OFF latched and whose output is still above 2 V latches again at
once, and one that SENSE_FAULT latched is checked afresh; in a gang that is off it puts the lost legs back into OFF; the budget is clamped to what is held; the gangs change
while their switches are off; a class is stored.  The gate stays held until the bias check that a start asks for.
How FCLR checks afresh, and acts in a gang that is off, is log entry 57, the model's inference. -/
def Obligations.SwitchCommands : Prop :=
  (∀ p (m : DnN) (s : State), reaches s p = true → single s m →
    (s.pps[m].st = .off → 4 ≤ freeBudget s → s.ppsg.vlow = false →
      ∃ t, exec (.ppsOn p m) s = .next t ∧
        t.pps[m] = { s.pps[m] with
          on := true, rsv := true, st := .ramp, due := false, discharging := false, voffArmed := false,
          chkReq := true, chkDue := false, recheck := false } ∧
        ppsBut m s t ∧ only [.pps] s t) ∧
    (s.pps[m].st = .off → freeBudget s < 4 →
      ∃ t, exec (.ppsOn p m) s = .next t ∧ t.pps[m].on = true ∧ t.pps[m].st = .wait ∧ t.pps[m].due = false ∧
        ppsBut m s t ∧ only [.pps, .doms, .que, .aon, .out] s t) ∧
    (s.pps[m].st ≠ .off → s.pps[m].st ≠ .discharge →
      ∃ t, exec (.ppsOn p m) s = .next t ∧ t.pps[m] = { s.pps[m] with on := true } ∧ ppsBut m s t ∧
        only [.pps] s t) ∧
    (s.pps[m].st = .on →
      ∃ t, exec (.ppsOff p m) s = .next t ∧
        t.pps[m] = { s.pps[m] with on := false, st := .stopping, limit := false, fold := false } ∧ ppsBut m s t ∧
        only [.pps] s t) ∧
    (s.pps[m].st ≠ .on → s.pps[m].st ≠ .wait → s.pps[m].st ≠ .retry →
      ∃ t, exec (.ppsOff p m) s = .next t ∧ t.pps[m] = { s.pps[m] with on := false } ∧ ppsBut m s t ∧
        only [.pps] s t) ∧
    ((s.pps[m].st = .wait ∨ s.pps[m].st = .retry) →
      ∃ t, exec (.ppsOff p m) s = .next t ∧ t.pps[m].on = false ∧ t.pps[m].st = .off ∧ t.pps[m].grant = 0 ∧
        t.pps[m].rsv = false ∧ only [.bb, .pps, .aon, .doms, .ula, .que, .ports, .tt, .tb, .sur, .out] s t) ∧
    (s.pps[m].st = .latched →
      (bit s.pps[m].latchBy 2 = false ∨ s.pps[m].voffHigh = false ∨ s.pps[m].voffEn = false →
        ∃ t, exec (.ppsFclr p m) s = .next t ∧ t.pps[m].used = 0 ∧ t.pps[m].latchBy = 0#16 ∧
          t.pps[m].fault = s.pps[m].fault ∧ t.pps[m].recheck = (bit s.pps[m].latchBy 5 && t.pps[m].st != .ramp) ∧
          (bit s.pps[m].latchBy 5 = true → t.pps[m].chkReq = true) ∧
          (s.pps[m].on = false → t.pps[m].st = .off ∧ t.doms = s.doms ∧ t.out = s.out) ∧
          (s.pps[m].on = true → 4 ≤ freeBudget s → t.pps[m].rsv = true ∧
            t.pps[m].st = (if s.ppsg.vlow then .wait else .ramp)) ∧
          (s.pps[m].on = true → freeBudget s < 4 → t.pps[m].st = .wait ∧ t.pps[m].rsv = s.pps[m].rsv) ∧
          ppsBut m s t ∧ only [.pps, .doms, .que, .aon, .out] s t) ∧
      (bit s.pps[m].latchBy 2 = true → s.pps[m].voffHigh = true → s.pps[m].voffEn = true →
        ∃ t, exec (.ppsFclr p m) s = .next t ∧ t.pps[m].st = .latched ∧ t.pps[m].latchBy = 0x0004#16 ∧
          t.pps[m].fault = (s.pps[m].fault ||| 0x0004#16) ∧
          only [.bb, .pps, .aon, .doms, .ula, .que, .ports, .tt, .tb, .sur, .out] s t))) ∧
  (∀ p (m : DnN) (s : State), reaches s p = true → isLead s.ppsg.gang m = true → s.pps[m].st = .off →
    s.pps[m].on = false →
    ((∃ x ∈ gangLegs s m, s.pps[x].lost = true) →
      ∃ t, exec (.ppsFclr p m) s = .next t ∧ t.pps[m].used = 0 ∧
        (∀ x ∈ gangLegs s m, t.pps[x].lost = false ∧ t.pps[x].latchBy = 0#16 ∧ t.pps[x].st = .off) ∧
        (∀ x : DnN, x ∉ gangLegs s m → t.pps[x] = s.pps[x]) ∧ only [.pps] s t) ∧
    (s.pps[m].fitted = true → (∀ x ∈ gangLegs s m, s.pps[x].lost = false) →
      exec (.ppsFclr p m) s = .next s)) ∧
  (∀ p v (s : State), reaches s p = true →
    (fld v 0 12 < granted s.pps + reserved s.pps → granted s.pps + reserved s.pps ≤ 2240 →
      ∃ t, exec (.budgetWrite p v) s = .next t ∧
        t.ppsg = { s.ppsg with budget := granted s.pps + reserved s.pps, clamp := true } ∧
        only [.bb, .ppsg, .doms, .que, .aon, .out] s t) ∧
    (granted s.pps + reserved s.pps ≤ min (fld v 0 12) 2240 →
      ∃ t, exec (.budgetWrite p v) s = .next t ∧ t.ppsg = { s.ppsg with budget := min (fld v 0 12) 2240 } ∧
        only [.bb, .pps, .ppsg, .aon, .doms, .ula, .que, .ports, .tt, .tb, .sur, .out] s t) ∧
    ((∀ m : DnN, s.pps[m].st = .off ∧ s.pps[m].lost = false) →
      ∃ t, exec (.gangWrite p v) s = .next t ∧ (∀ i, i < 13 → bit t.ppsg.gang i = bit v i) ∧
        t.ppsg = { s.ppsg with gang := t.ppsg.gang } ∧ only [.ppsg] s t) ∧
    (∀ m : DnN, s.pps[m].st ≠ .off ∨ s.pps[m].lost = true → bit v (8 + m.val / 4) ≠ bit s.ppsg.gang (8 + m.val / 4) →
      ∃ t, exec (.gangWrite p v) s = .next t ∧ t.ppsg.gangref = true ∧
        bit t.ppsg.gang (8 + m.val / 4) = bit s.ppsg.gang (8 + m.val / 4) ∧ only [.ppsg] s t) ∧
    ((isUp s.ports[(0 : PortN)] = false ∨ pclassVal (fld v 0 3) = s.glob.pclass0) →
      ∃ t, exec (.pclassWrite p v) s = .next t ∧ t.glob = { s.glob with pclass0 := pclassVal (fld v 0 3) } ∧
        only [.glob] s t))

/-- Faults of one switch in no gang: a trip goes to RETRY while a retry is left and latches with RETRYX after it;
the checks of the gate, of reverse current, of a short and of the sense amplifier latch it; an open leg is a check of
gangs alone, whose reading is below one eighth of the mean of the other running legs while that mean is at least a
quarter of ILIM; it loses the leg, which latches its gang or, with DERATE, leaves it running.  No check of
a driven gate acts in a ramp whose bias check is still due, and the fold timer runs while the loop regulates, or
unseen while the sequencer stands (log entry 17, the model's inference).  Power-good and the timers of one switch in no gang: a ramp ends in ON at power-good, or stops if the latest command
is OFF; a retry and a confirmed gate-off start again; a discharge ends in OFF, and OFF's own arms the short check. -/
def Obligations.SwitchFaultsAndTimers : Prop :=
  (∀ (m : DnN) (s : State), powerOn s = true → single s m → s.pps[m].lost = false →
    ((s.pps[m].st = .on ∨ (s.pps[m].st = .ramp ∧ s.pps[m].chkReq = false ∧ s.pps[m].chkDue = false)) →
      (s.pps[m].on = true → s.pps[m].used < fld s.pps[m].retry 0 4 →
        (∃ t, exec (.oc m) s = .next t ∧ t.pps[m].st = .retry ∧ t.pps[m].fault = (s.pps[m].fault ||| 0x0001#16) ∧
          t.pps[m].used = satInc 15 s.pps[m].used ∧ t.pps[m].faults = satInc 255 s.pps[m].faults ∧
          ppsBut m s t ∧ only [.bb, .pps, .aon, .doms, .que, .out] s t) ∧
        (s.pps[m].limit = true ∨ linkOn s = false →
          ∃ t, exec (.foldTmo m) s = .next t ∧ t.pps[m].st = .retry ∧
            t.pps[m].fault = (s.pps[m].fault ||| 0x0002#16) ∧ ppsBut m s t ∧
            only [.bb, .pps, .aon, .doms, .que, .out] s t)) ∧
      (s.pps[m].on = true → fld s.pps[m].retry 0 4 ≤ s.pps[m].used → fld s.pps[m].retry 0 4 ≠ 15 →
        ∃ t, exec (.oc m) s = .next t ∧ t.pps[m].st = .latched ∧
          t.pps[m].fault = (s.pps[m].fault ||| 0x0001#16 ||| 0x0080#16) ∧ t.pps[m].grant = 0 ∧
          only [.bb, .pps, .aon, .doms, .ula, .que, .ports, .tt, .tb, .sur, .out] s t) ∧
      (s.pps[m].on = false →
        ∃ t, exec (.oc m) s = .next t ∧ t.pps[m].st = .stopping ∧
          t.pps[m].fault = (s.pps[m].fault ||| 0x0001#16) ∧ ppsBut m s t ∧
          only [.bb, .pps, .aon, .doms, .que, .out] s t) ∧
      (∀ vgs, s.pps[m].gateEn = true → fld vgs 0 8 < 30 →
        ∃ t, exec (.gateStuck m vgs) s = .next t ∧ t.pps[m].st = .latched ∧
          t.pps[m].fault = (s.pps[m].fault ||| 0x0008#16) ∧
          only [.bb, .pps, .aon, .doms, .ula, .que, .ports, .tt, .tb, .sur, .out] s t)) ∧
    (s.pps[m].limit = false → linkOn s = true → exec (.foldTmo m) s = .next s) ∧
    ((s.pps[m].st = .off ∨ (s.pps[m].st = .ramp ∧ (s.pps[m].chkReq = true ∨ s.pps[m].chkDue = true))) →
      exec (.oc m) s = .next s ∧ exec (.foldTmo m) s = .next s ∧
      ∀ vgs, exec (.gateStuck m vgs) s = .next s ∧ exec (.powerGood m vgs) s = .next s) ∧
    (s.pps[m].st = .off → s.pps[m].voffArmed = true → s.pps[m].voffEn = true →
      ∃ t, exec (.shortOff m) s = .next t ∧ t.pps[m].st = .latched ∧ t.pps[m].latchBy = 0x0004#16 ∧
        t.pps[m].fault = (s.pps[m].fault ||| 0x0004#16) ∧
        only [.bb, .pps, .aon, .doms, .ula, .que, .ports, .tt, .tb, .sur, .out] s t) ∧
    ((s.pps[m].st ≠ .off ∨ s.pps[m].voffArmed = false ∨ s.pps[m].voffEn = false) →
      exec (.shortOff m) s = .next s) ∧
    (∃ t, exec (.reverse m) s = .next t ∧ t.pps[m].st = .latched ∧
      t.pps[m].fault = (s.pps[m].fault ||| 0x0010#16) ∧
      only [.bb, .pps, .aon, .doms, .ula, .que, .ports, .tt, .tb, .sur, .out] s t) ∧
    exec (.legopen m) s = .next s) ∧
  (∀ (m l : DnN) (n sum : Int) (s : State), powerOn s = true → leadOf s.ppsg.gang m = l → leadOf s.ppsg.gang l = l →
    s.pps[l].fitted = true → s.pps[m].fitted = true → s.pps[l].st = .on → gangPg s m = true →
    s.pps[m].lost = false → n = (otherLegs s m).length → sum = sumReadings s (otherLegs s m) →
    (0 < n → 8 * n * s.mtr.ports[m].i.toInt < sum → 125 * n * fld s.pps[l].ilim 0 8 ≤ 4 * sum →
      ∃ t, exec (.legopen m) s = .next t ∧ t.pps[m].lost = true ∧
        (bit s.ppsg.gang 12 = false → t.pps[l].st = .latched) ∧
        (bit s.ppsg.gang 12 = true → t.pps[l].st = .on ∧ t.pps[l].derated = true) ∧
        t.pps[m].fault = (s.pps[m].fault ||| 0x0040#16) ∧
        only [.bb, .pps, .aon, .doms, .ula, .que, .ports, .tt, .tb, .sur, .out] s t) ∧
    ((n = 0 ∨ sum ≤ 8 * n * s.mtr.ports[m].i.toInt ∨ 4 * sum < 125 * n * fld s.pps[l].ilim 0 8) →
      exec (.legopen m) s = .next s)) ∧
  (∀ (m : DnN) (s : State), powerOn s = true → single s m →
    (∀ vgs, s.pps[m].st = .ramp → s.pps[m].chkReq = false → s.pps[m].chkDue = false → s.pps[m].on = true →
      s.pps[m].lost = false → 80 ≤ fld vgs 0 8 →
      ∃ t, exec (.powerGood m vgs) s = .next t ∧
        t.pps[m] = { s.pps[m] with pg := true, vgs := fld vgs 0 8, st := .on } ∧ ppsBut m s t ∧ only [.pps] s t) ∧
    (∀ vgs, s.pps[m].st = .ramp → s.pps[m].chkReq = false → s.pps[m].chkDue = false → s.pps[m].on = false →
      s.pps[m].lost = false → 80 ≤ fld vgs 0 8 →
      ∃ t, exec (.powerGood m vgs) s = .next t ∧ t.pps[m].st = .stopping ∧ t.pps[m].pg = true ∧
        ppsBut m s t ∧ only [.pps] s t) ∧
    (∀ vgs, fld vgs 0 8 < 80 → exec (.powerGood m vgs) s = .next s) ∧
    (s.pps[m].pg = false → exec (.powerGoodLoss m) s = .next s) ∧
    (s.pps[m].pg = true → linkOn s = true →
      exec (.powerGoodLoss m) s = .next (signalLost (modPps s m fun p => { p with pg := false }) (dnPort m))) ∧
    (s.pps[m].st = .retry → s.ppsg.vlow = false → linkOn s = true →
      ∃ t, exec (.retryEnd m) s = .next t ∧ t.pps[m].st = .ramp ∧ t.pps[m].grant = s.pps[m].grant ∧
        ppsBut m s t ∧ only [.pps] s t) ∧
    (s.pps[m].st ≠ .retry → exec (.retryEnd m) s = .next s) ∧
    (gangPg s m = true →
      ∃ t, exec (.retryCountClear m) s = .next t ∧ t.pps[m] = { s.pps[m] with used := 0 } ∧ ppsBut m s t ∧
        only [.pps] s t) ∧
    (gangPg s m = false → exec (.retryCountClear m) s = .next s) ∧
    (∀ vgs, s.pps[m].st = .stopping → s.pps[m].on = true → s.ppsg.vlow = false → linkOn s = true →
      ∃ t, exec (.gateOffCheckpoint m vgs) s = .next t ∧ t.pps[m].st = .ramp ∧ t.pps[m].vgs = fld vgs 0 8 ∧
        t.pps[m].grant = s.pps[m].grant ∧ t.pps[m].rsv = s.pps[m].rsv ∧ ppsBut m s t ∧ only [.pps] s t) ∧
    (∀ vgs, s.pps[m].st = .stopping → s.pps[m].on = false →
      ∃ t, exec (.gateOffCheckpoint m vgs) s = .next t ∧ t.pps[m].st = .discharge ∧
        t.pps[m].discharging = true ∧ t.pps[m].grant = 0 ∧ t.pps[m].rsv = false ∧
        only [.bb, .pps, .aon, .doms, .ula, .que, .ports, .tt, .tb, .sur, .out] s t) ∧
    (∀ vgs, s.pps[m].st ≠ .stopping → exec (.gateOffCheckpoint m vgs) s = .next s) ∧
    (s.pps[m].st = .discharge →
      ∃ t, exec (.dischargeEnd m) s = .next t ∧ t.pps[m].st = .off ∧ t.pps[m].discharging = true ∧
        t.pps[m].voffArmed = false ∧ ppsBut m s t ∧ only [.pps] s t) ∧
    (s.pps[m].st ≠ .discharge → exec (.dischargeEnd m) s = .next s) ∧
    (s.pps[m].st = .off →
      ∃ t, exec (.offDischargeEnd m) s = .next t ∧
        t.pps[m] = { s.pps[m] with discharging := false, voffArmed := true } ∧ ppsBut m s t ∧ only [.pps] s t) ∧
    (s.pps[m].st ≠ .off → exec (.offDischargeEnd m) s = .next s))

/-- A slot of the metering frame ends with its sample, in the order of the slots, and after slot 31 the next frame
begins.  A port's own slot loads the live registers, adds the signed power product to the energy, and shows the loop:
it regulates where the current reading is above VLIM, the smaller of ILIM and PFOLD over VDS, and not where it is
below, by more than the tolerance, and FOLD tells that the power term is the smaller.  A spare slot in which a bias
check is due decides SENSE_OK and enters no reading, and slot 31 converts VLINK_IN in every eighth frame and the
temperature four frames later.  A snapshot takes all ports at one instant, and its completion counts it.
The model's choices: values that no rule gives are operands or free (log entries 13 and 58), a reading at full scale (59),
a METER_SAMPLE of a slot whose turn it is not (99), the order of effects in one row (101), SNAPSHOT_COMPLETE without a
copy under way (18). -/
def Obligations.Metering : Prop :=
  (∀ (m : DnN) x (s : State), linkOn s = true → s.mtr.slot ≠ sampleSlot m x → exec (.meterSample m x) s = .next s) ∧
  (∀ (m : DnN) i v reg (s : State), linkOn s = true → s.mtr.slot = 2 * m.val →
    ∃ t, exec (.meterSample m (.pair i v reg)) s = .next t ∧ t.mtr.slot = s.mtr.slot + 1 ∧
      t.mtr.frame = s.mtr.frame ∧
      t.mtr.ports[m] = { s.mtr.ports[m] with
        i := i, v := v, p := BitVec.ofInt 32 (i.toInt * v.toNat)
        e := s.mtr.ports[m].e + BitVec.ofInt 72 (i.toInt * v.toNat) } ∧
      (∀ x : DnN, x ≠ m → t.mtr.ports[x] = s.mtr.ports[x]) ∧
      (single s m → s.pps[m].st = .on → s.pps[m].lost = false → i ≠ 0x7FFF#16 → i ≠ 0x8000#16 →
        let vds := max 1000 (s.mtr.vlink.toNat - v.toNat)
        let ilim := 250 * fld s.pps[m].ilim 0 8
        let pow := 500000 * s.pps[m].pfold.toNat
        let lim : Int := (min ilim (pow / vds) : Nat)
        let tol : Int := (max (min ilim (pow / vds) / 20) 100 : Nat)
        (2 * i.toInt < lim - tol → t.pps[m].limit = false) ∧ (lim + tol < 2 * i.toInt → t.pps[m].limit = true) ∧
        (lim - tol ≤ 2 * i.toInt → 2 * i.toInt ≤ lim + tol → t.pps[m].limit = reg) ∧
        t.pps[m].fold = decide (pow < ilim * vds) ∧ t.pps[m].st = .on) ∧
      only [.bb, .pps, .mtr, .aon, .doms, .ula, .que, .ports, .tt, .tb, .sur, .out] s t) ∧
  (∀ (m : DnN) cur volt (s : State), linkOn s = true → s.mtr.slot = 2 * m.val + 1 → m.val < 15 →
    (biasDue s m = false →
      ∃ t, exec (.meterSample m (.spare cur volt)) s = .next t ∧ t.mtr = { s.mtr with slot := s.mtr.slot + 1 } ∧
        only [.mtr] s t) ∧
    (biasDue s m = true → biasOk s.mtr.ports[m].i cur = true →
      ∃ t, exec (.meterSample m (.spare cur volt)) s = .next t ∧ t.mtr = { s.mtr with slot := s.mtr.slot + 1 } ∧
        t.pps[m] = { s.pps[m] with senseOk := true, chkDue := false, recheck := s.pps[m].recheck && s.pps[m].chkReq } ∧
        ppsBut m s t ∧ only [.pps, .mtr] s t) ∧
    (biasDue s m = true → biasOk s.mtr.ports[m].i cur = false → single s m →
      ∃ t, exec (.meterSample m (.spare cur volt)) s = .next t ∧ t.pps[m].st = .latched ∧ t.pps[m].senseOk = false ∧
        t.pps[m].fault = (s.pps[m].fault ||| 0x0020#16) ∧
        only [.bb, .pps, .mtr, .aon, .doms, .ula, .que, .ports, .tt, .tb, .sur, .out] s t)) ∧
  (∀ (m : DnN) (s : State), single s m → s.pps[m].lost = false →
    (biasDue s m = true ↔
      (s.pps[m].chkDue = true ∧ (s.pps[m].recheck = true ∨ s.pps[m].st = .ramp ∨ s.pps[m].st = .on)) ∨
      (s.mtr.frame % 31 = 0 ∧ (s.pps[m].st = .ramp ∨ s.pps[m].st = .on)))) ∧
  (∀ cur volt (s : State), linkOn s = true → s.mtr.slot = 31 → biasDue s 15 = false →
    ∃ t, exec (.meterSample 15 (.spare cur volt)) s = .next t ∧ t.mtr.slot = 0 ∧ t.mtr.frame = s.mtr.frame + 1 ∧
      t.mtr.vlink = (if s.mtr.frame % 8 = 0 then volt else s.mtr.vlink) ∧
      t.mtr.temp = (if s.mtr.frame % 8 = 4 then volt else s.mtr.temp) ∧ t.mtr.ports = s.mtr.ports ∧
      (∀ x : DnN, t.pps[x] = { s.pps[x] with chkDue := s.pps[x].chkDue || s.pps[x].chkReq, chkReq := false }) ∧
      only [.pps, .mtr] s t) ∧
  (∀ p (s : State), reaches s p = true →
    (s.mtr.copy = none →
      ∃ t, exec (.snapshotGo p) s = .next t ∧
        t.mtr = { s.mtr with go := true, copy := some (1, snapValues s.mtr) } ∧ only [.mtr] s t) ∧
    (s.mtr.copy ≠ none →
      ∃ t, exec (.snapshotGo p) s = .next t ∧ t.mtr = { s.mtr with go := true, merged := true } ∧
        only [.mtr] s t)) ∧
  (∀ s : State, powerOn s = true →
    (∀ src l, s.mtr.copy = some (src, l) → s.mtr.waiters = [] →
      ∃ t, exec .snapshotComplete s = .next t ∧ t.mtr.seq = s.mtr.seq + 1#16 ∧ t.mtr.src = src ∧
        t.mtr.copy = none ∧ t.mtr.go = false ∧
        (∀ m : DnN, t.mtr.ports[m] = putSnap l m s.mtr.ports[m]) ∧
        only [.mtr, .doms, .que, .aon, .out] s t) ∧
    (s.mtr.copy = none → exec .snapshotComplete s = .next s))

/-! ## Power states, watchdog, black box and flash (chapters 16 to 18) -/

/-- A wake source that is enabled wakes the device from STOW and from FEATHER; the wake order goes through CORE_PG to
the release of the Link die reset, with three attempts, and restores the stow set where B1 holds it; a loss of Link die
power restarts it.  The model's choices: a row whose state does not hold changes nothing (log entry 18); what the third
failure leaves while a grace counts, and the watchdog paused in STOW (23); the WAKE entry and the image at the end of a
wake (62, 63); sources recognised in RUN, and UP's SD while the Link die is dark (77, 129);
the bank checks of a wake from FEATHER are free values (135). -/
def Obligations.WakeOrder : Prop :=
  (∀ pins srcs during h (s : State), powerOn s = true →
    h = wakeHits s (pinHits s.pm (pins.setWidth 16) ||| (srcs &&& 0x3F00#16)) →
    ((h = 0#16 ∨ s.pm.st = .run) →
      ∃ t, exec (.wakeSource pins srcs during) s = .next t ∧ t.pm = { s.pm with pins := pins.setWidth 16 } ∧
        only [.pm] s t) ∧
    (h ≠ 0#16 → s.pm.st = .waking → s.pm.restart = 0 →
      ∃ t, exec (.wakeSource pins srcs during) s = .next t ∧ t.pm.st = .waking ∧
        t.pm.wakeCause = (s.pm.wakeCause ||| h) ∧ only [.pm] s t) ∧
    (h ≠ 0#16 → s.pm.st = .waking → s.pm.restart ≠ 0 →
      ∃ t, exec (.wakeSource pins srcs during) s = .next t ∧ t.pm = { s.pm with pins := pins.setWidth 16 } ∧
        only [.pm] s t) ∧
    (h ≠ 0#16 → s.pm.st = .stow →
      ∃ t, exec (.wakeSource pins srcs during) s = .next t ∧ t.pm.st = .waking ∧ t.pm.pwrEn = true ∧
        t.pm.restart = 0 ∧ t.pm.wakeCause = (s.pm.wakeCause ||| h) ∧ only [.pm, .aon] s t) ∧
    (h ≠ 0#16 → s.pm.st = .feather → s.pm.mgHeld = none → s.pm.suspendReq = false →
      s.aon.xqErr = [] →
      ∃ t, exec (.wakeSource pins srcs during) s = .next t ∧ t.pm.st = .run ∧ t.wdt.paused = false ∧
        t.pm.wakeCause = (s.pm.wakeCause ||| h) ∧ t.aon.xq = [] ∧
        t.pm.b2Ok = bit (banksKept s) 1 ∧ t.pm.b3Ok = bit (banksKept s) 2 ∧ t.pm.b4Ok = bit (banksKept s) 3 ∧
        (bit (banksKept s) 1 = false → t.bus.mc = [] ∧ t.bus.sched = []) ∧
        t.tb.time = s.tb.time + BitVec.ofNat 64 (ticksOf (s.aon.time - s.pm.featherAon)) ∧
        only [.pm, .wdt, .bb, .pps, .aon, .doms, .ln, .que, .bus, .tb, .out] s t)) ∧
  (∀ s : State, powerOn s = true →
    (s.pm.st = .waking → s.pm.pwrEn = true →
      ∃ t, exec .corePgRise s = .next t ∧ t.pm = { s.pm with corePg := true } ∧ only [.pm] s t) ∧
    ((s.pm.st ≠ .waking ∨ s.pm.pwrEn = false) → exec .corePgRise s = .next s) ∧
    (∀ x, mayRelease s = true → b1Applies s = false → s.pm.mgHeld = none → s.pm.suspendReq = false →
      s.aon.xqErr = [] →
      ∃ t, exec (.linkDieResetRelease x) s = .next t ∧ t.pm.st = .run ∧ t.pm.attempts = 0 ∧
        t.tb = { s.tb with time := startTime s } ∧ t.fl.sfdp = x ∧ t.wdt.paused = false ∧
        only [.pm, .wdt, .bb, .pps, .aon, .glob, .doms, .ln, .ula, .que, .fl, .ports, .tb, .sur, .out] s t) ∧
    (∀ x ws w, mayRelease s = true → s.pm.restart = 0 → s.pm.b1 = some ws → ws[68]? = some w → s.pm.mgHeld = none →
      s.pm.suspendReq = false → s.aon.xqErr = [] →
      ∃ t, exec (.linkDieResetRelease x) s = .next t ∧ t.pm.st = .run ∧ t.pm.attempts = 0 ∧ t.pm.b1Ok = true ∧
        t.pm.b2Ok = false ∧ t.pm.b3Ok = false ∧ t.pm.b4Ok = false ∧ t.glob.cfgBusy = s.glob.cfgBusy ∧
        t.glob.pclass0 = pclassVal (fld w 0 3) ∧ t.fl.sfdp = x ∧ t.wdt.paused = false ∧
        only [.pm, .wdt, .bb, .pps, .aon, .glob, .pcie, .doms, .ln, .hma, .ula, .que, .fl, .ports, .bus, .tt, .tb,
          .sur, .out] s t) ∧
    (∀ x, mayRelease s = false → exec (.linkDieResetRelease x) s = .next s) ∧
    (s.pm.st = .waking → s.pm.pwrEn = true → s.pm.corePg = false → bit s.pm.pwrSeq 0 = false →
      (s.pm.attempts + 1 < 3 →
        ∃ t, exec .powerUpFailure s = .next t ∧
          t.pm = { s.pm with pwrEn := false, attempts := s.pm.attempts + 1, puWait := true } ∧
          logsPower s t 0x12 0 (w16 (s.pm.attempts + 1)) 0#16 ∧ only [.pm, .bb] s t) ∧
      (3 ≤ s.pm.attempts + 1 → (s.wdt.grace = false ∨ s.wdt.paused = true) →
        ∃ t, exec .powerUpFailure s = .next t ∧
          t.pm = { s.pm with pwrEn := false, st := .stow, why := 0, boost := bit s.pm.kregCtrl 0, puFail := true,
                             attempts := 0, puWait := false } ∧
          t.wdt = { s.wdt with paused := true } ∧ t.clk = { s.clk with xinOk := false } ∧
          logsPower s t 0x12 0 (w16 (s.pm.attempts + 1)) 0#16 ∧ only [.pm, .wdt, .bb, .clk] s t) ∧
      (3 ≤ s.pm.attempts + 1 → s.wdt.grace = true → s.wdt.paused = false →
        ∃ t, exec .powerUpFailure s = .next t ∧
          t.pm = { s.pm with pwrEn := false, puFail := true, attempts := 0, puWait := false } ∧
          logsPower s t 0x12 0 (w16 (s.pm.attempts + 1)) 0#16 ∧ only [.pm, .bb] s t)) ∧
    (s.pm.st ≠ .waking → exec .powerUpFailure s = .next s ∧ exec .powerUpRetry s = .next s) ∧
    (s.pm.st = .waking → s.pm.puWait = true →
      ∃ t, exec .powerUpRetry s = .next t ∧
        t.pm = { s.pm with pwrEn := true, corePg := false, puWait := false, lossWait := false } ∧ only [.pm] s t) ∧
    ((s.pm.st = .run ∨ s.pm.st = .feather) → s.pm.pwrEn = true → bit s.pm.pwrSeq 0 = false →
      ∃ t, exec .linkDiePowerLoss s = .next t ∧ t.pm.st = .waking ∧ t.pm.restart = 1 ∧ t.pm.lossWait = true ∧
        t.pm.pwrEn = false ∧ t.pm.wakeCause = (s.pm.wakeCause ||| 0x8000#16) ∧
        t.ports = Vector.replicate 17 Port.reset ∧ t.bus = Bus.reset ∧ t.tb = Tb.reset ∧ t.pcie = Pcie.reset ∧
        (s.wdt.save = 1 → t.wdt.save = 3) ∧ t.wdt.grace = s.wdt.grace ∧
        only [.pm, .wdt, .bb, .pps, .mtr, .aon, .glob, .clk, .pcie, .doms, .ln, .hma, .ula, .que, .fl, .ports, .bus,
          .tt, .tb, .cen, .sur] s t) ∧
    (bit s.pm.pwrSeq 0 = true → exec .linkDiePowerLoss s = .next s) ∧
    (s.pm.lossWait = true →
      ∃ t, exec .corelossRestart s = .next t ∧
        t.pm = { s.pm with pwrEn := true, corePg := false, puWait := false, lossWait := false } ∧ only [.pm] s t) ∧
    (s.pm.lossWait = false → exec .corelossRestart s = .next s)) ∧
  (∀ s : State,
    (s.rst.perst = true → (s.pm.st = .run ∨ powerOn s = false ∨ epStrap s = false) →
      ∃ t, exec .perstRelease s = .next t ∧ t.rst = { s.rst with perst := false } ∧ only [.rst] s t) ∧
    (s.rst.perst = true → s.pm.st = .stow → powerOn s = true → epStrap s = true → bit s.pm.wakeEn 11 = true →
      ∃ t, exec .perstRelease s = .next t ∧ t.rst = { s.rst with perst := false } ∧ t.pm.st = .waking ∧
        t.pm.wakeCause = (s.pm.wakeCause ||| 0x0800#16) ∧ only [.rst, .pm, .aon] s t) ∧
    (s.rst.perst = false → exec .perstRelease s = .next s)) ∧
  (∀ n (s : State), powerOn s = true →
    (s.ports[n].rxCur = none →
      ∃ t, exec (.sdChange n false) s = .next t ∧ t.aon.ports[n] = { s.aon.ports[n] with
        sd := false, sdFell := s.aon.ports[n].sdFell || s.aon.ports[n].hold != .none } ∧ only [.aon] s t) ∧
    (s.pm.st = .run →
      ∃ t, exec (.sdChange n true) s = .next t ∧ t.aon.ports[n] = { s.aon.ports[n] with sd := true } ∧
        only [.aon] s t))

/-- FEATHER and STOW are entered by their idle timers and by requests, while their conditions hold, and a request is
otherwise denied with the reason; the keep-alive regulator follows STOW.  The model's choices: the rows of the two idle
timers act once the count has reached the setting, which idle ticks advance (log entries 17 and 86); rows in other states
change nothing (18); an entry is one step, and what FEATHER ends of lock and of the meter (20, 91); a switch that waits
for VLINK (53). -/
def Obligations.LowPowerEntry : Prop :=
  (∀ s : State, linkOn s = true →
    (s.pm.featherIdle ≠ 0#16 → 32 * s.pm.featherIdle.toNat ≤ s.pm.idle → whyFeather s = 0 →
      ∃ t, exec .featherIdleExpiry s = .next t ∧ t.pm.st = .feather ∧ t.pm.retUsed = s.pm.retSel ∧
        t.pm.wakeCause = 0#16 ∧ t.clk.corePll = false ∧ t.clk.plan = 0#16 ∧ t.wdt.paused = true ∧
        t.tb.locked = false ∧
        t.mtr = { s.mtr with gap := true, frame := s.mtr.frame + 1, slot := 0 } ∧
        only [.pm, .wdt, .bb, .pps, .mtr, .aon, .clk, .doms, .ln, .hma, .que, .ports, .tt, .tb, .out] s t) ∧
    (s.pm.featherIdle ≠ 0#16 → 32 * s.pm.featherIdle.toNat ≤ s.pm.idle → whyFeather s ≠ 0 →
      ∃ t, exec .featherIdleExpiry s = .next t ∧ t.pm = { s.pm with idle := 0, why := whyFeather s } ∧
        only [.pm] s t) ∧
    ((s.pm.featherIdle = 0#16 ∨ s.pm.idle < 32 * s.pm.featherIdle.toNat) →
      exec .featherIdleExpiry s = .next s)) ∧
  (∀ s : State, powerOn s = true →
    (s.pm.stowIdle ≠ 0#16 → 32 * s.pm.stowIdle.toNat ≤ s.pm.idle → whyStow s = 0 →
      (s.pm.st = .run ∨ s.pm.st = .feather) → whyFeather s = 0 →
      ∃ t, exec .stowIdleExpiry s = .next t ∧ t.pm.st = .stow ∧ t.pm.pwrEn = false ∧ t.wdt.paused = true ∧
        t.ports = Vector.replicate 17 Port.reset ∧ t.bus = Bus.reset ∧
        (s.pm.st = .run → bit s.pm.retSel 0 = true → t.pm.b1 = some (stowWords s)) ∧
        only [.pm, .wdt, .bb, .pps, .mtr, .aon, .glob, .clk, .pcie, .doms, .ln, .hma, .ula, .que, .fl, .ports, .bus,
          .tt, .tb, .cen, .sur] s t) ∧
    (s.pm.stowIdle ≠ 0#16 → 32 * s.pm.stowIdle.toNat ≤ s.pm.idle → (s.pm.st = .run ∨ s.pm.st = .feather) →
      (whyFeather s ≠ 0 →
        ∃ t, exec .stowIdleExpiry s = .next t ∧ t.pm = { s.pm with idle := 0, why := whyFeather s } ∧
          only [.pm] s t) ∧
      (whyFeather s = 0 → whyStow s ≠ 0 →
        ∃ t, exec .stowIdleExpiry s = .next t ∧ t.pm = { s.pm with why := whyStow s } ∧ only [.pm] s t)) ∧
    ((s.pm.stowIdle = 0#16 ∨ s.pm.idle < 32 * s.pm.stowIdle.toNat ∨ (s.pm.st ≠ .run ∧ s.pm.st ≠ .feather)) →
      exec .stowIdleExpiry s = .next s)) ∧
  (∀ p (s : State), reaches s p = true → s.pm.ctrl &&& 0x0007#16 = s.pm.ctrl →
    (whyFeather s ≠ 0 →
      ∃ t, exec (.pmReqFeather p) s = .next t ∧ t.pm = { s.pm with why := whyFeather s } ∧ only [.pm] s t) ∧
    (whyFeather s = 0 →
      ∃ t, exec (.pmReqFeather p) s = .next t ∧ t.pm.st = .feather ∧
        only [.pm, .wdt, .bb, .pps, .mtr, .aon, .clk, .doms, .ln, .hma, .que, .ports, .tt, .tb, .out] s t) ∧
    (whyStow s ≠ 0 →
      ∃ t, exec (.pmReqStow p) s = .next t ∧ t.pm = { s.pm with why := whyStow s } ∧ only [.pm] s t) ∧
    (whyStow s = 0 →
      ∃ t, exec (.pmReqStow p) s = .next t ∧ t.pm.st = .stow ∧
        only [.pm, .wdt, .bb, .pps, .mtr, .aon, .glob, .clk, .pcie, .doms, .ln, .hma, .ula, .que, .fl, .ports, .bus,
          .tt, .tb, .cen, .sur] s t)) ∧
  (∀ s : State, powerOn s = true →
    (s.pm.st = .stow → bit s.pm.kregCtrl 0 = true → s.pm.boost = false → s.bb.flush = none →
      s.mg.cs = true → bit s.pm.kregCtrl 1 = true →
      ∃ t, exec .kregLowPower s = .next t ∧ t.pm = { s.pm with boost := true } ∧ only [.pm] s t) ∧
    (s.pm.st = .stow → bit s.pm.kregCtrl 0 = true → s.pm.boost = false → s.bb.flush = none →
      (s.mg.cs = false ∨ bit s.pm.kregCtrl 1 = false) →
      ∃ t, exec .kregLowPower s = .next t ∧ t.pm = { s.pm with kregLow := true } ∧ only [.pm] s t) ∧
    (s.pm.st ≠ .stow → exec .kregLowPower s = .next s ∧ exec .kregBoostEnd s = .next s) ∧
    (s.pm.st = .stow → s.pm.boost = true → (s.mg.cs = false ∨ bit s.pm.kregCtrl 1 = false) → s.bb.flush = none →
      ∃ t, exec .kregBoostEnd s = .next t ∧
        t.pm = { s.pm with boost := false, kregLow := bit s.pm.kregCtrl 0 } ∧ only [.pm] s t) ∧
    (s.pm.kregLow = true →
      ∃ t, exec .kregHeavy s = .next t ∧ t.pm = { s.pm with heavy := true } ∧ only [.pm, .bb] s t) ∧
    (s.pm.kregLow = false → exec .kregHeavy s = .next s) ∧
    (s.pm.st = .run →
      ∃ t, exec .mgCsNFalling s = .next t ∧ t.mg = { s.mg with cs := true } ∧ only [.mg] s t) ∧
    (s.pm.st = .stow → bit s.pm.kregCtrl 1 = true → s.pm.kregLow = true → bit s.pm.wakeEn 12 = false →
      ∃ t, exec .mgCsNFalling s = .next t ∧ t.mg = { s.mg with cs := true } ∧
        t.pm = { s.pm with kregLow := false, boost := true } ∧ only [.pm, .mg] s t) ∧
    (s.ppsg.vlow = true → s.pm.st = .run →
      ∃ t, exec .vlinkRestored s = .next t ∧ t.ppsg = { s.ppsg with vlow := false } ∧
        (∀ m : DnN, s.pps[m].st = .wait → s.pps[m].due = true → isLead s.ppsg.gang m = true →
          t.pps[m].st = .ramp) ∧ only [.pps, .ppsg] s t) ∧
    (s.ppsg.vlow = false → exec .vlinkRestored s = .next s))

/-- The service sequence on an acting path restarts the count, and a wrong, unarmed or early one expires the
watchdog; EN is set, cleared by the key and locked by WDT_LOCK; period and window wait for the next service. While the count runs, its end expires the watchdog with cause 1.  The end of grace restarts the Link
die, advances EXPIRIES and drives HOST_RST_N where HRST_EN asks for it.  SERVICE_WATCHDOG acts only while
headless, and writes nothing for another value.  The model's choices: writes while EN = 0 and in
grace (log entry 60), a watchdog that is paused, in grace too (23), rows whose timer does not run (17), and rows
that name one field (72). -/
def Obligations.WatchdogWrites : Prop :=
  (∀ v (s : State), reaches s .pf = true → holdsWdt s 0 = true →
    ((s.wdt.en = false ∨ s.wdt.grace = true) → exec (.wdtServiceWrite .pf v) s = .next s) ∧
    (s.wdt.en = true → s.wdt.grace = false →
      (v = 0x5A3C#16 →
        ∃ t, exec (.wdtServiceWrite .pf v) s = .next t ∧ t.wdt = { s.wdt with armHost := true } ∧ only [.wdt] s t) ∧
      (v = 0xA5C3#16 → s.wdt.armHost = true → wdtOpen s.wdt = true →
        ∃ t, exec (.wdtServiceWrite .pf v) s = .next t ∧
          t.wdt = { s.wdt with
            count := 0, armHost := false, armBus := false, armMg := false, pend := false
            curPeriod := s.wdt.period.toNat, curWindow := s.wdt.window.toNat } ∧ only [.wdt] s t) ∧
      (v = 0xA5C3#16 → s.wdt.armHost = true → wdtOpen s.wdt = false →
        ∃ t, exec (.wdtServiceWrite .pf v) s = .next t ∧ t.wdt.grace = true ∧ t.wdt.cause = 2 ∧ t.wdt.count = 0 ∧
          only [.wdt, .bb] s t) ∧
      (v ≠ 0x5A3C#16 → (v ≠ 0xA5C3#16 ∨ s.wdt.armHost = false) →
        ∃ t, exec (.wdtServiceWrite .pf v) s = .next t ∧ t.wdt.grace = true ∧ t.wdt.cause = 3 ∧ t.wdt.count = 0 ∧
          only [.wdt, .bb] s t))) ∧
  (∀ v (s : State), reaches s .mg = true → s.wdt.mgSvc = false → exec (.wdtServiceWrite .mg v) s = .next s) ∧
  (∀ v (s : State), reaches s .hub = true →
    (headless s = false → exec (.wdtServiceWrite .hub v) s = .next s) ∧
    (v ≠ 0x5A3C#16 → v ≠ 0xA5C3#16 → exec (.wdtServiceWrite .hub v) s = .next s) ∧
    (v = 0x5A3C#16 → headless s = true → s.wdt.en = true → s.wdt.grace = false →
      ∃ t, exec (.wdtServiceWrite .hub v) s = .next t ∧ t.wdt = { s.wdt with armBus := true } ∧ only [.wdt] s t)) ∧
  (∀ p (s : State), reaches s p = true → (p = .pf ∨ p = .mg) →
    (∀ v, v = 0x6B1D#16 →
      ∃ t, exec (.wdtKeyWrite p v) s = .next t ∧ t.wdt = { s.wdt with key := true } ∧ only [.wdt] s t) ∧
    (∀ v, v = 0xD1B6#16 → s.wdt.key = true → s.wdt.lock = false → s.wdt.grace = false →
      ∃ t, exec (.wdtKeyWrite p v) s = .next t ∧ t.wdt = { s.wdt with en := false, count := 0, key := false } ∧
        only [.wdt] s t) ∧
    (∀ v, v = 0xD1B6#16 → s.wdt.key = true → (s.wdt.lock = true ∨ s.wdt.grace = true) →
      ∃ t, exec (.wdtKeyWrite p v) s = .next t ∧ t.wdt = { s.wdt with wref := true, key := false } ∧
        only [.wdt] s t) ∧
    (∀ v, v ≠ 0x6B1D#16 → (v ≠ 0xD1B6#16 ∨ s.wdt.key = false) →
      ∃ t, exec (.wdtKeyWrite p v) s = .next t ∧ t.wdt = { s.wdt with key := false } ∧ only [.wdt] s t)) ∧
  (∀ p (s : State), reaches s p = true → p ≠ .image →
    (∃ t, exec (.wdtEnable p) s = .next t ∧ t.wdt.en = true ∧
      t.wdt.count = (if s.wdt.en then s.wdt.count else 0) ∧ t.wdt.lock = s.wdt.lock ∧ only [.wdt] s t) ∧
    (∃ t, exec (.wdtLockSet p) s = .next t ∧ t.wdt.lock = true ∧ t.wdt.en = s.wdt.en ∧ only [.wdt] s t) ∧
    (∀ v, wdtOpen s.wdt = true →
      (∃ t, exec (.wdtPeriodWrite p false v) s = .next t ∧
        t.wdt = { s.wdt with period := (if v = 0#16 then 1#16 else v), pend := true } ∧ only [.wdt] s t) ∧
      (∃ t, exec (.wdtPeriodWrite p true v) s = .next t ∧
        t.wdt = { s.wdt with window := v &&& 0x000F#16, pend := true } ∧ only [.wdt] s t)) ∧
    (∀ v, wdtOpen s.wdt = false → v ≠ 0#16 → v ≠ s.wdt.period →
      ∃ t, exec (.wdtPeriodWrite p false v) s = .next t ∧ t.wdt = { s.wdt with wref := true } ∧ only [.wdt] s t)) ∧
  (∀ s : State, powerOn s = true →
    ∃ t, exec .hostRstEnd s = .next t ∧ t.wdt = { s.wdt with hostRst := false } ∧ only [.wdt] s t) ∧
  (∀ s : State, powerOn s = true →
    (wdtCounts s.wdt = true →
      ∃ t, exec .wdtTimeout s = .next t ∧ t.wdt.grace = true ∧ t.wdt.cause = 1 ∧ t.wdt.count = 0 ∧
        t.wdt.key = s.wdt.key ∧ t.wdt.save = (if saveRuns s then 1 else 3) ∧ t.wdt.timeAtExp = now s ∧
        t.wdt.lock = s.wdt.lock ∧ t.wdt.en = s.wdt.en ∧
        logsPower s t 0x70 0 1#16 (w16 s.wdt.expiries) ∧ only [.wdt, .bb] s t) ∧
    (wdtCounts s.wdt = false → exec .wdtTimeout s = .next s) ∧
    (s.wdt.grace = true → s.wdt.paused = false →
      ∃ t, exec .wdtGraceEnd s = .next t ∧ t.wdt.grace = false ∧ t.wdt.cause = 0 ∧ t.wdt.save = 0 ∧ t.wdt.count = 0 ∧
        t.wdt.wref = false ∧ t.wdt.hostRst = s.wdt.hrstEn ∧ t.wdt.expiries = (s.wdt.expiries + 1) % 65536 ∧
        t.wdt.paused = true ∧ t.wdt.lock = s.wdt.lock ∧ t.wdt.en = s.wdt.en ∧ t.wdt.key = s.wdt.key ∧
        t.pm.st = .waking ∧ t.pm.restart = 2 ∧ (pwrStuck s = true → t.pm.pwrEn = true) ∧ t.rst.cause = 0#16 ∧
        t.ports = Vector.replicate 17 Port.reset ∧ t.glob = Glob.reset ∧ t.pcie = Pcie.reset ∧
        t.bb = bbLinkReset (bbStore s.bb (mkEntry 0x71 0 (w16 s.wdt.save) (atBit s.wdt.hrstEn 0) true s.aon.time)) ∧
        only [.rst, .pm, .wdt, .bb, .pps, .mtr, .aon, .glob, .clk, .pcie, .doms, .ln, .hma, .ula, .que, .fl, .ports,
          .bus, .tt, .tb, .cen, .sur] s t) ∧
    ((s.wdt.grace = false ∨ s.wdt.paused = true) → exec .wdtGraceEnd s = .next s))

/-- The black box stores what the Link die hands it, is rearmed and cleared, and is read through its index; the last
gasp is armed by a scan, and a flush programs its pages one after the other. Flash frames by a path that may write them: a read, a program and the erases start while the flash is idle, are
refused while it works or where the last gasp is armed, and end with DONE and, for a read, its byte. A supply that fails, and a VLINK below its threshold where that is enabled, flush the black box and take the Link die down, or leave an entry that says why not; a test flush runs with
the Link die on.  The model's choices: the slots before the first entry (log entry 2), rows in other states (18), FULL and
ARMED (64), the order of the reasons for a skip (65), what a flush leaves of the power state (66), frames (67), the order
of ERR and PROT (68), an operation that a flush left (69), the move of entries to B0 (87), addresses above 16 MiB (130). -/
def Obligations.BlackBoxAndFlash : Prop :=
  (∀ s : State, linkOn s = true →
    (∀ e l, s.que.bbf = e :: l → s.que.bbfLost = 0 →
      ∃ t, exec .bbEntry s = .next t ∧ t.bb = bbStore s.bb e ∧ t.que = { s.que with bbf := l } ∧
        only [.bb, .que] s t) ∧
    (s.que.bbf = [] → exec .bbEntry s = .next s)) ∧
  (∀ p (s : State), reaches s p = true → bit s.bb.ctrl 3 = false → s.bb.ctrl &&& 0x00FB#16 = s.bb.ctrl →
    s.bb.armed = false → s.bb.scan = false →
    (∃ t, exec (.bbRearm p) s = .next t ∧ t.bb = { s.bb with trig := false, frozen := false, after := 0 } ∧
      only [.bb] s t) ∧
    (∃ t, exec (.bbClear p) s = .next t ∧
      t.bb = { s.bb with
        slots := [], head := 0, count := 0, lost := 0, trig := false, frozen := false, after := 0 } ∧
      only [.bb] s t) ∧
    (s.bb.flush = none → s.bb.full = false →
      ∃ t, exec (.bbTestFlush p) s = .next t ∧ logsPower s t 0x82 0 1#16 0#16 ∧ only [.bb] s t)) ∧
  (∀ p (s : State), reaches s p = true → bit s.bb.ctrl 3 = true → s.bb.ctrl &&& 0x00FB#16 = s.bb.ctrl →
    s.bb.armed = true → s.bb.flush = none →
    (flashWorks s = false →
      ∃ t f, exec (.bbTestFlush p) s = .next t ∧ f.cause = .test ∧ f.pins = true ∧ f.pages = 0 ∧
        t.bb = { bbStore s.bb (mkEntry 0x80 0 3#16 (bbFlashStat s.bb) true s.aon.time) with flush := some f } ∧
        .flashPage (s.bb.armHow.any armFour) (regionAt s.bb + 256 * (flushPages s.bb * s.bb.slot))
          (bytesBE ((slotWords f (flushPages s.bb)).take 128)) ∈ t.out ∧ t.pm.pwrEn = s.pm.pwrEn ∧
        only [.pm, .bb, .fl, .out] s t) ∧
    (flashWorks s = true →
      ∃ t f, exec (.bbTestFlush p) s = .next t ∧ f.cause = .test ∧ f.pins = false ∧
        t.bb = { bbStore s.bb (mkEntry 0x80 0 3#16 (bbFlashStat s.bb) true s.aon.time) with flush := some f } ∧
        (s.bb.nosusp = false → .flashCmd false ∈ t.out) ∧ only [.pm, .bb, .out] s t)) ∧
  (∀ v (s : State), reaches s .pf = true → bit v 8 = false →
    ∃ t, exec (.bbIndexWrite .pf v) s = .next t ∧
      t.bb = { s.bb with pf := { s.bb.pf with
        index := v &&& 0x01FF#16, data := tabGet Entry.zero s.bb.slots (fld v 0 8), wait := false } } ∧
      only [.bb] s t) ∧
  (∀ mg e (s : State), linkOn s = true →
    ((if mg then s.bb.mgw else s.bb.pf).wait = true →
      ∃ t, exec (.bbFlashCopyDone mg (some e)) s = .next t ∧
        (if mg then t.bb.mgw else t.bb.pf).data = e ∧ (if mg then t.bb.mgw else t.bb.pf).wait = false ∧
        t.bb.rderr = s.bb.rderr ∧ only [.bb] s t) ∧
    ((if mg then s.bb.mgw else s.bb.pf).wait = true →
      ∃ t, exec (.bbFlashCopyDone mg none) s = .next t ∧ t.bb.rderr = true ∧
        (if mg then t.bb.mgw else t.bb.pf).data = Entry.zero ∧ only [.bb] s t)) ∧
  (∀ s : State, linkOn s = true →
    (bit s.bb.ctrl 3 = true → s.bb.armed = false → s.bb.scan = false → s.glob.cfgBusy = true →
      ∃ t, exec .lgScan s = .next t ∧ t.bb = { s.bb with scanDue := true } ∧ only [.bb] s t) ∧
    (bit s.bb.ctrl 3 = true → s.bb.armed = false → s.bb.scan = false → s.glob.cfgBusy = false → scanReady s = true →
      ∃ t, exec .lgScan s = .next t ∧ t.bb = { s.bb with scan := true } ∧
        .flash 1 (regionAt s.bb) 4096 (flMode s true) ∈ t.out ∧ only [.bb, .out] s t) ∧
    (bit s.bb.ctrl 3 = true → s.bb.armed = false → s.bb.scan = false → s.glob.cfgBusy = false → scanReady s = false →
      ∃ t, exec .lgScan s = .next t ∧ t.bb = { s.bb with full := true } ∧ only [.bb] s t) ∧
    ((bit s.bb.ctrl 3 = false ∨ s.bb.armed = true ∨ s.bb.scan = true) → exec .lgScan s = .next s) ∧
    (∀ k, s.bb.scan = true → k < flushSlots s.bb →
      ∃ t, exec (.lgScanDone (some k)) s = .next t ∧
        t.bb = { s.bb with scan := false, armed := bit s.bb.ctrl 3, slot := k, full := false, armHow := s.fl.sfdp } ∧
        only [.bb] s t) ∧
    (s.bb.scan = true →
      ∃ t, exec (.lgScanDone none) s = .next t ∧ t.bb = { s.bb with scan := false, full := true } ∧
        only [.bb] s t) ∧
    (∀ x, s.bb.scan = false → exec (.lgScanDone x) s = .next s) ∧
    (∀ f, flashWorks s = true → s.bb.nosusp = false → s.bb.flush = some f → f.pins = false → f.cause = .test →
      ∃ t, exec .flashSuspended s = .next t ∧ t.bb = { s.bb with flush := some { f with pins := true } } ∧
        t.fl = { s.fl with susp := true } ∧
        .flashPage (s.bb.armHow.any armFour) (regionAt s.bb + 256 * (flushPages s.bb * s.bb.slot))
          (bytesBE ((slotWords f (flushPages s.bb)).take 128)) ∈ t.out ∧
        only [.bb, .fl, .out] s t) ∧
    (∀ f, flashWorks s = true → s.bb.nosusp = false → s.bb.flush = some f → f.pins = false → f.cause ≠ .test →
      ∃ t, exec .flashSuspended s = .next t ∧ t.bb.flush = some { f with pins := true } ∧ t.pm.pwrEn = false ∧
        t.pm.st = .waking ∧ t.fl.left = s.fl.op ∧ (s.wdt.save = 1 → t.wdt.save = 3) ∧
        only [.pm, .wdt, .bb, .pps, .mtr, .aon, .glob, .clk, .pcie, .doms, .ln, .hma, .ula, .que, .fl, .ports, .bus,
          .tt, .tb, .cen, .sur, .out] s t) ∧
    (s.bb.flush = none → exec .flashSuspended s = .next s)) ∧
  (∀ s : State, powerOn s = true →
    (∀ f, s.bb.flush = some f → f.pins = true → f.pages + 1 < flushPages s.bb →
      ∃ t, exec .pageProgramDone s = .next t ∧ t.bb = { s.bb with flush := some { f with pages := f.pages + 1 } } ∧
        only [.bb, .out] s t) ∧
    (∀ f, s.bb.flush = some f → f.pins = true → flushPages s.bb ≤ f.pages + 1 → s.rst.due = false →
      ∃ t, exec .pageProgramDone s = .next t ∧ t.bb.flush = none ∧ t.bb.slot = s.bb.slot + 1 ∧
        t.bb.last = s.bb.slot ∧ t.bb.done = true ∧
        t.bb.armed = (s.bb.armed && decide (s.bb.slot + 1 < flushSlots s.bb)) ∧
        t.fl = { s.fl with susp := false } ∧ (s.fl.susp = true → .flashCmd true ∈ t.out) ∧
        only [.bb, .fl, .out] s t) ∧
    (s.bb.flush = none → exec .pageProgramDone s = .next s) ∧
    (s.bb.flushed = true → s.bb.flush = none →
      ∃ t, exec .supplyRestored s = .next t ∧ t.bb.flushed = false ∧ t.pm.st = .waking ∧ t.pm.restart = 1 ∧
        t.pm.lossWait = true ∧ t.pm.pwrEn = false ∧ t.pm.wakeCause = (s.pm.wakeCause ||| 0x8000#16) ∧
        (linkHeld s = false → only [.pm, .bb] s t) ∧
        (linkHeld s = true → t.ports = Vector.replicate 17 Port.reset ∧ t.bus = Bus.reset ∧ t.pm.b1 = none ∧
          only [.pm, .wdt, .bb, .pps, .mtr, .aon, .glob, .clk, .pcie, .doms, .ln, .hma, .ula, .que, .fl, .ports,
            .bus, .tt, .tb, .cen, .sur] s t)) ∧
    (s.bb.flushed = false → exec .supplyRestored s = .next s)) ∧
  (∀ p (s : State), linkOn s = true → ((p = .pf ∧ winOpen s 0 = true) ∨ (p = .mg ∧ s.glob.mgWr = false)) →
    (flBusy s = false → s.fl.frame = none →
      (∀ addr : BitVec 32, ∃ t, exec (.flRead p addr) s = .next t ∧
        t.fl = { s.fl with op := some .read, addr := flAddr s addr.toNat } ∧
        .flash 1 (flAddr s addr.toNat) 1 (flMode s true) ∈ t.out ∧ only [.fl, .out] s t) ∧
      (∃ t, exec (.flNext p) s = .next t ∧
        t.fl = { s.fl with op := some .next, addr := flAddr s ((s.fl.addr + 1) % 2 ^ 32) } ∧ only [.fl, .out] s t) ∧
      (∀ (addr : BitVec 32) (n : BitVec 12) ws, n.toNat ≠ 0 → (flAddr s addr.toNat) % 256 + n.toNat ≤ 256 →
        ws.length = (n.toNat + 1) / 2 → s.bb.armed = false →
        ∃ t, exec (.flProgram p addr n ws) s = .next t ∧
          t.fl = { s.fl with op := some .program } ∧
          .flashPage (flFour s) (flAddr s addr.toNat) ((bytesBE ws).take n.toNat) ∈ t.out ∧
          only [.glob, .fl, .out] s t) ∧
      (∀ (addr : BitVec 32) (n : BitVec 12) ws, n.toNat ≠ 0 → n.toNat ≤ 256 → 256 < (flAddr s addr.toNat) % 256 + n.toNat →
        ws.length = (n.toNat + 1) / 2 →
        ∃ t, exec (.flProgram p addr n ws) s = .next t ∧ t.fl = { s.fl with err := true } ∧ only [.fl] s t) ∧
      (∀ (addr : BitVec 32) x, s.fl.sfdp = some x → s.bb.armed = false →
        (x.erase4k = true →
          ∃ t, exec (.flErase4k p addr) s = .next t ∧
            t.fl = { s.fl with op := some .erase } ∧
            .flash 4 (flAddr s addr.toNat / 4096 * 4096) 4096 (flMode s false) ∈ t.out ∧
            only [.glob, .fl, .out] s t) ∧
        (x.erase64 = true →
          ∃ t, exec (.flErase64k p addr) s = .next t ∧
            t.fl = { s.fl with op := some .erase } ∧
            .flash 5 (flAddr s addr.toNat / 65536 * 65536) 65536 (flMode s false) ∈ t.out ∧
            only [.glob, .fl, .out] s t) ∧
        (x.erase4k = false →
          ∃ t, exec (.flErase4k p addr) s = .next t ∧ t.fl = { s.fl with err := true } ∧ only [.fl] s t)) ∧
      (∀ addr : BitVec 32, s.bb.armed = true → s.bb.nosusp = true → (∀ x, s.fl.sfdp = some x → x.erase4k = true) →
        ∃ t, exec (.flErase4k p addr) s = .next t ∧ t.fl = { s.fl with prot := true } ∧
          logsLink s t 0x86 0 4#16 0#16 ∧ only [.fl, .que, .bb] s t) ∧
      exec (.flAbort p) s = .next s) ∧
    (flBusy s = true → s.fl.frame = none →
      ∃ t, exec (.flNext p) s = .next t ∧ t.fl = { s.fl with err := true } ∧ only [.fl] s t) ∧
    (∀ ws, flBusy s = false → s.fl.frame = some (p, ws) →
      ∃ t, exec (.flAbort p) s = .next t ∧ t.fl = { s.fl with frame := none } ∧ only [.fl] s t)) ∧
  (∀ s : State, powerOn s = true → s.pm.st = .feather → s.glob.mgWr = true → s.pm.mgHeld ≠ none →
    ∃ t, exec (.flNext .mg) s = .next t ∧ t.glob = { s.glob with ref := true } ∧ only [.glob] s t) ∧
  (∀ byte fail (s : State), linkOn s = true →
    (∀ o, s.fl.op = some o → s.fl.susp = false → s.fl.left = none → s.bb.flush = none →
      ∃ t, exec (.flOpDone byte fail) s = .next t ∧
        t.fl = { s.fl with
          op := none, done := true, err := s.fl.err || fail
          data := if o = .read ∨ o = .next then byte.toNat else s.fl.data } ∧ only [.fl] s t) ∧
    (∀ o, s.fl.op = some o → s.fl.susp = false → s.fl.left ≠ none → s.bb.flush = none →
      ∃ t, exec (.flOpDone byte fail) s = .next t ∧ t.fl = { s.fl with op := none, left := none } ∧
        logsLink s t 0x84 0 (if o = .erase then 1#16 else 2#16) 1#16 ∧ only [.fl, .que, .bb] s t) ∧
    (∀ o f, s.fl.op = some o → s.fl.susp = false → s.fl.left = none → s.bb.flush = some f → f.pins = false →
      f.cause = .test →
      ∃ t, exec (.flOpDone byte fail) s = .next t ∧ t.bb.flush = some { f with pins := true } ∧ t.fl.op = none ∧
        t.fl.done = true ∧ t.fl.susp = false ∧ only [.bb, .fl, .out] s t) ∧
    (s.fl.op = none → exec (.flOpDone byte fail) s = .next s)) ∧
  (∀ s : State, powerOn s = true →
    (s.bb.flush ≠ none → exec .supplyFail s = .next s) ∧
    (s.bb.flush = none → flushBar s ≠ 0 →
      ∃ t, exec .supplyFail s = .next t ∧ logsPower s t 0x82 0 (w16 (flushBar s)) 0#16 ∧ only [.bb] s t) ∧
    (s.bb.flush = none → flushBar s = 0 → flashWorks s = true →
      ∃ t f, exec .supplyFail s = .next t ∧ t.bb.flush = some f ∧ f.cause = .vsys ∧ f.pins = false ∧
        (s.bb.nosusp = false → .flashCmd false ∈ t.out) ∧ only [.pm, .bb, .out] s t) ∧
    (s.bb.flush = none → flushBar s = 0 → flashWorks s = false →
      ∃ t f, exec .supplyFail s = .next t ∧ t.bb.flush = some f ∧ f.cause = .vsys ∧ f.pins = true ∧
        t.pm.pwrEn = false ∧
        only [.pm, .wdt, .bb, .pps, .mtr, .aon, .glob, .clk, .pcie, .doms, .ln, .hma, .ula, .que, .fl, .ports, .bus,
          .tt, .tb, .cen, .sur, .out] s t) ∧
    ((bit s.bb.ctrl 4 = false ∨ s.ppsg.vlow = true) →
      ∃ t, exec .vlinkLow s = .next t ∧ t.ppsg = { s.ppsg with vlow := true } ∧ only [.ppsg] s t) ∧
    (bit s.bb.ctrl 4 = true → s.ppsg.vlow = false → s.bb.flush = none → flushBar s = 0 →
      ∃ t f, exec .vlinkLow s = .next t ∧ t.ppsg = { s.ppsg with vlow := true } ∧ t.bb.flush = some f ∧
        f.cause = .vlink ∧
        only [.pm, .wdt, .bb, .pps, .ppsg, .mtr, .aon, .glob, .clk, .pcie, .doms, .ln, .hma, .ula, .que, .fl, .ports, .bus,
          .tt, .tb, .cen, .sur, .out] s t))

/-! ## The host interface (chapter 9) -/

/-- Configuration requests draw Retry Status until the space is ready and Unsupported Request from a function that
does not exist; otherwise they complete with their effect.  Reads complete with what the registers and the
configuration space hold; a read of TB_TIME0 latches the time.  The model's choices: which
domains a request may name (log entry 16), Retry Status until the space is ready (25), messages that a mask, D3hot or
MSI-X Enable kept back (28), the layout inside the structures (14 and 124), a read's value in State.out (96), and the one
row that carries every read (125). -/
def Obligations.HostConfigurationAndReads : Prop :=
  (∀ s : State, linkOn s = true → epUp s = true → cfgOpen s = false →
    (∀ d f v, exec (.pcieConfigWrite d f v) s = .next (emit s (.retryStatus d))) ∧
    (∀ d, exec (.d3hotEntry d) s = .next (emit s (.retryStatus d)) ∧
      exec (.d0Return d) s = .next (emit s (.retryStatus d))) ∧
    (∀ n, exec (.numvfsWrite n) s = .next (emit s (.retryStatus 0))) ∧
    exec .vfEnable s = .next (emit s (.retryStatus 0)) ∧ exec .vfDisable s = .next (emit s (.retryStatus 0)) ∧
    exec .flrPf s = .next (emit s (.retryStatus 0)) ∧
    (∀ d off, exec (.tbTime0Read (.config d off)) s = .next (emit s (.retryStatus d)))) ∧
  (∀ d f v (s : State), linkOn s = true → cfgOpen s = true → domExists s d = false →
    exec (.pcieConfigWrite d f v) s = .next (emit s (.badCompletion d true)) ∧
    exec (.d3hotEntry d) s = .next (emit s (.badCompletion d true)) ∧
    ∀ off, exec (.tbTime0Read (.config d off)) s = .next (emit s (.badCompletion d true))) ∧
  (∀ s : State, cfgReaches s 0 →
    (∃ t, exec .vfEnable s = .next t ∧ t.pcie = { s.pcie with vfe := true } ∧ .completion 0 [] ∈ t.out ∧
      only [.pcie, .out] s t) ∧
    (s.pcie.vfe = true →
      ∃ t, exec .vfDisable s = .next t ∧ t.pcie.vfe = false ∧ t.pcie.numVfs = s.pcie.numVfs ∧
        (∀ d : DomN, d ≠ 0 → domExists s d = true → s.doms[d].st ≠ .off → t.doms[d].st = .teardown) ∧
        t.bus = { s.bus with inbox := t.bus.inbox } ∧
        only [.wdt, .mtr, .aon, .pcie, .doms, .ln, .hma, .ula, .que, .bus, .out] s t) ∧
    (∀ n, s.pcie.vfe = false →
      ∃ t, exec (.numvfsWrite n) s = .next t ∧ t.pcie = { s.pcie with numVfs := min 7 n } ∧
        only [.pcie, .out] s t) ∧
    (∀ n, s.pcie.vfe = true →
      ∃ t, exec (.numvfsWrite n) s = .next t ∧ .completion 0 [] ∈ t.out ∧ only [.out] s t) ∧
    (∀ v : BitVec 64,
      (∃ t, exec (.pcieConfigWrite 0 .bar0 v) s = .next t ∧
        t.pcie = { s.pcie with bar0 := v.toNat / 65536 * 65536 } ∧ only [.pcie, .out] s t) ∧
      (∃ t, exec (.pcieConfigWrite 0 .cto v) s = .next t ∧ t.pcie = { s.pcie with cto := max 1 (min 1000 v.toNat) } ∧
        only [.pcie, .out] s t))) ∧
  (∀ (d : DomN) (v : BitVec 64) (s : State), cfgReaches s d →
    (∃ t, exec (.pcieConfigWrite d .msixEnable v) s = .next t ∧
      t.pcie.fns[d] = { s.pcie.fns[d] with msixEn := v.getLsbD 0 } ∧ domsBut d s t ∧
      (∀ k : Fin 32, v.getLsbD 0 = true → vecMasked s d k.val = false → t.doms[d].pba.getLsbD k.val = false) ∧
      only [.pcie, .doms, .out] s t) ∧
    (∃ t, exec (.pcieConfigWrite d .pmeEnable v) s = .next t ∧ t.aon.pmeEn[d] = v.getLsbD 0 ∧
      only [.aon, .out] s t) ∧
    (∃ t, exec (.pcieConfigWrite d .aerUncStatus v) s = .next t ∧
      t.pcie.fns[d] = { s.pcie.fns[d] with aerUnc := s.pcie.fns[d].aerUnc &&& ~~~(v.setWidth 32) } ∧
      only [.pcie, .out] s t) ∧
    (∀ off, ∃ t, exec (.tbTime0Read (.config d off)) s = .next t ∧ .completion d [cfgRead s d off] ∈ t.out ∧
      only [.out] s t)) ∧
  (∀ s : State, cfgRead s 0 0x00 = 0x09171D9A#32 ∧ cfgRead s 0 0x08 = 0x0C8000A1#32 ∧
    cfgRead s 0 0x2C = 0x09171D9A#32) ∧
  (∀ (off : Word) r (s : State), linkOn s = true → winOpen s 0 = true → regAt .pf off.toNat = some r →
    r ≠ .tbTime 0 → off.toNat < 0x6000 →
    ∃ t, exec (.tbTime0Read (.bar0 0 off 1)) s = .next t ∧
      .completion 0 [(readReg s .pf r).setWidth 32] ∈ t.out ∧ only [.out] s t) ∧
  (∀ s : State, linkOn s = true → winOpen s 0 = true →
    ∃ t, exec (.tbTime0Read (.reg .pf)) s = .next t ∧ .completion 0 [(wordOf (now s) 0).setWidth 32] ∈ t.out ∧
      t.tb.latch[latchOf .pf] = { hi := now s / 65536, stroke := s.tb.stroke.toNat } ∧
      t.tb.time = s.tb.time ∧ only [.tb, .out] s t) ∧
  (∀ s : State, linkOn s = true →
    ∃ t, exec (.tbTime0Read (.reg .hub)) s = .next t ∧ .readData .hub (wordOf (now s) 0) ∈ t.out ∧
      t.tb.latch[latchOf .hub] = { hi := now s / 65536, stroke := s.tb.stroke.toNat } ∧ only [.tb, .out] s t)

/-- Resets of the endpoint tear its domains down and leave what each of them keeps; D3hot, L1 and the link's return
are followed; a request that the endpoint does not serve is logged, reported where its reporting is enabled, and answered
with Unsupported Request where its window is closed; a function in D3hot answers nothing.  The
model's choices: rows in states where their rule does not apply (log entry 18); AER and what a function keeps (11, 14, 15);
domains that are OFF (26); PE_WAKE_N (27); messages kept back (28); kinds of a refused request (121); the width and rate
at PCIE_L0_REACHED are free (133). -/
def Obligations.HostResetsAndLink : Prop :=
  (∀ s : State,
    ((s.rst.por = true ∨ epStrap s = false) →
      ∃ t, exec .perstAssert s = .next t ∧ t.rst = { s.rst with perst := true } ∧ only [.rst] s t) ∧
    (s.rst.por = false → epStrap s = true → epUp s = false → exec .perstAssert s = .next s) ∧
    (epUp s = true → linkHeld s = true →
      ∃ t, exec .perstAssert s = .next t ∧
        t.rst = { s.rst with perst := true, cause := s.rst.cause ||| 0x0008#16 } ∧ t.pcie = Pcie.reset ∧
        t.hma.reqs = Vector.replicate 20 [] ∧ t.que.watches = [] ∧
        (∀ d : DomN, s.doms[d].st ≠ .off → t.doms[d].st = .teardown) ∧ logsLink s t 0x52 0 1#16 0#16 ∧
        t.bus = { s.bus with inbox := t.bus.inbox } ∧
        only [.rst, .wdt, .bb, .mtr, .aon, .pcie, .doms, .ln, .hma, .ula, .que, .bus, .out] s t) ∧
    (s.rst.por = false → epUp s = true → linkHeld s = false →
      ∃ t, exec .perstAssert s = .next t ∧
        t.rst = { s.rst with perst := true, cause := s.rst.cause ||| 0x0008#16 } ∧ t.pcie = Pcie.reset ∧
        only [.rst, .aon, .pcie] s t)) ∧
  (∀ b (s : State), linkOn s = true →
    (epUp s = true →
      ∃ t, exec (.hotReset b) s = .next t ∧
        (∀ d : DomN, t.pcie.fns[d].aerUnc = s.pcie.fns[d].aerUnc ∧ t.pcie.fns[d].bme = false ∧
          t.pcie.fns[d].msixEn = false ∧ (s.doms[d].st ≠ .off → t.doms[d].st = .teardown)) ∧
        t.pcie.bar0 = 0 ∧ t.pcie.vfe = false ∧ t.hma.reqs = Vector.replicate 20 [] ∧
        logsLink s t 0x52 0 (if b then 3#16 else 2#16) 0#16 ∧ t.bus = { s.bus with inbox := t.bus.inbox } ∧
        only [.wdt, .bb, .mtr, .aon, .pcie, .doms, .ln, .hma, .ula, .que, .bus, .out] s t) ∧
    (epUp s = false → exec (.hotReset b) s = .next s)) ∧
  (∀ s : State, cfgReaches s 0 →
    ∃ t, exec .flrPf s = .next t ∧ t.pcie.fns[(0 : DomN)].bme = false ∧
      t.pcie.fns[(0 : DomN)].mps = s.pcie.fns[(0 : DomN)].mps ∧
      t.pcie.fns[(0 : DomN)].aerUnc = s.pcie.fns[(0 : DomN)].aerUnc ∧ t.pcie.vfe = false ∧ t.pcie.numVfs = 0 ∧
      t.pcie.bar0 = 0 ∧ (s.doms[(0 : DomN)].st ≠ .off → t.doms[(0 : DomN)].st = .teardown) ∧
      t.bus = { s.bus with inbox := t.bus.inbox } ∧
      only [.wdt, .bb, .mtr, .aon, .pcie, .doms, .ln, .hma, .ula, .que, .bus, .out] s t) ∧
  (∀ v (s : State), cfgReaches s (vfDom v) →
    ∃ t, exec (.flrVf v) s = .next t ∧ t.pcie.fns[vfDom v].bme = false ∧
      t.pcie.fns[vfDom v].aerUnc = s.pcie.fns[vfDom v].aerUnc ∧
      (s.doms[vfDom v].st ≠ .off → t.doms[vfDom v].st = .teardown) ∧
      (∀ d : DomN, d ≠ vfDom v → t.pcie.fns[d] = s.pcie.fns[d]) ∧
      t.bus = { s.bus with inbox := t.bus.inbox } ∧
      only [.wdt, .bb, .mtr, .aon, .pcie, .doms, .ln, .hma, .ula, .que, .bus, .out] s t) ∧
  (∀ s : State, linkOn s = true →
    (epUp s = true → s.glob.cfgBusy = false →
      ∃ t, exec .pcieConfigReady s = .next t ∧ t.pcie = { s.pcie with ready := true } ∧ only [.pcie] s t) ∧
    ((epUp s = false ∨ s.glob.cfgBusy = true) → exec .pcieConfigReady s = .next s) ∧
    (epUp s = true → s.pcie.aspmL1 = true → s.pcie.link = .l0 → s.pcie.reads = [] → hostWork s = false →
      ∃ t, exec .l1Entry s = .next t ∧ t.pcie = { s.pcie with link := .l1, clkReqHi := s.pcie.clkPm } ∧
        only [.pcie] s t) ∧
    (hostWork s = true → exec .l1Entry s = .next s) ∧
    (s.pcie.link = .l1 →
      ∃ t, exec .l1Exit s = .next t ∧ t.pcie = { s.pcie with link := .l0, clkReqHi := false } ∧
        (∀ d : DomN, s.aon.pmeDue[d] = true → .pme d ∈ t.out) ∧ only [.aon, .pcie, .out] s t) ∧
    (s.pcie.link ≠ .l1 → exec .l1Exit s = .next s) ∧
    (epUp s = true →
      ∃ t, exec .pcieL0Reached s = .next t ∧
        t.pcie = { s.pcie with link := .l0, clkReqHi := false, x1 := t.pcie.x1, gen1 := t.pcie.gen1 } ∧ t.aon.peWake = false ∧
        only [.aon, .pcie, .out] s t) ∧
    (epUp s = true →
      ∃ t, exec .unexpectedCompletion s = .next t ∧
        t.pcie.fns[(0 : DomN)].aerUnc = (s.pcie.fns[(0 : DomN)].aerUnc ||| (1#32 <<< 16)) ∧
        (s.pcie.fns[(0 : DomN)].aerUncMask.getLsbD 16 = true → t.out = s.out) ∧ only [.pcie, .out] s t)) ∧
  (∀ (d : DomN) (s : State), cfgReaches s d →
    (∃ t, exec (.d3hotEntry d) s = .next t ∧ t.pcie.fns[d] = { s.pcie.fns[d] with d3 := true } ∧
      only [.pcie, .out] s t) ∧
    (∃ t, exec (.d0Return d) s = .next t ∧ t.pcie.fns[d] = { s.pcie.fns[d] with d3 := false } ∧
      only [.pcie, .doms, .out] s t)) ∧
  (∀ (d : DomN) (s : State), linkOn s = true → epUp s = true → domExists s d = true →
    (∀ k b : Nat, ∀ kind, (k, b, kind) ∈
        [(0, 20, BadRequest.unsupported), (1, 15, .tooLong), (2, 12, .poisonedWrite)] →
      (kind ≠ .unsupported → winOpen s d = true) → s.pcie.fns[d].d3 = false →
      ∃ t, exec (.memRequestRefused d kind) s = .next t ∧ (k ≠ 2 → .badCompletion d (decide (k = 0)) ∈ t.out) ∧
        t.pcie.fns[d].aerUnc = (s.pcie.fns[d].aerUnc ||| (1#32 <<< b)) ∧
        (s.pcie.fns[d].aerUncMask.getLsbD b = false → s.pcie.fns[d].aerUncSev.getLsbD b = true →
          s.pcie.fns[(0 : DomN)].serr = true → .errMsg d .fatal ∈ t.out) ∧
        only [.pcie, .out] s t) ∧
    (winOpen s d = true → exec (.memRequestRefused d .bar2Write) s = .next s) ∧
    (winOpen s d = false → s.pcie.fns[d].d3 = false →
      (∃ t, exec (.memRequestRefused d .tooLong) s = .next t ∧ .badCompletion d true ∈ t.out ∧
        t.pcie.fns[d].aerUnc = (s.pcie.fns[d].aerUnc ||| (1#32 <<< 20)) ∧ only [.pcie, .out] s t) ∧
      (∀ kind, kind = .poisonedWrite ∨ kind = .bar2Write →
        ∃ t, exec (.memRequestRefused d kind) s = .next t ∧
          t.pcie.fns[d].aerUnc = (s.pcie.fns[d].aerUnc ||| (1#32 <<< 20)) ∧ only [.pcie, .out] s t)) ∧
    (s.pcie.fns[d].d3 = true → ∀ kind, (∀ e, kind ≠ .link e) → exec (.memRequestRefused d kind) s = .next s) ∧
    (∃ t, exec (.memRequestRefused d (.link .badTlp)) s = .next t ∧
      t.pcie.fns[(0 : DomN)].aerCor = (s.pcie.fns[(0 : DomN)].aerCor ||| (1#32 <<< 6)) ∧
      (s.pcie.fns[(0 : DomN)].aerCorMask.getLsbD 6 = false → s.pcie.fns[(0 : DomN)].errEn.getLsbD 0 = true →
        .errMsg 0 .cor ∈ t.out) ∧ only [.pcie, .out] s t)) ∧
  (∀ (d : DomN) (v : Fin 32) (s : State), linkOn s = true →
    (s.doms[d].gapRun.getLsbD v.val = false → exec (.gapTimerEnd d v) s = .next s) ∧
    (s.doms[d].gapRun.getLsbD v.val = true → s.doms[d].held.getLsbD v.val = false →
      ∃ t, exec (.gapTimerEnd d v) s = .next t ∧
        t.doms[d] = { s.doms[d] with gapRun := putVec s.doms[d].gapRun v.val false } ∧ domsBut d s t ∧
        only [.doms] s t) ∧
    (s.doms[d].gapRun.getLsbD v.val = true → s.doms[d].held.getLsbD v.val = true → fnLive s d = true →
      s.pcie.fns[d].msixEn = true → vecMasked s d v.val = false →
      ∃ t, exec (.gapTimerEnd d v) s = .next t ∧ t.doms[d].msgs = s.doms[d].msgs ++ [v.val] ∧
        t.doms[d].held = putVec s.doms[d].held v.val false ∧ domsBut d s t ∧ only [.doms] s t) ∧
    (winOpen s d = true → v.val < vecCount d → s.doms[d].pba.getLsbD v.val = false →
      ∃ t, exec (.msixUnmask d (.vector v)) s = .next t ∧ t.doms[d].msix[v].mask = false ∧
        t.doms[d].msgs = s.doms[d].msgs ∧ domsBut d s t ∧ only [.doms] s t) ∧
    (winOpen s d = true → v.val < vecCount d → s.doms[d].pba.getLsbD v.val = true → s.pcie.fns[d].msixEn = true →
      s.pcie.fns[d].fnMask = false → s.doms[d].gapRun.getLsbD v.val = false → fnLive s d = true →
      ∃ t, exec (.msixUnmask d (.vector v)) s = .next t ∧ t.doms[d].msix[v].mask = false ∧
        t.doms[d].msgs = s.doms[d].msgs ++ [v.val] ∧ t.doms[d].pba.getLsbD v.val = false ∧ domsBut d s t ∧
        only [.doms] s t) ∧
    (cfgReaches s d →
      ∃ t, exec (.msixUnmask d .function) s = .next t ∧
        t.pcie.fns[d] = { s.pcie.fns[d] with fnMask := false } ∧ domsBut d s t ∧ only [.pcie, .doms, .out] s t) ∧
    (epUp s = true → domExists s d = true → s.pcie.fns[d].d3 = false → winOpen s d = false →
      ∃ t, exec (.msixUnmask d (.vector v)) s = .next t ∧
        t.pcie.fns[d].aerUnc = (s.pcie.fns[d].aerUnc ||| (1#32 <<< 20)) ∧ t.doms = s.doms ∧
        only [.pcie, .out] s t) ∧
    ((domExists s d = false ∨ s.pcie.fns[d].d3 = true) → exec (.msixUnmask d (.vector v)) s = .next s))

/-! ## Arbiters, queues, doorbells and commands (chapters 10 to 13) -/

/-- UP's packet is interrupted by PRE and resumed with RSM; a holder without progress is cut off until its CUT bit is
cleared; requester 19 writes the emergency save; a queue reset is reported; the event FIFO is read and flushed. A decision goes to the owner of the slot entry if it is eligible, else to the highest level and, among equals, the oldest grant; it advances the slot pointer and makes the winner the youngest; in the
ULA the winner's packet starts on UP, and its place may serve a request of the local node that waits for one.  The model's choices: rows in states where their rule does not apply (log entries 17
and 18); the words of a packet cut short (10); one grant is one request, and the last write of a move holds the path (30,
31); what a reset of an IN or a transmit queue loses (36, 126); the copies that an injected mismatch shows (37);
completion buffer space (122); EV_WDT_PRE over an entry written in part (123). -/
def Obligations.ArbitersAndQueues : Prop :=
  (∀ sent (s : State), linkOn s = true →
    (preemptible s sent = false → exec (.ulaPreempt sent) s = .next s) ∧
    (∀ x r, preemptible s sent = true → s.ports[(0 : PortN)].txCur = some x → s.ula.arb.holder = some r →
      (winner s.ula.arb 28 (fun y => (ulaCand s (some (nlvl s r)) y).isSome)
        (ulaLvl s (some (nlvl s r)))).isSome = true →
      ∃ t, exec (.ulaPreempt sent) s = .next t ∧ t.ula.susp = some (x, sent) ∧
        t.ula.preCnt = (s.ula.preCnt + 1) % 256 ∧ .pre 0 ∈ t.out ∧ t.ula.arb.aside = some r ∧
        t.bus = { s.bus with inbox := t.bus.inbox } ∧
        only [.bb, .aon, .doms, .ln, .ula, .que, .ports, .bus, .sur, .out] s t)) ∧
  (∀ s : State, linkOn s = true →
    (∀ x w, atBoundary s 0 = true → s.ula.susp = some (x, w) → x.fail = none → mustResume s = true →
      ∃ t, exec .ulaResume s = .next t ∧ t.ports[(0 : PortN)].txCur = some x ∧ t.ula.susp = none ∧
        t.ula.arb.holder = s.ula.arb.aside ∧ t.ula.arb.aside = none ∧ .rsm 0 w ∈ t.out ∧ portsBut 0 s t ∧
        only [.ula, .ports, .out] s t) ∧
    (∀ x w r, atBoundary s 0 = true → s.ula.susp = some (x, w) → x.fail = some r →
      ∃ t, exec .ulaResume s = .next t ∧ t.ula.susp = none ∧
        .eab 0 x.pkt (if x.done then x.len else w) r ∈ t.out ∧ .rsm 0 w ∈ t.out ∧
        only [.ula, .ports, .out] s t) ∧
    ((atBoundary s 0 = false ∨ s.ula.susp = none) → exec .ulaResume s = .next s) ∧
    (s.wdt.save = 1 → fnLive s 0 = true → s.hma.arb.holder = none →
      ∃ t, exec .emergencyGrant s = .next t ∧ t.wdt = { s.wdt with save := 2 } ∧
        t.doms[(0 : DomN)].producer = s.doms[(0 : DomN)].producer + 1#16 ∧ t.hma.arb = s.hma.arb ∧
        domsBut 0 s t ∧ only [.wdt, .aon, .pcie, .doms, .hma, .que, .out] s t) ∧
    (∀ r d a bs, s.wdt.save = 1 → fnLive s 0 = true → s.hma.arb.holder = some r → s.hma.cur = none →
      s.hma.left = some (d, a, bs) →
      ∃ t, exec .emergencyGrant s = .next t ∧ t.wdt = { s.wdt with save := 2 } ∧
        t.doms[(0 : DomN)].producer = s.doms[(0 : DomN)].producer + 1#16 ∧ .hostWrite d a bs ∈ t.out ∧
        t.hma.left = none ∧ only [.wdt, .aon, .pcie, .doms, .ln, .hma, .que, .out] s t) ∧
    ((s.wdt.save ≠ 1 ∨ fnLive s 0 = false) → exec .emergencyGrant s = .next s) ∧
    (∀ r q, s.hma.arb.holder = some r → s.hma.cur = some q → bit s.hma.arb.ctrl 0 = true → (r < 8 ∨ r = 16) →
      s.wdt.save ≠ 1 →
      ∃ t, exec (.holdCutoff .hma) s = .next t ∧ t.hma.arb.cuts.getLsbD r = true ∧ t.hma.arb.holder ≠ some r ∧
        only [.bb, .aon, .pcie, .doms, .ln, .hma, .que, .out] s t) ∧
    (∀ r x, s.ula.arb.holder = some r → bit s.ula.arb.ctrl 0 = true → r < 16 → s.ports[(0 : PortN)].txCur = some x →
      x.done = false →
      ∃ t, exec (.holdCutoff .ula) s = .next t ∧ t.ula.arb.cuts.getLsbD r = true ∧
        (∃ w, .eab 0 x.pkt w 3 ∈ t.out) ∧ t.bus = { s.bus with inbox := t.bus.inbox } ∧
        only [.bb, .aon, .doms, .ln, .ula, .que, .ports, .bus, .sur, .out] s t) ∧
    (bit s.hma.arb.ctrl 0 = false → exec (.holdCutoff .hma) s = .next s) ∧
    (bit s.ula.arb.ctrl 0 = false → exec (.holdCutoff .ula) s = .next s)) ∧
  (∀ p (half : Fin 2) (v : Word) (s : State), reaches s p = true → (p = .pf ∨ p = .mg) →
    (∃ t, exec (.cutClear p .hma half v) s = .next t ∧
      t.hma = { s.hma with arb := { s.hma.arb with
        cuts := s.hma.arb.cuts &&& ~~~(BitVec.ofNat 32 (v.toNat * 65536 ^ half.val)) } } ∧ only [.hma] s t) ∧
    (∃ t, exec (.cutClear p .ula half v) s = .next t ∧
      t.ula = { s.ula with arb := { s.ula.arb with
        cuts := s.ula.arb.cuts &&& ~~~(BitVec.ofNat 32 (v.toNat * 65536 ^ half.val)) } } ∧ only [.ula] s t)) ∧
  (∀ p half v arb (s : State), reaches s p = true → p ≠ .pf → p ≠ .mg →
    exec (.cutClear p arb half v) s = .next s) ∧
  (∀ q wr rd (s : State), powerOn s = true →
    (queueIds.contains q = false → exec (.queuePointerMismatch q wr rd) s = .next s) ∧
    (queueIds.contains q = true → linkOn s = true →
      ∃ t, exec (.queuePointerMismatch q wr rd) s = .next t ∧ t.que.last = queueLast q wr rd false ∧
        t.que.errCnt = satInc 65535 s.que.errCnt ∧
        only [.bb, .pps, .aon, .pcie, .doms, .ln, .hma, .ula, .que, .ports, .tt, .tb, .sur, .out] s t) ∧
    (q = 0x73 → linkOn s = false →
      ∃ t, exec (.queuePointerMismatch q wr rd) s = .next t ∧ t.aon.xq = [] ∧
        t.aon.xqErr = s.aon.xqErr ++ [queueLast 0x73 wr rd false] ∧ only [.aon] s t)) ∧
  (∀ wr rd (s : State), linkOn s = true →
    ∃ t, exec (.queuePointerMismatch 0x40 wr rd) s = .next t ∧ (∀ j : Fin 48, t.tt.slots[j] = none) ∧
      only [.bb, .pps, .aon, .pcie, .doms, .ln, .hma, .ula, .que, .ports, .tt, .tb, .sur, .out] s t) ∧
  (∀ p (q : BitVec 8) (s : State), reaches s p = true →
    (queueIds.contains q.toNat = true →
      ∃ t, exec (.queueInject p q) s = .next t ∧ t.que.errCnt = satInc 65535 s.que.errCnt ∧
        fld t.que.last 0 8 = q.toNat ∧ bit t.que.last 10 = true ∧
        only [.bb, .pps, .aon, .pcie, .doms, .ln, .hma, .ula, .que, .ports, .tt, .tb, .sur, .out] s t) ∧
    (s.que.injQ < 256 →
      ∃ t, exec (.qCntClr p) s = .next t ∧ t.que = { s.que with errCnt := 0 } ∧ only [.que] s t) ∧
    (s.que.evfCtrl &&& 0x1FFF#16 = s.que.evfCtrl →
      ∃ t, exec (.evfFlush p) s = .next t ∧ t.que = { s.que with evf := [], evfLost := 0 } ∧ only [.que] s t)) ∧
  (∀ s : State, linkOn s = true →
    (∀ e l, s.que.evf = e :: l →
      ∃ t, exec .evfPop s = .next t ∧ t.que = { s.que with evf := l, evfData := e } ∧ only [.mg, .que, .out] s t) ∧
    (s.que.evf = [] →
      ∃ t, exec .evfPop s = .next t ∧ t.que = { s.que with evfUnder := true } ∧ only [.mg, .que, .out] s t)) ∧
  (∀ (a : Arb) n elig lvl,
    (∀ r, slotOwner (slotAt a a.ptr) = some r → elig r = true → winner a n elig lvl = some r) ∧
    ((∀ r, slotOwner (slotAt a a.ptr) = some r → elig r = false) →
      (winner a n elig lvl = none → ∀ r < n, elig r = false) ∧
      (∀ r, winner a n elig lvl = some r → r < n ∧ elig r = true ∧ ∀ x < n, elig x = true →
        lvl x < lvl r ∨ (lvl x = lvl r ∧ vAt a.gage 0 x ≤ vAt a.gage 0 r)))) ∧
  (∀ s : State, linkOn s = true →
    (hmaFree s = false → exec .hmaDecision s = .next s) ∧
    (∀ r, hmaFree s = true → winner (tidyAll s).hma.arb 19 (hmaElig (tidyAll s)) (hmaLvl (tidyAll s)) = some r →
      ∃ t, exec .hmaDecision s = .next t ∧ t.hma.arb.ptr = (s.hma.arb.ptr + 1) % 64 ∧ vAt t.hma.arb.gage 0 r = 0 ∧
        only [.bb, .aon, .pcie, .doms, .ln, .hma, .que, .out] s t) ∧
    (hmaFree s = true → winner (tidyAll s).hma.arb 19 (hmaElig (tidyAll s)) (hmaLvl (tidyAll s)) = none →
      ∃ t, exec .hmaDecision s = .next t ∧ t.hma.arb = s.hma.arb ∧ only [.doms, .hma] s t) ∧
    ((atBoundary s 0 = false ∨ mayRun s = false) → exec .ulaDecision s = .next s) ∧
    (∀ r x, atBoundary s 0 = true → mayRun s = true →
      winner s.ula.arb 28 (fun y => (ulaCand s (suspLvl s) y).isSome) (ulaLvl s (suspLvl s)) = some r →
      ulaCand s (suspLvl s) r = some x →
      ∃ t, exec .ulaDecision s = .next t ∧ t.ula.arb.holder = some r ∧
        t.ports[(0 : PortN)].txCur = some (withTurn s x) ∧ t.ula.arb.ptr = (s.ula.arb.ptr + 1) % 64 ∧
        vAt t.ula.arb.gage 0 r = 0 ∧ portsBut 0 s t ∧ t.bus = { s.bus with inbox := t.bus.inbox } ∧
        only [.bb, .aon, .doms, .ln, .ula, .que, .ports, .bus, .sur, .out] s t) ∧
    (winner s.ula.arb 28 (fun y => (ulaCand s (suspLvl s) y).isSome) (ulaLvl s (suspLvl s)) = none →
      s.ports[(0 : PortN)].txCur = none → exec .ulaDecision s = .next s))

/-- The watches of the doorbell page are queued once; what a page says is taken, ignored or stops a ring; fetched
descriptors and SEND data go to their rings; a failed read is recorded and has its outcome. The event entry that holds the path is written and the producer
advances.  The model's choices: rows in states where their rule does not apply (log entries 17 and 18), the request that
holds the path (30, 31), a host read that fails (35), when an enabled endpoint fetches (39), completion buffer space
(122). -/
def Obligations.DoorbellsAndReads : Prop :=
  (∀ d (s : State), linkOn s = true →
    (watched s d = true → bit s.doms[d].cadence 15 = true → s.tb.prestroke ≠ 0 → s.tb.valid = true →
      s.que.watches.contains (d, true) = false →
      ∃ t, exec (.prestrokeWatch d) s = .next t ∧
        t.que = { s.que with watches := s.que.watches ++ [(d, true)] } ∧ only [.que] s t) ∧
    (watched s d = false → exec (.prestrokeWatch d) s = .next s ∧ exec (.doorbellRetry d) s = .next s) ∧
    (watched s d = true → s.doms[d].retry = true → s.que.watches.contains (d, false) = false →
      ∃ t, exec (.doorbellRetry d) s = .next t ∧
        t.que = { s.que with watches := s.que.watches ++ [(d, false)] } ∧ only [.que] s t)) ∧
  (∀ d c e pis (s : State), linkOn s = true →
    (findRead s d .page = none → exec (.doorbellReadDone d c e pis) s = .next (unexpected s)) ∧
    (∀ x, findRead s d .page = some x → x.n ≠ 0 → s.doms[d].st = .run →
      (∃ t, exec (.doorbellReadDone d c e pis) s = .next t ∧ t.doms[d].cmdRaw = c ∧ t.doms[d].evtRaw = e ∧
        t.doms[d].retry = false ∧ t.doms[d].recheck = false ∧
        (s.doms[d].cmdRing = .running → c ≠ cmdSeen s.doms[d] →
          (c - s.doms[d].cmdNext).toNat ≤ cmdSize s.doms[d] →
          t.doms[d].cmdPi = c ∧ t.doms[d].cmdRing = .running) ∧
        (s.doms[d].cmdRing = .running → c ≠ cmdSeen s.doms[d] →
          cmdSize s.doms[d] < (c - s.doms[d].cmdNext).toNat →
          t.doms[d].cmdRing = .ringErr ∧ t.doms[d].cmdPi = s.doms[d].cmdPi ∧ bit t.doms[d].err 0 = true) ∧
        (e ≠ evtSeen s.doms[d] → (e = s.doms[d].producer ∨ 32768 ≤ (e - s.doms[d].producer).toNat) →
          t.doms[d].evtCi = e) ∧
        (e ≠ evtSeen s.doms[d] → e ≠ s.doms[d].producer → (e - s.doms[d].producer).toNat < 32768 →
          t.doms[d].evtCi = s.doms[d].evtCi ∧ bit t.doms[d].err 2 = true) ∧
        (∀ k : EpN, looksAt s d k = true → wAt pis k.val ≠ piSeen s.doms[d] s.ln.eps[k] →
          s.ln.eps[k].ringErr = false →
          (piOk s.ln.eps[k] (wAt pis k.val) = true →
            t.ln.eps[k].pi = wAt pis k.val ∧ t.ln.eps[k].ringErr = false) ∧
          (piOk s.ln.eps[k] (wAt pis k.val) = false →
            t.ln.eps[k].ringErr = true ∧ t.ln.eps[k].pi = s.ln.eps[k].pi ∧ bit t.doms[d].err 1 = true)) ∧
        only [.aon, .pcie, .doms, .ln, .hma, .que, .out] s t)) ∧
    (∀ x, findRead s d .page = some x → s.doms[d].st = .teardown → s.hma.arb.holder = none →
      ∃ t, exec (.doorbellReadDone d c e pis) s = .next t ∧
        t.pcie = { s.pcie with reads := s.pcie.reads.erase x } ∧ only [.pcie] s t)) ∧
  (∀ d ws (s : State), linkOn s = true →
    (findRead s d .commands = none → exec (.commandFetchDone d ws) s = .next (unexpected s)) ∧
    (∀ x l, findRead s d .commands = some x → x.n ≠ 0 → s.doms[d].st ≠ .teardown → s.doms[d].st ≠ .easy →
      l = (ws.take x.n) →
      ∃ t, exec (.commandFetchDone d ws) s = .next t ∧
        t.doms[d].cmdNext = s.doms[d].cmdNext + w16 l.length ∧
        ((s.doms[d].cmdQ ++ (countedFrom s.doms[d].cmdNext l).map
          (fun p => ({ count := p.1, w := p.2 } : Cmd))).all (fun c => listedOps.contains (cmdOp c)) = true →
          t.doms[d].cmdQ = s.doms[d].cmdQ ++ (countedFrom s.doms[d].cmdNext l).map
            (fun p => ({ count := p.1, w := p.2 } : Cmd))) ∧
        only [.aon, .pcie, .doms, .ln, .hma, .que, .out] s t) ∧
    (∀ x, findRead s d .commands = some x → x.n ≠ 0 → s.doms[d].st = .easy → s.hma.arb.holder = none →
      ∃ t, exec (.commandFetchDone d ws) s = .next t ∧
        t.pcie = { s.pcie with reads := s.pcie.reads.erase x } ∧ only [.pcie] s t)) ∧
  (∀ d k (s : State), linkOn s = true →
    (∀ ws, findRead s d (.descriptor k) = none →
      exec (.descriptorFetchDone d k ws) s = .next (unexpected s)) ∧
    (∀ ws x, findRead s d (.descriptor k) = some x → x.n ≠ 0 → s.doms[d].st ≠ .teardown →
      ∃ t, exec (.descriptorFetchDone d k ws) s = .next t ∧
        t.ln.eps[k].next = s.ln.eps[k].next + w16 (ws.take x.n).length ∧
        only [.aon, .pcie, .doms, .ln, .hma, .que, .out] s t) ∧
    (∀ data, findRead s d (.sendData k) = none →
      exec (.sendDataFetchDone d k data) s = .next (unexpected s)) ∧
    (∀ data x y l, s.pcie.reads = [x] → x.dom = d → x.use = .sendData k → x.n ≠ 0 → s.doms[d].st ≠ .teardown →
      s.ln.eps[k].descs = y :: l → descLen y ≤ s.ln.eps[k].asked → s.hma.arb.holder = none →
      ∃ t, exec (.sendDataFetchDone d k data) s = .next t ∧ t.ln.eps[k].full = true ∧
        t.ln.eps[k].len = descLen y ∧ t.ln.eps[k].inData = true ∧
        t.ln.mem = memWrite s.ln.mem (bufAddr s.ln.eps[k] + x.off)
          ((List.range x.len).map fun i => data.getD i 0 % 256) ∧
        t.pcie = { s.pcie with reads := [] } ∧ only [.pcie, .ln] s t)) ∧
  (∀ d u (s : State), linkOn s = true →
    (findRead s d u = none → exec (.completionTimeout d u) s = .next s ∧
      ∀ kind, exec (.hostReadFailed d u kind) s = .next (unexpected s)) ∧
    (∀ x, findRead s d u = some x →
      ∃ t, exec (.completionTimeout d u) s = .next t ∧ bit t.doms[d].err 4 = true ∧
        t.pcie.fns[d].aerUnc = (s.pcie.fns[d].aerUnc ||| (1#32 <<< 14)) ∧
        (s.doms[d].st = .teardown → t.doms[d].tdTimeouts = s.doms[d].tdTimeouts + 1) ∧
        only [.bb, .aon, .pcie, .doms, .ln, .hma, .que, .out] s t)) ∧
  (∀ d kind x (s : State), linkOn s = true →
    (findRead s d .commands = some x → s.doms[d].st ≠ .teardown →
      ∃ t, exec (.hostReadFailed d .commands kind) s = .next t ∧ t.doms[d].cmdRing = .hostErr ∧
        bit t.doms[d].err 4 = true ∧ only [.bb, .aon, .pcie, .doms, .ln, .hma, .que, .out] s t) ∧
    (findRead s d .page = some x → s.doms[d].st = .run → s.doms[d].retry = false →
      ∃ t, exec (.hostReadFailed d .page kind) s = .next t ∧ t.doms[d].retry = true ∧ t.doms[d].st = .run ∧
        only [.bb, .aon, .pcie, .doms, .ln, .hma, .que, .out] s t) ∧
    (findRead s d .page = some x → s.doms[d].st = .run → s.doms[d].retry = true →
      ∃ t, exec (.hostReadFailed d .page kind) s = .next t ∧ t.doms[d].st = .fault ∧
        only [.bb, .aon, .pcie, .doms, .ln, .hma, .que, .out] s t)) ∧
  (∀ d (s : State), linkOn s = true →
    (watched s d = true → s.que.watches.contains (d, false) = false →
      ∃ t, exec (.doorbellWatch d) s = .next t ∧
        t.que = { s.que with watches := s.que.watches ++ [(d, false)] } ∧ only [.que] s t) ∧
    ((watched s d = false ∨ s.que.watches.contains (d, false) = true) → exec (.doorbellWatch d) s = .next s) ∧
    (∀ q rest p, pathHeld s (.entry d) = true → s.hma.arb.holder = some (8 + d.val) →
      pickEntry s.doms[d] = some (q, rest) → entryPiece s.doms[d] = some p →
      ∃ t, exec (.eventWrite d) s = .next t ∧ wrote t d p ∧ t.doms[d].producer = s.doms[d].producer + 1#16 ∧
        t.doms[d].evPart = false ∧ t.hma.arb.holder = none ∧
        only [.aon, .pcie, .doms, .ln, .hma, .que, .out] s t) ∧
    (pathHeld s (.entry d) = false → exec (.eventWrite d) s = .next s))

/-- The commands of a domain's command ring: each runs when its turn comes, checks the right and the parameters, has
its effect and completes with its status, or waits for its host data; a command of another OP does not start.  The model's
choices: rows in states where their rule does not apply (log entry 18), reserved bits (33), the order of the checks (34),
EP_HALT after a voided fetch (38), where a METER_SNAP waits (102). -/
def Obligations.RingCommands : Prop :=
  (∀ d c (s : State),
    (cmdFront s d 0x01 c →
      ∃ t, exec (.nop d) s = .next t ∧ cmdEnded s t d c 0 ∧ only [.aon, .doms, .hma, .que, .out] s t) ∧
    (cmdFront s d 0x02 c → fld c.w[2] 8 4 ≤ 8 → c.w[4].toNat % 64 = 0 → s.ln.eps[cmdEp c].owner = d →
      s.ln.eps[cmdEp c].ring = false →
      ∃ t, exec (.ringSet d) s = .next t ∧ cmdEnded s t d c 0 ∧
        t.ln.eps[cmdEp c] = { s.ln.eps[cmdEp c] with
          ring := true, ringErr := false, ringSize := fld c.w[2] 8 4, ringBase := cmdBase c,
          next := c.w[3], pi := c.w[3], piRaw := c.w[3], descs := [] } ∧ epsBut (cmdEp c) s t ∧
        only [.aon, .doms, .ln, .hma, .que, .out] s t) ∧
    (cmdFront s d 0x02 c → fld c.w[2] 8 4 ≤ 8 → c.w[4].toNat % 64 = 0 → s.ln.eps[cmdEp c].owner ≠ d →
      ∃ t, exec (.ringSet d) s = .next t ∧ cmdEnded s t d c 4 ∧ only [.aon, .doms, .hma, .que, .out] s t) ∧
    (cmdFront s d 0x02 c → 8 < fld c.w[2] 8 4 →
      ∃ t, exec (.ringSet d) s = .next t ∧ cmdEnded s t d c 2 ∧ only [.aon, .doms, .hma, .que, .out] s t) ∧
    (cmdFront s d 0x03 c → s.ln.eps[cmdEp c].owner = d →
      ∃ t, exec (.ringStop d) s = .next t ∧ cmdEnded s t d c 0 ∧ t.ln.eps[cmdEp c].ring = false ∧
        t.ln.eps[cmdEp c].descs = [] ∧ t.ln.eps[cmdEp c].full = false ∧
        only [.aon, .pcie, .doms, .ln, .hma, .que, .out] s t) ∧
    (cmdFront s d 0x04 c → s.ln.eps[cmdEp c].owner = d → cmdP1 c = 1 → stopOpen s (cmdEp c) = false →
      ∃ t, exec (.epHalt d) s = .next t ∧ cmdEnded s t d c 0 ∧
        t.ln.eps[cmdEp c] = { s.ln.eps[cmdEp c] with halt := true } ∧ epsBut (cmdEp c) s t ∧
        only [.aon, .doms, .ln, .hma, .que, .out] s t)) ∧
  (∀ d c (s : State),
    (cmdFront s d 0x10 c → bit s.doms[d].rights 0 = true → portOk c = true → cmdP1 c ≤ 1 →
      ∃ t, exec (.portPower d) s = .next t ∧ cmdEnded s t d c 0 ∧ t.pps[cmdDn c].on = decide (cmdP1 c = 1) ∧
        only [.bb, .pps, .aon, .doms, .hma, .ula, .que, .ports, .tt, .tb, .sur, .out] s t) ∧
    (cmdFront s d 0x10 c → bit s.doms[d].rights 0 = false →
      ∃ t, exec (.portPower d) s = .next t ∧ cmdEnded s t d c 3 ∧
        t.doms[d].denied = satInc 255 s.doms[d].denied ∧ only [.aon, .doms, .hma, .que, .out] s t) ∧
    (cmdFront s d 0x11 c → bit s.doms[d].rights 0 = true →
      granted s.pps + reserved s.pps ≤ min (cmdP0 c) 2240 →
      ∃ t, exec (.cmdSetBudget d) s = .next t ∧ cmdEnded s t d c 0 ∧ t.ppsg.budget = min (cmdP0 c) 2240 ∧
        only [.bb, .pps, .ppsg, .aon, .doms, .hma, .ula, .que, .ports, .tt, .tb, .sur, .out] s t) ∧
    (cmdFront s d 0x12 c → bit s.doms[d].rights 0 = true → portOk c = true → cmdP1 c ≤ 3 →
      ∃ t, exec (.ppsLimit d) s = .next t ∧ cmdEnded s t d c 0 ∧
        t.pps[cmdDn c] = limitPut (cmdP1 c) c.w[4] s.pps[cmdDn c] ∧ ppsBut (cmdDn c) s t ∧
        only [.pps, .aon, .doms, .hma, .que, .out] s t) ∧
    (cmdFront s d 0x12 c → bit s.doms[d].rights 0 = true → portOk c = false →
      ∃ t, exec (.ppsLimit d) s = .next t ∧ cmdEnded s t d c 2 ∧ only [.aon, .doms, .hma, .que, .out] s t) ∧
    (cmdFront s d 0x20 c → bit s.doms[d].rights 2 = true → s.mtr.copy = none →
      ∃ t, exec (.meterSnap d) s = .next t ∧
        t.mtr = { s.mtr with copy := some (2, snapValues s.mtr), waiters := s.mtr.waiters ++ [d] } ∧
        t.doms[d].cmdRun = some { cmd := c, r4 := 0#16, r5 := 0#16, data := none, snap := true } ∧
        only [.mtr, .aon, .doms, .hma, .que, .out] s t) ∧
    (cmdFront s d 0x21 c → bit s.doms[d].rights 2 = true → cmdP0 c ≤ 16 → cmdP1 c ≤ 1 → addrOk c = true →
      ∃ t, exec (.meterRead d) s = .next t ∧
        cmdData s t d c (2 * (meterInfo s (cmdP1 c = 1) (cmdP0 c)).length) (meterInfo s (cmdP1 c = 1) (cmdP0 c)) ∧
        only [.aon, .doms, .hma, .que, .out] s t) ∧
    (cmdFront s d 0x30 c → bit s.doms[d].rights 1 = true → cmdP0 c ≤ 7 →
      ∃ t, exec (.crewSet d) s = .next t ∧ cmdEnded s t d c 0 ∧
        (∀ k : CrewN, k.val = cmdP0 c → t.tb.crews[k].mask0 = c.w[4] ∧
          t.tb.crews[k].mask1 = (c.w[5] &&& 0x0001#16) ∧ t.tb.crews[k].ofs = c.w[6]) ∧
        only [.bb, .aon, .doms, .ln, .hma, .que, .ports, .tt, .tb, .out] s t) ∧
    (cmdFront s d 0x31 c → bit s.doms[d].rights 1 = true → cmdP0 c ≤ 3 →
      ∃ t, exec (.catchPin d) s = .next t ∧ cmdEnded s t d c 0 ∧
        (∀ i : Fin 4, i.val = cmdP0 c → t.tb.pins[i] = pinPut c.w[3]) ∧
        only [.aon, .doms, .hma, .que, .tb, .out] s t) ∧
    (cmdFront s d 0x40 c → bit s.doms[d].rights 3 = true → cmdP0 c ≤ 255 → 1 ≤ cmdP1 c → cmdP1 c ≤ 256 →
      addrOk c = true →
      ∃ t, exec (.logRead d) s = .next t ∧
        cmdData s t d c (logEntries s.bb (cmdP0 c) (cmdP1 c)).length
          ((logEntries s.bb (cmdP0 c) (cmdP1 c)).flatMap fun e => e.toList) ∧
        only [.aon, .doms, .hma, .que, .out] s t) ∧
    (∀ n : PortN, cmdFront s d 0x50 c → cmdP0 c = n.val → addrOk c = true →
      ∃ t, exec (.portStatus d) s = .next t ∧ cmdData s t d c 16 (portInfo s n) ∧
        only [.aon, .doms, .hma, .que, .out] s t) ∧
    (cmdFront s d 0x51 c → addrOk c = true →
      ∃ t, exec (.nodeInfo d) s = .next t ∧ cmdData s t d c 32 (nodeInfo s) ∧
        only [.aon, .doms, .hma, .que, .out] s t) ∧
    (cmdFront s d 0x51 c → addrOk c = false →
      ∃ t, exec (.nodeInfo d) s = .next t ∧ cmdEnded s t d c 2 ∧ only [.aon, .doms, .hma, .que, .out] s t)) ∧
  (∀ d c op (s : State), cmdFront s d op c → op ≠ 0x01 → exec (.nop d) s = .next s) ∧
  (∀ d (s : State), linkOn s = true → s.doms[d].cmdQ = [] → exec (.nop d) s = .next s ∧
    exec (.ringSet d) s = .next s ∧ exec (.nodeInfo d) s = .next s) ∧
  (∀ d r (s : State), linkOn s = true → pathHeld s (.data d) = true → s.doms[d].cmdRun = some r → s.hma.arb.holder = some 18 →
    ∃ t, exec (.commandDataDone d) s = .next t ∧ t.doms[d].cmdRun = none ∧ t.doms[d].lastStat = 0 ∧
      t.doms[d].lastCtag = r.cmd.w[1] ∧ t.hma.cur = none ∧ t.hma.arb.holder = none ∧
      only [.aon, .pcie, .doms, .hma, .que, .out] s t) ∧
  (∀ d (s : State), linkOn s = true → pathHeld s (.data d) = false → exec (.commandDataDone d) s = .next s)

/-! ## The local node (chapter 10) -/

/-- The answers of the local node: SETUP is always acknowledged and ends what stood before it; OUT data is stored or
draws NAK; an IN request draws the data or NAK; CSTAT draws what the oldest descriptor says; PINQ draws PIND or EMPTY;
POUT is stored or overruns; a retry draws the same answer; a node that is off and a torn-down owner answer as R226 and
R246 say; an answer waits while its owner's queue is full.  A request with a new TAG confirms sent data whatever it
draws.  The model's choices: a row with an empty inbox changes nothing (log entry 18), what is not taken draws STALL (40), the
end of a PIND (41), a retry of a SETUP (78), halt before the retry (119), STALL to a SETUP in teardown (118). -/
def Obligations.LocalAnswers : Prop :=
  (∀ x u (s : State), localHas s (fun p => p.hdr.typ = 0#4) 0 x u → x.pkt.payload.length = 4 → x.pkt.hdr.odd = false →
    (isNew s.ln.eps[(0 : EpN)] x.pkt.hdr = true ∨ s.ln.eps[(0 : EpN)].ans ≠ .ack) →
    ∃ t, exec .localSetup s = .next t ∧ lnShook s t 0 x.pkt.hdr 0x01 ∧
      t.ln.eps[(0 : EpN)].full = true ∧ t.ln.eps[(0 : EpN)].setup = true ∧ t.ln.eps[(0 : EpN)].len = 8 ∧
      t.ln.eps[(0 : EpN)].stage = (if wAt x.pkt.payload 3 = 0#16 then 2 else 1) ∧
      t.ln.eps[(0 : EpN)].ans = .ack ∧ t.ln.eps[(0 : EpN)].seqTag = x.pkt.hdr.tag ∧
      (∀ d ∈ t.ln.eps[(0 : EpN)].descs, descOp d ≠ 2 ∧ descOp d ≠ 3 ∧ descOp d ≠ 4) ∧
      t.ln.mem = memWrite s.ln.mem (bufAddr s.ln.eps[(0 : EpN)]) (payloadBytes x.pkt) ∧ epsBut 0 { s with ln := { s.ln with mem := t.ln.mem } } t ∧
      only [.aon, .pcie, .doms, .ln, .hma, .ula, .que, .bus, .out] s t) ∧
  (∀ k x u (s : State), localHas s (fun p => p.hdr.typ = 0#4) k x u →
    (k ≠ 0 ∨ x.pkt.payload.length ≠ 4 ∨ x.pkt.hdr.odd = true) →
    ((s.ln.eps[k].sent = false ∨ isNew s.ln.eps[k] x.pkt.hdr = false) →
      ∃ t, exec .localSetup s = .next t ∧ lnShook s t k x.pkt.hdr 0x03 ∧ t.ln.eps[k].ans = .stall ∧ epsBut k s t ∧
        only [.ln, .ula, .bus] s t) ∧
    (∀ d l, s.ln.eps[k].sent = true → isNew s.ln.eps[k] x.pkt.hdr = true → s.ln.eps[k].descs = d :: l →
      ∃ t, exec .localSetup s = .next t ∧ lnShook s t k x.pkt.hdr 0x03 ∧ t.ln.eps[k].ans = .stall ∧
        t.ln.eps[k].sent = false ∧ t.ln.eps[k].descs <:+ l ∧
        only [.aon, .doms, .ln, .hma, .ula, .que, .bus, .out] s t)) ∧
  (∀ k x u (s : State),
    localHas s (fun p => p.hdr.typ = 3#4 || (p.hdr.typ = 1#4 && !p.payload.isEmpty)) k x u →
    takesOut s.ln.eps[k] x.pkt = true → (payloadBytes x.pkt).length ≤ s.ln.eps[k].size →
    (isNew s.ln.eps[k] x.pkt.hdr = true → s.ln.eps[k].full = false →
      ∃ t, exec .localOutData s = .next t ∧ lnShook s t k x.pkt.hdr 0x01 ∧ t.ln.eps[k].full = true ∧
        t.ln.eps[k].setup = false ∧ t.ln.eps[k].len = (payloadBytes x.pkt).length ∧ t.ln.eps[k].tag = x.pkt.hdr.tag ∧
        t.ln.eps[k].ans = .ack ∧ t.ln.eps[k].seqTag = x.pkt.hdr.tag ∧
        t.ln.mem = memWrite s.ln.mem (bufAddr s.ln.eps[k]) (payloadBytes x.pkt) ∧
        only [.aon, .pcie, .doms, .ln, .hma, .ula, .que, .bus, .out] s t) ∧
    (isNew s.ln.eps[k] x.pkt.hdr = true → s.ln.eps[k].full = true → s.ln.eps[k].sent = false →
      ∃ t, exec .localOutData s = .next t ∧ lnShook s t k x.pkt.hdr 0x02 ∧ only [.ula, .bus] s t) ∧
    (isNew s.ln.eps[k] x.pkt.hdr = false → s.ln.eps[k].ans = .ack →
      ∃ t, exec .localOutData s = .next t ∧ lnShook s t k x.pkt.hdr 0x01 ∧ t.ln.mem = s.ln.mem ∧
        t.ln.eps[k] = { s.ln.eps[k] with retries := satInc 255 s.ln.eps[k].retries, seqValid := true } ∧
        epsBut k s t ∧ only [.ln, .ula, .bus] s t)) ∧
  (∀ k x u (s : State),
    localHas s (fun p => p.hdr.typ = 3#4 || (p.hdr.typ = 1#4 && !p.payload.isEmpty)) k x u →
    (takesOut s.ln.eps[k] x.pkt = false ∨ s.ln.eps[k].size < (payloadBytes x.pkt).length) →
    ((s.ln.eps[k].sent = false ∨ isNew s.ln.eps[k] x.pkt.hdr = false) →
      ∃ t, exec .localOutData s = .next t ∧ lnShook s t k x.pkt.hdr 0x03 ∧ t.ln.eps[k].ans = .stall ∧ epsBut k s t ∧
        only [.ln, .ula, .bus] s t) ∧
    (∀ d l, s.ln.eps[k].sent = true → isNew s.ln.eps[k] x.pkt.hdr = true → s.ln.eps[k].descs = d :: l →
      ∃ t, exec .localOutData s = .next t ∧ lnShook s t k x.pkt.hdr 0x03 ∧ t.ln.eps[k].ans = .stall ∧
        t.ln.eps[k].sent = false ∧ t.ln.eps[k].descs <:+ l ∧
        only [.aon, .doms, .ln, .hma, .ula, .que, .bus, .out] s t)) ∧
  (∀ k x u (s : State),
    localHas s (fun p => p.hdr.typ = 4#4 || (p.hdr.typ = 1#4 && p.payload.isEmpty)) k x u →
    takesIn s.ln.eps[k] x.pkt = true →
    (isNew s.ln.eps[k] x.pkt.hdr = true → s.ln.eps[k].full = true → s.ln.eps[k].sent = false →
      s.ln.eps[k].inData = true →
      ∃ t, exec .localInRequest s = .next t ∧
        lnSent s t k (dataPkt s k x.pkt.hdr (inType x.pkt.hdr)) .none ∧
        t.ln.eps[k] = { s.ln.eps[k] with
          sent := true, tag := x.pkt.hdr.tag, seqTag := x.pkt.hdr.tag, seqValid := true, ans := .data } ∧
        epsBut k s t ∧ only [.ln, .ula, .bus] s t) ∧
    (isNew s.ln.eps[k] x.pkt.hdr = true → s.ln.eps[k].full = false → s.ln.eps[k].sent = false →
      ∃ t, exec .localInRequest s = .next t ∧ lnShook s t k x.pkt.hdr 0x02 ∧ only [.ula, .bus] s t) ∧
    (∀ d l, isNew s.ln.eps[k] x.pkt.hdr = true → s.ln.eps[k].sent = true → s.ln.eps[k].descs = d :: l →
      ∃ t, exec .localInRequest s = .next t ∧ lnShook s t k x.pkt.hdr 0x02 ∧ t.ln.eps[k].sent = false ∧
        t.ln.eps[k].descs <:+ l ∧ only [.aon, .doms, .ln, .hma, .ula, .que, .bus, .out] s t) ∧
    (isNew s.ln.eps[k] x.pkt.hdr = false → s.ln.eps[k].ans ≠ .stall → s.ln.eps[k].sent = true →
      ∃ t, exec .localInRequest s = .next t ∧
        lnSent s t k (dataPkt s k x.pkt.hdr (inType x.pkt.hdr)) .none ∧
        t.ln.eps[k] = { s.ln.eps[k] with retries := satInc 255 s.ln.eps[k].retries } ∧ epsBut k s t ∧
        only [.ln, .ula, .bus] s t)) ∧
  (∀ x u (s : State), localHas s (fun p => p.hdr.typ = 2#4) 0 x u → x.pkt.payload = [] →
    isNew s.ln.eps[(0 : EpN)] x.pkt.hdr = true → s.ln.eps[(0 : EpN)].sent = false →
    (∀ d l, epStalled s 0 = false → s.ln.eps[(0 : EpN)].descs = d :: l → descOp d = 3 →
      ∃ t, exec .localCstat s = .next t ∧
        lnSent s t 0 { hdr := { x.pkt.hdr with hop := 0#10, tsb := 0#8 }, payload := [] } .none ∧
        t.ln.eps[(0 : EpN)].stage = 0 ∧ t.ln.eps[(0 : EpN)].ans = .cstat ∧ t.ln.eps[(0 : EpN)].descs <:+ l ∧
        only [.aon, .doms, .ln, .hma, .ula, .que, .bus, .out] s t) ∧
    (∀ d l, epStalled s 0 = false → s.ln.eps[(0 : EpN)].descs = d :: l → descOp d = 4 →
      ∃ t, exec .localCstat s = .next t ∧ lnShook s t 0 x.pkt.hdr 0x03 ∧ t.ln.eps[(0 : EpN)].stage = 0 ∧
        t.ln.eps[(0 : EpN)].ans = .stall ∧ t.ln.eps[(0 : EpN)].descs <:+ l ∧
        only [.aon, .doms, .ln, .hma, .ula, .que, .bus, .out] s t) ∧
    ((s.ln.eps[(0 : EpN)].descs = [] ∨ epStalled s 0 = true) →
      ∃ t, exec .localCstat s = .next t ∧ lnShook s t 0 x.pkt.hdr 0x02 ∧
        t.ln.eps[(0 : EpN)] = { s.ln.eps[(0 : EpN)] with
          stage := if s.ln.eps[(0 : EpN)].stage = 0 then 0 else 2 } ∧ epsBut 0 s t ∧ only [.ln, .ula, .bus] s t)) ∧
  (∀ k x u (s : State), localHas s (fun p => p.hdr.typ = 7#4) k x u → x.pkt.payload = [] → s.ln.eps[k].typ = 2 →
    s.ln.eps[k].dirIn = true →
    (∀ d l, s.ln.eps[k].full = true → s.ln.eps[k].descs = d :: l →
      ∃ t, exec .localPinq s = .next t ∧ lnSent s t k (dataPkt s k x.pkt.hdr 8#4) (.pindSent k) ∧
        t.ln.eps[k].flight = s.ln.eps[k].flight ++ [(d, s.ln.eps[k].len, x.pkt.hdr.tag)] ∧
        t.ln.eps[k].descs <:+ l ∧ only [.aon, .doms, .ln, .hma, .ula, .que, .bus, .out] s t) ∧
    (s.ln.eps[k].full = false →
      ∃ t, exec .localPinq s = .next t ∧ lnShook s t k x.pkt.hdr 0x06 ∧ epsBut k s t ∧
        t.ln.eps[k] = { s.ln.eps[k] with seqTag := x.pkt.hdr.tag, seqValid := true, ans := .data } ∧
        only [.ln, .ula, .bus] s t)) ∧
  (∀ k x u (s : State), localHas s (fun p => p.hdr.typ = 6#4) k x u → s.ln.eps[k].typ = 2 → s.ln.eps[k].dirIn = false →
    (payloadBytes x.pkt).length ≤ s.ln.eps[k].size →
    (s.ln.eps[k].full = false → cueBit x.pkt.hdr = false →
      ∃ t, exec .localPout s = .next t ∧ t.ln.eps[k].full = true ∧ t.ln.eps[k].cueHeld = false ∧
        t.ln.eps[k].len = (payloadBytes x.pkt).length ∧
        t.ln.mem = memWrite s.ln.mem (bufAddr s.ln.eps[k]) (payloadBytes x.pkt) ∧ t.ula = s.ula ∧
        only [.aon, .pcie, .doms, .ln, .hma, .que, .bus, .out] s t) ∧
    (s.ln.eps[k].full = true →
      ∃ t, exec .localPout s = .next t ∧
        t.ln.eps[k] = { s.ln.eps[k] with overrun := satInc 255 s.ln.eps[k].overrun } ∧ epsBut k s t ∧
        only [.ln, .bus] s t)) ∧
  (∀ x u (s : State), linkOn s = true → s.ln.en = false →
    (takeInbox s (forLocal fun p => p.hdr.typ = 7#4) = some (x, u) → exec .localPinq s = .next u) ∧
    (takeInbox s (forLocal fun p => p.hdr.typ = 6#4) = some (x, u) → exec .localPout s = .next u)) ∧
  (∀ s : State, linkOn s = true → s.bus.inbox = [] →
    exec .localSetup s = .next s ∧ exec .localOutData s = .next s ∧ exec .localInRequest s = .next s ∧
    exec .localCstat s = .next s ∧ exec .localPinq s = .next s ∧ exec .localPout s = .next s) ∧
  (∀ x u (s : State), linkOn s = true → isUp s.ports[(0 : PortN)] = true → s.ln.en = true → x.mc = false →
    answerRoom s (epIdx x.pkt.hdr) = true → isTorn s (epIdx x.pkt.hdr) = true →
    (takeInbox s (fun p => forLocal (fun q => q.hdr.typ = 2#4) p && mayTake s p) = some (x, u) →
      ∃ t, exec .localCstat s = .next t ∧ lnShook s t (epIdx x.pkt.hdr) x.pkt.hdr 0x02 ∧ only [.ula, .bus] s t) ∧
    (takeInbox s (fun p => forLocal (fun q => q.hdr.typ = 7#4) p && mayTake s p) = some (x, u) →
      ∃ t, exec .localPinq s = .next t ∧ lnShook s t (epIdx x.pkt.hdr) x.pkt.hdr 0x06 ∧ only [.ln, .ula, .bus] s t) ∧
    (takeInbox s (fun p => forLocal (fun q => q.hdr.typ = 6#4) p && mayTake s p) = some (x, u) →
      exec .localPout s = .next u) ∧
    (takeInbox s (fun p => forLocal (fun q => q.hdr.typ = 0#4) p && mayTake s p) = some (x, u) →
      ∃ t, exec .localSetup s = .next t ∧
        (lnShook s t (epIdx x.pkt.hdr) x.pkt.hdr 0x02 ∨ lnShook s t (epIdx x.pkt.hdr) x.pkt.hdr 0x03) ∧
        only [.ln, .ula, .bus] s t)) ∧
  (∀ x (s : State), linkOn s = true → s.ln.en = true → s.bus.inbox = [x] → x.mc = false → x.pkt.hdr.typ ≠ 6#4 →
    answerRoom s (epIdx x.pkt.hdr) = false → exec .localSetup s = .next s ∧ exec .localOutData s = .next s ∧
    exec .localInRequest s = .next s ∧ exec .localCstat s = .next s ∧ exec .localPinq s = .next s)

/-- The local node and its endpoints: the drain of a buffer completes its RECV, sent data is confirmed after its
time, a missed service is counted; the node and each endpoint are enabled, refused and disabled, and the counts of an
endpoint are cleared.  The model's choices: rows in states where their rule does not apply (log entries 17 and 18), the
place of a drain on the path (30 and 31), when an enabled endpoint fetches (39), TYPE as stored (70), rows that name one
field (72). -/
def Obligations.LocalNodeAndEndpoints : Prop :=
  (∀ k d l (s : State), linkOn s = true → s.ln.eps[k].descs = d :: l →
    (∀ p, pathHeld s (.drain s.ln.eps[k].owner k) = true → s.hma.arb.holder = some (8 + s.ln.eps[k].owner.val) →
      nextWrite s (.drain s.ln.eps[k].owner k) = some p → s.ln.eps[k].full = true →
      (s.ln.eps[k].cueHeld = false →
        ∃ t, exec (.recvDrain k) s = .next t ∧ wrote t s.ln.eps[k].owner p ∧ t.hma.arb.holder = none ∧
          t.ln.eps[k].descs <:+ l ∧ (l = [] → t.ln.eps[k].full = false) ∧
          only [.aon, .pcie, .doms, .ln, .hma, .que, .out] s t) ∧
      (s.ln.eps[k].cueHeld = true →
        ∃ t, exec (.recvDrain k) s = .next t ∧ wrote t s.ln.eps[k].owner p ∧ t.hma.arb.holder = none ∧
          t.ln.eps[k] = { s.ln.eps[k] with drained := true, moved := 0 } ∧ epsBut k s t ∧
          only [.aon, .pcie, .ln, .hma, .out] s t)) ∧
    (pathHeld s (.drain s.ln.eps[k].owner k) = false → drainWanted s k = true → drainLen s.ln.eps[k] = 0 →
      epStalled s k = false → s.ln.eps[k].cueHeld = false →
      ∃ t, exec (.recvDrain k) s = .next t ∧ t.ln.eps[k].descs <:+ l ∧ (l = [] → t.ln.eps[k].full = false) ∧
        only [.aon, .doms, .ln, .hma, .que, .out] s t) ∧
    ((pathHeld s (.drain s.ln.eps[k].owner k) = false ∨ s.ln.eps[k].full = false) → drainWanted s k = false →
      exec (.recvDrain k) s = .next s) ∧
    (s.ln.eps[k].sent = true →
      ∃ t, exec (.confirmTimeout k) s = .next t ∧ t.ln.eps[k].sent = false ∧ t.ln.eps[k].descs <:+ l ∧
        (l = [] → t.ln.eps[k].full = false) ∧ only [.aon, .doms, .ln, .hma, .que, .out] s t)) ∧
  (∀ k (s : State), linkOn s = true →
    (s.ln.eps[k].sent = false → exec (.confirmTimeout k) s = .next s) ∧
    (s.ln.eps[k].typ = 2 → s.ln.eps[k].period ≠ 0 → s.ln.eps[k].full = true →
      ∃ t, exec (.epMissed k) s = .next t ∧
        t.ln.eps[k] = { s.ln.eps[k] with missed := satInc 15 s.ln.eps[k].missed } ∧ epsBut k s t ∧ only [.ln] s t) ∧
    ((s.ln.eps[k].typ ≠ 2 ∨ s.ln.eps[k].period = 0 ∨ s.ln.eps[k].full = false) → exec (.epMissed k) s = .next s)) ∧
  (∀ p (s : State), reaches s p = true →
    (headless s = true → exec (.lnEnable p) s = .next s) ∧
    (s.ln.en = true → exec (.lnEnable p) s = .next s) ∧
    (headless s = false → s.ln.en = false →
      ∃ t, exec (.lnEnable p) s = .next t ∧ t.ln.en = true ∧ t.ln.mem = s.ln.mem ∧
        (isUp s.ports[(0 : PortN)] = true → txReady s 0 → ∃ a b, setOut 0 (txRate s 0) .cap a b ∈ t.out) ∧
        only [.aon, .doms, .ln, .hma, .que, .ports, .out] s t) ∧
    (s.ln.en = false → exec (.lnDisable p) s = .next s) ∧
    (s.ln.en = true →
      ∃ t, exec (.lnDisable p) s = .next t ∧ t.ln.en = false ∧ t.bus.loc = 0xFFFE#16 ∧
        (∀ x ∈ t.bus.inbox, x.dest ≠ .loc) ∧
        (∀ k : EpN, t.ln.eps[k].full = false ∧ t.ln.eps[k].descs = [] ∧ t.ln.eps[k].en = s.ln.eps[k].en) ∧
        only [.aon, .pcie, .doms, .ln, .hma, .que, .ports, .bus, .out] s t)) ∧
  (∀ p k (s : State), reaches s p = true → epTypeVal k s.ln.eps[k].typ = s.ln.eps[k].typ →
    (s.ln.eps[k].en = false → bufOk s k = true →
      ∃ t, exec (.epEnable p k) s = .next t ∧ t.ln.eps[k].en = true ∧ t.ln.eps[k].typ = s.ln.eps[k].typ ∧
        t.ln.eps[k].dirIn = s.ln.eps[k].dirIn ∧ epsBut k s t ∧ only [.aon, .doms, .ln, .hma, .que, .out] s t) ∧
    (s.ln.eps[k].en = false → bufOk s k = false →
      ∃ t, exec (.epEnable p k) s = .next t ∧ t.ln.eps[k] = { s.ln.eps[k] with allocErr := true } ∧ epsBut k s t ∧
        only [.ln] s t) ∧
    (s.ln.eps[k].en = true →
      ∃ t, exec (.epDisable p k) s = .next t ∧ t.ln.eps[k] = { emptied s.ln.eps[k] with en := false } ∧ epsBut k s t ∧
        only [.pcie, .ln, .hma] s t) ∧
    (∃ t, exec (.epCntClr p k) s = .next t ∧
      t.ln.eps[k] = { s.ln.eps[k] with overrun := 0, setupLost := 0, missed := 0 } ∧ epsBut k s t ∧ only [.ln] s t))

/-! ## Domains (chapters 9 and 11) -/

/-- The rights and endpoints that the PF gives; a domain is enabled, disabled and taken apart, brought to the Easy
state by GO, and runs again after its Summary Block of 1,024 words.  The model's choices: a duration that no state measures
(log entry 12), which domains the PF's writes name (16), rows in states where their rule does not apply (18), a reset that
reaches an OFF domain (26), the request that holds the path (30, 31), the one event of a command in EASY (32). -/
def Obligations.DomainLife : Prop :=
  (∀ d v (s : State), reaches s .pf = true → domExists s d = true →
    ((bit v 4 = false ∨ holdsWdt s d = true) →
      ∃ t, exec (.domRightsWrite d v) s = .next t ∧
        t.doms[d].rights = ((s.doms[d].rights &&& 0x0010#16) ||| (v &&& 0x000F#16)) ∧ domsBut d s t ∧
        only [.doms] s t) ∧
    (bit v 4 = true → holdsWdt s d = false → s.doms[d].st ≠ .teardown →
      ∃ t, exec (.domRightsWrite d v) s = .next t ∧ holdsWdt t d = true ∧
        (∀ x : DomN, x ≠ d → holdsWdt t x = false) ∧
        (∀ i < 4, bit t.doms[d].rights i = bit v i) ∧
        t.wdt = { s.wdt with armHost := false } ∧ only [.wdt, .doms] s t) ∧
    (bit v 4 = true → holdsWdt s d = false → s.doms[d].st = .teardown →
      ∃ t, exec (.domRightsWrite d v) s = .next t ∧ (∀ x : DomN, holdsWdt t x = holdsWdt s x) ∧
        (∀ i < 4, bit t.doms[d].rights i = bit v i) ∧ bit t.doms[(0 : DomN)].err 3 = true ∧ only [.doms] s t) ∧
    (∀ half : Fin 2,
      ∃ t, exec (.epmaskWrite d half v) s = .next t ∧
        (∀ k : EpN, k.val / 16 = half.val → bit v (k.val % 16) = true → s.ln.eps[k].ring = false →
          s.doms[d].st ≠ .teardown → t.ln.eps[k] = { s.ln.eps[k] with owner := d }) ∧
        (∀ k : EpN, k.val / 16 = half.val → bit v (k.val % 16) = true → s.ln.eps[k].owner ≠ d →
          (s.ln.eps[k].ring = true ∨ s.doms[d].st = .teardown) →
          t.ln.eps[k] = s.ln.eps[k] ∧ bit t.doms[(0 : DomN)].err 3 = true) ∧
        (∀ k : EpN, (k.val / 16 ≠ half.val ∨ bit v (k.val % 16) = false) → t.ln.eps[k] = s.ln.eps[k]) ∧
        only [.doms, .ln] s t)) ∧
  (∀ d v (s : State), reaches s .pf = true → domExists s d = false →
    exec (.domRightsWrite d v) s = .next s ∧ ∀ half, exec (.epmaskWrite d half v) s = .next s) ∧
  (∀ d (s : State), linkOn s = true → winOpen s d = true →
    (s.doms[d].st = .off →
      (∃ t, exec (.domainEnable d) s = .next t ∧ t.doms[d] = domStart s.doms[d] ∧ domsBut d s t ∧ only [.doms] s t) ∧
      exec (.domainDisable d) s = .next s) ∧
    (s.doms[d].st = .teardown →
      (∃ t, exec (.domainEnable d) s = .next t ∧ t.doms[d] = { s.doms[d] with defer := true } ∧ domsBut d s t ∧
        only [.doms] s t) ∧
      (∃ t, exec (.domainDisable d) s = .next t ∧ t.doms[d] = { s.doms[d] with defer := false } ∧ domsBut d s t ∧
        only [.doms] s t)) ∧
    (s.doms[d].st ≠ .off → s.doms[d].st ≠ .teardown →
      exec (.domainEnable d) s = .next s ∧
      (∃ t, exec (.domainDisable d) s = .next t ∧ t.doms[d].st = .teardown ∧ t.doms[d].en = false ∧
        t.doms[d].tdCause = 1 ∧ t.doms[d].cmdQ = [] ∧ t.doms[d].evq = [] ∧ t.hma.reqs[d.val]? = some [] ∧
        vAt t.ula.reqs [] (20 + d.val) = [] ∧
        (∀ k : EpN, s.ln.eps[k].owner = d →
          t.ln.eps[k].full = false ∧ t.ln.eps[k].descs = [] ∧ t.ln.eps[k].ring = false) ∧
        (∀ k : EpN, s.ln.eps[k].owner ≠ d → t.ln.eps[k] = s.ln.eps[k]) ∧ domsBut d s t ∧
        only [.mtr, .aon, .pcie, .doms, .ln, .hma, .ula, .que, .out] s t)) ∧
    ((s.doms[d].st = .run ∨ s.doms[d].st = .fault) →
      ∃ t, exec (.resyncGo d) s = .next t ∧ t.doms[d].st = .easy ∧ t.doms[d].busy = true ∧ t.doms[d].cmdQ = [] ∧
        t.doms[d].cmdNext = s.doms[d].cmdNext - w16 s.doms[d].cmdQ.length ∧ t.doms[d].goStat = domStat s d ∧
        domsBut d s t ∧ only [.doms, .hma, .que] s t) ∧
    (s.doms[d].st ≠ .run → s.doms[d].st ≠ .fault →
      ∃ t, exec (.resyncGo d) s = .next t ∧ t.doms[d] = { s.doms[d] with ign := satInc 255 s.doms[d].ign } ∧
        domsBut d s t ∧ only [.doms] s t)) ∧
  (∀ d (s : State), linkOn s = true →
    ((s.doms[d].st ≠ .teardown ∨ quiesced s d = false) → exec (.teardownComplete d) s = .next s) ∧
    (s.doms[d].st = .teardown → quiesced s d = true →
      ∃ t, exec (.teardownComplete d) s = .next t ∧
        t.doms[d].st = (if s.doms[d].defer = true then .run else .off) ∧
        (∀ k : EpN, t.ln.eps[k] = if s.ln.eps[k].owner = d then { s.ln.eps[k] with owner := 0 } else s.ln.eps[k]) ∧
        (s.doms[d].tdCause = 1 → t.doms[d].teardowns = satInc 255 s.doms[d].teardowns ∧ t.doms[d].denied = 0) ∧
        logsLink s t 0x50 d.val (w16 s.doms[d].tdCause) (tearEvent s d).w4 ∧
        (d ≠ 0 → s.doms[(0 : DomN)].st = .run →
          t.doms[(0 : DomN)].evSeq = (s.doms[(0 : DomN)].evSeq + 1) % 32768) ∧
        only [.wdt, .bb, .aon, .pcie, .doms, .ln, .hma, .ula, .que, .out] s t) ∧
    (easyReached s d = true →
      ∃ t, exec (.easyState d) s = .next t ∧ t.doms[d].st = .summary ∧ t.doms[d].block = summaryBlock s d ∧
        t.doms[d].sumAt = 0 ∧ domsBut d s t ∧ only [.doms, .hma] s t) ∧
    (easyReached s d = false → exec (.easyState d) s = .next s) ∧
    (pathHeld s (.block d) = true → s.hma.arb.holder = some 17 →
      ∃ t, exec (.summaryDone d) s = .next t ∧ t.doms[d].st = .run ∧ t.doms[d].busy = false ∧
        t.doms[d].sumSeq = s.doms[d].sumSeq + 1#16 ∧ t.doms[d].cmdRing = .running ∧
        t.doms[d].cmdPi = s.doms[d].cmdNext ∧ t.hma.arb.holder = none ∧ t.que.watches.contains (d, false) = true ∧
        (∀ p, nextWrite s (.block d) = some p → wrote t d p) ∧
        (∀ k : EpN, s.ln.eps[k].owner = d → s.ln.eps[k].ring = true → t.ln.eps[k].pi = s.ln.eps[k].next) ∧
        only [.aon, .pcie, .doms, .ln, .hma, .que, .out] s t) ∧
    (pathHeld s (.block d) = false → exec (.summaryDone d) s = .next s)) ∧
  (∀ d (s : State), (summaryBlock s d).length = 1024)
end

