-- ==== Sys2Proof/Laws/Tables.lean ====
section
/-! SUPPORT. The laws of sparse tables and of endpoint memory: every operation keeps the canonical form,
and what is written is what is read. -/

set_option linter.all false

namespace Sys2Proof.Machine

open Sys2Proof

@[simp] theorem tabWf_del {α : Type} [DecidableEq α] (d : α) (k : Nat) : ∀ t : List (Nat × α), tabWf d t = true → tabWf d (tabDel k t) = true
  | [], _ => rfl
  | (j, a) :: t, h => by
    simp only [tabWf, Bool.and_eq_true, List.all_eq_true] at h
    have ih := tabWf_del d k t h.2
    unfold tabDel at ih ⊢
    rw [List.filter_cons]
    split
    · simp only [tabWf, Bool.and_eq_true, List.all_eq_true]
      exact ⟨⟨h.1.1, fun e he => h.1.2 e (List.mem_of_mem_filter he)⟩, ih⟩
    · exact ih

@[simp] theorem tabWf_filter {α : Type} [DecidableEq α] (d : α) (f : Nat × α → Bool) : ∀ t : List (Nat × α), tabWf d t = true → tabWf d (t.filter f) = true
  | [], _ => rfl
  | (j, a) :: t, h => by
    simp only [tabWf, Bool.and_eq_true, List.all_eq_true] at h
    have ih := tabWf_filter d f t h.2
    rw [List.filter_cons]
    split
    · simp only [tabWf, Bool.and_eq_true, List.all_eq_true]
      exact ⟨⟨h.1.1, fun e he => h.1.2 e (List.mem_of_mem_filter he)⟩, ih⟩
    · exact ih

theorem mem_tabPut {α : Type} (k : Nat) (a : α) : ∀ (t : List (Nat × α)) (e : Nat × α), e ∈ tabPut k a t → e = (k, a) ∨ e ∈ t
  | [], e, h => by simpa [tabPut] using h
  | (j, b) :: t, e, h => by
    unfold tabPut at h
    split at h
    · simpa using h
    · split at h
      · rcases List.mem_cons.mp h with h | h
        · exact .inl h
        · exact .inr (List.mem_cons_of_mem _ h)
      · rcases List.mem_cons.mp h with h | h
        · exact .inr (h ▸ List.mem_cons_self)
        · rcases mem_tabPut k a t e h with h | h
          · exact .inl h
          · exact .inr (List.mem_cons_of_mem _ h)

theorem tabWf_put {α : Type} [DecidableEq α] (d : α) (k : Nat) (a : α) (ha : a ≠ d) : ∀ t : List (Nat × α), tabWf d t = true → tabWf d (tabPut k a t) = true
  | [], _ => by simp [tabPut, tabWf, ha]
  | (j, b) :: t, h => by
    have hw := h
    simp only [tabWf, Bool.and_eq_true, List.all_eq_true, decide_eq_true_eq] at h
    unfold tabPut
    split
    · rename_i hk
      simp only [tabWf, Bool.and_eq_true, List.all_eq_true, decide_eq_true_eq, bne_iff_ne, ne_eq, ha, not_false_eq_true, true_and]
      refine ⟨fun e he => ?_, ?_⟩
      · rcases List.mem_cons.mp he with rfl | he
        · exact hk
        · exact Nat.lt_trans hk (h.1.2 e he)
      · simpa [tabWf] using hw
    · split
      · rename_i hk; subst hk
        simp only [tabWf, Bool.and_eq_true, List.all_eq_true, decide_eq_true_eq, bne_iff_ne, ne_eq, ha, not_false_eq_true, true_and]
        exact ⟨h.1.2, h.2⟩
      · rename_i h1 h2
        simp only [tabWf, Bool.and_eq_true, List.all_eq_true, decide_eq_true_eq]
        refine ⟨⟨h.1.1, fun e he => ?_⟩, tabWf_put d k a ha t h.2⟩
        rcases mem_tabPut k a t e he with rfl | he
        · simp only; omega
        · exact h.1.2 e he

@[simp] theorem tabWf_set {α : Type} [DecidableEq α] (d : α) (t : List (Nat × α)) (k : Nat) (a : α) (h : tabWf d t = true) : tabWf d (tabSet d t k a) = true := by
  unfold tabSet; split
  · exact tabWf_del d k t h
  · exact tabWf_put d k a ‹_› t h

@[simp] theorem tabWf_setRange {α : Type} [DecidableEq α] (d : α) : ∀ (l : List α) (t : List (Nat × α)) (k : Nat), tabWf d t = true → tabWf d (tabSetRange d t k l) = true
  | [], _, _, h => h
  | a :: l, t, k, h => tabWf_setRange d l _ _ (tabWf_set d t k a h)

@[simp] theorem tabWf_nil {α : Type} [DecidableEq α] (d : α) : tabWf d ([] : List (Nat × α)) = true := rfl

/-- Writing bytes of endpoint memory keeps its canonical form. -/
@[simp] theorem memWrite_wf (m : List Host.Cell) (a : Nat) (bs : List Nat) (h : tabWf 0#8 m = true) :
    tabWf 0#8 (memWrite m a bs) = true := tabWf_setRange _ _ _ _ h

theorem tabGet_del {α : Type} (d : α) (k j : Nat) : ∀ t : List (Nat × α),
    tabGet d (tabDel k t) j = if j = k then d else tabGet d t j
  | [] => by simp [tabDel, tabGet]
  | (i, a) :: t => by
    have ih := tabGet_del d k j t
    unfold tabDel at ih ⊢
    rw [List.filter_cons]
    by_cases hi : i = k
    · subst hi
      by_cases hj : j = i
      · subst hj; simpa [tabGet] using ih
      · have : ¬ i = j := fun h => hj h.symm
        simpa [tabGet, hj, this] using ih
    · by_cases hj : i = j
      · subst hj; simp [tabGet, hi]
      · simp [tabGet, hi, hj, ih]

theorem tabGet_above {α : Type} [DecidableEq α] (d : α) (k : Nat) : ∀ t : List (Nat × α),
    (∀ e ∈ t, k < e.1) → tabGet d t k = d
  | [], _ => rfl
  | (i, a) :: t, h => by
    have h1 : k < i := h (i, a) List.mem_cons_self
    have h2 : ¬ i = k := by omega
    simp [tabGet, h2, tabGet_above d k t fun e he => h e (List.mem_cons_of_mem _ he)]

theorem tabGet_put {α : Type} (d : α) (k : Nat) (a : α) (j : Nat) : ∀ t : List (Nat × α),
    tabGet d (tabPut k a t) j = if j = k then a else tabGet d t j
  | [] => by
    by_cases h : k = j
    · subst h; simp [tabPut, tabGet]
    · have : ¬ j = k := fun x => h x.symm
      simp [tabPut, tabGet, h, this]
  | (i, b) :: t => by
    have ih := tabGet_put d k a j t
    unfold tabPut
    split
    · by_cases h : k = j
      · subst h; simp [tabGet]
      · have : ¬ j = k := fun x => h x.symm
        simp [tabGet, h, this]
    · split
      · rename_i h; subst h
        by_cases h : k = j
        · subst h; simp [tabGet]
        · have : ¬ j = k := fun x => h x.symm
          simp [tabGet, h, this]
      · rename_i h1 h2
        by_cases h : i = j
        · subst h
          have : ¬ i = k := fun x => h2 x.symm
          simp [tabGet, this]
        · simp [tabGet, h, ih]

/-- Read after write: the key written reads as what was written, every other key as before. -/
theorem tabGet_set {α : Type} [DecidableEq α] (d : α) (t : List (Nat × α)) (k : Nat) (a : α) (j : Nat) :
    tabGet d (tabSet d t k a) j = if j = k then a else tabGet d t j := by
  unfold tabSet
  split
  · rename_i h; subst h; exact tabGet_del _ _ _ _
  · exact tabGet_put _ _ _ _ _

/-- A range of keys: outside it nothing changes. -/
theorem tabGet_setRange_out {α : Type} [DecidableEq α] (d : α) (j : Nat) : ∀ (l : List α) (t : List (Nat × α)) (k : Nat),
    j < k ∨ k + l.length ≤ j → tabGet d (tabSetRange d t k l) j = tabGet d t j
  | [], _, _, _ => rfl
  | a :: l, t, k, h => by
    have hl : (a :: l).length = l.length + 1 := rfl
    have h1 : j < k + 1 ∨ k + 1 + l.length ≤ j := by omega
    have h2 : ¬ j = k := by omega
    exact (tabGet_setRange_out d j l _ (k + 1) h1).trans (by rw [tabGet_set]; simp [h2])

/-- A range of keys: inside it each key reads as its value. -/
theorem tabGet_setRange_in {α : Type} [DecidableEq α] (d : α) : ∀ (l : List α) (t : List (Nat × α)) (k i : Nat) (h : i < l.length),
    tabGet d (tabSetRange d t k l) (k + i) = l[i]
  | a :: l, t, k, 0, _ => by
    have h1 : tabGet d (tabSetRange d (tabSet d t k a) (k + 1) l) k = tabGet d (tabSet d t k a) k :=
      tabGet_setRange_out d k l _ (k + 1) (.inl (by omega))
    simp only [tabSetRange, Nat.add_zero, List.getElem_cons_zero]
    rw [h1, tabGet_set]; simp
  | a :: l, t, k, i + 1, h => by
    have := tabGet_setRange_in d l (tabSet d t k a) (k + 1) i (Nat.lt_of_succ_lt_succ h)
    simp only [tabSetRange, List.getElem_cons_succ]
    rw [show k + (i + 1) = k + 1 + i by omega]; exact this

/-- A byte of endpoint memory outside the bytes written reads as before. -/
theorem memWrite_out (m : List Host.Cell) (a : Nat) (bs : List Nat) (j : Nat) (h : j < a ∨ a + bs.length ≤ j) :
    tabGet 0#8 (memWrite m a bs) j = tabGet 0#8 m j :=
  tabGet_setRange_out _ _ _ _ _ (by simpa using h)

/-- A byte written is read. -/
theorem memWrite_in (m : List Host.Cell) (a : Nat) (bs : List Nat) (i : Nat) (h : i < bs.length) :
    tabGet 0#8 (memWrite m a bs) (a + i) = BitVec.ofNat 8 bs[i] := by
  have := tabGet_setRange_in 0#8 (bs.map fun b => BitVec.ofNat 8 b) m a i (by simpa using h)
  simpa [memWrite] using this

/-- Storing a black-box entry keeps the slots in canonical form. -/
theorem bbStore_wf (b : Bb) (e : Entry) (h : tabWf Entry.zero b.slots = true) :
    tabWf Entry.zero (bbStore b e).slots = true := by
  unfold bbStore
  split
  · exact h
  · split
    · exact h
    · exact tabWf_set _ _ _ _ h

end Sys2Proof.Machine
end

