-- ==== Sys2Proof/Laws/View.lean ====
section
/-! SUPPORT. What a command keeps, stated once: the view of a state that the invariants speak of, and how
the shared ways of building a state act on it. -/

set_option linter.all false

namespace Sys2Proof.Machine

open Sys2Proof

/-- What the invariants of the step speak of: the queue, WDT_LOCK, endpoint memory, the multicast table and the
schedules. -/
def view (s : State) : List Instr × Bool × List Host.Cell × List (Nat × McEnt) × List (Nat × Word) :=
  (s.pending, s.wdt.lock, s.ln.mem, s.bus.mc, s.bus.sched)

/-- The parts that the view shows, as the view. -/

theorem parts (s : State) : s.pending = (view s).1 ∧ s.wdt.lock = (view s).2.1 ∧ s.ln.mem = (view s).2.2.1 ∧
    s.bus.mc = (view s).2.2.2.1 ∧ s.bus.sched = (view s).2.2.2.2 := ⟨rfl, rfl, rfl, rfl, rfl⟩

@[simp] theorem view_struct (a b c d e f g h i j k l m n o p q r t u v w x y z aa bb) :
    view (State.mk a b c d e f g h i j k l m n o p q r t u v w x y z aa bb) = (a, f.lock, q.mem, x.mc, x.sched) := (rfl)

theorem let_cut {P : Prop} (x s : State) (h1 : view x = view s) (h2 : view x = view s → P) : P := h2 h1

/-- What every command but POR keeps of `s0`: the queue, WDT_LOCK once set, and the canonical form of the tables. -/
structure Keeps (s0 : State) (v : List Instr × Bool × List Host.Cell × List (Nat × McEnt) × List (Nat × Word)) : Prop where
  pending : v.1 = s0.pending
  lock : s0.wdt.lock = true → v.2.1 = true
  mem : tabWf 0#8 s0.ln.mem = true → tabWf 0#8 v.2.2.1 = true
  mc : tabWf McEnt.zero s0.bus.mc = true → tabWf McEnt.zero v.2.2.2.1 = true
  sched : tabWf 0#16 s0.bus.sched = true → tabWf 0#16 v.2.2.2.2 = true

theorem let_cutK {P : Prop} (x s0 : State) (h1 : Keeps s0 (view x)) (h2 : Keeps s0 (view x) → P) : P := h2 h1

theorem Keeps.refl (s : State) : Keeps s (view s) := ⟨rfl, id, id, id, id⟩

theorem keeps_ite (s0 : State) (c : Prop) [Decidable c] (a b : State) (ha : Keeps s0 (view a)) (hb : Keeps s0 (view b)) :
    Keeps s0 (view (if c then a else b)) := by split <;> assumption

@[simp] theorem keeps_mem (s0 : State) (v) (m : List Host.Cell) (h : Keeps s0 v) (hm : tabWf 0#8 v.2.2.1 = true → tabWf 0#8 m = true) :
    Keeps s0 (v.1, v.2.1, m, v.2.2.2) := ⟨h.1, h.2, fun x => hm (h.3 x), h.4, h.5⟩

@[simp] theorem keeps_mc (s0 : State) (v) (m) (h : Keeps s0 v) (hm : tabWf McEnt.zero v.2.2.2.1 = true → tabWf McEnt.zero m = true) :
    Keeps s0 (v.1, v.2.1, v.2.2.1, m, v.2.2.2.2) := ⟨h.1, h.2, h.3, fun x => hm (h.4 x), h.5⟩

@[simp] theorem keeps_sched (s0 : State) (v) (m) (h : Keeps s0 v) (hm : tabWf 0#16 v.2.2.2.2 = true → tabWf 0#16 m = true) :
    Keeps s0 (v.1, v.2.1, v.2.2.1, v.2.2.2.1, m) := ⟨h.1, h.2, h.3, h.4, fun x => hm (h.5 x)⟩

@[simp] theorem keeps_lock (s0 : State) (v) (b : Bool) (h : Keeps s0 v) (hm : v.2.1 = true → b = true) :
    Keeps s0 (v.1, b, v.2.2) := ⟨h.1, fun x => hm (h.2 x), h.3, h.4, h.5⟩

@[simp] theorem view_ite (c : Prop) [Decidable c] (a b : State) :
    view (if c then a else b) = if c then view a else view b := apply_ite view c a b

@[simp] theorem view_dite (c : Prop) [Decidable c] (a : c → State) (b : ¬c → State) :
    view (dite c a b) = dite c (fun h => view (a h)) (fun h => view (b h)) := apply_dite view c a b

@[simp] theorem forEach_keeps {α : Type} (l : List α) (f : State → α → State) (s0 s : State)
    (h : ∀ a x, Keeps s0 (view a) → Keeps s0 (view (f a x))) (hs : Keeps s0 (view s)) : Keeps s0 (view (forEach l f s)) := by
  induction l generalizing s with
  | nil => exact hs
  | cons a l ih => exact ih (f s a) (h s a hs)

@[simp] theorem foldl_keeps {α : Type} (l : List α) (f : State → α → State) (s0 s : State)
    (h : ∀ a x, Keeps s0 (view a) → Keeps s0 (view (f a x))) (hs : Keeps s0 (view s)) : Keeps s0 (view (l.foldl f s)) :=
  forEach_keeps l f s0 s h hs

@[simp] theorem whenDo_keeps (g : Bool) (f : State → State) (s0 s : State)
    (h : ∀ a, Keeps s0 (view a) → Keeps s0 (view (f a))) (hs : Keeps s0 (view s)) : Keeps s0 (view (whenDo g f s)) := by
  unfold whenDo; split
  · exact h s hs
  · exact hs

@[simp] theorem foldl_view {α : Type} (l : List α) (f : State → α → State) (s : State)
    (h : ∀ a x, view (f a x) = view a) : view (l.foldl f s) = view s := by
  induction l generalizing s with
  | nil => rfl
  | cons a l ih => exact (ih (f s a)).trans (h s a)

end Sys2Proof.Machine
end

