-- ==== Sys2Proof/Laws/KeptLink.lean ====
section
/-! SUPPORT. What the helpers of the shared operations, packets, power budget, ports and training keep of the view of a state: one lemma each. -/

set_option linter.all false

namespace Sys2Proof.Machine

open Sys2Proof

/-! ## Flags -/

@[simp] theorem noteHwm_view (s : State) :
    view (noteHwm s) = view s := by
  unfold noteHwm
  try lift_lets
  repeat' first
    | with_reducible assumption
    | (intro x; with_reducible apply let_cut x s; subst x; swap; clear_value x; intro hx)
    | (intro x; subst x)
    | (simp [*, parts]; done)
    | split

/-! ## Ops -/

@[simp] theorem whenDo_view (g : Bool) (f : State → State) (s : State) (hf : ∀ a0, view (f a0) = view a0) :
    view (whenDo g f s) = view s := by
  unfold whenDo
  try lift_lets
  repeat' first
    | with_reducible assumption
    | (intro x; with_reducible apply let_cut x s; subst x; swap; clear_value x; intro hx)
    | (intro x; subst x)
    | (simp [*, parts]; done)
    | split

@[simp] theorem emit_view (s : State) (o : Out) :
    view (emit s o) = view s := by
  unfold emit
  try lift_lets
  repeat' first
    | with_reducible assumption
    | (intro x; with_reducible apply let_cut x s; subst x; swap; clear_value x; intro hx)
    | (intro x; subst x)
    | (simp [*, parts]; done)
    | split

@[simp] theorem emits_view (s : State) (os : List Out) :
    view (emits s os) = view s := by
  unfold emits
  try lift_lets
  repeat' first
    | with_reducible assumption
    | (intro x; with_reducible apply let_cut x s; subst x; swap; clear_value x; intro hx)
    | (intro x; subst x)
    | (simp [*, parts]; done)
    | split

@[simp] theorem bump_view (s : State) :
    view (bump s) = view s := by
  unfold bump
  try lift_lets
  repeat' first
    | with_reducible assumption
    | (intro x; with_reducible apply let_cut x s; subst x; swap; clear_value x; intro hx)
    | (intro x; subst x)
    | (simp [*, parts]; done)
    | split

@[simp] theorem modPort_view (s : State) (n : PortN) (f : Port → Port) :
    view (modPort s n f) = view s := by
  unfold modPort
  try lift_lets
  repeat' first
    | with_reducible assumption
    | (intro x; with_reducible apply let_cut x s; subst x; swap; clear_value x; intro hx)
    | (intro x; subst x)
    | (simp [*, parts]; done)
    | split

@[simp] theorem modAon_view (s : State) (n : PortN) (f : AonPort → AonPort) :
    view (modAon s n f) = view s := by
  unfold modAon
  try lift_lets
  repeat' first
    | with_reducible assumption
    | (intro x; with_reducible apply let_cut x s; subst x; swap; clear_value x; intro hx)
    | (intro x; subst x)
    | (simp [*, parts]; done)
    | split

@[simp] theorem modPps_view (s : State) (m : DnN) (f : Pps → Pps) :
    view (modPps s m f) = view s := by
  unfold modPps
  try lift_lets
  repeat' first
    | with_reducible assumption
    | (intro x; with_reducible apply let_cut x s; subst x; swap; clear_value x; intro hx)
    | (intro x; subst x)
    | (simp [*, parts]; done)
    | split

@[simp] theorem modDom_view (s : State) (d : DomN) (f : Dom → Dom) :
    view (modDom s d f) = view s := by
  unfold modDom
  try lift_lets
  repeat' first
    | with_reducible assumption
    | (intro x; with_reducible apply let_cut x s; subst x; swap; clear_value x; intro hx)
    | (intro x; subst x)
    | (simp [*, parts]; done)
    | split

@[simp] theorem modEp_view (s : State) (k : EpN) (f : Ep → Ep) : view (modEp s k f) = view s := (rfl)

@[simp] theorem modFn_view (s : State) (d : DomN) (f : Fn → Fn) :
    view (modFn s d f) = view s := by
  unfold modFn
  try lift_lets
  repeat' first
    | with_reducible assumption
    | (intro x; with_reducible apply let_cut x s; subst x; swap; clear_value x; intro hx)
    | (intro x; subst x)
    | (simp [*, parts]; done)
    | split

@[simp] theorem modCrew_view (s : State) (k : CrewN) (f : Crew → Crew) :
    view (modCrew s k f) = view s := by
  unfold modCrew
  try lift_lets
  repeat' first
    | with_reducible assumption
    | (intro x; with_reducible apply let_cut x s; subst x; swap; clear_value x; intro hx)
    | (intro x; subst x)
    | (simp [*, parts]; done)
    | split

@[simp] theorem modSlot_view (s : State) (j : Fin 48) (f : Option Slot → Option Slot) :
    view (modSlot s j f) = view s := by
  unfold modSlot
  try lift_lets
  repeat' first
    | with_reducible assumption
    | (intro x; with_reducible apply let_cut x s; subst x; swap; clear_value x; intro hx)
    | (intro x; subst x)
    | (simp [*, parts]; done)
    | split

@[simp] theorem bbPow_view (s : State) (code : Nat) (src : Nat) (w2 : Word) (w3 : Word) :
    view (bbPow s code src w2 w3) = view s := by
  unfold bbPow
  try lift_lets
  repeat' first
    | with_reducible assumption
    | (intro x; with_reducible apply let_cut x s; subst x; swap; clear_value x; intro hx)
    | (intro x; subst x)
    | (simp [*, parts]; done)
    | split

@[simp] theorem bbLink_view (s : State) (code : Nat) (src : Nat) (w2 : Word) (w3 : Word) :
    view (bbLink s code src w2 w3) = view s := by
  unfold bbLink
  try lift_lets
  repeat' first
    | with_reducible assumption
    | (intro x; with_reducible apply let_cut x s; subst x; swap; clear_value x; intro hx)
    | (intro x; subst x)
    | (simp [*, parts]; done)
    | split

@[simp] theorem drivePeWake_view (s : State) :
    view (drivePeWake s) = view s := by
  unfold drivePeWake
  try lift_lets
  repeat' first
    | with_reducible assumption
    | (intro x; with_reducible apply let_cut x s; subst x; swap; clear_value x; intro hx)
    | (intro x; subst x)
    | (simp [*, parts]; done)
    | split

@[simp] theorem raiseTo_view (s : State) (hit : DomN → Bool) (force : Bool) (ticks : Nat) (e : Ev) :
    view (raiseTo s hit force ticks e) = view s := by
  unfold raiseTo
  try lift_lets
  repeat' first
    | with_reducible assumption
    | (intro x; with_reducible apply let_cut x s; subst x; swap; clear_value x; intro hx)
    | (intro x; subst x)
    | (simp [*, parts]; done)
    | split

@[simp] theorem raise_view (s : State) (e : Ev) :
    view (raise s e) = view s := by
  unfold raise
  try lift_lets
  repeat' first
    | with_reducible assumption
    | (intro x; with_reducible apply let_cut x s; subst x; swap; clear_value x; intro hx)
    | (intro x; subst x)
    | (simp [*, parts]; done)
    | split

@[simp] theorem raiseDom_view (s : State) (d : DomN) (force : Bool) (e : Ev) :
    view (raiseDom s d force e) = view s := by
  unfold raiseDom
  try lift_lets
  repeat' first
    | with_reducible assumption
    | (intro x; with_reducible apply let_cut x s; subst x; swap; clear_value x; intro hx)
    | (intro x; subst x)
    | (simp [*, parts]; done)
    | split

@[simp] theorem portEvt_view (s : State) (n : PortN) (bits : Word) :
    view (portEvt s n bits) = view s := by
  unfold portEvt
  try lift_lets
  repeat' first
    | with_reducible assumption
    | (intro x; with_reducible apply let_cut x s; subst x; swap; clear_value x; intro hx)
    | (intro x; subst x)
    | (simp [*, parts]; done)
    | split

@[simp] theorem forEach_view {α : Type} (l : List α) (f : State → α → State) (s : State)
    (h : ∀ a x, view (f a x) = view a) : view (forEach l f s) = view s := by
  induction l generalizing s with
  | nil => rfl
  | cons a l ih => exact (ih (f s a)).trans (h s a)

/-! ## HostQueue -/

@[simp] theorem sendPmes_view (s : State) :
    view (sendPmes s) = view s := by
  unfold sendPmes
  try lift_lets
  repeat' first
    | with_reducible assumption
    | (intro x; with_reducible apply let_cut x s; subst x; swap; clear_value x; intro hx)
    | (intro x; subst x)
    | (simp [*, parts]; done)
    | split

@[simp] theorem leaveL1_view (s : State) :
    view (leaveL1 s) = view s := by
  unfold leaveL1
  try lift_lets
  repeat' first
    | with_reducible assumption
    | (intro x; with_reducible apply let_cut x s; subst x; swap; clear_value x; intro hx)
    | (intro x; subst x)
    | (simp [*, parts]; done)
    | split

@[simp] theorem toHost_view (s : State) (o : Out) :
    view (toHost s o) = view s := by
  unfold toHost
  try lift_lets
  repeat' first
    | with_reducible assumption
    | (intro x; with_reducible apply let_cut x s; subst x; swap; clear_value x; intro hx)
    | (intro x; subst x)
    | (simp [*, parts]; done)
    | split

@[simp] theorem advance_view (s : State) (p : Piece) (x0 : HReq) :
    view (advance s p x0) = view s := by
  unfold advance
  try lift_lets
  repeat' first
    | with_reducible assumption
    | (intro x; with_reducible apply let_cut x s; subst x; swap; clear_value x; intro hx)
    | (intro x; subst x)
    | (simp [*, parts]; done)
    | split

@[simp] theorem putWrite_view (s : State) (q : HReq) (p : Piece) :
    view (putWrite s q p) = view s := by
  unfold putWrite
  try lift_lets
  repeat' first
    | with_reducible assumption
    | (intro x; with_reducible apply let_cut x s; subst x; swap; clear_value x; intro hx)
    | (intro x; subst x)
    | (simp [*, parts]; done)
    | split

@[simp] theorem setQueue_view (s : State) (r : Nat) (l : List HReq) :
    view (setQueue s r l) = view s := by
  unfold setQueue
  try lift_lets
  repeat' first
    | with_reducible assumption
    | (intro x; with_reducible apply let_cut x s; subst x; swap; clear_value x; intro hx)
    | (intro x; subst x)
    | (simp [*, parts]; done)
    | split

@[simp] theorem feedOne_view (s : State) (d : DomN) :
    view (feedOne s d) = view s := by
  unfold feedOne
  try lift_lets
  repeat' first
    | with_reducible assumption
    | (intro x; with_reducible apply let_cut x s; subst x; swap; clear_value x; intro hx)
    | (intro x; subst x)
    | (simp [*, parts]; done)
    | split

@[simp] theorem tidy_view (s : State) (r : Nat) :
    view (tidy s r) = view s := by
  unfold tidy
  try lift_lets
  repeat' first
    | with_reducible assumption
    | (intro x; with_reducible apply let_cut x s; subst x; swap; clear_value x; intro hx)
    | (intro x; subst x)
    | (simp [*, parts]; done)
    | split

@[simp] theorem hmaAsk_view (s : State) (r : Nat) (q : HReq) :
    view (hmaAsk s r q) = view s := by
  unfold hmaAsk
  try lift_lets
  repeat' first
    | with_reducible assumption
    | (intro x; with_reducible apply let_cut x s; subst x; swap; clear_value x; intro hx)
    | (intro x; subst x)
    | (simp [*, parts]; done)
    | split

@[simp] theorem dueMsg_view (s : State) (d : DomN) (v : Nat) :
    view (dueMsg s d v) = view s := by
  unfold dueMsg
  try lift_lets
  repeat' first
    | with_reducible assumption
    | (intro x; with_reducible apply let_cut x s; subst x; swap; clear_value x; intro hx)
    | (intro x; subst x)
    | (simp [*, parts]; done)
    | split

@[simp] theorem hmaDone_view (s : State) (r : Nat) :
    view (hmaDone s r) = view s := by
  unfold hmaDone
  try lift_lets
  repeat' first
    | with_reducible assumption
    | (intro x; with_reducible apply let_cut x s; subst x; swap; clear_value x; intro hx)
    | (intro x; subst x)
    | (simp [*, parts]; done)
    | split

@[simp] theorem holdPath_view (s : State) (r : Nat) (q : HReq) :
    view (holdPath s r q) = view s := by
  unfold holdPath
  try lift_lets
  repeat' first
    | with_reducible assumption
    | (intro x; with_reducible apply let_cut x s; subst x; swap; clear_value x; intro hx)
    | (intro x; subst x)
    | (simp [*, parts]; done)
    | split

@[simp] theorem issueLast_view (s : State) (r : Nat) (q : HReq) :
    view (issueLast s r q) = view s := by
  unfold issueLast
  try lift_lets
  repeat' first
    | with_reducible assumption
    | (intro x; with_reducible apply let_cut x s; subst x; swap; clear_value x; intro hx)
    | (intro x; subst x)
    | (simp [*, parts]; done)
    | split

@[simp] theorem endGrant_view (s : State) (r : Nat) (q : HReq) :
    view (endGrant s r q) = view s := by
  unfold endGrant
  try lift_lets
  repeat' first
    | with_reducible assumption
    | (intro x; with_reducible apply let_cut x s; subst x; swap; clear_value x; intro hx)
    | (intro x; subst x)
    | (simp [*, parts]; done)
    | split

@[simp] theorem issueGranted_view (s : State) (d : DomN) :
    view (issueGranted s d) = view s := by
  unfold issueGranted
  try lift_lets
  repeat' first
    | with_reducible assumption
    | (intro x; with_reducible apply let_cut x s; subst x; swap; clear_value x; intro hx)
    | (intro x; subst x)
    | (simp [*, parts]; done)
    | split

@[simp] theorem cutDrain_view (s : State) (k : EpN) :
    view (cutDrain s k) = view s := by
  unfold cutDrain
  try lift_lets
  repeat' first
    | with_reducible assumption
    | (intro x; with_reducible apply let_cut x s; subst x; swap; clear_value x; intro hx)
    | (intro x; subst x)
    | (simp [*, parts]; done)
    | split

@[simp] theorem askRead_view (s : State) (r : Nat) (d : DomN) (u : ReadUse) :
    view (askRead s r d u) = view s := by
  unfold askRead
  try lift_lets
  repeat' first
    | with_reducible assumption
    | (intro x; with_reducible apply let_cut x s; subst x; swap; clear_value x; intro hx)
    | (intro x; subst x)
    | (simp [*, parts]; done)
    | split

/-! ## Packet -/

@[simp] theorem sendCrd_view (s : State) (n : PortN) :
    view (sendCrd s n) = view s := by
  unfold sendCrd
  try lift_lets
  repeat' first
    | with_reducible assumption
    | (intro x; with_reducible apply let_cut x s; subst x; swap; clear_value x; intro hx)
    | (intro x; subst x)
    | (simp [*, parts]; done)
    | split

@[simp] theorem wakeTx_view (s : State) (n : PortN) :
    view (wakeTx s n) = view s := by
  unfold wakeTx
  try lift_lets
  repeat' first
    | with_reducible assumption
    | (intro x; with_reducible apply let_cut x s; subst x; swap; clear_value x; intro hx)
    | (intro x; subst x)
    | (simp [*, parts]; done)
    | split

@[simp] theorem stayLit_view (s : State) (n : PortN) :
    view (stayLit s n) = view s := by
  unfold stayLit
  try lift_lets
  repeat' first
    | with_reducible assumption
    | (intro x; with_reducible apply let_cut x s; subst x; swap; clear_value x; intro hx)
    | (intro x; subst x)
    | (simp [*, parts]; done)
    | split

@[simp] theorem returnCredits_view (s : State) (n : PortN) (nonPer : Bool) (k : Nat) :
    view (returnCredits s n nonPer k) = view s := by
  unfold returnCredits
  try lift_lets
  repeat' first
    | with_reducible assumption
    | (intro x; with_reducible apply let_cut x s; subst x; swap; clear_value x; intro hx)
    | (intro x; subst x)
    | (simp [*, parts]; done)
    | split

@[simp] theorem putTsAt_view (s : State) (n : PortN) (r : Nat) (k : TsKind) (a0 a1 : Word) :
    view (putTsAt s n r k a0 a1) = view s := by
  unfold putTsAt
  try lift_lets
  repeat' first
    | with_reducible assumption
    | (intro x; with_reducible apply let_cut x s; subst x; swap; clear_value x; intro hx)
    | (intro x; subst x)
    | (simp [*, parts]; done)
    | split

@[simp] theorem putTs_view (s : State) (n : PortN) (k : TsKind) (a0 : Word) (a1 : Word) :
    view (putTs s n k a0 a1) = view s := by
  unfold putTs
  try lift_lets
  repeat' first
    | with_reducible assumption
    | (intro x; with_reducible apply let_cut x s; subst x; swap; clear_value x; intro hx)
    | (intro x; subst x)
    | (simp [*, parts]; done)
    | split

@[simp] theorem sendTs_view (s : State) (n : PortN) (k : TsKind) (a0 : Word) (a1 : Word) :
    view (sendTs s n k a0 a1) = view s := by
  unfold sendTs
  try lift_lets
  repeat' first
    | with_reducible assumption
    | (intro x; with_reducible apply let_cut x s; subst x; swap; clear_value x; intro hx)
    | (intro x; subst x)
    | (simp [*, parts]; done)
    | split

@[simp] theorem sendTs2_view (s : State) (n : PortN) (k : TsKind) (a0 : Word) (a1 : Word) :
    view (sendTs2 s n k a0 a1) = view s := by
  unfold sendTs2
  try lift_lets
  repeat' first
    | with_reducible assumption
    | (intro x; with_reducible apply let_cut x s; subst x; swap; clear_value x; intro hx)
    | (intro x; subst x)
    | (simp [*, parts]; done)
    | split

@[simp] theorem flushTs_view (s : State) (n : PortN) :
    view (flushTs s n) = view s := by
  unfold flushTs
  try lift_lets
  repeat' first
    | with_reducible assumption
    | (intro x; with_reducible apply let_cut x s; subst x; swap; clear_value x; intro hx)
    | (intro x; subst x)
    | (simp [*, parts]; done)
    | split

@[simp] theorem tallyTry_view (s : State) (n : PortN) :
    view (tallyTry s n) = view s := by
  unfold tallyTry
  try lift_lets
  repeat' first
    | with_reducible assumption
    | (intro x; with_reducible apply let_cut x s; subst x; swap; clear_value x; intro hx)
    | (intro x; subst x)
    | (simp [*, parts]; done)
    | split

@[simp] theorem wantTally_view (s : State) (n : PortN) :
    view (wantTally s n) = view s := by
  unfold wantTally
  try lift_lets
  repeat' first
    | with_reducible assumption
    | (intro x; with_reducible apply let_cut x s; subst x; swap; clear_value x; intro hx)
    | (intro x; subst x)
    | (simp [*, parts]; done)
    | split

@[simp] theorem boundary_view (s : State) (n : PortN) :
    view (boundary s n) = view s := by
  unfold boundary
  try lift_lets
  repeat' first
    | with_reducible assumption
    | (intro x; with_reducible apply let_cut x s; subst x; swap; clear_value x; intro hx)
    | (intro x; subst x)
    | (simp [*, parts]; done)
    | split

@[simp] theorem sweepRx_view (s : State) :
    view (sweepRx s) = view s := by
  unfold sweepRx
  try lift_lets
  repeat' first
    | with_reducible assumption
    | (intro x; with_reducible apply let_cut x s; subst x; swap; clear_value x; intro hx)
    | (intro x; subst x)
    | (simp [*, parts]; done)
    | split

@[simp] theorem closeEab_view (s : State) (n : PortN) (reason : Nat) (whole : Bool) :
    view (closeEab s n reason whole) = view s := by
  unfold closeEab
  try lift_lets
  repeat' first
    | with_reducible assumption
    | (intro x; with_reducible apply let_cut x s; subst x; swap; clear_value x; intro hx)
    | (intro x; subst x)
    | (simp [*, parts]; done)
    | split

@[simp] theorem newFrame_view (s : State) :
    view (newFrame s) = view s := by
  unfold newFrame
  try lift_lets
  repeat' first
    | with_reducible assumption
    | (intro x; with_reducible apply let_cut x s; subst x; swap; clear_value x; intro hx)
    | (intro x; subst x)
    | (simp [*, parts]; done)
    | split

@[simp] theorem meterStop_view (s : State) :
    view (meterStop s) = view s := by
  unfold meterStop
  try lift_lets
  repeat' first
    | with_reducible assumption
    | (intro x; with_reducible apply let_cut x s; subst x; swap; clear_value x; intro hx)
    | (intro x; subst x)
    | (simp [*, parts]; done)
    | split

@[simp] theorem closeSusp_view (s : State) (reason : Nat) (whole : Bool) :
    view (closeSusp s reason whole) = view s := by
  unfold closeSusp
  try lift_lets
  repeat' first
    | with_reducible assumption
    | (intro x; with_reducible apply let_cut x s; subst x; swap; clear_value x; intro hx)
    | (intro x; subst x)
    | (simp [*, parts]; done)
    | split

@[simp] theorem endTx_view (s : State) (n : PortN) (reason : Nat) :
    view (endTx s n reason) = view s := by
  unfold endTx
  try lift_lets
  repeat' first
    | with_reducible assumption
    | (intro x; with_reducible apply let_cut x s; subst x; swap; clear_value x; intro hx)
    | (intro x; subst x)
    | (simp [*, parts]; done)
    | split

@[simp] theorem stompCopies_view (s : State) (pid : Nat) (reason : Nat) (whole : Bool) :
    view (stompCopies s pid reason whole) = view s := by
  unfold stompCopies
  try lift_lets
  repeat' first
    | with_reducible assumption
    | (intro x; with_reducible apply let_cut x s; subst x; swap; clear_value x; intro hx)
    | (intro x; subst x)
    | (simp [*, parts]; done)
    | split

@[simp] theorem spoilRx_view (s : State) (n : PortN) (pid : Nat) (reason : Nat) :
    view (spoilRx s n pid reason) = view s := by
  unfold spoilRx
  try lift_lets
  repeat' first
    | with_reducible assumption
    | (intro x; with_reducible apply let_cut x s; subst x; swap; clear_value x; intro hx)
    | (intro x; subst x)
    | (simp [*, parts]; done)
    | split

@[simp] theorem dropRx_view (s : State) (n : PortN) (pid : Nat) (reason : Nat) (whole : Bool) :
    view (dropRx s n pid reason whole) = view s := by
  unfold dropRx
  try lift_lets
  repeat' first
    | with_reducible assumption
    | (intro x; with_reducible apply let_cut x s; subst x; swap; clear_value x; intro hx)
    | (intro x; subst x)
    | (simp [*, parts]; done)
    | split

@[simp] theorem dropAnswer_view (s : State) (j : Fin 48) :
    view (dropAnswer s j) = view s := by
  unfold dropAnswer
  try lift_lets
  repeat' first
    | with_reducible assumption
    | (intro x; with_reducible apply let_cut x s; subst x; swap; clear_value x; intro hx)
    | (intro x; subst x)
    | (simp [*, parts]; done)
    | split

@[simp] theorem forgetSlot_view (s : State) (j : Fin 48) (c : Nat) :
    view (forgetSlot s j c) = view s := by
  unfold forgetSlot
  try lift_lets
  repeat' first
    | with_reducible assumption
    | (intro x; with_reducible apply let_cut x s; subst x; swap; clear_value x; intro hx)
    | (intro x; subst x)
    | (simp [*, parts]; done)
    | split

@[simp] theorem ulaPush_view (s : State) (r : Nat) (t : TxPkt) :
    view (ulaPush s r t) = view s := by
  unfold ulaPush
  try lift_lets
  repeat' first
    | with_reducible assumption
    | (intro x; with_reducible apply let_cut x s; subst x; swap; clear_value x; intro hx)
    | (intro x; subst x)
    | (simp [*, parts]; done)
    | split

/-! ## Budget -/

@[simp] theorem evBudget_view (s : State) (src : Nat) :
    view (evBudget s src) = view s := by
  unfold evBudget
  try lift_lets
  repeat' first
    | with_reducible assumption
    | (intro x; with_reducible apply let_cut x s; subst x; swap; clear_value x; intro hx)
    | (intro x; subst x)
    | (simp [*, parts]; done)
    | split

@[simp] theorem classGrant_view (s : State) (m : DnN) (c : Nat) :
    view (classGrant s m c) = view s := by
  unfold classGrant
  try lift_lets
  repeat' first
    | with_reducible assumption
    | (intro x; with_reducible apply let_cut x s; subst x; swap; clear_value x; intro hx)
    | (intro x; subst x)
    | (simp [*, parts]; done)
    | split

/-! ## Walk -/

@[simp] theorem engineUp_view (s : State) (p : Pkt) (act : OnEop) :
    view (engineUp s p act) = view s := by
  unfold engineUp
  try lift_lets
  repeat' first
    | with_reducible assumption
    | (intro x; with_reducible apply let_cut x s; subst x; swap; clear_value x; intro hx)
    | (intro x; subst x)
    | (simp [*, parts]; done)
    | split

@[simp] theorem sendAt_view (s : State) (m : DnN) (ord : Nat) (p : Pkt) (act : OnEop) :
    view (sendAt s m ord p act) = view s := by
  unfold sendAt
  try lift_lets
  repeat' first
    | with_reducible assumption
    | (intro x; with_reducible apply let_cut x s; subst x; swap; clear_value x; intro hx)
    | (intro x; subst x)
    | (simp [*, parts]; done)
    | split

@[simp] theorem sendDown_view (s : State) (m : DnN) (p : Pkt) (act : OnEop) :
    view (sendDown s m p act) = view s := by
  unfold sendDown
  try lift_lets
  repeat' first
    | with_reducible assumption
    | (intro x; with_reducible apply let_cut x s; subst x; swap; clear_value x; intro hx)
    | (intro x; subst x)
    | (simp [*, parts]; done)
    | split

@[simp] theorem setWalk_view (s : State) (w : Walk) :
    view (setWalk s w) = view s := by
  unfold setWalk
  try lift_lets
  repeat' first
    | with_reducible assumption
    | (intro x; with_reducible apply let_cut x s; subst x; swap; clear_value x; intro hx)
    | (intro x; subst x)
    | (simp [*, parts]; done)
    | split

@[simp] theorem sendBreak_view (s : State) (m : DnN) (cause : Nat) :
    view (sendBreak s m cause) = view s := by
  unfold sendBreak
  try lift_lets
  repeat' first
    | with_reducible assumption
    | (intro x; with_reducible apply let_cut x s; subst x; swap; clear_value x; intro hx)
    | (intro x; subst x)
    | (simp [*, parts]; done)
    | split

@[simp] theorem walkFrom_view (s : State) (l : List DnN) : view (walkFrom s l) = view s := by
  induction l generalizing s with
  | nil => unfold walkFrom; simp [parts]
  | cons m l ih => unfold walkFrom; (repeat' split) <;> simp [ih]

@[simp] theorem walkNext_view (s : State) (m : DnN) :
    view (walkNext s m) = view s := by
  unfold walkNext
  try lift_lets
  repeat' first
    | with_reducible assumption
    | (intro x; with_reducible apply let_cut x s; subst x; swap; clear_value x; intro hx)
    | (intro x; subst x)
    | (simp [*, parts]; done)
    | split

@[simp] theorem surveyDetach_view (s : State) (m : DnN) :
    view (surveyDetach s m) = view s := by
  unfold surveyDetach
  try lift_lets
  repeat' first
    | with_reducible assumption
    | (intro x; with_reducible apply let_cut x s; subst x; swap; clear_value x; intro hx)
    | (intro x; subst x)
    | (simp [*, parts]; done)
    | split

/-! ## Link -/

@[simp] theorem loseLock_view (s : State) :
    view (loseLock s) = view s := by
  unfold loseLock
  try lift_lets
  repeat' first
    | with_reducible assumption
    | (intro x; with_reducible apply let_cut x s; subst x; swap; clear_value x; intro hx)
    | (intro x; subst x)
    | (simp [*, parts]; done)
    | split

@[simp] theorem lockKeep_view (s : State) :
    view (lockKeep s) = view s := by
  unfold lockKeep
  try lift_lets
  repeat' first
    | with_reducible assumption
    | (intro x; with_reducible apply let_cut x s; subst x; swap; clear_value x; intro hx)
    | (intro x; subst x)
    | (simp [*, parts]; done)
    | split

@[simp] theorem gainLock_view (s : State) :
    view (gainLock s) = view s := by
  unfold gainLock
  try lift_lets
  repeat' first
    | with_reducible assumption
    | (intro x; with_reducible apply let_cut x s; subst x; swap; clear_value x; intro hx)
    | (intro x; subst x)
    | (simp [*, parts]; done)
    | split

@[simp] theorem lockCheck_view (s : State) :
    view (lockCheck s) = view s := by
  unfold lockCheck
  try lift_lets
  repeat' first
    | with_reducible assumption
    | (intro x; with_reducible apply let_cut x s; subst x; swap; clear_value x; intro hx)
    | (intro x; subst x)
    | (simp [*, parts]; done)
    | split

@[simp] theorem dropOpen_view (s : State) (n : PortN) (reason : Nat) :
    view (dropOpen s n reason) = view s := by
  unfold dropOpen
  try lift_lets
  repeat' first
    | with_reducible assumption
    | (intro x; with_reducible apply let_cut x s; subst x; swap; clear_value x; intro hx)
    | (intro x; subst x)
    | (simp [*, parts]; done)
    | split

@[simp] theorem settleDown_view (s : State) (m : DnN) :
    view (settleDown s m) = view s := by
  unfold settleDown
  try lift_lets
  repeat' first
    | with_reducible assumption
    | (intro x; with_reducible apply let_cut x s; subst x; swap; clear_value x; intro hx)
    | (intro x; subst x)
    | (simp [*, parts]; done)
    | split

@[simp] theorem freeSlots_view (s : State) :
    view (freeSlots s) = view s := by
  unfold freeSlots
  try lift_lets
  repeat' first
    | with_reducible assumption
    | (intro x; with_reducible apply let_cut x s; subst x; swap; clear_value x; intro hx)
    | (intro x; subst x)
    | (simp [*, parts]; done)
    | split

@[simp] theorem settleUp_view (s : State) :
    view (settleUp s) = view s := by
  unfold settleUp
  try lift_lets
  repeat' first
    | with_reducible assumption
    | (intro x; with_reducible apply let_cut x s; subst x; swap; clear_value x; intro hx)
    | (intro x; subst x)
    | (simp [*, parts]; done)
    | split

@[simp] theorem upFresh_view (s : State) :
    view (upFresh s) = view s := by
  unfold upFresh
  try lift_lets
  repeat' first
    | with_reducible assumption
    | (intro x; with_reducible apply let_cut x s; subst x; swap; clear_value x; intro hx)
    | (intro x; subst x)
    | (simp [*, parts]; done)
    | split

@[simp] theorem countAttach_view (s : State) (n : PortN) :
    view (countAttach s n) = view s := by
  unfold countAttach
  try lift_lets
  repeat' first
    | with_reducible assumption
    | (intro x; with_reducible apply let_cut x s; subst x; swap; clear_value x; intro hx)
    | (intro x; subst x)
    | (simp [*, parts]; done)
    | split

@[simp] theorem linkUp_view (s : State) (n : PortN) (r : Nat) :
    view (linkUp s n r) = view s := by
  unfold linkUp
  try lift_lets
  repeat' first
    | with_reducible assumption
    | (intro x; with_reducible apply let_cut x s; subst x; swap; clear_value x; intro hx)
    | (intro x; subst x)
    | (simp [*, parts]; done)
    | split

@[simp] theorem linkDown_view (s : State) (n : PortN) (reason : Nat) :
    view (linkDown s n reason) = view s := by
  unfold linkDown
  try lift_lets
  repeat' first
    | with_reducible assumption
    | (intro x; with_reducible apply let_cut x s; subst x; swap; clear_value x; intro hx)
    | (intro x; subst x)
    | (simp [*, parts]; done)
    | split

@[simp] theorem detectNow_view (s : State) (n : PortN) (wait : Bool) :
    view (detectNow s n wait) = view s := by
  unfold detectNow
  try lift_lets
  repeat' first
    | with_reducible assumption
    | (intro x; with_reducible apply let_cut x s; subst x; swap; clear_value x; intro hx)
    | (intro x; subst x)
    | (simp [*, parts]; done)
    | split

@[simp] theorem holdNow_view (s : State) (n : PortN) :
    view (holdNow s n) = view s := by
  unfold holdNow
  try lift_lets
  repeat' first
    | with_reducible assumption
    | (intro x; with_reducible apply let_cut x s; subst x; swap; clear_value x; intro hx)
    | (intro x; subst x)
    | (simp [*, parts]; done)
    | split

@[simp] theorem suspHold_view (s : State) (n : PortN) :
    view (suspHold s n) = view s := by
  unfold suspHold
  try lift_lets
  repeat' first
    | with_reducible assumption
    | (intro x; with_reducible apply let_cut x s; subst x; swap; clear_value x; intro hx)
    | (intro x; subst x)
    | (simp [*, parts]; done)
    | split

@[simp] theorem toDetect_view (s : State) (n : PortN) (wait : Bool) :
    view (toDetect s n wait) = view s := by
  unfold toDetect
  try lift_lets
  repeat' first
    | with_reducible assumption
    | (intro x; with_reducible apply let_cut x s; subst x; swap; clear_value x; intro hx)
    | (intro x; subst x)
    | (simp [*, parts]; done)
    | split

@[simp] theorem retrain_view (s : State) (n : PortN) (reason : Nat) :
    view (retrain s n reason) = view s := by
  unfold retrain
  try lift_lets
  repeat' first
    | with_reducible assumption
    | (intro x; with_reducible apply let_cut x s; subst x; swap; clear_value x; intro hx)
    | (intro x; subst x)
    | (simp [*, parts]; done)
    | split

@[simp] theorem errRetrain_view (s : State) (n : PortN) (reason : Nat) (within1s : Bool) :
    view (errRetrain s n reason within1s) = view s := by
  unfold errRetrain
  try lift_lets
  repeat' first
    | with_reducible assumption
    | (intro x; with_reducible apply let_cut x s; subst x; swap; clear_value x; intro hx)
    | (intro x; subst x)
    | (simp [*, parts]; done)
    | split

@[simp] theorem signalLost_view (s : State) (n : PortN) :
    view (signalLost s n) = view s := by
  unfold signalLost
  try lift_lets
  repeat' first
    | with_reducible assumption
    | (intro x; with_reducible apply let_cut x s; subst x; swap; clear_value x; intro hx)
    | (intro x; subst x)
    | (simp [*, parts]; done)
    | split

@[simp] theorem startTrial_view (s : State) (n : PortN) (r : Nat) :
    view (startTrial s n r) = view s := by
  unfold startTrial
  try lift_lets
  repeat' first
    | with_reducible assumption
    | (intro x; with_reducible apply let_cut x s; subst x; swap; clear_value x; intro hx)
    | (intro x; subst x)
    | (simp [*, parts]; done)
    | split

@[simp] theorem parentChoose_view (s : State) (n : PortN) :
    view (parentChoose s n) = view s := by
  unfold parentChoose
  try lift_lets
  repeat' first
    | with_reducible assumption
    | (intro x; with_reducible apply let_cut x s; subst x; swap; clear_value x; intro hx)
    | (intro x; subst x)
    | (simp [*, parts]; done)
    | split

@[simp] theorem noteBest_view (s : State) (n : PortN) :
    view (noteBest s n) = view s := by
  unfold noteBest
  try lift_lets
  repeat' first
    | with_reducible assumption
    | (intro x; with_reducible apply let_cut x s; subst x; swap; clear_value x; intro hx)
    | (intro x; subst x)
    | (simp [*, parts]; done)
    | split

@[simp] theorem reeval_view (s : State) (n : PortN) :
    view (reeval s n) = view s := by
  unfold reeval
  try lift_lets
  repeat' first
    | with_reducible assumption
    | (intro x; with_reducible apply let_cut x s; subst x; swap; clear_value x; intro hx)
    | (intro x; subst x)
    | (simp [*, parts]; done)
    | split

@[simp] theorem failRate_view (s : State) (n : PortN) :
    view (failRate s n) = view s := by
  unfold failRate
  try lift_lets
  repeat' first
    | with_reducible assumption
    | (intro x; with_reducible apply let_cut x s; subst x; swap; clear_value x; intro hx)
    | (intro x; subst x)
    | (simp [*, parts]; done)
    | split

@[simp] theorem enterHold_view (s : State) (n : PortN) :
    view (enterHold s n) = view s := by
  unfold enterHold
  try lift_lets
  repeat' first
    | with_reducible assumption
    | (intro x; with_reducible apply let_cut x s; subst x; swap; clear_value x; intro hx)
    | (intro x; subst x)
    | (simp [*, parts]; done)
    | split

/-! ## Switch -/

@[simp] theorem modLegs_view (s : State) (l : DnN) (f : Pps → Pps) :
    view (modLegs s l f) = view s := by
  unfold modLegs
  try lift_lets
  repeat' first
    | with_reducible assumption
    | (intro x; with_reducible apply let_cut x s; subst x; swap; clear_value x; intro hx)
    | (intro x; subst x)
    | (simp [*, parts]; done)
    | split

@[simp] theorem enterRamp_view (s : State) (l : DnN) :
    view (enterRamp s l) = view s := by
  unfold enterRamp
  try lift_lets
  repeat' first
    | with_reducible assumption
    | (intro x; with_reducible apply let_cut x s; subst x; swap; clear_value x; intro hx)
    | (intro x; subst x)
    | (simp [*, parts]; done)
    | split

@[simp] theorem enterWait_view (s : State) (l : DnN) (due : Bool) :
    view (enterWait s l due) = view s := by
  unfold enterWait
  try lift_lets
  repeat' first
    | with_reducible assumption
    | (intro x; with_reducible apply let_cut x s; subst x; swap; clear_value x; intro hx)
    | (intro x; subst x)
    | (simp [*, parts]; done)
    | split

@[simp] theorem enterOff_view (s : State) (l : DnN) :
    view (enterOff s l) = view s := by
  unfold enterOff
  try lift_lets
  repeat' first
    | with_reducible assumption
    | (intro x; with_reducible apply let_cut x s; subst x; swap; clear_value x; intro hx)
    | (intro x; subst x)
    | (simp [*, parts]; done)
    | split

@[simp] theorem enterStopping_view (s : State) (l : DnN) :
    view (enterStopping s l) = view s := by
  unfold enterStopping
  try lift_lets
  repeat' first
    | with_reducible assumption
    | (intro x; with_reducible apply let_cut x s; subst x; swap; clear_value x; intro hx)
    | (intro x; subst x)
    | (simp [*, parts]; done)
    | split

@[simp] theorem startHeld_view (s : State) (l : DnN) :
    view (startHeld s l) = view s := by
  unfold startHeld
  try lift_lets
  repeat' first
    | with_reducible assumption
    | (intro x; with_reducible apply let_cut x s; subst x; swap; clear_value x; intro hx)
    | (intro x; subst x)
    | (simp [*, parts]; done)
    | split

@[simp] theorem reserveStart_view (s : State) (l : DnN) :
    view (reserveStart s l) = view s := by
  unfold reserveStart
  try lift_lets
  repeat' first
    | with_reducible assumption
    | (intro x; with_reducible apply let_cut x s; subst x; swap; clear_value x; intro hx)
    | (intro x; subst x)
    | (simp [*, parts]; done)
    | split

@[simp] theorem passWait_view (s : State) (m : DnN) :
    view (passWait s m) = view s := by
  unfold passWait
  try lift_lets
  repeat' first
    | with_reducible assumption
    | (intro x; with_reducible apply let_cut x s; subst x; swap; clear_value x; intro hx)
    | (intro x; subst x)
    | (simp [*, parts]; done)
    | split

@[simp] theorem passPend_view (s : State) (m : DnN) : view (passPend s m) = view s := by
  unfold passPend; dsimp only; (repeat' split) <;> simp [parts]

@[simp] theorem budgetPass_view (s : State) :
    view (budgetPass s) = view s := by
  unfold budgetPass
  try lift_lets
  repeat' first
    | with_reducible assumption
    | (intro x; with_reducible apply let_cut x s; subst x; swap; clear_value x; intro hx)
    | (intro x; subst x)
    | (simp [*, parts]; done)
    | split

@[simp] theorem startWaiting_view (s : State) :
    view (startWaiting s) = view s := by
  unfold startWaiting
  try lift_lets
  repeat' first
    | with_reducible assumption
    | (intro x; with_reducible apply let_cut x s; subst x; swap; clear_value x; intro hx)
    | (intro x; subst x)
    | (simp [*, parts]; done)
    | split

@[simp] theorem takeClass_view (s : State) (m : DnN) (c : Nat) :
    view (takeClass s m c) = view s := by
  unfold takeClass
  try lift_lets
  repeat' first
    | with_reducible assumption
    | (intro x; with_reducible apply let_cut x s; subst x; swap; clear_value x; intro hx)
    | (intro x; subst x)
    | (simp [*, parts]; done)
    | split

@[simp] theorem releaseAll_view (s : State) (l : DnN) :
    view (releaseAll s l) = view s := by
  unfold releaseAll
  try lift_lets
  repeat' first
    | with_reducible assumption
    | (intro x; with_reducible apply let_cut x s; subst x; swap; clear_value x; intro hx)
    | (intro x; subst x)
    | (simp [*, parts]; done)
    | split

@[simp] theorem switchOn_view (s : State) (m : DnN) :
    view (switchOn s m) = view s := by
  unfold switchOn
  try lift_lets
  repeat' first
    | with_reducible assumption
    | (intro x; with_reducible apply let_cut x s; subst x; swap; clear_value x; intro hx)
    | (intro x; subst x)
    | (simp [*, parts]; done)
    | split

@[simp] theorem switchOff_view (s : State) (m : DnN) :
    view (switchOff s m) = view s := by
  unfold switchOff
  try lift_lets
  repeat' first
    | with_reducible assumption
    | (intro x; with_reducible apply let_cut x s; subst x; swap; clear_value x; intro hx)
    | (intro x; subst x)
    | (simp [*, parts]; done)
    | split

@[simp] theorem switchWrite_view (s : State) (m : DnN) (v : Bool) :
    view (switchWrite s m v) = view s := by
  unfold switchWrite
  try lift_lets
  repeat' first
    | with_reducible assumption
    | (intro x; with_reducible apply let_cut x s; subst x; swap; clear_value x; intro hx)
    | (intro x; subst x)
    | (simp [*, parts]; done)
    | split

@[simp] theorem recordFault_view (s : State) (m : DnN) (bits : Word) :
    view (recordFault s m bits) = view s := by
  unfold recordFault
  try lift_lets
  repeat' first
    | with_reducible assumption
    | (intro x; with_reducible apply let_cut x s; subst x; swap; clear_value x; intro hx)
    | (intro x; subst x)
    | (simp [*, parts]; done)
    | split

@[simp] theorem recordRetryx_view (s : State) (m : DnN) :
    view (recordRetryx s m) = view s := by
  unfold recordRetryx
  try lift_lets
  repeat' first
    | with_reducible assumption
    | (intro x; with_reducible apply let_cut x s; subst x; swap; clear_value x; intro hx)
    | (intro x; subst x)
    | (simp [*, parts]; done)
    | split

@[simp] theorem latchSwitch_view (s : State) (l m : DnN) (why : Word) :
    view (latchSwitch s l m why) = view s := by
  unfold latchSwitch
  try lift_lets
  repeat' first
    | with_reducible assumption
    | (intro x; with_reducible apply let_cut x s; subst x; swap; clear_value x; intro hx)
    | (intro x; subst x)
    | (simp [*, parts]; done)
    | split

@[simp] theorem retire_view (s : State) (l : DnN) :
    view (retire s l) = view s := by
  unfold retire
  try lift_lets
  repeat' first
    | with_reducible assumption
    | (intro x; with_reducible apply let_cut x s; subst x; swap; clear_value x; intro hx)
    | (intro x; subst x)
    | (simp [*, parts]; done)
    | split

@[simp] theorem pgCheckpoint_view (s : State) (l : DnN) :
    view (pgCheckpoint s l) = view s := by
  unfold pgCheckpoint
  try lift_lets
  repeat' first
    | with_reducible assumption
    | (intro x; with_reducible apply let_cut x s; subst x; swap; clear_value x; intro hx)
    | (intro x; subst x)
    | (simp [*, parts]; done)
    | split

@[simp] theorem loseLeg_view (s : State) (m : DnN) (why : Word) :
    view (loseLeg s m why) = view s := by
  unfold loseLeg
  try lift_lets
  repeat' first
    | with_reducible assumption
    | (intro x; with_reducible apply let_cut x s; subst x; swap; clear_value x; intro hx)
    | (intro x; subst x)
    | (simp [*, parts]; done)
    | split

@[simp] theorem legFault_view (s : State) (m : DnN) (bits : Word) :
    view (legFault s m bits) = view s := by
  unfold legFault
  try lift_lets
  repeat' first
    | with_reducible assumption
    | (intro x; with_reducible apply let_cut x s; subst x; swap; clear_value x; intro hx)
    | (intro x; subst x)
    | (simp [*, parts]; done)
    | split

@[simp] theorem tripFault_view (s : State) (m : DnN) (bits : Word) :
    view (tripFault s m bits) = view s := by
  unfold tripFault
  try lift_lets
  repeat' first
    | with_reducible assumption
    | (intro x; with_reducible apply let_cut x s; subst x; swap; clear_value x; intro hx)
    | (intro x; subst x)
    | (simp [*, parts]; done)
    | split

@[simp] theorem reverseFault_view (s : State) (m : DnN) :
    view (reverseFault s m) = view s := by
  unfold reverseFault
  try lift_lets
  repeat' first
    | with_reducible assumption
    | (intro x; with_reducible apply let_cut x s; subst x; swap; clear_value x; intro hx)
    | (intro x; subst x)
    | (simp [*, parts]; done)
    | split

@[simp] theorem setPg_view (s : State) (m : DnN) (vgs : Word) :
    view (setPg s m vgs) = view s := by
  unfold setPg
  try lift_lets
  repeat' first
    | with_reducible assumption
    | (intro x; with_reducible apply let_cut x s; subst x; swap; clear_value x; intro hx)
    | (intro x; subst x)
    | (simp [*, parts]; done)
    | split

@[simp] theorem gateOff_view (s : State) (l : DnN) (vgs : Word) :
    view (gateOff s l vgs) = view s := by
  unfold gateOff
  try lift_lets
  repeat' first
    | with_reducible assumption
    | (intro x; with_reducible apply let_cut x s; subst x; swap; clear_value x; intro hx)
    | (intro x; subst x)
    | (simp [*, parts]; done)
    | split

@[simp] theorem clearLegs_view (s : State) (l : DnN) :
    view (clearLegs s l) = view s := by
  unfold clearLegs
  try lift_lets
  repeat' first
    | with_reducible assumption
    | (intro x; with_reducible apply let_cut x s; subst x; swap; clear_value x; intro hx)
    | (intro x; subst x)
    | (simp [*, parts]; done)
    | split

@[simp] theorem endLatch_view (s : State) (l : DnN) :
    view (endLatch s l) = view s := by
  unfold endLatch
  try lift_lets
  repeat' first
    | with_reducible assumption
    | (intro x; with_reducible apply let_cut x s; subst x; swap; clear_value x; intro hx)
    | (intro x; subst x)
    | (simp [*, parts]; done)
    | split

@[simp] theorem faultClear_view (s : State) (m : DnN) :
    view (faultClear s m) = view s := by
  unfold faultClear
  try lift_lets
  repeat' first
    | with_reducible assumption
    | (intro x; with_reducible apply let_cut x s; subst x; swap; clear_value x; intro hx)
    | (intro x; subst x)
    | (simp [*, parts]; done)
    | split

@[simp] theorem budgetWrite_view (s : State) (w : Nat) :
    view (budgetWrite s w) = view s := by
  unfold budgetWrite
  try lift_lets
  repeat' first
    | with_reducible assumption
    | (intro x; with_reducible apply let_cut x s; subst x; swap; clear_value x; intro hx)
    | (intro x; subst x)
    | (simp [*, parts]; done)
    | split

@[simp] theorem gangWrite_view (s : State) (v : Word) :
    view (gangWrite s v) = view s := by
  unfold gangWrite
  try lift_lets
  repeat' first
    | with_reducible assumption
    | (intro x; with_reducible apply let_cut x s; subst x; swap; clear_value x; intro hx)
    | (intro x; subst x)
    | (simp [*, parts]; done)
    | split

/-! ## Training -/

@[simp] theorem countCode_view (s : State) (n : PortN) :
    view (countCode s n) = view s := by
  unfold countCode
  try lift_lets
  repeat' first
    | with_reducible assumption
    | (intro x; with_reducible apply let_cut x s; subst x; swap; clear_value x; intro hx)
    | (intro x; subst x)
    | (simp [*, parts]; done)
    | split

@[simp] theorem codeViolated_view (s : State) (n : PortN) :
    view (codeViolated s n) = view s := by
  unfold codeViolated
  try lift_lets
  repeat' first
    | with_reducible assumption
    | (intro x; with_reducible apply let_cut x s; subst x; swap; clear_value x; intro hx)
    | (intro x; subst x)
    | (simp [*, parts]; done)
    | split

@[simp] theorem onRx_view (n : PortN) (f : State → State) (s : State) (hf : ∀ a0, view (f a0) = view a0) :
    view (onRx n f s) = view s := by
  unfold onRx
  try lift_lets
  repeat' first
    | with_reducible assumption
    | (intro x; with_reducible apply let_cut x s; subst x; swap; clear_value x; intro hx)
    | (intro x; subst x)
    | (simp [*, parts]; done)
    | split

@[simp] theorem onTs_view (n : PortN) (k : TsKind) (a0 : Word) (a1 : Word) (chk : Word) (f : State → State) (s : State) (hf : ∀ a0, view (f a0) = view a0) :
    view (onTs n k a0 a1 chk f s) = view s := by
  unfold onTs
  try lift_lets
  repeat' first
    | with_reducible assumption
    | (intro x; with_reducible apply let_cut x s; subst x; swap; clear_value x; intro hx)
    | (intro x; subst x)
    | (simp [*, parts]; done)
    | split

@[simp] theorem noteSd_view (n : PortN) (level : Bool) (s : State) :
    view (noteSd n level s) = view s := by
  unfold noteSd
  try lift_lets
  repeat' first
    | with_reducible assumption
    | (intro x; with_reducible apply let_cut x s; subst x; swap; clear_value x; intro hx)
    | (intro x; subst x)
    | (simp [*, parts]; done)
    | split

@[simp] theorem sdQualified_view (s : State) (n : PortN) :
    view (sdQualified s n) = view s := by
  unfold sdQualified
  try lift_lets
  repeat' first
    | with_reducible assumption
    | (intro x; with_reducible apply let_cut x s; subst x; swap; clear_value x; intro hx)
    | (intro x; subst x)
    | (simp [*, parts]; done)
    | split

@[simp] theorem sdLost_view (s : State) (n : PortN) (fldHigh : Bool) :
    view (sdLost s n fldHigh) = view s := by
  unfold sdLost
  try lift_lets
  repeat' first
    | with_reducible assumption
    | (intro x; with_reducible apply let_cut x s; subst x; swap; clear_value x; intro hx)
    | (intro x; subst x)
    | (simp [*, parts]; done)
    | split

@[simp] theorem enterCaps_view (s : State) (n : PortN) :
    view (enterCaps s n) = view s := by
  unfold enterCaps
  try lift_lets
  repeat' first
    | with_reducible assumption
    | (intro x; with_reducible apply let_cut x s; subst x; swap; clear_value x; intro hx)
    | (intro x; subst x)
    | (simp [*, parts]; done)
    | split

@[simp] theorem aligned_view (s : State) (n : PortN) :
    view (aligned s n) = view s := by
  unfold aligned
  try lift_lets
  repeat' first
    | with_reducible assumption
    | (intro x; with_reducible apply let_cut x s; subst x; swap; clear_value x; intro hx)
    | (intro x; subst x)
    | (simp [*, parts]; done)
    | split

@[simp] theorem trainFail_view (s : State) (n : PortN) :
    view (trainFail s n) = view s := by
  unfold trainFail
  try lift_lets
  repeat' first
    | with_reducible assumption
    | (intro x; with_reducible apply let_cut x s; subst x; swap; clear_value x; intro hx)
    | (intro x; subst x)
    | (simp [*, parts]; done)
    | split

@[simp] theorem refuseCap_view (s : State) (n : PortN) :
    view (refuseCap s n) = view s := by
  unfold refuseCap
  try lift_lets
  repeat' first
    | with_reducible assumption
    | (intro x; with_reducible apply let_cut x s; subst x; swap; clear_value x; intro hx)
    | (intro x; subst x)
    | (simp [*, parts]; done)
    | split

@[simp] theorem acceptCap_view (s : State) (n : PortN) (a0 : Word) (a1 : Word) :
    view (acceptCap s n a0 a1) = view s := by
  unfold acceptCap
  try lift_lets
  repeat' first
    | with_reducible assumption
    | (intro x; with_reducible apply let_cut x s; subst x; swap; clear_value x; intro hx)
    | (intro x; subst x)
    | (simp [*, parts]; done)
    | split

@[simp] theorem capsDone_view (s : State) (n : PortN) :
    view (capsDone s n) = view s := by
  unfold capsDone
  try lift_lets
  repeat' first
    | with_reducible assumption
    | (intro x; with_reducible apply let_cut x s; subst x; swap; clear_value x; intro hx)
    | (intro x; subst x)
    | (simp [*, parts]; done)
    | split

@[simp] theorem capInCaps_view (s : State) (n : PortN) (a0 : Word) (a1 : Word) :
    view (capInCaps s n a0 a1) = view s := by
  unfold capInCaps
  try lift_lets
  repeat' first
    | with_reducible assumption
    | (intro x; with_reducible apply let_cut x s; subst x; swap; clear_value x; intro hx)
    | (intro x; subst x)
    | (simp [*, parts]; done)
    | split

@[simp] theorem capUpdated_view (s : State) (n : PortN) (a0 : Word) (a1 : Word) :
    view (capUpdated s n a0 a1) = view s := by
  unfold capUpdated
  try lift_lets
  repeat' first
    | with_reducible assumption
    | (intro x; with_reducible apply let_cut x s; subst x; swap; clear_value x; intro hx)
    | (intro x; subst x)
    | (simp [*, parts]; done)
    | split

@[simp] theorem capInSwitch_view (s : State) (n : PortN) (a0 : Word) (a1 : Word) :
    view (capInSwitch s n a0 a1) = view s := by
  unfold capInSwitch
  try lift_lets
  repeat' first
    | with_reducible assumption
    | (intro x; with_reducible apply let_cut x s; subst x; swap; clear_value x; intro hx)
    | (intro x; subst x)
    | (simp [*, parts]; done)
    | split

@[simp] theorem capRx_view (s : State) (n : PortN) (a0 : Word) (a1 : Word) :
    view (capRx s n a0 a1) = view s := by
  unfold capRx
  try lift_lets
  repeat' first
    | with_reducible assumption
    | (intro x; with_reducible apply let_cut x s; subst x; swap; clear_value x; intro hx)
    | (intro x; subst x)
    | (simp [*, parts]; done)
    | split

@[simp] theorem ackRx_view (s : State) (n : PortN) (a0 : Word) (a1 : Word) :
    view (ackRx s n a0 a1) = view s := by
  unfold ackRx
  try lift_lets
  repeat' first
    | with_reducible assumption
    | (intro x; with_reducible apply let_cut x s; subst x; swap; clear_value x; intro hx)
    | (intro x; subst x)
    | (simp [*, parts]; done)
    | split

@[simp] theorem enterRalign_view (s : State) (n : PortN) :
    view (enterRalign s n) = view s := by
  unfold enterRalign
  try lift_lets
  repeat' first
    | with_reducible assumption
    | (intro x; with_reducible apply let_cut x s; subst x; swap; clear_value x; intro hx)
    | (intro x; subst x)
    | (simp [*, parts]; done)
    | split

@[simp] theorem childSwitch_view (s : State) (r k : Nat) :
    view (childSwitch s r k) = view s := by
  unfold childSwitch
  try lift_lets
  repeat' first
    | with_reducible assumption
    | (intro x; with_reducible apply let_cut x s; subst x; swap; clear_value x; intro hx)
    | (intro x; subst x)
    | (simp [*, parts]; done)
    | split

@[simp] theorem childLeave_view (s : State) :
    view (childLeave s) = view s := by
  unfold childLeave
  try lift_lets
  repeat' first
    | with_reducible assumption
    | (intro x; with_reducible apply let_cut x s; subst x; swap; clear_value x; intro hx)
    | (intro x; subst x)
    | (simp [*, parts]; done)
    | split

@[simp] theorem childTrial_view (s : State) (r : Nat) :
    view (childTrial s r) = view s := by
  unfold childTrial
  try lift_lets
  repeat' first
    | with_reducible assumption
    | (intro x; with_reducible apply let_cut x s; subst x; swap; clear_value x; intro hx)
    | (intro x; subst x)
    | (simp [*, parts]; done)
    | split

@[simp] theorem trialRx_view (s : State) (n : PortN) (r : Nat) :
    view (trialRx s n r) = view s := by
  unfold trialRx
  try lift_lets
  repeat' first
    | with_reducible assumption
    | (intro x; with_reducible apply let_cut x s; subst x; swap; clear_value x; intro hx)
    | (intro x; subst x)
    | (simp [*, parts]; done)
    | split

@[simp] theorem readyRx_view (s : State) (n : PortN) (clean : Nat) (r : Nat) :
    view (readyRx s n clean r) = view s := by
  unfold readyRx
  try lift_lets
  repeat' first
    | with_reducible assumption
    | (intro x; with_reducible apply let_cut x s; subst x; swap; clear_value x; intro hx)
    | (intro x; subst x)
    | (simp [*, parts]; done)
    | split

@[simp] theorem judge_view (s : State) (n : PortN) :
    view (judge s n) = view s := by
  unfold judge
  try lift_lets
  repeat' first
    | with_reducible assumption
    | (intro x; with_reducible apply let_cut x s; subst x; swap; clear_value x; intro hx)
    | (intro x; subst x)
    | (simp [*, parts]; done)
    | split

@[simp] theorem trialSent_view (s : State) (n : PortN) (errs : Nat) :
    view (trialSent s n errs) = view s := by
  unfold trialSent
  try lift_lets
  repeat' first
    | with_reducible assumption
    | (intro x; with_reducible apply let_cut x s; subst x; swap; clear_value x; intro hx)
    | (intro x; subst x)
    | (simp [*, parts]; done)
    | split

@[simp] theorem resultRx_view (s : State) (n : PortN) (r : Nat) (errs : Word) :
    view (resultRx s n r errs) = view s := by
  unfold resultRx
  try lift_lets
  repeat' first
    | with_reducible assumption
    | (intro x; with_reducible apply let_cut x s; subst x; swap; clear_value x; intro hx)
    | (intro x; subst x)
    | (simp [*, parts]; done)
    | split

@[simp] theorem goRx_view (s : State) (r : Nat) :
    view (goRx s r) = view s := by
  unfold goRx
  try lift_lets
  repeat' first
    | with_reducible assumption
    | (intro x; with_reducible apply let_cut x s; subst x; swap; clear_value x; intro hx)
    | (intro x; subst x)
    | (simp [*, parts]; done)
    | split

@[simp] theorem capUpdate_view (s : State) (n : PortN) :
    view (capUpdate s n) = view s := by
  unfold capUpdate
  try lift_lets
  repeat' first
    | with_reducible assumption
    | (intro x; with_reducible apply let_cut x s; subst x; swap; clear_value x; intro hx)
    | (intro x; subst x)
    | (simp [*, parts]; done)
    | split

@[simp] theorem downRx_view (s : State) (n : PortN) (reason : Nat) :
    view (downRx s n reason) = view s := by
  unfold downRx
  try lift_lets
  repeat' first
    | with_reducible assumption
    | (intro x; with_reducible apply let_cut x s; subst x; swap; clear_value x; intro hx)
    | (intro x; subst x)
    | (simp [*, parts]; done)
    | split

@[simp] theorem disRx_view (s : State) (n : PortN) :
    view (disRx s n) = view s := by
  unfold disRx
  try lift_lets
  repeat' first
    | with_reducible assumption
    | (intro x; with_reducible apply let_cut x s; subst x; swap; clear_value x; intro hx)
    | (intro x; subst x)
    | (simp [*, parts]; done)
    | split

@[simp] theorem errorRetrain_view (s : State) (n : PortN) (within1s : Bool) :
    view (errorRetrain s n within1s) = view s := by
  unfold errorRetrain
  try lift_lets
  repeat' first
    | with_reducible assumption
    | (intro x; with_reducible apply let_cut x s; subst x; swap; clear_value x; intro hx)
    | (intro x; subst x)
    | (simp [*, parts]; done)
    | split

@[simp] theorem retrainWrite_view (s : State) (n : PortN) :
    view (retrainWrite s n) = view s := by
  unfold retrainWrite
  try lift_lets
  repeat' first
    | with_reducible assumption
    | (intro x; with_reducible apply let_cut x s; subst x; swap; clear_value x; intro hx)
    | (intro x; subst x)
    | (simp [*, parts]; done)
    | split

@[simp] theorem portCntClr_view (s : State) (n : PortN) :
    view (portCntClr s n) = view s := by
  unfold portCntClr
  try lift_lets
  repeat' first
    | with_reducible assumption
    | (intro x; with_reducible apply let_cut x s; subst x; swap; clear_value x; intro hx)
    | (intro x; subst x)
    | (simp [*, parts]; done)
    | split

@[simp] theorem floodDrop_view (s : State) (n : PortN) :
    view (floodDrop s n) = view s := by
  unfold floodDrop
  try lift_lets
  repeat' first
    | with_reducible assumption
    | (intro x; with_reducible apply let_cut x s; subst x; swap; clear_value x; intro hx)
    | (intro x; subst x)
    | (simp [*, parts]; done)
    | split

@[simp] theorem floodStart_view (s : State) (n : PortN) (fldHigh : Bool) :
    view (floodStart s n fldHigh) = view s := by
  unfold floodStart
  try lift_lets
  repeat' first
    | with_reducible assumption
    | (intro x; with_reducible apply let_cut x s; subst x; swap; clear_value x; intro hx)
    | (intro x; subst x)
    | (simp [*, parts]; done)
    | split

@[simp] theorem upResumed_view (s : State) :
    view (upResumed s) = view s := by
  unfold upResumed
  try lift_lets
  repeat' first
    | with_reducible assumption
    | (intro x; with_reducible apply let_cut x s; subst x; swap; clear_value x; intro hx)
    | (intro x; subst x)
    | (simp [*, parts]; done)
    | split

@[simp] theorem portOff_view (s : State) (n : PortN) :
    view (portOff s n) = view s := by
  unfold portOff
  try lift_lets
  repeat' first
    | with_reducible assumption
    | (intro x; with_reducible apply let_cut x s; subst x; swap; clear_value x; intro hx)
    | (intro x; subst x)
    | (simp [*, parts]; done)
    | split

@[simp] theorem leaveDisabled_view (s : State) (n : PortN) :
    view (leaveDisabled s n) = view s := by
  unfold leaveDisabled
  try lift_lets
  repeat' first
    | with_reducible assumption
    | (intro x; with_reducible apply let_cut x s; subst x; swap; clear_value x; intro hx)
    | (intro x; subst x)
    | (simp [*, parts]; done)
    | split

@[simp] theorem portOnWrite_view (s : State) (n : PortN) :
    view (portOnWrite s n) = view s := by
  unfold portOnWrite
  try lift_lets
  repeat' first
    | with_reducible assumption
    | (intro x; with_reducible apply let_cut x s; subst x; swap; clear_value x; intro hx)
    | (intro x; subst x)
    | (simp [*, parts]; done)
    | split

@[simp] theorem portEnWrite_view (s : State) (n : PortN) (v : Bool) :
    view (portEnWrite s n v) = view s := by
  unfold portEnWrite
  try lift_lets
  repeat' first
    | with_reducible assumption
    | (intro x; with_reducible apply let_cut x s; subst x; swap; clear_value x; intro hx)
    | (intro x; subst x)
    | (simp [*, parts]; done)
    | split

@[simp] theorem crdRx_view (s : State) (n : PortN) (param : Word) :
    view (crdRx s n param) = view s := by
  unfold crdRx
  try lift_lets
  repeat' first
    | with_reducible assumption
    | (intro x; with_reducible apply let_cut x s; subst x; swap; clear_value x; intro hx)
    | (intro x; subst x)
    | (simp [*, parts]; done)
    | split

@[simp] theorem malformRx_view (s : State) (n : PortN) :
    view (malformRx s n) = view s := by
  unfold malformRx
  try lift_lets
  repeat' first
    | with_reducible assumption
    | (intro x; with_reducible apply let_cut x s; subst x; swap; clear_value x; intro hx)
    | (intro x; subst x)
    | (simp [*, parts]; done)
    | split

@[simp] theorem preRx_view (s : State) (n : PortN) (came : Option Nat) :
    view (preRx s n came) = view s := by
  unfold preRx
  try lift_lets
  repeat' first
    | with_reducible assumption
    | (intro x; with_reducible apply let_cut x s; subst x; swap; clear_value x; intro hx)
    | (intro x; subst x)
    | (simp [*, parts]; done)
    | split

@[simp] theorem rsmLost_view (s : State) (n : PortN) :
    view (rsmLost s n) = view s := by
  unfold rsmLost
  try lift_lets
  repeat' first
    | with_reducible assumption
    | (intro x; with_reducible apply let_cut x s; subst x; swap; clear_value x; intro hx)
    | (intro x; subst x)
    | (simp [*, parts]; done)
    | split

@[simp] theorem rsmRx_view (s : State) (n : PortN) (off : Word) :
    view (rsmRx s n off) = view s := by
  unfold rsmRx
  try lift_lets
  repeat' first
    | with_reducible assumption
    | (intro x; with_reducible apply let_cut x s; subst x; swap; clear_value x; intro hx)
    | (intro x; subst x)
    | (simp [*, parts]; done)
    | split

end Sys2Proof.Machine
end

