-- ==== Sys2Proof/Laws/KeptLocal.lean ====
section
/-! SUPPORT. What the helpers of the local node, cues, vectors and domains keep of the view of a state: one lemma each. -/

set_option linter.all false

namespace Sys2Proof.Machine

open Sys2Proof

/-! ## Local -/

@[simp] theorem voidReads_view (s : State) (f : ReadUse → Bool) :
    view (voidReads s f) = view s := by
  unfold voidReads
  try lift_lets
  repeat' first
    | with_reducible assumption
    | (intro x; with_reducible apply let_cut x s; subst x; swap; clear_value x; intro hx)
    | (intro x; subst x)
    | (simp [*, parts]; done)
    | split

@[simp] theorem askDesc_view (s : State) (k : EpN) :
    view (askDesc s k) = view s := by
  unfold askDesc
  try lift_lets
  repeat' first
    | with_reducible assumption
    | (intro x; with_reducible apply let_cut x s; subst x; swap; clear_value x; intro hx)
    | (intro x; subst x)
    | (simp [*, parts]; done)
    | split

@[simp] theorem xferEvent_view (s : State) (k : EpN) (status : Nat) (count : Word) (bytes : Nat) (tag : BitVec 7) (cue : Bool) (late : Bool) :
    view (xferEvent s k status count bytes tag cue late) = view s := by
  unfold xferEvent
  try lift_lets
  repeat' first
    | with_reducible assumption
    | (intro x; with_reducible apply let_cut x s; subst x; swap; clear_value x; intro hx)
    | (intro x; subst x)
    | (simp [*, parts]; done)
    | split

@[simp] theorem completeDesc_view (s : State) (k : EpN) (d : Desc) (status : Nat) (bytes : Nat) (tag : BitVec 7) (cue : Bool) (late : Bool) :
    view (completeDesc s k d status bytes tag cue late) = view s := by
  unfold completeDesc
  try lift_lets
  repeat' first
    | with_reducible assumption
    | (intro x; with_reducible apply let_cut x s; subst x; swap; clear_value x; intro hx)
    | (intro x; subst x)
    | (simp [*, parts]; done)
    | split

@[simp] theorem completeHead_view (s : State) (k : EpN) (status : Nat) (bytes : Nat) (cue : Bool) (late : Bool) :
    view (completeHead s k status bytes cue late) = view s := by
  unfold completeHead
  try lift_lets
  repeat' first
    | with_reducible assumption
    | (intro x; with_reducible apply let_cut x s; subst x; swap; clear_value x; intro hx)
    | (intro x; subst x)
    | (simp [*, parts]; done)
    | split

@[simp] theorem dropBad_view (s : State) (k : EpN) :
    view (dropBad s k) = view s := by
  unfold dropBad
  try lift_lets
  repeat' first
    | with_reducible assumption
    | (intro x; with_reducible apply let_cut x s; subst x; swap; clear_value x; intro hx)
    | (intro x; subst x)
    | (simp [*, parts]; done)
    | split

@[simp] theorem putData_keeps (s0 : State) (s : State) (k : EpN) (off : Nat) (bytes : List Nat) (hs : Keeps s0 (view s)) :
    Keeps s0 (view (putData s k off bytes)) := by
  unfold putData
  try lift_lets
  repeat' first
    | with_reducible assumption
    | (intro x; with_reducible apply let_cutK x s0; subst x; swap; clear_value x; intro hx)
    | (intro x; subst x)
    | (simp +contextual [*, parts]; done)
    | split

@[simp] theorem fillBuf_view (s : State) (k : EpN) (n : Nat) :
    view (fillBuf s k n) = view s := by
  unfold fillBuf
  try lift_lets
  repeat' first
    | with_reducible assumption
    | (intro x; with_reducible apply let_cut x s; subst x; swap; clear_value x; intro hx)
    | (intro x; subst x)
    | (simp [*, parts]; done)
    | split

@[simp] theorem askData_view (s : State) (k : EpN) :
    view (askData s k) = view s := by
  unfold askData
  try lift_lets
  repeat' first
    | with_reducible assumption
    | (intro x; with_reducible apply let_cut x s; subst x; swap; clear_value x; intro hx)
    | (intro x; subst x)
    | (simp [*, parts]; done)
    | split

@[simp] theorem epAsk_view (s : State) (k : EpN) :
    view (epAsk s k) = view s := by
  unfold epAsk
  try lift_lets
  repeat' first
    | with_reducible assumption
    | (intro x; with_reducible apply let_cut x s; subst x; swap; clear_value x; intro hx)
    | (intro x; subst x)
    | (simp [*, parts]; done)
    | split

@[simp] theorem completeAll_view (s : State) (k : EpN) (status : Nat) :
    view (completeAll s k status) = view s := by
  unfold completeAll
  try lift_lets
  repeat' first
    | with_reducible assumption
    | (intro x; with_reducible apply let_cut x s; subst x; swap; clear_value x; intro hx)
    | (intro x; subst x)
    | (simp [*, parts]; done)
    | split

@[simp] theorem emptyEp_view (s : State) (k : EpN) :
    view (emptyEp s k) = view s := by
  unfold emptyEp
  try lift_lets
  repeat' first
    | with_reducible assumption
    | (intro x; with_reducible apply let_cut x s; subst x; swap; clear_value x; intro hx)
    | (intro x; subst x)
    | (simp [*, parts]; done)
    | split

@[simp] theorem stopEp_view (s : State) (k : EpN) (status : Nat) :
    view (stopEp s k status) = view s := by
  unfold stopEp
  try lift_lets
  repeat' first
    | with_reducible assumption
    | (intro x; with_reducible apply let_cut x s; subst x; swap; clear_value x; intro hx)
    | (intro x; subst x)
    | (simp [*, parts]; done)
    | split

@[simp] theorem localBusReset_view (s : State) :
    view (localBusReset s) = view s := by
  unfold localBusReset
  try lift_lets
  repeat' first
    | with_reducible assumption
    | (intro x; with_reducible apply let_cut x s; subst x; swap; clear_value x; intro hx)
    | (intro x; subst x)
    | (simp [*, parts]; done)
    | split

@[simp] theorem confirm_view (s : State) (k : EpN) :
    view (confirm s k) = view s := by
  unfold confirm
  try lift_lets
  repeat' first
    | with_reducible assumption
    | (intro x; with_reducible apply let_cut x s; subst x; swap; clear_value x; intro hx)
    | (intro x; subst x)
    | (simp [*, parts]; done)
    | split

@[simp] theorem storeBuf_keeps (s0 : State) (s : State) (k : EpN) (p : Pkt) (b : Bool) (hs : Keeps s0 (view s)) :
    Keeps s0 (view (storeBuf s k p b)) := by
  unfold storeBuf
  try dsimp only
  repeat' first
    | with_reducible assumption
    | (simp [*, parts]; done)
    | (simp +contextual [*, parts]; done)
    | (with_reducible refine forEach_keeps _ _ _ _ (fun a x ha => ?_) ?_)
    | (with_reducible refine foldl_keeps _ _ _ _ (fun a x ha => ?_) ?_)
    | (with_reducible refine whenDo_keeps _ _ _ _ (fun a ha => ?_) ?_)
    | split

@[simp] theorem lnSend_view (s : State) (k : EpN) (p : Pkt) (act : OnEop) :
    view (lnSend s k p act) = view s := by
  unfold lnSend
  try lift_lets
  repeat' first
    | with_reducible assumption
    | (intro x; with_reducible apply let_cut x s; subst x; swap; clear_value x; intro hx)
    | (intro x; subst x)
    | (simp [*, parts]; done)
    | split

@[simp] theorem noteAns_view (s : State) (k : EpN) (tag : BitVec 7) (a : EpAns) :
    view (noteAns s k tag a) = view s := by
  unfold noteAns
  try lift_lets
  repeat' first
    | with_reducible assumption
    | (intro x; with_reducible apply let_cut x s; subst x; swap; clear_value x; intro hx)
    | (intro x; subst x)
    | (simp [*, parts]; done)
    | split

@[simp] theorem lnHshk_view (s : State) (k : EpN) (h : Hdr) (code : Nat) :
    view (lnHshk s k h code) = view s := by
  unfold lnHshk
  try lift_lets
  repeat' first
    | with_reducible assumption
    | (intro x; with_reducible apply let_cut x s; subst x; swap; clear_value x; intro hx)
    | (intro x; subst x)
    | (simp [*, parts]; done)
    | split

@[simp] theorem lnAck_view (s : State) (k : EpN) (h : Hdr) :
    view (lnAck s k h) = view s := by
  unfold lnAck
  try lift_lets
  repeat' first
    | with_reducible assumption
    | (intro x; with_reducible apply let_cut x s; subst x; swap; clear_value x; intro hx)
    | (intro x; subst x)
    | (simp [*, parts]; done)
    | split

@[simp] theorem lnNak_view (s : State) (k : EpN) (h : Hdr) :
    view (lnNak s k h) = view s := by
  unfold lnNak
  try lift_lets
  repeat' first
    | with_reducible assumption
    | (intro x; with_reducible apply let_cut x s; subst x; swap; clear_value x; intro hx)
    | (intro x; subst x)
    | (simp [*, parts]; done)
    | split

@[simp] theorem lnStall_view (s : State) (k : EpN) (h : Hdr) :
    view (lnStall s k h) = view s := by
  unfold lnStall
  try lift_lets
  repeat' first
    | with_reducible assumption
    | (intro x; with_reducible apply let_cut x s; subst x; swap; clear_value x; intro hx)
    | (intro x; subst x)
    | (simp [*, parts]; done)
    | split

@[simp] theorem lnRetry_view (s : State) (k : EpN) :
    view (lnRetry s k) = view s := by
  unfold lnRetry
  try lift_lets
  repeat' first
    | with_reducible assumption
    | (intro x; with_reducible apply let_cut x s; subst x; swap; clear_value x; intro hx)
    | (intro x; subst x)
    | (simp [*, parts]; done)
    | split

theorem takeInbox_view (s t : State) (f : Inbox → Bool) (x : Inbox) (h : takeInbox s f = some (x, t)) : view t = view s := by
  unfold takeInbox at h; simp only [Option.map_eq_some_iff, Prod.mk.injEq] at h
  obtain ⟨y, _, _, rfl⟩ := h; rfl

@[simp] theorem tornAnswer_view (s : State) (x : Inbox) (k : EpN) :
    view (tornAnswer s x k) = view s := by
  unfold tornAnswer
  try lift_lets
  repeat' first
    | with_reducible assumption
    | (intro x; with_reducible apply let_cut x s; subst x; swap; clear_value x; intro hx)
    | (intro x; subst x)
    | (simp [*, parts]; done)
    | split

@[simp] theorem onLocal_keeps (s0 : State) (f : Pkt → Bool) (act : State → Inbox → EpN → State) (s : State)
    (h : ∀ a x k, Keeps s0 (view a) → Keeps s0 (view (act a x k))) (hs : Keeps s0 (view s)) : Keeps s0 (view (onLocal f act s)) := by
  unfold onLocal
  dsimp only
  split
  · exact hs
  · rename_i x s1 he
    have hv : Keeps s0 (view s1) := by rw [takeInbox_view _ _ _ _ he]; exact hs
    (repeat' split) <;> first | exact hs | exact hv | exact h _ _ _ hv | simpa [parts] using hv | simpa [parts] using hs

@[simp] theorem confirmNew_view (s : State) (k : EpN) (h : Hdr) :
    view (confirmNew s k h) = view s := by
  unfold confirmNew
  try lift_lets
  repeat' first
    | with_reducible assumption
    | (intro x; with_reducible apply let_cut x s; subst x; swap; clear_value x; intro hx)
    | (intro x; subst x)
    | (simp [*, parts]; done)
    | split

@[simp] theorem stallNew_view (s : State) (k : EpN) (h : Hdr) :
    view (stallNew s k h) = view s := by
  unfold stallNew
  try lift_lets
  repeat' first
    | with_reducible assumption
    | (intro x; with_reducible apply let_cut x s; subst x; swap; clear_value x; intro hx)
    | (intro x; subst x)
    | (simp [*, parts]; done)
    | split

@[simp] theorem setupAct_keeps (s0 : State) (s : State) (x : Inbox) (k : EpN) (hs : Keeps s0 (view s)) :
    Keeps s0 (view (setupAct s x k)) := by
  unfold setupAct
  dsimp only
  split
  · exact hs
  · split
    · simp [*, parts]
    · split
      · simp [*, parts]
      · simp only [epAsk_view, lnAck_view]
        refine storeBuf_keeps _ _ _ _ _ ?_
        refine forEach_keeps _ _ _ _ (fun a x ha => ?_) ?_
        · simpa [parts] using ha
        · simpa [parts] using hs

@[simp] theorem groupStore_keeps (s0 : State) (s : State) (k : EpN) (p : Pkt) (hs : Keeps s0 (view s)) :
    Keeps s0 (view (groupStore s k p)) := by
  unfold groupStore
  try lift_lets
  repeat' first
    | with_reducible assumption
    | (intro x; with_reducible apply let_cutK x s0; subst x; swap; clear_value x; intro hx)
    | (intro x; subst x)
    | (simp +contextual [*, parts]; done)
    | split

@[simp] theorem confirmNak_view (s : State) (k : EpN) (h : Hdr) :
    view (confirmNak s k h) = view s := by
  unfold confirmNak
  try lift_lets
  repeat' first
    | with_reducible assumption
    | (intro x; with_reducible apply let_cut x s; subst x; swap; clear_value x; intro hx)
    | (intro x; subst x)
    | (simp [*, parts]; done)
    | split

@[simp] theorem outAct_keeps (s0 : State) (s : State) (x : Inbox) (k : EpN) (hs : Keeps s0 (view s)) :
    Keeps s0 (view (outAct s x k)) := by
  unfold outAct
  try lift_lets
  repeat' first
    | with_reducible assumption
    | (intro x; with_reducible apply let_cutK x s0; subst x; swap; clear_value x; intro hx)
    | (intro x; subst x)
    | (simp +contextual [*, parts]; done)
    | split

@[simp] theorem inAct_view (s : State) (x : Inbox) (k : EpN) :
    view (inAct s x k) = view s := by
  unfold inAct
  try lift_lets
  repeat' first
    | with_reducible assumption
    | (intro x; with_reducible apply let_cut x s; subst x; swap; clear_value x; intro hx)
    | (intro x; subst x)
    | (simp [*, parts]; done)
    | split

@[simp] theorem cstatNew_view (s : State) (k : EpN) (h : Hdr) :
    view (cstatNew s k h) = view s := by
  unfold cstatNew
  try lift_lets
  repeat' first
    | with_reducible assumption
    | (intro x; with_reducible apply let_cut x s; subst x; swap; clear_value x; intro hx)
    | (intro x; subst x)
    | (simp [*, parts]; done)
    | split

@[simp] theorem cstatAct_view (s : State) (x : Inbox) (k : EpN) :
    view (cstatAct s x k) = view s := by
  unfold cstatAct
  try lift_lets
  repeat' first
    | with_reducible assumption
    | (intro x; with_reducible apply let_cut x s; subst x; swap; clear_value x; intro hx)
    | (intro x; subst x)
    | (simp [*, parts]; done)
    | split

@[simp] theorem pinqAct_view (s : State) (x : Inbox) (k : EpN) :
    view (pinqAct s x k) = view s := by
  unfold pinqAct
  try lift_lets
  repeat' first
    | with_reducible assumption
    | (intro x; with_reducible apply let_cut x s; subst x; swap; clear_value x; intro hx)
    | (intro x; subst x)
    | (simp [*, parts]; done)
    | split

@[simp] theorem pindLeft_view (s : State) (k : EpN) :
    view (pindLeft s k) = view s := by
  unfold pindLeft
  try lift_lets
  repeat' first
    | with_reducible assumption
    | (intro x; with_reducible apply let_cut x s; subst x; swap; clear_value x; intro hx)
    | (intro x; subst x)
    | (simp [*, parts]; done)
    | split

@[simp] theorem drained_view (s : State) (k : EpN) :
    view (drained s k) = view s := by
  unfold drained
  try lift_lets
  repeat' first
    | with_reducible assumption
    | (intro x; with_reducible apply let_cut x s; subst x; swap; clear_value x; intro hx)
    | (intro x; subst x)
    | (simp [*, parts]; done)
    | split

@[simp] theorem drain_view (s : State) (k : EpN) :
    view (drain s k) = view s := by
  unfold drain
  try lift_lets
  repeat' first
    | with_reducible assumption
    | (intro x; with_reducible apply let_cut x s; subst x; swap; clear_value x; intro hx)
    | (intro x; subst x)
    | (simp [*, parts]; done)
    | split

@[simp] theorem cueDone_view (s : State) (k : EpN) (atCatch : Bool) :
    view (cueDone s k atCatch) = view s := by
  unfold cueDone
  try lift_lets
  repeat' first
    | with_reducible assumption
    | (intro x; with_reducible apply let_cut x s; subst x; swap; clear_value x; intro hx)
    | (intro x; subst x)
    | (simp [*, parts]; done)
    | split

@[simp] theorem lnEnable_view (s : State) :
    view (lnEnable s) = view s := by
  unfold lnEnable
  try lift_lets
  repeat' first
    | with_reducible assumption
    | (intro x; with_reducible apply let_cut x s; subst x; swap; clear_value x; intro hx)
    | (intro x; subst x)
    | (simp [*, parts]; done)
    | split

@[simp] theorem lnDisable_view (s : State) :
    view (lnDisable s) = view s := by
  unfold lnDisable
  try lift_lets
  repeat' first
    | with_reducible assumption
    | (intro x; with_reducible apply let_cut x s; subst x; swap; clear_value x; intro hx)
    | (intro x; subst x)
    | (simp [*, parts]; done)
    | split

@[simp] theorem epEnable_view (s : State) (k : EpN) :
    view (epEnable s k) = view s := by
  unfold epEnable
  try lift_lets
  repeat' first
    | with_reducible assumption
    | (intro x; with_reducible apply let_cut x s; subst x; swap; clear_value x; intro hx)
    | (intro x; subst x)
    | (simp [*, parts]; done)
    | split

@[simp] theorem epDisable_view (s : State) (k : EpN) :
    view (epDisable s k) = view s := by
  unfold epDisable
  try lift_lets
  repeat' first
    | with_reducible assumption
    | (intro x; with_reducible apply let_cut x s; subst x; swap; clear_value x; intro hx)
    | (intro x; subst x)
    | (simp [*, parts]; done)
    | split

/-! ## Cue -/

@[simp] theorem flagCrew_view (s : State) (k : CrewN) (f : Word) :
    view (flagCrew s k f) = view s := by
  unfold flagCrew
  try lift_lets
  repeat' first
    | with_reducible assumption
    | (intro x; with_reducible apply let_cut x s; subst x; swap; clear_value x; intro hx)
    | (intro x; subst x)
    | (simp [*, parts]; done)
    | split

@[simp] theorem judgeCue_view (s : State) (out : Nat) (p : Pkt) (full : Bool) : view (judgeCue s out p full).2 = view s := by
  unfold judgeCue
  try dsimp only
  (repeat' split) <;> simp [parts]

@[simp] theorem settleCue_view (s : State) (m : DnN) (pid : Nat) :
    view (settleCue s m pid) = view s := by
  unfold settleCue
  dsimp only
  repeat' first
    | with_reducible assumption
    | (simp [*, parts]; done)
    | split

@[simp] theorem releaseCues_view (s : State) (f : PortN → CrewN × Nat → Bool) (atCatch : Bool) :
    view (releaseCues s f atCatch) = view s := by
  unfold releaseCues
  try lift_lets
  repeat' first
    | with_reducible assumption
    | (intro x; with_reducible apply let_cut x s; subst x; swap; clear_value x; intro hx)
    | (intro x; subst x)
    | (simp [*, parts]; done)
    | split

@[simp] theorem releaseEarly_view (s : State) (f : PortN → CrewN × Nat → Bool) (flag : Word) :
    view (releaseEarly s f flag) = view s := by
  unfold releaseEarly
  try lift_lets
  repeat' first
    | with_reducible assumption
    | (intro x; with_reducible apply let_cut x s; subst x; swap; clear_value x; intro hx)
    | (intro x; subst x)
    | (simp [*, parts]; done)
    | split

@[simp] theorem snapBank_view (s : State) (src : Nat) (l : List MSnap) :
    view (snapBank s src l) = view s := by
  unfold snapBank
  try lift_lets
  repeat' first
    | with_reducible assumption
    | (intro x; with_reducible apply let_cut x s; subst x; swap; clear_value x; intro hx)
    | (intro x; subst x)
    | (simp [*, parts]; done)
    | split

@[simp] theorem snapRequest_view (s : State) (src : Nat) :
    view (snapRequest s src) = view s := by
  unfold snapRequest
  try lift_lets
  repeat' first
    | with_reducible assumption
    | (intro x; with_reducible apply let_cut x s; subst x; swap; clear_value x; intro hx)
    | (intro x; subst x)
    | (simp [*, parts]; done)
    | split

/-! ## LocalCue -/

@[simp] theorem poutStore_keeps (s0 : State) (s : State) (k : EpN) (p : Pkt) (hs : Keeps s0 (view s)) :
    Keeps s0 (view (poutStore s k p)) := by
  unfold poutStore
  try lift_lets
  repeat' first
    | with_reducible assumption
    | (intro x; with_reducible apply let_cutK x s0; subst x; swap; clear_value x; intro hx)
    | (intro x; subst x)
    | (simp +contextual [*, parts]; done)
    | split

@[simp] theorem poutAct_keeps (s0 : State) (s : State) (x : Inbox) (k : EpN) (hs : Keeps s0 (view s)) :
    Keeps s0 (view (poutAct s x k)) := by
  unfold poutAct
  try lift_lets
  repeat' first
    | with_reducible assumption
    | (intro x; with_reducible apply let_cutK x s0; subst x; swap; clear_value x; intro hx)
    | (intro x; subst x)
    | (simp +contextual [*, parts]; done)
    | split

/-! ## Vectors -/

@[simp] theorem holdVec_view (s : State) (d : DomN) (v : Nat) (b : Bool) :
    view (holdVec s d v b) = view s := by
  unfold holdVec
  try lift_lets
  repeat' first
    | with_reducible assumption
    | (intro x; with_reducible apply let_cut x s; subst x; swap; clear_value x; intro hx)
    | (intro x; subst x)
    | (simp [*, parts]; done)
    | split

@[simp] theorem gapVec_view (s : State) (d : DomN) (v : Nat) (b : Bool) :
    view (gapVec s d v b) = view s := by
  unfold gapVec
  try lift_lets
  repeat' first
    | with_reducible assumption
    | (intro x; with_reducible apply let_cut x s; subst x; swap; clear_value x; intro hx)
    | (intro x; subst x)
    | (simp [*, parts]; done)
    | split

@[simp] theorem pbaVec_view (s : State) (d : DomN) (v : Nat) (b : Bool) :
    view (pbaVec s d v b) = view s := by
  unfold pbaVec
  try lift_lets
  repeat' first
    | with_reducible assumption
    | (intro x; with_reducible apply let_cut x s; subst x; swap; clear_value x; intro hx)
    | (intro x; subst x)
    | (simp [*, parts]; done)
    | split

@[simp] theorem sendMsg_view (s : State) (d : DomN) (v : Nat) :
    view (sendMsg s d v) = view s := by
  unfold sendMsg
  try lift_lets
  repeat' first
    | with_reducible assumption
    | (intro x; with_reducible apply let_cut x s; subst x; swap; clear_value x; intro hx)
    | (intro x; subst x)
    | (simp [*, parts]; done)
    | split

@[simp] theorem issueMsg_view (s : State) (d : DomN) (v : Nat) :
    view (issueMsg s d v) = view s := by
  unfold issueMsg
  try lift_lets
  repeat' first
    | with_reducible assumption
    | (intro x; with_reducible apply let_cut x s; subst x; swap; clear_value x; intro hx)
    | (intro x; subst x)
    | (simp [*, parts]; done)
    | split

@[simp] theorem fire_view (s : State) (d : DomN) (v : Nat) :
    view (fire s d v) = view s := by
  unfold fire
  try lift_lets
  repeat' first
    | with_reducible assumption
    | (intro x; with_reducible apply let_cut x s; subst x; swap; clear_value x; intro hx)
    | (intro x; subst x)
    | (simp [*, parts]; done)
    | split

@[simp] theorem gapEnd_view (s : State) (d : DomN) (v : Nat) :
    view (gapEnd s d v) = view s := by
  unfold gapEnd
  try lift_lets
  repeat' first
    | with_reducible assumption
    | (intro x; with_reducible apply let_cut x s; subst x; swap; clear_value x; intro hx)
    | (intro x; subst x)
    | (simp [*, parts]; done)
    | split

@[simp] theorem pbaRelease_view (s : State) (d : DomN) (v : Nat) :
    view (pbaRelease s d v) = view s := by
  unfold pbaRelease
  try lift_lets
  repeat' first
    | with_reducible assumption
    | (intro x; with_reducible apply let_cut x s; subst x; swap; clear_value x; intro hx)
    | (intro x; subst x)
    | (simp [*, parts]; done)
    | split

@[simp] theorem heldRelease_view (s : State) (d : DomN) (v : Nat) :
    view (heldRelease s d v) = view s := by
  unfold heldRelease
  try lift_lets
  repeat' first
    | with_reducible assumption
    | (intro x; with_reducible apply let_cut x s; subst x; swap; clear_value x; intro hx)
    | (intro x; subst x)
    | (simp [*, parts]; done)
    | split

@[simp] theorem releaseMsgs_view (s : State) (d : DomN) :
    view (releaseMsgs s d) = view s := by
  unfold releaseMsgs
  try lift_lets
  repeat' first
    | with_reducible assumption
    | (intro x; with_reducible apply let_cut x s; subst x; swap; clear_value x; intro hx)
    | (intro x; subst x)
    | (simp [*, parts]; done)
    | split

@[simp] theorem clearMask_view (s : State) (d : DomN) (v : Fin 32) :
    view (clearMask s d v) = view s := by
  unfold clearMask
  try lift_lets
  repeat' first
    | with_reducible assumption
    | (intro x; with_reducible apply let_cut x s; subst x; swap; clear_value x; intro hx)
    | (intro x; subst x)
    | (simp [*, parts]; done)
    | split

@[simp] theorem unmask_view (s : State) (d : DomN) (x0 : MaskKind) :
    view (unmask s d x0) = view s := by
  unfold unmask
  try lift_lets
  repeat' first
    | with_reducible assumption
    | (intro x; with_reducible apply let_cut x s; subst x; swap; clear_value x; intro hx)
    | (intro x; subst x)
    | (simp [*, parts]; done)
    | split

@[simp] theorem msixWrite_view (s : State) (d : DomN) (j : Nat) (v : BitVec 32) :
    view (msixWrite s d j v) = view s := by
  unfold msixWrite
  try lift_lets
  repeat' first
    | with_reducible assumption
    | (intro x; with_reducible apply let_cut x s; subst x; swap; clear_value x; intro hx)
    | (intro x; subst x)
    | (simp [*, parts]; done)
    | split

/-! ## Domain -/

@[simp] theorem giveRight_view (s : State) (d : DomN) :
    view (giveRight s d) = view s := by
  unfold giveRight
  try lift_lets
  repeat' first
    | with_reducible assumption
    | (intro x; with_reducible apply let_cut x s; subst x; swap; clear_value x; intro hx)
    | (intro x; subst x)
    | (simp [*, parts]; done)
    | split

@[simp] theorem cfgwr_view (s : State) (d : DomN) :
    view (cfgwr s d) = view s := by
  unfold cfgwr
  try lift_lets
  repeat' first
    | with_reducible assumption
    | (intro x; with_reducible apply let_cut x s; subst x; swap; clear_value x; intro hx)
    | (intro x; subst x)
    | (simp [*, parts]; done)
    | split

@[simp] theorem denied_view (s : State) (d : DomN) :
    view (denied s d) = view s := by
  unfold denied
  try lift_lets
  repeat' first
    | with_reducible assumption
    | (intro x; with_reducible apply let_cut x s; subst x; swap; clear_value x; intro hx)
    | (intro x; subst x)
    | (simp [*, parts]; done)
    | split

@[simp] theorem rightsWrite_view (s : State) (d : DomN) (v : Word) :
    view (rightsWrite s d v) = view s := by
  unfold rightsWrite
  try lift_lets
  repeat' first
    | with_reducible assumption
    | (intro x; with_reducible apply let_cut x s; subst x; swap; clear_value x; intro hx)
    | (intro x; subst x)
    | (simp [*, parts]; done)
    | split

@[simp] theorem ownWrite_view (d : DomN) (s : State) (k : EpN) :
    view (ownWrite d s k) = view s := by
  unfold ownWrite
  try lift_lets
  repeat' first
    | with_reducible assumption
    | (intro x; with_reducible apply let_cut x s; subst x; swap; clear_value x; intro hx)
    | (intro x; subst x)
    | (simp [*, parts]; done)
    | split

@[simp] theorem epmaskWrite_view (s : State) (d : DomN) (half : Nat) (v : Word) :
    view (epmaskWrite s d half v) = view s := by
  unfold epmaskWrite
  try lift_lets
  repeat' first
    | with_reducible assumption
    | (intro x; with_reducible apply let_cut x s; subst x; swap; clear_value x; intro hx)
    | (intro x; subst x)
    | (simp [*, parts]; done)
    | split

@[simp] theorem domEnable_view (s : State) (d : DomN) :
    view (domEnable s d) = view s := by
  unfold domEnable
  try lift_lets
  repeat' first
    | with_reducible assumption
    | (intro x; with_reducible apply let_cut x s; subst x; swap; clear_value x; intro hx)
    | (intro x; subst x)
    | (simp [*, parts]; done)
    | split

@[simp] theorem dropReqs_view (s : State) (r : Nat) :
    view (dropReqs s r) = view s := by
  unfold dropReqs
  try lift_lets
  repeat' first
    | with_reducible assumption
    | (intro x; with_reducible apply let_cut x s; subst x; swap; clear_value x; intro hx)
    | (intro x; subst x)
    | (simp [*, parts]; done)
    | split

@[simp] theorem dropShared_view (s : State) (r : Nat) (d : DomN) :
    view (dropShared s r d) = view s := by
  unfold dropShared
  try lift_lets
  repeat' first
    | with_reducible assumption
    | (intro x; with_reducible apply let_cut x s; subst x; swap; clear_value x; intro hx)
    | (intro x; subst x)
    | (simp [*, parts]; done)
    | split

@[simp] theorem dropWatches_view (s : State) (d : DomN) :
    view (dropWatches s d) = view s := by
  unfold dropWatches
  try lift_lets
  repeat' first
    | with_reducible assumption
    | (intro x; with_reducible apply let_cut x s; subst x; swap; clear_value x; intro hx)
    | (intro x; subst x)
    | (simp [*, parts]; done)
    | split

@[simp] theorem serveOther_view (s : State) :
    view (serveOther s) = view s := by
  unfold serveOther
  split
  · rfl
  · next x s1 h =>
    have := takeInbox_view _ _ _ _ h
    dsimp only
    (repeat' split) <;> simp [*]

@[simp] theorem serveOthers_view (s : State) :
    view (serveOthers s) = view s := by
  unfold serveOthers
  try lift_lets
  repeat' first
    | with_reducible assumption
    | (intro x; with_reducible apply let_cut x s; subst x; swap; clear_value x; intro hx)
    | (intro x; subst x)
    | (simp [*, parts]; done)
    | split

@[simp] theorem endGranted_view (s : State) (d : DomN) :
    view (endGranted s d) = view s := by
  unfold endGranted
  try lift_lets
  repeat' first
    | with_reducible assumption
    | (intro x; with_reducible apply let_cut x s; subst x; swap; clear_value x; intro hx)
    | (intro x; subst x)
    | (simp [*, parts]; done)
    | split

@[simp] theorem tearBegin_view (s : State) (d : DomN) (cause : Nat) :
    view (tearBegin s d cause) = view s := by
  unfold tearBegin
  try lift_lets
  repeat' first
    | with_reducible assumption
    | (intro x; with_reducible apply let_cut x s; subst x; swap; clear_value x; intro hx)
    | (intro x; subst x)
    | (simp [*, parts]; done)
    | split

@[simp] theorem qosReset_view (s : State) (d : DomN) :
    view (qosReset s d) = view s := by
  unfold qosReset
  try lift_lets
  repeat' first
    | with_reducible assumption
    | (intro x; with_reducible apply let_cut x s; subst x; swap; clear_value x; intro hx)
    | (intro x; subst x)
    | (simp [*, parts]; done)
    | split

@[simp] theorem handBack_view (s : State) (d : DomN) :
    view (handBack s d) = view s := by
  unfold handBack
  try lift_lets
  repeat' first
    | with_reducible assumption
    | (intro x; with_reducible apply let_cut x s; subst x; swap; clear_value x; intro hx)
    | (intro x; subst x)
    | (simp [*, parts]; done)
    | split

@[simp] theorem arbRelease_view (s : State) (d : DomN) :
    view (arbRelease s d) = view s := by
  unfold arbRelease
  try lift_lets
  repeat' first
    | with_reducible assumption
    | (intro x; with_reducible apply let_cut x s; subst x; swap; clear_value x; intro hx)
    | (intro x; subst x)
    | (simp [*, parts]; done)
    | split

@[simp] theorem domSettle_view (s : State) (d : DomN) (cause : Nat) :
    view (domSettle s d cause) = view s := by
  unfold domSettle
  try lift_lets
  repeat' first
    | with_reducible assumption
    | (intro x; with_reducible apply let_cut x s; subst x; swap; clear_value x; intro hx)
    | (intro x; subst x)
    | (simp [*, parts]; done)
    | split

@[simp] theorem raiseTorn_view (s : State) (ev : Ev) :
    view (raiseTorn s ev) = view s := by
  unfold raiseTorn
  try lift_lets
  repeat' first
    | with_reducible assumption
    | (intro x; with_reducible apply let_cut x s; subst x; swap; clear_value x; intro hx)
    | (intro x; subst x)
    | (simp [*, parts]; done)
    | split

@[simp] theorem tearEnd_view (s : State) (d : DomN) :
    view (tearEnd s d) = view s := by
  unfold tearEnd
  try lift_lets
  repeat' first
    | with_reducible assumption
    | (intro x; with_reducible apply let_cut x s; subst x; swap; clear_value x; intro hx)
    | (intro x; subst x)
    | (simp [*, parts]; done)
    | split

@[simp] theorem offReset_view (s : State) (d : DomN) (cause : Nat) :
    view (offReset s d cause) = view s := by
  unfold offReset
  try lift_lets
  repeat' first
    | with_reducible assumption
    | (intro x; with_reducible apply let_cut x s; subst x; swap; clear_value x; intro hx)
    | (intro x; subst x)
    | (simp [*, parts]; done)
    | split

@[simp] theorem teardown_view (s : State) (d : DomN) (cause : Nat) :
    view (teardown s d cause) = view s := by
  unfold teardown
  try lift_lets
  repeat' first
    | with_reducible assumption
    | (intro x; with_reducible apply let_cut x s; subst x; swap; clear_value x; intro hx)
    | (intro x; subst x)
    | (simp [*, parts]; done)
    | split

@[simp] theorem teardownAll_view (s : State) (cause : Nat) :
    view (teardownAll s cause) = view s := by
  unfold teardownAll
  try lift_lets
  repeat' first
    | with_reducible assumption
    | (intro x; with_reducible apply let_cut x s; subst x; swap; clear_value x; intro hx)
    | (intro x; subst x)
    | (simp [*, parts]; done)
    | split

@[simp] theorem domDisable_view (s : State) (d : DomN) :
    view (domDisable s d) = view s := by
  unfold domDisable
  try lift_lets
  repeat' first
    | with_reducible assumption
    | (intro x; with_reducible apply let_cut x s; subst x; swap; clear_value x; intro hx)
    | (intro x; subst x)
    | (simp [*, parts]; done)
    | split

@[simp] theorem domFault_view (s : State) (d : DomN) :
    view (domFault s d) = view s := by
  unfold domFault
  try lift_lets
  repeat' first
    | with_reducible assumption
    | (intro x; with_reducible apply let_cut x s; subst x; swap; clear_value x; intro hx)
    | (intro x; subst x)
    | (simp [*, parts]; done)
    | split

@[simp] theorem domGo_view (s : State) (d : DomN) :
    view (domGo s d) = view s := by
  unfold domGo
  try lift_lets
  repeat' first
    | with_reducible assumption
    | (intro x; with_reducible apply let_cut x s; subst x; swap; clear_value x; intro hx)
    | (intro x; subst x)
    | (simp [*, parts]; done)
    | split

end Sys2Proof.Machine
end

