-- ==== Sys2Proof/Laws/KeptSwitch.lean ====
section
/-! SUPPORT. What the helpers of routing, split transfers, census, survey and time keep of the view of a state: one lemma each. -/

set_option linter.all false

namespace Sys2Proof.Machine

open Sys2Proof

/-! ## Route -/

@[simp] theorem countNoroute_view (s : State) :
    view (countNoroute s) = view s := by
  unfold countNoroute
  try lift_lets
  repeat' first
    | with_reducible assumption
    | (intro x; with_reducible apply let_cut x s; subst x; swap; clear_value x; intro hx)
    | (intro x; subst x)
    | (simp [*, parts]; done)
    | split

@[simp] theorem countRec_view (s : State) :
    view (countRec s) = view s := by
  unfold countRec
  try lift_lets
  repeat' first
    | with_reducible assumption
    | (intro x; with_reducible apply let_cut x s; subst x; swap; clear_value x; intro hx)
    | (intro x; subst x)
    | (simp [*, parts]; done)
    | split

@[simp] theorem countNosplit_view (s : State) :
    view (countNosplit s) = view s := by
  unfold countNosplit
  try lift_lets
  repeat' first
    | with_reducible assumption
    | (intro x; with_reducible apply let_cut x s; subst x; swap; clear_value x; intro hx)
    | (intro x; subst x)
    | (simp [*, parts]; done)
    | split

@[simp] theorem countPdrop_view (s : State) :
    view (countPdrop s) = view s := by
  unfold countPdrop
  try lift_lets
  repeat' first
    | with_reducible assumption
    | (intro x; with_reducible apply let_cut x s; subst x; swap; clear_value x; intro hx)
    | (intro x; subst x)
    | (simp [*, parts]; done)
    | split

@[simp] theorem addRx_view (s : State) (n : PortN) (ws : List Word) (h : Hdr) (len : Nat) (mc bad : Bool) (dest : List Deliver) :
    view (addRx s n ws h len mc bad dest) = view s := by
  unfold addRx
  try lift_lets
  repeat' first
    | with_reducible assumption
    | (intro x; with_reducible apply let_cut x s; subst x; swap; clear_value x; intro hx)
    | (intro x; subst x)
    | (simp [*, parts]; done)
    | split

@[simp] theorem copyDown_view (s : State) (m : DnN) (h : Hdr) (pid : Nat) (len : Nat) :
    view (copyDown s m h pid len) = view s := by
  unfold copyDown
  try lift_lets
  repeat' first
    | with_reducible assumption
    | (intro x; with_reducible apply let_cut x s; subst x; swap; clear_value x; intro hx)
    | (intro x; subst x)
    | (simp [*, parts]; done)
    | split

@[simp] theorem copyUp_view (s : State) (m : DnN) (h : Hdr) (pid : Nat) (len : Nat) :
    view (copyUp s m h pid len) = view s := by
  unfold copyUp
  try lift_lets
  repeat' first
    | with_reducible assumption
    | (intro x; with_reducible apply let_cut x s; subst x; swap; clear_value x; intro hx)
    | (intro x; subst x)
    | (simp [*, parts]; done)
    | split

@[simp] theorem forwardDown_view (s : State) (m : DnN) (h : Hdr) (pid len : Nat) : view (forwardDown s m h pid len).1 = view s := by
  unfold forwardDown; try dsimp only
  (repeat' split) <;> simp [parts]

@[simp] theorem toPort_view (s : State) (m : DnN) (h : Hdr) (pid len : Nat) : view (toPort s m h pid len).1 = view s := by
  unfold toPort; try dsimp only
  (repeat' split) <;> simp [parts]

@[simp] theorem copyAll_view (s : State) (ms : List DnN) (h : Hdr) (pid : Nat) (len : Nat) :
    view (copyAll s ms h pid len) = view s := by
  unfold copyAll
  try lift_lets
  repeat' first
    | with_reducible assumption
    | (intro x; with_reducible apply let_cut x s; subst x; swap; clear_value x; intro hx)
    | (intro x; subst x)
    | (simp [*, parts]; done)
    | split

@[simp] theorem toGroup_keeps (s0 : State) (s : State) (h : Hdr) (pid len : Nat) (hs : Keeps s0 (view s)) :
    Keeps s0 (view (toGroup s h pid len).1) := by
  unfold toGroup
  try dsimp only
  repeat' first
    | with_reducible assumption
    | (simp [*, parts]; done)
    | (simp +contextual [*, parts]; done)
    | (with_reducible refine forEach_keeps _ _ _ _ (fun a x ha => ?_) ?_)
    | (with_reducible refine foldl_keeps _ _ _ _ (fun a x ha => ?_) ?_)
    | (with_reducible refine whenDo_keeps _ _ _ _ (fun a ha => ?_) ?_)
    | split

@[simp] theorem routeUp_keeps (s0 : State) (s : State) (h : Hdr) (pid len : Nat) (hs : Keeps s0 (view s)) :
    Keeps s0 (view (routeUp s h pid len).1) := by
  unfold routeUp
  try dsimp only
  repeat' first
    | with_reducible assumption
    | (simp [*, parts]; done)
    | (simp +contextual [*, parts]; done)
    | (with_reducible refine forEach_keeps _ _ _ _ (fun a x ha => ?_) ?_)
    | (with_reducible refine foldl_keeps _ _ _ _ (fun a x ha => ?_) ?_)
    | (with_reducible refine whenDo_keeps _ _ _ _ (fun a ha => ?_) ?_)
    | split

@[simp] theorem headerUp_keeps (s0 : State) (s : State) (ws : List Word) (h : Hdr) (len : Nat) (hs : Keeps s0 (view s)) :
    Keeps s0 (view (headerUp s ws h len)) := by
  unfold headerUp
  try dsimp only
  repeat' first
    | with_reducible assumption
    | (simp [*, parts]; done)
    | (simp +contextual [*, parts]; done)
    | (with_reducible refine forEach_keeps _ _ _ _ (fun a x ha => ?_) ?_)
    | (with_reducible refine foldl_keeps _ _ _ _ (fun a x ha => ?_) ?_)
    | (with_reducible refine whenDo_keeps _ _ _ _ (fun a ha => ?_) ?_)
    | split

@[simp] theorem upward_view (s : State) (m : DnN) (h : Hdr) (pid len : Nat) : view (upward s m h pid len).1 = view s := by
  unfold upward; try dsimp only
  (repeat' split) <;> simp [parts]

@[simp] theorem surveyUp_view (s : State) (m : DnN) (h : Hdr) (pid len : Nat) : view (surveyUp s m h pid len).1 = view s := by
  unfold surveyUp; try dsimp only
  (repeat' split) <;> simp [parts]

@[simp] theorem answerUp_view (s : State) (m : DnN) (h : Hdr) (pid len : Nat) : view (answerUp s m h pid len).2.1 = view s := by
  unfold answerUp; try dsimp only
  (repeat' split) <;> simp [parts]

@[simp] theorem headerDown_view (s : State) (m : DnN) (ws : List Word) (h : Hdr) (len : Nat) :
    view (headerDown s m ws h len) = view s := by
  unfold headerDown
  try lift_lets
  repeat' first
    | with_reducible assumption
    | (intro x; with_reducible apply let_cut x s; subst x; swap; clear_value x; intro hx)
    | (intro x; subst x)
    | (simp [*, parts]; done)
    | split

@[simp] theorem rxUnclosed_view (s : State) (n : PortN) :
    view (rxUnclosed s n) = view s := by
  unfold rxUnclosed
  try lift_lets
  repeat' first
    | with_reducible assumption
    | (intro x; with_reducible apply let_cut x s; subst x; swap; clear_value x; intro hx)
    | (intro x; subst x)
    | (simp [*, parts]; done)
    | split

@[simp] theorem setRxLen_view (s : State) (n : PortN) (pid words : Nat) :
    view (setRxLen s n pid words) = view s := by
  unfold setRxLen
  try lift_lets
  repeat' first
    | with_reducible assumption
    | (intro x; with_reducible apply let_cut x s; subst x; swap; clear_value x; intro hx)
    | (intro x; subst x)
    | (simp [*, parts]; done)
    | split

@[simp] theorem floodClose_view (s : State) (n : PortN) (words : Nat) (pcls : Bool) :
    view (floodClose s n words pcls) = view s := by
  unfold floodClose
  try lift_lets
  repeat' first
    | with_reducible assumption
    | (intro x; with_reducible apply let_cut x s; subst x; swap; clear_value x; intro hx)
    | (intro x; subst x)
    | (simp [*, parts]; done)
    | split

@[simp] theorem floodHeader_view (s : State) (n : PortN) (w0 w1 w2 w3 : Word) (len : Nat) :
    view (floodHeader s n w0 w1 w2 w3 len) = view s := by
  unfold floodHeader
  try lift_lets
  repeat' first
    | with_reducible assumption
    | (intro x; with_reducible apply let_cut x s; subst x; swap; clear_value x; intro hx)
    | (intro x; subst x)
    | (simp [*, parts]; done)
    | split

@[simp] theorem headerRx_keeps (s0 : State) (s : State) (n : PortN) (w0 : Word) (w1 : Word) (w2 : Word) (w3 : Word) (len : Nat) (hs : Keeps s0 (view s)) :
    Keeps s0 (view (headerRx s n w0 w1 w2 w3 len)) := by
  unfold headerRx
  try lift_lets
  repeat' first
    | with_reducible assumption
    | (intro x; with_reducible apply let_cutK x s0; subst x; swap; clear_value x; intro hx)
    | (intro x; subst x)
    | (simp +contextual [*, parts]; done)
    | split

@[simp] theorem chunkStep_view (s : State) :
    view (chunkStep s) = view s := by
  unfold chunkStep
  try lift_lets
  repeat' first
    | with_reducible assumption
    | (intro x; with_reducible apply let_cut x s; subst x; swap; clear_value x; intro hx)
    | (intro x; subst x)
    | (simp [*, parts]; done)
    | split

@[simp] theorem slotAnswer_view (s : State) (j : Fin 48) (pid : Nat) (p : Pkt) :
    view (slotAnswer s j pid p) = view s := by
  unfold slotAnswer
  try lift_lets
  repeat' first
    | with_reducible assumption
    | (intro x; with_reducible apply let_cut x s; subst x; swap; clear_value x; intro hx)
    | (intro x; subst x)
    | (simp [*, parts]; done)
    | split

@[simp] theorem countForwarded_view (s : State) (n : PortN) :
    view (countForwarded s n) = view s := by
  unfold countForwarded
  try lift_lets
  repeat' first
    | with_reducible assumption
    | (intro x; with_reducible apply let_cut x s; subst x; swap; clear_value x; intro hx)
    | (intro x; subst x)
    | (simp [*, parts]; done)
    | split

@[simp] theorem inboxPush_view (s : State) (n : PortN) (r : RxPkt) (d : Deliver) (p : Pkt) :
    view (inboxPush s n r d p) = view s := by
  unfold inboxPush
  try lift_lets
  repeat' first
    | with_reducible assumption
    | (intro x; with_reducible apply let_cut x s; subst x; swap; clear_value x; intro hx)
    | (intro x; subst x)
    | (simp [*, parts]; done)
    | split

@[simp] theorem deliver_view (n : PortN) (r : RxPkt) (raw : List Word) (p : Pkt) (s : State) (d : Deliver) :
    view (deliver n r raw p s d) = view s := by
  unfold deliver
  try lift_lets
  repeat' first
    | with_reducible assumption
    | (intro x; with_reducible apply let_cut x s; subst x; swap; clear_value x; intro hx)
    | (intro x; subst x)
    | (simp [*, parts]; done)
    | split

@[simp] theorem finishCopies_view (pid : Nat) (payload : List Word) (s : State) :
    view (finishCopies pid payload s) = view s := by
  unfold finishCopies
  try lift_lets
  repeat' first
    | with_reducible assumption
    | (intro x; with_reducible apply let_cut x s; subst x; swap; clear_value x; intro hx)
    | (intro x; subst x)
    | (simp [*, parts]; done)
    | split

@[simp] theorem trailerGood_view (s : State) (n : PortN) (r : RxPkt) (payload : List Word) :
    view (trailerGood s n r payload) = view s := by
  unfold trailerGood
  try lift_lets
  repeat' first
    | with_reducible assumption
    | (intro x; with_reducible apply let_cut x s; subst x; swap; clear_value x; intro hx)
    | (intro x; subst x)
    | (simp [*, parts]; done)
    | split

@[simp] theorem countCrc_view (s : State) (n : PortN) :
    view (countCrc s n) = view s := by
  unfold countCrc
  try lift_lets
  repeat' first
    | with_reducible assumption
    | (intro x; with_reducible apply let_cut x s; subst x; swap; clear_value x; intro hx)
    | (intro x; subst x)
    | (simp [*, parts]; done)
    | split

@[simp] theorem trailerRx_view (s : State) (n : PortN) (ws : List Word) :
    view (trailerRx s n ws) = view s := by
  unfold trailerRx
  try lift_lets
  repeat' first
    | with_reducible assumption
    | (intro x; with_reducible apply let_cut x s; subst x; swap; clear_value x; intro hx)
    | (intro x; subst x)
    | (simp [*, parts]; done)
    | split

@[simp] theorem eabRx_view (s : State) (n : PortN) (reason : Nat) (words : Nat) (pcls : Bool) :
    view (eabRx s n reason words pcls) = view s := by
  unfold eabRx
  try lift_lets
  repeat' first
    | with_reducible assumption
    | (intro x; with_reducible apply let_cut x s; subst x; swap; clear_value x; intro hx)
    | (intro x; subst x)
    | (simp [*, parts]; done)
    | split

@[simp] theorem noteT1_view (s : State) (t : TxPkt) :
    view (noteT1 s t) = view s := by
  unfold noteT1
  try lift_lets
  repeat' first
    | with_reducible assumption
    | (intro x; with_reducible apply let_cut x s; subst x; swap; clear_value x; intro hx)
    | (intro x; subst x)
    | (simp [*, parts]; done)
    | split

@[simp] theorem startTx_view (n : PortN) (t : TxPkt) (s : State) :
    view (startTx n t s) = view s := by
  unfold startTx
  try lift_lets
  repeat' first
    | with_reducible assumption
    | (intro x; with_reducible apply let_cut x s; subst x; swap; clear_value x; intro hx)
    | (intro x; subst x)
    | (simp [*, parts]; done)
    | split

@[simp] theorem freeSlot_view (s : State) (j : Fin 48) :
    view (freeSlot s j) = view s := by
  unfold freeSlot
  try lift_lets
  repeat' first
    | with_reducible assumption
    | (intro x; with_reducible apply let_cut x s; subst x; swap; clear_value x; intro hx)
    | (intro x; subst x)
    | (simp [*, parts]; done)
    | split

@[simp] theorem eopAct_view (s : State) (a : OnEop) :
    view (eopAct s a) = view s := by
  unfold eopAct
  try lift_lets
  repeat' first
    | with_reducible assumption
    | (intro x; with_reducible apply let_cut x s; subst x; swap; clear_value x; intro hx)
    | (intro x; subst x)
    | (simp [*, parts]; done)
    | split

@[simp] theorem eopSent_view (s : State) (n : PortN) :
    view (eopSent s n) = view s := by
  unfold eopSent
  try lift_lets
  repeat' first
    | with_reducible assumption
    | (intro x; with_reducible apply let_cut x s; subst x; swap; clear_value x; intro hx)
    | (intro x; subst x)
    | (simp [*, parts]; done)
    | split

/-! ## Split -/

@[simp] theorem proxySend_view (s : State) (m : DnN) (ord : Nat) (outer : Hdr) (inner : Hdr) (payload : List Word) :
    view (proxySend s m ord outer inner payload) = view s := by
  unfold proxySend
  try lift_lets
  repeat' first
    | with_reducible assumption
    | (intro x; with_reducible apply let_cut x s; subst x; swap; clear_value x; intro hx)
    | (intro x; subst x)
    | (simp [*, parts]; done)
    | split

@[simp] theorem proxyTo_view (s : State) (m : DnN) (ord : Nat) (outer : Hdr) (inner : Hdr) (payload : List Word) :
    view (proxyTo s m ord outer inner payload) = view s := by
  unfold proxyTo
  try lift_lets
  repeat' first
    | with_reducible assumption
    | (intro x; with_reducible apply let_cut x s; subst x; swap; clear_value x; intro hx)
    | (intro x; subst x)
    | (simp [*, parts]; done)
    | split

@[simp] theorem proxyRx_view (s : State) (ord : Nat) (p : Pkt) :
    view (proxyRx s ord p) = view s := by
  unfold proxyRx
  try lift_lets
  repeat' first
    | with_reducible assumption
    | (intro x; with_reducible apply let_cut x s; subst x; swap; clear_value x; intro hx)
    | (intro x; subst x)
    | (simp [*, parts]; done)
    | split

@[simp] theorem ttSend_view (s : State) (p : Pkt) (act : OnEop) :
    view (ttSend s p act) = view s := by
  unfold ttSend
  try lift_lets
  repeat' first
    | with_reducible assumption
    | (intro x; with_reducible apply let_cut x s; subst x; swap; clear_value x; intro hx)
    | (intro x; subst x)
    | (simp [*, parts]; done)
    | split

@[simp] theorem ttHshk_view (s : State) (h : Hdr) (code : Nat) :
    view (ttHshk s h code) = view s := by
  unfold ttHshk
  try lift_lets
  repeat' first
    | with_reducible assumption
    | (intro x; with_reducible apply let_cut x s; subst x; swap; clear_value x; intro hx)
    | (intro x; subst x)
    | (simp [*, parts]; done)
    | split

@[simp] theorem queueInner_view (s : State) (m : DnN) (j : Fin 48) (ord : Nat) (q : Pkt) :
    view (queueInner s m j ord q) = view s := by
  unfold queueInner
  try lift_lets
  repeat' first
    | with_reducible assumption
    | (intro x; with_reducible apply let_cut x s; subst x; swap; clear_value x; intro hx)
    | (intro x; subst x)
    | (simp [*, parts]; done)
    | split

@[simp] theorem acceptSplit_view (s : State) (m : DnN) (j : Fin 48) (ord : Nat) (p : Pkt) :
    view (acceptSplit s m j ord p) = view s := by
  unfold acceptSplit
  try lift_lets
  repeat' first
    | with_reducible assumption
    | (intro x; with_reducible apply let_cut x s; subst x; swap; clear_value x; intro hx)
    | (intro x; subst x)
    | (simp [*, parts]; done)
    | split

@[simp] theorem splitN_view (s : State) (m : DnN) (ord : Nat) (p : Pkt) :
    view (splitN s m ord p) = view s := by
  unfold splitN
  try lift_lets
  repeat' first
    | with_reducible assumption
    | (intro x; with_reducible apply let_cut x s; subst x; swap; clear_value x; intro hx)
    | (intro x; subst x)
    | (simp [*, parts]; done)
    | split

@[simp] theorem splitP_view (s : State) (m : DnN) (ord : Nat) (p : Pkt) :
    view (splitP s m ord p) = view s := by
  unfold splitP
  try lift_lets
  repeat' first
    | with_reducible assumption
    | (intro x; with_reducible apply let_cut x s; subst x; swap; clear_value x; intro hx)
    | (intro x; subst x)
    | (simp [*, parts]; done)
    | split

@[simp] theorem splitLate_view (s : State) (m : DnN) (p : Pkt) :
    view (splitLate s m p) = view s := by
  unfold splitLate
  try lift_lets
  repeat' first
    | with_reducible assumption
    | (intro x; with_reducible apply let_cut x s; subst x; swap; clear_value x; intro hx)
    | (intro x; subst x)
    | (simp [*, parts]; done)
    | split

@[simp] theorem ssplitRx_view (s : State) (m : DnN) (ord : Nat) (p : Pkt) :
    view (ssplitRx s m ord p) = view s := by
  unfold ssplitRx
  try lift_lets
  repeat' first
    | with_reducible assumption
    | (intro x; with_reducible apply let_cut x s; subst x; swap; clear_value x; intro hx)
    | (intro x; subst x)
    | (simp [*, parts]; done)
    | split

@[simp] theorem onTt_keeps (s0 : State) (typ : BitVec 4) (act : State → DnN → Nat → Pkt → State) (s : State)
    (h : ∀ a x n k, Keeps s0 (view a) → Keeps s0 (view (act a x n k))) (hs : Keeps s0 (view s)) : Keeps s0 (view (onTt typ act s)) := by
  unfold onTt
  split
  · exact hs
  · rename_i x s1 he
    have hv : Keeps s0 (view s1) := by rw [takeInbox_view _ _ _ _ he]; exact hs
    split
    · exact h _ _ _ _ hv
    · exact hv

@[simp] theorem csplitSlot_view (s : State) (j : Fin 48) (x : Slot) (h : Hdr) :
    view (csplitSlot s j x h) = view s := by
  unfold csplitSlot
  try lift_lets
  repeat' first
    | with_reducible assumption
    | (intro x; with_reducible apply let_cut x s; subst x; swap; clear_value x; intro hx)
    | (intro x; subst x)
    | (simp [*, parts]; done)
    | split

@[simp] theorem csplitRx_view (s : State) (m : DnN) (p : Pkt) :
    view (csplitRx s m p) = view s := by
  unfold csplitRx
  try lift_lets
  repeat' first
    | with_reducible assumption
    | (intro x; with_reducible apply let_cut x s; subst x; swap; clear_value x; intro hx)
    | (intro x; subst x)
    | (simp [*, parts]; done)
    | split

@[simp] theorem failSlot_view (s : State) (j : Fin 48) :
    view (failSlot s j) = view s := by
  unfold failSlot
  try lift_lets
  repeat' first
    | with_reducible assumption
    | (intro x; with_reducible apply let_cut x s; subst x; swap; clear_value x; intro hx)
    | (intro x; subst x)
    | (simp [*, parts]; done)
    | split

@[simp] theorem onSlot_view (s : State) (j : Fin 48) (f : Slot → Bool) (act : State → State) (hact : ∀ a0, view (act a0) = view a0) :
    view (onSlot s j f act) = view s := by
  unfold onSlot
  try lift_lets
  repeat' first
    | with_reducible assumption
    | (intro x; with_reducible apply let_cut x s; subst x; swap; clear_value x; intro hx)
    | (intro x; subst x)
    | (simp [*, parts]; done)
    | split

@[simp] theorem ttCntClr_view (s : State) :
    view (ttCntClr s) = view s := by
  unfold ttCntClr
  try lift_lets
  repeat' first
    | with_reducible assumption
    | (intro x; with_reducible apply let_cut x s; subst x; swap; clear_value x; intro hx)
    | (intro x; subst x)
    | (simp [*, parts]; done)
    | split

/-! ## Survey -/

@[simp] theorem sendReport_view (s : State) (h : Word) (k : Nat) (ws : List Word) :
    view (sendReport s h k ws) = view s := by
  unfold sendReport
  try lift_lets
  repeat' first
    | with_reducible assumption
    | (intro x; with_reducible apply let_cut x s; subst x; swap; clear_value x; intro hx)
    | (intro x; subst x)
    | (simp [*, parts]; done)
    | split

@[simp] theorem dropReport_view (s : State) :
    view (dropReport s) = view s := by
  unfold dropReport
  try lift_lets
  repeat' first
    | with_reducible assumption
    | (intro x; with_reducible apply let_cut x s; subst x; swap; clear_value x; intro hx)
    | (intro x; subst x)
    | (simp [*, parts]; done)
    | split

@[simp] theorem newReport_view (s : State) (h : Word) (mode : Nat) :
    view (newReport s h mode) = view s := by
  unfold newReport
  try lift_lets
  repeat' first
    | with_reducible assumption
    | (intro x; with_reducible apply let_cut x s; subst x; swap; clear_value x; intro hx)
    | (intro x; subst x)
    | (simp [*, parts]; done)
    | split

@[simp] theorem censusOpen_view (s : State) (p : Pkt) :
    view (censusOpen s p) = view s := by
  unfold censusOpen
  try lift_lets
  repeat' first
    | with_reducible assumption
    | (intro x; with_reducible apply let_cut x s; subst x; swap; clear_value x; intro hx)
    | (intro x; subst x)
    | (simp [*, parts]; done)
    | split

@[simp] theorem onSurvey_keeps (s0 : State) (tsb : Nat) (up : Bool) (act : State → Inbox → State) (s : State)
    (h : ∀ a x, Keeps s0 (view a) → Keeps s0 (view (act a x))) (hs : Keeps s0 (view s)) : Keeps s0 (view (onSurvey tsb up act s)) := by
  unfold onSurvey
  split
  · rename_i x s1 he
    have hv : Keeps s0 (view s1) := by rw [takeInbox_view _ _ _ _ he]; exact hs
    exact h _ _ hv
  · exact hs

@[simp] theorem sendProbe_view (s : State) (k : Nat) :
    view (sendProbe s k) = view s := by
  unfold sendProbe
  try lift_lets
  repeat' first
    | with_reducible assumption
    | (intro x; with_reducible apply let_cut x s; subst x; swap; clear_value x; intro hx)
    | (intro x; subst x)
    | (simp [*, parts]; done)
    | split

@[simp] theorem surveyOpen_view (s : State) (x : Inbox) :
    view (surveyOpen s x) = view s := by
  unfold surveyOpen
  try lift_lets
  repeat' first
    | with_reducible assumption
    | (intro x; with_reducible apply let_cut x s; subst x; swap; clear_value x; intro hx)
    | (intro x; subst x)
    | (simp [*, parts]; done)
    | split

@[simp] theorem sendRecord_view (s : State) :
    view (sendRecord s) = view s := by
  unfold sendRecord
  try lift_lets
  repeat' first
    | with_reducible assumption
    | (intro x; with_reducible apply let_cut x s; subst x; swap; clear_value x; intro hx)
    | (intro x; subst x)
    | (simp [*, parts]; done)
    | split

@[simp] theorem probingEnds_view (s : State) :
    view (probingEnds s) = view s := by
  unfold probingEnds
  try lift_lets
  repeat' first
    | with_reducible assumption
    | (intro x; with_reducible apply let_cut x s; subst x; swap; clear_value x; intro hx)
    | (intro x; subst x)
    | (simp [*, parts]; done)
    | split

@[simp] theorem surveyProbe_view (s : State) (m : DnN) (x : Inbox) :
    view (surveyProbe s m x) = view s := by
  unfold surveyProbe
  try lift_lets
  repeat' first
    | with_reducible assumption
    | (intro x; with_reducible apply let_cut x s; subst x; swap; clear_value x; intro hx)
    | (intro x; subst x)
    | (simp [*, parts]; done)
    | split

@[simp] theorem surveyEcho_view (s : State) (x : Inbox) :
    view (surveyEcho s x) = view s := by
  unfold surveyEcho
  try lift_lets
  repeat' first
    | with_reducible assumption
    | (intro x; with_reducible apply let_cut x s; subst x; swap; clear_value x; intro hx)
    | (intro x; subst x)
    | (simp [*, parts]; done)
    | split

@[simp] theorem surveyToken_view (s : State) (x : Inbox) :
    view (surveyToken s x) = view s := by
  unfold surveyToken
  try lift_lets
  repeat' first
    | with_reducible assumption
    | (intro x; with_reducible apply let_cut x s; subst x; swap; clear_value x; intro hx)
    | (intro x; subst x)
    | (simp [*, parts]; done)
    | split

@[simp] theorem probeWaitOver_view (s : State) :
    view (probeWaitOver s) = view s := by
  unfold probeWaitOver
  try lift_lets
  repeat' first
    | with_reducible assumption
    | (intro x; with_reducible apply let_cut x s; subst x; swap; clear_value x; intro hx)
    | (intro x; subst x)
    | (simp [*, parts]; done)
    | split

/-! ## Time -/

@[simp] theorem strokeStart_view (s : State) (n : BitVec 32) (b : BitVec 64) :
    view (strokeStart s n b) = view s := by
  unfold strokeStart
  try lift_lets
  repeat' first
    | with_reducible assumption
    | (intro x; with_reducible apply let_cut x s; subst x; swap; clear_value x; intro hx)
    | (intro x; subst x)
    | (simp [*, parts]; done)
    | split

@[simp] theorem gridStart_view (s : State) :
    view (gridStart s) = view s := by
  unfold gridStart
  try lift_lets
  repeat' first
    | with_reducible assumption
    | (intro x; with_reducible apply let_cut x s; subst x; swap; clear_value x; intro hx)
    | (intro x; subst x)
    | (simp [*, parts]; done)
    | split

@[simp] theorem gridCheck_view (old : Nat) (s : State) :
    view (gridCheck old s) = view s := by
  unfold gridCheck
  try lift_lets
  repeat' first
    | with_reducible assumption
    | (intro x; with_reducible apply let_cut x s; subst x; swap; clear_value x; intro hx)
    | (intro x; subst x)
    | (simp [*, parts]; done)
    | split

@[simp] theorem beaconMissed_view (s : State) :
    view (beaconMissed s) = view s := by
  unfold beaconMissed
  try lift_lets
  repeat' first
    | with_reducible assumption
    | (intro x; with_reducible apply let_cut x s; subst x; swap; clear_value x; intro hx)
    | (intro x; subst x)
    | (simp [*, parts]; done)
    | split

@[simp] theorem timeStep_view (s : State) (o : Int) :
    view (timeStep s o) = view s := by
  unfold timeStep
  try lift_lets
  repeat' first
    | with_reducible assumption
    | (intro x; with_reducible apply let_cut x s; subst x; swap; clear_value x; intro hx)
    | (intro x; subst x)
    | (simp [*, parts]; done)
    | split

@[simp] theorem servo_view (s : State) (o : Int) :
    view (servo s o) = view s := by
  unfold servo
  try lift_lets
  repeat' first
    | with_reducible assumption
    | (intro x; with_reducible apply let_cut x s; subst x; swap; clear_value x; intro hx)
    | (intro x; subst x)
    | (simp [*, parts]; done)
    | split

@[simp] theorem lockRun_view (s : State) (o : Int) :
    view (lockRun s o) = view s := by
  unfold lockRun
  try lift_lets
  repeat' first
    | with_reducible assumption
    | (intro x; with_reducible apply let_cut x s; subst x; swap; clear_value x; intro hx)
    | (intro x; subst x)
    | (simp [*, parts]; done)
    | split

@[simp] theorem regenerate_view (s : State) (n : Nat) (f : Nat) :
    view (regenerate s n f) = view s := by
  unfold regenerate
  try lift_lets
  repeat' first
    | with_reducible assumption
    | (intro x; with_reducible apply let_cut x s; subst x; swap; clear_value x; intro hx)
    | (intro x; subst x)
    | (simp [*, parts]; done)
    | split

@[simp] theorem resumeQuiet_view (s : State) :
    view (resumeQuiet s) = view s := by
  unfold resumeQuiet
  try lift_lets
  repeat' first
    | with_reducible assumption
    | (intro x; with_reducible apply let_cut x s; subst x; swap; clear_value x; intro hx)
    | (intro x; subst x)
    | (simp [*, parts]; done)
    | split

@[simp] theorem beaconTake_view (s : State) (n : Nat) (f : Nat) (fits : List Nat) :
    view (beaconTake s n f fits) = view s := by
  unfold beaconTake
  try lift_lets
  repeat' first
    | with_reducible assumption
    | (intro x; with_reducible apply let_cut x s; subst x; swap; clear_value x; intro hx)
    | (intro x; subst x)
    | (simp [*, parts]; done)
    | split

@[simp] theorem beaconRefuse_view (s : State) :
    view (beaconRefuse s) = view s := by
  unfold beaconRefuse
  try lift_lets
  repeat' first
    | with_reducible assumption
    | (intro x; with_reducible apply let_cut x s; subst x; swap; clear_value x; intro hx)
    | (intro x; subst x)
    | (simp [*, parts]; done)
    | split

@[simp] theorem stkRx_view (s : State) (ws : List Word) (chk : Word) (whole : Bool) :
    view (stkRx s ws chk whole) = view s := by
  unfold stkRx
  try lift_lets
  repeat' first
    | with_reducible assumption
    | (intro x; with_reducible apply let_cut x s; subst x; swap; clear_value x; intro hx)
    | (intro x; subst x)
    | (simp [*, parts]; done)
    | split

@[simp] theorem holdoverExpiry_view (s : State) :
    view (holdoverExpiry s) = view s := by
  unfold holdoverExpiry
  try lift_lets
  repeat' first
    | with_reducible assumption
    | (intro x; with_reducible apply let_cut x s; subst x; swap; clear_value x; intro hx)
    | (intro x; subst x)
    | (simp [*, parts]; done)
    | split

@[simp] theorem latchTime_view (s : State) (p : Path) :
    view (latchTime s p) = view s := by
  unfold latchTime
  try lift_lets
  repeat' first
    | with_reducible assumption
    | (intro x; with_reducible apply let_cut x s; subst x; swap; clear_value x; intro hx)
    | (intro x; subst x)
    | (simp [*, parts]; done)
    | split

@[simp] theorem catchCrew_view (s : State) (k : CrewN) :
    view (catchCrew s k) = view s := by
  unfold catchCrew
  try lift_lets
  repeat' first
    | with_reducible assumption
    | (intro x; with_reducible apply let_cut x s; subst x; swap; clear_value x; intro hx)
    | (intro x; subst x)
    | (simp [*, parts]; done)
    | split

@[simp] theorem catchAll_view (s : State) (crews : BitVec 8) :
    view (catchAll s crews) = view s := by
  unfold catchAll
  try lift_lets
  repeat' first
    | with_reducible assumption
    | (intro x; with_reducible apply let_cut x s; subst x; swap; clear_value x; intro hx)
    | (intro x; subst x)
    | (simp [*, parts]; done)
    | split

@[simp] theorem timeMoved_view (old : Nat) (s : State) :
    view (timeMoved old s) = view s := by
  unfold timeMoved
  try lift_lets
  repeat' first
    | with_reducible assumption
    | (intro x; with_reducible apply let_cut x s; subst x; swap; clear_value x; intro hx)
    | (intro x; subst x)
    | (simp [*, parts]; done)
    | split

@[simp] theorem crewPut_view (s : State) (k : CrewN) (new : Crew) :
    view (crewPut s k new) = view s := by
  unfold crewPut
  try lift_lets
  repeat' first
    | with_reducible assumption
    | (intro x; with_reducible apply let_cut x s; subst x; swap; clear_value x; intro hx)
    | (intro x; subst x)
    | (simp [*, parts]; done)
    | split

@[simp] theorem crewSet_view (s : State) (k : CrewN) (m0 : Word) (m1 : Word) (ofs : Word) (ctrl : Word) :
    view (crewSet s k m0 m1 ofs ctrl) = view s := by
  unfold crewSet
  try lift_lets
  repeat' first
    | with_reducible assumption
    | (intro x; with_reducible apply let_cut x s; subst x; swap; clear_value x; intro hx)
    | (intro x; subst x)
    | (simp [*, parts]; done)
    | split

end Sys2Proof.Machine
end

