-- ==== Sys2Proof/Laws/KeptHost.lean ====
section
/-! SUPPORT. What the helpers of commands, PCIe, rings, summaries and arbiters keep of the view of a state: one lemma each. -/

set_option linter.all false

namespace Sys2Proof.Machine

open Sys2Proof

/-! ## Command -/

@[simp] theorem cmdAsk_view (s : State) (d : DomN) :
    view (cmdAsk s d) = view s := by
  unfold cmdAsk
  try lift_lets
  repeat' first
    | with_reducible assumption
    | (intro x; with_reducible apply let_cut x s; subst x; swap; clear_value x; intro hx)
    | (intro x; subst x)
    | (simp [*, parts]; done)
    | split

@[simp] theorem finishCmd_view (s : State) (d : DomN) (c : Cmd) (status : Nat) (r4 : Word) (r5 : Word) :
    view (finishCmd s d c status r4 r5) = view s := by
  unfold finishCmd
  try lift_lets
  repeat' first
    | with_reducible assumption
    | (intro x; with_reducible apply let_cut x s; subst x; swap; clear_value x; intro hx)
    | (intro x; subst x)
    | (simp [*, parts]; done)
    | split

@[simp] theorem endCmd_view (s : State) (d : DomN) (c : Cmd) (status : Nat) (f : State → State) (r4 : Word)
    (hf : ∀ a, view (f a) = view a) : view (endCmd s d c status f r4) = view s := by
  unfold endCmd; split <;> simp [hf]
@[simp] theorem endCmd_keeps (s0 s : State) (d : DomN) (c : Cmd) (status : Nat) (f : State → State) (r4 : Word)
    (hf : ∀ a, Keeps s0 (view a) → Keeps s0 (view (f a))) (hs : Keeps s0 (view s)) : Keeps s0 (view (endCmd s d c status f r4)) := by
  unfold endCmd; split
  · simpa using hf s hs
  · simpa [parts] using hs

@[simp] theorem dataCmd_view (s : State) (d : DomN) (c : Cmd) (status : Nat) (ws : List Word) (r4 : Nat) :
    view (dataCmd s d c status ws r4) = view s := by
  unfold dataCmd
  try lift_lets
  repeat' first
    | with_reducible assumption
    | (intro x; with_reducible apply let_cut x s; subst x; swap; clear_value x; intro hx)
    | (intro x; subst x)
    | (simp [*, parts]; done)
    | split

@[simp] theorem deny_view (s : State) (d : DomN) (r : Nat) :
    view (deny s d r) = view s := by
  unfold deny
  try lift_lets
  repeat' first
    | with_reducible assumption
    | (intro x; with_reducible apply let_cut x s; subst x; swap; clear_value x; intro hx)
    | (intro x; subst x)
    | (simp [*, parts]; done)
    | split

@[simp] theorem cmdNop_view (s : State) (d : DomN) (c : Cmd) :
    view (cmdNop s d c) = view s := by
  unfold cmdNop
  try lift_lets
  repeat' first
    | with_reducible assumption
    | (intro x; with_reducible apply let_cut x s; subst x; swap; clear_value x; intro hx)
    | (intro x; subst x)
    | (simp [*, parts]; done)
    | split

@[simp] theorem ringSet_view (s : State) (c : Cmd) :
    view (ringSet s c) = view s := by
  unfold ringSet
  try lift_lets
  repeat' first
    | with_reducible assumption
    | (intro x; with_reducible apply let_cut x s; subst x; swap; clear_value x; intro hx)
    | (intro x; subst x)
    | (simp [*, parts]; done)
    | split

@[simp] theorem cmdRingSet_view (s : State) (d : DomN) (c : Cmd) :
    view (cmdRingSet s d c) = view s := by
  unfold cmdRingSet
  try lift_lets
  repeat' first
    | with_reducible assumption
    | (intro x; with_reducible apply let_cut x s; subst x; swap; clear_value x; intro hx)
    | (intro x; subst x)
    | (simp [*, parts]; done)
    | split

@[simp] theorem dropEpReqs_view (s : State) (k : EpN) :
    view (dropEpReqs s k) = view s := by
  unfold dropEpReqs
  try lift_lets
  repeat' first
    | with_reducible assumption
    | (intro x; with_reducible apply let_cut x s; subst x; swap; clear_value x; intro hx)
    | (intro x; subst x)
    | (simp [*, parts]; done)
    | split

@[simp] theorem ringStop_view (s : State) (k : EpN) :
    view (ringStop s k) = view s := by
  unfold ringStop
  try lift_lets
  repeat' first
    | with_reducible assumption
    | (intro x; with_reducible apply let_cut x s; subst x; swap; clear_value x; intro hx)
    | (intro x; subst x)
    | (simp [*, parts]; done)
    | split

@[simp] theorem cmdRingStop_view (s : State) (d : DomN) (c : Cmd) :
    view (cmdRingStop s d c) = view s := by
  unfold cmdRingStop
  try lift_lets
  repeat' first
    | with_reducible assumption
    | (intro x; with_reducible apply let_cut x s; subst x; swap; clear_value x; intro hx)
    | (intro x; subst x)
    | (simp [*, parts]; done)
    | split

@[simp] theorem epHalt_view (s : State) (k : EpN) (v : Bool) :
    view (epHalt s k v) = view s := by
  unfold epHalt
  try lift_lets
  repeat' first
    | with_reducible assumption
    | (intro x; with_reducible apply let_cut x s; subst x; swap; clear_value x; intro hx)
    | (intro x; subst x)
    | (simp [*, parts]; done)
    | split

@[simp] theorem cmdEpHalt_view (s : State) (d : DomN) (c : Cmd) :
    view (cmdEpHalt s d c) = view s := by
  unfold cmdEpHalt
  try lift_lets
  repeat' first
    | with_reducible assumption
    | (intro x; with_reducible apply let_cut x s; subst x; swap; clear_value x; intro hx)
    | (intro x; subst x)
    | (simp [*, parts]; done)
    | split

@[simp] theorem cmdPortPower_view (s : State) (d : DomN) (c : Cmd) :
    view (cmdPortPower s d c) = view s := by
  unfold cmdPortPower
  try lift_lets
  repeat' first
    | with_reducible assumption
    | (intro x; with_reducible apply let_cut x s; subst x; swap; clear_value x; intro hx)
    | (intro x; subst x)
    | (simp [*, parts]; done)
    | split

@[simp] theorem cmdSetBudget_view (s : State) (d : DomN) (c : Cmd) :
    view (cmdSetBudget s d c) = view s := by
  unfold cmdSetBudget
  try lift_lets
  repeat' first
    | with_reducible assumption
    | (intro x; with_reducible apply let_cut x s; subst x; swap; clear_value x; intro hx)
    | (intro x; subst x)
    | (simp [*, parts]; done)
    | split

@[simp] theorem cmdPpsLimit_view (s : State) (d : DomN) (c : Cmd) :
    view (cmdPpsLimit s d c) = view s := by
  unfold cmdPpsLimit
  try lift_lets
  repeat' first
    | with_reducible assumption
    | (intro x; with_reducible apply let_cut x s; subst x; swap; clear_value x; intro hx)
    | (intro x; subst x)
    | (simp [*, parts]; done)
    | split

@[simp] theorem snapWait_view (s : State) (d : DomN) (c : Cmd) :
    view (snapWait s d c) = view s := by
  unfold snapWait
  try lift_lets
  repeat' first
    | with_reducible assumption
    | (intro x; with_reducible apply let_cut x s; subst x; swap; clear_value x; intro hx)
    | (intro x; subst x)
    | (simp [*, parts]; done)
    | split

@[simp] theorem cmdMeterSnap_view (s : State) (d : DomN) (c : Cmd) :
    view (cmdMeterSnap s d c) = view s := by
  unfold cmdMeterSnap
  try lift_lets
  repeat' first
    | with_reducible assumption
    | (intro x; with_reducible apply let_cut x s; subst x; swap; clear_value x; intro hx)
    | (intro x; subst x)
    | (simp [*, parts]; done)
    | split

@[simp] theorem cmdMeterRead_view (s : State) (d : DomN) (c : Cmd) :
    view (cmdMeterRead s d c) = view s := by
  unfold cmdMeterRead
  try lift_lets
  repeat' first
    | with_reducible assumption
    | (intro x; with_reducible apply let_cut x s; subst x; swap; clear_value x; intro hx)
    | (intro x; subst x)
    | (simp [*, parts]; done)
    | split

@[simp] theorem cmdCrewSet_keeps (s0 s : State) (d : DomN) (c : Cmd) (hs : Keeps s0 (view s)) : Keeps s0 (view (cmdCrewSet s d c)) := by
  unfold cmdCrewSet
  refine endCmd_keeps _ _ _ _ _ _ _ (fun a ha => ?_) ?_
  · simpa [parts] using ha
  · simpa [parts] using hs

@[simp] theorem pinWrite_view (s : State) (i : Fin 4) (v : Word) :
    view (pinWrite s i v) = view s := by
  unfold pinWrite
  try lift_lets
  repeat' first
    | with_reducible assumption
    | (intro x; with_reducible apply let_cut x s; subst x; swap; clear_value x; intro hx)
    | (intro x; subst x)
    | (simp [*, parts]; done)
    | split

@[simp] theorem cmdCatchPin_view (s : State) (d : DomN) (c : Cmd) :
    view (cmdCatchPin s d c) = view s := by
  unfold cmdCatchPin
  try lift_lets
  repeat' first
    | with_reducible assumption
    | (intro x; with_reducible apply let_cut x s; subst x; swap; clear_value x; intro hx)
    | (intro x; subst x)
    | (simp [*, parts]; done)
    | split

@[simp] theorem cmdLogRead_view (s : State) (d : DomN) (c : Cmd) :
    view (cmdLogRead s d c) = view s := by
  unfold cmdLogRead
  try lift_lets
  repeat' first
    | with_reducible assumption
    | (intro x; with_reducible apply let_cut x s; subst x; swap; clear_value x; intro hx)
    | (intro x; subst x)
    | (simp [*, parts]; done)
    | split

@[simp] theorem cmdPortStatus_view (s : State) (d : DomN) (c : Cmd) :
    view (cmdPortStatus s d c) = view s := by
  unfold cmdPortStatus
  try lift_lets
  repeat' first
    | with_reducible assumption
    | (intro x; with_reducible apply let_cut x s; subst x; swap; clear_value x; intro hx)
    | (intro x; subst x)
    | (simp [*, parts]; done)
    | split

@[simp] theorem cmdNodeInfo_view (s : State) (d : DomN) (c : Cmd) :
    view (cmdNodeInfo s d c) = view s := by
  unfold cmdNodeInfo
  try lift_lets
  repeat' first
    | with_reducible assumption
    | (intro x; with_reducible apply let_cut x s; subst x; swap; clear_value x; intro hx)
    | (intro x; subst x)
    | (simp [*, parts]; done)
    | split

@[simp] theorem skipBad_view (s : State) (d : DomN) :
    view (skipBad s d) = view s := by
  unfold skipBad
  try lift_lets
  repeat' first
    | with_reducible assumption
    | (intro x; with_reducible apply let_cut x s; subst x; swap; clear_value x; intro hx)
    | (intro x; subst x)
    | (simp [*, parts]; done)
    | split

@[simp] theorem cmdGoOn_view (s : State) (d : DomN) :
    view (cmdGoOn s d) = view s := by
  unfold cmdGoOn
  try lift_lets
  repeat' first
    | with_reducible assumption
    | (intro x; with_reducible apply let_cut x s; subst x; swap; clear_value x; intro hx)
    | (intro x; subst x)
    | (simp [*, parts]; done)
    | split

@[simp] theorem runCmd_view (op : Nat) (f : State → DomN → Cmd → State) (d : DomN) (s : State) (hf : ∀ a0 a1 a2, view (f a0 a1 a2) = view a0) :
    view (runCmd op f d s) = view s := by
  unfold runCmd
  try lift_lets
  repeat' first
    | with_reducible assumption
    | (intro x; with_reducible apply let_cut x s; subst x; swap; clear_value x; intro hx)
    | (intro x; subst x)
    | (simp [*, parts]; done)
    | split

@[simp] theorem cmdDataDone_view (s : State) (d : DomN) :
    view (cmdDataDone s d) = view s := by
  unfold cmdDataDone
  try lift_lets
  repeat' first
    | with_reducible assumption
    | (intro x; with_reducible apply let_cut x s; subst x; swap; clear_value x; intro hx)
    | (intro x; subst x)
    | (simp [*, parts]; done)
    | split

@[simp] theorem snapWaiters_keeps (s0 : State) (s : State) (hs : Keeps s0 (view s)) :
    Keeps s0 (view (snapWaiters s)) := by
  unfold snapWaiters
  try dsimp only
  repeat' first
    | with_reducible assumption
    | (simp [*, parts]; done)
    | (simp +contextual [*, parts]; done)
    | (with_reducible refine forEach_keeps _ _ _ _ (fun a x ha => ?_) ?_)
    | (with_reducible refine foldl_keeps _ _ _ _ (fun a x ha => ?_) ?_)
    | (with_reducible refine whenDo_keeps _ _ _ _ (fun a ha => ?_) ?_)
    | split

@[simp] theorem afterEntry_view (s : State) (d : DomN) (q : EvQ) :
    view (afterEntry s d q) = view s := by
  unfold afterEntry
  try lift_lets
  repeat' first
    | with_reducible assumption
    | (intro x; with_reducible apply let_cut x s; subst x; swap; clear_value x; intro hx)
    | (intro x; subst x)
    | (simp [*, parts]; done)
    | split

@[simp] theorem entryDone_view (s : State) (d : DomN) (q : EvQ) (rest : List EvQ) :
    view (entryDone s d q rest) = view s := by
  unfold entryDone
  try lift_lets
  repeat' first
    | with_reducible assumption
    | (intro x; with_reducible apply let_cut x s; subst x; swap; clear_value x; intro hx)
    | (intro x; subst x)
    | (simp [*, parts]; done)
    | split

@[simp] theorem eventWrite_view (s : State) (d : DomN) :
    view (eventWrite s d) = view s := by
  unfold eventWrite
  try lift_lets
  repeat' first
    | with_reducible assumption
    | (intro x; with_reducible apply let_cut x s; subst x; swap; clear_value x; intro hx)
    | (intro x; subst x)
    | (simp [*, parts]; done)
    | split

/-! ## Pcie -/

@[simp] theorem sendErr_view (s : State) (d : DomN) (m : Option ErrMsg) :
    view (sendErr s d m) = view s := by
  unfold sendErr
  try lift_lets
  repeat' first
    | with_reducible assumption
    | (intro x; with_reducible apply let_cut x s; subst x; swap; clear_value x; intro hx)
    | (intro x; subst x)
    | (simp [*, parts]; done)
    | split

@[simp] theorem aerLog_view (s : State) (d : DomN) (b : Nat) (advisory : Bool) :
    view (aerLog s d b advisory) = view s := by
  unfold aerLog
  try lift_lets
  repeat' first
    | with_reducible assumption
    | (intro x; with_reducible apply let_cut x s; subst x; swap; clear_value x; intro hx)
    | (intro x; subst x)
    | (simp [*, parts]; done)
    | split

@[simp] theorem unexpected_view (s : State) :
    view (unexpected s) = view s := by
  unfold unexpected
  try lift_lets
  repeat' first
    | with_reducible assumption
    | (intro x; with_reducible apply let_cut x s; subst x; swap; clear_value x; intro hx)
    | (intro x; subst x)
    | (simp [*, parts]; done)
    | split

@[simp] theorem aerCorLog_view (s : State) (b : Nat) :
    view (aerCorLog s b) = view s := by
  unfold aerCorLog
  try lift_lets
  repeat' first
    | with_reducible assumption
    | (intro x; with_reducible apply let_cut x s; subst x; swap; clear_value x; intro hx)
    | (intro x; subst x)
    | (simp [*, parts]; done)
    | split

@[simp] theorem linkError_view (s : State) (x0 : LinkErr) :
    view (linkError s x0) = view s := by
  unfold linkError
  try lift_lets
  repeat' first
    | with_reducible assumption
    | (intro x; with_reducible apply let_cut x s; subst x; swap; clear_value x; intro hx)
    | (intro x; subst x)
    | (simp [*, parts]; done)
    | split

@[simp] theorem unsupported_view (s : State) (d : DomN) :
    view (unsupported s d) = view s := by
  unfold unsupported
  try lift_lets
  repeat' first
    | with_reducible assumption
    | (intro x; with_reducible apply let_cut x s; subst x; swap; clear_value x; intro hx)
    | (intro x; subst x)
    | (simp [*, parts]; done)
    | split

@[simp] theorem winRefuse_view (s : State) (d : DomN) (read : Bool) :
    view (winRefuse s d read) = view s := by
  unfold winRefuse
  try lift_lets
  repeat' first
    | with_reducible assumption
    | (intro x; with_reducible apply let_cut x s; subst x; swap; clear_value x; intro hx)
    | (intro x; subst x)
    | (simp [*, parts]; done)
    | split

@[simp] theorem onWindow_view (s : State) (d : DomN) (read : Bool) (f : State → State) (h : view (f s) = view s) :
    view (onWindow s d read f) = view s := by
  unfold onWindow; (repeat' split) <;> simp [*]

@[simp] theorem refuseRequest_view (s : State) (d : DomN) (x0 : BadRequest) :
    view (refuseRequest s d x0) = view s := by
  unfold refuseRequest
  try lift_lets
  repeat' first
    | with_reducible assumption
    | (intro x; with_reducible apply let_cut x s; subst x; swap; clear_value x; intro hx)
    | (intro x; subst x)
    | (simp [*, parts]; done)
    | split

@[simp] theorem onCfg_view (d : DomN) (f : State → State) (s : State) (hf : ∀ a0, view (f a0) = view a0) :
    view (onCfg d f s) = view s := by
  unfold onCfg
  try lift_lets
  repeat' first
    | with_reducible assumption
    | (intro x; with_reducible apply let_cut x s; subst x; swap; clear_value x; intro hx)
    | (intro x; subst x)
    | (simp [*, parts]; done)
    | split

@[simp] theorem abandonSave_view (s : State) :
    view (abandonSave s) = view s := by
  unfold abandonSave
  try lift_lets
  repeat' first
    | with_reducible assumption
    | (intro x; with_reducible apply let_cut x s; subst x; swap; clear_value x; intro hx)
    | (intro x; subst x)
    | (simp [*, parts]; done)
    | split

@[simp] theorem hmaClear_view (s : State) :
    view (hmaClear s) = view s := by
  unfold hmaClear
  try lift_lets
  repeat' first
    | with_reducible assumption
    | (intro x; with_reducible apply let_cut x s; subst x; swap; clear_value x; intro hx)
    | (intro x; subst x)
    | (simp [*, parts]; done)
    | split

@[simp] theorem pcieReset_view (s : State) (sticky : Bool) (cause : Nat) (w : Nat) :
    view (pcieReset s sticky cause w) = view s := by
  unfold pcieReset
  try lift_lets
  repeat' first
    | with_reducible assumption
    | (intro x; with_reducible apply let_cut x s; subst x; swap; clear_value x; intro hx)
    | (intro x; subst x)
    | (simp [*, parts]; done)
    | split

@[simp] theorem perstFall_view (s : State) :
    view (perstFall s) = view s := by
  unfold perstFall
  try lift_lets
  repeat' first
    | with_reducible assumption
    | (intro x; with_reducible apply let_cut x s; subst x; swap; clear_value x; intro hx)
    | (intro x; subst x)
    | (simp [*, parts]; done)
    | split

@[simp] theorem vfsGone_view (s : State) (cause : Nat) :
    view (vfsGone s cause) = view s := by
  unfold vfsGone
  try lift_lets
  repeat' first
    | with_reducible assumption
    | (intro x; with_reducible apply let_cut x s; subst x; swap; clear_value x; intro hx)
    | (intro x; subst x)
    | (simp [*, parts]; done)
    | split

@[simp] theorem flrPf_view (s : State) :
    view (flrPf s) = view s := by
  unfold flrPf
  try lift_lets
  repeat' first
    | with_reducible assumption
    | (intro x; with_reducible apply let_cut x s; subst x; swap; clear_value x; intro hx)
    | (intro x; subst x)
    | (simp [*, parts]; done)
    | split

@[simp] theorem flrVf_view (s : State) (d : DomN) :
    view (flrVf s d) = view s := by
  unfold flrVf
  try lift_lets
  repeat' first
    | with_reducible assumption
    | (intro x; with_reducible apply let_cut x s; subst x; swap; clear_value x; intro hx)
    | (intro x; subst x)
    | (simp [*, parts]; done)
    | split

@[simp] theorem d3Enter_view (s : State) (d : DomN) :
    view (d3Enter s d) = view s := by
  unfold d3Enter
  try lift_lets
  repeat' first
    | with_reducible assumption
    | (intro x; with_reducible apply let_cut x s; subst x; swap; clear_value x; intro hx)
    | (intro x; subst x)
    | (simp [*, parts]; done)
    | split

@[simp] theorem d0Return_view (s : State) (d : DomN) :
    view (d0Return s d) = view s := by
  unfold d0Return
  try lift_lets
  repeat' first
    | with_reducible assumption
    | (intro x; with_reducible apply let_cut x s; subst x; swap; clear_value x; intro hx)
    | (intro x; subst x)
    | (simp [*, parts]; done)
    | split

@[simp] theorem pmeClear_view (s : State) (d : DomN) :
    view (pmeClear s d) = view s := by
  unfold pmeClear
  try lift_lets
  repeat' first
    | with_reducible assumption
    | (intro x; with_reducible apply let_cut x s; subst x; swap; clear_value x; intro hx)
    | (intro x; subst x)
    | (simp [*, parts]; done)
    | split

@[simp] theorem fnWrite_view (s : State) (d : DomN) (field : CfgField) (v : BitVec 64) :
    view (fnWrite s d field v) = view s := by
  unfold fnWrite
  try lift_lets
  repeat' first
    | with_reducible assumption
    | (intro x; with_reducible apply let_cut x s; subst x; swap; clear_value x; intro hx)
    | (intro x; subst x)
    | (simp [*, parts]; done)
    | split

@[simp] theorem pfWrite_view (s : State) (field : CfgField) (v : BitVec 64) :
    view (pfWrite s field v) = view s := by
  unfold pfWrite
  try lift_lets
  repeat' first
    | with_reducible assumption
    | (intro x; with_reducible apply let_cut x s; subst x; swap; clear_value x; intro hx)
    | (intro x; subst x)
    | (simp [*, parts]; done)
    | split

@[simp] theorem cfgWrite_view (s : State) (d : DomN) (field : CfgField) (v : BitVec 64) :
    view (cfgWrite s d field v) = view s := by
  unfold cfgWrite
  try lift_lets
  repeat' first
    | with_reducible assumption
    | (intro x; with_reducible apply let_cut x s; subst x; swap; clear_value x; intro hx)
    | (intro x; subst x)
    | (simp [*, parts]; done)
    | split

/-! ## Doorbell -/

@[simp] theorem reask_view (s : State) (d : DomN) :
    view (reask s d) = view s := by
  unfold reask
  try lift_lets
  repeat' first
    | with_reducible assumption
    | (intro x; with_reducible apply let_cut x s; subst x; swap; clear_value x; intro hx)
    | (intro x; subst x)
    | (simp [*, parts]; done)
    | split

@[simp] theorem noteAsked_view (s : State) (x : ReadOut) :
    view (noteAsked s x) = view s := by
  unfold noteAsked
  try lift_lets
  repeat' first
    | with_reducible assumption
    | (intro x; with_reducible apply let_cut x s; subst x; swap; clear_value x; intro hx)
    | (intro x; subst x)
    | (simp [*, parts]; done)
    | split

@[simp] theorem putRead_view (s : State) (x : ReadReq) :
    view (putRead s x) = view s := by
  unfold putRead
  try lift_lets
  repeat' first
    | with_reducible assumption
    | (intro x; with_reducible apply let_cut x s; subst x; swap; clear_value x; intro hx)
    | (intro x; subst x)
    | (simp [*, parts]; done)
    | split

@[simp] theorem afterRead_view (s : State) (r : Nat) (q : HReq) :
    view (afterRead s r q) = view s := by
  unfold afterRead
  try lift_lets
  repeat' first
    | with_reducible assumption
    | (intro x; with_reducible apply let_cut x s; subst x; swap; clear_value x; intro hx)
    | (intro x; subst x)
    | (simp [*, parts]; done)
    | split

@[simp] theorem grantRead_view (s : State) (r : Nat) (q : HReq) :
    view (grantRead s r q) = view s := by
  unfold grantRead
  try lift_lets
  repeat' first
    | with_reducible assumption
    | (intro x; with_reducible apply let_cut x s; subst x; swap; clear_value x; intro hx)
    | (intro x; subst x)
    | (simp [*, parts]; done)
    | split

@[simp] theorem issueHeld_view (s : State) :
    view (issueHeld s) = view s := by
  unfold issueHeld
  try lift_lets
  repeat' first
    | with_reducible assumption
    | (intro x; with_reducible apply let_cut x s; subst x; swap; clear_value x; intro hx)
    | (intro x; subst x)
    | (simp [*, parts]; done)
    | split

@[simp] theorem resumeAside_keeps (s0 : State) (f : State → State) (s : State)
    (h : ∀ a, Keeps s0 (view a) → Keeps s0 (view (f a))) (hs : Keeps s0 (view s)) :
    Keeps s0 (view (resumeAside f s)) := by
  unfold resumeAside
  dsimp only
  split
  · simpa using h s hs
  · exact h s hs

@[simp] theorem endRead_view (s : State) (x : ReadOut) :
    view (endRead s x) = view s := by
  unfold endRead
  try lift_lets
  repeat' first
    | with_reducible assumption
    | (intro x; with_reducible apply let_cut x s; subst x; swap; clear_value x; intro hx)
    | (intro x; subst x)
    | (simp [*, parts]; done)
    | split

@[simp] theorem askAgain_view (s : State) (x0 : ReadUse) :
    view (askAgain s x0) = view s := by
  unfold askAgain
  try lift_lets
  repeat' first
    | with_reducible assumption
    | (intro x; with_reducible apply let_cut x s; subst x; swap; clear_value x; intro hx)
    | (intro x; subst x)
    | (simp [*, parts]; done)
    | split

@[simp] theorem onRead_view (s : State) (d : DomN) (u : ReadUse) (f : State → ReadOut → State) (hf : ∀ a0 a1, view (f a0 a1) = view a0) :
    view (onRead s d u f) = view s := by
  unfold onRead
  try lift_lets
  repeat' first
    | with_reducible assumption
    | (intro x; with_reducible apply let_cut x s; subst x; swap; clear_value x; intro hx)
    | (intro x; subst x)
    | (simp [*, parts]; done)
    | split

@[simp] theorem pushWatch_view (s : State) (d : DomN) (pre : Bool) :
    view (pushWatch s d pre) = view s := by
  unfold pushWatch
  try lift_lets
  repeat' first
    | with_reducible assumption
    | (intro x; with_reducible apply let_cut x s; subst x; swap; clear_value x; intro hx)
    | (intro x; subst x)
    | (simp [*, parts]; done)
    | split

@[simp] theorem cmdNote_view (s : State) (d : DomN) (status : Nat) (w4 : Nat) :
    view (cmdNote s d status w4) = view s := by
  unfold cmdNote
  try lift_lets
  repeat' first
    | with_reducible assumption
    | (intro x; with_reducible apply let_cut x s; subst x; swap; clear_value x; intro hx)
    | (intro x; subst x)
    | (simp [*, parts]; done)
    | split

@[simp] theorem domErrSet_view (s : State) (d : DomN) (bits : Word) :
    view (domErrSet s d bits) = view s := by
  unfold domErrSet
  try lift_lets
  repeat' first
    | with_reducible assumption
    | (intro x; with_reducible apply let_cut x s; subst x; swap; clear_value x; intro hx)
    | (intro x; subst x)
    | (simp [*, parts]; done)
    | split

@[simp] theorem takeCmdPi_view (s : State) (d : DomN) (v : Word) :
    view (takeCmdPi s d v) = view s := by
  unfold takeCmdPi
  try lift_lets
  repeat' first
    | with_reducible assumption
    | (intro x; with_reducible apply let_cut x s; subst x; swap; clear_value x; intro hx)
    | (intro x; subst x)
    | (simp [*, parts]; done)
    | split

@[simp] theorem takeEvtCi_view (s : State) (d : DomN) (v : Word) :
    view (takeEvtCi s d v) = view s := by
  unfold takeEvtCi
  try lift_lets
  repeat' first
    | with_reducible assumption
    | (intro x; with_reducible apply let_cut x s; subst x; swap; clear_value x; intro hx)
    | (intro x; subst x)
    | (simp [*, parts]; done)
    | split

@[simp] theorem stopRing_view (s : State) (k : EpN) (status : Nat) :
    view (stopRing s k status) = view s := by
  unfold stopRing
  try lift_lets
  repeat' first
    | with_reducible assumption
    | (intro x; with_reducible apply let_cut x s; subst x; swap; clear_value x; intro hx)
    | (intro x; subst x)
    | (simp [*, parts]; done)
    | split

@[simp] theorem takePi_view (d : DomN) (pis : List Word) (s : State) (k : EpN) :
    view (takePi d pis s k) = view s := by
  unfold takePi
  try lift_lets
  repeat' first
    | with_reducible assumption
    | (intro x; with_reducible apply let_cut x s; subst x; swap; clear_value x; intro hx)
    | (intro x; subst x)
    | (simp [*, parts]; done)
    | split

@[simp] theorem pageDone_view (s : State) (d : DomN) (cmdPi : Word) (evtCi : Word) (pis : List Word) (pre : Bool) :
    view (pageDone s d cmdPi evtCi pis pre) = view s := by
  unfold pageDone
  try lift_lets
  repeat' first
    | with_reducible assumption
    | (intro x; with_reducible apply let_cut x s; subst x; swap; clear_value x; intro hx)
    | (intro x; subst x)
    | (simp [*, parts]; done)
    | split

@[simp] theorem cmdsDone_view (s : State) (d : DomN) (ws : List W8) :
    view (cmdsDone s d ws) = view s := by
  unfold cmdsDone
  try lift_lets
  repeat' first
    | with_reducible assumption
    | (intro x; with_reducible apply let_cut x s; subst x; swap; clear_value x; intro hx)
    | (intro x; subst x)
    | (simp [*, parts]; done)
    | split

@[simp] theorem descsDone_view (s : State) (k : EpN) (ws : List W8) :
    view (descsDone s k ws) = view s := by
  unfold descsDone
  try lift_lets
  repeat' first
    | with_reducible assumption
    | (intro x; with_reducible apply let_cut x s; subst x; swap; clear_value x; intro hx)
    | (intro x; subst x)
    | (simp [*, parts]; done)
    | split

@[simp] theorem sendDone_keeps (s0 : State) (s : State) (k : EpN) (x : ReadOut) (data : List Nat) (hs : Keeps s0 (view s)) :
    Keeps s0 (view (sendDone s k x data)) := by
  unfold sendDone
  try lift_lets
  repeat' first
    | with_reducible assumption
    | (intro x; with_reducible apply let_cutK x s0; subst x; swap; clear_value x; intro hx)
    | (intro x; subst x)
    | (simp +contextual [*, parts]; done)
    | split

@[simp] theorem readOutcome_view (s : State) (d : DomN) (x : ReadOut) :
    view (readOutcome s d x) = view s := by
  unfold readOutcome
  try lift_lets
  repeat' first
    | with_reducible assumption
    | (intro x; with_reducible apply let_cut x s; subst x; swap; clear_value x; intro hx)
    | (intro x; subst x)
    | (simp [*, parts]; done)
    | split

@[simp] theorem failRead_view (s : State) (d : DomN) (x : ReadOut) (timeout : Bool) :
    view (failRead s d x timeout) = view s := by
  unfold failRead
  try lift_lets
  repeat' first
    | with_reducible assumption
    | (intro x; with_reducible apply let_cut x s; subst x; swap; clear_value x; intro hx)
    | (intro x; subst x)
    | (simp [*, parts]; done)
    | split

/-! ## Summary -/

@[simp] theorem easyEnd_view (s : State) (d : DomN) :
    view (easyEnd s d) = view s := by
  unfold easyEnd
  try lift_lets
  repeat' first
    | with_reducible assumption
    | (intro x; with_reducible apply let_cut x s; subst x; swap; clear_value x; intro hx)
    | (intro x; subst x)
    | (simp [*, parts]; done)
    | split

@[simp] theorem summaryEnd_view (s : State) (d : DomN) :
    view (summaryEnd s d) = view s := by
  unfold summaryEnd
  try lift_lets
  repeat' first
    | with_reducible assumption
    | (intro x; with_reducible apply let_cut x s; subst x; swap; clear_value x; intro hx)
    | (intro x; subst x)
    | (simp [*, parts]; done)
    | split

/-! ## Arbiter -/

@[simp] theorem raiseStarve_view (w : Nat) (s : State) (r : Nat) :
    view (raiseStarve w s r) = view s := by
  unfold raiseStarve
  try lift_lets
  repeat' first
    | with_reducible assumption
    | (intro x; with_reducible apply let_cut x s; subst x; swap; clear_value x; intro hx)
    | (intro x; subst x)
    | (simp [*, parts]; done)
    | split

@[simp] theorem setHma_view (s : State) (a : Arb) :
    view (setHma s a) = view s := by
  unfold setHma
  try lift_lets
  repeat' first
    | with_reducible assumption
    | (intro x; with_reducible apply let_cut x s; subst x; swap; clear_value x; intro hx)
    | (intro x; subst x)
    | (simp [*, parts]; done)
    | split

@[simp] theorem takeReq_view (s : State) (r : Nat) (q : HReq) :
    view (takeReq s r q) = view s := by
  unfold takeReq
  try lift_lets
  repeat' first
    | with_reducible assumption
    | (intro x; with_reducible apply let_cut x s; subst x; swap; clear_value x; intro hx)
    | (intro x; subst x)
    | (simp [*, parts]; done)
    | split

@[simp] theorem grantWrite_view (s : State) (r : Nat) (q : HReq) :
    view (grantWrite s r q) = view s := by
  unfold grantWrite
  try lift_lets
  repeat' first
    | with_reducible assumption
    | (intro x; with_reducible apply let_cut x s; subst x; swap; clear_value x; intro hx)
    | (intro x; subst x)
    | (simp [*, parts]; done)
    | split

@[simp] theorem grantReq_view (s : State) (r : Nat) :
    view (grantReq s r) = view s := by
  unfold grantReq
  try lift_lets
  repeat' first
    | with_reducible assumption
    | (intro x; with_reducible apply let_cut x s; subst x; swap; clear_value x; intro hx)
    | (intro x; subst x)
    | (simp [*, parts]; done)
    | split

@[simp] theorem hmaGrant_view (s : State) (win : Nat) :
    view (hmaGrant s win) = view s := by
  unfold hmaGrant
  try lift_lets
  repeat' first
    | with_reducible assumption
    | (intro x; with_reducible apply let_cut x s; subst x; swap; clear_value x; intro hx)
    | (intro x; subst x)
    | (simp [*, parts]; done)
    | split

@[simp] theorem tidyAll_view (s : State) :
    view (tidyAll s) = view s := by
  unfold tidyAll
  try lift_lets
  repeat' first
    | with_reducible assumption
    | (intro x; with_reducible apply let_cut x s; subst x; swap; clear_value x; intro hx)
    | (intro x; subst x)
    | (simp [*, parts]; done)
    | split

@[simp] theorem hmaDecide_view (s : State) :
    view (hmaDecide s) = view s := by
  unfold hmaDecide
  try lift_lets
  repeat' first
    | with_reducible assumption
    | (intro x; with_reducible apply let_cut x s; subst x; swap; clear_value x; intro hx)
    | (intro x; subst x)
    | (simp [*, parts]; done)
    | split

@[simp] theorem setUla_view (s : State) (a : Arb) :
    view (setUla s a) = view s := by
  unfold setUla
  try lift_lets
  repeat' first
    | with_reducible assumption
    | (intro x; with_reducible apply let_cut x s; subst x; swap; clear_value x; intro hx)
    | (intro x; subst x)
    | (simp [*, parts]; done)
    | split

@[simp] theorem startUp_view (s : State) (r : Nat) (t : TxPkt) :
    view (startUp s r t) = view s := by
  unfold startUp
  try lift_lets
  repeat' first
    | with_reducible assumption
    | (intro x; with_reducible apply let_cut x s; subst x; swap; clear_value x; intro hx)
    | (intro x; subst x)
    | (simp [*, parts]; done)
    | split

@[simp] theorem ulaGrant_view (s : State) (above : Option Nat) (win : Nat) :
    view (ulaGrant s above win) = view s := by
  unfold ulaGrant
  try lift_lets
  repeat' first
    | with_reducible assumption
    | (intro x; with_reducible apply let_cut x s; subst x; swap; clear_value x; intro hx)
    | (intro x; subst x)
    | (simp [*, parts]; done)
    | split

@[simp] theorem ulaDecide_view (s : State) (above : Option Nat) :
    view (ulaDecide s above) = view s := by
  unfold ulaDecide
  try lift_lets
  repeat' first
    | with_reducible assumption
    | (intro x; with_reducible apply let_cut x s; subst x; swap; clear_value x; intro hx)
    | (intro x; subst x)
    | (simp [*, parts]; done)
    | split

@[simp] theorem countRun_view (s : State) :
    view (countRun s) = view s := by
  unfold countRun
  try lift_lets
  repeat' first
    | with_reducible assumption
    | (intro x; with_reducible apply let_cut x s; subst x; swap; clear_value x; intro hx)
    | (intro x; subst x)
    | (simp [*, parts]; done)
    | split

@[simp] theorem ulaDecision_view (s : State) :
    view (ulaDecision s) = view s := by
  unfold ulaDecision
  try lift_lets
  repeat' first
    | with_reducible assumption
    | (intro x; with_reducible apply let_cut x s; subst x; swap; clear_value x; intro hx)
    | (intro x; subst x)
    | (simp [*, parts]; done)
    | split

@[simp] theorem suspendUp_view (s : State) (t : TxPkt) (sent : Nat) :
    view (suspendUp s t sent) = view s := by
  unfold suspendUp
  try lift_lets
  repeat' first
    | with_reducible assumption
    | (intro x; with_reducible apply let_cut x s; subst x; swap; clear_value x; intro hx)
    | (intro x; subst x)
    | (simp [*, parts]; done)
    | split

@[simp] theorem preempt_view (s : State) (sent : Nat) :
    view (preempt s sent) = view s := by
  unfold preempt
  try lift_lets
  repeat' first
    | with_reducible assumption
    | (intro x; with_reducible apply let_cut x s; subst x; swap; clear_value x; intro hx)
    | (intro x; subst x)
    | (simp [*, parts]; done)
    | split

@[simp] theorem resumeUp_view (s : State) (t : TxPkt) (w : Nat) :
    view (resumeUp s t w) = view s := by
  unfold resumeUp
  try lift_lets
  repeat' first
    | with_reducible assumption
    | (intro x; with_reducible apply let_cut x s; subst x; swap; clear_value x; intro hx)
    | (intro x; subst x)
    | (simp [*, parts]; done)
    | split

@[simp] theorem ulaResume_view (s : State) :
    view (ulaResume s) = view s := by
  unfold ulaResume
  try lift_lets
  repeat' first
    | with_reducible assumption
    | (intro x; with_reducible apply let_cut x s; subst x; swap; clear_value x; intro hx)
    | (intro x; subst x)
    | (simp [*, parts]; done)
    | split

@[simp] theorem raiseCutoff_view (s : State) (w : Nat) (r : Nat) :
    view (raiseCutoff s w r) = view s := by
  unfold raiseCutoff
  try lift_lets
  repeat' first
    | with_reducible assumption
    | (intro x; with_reducible apply let_cut x s; subst x; swap; clear_value x; intro hx)
    | (intro x; subst x)
    | (simp [*, parts]; done)
    | split

@[simp] theorem hmaCut_view (s : State) (r : Nat) (q : HReq) :
    view (hmaCut s r q) = view s := by
  unfold hmaCut
  try lift_lets
  repeat' first
    | with_reducible assumption
    | (intro x; with_reducible apply let_cut x s; subst x; swap; clear_value x; intro hx)
    | (intro x; subst x)
    | (simp [*, parts]; done)
    | split

@[simp] theorem ulaCut_view (s : State) (r : Nat) :
    view (ulaCut s r) = view s := by
  unfold ulaCut
  try lift_lets
  repeat' first
    | with_reducible assumption
    | (intro x; with_reducible apply let_cut x s; subst x; swap; clear_value x; intro hx)
    | (intro x; subst x)
    | (simp [*, parts]; done)
    | split

@[simp] theorem holdCutoff_view (s : State) (x0 : ArbName) :
    view (holdCutoff s x0) = view s := by
  unfold holdCutoff
  try lift_lets
  repeat' first
    | with_reducible assumption
    | (intro x; with_reducible apply let_cut x s; subst x; swap; clear_value x; intro hx)
    | (intro x; subst x)
    | (simp [*, parts]; done)
    | split

@[simp] theorem cutClear_view (s : State) (arb : ArbName) (mask : BitVec 32) :
    view (cutClear s arb mask) = view s := by
  unfold cutClear
  try lift_lets
  repeat' first
    | with_reducible assumption
    | (intro x; with_reducible apply let_cut x s; subst x; swap; clear_value x; intro hx)
    | (intro x; subst x)
    | (simp [*, parts]; done)
    | split

@[simp] theorem qosWrite_view (s : State) (d : DomN) (v : Word) :
    view (qosWrite s d v) = view s := by
  unfold qosWrite
  try lift_lets
  repeat' first
    | with_reducible assumption
    | (intro x; with_reducible apply let_cut x s; subst x; swap; clear_value x; intro hx)
    | (intro x; subst x)
    | (simp [*, parts]; done)
    | split

end Sys2Proof.Machine
end

