-- ==== Sys2Proof/Laws/KeptPower.lean ====
section
/-! SUPPORT. What the helpers of power states, watchdog, resets, black box, clock, flash, queues, meter and suspend keep of the view of a state: one lemma each. -/

set_option linter.all false

namespace Sys2Proof.Machine

open Sys2Proof

/-! ## Entry -/

@[simp] theorem linkReset_keeps (s0 s : State) (kp : Bool) (hs : Keeps s0 (view s)) : Keeps s0 (view (linkReset s kp)) :=
  ⟨hs.1, hs.2, fun _ => rfl, fun _ => rfl, fun _ => rfl⟩

@[simp] theorem endLock_view (s : State) :
    view (endLock s) = view s := by
  unfold endLock
  try lift_lets
  repeat' first
    | with_reducible assumption
    | (intro x; with_reducible apply let_cut x s; subst x; swap; clear_value x; intro hx)
    | (intro x; subst x)
    | (simp [*, parts]; done)
    | split

@[simp] theorem enterFeather_view (s : State) :
    view (enterFeather s) = view s := by
  unfold enterFeather
  try lift_lets
  repeat' first
    | with_reducible assumption
    | (intro x; with_reducible apply let_cut x s; subst x; swap; clear_value x; intro hx)
    | (intro x; subst x)
    | (simp [*, parts]; done)
    | split

@[simp] theorem bankReset_keeps (s0 : State) (sel : Word) (s : State) (hs : Keeps s0 (view s)) : Keeps s0 (view (bankReset sel s)) := by
  unfold bankReset
  dsimp only
  split <;> split <;> split <;> simp [hs, parts]
  all_goals exact ⟨hs.1, hs.2, by first | exact hs.3 | exact fun _ => rfl, by first | exact hs.4 | exact fun _ => rfl, by first | exact hs.5 | exact fun _ => rfl⟩

@[simp] theorem enterStow_keeps (z s : State) (why : Nat) (hs : Keeps z (view s)) : Keeps z (view (enterStow s why)) := by
  unfold enterStow
  dsimp only
  apply linkReset_keeps
  split <;> simp [hs, parts]

@[simp] theorem denyReq_view (s : State) (why : Nat) :
    view (denyReq s why) = view s := by
  unfold denyReq
  try lift_lets
  repeat' first
    | with_reducible assumption
    | (intro x; with_reducible apply let_cut x s; subst x; swap; clear_value x; intro hx)
    | (intro x; subst x)
    | (simp [*, parts]; done)
    | split

@[simp] theorem dropReq_view (s : State) (stow : Bool) :
    view (dropReq s stow) = view s := by
  unfold dropReq
  try lift_lets
  repeat' first
    | with_reducible assumption
    | (intro x; with_reducible apply let_cut x s; subst x; swap; clear_value x; intro hx)
    | (intro x; subst x)
    | (simp [*, parts]; done)
    | split

@[simp] theorem reqFeather_view (s : State) :
    view (reqFeather s) = view s := by
  unfold reqFeather
  try lift_lets
  repeat' first
    | with_reducible assumption
    | (intro x; with_reducible apply let_cut x s; subst x; swap; clear_value x; intro hx)
    | (intro x; subst x)
    | (simp [*, parts]; done)
    | split

@[simp] theorem reqStow_keeps (s0 s : State) (hs : Keeps s0 (view s)) : Keeps s0 (view (reqStow s)) := by
  unfold reqStow
  split
  · split
    · exact enterStow_keeps _ _ _ hs
    · simpa [parts] using hs
  · split
    · exact enterStow_keeps _ _ _ hs
    · simpa [parts] using hs
  · simpa [parts] using hs
  · exact hs

@[simp] theorem busSuspendReq_keeps (s0 s : State) (hs : Keeps s0 (view s)) : Keeps s0 (view (busSuspendReq s)) := by
  unfold busSuspendReq
  dsimp only
  split
  · apply enterStow_keeps; simpa [parts] using hs
  · rw [denyReq_view]
    split
    · simpa [parts] using hs
    · simpa [parts] using hs

@[simp] theorem trySuspend_keeps (s0 : State) (s : State) (hs : Keeps s0 (view s)) :
    Keeps s0 (view (trySuspend s)) := by
  unfold trySuspend
  try lift_lets
  repeat' first
    | with_reducible assumption
    | (intro x; with_reducible apply let_cutK x s0; subst x; swap; clear_value x; intro hx)
    | (intro x; subst x)
    | (simp +contextual [*, parts]; done)
    | split

/-! ## Watchdog -/

@[simp] theorem raisePwr_view (s : State) :
    view (raisePwr s) = view s := by
  unfold raisePwr
  try lift_lets
  repeat' first
    | with_reducible assumption
    | (intro x; with_reducible apply let_cut x s; subst x; swap; clear_value x; intro hx)
    | (intro x; subst x)
    | (simp [*, parts]; done)
    | split

@[simp] theorem restartLink_view (s : State) (how : Nat) :
    view (restartLink s how) = view s := by
  unfold restartLink
  try lift_lets
  repeat' first
    | with_reducible assumption
    | (intro x; with_reducible apply let_cut x s; subst x; swap; clear_value x; intro hx)
    | (intro x; subst x)
    | (simp [*, parts]; done)
    | split

@[simp] theorem softReset_keeps (s0 : State) (s : State) (hs : Keeps s0 (view s)) :
    Keeps s0 (view (softReset s)) := by
  unfold softReset
  try lift_lets
  repeat' first
    | with_reducible assumption
    | (intro x; with_reducible apply let_cutK x s0; subst x; swap; clear_value x; intro hx)
    | (intro x; subst x)
    | (simp +contextual [*, parts]; done)
    | split

@[simp] theorem wdtGrace_lock (c n : Nat) (w : Wdt) : (wdtGrace c n w).lock = w.lock := (rfl)
@[simp] theorem armPath_lock (w : Wdt) (p : Path) : (armPath w p).lock = w.lock := by cases p <;> rfl
@[simp] theorem serviced_lock (w : Wdt) : (serviced w).lock = w.lock := (rfl)
@[simp] theorem graceEnd_lock (w : Wdt) : (graceEnd w).lock = w.lock := (rfl)
@[simp] theorem wdtExpire_view (s : State) (c : Nat) : view (wdtExpire s c) = view s := by unfold wdtExpire; simp [parts]
@[simp] theorem serviceJudge_view (s : State) (p : Path) (v : Word) : view (serviceJudge s p v) = view s := by
  unfold serviceJudge; (repeat' split) <;> simp [parts]

@[simp] theorem serviceWrite_view (s : State) (p : Path) (v : Word) :
    view (serviceWrite s p v) = view s := by
  unfold serviceWrite
  try lift_lets
  repeat' first
    | with_reducible assumption
    | (intro x; with_reducible apply let_cut x s; subst x; swap; clear_value x; intro hx)
    | (intro x; subst x)
    | (simp [*, parts]; done)
    | split

@[simp] theorem emergencySave_view (s : State) :
    view (emergencySave s) = view s := by
  unfold emergencySave
  try lift_lets
  repeat' first
    | with_reducible assumption
    | (intro x; with_reducible apply let_cut x s; subst x; swap; clear_value x; intro hx)
    | (intro x; subst x)
    | (simp [*, parts]; done)
    | split

@[simp] theorem watchdogReset_keeps (s0 : State) (s : State) (hs : Keeps s0 (view s)) :
    Keeps s0 (view (watchdogReset s)) := by
  unfold watchdogReset
  try lift_lets
  repeat' first
    | with_reducible assumption
    | (intro x; with_reducible apply let_cutK x s0; subst x; swap; clear_value x; intro hx)
    | (intro x; subst x)
    | (simp +contextual [*, parts]; done)
    | split

/-! ## Reset -/

@[simp] theorem wdtClear_lock (x : Word) (w : Wdt) : (wdtClear x w).lock = w.lock := (rfl)
@[simp] theorem powerReset_view (s : State) (how : Nat) (bb : Bb) : view (powerReset s how bb) = view s := by
  unfold powerReset; simp [parts]

@[simp] theorem strapCheck_view (s : State) :
    view (strapCheck s) = view s := by
  unfold strapCheck
  try lift_lets
  repeat' first
    | with_reducible assumption
    | (intro x; with_reducible apply let_cut x s; subst x; swap; clear_value x; intro hx)
    | (intro x; subst x)
    | (simp [*, parts]; done)
    | split

@[simp] theorem sampleStraps_view (s : State) (straps : Word) :
    view (sampleStraps s straps) = view s := by
  unfold sampleStraps
  try lift_lets
  repeat' first
    | with_reducible assumption
    | (intro x; with_reducible apply let_cut x s; subst x; swap; clear_value x; intro hx)
    | (intro x; subst x)
    | (simp [*, parts]; done)
    | split

@[simp] theorem pinReset_keeps (s0 : State) (s : State) (hs : Keeps s0 (view s)) :
    Keeps s0 (view (pinReset s)) := by
  unfold pinReset
  try lift_lets
  repeat' first
    | with_reducible assumption
    | (intro x; with_reducible apply let_cutK x s0; subst x; swap; clear_value x; intro hx)
    | (intro x; subst x)
    | (simp +contextual [*, parts]; done)
    | split

@[simp] theorem pinRise_view (s : State) :
    view (pinRise s) = view s := by
  unfold pinRise
  try lift_lets
  repeat' first
    | with_reducible assumption
    | (intro x; with_reducible apply let_cut x s; subst x; swap; clear_value x; intro hx)
    | (intro x; subst x)
    | (simp [*, parts]; done)
    | split

@[simp] theorem pinFall_keeps (s0 : State) (s : State) (hs : Keeps s0 (view s)) :
    Keeps s0 (view (pinFall s)) := by
  unfold pinFall
  try lift_lets
  repeat' first
    | with_reducible assumption
    | (intro x; with_reducible apply let_cutK x s0; subst x; swap; clear_value x; intro hx)
    | (intro x; subst x)
    | (simp +contextual [*, parts]; done)
    | split

@[simp] theorem pinRelease_view (s : State) (straps : Word) :
    view (pinRelease s straps) = view s := by
  unfold pinRelease
  try lift_lets
  repeat' first
    | with_reducible assumption
    | (intro x; with_reducible apply let_cut x s; subst x; swap; clear_value x; intro hx)
    | (intro x; subst x)
    | (simp [*, parts]; done)
    | split

@[simp] theorem dueReset_keeps (s0 : State) (s : State) (hs : Keeps s0 (view s)) :
    Keeps s0 (view (dueReset s)) := by
  unfold dueReset
  try lift_lets
  repeat' first
    | with_reducible assumption
    | (intro x; with_reducible apply let_cutK x s0; subst x; swap; clear_value x; intro hx)
    | (intro x; subst x)
    | (simp +contextual [*, parts]; done)
    | split

theorem porFall_view (s : State) : view (porFall s) = (s.pending, false, [], [], []) := (rfl)

@[simp] theorem porRise_view (s : State) (straps : Word) :
    view (porRise s straps) = view s := by
  unfold porRise
  try lift_lets
  repeat' first
    | with_reducible assumption
    | (intro x; with_reducible apply let_cut x s; subst x; swap; clear_value x; intro hx)
    | (intro x; subst x)
    | (simp [*, parts]; done)
    | split

@[simp] theorem pmeWake_view (s : State) :
    view (pmeWake s) = view s := by
  unfold pmeWake
  try lift_lets
  repeat' first
    | with_reducible assumption
    | (intro x; with_reducible apply let_cut x s; subst x; swap; clear_value x; intro hx)
    | (intro x; subst x)
    | (simp [*, parts]; done)
    | split

@[simp] theorem brownOut_keeps (s0 : State) (s : State) (hs : Keeps s0 (view s)) :
    Keeps s0 (view (brownOut s)) := by
  unfold brownOut
  try lift_lets
  repeat' first
    | with_reducible assumption
    | (intro x; with_reducible apply let_cutK x s0; subst x; swap; clear_value x; intro hx)
    | (intro x; subst x)
    | (simp +contextual [*, parts]; done)
    | split

/-! ## BlackBox -/

@[simp] theorem bbReport_view (s : State) :
    view (bbReport s) = view s := by
  unfold bbReport
  try lift_lets
  repeat' first
    | with_reducible assumption
    | (intro x; with_reducible apply let_cut x s; subst x; swap; clear_value x; intro hx)
    | (intro x; subst x)
    | (simp [*, parts]; done)
    | split

@[simp] theorem bbArrive_view (s : State) :
    view (bbArrive s) = view s := by
  unfold bbArrive
  try lift_lets
  repeat' first
    | with_reducible assumption
    | (intro x; with_reducible apply let_cut x s; subst x; swap; clear_value x; intro hx)
    | (intro x; subst x)
    | (simp [*, parts]; done)
    | split

@[simp] theorem indexWrite_view (s : State) (mgPath : Bool) (v0 : Word) :
    view (indexWrite s mgPath v0) = view s := by
  unfold indexWrite
  try lift_lets
  repeat' first
    | with_reducible assumption
    | (intro x; with_reducible apply let_cut x s; subst x; swap; clear_value x; intro hx)
    | (intro x; subst x)
    | (simp [*, parts]; done)
    | split

@[simp] theorem flashCopied_view (s : State) (mgPath : Bool) (e : Option W8) :
    view (flashCopied s mgPath e) = view s := by
  unfold flashCopied
  try lift_lets
  repeat' first
    | with_reducible assumption
    | (intro x; with_reducible apply let_cut x s; subst x; swap; clear_value x; intro hx)
    | (intro x; subst x)
    | (simp [*, parts]; done)
    | split

@[simp] theorem scanGo_view (s : State) :
    view (scanGo s) = view s := by
  unfold scanGo
  try lift_lets
  repeat' first
    | with_reducible assumption
    | (intro x; with_reducible apply let_cut x s; subst x; swap; clear_value x; intro hx)
    | (intro x; subst x)
    | (simp [*, parts]; done)
    | split

@[simp] theorem scanStart_view (s : State) :
    view (scanStart s) = view s := by
  unfold scanStart
  try lift_lets
  repeat' first
    | with_reducible assumption
    | (intro x; with_reducible apply let_cut x s; subst x; swap; clear_value x; intro hx)
    | (intro x; subst x)
    | (simp [*, parts]; done)
    | split

@[simp] theorem cutLink_keeps (s0 : State) (s : State) (hs : Keeps s0 (view s)) :
    Keeps s0 (view (cutLink s)) := by
  unfold cutLink
  try lift_lets
  repeat' first
    | with_reducible assumption
    | (intro x; with_reducible apply let_cutK x s0; subst x; swap; clear_value x; intro hx)
    | (intro x; subst x)
    | (simp +contextual [*, parts]; done)
    | split

@[simp] theorem flushCut_keeps (s0 : State) (s : State) (hs : Keeps s0 (view s)) :
    Keeps s0 (view (flushCut s)) := by
  unfold flushCut
  try lift_lets
  repeat' first
    | with_reducible assumption
    | (intro x; with_reducible apply let_cutK x s0; subst x; swap; clear_value x; intro hx)
    | (intro x; subst x)
    | (simp +contextual [*, parts]; done)
    | split

@[simp] theorem flushGo_keeps (s0 : State) (s : State) (f : Flush) (held : Option FlOp) (hs : Keeps s0 (view s)) :
    Keeps s0 (view (flushGo s f held)) := by
  unfold flushGo
  try lift_lets
  repeat' first
    | with_reducible assumption
    | (intro x; with_reducible apply let_cutK x s0; subst x; swap; clear_value x; intro hx)
    | (intro x; subst x)
    | (simp +contextual [*, parts]; done)
    | split

@[simp] theorem flushBegin_keeps (s0 : State) (s : State) (c : FlushCause) (hs : Keeps s0 (view s)) :
    Keeps s0 (view (flushBegin s c)) := by
  unfold flushBegin
  try lift_lets
  repeat' first
    | with_reducible assumption
    | (intro x; with_reducible apply let_cutK x s0; subst x; swap; clear_value x; intro hx)
    | (intro x; subst x)
    | (simp +contextual [*, parts]; done)
    | split

@[simp] theorem flushTrigger_keeps (s0 : State) (s : State) (c : FlushCause) (hs : Keeps s0 (view s)) :
    Keeps s0 (view (flushTrigger s c)) := by
  unfold flushTrigger
  try lift_lets
  repeat' first
    | with_reducible assumption
    | (intro x; with_reducible apply let_cutK x s0; subst x; swap; clear_value x; intro hx)
    | (intro x; subst x)
    | (simp +contextual [*, parts]; done)
    | split

@[simp] theorem flushPins_keeps (s0 : State) (s : State) (held : Option FlOp) (hs : Keeps s0 (view s)) :
    Keeps s0 (view (flushPins s held)) := by
  unfold flushPins
  try lift_lets
  repeat' first
    | with_reducible assumption
    | (intro x; with_reducible apply let_cutK x s0; subst x; swap; clear_value x; intro hx)
    | (intro x; subst x)
    | (simp +contextual [*, parts]; done)
    | split

@[simp] theorem flushEnd_keeps (s0 : State) (s : State) (f : Flush) (hs : Keeps s0 (view s)) :
    Keeps s0 (view (flushEnd s f)) := by
  unfold flushEnd
  try lift_lets
  repeat' first
    | with_reducible assumption
    | (intro x; with_reducible apply let_cutK x s0; subst x; swap; clear_value x; intro hx)
    | (intro x; subst x)
    | (simp +contextual [*, parts]; done)
    | split

@[simp] theorem flashPageDone_keeps (s0 : State) (s : State) (hs : Keeps s0 (view s)) :
    Keeps s0 (view (flashPageDone s)) := by
  unfold flashPageDone
  dsimp only
  repeat' first
    | with_reducible assumption
    | (simp +contextual [*, parts]; done)
    | split

@[simp] theorem supplyBack_keeps (z : State) (s0 : State) (hs : Keeps z (view s0)) :
    Keeps z (view (supplyBack s0)) := by
  unfold supplyBack
  try lift_lets
  repeat' first
    | with_reducible assumption
    | (intro x; with_reducible apply let_cutK x z; subst x; swap; clear_value x; intro hx)
    | (intro x; subst x)
    | (simp +contextual [*, parts]; done)
    | split

@[simp] theorem bbCtrlWrite_keeps (s0 : State) (s : State) (v : Word) (hs : Keeps s0 (view s)) :
    Keeps s0 (view (bbCtrlWrite s v)) := by
  unfold bbCtrlWrite
  try lift_lets
  repeat' first
    | with_reducible assumption
    | (intro x; with_reducible apply let_cutK x s0; subst x; swap; clear_value x; intro hx)
    | (intro x; subst x)
    | (simp +contextual [*, parts]; done)
    | split

/-! ## Clock -/

@[simp] theorem fircPort_view (s : State) (n : PortN) :
    view (fircPort s n) = view s := by
  unfold fircPort
  try lift_lets
  repeat' first
    | with_reducible assumption
    | (intro x; with_reducible apply let_cut x s; subst x; swap; clear_value x; intro hx)
    | (intro x; subst x)
    | (simp [*, parts]; done)
    | split

@[simp] theorem coreToFirc_view (s : State) :
    view (coreToFirc s) = view s := by
  unfold coreToFirc
  try lift_lets
  repeat' first
    | with_reducible assumption
    | (intro x; with_reducible apply let_cut x s; subst x; swap; clear_value x; intro hx)
    | (intro x; subst x)
    | (simp [*, parts]; done)
    | split

@[simp] theorem refTo_view (r : Nat) (s : State) :
    view (refTo r s) = view s := by
  unfold refTo
  try lift_lets
  repeat' first
    | with_reducible assumption
    | (intro x; with_reducible apply let_cut x s; subst x; swap; clear_value x; intro hx)
    | (intro x; subst x)
    | (simp [*, parts]; done)
    | split

@[simp] theorem pllDrop_view (s : State) :
    view (pllDrop s) = view s := by
  unfold pllDrop
  try lift_lets
  repeat' first
    | with_reducible assumption
    | (intro x; with_reducible apply let_cut x s; subst x; swap; clear_value x; intro hx)
    | (intro x; subst x)
    | (simp [*, parts]; done)
    | split

@[simp] theorem coreSelect_view (s : State) :
    view (coreSelect s) = view s := by
  unfold coreSelect
  try lift_lets
  repeat' first
    | with_reducible assumption
    | (intro x; with_reducible apply let_cut x s; subst x; swap; clear_value x; intro hx)
    | (intro x; subst x)
    | (simp [*, parts]; done)
    | split

@[simp] theorem refFollow_view (s : State) :
    view (refFollow s) = view s := by
  unfold refFollow
  try lift_lets
  repeat' first
    | with_reducible assumption
    | (intro x; with_reducible apply let_cut x s; subst x; swap; clear_value x; intro hx)
    | (intro x; subst x)
    | (simp [*, parts]; done)
    | split

@[simp] theorem planWrite_view (s : State) (v : Word) :
    view (planWrite s v) = view s := by
  unfold planWrite
  try lift_lets
  repeat' first
    | with_reducible assumption
    | (intro x; with_reducible apply let_cut x s; subst x; swap; clear_value x; intro hx)
    | (intro x; subst x)
    | (simp [*, parts]; done)
    | split

@[simp] theorem pllLock_view (s : State) (xin : Bool) :
    view (pllLock s xin) = view s := by
  unfold pllLock
  try lift_lets
  repeat' first
    | with_reducible assumption
    | (intro x; with_reducible apply let_cut x s; subst x; swap; clear_value x; intro hx)
    | (intro x; subst x)
    | (simp [*, parts]; done)
    | split

@[simp] theorem refFallback_view (s : State) (xin : Bool) :
    view (refFallback s xin) = view s := by
  unfold refFallback
  try lift_lets
  repeat' first
    | with_reducible assumption
    | (intro x; with_reducible apply let_cut x s; subst x; swap; clear_value x; intro hx)
    | (intro x; subst x)
    | (simp [*, parts]; done)
    | split

@[simp] theorem xinLoss_view (s : State) :
    view (xinLoss s) = view s := by
  unfold xinLoss
  try lift_lets
  repeat' first
    | with_reducible assumption
    | (intro x; with_reducible apply let_cut x s; subst x; swap; clear_value x; intro hx)
    | (intro x; subst x)
    | (simp [*, parts]; done)
    | split

/-! ## Flash -/

@[simp] theorem flErr_view (s : State) :
    view (flErr s) = view s := by
  unfold flErr
  try lift_lets
  repeat' first
    | with_reducible assumption
    | (intro x; with_reducible apply let_cut x s; subst x; swap; clear_value x; intro hx)
    | (intro x; subst x)
    | (simp [*, parts]; done)
    | split

@[simp] theorem flProt_view (s : State) (op : Nat) :
    view (flProt s op) = view s := by
  unfold flProt
  try lift_lets
  repeat' first
    | with_reducible assumption
    | (intro x; with_reducible apply let_cut x s; subst x; swap; clear_value x; intro hx)
    | (intro x; subst x)
    | (simp [*, parts]; done)
    | split

@[simp] theorem flStart_view (s : State) (o : FlOp) (op : Nat) (addr : Nat) (n : Nat) :
    view (flStart s o op addr n) = view s := by
  unfold flStart
  try lift_lets
  repeat' first
    | with_reducible assumption
    | (intro x; with_reducible apply let_cut x s; subst x; swap; clear_value x; intro hx)
    | (intro x; subst x)
    | (simp [*, parts]; done)
    | split

@[simp] theorem flProgram_view (s : State) (addr : Nat) (n : Nat) (ws : List Word) :
    view (flProgram s addr n ws) = view s := by
  unfold flProgram
  try lift_lets
  repeat' first
    | with_reducible assumption
    | (intro x; with_reducible apply let_cut x s; subst x; swap; clear_value x; intro hx)
    | (intro x; subst x)
    | (simp [*, parts]; done)
    | split

@[simp] theorem flErase_view (s : State) (op : Nat) (addr : Nat) :
    view (flErase s op addr) = view s := by
  unfold flErase
  try lift_lets
  repeat' first
    | with_reducible assumption
    | (intro x; with_reducible apply let_cut x s; subst x; swap; clear_value x; intro hx)
    | (intro x; subst x)
    | (simp [*, parts]; done)
    | split

@[simp] theorem flCarry_view (s : State) (ws : List Word) :
    view (flCarry s ws) = view s := by
  unfold flCarry
  try lift_lets
  repeat' first
    | with_reducible assumption
    | (intro x; with_reducible apply let_cut x s; subst x; swap; clear_value x; intro hx)
    | (intro x; subst x)
    | (simp [*, parts]; done)
    | split

@[simp] theorem flTake_view (s : State) (p : Path) (ws : List Word) :
    view (flTake s p ws) = view s := by
  unfold flTake
  try lift_lets
  repeat' first
    | with_reducible assumption
    | (intro x; with_reducible apply let_cut x s; subst x; swap; clear_value x; intro hx)
    | (intro x; subst x)
    | (simp [*, parts]; done)
    | split

@[simp] theorem flWrite_view (s : State) (p : Path) (v : Word) :
    view (flWrite s p v) = view s := by
  unfold flWrite
  try lift_lets
  repeat' first
    | with_reducible assumption
    | (intro x; with_reducible apply let_cut x s; subst x; swap; clear_value x; intro hx)
    | (intro x; subst x)
    | (simp [*, parts]; done)
    | split

@[simp] theorem flFrame_view (s : State) (p : Path) (ws : List Word) :
    view (flFrame s p ws) = view s := by
  unfold flFrame
  try lift_lets
  repeat' first
    | with_reducible assumption
    | (intro x; with_reducible apply let_cut x s; subst x; swap; clear_value x; intro hx)
    | (intro x; subst x)
    | (simp [*, parts]; done)
    | split

@[simp] theorem flGate_view (s : State) (p : Path) (f : State → State) (hf : ∀ a0, view (f a0) = view a0) :
    view (flGate s p f) = view s := by
  unfold flGate
  try lift_lets
  repeat' first
    | with_reducible assumption
    | (intro x; with_reducible apply let_cut x s; subst x; swap; clear_value x; intro hx)
    | (intro x; subst x)
    | (simp [*, parts]; done)
    | split

@[simp] theorem flAbort_view (s : State) (p : Path) :
    view (flAbort s p) = view s := by
  unfold flAbort
  try lift_lets
  repeat' first
    | with_reducible assumption
    | (intro x; with_reducible apply let_cut x s; subst x; swap; clear_value x; intro hx)
    | (intro x; subst x)
    | (simp [*, parts]; done)
    | split

@[simp] theorem flDone_view (s : State) (o : FlOp) (byte : BitVec 8) (fail : Bool) :
    view (flDone s o byte fail) = view s := by
  unfold flDone
  try lift_lets
  repeat' first
    | with_reducible assumption
    | (intro x; with_reducible apply let_cut x s; subst x; swap; clear_value x; intro hx)
    | (intro x; subst x)
    | (simp [*, parts]; done)
    | split

@[simp] theorem flLeft_view (s : State) (o : FlOp) :
    view (flLeft s o) = view s := by
  unfold flLeft
  try lift_lets
  repeat' first
    | with_reducible assumption
    | (intro x; with_reducible apply let_cut x s; subst x; swap; clear_value x; intro hx)
    | (intro x; subst x)
    | (simp [*, parts]; done)
    | split

@[simp] theorem flNote_view (s : State) (o : FlOp) (byte : BitVec 8) (fail : Bool) :
    view (flNote s o byte fail) = view s := by
  unfold flNote
  try lift_lets
  repeat' first
    | with_reducible assumption
    | (intro x; with_reducible apply let_cut x s; subst x; swap; clear_value x; intro hx)
    | (intro x; subst x)
    | (simp [*, parts]; done)
    | split

@[simp] theorem flOpDone_keeps (s0 : State) (s : State) (byte : BitVec 8) (fail : Bool) (hs : Keeps s0 (view s)) :
    Keeps s0 (view (flOpDone s byte fail)) := by
  unfold flOpDone
  try lift_lets
  repeat' first
    | with_reducible assumption
    | (intro x; with_reducible apply let_cutK x s0; subst x; swap; clear_value x; intro hx)
    | (intro x; subst x)
    | (simp +contextual [*, parts]; done)
    | split

@[simp] theorem imageStart_view (s : State) :
    view (imageStart s) = view s := by
  unfold imageStart
  try lift_lets
  repeat' first
    | with_reducible assumption
    | (intro x; with_reducible apply let_cut x s; subst x; swap; clear_value x; intro hx)
    | (intro x; subst x)
    | (simp [*, parts]; done)
    | split

@[simp] theorem cfgLoadGo_view (s : State) :
    view (cfgLoadGo s) = view s := by
  unfold cfgLoadGo
  try lift_lets
  repeat' first
    | with_reducible assumption
    | (intro x; with_reducible apply let_cut x s; subst x; swap; clear_value x; intro hx)
    | (intro x; subst x)
    | (simp [*, parts]; done)
    | split

/-! ## Queue -/

@[simp] theorem resetRx_view (s : State) (n : PortN) :
    view (resetRx s n) = view s := by
  unfold resetRx
  try lift_lets
  repeat' first
    | with_reducible assumption
    | (intro x; with_reducible apply let_cut x s; subst x; swap; clear_value x; intro hx)
    | (intro x; subst x)
    | (simp [*, parts]; done)
    | split

@[simp] theorem resetTx_view (s : State) (n : PortN) :
    view (resetTx s n) = view s := by
  unfold resetTx
  try lift_lets
  repeat' first
    | with_reducible assumption
    | (intro x; with_reducible apply let_cut x s; subst x; swap; clear_value x; intro hx)
    | (intro x; subst x)
    | (simp [*, parts]; done)
    | split

@[simp] theorem resetTt_view (s : State) :
    view (resetTt s) = view s := by
  unfold resetTt
  try lift_lets
  repeat' first
    | with_reducible assumption
    | (intro x; with_reducible apply let_cut x s; subst x; swap; clear_value x; intro hx)
    | (intro x; subst x)
    | (simp [*, parts]; done)
    | split

@[simp] theorem hostFault_view (s : State) (d : DomN) :
    view (hostFault s d) = view s := by
  unfold hostFault
  try lift_lets
  repeat' first
    | with_reducible assumption
    | (intro x; with_reducible apply let_cut x s; subst x; swap; clear_value x; intro hx)
    | (intro x; subst x)
    | (simp [*, parts]; done)
    | split

@[simp] theorem takeQueue_view (s : State) (r : Nat) : view (takeQueue s r).2 = view s := by
  unfold takeQueue; simp [parts]

@[simp] theorem resetOut_keeps (s0 : State) (s : State) (d : DomN) (hs : Keeps s0 (view s)) :
    Keeps s0 (view (resetOut s d)) := by
  unfold resetOut
  try dsimp only
  repeat' first
    | with_reducible assumption
    | (simp [*, parts]; done)
    | (simp +contextual [*, parts]; done)
    | (with_reducible refine forEach_keeps _ _ _ _ (fun a x ha => ?_) ?_)
    | (with_reducible refine foldl_keeps _ _ _ _ (fun a x ha => ?_) ?_)
    | (with_reducible refine whenDo_keeps _ _ _ _ (fun a ha => ?_) ?_)
    | split

@[simp] theorem resetIn_keeps (s0 : State) (s : State) (d : DomN) (hs : Keeps s0 (view s)) :
    Keeps s0 (view (resetIn s d)) := by
  unfold resetIn
  try dsimp only
  repeat' first
    | with_reducible assumption
    | (simp [*, parts]; done)
    | (simp +contextual [*, parts]; done)
    | (with_reducible refine forEach_keeps _ _ _ _ (fun a x ha => ?_) ?_)
    | (with_reducible refine foldl_keeps _ _ _ _ (fun a x ha => ?_) ?_)
    | (with_reducible refine whenDo_keeps _ _ _ _ (fun a ha => ?_) ?_)
    | split

@[simp] theorem resetWatch_view (s : State) :
    view (resetWatch s) = view s := by
  unfold resetWatch
  try lift_lets
  repeat' first
    | with_reducible assumption
    | (intro x; with_reducible apply let_cut x s; subst x; swap; clear_value x; intro hx)
    | (intro x; subst x)
    | (simp [*, parts]; done)
    | split

@[simp] theorem resetSum_view (s : State) :
    view (resetSum s) = view s := by
  unfold resetSum
  try lift_lets
  repeat' first
    | with_reducible assumption
    | (intro x; with_reducible apply let_cut x s; subst x; swap; clear_value x; intro hx)
    | (intro x; subst x)
    | (simp [*, parts]; done)
    | split

@[simp] theorem resetStat_keeps (s0 : State) (s : State) (hs : Keeps s0 (view s)) :
    Keeps s0 (view (resetStat s)) := by
  unfold resetStat
  try dsimp only
  repeat' first
    | with_reducible assumption
    | (simp [*, parts]; done)
    | (simp +contextual [*, parts]; done)
    | (with_reducible refine forEach_keeps _ _ _ _ (fun a x ha => ?_) ?_)
    | (with_reducible refine foldl_keeps _ _ _ _ (fun a x ha => ?_) ?_)
    | (with_reducible refine whenDo_keeps _ _ _ _ (fun a ha => ?_) ?_)
    | split

@[simp] theorem resetHma_keeps (s0 : State) (s : State) (r : Nat) (hs : Keeps s0 (view s)) :
    Keeps s0 (view (resetHma s r)) := by
  unfold resetHma
  try lift_lets
  repeat' first
    | with_reducible assumption
    | (intro x; with_reducible apply let_cutK x s0; subst x; swap; clear_value x; intro hx)
    | (intro x; subst x)
    | (simp +contextual [*, parts]; done)
    | split

@[simp] theorem queueEffect_keeps (s0 : State) (s : State) (q : Nat) (hs : Keeps s0 (view s)) :
    Keeps s0 (view (queueEffect s q)) := by
  unfold queueEffect
  try lift_lets
  repeat' first
    | with_reducible assumption
    | (intro x; with_reducible apply let_cutK x s0; subst x; swap; clear_value x; intro hx)
    | (intro x; subst x)
    | (simp +contextual [*, parts]; done)
    | split

@[simp] theorem queueReport_view (s : State) (last : Word) :
    view (queueReport s last) = view s := by
  unfold queueReport
  try lift_lets
  repeat' first
    | with_reducible assumption
    | (intro x; with_reducible apply let_cut x s; subst x; swap; clear_value x; intro hx)
    | (intro x; subst x)
    | (simp [*, parts]; done)
    | split

@[simp] theorem queueMismatch_keeps (s0 : State) (s : State) (q : Nat) (wr : Bool) (rd : Bool) (inj : Bool) (hs : Keeps s0 (view s)) :
    Keeps s0 (view (queueMismatch s q wr rd inj)) := by
  unfold queueMismatch
  try lift_lets
  repeat' first
    | with_reducible assumption
    | (intro x; with_reducible apply let_cutK x s0; subst x; swap; clear_value x; intro hx)
    | (intro x; subst x)
    | (simp +contextual [*, parts]; done)
    | split

@[simp] theorem queueInject_keeps (s0 : State) (s : State) (q : Nat) (hs : Keeps s0 (view s)) :
    Keeps s0 (view (queueInject s q)) := by
  unfold queueInject
  try lift_lets
  repeat' first
    | with_reducible assumption
    | (intro x; with_reducible apply let_cutK x s0; subst x; swap; clear_value x; intro hx)
    | (intro x; subst x)
    | (simp +contextual [*, parts]; done)
    | split

/-! ## Meter -/

@[simp] theorem senseFault_view (s : State) (m : DnN) :
    view (senseFault s m) = view s := by
  unfold senseFault
  try lift_lets
  repeat' first
    | with_reducible assumption
    | (intro x; with_reducible apply let_cut x s; subst x; swap; clear_value x; intro hx)
    | (intro x; subst x)
    | (simp [*, parts]; done)
    | split

@[simp] theorem noteFold_view (s : State) :
    view (noteFold s) = view s := by
  unfold noteFold
  try lift_lets
  repeat' first
    | with_reducible assumption
    | (intro x; with_reducible apply let_cut x s; subst x; swap; clear_value x; intro hx)
    | (intro x; subst x)
    | (simp [*, parts]; done)
    | split

@[simp] theorem notePair_view (s : State) (m : DnN) (i v : Word) (reg : Bool) :
    view (notePair s m i v reg) = view s := by
  unfold notePair
  try lift_lets
  repeat' first
    | with_reducible assumption
    | (intro x; with_reducible apply let_cut x s; subst x; swap; clear_value x; intro hx)
    | (intro x; subst x)
    | (simp [*, parts]; done)
    | split

@[simp] theorem takeBias_view (s : State) (m : DnN) (inj : Word) :
    view (takeBias s m inj) = view s := by
  unfold takeBias
  try lift_lets
  repeat' first
    | with_reducible assumption
    | (intro x; with_reducible apply let_cut x s; subst x; swap; clear_value x; intro hx)
    | (intro x; subst x)
    | (simp [*, parts]; done)
    | split

@[simp] theorem spareEnds_view (s : State) (m : DnN) (cur volt : Word) :
    view (spareEnds s m cur volt) = view s := by
  unfold spareEnds
  try lift_lets
  repeat' first
    | with_reducible assumption
    | (intro x; with_reducible apply let_cut x s; subst x; swap; clear_value x; intro hx)
    | (intro x; subst x)
    | (simp [*, parts]; done)
    | split

@[simp] theorem nextSlot_view (s : State) :
    view (nextSlot s) = view s := by
  unfold nextSlot
  try lift_lets
  repeat' first
    | with_reducible assumption
    | (intro x; with_reducible apply let_cut x s; subst x; swap; clear_value x; intro hx)
    | (intro x; subst x)
    | (simp [*, parts]; done)
    | split

@[simp] theorem meterSample_view (s : State) (m : DnN) (x0 : Sample) :
    view (meterSample s m x0) = view s := by
  unfold meterSample
  try lift_lets
  repeat' first
    | with_reducible assumption
    | (intro x; with_reducible apply let_cut x s; subst x; swap; clear_value x; intro hx)
    | (intro x; subst x)
    | (simp [*, parts]; done)
    | split

@[simp] theorem snapGo_view (s : State) :
    view (snapGo s) = view s := by
  unfold snapGo
  try lift_lets
  repeat' first
    | with_reducible assumption
    | (intro x; with_reducible apply let_cut x s; subst x; swap; clear_value x; intro hx)
    | (intro x; subst x)
    | (simp [*, parts]; done)
    | split

@[simp] theorem snapDone_keeps (s0 : State) (s : State) (hs : Keeps s0 (view s)) :
    Keeps s0 (view (snapDone s)) := by
  unfold snapDone
  try lift_lets
  repeat' first
    | with_reducible assumption
    | (intro x; with_reducible apply let_cutK x s0; subst x; swap; clear_value x; intro hx)
    | (intro x; subst x)
    | (simp +contextual [*, parts]; done)
    | split

/-! ## Suspend -/

@[simp] theorem upSuspend_view (s : State) :
    view (upSuspend s) = view s := by
  unfold upSuspend
  try lift_lets
  repeat' first
    | with_reducible assumption
    | (intro x; with_reducible apply let_cut x s; subst x; swap; clear_value x; intro hx)
    | (intro x; subst x)
    | (simp [*, parts]; done)
    | split

@[simp] theorem idlDone_keeps (s0 : State) (s : State) (n : PortN) (hs : Keeps s0 (view s)) :
    Keeps s0 (view (idlDone s n)) := by
  unfold idlDone
  try lift_lets
  repeat' first
    | with_reducible assumption
    | (intro x; with_reducible apply let_cutK x s0; subst x; swap; clear_value x; intro hx)
    | (intro x; subst x)
    | (simp +contextual [*, parts]; done)
    | split

@[simp] theorem suspendPort_view (s : State) (n : PortN) :
    view (suspendPort s n) = view s := by
  unfold suspendPort
  try lift_lets
  repeat' first
    | with_reducible assumption
    | (intro x; with_reducible apply let_cut x s; subst x; swap; clear_value x; intro hx)
    | (intro x; subst x)
    | (simp [*, parts]; done)
    | split

@[simp] theorem resumePort_view (s : State) (n : PortN) :
    view (resumePort s n) = view s := by
  unfold resumePort
  try lift_lets
  repeat' first
    | with_reducible assumption
    | (intro x; with_reducible apply let_cut x s; subst x; swap; clear_value x; intro hx)
    | (intro x; subst x)
    | (simp [*, parts]; done)
    | split

@[simp] theorem featherWrite_view (s : State) (n : PortN) (v : Word) :
    view (featherWrite s n v) = view s := by
  unfold featherWrite
  try lift_lets
  repeat' first
    | with_reducible assumption
    | (intro x; with_reducible apply let_cut x s; subst x; swap; clear_value x; intro hx)
    | (intro x; subst x)
    | (simp [*, parts]; done)
    | split

@[simp] theorem endUpHold_view (s : State) :
    view (endUpHold s) = view s := by
  unfold endUpHold
  try lift_lets
  repeat' first
    | with_reducible assumption
    | (intro x; with_reducible apply let_cut x s; subst x; swap; clear_value x; intro hx)
    | (intro x; subst x)
    | (simp [*, parts]; done)
    | split

@[simp] theorem upBcnFall_view (s : State) :
    view (upBcnFall s) = view s := by
  unfold upBcnFall
  try lift_lets
  repeat' first
    | with_reducible assumption
    | (intro x; with_reducible apply let_cut x s; subst x; swap; clear_value x; intro hx)
    | (intro x; subst x)
    | (simp [*, parts]; done)
    | split

@[simp] theorem resumeLater_view (s : State) :
    view (resumeLater s) = view s := by
  unfold resumeLater
  try lift_lets
  repeat' first
    | with_reducible assumption
    | (intro x; with_reducible apply let_cut x s; subst x; swap; clear_value x; intro hx)
    | (intro x; subst x)
    | (simp [*, parts]; done)
    | split

@[simp] theorem upSdEnd_view (s : State) :
    view (upSdEnd s) = view s := by
  unfold upSdEnd
  try lift_lets
  repeat' first
    | with_reducible assumption
    | (intro x; with_reducible apply let_cut x s; subst x; swap; clear_value x; intro hx)
    | (intro x; subst x)
    | (simp [*, parts]; done)
    | split

@[simp] theorem darken_view (s : State) (n : PortN) :
    view (darken s n) = view s := by
  unfold darken
  try lift_lets
  repeat' first
    | with_reducible assumption
    | (intro x; with_reducible apply let_cut x s; subst x; swap; clear_value x; intro hx)
    | (intro x; subst x)
    | (simp [*, parts]; done)
    | split

@[simp] theorem schedDark_view (s : State) (n : PortN) :
    view (schedDark s n) = view s := by
  unfold schedDark
  try lift_lets
  repeat' first
    | with_reducible assumption
    | (intro x; with_reducible apply let_cut x s; subst x; swap; clear_value x; intro hx)
    | (intro x; subst x)
    | (simp [*, parts]; done)
    | split

end Sys2Proof.Machine
end

