-- ==== Sys2Proof/Laws/KeptRegs.lean ====
section
/-! SUPPORT. What the helpers of register writes and wakes keep of the view of a state: one lemma each. -/

set_option linter.all false

namespace Sys2Proof.Machine

open Sys2Proof

/-! ## RegPut -/

@[simp] theorem gctrlWrite_keeps (s0 : State) (s : State) (p : Path) (v : Word) (hs : Keeps s0 (view s)) :
    Keeps s0 (view (gctrlWrite s p v)) := by
  unfold gctrlWrite
  try lift_lets
  repeat' first
    | with_reducible assumption
    | (intro x; with_reducible apply let_cutK x s0; subst x; swap; clear_value x; intro hx)
    | (intro x; subst x)
    | (simp +contextual [*, parts]; done)
    | split

@[simp] theorem globWrite_keeps (s0 : State) (s : State) (p : Path) (v : Word) (x0 : Reg) (hs : Keeps s0 (view s)) :
    Keeps s0 (view (globWrite s p v x0)) := by
  unfold globWrite
  try lift_lets
  repeat' first
    | with_reducible assumption
    | (intro x; with_reducible apply let_cutK x s0; subst x; swap; clear_value x; intro hx)
    | (intro x; subst x)
    | (simp +contextual [*, parts]; done)
    | split

@[simp] theorem pmCtrlWrite_keeps (s0 : State) (s : State) (v : Word) (hs : Keeps s0 (view s)) :
    Keeps s0 (view (pmCtrlWrite s v)) := by
  unfold pmCtrlWrite
  try lift_lets
  repeat' first
    | with_reducible assumption
    | (intro x; with_reducible apply let_cutK x s0; subst x; swap; clear_value x; intro hx)
    | (intro x; subst x)
    | (simp +contextual [*, parts]; done)
    | split

@[simp] theorem pmWrite_keeps (s0 : State) (s : State) (v : Word) (r : Reg) (hs : Keeps s0 (view s)) :
    Keeps s0 (view (pmWrite s v r)) := by
  unfold pmWrite
  try lift_lets
  repeat' first
    | with_reducible assumption
    | (intro x; with_reducible apply let_cutK x s0; subst x; swap; clear_value x; intro hx)
    | (intro x; subst x)
    | (simp +contextual [*, parts]; done)
    | split

@[simp] theorem serviceReg_view (s : State) (p : Path) (v : Word) :
    view (serviceReg s p v) = view s := by
  unfold serviceReg
  try lift_lets
  repeat' first
    | with_reducible assumption
    | (intro x; with_reducible apply let_cut x s; subst x; swap; clear_value x; intro hx)
    | (intro x; subst x)
    | (simp [*, parts]; done)
    | split

@[simp] theorem wdtPut_lock (v : Word) (w : Wdt) (r : Reg) (h : w.lock = true) : (wdtPut v w r).lock = true := by
  unfold wdtPut
  split
  · unfold wdtCtrlWrite wdtSetEn rwGate wref
    dsimp only
    (repeat' split) <;> simp_all
  · unfold wdtPeriodWrite rwGate wref; dsimp only; (repeat' split) <;> simp_all
  · unfold wdtWindowWrite rwGate wref; dsimp only; (repeat' split) <;> simp_all
  · unfold wdtGraceWrite rwGate wref; dsimp only; (repeat' split) <;> simp_all
  · unfold wdtKeyWrite wdtOff wref; dsimp only; (repeat' split) <;> simp_all
  · unfold wdtStatWrite; exact h
  · exact h
@[simp] theorem wdtWrite_keeps (s0 s : State) (p : Path) (v : Word) (r : Reg) (hs : Keeps s0 (view s)) :
    Keeps s0 (view (wdtWrite s p v r)) := by
  unfold wdtWrite
  split
  · exact hs
  · split
    · simpa [parts] using hs
    · exact ⟨hs.1, fun h => wdtPut_lock _ _ _ (hs.2 h), hs.3, hs.4, hs.5⟩

@[simp] theorem bbWrite_keeps (s0 : State) (s : State) (p : Path) (v : Word) (x0 : Reg) (hs : Keeps s0 (view s)) :
    Keeps s0 (view (bbWrite s p v x0)) := by
  unfold bbWrite
  try lift_lets
  repeat' first
    | with_reducible assumption
    | (intro x; with_reducible apply let_cutK x s0; subst x; swap; clear_value x; intro hx)
    | (intro x; subst x)
    | (simp +contextual [*, parts]; done)
    | split

@[simp] theorem crewWrite_view (s : State) (k : CrewN) (v : Word) (x0 : CrewReg) :
    view (crewWrite s k v x0) = view s := by
  unfold crewWrite
  try lift_lets
  repeat' first
    | with_reducible assumption
    | (intro x; with_reducible apply let_cut x s; subst x; swap; clear_value x; intro hx)
    | (intro x; subst x)
    | (simp [*, parts]; done)
    | split

@[simp] theorem timeWrite_view (s : State) (v : Word) (x0 : Reg) :
    view (timeWrite s v x0) = view s := by
  unfold timeWrite
  try lift_lets
  repeat' first
    | with_reducible assumption
    | (intro x; with_reducible apply let_cut x s; subst x; swap; clear_value x; intro hx)
    | (intro x; subst x)
    | (simp [*, parts]; done)
    | split

@[simp] theorem arbWrite_view (s : State) (p : Path) (n : ArbName) (v : Word) (r : ArbReg) :
    view (arbWrite s p n v r) = view s := by
  unfold arbWrite
  try lift_lets
  repeat' first
    | with_reducible assumption
    | (intro x; with_reducible apply let_cut x s; subst x; swap; clear_value x; intro hx)
    | (intro x; subst x)
    | (simp [*, parts]; done)
    | split

@[simp] theorem qCtrlWrite_keeps (s0 : State) (s : State) (v : Word) (hs : Keeps s0 (view s)) :
    Keeps s0 (view (qCtrlWrite s v)) := by
  unfold qCtrlWrite
  try lift_lets
  repeat' first
    | with_reducible assumption
    | (intro x; with_reducible apply let_cutK x s0; subst x; swap; clear_value x; intro hx)
    | (intro x; subst x)
    | (simp +contextual [*, parts]; done)
    | split

@[simp] theorem queWrite_keeps (s0 : State) (s : State) (v : Word) (x0 : Reg) (hs : Keeps s0 (view s)) :
    Keeps s0 (view (queWrite s v x0)) := by
  unfold queWrite
  try lift_lets
  repeat' first
    | with_reducible assumption
    | (intro x; with_reducible apply let_cutK x s0; subst x; swap; clear_value x; intro hx)
    | (intro x; subst x)
    | (simp +contextual [*, parts]; done)
    | split

/-! ## RegPutB -/

@[simp] theorem portCtrlWrite_view (s : State) (n : PortN) (v : Word) :
    view (portCtrlWrite s n v) = view s := by
  unfold portCtrlWrite
  try lift_lets
  repeat' first
    | with_reducible assumption
    | (intro x; with_reducible apply let_cut x s; subst x; swap; clear_value x; intro hx)
    | (intro x; subst x)
    | (simp [*, parts]; done)
    | split

@[simp] theorem pclassWrite_view (s : State) (v : Word) :
    view (pclassWrite s v) = view s := by
  unfold pclassWrite
  try lift_lets
  repeat' first
    | with_reducible assumption
    | (intro x; with_reducible apply let_cut x s; subst x; swap; clear_value x; intro hx)
    | (intro x; subst x)
    | (simp [*, parts]; done)
    | split

@[simp] theorem portWrite_view (s : State) (n : PortN) (v : Word) (x0 : PortReg) :
    view (portWrite s n v x0) = view s := by
  unfold portWrite
  try lift_lets
  repeat' first
    | with_reducible assumption
    | (intro x; with_reducible apply let_cut x s; subst x; swap; clear_value x; intro hx)
    | (intro x; subst x)
    | (simp [*, parts]; done)
    | split

@[simp] theorem ppsCtrlWrite_view (s : State) (m : DnN) (v : Word) :
    view (ppsCtrlWrite s m v) = view s := by
  unfold ppsCtrlWrite
  try lift_lets
  repeat' first
    | with_reducible assumption
    | (intro x; with_reducible apply let_cut x s; subst x; swap; clear_value x; intro hx)
    | (intro x; subst x)
    | (simp [*, parts]; done)
    | split

@[simp] theorem ppsWrite_view (s : State) (m : DnN) (v : Word) (x0 : PpsReg) :
    view (ppsWrite s m v x0) = view s := by
  unfold ppsWrite
  try lift_lets
  repeat' first
    | with_reducible assumption
    | (intro x; with_reducible apply let_cut x s; subst x; swap; clear_value x; intro hx)
    | (intro x; subst x)
    | (simp [*, parts]; done)
    | split

@[simp] theorem ppsGlobWrite_view (s : State) (v : Word) (x0 : Reg) :
    view (ppsGlobWrite s v x0) = view s := by
  unfold ppsGlobWrite
  try lift_lets
  repeat' first
    | with_reducible assumption
    | (intro x; with_reducible apply let_cut x s; subst x; swap; clear_value x; intro hx)
    | (intro x; subst x)
    | (simp [*, parts]; done)
    | split

@[simp] theorem mtrWrite_view (s : State) (v : Word) (x0 : Reg) :
    view (mtrWrite s v x0) = view s := by
  unfold mtrWrite
  try lift_lets
  repeat' first
    | with_reducible assumption
    | (intro x; with_reducible apply let_cut x s; subst x; swap; clear_value x; intro hx)
    | (intro x; subst x)
    | (simp [*, parts]; done)
    | split

@[simp] theorem ttWrite_view (s : State) (v : Word) (x0 : Reg) :
    view (ttWrite s v x0) = view s := by
  unfold ttWrite
  try lift_lets
  repeat' first
    | with_reducible assumption
    | (intro x; with_reducible apply let_cut x s; subst x; swap; clear_value x; intro hx)
    | (intro x; subst x)
    | (simp [*, parts]; done)
    | split

@[simp] theorem lnWrite_view (s : State) (v : Word) (x0 : Reg) :
    view (lnWrite s v x0) = view s := by
  unfold lnWrite
  try lift_lets
  repeat' first
    | with_reducible assumption
    | (intro x; with_reducible apply let_cut x s; subst x; swap; clear_value x; intro hx)
    | (intro x; subst x)
    | (simp [*, parts]; done)
    | split

@[simp] theorem epCfgWrite_view (s : State) (k : EpN) (v : Word) :
    view (epCfgWrite s k v) = view s := by
  unfold epCfgWrite
  try lift_lets
  repeat' first
    | with_reducible assumption
    | (intro x; with_reducible apply let_cut x s; subst x; swap; clear_value x; intro hx)
    | (intro x; subst x)
    | (simp [*, parts]; done)
    | split

@[simp] theorem epWrite_view (s : State) (p : Path) (k : EpN) (v : Word) (x0 : EpReg) :
    view (epWrite s p k v x0) = view s := by
  unfold epWrite
  try lift_lets
  repeat' first
    | with_reducible assumption
    | (intro x; with_reducible apply let_cut x s; subst x; swap; clear_value x; intro hx)
    | (intro x; subst x)
    | (simp [*, parts]; done)
    | split

@[simp] theorem guarded_view (s : State) (d : DomN) (f : Dom → Dom) :
    view (guarded s d f) = view s := by
  unfold guarded
  try lift_lets
  repeat' first
    | with_reducible assumption
    | (intro x; with_reducible apply let_cut x s; subst x; swap; clear_value x; intro hx)
    | (intro x; subst x)
    | (simp [*, parts]; done)
    | split

@[simp] theorem domOwn_view (s : State) (d : DomN) (v : Word) (x0 : DomReg) :
    view (domOwn s d v x0) = view s := by
  unfold domOwn
  try lift_lets
  repeat' first
    | with_reducible assumption
    | (intro x; with_reducible apply let_cut x s; subst x; swap; clear_value x; intro hx)
    | (intro x; subst x)
    | (simp [*, parts]; done)
    | split

@[simp] theorem domPf_view (s : State) (d : DomN) (v : Word) (x0 : DomReg) :
    view (domPf s d v x0) = view s := by
  unfold domPf
  try lift_lets
  repeat' first
    | with_reducible assumption
    | (intro x; with_reducible apply let_cut x s; subst x; swap; clear_value x; intro hx)
    | (intro x; subst x)
    | (simp [*, parts]; done)
    | split

@[simp] theorem domWrite_view (s : State) (p : Path) (d : DomN) (v : Word) (r : DomReg) :
    view (domWrite s p d v r) = view s := by
  unfold domWrite
  try lift_lets
  repeat' first
    | with_reducible assumption
    | (intro x; with_reducible apply let_cut x s; subst x; swap; clear_value x; intro hx)
    | (intro x; subst x)
    | (simp [*, parts]; done)
    | split

@[simp] theorem mcWrite_keeps (s0 : State) (s : State) (k : Fin 256) (v : Word) (r : McReg) (hs : Keeps s0 (view s)) :
    Keeps s0 (view (mcWrite s k v r)) := by
  unfold mcWrite
  try lift_lets
  repeat' first
    | with_reducible assumption
    | (intro x; with_reducible apply let_cutK x s0; subst x; swap; clear_value x; intro hx)
    | (intro x; subst x)
    | (simp +contextual [*, parts]; done)
    | split

@[simp] theorem schedWrite_keeps (s0 : State) (s : State) (p : PortN) (j : Nat) (v : Word) (hs : Keeps s0 (view s)) :
    Keeps s0 (view (schedWrite s p j v)) := by
  unfold schedWrite
  try lift_lets
  repeat' first
    | with_reducible assumption
    | (intro x; with_reducible apply let_cutK x s0; subst x; swap; clear_value x; intro hx)
    | (intro x; subst x)
    | (simp +contextual [*, parts]; done)
    | split

@[simp] theorem writeReg_keeps (s0 : State) (s : State) (p : Path) (v : Word) (r : Reg) (hs : Keeps s0 (view s)) :
    Keeps s0 (view (writeReg s p v r)) := by
  unfold writeReg
  try lift_lets
  repeat' first
    | with_reducible assumption
    | (intro x; with_reducible apply let_cutK x s0; subst x; swap; clear_value x; intro hx)
    | (intro x; subst x)
    | (simp +contextual [*, parts]; done)
    | split

/-! ## Regs -/

@[simp] theorem ldMiss_view (s : State) :
    view (ldMiss s) = view s := by
  unfold ldMiss
  try lift_lets
  repeat' first
    | with_reducible assumption
    | (intro x; with_reducible apply let_cut x s; subst x; swap; clear_value x; intro hx)
    | (intro x; subst x)
    | (simp [*, parts]; done)
    | split

@[simp] theorem mgWord_keeps (s0 : State) (s : State) (addr : Nat) (v : Word) (hs : Keeps s0 (view s)) :
    Keeps s0 (view (mgWord s addr v)) := by
  unfold mgWord
  try lift_lets
  repeat' first
    | with_reducible assumption
    | (intro x; with_reducible apply let_cutK x s0; subst x; swap; clear_value x; intro hx)
    | (intro x; subst x)
    | (simp +contextual [*, parts]; done)
    | split

@[simp] theorem mgWrite_keeps (s0 : State) (s : State) (addr : Nat) (ws : List Word) (hs : Keeps s0 (view s)) :
    Keeps s0 (view (mgWrite s addr ws)) := by
  unfold mgWrite
  try lift_lets
  repeat' first
    | with_reducible assumption
    | (intro x; with_reducible apply let_cutK x s0; subst x; swap; clear_value x; intro hx)
    | (intro x; subst x)
    | (simp +contextual [*, parts]; done)
    | split

@[simp] theorem mgSide_view (s : State) (x0 : Reg) :
    view (mgSide s x0) = view s := by
  unfold mgSide
  try lift_lets
  repeat' first
    | with_reducible assumption
    | (intro x; with_reducible apply let_cut x s; subst x; swap; clear_value x; intro hx)
    | (intro x; subst x)
    | (simp [*, parts]; done)
    | split

@[simp] theorem mgReadWord_view (s : State) (addr : Nat) :
    view (mgReadWord s addr) = view s := by
  unfold mgReadWord
  try lift_lets
  repeat' first
    | with_reducible assumption
    | (intro x; with_reducible apply let_cut x s; subst x; swap; clear_value x; intro hx)
    | (intro x; subst x)
    | (simp [*, parts]; done)
    | split

@[simp] theorem mgFrame_view (s : State) (f : State → State) (hf : ∀ a0, view (f a0) = view a0) :
    view (mgFrame s f) = view s := by
  unfold mgFrame
  try lift_lets
  repeat' first
    | with_reducible assumption
    | (intro x; with_reducible apply let_cut x s; subst x; swap; clear_value x; intro hx)
    | (intro x; subst x)
    | (simp [*, parts]; done)
    | split

@[simp] theorem mgClear_view (s : State) :
    view (mgClear s) = view s := by
  unfold mgClear
  try lift_lets
  repeat' first
    | with_reducible assumption
    | (intro x; with_reducible apply let_cut x s; subst x; swap; clear_value x; intro hx)
    | (intro x; subst x)
    | (simp [*, parts]; done)
    | split

@[simp] theorem countByte_view (s : State) :
    view (countByte s) = view s := by
  unfold countByte
  try lift_lets
  repeat' first
    | with_reducible assumption
    | (intro x; with_reducible apply let_cut x s; subst x; swap; clear_value x; intro hx)
    | (intro x; subst x)
    | (simp [*, parts]; done)
    | split

@[simp] theorem dwWrite_keeps (s0 : State) (s : State) (p : Path) (d : DomN) (off : Nat) (be : ByteEn) (v : BitVec 32) (hs : Keeps s0 (view s)) :
    Keeps s0 (view (dwWrite s p d off be v)) := by
  unfold dwWrite
  try lift_lets
  repeat' first
    | with_reducible assumption
    | (intro x; with_reducible apply let_cutK x s0; subst x; swap; clear_value x; intro hx)
    | (intro x; subst x)
    | (simp +contextual [*, parts]; done)
    | split

@[simp] theorem hostDw_keeps (s0 : State) (s : State) (p : Path) (d : DomN) (off : Nat) (be : ByteEn) (v : BitVec 32) (hs : Keeps s0 (view s)) :
    Keeps s0 (view (hostDw s p d off be v)) := by
  unfold hostDw
  try lift_lets
  repeat' first
    | with_reducible assumption
    | (intro x; with_reducible apply let_cutK x s0; subst x; swap; clear_value x; intro hx)
    | (intro x; subst x)
    | (simp +contextual [*, parts]; done)
    | split

@[simp] theorem innerWrite_keeps (s0 : State) (s : State) (p : Path) (off : Nat) (v : Word) (hs : Keeps s0 (view s)) :
    Keeps s0 (view (innerWrite s p off v)) := by
  unfold innerWrite
  try lift_lets
  repeat' first
    | with_reducible assumption
    | (intro x; with_reducible apply let_cutK x s0; subst x; swap; clear_value x; intro hx)
    | (intro x; subst x)
    | (simp +contextual [*, parts]; done)
    | split

@[simp] theorem pathWrite_keeps (s0 : State) (s : State) (p : Path) (off : Nat) (v : Word) (hs : Keeps s0 (view s)) :
    Keeps s0 (view (pathWrite s p off v)) := by
  unfold pathWrite
  try lift_lets
  repeat' first
    | with_reducible assumption
    | (intro x; with_reducible apply let_cutK x s0; subst x; swap; clear_value x; intro hx)
    | (intro x; subst x)
    | (simp +contextual [*, parts]; done)
    | split

@[simp] theorem registerDw_keeps (s0 : State) (s : State) (p : Path) (off : Nat) (be : ByteEn) (v : BitVec 32) (hs : Keeps s0 (view s)) :
    Keeps s0 (view (registerDw s p off be v)) := by
  unfold registerDw
  try lift_lets
  repeat' first
    | with_reducible assumption
    | (intro x; with_reducible apply let_cutK x s0; subst x; swap; clear_value x; intro hx)
    | (intro x; subst x)
    | (simp +contextual [*, parts]; done)
    | split

@[simp] theorem registerWrite_keeps (s0 : State) (s : State) (p : Path) (off : Nat) (dws : List (ByteEn × BitVec 32)) (hs : Keeps s0 (view s)) :
    Keeps s0 (view (registerWrite s p off dws)) := by
  unfold registerWrite
  try lift_lets
  repeat' first
    | with_reducible assumption
    | (intro x; with_reducible apply let_cutK x s0; subst x; swap; clear_value x; intro hx)
    | (intro x; subst x)
    | (simp +contextual [*, parts]; done)
    | split

@[simp] theorem readDw_view (d : DomN) (x : State × List (BitVec 32)) (off : Nat) :
    view (readDw d x off).1 = view x.1 := by
  unfold readDw; dsimp only; split <;> simp [parts]

@[simp] theorem readDws_view (d : DomN) (l : List Nat) (x : State × List (BitVec 32)) :
    view (l.foldl (readDw d) x).1 = view x.1 := by
  induction l generalizing x with
  | nil => rfl
  | cons a l ih => simp [ih]

@[simp] theorem complete_view (s : State) (d : DomN) (addr : Nat) (ws : List (BitVec 32)) :
    view (complete s d addr ws) = view s := by
  unfold complete
  try lift_lets
  repeat' first
    | with_reducible assumption
    | (intro x; with_reducible apply let_cut x s; subst x; swap; clear_value x; intro hx)
    | (intro x; subst x)
    | (simp [*, parts]; done)
    | split

@[simp] theorem bar0Read_view (s : State) (d : DomN) (off n : Nat) : view (bar0Read s d off n) = view s := by
  unfold bar0Read; dsimp only
  (repeat' split) <;> simp [parts]

@[simp] theorem bar2Read_view (s : State) (off : Nat) (n : Nat) :
    view (bar2Read s off n) = view s := by
  unfold bar2Read
  try lift_lets
  repeat' first
    | with_reducible assumption
    | (intro x; with_reducible apply let_cut x s; subst x; swap; clear_value x; intro hx)
    | (intro x; subst x)
    | (simp [*, parts]; done)
    | split

@[simp] theorem configRead_view (s : State) (d : DomN) (off : Nat) :
    view (configRead s d off) = view s := by
  unfold configRead
  try lift_lets
  repeat' first
    | with_reducible assumption
    | (intro x; with_reducible apply let_cut x s; subst x; swap; clear_value x; intro hx)
    | (intro x; subst x)
    | (simp [*, parts]; done)
    | split

@[simp] theorem timeRead_view (s : State) (p : Path) : view (timeRead s p) = view s := by
  unfold timeRead whenDo
  (repeat' split) <;> simp [parts]

@[simp] theorem hostRead_view (s : State) (x0 : HostRead) :
    view (hostRead s x0) = view s := by
  unfold hostRead
  try lift_lets
  repeat' first
    | with_reducible assumption
    | (intro x; with_reducible apply let_cut x s; subst x; swap; clear_value x; intro hx)
    | (intro x; subst x)
    | (simp [*, parts]; done)
    | split

/-! ## Wake -/

@[simp] theorem deliverX_view (s : State) (x : XEv) :
    view (deliverX s x) = view s := by
  unfold deliverX
  try lift_lets
  repeat' first
    | with_reducible assumption
    | (intro x; with_reducible apply let_cut x s; subst x; swap; clear_value x; intro hx)
    | (intro x; subst x)
    | (simp [*, parts]; done)
    | split

@[simp] theorem deliverQueue_view (s : State) :
    view (deliverQueue s) = view s := by
  unfold deliverQueue
  try lift_lets
  repeat' first
    | with_reducible assumption
    | (intro x; with_reducible apply let_cut x s; subst x; swap; clear_value x; intro hx)
    | (intro x; subst x)
    | (simp [*, parts]; done)
    | split

@[simp] theorem replayWake_view (s : State) :
    view (replayWake s) = view s := by
  unfold replayWake
  try lift_lets
  repeat' first
    | with_reducible assumption
    | (intro x; with_reducible apply let_cut x s; subst x; swap; clear_value x; intro hx)
    | (intro x; subst x)
    | (simp [*, parts]; done)
    | split

@[simp] theorem heldWord_keeps (s0 : State) (s : State) (x : Nat × Word) (hs : Keeps s0 (view s)) :
    Keeps s0 (view (heldWord s x)) := by
  unfold heldWord
  try lift_lets
  repeat' first
    | with_reducible assumption
    | (intro x; with_reducible apply let_cutK x s0; subst x; swap; clear_value x; intro hx)
    | (intro x; subst x)
    | (simp +contextual [*, parts]; done)
    | split

@[simp] theorem applyHeld_keeps (s0 : State) (s : State) (hs : Keeps s0 (view s)) :
    Keeps s0 (view (applyHeld s)) := by
  unfold applyHeld
  try lift_lets
  repeat' first
    | with_reducible assumption
    | (intro x; with_reducible apply let_cutK x s0; subst x; swap; clear_value x; intro hx)
    | (intro x; subst x)
    | (simp +contextual [*, parts]; done)
    | split

@[simp] theorem driveDue_view (s : State) :
    view (driveDue s) = view s := by
  unfold driveDue
  try lift_lets
  repeat' first
    | with_reducible assumption
    | (intro x; with_reducible apply let_cut x s; subst x; swap; clear_value x; intro hx)
    | (intro x; subst x)
    | (simp [*, parts]; done)
    | split

@[simp] theorem drainBb_view (s : State) :
    view (drainBb s) = view s := by
  unfold drainBb
  try lift_lets
  repeat' first
    | with_reducible assumption
    | (intro x; with_reducible apply let_cut x s; subst x; swap; clear_value x; intro hx)
    | (intro x; subst x)
    | (simp [*, parts]; done)
    | split

@[simp] theorem suspendAfresh_keeps (s0 : State) (s : State) (hs : Keeps s0 (view s)) :
    Keeps s0 (view (suspendAfresh s)) := by
  unfold suspendAfresh
  try lift_lets
  repeat' first
    | with_reducible assumption
    | (intro x; with_reducible apply let_cutK x s0; subst x; swap; clear_value x; intro hx)
    | (intro x; subst x)
    | (simp +contextual [*, parts]; done)
    | split

@[simp] theorem arrive_keeps (s0 : State) (s : State) (hs : Keeps s0 (view s)) :
    Keeps s0 (view (arrive s)) := by
  unfold arrive
  try lift_lets
  repeat' first
    | with_reducible assumption
    | (intro x; with_reducible apply let_cutK x s0; subst x; swap; clear_value x; intro hx)
    | (intro x; subst x)
    | (simp +contextual [*, parts]; done)
    | split

@[simp] theorem applyB1_keeps (s0 : State) (s : State) (hs : Keeps s0 (view s)) :
    Keeps s0 (view (applyB1 s)) := by
  unfold applyB1
  try lift_lets
  repeat' first
    | with_reducible assumption
    | (intro x; with_reducible apply let_cutK x s0; subst x; swap; clear_value x; intro hx)
    | (intro x; subst x)
    | (simp +contextual [*, parts]; done)
    | split

@[simp] theorem releaseCore_keeps (s0 s : State) (x : Option Sfdp) (hs : Keeps s0 (view s)) : Keeps s0 (view (releaseCore s x)) :=
  ⟨hs.1, hs.2, fun _ => rfl, hs.4, hs.5⟩

@[simp] theorem suspAll_view (s : State) :
    view (suspAll s) = view s := by
  unfold suspAll
  try lift_lets
  repeat' first
    | with_reducible assumption
    | (intro x; with_reducible apply let_cut x s; subst x; swap; clear_value x; intro hx)
    | (intro x; subst x)
    | (simp [*, parts]; done)
    | split

@[simp] theorem loadImage_view (s : State) :
    view (loadImage s) = view s := by
  unfold loadImage
  try lift_lets
  repeat' first
    | with_reducible assumption
    | (intro x; with_reducible apply let_cut x s; subst x; swap; clear_value x; intro hx)
    | (intro x; subst x)
    | (simp [*, parts]; done)
    | split

@[simp] theorem recordWake_view (s : State) :
    view (recordWake s) = view s := by
  unfold recordWake
  try lift_lets
  repeat' first
    | with_reducible assumption
    | (intro x; with_reducible apply let_cut x s; subst x; swap; clear_value x; intro hx)
    | (intro x; subst x)
    | (simp [*, parts]; done)
    | split

@[simp] theorem resumeLeft_view (s : State) :
    view (resumeLeft s) = view s := by
  unfold resumeLeft
  try lift_lets
  repeat' first
    | with_reducible assumption
    | (intro x; with_reducible apply let_cut x s; subst x; swap; clear_value x; intro hx)
    | (intro x; subst x)
    | (simp [*, parts]; done)
    | split

@[simp] theorem linkRelease_keeps (s0 : State) (s : State) (sfdp : Option Sfdp) (hs : Keeps s0 (view s)) :
    Keeps s0 (view (linkRelease s sfdp)) := by
  unfold linkRelease
  try lift_lets
  repeat' first
    | with_reducible assumption
    | (intro x; with_reducible apply let_cutK x s0; subst x; swap; clear_value x; intro hx)
    | (intro x; subst x)
    | (simp +contextual [*, parts]; done)
    | split

@[simp] theorem imageRecord_keeps (s0 : State) (recs : List Word) (s : State) (i : Nat) (hs : Keeps s0 (view s)) :
    Keeps s0 (view (imageRecord recs s i)) := by
  unfold imageRecord
  try lift_lets
  repeat' first
    | with_reducible assumption
    | (intro x; with_reducible apply let_cutK x s0; subst x; swap; clear_value x; intro hx)
    | (intro x; subst x)
    | (simp +contextual [*, parts]; done)
    | split

@[simp] theorem imageOver_view (s : State) :
    view (imageOver s) = view s := by
  unfold imageOver
  try lift_lets
  repeat' first
    | with_reducible assumption
    | (intro x; with_reducible apply let_cut x s; subst x; swap; clear_value x; intro hx)
    | (intro x; subst x)
    | (simp [*, parts]; done)
    | split

@[simp] theorem imageFail_view (s : State) (ws : List Word) (why : Nat) :
    view (imageFail s ws why) = view s := by
  unfold imageFail
  try lift_lets
  repeat' first
    | with_reducible assumption
    | (intro x; with_reducible apply let_cut x s; subst x; swap; clear_value x; intro hx)
    | (intro x; subst x)
    | (simp [*, parts]; done)
    | split

@[simp] theorem imageApply_keeps (s0 : State) (s : State) (ws : List Word) (hs : Keeps s0 (view s)) :
    Keeps s0 (view (imageApply s ws)) := by
  unfold imageApply
  try lift_lets
  repeat' first
    | with_reducible assumption
    | (intro x; with_reducible apply let_cutK x s0; subst x; swap; clear_value x; intro hx)
    | (intro x; subst x)
    | (simp +contextual [*, parts]; done)
    | split

@[simp] theorem scanLate_view (s : State) :
    view (scanLate s) = view s := by
  unfold scanLate
  try lift_lets
  repeat' first
    | with_reducible assumption
    | (intro x; with_reducible apply let_cut x s; subst x; swap; clear_value x; intro hx)
    | (intro x; subst x)
    | (simp [*, parts]; done)
    | split

@[simp] theorem imageChecked_keeps (s0 : State) (s : State) (readOk : Bool) (ws : List Word) (hs : Keeps s0 (view s)) :
    Keeps s0 (view (imageChecked s readOk ws)) := by
  unfold imageChecked
  try lift_lets
  repeat' first
    | with_reducible assumption
    | (intro x; with_reducible apply let_cutK x s0; subst x; swap; clear_value x; intro hx)
    | (intro x; subst x)
    | (simp +contextual [*, parts]; done)
    | split

@[simp] theorem beginWake_view (s : State) :
    view (beginWake s) = view s := by
  unfold beginWake
  try lift_lets
  repeat' first
    | with_reducible assumption
    | (intro x; with_reducible apply let_cut x s; subst x; swap; clear_value x; intro hx)
    | (intro x; subst x)
    | (simp [*, parts]; done)
    | split

@[simp] theorem featherWake_keeps (s0 : State) (s : State) (hs : Keeps s0 (view s)) :
    Keeps s0 (view (featherWake s)) := by
  unfold featherWake
  try lift_lets
  repeat' first
    | with_reducible assumption
    | (intro x; with_reducible apply let_cutK x s0; subst x; swap; clear_value x; intro hx)
    | (intro x; subst x)
    | (simp +contextual [*, parts]; done)
    | split

@[simp] theorem wakeHit_keeps (s0 : State) (s : State) (srcs : Word) (during : Bool) (hs : Keeps s0 (view s)) :
    Keeps s0 (view (wakeHit s srcs during)) := by
  unfold wakeHit
  try lift_lets
  repeat' first
    | with_reducible assumption
    | (intro x; with_reducible apply let_cutK x s0; subst x; swap; clear_value x; intro hx)
    | (intro x; subst x)
    | (simp +contextual [*, parts]; done)
    | split

@[simp] theorem wakeSource_keeps (s0 : State) (s : State) (pins : BitVec 8) (srcs : Word) (during : Bool) (hs : Keeps s0 (view s)) :
    Keeps s0 (view (wakeSource s pins srcs during)) := by
  unfold wakeSource
  try lift_lets
  repeat' first
    | with_reducible assumption
    | (intro x; with_reducible apply let_cutK x s0; subst x; swap; clear_value x; intro hx)
    | (intro x; subst x)
    | (simp +contextual [*, parts]; done)
    | split

@[simp] theorem sdDrop_view (s : State) (n : PortN) :
    view (sdDrop s n) = view s := by
  unfold sdDrop
  try lift_lets
  repeat' first
    | with_reducible assumption
    | (intro x; with_reducible apply let_cut x s; subst x; swap; clear_value x; intro hx)
    | (intro x; subst x)
    | (simp [*, parts]; done)
    | split

@[simp] theorem sdChange_keeps (s0 : State) (s : State) (n : PortN) (level : Bool) (hs : Keeps s0 (view s)) :
    Keeps s0 (view (sdChange s n level)) := by
  unfold sdChange
  try lift_lets
  repeat' first
    | with_reducible assumption
    | (intro x; with_reducible apply let_cutK x s0; subst x; swap; clear_value x; intro hx)
    | (intro x; subst x)
    | (simp +contextual [*, parts]; done)
    | split

@[simp] theorem powerUpStop_view (s : State) :
    view (powerUpStop s) = view s := by
  unfold powerUpStop
  try lift_lets
  repeat' first
    | with_reducible assumption
    | (intro x; with_reducible apply let_cut x s; subst x; swap; clear_value x; intro hx)
    | (intro x; subst x)
    | (simp [*, parts]; done)
    | split

@[simp] theorem powerUpFail_view (s : State) :
    view (powerUpFail s) = view s := by
  unfold powerUpFail
  try lift_lets
  repeat' first
    | with_reducible assumption
    | (intro x; with_reducible apply let_cut x s; subst x; swap; clear_value x; intro hx)
    | (intro x; subst x)
    | (simp [*, parts]; done)
    | split

@[simp] theorem corelossStart_keeps (s0 : State) (s : State) (hs : Keeps s0 (view s)) :
    Keeps s0 (view (corelossStart s)) := by
  unfold corelossStart
  try lift_lets
  repeat' first
    | with_reducible assumption
    | (intro x; with_reducible apply let_cutK x s0; subst x; swap; clear_value x; intro hx)
    | (intro x; subst x)
    | (simp +contextual [*, parts]; done)
    | split

@[simp] theorem kregHeavy_view (s : State) :
    view (kregHeavy s) = view s := by
  unfold kregHeavy
  try lift_lets
  repeat' first
    | with_reducible assumption
    | (intro x; with_reducible apply let_cut x s; subst x; swap; clear_value x; intro hx)
    | (intro x; subst x)
    | (simp [*, parts]; done)
    | split

@[simp] theorem csFall_keeps (s0 : State) (s : State) (hs : Keeps s0 (view s)) :
    Keeps s0 (view (csFall s)) := by
  unfold csFall
  try lift_lets
  repeat' first
    | with_reducible assumption
    | (intro x; with_reducible apply let_cutK x s0; subst x; swap; clear_value x; intro hx)
    | (intro x; subst x)
    | (simp +contextual [*, parts]; done)
    | split

@[simp] theorem idleFails_view (s : State) :
    view (idleFails s) = view s := by
  unfold idleFails
  try lift_lets
  repeat' first
    | with_reducible assumption
    | (intro x; with_reducible apply let_cut x s; subst x; swap; clear_value x; intro hx)
    | (intro x; subst x)
    | (simp [*, parts]; done)
    | split

@[simp] theorem featherExpiry_view (s : State) :
    view (featherExpiry s) = view s := by
  unfold featherExpiry
  try lift_lets
  repeat' first
    | with_reducible assumption
    | (intro x; with_reducible apply let_cut x s; subst x; swap; clear_value x; intro hx)
    | (intro x; subst x)
    | (simp [*, parts]; done)
    | split

@[simp] theorem stowExpiry_keeps (s0 : State) (s : State) (hs : Keeps s0 (view s)) :
    Keeps s0 (view (stowExpiry s)) := by
  unfold stowExpiry
  try lift_lets
  repeat' first
    | with_reducible assumption
    | (intro x; with_reducible apply let_cutK x s0; subst x; swap; clear_value x; intro hx)
    | (intro x; subst x)
    | (simp +contextual [*, parts]; done)
    | split

@[simp] theorem beaconAbove_keeps (s0 : State) (s : State) (hs : Keeps s0 (view s)) :
    Keeps s0 (view (beaconAbove s)) := by
  unfold beaconAbove
  try lift_lets
  repeat' first
    | with_reducible assumption
    | (intro x; with_reducible apply let_cutK x s0; subst x; swap; clear_value x; intro hx)
    | (intro x; subst x)
    | (simp +contextual [*, parts]; done)
    | split

end Sys2Proof.Machine
end

