-- ==== Sys2Proof/Laws/KeptHub.lean ====
section
/-! SUPPORT. What the helpers of the hub function and the idle tick keep of the view of a state: one lemma each. -/

set_option linter.all false

namespace Sys2Proof.Machine

open Sys2Proof

/-! ## Hub -/

@[simp] theorem hubReply_view (s : State) (r : HubReq) (status : Nat) (odd : Bool) (data : List Word) :
    view (hubReply s r status odd data) = view s := by
  unfold hubReply
  try lift_lets
  repeat' first
    | with_reducible assumption
    | (intro x; with_reducible apply let_cut x s; subst x; swap; clear_value x; intro hx)
    | (intro x; subst x)
    | (simp [*, parts]; done)
    | split

@[simp] theorem hubDo_view (s : State) (r : HubReq) (status : Nat) (f : State → State) (hf : ∀ a, view (f a) = view a) :
    view (hubDo s r status f) = view s := by
  unfold hubDo; split <;> simp [hf]
theorem hubDo_id (s : State) (r : HubReq) (status : Nat) : view (hubDo s r status id) = view s := hubDo_view s r status id fun _ => rfl
@[simp] theorem hubDo_keeps (s0 s : State) (r : HubReq) (status : Nat) (f : State → State)
    (hf : ∀ a, Keeps s0 (view a) → Keeps s0 (view (f a))) (hs : Keeps s0 (view s)) : Keeps s0 (view (hubDo s r status f)) := by
  unfold hubDo; split
  · simpa using hf s hs
  · simpa [parts] using hs

@[simp] theorem hubGet_view (s : State) (r : HubReq) (status : Nat) (bytes : List Nat) :
    view (hubGet s r status bytes) = view s := by
  unfold hubGet
  try lift_lets
  repeat' first
    | with_reducible assumption
    | (intro x; with_reducible apply let_cut x s; subst x; swap; clear_value x; intro hx)
    | (intro x; subst x)
    | (simp [*, parts]; done)
    | split

@[simp] theorem hubPop_view (s : State) :
    view (hubPop s) = view s := by
  unfold hubPop
  try lift_lets
  repeat' first
    | with_reducible assumption
    | (intro x; with_reducible apply let_cut x s; subst x; swap; clear_value x; intro hx)
    | (intro x; subst x)
    | (simp [*, parts]; done)
    | split

@[simp] theorem hubDrain_view (n : Nat) (s : State) : view (hubDrain n s) = view s := by
  induction n generalizing s with
  | zero => rfl
  | succ n ih =>
    unfold hubDrain
    split
    · rw [ih]; simp [parts]
    · rfl

@[simp] theorem countHubnak_view (s : State) :
    view (countHubnak s) = view s := by
  unfold countHubnak
  try lift_lets
  repeat' first
    | with_reducible assumption
    | (intro x; with_reducible apply let_cut x s; subst x; swap; clear_value x; intro hx)
    | (intro x; subst x)
    | (simp [*, parts]; done)
    | split

@[simp] theorem hubPush_view (s : State) (r : HubReq) :
    view (hubPush s r) = view s := by
  unfold hubPush
  try lift_lets
  repeat' first
    | with_reducible assumption
    | (intro x; with_reducible apply let_cut x s; subst x; swap; clear_value x; intro hx)
    | (intro x; subst x)
    | (simp [*, parts]; done)
    | split

@[simp] theorem hubPlace_view (s : State) (r : HubReq) :
    view (hubPlace s r) = view s := by
  unfold hubPlace
  try lift_lets
  repeat' first
    | with_reducible assumption
    | (intro x; with_reducible apply let_cut x s; subst x; swap; clear_value x; intro hx)
    | (intro x; subst x)
    | (simp [*, parts]; done)
    | split

@[simp] theorem hubArrive_view (s : State) (x : Inbox) :
    view (hubArrive s x) = view s := by
  unfold hubArrive
  try lift_lets
  repeat' first
    | with_reducible assumption
    | (intro x; with_reducible apply let_cut x s; subst x; swap; clear_value x; intro hx)
    | (intro x; subst x)
    | (simp [*, parts]; done)
    | split

@[simp] theorem onHub_keeps (s0 s : State) (f : Pkt → Bool) (act : State → HubReq → State)
    (h : ∀ a x, Keeps s0 (view a) → Keeps s0 (view (act a x))) (hs : Keeps s0 (view s)) : Keeps s0 (view (onHub f act s)) := by
  unfold onHub
  split
  · exact hs
  · split
    · rw [hubDrain_view]
      apply h
      simpa [parts] using hs
    · exact hs

@[simp] theorem getNodeInfo_view (s : State) (r : HubReq) :
    view (getNodeInfo s r) = view s := by
  unfold getNodeInfo
  try lift_lets
  repeat' first
    | with_reducible assumption
    | (intro x; with_reducible apply let_cut x s; subst x; swap; clear_value x; intro hx)
    | (intro x; subst x)
    | (simp [*, parts]; done)
    | split

@[simp] theorem getPortStatus_view (s : State) (r : HubReq) :
    view (getPortStatus s r) = view s := by
  unfold getPortStatus
  try lift_lets
  repeat' first
    | with_reducible assumption
    | (intro x; with_reducible apply let_cut x s; subst x; swap; clear_value x; intro hx)
    | (intro x; subst x)
    | (simp [*, parts]; done)
    | split

@[simp] theorem getMeter_view (s : State) (r : HubReq) :
    view (getMeter s r) = view s := by
  unfold getMeter
  try lift_lets
  repeat' first
    | with_reducible assumption
    | (intro x; with_reducible apply let_cut x s; subst x; swap; clear_value x; intro hx)
    | (intro x; subst x)
    | (simp [*, parts]; done)
    | split

@[simp] theorem readLog_view (s : State) (r : HubReq) :
    view (readLog s r) = view s := by
  unfold readLog
  try lift_lets
  repeat' first
    | with_reducible assumption
    | (intro x; with_reducible apply let_cut x s; subst x; swap; clear_value x; intro hx)
    | (intro x; subst x)
    | (simp [*, parts]; done)
    | split

@[simp] theorem getSurveyRecord_view (s : State) (r : HubReq) :
    view (getSurveyRecord s r) = view s := by
  unfold getSurveyRecord
  try lift_lets
  repeat' first
    | with_reducible assumption
    | (intro x; with_reducible apply let_cut x s; subst x; swap; clear_value x; intro hx)
    | (intro x; subst x)
    | (simp [*, parts]; done)
    | split

@[simp] theorem putAddress_mc (l : Bool) (v : Word) (b : Bus) : (putAddress l v b).mc = b.mc := by unfold putAddress; split <;> rfl
@[simp] theorem putAddress_sched (l : Bool) (v : Word) (b : Bus) : (putAddress l v b).sched = b.sched := by unfold putAddress; split <;> rfl
@[simp] theorem setAddress_view (s : State) (r : HubReq) : view (setAddress s r) = view s := by
  unfold setAddress
  dsimp only
  split
  · rw [view_struct]; simp [hubDo_id, parts]
  · exact hubDo_id _ _ _

@[simp] theorem driveRst_view (arg : Nat) (s : State) (m : DnN) :
    view (driveRst arg s m) = view s := by
  unfold driveRst
  try lift_lets
  repeat' first
    | with_reducible assumption
    | (intro x; with_reducible apply let_cut x s; subst x; swap; clear_value x; intro hx)
    | (intro x; subst x)
    | (simp [*, parts]; done)
    | split

@[simp] theorem putFrag_view (v : Bool) (s : State) (m : DnN) :
    view (putFrag v s m) = view s := by
  unfold putFrag
  try lift_lets
  repeat' first
    | with_reducible assumption
    | (intro x; with_reducible apply let_cut x s; subst x; swap; clear_value x; intro hx)
    | (intro x; subst x)
    | (simp [*, parts]; done)
    | split

@[simp] theorem putFeather_view (i : Nat) (v : Bool) (s : State) (m : DnN) :
    view (putFeather i v s m) = view s := by
  unfold putFeather
  try lift_lets
  repeat' first
    | with_reducible assumption
    | (intro x; with_reducible apply let_cut x s; subst x; swap; clear_value x; intro hx)
    | (intro x; subst x)
    | (simp [*, parts]; done)
    | split

@[simp] theorem setRoute_view (s : State) (r : HubReq) :
    view (setRoute s r) = view s := by
  unfold setRoute
  try lift_lets
  repeat' first
    | with_reducible assumption
    | (intro x; with_reducible apply let_cut x s; subst x; swap; clear_value x; intro hx)
    | (intro x; subst x)
    | (simp [*, parts]; done)
    | split

@[simp] theorem setMcast_keeps (s0 s : State) (r : HubReq) (hs : Keeps s0 (view s)) : Keeps s0 (view (setMcast s r)) := by
  unfold setMcast
  refine hubDo_keeps _ _ _ _ _ (fun a ha => ?_) hs
  exact ⟨ha.1, ha.2, ha.3, fun h => tabWf_set _ _ _ _ (ha.4 h), ha.5⟩

@[simp] theorem setSchedule_keeps (s0 s : State) (r : HubReq) (hs : Keeps s0 (view s)) : Keeps s0 (view (setSchedule s r)) := by
  unfold setSchedule
  refine hubDo_keeps _ _ _ _ _ (fun a ha => forEach_keeps _ _ _ _ (fun b x hb => ?_) ha) hs
  exact schedWrite_keeps _ _ _ _ _ hb

@[simp] theorem setCrew_keeps (s0 s : State) (r : HubReq) (hs : Keeps s0 (view s)) : Keeps s0 (view (setCrew s r)) := by
  unfold setCrew
  refine hubDo_keeps _ _ _ _ _ (fun a ha => ?_) hs
  simpa [parts] using ha

@[simp] theorem setClockPlan_view (s : State) (r : HubReq) :
    view (setClockPlan s r) = view s := by
  unfold setClockPlan
  try lift_lets
  repeat' first
    | with_reducible assumption
    | (intro x; with_reducible apply let_cut x s; subst x; swap; clear_value x; intro hx)
    | (intro x; subst x)
    | (simp [*, parts]; done)
    | split

@[simp] theorem setPortPower_view (s : State) (r : HubReq) :
    view (setPortPower s r) = view s := by
  unfold setPortPower
  try lift_lets
  repeat' first
    | with_reducible assumption
    | (intro x; with_reducible apply let_cut x s; subst x; swap; clear_value x; intro hx)
    | (intro x; subst x)
    | (simp [*, parts]; done)
    | split

@[simp] theorem serviceWatchdog_view (s : State) (r : HubReq) :
    view (serviceWatchdog s r) = view s := by
  unfold serviceWatchdog
  try lift_lets
  repeat' first
    | with_reducible assumption
    | (intro x; with_reducible apply let_cut x s; subst x; swap; clear_value x; intro hx)
    | (intro x; subst x)
    | (simp [*, parts]; done)
    | split

@[simp] theorem setBudget_view (s : State) (r : HubReq) :
    view (setBudget s r) = view s := by
  unfold setBudget
  try lift_lets
  repeat' first
    | with_reducible assumption
    | (intro x; with_reducible apply let_cut x s; subst x; swap; clear_value x; intro hx)
    | (intro x; subst x)
    | (simp [*, parts]; done)
    | split

@[simp] theorem bothResets_keeps (s0 s : State) (how : Word) (hs : Keeps s0 (view s)) : Keeps s0 (view (bothResets s how)) := by
  unfold bothResets
  simp only [bbLink_view, raise_view, localBusReset_view]
  exact ⟨hs.1, hs.2, hs.3, hs.4, hs.5⟩

@[simp] theorem treePort_view (s : State) (m : DnN) :
    view (treePort s m) = view s := by
  unfold treePort
  try lift_lets
  repeat' first
    | with_reducible assumption
    | (intro x; with_reducible apply let_cut x s; subst x; swap; clear_value x; intro hx)
    | (intro x; subst x)
    | (simp [*, parts]; done)
    | split

theorem treeEnd_keeps (s0 s : State) (tb : Tb) (cen : Cen) (sur : Sur) (hl : Keeps s0 (view s)) :
    Keeps s0 (view { s with bus := treeTables s.bus, tb := tb, cen := cen, sur := sur }) :=
  ⟨hl.1, hl.2, hl.3, fun _ => rfl, fun x => tabWf_filter _ _ _ (hl.5 x)⟩
@[simp] theorem treeReset_keeps (s0 s : State) (hs : Keeps s0 (view s)) : Keeps s0 (view (treeReset s)) := by
  unfold treeReset
  refine treeEnd_keeps _ _ _ _ _ ?_
  apply bothResets_keeps
  simp only [sweepRx_view, freeSlots_view]
  refine forEach_keeps _ _ _ _ (fun a m ha => ?_) hs
  simpa [parts] using ha

@[simp] theorem endRst_view (s : State) (m : DnN) :
    view (endRst s m) = view s := by
  unfold endRst
  try lift_lets
  repeat' first
    | with_reducible assumption
    | (intro x; with_reducible apply let_cut x s; subst x; swap; clear_value x; intro hx)
    | (intro x; subst x)
    | (simp [*, parts]; done)
    | split

/-! ## Idle -/

@[simp] theorem tickCore_view (s : State) :
    view (tickCore s) = view s := by
  unfold tickCore
  try lift_lets
  repeat' first
    | with_reducible assumption
    | (intro x; with_reducible apply let_cut x s; subst x; swap; clear_value x; intro hx)
    | (intro x; subst x)
    | (simp [*, parts]; done)
    | split

@[simp] theorem tickTally_view (s : State) (n : PortN) :
    view (tickTally s n) = view s := by
  unfold tickTally
  try lift_lets
  repeat' first
    | with_reducible assumption
    | (intro x; with_reducible apply let_cut x s; subst x; swap; clear_value x; intro hx)
    | (intro x; subst x)
    | (simp [*, parts]; done)
    | split

@[simp] theorem tickPorts_view (s : State) :
    view (tickPorts s) = view s := by
  unfold tickPorts
  try lift_lets
  repeat' first
    | with_reducible assumption
    | (intro x; with_reducible apply let_cut x s; subst x; swap; clear_value x; intro hx)
    | (intro x; subst x)
    | (simp [*, parts]; done)
    | split

@[simp] theorem tickLpo_view (s : State) :
    view (tickLpo s) = view s := by
  unfold tickLpo
  try lift_lets
  repeat' first
    | with_reducible assumption
    | (intro x; with_reducible apply let_cut x s; subst x; swap; clear_value x; intro hx)
    | (intro x; subst x)
    | (simp [*, parts]; done)
    | split

@[simp] theorem tickWdt_view (s : State) :
    view (tickWdt s) = view s := by
  unfold tickWdt
  try lift_lets
  repeat' first
    | with_reducible assumption
    | (intro x; with_reducible apply let_cut x s; subst x; swap; clear_value x; intro hx)
    | (intro x; subst x)
    | (simp [*, parts]; done)
    | split

@[simp] theorem tickXin_view (s : State) :
    view (tickXin s) = view s := by
  unfold tickXin
  try lift_lets
  repeat' first
    | with_reducible assumption
    | (intro x; with_reducible apply let_cut x s; subst x; swap; clear_value x; intro hx)
    | (intro x; subst x)
    | (simp [*, parts]; done)
    | split

@[simp] theorem idleTick_view (s : State) :
    view (idleTick s) = view s := by
  unfold idleTick
  try lift_lets
  repeat' first
    | with_reducible assumption
    | (intro x; with_reducible apply let_cut x s; subst x; swap; clear_value x; intro hx)
    | (intro x; subst x)
    | (simp [*, parts]; done)
    | split

end Sys2Proof.Machine
end

