-- ==== Sys2Proof/Laws/KeptRows.lean ====
section
/-! SUPPORT. What each row but POR keeps: one lemma a row. -/

set_option linter.all false

namespace Sys2Proof.Machine

open Sys2Proof

theorem whenLink_keeps (s t : State) (g : Bool) (f : State → State) (hf : ∀ a, Keeps s (view a) → Keeps s (view (f a)))
    (h : (Host.Outcome.next (whenDo g f s) : Outcome) = .next t) : Keeps s (view t) := by
  cases h; exact whenDo_keeps _ _ _ _ hf (Keeps.refl s)

theorem onLink_keeps (s t : State) (f : State → State) (hf : ∀ a, Keeps s (view a) → Keeps s (view (f a)))
    (h : onLink s f = .next t) : Keeps s (view t) := whenLink_keeps s t _ f hf h

theorem onPower_keeps (s t : State) (f : State → State) (hf : ∀ a, Keeps s (view a) → Keeps s (view (f a)))
    (h : onPower s f = .next t) : Keeps s (view t) := whenLink_keeps s t _ f hf h

theorem next_keeps (s t x : State) (hx : Keeps s (view s) → Keeps s (view x)) (h : (Host.Outcome.next x : Outcome) = .next t) :
    Keeps s (view t) := by cases h; exact hx (Keeps.refl s)

@[simp] theorem onRx_keeps (s0 s : State) (n : PortN) (f : State → State) (hf : ∀ a, Keeps s0 (view a) → Keeps s0 (view (f a)))
    (hs : Keeps s0 (view s)) : Keeps s0 (view (onRx n f s)) := whenDo_keeps _ _ _ _ hf hs

theorem takeInbox_keeps (s0 s t : State) (f : Inbox → Bool) (x : Inbox) (h : takeInbox s f = some (x, t)) (hs : Keeps s0 (view s)) :
    Keeps s0 (view t) := by rw [takeInbox_view _ _ _ _ h]; exact hs

@[simp] theorem mgFrame_keeps (s0 s : State) (f : State → State) (hf : ∀ a, Keeps s0 (view a) → Keeps s0 (view (f a)))
    (hs : Keeps s0 (view s)) : Keeps s0 (view (mgFrame s f)) := by
  unfold mgFrame
  exact hf _ (by simpa [parts] using hs)

@[simp] theorem runCmd_keeps (s0 s : State) (op : Nat) (f : State → DomN → Cmd → State) (d : DomN)
    (hf : ∀ a d c, Keeps s0 (view a) → Keeps s0 (view (f a d c))) (hs : Keeps s0 (view s)) : Keeps s0 (view (runCmd op f d s)) := by
  unfold runCmd
  split
  · exact hs
  · split
    · rw [cmdAsk_view]; exact hf _ _ _ (by simpa [parts] using hs)
    · exact hs

@[simp] theorem onRead_keeps (s0 s : State) (d : DomN) (u : ReadUse) (f : State → ReadOut → State)
    (hf : ∀ a x, Keeps s0 (view a) → Keeps s0 (view (f a x))) (hs : Keeps s0 (view s)) : Keeps s0 (view (onRead s d u f)) := by
  unfold onRead
  split
  · simpa [parts] using hs
  · rename_i x _
    have h1 : Keeps s0 (view (endRead s x)) := by simpa [parts] using hs
    dsimp only
    split
    · simpa using h1
    · rw [issueHeld_view]
      split
      · simpa using h1
      · exact hf _ _ h1

theorem regRow_keeps (p : Path) (off : Nat) (v : Word) (s t : State) (h : regRow p off v s = .next t) : Keeps s (view t) :=
  onPower_keeps s t _ (fun a ha => pathWrite_keeps _ _ _ _ _ ha) h

theorem ownRow_keeps (d : DomN) (off : Nat) (v : Word) (s t : State) (h : ownRow d off v s = .next t) : Keeps s (view t) := by
  refine onPower_keeps s t _ (fun a ha => ?_) h
  split <;> exact pathWrite_keeps _ _ _ _ _ ha

theorem hubRow_keeps (req : Nat) (act : State → HubReq → State) (s t : State)
    (ha : ∀ a x, Keeps s (view a) → Keeps s (view (act a x))) (h : hubRow req act s = .next t) : Keeps s (view t) :=
  onLink_keeps s t _ (fun a hk => onHub_keeps _ _ _ _ ha hk) h

theorem featureRow_keeps (req ft : Nat) (dn : State → DnN → Bool) (f : State → DnN → State) (s t : State)
    (hf : ∀ a m, Keeps s (view a) → Keeps s (view (f a m))) (h : featureRow req ft dn f s = .next t) : Keeps s (view t) := by
  refine onLink_keeps s t _ (fun a hk => onHub_keeps _ _ _ _ (fun b r hb => ?_) hk) h
  exact hubDo_keeps _ _ _ _ _ (fun c hc => hf c _ hc) hb

theorem execOc_keeps (m : DnN) (s : State) (t : State) (h : execOc m s = .next t) : Keeps s (view t) := by
  unfold execOc at h
  refine onPower_keeps _ _ _ (fun a ha => ?_) h
  try dsimp only
  repeat' first
    | with_reducible assumption
    | (simp [*, parts]; done)
    | (simp +contextual [*, parts]; done)
    | (with_reducible refine forEach_keeps _ _ _ _ (fun a x ha => ?_) ?_)
    | (with_reducible refine foldl_keeps _ _ _ _ (fun a x ha => ?_) ?_)
    | (with_reducible refine whenDo_keeps _ _ _ _ (fun a ha => ?_) ?_)
    | split

theorem execFoldTmo_keeps (m : DnN) (s : State) (t : State) (h : execFoldTmo m s = .next t) : Keeps s (view t) := by
  unfold execFoldTmo at h
  refine onPower_keeps _ _ _ (fun a ha => ?_) h
  try dsimp only
  repeat' first
    | with_reducible assumption
    | (simp [*, parts]; done)
    | (simp +contextual [*, parts]; done)
    | (with_reducible refine forEach_keeps _ _ _ _ (fun a x ha => ?_) ?_)
    | (with_reducible refine foldl_keeps _ _ _ _ (fun a x ha => ?_) ?_)
    | (with_reducible refine whenDo_keeps _ _ _ _ (fun a ha => ?_) ?_)
    | split

theorem execShortOff_keeps (m : DnN) (s : State) (t : State) (h : execShortOff m s = .next t) : Keeps s (view t) := by
  unfold execShortOff at h
  refine onPower_keeps _ _ _ (fun a ha => ?_) h
  try dsimp only
  repeat' first
    | with_reducible assumption
    | (simp [*, parts]; done)
    | (simp +contextual [*, parts]; done)
    | (with_reducible refine forEach_keeps _ _ _ _ (fun a x ha => ?_) ?_)
    | (with_reducible refine foldl_keeps _ _ _ _ (fun a x ha => ?_) ?_)
    | (with_reducible refine whenDo_keeps _ _ _ _ (fun a ha => ?_) ?_)
    | split

theorem execGateStuck_keeps (m : DnN) (vgs : Word) (s : State) (t : State) (h : execGateStuck m vgs s = .next t) : Keeps s (view t) := by
  unfold execGateStuck at h
  refine onPower_keeps _ _ _ (fun a ha => ?_) h
  try dsimp only
  repeat' first
    | with_reducible assumption
    | (simp [*, parts]; done)
    | (simp +contextual [*, parts]; done)
    | (with_reducible refine forEach_keeps _ _ _ _ (fun a x ha => ?_) ?_)
    | (with_reducible refine foldl_keeps _ _ _ _ (fun a x ha => ?_) ?_)
    | (with_reducible refine whenDo_keeps _ _ _ _ (fun a ha => ?_) ?_)
    | split

theorem execReverse_keeps (m : DnN) (s : State) (t : State) (h : execReverse m s = .next t) : Keeps s (view t) := by
  unfold execReverse at h
  refine onPower_keeps _ _ _ (fun a ha => ?_) h
  try dsimp only
  repeat' first
    | with_reducible assumption
    | (simp [*, parts]; done)
    | (simp +contextual [*, parts]; done)
    | (with_reducible refine forEach_keeps _ _ _ _ (fun a x ha => ?_) ?_)
    | (with_reducible refine foldl_keeps _ _ _ _ (fun a x ha => ?_) ?_)
    | (with_reducible refine whenDo_keeps _ _ _ _ (fun a ha => ?_) ?_)
    | split

theorem execLegopen_keeps (m : DnN) (s : State) (t : State) (h : execLegopen m s = .next t) : Keeps s (view t) := by
  unfold execLegopen at h
  refine onPower_keeps _ _ _ (fun a ha => ?_) h
  try dsimp only
  repeat' first
    | with_reducible assumption
    | (simp [*, parts]; done)
    | (simp +contextual [*, parts]; done)
    | (with_reducible refine forEach_keeps _ _ _ _ (fun a x ha => ?_) ?_)
    | (with_reducible refine foldl_keeps _ _ _ _ (fun a x ha => ?_) ?_)
    | (with_reducible refine whenDo_keeps _ _ _ _ (fun a ha => ?_) ?_)
    | split

theorem execPowerGood_keeps (m : DnN) (vgs : Word) (s : State) (t : State) (h : execPowerGood m vgs s = .next t) : Keeps s (view t) := by
  unfold execPowerGood at h
  refine onPower_keeps _ _ _ (fun a ha => ?_) h
  try dsimp only
  repeat' first
    | with_reducible assumption
    | (simp [*, parts]; done)
    | (simp +contextual [*, parts]; done)
    | (with_reducible refine forEach_keeps _ _ _ _ (fun a x ha => ?_) ?_)
    | (with_reducible refine foldl_keeps _ _ _ _ (fun a x ha => ?_) ?_)
    | (with_reducible refine whenDo_keeps _ _ _ _ (fun a ha => ?_) ?_)
    | split

theorem execPowerGoodLoss_keeps (m : DnN) (s : State) (t : State) (h : execPowerGoodLoss m s = .next t) : Keeps s (view t) := by
  unfold execPowerGoodLoss at h
  refine onPower_keeps _ _ _ (fun a ha => ?_) h
  try dsimp only
  repeat' first
    | with_reducible assumption
    | (simp [*, parts]; done)
    | (simp +contextual [*, parts]; done)
    | (with_reducible refine forEach_keeps _ _ _ _ (fun a x ha => ?_) ?_)
    | (with_reducible refine foldl_keeps _ _ _ _ (fun a x ha => ?_) ?_)
    | (with_reducible refine whenDo_keeps _ _ _ _ (fun a ha => ?_) ?_)
    | split

theorem execRetryEnd_keeps (m : DnN) (s : State) (t : State) (h : execRetryEnd m s = .next t) : Keeps s (view t) := by
  unfold execRetryEnd at h
  refine onPower_keeps _ _ _ (fun a ha => ?_) h
  try dsimp only
  repeat' first
    | with_reducible assumption
    | (simp [*, parts]; done)
    | (simp +contextual [*, parts]; done)
    | (with_reducible refine forEach_keeps _ _ _ _ (fun a x ha => ?_) ?_)
    | (with_reducible refine foldl_keeps _ _ _ _ (fun a x ha => ?_) ?_)
    | (with_reducible refine whenDo_keeps _ _ _ _ (fun a ha => ?_) ?_)
    | split

theorem execRetryCountClear_keeps (m : DnN) (s : State) (t : State) (h : execRetryCountClear m s = .next t) : Keeps s (view t) := by
  unfold execRetryCountClear at h
  refine onPower_keeps _ _ _ (fun a ha => ?_) h
  try dsimp only
  repeat' first
    | with_reducible assumption
    | (simp [*, parts]; done)
    | (simp +contextual [*, parts]; done)
    | (with_reducible refine forEach_keeps _ _ _ _ (fun a x ha => ?_) ?_)
    | (with_reducible refine foldl_keeps _ _ _ _ (fun a x ha => ?_) ?_)
    | (with_reducible refine whenDo_keeps _ _ _ _ (fun a ha => ?_) ?_)
    | split

theorem execGateOffCheckpoint_keeps (m : DnN) (vgs : Word) (s : State) (t : State) (h : execGateOffCheckpoint m vgs s = .next t) : Keeps s (view t) := by
  unfold execGateOffCheckpoint at h
  refine onPower_keeps _ _ _ (fun a ha => ?_) h
  try dsimp only
  repeat' first
    | with_reducible assumption
    | (simp [*, parts]; done)
    | (simp +contextual [*, parts]; done)
    | (with_reducible refine forEach_keeps _ _ _ _ (fun a x ha => ?_) ?_)
    | (with_reducible refine foldl_keeps _ _ _ _ (fun a x ha => ?_) ?_)
    | (with_reducible refine whenDo_keeps _ _ _ _ (fun a ha => ?_) ?_)
    | split

theorem execDischargeEnd_keeps (m : DnN) (s : State) (t : State) (h : execDischargeEnd m s = .next t) : Keeps s (view t) := by
  unfold execDischargeEnd at h
  refine onPower_keeps _ _ _ (fun a ha => ?_) h
  try dsimp only
  repeat' first
    | with_reducible assumption
    | (simp [*, parts]; done)
    | (simp +contextual [*, parts]; done)
    | (with_reducible refine forEach_keeps _ _ _ _ (fun a x ha => ?_) ?_)
    | (with_reducible refine foldl_keeps _ _ _ _ (fun a x ha => ?_) ?_)
    | (with_reducible refine whenDo_keeps _ _ _ _ (fun a ha => ?_) ?_)
    | split

theorem execOffDischargeEnd_keeps (m : DnN) (s : State) (t : State) (h : execOffDischargeEnd m s = .next t) : Keeps s (view t) := by
  unfold execOffDischargeEnd at h
  refine onPower_keeps _ _ _ (fun a ha => ?_) h
  try dsimp only
  repeat' first
    | with_reducible assumption
    | (simp [*, parts]; done)
    | (simp +contextual [*, parts]; done)
    | (with_reducible refine forEach_keeps _ _ _ _ (fun a x ha => ?_) ?_)
    | (with_reducible refine foldl_keeps _ _ _ _ (fun a x ha => ?_) ?_)
    | (with_reducible refine whenDo_keeps _ _ _ _ (fun a ha => ?_) ?_)
    | split

theorem execSdQualified_keeps (n : PortN) (s : State) (t : State) (h : execSdQualified n s = .next t) : Keeps s (view t) := by
  unfold execSdQualified at h
  refine onPower_keeps _ _ _ (fun a ha => ?_) h
  try dsimp only
  repeat' first
    | with_reducible assumption
    | (simp [*, parts]; done)
    | (simp +contextual [*, parts]; done)
    | (with_reducible refine forEach_keeps _ _ _ _ (fun a x ha => ?_) ?_)
    | (with_reducible refine foldl_keeps _ _ _ _ (fun a x ha => ?_) ?_)
    | (with_reducible refine whenDo_keeps _ _ _ _ (fun a ha => ?_) ?_)
    | split

theorem execSignalLoss_keeps (x : SdLoss) (s : State) (t : State) (h : execSignalLoss x s = .next t) : Keeps s (view t) := by
  unfold execSignalLoss at h
  refine onPower_keeps _ _ _ (fun a ha => ?_) h
  try dsimp only
  repeat' first
    | with_reducible assumption
    | (simp [*, parts]; done)
    | (simp +contextual [*, parts]; done)
    | (with_reducible refine forEach_keeps _ _ _ _ (fun a x ha => ?_) ?_)
    | (with_reducible refine foldl_keeps _ _ _ _ (fun a x ha => ?_) ?_)
    | (with_reducible refine whenDo_keeps _ _ _ _ (fun a ha => ?_) ?_)
    | split

theorem execDetectHoldEnd_keeps (n : PortN) (s : State) (t : State) (h : execDetectHoldEnd n s = .next t) : Keeps s (view t) := by
  unfold execDetectHoldEnd at h
  refine onLink_keeps _ _ _ (fun a ha => ?_) h
  try dsimp only
  repeat' first
    | with_reducible assumption
    | (simp [*, parts]; done)
    | (simp +contextual [*, parts]; done)
    | (with_reducible refine forEach_keeps _ _ _ _ (fun a x ha => ?_) ?_)
    | (with_reducible refine foldl_keeps _ _ _ _ (fun a x ha => ?_) ?_)
    | (with_reducible refine whenDo_keeps _ _ _ _ (fun a ha => ?_) ?_)
    | (with_reducible refine onRx_keeps _ _ _ _ (fun a ha => ?_) ?_)
    | split

theorem execWordAlign_keeps (n : PortN) (s : State) (t : State) (h : execWordAlign n s = .next t) : Keeps s (view t) := by
  unfold execWordAlign at h
  refine onLink_keeps _ _ _ (fun a ha => ?_) h
  try dsimp only
  repeat' first
    | with_reducible assumption
    | (simp [*, parts]; done)
    | (simp +contextual [*, parts]; done)
    | (with_reducible refine forEach_keeps _ _ _ _ (fun a x ha => ?_) ?_)
    | (with_reducible refine foldl_keeps _ _ _ _ (fun a x ha => ?_) ?_)
    | (with_reducible refine whenDo_keeps _ _ _ _ (fun a ha => ?_) ?_)
    | (with_reducible refine onRx_keeps _ _ _ _ (fun a ha => ?_) ?_)
    | split

theorem execAlignTimeout_keeps (n : PortN) (s : State) (t : State) (h : execAlignTimeout n s = .next t) : Keeps s (view t) := by
  unfold execAlignTimeout at h
  refine onLink_keeps _ _ _ (fun a ha => ?_) h
  try dsimp only
  repeat' first
    | with_reducible assumption
    | (simp [*, parts]; done)
    | (simp +contextual [*, parts]; done)
    | (with_reducible refine forEach_keeps _ _ _ _ (fun a x ha => ?_) ?_)
    | (with_reducible refine foldl_keeps _ _ _ _ (fun a x ha => ?_) ?_)
    | (with_reducible refine whenDo_keeps _ _ _ _ (fun a ha => ?_) ?_)
    | (with_reducible refine onRx_keeps _ _ _ _ (fun a ha => ?_) ?_)
    | split

theorem execCapsTimeout_keeps (n : PortN) (s : State) (t : State) (h : execCapsTimeout n s = .next t) : Keeps s (view t) := by
  unfold execCapsTimeout at h
  refine onLink_keeps _ _ _ (fun a ha => ?_) h
  try dsimp only
  repeat' first
    | with_reducible assumption
    | (simp [*, parts]; done)
    | (simp +contextual [*, parts]; done)
    | (with_reducible refine forEach_keeps _ _ _ _ (fun a x ha => ?_) ?_)
    | (with_reducible refine foldl_keeps _ _ _ _ (fun a x ha => ?_) ?_)
    | (with_reducible refine whenDo_keeps _ _ _ _ (fun a ha => ?_) ?_)
    | (with_reducible refine onRx_keeps _ _ _ _ (fun a ha => ?_) ?_)
    | split

theorem execTsCapRx_keeps (n : PortN) (a0 : Word) (a1 : Word) (chk : Word) (s : State) (t : State) (h : execTsCapRx n a0 a1 chk s = .next t) : Keeps s (view t) := by
  unfold execTsCapRx at h
  refine onLink_keeps _ _ _ (fun a ha => ?_) h
  try dsimp only
  repeat' first
    | with_reducible assumption
    | (simp [*, parts]; done)
    | (simp +contextual [*, parts]; done)
    | (with_reducible refine forEach_keeps _ _ _ _ (fun a x ha => ?_) ?_)
    | (with_reducible refine foldl_keeps _ _ _ _ (fun a x ha => ?_) ?_)
    | (with_reducible refine whenDo_keeps _ _ _ _ (fun a ha => ?_) ?_)
    | (with_reducible refine onRx_keeps _ _ _ _ (fun a ha => ?_) ?_)
    | split

theorem execTsAckRx_keeps (n : PortN) (a0 : Word) (a1 : Word) (chk : Word) (s : State) (t : State) (h : execTsAckRx n a0 a1 chk s = .next t) : Keeps s (view t) := by
  unfold execTsAckRx at h
  refine onLink_keeps _ _ _ (fun a ha => ?_) h
  try dsimp only
  repeat' first
    | with_reducible assumption
    | (simp [*, parts]; done)
    | (simp +contextual [*, parts]; done)
    | (with_reducible refine forEach_keeps _ _ _ _ (fun a x ha => ?_) ?_)
    | (with_reducible refine foldl_keeps _ _ _ _ (fun a x ha => ?_) ?_)
    | (with_reducible refine whenDo_keeps _ _ _ _ (fun a ha => ?_) ?_)
    | (with_reducible refine onRx_keeps _ _ _ _ (fun a ha => ?_) ?_)
    | split

theorem execTsTrialRx_keeps (n : PortN) (a0 : Word) (a1 : Word) (chk : Word) (s : State) (t : State) (h : execTsTrialRx n a0 a1 chk s = .next t) : Keeps s (view t) := by
  unfold execTsTrialRx at h
  refine onLink_keeps _ _ _ (fun a ha => ?_) h
  try dsimp only
  repeat' first
    | with_reducible assumption
    | (simp [*, parts]; done)
    | (simp +contextual [*, parts]; done)
    | (with_reducible refine forEach_keeps _ _ _ _ (fun a x ha => ?_) ?_)
    | (with_reducible refine foldl_keeps _ _ _ _ (fun a x ha => ?_) ?_)
    | (with_reducible refine whenDo_keeps _ _ _ _ (fun a ha => ?_) ?_)
    | (with_reducible refine onRx_keeps _ _ _ _ (fun a ha => ?_) ?_)
    | split

theorem execSwitchTimeout_keeps (n : PortN) (s : State) (t : State) (h : execSwitchTimeout n s = .next t) : Keeps s (view t) := by
  unfold execSwitchTimeout at h
  refine onLink_keeps _ _ _ (fun a ha => ?_) h
  try dsimp only
  repeat' first
    | with_reducible assumption
    | (simp [*, parts]; done)
    | (simp +contextual [*, parts]; done)
    | (with_reducible refine forEach_keeps _ _ _ _ (fun a x ha => ?_) ?_)
    | (with_reducible refine foldl_keeps _ _ _ _ (fun a x ha => ?_) ?_)
    | (with_reducible refine whenDo_keeps _ _ _ _ (fun a ha => ?_) ?_)
    | (with_reducible refine onRx_keeps _ _ _ _ (fun a ha => ?_) ?_)
    | split

theorem execTsReadyRx_keeps (n : PortN) (clean : Nat) (args : Word × Word) (chk : Word) (s : State) (t : State) (h : execTsReadyRx n clean args chk s = .next t) : Keeps s (view t) := by
  unfold execTsReadyRx at h
  refine onLink_keeps _ _ _ (fun a ha => ?_) h
  try dsimp only
  repeat' first
    | with_reducible assumption
    | (simp [*, parts]; done)
    | (simp +contextual [*, parts]; done)
    | (with_reducible refine forEach_keeps _ _ _ _ (fun a x ha => ?_) ?_)
    | (with_reducible refine foldl_keeps _ _ _ _ (fun a x ha => ?_) ?_)
    | (with_reducible refine whenDo_keeps _ _ _ _ (fun a ha => ?_) ?_)
    | (with_reducible refine onRx_keeps _ _ _ _ (fun a ha => ?_) ?_)
    | split

theorem execRalignTimeout_keeps (n : PortN) (s : State) (t : State) (h : execRalignTimeout n s = .next t) : Keeps s (view t) := by
  unfold execRalignTimeout at h
  refine onLink_keeps _ _ _ (fun a ha => ?_) h
  try dsimp only
  repeat' first
    | with_reducible assumption
    | (simp [*, parts]; done)
    | (simp +contextual [*, parts]; done)
    | (with_reducible refine forEach_keeps _ _ _ _ (fun a x ha => ?_) ?_)
    | (with_reducible refine foldl_keeps _ _ _ _ (fun a x ha => ?_) ?_)
    | (with_reducible refine whenDo_keeps _ _ _ _ (fun a ha => ?_) ?_)
    | (with_reducible refine onRx_keeps _ _ _ _ (fun a ha => ?_) ?_)
    | split

theorem execTrialSent_keeps (n : PortN) (rx : List (Option Word)) (s : State) (t : State) (h : execTrialSent n rx s = .next t) : Keeps s (view t) := by
  unfold execTrialSent at h
  refine onLink_keeps _ _ _ (fun a ha => ?_) h
  try dsimp only
  repeat' first
    | with_reducible assumption
    | (simp [*, parts]; done)
    | (simp +contextual [*, parts]; done)
    | (with_reducible refine forEach_keeps _ _ _ _ (fun a x ha => ?_) ?_)
    | (with_reducible refine foldl_keeps _ _ _ _ (fun a x ha => ?_) ?_)
    | (with_reducible refine whenDo_keeps _ _ _ _ (fun a ha => ?_) ?_)
    | (with_reducible refine onRx_keeps _ _ _ _ (fun a ha => ?_) ?_)
    | split

theorem execTsResultRx_keeps (n : PortN) (a0 : Word) (a1 : Word) (chk : Word) (s : State) (t : State) (h : execTsResultRx n a0 a1 chk s = .next t) : Keeps s (view t) := by
  unfold execTsResultRx at h
  refine onLink_keeps _ _ _ (fun a ha => ?_) h
  try dsimp only
  repeat' first
    | with_reducible assumption
    | (simp [*, parts]; done)
    | (simp +contextual [*, parts]; done)
    | (with_reducible refine forEach_keeps _ _ _ _ (fun a x ha => ?_) ?_)
    | (with_reducible refine foldl_keeps _ _ _ _ (fun a x ha => ?_) ?_)
    | (with_reducible refine whenDo_keeps _ _ _ _ (fun a ha => ?_) ?_)
    | (with_reducible refine onRx_keeps _ _ _ _ (fun a ha => ?_) ?_)
    | split

theorem execTrialTimeout_keeps (n : PortN) (s : State) (t : State) (h : execTrialTimeout n s = .next t) : Keeps s (view t) := by
  unfold execTrialTimeout at h
  refine onLink_keeps _ _ _ (fun a ha => ?_) h
  try dsimp only
  repeat' first
    | with_reducible assumption
    | (simp [*, parts]; done)
    | (simp +contextual [*, parts]; done)
    | (with_reducible refine forEach_keeps _ _ _ _ (fun a x ha => ?_) ?_)
    | (with_reducible refine foldl_keeps _ _ _ _ (fun a x ha => ?_) ?_)
    | (with_reducible refine whenDo_keeps _ _ _ _ (fun a ha => ?_) ?_)
    | (with_reducible refine onRx_keeps _ _ _ _ (fun a ha => ?_) ?_)
    | split

theorem execTsGoRx_keeps (n : PortN) (a0 : Word) (a1 : Word) (chk : Word) (s : State) (t : State) (h : execTsGoRx n a0 a1 chk s = .next t) : Keeps s (view t) := by
  unfold execTsGoRx at h
  refine onLink_keeps _ _ _ (fun a ha => ?_) h
  try dsimp only
  repeat' first
    | with_reducible assumption
    | (simp [*, parts]; done)
    | (simp +contextual [*, parts]; done)
    | (with_reducible refine forEach_keeps _ _ _ _ (fun a x ha => ?_) ?_)
    | (with_reducible refine foldl_keeps _ _ _ _ (fun a x ha => ?_) ?_)
    | (with_reducible refine whenDo_keeps _ _ _ _ (fun a ha => ?_) ?_)
    | (with_reducible refine onRx_keeps _ _ _ _ (fun a ha => ?_) ?_)
    | split

theorem execStepUp_keeps (n : PortN) (s : State) (t : State) (h : execStepUp n s = .next t) : Keeps s (view t) := by
  unfold execStepUp at h
  refine onLink_keeps _ _ _ (fun a ha => ?_) h
  try dsimp only
  repeat' first
    | with_reducible assumption
    | (simp [*, parts]; done)
    | (simp +contextual [*, parts]; done)
    | (with_reducible refine forEach_keeps _ _ _ _ (fun a x ha => ?_) ?_)
    | (with_reducible refine foldl_keeps _ _ _ _ (fun a x ha => ?_) ?_)
    | (with_reducible refine whenDo_keeps _ _ _ _ (fun a ha => ?_) ?_)
    | (with_reducible refine onRx_keeps _ _ _ _ (fun a ha => ?_) ?_)
    | split

theorem execCapUpdateSend_keeps (n : PortN) (s : State) (t : State) (h : execCapUpdateSend n s = .next t) : Keeps s (view t) := by
  unfold execCapUpdateSend at h
  refine onLink_keeps _ _ _ (fun a ha => ?_) h
  try dsimp only
  repeat' first
    | with_reducible assumption
    | (simp [*, parts]; done)
    | (simp +contextual [*, parts]; done)
    | (with_reducible refine forEach_keeps _ _ _ _ (fun a x ha => ?_) ?_)
    | (with_reducible refine foldl_keeps _ _ _ _ (fun a x ha => ?_) ?_)
    | (with_reducible refine whenDo_keeps _ _ _ _ (fun a ha => ?_) ?_)
    | (with_reducible refine onRx_keeps _ _ _ _ (fun a ha => ?_) ?_)
    | split

theorem execTsDownRx_keeps (n : PortN) (a0 : Word) (a1 : Word) (chk : Word) (s : State) (t : State) (h : execTsDownRx n a0 a1 chk s = .next t) : Keeps s (view t) := by
  unfold execTsDownRx at h
  refine onLink_keeps _ _ _ (fun a ha => ?_) h
  try dsimp only
  repeat' first
    | with_reducible assumption
    | (simp [*, parts]; done)
    | (simp +contextual [*, parts]; done)
    | (with_reducible refine forEach_keeps _ _ _ _ (fun a x ha => ?_) ?_)
    | (with_reducible refine foldl_keeps _ _ _ _ (fun a x ha => ?_) ?_)
    | (with_reducible refine whenDo_keeps _ _ _ _ (fun a ha => ?_) ?_)
    | (with_reducible refine onRx_keeps _ _ _ _ (fun a ha => ?_) ?_)
    | split

theorem execTsDisRx_keeps (n : PortN) (a0 : Word) (a1 : Word) (chk : Word) (s : State) (t : State) (h : execTsDisRx n a0 a1 chk s = .next t) : Keeps s (view t) := by
  unfold execTsDisRx at h
  refine onLink_keeps _ _ _ (fun a ha => ?_) h
  try dsimp only
  repeat' first
    | with_reducible assumption
    | (simp [*, parts]; done)
    | (simp +contextual [*, parts]; done)
    | (with_reducible refine forEach_keeps _ _ _ _ (fun a x ha => ?_) ?_)
    | (with_reducible refine foldl_keeps _ _ _ _ (fun a x ha => ?_) ?_)
    | (with_reducible refine whenDo_keeps _ _ _ _ (fun a ha => ?_) ?_)
    | (with_reducible refine onRx_keeps _ _ _ _ (fun a ha => ?_) ?_)
    | split

theorem execErrorBurst_keeps (n : PortN) (within1s : Bool) (s : State) (t : State) (h : execErrorBurst n within1s s = .next t) : Keeps s (view t) := by
  unfold execErrorBurst at h
  refine onLink_keeps _ _ _ (fun a ha => ?_) h
  try dsimp only
  repeat' first
    | with_reducible assumption
    | (simp [*, parts]; done)
    | (simp +contextual [*, parts]; done)
    | (with_reducible refine forEach_keeps _ _ _ _ (fun a x ha => ?_) ?_)
    | (with_reducible refine foldl_keeps _ _ _ _ (fun a x ha => ?_) ?_)
    | (with_reducible refine whenDo_keeps _ _ _ _ (fun a ha => ?_) ?_)
    | (with_reducible refine onRx_keeps _ _ _ _ (fun a ha => ?_) ?_)
    | split

theorem execErrorRate_keeps (n : PortN) (within1s : Bool) (s : State) (t : State) (h : execErrorRate n within1s s = .next t) : Keeps s (view t) := by
  unfold execErrorRate at h
  refine onLink_keeps _ _ _ (fun a ha => ?_) h
  try dsimp only
  repeat' first
    | with_reducible assumption
    | (simp [*, parts]; done)
    | (simp +contextual [*, parts]; done)
    | (with_reducible refine forEach_keeps _ _ _ _ (fun a x ha => ?_) ?_)
    | (with_reducible refine foldl_keeps _ _ _ _ (fun a x ha => ?_) ?_)
    | (with_reducible refine whenDo_keeps _ _ _ _ (fun a ha => ?_) ?_)
    | (with_reducible refine onRx_keeps _ _ _ _ (fun a ha => ?_) ?_)
    | split

theorem execFloodStart_keeps (n : PortN) (fldHigh : Bool) (s : State) (t : State) (h : execFloodStart n fldHigh s = .next t) : Keeps s (view t) := by
  unfold execFloodStart at h
  refine onLink_keeps _ _ _ (fun a ha => ?_) h
  try dsimp only
  repeat' first
    | with_reducible assumption
    | (simp [*, parts]; done)
    | (simp +contextual [*, parts]; done)
    | (with_reducible refine forEach_keeps _ _ _ _ (fun a x ha => ?_) ?_)
    | (with_reducible refine foldl_keeps _ _ _ _ (fun a x ha => ?_) ?_)
    | (with_reducible refine whenDo_keeps _ _ _ _ (fun a ha => ?_) ?_)
    | (with_reducible refine onRx_keeps _ _ _ _ (fun a ha => ?_) ?_)
    | split

theorem execFloodEnd_keeps (n : PortN) (s : State) (t : State) (h : execFloodEnd n s = .next t) : Keeps s (view t) := by
  unfold execFloodEnd at h
  refine onLink_keeps _ _ _ (fun a ha => ?_) h
  try dsimp only
  repeat' first
    | with_reducible assumption
    | (simp [*, parts]; done)
    | (simp +contextual [*, parts]; done)
    | (with_reducible refine forEach_keeps _ _ _ _ (fun a x ha => ?_) ?_)
    | (with_reducible refine foldl_keeps _ _ _ _ (fun a x ha => ?_) ?_)
    | (with_reducible refine whenDo_keeps _ _ _ _ (fun a ha => ?_) ?_)
    | (with_reducible refine onRx_keeps _ _ _ _ (fun a ha => ?_) ?_)
    | split

theorem execFloodTimeout_keeps (n : PortN) (within1s : Bool) (s : State) (t : State) (h : execFloodTimeout n within1s s = .next t) : Keeps s (view t) := by
  unfold execFloodTimeout at h
  refine onLink_keeps _ _ _ (fun a ha => ?_) h
  try dsimp only
  repeat' first
    | with_reducible assumption
    | (simp [*, parts]; done)
    | (simp +contextual [*, parts]; done)
    | (with_reducible refine forEach_keeps _ _ _ _ (fun a x ha => ?_) ?_)
    | (with_reducible refine foldl_keeps _ _ _ _ (fun a x ha => ?_) ?_)
    | (with_reducible refine whenDo_keeps _ _ _ _ (fun a ha => ?_) ?_)
    | (with_reducible refine onRx_keeps _ _ _ _ (fun a ha => ?_) ?_)
    | split

theorem execDisableDone_keeps (n : PortN) (s : State) (t : State) (h : execDisableDone n s = .next t) : Keeps s (view t) := by
  unfold execDisableDone at h
  refine onLink_keeps _ _ _ (fun a ha => ?_) h
  try dsimp only
  repeat' first
    | with_reducible assumption
    | (simp [*, parts]; done)
    | (simp +contextual [*, parts]; done)
    | (with_reducible refine forEach_keeps _ _ _ _ (fun a x ha => ?_) ?_)
    | (with_reducible refine foldl_keeps _ _ _ _ (fun a x ha => ?_) ?_)
    | (with_reducible refine whenDo_keeps _ _ _ _ (fun a ha => ?_) ?_)
    | (with_reducible refine onRx_keeps _ _ _ _ (fun a ha => ?_) ?_)
    | split

theorem execCrdRx_keeps (n : PortN) (param : Word) (s : State) (t : State) (h : execCrdRx n param s = .next t) : Keeps s (view t) := by
  unfold execCrdRx at h
  refine onLink_keeps _ _ _ (fun a ha => ?_) h
  try dsimp only
  repeat' first
    | with_reducible assumption
    | (simp [*, parts]; done)
    | (simp +contextual [*, parts]; done)
    | (with_reducible refine forEach_keeps _ _ _ _ (fun a x ha => ?_) ?_)
    | (with_reducible refine foldl_keeps _ _ _ _ (fun a x ha => ?_) ?_)
    | (with_reducible refine whenDo_keeps _ _ _ _ (fun a ha => ?_) ?_)
    | (with_reducible refine onRx_keeps _ _ _ _ (fun a ha => ?_) ?_)
    | split

theorem execTsTallyreqRx_keeps (n : PortN) (x : TsSet) (s : State) (t : State) (h : execTsTallyreqRx n x s = .next t) : Keeps s (view t) := by
  unfold execTsTallyreqRx at h
  refine onLink_keeps _ _ _ (fun a ha => ?_) h
  try dsimp only
  repeat' first
    | with_reducible assumption
    | (simp [*, parts]; done)
    | (simp +contextual [*, parts]; done)
    | (with_reducible refine forEach_keeps _ _ _ _ (fun a x ha => ?_) ?_)
    | (with_reducible refine foldl_keeps _ _ _ _ (fun a x ha => ?_) ?_)
    | (with_reducible refine whenDo_keeps _ _ _ _ (fun a ha => ?_) ?_)
    | (with_reducible refine onRx_keeps _ _ _ _ (fun a ha => ?_) ?_)
    | split

theorem execTsTallyRx_keeps (n : PortN) (a0 : Word) (a1 : Word) (chk : Word) (s : State) (t : State) (h : execTsTallyRx n a0 a1 chk s = .next t) : Keeps s (view t) := by
  unfold execTsTallyRx at h
  refine onLink_keeps _ _ _ (fun a ha => ?_) h
  try dsimp only
  repeat' first
    | with_reducible assumption
    | (simp [*, parts]; done)
    | (simp +contextual [*, parts]; done)
    | (with_reducible refine forEach_keeps _ _ _ _ (fun a x ha => ?_) ?_)
    | (with_reducible refine foldl_keeps _ _ _ _ (fun a x ha => ?_) ?_)
    | (with_reducible refine whenDo_keeps _ _ _ _ (fun a ha => ?_) ?_)
    | (with_reducible refine onRx_keeps _ _ _ _ (fun a ha => ?_) ?_)
    | split

theorem execSkpSend_keeps (n : PortN) (s : State) (t : State) (h : execSkpSend n s = .next t) : Keeps s (view t) := by
  unfold execSkpSend at h
  refine onLink_keeps _ _ _ (fun a ha => ?_) h
  try dsimp only
  repeat' first
    | with_reducible assumption
    | (simp [*, parts]; done)
    | (simp +contextual [*, parts]; done)
    | (with_reducible refine forEach_keeps _ _ _ _ (fun a x ha => ?_) ?_)
    | (with_reducible refine foldl_keeps _ _ _ _ (fun a x ha => ?_) ?_)
    | (with_reducible refine whenDo_keeps _ _ _ _ (fun a ha => ?_) ?_)
    | (with_reducible refine onRx_keeps _ _ _ _ (fun a ha => ?_) ?_)
    | split

theorem execPreRx_keeps (n : PortN) (came : Option Nat) (s : State) (t : State) (h : execPreRx n came s = .next t) : Keeps s (view t) := by
  unfold execPreRx at h
  refine onLink_keeps _ _ _ (fun a ha => ?_) h
  try dsimp only
  repeat' first
    | with_reducible assumption
    | (simp [*, parts]; done)
    | (simp +contextual [*, parts]; done)
    | (with_reducible refine forEach_keeps _ _ _ _ (fun a x ha => ?_) ?_)
    | (with_reducible refine foldl_keeps _ _ _ _ (fun a x ha => ?_) ?_)
    | (with_reducible refine whenDo_keeps _ _ _ _ (fun a ha => ?_) ?_)
    | (with_reducible refine onRx_keeps _ _ _ _ (fun a ha => ?_) ?_)
    | split

theorem execRsmRx_keeps (n : PortN) (off : BitVec 10) (top : BitVec 6) (s : State) (t : State) (h : execRsmRx n off top s = .next t) : Keeps s (view t) := by
  unfold execRsmRx at h
  refine onLink_keeps _ _ _ (fun a ha => ?_) h
  try dsimp only
  repeat' first
    | with_reducible assumption
    | (simp [*, parts]; done)
    | (simp +contextual [*, parts]; done)
    | (with_reducible refine forEach_keeps _ _ _ _ (fun a x ha => ?_) ?_)
    | (with_reducible refine foldl_keeps _ _ _ _ (fun a x ha => ?_) ?_)
    | (with_reducible refine whenDo_keeps _ _ _ _ (fun a ha => ?_) ?_)
    | (with_reducible refine onRx_keeps _ _ _ _ (fun a ha => ?_) ?_)
    | split

theorem execReceiveWithoutCredit_keeps (n : PortN) (s : State) (t : State) (h : execReceiveWithoutCredit n s = .next t) : Keeps s (view t) := by
  unfold execReceiveWithoutCredit at h
  refine onLink_keeps _ _ _ (fun a ha => ?_) h
  try dsimp only
  repeat' first
    | with_reducible assumption
    | (simp [*, parts]; done)
    | (simp +contextual [*, parts]; done)
    | (with_reducible refine forEach_keeps _ _ _ _ (fun a x ha => ?_) ?_)
    | (with_reducible refine foldl_keeps _ _ _ _ (fun a x ha => ?_) ?_)
    | (with_reducible refine whenDo_keeps _ _ _ _ (fun a ha => ?_) ?_)
    | (with_reducible refine onRx_keeps _ _ _ _ (fun a ha => ?_) ?_)
    | split

theorem execCodeViolation_keeps (x : RxAt) (s : State) (t : State) (h : execCodeViolation x s = .next t) : Keeps s (view t) := by
  unfold execCodeViolation at h
  refine onLink_keeps _ _ _ (fun a ha => ?_) h
  try dsimp only
  repeat' first
    | with_reducible assumption
    | (simp [*, parts]; done)
    | (simp +contextual [*, parts]; done)
    | (with_reducible refine forEach_keeps _ _ _ _ (fun a x ha => ?_) ?_)
    | (with_reducible refine foldl_keeps _ _ _ _ (fun a x ha => ?_) ?_)
    | (with_reducible refine whenDo_keeps _ _ _ _ (fun a ha => ?_) ?_)
    | (with_reducible refine onRx_keeps _ _ _ _ (fun a ha => ?_) ?_)
    | split

theorem execLocalSetup_keeps (s : State) (t : State) (h : execLocalSetup s = .next t) : Keeps s (view t) := by
  unfold execLocalSetup at h
  refine onLink_keeps _ _ _ (fun a ha => ?_) h
  try dsimp only
  repeat' first
    | with_reducible assumption
    | (simp [*, parts]; done)
    | (simp +contextual [*, parts]; done)
    | (with_reducible refine forEach_keeps _ _ _ _ (fun a x ha => ?_) ?_)
    | (with_reducible refine foldl_keeps _ _ _ _ (fun a x ha => ?_) ?_)
    | (with_reducible refine whenDo_keeps _ _ _ _ (fun a ha => ?_) ?_)
    | (with_reducible refine onRx_keeps _ _ _ _ (fun a ha => ?_) ?_)
    | split

theorem execLocalOutData_keeps (s : State) (t : State) (h : execLocalOutData s = .next t) : Keeps s (view t) := by
  unfold execLocalOutData at h
  refine onLink_keeps _ _ _ (fun a ha => ?_) h
  try dsimp only
  repeat' first
    | with_reducible assumption
    | (simp [*, parts]; done)
    | (simp +contextual [*, parts]; done)
    | (with_reducible refine forEach_keeps _ _ _ _ (fun a x ha => ?_) ?_)
    | (with_reducible refine foldl_keeps _ _ _ _ (fun a x ha => ?_) ?_)
    | (with_reducible refine whenDo_keeps _ _ _ _ (fun a ha => ?_) ?_)
    | (with_reducible refine onRx_keeps _ _ _ _ (fun a ha => ?_) ?_)
    | split

theorem execLocalInRequest_keeps (s : State) (t : State) (h : execLocalInRequest s = .next t) : Keeps s (view t) := by
  unfold execLocalInRequest at h
  refine onLink_keeps _ _ _ (fun a ha => ?_) h
  try dsimp only
  repeat' first
    | with_reducible assumption
    | (simp [*, parts]; done)
    | (simp +contextual [*, parts]; done)
    | (with_reducible refine forEach_keeps _ _ _ _ (fun a x ha => ?_) ?_)
    | (with_reducible refine foldl_keeps _ _ _ _ (fun a x ha => ?_) ?_)
    | (with_reducible refine whenDo_keeps _ _ _ _ (fun a ha => ?_) ?_)
    | (with_reducible refine onRx_keeps _ _ _ _ (fun a ha => ?_) ?_)
    | split

theorem execLocalCstat_keeps (s : State) (t : State) (h : execLocalCstat s = .next t) : Keeps s (view t) := by
  unfold execLocalCstat at h
  refine onLink_keeps _ _ _ (fun a ha => ?_) h
  try dsimp only
  repeat' first
    | with_reducible assumption
    | (simp [*, parts]; done)
    | (simp +contextual [*, parts]; done)
    | (with_reducible refine forEach_keeps _ _ _ _ (fun a x ha => ?_) ?_)
    | (with_reducible refine foldl_keeps _ _ _ _ (fun a x ha => ?_) ?_)
    | (with_reducible refine whenDo_keeps _ _ _ _ (fun a ha => ?_) ?_)
    | (with_reducible refine onRx_keeps _ _ _ _ (fun a ha => ?_) ?_)
    | split

theorem execLocalPinq_keeps (s : State) (t : State) (h : execLocalPinq s = .next t) : Keeps s (view t) := by
  unfold execLocalPinq at h
  refine onLink_keeps _ _ _ (fun a ha => ?_) h
  try dsimp only
  repeat' first
    | with_reducible assumption
    | (simp [*, parts]; done)
    | (simp +contextual [*, parts]; done)
    | (with_reducible refine forEach_keeps _ _ _ _ (fun a x ha => ?_) ?_)
    | (with_reducible refine foldl_keeps _ _ _ _ (fun a x ha => ?_) ?_)
    | (with_reducible refine whenDo_keeps _ _ _ _ (fun a ha => ?_) ?_)
    | (with_reducible refine onRx_keeps _ _ _ _ (fun a ha => ?_) ?_)
    | split

theorem execConfirmTimeout_keeps (k : EpN) (s : State) (t : State) (h : execConfirmTimeout k s = .next t) : Keeps s (view t) := by
  unfold execConfirmTimeout at h
  refine onLink_keeps _ _ _ (fun a ha => ?_) h
  try dsimp only
  repeat' first
    | with_reducible assumption
    | (simp [*, parts]; done)
    | (simp +contextual [*, parts]; done)
    | (with_reducible refine forEach_keeps _ _ _ _ (fun a x ha => ?_) ?_)
    | (with_reducible refine foldl_keeps _ _ _ _ (fun a x ha => ?_) ?_)
    | (with_reducible refine whenDo_keeps _ _ _ _ (fun a ha => ?_) ?_)
    | (with_reducible refine onRx_keeps _ _ _ _ (fun a ha => ?_) ?_)
    | split

theorem execEpMissed_keeps (k : EpN) (s : State) (t : State) (h : execEpMissed k s = .next t) : Keeps s (view t) := by
  unfold execEpMissed at h
  refine onLink_keeps _ _ _ (fun a ha => ?_) h
  try dsimp only
  repeat' first
    | with_reducible assumption
    | (simp [*, parts]; done)
    | (simp +contextual [*, parts]; done)
    | (with_reducible refine forEach_keeps _ _ _ _ (fun a x ha => ?_) ?_)
    | (with_reducible refine foldl_keeps _ _ _ _ (fun a x ha => ?_) ?_)
    | (with_reducible refine whenDo_keeps _ _ _ _ (fun a ha => ?_) ?_)
    | (with_reducible refine onRx_keeps _ _ _ _ (fun a ha => ?_) ?_)
    | split

theorem execRecvDrain_keeps (k : EpN) (s : State) (t : State) (h : execRecvDrain k s = .next t) : Keeps s (view t) := by
  unfold execRecvDrain at h
  refine onLink_keeps _ _ _ (fun a ha => ?_) h
  try dsimp only
  repeat' first
    | with_reducible assumption
    | (simp [*, parts]; done)
    | (simp +contextual [*, parts]; done)
    | (with_reducible refine forEach_keeps _ _ _ _ (fun a x ha => ?_) ?_)
    | (with_reducible refine foldl_keeps _ _ _ _ (fun a x ha => ?_) ?_)
    | (with_reducible refine whenDo_keeps _ _ _ _ (fun a ha => ?_) ?_)
    | (with_reducible refine onRx_keeps _ _ _ _ (fun a ha => ?_) ?_)
    | split

theorem execLocalPout_keeps (s : State) (t : State) (h : execLocalPout s = .next t) : Keeps s (view t) := by
  unfold execLocalPout at h
  refine onLink_keeps _ _ _ (fun a ha => ?_) h
  try dsimp only
  repeat' first
    | with_reducible assumption
    | (simp [*, parts]; done)
    | (simp +contextual [*, parts]; done)
    | (with_reducible refine forEach_keeps _ _ _ _ (fun a x ha => ?_) ?_)
    | (with_reducible refine foldl_keeps _ _ _ _ (fun a x ha => ?_) ?_)
    | (with_reducible refine whenDo_keeps _ _ _ _ (fun a ha => ?_) ?_)
    | (with_reducible refine onRx_keeps _ _ _ _ (fun a ha => ?_) ?_)
    | split

theorem execGapTimerEnd_keeps (d : DomN) (v : Fin 32) (s : State) (t : State) (h : execGapTimerEnd d v s = .next t) : Keeps s (view t) := by
  unfold execGapTimerEnd at h
  refine onLink_keeps _ _ _ (fun a ha => ?_) h
  try dsimp only
  repeat' first
    | with_reducible assumption
    | (simp [*, parts]; done)
    | (simp +contextual [*, parts]; done)
    | (with_reducible refine forEach_keeps _ _ _ _ (fun a x ha => ?_) ?_)
    | (with_reducible refine foldl_keeps _ _ _ _ (fun a x ha => ?_) ?_)
    | (with_reducible refine whenDo_keeps _ _ _ _ (fun a ha => ?_) ?_)
    | (with_reducible refine onRx_keeps _ _ _ _ (fun a ha => ?_) ?_)
    | split

theorem execMsixUnmask_keeps (d : DomN) (which : MaskKind) (s : State) (t : State) (h : execMsixUnmask d which s = .next t) : Keeps s (view t) := by
  unfold execMsixUnmask at h
  refine onLink_keeps _ _ _ (fun a ha => ?_) h
  try dsimp only
  repeat' first
    | with_reducible assumption
    | (simp [*, parts]; done)
    | (simp +contextual [*, parts]; done)
    | (with_reducible refine forEach_keeps _ _ _ _ (fun a x ha => ?_) ?_)
    | (with_reducible refine foldl_keeps _ _ _ _ (fun a x ha => ?_) ?_)
    | (with_reducible refine whenDo_keeps _ _ _ _ (fun a ha => ?_) ?_)
    | (with_reducible refine onRx_keeps _ _ _ _ (fun a ha => ?_) ?_)
    | split

theorem execTeardownComplete_keeps (d : DomN) (s : State) (t : State) (h : execTeardownComplete d s = .next t) : Keeps s (view t) := by
  unfold execTeardownComplete at h
  refine onLink_keeps _ _ _ (fun a ha => ?_) h
  try dsimp only
  repeat' first
    | with_reducible assumption
    | (simp [*, parts]; done)
    | (simp +contextual [*, parts]; done)
    | (with_reducible refine forEach_keeps _ _ _ _ (fun a x ha => ?_) ?_)
    | (with_reducible refine foldl_keeps _ _ _ _ (fun a x ha => ?_) ?_)
    | (with_reducible refine whenDo_keeps _ _ _ _ (fun a ha => ?_) ?_)
    | (with_reducible refine onRx_keeps _ _ _ _ (fun a ha => ?_) ?_)
    | split

theorem execPacketHeaderRx_keeps (n : PortN) (w0 : Word) (w1 : Word) (w2 : Word) (w3 : Word) (len : Word) (s : State) (t : State) (h : execPacketHeaderRx n w0 w1 w2 w3 len s = .next t) : Keeps s (view t) := by
  unfold execPacketHeaderRx at h
  refine onLink_keeps _ _ _ (fun a ha => ?_) h
  try dsimp only
  repeat' first
    | with_reducible assumption
    | (simp [*, parts]; done)
    | (simp +contextual [*, parts]; done)
    | (with_reducible refine forEach_keeps _ _ _ _ (fun a x ha => ?_) ?_)
    | (with_reducible refine foldl_keeps _ _ _ _ (fun a x ha => ?_) ?_)
    | (with_reducible refine whenDo_keeps _ _ _ _ (fun a ha => ?_) ?_)
    | (with_reducible refine onRx_keeps _ _ _ _ (fun a ha => ?_) ?_)
    | split

theorem execPacketTrailerRx_keeps (n : PortN) (payload : List Word) (t0 t1 : Option Word) (s : State) (t : State) (h : execPacketTrailerRx n payload t0 t1 s = .next t) : Keeps s (view t) := by
  unfold execPacketTrailerRx at h
  refine onLink_keeps _ _ _ (fun a ha => ?_) h
  try dsimp only
  repeat' first
    | with_reducible assumption
    | (simp [*, parts]; done)
    | (simp +contextual [*, parts]; done)
    | (with_reducible refine forEach_keeps _ _ _ _ (fun a x ha => ?_) ?_)
    | (with_reducible refine foldl_keeps _ _ _ _ (fun a x ha => ?_) ?_)
    | (with_reducible refine whenDo_keeps _ _ _ _ (fun a ha => ?_) ?_)
    | (with_reducible refine onRx_keeps _ _ _ _ (fun a ha => ?_) ?_)
    | split

theorem execEabRx_keeps (n : PortN) (reason : BitVec 8) (words : Word) (pcls : Bool) (s : State) (t : State) (h : execEabRx n reason words pcls s = .next t) : Keeps s (view t) := by
  unfold execEabRx at h
  refine onLink_keeps _ _ _ (fun a ha => ?_) h
  try dsimp only
  repeat' first
    | with_reducible assumption
    | (simp [*, parts]; done)
    | (simp +contextual [*, parts]; done)
    | (with_reducible refine forEach_keeps _ _ _ _ (fun a x ha => ?_) ?_)
    | (with_reducible refine foldl_keeps _ _ _ _ (fun a x ha => ?_) ?_)
    | (with_reducible refine whenDo_keeps _ _ _ _ (fun a ha => ?_) ?_)
    | (with_reducible refine onRx_keeps _ _ _ _ (fun a ha => ?_) ?_)
    | split

theorem execSelectorStart_keeps (m : DnN) (s : State) (t : State) (h : execSelectorStart m s = .next t) : Keeps s (view t) := by
  unfold execSelectorStart at h
  refine onLink_keeps _ _ _ (fun a ha => ?_) h
  try dsimp only
  repeat' first
    | with_reducible assumption
    | (simp [*, parts]; done)
    | (simp +contextual [*, parts]; done)
    | (with_reducible refine forEach_keeps _ _ _ _ (fun a x ha => ?_) ?_)
    | (with_reducible refine foldl_keeps _ _ _ _ (fun a x ha => ?_) ?_)
    | (with_reducible refine whenDo_keeps _ _ _ _ (fun a ha => ?_) ?_)
    | (with_reducible refine onRx_keeps _ _ _ _ (fun a ha => ?_) ?_)
    | split

theorem execRecordExpiry_keeps (m : DnN) (addr : Word) (endp : BitVec 5) (tag : BitVec 7) (s : State) (t : State) (h : execRecordExpiry m addr endp tag s = .next t) : Keeps s (view t) := by
  unfold execRecordExpiry at h
  refine onLink_keeps _ _ _ (fun a ha => ?_) h
  try dsimp only
  repeat' first
    | with_reducible assumption
    | (simp [*, parts]; done)
    | (simp +contextual [*, parts]; done)
    | (with_reducible refine forEach_keeps _ _ _ _ (fun a x ha => ?_) ?_)
    | (with_reducible refine foldl_keeps _ _ _ _ (fun a x ha => ?_) ?_)
    | (with_reducible refine whenDo_keeps _ _ _ _ (fun a ha => ?_) ?_)
    | (with_reducible refine onRx_keeps _ _ _ _ (fun a ha => ?_) ?_)
    | split

theorem execEopSent_keeps (n : PortN) (s : State) (t : State) (h : execEopSent n s = .next t) : Keeps s (view t) := by
  unfold execEopSent at h
  refine onLink_keeps _ _ _ (fun a ha => ?_) h
  try dsimp only
  repeat' first
    | with_reducible assumption
    | (simp [*, parts]; done)
    | (simp +contextual [*, parts]; done)
    | (with_reducible refine forEach_keeps _ _ _ _ (fun a x ha => ?_) ?_)
    | (with_reducible refine foldl_keeps _ _ _ _ (fun a x ha => ?_) ?_)
    | (with_reducible refine whenDo_keeps _ _ _ _ (fun a ha => ?_) ?_)
    | (with_reducible refine onRx_keeps _ _ _ _ (fun a ha => ?_) ?_)
    | split

theorem execProxyRx_keeps (s : State) (t : State) (h : execProxyRx s = .next t) : Keeps s (view t) := by
  unfold execProxyRx at h
  refine onLink_keeps _ _ _ (fun a ha => ?_) h
  split
  · rename_i x s1 he
    have hk := takeInbox_keeps _ _ _ _ _ he ha
    simp +contextual [hk]
  · exact ha

theorem execSsplitRx_keeps (s : State) (t : State) (h : execSsplitRx s = .next t) : Keeps s (view t) := by
  unfold execSsplitRx at h
  refine onLink_keeps _ _ _ (fun a ha => ?_) h
  try dsimp only
  repeat' first
    | with_reducible assumption
    | (simp [*, parts]; done)
    | (simp +contextual [*, parts]; done)
    | (with_reducible refine forEach_keeps _ _ _ _ (fun a x ha => ?_) ?_)
    | (with_reducible refine foldl_keeps _ _ _ _ (fun a x ha => ?_) ?_)
    | (with_reducible refine whenDo_keeps _ _ _ _ (fun a ha => ?_) ?_)
    | (with_reducible refine onRx_keeps _ _ _ _ (fun a ha => ?_) ?_)
    | split

theorem execCsplitRx_keeps (s : State) (t : State) (h : execCsplitRx s = .next t) : Keeps s (view t) := by
  unfold execCsplitRx at h
  refine onLink_keeps _ _ _ (fun a ha => ?_) h
  try dsimp only
  repeat' first
    | with_reducible assumption
    | (simp [*, parts]; done)
    | (simp +contextual [*, parts]; done)
    | (with_reducible refine forEach_keeps _ _ _ _ (fun a x ha => ?_) ?_)
    | (with_reducible refine foldl_keeps _ _ _ _ (fun a x ha => ?_) ?_)
    | (with_reducible refine whenDo_keeps _ _ _ _ (fun a ha => ?_) ?_)
    | (with_reducible refine onRx_keeps _ _ _ _ (fun a ha => ?_) ?_)
    | split

theorem execChunkGrant_keeps (s : State) (t : State) (h : execChunkGrant s = .next t) : Keeps s (view t) := by
  unfold execChunkGrant at h
  refine onLink_keeps _ _ _ (fun a ha => ?_) h
  try dsimp only
  repeat' first
    | with_reducible assumption
    | (simp [*, parts]; done)
    | (simp +contextual [*, parts]; done)
    | (with_reducible refine forEach_keeps _ _ _ _ (fun a x ha => ?_) ?_)
    | (with_reducible refine foldl_keeps _ _ _ _ (fun a x ha => ?_) ?_)
    | (with_reducible refine whenDo_keeps _ _ _ _ (fun a ha => ?_) ?_)
    | (with_reducible refine onRx_keeps _ _ _ _ (fun a ha => ?_) ?_)
    | split

theorem execTtSlotTimeout_keeps (j : Fin 48) (s : State) (t : State) (h : execTtSlotTimeout j s = .next t) : Keeps s (view t) := by
  unfold execTtSlotTimeout at h
  refine onLink_keeps _ _ _ (fun a ha => ?_) h
  try dsimp only
  repeat' first
    | with_reducible assumption
    | (simp [*, parts]; done)
    | (simp +contextual [*, parts]; done)
    | (with_reducible refine forEach_keeps _ _ _ _ (fun a x ha => ?_) ?_)
    | (with_reducible refine foldl_keeps _ _ _ _ (fun a x ha => ?_) ?_)
    | (with_reducible refine whenDo_keeps _ _ _ _ (fun a ha => ?_) ?_)
    | (with_reducible refine onRx_keeps _ _ _ _ (fun a ha => ?_) ?_)
    | split

theorem execTtSlotExpire_keeps (j : Fin 48) (s : State) (t : State) (h : execTtSlotExpire j s = .next t) : Keeps s (view t) := by
  unfold execTtSlotExpire at h
  refine onLink_keeps _ _ _ (fun a ha => ?_) h
  try dsimp only
  repeat' first
    | with_reducible assumption
    | (simp [*, parts]; done)
    | (simp +contextual [*, parts]; done)
    | (with_reducible refine forEach_keeps _ _ _ _ (fun a x ha => ?_) ?_)
    | (with_reducible refine foldl_keeps _ _ _ _ (fun a x ha => ?_) ?_)
    | (with_reducible refine whenDo_keeps _ _ _ _ (fun a ha => ?_) ?_)
    | (with_reducible refine onRx_keeps _ _ _ _ (fun a ha => ?_) ?_)
    | split

theorem execPeriodicSlotExpire_keeps (j : Fin 48) (s : State) (t : State) (h : execPeriodicSlotExpire j s = .next t) : Keeps s (view t) := by
  unfold execPeriodicSlotExpire at h
  refine onLink_keeps _ _ _ (fun a ha => ?_) h
  try dsimp only
  repeat' first
    | with_reducible assumption
    | (simp [*, parts]; done)
    | (simp +contextual [*, parts]; done)
    | (with_reducible refine forEach_keeps _ _ _ _ (fun a x ha => ?_) ?_)
    | (with_reducible refine foldl_keeps _ _ _ _ (fun a x ha => ?_) ?_)
    | (with_reducible refine whenDo_keeps _ _ _ _ (fun a ha => ?_) ?_)
    | (with_reducible refine onRx_keeps _ _ _ _ (fun a ha => ?_) ?_)
    | split

theorem execCensusOpen_keeps (s : State) (t : State) (h : execCensusOpen s = .next t) : Keeps s (view t) := by
  unfold execCensusOpen at h
  refine onLink_keeps _ _ _ (fun a ha => ?_) h
  split
  · rename_i x s1 he
    have hk := takeInbox_keeps _ _ _ _ _ he ha
    simp +contextual [hk]
  · exact ha

theorem execSurveyOpen_keeps (s : State) (t : State) (h : execSurveyOpen s = .next t) : Keeps s (view t) := by
  unfold execSurveyOpen at h
  refine onLink_keeps _ _ _ (fun a ha => ?_) h
  try dsimp only
  repeat' first
    | with_reducible assumption
    | (simp [*, parts]; done)
    | (simp +contextual [*, parts]; done)
    | (with_reducible refine forEach_keeps _ _ _ _ (fun a x ha => ?_) ?_)
    | (with_reducible refine foldl_keeps _ _ _ _ (fun a x ha => ?_) ?_)
    | (with_reducible refine whenDo_keeps _ _ _ _ (fun a ha => ?_) ?_)
    | (with_reducible refine onRx_keeps _ _ _ _ (fun a ha => ?_) ?_)
    | split

theorem execProbeTimeout_keeps (s : State) (t : State) (h : execProbeTimeout s = .next t) : Keeps s (view t) := by
  unfold execProbeTimeout at h
  refine onLink_keeps _ _ _ (fun a ha => ?_) h
  try dsimp only
  repeat' first
    | with_reducible assumption
    | (simp [*, parts]; done)
    | (simp +contextual [*, parts]; done)
    | (with_reducible refine forEach_keeps _ _ _ _ (fun a x ha => ?_) ?_)
    | (with_reducible refine foldl_keeps _ _ _ _ (fun a x ha => ?_) ?_)
    | (with_reducible refine whenDo_keeps _ _ _ _ (fun a ha => ?_) ?_)
    | (with_reducible refine onRx_keeps _ _ _ _ (fun a ha => ?_) ?_)
    | split

theorem execSurveyProbe_keeps (s : State) (t : State) (h : execSurveyProbe s = .next t) : Keeps s (view t) := by
  unfold execSurveyProbe at h
  refine onLink_keeps _ _ _ (fun a ha => ?_) h
  try dsimp only
  repeat' first
    | with_reducible assumption
    | (simp [*, parts]; done)
    | (simp +contextual [*, parts]; done)
    | (with_reducible refine forEach_keeps _ _ _ _ (fun a x ha => ?_) ?_)
    | (with_reducible refine foldl_keeps _ _ _ _ (fun a x ha => ?_) ?_)
    | (with_reducible refine whenDo_keeps _ _ _ _ (fun a ha => ?_) ?_)
    | (with_reducible refine onRx_keeps _ _ _ _ (fun a ha => ?_) ?_)
    | split

theorem execSurveyEcho_keeps (s : State) (t : State) (h : execSurveyEcho s = .next t) : Keeps s (view t) := by
  unfold execSurveyEcho at h
  refine onLink_keeps _ _ _ (fun a ha => ?_) h
  try dsimp only
  repeat' first
    | with_reducible assumption
    | (simp [*, parts]; done)
    | (simp +contextual [*, parts]; done)
    | (with_reducible refine forEach_keeps _ _ _ _ (fun a x ha => ?_) ?_)
    | (with_reducible refine foldl_keeps _ _ _ _ (fun a x ha => ?_) ?_)
    | (with_reducible refine whenDo_keeps _ _ _ _ (fun a ha => ?_) ?_)
    | (with_reducible refine onRx_keeps _ _ _ _ (fun a ha => ?_) ?_)
    | split

theorem execSurveyToken_keeps (s : State) (t : State) (h : execSurveyToken s = .next t) : Keeps s (view t) := by
  unfold execSurveyToken at h
  refine onLink_keeps _ _ _ (fun a ha => ?_) h
  try dsimp only
  repeat' first
    | with_reducible assumption
    | (simp [*, parts]; done)
    | (simp +contextual [*, parts]; done)
    | (with_reducible refine forEach_keeps _ _ _ _ (fun a x ha => ?_) ?_)
    | (with_reducible refine foldl_keeps _ _ _ _ (fun a x ha => ?_) ?_)
    | (with_reducible refine whenDo_keeps _ _ _ _ (fun a ha => ?_) ?_)
    | (with_reducible refine onRx_keeps _ _ _ _ (fun a ha => ?_) ?_)
    | split

theorem execRecordSent_keeps (s : State) (t : State) (h : execRecordSent s = .next t) : Keeps s (view t) := by
  unfold execRecordSent at h
  refine onLink_keeps _ _ _ (fun a ha => ?_) h
  try dsimp only
  repeat' first
    | with_reducible assumption
    | (simp [*, parts]; done)
    | (simp +contextual [*, parts]; done)
    | (with_reducible refine forEach_keeps _ _ _ _ (fun a x ha => ?_) ?_)
    | (with_reducible refine foldl_keeps _ _ _ _ (fun a x ha => ?_) ?_)
    | (with_reducible refine whenDo_keeps _ _ _ _ (fun a ha => ?_) ?_)
    | (with_reducible refine onRx_keeps _ _ _ _ (fun a ha => ?_) ?_)
    | split

theorem execProbeWaitTimeout_keeps (s : State) (t : State) (h : execProbeWaitTimeout s = .next t) : Keeps s (view t) := by
  unfold execProbeWaitTimeout at h
  refine onLink_keeps _ _ _ (fun a ha => ?_) h
  try dsimp only
  repeat' first
    | with_reducible assumption
    | (simp [*, parts]; done)
    | (simp +contextual [*, parts]; done)
    | (with_reducible refine forEach_keeps _ _ _ _ (fun a x ha => ?_) ?_)
    | (with_reducible refine foldl_keeps _ _ _ _ (fun a x ha => ?_) ?_)
    | (with_reducible refine whenDo_keeps _ _ _ _ (fun a ha => ?_) ?_)
    | (with_reducible refine onRx_keeps _ _ _ _ (fun a ha => ?_) ?_)
    | split

theorem execSurveyPortTimeout_keeps (m : DnN) (s : State) (t : State) (h : execSurveyPortTimeout m s = .next t) : Keeps s (view t) := by
  unfold execSurveyPortTimeout at h
  refine onLink_keeps _ _ _ (fun a ha => ?_) h
  try dsimp only
  repeat' first
    | with_reducible assumption
    | (simp [*, parts]; done)
    | (simp +contextual [*, parts]; done)
    | (with_reducible refine forEach_keeps _ _ _ _ (fun a x ha => ?_) ?_)
    | (with_reducible refine foldl_keeps _ _ _ _ (fun a x ha => ?_) ?_)
    | (with_reducible refine whenDo_keeps _ _ _ _ (fun a ha => ?_) ?_)
    | (with_reducible refine onRx_keeps _ _ _ _ (fun a ha => ?_) ?_)
    | split

theorem execSurveyReturn_keeps (s : State) (t : State) (h : execSurveyReturn s = .next t) : Keeps s (view t) := by
  unfold execSurveyReturn at h
  refine onLink_keeps _ _ _ (fun a ha => ?_) h
  try dsimp only
  repeat' first
    | with_reducible assumption
    | (simp [*, parts]; done)
    | (simp +contextual [*, parts]; done)
    | (with_reducible refine forEach_keeps _ _ _ _ (fun a x ha => ?_) ?_)
    | (with_reducible refine foldl_keeps _ _ _ _ (fun a x ha => ?_) ?_)
    | (with_reducible refine whenDo_keeps _ _ _ _ (fun a ha => ?_) ?_)
    | (with_reducible refine onRx_keeps _ _ _ _ (fun a ha => ?_) ?_)
    | split

theorem execSurveyKeep_keeps (s : State) (t : State) (h : execSurveyKeep s = .next t) : Keeps s (view t) := by
  unfold execSurveyKeep at h
  refine onLink_keeps _ _ _ (fun a ha => ?_) h
  try dsimp only
  repeat' first
    | with_reducible assumption
    | (simp [*, parts]; done)
    | (simp +contextual [*, parts]; done)
    | (with_reducible refine forEach_keeps _ _ _ _ (fun a x ha => ?_) ?_)
    | (with_reducible refine foldl_keeps _ _ _ _ (fun a x ha => ?_) ?_)
    | (with_reducible refine whenDo_keeps _ _ _ _ (fun a ha => ?_) ?_)
    | (with_reducible refine onRx_keeps _ _ _ _ (fun a ha => ?_) ?_)
    | split

theorem execKeepTimer_keeps (s : State) (t : State) (h : execKeepTimer s = .next t) : Keeps s (view t) := by
  unfold execKeepTimer at h
  refine onLink_keeps _ _ _ (fun a ha => ?_) h
  try dsimp only
  repeat' first
    | with_reducible assumption
    | (simp [*, parts]; done)
    | (simp +contextual [*, parts]; done)
    | (with_reducible refine forEach_keeps _ _ _ _ (fun a x ha => ?_) ?_)
    | (with_reducible refine foldl_keeps _ _ _ _ (fun a x ha => ?_) ?_)
    | (with_reducible refine whenDo_keeps _ _ _ _ (fun a ha => ?_) ?_)
    | (with_reducible refine onRx_keeps _ _ _ _ (fun a ha => ?_) ?_)
    | split

theorem execStrokeBoundary_keeps (s : State) (t : State) (h : execStrokeBoundary s = .next t) : Keeps s (view t) := by
  unfold execStrokeBoundary at h
  refine onLink_keeps _ _ _ (fun a ha => ?_) h
  try dsimp only
  repeat' first
    | with_reducible assumption
    | (simp [*, parts]; done)
    | (simp +contextual [*, parts]; done)
    | (with_reducible refine forEach_keeps _ _ _ _ (fun a x ha => ?_) ?_)
    | (with_reducible refine foldl_keeps _ _ _ _ (fun a x ha => ?_) ?_)
    | (with_reducible refine whenDo_keeps _ _ _ _ (fun a ha => ?_) ?_)
    | (with_reducible refine onRx_keeps _ _ _ _ (fun a ha => ?_) ?_)
    | split

theorem execBeaconMissed_keeps (s : State) (t : State) (h : execBeaconMissed s = .next t) : Keeps s (view t) := by
  unfold execBeaconMissed at h
  refine onLink_keeps _ _ _ (fun a ha => ?_) h
  try dsimp only
  repeat' first
    | with_reducible assumption
    | (simp [*, parts]; done)
    | (simp +contextual [*, parts]; done)
    | (with_reducible refine forEach_keeps _ _ _ _ (fun a x ha => ?_) ?_)
    | (with_reducible refine foldl_keeps _ _ _ _ (fun a x ha => ?_) ?_)
    | (with_reducible refine whenDo_keeps _ _ _ _ (fun a ha => ?_) ?_)
    | (with_reducible refine onRx_keeps _ _ _ _ (fun a ha => ?_) ?_)
    | split

theorem execStkBeaconRx_keeps (ws : List Word) (chk : Word) (whole : Bool) (s : State) (t : State) (h : execStkBeaconRx ws chk whole s = .next t) : Keeps s (view t) := by
  unfold execStkBeaconRx at h
  refine onLink_keeps _ _ _ (fun a ha => ?_) h
  try dsimp only
  repeat' first
    | with_reducible assumption
    | (simp [*, parts]; done)
    | (simp +contextual [*, parts]; done)
    | (with_reducible refine forEach_keeps _ _ _ _ (fun a x ha => ?_) ?_)
    | (with_reducible refine foldl_keeps _ _ _ _ (fun a x ha => ?_) ?_)
    | (with_reducible refine whenDo_keeps _ _ _ _ (fun a ha => ?_) ?_)
    | (with_reducible refine onRx_keeps _ _ _ _ (fun a ha => ?_) ?_)
    | split

theorem execSlewTick_keeps (s : State) (t : State) (h : execSlewTick s = .next t) : Keeps s (view t) := by
  unfold execSlewTick at h
  refine onLink_keeps _ _ _ (fun a ha => ?_) h
  try dsimp only
  repeat' first
    | with_reducible assumption
    | (simp [*, parts]; done)
    | (simp +contextual [*, parts]; done)
    | (with_reducible refine forEach_keeps _ _ _ _ (fun a x ha => ?_) ?_)
    | (with_reducible refine foldl_keeps _ _ _ _ (fun a x ha => ?_) ?_)
    | (with_reducible refine whenDo_keeps _ _ _ _ (fun a ha => ?_) ?_)
    | (with_reducible refine onRx_keeps _ _ _ _ (fun a ha => ?_) ?_)
    | split

theorem execHoldoverExpiry_keeps (s : State) (t : State) (h : execHoldoverExpiry s = .next t) : Keeps s (view t) := by
  unfold execHoldoverExpiry at h
  refine onLink_keeps _ _ _ (fun a ha => ?_) h
  try dsimp only
  repeat' first
    | with_reducible assumption
    | (simp [*, parts]; done)
    | (simp +contextual [*, parts]; done)
    | (with_reducible refine forEach_keeps _ _ _ _ (fun a x ha => ?_) ?_)
    | (with_reducible refine foldl_keeps _ _ _ _ (fun a x ha => ?_) ?_)
    | (with_reducible refine whenDo_keeps _ _ _ _ (fun a ha => ?_) ?_)
    | (with_reducible refine onRx_keeps _ _ _ _ (fun a ha => ?_) ?_)
    | split

theorem execCatch_keeps (crews : BitVec 8) (s : State) (t : State) (h : execCatch crews s = .next t) : Keeps s (view t) := by
  unfold execCatch at h
  refine onLink_keeps _ _ _ (fun a ha => ?_) h
  try dsimp only
  repeat' first
    | with_reducible assumption
    | (simp [*, parts]; done)
    | (simp +contextual [*, parts]; done)
    | (with_reducible refine forEach_keeps _ _ _ _ (fun a x ha => ?_) ?_)
    | (with_reducible refine foldl_keeps _ _ _ _ (fun a x ha => ?_) ?_)
    | (with_reducible refine whenDo_keeps _ _ _ _ (fun a ha => ?_) ?_)
    | (with_reducible refine onRx_keeps _ _ _ _ (fun a ha => ?_) ?_)
    | split

theorem execCatchPinEnd_keeps (i : Fin 4) (s : State) (t : State) (h : execCatchPinEnd i s = .next t) : Keeps s (view t) := by
  unfold execCatchPinEnd at h
  refine onLink_keeps _ _ _ (fun a ha => ?_) h
  try dsimp only
  repeat' first
    | with_reducible assumption
    | (simp [*, parts]; done)
    | (simp +contextual [*, parts]; done)
    | (with_reducible refine forEach_keeps _ _ _ _ (fun a x ha => ?_) ?_)
    | (with_reducible refine foldl_keeps _ _ _ _ (fun a x ha => ?_) ?_)
    | (with_reducible refine whenDo_keeps _ _ _ _ (fun a ha => ?_) ?_)
    | (with_reducible refine onRx_keeps _ _ _ _ (fun a ha => ?_) ?_)
    | split

theorem execStrokeOutEnd_keeps (s : State) (t : State) (h : execStrokeOutEnd s = .next t) : Keeps s (view t) := by
  unfold execStrokeOutEnd at h
  refine onLink_keeps _ _ _ (fun a ha => ?_) h
  try dsimp only
  repeat' first
    | with_reducible assumption
    | (simp [*, parts]; done)
    | (simp +contextual [*, parts]; done)
    | (with_reducible refine forEach_keeps _ _ _ _ (fun a x ha => ?_) ?_)
    | (with_reducible refine foldl_keeps _ _ _ _ (fun a x ha => ?_) ?_)
    | (with_reducible refine whenDo_keeps _ _ _ _ (fun a ha => ?_) ?_)
    | (with_reducible refine onRx_keeps _ _ _ _ (fun a ha => ?_) ?_)
    | split

theorem execNop_keeps (d : DomN) (s : State) (t : State) (h : execNop d s = .next t) : Keeps s (view t) := by
  unfold execNop at h
  refine onLink_keeps _ _ _ (fun a ha => ?_) h
  try dsimp only
  repeat' first
    | with_reducible assumption
    | (simp [*, parts]; done)
    | (simp +contextual [*, parts]; done)
    | (with_reducible refine forEach_keeps _ _ _ _ (fun a x ha => ?_) ?_)
    | (with_reducible refine foldl_keeps _ _ _ _ (fun a x ha => ?_) ?_)
    | (with_reducible refine whenDo_keeps _ _ _ _ (fun a ha => ?_) ?_)
    | (with_reducible refine onRx_keeps _ _ _ _ (fun a ha => ?_) ?_)
    | split

theorem execRingSet_keeps (d : DomN) (s : State) (t : State) (h : execRingSet d s = .next t) : Keeps s (view t) := by
  unfold execRingSet at h
  refine onLink_keeps _ _ _ (fun a ha => ?_) h
  try dsimp only
  repeat' first
    | with_reducible assumption
    | (simp [*, parts]; done)
    | (simp +contextual [*, parts]; done)
    | (with_reducible refine forEach_keeps _ _ _ _ (fun a x ha => ?_) ?_)
    | (with_reducible refine foldl_keeps _ _ _ _ (fun a x ha => ?_) ?_)
    | (with_reducible refine whenDo_keeps _ _ _ _ (fun a ha => ?_) ?_)
    | (with_reducible refine onRx_keeps _ _ _ _ (fun a ha => ?_) ?_)
    | split

theorem execRingStop_keeps (d : DomN) (s : State) (t : State) (h : execRingStop d s = .next t) : Keeps s (view t) := by
  unfold execRingStop at h
  refine onLink_keeps _ _ _ (fun a ha => ?_) h
  try dsimp only
  repeat' first
    | with_reducible assumption
    | (simp [*, parts]; done)
    | (simp +contextual [*, parts]; done)
    | (with_reducible refine forEach_keeps _ _ _ _ (fun a x ha => ?_) ?_)
    | (with_reducible refine foldl_keeps _ _ _ _ (fun a x ha => ?_) ?_)
    | (with_reducible refine whenDo_keeps _ _ _ _ (fun a ha => ?_) ?_)
    | (with_reducible refine onRx_keeps _ _ _ _ (fun a ha => ?_) ?_)
    | split

theorem execEpHalt_keeps (d : DomN) (s : State) (t : State) (h : execEpHalt d s = .next t) : Keeps s (view t) := by
  unfold execEpHalt at h
  refine onLink_keeps _ _ _ (fun a ha => ?_) h
  try dsimp only
  repeat' first
    | with_reducible assumption
    | (simp [*, parts]; done)
    | (simp +contextual [*, parts]; done)
    | (with_reducible refine forEach_keeps _ _ _ _ (fun a x ha => ?_) ?_)
    | (with_reducible refine foldl_keeps _ _ _ _ (fun a x ha => ?_) ?_)
    | (with_reducible refine whenDo_keeps _ _ _ _ (fun a ha => ?_) ?_)
    | (with_reducible refine onRx_keeps _ _ _ _ (fun a ha => ?_) ?_)
    | split

theorem execPortPower_keeps (d : DomN) (s : State) (t : State) (h : execPortPower d s = .next t) : Keeps s (view t) := by
  unfold execPortPower at h
  refine onLink_keeps _ _ _ (fun a ha => ?_) h
  try dsimp only
  repeat' first
    | with_reducible assumption
    | (simp [*, parts]; done)
    | (simp +contextual [*, parts]; done)
    | (with_reducible refine forEach_keeps _ _ _ _ (fun a x ha => ?_) ?_)
    | (with_reducible refine foldl_keeps _ _ _ _ (fun a x ha => ?_) ?_)
    | (with_reducible refine whenDo_keeps _ _ _ _ (fun a ha => ?_) ?_)
    | (with_reducible refine onRx_keeps _ _ _ _ (fun a ha => ?_) ?_)
    | split

theorem execCmdSetBudget_keeps (d : DomN) (s : State) (t : State) (h : execCmdSetBudget d s = .next t) : Keeps s (view t) := by
  unfold execCmdSetBudget at h
  refine onLink_keeps _ _ _ (fun a ha => ?_) h
  try dsimp only
  repeat' first
    | with_reducible assumption
    | (simp [*, parts]; done)
    | (simp +contextual [*, parts]; done)
    | (with_reducible refine forEach_keeps _ _ _ _ (fun a x ha => ?_) ?_)
    | (with_reducible refine foldl_keeps _ _ _ _ (fun a x ha => ?_) ?_)
    | (with_reducible refine whenDo_keeps _ _ _ _ (fun a ha => ?_) ?_)
    | (with_reducible refine onRx_keeps _ _ _ _ (fun a ha => ?_) ?_)
    | split

theorem execPpsLimit_keeps (d : DomN) (s : State) (t : State) (h : execPpsLimit d s = .next t) : Keeps s (view t) := by
  unfold execPpsLimit at h
  refine onLink_keeps _ _ _ (fun a ha => ?_) h
  try dsimp only
  repeat' first
    | with_reducible assumption
    | (simp [*, parts]; done)
    | (simp +contextual [*, parts]; done)
    | (with_reducible refine forEach_keeps _ _ _ _ (fun a x ha => ?_) ?_)
    | (with_reducible refine foldl_keeps _ _ _ _ (fun a x ha => ?_) ?_)
    | (with_reducible refine whenDo_keeps _ _ _ _ (fun a ha => ?_) ?_)
    | (with_reducible refine onRx_keeps _ _ _ _ (fun a ha => ?_) ?_)
    | split

theorem execMeterSnap_keeps (d : DomN) (s : State) (t : State) (h : execMeterSnap d s = .next t) : Keeps s (view t) := by
  unfold execMeterSnap at h
  refine onLink_keeps _ _ _ (fun a ha => ?_) h
  try dsimp only
  repeat' first
    | with_reducible assumption
    | (simp [*, parts]; done)
    | (simp +contextual [*, parts]; done)
    | (with_reducible refine forEach_keeps _ _ _ _ (fun a x ha => ?_) ?_)
    | (with_reducible refine foldl_keeps _ _ _ _ (fun a x ha => ?_) ?_)
    | (with_reducible refine whenDo_keeps _ _ _ _ (fun a ha => ?_) ?_)
    | (with_reducible refine onRx_keeps _ _ _ _ (fun a ha => ?_) ?_)
    | split

theorem execMeterRead_keeps (d : DomN) (s : State) (t : State) (h : execMeterRead d s = .next t) : Keeps s (view t) := by
  unfold execMeterRead at h
  refine onLink_keeps _ _ _ (fun a ha => ?_) h
  try dsimp only
  repeat' first
    | with_reducible assumption
    | (simp [*, parts]; done)
    | (simp +contextual [*, parts]; done)
    | (with_reducible refine forEach_keeps _ _ _ _ (fun a x ha => ?_) ?_)
    | (with_reducible refine foldl_keeps _ _ _ _ (fun a x ha => ?_) ?_)
    | (with_reducible refine whenDo_keeps _ _ _ _ (fun a ha => ?_) ?_)
    | (with_reducible refine onRx_keeps _ _ _ _ (fun a ha => ?_) ?_)
    | split

theorem execCrewSet_keeps (d : DomN) (s : State) (t : State) (h : execCrewSet d s = .next t) : Keeps s (view t) := by
  unfold execCrewSet at h
  refine onLink_keeps _ _ _ (fun a ha => ?_) h
  try dsimp only
  repeat' first
    | with_reducible assumption
    | (simp [*, parts]; done)
    | (simp +contextual [*, parts]; done)
    | (with_reducible refine forEach_keeps _ _ _ _ (fun a x ha => ?_) ?_)
    | (with_reducible refine foldl_keeps _ _ _ _ (fun a x ha => ?_) ?_)
    | (with_reducible refine whenDo_keeps _ _ _ _ (fun a ha => ?_) ?_)
    | (with_reducible refine onRx_keeps _ _ _ _ (fun a ha => ?_) ?_)
    | split

theorem execCatchPin_keeps (d : DomN) (s : State) (t : State) (h : execCatchPin d s = .next t) : Keeps s (view t) := by
  unfold execCatchPin at h
  refine onLink_keeps _ _ _ (fun a ha => ?_) h
  try dsimp only
  repeat' first
    | with_reducible assumption
    | (simp [*, parts]; done)
    | (simp +contextual [*, parts]; done)
    | (with_reducible refine forEach_keeps _ _ _ _ (fun a x ha => ?_) ?_)
    | (with_reducible refine foldl_keeps _ _ _ _ (fun a x ha => ?_) ?_)
    | (with_reducible refine whenDo_keeps _ _ _ _ (fun a ha => ?_) ?_)
    | (with_reducible refine onRx_keeps _ _ _ _ (fun a ha => ?_) ?_)
    | split

theorem execLogRead_keeps (d : DomN) (s : State) (t : State) (h : execLogRead d s = .next t) : Keeps s (view t) := by
  unfold execLogRead at h
  refine onLink_keeps _ _ _ (fun a ha => ?_) h
  try dsimp only
  repeat' first
    | with_reducible assumption
    | (simp [*, parts]; done)
    | (simp +contextual [*, parts]; done)
    | (with_reducible refine forEach_keeps _ _ _ _ (fun a x ha => ?_) ?_)
    | (with_reducible refine foldl_keeps _ _ _ _ (fun a x ha => ?_) ?_)
    | (with_reducible refine whenDo_keeps _ _ _ _ (fun a ha => ?_) ?_)
    | (with_reducible refine onRx_keeps _ _ _ _ (fun a ha => ?_) ?_)
    | split

theorem execPortStatus_keeps (d : DomN) (s : State) (t : State) (h : execPortStatus d s = .next t) : Keeps s (view t) := by
  unfold execPortStatus at h
  refine onLink_keeps _ _ _ (fun a ha => ?_) h
  try dsimp only
  repeat' first
    | with_reducible assumption
    | (simp [*, parts]; done)
    | (simp +contextual [*, parts]; done)
    | (with_reducible refine forEach_keeps _ _ _ _ (fun a x ha => ?_) ?_)
    | (with_reducible refine foldl_keeps _ _ _ _ (fun a x ha => ?_) ?_)
    | (with_reducible refine whenDo_keeps _ _ _ _ (fun a ha => ?_) ?_)
    | (with_reducible refine onRx_keeps _ _ _ _ (fun a ha => ?_) ?_)
    | split

theorem execNodeInfo_keeps (d : DomN) (s : State) (t : State) (h : execNodeInfo d s = .next t) : Keeps s (view t) := by
  unfold execNodeInfo at h
  refine onLink_keeps _ _ _ (fun a ha => ?_) h
  try dsimp only
  repeat' first
    | with_reducible assumption
    | (simp [*, parts]; done)
    | (simp +contextual [*, parts]; done)
    | (with_reducible refine forEach_keeps _ _ _ _ (fun a x ha => ?_) ?_)
    | (with_reducible refine foldl_keeps _ _ _ _ (fun a x ha => ?_) ?_)
    | (with_reducible refine whenDo_keeps _ _ _ _ (fun a ha => ?_) ?_)
    | (with_reducible refine onRx_keeps _ _ _ _ (fun a ha => ?_) ?_)
    | split

theorem execCommandDataDone_keeps (d : DomN) (s : State) (t : State) (h : execCommandDataDone d s = .next t) : Keeps s (view t) := by
  unfold execCommandDataDone at h
  refine onLink_keeps _ _ _ (fun a ha => ?_) h
  try dsimp only
  repeat' first
    | with_reducible assumption
    | (simp [*, parts]; done)
    | (simp +contextual [*, parts]; done)
    | (with_reducible refine forEach_keeps _ _ _ _ (fun a x ha => ?_) ?_)
    | (with_reducible refine foldl_keeps _ _ _ _ (fun a x ha => ?_) ?_)
    | (with_reducible refine whenDo_keeps _ _ _ _ (fun a ha => ?_) ?_)
    | (with_reducible refine onRx_keeps _ _ _ _ (fun a ha => ?_) ?_)
    | split

theorem execEventWrite_keeps (d : DomN) (s : State) (t : State) (h : execEventWrite d s = .next t) : Keeps s (view t) := by
  unfold execEventWrite at h
  refine onLink_keeps _ _ _ (fun a ha => ?_) h
  try dsimp only
  repeat' first
    | with_reducible assumption
    | (simp [*, parts]; done)
    | (simp +contextual [*, parts]; done)
    | (with_reducible refine forEach_keeps _ _ _ _ (fun a x ha => ?_) ?_)
    | (with_reducible refine foldl_keeps _ _ _ _ (fun a x ha => ?_) ?_)
    | (with_reducible refine whenDo_keeps _ _ _ _ (fun a ha => ?_) ?_)
    | (with_reducible refine onRx_keeps _ _ _ _ (fun a ha => ?_) ?_)
    | split

theorem execUnexpectedCompletion_keeps (s : State) (t : State) (h : execUnexpectedCompletion s = .next t) : Keeps s (view t) := by
  unfold execUnexpectedCompletion at h
  refine onLink_keeps _ _ _ (fun a ha => ?_) h
  try dsimp only
  repeat' first
    | with_reducible assumption
    | (simp [*, parts]; done)
    | (simp +contextual [*, parts]; done)
    | (with_reducible refine forEach_keeps _ _ _ _ (fun a x ha => ?_) ?_)
    | (with_reducible refine foldl_keeps _ _ _ _ (fun a x ha => ?_) ?_)
    | (with_reducible refine whenDo_keeps _ _ _ _ (fun a ha => ?_) ?_)
    | (with_reducible refine onRx_keeps _ _ _ _ (fun a ha => ?_) ?_)
    | split

theorem execMemRequestRefused_keeps (d : DomN) (kind : BadRequest) (s : State) (t : State) (h : execMemRequestRefused d kind s = .next t) : Keeps s (view t) := by
  unfold execMemRequestRefused at h
  refine onLink_keeps _ _ _ (fun a ha => ?_) h
  try dsimp only
  repeat' first
    | with_reducible assumption
    | (simp [*, parts]; done)
    | (simp +contextual [*, parts]; done)
    | (with_reducible refine forEach_keeps _ _ _ _ (fun a x ha => ?_) ?_)
    | (with_reducible refine foldl_keeps _ _ _ _ (fun a x ha => ?_) ?_)
    | (with_reducible refine whenDo_keeps _ _ _ _ (fun a ha => ?_) ?_)
    | (with_reducible refine onRx_keeps _ _ _ _ (fun a ha => ?_) ?_)
    | split

theorem execL1Entry_keeps (s : State) (t : State) (h : execL1Entry s = .next t) : Keeps s (view t) := by
  unfold execL1Entry at h
  refine onLink_keeps _ _ _ (fun a ha => ?_) h
  try dsimp only
  repeat' first
    | with_reducible assumption
    | (simp [*, parts]; done)
    | (simp +contextual [*, parts]; done)
    | (with_reducible refine forEach_keeps _ _ _ _ (fun a x ha => ?_) ?_)
    | (with_reducible refine foldl_keeps _ _ _ _ (fun a x ha => ?_) ?_)
    | (with_reducible refine whenDo_keeps _ _ _ _ (fun a ha => ?_) ?_)
    | (with_reducible refine onRx_keeps _ _ _ _ (fun a ha => ?_) ?_)
    | split

theorem execL1Exit_keeps (s : State) (t : State) (h : execL1Exit s = .next t) : Keeps s (view t) := by
  unfold execL1Exit at h
  refine onLink_keeps _ _ _ (fun a ha => ?_) h
  try dsimp only
  repeat' first
    | with_reducible assumption
    | (simp [*, parts]; done)
    | (simp +contextual [*, parts]; done)
    | (with_reducible refine forEach_keeps _ _ _ _ (fun a x ha => ?_) ?_)
    | (with_reducible refine foldl_keeps _ _ _ _ (fun a x ha => ?_) ?_)
    | (with_reducible refine whenDo_keeps _ _ _ _ (fun a ha => ?_) ?_)
    | (with_reducible refine onRx_keeps _ _ _ _ (fun a ha => ?_) ?_)
    | split

theorem execPcieL0Reached_keeps (s : State) (t : State) (h : execPcieL0Reached s = .next t) : Keeps s (view t) := by
  unfold execPcieL0Reached at h
  refine onLink_keeps _ _ _ (fun a ha => ?_) h
  try dsimp only
  repeat' first
    | with_reducible assumption
    | (simp [*, parts]; done)
    | (simp +contextual [*, parts]; done)
    | (with_reducible refine forEach_keeps _ _ _ _ (fun a x ha => ?_) ?_)
    | (with_reducible refine foldl_keeps _ _ _ _ (fun a x ha => ?_) ?_)
    | (with_reducible refine whenDo_keeps _ _ _ _ (fun a ha => ?_) ?_)
    | (with_reducible refine onRx_keeps _ _ _ _ (fun a ha => ?_) ?_)
    | split

theorem execPerstAssert_keeps (s : State) (t : State) (h : execPerstAssert s = .next t) : Keeps s (view t) := by
  unfold execPerstAssert at h
  refine next_keeps _ _ _ (fun ha => ?_) h
  try dsimp only
  repeat' first
    | with_reducible assumption
    | (simp [*, parts]; done)
    | (simp +contextual [*, parts]; done)
    | (with_reducible refine forEach_keeps _ _ _ _ (fun a x ha => ?_) ?_)
    | (with_reducible refine foldl_keeps _ _ _ _ (fun a x ha => ?_) ?_)
    | (with_reducible refine whenDo_keeps _ _ _ _ (fun a ha => ?_) ?_)
    | split

theorem execPcieConfigReady_keeps (s : State) (t : State) (h : execPcieConfigReady s = .next t) : Keeps s (view t) := by
  unfold execPcieConfigReady at h
  refine onLink_keeps _ _ _ (fun a ha => ?_) h
  try dsimp only
  repeat' first
    | with_reducible assumption
    | (simp [*, parts]; done)
    | (simp +contextual [*, parts]; done)
    | (with_reducible refine forEach_keeps _ _ _ _ (fun a x ha => ?_) ?_)
    | (with_reducible refine foldl_keeps _ _ _ _ (fun a x ha => ?_) ?_)
    | (with_reducible refine whenDo_keeps _ _ _ _ (fun a ha => ?_) ?_)
    | (with_reducible refine onRx_keeps _ _ _ _ (fun a ha => ?_) ?_)
    | split

theorem execHotReset_keeps (dlDown : Bool) (s : State) (t : State) (h : execHotReset dlDown s = .next t) : Keeps s (view t) := by
  unfold execHotReset at h
  refine onLink_keeps _ _ _ (fun a ha => ?_) h
  try dsimp only
  repeat' first
    | with_reducible assumption
    | (simp [*, parts]; done)
    | (simp +contextual [*, parts]; done)
    | (with_reducible refine forEach_keeps _ _ _ _ (fun a x ha => ?_) ?_)
    | (with_reducible refine foldl_keeps _ _ _ _ (fun a x ha => ?_) ?_)
    | (with_reducible refine whenDo_keeps _ _ _ _ (fun a ha => ?_) ?_)
    | (with_reducible refine onRx_keeps _ _ _ _ (fun a ha => ?_) ?_)
    | split

theorem execFlrPf_keeps (s : State) (t : State) (h : execFlrPf s = .next t) : Keeps s (view t) := by
  unfold execFlrPf at h
  refine onLink_keeps _ _ _ (fun a ha => ?_) h
  try dsimp only
  repeat' first
    | with_reducible assumption
    | (simp [*, parts]; done)
    | (simp +contextual [*, parts]; done)
    | (with_reducible refine forEach_keeps _ _ _ _ (fun a x ha => ?_) ?_)
    | (with_reducible refine foldl_keeps _ _ _ _ (fun a x ha => ?_) ?_)
    | (with_reducible refine whenDo_keeps _ _ _ _ (fun a ha => ?_) ?_)
    | (with_reducible refine onRx_keeps _ _ _ _ (fun a ha => ?_) ?_)
    | (with_reducible refine resumeAside_keeps _ _ _ (fun a ha => ?_) ?_)
    | split

theorem execFlrVf_keeps (v : VfN) (s : State) (t : State) (h : execFlrVf v s = .next t) : Keeps s (view t) := by
  unfold execFlrVf at h
  refine onLink_keeps _ _ _ (fun a ha => ?_) h
  try dsimp only
  repeat' first
    | with_reducible assumption
    | (simp [*, parts]; done)
    | (simp +contextual [*, parts]; done)
    | (with_reducible refine forEach_keeps _ _ _ _ (fun a x ha => ?_) ?_)
    | (with_reducible refine foldl_keeps _ _ _ _ (fun a x ha => ?_) ?_)
    | (with_reducible refine whenDo_keeps _ _ _ _ (fun a ha => ?_) ?_)
    | (with_reducible refine onRx_keeps _ _ _ _ (fun a ha => ?_) ?_)
    | split

theorem execVfEnable_keeps (s : State) (t : State) (h : execVfEnable s = .next t) : Keeps s (view t) := by
  unfold execVfEnable at h
  refine onLink_keeps _ _ _ (fun a ha => ?_) h
  try dsimp only
  repeat' first
    | with_reducible assumption
    | (simp [*, parts]; done)
    | (simp +contextual [*, parts]; done)
    | (with_reducible refine forEach_keeps _ _ _ _ (fun a x ha => ?_) ?_)
    | (with_reducible refine foldl_keeps _ _ _ _ (fun a x ha => ?_) ?_)
    | (with_reducible refine whenDo_keeps _ _ _ _ (fun a ha => ?_) ?_)
    | (with_reducible refine onRx_keeps _ _ _ _ (fun a ha => ?_) ?_)
    | split

theorem execVfDisable_keeps (s : State) (t : State) (h : execVfDisable s = .next t) : Keeps s (view t) := by
  unfold execVfDisable at h
  refine onLink_keeps _ _ _ (fun a ha => ?_) h
  try dsimp only
  repeat' first
    | with_reducible assumption
    | (simp [*, parts]; done)
    | (simp +contextual [*, parts]; done)
    | (with_reducible refine forEach_keeps _ _ _ _ (fun a x ha => ?_) ?_)
    | (with_reducible refine foldl_keeps _ _ _ _ (fun a x ha => ?_) ?_)
    | (with_reducible refine whenDo_keeps _ _ _ _ (fun a ha => ?_) ?_)
    | (with_reducible refine onRx_keeps _ _ _ _ (fun a ha => ?_) ?_)
    | split

theorem execNumvfsWrite_keeps (n : Nat) (s : State) (t : State) (h : execNumvfsWrite n s = .next t) : Keeps s (view t) := by
  unfold execNumvfsWrite at h
  refine onLink_keeps _ _ _ (fun a ha => ?_) h
  try dsimp only
  repeat' first
    | with_reducible assumption
    | (simp [*, parts]; done)
    | (simp +contextual [*, parts]; done)
    | (with_reducible refine forEach_keeps _ _ _ _ (fun a x ha => ?_) ?_)
    | (with_reducible refine foldl_keeps _ _ _ _ (fun a x ha => ?_) ?_)
    | (with_reducible refine whenDo_keeps _ _ _ _ (fun a ha => ?_) ?_)
    | (with_reducible refine onRx_keeps _ _ _ _ (fun a ha => ?_) ?_)
    | split

theorem execD3hotEntry_keeps (d : DomN) (s : State) (t : State) (h : execD3hotEntry d s = .next t) : Keeps s (view t) := by
  unfold execD3hotEntry at h
  refine onLink_keeps _ _ _ (fun a ha => ?_) h
  try dsimp only
  repeat' first
    | with_reducible assumption
    | (simp [*, parts]; done)
    | (simp +contextual [*, parts]; done)
    | (with_reducible refine forEach_keeps _ _ _ _ (fun a x ha => ?_) ?_)
    | (with_reducible refine foldl_keeps _ _ _ _ (fun a x ha => ?_) ?_)
    | (with_reducible refine whenDo_keeps _ _ _ _ (fun a ha => ?_) ?_)
    | (with_reducible refine onRx_keeps _ _ _ _ (fun a ha => ?_) ?_)
    | split

theorem execD0Return_keeps (d : DomN) (s : State) (t : State) (h : execD0Return d s = .next t) : Keeps s (view t) := by
  unfold execD0Return at h
  refine onLink_keeps _ _ _ (fun a ha => ?_) h
  try dsimp only
  repeat' first
    | with_reducible assumption
    | (simp [*, parts]; done)
    | (simp +contextual [*, parts]; done)
    | (with_reducible refine forEach_keeps _ _ _ _ (fun a x ha => ?_) ?_)
    | (with_reducible refine foldl_keeps _ _ _ _ (fun a x ha => ?_) ?_)
    | (with_reducible refine whenDo_keeps _ _ _ _ (fun a ha => ?_) ?_)
    | (with_reducible refine onRx_keeps _ _ _ _ (fun a ha => ?_) ?_)
    | split

theorem execPcieConfigWrite_keeps (d : DomN) (field : CfgField) (v : BitVec 64) (s : State) (t : State) (h : execPcieConfigWrite d field v s = .next t) : Keeps s (view t) := by
  unfold execPcieConfigWrite at h
  refine onLink_keeps _ _ _ (fun a ha => ?_) h
  try dsimp only
  repeat' first
    | with_reducible assumption
    | (simp [*, parts]; done)
    | (simp +contextual [*, parts]; done)
    | (with_reducible refine forEach_keeps _ _ _ _ (fun a x ha => ?_) ?_)
    | (with_reducible refine foldl_keeps _ _ _ _ (fun a x ha => ?_) ?_)
    | (with_reducible refine whenDo_keeps _ _ _ _ (fun a ha => ?_) ?_)
    | (with_reducible refine onRx_keeps _ _ _ _ (fun a ha => ?_) ?_)
    | split

theorem execDoorbellWatch_keeps (d : DomN) (s : State) (t : State) (h : execDoorbellWatch d s = .next t) : Keeps s (view t) := by
  unfold execDoorbellWatch at h
  refine onLink_keeps _ _ _ (fun a ha => ?_) h
  try dsimp only
  repeat' first
    | with_reducible assumption
    | (simp [*, parts]; done)
    | (simp +contextual [*, parts]; done)
    | (with_reducible refine forEach_keeps _ _ _ _ (fun a x ha => ?_) ?_)
    | (with_reducible refine foldl_keeps _ _ _ _ (fun a x ha => ?_) ?_)
    | (with_reducible refine whenDo_keeps _ _ _ _ (fun a ha => ?_) ?_)
    | (with_reducible refine onRx_keeps _ _ _ _ (fun a ha => ?_) ?_)
    | split

theorem execPrestrokeWatch_keeps (d : DomN) (s : State) (t : State) (h : execPrestrokeWatch d s = .next t) : Keeps s (view t) := by
  unfold execPrestrokeWatch at h
  refine onLink_keeps _ _ _ (fun a ha => ?_) h
  try dsimp only
  repeat' first
    | with_reducible assumption
    | (simp [*, parts]; done)
    | (simp +contextual [*, parts]; done)
    | (with_reducible refine forEach_keeps _ _ _ _ (fun a x ha => ?_) ?_)
    | (with_reducible refine foldl_keeps _ _ _ _ (fun a x ha => ?_) ?_)
    | (with_reducible refine whenDo_keeps _ _ _ _ (fun a ha => ?_) ?_)
    | (with_reducible refine onRx_keeps _ _ _ _ (fun a ha => ?_) ?_)
    | split

theorem execDoorbellRetry_keeps (d : DomN) (s : State) (t : State) (h : execDoorbellRetry d s = .next t) : Keeps s (view t) := by
  unfold execDoorbellRetry at h
  refine onLink_keeps _ _ _ (fun a ha => ?_) h
  try dsimp only
  repeat' first
    | with_reducible assumption
    | (simp [*, parts]; done)
    | (simp +contextual [*, parts]; done)
    | (with_reducible refine forEach_keeps _ _ _ _ (fun a x ha => ?_) ?_)
    | (with_reducible refine foldl_keeps _ _ _ _ (fun a x ha => ?_) ?_)
    | (with_reducible refine whenDo_keeps _ _ _ _ (fun a ha => ?_) ?_)
    | (with_reducible refine onRx_keeps _ _ _ _ (fun a ha => ?_) ?_)
    | split

theorem execDoorbellReadDone_keeps (d : DomN) (cmdPi : Word) (evtCi : Word) (pis : List Word) (s : State) (t : State) (h : execDoorbellReadDone d cmdPi evtCi pis s = .next t) : Keeps s (view t) := by
  unfold execDoorbellReadDone at h
  refine onLink_keeps _ _ _ (fun a ha => ?_) h
  try dsimp only
  repeat' first
    | with_reducible assumption
    | (simp [*, parts]; done)
    | (simp +contextual [*, parts]; done)
    | (with_reducible refine forEach_keeps _ _ _ _ (fun a x ha => ?_) ?_)
    | (with_reducible refine foldl_keeps _ _ _ _ (fun a x ha => ?_) ?_)
    | (with_reducible refine whenDo_keeps _ _ _ _ (fun a ha => ?_) ?_)
    | (with_reducible refine onRx_keeps _ _ _ _ (fun a ha => ?_) ?_)
    | split

theorem execCommandFetchDone_keeps (d : DomN) (cmds : List W8) (s : State) (t : State) (h : execCommandFetchDone d cmds s = .next t) : Keeps s (view t) := by
  unfold execCommandFetchDone at h
  refine onLink_keeps _ _ _ (fun a ha => ?_) h
  try dsimp only
  repeat' first
    | with_reducible assumption
    | (simp [*, parts]; done)
    | (simp +contextual [*, parts]; done)
    | (with_reducible refine forEach_keeps _ _ _ _ (fun a x ha => ?_) ?_)
    | (with_reducible refine foldl_keeps _ _ _ _ (fun a x ha => ?_) ?_)
    | (with_reducible refine whenDo_keeps _ _ _ _ (fun a ha => ?_) ?_)
    | (with_reducible refine onRx_keeps _ _ _ _ (fun a ha => ?_) ?_)
    | split

theorem execDescriptorFetchDone_keeps (d : DomN) (k : EpN) (descs : List W8) (s : State) (t : State) (h : execDescriptorFetchDone d k descs s = .next t) : Keeps s (view t) := by
  unfold execDescriptorFetchDone at h
  refine onLink_keeps _ _ _ (fun a ha => ?_) h
  try dsimp only
  repeat' first
    | with_reducible assumption
    | (simp [*, parts]; done)
    | (simp +contextual [*, parts]; done)
    | (with_reducible refine forEach_keeps _ _ _ _ (fun a x ha => ?_) ?_)
    | (with_reducible refine foldl_keeps _ _ _ _ (fun a x ha => ?_) ?_)
    | (with_reducible refine whenDo_keeps _ _ _ _ (fun a ha => ?_) ?_)
    | (with_reducible refine onRx_keeps _ _ _ _ (fun a ha => ?_) ?_)
    | split

theorem execSendDataFetchDone_keeps (d : DomN) (k : EpN) (data : List Nat) (s : State) (t : State) (h : execSendDataFetchDone d k data s = .next t) : Keeps s (view t) := by
  unfold execSendDataFetchDone at h
  refine onLink_keeps _ _ _ (fun a ha => ?_) h
  refine onRead_keeps _ _ _ _ _ (fun b x hb => ?_) ha
  exact sendDone_keeps _ _ _ _ _ hb

theorem execCompletionTimeout_keeps (d : DomN) (u : ReadUse) (s : State) (t : State) (h : execCompletionTimeout d u s = .next t) : Keeps s (view t) := by
  unfold execCompletionTimeout at h
  refine onLink_keeps _ _ _ (fun a ha => ?_) h
  try dsimp only
  repeat' first
    | with_reducible assumption
    | (simp [*, parts]; done)
    | (simp +contextual [*, parts]; done)
    | (with_reducible refine forEach_keeps _ _ _ _ (fun a x ha => ?_) ?_)
    | (with_reducible refine foldl_keeps _ _ _ _ (fun a x ha => ?_) ?_)
    | (with_reducible refine whenDo_keeps _ _ _ _ (fun a ha => ?_) ?_)
    | (with_reducible refine onRx_keeps _ _ _ _ (fun a ha => ?_) ?_)
    | split

theorem execHostReadFailed_keeps (d : DomN) (u : ReadUse) (kind : ReadFail) (s : State) (t : State) (h : execHostReadFailed d u kind s = .next t) : Keeps s (view t) := by
  unfold execHostReadFailed at h
  refine onLink_keeps _ _ _ (fun a ha => ?_) h
  try dsimp only
  repeat' first
    | with_reducible assumption
    | (simp [*, parts]; done)
    | (simp +contextual [*, parts]; done)
    | (with_reducible refine forEach_keeps _ _ _ _ (fun a x ha => ?_) ?_)
    | (with_reducible refine foldl_keeps _ _ _ _ (fun a x ha => ?_) ?_)
    | (with_reducible refine whenDo_keeps _ _ _ _ (fun a ha => ?_) ?_)
    | (with_reducible refine onRx_keeps _ _ _ _ (fun a ha => ?_) ?_)
    | split

theorem execEasyState_keeps (d : DomN) (s : State) (t : State) (h : execEasyState d s = .next t) : Keeps s (view t) := by
  unfold execEasyState at h
  refine onLink_keeps _ _ _ (fun a ha => ?_) h
  try dsimp only
  repeat' first
    | with_reducible assumption
    | (simp [*, parts]; done)
    | (simp +contextual [*, parts]; done)
    | (with_reducible refine forEach_keeps _ _ _ _ (fun a x ha => ?_) ?_)
    | (with_reducible refine foldl_keeps _ _ _ _ (fun a x ha => ?_) ?_)
    | (with_reducible refine whenDo_keeps _ _ _ _ (fun a ha => ?_) ?_)
    | (with_reducible refine onRx_keeps _ _ _ _ (fun a ha => ?_) ?_)
    | split

theorem execSummaryDone_keeps (d : DomN) (s : State) (t : State) (h : execSummaryDone d s = .next t) : Keeps s (view t) := by
  unfold execSummaryDone at h
  refine onLink_keeps _ _ _ (fun a ha => ?_) h
  try dsimp only
  repeat' first
    | with_reducible assumption
    | (simp [*, parts]; done)
    | (simp +contextual [*, parts]; done)
    | (with_reducible refine forEach_keeps _ _ _ _ (fun a x ha => ?_) ?_)
    | (with_reducible refine foldl_keeps _ _ _ _ (fun a x ha => ?_) ?_)
    | (with_reducible refine whenDo_keeps _ _ _ _ (fun a ha => ?_) ?_)
    | (with_reducible refine onRx_keeps _ _ _ _ (fun a ha => ?_) ?_)
    | split

theorem execHmaDecision_keeps (s : State) (t : State) (h : execHmaDecision s = .next t) : Keeps s (view t) := by
  unfold execHmaDecision at h
  refine onLink_keeps _ _ _ (fun a ha => ?_) h
  try dsimp only
  repeat' first
    | with_reducible assumption
    | (simp [*, parts]; done)
    | (simp +contextual [*, parts]; done)
    | (with_reducible refine forEach_keeps _ _ _ _ (fun a x ha => ?_) ?_)
    | (with_reducible refine foldl_keeps _ _ _ _ (fun a x ha => ?_) ?_)
    | (with_reducible refine whenDo_keeps _ _ _ _ (fun a ha => ?_) ?_)
    | (with_reducible refine onRx_keeps _ _ _ _ (fun a ha => ?_) ?_)
    | split

theorem execUlaDecision_keeps (s : State) (t : State) (h : execUlaDecision s = .next t) : Keeps s (view t) := by
  unfold execUlaDecision at h
  refine onLink_keeps _ _ _ (fun a ha => ?_) h
  try dsimp only
  repeat' first
    | with_reducible assumption
    | (simp [*, parts]; done)
    | (simp +contextual [*, parts]; done)
    | (with_reducible refine forEach_keeps _ _ _ _ (fun a x ha => ?_) ?_)
    | (with_reducible refine foldl_keeps _ _ _ _ (fun a x ha => ?_) ?_)
    | (with_reducible refine whenDo_keeps _ _ _ _ (fun a ha => ?_) ?_)
    | (with_reducible refine onRx_keeps _ _ _ _ (fun a ha => ?_) ?_)
    | split

theorem execUlaPreempt_keeps (sent : Nat) (s : State) (t : State) (h : execUlaPreempt sent s = .next t) : Keeps s (view t) := by
  unfold execUlaPreempt at h
  refine onLink_keeps _ _ _ (fun a ha => ?_) h
  try dsimp only
  repeat' first
    | with_reducible assumption
    | (simp [*, parts]; done)
    | (simp +contextual [*, parts]; done)
    | (with_reducible refine forEach_keeps _ _ _ _ (fun a x ha => ?_) ?_)
    | (with_reducible refine foldl_keeps _ _ _ _ (fun a x ha => ?_) ?_)
    | (with_reducible refine whenDo_keeps _ _ _ _ (fun a ha => ?_) ?_)
    | (with_reducible refine onRx_keeps _ _ _ _ (fun a ha => ?_) ?_)
    | split

theorem execUlaResume_keeps (s : State) (t : State) (h : execUlaResume s = .next t) : Keeps s (view t) := by
  unfold execUlaResume at h
  refine onLink_keeps _ _ _ (fun a ha => ?_) h
  try dsimp only
  repeat' first
    | with_reducible assumption
    | (simp [*, parts]; done)
    | (simp +contextual [*, parts]; done)
    | (with_reducible refine forEach_keeps _ _ _ _ (fun a x ha => ?_) ?_)
    | (with_reducible refine foldl_keeps _ _ _ _ (fun a x ha => ?_) ?_)
    | (with_reducible refine whenDo_keeps _ _ _ _ (fun a ha => ?_) ?_)
    | (with_reducible refine onRx_keeps _ _ _ _ (fun a ha => ?_) ?_)
    | split

theorem execHoldCutoff_keeps (arb : ArbName) (s : State) (t : State) (h : execHoldCutoff arb s = .next t) : Keeps s (view t) := by
  unfold execHoldCutoff at h
  refine onLink_keeps _ _ _ (fun a ha => ?_) h
  try dsimp only
  repeat' first
    | with_reducible assumption
    | (simp [*, parts]; done)
    | (simp +contextual [*, parts]; done)
    | (with_reducible refine forEach_keeps _ _ _ _ (fun a x ha => ?_) ?_)
    | (with_reducible refine foldl_keeps _ _ _ _ (fun a x ha => ?_) ?_)
    | (with_reducible refine whenDo_keeps _ _ _ _ (fun a ha => ?_) ?_)
    | (with_reducible refine onRx_keeps _ _ _ _ (fun a ha => ?_) ?_)
    | split

theorem execWdtTimeout_keeps (s : State) (t : State) (h : execWdtTimeout s = .next t) : Keeps s (view t) := by
  unfold execWdtTimeout at h
  refine onPower_keeps _ _ _ (fun a ha => ?_) h
  try dsimp only
  repeat' first
    | with_reducible assumption
    | (simp [*, parts]; done)
    | (simp +contextual [*, parts]; done)
    | (with_reducible refine forEach_keeps _ _ _ _ (fun a x ha => ?_) ?_)
    | (with_reducible refine foldl_keeps _ _ _ _ (fun a x ha => ?_) ?_)
    | (with_reducible refine whenDo_keeps _ _ _ _ (fun a ha => ?_) ?_)
    | split

theorem execEmergencyGrant_keeps (s : State) (t : State) (h : execEmergencyGrant s = .next t) : Keeps s (view t) := by
  unfold execEmergencyGrant at h
  refine onLink_keeps _ _ _ (fun a ha => ?_) h
  try dsimp only
  repeat' first
    | with_reducible assumption
    | (simp [*, parts]; done)
    | (simp +contextual [*, parts]; done)
    | (with_reducible refine forEach_keeps _ _ _ _ (fun a x ha => ?_) ?_)
    | (with_reducible refine foldl_keeps _ _ _ _ (fun a x ha => ?_) ?_)
    | (with_reducible refine whenDo_keeps _ _ _ _ (fun a ha => ?_) ?_)
    | (with_reducible refine onRx_keeps _ _ _ _ (fun a ha => ?_) ?_)
    | (with_reducible refine resumeAside_keeps _ _ _ (fun a ha => ?_) ?_)
    | split

theorem execWdtGraceEnd_keeps (s : State) (t : State) (h : execWdtGraceEnd s = .next t) : Keeps s (view t) := by
  unfold execWdtGraceEnd at h
  refine onPower_keeps _ _ _ (fun a ha => ?_) h
  try dsimp only
  repeat' first
    | with_reducible assumption
    | (simp [*, parts]; done)
    | (simp +contextual [*, parts]; done)
    | (with_reducible refine forEach_keeps _ _ _ _ (fun a x ha => ?_) ?_)
    | (with_reducible refine foldl_keeps _ _ _ _ (fun a x ha => ?_) ?_)
    | (with_reducible refine whenDo_keeps _ _ _ _ (fun a ha => ?_) ?_)
    | split

theorem execHostRstEnd_keeps (s : State) (t : State) (h : execHostRstEnd s = .next t) : Keeps s (view t) := by
  unfold execHostRstEnd at h
  refine onPower_keeps _ _ _ (fun a ha => ?_) h
  try dsimp only
  repeat' first
    | with_reducible assumption
    | (simp [*, parts]; done)
    | (simp +contextual [*, parts]; done)
    | (with_reducible refine forEach_keeps _ _ _ _ (fun a x ha => ?_) ?_)
    | (with_reducible refine foldl_keeps _ _ _ _ (fun a x ha => ?_) ?_)
    | (with_reducible refine whenDo_keeps _ _ _ _ (fun a ha => ?_) ?_)
    | split

theorem execResetNAssert_keeps (s : State) (t : State) (h : execResetNAssert s = .next t) : Keeps s (view t) := by
  unfold execResetNAssert at h
  refine next_keeps _ _ _ (fun ha => ?_) h
  try dsimp only
  repeat' first
    | with_reducible assumption
    | (simp [*, parts]; done)
    | (simp +contextual [*, parts]; done)
    | (with_reducible refine forEach_keeps _ _ _ _ (fun a x ha => ?_) ?_)
    | (with_reducible refine foldl_keeps _ _ _ _ (fun a x ha => ?_) ?_)
    | (with_reducible refine whenDo_keeps _ _ _ _ (fun a ha => ?_) ?_)
    | split

theorem execResetNRelease_keeps (straps : Word) (s : State) (t : State) (h : execResetNRelease straps s = .next t) : Keeps s (view t) := by
  unfold execResetNRelease at h
  refine next_keeps _ _ _ (fun ha => ?_) h
  try dsimp only
  repeat' first
    | with_reducible assumption
    | (simp [*, parts]; done)
    | (simp +contextual [*, parts]; done)
    | (with_reducible refine forEach_keeps _ _ _ _ (fun a x ha => ?_) ?_)
    | (with_reducible refine foldl_keeps _ _ _ _ (fun a x ha => ?_) ?_)
    | (with_reducible refine whenDo_keeps _ _ _ _ (fun a ha => ?_) ?_)
    | split

theorem execPorRelease_keeps (straps : Word) (s : State) (t : State) (h : execPorRelease straps s = .next t) : Keeps s (view t) := by
  unfold execPorRelease at h
  refine next_keeps _ _ _ (fun ha => ?_) h
  try dsimp only
  repeat' first
    | with_reducible assumption
    | (simp [*, parts]; done)
    | (simp +contextual [*, parts]; done)
    | (with_reducible refine forEach_keeps _ _ _ _ (fun a x ha => ?_) ?_)
    | (with_reducible refine foldl_keeps _ _ _ _ (fun a x ha => ?_) ?_)
    | (with_reducible refine whenDo_keeps _ _ _ _ (fun a ha => ?_) ?_)
    | split

theorem execAonBrownout_keeps (s : State) (t : State) (h : execAonBrownout s = .next t) : Keeps s (view t) := by
  unfold execAonBrownout at h
  refine onPower_keeps _ _ _ (fun a ha => ?_) h
  try dsimp only
  repeat' first
    | with_reducible assumption
    | (simp [*, parts]; done)
    | (simp +contextual [*, parts]; done)
    | (with_reducible refine forEach_keeps _ _ _ _ (fun a x ha => ?_) ?_)
    | (with_reducible refine foldl_keeps _ _ _ _ (fun a x ha => ?_) ?_)
    | (with_reducible refine whenDo_keeps _ _ _ _ (fun a ha => ?_) ?_)
    | split

theorem execBbEntry_keeps (s : State) (t : State) (h : execBbEntry s = .next t) : Keeps s (view t) := by
  unfold execBbEntry at h
  refine onLink_keeps _ _ _ (fun a ha => ?_) h
  try dsimp only
  repeat' first
    | with_reducible assumption
    | (simp [*, parts]; done)
    | (simp +contextual [*, parts]; done)
    | (with_reducible refine forEach_keeps _ _ _ _ (fun a x ha => ?_) ?_)
    | (with_reducible refine foldl_keeps _ _ _ _ (fun a x ha => ?_) ?_)
    | (with_reducible refine whenDo_keeps _ _ _ _ (fun a ha => ?_) ?_)
    | (with_reducible refine onRx_keeps _ _ _ _ (fun a ha => ?_) ?_)
    | split

theorem execBbFlashCopyDone_keeps (mgPath : Bool) (e : Option W8) (s : State) (t : State) (h : execBbFlashCopyDone mgPath e s = .next t) : Keeps s (view t) := by
  unfold execBbFlashCopyDone at h
  refine onLink_keeps _ _ _ (fun a ha => ?_) h
  try dsimp only
  repeat' first
    | with_reducible assumption
    | (simp [*, parts]; done)
    | (simp +contextual [*, parts]; done)
    | (with_reducible refine forEach_keeps _ _ _ _ (fun a x ha => ?_) ?_)
    | (with_reducible refine foldl_keeps _ _ _ _ (fun a x ha => ?_) ?_)
    | (with_reducible refine whenDo_keeps _ _ _ _ (fun a ha => ?_) ?_)
    | (with_reducible refine onRx_keeps _ _ _ _ (fun a ha => ?_) ?_)
    | split

theorem execLgScan_keeps (s : State) (t : State) (h : execLgScan s = .next t) : Keeps s (view t) := by
  unfold execLgScan at h
  refine onLink_keeps _ _ _ (fun a ha => ?_) h
  try dsimp only
  repeat' first
    | with_reducible assumption
    | (simp [*, parts]; done)
    | (simp +contextual [*, parts]; done)
    | (with_reducible refine forEach_keeps _ _ _ _ (fun a x ha => ?_) ?_)
    | (with_reducible refine foldl_keeps _ _ _ _ (fun a x ha => ?_) ?_)
    | (with_reducible refine whenDo_keeps _ _ _ _ (fun a ha => ?_) ?_)
    | (with_reducible refine onRx_keeps _ _ _ _ (fun a ha => ?_) ?_)
    | split

theorem execLgScanDone_keeps (slot : Option Nat) (s : State) (t : State) (h : execLgScanDone slot s = .next t) : Keeps s (view t) := by
  unfold execLgScanDone at h
  refine onLink_keeps _ _ _ (fun a ha => ?_) h
  try dsimp only
  repeat' first
    | with_reducible assumption
    | (simp [*, parts]; done)
    | (simp +contextual [*, parts]; done)
    | (with_reducible refine forEach_keeps _ _ _ _ (fun a x ha => ?_) ?_)
    | (with_reducible refine foldl_keeps _ _ _ _ (fun a x ha => ?_) ?_)
    | (with_reducible refine whenDo_keeps _ _ _ _ (fun a ha => ?_) ?_)
    | (with_reducible refine onRx_keeps _ _ _ _ (fun a ha => ?_) ?_)
    | split

theorem execSupplyFail_keeps (s : State) (t : State) (h : execSupplyFail s = .next t) : Keeps s (view t) := by
  unfold execSupplyFail at h
  refine onPower_keeps _ _ _ (fun a ha => ?_) h
  try dsimp only
  repeat' first
    | with_reducible assumption
    | (simp [*, parts]; done)
    | (simp +contextual [*, parts]; done)
    | (with_reducible refine forEach_keeps _ _ _ _ (fun a x ha => ?_) ?_)
    | (with_reducible refine foldl_keeps _ _ _ _ (fun a x ha => ?_) ?_)
    | (with_reducible refine whenDo_keeps _ _ _ _ (fun a ha => ?_) ?_)
    | split

theorem execFlashSuspended_keeps (s : State) (t : State) (h : execFlashSuspended s = .next t) : Keeps s (view t) := by
  unfold execFlashSuspended at h
  refine onPower_keeps _ _ _ (fun a ha => ?_) h
  try dsimp only
  repeat' first
    | with_reducible assumption
    | (simp [*, parts]; done)
    | (simp +contextual [*, parts]; done)
    | (with_reducible refine forEach_keeps _ _ _ _ (fun a x ha => ?_) ?_)
    | (with_reducible refine foldl_keeps _ _ _ _ (fun a x ha => ?_) ?_)
    | (with_reducible refine whenDo_keeps _ _ _ _ (fun a ha => ?_) ?_)
    | (with_reducible refine onRx_keeps _ _ _ _ (fun a ha => ?_) ?_)
    | split

theorem execPageProgramDone_keeps (s : State) (t : State) (h : execPageProgramDone s = .next t) : Keeps s (view t) := by
  unfold execPageProgramDone at h
  refine onPower_keeps _ _ _ (fun a ha => ?_) h
  try dsimp only
  repeat' first
    | with_reducible assumption
    | (simp [*, parts]; done)
    | (simp +contextual [*, parts]; done)
    | (with_reducible refine forEach_keeps _ _ _ _ (fun a x ha => ?_) ?_)
    | (with_reducible refine foldl_keeps _ _ _ _ (fun a x ha => ?_) ?_)
    | (with_reducible refine whenDo_keeps _ _ _ _ (fun a ha => ?_) ?_)
    | split

theorem execSupplyRestored_keeps (s : State) (t : State) (h : execSupplyRestored s = .next t) : Keeps s (view t) := by
  unfold execSupplyRestored at h
  refine onPower_keeps _ _ _ (fun a ha => ?_) h
  try dsimp only
  repeat' first
    | with_reducible assumption
    | (simp [*, parts]; done)
    | (simp +contextual [*, parts]; done)
    | (with_reducible refine forEach_keeps _ _ _ _ (fun a x ha => ?_) ?_)
    | (with_reducible refine foldl_keeps _ _ _ _ (fun a x ha => ?_) ?_)
    | (with_reducible refine whenDo_keeps _ _ _ _ (fun a ha => ?_) ?_)
    | split

theorem execPllLock_keeps (xin : Bool) (s : State) (t : State) (h : execPllLock xin s = .next t) : Keeps s (view t) := by
  unfold execPllLock at h
  refine onLink_keeps _ _ _ (fun a ha => ?_) h
  try dsimp only
  repeat' first
    | with_reducible assumption
    | (simp [*, parts]; done)
    | (simp +contextual [*, parts]; done)
    | (with_reducible refine forEach_keeps _ _ _ _ (fun a x ha => ?_) ?_)
    | (with_reducible refine foldl_keeps _ _ _ _ (fun a x ha => ?_) ?_)
    | (with_reducible refine whenDo_keeps _ _ _ _ (fun a ha => ?_) ?_)
    | (with_reducible refine onRx_keeps _ _ _ _ (fun a ha => ?_) ?_)
    | split

theorem execRefFallback_keeps (xin : Bool) (s : State) (t : State) (h : execRefFallback xin s = .next t) : Keeps s (view t) := by
  unfold execRefFallback at h
  refine onLink_keeps _ _ _ (fun a ha => ?_) h
  try dsimp only
  repeat' first
    | with_reducible assumption
    | (simp [*, parts]; done)
    | (simp +contextual [*, parts]; done)
    | (with_reducible refine forEach_keeps _ _ _ _ (fun a x ha => ?_) ?_)
    | (with_reducible refine foldl_keeps _ _ _ _ (fun a x ha => ?_) ?_)
    | (with_reducible refine whenDo_keeps _ _ _ _ (fun a ha => ?_) ?_)
    | (with_reducible refine onRx_keeps _ _ _ _ (fun a ha => ?_) ?_)
    | split

theorem execRefReturn_keeps (s : State) (t : State) (h : execRefReturn s = .next t) : Keeps s (view t) := by
  unfold execRefReturn at h
  refine onLink_keeps _ _ _ (fun a ha => ?_) h
  try dsimp only
  repeat' first
    | with_reducible assumption
    | (simp [*, parts]; done)
    | (simp +contextual [*, parts]; done)
    | (with_reducible refine forEach_keeps _ _ _ _ (fun a x ha => ?_) ?_)
    | (with_reducible refine foldl_keeps _ _ _ _ (fun a x ha => ?_) ?_)
    | (with_reducible refine whenDo_keeps _ _ _ _ (fun a ha => ?_) ?_)
    | (with_reducible refine onRx_keeps _ _ _ _ (fun a ha => ?_) ?_)
    | split

theorem execXinLoss_keeps (s : State) (t : State) (h : execXinLoss s = .next t) : Keeps s (view t) := by
  unfold execXinLoss at h
  refine onPower_keeps _ _ _ (fun a ha => ?_) h
  try dsimp only
  repeat' first
    | with_reducible assumption
    | (simp [*, parts]; done)
    | (simp +contextual [*, parts]; done)
    | (with_reducible refine forEach_keeps _ _ _ _ (fun a x ha => ?_) ?_)
    | (with_reducible refine foldl_keeps _ _ _ _ (fun a x ha => ?_) ?_)
    | (with_reducible refine whenDo_keeps _ _ _ _ (fun a ha => ?_) ?_)
    | split

theorem flRow_keeps (s0 s : State) (p : Path) (ws : List Word) (f : State → State)
    (hf : ∀ a, view (f a) = view a) (hs : Keeps s0 (view s)) : Keeps s0 (view (flRow s p ws f)) := by
  unfold flRow
  split
  · rw [flGate_view _ _ _ hf]; exact hs
  · split
    · exact forEach_keeps _ _ _ _ (fun a x ha => mgWrite_keeps _ _ _ _ ha) hs
    · exact hs

theorem flFrameRow_keeps (s t : State) (p : Path) (ws : List Word) (h : flFrameRow s p ws = .next t) :
    Keeps s (view t) :=
  onPower_keeps _ _ _ (fun a ha => flRow_keeps _ _ _ _ _ (fun b => flFrame_view b p ws) ha) h

theorem execFlRead_keeps (p : Path) (addr : BitVec 32) (s : State) (t : State) (h : execFlRead p addr s = .next t) :
    Keeps s (view t) := flFrameRow_keeps s t p _ h

theorem execFlNext_keeps (p : Path) (s : State) (t : State) (h : execFlNext p s = .next t) :
    Keeps s (view t) := flFrameRow_keeps s t p _ h

theorem execFlProgram_keeps (p : Path) (addr : BitVec 32) (n : BitVec 12) (ws : List Word) (s : State) (t : State) (h : execFlProgram p addr n ws s = .next t) :
    Keeps s (view t) := flFrameRow_keeps s t p _ h

theorem execFlErase4k_keeps (p : Path) (addr : BitVec 32) (s : State) (t : State) (h : execFlErase4k p addr s = .next t) :
    Keeps s (view t) := flFrameRow_keeps s t p _ h

theorem execFlErase64k_keeps (p : Path) (addr : BitVec 32) (s : State) (t : State) (h : execFlErase64k p addr s = .next t) :
    Keeps s (view t) := flFrameRow_keeps s t p _ h

theorem execFlAbort_keeps (p : Path) (s : State) (t : State) (h : execFlAbort p s = .next t) : Keeps s (view t) :=
  onPower_keeps _ _ _ (fun a ha => flRow_keeps _ _ _ _ _ (fun b => flAbort_view b p) ha) h

theorem execFlOpDone_keeps (byte : BitVec 8) (fail : Bool) (s : State) (t : State) (h : execFlOpDone byte fail s = .next t) : Keeps s (view t) := by
  unfold execFlOpDone at h
  refine onPower_keeps _ _ _ (fun a ha => ?_) h
  try dsimp only
  repeat' first
    | with_reducible assumption
    | (simp [*, parts]; done)
    | (simp +contextual [*, parts]; done)
    | (with_reducible refine forEach_keeps _ _ _ _ (fun a x ha => ?_) ?_)
    | (with_reducible refine foldl_keeps _ _ _ _ (fun a x ha => ?_) ?_)
    | (with_reducible refine whenDo_keeps _ _ _ _ (fun a ha => ?_) ?_)
    | (with_reducible refine onRx_keeps _ _ _ _ (fun a ha => ?_) ?_)
    | split

theorem execQueuePointerMismatch_keeps (q : Nat) (wr : Bool) (rd : Bool) (s : State) (t : State) (h : execQueuePointerMismatch q wr rd s = .next t) : Keeps s (view t) := by
  unfold execQueuePointerMismatch at h
  refine onPower_keeps _ _ _ (fun a ha => ?_) h
  try dsimp only
  repeat' first
    | with_reducible assumption
    | (simp [*, parts]; done)
    | (simp +contextual [*, parts]; done)
    | (with_reducible refine forEach_keeps _ _ _ _ (fun a x ha => ?_) ?_)
    | (with_reducible refine foldl_keeps _ _ _ _ (fun a x ha => ?_) ?_)
    | (with_reducible refine whenDo_keeps _ _ _ _ (fun a ha => ?_) ?_)
    | split

theorem execMeterSample_keeps (m : DnN) (x : Sample) (s : State) (t : State) (h : execMeterSample m x s = .next t) : Keeps s (view t) := by
  unfold execMeterSample at h
  refine onLink_keeps _ _ _ (fun a ha => ?_) h
  try dsimp only
  repeat' first
    | with_reducible assumption
    | (simp [*, parts]; done)
    | (simp +contextual [*, parts]; done)
    | (with_reducible refine forEach_keeps _ _ _ _ (fun a x ha => ?_) ?_)
    | (with_reducible refine foldl_keeps _ _ _ _ (fun a x ha => ?_) ?_)
    | (with_reducible refine whenDo_keeps _ _ _ _ (fun a ha => ?_) ?_)
    | (with_reducible refine onRx_keeps _ _ _ _ (fun a ha => ?_) ?_)
    | split

theorem execSnapshotComplete_keeps (s : State) (t : State) (h : execSnapshotComplete s = .next t) : Keeps s (view t) := by
  unfold execSnapshotComplete at h
  refine onPower_keeps _ _ _ (fun a ha => ?_) h
  try dsimp only
  repeat' first
    | with_reducible assumption
    | (simp [*, parts]; done)
    | (simp +contextual [*, parts]; done)
    | (with_reducible refine forEach_keeps _ _ _ _ (fun a x ha => ?_) ?_)
    | (with_reducible refine foldl_keeps _ _ _ _ (fun a x ha => ?_) ?_)
    | (with_reducible refine whenDo_keeps _ _ _ _ (fun a ha => ?_) ?_)
    | split

theorem execUpSuspendTimeout_keeps (s : State) (t : State) (h : execUpSuspendTimeout s = .next t) : Keeps s (view t) := by
  unfold execUpSuspendTimeout at h
  refine onLink_keeps _ _ _ (fun a ha => ?_) h
  try dsimp only
  repeat' first
    | with_reducible assumption
    | (simp [*, parts]; done)
    | (simp +contextual [*, parts]; done)
    | (with_reducible refine forEach_keeps _ _ _ _ (fun a x ha => ?_) ?_)
    | (with_reducible refine foldl_keeps _ _ _ _ (fun a x ha => ?_) ?_)
    | (with_reducible refine whenDo_keeps _ _ _ _ (fun a ha => ?_) ?_)
    | (with_reducible refine onRx_keeps _ _ _ _ (fun a ha => ?_) ?_)
    | split

theorem execPortSilenceTimeout_keeps (m : DnN) (s : State) (t : State) (h : execPortSilenceTimeout m s = .next t) : Keeps s (view t) := by
  unfold execPortSilenceTimeout at h
  refine onLink_keeps _ _ _ (fun a ha => ?_) h
  try dsimp only
  repeat' first
    | with_reducible assumption
    | (simp [*, parts]; done)
    | (simp +contextual [*, parts]; done)
    | (with_reducible refine forEach_keeps _ _ _ _ (fun a x ha => ?_) ?_)
    | (with_reducible refine foldl_keeps _ _ _ _ (fun a x ha => ?_) ?_)
    | (with_reducible refine whenDo_keeps _ _ _ _ (fun a ha => ?_) ?_)
    | (with_reducible refine onRx_keeps _ _ _ _ (fun a ha => ?_) ?_)
    | split

theorem execHoldIdlDone_keeps (n : PortN) (s : State) (t : State) (h : execHoldIdlDone n s = .next t) : Keeps s (view t) := by
  unfold execHoldIdlDone at h
  refine onLink_keeps _ _ _ (fun a ha => ?_) h
  try dsimp only
  repeat' first
    | with_reducible assumption
    | (simp [*, parts]; done)
    | (simp +contextual [*, parts]; done)
    | (with_reducible refine forEach_keeps _ _ _ _ (fun a x ha => ?_) ?_)
    | (with_reducible refine foldl_keeps _ _ _ _ (fun a x ha => ?_) ?_)
    | (with_reducible refine whenDo_keeps _ _ _ _ (fun a ha => ?_) ?_)
    | (with_reducible refine onRx_keeps _ _ _ _ (fun a ha => ?_) ?_)
    | split

theorem execUpBcnDeassert_keeps (s : State) (t : State) (h : execUpBcnDeassert s = .next t) : Keeps s (view t) := by
  unfold execUpBcnDeassert at h
  refine onPower_keeps _ _ _ (fun a ha => ?_) h
  try dsimp only
  repeat' first
    | with_reducible assumption
    | (simp [*, parts]; done)
    | (simp +contextual [*, parts]; done)
    | (with_reducible refine forEach_keeps _ _ _ _ (fun a x ha => ?_) ?_)
    | (with_reducible refine foldl_keeps _ _ _ _ (fun a x ha => ?_) ?_)
    | (with_reducible refine whenDo_keeps _ _ _ _ (fun a ha => ?_) ?_)
    | split

theorem execBcnDriveEnd_keeps (m : DnN) (s : State) (t : State) (h : execBcnDriveEnd m s = .next t) : Keeps s (view t) := by
  unfold execBcnDriveEnd at h
  refine onPower_keeps _ _ _ (fun a ha => ?_) h
  try dsimp only
  repeat' first
    | with_reducible assumption
    | (simp [*, parts]; done)
    | (simp +contextual [*, parts]; done)
    | (with_reducible refine forEach_keeps _ _ _ _ (fun a x ha => ?_) ?_)
    | (with_reducible refine foldl_keeps _ _ _ _ (fun a x ha => ?_) ?_)
    | (with_reducible refine whenDo_keeps _ _ _ _ (fun a ha => ?_) ?_)
    | split

theorem execUpHoldSdEnd_keeps (s : State) (t : State) (h : execUpHoldSdEnd s = .next t) : Keeps s (view t) := by
  unfold execUpHoldSdEnd at h
  refine onPower_keeps _ _ _ (fun a ha => ?_) h
  try dsimp only
  repeat' first
    | with_reducible assumption
    | (simp [*, parts]; done)
    | (simp +contextual [*, parts]; done)
    | (with_reducible refine forEach_keeps _ _ _ _ (fun a x ha => ?_) ?_)
    | (with_reducible refine foldl_keeps _ _ _ _ (fun a x ha => ?_) ?_)
    | (with_reducible refine whenDo_keeps _ _ _ _ (fun a ha => ?_) ?_)
    | split

theorem execTxIdleDark_keeps (n : PortN) (s : State) (t : State) (h : execTxIdleDark n s = .next t) : Keeps s (view t) := by
  unfold execTxIdleDark at h
  refine onLink_keeps _ _ _ (fun a ha => ?_) h
  try dsimp only
  repeat' first
    | with_reducible assumption
    | (simp [*, parts]; done)
    | (simp +contextual [*, parts]; done)
    | (with_reducible refine forEach_keeps _ _ _ _ (fun a x ha => ?_) ?_)
    | (with_reducible refine foldl_keeps _ _ _ _ (fun a x ha => ?_) ?_)
    | (with_reducible refine whenDo_keeps _ _ _ _ (fun a ha => ?_) ?_)
    | (with_reducible refine onRx_keeps _ _ _ _ (fun a ha => ?_) ?_)
    | split

theorem execTxWake_keeps (n : PortN) (s : State) (t : State) (h : execTxWake n s = .next t) : Keeps s (view t) := by
  unfold execTxWake at h
  refine onLink_keeps _ _ _ (fun a ha => ?_) h
  try dsimp only
  repeat' first
    | with_reducible assumption
    | (simp [*, parts]; done)
    | (simp +contextual [*, parts]; done)
    | (with_reducible refine forEach_keeps _ _ _ _ (fun a x ha => ?_) ?_)
    | (with_reducible refine foldl_keeps _ _ _ _ (fun a x ha => ?_) ?_)
    | (with_reducible refine whenDo_keeps _ _ _ _ (fun a ha => ?_) ?_)
    | (with_reducible refine onRx_keeps _ _ _ _ (fun a ha => ?_) ?_)
    | split

theorem execDarkLimit_keeps (n : PortN) (s : State) (t : State) (h : execDarkLimit n s = .next t) : Keeps s (view t) := by
  unfold execDarkLimit at h
  refine onLink_keeps _ _ _ (fun a ha => ?_) h
  try dsimp only
  repeat' first
    | with_reducible assumption
    | (simp [*, parts]; done)
    | (simp +contextual [*, parts]; done)
    | (with_reducible refine forEach_keeps _ _ _ _ (fun a x ha => ?_) ?_)
    | (with_reducible refine foldl_keeps _ _ _ _ (fun a x ha => ?_) ?_)
    | (with_reducible refine whenDo_keeps _ _ _ _ (fun a ha => ?_) ?_)
    | (with_reducible refine onRx_keeps _ _ _ _ (fun a ha => ?_) ?_)
    | split

theorem execSchedPrewake_keeps (n : PortN) (s : State) (t : State) (h : execSchedPrewake n s = .next t) : Keeps s (view t) := by
  unfold execSchedPrewake at h
  refine onLink_keeps _ _ _ (fun a ha => ?_) h
  try dsimp only
  repeat' first
    | with_reducible assumption
    | (simp [*, parts]; done)
    | (simp +contextual [*, parts]; done)
    | (with_reducible refine forEach_keeps _ _ _ _ (fun a x ha => ?_) ?_)
    | (with_reducible refine foldl_keeps _ _ _ _ (fun a x ha => ?_) ?_)
    | (with_reducible refine whenDo_keeps _ _ _ _ (fun a ha => ?_) ?_)
    | (with_reducible refine onRx_keeps _ _ _ _ (fun a ha => ?_) ?_)
    | split

theorem execSchedWindowEnd_keeps (n : PortN) (s : State) (t : State) (h : execSchedWindowEnd n s = .next t) : Keeps s (view t) := by
  unfold execSchedWindowEnd at h
  refine onLink_keeps _ _ _ (fun a ha => ?_) h
  try dsimp only
  repeat' first
    | with_reducible assumption
    | (simp [*, parts]; done)
    | (simp +contextual [*, parts]; done)
    | (with_reducible refine forEach_keeps _ _ _ _ (fun a x ha => ?_) ?_)
    | (with_reducible refine foldl_keeps _ _ _ _ (fun a x ha => ?_) ?_)
    | (with_reducible refine whenDo_keeps _ _ _ _ (fun a ha => ?_) ?_)
    | (with_reducible refine onRx_keeps _ _ _ _ (fun a ha => ?_) ?_)
    | split

theorem execMgWrite_keeps (addr : Word) (v : Word) (s : State) (t : State) (h : execMgWrite addr v s = .next t) : Keeps s (view t) := by
  unfold execMgWrite at h
  refine onPower_keeps _ _ _ (fun a ha => ?_) h
  try dsimp only
  repeat' first
    | with_reducible assumption
    | (simp [*, parts]; done)
    | (simp +contextual [*, parts]; done)
    | (with_reducible refine forEach_keeps _ _ _ _ (fun a x ha => ?_) ?_)
    | (with_reducible refine foldl_keeps _ _ _ _ (fun a x ha => ?_) ?_)
    | (with_reducible refine whenDo_keeps _ _ _ _ (fun a ha => ?_) ?_)
    | split

theorem execMgRead_keeps (addr : Word) (s : State) (t : State) (h : execMgRead addr s = .next t) : Keeps s (view t) := by
  unfold execMgRead at h
  refine onPower_keeps _ _ _ (fun a ha => ?_) h
  try dsimp only
  repeat' first
    | with_reducible assumption
    | (simp [*, parts]; done)
    | (simp +contextual [*, parts]; done)
    | (with_reducible refine forEach_keeps _ _ _ _ (fun a x ha => ?_) ?_)
    | (with_reducible refine foldl_keeps _ _ _ _ (fun a x ha => ?_) ?_)
    | (with_reducible refine whenDo_keeps _ _ _ _ (fun a ha => ?_) ?_)
    | split

theorem execMgWriteBurst_keeps (addr : Word) (ws : List Word) (s : State) (t : State) (h : execMgWriteBurst addr ws s = .next t) : Keeps s (view t) := by
  unfold execMgWriteBurst at h
  refine onPower_keeps _ _ _ (fun a ha => ?_) h
  try dsimp only
  repeat' first
    | with_reducible assumption
    | (simp [*, parts]; done)
    | (simp +contextual [*, parts]; done)
    | (with_reducible refine forEach_keeps _ _ _ _ (fun a x ha => ?_) ?_)
    | (with_reducible refine foldl_keeps _ _ _ _ (fun a x ha => ?_) ?_)
    | (with_reducible refine whenDo_keeps _ _ _ _ (fun a ha => ?_) ?_)
    | split

theorem execMgReadBurst_keeps (addr : Word) (n : Nat) (s : State) (t : State) (h : execMgReadBurst addr n s = .next t) : Keeps s (view t) := by
  unfold execMgReadBurst at h
  refine onPower_keeps _ _ _ (fun a ha => ?_) h
  try dsimp only
  repeat' first
    | with_reducible assumption
    | (simp [*, parts]; done)
    | (simp +contextual [*, parts]; done)
    | (with_reducible refine forEach_keeps _ _ _ _ (fun a x ha => ?_) ?_)
    | (with_reducible refine foldl_keeps _ _ _ _ (fun a x ha => ?_) ?_)
    | (with_reducible refine whenDo_keeps _ _ _ _ (fun a ha => ?_) ?_)
    | split

theorem execMgStatus_keeps (s : State) (t : State) (h : execMgStatus s = .next t) : Keeps s (view t) := by
  unfold execMgStatus at h
  refine onPower_keeps _ _ _ (fun a ha => ?_) h
  try dsimp only
  repeat' first
    | with_reducible assumption
    | (simp [*, parts]; done)
    | (simp +contextual [*, parts]; done)
    | (with_reducible refine forEach_keeps _ _ _ _ (fun a x ha => ?_) ?_)
    | (with_reducible refine foldl_keeps _ _ _ _ (fun a x ha => ?_) ?_)
    | (with_reducible refine whenDo_keeps _ _ _ _ (fun a ha => ?_) ?_)
    | split

theorem execFrameerr_keeps (s : State) (t : State) (h : execFrameerr s = .next t) : Keeps s (view t) := by
  unfold execFrameerr at h
  refine onPower_keeps _ _ _ (fun a ha => ?_) h
  try dsimp only
  repeat' first
    | with_reducible assumption
    | (simp [*, parts]; done)
    | (simp +contextual [*, parts]; done)
    | (with_reducible refine forEach_keeps _ _ _ _ (fun a x ha => ?_) ?_)
    | (with_reducible refine foldl_keeps _ _ _ _ (fun a x ha => ?_) ?_)
    | (with_reducible refine whenDo_keeps _ _ _ _ (fun a ha => ?_) ?_)
    | split

theorem execRegisterWrite_keeps (p : Path) (off : Word) (dw : ByteEn × BitVec 32) (more : List (ByteEn × BitVec 32)) (s : State) (t : State) (h : execRegisterWrite p off dw more s = .next t) : Keeps s (view t) := by
  unfold execRegisterWrite at h
  refine onPower_keeps _ _ _ (fun a ha => ?_) h
  try dsimp only
  repeat' first
    | with_reducible assumption
    | (simp [*, parts]; done)
    | (simp +contextual [*, parts]; done)
    | (with_reducible refine forEach_keeps _ _ _ _ (fun a x ha => ?_) ?_)
    | (with_reducible refine foldl_keeps _ _ _ _ (fun a x ha => ?_) ?_)
    | (with_reducible refine whenDo_keeps _ _ _ _ (fun a ha => ?_) ?_)
    | split

theorem execByteWrite_keeps (p : Path) (off : Word) (s : State) (t : State) (h : execByteWrite p off s = .next t) : Keeps s (view t) := by
  unfold execByteWrite at h
  refine onPower_keeps _ _ _ (fun a ha => ?_) h
  try dsimp only
  repeat' first
    | with_reducible assumption
    | (simp [*, parts]; done)
    | (simp +contextual [*, parts]; done)
    | (with_reducible refine forEach_keeps _ _ _ _ (fun a x ha => ?_) ?_)
    | (with_reducible refine foldl_keeps _ _ _ _ (fun a x ha => ?_) ?_)
    | (with_reducible refine whenDo_keeps _ _ _ _ (fun a ha => ?_) ?_)
    | split

theorem execSwrst_keeps (p : Path) (s : State) (t : State) (h : execSwrst p s = .next t) : Keeps s (view t) := by
  unfold execSwrst at h
  exact regRow_keeps _ _ _ _ _ h

theorem execCfgLoad_keeps (p : Path) (s : State) (t : State) (h : execCfgLoad p s = .next t) : Keeps s (view t) := by
  unfold execCfgLoad at h
  exact regRow_keeps _ _ _ _ _ h

theorem execBytewrClear_keeps (p : Path) (s : State) (t : State) (h : execBytewrClear p s = .next t) : Keeps s (view t) := by
  unfold execBytewrClear at h
  exact regRow_keeps _ _ _ _ _ h

theorem execClkPlanWrite_keeps (p : Path) (v : Word) (s : State) (t : State) (h : execClkPlanWrite p v s = .next t) : Keeps s (view t) := by
  unfold execClkPlanWrite at h
  exact regRow_keeps _ _ _ _ _ h

theorem execReglockWrite_keeps (p : Path) (v : Word) (s : State) (t : State) (h : execReglockWrite p v s = .next t) : Keeps s (view t) := by
  unfold execReglockWrite at h
  exact regRow_keeps _ _ _ _ _ h

theorem execPortRetrain_keeps (p : Path) (n : PortN) (s : State) (t : State) (h : execPortRetrain p n s = .next t) : Keeps s (view t) := by
  unfold execPortRetrain at h
  exact regRow_keeps _ _ _ _ _ h

theorem execPortCntClr_keeps (p : Path) (n : PortN) (s : State) (t : State) (h : execPortCntClr p n s = .next t) : Keeps s (view t) := by
  unfold execPortCntClr at h
  exact regRow_keeps _ _ _ _ _ h

theorem execPortDisable_keeps (p : Path) (n : PortN) (s : State) (t : State) (h : execPortDisable p n s = .next t) : Keeps s (view t) := by
  unfold execPortDisable at h
  exact regRow_keeps _ _ _ _ _ h

theorem execPortEnable_keeps (p : Path) (n : PortN) (s : State) (t : State) (h : execPortEnable p n s = .next t) : Keeps s (view t) := by
  unfold execPortEnable at h
  exact regRow_keeps _ _ _ _ _ h

theorem execPortSuspend_keeps (p : Path) (m : DnN) (s : State) (t : State) (h : execPortSuspend p m s = .next t) : Keeps s (view t) := by
  unfold execPortSuspend at h
  exact regRow_keeps _ _ _ _ _ h

theorem execPortResume_keeps (p : Path) (m : DnN) (s : State) (t : State) (h : execPortResume p m s = .next t) : Keeps s (view t) := by
  unfold execPortResume at h
  exact regRow_keeps _ _ _ _ _ h

theorem execPclassWrite_keeps (p : Path) (v : Word) (s : State) (t : State) (h : execPclassWrite p v s = .next t) : Keeps s (view t) := by
  unfold execPclassWrite at h
  exact regRow_keeps _ _ _ _ _ h

theorem execTtCntClr_keeps (p : Path) (s : State) (t : State) (h : execTtCntClr p s = .next t) : Keeps s (view t) := by
  unfold execTtCntClr at h
  exact regRow_keeps _ _ _ _ _ h

theorem execLnEnable_keeps (p : Path) (s : State) (t : State) (h : execLnEnable p s = .next t) : Keeps s (view t) := by
  unfold execLnEnable at h
  exact regRow_keeps _ _ _ _ _ h

theorem execLnDisable_keeps (p : Path) (s : State) (t : State) (h : execLnDisable p s = .next t) : Keeps s (view t) := by
  unfold execLnDisable at h
  exact regRow_keeps _ _ _ _ _ h

theorem execEpEnable_keeps (p : Path) (k : EpN) (s : State) (t : State) (h : execEpEnable p k s = .next t) : Keeps s (view t) := by
  unfold execEpEnable at h
  exact regRow_keeps _ _ _ _ _ h

theorem execEpDisable_keeps (p : Path) (k : EpN) (s : State) (t : State) (h : execEpDisable p k s = .next t) : Keeps s (view t) := by
  unfold execEpDisable at h
  exact regRow_keeps _ _ _ _ _ h

theorem execEpCntClr_keeps (p : Path) (k : EpN) (s : State) (t : State) (h : execEpCntClr p k s = .next t) : Keeps s (view t) := by
  unfold execEpCntClr at h
  exact regRow_keeps _ _ _ _ _ h

theorem execDomRightsWrite_keeps (d : DomN) (v : Word) (s : State) (t : State) (h : execDomRightsWrite d v s = .next t) : Keeps s (view t) := by
  unfold execDomRightsWrite at h
  exact regRow_keeps _ _ _ _ _ h

theorem execEpmaskWrite_keeps (d : DomN) (half : Fin 2) (v : Word) (s : State) (t : State) (h : execEpmaskWrite d half v s = .next t) : Keeps s (view t) := by
  unfold execEpmaskWrite at h
  exact regRow_keeps _ _ _ _ _ h

theorem execDomainEnable_keeps (d : DomN) (s : State) (t : State) (h : execDomainEnable d s = .next t) : Keeps s (view t) := by
  unfold execDomainEnable at h
  exact ownRow_keeps _ _ _ _ _ h

theorem execDomainDisable_keeps (d : DomN) (s : State) (t : State) (h : execDomainDisable d s = .next t) : Keeps s (view t) := by
  unfold execDomainDisable at h
  exact ownRow_keeps _ _ _ _ _ h

theorem execResyncGo_keeps (d : DomN) (s : State) (t : State) (h : execResyncGo d s = .next t) : Keeps s (view t) := by
  unfold execResyncGo at h
  exact ownRow_keeps _ _ _ _ _ h

theorem execCutClear_keeps (p : Path) (arb : ArbName) (half : Fin 2) (v : Word) (s : State) (t : State) (h : execCutClear p arb half v s = .next t) : Keeps s (view t) := by
  unfold execCutClear at h
  exact regRow_keeps _ _ _ _ _ h

theorem execQueueInject_keeps (p : Path) (q : BitVec 8) (s : State) (t : State) (h : execQueueInject p q s = .next t) : Keeps s (view t) := by
  unfold execQueueInject at h
  exact regRow_keeps _ _ _ _ _ h

theorem execQCntClr_keeps (p : Path) (s : State) (t : State) (h : execQCntClr p s = .next t) : Keeps s (view t) := by
  unfold execQCntClr at h
  exact regRow_keeps _ _ _ _ _ h

theorem execEvfPop_keeps (s : State) (t : State) (h : execEvfPop s = .next t) : Keeps s (view t) := by
  unfold execEvfPop at h
  refine onPower_keeps _ _ _ (fun a ha => ?_) h
  try dsimp only
  repeat' first
    | with_reducible assumption
    | (simp [*, parts]; done)
    | (simp +contextual [*, parts]; done)
    | (with_reducible refine forEach_keeps _ _ _ _ (fun a x ha => ?_) ?_)
    | (with_reducible refine foldl_keeps _ _ _ _ (fun a x ha => ?_) ?_)
    | (with_reducible refine whenDo_keeps _ _ _ _ (fun a ha => ?_) ?_)
    | split

theorem execEvfFlush_keeps (p : Path) (s : State) (t : State) (h : execEvfFlush p s = .next t) : Keeps s (view t) := by
  unfold execEvfFlush at h
  exact regRow_keeps _ _ _ _ _ h

theorem execPpsOn_keeps (p : Path) (m : DnN) (s : State) (t : State) (h : execPpsOn p m s = .next t) : Keeps s (view t) := by
  unfold execPpsOn at h
  exact regRow_keeps _ _ _ _ _ h

theorem execPpsOff_keeps (p : Path) (m : DnN) (s : State) (t : State) (h : execPpsOff p m s = .next t) : Keeps s (view t) := by
  unfold execPpsOff at h
  exact regRow_keeps _ _ _ _ _ h

theorem execPpsFclr_keeps (p : Path) (m : DnN) (s : State) (t : State) (h : execPpsFclr p m s = .next t) : Keeps s (view t) := by
  unfold execPpsFclr at h
  exact regRow_keeps _ _ _ _ _ h

theorem execBudgetWrite_keeps (p : Path) (v : Word) (s : State) (t : State) (h : execBudgetWrite p v s = .next t) : Keeps s (view t) := by
  unfold execBudgetWrite at h
  exact regRow_keeps _ _ _ _ _ h

theorem execGangWrite_keeps (p : Path) (v : Word) (s : State) (t : State) (h : execGangWrite p v s = .next t) : Keeps s (view t) := by
  unfold execGangWrite at h
  exact regRow_keeps _ _ _ _ _ h

theorem execSnapshotGo_keeps (p : Path) (s : State) (t : State) (h : execSnapshotGo p s = .next t) : Keeps s (view t) := by
  unfold execSnapshotGo at h
  exact regRow_keeps _ _ _ _ _ h

theorem execPmReqFeather_keeps (p : Path) (s : State) (t : State) (h : execPmReqFeather p s = .next t) : Keeps s (view t) := by
  unfold execPmReqFeather at h
  exact regRow_keeps _ _ _ _ _ h

theorem execPmReqStow_keeps (p : Path) (s : State) (t : State) (h : execPmReqStow p s = .next t) : Keeps s (view t) := by
  unfold execPmReqStow at h
  exact regRow_keeps _ _ _ _ _ h

theorem execWdtServiceWrite_keeps (p : Path) (v : Word) (s : State) (t : State) (h : execWdtServiceWrite p v s = .next t) : Keeps s (view t) := by
  unfold execWdtServiceWrite at h
  exact regRow_keeps _ _ _ _ _ h

theorem execWdtKeyWrite_keeps (p : Path) (v : Word) (s : State) (t : State) (h : execWdtKeyWrite p v s = .next t) : Keeps s (view t) := by
  unfold execWdtKeyWrite at h
  exact regRow_keeps _ _ _ _ _ h

theorem execWdtEnable_keeps (p : Path) (s : State) (t : State) (h : execWdtEnable p s = .next t) : Keeps s (view t) := by
  unfold execWdtEnable at h
  exact regRow_keeps _ _ _ _ _ h

theorem execWdtLockSet_keeps (p : Path) (s : State) (t : State) (h : execWdtLockSet p s = .next t) : Keeps s (view t) := by
  unfold execWdtLockSet at h
  exact regRow_keeps _ _ _ _ _ h

theorem execWdtPeriodWrite_keeps (p : Path) (window : Bool) (v : Word) (s : State) (t : State) (h : execWdtPeriodWrite p window v s = .next t) : Keeps s (view t) := by
  unfold execWdtPeriodWrite at h
  exact regRow_keeps _ _ _ _ _ h

theorem execBbRearm_keeps (p : Path) (s : State) (t : State) (h : execBbRearm p s = .next t) : Keeps s (view t) := by
  unfold execBbRearm at h
  exact regRow_keeps _ _ _ _ _ h

theorem execBbClear_keeps (p : Path) (s : State) (t : State) (h : execBbClear p s = .next t) : Keeps s (view t) := by
  unfold execBbClear at h
  exact regRow_keeps _ _ _ _ _ h

theorem execBbTestFlush_keeps (p : Path) (s : State) (t : State) (h : execBbTestFlush p s = .next t) : Keeps s (view t) := by
  unfold execBbTestFlush at h
  exact regRow_keeps _ _ _ _ _ h

theorem execBbIndexWrite_keeps (p : Path) (v : Word) (s : State) (t : State) (h : execBbIndexWrite p v s = .next t) : Keeps s (view t) := by
  unfold execBbIndexWrite at h
  exact regRow_keeps _ _ _ _ _ h

theorem execTbTime0Read_keeps (r : HostRead) (s : State) (t : State) (h : execTbTime0Read r s = .next t) : Keeps s (view t) := by
  unfold execTbTime0Read at h
  refine onPower_keeps _ _ _ (fun a ha => ?_) h
  try dsimp only
  repeat' first
    | with_reducible assumption
    | (simp [*, parts]; done)
    | (simp +contextual [*, parts]; done)
    | (with_reducible refine forEach_keeps _ _ _ _ (fun a x ha => ?_) ?_)
    | (with_reducible refine foldl_keeps _ _ _ _ (fun a x ha => ?_) ?_)
    | (with_reducible refine whenDo_keeps _ _ _ _ (fun a ha => ?_) ?_)
    | split

theorem execLinkDieResetRelease_keeps (sfdp : Option Sfdp) (s : State) (t : State) (h : execLinkDieResetRelease sfdp s = .next t) : Keeps s (view t) := by
  unfold execLinkDieResetRelease at h
  refine onPower_keeps _ _ _ (fun a ha => ?_) h
  try dsimp only
  repeat' first
    | with_reducible assumption
    | (simp [*, parts]; done)
    | (simp +contextual [*, parts]; done)
    | (with_reducible refine forEach_keeps _ _ _ _ (fun a x ha => ?_) ?_)
    | (with_reducible refine foldl_keeps _ _ _ _ (fun a x ha => ?_) ?_)
    | (with_reducible refine whenDo_keeps _ _ _ _ (fun a ha => ?_) ?_)
    | split

theorem execCfgImageChecked_keeps (readOk : Bool) (ws : List Word) (s : State) (t : State) (h : execCfgImageChecked readOk ws s = .next t) : Keeps s (view t) := by
  unfold execCfgImageChecked at h
  refine onLink_keeps _ _ _ (fun a ha => ?_) h
  try dsimp only
  repeat' first
    | with_reducible assumption
    | (simp [*, parts]; done)
    | (simp +contextual [*, parts]; done)
    | (with_reducible refine forEach_keeps _ _ _ _ (fun a x ha => ?_) ?_)
    | (with_reducible refine foldl_keeps _ _ _ _ (fun a x ha => ?_) ?_)
    | (with_reducible refine whenDo_keeps _ _ _ _ (fun a ha => ?_) ?_)
    | (with_reducible refine onRx_keeps _ _ _ _ (fun a ha => ?_) ?_)
    | split

theorem execWakeSource_keeps (pins : BitVec 8) (srcs : Word) (during : Bool) (s : State) (t : State) (h : execWakeSource pins srcs during s = .next t) : Keeps s (view t) := by
  unfold execWakeSource at h
  refine onPower_keeps _ _ _ (fun a ha => ?_) h
  try dsimp only
  repeat' first
    | with_reducible assumption
    | (simp [*, parts]; done)
    | (simp +contextual [*, parts]; done)
    | (with_reducible refine forEach_keeps _ _ _ _ (fun a x ha => ?_) ?_)
    | (with_reducible refine foldl_keeps _ _ _ _ (fun a x ha => ?_) ?_)
    | (with_reducible refine whenDo_keeps _ _ _ _ (fun a ha => ?_) ?_)
    | split

theorem execCorePgRise_keeps (s : State) (t : State) (h : execCorePgRise s = .next t) : Keeps s (view t) := by
  unfold execCorePgRise at h
  refine onPower_keeps _ _ _ (fun a ha => ?_) h
  try dsimp only
  repeat' first
    | with_reducible assumption
    | (simp [*, parts]; done)
    | (simp +contextual [*, parts]; done)
    | (with_reducible refine forEach_keeps _ _ _ _ (fun a x ha => ?_) ?_)
    | (with_reducible refine foldl_keeps _ _ _ _ (fun a x ha => ?_) ?_)
    | (with_reducible refine whenDo_keeps _ _ _ _ (fun a ha => ?_) ?_)
    | split

theorem execPerstRelease_keeps (s : State) (t : State) (h : execPerstRelease s = .next t) : Keeps s (view t) := by
  unfold execPerstRelease at h
  refine next_keeps _ _ _ (fun ha => ?_) h
  try dsimp only
  repeat' first
    | with_reducible assumption
    | (simp [*, parts]; done)
    | (simp +contextual [*, parts]; done)
    | (with_reducible refine forEach_keeps _ _ _ _ (fun a x ha => ?_) ?_)
    | (with_reducible refine foldl_keeps _ _ _ _ (fun a x ha => ?_) ?_)
    | (with_reducible refine whenDo_keeps _ _ _ _ (fun a ha => ?_) ?_)
    | split

theorem execSdChange_keeps (n : PortN) (level : Bool) (s : State) (t : State) (h : execSdChange n level s = .next t) : Keeps s (view t) := by
  unfold execSdChange at h
  refine onPower_keeps _ _ _ (fun a ha => ?_) h
  try dsimp only
  repeat' first
    | with_reducible assumption
    | (simp [*, parts]; done)
    | (simp +contextual [*, parts]; done)
    | (with_reducible refine forEach_keeps _ _ _ _ (fun a x ha => ?_) ?_)
    | (with_reducible refine foldl_keeps _ _ _ _ (fun a x ha => ?_) ?_)
    | (with_reducible refine whenDo_keeps _ _ _ _ (fun a ha => ?_) ?_)
    | split

theorem execPowerUpFailure_keeps (s : State) (t : State) (h : execPowerUpFailure s = .next t) : Keeps s (view t) := by
  unfold execPowerUpFailure at h
  refine onPower_keeps _ _ _ (fun a ha => ?_) h
  try dsimp only
  repeat' first
    | with_reducible assumption
    | (simp [*, parts]; done)
    | (simp +contextual [*, parts]; done)
    | (with_reducible refine forEach_keeps _ _ _ _ (fun a x ha => ?_) ?_)
    | (with_reducible refine foldl_keeps _ _ _ _ (fun a x ha => ?_) ?_)
    | (with_reducible refine whenDo_keeps _ _ _ _ (fun a ha => ?_) ?_)
    | split

theorem execPowerUpRetry_keeps (s : State) (t : State) (h : execPowerUpRetry s = .next t) : Keeps s (view t) := by
  unfold execPowerUpRetry at h
  refine onPower_keeps _ _ _ (fun a ha => ?_) h
  try dsimp only
  repeat' first
    | with_reducible assumption
    | (simp [*, parts]; done)
    | (simp +contextual [*, parts]; done)
    | (with_reducible refine forEach_keeps _ _ _ _ (fun a x ha => ?_) ?_)
    | (with_reducible refine foldl_keeps _ _ _ _ (fun a x ha => ?_) ?_)
    | (with_reducible refine whenDo_keeps _ _ _ _ (fun a ha => ?_) ?_)
    | split

theorem execLinkDiePowerLoss_keeps (s : State) (t : State) (h : execLinkDiePowerLoss s = .next t) : Keeps s (view t) := by
  unfold execLinkDiePowerLoss at h
  refine onPower_keeps _ _ _ (fun a ha => ?_) h
  try dsimp only
  repeat' first
    | with_reducible assumption
    | (simp [*, parts]; done)
    | (simp +contextual [*, parts]; done)
    | (with_reducible refine forEach_keeps _ _ _ _ (fun a x ha => ?_) ?_)
    | (with_reducible refine foldl_keeps _ _ _ _ (fun a x ha => ?_) ?_)
    | (with_reducible refine whenDo_keeps _ _ _ _ (fun a ha => ?_) ?_)
    | split

theorem execCorelossRestart_keeps (s : State) (t : State) (h : execCorelossRestart s = .next t) : Keeps s (view t) := by
  unfold execCorelossRestart at h
  refine onPower_keeps _ _ _ (fun a ha => ?_) h
  try dsimp only
  repeat' first
    | with_reducible assumption
    | (simp [*, parts]; done)
    | (simp +contextual [*, parts]; done)
    | (with_reducible refine forEach_keeps _ _ _ _ (fun a x ha => ?_) ?_)
    | (with_reducible refine foldl_keeps _ _ _ _ (fun a x ha => ?_) ?_)
    | (with_reducible refine whenDo_keeps _ _ _ _ (fun a ha => ?_) ?_)
    | split

theorem execKregLowPower_keeps (s : State) (t : State) (h : execKregLowPower s = .next t) : Keeps s (view t) := by
  unfold execKregLowPower at h
  refine onPower_keeps _ _ _ (fun a ha => ?_) h
  try dsimp only
  repeat' first
    | with_reducible assumption
    | (simp [*, parts]; done)
    | (simp +contextual [*, parts]; done)
    | (with_reducible refine forEach_keeps _ _ _ _ (fun a x ha => ?_) ?_)
    | (with_reducible refine foldl_keeps _ _ _ _ (fun a x ha => ?_) ?_)
    | (with_reducible refine whenDo_keeps _ _ _ _ (fun a ha => ?_) ?_)
    | split

theorem execKregBoostEnd_keeps (s : State) (t : State) (h : execKregBoostEnd s = .next t) : Keeps s (view t) := by
  unfold execKregBoostEnd at h
  refine onPower_keeps _ _ _ (fun a ha => ?_) h
  try dsimp only
  repeat' first
    | with_reducible assumption
    | (simp [*, parts]; done)
    | (simp +contextual [*, parts]; done)
    | (with_reducible refine forEach_keeps _ _ _ _ (fun a x ha => ?_) ?_)
    | (with_reducible refine foldl_keeps _ _ _ _ (fun a x ha => ?_) ?_)
    | (with_reducible refine whenDo_keeps _ _ _ _ (fun a ha => ?_) ?_)
    | split

theorem execKregHeavy_keeps (s : State) (t : State) (h : execKregHeavy s = .next t) : Keeps s (view t) := by
  unfold execKregHeavy at h
  refine onPower_keeps _ _ _ (fun a ha => ?_) h
  try dsimp only
  repeat' first
    | with_reducible assumption
    | (simp [*, parts]; done)
    | (simp +contextual [*, parts]; done)
    | (with_reducible refine forEach_keeps _ _ _ _ (fun a x ha => ?_) ?_)
    | (with_reducible refine foldl_keeps _ _ _ _ (fun a x ha => ?_) ?_)
    | (with_reducible refine whenDo_keeps _ _ _ _ (fun a ha => ?_) ?_)
    | split

theorem execMgCsNFalling_keeps (s : State) (t : State) (h : execMgCsNFalling s = .next t) : Keeps s (view t) := by
  unfold execMgCsNFalling at h
  refine onPower_keeps _ _ _ (fun a ha => ?_) h
  try dsimp only
  repeat' first
    | with_reducible assumption
    | (simp [*, parts]; done)
    | (simp +contextual [*, parts]; done)
    | (with_reducible refine forEach_keeps _ _ _ _ (fun a x ha => ?_) ?_)
    | (with_reducible refine foldl_keeps _ _ _ _ (fun a x ha => ?_) ?_)
    | (with_reducible refine whenDo_keeps _ _ _ _ (fun a ha => ?_) ?_)
    | split

theorem execFeatherIdleExpiry_keeps (s : State) (t : State) (h : execFeatherIdleExpiry s = .next t) : Keeps s (view t) := by
  unfold execFeatherIdleExpiry at h
  refine onLink_keeps _ _ _ (fun a ha => ?_) h
  try dsimp only
  repeat' first
    | with_reducible assumption
    | (simp [*, parts]; done)
    | (simp +contextual [*, parts]; done)
    | (with_reducible refine forEach_keeps _ _ _ _ (fun a x ha => ?_) ?_)
    | (with_reducible refine foldl_keeps _ _ _ _ (fun a x ha => ?_) ?_)
    | (with_reducible refine whenDo_keeps _ _ _ _ (fun a ha => ?_) ?_)
    | (with_reducible refine onRx_keeps _ _ _ _ (fun a ha => ?_) ?_)
    | split

theorem execStowIdleExpiry_keeps (s : State) (t : State) (h : execStowIdleExpiry s = .next t) : Keeps s (view t) := by
  unfold execStowIdleExpiry at h
  refine onPower_keeps _ _ _ (fun a ha => ?_) h
  try dsimp only
  repeat' first
    | with_reducible assumption
    | (simp [*, parts]; done)
    | (simp +contextual [*, parts]; done)
    | (with_reducible refine forEach_keeps _ _ _ _ (fun a x ha => ?_) ?_)
    | (with_reducible refine foldl_keeps _ _ _ _ (fun a x ha => ?_) ?_)
    | (with_reducible refine whenDo_keeps _ _ _ _ (fun a ha => ?_) ?_)
    | split

theorem execVlinkLow_keeps (s : State) (t : State) (h : execVlinkLow s = .next t) : Keeps s (view t) := by
  unfold execVlinkLow at h
  refine onPower_keeps _ _ _ (fun a ha => ?_) h
  try dsimp only
  repeat' first
    | with_reducible assumption
    | (simp [*, parts]; done)
    | (simp +contextual [*, parts]; done)
    | (with_reducible refine forEach_keeps _ _ _ _ (fun a x ha => ?_) ?_)
    | (with_reducible refine foldl_keeps _ _ _ _ (fun a x ha => ?_) ?_)
    | (with_reducible refine whenDo_keeps _ _ _ _ (fun a ha => ?_) ?_)
    | split

theorem execVlinkRestored_keeps (s : State) (t : State) (h : execVlinkRestored s = .next t) : Keeps s (view t) := by
  unfold execVlinkRestored at h
  refine onPower_keeps _ _ _ (fun a ha => ?_) h
  try dsimp only
  repeat' first
    | with_reducible assumption
    | (simp [*, parts]; done)
    | (simp +contextual [*, parts]; done)
    | (with_reducible refine forEach_keeps _ _ _ _ (fun a x ha => ?_) ?_)
    | (with_reducible refine foldl_keeps _ _ _ _ (fun a x ha => ?_) ?_)
    | (with_reducible refine whenDo_keeps _ _ _ _ (fun a ha => ?_) ?_)
    | split

theorem execBeaconFromAbove_keeps (s : State) (t : State) (h : execBeaconFromAbove s = .next t) : Keeps s (view t) := by
  unfold execBeaconFromAbove at h
  refine onPower_keeps _ _ _ (fun a ha => ?_) h
  try dsimp only
  repeat' first
    | with_reducible assumption
    | (simp [*, parts]; done)
    | (simp +contextual [*, parts]; done)
    | (with_reducible refine forEach_keeps _ _ _ _ (fun a x ha => ?_) ?_)
    | (with_reducible refine foldl_keeps _ _ _ _ (fun a x ha => ?_) ?_)
    | (with_reducible refine whenDo_keeps _ _ _ _ (fun a ha => ?_) ?_)
    | split

theorem execHubreqRx_keeps (s : State) (t : State) (h : execHubreqRx s = .next t) : Keeps s (view t) := by
  unfold execHubreqRx at h
  refine onLink_keeps _ _ _ (fun a ha => ?_) h
  split
  · rename_i x s1 he
    have hk := takeInbox_keeps _ _ _ _ _ he ha
    simp +contextual [hk]
  · exact ha

theorem execGetNodeInfo_keeps (s : State) (t : State) (h : execGetNodeInfo s = .next t) : Keeps s (view t) := by
  unfold execGetNodeInfo at h
  refine hubRow_keeps _ _ _ _ (fun a x ha => ?_) h
  repeat' first
    | with_reducible assumption
    | (simp [*, parts]; done)
    | (simp +contextual [*, parts]; done)
    | (with_reducible refine forEach_keeps _ _ _ _ (fun a x ha => ?_) ?_)
    | (with_reducible refine foldl_keeps _ _ _ _ (fun a x ha => ?_) ?_)
    | (with_reducible refine whenDo_keeps _ _ _ _ (fun a ha => ?_) ?_)
    | split

theorem execGetPortStatus_keeps (s : State) (t : State) (h : execGetPortStatus s = .next t) : Keeps s (view t) := by
  unfold execGetPortStatus at h
  refine hubRow_keeps _ _ _ _ (fun a x ha => ?_) h
  repeat' first
    | with_reducible assumption
    | (simp [*, parts]; done)
    | (simp +contextual [*, parts]; done)
    | (with_reducible refine forEach_keeps _ _ _ _ (fun a x ha => ?_) ?_)
    | (with_reducible refine foldl_keeps _ _ _ _ (fun a x ha => ?_) ?_)
    | (with_reducible refine whenDo_keeps _ _ _ _ (fun a ha => ?_) ?_)
    | split

theorem execGetMeter_keeps (s : State) (t : State) (h : execGetMeter s = .next t) : Keeps s (view t) := by
  unfold execGetMeter at h
  refine hubRow_keeps _ _ _ _ (fun a x ha => ?_) h
  repeat' first
    | with_reducible assumption
    | (simp [*, parts]; done)
    | (simp +contextual [*, parts]; done)
    | (with_reducible refine forEach_keeps _ _ _ _ (fun a x ha => ?_) ?_)
    | (with_reducible refine foldl_keeps _ _ _ _ (fun a x ha => ?_) ?_)
    | (with_reducible refine whenDo_keeps _ _ _ _ (fun a ha => ?_) ?_)
    | split

theorem execReadLog_keeps (s : State) (t : State) (h : execReadLog s = .next t) : Keeps s (view t) := by
  unfold execReadLog at h
  refine hubRow_keeps _ _ _ _ (fun a x ha => ?_) h
  repeat' first
    | with_reducible assumption
    | (simp [*, parts]; done)
    | (simp +contextual [*, parts]; done)
    | (with_reducible refine forEach_keeps _ _ _ _ (fun a x ha => ?_) ?_)
    | (with_reducible refine foldl_keeps _ _ _ _ (fun a x ha => ?_) ?_)
    | (with_reducible refine whenDo_keeps _ _ _ _ (fun a ha => ?_) ?_)
    | split

theorem execGetSurveyRecord_keeps (s : State) (t : State) (h : execGetSurveyRecord s = .next t) : Keeps s (view t) := by
  unfold execGetSurveyRecord at h
  refine hubRow_keeps _ _ _ _ (fun a x ha => ?_) h
  repeat' first
    | with_reducible assumption
    | (simp [*, parts]; done)
    | (simp +contextual [*, parts]; done)
    | (with_reducible refine forEach_keeps _ _ _ _ (fun a x ha => ?_) ?_)
    | (with_reducible refine foldl_keeps _ _ _ _ (fun a x ha => ?_) ?_)
    | (with_reducible refine whenDo_keeps _ _ _ _ (fun a ha => ?_) ?_)
    | split

theorem execSetAddress_keeps (s : State) (t : State) (h : execSetAddress s = .next t) : Keeps s (view t) := by
  unfold execSetAddress at h
  refine hubRow_keeps _ _ _ _ (fun a x ha => ?_) h
  repeat' first
    | with_reducible assumption
    | (simp [*, parts]; done)
    | (simp +contextual [*, parts]; done)
    | (with_reducible refine forEach_keeps _ _ _ _ (fun a x ha => ?_) ?_)
    | (with_reducible refine foldl_keeps _ _ _ _ (fun a x ha => ?_) ?_)
    | (with_reducible refine whenDo_keeps _ _ _ _ (fun a ha => ?_) ?_)
    | split

theorem execSetPortFeatureEnable_keeps (s : State) (t : State) (h : execSetPortFeatureEnable s = .next t) : Keeps s (view t) := by
  unfold execSetPortFeatureEnable at h
  refine featureRow_keeps _ _ _ _ _ _ (fun a m ha => ?_) h
  try dsimp only
  repeat' first
    | with_reducible assumption
    | (simp [*, parts]; done)
    | (simp +contextual [*, parts]; done)
    | (with_reducible refine forEach_keeps _ _ _ _ (fun a x ha => ?_) ?_)
    | (with_reducible refine foldl_keeps _ _ _ _ (fun a x ha => ?_) ?_)
    | (with_reducible refine whenDo_keeps _ _ _ _ (fun a ha => ?_) ?_)
    | split

theorem execClearPortFeatureEnable_keeps (s : State) (t : State) (h : execClearPortFeatureEnable s = .next t) : Keeps s (view t) := by
  unfold execClearPortFeatureEnable at h
  refine featureRow_keeps _ _ _ _ _ _ (fun a m ha => ?_) h
  try dsimp only
  repeat' first
    | with_reducible assumption
    | (simp [*, parts]; done)
    | (simp +contextual [*, parts]; done)
    | (with_reducible refine forEach_keeps _ _ _ _ (fun a x ha => ?_) ?_)
    | (with_reducible refine foldl_keeps _ _ _ _ (fun a x ha => ?_) ?_)
    | (with_reducible refine whenDo_keeps _ _ _ _ (fun a ha => ?_) ?_)
    | split

theorem execSetPortFeatureRetrain_keeps (s : State) (t : State) (h : execSetPortFeatureRetrain s = .next t) : Keeps s (view t) := by
  unfold execSetPortFeatureRetrain at h
  refine featureRow_keeps _ _ _ _ _ _ (fun a m ha => ?_) h
  try dsimp only
  repeat' first
    | with_reducible assumption
    | (simp [*, parts]; done)
    | (simp +contextual [*, parts]; done)
    | (with_reducible refine forEach_keeps _ _ _ _ (fun a x ha => ?_) ?_)
    | (with_reducible refine foldl_keeps _ _ _ _ (fun a x ha => ?_) ?_)
    | (with_reducible refine whenDo_keeps _ _ _ _ (fun a ha => ?_) ?_)
    | split

theorem execClearPortFeatureEvents_keeps (s : State) (t : State) (h : execClearPortFeatureEvents s = .next t) : Keeps s (view t) := by
  unfold execClearPortFeatureEvents at h
  refine featureRow_keeps _ _ _ _ _ _ (fun a m ha => ?_) h
  try dsimp only
  repeat' first
    | with_reducible assumption
    | (simp [*, parts]; done)
    | (simp +contextual [*, parts]; done)
    | (with_reducible refine forEach_keeps _ _ _ _ (fun a x ha => ?_) ?_)
    | (with_reducible refine foldl_keeps _ _ _ _ (fun a x ha => ?_) ?_)
    | (with_reducible refine whenDo_keeps _ _ _ _ (fun a ha => ?_) ?_)
    | split

theorem execSetPortFeaturePortReset_keeps (s : State) (t : State) (h : execSetPortFeaturePortReset s = .next t) : Keeps s (view t) := by
  unfold execSetPortFeaturePortReset at h
  refine featureRow_keeps _ _ _ _ _ _ (fun a m ha => ?_) h
  try dsimp only
  repeat' first
    | with_reducible assumption
    | (simp [*, parts]; done)
    | (simp +contextual [*, parts]; done)
    | (with_reducible refine forEach_keeps _ _ _ _ (fun a x ha => ?_) ?_)
    | (with_reducible refine foldl_keeps _ _ _ _ (fun a x ha => ?_) ?_)
    | (with_reducible refine whenDo_keeps _ _ _ _ (fun a ha => ?_) ?_)
    | split

theorem execSetPortFeatureFrag_keeps (s : State) (t : State) (h : execSetPortFeatureFrag s = .next t) : Keeps s (view t) := by
  unfold execSetPortFeatureFrag at h
  refine featureRow_keeps _ _ _ _ _ _ (fun a m ha => ?_) h
  try dsimp only
  repeat' first
    | with_reducible assumption
    | (simp [*, parts]; done)
    | (simp +contextual [*, parts]; done)
    | (with_reducible refine forEach_keeps _ _ _ _ (fun a x ha => ?_) ?_)
    | (with_reducible refine foldl_keeps _ _ _ _ (fun a x ha => ?_) ?_)
    | (with_reducible refine whenDo_keeps _ _ _ _ (fun a ha => ?_) ?_)
    | split

theorem execClearPortFeatureFrag_keeps (s : State) (t : State) (h : execClearPortFeatureFrag s = .next t) : Keeps s (view t) := by
  unfold execClearPortFeatureFrag at h
  refine featureRow_keeps _ _ _ _ _ _ (fun a m ha => ?_) h
  try dsimp only
  repeat' first
    | with_reducible assumption
    | (simp [*, parts]; done)
    | (simp +contextual [*, parts]; done)
    | (with_reducible refine forEach_keeps _ _ _ _ (fun a x ha => ?_) ?_)
    | (with_reducible refine foldl_keeps _ _ _ _ (fun a x ha => ?_) ?_)
    | (with_reducible refine whenDo_keeps _ _ _ _ (fun a ha => ?_) ?_)
    | split

theorem execSetPortFeatureSuspend_keeps (s : State) (t : State) (h : execSetPortFeatureSuspend s = .next t) : Keeps s (view t) := by
  unfold execSetPortFeatureSuspend at h
  refine featureRow_keeps _ _ _ _ _ _ (fun a m ha => ?_) h
  try dsimp only
  repeat' first
    | with_reducible assumption
    | (simp [*, parts]; done)
    | (simp +contextual [*, parts]; done)
    | (with_reducible refine forEach_keeps _ _ _ _ (fun a x ha => ?_) ?_)
    | (with_reducible refine foldl_keeps _ _ _ _ (fun a x ha => ?_) ?_)
    | (with_reducible refine whenDo_keeps _ _ _ _ (fun a ha => ?_) ?_)
    | split

theorem execClearPortFeatureSuspend_keeps (s : State) (t : State) (h : execClearPortFeatureSuspend s = .next t) : Keeps s (view t) := by
  unfold execClearPortFeatureSuspend at h
  refine featureRow_keeps _ _ _ _ _ _ (fun a m ha => ?_) h
  try dsimp only
  repeat' first
    | with_reducible assumption
    | (simp [*, parts]; done)
    | (simp +contextual [*, parts]; done)
    | (with_reducible refine forEach_keeps _ _ _ _ (fun a x ha => ?_) ?_)
    | (with_reducible refine foldl_keeps _ _ _ _ (fun a x ha => ?_) ?_)
    | (with_reducible refine whenDo_keeps _ _ _ _ (fun a ha => ?_) ?_)
    | split

theorem execSetPortFeatureBcnFwd_keeps (s : State) (t : State) (h : execSetPortFeatureBcnFwd s = .next t) : Keeps s (view t) := by
  unfold execSetPortFeatureBcnFwd at h
  refine featureRow_keeps _ _ _ _ _ _ (fun a m ha => ?_) h
  try dsimp only
  repeat' first
    | with_reducible assumption
    | (simp [*, parts]; done)
    | (simp +contextual [*, parts]; done)
    | (with_reducible refine forEach_keeps _ _ _ _ (fun a x ha => ?_) ?_)
    | (with_reducible refine foldl_keeps _ _ _ _ (fun a x ha => ?_) ?_)
    | (with_reducible refine whenDo_keeps _ _ _ _ (fun a ha => ?_) ?_)
    | split

theorem execClearPortFeatureBcnFwd_keeps (s : State) (t : State) (h : execClearPortFeatureBcnFwd s = .next t) : Keeps s (view t) := by
  unfold execClearPortFeatureBcnFwd at h
  refine featureRow_keeps _ _ _ _ _ _ (fun a m ha => ?_) h
  try dsimp only
  repeat' first
    | with_reducible assumption
    | (simp [*, parts]; done)
    | (simp +contextual [*, parts]; done)
    | (with_reducible refine forEach_keeps _ _ _ _ (fun a x ha => ?_) ?_)
    | (with_reducible refine foldl_keeps _ _ _ _ (fun a x ha => ?_) ?_)
    | (with_reducible refine whenDo_keeps _ _ _ _ (fun a ha => ?_) ?_)
    | split

theorem execSetRoute_keeps (s : State) (t : State) (h : execSetRoute s = .next t) : Keeps s (view t) := by
  unfold execSetRoute at h
  refine hubRow_keeps _ _ _ _ (fun a x ha => ?_) h
  repeat' first
    | with_reducible assumption
    | (simp [*, parts]; done)
    | (simp +contextual [*, parts]; done)
    | (with_reducible refine forEach_keeps _ _ _ _ (fun a x ha => ?_) ?_)
    | (with_reducible refine foldl_keeps _ _ _ _ (fun a x ha => ?_) ?_)
    | (with_reducible refine whenDo_keeps _ _ _ _ (fun a ha => ?_) ?_)
    | split

theorem execSetMcast_keeps (s : State) (t : State) (h : execSetMcast s = .next t) : Keeps s (view t) := by
  unfold execSetMcast at h
  refine hubRow_keeps _ _ _ _ (fun a x ha => ?_) h
  repeat' first
    | with_reducible assumption
    | (simp [*, parts]; done)
    | (simp +contextual [*, parts]; done)
    | (with_reducible refine forEach_keeps _ _ _ _ (fun a x ha => ?_) ?_)
    | (with_reducible refine foldl_keeps _ _ _ _ (fun a x ha => ?_) ?_)
    | (with_reducible refine whenDo_keeps _ _ _ _ (fun a ha => ?_) ?_)
    | split

theorem execSetSchedule_keeps (s : State) (t : State) (h : execSetSchedule s = .next t) : Keeps s (view t) := by
  unfold execSetSchedule at h
  refine hubRow_keeps _ _ _ _ (fun a x ha => ?_) h
  repeat' first
    | with_reducible assumption
    | (simp [*, parts]; done)
    | (simp +contextual [*, parts]; done)
    | (with_reducible refine forEach_keeps _ _ _ _ (fun a x ha => ?_) ?_)
    | (with_reducible refine foldl_keeps _ _ _ _ (fun a x ha => ?_) ?_)
    | (with_reducible refine whenDo_keeps _ _ _ _ (fun a ha => ?_) ?_)
    | split

theorem execSetCrew_keeps (s : State) (t : State) (h : execSetCrew s = .next t) : Keeps s (view t) := by
  unfold execSetCrew at h
  refine hubRow_keeps _ _ _ _ (fun a x ha => ?_) h
  repeat' first
    | with_reducible assumption
    | (simp [*, parts]; done)
    | (simp +contextual [*, parts]; done)
    | (with_reducible refine forEach_keeps _ _ _ _ (fun a x ha => ?_) ?_)
    | (with_reducible refine foldl_keeps _ _ _ _ (fun a x ha => ?_) ?_)
    | (with_reducible refine whenDo_keeps _ _ _ _ (fun a ha => ?_) ?_)
    | split

theorem execSetClockPlan_keeps (s : State) (t : State) (h : execSetClockPlan s = .next t) : Keeps s (view t) := by
  unfold execSetClockPlan at h
  refine hubRow_keeps _ _ _ _ (fun a x ha => ?_) h
  repeat' first
    | with_reducible assumption
    | (simp [*, parts]; done)
    | (simp +contextual [*, parts]; done)
    | (with_reducible refine forEach_keeps _ _ _ _ (fun a x ha => ?_) ?_)
    | (with_reducible refine foldl_keeps _ _ _ _ (fun a x ha => ?_) ?_)
    | (with_reducible refine whenDo_keeps _ _ _ _ (fun a ha => ?_) ?_)
    | split

theorem execSetPortPower_keeps (s : State) (t : State) (h : execSetPortPower s = .next t) : Keeps s (view t) := by
  unfold execSetPortPower at h
  refine hubRow_keeps _ _ _ _ (fun a x ha => ?_) h
  repeat' first
    | with_reducible assumption
    | (simp [*, parts]; done)
    | (simp +contextual [*, parts]; done)
    | (with_reducible refine forEach_keeps _ _ _ _ (fun a x ha => ?_) ?_)
    | (with_reducible refine foldl_keeps _ _ _ _ (fun a x ha => ?_) ?_)
    | (with_reducible refine whenDo_keeps _ _ _ _ (fun a ha => ?_) ?_)
    | split

theorem execServiceWatchdog_keeps (s : State) (t : State) (h : execServiceWatchdog s = .next t) : Keeps s (view t) := by
  unfold execServiceWatchdog at h
  refine hubRow_keeps _ _ _ _ (fun a x ha => ?_) h
  repeat' first
    | with_reducible assumption
    | (simp [*, parts]; done)
    | (simp +contextual [*, parts]; done)
    | (with_reducible refine forEach_keeps _ _ _ _ (fun a x ha => ?_) ?_)
    | (with_reducible refine foldl_keeps _ _ _ _ (fun a x ha => ?_) ?_)
    | (with_reducible refine whenDo_keeps _ _ _ _ (fun a ha => ?_) ?_)
    | split

theorem execSetBudget_keeps (s : State) (t : State) (h : execSetBudget s = .next t) : Keeps s (view t) := by
  unfold execSetBudget at h
  refine hubRow_keeps _ _ _ _ (fun a x ha => ?_) h
  repeat' first
    | with_reducible assumption
    | (simp [*, parts]; done)
    | (simp +contextual [*, parts]; done)
    | (with_reducible refine forEach_keeps _ _ _ _ (fun a x ha => ?_) ?_)
    | (with_reducible refine foldl_keeps _ _ _ _ (fun a x ha => ?_) ?_)
    | (with_reducible refine whenDo_keeps _ _ _ _ (fun a ha => ?_) ?_)
    | split

theorem execPortResetRx_keeps (s : State) (t : State) (h : execPortResetRx s = .next t) : Keeps s (view t) := by
  unfold execPortResetRx at h
  refine onLink_keeps _ _ _ (fun a ha => ?_) h
  try dsimp only
  repeat' first
    | with_reducible assumption
    | (simp [*, parts]; done)
    | (simp +contextual [*, parts]; done)
    | (with_reducible refine forEach_keeps _ _ _ _ (fun a x ha => ?_) ?_)
    | (with_reducible refine foldl_keeps _ _ _ _ (fun a x ha => ?_) ?_)
    | (with_reducible refine whenDo_keeps _ _ _ _ (fun a ha => ?_) ?_)
    | (with_reducible refine onRx_keeps _ _ _ _ (fun a ha => ?_) ?_)
    | split

theorem execTreeReset_keeps (s : State) (t : State) (h : execTreeReset s = .next t) : Keeps s (view t) := by
  unfold execTreeReset at h
  refine onLink_keeps _ _ _ (fun a ha => ?_) h
  try dsimp only
  repeat' first
    | with_reducible assumption
    | (simp [*, parts]; done)
    | (simp +contextual [*, parts]; done)
    | (with_reducible refine forEach_keeps _ _ _ _ (fun a x ha => ?_) ?_)
    | (with_reducible refine foldl_keeps _ _ _ _ (fun a x ha => ?_) ?_)
    | (with_reducible refine whenDo_keeps _ _ _ _ (fun a ha => ?_) ?_)
    | (with_reducible refine onRx_keeps _ _ _ _ (fun a ha => ?_) ?_)
    | split

theorem execRstDriveEnd_keeps (ports : Word) (s : State) (t : State) (h : execRstDriveEnd ports s = .next t) : Keeps s (view t) := by
  unfold execRstDriveEnd at h
  refine onLink_keeps _ _ _ (fun a ha => ?_) h
  try dsimp only
  repeat' first
    | with_reducible assumption
    | (simp [*, parts]; done)
    | (simp +contextual [*, parts]; done)
    | (with_reducible refine forEach_keeps _ _ _ _ (fun a x ha => ?_) ?_)
    | (with_reducible refine foldl_keeps _ _ _ _ (fun a x ha => ?_) ?_)
    | (with_reducible refine whenDo_keeps _ _ _ _ (fun a ha => ?_) ?_)
    | (with_reducible refine onRx_keeps _ _ _ _ (fun a ha => ?_) ?_)
    | split

end Sys2Proof.Machine
end

