-- ==== Sys2Proof/Laws/Only.lean ====
section
/-! SUPPORT. The laws of outcomes and of frames: what a row does when its die runs, how frames compose, and
the frame of each shared operation. -/

namespace Sys2Proof.Machine

open Sys2Proof Sys2Proof.Safety

@[simp] theorem whenDo_true (f : State → State) (s : State) : whenDo true f s = f s := rfl

@[simp] theorem whenDo_false (f : State → State) (s : State) : whenDo false f s = s := rfl

theorem onLink_on (s : State) (f : State → State) (h : linkOn s = true) : onLink s f = .next (f s) := by
  simp [onLink, h]

theorem onLink_off (s : State) (f : State → State) (h : linkOn s = false) : onLink s f = .next s := by
  simp [onLink, h]

theorem onPower_on (s : State) (f : State → State) (h : powerOn s = true) : onPower s f = .next (f s) := by
  simp [onPower, h]

theorem onPower_off (s : State) (f : State → State) (h : powerOn s = false) : onPower s f = .next s := by
  simp [onPower, h]

theorem powerOn_of_linkOn (s : State) (h : linkOn s = true) : powerOn s = true := by
  simp only [linkOn, powerOn, Bool.and_eq_true] at h ⊢
  exact ⟨h.1.2, h.2⟩

theorem only_refl (ps : List Part) (s : State) : only ps s s := by
  intro p _; cases p <;> rfl

theorem only_trans (ps : List Part) (s t u : State) (h1 : only ps s t) (h2 : only ps t u) : only ps s u := by
  intro p hp
  have a := h1 p hp
  have b := h2 p hp
  cases p <;> exact Eq.trans b a

theorem only_mono (ps qs : List Part) (s t : State) (h : only ps s t) (hs : ∀ p ∈ ps, p ∈ qs) : only qs s t :=
  fun p hp => h p fun x => hp (hs p x)

theorem raiseTo_only (s : State) (hit : DomN → Bool) (force : Bool) (t : Nat) (e : Ev) :
    only evParts s (raiseTo s hit force t e) := by
  intro p hp; cases p <;> first | rfl | exact absurd (by decide) hp

theorem raise_only (s : State) (e : Ev) : only evParts s (raise s e) := by
  unfold raise; split
  · exact raiseTo_only _ _ _ _ _
  · intro p hp; cases p <;> first | rfl | exact absurd (by decide) hp

theorem raiseDom_only (s : State) (d : DomN) (force : Bool) (e : Ev) : only evParts s (raiseDom s d force e) :=
  raiseTo_only _ _ _ _ _

theorem bbLink_only (s : State) (code src : Nat) (w2 w3 : Word) : only [.que, .bb] s (bbLink s code src w2 w3) := by
  intro p hp; cases p <;> first | rfl | exact absurd (by decide) hp

theorem bbPow_only (s : State) (code src : Nat) (w2 w3 : Word) : only [.bb] s (bbPow s code src w2 w3) := by
  intro p hp; cases p <;> first | rfl | exact absurd (by decide) hp

theorem modPort_only (s : State) (n : PortN) (f : Port → Port) : only [.ports] s (modPort s n f) := by
  intro p hp; cases p <;> first | rfl | exact absurd (by decide) hp

theorem emit_only (s : State) (o : Out) : only [.out] s (emit s o) := by
  intro p hp; cases p <;> first | rfl | exact absurd (by decide) hp

theorem portEvt_only (s : State) (n : PortN) (bits : Word) : only (.ports :: evParts) s (portEvt s n bits) := by
  unfold portEvt
  dsimp only
  split
  · exact only_mono _ _ _ _ (modPort_only _ _ _) (by decide)
  · exact only_trans _ _ _ _ (only_mono _ _ _ _ (modPort_only _ _ _) (by decide))
      (only_mono _ _ _ _ (raise_only _ _) (by decide))

end Sys2Proof.Machine
end

