-- ==== Sys2Proof/Laws/State.lean ====
section
/-! SUPPORT. The laws of State: what each shared update leaves alone, field by field, and what the element
that it changes reads as afterwards. -/

namespace Sys2Proof.Machine

open Sys2Proof

/-! ## Vectors -/

@[simp] theorem vMod_get_self {α : Type} {n : Nat} (v : Vector α n) (i : Fin n) (f : α → α) :
    (vMod v i f)[i] = f v[i] := by
  simp [vMod]

theorem vMod_get_ne {α : Type} {n : Nat} (v : Vector α n) (i j : Fin n) (f : α → α) (h : j ≠ i) :
    (vMod v i f)[j] = v[j] := by
  have : i.val ≠ j.val := fun e => h (Fin.ext e.symm)
  simp [vMod, this]

/-! ## emit -/

@[simp] theorem emit_pending (s : State) (o : Out) : (emit s o).pending = s.pending := rfl

@[simp] theorem emit_fresh (s : State) (o : Out) : (emit s o).fresh = s.fresh := rfl

@[simp] theorem emit_rst (s : State) (o : Out) : (emit s o).rst = s.rst := rfl

@[simp] theorem emit_pm (s : State) (o : Out) : (emit s o).pm = s.pm := rfl

@[simp] theorem emit_wdt (s : State) (o : Out) : (emit s o).wdt = s.wdt := rfl

@[simp] theorem emit_bb (s : State) (o : Out) : (emit s o).bb = s.bb := rfl

@[simp] theorem emit_pps (s : State) (o : Out) : (emit s o).pps = s.pps := rfl

@[simp] theorem emit_ppsg (s : State) (o : Out) : (emit s o).ppsg = s.ppsg := rfl

@[simp] theorem emit_mtr (s : State) (o : Out) : (emit s o).mtr = s.mtr := rfl

@[simp] theorem emit_aon (s : State) (o : Out) : (emit s o).aon = s.aon := rfl

@[simp] theorem emit_mg (s : State) (o : Out) : (emit s o).mg = s.mg := rfl

@[simp] theorem emit_glob (s : State) (o : Out) : (emit s o).glob = s.glob := rfl

@[simp] theorem emit_clk (s : State) (o : Out) : (emit s o).clk = s.clk := rfl

@[simp] theorem emit_pcie (s : State) (o : Out) : (emit s o).pcie = s.pcie := rfl

@[simp] theorem emit_doms (s : State) (o : Out) : (emit s o).doms = s.doms := rfl

@[simp] theorem emit_ln (s : State) (o : Out) : (emit s o).ln = s.ln := rfl

@[simp] theorem emit_hma (s : State) (o : Out) : (emit s o).hma = s.hma := rfl

@[simp] theorem emit_ula (s : State) (o : Out) : (emit s o).ula = s.ula := rfl

@[simp] theorem emit_que (s : State) (o : Out) : (emit s o).que = s.que := rfl

@[simp] theorem emit_fl (s : State) (o : Out) : (emit s o).fl = s.fl := rfl

@[simp] theorem emit_ports (s : State) (o : Out) : (emit s o).ports = s.ports := rfl

@[simp] theorem emit_bus (s : State) (o : Out) : (emit s o).bus = s.bus := rfl

@[simp] theorem emit_tt (s : State) (o : Out) : (emit s o).tt = s.tt := rfl

@[simp] theorem emit_tb (s : State) (o : Out) : (emit s o).tb = s.tb := rfl

@[simp] theorem emit_cen (s : State) (o : Out) : (emit s o).cen = s.cen := rfl

@[simp] theorem emit_sur (s : State) (o : Out) : (emit s o).sur = s.sur := rfl

@[simp] theorem linkOn_emit (s : State) (o : Out) : linkOn (emit s o) = linkOn s := rfl

@[simp] theorem powerOn_emit (s : State) (o : Out) : powerOn (emit s o) = powerOn s := rfl

/-! ## emits -/

@[simp] theorem emits_pending (s : State) (os : List Out) : (emits s os).pending = s.pending := rfl

@[simp] theorem emits_fresh (s : State) (os : List Out) : (emits s os).fresh = s.fresh := rfl

@[simp] theorem emits_rst (s : State) (os : List Out) : (emits s os).rst = s.rst := rfl

@[simp] theorem emits_pm (s : State) (os : List Out) : (emits s os).pm = s.pm := rfl

@[simp] theorem emits_wdt (s : State) (os : List Out) : (emits s os).wdt = s.wdt := rfl

@[simp] theorem emits_bb (s : State) (os : List Out) : (emits s os).bb = s.bb := rfl

@[simp] theorem emits_pps (s : State) (os : List Out) : (emits s os).pps = s.pps := rfl

@[simp] theorem emits_ppsg (s : State) (os : List Out) : (emits s os).ppsg = s.ppsg := rfl

@[simp] theorem emits_mtr (s : State) (os : List Out) : (emits s os).mtr = s.mtr := rfl

@[simp] theorem emits_aon (s : State) (os : List Out) : (emits s os).aon = s.aon := rfl

@[simp] theorem emits_mg (s : State) (os : List Out) : (emits s os).mg = s.mg := rfl

@[simp] theorem emits_glob (s : State) (os : List Out) : (emits s os).glob = s.glob := rfl

@[simp] theorem emits_clk (s : State) (os : List Out) : (emits s os).clk = s.clk := rfl

@[simp] theorem emits_pcie (s : State) (os : List Out) : (emits s os).pcie = s.pcie := rfl

@[simp] theorem emits_doms (s : State) (os : List Out) : (emits s os).doms = s.doms := rfl

@[simp] theorem emits_ln (s : State) (os : List Out) : (emits s os).ln = s.ln := rfl

@[simp] theorem emits_hma (s : State) (os : List Out) : (emits s os).hma = s.hma := rfl

@[simp] theorem emits_ula (s : State) (os : List Out) : (emits s os).ula = s.ula := rfl

@[simp] theorem emits_que (s : State) (os : List Out) : (emits s os).que = s.que := rfl

@[simp] theorem emits_fl (s : State) (os : List Out) : (emits s os).fl = s.fl := rfl

@[simp] theorem emits_ports (s : State) (os : List Out) : (emits s os).ports = s.ports := rfl

@[simp] theorem emits_bus (s : State) (os : List Out) : (emits s os).bus = s.bus := rfl

@[simp] theorem emits_tt (s : State) (os : List Out) : (emits s os).tt = s.tt := rfl

@[simp] theorem emits_tb (s : State) (os : List Out) : (emits s os).tb = s.tb := rfl

@[simp] theorem emits_cen (s : State) (os : List Out) : (emits s os).cen = s.cen := rfl

@[simp] theorem emits_sur (s : State) (os : List Out) : (emits s os).sur = s.sur := rfl

@[simp] theorem linkOn_emits (s : State) (os : List Out) : linkOn (emits s os) = linkOn s := rfl

@[simp] theorem powerOn_emits (s : State) (os : List Out) : powerOn (emits s os) = powerOn s := rfl

/-! ## bump -/

@[simp] theorem bump_pending (s : State) : (bump s).pending = s.pending := rfl

@[simp] theorem bump_out (s : State) : (bump s).out = s.out := rfl

@[simp] theorem bump_rst (s : State) : (bump s).rst = s.rst := rfl

@[simp] theorem bump_pm (s : State) : (bump s).pm = s.pm := rfl

@[simp] theorem bump_wdt (s : State) : (bump s).wdt = s.wdt := rfl

@[simp] theorem bump_bb (s : State) : (bump s).bb = s.bb := rfl

@[simp] theorem bump_pps (s : State) : (bump s).pps = s.pps := rfl

@[simp] theorem bump_ppsg (s : State) : (bump s).ppsg = s.ppsg := rfl

@[simp] theorem bump_mtr (s : State) : (bump s).mtr = s.mtr := rfl

@[simp] theorem bump_aon (s : State) : (bump s).aon = s.aon := rfl

@[simp] theorem bump_mg (s : State) : (bump s).mg = s.mg := rfl

@[simp] theorem bump_glob (s : State) : (bump s).glob = s.glob := rfl

@[simp] theorem bump_clk (s : State) : (bump s).clk = s.clk := rfl

@[simp] theorem bump_pcie (s : State) : (bump s).pcie = s.pcie := rfl

@[simp] theorem bump_doms (s : State) : (bump s).doms = s.doms := rfl

@[simp] theorem bump_ln (s : State) : (bump s).ln = s.ln := rfl

@[simp] theorem bump_hma (s : State) : (bump s).hma = s.hma := rfl

@[simp] theorem bump_ula (s : State) : (bump s).ula = s.ula := rfl

@[simp] theorem bump_que (s : State) : (bump s).que = s.que := rfl

@[simp] theorem bump_fl (s : State) : (bump s).fl = s.fl := rfl

@[simp] theorem bump_ports (s : State) : (bump s).ports = s.ports := rfl

@[simp] theorem bump_bus (s : State) : (bump s).bus = s.bus := rfl

@[simp] theorem bump_tt (s : State) : (bump s).tt = s.tt := rfl

@[simp] theorem bump_tb (s : State) : (bump s).tb = s.tb := rfl

@[simp] theorem bump_cen (s : State) : (bump s).cen = s.cen := rfl

@[simp] theorem bump_sur (s : State) : (bump s).sur = s.sur := rfl

@[simp] theorem linkOn_bump (s : State) : linkOn (bump s) = linkOn s := rfl

@[simp] theorem powerOn_bump (s : State) : powerOn (bump s) = powerOn s := rfl

/-! ## modPort -/

@[simp] theorem modPort_pending (s : State) (n : PortN) (f : Port → Port) : (modPort s n f).pending = s.pending := rfl

@[simp] theorem modPort_fresh (s : State) (n : PortN) (f : Port → Port) : (modPort s n f).fresh = s.fresh := rfl

@[simp] theorem modPort_out (s : State) (n : PortN) (f : Port → Port) : (modPort s n f).out = s.out := rfl

@[simp] theorem modPort_rst (s : State) (n : PortN) (f : Port → Port) : (modPort s n f).rst = s.rst := rfl

@[simp] theorem modPort_pm (s : State) (n : PortN) (f : Port → Port) : (modPort s n f).pm = s.pm := rfl

@[simp] theorem modPort_wdt (s : State) (n : PortN) (f : Port → Port) : (modPort s n f).wdt = s.wdt := rfl

@[simp] theorem modPort_bb (s : State) (n : PortN) (f : Port → Port) : (modPort s n f).bb = s.bb := rfl

@[simp] theorem modPort_pps (s : State) (n : PortN) (f : Port → Port) : (modPort s n f).pps = s.pps := rfl

@[simp] theorem modPort_ppsg (s : State) (n : PortN) (f : Port → Port) : (modPort s n f).ppsg = s.ppsg := rfl

@[simp] theorem modPort_mtr (s : State) (n : PortN) (f : Port → Port) : (modPort s n f).mtr = s.mtr := rfl

@[simp] theorem modPort_aon (s : State) (n : PortN) (f : Port → Port) : (modPort s n f).aon = s.aon := rfl

@[simp] theorem modPort_mg (s : State) (n : PortN) (f : Port → Port) : (modPort s n f).mg = s.mg := rfl

@[simp] theorem modPort_glob (s : State) (n : PortN) (f : Port → Port) : (modPort s n f).glob = s.glob := rfl

@[simp] theorem modPort_clk (s : State) (n : PortN) (f : Port → Port) : (modPort s n f).clk = s.clk := rfl

@[simp] theorem modPort_pcie (s : State) (n : PortN) (f : Port → Port) : (modPort s n f).pcie = s.pcie := rfl

@[simp] theorem modPort_doms (s : State) (n : PortN) (f : Port → Port) : (modPort s n f).doms = s.doms := rfl

@[simp] theorem modPort_ln (s : State) (n : PortN) (f : Port → Port) : (modPort s n f).ln = s.ln := rfl

@[simp] theorem modPort_hma (s : State) (n : PortN) (f : Port → Port) : (modPort s n f).hma = s.hma := rfl

@[simp] theorem modPort_ula (s : State) (n : PortN) (f : Port → Port) : (modPort s n f).ula = s.ula := rfl

@[simp] theorem modPort_que (s : State) (n : PortN) (f : Port → Port) : (modPort s n f).que = s.que := rfl

@[simp] theorem modPort_fl (s : State) (n : PortN) (f : Port → Port) : (modPort s n f).fl = s.fl := rfl

@[simp] theorem modPort_bus (s : State) (n : PortN) (f : Port → Port) : (modPort s n f).bus = s.bus := rfl

@[simp] theorem modPort_tt (s : State) (n : PortN) (f : Port → Port) : (modPort s n f).tt = s.tt := rfl

@[simp] theorem modPort_tb (s : State) (n : PortN) (f : Port → Port) : (modPort s n f).tb = s.tb := rfl

@[simp] theorem modPort_cen (s : State) (n : PortN) (f : Port → Port) : (modPort s n f).cen = s.cen := rfl

@[simp] theorem modPort_sur (s : State) (n : PortN) (f : Port → Port) : (modPort s n f).sur = s.sur := rfl

@[simp] theorem linkOn_modPort (s : State) (n : PortN) (f : Port → Port) : linkOn (modPort s n f) = linkOn s := rfl

@[simp] theorem powerOn_modPort (s : State) (n : PortN) (f : Port → Port) : powerOn (modPort s n f) = powerOn s := rfl

/-! ## modAon -/

@[simp] theorem modAon_pending (s : State) (n : PortN) (f : AonPort → AonPort) : (modAon s n f).pending = s.pending := rfl

@[simp] theorem modAon_fresh (s : State) (n : PortN) (f : AonPort → AonPort) : (modAon s n f).fresh = s.fresh := rfl

@[simp] theorem modAon_out (s : State) (n : PortN) (f : AonPort → AonPort) : (modAon s n f).out = s.out := rfl

@[simp] theorem modAon_rst (s : State) (n : PortN) (f : AonPort → AonPort) : (modAon s n f).rst = s.rst := rfl

@[simp] theorem modAon_pm (s : State) (n : PortN) (f : AonPort → AonPort) : (modAon s n f).pm = s.pm := rfl

@[simp] theorem modAon_wdt (s : State) (n : PortN) (f : AonPort → AonPort) : (modAon s n f).wdt = s.wdt := rfl

@[simp] theorem modAon_bb (s : State) (n : PortN) (f : AonPort → AonPort) : (modAon s n f).bb = s.bb := rfl

@[simp] theorem modAon_pps (s : State) (n : PortN) (f : AonPort → AonPort) : (modAon s n f).pps = s.pps := rfl

@[simp] theorem modAon_ppsg (s : State) (n : PortN) (f : AonPort → AonPort) : (modAon s n f).ppsg = s.ppsg := rfl

@[simp] theorem modAon_mtr (s : State) (n : PortN) (f : AonPort → AonPort) : (modAon s n f).mtr = s.mtr := rfl

@[simp] theorem modAon_mg (s : State) (n : PortN) (f : AonPort → AonPort) : (modAon s n f).mg = s.mg := rfl

@[simp] theorem modAon_glob (s : State) (n : PortN) (f : AonPort → AonPort) : (modAon s n f).glob = s.glob := rfl

@[simp] theorem modAon_clk (s : State) (n : PortN) (f : AonPort → AonPort) : (modAon s n f).clk = s.clk := rfl

@[simp] theorem modAon_pcie (s : State) (n : PortN) (f : AonPort → AonPort) : (modAon s n f).pcie = s.pcie := rfl

@[simp] theorem modAon_doms (s : State) (n : PortN) (f : AonPort → AonPort) : (modAon s n f).doms = s.doms := rfl

@[simp] theorem modAon_ln (s : State) (n : PortN) (f : AonPort → AonPort) : (modAon s n f).ln = s.ln := rfl

@[simp] theorem modAon_hma (s : State) (n : PortN) (f : AonPort → AonPort) : (modAon s n f).hma = s.hma := rfl

@[simp] theorem modAon_ula (s : State) (n : PortN) (f : AonPort → AonPort) : (modAon s n f).ula = s.ula := rfl

@[simp] theorem modAon_que (s : State) (n : PortN) (f : AonPort → AonPort) : (modAon s n f).que = s.que := rfl

@[simp] theorem modAon_fl (s : State) (n : PortN) (f : AonPort → AonPort) : (modAon s n f).fl = s.fl := rfl

@[simp] theorem modAon_ports (s : State) (n : PortN) (f : AonPort → AonPort) : (modAon s n f).ports = s.ports := rfl

@[simp] theorem modAon_bus (s : State) (n : PortN) (f : AonPort → AonPort) : (modAon s n f).bus = s.bus := rfl

@[simp] theorem modAon_tt (s : State) (n : PortN) (f : AonPort → AonPort) : (modAon s n f).tt = s.tt := rfl

@[simp] theorem modAon_tb (s : State) (n : PortN) (f : AonPort → AonPort) : (modAon s n f).tb = s.tb := rfl

@[simp] theorem modAon_cen (s : State) (n : PortN) (f : AonPort → AonPort) : (modAon s n f).cen = s.cen := rfl

@[simp] theorem modAon_sur (s : State) (n : PortN) (f : AonPort → AonPort) : (modAon s n f).sur = s.sur := rfl

@[simp] theorem linkOn_modAon (s : State) (n : PortN) (f : AonPort → AonPort) : linkOn (modAon s n f) = linkOn s := rfl

@[simp] theorem powerOn_modAon (s : State) (n : PortN) (f : AonPort → AonPort) : powerOn (modAon s n f) = powerOn s := rfl

/-! ## modPps -/

@[simp] theorem modPps_pending (s : State) (m : DnN) (f : Pps → Pps) : (modPps s m f).pending = s.pending := rfl

@[simp] theorem modPps_fresh (s : State) (m : DnN) (f : Pps → Pps) : (modPps s m f).fresh = s.fresh := rfl

@[simp] theorem modPps_out (s : State) (m : DnN) (f : Pps → Pps) : (modPps s m f).out = s.out := rfl

@[simp] theorem modPps_rst (s : State) (m : DnN) (f : Pps → Pps) : (modPps s m f).rst = s.rst := rfl

@[simp] theorem modPps_pm (s : State) (m : DnN) (f : Pps → Pps) : (modPps s m f).pm = s.pm := rfl

@[simp] theorem modPps_wdt (s : State) (m : DnN) (f : Pps → Pps) : (modPps s m f).wdt = s.wdt := rfl

@[simp] theorem modPps_bb (s : State) (m : DnN) (f : Pps → Pps) : (modPps s m f).bb = s.bb := rfl

@[simp] theorem modPps_ppsg (s : State) (m : DnN) (f : Pps → Pps) : (modPps s m f).ppsg = s.ppsg := rfl

@[simp] theorem modPps_mtr (s : State) (m : DnN) (f : Pps → Pps) : (modPps s m f).mtr = s.mtr := rfl

@[simp] theorem modPps_aon (s : State) (m : DnN) (f : Pps → Pps) : (modPps s m f).aon = s.aon := rfl

@[simp] theorem modPps_mg (s : State) (m : DnN) (f : Pps → Pps) : (modPps s m f).mg = s.mg := rfl

@[simp] theorem modPps_glob (s : State) (m : DnN) (f : Pps → Pps) : (modPps s m f).glob = s.glob := rfl

@[simp] theorem modPps_clk (s : State) (m : DnN) (f : Pps → Pps) : (modPps s m f).clk = s.clk := rfl

@[simp] theorem modPps_pcie (s : State) (m : DnN) (f : Pps → Pps) : (modPps s m f).pcie = s.pcie := rfl

@[simp] theorem modPps_doms (s : State) (m : DnN) (f : Pps → Pps) : (modPps s m f).doms = s.doms := rfl

@[simp] theorem modPps_ln (s : State) (m : DnN) (f : Pps → Pps) : (modPps s m f).ln = s.ln := rfl

@[simp] theorem modPps_hma (s : State) (m : DnN) (f : Pps → Pps) : (modPps s m f).hma = s.hma := rfl

@[simp] theorem modPps_ula (s : State) (m : DnN) (f : Pps → Pps) : (modPps s m f).ula = s.ula := rfl

@[simp] theorem modPps_que (s : State) (m : DnN) (f : Pps → Pps) : (modPps s m f).que = s.que := rfl

@[simp] theorem modPps_fl (s : State) (m : DnN) (f : Pps → Pps) : (modPps s m f).fl = s.fl := rfl

@[simp] theorem modPps_ports (s : State) (m : DnN) (f : Pps → Pps) : (modPps s m f).ports = s.ports := rfl

@[simp] theorem modPps_bus (s : State) (m : DnN) (f : Pps → Pps) : (modPps s m f).bus = s.bus := rfl

@[simp] theorem modPps_tt (s : State) (m : DnN) (f : Pps → Pps) : (modPps s m f).tt = s.tt := rfl

@[simp] theorem modPps_tb (s : State) (m : DnN) (f : Pps → Pps) : (modPps s m f).tb = s.tb := rfl

@[simp] theorem modPps_cen (s : State) (m : DnN) (f : Pps → Pps) : (modPps s m f).cen = s.cen := rfl

@[simp] theorem modPps_sur (s : State) (m : DnN) (f : Pps → Pps) : (modPps s m f).sur = s.sur := rfl

@[simp] theorem linkOn_modPps (s : State) (m : DnN) (f : Pps → Pps) : linkOn (modPps s m f) = linkOn s := rfl

@[simp] theorem powerOn_modPps (s : State) (m : DnN) (f : Pps → Pps) : powerOn (modPps s m f) = powerOn s := rfl

/-! ## modDom -/

@[simp] theorem modDom_pending (s : State) (d : DomN) (f : Dom → Dom) : (modDom s d f).pending = s.pending := rfl

@[simp] theorem modDom_fresh (s : State) (d : DomN) (f : Dom → Dom) : (modDom s d f).fresh = s.fresh := rfl

@[simp] theorem modDom_out (s : State) (d : DomN) (f : Dom → Dom) : (modDom s d f).out = s.out := rfl

@[simp] theorem modDom_rst (s : State) (d : DomN) (f : Dom → Dom) : (modDom s d f).rst = s.rst := rfl

@[simp] theorem modDom_pm (s : State) (d : DomN) (f : Dom → Dom) : (modDom s d f).pm = s.pm := rfl

@[simp] theorem modDom_wdt (s : State) (d : DomN) (f : Dom → Dom) : (modDom s d f).wdt = s.wdt := rfl

@[simp] theorem modDom_bb (s : State) (d : DomN) (f : Dom → Dom) : (modDom s d f).bb = s.bb := rfl

@[simp] theorem modDom_pps (s : State) (d : DomN) (f : Dom → Dom) : (modDom s d f).pps = s.pps := rfl

@[simp] theorem modDom_ppsg (s : State) (d : DomN) (f : Dom → Dom) : (modDom s d f).ppsg = s.ppsg := rfl

@[simp] theorem modDom_mtr (s : State) (d : DomN) (f : Dom → Dom) : (modDom s d f).mtr = s.mtr := rfl

@[simp] theorem modDom_aon (s : State) (d : DomN) (f : Dom → Dom) : (modDom s d f).aon = s.aon := rfl

@[simp] theorem modDom_mg (s : State) (d : DomN) (f : Dom → Dom) : (modDom s d f).mg = s.mg := rfl

@[simp] theorem modDom_glob (s : State) (d : DomN) (f : Dom → Dom) : (modDom s d f).glob = s.glob := rfl

@[simp] theorem modDom_clk (s : State) (d : DomN) (f : Dom → Dom) : (modDom s d f).clk = s.clk := rfl

@[simp] theorem modDom_pcie (s : State) (d : DomN) (f : Dom → Dom) : (modDom s d f).pcie = s.pcie := rfl

@[simp] theorem modDom_ln (s : State) (d : DomN) (f : Dom → Dom) : (modDom s d f).ln = s.ln := rfl

@[simp] theorem modDom_hma (s : State) (d : DomN) (f : Dom → Dom) : (modDom s d f).hma = s.hma := rfl

@[simp] theorem modDom_ula (s : State) (d : DomN) (f : Dom → Dom) : (modDom s d f).ula = s.ula := rfl

@[simp] theorem modDom_que (s : State) (d : DomN) (f : Dom → Dom) : (modDom s d f).que = s.que := rfl

@[simp] theorem modDom_fl (s : State) (d : DomN) (f : Dom → Dom) : (modDom s d f).fl = s.fl := rfl

@[simp] theorem modDom_ports (s : State) (d : DomN) (f : Dom → Dom) : (modDom s d f).ports = s.ports := rfl

@[simp] theorem modDom_bus (s : State) (d : DomN) (f : Dom → Dom) : (modDom s d f).bus = s.bus := rfl

@[simp] theorem modDom_tt (s : State) (d : DomN) (f : Dom → Dom) : (modDom s d f).tt = s.tt := rfl

@[simp] theorem modDom_tb (s : State) (d : DomN) (f : Dom → Dom) : (modDom s d f).tb = s.tb := rfl

@[simp] theorem modDom_cen (s : State) (d : DomN) (f : Dom → Dom) : (modDom s d f).cen = s.cen := rfl

@[simp] theorem modDom_sur (s : State) (d : DomN) (f : Dom → Dom) : (modDom s d f).sur = s.sur := rfl

@[simp] theorem linkOn_modDom (s : State) (d : DomN) (f : Dom → Dom) : linkOn (modDom s d f) = linkOn s := rfl

@[simp] theorem powerOn_modDom (s : State) (d : DomN) (f : Dom → Dom) : powerOn (modDom s d f) = powerOn s := rfl

/-! ## modEp -/

@[simp] theorem modEp_pending (s : State) (k : EpN) (f : Ep → Ep) : (modEp s k f).pending = s.pending := rfl

@[simp] theorem modEp_fresh (s : State) (k : EpN) (f : Ep → Ep) : (modEp s k f).fresh = s.fresh := rfl

@[simp] theorem modEp_out (s : State) (k : EpN) (f : Ep → Ep) : (modEp s k f).out = s.out := rfl

@[simp] theorem modEp_rst (s : State) (k : EpN) (f : Ep → Ep) : (modEp s k f).rst = s.rst := rfl

@[simp] theorem modEp_pm (s : State) (k : EpN) (f : Ep → Ep) : (modEp s k f).pm = s.pm := rfl

@[simp] theorem modEp_wdt (s : State) (k : EpN) (f : Ep → Ep) : (modEp s k f).wdt = s.wdt := rfl

@[simp] theorem modEp_bb (s : State) (k : EpN) (f : Ep → Ep) : (modEp s k f).bb = s.bb := rfl

@[simp] theorem modEp_pps (s : State) (k : EpN) (f : Ep → Ep) : (modEp s k f).pps = s.pps := rfl

@[simp] theorem modEp_ppsg (s : State) (k : EpN) (f : Ep → Ep) : (modEp s k f).ppsg = s.ppsg := rfl

@[simp] theorem modEp_mtr (s : State) (k : EpN) (f : Ep → Ep) : (modEp s k f).mtr = s.mtr := rfl

@[simp] theorem modEp_aon (s : State) (k : EpN) (f : Ep → Ep) : (modEp s k f).aon = s.aon := rfl

@[simp] theorem modEp_mg (s : State) (k : EpN) (f : Ep → Ep) : (modEp s k f).mg = s.mg := rfl

@[simp] theorem modEp_glob (s : State) (k : EpN) (f : Ep → Ep) : (modEp s k f).glob = s.glob := rfl

@[simp] theorem modEp_clk (s : State) (k : EpN) (f : Ep → Ep) : (modEp s k f).clk = s.clk := rfl

@[simp] theorem modEp_pcie (s : State) (k : EpN) (f : Ep → Ep) : (modEp s k f).pcie = s.pcie := rfl

@[simp] theorem modEp_doms (s : State) (k : EpN) (f : Ep → Ep) : (modEp s k f).doms = s.doms := rfl

@[simp] theorem modEp_hma (s : State) (k : EpN) (f : Ep → Ep) : (modEp s k f).hma = s.hma := rfl

@[simp] theorem modEp_ula (s : State) (k : EpN) (f : Ep → Ep) : (modEp s k f).ula = s.ula := rfl

@[simp] theorem modEp_que (s : State) (k : EpN) (f : Ep → Ep) : (modEp s k f).que = s.que := rfl

@[simp] theorem modEp_fl (s : State) (k : EpN) (f : Ep → Ep) : (modEp s k f).fl = s.fl := rfl

@[simp] theorem modEp_ports (s : State) (k : EpN) (f : Ep → Ep) : (modEp s k f).ports = s.ports := rfl

@[simp] theorem modEp_bus (s : State) (k : EpN) (f : Ep → Ep) : (modEp s k f).bus = s.bus := rfl

@[simp] theorem modEp_tt (s : State) (k : EpN) (f : Ep → Ep) : (modEp s k f).tt = s.tt := rfl

@[simp] theorem modEp_tb (s : State) (k : EpN) (f : Ep → Ep) : (modEp s k f).tb = s.tb := rfl

@[simp] theorem modEp_cen (s : State) (k : EpN) (f : Ep → Ep) : (modEp s k f).cen = s.cen := rfl

@[simp] theorem modEp_sur (s : State) (k : EpN) (f : Ep → Ep) : (modEp s k f).sur = s.sur := rfl

@[simp] theorem linkOn_modEp (s : State) (k : EpN) (f : Ep → Ep) : linkOn (modEp s k f) = linkOn s := rfl

@[simp] theorem powerOn_modEp (s : State) (k : EpN) (f : Ep → Ep) : powerOn (modEp s k f) = powerOn s := rfl

/-! ## modFn -/

@[simp] theorem modFn_pending (s : State) (d : DomN) (f : Fn → Fn) : (modFn s d f).pending = s.pending := rfl

@[simp] theorem modFn_fresh (s : State) (d : DomN) (f : Fn → Fn) : (modFn s d f).fresh = s.fresh := rfl

@[simp] theorem modFn_out (s : State) (d : DomN) (f : Fn → Fn) : (modFn s d f).out = s.out := rfl

@[simp] theorem modFn_rst (s : State) (d : DomN) (f : Fn → Fn) : (modFn s d f).rst = s.rst := rfl

@[simp] theorem modFn_pm (s : State) (d : DomN) (f : Fn → Fn) : (modFn s d f).pm = s.pm := rfl

@[simp] theorem modFn_wdt (s : State) (d : DomN) (f : Fn → Fn) : (modFn s d f).wdt = s.wdt := rfl

@[simp] theorem modFn_bb (s : State) (d : DomN) (f : Fn → Fn) : (modFn s d f).bb = s.bb := rfl

@[simp] theorem modFn_pps (s : State) (d : DomN) (f : Fn → Fn) : (modFn s d f).pps = s.pps := rfl

@[simp] theorem modFn_ppsg (s : State) (d : DomN) (f : Fn → Fn) : (modFn s d f).ppsg = s.ppsg := rfl

@[simp] theorem modFn_mtr (s : State) (d : DomN) (f : Fn → Fn) : (modFn s d f).mtr = s.mtr := rfl

@[simp] theorem modFn_aon (s : State) (d : DomN) (f : Fn → Fn) : (modFn s d f).aon = s.aon := rfl

@[simp] theorem modFn_mg (s : State) (d : DomN) (f : Fn → Fn) : (modFn s d f).mg = s.mg := rfl

@[simp] theorem modFn_glob (s : State) (d : DomN) (f : Fn → Fn) : (modFn s d f).glob = s.glob := rfl

@[simp] theorem modFn_clk (s : State) (d : DomN) (f : Fn → Fn) : (modFn s d f).clk = s.clk := rfl

@[simp] theorem modFn_doms (s : State) (d : DomN) (f : Fn → Fn) : (modFn s d f).doms = s.doms := rfl

@[simp] theorem modFn_ln (s : State) (d : DomN) (f : Fn → Fn) : (modFn s d f).ln = s.ln := rfl

@[simp] theorem modFn_hma (s : State) (d : DomN) (f : Fn → Fn) : (modFn s d f).hma = s.hma := rfl

@[simp] theorem modFn_ula (s : State) (d : DomN) (f : Fn → Fn) : (modFn s d f).ula = s.ula := rfl

@[simp] theorem modFn_que (s : State) (d : DomN) (f : Fn → Fn) : (modFn s d f).que = s.que := rfl

@[simp] theorem modFn_fl (s : State) (d : DomN) (f : Fn → Fn) : (modFn s d f).fl = s.fl := rfl

@[simp] theorem modFn_ports (s : State) (d : DomN) (f : Fn → Fn) : (modFn s d f).ports = s.ports := rfl

@[simp] theorem modFn_bus (s : State) (d : DomN) (f : Fn → Fn) : (modFn s d f).bus = s.bus := rfl

@[simp] theorem modFn_tt (s : State) (d : DomN) (f : Fn → Fn) : (modFn s d f).tt = s.tt := rfl

@[simp] theorem modFn_tb (s : State) (d : DomN) (f : Fn → Fn) : (modFn s d f).tb = s.tb := rfl

@[simp] theorem modFn_cen (s : State) (d : DomN) (f : Fn → Fn) : (modFn s d f).cen = s.cen := rfl

@[simp] theorem modFn_sur (s : State) (d : DomN) (f : Fn → Fn) : (modFn s d f).sur = s.sur := rfl

@[simp] theorem linkOn_modFn (s : State) (d : DomN) (f : Fn → Fn) : linkOn (modFn s d f) = linkOn s := rfl

@[simp] theorem powerOn_modFn (s : State) (d : DomN) (f : Fn → Fn) : powerOn (modFn s d f) = powerOn s := rfl

/-! ## modCrew -/

@[simp] theorem modCrew_pending (s : State) (k : CrewN) (f : Crew → Crew) : (modCrew s k f).pending = s.pending := rfl

@[simp] theorem modCrew_fresh (s : State) (k : CrewN) (f : Crew → Crew) : (modCrew s k f).fresh = s.fresh := rfl

@[simp] theorem modCrew_out (s : State) (k : CrewN) (f : Crew → Crew) : (modCrew s k f).out = s.out := rfl

@[simp] theorem modCrew_rst (s : State) (k : CrewN) (f : Crew → Crew) : (modCrew s k f).rst = s.rst := rfl

@[simp] theorem modCrew_pm (s : State) (k : CrewN) (f : Crew → Crew) : (modCrew s k f).pm = s.pm := rfl

@[simp] theorem modCrew_wdt (s : State) (k : CrewN) (f : Crew → Crew) : (modCrew s k f).wdt = s.wdt := rfl

@[simp] theorem modCrew_bb (s : State) (k : CrewN) (f : Crew → Crew) : (modCrew s k f).bb = s.bb := rfl

@[simp] theorem modCrew_pps (s : State) (k : CrewN) (f : Crew → Crew) : (modCrew s k f).pps = s.pps := rfl

@[simp] theorem modCrew_ppsg (s : State) (k : CrewN) (f : Crew → Crew) : (modCrew s k f).ppsg = s.ppsg := rfl

@[simp] theorem modCrew_mtr (s : State) (k : CrewN) (f : Crew → Crew) : (modCrew s k f).mtr = s.mtr := rfl

@[simp] theorem modCrew_aon (s : State) (k : CrewN) (f : Crew → Crew) : (modCrew s k f).aon = s.aon := rfl

@[simp] theorem modCrew_mg (s : State) (k : CrewN) (f : Crew → Crew) : (modCrew s k f).mg = s.mg := rfl

@[simp] theorem modCrew_glob (s : State) (k : CrewN) (f : Crew → Crew) : (modCrew s k f).glob = s.glob := rfl

@[simp] theorem modCrew_clk (s : State) (k : CrewN) (f : Crew → Crew) : (modCrew s k f).clk = s.clk := rfl

@[simp] theorem modCrew_pcie (s : State) (k : CrewN) (f : Crew → Crew) : (modCrew s k f).pcie = s.pcie := rfl

@[simp] theorem modCrew_doms (s : State) (k : CrewN) (f : Crew → Crew) : (modCrew s k f).doms = s.doms := rfl

@[simp] theorem modCrew_ln (s : State) (k : CrewN) (f : Crew → Crew) : (modCrew s k f).ln = s.ln := rfl

@[simp] theorem modCrew_hma (s : State) (k : CrewN) (f : Crew → Crew) : (modCrew s k f).hma = s.hma := rfl

@[simp] theorem modCrew_ula (s : State) (k : CrewN) (f : Crew → Crew) : (modCrew s k f).ula = s.ula := rfl

@[simp] theorem modCrew_que (s : State) (k : CrewN) (f : Crew → Crew) : (modCrew s k f).que = s.que := rfl

@[simp] theorem modCrew_fl (s : State) (k : CrewN) (f : Crew → Crew) : (modCrew s k f).fl = s.fl := rfl

@[simp] theorem modCrew_ports (s : State) (k : CrewN) (f : Crew → Crew) : (modCrew s k f).ports = s.ports := rfl

@[simp] theorem modCrew_bus (s : State) (k : CrewN) (f : Crew → Crew) : (modCrew s k f).bus = s.bus := rfl

@[simp] theorem modCrew_tt (s : State) (k : CrewN) (f : Crew → Crew) : (modCrew s k f).tt = s.tt := rfl

@[simp] theorem modCrew_cen (s : State) (k : CrewN) (f : Crew → Crew) : (modCrew s k f).cen = s.cen := rfl

@[simp] theorem modCrew_sur (s : State) (k : CrewN) (f : Crew → Crew) : (modCrew s k f).sur = s.sur := rfl

@[simp] theorem linkOn_modCrew (s : State) (k : CrewN) (f : Crew → Crew) : linkOn (modCrew s k f) = linkOn s := rfl

@[simp] theorem powerOn_modCrew (s : State) (k : CrewN) (f : Crew → Crew) : powerOn (modCrew s k f) = powerOn s := rfl

/-! ## modSlot -/

@[simp] theorem modSlot_pending (s : State) (j : Fin 48) (f : Option Slot → Option Slot) : (modSlot s j f).pending = s.pending := rfl

@[simp] theorem modSlot_fresh (s : State) (j : Fin 48) (f : Option Slot → Option Slot) : (modSlot s j f).fresh = s.fresh := rfl

@[simp] theorem modSlot_out (s : State) (j : Fin 48) (f : Option Slot → Option Slot) : (modSlot s j f).out = s.out := rfl

@[simp] theorem modSlot_rst (s : State) (j : Fin 48) (f : Option Slot → Option Slot) : (modSlot s j f).rst = s.rst := rfl

@[simp] theorem modSlot_pm (s : State) (j : Fin 48) (f : Option Slot → Option Slot) : (modSlot s j f).pm = s.pm := rfl

@[simp] theorem modSlot_wdt (s : State) (j : Fin 48) (f : Option Slot → Option Slot) : (modSlot s j f).wdt = s.wdt := rfl

@[simp] theorem modSlot_bb (s : State) (j : Fin 48) (f : Option Slot → Option Slot) : (modSlot s j f).bb = s.bb := rfl

@[simp] theorem modSlot_pps (s : State) (j : Fin 48) (f : Option Slot → Option Slot) : (modSlot s j f).pps = s.pps := rfl

@[simp] theorem modSlot_ppsg (s : State) (j : Fin 48) (f : Option Slot → Option Slot) : (modSlot s j f).ppsg = s.ppsg := rfl

@[simp] theorem modSlot_mtr (s : State) (j : Fin 48) (f : Option Slot → Option Slot) : (modSlot s j f).mtr = s.mtr := rfl

@[simp] theorem modSlot_aon (s : State) (j : Fin 48) (f : Option Slot → Option Slot) : (modSlot s j f).aon = s.aon := rfl

@[simp] theorem modSlot_mg (s : State) (j : Fin 48) (f : Option Slot → Option Slot) : (modSlot s j f).mg = s.mg := rfl

@[simp] theorem modSlot_glob (s : State) (j : Fin 48) (f : Option Slot → Option Slot) : (modSlot s j f).glob = s.glob := rfl

@[simp] theorem modSlot_clk (s : State) (j : Fin 48) (f : Option Slot → Option Slot) : (modSlot s j f).clk = s.clk := rfl

@[simp] theorem modSlot_pcie (s : State) (j : Fin 48) (f : Option Slot → Option Slot) : (modSlot s j f).pcie = s.pcie := rfl

@[simp] theorem modSlot_doms (s : State) (j : Fin 48) (f : Option Slot → Option Slot) : (modSlot s j f).doms = s.doms := rfl

@[simp] theorem modSlot_ln (s : State) (j : Fin 48) (f : Option Slot → Option Slot) : (modSlot s j f).ln = s.ln := rfl

@[simp] theorem modSlot_hma (s : State) (j : Fin 48) (f : Option Slot → Option Slot) : (modSlot s j f).hma = s.hma := rfl

@[simp] theorem modSlot_ula (s : State) (j : Fin 48) (f : Option Slot → Option Slot) : (modSlot s j f).ula = s.ula := rfl

@[simp] theorem modSlot_que (s : State) (j : Fin 48) (f : Option Slot → Option Slot) : (modSlot s j f).que = s.que := rfl

@[simp] theorem modSlot_fl (s : State) (j : Fin 48) (f : Option Slot → Option Slot) : (modSlot s j f).fl = s.fl := rfl

@[simp] theorem modSlot_ports (s : State) (j : Fin 48) (f : Option Slot → Option Slot) : (modSlot s j f).ports = s.ports := rfl

@[simp] theorem modSlot_bus (s : State) (j : Fin 48) (f : Option Slot → Option Slot) : (modSlot s j f).bus = s.bus := rfl

@[simp] theorem modSlot_tb (s : State) (j : Fin 48) (f : Option Slot → Option Slot) : (modSlot s j f).tb = s.tb := rfl

@[simp] theorem modSlot_cen (s : State) (j : Fin 48) (f : Option Slot → Option Slot) : (modSlot s j f).cen = s.cen := rfl

@[simp] theorem modSlot_sur (s : State) (j : Fin 48) (f : Option Slot → Option Slot) : (modSlot s j f).sur = s.sur := rfl

@[simp] theorem linkOn_modSlot (s : State) (j : Fin 48) (f : Option Slot → Option Slot) : linkOn (modSlot s j f) = linkOn s := rfl

@[simp] theorem powerOn_modSlot (s : State) (j : Fin 48) (f : Option Slot → Option Slot) : powerOn (modSlot s j f) = powerOn s := rfl

/-! ## bbPow -/

@[simp] theorem bbPow_pending (s : State) (code src : Nat) (w2 w3 : Word) : (bbPow s code src w2 w3).pending = s.pending := rfl

@[simp] theorem bbPow_fresh (s : State) (code src : Nat) (w2 w3 : Word) : (bbPow s code src w2 w3).fresh = s.fresh := rfl

@[simp] theorem bbPow_out (s : State) (code src : Nat) (w2 w3 : Word) : (bbPow s code src w2 w3).out = s.out := rfl

@[simp] theorem bbPow_rst (s : State) (code src : Nat) (w2 w3 : Word) : (bbPow s code src w2 w3).rst = s.rst := rfl

@[simp] theorem bbPow_pm (s : State) (code src : Nat) (w2 w3 : Word) : (bbPow s code src w2 w3).pm = s.pm := rfl

@[simp] theorem bbPow_wdt (s : State) (code src : Nat) (w2 w3 : Word) : (bbPow s code src w2 w3).wdt = s.wdt := rfl

@[simp] theorem bbPow_pps (s : State) (code src : Nat) (w2 w3 : Word) : (bbPow s code src w2 w3).pps = s.pps := rfl

@[simp] theorem bbPow_ppsg (s : State) (code src : Nat) (w2 w3 : Word) : (bbPow s code src w2 w3).ppsg = s.ppsg := rfl

@[simp] theorem bbPow_mtr (s : State) (code src : Nat) (w2 w3 : Word) : (bbPow s code src w2 w3).mtr = s.mtr := rfl

@[simp] theorem bbPow_aon (s : State) (code src : Nat) (w2 w3 : Word) : (bbPow s code src w2 w3).aon = s.aon := rfl

@[simp] theorem bbPow_mg (s : State) (code src : Nat) (w2 w3 : Word) : (bbPow s code src w2 w3).mg = s.mg := rfl

@[simp] theorem bbPow_glob (s : State) (code src : Nat) (w2 w3 : Word) : (bbPow s code src w2 w3).glob = s.glob := rfl

@[simp] theorem bbPow_clk (s : State) (code src : Nat) (w2 w3 : Word) : (bbPow s code src w2 w3).clk = s.clk := rfl

@[simp] theorem bbPow_pcie (s : State) (code src : Nat) (w2 w3 : Word) : (bbPow s code src w2 w3).pcie = s.pcie := rfl

@[simp] theorem bbPow_doms (s : State) (code src : Nat) (w2 w3 : Word) : (bbPow s code src w2 w3).doms = s.doms := rfl

@[simp] theorem bbPow_ln (s : State) (code src : Nat) (w2 w3 : Word) : (bbPow s code src w2 w3).ln = s.ln := rfl

@[simp] theorem bbPow_hma (s : State) (code src : Nat) (w2 w3 : Word) : (bbPow s code src w2 w3).hma = s.hma := rfl

@[simp] theorem bbPow_ula (s : State) (code src : Nat) (w2 w3 : Word) : (bbPow s code src w2 w3).ula = s.ula := rfl

@[simp] theorem bbPow_que (s : State) (code src : Nat) (w2 w3 : Word) : (bbPow s code src w2 w3).que = s.que := rfl

@[simp] theorem bbPow_fl (s : State) (code src : Nat) (w2 w3 : Word) : (bbPow s code src w2 w3).fl = s.fl := rfl

@[simp] theorem bbPow_ports (s : State) (code src : Nat) (w2 w3 : Word) : (bbPow s code src w2 w3).ports = s.ports := rfl

@[simp] theorem bbPow_bus (s : State) (code src : Nat) (w2 w3 : Word) : (bbPow s code src w2 w3).bus = s.bus := rfl

@[simp] theorem bbPow_tt (s : State) (code src : Nat) (w2 w3 : Word) : (bbPow s code src w2 w3).tt = s.tt := rfl

@[simp] theorem bbPow_tb (s : State) (code src : Nat) (w2 w3 : Word) : (bbPow s code src w2 w3).tb = s.tb := rfl

@[simp] theorem bbPow_cen (s : State) (code src : Nat) (w2 w3 : Word) : (bbPow s code src w2 w3).cen = s.cen := rfl

@[simp] theorem bbPow_sur (s : State) (code src : Nat) (w2 w3 : Word) : (bbPow s code src w2 w3).sur = s.sur := rfl

@[simp] theorem linkOn_bbPow (s : State) (code src : Nat) (w2 w3 : Word) : linkOn (bbPow s code src w2 w3) = linkOn s := rfl

@[simp] theorem powerOn_bbPow (s : State) (code src : Nat) (w2 w3 : Word) : powerOn (bbPow s code src w2 w3) = powerOn s := rfl

/-! ## bbLink -/

@[simp] theorem bbLink_pending (s : State) (code src : Nat) (w2 w3 : Word) : (bbLink s code src w2 w3).pending = s.pending := rfl

@[simp] theorem bbLink_fresh (s : State) (code src : Nat) (w2 w3 : Word) : (bbLink s code src w2 w3).fresh = s.fresh := rfl

@[simp] theorem bbLink_out (s : State) (code src : Nat) (w2 w3 : Word) : (bbLink s code src w2 w3).out = s.out := rfl

@[simp] theorem bbLink_rst (s : State) (code src : Nat) (w2 w3 : Word) : (bbLink s code src w2 w3).rst = s.rst := rfl

@[simp] theorem bbLink_pm (s : State) (code src : Nat) (w2 w3 : Word) : (bbLink s code src w2 w3).pm = s.pm := rfl

@[simp] theorem bbLink_wdt (s : State) (code src : Nat) (w2 w3 : Word) : (bbLink s code src w2 w3).wdt = s.wdt := rfl

@[simp] theorem bbLink_pps (s : State) (code src : Nat) (w2 w3 : Word) : (bbLink s code src w2 w3).pps = s.pps := rfl

@[simp] theorem bbLink_ppsg (s : State) (code src : Nat) (w2 w3 : Word) : (bbLink s code src w2 w3).ppsg = s.ppsg := rfl

@[simp] theorem bbLink_mtr (s : State) (code src : Nat) (w2 w3 : Word) : (bbLink s code src w2 w3).mtr = s.mtr := rfl

@[simp] theorem bbLink_aon (s : State) (code src : Nat) (w2 w3 : Word) : (bbLink s code src w2 w3).aon = s.aon := rfl

@[simp] theorem bbLink_mg (s : State) (code src : Nat) (w2 w3 : Word) : (bbLink s code src w2 w3).mg = s.mg := rfl

@[simp] theorem bbLink_glob (s : State) (code src : Nat) (w2 w3 : Word) : (bbLink s code src w2 w3).glob = s.glob := rfl

@[simp] theorem bbLink_clk (s : State) (code src : Nat) (w2 w3 : Word) : (bbLink s code src w2 w3).clk = s.clk := rfl

@[simp] theorem bbLink_pcie (s : State) (code src : Nat) (w2 w3 : Word) : (bbLink s code src w2 w3).pcie = s.pcie := rfl

@[simp] theorem bbLink_doms (s : State) (code src : Nat) (w2 w3 : Word) : (bbLink s code src w2 w3).doms = s.doms := rfl

@[simp] theorem bbLink_ln (s : State) (code src : Nat) (w2 w3 : Word) : (bbLink s code src w2 w3).ln = s.ln := rfl

@[simp] theorem bbLink_hma (s : State) (code src : Nat) (w2 w3 : Word) : (bbLink s code src w2 w3).hma = s.hma := rfl

@[simp] theorem bbLink_ula (s : State) (code src : Nat) (w2 w3 : Word) : (bbLink s code src w2 w3).ula = s.ula := rfl

@[simp] theorem bbLink_fl (s : State) (code src : Nat) (w2 w3 : Word) : (bbLink s code src w2 w3).fl = s.fl := rfl

@[simp] theorem bbLink_ports (s : State) (code src : Nat) (w2 w3 : Word) : (bbLink s code src w2 w3).ports = s.ports := rfl

@[simp] theorem bbLink_bus (s : State) (code src : Nat) (w2 w3 : Word) : (bbLink s code src w2 w3).bus = s.bus := rfl

@[simp] theorem bbLink_tt (s : State) (code src : Nat) (w2 w3 : Word) : (bbLink s code src w2 w3).tt = s.tt := rfl

@[simp] theorem bbLink_tb (s : State) (code src : Nat) (w2 w3 : Word) : (bbLink s code src w2 w3).tb = s.tb := rfl

@[simp] theorem bbLink_cen (s : State) (code src : Nat) (w2 w3 : Word) : (bbLink s code src w2 w3).cen = s.cen := rfl

@[simp] theorem bbLink_sur (s : State) (code src : Nat) (w2 w3 : Word) : (bbLink s code src w2 w3).sur = s.sur := rfl

@[simp] theorem linkOn_bbLink (s : State) (code src : Nat) (w2 w3 : Word) : linkOn (bbLink s code src w2 w3) = linkOn s := rfl

@[simp] theorem powerOn_bbLink (s : State) (code src : Nat) (w2 w3 : Word) : powerOn (bbLink s code src w2 w3) = powerOn s := rfl

/-! ## raiseTo -/

@[simp] theorem raiseTo_pending (s : State) (hit : DomN → Bool) (b : Bool) (k : Nat) (e : Ev) : (raiseTo s hit b k e).pending = s.pending := rfl

@[simp] theorem raiseTo_fresh (s : State) (hit : DomN → Bool) (b : Bool) (k : Nat) (e : Ev) : (raiseTo s hit b k e).fresh = s.fresh := rfl

@[simp] theorem raiseTo_rst (s : State) (hit : DomN → Bool) (b : Bool) (k : Nat) (e : Ev) : (raiseTo s hit b k e).rst = s.rst := rfl

@[simp] theorem raiseTo_pm (s : State) (hit : DomN → Bool) (b : Bool) (k : Nat) (e : Ev) : (raiseTo s hit b k e).pm = s.pm := rfl

@[simp] theorem raiseTo_wdt (s : State) (hit : DomN → Bool) (b : Bool) (k : Nat) (e : Ev) : (raiseTo s hit b k e).wdt = s.wdt := rfl

@[simp] theorem raiseTo_bb (s : State) (hit : DomN → Bool) (b : Bool) (k : Nat) (e : Ev) : (raiseTo s hit b k e).bb = s.bb := rfl

@[simp] theorem raiseTo_pps (s : State) (hit : DomN → Bool) (b : Bool) (k : Nat) (e : Ev) : (raiseTo s hit b k e).pps = s.pps := rfl

@[simp] theorem raiseTo_ppsg (s : State) (hit : DomN → Bool) (b : Bool) (k : Nat) (e : Ev) : (raiseTo s hit b k e).ppsg = s.ppsg := rfl

@[simp] theorem raiseTo_mtr (s : State) (hit : DomN → Bool) (b : Bool) (k : Nat) (e : Ev) : (raiseTo s hit b k e).mtr = s.mtr := rfl

@[simp] theorem raiseTo_mg (s : State) (hit : DomN → Bool) (b : Bool) (k : Nat) (e : Ev) : (raiseTo s hit b k e).mg = s.mg := rfl

@[simp] theorem raiseTo_glob (s : State) (hit : DomN → Bool) (b : Bool) (k : Nat) (e : Ev) : (raiseTo s hit b k e).glob = s.glob := rfl

@[simp] theorem raiseTo_clk (s : State) (hit : DomN → Bool) (b : Bool) (k : Nat) (e : Ev) : (raiseTo s hit b k e).clk = s.clk := rfl

@[simp] theorem raiseTo_pcie (s : State) (hit : DomN → Bool) (b : Bool) (k : Nat) (e : Ev) : (raiseTo s hit b k e).pcie = s.pcie := rfl

@[simp] theorem raiseTo_ln (s : State) (hit : DomN → Bool) (b : Bool) (k : Nat) (e : Ev) : (raiseTo s hit b k e).ln = s.ln := rfl

@[simp] theorem raiseTo_hma (s : State) (hit : DomN → Bool) (b : Bool) (k : Nat) (e : Ev) : (raiseTo s hit b k e).hma = s.hma := rfl

@[simp] theorem raiseTo_ula (s : State) (hit : DomN → Bool) (b : Bool) (k : Nat) (e : Ev) : (raiseTo s hit b k e).ula = s.ula := rfl

@[simp] theorem raiseTo_fl (s : State) (hit : DomN → Bool) (b : Bool) (k : Nat) (e : Ev) : (raiseTo s hit b k e).fl = s.fl := rfl

@[simp] theorem raiseTo_ports (s : State) (hit : DomN → Bool) (b : Bool) (k : Nat) (e : Ev) : (raiseTo s hit b k e).ports = s.ports := rfl

@[simp] theorem raiseTo_bus (s : State) (hit : DomN → Bool) (b : Bool) (k : Nat) (e : Ev) : (raiseTo s hit b k e).bus = s.bus := rfl

@[simp] theorem raiseTo_tt (s : State) (hit : DomN → Bool) (b : Bool) (k : Nat) (e : Ev) : (raiseTo s hit b k e).tt = s.tt := rfl

@[simp] theorem raiseTo_tb (s : State) (hit : DomN → Bool) (b : Bool) (k : Nat) (e : Ev) : (raiseTo s hit b k e).tb = s.tb := rfl

@[simp] theorem raiseTo_cen (s : State) (hit : DomN → Bool) (b : Bool) (k : Nat) (e : Ev) : (raiseTo s hit b k e).cen = s.cen := rfl

@[simp] theorem raiseTo_sur (s : State) (hit : DomN → Bool) (b : Bool) (k : Nat) (e : Ev) : (raiseTo s hit b k e).sur = s.sur := rfl

@[simp] theorem linkOn_raiseTo (s : State) (hit : DomN → Bool) (b : Bool) (k : Nat) (e : Ev) : linkOn (raiseTo s hit b k e) = linkOn s := rfl

@[simp] theorem powerOn_raiseTo (s : State) (hit : DomN → Bool) (b : Bool) (k : Nat) (e : Ev) : powerOn (raiseTo s hit b k e) = powerOn s := rfl

@[simp] theorem modPort_self (s : State) (n : PortN) (f : Port → Port) : (modPort s n f).ports[n] = f s.ports[n] :=
  vMod_get_self _ _ _

theorem modPort_ne (s : State) (n m : PortN) (f : Port → Port) (h : m ≠ n) : (modPort s n f).ports[m] = s.ports[m] :=
  vMod_get_ne _ _ _ _ h

@[simp] theorem modPps_self (s : State) (n : DnN) (f : Pps → Pps) : (modPps s n f).pps[n] = f s.pps[n] :=
  vMod_get_self _ _ _

theorem modPps_ne (s : State) (n m : DnN) (f : Pps → Pps) (h : m ≠ n) : (modPps s n f).pps[m] = s.pps[m] :=
  vMod_get_ne _ _ _ _ h

@[simp] theorem modDom_self (s : State) (n : DomN) (f : Dom → Dom) : (modDom s n f).doms[n] = f s.doms[n] :=
  vMod_get_self _ _ _

theorem modDom_ne (s : State) (n m : DomN) (f : Dom → Dom) (h : m ≠ n) : (modDom s n f).doms[m] = s.doms[m] :=
  vMod_get_ne _ _ _ _ h

@[simp] theorem modAon_self (s : State) (n : PortN) (f : AonPort → AonPort) : (modAon s n f).aon.ports[n] = f s.aon.ports[n] :=
  vMod_get_self _ _ _

theorem modAon_ne (s : State) (n m : PortN) (f : AonPort → AonPort) (h : m ≠ n) : (modAon s n f).aon.ports[m] = s.aon.ports[m] :=
  vMod_get_ne _ _ _ _ h

@[simp] theorem modEp_self (s : State) (n : EpN) (f : Ep → Ep) : (modEp s n f).ln.eps[n] = f s.ln.eps[n] :=
  vMod_get_self _ _ _

theorem modEp_ne (s : State) (n m : EpN) (f : Ep → Ep) (h : m ≠ n) : (modEp s n f).ln.eps[m] = s.ln.eps[m] :=
  vMod_get_ne _ _ _ _ h

@[simp] theorem modFn_self (s : State) (n : DomN) (f : Fn → Fn) : (modFn s n f).pcie.fns[n] = f s.pcie.fns[n] :=
  vMod_get_self _ _ _

theorem modFn_ne (s : State) (n m : DomN) (f : Fn → Fn) (h : m ≠ n) : (modFn s n f).pcie.fns[m] = s.pcie.fns[m] :=
  vMod_get_ne _ _ _ _ h

@[simp] theorem modCrew_self (s : State) (n : CrewN) (f : Crew → Crew) : (modCrew s n f).tb.crews[n] = f s.tb.crews[n] :=
  vMod_get_self _ _ _

theorem modCrew_ne (s : State) (n m : CrewN) (f : Crew → Crew) (h : m ≠ n) : (modCrew s n f).tb.crews[m] = s.tb.crews[m] :=
  vMod_get_ne _ _ _ _ h

@[simp] theorem modSlot_self (s : State) (n : Fin 48) (f : Option Slot → Option Slot) : (modSlot s n f).tt.slots[n] = f s.tt.slots[n] :=
  vMod_get_self _ _ _

theorem modSlot_ne (s : State) (n m : Fin 48) (f : Option Slot → Option Slot) (h : m ≠ n) : (modSlot s n f).tt.slots[m] = s.tt.slots[m] :=
  vMod_get_ne _ _ _ _ h

@[simp] theorem emit_out (s : State) (o : Out) : (emit s o).out = o :: s.out := rfl

@[simp] theorem bbPow_bb (s : State) (code src : Nat) (w2 w3 : Word) :
    (bbPow s code src w2 w3).bb = bbStore s.bb (mkEntry code src w2 w3 true s.aon.time) := rfl

@[simp] theorem bbLink_bbf (s : State) (code src : Nat) (w2 w3 : Word) :
    (bbLink s code src w2 w3).que.bbf = (bbfPush s.que (mkEntry code src w2 w3 false (now s))).bbf := by
  unfold bbLink bbfPush
  by_cases h : s.que.bbf.length < 16 <;> by_cases g : bit s.bb.ctrl 0 = true <;> simp [h, g]

end Sys2Proof.Machine
end

