-- ==== Sys2Proof/Laws/Rows.lean ====
section
/-! SUPPORT. The laws of the rows that write a register, and what raising an event does: the provers cite
these and unfold neither the paths nor the events. -/

namespace Sys2Proof.Machine

open Sys2Proof Sys2Proof.Safety

/-! ## Register writes -/

theorem powerOn_of_reaches (s : State) (p : Path) (h : reaches s p = true) : powerOn s = true := by
  apply powerOn_of_linkOn
  cases p <;> simp_all [reaches]

theorem linkOn_of_reaches (s : State) (p : Path) (h : reaches s p = true) : linkOn s = true := by
  cases p <;> simp_all [reaches]

theorem regAtWord_msix (w : Nat) (h1 : 0x1800 ≤ w) (h2 : w < 0x2000) : regAtWord w = none := by
  unfold regAtWord
  simp only [show ¬ w < 0x100 by omega, show ¬ w < 0x180 by omega, show ¬ w < 0x1C0 by omega,
    show ¬ w < 0x200 by omega, show ¬ w < 0x280 by omega, show ¬ w < 0x300 by omega, show ¬ w < 0x380 by omega,
    show ¬ w < 0x400 by omega, show ¬ w < 0x900 by omega, show ¬ w < 0xB00 by omega, show ¬ w < 0xC00 by omega,
    show ¬ w < 0xC40 by omega, show ¬ w < 0xD80 by omega, show ¬ w < 0xDC0 by omega, show ¬ w < 0xE00 by omega,
    show ¬ w < 0x1000 by omega, show ¬ w < 0x1400 by omega, h2, if_true, if_false]

theorem not_inMsix_of_reg (off : Nat) (r : Reg) (hr : regAtWord (off / 4) = some r) :
    inMsix 0 off = false ∧ inPba 0 off = false := by
  have key : ∀ a b : Nat, 0x6000 ≤ a → b ≤ 0x8000 → (decide (a ≤ off) && decide (off < b)) = false := by
    intro a b ha hb
    by_contra hc
    simp only [Bool.not_eq_false, Bool.and_eq_true, decide_eq_true_eq] at hc
    have := regAtWord_msix (off / 4) (by omega) (by omega)
    rw [this] at hr; cases hr
  exact ⟨key _ _ (by decide) (by decide), key _ _ (by decide) (by decide)⟩

theorem setWidth_word (v : Word) : (v.setWidth 32).setWidth 16 = v := by
  ext i; simp

theorem mgBarred_of_free (s : State) (r : Option Reg) (h : s.glob.mgWr = false) : mgBarred s r = false := by
  simp [mgBarred, h]

theorem mgMisses_of_link (s : State) (a : Nat) (h : linkOn s = true) : mgMisses s a = false := by
  simp [mgMisses, h]

/-- A single management write that nothing bars, while the Link die runs. -/
theorem mgWrite_one (s : State) (a : Nat) (v : Word) (r : Reg) (ha : a < 0x4000) (hl : linkOn s = true)
    (hb : mgBarred s (some r) = false) (hr : regAtWord a = some r) : mgWrite s a [v] = writeReg s .mg v r := by
  have h1 : mgReg a = some r := by simp [mgReg, ha, hr]
  have h2 : a % 65536 = a := Nat.mod_eq_of_lt (by omega)
  have hm := mgMisses_of_link s a hl
  unfold mgWrite
  simp [burst, h2, forEach, mgWord, h1, hb, hm]

/-- A write of an aligned offset by a path that reaches the registers is carried out. -/
theorem pathWrite_reaches (s : State) (p : Path) (off : Nat) (v : Word) (r : Reg) (h : reaches s p = true)
    (h4 : off % 4 = 0) (ho : off < 0x10000) (hr : regAtWord (off / 4) = some r) :
    pathWrite s p off v = writeReg s p v r := by
  have hp : regAtPf off = some r := by simp [regAtPf, h4, hr]
  have h5 : off / 4 * 4 = off := by omega
  obtain ⟨m1, m2⟩ := not_inMsix_of_reg off r hr
  cases p with
  | vf w => cases h
  | restore => cases h
  | pf =>
    simp only [reaches, Bool.and_eq_true] at h
    simp only [pathWrite, hostDw, h.1, h.2, Bool.not_true, if_true, dwWrite, h5, m1, m2, Bool.false_eq_true, if_false, regAt, hp, setWidth_word]
  | mg =>
    simp only [reaches, Bool.and_eq_true, Bool.not_eq_true'] at h
    exact mgWrite_one s _ v r (by omega) h.1 (mgBarred_of_free _ _ h.2) hr
  | hub => simp only [reaches] at h; simp only [pathWrite, innerWrite, h, if_true, regAt, hp]
  | cmd d => simp only [reaches] at h; simp only [pathWrite, innerWrite, h, if_true, regAt, hp]
  | image => simp only [reaches] at h; simp only [pathWrite, innerWrite, h, if_true, regAt, hp]

/-- A DW write with all lanes or both lower ones, at an offset that names a register. -/
theorem dwWrite_reg (s : State) (p : Path) (d : DomN) (off : Nat) (v : BitVec 32) (r : Reg) (be : ByteEn)
    (h : be = .full ∨ be = .both) (m1 : inMsix d off = false) (m2 : inPba d off = false) (hr : regAt p off = some r) :
    dwWrite s p d off be v = writeReg s p (v.setWidth 16) r := by
  rcases h with rfl | rfl <;> simp [dwWrite, m1, m2, hr]

/-- A DW of a register write by a path that reaches the registers is carried out. -/
theorem registerDw_reaches (s : State) (p : Path) (off : Nat) (be : ByteEn) (v : BitVec 32) (r : Reg)
    (h : reaches s p = true) (hb : be = .full ∨ be = .both) (ho : off < 65536) (hr : regAtWord (off / 4) = some r) :
    registerDw s p off be v = writeReg s p (v.setWidth 16) r := by
  have h1 : off / 4 * 4 / 4 = off / 4 := by omega
  have hr' : regAtWord (off / 4 * 4 / 4) = some r := by rw [h1]; exact hr
  cases p with
  | pf =>
    simp only [reaches, Bool.and_eq_true] at h
    obtain ⟨m1, m2⟩ := not_inMsix_of_reg (off / 4 * 4) r hr'
    simp only [registerDw, hostDw, h.1, h.2, Bool.not_true, Bool.false_eq_true, if_false, if_true]
    exact dwWrite_reg _ _ _ _ _ _ _ hb m1 m2 (by show regAtPf _ = _; unfold regAtPf; rw [if_pos (by omega)]; exact hr')
  | vf w => cases h
  | _ =>
    simp only [registerDw]
    rw [if_pos (by simpa using hb)]
    exact pathWrite_reaches _ _ _ _ _ h (by omega) (by omega) hr'

/-- REGISTER_WRITE of one DW by a path that reaches the registers is carried out. -/
theorem registerWrite_reaches (s : State) (p : Path) (off : Word) (be : ByteEn) (v : BitVec 32) (r : Reg)
    (h : reaches s p = true) (hb : be = .full ∨ be = .both) (hr : regAtWord (off.toNat / 4) = some r) :
    registerWrite s p off.toNat [(be, v)] = writeReg s p (v.setWidth 16) r :=
  registerDw_reaches s p off.toNat be v r h hb off.isLt hr

/-- A row that writes one register, by a path that reaches it. -/
theorem regRow_reaches (s : State) (p : Path) (off : Nat) (v : Word) (r : Reg) (h : reaches s p = true)
    (h4 : off % 4 = 0) (ho : off < 0x10000) (hr : regAtWord (off / 4) = some r) :
    regRow p off v s = .next (writeReg s p v r) := by
  unfold regRow
  rw [onPower_on _ _ (powerOn_of_reaches s p h), pathWrite_reaches s p off v r h h4 ho hr]

/-! ## Events -/

theorem raise_on (s : State) (e : Ev) (h : linkOn s = true) :
    raise s e = raiseTo s (fun d => evFor e d s.doms[d]) false (now s) e := by
  unfold raise; rw [if_pos h]

/-- An event raised while the Link die runs reaches every domain it is for. -/
theorem raise_tells (s : State) (e : Ev) (h : linkOn s = true) : tells s (raise s e) e := by
  intro d hd
  rw [raise_on s e h]
  show (Vector.ofFn _)[d.val] = _
  rw [Vector.getElem_ofFn]
  exact if_pos hd

/-- A domain that the event is not for is left alone. -/
theorem raise_skips (s : State) (e : Ev) (d : DomN) (hd : evFor e d s.doms[d] = false) :
    (raise s e).doms[d] = s.doms[d] := by
  unfold raise
  split
  · show (Vector.ofFn _)[d.val] = _
    rw [Vector.getElem_ofFn]
    exact if_neg (by simpa using hd)
  · rfl

@[simp] theorem evfOffer_bbf (k : Nat) (e : Ev) (q : Que) : (evfOffer k e q).bbf = q.bbf := by
  unfold evfOffer; (repeat' split) <;> rfl

@[simp] theorem raise_bbf (s : State) (e : Ev) : (raise s e).que.bbf = s.que.bbf := by
  unfold raise; split
  · exact evfOffer_bbf _ _ _
  · rfl

@[simp] theorem raise_time (s : State) (e : Ev) : now (raise s e) = now s := by
  unfold raise; split <;> rfl

@[simp] theorem linkOn_raise (s : State) (e : Ev) : linkOn (raise s e) = linkOn s := by
  unfold raise; split <;> rfl

/-- Events see of the state only the domains, the functions, the straps and the time. -/
theorem tells_congr (s s' t : State) (e : Ev) (h1 : s'.doms = s.doms) (h2 : s'.pcie = s.pcie) (h3 : s'.rst = s.rst)
    (h4 : s'.tb = s.tb) (h : tells s' t e) : tells s t e := by
  intro d hd
  have hd' : evFor e d s'.doms[d] = true := by rw [h1]; exact hd
  have := h d hd'
  rw [this]
  simp only [h1, h4, now, evRoom, evtWritable, fnLive, domExists, epStrap, h2, h3]
  congr 1

end Sys2Proof.Machine
end

