-- ==== Sys2Proof/Machine/Pins.lean ====
section
/-! DEFINITION. What the part drives: the levels of its output pins (R392) and the line words, half-bits
and characters of what its ports send (R50 to R60, R62, R78). -/

namespace Sys2Proof.Machine

open Sys2Proof

/-! ## Links (R67, R169, R173 to R180) -/

/-- TXEN of port n: low in DISABLED, in a hold, while dark, and in DETECT on a switched port without
power-good (R67, R169, R180). -/
def txenPin (s : State) (n : PortN) : Bool := txOn s n

/-- Dn_BCN of Dm: the AON domain forwards in every power state but under a reset; a beacon that the Link die
drives shows only while that die holds its state (R173, R175, R392). -/
def bcnPin (s : State) (m : DnN) : Bool :=
  match s.aon.ports[dnPort m].bcn with
  | .none => false
  | .fwd _ => powerOn s
  | .drive => linkHeld s

/-- The Link die has its supply: PWR_EN is high, and CORE_PG has been seen or is not awaited (R334, R349). -/
def linkPowered (s : State) : Bool := powerOn s && s.pm.pwrEn && (bit s.pm.pwrSeq 0 || s.pm.corePg)

/-- What an output shows: a level, high impedance, a transmitter pair's idle, or the signal of a transfer that
runs. -/
inductive Level where
  | low | high | hiZ | idle | runs
  deriving DecidableEq, Repr

/-- A level. -/
def levelOf (b : Bool) : Level := if b then .high else .low

/-- The transmitter pair of port n: high-impedance without VPHY, idle in a reset, in FEATHER and while TXEN is low,
the port's signal otherwise (R392). -/
def txPair (s : State) (n : PortN) : Level :=
  if !linkPowered s then .hiZ else if linkOn s && txOn s n then .runs else .idle

/-- Port n's receiver has its termination and clock recovery on: while the Link die is powered, its reset
included (R392), but off while SD is low on a port that may feather (R179). -/
def rxPowered (s : State) (n : PortN) : Bool :=
  linkPowered s && !(linkOn s && feathers s.ports[n] s.aon.ports[n] && !s.aon.ports[n].sd)

/-! ## PCI Express (R46, R191, R208, R348, R392) -/

/-- A transmitter pair of the PCIe link: its signal in L0, idle otherwise while powered (R392). -/
def peTxPair (s : State) : Level :=
  if !linkPowered s then .hiZ else if linkOn s && s.pcie.link = .l0 then .runs else .idle

/-- The PCIe receivers are terminated while powered (R392). -/
def peRxTerminated (s : State) : Bool := linkPowered s

/-- PE_CLKREQ_N is low: from the release of the Link die's reset, with STRAPS.PE = 1, but for L1 with clock
power management (R191, R392). -/
def clkreqLow (s : State) : Bool := linkHeld s && epStrap s && !s.pcie.clkReqHi

/-- PE_WAKE_N is low (R208, R348). -/
def wakeLow (s : State) : Bool := powerOn s && epStrap s && s.aon.peWake

/-! ## Management, watchdog and power (R286, R349, R362, R364) -/

/-- MG_IRQ_N is low (R286). -/
def irqLow (s : State) : Bool := mgIrq s

/-- WDT_NMI_N is low: from expiry to the end of grace (R362, R364). -/
def nmiLow (s : State) : Bool := powerOn s && s.pm.st != .stow && s.wdt.grace

/-- HOST_RST_N is low (R364); it is released in STOW (R392). -/
def hostRstLow (s : State) : Bool := powerOn s && s.pm.st != .stow && s.wdt.hostRst

/-- PWR_EN is high (R349). -/
def pwrEnPin (s : State) : Bool := powerOn s && s.pm.pwrEn

/-- A transfer runs on the flash pins: an operation, an image load, a scan or a copy of the Link die, or a
flush that has taken the pins (R376, R380, R382). -/
def flashRuns (s : State) : Bool :=
  powerOn s && (s.bb.flush.any (·.pins) ||
    (linkOn s && ((s.fl.op.isSome && !s.fl.susp) || s.glob.cfgBusy || s.bb.scan || s.bb.pf.wait || s.bb.mgw.wait)))

/-- FL_SCK: low but for a transfer (R392). -/
def flSckPin (s : State) : Level := if flashRuns s then .runs else .low

/-- FL_CS_N: high but for a transfer, and high-impedance in POR (R392). -/
def flCsPin (s : State) : Level := if s.rst.por then .hiZ else if flashRuns s then .low else .high

/-- FL_IO0 to FL_IO3: high-impedance but for a transfer, which uses as many lines as its width (R380, R392);
IO1 carries single-bit reads. -/
def flIoPin (s : State) (i : Fin 4) : Level :=
  let lines := if linkOn s then max 2 (2 ^ flWidth s) else 2
  if flashRuns s && i.val < lines then .runs else .hiZ

/-- MG_SDO: high-impedance in reset and while MG_CS_N is high (R383, R392). -/
def mgSdoPin (s : State) : Level := if powerOn s && s.mg.cs then .runs else .hiZ

/-! ## Time (R21, R164, R165) -/

/-- A level of an output of the Link die's VIO balls: `x` while the die holds its state, low in a reset, and
high-impedance in STOW (R392). -/
def vioPin (s : State) (x : Level) : Level :=
  if s.pm.st = .stow then .hiZ else if linkHeld s then x else .low

/-- CATCHi as the board sees it: asserted at the level that POL sets (R164, R392). -/
def catchPin (s : State) (i : Fin 4) : Level := vioPin s (levelOf (s.tb.catchOn[i] != bit s.tb.pins[i] 4))

/-- STROKE_OUT (R165, R392). -/
def strokePin (s : State) : Level := vioPin s (levelOf s.tb.soOn)

/-- CLK_OUT: its clock, else low (R21, R392). -/
def clkOutPin (s : State) : Level := vioPin s (if clkOut s then .runs else .low)

/-- TDO: high-impedance in a reset, in STOW and while nothing is scanned; the table has no row of the TAP (R392;
DESIGN CHOICE, log 168). -/
def tdoPin : Level := .hiZ

/-! ## What the ports send (R51 to R60, R62) -/

/-- Data words. -/
def dataWords (ws : List Word) : List LineWord := ws.map .data

/-- The port and the line words of something put out on a link; none for what goes elsewhere.  RST sets are
those of `ts`. -/
def lineWords : Out → Option (PortN × List LineWord)
  | .ts n _ k a0 a1 chk => some (n, .ctl .trn (BitVec.ofNat 8 (tsCode k)) :: dataWords [a0, a1, chk])
  | .crd n p => some (n, [.ctl .crd (BitVec.ofNat 8 p)])
  | .skp n => some (n, [.ctl .skp 0#8])
  | .pkt n p => some (n, .ctl .sop 0#8 :: dataWords (pktWords p) ++ [.ctl .eop 0#8])
  | .eab n p w r => some (n, .ctl .sop 0#8 :: dataWords ((pktWords p).take w) ++ [.ctl .eab (BitVec.ofNat 8 r)])
  | .pre n => some (n, [.ctl .pre 0#8])
  | .rsm n off => some (n, [.ctl .rsm 0#8, .data (w16 off)])
  | .stk n ws => some (n, .ctl .stk 0#8 :: dataWords ws)
  | .idl n k => some (n, List.replicate k (.ctl .idl 0#8))
  | .prbs n x k => some (n, dataWords (prbsWords k x))
  | _ => none

/-- What port n's transmitter repeats while it has nothing else to send: RST sets while a reset is driven; in
CAPS TS_CAP, and TS_ACK from the partner's second identical TS_CAP on; in SWITCH a parent's TS_TRIAL; else IDL,
which at Paddle is ESC–IDL; nothing while it is off, held or dark (R55, R63, R67). -/
def lineFill (s : State) (n : PortN) : List LineWord :=
  let p := s.ports[n]
  let set (k : TsKind) (a0 a1 : Word) : List LineWord :=
    .ctl .trn (BitVec.ofNat 8 (tsCode k)) :: dataWords [a0, a1, trainCheck (tsCode k) a0 a1]
  if !txOn s n then []
  else if p.rstOut then set .rst (w16 p.rstArg) 0#16
  else if p.st = .switch && n != 0 then set .trial (w16 p.tryRate) 0#16
  else if p.st = .caps then
    match p.capRx with
    | some a => if p.capTwo then set .ack a.1 a.2 else set .cap (portCap0 s n) (portCap1 s)
    | none => set .cap (portCap0 s n) (portCap1 s)
  else [.ctl .idl 0#8]

/-- The words on the wire at Paddle, every escape in place (R53). -/
def paddleStream (l : List LineWord) : List Word := l.flatMap escape

/-- The half-bits on the wire at Paddle (R50). -/
def paddleBits (l : List LineWord) : List Bool := (paddleStream l).flatMap manchester

/-- The characters on the wire above Paddle, running disparity carried from word to word (R51). -/
def charStream (rd : Bool) : List LineWord → List (BitVec 10)
  | [] => []
  | w :: l => let c := charsOf rd w; c.1 :: c.2.1 :: charStream c.2.2 l

end Sys2Proof.Machine
end

