-- ==== Sys2Proof/WellFormed.lean ====
section
/-! DEFINITION. When a command is well formed: operands that the types leave wider than the event they
stand for.  Every command has a meaning, well formed or not; these are what an outside party can send. -/

namespace Sys2Proof

/-- A party outside the part: PF BAR0, a VF BAR0 or the management SPI (R8, R385). -/
def outside : Path → Bool
  | .pf => true
  | .vf _ => true
  | .mg => true
  | _ => false

/-- A party with a latch of its own, or with a service path: the hub function besides (R194, R360). -/
def latchPath (p : Path) : Bool := outside p || p = .hub

/-- A read request of the host carries at least one DW. -/
def readOk : HostRead → Bool
  | .reg p => latchPath p
  | .bar0 _ _ n => 1 ≤ n
  | .bar2 _ n => 1 ≤ n
  | .config _ off => off % 4 = 0 && off < 4096

/-- There are four straps (R33). -/
def strapsOk (w : Word) : Bool := w.toNat < 16

/-- A register stands in the low half of a DW (R192). -/
def offOk (off : Word) : Bool := off.toNat % 4 = 0

/-- A beacon has six data words before its check word (R57). -/
def beaconOk (ws : List Word) : Bool := ws.length = 6

/-- A burst has at least one word, and no more than the address space (R384). -/
def burstOk (n : Nat) : Bool := 1 ≤ n && n ≤ 65536

/-- Host data come in bytes. -/
def bytesOk (bs : List Nat) : Bool := bs.all fun b => b < 256

/-- A slot of the flash region: there are at most 16 (R374). -/
def slotOk (k : Option Nat) : Bool := k.all fun n => n < 16

/-- A queue number is a byte (Q_CTRL.INJ_Q). -/
def queueOk (q : Nat) : Bool := q < 256

/-- A packet has at most 518 words (R81). -/
def sentOk (n : Nat) : Bool := n ≤ 518

/-- A fast read uses 1, 2 or 4 bits (R380). -/
def sfdpOk (x : Option Sfdp) : Bool := x.all fun f => f.width ≤ 2

/-- An image has a header of six words and at most 5,000 records of two (R381). -/
def imageOk (ws : List Word) : Bool := ws.length ≤ 10006

/-- The parameter of a control word is a byte (R52). -/
def paramOk (w : Word) : Bool := w.toNat < 256

/-- The words after a header come in order: the payload, then the trailer's two (R80). -/
def endOk (payload : List Word) (t0 t1 : Option Word) : Bool :=
  (t0.isSome || t1.isNone) && (t1.isSome || payload.isEmpty)

/-- NumVFs is a 16-bit register. -/
def numOk (n : Nat) : Bool := n < 65536

/-- The command is well formed. -/
def wellFormed : Instr → Bool
  | .por => true
  | .porRelease straps => strapsOk straps
  | .resetNAssert => true
  | .resetNRelease straps => strapsOk straps
  | .aonBrownout => true
  | .swrst p => outside p
  | .cfgLoad p => outside p
  | .bytewrClear p => outside p
  | .byteWrite p off => outside p && offOk off
  | .cfgImageChecked _ ws => imageOk ws
  | .perstAssert => true
  | .perstRelease => true
  | .pcieConfigReady => true
  | .hotReset _ => true
  | .flrPf => true
  | .flrVf _ => true
  | .vfEnable => true
  | .vfDisable => true
  | .numvfsWrite n => numOk n
  | .pcieConfigWrite _ _ _ => true
  | .treeReset => true
  | .portResetRx => true
  | .rstDriveEnd _ => true
  | .clkPlanWrite p _ => outside p
  | .pllLock _ => true
  | .refFallback _ => true
  | .refReturn => true
  | .sdQualified _ => true
  | .signalLoss _ => true
  | .detectHoldEnd _ => true
  | .wordAlign _ => true
  | .alignTimeout _ => true
  | .tsCapRx _ _ _ _ => true
  | .tsAckRx _ _ _ _ => true
  | .capsTimeout _ => true
  | .tsTrialRx _ _ _ _ => true
  | .switchTimeout _ => true
  | .tsReadyRx _ _ _ _ => true
  | .ralignTimeout _ => true
  | .trialSent _ rx => rx.length = 8192
  | .tsResultRx _ _ _ _ => true
  | .trialTimeout _ => true
  | .tsGoRx _ _ _ _ => true
  | .stepUp _ => true
  | .capUpdateSend _ => true
  | .tsDownRx _ _ _ _ => true
  | .tsDisRx _ _ _ _ => true
  | .errorBurst _ _ => true
  | .errorRate _ _ => true
  | .portRetrain p _ => outside p
  | .portCntClr p _ => outside p
  | .floodStart _ _ => true
  | .floodEnd _ => true
  | .floodTimeout _ _ => true
  | .portDisable p _ => outside p
  | .disableDone _ => true
  | .portEnable p _ => outside p
  | .crdRx _ param => paramOk param
  | .tsTallyreqRx _ _ => true
  | .tsTallyRx _ _ _ _ => true
  | .skpSend _ => true
  | .preRx _ came => sentOk (came.getD 0)
  | .rsmRx _ _ _ => true
  | .receiveWithoutCredit _ => true
  | .packetHeaderRx _ _ _ _ _ _ => true
  | .packetTrailerRx _ payload t0 t1 => endOk payload t0 t1
  | .eabRx _ _ _ _ => true
  | .selectorStart _ => true
  | .recordExpiry _ _ _ _ => true
  | .proxyRx => true
  | .hubreqRx => true
  | .getNodeInfo => true
  | .setAddress => true
  | .getPortStatus => true
  | .setPortFeatureEnable => true
  | .clearPortFeatureEnable => true
  | .setPortFeatureRetrain => true
  | .clearPortFeatureEvents => true
  | .setPortFeaturePortReset => true
  | .setPortFeatureFrag => true
  | .clearPortFeatureFrag => true
  | .setPortFeatureSuspend => true
  | .clearPortFeatureSuspend => true
  | .setPortFeatureBcnFwd => true
  | .clearPortFeatureBcnFwd => true
  | .setRoute => true
  | .setMcast => true
  | .setSchedule => true
  | .setCrew => true
  | .setClockPlan => true
  | .getMeter => true
  | .setPortPower => true
  | .readLog => true
  | .serviceWatchdog => true
  | .getSurveyRecord => true
  | .setBudget => true
  | .ssplitRx => true
  | .csplitRx => true
  | .chunkGrant => true
  | .ttSlotTimeout _ => true
  | .ttSlotExpire _ => true
  | .periodicSlotExpire _ => true
  | .ttCntClr p => outside p
  | .strokeBoundary => true
  | .beaconMissed => true
  | .stkBeaconRx ws _ _ => beaconOk ws
  | .slewTick => true
  | .holdoverExpiry => true
  | .tbTime0Read r => readOk r
  | .catchDue _ => true
  | .catchPinEnd _ => true
  | .strokeOutEnd => true
  | .censusOpen => true
  | .surveyOpen => true
  | .probeTimeout => true
  | .surveyProbe => true
  | .surveyEcho => true
  | .surveyToken => true
  | .recordSent => true
  | .probeWaitTimeout => true
  | .surveyPortTimeout _ => true
  | .surveyReturn => true
  | .surveyKeep => true
  | .keepTimer => true
  | .upSuspendTimeout => true
  | .portSilenceTimeout _ => true
  | .holdIdlDone _ => true
  | .portSuspend p _ => outside p
  | .portResume p _ => outside p
  | .beaconFromAbove => true
  | .upBcnDeassert => true
  | .bcnDriveEnd _ => true
  | .upHoldSdEnd => true
  | .txIdleDark _ => true
  | .txWake _ => true
  | .darkLimit _ => true
  | .schedPrewake _ => true
  | .schedWindowEnd _ => true
  | .l1Entry => true
  | .l1Exit => true
  | .memRequestRefused _ _ => true
  | .d3hotEntry _ => true
  | .d0Return _ => true
  | .domRightsWrite _ _ => true
  | .gapTimerEnd _ _ => true
  | .msixUnmask _ _ => true
  | .completionTimeout _ _ => true
  | .hmaDecision => true
  | .ulaDecision => true
  | .ulaPreempt sent => sentOk sent
  | .ulaResume => true
  | .emergencyGrant => true
  | .holdCutoff _ => true
  | .cutClear p _ _ _ => outside p
  | .doorbellWatch _ => true
  | .prestrokeWatch _ => true
  | .doorbellReadDone _ _ _ _ => true
  | .doorbellRetry _ => true
  | .hostReadFailed _ _ _ => true
  | .commandFetchDone _ _ => true
  | .nop _ => true
  | .ringSet _ => true
  | .ringStop _ => true
  | .epHalt _ => true
  | .portPower _ => true
  | .cmdSetBudget _ => true
  | .ppsLimit _ => true
  | .meterSnap _ => true
  | .meterRead _ => true
  | .crewSet _ => true
  | .catchPin _ => true
  | .logRead _ => true
  | .portStatus _ => true
  | .nodeInfo _ => true
  | .commandDataDone _ => true
  | .descriptorFetchDone _ _ _ => true
  | .sendDataFetchDone _ _ data => bytesOk data
  | .recvDrain _ => true
  | .eventWrite _ => true
  | .localSetup => true
  | .localOutData => true
  | .localInRequest => true
  | .localCstat => true
  | .localPout => true
  | .localPinq => true
  | .confirmTimeout _ => true
  | .epMissed _ => true
  | .lnEnable p => outside p
  | .lnDisable p => outside p
  | .epEnable p _ => outside p
  | .epDisable p _ => outside p
  | .epCntClr p _ => outside p
  | .epmaskWrite _ _ _ => true
  | .domainEnable _ => true
  | .domainDisable _ => true
  | .teardownComplete _ => true
  | .resyncGo _ => true
  | .easyState _ => true
  | .summaryDone _ => true
  | .queuePointerMismatch q _ _ => queueOk q
  | .queueInject p _ => outside p
  | .qCntClr p => outside p
  | .evfPop => true
  | .evfFlush p => outside p
  | .ppsOn p _ => outside p
  | .ppsOff p _ => outside p
  | .ppsFclr p _ => outside p
  | .meterSample _ _ => true
  | .powerGood _ _ => true
  | .powerGoodLoss _ => true
  | .foldTmo _ => true
  | .oc _ => true
  | .shortOff _ => true
  | .gateStuck _ _ => true
  | .reverse _ => true
  | .legopen _ => true
  | .retryEnd _ => true
  | .retryCountClear _ => true
  | .gateOffCheckpoint _ _ => true
  | .dischargeEnd _ => true
  | .offDischargeEnd _ => true
  | .budgetWrite p _ => outside p
  | .pclassWrite p _ => outside p
  | .gangWrite p _ => outside p
  | .vlinkLow => true
  | .vlinkRestored => true
  | .snapshotGo p => outside p
  | .snapshotComplete => true
  | .featherIdleExpiry => true
  | .stowIdleExpiry => true
  | .pmReqFeather p => outside p
  | .pmReqStow p => outside p
  | .kregLowPower => true
  | .kregBoostEnd => true
  | .kregHeavy => true
  | .wakeSource _ _ _ => true
  | .corePgRise => true
  | .linkDieResetRelease sfdp => sfdpOk sfdp
  | .powerUpFailure => true
  | .powerUpRetry => true
  | .linkDiePowerLoss => true
  | .corelossRestart => true
  | .wdtTimeout => true
  | .wdtServiceWrite p _ => latchPath p
  | .wdtKeyWrite p _ => outside p
  | .wdtEnable p => outside p
  | .wdtLockSet p => outside p
  | .wdtPeriodWrite p _ _ => outside p
  | .wdtGraceEnd => true
  | .hostRstEnd => true
  | .bbEntry => true
  | .bbRearm p => outside p
  | .bbClear p => outside p
  | .bbIndexWrite p _ => outside p
  | .bbFlashCopyDone _ _ => true
  | .lgScan => true
  | .lgScanDone slot => slotOk slot
  | .supplyFail => true
  | .bbTestFlush p => outside p
  | .flashSuspended => true
  | .pageProgramDone => true
  | .supplyRestored => true
  | .flRead p _ => outside p
  | .flNext p => outside p
  | .flProgram p _ _ _ => outside p
  | .flErase4k p _ => outside p
  | .flErase64k p _ => outside p
  | .flAbort p => outside p
  | .flOpDone _ _ => true
  | .mgWrite _ _ => true
  | .mgRead _ => true
  | .mgWriteBurst _ ws => burstOk ws.length
  | .mgReadBurst _ n => burstOk n
  | .mgStatus => true
  | .reglockWrite p _ => outside p
  | .registerWrite p off _ _ => outside p && offOk off
  | .xinLoss => true
  | .codeViolation _ => true
  | .eopSent _ => true
  | .sdChange _ _ => true
  | .mgCsNFalling => true
  | .frameerr => true
  | .unexpectedCompletion => true
  | .pcieL0Reached => true

end Sys2Proof
end

