-- ==== Sys2Proof/Tests/Slice0.lean ====
section
/-! SUPPORT. Small tests: ill-formed commands that WellFormed refuses, single steps from small states with
results taken from the manual, and for each clause of a statement a state and operands that meet its hypotheses. -/

set_option maxRecDepth 100000
set_option linter.unusedTactic false
set_option linter.unreachableTactic false

namespace Sys2Proof.Tests

open Sys2Proof Sys2Proof.Machine Sys2Proof.Safety

/-! ## WellFormed refuses -/

theorem test_wf_path : wellFormed (.swrst .hub) = false := by decide
theorem test_wf_latch_path : wellFormed (.wdtServiceWrite .image 0#16) = false := by decide
theorem test_wf_read_path : wellFormed (.tbTime0Read (.reg .image)) = false := by decide
theorem test_wf_read_bar0 : wellFormed (.tbTime0Read (.bar0 0 0#16 0)) = false := by decide
theorem test_wf_read_bar2 : wellFormed (.tbTime0Read (.bar2 0#16 0)) = false := by decide
theorem test_wf_read_config : wellFormed (.tbTime0Read (.config 0 2)) = false ∧
    wellFormed (.tbTime0Read (.config 0 4096)) = false := by decide
theorem test_wf_straps : wellFormed (.porRelease 0x0010#16) = false := by decide
theorem test_wf_offset : wellFormed (.byteWrite .pf 0x0002#16) = false := by decide
theorem test_wf_dws : wellFormed (.registerWrite .pf 0x0002#16 (.full, 0#32) []) = false := by decide
theorem test_wf_end : wellFormed (.packetTrailerRx 0 [] none (some 0#16)) = false ∧
    wellFormed (.packetTrailerRx 0 [0#16] (some 0#16) none) = false := by decide
theorem test_wf_beacon : wellFormed (.stkBeaconRx [0#16] 0#16 true) = false := by decide
theorem test_wf_burst : wellFormed (.mgWriteBurst 0#16 []) = false := by decide
theorem test_wf_bytes : wellFormed (.sendDataFetchDone 0 0 [256]) = false := by decide
theorem test_wf_slot : wellFormed (.lgScanDone (some 16)) = false := by decide
theorem test_wf_queue : wellFormed (.queuePointerMismatch 256 false false) = false := by decide
theorem test_wf_sent : wellFormed (.ulaPreempt 519) = false := by decide
theorem test_wf_sfdp : wellFormed (.linkDieResetRelease
    (some { page256 := true, erase4k := true, erase64 := true, suspend := true, size := 0, width := 3, addr4 := false })) = false := by
  decide
theorem test_wf_image : imageOk (List.replicate 10007 0#16) = false := by simp [imageOk]
theorem test_wf_param : wellFormed (.crdRx 0 0x0100#16) = false := by decide
theorem test_wf_count : wellFormed (.numvfsWrite 65536) = false := by decide
theorem test_wf_trial : wellFormed (.trialSent 0 []) = false := by decide
theorem test_wf_accepts : wellFormed (.porRelease 0x000F#16) = true ∧
    wellFormed (.registerWrite .pf 0x0044#16 (.full, 0#32) []) = true := by decide

/-! ## Small states -/

/-- The reset state with the PF's window open. -/
def host : State :=
  { State.reset with pcie := { State.reset.pcie with
      fns := vMod State.reset.pcie.fns 0 fun f => { f with mse := true, bme := true }, ready := true } }

/-- The reset state with the Link die unpowered in STOW. -/
def stowed : State := { State.reset with pm := { State.reset.pm with st := .stow } }

/-- The reset state while VSYS is below POR. -/
def low : State := { State.reset with rst := { State.reset.rst with por := true } }

/-- The state `host` with port n changed. -/
def pt (n : PortN) (f : Port → Port) : State := modPort host n f

/-- The state `host` with port n in state x. -/
def inSt (n : PortN) (x : TrSt) : State := pt n fun p => { p with st := x }

/-- A port in ACTIVE at rate 2 with its credits. -/
def live (p : Port) : Port := { p with st := .active, rate := 2, pcap0 := 0x1FFF#16, ptx := 16, ntx := 48 }

/-- UP is ACTIVE. -/
def up : State := pt 0 live

/-- UP and D1 are ACTIVE. -/
def both : State := modPort up 1 live

/-- The state with CORE on the PLL. -/
def fast (s : State) : State := { s with clk := { s.clk with corePll := true } }

/-- The state `host` with another time base. -/
def tbs (f : Tb → Tb) : State := { host with tb := f host.tb }

/-- The state `host` with other clocks. -/
def clks (f : Clk → Clk) : State := { host with clk := f host.clk }

/-- A header. -/
def hd (typ : BitVec 4) (addr : Word) (tsb : BitVec 8) : Hdr :=
  { typ := typ, odd := false, pcls := false, hop := 0#10, addr := addr, endp := 0#5, epoch := 0#4, tag := 1#7, tsb := tsb }

/-- A whole packet that waits for the block `dest`. -/
def inb (dest : Deliver) (h : Hdr) (ws : List Word) : Inbox :=
  { pid := 1, dest := dest, port := 0, pkt := { hdr := h, payload := ws }, stamp := 0, pll := false, mc := false }

/-- The state with that packet waiting. -/
def has (s : State) (x : Inbox) : State := { s with bus := { s.bus with inbox := [x] } }

/-- A hub request. -/
def ask (req flags : Nat) (v i l : Word) (data : List Word) : HubReq :=
  { pkt := { hdr := hd 14#4 0xFFFE#16 0#8, payload := [w16 (req * 256 + flags), v, i, l] ++ data }, mc := false }

/-- The state with that request in the hub function. -/
def asks (s : State) (r : HubReq) : State := { s with bus := { s.bus with hubQ := [r] } }

/-- A packet being received. -/
def rxp (dest : List Deliver) : RxPkt :=
  { pid := 7, hdr := hd 3#4 5#16 0#8, stamp := 0, pll := false, len := 8, ended := false, mc := false, bad := false,
    got := 3, since := 0, dest := dest, old := false }

/-- A packet for an output. -/
def txp (typ : BitVec 4) : TxPkt := ownTx { hdr := hd typ 5#16 0#8, payload := [] } .none

/-- A slot of the translator on D1. -/
def slot (st : SlotSt) : Slot :=
  { port := 0, addr := 5#16, endp := 0#5, tag := 1#7, epoch := 0#4, pcls := false, ityp := 3#4, st := st, inCh := 1,
    ansCh := 0, ans := none, sent := true, rx := none, wants := none, strokes := 40, tmo := 16 }

/-- The state `both` with that slot. -/
def slots (x : Slot) : State := { both with tt := { both.tt with slots := both.tt.slots.set 0 (some x) } }

/-- The state `up` with an assigned address. -/
def addressed : State := { up with bus := { up.bus with node := 5#16 } }

/-- The state `s` with another survey engine. -/
def sweeping (s : State) (f : Sur → Sur) : State := { s with sur := f s.sur }

/-- The state `host` with D1's switch changed. -/
def sw (f : Pps → Pps) : State := modPps host 0 f

/-- The state `host` with D1's switch in state x. -/
def swIn (x : PpsSt) : State := sw fun p => { p with st := x }

/-- The state `host` with the always-on part of port n changed. -/
def aonPt (n : PortN) (f : AonPort → AonPort) : State :=
  { host with aon := { host.aon with ports := vMod host.aon.ports n f } }

/-- The state `host` with the power state logic changed. -/
def pms (f : Pm → Pm) : State := { host with pm := f host.pm }

/-- The state `host` with the watchdog changed. -/
def wdts (f : Wdt → Wdt) : State := { host with wdt := f host.wdt }

/-- The state `host` with the black box changed. -/
def bbs (f : Bb → Bb) : State := { host with bb := f host.bb }

/-- The state `host` with the flash controller changed. -/
def fls (f : Fl → Fl) : State := { host with fl := f host.fl }

/-- The state `host` with the endpoint changed. -/
def pcies (f : Pcie → Pcie) : State := { host with pcie := f host.pcie }

/-- The state `host` with domain d changed. -/
def dom (d : DomN) (f : Dom → Dom) : State := modDom host d f

/-- A flush. -/
def flush (cause : FlushCause) (pages : Nat) (pins : Bool) : Flush :=
  { cause := cause, entries := [], head := 0, aon := 0, pages := pages, pins := pins }

/-- What the flash reports. -/
def sfdp : Sfdp := { page256 := true, erase4k := true, erase64 := true, suspend := true, size := 0x400000, width := 0, addr4 := false }

/-- The state `s` in which requester r of the HMA holds the path for q. -/
def holds (s : State) (r : Nat) (q : HReq) : State :=
  { s with hma := { s.hma with cur := some q, arb := { s.hma.arb with holder := some r } } }

/-- UP is ACTIVE with fragments, requester 0 holds it and its packet is being sent. -/
def sending : State :=
  let s := modPort up 0 fun p => { p with fragSent := true, txCur := some { txp 3#4 with len := 40, done := false } }
  { s with ula := { s.ula with preEn := true, arb := { s.ula.arb with holder := some 0 } } }

/-- The state `s` with these packets of requester r of the ULA. -/
def queued (s : State) (r : Nat) (l : List TxPkt) : State :=
  { s with ula := { s.ula with reqs := s.ula.reqs.setIfInBounds r l, arb := { s.ula.arb with pri := Vector.replicate 28 8#16 } } }

/-- A periodic packet for an output. -/
def perp : TxPkt := ownTx { hdr := { hd 6#4 5#16 0#8 with pcls := true }, payload := [] } .none

/-- UP with a suspended packet x. -/
def suspended (x : TxPkt) : State := { up with ula := { up.ula with susp := some (x, 6), arb := { up.ula.arb with aside := some 0 } } }

/-- A grant that no slot entry decides. -/
def arb0 : Arb := { host.hma.arb with slots := [] }

/-- A queued event entry. -/
def evq (code src : Nat) : EvQ := { ev := { code := code, src := src }, time := 0#16, seq := 0 }

/-- Domain 0 runs. -/
def running : State := dom 0 fun x => { x with st := .run, cmdRing := .running }

/-- An outstanding read of domain 0. -/
def rd (u : ReadUse) : ReadOut := { dom := 0, use := u, n := 1, pre := false, off := 0, len := 0 }

/-- The state `s` with that read outstanding. -/
def reading (s : State) (u : ReadUse) : State := { s with pcie := { s.pcie with reads := [rd u] } }

/-- A command with its parameters. -/
def cm (op p0 p1 a : Word) : Cmd := { count := 0#16, w := #v[op, 7#16, p0, p1, a, 0#16, 0#16, 0#16] }

/-- Domain 0 runs with the rights r and that command in front. -/
def front (r : Word) (c : Cmd) : State := modDom running 0 fun x => { x with cmdQ := [c], rights := r }

/-- A descriptor with an OP and a length. -/
def desc (op len : Word) : Desc := { count := 0#16, w := #v[0#16, 0#16, 0#16, 0#16, len, op, 0#16, 0#16] }

/-- Endpoint k of the node on an active UP, enabled and then changed. -/
def node (k : EpN) (f : Ep → Ep) : State := modEp up k fun e => f { e with en := true, size := 64 }

/-- A packet for the local node. -/
def lp (typ : BitVec 4) (k : BitVec 5) (ws : List Word) : Inbox := inb .loc { hd typ 0xFFFE#16 0#8 with endp := k } ws

/-- The state `both` with UP at a higher rate, so that D1 is in split mode. -/
def splitUp : State := modPort both 0 fun p => { p with rate := 3 }

/-- The state `s` at slot j of the metering frame. -/
def atSlot (s : State) (j : Nat) : State := { s with mtr := { s.mtr with slot := j } }

/-- An image of two records that write SCRATCH. -/
def image2Words : List Word :=
  [0x584B#16, 1#16, 2#16, 0#16, 5522#16, 3790#16, 0x11#16, 1#16, 0x11#16, 2#16]

/-- The states that it passes through from `s`. -/
def image2Step (s : State) (i : Nat) : State :=
  forEach (List.range i) (imageRecord [0x11#16, 1#16, 0x11#16, 2#16]) s
theorem image2 (s : State) : ∀ i < (wAt image2Words 2).toNat, image2Step s (i + 1) =
    (if linkOn (image2Step s i) then
      (match regAtWord (wAt image2Words (6 + 2 * i)).toNat with
        | some r => writeReg (image2Step s i) .image (wAt image2Words (7 + 2 * i)) r
        | none => image2Step s i) else image2Step s i) := by
  intro i hi
  have h2 : i < 2 := hi
  rcases (by omega : i = 0 ∨ i = 1) with rfl | rfl <;> rfl

/-- The state `s` after the packets that waited have been taken. -/
def drained (s : State) : State := { s with bus := { s.bus with inbox := [] } }

/-! ## Single steps -/

/-- The state that an outcome answers, and the given state where it answers none. -/
def after (o : Host.Outcome State Fault Refusal) (s : State) : State :=
  match o with
  | .next t => t
  | _ => s

/-- R430. -/
theorem test_scratch :
    (after (exec (.registerWrite .pf 0x44#16 (.full, 0xABCD1234#32) []) host) host).glob.scratch = 0x1234#16 := by
  decide
/-- R45. -/
theorem test_byte_write : (after (exec (.byteWrite .pf 0x44#16) host) host).glob.bytewr = 1 := by decide
/-- R44: POR writes 0x0001. -/
theorem test_por_cause : (after (exec (.porRelease 0x0004#16) low) low).rst.cause = 0x0001#16 := by decide
/-! ## Witnesses: states and operands that meet the hypotheses of the statements -/

theorem witness_StepRunsFront : ({ host with pending := [.skpSend 0] } : State).pending = .skpSend 0 :: [] := rfl
theorem witness_IdleTickAdvancesTime : State.reset.pending = [] ∧ linkOn State.reset = true ∧ linkOn stowed = false ∧
    State.reset.tb.corr = false ∧ State.reset.clk.corePll = false ∧ State.reset.ports[(0 : PortN)].tallyDue = false ∧
    (tbs fun t => { t with corr := true }).tb.corr = true ∧ linkOn (tbs fun t => { t with corr := true }) = true := by
  decide
/-- The correction runs on the PLL with the sum at `acc`. -/
def correcting (acc : Int) : State := fast (tbs fun t => { t with corr := true, corrAcc := acc })
theorem witness_IdleTick_correction : (∀ x ∈ [(0 : Int), 100000000, -100000000], linkOn (correcting x) = true ∧
      (correcting x).tb.corr = true ∧ (correcting x).clk.corePll = true ∧ sInt (correcting x).tb.synt = 0 ∧
      (correcting x).tb.corrAcc = x ∧ (correcting x).pending = []) := by decide
theorem witness_StepKeepsTables : tablesWf host = true ∧ step host = .next (idleTick host) := ⟨by decide, rfl⟩
theorem witness_PowerDieInReset : powerOn low = false ∧ actsInReset (.skpSend 0) = false := by decide
theorem witness_LinkDieOff : linkOn stowed = false ∧ powerDieRow (.skpSend 0) = false := by decide

/-! ## Witnesses that need a state of their own -/

/-- UP is ACTIVE with the servo on, and a beacon of F = 0 finds the offset o. -/
def beaconAt (o : BitVec 32) (f : Tb → Tb) : State :=
  { up with clk := { up.clk with refAct := 2, corePll := true },
            tb := f { up.tb with servo := true, hop := o, valid := true, dlyOk := true, dlyPll := true } }

theorem witness_StrokeBeacons_offset :
    (∀ s ∈ [both, beaconAt 20 id, beaconAt 21 id, beaconAt 400 id, beaconAt 401 id],
      linkOn s = true ∧ isUp s.ports[(0 : PortN)] = true ∧ s.ports[(0 : PortN)].flooding = false ∧
        (beaconFits (ofWords [0, 0, 0, 0]) 0).contains s.tb.len = true) ∧
    (beaconAt 20 fun t => { t with servo := false }).tb.servo = false ∧ up.tb.locked = false ∧ up.tb.holdover = false ∧
    (isUp both.ports[dnPort 0] = true ∧ bit both.aon.ports[dnPort 0].feather 3 = false ∧
      both.aon.ports[dnPort 0].hold = .none) ∧
    ((beaconAt 400 id).tb.servo = true ∧ (beaconOffset (beaconAt 400 id) 0).natAbs ≤ 400) ∧
    ((beaconAt 401 id).tb.servo = true ∧ 400 < (beaconOffset (beaconAt 401 id) 0).natAbs) ∧
    (beaconOffset (beaconAt 20 id) 0).natAbs ≤ 4 * (beaconAt 20 id).tb.lockWin ∧
    ¬ (beaconOffset (beaconAt 21 id) 0).natAbs ≤ 4 * (beaconAt 21 id).tb.lockWin := by decide

theorem witness_StrokeBeacons_lock :
    (∃ s : State, s.tb.locked = false ∧ lockCond s = true ∧ (beaconOffset s 0).natAbs ≤ 4 * s.tb.lockWin ∧
      7 ≤ s.tb.runIn ∧ (beaconOffset s 0).natAbs ≤ 400) ∧
    (∃ s : State, s.tb.locked = false ∧ s.tb.runIn < 7) ∧
    (∃ s : State, s.tb.locked = true ∧ ¬ (beaconOffset s 0).natAbs ≤ 4 * s.tb.lockWin ∧ 2 ≤ s.tb.runOut ∧
      (beaconOffset s 0).natAbs ≤ 400) := by
  refine ⟨⟨beaconAt 20 fun t => { t with runIn := 7 }, ?_⟩, ⟨up, ?_⟩,
    ⟨beaconAt 21 fun t => { t with locked := true, runOut := 2 }, ?_⟩⟩ <;> decide

/-- A beacon that D1 does not send on leaves what D1 has put out. -/
theorem witness_StrokeBeacons_kept :
    ¬ isUp ({ up with out := [.stk 1 []] } : State).ports[dnPort 0] = true ∧
    Out.stk (dnPort 0) [] ∈ ({ up with out := [.stk 1 []] } : State).out := by decide

theorem witness_ManagementFrames_burst :
    let go (k : Nat) : State :=
      (([Reg.scratch, .scratch].zip [1#16, 2#16]).take k).foldl (fun u x => writeReg u .mg x.2 x.1)
        (emit host (.mgStatus (mgStatusByte host)))
    reaches host .mg = true ∧ regAtWord 0x11 = some .scratch ∧
    ∀ k < 1, reaches (go k) .mg = true := by decide

/-- D1 may feather: by its schedule, its idle timer or neither. -/
def feathered (feather : Word) (locked : Bool) (f : Port → Port) : State :=
  let s := modPort { host with tb := { host.tb with locked := locked } } 1 fun p => f (live p)
  { s with aon := { s.aon with ports := vMod s.aon.ports 1 fun a => { a with feather := feather } } }

theorem witness_Feathering_idle :
    (∃ s : State, linkOn s = true ∧ feathers s.ports[1] s.aon.ports[1] = true ∧ bit s.aon.ports[1].feather 1 = true ∧
      txIdle s 1 = true ∧ schedRuns s 1 = false ∧ catchSoon s 1 (wakeTicks s 1) = false) ∧
    (∃ s : State, linkOn s = true ∧ feathers s.ports[1] s.aon.ports[1] = true ∧ bit s.aon.ports[1].feather 1 = true ∧
      txIdle s 1 = true ∧ schedRuns s 1 = true ∧ inPeriodic s 1 (strokePos s) = false ∧ keepsLit s 1 = false) ∧
    (∃ s : State, linkOn s = true ∧ bit s.aon.ports[1].feather 1 = false) ∧
    ∃ s : State, linkOn s = true ∧ feathers s.ports[1] s.aon.ports[1] = true ∧ bit s.aon.ports[1].feather 1 = true ∧
      txIdle s 1 = true ∧ schedRuns s 1 = true ∧ inPeriodic s 1 (strokePos s) = true := by
  refine ⟨⟨feathered 2 false id, ?_⟩,
    ⟨{ feathered 3 true id with tb := { (feathered 3 true id).tb with time := 345000 } }, ?_⟩, ⟨feathered 0 false id, ?_⟩,
    ⟨feathered 3 true id, ?_⟩⟩ <;> decide

/-- A PROXY for D1 with an inner header of type `typ`. -/
def proxy (typ : Word) : Inbox := inb .proxy (hd 13#4 0xFFFE#16 1#8) [typ, 0xFFFE#16, 0#16, 0#16]
/-- Sixty-four records of the Slow port D1, none of them the inner request's. -/
def fullRecs : List Rec :=
  List.replicate 64 { addr := 5#16, endp := 0#5, tag := 2#7, epoch := 0#4, pcls := false, typ := 3#4 }

theorem witness_ProxyAndSplits_good :
    (∃ u, takeInbox (has both (proxy 0xE000#16)) (fun x => x.dest = .proxy) = some (proxy 0xE000#16, u)) ∧
    linkOn (has both (proxy 0xE000#16)) = true ∧ proxyBad (proxy 0xE000#16).pkt = false ∧
    proxyBad (proxy 0x6000#16).pkt = false ∧ (proxy 0xE000#16).pkt.hdr.tsb.toNat = (0 : DnN).val + 1 ∧
    isUp both.ports[dnPort 0] = true ∧ isUp both.ports[(0 : PortN)] = true ∧
    both.ports[dnPort 0].recs.length < 64 ∧ hopFull (proxy 0xE000#16).pkt.hdr = false ∧
    expectsAnswer (hdrOf 0xE000#16 0xFFFE#16 0#16 0#16) = true ∧
    expectsAnswer (hdrOf 0x6000#16 0xFFFE#16 0#16 0#16) = false ∧
    fullRecs.length = 64 ∧ ∀ r ∈ fullRecs, recMatch (hdrOf 0xE000#16 0xFFFE#16 0#16 0#16) r = false :=
  ⟨⟨_, rfl⟩, by decide⟩

/-! ## Witnesses, clause by clause -/

theorem witness_WdtLockStays :
    (∃ s : State, ∃ t : State, s.wdt.lock = true ∧ (∀ cs, s.pending ≠ .por :: cs) ∧ step s = .next t) ∧
    (∃ p : Path, ∃ v : BitVec 32, ∃ w : Word, ∃ s : State, p ≠ .mg ∧ reaches s p = true ∧ w = v.setWidth 16) ∧
    (∃ s : State, reaches s .mg = true) ∧
    (∃ p : Path, ∃ v : BitVec 32, ∃ n : Word, ∃ s : State, p ≠ .mg ∧ reaches s p = true ∧ n = w16 (max 1 (v.toNat %
      256))) ∧
    (∃ p : Path, ∃ s : State, (p = .pf ∨ p = .mg) ∧ reaches s p = true ∧ s.wdt.lock = true ∧ s.wdt.key = true) := by
  refine ⟨?_, ?_, ?_, ?_, ?_⟩
  · exact ⟨wdts fun w => { w with lock := true }, idleTick (wdts fun w => { w with lock := true }), ⟨rfl, nofun, rfl⟩⟩
  · exact ⟨.pf, 6#32, 6#16, wdts fun w => { w with lock := true }, by decide⟩
  · exact ⟨host, by decide⟩
  · exact ⟨.pf, 6#32, 6#16, wdts fun w => { w with lock := true }, by decide⟩
  · exact ⟨.mg, wdts fun w => { w with lock := true, key := true }, by decide⟩
theorem witness_PorAndRelease :
    (∃ s : State, s.rst.por = true ∧ s.rst.pin = false) ∧
    (∃ s : State, s.rst.por = true ∧ s.rst.pin = true) := by
  refine ⟨?_, ?_⟩
  · exact ⟨low, by decide⟩
  · exact ⟨{ low with rst := { low.rst with pin := true } }, by decide⟩
theorem witness_PinResetAndBrownOut :
    (∃ s : State, s.rst.pin = false ∧ s.rst.por = false ∧ s.bb.flush = none) ∧
    (∃ s : State, s.rst.pin = true ∧ s.rst.por = false ∧ s.rst.due = false) ∧
    (∃ s : State, powerOn s = true ∧ (s.pm.st = .stow ∨ s.pm.st = .waking) ∧ s.rst.due = false) := by
  refine ⟨?_, ?_, ?_⟩
  · exact ⟨host, by decide⟩
  · exact ⟨{ host with rst := { host.rst with pin := true } }, by decide⟩
  · exact ⟨stowed, by decide⟩
theorem witness_RegisterWrites :
    (∃ p : Path, ∃ off : Word, ∃ be : ByteEn, ∃ r : Reg, ∃ s : State, reaches s p = true ∧ (be = .full ∨ be = .both) ∧
      regAtWord (off.toNat / 4) = some r) ∧
    (∃ w : VfN, ∃ off : Word, ∃ be : ByteEn, ∃ r : Reg, ∃ s : State, linkOn s = true ∧ winOpen s (vfDom w) = true ∧
      (be = .full ∨ be = .both) ∧ regAtVf (vfDom w) (off.toNat / 4 * 4) = some r) ∧
    (∃ off : Word, ∃ s : State, reaches s .pf = true ∧ (¬ (0x6000 ≤ off.toNat ∧ off.toNat < 0x6808))) ∧
    (∃ p : Path, ∃ off : Word, ∃ be : ByteEn, ∃ s : State, reaches s p = true ∧ (be = .full ∨ be = .both) ∧ regAtWord
      (off.toNat / 4) = none ∧ (¬ (0x6000 ≤ off.toNat ∧ off.toNat < 0x6808))) ∧
    (∃ p : Path, ∃ off : Word, ∃ x : ByteEn × BitVec 32, ∃ y : ByteEn × BitVec 32, ∃ more, ∃ s : State, ∃ t : State, ∃
      u : State, off.toNat + 4 < 0x10000 ∧ powerOn t = powerOn s ∧ exec (.registerWrite p off x []) s = .next t ∧ exec
      (.registerWrite p (off + 4#16) y more) t = .next u) ∧
    (∃ s : State, linkOn s = true ∧ winOpen s 0 = false) ∧
    (∃ w : VfN, ∃ s : State, linkOn s = true ∧ winOpen s (vfDom w) = false) ∧
    (∃ p : Path, ∃ s : State, linkOn s = false ∧ p ≠ .mg) := by
  refine ⟨?_, ?_, ?_, ?_, ?_, ?_, ?_, ?_⟩
  · exact ⟨.pf, 0x44#16, .full, .scratch, host, by decide⟩
  · exact ⟨0, 0x200#16, .both, .idPart, pcies fun x => { x with vfe := true, numVfs := 7, vfMse := true }, by decide⟩
  · exact ⟨0x5FFC#16, host, by decide⟩
  · exact ⟨.pf, 0xFFFC#16, .both, host, by decide⟩
  · exact ⟨.pf, 0x44#16, (.none, 0#32), (.none, 0#32), [(.none, 0#32)], host, host, host, by and_intros <;>
      first | rfl | decide⟩
  · exact ⟨State.reset, by decide⟩
  · exact ⟨0, State.reset, by decide⟩
  · exact ⟨.pf, stowed, by decide⟩
theorem witness_WrittenRegistersReadBack :
    ∃ rm : Reg × Word, rm ∈ [(Reg.scratch, 0xFFFF#16), (.featherIdle, 0xFFFF#16), (.stowIdle, 0xFFFF#16), (.retSel,
      0x000F#16), (.wakeEn, 0x3FFF#16), (.wakePol, 0x00FF#16), (.wakeEdge, 0x00FF#16), (.wakeMode, 0x3FFF#16),
      (.kregCtrl, 0x0003#16), (.bbTrig0, 0xFFFF#16), (.bbTrig1, 0x80FF#16), (.bbPost, 0x00FF#16), (.lnClass,
      0xFFFF#16), (.lnUid 0, 0xFFFF#16), (.lnUid 3, 0xFFFF#16), (.arb .hma .ctrl, 0x0007#16), (.arb .ula .ctrl,
      0x0007#16)] :=
  ⟨(.scratch, 0xFFFF#16), by decide⟩
theorem witness_WriteOneClears :
    (∃ v : Word, bit v 0 = true) ∧
    (∃ s : State, domExists s 0 = true) ∧
    (∃ s : State, ∃ w : VfN, domExists s (vfDom w) = true) := by
  refine ⟨?_, ?_, ?_⟩
  · exact ⟨1#16, by decide⟩
  · exact ⟨host, by decide⟩
  · exact ⟨pcies fun x => { x with vfe := true, numVfs := 7 }, 6, by decide⟩
theorem witness_ManagementFrames :
    (∃ a : Word, ∃ r : Reg, ∃ s : State, reaches s .mg = true ∧ a.toNat < 0x4000 ∧ regAtWord a.toNat = some r) ∧
    (∃ s : State, powerOn s = true ∧ (s.glob.mgWr = false ∨ linkHeld s = false)) ∧
    (∃ a : Word, ∃ r : Reg, ∃ s : State, linkOn s = true ∧ a.toNat < 0x4000 ∧ regAtWord a.toNat = some r ∧ r ≠
      .evfData 0 ∧ r ≠ .tbTime 0) ∧
    (∃ a : Word, ∃ n : Nat, ∃ s : State, linkOn s = true ∧ (∀ i < n, mgReg ((a.toNat + i) % 65536) ≠ some (.evfData 0)
      ∧ mgReg ((a.toNat + i) % 65536) ≠ some (.tbTime 0))) ∧
    (∃ s : State, linkOn s = true) ∧
    (∃ s : State, powerOn s = true) := by
  refine ⟨?_, ?_, ?_, ?_, ?_, ?_⟩
  · exact ⟨0x11#16, .scratch, host, by decide⟩
  · exact ⟨host, by decide⟩
  · exact ⟨0x11#16, .scratch, host, by decide⟩
  · exact ⟨0x11#16, 2, host, by decide⟩
  · exact ⟨host, by decide⟩
  · exact ⟨host, by decide⟩
theorem witness_ManagementMisses :
    (∃ a : Word, ∃ r : Reg, ∃ s : State, powerOn s = true ∧ linkOn s = false ∧ a.toNat < 0x4000 ∧ regAtWord a.toNat =
      some r ∧ onPowerDie r = false) ∧
    (∃ a : Word, ∃ r : Reg, ∃ s : State, powerOn s = true ∧ linkOn s = false ∧ (s.glob.mgWr = false ∨ linkHeld s =
      false) ∧ a.toNat < 0x4000 ∧ regAtWord a.toNat = some r ∧ onPowerDie r = false) ∧
    (∃ s : State, powerOn s = true ∧ linkOn s = false ∧ (s.glob.mgWr = false ∨ linkHeld s = false)) ∧
    (∃ a : Word, ∃ s : State, linkHeld s = true ∧ s.glob.mgWr = true ∧ mgMayHold s = false ∧ mgReg a.toNat ≠ some
      .wdtService) := by
  refine ⟨?_, ?_, ?_, ?_⟩
  · exact ⟨0x11#16, .scratch, stowed, by decide⟩
  · exact ⟨0x11#16, .scratch, stowed, by decide⟩
  · exact ⟨stowed, by decide⟩
  · exact ⟨0x11#16, { host with glob := { host.glob with mgWr := true } }, by decide⟩
theorem witness_GlobalCommands :
    (∃ p : Path, ∃ s : State, (p = .pf ∨ p = .mg) ∧ reaches s p = true) ∧
    (∃ p : Path, ∃ s : State, (p = .pf ∨ p = .mg) ∧ reaches s p = true ∧ s.glob.cfgBusy = false) ∧
    (∃ p : Path, ∃ s : State, (p = .pf ∨ p = .mg) ∧ reaches s p = true ∧ s.glob.cfgBusy = true) ∧
    (∃ p : Path, ∃ s : State, reaches s p = true ∧ s.glob.lock = false) ∧
    (∃ p : Path, ∃ v : Word, ∃ s : State, reaches s p = true ∧ s.glob.lock = true ∧ (bit v 0 ≠ s.glob.hubPwr ∨ bit v 1
      ≠ s.glob.hubClk ∨ bit v 2 ≠ s.glob.mgWr)) := by
  refine ⟨?_, ?_, ?_, ?_, ?_⟩
  · exact ⟨.pf, host, by decide⟩
  · exact ⟨.pf, host, by decide⟩
  · exact ⟨.pf, { host with glob := { host.glob with cfgBusy := true } }, by decide⟩
  · exact ⟨.pf, host, by decide⟩
  · exact ⟨.pf, 1#16, { host with glob := { host.glob with lock := true } }, by decide⟩
theorem witness_ConfigurationImage :
    (∃ s : State, linkOn s = true ∧ s.glob.cfgBusy = false) ∧
    (∃ s : State, linkOn s = true ∧ s.glob.cfgBusy = true) ∧
    (∃ ws : List Word, ∃ s : State, linkOn s = true ∧ s.glob.cfgBusy = true ∧ wAt ws 0 ≠ 0x584B#16) ∧
    (∃ ws : List Word, ∃ s : State, linkOn s = true ∧ s.glob.cfgBusy = true ∧ wAt ws 0 = 0x584B#16 ∧ (imageBad ws ≠ 0
      ∨ (wAt ws 1 = 1#16 ∧ wAt ws 2 = 0#16))) ∧
    (∃ ws : List Word, ∃ us : Nat → State, ∃ s : State, ∃ u : State, linkOn s = true ∧ s.glob.cfgBusy = true ∧ wAt ws
      0 = 0x584B#16 ∧ imageBad ws = 0 ∧ us 0 = s ∧ (∀ i < (wAt ws 2).toNat, us (i + 1) = (if linkOn (us i) then (match
      regAtWord (wAt ws (6 + 2 * i)).toNat with
      | some r => writeReg (us i) .image (wAt ws (7 + 2 * i)) r | none => us i) else us i)) ∧ u = us (wAt ws 2).toNat) ∧
    (∃ ok, ∃ ws : List Word, ∃ seen, ∃ s : State, linkOn s = true ∧ s.glob.cfgBusy = true ∧ s.bb.scanDue = true ∧ bit
      s.bb.ctrl 3 = true ∧ s.bb.armed = false ∧ s.bb.scan = false ∧ ((ok = false ∧ seen = none) ∨ (ok = true ∧ (wAt ws
      0 ≠ 0x584B#16 ∨ imageBad ws ≠ 0) ∧ seen = some 0))) := by
  refine ⟨?_, ?_, ?_, ?_, ?_, ?_⟩
  · exact ⟨host, by decide⟩
  · exact ⟨{ host with glob := { host.glob with cfgBusy := true } }, by decide⟩
  · exact ⟨[0#16], { host with glob := { host.glob with cfgBusy := true } }, by decide⟩
  · exact ⟨[0x584B#16, 1#16, 0#16], { host with glob := { host.glob with cfgBusy := true } }, by decide⟩
  · exact ⟨image2Words, image2Step ({ host with glob := { host.glob with cfgBusy := true } }),
      { host with glob := { host.glob with cfgBusy := true } }, image2Step
      ({ host with glob := { host.glob with cfgBusy := true } }) 2, by and_intros <;> first | rfl | decide |
      exact image2 _⟩
  · exact ⟨false, [], none,
      { ({ host with glob := { host.glob with cfgBusy := true } }) with bb := { host.bb with scanDue := true, ctrl := 8#16 } },
      by decide⟩
theorem witness_ByteWritesIgnored :
    (∃ off : Word, ∃ r : Reg, ∃ s : State, reaches s .pf = true ∧ regAtWord (off.toNat / 4) = some r) ∧
    (∃ w : VfN, ∃ off : Word, ∃ r : Reg, ∃ s : State, linkOn s = true ∧ winOpen s (vfDom w) = true ∧ regAtVf (vfDom w)
      (off.toNat / 4 * 4) = some r) ∧
    (∃ off : Word, ∃ s : State, reaches s .pf = true ∧ regAtWord (off.toNat / 4) = none ∧ (¬ (0x6000 ≤ off.toNat ∧
      off.toNat < 0x6808))) ∧
    (∃ w : VfN, ∃ off : Word, ∃ s : State, linkOn s = true ∧ winOpen s (vfDom w) = true ∧ regAtVf (vfDom w) (off.toNat
      / 4 * 4) = none ∧ (¬ (0x800 ≤ off.toNat ∧ off.toNat < 0xC08))) := by
  refine ⟨?_, ?_, ?_, ?_⟩
  · exact ⟨0x44#16, .scratch, host, by decide⟩
  · exact ⟨0, 0x200#16, .idPart, pcies fun x => { x with vfe := true, numVfs := 7, vfMse := true }, by decide⟩
  · exact ⟨0xFFFC#16, host, by decide⟩
  · exact ⟨0, 0xFFFC#16, pcies fun x => { x with vfe := true, numVfs := 7, vfMse := true }, by decide⟩
theorem witness_ScratchRegister :
    (∃ p : Path, ∃ s : State, p ≠ .mg ∧ reaches s p = true) ∧
    (∃ s : State, reaches s .mg = true) ∧
    (∃ s : State, s.rst.pin = false ∧ s.rst.por = false ∧ s.bb.flush = none) ∧
    (∃ s : State, powerOn s = true ∧ (s.pm.st = .stow ∨ s.pm.st = .waking) ∧ s.rst.due = false) ∧
    (∃ p : Path, ∃ s : State, (p = .pf ∨ p = .mg) ∧ reaches s p = true) ∧
    (∃ s : State, powerOn s = true ∧ s.wdt.grace = true ∧ s.wdt.paused = false) ∧
    (∃ s : State, powerOn s = true ∧ (s.pm.st = .run ∨ s.pm.st = .feather) ∧ s.pm.pwrEn = true ∧ bit s.pm.pwrSeq 0 =
      false) ∧
    (∃ s : State, powerOn s = true ∧ s.pm.lossWait = true) ∧
    (∃ s : State, powerOn s = true ∧ s.bb.flush = none ∧ flushBar s = 0 ∧ flashWorks s = false ∧ s.pm.st ≠ .stow) ∧
    (∃ f : Flush, ∃ s : State, powerOn s = true ∧ s.rst.due = false ∧ s.bb.flush = some f) ∧
    (∃ f : Flush, ∃ s : State, powerOn s = true ∧ s.rst.due = true ∧ s.bb.flush = some f ∧ f.pins = true ∧ flushPages
      s.bb ≤ f.pages + 1) := by
  refine ⟨?_, ?_, ?_, ?_, ?_, ?_, ?_, ?_, ?_, ?_, ?_⟩
  · exact ⟨.pf, host, by decide⟩
  · exact ⟨host, by decide⟩
  · exact ⟨host, by decide⟩
  · exact ⟨stowed, by decide⟩
  · exact ⟨.pf, host, by decide⟩
  · exact ⟨wdts fun w => { w with grace := true }, by decide⟩
  · exact ⟨host, by decide⟩
  · exact ⟨pms fun p => { p with lossWait := true }, by decide⟩
  · exact ⟨bbs fun b => { b with armed := true }, by decide⟩
  · exact ⟨flush .vsys 0 true, bbs fun b => { b with flush := some (flush .vsys 0 true) }, by decide⟩
  · exact ⟨flush .vsys 7 true,
      { (bbs fun b => { b with flush := some (flush .vsys 7 true) }) with rst := { host.rst with due := true } }, by
      decide⟩
theorem witness_ClockPlanAndPll :
    (∃ p : Path, ∃ s : State, reaches s p = true) ∧
    (∃ xin : Bool, ∃ s : State, linkOn s = true ∧ bit s.clk.plan 0 = true ∧ s.clk.pllLock = false ∧ refTarget
      { s with clk := { s.clk with xinOk := xin } } ≠ 0) ∧
    (∃ s : State, linkOn s = true ∧ s.clk.pllLock = true ∧ s.clk.refAct = 2) ∧
    (∃ s : State, linkOn s = true ∧ s.clk.pllLock = true ∧ s.clk.refAct = 1 ∧ refTarget s = 2) ∧
    (∃ s : State, powerOn s = true ∧ s.clk.refAct = 1) ∧
    (∃ s : State, powerOn s = true ∧ s.clk.refAct ≠ 1) ∧
    (∃ c : Instr, ∃ s : State, ∃ t : State, (linkOn s = false → s.clk.pllLock = false) ∧ exec c s = .next t ∧
      s.clk.corePll = false ∧ t.clk.corePll = true) ∧
    (∃ s : State, ∃ t : State, (linkOn s = false → s.clk.pllLock = false) ∧ step s = .next t ∧ s.clk.corePll = false ∧
      t.clk.corePll = true) ∧
    (∃ s : State, ∃ t : State, (linkOn s = false → s.clk.pllLock = false) ∧ step s = .next t ∧ linkOn t = false) := by
  refine ⟨?_, ?_, ?_, ?_, ?_, ?_, ?_, ?_, ?_⟩
  · exact ⟨.pf, host, by decide⟩
  · exact ⟨true, clks fun c => { c with plan := 1#16 }, by decide⟩
  · exact ⟨clks fun c => { c with pllLock := true, refAct := 2 }, by decide⟩
  · exact ⟨{ up with clk := { up.clk with plan := 3#16, pllLock := true, refAct := 1 } }, by decide⟩
  · exact ⟨clks fun c => { c with refAct := 1 }, by decide⟩
  · exact ⟨host, by decide⟩
  · exact ⟨.pllLock true, clks fun c => { c with plan := 9#16 }, after (exec (.pllLock true) (clks fun c =>
      { c with plan := 9#16 })) host, ⟨nofun, rfl, by decide, by decide⟩⟩
  · exact ⟨{ (clks fun c => { c with plan := 9#16 }) with pending := [.pllLock true] }, after (step
      ({ (clks fun c => { c with plan := 9#16 }) with pending := [.pllLock true] })) host, ⟨nofun, rfl, by decide, by
      decide⟩⟩
  · exact ⟨{ stowed with pending := [.skpSend 0] }, stowed, by and_intros <;> first | exact fun _ => rfl | rfl |
      decide⟩
theorem witness_StrokeBoundaries :
    (∃ s : State, linkOn s = true ∧ s.tb.locked || s.tb.holdover ∧ now s % strokeTicks s.tb.len = 0 ∧ s.tb.bound ≠
      s.tb.time) ∧
    (∃ s : State, linkOn s = true ∧ s.tb.bound = s.tb.time) ∧
    (∃ s : State, linkOn s = true ∧ s.tb.locked = false ∧ s.tb.holdover = false ∧ s.tb.valid = true) ∧
    (∃ s : State, linkOn s = true ∧ s.tb.locked = true ∧ s.tb.missed < 3) ∧
    (∃ s : State, linkOn s = true ∧ s.tb.locked = true ∧ 3 ≤ s.tb.missed) := by
  refine ⟨?_, ?_, ?_, ?_, ?_⟩
  · exact ⟨tbs fun b => { b with locked := true, time := 100000#64 }, by decide⟩
  · exact ⟨host, by decide⟩
  · exact ⟨tbs fun b => { b with valid := true }, by decide⟩
  · exact ⟨tbs fun b => { b with locked := true }, by decide⟩
  · exact ⟨tbs fun b => { b with locked := true, missed := 3 }, by decide⟩
theorem witness_StrokeBeacons :
    (∃ s : State, linkOn s = true ∧ isUp s.ports[(0 : PortN)] = false) ∧
    (∃ s : State, linkOn s = true) ∧
    (∃ ws : List Word, ∃ chk : Word, ∃ s : State, linkOn s = true ∧ isUp s.ports[(0 : PortN)] = true ∧ s.ports[(0 :
      PortN)].flooding = false ∧ crc16 (ws.take 6) ≠ chk) ∧
    (∃ a : Word, ∃ b : Word, ∃ c : Word, ∃ d : Word, ∃ e : Word, ∃ f : Word, ∃ s : State, linkOn s = true ∧ isUp
      s.ports[(0 : PortN)] = true ∧ s.ports[(0 : PortN)].flooding = false ∧ (beaconFits (ofWords [f, e, d, c])
      (a.toNat * 65536 + b.toNat)).contains s.tb.len = true) ∧
    (∃ a : Word, ∃ b : Word, ∃ c : Word, ∃ d : Word, ∃ e : Word, ∃ f : Word, ∃ s : State, linkOn s = true ∧ isUp
      s.ports[(0 : PortN)] = true ∧ s.ports[(0 : PortN)].flooding = false ∧ beaconFits (ofWords [f, e, d, c]) (a.toNat
      * 65536 + b.toNat) = []) := by
  refine ⟨?_, ?_, ?_, ?_, ?_⟩
  · exact ⟨host, by decide⟩
  · exact ⟨host, by decide⟩
  · exact ⟨[0#16], 0#16, up, by decide⟩
  · exact ⟨0#16, 0#16, 0#16, 0#16, 0#16, 0#16, up, by decide⟩
  · exact ⟨0#16, 0#16, 0#16, 0#16, 0xFFFF#16, 0xFFFF#16, up, by decide⟩
theorem witness_SlewHoldoverAndPins :
    (∃ s : State, linkOn s = true ∧ s.tb.servo = true ∧ 0 < s.tb.todo) ∧
    (∃ s : State, linkOn s = true ∧ s.tb.servo = true ∧ s.tb.todo < 0) ∧
    (∃ s : State, linkOn s = true ∧ s.tb.holdover = true) ∧
    (∃ s : State, linkOn s = true ∧ s.tb.holdover = false) ∧
    (∃ k : CrewN, ∃ i : Nat, ∃ s : State, linkOn s = true ∧ nextCatch s k = some i ∧ i ≤ now s) ∧
    (∃ s : State, linkOn s = true ∧ (∀ k i, nextCatch s k = some i → now s < i)) ∧
    (∃ s : State, linkOn s = true) := by
  refine ⟨?_, ?_, ?_, ?_, ?_, ?_, ?_⟩
  · exact ⟨tbs fun b => { b with todo := 1 }, by decide⟩
  · exact ⟨tbs fun b => { b with todo := -1 }, by decide⟩
  · exact ⟨tbs fun b => { b with holdover := true }, by decide⟩
  · exact ⟨host, by decide⟩
  · exact ⟨0, 0, pt 1 fun p => { p with txq := [{ txp 6#4 with cue := some (0, 0) }] }, by decide⟩
  · exact ⟨pt 1 fun p => { p with txq := [{ txp 6#4 with cue := some (0, 100) }] }, by decide⟩
  · exact ⟨host, by decide⟩
theorem witness_DetectAndAlign :
    (∃ n : PortN, ∃ s : State, linkOn s = true ∧ mayLeaveDetect s n = true) ∧
    (∃ s : State, powerOn s = true ∧ linkOn s = false) ∧
    (∃ n : PortN, ∃ s : State, linkOn s = true ∧ s.ports[n].flooding = false ∧ notSusp s n ∧ s.ports[n].st ∈ [.align,
      .caps, .switch, .ralign, .trial, .failed]) ∧
    (∃ n : PortN, ∃ s : State, linkOn s = true ∧ s.ports[n].flooding = false ∧ s.ports[n].st ∈ [.paddle, .active]) ∧
    (∃ n : PortN, ∃ s : State, linkOn s = true ∧ s.ports[n].flooding = true ∧ s.ports[n].optical = true) ∧
    (∃ s : State, linkOn s = true) ∧
    (∃ n : PortN, ∃ s : State, linkOn s = true ∧ s.ports[n].flooding = false ∧ s.ports[n].st = .align ∧
      s.ports[n].fromTrial = false ∧ txReady s n) ∧
    (∃ n : PortN, ∃ s : State, linkOn s = true ∧ s.ports[n].st ≠ .align) ∧
    (∃ n : PortN, ∃ s : State, linkOn s = true ∧ notSusp s n ∧ s.ports[n].st = .align) ∧
    (∃ n : PortN, ∃ s : State, linkOn s = true ∧ notSusp s n ∧ s.ports[n].st = .caps) := by
  refine ⟨?_, ?_, ?_, ?_, ?_, ?_, ?_, ?_, ?_, ?_⟩
  · exact ⟨0, host, by decide⟩
  · exact ⟨stowed, by decide⟩
  · exact ⟨0, inSt 0 .align, by decide⟩
  · exact ⟨0, up, by decide⟩
  · exact ⟨0, pt 0 fun p => { p with flooding := true, optical := true }, by decide⟩
  · exact ⟨host, by decide⟩
  · exact ⟨0, inSt 0 .align, by decide⟩
  · exact ⟨0, host, by decide⟩
  · exact ⟨0, inSt 0 .align, by decide⟩
  · exact ⟨0, inSt 0 .caps, by decide⟩
theorem witness_BadTrainingSets :
    (∃ n : PortN, ∃ clean : Nat, ∃ a0 : Word, ∃ a1 : Word, ∃ chk : Word, ∃ s : State, ∃ x : TsKind × Instr, linkOn s =
      true ∧ x ∈ [(TsKind.cap, Instr.tsCapRx n a0 a1 chk), (.ack, .tsAckRx n a0 a1 chk), (.trial, .tsTrialRx n a0 a1
      chk), (.ready, .tsReadyRx n clean (a0, a1) chk), (.result, .tsResultRx n a0 a1 chk), (.go, .tsGoRx n a0 a1 chk),
      (.down, .tsDownRx n a0 a1 chk), (.dis, .tsDisRx n a0 a1 chk), (.tallyReq, .tsTallyreqRx n ⟨a0, a1, chk⟩),
      (.tally, .tsTallyRx n a0 a1 chk)] ∧ s.ports[n].flooding = true) ∧
    (∃ n : PortN, ∃ clean : Nat, ∃ a0 : Word, ∃ a1 : Word, ∃ chk : Word, ∃ s : State, ∃ x : TsKind × Instr, linkOn s =
      true ∧ x ∈ [(TsKind.cap, Instr.tsCapRx n a0 a1 chk), (.ack, .tsAckRx n a0 a1 chk), (.trial, .tsTrialRx n a0 a1
      chk), (.ready, .tsReadyRx n clean (a0, a1) chk), (.result, .tsResultRx n a0 a1 chk), (.go, .tsGoRx n a0 a1 chk),
      (.down, .tsDownRx n a0 a1 chk), (.dis, .tsDisRx n a0 a1 chk), (.tallyReq, .tsTallyreqRx n ⟨a0, a1, chk⟩),
      (.tally, .tsTallyRx n a0 a1 chk)] ∧ s.ports[n].flooding = false ∧ (chk ≠ trainCheck (tsCode x.1) a0 a1 ∨
      tsMisplaced s.ports[n] = true)) := by
  refine ⟨?_, ?_⟩
  · exact ⟨0, 0, 0#16, 0#16, 0#16, pt 0 fun p => { p with flooding := true }, (TsKind.cap, Instr.tsCapRx 0 0#16 0#16
      0#16), by decide⟩
  · exact ⟨0, 0, 0#16, 0#16, 0#16, host, (TsKind.cap, Instr.tsCapRx 0 0#16 0#16 0#16), by decide⟩
theorem witness_Capabilities :
    (∃ n : PortN, ∃ a0 : Word, ∃ a1 : Word, ∃ chk : Word, ∃ s : State, setComes s n .cap a0 a1 chk ∧ s.ports[n].st =
      .caps ∧ s.ports[n].capRx ≠ some (a0, a1)) ∧
    (∃ n : PortN, ∃ a0 : Word, ∃ a1 : Word, ∃ chk : Word, ∃ s : State, setComes s n .cap a0 a1 chk ∧ s.ports[n].st =
      .caps ∧ s.ports[n].capRx = some (a0, a1) ∧ s.ports[n].capTwo = false ∧ badCap a0 = false ∧ s.ports[n].ackRx < 2
      ∧ txReady s n) ∧
    (∃ n : PortN, ∃ a0 : Word, ∃ a1 : Word, ∃ chk : Word, ∃ s : State, setComes s n .cap a0 a1 chk ∧ s.ports[n].st =
      .caps ∧ notSusp s n ∧ s.ports[n].capRx = some (a0, a1) ∧ s.ports[n].capTwo = false ∧ badCap a0 = true) ∧
    (∃ a0 : Word, ∃ a1 : Word, ∃ chk : Word, ∃ s : State, setComes s 0 .cap a0 a1 chk ∧ isUp s.ports[(0 : PortN)] =
      true ∧ badCap a0 = false) ∧
    (∃ n : PortN, ∃ a0 : Word, ∃ a1 : Word, ∃ chk : Word, ∃ s : State, setComes s n .ack a0 a1 chk ∧ (a0 ≠ portCap0 s
      n ∨ a1 ≠ portCap1 s)) ∧
    (∃ n : PortN, ∃ a0 : Word, ∃ a1 : Word, ∃ chk : Word, ∃ s : State, setComes s n .ack a0 a1 chk ∧ a0 = portCap0 s n
      ∧ a1 = portCap1 s ∧ s.ports[n].ackRx = 0) ∧
    (∃ a0 : Word, ∃ a1 : Word, ∃ chk : Word, ∃ s : State, setComes s 0 .ack a0 a1 chk ∧ a0 = portCap0 s 0 ∧ a1 =
      portCap1 s ∧ s.ports[(0 : PortN)].ackRx = 1) ∧
    (∃ m : DnN, ∃ a0 : Word, ∃ a1 : Word, ∃ chk : Word, ∃ s : State, setComes s (dnPort m) .ack a0 a1 chk ∧ a0 =
      portCap0 s (dnPort m) ∧ a1 = portCap1 s ∧ s.ports[dnPort m].ackRx = 1 ∧ s.ports[dnPort m].st = .caps ∧
      s.ports[dnPort m].capTwo = true ∧ txReady s (dnPort m) ∧ notSusp s (dnPort m)) ∧
    (∃ m : DnN, ∃ a0 : Word, ∃ a1 : Word, ∃ chk : Word, ∃ s : State, setComes s (dnPort m) .ack a0 a1 chk ∧ a0 =
      portCap0 s (dnPort m) ∧ a1 = portCap1 s ∧ s.ports[dnPort m].ackRx = 1 ∧ txReady s (dnPort m) ∧ notSusp s (dnPort
      m)) ∧
    (∃ m : DnN, ∃ a0 : Word, ∃ a1 : Word, ∃ chk : Word, ∃ s : State, setComes s (dnPort m) .cap a0 a1 chk ∧
      s.ports[dnPort m].st = .active ∧ badCap a0 = false ∧ 2 ≤ s.ports[dnPort m].rate ∧ bit a0 (s.ports[dnPort m].rate
      - 1) = false ∧ txReady s (dnPort m) ∧ notSusp s (dnPort m)) ∧
    (∃ n : PortN, ∃ s : State, linkOn s = true ∧ isUp s.ports[n] = true ∧ txReady s n) ∧
    (∃ n : PortN, ∃ s : State, linkOn s = true ∧ s.ports[n].st ∈ [.disabled, .detect, .align, .caps, .ralign, .trial]) := by
  refine ⟨?_, ?_, ?_, ?_, ?_, ?_, ?_, ?_, ?_, ?_, ?_, ?_⟩
  · exact ⟨0, 0#16, 0#16, trainCheck (tsCode .cap) (0#16) (0#16), inSt 0 .caps, by decide⟩
  · exact ⟨0, 0x1001#16, 0#16, trainCheck (tsCode .cap) (0x1001#16) (0#16), pt 0 fun p =>
      { p with st := .caps, capRx := some (0x1001#16, 0#16) }, by decide⟩
  · exact ⟨0, 0#16, 0#16, trainCheck (tsCode .cap) (0#16) (0#16), pt 0 fun p =>
      { p with st := .caps, capRx := some (0#16, 0#16) }, by decide⟩
  · exact ⟨0x1001#16, 0#16, trainCheck (tsCode .cap) (0x1001#16) (0#16), up, by decide⟩
  · exact ⟨0, 0#16, 0#16, trainCheck (tsCode .ack) (0#16) (0#16), host, by decide⟩
  · exact ⟨0, portCap0 host 0, portCap1 host, trainCheck (tsCode .ack) (portCap0 host 0) (portCap1 host), host, by
      decide⟩
  · exact ⟨portCap0 (pt 0 fun p => { p with ackRx := 1 }) 0, portCap1 (pt 0 fun p => { p with ackRx := 1 }),
      trainCheck (tsCode .ack) (portCap0 (pt 0 fun p => { p with ackRx := 1 }) 0) (portCap1 (pt 0 fun p =>
      { p with ackRx := 1 })), pt 0 fun p => { p with ackRx := 1 }, by decide⟩
  · exact ⟨0, portCap0 (pt 1 fun p => { p with ackRx := 1, st := .caps, capTwo := true }) 1, portCap1 (pt 1 fun p =>
      { p with ackRx := 1, st := .caps, capTwo := true }), trainCheck (tsCode .ack) (portCap0 (pt 1 fun p =>
      { p with ackRx := 1, st := .caps, capTwo := true }) 1) (portCap1 (pt 1 fun p =>
      { p with ackRx := 1, st := .caps, capTwo := true })), pt 1 fun p =>
      { p with ackRx := 1, st := .caps, capTwo := true }, by decide⟩
  · exact ⟨0, portCap0 (pt 1 fun p => { p with ackRx := 1, st := .caps }) 1, portCap1 (pt 1 fun p =>
      { p with ackRx := 1, st := .caps }), trainCheck (tsCode .ack) (portCap0 (pt 1 fun p =>
      { p with ackRx := 1, st := .caps }) 1) (portCap1 (pt 1 fun p => { p with ackRx := 1, st := .caps })), pt 1 fun p
      => { p with ackRx := 1, st := .caps }, by decide⟩
  · exact ⟨0, 0x1001#16, 0#16, trainCheck (tsCode .cap) (0x1001#16) (0#16), modPort both 1 fun p =>
      { p with rate := 3 }, by decide⟩
  · exact ⟨0, up, by decide⟩
  · exact ⟨0, host, by decide⟩
theorem witness_Trials :
    (∃ a0 : Word, ∃ a1 : Word, ∃ chk : Word, ∃ s : State, setComes s 0 .trial a0 a1 chk ∧ 2 ≤ tsRate a0 ∧ tsRate a0 ≤
      4 ∧ s.clk.corePll = true ∧ s.glob.cfgBusy = false ∧ s.ports[(0 : PortN)].st = .caps ∧ capsOver s.ports[(0 :
      PortN)] = true) ∧
    (∃ a0 : Word, ∃ a1 : Word, ∃ chk : Word, ∃ s : State, setComes s 0 .trial a0 a1 chk ∧ 2 ≤ tsRate a0 ∧ tsRate a0 ≤
      4 ∧ s.clk.corePll = true ∧ s.ports[(0 : PortN)].st = .switch ∧ s.ports[(0 : PortN)].tryRate = tsRate a0 ∧
      s.ports[(0 : PortN)].setRx = 1 ∧ txReady s 0) ∧
    (∃ a0 : Word, ∃ a1 : Word, ∃ chk : Word, ∃ s : State, setComes s 0 .trial a0 a1 chk ∧ 2 ≤ tsRate a0 ∧ tsRate a0 ≤
      4 ∧ s.clk.corePll = true ∧ s.glob.cfgBusy = false ∧ s.ports[(0 : PortN)].st = .paddle ∧ txFree s 0 = false) ∧
    (∃ a0 : Word, ∃ a1 : Word, ∃ chk : Word, ∃ s : State, setComes s 0 .trial a0 a1 chk ∧ s.clk.corePll = false) ∧
    (∃ m : DnN, ∃ a0 : Word, ∃ a1 : Word, ∃ chk : Word, ∃ s : State, setComes s (dnPort m) .trial a0 a1 chk ∧
      s.ports[dnPort m].st = .switch ∧ s.ports[dnPort m].tryRate = tsRate a0 ∧ s.ports[dnPort m].setRx ≠ 0 ∧ txReady s
      (dnPort m)) ∧
    (∃ n : PortN, ∃ s : State, linkOn s = true ∧ s.ports[n].st = .switch) ∧
    (∃ n : PortN, ∃ s : State, linkOn s = true ∧ s.ports[n].st = .ralign) ∧
    (∃ n : PortN, ∃ s : State, linkOn s = true ∧ s.ports[n].st = .trial ∧ txReady s n) ∧
    (∃ n : PortN, ∃ clean : Nat, ∃ a0 : Word, ∃ a1 : Word, ∃ chk : Word, ∃ s : State, setComes s n .ready a0 a1 chk ∧
      s.ports[n].st = .ralign ∧ s.ports[n].tryRate = tsRate a0 ∧ 64 ≤ clean) ∧
    (∃ n : PortN, ∃ s : State, linkOn s = true ∧ s.ports[n].st = .trial ∧ s.ports[n].myErrs = none ∧ (n = 0 ∨
      s.ports[n].hisErrs = none) ∧ txReady s n) ∧
    (∃ n : PortN, ∃ a0 : Word, ∃ a1 : Word, ∃ chk : Word, ∃ s : State, setComes s n .result a0 a1 chk ∧ s.ports[n].st
      = .trial ∧ s.ports[n].tryRate = tsRate a0 ∧ (n = 0 ∨ s.ports[n].myErrs = none)) ∧
    (∃ m : DnN, ∃ a0 : Word, ∃ a1 : Word, ∃ chk : Word, ∃ e : Nat, ∃ s : State, setComes s (dnPort m) .result a0 a1
      chk ∧ s.ports[dnPort m].st = .trial ∧ s.ports[dnPort m].tryRate = tsRate a0 ∧ s.ports[dnPort m].myErrs = some e
      ∧ txReady s (dnPort m) ∧ 2 ≤ tsRate a0) ∧
    (∃ a0 : Word, ∃ a1 : Word, ∃ chk : Word, ∃ s : State, setComes s 0 .go a0 a1 chk ∧ s.ports[(0 : PortN)].st =
      .trial ∧ s.clk.corePll = true ∧ tsRate a0 = s.ports[(0 : PortN)].tryRate ∧ 2 ≤ tsRate a0) ∧
    (∃ a0 : Word, ∃ a1 : Word, ∃ chk : Word, ∃ s : State, setComes s 0 .go a0 a1 chk ∧ s.ports[(0 : PortN)].st = .caps
      ∧ tsRate a0 = 1 ∧ capsOver s.ports[(0 : PortN)] = true) ∧
    (∃ m : DnN, ∃ a0 : Word, ∃ a1 : Word, ∃ chk : Word, ∃ s : State, setComes s (dnPort m) .go a0 a1 chk) ∧
    (∃ m : DnN, ∃ s : State, linkOn s = true ∧ s.ports[dnPort m].st = .paddle ∧ nextTrial s (dnPort m) = none) := by
  refine ⟨?_, ?_, ?_, ?_, ?_, ?_, ?_, ?_, ?_, ?_, ?_, ?_, ?_, ?_, ?_, ?_⟩
  · exact ⟨2#16, 0#16, trainCheck (tsCode .trial) (2#16) (0#16), fast (pt 0 fun p =>
      { p with st := .caps, capTwo := true, ackRx := 2 }), by decide⟩
  · exact ⟨2#16, 0#16, trainCheck (tsCode .trial) (2#16) (0#16), fast (pt 0 fun p =>
      { p with st := .switch, tryRate := 2, setRx := 1 }), by decide⟩
  · exact ⟨2#16, 0#16, trainCheck (tsCode .trial) (2#16) (0#16), fast (pt 0 fun p =>
      { p with st := .paddle, txCur := some (txp 3#4) }), by decide⟩
  · exact ⟨2#16, 0#16, trainCheck (tsCode .trial) (2#16) (0#16), host, by decide⟩
  · exact ⟨0, 2#16, 0#16, trainCheck (tsCode .trial) (2#16) (0#16), pt 1 fun p =>
      { p with st := .switch, tryRate := 2, setRx := 1 }, by decide⟩
  · exact ⟨0, inSt 0 .switch, by decide⟩
  · exact ⟨0, inSt 0 .ralign, by decide⟩
  · exact ⟨0, inSt 0 .trial, by decide⟩
  · exact ⟨0, 64, 2#16, 0#16, trainCheck (tsCode .ready) (2#16) (0#16), pt 0 fun p =>
      { p with st := .ralign, tryRate := 2 }, by decide⟩
  · exact ⟨0, inSt 0 .trial, by decide⟩
  · exact ⟨0, 2#16, 0#16, trainCheck (tsCode .result) (2#16) (0#16), pt 0 fun p =>
      { p with st := .trial, tryRate := 2 }, by decide⟩
  · exact ⟨0, 2#16, 0#16, trainCheck (tsCode .result) (2#16) (0#16), 0, pt 1 fun p =>
      { p with st := .trial, tryRate := 2, myErrs := some 0 }, by decide⟩
  · exact ⟨2#16, 0#16, trainCheck (tsCode .go) (2#16) (0#16), fast (pt 0 fun p =>
      { p with st := .trial, tryRate := 2 }), by decide⟩
  · exact ⟨1#16, 0#16, trainCheck (tsCode .go) (1#16) (0#16), pt 0 fun p =>
      { p with st := .caps, capTwo := true, ackRx := 2 }, by decide⟩
  · exact ⟨0, 0#16, 0#16, trainCheck (tsCode .go) (0#16) (0#16), host, by decide⟩
  · exact ⟨0, inSt 1 .paddle, by decide⟩
theorem witness_Trials_2 :
    ∃ m : DnN, ∃ r : Nat, ∃ s : State, linkOn s = true ∧ s.ports[dnPort m].st = .paddle ∧ nextTrial s (dnPort m) =
      some r ∧ txFree s (dnPort m) = true ∧ notSusp s (dnPort m) :=
  ⟨0, 2, fast (pt 1 fun p => { p with st := .paddle, pcap0 := 0x1002#16 }), by decide⟩
theorem witness_LinksGoDown :
    (∃ n : PortN, ∃ a0 : Word, ∃ a1 : Word, ∃ chk : Word, ∃ s : State, setComes s n .down a0 a1 chk ∧ isUp s.ports[n]
      = true ∧ notSusp s n) ∧
    (∃ n : PortN, ∃ a0 : Word, ∃ a1 : Word, ∃ chk : Word, ∃ s : State, setComes s n .down a0 a1 chk ∧ s.ports[n].st ∈
      [.switch, .ralign, .trial]) ∧
    (∃ n : PortN, ∃ a0 : Word, ∃ a1 : Word, ∃ chk : Word, ∃ s : State, setComes s n .dis a0 a1 chk ∧ isUp s.ports[n] =
      true) ∧
    (∃ n : PortN, ∃ s : State, linkOn s = true ∧ isUp s.ports[n] = true ∧ s.ports[n].optical = false ∧ notSusp s n) ∧
    (∃ n : PortN, ∃ s : State, linkOn s = true ∧ isUp s.ports[n] = true ∧ s.ports[n].flooding = false ∧ notSusp s n) ∧
    (∃ n : PortN, ∃ s : State, linkOn s = true ∧ isUp s.ports[n] = true ∧ s.ports[n].flooding = true ∧ notSusp s n) ∧
    (∃ p : Path, ∃ n : PortN, ∃ s : State, reaches s p = true ∧ s.ports[n].en = true ∧ isUp s.ports[n] = true ∧
      notSusp s n) := by
  refine ⟨?_, ?_, ?_, ?_, ?_, ?_, ?_⟩
  · exact ⟨0, 0#16, 1#16, trainCheck (tsCode .down) (0#16) (1#16), up, by decide⟩
  · exact ⟨0, 0#16, 1#16, trainCheck (tsCode .down) (0#16) (1#16), inSt 0 .trial, by decide⟩
  · exact ⟨0, 0#16, 0#16, trainCheck (tsCode .dis) (0#16) (0#16), up, by decide⟩
  · exact ⟨0, up, by decide⟩
  · exact ⟨0, up, by decide⟩
  · exact ⟨0, pt 0 fun p => { live p with flooding := true }, by decide⟩
  · exact ⟨.pf, 0, up, by decide⟩
theorem witness_FloodsAndPortControl :
    (∃ n : PortN, ∃ s : State, linkOn s = true ∧ s.ports[n].optical = false) ∧
    (∃ n : PortN, ∃ s : State, linkOn s = true ∧ s.ports[n].optical = true ∧ s.ports[n].flooding = false) ∧
    (∃ n : PortN, ∃ s : State, linkOn s = true ∧ s.ports[n].optical = true ∧ s.ports[n].flooding = true) ∧
    (∃ n : PortN, ∃ s : State, linkOn s = true ∧ s.ports[n].flooding = true) ∧
    (∃ p : Path, ∃ n : PortN, ∃ s : State, reaches s p = true ∧ s.ports[n].st ≠ .disabled ∧ s.ports[n].st ≠
      .disabling) ∧
    (∃ p : Path, ∃ n : PortN, ∃ s : State, reaches s p = true ∧ (s.ports[n].st = .disabled ∨ s.ports[n].st =
      .disabling)) ∧
    (∃ p : Path, ∃ n : PortN, ∃ s : State, reaches s p = true ∧ s.ports[n].st = .disabled ∧ notSusp s n) ∧
    (∃ p : Path, ∃ n : PortN, ∃ s : State, reaches s p = true ∧ s.ports[n].st = .disabling) ∧
    (∃ n : PortN, ∃ s : State, linkOn s = true ∧ s.ports[n].st = .disabling ∧ s.ports[n].defer = false) ∧
    (∃ n : PortN, ∃ s : State, linkOn s = true ∧ s.ports[n].st = .disabling ∧ s.ports[n].defer = true ∧ notSusp s n) ∧
    (∃ p : Path, ∃ n : PortN, ∃ s : State, reaches s p = true ∧ s.ports[n].en = true ∧ s.ports[n].st ≠ .disabled ∧
      s.ports[n].st ≠ .disabling) := by
  refine ⟨?_, ?_, ?_, ?_, ?_, ?_, ?_, ?_, ?_, ?_, ?_⟩
  · exact ⟨0, host, by decide⟩
  · exact ⟨0, pt 0 fun p => { p with optical := true }, by decide⟩
  · exact ⟨0, pt 0 fun p => { p with optical := true, flooding := true }, by decide⟩
  · exact ⟨0, pt 0 fun p => { p with flooding := true }, by decide⟩
  · exact ⟨.pf, 0, up, by decide⟩
  · exact ⟨.pf, 0, inSt 0 .disabled, by decide⟩
  · exact ⟨.pf, 0, inSt 0 .disabled, by decide⟩
  · exact ⟨.pf, 0, inSt 0 .disabling, by decide⟩
  · exact ⟨0, inSt 0 .disabling, by decide⟩
  · exact ⟨0, pt 0 fun p => { p with st := .disabling, defer := true }, by decide⟩
  · exact ⟨.pf, 0, host, by decide⟩
theorem witness_CreditsAndFragments :
    (∃ n : PortN, ∃ param : Word, ∃ s : State, linkOn s = true ∧ s.ports[n].flooding = false ∧ isUp s.ports[n] = true
      ∧ fld param 0 4 ≠ 0) ∧
    (∃ n : PortN, ∃ param : Word, ∃ s : State, linkOn s = true ∧ s.ports[n].flooding = false ∧ fld param 0 4 = 0) ∧
    (∃ n : PortN, ∃ a0 : Word, ∃ a1 : Word, ∃ chk : Word, ∃ s : State, setComes s n .tallyReq a0 a1 chk ∧ isUp
      s.ports[n] = true ∧ txReady s n) ∧
    (∃ n : PortN, ∃ a0 : Word, ∃ a1 : Word, ∃ chk : Word, ∃ s : State, setComes s n .tally a0 a1 chk ∧ isUp s.ports[n]
      = true) ∧
    (∃ n : PortN, ∃ s : State, linkOn s = true ∧ txOn s n = true) ∧
    (∃ n : PortN, ∃ s : State, linkOn s = true ∧ txOn s n = false) ∧
    (∃ n : PortN, ∃ r : RxPkt, ∃ s : State, linkOn s = true ∧ s.ports[n].flooding = false ∧ rxGood s.ports[n] = some r
      ∧ fragOn s.ports[n] = true ∧ s.ports[n].rxSusp = none ∧ r.hdr.pcls = false) ∧
    (∃ n : PortN, ∃ s : State, linkOn s = true ∧ s.ports[n].flooding = false ∧ rxGood s.ports[n] = none) ∧
    (∃ n : PortN, ∃ off : BitVec 10, ∃ pid : Nat, ∃ r : RxPkt, ∃ s : State, linkOn s = true ∧ s.ports[n].flooding =
      false ∧ s.ports[n].rxSusp = some pid ∧ rxGood s.ports[n] = none ∧ findRx s.ports[n] pid = some r ∧ r.got =
      off.toNat) ∧
    (∃ n : PortN, ∃ s : State, linkOn s = true ∧ s.ports[n].flooding = false ∧ s.ports[n].rxSusp = none) ∧
    (∃ n : PortN, ∃ u : RxUnit, ∃ s : State, linkOn s = true ∧ s.ports[n].flooding = false ∧ (codeBad u || misplaced
      s.ports[n] u) = true) ∧
    (∃ n : PortN, ∃ u : RxUnit, ∃ s : State, linkOn s = true ∧ (codeBad u || misplaced s.ports[n] u) = false) := by
  refine ⟨?_, ?_, ?_, ?_, ?_, ?_, ?_, ?_, ?_, ?_, ?_, ?_⟩
  · exact ⟨0, 0x81#16, up, by decide⟩
  · exact ⟨0, default, host, by decide⟩
  · exact ⟨0, 0#16, 0#16, trainCheck (tsCode .tallyReq) (0#16) (0#16), up, by decide⟩
  · exact ⟨0, 0#16, 0#16, trainCheck (tsCode .tally) (0#16) (0#16), up, by decide⟩
  · exact ⟨0, host, by decide⟩
  · exact ⟨0, inSt 0 .disabled, by decide⟩
  · exact ⟨0, rxp [], pt 0 fun p => { live p with rx := [rxp []], rxCur := some 7 }, by decide⟩
  · exact ⟨0, host, by decide⟩
  · exact ⟨0, 3#10, 7, rxp [], pt 0 fun p => { live p with rx := [rxp []], rxSusp := some 7 }, by decide⟩
  · exact ⟨0, host, by decide⟩
  · exact ⟨0, .control .eop 0#8, host, by decide⟩
  · exact ⟨0, .control .idl 0#8, host, by decide⟩
theorem witness_HubArrivals :
    (∃ x : Inbox, ∃ s : State, ∃ t : State, linkOn s = true ∧ takeInbox s (fun x => x.dest = .hub) = some (x, t) ∧
      x.mc = false ∧ s.bus.hubQ = [] ∧ hubRepeats s x.pkt = none ∧ hubBad x.pkt = none) ∧
    (∃ x : Inbox, ∃ s : State, ∃ t : State, linkOn s = true ∧ takeInbox s (fun x => x.dest = .hub) = some (x, t) ∧
      x.mc = false ∧ 4 ≤ s.bus.hubQ.length ∧ s.bus.hubQ.any (hubSame x.pkt) = false ∧ hubRepeats s x.pkt = none ∧ isUp
      s.ports[(0 : PortN)] = true) ∧
    (∃ x : Inbox, ∃ k : Kept, ∃ s : State, ∃ t : State, linkOn s = true ∧ takeInbox s (fun x => x.dest = .hub) = some
      (x, t) ∧ x.mc = false ∧ s.bus.hubQ.any (hubSame x.pkt) = false ∧ hubRepeats s x.pkt = some k ∧ isUp s.ports[(0 :
      PortN)] = true) ∧
    (∃ x : Inbox, ∃ st : Nat, ∃ s : State, ∃ t : State, linkOn s = true ∧ takeInbox s (fun x => x.dest = .hub) = some
      (x, t) ∧ x.mc = false ∧ s.bus.hubQ = [] ∧ hubRepeats s x.pkt = none ∧ hubBad x.pkt = some st ∧ isUp s.ports[(0 :
      PortN)] = true) ∧
    (∃ s : State, linkOn s = true ∧ takeInbox s (fun x => x.dest = .hub) = none) := by
  refine ⟨?_, ?_, ?_, ?_, ?_⟩
  · exact ⟨inb .hub (hd 14#4 0xFFFE#16 0#8) [0x0180#16, 0#16, 0#16, 8#16], has (up) (inb .hub (hd 14#4 0xFFFE#16 0#8)
      [0x0180#16, 0#16, 0#16, 8#16]), drained (has (up) (inb .hub (hd 14#4 0xFFFE#16 0#8) [0x0180#16, 0#16, 0#16,
      8#16])), by and_intros <;> first | rfl | decide⟩
  · exact ⟨inb .hub (hd 14#4 0xFFFE#16 0#8) [0x0180#16, 0#16, 0#16, 8#16], has
      ({ up with bus := { up.bus with hubQ := List.replicate 4 (ask 2 0 0#16 0#16 0#16 []) } }) (inb .hub (hd 14#4
      0xFFFE#16 0#8) [0x0180#16, 0#16, 0#16, 8#16]), drained (has
      ({ up with bus := { up.bus with hubQ := List.replicate 4 (ask 2 0 0#16 0#16 0#16 []) } }) (inb .hub (hd 14#4
      0xFFFE#16 0#8) [0x0180#16, 0#16, 0#16, 8#16])), by and_intros <;> first | rfl | decide⟩
  · exact ⟨inb .hub (hd 14#4 0xFFFE#16 0#8) [0x0180#16, 0#16, 0#16, 8#16],
      { tag := 1#7, block := [1, 128, 0, 0, 0, 0, 0, 8], odd := false, words := [0#16] }, has
      ({ up with bus := { up.bus with kept := some { tag := 1#7, block := [1, 128, 0, 0, 0, 0, 0, 8], odd := false, words := [0#16] } } })
      (inb .hub (hd 14#4 0xFFFE#16 0#8) [0x0180#16, 0#16, 0#16, 8#16]), drained (has
      ({ up with bus := { up.bus with kept := some { tag := 1#7, block := [1, 128, 0, 0, 0, 0, 0, 8], odd := false, words := [0#16] } } })
      (inb .hub (hd 14#4 0xFFFE#16 0#8) [0x0180#16, 0#16, 0#16, 8#16])), by and_intros <;> first | rfl | decide⟩
  · exact ⟨inb .hub (hd 14#4 0xFFFE#16 0#8) [], 2, has (up) (inb .hub (hd 14#4 0xFFFE#16 0#8) []), drained (has (up)
      (inb .hub (hd 14#4 0xFFFE#16 0#8) [])), by and_intros <;> first | rfl | decide⟩
  · exact ⟨host, by decide⟩
theorem witness_HubReads :
    (∃ r : HubReq, ∃ s : State, hubAsked s r 0x01 true ∧ 1 ≤ hubLen r.pkt ∧ hubLen r.pkt ≤ 32 ∧ hubValue r.pkt = 0#16
      ∧ hubIndex r.pkt = 0) ∧
    (∃ r : HubReq, ∃ s : State, hubAsked s r 0x03 true ∧ hubLen r.pkt = 16 ∧ hubValue r.pkt = 0#16 ∧ hubIndex r.pkt ≤
      16) ∧
    (∃ r : HubReq, ∃ s : State, hubAsked s r 0x0B true ∧ (hubValue r.pkt).toNat ≤ 1 ∧ hubIndex r.pkt ≤ 16 ∧ hubLen
      r.pkt = (if hubIndex r.pkt = 0 then 228 else 18)) ∧
    (∃ r : HubReq, ∃ s : State, hubAsked s r 0x0D true ∧ hubLen r.pkt % 16 = 0 ∧ 16 ≤ hubLen r.pkt ∧ hubLen r.pkt ≤
      1008 ∧ (hubValue r.pkt).toNat ≤ 255 ∧ hubIndex r.pkt = 0) ∧
    (∃ r : HubReq, ∃ ws : List Word, ∃ s : State, hubAsked s r 0x0F true ∧ hubLen r.pkt = 32 ∧ hubValue r.pkt = 0#16 ∧
      hubIndex r.pkt = 0 ∧ s.sur.kept = some ws) ∧
    (∃ r : HubReq, ∃ s : State, hubAsked s r 0x0F true ∧ hubLen r.pkt = 32 ∧ hubValue r.pkt = 0#16 ∧ hubIndex r.pkt =
      0 ∧ s.sur.kept = none) ∧
    (∃ r : HubReq, ∃ s : State, hubAsked s r 0x01 true ∧ 1 ≤ hubLen r.pkt ∧ hubLen r.pkt ≤ 32 ∧ hubValue r.pkt ≠ 0#16) := by
  refine ⟨?_, ?_, ?_, ?_, ?_, ?_, ?_⟩
  · exact ⟨ask 1 128 0#16 0#16 32#16 [], asks (up) (ask 1 128 0#16 0#16 32#16 []), by decide⟩
  · exact ⟨ask 3 128 0#16 16#16 16#16 [], asks (up) (ask 3 128 0#16 16#16 16#16 []), by decide⟩
  · exact ⟨ask 11 128 1#16 0#16 228#16 [], asks (up) (ask 11 128 1#16 0#16 228#16 []), by decide⟩
  · exact ⟨ask 13 128 255#16 0#16 1008#16 [], asks (up) (ask 13 128 255#16 0#16 1008#16 []), by decide⟩
  · exact ⟨ask 15 128 0#16 0#16 32#16 [], [1#16], asks ({ up with sur := { up.sur with kept := some [1#16] } }) (ask
      15 128 0#16 0#16 32#16 []), by decide⟩
  · exact ⟨ask 15 128 0#16 0#16 32#16 [], asks (up) (ask 15 128 0#16 0#16 32#16 []), by decide⟩
  · exact ⟨ask 1 128 1#16 0#16 1#16 [], asks (up) (ask 1 128 1#16 0#16 1#16 []), by decide⟩
theorem witness_HubPortFeatures :
    (∃ m : DnN, ∃ r : HubReq, ∃ s : State, hubAsked s r 4 false ∧ hubLen r.pkt = 0 ∧ hubIndex r.pkt = m.val + 1 ∧
      (hubValue r.pkt).toNat = 1 ∧ s.ports[dnPort m].st = .disabled ∧ notSusp s (dnPort m)) ∧
    (∃ m : DnN, ∃ r : HubReq, ∃ s : State, hubAsked s r 4 false ∧ hubLen r.pkt = 0 ∧ hubIndex r.pkt = m.val + 1 ∧
      (hubValue r.pkt).toNat = 2 ∧ isUp s.ports[dnPort m] = true ∧ notSusp s (dnPort m)) ∧
    (∃ m : DnN, ∃ r : HubReq, ∃ s : State, hubAsked s r 4 false ∧ hubLen r.pkt = 0 ∧ hubIndex r.pkt = m.val + 1 ∧
      (hubValue r.pkt).toNat = 4 ∧ isUp s.ports[dnPort m] = true) ∧
    (∃ m : DnN, ∃ r : HubReq, ∃ s : State, hubAsked s r 4 false ∧ hubLen r.pkt = 0 ∧ hubIndex r.pkt = m.val + 1 ∧
      (hubValue r.pkt).toNat = 4 ∧ isUp s.ports[dnPort m] = false) ∧
    (∃ m : DnN, ∃ r : HubReq, ∃ s : State, hubAsked s r 4 false ∧ hubLen r.pkt = 0 ∧ hubIndex r.pkt = m.val + 1 ∧
      (hubValue r.pkt).toNat = 5) ∧
    (∃ m : DnN, ∃ r : HubReq, ∃ s : State, hubAsked s r 4 false ∧ hubLen r.pkt = 0 ∧ hubIndex r.pkt = m.val + 1 ∧
      (hubValue r.pkt).toNat = 6) ∧
    (∃ m : DnN, ∃ r : HubReq, ∃ s : State, hubAsked s r 4 false ∧ hubLen r.pkt = 0 ∧ hubIndex r.pkt = m.val + 1 ∧
      (hubValue r.pkt).toNat = 7) ∧
    (∃ m : DnN, ∃ r : HubReq, ∃ s : State, hubAsked s r 5 false ∧ hubLen r.pkt = 0 ∧ hubIndex r.pkt = m.val + 1 ∧
      (hubValue r.pkt).toNat = 1 ∧ s.ports[dnPort m].st ≠ .disabled ∧ s.ports[dnPort m].st ≠ .disabling) ∧
    (∃ m : DnN, ∃ r : HubReq, ∃ s : State, hubAsked s r 5 false ∧ hubLen r.pkt = 0 ∧ hubIndex r.pkt = m.val + 1 ∧
      (hubValue r.pkt).toNat = 3) ∧
    (∃ m : DnN, ∃ r : HubReq, ∃ s : State, hubAsked s r 5 false ∧ hubLen r.pkt = 0 ∧ hubIndex r.pkt = m.val + 1 ∧
      (hubValue r.pkt).toNat = 5) ∧
    (∃ m : DnN, ∃ r : HubReq, ∃ s : State, hubAsked s r 5 false ∧ hubLen r.pkt = 0 ∧ hubIndex r.pkt = m.val + 1 ∧
      (hubValue r.pkt).toNat = 6) ∧
    (∃ m : DnN, ∃ r : HubReq, ∃ s : State, hubAsked s r 5 false ∧ hubLen r.pkt = 0 ∧ hubIndex r.pkt = m.val + 1 ∧
      (hubValue r.pkt).toNat = 7) ∧
    (∃ r : HubReq, ∃ s : State, ∃ x : Nat × Instr, hubAsked s r 4 false ∧ hubLen r.pkt = 0 ∧ (hubIndex r.pkt = 0 ∨ 16
      < hubIndex r.pkt) ∧ x ∈ [(1, Instr.setPortFeatureEnable), (2, .setPortFeatureRetrain), (4,
      .setPortFeaturePortReset), (5, .setPortFeatureFrag), (6, .setPortFeatureSuspend), (7, .setPortFeatureBcnFwd)] ∧
      (hubValue r.pkt).toNat = x.1) := by
  refine ⟨?_, ?_, ?_, ?_, ?_, ?_, ?_, ?_, ?_, ?_, ?_, ?_, ?_⟩
  · exact ⟨0, ask 4 0 1#16 1#16 0#16 [], asks (modPort up 1 fun p => { p with st := .disabled }) (ask 4 0 1#16 1#16
      0#16 []), by decide⟩
  · exact ⟨0, ask 4 0 2#16 1#16 0#16 [], asks (both) (ask 4 0 2#16 1#16 0#16 []), by decide⟩
  · exact ⟨0, ask 4 0 4#16 1#16 0#16 [], asks (both) (ask 4 0 4#16 1#16 0#16 []), by decide⟩
  · exact ⟨0, ask 4 0 4#16 1#16 0#16 [], asks (up) (ask 4 0 4#16 1#16 0#16 []), by decide⟩
  · exact ⟨0, ask 4 0 5#16 1#16 0#16 [], asks (up) (ask 4 0 5#16 1#16 0#16 []), by decide⟩
  · exact ⟨0, ask 4 0 6#16 1#16 0#16 [], asks (up) (ask 4 0 6#16 1#16 0#16 []), by decide⟩
  · exact ⟨0, ask 4 0 7#16 1#16 0#16 [], asks (up) (ask 4 0 7#16 1#16 0#16 []), by decide⟩
  · exact ⟨0, ask 5 0 1#16 1#16 0#16 [], asks (up) (ask 5 0 1#16 1#16 0#16 []), by decide⟩
  · exact ⟨0, ask 5 0 3#16 1#16 0#16 [], asks (up) (ask 5 0 3#16 1#16 0#16 []), by decide⟩
  · exact ⟨0, ask 5 0 5#16 1#16 0#16 [], asks (up) (ask 5 0 5#16 1#16 0#16 []), by decide⟩
  · exact ⟨0, ask 5 0 6#16 1#16 0#16 [], asks (up) (ask 5 0 6#16 1#16 0#16 []), by decide⟩
  · exact ⟨0, ask 5 0 7#16 1#16 0#16 [], asks (up) (ask 5 0 7#16 1#16 0#16 []), by decide⟩
  · exact ⟨ask 4 0 7#16 17#16 0#16 [], asks (up) (ask 4 0 7#16 17#16 0#16 []), (7, Instr.setPortFeatureBcnFwd), by
      decide⟩
theorem witness_HubTables :
    (∃ r : HubReq, ∃ s : State, hubAsked s r 0x02 false ∧ hubLen r.pkt = 0 ∧ addressOk (hubValue r.pkt) = true ∧
      hubIndex r.pkt = 0) ∧
    (∃ r : HubReq, ∃ s : State, hubAsked s r 0x02 false ∧ hubLen r.pkt = 0 ∧ addressOk (hubValue r.pkt) = true ∧
      hubIndex r.pkt = 0x11 ∧ s.ln.en = true) ∧
    (∃ r : HubReq, ∃ s : State, hubAsked s r 0x02 false ∧ hubLen r.pkt = 0 ∧ addressOk (hubValue r.pkt) = false) ∧
    (∃ m : DnN, ∃ r : HubReq, ∃ s : State, hubAsked s r 0x06 false ∧ hubLen r.pkt = 4 ∧ hubValue r.pkt = 0#16 ∧
      hubIndex r.pkt = m.val + 1 ∧ rangeFree s m (rangeOf (hubData r.pkt 0) (hubData r.pkt 1)) = true) ∧
    (∃ m : DnN, ∃ r : HubReq, ∃ s : State, hubAsked s r 0x06 false ∧ hubLen r.pkt = 4 ∧ hubValue r.pkt = 0#16 ∧
      hubIndex r.pkt = m.val + 1 ∧ rangeFree s m (rangeOf (hubData r.pkt 0) (hubData r.pkt 1)) = false) ∧
    (∃ r : HubReq, ∃ s : State, hubAsked s r 0x07 false ∧ hubLen r.pkt = 6 ∧ hubValue r.pkt = 0#16 ∧ hubIndex r.pkt ≤
      255) ∧
    (∃ n : PortN, ∃ r : HubReq, ∃ s : State, hubAsked s r 0x08 false ∧ hubIndex r.pkt = n.val ∧ hubLen r.pkt % 2 = 0 ∧
      2 ≤ hubLen r.pkt ∧ hubLen r.pkt ≤ 128 ∧ (hubValue r.pkt).toNat + hubLen r.pkt / 2 ≤ (if n = 0 then 16 else 64)) ∧
    (∃ n : PortN, ∃ r : HubReq, ∃ s : State, hubAsked s r 0x08 false ∧ hubIndex r.pkt = n.val ∧ hubLen r.pkt % 2 = 0 ∧
      2 ≤ hubLen r.pkt ∧ hubLen r.pkt ≤ 128 ∧ (if n = 0 then 16 else 64) < (hubValue r.pkt).toNat + hubLen r.pkt / 2) ∧
    (∃ r : HubReq, ∃ s : State, hubAsked s r 0x08 false ∧ (hubLen r.pkt % 2 = 1 ∨ hubLen r.pkt < 2 ∨ 128 < hubLen
      r.pkt)) ∧
    (∃ k : CrewN, ∃ r : HubReq, ∃ s : State, hubAsked s r 0x09 false ∧ hubLen r.pkt = 8 ∧ hubValue r.pkt = 0#16 ∧
      hubIndex r.pkt = k.val) := by
  refine ⟨?_, ?_, ?_, ?_, ?_, ?_, ?_, ?_, ?_, ?_⟩
  · exact ⟨ask 2 0 0xEFFF#16 0#16 0#16 [], asks (up) (ask 2 0 0xEFFF#16 0#16 0#16 []), by decide⟩
  · exact ⟨ask 2 0 1#16 0x11#16 0#16 [], asks (up) (ask 2 0 1#16 0x11#16 0#16 []), by decide⟩
  · exact ⟨ask 2 0 0#16 0#16 0#16 [], asks (up) (ask 2 0 0#16 0#16 0#16 []), by decide⟩
  · exact ⟨0, ask 6 0 0#16 1#16 4#16 [1#16, 0xEFFF#16], asks (up) (ask 6 0 0#16 1#16 4#16 [1#16, 0xEFFF#16]), by
      decide⟩
  · exact ⟨0, ask 6 0 0#16 1#16 4#16 [1#16, 0xEFFF#16], asks (modPort up 2 fun p =>
      { p with rangeLo := 1#16, rangeHi := 1#16 }) (ask 6 0 0#16 1#16 4#16 [1#16, 0xEFFF#16]), by decide⟩
  · exact ⟨ask 7 0 0#16 255#16 6#16 [0#16, 0#16, 0#16], asks (up) (ask 7 0 0#16 255#16 6#16 [0#16, 0#16, 0#16]), by
      decide⟩
  · exact ⟨1, ask 8 0 62#16 1#16 4#16 [0#16, 0#16], asks (up) (ask 8 0 62#16 1#16 4#16 [0#16, 0#16]), by decide⟩
  · exact ⟨0, ask 8 0 15#16 0#16 4#16 [0#16, 0#16], asks (up) (ask 8 0 15#16 0#16 4#16 [0#16, 0#16]), by decide⟩
  · exact ⟨ask 8 0 0#16 0#16 0#16 [], asks (up) (ask 8 0 0#16 0#16 0#16 []), by decide⟩
  · exact ⟨7, ask 9 0 0#16 7#16 8#16 [0#16, 0#16, 0#16, 0#16], asks (up) (ask 9 0 0#16 7#16 8#16 [0#16, 0#16, 0#16,
      0#16]), by decide⟩
theorem witness_HubPowerAndClock :
    (∃ r : HubReq, ∃ s : State, hubAsked s r 0x0A false ∧ hubLen r.pkt = 0 ∧ hubIndex r.pkt = 0 ∧ s.glob.hubClk =
      false) ∧
    (∃ m : DnN, ∃ r : HubReq, ∃ s : State, hubAsked s r 0x0C false ∧ hubLen r.pkt = 0 ∧ hubIndex r.pkt = m.val + 1 ∧
      (hubValue r.pkt).toNat ≤ 1 ∧ s.glob.hubPwr = false) ∧
    (∃ r : HubReq, ∃ s : State, hubAsked s r 0x10 false ∧ hubLen r.pkt = 0 ∧ hubIndex r.pkt = 0 ∧ s.glob.hubPwr =
      false ∧ granted s.pps + reserved s.pps ≤ min (hubValue r.pkt).toNat 2240) ∧
    (∃ r : HubReq, ∃ s : State, hubLen r.pkt = 0 ∧ hubIndex r.pkt = 0 ∧ hubAsked s r 0x0A false ∧ s.glob.hubClk =
      true) ∧
    (∃ r : HubReq, ∃ s : State, hubLen r.pkt = 0 ∧ hubIndex r.pkt = 0 ∧ hubAsked s r 0x10 false ∧ s.glob.hubPwr =
      true) ∧
    (∃ r : HubReq, ∃ s : State, hubLen r.pkt = 0 ∧ hubIndex r.pkt = 0 ∧ hubAsked s r 0x0C false ∧ s.glob.hubPwr =
      true) ∧
    (∃ r : HubReq, ∃ s : State, hubLen r.pkt = 0 ∧ hubIndex r.pkt = 0 ∧ hubAsked s r 0x0E false ∧ headless s = false) ∧
    (∃ r : HubReq, ∃ s : State, hubAsked s r 0x0E false ∧ hubLen r.pkt = 0 ∧ hubIndex r.pkt = 0 ∧ headless s = true ∧
      s.wdt.en = true ∧ s.wdt.grace = false ∧ hubValue r.pkt = 0x5A3C#16) ∧
    (∃ r : HubReq, ∃ s : State, hubAsked s r 0x0E false ∧ hubLen r.pkt = 0 ∧ hubIndex r.pkt = 0 ∧ headless s = true ∧
      s.wdt.en = true ∧ s.wdt.grace = false ∧ hubValue r.pkt = 0xA5C3#16 ∧ s.wdt.armBus = true ∧ wdtOpen s.wdt = true) := by
  refine ⟨?_, ?_, ?_, ?_, ?_, ?_, ?_, ?_, ?_⟩
  · exact ⟨ask 10 0 1#16 0#16 0#16 [], asks (up) (ask 10 0 1#16 0#16 0#16 []), by decide⟩
  · exact ⟨0, ask 12 0 1#16 1#16 0#16 [], asks (up) (ask 12 0 1#16 1#16 0#16 []), by decide⟩
  · exact ⟨ask 16 0 2240#16 0#16 0#16 [], asks (up) (ask 16 0 2240#16 0#16 0#16 []), by decide⟩
  · exact ⟨ask 10 0 1#16 0#16 0#16 [], asks ({ up with glob := { up.glob with hubClk := true } }) (ask 10 0 1#16 0#16
      0#16 []), by decide⟩
  · exact ⟨ask 16 0 0#16 0#16 0#16 [], asks ({ up with glob := { up.glob with hubPwr := true } }) (ask 16 0 0#16 0#16
      0#16 []), by decide⟩
  · exact ⟨ask 12 0 1#16 0#16 0#16 [], asks ({ up with glob := { up.glob with hubPwr := true } }) (ask 12 0 1#16 0#16
      0#16 []), by decide⟩
  · exact ⟨ask 14 0 0x5A3C#16 0#16 0#16 [], asks (up) (ask 14 0 0x5A3C#16 0#16 0#16 []), by decide⟩
  · exact ⟨ask 14 0 0x5A3C#16 0#16 0#16 [], asks
      ({ up with rst := { up.rst with straps := 1#16 }, wdt := { up.wdt with en := true, armBus := true } }) (ask 14 0
      0x5A3C#16 0#16 0#16 []), by decide⟩
  · exact ⟨ask 14 0 0xA5C3#16 0#16 0#16 [], asks
      ({ up with rst := { up.rst with straps := 1#16 }, wdt := { up.wdt with en := true, armBus := true } }) (ask 14 0
      0xA5C3#16 0#16 0#16 []), by decide⟩
theorem witness_BusResets :
    (∃ s : State, linkOn s = true ∧ s.ports[(0 : PortN)].flooding = false ∧ upAligned s = true) ∧
    (∃ s : State, linkOn s = true ∧ upAligned s = false) ∧
    (∃ s : State, linkOn s = true) := by
  refine ⟨?_, ?_, ?_⟩
  · exact ⟨up, by decide⟩
  · exact ⟨host, by decide⟩
  · exact ⟨host, by decide⟩
theorem witness_PacketHeaders :
    (∃ n : PortN, ∃ s : State, linkOn s = true ∧ isUp s.ports[n] = true ∧ s.ports[n].flooding = true ∧
      s.ports[n].rxCur = none) ∧
    (∃ n : PortN, ∃ s : State, linkOn s = true ∧ isUp s.ports[n] = false) ∧
    (∃ n : PortN, ∃ w0 : Word, ∃ w1 : Word, ∃ w2 : Word, ∃ w3 : Word, ∃ s : State, linkOn s = true ∧ isUp s.ports[n] =
      true ∧ s.ports[n].flooding = false ∧ s.ports[n].rxCur = none ∧ hdrOk w0 w1 w2 w3 = false) ∧
    (∃ w0 : Word, ∃ w1 : Word, ∃ w2 : Word, ∃ w3 : Word, ∃ s : State, linkOn s = true ∧ isUp s.ports[(0 : PortN)] =
      true ∧ s.ports[(0 : PortN)].flooding = false ∧ s.ports[(0 : PortN)].rxCur = none ∧ s.ports[(0 : PortN)].rxSusp =
      none ∧ hdrOk w0 w1 w2 w3 = true ∧ (hdrOf w0 w1 w2 w3).typ = 14#4 ∧ w1 = s.bus.node ∧ (w1.toNat < 0xF000 ∨ w1 =
      0xFFFE#16)) ∧
    (∃ w0 : Word, ∃ w1 : Word, ∃ w2 : Word, ∃ w3 : Word, ∃ s : State, linkOn s = true ∧ isUp s.ports[(0 : PortN)] =
      true ∧ s.ports[(0 : PortN)].flooding = false ∧ s.ports[(0 : PortN)].rxCur = none ∧ s.ports[(0 : PortN)].rxSusp =
      none ∧ hdrOk w0 w1 w2 w3 = true ∧ w1 ≠ s.bus.node ∧ s.ln.en = false ∧ w1.toNat < 0xF000 ∧ rangePort s w1 = none) ∧
    (∃ w0 : Word, ∃ w1 : Word, ∃ w2 : Word, ∃ w3 : Word, ∃ s : State, ∃ m : DnN, linkOn s = true ∧ isUp s.ports[(0 :
      PortN)] = true ∧ s.ports[(0 : PortN)].flooding = false ∧ s.ports[(0 : PortN)].rxCur = none ∧ s.ports[(0 :
      PortN)].rxSusp = none ∧ hdrOk w0 w1 w2 w3 = true ∧ w1 ≠ s.bus.node ∧ s.ln.en = false ∧ w1.toNat < 0xF000 ∧
      rangePort s w1 = some m ∧ hopFull (hdrOf w0 w1 w2 w3) = false ∧ isUp s.ports[dnPort m] = true ∧ splitMode s m =
      false ∧ expectsAnswer (hdrOf w0 w1 w2 w3) = false) ∧
    (∃ w0 : Word, ∃ w1 : Word, ∃ w2 : Word, ∃ w3 : Word, ∃ s : State, ∃ m : DnN, linkOn s = true ∧ isUp s.ports[(0 :
      PortN)] = true ∧ s.ports[(0 : PortN)].flooding = false ∧ s.ports[(0 : PortN)].rxCur = none ∧ s.ports[(0 :
      PortN)].rxSusp = none ∧ hdrOk w0 w1 w2 w3 = true ∧ w1 ≠ s.bus.node ∧ s.ln.en = false ∧ w1.toNat < 0xF000 ∧
      rangePort s w1 = some m ∧ hopFull (hdrOf w0 w1 w2 w3) = false ∧ isUp s.ports[dnPort m] = false ∧ goneType (hdrOf
      w0 w1 w2 w3) = true) ∧
    (∃ m : DnN, ∃ w0 : Word, ∃ w1 : Word, ∃ w2 : Word, ∃ w3 : Word, ∃ s : State, linkOn s = true ∧ isUp s.ports[dnPort
      m] = true ∧ s.ports[dnPort m].flooding = false ∧ s.ports[dnPort m].rxCur = none ∧ s.ports[dnPort m].rxSusp =
      none ∧ hdrOk w0 w1 w2 w3 = true ∧ isUp s.ports[(0 : PortN)] = true ∧ w1.toNat < 0xF000 ∧ isAnswerType (hdrOf w0
      w1 w2 w3).typ.toNat = false ∧ (hdrOf w0 w1 w2 w3).typ ≠ 13#4 ∧ hopFull (hdrOf w0 w1 w2 w3) = false) := by
  refine ⟨?_, ?_, ?_, ?_, ?_, ?_, ?_, ?_⟩
  · exact ⟨0, pt 0 fun p => { live p with flooding := true }, by decide⟩
  · exact ⟨0, host, by decide⟩
  · exact ⟨0, 0#16, 0#16, 0#16, 0#16, up, by decide⟩
  · exact ⟨0xE000#16, 0xFFFE#16, 0#16, w16 (hchk (hchkBytes (0xE000#16) (0xFFFE#16) 0#16 0)), up, by decide⟩
  · exact ⟨0x3000#16, 5#16, 0#16, w16 (hchk (hchkBytes (0x3000#16) (5#16) 0#16 0)),
      { up with ln := { up.ln with en := false } }, by decide⟩
  · exact ⟨0x6400#16, 5#16, 0#16, w16 (hchk (hchkBytes (0x6400#16) (5#16) 0#16 0)), modPort
      ({ up with ln := { up.ln with en := false } }) 1 fun p => { live p with rangeLo := 1#16, rangeHi := 9#16 }, 0,
      by decide⟩
  · exact ⟨0x3000#16, 5#16, 0#16, w16 (hchk (hchkBytes (0x3000#16) (5#16) 0#16 0)), modPort
      ({ up with ln := { up.ln with en := false } }) 1 fun p => { p with rangeLo := 1#16, rangeHi := 9#16 }, 0, by
      decide⟩
  · exact ⟨0, 0x3000#16, 5#16, 0#16, w16 (hchk (hchkBytes (0x3000#16) (5#16) 0#16 0)), both, by decide⟩
theorem witness_PacketEnds :
    (∃ n : PortN, ∃ p : List Word, ∃ t0 : Option Word, ∃ t1 : Option Word, ∃ ws : List Word, ∃ pid : Nat, ∃ r : RxPkt,
      ∃ s : State, linkOn s = true ∧ s.ports[n].flooding = false ∧ isUp s.ports[n] = true ∧ ws = endWords p t0 t1 ∧
      s.ports[n].rxCur = some pid ∧ findRx s.ports[n] pid = some r ∧ r.bad = false ∧ bodyOk r.hdr ws = false) ∧
    (∃ n : PortN, ∃ p : List Word, ∃ t0 : Option Word, ∃ t1 : Option Word, ∃ ws : List Word, ∃ pid : Nat, ∃ r : RxPkt,
      ∃ s : State, linkOn s = true ∧ s.ports[n].flooding = false ∧ isUp s.ports[n] = true ∧ ws = endWords p t0 t1 ∧
      s.ports[n].rxCur = some pid ∧ findRx s.ports[n] pid = some r ∧ r.bad = false ∧ bodyOk r.hdr ws = true ∧ r.dest =
      [.hub]) ∧
    (∃ n : PortN, ∃ p : List Word, ∃ t0 : Option Word, ∃ t1 : Option Word, ∃ s : State, linkOn s = true ∧
      s.ports[n].flooding = false ∧ isUp s.ports[n] = true ∧ s.ports[n].rxCur = none ∧ (endWords p t0 t1).length < 4) ∧
    (∃ n : PortN, ∃ p : List Word, ∃ t0 : Option Word, ∃ t1 : Option Word, ∃ ws : List Word, ∃ s : State, linkOn s =
      true ∧ isUp s.ports[n] = true ∧ s.ports[n].flooding = true ∧ ws = endWords p t0 t1 ∧ s.ports[n].rxCur = none ∧ 4
      ≤ ws.length) ∧
    (∃ n : PortN, ∃ p : List Word, ∃ t0 : Option Word, ∃ t1 : Option Word, ∃ ws : List Word, ∃ s : State, linkOn s =
      true ∧ isUp s.ports[n] = true ∧ s.ports[n].flooding = true ∧ ws = endWords p t0 t1 ∧ s.ports[n].rxCur = none ∧
      ws.length < 4) ∧
    (∃ n : PortN, ∃ p : List Word, ∃ t0 : Option Word, ∃ t1 : Option Word, ∃ ws : List Word, ∃ s : State, ∃ pid : Nat,
      linkOn s = true ∧ isUp s.ports[n] = true ∧ s.ports[n].flooding = true ∧ ws = endWords p t0 t1 ∧ s.ports[n].rxCur
      = some pid) ∧
    (∃ n : PortN, ∃ s : State, linkOn s = true ∧ isUp s.ports[n] = true ∧ s.ports[n].flooding = true ∧
      s.ports[n].rxCur = none) ∧
    (∃ n : PortN, ∃ s : State, ∃ pid : Nat, linkOn s = true ∧ isUp s.ports[n] = true ∧ s.ports[n].flooding = true ∧
      s.ports[n].rxCur = some pid) ∧
    (∃ n : PortN, ∃ pid : Nat, ∃ s : State, linkOn s = true ∧ s.ports[n].flooding = false ∧ isUp s.ports[n] = true ∧
      s.ports[n].rxCur = some pid) ∧
    (∃ n : PortN, ∃ s : State, linkOn s = true ∧ s.ports[n].flooding = false ∧ isUp s.ports[n] = true ∧
      s.ports[n].rxCur = none) := by
  refine ⟨?_, ?_, ?_, ?_, ?_, ?_, ?_, ?_, ?_, ?_⟩
  · exact ⟨0, [], none, none, [], 7, rxp [], pt 0 fun p => { live p with rx := [rxp []], rxCur := some 7 }, by decide⟩
  · exact ⟨0, [0#16, 0#16], some (trailerOf [0#16, 0#16]).1, some (trailerOf [0#16, 0#16]).2, [0#16, 0#16, (trailerOf
      [0#16, 0#16]).1, (trailerOf [0#16, 0#16]).2], 7, rxp [.hub], pt 0 fun p =>
      { live p with rx := [rxp [.hub]], rxCur := some 7 }, by decide⟩
  · exact ⟨0, [], none, none, up, by decide⟩
  · exact ⟨0, [0#16, 0#16, 0#16, 0#16], none, none, [0#16, 0#16, 0#16, 0#16], pt 0 fun p =>
      { live p with flooding := true }, by decide⟩
  · exact ⟨0, [0#16], none, none, [0#16], pt 0 fun p => { live p with flooding := true }, by decide⟩
  · exact ⟨0, [0#16], none, none, [0#16], pt 0 fun p =>
      { live p with flooding := true, rx := [rxp []], rxCur := some 7 }, 7, by decide⟩
  · exact ⟨0, pt 0 fun p => { live p with flooding := true }, by decide⟩
  · exact ⟨0, pt 0 fun p => { live p with flooding := true, rx := [rxp []], rxCur := some 7 }, 7, by decide⟩
  · exact ⟨0, 7, pt 0 fun p => { live p with rx := [rxp []], rxCur := some 7 }, by decide⟩
  · exact ⟨0, up, by decide⟩
theorem witness_SelectorsAndEnds :
    (∃ m : DnN, ∃ x : TxPkt, ∃ s : State, linkOn s = true ∧ atBoundary s (dnPort m) = true ∧ selectTx s s.ports[dnPort
      m] = some x ∧ x.act = .none) ∧
    (∃ m : DnN, ∃ s : State, linkOn s = true ∧ (atBoundary s (dnPort m) = false ∨ selectTx s s.ports[dnPort m] =
      none)) ∧
    (∃ m : DnN, ∃ addr : Word, ∃ endp : BitVec 5, ∃ tag : BitVec 7, ∃ s : State, linkOn s = true ∧ (s.ports[dnPort
      m].recs.any (fun r => r.addr = addr && r.endp = endp && r.tag = tag)) = true) ∧
    (∃ n : PortN, ∃ x : TxPkt, ∃ s : State, linkOn s = true ∧ s.ports[n].txCur = some x ∧ x.done = true ∧ x.fail =
      none ∧ x.act = .none ∧ (n ≠ 0 ∨ s.ports[n].st ≠ .paddle ∨ s.ports[n].setRx = 0)) ∧
    (∃ x : TxPkt, ∃ s : State, linkOn s = true ∧ s.ports[(0 : PortN)].txCur = some x ∧ x.done = true ∧ x.fail = none ∧
      x.act = .none ∧ s.ports[(0 : PortN)].st = .paddle ∧ s.ports[(0 : PortN)].setRx = 1 ∧ s.ula.susp = none ∧
      s.clk.corePll = true ∧ s.glob.cfgBusy = false) ∧
    (∃ n : PortN, ∃ s : State, linkOn s = true ∧ s.ports[n].txCur = none ∧ (n ≠ 0 ∨ s.ports[n].st ≠ .paddle ∨
      s.ports[n].setRx = 0)) := by
  refine ⟨?_, ?_, ?_, ?_, ?_, ?_⟩
  · exact ⟨0, txp 3#4, modPort both 1 fun p => { p with txq := [txp 3#4] }, by decide⟩
  · exact ⟨0, host, by decide⟩
  · exact ⟨0, 5#16, 0#5, 1#7, pt 1 fun p =>
      { p with recs := [{ addr := 5#16, endp := 0#5, tag := 1#7, epoch := 0#4, pcls := false, typ := 3#4 }] }, by
      decide⟩
  · exact ⟨0, txp 3#4, pt 0 fun p => { live p with txCur := some (txp 3#4) }, by decide⟩
  · exact ⟨txp 3#4, fast (pt 0 fun p => { p with st := .paddle, setRx := 1, tryRate := 2, txCur := some (txp 3#4) }),
      by decide⟩
  · exact ⟨0, host, by decide⟩
theorem witness_ProxyAndSplits :
    (∃ x : Inbox, ∃ u : State, ∃ s : State, linkOn s = true ∧ takeInbox s (fun x => x.dest = .proxy) = some (x, u) ∧
      isUp s.ports[(0 : PortN)] = true ∧ proxyBad x.pkt = true) ∧
    (∃ m : DnN, ∃ x : Inbox, ∃ u : State, ∃ s : State, linkOn s = true ∧ takeInbox s (fun x => x.dest = .proxy) = some
      (x, u) ∧ isUp s.ports[(0 : PortN)] = true ∧ proxyBad x.pkt = false ∧ x.pkt.hdr.tsb.toNat = m.val + 1 ∧ isUp
      s.ports[dnPort m] = false) ∧
    (∃ s : State, linkOn s = true ∧ takeInbox s (fun x => x.dest = .proxy) = none) ∧
    (∃ m : DnN, ∃ x : Inbox, ∃ u : State, ∃ s : State, linkOn s = true ∧ takeInbox s (forTt 9#4) = some (x, u) ∧
      ttPort x.dest = some m ∧ isUp s.ports[(0 : PortN)] = true ∧ hopFull x.pkt.hdr = false ∧ x.pkt.hdr.pcls = false ∧
      splitMode s m = false ∧ innerType x.pkt.hdr ≠ 6) ∧
    (∃ m : DnN, ∃ x : Inbox, ∃ u : State, ∃ s : State, linkOn s = true ∧ takeInbox s (forTt 9#4) = some (x, u) ∧
      ttPort x.dest = some m ∧ isUp s.ports[(0 : PortN)] = true ∧ hopFull x.pkt.hdr = false ∧ x.pkt.hdr.pcls = false ∧
      splitMode s m = true ∧ splitRefused s x.pkt.hdr = true) ∧
    (∃ m : DnN, ∃ x : Inbox, ∃ u : State, ∃ s : State, ∃ j : Fin 48, linkOn s = true ∧ takeInbox s (forTt 9#4) = some
      (x, u) ∧ ttPort x.dest = some m ∧ isUp s.ports[(0 : PortN)] = true ∧ hopFull x.pkt.hdr = false ∧ x.pkt.hdr.pcls
      = false ∧ splitMode s m = true ∧ splitRefused s x.pkt.hdr = false ∧ findSlot s m x.pkt.hdr = none ∧ roomFor s
      x.pkt.payload.length = some j) ∧
    (∃ m : DnN, ∃ x : Inbox, ∃ u : State, ∃ s : State, linkOn s = true ∧ takeInbox s (forTt 9#4) = some (x, u) ∧
      ttPort x.dest = some m ∧ isUp s.ports[(0 : PortN)] = true ∧ hopFull x.pkt.hdr = false ∧ x.pkt.hdr.pcls = false ∧
      splitMode s m = true ∧ splitRefused s x.pkt.hdr = false ∧ findSlot s m x.pkt.hdr = none ∧ roomFor s
      x.pkt.payload.length = none) ∧
    (∃ m : DnN, ∃ x : Inbox, ∃ u : State, ∃ s : State, linkOn s = true ∧ takeInbox s (forTt 10#4) = some (x, u) ∧
      ttPort x.dest = some m ∧ isUp s.ports[(0 : PortN)] = true ∧ findSlot s m x.pkt.hdr = none) ∧
    (∃ m : DnN, ∃ x : Inbox, ∃ u : State, ∃ s : State, ∃ j : Fin 48, ∃ y : Slot, ∃ a : Pkt, linkOn s = true ∧
      takeInbox s (forTt 10#4) = some (x, u) ∧ ttPort x.dest = some m ∧ isUp s.ports[(0 : PortN)] = true ∧ findSlot s
      m x.pkt.hdr = some j ∧ s.tt.slots[j] = some y ∧ y.ityp.toNat = innerType x.pkt.hdr ∧ y.pcls = x.pkt.hdr.pcls ∧
      y.st = .stored ∧ y.ans = some a) ∧
    (∃ m : DnN, ∃ x : Inbox, ∃ u : State, ∃ s : State, ∃ j : Fin 48, ∃ y : Slot, linkOn s = true ∧ takeInbox s (forTt
      10#4) = some (x, u) ∧ ttPort x.dest = some m ∧ isUp s.ports[(0 : PortN)] = true ∧ findSlot s m x.pkt.hdr = some
      j ∧ s.tt.slots[j] = some y ∧ y.ityp.toNat = innerType x.pkt.hdr ∧ y.pcls = x.pkt.hdr.pcls ∧ y.st = .failed) ∧
    (∃ j : Fin 48, ∃ s : State, linkOn s = true ∧ chunkWinner s = some j ∧ chunksUsed s < 48) ∧
    (∃ s : State, linkOn s = true ∧ (48 ≤ chunksUsed s ∨ chunkWinner s = none)) ∧
    (∃ j : Fin 48, ∃ x : Slot, ∃ s : State, linkOn s = true ∧ s.tt.slots[j] = some x ∧ x.pcls = false ∧ unanswered x =
      true ∧ x.tmo ≤ x.strokes) ∧
    (∃ j : Fin 48, ∃ x : Slot, ∃ s : State, linkOn s = true ∧ s.tt.slots[j] = some x ∧ x.pcls = false ∧ x.st ≠
      .waiting ∧ 2 * x.tmo ≤ x.strokes) ∧
    (∃ j : Fin 48, ∃ x : Slot, ∃ s : State, linkOn s = true ∧ s.tt.slots[j] = some x ∧ x.pcls = true ∧ 2 ≤ x.strokes) ∧
    (∃ j : Fin 48, ∃ s : State, linkOn s = true ∧ s.tt.slots[j] = none) := by
  refine ⟨?_, ?_, ?_, ?_, ?_, ?_, ?_, ?_, ?_, ?_, ?_, ?_, ?_, ?_, ?_, ?_⟩
  · exact ⟨inb .proxy (hd 13#4 0xFFFE#16 0#8) [], drained (has (up) (inb .proxy (hd 13#4 0xFFFE#16 0#8) [])), has (up)
      (inb .proxy (hd 13#4 0xFFFE#16 0#8) []), by and_intros <;> first | rfl | decide⟩
  · exact ⟨0, inb .proxy (hd 13#4 0xFFFE#16 1#8) [0xE000#16, 0xFFFE#16, 0#16, 0#16], drained (has (up) (inb .proxy (hd
      13#4 0xFFFE#16 1#8) [0xE000#16, 0xFFFE#16, 0#16, 0#16])), has (up) (inb .proxy (hd 13#4 0xFFFE#16 1#8)
      [0xE000#16, 0xFFFE#16, 0#16, 0#16]), by and_intros <;> first | rfl | decide⟩
  · exact ⟨host, by decide⟩
  · exact ⟨0, inb (.tt 0) (hd 9#4 5#16 0x50#8) [], drained (has (both) (inb (.tt 0) (hd 9#4 5#16 0x50#8) [])), has
      (both) (inb (.tt 0) (hd 9#4 5#16 0x50#8) []), by and_intros <;> first | rfl | decide⟩
  · exact ⟨0, inb (.tt 0) (hd 9#4 5#16 0x50#8) [], drained (has (splitUp) (inb (.tt 0) (hd 9#4 5#16 0x50#8) [])), has
      (splitUp) (inb (.tt 0) (hd 9#4 5#16 0x50#8) []), by and_intros <;> first | rfl | decide⟩
  · exact ⟨0, inb (.tt 0) (hd 9#4 5#16 0x30#8) [0#16], drained (has (splitUp) (inb (.tt 0) (hd 9#4 5#16 0x30#8)
      [0#16])), has (splitUp) (inb (.tt 0) (hd 9#4 5#16 0x30#8) [0#16]), 0, by and_intros <;> first | rfl | decide⟩
  · exact ⟨0, inb (.tt 0) (hd 9#4 5#16 0x30#8) [0#16], drained (has
      ({ splitUp with tt := { splitUp.tt with slots := Vector.replicate 48 (some { slot .waiting with addr := 6#16 }) } })
      (inb (.tt 0) (hd 9#4 5#16 0x30#8) [0#16])), has
      ({ splitUp with tt := { splitUp.tt with slots := Vector.replicate 48 (some { slot .waiting with addr := 6#16 }) } })
      (inb (.tt 0) (hd 9#4 5#16 0x30#8) [0#16]), by and_intros <;> first | rfl | decide⟩
  · exact ⟨0, inb (.tt 0) (hd 10#4 5#16 0x30#8) [], drained (has (both) (inb (.tt 0) (hd 10#4 5#16 0x30#8) [])), has
      (both) (inb (.tt 0) (hd 10#4 5#16 0x30#8) []), by and_intros <;> first | rfl | decide⟩
  · exact ⟨0, inb (.tt 0) (hd 10#4 5#16 0x30#8) [], drained (has (slots
      { slot .stored with ans := some { hdr := hd 11#4 5#16 1#8, payload := [] } }) (inb (.tt 0) (hd 10#4 5#16 0x30#8)
      [])), has (slots { slot .stored with ans := some { hdr := hd 11#4 5#16 1#8, payload := [] } }) (inb (.tt 0) (hd
      10#4 5#16 0x30#8) []), 0, { slot .stored with ans := some { hdr := hd 11#4 5#16 1#8, payload := [] } },
      { hdr := hd 11#4 5#16 1#8, payload := [] }, by and_intros <;> first | rfl | decide⟩
  · exact ⟨0, inb (.tt 0) (hd 10#4 5#16 0x30#8) [], drained (has (slots (slot .failed)) (inb (.tt 0) (hd 10#4 5#16
      0x30#8) [])), has (slots (slot .failed)) (inb (.tt 0) (hd 10#4 5#16 0x30#8) []), 0, slot .failed, by and_intros
      <;> first | rfl | decide⟩
  · exact ⟨0, slots { slot .waiting with wants := some { hdr := hd 5#4 5#16 0#8, payload := [0#16] } }, by decide⟩
  · exact ⟨host, by decide⟩
  · exact ⟨0, slot .waiting, slots (slot .waiting), by decide⟩
  · exact ⟨0, slot .stored, slots (slot .stored), by decide⟩
  · exact ⟨0, { slot .waiting with pcls := true }, slots { slot .waiting with pcls := true }, by decide⟩
  · exact ⟨0, host, by decide⟩
theorem witness_ProxyAndSplits_2 :
    ∃ p : Path, ∃ s : State, reaches s p = true :=
  ⟨.pf, host, by decide⟩
theorem witness_CensusHeats :
    (∃ s : State, linkOn s = true ∧ takeInbox s (fun x => x.dest = .census) = none) ∧
    (∃ x : Inbox, ∃ u : State, ∃ s : State, linkOn s = true ∧ takeInbox s (fun x => x.dest = .census) = some (x, u) ∧
      s.bus.node = 0xFFFE#16) ∧
    (∃ x : Inbox, ∃ u : State, ∃ s : State, linkOn s = true ∧ takeInbox s (fun x => x.dest = .census) = some (x, u) ∧
      s.bus.node ≠ 0xFFFE#16 ∧ s.cen.lastHeat = some (wAt x.pkt.payload 0) ∧ s.cen.sent = true ∧ isUp s.ports[(0 :
      PortN)] = true) ∧
    (∃ x : Inbox, ∃ u : State, ∃ s : State, linkOn s = true ∧ takeInbox s (fun x => x.dest = .census) = some (x, u) ∧
      s.bus.node ≠ 0xFFFE#16 ∧ s.cen.lastHeat = some (wAt x.pkt.payload 0) ∧ s.cen.sent = false ∧ reportQueued s =
      true) ∧
    (∃ x : Inbox, ∃ u : State, ∃ s : State, ∃ mode : Nat, ∃ es : List (DnN × View × Nat), linkOn s = true ∧ takeInbox
      s (fun x => x.dest = .census) = some (x, u) ∧ s.bus.node ≠ 0xFFFE#16 ∧ (s.cen.lastHeat ≠ some (wAt x.pkt.payload
      0) ∨ reportQueued s = false) ∧ s.cen.sent = false ∧ mode = fld (wAt x.pkt.payload 1) 0 2 ∧ es = entriesOf s mode
      ∧ (es ≠ [] ∨ mode ≠ 0) ∧ isUp s.ports[(0 : PortN)] = true) ∧
    (∃ x : Inbox, ∃ u : State, ∃ s : State, ∃ mode : Nat, ∃ es : List (DnN × View × Nat), linkOn s = true ∧ takeInbox
      s (fun x => x.dest = .census) = some (x, u) ∧ s.bus.node ≠ 0xFFFE#16 ∧ (s.cen.lastHeat ≠ some (wAt x.pkt.payload
      0) ∨ reportQueued s = false) ∧ s.cen.sent = false ∧ mode = fld (wAt x.pkt.payload 1) 0 2 ∧ es = entriesOf s mode
      ∧ es = [] ∧ mode = 0) ∧
    (∃ x : Inbox, ∃ u : State, ∃ s : State, ∃ mode : Nat, ∃ d : State, ∃ es : List (DnN × View × Nat), linkOn s = true
      ∧ takeInbox s (fun x => x.dest = .census) = some (x, u) ∧ s.bus.node ≠ 0xFFFE#16 ∧ s.cen.lastHeat ≠ some (wAt
      x.pkt.payload 0) ∧ s.cen.sent = true ∧ mode = fld (wAt x.pkt.payload 1) 0 2 ∧ d =
      { s with cen := deliverViews s.cen } ∧ es = entriesOf d mode ∧ (es ≠ [] ∨ mode ≠ 0) ∧ isUp s.ports[(0 : PortN)]
      = true) := by
  refine ⟨?_, ?_, ?_, ?_, ?_, ?_, ?_⟩
  · exact ⟨host, by decide⟩
  · exact ⟨inb .census (hd 12#4 0xFFFE#16 1#8) [3#16, 0#16], drained (has (up) (inb .census (hd 12#4 0xFFFE#16 1#8)
      [3#16, 0#16])), has (up) (inb .census (hd 12#4 0xFFFE#16 1#8) [3#16, 0#16]), by and_intros <;>
      first | rfl | decide⟩
  · exact ⟨inb .census (hd 12#4 0xFFFE#16 1#8) [3#16, 0#16], drained (has
      ({ addressed with cen := { addressed.cen with lastHeat := some 3#16, sent := true } }) (inb .census (hd 12#4
      0xFFFE#16 1#8) [3#16, 0#16])), has
      ({ addressed with cen := { addressed.cen with lastHeat := some 3#16, sent := true } }) (inb .census (hd 12#4
      0xFFFE#16 1#8) [3#16, 0#16]), by and_intros <;> first | rfl | decide⟩
  · exact ⟨inb .census (hd 12#4 0xFFFE#16 1#8) [3#16, 0#16], drained (has
      ({ addressed with cen := { addressed.cen with lastHeat := some 3#16, handed := true }, ula := { addressed.ula with reqs := addressed.ula.reqs.set 17 [{ txp 12#4 with act := .reportSent }] } })
      (inb .census (hd 12#4 0xFFFE#16 1#8) [3#16, 0#16])), has
      ({ addressed with cen := { addressed.cen with lastHeat := some 3#16, handed := true }, ula := { addressed.ula with reqs := addressed.ula.reqs.set 17 [{ txp 12#4 with act := .reportSent }] } })
      (inb .census (hd 12#4 0xFFFE#16 1#8) [3#16, 0#16]), by and_intros <;> first | rfl | decide⟩
  · exact ⟨inb .census (hd 12#4 0xFFFE#16 1#8) [3#16, 1#16], drained (has (addressed) (inb .census (hd 12#4 0xFFFE#16
      1#8) [3#16, 1#16])), has (addressed) (inb .census (hd 12#4 0xFFFE#16 1#8) [3#16, 1#16]), 1, [], by and_intros
      <;> first | rfl | decide⟩
  · exact ⟨inb .census (hd 12#4 0xFFFE#16 1#8) [3#16, 0#16], drained (has (addressed) (inb .census (hd 12#4 0xFFFE#16
      1#8) [3#16, 0#16])), has (addressed) (inb .census (hd 12#4 0xFFFE#16 1#8) [3#16, 0#16]), 0, [], by and_intros
      <;> first | rfl | decide⟩
  · exact ⟨inb .census (hd 12#4 0xFFFE#16 1#8) [3#16, 1#16], drained (has
      ({ addressed with cen := { addressed.cen with lastHeat := some 2#16, sent := true } }) (inb .census (hd 12#4
      0xFFFE#16 1#8) [3#16, 1#16])), has
      ({ addressed with cen := { addressed.cen with lastHeat := some 2#16, sent := true } }) (inb .census (hd 12#4
      0xFFFE#16 1#8) [3#16, 1#16]), 1,
      { (has ({ addressed with cen := { addressed.cen with lastHeat := some 2#16, sent := true } }) (inb .census (hd 12#4 0xFFFE#16 1#8) [3#16, 1#16])) with cen := deliverViews (has ({ addressed with cen := { addressed.cen with lastHeat := some 2#16, sent := true } }) (inb .census (hd 12#4 0xFFFE#16 1#8) [3#16, 1#16])).cen },
      [], by and_intros <;> first | rfl | decide⟩
theorem witness_SurveyProbing :
    (∃ x : Inbox, ∃ u : State, ∃ s : State, surveyHas s 1 true x u ∧ s.bus.node ≠ 0xFFFE#16 ∧ s.sur.sweep = some (wAt
      x.pkt.payload 0)) ∧
    (∃ x : Inbox, ∃ u : State, ∃ s : State, surveyHas s 1 true x u ∧ s.bus.node ≠ 0xFFFE#16 ∧ s.sur.sweep ≠ some (wAt
      x.pkt.payload 0) ∧ isUp s.ports[(0 : PortN)] = true) ∧
    (∃ s : State, ∃ sw : Word, linkOn s = true ∧ s.sur.sweep = some sw ∧ s.sur.ended = false ∧ s.sur.probe < 3 ∧
      s.bus.node ≠ 0xFFFE#16 ∧ isUp s.ports[(0 : PortN)] = true) ∧
    (∃ s : State, linkOn s = true ∧ s.sur.sweep.isSome = true ∧ s.sur.ended = false ∧ 3 ≤ s.sur.probe ∧ s.sur.walk ≠
      .probing) ∧
    (∃ s : State, linkOn s = true ∧ (s.sur.sweep = none ∨ s.sur.ended = true)) ∧
    (∃ m : DnN, ∃ x : Inbox, ∃ u : State, ∃ s : State, surveyHas s 2 false x u ∧ x.port = dnPort m ∧ thisSweep s x =
      false) ∧
    (∃ m : DnN, ∃ x : Inbox, ∃ u : State, ∃ s : State, surveyHas s 2 false x u ∧ x.port = dnPort m ∧ thisSweep s x =
      true ∧ s.bus.node ≠ 0xFFFE#16 ∧ s.sur.walk ≠ .waitProbe m) ∧
    (∃ x : Inbox, ∃ u : State, ∃ s : State, surveyHas s 3 true x u ∧ (thisSweep s x = false ∨ s.sur.ended = true ∨
      (wAt x.pkt.payload 1).toNat ≠ s.sur.probe)) ∧
    (∃ x : Inbox, ∃ u : State, ∃ s : State, surveyHas s 3 true x u ∧ thisSweep s x = true ∧ s.sur.ended = false ∧ (wAt
      x.pkt.payload 1).toNat = s.sur.probe ∧ s.sur.walk ≠ .probing) := by
  refine ⟨?_, ?_, ?_, ?_, ?_, ?_, ?_, ?_, ?_⟩
  · exact ⟨inb .survey (hd 12#4 0xFFFE#16 1#8) [3#16, 0#16], drained (has (sweeping addressed fun x =>
      { x with sweep := some 3#16, tmo := 1 }) (inb .survey (hd 12#4 0xFFFE#16 1#8) [3#16, 0#16])), has (sweeping
      addressed fun x => { x with sweep := some 3#16, tmo := 1 }) (inb .survey (hd 12#4 0xFFFE#16 1#8) [3#16, 0#16]),
      by and_intros <;> first | rfl | decide⟩
  · exact ⟨inb .survey (hd 12#4 0xFFFE#16 1#8) [3#16, 0#16], drained (has (addressed) (inb .survey (hd 12#4 0xFFFE#16
      1#8) [3#16, 0#16])), has (addressed) (inb .survey (hd 12#4 0xFFFE#16 1#8) [3#16, 0#16]), by and_intros <;>
      first | rfl | decide⟩
  · exact ⟨sweeping addressed fun x => { x with sweep := some 3#16, ended := false, probe := 1 }, 3#16, by decide⟩
  · exact ⟨sweeping addressed fun x => { x with sweep := some 3#16, ended := false, probe := 3, walk := .done }, by
      decide⟩
  · exact ⟨host, by decide⟩
  · exact ⟨0, { inb .survey (hd 12#4 0xFFFE#16 2#8) [3#16, 0#16] with port := 1 }, drained (has (addressed)
      ({ inb .survey (hd 12#4 0xFFFE#16 2#8) [3#16, 0#16] with port := 1 })), has (addressed)
      ({ inb .survey (hd 12#4 0xFFFE#16 2#8) [3#16, 0#16] with port := 1 }), by and_intros <;> first | rfl | decide⟩
  · exact ⟨0, { inb .survey (hd 12#4 0xFFFE#16 2#8) [3#16, 0#16] with port := 1 }, drained (has (sweeping addressed
      fun x => { x with sweep := some 3#16, walk := .idle })
      ({ inb .survey (hd 12#4 0xFFFE#16 2#8) [3#16, 0#16] with port := 1 })), has (sweeping addressed fun x =>
      { x with sweep := some 3#16, walk := .idle })
      ({ inb .survey (hd 12#4 0xFFFE#16 2#8) [3#16, 0#16] with port := 1 }), by and_intros <;> first | rfl | decide⟩
  · exact ⟨inb .survey (hd 12#4 0xFFFE#16 3#8) [3#16, 0#16], drained (has (addressed) (inb .survey (hd 12#4 0xFFFE#16
      3#8) [3#16, 0#16])), has (addressed) (inb .survey (hd 12#4 0xFFFE#16 3#8) [3#16, 0#16]), by and_intros <;>
      first | rfl | decide⟩
  · exact ⟨inb .survey (hd 12#4 0xFFFE#16 3#8) [3#16, 1#16, 0#16, 0#16], drained (has (sweeping addressed fun x =>
      { x with sweep := some 3#16, ended := false, probe := 1 }) (inb .survey (hd 12#4 0xFFFE#16 3#8) [3#16, 1#16,
      0#16, 0#16])), has (sweeping addressed fun x => { x with sweep := some 3#16, ended := false, probe := 1 }) (inb
      .survey (hd 12#4 0xFFFE#16 3#8) [3#16, 1#16, 0#16, 0#16]), by and_intros <;> first | rfl | decide⟩
theorem witness_SurveyWalk :
    (∃ x : Inbox, ∃ u : State, ∃ s : State, surveyHas s 4 true x u ∧ thisSweep s x = false) ∧
    (∃ x : Inbox, ∃ u : State, ∃ s : State, surveyHas s 4 true x u ∧ thisSweep s x = true ∧ s.sur.walk = .idle ∧
      s.sur.ended = true ∧ s.bus.node ≠ 0xFFFE#16 ∧ isUp s.ports[(0 : PortN)] = true) ∧
    (∃ x : Inbox, ∃ u : State, ∃ s : State, surveyHas s 4 true x u ∧ thisSweep s x = true ∧ s.sur.walk = .idle ∧
      s.sur.ended = false) ∧
    (∃ x : Inbox, ∃ u : State, ∃ s : State, surveyHas s 4 true x u ∧ thisSweep s x = true ∧ s.sur.walk = .done ∧
      s.bus.node ≠ 0xFFFE#16 ∧ isUp s.ports[(0 : PortN)] = true) ∧
    (∃ s : State, linkOn s = true ∧ s.sur.walk = .recordOut ∧ s.bus.node ≠ 0xFFFE#16 ∧ (∀ m : DnN, walkable s m =
      false) ∧ isUp s.ports[(0 : PortN)] = true) ∧
    (∃ s : State, ∃ m : DnN, ∃ a : Word, linkOn s = true ∧ s.sur.walk = .recordOut ∧ s.bus.node ≠ 0xFFFE#16 ∧ (∀ k :
      DnN, k < m → walkable s k = false) ∧ walkable s m = true ∧ s.sur.walkSet[m] = some a) ∧
    (∃ s : State, ∃ m : DnN, linkOn s = true ∧ s.sur.walk = .recordOut ∧ s.bus.node ≠ 0xFFFE#16 ∧ (∀ k : DnN, k < m →
      walkable s k = false) ∧ walkable s m = true ∧ s.sur.walkSet[m] = none ∧ s.sur.probeLate = false) ∧
    (∃ s : State, ∃ m : DnN, linkOn s = true ∧ s.sur.walk = .recordOut ∧ s.bus.node ≠ 0xFFFE#16 ∧ (∀ k : DnN, k < m →
      walkable s k = false) ∧ walkable s m = true ∧ s.sur.walkSet[m] = none ∧ s.sur.probeLate = true ∧ isUp s.ports[(0
      : PortN)] = true) ∧
    (∃ s : State, linkOn s = true ∧ s.sur.walk ≠ .recordOut) ∧
    (∃ s : State, linkOn s = true ∧ s.sur.sweep.isSome = true ∧ (∀ m, s.sur.walk ≠ .waitProbe m)) ∧
    (∃ s : State, ∃ m : DnN, linkOn s = true ∧ s.sur.sweep.isSome = true ∧ s.sur.walk = .waitProbe m ∧ s.bus.node ≠
      0xFFFE#16 ∧ isUp s.ports[(0 : PortN)] = true) ∧
    (∃ m : DnN, ∃ s : State, linkOn s = true ∧ s.sur.walk = .below m ∧ s.bus.node ≠ 0xFFFE#16 ∧ isUp s.ports[(0 :
      PortN)] = true) ∧
    (∃ m : DnN, ∃ s : State, linkOn s = true ∧ s.sur.walk ≠ .below m) ∧
    (∃ m : DnN, ∃ x : Inbox, ∃ u : State, ∃ s : State, surveyHas s 7 false x u ∧ x.port = dnPort m ∧ thisSweep s x =
      true ∧ s.sur.walk = .below m) ∧
    (∃ m : DnN, ∃ x : Inbox, ∃ u : State, ∃ s : State, surveyHas s 7 false x u ∧ x.port = dnPort m ∧ (thisSweep s x =
      false ∨ s.sur.walk ≠ .below m)) ∧
    (∃ x : Inbox, ∃ u : State, ∃ s : State, surveyHas s 8 false x u) := by
  refine ⟨?_, ?_, ?_, ?_, ?_, ?_, ?_, ?_, ?_, ?_, ?_, ?_, ?_, ?_, ?_, ?_⟩
  · exact ⟨inb .survey (hd 12#4 0xFFFE#16 4#8) [3#16, 0#16], drained (has (addressed) (inb .survey (hd 12#4 0xFFFE#16
      4#8) [3#16, 0#16])), has (addressed) (inb .survey (hd 12#4 0xFFFE#16 4#8) [3#16, 0#16]), by and_intros <;>
      first | rfl | decide⟩
  · exact ⟨inb .survey (hd 12#4 0xFFFE#16 4#8) [3#16, 0#16], drained (has (sweeping addressed fun x =>
      { x with sweep := some 3#16, ended := true, walk := .idle }) (inb .survey (hd 12#4 0xFFFE#16 4#8) [3#16,
      0#16])), has (sweeping addressed fun x => { x with sweep := some 3#16, ended := true, walk := .idle }) (inb
      .survey (hd 12#4 0xFFFE#16 4#8) [3#16, 0#16]), by and_intros <;> first | rfl | decide⟩
  · exact ⟨inb .survey (hd 12#4 0xFFFE#16 4#8) [3#16, 0#16], drained (has (sweeping addressed fun x =>
      { x with sweep := some 3#16, ended := false, walk := .idle }) (inb .survey (hd 12#4 0xFFFE#16 4#8) [3#16,
      0#16])), has (sweeping addressed fun x => { x with sweep := some 3#16, ended := false, walk := .idle }) (inb
      .survey (hd 12#4 0xFFFE#16 4#8) [3#16, 0#16]), by and_intros <;> first | rfl | decide⟩
  · exact ⟨inb .survey (hd 12#4 0xFFFE#16 4#8) [3#16, 0#16], drained (has (sweeping addressed fun x =>
      { x with sweep := some 3#16, walk := .done }) (inb .survey (hd 12#4 0xFFFE#16 4#8) [3#16, 0#16])), has (sweeping
      addressed fun x => { x with sweep := some 3#16, walk := .done }) (inb .survey (hd 12#4 0xFFFE#16 4#8) [3#16,
      0#16]), by and_intros <;> first | rfl | decide⟩
  · exact ⟨sweeping addressed fun x => { x with sweep := some 3#16, walk := .recordOut }, by decide⟩
  · exact ⟨modPort (sweeping addressed fun x => { x with walk := .recordOut, walkSet := x.walkSet.set 0 (some 9#16) })
      1 live, 0, 9#16, by decide⟩
  · exact ⟨modPort (sweeping addressed fun x => { x with walk := .recordOut }) 1 live, 0, by decide⟩
  · exact ⟨modPort (sweeping addressed fun x => { x with walk := .recordOut, probeLate := true }) 1 live, 0, by
      decide⟩
  · exact ⟨host, by decide⟩
  · exact ⟨sweeping addressed fun x => { x with sweep := some 3#16, walk := .done }, by decide⟩
  · exact ⟨sweeping addressed fun x => { x with sweep := some 3#16, walk := .waitProbe 15 }, 15, by decide⟩
  · exact ⟨15, sweeping addressed fun x => { x with sweep := some 3#16, walk := .below 15 }, by decide⟩
  · exact ⟨0, host, by decide⟩
  · exact ⟨0, { inb .survey (hd 12#4 0xFFFE#16 7#8) [3#16, 0#16] with port := 1 }, drained (has (sweeping addressed
      fun x => { x with sweep := some 3#16, walk := .below 0 })
      ({ inb .survey (hd 12#4 0xFFFE#16 7#8) [3#16, 0#16] with port := 1 })), has (sweeping addressed fun x =>
      { x with sweep := some 3#16, walk := .below 0 })
      ({ inb .survey (hd 12#4 0xFFFE#16 7#8) [3#16, 0#16] with port := 1 }), by and_intros <;> first | rfl | decide⟩
  · exact ⟨0, { inb .survey (hd 12#4 0xFFFE#16 7#8) [3#16, 0#16] with port := 1 }, drained (has (sweeping addressed
      fun x => { x with sweep := some 3#16, walk := .idle })
      ({ inb .survey (hd 12#4 0xFFFE#16 7#8) [3#16, 0#16] with port := 1 })), has (sweeping addressed fun x =>
      { x with sweep := some 3#16, walk := .idle })
      ({ inb .survey (hd 12#4 0xFFFE#16 7#8) [3#16, 0#16] with port := 1 }), by and_intros <;> first | rfl | decide⟩
  · exact ⟨{ inb .survey (hd 12#4 0xFFFE#16 8#8) [3#16, 0#16] with port := 1 }, drained (has (addressed)
      ({ inb .survey (hd 12#4 0xFFFE#16 8#8) [3#16, 0#16] with port := 1 })), has (addressed)
      ({ inb .survey (hd 12#4 0xFFFE#16 8#8) [3#16, 0#16] with port := 1 }), by and_intros <;> first | rfl | decide⟩
theorem witness_SurveyWalk_2 :
    (∃ s : State, linkOn s = true ∧ s.sur.walk ≠ .idle ∧ s.sur.walk ≠ .done ∧ s.bus.node ≠ 0xFFFE#16 ∧ isUp s.ports[(0
      : PortN)] = true) ∧
    (∃ s : State, linkOn s = true ∧ (s.sur.walk = .idle ∨ s.sur.walk = .done)) := by
  refine ⟨?_, ?_⟩
  · exact ⟨sweeping addressed fun x => { x with sweep := some 3#16, walk := .recordOut }, by decide⟩
  · exact ⟨host, by decide⟩
theorem witness_HoldsAndResumes :
    (∃ s : State, linkOn s = true ∧ isUp s.ports[(0 : PortN)] = true) ∧
    (∃ s : State, linkOn s = true ∧ isUp s.ports[(0 : PortN)] = false) ∧
    (∃ m : DnN, ∃ s : State, linkOn s = true ∧ isUp s.ports[dnPort m] = true) ∧
    (∃ m : DnN, ∃ s : State, linkOn s = true ∧ isUp s.ports[dnPort m] = false) ∧
    (∃ n : PortN, ∃ s : State, linkOn s = true ∧ s.aon.ports[n].hold = .idl ∧ s.pm.suspendReq = false) ∧
    (∃ n : PortN, ∃ s : State, linkOn s = true ∧ s.aon.ports[n].hold ≠ .idl) ∧
    (∃ p : Path, ∃ m : DnN, ∃ s : State, reaches s p = true ∧ bit s.aon.ports[dnPort m].feather 3 = false) ∧
    (∃ p : Path, ∃ m : DnN, ∃ s : State, reaches s p = true ∧ bit s.aon.ports[dnPort m].feather 3 = true) ∧
    (∃ s : State, powerOn s = true ∧ (s.aon.ports[(0 : PortN)].hold = .none ∨ s.aon.bcnSeen = true)) ∧
    (∃ s : State, powerOn s = true ∧ s.aon.ports[(0 : PortN)].hold ≠ .none ∧ s.aon.bcnSeen = false ∧ s.pm.st = .run) ∧
    (∃ s : State, powerOn s = true ∧ s.aon.upBcn = true ∧ s.aon.ports[(0 : PortN)].hold ≠ .none) ∧
    (∃ s : State, powerOn s = true ∧ (s.aon.upBcn = false ∨ s.aon.ports[(0 : PortN)].hold = .none)) ∧
    (∃ s : State, powerOn s = true ∧ s.aon.ports[(0 : PortN)].hold ≠ .none ∧ s.aon.ports[(0 : PortN)].sdFell = true ∧
      s.aon.upBcn = false) ∧
    (∃ s : State, powerOn s = true ∧ (s.aon.ports[(0 : PortN)].hold = .none ∨ s.aon.ports[(0 : PortN)].sdFell = false
      ∨ s.aon.upBcn = true)) ∧
    (∃ s : State, powerOn s = true) := by
  refine ⟨?_, ?_, ?_, ?_, ?_, ?_, ?_, ?_, ?_, ?_, ?_, ?_, ?_, ?_, ?_⟩
  · exact ⟨up, by decide⟩
  · exact ⟨host, by decide⟩
  · exact ⟨0, both, by decide⟩
  · exact ⟨0, host, by decide⟩
  · exact ⟨0, aonPt 0 fun a => { a with hold := .idl }, by decide⟩
  · exact ⟨0, host, by decide⟩
  · exact ⟨.pf, 0, host, by decide⟩
  · exact ⟨.pf, 0, aonPt 1 fun a => { a with feather := 0x0008#16 }, by decide⟩
  · exact ⟨host, by decide⟩
  · exact ⟨aonPt 0 fun a => { a with hold := .held }, by decide⟩
  · exact
      ⟨{ (aonPt 0 fun a => { a with hold := .held }) with aon := { (aonPt 0 fun a => { a with hold := .held }).aon with upBcn := true } },
      by decide⟩
  · exact ⟨host, by decide⟩
  · exact ⟨aonPt 0 fun a => { a with hold := .held, sdFell := true }, by decide⟩
  · exact ⟨host, by decide⟩
  · exact ⟨host, by decide⟩
theorem witness_Feathering :
    (∃ n : PortN, ∃ s : State, linkOn s = true ∧ s.ports[n].dark = true ∧ txIdle s n = false) ∧
    (∃ n : PortN, ∃ s : State, linkOn s = true ∧ (s.ports[n].dark = false ∨ txIdle s n = true)) ∧
    (∃ n : PortN, ∃ s : State, linkOn s = true ∧ s.ports[n].dark = true) ∧
    (∃ n : PortN, ∃ s : State, linkOn s = true ∧ s.ports[n].dark = false) ∧
    (∃ n : PortN, ∃ s : State, linkOn s = true ∧ s.ports[n].dark = true ∧ ((schedRuns s n = true ∧ inWindow s n
      (strokePos s + wakeTicks s n) = true) ∨ catchSoon s n (wakeTicks s n) = true)) ∧
    (∃ n : PortN, ∃ s : State, linkOn s = true ∧ schedRuns s n = true ∧ inPeriodic s n (strokePos s) = true ∧ keepsLit
      s n = false ∧ txIdle s n = true) ∧
    (∃ n : PortN, ∃ s : State, linkOn s = true ∧ (schedRuns s n = false ∨ inPeriodic s n (strokePos s) = false ∨
      keepsLit s n = true ∨ txIdle s n = false)) := by
  refine ⟨?_, ?_, ?_, ?_, ?_, ?_, ?_⟩
  · exact ⟨0,
      { (pt 0 fun p => { live p with dark := true }) with ula := { host.ula with reqs := host.ula.reqs.set 0 [txp 3#4] } },
      by decide⟩
  · exact ⟨0, host, by decide⟩
  · exact ⟨0, pt 0 fun p => { live p with dark := true }, by decide⟩
  · exact ⟨0, host, by decide⟩
  · exact ⟨1, pt 1 fun p => { live p with dark := true, txq := [{ txp 6#4 with cue := some (0, 0) }] }, by decide⟩
  · exact ⟨1, let s := modPort { host with tb := { host.tb with locked := true } } 1 fun p =>
      { live p with pcap0 := 0x1FFF#16 };
      { s with aon := { s.aon with ports := vMod s.aon.ports 1 fun a => { a with feather := 1#16 } } }, by decide⟩
  · exact ⟨0, host, by decide⟩
theorem witness_SwitchCommands :
    (∃ p : Path, ∃ m : DnN, ∃ s : State, reaches s p = true ∧ single s m ∧ s.pps[m].st = .off ∧ 4 ≤ freeBudget s ∧
      s.ppsg.vlow = false) ∧
    (∃ p : Path, ∃ m : DnN, ∃ s : State, reaches s p = true ∧ single s m ∧ s.pps[m].st = .off ∧ freeBudget s < 4) ∧
    (∃ p : Path, ∃ m : DnN, ∃ s : State, reaches s p = true ∧ single s m ∧ s.pps[m].st ≠ .off ∧ s.pps[m].st ≠
      .discharge) ∧
    (∃ p : Path, ∃ m : DnN, ∃ s : State, reaches s p = true ∧ single s m ∧ s.pps[m].st = .on) ∧
    (∃ p : Path, ∃ m : DnN, ∃ s : State, reaches s p = true ∧ single s m ∧ s.pps[m].st ≠ .on ∧ s.pps[m].st ≠ .wait ∧
      s.pps[m].st ≠ .retry) ∧
    (∃ p : Path, ∃ m : DnN, ∃ s : State, reaches s p = true ∧ single s m ∧ (s.pps[m].st = .wait ∨ s.pps[m].st =
      .retry)) ∧
    (∃ p : Path, ∃ m : DnN, ∃ s : State, reaches s p = true ∧ single s m ∧ s.pps[m].st = .latched ∧ (bit
      s.pps[m].latchBy 2 = false ∨ s.pps[m].voffHigh = false ∨ s.pps[m].voffEn = false)) ∧
    (∃ p : Path, ∃ m : DnN, ∃ s : State, reaches s p = true ∧ single s m ∧ s.pps[m].st = .latched ∧ bit
      s.pps[m].latchBy 2 = true ∧ s.pps[m].voffHigh = true ∧ s.pps[m].voffEn = true) ∧
    (∃ p : Path, ∃ m : DnN, ∃ s : State, reaches s p = true ∧ isLead s.ppsg.gang m = true ∧ s.pps[m].st = .off ∧
      s.pps[m].on = false ∧ (∃ x ∈ gangLegs s m, s.pps[x].lost = true)) ∧
    (∃ p : Path, ∃ m : DnN, ∃ s : State, reaches s p = true ∧ isLead s.ppsg.gang m = true ∧ s.pps[m].st = .off ∧
      s.pps[m].on = false ∧ s.pps[m].fitted = true ∧ (∀ x ∈ gangLegs s m, s.pps[x].lost = false)) ∧
    (∃ p : Path, ∃ v : Word, ∃ s : State, reaches s p = true ∧ fld v 0 12 < granted s.pps + reserved s.pps ∧ granted
      s.pps + reserved s.pps ≤ 2240) ∧
    (∃ p : Path, ∃ v : Word, ∃ s : State, reaches s p = true ∧ granted s.pps + reserved s.pps ≤ min (fld v 0 12) 2240) ∧
    (∃ p : Path, ∃ s : State, reaches s p = true ∧ (∀ m : DnN, s.pps[m].st = .off ∧ s.pps[m].lost = false)) ∧
    (∃ p : Path, ∃ v : Word, ∃ s : State, ∃ m : DnN, reaches s p = true ∧ (s.pps[m].st ≠ .off ∨ s.pps[m].lost = true)
      ∧ bit v (8 + m.val / 4) ≠ bit s.ppsg.gang (8 + m.val / 4)) ∧
    (∃ p : Path, ∃ v : Word, ∃ s : State, reaches s p = true ∧ (isUp s.ports[(0 : PortN)] = false ∨ pclassVal (fld v 0
      3) = s.glob.pclass0)) := by
  refine ⟨?_, ?_, ?_, ?_, ?_, ?_, ?_, ?_, ?_, ?_, ?_, ?_, ?_, ?_, ?_⟩
  · exact ⟨.pf, 0, { host with ppsg := { host.ppsg with budget := 2240 } }, by decide⟩
  · exact ⟨.pf, 0, host, by decide⟩
  · exact ⟨.pf, 0, swIn .latched, by decide⟩
  · exact ⟨.pf, 0, swIn .on, by decide⟩
  · exact ⟨.pf, 0, host, by decide⟩
  · exact ⟨.pf, 0, swIn .wait, by decide⟩
  · exact ⟨.pf, 0, sw fun p => { p with st := .latched }, by decide⟩
  · exact ⟨.pf, 0, sw fun p => { p with st := .latched, latchBy := 4#16, voffHigh := true, voffEn := true }, by
      decide⟩
  · exact ⟨.pf, 0, { (sw fun p => { p with lost := true }) with ppsg := { host.ppsg with gang := 1#16 } }, by decide⟩
  · exact ⟨.pf, 0, host, by decide⟩
  · exact ⟨.pf, default, sw fun p => { p with st := .on, grant := 4 }, by decide⟩
  · exact ⟨.pf, default, host, by decide⟩
  · exact ⟨.pf, host, by decide⟩
  · exact ⟨.pf, 0x0100#16, sw fun p => { p with st := .on }, 0, by decide⟩
  · exact ⟨.pf, default, host, by decide⟩
theorem witness_SwitchFaultsAndTimers :
    (∃ m : DnN, ∃ s : State, powerOn s = true ∧ single s m ∧ s.pps[m].lost = false ∧ (s.pps[m].st = .on ∨ (s.pps[m].st
      = .ramp ∧ s.pps[m].chkReq = false ∧ s.pps[m].chkDue = false)) ∧ s.pps[m].on = true ∧ s.pps[m].used < fld
      s.pps[m].retry 0 4) ∧
    (∃ m : DnN, ∃ s : State, powerOn s = true ∧ single s m ∧ s.pps[m].lost = false ∧ (s.pps[m].st = .on ∨ (s.pps[m].st
      = .ramp ∧ s.pps[m].chkReq = false ∧ s.pps[m].chkDue = false)) ∧ s.pps[m].on = true ∧ s.pps[m].used < fld
      s.pps[m].retry 0 4 ∧ (s.pps[m].limit = true ∨ linkOn s = false)) ∧
    (∃ m : DnN, ∃ s : State, powerOn s = true ∧ single s m ∧ s.pps[m].lost = false ∧ (s.pps[m].st = .on ∨ (s.pps[m].st
      = .ramp ∧ s.pps[m].chkReq = false ∧ s.pps[m].chkDue = false)) ∧ s.pps[m].on = true ∧ fld s.pps[m].retry 0 4 ≤
      s.pps[m].used ∧ fld s.pps[m].retry 0 4 ≠ 15) ∧
    (∃ m : DnN, ∃ s : State, powerOn s = true ∧ single s m ∧ s.pps[m].lost = false ∧ (s.pps[m].st = .on ∨ (s.pps[m].st
      = .ramp ∧ s.pps[m].chkReq = false ∧ s.pps[m].chkDue = false)) ∧ s.pps[m].on = false) ∧
    (∃ m : DnN, ∃ s : State, ∃ vgs : Word, powerOn s = true ∧ single s m ∧ s.pps[m].lost = false ∧ (s.pps[m].st = .on
      ∨ (s.pps[m].st = .ramp ∧ s.pps[m].chkReq = false ∧ s.pps[m].chkDue = false)) ∧ s.pps[m].gateEn = true ∧ fld vgs
      0 8 < 30) ∧
    (∃ m : DnN, ∃ s : State, powerOn s = true ∧ single s m ∧ s.pps[m].lost = false ∧ s.pps[m].limit = false ∧ linkOn s
      = true) ∧
    (∃ m : DnN, ∃ s : State, powerOn s = true ∧ single s m ∧ s.pps[m].lost = false ∧ (s.pps[m].st = .off ∨
      (s.pps[m].st = .ramp ∧ (s.pps[m].chkReq = true ∨ s.pps[m].chkDue = true)))) ∧
    (∃ m : DnN, ∃ s : State, powerOn s = true ∧ single s m ∧ s.pps[m].lost = false ∧ s.pps[m].st = .off ∧
      s.pps[m].voffArmed = true ∧ s.pps[m].voffEn = true) ∧
    (∃ m : DnN, ∃ s : State, powerOn s = true ∧ single s m ∧ s.pps[m].lost = false ∧ (s.pps[m].st ≠ .off ∨
      s.pps[m].voffArmed = false ∨ s.pps[m].voffEn = false)) ∧
    (∃ m : DnN, ∃ s : State, powerOn s = true ∧ single s m ∧ s.pps[m].lost = false) ∧
    (∃ m : DnN, ∃ l : DnN, ∃ n : Int, ∃ sum : Int, ∃ s : State, powerOn s = true ∧ leadOf s.ppsg.gang m = l ∧ leadOf
      s.ppsg.gang l = l ∧ s.pps[l].fitted = true ∧ s.pps[m].fitted = true ∧ s.pps[l].st = .on ∧ gangPg s m = true ∧
      s.pps[m].lost = false ∧ n = (otherLegs s m).length ∧ sum = sumReadings s (otherLegs s m) ∧ 0 < n ∧ 8 * n *
      s.mtr.ports[m].i.toInt < sum ∧ 125 * n * fld s.pps[l].ilim 0 8 ≤ 4 * sum) ∧
    (∃ m : DnN, ∃ l : DnN, ∃ n : Int, ∃ sum : Int, ∃ s : State, powerOn s = true ∧ leadOf s.ppsg.gang m = l ∧ leadOf
      s.ppsg.gang l = l ∧ s.pps[l].fitted = true ∧ s.pps[m].fitted = true ∧ s.pps[l].st = .on ∧ gangPg s m = true ∧
      s.pps[m].lost = false ∧ n = (otherLegs s m).length ∧ sum = sumReadings s (otherLegs s m) ∧ (n = 0 ∨ sum ≤ 8 * n
      * s.mtr.ports[m].i.toInt ∨ 4 * sum < 125 * n * fld s.pps[l].ilim 0 8)) ∧
    (∃ m : DnN, ∃ s : State, ∃ vgs : Word, powerOn s = true ∧ single s m ∧ s.pps[m].st = .ramp ∧ s.pps[m].chkReq =
      false ∧ s.pps[m].chkDue = false ∧ s.pps[m].on = true ∧ s.pps[m].lost = false ∧ 80 ≤ fld vgs 0 8) ∧
    (∃ m : DnN, ∃ s : State, ∃ vgs : Word, powerOn s = true ∧ single s m ∧ s.pps[m].st = .ramp ∧ s.pps[m].chkReq =
      false ∧ s.pps[m].chkDue = false ∧ s.pps[m].on = false ∧ s.pps[m].lost = false ∧ 80 ≤ fld vgs 0 8) ∧
    (∃ m : DnN, ∃ s : State, ∃ vgs : Word, powerOn s = true ∧ single s m ∧ fld vgs 0 8 < 80) ∧
    (∃ m : DnN, ∃ s : State, powerOn s = true ∧ single s m ∧ s.pps[m].pg = false) := by
  refine ⟨?_, ?_, ?_, ?_, ?_, ?_, ?_, ?_, ?_, ?_, ?_, ?_, ?_, ?_, ?_, ?_⟩
  · exact ⟨0, sw fun p => { p with st := .on, on := true }, by decide⟩
  · exact ⟨0, sw fun p => { p with st := .on, on := true, limit := true }, by decide⟩
  · exact ⟨0, sw fun p => { p with st := .on, on := true, used := 3 }, by decide⟩
  · exact ⟨0, sw fun p => { p with st := .on, on := false }, by decide⟩
  · exact ⟨0, sw fun p => { p with st := .on }, 29#16, by decide⟩
  · exact ⟨0, sw fun p => { p with st := .on }, by decide⟩
  · exact ⟨0, sw fun p => { p with st := .ramp, chkDue := true }, by decide⟩
  · exact ⟨0, sw fun p => { p with voffArmed := true }, by decide⟩
  · exact ⟨0, host, by decide⟩
  · exact ⟨0, host, by decide⟩
  · exact ⟨1, 0, 1, 800,
      { modPps (sw fun p => { p with st := .on, pg := true, ilim := 4#16 }) 1 fun p => { p with pg := true } with ppsg := { host.ppsg with gang := 1#16 }, mtr := { host.mtr with ports := vMod host.mtr.ports 0 fun x => { x with i := 800#16 } } },
      by decide⟩
  · exact ⟨1, 0, 1, 0,
      { modPps (sw fun p => { p with st := .on, pg := true, ilim := 4#16 }) 1 fun p => { p with pg := true } with ppsg := { host.ppsg with gang := 1#16 }, mtr := { host.mtr with ports := vMod host.mtr.ports 0 fun x => { x with i := 0#16 } } },
      by decide⟩
  · exact ⟨0, sw fun p => { p with st := .ramp, on := true }, 80#16, by decide⟩
  · exact ⟨0, sw fun p => { p with st := .ramp }, 80#16, by decide⟩
  · exact ⟨0, host, default, by decide⟩
  · exact ⟨0, host, by decide⟩
theorem witness_SwitchFaultsAndTimers_2 :
    (∃ m : DnN, ∃ s : State, powerOn s = true ∧ single s m ∧ s.pps[m].pg = true ∧ linkOn s = true) ∧
    (∃ m : DnN, ∃ s : State, powerOn s = true ∧ single s m ∧ s.pps[m].st = .retry ∧ s.ppsg.vlow = false ∧ linkOn s =
      true) ∧
    (∃ m : DnN, ∃ s : State, powerOn s = true ∧ single s m ∧ s.pps[m].st ≠ .retry) ∧
    (∃ m : DnN, ∃ s : State, powerOn s = true ∧ single s m ∧ gangPg s m = true) ∧
    (∃ m : DnN, ∃ s : State, powerOn s = true ∧ single s m ∧ gangPg s m = false) ∧
    (∃ m : DnN, ∃ s : State, powerOn s = true ∧ single s m ∧ s.pps[m].st = .stopping ∧ s.pps[m].on = true ∧
      s.ppsg.vlow = false ∧ linkOn s = true) ∧
    (∃ m : DnN, ∃ s : State, powerOn s = true ∧ single s m ∧ s.pps[m].st = .stopping ∧ s.pps[m].on = false) ∧
    (∃ m : DnN, ∃ s : State, powerOn s = true ∧ single s m ∧ s.pps[m].st ≠ .stopping) ∧
    (∃ m : DnN, ∃ s : State, powerOn s = true ∧ single s m ∧ s.pps[m].st = .discharge) ∧
    (∃ m : DnN, ∃ s : State, powerOn s = true ∧ single s m ∧ s.pps[m].st ≠ .discharge) ∧
    (∃ m : DnN, ∃ s : State, powerOn s = true ∧ single s m ∧ s.pps[m].st = .off) ∧
    (∃ m : DnN, ∃ s : State, powerOn s = true ∧ single s m ∧ s.pps[m].st ≠ .off) := by
  refine ⟨?_, ?_, ?_, ?_, ?_, ?_, ?_, ?_, ?_, ?_, ?_, ?_⟩
  · exact ⟨0, sw fun p => { p with pg := true }, by decide⟩
  · exact ⟨0, swIn .retry, by decide⟩
  · exact ⟨0, host, by decide⟩
  · exact ⟨0, sw fun p => { p with pg := true }, by decide⟩
  · exact ⟨0, host, by decide⟩
  · exact ⟨0, sw fun p => { p with st := .stopping, on := true }, by decide⟩
  · exact ⟨0, swIn .stopping, by decide⟩
  · exact ⟨0, host, by decide⟩
  · exact ⟨0, swIn .discharge, by decide⟩
  · exact ⟨0, host, by decide⟩
  · exact ⟨0, host, by decide⟩
  · exact ⟨0, swIn .on, by decide⟩
theorem witness_Metering :
    (∃ m : DnN, ∃ x : Sample, ∃ s : State, linkOn s = true ∧ s.mtr.slot ≠ sampleSlot m x) ∧
    (∃ m : DnN, ∃ s : State, linkOn s = true ∧ s.mtr.slot = 2 * m.val) ∧
    (∃ m : DnN, ∃ s : State, linkOn s = true ∧ s.mtr.slot = 2 * m.val + 1 ∧ m.val < 15 ∧ biasDue s m = false) ∧
    (∃ m : DnN, ∃ cur : Word, ∃ s : State, linkOn s = true ∧ s.mtr.slot = 2 * m.val + 1 ∧ m.val < 15 ∧ biasDue s m =
      true ∧ biasOk s.mtr.ports[m].i cur = true) ∧
    (∃ m : DnN, ∃ cur : Word, ∃ s : State, linkOn s = true ∧ s.mtr.slot = 2 * m.val + 1 ∧ m.val < 15 ∧ biasDue s m =
      true ∧ biasOk s.mtr.ports[m].i cur = false ∧ single s m) ∧
    (∃ m : DnN, ∃ s : State, single s m ∧ s.pps[m].lost = false) ∧
    (∃ s : State, linkOn s = true ∧ s.mtr.slot = 31 ∧ biasDue s 15 = false) ∧
    (∃ p : Path, ∃ s : State, reaches s p = true ∧ s.mtr.copy = none) ∧
    (∃ p : Path, ∃ s : State, reaches s p = true ∧ s.mtr.copy ≠ none) ∧
    (∃ s : State, ∃ src : Nat, ∃ l : List MSnap, powerOn s = true ∧ s.mtr.copy = some (src, l) ∧ s.mtr.waiters = []) ∧
    (∃ s : State, powerOn s = true ∧ s.mtr.copy = none) := by
  refine ⟨?_, ?_, ?_, ?_, ?_, ?_, ?_, ?_, ?_, ?_, ?_⟩
  · exact ⟨1, .pair 0#16 0#16 true, host, by decide⟩
  · exact ⟨15, atSlot host 30, by decide⟩
  · exact ⟨14, atSlot host 29, by decide⟩
  · exact ⟨0, 1000#16, atSlot (sw fun p => { p with st := .on, chkDue := true }) 1, by decide⟩
  · exact ⟨0, 0#16, atSlot (sw fun p => { p with st := .on, chkDue := true }) 1, by decide⟩
  · exact ⟨0, host, by decide⟩
  · exact ⟨atSlot host 31, by decide⟩
  · exact ⟨.pf, host, by decide⟩
  · exact ⟨.pf, { host with mtr := { host.mtr with copy := some (1, []) } }, by decide⟩
  · exact ⟨{ host with mtr := { host.mtr with copy := some (1, []) } }, 1, [], by decide⟩
  · exact ⟨host, by decide⟩
theorem witness_WakeOrder :
    (∃ pins : BitVec 8, ∃ srcs : Word, ∃ h : Word, ∃ s : State, powerOn s = true ∧ h = wakeHits s (pinHits s.pm
      (pins.setWidth 16) ||| (srcs &&& 0x3F00#16)) ∧ (h = 0#16 ∨ s.pm.st = .run)) ∧
    (∃ pins : BitVec 8, ∃ srcs : Word, ∃ h : Word, ∃ s : State, powerOn s = true ∧ h = wakeHits s (pinHits s.pm
      (pins.setWidth 16) ||| (srcs &&& 0x3F00#16)) ∧ h ≠ 0#16 ∧ s.pm.st = .waking ∧ s.pm.restart = 0) ∧
    (∃ pins : BitVec 8, ∃ srcs : Word, ∃ h : Word, ∃ s : State, powerOn s = true ∧ h = wakeHits s (pinHits s.pm
      (pins.setWidth 16) ||| (srcs &&& 0x3F00#16)) ∧ h ≠ 0#16 ∧ s.pm.st = .waking ∧ s.pm.restart ≠ 0) ∧
    (∃ pins : BitVec 8, ∃ srcs : Word, ∃ h : Word, ∃ s : State, powerOn s = true ∧ h = wakeHits s (pinHits s.pm
      (pins.setWidth 16) ||| (srcs &&& 0x3F00#16)) ∧ h ≠ 0#16 ∧ s.pm.st = .stow) ∧
    (∃ pins : BitVec 8, ∃ srcs : Word, ∃ h : Word, ∃ s : State, powerOn s = true ∧ h = wakeHits s (pinHits s.pm
      (pins.setWidth 16) ||| (srcs &&& 0x3F00#16)) ∧ h ≠ 0#16 ∧ s.pm.st = .feather ∧ s.pm.mgHeld = none ∧
      s.pm.suspendReq = false ∧ s.aon.xqErr = []) ∧
    (∃ s : State, powerOn s = true ∧ s.pm.st = .waking ∧ s.pm.pwrEn = true) ∧
    (∃ s : State, powerOn s = true ∧ (s.pm.st ≠ .waking ∨ s.pm.pwrEn = false)) ∧
    (∃ s : State, powerOn s = true ∧ mayRelease s = true ∧ b1Applies s = false ∧ s.pm.mgHeld = none ∧ s.pm.suspendReq
      = false ∧ s.aon.xqErr = []) ∧
    (∃ s : State, ∃ ws : List Word, ∃ w : Word, powerOn s = true ∧ mayRelease s = true ∧ s.pm.restart = 0 ∧ s.pm.b1 =
      some ws ∧ ws[68]? = some w ∧ s.pm.mgHeld = none ∧ s.pm.suspendReq = false ∧ s.aon.xqErr = []) ∧
    (∃ s : State, powerOn s = true ∧ mayRelease s = false) ∧
    (∃ s : State, powerOn s = true ∧ s.pm.st = .waking ∧ s.pm.pwrEn = true ∧ s.pm.corePg = false ∧ bit s.pm.pwrSeq 0 =
      false ∧ s.pm.attempts + 1 < 3) ∧
    (∃ s : State, powerOn s = true ∧ s.pm.st = .waking ∧ s.pm.pwrEn = true ∧ s.pm.corePg = false ∧ bit s.pm.pwrSeq 0 =
      false ∧ 3 ≤ s.pm.attempts + 1 ∧ (s.wdt.grace = false ∨ s.wdt.paused = true)) ∧
    (∃ s : State, powerOn s = true ∧ s.pm.st = .waking ∧ s.pm.pwrEn = true ∧ s.pm.corePg = false ∧ bit s.pm.pwrSeq 0 =
      false ∧ 3 ≤ s.pm.attempts + 1 ∧ s.wdt.grace = true ∧ s.wdt.paused = false) ∧
    (∃ s : State, powerOn s = true ∧ s.pm.st ≠ .waking) ∧
    (∃ s : State, powerOn s = true ∧ s.pm.st = .waking ∧ s.pm.puWait = true) ∧
    (∃ s : State, powerOn s = true ∧ (s.pm.st = .run ∨ s.pm.st = .feather) ∧ s.pm.pwrEn = true ∧ bit s.pm.pwrSeq 0 =
      false) := by
  refine ⟨?_, ?_, ?_, ?_, ?_, ?_, ?_, ?_, ?_, ?_, ?_, ?_, ?_, ?_, ?_, ?_⟩
  · exact ⟨0#8, 0#16, 0#16, host, by decide⟩
  · exact ⟨0#8, 0x0100#16, 0x0100#16, pms fun p => { p with st := .waking, restart := 0 }, by decide⟩
  · exact ⟨0#8, 0x0100#16, 0x0100#16, pms fun p => { p with st := .waking, restart := 2 }, by decide⟩
  · exact ⟨0#8, 0x0100#16, 0x0100#16, stowed, by decide⟩
  · exact ⟨0#8, 0x2000#16, 0x2000#16, pms fun p => { p with st := .feather }, by decide⟩
  · exact ⟨pms fun p => { p with st := .waking }, by decide⟩
  · exact ⟨host, by decide⟩
  · exact ⟨pms fun p => { p with st := .waking }, by decide⟩
  · exact ⟨pms fun p => { p with st := .waking, restart := 0, corePg := true, b1 := some (List.replicate 2020 0#16) },
      List.replicate 2020 0#16, 0#16, by decide⟩
  · exact ⟨host, by decide⟩
  · exact ⟨pms fun p => { p with st := .waking, corePg := false }, by decide⟩
  · exact ⟨pms fun p => { p with st := .waking, corePg := false, attempts := 2 }, by decide⟩
  · exact
      ⟨{ (pms fun p => { p with st := .waking, corePg := false, attempts := 2 }) with wdt := { host.wdt with grace := true } },
      by decide⟩
  · exact ⟨host, by decide⟩
  · exact ⟨pms fun p => { p with st := .waking, puWait := true, attempts := 2 }, by decide⟩
  · exact ⟨host, by decide⟩
theorem witness_WakeOrder_2 :
    (∃ s : State, powerOn s = true ∧ bit s.pm.pwrSeq 0 = true) ∧
    (∃ s : State, powerOn s = true ∧ s.pm.lossWait = true) ∧
    (∃ s : State, powerOn s = true ∧ s.pm.lossWait = false) ∧
    (∃ s : State, s.rst.perst = true ∧ (s.pm.st = .run ∨ powerOn s = false ∨ epStrap s = false)) ∧
    (∃ s : State, s.rst.perst = true ∧ s.pm.st = .stow ∧ powerOn s = true ∧ epStrap s = true ∧ bit s.pm.wakeEn 11 =
      true) ∧
    (∃ s : State, s.rst.perst = false) ∧
    (∃ n : PortN, ∃ s : State, powerOn s = true ∧ s.ports[n].rxCur = none) ∧
    (∃ s : State, powerOn s = true ∧ s.pm.st = .run) := by
  refine ⟨?_, ?_, ?_, ?_, ?_, ?_, ?_, ?_⟩
  · exact ⟨pms fun p => { p with pwrSeq := 1#16 }, by decide⟩
  · exact ⟨pms fun p => { p with lossWait := true }, by decide⟩
  · exact ⟨host, by decide⟩
  · exact ⟨{ host with rst := { host.rst with perst := true } }, by decide⟩
  · exact ⟨{ stowed with rst := { stowed.rst with perst := true }, pm := { stowed.pm with wakeEn := 0x0800#16 } }, by
      decide⟩
  · exact ⟨host, by decide⟩
  · exact ⟨0, host, by decide⟩
  · exact ⟨host, by decide⟩
theorem witness_LowPowerEntry :
    (∃ s : State, linkOn s = true ∧ s.pm.featherIdle ≠ 0#16 ∧ 32 * s.pm.featherIdle.toNat ≤ s.pm.idle ∧ whyFeather s =
      0) ∧
    (∃ s : State, linkOn s = true ∧ s.pm.featherIdle ≠ 0#16 ∧ 32 * s.pm.featherIdle.toNat ≤ s.pm.idle ∧ whyFeather s ≠
      0) ∧
    (∃ s : State, linkOn s = true ∧ (s.pm.featherIdle = 0#16 ∨ s.pm.idle < 32 * s.pm.featherIdle.toNat)) ∧
    (∃ s : State, powerOn s = true ∧ s.pm.stowIdle ≠ 0#16 ∧ 32 * s.pm.stowIdle.toNat ≤ s.pm.idle ∧ whyStow s = 0 ∧
      (s.pm.st = .run ∨ s.pm.st = .feather) ∧ whyFeather s = 0) ∧
    (∃ s : State, powerOn s = true ∧ s.pm.stowIdle ≠ 0#16 ∧ 32 * s.pm.stowIdle.toNat ≤ s.pm.idle ∧ (s.pm.st = .run ∨
      s.pm.st = .feather) ∧ whyFeather s ≠ 0) ∧
    (∃ s : State, powerOn s = true ∧ s.pm.stowIdle ≠ 0#16 ∧ 32 * s.pm.stowIdle.toNat ≤ s.pm.idle ∧ (s.pm.st = .run ∨
      s.pm.st = .feather) ∧ whyFeather s = 0 ∧ whyStow s ≠ 0) ∧
    (∃ s : State, powerOn s = true ∧ (s.pm.stowIdle = 0#16 ∨ s.pm.idle < 32 * s.pm.stowIdle.toNat ∨ (s.pm.st ≠ .run ∧
      s.pm.st ≠ .feather))) ∧
    (∃ p : Path, ∃ s : State, reaches s p = true ∧ s.pm.ctrl &&& 0x0007#16 = s.pm.ctrl ∧ whyFeather s ≠ 0) ∧
    (∃ p : Path, ∃ s : State, reaches s p = true ∧ s.pm.ctrl &&& 0x0007#16 = s.pm.ctrl ∧ whyFeather s = 0) ∧
    (∃ p : Path, ∃ s : State, reaches s p = true ∧ s.pm.ctrl &&& 0x0007#16 = s.pm.ctrl ∧ whyStow s ≠ 0) ∧
    (∃ p : Path, ∃ s : State, reaches s p = true ∧ s.pm.ctrl &&& 0x0007#16 = s.pm.ctrl ∧ whyStow s = 0) ∧
    (∃ s : State, powerOn s = true ∧ s.pm.st = .stow ∧ bit s.pm.kregCtrl 0 = true ∧ s.pm.boost = false ∧ s.bb.flush =
      none ∧ s.mg.cs = true ∧ bit s.pm.kregCtrl 1 = true) ∧
    (∃ s : State, powerOn s = true ∧ s.pm.st = .stow ∧ bit s.pm.kregCtrl 0 = true ∧ s.pm.boost = false ∧ s.bb.flush =
      none ∧ (s.mg.cs = false ∨ bit s.pm.kregCtrl 1 = false)) ∧
    (∃ s : State, powerOn s = true ∧ s.pm.st ≠ .stow) ∧
    (∃ s : State, powerOn s = true ∧ s.pm.st = .stow ∧ s.pm.boost = true ∧ (s.mg.cs = false ∨ bit s.pm.kregCtrl 1 =
      false) ∧ s.bb.flush = none) ∧
    (∃ s : State, powerOn s = true ∧ s.pm.kregLow = true) := by
  refine ⟨?_, ?_, ?_, ?_, ?_, ?_, ?_, ?_, ?_, ?_, ?_, ?_, ?_, ?_, ?_, ?_⟩
  · exact ⟨{ (pms fun p => { p with featherIdle := 1#16, idle := 32 }) with rst := { host.rst with perst := true } },
      by decide⟩
  · exact ⟨{ (pms fun p => { p with featherIdle := 1#16, idle := 32 }) with ports := vMod host.ports 0 live }, by
      decide⟩
  · exact ⟨pms fun p => { p with featherIdle := 1#16, idle := 31 }, by decide⟩
  · exact ⟨{ (pms fun p => { p with stowIdle := 1#16, idle := 32 }) with rst := { host.rst with perst := true } }, by
      decide⟩
  · exact ⟨{ (pms fun p => { p with stowIdle := 1#16, idle := 32 }) with ports := vMod host.ports 0 live }, by decide⟩
  · exact
      ⟨{ (pms fun p => { p with stowIdle := 1#16, idle := 32, ctrl := 5#16 }) with rst := { host.rst with perst := true } },
      by decide⟩
  · exact ⟨pms fun p => { p with stowIdle := 1#16, idle := 31 }, by decide⟩
  · exact ⟨.pf, host, by decide⟩
  · exact ⟨.pf, pcies fun x => { x with link := .l1, clkReqHi := true }, by decide⟩
  · exact ⟨.pf, host, by decide⟩
  · exact ⟨.pf, pms fun p => { p with ctrl := 7#16 }, by decide⟩
  · exact
      ⟨{ (pms fun p => { p with st := .stow, kregCtrl := 3#16, boost := false }) with mg := { host.mg with cs := true } },
      by decide⟩
  · exact ⟨pms fun p => { p with st := .stow, boost := false }, by decide⟩
  · exact ⟨host, by decide⟩
  · exact ⟨pms fun p => { p with st := .stow, boost := true }, by decide⟩
  · exact ⟨pms fun p => { p with kregLow := true }, by decide⟩
theorem witness_LowPowerEntry_2 :
    (∃ s : State, powerOn s = true ∧ s.pm.kregLow = false) ∧
    (∃ s : State, powerOn s = true ∧ s.pm.st = .run) ∧
    (∃ s : State, powerOn s = true ∧ s.pm.st = .stow ∧ bit s.pm.kregCtrl 1 = true ∧ s.pm.kregLow = true ∧ bit
      s.pm.wakeEn 12 = false) ∧
    (∃ s : State, powerOn s = true ∧ s.ppsg.vlow = true ∧ s.pm.st = .run) ∧
    (∃ s : State, powerOn s = true ∧ s.ppsg.vlow = false) := by
  refine ⟨?_, ?_, ?_, ?_, ?_⟩
  · exact ⟨host, by decide⟩
  · exact ⟨host, by decide⟩
  · exact ⟨pms fun p => { p with st := .stow, kregLow := true }, by decide⟩
  · exact ⟨{ host with ppsg := { host.ppsg with vlow := true } }, by decide⟩
  · exact ⟨host, by decide⟩
theorem witness_WatchdogWrites :
    (∃ s : State, reaches s .pf = true ∧ holdsWdt s 0 = true ∧ (s.wdt.en = false ∨ s.wdt.grace = true)) ∧
    (∃ v : Word, ∃ s : State, reaches s .pf = true ∧ holdsWdt s 0 = true ∧ s.wdt.en = true ∧ s.wdt.grace = false ∧ v =
      0x5A3C#16) ∧
    (∃ v : Word, ∃ s : State, reaches s .pf = true ∧ holdsWdt s 0 = true ∧ s.wdt.en = true ∧ s.wdt.grace = false ∧ v =
      0xA5C3#16 ∧ s.wdt.armHost = true ∧ wdtOpen s.wdt = true) ∧
    (∃ v : Word, ∃ s : State, reaches s .pf = true ∧ holdsWdt s 0 = true ∧ s.wdt.en = true ∧ s.wdt.grace = false ∧ v =
      0xA5C3#16 ∧ s.wdt.armHost = true ∧ wdtOpen s.wdt = false) ∧
    (∃ v : Word, ∃ s : State, reaches s .pf = true ∧ holdsWdt s 0 = true ∧ s.wdt.en = true ∧ s.wdt.grace = false ∧ v ≠
      0x5A3C#16 ∧ (v ≠ 0xA5C3#16 ∨ s.wdt.armHost = false)) ∧
    (∃ s : State, reaches s .mg = true ∧ s.wdt.mgSvc = false) ∧
    (∃ s : State, reaches s .hub = true ∧ headless s = false) ∧
    (∃ v : Word, ∃ s : State, reaches s .hub = true ∧ v ≠ 0x5A3C#16 ∧ v ≠ 0xA5C3#16) ∧
    (∃ v : Word, ∃ s : State, reaches s .hub = true ∧ v = 0x5A3C#16 ∧ headless s = true ∧ s.wdt.en = true ∧
      s.wdt.grace = false) ∧
    (∃ p : Path, ∃ s : State, ∃ v : Word, reaches s p = true ∧ (p = .pf ∨ p = .mg) ∧ v = 0x6B1D#16) ∧
    (∃ p : Path, ∃ s : State, ∃ v : Word, reaches s p = true ∧ (p = .pf ∨ p = .mg) ∧ v = 0xD1B6#16 ∧ s.wdt.key = true
      ∧ s.wdt.lock = false ∧ s.wdt.grace = false) ∧
    (∃ p : Path, ∃ s : State, ∃ v : Word, reaches s p = true ∧ (p = .pf ∨ p = .mg) ∧ v = 0xD1B6#16 ∧ s.wdt.key = true
      ∧ (s.wdt.lock = true ∨ s.wdt.grace = true)) ∧
    (∃ p : Path, ∃ s : State, ∃ v : Word, reaches s p = true ∧ (p = .pf ∨ p = .mg) ∧ v ≠ 0x6B1D#16 ∧ (v ≠ 0xD1B6#16 ∨
      s.wdt.key = false)) ∧
    (∃ p : Path, ∃ s : State, reaches s p = true ∧ p ≠ .image) ∧
    (∃ p : Path, ∃ s : State, reaches s p = true ∧ p ≠ .image ∧ wdtOpen s.wdt = true) ∧
    (∃ p : Path, ∃ s : State, ∃ v : Word, reaches s p = true ∧ p ≠ .image ∧ wdtOpen s.wdt = false ∧ v ≠ 0#16 ∧ v ≠
      s.wdt.period) := by
  refine ⟨?_, ?_, ?_, ?_, ?_, ?_, ?_, ?_, ?_, ?_, ?_, ?_, ?_, ?_, ?_, ?_⟩
  · exact ⟨host, by decide⟩
  · exact ⟨0x5A3C#16, wdts fun w => { w with en := true }, by decide⟩
  · exact ⟨0xA5C3#16, wdts fun w => { w with en := true, armHost := true }, by decide⟩
  · exact ⟨0xA5C3#16, wdts fun w => { w with en := true, armHost := true, curWindow := 1 }, by decide⟩
  · exact ⟨0#16, wdts fun w => { w with en := true }, by decide⟩
  · exact ⟨host, by decide⟩
  · exact ⟨host, by decide⟩
  · exact ⟨0#16, host, by decide⟩
  · exact ⟨0x5A3C#16,
      { (wdts fun w => { w with en := true }) with rst := { host.rst with straps := host.rst.straps ||| 1#16 } }, by
      decide⟩
  · exact ⟨.pf, host, 0x6B1D#16, by decide⟩
  · exact ⟨.pf, wdts fun w => { w with en := true, key := true }, 0xD1B6#16, by decide⟩
  · exact ⟨.mg, wdts fun w => { w with lock := true, key := true }, 0xD1B6#16, by decide⟩
  · exact ⟨.mg, host, 0#16, by decide⟩
  · exact ⟨.pf, host, by decide⟩
  · exact ⟨.pf, host, by decide⟩
  · exact ⟨.pf, wdts fun w => { w with grace := true }, 1#16, by decide⟩
theorem witness_WatchdogWrites_2 :
    (∃ s : State, powerOn s = true) ∧
    (∃ s : State, powerOn s = true ∧ wdtCounts s.wdt = true) ∧
    (∃ s : State, powerOn s = true ∧ wdtCounts s.wdt = false) ∧
    (∃ s : State, powerOn s = true ∧ s.wdt.grace = true ∧ s.wdt.paused = false) ∧
    (∃ s : State, powerOn s = true ∧ (s.wdt.grace = false ∨ s.wdt.paused = true)) := by
  refine ⟨?_, ?_, ?_, ?_, ?_⟩
  · exact ⟨host, by decide⟩
  · exact ⟨wdts fun w => { w with en := true }, by decide⟩
  · exact ⟨host, by decide⟩
  · exact ⟨wdts fun w => { w with grace := true }, by decide⟩
  · exact ⟨host, by decide⟩
theorem witness_BlackBoxAndFlash :
    (∃ s : State, ∃ e : Entry, ∃ l : List Entry, linkOn s = true ∧ s.que.bbf = e :: l ∧ s.que.bbfLost = 0) ∧
    (∃ s : State, linkOn s = true ∧ s.que.bbf = []) ∧
    (∃ p : Path, ∃ s : State, reaches s p = true ∧ bit s.bb.ctrl 3 = false ∧ s.bb.ctrl &&& 0x00FB#16 = s.bb.ctrl ∧
      s.bb.armed = false ∧ s.bb.scan = false) ∧
    (∃ p : Path, ∃ s : State, reaches s p = true ∧ bit s.bb.ctrl 3 = false ∧ s.bb.ctrl &&& 0x00FB#16 = s.bb.ctrl ∧
      s.bb.armed = false ∧ s.bb.scan = false ∧ s.bb.flush = none ∧ s.bb.full = false) ∧
    (∃ p : Path, ∃ s : State, reaches s p = true ∧ bit s.bb.ctrl 3 = true ∧ s.bb.ctrl &&& 0x00FB#16 = s.bb.ctrl ∧
      s.bb.armed = true ∧ s.bb.flush = none ∧ flashWorks s = false) ∧
    (∃ p : Path, ∃ s : State, reaches s p = true ∧ bit s.bb.ctrl 3 = true ∧ s.bb.ctrl &&& 0x00FB#16 = s.bb.ctrl ∧
      s.bb.armed = true ∧ s.bb.flush = none ∧ flashWorks s = true) ∧
    (∃ v : Word, ∃ s : State, reaches s .pf = true ∧ bit v 8 = false) ∧
    (∃ mg : Bool, ∃ s : State, linkOn s = true ∧ (if mg then s.bb.mgw else s.bb.pf).wait = true) ∧
    (∃ s : State, linkOn s = true ∧ bit s.bb.ctrl 3 = true ∧ s.bb.armed = false ∧ s.bb.scan = false ∧ s.glob.cfgBusy =
      true) ∧
    (∃ s : State, linkOn s = true ∧ bit s.bb.ctrl 3 = true ∧ s.bb.armed = false ∧ s.bb.scan = false ∧ s.glob.cfgBusy =
      false ∧ scanReady s = true) ∧
    (∃ s : State, linkOn s = true ∧ bit s.bb.ctrl 3 = true ∧ s.bb.armed = false ∧ s.bb.scan = false ∧ s.glob.cfgBusy =
      false ∧ scanReady s = false) ∧
    (∃ s : State, linkOn s = true ∧ (bit s.bb.ctrl 3 = false ∨ s.bb.armed = true ∨ s.bb.scan = true)) ∧
    (∃ s : State, ∃ k : Nat, linkOn s = true ∧ s.bb.scan = true ∧ k < flushSlots s.bb) ∧
    (∃ s : State, linkOn s = true ∧ s.bb.scan = true) ∧
    (∃ s : State, linkOn s = true ∧ s.bb.scan = false) ∧
    (∃ s : State, ∃ f : Flush, linkOn s = true ∧ flashWorks s = true ∧ s.bb.nosusp = false ∧ s.bb.flush = some f ∧
      f.pins = false ∧ f.cause = .test) := by
  refine ⟨?_, ?_, ?_, ?_, ?_, ?_, ?_, ?_, ?_, ?_, ?_, ?_, ?_, ?_, ?_, ?_⟩
  · exact ⟨{ host with que := { host.que with bbf := [Entry.zero] } }, Entry.zero, [], by decide⟩
  · exact ⟨host, by decide⟩
  · exact ⟨.pf, host, by decide⟩
  · exact ⟨.pf, host, by decide⟩
  · exact ⟨.pf, bbs fun b => { b with ctrl := 9#16, armed := true }, by decide⟩
  · exact ⟨.pf,
      { (bbs fun b => { b with ctrl := 9#16, armed := true }) with fl := { host.fl with op := some .erase } }, by
      decide⟩
  · exact ⟨default, host, by decide⟩
  · exact ⟨true, bbs fun b => { b with mgw := { b.mgw with wait := true } }, by decide⟩
  · exact ⟨{ (bbs fun b => { b with ctrl := 9#16 }) with glob := { host.glob with cfgBusy := true } }, by decide⟩
  · exact
      ⟨{ (bbs fun b => { b with ctrl := 9#16 }) with fl := { host.fl with sfdp := some sfdp }, glob := { host.glob with imgSeen := some 0 } },
      by decide⟩
  · exact ⟨bbs fun b => { b with ctrl := 9#16 }, by decide⟩
  · exact ⟨host, by decide⟩
  · exact ⟨bbs fun b => { b with scan := true }, 7, by decide⟩
  · exact ⟨bbs fun b => { b with scan := true }, by decide⟩
  · exact ⟨host, by decide⟩
  · exact
      ⟨{ (bbs fun b => { b with flush := some (flush .test 0 false) }) with fl := { host.fl with op := some .program } },
      flush .test 0 false, by decide⟩
theorem witness_BlackBoxAndFlash_2 :
    (∃ s : State, ∃ f : Flush, linkOn s = true ∧ flashWorks s = true ∧ s.bb.nosusp = false ∧ s.bb.flush = some f ∧
      f.pins = false ∧ f.cause ≠ .test) ∧
    (∃ s : State, linkOn s = true ∧ s.bb.flush = none) ∧
    (∃ s : State, ∃ f : Flush, powerOn s = true ∧ s.bb.flush = some f ∧ f.pins = true ∧ f.pages + 1 < flushPages s.bb) ∧
    (∃ s : State, ∃ f : Flush, powerOn s = true ∧ s.bb.flush = some f ∧ f.pins = true ∧ flushPages s.bb ≤ f.pages + 1
      ∧ s.rst.due = false) ∧
    (∃ s : State, powerOn s = true ∧ s.bb.flush = none) ∧
    (∃ s : State, powerOn s = true ∧ s.bb.flushed = true ∧ s.bb.flush = none) ∧
    (∃ s : State, powerOn s = true ∧ s.bb.flushed = false) ∧
    (∃ p : Path, ∃ s : State, linkOn s = true ∧ ((p = .pf ∧ winOpen s 0 = true) ∨ (p = .mg ∧ s.glob.mgWr = false)) ∧
      flBusy s = false ∧ s.fl.frame = none) ∧
    (∃ p : Path, ∃ s : State, ∃ addr : BitVec 32, ∃ n : BitVec 12, ∃ ws : List Word, linkOn s = true ∧ ((p = .pf ∧
      winOpen s 0 = true) ∨ (p = .mg ∧ s.glob.mgWr = false)) ∧ flBusy s = false ∧ s.fl.frame = none ∧ n.toNat ≠ 0 ∧
      (flAddr s addr.toNat) % 256 + n.toNat ≤ 256 ∧ ws.length = (n.toNat + 1) / 2 ∧ s.bb.armed = false) ∧
    (∃ p : Path, ∃ s : State, ∃ addr : BitVec 32, ∃ n : BitVec 12, ∃ ws : List Word, linkOn s = true ∧ ((p = .pf ∧
      winOpen s 0 = true) ∨ (p = .mg ∧ s.glob.mgWr = false)) ∧ flBusy s = false ∧ s.fl.frame = none ∧ n.toNat ≠ 0 ∧
      n.toNat ≤ 256 ∧ 256 < (flAddr s addr.toNat) % 256 + n.toNat ∧ ws.length = (n.toNat + 1) / 2) ∧
    (∃ p : Path, ∃ s : State, ∃ x : Sfdp, linkOn s = true ∧ ((p = .pf ∧ winOpen s 0 = true) ∨ (p = .mg ∧ s.glob.mgWr =
      false)) ∧ flBusy s = false ∧ s.fl.frame = none ∧ s.fl.sfdp = some x ∧ s.bb.armed = false ∧ x.erase4k = true) ∧
    (∃ p : Path, ∃ s : State, ∃ x : Sfdp, linkOn s = true ∧ ((p = .pf ∧ winOpen s 0 = true) ∨ (p = .mg ∧ s.glob.mgWr =
      false)) ∧ flBusy s = false ∧ s.fl.frame = none ∧ s.fl.sfdp = some x ∧ s.bb.armed = false ∧ x.erase64 = true) ∧
    (∃ p : Path, ∃ s : State, ∃ x : Sfdp, linkOn s = true ∧ ((p = .pf ∧ winOpen s 0 = true) ∨ (p = .mg ∧ s.glob.mgWr =
      false)) ∧ flBusy s = false ∧ s.fl.frame = none ∧ s.fl.sfdp = some x ∧ s.bb.armed = false ∧ x.erase4k = false) ∧
    (∃ p : Path, ∃ s : State, linkOn s = true ∧ ((p = .pf ∧ winOpen s 0 = true) ∨ (p = .mg ∧ s.glob.mgWr = false)) ∧
      flBusy s = false ∧ s.fl.frame = none ∧ s.bb.armed = true ∧ s.bb.nosusp = true ∧ (∀ x, s.fl.sfdp = some x →
      x.erase4k = true)) ∧
    (∃ p : Path, ∃ s : State, linkOn s = true ∧ ((p = .pf ∧ winOpen s 0 = true) ∨ (p = .mg ∧ s.glob.mgWr = false)) ∧
      flBusy s = true ∧ s.fl.frame = none) ∧
    (∃ p : Path, ∃ s : State, ∃ ws : List Word, linkOn s = true ∧ ((p = .pf ∧ winOpen s 0 = true) ∨ (p = .mg ∧
      s.glob.mgWr = false)) ∧ flBusy s = false ∧ s.fl.frame = some (p, ws)) := by
  refine ⟨?_, ?_, ?_, ?_, ?_, ?_, ?_, ?_, ?_, ?_, ?_, ?_, ?_, ?_, ?_, ?_⟩
  · exact
      ⟨{ (bbs fun b => { b with flush := some (flush .vsys 0 false) }) with fl := { host.fl with op := some .program } },
      flush .vsys 0 false, by decide⟩
  · exact ⟨host, by decide⟩
  · exact ⟨bbs fun b => { b with flush := some (flush .vsys 0 true) }, flush .vsys 0 true, by decide⟩
  · exact ⟨bbs fun b => { b with flush := some (flush .vsys 1 true) }, flush .vsys 1 true, by decide⟩
  · exact ⟨host, by decide⟩
  · exact ⟨bbs fun b => { b with flushed := true }, by decide⟩
  · exact ⟨host, by decide⟩
  · exact ⟨.pf, host, by decide⟩
  · exact ⟨.pf, host, 0xFF#32, 1#12, [0#16], by decide⟩
  · exact ⟨.pf, host, 0xFF#32, 2#12, [0#16], by decide⟩
  · exact ⟨.pf, fls fun x => { x with sfdp := some sfdp }, sfdp, by decide⟩
  · exact ⟨.pf, fls fun x => { x with sfdp := some sfdp }, sfdp, by decide⟩
  · exact ⟨.pf, fls fun x => { x with sfdp := some { sfdp with erase4k := false } }, { sfdp with erase4k := false },
      by decide⟩
  · exact ⟨.pf, bbs fun b => { b with armed := true, nosusp := true }, by and_intros <;> first | decide | exact nofun⟩
  · exact ⟨.pf, fls fun x => { x with op := some .erase }, by decide⟩
  · exact ⟨.pf, fls fun x => { x with frame := some (.pf, []) }, [], by decide⟩
theorem witness_BlackBoxAndFlash_3 :
    (∃ s : State, powerOn s = true ∧ s.pm.st = .feather ∧ s.glob.mgWr = true ∧ s.pm.mgHeld ≠ none) ∧
    (∃ s : State, ∃ o : FlOp, linkOn s = true ∧ s.fl.op = some o ∧ s.fl.susp = false ∧ s.fl.left = none ∧ s.bb.flush =
      none) ∧
    (∃ s : State, ∃ o : FlOp, linkOn s = true ∧ s.fl.op = some o ∧ s.fl.susp = false ∧ s.fl.left ≠ none ∧ s.bb.flush =
      none) ∧
    (∃ s : State, ∃ o : FlOp, ∃ f : Flush, linkOn s = true ∧ s.fl.op = some o ∧ s.fl.susp = false ∧ s.fl.left = none ∧
      s.bb.flush = some f ∧ f.pins = false ∧ f.cause = .test) ∧
    (∃ s : State, linkOn s = true ∧ s.fl.op = none) ∧
    (∃ s : State, powerOn s = true ∧ s.bb.flush ≠ none) ∧
    (∃ s : State, powerOn s = true ∧ s.bb.flush = none ∧ flushBar s ≠ 0) ∧
    (∃ s : State, powerOn s = true ∧ s.bb.flush = none ∧ flushBar s = 0 ∧ flashWorks s = true) ∧
    (∃ s : State, powerOn s = true ∧ s.bb.flush = none ∧ flushBar s = 0 ∧ flashWorks s = false) ∧
    (∃ s : State, powerOn s = true ∧ (bit s.bb.ctrl 4 = false ∨ s.ppsg.vlow = true)) ∧
    (∃ s : State, powerOn s = true ∧ bit s.bb.ctrl 4 = true ∧ s.ppsg.vlow = false ∧ s.bb.flush = none ∧ flushBar s =
      0) := by
  refine ⟨?_, ?_, ?_, ?_, ?_, ?_, ?_, ?_, ?_, ?_, ?_⟩
  · exact
      ⟨{ (pms fun p => { p with st := .feather, mgHeld := some (0, []) }) with glob := { host.glob with mgWr := true } },
      by decide⟩
  · exact ⟨fls fun x => { x with op := some .read }, .read, by decide⟩
  · exact ⟨fls fun x => { x with op := some .erase, left := some .erase }, .erase, by decide⟩
  · exact
      ⟨{ (bbs fun b => { b with flush := some (flush .test 0 false) }) with fl := { host.fl with op := some .erase } },
      .erase, flush .test 0 false, by decide⟩
  · exact ⟨host, by decide⟩
  · exact ⟨bbs fun b => { b with flush := some (flush .test 0 false) }, by decide⟩
  · exact ⟨host, by decide⟩
  · exact ⟨{ (bbs fun b => { b with armed := true }) with fl := { host.fl with op := some .erase } }, by decide⟩
  · exact ⟨bbs fun b => { b with armed := true }, by decide⟩
  · exact ⟨host, by decide⟩
  · exact ⟨bbs fun b => { b with armed := true, ctrl := 0x11#16 }, by decide⟩
theorem witness_HostConfigurationAndReads :
    (∃ s : State, linkOn s = true ∧ epUp s = true ∧ cfgOpen s = false) ∧
    (∃ d : DomN, ∃ s : State, linkOn s = true ∧ cfgOpen s = true ∧ domExists s d = false) ∧
    (∃ s : State, cfgReaches s 0) ∧
    (∃ s : State, cfgReaches s 0 ∧ s.pcie.vfe = true) ∧
    (∃ s : State, cfgReaches s 0 ∧ s.pcie.vfe = false) ∧
    (∃ d : DomN, ∃ s : State, cfgReaches s d) ∧
    (∃ off : Word, ∃ r : Reg, ∃ s : State, linkOn s = true ∧ winOpen s 0 = true ∧ regAt .pf off.toNat = some r ∧ r ≠
      .tbTime 0 ∧ off.toNat < 0x6000) ∧
    (∃ s : State, linkOn s = true ∧ winOpen s 0 = true) ∧
    (∃ s : State, linkOn s = true) := by
  refine ⟨?_, ?_, ?_, ?_, ?_, ?_, ?_, ?_, ?_⟩
  · exact ⟨pcies fun x => { x with ready := false }, by decide⟩
  · exact ⟨1, host, by decide⟩
  · exact ⟨host, by decide⟩
  · exact ⟨pcies fun x => { x with vfe := true }, by decide⟩
  · exact ⟨host, by decide⟩
  · exact ⟨0, host, by decide⟩
  · exact ⟨0x44#16, .scratch, host, by decide⟩
  · exact ⟨host, by decide⟩
  · exact ⟨host, by decide⟩
theorem witness_HostResetsAndLink :
    (∃ s : State, (s.rst.por = true ∨ epStrap s = false)) ∧
    (∃ s : State, s.rst.por = false ∧ epStrap s = true ∧ epUp s = false) ∧
    (∃ s : State, epUp s = true ∧ linkHeld s = true) ∧
    (∃ s : State, s.rst.por = false ∧ epUp s = true ∧ linkHeld s = false) ∧
    (∃ s : State, linkOn s = true ∧ epUp s = true) ∧
    (∃ s : State, linkOn s = true ∧ epUp s = false) ∧
    (∃ s : State, cfgReaches s 0) ∧
    (∃ v : VfN, ∃ s : State, cfgReaches s (vfDom v)) ∧
    (∃ s : State, linkOn s = true ∧ epUp s = true ∧ s.glob.cfgBusy = false) ∧
    (∃ s : State, linkOn s = true ∧ (epUp s = false ∨ s.glob.cfgBusy = true)) ∧
    (∃ s : State, linkOn s = true ∧ epUp s = true ∧ s.pcie.aspmL1 = true ∧ s.pcie.link = .l0 ∧ s.pcie.reads = [] ∧
      hostWork s = false) ∧
    (∃ s : State, linkOn s = true ∧ hostWork s = true) ∧
    (∃ s : State, linkOn s = true ∧ s.pcie.link = .l1) ∧
    (∃ s : State, linkOn s = true ∧ s.pcie.link ≠ .l1) ∧
    (∃ d : DomN, ∃ s : State, cfgReaches s d) ∧
    (∃ d : DomN, ∃ s : State, ∃ k : Nat, ∃ b : Nat, ∃ kind : BadRequest, linkOn s = true ∧ epUp s = true ∧ domExists s
      d = true ∧ (k, b, kind) ∈ [(0, 20, BadRequest.unsupported), (1, 15, .tooLong), (2, 12, .poisonedWrite)] ∧ (kind
      ≠ .unsupported → winOpen s d = true) ∧ s.pcie.fns[d].d3 = false) := by
  refine ⟨?_, ?_, ?_, ?_, ?_, ?_, ?_, ?_, ?_, ?_, ?_, ?_, ?_, ?_, ?_, ?_⟩
  · exact ⟨low, by decide⟩
  · exact ⟨{ host with rst := { host.rst with perst := true } }, by decide⟩
  · exact ⟨host, by decide⟩
  · exact ⟨stowed, by decide⟩
  · exact ⟨host, by decide⟩
  · exact ⟨{ host with rst := { host.rst with perst := true } }, by decide⟩
  · exact ⟨host, by decide⟩
  · exact ⟨6, pcies fun x => { x with vfe := true, numVfs := 7 }, by decide⟩
  · exact ⟨host, by decide⟩
  · exact ⟨{ host with rst := { host.rst with perst := true } }, by decide⟩
  · exact ⟨pcies fun x => { x with link := .l0, aspmL1 := true }, by decide⟩
  · exact ⟨{ host with que := { host.que with watches := [(0, false)] } }, by decide⟩
  · exact ⟨pcies fun x => { x with link := .l1 }, by decide⟩
  · exact ⟨host, by decide⟩
  · exact ⟨0, host, by decide⟩
  · exact ⟨0, host, 0, 20, .unsupported, by decide⟩
theorem witness_HostResetsAndLink_2 :
    (∃ d : DomN, ∃ s : State, linkOn s = true ∧ epUp s = true ∧ domExists s d = true ∧ winOpen s d = true) ∧
    (∃ d : DomN, ∃ s : State, linkOn s = true ∧ epUp s = true ∧ domExists s d = true ∧ winOpen s d = false ∧
      s.pcie.fns[d].d3 = false) ∧
    (∃ d : DomN, ∃ s : State, ∃ kind : BadRequest, linkOn s = true ∧ epUp s = true ∧ domExists s d = true ∧ winOpen s
      d = false ∧ s.pcie.fns[d].d3 = false ∧ (kind = .poisonedWrite ∨ kind = .bar2Write)) ∧
    (∃ d : DomN, ∃ s : State, ∃ kind : BadRequest, linkOn s = true ∧ epUp s = true ∧ domExists s d = true ∧
      s.pcie.fns[d].d3 = true ∧ (∀ e, kind ≠ .link e)) ∧
    (∃ d : DomN, ∃ s : State, linkOn s = true ∧ epUp s = true ∧ domExists s d = true) ∧
    (∃ d : DomN, ∃ v : Fin 32, ∃ s : State, linkOn s = true ∧ s.doms[d].gapRun.getLsbD v.val = false) ∧
    (∃ d : DomN, ∃ v : Fin 32, ∃ s : State, linkOn s = true ∧ s.doms[d].gapRun.getLsbD v.val = true ∧
      s.doms[d].held.getLsbD v.val = false) ∧
    (∃ d : DomN, ∃ v : Fin 32, ∃ s : State, linkOn s = true ∧ s.doms[d].gapRun.getLsbD v.val = true ∧
      s.doms[d].held.getLsbD v.val = true ∧ fnLive s d = true ∧ s.pcie.fns[d].msixEn = true ∧ vecMasked s d v.val =
      false) ∧
    (∃ d : DomN, ∃ v : Fin 32, ∃ s : State, linkOn s = true ∧ winOpen s d = true ∧ v.val < vecCount d ∧
      s.doms[d].pba.getLsbD v.val = false) ∧
    (∃ d : DomN, ∃ v : Fin 32, ∃ s : State, linkOn s = true ∧ winOpen s d = true ∧ v.val < vecCount d ∧
      s.doms[d].pba.getLsbD v.val = true ∧ s.pcie.fns[d].msixEn = true ∧ s.pcie.fns[d].fnMask = false ∧
      s.doms[d].gapRun.getLsbD v.val = false ∧ fnLive s d = true) ∧
    (∃ d : DomN, ∃ s : State, linkOn s = true ∧ cfgReaches s d) ∧
    (∃ d : DomN, ∃ s : State, linkOn s = true ∧ epUp s = true ∧ domExists s d = true ∧ s.pcie.fns[d].d3 = false ∧
      winOpen s d = false) ∧
    (∃ d : DomN, ∃ s : State, linkOn s = true ∧ (domExists s d = false ∨ s.pcie.fns[d].d3 = true)) := by
  refine ⟨?_, ?_, ?_, ?_, ?_, ?_, ?_, ?_, ?_, ?_, ?_, ?_, ?_⟩
  · exact ⟨0, host, by decide⟩
  · exact ⟨0, State.reset, by decide⟩
  · exact ⟨0, State.reset, .bar2Write, by decide⟩
  · exact ⟨0, pcies fun x => { x with fns := vMod x.fns 0 fun f => { f with d3 := true } }, .unsupported, ⟨by decide,
      by decide, by decide, by decide, nofun⟩⟩
  · exact ⟨0, host, by decide⟩
  · exact ⟨0, default, host, by decide⟩
  · exact ⟨0, 31, dom 0 fun x => { x with gapRun := 0x80000000#32 }, by decide⟩
  · exact ⟨0, 0,
      { (dom 0 fun x => { x with gapRun := 1#32, held := 1#32, msix := Vector.replicate 32 { addr := 0, data := 0, mask := false } }) with pcie := { host.pcie with fns := vMod host.pcie.fns 0 fun f => { f with msixEn := true } } },
      by decide⟩
  · exact ⟨0, 0, host, by decide⟩
  · exact ⟨0, 0,
      { (dom 0 fun x => { x with pba := 1#32 }) with pcie := { host.pcie with fns := vMod host.pcie.fns 0 fun f => { f with msixEn := true } } },
      by decide⟩
  · exact ⟨0, host, by decide⟩
  · exact ⟨0, pcies fun x => { x with fns := vMod host.pcie.fns 0 fun f => { f with mse := false } }, by decide⟩
  · exact ⟨1, host, by decide⟩
theorem witness_ArbitersAndQueues :
    (∃ sent : Nat, ∃ s : State, linkOn s = true ∧ preemptible s sent = false) ∧
    (∃ sent : Nat, ∃ s : State, ∃ x : TxPkt, ∃ r : Nat, linkOn s = true ∧ preemptible s sent = true ∧ s.ports[(0 :
      PortN)].txCur = some x ∧ s.ula.arb.holder = some r ∧ (winner s.ula.arb 28 (fun y => (ulaCand s (some (nlvl s r))
      y).isSome) (ulaLvl s (some (nlvl s r)))).isSome = true) ∧
    (∃ s : State, ∃ x : TxPkt, ∃ w : Nat, linkOn s = true ∧ atBoundary s 0 = true ∧ s.ula.susp = some (x, w) ∧ x.fail
      = none ∧ mustResume s = true) ∧
    (∃ s : State, ∃ x : TxPkt, ∃ w : Nat, ∃ r : Nat, linkOn s = true ∧ atBoundary s 0 = true ∧ s.ula.susp = some (x,
      w) ∧ x.fail = some r) ∧
    (∃ s : State, linkOn s = true ∧ (atBoundary s 0 = false ∨ s.ula.susp = none)) ∧
    (∃ s : State, linkOn s = true ∧ s.wdt.save = 1 ∧ fnLive s 0 = true ∧ s.hma.arb.holder = none) ∧
    (∃ s : State, ∃ r : Nat, ∃ d : DomN, ∃ a : Nat, ∃ bs : List Nat, linkOn s = true ∧ s.wdt.save = 1 ∧ fnLive s 0 =
      true ∧ s.hma.arb.holder = some r ∧ s.hma.cur = none ∧ s.hma.left = some (d, a, bs)) ∧
    (∃ s : State, linkOn s = true ∧ (s.wdt.save ≠ 1 ∨ fnLive s 0 = false)) ∧
    (∃ s : State, ∃ r : Nat, ∃ q : HReq, linkOn s = true ∧ s.hma.arb.holder = some r ∧ s.hma.cur = some q ∧ bit
      s.hma.arb.ctrl 0 = true ∧ (r < 8 ∨ r = 16) ∧ s.wdt.save ≠ 1) ∧
    (∃ s : State, ∃ r : Nat, ∃ x : TxPkt, linkOn s = true ∧ s.ula.arb.holder = some r ∧ bit s.ula.arb.ctrl 0 = true ∧
      r < 16 ∧ s.ports[(0 : PortN)].txCur = some x ∧ x.done = false) ∧
    (∃ s : State, linkOn s = true ∧ bit s.hma.arb.ctrl 0 = false) ∧
    (∃ s : State, linkOn s = true ∧ bit s.ula.arb.ctrl 0 = false) ∧
    (∃ p : Path, ∃ s : State, reaches s p = true ∧ (p = .pf ∨ p = .mg)) ∧
    (∃ p : Path, ∃ s : State, reaches s p = true ∧ p ≠ .pf ∧ p ≠ .mg) ∧
    (∃ q : Nat, ∃ s : State, powerOn s = true ∧ queueIds.contains q = false) ∧
    (∃ q : Nat, ∃ s : State, powerOn s = true ∧ queueIds.contains q = true ∧ linkOn s = true) := by
  refine ⟨?_, ?_, ?_, ?_, ?_, ?_, ?_, ?_, ?_, ?_, ?_, ?_, ?_, ?_, ?_, ?_⟩
  · exact ⟨default, host, by decide⟩
  · exact ⟨10, queued sending 1 [perp], { txp 3#4 with len := 40, done := false }, 0, by decide⟩
  · exact ⟨suspended { txp 3#4 with len := 40, done := false }, { txp 3#4 with len := 40, done := false }, 6, by
      decide⟩
  · exact ⟨suspended { txp 3#4 with fail := some 3 }, { txp 3#4 with fail := some 3 }, 6, 3, by decide⟩
  · exact ⟨host, by decide⟩
  · exact ⟨wdts fun w => { w with save := 1 }, by decide⟩
  · exact
      ⟨{ (wdts fun w => { w with save := 1 }) with hma := { host.hma with left := some (0, 0, [0]), arb := { host.hma.arb with holder := some 8 } } },
      8, 0, 0, [0], by decide⟩
  · exact ⟨host, by decide⟩
  · exact ⟨holds host 0 (.read 0 .commands), 0, .read 0 .commands, by decide⟩
  · exact ⟨sending, 0, { txp 3#4 with len := 40, done := false }, by decide⟩
  · exact ⟨{ host with hma := { host.hma with arb := { host.hma.arb with ctrl := 0#16 } } }, by decide⟩
  · exact ⟨{ host with ula := { host.ula with arb := { host.ula.arb with ctrl := 0#16 } } }, by decide⟩
  · exact ⟨.pf, host, by decide⟩
  · exact ⟨.hub, host, by decide⟩
  · exact ⟨17, host, by decide⟩
  · exact ⟨default, host, by decide⟩
theorem witness_ArbitersAndQueues_2 :
    (∃ q : Nat, ∃ s : State, powerOn s = true ∧ q = 0x73 ∧ linkOn s = false) ∧
    (∃ s : State, linkOn s = true) ∧
    (∃ p : Path, ∃ q : BitVec 8, ∃ s : State, reaches s p = true ∧ queueIds.contains q.toNat = true) ∧
    (∃ p : Path, ∃ s : State, reaches s p = true ∧ s.que.injQ < 256) ∧
    (∃ p : Path, ∃ s : State, reaches s p = true ∧ s.que.evfCtrl &&& 0x1FFF#16 = s.que.evfCtrl) ∧
    (∃ s : State, ∃ e : Vector Word 4, ∃ l : List (Vector Word 4), linkOn s = true ∧ s.que.evf = e :: l) ∧
    (∃ s : State, linkOn s = true ∧ s.que.evf = []) ∧
    (∃ a : Arb, ∃ elig : Nat → Bool, ∃ r : Nat, slotOwner (slotAt a a.ptr) = some r ∧ elig r = true) ∧
    (∃ a : Arb, ∃ n : Nat, ∃ elig : Nat → Bool, ∃ lvl : Nat → Nat, ∃ r : Nat, ∃ n : Nat, (∀ r, slotOwner (slotAt a
      a.ptr) = some r → elig r = false) ∧ winner a n elig lvl = none) ∧
    (∃ a : Arb, ∃ n : Nat, ∃ elig : Nat → Bool, ∃ lvl : Nat → Nat, ∃ r : Nat, (∀ r, slotOwner (slotAt a a.ptr) = some
      r → elig r = false) ∧ winner a n elig lvl = some r) ∧
    (∃ s : State, linkOn s = true ∧ hmaFree s = false) ∧
    (∃ s : State, ∃ r : Nat, linkOn s = true ∧ hmaFree s = true ∧ winner (tidyAll s).hma.arb 19 (hmaElig (tidyAll s))
      (hmaLvl (tidyAll s)) = some r) ∧
    (∃ s : State, linkOn s = true ∧ hmaFree s = true ∧ winner (tidyAll s).hma.arb 19 (hmaElig (tidyAll s)) (hmaLvl
      (tidyAll s)) = none) ∧
    (∃ s : State, linkOn s = true ∧ (atBoundary s 0 = false ∨ mayRun s = false)) ∧
    (∃ s : State, ∃ r : Nat, ∃ x : TxPkt, linkOn s = true ∧ atBoundary s 0 = true ∧ mayRun s = true ∧ winner s.ula.arb
      28 (fun y => (ulaCand s (suspLvl s) y).isSome) (ulaLvl s (suspLvl s)) = some r ∧ ulaCand s (suspLvl s) r = some
      x) ∧
    (∃ s : State, linkOn s = true ∧ winner s.ula.arb 28 (fun y => (ulaCand s (suspLvl s) y).isSome) (ulaLvl s (suspLvl
      s)) = none ∧ s.ports[(0 : PortN)].txCur = none) := by
  refine ⟨?_, ?_, ?_, ?_, ?_, ?_, ?_, ?_, ?_, ?_, ?_, ?_, ?_, ?_, ?_, ?_⟩
  · exact ⟨0x73, stowed, by decide⟩
  · exact ⟨host, by decide⟩
  · exact ⟨.pf, default, host, by decide⟩
  · exact ⟨.pf, host, by decide⟩
  · exact ⟨.pf, host, by decide⟩
  · exact ⟨{ host with que := { host.que with evf := [Vector.replicate 4 0#16] } }, Vector.replicate 4 0#16, [], by
      decide⟩
  · exact ⟨host, by decide⟩
  · exact ⟨{ arb0 with slots := [(0, 0x8003#16)] }, fun _ => true, 3, by decide⟩
  · exact ⟨arb0, 4, fun _ => false, fun _ => 0, default, 4, ⟨(by intro r h; rfl), by decide⟩⟩
  · exact ⟨arb0, 4, fun x => x == 2, fun _ => 0, 2,
      ⟨(by intro r h; rw [show slotOwner (slotAt arb0 arb0.ptr) = none by decide] at h; cases h), by decide⟩⟩
  · exact ⟨holds host 0 (.read 0 .commands), by decide⟩
  · exact ⟨{ running with que := { running.que with watches := [(0, false)] } }, 16, by decide⟩
  · exact ⟨host, by decide⟩
  · exact ⟨host, by decide⟩
  · exact ⟨queued up 1 [perp], 1, perp, by decide⟩
  · exact ⟨host, by decide⟩
theorem witness_DoorbellsAndReads :
    (∃ d : DomN, ∃ s : State, linkOn s = true ∧ watched s d = true ∧ bit s.doms[d].cadence 15 = true ∧ s.tb.prestroke
      ≠ 0 ∧ s.tb.valid = true ∧ s.que.watches.contains (d, true) = false) ∧
    (∃ d : DomN, ∃ s : State, linkOn s = true ∧ watched s d = false) ∧
    (∃ d : DomN, ∃ s : State, linkOn s = true ∧ watched s d = true ∧ s.doms[d].retry = true ∧ s.que.watches.contains
      (d, false) = false) ∧
    (∃ d : DomN, ∃ s : State, linkOn s = true ∧ findRead s d .page = none) ∧
    (∃ d : DomN, ∃ s : State, ∃ x : ReadOut, linkOn s = true ∧ findRead s d .page = some x ∧ x.n ≠ 0 ∧ s.doms[d].st =
      .run) ∧
    (∃ d : DomN, ∃ s : State, ∃ x : ReadOut, linkOn s = true ∧ findRead s d .page = some x ∧ s.doms[d].st = .teardown
      ∧ s.hma.arb.holder = none) ∧
    (∃ d : DomN, ∃ s : State, linkOn s = true ∧ findRead s d .commands = none) ∧
    (∃ d : DomN, ∃ ws : List W8, ∃ s : State, ∃ x : ReadOut, ∃ l : List W8, linkOn s = true ∧ findRead s d .commands =
      some x ∧ x.n ≠ 0 ∧ s.doms[d].st ≠ .teardown ∧ s.doms[d].st ≠ .easy ∧ l = (ws.take x.n)) ∧
    (∃ d : DomN, ∃ s : State, ∃ x : ReadOut, linkOn s = true ∧ findRead s d .commands = some x ∧ x.n ≠ 0 ∧
      s.doms[d].st = .easy ∧ s.hma.arb.holder = none) ∧
    (∃ d : DomN, ∃ k : EpN, ∃ s : State, linkOn s = true ∧ findRead s d (.descriptor k) = none) ∧
    (∃ d : DomN, ∃ k : EpN, ∃ s : State, ∃ x : ReadOut, linkOn s = true ∧ findRead s d (.descriptor k) = some x ∧ x.n
      ≠ 0 ∧ s.doms[d].st ≠ .teardown) ∧
    (∃ d : DomN, ∃ k : EpN, ∃ s : State, linkOn s = true ∧ findRead s d (.sendData k) = none) ∧
    (∃ d : DomN, ∃ k : EpN, ∃ s : State, ∃ x : ReadOut, ∃ y : Desc, ∃ l : List Desc, linkOn s = true ∧ s.pcie.reads =
      [x] ∧ x.dom = d ∧ x.use = .sendData k ∧ x.n ≠ 0 ∧ s.doms[d].st ≠ .teardown ∧ s.ln.eps[k].descs = y :: l ∧
      descLen y ≤ s.ln.eps[k].asked ∧ s.hma.arb.holder = none) ∧
    (∃ d : DomN, ∃ u : ReadUse, ∃ s : State, linkOn s = true ∧ findRead s d u = none) ∧
    (∃ d : DomN, ∃ u : ReadUse, ∃ s : State, ∃ x : ReadOut, linkOn s = true ∧ findRead s d u = some x) ∧
    (∃ d : DomN, ∃ x : ReadOut, ∃ s : State, linkOn s = true ∧ findRead s d .commands = some x ∧ s.doms[d].st ≠
      .teardown) := by
  refine ⟨?_, ?_, ?_, ?_, ?_, ?_, ?_, ?_, ?_, ?_, ?_, ?_, ?_, ?_, ?_, ?_⟩
  · exact ⟨0,
      { (dom 0 fun x => { x with st := .run, cadence := 0x8000#16 }) with tb := { host.tb with prestroke := 1, valid := true } },
      by decide⟩
  · exact ⟨0, host, by decide⟩
  · exact ⟨0, modDom running 0 fun x => { x with retry := true }, by decide⟩
  · exact ⟨0, host, by decide⟩
  · exact ⟨0, reading running .page, rd .page, by decide⟩
  · exact ⟨0, reading (dom 0 fun x => { x with st := .teardown }) .page, rd .page, by decide⟩
  · exact ⟨0, host, by decide⟩
  · exact ⟨0, [], reading running .commands, rd .commands, [], by decide⟩
  · exact ⟨0, reading (dom 0 fun x => { x with st := .easy }) .commands, rd .commands, by decide⟩
  · exact ⟨0, 0, running, by decide⟩
  · exact ⟨0, 0, reading running (.descriptor 0), rd (.descriptor 0), by decide⟩
  · exact ⟨0, 0, running, by decide⟩
  · exact ⟨0, 0, modEp (reading running (.sendData 0)) 0 fun e => { e with descs := [desc 2#16 0#16] }, rd (.sendData
      0), desc 2#16 0#16, [], by decide⟩
  · exact ⟨0, .page, running, by decide⟩
  · exact ⟨0, .page, reading running .page, rd .page, by decide⟩
  · exact ⟨0, rd .commands, reading running .commands, by decide⟩
theorem witness_DoorbellsAndReads_2 :
    (∃ d : DomN, ∃ x : ReadOut, ∃ s : State, linkOn s = true ∧ findRead s d .page = some x ∧ s.doms[d].st = .run ∧
      s.doms[d].retry = false) ∧
    (∃ d : DomN, ∃ x : ReadOut, ∃ s : State, linkOn s = true ∧ findRead s d .page = some x ∧ s.doms[d].st = .run ∧
      s.doms[d].retry = true) ∧
    (∃ d : DomN, ∃ s : State, linkOn s = true ∧ watched s d = true ∧ s.que.watches.contains (d, false) = false) ∧
    (∃ d : DomN, ∃ s : State, linkOn s = true ∧ (watched s d = false ∨ s.que.watches.contains (d, false) = true)) ∧
    (∃ d : DomN, ∃ s : State, ∃ q : EvQ, ∃ rest : List EvQ, ∃ p : Piece, linkOn s = true ∧ pathHeld s (.entry d) =
      true ∧ s.hma.arb.holder = some (8 + d.val) ∧ pickEntry s.doms[d] = some (q, rest) ∧ entryPiece s.doms[d] = some
      p) ∧
    (∃ d : DomN, ∃ s : State, linkOn s = true ∧ pathHeld s (.entry d) = false) := by
  refine ⟨?_, ?_, ?_, ?_, ?_, ?_⟩
  · exact ⟨0, rd .page, reading running .page, by decide⟩
  · exact ⟨0, rd .page, reading (modDom running 0 fun x => { x with retry := true }) .page, by decide⟩
  · exact ⟨0, running, by decide⟩
  · exact ⟨0, host, by decide⟩
  · exact ⟨0, holds (modDom running 0 fun x => { x with evq := [evq 3 0], evtSz := 4#16 }) 8 (.entry 0), evq 3 0, [],
      ((entryPiece (holds (modDom running 0 fun x => { x with evq := [evq 3 0], evtSz := 4#16 }) 8 (.entry 0)).doms[(0
      : DomN)]).getD { addr := 0, bytes := [], last := true }), by and_intros <;> first | rfl | decide⟩
  · exact ⟨0, host, by decide⟩
theorem witness_RingCommands :
    (∃ d : DomN, ∃ c : Cmd, ∃ s : State, cmdFront s d 0x01 c) ∧
    (∃ d : DomN, ∃ c : Cmd, ∃ s : State, cmdFront s d 0x02 c ∧ fld c.w[2] 8 4 ≤ 8 ∧ c.w[4].toNat % 64 = 0 ∧
      s.ln.eps[cmdEp c].owner = d ∧ s.ln.eps[cmdEp c].ring = false) ∧
    (∃ d : DomN, ∃ c : Cmd, ∃ s : State, cmdFront s d 0x02 c ∧ fld c.w[2] 8 4 ≤ 8 ∧ c.w[4].toNat % 64 = 0 ∧
      s.ln.eps[cmdEp c].owner ≠ d) ∧
    (∃ d : DomN, ∃ c : Cmd, ∃ s : State, cmdFront s d 0x02 c ∧ 8 < fld c.w[2] 8 4) ∧
    (∃ d : DomN, ∃ c : Cmd, ∃ s : State, cmdFront s d 0x03 c ∧ s.ln.eps[cmdEp c].owner = d) ∧
    (∃ d : DomN, ∃ c : Cmd, ∃ s : State, cmdFront s d 0x04 c ∧ s.ln.eps[cmdEp c].owner = d ∧ cmdP1 c = 1 ∧ stopOpen s
      (cmdEp c) = false) ∧
    (∃ d : DomN, ∃ c : Cmd, ∃ s : State, cmdFront s d 0x10 c ∧ bit s.doms[d].rights 0 = true ∧ portOk c = true ∧ cmdP1
      c ≤ 1) ∧
    (∃ d : DomN, ∃ c : Cmd, ∃ s : State, cmdFront s d 0x10 c ∧ bit s.doms[d].rights 0 = false) ∧
    (∃ d : DomN, ∃ c : Cmd, ∃ s : State, cmdFront s d 0x11 c ∧ bit s.doms[d].rights 0 = true ∧ granted s.pps +
      reserved s.pps ≤ min (cmdP0 c) 2240) ∧
    (∃ d : DomN, ∃ c : Cmd, ∃ s : State, cmdFront s d 0x12 c ∧ bit s.doms[d].rights 0 = true ∧ portOk c = true ∧ cmdP1
      c ≤ 3) ∧
    (∃ d : DomN, ∃ c : Cmd, ∃ s : State, cmdFront s d 0x12 c ∧ bit s.doms[d].rights 0 = true ∧ portOk c = false) ∧
    (∃ d : DomN, ∃ c : Cmd, ∃ s : State, cmdFront s d 0x20 c ∧ bit s.doms[d].rights 2 = true ∧ s.mtr.copy = none) ∧
    (∃ d : DomN, ∃ c : Cmd, ∃ s : State, cmdFront s d 0x21 c ∧ bit s.doms[d].rights 2 = true ∧ cmdP0 c ≤ 16 ∧ cmdP1 c
      ≤ 1 ∧ addrOk c = true) ∧
    (∃ d : DomN, ∃ c : Cmd, ∃ s : State, cmdFront s d 0x30 c ∧ bit s.doms[d].rights 1 = true ∧ cmdP0 c ≤ 7) ∧
    (∃ d : DomN, ∃ c : Cmd, ∃ s : State, cmdFront s d 0x31 c ∧ bit s.doms[d].rights 1 = true ∧ cmdP0 c ≤ 3) ∧
    (∃ d : DomN, ∃ c : Cmd, ∃ s : State, cmdFront s d 0x40 c ∧ bit s.doms[d].rights 3 = true ∧ cmdP0 c ≤ 255 ∧ 1 ≤
      cmdP1 c ∧ cmdP1 c ≤ 256 ∧ addrOk c = true) := by
  refine ⟨?_, ?_, ?_, ?_, ?_, ?_, ?_, ?_, ?_, ?_, ?_, ?_, ?_, ?_, ?_, ?_⟩
  · exact ⟨0, cm 1#16 0#16 0#16 0#16, front 0#16 (cm 1#16 0#16 0#16 0#16), by decide⟩
  · exact ⟨0, cm 2#16 0x0303#16 0#16 0#16, front 0#16 (cm 2#16 0x0303#16 0#16 0#16), by decide⟩
  · exact ⟨0, cm 2#16 0x0303#16 0#16 0#16, modEp (front 0#16 (cm 2#16 0x0303#16 0#16 0#16)) 3 fun e =>
      { e with owner := 1 }, by decide⟩
  · exact ⟨0, cm 2#16 0x0900#16 0#16 0#16, front 0#16 (cm 2#16 0x0900#16 0#16 0#16), by decide⟩
  · exact ⟨0, cm 3#16 0#16 0#16 0#16, front 0#16 (cm 3#16 0#16 0#16 0#16), by decide⟩
  · exact ⟨0, cm 4#16 0#16 1#16 0#16, front 0#16 (cm 4#16 0#16 1#16 0#16), by decide⟩
  · exact ⟨0, cm 0x10#16 1#16 1#16 0#16, front 1#16 (cm 0x10#16 1#16 1#16 0#16), by decide⟩
  · exact ⟨0, cm 0x10#16 1#16 1#16 0#16, front 0#16 (cm 0x10#16 1#16 1#16 0#16), by decide⟩
  · exact ⟨0, cm 0x11#16 100#16 0#16 0#16, front 1#16 (cm 0x11#16 100#16 0#16 0#16), by decide⟩
  · exact ⟨0, cm 0x12#16 1#16 3#16 0#16, front 1#16 (cm 0x12#16 1#16 3#16 0#16), by decide⟩
  · exact ⟨0, cm 0x12#16 17#16 0#16 0#16, front 1#16 (cm 0x12#16 17#16 0#16 0#16), by decide⟩
  · exact ⟨0, cm 0x20#16 0#16 0#16 0#16, front 4#16 (cm 0x20#16 0#16 0#16 0#16), by decide⟩
  · exact ⟨0, cm 0x21#16 16#16 1#16 0#16, front 4#16 (cm 0x21#16 16#16 1#16 0#16), by decide⟩
  · exact ⟨0, cm 0x30#16 7#16 0#16 0#16, front 2#16 (cm 0x30#16 7#16 0#16 0#16), by decide⟩
  · exact ⟨0, cm 0x31#16 3#16 0#16 0#16, front 2#16 (cm 0x31#16 3#16 0#16 0#16), by decide⟩
  · exact ⟨0, cm 0x40#16 255#16 256#16 0#16, front 8#16 (cm 0x40#16 255#16 256#16 0#16), by decide⟩
theorem witness_RingCommands_2 :
    (∃ d : DomN, ∃ c : Cmd, ∃ s : State, ∃ n : PortN, cmdFront s d 0x50 c ∧ cmdP0 c = n.val ∧ addrOk c = true) ∧
    (∃ d : DomN, ∃ c : Cmd, ∃ s : State, cmdFront s d 0x51 c ∧ addrOk c = true) ∧
    (∃ d : DomN, ∃ c : Cmd, ∃ s : State, cmdFront s d 0x51 c ∧ addrOk c = false) ∧
    (∃ d : DomN, ∃ c : Cmd, ∃ op : Nat, ∃ s : State, cmdFront s d op c ∧ op ≠ 0x01) ∧
    (∃ d : DomN, ∃ s : State, linkOn s = true ∧ s.doms[d].cmdQ = []) ∧
    (∃ d : DomN, ∃ r : CmdRun, ∃ s : State, linkOn s = true ∧ pathHeld s (.data d) = true ∧ s.doms[d].cmdRun = some r
      ∧ s.hma.arb.holder = some 18) ∧
    (∃ d : DomN, ∃ s : State, linkOn s = true ∧ pathHeld s (.data d) = false) := by
  refine ⟨?_, ?_, ?_, ?_, ?_, ?_, ?_⟩
  · exact ⟨0, cm 0x50#16 16#16 0#16 0#16, front 0#16 (cm 0x50#16 16#16 0#16 0#16), 16, by decide⟩
  · exact ⟨0, cm 0x51#16 0#16 0#16 0#16, front 0#16 (cm 0x51#16 0#16 0#16 0#16), by decide⟩
  · exact ⟨0, cm 0x51#16 0#16 0#16 2#16, front 0#16 (cm 0x51#16 0#16 0#16 2#16), by decide⟩
  · exact ⟨0, cm 0x51#16 0#16 0#16 0#16, 0x51, front 0#16 (cm 0x51#16 0#16 0#16 0#16), by decide⟩
  · exact ⟨0, host, by decide⟩
  · exact ⟨0, { cmd := cm 0x51#16 0#16 0#16 0#16, r4 := 0#16, r5 := 0#16, data := some (0, [0]), snap := false },
      holds (modDom running 0 fun x =>
      { x with cmdRun := some { cmd := cm 0x51#16 0#16 0#16 0#16, r4 := 0#16, r5 := 0#16, data := some (0, [0]), snap := false } })
      18 (.data 0), by decide⟩
  · exact ⟨0, host, by decide⟩
theorem witness_LocalAnswers :
    (∃ x : Inbox, ∃ u : State, ∃ s : State, localHas s (fun p => p.hdr.typ = 0#4) 0 x u ∧ x.pkt.payload.length = 4 ∧
      x.pkt.hdr.odd = false ∧ (isNew s.ln.eps[(0 : EpN)] x.pkt.hdr = true ∨ s.ln.eps[(0 : EpN)].ans ≠ .ack)) ∧
    (∃ k : EpN, ∃ x : Inbox, ∃ u : State, ∃ s : State, localHas s (fun p => p.hdr.typ = 0#4) k x u ∧ (k ≠ 0 ∨
      x.pkt.payload.length ≠ 4 ∨ x.pkt.hdr.odd = true) ∧ (s.ln.eps[k].sent = false ∨ isNew s.ln.eps[k] x.pkt.hdr =
      false)) ∧
    (∃ k : EpN, ∃ x : Inbox, ∃ u : State, ∃ s : State, ∃ d : Desc, ∃ l : List Desc, localHas s (fun p => p.hdr.typ =
      0#4) k x u ∧ (k ≠ 0 ∨ x.pkt.payload.length ≠ 4 ∨ x.pkt.hdr.odd = true) ∧ s.ln.eps[k].sent = true ∧ isNew
      s.ln.eps[k] x.pkt.hdr = true ∧ s.ln.eps[k].descs = d :: l) ∧
    (∃ k : EpN, ∃ x : Inbox, ∃ u : State, ∃ s : State, localHas s (fun p => p.hdr.typ = 3#4 || (p.hdr.typ = 1#4 &&
      !p.payload.isEmpty)) k x u ∧ takesOut s.ln.eps[k] x.pkt = true ∧ (payloadBytes x.pkt).length ≤ s.ln.eps[k].size
      ∧ isNew s.ln.eps[k] x.pkt.hdr = true ∧ s.ln.eps[k].full = false) ∧
    (∃ k : EpN, ∃ x : Inbox, ∃ u : State, ∃ s : State, localHas s (fun p => p.hdr.typ = 3#4 || (p.hdr.typ = 1#4 &&
      !p.payload.isEmpty)) k x u ∧ takesOut s.ln.eps[k] x.pkt = true ∧ (payloadBytes x.pkt).length ≤ s.ln.eps[k].size
      ∧ isNew s.ln.eps[k] x.pkt.hdr = true ∧ s.ln.eps[k].full = true ∧ s.ln.eps[k].sent = false) ∧
    (∃ k : EpN, ∃ x : Inbox, ∃ u : State, ∃ s : State, localHas s (fun p => p.hdr.typ = 3#4 || (p.hdr.typ = 1#4 &&
      !p.payload.isEmpty)) k x u ∧ takesOut s.ln.eps[k] x.pkt = true ∧ (payloadBytes x.pkt).length ≤ s.ln.eps[k].size
      ∧ isNew s.ln.eps[k] x.pkt.hdr = false ∧ s.ln.eps[k].ans = .ack) ∧
    (∃ k : EpN, ∃ x : Inbox, ∃ u : State, ∃ s : State, localHas s (fun p => p.hdr.typ = 3#4 || (p.hdr.typ = 1#4 &&
      !p.payload.isEmpty)) k x u ∧ (takesOut s.ln.eps[k] x.pkt = false ∨ s.ln.eps[k].size < (payloadBytes
      x.pkt).length) ∧ (s.ln.eps[k].sent = false ∨ isNew s.ln.eps[k] x.pkt.hdr = false)) ∧
    (∃ k : EpN, ∃ x : Inbox, ∃ u : State, ∃ s : State, ∃ d : Desc, ∃ l : List Desc, localHas s (fun p => p.hdr.typ =
      3#4 || (p.hdr.typ = 1#4 && !p.payload.isEmpty)) k x u ∧ (takesOut s.ln.eps[k] x.pkt = false ∨ s.ln.eps[k].size <
      (payloadBytes x.pkt).length) ∧ s.ln.eps[k].sent = true ∧ isNew s.ln.eps[k] x.pkt.hdr = true ∧ s.ln.eps[k].descs
      = d :: l) ∧
    (∃ k : EpN, ∃ x : Inbox, ∃ u : State, ∃ s : State, localHas s (fun p => p.hdr.typ = 4#4 || (p.hdr.typ = 1#4 &&
      p.payload.isEmpty)) k x u ∧ takesIn s.ln.eps[k] x.pkt = true ∧ isNew s.ln.eps[k] x.pkt.hdr = true ∧
      s.ln.eps[k].full = true ∧ s.ln.eps[k].sent = false ∧ s.ln.eps[k].inData = true) ∧
    (∃ k : EpN, ∃ x : Inbox, ∃ u : State, ∃ s : State, localHas s (fun p => p.hdr.typ = 4#4 || (p.hdr.typ = 1#4 &&
      p.payload.isEmpty)) k x u ∧ takesIn s.ln.eps[k] x.pkt = true ∧ isNew s.ln.eps[k] x.pkt.hdr = true ∧
      s.ln.eps[k].full = false ∧ s.ln.eps[k].sent = false) ∧
    (∃ k : EpN, ∃ x : Inbox, ∃ u : State, ∃ s : State, ∃ d : Desc, ∃ l : List Desc, localHas s (fun p => p.hdr.typ =
      4#4 || (p.hdr.typ = 1#4 && p.payload.isEmpty)) k x u ∧ takesIn s.ln.eps[k] x.pkt = true ∧ isNew s.ln.eps[k]
      x.pkt.hdr = true ∧ s.ln.eps[k].sent = true ∧ s.ln.eps[k].descs = d :: l) ∧
    (∃ k : EpN, ∃ x : Inbox, ∃ u : State, ∃ s : State, localHas s (fun p => p.hdr.typ = 4#4 || (p.hdr.typ = 1#4 &&
      p.payload.isEmpty)) k x u ∧ takesIn s.ln.eps[k] x.pkt = true ∧ isNew s.ln.eps[k] x.pkt.hdr = false ∧
      s.ln.eps[k].ans ≠ .stall ∧ s.ln.eps[k].sent = true) ∧
    (∃ x : Inbox, ∃ u : State, ∃ s : State, ∃ d : Desc, ∃ l : List Desc, localHas s (fun p => p.hdr.typ = 2#4) 0 x u ∧
      x.pkt.payload = [] ∧ isNew s.ln.eps[(0 : EpN)] x.pkt.hdr = true ∧ s.ln.eps[(0 : EpN)].sent = false ∧ epStalled s
      0 = false ∧ s.ln.eps[(0 : EpN)].descs = d :: l ∧ descOp d = 3) ∧
    (∃ x : Inbox, ∃ u : State, ∃ s : State, ∃ d : Desc, ∃ l : List Desc, localHas s (fun p => p.hdr.typ = 2#4) 0 x u ∧
      x.pkt.payload = [] ∧ isNew s.ln.eps[(0 : EpN)] x.pkt.hdr = true ∧ s.ln.eps[(0 : EpN)].sent = false ∧ epStalled s
      0 = false ∧ s.ln.eps[(0 : EpN)].descs = d :: l ∧ descOp d = 4) ∧
    (∃ x : Inbox, ∃ u : State, ∃ s : State, localHas s (fun p => p.hdr.typ = 2#4) 0 x u ∧ x.pkt.payload = [] ∧ isNew
      s.ln.eps[(0 : EpN)] x.pkt.hdr = true ∧ s.ln.eps[(0 : EpN)].sent = false ∧ (s.ln.eps[(0 : EpN)].descs = [] ∨
      epStalled s 0 = true)) ∧
    (∃ k : EpN, ∃ x : Inbox, ∃ u : State, ∃ s : State, ∃ d : Desc, ∃ l : List Desc, localHas s (fun p => p.hdr.typ =
      7#4) k x u ∧ x.pkt.payload = [] ∧ s.ln.eps[k].typ = 2 ∧ s.ln.eps[k].dirIn = true ∧ s.ln.eps[k].full = true ∧
      s.ln.eps[k].descs = d :: l) := by
  refine ⟨?_, ?_, ?_, ?_, ?_, ?_, ?_, ?_, ?_, ?_, ?_, ?_, ?_, ?_, ?_, ?_⟩
  · exact ⟨lp 0#4 0#5 [0x0680#16, 0x0100#16, 0#16, 18#16], drained (has (node 0 id) (lp 0#4 0#5 [0x0680#16, 0x0100#16,
      0#16, 18#16])), has (node 0 id) (lp 0#4 0#5 [0x0680#16, 0x0100#16, 0#16, 18#16]), by and_intros <;>
      first | rfl | decide⟩
  · exact ⟨1, lp 0#4 1#5 [], drained (has (node 1 id) (lp 0#4 1#5 [])), has (node 1 id) (lp 0#4 1#5 []), by and_intros
      <;> first | rfl | decide⟩
  · exact ⟨1, lp 0#4 1#5 [], drained (has (node 1 fun e =>
      { e with sent := true, full := true, descs := [desc 2#16 0#16] }) (lp 0#4 1#5 [])), has (node 1 fun e =>
      { e with sent := true, full := true, descs := [desc 2#16 0#16] }) (lp 0#4 1#5 []), desc 2#16 0#16, [], by
      and_intros <;> first | rfl | decide⟩
  · exact ⟨1, lp 3#4 1#5 [1#16], drained (has (node 1 fun e => { e with typ := 1, dirIn := false }) (lp 3#4 1#5
      [1#16])), has (node 1 fun e => { e with typ := 1, dirIn := false }) (lp 3#4 1#5 [1#16]), by and_intros <;>
      first | rfl | decide⟩
  · exact ⟨1, lp 3#4 1#5 [1#16], drained (has (node 1 fun e => { e with typ := 1, dirIn := false, full := true }) (lp
      3#4 1#5 [1#16])), has (node 1 fun e => { e with typ := 1, dirIn := false, full := true }) (lp 3#4 1#5 [1#16]),
      by and_intros <;> first | rfl | decide⟩
  · exact ⟨1, lp 3#4 1#5 [1#16], drained (has (node 1 fun e =>
      { e with typ := 1, dirIn := false, seqValid := true, seqTag := 1#7, ans := .ack }) (lp 3#4 1#5 [1#16])), has
      (node 1 fun e => { e with typ := 1, dirIn := false, seqValid := true, seqTag := 1#7, ans := .ack }) (lp 3#4 1#5
      [1#16]), by and_intros <;> first | rfl | decide⟩
  · exact ⟨1, lp 3#4 1#5 [1#16], drained (has (node 1 fun e => { e with typ := 1, dirIn := true }) (lp 3#4 1#5
      [1#16])), has (node 1 fun e => { e with typ := 1, dirIn := true }) (lp 3#4 1#5 [1#16]), by and_intros <;>
      first | rfl | decide⟩
  · exact ⟨1, lp 3#4 1#5 [1#16], drained (has (node 1 fun e =>
      { e with typ := 1, dirIn := true, sent := true, full := true, descs := [desc 2#16 0#16] }) (lp 3#4 1#5 [1#16])),
      has (node 1 fun e => { e with typ := 1, dirIn := true, sent := true, full := true, descs := [desc 2#16 0#16] })
      (lp 3#4 1#5 [1#16]), desc 2#16 0#16, [], by and_intros <;> first | rfl | decide⟩
  · exact ⟨1, lp 4#4 1#5 [], drained (has (node 1 fun e =>
      { e with typ := 1, dirIn := true, full := true, inData := true }) (lp 4#4 1#5 [])), has (node 1 fun e =>
      { e with typ := 1, dirIn := true, full := true, inData := true }) (lp 4#4 1#5 []), by and_intros <;>
      first | rfl | decide⟩
  · exact ⟨1, lp 4#4 1#5 [], drained (has (node 1 fun e => { e with typ := 1, dirIn := true }) (lp 4#4 1#5 [])), has
      (node 1 fun e => { e with typ := 1, dirIn := true }) (lp 4#4 1#5 []), by and_intros <;> first | rfl | decide⟩
  · exact ⟨1, lp 4#4 1#5 [], drained (has (node 1 fun e =>
      { e with typ := 1, dirIn := true, sent := true, full := true, descs := [desc 2#16 0#16] }) (lp 4#4 1#5 [])), has
      (node 1 fun e => { e with typ := 1, dirIn := true, sent := true, full := true, descs := [desc 2#16 0#16] }) (lp
      4#4 1#5 []), desc 2#16 0#16, [], by and_intros <;> first | rfl | decide⟩
  · exact ⟨1, lp 4#4 1#5 [], drained (has (node 1 fun e =>
      { e with typ := 1, dirIn := true, sent := true, full := true, seqValid := true, seqTag := 1#7, ans := .data })
      (lp 4#4 1#5 [])), has (node 1 fun e =>
      { e with typ := 1, dirIn := true, sent := true, full := true, seqValid := true, seqTag := 1#7, ans := .data })
      (lp 4#4 1#5 []), by and_intros <;> first | rfl | decide⟩
  · exact ⟨lp 2#4 0#5 [], drained (has (node 0 fun e => { e with descs := [desc 3#16 0#16] }) (lp 2#4 0#5 [])), has
      (node 0 fun e => { e with descs := [desc 3#16 0#16] }) (lp 2#4 0#5 []), desc 3#16 0#16, [], by and_intros <;>
      first | rfl | decide⟩
  · exact ⟨lp 2#4 0#5 [], drained (has (node 0 fun e => { e with descs := [desc 4#16 0#16] }) (lp 2#4 0#5 [])), has
      (node 0 fun e => { e with descs := [desc 4#16 0#16] }) (lp 2#4 0#5 []), desc 4#16 0#16, [], by and_intros <;>
      first | rfl | decide⟩
  · exact ⟨lp 2#4 0#5 [], drained (has (node 0 fun e => { e with descs := [] }) (lp 2#4 0#5 [])), has (node 0 fun e =>
      { e with descs := [] }) (lp 2#4 0#5 []), by and_intros <;> first | rfl | decide⟩
  · exact ⟨3, lp 7#4 3#5 [], drained (has (node 3 fun e =>
      { e with typ := 2, dirIn := true, full := true, descs := [desc 2#16 0#16] }) (lp 7#4 3#5 [])), has (node 3 fun e
      => { e with typ := 2, dirIn := true, full := true, descs := [desc 2#16 0#16] }) (lp 7#4 3#5 []), desc 2#16 0#16,
      [], by and_intros <;> first | rfl | decide⟩
theorem witness_LocalAnswers_2 :
    (∃ k : EpN, ∃ x : Inbox, ∃ u : State, ∃ s : State, localHas s (fun p => p.hdr.typ = 7#4) k x u ∧ x.pkt.payload =
      [] ∧ s.ln.eps[k].typ = 2 ∧ s.ln.eps[k].dirIn = true ∧ s.ln.eps[k].full = false) ∧
    (∃ k : EpN, ∃ x : Inbox, ∃ u : State, ∃ s : State, localHas s (fun p => p.hdr.typ = 6#4) k x u ∧ s.ln.eps[k].typ =
      2 ∧ s.ln.eps[k].dirIn = false ∧ (payloadBytes x.pkt).length ≤ s.ln.eps[k].size ∧ s.ln.eps[k].full = false ∧
      cueBit x.pkt.hdr = false) ∧
    (∃ k : EpN, ∃ x : Inbox, ∃ u : State, ∃ s : State, localHas s (fun p => p.hdr.typ = 6#4) k x u ∧ s.ln.eps[k].typ =
      2 ∧ s.ln.eps[k].dirIn = false ∧ (payloadBytes x.pkt).length ≤ s.ln.eps[k].size ∧ s.ln.eps[k].full = true) ∧
    (∃ x : Inbox, ∃ u : State, ∃ s : State, linkOn s = true ∧ s.ln.en = false ∧ takeInbox s (forLocal fun p =>
      p.hdr.typ = 7#4) = some (x, u)) ∧
    (∃ x : Inbox, ∃ u : State, ∃ s : State, linkOn s = true ∧ s.ln.en = false ∧ takeInbox s (forLocal fun p =>
      p.hdr.typ = 6#4) = some (x, u)) ∧
    (∃ s : State, linkOn s = true ∧ s.bus.inbox = []) ∧
    (∃ x : Inbox, ∃ u : State, ∃ s : State, linkOn s = true ∧ isUp s.ports[(0 : PortN)] = true ∧ s.ln.en = true ∧ x.mc
      = false ∧ answerRoom s (epIdx x.pkt.hdr) = true ∧ isTorn s (epIdx x.pkt.hdr) = true ∧ takeInbox s (fun p =>
      forLocal (fun q => q.hdr.typ = 2#4) p && mayTake s p) = some (x, u)) ∧
    (∃ x : Inbox, ∃ u : State, ∃ s : State, linkOn s = true ∧ isUp s.ports[(0 : PortN)] = true ∧ s.ln.en = true ∧ x.mc
      = false ∧ answerRoom s (epIdx x.pkt.hdr) = true ∧ isTorn s (epIdx x.pkt.hdr) = true ∧ takeInbox s (fun p =>
      forLocal (fun q => q.hdr.typ = 7#4) p && mayTake s p) = some (x, u)) ∧
    (∃ x : Inbox, ∃ u : State, ∃ s : State, linkOn s = true ∧ isUp s.ports[(0 : PortN)] = true ∧ s.ln.en = true ∧ x.mc
      = false ∧ answerRoom s (epIdx x.pkt.hdr) = true ∧ isTorn s (epIdx x.pkt.hdr) = true ∧ takeInbox s (fun p =>
      forLocal (fun q => q.hdr.typ = 6#4) p && mayTake s p) = some (x, u)) ∧
    (∃ x : Inbox, ∃ u : State, ∃ s : State, linkOn s = true ∧ isUp s.ports[(0 : PortN)] = true ∧ s.ln.en = true ∧ x.mc
      = false ∧ answerRoom s (epIdx x.pkt.hdr) = true ∧ isTorn s (epIdx x.pkt.hdr) = true ∧ takeInbox s (fun p =>
      forLocal (fun q => q.hdr.typ = 0#4) p && mayTake s p) = some (x, u)) ∧
    (∃ x : Inbox, ∃ s : State, linkOn s = true ∧ s.ln.en = true ∧ s.bus.inbox = [x] ∧ x.mc = false ∧ x.pkt.hdr.typ ≠
      6#4 ∧ answerRoom s (epIdx x.pkt.hdr) = false) := by
  refine ⟨?_, ?_, ?_, ?_, ?_, ?_, ?_, ?_, ?_, ?_, ?_⟩
  · exact ⟨3, lp 7#4 3#5 [], drained (has (node 3 fun e => { e with typ := 2, dirIn := true }) (lp 7#4 3#5 [])), has
      (node 3 fun e => { e with typ := 2, dirIn := true }) (lp 7#4 3#5 []), by and_intros <;> first | rfl | decide⟩
  · exact ⟨3, lp 6#4 3#5 [1#16], drained (has (node 3 fun e => { e with typ := 2, dirIn := false }) (lp 6#4 3#5
      [1#16])), has (node 3 fun e => { e with typ := 2, dirIn := false }) (lp 6#4 3#5 [1#16]), by and_intros <;>
      first | rfl | decide⟩
  · exact ⟨3, lp 6#4 3#5 [1#16], drained (has (node 3 fun e => { e with typ := 2, dirIn := false, full := true }) (lp
      6#4 3#5 [1#16])), has (node 3 fun e => { e with typ := 2, dirIn := false, full := true }) (lp 6#4 3#5 [1#16]),
      by and_intros <;> first | rfl | decide⟩
  · exact ⟨lp 7#4 3#5 [], drained (has ({ up with ln := { up.ln with en := false } }) (lp 7#4 3#5 [])), has
      ({ up with ln := { up.ln with en := false } }) (lp 7#4 3#5 []), by and_intros <;> first | rfl | decide⟩
  · exact ⟨lp 6#4 3#5 [1#16], drained (has ({ up with ln := { up.ln with en := false } }) (lp 6#4 3#5 [1#16])), has
      ({ up with ln := { up.ln with en := false } }) (lp 6#4 3#5 [1#16]), by and_intros <;> first | rfl | decide⟩
  · exact ⟨host, by decide⟩
  · exact ⟨lp 2#4 3#5 [], drained (has (modDom (node 3 id) 0 fun x => { x with st := .teardown }) (lp 2#4 3#5 [])),
      has (modDom (node 3 id) 0 fun x => { x with st := .teardown }) (lp 2#4 3#5 []), by and_intros <;>
      first | rfl | decide⟩
  · exact ⟨lp 7#4 3#5 [], drained (has (modDom (node 3 id) 0 fun x => { x with st := .teardown }) (lp 7#4 3#5 [])),
      has (modDom (node 3 id) 0 fun x => { x with st := .teardown }) (lp 7#4 3#5 []), by and_intros <;>
      first | rfl | decide⟩
  · exact ⟨lp 6#4 3#5 [1#16], drained (has (modDom (node 3 id) 0 fun x => { x with st := .teardown }) (lp 6#4 3#5
      [1#16])), has (modDom (node 3 id) 0 fun x => { x with st := .teardown }) (lp 6#4 3#5 [1#16]), by and_intros <;>
      first | rfl | decide⟩
  · exact ⟨lp 0#4 3#5 [], drained (has (modDom (node 3 id) 0 fun x => { x with st := .teardown }) (lp 0#4 3#5 [])),
      has (modDom (node 3 id) 0 fun x => { x with st := .teardown }) (lp 0#4 3#5 []), by and_intros <;>
      first | rfl | decide⟩
  · exact ⟨lp 7#4 3#5 [], has (queued (node 3 id) 20 (List.replicate 8 perp)) (lp 7#4 3#5 []), by and_intros <;>
      first | rfl | decide⟩
theorem witness_LocalNodeAndEndpoints :
    (∃ k : EpN, ∃ d : Desc, ∃ l : List Desc, ∃ s : State, ∃ p : Piece, linkOn s = true ∧ s.ln.eps[k].descs = d :: l ∧
      pathHeld s (.drain s.ln.eps[k].owner k) = true ∧ s.hma.arb.holder = some (8 + s.ln.eps[k].owner.val) ∧ nextWrite
      s (.drain s.ln.eps[k].owner k) = some p ∧ s.ln.eps[k].full = true ∧ s.ln.eps[k].cueHeld = false) ∧
    (∃ k : EpN, ∃ d : Desc, ∃ l : List Desc, ∃ s : State, ∃ p : Piece, linkOn s = true ∧ s.ln.eps[k].descs = d :: l ∧
      pathHeld s (.drain s.ln.eps[k].owner k) = true ∧ s.hma.arb.holder = some (8 + s.ln.eps[k].owner.val) ∧ nextWrite
      s (.drain s.ln.eps[k].owner k) = some p ∧ s.ln.eps[k].full = true ∧ s.ln.eps[k].cueHeld = true) ∧
    (∃ k : EpN, ∃ d : Desc, ∃ l : List Desc, ∃ s : State, linkOn s = true ∧ s.ln.eps[k].descs = d :: l ∧ pathHeld s
      (.drain s.ln.eps[k].owner k) = false ∧ drainWanted s k = true ∧ drainLen s.ln.eps[k] = 0 ∧ epStalled s k = false
      ∧ s.ln.eps[k].cueHeld = false) ∧
    (∃ k : EpN, ∃ d : Desc, ∃ l : List Desc, ∃ s : State, linkOn s = true ∧ s.ln.eps[k].descs = d :: l ∧ (pathHeld s
      (.drain s.ln.eps[k].owner k) = false ∨ s.ln.eps[k].full = false) ∧ drainWanted s k = false) ∧
    (∃ k : EpN, ∃ d : Desc, ∃ l : List Desc, ∃ s : State, linkOn s = true ∧ s.ln.eps[k].descs = d :: l ∧
      s.ln.eps[k].sent = true) ∧
    (∃ k : EpN, ∃ s : State, linkOn s = true ∧ s.ln.eps[k].sent = false) ∧
    (∃ k : EpN, ∃ s : State, linkOn s = true ∧ s.ln.eps[k].typ = 2 ∧ s.ln.eps[k].period ≠ 0 ∧ s.ln.eps[k].full = true) ∧
    (∃ k : EpN, ∃ s : State, linkOn s = true ∧ (s.ln.eps[k].typ ≠ 2 ∨ s.ln.eps[k].period = 0 ∨ s.ln.eps[k].full =
      false)) ∧
    (∃ p : Path, ∃ s : State, reaches s p = true ∧ headless s = true) ∧
    (∃ p : Path, ∃ s : State, reaches s p = true ∧ s.ln.en = true) ∧
    (∃ p : Path, ∃ s : State, reaches s p = true ∧ headless s = false ∧ s.ln.en = false) ∧
    (∃ p : Path, ∃ s : State, reaches s p = true ∧ s.ln.en = false) ∧
    (∃ p : Path, ∃ k : EpN, ∃ s : State, reaches s p = true ∧ epTypeVal k s.ln.eps[k].typ = s.ln.eps[k].typ ∧
      s.ln.eps[k].en = false ∧ bufOk s k = true) ∧
    (∃ p : Path, ∃ k : EpN, ∃ s : State, reaches s p = true ∧ epTypeVal k s.ln.eps[k].typ = s.ln.eps[k].typ ∧
      s.ln.eps[k].en = false ∧ bufOk s k = false) ∧
    (∃ p : Path, ∃ k : EpN, ∃ s : State, reaches s p = true ∧ epTypeVal k s.ln.eps[k].typ = s.ln.eps[k].typ ∧
      s.ln.eps[k].en = true) ∧
    (∃ p : Path, ∃ k : EpN, ∃ s : State, reaches s p = true ∧ epTypeVal k s.ln.eps[k].typ = s.ln.eps[k].typ) := by
  refine ⟨?_, ?_, ?_, ?_, ?_, ?_, ?_, ?_, ?_, ?_, ?_, ?_, ?_, ?_, ?_, ?_⟩
  · exact ⟨1, desc 1#16 8#16, [], holds (modEp running 1 fun e =>
      { e with en := true, ring := true, full := true, len := 4, descs := [desc 1#16 8#16] }) 8 (.drain 0 1),
      ((drainPiece (holds (modEp running 1 fun e =>
      { e with en := true, ring := true, full := true, len := 4, descs := [desc 1#16 8#16] }) 8 (.drain 0 1)) 1).getD
      { addr := 0, bytes := [], last := true }), by and_intros <;> first | rfl | decide⟩
  · exact ⟨1, desc 1#16 8#16, [], holds (modEp running 1 fun e =>
      { e with en := true, ring := true, full := true, len := 4, descs := [desc 1#16 8#16], cueHeld := true }) 8
      (.drain 0 1), ((drainPiece (holds (modEp running 1 fun e =>
      { e with en := true, ring := true, full := true, len := 4, descs := [desc 1#16 8#16], cueHeld := true }) 8
      (.drain 0 1)) 1).getD { addr := 0, bytes := [], last := true }), by and_intros <;> first | rfl | decide⟩
  · exact ⟨1, desc 1#16 8#16, [], modEp running 1 fun e =>
      { e with en := true, ring := true, full := true, descs := [desc 1#16 8#16] }, by decide⟩
  · exact ⟨1, desc 1#16 8#16, [], modEp running 1 fun e => { e with descs := [desc 1#16 8#16] }, by decide⟩
  · exact ⟨1, desc 2#16 0#16, [], modEp running 1 fun e => { e with sent := true, descs := [desc 2#16 0#16] }, by
      decide⟩
  · exact ⟨1, host, by decide⟩
  · exact ⟨1, modEp host 1 fun e => { e with typ := 2, period := 1, full := true }, by decide⟩
  · exact ⟨1, host, by decide⟩
  · exact ⟨.pf, { host with rst := { host.rst with straps := host.rst.straps ||| 1#16 } }, by decide⟩
  · exact ⟨.pf, host, by decide⟩
  · exact ⟨.pf, { host with ln := { host.ln with en := false } }, by decide⟩
  · exact ⟨.pf, { host with ln := { host.ln with en := false } }, by decide⟩
  · exact ⟨.pf, 1, modEp host 1 fun e => { e with typ := 1, size := 64 }, by decide⟩
  · exact ⟨.pf, 1, modEp host 1 fun e => { e with typ := 1, size := 64, buf := 1023 }, by decide⟩
  · exact ⟨.pf, 1, node 1 fun e => { e with typ := 1 }, by decide⟩
  · exact ⟨.pf, 1, modEp host 1 fun e => { e with typ := 1 }, by decide⟩
theorem witness_DomainLife :
    (∃ d : DomN, ∃ v : Word, ∃ s : State, reaches s .pf = true ∧ domExists s d = true ∧ (bit v 4 = false ∨ holdsWdt s
      d = true)) ∧
    (∃ d : DomN, ∃ v : Word, ∃ s : State, reaches s .pf = true ∧ domExists s d = true ∧ bit v 4 = true ∧ holdsWdt s d
      = false ∧ s.doms[d].st ≠ .teardown) ∧
    (∃ d : DomN, ∃ v : Word, ∃ s : State, reaches s .pf = true ∧ domExists s d = true ∧ bit v 4 = true ∧ holdsWdt s d
      = false ∧ s.doms[d].st = .teardown) ∧
    (∃ d : DomN, ∃ s : State, reaches s .pf = true ∧ domExists s d = true) ∧
    (∃ d : DomN, ∃ s : State, reaches s .pf = true ∧ domExists s d = false) ∧
    (∃ d : DomN, ∃ s : State, linkOn s = true ∧ winOpen s d = true ∧ s.doms[d].st = .off) ∧
    (∃ d : DomN, ∃ s : State, linkOn s = true ∧ winOpen s d = true ∧ s.doms[d].st = .teardown) ∧
    (∃ d : DomN, ∃ s : State, linkOn s = true ∧ winOpen s d = true ∧ s.doms[d].st ≠ .off ∧ s.doms[d].st ≠ .teardown) ∧
    (∃ d : DomN, ∃ s : State, linkOn s = true ∧ winOpen s d = true ∧ (s.doms[d].st = .run ∨ s.doms[d].st = .fault)) ∧
    (∃ d : DomN, ∃ s : State, linkOn s = true ∧ winOpen s d = true ∧ s.doms[d].st ≠ .run ∧ s.doms[d].st ≠ .fault) ∧
    (∃ d : DomN, ∃ s : State, linkOn s = true ∧ (s.doms[d].st ≠ .teardown ∨ quiesced s d = false)) ∧
    (∃ d : DomN, ∃ s : State, linkOn s = true ∧ s.doms[d].st = .teardown ∧ quiesced s d = true) ∧
    (∃ d : DomN, ∃ s : State, linkOn s = true ∧ easyReached s d = true) ∧
    (∃ d : DomN, ∃ s : State, linkOn s = true ∧ easyReached s d = false) ∧
    (∃ d : DomN, ∃ s : State, linkOn s = true ∧ pathHeld s (.block d) = true ∧ s.hma.arb.holder = some 17) ∧
    (∃ d : DomN, ∃ s : State, linkOn s = true ∧ pathHeld s (.block d) = false) := by
  refine ⟨?_, ?_, ?_, ?_, ?_, ?_, ?_, ?_, ?_, ?_, ?_, ?_, ?_, ?_, ?_, ?_⟩
  · exact ⟨0, default, host, by decide⟩
  · exact ⟨0, 16#16, dom 0 fun x => { x with rights := 0#16 }, by decide⟩
  · exact ⟨0, 16#16, dom 0 fun x => { x with rights := 0#16, st := .teardown }, by decide⟩
  · exact ⟨0, host, by decide⟩
  · exact ⟨1, host, by decide⟩
  · exact ⟨0, host, by decide⟩
  · exact ⟨0, dom 0 fun x => { x with st := .teardown }, by decide⟩
  · exact ⟨0, running, by decide⟩
  · exact ⟨0, running, by decide⟩
  · exact ⟨0, host, by decide⟩
  · exact ⟨0, host, by decide⟩
  · exact ⟨0, dom 0 fun x => { x with st := .teardown }, by decide⟩
  · exact ⟨0, dom 0 fun x => { x with st := .easy }, by decide⟩
  · exact ⟨0, host, by decide⟩
  · exact ⟨0, holds (dom 0 fun x => { x with st := .summary }) 17 (.block 0), by decide⟩
  · exact ⟨0, host, by decide⟩

end Sys2Proof.Tests
end

section
/-! SUPPORT. The parts of the state that no link touches, and the operations on the links that leave them alone. -/

namespace Sys2Proof.Machine

open Sys2Proof Sys2Proof.Safety

/-- What the clock plan's laws speak of: where the Link die stands, the lock of the PLL, what CORE runs on, and
CLK_PLAN. -/
structure Clocks where
  st : PmSt
  por : Bool
  pin : Bool
  lock : Bool
  core : Bool
  plan : Word

/-- The clocks of a state. -/
def clocks (s : State) : Clocks := ⟨s.pm.st, s.rst.por, s.rst.pin, s.clk.pllLock, s.clk.corePll, s.clk.plan⟩

/-- The parts of the state that no link's retraining touches. -/
structure OffLinks where
  rst : Rst
  pm : Pm
  wdt : Wdt
  ppsg : PpsG
  mtr : Mtr
  mg : Mg
  glob : Glob
  clk : Clk
  pcie : Pcie
  ln : Ln
  hma : Hma
  fl : Fl
  bus : Bus
  cen : Cen

/-- Those parts of a state. -/
def offLinks (s : State) : OffLinks :=
  ⟨s.rst, s.pm, s.wdt, s.ppsg, s.mtr, s.mg, s.glob, s.clk, s.pcie, s.ln, s.hma, s.fl, s.bus, s.cen⟩

/-- The clocks as those parts show them. -/
def OffLinks.clocks (o : OffLinks) : Clocks := ⟨o.pm.st, o.rst.por, o.rst.pin, o.clk.pllLock, o.clk.corePll, o.clk.plan⟩

theorem clocks_of_offLinks (s : State) : clocks s = (offLinks s).clocks := rfl

@[simp] theorem offLinks_mk (pending fresh out rst pm wdt bb pps ppsg mtr aon mg glob clk pcie doms ln hma ula que fl
    ports bus tt tb cen sur) :
    offLinks (State.mk pending fresh out rst pm wdt bb pps ppsg mtr aon mg glob clk pcie doms ln hma ula que fl ports
      bus tt tb cen sur) = ⟨rst, pm, wdt, ppsg, mtr, mg, glob, clk, pcie, ln, hma, fl, bus, cen⟩ := rfl

@[simp] theorem offLinks_eta (s : State) :
    OffLinks.mk s.rst s.pm s.wdt s.ppsg s.mtr s.mg s.glob s.clk s.pcie s.ln s.hma s.fl s.bus s.cen = offLinks s := rfl

@[simp] theorem offLinks_ite (c : Prop) [Decidable c] (a b : State) :
    offLinks (if c then a else b) = if c then offLinks a else offLinks b := apply_ite offLinks c a b

/-! ### Machine/Ops -/

@[simp] theorem emit_offLinks (s : State) (o : Out) : offLinks (emit s o) = offLinks s := by simp [emit]

@[simp] theorem emits_offLinks (s : State) (os : List Out) : offLinks (emits s os) = offLinks s := by simp [emits]

@[simp] theorem bump_offLinks (s : State) : offLinks (bump s) = offLinks s := by simp [bump]

@[simp] theorem modPort_offLinks (s : State) (n : PortN) (f : Port → Port) :
    offLinks (modPort s n f) = offLinks s := by
  simp [modPort]

@[simp] theorem modAon_offLinks (s : State) (n : PortN) (f : AonPort → AonPort) :
    offLinks (modAon s n f) = offLinks s := by
  simp [modAon]

@[simp] theorem modPps_offLinks (s : State) (m : DnN) (f : Pps → Pps) : offLinks (modPps s m f) = offLinks s := by
  simp [modPps]

@[simp] theorem modSlot_offLinks (s : State) (j : Fin 48) (f : Option Slot → Option Slot) :
    offLinks (modSlot s j f) = offLinks s := by
  simp [modSlot]

@[simp] theorem bbLink_offLinks (s : State) (code : Nat) (src : Nat) (w2 : Word) (w3 : Word) :
    offLinks (bbLink s code src w2 w3) = offLinks s := by
  simp [bbLink]

@[simp] theorem raiseTo_offLinks (s : State) (hit : DomN → Bool) (force : Bool) (ticks : Nat) (e : Ev) :
    offLinks (raiseTo s hit force ticks e) = offLinks s := by
  simp [raiseTo]

@[simp] theorem raise_offLinks (s : State) (e : Ev) : offLinks (raise s e) = offLinks s := by simp [raise]

@[simp] theorem portEvt_offLinks (s : State) (n : PortN) (bits : Word) :
    offLinks (portEvt s n bits) = offLinks s := by
  simp [portEvt]

@[simp] theorem forEach_offLinks {α : Type} (l : List α) (f : State → α → State) (s : State)
    (h : ∀ a x, offLinks (f a x) = offLinks a) :
    offLinks (forEach l f s) = offLinks s := by
  induction l generalizing s with
  | nil => rfl
  | cons a l ih => exact (ih (f s a)).trans (h s a)

/-! ### Machine/Packet -/

@[simp] theorem sendCrd_offLinks (s : State) (n : PortN) : offLinks (sendCrd s n) = offLinks s := by simp [sendCrd]

@[simp] theorem wakeTx_offLinks (s : State) (n : PortN) : offLinks (wakeTx s n) = offLinks s := by simp [wakeTx]

@[simp] theorem returnCredits_offLinks (s : State) (n : PortN) (nonPer : Bool) (k : Nat) :
    offLinks (returnCredits s n nonPer k) = offLinks s := by
  simp [returnCredits]

@[simp] theorem putTsAt_offLinks (s : State) (n : PortN) (r : Nat) (k : TsKind) (a0 a1 : Word) :
    offLinks (putTsAt s n r k a0 a1) = offLinks s := by
  simp [putTsAt]

@[simp] theorem putTs_offLinks (s : State) (n : PortN) (k : TsKind) (a0 : Word) (a1 : Word) :
    offLinks (putTs s n k a0 a1) = offLinks s := by
  simp [putTs]

@[simp] theorem sendTs_offLinks (s : State) (n : PortN) (k : TsKind) (a0 : Word) (a1 : Word) :
    offLinks (sendTs s n k a0 a1) = offLinks s := by
  simp [sendTs]

@[simp] theorem sendTs2_offLinks (s : State) (n : PortN) (k : TsKind) (a0 : Word) (a1 : Word) :
    offLinks (sendTs2 s n k a0 a1) = offLinks s := by
  simp [sendTs2]

@[simp] theorem flushTs_offLinks (s : State) (n : PortN) : offLinks (flushTs s n) = offLinks s := by simp [flushTs]

@[simp] theorem tallyTry_offLinks (s : State) (n : PortN) : offLinks (tallyTry s n) = offLinks s := by simp [tallyTry]

@[simp] theorem boundary_offLinks (s : State) (n : PortN) : offLinks (boundary s n) = offLinks s := by simp [boundary]

@[simp] theorem sweepRx_offLinks (s : State) : offLinks (sweepRx s) = offLinks s := by simp [sweepRx]

@[simp] theorem closeEab_offLinks (s : State) (n : PortN) (reason : Nat) (whole : Bool) :
    offLinks (closeEab s n reason whole) = offLinks s := by
  unfold closeEab; split <;> simp

@[simp] theorem closeSusp_offLinks (s : State) (reason : Nat) (whole : Bool) :
    offLinks (closeSusp s reason whole) = offLinks s := by
  unfold closeSusp; split <;> simp

@[simp] theorem endTx_offLinks (s : State) (n : PortN) (reason : Nat) : offLinks (endTx s n reason) = offLinks s := by
  simp [endTx]

@[simp] theorem stompCopies_offLinks (s : State) (pid : Nat) (reason : Nat) (whole : Bool) :
    offLinks (stompCopies s pid reason whole) = offLinks s := by
  simp [stompCopies]

@[simp] theorem dropRx_offLinks (s : State) (n : PortN) (pid : Nat) (reason : Nat) (whole : Bool) :
    offLinks (dropRx s n pid reason whole) = offLinks s := by
  simp [dropRx]

@[simp] theorem dropAnswer_offLinks (s : State) (j : Fin 48) : offLinks (dropAnswer s j) = offLinks s := by
  simp [dropAnswer]

@[simp] theorem forgetSlot_offLinks (s : State) (j : Fin 48) (c : Nat) :
    offLinks (forgetSlot s j c) = offLinks s := by
  simp [forgetSlot]

@[simp] theorem ulaPush_offLinks (s : State) (r : Nat) (t : TxPkt) : offLinks (ulaPush s r t) = offLinks s := by
  simp [ulaPush]

/-! ### Machine/Walk -/

@[simp] theorem engineUp_offLinks (s : State) (p : Pkt) (act : OnEop) : offLinks (engineUp s p act) = offLinks s := by
  simp [engineUp]

@[simp] theorem sendAt_offLinks (s : State) (m : DnN) (ord : Nat) (p : Pkt) (act : OnEop) :
    offLinks (sendAt s m ord p act) = offLinks s := by
  simp [sendAt]

@[simp] theorem sendDown_offLinks (s : State) (m : DnN) (p : Pkt) (act : OnEop) :
    offLinks (sendDown s m p act) = offLinks s := by
  simp [sendDown]

@[simp] theorem setWalk_offLinks (s : State) (w : Walk) : offLinks (setWalk s w) = offLinks s := by simp [setWalk]

@[simp] theorem sendBreak_offLinks (s : State) (m : DnN) (cause : Nat) :
    offLinks (sendBreak s m cause) = offLinks s := by
  simp [sendBreak]

@[simp] theorem walkFrom_offLinks (s : State) (l : List DnN) : offLinks (walkFrom s l) = offLinks s := by
  induction l generalizing s with
  | nil => simp [walkFrom]
  | cons m l ih => unfold walkFrom; (repeat' split) <;> simp [ih]

@[simp] theorem walkNext_offLinks (s : State) (m : DnN) : offLinks (walkNext s m) = offLinks s := by simp [walkNext]

@[simp] theorem surveyDetach_offLinks (s : State) (m : DnN) : offLinks (surveyDetach s m) = offLinks s := by
  simp [surveyDetach]

/-! ### Machine/Link -/

@[simp] theorem loseLock_offLinks (s : State) : offLinks (loseLock s) = offLinks s := by simp [loseLock]

@[simp] theorem lockKeep_offLinks (s : State) : offLinks (lockKeep s) = offLinks s := by simp [lockKeep]

@[simp] theorem gainLock_offLinks (s : State) : offLinks (gainLock s) = offLinks s := by simp [gainLock]

@[simp] theorem lockCheck_offLinks (s : State) : offLinks (lockCheck s) = offLinks s := by simp [lockCheck]

@[simp] theorem dropOpen_offLinks (s : State) (n : PortN) (reason : Nat) :
    offLinks (dropOpen s n reason) = offLinks s := by
  unfold dropOpen; split <;> simp

@[simp] theorem settleDown_offLinks (s : State) (m : DnN) : offLinks (settleDown s m) = offLinks s := by
  simp [settleDown]

@[simp] theorem freeSlots_offLinks (s : State) : offLinks (freeSlots s) = offLinks s := by simp [freeSlots]

@[simp] theorem settleUp_offLinks (s : State) : offLinks (settleUp s) = offLinks s := by
  unfold settleUp
  dsimp only
  rw [dropOpen_offLinks, modPort_offLinks, offLinks_mk, offLinks_eta, freeSlots_offLinks]

@[simp] theorem linkDown_offLinks (s : State) (n : PortN) (reason : Nat) :
    offLinks (linkDown s n reason) = offLinks s := by
  simp [linkDown]

@[simp] theorem detectNow_offLinks (s : State) (n : PortN) (wait : Bool) :
    offLinks (detectNow s n wait) = offLinks s := by
  simp [detectNow]

@[simp] theorem holdNow_offLinks (s : State) (n : PortN) : offLinks (holdNow s n) = offLinks s := by simp [holdNow]

@[simp] theorem suspHold_offLinks (s : State) (n : PortN) : offLinks (suspHold s n) = offLinks s := by simp [suspHold]

@[simp] theorem retrain_offLinks (s : State) (n : PortN) (reason : Nat) :
    offLinks (retrain s n reason) = offLinks s := by
  simp [retrain]

@[simp] theorem failRate_offLinks (s : State) (n : PortN) : offLinks (failRate s n) = offLinks s := by simp [failRate]

/-! ### Machine/Clock -/

@[simp] theorem fircPort_offLinks (s : State) (n : PortN) : offLinks (fircPort s n) = offLinks s := by
  unfold fircPort; split <;> simp

end Sys2Proof.Machine
end

section
/-! SUPPORT. The clocks, and the operations that leave them alone. -/

namespace Sys2Proof.Machine

open Sys2Proof Sys2Proof.Safety

@[simp] theorem clocks_mk (pending fresh out rst pm wdt bb pps ppsg mtr aon mg glob clk pcie doms ln hma ula que fl
    ports bus tt tb cen sur) :
    clocks (State.mk pending fresh out rst pm wdt bb pps ppsg mtr aon mg glob clk pcie doms ln hma ula que fl ports bus
      tt tb cen sur) = ⟨pm.st, rst.por, rst.pin, clk.pllLock, clk.corePll, clk.plan⟩ := rfl

@[simp] theorem clocks_eta (s : State) :
    Clocks.mk s.pm.st s.rst.por s.rst.pin s.clk.pllLock s.clk.corePll s.clk.plan = clocks s := rfl

@[simp] theorem clocks_ite (c : Prop) [Decidable c] (a b : State) :
    clocks (if c then a else b) = if c then clocks a else clocks b := apply_ite clocks c a b

/-! ### Machine/Flags -/

@[simp] theorem noteHwm_clocks (s : State) : clocks (noteHwm s) = clocks s := by simp [noteHwm]

/-! ### Machine/Ops -/

@[simp] theorem whenDo_clocks (g : Bool) (f : State → State) (s : State) (h : ∀ a, clocks (f a) = clocks a) :
    clocks (whenDo g f s) = clocks s := by
  unfold whenDo; (repeat' split) <;> simp [*]

@[simp] theorem emit_clocks (s : State) (o : Out) : clocks (emit s o) = clocks s :=
  congrArg OffLinks.clocks (emit_offLinks s o)

@[simp] theorem emits_clocks (s : State) (os : List Out) : clocks (emits s os) = clocks s :=
  congrArg OffLinks.clocks (emits_offLinks s os)

@[simp] theorem bump_clocks (s : State) : clocks (bump s) = clocks s :=
  congrArg OffLinks.clocks (bump_offLinks s)

@[simp] theorem modPort_clocks (s : State) (n : PortN) (f : Port → Port) : clocks (modPort s n f) = clocks s :=
  congrArg OffLinks.clocks (modPort_offLinks s n f)

@[simp] theorem modAon_clocks (s : State) (n : PortN) (f : AonPort → AonPort) : clocks (modAon s n f) = clocks s :=
  congrArg OffLinks.clocks (modAon_offLinks s n f)

@[simp] theorem modPps_clocks (s : State) (m : DnN) (f : Pps → Pps) : clocks (modPps s m f) = clocks s :=
  congrArg OffLinks.clocks (modPps_offLinks s m f)

@[simp] theorem modDom_clocks (s : State) (d : DomN) (f : Dom → Dom) : clocks (modDom s d f) = clocks s := by
  simp [modDom]

@[simp] theorem modEp_clocks (s : State) (k : EpN) (f : Ep → Ep) : clocks (modEp s k f) = clocks s := by simp [modEp]

@[simp] theorem modFn_clocks (s : State) (d : DomN) (f : Fn → Fn) : clocks (modFn s d f) = clocks s := by simp [modFn]

@[simp] theorem modCrew_clocks (s : State) (k : CrewN) (f : Crew → Crew) : clocks (modCrew s k f) = clocks s := by
  simp [modCrew]

@[simp] theorem modSlot_clocks (s : State) (j : Fin 48) (f : Option Slot → Option Slot) :
    clocks (modSlot s j f) = clocks s :=
  congrArg OffLinks.clocks (modSlot_offLinks s j f)

@[simp] theorem bbPow_clocks (s : State) (code : Nat) (src : Nat) (w2 : Word) (w3 : Word) :
    clocks (bbPow s code src w2 w3) = clocks s := by
  simp [bbPow]

@[simp] theorem bbLink_clocks (s : State) (code : Nat) (src : Nat) (w2 : Word) (w3 : Word) :
    clocks (bbLink s code src w2 w3) = clocks s :=
  congrArg OffLinks.clocks (bbLink_offLinks s code src w2 w3)

@[simp] theorem bbReport_clocks (s : State) : clocks (bbReport s) = clocks s := by simp [bbReport]

@[simp] theorem drivePeWake_clocks (s : State) : clocks (drivePeWake s) = clocks s := by simp [drivePeWake]

@[simp] theorem raiseTo_clocks (s : State) (hit : DomN → Bool) (force : Bool) (ticks : Nat) (e : Ev) :
    clocks (raiseTo s hit force ticks e) = clocks s :=
  congrArg OffLinks.clocks (raiseTo_offLinks s hit force ticks e)

@[simp] theorem raise_clocks (s : State) (e : Ev) : clocks (raise s e) = clocks s :=
  congrArg OffLinks.clocks (raise_offLinks s e)

@[simp] theorem raiseDom_clocks (s : State) (d : DomN) (force : Bool) (e : Ev) :
    clocks (raiseDom s d force e) = clocks s := by
  simp [raiseDom]

@[simp] theorem portEvt_clocks (s : State) (n : PortN) (bits : Word) : clocks (portEvt s n bits) = clocks s :=
  congrArg OffLinks.clocks (portEvt_offLinks s n bits)

@[simp] theorem newFrame_clocks (s : State) : clocks (newFrame s) = clocks s := by simp [newFrame]

@[simp] theorem meterStop_clocks (s : State) : clocks (meterStop s) = clocks s := by simp [meterStop]

@[simp] theorem forEach_clocks {α : Type} (l : List α) (f : State → α → State) (s : State)
    (h : ∀ a x, clocks (f a x) = clocks a) :
    clocks (forEach l f s) = clocks s := by
  induction l generalizing s with
  | nil => rfl
  | cons a l ih => exact (ih (f s a)).trans (h s a)

@[simp] theorem foldl_clocks {α : Type} (l : List α) (f : State → α → State) (s : State)
    (h : ∀ a x, clocks (f a x) = clocks a) :
    clocks (l.foldl f s) = clocks s :=
  forEach_clocks l f s h

/-! ### Machine/HostQueue -/

@[simp] theorem sendPmes_clocks (s : State) : clocks (sendPmes s) = clocks s := by simp [sendPmes]

@[simp] theorem leaveL1_clocks (s : State) : clocks (leaveL1 s) = clocks s := by simp [leaveL1]

@[simp] theorem toHost_clocks (s : State) (o : Out) : clocks (toHost s o) = clocks s := by simp [toHost]

@[simp] theorem advance_clocks (s : State) (p : Piece) (x0 : HReq) : clocks (advance s p x0) = clocks s := by
  unfold advance; split <;> simp

@[simp] theorem putWrite_clocks (s : State) (q : HReq) (p : Piece) : clocks (putWrite s q p) = clocks s := by
  simp [putWrite]

@[simp] theorem setQueue_clocks (s : State) (r : Nat) (l : List HReq) : clocks (setQueue s r l) = clocks s := by
  simp [setQueue]

@[simp] theorem feedOne_clocks (s : State) (d : DomN) : clocks (feedOne s d) = clocks s := by
  unfold feedOne; (repeat' split) <;> simp

@[simp] theorem tidy_clocks (s : State) (r : Nat) : clocks (tidy s r) = clocks s := by simp [tidy]

@[simp] theorem hmaAsk_clocks (s : State) (r : Nat) (q : HReq) : clocks (hmaAsk s r q) = clocks s := by simp [hmaAsk]

@[simp] theorem dueMsg_clocks (s : State) (d : DomN) (v : Nat) : clocks (dueMsg s d v) = clocks s := by simp [dueMsg]

@[simp] theorem hmaDone_clocks (s : State) (r : Nat) : clocks (hmaDone s r) = clocks s := by simp [hmaDone]

@[simp] theorem holdPath_clocks (s : State) (r : Nat) (q : HReq) : clocks (holdPath s r q) = clocks s := by
  simp [holdPath]

@[simp] theorem issueLast_clocks (s : State) (r : Nat) (q : HReq) : clocks (issueLast s r q) = clocks s := by
  unfold issueLast; split <;> simp

@[simp] theorem endGrant_clocks (s : State) (r : Nat) (q : HReq) : clocks (endGrant s r q) = clocks s := by
  unfold endGrant; split <;> simp

@[simp] theorem issueGranted_clocks (s : State) (d : DomN) : clocks (issueGranted s d) = clocks s := by
  unfold issueGranted; split <;> simp

@[simp] theorem cutDrain_clocks (s : State) (k : EpN) : clocks (cutDrain s k) = clocks s := by simp [cutDrain]

@[simp] theorem askRead_clocks (s : State) (r : Nat) (d : DomN) (u : ReadUse) :
    clocks (askRead s r d u) = clocks s := by
  simp [askRead]

/-! ### Machine/Packet -/

@[simp] theorem sendCrd_clocks (s : State) (n : PortN) : clocks (sendCrd s n) = clocks s :=
  congrArg OffLinks.clocks (sendCrd_offLinks s n)

@[simp] theorem wakeTx_clocks (s : State) (n : PortN) : clocks (wakeTx s n) = clocks s :=
  congrArg OffLinks.clocks (wakeTx_offLinks s n)

@[simp] theorem stayLit_clocks (s : State) (n : PortN) : clocks (stayLit s n) = clocks s := by simp [stayLit]

@[simp] theorem returnCredits_clocks (s : State) (n : PortN) (nonPer : Bool) (k : Nat) :
    clocks (returnCredits s n nonPer k) = clocks s :=
  congrArg OffLinks.clocks (returnCredits_offLinks s n nonPer k)

@[simp] theorem putTsAt_clocks (s : State) (n : PortN) (r : Nat) (k : TsKind) (a0 a1 : Word) :
    clocks (putTsAt s n r k a0 a1) = clocks s :=
  congrArg OffLinks.clocks (putTsAt_offLinks s n r k a0 a1)

@[simp] theorem putTs_clocks (s : State) (n : PortN) (k : TsKind) (a0 : Word) (a1 : Word) :
    clocks (putTs s n k a0 a1) = clocks s :=
  congrArg OffLinks.clocks (putTs_offLinks s n k a0 a1)

@[simp] theorem sendTs_clocks (s : State) (n : PortN) (k : TsKind) (a0 : Word) (a1 : Word) :
    clocks (sendTs s n k a0 a1) = clocks s :=
  congrArg OffLinks.clocks (sendTs_offLinks s n k a0 a1)

@[simp] theorem sendTs2_clocks (s : State) (n : PortN) (k : TsKind) (a0 : Word) (a1 : Word) :
    clocks (sendTs2 s n k a0 a1) = clocks s :=
  congrArg OffLinks.clocks (sendTs2_offLinks s n k a0 a1)

@[simp] theorem flushTs_clocks (s : State) (n : PortN) : clocks (flushTs s n) = clocks s :=
  congrArg OffLinks.clocks (flushTs_offLinks s n)

@[simp] theorem tallyTry_clocks (s : State) (n : PortN) : clocks (tallyTry s n) = clocks s :=
  congrArg OffLinks.clocks (tallyTry_offLinks s n)

@[simp] theorem wantTally_clocks (s : State) (n : PortN) : clocks (wantTally s n) = clocks s := by simp [wantTally]

@[simp] theorem boundary_clocks (s : State) (n : PortN) : clocks (boundary s n) = clocks s :=
  congrArg OffLinks.clocks (boundary_offLinks s n)

@[simp] theorem sweepRx_clocks (s : State) : clocks (sweepRx s) = clocks s :=
  congrArg OffLinks.clocks (sweepRx_offLinks s)

@[simp] theorem closeEab_clocks (s : State) (n : PortN) (reason : Nat) (whole : Bool) :
    clocks (closeEab s n reason whole) = clocks s :=
  congrArg OffLinks.clocks (closeEab_offLinks s n reason whole)

@[simp] theorem closeSusp_clocks (s : State) (reason : Nat) (whole : Bool) :
    clocks (closeSusp s reason whole) = clocks s :=
  congrArg OffLinks.clocks (closeSusp_offLinks s reason whole)

@[simp] theorem endTx_clocks (s : State) (n : PortN) (reason : Nat) : clocks (endTx s n reason) = clocks s :=
  congrArg OffLinks.clocks (endTx_offLinks s n reason)

@[simp] theorem stompCopies_clocks (s : State) (pid : Nat) (reason : Nat) (whole : Bool) :
    clocks (stompCopies s pid reason whole) = clocks s :=
  congrArg OffLinks.clocks (stompCopies_offLinks s pid reason whole)

@[simp] theorem spoilRx_clocks (s : State) (n : PortN) (pid : Nat) (reason : Nat) :
    clocks (spoilRx s n pid reason) = clocks s := by
  simp [spoilRx]

@[simp] theorem dropRx_clocks (s : State) (n : PortN) (pid : Nat) (reason : Nat) (whole : Bool) :
    clocks (dropRx s n pid reason whole) = clocks s :=
  congrArg OffLinks.clocks (dropRx_offLinks s n pid reason whole)

@[simp] theorem dropAnswer_clocks (s : State) (j : Fin 48) : clocks (dropAnswer s j) = clocks s :=
  congrArg OffLinks.clocks (dropAnswer_offLinks s j)

@[simp] theorem forgetSlot_clocks (s : State) (j : Fin 48) (c : Nat) : clocks (forgetSlot s j c) = clocks s :=
  congrArg OffLinks.clocks (forgetSlot_offLinks s j c)

@[simp] theorem ulaPush_clocks (s : State) (r : Nat) (t : TxPkt) : clocks (ulaPush s r t) = clocks s :=
  congrArg OffLinks.clocks (ulaPush_offLinks s r t)

/-! ### Machine/Budget -/

@[simp] theorem evBudget_clocks (s : State) (src : Nat) : clocks (evBudget s src) = clocks s := by simp [evBudget]

@[simp] theorem classGrant_clocks (s : State) (m : DnN) (c : Nat) : clocks (classGrant s m c) = clocks s := by
  simp [classGrant]

/-! ### Machine/Walk -/

@[simp] theorem engineUp_clocks (s : State) (p : Pkt) (act : OnEop) : clocks (engineUp s p act) = clocks s :=
  congrArg OffLinks.clocks (engineUp_offLinks s p act)

@[simp] theorem sendAt_clocks (s : State) (m : DnN) (ord : Nat) (p : Pkt) (act : OnEop) :
    clocks (sendAt s m ord p act) = clocks s :=
  congrArg OffLinks.clocks (sendAt_offLinks s m ord p act)

@[simp] theorem sendDown_clocks (s : State) (m : DnN) (p : Pkt) (act : OnEop) :
    clocks (sendDown s m p act) = clocks s :=
  congrArg OffLinks.clocks (sendDown_offLinks s m p act)

@[simp] theorem setWalk_clocks (s : State) (w : Walk) : clocks (setWalk s w) = clocks s :=
  congrArg OffLinks.clocks (setWalk_offLinks s w)

@[simp] theorem sendBreak_clocks (s : State) (m : DnN) (cause : Nat) : clocks (sendBreak s m cause) = clocks s :=
  congrArg OffLinks.clocks (sendBreak_offLinks s m cause)

@[simp] theorem walkFrom_clocks (s : State) (l : List DnN) : clocks (walkFrom s l) = clocks s :=
  congrArg OffLinks.clocks (walkFrom_offLinks s l)

@[simp] theorem walkNext_clocks (s : State) (m : DnN) : clocks (walkNext s m) = clocks s :=
  congrArg OffLinks.clocks (walkNext_offLinks s m)

@[simp] theorem surveyDetach_clocks (s : State) (m : DnN) : clocks (surveyDetach s m) = clocks s :=
  congrArg OffLinks.clocks (surveyDetach_offLinks s m)

/-! ### Machine/Link -/

@[simp] theorem loseLock_clocks (s : State) : clocks (loseLock s) = clocks s :=
  congrArg OffLinks.clocks (loseLock_offLinks s)

@[simp] theorem lockKeep_clocks (s : State) : clocks (lockKeep s) = clocks s :=
  congrArg OffLinks.clocks (lockKeep_offLinks s)

@[simp] theorem gainLock_clocks (s : State) : clocks (gainLock s) = clocks s :=
  congrArg OffLinks.clocks (gainLock_offLinks s)

@[simp] theorem lockCheck_clocks (s : State) : clocks (lockCheck s) = clocks s :=
  congrArg OffLinks.clocks (lockCheck_offLinks s)

@[simp] theorem dropOpen_clocks (s : State) (n : PortN) (reason : Nat) : clocks (dropOpen s n reason) = clocks s :=
  congrArg OffLinks.clocks (dropOpen_offLinks s n reason)

@[simp] theorem settleDown_clocks (s : State) (m : DnN) : clocks (settleDown s m) = clocks s :=
  congrArg OffLinks.clocks (settleDown_offLinks s m)

@[simp] theorem freeSlots_clocks (s : State) : clocks (freeSlots s) = clocks s :=
  congrArg OffLinks.clocks (freeSlots_offLinks s)

@[simp] theorem settleUp_clocks (s : State) : clocks (settleUp s) = clocks s :=
  congrArg OffLinks.clocks (settleUp_offLinks s)

@[simp] theorem upFresh_clocks (s : State) : clocks (upFresh s) = clocks s := by simp [upFresh]

@[simp] theorem countAttach_clocks (s : State) (n : PortN) : clocks (countAttach s n) = clocks s := by
  simp [countAttach]

@[simp] theorem linkUp_clocks (s : State) (n : PortN) (r : Nat) : clocks (linkUp s n r) = clocks s := by simp [linkUp]

@[simp] theorem linkDown_clocks (s : State) (n : PortN) (reason : Nat) : clocks (linkDown s n reason) = clocks s :=
  congrArg OffLinks.clocks (linkDown_offLinks s n reason)

@[simp] theorem detectNow_clocks (s : State) (n : PortN) (wait : Bool) : clocks (detectNow s n wait) = clocks s :=
  congrArg OffLinks.clocks (detectNow_offLinks s n wait)

@[simp] theorem holdNow_clocks (s : State) (n : PortN) : clocks (holdNow s n) = clocks s :=
  congrArg OffLinks.clocks (holdNow_offLinks s n)

@[simp] theorem suspHold_clocks (s : State) (n : PortN) : clocks (suspHold s n) = clocks s :=
  congrArg OffLinks.clocks (suspHold_offLinks s n)

@[simp] theorem toDetect_clocks (s : State) (n : PortN) (wait : Bool) : clocks (toDetect s n wait) = clocks s := by
  simp [toDetect]

@[simp] theorem retrain_clocks (s : State) (n : PortN) (reason : Nat) : clocks (retrain s n reason) = clocks s :=
  congrArg OffLinks.clocks (retrain_offLinks s n reason)

@[simp] theorem errRetrain_clocks (s : State) (n : PortN) (reason : Nat) (within1s : Bool) :
    clocks (errRetrain s n reason within1s) = clocks s := by
  simp [errRetrain]

@[simp] theorem signalLost_clocks (s : State) (n : PortN) : clocks (signalLost s n) = clocks s := by
  unfold signalLost; split <;> simp

@[simp] theorem startTrial_clocks (s : State) (n : PortN) (r : Nat) : clocks (startTrial s n r) = clocks s := by
  simp [startTrial]

@[simp] theorem parentChoose_clocks (s : State) (n : PortN) : clocks (parentChoose s n) = clocks s := by
  unfold parentChoose; split <;> simp

@[simp] theorem noteBest_clocks (s : State) (n : PortN) : clocks (noteBest s n) = clocks s := by simp [noteBest]

@[simp] theorem reeval_clocks (s : State) (n : PortN) : clocks (reeval s n) = clocks s := by
  unfold reeval; (repeat' split) <;> simp

@[simp] theorem failRate_clocks (s : State) (n : PortN) : clocks (failRate s n) = clocks s :=
  congrArg OffLinks.clocks (failRate_offLinks s n)

@[simp] theorem enterHold_clocks (s : State) (n : PortN) : clocks (enterHold s n) = clocks s := by simp [enterHold]

/-! ### Machine/Switch -/

@[simp] theorem modLegs_clocks (s : State) (l : DnN) (f : Pps → Pps) : clocks (modLegs s l f) = clocks s := by
  simp [modLegs]

@[simp] theorem enterRamp_clocks (s : State) (l : DnN) : clocks (enterRamp s l) = clocks s := by simp [enterRamp]

@[simp] theorem enterWait_clocks (s : State) (l : DnN) (due : Bool) : clocks (enterWait s l due) = clocks s := by
  simp [enterWait]

@[simp] theorem enterOff_clocks (s : State) (l : DnN) : clocks (enterOff s l) = clocks s := by simp [enterOff]

@[simp] theorem enterStopping_clocks (s : State) (l : DnN) : clocks (enterStopping s l) = clocks s := by
  simp [enterStopping]

@[simp] theorem startHeld_clocks (s : State) (l : DnN) : clocks (startHeld s l) = clocks s := by simp [startHeld]

@[simp] theorem reserveStart_clocks (s : State) (l : DnN) : clocks (reserveStart s l) = clocks s := by
  simp [reserveStart]

@[simp] theorem passWait_clocks (s : State) (m : DnN) : clocks (passWait s m) = clocks s := by simp [passWait]

@[simp] theorem passPend_clocks (s : State) (m : DnN) : clocks (passPend s m) = clocks s := by simp [passPend]

@[simp] theorem budgetPass_clocks (s : State) : clocks (budgetPass s) = clocks s := by simp [budgetPass]

@[simp] theorem startWaiting_clocks (s : State) : clocks (startWaiting s) = clocks s := by simp [startWaiting]

@[simp] theorem takeClass_clocks (s : State) (m : DnN) (c : Nat) : clocks (takeClass s m c) = clocks s := by
  simp [takeClass]

@[simp] theorem releaseAll_clocks (s : State) (l : DnN) : clocks (releaseAll s l) = clocks s := by simp [releaseAll]

@[simp] theorem switchOn_clocks (s : State) (m : DnN) : clocks (switchOn s m) = clocks s := by
  unfold switchOn
  dsimp only
  (repeat' split) <;> simp only [reserveStart_clocks, modPps_clocks]

@[simp] theorem switchOff_clocks (s : State) (m : DnN) : clocks (switchOff s m) = clocks s := by
  unfold switchOff; (repeat' split) <;> simp

@[simp] theorem switchWrite_clocks (s : State) (m : DnN) (v : Bool) : clocks (switchWrite s m v) = clocks s := by
  simp [switchWrite]

@[simp] theorem recordFault_clocks (s : State) (m : DnN) (bits : Word) :
    clocks (recordFault s m bits) = clocks s := by
  simp [recordFault]

@[simp] theorem recordRetryx_clocks (s : State) (m : DnN) : clocks (recordRetryx s m) = clocks s := by
  simp [recordRetryx]

@[simp] theorem latchSwitch_clocks (s : State) (l m : DnN) (why : Word) :
    clocks (latchSwitch s l m why) = clocks s := by
  simp [latchSwitch]

@[simp] theorem retire_clocks (s : State) (l : DnN) : clocks (retire s l) = clocks s := by simp [retire]

@[simp] theorem pgCheckpoint_clocks (s : State) (l : DnN) : clocks (pgCheckpoint s l) = clocks s := by
  simp [pgCheckpoint]

@[simp] theorem loseLeg_clocks (s : State) (m : DnN) (why : Word) : clocks (loseLeg s m why) = clocks s := by
  simp [loseLeg]

@[simp] theorem legFault_clocks (s : State) (m : DnN) (bits : Word) : clocks (legFault s m bits) = clocks s := by
  simp [legFault]

@[simp] theorem noteFold_clocks (s : State) : clocks (noteFold s) = clocks s := by simp [noteFold]

@[simp] theorem tripFault_clocks (s : State) (m : DnN) (bits : Word) : clocks (tripFault s m bits) = clocks s := by
  simp [tripFault]

@[simp] theorem reverseFault_clocks (s : State) (m : DnN) : clocks (reverseFault s m) = clocks s := by
  simp [reverseFault]

@[simp] theorem setPg_clocks (s : State) (m : DnN) (vgs : Word) : clocks (setPg s m vgs) = clocks s := by simp [setPg]

@[simp] theorem gateOff_clocks (s : State) (l : DnN) (vgs : Word) : clocks (gateOff s l vgs) = clocks s := by
  simp [gateOff]

@[simp] theorem clearLegs_clocks (s : State) (l : DnN) : clocks (clearLegs s l) = clocks s := by simp [clearLegs]

@[simp] theorem endLatch_clocks (s : State) (l : DnN) : clocks (endLatch s l) = clocks s := by simp [endLatch]

@[simp] theorem faultClear_clocks (s : State) (m : DnN) : clocks (faultClear s m) = clocks s := by
  unfold faultClear; (repeat' split) <;> simp

@[simp] theorem budgetWrite_clocks (s : State) (w : Nat) : clocks (budgetWrite s w) = clocks s := by
  simp [budgetWrite]

@[simp] theorem gangWrite_clocks (s : State) (v : Word) : clocks (gangWrite s v) = clocks s := by simp [gangWrite]

/-! ### Machine/Training -/

@[simp] theorem countCode_clocks (s : State) (n : PortN) : clocks (countCode s n) = clocks s := by simp [countCode]

@[simp] theorem codeViolated_clocks (s : State) (n : PortN) : clocks (codeViolated s n) = clocks s := by
  simp [codeViolated]

@[simp] theorem onRx_clocks (n : PortN) (f : State → State) (s : State) (hf : ∀ a0, clocks (f a0) = clocks a0) :
    clocks (onRx n f s) = clocks s := by
  simp [onRx, *]

@[simp] theorem onTs_clocks (n : PortN) (k : TsKind) (a0 : Word) (a1 : Word) (chk : Word) (f : State → State)
    (s : State) (hf : ∀ a0, clocks (f a0) = clocks a0) :
    clocks (onTs n k a0 a1 chk f s) = clocks s := by
  simp [onTs, *]

@[simp] theorem noteSd_clocks (n : PortN) (level : Bool) (s : State) : clocks (noteSd n level s) = clocks s := by
  simp [noteSd]

@[simp] theorem sdQualified_clocks (s : State) (n : PortN) : clocks (sdQualified s n) = clocks s := by
  simp [sdQualified]

@[simp] theorem sdLost_clocks (s : State) (n : PortN) (fldHigh : Bool) : clocks (sdLost s n fldHigh) = clocks s := by
  simp [sdLost]

@[simp] theorem enterCaps_clocks (s : State) (n : PortN) : clocks (enterCaps s n) = clocks s := by simp [enterCaps]

@[simp] theorem aligned_clocks (s : State) (n : PortN) : clocks (aligned s n) = clocks s := by simp [aligned]

@[simp] theorem trainFail_clocks (s : State) (n : PortN) : clocks (trainFail s n) = clocks s := by simp [trainFail]

@[simp] theorem refuseCap_clocks (s : State) (n : PortN) : clocks (refuseCap s n) = clocks s := by simp [refuseCap]

@[simp] theorem acceptCap_clocks (s : State) (n : PortN) (a0 : Word) (a1 : Word) :
    clocks (acceptCap s n a0 a1) = clocks s := by
  simp [acceptCap]

@[simp] theorem capsDone_clocks (s : State) (n : PortN) : clocks (capsDone s n) = clocks s := by simp [capsDone]

@[simp] theorem capInCaps_clocks (s : State) (n : PortN) (a0 : Word) (a1 : Word) :
    clocks (capInCaps s n a0 a1) = clocks s := by
  simp [capInCaps]

@[simp] theorem capUpdated_clocks (s : State) (n : PortN) (a0 : Word) (a1 : Word) :
    clocks (capUpdated s n a0 a1) = clocks s := by
  simp [capUpdated]

@[simp] theorem capInSwitch_clocks (s : State) (n : PortN) (a0 : Word) (a1 : Word) :
    clocks (capInSwitch s n a0 a1) = clocks s := by
  simp [capInSwitch]

@[simp] theorem capRx_clocks (s : State) (n : PortN) (a0 : Word) (a1 : Word) :
    clocks (capRx s n a0 a1) = clocks s := by
  unfold capRx; split <;> simp

@[simp] theorem ackRx_clocks (s : State) (n : PortN) (a0 : Word) (a1 : Word) :
    clocks (ackRx s n a0 a1) = clocks s := by
  simp [ackRx]

@[simp] theorem enterRalign_clocks (s : State) (n : PortN) : clocks (enterRalign s n) = clocks s := by
  simp [enterRalign]

@[simp] theorem childSwitch_clocks (s : State) (r k : Nat) : clocks (childSwitch s r k) = clocks s := by
  simp [childSwitch]

@[simp] theorem childTrial_clocks (s : State) (r : Nat) : clocks (childTrial s r) = clocks s := by simp [childTrial]

@[simp] theorem childLeave_clocks (s : State) : clocks (childLeave s) = clocks s := by simp [childLeave]

@[simp] theorem trialRx_clocks (s : State) (n : PortN) (r : Nat) : clocks (trialRx s n r) = clocks s := by
  unfold trialRx; dsimp only; (repeat' split) <;> simp

@[simp] theorem readyRx_clocks (s : State) (n : PortN) (clean : Nat) (r : Nat) :
    clocks (readyRx s n clean r) = clocks s := by
  simp [readyRx]

@[simp] theorem judge_clocks (s : State) (n : PortN) : clocks (judge s n) = clocks s := by
  unfold judge; dsimp only; (repeat' split) <;> simp

@[simp] theorem trialSent_clocks (s : State) (n : PortN) (errs : Nat) : clocks (trialSent s n errs) = clocks s := by
  simp [trialSent]

@[simp] theorem resultRx_clocks (s : State) (n : PortN) (r : Nat) (errs : Word) :
    clocks (resultRx s n r errs) = clocks s := by
  simp [resultRx]

@[simp] theorem goRx_clocks (s : State) (r : Nat) : clocks (goRx s r) = clocks s := by
  unfold goRx; dsimp only; (repeat' split) <;> simp

@[simp] theorem capUpdate_clocks (s : State) (n : PortN) : clocks (capUpdate s n) = clocks s := by simp [capUpdate]

@[simp] theorem downRx_clocks (s : State) (n : PortN) (reason : Nat) : clocks (downRx s n reason) = clocks s := by
  unfold downRx; split <;> simp

@[simp] theorem disRx_clocks (s : State) (n : PortN) : clocks (disRx s n) = clocks s := by simp [disRx]

@[simp] theorem errorRetrain_clocks (s : State) (n : PortN) (within1s : Bool) :
    clocks (errorRetrain s n within1s) = clocks s := by
  simp [errorRetrain]

@[simp] theorem retrainWrite_clocks (s : State) (n : PortN) : clocks (retrainWrite s n) = clocks s := by
  unfold retrainWrite; dsimp only; (repeat' split) <;> simp

@[simp] theorem portCntClr_clocks (s : State) (n : PortN) : clocks (portCntClr s n) = clocks s := by simp [portCntClr]

@[simp] theorem floodDrop_clocks (s : State) (n : PortN) : clocks (floodDrop s n) = clocks s := by simp [floodDrop]

@[simp] theorem floodStart_clocks (s : State) (n : PortN) (fldHigh : Bool) :
    clocks (floodStart s n fldHigh) = clocks s := by
  unfold floodStart; dsimp only; (repeat' split) <;> simp

@[simp] theorem upResumed_clocks (s : State) : clocks (upResumed s) = clocks s := by simp [upResumed]

@[simp] theorem portOff_clocks (s : State) (n : PortN) : clocks (portOff s n) = clocks s := by
  unfold portOff; dsimp only; (repeat' split) <;> simp

@[simp] theorem leaveDisabled_clocks (s : State) (n : PortN) : clocks (leaveDisabled s n) = clocks s := by
  simp [leaveDisabled]

@[simp] theorem portOnWrite_clocks (s : State) (n : PortN) : clocks (portOnWrite s n) = clocks s := by
  unfold portOnWrite; split <;> simp

@[simp] theorem portEnWrite_clocks (s : State) (n : PortN) (v : Bool) : clocks (portEnWrite s n v) = clocks s := by
  simp [portEnWrite]

@[simp] theorem crdRx_clocks (s : State) (n : PortN) (param : Word) : clocks (crdRx s n param) = clocks s := by
  simp [crdRx]

@[simp] theorem malformRx_clocks (s : State) (n : PortN) : clocks (malformRx s n) = clocks s := by
  unfold malformRx; split <;> simp

@[simp] theorem preRx_clocks (s : State) (n : PortN) (came : Option Nat) : clocks (preRx s n came) = clocks s := by
  unfold preRx; dsimp only; (repeat' split) <;> simp

@[simp] theorem rsmLost_clocks (s : State) (n : PortN) : clocks (rsmLost s n) = clocks s := by
  unfold rsmLost; split <;> simp

@[simp] theorem rsmRx_clocks (s : State) (n : PortN) (off : Word) : clocks (rsmRx s n off) = clocks s := by
  unfold rsmRx; dsimp only; (repeat' split) <;> simp

/-! ### Machine/Local -/

@[simp] theorem voidReads_clocks (s : State) (f : ReadUse → Bool) : clocks (voidReads s f) = clocks s := by
  simp [voidReads]

@[simp] theorem askDesc_clocks (s : State) (k : EpN) : clocks (askDesc s k) = clocks s := by simp [askDesc]

@[simp] theorem xferEvent_clocks (s : State) (k : EpN) (status : Nat) (count : Word) (bytes : Nat) (tag : BitVec 7)
    (cue : Bool) (late : Bool) :
    clocks (xferEvent s k status count bytes tag cue late) = clocks s := by
  simp [xferEvent]

@[simp] theorem completeDesc_clocks (s : State) (k : EpN) (d : Desc) (status : Nat) (bytes : Nat) (tag : BitVec 7)
    (cue : Bool) (late : Bool) :
    clocks (completeDesc s k d status bytes tag cue late) = clocks s := by
  simp [completeDesc]

@[simp] theorem completeHead_clocks (s : State) (k : EpN) (status : Nat) (bytes : Nat) (cue : Bool) (late : Bool) :
    clocks (completeHead s k status bytes cue late) = clocks s := by
  unfold completeHead; split <;> simp

@[simp] theorem dropBad_clocks (s : State) (k : EpN) : clocks (dropBad s k) = clocks s := by simp [dropBad]

@[simp] theorem putData_clocks (s : State) (k : EpN) (off : Nat) (bytes : List Nat) :
    clocks (putData s k off bytes) = clocks s := by
  simp [putData]

@[simp] theorem fillBuf_clocks (s : State) (k : EpN) (n : Nat) : clocks (fillBuf s k n) = clocks s := by
  simp [fillBuf]

@[simp] theorem askData_clocks (s : State) (k : EpN) : clocks (askData s k) = clocks s := by
  unfold askData; dsimp only; (repeat' split) <;> simp

@[simp] theorem epAsk_clocks (s : State) (k : EpN) : clocks (epAsk s k) = clocks s := by simp [epAsk]

@[simp] theorem completeAll_clocks (s : State) (k : EpN) (status : Nat) :
    clocks (completeAll s k status) = clocks s := by
  simp [completeAll]

@[simp] theorem emptyEp_clocks (s : State) (k : EpN) : clocks (emptyEp s k) = clocks s := by simp [emptyEp]

@[simp] theorem stopEp_clocks (s : State) (k : EpN) (status : Nat) : clocks (stopEp s k status) = clocks s := by
  simp [stopEp]

@[simp] theorem localBusReset_clocks (s : State) : clocks (localBusReset s) = clocks s := by simp [localBusReset]

@[simp] theorem confirm_clocks (s : State) (k : EpN) : clocks (confirm s k) = clocks s := by simp [confirm]

@[simp] theorem storeBuf_clocks (s : State) (k : EpN) (p : Pkt) (b : Bool) :
    clocks (storeBuf s k p b) = clocks s := by
  simp [storeBuf]

@[simp] theorem lnSend_clocks (s : State) (k : EpN) (p : Pkt) (act : OnEop) :
    clocks (lnSend s k p act) = clocks s := by
  simp [lnSend]

@[simp] theorem noteAns_clocks (s : State) (k : EpN) (tag : BitVec 7) (a : EpAns) :
    clocks (noteAns s k tag a) = clocks s := by
  simp [noteAns]

@[simp] theorem lnHshk_clocks (s : State) (k : EpN) (h : Hdr) (code : Nat) :
    clocks (lnHshk s k h code) = clocks s := by
  simp [lnHshk]

@[simp] theorem lnAck_clocks (s : State) (k : EpN) (h : Hdr) : clocks (lnAck s k h) = clocks s := by simp [lnAck]

@[simp] theorem lnNak_clocks (s : State) (k : EpN) (h : Hdr) : clocks (lnNak s k h) = clocks s := by simp [lnNak]

@[simp] theorem lnStall_clocks (s : State) (k : EpN) (h : Hdr) : clocks (lnStall s k h) = clocks s := by
  simp [lnStall]

@[simp] theorem lnRetry_clocks (s : State) (k : EpN) : clocks (lnRetry s k) = clocks s := by simp [lnRetry]

theorem takeInbox_clocks (s t : State) (f : Inbox → Bool) (x : Inbox) (h : takeInbox s f = some (x, t)) :
    clocks t = clocks s := by
  simp only [takeInbox, Option.map_eq_some_iff, Prod.mk.injEq] at h
  obtain ⟨y, _, _, rfl⟩ := h
  rfl

@[simp] theorem tornAnswer_clocks (s : State) (x : Inbox) (k : EpN) : clocks (tornAnswer s x k) = clocks s := by
  simp [tornAnswer]

@[simp] theorem onLocal_clocks (f : Pkt → Bool) (act : State → Inbox → EpN → State) (s : State)
    (h : ∀ a x k, clocks (act a x k) = clocks a) : clocks (onLocal f act s) = clocks s := by
  unfold onLocal
  split
  · rfl
  · next x t ht =>
    have ht := takeInbox_clocks _ _ _ _ ht
    dsimp only
    (repeat' split) <;> simp [h, ht]

@[simp] theorem serveOther_clocks (s : State) : clocks (serveOther s) = clocks s := by
  unfold serveOther
  split
  · rfl
  · next x t ht =>
    have ht := takeInbox_clocks _ _ _ _ ht
    dsimp only
    (repeat' split) <;> simp [ht]

@[simp] theorem serveOthers_clocks (s : State) : clocks (serveOthers s) = clocks s := by simp [serveOthers]

@[simp] theorem confirmNew_clocks (s : State) (k : EpN) (h : Hdr) : clocks (confirmNew s k h) = clocks s := by
  simp [confirmNew]

@[simp] theorem stallNew_clocks (s : State) (k : EpN) (h : Hdr) : clocks (stallNew s k h) = clocks s := by
  simp [stallNew]

@[simp] theorem setupAct_clocks (s : State) (x : Inbox) (k : EpN) : clocks (setupAct s x k) = clocks s := by
  simp [setupAct]

@[simp] theorem groupStore_clocks (s : State) (k : EpN) (p : Pkt) : clocks (groupStore s k p) = clocks s := by
  simp [groupStore]

@[simp] theorem confirmNak_clocks (s : State) (k : EpN) (h : Hdr) : clocks (confirmNak s k h) = clocks s := by
  simp [confirmNak]

@[simp] theorem outAct_clocks (s : State) (x : Inbox) (k : EpN) : clocks (outAct s x k) = clocks s := by simp [outAct]

@[simp] theorem inAct_clocks (s : State) (x : Inbox) (k : EpN) : clocks (inAct s x k) = clocks s := by simp [inAct]

@[simp] theorem cstatNew_clocks (s : State) (k : EpN) (h : Hdr) : clocks (cstatNew s k h) = clocks s := by
  unfold cstatNew; split <;> simp

@[simp] theorem cstatAct_clocks (s : State) (x : Inbox) (k : EpN) : clocks (cstatAct s x k) = clocks s := by
  simp [cstatAct]

@[simp] theorem pinqAct_clocks (s : State) (x : Inbox) (k : EpN) : clocks (pinqAct s x k) = clocks s := by
  simp [pinqAct]

@[simp] theorem pindLeft_clocks (s : State) (k : EpN) : clocks (pindLeft s k) = clocks s := by
  unfold pindLeft; split <;> simp

@[simp] theorem drained_clocks (s : State) (k : EpN) : clocks (drained s k) = clocks s := by
  unfold drained; dsimp only; (repeat' split) <;> simp

@[simp] theorem drain_clocks (s : State) (k : EpN) : clocks (drain s k) = clocks s := by simp [drain]

@[simp] theorem cueDone_clocks (s : State) (k : EpN) (atCatch : Bool) : clocks (cueDone s k atCatch) = clocks s := by
  simp [cueDone]

@[simp] theorem lnEnable_clocks (s : State) : clocks (lnEnable s) = clocks s := by simp [lnEnable]

@[simp] theorem lnDisable_clocks (s : State) : clocks (lnDisable s) = clocks s := by simp [lnDisable]

@[simp] theorem epEnable_clocks (s : State) (k : EpN) : clocks (epEnable s k) = clocks s := by simp [epEnable]

@[simp] theorem epDisable_clocks (s : State) (k : EpN) : clocks (epDisable s k) = clocks s := by simp [epDisable]

/-! ### Machine/Cue -/

@[simp] theorem flagCrew_clocks (s : State) (k : CrewN) (f : Word) : clocks (flagCrew s k f) = clocks s := by
  simp [flagCrew]

@[simp] theorem judgeCue_clocks (s : State) (out : Nat) (p : Pkt) (full : Bool) :
    clocks (judgeCue s out p full).2 = clocks s := by
  unfold judgeCue; dsimp only; (repeat' split) <;> simp

@[simp] theorem settleCue_clocks (s : State) (m : DnN) (pid : Nat) : clocks (settleCue s m pid) = clocks s := by
  unfold settleCue; dsimp only; (repeat' split) <;> simp

@[simp] theorem releaseCues_clocks (s : State) (f : PortN → CrewN × Nat → Bool) (atCatch : Bool) :
    clocks (releaseCues s f atCatch) = clocks s := by
  simp [releaseCues]

@[simp] theorem releaseEarly_clocks (s : State) (f : PortN → CrewN × Nat → Bool) (flag : Word) :
    clocks (releaseEarly s f flag) = clocks s := by
  simp [releaseEarly]

@[simp] theorem snapBank_clocks (s : State) (src : Nat) (l : List MSnap) : clocks (snapBank s src l) = clocks s := by
  simp [snapBank]

@[simp] theorem snapRequest_clocks (s : State) (src : Nat) : clocks (snapRequest s src) = clocks s := by
  unfold snapRequest; split <;> simp

/-! ### Machine/LocalCue -/

@[simp] theorem poutStore_clocks (s : State) (k : EpN) (p : Pkt) : clocks (poutStore s k p) = clocks s := by
  unfold poutStore; dsimp only; (repeat' split) <;> simp

@[simp] theorem poutAct_clocks (s : State) (x : Inbox) (k : EpN) : clocks (poutAct s x k) = clocks s := by
  simp [poutAct]

/-! ### Machine/Vectors -/

@[simp] theorem holdVec_clocks (s : State) (d : DomN) (v : Nat) (b : Bool) : clocks (holdVec s d v b) = clocks s := by
  simp [holdVec]

@[simp] theorem gapVec_clocks (s : State) (d : DomN) (v : Nat) (b : Bool) : clocks (gapVec s d v b) = clocks s := by
  simp [gapVec]

@[simp] theorem pbaVec_clocks (s : State) (d : DomN) (v : Nat) (b : Bool) : clocks (pbaVec s d v b) = clocks s := by
  simp [pbaVec]

@[simp] theorem sendMsg_clocks (s : State) (d : DomN) (v : Nat) : clocks (sendMsg s d v) = clocks s := by
  simp [sendMsg]

@[simp] theorem issueMsg_clocks (s : State) (d : DomN) (v : Nat) : clocks (issueMsg s d v) = clocks s := by
  simp [issueMsg]

@[simp] theorem fire_clocks (s : State) (d : DomN) (v : Nat) : clocks (fire s d v) = clocks s := by simp [fire]

@[simp] theorem gapEnd_clocks (s : State) (d : DomN) (v : Nat) : clocks (gapEnd s d v) = clocks s := by simp [gapEnd]

@[simp] theorem pbaRelease_clocks (s : State) (d : DomN) (v : Nat) : clocks (pbaRelease s d v) = clocks s := by
  simp [pbaRelease]

@[simp] theorem heldRelease_clocks (s : State) (d : DomN) (v : Nat) : clocks (heldRelease s d v) = clocks s := by
  simp [heldRelease]

@[simp] theorem releaseMsgs_clocks (s : State) (d : DomN) : clocks (releaseMsgs s d) = clocks s := by
  simp [releaseMsgs]

@[simp] theorem clearMask_clocks (s : State) (d : DomN) (v : Fin 32) : clocks (clearMask s d v) = clocks s := by
  simp [clearMask]

@[simp] theorem unmask_clocks (s : State) (d : DomN) (x0 : MaskKind) : clocks (unmask s d x0) = clocks s := by
  unfold unmask; split <;> simp

@[simp] theorem msixWrite_clocks (s : State) (d : DomN) (j : Nat) (v : BitVec 32) :
    clocks (msixWrite s d j v) = clocks s := by
  unfold msixWrite; split <;> simp

/-! ### Machine/Domain -/

@[simp] theorem giveRight_clocks (s : State) (d : DomN) : clocks (giveRight s d) = clocks s := by simp [giveRight]

@[simp] theorem cfgwr_clocks (s : State) (d : DomN) : clocks (cfgwr s d) = clocks s := by simp [cfgwr]

@[simp] theorem denied_clocks (s : State) (d : DomN) : clocks (denied s d) = clocks s := by simp [denied]

@[simp] theorem rightsWrite_clocks (s : State) (d : DomN) (v : Word) : clocks (rightsWrite s d v) = clocks s := by
  simp [rightsWrite]

@[simp] theorem ownWrite_clocks (d : DomN) (s : State) (k : EpN) : clocks (ownWrite d s k) = clocks s := by
  simp [ownWrite]

@[simp] theorem epmaskWrite_clocks (s : State) (d : DomN) (half : Nat) (v : Word) :
    clocks (epmaskWrite s d half v) = clocks s := by
  simp [epmaskWrite]

@[simp] theorem domEnable_clocks (s : State) (d : DomN) : clocks (domEnable s d) = clocks s := by
  unfold domEnable; split <;> simp

@[simp] theorem dropReqs_clocks (s : State) (r : Nat) : clocks (dropReqs s r) = clocks s := by simp [dropReqs]

@[simp] theorem dropShared_clocks (s : State) (r : Nat) (d : DomN) : clocks (dropShared s r d) = clocks s := by
  simp [dropShared]

@[simp] theorem dropWatches_clocks (s : State) (d : DomN) : clocks (dropWatches s d) = clocks s := by
  simp [dropWatches]

@[simp] theorem endGranted_clocks (s : State) (d : DomN) : clocks (endGranted s d) = clocks s := by simp [endGranted]

@[simp] theorem tearBegin_clocks (s : State) (d : DomN) (cause : Nat) : clocks (tearBegin s d cause) = clocks s := by
  simp [tearBegin]

@[simp] theorem qosReset_clocks (s : State) (d : DomN) : clocks (qosReset s d) = clocks s := by simp [qosReset]

@[simp] theorem handBack_clocks (s : State) (d : DomN) : clocks (handBack s d) = clocks s := by simp [handBack]

@[simp] theorem arbRelease_clocks (s : State) (d : DomN) : clocks (arbRelease s d) = clocks s := by simp [arbRelease]

@[simp] theorem domSettle_clocks (s : State) (d : DomN) (cause : Nat) : clocks (domSettle s d cause) = clocks s := by
  simp [domSettle]

@[simp] theorem raiseTorn_clocks (s : State) (ev : Ev) : clocks (raiseTorn s ev) = clocks s := by simp [raiseTorn]

@[simp] theorem tearEnd_clocks (s : State) (d : DomN) : clocks (tearEnd s d) = clocks s := by simp [tearEnd]

@[simp] theorem offReset_clocks (s : State) (d : DomN) (cause : Nat) : clocks (offReset s d cause) = clocks s := by
  simp [offReset]

@[simp] theorem teardown_clocks (s : State) (d : DomN) (cause : Nat) : clocks (teardown s d cause) = clocks s := by
  unfold teardown; split <;> simp

@[simp] theorem teardownAll_clocks (s : State) (cause : Nat) : clocks (teardownAll s cause) = clocks s := by
  simp [teardownAll]

@[simp] theorem domDisable_clocks (s : State) (d : DomN) : clocks (domDisable s d) = clocks s := by simp [domDisable]

@[simp] theorem domFault_clocks (s : State) (d : DomN) : clocks (domFault s d) = clocks s := by simp [domFault]

@[simp] theorem domGo_clocks (s : State) (d : DomN) : clocks (domGo s d) = clocks s := by simp [domGo]

/-! ### Machine/Route -/

@[simp] theorem countNoroute_clocks (s : State) : clocks (countNoroute s) = clocks s := by simp [countNoroute]

@[simp] theorem countRec_clocks (s : State) : clocks (countRec s) = clocks s := by simp [countRec]

@[simp] theorem countNosplit_clocks (s : State) : clocks (countNosplit s) = clocks s := by simp [countNosplit]

@[simp] theorem countPdrop_clocks (s : State) : clocks (countPdrop s) = clocks s := by simp [countPdrop]

@[simp] theorem addRx_clocks (s : State) (n : PortN) (ws : List Word) (h : Hdr) (len : Nat) (mc bad : Bool)
    (dest : List Deliver) :
    clocks (addRx s n ws h len mc bad dest) = clocks s := by
  simp [addRx]

@[simp] theorem copyDown_clocks (s : State) (m : DnN) (h : Hdr) (pid : Nat) (len : Nat) :
    clocks (copyDown s m h pid len) = clocks s := by
  simp [copyDown]

@[simp] theorem copyUp_clocks (s : State) (m : DnN) (h : Hdr) (pid : Nat) (len : Nat) :
    clocks (copyUp s m h pid len) = clocks s := by
  simp [copyUp]

@[simp] theorem forwardDown_clocks (s : State) (m : DnN) (h : Hdr) (pid len : Nat) :
    clocks (forwardDown s m h pid len).1 = clocks s := by
  unfold forwardDown; dsimp only; (repeat' split) <;> simp

@[simp] theorem toPort_clocks (s : State) (m : DnN) (h : Hdr) (pid len : Nat) :
    clocks (toPort s m h pid len).1 = clocks s := by
  unfold toPort; (repeat' split) <;> simp

@[simp] theorem copyAll_clocks (s : State) (ms : List DnN) (h : Hdr) (pid : Nat) (len : Nat) :
    clocks (copyAll s ms h pid len) = clocks s := by
  simp [copyAll]

@[simp] theorem toGroup_clocks (s : State) (h : Hdr) (pid len : Nat) : clocks (toGroup s h pid len).1 = clocks s := by
  unfold toGroup
  split <;> simp

@[simp] theorem routeUp_clocks (s : State) (h : Hdr) (pid len : Nat) : clocks (routeUp s h pid len).1 = clocks s := by
  unfold routeUp
  (repeat' split) <;> simp

@[simp] theorem headerUp_clocks (s : State) (ws : List Word) (h : Hdr) (len : Nat) :
    clocks (headerUp s ws h len) = clocks s := by
  simp [headerUp]

@[simp] theorem upward_clocks (s : State) (m : DnN) (h : Hdr) (pid len : Nat) :
    clocks (upward s m h pid len).1 = clocks s := by
  unfold upward; (repeat' split) <;> simp

@[simp] theorem surveyUp_clocks (s : State) (m : DnN) (h : Hdr) (pid len : Nat) :
    clocks (surveyUp s m h pid len).1 = clocks s := by
  unfold surveyUp; (repeat' split) <;> simp

@[simp] theorem answerUp_clocks (s : State) (m : DnN) (h : Hdr) (pid len : Nat) :
    clocks (answerUp s m h pid len).2.1 = clocks s := by
  unfold answerUp; dsimp only; (repeat' split) <;> simp

@[simp] theorem headerDown_clocks (s : State) (m : DnN) (ws : List Word) (h : Hdr) (len : Nat) :
    clocks (headerDown s m ws h len) = clocks s := by
  unfold headerDown; (repeat' split) <;> simp

@[simp] theorem rxUnclosed_clocks (s : State) (n : PortN) : clocks (rxUnclosed s n) = clocks s := by
  unfold rxUnclosed; dsimp only; (repeat' split) <;> simp

@[simp] theorem headerRx_clocks (s : State) (n : PortN) (w0 : Word) (w1 : Word) (w2 : Word) (w3 : Word) (len : Nat) :
    clocks (headerRx s n w0 w1 w2 w3 len) = clocks s := by
  simp [headerRx]

@[simp] theorem floodHeader_clocks (s : State) (n : PortN) (w0 w1 w2 w3 : Word) (len : Nat) :
    clocks (floodHeader s n w0 w1 w2 w3 len) = clocks s := by
  simp [floodHeader]

@[simp] theorem chunkStep_clocks (s : State) : clocks (chunkStep s) = clocks s := by
  unfold chunkStep; (repeat' split) <;> simp

@[simp] theorem slotAnswer_clocks (s : State) (j : Fin 48) (pid : Nat) (p : Pkt) :
    clocks (slotAnswer s j pid p) = clocks s := by
  simp [slotAnswer]

@[simp] theorem countForwarded_clocks (s : State) (n : PortN) : clocks (countForwarded s n) = clocks s := by
  simp [countForwarded]

@[simp] theorem inboxPush_clocks (s : State) (n : PortN) (r : RxPkt) (d : Deliver) (p : Pkt) :
    clocks (inboxPush s n r d p) = clocks s := by
  simp [inboxPush]

@[simp] theorem deliver_clocks (n : PortN) (r : RxPkt) (raw : List Word) (p : Pkt) (s : State) (d : Deliver) :
    clocks (deliver n r raw p s d) = clocks s := by
  unfold deliver; split <;> simp

@[simp] theorem finishCopies_clocks (pid : Nat) (payload : List Word) (s : State) :
    clocks (finishCopies pid payload s) = clocks s := by
  simp [finishCopies]

@[simp] theorem trailerGood_clocks (s : State) (n : PortN) (r : RxPkt) (payload : List Word) :
    clocks (trailerGood s n r payload) = clocks s := by
  simp [trailerGood]

@[simp] theorem setRxLen_clocks (s : State) (n : PortN) (pid words : Nat) :
    clocks (setRxLen s n pid words) = clocks s := by
  simp [setRxLen]

@[simp] theorem countCrc_clocks (s : State) (n : PortN) : clocks (countCrc s n) = clocks s := by simp [countCrc]

@[simp] theorem trailerRx_clocks (s : State) (n : PortN) (ws : List Word) : clocks (trailerRx s n ws) = clocks s := by
  unfold trailerRx; split <;> simp

@[simp] theorem floodClose_clocks (s : State) (n : PortN) (words : Nat) (pcls : Bool) :
    clocks (floodClose s n words pcls) = clocks s := by
  unfold floodClose; split <;> simp

@[simp] theorem eabRx_clocks (s : State) (n : PortN) (reason : Nat) (words : Nat) (pcls : Bool) :
    clocks (eabRx s n reason words pcls) = clocks s := by
  unfold eabRx; split <;> simp

@[simp] theorem noteT1_clocks (s : State) (t : TxPkt) : clocks (noteT1 s t) = clocks s := by simp [noteT1]

@[simp] theorem startTx_clocks (n : PortN) (t : TxPkt) (s : State) : clocks (startTx n t s) = clocks s := by
  simp [startTx]

@[simp] theorem freeSlot_clocks (s : State) (j : Fin 48) : clocks (freeSlot s j) = clocks s := by simp [freeSlot]

@[simp] theorem eopAct_clocks (s : State) (a : OnEop) : clocks (eopAct s a) = clocks s := by
  unfold eopAct; split <;> simp

@[simp] theorem eopSent_clocks (s : State) (n : PortN) : clocks (eopSent s n) = clocks s := by
  unfold eopSent; split <;> simp

/-! ### Machine/Split -/

@[simp] theorem proxySend_clocks (s : State) (m : DnN) (ord : Nat) (outer : Hdr) (inner : Hdr) (payload : List Word) :
    clocks (proxySend s m ord outer inner payload) = clocks s := by
  simp [proxySend]

@[simp] theorem proxyTo_clocks (s : State) (m : DnN) (ord : Nat) (outer : Hdr) (inner : Hdr) (payload : List Word) :
    clocks (proxyTo s m ord outer inner payload) = clocks s := by
  simp [proxyTo]

@[simp] theorem proxyRx_clocks (s : State) (ord : Nat) (p : Pkt) : clocks (proxyRx s ord p) = clocks s := by
  unfold proxyRx; dsimp only; (repeat' split) <;> simp

@[simp] theorem ttSend_clocks (s : State) (p : Pkt) (act : OnEop) : clocks (ttSend s p act) = clocks s := by
  simp [ttSend]

@[simp] theorem ttHshk_clocks (s : State) (h : Hdr) (code : Nat) : clocks (ttHshk s h code) = clocks s := by
  simp [ttHshk]

@[simp] theorem queueInner_clocks (s : State) (m : DnN) (j : Fin 48) (ord : Nat) (q : Pkt) :
    clocks (queueInner s m j ord q) = clocks s := by
  unfold queueInner; dsimp only; (repeat' split) <;> simp

@[simp] theorem acceptSplit_clocks (s : State) (m : DnN) (j : Fin 48) (ord : Nat) (p : Pkt) :
    clocks (acceptSplit s m j ord p) = clocks s := by
  simp [acceptSplit]

@[simp] theorem splitN_clocks (s : State) (m : DnN) (ord : Nat) (p : Pkt) : clocks (splitN s m ord p) = clocks s := by
  unfold splitN; (repeat' split) <;> simp

@[simp] theorem splitP_clocks (s : State) (m : DnN) (ord : Nat) (p : Pkt) : clocks (splitP s m ord p) = clocks s := by
  unfold splitP; dsimp only; (repeat' split) <;> simp

@[simp] theorem splitLate_clocks (s : State) (m : DnN) (p : Pkt) : clocks (splitLate s m p) = clocks s := by
  simp [splitLate]

@[simp] theorem ssplitRx_clocks (s : State) (m : DnN) (ord : Nat) (p : Pkt) :
    clocks (ssplitRx s m ord p) = clocks s := by
  unfold ssplitRx; split <;> simp

@[simp] theorem onTt_clocks (typ : BitVec 4) (act : State → DnN → Nat → Pkt → State) (s : State)
    (h : ∀ a x n k, clocks (act a x n k) = clocks a) : clocks (onTt typ act s) = clocks s := by
  unfold onTt
  split
  · rfl
  · next x t ht =>
    have ht := takeInbox_clocks _ _ _ _ ht
    split <;> simp [h, ht]

@[simp] theorem csplitSlot_clocks (s : State) (j : Fin 48) (x : Slot) (h : Hdr) :
    clocks (csplitSlot s j x h) = clocks s := by
  unfold csplitSlot; split <;> simp

@[simp] theorem csplitRx_clocks (s : State) (m : DnN) (p : Pkt) : clocks (csplitRx s m p) = clocks s := by
  unfold csplitRx; (repeat' split) <;> simp

@[simp] theorem failSlot_clocks (s : State) (j : Fin 48) : clocks (failSlot s j) = clocks s := by simp [failSlot]

@[simp] theorem onSlot_clocks (s : State) (j : Fin 48) (f : Slot → Bool) (act : State → State)
    (hact : ∀ a0, clocks (act a0) = clocks a0) :
    clocks (onSlot s j f act) = clocks s := by
  simp [onSlot, *]

@[simp] theorem ttCntClr_clocks (s : State) : clocks (ttCntClr s) = clocks s := by simp [ttCntClr]

/-! ### Machine/Survey -/

@[simp] theorem sendReport_clocks (s : State) (h : Word) (k : Nat) (ws : List Word) :
    clocks (sendReport s h k ws) = clocks s := by
  simp [sendReport]

@[simp] theorem dropReport_clocks (s : State) : clocks (dropReport s) = clocks s := by simp [dropReport]

@[simp] theorem newReport_clocks (s : State) (h : Word) (mode : Nat) : clocks (newReport s h mode) = clocks s := by
  simp [newReport]

@[simp] theorem censusOpen_clocks (s : State) (p : Pkt) : clocks (censusOpen s p) = clocks s := by simp [censusOpen]

@[simp] theorem onSurvey_clocks (tsb : Nat) (up : Bool) (act : State → Inbox → State) (s : State)
    (h : ∀ a x, clocks (act a x) = clocks a) : clocks (onSurvey tsb up act s) = clocks s := by
  unfold onSurvey
  split
  · next x t ht => rw [h, takeInbox_clocks _ _ _ _ ht]
  · rfl

@[simp] theorem sendProbe_clocks (s : State) (k : Nat) : clocks (sendProbe s k) = clocks s := by simp [sendProbe]

@[simp] theorem surveyOpen_clocks (s : State) (x : Inbox) : clocks (surveyOpen s x) = clocks s := by simp [surveyOpen]

@[simp] theorem sendRecord_clocks (s : State) : clocks (sendRecord s) = clocks s := by simp [sendRecord]

@[simp] theorem probingEnds_clocks (s : State) : clocks (probingEnds s) = clocks s := by simp [probingEnds]

@[simp] theorem surveyProbe_clocks (s : State) (m : DnN) (x : Inbox) : clocks (surveyProbe s m x) = clocks s := by
  simp [surveyProbe]

@[simp] theorem surveyEcho_clocks (s : State) (x : Inbox) : clocks (surveyEcho s x) = clocks s := by simp [surveyEcho]

@[simp] theorem surveyToken_clocks (s : State) (x : Inbox) : clocks (surveyToken s x) = clocks s := by
  unfold surveyToken; (repeat' split) <;> simp

@[simp] theorem probeWaitOver_clocks (s : State) : clocks (probeWaitOver s) = clocks s := by
  unfold probeWaitOver; split <;> simp

/-! ### Machine/Time -/

@[simp] theorem strokeStart_clocks (s : State) (n : BitVec 32) (b : BitVec 64) :
    clocks (strokeStart s n b) = clocks s := by
  simp [strokeStart]

@[simp] theorem gridStart_clocks (s : State) : clocks (gridStart s) = clocks s := by simp [gridStart]

@[simp] theorem gridCheck_clocks (old : Nat) (s : State) : clocks (gridCheck old s) = clocks s := by simp [gridCheck]

@[simp] theorem beaconMissed_clocks (s : State) : clocks (beaconMissed s) = clocks s := by simp [beaconMissed]

@[simp] theorem timeStep_clocks (s : State) (o : Int) : clocks (timeStep s o) = clocks s := by simp [timeStep]

@[simp] theorem servo_clocks (s : State) (o : Int) : clocks (servo s o) = clocks s := by simp [servo]

@[simp] theorem lockRun_clocks (s : State) (o : Int) : clocks (lockRun s o) = clocks s := by simp [lockRun]

@[simp] theorem regenerate_clocks (s : State) (n : Nat) (f : Nat) : clocks (regenerate s n f) = clocks s := by
  simp [regenerate]

@[simp] theorem resumeQuiet_clocks (s : State) : clocks (resumeQuiet s) = clocks s := by simp [resumeQuiet]

@[simp] theorem beaconTake_clocks (s : State) (n : Nat) (f : Nat) (fits : List Nat) :
    clocks (beaconTake s n f fits) = clocks s := by
  simp [beaconTake]

@[simp] theorem beaconRefuse_clocks (s : State) : clocks (beaconRefuse s) = clocks s := by simp [beaconRefuse]

@[simp] theorem stkRx_clocks (s : State) (ws : List Word) (chk : Word) (whole : Bool) :
    clocks (stkRx s ws chk whole) = clocks s := by
  simp [stkRx]

@[simp] theorem catchCrew_clocks (s : State) (k : CrewN) : clocks (catchCrew s k) = clocks s := by simp [catchCrew]

@[simp] theorem catchAll_clocks (s : State) (crews : BitVec 8) : clocks (catchAll s crews) = clocks s := by
  simp [catchAll]

@[simp] theorem timeMoved_clocks (old : Nat) (s : State) : clocks (timeMoved old s) = clocks s := by simp [timeMoved]

@[simp] theorem holdoverExpiry_clocks (s : State) : clocks (holdoverExpiry s) = clocks s := by simp [holdoverExpiry]

@[simp] theorem latchTime_clocks (s : State) (p : Path) : clocks (latchTime s p) = clocks s := by simp [latchTime]

@[simp] theorem crewPut_clocks (s : State) (k : CrewN) (new : Crew) : clocks (crewPut s k new) = clocks s := by
  simp [crewPut]

@[simp] theorem crewSet_clocks (s : State) (k : CrewN) (m0 : Word) (m1 : Word) (ofs : Word) (ctrl : Word) :
    clocks (crewSet s k m0 m1 ofs ctrl) = clocks s := by
  simp [crewSet]

/-! ### Machine/Command -/

@[simp] theorem cmdAsk_clocks (s : State) (d : DomN) : clocks (cmdAsk s d) = clocks s := by simp [cmdAsk]

@[simp] theorem finishCmd_clocks (s : State) (d : DomN) (c : Cmd) (status : Nat) (r4 : Word) (r5 : Word) :
    clocks (finishCmd s d c status r4 r5) = clocks s := by
  simp [finishCmd]

@[simp] theorem endCmd_clocks (s : State) (d : DomN) (c : Cmd) (status : Nat) (f : State → State) (r4 : Word)
    (hf : ∀ a, clocks (f a) = clocks a) :
    clocks (endCmd s d c status f r4) = clocks s := by
  unfold endCmd; (repeat' split) <;> simp [*]

@[simp] theorem dataCmd_clocks (s : State) (d : DomN) (c : Cmd) (status : Nat) (ws : List Word) (r4 : Nat) :
    clocks (dataCmd s d c status ws r4) = clocks s := by
  simp [dataCmd]

@[simp] theorem deny_clocks (s : State) (d : DomN) (r : Nat) : clocks (deny s d r) = clocks s := by simp [deny]

@[simp] theorem cmdNop_clocks (s : State) (d : DomN) (c : Cmd) : clocks (cmdNop s d c) = clocks s := by simp [cmdNop]

@[simp] theorem ringSet_clocks (s : State) (c : Cmd) : clocks (ringSet s c) = clocks s := by simp [ringSet]

@[simp] theorem cmdRingSet_clocks (s : State) (d : DomN) (c : Cmd) : clocks (cmdRingSet s d c) = clocks s := by
  simp [cmdRingSet]

@[simp] theorem dropEpReqs_clocks (s : State) (k : EpN) : clocks (dropEpReqs s k) = clocks s := by
  unfold dropEpReqs; split <;> simp

@[simp] theorem ringStop_clocks (s : State) (k : EpN) : clocks (ringStop s k) = clocks s := by simp [ringStop]

@[simp] theorem cmdRingStop_clocks (s : State) (d : DomN) (c : Cmd) : clocks (cmdRingStop s d c) = clocks s := by
  simp [cmdRingStop]

@[simp] theorem epHalt_clocks (s : State) (k : EpN) (v : Bool) : clocks (epHalt s k v) = clocks s := by simp [epHalt]

@[simp] theorem cmdEpHalt_clocks (s : State) (d : DomN) (c : Cmd) : clocks (cmdEpHalt s d c) = clocks s := by
  simp [cmdEpHalt]

@[simp] theorem cmdPortPower_clocks (s : State) (d : DomN) (c : Cmd) : clocks (cmdPortPower s d c) = clocks s := by
  simp [cmdPortPower]

@[simp] theorem cmdSetBudget_clocks (s : State) (d : DomN) (c : Cmd) : clocks (cmdSetBudget s d c) = clocks s := by
  simp [cmdSetBudget]

@[simp] theorem cmdPpsLimit_clocks (s : State) (d : DomN) (c : Cmd) : clocks (cmdPpsLimit s d c) = clocks s := by
  simp [cmdPpsLimit]

@[simp] theorem snapWait_clocks (s : State) (d : DomN) (c : Cmd) : clocks (snapWait s d c) = clocks s := by
  simp [snapWait]

@[simp] theorem cmdMeterSnap_clocks (s : State) (d : DomN) (c : Cmd) : clocks (cmdMeterSnap s d c) = clocks s := by
  simp [cmdMeterSnap]

@[simp] theorem cmdMeterRead_clocks (s : State) (d : DomN) (c : Cmd) : clocks (cmdMeterRead s d c) = clocks s := by
  simp [cmdMeterRead]

@[simp] theorem cmdCrewSet_clocks (s : State) (d : DomN) (c : Cmd) : clocks (cmdCrewSet s d c) = clocks s := by
  simp [cmdCrewSet]

@[simp] theorem pinWrite_clocks (s : State) (i : Fin 4) (v : Word) : clocks (pinWrite s i v) = clocks s := by
  simp [pinWrite]

@[simp] theorem cmdCatchPin_clocks (s : State) (d : DomN) (c : Cmd) : clocks (cmdCatchPin s d c) = clocks s := by
  simp [cmdCatchPin]

@[simp] theorem cmdLogRead_clocks (s : State) (d : DomN) (c : Cmd) : clocks (cmdLogRead s d c) = clocks s := by
  simp [cmdLogRead]

@[simp] theorem cmdPortStatus_clocks (s : State) (d : DomN) (c : Cmd) : clocks (cmdPortStatus s d c) = clocks s := by
  simp [cmdPortStatus]

@[simp] theorem cmdNodeInfo_clocks (s : State) (d : DomN) (c : Cmd) : clocks (cmdNodeInfo s d c) = clocks s := by
  simp [cmdNodeInfo]

@[simp] theorem skipBad_clocks (s : State) (d : DomN) : clocks (skipBad s d) = clocks s := by
  unfold skipBad; split <;> simp

@[simp] theorem cmdGoOn_clocks (s : State) (d : DomN) : clocks (cmdGoOn s d) = clocks s := by simp [cmdGoOn]

@[simp] theorem runCmd_clocks (op : Nat) (f : State → DomN → Cmd → State) (d : DomN) (s : State)
    (hf : ∀ a0 a1 a2, clocks (f a0 a1 a2) = clocks a0) :
    clocks (runCmd op f d s) = clocks s := by
  unfold runCmd; (repeat' split) <;> simp [*]

@[simp] theorem cmdDataDone_clocks (s : State) (d : DomN) : clocks (cmdDataDone s d) = clocks s := by
  unfold cmdDataDone; split <;> simp

@[simp] theorem snapWaiters_clocks (s : State) : clocks (snapWaiters s) = clocks s := by
  unfold snapWaiters
  rw [forEach_clocks _ _ _ fun a d => by split <;> simp]
  simp

@[simp] theorem afterEntry_clocks (s : State) (d : DomN) (q : EvQ) : clocks (afterEntry s d q) = clocks s := by
  simp [afterEntry]

@[simp] theorem entryDone_clocks (s : State) (d : DomN) (q : EvQ) (rest : List EvQ) :
    clocks (entryDone s d q rest) = clocks s := by
  simp [entryDone]

@[simp] theorem eventWrite_clocks (s : State) (d : DomN) : clocks (eventWrite s d) = clocks s := by
  unfold eventWrite; split <;> simp

/-! ### Machine/Pcie -/

@[simp] theorem sendErr_clocks (s : State) (d : DomN) (m : Option ErrMsg) : clocks (sendErr s d m) = clocks s := by
  unfold sendErr; split <;> simp

@[simp] theorem aerLog_clocks (s : State) (d : DomN) (b : Nat) (advisory : Bool) :
    clocks (aerLog s d b advisory) = clocks s := by
  simp [aerLog]

@[simp] theorem unexpected_clocks (s : State) : clocks (unexpected s) = clocks s := by simp [unexpected]

@[simp] theorem aerCorLog_clocks (s : State) (b : Nat) : clocks (aerCorLog s b) = clocks s := by simp [aerCorLog]

@[simp] theorem linkError_clocks (s : State) (x0 : LinkErr) : clocks (linkError s x0) = clocks s := by
  unfold linkError; split <;> simp

@[simp] theorem unsupported_clocks (s : State) (d : DomN) : clocks (unsupported s d) = clocks s := by
  simp [unsupported]

@[simp] theorem winRefuse_clocks (s : State) (d : DomN) (read : Bool) : clocks (winRefuse s d read) = clocks s := by
  simp [winRefuse]

@[simp] theorem onWindow_clocks (s : State) (d : DomN) (read : Bool) (f : State → State)
    (h : clocks (f s) = clocks s) :
    clocks (onWindow s d read f) = clocks s := by
  unfold onWindow; (repeat' split) <;> simp [*]

@[simp] theorem refuseRequest_clocks (s : State) (d : DomN) (x0 : BadRequest) :
    clocks (refuseRequest s d x0) = clocks s := by
  unfold refuseRequest; split <;> simp

@[simp] theorem onCfg_clocks (d : DomN) (f : State → State) (s : State) (hf : ∀ a0, clocks (f a0) = clocks a0) :
    clocks (onCfg d f s) = clocks s := by
  unfold onCfg; (repeat' split) <;> simp [*]

@[simp] theorem abandonSave_clocks (s : State) : clocks (abandonSave s) = clocks s := by simp [abandonSave]

@[simp] theorem hmaClear_clocks (s : State) : clocks (hmaClear s) = clocks s := by simp [hmaClear]

@[simp] theorem pcieReset_clocks (s : State) (sticky : Bool) (cause : Nat) (w : Nat) :
    clocks (pcieReset s sticky cause w) = clocks s := by
  simp [pcieReset]

@[simp] theorem perstFall_clocks (s : State) : clocks (perstFall s) = clocks s := by simp [perstFall]

@[simp] theorem vfsGone_clocks (s : State) (cause : Nat) : clocks (vfsGone s cause) = clocks s := by simp [vfsGone]

@[simp] theorem flrPf_clocks (s : State) : clocks (flrPf s) = clocks s := by simp [flrPf]

@[simp] theorem flrVf_clocks (s : State) (d : DomN) : clocks (flrVf s d) = clocks s := by simp [flrVf]

@[simp] theorem d3Enter_clocks (s : State) (d : DomN) : clocks (d3Enter s d) = clocks s := by simp [d3Enter]

@[simp] theorem d0Return_clocks (s : State) (d : DomN) : clocks (d0Return s d) = clocks s := by simp [d0Return]

@[simp] theorem pmeClear_clocks (s : State) (d : DomN) : clocks (pmeClear s d) = clocks s := by simp [pmeClear]

@[simp] theorem fnWrite_clocks (s : State) (d : DomN) (field : CfgField) (v : BitVec 64) :
    clocks (fnWrite s d field v) = clocks s := by
  unfold fnWrite; split <;> simp

@[simp] theorem pfWrite_clocks (s : State) (field : CfgField) (v : BitVec 64) :
    clocks (pfWrite s field v) = clocks s := by
  unfold pfWrite; split <;> simp

@[simp] theorem cfgWrite_clocks (s : State) (d : DomN) (field : CfgField) (v : BitVec 64) :
    clocks (cfgWrite s d field v) = clocks s := by
  simp [cfgWrite]

/-! ### Machine/Doorbell -/

@[simp] theorem reask_clocks (s : State) (d : DomN) : clocks (reask s d) = clocks s := by simp [reask]

@[simp] theorem noteAsked_clocks (s : State) (x : ReadOut) : clocks (noteAsked s x) = clocks s := by
  unfold noteAsked; split <;> simp

@[simp] theorem putRead_clocks (s : State) (x : ReadReq) : clocks (putRead s x) = clocks s := by simp [putRead]

@[simp] theorem afterRead_clocks (s : State) (r : Nat) (q : HReq) : clocks (afterRead s r q) = clocks s := by
  unfold afterRead; split <;> simp

@[simp] theorem grantRead_clocks (s : State) (r : Nat) (q : HReq) : clocks (grantRead s r q) = clocks s := by
  unfold grantRead; split <;> simp

@[simp] theorem issueHeld_clocks (s : State) : clocks (issueHeld s) = clocks s := by
  unfold issueHeld; (repeat' split) <;> simp

@[simp] theorem resumeAside_clocks (f : State → State) (s : State) (h : ∀ a, clocks (f a) = clocks a) :
    clocks (resumeAside f s) = clocks s := by
  simp [resumeAside, *]

@[simp] theorem endRead_clocks (s : State) (x : ReadOut) : clocks (endRead s x) = clocks s := by simp [endRead]

@[simp] theorem askAgain_clocks (s : State) (x0 : ReadUse) : clocks (askAgain s x0) = clocks s := by
  unfold askAgain; split <;> simp

@[simp] theorem onRead_clocks (s : State) (d : DomN) (u : ReadUse) (f : State → ReadOut → State)
    (hf : ∀ a0 a1, clocks (f a0 a1) = clocks a0) :
    clocks (onRead s d u f) = clocks s := by
  unfold onRead; (repeat' split) <;> simp [*]

@[simp] theorem pushWatch_clocks (s : State) (d : DomN) (pre : Bool) : clocks (pushWatch s d pre) = clocks s := by
  simp [pushWatch]

@[simp] theorem cmdNote_clocks (s : State) (d : DomN) (status : Nat) (w4 : Nat) :
    clocks (cmdNote s d status w4) = clocks s := by
  simp [cmdNote]

@[simp] theorem domErrSet_clocks (s : State) (d : DomN) (bits : Word) : clocks (domErrSet s d bits) = clocks s := by
  simp [domErrSet]

@[simp] theorem takeCmdPi_clocks (s : State) (d : DomN) (v : Word) : clocks (takeCmdPi s d v) = clocks s := by
  simp [takeCmdPi]

@[simp] theorem takeEvtCi_clocks (s : State) (d : DomN) (v : Word) : clocks (takeEvtCi s d v) = clocks s := by
  simp [takeEvtCi]

@[simp] theorem stopRing_clocks (s : State) (k : EpN) (status : Nat) : clocks (stopRing s k status) = clocks s := by
  simp [stopRing]

@[simp] theorem takePi_clocks (d : DomN) (pis : List Word) (s : State) (k : EpN) :
    clocks (takePi d pis s k) = clocks s := by
  simp [takePi]

@[simp] theorem pageDone_clocks (s : State) (d : DomN) (cmdPi : Word) (evtCi : Word) (pis : List Word) (pre : Bool) :
    clocks (pageDone s d cmdPi evtCi pis pre) = clocks s := by
  simp [pageDone]

@[simp] theorem cmdsDone_clocks (s : State) (d : DomN) (ws : List W8) : clocks (cmdsDone s d ws) = clocks s := by
  simp [cmdsDone]

@[simp] theorem descsDone_clocks (s : State) (k : EpN) (ws : List W8) : clocks (descsDone s k ws) = clocks s := by
  simp [descsDone]

@[simp] theorem sendDone_clocks (s : State) (k : EpN) (x : ReadOut) (data : List Nat) :
    clocks (sendDone s k x data) = clocks s := by
  unfold sendDone; split <;> simp

@[simp] theorem readOutcome_clocks (s : State) (d : DomN) (x : ReadOut) : clocks (readOutcome s d x) = clocks s := by
  unfold readOutcome; split <;> simp

@[simp] theorem failRead_clocks (s : State) (d : DomN) (x : ReadOut) (timeout : Bool) :
    clocks (failRead s d x timeout) = clocks s := by
  simp [failRead]

/-! ### Machine/Summary -/

@[simp] theorem easyEnd_clocks (s : State) (d : DomN) : clocks (easyEnd s d) = clocks s := by simp [easyEnd]

@[simp] theorem summaryEnd_clocks (s : State) (d : DomN) : clocks (summaryEnd s d) = clocks s := by simp [summaryEnd]

/-! ### Machine/Arbiter -/

@[simp] theorem raiseStarve_clocks (w : Nat) (s : State) (r : Nat) : clocks (raiseStarve w s r) = clocks s := by
  simp [raiseStarve]

@[simp] theorem setHma_clocks (s : State) (a : Arb) : clocks (setHma s a) = clocks s := by simp [setHma]

@[simp] theorem takeReq_clocks (s : State) (r : Nat) (q : HReq) : clocks (takeReq s r q) = clocks s := by
  unfold takeReq; split <;> simp

@[simp] theorem grantWrite_clocks (s : State) (r : Nat) (q : HReq) : clocks (grantWrite s r q) = clocks s := by
  unfold grantWrite; split <;> simp

@[simp] theorem grantReq_clocks (s : State) (r : Nat) : clocks (grantReq s r) = clocks s := by
  unfold grantReq; (repeat' split) <;> simp

@[simp] theorem hmaGrant_clocks (s : State) (win : Nat) : clocks (hmaGrant s win) = clocks s := by simp [hmaGrant]

@[simp] theorem tidyAll_clocks (s : State) : clocks (tidyAll s) = clocks s := by simp [tidyAll]

@[simp] theorem hmaDecide_clocks (s : State) : clocks (hmaDecide s) = clocks s := by
  unfold hmaDecide; dsimp only; (repeat' split) <;> simp

@[simp] theorem setUla_clocks (s : State) (a : Arb) : clocks (setUla s a) = clocks s := by simp [setUla]

@[simp] theorem startUp_clocks (s : State) (r : Nat) (t : TxPkt) : clocks (startUp s r t) = clocks s := by
  simp [startUp]

@[simp] theorem ulaGrant_clocks (s : State) (above : Option Nat) (win : Nat) :
    clocks (ulaGrant s above win) = clocks s := by
  unfold ulaGrant; split <;> simp

@[simp] theorem ulaDecide_clocks (s : State) (above : Option Nat) : clocks (ulaDecide s above) = clocks s := by
  unfold ulaDecide; split <;> simp

@[simp] theorem countRun_clocks (s : State) : clocks (countRun s) = clocks s := by simp [countRun]

@[simp] theorem ulaDecision_clocks (s : State) : clocks (ulaDecision s) = clocks s := by simp [ulaDecision]

@[simp] theorem suspendUp_clocks (s : State) (t : TxPkt) (sent : Nat) : clocks (suspendUp s t sent) = clocks s := by
  simp [suspendUp]

@[simp] theorem preempt_clocks (s : State) (sent : Nat) : clocks (preempt s sent) = clocks s := by
  unfold preempt; split <;> simp

@[simp] theorem resumeUp_clocks (s : State) (t : TxPkt) (w : Nat) : clocks (resumeUp s t w) = clocks s := by
  simp [resumeUp]

@[simp] theorem ulaResume_clocks (s : State) : clocks (ulaResume s) = clocks s := by
  unfold ulaResume; (repeat' split) <;> simp

@[simp] theorem raiseCutoff_clocks (s : State) (w : Nat) (r : Nat) : clocks (raiseCutoff s w r) = clocks s := by
  simp [raiseCutoff]

@[simp] theorem hmaCut_clocks (s : State) (r : Nat) (q : HReq) : clocks (hmaCut s r q) = clocks s := by
  unfold hmaCut; split <;> simp

@[simp] theorem ulaCut_clocks (s : State) (r : Nat) : clocks (ulaCut s r) = clocks s := by simp [ulaCut]

@[simp] theorem holdCutoff_clocks (s : State) (x0 : ArbName) : clocks (holdCutoff s x0) = clocks s := by
  unfold holdCutoff; (repeat' split) <;> simp

@[simp] theorem cutClear_clocks (s : State) (arb : ArbName) (mask : BitVec 32) :
    clocks (cutClear s arb mask) = clocks s := by
  unfold cutClear; split <;> simp

@[simp] theorem qosWrite_clocks (s : State) (d : DomN) (v : Word) : clocks (qosWrite s d v) = clocks s := by
  simp [qosWrite]

/-! ### Machine/Entry -/

@[simp] theorem endLock_clocks (s : State) : clocks (endLock s) = clocks s := by simp [endLock]

@[simp] theorem bankReset_clocks (sel : Word) (s : State) : clocks (bankReset sel s) = clocks s := by simp [bankReset]

@[simp] theorem denyReq_clocks (s : State) (why : Nat) : clocks (denyReq s why) = clocks s := by simp [denyReq]

@[simp] theorem dropReq_clocks (s : State) (stow : Bool) : clocks (dropReq s stow) = clocks s := by simp [dropReq]

/-! ### Machine/Watchdog -/

@[simp] theorem raisePwr_clocks (s : State) : clocks (raisePwr s) = clocks s := by simp [raisePwr]

@[simp] theorem pmeWake_clocks (s : State) : clocks (pmeWake s) = clocks s := by simp [pmeWake]

@[simp] theorem wdtExpire_clocks (s : State) (c : Nat) : clocks (wdtExpire s c) = clocks s := by simp [wdtExpire]

@[simp] theorem serviceJudge_clocks (s : State) (p : Path) (v : Word) : clocks (serviceJudge s p v) = clocks s := by
  simp [serviceJudge]

@[simp] theorem serviceWrite_clocks (s : State) (p : Path) (v : Word) : clocks (serviceWrite s p v) = clocks s := by
  simp [serviceWrite]

@[simp] theorem emergencySave_clocks (s : State) : clocks (emergencySave s) = clocks s := by simp [emergencySave]

/-! ### Machine/Reset -/

@[simp] theorem strapCheck_clocks (s : State) : clocks (strapCheck s) = clocks s := by simp [strapCheck]

/-! ### Machine/BlackBox -/

@[simp] theorem bbArrive_clocks (s : State) : clocks (bbArrive s) = clocks s := by unfold bbArrive; split <;> simp

@[simp] theorem indexWrite_clocks (s : State) (mgPath : Bool) (v0 : Word) :
    clocks (indexWrite s mgPath v0) = clocks s := by
  simp [indexWrite]

@[simp] theorem flashCopied_clocks (s : State) (mgPath : Bool) (e : Option W8) :
    clocks (flashCopied s mgPath e) = clocks s := by
  unfold flashCopied; (repeat' split) <;> simp

@[simp] theorem scanGo_clocks (s : State) : clocks (scanGo s) = clocks s := by simp [scanGo]

@[simp] theorem scanStart_clocks (s : State) : clocks (scanStart s) = clocks s := by simp [scanStart]

@[simp] theorem scanLate_clocks (s : State) : clocks (scanLate s) = clocks s := by simp [scanLate]

/-! ### Machine/Clock -/

@[simp] theorem refTo_clocks (r : Nat) (s : State) : clocks (refTo r s) = clocks s := by simp [refTo]

/-! ### Machine/Flash -/

@[simp] theorem flErr_clocks (s : State) : clocks (flErr s) = clocks s := by simp [flErr]

@[simp] theorem flProt_clocks (s : State) (op : Nat) : clocks (flProt s op) = clocks s := by simp [flProt]

@[simp] theorem flStart_clocks (s : State) (o : FlOp) (op : Nat) (addr : Nat) (n : Nat) :
    clocks (flStart s o op addr n) = clocks s := by
  simp [flStart]

@[simp] theorem flProgram_clocks (s : State) (addr : Nat) (n : Nat) (ws : List Word) :
    clocks (flProgram s addr n ws) = clocks s := by
  simp [flProgram]

@[simp] theorem flErase_clocks (s : State) (op : Nat) (addr : Nat) : clocks (flErase s op addr) = clocks s := by
  simp [flErase]

@[simp] theorem flCarry_clocks (s : State) (ws : List Word) : clocks (flCarry s ws) = clocks s := by
  unfold flCarry; split <;> simp

@[simp] theorem flTake_clocks (s : State) (p : Path) (ws : List Word) : clocks (flTake s p ws) = clocks s := by
  unfold flTake; split <;> simp

@[simp] theorem flWrite_clocks (s : State) (p : Path) (v : Word) : clocks (flWrite s p v) = clocks s := by
  unfold flWrite; (repeat' split) <;> simp

@[simp] theorem flFrame_clocks (s : State) (p : Path) (ws : List Word) : clocks (flFrame s p ws) = clocks s := by
  simp [flFrame]

@[simp] theorem flGate_clocks (s : State) (p : Path) (f : State → State) (hf : ∀ a0, clocks (f a0) = clocks a0) :
    clocks (flGate s p f) = clocks s := by
  unfold flGate; (repeat' split) <;> simp [*]

@[simp] theorem flAbort_clocks (s : State) (p : Path) : clocks (flAbort s p) = clocks s := by
  unfold flAbort; (repeat' split) <;> simp

@[simp] theorem flDone_clocks (s : State) (o : FlOp) (byte : BitVec 8) (fail : Bool) :
    clocks (flDone s o byte fail) = clocks s := by
  simp [flDone]

@[simp] theorem flLeft_clocks (s : State) (o : FlOp) : clocks (flLeft s o) = clocks s := by simp [flLeft]

@[simp] theorem flNote_clocks (s : State) (o : FlOp) (byte : BitVec 8) (fail : Bool) :
    clocks (flNote s o byte fail) = clocks s := by
  simp [flNote]

@[simp] theorem imageStart_clocks (s : State) : clocks (imageStart s) = clocks s := by simp [imageStart]

@[simp] theorem cfgLoadGo_clocks (s : State) : clocks (cfgLoadGo s) = clocks s := by simp [cfgLoadGo]

/-! ### Machine/Queue -/

@[simp] theorem resetRx_clocks (s : State) (n : PortN) : clocks (resetRx s n) = clocks s := by simp [resetRx]

@[simp] theorem resetTx_clocks (s : State) (n : PortN) : clocks (resetTx s n) = clocks s := by simp [resetTx]

@[simp] theorem resetTt_clocks (s : State) : clocks (resetTt s) = clocks s := by simp [resetTt]

@[simp] theorem hostFault_clocks (s : State) (d : DomN) : clocks (hostFault s d) = clocks s := by simp [hostFault]

@[simp] theorem takeQueue_clocks (s : State) (r : Nat) : clocks (takeQueue s r).2 = clocks s := by simp [takeQueue]

@[simp] theorem resetOut_clocks (s : State) (d : DomN) : clocks (resetOut s d) = clocks s := by
  unfold resetOut
  dsimp only
  rw [forEach_clocks _ _ _ fun a q => by split <;> simp]
  simp

@[simp] theorem resetIn_clocks (s : State) (d : DomN) : clocks (resetIn s d) = clocks s := by
  unfold resetIn
  dsimp only
  rw [forEach_clocks _ _ _ fun a q => by split <;> simp]
  simp

@[simp] theorem resetWatch_clocks (s : State) : clocks (resetWatch s) = clocks s := by simp [resetWatch]

@[simp] theorem resetSum_clocks (s : State) : clocks (resetSum s) = clocks s := by simp [resetSum]

@[simp] theorem resetStat_clocks (s : State) : clocks (resetStat s) = clocks s := by
  unfold resetStat
  rw [forEach_clocks _ _ _ fun a d => by split <;> simp]
  simp

@[simp] theorem resetHma_clocks (s : State) (r : Nat) : clocks (resetHma s r) = clocks s := by simp [resetHma]

@[simp] theorem queueEffect_clocks (s : State) (q : Nat) : clocks (queueEffect s q) = clocks s := by
  unfold queueEffect; (repeat' split) <;> simp

@[simp] theorem queueReport_clocks (s : State) (last : Word) : clocks (queueReport s last) = clocks s := by
  simp [queueReport]

@[simp] theorem queueMismatch_clocks (s : State) (q : Nat) (wr : Bool) (rd : Bool) (inj : Bool) :
    clocks (queueMismatch s q wr rd inj) = clocks s := by
  simp [queueMismatch]

@[simp] theorem queueInject_clocks (s : State) (q : Nat) : clocks (queueInject s q) = clocks s := by
  simp [queueInject]

/-! ### Machine/Meter -/

@[simp] theorem senseFault_clocks (s : State) (m : DnN) : clocks (senseFault s m) = clocks s := by simp [senseFault]

@[simp] theorem notePair_clocks (s : State) (m : DnN) (i v : Word) (reg : Bool) :
    clocks (notePair s m i v reg) = clocks s := by
  simp [notePair]

@[simp] theorem takeBias_clocks (s : State) (m : DnN) (inj : Word) : clocks (takeBias s m inj) = clocks s := by
  simp [takeBias]

@[simp] theorem spareEnds_clocks (s : State) (m : DnN) (cur volt : Word) :
    clocks (spareEnds s m cur volt) = clocks s := by
  simp [spareEnds]

@[simp] theorem meterSample_clocks (s : State) (m : DnN) (x0 : Sample) : clocks (meterSample s m x0) = clocks s := by
  unfold meterSample; split <;> simp

@[simp] theorem nextSlot_clocks (s : State) : clocks (nextSlot s) = clocks s := by simp [nextSlot]

@[simp] theorem snapGo_clocks (s : State) : clocks (snapGo s) = clocks s := by simp [snapGo]

@[simp] theorem snapDone_clocks (s : State) : clocks (snapDone s) = clocks s := by unfold snapDone; split <;> simp

/-! ### Machine/Suspend -/

@[simp] theorem upSuspend_clocks (s : State) : clocks (upSuspend s) = clocks s := by simp [upSuspend]

@[simp] theorem suspendPort_clocks (s : State) (n : PortN) : clocks (suspendPort s n) = clocks s := by
  simp [suspendPort]

@[simp] theorem resumePort_clocks (s : State) (n : PortN) : clocks (resumePort s n) = clocks s := by simp [resumePort]

@[simp] theorem featherWrite_clocks (s : State) (n : PortN) (v : Word) : clocks (featherWrite s n v) = clocks s := by
  simp [featherWrite]

@[simp] theorem endUpHold_clocks (s : State) : clocks (endUpHold s) = clocks s := by simp [endUpHold]

@[simp] theorem upBcnFall_clocks (s : State) : clocks (upBcnFall s) = clocks s := by simp [upBcnFall]

@[simp] theorem resumeLater_clocks (s : State) : clocks (resumeLater s) = clocks s := by simp [resumeLater]

@[simp] theorem upSdEnd_clocks (s : State) : clocks (upSdEnd s) = clocks s := by simp [upSdEnd]

@[simp] theorem darken_clocks (s : State) (n : PortN) : clocks (darken s n) = clocks s := by simp [darken]

@[simp] theorem schedDark_clocks (s : State) (n : PortN) : clocks (schedDark s n) = clocks s := by simp [schedDark]

/-! ### Machine/RegPut -/

@[simp] theorem serviceReg_clocks (s : State) (p : Path) (v : Word) : clocks (serviceReg s p v) = clocks s := by
  unfold serviceReg; split <;> simp

@[simp] theorem wdtWrite_clocks (s : State) (p : Path) (v : Word) (r : Reg) :
    clocks (wdtWrite s p v r) = clocks s := by
  simp [wdtWrite]

@[simp] theorem crewWrite_clocks (s : State) (k : CrewN) (v : Word) (x0 : CrewReg) :
    clocks (crewWrite s k v x0) = clocks s := by
  unfold crewWrite; split <;> simp

@[simp] theorem timeWrite_clocks (s : State) (v : Word) (x0 : Reg) : clocks (timeWrite s v x0) = clocks s := by
  unfold timeWrite; split <;> simp

@[simp] theorem arbWrite_clocks (s : State) (p : Path) (n : ArbName) (v : Word) (r : ArbReg) :
    clocks (arbWrite s p n v r) = clocks s := by
  unfold arbWrite; (repeat' split) <;> simp

@[simp] theorem qCtrlWrite_clocks (s : State) (v : Word) : clocks (qCtrlWrite s v) = clocks s := by simp [qCtrlWrite]

@[simp] theorem queWrite_clocks (s : State) (v : Word) (x0 : Reg) : clocks (queWrite s v x0) = clocks s := by
  unfold queWrite; split <;> simp

/-! ### Machine/RegPutB -/

@[simp] theorem portCtrlWrite_clocks (s : State) (n : PortN) (v : Word) :
    clocks (portCtrlWrite s n v) = clocks s := by
  simp [portCtrlWrite]

@[simp] theorem pclassWrite_clocks (s : State) (v : Word) : clocks (pclassWrite s v) = clocks s := by
  simp [pclassWrite]

@[simp] theorem portWrite_clocks (s : State) (n : PortN) (v : Word) (x0 : PortReg) :
    clocks (portWrite s n v x0) = clocks s := by
  unfold portWrite; split <;> simp

@[simp] theorem ppsCtrlWrite_clocks (s : State) (m : DnN) (v : Word) : clocks (ppsCtrlWrite s m v) = clocks s := by
  simp [ppsCtrlWrite]

@[simp] theorem ppsWrite_clocks (s : State) (m : DnN) (v : Word) (x0 : PpsReg) :
    clocks (ppsWrite s m v x0) = clocks s := by
  unfold ppsWrite; split <;> simp

@[simp] theorem ppsGlobWrite_clocks (s : State) (v : Word) (x0 : Reg) : clocks (ppsGlobWrite s v x0) = clocks s := by
  unfold ppsGlobWrite; split <;> simp

@[simp] theorem mtrWrite_clocks (s : State) (v : Word) (x0 : Reg) : clocks (mtrWrite s v x0) = clocks s := by
  unfold mtrWrite; split <;> simp

@[simp] theorem ttWrite_clocks (s : State) (v : Word) (x0 : Reg) : clocks (ttWrite s v x0) = clocks s := by
  unfold ttWrite; split <;> simp

@[simp] theorem lnWrite_clocks (s : State) (v : Word) (x0 : Reg) : clocks (lnWrite s v x0) = clocks s := by
  unfold lnWrite; split <;> simp

@[simp] theorem epCfgWrite_clocks (s : State) (k : EpN) (v : Word) : clocks (epCfgWrite s k v) = clocks s := by
  simp [epCfgWrite]

@[simp] theorem epWrite_clocks (s : State) (p : Path) (k : EpN) (v : Word) (x0 : EpReg) :
    clocks (epWrite s p k v x0) = clocks s := by
  unfold epWrite; split <;> simp

@[simp] theorem guarded_clocks (s : State) (d : DomN) (f : Dom → Dom) : clocks (guarded s d f) = clocks s := by
  simp [guarded]

@[simp] theorem domOwn_clocks (s : State) (d : DomN) (v : Word) (x0 : DomReg) :
    clocks (domOwn s d v x0) = clocks s := by
  unfold domOwn; split <;> simp

@[simp] theorem domPf_clocks (s : State) (d : DomN) (v : Word) (x0 : DomReg) :
    clocks (domPf s d v x0) = clocks s := by
  unfold domPf; split <;> simp

@[simp] theorem domWrite_clocks (s : State) (p : Path) (d : DomN) (v : Word) (r : DomReg) :
    clocks (domWrite s p d v r) = clocks s := by
  unfold domWrite; (repeat' split) <;> simp

@[simp] theorem mcWrite_clocks (s : State) (k : Fin 256) (v : Word) (r : McReg) :
    clocks (mcWrite s k v r) = clocks s := by
  simp [mcWrite]

@[simp] theorem schedWrite_clocks (s : State) (p : PortN) (j : Nat) (v : Word) :
    clocks (schedWrite s p j v) = clocks s := by
  simp [schedWrite]

/-! ### Machine/Regs -/

@[simp] theorem ldMiss_clocks (s : State) : clocks (ldMiss s) = clocks s := by simp [ldMiss]

@[simp] theorem mgSide_clocks (s : State) (x0 : Reg) : clocks (mgSide s x0) = clocks s := by
  unfold mgSide; split <;> simp

@[simp] theorem mgReadWord_clocks (s : State) (addr : Nat) : clocks (mgReadWord s addr) = clocks s := by
  unfold mgReadWord; (repeat' split) <;> simp

@[simp] theorem mgFrame_clocks (s : State) (f : State → State) (hf : ∀ a0, clocks (f a0) = clocks a0) :
    clocks (mgFrame s f) = clocks s := by
  simp [mgFrame, *]

@[simp] theorem mgClear_clocks (s : State) : clocks (mgClear s) = clocks s := by simp [mgClear]

@[simp] theorem countByte_clocks (s : State) : clocks (countByte s) = clocks s := by simp [countByte]

@[simp] theorem readDw_clocks (d : DomN) (x : State × List (BitVec 32)) (off : Nat) :
    clocks (readDw d x off).1 = clocks x.1 := by
  simp [readDw]

@[simp] theorem readDws_clocks (d : DomN) (l : List Nat) (x : State × List (BitVec 32)) :
    clocks (l.foldl (readDw d) x).1 = clocks x.1 := by
  induction l generalizing x with
  | nil => rfl
  | cons i l ih => rw [List.foldl_cons, ih, readDw_clocks]

@[simp] theorem complete_clocks (s : State) (d : DomN) (addr : Nat) (ws : List (BitVec 32)) :
    clocks (complete s d addr ws) = clocks s := by
  simp [complete]

@[simp] theorem bar0Read_clocks (s : State) (d : DomN) (off n : Nat) : clocks (bar0Read s d off n) = clocks s := by
  unfold bar0Read
  (repeat' split) <;> simp

@[simp] theorem bar2Read_clocks (s : State) (off : Nat) (n : Nat) : clocks (bar2Read s off n) = clocks s := by
  simp [bar2Read]

@[simp] theorem configRead_clocks (s : State) (d : DomN) (off : Nat) : clocks (configRead s d off) = clocks s := by
  simp [configRead]

@[simp] theorem timeRead_clocks (s : State) (p : Path) : clocks (timeRead s p) = clocks s := by
  unfold timeRead; split <;> simp

@[simp] theorem hostRead_clocks (s : State) (x0 : HostRead) : clocks (hostRead s x0) = clocks s := by
  unfold hostRead; split <;> simp

/-! ### Machine/Wake -/

@[simp] theorem deliverX_clocks (s : State) (x : XEv) : clocks (deliverX s x) = clocks s := by simp [deliverX]

@[simp] theorem deliverQueue_clocks (s : State) : clocks (deliverQueue s) = clocks s := by simp [deliverQueue]

@[simp] theorem replayWake_clocks (s : State) : clocks (replayWake s) = clocks s := by simp [replayWake]

@[simp] theorem driveDue_clocks (s : State) : clocks (driveDue s) = clocks s := by simp [driveDue]

@[simp] theorem drainBb_clocks (s : State) : clocks (drainBb s) = clocks s := by simp [drainBb]

@[simp] theorem suspAll_clocks (s : State) : clocks (suspAll s) = clocks s := by simp [suspAll]

@[simp] theorem loadImage_clocks (s : State) : clocks (loadImage s) = clocks s := by simp [loadImage]

@[simp] theorem recordWake_clocks (s : State) : clocks (recordWake s) = clocks s := by simp [recordWake]

@[simp] theorem resumeLeft_clocks (s : State) : clocks (resumeLeft s) = clocks s := by simp [resumeLeft]

@[simp] theorem imageOver_clocks (s : State) : clocks (imageOver s) = clocks s := by simp [imageOver]

@[simp] theorem imageFail_clocks (s : State) (ws : List Word) (why : Nat) :
    clocks (imageFail s ws why) = clocks s := by
  simp [imageFail]

@[simp] theorem sdDrop_clocks (s : State) (n : PortN) : clocks (sdDrop s n) = clocks s := by
  unfold sdDrop; split <;> simp

@[simp] theorem kregHeavy_clocks (s : State) : clocks (kregHeavy s) = clocks s := by simp [kregHeavy]

@[simp] theorem idleFails_clocks (s : State) : clocks (idleFails s) = clocks s := by simp [idleFails]

/-! ### Machine/Hub -/

@[simp] theorem hubReply_clocks (s : State) (r : HubReq) (status : Nat) (odd : Bool) (data : List Word) :
    clocks (hubReply s r status odd data) = clocks s := by
  simp [hubReply]

@[simp] theorem hubDo_clocks (s : State) (r : HubReq) (status : Nat) (f : State → State)
    (hf : ∀ a, clocks (f a) = clocks a) :
    clocks (hubDo s r status f) = clocks s := by
  unfold hubDo; (repeat' split) <;> simp [*]

@[simp] theorem hubGet_clocks (s : State) (r : HubReq) (status : Nat) (bytes : List Nat) :
    clocks (hubGet s r status bytes) = clocks s := by
  simp [hubGet]

@[simp] theorem hubPop_clocks (s : State) : clocks (hubPop s) = clocks s := by simp [hubPop]

@[simp] theorem hubDrain_clocks (n : Nat) (s : State) : clocks (hubDrain n s) = clocks s := by
  induction n generalizing s with
  | zero => rfl
  | succ n ih => unfold hubDrain; split <;> simp [ih]

@[simp] theorem countHubnak_clocks (s : State) : clocks (countHubnak s) = clocks s := by simp [countHubnak]

@[simp] theorem hubPush_clocks (s : State) (r : HubReq) : clocks (hubPush s r) = clocks s := by simp [hubPush]

@[simp] theorem hubPlace_clocks (s : State) (r : HubReq) : clocks (hubPlace s r) = clocks s := by simp [hubPlace]

@[simp] theorem hubArrive_clocks (s : State) (x : Inbox) : clocks (hubArrive s x) = clocks s := by
  unfold hubArrive; (repeat' split) <;> simp

@[simp] theorem onHub_clocks (f : Pkt → Bool) (act : State → HubReq → State) (s : State)
    (h : ∀ a x, clocks (act a x) = clocks a) : clocks (onHub f act s) = clocks s := by
  unfold onHub
  (repeat' split) <;> simp [h]

@[simp] theorem getNodeInfo_clocks (s : State) (r : HubReq) : clocks (getNodeInfo s r) = clocks s := by
  simp [getNodeInfo]

@[simp] theorem getPortStatus_clocks (s : State) (r : HubReq) : clocks (getPortStatus s r) = clocks s := by
  simp [getPortStatus]

@[simp] theorem getMeter_clocks (s : State) (r : HubReq) : clocks (getMeter s r) = clocks s := by simp [getMeter]

@[simp] theorem readLog_clocks (s : State) (r : HubReq) : clocks (readLog s r) = clocks s := by simp [readLog]

@[simp] theorem getSurveyRecord_clocks (s : State) (r : HubReq) : clocks (getSurveyRecord s r) = clocks s := by
  simp [getSurveyRecord]

@[simp] theorem setAddress_clocks (s : State) (r : HubReq) : clocks (setAddress s r) = clocks s := by
  simp [setAddress]

@[simp] theorem driveRst_clocks (arg : Nat) (s : State) (m : DnN) : clocks (driveRst arg s m) = clocks s := by
  simp [driveRst]

@[simp] theorem putFrag_clocks (v : Bool) (s : State) (m : DnN) : clocks (putFrag v s m) = clocks s := by
  simp [putFrag]

@[simp] theorem putFeather_clocks (i : Nat) (v : Bool) (s : State) (m : DnN) :
    clocks (putFeather i v s m) = clocks s := by
  simp [putFeather]

@[simp] theorem setRoute_clocks (s : State) (r : HubReq) : clocks (setRoute s r) = clocks s := by simp [setRoute]

@[simp] theorem setMcast_clocks (s : State) (r : HubReq) : clocks (setMcast s r) = clocks s := by
  unfold setMcast
  rw [hubDo_clocks _ _ _ _ fun a => by simp]

@[simp] theorem setSchedule_clocks (s : State) (r : HubReq) : clocks (setSchedule s r) = clocks s := by
  simp [setSchedule]

@[simp] theorem setCrew_clocks (s : State) (r : HubReq) : clocks (setCrew s r) = clocks s := by simp [setCrew]

@[simp] theorem setPortPower_clocks (s : State) (r : HubReq) : clocks (setPortPower s r) = clocks s := by
  simp [setPortPower]

@[simp] theorem serviceWatchdog_clocks (s : State) (r : HubReq) : clocks (serviceWatchdog s r) = clocks s := by
  simp [serviceWatchdog]

@[simp] theorem setBudget_clocks (s : State) (r : HubReq) : clocks (setBudget s r) = clocks s := by simp [setBudget]

@[simp] theorem bothResets_clocks (s : State) (how : Word) : clocks (bothResets s how) = clocks s := by
  simp [bothResets]

@[simp] theorem treePort_clocks (s : State) (m : DnN) : clocks (treePort s m) = clocks s := by simp [treePort]

@[simp] theorem treeReset_clocks (s : State) : clocks (treeReset s) = clocks s := by simp [treeReset]

@[simp] theorem endRst_clocks (s : State) (m : DnN) : clocks (endRst s m) = clocks s := by simp [endRst]

/-! ### Machine/Idle -/

@[simp] theorem tickCore_clocks (s : State) : clocks (tickCore s) = clocks s := by simp [tickCore]

@[simp] theorem tickTally_clocks (s : State) (n : PortN) : clocks (tickTally s n) = clocks s := by simp [tickTally]

@[simp] theorem tickPorts_clocks (s : State) : clocks (tickPorts s) = clocks s := by simp [tickPorts]

@[simp] theorem tickLpo_clocks (s : State) : clocks (tickLpo s) = clocks s := by simp [tickLpo]

@[simp] theorem tickWdt_clocks (s : State) : clocks (tickWdt s) = clocks s := by simp [tickWdt]

@[simp] theorem tickXin_clocks (s : State) : clocks (tickXin s) = clocks s := by simp [tickXin]

@[simp] theorem idleTick_clocks (s : State) : clocks (idleTick s) = clocks s := by simp [idleTick]

end Sys2Proof.Machine
end

section
/-! SUPPORT. What a command may do to the clocks: they cool, but for a write of CLK_PLAN and the lock of the PLL. -/

namespace Sys2Proof.Machine

open Sys2Proof Sys2Proof.Safety

/-- The Link die runs. -/
def Clocks.runs (c : Clocks) : Bool := decide (c.st = .run) && !c.por && !c.pin

theorem clocks_runs (s : State) : (clocks s).runs = linkOn s := rfl

/-- What a command may do to the clocks.  It gives no lock; a lock does not outlive the run of the Link die; and
CORE is on the PLL afterwards only if it was before, or, where CLK_PLAN may have been written (`w`, or a Link die that
did not run and so met the writes that waited for it), if there was a lock and CORE_SEL is 1. -/
structure Cools (w : Bool) (c d : Clocks) : Prop where
  lock : d.lock = true → c.lock = true
  off : d.lock = true → d.runs = false → c.runs = false
  core : d.core = true → (c.core = true ∧ (d.plan = c.plan ∨ bit d.plan 3 = true)) ∨
    ((w = true ∨ c.runs = false) ∧ c.lock = true ∧ bit d.plan 3 = true)

namespace Cools

variable {w : Bool} {c d e : Clocks}

@[simp] theorem refl (w : Bool) (c : Clocks) : Cools w c c := ⟨id, fun _ => id, fun h => .inl ⟨h, .inl rfl⟩⟩

theorem of_eq (h : d = c) : Cools w c d := h ▸ refl w c

theorem trans (h1 : Cools w c d) (h2 : Cools w d e) : Cools w c e where
  lock h := h1.lock (h2.lock h)
  off h hr := h1.off (h2.lock h) (h2.off h hr)
  core h := by
    obtain ⟨hd, he⟩ | ⟨hw, hl, he⟩ := h2.core h
    · obtain ⟨hc, hp⟩ | ⟨hw, hl, hp⟩ := h1.core hd
      · exact .inl ⟨hc, by obtain he | he := he <;> simp_all⟩
      · exact .inr ⟨hw, hl, by obtain he | he := he <;> simp_all⟩
    · exact .inr ⟨hw.imp_right (h1.off hl), h1.lock hl, he⟩

/-- A PLL without lock, and CORE on FIRC: every reset of the Link die. -/
theorem of_cold (hl : d.lock = false) (hc : d.core = false) : Cools w c d where
  lock h := by simp [hl] at h
  off h := by simp [hl] at h
  core h := by simp [hc] at h

@[simp] theorem cut (w : Bool) (c : Clocks) (st por pin plan) : Cools w c ⟨st, por, pin, false, false, plan⟩ :=
  of_cold rfl rfl

/-- Only where the device stands has changed, and no run of the Link die has ended. -/
theorem of_stand (hr : d.runs = false → c.runs = false) (hl : d.lock = c.lock) (hc : d.core = c.core)
    (hp : d.plan = c.plan) : Cools w c d :=
  ⟨fun h => hl ▸ h, fun _ => hr, fun h => .inl ⟨hc ▸ h, .inl hp⟩⟩

theorem of_run (w : Bool) (c : Clocks) : Cools w c { c with st := .run } :=
  .of_stand (fun h => by simp_all [Clocks.runs]) rfl rfl rfl

/-- A Link die that does not run may meet writes of CLK_PLAN in any case. -/
theorem of_off {v : Bool} (h : Cools v c d) (hr : c.runs = false) : Cools w c d :=
  ⟨h.lock, h.off, fun hd => (h.core hd).imp_right fun ⟨_, x⟩ => ⟨.inr hr, x⟩⟩

/-- An operation on a state whose clocks are those of `s`. -/
theorem after {s t : State} (h : clocks t = clocks s) (ht : Cools w (clocks t) d) : Cools w (clocks s) d := h ▸ ht

theorem mono {v : Bool} (h : Cools v c d) (hv : v = true → w = true) : Cools w c d :=
  ⟨h.lock, h.off, fun hd => (h.core hd).imp_right fun ⟨hw, x⟩ => ⟨hw.imp_left hv, x⟩⟩

end Cools

theorem forEach_cools {α : Type} {w : Bool} (l : List α) (f : State → α → State) (s : State)
    (h : ∀ a, ∀ x ∈ l, Cools w (clocks a) (clocks (f a x))) : Cools w (clocks s) (clocks (forEach l f s)) := by
  induction l generalizing s with
  | nil => exact .refl _ _
  | cons x l ih => exact (h s x (by simp)).trans (ih (f s x) fun a y hy => h a y (by simp [hy]))

theorem whenDo_cools {w : Bool} (g : Bool) (f : State → State) (s : State)
    (h : g = true → Cools w (clocks s) (clocks (f s))) : Cools w (clocks s) (clocks (whenDo g f s)) := by
  unfold whenDo
  split
  · next hg => exact h hg
  · exact .refl _ _

/-! ## The PLL (R21 to R24) -/

/-- The parts of `s` off the links, with `k` for the clock registers. -/
def withClk (s : State) (k : Clk) : OffLinks := { offLinks s with clk := k }

theorem offLinks_clk {s t : State} {k : Clk} (h : offLinks t = withClk s k) : t.clk = k :=
  congrArg OffLinks.clk h

theorem withClk_of_offLinks {s t : State} {k : Clk} (h : offLinks t = withClk s k) (k' : Clk) :
    withClk t k' = withClk s k' := by
  rw [withClk, h]; rfl

/-- A further change of the clock registers alone. -/
theorem offLinks_setClk {s t : State} {k : Clk} (f : Clk → Clk) (h : offLinks t = withClk s k) :
    offLinks { t with clk := f t.clk } = withClk s (f k) := by
  change { offLinks t with clk := f (offLinks t).clk } = _
  rw [h]; rfl

/-- A move of CORE to FIRC changes nothing off the links but what CORE runs on. -/
theorem coreToFirc_offLinks (s : State) : offLinks (coreToFirc s) = withClk s { s.clk with corePll := false } := by
  unfold coreToFirc
  rw [lockKeep_offLinks, forEach_offLinks _ _ _ fun a n => fircPort_offLinks a n]
  rfl

theorem pllDrop_offLinks (s : State) :
    offLinks (pllDrop s) = withClk s { s.clk with pllLock := false, refAct := 0, corePll := false } := by
  unfold pllDrop
  rw [coreToFirc_offLinks]
  rfl

/-- CORE follows CORE_SEL while there is a lock; without one it only leaves the PLL. -/
theorem coreSelect_offLinks (s : State) : offLinks (coreSelect s) =
    withClk s { s.clk with corePll := bit s.clk.plan 3 && (s.clk.corePll || s.clk.pllLock) } := by
  have same (h : (bit s.clk.plan 3 && (s.clk.corePll || s.clk.pllLock)) = s.clk.corePll) : offLinks s =
      withClk s { s.clk with corePll := bit s.clk.plan 3 && (s.clk.corePll || s.clk.pllLock) } := by
    rw [h]; rfl
  unfold coreSelect
  split
  · next hb =>
    split
    · next hl => rw [hb, hl, Bool.or_true]; rfl
    · next hl => exact same (by simp [hb, hl])
  · next hb =>
    split
    · rw [coreToFirc_offLinks, eq_false_of_ne_true hb, Bool.false_and]
    · next hc => exact same (by simp [hb, hc])

/-- The locked PLL has a reference to take: it runs from that one. -/
theorem refFollow_offLinks_of_ref (s : State) (hl : s.clk.pllLock = true) (ht : refTarget s ≠ 0) :
    ∃ fb, offLinks (refFollow s) = withClk s { s.clk with refAct := refTarget s, refFb := fb } := by
  unfold refFollow
  by_cases he : refTarget s = s.clk.refAct
  · exact ⟨s.clk.refFb, by rw [if_pos (by simp [he]), he]; rfl⟩
  · refine ⟨s.clk.refFb || (s.clk.refAct == 2 && fld s.clk.plan 1 2 == 1), ?_⟩
    rw [if_neg (by simp [hl, he]), if_neg ht, lockCheck_offLinks]
    rfl

/-- Following REF_SEL changes the reference alone, or loses the lock. -/
theorem refFollow_offLinks (s : State) :
    (∃ act fb, offLinks (refFollow s) = withClk s { s.clk with refAct := act, refFb := fb }) ∨
    offLinks (refFollow s) = withClk s { s.clk with pllLock := false, refAct := 0, corePll := false } := by
  by_cases hl : s.clk.pllLock = true
  · by_cases ht : refTarget s = 0
    · unfold refFollow
      split
      · exact .inl ⟨_, _, rfl⟩
      · exact .inr (pllDrop_offLinks s)
    · exact .inl ⟨_, refFollow_offLinks_of_ref s hl ht⟩
  · exact .inl ⟨_, _, by rw [refFollow, if_pos (by simp [hl])]; rfl⟩

/-- Following REF_SEL gives no lock, moves CORE only off the PLL, and leaves CLK_PLAN alone. -/
theorem refFollow_clocks (s : State) : clocks (refFollow s) = clocks s ∨
    clocks (refFollow s) = { clocks s with lock := false, core := false } := by
  rw [clocks_of_offLinks (refFollow s)]
  obtain ⟨act, fb, h⟩ | h := refFollow_offLinks s <;> rw [h]
  · exact .inl rfl
  · exact .inr rfl

theorem planPut_plan (v : Word) (c : Clk) : (planPut v c).plan =
    if 2 ≤ fld v 1 2 then (v &&& 0x0019#16) ||| (c.plan &&& 0x0006#16) else v &&& 0x001F#16 := by
  unfold planPut; split <;> rfl

theorem planPut_badPlan (v : Word) (c : Clk) : (planPut v c).badPlan = (c.badPlan || decide (2 ≤ fld v 1 2)) := by
  unfold planPut; split <;> simp [*]

/-- What a write of CLK_PLAN leaves of the other fields. -/
theorem planPut_eq (v : Word) (c : Clk) :
    planPut v c = { c with plan := (planPut v c).plan, badPlan := (planPut v c).badPlan } := by
  unfold planPut; split <;> rfl

/-- EN and CORE_SEL are stored as written. -/
theorem bit_planPut (v : Word) (c : Clk) (i : Nat) (hi : i = 0 ∨ i = 3) : bit (planPut v c).plan i = bit v i := by
  rw [planPut_plan]
  obtain rfl | rfl := hi <;> split <;> simp [bit]

/-- With EN = 0 a write of CLK_PLAN leaves no lock, CORE on FIRC and no fallback due. -/
theorem planWrite_offLinks_of_off (s : State) (v : Word) (h : bit v 0 = false) : ∃ act,
    offLinks (planWrite s v) = withClk s { planPut v s.clk with
      pllLock := false, corePll := false, fbDue := false, refAct := act } := by
  have hb : bit (planPut v s.clk).plan 0 = false := (bit_planPut v s.clk 0 (.inl rfl)).trans h
  unfold planWrite
  rw [if_pos (by simp [hb])]
  split
  · exact ⟨0, offLinks_setClk (fun k => { k with fbDue := false }) (pllDrop_offLinks { s with clk := planPut v s.clk })⟩
  · next hn =>
    have hk : { planPut v s.clk with fbDue := false } = { planPut v s.clk with
        pllLock := false, corePll := false, fbDue := false, refAct := (planPut v s.clk).refAct } := by
      generalize planPut v s.clk = k at hn
      cases k; simp_all
    exact ⟨_, congrArg (withClk s) hk⟩

/-- With EN = 1 the PLL follows REF_SEL, and then CORE follows CORE_SEL. -/
theorem planWrite_offLinks_of_on (s : State) (v : Word) (h : bit v 0 = true) : offLinks (planWrite s v) =
    offLinks (coreSelect (refFollow { s with clk := planPut v s.clk })) := by
  have hb : bit (planPut v s.clk).plan 0 = true := (bit_planPut v s.clk 0 (.inl rfl)).trans h
  unfold planWrite
  rw [if_neg (by simp [hb]), lockCheck_offLinks]

/-- A write of CLK_PLAN stores its fields, and leaves alone what is off the links but for the clock registers. -/
theorem planWrite_offLinks (s : State) (v : Word) : ∃ k, offLinks (planWrite s v) = withClk s k ∧
    k.plan = (planPut v s.clk).plan ∧ k.badPlan = (planPut v s.clk).badPlan := by
  cases h : bit v 0
  · obtain ⟨act, ha⟩ := planWrite_offLinks_of_off s v h
    exact ⟨_, ha, rfl, rfl⟩
  · rw [planWrite_offLinks_of_on s v h, coreSelect_offLinks]
    obtain ⟨act, fb, hf⟩ | hf := refFollow_offLinks { s with clk := planPut v s.clk } <;>
      rw [withClk_of_offLinks hf, offLinks_clk hf] <;> exact ⟨_, rfl, rfl, rfl⟩

/-- What CORE_SEL does to the clocks. -/
theorem coreSelect_clocks (s : State) : clocks (coreSelect s) =
    { clocks s with core := bit (clocks s).plan 3 && ((clocks s).core || (clocks s).lock) } := by
  rw [clocks_of_offLinks (coreSelect s), coreSelect_offLinks]
  rfl

/-- CORE follows a CORE_SEL that was written. -/
theorem Cools.of_select {c d : Clocks} (hr : d.runs = c.runs) (hl : d.lock = true → c.lock = true)
    (hc : d.core = true → bit d.plan 3 = true ∧ (c.core = true ∨ c.lock = true)) : Cools true c d where
  lock := hl
  off _ h := hr ▸ h
  core h := (hc h).2.imp (fun x => ⟨x, .inr (hc h).1⟩) fun x => ⟨.inl rfl, x, (hc h).1⟩

/-- A write of CLK_PLAN gives no lock, and leaves CORE on the PLL only with CORE_SEL = 1, where there was a lock or
CORE was there before. -/
theorem planWrite_cools (s : State) (v : Word) : Cools true (clocks s) (clocks (planWrite s v)) := by
  cases h : bit v 0
  · obtain ⟨act, ha⟩ := planWrite_offLinks_of_off s v h
    rw [clocks_of_offLinks (planWrite s v), ha]
    exact .of_cold rfl rfl
  · have hp : clocks { s with clk := planPut v s.clk } = { clocks s with plan := (planPut v s.clk).plan } := by
      rw [planPut_eq]; rfl
    rw [clocks_of_offLinks (planWrite s v), planWrite_offLinks_of_on s v h, ← clocks_of_offLinks, coreSelect_clocks]
    obtain hf | hf := refFollow_clocks { s with clk := planPut v s.clk } <;> rw [hf, hp]
    · exact .of_select rfl id (by simp)
    · exact .of_select rfl nofun (by simp)

theorem pllDrop_cools {w : Bool} (s : State) : Cools w (clocks s) (clocks (pllDrop s)) := by
  rw [clocks_of_offLinks (pllDrop s), pllDrop_offLinks]
  exact .of_cold rfl rfl

theorem refFallback_cools {w : Bool} (s : State) (xin : Bool) : Cools w (clocks s) (clocks (refFallback s xin)) := by
  unfold refFallback
  dsimp only
  repeat' split
  · rw [lockKeep_clocks]; exact .refl _ _
  · exact pllDrop_cools { s with clk := { s.clk with xinOk := xin } }
  · exact .refl _ _
  · exact .refl _ _

theorem xinLoss_cools {w : Bool} (s : State) : Cools w (clocks s) (clocks (xinLoss s)) := by
  unfold xinLoss
  dsimp only
  split
  · exact pllDrop_cools { s with clk := { s.clk with xinOk := false } }
  · exact .refl _ _

theorem setClockPlan_cools (s : State) (r : HubReq) : Cools true (clocks s) (clocks (setClockPlan s r)) := by
  unfold setClockPlan
  dsimp only
  rw [hubReply_clocks]
  split
  · exact planWrite_cools s _
  · exact .refl _ _

/-- The lock of the PLL: CORE moves only where CORE_SEL is 1. -/
theorem pllLock_clocks (s : State) (xin : Bool) : clocks (pllLock s xin) = clocks s ∨
    clocks (pllLock s xin) = { clocks s with lock := true, core := bit (clocks s).plan 3 } := by
  unfold pllLock
  dsimp only
  split
  · rw [lockCheck_clocks, coreSelect_clocks]
    exact .inr (by simp only [clocks, refTo, Bool.or_true, Bool.and_true])
  · exact .inl rfl

/-! ## Resets and power states -/

/-- Each field as the clocks show it. -/
theorem eq_clocks (s : State) : s.pm.st = (clocks s).st ∧ s.rst.por = (clocks s).por ∧ s.rst.pin = (clocks s).pin ∧
    s.clk.pllLock = (clocks s).lock ∧ s.clk.corePll = (clocks s).core ∧ s.clk.plan = (clocks s).plan :=
  ⟨rfl, rfl, rfl, rfl, rfl, rfl⟩

/-- The Link die's reset leaves no lock, CORE on FIRC and CLK_PLAN clear. -/
@[simp] theorem linkReset_clocks (s : State) (keepPcie : Bool) :
    clocks (linkReset s keepPcie) = { clocks s with lock := false, core := false, plan := 0#16 } := by
  simp only [linkReset, drivePeWake_clocks]
  rfl

@[simp] theorem restartLink_clocks (s : State) (how : Nat) :
    clocks (restartLink s how) = { clocks s with st := .waking } := rfl

@[simp] theorem powerReset_clocks (s : State) (how : Nat) (bb : Bb) :
    clocks (powerReset s how bb) = { clocks s with st := .waking } := rfl

@[simp] theorem cutLink_clocks (s : State) :
    clocks (cutLink s) = { clocks s with st := .waking, lock := false, core := false, plan := 0#16 } := by
  simp [cutLink]

@[simp] theorem softReset_clocks (s : State) :
    clocks (softReset s) = { clocks s with st := .waking, lock := false, core := false, plan := 0#16 } := by
  simp [softReset]

@[simp] theorem watchdogReset_clocks (s : State) :
    clocks (watchdogReset s) = { clocks s with st := .waking, lock := false, core := false, plan := 0#16 } := by
  simp [watchdogReset]

@[simp] theorem pinReset_clocks (s : State) : clocks (pinReset s) =
    { clocks s with st := .waking, pin := true, lock := false, core := false, plan := 0#16 } := by
  simp only [pinReset, powerReset, linkReset, clocks_mk, pmClear]
  rfl

@[simp] theorem pinRise_clocks (s : State) : clocks (pinRise s) = { clocks s with pin := false } := by
  unfold pinRise
  rw [raisePwr_clocks, strapCheck_clocks]
  rfl

@[simp] theorem enterFeather_clocks (s : State) : clocks (enterFeather s) =
    { clocks s with st := .feather, lock := false, core := false, plan := 0#16 } := by
  simp [enterFeather, eq_clocks]

@[simp] theorem enterStow_clocks (s : State) (why : Nat) : clocks (enterStow s why) =
    { clocks s with st := .stow, lock := false, core := false, plan := 0#16 } := by
  simp [enterStow, eq_clocks]

/-! ## Suspends, expiries, pins and supplies -/

@[simp] theorem reqFeather_cools (w : Bool) (s : State) : Cools w (clocks s) (clocks (reqFeather s)) := by
  unfold reqFeather
  (repeat' split) <;> simp

@[simp] theorem reqStow_cools (w : Bool) (s : State) : Cools w (clocks s) (clocks (reqStow s)) := by
  unfold reqStow
  (repeat' split) <;> simp

@[simp] theorem busSuspendReq_cools (w : Bool) (s : State) : Cools w (clocks s) (clocks (busSuspendReq s)) := by
  unfold busSuspendReq
  dsimp only
  split
  · simp
  · rw [denyReq_clocks]; split <;> simp

@[simp] theorem suspendAfresh_cools (w : Bool) (s : State) : Cools w (clocks s) (clocks (suspendAfresh s)) := by
  unfold suspendAfresh
  (repeat' split)
  · exact .refl _ _
  · rw [← drainBb_clocks]; exact busSuspendReq_cools w _
  · exact .refl _ _

@[simp] theorem trySuspend_cools (w : Bool) (s : State) : Cools w (clocks s) (clocks (trySuspend s)) := by
  unfold trySuspend
  split <;> simp

@[simp] theorem idlDone_cools (w : Bool) (s : State) (n : PortN) : Cools w (clocks s) (clocks (idlDone s n)) :=
  trySuspend_cools w (modAon s n _)

@[simp] theorem featherExpiry_cools (w : Bool) (s : State) : Cools w (clocks s) (clocks (featherExpiry s)) := by
  unfold featherExpiry
  (repeat' split) <;> simp

@[simp] theorem stowExpiry_cools (w : Bool) (s : State) : Cools w (clocks s) (clocks (stowExpiry s)) := by
  unfold stowExpiry
  (repeat' split) <;> simp

/-! ## RESET_N, POR and the brown-out -/

/-- A rising RESET_N: the Link die does not run while the pin is low. -/
@[simp] theorem pinRise_cools (w : Bool) (s : State) : Cools w (clocks s) (clocks (pinRise s)) := by
  rw [pinRise_clocks]
  exact .of_stand (fun h => by simp_all [Clocks.runs]) rfl rfl rfl

@[simp] theorem dueReset_cools (w : Bool) (s : State) : Cools w (clocks s) (clocks (dueReset s)) := by
  unfold dueReset
  (repeat' split) <;> simp

@[simp] theorem pinFall_cools (w : Bool) (s : State) : Cools w (clocks s) (clocks (pinFall s)) := by
  unfold pinFall
  split
  · next h => exact .of_stand (fun _ => by simp [Clocks.runs, ← eq_clocks, h]) rfl rfl rfl
  · split <;> simp

@[simp] theorem pinRelease_cools (w : Bool) (s : State) (straps : Word) :
    Cools w (clocks s) (clocks (pinRelease s straps)) := by
  unfold pinRelease
  (repeat' split)
  · next h => exact .of_stand (fun _ => by simp [Clocks.runs, ← eq_clocks, h]) rfl rfl rfl
  · exact .refl _ _
  · exact pinRise_cools w (sampleStraps s straps)
  · exact .refl _ _

@[simp] theorem porFall_cools (w : Bool) (s : State) : Cools w (clocks s) (clocks (porFall s)) := .of_cold rfl rfl

theorem porRise_clocks (s : State) (straps : Word) :
    clocks (porRise s straps) = { clocks s with por := false, st := .waking } := by
  unfold porRise
  dsimp only
  split <;> simp [sampleStraps, sampled, eq_clocks]

theorem porRise_cools (w : Bool) (s : State) (straps : Word) (h : s.rst.por = true) :
    Cools w (clocks s) (clocks (porRise s straps)) := by
  rw [porRise_clocks]
  exact .of_stand (fun _ => by simp [Clocks.runs, ← eq_clocks, h]) rfl rfl rfl

@[simp] theorem brownOut_cools (w : Bool) (s : State) : Cools w (clocks s) (clocks (brownOut s)) := by
  unfold brownOut
  exact .trans (by simp) (dueReset_cools w _)

/-! ## Power failures -/

theorem linkOn_of_not_held (s : State) (h : linkHeld s = false) : linkOn s = false := by
  cases hs : decide (s.pm.st = .run) <;> simp_all [linkHeld, linkOn]

@[simp] theorem corelossStart_cools (w : Bool) (s : State) : Cools w (clocks s) (clocks (corelossStart s)) := by
  simp [corelossStart]

/-- A power-up that fails, while the Link die does not run. -/
theorem powerUpFail_cools (w : Bool) (s : State) (h : linkOn s = false) :
    Cools w (clocks s) (clocks (powerUpFail s)) := by
  have hs : ∃ st, clocks (powerUpFail s) = { clocks s with st := st } := by
    unfold powerUpFail powerUpStop
    dsimp only
    (repeat' split) <;> exact ⟨_, by simp [eq_clocks]; rfl⟩
  obtain ⟨st, hs⟩ := hs
  rw [hs]
  exact .of_stand (fun _ => h) rfl rfl rfl

theorem supplyBack_clocks (s : State) :
    clocks (supplyBack s) = { clocks (whenDo (linkHeld s) cutLink s) with st := .waking } := by
  simp [supplyBack, eq_clocks]

@[simp] theorem supplyBack_cools (w : Bool) (s : State) : Cools w (clocks s) (clocks (supplyBack s)) := by
  rw [supplyBack_clocks]
  cases h : linkHeld s
  · exact .of_stand (fun _ => linkOn_of_not_held s h) rfl rfl rfl
  · simp

/-! ## The flush -/

@[simp] theorem flushCut_cools (w : Bool) (s : State) : Cools w (clocks s) (clocks (flushCut s)) := by
  unfold flushCut
  split <;> simp [eq_clocks]

@[simp] theorem flushGo_cools (w : Bool) (s : State) (f : Flush) (held : Option FlOp) :
    Cools w (clocks s) (clocks (flushGo s f held)) := by
  unfold flushGo
  rw [emit_clocks, clocks_ite]
  split
  · exact .refl _ _
  · exact .after (by simp) (flushCut_cools w _)

@[simp] theorem kregUp_st (p : Pm) : (kregUp p).st = p.st := rfl

@[simp] theorem flushBegin_cools (w : Bool) (s : State) (c : FlushCause) :
    Cools w (clocks s) (clocks (flushBegin s c)) := by
  unfold flushBegin
  dsimp only
  (repeat' split)
  · simp
  · simp
  · exact .after (by simp) (flushGo_cools w _ _ _)

@[simp] theorem flushTrigger_cools (w : Bool) (s : State) (c : FlushCause) :
    Cools w (clocks s) (clocks (flushTrigger s c)) := by
  unfold flushTrigger
  (repeat' split) <;> simp

@[simp] theorem flushPins_cools (w : Bool) (s : State) (held : Option FlOp) :
    Cools w (clocks s) (clocks (flushPins s held)) := by
  unfold flushPins
  (repeat' split) <;> simp

@[simp] theorem flushEnd_cools (w : Bool) (s : State) (f : Flush) : Cools w (clocks s) (clocks (flushEnd s f)) := by
  unfold flushEnd
  exact .after (by simp) (dueReset_cools w _)

@[simp] theorem flashPageDone_cools (w : Bool) (s : State) : Cools w (clocks s) (clocks (flashPageDone s)) := by
  unfold flashPageDone
  dsimp only
  (repeat' split) <;> simp

@[simp] theorem flOpDone_cools (w : Bool) (s : State) (byte : BitVec 8) (fail : Bool) :
    Cools w (clocks s) (clocks (flOpDone s byte fail)) := by
  unfold flOpDone
  (repeat' split)
  · exact .refl _ _
  · exact .refl _ _
  · exact .after (flNote_clocks _ _ _ _) (flushPins_cools w _ _)

/-! ## Register writes -/

@[simp] theorem bbCtrlWrite_cools (w : Bool) (s : State) (v : Word) :
    Cools w (clocks s) (clocks (bbCtrlWrite s v)) := by
  unfold bbCtrlWrite
  dsimp only
  have h2 (b : Bool) (bb : Bb) :
      clocks (if b then scanStart { s with bb := bb } else { s with bb := bb }) = clocks s := by
    split <;> simp
  split
  · exact .after (h2 _ _) (flushTrigger_cools w _ _)
  · exact .of_eq (h2 _ _)

@[simp] theorem bbWrite_cools (w : Bool) (s : State) (p : Path) (v : Word) (r : Reg) :
    Cools w (clocks s) (clocks (bbWrite s p v r)) := by
  unfold bbWrite
  split <;> simp

@[simp] theorem gctrlWrite_cools (w : Bool) (s : State) (p : Path) (v : Word) :
    Cools w (clocks s) (clocks (gctrlWrite s p v)) := by
  unfold gctrlWrite
  dsimp only
  split
  · split
    · simp
    · exact .of_eq (by simp)
  · exact .refl _ _

@[simp] theorem pmCtrlWrite_cools (w : Bool) (s : State) (v : Word) :
    Cools w (clocks s) (clocks (pmCtrlWrite s v)) := by
  unfold pmCtrlWrite
  dsimp only
  split
  · exact .after (by simp) (reqFeather_cools w _)
  · exact .after (by simp) (reqStow_cools w _)
  · exact .refl _ _

@[simp] theorem pmWrite_cools (w : Bool) (s : State) (v : Word) (r : Reg) :
    Cools w (clocks s) (clocks (pmWrite s v r)) := by
  unfold pmWrite
  split
  · exact pmCtrlWrite_cools w s v
  · have h : (pmPut v s.pm r).st = s.pm.st := by unfold pmPut; split <;> rfl
    simp [h]

/-- A write of a register of GLOBAL moves CORE to the PLL only as a write of CLK_PLAN. -/
@[simp] theorem globWrite_cools (s : State) (p : Path) (v : Word) (r : Reg) :
    Cools (decide (r = .clkPlan)) (clocks s) (clocks (globWrite s p v r)) := by
  unfold globWrite
  split
  case h_4 => exact planWrite_cools s v
  all_goals simp

/-- A register write moves CORE to the PLL only as a write of CLK_PLAN. -/
theorem writeReg_cools (s : State) (p : Path) (v : Word) (r : Reg) :
    Cools (decide (r = .clkPlan)) (clocks s) (clocks (writeReg s p v r)) := by
  cases r with
  | arb n x => exact .of_eq (arbWrite_clocks s p n v x)
  | ulaPreempt => exact .refl _ _
  | port n x => exact .of_eq (portWrite_clocks s n v x)
  | pps m x => exact .of_eq (ppsWrite_clocks s m v x)
  | ep k x => exact .of_eq (epWrite_clocks s p k v x)
  | dom d x => exact .of_eq (domWrite_clocks s p d v x)
  | mc k x => exact .of_eq (mcWrite_clocks s k v x)
  | sched n j => exact .of_eq (schedWrite_clocks s n j.val v)
  | pmCtrl | pmStat | featherIdle | stowIdle | retSel | wakeEn | wakePol | wakeEdge | wakeMode | kregCtrl | kregStat
    | pwrSeq => exact pmWrite_cools _ s v _
  | wdtCtrl | wdtPeriod | wdtWindow | wdtGrace | wdtService | wdtKey | wdtStat => exact .of_eq (wdtWrite_clocks s p v _)
  | bbCtrl | bbTrig0 | bbTrig1 | bbPost | bbIndex | bbFlash | bbFlashStat | flCtrl | flStat =>
    exact bbWrite_cools _ s p v _
  | crew | tbCtrl | tbStat | tbSlew | catchPin | prestroke => exact .of_eq (timeWrite_clocks s v _)
  | qCtrl | qErr | evfCtrl | evfStat => exact .of_eq (queWrite_clocks s v _)
  | ppsBudget | ppsGang | ppsGstat => exact .of_eq (ppsGlobWrite_clocks s v _)
  | mtrCtrl | mtrStat | mtrSnap => exact .of_eq (mtrWrite_clocks s v _)
  | ttCtrl | ttTmo => exact .of_eq (ttWrite_clocks s v _)
  | lnCtrl | lnUid | lnClass => exact .of_eq (lnWrite_clocks s v _)
  | _ => exact globWrite_cools s p v _

/-! ## Where CLK_PLAN lies: in GLOBAL, and in no other block of PF BAR0 -/

theorem globAt_clkPlan (a : Nat) (h : globAt a = some .clkPlan) : a = 10 := by
  unfold globAt at h
  split at h <;> simp at h ⊢

@[simp] theorem pmAt_ne_clkPlan (i : Nat) : pmAt i ≠ some .clkPlan := by
  unfold pmAt; split <;> simp

@[simp] theorem wdtAt_ne_clkPlan (i : Nat) : wdtAt i ≠ some .clkPlan := by
  unfold wdtAt; split <;> simp

@[simp] theorem bbAt_ne_clkPlan (i : Nat) : bbAt i ≠ some .clkPlan := by
  unfold bbAt; split <;> simp

@[simp] theorem crewAt_ne_clkPlan (c : CrewN) (i : Nat) : crewAt c i ≠ some .clkPlan := by
  unfold crewAt; split <;> simp

@[simp] theorem arbHead_ne_clkPlan (a : ArbName) (i : Nat) : arbHead a i ≠ some .clkPlan := by
  unfold arbHead; split <;> simp

@[simp] theorem arbBits_ne_clkPlan (a : ArbName) (i : Nat) : arbBits a i ≠ some .clkPlan := by
  unfold arbBits; split <;> simp

@[simp] theorem arbList_ne_clkPlan (a : ArbName) (f : Fin 28 → ArbReg) (i : Nat) : arbList a f i ≠ some .clkPlan := by
  unfold arbList; split <;> simp

@[simp] theorem queAt_ne_clkPlan (i : Nat) : queAt i ≠ some .clkPlan := by
  unfold queAt; split <;> simp

@[simp] theorem portAt_ne_clkPlan (n : PortN) (i : Nat) : portAt n i ≠ some .clkPlan := by
  unfold portAt; split <;> simp

@[simp] theorem ppsAt_ne_clkPlan (m : DnN) (i : Nat) : ppsAt m i ≠ some .clkPlan := by
  unfold ppsAt; split <;> simp

@[simp] theorem ppsGlobAt_ne_clkPlan (i : Nat) : ppsGlobAt i ≠ some .clkPlan := by
  unfold ppsGlobAt; split <;> simp

@[simp] theorem mtrGlobAt_ne_clkPlan (i : Nat) : mtrGlobAt i ≠ some .clkPlan := by
  unfold mtrGlobAt; split <;> simp

@[simp] theorem mtrAt_ne_clkPlan (m : DnN) (i : Nat) : mtrAt m i ≠ some .clkPlan := by
  unfold mtrAt; split <;> simp

@[simp] theorem ttAt_ne_clkPlan (i : Nat) : ttAt i ≠ some .clkPlan := by
  unfold ttAt; split <;> simp

@[simp] theorem lnAt_ne_clkPlan (i : Nat) : lnAt i ≠ some .clkPlan := by
  unfold lnAt; split <;> simp

@[simp] theorem epAt_ne_clkPlan (k : EpN) (i : Nat) : epAt k i ≠ some .clkPlan := by
  unfold epAt; split <;> simp

@[simp] theorem mcAt_ne_clkPlan (k : Fin 256) (i : Nat) : mcAt k i ≠ some .clkPlan := by
  unfold mcAt; split <;> simp

@[simp] theorem timeAt_ne_clkPlan (i : Nat) : timeAt i ≠ some .clkPlan := by
  unfold timeAt
  split <;> simp [Option.bind_eq_some_iff]

@[simp] theorem hmaAt_ne_clkPlan (i : Nat) : hmaAt i ≠ some .clkPlan := by
  unfold hmaAt
  (repeat' split) <;> simp

@[simp] theorem ulaAt_ne_clkPlan (i : Nat) : ulaAt i ≠ some .clkPlan := by
  unfold ulaAt
  (repeat' split) <;> simp

/-- CLK_PLAN is word 10 of PF BAR0, and no other word. -/
theorem regAtWord_clkPlan (a : Nat) (h : regAtWord a = some .clkPlan) : a = 10 := by
  by_cases ha : a < 0x100
  · rw [regAtWord, if_pos ha] at h
    exact globAt_clkPlan a h
  · refine absurd h ?_
    rw [regAtWord, if_neg ha]
    repeat' with_reducible refine iteInduction (motive := fun r => r ≠ some Reg.clkPlan) (fun _ => ?_) (fun _ => ?_)
    all_goals simp [Option.bind_eq_some_iff]

/-- No VF's window shows CLK_PLAN. -/
theorem regAtVf_ne_clkPlan (d : DomN) (off : Nat) : regAtVf d off ≠ some .clkPlan := by
  unfold regAtVf
  split
  · simp
  · split
    · simp
    · split <;> simp

/-- A path that shows CLK_PLAN at a word of its window shows it at word 10. -/
theorem regAt_clkPlan (p : Path) (off : Nat) (h : regAt p off = some .clkPlan) : off / 4 = 10 := by
  cases p with
  | vf d => exact absurd h (regAtVf_ne_clkPlan _ _)
  | _ =>
    simp only [regAt, regAtPf] at h
    split at h
    · exact regAtWord_clkPlan _ h
    · cases h

/-! ## The paths of a write -/

section

variable {w : Bool}

theorem mgWord_cools (s : State) (addr : Nat) (v : Word) (h : addr = 10 → w = true) :
    Cools w (clocks s) (clocks (mgWord s addr v)) := by
  unfold mgWord
  split
  · exact .refl _ _
  · split
    · exact .of_eq (ldMiss_clocks s)
    · split
      · next r hr =>
        refine (writeReg_cools s .mg v r).mono fun he => h ?_
        rw [of_decide_eq_true he, mgReg] at hr
        split at hr
        · exact regAtWord_clkPlan _ hr
        · cases hr
      · exact .refl _ _

/-- A management write that leaves word 10 alone, or may write CLK_PLAN. -/
theorem mgWrite_cools (s : State) (addr : Nat) (ws : List Word) (h : ∀ x ∈ burst addr ws, x.1 = 10 → w = true) :
    Cools w (clocks s) (clocks (mgWrite s addr ws)) := by
  have hs := forEach_cools (burst addr ws) (fun a x => mgWord a x.1 x.2) s fun a x hx => mgWord_cools a x.1 x.2 (h x hx)
  unfold mgWrite
  dsimp only
  split
  · exact hs
  · exact hs

theorem mgWrite_one_cools (s : State) (addr : Nat) (v : Word) (h : addr % 65536 = 10 → w = true) :
    Cools w (clocks s) (clocks (mgWrite s addr [v])) := by
  refine mgWrite_cools s addr [v] fun x hx => ?_
  simp only [burst, List.zipIdx_cons, List.zipIdx_nil, List.map_cons, List.map_nil, List.mem_singleton] at hx
  exact hx ▸ h

theorem dwWrite_cools (s : State) (p : Path) (d : DomN) (off : Nat) (be : ByteEn) (v : BitVec 32)
    (h : off / 4 = 10 → w = true) : Cools w (clocks s) (clocks (dwWrite s p d off be v)) := by
  have key (r : Reg) (hr : regAt p off = some r) : Cools w (clocks s) (clocks (writeReg s p (v.setWidth 16) r)) :=
    (writeReg_cools s p _ r).mono fun he => h (regAt_clkPlan p off (of_decide_eq_true he ▸ hr))
  unfold dwWrite
  split
  · split <;> simp
  · split
    · split <;> simp
    · split
      · next r hr => exact key r hr
      · next r hr => exact key r hr
      · simp
      · exact .refl _ _

theorem hostDw_cools (s : State) (p : Path) (d : DomN) (off : Nat) (be : ByteEn) (v : BitVec 32)
    (h : off / 4 = 10 → w = true) : Cools w (clocks s) (clocks (hostDw s p d off be v)) := by
  unfold hostDw
  split
  · exact .refl _ _
  · split
    · exact dwWrite_cools s p d _ be v fun he => h (by omega)
    · exact .of_eq (winRefuse_clocks _ _ _)

theorem innerWrite_cools (s : State) (p : Path) (off : Nat) (v : Word) (h : off / 4 = 10 → w = true) :
    Cools w (clocks s) (clocks (innerWrite s p off v)) := by
  unfold innerWrite
  split
  · split
    · next r hr =>
      exact (writeReg_cools s p v r).mono fun he => h (regAt_clkPlan p off (of_decide_eq_true he ▸ hr))
    · exact .refl _ _
  · exact .refl _ _

/-- A write moves CORE to the PLL only at the word of CLK_PLAN. -/
theorem pathWrite_cools (s : State) (p : Path) (off : Nat) (v : Word) (h : off / 4 % 65536 = 10 → w = true) :
    Cools w (clocks s) (clocks (pathWrite s p off v)) := by
  cases p with
  | pf => exact hostDw_cools s _ _ _ _ _ fun he => h (by omega)
  | vf d => exact hostDw_cools s _ _ _ _ _ fun he => h (by omega)
  | mg => exact mgWrite_one_cools s _ v h
  | restore => exact .refl _ _
  | _ => exact innerWrite_cools s _ off v fun he => h (by omega)

end

/-! ## Writes of the host, images, and what ends a sleep -/

theorem registerDw_cools (s : State) (p : Path) (off : Nat) (be : ByteEn) (v : BitVec 32) :
    Cools true (clocks s) (clocks (registerDw s p off be v)) := by
  unfold registerDw
  split
  · exact hostDw_cools _ _ _ _ _ _ fun _ => rfl
  · exact hostDw_cools _ _ _ _ _ _ fun _ => rfl
  · split
    · exact pathWrite_cools _ _ _ _ fun _ => rfl
    · exact .refl _ _

theorem registerWrite_cools (s : State) (p : Path) (off : Nat) (dws : List (ByteEn × BitVec 32)) :
    Cools true (clocks s) (clocks (registerWrite s p off dws)) :=
  forEach_cools _ _ s fun a _ _ => registerDw_cools a _ _ _ _

/-- A write of a single byte changes no register (R192). -/
@[simp] theorem registerDw_one_clocks (s : State) (p : Path) (off : Nat) (v : BitVec 32) :
    clocks (registerDw s p off .one v) = clocks s := by
  have hdw (p : Path) (d : DomN) (off : Nat) : clocks (dwWrite s p d off .one v) = clocks s := by
    unfold dwWrite
    (repeat' split) <;> simp_all
  have hhost (p : Path) (d : DomN) : clocks (hostDw s p d off .one v) = clocks s := by
    unfold hostDw
    (repeat' split) <;> simp [hdw]
  unfold registerDw
  split <;> simp [hhost]

/-! ## The image -/

theorem imageRecord_cools (recs : List Word) (s : State) (i : Nat) :
    Cools true (clocks s) (clocks (imageRecord recs s i)) := by
  unfold imageRecord
  split
  · split
    · exact (writeReg_cools _ _ _ _).mono fun _ => rfl
    · exact .refl _ _
  · exact .refl _ _

theorem imageChecked_cools (s : State) (readOk : Bool) (ws : List Word) :
    Cools true (clocks s) (clocks (imageChecked s readOk ws)) := by
  have happly : Cools true (clocks s) (clocks (imageApply s ws)) := by
    unfold imageApply
    rw [bbLink_clocks]
    exact forEach_cools _ _ s fun a x _ => imageRecord_cools _ a x
  unfold imageChecked
  (repeat' split) <;> simp [happly]

/-! ## The wake order -/

theorem applyB1_cools (s : State) : Cools true (clocks s) (clocks (applyB1 s)) := by
  unfold applyB1
  split
  · exact forEach_cools _ _ s fun a x _ => (writeReg_cools a .restore x.2 x.1).mono fun _ => rfl
  · exact .refl _ _

theorem applyHeld_cools (s : State) : Cools true (clocks s) (clocks (applyHeld s)) := by
  have hword (a : State) (x : Nat × Word) : Cools true (clocks a) (clocks (heldWord a x)) := by
    unfold heldWord
    split
    · split
      · exact .refl _ _
      · exact mgWord_cools _ _ _ fun _ => rfl
    · exact .refl _ _
  unfold applyHeld
  split
  · exact .after (by simp) (forEach_cools _ _ _ fun a x _ => hword a x)
  · exact .refl _ _

theorem arrive_cools (s : State) : Cools true (clocks s) (clocks (arrive s)) := by
  unfold arrive
  rw [startWaiting_clocks, driveDue_clocks]
  exact .after (by simp) (applyHeld_cools _)

/-- The release of the Link die's reset: what waited for it may be a write of CLK_PLAN. -/
theorem linkRelease_cools (s : State) (sfdp : Option Sfdp) :
    Cools true (clocks s) (clocks (linkRelease s sfdp)) := by
  unfold linkRelease
  dsimp only
  refine .trans ?_ (suspendAfresh_cools true _)
  rw [scanStart_clocks, loadImage_clocks]
  refine .trans ?_ (arrive_cools _)
  rw [suspAll_clocks]
  have hr : Cools true (clocks s)
      (clocks (bbLink (resumeLeft (releaseCore s sfdp)) 0x01 0 s.rst.cause s.pm.wakeCause)) := by
    rw [bbLink_clocks, resumeLeft_clocks]
    exact .of_run true _
  have hb : Cools true (clocks s) (clocks (if b1Applies s then applyB1
      (bbLink (resumeLeft (releaseCore s sfdp)) 0x01 0 s.rst.cause s.pm.wakeCause) else
      bbLink (resumeLeft (releaseCore s sfdp)) 0x01 0 s.rst.cause s.pm.wakeCause)) := by
    split
    · exact hr.trans (applyB1_cools _)
    · exact hr
  split
  · rwa [recordWake_clocks]
  · exact hb

theorem featherWake_cools (s : State) : Cools true (clocks s) (clocks (featherWake s)) := by
  unfold featherWake
  dsimp only
  refine .trans ?_ (suspendAfresh_cools true _)
  rw [scanLate_clocks]
  refine .trans ?_ (arrive_cools _)
  rw [recordWake_clocks]
  simpa [eq_clocks] using Cools.of_run true (clocks s)

/-- Wake sources: in RUN they do nothing, and where they act the Link die does not run. -/
theorem wakeHit_cools (w : Bool) (s : State) (srcs : Word) (during : Bool) :
    Cools w (clocks s) (clocks (wakeHit s srcs during)) := by
  unfold wakeHit
  dsimp only
  split
  · exact .refl _ _
  · split
    · next hst => exact .of_stand (fun _ => by simp [Clocks.runs, clocks, hst]) rfl rfl rfl
    · next hst =>
      have hf : Cools true (clocks s)
          (clocks (featherWake { s with pm := noteCause (wakeHits s srcs) during s.aon.time s.pm })) :=
        .after (by rfl) (featherWake_cools _)
      exact hf.of_off (by simp [Clocks.runs, clocks, hst])
    · split <;> exact .refl _ _
    · exact .refl _ _

theorem wakeSource_cools (w : Bool) (s : State) (pins : BitVec 8) (srcs : Word) (during : Bool) :
    Cools w (clocks s) (clocks (wakeSource s pins srcs during)) := by
  unfold wakeSource
  exact .after (by rfl) (wakeHit_cools w _ _ _)

theorem sdChange_cools (w : Bool) (s : State) (n : PortN) (level : Bool) :
    Cools w (clocks s) (clocks (sdChange s n level)) := by
  unfold sdChange
  dsimp only
  split
  · exact .after (by simp) (wakeHit_cools w _ _ _)
  · split <;> simp

theorem beaconAbove_cools (w : Bool) (s : State) : Cools w (clocks s) (clocks (beaconAbove s)) := by
  unfold beaconAbove
  dsimp only
  split
  · exact .refl _ _
  · exact .after (by rfl) (wakeHit_cools w _ _ _)

theorem csFall_cools (w : Bool) (s : State) : Cools w (clocks s) (clocks (csFall s)) := by
  unfold csFall
  exact .after (by dsimp only; split <;> rfl) (wakeHit_cools w _ _ _)

/-! ## Rows -/

/-- Whatever state the outcome gives, the clocks have only cooled. -/
def CoolsTo (w : Bool) (s : State) (o : Outcome) : Prop := ∀ t, o = .next t → Cools w (clocks s) (clocks t)

section

variable {w : Bool} {s : State}

theorem next_cools {t : State} (h : Cools w (clocks s) (clocks t)) : CoolsTo w s (.next t) :=
  fun _ he => by cases he; exact h

theorem onLink_cools {f : State → State} (h : linkOn s = true → Cools w (clocks s) (clocks (f s))) :
    CoolsTo w s (onLink s f) := next_cools (whenDo_cools _ f s h)

theorem onPower_cools {f : State → State} (h : Cools w (clocks s) (clocks (f s))) : CoolsTo w s (onPower s f) :=
  next_cools (whenDo_cools _ f s fun _ => h)

/-- A row whose operation leaves the clocks alone. -/
theorem onLink_still {f : State → State} (h : clocks (f s) = clocks s) : CoolsTo w s (onLink s f) :=
  onLink_cools fun _ => .of_eq h

theorem onPower_still {f : State → State} (h : clocks (f s) = clocks s) : CoolsTo w s (onPower s f) :=
  onPower_cools (.of_eq h)

/-- A row that writes one register, another than CLK_PLAN. -/
theorem regRow_cools (p : Path) (off : Nat) (v : Word) (h : off / 4 % 65536 ≠ 10) : CoolsTo w s (regRow p off v s) :=
  onPower_cools (pathWrite_cools s p off v fun he => absurd he h)

theorem ownRow_cools (d : DomN) (off : Nat) (v : Word) (h : off < 0x200 ∧ off / 4 ≠ 10) :
    CoolsTo w s (ownRow d off v s) := by
  refine onPower_cools ?_
  split
  · exact pathWrite_cools s .pf _ v fun he => by omega
  · exact pathWrite_cools s _ off v fun he => by omega

theorem hubRow_cools {req : Nat} {act : State → HubReq → State}
    (h : ∀ a r, Cools w (clocks a) (clocks (act a r))) : CoolsTo w s (hubRow req act s) := by
  refine onLink_cools fun _ => ?_
  unfold onHub
  split
  · exact .refl _ _
  · split
    · rw [hubDrain_clocks]; exact .after (by simp) (h _ _)
    · exact .refl _ _

theorem hubRow_still {req : Nat} {act : State → HubReq → State} (h : ∀ a r, clocks (act a r) = clocks a) :
    CoolsTo w s (hubRow req act s) := hubRow_cools fun a r => .of_eq (h a r)

theorem featureRow_still {req ft : Nat} {dn : State → DnN → Bool} {f : State → DnN → State}
    (h : ∀ a m, clocks (f a m) = clocks a) : CoolsTo w s (featureRow req ft dn f s) :=
  onLink_still (onHub_clocks _ _ _ fun _ _ => hubDo_clocks _ _ _ _ fun b => h b _)

theorem flRow_cools (p : Path) (ws : List Word) {f : State → State} (h : ∀ a, clocks (f a) = clocks a) :
    Cools w (clocks s) (clocks (flRow s p ws f)) := by
  unfold flRow
  split
  · exact .of_eq (flGate_clocks s p f h)
  · split
    · exact forEach_cools ws _ s fun a v _ => mgWrite_one_cools a flCtrlAddr v fun he => absurd he (by decide)
    · exact .refl _ _

theorem flFrameRow_cools (p : Path) (ws : List Word) : CoolsTo w s (flFrameRow s p ws) :=
  onPower_cools (flRow_cools p ws fun a => flFrame_clocks a p ws)

end

end Sys2Proof.Machine
end

section
/-! SUPPORT. Every row but PLL_LOCK cools the clocks. -/

namespace Sys2Proof.Machine

open Sys2Proof Sys2Proof.Safety

/-! ## The rows with an argument of their own -/

section

variable (w : Bool) (s : State)

/-- A row that takes a packet from the inbox and hands it on. -/
theorem execProxyRx_cools : CoolsTo w s (execProxyRx s) := by
  refine onLink_still ?_
  split
  · next ht => simp [takeInbox_clocks _ _ _ _ ht]
  · rfl

theorem execHubreqRx_cools : CoolsTo w s (execHubreqRx s) := by
  refine onLink_still ?_
  split
  · next ht => simp [takeInbox_clocks _ _ _ _ ht]
  · rfl

theorem execCensusOpen_cools : CoolsTo w s (execCensusOpen s) := by
  refine onLink_still ?_
  split
  · next ht => simp [takeInbox_clocks _ _ _ _ ht]
  · rfl

theorem execSelectorStart_cools (m : DnN) : CoolsTo w s (execSelectorStart m s) :=
  onLink_still (whenDo_clocks _ _ _ fun a => by split <;> simp)

theorem execMsixUnmask_cools (d : DomN) (k : MaskKind) : CoolsTo w s (execMsixUnmask d k s) := by
  refine onLink_still ?_
  split
  · split <;> simp
  · simp

theorem execCompletionTimeout_cools (d : DomN) (u : ReadUse) : CoolsTo w s (execCompletionTimeout d u s) :=
  onLink_still (by split <;> simp)

theorem execHostReadFailed_cools (d : DomN) (u : ReadUse) (k : ReadFail) :
    CoolsTo w s (execHostReadFailed d u k s) := by
  refine onLink_still ?_
  split
  · simp
  · split <;> simp

theorem execResetNAssert_cools : CoolsTo w s (execResetNAssert s) := by
  refine next_cools ?_
  split
  · exact .refl _ _
  · exact pinFall_cools w s

theorem execPerstRelease_cools : CoolsTo w s (execPerstRelease s) := by
  refine next_cools (whenDo_cools _ _ s fun _ => ?_)
  dsimp only
  split
  · exact .after (t := { s with rst := { s.rst with perst := false } }) rfl (wakeHit_cools w _ _ _)
  · exact .refl _ _

theorem execVlinkLow_cools : CoolsTo w s (execVlinkLow s) := by
  refine onPower_cools ?_
  dsimp only
  split
  · exact .after (t := { s with ppsg := { s.ppsg with vlow := true } }) rfl (flushTrigger_cools w _ _)
  · exact .refl _ _

theorem execVlinkRestored_cools : CoolsTo w s (execVlinkRestored s) :=
  onPower_cools (whenDo_cools _ _ s fun _ => .after (by simp) (wakeHit_cools w _ _ _))

theorem linkOn_of_waking (h : s.pm.st = .waking) : linkOn s = false := by simp [linkOn, h]

theorem execLinkDieResetRelease_cools (sfdp : Option Sfdp) : CoolsTo w s (execLinkDieResetRelease sfdp s) := by
  refine onPower_cools (whenDo_cools _ _ s fun h => ?_)
  have hw : s.pm.st = .waking := by simp [mayRelease] at h; tauto
  exact (linkRelease_cools s sfdp).of_off ((clocks_runs s).trans (linkOn_of_waking s hw))

theorem execPowerUpFailure_cools : CoolsTo w s (execPowerUpFailure s) := by
  refine onPower_cools (whenDo_cools _ _ s fun h => powerUpFail_cools w s (linkOn_of_waking s ?_))
  simp only [Bool.and_eq_true, decide_eq_true_eq] at h
  tauto

theorem execWdtServiceWrite_cools (p : Path) (v : Word) : CoolsTo w s (execWdtServiceWrite p v s) :=
  regRow_cools _ _ _ (by split <;> decide)

theorem execWdtPeriodWrite_cools (p : Path) (win : Bool) (v : Word) : CoolsTo w s (execWdtPeriodWrite p win v s) :=
  regRow_cools _ _ _ (by split <;> decide)

theorem execCutClear_cools (p : Path) (arb : ArbName) (half : Fin 2) (v : Word) :
    CoolsTo w s (execCutClear p arb half v s) :=
  regRow_cools _ _ _ (by cases arb <;> simp only [cutOff] <;> omega)

/-- A command of the management SPI, whose write reaches any register. -/
theorem mgWriteRow_cools (addr : Nat) (ws : List Word) :
    CoolsTo true s (onPower s fun s => mgFrame s (mgWrite · addr ws)) :=
  onPower_cools (.trans (.after (t := emit s (.mgStatus (mgStatusByte s))) (by simp)
    (mgWrite_cools _ addr ws fun _ _ _ => rfl)) (.of_eq rfl))

end

/-! ### The hub's features -/

section

variable (w : Bool) (s : State)

theorem execSetPortFeatureEnable_cools : CoolsTo w s (execSetPortFeatureEnable s) := featureRow_still (by simp)

theorem execClearPortFeatureEnable_cools : CoolsTo w s (execClearPortFeatureEnable s) := featureRow_still (by simp)

theorem execSetPortFeatureRetrain_cools : CoolsTo w s (execSetPortFeatureRetrain s) := featureRow_still (by simp)

theorem execSetPortFeaturePortReset_cools : CoolsTo w s (execSetPortFeaturePortReset s) := featureRow_still (by simp)

theorem execClearPortFeatureEvents_cools : CoolsTo w s (execClearPortFeatureEvents s) :=
  featureRow_still fun a m => by simp [writeReg]

end

/-- Over every command but PLL_LOCK the clocks only cool: CORE moves to the PLL only by a command that may write
CLK_PLAN (R39). -/
theorem exec_cools (c : Instr) (s : State) (h : ∀ xin, c ≠ .pllLock xin) : CoolsTo (movesCore c) s (exec c s) := by
  cases c with
  | hotReset | flrPf | flrVf | vfDisable | pcieConfigWrite | treeReset | portResetRx | rstDriveEnd | refReturn |
    detectHoldEnd | wordAlign | alignTimeout | tsCapRx | tsAckRx | capsTimeout | tsTrialRx | switchTimeout | tsReadyRx |
    ralignTimeout | trialSent | tsResultRx | trialTimeout | tsGoRx | stepUp | capUpdateSend | tsDownRx | tsDisRx |
    errorBurst | errorRate | floodStart | floodEnd | floodTimeout | disableDone | crdRx | tsTallyreqRx | tsTallyRx |
    skpSend | preRx | rsmRx | receiveWithoutCredit | packetHeaderRx | packetTrailerRx | eabRx | recordExpiry | ssplitRx
  | csplitRx | chunkGrant | ttSlotTimeout | ttSlotExpire | periodicSlotExpire | strokeBoundary | beaconMissed |
    stkBeaconRx | slewTick | holdoverExpiry | catchDue | catchPinEnd | strokeOutEnd | surveyOpen | probeTimeout |
    surveyProbe | surveyEcho | surveyToken | recordSent | probeWaitTimeout | surveyPortTimeout | surveyReturn |
    surveyKeep | keepTimer | upSuspendTimeout | portSilenceTimeout | txIdleDark | txWake | darkLimit | schedPrewake |
    schedWindowEnd | l1Exit | memRequestRefused | d3hotEntry | d0Return | gapTimerEnd | hmaDecision | ulaDecision |
    ulaPreempt | ulaResume | emergencyGrant | holdCutoff | doorbellWatch | prestrokeWatch | doorbellReadDone |
    doorbellRetry | commandFetchDone | nop | ringSet | ringStop | epHalt | portPower | cmdSetBudget | ppsLimit |
    meterSnap | meterRead | crewSet | catchPin | logRead | portStatus | nodeInfo | commandDataDone | descriptorFetchDone
  | sendDataFetchDone | recvDrain | eventWrite | localSetup | localOutData | localInRequest | localCstat | localPout |
    localPinq | confirmTimeout | epMissed | teardownComplete | easyState | summaryDone | meterSample | bbEntry |
    bbFlashCopyDone | lgScan | codeViolation | eopSent | unexpectedCompletion | pcieL0Reached =>
    exact onLink_still (by simp)
  | byteWrite | sdQualified | signalLoss | tbTime0Read | upBcnDeassert | bcnDriveEnd | upHoldSdEnd |
    queuePointerMismatch | evfPop | powerGood | powerGoodLoss | foldTmo | oc | shortOff | gateStuck | reverse | legopen
  | retryEnd | retryCountClear | gateOffCheckpoint | dischargeEnd | offDischargeEnd | snapshotComplete | kregHeavy |
    powerUpRetry | corelossRestart | wdtTimeout | hostRstEnd | mgRead | mgReadBurst | mgStatus =>
    exact onPower_still (by simp)
  | swrst | cfgLoad | bytewrClear | ttCntClr | lnEnable | lnDisable | queueInject | qCntClr | evfFlush | budgetWrite |
    pclassWrite | gangWrite | snapshotGo | pmReqFeather | pmReqStow | wdtKeyWrite | wdtEnable | wdtLockSet | bbRearm |
    bbClear | bbIndexWrite | bbTestFlush | reglockWrite =>
    exact regRow_cools _ _ _ (by decide)
  | getNodeInfo | setAddress | getPortStatus | setRoute | setMcast | setSchedule | setCrew | getMeter | setPortPower |
    readLog | serviceWatchdog | getSurveyRecord | setBudget =>
    exact hubRow_still (by simp)
  | setPortFeatureFrag | clearPortFeatureFrag | setPortFeatureSuspend | clearPortFeatureSuspend | setPortFeatureBcnFwd |
    clearPortFeatureBcnFwd =>
    exact featureRow_still (by simp)
  | portRetrain | portCntClr | portDisable | portEnable | portSuspend | portResume =>
    exact regRow_cools _ _ _ (by unfold portOff0; omega)
  | flRead | flNext | flProgram | flErase4k | flErase64k => exact flFrameRow_cools _ _
  | por | resetNRelease | perstAssert => exact next_cools (by simp)
  | pcieConfigReady | l1Entry | lgScanDone => exact onLink_still (whenDo_clocks _ _ s fun _ => rfl)
  | epEnable | epDisable | epCntClr => exact regRow_cools _ _ _ (by unfold epOff0; omega)
  | domainEnable | domainDisable | resyncGo => exact ownRow_cools _ _ _ (by decide)
  | ppsOn | ppsOff | ppsFclr => exact regRow_cools _ _ _ (by unfold ppsOff0; omega)
  | kregBoostEnd | corePgRise => exact onPower_still (whenDo_clocks _ _ s fun _ => rfl)
  | domRightsWrite | epmaskWrite => exact regRow_cools _ _ _ (by unfold domOff0; omega)
  | mgWrite | mgWriteBurst => exact mgWriteRow_cools s _ _
  | porRelease => exact next_cools (whenDo_cools _ _ s fun h => porRise_cools _ s _ h)
  | resetNAssert => exact execResetNAssert_cools _ s
  | aonBrownout => exact onPower_cools (whenDo_cools _ _ s fun _ => brownOut_cools _ s)
  | cfgImageChecked => exact onLink_cools fun _ => whenDo_cools _ _ s fun _ => imageChecked_cools s _ _
  | perstRelease => exact execPerstRelease_cools _ s
  | vfEnable => exact onLink_still (onCfg_clocks _ _ s fun _ => rfl)
  | numvfsWrite => exact onLink_still (onCfg_clocks _ _ s fun _ => whenDo_clocks _ _ _ fun _ => rfl)
  | clkPlanWrite => exact onPower_cools (pathWrite_cools s _ _ _ fun _ => rfl)
  | pllLock => exact absurd rfl (h _)
  | refFallback => exact onLink_cools fun _ => refFallback_cools s _
  | selectorStart => exact execSelectorStart_cools _ s _
  | proxyRx => exact execProxyRx_cools _ s
  | hubreqRx => exact execHubreqRx_cools _ s
  | clearPortFeatureEvents => exact execClearPortFeatureEvents_cools _ s
  | setClockPlan => exact hubRow_cools fun a r => setClockPlan_cools a r
  | censusOpen => exact execCensusOpen_cools _ s
  | holdIdlDone => exact onLink_cools fun _ => whenDo_cools _ _ s fun _ => idlDone_cools _ s _
  | beaconFromAbove => exact onPower_cools (beaconAbove_cools _ s)
  | msixUnmask => exact execMsixUnmask_cools _ s _ _
  | completionTimeout => exact execCompletionTimeout_cools _ s _ _
  | cutClear => exact execCutClear_cools _ s _ _ _ _
  | hostReadFailed => exact execHostReadFailed_cools _ s _ _ _
  | vlinkLow => exact execVlinkLow_cools _ s
  | vlinkRestored => exact execVlinkRestored_cools _ s
  | featherIdleExpiry => exact onLink_cools fun _ => featherExpiry_cools _ s
  | stowIdleExpiry => exact onPower_cools (stowExpiry_cools _ s)
  | wakeSource => exact onPower_cools (wakeSource_cools _ s _ _ _)
  | linkDieResetRelease => exact execLinkDieResetRelease_cools _ s _
  | powerUpFailure => exact execPowerUpFailure_cools _ s
  | linkDiePowerLoss => exact onPower_cools (whenDo_cools _ _ s fun _ => corelossStart_cools _ s)
  | wdtServiceWrite => exact execWdtServiceWrite_cools _ s _ _
  | wdtPeriodWrite => exact execWdtPeriodWrite_cools _ s _ _ _
  | wdtGraceEnd => exact onPower_cools (whenDo_cools _ _ s fun _ => by simp)
  | supplyFail => exact onPower_cools (flushTrigger_cools _ s _)
  | flashSuspended => exact onPower_cools (whenDo_cools _ _ s fun _ => flushPins_cools _ s _)
  | pageProgramDone => exact onPower_cools (flashPageDone_cools _ s)
  | supplyRestored => exact onPower_cools (whenDo_cools _ _ s fun _ => supplyBack_cools _ s)
  | flAbort => exact onPower_cools (flRow_cools _ _ fun a => by simp)
  | flOpDone => exact onPower_cools (whenDo_cools _ _ s fun _ => flOpDone_cools _ s _ _)
  | registerWrite => exact onPower_cools (registerWrite_cools s _ _ _)
  | xinLoss => exact onPower_cools (xinLoss_cools s)
  | sdChange => exact onPower_cools (sdChange_cools _ s _ _)
  | mgCsNFalling => exact onPower_cools (csFall_cools _ s)
  | frameerr => exact onPower_still (mgFrame_clocks s _ fun _ => rfl)
  | setPortFeatureEnable => exact execSetPortFeatureEnable_cools _ s
  | clearPortFeatureEnable => exact execClearPortFeatureEnable_cools _ s
  | setPortFeatureRetrain => exact execSetPortFeatureRetrain_cools _ s
  | setPortFeaturePortReset => exact execSetPortFeaturePortReset_cools _ s
  | kregLowPower => exact onPower_still (whenDo_clocks _ _ s fun _ => by simp only [clocks]; split <;> rfl)

end Sys2Proof.Machine
end

section
/-! PROOF. The clock plan, the PLL and its references (O20). -/

namespace Sys2Proof.Machine

open Sys2Proof Sys2Proof.Safety

/-! ## CORE moves to the PLL only by CLK_PLAN or by its lock -/

/-- A Link die that does not run has no lock. -/
def LockRuns (s : State) : Prop := linkOn s = false → s.clk.pllLock = false

theorem Cools.lockRuns {w : Bool} {s t : State} (h : Cools w (clocks s) (clocks t)) (hs : LockRuns s) : LockRuns t := by
  intro ht
  cases hl : t.clk.pllLock
  · rfl
  · exact (h.lock hl).symm.trans (hs (h.off hl ht))

theorem Cools.movesCore {w : Bool} {s t : State} (h : Cools w (clocks s) (clocks t)) (hs : LockRuns s)
    (hc : s.clk.corePll = false) (ht : t.clk.corePll = true) : w = true ∧ bit t.clk.plan 3 = true := by
  obtain ⟨hcs, _⟩ | ⟨hw, hl, hp⟩ := h.core ht
  · exact absurd hcs (by simp [clocks, hc])
  · refine ⟨hw.resolve_right fun hr => ?_, hp⟩
    exact absurd (hl.symm.trans (hs hr)) (by simp)

/-- The lock of the PLL takes place where the Link die runs. -/
theorem execPllLock_clocks (s t : State) (xin : Bool) (h : execPllLock xin s = .next t) : clocks t = clocks s ∨
    linkOn s = true ∧ clocks t = { clocks s with lock := true, core := bit (clocks s).plan 3 } := by
  by_cases hl : linkOn s = true
  · rw [execPllLock, onLink_on s _ hl] at h
    cases h
    exact (pllLock_clocks s xin).imp_right fun h => ⟨hl, h⟩
  · rw [execPllLock, onLink_off s _ (eq_false_of_ne_true hl)] at h
    cases h
    exact .inl rfl

theorem exec_lockRuns (c : Instr) (s t : State) (hs : LockRuns s) (h : exec c s = .next t) : LockRuns t := by
  by_cases hp : ∃ xin, c = .pllLock xin
  · obtain ⟨xin, rfl⟩ := hp
    obtain he | ⟨hl, he⟩ := execPllLock_clocks s t xin h
    · exact (Cools.of_eq (w := true) he).lockRuns hs
    · intro ht
      rw [← clocks_runs, he] at ht
      exact absurd (hl.symm.trans ht) (by simp)
  · exact (exec_cools c s (fun xin hx => hp ⟨xin, hx⟩) t h).lockRuns hs

theorem exec_movesCore (c : Instr) (s t : State) (hs : LockRuns s) (h : exec c s = .next t)
    (hc : s.clk.corePll = false) (ht : t.clk.corePll = true) : movesCore c = true ∧ bit t.clk.plan 3 = true := by
  by_cases hp : ∃ xin, c = .pllLock xin
  · obtain ⟨xin, rfl⟩ := hp
    obtain he | ⟨_, he⟩ := execPllLock_clocks s t xin h
    · exact (Cools.of_eq (w := true) he).movesCore hs hc ht
    · have hcore : t.clk.corePll = bit s.clk.plan 3 := congrArg Clocks.core he
      have hplan : t.clk.plan = s.clk.plan := congrArg Clocks.plan he
      exact ⟨rfl, by rw [hplan, ← hcore, ht]⟩
  · exact (exec_cools c s (fun xin hx => hp ⟨xin, hx⟩) t h).movesCore hs hc ht

theorem step_lockRuns (s t : State) (hs : LockRuns s) (h : step s = .next t) : LockRuns t := by
  unfold step at h
  split at h
  · cases h
    exact (Cools.of_eq (w := false) (idleTick_clocks s)).lockRuns hs
  · next c cs _ => exact exec_lockRuns c { s with pending := cs } t hs h

theorem step_movesCore (s t : State) (hs : LockRuns s) (h : step s = .next t) (hc : s.clk.corePll = false)
    (ht : t.clk.corePll = true) : ∃ c cs, s.pending = c :: cs ∧ movesCore c = true := by
  unfold step at h
  split at h
  · cases h
    exact absurd ((Cools.of_eq (w := false) (idleTick_clocks s)).movesCore hs hc ht).1 (by simp)
  · next c cs hp => exact ⟨c, cs, hp, (exec_movesCore c { s with pending := cs } t hs h hc ht).1⟩

/-! ## What a change of reference reaches -/

/-- The parts in which the time base's lock shows. -/
def lockParts : List Part := [.bb, .aon, .doms, .que, .tb, .out]

/-- The parts in which a move of CORE shows: the links and what hangs on them. -/
def linkParts : List Part := [.bb, .pps, .aon, .clk, .doms, .ula, .que, .ports, .tt, .tb, .sur, .out]

theorem only_of_offLinks {s t : State} {k : Clk} (h : offLinks t = withClk s k) : only linkParts s t := by
  have part {α : Type} (f : OffLinks → α) : f (offLinks t) = f (withClk s k) := congrArg f h
  intro p hp
  cases p with
  | bb | pps | aon | clk | doms | ula | que | ports | tt | tb | sur | out => exact absurd (by decide) hp
  | rst => exact part OffLinks.rst
  | pm => exact part OffLinks.pm
  | wdt => exact part OffLinks.wdt
  | ppsg => exact part OffLinks.ppsg
  | mtr => exact part OffLinks.mtr
  | mg => exact part OffLinks.mg
  | glob => exact part OffLinks.glob
  | pcie => exact part OffLinks.pcie
  | ln => exact part OffLinks.ln
  | hma => exact part OffLinks.hma
  | fl => exact part OffLinks.fl
  | bus => exact part OffLinks.bus
  | cen => exact part OffLinks.cen

/-- A change of the time base alone. -/
theorem setTb_only (s : State) (b : Tb) : only lockParts s { s with tb := b } := by
  intro p hp
  cases p <;> first | rfl | exact absurd (by decide) hp

theorem raise_lockOnly (s : State) (e : Ev) : only lockParts s (raise s e) :=
  only_mono _ _ _ _ (raise_only s e) (by decide)

@[simp] theorem raise_tb (s : State) (e : Ev) : (raise s e).tb = s.tb := raise_only s e .tb (by decide)

theorem loseLock_only (s : State) : only lockParts s (loseLock s) := by
  unfold loseLock
  split
  · exact only_refl _ s
  · exact only_trans _ _ _ _ (only_trans _ _ _ _ (setTb_only s _) (raise_lockOnly _ _))
      (only_mono _ _ _ _ (bbLink_only _ _ _ _ _) (by decide))

theorem loseLock_corr (s : State) : (loseLock s).tb.corr = s.tb.corr := by
  unfold loseLock
  split <;> simp

theorem lockKeep_only (s : State) : only lockParts s (lockKeep s) := by
  unfold lockKeep
  split
  · exact loseLock_only s
  · exact only_refl _ s

@[simp] theorem lockKeep_corr (s : State) : (lockKeep s).tb.corr = s.tb.corr := by
  unfold lockKeep
  split
  · exact loseLock_corr s
  · rfl

theorem gainLock_only (s : State) : only lockParts s (gainLock s) := by
  unfold gainLock
  split
  · exact only_trans _ _ _ _ (setTb_only s _) (raise_lockOnly _ _)
  · exact only_refl _ s

@[simp] theorem gainLock_corr (s : State) : (gainLock s).tb.corr = s.tb.corr := by
  unfold gainLock
  split <;> simp

theorem lockCheck_only (s : State) : only lockParts s (lockCheck s) :=
  only_trans _ _ _ _ (lockKeep_only s) (gainLock_only _)

@[simp] theorem lockCheck_corr (s : State) : (lockCheck s).tb.corr = s.tb.corr := by simp [lockCheck]

/-- A new reference, and the lock of the time base that follows it. -/
theorem refTo_only (r : Nat) (s t : State) (k : Clk) (h : only lockParts { refTo r s with clk := k } t) :
    only [.bb, .aon, .clk, .doms, .que, .tb, .out] s t := by
  refine only_trans _ s { refTo r s with clk := k } t (fun p hp => ?_) (only_mono _ _ _ _ h (by decide))
  cases p <;> first | rfl | exact absurd (by decide) hp

theorem refFallback_loses (s : State) (hl : s.clk.pllLock = true) (ha : s.clk.refAct = 2) :
    offLinks (refFallback s false) =
      withClk s { s.clk with xinOk := false, refAct := 0, pllLock := false, corePll := false } := by
  unfold refFallback
  rw [if_pos (by simp [hl, ha]), if_neg (by simp), pllDrop_offLinks]
  rfl

theorem refFallback_keeps (s : State) (hl : s.clk.pllLock = true) (ha : s.clk.refAct = 2) :
    refFallback s true = lockKeep { refTo 1 s with
      clk := { s.clk with xinOk := true, refAct := 1, refFb := true } } := by
  unfold refFallback
  rw [if_pos (by simp [hl, ha]), if_pos rfl]

theorem xinLoss_loses (s : State) (ha : s.clk.refAct = 1) : offLinks (xinLoss s) =
    withClk s { s.clk with xinOk := false, refAct := 0, pllLock := false, corePll := false } := by
  unfold xinLoss
  rw [if_pos ha, pllDrop_offLinks]
  rfl

theorem xinLoss_spares (s : State) (ha : s.clk.refAct ≠ 1) :
    xinLoss s = { s with clk := { s.clk with xinOk := false } } := by
  unfold xinLoss
  rw [if_neg ha]

theorem pllLock_offLinks (s : State) (xin : Bool) (he : bit s.clk.plan 0 = true) (hl : s.clk.pllLock = false)
    (ht : refTarget { s with clk := { s.clk with xinOk := xin } } ≠ 0) : ∃ fb,
    offLinks (pllLock s xin) = withClk s { s.clk with
      xinOk := xin, pllLock := true, refFb := fb, fbDue := false, corePll := bit s.clk.plan 3
      refAct := refTarget { s with clk := { s.clk with xinOk := xin } } } := by
  unfold pllLock
  dsimp only
  rw [if_pos (by simpa [he, hl] using ht), lockCheck_offLinks, coreSelect_offLinks]
  exact ⟨_, congrArg (withClk s) (by simp only [Bool.or_true, Bool.and_true]; rfl)⟩

/-- XIN is there to be taken where R23 does not give the recovered clock. -/
theorem refTarget_of_xin (s : State) (h : s.clk.xinOk = true) : refTarget s =
    if fld s.clk.plan 1 2 = 1 ∧ isUp s.ports[(0 : PortN)] = true ∧ 2 ≤ s.ports[(0 : PortN)].rate then 2 else 1 := by
  simp [refTarget, h, and_assoc]

theorem refTarget_ne_zero_of_xin (s : State) (h : s.clk.xinOk = true) : refTarget s ≠ 0 := by
  rw [refTarget_of_xin s h]
  split <;> decide

/-- With EN = 1, a lock and a clock on XIN, a write of CLK_PLAN keeps the lock, takes the reference of R23 and lets
CORE follow CORE_SEL. -/
theorem planWrite_offLinks_of_locked (s : State) (v : Word) (hb : bit v 0 = true) (hl : s.clk.pllLock = true)
    (hx : s.clk.xinOk = true) : ∃ fb,
    offLinks (planWrite s v) = withClk s { planPut v s.clk with
      refAct := refTarget { s with clk := planPut v s.clk }, refFb := fb, pllLock := true, corePll := bit v 3 } := by
  have hk : (planPut v s.clk).pllLock = true ∧ (planPut v s.clk).xinOk = true := by rw [planPut_eq]; exact ⟨hl, hx⟩
  obtain ⟨fb, h⟩ := refFollow_offLinks_of_ref { s with clk := planPut v s.clk } hk.1
    (refTarget_ne_zero_of_xin _ hk.2)
  refine ⟨fb, ?_⟩
  rw [planWrite_offLinks_of_on s v hb, coreSelect_offLinks, withClk_of_offLinks h, offLinks_clk h]
  simp only [hk.1, bit_planPut v s.clk 3 (.inr rfl), Bool.or_true, Bool.and_true]
  exact congrArg (withClk s) (by rw [← hk.1])

/-! ## The rows of CLK_PLAN and of the references -/

/-- Row CLK_PLAN_WRITE where the register is reached. -/
theorem execClkPlanWrite_reaches (p : Path) (v : Word) (s : State) (h : reaches s p = true) :
    execClkPlanWrite p v s = .next (planWrite s v) :=
  regRow_reaches s p 0x28 v .clkPlan h rfl (by decide) rfl

theorem execRefReturn_takes (s : State) (hon : linkOn s = true) (hl : s.clk.pllLock = true) (ha : s.clk.refAct = 1)
    (ht : refTarget s = 2) : execRefReturn s = .next (lockCheck (refTo 2 s)) := by
  unfold execRefReturn
  rw [onLink_on s _ hon, whenDo, if_pos (by simp [hl, ha, ht])]

theorem planWrite_plan (s : State) (v : Word) : (planWrite s v).clk.plan =
    if 2 ≤ fld v 1 2 then (v &&& 0x0019#16) ||| (s.clk.plan &&& 0x0006#16) else v &&& 0x001F#16 := by
  obtain ⟨k, h, hp, _⟩ := planWrite_offLinks s v
  rw [offLinks_clk h, hp, planPut_plan]

theorem planWrite_badPlan (s : State) (v : Word) :
    (planWrite s v).clk.badPlan = (s.clk.badPlan || decide (2 ≤ fld v 1 2)) := by
  obtain ⟨k, h, _, hb⟩ := planWrite_offLinks s v
  rw [offLinks_clk h, hb, planPut_badPlan]

theorem planWrite_off (s : State) (v : Word) (h : bit v 0 = false) : (planWrite s v).clk.pllLock = false ∧
    (planWrite s v).clk.corePll = false ∧ (planWrite s v).clk.fbDue = false := by
  obtain ⟨act, ha⟩ := planWrite_offLinks_of_off s v h
  rw [offLinks_clk ha]
  exact ⟨rfl, rfl, rfl⟩

theorem planWrite_locked (s : State) (v : Word) (h : bit v 0 = true) (hl : s.clk.pllLock = true)
    (hx : s.clk.xinOk = true) : (planWrite s v).clk.pllLock = true ∧ (planWrite s v).clk.corePll = bit v 3 ∧
    (planWrite s v).clk.refAct = if fld (planWrite s v).clk.plan 1 2 = 1 ∧ isUp s.ports[(0 : PortN)] = true ∧
      2 ≤ s.ports[(0 : PortN)].rate then 2 else 1 := by
  obtain ⟨fb, ha⟩ := planWrite_offLinks_of_locked s v h hl hx
  rw [offLinks_clk ha]
  exact ⟨rfl, rfl, refTarget_of_xin { s with clk := planPut v s.clk } (by rw [planPut_eq]; exact hx)⟩

theorem refReturn_spec (s : State) : (lockCheck (refTo 2 s)).clk = { s.clk with refAct := 2 } ∧
    (lockCheck (refTo 2 s)).tb.corr = false ∧
    only [.bb, .aon, .clk, .doms, .que, .tb, .out] s (lockCheck (refTo 2 s)) := by
  refine ⟨congrArg OffLinks.clk (lockCheck_offLinks (refTo 2 s)), by rw [lockCheck_corr]; rfl, ?_⟩
  exact refTo_only 2 s _ _ (lockCheck_only (refTo 2 s))

theorem refFallback_spec (s : State) (hl : s.clk.pllLock = true) (ha : s.clk.refAct = 2) :
    (refFallback s true).clk = { s.clk with xinOk := true, refAct := 1, refFb := true } ∧
    (refFallback s true).tb.corr = true ∧
    only [.bb, .aon, .clk, .doms, .que, .tb, .out] s (refFallback s true) := by
  rw [refFallback_keeps s hl ha]
  exact ⟨congrArg OffLinks.clk (lockKeep_offLinks _), by simp [refTo, ha], refTo_only 1 s _ _ (lockKeep_only _)⟩

/-- Settles O20: it holds.  What a row writes to the clock registers is read off its operation, whose links'
retrainings touch none of them; and of all the rows only a write of CLK_PLAN or the lock of the PLL takes CORE from
FIRC, since every other one only cools the clocks. -/
theorem clockPlanAndPll : Obligations.ClockPlanAndPll := by
  refine ⟨fun p v s hr => ⟨planWrite s v, execClkPlanWrite_reaches p v s hr, planWrite_plan s v,
      planWrite_badPlan s v, planWrite_off s v, planWrite_locked s v, ?_⟩,
    fun xin s hon hen hl ht => ⟨pllLock s xin, onLink_on s _ hon, ?_⟩,
    fun s hon hl ha => ⟨refFallback s true, onLink_on s _ hon, refFallback_spec s hl ha⟩,
    fun s hon hl ha => ⟨refFallback s false, onLink_on s _ hon, ?_⟩,
    fun s hon hl ha ht => ⟨lockCheck (refTo 2 s), execRefReturn_takes s hon hl ha ht, refReturn_spec s⟩,
    fun s hon ha => ⟨xinLoss s, onPower_on s _ hon, ?_⟩,
    fun s hon ha => ⟨xinLoss s, onPower_on s _ hon, ?_⟩,
    fun c s t hs h => exec_movesCore c s t hs h, fun s t hs h => step_movesCore s t hs h,
    fun s t hs h => step_lockRuns s t hs h⟩
  · obtain ⟨k, h, _⟩ := planWrite_offLinks s v
    exact only_of_offLinks h
  · obtain ⟨fb, h⟩ := pllLock_offLinks s xin hen hl ht
    rw [offLinks_clk h]
    exact ⟨rfl, rfl, rfl, rfl, rfl, rfl, only_of_offLinks h⟩
  · exact ⟨offLinks_clk (refFallback_loses s hl ha), only_of_offLinks (refFallback_loses s hl ha)⟩
  · exact ⟨offLinks_clk (xinLoss_loses s ha), only_of_offLinks (xinLoss_loses s ha)⟩
  · rw [xinLoss_spares s ha]
    refine ⟨rfl, fun p hp => ?_⟩
    cases p <;> first | rfl | exact absurd (by decide) hp

end Sys2Proof.Machine
end

section
/-! PROOF. Writes of a single byte through a function's window (O18). -/

namespace Sys2Proof.Machine

open Sys2Proof Sys2Proof.Safety

/-! ## The DWs that are not MSI-X -/

theorem vfDom_ne_zero (w : VfN) : vfDom w ≠ 0 :=
  fun h => Nat.succ_ne_zero w.val (congrArg Fin.val h)

/-- The PF's MSI-X structures and their reserved space; a DW overlaps them wholly or not at all. -/
theorem not_inMsix_pf (off : Nat) (h : ¬ (0x6000 ≤ off ∧ off < 0x6808)) :
    inMsix 0 (off / 4 * 4) = false ∧ inPba 0 (off / 4 * 4) = false := by
  simp only [inMsix, inPba, msixBase, pbaBase, vecCount, if_true, Bool.and_eq_false_iff, decide_eq_false_iff_not]
  omega

/-- The same of a VF's window. -/
theorem not_inMsix_vf (w : VfN) (off : Nat) (h : ¬ (0x800 ≤ off ∧ off < 0xC08)) :
    inMsix (vfDom w) (off / 4 * 4) = false ∧ inPba (vfDom w) (off / 4 * 4) = false := by
  simp only [inMsix, inPba, msixBase, pbaBase, vecCount, vfDom_ne_zero, if_false, Bool.and_eq_false_iff,
    decide_eq_false_iff_not]
  omega

/-- The registers of a VF's BAR0 end below its MSI-X table (R425). -/
theorem regAtVf_below_msix (d : DomN) (off : Nat) (r : Reg) (h : regAtVf d off = some r) : off < 0x800 := by
  unfold regAtVf at h
  split at h
  · cases h
  · split at h
    · omega
    · split at h
      case h_10 => cases h
      all_goals omega

/-- A DW of the PF's BAR0, by the register whose word it is. -/
theorem regAt_pf_dw (off : Nat) : regAt .pf (off / 4 * 4) = regAtWord (off / 4) := by
  simp [regAt, regAtPf]

/-! ## A DW write through an open window -/

theorem registerDw_pf (s : State) (off : Nat) (be : ByteEn) (v : BitVec 32) (h : reaches s .pf = true) :
    registerDw s .pf off be v = dwWrite s .pf 0 (off / 4 * 4) be v := by
  simp only [reaches, Bool.and_eq_true] at h
  simp [registerDw, hostDw, h]

theorem registerDw_vf (s : State) (w : VfN) (off : Nat) (be : ByteEn) (v : BitVec 32) (hl : linkOn s = true)
    (hw : winOpen s (vfDom w) = true) :
    registerDw s (.vf w) off be v = dwWrite s (.vf w) (vfDom w) (off / 4 * 4) be v := by
  simp [registerDw, hostDw, hl, hw]

/-- One lane of a register: the write is ignored and counted (R45). -/
theorem dwWrite_one_reg (s : State) (p : Path) (d : DomN) (off : Nat) (v : BitVec 32) (r : Reg)
    (hm : inMsix d off = false ∧ inPba d off = false) (hr : regAt p off = some r) :
    dwWrite s p d off .one v = countByte s := by
  simp [dwWrite, hm, hr]

/-- A reserved address ignores every write (R9). -/
theorem dwWrite_reserved (s : State) (p : Path) (d : DomN) (off : Nat) (be : ByteEn) (v : BitVec 32)
    (hm : inMsix d off = false ∧ inPba d off = false) (hr : regAt p off = none) :
    dwWrite s p d off be v = s := by
  simp [dwWrite, hm, hr]

theorem countByte_only (s : State) : only [.glob] s (countByte s) := by
  intro p hp
  cases p
  case glob => exact absurd (by decide) hp
  all_goals rfl

/-! ## The rows -/

/-- BYTE_WRITE and a REGISTER_WRITE of one DW with one lane do what that lane does, whatever data it carries. -/
theorem exec_oneLane (s t : State) (p : Path) (off : Word) (v : BitVec 32) (hon : powerOn s = true)
    (h : ∀ x, registerDw s p off.toNat .one x = t) :
    exec (.registerWrite p off (.one, v) []) s = .next t ∧ exec (.byteWrite p off) s = .next t :=
  ⟨(onPower_on s _ hon).trans (congrArg Host.Outcome.next (h v)),
    (onPower_on s _ hon).trans (congrArg Host.Outcome.next (h 0#32))⟩

/-- What R45 says of a byte write to a register. -/
theorem exec_oneLane_counted (s : State) (p : Path) (off : Word) (v : BitVec 32) (hon : powerOn s = true)
    (h : ∀ x, registerDw s p off.toNat .one x = countByte s) :
    ∃ t, exec (.registerWrite p off (.one, v) []) s = .next t ∧ exec (.byteWrite p off) s = .next t ∧
      t.glob = { s.glob with bytewr := satInc 255 s.glob.bytewr } ∧ only [.glob] s t := by
  obtain ⟨hrow, hbyte⟩ := exec_oneLane s (countByte s) p off v hon h
  exact ⟨countByte s, hrow, hbyte, rfl, countByte_only s⟩

/-- Settles O18: it holds.  Both rows come down to one DW through the open window, which lies outside the MSI-X
structures; what is left to it is whether its offset names a register. -/
theorem byteWritesIgnored : Obligations.ByteWritesIgnored := by
  refine ⟨fun off v r s h hr => ?_, fun w off v r s hl hw hr => ?_, fun off v s h hr hm => ?_,
    fun w off v s hl hw hr hm => ?_⟩
  · have hdw := (regAt_pf_dw off.toNat).trans hr
    have hout : inMsix 0 (off.toNat / 4 * 4) = false ∧ inPba 0 (off.toNat / 4 * 4) = false :=
      not_inMsix_of_reg _ r (by rwa [Nat.mul_div_cancel _ (by decide)])
    exact exec_oneLane_counted s _ off v (powerOn_of_reaches s _ h) fun x =>
      (registerDw_pf s _ _ x h).trans (dwWrite_one_reg s _ _ _ x r hout hdw)
  · have hlow := regAtVf_below_msix _ _ r hr
    have hout := not_inMsix_vf w off.toNat (by omega)
    exact exec_oneLane_counted s _ off v (powerOn_of_linkOn s hl) fun x =>
      (registerDw_vf s w _ _ x hl hw).trans (dwWrite_one_reg s _ _ _ x r hout hr)
  · have hdw := (regAt_pf_dw off.toNat).trans hr
    exact exec_oneLane s s _ off v (powerOn_of_reaches s _ h) fun x =>
      (registerDw_pf s _ _ x h).trans (dwWrite_reserved s _ _ _ _ x (not_inMsix_pf _ hm) hdw)
  · exact exec_oneLane s s _ off v (powerOn_of_linkOn s hl) fun x =>
      (registerDw_vf s w _ _ x hl hw).trans (dwWrite_reserved s _ _ _ _ x (not_inMsix_vf w _ hm) hr)

end Sys2Proof.Machine
end

section
/-! PROOF. What every command but POR keeps: the queue, WDT_LOCK once set, and the form of the tables. -/

namespace Sys2Proof.Machine

open Sys2Proof

/-- The laws of the rows, put together over the instruction set. -/
theorem exec_keeps (c : Instr) (s t : State) (hc : c ≠ .por) (h : exec c s = .next t) : Keeps s (view t) := by
  cases c with
  | swrst | cfgLoad | bytewrClear | clkPlanWrite | portRetrain | portCntClr | portDisable | portEnable | ttCntClr |
    portSuspend | portResume | domRightsWrite | cutClear | lnEnable | lnDisable | epEnable | epDisable | epCntClr |
    epmaskWrite | queueInject | qCntClr | evfFlush | ppsOn | ppsOff | ppsFclr | budgetWrite | pclassWrite |
    gangWrite | snapshotGo | pmReqFeather | pmReqStow | wdtServiceWrite | wdtKeyWrite | wdtEnable | wdtLockSet |
    wdtPeriodWrite | bbRearm | bbClear | bbIndexWrite | bbTestFlush | reglockWrite =>
    exact regRow_keeps _ _ _ _ _ h
  | domainEnable | domainDisable | resyncGo => exact ownRow_keeps _ _ _ _ _ h
  | por => exact absurd rfl hc
  | porRelease => exact execPorRelease_keeps _ s t h
  | resetNAssert => exact execResetNAssert_keeps s t h
  | resetNRelease => exact execResetNRelease_keeps _ s t h
  | aonBrownout => exact execAonBrownout_keeps s t h
  | byteWrite => exact execByteWrite_keeps _ _ s t h
  | cfgImageChecked => exact execCfgImageChecked_keeps _ _ s t h
  | perstAssert => exact execPerstAssert_keeps s t h
  | perstRelease => exact execPerstRelease_keeps s t h
  | pcieConfigReady => exact execPcieConfigReady_keeps s t h
  | hotReset => exact execHotReset_keeps _ s t h
  | flrPf => exact execFlrPf_keeps s t h
  | flrVf => exact execFlrVf_keeps _ s t h
  | vfEnable => exact execVfEnable_keeps s t h
  | vfDisable => exact execVfDisable_keeps s t h
  | numvfsWrite => exact execNumvfsWrite_keeps _ s t h
  | pcieConfigWrite => exact execPcieConfigWrite_keeps _ _ _ s t h
  | treeReset => exact execTreeReset_keeps s t h
  | portResetRx => exact execPortResetRx_keeps s t h
  | rstDriveEnd => exact execRstDriveEnd_keeps _ s t h
  | pllLock => exact execPllLock_keeps _ s t h
  | refFallback => exact execRefFallback_keeps _ s t h
  | refReturn => exact execRefReturn_keeps s t h
  | sdQualified => exact execSdQualified_keeps _ s t h
  | signalLoss => exact execSignalLoss_keeps _ s t h
  | detectHoldEnd => exact execDetectHoldEnd_keeps _ s t h
  | wordAlign => exact execWordAlign_keeps _ s t h
  | alignTimeout => exact execAlignTimeout_keeps _ s t h
  | tsCapRx => exact execTsCapRx_keeps _ _ _ _ s t h
  | tsAckRx => exact execTsAckRx_keeps _ _ _ _ s t h
  | capsTimeout => exact execCapsTimeout_keeps _ s t h
  | tsTrialRx => exact execTsTrialRx_keeps _ _ _ _ s t h
  | switchTimeout => exact execSwitchTimeout_keeps _ s t h
  | tsReadyRx => exact execTsReadyRx_keeps _ _ _ _ s t h
  | ralignTimeout => exact execRalignTimeout_keeps _ s t h
  | trialSent => exact execTrialSent_keeps _ _ s t h
  | tsResultRx => exact execTsResultRx_keeps _ _ _ _ s t h
  | trialTimeout => exact execTrialTimeout_keeps _ s t h
  | tsGoRx => exact execTsGoRx_keeps _ _ _ _ s t h
  | stepUp => exact execStepUp_keeps _ s t h
  | capUpdateSend => exact execCapUpdateSend_keeps _ s t h
  | tsDownRx => exact execTsDownRx_keeps _ _ _ _ s t h
  | tsDisRx => exact execTsDisRx_keeps _ _ _ _ s t h
  | errorBurst => exact execErrorBurst_keeps _ _ s t h
  | errorRate => exact execErrorRate_keeps _ _ s t h
  | floodStart => exact execFloodStart_keeps _ _ s t h
  | floodEnd => exact execFloodEnd_keeps _ s t h
  | floodTimeout => exact execFloodTimeout_keeps _ _ s t h
  | disableDone => exact execDisableDone_keeps _ s t h
  | crdRx => exact execCrdRx_keeps _ _ s t h
  | tsTallyreqRx => exact execTsTallyreqRx_keeps _ _ s t h
  | tsTallyRx => exact execTsTallyRx_keeps _ _ _ _ s t h
  | skpSend => exact execSkpSend_keeps _ s t h
  | preRx => exact execPreRx_keeps _ _ s t h
  | rsmRx => exact execRsmRx_keeps _ _ _ s t h
  | receiveWithoutCredit => exact execReceiveWithoutCredit_keeps _ s t h
  | packetHeaderRx => exact execPacketHeaderRx_keeps _ _ _ _ _ _ s t h
  | packetTrailerRx => exact execPacketTrailerRx_keeps _ _ _ _ s t h
  | eabRx => exact execEabRx_keeps _ _ _ _ s t h
  | selectorStart => exact execSelectorStart_keeps _ s t h
  | recordExpiry => exact execRecordExpiry_keeps _ _ _ _ s t h
  | proxyRx => exact execProxyRx_keeps s t h
  | hubreqRx => exact execHubreqRx_keeps s t h
  | getNodeInfo => exact execGetNodeInfo_keeps s t h
  | setAddress => exact execSetAddress_keeps s t h
  | getPortStatus => exact execGetPortStatus_keeps s t h
  | setPortFeatureEnable => exact execSetPortFeatureEnable_keeps s t h
  | clearPortFeatureEnable => exact execClearPortFeatureEnable_keeps s t h
  | setPortFeatureRetrain => exact execSetPortFeatureRetrain_keeps s t h
  | clearPortFeatureEvents => exact execClearPortFeatureEvents_keeps s t h
  | setPortFeaturePortReset => exact execSetPortFeaturePortReset_keeps s t h
  | setPortFeatureFrag => exact execSetPortFeatureFrag_keeps s t h
  | clearPortFeatureFrag => exact execClearPortFeatureFrag_keeps s t h
  | setPortFeatureSuspend => exact execSetPortFeatureSuspend_keeps s t h
  | clearPortFeatureSuspend => exact execClearPortFeatureSuspend_keeps s t h
  | setPortFeatureBcnFwd => exact execSetPortFeatureBcnFwd_keeps s t h
  | clearPortFeatureBcnFwd => exact execClearPortFeatureBcnFwd_keeps s t h
  | setRoute => exact execSetRoute_keeps s t h
  | setMcast => exact execSetMcast_keeps s t h
  | setSchedule => exact execSetSchedule_keeps s t h
  | setCrew => exact execSetCrew_keeps s t h
  | setClockPlan => exact execSetClockPlan_keeps s t h
  | getMeter => exact execGetMeter_keeps s t h
  | setPortPower => exact execSetPortPower_keeps s t h
  | readLog => exact execReadLog_keeps s t h
  | serviceWatchdog => exact execServiceWatchdog_keeps s t h
  | getSurveyRecord => exact execGetSurveyRecord_keeps s t h
  | setBudget => exact execSetBudget_keeps s t h
  | ssplitRx => exact execSsplitRx_keeps s t h
  | csplitRx => exact execCsplitRx_keeps s t h
  | chunkGrant => exact execChunkGrant_keeps s t h
  | ttSlotTimeout => exact execTtSlotTimeout_keeps _ s t h
  | ttSlotExpire => exact execTtSlotExpire_keeps _ s t h
  | periodicSlotExpire => exact execPeriodicSlotExpire_keeps _ s t h
  | strokeBoundary => exact execStrokeBoundary_keeps s t h
  | beaconMissed => exact execBeaconMissed_keeps s t h
  | stkBeaconRx => exact execStkBeaconRx_keeps _ _ _ s t h
  | slewTick => exact execSlewTick_keeps s t h
  | holdoverExpiry => exact execHoldoverExpiry_keeps s t h
  | tbTime0Read => exact execTbTime0Read_keeps _ s t h
  | catchDue => exact execCatch_keeps _ s t h
  | catchPinEnd => exact execCatchPinEnd_keeps _ s t h
  | strokeOutEnd => exact execStrokeOutEnd_keeps s t h
  | censusOpen => exact execCensusOpen_keeps s t h
  | surveyOpen => exact execSurveyOpen_keeps s t h
  | probeTimeout => exact execProbeTimeout_keeps s t h
  | surveyProbe => exact execSurveyProbe_keeps s t h
  | surveyEcho => exact execSurveyEcho_keeps s t h
  | surveyToken => exact execSurveyToken_keeps s t h
  | recordSent => exact execRecordSent_keeps s t h
  | probeWaitTimeout => exact execProbeWaitTimeout_keeps s t h
  | surveyPortTimeout => exact execSurveyPortTimeout_keeps _ s t h
  | surveyReturn => exact execSurveyReturn_keeps s t h
  | surveyKeep => exact execSurveyKeep_keeps s t h
  | keepTimer => exact execKeepTimer_keeps s t h
  | upSuspendTimeout => exact execUpSuspendTimeout_keeps s t h
  | portSilenceTimeout => exact execPortSilenceTimeout_keeps _ s t h
  | holdIdlDone => exact execHoldIdlDone_keeps _ s t h
  | beaconFromAbove => exact execBeaconFromAbove_keeps s t h
  | upBcnDeassert => exact execUpBcnDeassert_keeps s t h
  | bcnDriveEnd => exact execBcnDriveEnd_keeps _ s t h
  | upHoldSdEnd => exact execUpHoldSdEnd_keeps s t h
  | txIdleDark => exact execTxIdleDark_keeps _ s t h
  | txWake => exact execTxWake_keeps _ s t h
  | darkLimit => exact execDarkLimit_keeps _ s t h
  | schedPrewake => exact execSchedPrewake_keeps _ s t h
  | schedWindowEnd => exact execSchedWindowEnd_keeps _ s t h
  | l1Entry => exact execL1Entry_keeps s t h
  | l1Exit => exact execL1Exit_keeps s t h
  | memRequestRefused => exact execMemRequestRefused_keeps _ _ s t h
  | d3hotEntry => exact execD3hotEntry_keeps _ s t h
  | d0Return => exact execD0Return_keeps _ s t h
  | gapTimerEnd => exact execGapTimerEnd_keeps _ _ s t h
  | msixUnmask => exact execMsixUnmask_keeps _ _ s t h
  | completionTimeout => exact execCompletionTimeout_keeps _ _ s t h
  | hmaDecision => exact execHmaDecision_keeps s t h
  | ulaDecision => exact execUlaDecision_keeps s t h
  | ulaPreempt => exact execUlaPreempt_keeps _ s t h
  | ulaResume => exact execUlaResume_keeps s t h
  | emergencyGrant => exact execEmergencyGrant_keeps s t h
  | holdCutoff => exact execHoldCutoff_keeps _ s t h
  | doorbellWatch => exact execDoorbellWatch_keeps _ s t h
  | prestrokeWatch => exact execPrestrokeWatch_keeps _ s t h
  | doorbellReadDone => exact execDoorbellReadDone_keeps _ _ _ _ s t h
  | doorbellRetry => exact execDoorbellRetry_keeps _ s t h
  | hostReadFailed => exact execHostReadFailed_keeps _ _ _ s t h
  | commandFetchDone => exact execCommandFetchDone_keeps _ _ s t h
  | nop => exact execNop_keeps _ s t h
  | ringSet => exact execRingSet_keeps _ s t h
  | ringStop => exact execRingStop_keeps _ s t h
  | epHalt => exact execEpHalt_keeps _ s t h
  | portPower => exact execPortPower_keeps _ s t h
  | cmdSetBudget => exact execCmdSetBudget_keeps _ s t h
  | ppsLimit => exact execPpsLimit_keeps _ s t h
  | meterSnap => exact execMeterSnap_keeps _ s t h
  | meterRead => exact execMeterRead_keeps _ s t h
  | crewSet => exact execCrewSet_keeps _ s t h
  | catchPin => exact execCatchPin_keeps _ s t h
  | logRead => exact execLogRead_keeps _ s t h
  | portStatus => exact execPortStatus_keeps _ s t h
  | nodeInfo => exact execNodeInfo_keeps _ s t h
  | commandDataDone => exact execCommandDataDone_keeps _ s t h
  | descriptorFetchDone => exact execDescriptorFetchDone_keeps _ _ _ s t h
  | sendDataFetchDone => exact execSendDataFetchDone_keeps _ _ _ s t h
  | recvDrain => exact execRecvDrain_keeps _ s t h
  | eventWrite => exact execEventWrite_keeps _ s t h
  | localSetup => exact execLocalSetup_keeps s t h
  | localOutData => exact execLocalOutData_keeps s t h
  | localInRequest => exact execLocalInRequest_keeps s t h
  | localCstat => exact execLocalCstat_keeps s t h
  | localPout => exact execLocalPout_keeps s t h
  | localPinq => exact execLocalPinq_keeps s t h
  | confirmTimeout => exact execConfirmTimeout_keeps _ s t h
  | epMissed => exact execEpMissed_keeps _ s t h
  | teardownComplete => exact execTeardownComplete_keeps _ s t h
  | easyState => exact execEasyState_keeps _ s t h
  | summaryDone => exact execSummaryDone_keeps _ s t h
  | queuePointerMismatch => exact execQueuePointerMismatch_keeps _ _ _ s t h
  | evfPop => exact execEvfPop_keeps s t h
  | meterSample => exact execMeterSample_keeps _ _ s t h
  | powerGood => exact execPowerGood_keeps _ _ s t h
  | powerGoodLoss => exact execPowerGoodLoss_keeps _ s t h
  | foldTmo => exact execFoldTmo_keeps _ s t h
  | oc => exact execOc_keeps _ s t h
  | shortOff => exact execShortOff_keeps _ s t h
  | gateStuck => exact execGateStuck_keeps _ _ s t h
  | reverse => exact execReverse_keeps _ s t h
  | legopen => exact execLegopen_keeps _ s t h
  | retryEnd => exact execRetryEnd_keeps _ s t h
  | retryCountClear => exact execRetryCountClear_keeps _ s t h
  | gateOffCheckpoint => exact execGateOffCheckpoint_keeps _ _ s t h
  | dischargeEnd => exact execDischargeEnd_keeps _ s t h
  | offDischargeEnd => exact execOffDischargeEnd_keeps _ s t h
  | vlinkLow => exact execVlinkLow_keeps s t h
  | vlinkRestored => exact execVlinkRestored_keeps s t h
  | snapshotComplete => exact execSnapshotComplete_keeps s t h
  | featherIdleExpiry => exact execFeatherIdleExpiry_keeps s t h
  | stowIdleExpiry => exact execStowIdleExpiry_keeps s t h
  | kregLowPower => exact execKregLowPower_keeps s t h
  | kregBoostEnd => exact execKregBoostEnd_keeps s t h
  | kregHeavy => exact execKregHeavy_keeps s t h
  | wakeSource => exact execWakeSource_keeps _ _ _ s t h
  | corePgRise => exact execCorePgRise_keeps s t h
  | linkDieResetRelease => exact execLinkDieResetRelease_keeps _ s t h
  | powerUpFailure => exact execPowerUpFailure_keeps s t h
  | powerUpRetry => exact execPowerUpRetry_keeps s t h
  | linkDiePowerLoss => exact execLinkDiePowerLoss_keeps s t h
  | corelossRestart => exact execCorelossRestart_keeps s t h
  | wdtTimeout => exact execWdtTimeout_keeps s t h
  | wdtGraceEnd => exact execWdtGraceEnd_keeps s t h
  | hostRstEnd => exact execHostRstEnd_keeps s t h
  | bbEntry => exact execBbEntry_keeps s t h
  | bbFlashCopyDone => exact execBbFlashCopyDone_keeps _ _ s t h
  | lgScan => exact execLgScan_keeps s t h
  | lgScanDone => exact execLgScanDone_keeps _ s t h
  | supplyFail => exact execSupplyFail_keeps s t h
  | flashSuspended => exact execFlashSuspended_keeps s t h
  | pageProgramDone => exact execPageProgramDone_keeps s t h
  | supplyRestored => exact execSupplyRestored_keeps s t h
  | flRead => exact execFlRead_keeps _ _ s t h
  | flNext => exact execFlNext_keeps _ s t h
  | flProgram => exact execFlProgram_keeps _ _ _ _ s t h
  | flErase4k => exact execFlErase4k_keeps _ _ s t h
  | flErase64k => exact execFlErase64k_keeps _ _ s t h
  | flAbort => exact execFlAbort_keeps _ s t h
  | flOpDone => exact execFlOpDone_keeps _ _ s t h
  | mgWrite => exact execMgWrite_keeps _ _ s t h
  | mgRead => exact execMgRead_keeps _ s t h
  | mgWriteBurst => exact execMgWriteBurst_keeps _ _ s t h
  | mgReadBurst => exact execMgReadBurst_keeps _ _ s t h
  | mgStatus => exact execMgStatus_keeps s t h
  | registerWrite => exact execRegisterWrite_keeps _ _ _ _ s t h
  | xinLoss => exact execXinLoss_keeps s t h
  | codeViolation => exact execCodeViolation_keeps _ s t h
  | eopSent => exact execEopSent_keeps _ s t h
  | sdChange => exact execSdChange_keeps _ _ s t h
  | mgCsNFalling => exact execMgCsNFalling_keeps s t h
  | frameerr => exact execFrameerr_keeps s t h
  | unexpectedCompletion => exact execUnexpectedCompletion_keeps s t h
  | pcieL0Reached => exact execPcieL0Reached_keeps s t h

end Sys2Proof.Machine
end

section
/-! PROOF. WDT_LOCK: every step but POR keeps it, and what it refuses (O6). -/

namespace Sys2Proof.Machine

open Sys2Proof Sys2Proof.Safety

/-! ## It stays until POR -/

theorem step_keeps_lock (s t : State) (hs : s.wdt.lock = true) (hp : ∀ cs, s.pending ≠ .por :: cs)
    (h : step s = .next t) : t.wdt.lock = true := by
  unfold step at h
  split at h
  case h_1 =>
    cases h
    have hlock : (idleTick s).wdt.lock = s.wdt.lock := congrArg (·.2.1) (idleTick_view s)
    exact hlock.trans hs
  case h_2 c cs hq =>
    have hk := exec_keeps c { s with pending := cs } t (fun hc => hp cs (hc ▸ hq)) h
    exact hk.lock hs

/-! ## The locked fields (R366) -/

/-- A gate that is shut keeps the field, and a change of its value shows in WREF (R10). -/
theorem rwGate_shut (old new : Word) (f : Wdt → Wdt) (w : Wdt) :
    rwGate false old new f w = { w with wref := w.wref || new != old } := by
  by_cases h : new = old <;> simp [rwGate, wref, h]

theorem rwGate_open (old new : Word) (f : Wdt → Wdt) (w : Wdt) : rwGate true old new f w = f w := rfl

theorem getLsbD_atBit (b : Bool) (i j : Nat) : (atBit b i).getLsbD j = (b && decide (j < 16) && decide (i = j)) := by
  cases b
  · simp [atBit]
  · simp only [atBit, if_true, BitVec.getLsbD_ofNat, Nat.testBit_two_pow, Bool.true_and]

/-- The two fields of WDT_CTRL that WDT_LOCK guards, one bit each. -/
theorem and_bits23 (v : Word) : v &&& 0x000C#16 = atBit (bit v 2) 2 ||| atBit (bit v 3) 3 := by
  refine BitVec.eq_of_getLsbD_eq fun i hi => ?_
  simp only [BitVec.getLsbD_and, BitVec.getLsbD_or, getLsbD_atBit, bit]
  interval_cases i <;> simp

/-- What a write of WDT_CTRL would change of HRST_EN and MG_SVC, bit by bit. -/
theorem heldFields_ne (v : Word) (a b : Bool) :
    (v &&& 0x000C#16 != (atBit a 2 ||| atBit b 3)) = (bit v 2 != a || bit v 3 != b) := by
  rw [and_bits23]
  generalize bit v 2 = x, bit v 3 = y
  revert x y a b
  decide

/-- A write of WDT_CTRL, field by field (R356, R365, R366). -/
theorem wdtCtrlWrite_eq (v : Word) (w : Wdt) : wdtCtrlWrite v w = { w with
    lock := w.lock || bit v 1
    en := w.en || bit v 0
    count := if bit v 0 && !w.en then 0 else w.count
    hrstEn := if w.lock then w.hrstEn else bit v 2
    mgSvc := if w.lock then w.mgSvc else bit v 3
    wref := w.wref || (w.lock && (bit v 2 != w.hrstEn || bit v 3 != w.mgSvc)) } := by
  unfold wdtCtrlWrite wdtSetEn
  cases hl : w.lock
  · simp only [Bool.not_false, rwGate_open]
    cases bit v 0 <;> cases he : w.en <;> simp [hl]
  · simp only [Bool.not_true, rwGate_shut, heldFields_ne]
    cases bit v 0 <;> cases he : w.en <;> simp [hl]

/-- What R366 says of a write of `v` to WDT_CTRL that turns the watchdog `w` into `u`. -/
def CtrlWritten (v : Word) (w u : Wdt) : Prop :=
  u.lock = (w.lock || bit v 1) ∧ u.en = (w.en || bit v 0) ∧
    (w.lock = true → u.hrstEn = w.hrstEn ∧ u.mgSvc = w.mgSvc ∧
      u.wref = (w.wref || bit v 2 != w.hrstEn || bit v 3 != w.mgSvc)) ∧
    (w.lock = false → u.hrstEn = bit v 2 ∧ u.mgSvc = bit v 3 ∧ u.wref = w.wref)

theorem wdtCtrlWrite_written (v : Word) (w : Wdt) : CtrlWritten v w (wdtCtrlWrite v w) := by
  rw [wdtCtrlWrite_eq]
  exact ⟨rfl, rfl, fun h => by simp [h, Bool.or_assoc], fun h => by simp [h]⟩

theorem wdtGraceWrite_locked (v : Word) (w : Wdt) (h : w.lock = true) :
    wdtGraceWrite v w = { w with wref := w.wref || w16 (max 1 (fld v 0 8)) != w.graceReg } := by
  simp only [wdtGraceWrite, h, Bool.not_true, rwGate_shut]

theorem wdtGraceWrite_free (v : Word) (w : Wdt) (h : w.lock = false) :
    wdtGraceWrite v w = { w with graceReg := w16 (max 1 (fld v 0 8)) } := by
  simp only [wdtGraceWrite, h, Bool.not_false, rwGate_open]

theorem wdtKeyWrite_locked (w : Wdt) (hl : w.lock = true) (hk : w.key = true) :
    wdtKeyWrite 0xD1B6#16 w = { w with wref := true, key := false } := by
  simp [wdtKeyWrite, wref, hl, hk]

/-- WDT_GRACE takes the low byte of the DW written. -/
theorem fld_setWidth_byte (v : BitVec 32) : fld (v.setWidth 16) 0 8 = v.toNat % 256 := by
  simp only [fld, BitVec.toNat_setWidth, Nat.shiftRight_zero]
  omega

/-! ## How the writes reach it -/

theorem setWdt_only (s : State) (w : Wdt) : only [.wdt] s { s with wdt := w } := by
  intro p hp
  cases p
  case wdt => exact absurd (by decide) hp
  all_goals rfl

/-- WDT_CTRL and WDT_GRACE, which every path writes alike. -/
theorem writeReg_wdt (s : State) (p : Path) (v : Word) (r : Reg) (h : r = .wdtCtrl ∨ r = .wdtGrace) :
    writeReg s p v r = { s with wdt := wdtPut v s.wdt r } := by
  rcases h with rfl | rfl <;> simp [writeReg, wdtWrite]

/-- The image does not write WDT_KEY (R381). -/
theorem writeReg_wdtKey (s : State) (p : Path) (v : Word) (h : p ≠ .image) :
    writeReg s p v .wdtKey = { s with wdt := wdtKeyWrite v s.wdt } := by
  simp [writeReg, wdtWrite, wdtPut, h]

/-- REGISTER_WRITE of one DW with every lane. -/
theorem exec_registerWrite_reaches (s : State) (p : Path) (off : Word) (v : BitVec 32) (r : Reg)
    (h : reaches s p = true) (hr : regAtWord (off.toNat / 4) = some r) :
    exec (.registerWrite p off (.full, v) []) s = .next (writeReg s p (v.setWidth 16) r) :=
  (onPower_on s _ (powerOn_of_reaches s p h)).trans
    (congrArg Host.Outcome.next (registerWrite_reaches s p off .full v r h (.inl rfl) hr))

/-- MG_WRITE of a register that the management SPI may write. -/
theorem exec_mgWrite_reaches (s : State) (addr v : Word) (r : Reg) (h : reaches s .mg = true)
    (ha : addr.toNat < 0x4000) (hr : regAtWord addr.toNat = some r) :
    exec (.mgWrite addr v) s = .next (mgFrame s (writeReg · .mg v r)) := by
  refine (onPower_on s _ (powerOn_of_reaches s .mg h)).trans (congrArg Host.Outcome.next ?_)
  simp only [reaches, Bool.and_eq_true, Bool.not_eq_true'] at h
  obtain ⟨hl, hw⟩ := h
  have hone := mgWrite_one (emit s (.mgStatus (mgStatusByte s))) addr.toNat v r ha hl (mgBarred_of_free _ _ hw) hr
  simp only [mgFrame, hone]

theorem exec_wdtCtrl (s : State) (p : Path) (v : BitVec 32) (h : reaches s p = true) :
    exec (.registerWrite p 0x600#16 (.full, v) []) s = .next { s with wdt := wdtCtrlWrite (v.setWidth 16) s.wdt } := by
  rw [exec_registerWrite_reaches s p _ v .wdtCtrl h (by decide), writeReg_wdt s p _ _ (.inl rfl)]
  rfl

theorem exec_wdtGrace (s : State) (p : Path) (v : BitVec 32) (h : reaches s p = true) :
    exec (.registerWrite p 0x60C#16 (.full, v) []) s = .next { s with wdt := wdtGraceWrite (v.setWidth 16) s.wdt } := by
  rw [exec_registerWrite_reaches s p _ v .wdtGrace h (by decide), writeReg_wdt s p _ _ (.inr rfl)]
  rfl

theorem exec_wdtKey (s : State) (p : Path) (v : Word) (hp : p ≠ .image) (h : reaches s p = true) :
    exec (.wdtKeyWrite p v) s = .next { s with wdt := wdtKeyWrite v s.wdt } :=
  (regRow_reaches s p 0x614 v .wdtKey h rfl (by decide) (by decide)).trans
    (congrArg Host.Outcome.next (writeReg_wdtKey s p v hp))

/-- A frame of the management SPI that writes WDT_CTRL. -/
theorem exec_mgWdtCtrl (s : State) (v : Word) (h : reaches s .mg = true) :
    ∃ t, exec (.mgWrite 0x180#16 v) s = .next t ∧ only [.wdt, .mg, .out] s t ∧ t.wdt = wdtCtrlWrite v s.wdt := by
  have hw : ∀ a, writeReg a .mg v .wdtCtrl = { a with wdt := wdtCtrlWrite v a.wdt } :=
    fun a => writeReg_wdt a .mg v _ (.inl rfl)
  refine ⟨_, exec_mgWrite_reaches s _ v .wdtCtrl h (by decide) (by decide), ?_⟩
  simp only [mgFrame, hw]
  refine ⟨fun p hp => ?_, rfl⟩
  cases p
  case wdt | mg | out => exact absurd (by decide) hp
  all_goals rfl

/-- Settles O6: it holds.  Every row but POR keeps WDT_LOCK by its own law, and so does the idle tick; what the lock
refuses is read off the three registers' writes, one gate for all the fields it guards. -/
theorem wdtLockStays : Obligations.WdtLockStays := by
  refine ⟨step_keeps_lock, fun s => ⟨porFall s, rfl, rfl⟩, ?_, fun v s hr => ?_, ?_, ?_⟩
  · rintro p v w s - hr rfl
    exact ⟨_, exec_wdtCtrl s p v hr, setWdt_only s _, wdtCtrlWrite_written _ s.wdt⟩
  · obtain ⟨t, ht, honly, hwdt⟩ := exec_mgWdtCtrl s v hr
    have hspec := wdtCtrlWrite_written v s.wdt
    rw [← hwdt] at hspec
    exact ⟨t, ht, honly, hspec⟩
  · rintro p v n s - hr rfl
    refine ⟨_, exec_wdtGrace s p v hr, fun hl => ?_, fun hl => ?_, setWdt_only s _⟩
    · exact fld_setWidth_byte v ▸ wdtGraceWrite_locked _ s.wdt hl
    · exact fld_setWidth_byte v ▸ wdtGraceWrite_free _ s.wdt hl
  · intro p s hp hr hl hk
    have hi : p ≠ .image := by rcases hp with rfl | rfl <;> nofun
    exact ⟨_, exec_wdtKey s p _ hi hr, wdtKeyWrite_locked s.wdt hl hk, setWdt_only s _⟩

end Sys2Proof.Machine
end

section
/-! PROOF. SCRATCH: what a write stores, and the resets that clear it (O19). -/

namespace Sys2Proof.Machine

open Sys2Proof Sys2Proof.Safety

/-! ## What the black box and the restart of a die leave alone -/

/-- Storing an entry neither begins nor ends a flush. -/
@[simp] theorem bbStore_flush (b : Bb) (e : Entry) : (bbStore b e).flush = b.flush := by
  unfold bbStore bbFreeze
  dsimp only
  (repeat' split) <;> rfl

@[simp] theorem restartLink_glob (s : State) (how : Nat) : (restartLink s how).glob = s.glob := rfl

@[simp] theorem raisePwr_glob (s : State) : (raisePwr s).glob = s.glob := rfl

@[simp] theorem pinRise_glob (s : State) : (pinRise s).glob = s.glob := by
  unfold pinRise strapCheck
  split <;> rfl

@[simp] theorem pinRise_rst (s : State) : (pinRise s).rst = { s.rst with pin := false } := by
  unfold pinRise strapCheck
  split <;> rfl

@[simp] theorem pinRise_flush (s : State) : (pinRise s).bb.flush = s.bb.flush := by
  unfold pinRise strapCheck
  split
  · exact bbStore_flush s.bb _
  · rfl

/-! ## The resets that reach the Link die take GLOBAL to its reset value (R40, R430) -/

theorem globReset_scratch : Glob.reset.scratch = 0#16 := rfl

@[simp] theorem linkReset_glob (s : State) (keepPcie : Bool) : (linkReset s keepPcie).glob = Glob.reset := rfl

@[simp] theorem porFall_glob (s : State) : (porFall s).glob = Glob.reset := rfl

@[simp] theorem cutLink_glob (s : State) : (cutLink s).glob = Glob.reset := by simp [cutLink]

@[simp] theorem softReset_glob (s : State) : (softReset s).glob = Glob.reset := by simp [softReset]

@[simp] theorem corelossStart_glob (s : State) : (corelossStart s).glob = Glob.reset := by simp [corelossStart]

@[simp] theorem watchdogReset_glob (s : State) : (watchdogReset s).glob = Glob.reset := by
  unfold watchdogReset
  dsimp only
  split <;> simp

@[simp] theorem pinReset_glob (s : State) : (pinReset s).glob = Glob.reset := rfl

/-! ## A RESET_N that waits for the end of a flush (R40) -/

theorem dueReset_none (s : State) (h : s.rst.due = false) : dueReset s = s := by simp [dueReset, h]

/-- The waiting reset takes effect: nothing waits any more, and the pin is low unless it has risen meanwhile. -/
theorem dueReset_waiting (s : State) (h : s.rst.due = true) :
    (dueReset s).glob = Glob.reset ∧ (dueReset s).rst.due = false ∧ (dueReset s).bb.flush = none ∧
      (dueReset s).rst.pin = !s.rst.dueRise := by
  unfold dueReset
  rw [if_pos h]
  cases s.rst.dueRise
  case false => exact ⟨rfl, rfl, rfl, rfl⟩
  case true =>
    rw [if_pos rfl, pinRise_glob, pinRise_rst, pinRise_flush]
    exact ⟨rfl, rfl, rfl, rfl⟩

/-- The end of a flush lets the reset that waits for it act. -/
theorem flushEnd_eq_dueReset (s : State) (f : Flush) : ∃ u, flushEnd s f = dueReset u ∧ u.rst = s.rst := by
  unfold flushEnd
  exact ⟨_, rfl, by split <;> rfl⟩

theorem flashPageDone_last (s : State) (f : Flush) (hf : s.bb.flush = some f) (hp : f.pins = true)
    (hn : flushPages s.bb ≤ f.pages + 1) : flashPageDone s = flushEnd s { f with pages := f.pages + 1 } := by
  simp [flashPageDone, hf, hp, Nat.not_lt.mpr hn]

/-- Without a reset that waits, the brown-out leaves GLOBAL at its reset value. -/
theorem brownOut_glob (s : State) (h : s.rst.due = false) : (brownOut s).glob = Glob.reset := by
  unfold brownOut
  rw [dueReset_none]
  · rfl
  · show (whenDo (s.pm.st = .stow) pmeWake s).rst.due = false
    cases decide (s.pm.st = .stow) <;> exact h

/-! ## RESET_N falls (R40, R41) -/

theorem pinFall_idle (s : State) (hp : s.rst.por = false) (hf : s.bb.flush = none) : pinFall s = pinReset s := by
  simp [pinFall, hp, hf]

theorem pinFall_flush (s : State) (f : Flush) (hp : s.rst.por = false) (hf : s.bb.flush = some f) :
    pinFall s = { s with rst := { s.rst with due := true, dueRise := false } } := by
  simp [pinFall, hp, hf]

theorem exec_resetNAssert (s : State) (h : s.rst.pin = false) : exec .resetNAssert s = .next (pinFall s) := by
  show Host.Outcome.next _ = _
  simp [h]

theorem setRst_only (s : State) (r : Rst) : only [.rst] s { s with rst := r } := by
  intro p hp
  cases p
  case rst => exact absurd (by decide) hp
  all_goals rfl

/-! ## A flush takes the Link die's power (R18, R376) -/

theorem flushCut_glob (s : State) (h : s.pm.st ≠ .stow) : (flushCut s).glob = Glob.reset := by
  simp [flushCut, h]

theorem flushGo_glob (s : State) (f : Flush) (held : Option FlOp) (hc : f.cause ≠ .test) (h : s.pm.st ≠ .stow) :
    (flushGo s f held).glob = Glob.reset := by
  unfold flushGo
  rw [emit_glob, if_neg hc]
  exact flushCut_glob _ h

/-- An armed flush of a failing supply, with the flash idle, begins by cutting the Link die's power. -/
theorem flushTrigger_glob (s : State) (c : FlushCause) (hc : c ≠ .test) (hf : s.bb.flush = none)
    (hb : flushBar s = 0) (hw : flashWorks s = false) (hst : s.pm.st ≠ .stow) :
    (flushTrigger s c).glob = Glob.reset := by
  unfold flushTrigger
  rw [if_neg (by simp [hf]), if_pos hb]
  unfold flushBegin
  dsimp only
  rw [if_neg]
  · exact flushGo_glob _ _ _ hc hst
  · exact Bool.eq_false_iff.mp hw

/-! ## Writes of SCRATCH (R430) -/

theorem writeReg_scratch (s : State) (p : Path) (v : Word) :
    writeReg s p v .scratch = { s with glob := { s.glob with scratch := v } } := rfl

theorem setGlob_only (s : State) (g : Glob) : only [.glob] s { s with glob := g } := by
  intro p hp
  cases p
  case glob => exact absurd (by decide) hp
  all_goals rfl

theorem mgFrame_scratch_only (s : State) (v : Word) :
    only [.glob, .mg, .out] s (mgFrame s (writeReg · .mg v .scratch)) := by
  intro p hp
  cases p
  case glob | mg | out => exact absurd (by decide) hp
  all_goals rfl

/-- GCTRL with SWRST alone: the soft reset, by the two paths that may write it (R43). -/
theorem exec_swrst_reaches (s : State) (p : Path) (hp : p = .pf ∨ p = .mg) (h : reaches s p = true) :
    exec (.swrst p) s = .next (softReset s) := by
  have hw : writeReg s p 1#16 .gctrl = softReset s := by
    show gctrlWrite s p 1#16 = _
    simp [gctrlWrite, hp, bit]
  exact hw ▸ regRow_reaches s p 0x1C 1#16 .gctrl h rfl (by decide) (by decide)

/-! ## O19 -/

theorem pin_of_powerOn (s : State) (h : powerOn s = true) : s.rst.por = false ∧ s.rst.pin = false := by
  simpa [powerOn] using h

/-- A row of the Power die whose operation leaves GLOBAL at its reset value clears SCRATCH. -/
theorem onPower_clears_scratch (s : State) (f : State → State) (hon : powerOn s = true) (h : (f s).glob = Glob.reset) :
    ∃ t, onPower s f = .next t ∧ t.glob.scratch = 0#16 :=
  ⟨f s, onPower_on s f hon, h ▸ globReset_scratch⟩

/-- Settles O19: it holds.  A write stores its word in GLOBAL alone; every reset that reaches the Link die comes down
to `linkReset`, or to POR, and leaves GLOBAL at its reset value; one that waits for a flush acts at its end. -/
theorem scratchRegister : Obligations.ScratchRegister := by
  refine ⟨fun p v s _ hr => ?write, fun v s hr => ?mgWrite, fun s => ?por, fun s hpin hpor hf => ?pin,
    fun s hon hst hdue => ?brownout, fun p s hp hr => ?swrst, fun s hon hg hp => ?grace,
    fun s hon hst hen hmode => ?loss, fun s hon hw => ?restart, fun s hon hf hbar hfl hst => ?supply,
    fun f s hon hdue hf => ?wait, fun f s hon hdue hf hp hn => ?last⟩
  case write =>
    refine ⟨_, exec_registerWrite_reaches s p _ v .scratch hr (by decide), ?_⟩
    rw [writeReg_scratch]
    exact ⟨rfl, setGlob_only s _, rfl⟩
  case mgWrite =>
    exact ⟨_, exec_mgWrite_reaches s _ v .scratch hr (by decide) (by decide), rfl, mgFrame_scratch_only s v, rfl⟩
  case por => exact ⟨porFall s, rfl, porFall_glob s ▸ globReset_scratch⟩
  case pin =>
    refine ⟨pinReset s, ?_, pinReset_glob s ▸ globReset_scratch⟩
    rw [exec_resetNAssert s hpin, pinFall_idle s hpor hf]
  case brownout =>
    refine onPower_clears_scratch s _ hon ?_
    have hlow : lowKeep s = true := by obtain hs | hs := hst <;> simp [lowKeep, hs]
    rw [hlow, whenDo_true, brownOut_glob s hdue]
  case swrst => exact ⟨softReset s, exec_swrst_reaches s p hp hr, softReset_glob s ▸ globReset_scratch⟩
  case grace =>
    refine onPower_clears_scratch s _ hon ?_
    have hcounts : graceCounts s.wdt = true := by simp [graceCounts, hg, hp]
    rw [hcounts, whenDo_true, watchdogReset_glob]
  case loss =>
    refine onPower_clears_scratch s _ hon ?_
    have hacts : (s.pm.st = .run || s.pm.st = .feather) = true := by simpa using hst
    rw [hacts, hen, hmode, Bool.not_false, Bool.and_true, Bool.and_true, whenDo_true, corelossStart_glob]
  case restart =>
    refine ⟨raisePwr s, (onPower_on s _ hon).trans ?_, rfl, rfl⟩
    rw [hw, whenDo_true]
  case supply => exact onPower_clears_scratch s _ hon (flushTrigger_glob s .vsys nofun hf hbar hfl hst)
  case wait =>
    obtain ⟨hpor, hpin⟩ := pin_of_powerOn s hon
    refine ⟨_, exec_resetNAssert s hpin, ?_⟩
    rw [pinFall_flush s f hpor hf]
    exact ⟨rfl, setRst_only s _⟩
  case last =>
    obtain ⟨u, hu, hrst⟩ := flushEnd_eq_dueReset s { f with pages := f.pages + 1 }
    obtain ⟨hglob, hdone, hflush, hpin⟩ := dueReset_waiting u (hrst ▸ hdue)
    refine ⟨dueReset u, (onPower_on s _ hon).trans (congrArg Host.Outcome.next ?_), hglob ▸ globReset_scratch, hdone,
      hflush, hrst ▸ hpin⟩
    rw [flashPageDone_last s f hf hp hn, hu]

end Sys2Proof.Machine
end

section
/-! SUPPORT. Frames: how they compose, and the frame of each shared operation of the ports, the domains and the
local node. -/

namespace Sys2Proof.Safety

open Sys2Proof Sys2Proof.Machine

/-- One operation after another changes what either of them may change. -/
theorem only.seq {ps qs rs : List Part} {s t u : State} (h1 : only ps s t) (h2 : only qs t u)
    (hp : ∀ p ∈ ps, p ∈ rs := by decide) (hq : ∀ q ∈ qs, q ∈ rs := by decide) : only rs s u :=
  only_trans rs s t u (only_mono ps rs s t h1 hp) (only_mono qs rs t u h2 hq)

/-- A frame with more parts in it. -/
theorem only.widen {ps rs : List Part} {s t : State} (h : only ps s t) (hp : ∀ p ∈ ps, p ∈ rs := by decide) :
    only rs s t := only_mono ps rs s t h hp

end Sys2Proof.Safety

namespace Sys2Proof.Machine

open Sys2Proof Sys2Proof.Safety

-- One proof after the other: side by side, the proofs of one text wait for each other in too many threads.
set_option Elab.async false

/-! ## One part rewritten -/

theorem out_frame (s : State) (x : List Out) : only [.out] s { s with out := x } := by
  intro p hp; cases p <;> first | rfl | exact absurd (by decide) hp

theorem rst_frame (s : State) (x : Rst) : only [.rst] s { s with rst := x } := by
  intro p hp; cases p <;> first | rfl | exact absurd (by decide) hp

theorem pm_frame (s : State) (x : Pm) : only [.pm] s { s with pm := x } := by
  intro p hp; cases p <;> first | rfl | exact absurd (by decide) hp

theorem wdt_frame (s : State) (x : Wdt) : only [.wdt] s { s with wdt := x } := by
  intro p hp; cases p <;> first | rfl | exact absurd (by decide) hp

theorem bb_frame (s : State) (x : Bb) : only [.bb] s { s with bb := x } := by
  intro p hp; cases p <;> first | rfl | exact absurd (by decide) hp

theorem pps_frame (s : State) (x : Vector Pps 16) : only [.pps] s { s with pps := x } := by
  intro p hp; cases p <;> first | rfl | exact absurd (by decide) hp

theorem ppsg_frame (s : State) (x : PpsG) : only [.ppsg] s { s with ppsg := x } := by
  intro p hp; cases p <;> first | rfl | exact absurd (by decide) hp

theorem mtr_frame (s : State) (x : Mtr) : only [.mtr] s { s with mtr := x } := by
  intro p hp; cases p <;> first | rfl | exact absurd (by decide) hp

theorem aon_frame (s : State) (x : Aon) : only [.aon] s { s with aon := x } := by
  intro p hp; cases p <;> first | rfl | exact absurd (by decide) hp

theorem mg_frame (s : State) (x : Mg) : only [.mg] s { s with mg := x } := by
  intro p hp; cases p <;> first | rfl | exact absurd (by decide) hp

theorem glob_frame (s : State) (x : Glob) : only [.glob] s { s with glob := x } := by
  intro p hp; cases p <;> first | rfl | exact absurd (by decide) hp

theorem clk_frame (s : State) (x : Clk) : only [.clk] s { s with clk := x } := by
  intro p hp; cases p <;> first | rfl | exact absurd (by decide) hp

theorem pcie_frame (s : State) (x : Pcie) : only [.pcie] s { s with pcie := x } := by
  intro p hp; cases p <;> first | rfl | exact absurd (by decide) hp

theorem doms_frame (s : State) (x : Vector Dom 8) : only [.doms] s { s with doms := x } := by
  intro p hp; cases p <;> first | rfl | exact absurd (by decide) hp

theorem ln_frame (s : State) (x : Ln) : only [.ln] s { s with ln := x } := by
  intro p hp; cases p <;> first | rfl | exact absurd (by decide) hp

theorem hma_frame (s : State) (x : Hma) : only [.hma] s { s with hma := x } := by
  intro p hp; cases p <;> first | rfl | exact absurd (by decide) hp

theorem ula_frame (s : State) (x : Ula) : only [.ula] s { s with ula := x } := by
  intro p hp; cases p <;> first | rfl | exact absurd (by decide) hp

theorem que_frame (s : State) (x : Que) : only [.que] s { s with que := x } := by
  intro p hp; cases p <;> first | rfl | exact absurd (by decide) hp

theorem fl_frame (s : State) (x : Fl) : only [.fl] s { s with fl := x } := by
  intro p hp; cases p <;> first | rfl | exact absurd (by decide) hp

theorem ports_frame (s : State) (x : Vector Port 17) : only [.ports] s { s with ports := x } := by
  intro p hp; cases p <;> first | rfl | exact absurd (by decide) hp

theorem bus_frame (s : State) (x : Bus) : only [.bus] s { s with bus := x } := by
  intro p hp; cases p <;> first | rfl | exact absurd (by decide) hp

theorem tt_frame (s : State) (x : Tt) : only [.tt] s { s with tt := x } := by
  intro p hp; cases p <;> first | rfl | exact absurd (by decide) hp

theorem tb_frame (s : State) (x : Tb) : only [.tb] s { s with tb := x } := by
  intro p hp; cases p <;> first | rfl | exact absurd (by decide) hp

theorem cen_frame (s : State) (x : Cen) : only [.cen] s { s with cen := x } := by
  intro p hp; cases p <;> first | rfl | exact absurd (by decide) hp

theorem sur_frame (s : State) (x : Sur) : only [.sur] s { s with sur := x } := by
  intro p hp; cases p <;> first | rfl | exact absurd (by decide) hp

/-! ## Branches and repetition -/

theorem only_ite {ps : List Part} (c : Prop) [Decidable c] {s t u : State} (ht : only ps s t) (hu : only ps s u) :
    only ps s (if c then t else u) := by
  split
  · exact ht
  · exact hu

theorem whenDo_frame {ps : List Part} (g : Bool) (f : State → State) (s : State) (h : only ps s (f s)) :
    only ps s (whenDo g f s) := by
  unfold whenDo
  split
  · exact h
  · exact only_refl ps s

theorem forEach_frame {α : Type} {ps : List Part} (l : List α) (f : State → α → State) (s : State)
    (h : ∀ a x, only ps a (f a x)) : only ps s (forEach l f s) := by
  induction l generalizing s with
  | nil => exact only_refl ps s
  | cons x l ih => exact only_trans ps s (f s x) _ (h s x) (ih (f s x))

/-! ## Elements, outputs and free values (Ops) -/

theorem emits_frame (s : State) (os : List Out) : only [.out] s (emits s os) := out_frame s _

theorem bump_frame (s : State) : only [] s (bump s) := by
  intro p _; cases p <;> rfl

theorem modAon_frame (s : State) (n : PortN) (f : AonPort → AonPort) : only [.aon] s (modAon s n f) := aon_frame s _

theorem modPps_frame (s : State) (m : DnN) (f : Pps → Pps) : only [.pps] s (modPps s m f) := pps_frame s _

theorem modDom_frame (s : State) (d : DomN) (f : Dom → Dom) : only [.doms] s (modDom s d f) := doms_frame s _

theorem modEp_frame (s : State) (k : EpN) (f : Ep → Ep) : only [.ln] s (modEp s k f) := ln_frame s _

theorem modFn_frame (s : State) (d : DomN) (f : Fn → Fn) : only [.pcie] s (modFn s d f) := pcie_frame s _

theorem modCrew_frame (s : State) (k : CrewN) (f : Crew → Crew) : only [.tb] s (modCrew s k f) := tb_frame s _

theorem modSlot_frame (s : State) (j : Fin 48) (f : Option Slot → Option Slot) : only [.tt] s (modSlot s j f) :=
  tt_frame s _

theorem bbReport_frame (s : State) : only [.que] s (bbReport s) := by
  unfold bbReport
  exact only_ite _ (only_refl _ s) (que_frame s _)

theorem noteHwm_frame (s : State) : only [.tt] s (noteHwm s) := tt_frame s _

/-! ## The transmitter of a port (Packet) -/

theorem sendCrd_frame (s : State) (n : PortN) : only [.ports, .out] s (sendCrd s n) :=
  (modPort_only s n _).seq (emits_frame _ _)

theorem wakeTx_frame (s : State) (n : PortN) : only [.ports, .out] s (wakeTx s n) := by
  unfold wakeTx
  split
  · exact ((modPort_only s n _).seq (emit_only _ _) (rs := [.ports, .out])).seq (sendCrd_frame _ n)
  · exact only_refl _ s

theorem returnCredits_frame (s : State) (n : PortN) (nonPer : Bool) (k : Nat) :
    only [.ports, .out] s (returnCredits s n nonPer k) := by
  unfold returnCredits
  refine only_ite _ (only_refl _ s) ?_
  have hmod := modPort_only s n fun p => if nonPer then { p with crdN := p.crdN + k } else { p with crdP := p.crdP + k }
  exact only_ite _ (hmod.seq (sendCrd_frame _ n)) (only_ite _ (hmod.seq (wakeTx_frame _ n)) hmod.widen)

theorem putTsAt_frame (s : State) (n : PortN) (r : Nat) (k : TsKind) (a0 a1 : Word) :
    only [.ports, .out] s (putTsAt s n r k a0 a1) :=
  (wakeTx_frame s n).seq (emit_only _ _)

theorem putTs_frame (s : State) (n : PortN) (k : TsKind) (a0 a1 : Word) : only [.ports, .out] s (putTs s n k a0 a1) :=
  putTsAt_frame s n _ k a0 a1

theorem tallyTry_frame (s : State) (n : PortN) : only [.ports, .out] s (tallyTry s n) := by
  unfold tallyTry
  exact only_ite _ ((modPort_only s n _).seq (putTs_frame _ n _ _ _)) (only_refl _ s)

theorem sweepRx_frame (s : State) : only [.ports, .out] s (sweepRx s) := by
  unfold sweepRx
  exact forEach_frame _ _ s fun a n =>
    ((modPort_only a n _).seq (returnCredits_frame _ n _ _) (rs := [.ports, .out])).seq (returnCredits_frame _ n _ _)

/-! ## Requests at the host-memory arbiter (HostQueue) -/

theorem setQueue_frame (s : State) (r : Nat) (l : List HReq) : only [.hma] s (setQueue s r l) := hma_frame s _

theorem feedOne_frame (s : State) (d : DomN) : only [.doms, .hma] s (feedOne s d) := by
  unfold feedOne
  dsimp only
  refine only_ite _ (only_refl _ s) ?_
  split
  · exact (modDom_frame s d _).seq (setQueue_frame _ _ _)
  · exact only_ite _ (setQueue_frame s _ _).widen (only_refl _ s)

theorem tidy_frame (s : State) (r : Nat) : only [.doms, .hma] s (tidy s r) := by
  have hset := setQueue_frame s r ((queueOf s r).filter (wanted s))
  unfold tidy
  exact only_ite _ (hset.seq (forEach_frame _ _ _ fun a _ => feedOne_frame a _)) hset.widen

theorem hmaAsk_frame (s : State) (r : Nat) (q : HReq) : only [.doms, .hma] s (hmaAsk s r q) := by
  unfold hmaAsk
  exact only_ite _ (tidy_frame s r) ((tidy_frame s r).seq (setQueue_frame _ r _))

theorem askRead_frame (s : State) (r : Nat) (d : DomN) (u : ReadUse) : only [.doms, .hma] s (askRead s r d u) := by
  unfold askRead
  exact only_ite _ (only_refl _ s) (hmaAsk_frame s r _)

/-! ## Completions and the ring of an endpoint (Local) -/

/-- The parts in which an endpoint's ring and its completions show. -/
def epParts : List Part := [.doms, .hma, .ln, .que, .aon, .out]

theorem completeDesc_frame (s : State) (k : EpN) (d : Desc) (status bytes : Nat) (tag : BitVec 7) (cue late : Bool) :
    only evParts s (completeDesc s k d status bytes tag cue late) := by
  unfold completeDesc
  exact only_ite _ (only_refl _ s) (raiseDom_only s _ _ _)

theorem completeHead_frame (s : State) (k : EpN) (status bytes : Nat) (cue late : Bool) :
    only epParts s (completeHead s k status bytes cue late) := by
  unfold completeHead
  split
  · exact only_refl _ s
  · exact (modEp_frame s k _).seq (completeDesc_frame _ k _ _ _ _ _ _)

theorem dropBad_frame (s : State) (k : EpN) : only epParts s (dropBad s k) := by
  unfold dropBad
  exact only_ite _ (completeHead_frame s k _ _ _ _) (only_refl _ s)

theorem askDesc_frame (s : State) (k : EpN) : only [.doms, .hma] s (askDesc s k) := by
  unfold askDesc
  exact only_ite _ (askRead_frame s _ _ _) (only_refl _ s)

theorem askData_frame (s : State) (k : EpN) : only [.doms, .hma, .ln] s (askData s k) := by
  unfold askData
  dsimp only
  refine only_ite _ (only_refl _ s) ?_
  split
  · exact only_refl _ s
  · exact only_ite _ (modEp_frame s k _).widen (only_ite _ (askRead_frame s _ _ _).widen
      (only_ite _ (hmaAsk_frame s _ _).widen (only_refl _ s)))

theorem epAsk_frame (s : State) (k : EpN) : only epParts s (epAsk s k) := by
  have hdrop : only epParts s (if ringRuns s k then dropBad s k else s) :=
    only_ite _ (dropBad_frame s k) (only_refl _ s)
  exact (hdrop.seq (askDesc_frame _ k) (rs := epParts)).seq (askData_frame _ k)

theorem emptyEp_frame (s : State) (k : EpN) : only epParts s (emptyEp s k) :=
  (modEp_frame s k _).seq (epAsk_frame _ k)

theorem cueDone_frame (s : State) (k : EpN) (atCatch : Bool) : only epParts s (cueDone s k atCatch) := by
  unfold cueDone
  dsimp only
  exact only_ite _ (only_refl _ s) (only_ite _ ((completeHead_frame s k _ _ _ _).seq (emptyEp_frame _ k))
    ((modEp_frame s k _).seq (epAsk_frame _ k)))

end Sys2Proof.Machine
end

section
/-! SUPPORT. The frames of catches and of stroke boundaries, and what they leave of the pace of the part: free values
taken, TB_TIME, AON time and the tally waits of the ports. -/

namespace Sys2Proof.Machine

open Sys2Proof Sys2Proof.Safety

-- One proof after the other: side by side, the proofs of one text wait for each other in too many threads.
set_option Elab.async false

/-! ## Frames (Cue, Time, Route, Suspend) -/

theorem snapRequest_frame (s : State) (src : Nat) : only (.mtr :: evParts) s (snapRequest s src) := by
  unfold snapRequest snapBank
  split
  · exact (mtr_frame s _).widen
  · refine only_ite _ (mtr_frame s _).widen ?_
    exact only_ite _ ((mtr_frame s _).seq (raise_only _ _)) (mtr_frame s _).widen

theorem releaseCues_frame (s : State) (f : PortN → CrewN × Nat → Bool) (atCatch : Bool) :
    only (.ports :: .tt :: epParts) s (releaseCues s f atCatch) := by
  unfold releaseCues
  have hset := (ports_frame s (Vector.ofFn fun n => freeCues s.tt.slots (f n) s.ports[n])).seq (tt_frame _ { s.tt with
    slots := Vector.ofFn fun j =>
      if portAll.any (fun n => releasesSlot (f n) j s.ports[n]) then none else s.tt.slots[j] }) (rs := [.ports, .tt])
  exact hset.seq (forEach_frame _ _ _ fun a k => only_ite _ (cueDone_frame a k atCatch) (only_refl _ a))

/-- The parts in which a catch shows. -/
def catchParts : List Part := [.ports, .tt, .tb, .mtr] ++ epParts

theorem catchCrew_frame (s : State) (k : CrewN) : only catchParts s (catchCrew s k) :=
  (releaseCues_frame s _ true).seq (tb_frame _ _)

theorem catchAll_frame (s : State) (crews : BitVec 8) : only catchParts s (catchAll s crews) := by
  unfold catchAll
  have hcrews := forEach_frame (crewAll.filter fun k => crews.getLsbD k.val && catchDue s k) catchCrew s catchCrew_frame
  exact only_ite _ (hcrews.seq (snapRequest_frame _ 3)) hcrews

theorem strokeStart_frame (s : State) (n : BitVec 32) (b : BitVec 64) : only [.tb, .bus, .tt] s (strokeStart s n b) := by
  intro p hp; cases p <;> first | rfl | exact absurd (by decide) hp

theorem gridCheck_frame (old : Nat) (s : State) : only [.tb, .bus, .tt] s (gridCheck old s) :=
  whenDo_frame _ _ s (strokeStart_frame s _ _)

theorem timeMoved_frame (old : Nat) (s : State) : only (.bus :: catchParts) s (timeMoved old s) :=
  (gridCheck_frame old s).seq (catchAll_frame _ _)

theorem chunkStep_frame (s : State) : only [.tt, .ports, .out] s (chunkStep s) := by
  unfold chunkStep
  refine only_ite _ (only_refl _ s) ?_
  split
  · exact ((modSlot_frame s _ _).seq (noteHwm_frame _) (rs := [.tt, .ports, .out])).seq (sweepRx_frame _)
  · exact only_refl _ s

theorem schedDark_frame (s : State) (n : PortN) : only [.ports] s (schedDark s n) :=
  whenDo_frame _ _ s (modPort_only s n _)

/-! ## The pace of the part -/

/-- What the clocks of an idle tick move: the free values taken, TB_TIME with its correction, AON time, and of each
port the wait between two tallies and whether one is due. -/
structure Pace where
  fresh : Nat
  time : BitVec 64
  corrAcc : Int
  aon : Nat
  tallies : Vector (Nat × Bool) 17

/-- A port's wait between two tallies, and whether one is due. -/
def tallyOf (p : Port) : Nat × Bool := (p.tallyWait, p.tallyDue)

/-- The pace of a state. -/
def pace (s : State) : Pace := ⟨s.fresh, s.tb.time, s.tb.corrAcc, s.aon.time, s.ports.map tallyOf⟩

theorem map_vMod {α β : Type} {n : Nat} (v : Vector α n) (i : Fin n) (f : α → α) (g : α → β) (h : ∀ a, g (f a) = g a) :
    (vMod v i f).map g = v.map g := by
  ext j hj
  by_cases hij : i.val = j
  · subst hij; simp [vMod, h]
  · simp [vMod, hij]

theorem modPort_pace (s : State) (n : PortN) (f : Port → Port) (h : ∀ p, tallyOf (f p) = tallyOf p) :
    pace (modPort s n f) = pace s := by
  simp only [pace, modPort, map_vMod s.ports n f tallyOf h]

/-- The parts of the pace, where ports, TB and AON are left alone. -/
theorem pace_of_only {ps : List Part} {s t : State} (h : only ps s t) (hf : t.fresh = s.fresh)
    (hp : .ports ∉ ps := by decide) (ht : .tb ∉ ps := by decide) (ha : .aon ∉ ps := by decide) : pace t = pace s := by
  have h1 : t.ports = s.ports := h .ports hp
  have h2 : t.tb = s.tb := h .tb ht
  have h3 : t.aon = s.aon := h .aon ha
  simp only [pace, hf, h1, h2, h3]

theorem forEach_pace {α : Type} (l : List α) (f : State → α → State) (s : State)
    (h : ∀ a x, pace (f a x) = pace a) : pace (forEach l f s) = pace s := by
  induction l generalizing s with
  | nil => rfl
  | cons x l ih => exact (ih (f s x)).trans (h s x)

theorem pace_ite (c : Prop) [Decidable c] {a b : State} {p : Pace} (ha : pace a = p) (hb : pace b = p) :
    pace (if c then a else b) = p := by
  split <;> assumption

theorem raiseTo_pace (s : State) (hit : DomN → Bool) (force : Bool) (k : Nat) (e : Ev) :
    pace (raiseTo s hit force k e) = pace s := rfl

theorem raise_pace (s : State) (e : Ev) : pace (raise s e) = pace s := by
  unfold raise
  refine pace_ite _ (raiseTo_pace s _ _ _ _) ?_
  unfold xqPush
  split <;> rfl

theorem sendCrd_pace (s : State) (n : PortN) : pace (sendCrd s n) = pace s := modPort_pace s n _ fun _ => rfl

theorem wakeTx_pace (s : State) (n : PortN) : pace (wakeTx s n) = pace s := by
  unfold wakeTx
  exact pace_ite _ ((sendCrd_pace _ n).trans (modPort_pace s n _ fun _ => rfl)) rfl

theorem returnCredits_pace (s : State) (n : PortN) (nonPer : Bool) (k : Nat) :
    pace (returnCredits s n nonPer k) = pace s := by
  have hmod : pace (modPort s n fun p => if nonPer then { p with crdN := p.crdN + k } else { p with crdP := p.crdP + k })
      = pace s := modPort_pace s n _ fun p => by cases nonPer <;> rfl
  unfold returnCredits
  exact pace_ite _ rfl (pace_ite _ ((sendCrd_pace _ n).trans hmod) (pace_ite _ ((wakeTx_pace _ n).trans hmod) hmod))

theorem sweepRx_pace (s : State) : pace (sweepRx s) = pace s :=
  forEach_pace _ _ s fun a n => (returnCredits_pace _ n _ _).trans ((returnCredits_pace _ n _ _).trans
    (modPort_pace a n _ fun _ => rfl))

theorem feedOne_fresh (s : State) (d : DomN) : (feedOne s d).fresh = s.fresh := by
  unfold feedOne
  dsimp only
  (repeat' split) <;> rfl

theorem forEach_fresh {α : Type} (l : List α) (f : State → α → State) (s : State)
    (h : ∀ a x, (f a x).fresh = a.fresh) : (forEach l f s).fresh = s.fresh := by
  induction l generalizing s with
  | nil => rfl
  | cons x l ih => exact (ih (f s x)).trans (h s x)

theorem tidy_fresh (s : State) (r : Nat) : (tidy s r).fresh = s.fresh := by
  unfold tidy
  dsimp only
  split
  · exact forEach_fresh _ _ _ fun a _ => feedOne_fresh a _
  · rfl

theorem hmaAsk_fresh (s : State) (r : Nat) (q : HReq) : (hmaAsk s r q).fresh = s.fresh := by
  unfold hmaAsk
  dsimp only
  split
  · exact tidy_fresh s r
  · exact tidy_fresh s r

theorem hmaAsk_pace (s : State) (r : Nat) (q : HReq) : pace (hmaAsk s r q) = pace s :=
  pace_of_only (hmaAsk_frame s r q) (hmaAsk_fresh s r q)

theorem askRead_pace (s : State) (r : Nat) (d : DomN) (u : ReadUse) : pace (askRead s r d u) = pace s := by
  unfold askRead
  exact pace_ite _ rfl (hmaAsk_pace s r _)

theorem completeDesc_pace (s : State) (k : EpN) (d : Desc) (status bytes : Nat) (tag : BitVec 7) (cue late : Bool) :
    pace (completeDesc s k d status bytes tag cue late) = pace s := by
  unfold completeDesc
  exact pace_ite _ rfl (raiseTo_pace s _ _ _ _)

theorem completeHead_pace (s : State) (k : EpN) (status bytes : Nat) (cue late : Bool) :
    pace (completeHead s k status bytes cue late) = pace s := by
  unfold completeHead
  split
  · rfl
  · exact completeDesc_pace _ k _ _ _ _ _ _

theorem askData_pace (s : State) (k : EpN) : pace (askData s k) = pace s := by
  unfold askData
  refine pace_ite _ rfl ?_
  split
  · rfl
  · exact pace_ite _ rfl (pace_ite _ (askRead_pace s _ _ _) (pace_ite _ (hmaAsk_pace s _ _) rfl))

theorem epAsk_pace (s : State) (k : EpN) : pace (epAsk s k) = pace s := by
  have hdrop : pace (if ringRuns s k then dropBad s k else s) = pace s := by
    unfold dropBad
    exact pace_ite _ (pace_ite _ (completeHead_pace s k _ _ _ _) rfl) rfl
  have hdesc : ∀ a, pace (askDesc a k) = pace a := fun a => by
    unfold askDesc
    exact pace_ite _ (askRead_pace a _ _ _) rfl
  exact (askData_pace _ k).trans ((hdesc _).trans hdrop)

theorem emptyEp_pace (s : State) (k : EpN) : pace (emptyEp s k) = pace s := epAsk_pace (modEp s k emptied) k

theorem cueDone_pace (s : State) (k : EpN) (atCatch : Bool) : pace (cueDone s k atCatch) = pace s := by
  unfold cueDone
  exact pace_ite _ rfl (pace_ite _ ((emptyEp_pace _ k).trans (completeHead_pace s k _ _ _ _))
    (epAsk_pace (modEp s k _) k))

theorem releaseCues_pace (s : State) (f : PortN → CrewN × Nat → Bool) (atCatch : Bool) :
    pace (releaseCues s f atCatch) = pace s := by
  unfold releaseCues
  refine (forEach_pace _ _ _ fun a k => pace_ite _ (cueDone_pace a k atCatch) rfl).trans ?_
  have hports : (Vector.ofFn fun n => freeCues s.tt.slots (f n) s.ports[n]).map tallyOf = s.ports.map tallyOf := by
    ext j hj <;> simp [freeCues, tallyOf]
  simp only [pace, hports]

theorem snapRequest_pace (s : State) (src : Nat) : pace (snapRequest s src) = pace s := by
  unfold snapRequest snapBank
  split
  · rfl
  · exact pace_ite _ rfl (pace_ite _ (raise_pace _ _) rfl)

theorem catchAll_pace (s : State) (crews : BitVec 8) : pace (catchAll s crews) = pace s := by
  have hcrews := forEach_pace (crewAll.filter fun k => crews.getLsbD k.val && catchDue s k) catchCrew s
    fun a k => releaseCues_pace a _ true
  unfold catchAll
  exact pace_ite _ ((snapRequest_pace _ 3).trans hcrews) hcrews

theorem timeMoved_pace (old : Nat) (s : State) : pace (timeMoved old s) = pace s := by
  refine (catchAll_pace _ _).trans ?_
  unfold gridCheck whenDo
  exact pace_ite _ rfl rfl

theorem chunkStep_pace (s : State) : pace (chunkStep s) = pace s := by
  unfold chunkStep
  refine pace_ite _ rfl ?_
  split
  · exact sweepRx_pace _
  · rfl

theorem schedDark_pace (s : State) (n : PortN) : pace (schedDark s n) = pace s := by
  unfold schedDark whenDo
  split
  · exact modPort_pace s n _ fun _ => rfl
  · rfl

end Sys2Proof.Machine
end

section
/-! PROOF. The machine as a whole: a step runs the front command and always completes (O1, O2), the tables keep their
form (O4, O5), and an idle tick moves the clocks alone (O3). -/

namespace Sys2Proof.Machine

open Sys2Proof Sys2Proof.Safety

-- One proof after the other: side by side, the proofs of one text wait for each other in too many threads.
set_option Elab.async false

/-! ## A step runs the front command -/

theorem step_cons (s : State) (c : Instr) (cs : List Instr) (h : s.pending = c :: cs) :
    step s = exec c { s with pending := cs } := by
  unfold step
  split
  case h_1 hnil => exact absurd (hnil.symm.trans h) nofun
  case h_2 d ds hcons =>
    obtain ⟨rfl, rfl⟩ := List.cons.inj (hcons.symm.trans h)
    rfl

theorem step_nil (s : State) (h : s.pending = []) : step s = .next (idleTick s) := by
  unfold step
  split
  case h_1 => rfl
  case h_2 d ds hcons => exact absurd (h.symm.trans hcons) nofun

/-- Settles O1: it holds, by the definition of a step. -/
theorem stepRunsFront : Obligations.StepRunsFront := fun c cs s h => step_cons s c cs h

/-! ## Every command completes -/

/-- Each arm of the dispatch answers a next state: none faults and none refuses. -/
theorem exec_next (c : Instr) (s : State) : ∃ t, exec c s = .next t := by
  cases c <;> exact ⟨_, rfl⟩

theorem exec_pending (c : Instr) (s t : State) (h : exec c s = .next t) : t.pending = s.pending := by
  by_cases hc : c = .por
  · subst hc
    cases h
    rfl
  · exact (exec_keeps c s t hc h).pending

theorem idleTick_pending (s : State) : (idleTick s).pending = s.pending := congrArg (·.1) (idleTick_view s)

/-- Settles O2: it holds.  Every arm answers a next state, and the laws of the rows keep the queue. -/
theorem everyCommandCompletes : Obligations.EveryCommandCompletes := by
  have hexec : ∀ (c : Instr) (s : State), ∃ t, exec c s = .next t ∧ t.pending = s.pending := fun c s => by
    obtain ⟨t, ht⟩ := exec_next c s
    exact ⟨t, ht, exec_pending c s t ht⟩
  refine ⟨hexec, fun s => ?_⟩
  cases hq : s.pending with
  | nil => exact ⟨_, step_nil s hq, (idleTick_pending s).trans hq⟩
  | cons c cs =>
    obtain ⟨t, ht, hp⟩ := hexec c { s with pending := cs }
    exact ⟨t, (step_cons s c cs hq).trans ht, hp⟩

/-! ## The tables -/

theorem tablesWf_iff (s : State) : tablesWf s = true ↔
    tabWf 0#8 s.ln.mem = true ∧ tabWf McEnt.zero s.bus.mc = true ∧ tabWf 0#16 s.bus.sched = true := by
  simp [tablesWf, and_assoc]

/-- What keeps the view of a state keeps its tables in form. -/
theorem Keeps.tables {s t : State} (h : Keeps s (view t)) (hs : tablesWf s = true) : tablesWf t = true := by
  obtain ⟨hmem, hmc, hsched⟩ := (tablesWf_iff s).mp hs
  exact (tablesWf_iff t).mpr ⟨h.mem hmem, h.mc hmc, h.sched hsched⟩

theorem reset_tablesWf : tablesWf State.reset = true := by decide

theorem porFall_tablesWf (s : State) : tablesWf (porFall s) = true := reset_tablesWf

/-- Settles O4: it holds.  POR leaves the tables empty, every other row keeps them by its law, and so does an idle
tick. -/
theorem stepKeepsTables : Obligations.StepKeepsTables := by
  intro s t hs h
  cases hq : s.pending with
  | nil =>
    rw [step_nil s hq] at h
    cases h
    exact Keeps.tables ((idleTick_view s).symm ▸ Keeps.refl s) hs
  | cons c cs =>
    rw [step_cons s c cs hq] at h
    by_cases hc : c = .por
    · subst hc
      cases h
      exact porFall_tablesWf _
    · exact Keeps.tables (exec_keeps c _ t hc h) hs

/-- Settles O5: it holds, by the values at reset. -/
theorem resetTables : Obligations.ResetTables := ⟨reset_tablesWf, rfl, rfl, rfl, rfl, rfl⟩

/-! ## The idle tick (log entry 5) -/

/-- The parts that a tick of CORE may change. -/
def coreParts : List Part := [.mtr, .aon, .doms, .ln, .hma, .que, .ports, .bus, .tt, .tb, .out]

theorem corrTick_frame (s : State) (k : Tb) : only coreParts s (timeMoved (now s) { s with tb := k }) :=
  (tb_frame s k).seq (timeMoved_frame _ _)

theorem tickCore_frame (s : State) : only coreParts s (tickCore s) := by
  unfold tickCore
  exact only_ite _ (corrTick_frame s _) (only_refl _ s)

theorem tickTally_frame (s : State) (n : PortN) : only [.ports, .out] s (tickTally s n) :=
  (modPort_only s n _).seq (tallyTry_frame _ n)

theorem tickPorts_frame (s : State) : only coreParts s (tickPorts s) := by
  unfold tickPorts
  have htally := forEach_frame portAll tickTally s tickTally_frame
  have hdark : ∀ a, only [.ports] a (forEach portAll schedDark a) := fun a => forEach_frame _ _ a schedDark_frame
  exact only_ite _ ((htally.seq (chunkStep_frame _) (rs := coreParts)).seq (hdark _)) (only_refl _ s)

/-- The state between the ticks of CORE and those of the other clocks. -/
def coreTicked (s : State) : State := tickPorts (tickCore s)

theorem coreTicked_frame (s : State) : only coreParts s (coreTicked s) := (tickCore_frame s).seq (tickPorts_frame _)

theorem linkOn_of_frame {ps : List Part} {s t : State} (h : only ps s t) (hr : .rst ∉ ps := by decide)
    (hp : .pm ∉ ps := by decide) : linkOn t = linkOn s := by
  have h1 : t.rst = s.rst := h .rst hr
  have h2 : t.pm = s.pm := h .pm hp
  simp only [linkOn, h1, h2]

theorem powerOn_of_frame {ps : List Part} {s t : State} (h : only ps s t) (hr : .rst ∉ ps := by decide) :
    powerOn t = powerOn s := by
  have h1 : t.rst = s.rst := h .rst hr
  simp only [powerOn, h1]

theorem coreTicked_off (s : State) (h : linkOn s = false) : coreTicked s = s := by
  simp [coreTicked, tickCore, tickPorts, h]

/-! ### Tally waits -/

/-- A state reached by an operation on each element of a list in turn: what holds of element `n`, and is kept while
the others are done, turns into what its own turn makes of it, once. -/
theorem forEach_turn {α : Type} (l : List α) (hl : l.Nodup) (f : State → α → State) (n : α) (hn : n ∈ l)
    (before after : State → Prop) (hb : ∀ a m, m ≠ n → before a → before (f a m)) (ht : ∀ a, before a → after (f a n))
    (ha : ∀ a m, m ≠ n → after a → after (f a m)) (s : State) (hs : before s) : after (forEach l f s) := by
  have hrest : ∀ (l : List α) (a : State), n ∉ l → after a → after (forEach l f a) := fun l => by
    induction l with
    | nil => exact fun a _ h => h
    | cons m l ih =>
      intro a hm h
      obtain ⟨hne, hm⟩ := not_or.mp (mt List.mem_cons.mpr hm)
      exact ih (f a m) hm (ha a m (Ne.symm hne) h)
  induction l generalizing s with
  | nil => exact absurd hn List.not_mem_nil
  | cons m l ih =>
    obtain ⟨hm, hnd⟩ := List.nodup_cons.mp hl
    by_cases hmn : m = n
    · subst hmn
      exact hrest l (f s m) hm (ht s hs)
    · exact ih hnd ((List.mem_cons.mp hn).resolve_left (Ne.symm hmn)) (f s m) (hb s m hmn hs)

theorem pace_tally {s t : State} (h : pace t = pace s) (n : PortN) : tallyOf t.ports[n] = tallyOf s.ports[n] := by
  have hv : t.ports.map tallyOf = s.ports.map tallyOf := congrArg Pace.tallies h
  simpa using congrArg (·[n]) hv

theorem putTs_pace (s : State) (n : PortN) (k : TsKind) (a0 a1 : Word) : pace (putTs s n k a0 a1) = pace s :=
  wakeTx_pace s n

/-- Asking for a tally on another port leaves this port's wait alone. -/
theorem tickTally_other (s : State) (m n : PortN) (h : m ≠ n) :
    tallyOf (tickTally s m).ports[n] = tallyOf s.ports[n] := by
  unfold tickTally tallyTry
  dsimp only
  split
  · rw [pace_tally (putTs_pace _ m _ _ _) n, modPort_ne _ _ _ _ h.symm, modPort_ne _ _ _ _ h.symm]
  · rw [modPort_ne _ _ _ _ h.symm]

/-- A wait without a tally that is due only runs down. -/
theorem tickTally_self (s : State) (n : PortN) (h : s.ports[n].tallyDue = false) :
    tallyOf (tickTally s n).ports[n] = (s.ports[n].tallyWait - ticksPerCycle s, false) := by
  unfold tickTally tallyTry
  simp [h, tallyOf, -Fin.getElem_fin]

theorem tickTally_fresh (s : State) (n : PortN) : (tickTally s n).fresh = s.fresh := by
  have hput : ∀ a : State, (putTs a n .tallyReq 0#16 0#16).fresh = a.fresh := fun a =>
    congrArg Pace.fresh (putTs_pace a n .tallyReq 0#16 0#16)
  unfold tickTally tallyTry
  dsimp only
  split
  · exact hput _
  · rfl

theorem portAll_nodup : portAll.Nodup := List.nodup_finRange 17

theorem mem_portAll (n : PortN) : n ∈ portAll := List.mem_finRange n

/-- One CORE cycle of the tally waits, seen at a port whose tally is not due. -/
theorem tallies_ticked (s : State) (n : PortN) (h : s.ports[n].tallyDue = false) :
    tallyOf (forEach portAll tickTally s).ports[n] = (s.ports[n].tallyWait - ticksPerCycle s, false) := by
  refine forEach_turn portAll portAll_nodup tickTally n (mem_portAll n)
    (fun a => tallyOf a.ports[n] = tallyOf s.ports[n] ∧ a.clk = s.clk)
    (fun a => tallyOf a.ports[n] = (s.ports[n].tallyWait - ticksPerCycle s, false)) ?_ ?_ ?_ s ⟨rfl, rfl⟩
  · rintro a m hm ⟨ha, hc⟩
    exact ⟨(tickTally_other a m n hm).trans ha, (tickTally_frame a m .clk (by decide)).trans hc⟩
  · rintro a ⟨ha, hc⟩
    obtain ⟨hw, hd⟩ := Prod.mk.inj ha
    rw [tickTally_self a n (hd.trans h), hw]
    simp only [ticksPerCycle, hc]
  · intro a m hm ha
    exact (tickTally_other a m n hm).trans ha

/-! ### TB_TIME -/

theorem tallyWaits_keep_time (s : State) :
    (forEach portAll tickTally s).fresh = s.fresh ∧ (forEach portAll tickTally s).tb = s.tb ∧
      (forEach portAll tickTally s).aon = s.aon :=
  have hf := forEach_frame portAll tickTally s tickTally_frame
  ⟨forEach_fresh _ _ s tickTally_fresh, hf .tb (by decide), hf .aon (by decide)⟩

/-- The rest of a port's cycle keeps the pace. -/
theorem chunksAndDark_pace (s : State) : pace (forEach portAll schedDark (chunkStep s)) = pace s :=
  (forEach_pace _ _ _ schedDark_pace).trans (chunkStep_pace s)

/-- The time base as a tick of CORE advances it. -/
def coreTb (s : State) : Tb :=
  corrTick s.clk.corePll { s.tb with time := s.tb.time + BitVec.ofNat 64 (ticksPerCycle s) }

theorem tickCore_on (s : State) (h : linkOn s = true) :
    tickCore s = timeMoved (now s) { s with tb := coreTb s } := by
  unfold tickCore
  rw [if_pos h]
  rfl

theorem tickCore_pace (s : State) (h : linkOn s = true) :
    pace (tickCore s) = { pace s with time := (coreTb s).time, corrAcc := (coreTb s).corrAcc } := by
  rw [tickCore_on s h]
  exact timeMoved_pace _ _

theorem tickPorts_on (s : State) (h : linkOn s = true) :
    tickPorts s = forEach portAll schedDark (chunkStep (forEach portAll tickTally s)) := by
  unfold tickPorts
  rw [if_pos h]

/-- What a tick of CORE and of the ports does to the pace of the part, while the Link die runs. -/
theorem coreTicked_pace (s : State) (h : linkOn s = true) :
    (coreTicked s).fresh = s.fresh ∧ (coreTicked s).tb.time = (coreTb s).time ∧
    (coreTicked s).tb.corrAcc = (coreTb s).corrAcc ∧ (coreTicked s).aon.time = s.aon.time ∧
    ∀ n : PortN, s.ports[n].tallyDue = false →
      (coreTicked s).ports[n].tallyWait = s.ports[n].tallyWait - ticksPerCycle s := by
  have hmoved := tickCore_pace s h
  have hports := tickPorts_on (tickCore s) ((linkOn_of_frame (tickCore_frame s)).trans h)
  have hrest := chunksAndDark_pace (forEach portAll tickTally (tickCore s))
  rw [← hports] at hrest
  obtain ⟨hfresh, htb, haon⟩ := tallyWaits_keep_time (tickCore s)
  simp only [pace, Pace.mk.injEq] at hmoved hrest
  obtain ⟨m1, m2, m3, m4, -⟩ := hmoved
  obtain ⟨r1, r2, r3, r4, -⟩ := hrest
  refine ⟨r1.trans (hfresh.trans m1), r2.trans ((congrArg Tb.time htb).trans m2),
    r3.trans ((congrArg Tb.corrAcc htb).trans m3), r4.trans ((congrArg Aon.time haon).trans m4), fun n hd => ?_⟩
  have htally : tallyOf (tickCore s).ports[n] = tallyOf s.ports[n] := by
    rw [tickCore_on s h]
    exact pace_tally (timeMoved_pace (now s) { s with tb := coreTb s }) n
  obtain ⟨hwait, hdue⟩ := Prod.mk.inj htally
  have hclk : (tickCore s).clk = s.clk := tickCore_frame s .clk (by decide)
  have hticked := tallies_ticked (tickCore s) n (hdue.trans hd)
  rw [← pace_tally (chunksAndDark_pace (forEach portAll tickTally (tickCore s))) n, ← hports, hwait] at hticked
  simp only [ticksPerCycle, hclk] at hticked
  exact congrArg Prod.fst hticked

/-! ### The other clocks -/

theorem corrTick_uncorrected (pll : Bool) (k : Tb) (h : k.corr = false ∨ pll = false) : corrTick pll k = k := by
  unfold corrTick
  rw [if_pos]
  rcases h with h | h <;> simp [h]

theorem corrTick_corrected (k : Tb) (h : k.corr = true) :
    corrTick true k =
      if 100000000 ≤ k.corrAcc - sInt k.synt then
        { k with time := k.time + 1#64, corrAcc := k.corrAcc - sInt k.synt - 100000000 }
      else if k.corrAcc - sInt k.synt ≤ -100000000 then
        { k with time := k.time - 1#64, corrAcc := k.corrAcc - sInt k.synt + 100000000 }
      else { k with corrAcc := k.corrAcc - sInt k.synt } := by
  unfold corrTick
  rw [if_neg (by simp [h])]

/-- The ticks of the LPO, of the watchdog and of XIN on a state that CORE has ticked. -/
def slowTicked (u : State) : State := bump (tickXin (tickWdt (tickLpo u)))

theorem slowTicked_eq (u : State) : slowTicked u = { u with
    fresh := u.fresh + 1
    aon := { u.aon with time := u.aon.time + if powerOn u && Config.lpoEdge u.fresh then 1 else 0 }
    pm := if powerOn u then { u.pm with idle := idleCount u (if Config.lpoEdge u.fresh then 1 else 0) } else u.pm
    wdt := if powerOn u && Config.wdoscUnit u.fresh then { u.wdt with count := unitCount u.wdt } else u.wdt
    clk := { u.clk with xinOk := u.clk.xinOk || (linkOn u && Config.xinStarts u.fresh) } } := by
  have hlink : ∀ {t : State}, t.rst = u.rst → t.pm.st = u.pm.st → linkOn t = linkOn u := fun h1 h2 => by
    simp only [linkOn, h1, h2]
  unfold slowTicked tickXin tickWdt tickLpo bump
  cases hp : powerOn u
  · have hl : linkOn u = false := by
      cases hl : linkOn u
      · rfl
      · rw [powerOn_of_linkOn u hl] at hp; cases hp
    simp [hp, hl]
  · simp only [if_true, Bool.true_and]
    cases hw : Config.wdoscUnit u.fresh <;> cases hx : Config.xinStarts u.fresh <;> cases hl : linkOn u <;>
      simp_all [powerOn, linkOn]

theorem slowTicked_frame (u : State) : only [.aon, .pm, .wdt, .clk] u (slowTicked u) := by
  rw [slowTicked_eq]
  intro p hp; cases p <;> first | rfl | exact absurd (by decide) hp

theorem idleTick_eq (s : State) : idleTick s = slowTicked (coreTicked s) := rfl

/-- The time base after a tick of CORE, without the rate correction. -/
theorem coreTb_uncorrected (s : State) (h : s.tb.corr = false ∨ s.clk.corePll = false) :
    coreTb s = { s.tb with time := s.tb.time + if s.clk.corePll then 1#64 else 4#64 } := by
  unfold coreTb
  rw [corrTick_uncorrected _ _ (by exact h)]
  cases hp : s.clk.corePll <;> simp [ticksPerCycle, hp]

/-- The rate correction gathers what XIN is fast, and leaves out or adds a whole tick (R153, R157). -/
theorem coreTb_corrected (s : State) (hc : s.tb.corr = true) (hp : s.clk.corePll = true) :
    let a := s.tb.corrAcc - sInt s.tb.synt
    (100000000 ≤ a → (coreTb s).time = s.tb.time + 2#64 ∧ (coreTb s).corrAcc = a - 100000000) ∧
    (a ≤ -100000000 → (coreTb s).time = s.tb.time ∧ (coreTb s).corrAcc = a + 100000000) ∧
    (-100000000 < a → a < 100000000 → (coreTb s).time = s.tb.time + 1#64 ∧ (coreTb s).corrAcc = a) := by
  have hticks : BitVec.ofNat 64 (ticksPerCycle s) = 1#64 := by simp [ticksPerCycle, hp]
  have heq : coreTb s = _ := (congrArg (corrTick · _) hp).trans (corrTick_corrected _ hc)
  rw [heq, hticks]
  dsimp only
  refine ⟨fun h => ?_, fun h => ?_, fun h1 h2 => ?_⟩
  · rw [if_pos h]
    exact ⟨by bv_omega, rfl⟩
  · rw [if_neg (by omega), if_pos h]
    exact ⟨by bv_omega, rfl⟩
  · rw [if_neg (by omega), if_neg (by omega)]
    exact ⟨rfl, rfl⟩

/-- Settles O3: it holds.  CORE's tick moves TB_TIME and the tally waits, the slow clocks move AON time, the idle
count, WDT_COUNT and XIN; the frames of both give the rest. -/
theorem idleTickAdvancesTime : Obligations.IdleTickAdvancesTime := by
  intro s hs
  have hu := coreTicked_frame s
  have hslow := slowTicked_frame (coreTicked s)
  have hrst : (coreTicked s).rst = s.rst := hu .rst (by decide)
  have hpm : (coreTicked s).pm = s.pm := hu .pm (by decide)
  have hwdt : (coreTicked s).wdt = s.wdt := hu .wdt (by decide)
  have hclk : (coreTicked s).clk = s.clk := hu .clk (by decide)
  have hlink := linkOn_of_frame hu
  have hpower := powerOn_of_frame hu
  have hfresh : (coreTicked s).fresh = s.fresh := by
    cases hl : linkOn s
    · rw [coreTicked_off s hl]
    · exact (coreTicked_pace s hl).1
  have haon : (coreTicked s).aon.time = s.aon.time := by
    cases hl : linkOn s
    · rw [coreTicked_off s hl]
    · exact (coreTicked_pace s hl).2.2.2.1
  have htb : (idleTick s).tb = (coreTicked s).tb := hslow .tb (by decide)
  have hports : (idleTick s).ports = (coreTicked s).ports := hslow .ports (by decide)
  have htime : linkOn s = true → (idleTick s).tb.time = (coreTb s).time ∧ (idleTick s).tb.corrAcc = (coreTb s).corrAcc :=
    fun hl => by
      obtain ⟨-, ht, ha, -, -⟩ := coreTicked_pace s hl
      rw [htb]
      exact ⟨ht, ha⟩
  refine ⟨idleTick s, step_nil s hs, (idleTick_pending s).trans hs, ?fresh, fun hl hc => ?free, fun hl hc hp => ?firc,
    fun hl hc hp => ?pll, fun n hl hd => ?tally, ?aonTime, fun hp hst => ?idle, ?watchdog, ?xin, fun hl => ?off,
    hu.seq hslow⟩
  case fresh => exact congrArg (· + 1) hfresh |>.symm ▸ (congrArg State.fresh (slowTicked_eq (coreTicked s)))
  case free =>
    obtain ⟨ht, ha⟩ := htime hl
    rw [ht, ha, coreTb_uncorrected s (.inl hc)]
    exact ⟨rfl, rfl⟩
  case firc =>
    rw [(htime hl).1, coreTb_uncorrected s (.inr hp), hp]
    rfl
  case pll =>
    obtain ⟨ht, ha⟩ := htime hl
    rw [ht, ha]
    exact coreTb_corrected s hc hp
  case tally =>
    rw [hports]
    exact (coreTicked_pace s hl).2.2.2.2 n hd
  case aonTime => rw [idleTick_eq, slowTicked_eq, haon, hpower, hfresh]
  case idle =>
    have hl : linkOn s = false := by simp [linkOn, hst]
    rw [idleTick_eq, slowTicked_eq, coreTicked_off s hl, if_pos hp]
    simp [idleCount, hst]
  case watchdog => rw [idleTick_eq, slowTicked_eq, hwdt, hpower, hfresh]
  case xin => rw [idleTick_eq, slowTicked_eq, hclk, hlink, hfresh]
  case off =>
    rw [idleTick_eq, coreTicked_off s hl, slowTicked_eq]
    intro p hp
    cases p
    case aon | pm | wdt => exact absurd (by decide) hp
    case clk => simp [same, hl]
    all_goals rfl

end Sys2Proof.Machine
end

section
/-! PROOF. The commands of a die that does not run: while the Power die is in reset nothing acts (O7); while the Link
die does not run a read of TB_TIME0 by the management SPI still puts a frame out (O8). -/

namespace Sys2Proof.Machine

open Sys2Proof Sys2Proof.Safety

-- One proof after the other: side by side, the proofs of one text wait for each other in too many threads.
set_option Elab.async false

theorem linkOn_of_powerOff (s : State) (h : powerOn s = false) : linkOn s = false := by
  cases hl : linkOn s with
  | false => rfl
  | true => rw [powerOn_of_linkOn s hl] at h; cases h

/-- Settles O7: it holds.  A row outside the pins and supplies acts through `onPower`, or through `onLink`, which
needs the Power die too. -/
theorem powerDieInReset : Obligations.PowerDieInReset := by
  intro c s h ha
  have hl := linkOn_of_powerOff s h
  cases c with
  | por | porRelease | resetNAssert | resetNRelease | perstAssert | perstRelease => cases ha
  | aonBrownout | swrst | cfgLoad | bytewrClear | byteWrite | clkPlanWrite | sdQualified | signalLoss | portRetrain |
    portCntClr | portDisable | portEnable | ttCntClr | tbTime0Read | portSuspend | portResume | beaconFromAbove |
    upBcnDeassert | bcnDriveEnd | upHoldSdEnd | domRightsWrite | cutClear | lnEnable | lnDisable | epEnable |
    epDisable | epCntClr | epmaskWrite | domainEnable | domainDisable | resyncGo | queuePointerMismatch |
    queueInject | qCntClr | evfPop | evfFlush | ppsOn | ppsOff | ppsFclr | powerGood | powerGoodLoss | foldTmo | oc |
    shortOff | gateStuck | reverse | legopen | retryEnd | retryCountClear | gateOffCheckpoint | dischargeEnd |
    offDischargeEnd | budgetWrite | pclassWrite | gangWrite | vlinkLow | vlinkRestored | snapshotGo |
    snapshotComplete | stowIdleExpiry | pmReqFeather | pmReqStow | kregLowPower | kregBoostEnd | kregHeavy |
    wakeSource | corePgRise | linkDieResetRelease | powerUpFailure | powerUpRetry | linkDiePowerLoss |
    corelossRestart | wdtTimeout | wdtServiceWrite | wdtKeyWrite | wdtEnable | wdtLockSet | wdtPeriodWrite |
    wdtGraceEnd | hostRstEnd | bbRearm | bbClear | bbIndexWrite | supplyFail | bbTestFlush | flashSuspended |
    pageProgramDone | supplyRestored | flRead | flNext | flProgram | flErase4k | flErase64k | flAbort | flOpDone |
    mgWrite | mgRead | mgWriteBurst | mgReadBurst | mgStatus | reglockWrite | registerWrite | xinLoss | sdChange |
    mgCsNFalling | frameerr => exact onPower_off s _ h
  | _ => exact onLink_off s _ hl

/-- A part in STOW, as it stands otherwise after a reset: the Link die does not run, the Power die does. -/
def stowed : State := { State.reset with pm := { State.reset.pm with st := .stow } }

/-- Refutes O8: TB_TIME0_READ carries the reads of every path, that of the management SPI too, and is no row of the
Power die; in STOW such a read is a frame, whose status byte goes out. -/
theorem not_linkDieOff : ¬ Obligations.LinkDieOff := by
  intro h
  have hsame := h (.tbTime0Read (.reg .mg)) stowed rfl rfl
  have hout : (hostRead stowed (.reg .mg)).out = stowed.out := congrArg State.out (Host.Outcome.next.inj hsame)
  exact absurd hout (by decide)

end Sys2Proof.Machine
end

section
/-! PROOF. The resets that reach the Power die: POR and its release (O9), RESET_N and the AON brown-out (O10). -/

namespace Sys2Proof.Machine

open Sys2Proof Sys2Proof.Safety

-- One proof after the other: side by side, the proofs of one text wait for each other in too many threads.
set_option Elab.async false

/-- A sampling of the straps may leave an entry in B0, and nothing else. -/
theorem strapCheck_eq (s : State) : ∃ b, strapCheck s = { s with bb := b } := by
  unfold strapCheck
  split
  · exact ⟨_, rfl⟩
  · exact ⟨s.bb, rfl⟩

/-! ## POR (R29, R30, R44) -/

/-- POR's release, but for the rise of PWR_EN. -/
def porRisen (s : State) (straps : Word) (b : Bb) : State :=
  let s1 := sampleStraps s straps
  { s1 with
    rst := { s1.rst with por := false, cause := s1.rst.cause ||| 0x0001#16 }
    pm := { s1.pm with st := .waking, restart := 2 }
    pps := s1.pps.map fun p => { p with discharging := true }
    bb := b }

theorem porRise_eq (s : State) (straps : Word) : ∃ b,
    porRise s straps = if s.rst.pin then porRisen s straps b else raisePwr (porRisen s straps b) := by
  let s1 := sampleStraps s straps
  let s2 : State := { s1 with
    rst := { s1.rst with por := false, cause := s1.rst.cause ||| 0x0001#16 }
    pm := { s1.pm with st := .waking, restart := 2 }
    pps := s1.pps.map fun p => { p with discharging := true } }
  obtain ⟨b, hb⟩ := strapCheck_eq (bbPow s2 0x02 0 s2.rst.cause 0#16)
  exact ⟨b, congrArg (fun x => if s.rst.pin then x else raisePwr x) hb⟩

theorem porRisen_frame (s : State) (straps : Word) (b : Bb) :
    only [.rst, .wdt, .pm, .pps, .bb] s (porRisen s straps b) := by
  intro p hp; cases p <;> first | rfl | exact absurd (by decide) hp

theorem raisePwr_frame (s : State) : only [.pm] s (raisePwr s) := pm_frame s _

theorem porRisen_discharging (s : State) (straps : Word) (b : Bb) (m : DnN) :
    (porRisen s straps b).pps[m] = { s.pps[m] with discharging := true } := by
  simp [porRisen, sampleStraps]

theorem exec_porRelease (straps : Word) (s : State) (h : s.rst.por = true) :
    exec (.porRelease straps) s = .next (porRise s straps) := by
  show Host.Outcome.next (whenDo _ _ s) = _
  rw [h, whenDo_true]

/-- Settles O9: it holds.  POR is the reset state but for what its rule keeps; the release raises PWR_EN unless
RESET_N is low. -/
theorem porAndRelease : Obligations.PorAndRelease := by
  refine ⟨fun s => ⟨porFall s, rfl, rfl, rfl, rfl, rfl, rfl, rfl, rfl, rfl, rfl, rfl, rfl, rfl, rfl, rfl⟩,
    fun straps s hpor hpin => ?high, fun straps s hpor hpin => ?low⟩
  case high =>
    obtain ⟨b, hb⟩ := porRise_eq s straps
    rw [if_neg (by simp [hpin])] at hb
    refine ⟨_, exec_porRelease straps s hpor, ?_⟩
    rw [hb]
    exact ⟨rfl, rfl, rfl, rfl, rfl, rfl, porRisen_discharging s straps b,
      (porRisen_frame s straps b).seq (raisePwr_frame _)⟩
  case low =>
    obtain ⟨b, hb⟩ := porRise_eq s straps
    rw [if_pos hpin] at hb
    refine ⟨_, exec_porRelease straps s hpor, ?_⟩
    rw [hb]
    exact ⟨rfl, rfl, rfl, porRisen_frame s straps b⟩

/-! ## RESET_N (R40, R41) -/

theorem pinRise_eq (s : State) (straps : Word) : ∃ b, pinRise (sampleStraps s straps) =
    raisePwr { sampleStraps s straps with rst := { sampled straps s.rst with pin := false }, bb := b } := by
  obtain ⟨b, hb⟩ := strapCheck_eq { sampleStraps s straps with rst := { sampled straps s.rst with pin := false } }
  exact ⟨b, congrArg raisePwr hb⟩

theorem pinReset_energy (s : State) (m : DnN) : (pinReset s).mtr.ports[m].e = s.mtr.ports[m].e := by
  show (s.mtr.ports.map mportKeep)[m.val].e = _
  simp [mportKeep]

/-! ## The AON brown-out (R345) -/

/-- PME_Status as the wake from STOW that PME shows leaves it (R348). -/
def pmeShown (s : State) (d : DomN) : Bool :=
  s.aon.pmeStat[d] || (decide (d = 0) && decide (s.pm.st = .stow) && s.aon.pmeEn[(0 : DomN)] && epStrap s)

theorem pmeWake_stat (s : State) (d : DomN) : (whenDo (s.pm.st = .stow) pmeWake s).aon.pmeStat[d] = pmeShown s d := by
  unfold pmeShown
  by_cases hst : s.pm.st = .stow
  · rw [decide_eq_true hst, whenDo_true]
    by_cases hd : d = 0
    · subst hd
      simp [pmeWake, vMod_get_self, -Fin.getElem_fin]
    · simp [pmeWake, vMod_get_ne _ _ _ _ hd, hd, -Fin.getElem_fin]
  · rw [decide_eq_false hst, whenDo_false]
    simp

/-- What a brown-out keeps of the state it acts on, the wake that PME shows included. -/
theorem pmeWake_keeps (s : State) : only [.aon] s (whenDo (s.pm.st = .stow) pmeWake s) ∧
    (whenDo (s.pm.st = .stow) pmeWake s).aon.pmeEn = s.aon.pmeEn := by
  unfold whenDo
  split
  · exact ⟨aon_frame s _, rfl⟩
  · exact ⟨only_refl _ s, rfl⟩

/-- The brown-out proper, on a state whose wake PME has shown. -/
def brownedOut (u : State) : State :=
  let s1 := powerReset (linkReset u false) 1 Bb.reset
  let s2 := { s1 with
    rst := { s1.rst with cause := s1.rst.cause ||| 0x0002#16 }
    aon := { s1.aon with ports := Vector.ofFn fun n : PortN => reforward s1.aon.upBcn n s1.aon.ports[n] } }
  raisePwr (bbPow s2 0x02 0 s2.rst.cause 0#16)

theorem brownOut_eq (s : State) (h : s.rst.due = false) :
    brownOut s = brownedOut (whenDo (s.pm.st = .stow) pmeWake s) := by
  have hrst : (whenDo (s.pm.st = .stow) pmeWake s).rst = s.rst := (pmeWake_keeps s).1 .rst (by decide)
  exact dueReset_none _ ((congrArg Rst.due hrst).trans h)

/-- The entry of the reset is the first of an empty B0. -/
theorem brownedOut_bb (u : State) : (brownedOut u).bb.count = 1 ∧ (brownedOut u).bb.head = 1 := by
  have hstore : ∀ e, (bbStore Bb.reset e).count = 1 ∧ (bbStore Bb.reset e).head = 1 := fun e => by
    simp [bbStore, bbFreeze, Bb.reset, bit, satInc]
  exact hstore _

/-- Settles O10: it holds.  RESET_N resets both dies and keeps what R40 lists, its rise samples the straps, and a
brown-out starts the record and the wake afresh. -/
theorem pinResetAndBrownOut : Obligations.PinResetAndBrownOut := by
  refine ⟨fun s hpin hpor hflush => ?fall, fun straps s hpin hpor hdue => ?rise, fun s hon hst hdue => ?brownOut⟩
  case fall =>
    refine ⟨pinReset s, ?_, rfl, rfl, rfl, rfl, rfl, rfl, rfl, rfl, rfl, rfl, rfl, rfl, rfl, pinReset_energy s, rfl,
      rfl, rfl, rfl⟩
    rw [exec_resetNAssert s hpin, pinFall_idle s hpor hflush]
  case rise =>
    obtain ⟨b, hb⟩ := pinRise_eq s straps
    refine ⟨_, rfl, ?_⟩
    unfold pinRelease
    rw [if_neg (by simp [hpor]), if_neg (by simp [hdue]), if_pos hpin, hb]
    refine ⟨rfl, rfl, rfl, rfl, rfl, fun p hp => ?_⟩
    cases p <;> first | rfl | exact absurd (by decide) hp
  case brownOut =>
    have hlow : lowKeep s = true := by rcases hst with h | h <;> simp [lowKeep, h]
    obtain ⟨hkeep, hen⟩ := pmeWake_keeps s
    have hrst : (whenDo (s.pm.st = .stow) pmeWake s).rst = s.rst := hkeep .rst (by decide)
    have hwdt : (whenDo (s.pm.st = .stow) pmeWake s).wdt = s.wdt := hkeep .wdt (by decide)
    refine ⟨brownedOut (whenDo (s.pm.st = .stow) pmeWake s), ?_, (congrArg (fun r : Rst => r.cause ||| 0x0002#16) hrst :), rfl,
      rfl, rfl, (brownedOut_bb _).1, (brownedOut_bb _).2, (congrArg Wdt.lock hwdt :), rfl, rfl, hen, pmeWake_stat s⟩
    rw [← brownOut_eq s hdue]
    refine (onPower_on s _ hon).trans ?_
    rw [hlow, whenDo_true]

end Sys2Proof.Machine
end

section
/-! PROOF. Register writes by every path (O11). -/

namespace Sys2Proof.Machine

open Sys2Proof Sys2Proof.Safety

-- One proof after the other: side by side, the proofs of one text wait for each other in too many threads.
set_option Elab.async false

theorem exec_registerWrite (s : State) (p : Path) (off : Word) (x : ByteEn × BitVec 32) (more : List (ByteEn × BitVec 32))
    (h : powerOn s = true) : exec (.registerWrite p off x more) s = .next (registerWrite s p off.toNat (x :: more)) :=
  onPower_on s _ h

/-- A write of one DW is that DW. -/
theorem registerWrite_one (s : State) (p : Path) (off : Nat) (x : ByteEn × BitVec 32) :
    registerWrite s p off [x] = registerDw s p off x.1 x.2 := rfl

theorem registerWrite_shift (p : Path) (off : Nat) (l : List (ByteEn × BitVec 32)) (k : Nat) (s : State) :
    forEach (l.zipIdx (k + 1)) (fun a y => registerDw a p (off + 4 * y.2) y.1.1 y.1.2) s =
      forEach (l.zipIdx k) (fun a y => registerDw a p (off + 4 + 4 * y.2) y.1.1 y.1.2) s := by
  have hoff : ∀ j, off + 4 * (j + 1) = off + 4 + 4 * j := fun j => by omega
  rw [List.zipIdx_succ]
  simp only [forEach, List.foldl_map, hoff]

/-- The DWs act in ascending address order, one after the other (R193). -/
theorem registerWrite_cons (s : State) (p : Path) (off : Nat) (x : ByteEn × BitVec 32) (l : List (ByteEn × BitVec 32)) :
    registerWrite s p off (x :: l) = registerWrite (registerDw s p off x.1 x.2) p (off + 4) l := by
  unfold registerWrite
  rw [← registerWrite_shift]
  simp only [forEach, List.zipIdx_cons, List.foldl_cons, Nat.mul_zero, Nat.add_zero]

/-- A reserved offset of PF BAR0 takes nothing from any path that reaches the registers. -/
theorem registerDw_reserved (s : State) (p : Path) (off : Nat) (be : ByteEn) (v : BitVec 32) (h : reaches s p = true)
    (hoff : off < 65536) (hr : regAtWord (off / 4) = none) (hm : ¬ (0x6000 ≤ off ∧ off < 0x6808)) :
    registerDw s p off be v = s := by
  have hpf : regAtPf (off / 4 * 4) = none := (regAt_pf_dw off).trans hr
  cases p with
  | vf w => cases h
  | restore => cases h
  | pf => exact (registerDw_pf s off be v h).trans (dwWrite_reserved s _ _ _ be v (not_inMsix_pf off hm) hpf)
  | mg =>
    simp only [reaches, Bool.and_eq_true, Bool.not_eq_true'] at h
    obtain ⟨hl, hw⟩ := h
    have hst : s.pm.st = .run := by
      simp only [linkOn, Bool.and_eq_true, decide_eq_true_eq] at hl
      exact hl.1.1
    have hreg : mgReg (off / 4) = none := by simp [mgReg, hr]
    have haddr : off / 4 % 65536 = off / 4 := by omega
    simp [registerDw, pathWrite, mgWrite, burst, forEach, mgWord, mgMayHold, haddr, hst, hreg,
      mgBarred_of_free s _ hw, mgMisses_of_link s _ hl]
  | hub | cmd | image =>
    simp only [reaches] at h
    simp [registerDw, pathWrite, innerWrite, regAt, hpf]

theorem registerDw_linkOff (s : State) (p : Path) (off : Nat) (be : ByteEn) (v : BitVec 32) (h : linkOn s = false)
    (hp : p ≠ .mg) : registerDw s p off be v = s := by
  cases p with
  | mg => exact absurd rfl hp
  | pf | vf => simp [registerDw, hostDw, h]
  | hub | cmd | image | restore => simp [registerDw, pathWrite, innerWrite, h]

theorem registerWrite_still (s : State) (p : Path) (h : ∀ off be v, registerDw s p off be v = s) (off : Nat)
    (l : List (ByteEn × BitVec 32)) : registerWrite s p off l = s := by
  induction l generalizing off with
  | nil => rfl
  | cons x l ih => rw [registerWrite_cons, h, ih]

/-- A write that changes nothing once it acts changes nothing at all. -/
theorem exec_registerWrite_still (s : State) (p : Path) (off : Word) (x : ByteEn × BitVec 32)
    (more : List (ByteEn × BitVec 32)) (h : ∀ off be v, registerDw s p off be v = s) :
    exec (.registerWrite p off x more) s = .next s := by
  cases hp : powerOn s
  · exact onPower_off s _ hp
  · rw [exec_registerWrite s p off x more hp, registerWrite_still s p h]

/-- The host's write through a closed window is refused (R190, R196). -/
theorem registerDw_closed (s : State) (d : DomN) (p : Path) (off : Nat) (be : ByteEn) (v : BitVec 32)
    (hp : (p = .pf ∧ d = 0) ∨ ∃ w, p = .vf w ∧ d = vfDom w) (hl : linkOn s = true) (hw : winOpen s d = false) :
    registerDw s p off be v = winRefuse s d false := by
  rcases hp with ⟨rfl, rfl⟩ | ⟨w, rfl, rfl⟩ <;> simp [registerDw, hostDw, hl, hw]

/-- Settles O11: it holds.  A write is its DWs in turn; what one DW does hangs on its window, on its lanes and on the
register its offset names. -/
theorem registerWrites : Obligations.RegisterWrites := by
  refine ⟨fun p off be v r s h hb hr => ?reg, fun w off be v r s hl hw hb hr => ?vfReg, fun off v s h hm => ?noLane,
    fun p off be v s h hb hr hm => ?reserved, fun p off x y more s t u hoff hpow ht hu => ?several,
    fun off be v s hl hw => ?pfClosed, fun w off be v s hl hw => ?vfClosed, fun p off x more s hl hp => ?linkOff,
    fun off x more s => ?restore⟩
  case reg =>
    rw [exec_registerWrite s p off _ _ (powerOn_of_reaches s p h), registerWrite_reaches s p off be v r h hb hr]
  case vfReg =>
    obtain ⟨hmsix, hpba⟩ := not_inMsix_vf w off.toNat (by have := regAtVf_below_msix _ _ r hr; omega)
    rw [exec_registerWrite s _ off _ _ (powerOn_of_linkOn s hl), registerWrite_one, registerDw_vf s w _ _ _ hl hw,
      dwWrite_reg s (.vf w) _ _ v r be hb hmsix hpba hr]
  case noLane =>
    obtain ⟨hmsix, hpba⟩ := not_inMsix_pf off.toNat hm
    rw [exec_registerWrite s _ off _ _ (powerOn_of_reaches s _ h), registerWrite_one, registerDw_pf s _ _ _ h]
    cases hr : regAt .pf (off.toNat / 4 * 4) <;> simp [dwWrite, hmsix, hpba, hr]
  case reserved =>
    rw [exec_registerWrite s p off _ _ (powerOn_of_reaches s p h), registerWrite_one,
      registerDw_reserved s p _ _ _ h off.isLt hr hm]
  case several =>
    cases hp : powerOn s
    · have hs : s = t := Host.Outcome.next.inj ((onPower_off s _ hp).symm.trans ht)
      subst hs
      exact (onPower_off s _ hp).trans ((onPower_off s _ hp).symm.trans hu)
    · have hadd : (off + 4#16).toNat = off.toNat + 4 := by bv_omega
      rw [exec_registerWrite s p off x [] hp, registerWrite_one] at ht
      rw [exec_registerWrite t p _ y more (hpow.trans hp), hadd, ← Host.Outcome.next.inj ht] at hu
      rw [exec_registerWrite s p off x _ hp, registerWrite_cons, hu]
  case pfClosed =>
    rw [exec_registerWrite s _ off _ _ (powerOn_of_linkOn s hl), registerWrite_one,
      registerDw_closed s 0 .pf _ _ _ (.inl ⟨rfl, rfl⟩) hl hw]
  case vfClosed =>
    rw [exec_registerWrite s _ off _ _ (powerOn_of_linkOn s hl), registerWrite_one,
      registerDw_closed s (vfDom w) (.vf w) _ _ _ (.inr ⟨w, rfl, rfl⟩) hl hw]
  case linkOff => exact exec_registerWrite_still s p off x more fun _ _ _ => registerDw_linkOff s p _ _ _ hl hp
  case restore => exact exec_registerWrite_still s _ off x more fun _ _ _ => by simp [registerDw, pathWrite]

end Sys2Proof.Machine
end

section
/-! PROOF. Plain registers read back their writable bits (O12), and write-1-to-clear registers (O13). -/

namespace Sys2Proof.Machine

open Sys2Proof Sys2Proof.Safety

-- One proof after the other: side by side, the proofs of one text wait for each other in too many threads.
set_option Elab.async false

/-! ## Reading back -/

theorem and_allOnes (v : Word) : v &&& 0xFFFF#16 = v := BitVec.and_allOnes

theorem readReg_sched (s : State) (v : Word) (p : PortN) (j : Fin 64) :
    readReg (writeReg s .pf v (.sched p j)) .pf (.sched p j) = v &&& 0xFFF0#16 :=
  (tabGet_set _ _ _ _ _).trans (if_pos rfl)

/-- A word of a multicast entry as it reads after a write of it. -/
theorem readReg_mc (s : State) (v : Word) (k : Fin 256) (r : McReg) :
    readReg (writeReg s .pf v (.mc k r)) .pf (.mc k r) = mcRead (mcPut v (mcEnt s k.val) r) r :=
  congrArg (mcRead · r) ((tabGet_set _ _ _ _ _).trans (if_pos rfl))

theorem dnPort_ne_zero (m : DnN) : dnPort m ≠ 0 := fun h => Nat.succ_ne_zero m.val (congrArg Fin.val h)

/-- A routing bound of a downstream port as it reads after a write of it. -/
theorem readReg_range (s : State) (v : Word) (m : DnN) :
    readReg (writeReg s .pf v (.port (dnPort m) .rangeLo)) .pf (.port (dnPort m) .rangeLo) = v ∧
      readReg (writeReg s .pf v (.port (dnPort m) .rangeHi)) .pf (.port (dnPort m) .rangeHi) = v := by
  simp [writeReg, portWrite, readReg, portRead, dnPort_ne_zero, -Fin.getElem_fin]

theorem readReg_lnUid (s : State) (v : Word) (i : Fin 4) :
    readReg (writeReg s .pf v (.lnUid i)) .pf (.lnUid i) = v := by
  simp [writeReg, lnWrite, readReg]

/-- Settles O12: it holds.  A plain register stores what it is written under its mask; tables by their law of reading
after writing. -/
theorem writtenRegistersReadBack : Obligations.WrittenRegistersReadBack := by
  intro s v
  refine ⟨?plain, fun k => ⟨readReg_mc s v k .grp, readReg_mc s v k .ports, readReg_mc s v k .loc⟩,
    readReg_sched s v, readReg_range s v⟩
  case plain =>
    simp only [List.forall_mem_cons, and_allOnes]
    refine ⟨rfl, rfl, rfl, rfl, rfl, rfl, rfl, rfl, rfl, rfl, rfl, rfl, rfl, readReg_lnUid s v 0, readReg_lnUid s v 3,
      rfl, rfl, nofun⟩

/-! ## Writing 1 to clear -/

theorem domsBut_modDom (s : State) (d : DomN) (f : Dom → Dom) : domsBut d s (modDom s d f) :=
  fun x hx => modDom_ne s d x f hx

theorem portsBut_modPort (s : State) (n : PortN) (f : Port → Port) : portsBut n s (modPort s n f) :=
  fun m hm => modPort_ne s n m f hm

theorem ppsBut_modPps (s : State) (m : DnN) (f : Pps → Pps) : ppsBut m s (modPps s m f) :=
  fun x hx => modPps_ne s m x f hx

theorem epsBut_modEp (s : State) (k : EpN) (f : Ep → Ep) : epsBut k s (modEp s k f) :=
  ⟨fun x hx => modEp_ne s k x f hx, rfl⟩

/-- DOM_ERR through the window of the domain's own function. -/
theorem writeReg_domErr (s : State) (p : Path) (d : DomN) (v : Word) (hp : (p = .pf ∧ d = 0) ∨ ∃ w, p = .vf w ∧ d = vfDom w)
    (h : domExists s d = true) :
    writeReg s p v (.dom d .err) = modDom s d fun x => { x with err := x.err &&& ~~~(v &&& 0x001F#16) } := by
  rcases hp with ⟨rfl, rfl⟩ | ⟨w, rfl, rfl⟩ <;> simp [writeReg, domWrite, h, pfWrites, domOwn]

/-! ### The flags of a crew (R162) -/

/-- A crew with PASS set or left: MISS, FAR and OVER as they were. -/
def sameFlags (c x : Crew) : Prop := x.miss = c.miss ∧ x.far = c.far ∧ x.ovr = c.ovr

theorem flagCrew_tb (s : State) (k : CrewN) (f : Word) : (flagCrew s k f).tb =
    { s.tb with crews := vMod s.tb.crews k fun c =>
      { c with miss := c.miss || bit f 8, far := c.far || bit f 9, ovr := c.ovr || bit f 10, pass := c.pass || bit f 11 } } :=
  raise_tb _ _

/-- Cues let go with PASS leave the other flags of every crew. -/
theorem flagCrew_pass (s : State) (k j : CrewN) : sameFlags s.tb.crews[j] (flagCrew s k 0x0800#16).tb.crews[j] := by
  rw [flagCrew_tb]
  by_cases h : j = k
  · subst h
    rw [vMod_get_self]
    exact ⟨Bool.or_false _, Bool.or_false _, Bool.or_false _⟩
  · rw [vMod_get_ne _ _ _ _ h]
    exact ⟨rfl, rfl, rfl⟩

theorem releaseEarly_flags (s : State) (f : PortN → CrewN × Nat → Bool) (j : CrewN) :
    sameFlags s.tb.crews[j] (releaseEarly s f 0x0800#16).tb.crews[j] := by
  have hlist : ∀ (l : List CrewN) (a : State),
      sameFlags a.tb.crews[j] (forEach l (fun a k => flagCrew a k 0x0800#16) a).tb.crews[j] := fun l => by
    induction l with
    | nil => exact fun _ => ⟨rfl, rfl, rfl⟩
    | cons k l ih =>
      intro a
      obtain ⟨h1, h2, h3⟩ := flagCrew_pass a k j
      obtain ⟨g1, g2, g3⟩ := ih (flagCrew a k 0x0800#16)
      exact ⟨g1.trans h1, g2.trans h2, g3.trans h3⟩
  have htb : (releaseEarly s f 0x0800#16).tb = (forEach (heldList s f) (fun a k => flagCrew a k 0x0800#16) s).tb :=
    releaseCues_frame _ f false .tb (by decide)
  rw [htb]
  exact hlist _ s

/-- Where no cue is let go, no crew is flagged. -/
theorem releaseEarly_none (s : State) (f : PortN → CrewN × Nat → Bool) (flag : Word) (h : ∀ n c, f n c = false) :
    (releaseEarly s f flag).tb = s.tb := by
  have hlist : heldList s f = [] := by
    simp only [heldList, List.append_eq_nil_iff, List.map_eq_nil_iff, List.flatMap_eq_nil_iff, List.filter_eq_nil_iff,
      List.filterMap_eq_nil_iff]
    refine ⟨fun n _ c _ => by simp [h], fun k _ => if_neg ?_⟩
    cases hc : s.ln.eps[k].crew <;> simp [h]
  have htb : (releaseEarly s f flag).tb = (forEach (heldList s f) (fun a k => flagCrew a k flag) s).tb :=
    releaseCues_frame _ f false .tb (by decide)
  rw [htb, hlist]
  rfl

/-- CREW_CTRL leaves the outputs of the crew, so a crew that stays enabled keeps its cues. -/
theorem lostBy_enabled (v : Word) (c : Crew) (k : CrewN) (h : bit v 0 = true) (n : PortN) (x : CrewN × Nat) :
    lostBy c (crewCtrlWrite v c) k n x = false := by
  have hmask : crewHas (crewCtrlWrite v c) n.val = crewHas c n.val := rfl
  have hen : (crewCtrlWrite v c).en = true := h
  simp [lostBy, hmask, hen]

theorem writeReg_crewCtrl (s : State) (v : Word) (k : CrewN) :
    sameFlags (crewCtrlWrite v s.tb.crews[k]) (writeReg s .pf v (.crew k .ctrl)).tb.crews[k] ∧
    (bit v 0 = true → (writeReg s .pf v (.crew k .ctrl)).tb.crews[k] = crewCtrlWrite v s.tb.crews[k]) := by
  have hput : writeReg s .pf v (.crew k .ctrl) = releaseEarly (modCrew s k fun _ => crewCtrlWrite v s.tb.crews[k])
      (lostBy s.tb.crews[k] (crewCtrlWrite v s.tb.crews[k]) k) 0x0800#16 := rfl
  have hself := modCrew_self s k fun _ => crewCtrlWrite v s.tb.crews[k]
  rw [hput]
  refine ⟨?_, fun h => ?_⟩
  · have hflags := releaseEarly_flags (modCrew s k fun _ => crewCtrlWrite v s.tb.crews[k])
      (lostBy s.tb.crews[k] (crewCtrlWrite v s.tb.crews[k]) k) k
    rwa [hself] at hflags
  · rw [releaseEarly_none _ _ _ (lostBy_enabled v _ k h), hself]

/-- Settles O13: it holds.  Each register's write is one update of its bits; that of a crew may let cues go, which
touches no flag but PASS. -/
theorem writeOneClears : Obligations.WriteOneClears := by
  intro s v
  refine ⟨rfl, rfl, rfl, fun n => ⟨?port, portsBut_modPort s n _⟩, fun m => ⟨?pps, ppsBut_modPps s m _⟩, rfl, rfl,
    fun k => ?crew, fun h => ?pfErr, fun w h => ?vfErr, fun i => ⟨rfl, rfl, rfl, rfl⟩, fun k => ⟨?ep, epsBut_modEp s k _⟩⟩
  case port => exact congrArg Port.evt (modPort_self s n _)
  case pps => exact congrArg Pps.fault (modPps_self s m _)
  case ep => exact congrArg Ep.allocErr (modEp_self s k _)
  case crew =>
    obtain ⟨⟨hmiss, hfar, hovr⟩, hen⟩ := writeReg_crewCtrl s v k
    exact ⟨hmiss, hfar, hovr, fun h => congrArg Crew.pass (hen h)⟩
  case pfErr =>
    rw [writeReg_domErr s .pf 0 v (.inl ⟨rfl, rfl⟩) h]
    exact ⟨congrArg Dom.err (modDom_self s 0 _), domsBut_modDom s 0 _⟩
  case vfErr =>
    rw [writeReg_domErr s (.vf w) (vfDom w) v (.inr ⟨w, rfl, rfl⟩) h]
    exact ⟨congrArg Dom.err (modDom_self s (vfDom w) _), domsBut_modDom s (vfDom w) _⟩

end Sys2Proof.Machine
end

section
/-! PROOF. Frames of the management SPI (O14), and accesses that a dark Link die or REGLOCK turns away (O15). -/

namespace Sys2Proof.Machine

open Sys2Proof Sys2Proof.Safety

-- One proof after the other: side by side, the proofs of one text wait for each other in too many threads.
set_option Elab.async false

/-! ## The words of a frame -/

theorem st_of_linkOn (s : State) (h : linkOn s = true) : s.pm.st = .run := by
  simp only [linkOn, Bool.and_eq_true, decide_eq_true_eq] at h
  exact h.1.1

theorem mgMayHold_of_linkOn (s : State) (h : linkOn s = true) : mgMayHold s = false := by
  simp [mgMayHold, st_of_linkOn s h]

theorem mgBarred_of_pass (s : State) (r : Option Reg) (h : s.glob.mgWr = false ∨ linkHeld s = false) :
    mgBarred s r = false := by
  rcases h with h | h <;> simp [mgBarred, h]

theorem mgReg_of_word (a : Nat) (r : Reg) (ha : a < 0x4000) (hr : regAtWord a = some r) : mgReg a = some r := by
  simp [mgReg, ha, hr]

theorem mgMisses_reg (s : State) (a : Nat) (r : Reg) (hr : mgReg a = some r) :
    mgMisses s a = (!linkOn s && !onPowerDie r) := by
  simp [mgMisses, hr]

/-- A word that nothing bars, for a register that answers, is written. -/
theorem mgWord_writes (s : State) (a : Nat) (v : Word) (r : Reg) (hr : mgReg a = some r)
    (hb : mgBarred s (some r) = false) (hm : mgMisses s a = false) : mgWord s a v = writeReg s .mg v r := by
  simp [mgWord, hr, hb, hm]

/-- One frame of one word. -/
theorem mgWrite_word (s : State) (a : Nat) (v : Word) (ha : a < 65536) :
    mgWrite s a [v] = if mgMayHold s && mgMisses s a then
      { mgWord s a v with pm := { (mgWord s a v).pm with mgHeld := some (a, [v]) } } else mgWord s a v := by
  simp [mgWrite, burst, forEach, Nat.mod_eq_of_lt ha]

theorem exec_mgWrite (a v : Word) (s : State) (h : powerOn s = true) :
    exec (.mgWrite a v) s = .next (mgFrame s (mgWrite · a.toNat [v])) := onPower_on s _ h

theorem exec_mgWriteBurst (a : Word) (ws : List Word) (s : State) (h : powerOn s = true) :
    exec (.mgWriteBurst a ws) s = .next (mgFrame s (mgWrite · a.toNat ws)) := onPower_on s _ h

theorem exec_mgRead (a : Word) (s : State) (h : powerOn s = true) :
    exec (.mgRead a) s = .next (mgFrame s (mgReadWord · a.toNat)) := onPower_on s _ h

theorem exec_mgReadBurst (a : Word) (n : Nat) (s : State) (h : powerOn s = true) :
    exec (.mgReadBurst a n) s = .next (mgFrame s
      (forEach (List.range n) fun u i => mgReadWord u ((a.toNat + i) % 65536))) := onPower_on s _ h

/-! ## A burst of writes -/

theorem forEach_snoc {α : Type} (l : List α) (x : α) (f : State → α → State) (s : State) :
    forEach (l ++ [x]) f s = f (forEach l f s) x := by
  simp [forEach]

/-- The state after the first k words of a burst have been written, the status byte having gone out. -/
def burstGo (rs : List Reg) (ws : List Word) (s : State) (k : Nat) : State :=
  ((rs.zip ws).take k).foldl (fun u x => writeReg u .mg x.2 x.1) (emit s (.mgStatus (mgStatusByte s)))

theorem burst_length (a : Nat) (ws : List Word) : (burst a ws).length = ws.length := by simp [burst]

/-- Word by word, a burst that reaches each register writes it. -/
theorem burst_writes (a : Nat) (ws : List Word) (rs : List Reg) (s : State) (hlen : rs.length = ws.length)
    (hreg : ∀ i < ws.length, (a + i) % 65536 < 0x4000 ∧ regAtWord ((a + i) % 65536) = rs[i]?)
    (hgo : ∀ k < ws.length, reaches (burstGo rs ws s k) .mg = true) (k : Nat) (hk : k ≤ ws.length) :
    forEach ((burst a ws).take k) (fun u x => mgWord u x.1 x.2) (emit s (.mgStatus (mgStatusByte s))) =
      burstGo rs ws s k := by
  induction k with
  | zero => rfl
  | succ k ih =>
    have hkw : k < ws.length := hk
    have hkr : k < rs.length := hlen ▸ hkw
    have hreach := hgo k hkw
    simp only [reaches, Bool.and_eq_true, Bool.not_eq_true'] at hreach
    obtain ⟨hl, hw⟩ := hreach
    obtain ⟨haddr, hword⟩ := hreg k hkw
    have hmg := mgReg_of_word _ rs[k] haddr (hword.trans (List.getElem?_eq_getElem hkr))
    have hstep := mgWord_writes (burstGo rs ws s k) _ ws[k] rs[k] hmg (mgBarred_of_free _ _ hw) (mgMisses_of_link _ _ hl)
    have hb : (burst a ws)[k]'(by rwa [burst_length]) = ((a + k) % 65536, ws[k]) := by simp [burst]
    have hz : (rs.zip ws)[k]'(by simp [hkw, hkr]) = (rs[k], ws[k]) := by simp
    have hnext : burstGo rs ws s (k + 1) = writeReg (burstGo rs ws s k) .mg ws[k] rs[k] := by
      rw [burstGo, List.take_succ_eq_append_getElem (by simp [hkw, hkr]), List.foldl_append, hz]
      rfl
    rw [List.take_succ_eq_append_getElem (by rwa [burst_length]), forEach_snoc, ih (by omega), hb, hnext]
    exact hstep

/-! ## Reads -/

/-- A read sees nothing of what the part has put out, nor of the management port's own pins. -/
theorem readReg_of_only (s t : State) (p : Path) (r : Reg) (h : only [.mg, .out] s t) : readReg t p r = readReg s p r := by
  obtain ⟨x, y, z, w, ht⟩ : ∃ x y z w, t = { s with pending := x, fresh := y, out := z, mg := w } := by
    refine ⟨t.pending, t.fresh, t.out, t.mg, ?_⟩
    have h' : ∀ p, p ∉ [Part.mg, .out] → same s t p := h
    cases t
    cases s
    simp only [State.mk.injEq, true_and]
    exact ⟨h' .rst (by decide), h' .pm (by decide), h' .wdt (by decide), h' .bb (by decide), h' .pps (by decide),
      h' .ppsg (by decide), h' .mtr (by decide), h' .aon (by decide), h' .glob (by decide), h' .clk (by decide),
      h' .pcie (by decide), h' .doms (by decide), h' .ln (by decide), h' .hma (by decide), h' .ula (by decide),
      h' .que (by decide), h' .fl (by decide), h' .ports (by decide), h' .bus (by decide), h' .tt (by decide),
      h' .tb (by decide), h' .cen (by decide), h' .sur (by decide)⟩
  subst ht
  cases r <;> rfl

theorem emit_mg_frame (s : State) (o : Out) : only [.mg, .out] s (emit s o) := (emit_only s o).widen

/-- A read of a register that pops and latches nothing puts out its value. -/
theorem mgReadWord_plain (s : State) (a : Nat) (hl : linkOn s = true) (he : mgReg a ≠ some (.evfData 0))
    (ht : mgReg a ≠ some (.tbTime 0)) :
    mgReadWord s a = emit s (.readData .mg ((mgReg a).elim 0#16 (readReg s .mg ·))) := by
  unfold mgReadWord
  rw [if_neg (by simp [mgMisses_of_link s a hl])]
  cases hr : mgReg a with
  | none => rfl
  | some r =>
    have hside : mgSide s r = s := by
      cases r
      case evfData i => exact if_neg fun h : i = 0 => he (h ▸ hr)
      case tbTime i => exact if_neg fun h : i = 0 => ht (h ▸ hr)
      all_goals rfl
    simp only [hside, Option.elim]

/-- What the first n words of a burst read put out, the newest first. -/
def burstRead (a n : Nat) (s : State) : List Out :=
  ((List.range n).map fun i => Out.readData .mg ((mgReg ((a + i) % 65536)).elim 0#16 (readReg s .mg ·))).reverse

/-- A burst of plain reads leaves the registers as they are. -/
theorem burst_reads (a n : Nat) (s : State) (os : List Out) (hl : linkOn s = true)
    (hp : ∀ i < n, mgReg ((a + i) % 65536) ≠ some (.evfData 0) ∧ mgReg ((a + i) % 65536) ≠ some (.tbTime 0)) :
    forEach (List.range n) (fun u i => mgReadWord u ((a + i) % 65536)) { s with out := os } =
      { s with out := burstRead a n s ++ os } := by
  induction n with
  | zero => rfl
  | succ n ih =>
    obtain ⟨he, ht⟩ := hp n (by omega)
    rw [List.range_succ, forEach_snoc, ih fun i hi => hp i (by omega)]
    refine (mgReadWord_plain { s with out := burstRead a n s ++ os } _ hl he ht).trans ?_
    simp only [emit, burstRead, List.range_succ, List.map_append, List.reverse_append]
    rfl

theorem wordOf_div (v i : Nat) : wordOf (v / 65536) i = wordOf v (i + 1) := by
  have hpow : 2 ^ (16 * (i + 1)) = 65536 * 2 ^ (16 * i) := by rw [Nat.mul_add, Nat.pow_add]; omega
  unfold wordOf
  rw [hpow, Nat.div_div_eq_div_mul]

/-- A latched word of TB_TIME. -/
theorem mgReadWord_latched (s : State) (a : Nat) (i : Fin 4) (hl : linkOn s = true) (hr : mgReg a = some (.tbTime i))
    (hi : i ≠ 0) : mgReadWord s a = emit s (.readData .mg (wordOf s.tb.latch[(9 : Fin 10)].hi (i.val - 1))) := by
  rw [mgReadWord_plain s a hl (by simp [hr]) (by simp [hr, hi]), hr]
  exact congrArg (fun w => emit s (.readData .mg w)) (if_neg hi)

theorem mgReadWord_time0 (s : State) (hl : linkOn s = true) :
    mgReadWord s 0x0202 = emit (latchTime s .mg) (.readData .mg (wordOf (now s) 0)) := by
  have hr : mgReg 0x0202 = some (.tbTime 0) := by decide
  unfold mgReadWord
  rw [if_neg (by simp [mgMisses_of_link s _ hl]), hr]
  rfl

theorem latchTime_hi (s : State) : (latchTime s .mg).tb.latch[(9 : Fin 10)].hi = now s / 65536 :=
  congrArg (·.hi) (vMod_get_self s.tb.latch (9 : Fin 10) _)

/-- The first DW of a burst from TB_TIME0 latches the rest, so the four words are one time (R146, R194). -/
theorem burst_time (s : State) (hl : linkOn s = true) :
    forEach (List.range 4) (fun u i => mgReadWord u ((0x0202 + i) % 65536)) s =
      { latchTime s .mg with out := [.readData .mg (wordOf (now s) 3), .readData .mg (wordOf (now s) 2),
        .readData .mg (wordOf (now s) 1), .readData .mg (wordOf (now s) 0)] ++ s.out } := by
  have hword : ∀ (u : State) (i : Fin 4), linkOn u = true → i ≠ 0 →
      u.tb.latch[(9 : Fin 10)].hi = now s / 65536 → mgReg (0x0202 + i.val) = some (.tbTime i) →
      mgReadWord u (0x0202 + i.val) = emit u (.readData .mg (wordOf (now s) i.val)) := fun u i hu hi hlatch hr => by
    rw [mgReadWord_latched u _ i hu hr hi, hlatch, wordOf_div, Nat.sub_add_cancel (Nat.pos_of_ne_zero (by simpa using hi))]
  have hlatch := latchTime_hi s
  have hsteps : forEach (List.range 4) (fun u i => mgReadWord u ((0x0202 + i) % 65536)) s =
      mgReadWord (mgReadWord (mgReadWord (mgReadWord s 0x0202) 0x0203) 0x0204) 0x0205 := rfl
  let u := emit (latchTime s .mg) (.readData .mg (wordOf (now s) 0))
  let u1 := emit u (.readData .mg (wordOf (now s) 1))
  let u2 := emit u1 (.readData .mg (wordOf (now s) 2))
  have h1 : mgReadWord u 0x0203 = u1 := hword u 1 hl (by decide) hlatch (by decide)
  have h2 : mgReadWord u1 0x0204 = u2 := hword u1 2 hl (by decide) hlatch (by decide)
  have h3 := hword u2 3 hl (by decide) hlatch (by decide)
  rw [hsteps, mgReadWord_time0 s hl, h1, h2]
  exact h3

/-! ## O14 -/

theorem mgFrame_eq (s : State) (f : State → State) : mgFrame s f =
    { f (emit s (.mgStatus (mgStatusByte s))) with
      mg := { (f (emit s (.mgStatus (mgStatusByte s)))).mg with cs := false } } := rfl

/-- A burst of FEATHER_IDLE and STOW_IDLE, which the Power die holds. -/
theorem mgWrite_idles (s : State) (v w : Word) (h : s.glob.mgWr = false ∨ linkHeld s = false) :
    mgWrite s 0x0102 [v, w] = { s with pm := { s.pm with featherIdle := v, stowIdle := w } } := by
  have h1 : mgReg 0x0102 = some .featherIdle := by decide
  have h2 : mgReg 0x0103 = some .stowIdle := by decide
  have m1 : ∀ u, mgMisses u 0x0102 = false := fun u => by rw [mgMisses_reg u _ _ h1]; exact Bool.and_false _
  have m2 : ∀ u, mgMisses u 0x0103 = false := fun u => by rw [mgMisses_reg u _ _ h2]; exact Bool.and_false _
  have w1 := mgWord_writes s _ v _ h1 (mgBarred_of_pass s _ h) (m1 s)
  have w2 := mgWord_writes { s with pm := { s.pm with featherIdle := v } } _ w _ h2 (mgBarred_of_pass _ _ h) (m2 _)
  have hfirst : mgWord s 0x0102 v = { s with pm := { s.pm with featherIdle := v } } := w1
  have hburst : burst 0x0102 [v, w] = [(0x0102, v), (0x0103, w)] := rfl
  unfold mgWrite
  rw [hburst]
  simp only [List.any_cons, List.any_nil, m1, m2, Bool.or_false, Bool.and_false, Bool.false_eq_true, if_false, forEach,
    List.foldl_cons, List.foldl_nil, hfirst, w2]
  rfl

/-- Settles O14: it holds.  A frame is its status byte, its words in turn, and MG_CS_N high; a word that reaches its
register is one write of it, and a plain read leaves the registers alone. -/
theorem managementFrames : Obligations.ManagementFrames := by
  refine ⟨fun a v r s h ha hr => exec_mgWrite_reaches s a v r h ha hr, fun a ws rs s => ?burst, fun v w s hp hpass => ?idles,
    fun a r s hl ha hr he ht => ?read, fun a n s hl hp => ?reads, fun s hl => ?time, fun s hp => ?status,
    fun s hp => ?frame⟩
  case burst =>
    intro go h hlen hreg hgo
    have hwrites := burst_writes a.toNat ws rs s hlen hreg hgo ws.length le_rfl
    rw [List.take_of_length_le (by rw [burst_length])] at hwrites
    have hlink : linkOn s = true := linkOn_of_reaches s .mg h
    rw [exec_mgWriteBurst a ws s (powerOn_of_reaches s .mg h), mgFrame_eq]
    have hall : mgWrite (emit s (.mgStatus (mgStatusByte s))) a.toNat ws = go ws.length := by
      have hhold := mgMayHold_of_linkOn (emit s (.mgStatus (mgStatusByte s))) hlink
      simp only [mgWrite, hhold, Bool.false_and, Bool.false_eq_true, if_false]
      exact hwrites
    rw [hall]
  case idles =>
    refine ⟨_, exec_mgWriteBurst _ _ s hp, ?_⟩
    have hidles := mgWrite_idles (emit s (.mgStatus (mgStatusByte s))) v w hpass
    rw [mgFrame_eq, show (0x0102#16).toNat = 0x0102 from rfl, hidles]
    exact ⟨rfl, rfl, rfl, rfl, fun p hp => by cases p <;> first | rfl | exact absurd (by decide) hp⟩
  case read =>
    have hmg := mgReg_of_word a.toNat r ha hr
    have hplain := mgReadWord_plain (emit s (.mgStatus (mgStatusByte s))) a.toNat hl (by simpa [hmg] using he)
      (by simpa [hmg] using ht)
    rw [hmg, Option.elim_some, readReg_of_only s _ .mg r (emit_mg_frame s _)] at hplain
    refine ⟨_, exec_mgRead a s (powerOn_of_linkOn s hl), ?_⟩
    rw [mgFrame_eq, hplain]
    exact ⟨rfl, rfl, fun p hp => by cases p <;> first | rfl | exact absurd (by decide) hp⟩
  case reads =>
    have hreads := burst_reads a.toNat n s (.mgStatus (mgStatusByte s) :: s.out) hl hp
    refine ⟨_, exec_mgReadBurst a n s (powerOn_of_linkOn s hl), ?_⟩
    rw [mgFrame_eq]
    dsimp only [emit]
    rw [hreads]
    exact ⟨rfl, rfl, fun p hp => by cases p <;> first | rfl | exact absurd (by decide) hp⟩
  case time =>
    refine ⟨_, exec_mgReadBurst _ 4 s (powerOn_of_linkOn s hl), ?_⟩
    rw [mgFrame_eq, show (0x0202#16).toNat = 0x0202 from rfl, burst_time (emit s _) hl]
    exact ⟨rfl, rfl, fun p hp => by cases p <;> first | rfl | exact absurd (by decide) hp⟩
  case status =>
    exact ⟨_, onPower_on s _ hp, rfl, rfl, rfl, rfl, fun p hp => by
      cases p <;> first | rfl | exact absurd (by decide) hp⟩
  case frame =>
    exact ⟨_, onPower_on s _ hp, rfl, rfl, fun p hp => by cases p <;> first | rfl | exact absurd (by decide) hp⟩

end Sys2Proof.Machine
end

section
/-! PROOF. Management accesses that a dark Link die or REGLOCK turns away (O15), and the commands of GCTRL and REGLOCK
(O16). -/

namespace Sys2Proof.Machine

open Sys2Proof Sys2Proof.Safety

-- One proof after the other: side by side, the proofs of one text wait for each other in too many threads.
set_option Elab.async false

/-! ## Misses (R19, R354) -/

theorem mgMisses_dark (s : State) (a : Nat) (r : Reg) (hl : linkOn s = false) (ha : a < 0x4000)
    (hr : regAtWord a = some r) (hp : onPowerDie r = false) : mgMisses s a = true := by
  rw [mgMisses_reg s a r (mgReg_of_word a r ha hr), hl, hp]
  rfl

theorem mgReadWord_miss (s : State) (a : Nat) (h : mgMisses s a = true) :
    mgReadWord s a = emit (ldMiss s) (.readData .mg 0#16) := if_pos h

theorem mgWord_miss (s : State) (a : Nat) (v : Word) (hb : mgBarred s (mgReg a) = false) (h : mgMisses s a = true) :
    mgWord s a v = ldMiss s := by
  simp [mgWord, hb, h]

theorem mgWord_barred (s : State) (a : Nat) (v : Word) (h : mgBarred s (mgReg a) = true) :
    mgWord s a v = { s with glob := { s.glob with ref := true } } := if_pos h

/-- A write frame that misses: the first after the MG cause is held for replay. -/
theorem mgWrite_miss (s : State) (a : Nat) (v : Word) (ha : a < 65536) (hb : mgBarred s (mgReg a) = false)
    (h : mgMisses s a = true) : mgWrite s a [v] =
      if mgMayHold s then { ldMiss s with pm := { s.pm with mgHeld := some (a, [v]) } } else ldMiss s := by
  rw [mgWrite_word s a v ha, mgWord_miss s a v hb h, h, Bool.and_true]
  rfl

theorem mgMayHold_iff (s : State) :
    mgMayHold s = true ↔ s.pm.st ≠ .run ∧ bit s.pm.replay 12 = true ∧ s.pm.mgHeld = none := by
  simp [mgMayHold, Option.isNone_iff_eq_none, and_assoc]

/-- RET_SEL, which the Power die holds, as a management write stores it. -/
theorem mgWrite_retSel (s : State) (v : Word) (h : s.glob.mgWr = false ∨ linkHeld s = false) :
    mgWrite s 0x0104 [v] = { s with pm := { s.pm with retSel := v &&& 0x000F#16 } } := by
  have hr : mgReg 0x0104 = some .retSel := by decide
  have hm : mgMisses s 0x0104 = false := by rw [mgMisses_reg s _ _ hr]; exact Bool.and_false _
  have hw := mgWord_writes s _ v _ hr (mgBarred_of_pass s _ h) hm
  rw [mgWrite_word s _ v (by decide), hm, Bool.and_false, if_neg Bool.false_ne_true, hw]
  rfl

/-- Settles O15: it holds.  A word is barred, or missed, or written; which of these it is hangs on REGLOCK, on the
die its register lies on and on whether the Link die runs. -/
theorem managementMisses : Obligations.ManagementMisses := by
  refine ⟨fun a r s hp hl ha hr hd => ?read, fun a v r s hp hl hpass ha hr hd => ?write, fun v s hp hl hpass => ?power,
    fun a v s hh hw hnot hsvc => ?barred⟩
  case read =>
    have hmiss := mgReadWord_miss (emit s (.mgStatus (mgStatusByte s))) _ (mgMisses_dark _ a.toNat r hl ha hr hd)
    refine ⟨_, exec_mgRead a s hp, ?_⟩
    rw [mgFrame_eq, hmiss]
    exact ⟨rfl, rfl, fun p hp => by cases p <;> first | rfl | exact absurd (by decide) hp⟩
  case write =>
    have hmiss := mgWrite_miss (emit s (.mgStatus (mgStatusByte s))) _ v a.isLt (mgBarred_of_pass _ _ hpass)
      (mgMisses_dark _ a.toNat r hl ha hr hd)
    have hiff := mgMayHold_iff (emit s (.mgStatus (mgStatusByte s)))
    refine ⟨_, exec_mgWrite a v s hp, ?_⟩
    rw [mgFrame_eq, hmiss]
    by_cases hhold : mgMayHold (emit s (.mgStatus (mgStatusByte s))) = true
    · rw [if_pos hhold]
      exact ⟨rfl, rfl, fun p hp => by cases p <;> first | rfl | exact absurd (by decide) hp, (if_pos (hiff.mp hhold)).symm⟩
    · rw [if_neg hhold]
      exact ⟨rfl, rfl, fun p hp => by cases p <;> first | rfl | exact absurd (by decide) hp,
        (if_neg (mt hiff.mpr hhold)).symm⟩
  case power =>
    have hret := mgWrite_retSel (emit s (.mgStatus (mgStatusByte s))) v hpass
    refine ⟨_, exec_mgWrite _ v s hp, ?_⟩
    rw [mgFrame_eq, show (0x0104#16).toNat = 0x0104 from rfl, hret]
    exact ⟨rfl, rfl, fun p hp => by cases p <;> first | rfl | exact absurd (by decide) hp⟩
  case barred =>
    have hp : powerOn s = true := by
      simp only [linkHeld, Bool.and_eq_true] at hh
      simp [powerOn, hh]
    have hbar : mgBarred (emit s (.mgStatus (mgStatusByte s))) (mgReg a.toNat) = true := by
      have hheld : linkHeld (emit s (.mgStatus (mgStatusByte s))) = true := hh
      simp [mgBarred, hheld, hw, hsvc]
    have hword := mgWord_barred (emit s (.mgStatus (mgStatusByte s))) a.toNat v hbar
    have hwrite := mgWrite_word (emit s (.mgStatus (mgStatusByte s))) a.toNat v a.isLt
    have hmay : mgMayHold (emit s (.mgStatus (mgStatusByte s))) = false := hnot
    rw [hmay, Bool.false_and, if_neg Bool.false_ne_true, hword] at hwrite
    refine ⟨_, exec_mgWrite a v s hp, ?_⟩
    rw [mgFrame_eq, hwrite]
    exact ⟨rfl, rfl, rfl, fun p hp => by cases p <;> first | rfl | exact absurd (by decide) hp⟩

/-! ## GCTRL (R36, R43, R45) -/

theorem exec_gctrl (s : State) (p : Path) (v : Word) (hp : p = .pf ∨ p = .mg) (h : reaches s p = true) :
    regRow p 0x1C v s = .next
      (let s1 := if bit v 2 then { s with glob := { s.glob with bytewr := 0 } } else s
       let s2 := if bit v 1 then cfgLoadGo s1 else s1
       if bit v 0 then softReset s2 else s2) := by
  have hpath : (p = .pf || p = .mg) = true := by simpa using hp
  rw [regRow_reaches s p 0x1C v .gctrl h rfl (by decide) (by decide)]
  exact congrArg Host.Outcome.next (if_pos hpath)

/-- A save of the watchdog's that SWRST cuts short: WDT_SAVE alone changes. -/
theorem abandonSave_eq (s : State) : ∃ k, abandonSave s = { s with wdt := { s.wdt with save := k } } := by
  unfold abandonSave
  split
  · exact ⟨3, rfl⟩
  · exact ⟨s.wdt.save, rfl⟩

theorem ppsLinkReset_switch (b : Bool) (p : Pps) : (ppsLinkReset b p).st = p.st ∧ (ppsLinkReset b p).on = p.on := by
  cases b
  · exact ⟨rfl, rfl⟩
  · unfold ppsLinkReset settleRsv
    dsimp only
    (repeat' split) <;> exact ⟨rfl, rfl⟩

theorem softReset_switch (s : State) (m : DnN) :
    (softReset s).pps[m].st = s.pps[m].st ∧ (softReset s).pps[m].on = s.pps[m].on := by
  obtain ⟨k, hk⟩ := abandonSave_eq s
  obtain ⟨hst, hon⟩ := ppsLinkReset_switch (pastDetect s.ports[dnPort m].st) s.pps[m]
  unfold softReset
  rw [hk]
  simpa [restartLink, meterStop, newFrame, linkReset, drivePeWake] using And.intro hst hon

theorem softReset_kept (s : State) :
    (softReset s).rst.cause = s.rst.cause ||| 0x0010#16 ∧ (softReset s).pcie.link = s.pcie.link ∧
    (softReset s).pcie.bar0 = s.pcie.bar0 ∧ (softReset s).pcie.numVfs = s.pcie.numVfs ∧
    (softReset s).pcie.reads = [] ∧ (softReset s).bb.slots = s.bb.slots ∧ (softReset s).wdt.lock = s.wdt.lock ∧
    (softReset s).wdt.count = s.wdt.count ∧ (softReset s).mtr.ports = s.mtr.ports ∧ (softReset s).out = s.out := by
  obtain ⟨k, hk⟩ := abandonSave_eq s
  unfold softReset
  rw [hk]
  exact ⟨rfl, rfl, rfl, rfl, rfl, rfl, rfl, rfl, rfl, rfl⟩

/-! ## REGLOCK (R428) -/

theorem exec_reglock (s : State) (p : Path) (v : Word) (h : reaches s p = true) :
    exec (.reglockWrite p v) s = .next { s with glob := reglockWrite v s.glob } :=
  regRow_reaches s p 0x40 v .reglock h rfl (by decide) (by decide)

theorem reglockWrite_free (v : Word) (g : Glob) (h : g.lock = false) : reglockWrite v g =
    { g with hubPwr := bit v 0, hubClk := bit v 1, mgWr := bit v 2, ref := g.ref && !bit v 14, lock := bit v 15 } := by
  simp [reglockWrite, h]

theorem reglockWrite_refused (v : Word) (g : Glob) (h : g.lock = true)
    (hne : bit v 0 ≠ g.hubPwr ∨ bit v 1 ≠ g.hubClk ∨ bit v 2 ≠ g.mgWr) : reglockWrite v g = { g with ref := true } := by
  have hdiff : (bit v 0 == g.hubPwr && bit v 1 == g.hubClk && bit v 2 == g.mgWr) = false := by
    rcases hne with h | h | h <;> simp [h]
  unfold reglockWrite
  simp only [hdiff, h, Bool.not_false, Bool.and_self, if_true, Bool.true_or]

/-- Settles O16: it holds.  GCTRL's three bits act one after the other, and REGLOCK stores its locks unless LOCK refuses
a change. -/
theorem globalCommands : Obligations.GlobalCommands := by
  refine ⟨fun p s hp h => ?swrst, fun p s hp h => ?bytewr, fun p s hp h hbusy => ?load, fun p s hp h hbusy => ?busy,
    fun p v s h hl => ?free, fun p v s h hl hne => ?refused⟩
  case swrst =>
    obtain ⟨hcause, hlink, hbar, hvfs, hreads, hslots, hlock, hcount, hports, hout⟩ := softReset_kept s
    exact ⟨softReset s, exec_swrst_reaches s p hp h, hcause, rfl, rfl, rfl, rfl, rfl, softReset_glob s, rfl, rfl, rfl,
      rfl, rfl, rfl, rfl, hlink, hbar, hvfs, hreads, hslots, hlock, hcount, softReset_switch s, hports, hout⟩
  case bytewr => exact ⟨_, exec_gctrl s p 0x0004#16 hp h, rfl, setGlob_only s _⟩
  case load =>
    refine ⟨_, exec_gctrl s p 0x0002#16 hp h, ?_⟩
    have hgo : cfgLoadGo s = emit { s with glob :=
        { s.glob with cfgBusy := true, cfgDone := false, cfgNone := false, cfgLoad := true } }
        (.flash 1 0 12 (flMode s true)) := by
      unfold cfgLoadGo
      rw [if_neg (by simp [hbusy])]
      rfl
    show (cfgLoadGo s).glob = _ ∧ (cfgLoadGo s).out = _ ∧ only _ s (cfgLoadGo s)
    rw [hgo]
    exact ⟨rfl, rfl, (setGlob_only s _).seq (emit_only _ _)⟩
  case busy =>
    refine ⟨_, exec_gctrl s p 0x0002#16 hp h, ?_⟩
    have hgo : cfgLoadGo s = { s with glob := { s.glob with cfgLoad := true } } := by
      unfold cfgLoadGo
      rw [if_pos hbusy]
    show (cfgLoadGo s).glob = _ ∧ only _ s (cfgLoadGo s)
    rw [hgo]
    exact ⟨rfl, setGlob_only s _⟩
  case free => exact ⟨_, exec_reglock s p v h, reglockWrite_free v s.glob hl, setGlob_only s _⟩
  case refused => exact ⟨_, exec_reglock s p v h, reglockWrite_refused v s.glob hl hne, setGlob_only s _⟩

end Sys2Proof.Machine
end

section
/-! PROOF. The outcome of a configuration image (O17). -/

namespace Sys2Proof.Machine

open Sys2Proof Sys2Proof.Safety

-- One proof after the other: side by side, the proofs of one text wait for each other in too many threads.
set_option Elab.async false

/-! ## What an entry of a Link die block changes -/

/-- An entry goes to the black-box write FIFO, and a full one may be counted in B0's LOST. -/
theorem bbLink_eq (s : State) (code src : Nat) (w2 w3 : Word) : ∃ q l,
    bbLink s code src w2 w3 = { s with que := q, bb := { s.bb with lost := l } } ∧
      q.bbf = (bbfPush s.que (mkEntry code src w2 w3 false (now s))).bbf := by
  have hbbf := bbLink_bbf s code src w2 w3
  unfold bbLink at hbbf ⊢
  refine ⟨_, if s.que.bbf.length < 16 || !bit s.bb.ctrl 0 then s.bb.lost else satInc 31 s.bb.lost, ?_, hbbf⟩
  split <;> rfl

/-! ## The scan for the last gasp (R374) -/

theorem scanGo_frame (s : State) : only [.bb, .out] s (scanGo s) := by
  unfold scanGo
  dsimp only
  split <;> (intro p hp; cases p <;> first | rfl | exact absurd (by decide) hp)

theorem scanStart_frame (s : State) : only [.bb, .out] s (scanStart s) := by
  unfold scanStart
  exact only_ite _ (only_refl _ s) (only_ite _ (bb_frame s _).widen (scanGo_frame s))

theorem scanLate_frame (s : State) : only [.bb, .out] s (scanLate s) := by
  unfold scanLate
  exact only_ite _ ((bb_frame s _).seq (scanStart_frame _)) (only_refl _ s)

theorem scanLate_none (s : State) (h : s.bb.scanDue = false) : scanLate s = s := if_neg (by simp [h])

theorem scanStart_quiet (s : State) (h : bit s.bb.ctrl 3 = false ∨ s.bb.armed = true) : scanStart s = s := by
  unfold scanStart
  rw [if_pos]
  rcases h with h | h <;> simp [h]

theorem linkHeld_of_linkOn (s : State) (h : linkOn s = true) : linkHeld s = true := by
  simp only [linkOn, Bool.and_eq_true] at h
  obtain ⟨⟨hst, hpor⟩, hpin⟩ := h
  simp [linkHeld, hst, hpor, hpin]

theorem scanStart_go (s : State) (hl : linkOn s = true) (hb : s.glob.cfgBusy = false) (hc : bit s.bb.ctrl 3 = true)
    (ha : s.bb.armed = false) (hs : s.bb.scan = false) : scanStart s = scanGo s := by
  unfold scanStart
  rw [if_neg (by simp [linkHeld_of_linkOn s hl, hc, ha, hs]), if_neg (by simp [hb, hl])]

/-- What a scan that runs leaves, by whether it has what it needs. -/
theorem scanGo_outcome (s : State) : (scanGo s).bb.scanDue = false ∧
    (scanReady s = true → (scanGo s).bb.scan = true ∧ (scanGo s).bb.full = s.bb.full ∧
      (scanGo s).out = .flash 1 (regionAt s.bb) 4096 (flMode s true) :: s.out) ∧
    (scanReady s = false → (scanGo s).bb.scan = s.bb.scan ∧ (scanGo s).bb.full = true ∧ (scanGo s).out = s.out) := by
  unfold scanGo
  by_cases h : scanReady s = true
  · rw [if_pos h]
    exact ⟨rfl, fun _ => ⟨rfl, rfl, rfl⟩, fun hn => absurd h (by simp [hn])⟩
  · rw [if_neg h]
    exact ⟨rfl, fun hy => absurd hy h, fun _ => ⟨rfl, rfl, rfl⟩⟩

/-! ## An image that does not pass -/

/-- The end of a load whose image failed with reason `why`, before a scan that waited. -/
def imageFailed (s : State) (ws : List Word) (why : Nat) : State := imageOver (imageFail s ws why)

theorem imageFailed_eq (s : State) (ws : List Word) (why : Nat) : ∃ q l,
    imageFailed s ws why = { s with
      que := q, bb := { s.bb with lost := l }
      glob := { s.glob with cfgBusy := false, cfgLoad := false, cfgErr := true,
                            imgSeen := if why = 5 then none else some 0 } } ∧
      q.bbf = (bbfPush s.que (mkEntry 0x04 0 (w16 why) (wAt ws 2) false (now s))).bbf := by
  obtain ⟨q, l, heq, hq⟩ := bbLink_eq { s with glob := { s.glob with cfgErr := true, imgSeen := if why = 5 then none else some 0 } }
    0x04 0 (w16 why) (wAt ws 2)
  exact ⟨q, l, congrArg imageOver heq, hq⟩

/-- The end of a load that found an erased flash. -/
def imageNone (s : State) : State := imageOver { s with glob := { s.glob with cfgNone := true, imgSeen := some 0 } }

theorem imageChecked_erased (s : State) (ws : List Word) (h : wAt ws 0 ≠ 0x584B#16) :
    imageChecked s true ws = scanLate (imageNone s) := by
  simp [imageChecked, h, imageNone]

theorem imageChecked_bad (s : State) (ws : List Word) (h : wAt ws 0 = 0x584B#16) (hb : imageBad ws ≠ 0) :
    imageChecked s true ws = scanLate (imageFailed s ws (imageBad ws)) := by
  simp [imageChecked, h, hb, imageFailed]

theorem imageChecked_good (s : State) (ws : List Word) (h : wAt ws 0 = 0x584B#16) (hb : imageBad ws = 0) :
    imageChecked s true ws = scanStart (imageOver (imageApply s ws)) := by
  simp [imageChecked, h, hb]

theorem imageBad_ne_five (ws : List Word) : imageBad ws ≠ 5 := by
  unfold imageBad
  dsimp only
  (repeat' split) <;> decide

theorem imageBad_empty (ws : List Word) (h1 : wAt ws 1 = 1#16) (h2 : wAt ws 2 = 0#16) : imageBad ws = 2 := by
  simp [imageBad, h1, h2]

/-- A failed image: the flags, the entry, and what its scan may put out. -/
theorem imageFailed_late (s : State) (ws : List Word) (why : Nat) :
    (scanLate (imageFailed s ws why)).glob = { s.glob with
      cfgBusy := false, cfgLoad := false, cfgErr := true, imgSeen := if why = 5 then none else some 0 } ∧
    logsLink s (scanLate (imageFailed s ws why)) 0x04 0 (w16 why) (wAt ws 2) ∧
    (s.bb.scanDue = false → (scanLate (imageFailed s ws why)).out = s.out) ∧
    only [.glob, .que, .bb, .out] s (scanLate (imageFailed s ws why)) := by
  obtain ⟨q, l, heq, hq⟩ := imageFailed_eq s ws why
  have hlate := scanLate_frame (imageFailed s ws why)
  have hfirst : only [.glob, .que, .bb, .out] s (imageFailed s ws why) := by
    rw [heq]
    intro p hp; cases p <;> first | rfl | exact absurd (by decide) hp
  refine ⟨(hlate .glob (by decide)).trans (congrArg State.glob heq), ?_, fun hd => ?_, hfirst.seq hlate⟩
  · have hque : (scanLate (imageFailed s ws why)).que = q := (hlate .que (by decide)).trans (congrArg State.que heq)
    exact (congrArg Que.bbf hque).trans hq
  · have hdue : (imageFailed s ws why).bb.scanDue = false := (congrArg (fun u : State => u.bb.scanDue) heq).trans hd
    rw [scanLate_none _ hdue, heq]

/-! ## An image that passes -/

theorem wAt_drop_take (ws : List Word) (k m i : Nat) (h : i < m) : wAt ((ws.drop k).take m) i = wAt ws (k + i) := by
  simp [wAt, h]

/-- The records of an image, one after the other. -/
theorem imageRecords_eq (ws : List Word) (us : Nat → State) (s : State) (n : Nat) (h0 : us 0 = s)
    (hs : ∀ i < n, us (i + 1) = (if linkOn (us i) then
      (match regAtWord (wAt ws (6 + 2 * i)).toNat with
        | some r => writeReg (us i) .image (wAt ws (7 + 2 * i)) r
        | none => us i) else us i)) (k : Nat) (hk : k ≤ n) :
    forEach (List.range k) (imageRecord ((ws.drop 6).take (2 * n))) s = us k := by
  induction k with
  | zero => exact h0.symm
  | succ k ih =>
    have haddr := wAt_drop_take ws 6 (2 * n) (2 * k) (by omega)
    have hdata := wAt_drop_take ws 6 (2 * n) (2 * k + 1) (by omega)
    have hodd : 6 + (2 * k + 1) = 7 + 2 * k := by omega
    rw [List.range_succ, forEach_snoc, ih (by omega), hs k (by omega), imageRecord, haddr, hdata, hodd] <;> rfl

/-- The end of a load whose records have left the part in state `u`. -/
def imageApplied (u : State) (ws : List Word) (q : Que) (l : Nat) : State :=
  { u with
    que := q
    bb := { u.bb with lost := l }
    glob := { u.glob with cfgBusy := false, cfgLoad := false, cfgDone := true, imgCount := (wAt ws 2).toNat,
                          imgSeen := some (wAt ws 2).toNat, imgFlags := fld (wAt ws 3) 0 3 } }

theorem imageApply_eq (s u : State) (ws : List Word)
    (hu : forEach (List.range (wAt ws 2).toNat) (imageRecord ((ws.drop 6).take (2 * (wAt ws 2).toNat))) s = u) : ∃ q l,
    imageOver (imageApply s ws) = imageApplied u ws q l ∧
      q.bbf = (bbfPush u.que (mkEntry 0x03 0 (wAt ws 2) 0#16 false (now u))).bbf := by
  obtain ⟨q, l, heq, hq⟩ := bbLink_eq { u with glob := { u.glob with
    cfgDone := true, imgCount := (wAt ws 2).toNat, imgSeen := some (wAt ws 2).toNat, imgFlags := fld (wAt ws 3) 0 3 } }
    0x03 0 (w16 (wAt ws 2).toNat) 0#16
  have hw : w16 (wAt ws 2).toNat = wAt ws 2 := by simp [w16]
  refine ⟨q, l, ?_, hw ▸ hq⟩
  unfold imageApply
  dsimp only
  rw [hu, heq]
  rfl

theorem imageApplied_frame (u : State) (ws : List Word) (q : Que) (l : Nat) :
    only [.glob, .que, .bb, .out] u (imageApplied u ws q l) := by
  intro p hp; cases p <;> first | rfl | exact absurd (by decide) hp

/-- A scan sees the flash as the state it starts in does. -/
theorem scanGo_flMode (s : State) : flMode (scanGo s) true = flMode s true := by
  have h1 : (scanGo s).clk = s.clk := scanGo_frame s .clk (by decide)
  have h2 : (scanGo s).glob = s.glob := scanGo_frame s .glob (by decide)
  have h3 : (scanGo s).fl = s.fl := scanGo_frame s .fl (by decide)
  simp only [flMode, flWidth, flFour, h1, h2, h3]

theorem exec_cfgImageChecked (ok : Bool) (ws : List Word) (s : State) (hl : linkOn s = true) (hb : s.glob.cfgBusy = true) :
    exec (.cfgImageChecked ok ws) s = .next (imageChecked s ok ws) := by
  refine (onLink_on s _ hl).trans ?_
  rw [hb, whenDo_true]

/-- A scan that waited for the end of a load, in a state that the load has left as `s` but for its flags. -/
theorem scanLate_waiting (s y : State) (g : Glob) (q : Que) (l : Nat)
    (hy : y = { s with glob := g, que := q, bb := { s.bb with lost := l } }) (hg : g.cfgBusy = false)
    (hi : g.imgCount = s.glob.imgCount) (hf : g.imgFlags = s.glob.imgFlags) (hl : linkOn s = true)
    (hd : s.bb.scanDue = true) (hc : bit s.bb.ctrl 3 = true) (ha : s.bb.armed = false) (hn : s.bb.scan = false) :
    (scanLate y).bb.scanDue = false ∧
    (scanReady { s with glob := { s.glob with imgSeen := g.imgSeen } } = true → (scanLate y).bb.scan = true ∧
      (scanLate y).bb.full = s.bb.full ∧ (scanLate y).out = .flash 1 (regionAt s.bb) 4096 (flMode s true) :: s.out) ∧
    (scanReady { s with glob := { s.glob with imgSeen := g.imgSeen } } = false → (scanLate y).bb.scan = false ∧
      (scanLate y).bb.full = true ∧ (scanLate y).out = s.out) := by
  subst hy
  let z : State := { s with glob := g, que := q, bb := { s.bb with lost := l, scanDue := false } }
  have hlate : scanLate { s with glob := g, que := q, bb := { s.bb with lost := l } } = scanGo z :=
    (if_pos hd).trans (scanStart_go z hl hg hc ha hn)
  have hready : scanReady z = scanReady { s with glob := { s.glob with imgSeen := g.imgSeen } } := rfl
  have hmode : flMode z true = flMode s true := by
    show ({ width := if true then (if !s.clk.corePll || g.imgCount = 0 then 0 else _) else 0, fast := _, addr4 := _ } : FlMode) = _
    rw [hi, hf]
    rfl
  obtain ⟨h1, h2, h3⟩ := scanGo_outcome z
  rw [hlate, ← hready]
  rw [hmode] at h2
  exact ⟨h1, h2, fun h => ⟨(h3 h).1.trans hn, (h3 h).2⟩⟩

/-- Settles O17: it holds.  Whatever the check found, the load ends in one state with its flags and its entry, and the
scan that waited, or that an applied image starts, comes after it. -/
theorem configurationImage : Obligations.ConfigurationImage := by
  refine ⟨fun ok ws s hl hb => ?idle, fun ws s hl hb => ?unread, fun ws s hl hb he => ?erased, fun ws s hl hb he hbad => ?bad,
    fun ws us s u hl hb he hok h0 hstep hu => ?good, fun ok ws seen s hl hb hd hc ha hn hcase => ?waiting⟩
  case idle =>
    refine (onLink_on s _ hl).trans ?_
    rw [hb, whenDo_false]
  case unread => exact ⟨_, exec_cfgImageChecked false ws s hl hb, imageFailed_late s ws 5⟩
  case erased =>
    have hfirst : only [.glob] s (imageNone s) := setGlob_only s _
    have hlate := scanLate_frame (imageNone s)
    rw [exec_cfgImageChecked true ws s hl hb, imageChecked_erased s ws he]
    exact ⟨_, rfl, hlate .glob (by decide), fun h => (scanLate_none (imageNone s) h).symm ▸ hfirst, hfirst.seq hlate⟩
  case bad =>
    have hb0 : imageBad ws ≠ 0 := by
      rcases hbad with h | ⟨h1, h2⟩
      · exact h
      · simp [imageBad_empty ws h1 h2]
    have hwhy : (if wAt ws 1 = 1#16 ∧ wAt ws 2 = 0#16 then 2#16 else w16 (imageBad ws)) = w16 (imageBad ws) := by
      split
      next h => rw [imageBad_empty ws h.1 h.2]; rfl
      next => rfl
    have hfail := imageFailed_late s ws (imageBad ws)
    rw [if_neg (imageBad_ne_five ws)] at hfail
    rw [exec_cfgImageChecked true ws s hl hb, imageChecked_bad s ws he hb0, hwhy]
    exact ⟨_, rfl, hfail⟩
  case good =>
    have hrecs := imageRecords_eq ws us s (wAt ws 2).toNat h0 hstep _ le_rfl
    rw [← hu] at hrecs
    obtain ⟨q, l, heq, hq⟩ := imageApply_eq s u ws hrecs
    rw [exec_cfgImageChecked true ws s hl hb, imageChecked_good s ws he hok, heq]
    have hstart := scanStart_frame (imageApplied u ws q l)
    refine ⟨_, rfl, hstart .glob (by decide), (congrArg Que.bbf (hstart .que (by decide))).trans hq,
      fun hquiet => ?_, fun hlu hcu hau hnu => ?_, (imageApplied_frame u ws q l).seq hstart⟩
    · rw [scanStart_quiet (imageApplied u ws q l) hquiet]
      rfl
    · obtain ⟨-, hready, hfull⟩ := scanGo_outcome (imageApplied u ws q l)
      rw [scanStart_go (imageApplied u ws q l) hlu rfl hcu hau hnu, scanGo_flMode]
      exact ⟨fun h => ⟨(hready h).1, (hready h).2.2⟩, fun h => (hfull h).2⟩
  case waiting =>
    rw [exec_cfgImageChecked ok ws s hl hb]
    rcases hcase with ⟨rfl, rfl⟩ | ⟨rfl, hwhy, rfl⟩
    · obtain ⟨q, l, heq, -⟩ := imageFailed_eq s ws 5
      exact ⟨_, rfl, scanLate_waiting s _ _ q l heq rfl rfl rfl hl hd hc ha hn⟩
    · by_cases he : wAt ws 0 = 0x584B#16
      · have hbad := hwhy.resolve_left (not_not.mpr he)
        obtain ⟨q, l, heq, -⟩ := imageFailed_eq s ws (imageBad ws)
        rw [if_neg (imageBad_ne_five ws)] at heq
        rw [imageChecked_bad s ws he hbad]
        exact ⟨_, rfl, scanLate_waiting s _ _ q l heq rfl rfl rfl hl hd hc ha hn⟩
      · rw [imageChecked_erased s ws he]
        exact ⟨_, rfl, scanLate_waiting s (imageNone s) _ s.que s.bb.lost rfl rfl rfl rfl hl hd hc ha hn⟩

end Sys2Proof.Machine
end

section
/-! SUPPORT. What the time base shows of catches, of beacons and of the lock: the fields of TB after each operation, and
the beacons among what the part has put out. -/

namespace Sys2Proof.Machine

open Sys2Proof Sys2Proof.Safety

-- One proof after the other: side by side, the proofs of one text wait for each other in too many threads.
set_option Elab.async false

/-! ## The beacons among the outputs -/

/-- The beacons that a state has put out are those of another. -/
def sameStk (s t : State) : Prop := ∀ n ws, Out.stk n ws ∈ t.out ↔ Out.stk n ws ∈ s.out

theorem sameStk_refl (s : State) : sameStk s s := fun _ _ => Iff.rfl

theorem sameStk.trans {s t u : State} (h : sameStk s t) (g : sameStk t u) : sameStk s u := fun n ws =>
  (g n ws).trans (h n ws)

theorem sameStk_of_out {s t : State} (h : t.out = s.out) : sameStk s t := fun n ws => by rw [h]

theorem sameStk_of_only {ps : List Part} {s t : State} (h : only ps s t) (ho : .out ∉ ps := by decide) : sameStk s t :=
  sameStk_of_out (h .out ho)

theorem sameStk_ite (c : Prop) [Decidable c] {s t u : State} (ht : sameStk s t) (hu : sameStk s u) :
    sameStk s (if c then t else u) := by
  split <;> assumption

theorem forEach_sameStk {α : Type} (l : List α) (f : State → α → State) (s : State) (h : ∀ a x, sameStk a (f a x)) :
    sameStk s (forEach l f s) := by
  induction l generalizing s with
  | nil => exact sameStk_refl s
  | cons x l ih => exact (h s x).trans (ih (f s x))

theorem emits_sameStk (s : State) (os : List Out) (h : ∀ n ws, Out.stk n ws ∉ os) : sameStk s (emits s os) :=
  fun n ws => by simp [emits, h]

/-- An event shows at most as PME. -/
theorem raiseTo_sameStk (s : State) (hit : DomN → Bool) (force : Bool) (k : Nat) (e : Ev) :
    sameStk s (raiseTo s hit force k e) := fun n ws => by
  simp only [raiseTo, List.mem_append]
  refine or_iff_right ?_
  split <;> simp

theorem raise_sameStk (s : State) (e : Ev) : sameStk s (raise s e) := by
  unfold raise
  exact sameStk_ite _ (raiseTo_sameStk s _ _ _ e) (sameStk_refl s)

theorem bbLink_sameStk (s : State) (code src : Nat) (w2 w3 : Word) : sameStk s (bbLink s code src w2 w3) :=
  sameStk_of_out rfl

theorem sendCrd_sameStk (s : State) (n : PortN) : sameStk s (sendCrd s n) :=
  emits_sameStk (modPort s n _) _ fun m ws => by simp [crdWords]

theorem wakeTx_sameStk (s : State) (n : PortN) : sameStk s (wakeTx s n) := by
  unfold wakeTx
  refine sameStk_ite _ ?_ (sameStk_refl s)
  have hidl : sameStk s (emit (modPort s n fun p => { p with dark := false }) (.idl n (wakeWords s.ports[n]))) :=
    fun m ws => by simp [emit, modPort]
  exact hidl.trans (sendCrd_sameStk _ n)

theorem completeHead_sameStk (s : State) (k : EpN) (status bytes : Nat) (cue late : Bool) :
    sameStk s (completeHead s k status bytes cue late) := by
  unfold completeHead completeDesc
  split
  · exact sameStk_refl s
  · exact (sameStk_of_out rfl).trans (sameStk_ite _ (sameStk_refl (modEp s k _)) (raiseTo_sameStk _ _ _ _ _))

theorem epAsk_sameStk (s : State) (k : EpN) : sameStk s (epAsk s k) := by
  have hdrop : sameStk s (if ringRuns s k then dropBad s k else s) := by
    unfold dropBad
    exact sameStk_ite _ (sameStk_ite _ (completeHead_sameStk s k _ _ _ _) (sameStk_refl s)) (sameStk_refl s)
  exact hdrop.trans ((sameStk_of_only (askDesc_frame _ k)).trans (sameStk_of_only (askData_frame _ k)))

theorem cueDone_sameStk (s : State) (k : EpN) (atCatch : Bool) : sameStk s (cueDone s k atCatch) := by
  unfold cueDone
  have hask : ∀ (a : State) (f : Ep → Ep), sameStk a (epAsk (modEp a k f) k) := fun a f =>
    (sameStk_of_out rfl).trans (epAsk_sameStk (modEp a k f) k)
  exact sameStk_ite _ (sameStk_refl s) (sameStk_ite _ ((completeHead_sameStk s k _ _ _ _).trans (hask _ _)) (hask s _))

theorem releaseCues_sameStk (s : State) (f : PortN → CrewN × Nat → Bool) (atCatch : Bool) :
    sameStk s (releaseCues s f atCatch) := by
  unfold releaseCues
  exact (sameStk_of_out rfl).trans (forEach_sameStk _ _ _ fun a k =>
    sameStk_ite _ (cueDone_sameStk a k atCatch) (sameStk_refl a))

theorem flagCrew_sameStk (s : State) (k : CrewN) (f : Word) : sameStk s (flagCrew s k f) :=
  (sameStk_of_out rfl).trans ((raise_sameStk (modCrew s k _) _).trans (bbLink_sameStk _ _ _ _ _))

theorem releaseEarly_sameStk (s : State) (f : PortN → CrewN × Nat → Bool) (flag : Word) :
    sameStk s (releaseEarly s f flag) :=
  (forEach_sameStk _ _ s fun a k => flagCrew_sameStk a k flag).trans (releaseCues_sameStk _ f false)

theorem loseLock_sameStk (s : State) : sameStk s (loseLock s) := by
  unfold loseLock
  dsimp only
  exact sameStk_ite _ (sameStk_refl s) (((sameStk_of_only (tb_frame s _)).trans (raise_sameStk _ _)).trans (bbLink_sameStk _ _ _ _ _))

theorem gainLock_sameStk (s : State) : sameStk s (gainLock s) := by
  unfold gainLock
  dsimp only
  exact sameStk_ite _ ((sameStk_of_out rfl).trans (raise_sameStk _ _)) (sameStk_refl s)

/-! ## Cues let go early -/

theorem flagCrew_frame (s : State) (k : CrewN) (f : Word) : only [.bb, .aon, .doms, .que, .tb, .out] s (flagCrew s k f) :=
  ((modCrew_frame s k _).seq (raise_only _ _) (rs := [.aon, .doms, .que, .tb, .out])).seq (bbLink_only _ _ _ _ _)

theorem releaseEarly_frame (s : State) (f : PortN → CrewN × Nat → Bool) (flag : Word) :
    only [.bb, .aon, .doms, .ln, .hma, .que, .ports, .tt, .tb, .out] s (releaseEarly s f flag) :=
  (forEach_frame _ _ s fun a k => flagCrew_frame a k flag).seq (releaseCues_frame _ f false)

/-- Cues let go early change nothing of the time base but the flags of crews. -/
theorem releaseEarly_tb (s : State) (f : PortN → CrewN × Nat → Bool) (flag : Word) :
    ∃ c, (releaseEarly s f flag).tb = { s.tb with crews := c } := by
  have hlist : ∀ (l : List CrewN) (a : State), ∃ c,
      (forEach l (fun a k => flagCrew a k flag) a).tb = { a.tb with crews := c } := fun l => by
    induction l with
    | nil => exact fun a => ⟨a.tb.crews, rfl⟩
    | cons k l ih =>
      intro a
      obtain ⟨c, hc⟩ := ih (flagCrew a k flag)
      rw [flagCrew_tb] at hc
      exact ⟨c, hc⟩
  obtain ⟨c, hc⟩ := hlist (heldList s f) s
  exact ⟨c, (releaseCues_frame _ f false .tb (by decide)).trans hc⟩

/-! ## The lock -/

/-- A lost lock is a time base in holdover (R157). -/
theorem loseLock_tb (s : State) : (loseLock s).tb = { s.tb with
    locked := false, loss := s.tb.loss || s.tb.locked, holdover := s.tb.holdover || s.tb.locked } := by
  unfold loseLock
  by_cases hl : s.tb.locked = true
  · rw [if_neg (by simp [hl])]
    simp [hl]
  · rw [if_pos (by simpa using hl)]
    simp only [Bool.not_eq_true] at hl
    simp only [hl, Bool.or_false]
    rw [← hl]

/-- What a beacon of offset `o` decides of the lock: the third in a row outside LOCK_WIN loses it (R157). -/
def outOfLock (t : Tb) (o : Int) : Bool := decide (4 * t.lockWin < o.natAbs) && t.locked && decide (2 ≤ t.runOut)

theorem lockRun_tb (s : State) (o : Int) : (lockRun s o).tb = { s.tb with
    runIn := if o.natAbs ≤ 4 * s.tb.lockWin then satInc 8 s.tb.runIn else 0
    runOut := if o.natAbs ≤ 4 * s.tb.lockWin then 0 else satInc 3 s.tb.runOut
    locked := s.tb.locked && !outOfLock s.tb o
    loss := s.tb.loss || outOfLock s.tb o
    holdover := s.tb.holdover || outOfLock s.tb o } := by
  have hthird : 3 ≤ satInc 3 s.tb.runOut ↔ 2 ≤ s.tb.runOut := by unfold satInc; split <;> omega
  unfold lockRun
  by_cases hin : o.natAbs ≤ 4 * s.tb.lockWin
  · have hno : outOfLock s.tb o = false := by simp [outOfLock, hin]
    simp [hin, hno]
  · rw [if_neg hin, if_neg hin, if_neg hin]
    by_cases hout : s.tb.locked = true ∧ 2 ≤ s.tb.runOut
    · have hyes : outOfLock s.tb o = true := by simp [outOfLock, hout, Nat.lt_of_not_le hin]
      rw [if_pos (by simpa [hthird] using hout), loseLock_tb, hyes]
      simp [hout.1]
    · have hno : outOfLock s.tb o = false := by
        simpa [outOfLock, and_assoc, Nat.lt_of_not_le hin] using hout
      rw [if_neg (by simpa [hthird] using hout), hno]
      simp

theorem timeStep_tb (s : State) (o : Int) : ∃ c, (timeStep s o).tb = { s.tb with
    time := s.tb.time + BitVec.ofInt 64 o, step := true, todo := 0, runIn := 0, locked := false
    loss := s.tb.loss || s.tb.locked, holdover := false, crews := c } := by
  obtain ⟨c, hc⟩ := releaseEarly_tb _ _ _
  refine ⟨c, hc.trans ?_⟩
  simp [loseLock_tb]

end Sys2Proof.Machine
end

section
/-! PROOF. Stroke boundaries and missed beacons (O21). -/

namespace Sys2Proof.Machine

open Sys2Proof Sys2Proof.Safety

-- One proof after the other: side by side, the proofs of one text wait for each other in too many threads.
set_option Elab.async false

/-- A row of the Link die while it runs, its effect written out. -/
theorem onLink_eq {s t : State} {f : State → State} (hl : linkOn s = true) (h : f s = t) : onLink s f = .next t := by
  rw [onLink_on s f hl, h]

/-! ## Boundaries on the grid -/

/-- At a multiple of the stroke length the grid boundary is TB_TIME itself (R148). -/
theorem gridStart_at (s : State) (h : now s % strokeTicks s.tb.len = 0) :
    gridStart s = strokeStart s (BitVec.ofNat 32 (now s / strokeTicks s.tb.len)) s.tb.time := by
  have hb : now s / strokeTicks s.tb.len * strokeTicks s.tb.len = now s := Nat.div_mul_cancel (Nat.dvd_of_mod_eq_zero h)
  have ht : BitVec.ofNat 64 (now s) = s.tb.time := BitVec.ofNat_toNat 64 s.tb.time
  simp only [gridStart, hb, ht]

theorem strokeStart_slots (s : State) (n : BitVec 32) (b : BitVec 64) (j : Fin 48) :
    (strokeStart s n b).tt.slots[j] = s.tt.slots[j].map fun x => { x with strokes := x.strokes + 1 } := by
  simp [strokeStart]

/-! ## Missed beacons -/

/-- A beacon missed, before what it brings: it is counted, and the runs of R152 and R156 start afresh. -/
def missCounted (s : State) : State :=
  { s with tb := { s.tb with missed := satInc 15 s.tb.missed, bcnOk := false, runIn := 0, fits := [] } }

theorem beaconMissed_offGrid (s : State) (hg : onGrid s = false) (hv : s.tb.valid = true) :
    beaconMissed s = strokeStart (missCounted s) (s.tb.stroke + 1#32)
      (s.tb.bound + BitVec.ofNat 64 (strokeTicks s.tb.len)) := by
  unfold beaconMissed
  rw [if_neg (by simp [hg]), if_pos hv]
  rfl

theorem beaconMissed_locked (s : State) (hl : s.tb.locked = true) :
    beaconMissed s = if 4 ≤ satInc 15 s.tb.missed then loseLock (missCounted s) else missCounted s := by
  unfold beaconMissed
  rw [if_pos (by simp [onGrid, hl])]
  by_cases hm : 4 ≤ satInc 15 s.tb.missed
  · rw [if_pos hm, if_pos (by simp [hl, hm])]
    rfl
  · rw [if_neg hm, if_neg (by simp [hm])]
    rfl

/-- Settles O21: it holds. A boundary is `strokeStart`; the grid places it at TB_TIME, a missed beacon one stroke
after the last, and the fourth missed in a row is `loseLock`. -/
theorem strokeBoundaries : Obligations.StrokeBoundaries := by
  unfold Obligations.StrokeBoundaries
  refine ⟨fun s hl hg h0 hb => ?_, fun s hl hb => ?_, fun s hl hlo hho hv => ?_, fun s hl hlo hm => ?_,
    fun s hl hlo hm => ?_⟩
  · have hdue : gridDue s = true := by simpa [gridDue, onGrid, h0, hb] using hg
    have hrun : whenDo (gridDue s) gridStart s =
        strokeStart s (BitVec.ofNat 32 (now s / strokeTicks s.tb.len)) s.tb.time := by
      rw [hdue, ← gridStart_at s h0]
      rfl
    exact ⟨_, onLink_eq hl hrun, rfl, rfl, strokeStart_slots s _ _,
      (strokeStart_frame s _ _).widen⟩
  · have hdue : gridDue s = false := by simp [gridDue, hb]
    have hrun : whenDo (gridDue s) gridStart s = s := by rw [hdue]; rfl
    exact onLink_eq hl hrun
  · have hg : onGrid s = false := by simp [onGrid, hlo, hho]
    refine ⟨_, onLink_eq hl (beaconMissed_offGrid s hg hv), rfl, rfl, ?_⟩
    exact (tb_frame s _).seq (strokeStart_frame (missCounted s) _ _)
  · have hc : satInc 15 s.tb.missed = s.tb.missed + 1 := if_pos (by omega)
    refine ⟨_, onLink_eq hl ((beaconMissed_locked s hlo).trans (if_neg (by omega))), ?_, tb_frame s _⟩
    rw [missCounted, hc]
  · have hc : 4 ≤ satInc 15 s.tb.missed := by unfold satInc; split <;> omega
    have ht : (loseLock (missCounted s)).tb =
        { (missCounted s).tb with locked := false, loss := true, holdover := true } := by
      rw [loseLock_tb]
      simp [missCounted, hlo]
    refine ⟨_, onLink_eq hl ((beaconMissed_locked s hlo).trans (if_pos hc)),
      congrArg Tb.locked ht, congrArg Tb.loss ht, congrArg Tb.holdover ht, (congrArg Tb.stroke ht :),
      (congrArg Tb.bound ht :), ?_⟩
    exact (tb_frame s _).seq (loseLock_only (missCounted s))

end Sys2Proof.Machine
end

section
/-! PROOF. Stroke beacons on UP (O22). -/

namespace Sys2Proof.Machine

open Sys2Proof Sys2Proof.Safety

-- One proof after the other: side by side, the proofs of one text wait for each other in too many threads.
set_option Elab.async false

/-! ## A beacon taken into the time base -/

/-- A beacon that is accepted, in the time base before its offset is judged (R148, R152, R153). -/
def takenTb (s : State) (fits : List Nat) : Tb := takePeriod fits { s.tb with
  missed := 0, bcnOk := true
  badLen := if fits.contains s.tb.len then 0 else s.tb.badLen
  synt := if s.clk.refAct = 2 then Config.synt s.fresh else s.tb.synt }

/-- The state in which an accepted beacon's offset is judged: taken, regenerated below, and quiet ports resumed. -/
def heard (s : State) (n f : Nat) (fits : List Nat) : State :=
  let s1 := regenerate { s with tb := { takenTb s fits with offset := BitVec.ofInt 32 (beaconOffset s f) } } n f
  if s.aon.ports[(0 : PortN)].hold = .none then resumeQuiet s1 else s1

/-- What the offset of an accepted beacon does to lock and time. -/
def judged (s : State) (n f : Nat) (fits : List Nat) : State :=
  let o := beaconOffset s f
  gainLock (servo (lockRun (heard s n f fits) o) o)

theorem takePeriod_eq (fits : List Nat) (t : Tb) : ∃ l v b,
    takePeriod fits t = { t with len := l, valid := v, fits := fits, badLen := b } ∧ (t.valid = true → v = true) ∧
      (t.badLen = 0 → b = 0) := by
  unfold takePeriod
  split
  · split
    · exact ⟨_, _, _, rfl, fun _ => rfl, fun _ => rfl⟩
    · exact ⟨_, _, _, rfl, id, id⟩
  · exact ⟨_, _, _, rfl, id, id⟩

theorem beaconTake_eq (s : State) (n f : Nat) (fits : List Nat) : beaconTake s n f fits =
    if onGrid s then judged s n f fits
    else strokeStart (judged s n f fits) (BitVec.ofNat 32 n) (judged s n f fits).tb.time := by
  have ho : beaconOffset { s with tb := takenTb s fits } f = beaconOffset s f := by
    obtain ⟨l, v, b, h, -, -⟩ := takePeriod_eq fits { s.tb with
      missed := 0, bcnOk := true
      badLen := if fits.contains s.tb.len then 0 else s.tb.badLen
      synt := if s.clk.refAct = 2 then Config.synt s.fresh else s.tb.synt }
    simp only [beaconOffset, takenTb, h]
  show (if onGrid s then _ else _) = _
  simp only [judged, heard, ← ho]
  rfl

theorem resumeQuiet_frame (s : State) : only [.aon] s (resumeQuiet s) :=
  forEach_frame _ _ s fun a m => modAon_frame a (dnPort m) _

/-- One port on which a beacon is regenerated: it wakes, and notes its residence in `g`. -/
def relay (g : DnN → Port → Port) (a : State) (m : DnN) : State := modPort (wakeTx a (dnPort m)) (dnPort m) (g m)

theorem relay_frame (g : DnN → Port → Port) (a : State) (m : DnN) : only [.ports, .out] a (relay g a m) :=
  (wakeTx_frame a (dnPort m)).seq (modPort_only _ (dnPort m) _)

theorem relay_sameStk (g : DnN → Port → Port) (a : State) (m : DnN) : sameStk a (relay g a m) :=
  (wakeTx_sameStk a _).trans (sameStk_of_out rfl)

theorem relay_up (g : DnN → Port → Port) (a : State) (m : DnN) :
    (relay g a m).ports[(0 : PortN)] = a.ports[(0 : PortN)] := by
  have hne : (0 : PortN) ≠ dnPort m := (dnPort_ne_zero m).symm
  refine (modPort_ne _ _ _ _ hne).trans ?_
  unfold wakeTx
  split
  · exact (modPort_ne _ _ _ _ hne).trans (modPort_ne _ _ _ _ hne)
  · rfl

/-- The ports that carry the beacon, one after the other, and the beacons that go out on them (R151). -/
theorem regenerate_eq (s : State) (n f : Nat) : ∃ g r, regenerate s n f =
    bump (emits (forEach (dnAll.filter (carriesBeacon s)) (relay g) { s with tb := { s.tb with resid := r } })
      ((dnAll.filter (carriesBeacon s)).map (beaconOut s n f))) := ⟨_, _, rfl⟩

theorem regenerate_frame (s : State) (n f : Nat) : only [.ports, .tb, .out] s (regenerate s n f) := by
  obtain ⟨g, r, h⟩ := regenerate_eq s n f
  rw [h]
  have hports := (tb_frame s { s.tb with resid := r }).seq
    (forEach_frame (dnAll.filter (carriesBeacon s)) (relay g) _ (relay_frame g)) (rs := [.ports, .tb, .out])
  exact (hports.seq (emits_frame _ _) (rs := [.ports, .tb, .out])).seq (bump_frame _)

theorem regenerate_tb (s : State) (n f : Nat) : ∃ r, (regenerate s n f).tb = { s.tb with resid := r } := by
  obtain ⟨g, r, h⟩ := regenerate_eq s n f
  exact ⟨r, (congrArg State.tb h).trans (forEach_frame (dnAll.filter (carriesBeacon s)) (relay g)
    { s with tb := { s.tb with resid := r } } (relay_frame g) .tb (by decide))⟩

/-- UP itself is no port that a beacon is sent on. -/
theorem regenerate_up (s : State) (n f : Nat) : (regenerate s n f).ports[(0 : PortN)] = s.ports[(0 : PortN)] := by
  obtain ⟨g, r, h⟩ := regenerate_eq s n f
  have hall : ∀ (l : List DnN) (a : State), (forEach l (relay g) a).ports[(0 : PortN)] = a.ports[(0 : PortN)] := fun l => by
    induction l with
    | nil => exact fun _ => rfl
    | cons m l ih => exact fun a => (ih _).trans (relay_up g a m)
  exact (congrArg (fun t : State => t.ports[(0 : PortN)]) h).trans (hall _ _)

/-- The beacons that go out are those of the ports that carry them (R151). -/
theorem regenerate_stk (s : State) (n f : Nat) (m : PortN) (ws : List Word) :
    Out.stk m ws ∈ (regenerate s n f).out ↔
      (∃ j, carriesBeacon s j = true ∧ beaconOut s n f j = Out.stk m ws) ∨ Out.stk m ws ∈ s.out := by
  obtain ⟨g, r, h⟩ := regenerate_eq s n f
  have hports := forEach_sameStk (dnAll.filter (carriesBeacon s)) (relay g) { s with tb := { s.tb with resid := r } }
    (relay_sameStk g) m ws
  have hall : ∀ j, j ∈ dnAll := List.mem_finRange
  rw [h]
  simp only [bump, emits, List.mem_append, List.mem_reverse, List.mem_map, List.mem_filter, hall, true_and]
  exact or_congr Iff.rfl hports

/-! ## The stages of an accepted beacon -/

theorem heard_frame (s : State) (n f : Nat) (fits : List Nat) : only [.aon, .ports, .tb, .out] s (heard s n f fits) := by
  have hreg := (tb_frame s { takenTb s fits with offset := BitVec.ofInt 32 (beaconOffset s f) }).seq
    (regenerate_frame _ n f) (rs := [.aon, .ports, .tb, .out])
  exact only_ite _ (hreg.seq (resumeQuiet_frame _)) hreg

theorem takenTb_eq (s : State) (fits : List Nat) : ∃ l v b y,
    takenTb s fits = { s.tb with
      missed := 0, bcnOk := true, len := l, valid := v, fits := fits, badLen := b, synt := y } ∧
    (s.tb.valid = true → v = true) ∧ (fits.contains s.tb.len = true → b = 0) := by
  obtain ⟨l, v, b, hp, hv, hb⟩ := takePeriod_eq fits { s.tb with
    missed := 0, bcnOk := true
    badLen := if fits.contains s.tb.len then 0 else s.tb.badLen
    synt := if s.clk.refAct = 2 then Config.synt s.fresh else s.tb.synt }
  exact ⟨l, v, b, _, hp, hv, fun h => hb (if_pos h)⟩

/-- The time base as a beacon of a fitting length is judged: fresh, its offset noted, lock and time as they stood. -/
theorem heard_tb (s : State) (n f : Nat) (fits : List Nat) : ∃ l v b y r,
    (heard s n f fits).tb = { s.tb with
      missed := 0, bcnOk := true, len := l, valid := v, fits := fits, badLen := b, synt := y
      offset := BitVec.ofInt 32 (beaconOffset s f), resid := r } ∧
    (s.tb.valid = true → v = true) ∧ (fits.contains s.tb.len = true → b = 0) := by
  obtain ⟨l, v, b, y, hp, hv, hb⟩ := takenTb_eq s fits
  obtain ⟨r, hr⟩ := regenerate_tb
    { s with tb := { takenTb s fits with offset := BitVec.ofInt 32 (beaconOffset s f) } } n f
  refine ⟨l, v, b, y, r, ?_, hv, hb⟩
  have hheard : (heard s n f fits).tb =
      (regenerate { s with tb := { takenTb s fits with offset := BitVec.ofInt 32 (beaconOffset s f) } } n f).tb := by
    unfold heard
    dsimp only
    split
    · exact resumeQuiet_frame _ .tb (by decide)
    · rfl
  rw [hheard, hr, hp]

theorem heard_up (s : State) (n f : Nat) (fits : List Nat) :
    (heard s n f fits).ports[(0 : PortN)] = s.ports[(0 : PortN)] := by
  have hreg := regenerate_up { s with tb := { takenTb s fits with offset := BitVec.ofInt 32 (beaconOffset s f) } } n f
  unfold heard
  dsimp only
  split
  · exact (congrArg (fun p : Vector Port 17 => p[(0 : PortN)]) (resumeQuiet_frame _ .ports (by decide))).trans hreg
  · exact hreg

theorem heard_stk (s : State) (n f : Nat) (fits : List Nat) (m : PortN) (ws : List Word) :
    Out.stk m ws ∈ (heard s n f fits).out ↔
      (∃ j, carriesBeacon s j = true ∧ beaconOut s n f j = Out.stk m ws) ∨ Out.stk m ws ∈ s.out := by
  have hhop : (takenTb s fits).hop = s.tb.hop := by
    obtain ⟨l, v, b, y, hp, -, -⟩ := takenTb_eq s fits
    rw [hp]
  have hreg := regenerate_stk
    { s with tb := { takenTb s fits with offset := BitVec.ofInt 32 (beaconOffset s f) } } n f m ws
  have hsame : ∀ j, beaconOut { s with tb := { takenTb s fits with offset := BitVec.ofInt 32 (beaconOffset s f) } } n f j =
      beaconOut s n f j := fun j => by simp only [beaconOut, hhop]
  simp only [hsame] at hreg
  unfold heard
  dsimp only
  split
  · exact (sameStk_of_only (resumeQuiet_frame _) (by decide) m ws).trans hreg
  · exact hreg

theorem lockRun_frame (s : State) (o : Int) : only lockParts s (lockRun s o) := by
  unfold lockRun
  dsimp only
  exact only_ite _ (setTb_only s _) (only_ite _ ((setTb_only s _).seq (loseLock_only _)) (setTb_only s _))

theorem lockRun_sameStk (s : State) (o : Int) : sameStk s (lockRun s o) := by
  have hset : ∀ x : Tb, sameStk s { s with tb := x } := fun x => sameStk_of_only (tb_frame s x)
  unfold lockRun
  dsimp only
  exact sameStk_ite _ (hset _) (sameStk_ite _ ((hset _).trans (loseLock_sameStk _)) (hset _))

/-- The parts in which an accepted beacon shows on its way through servo and lock. -/
def judgeParts : List Part := [.bb, .aon, .doms, .ln, .hma, .que, .ports, .tt, .tb, .out]

theorem timeStep_frame (s : State) (o : Int) : only judgeParts s (timeStep s o) := by
  unfold timeStep
  have hset := (tb_frame s { s.tb with
    time := s.tb.time + BitVec.ofInt 64 o, step := true, todo := 0, runIn := 0 }).seq (raise_only _
      { code := 0x07, src := 0, w1 := wordOf (BitVec.ofInt 32 o).toNat 0, w2 := wordOf (BitVec.ofInt 32 o).toNat 1 })
    (rs := judgeParts)
  have hlog := hset.seq (bbLink_only _ 0x40 0 (wordOf (BitVec.ofInt 32 o).toNat 0) (wordOf (BitVec.ofInt 32 o).toNat 1))
    (rs := judgeParts)
  exact ((hlog.seq (loseLock_only _) (rs := judgeParts)).seq (tb_frame _ _) (rs := judgeParts)).seq
    (releaseEarly_frame _ _ _)

theorem timeStep_sameStk (s : State) (o : Int) : sameStk s (timeStep s o) := by
  unfold timeStep
  dsimp only
  refine sameStk.trans ?_ (releaseEarly_sameStk _ _ _)
  refine sameStk.trans ?_ (sameStk_of_only (tb_frame _ _))
  refine sameStk.trans ?_ (loseLock_sameStk _)
  refine sameStk.trans ?_ (bbLink_sameStk _ _ _ _ _)
  exact (sameStk_of_only (tb_frame s _)).trans (raise_sameStk _ _)

theorem servo_frame (s : State) (o : Int) : only judgeParts s (servo s o) := by
  unfold servo
  exact only_ite _ (only_refl _ s) (only_ite _ (timeStep_frame s o) (tb_frame s _).widen)

theorem servo_sameStk (s : State) (o : Int) : sameStk s (servo s o) := by
  unfold servo
  exact sameStk_ite _ (sameStk_refl s) (sameStk_ite _ (timeStep_sameStk s o) (sameStk_of_only (tb_frame s _)))

/-- An offset that the servo slews in, or that no servo takes. -/
theorem servo_slews (s : State) (o : Int) (h : o.natAbs ≤ 400 ∨ s.tb.servo = false) :
    servo s o = { s with tb := { s.tb with todo := if s.tb.servo then o else s.tb.todo } } := by
  unfold servo
  by_cases hs : s.tb.servo = true
  · have ho : ¬ 400 < o.natAbs := Nat.not_lt.mpr (h.resolve_right (by simp [hs]))
    rw [if_neg (by simp [hs]), if_neg ho, if_pos hs]
  · rw [if_pos (by simpa using hs), if_neg hs]

theorem servo_steps (s : State) (o : Int) (hs : s.tb.servo = true) (ho : 400 < o.natAbs) : servo s o = timeStep s o := by
  unfold servo
  rw [if_neg (by simp [hs]), if_pos ho]

/-- The conditions of R156 hold and the run is complete. -/
def gains (s : State) : Bool := !s.tb.locked && lockCond s && 8 ≤ s.tb.runIn

theorem gainLock_tb (s : State) : (gainLock s).tb =
    { s.tb with locked := s.tb.locked || gains s, holdover := s.tb.holdover && !gains s } := by
  show State.tb (if gains s = true then _ else s) = _
  by_cases hg : gains s = true
  · rw [if_pos hg]
    simp [hg]
  · rw [if_neg hg]
    simp [hg]

theorem judged_frame (s : State) (n f : Nat) (fits : List Nat) : only judgeParts s (judged s n f fits) :=
  ((heard_frame s n f fits).seq (lockRun_frame _ _) (rs := judgeParts)).seq
    ((servo_frame _ _).seq (gainLock_only _) (rs := judgeParts))

theorem judged_stk (s : State) (n f : Nat) (fits : List Nat) (m : PortN) (ws : List Word) :
    Out.stk m ws ∈ (judged s n f fits).out ↔
      (∃ j, carriesBeacon s j = true ∧ beaconOut s n f j = Out.stk m ws) ∨ Out.stk m ws ∈ s.out :=
  (((lockRun_sameStk _ _).trans ((servo_sameStk _ _).trans (gainLock_sameStk _))) m ws).trans (heard_stk s n f fits m ws)

theorem lockCond_of {s t : State} (hc : t.clk = s.clk) (hp : t.ports[(0 : PortN)] = s.ports[(0 : PortN)])
    (hv : s.tb.valid = true → t.tb.valid = true) (hs : t.tb.servo = s.tb.servo) (ho : t.tb.dlyOk = s.tb.dlyOk)
    (hd : t.tb.dlyPll = s.tb.dlyPll) (h : lockCond s = true) : lockCond t = true := by
  simp only [lockCond, syntonised, hc, hp, hs, ho, hd, Bool.and_eq_true] at h ⊢
  obtain ⟨⟨⟨⟨⟨h1, h2⟩, h3⟩, h4⟩, h5⟩, h6⟩ := h
  exact ⟨⟨⟨⟨⟨h1, h2⟩, h3⟩, hv h4⟩, h5⟩, h6⟩

/-- The time base after a beacon whose offset the servo slews in, or that no servo takes. -/
theorem judged_tb_slewed (s : State) (n f : Nat) (fits : List Nat) (o : Int) (ho : beaconOffset s f = o)
    (h : o.natAbs ≤ 400 ∨ s.tb.servo = false) : ∃ l v b y r g,
    (judged s n f fits).tb = { s.tb with
      missed := 0, bcnOk := true, len := l, valid := v, fits := fits, badLen := b, synt := y
      offset := BitVec.ofInt 32 o, resid := r
      runIn := if o.natAbs ≤ 4 * s.tb.lockWin then satInc 8 s.tb.runIn else 0
      runOut := if o.natAbs ≤ 4 * s.tb.lockWin then 0 else satInc 3 s.tb.runOut
      locked := (s.tb.locked && !outOfLock s.tb o) || g
      loss := s.tb.loss || outOfLock s.tb o
      holdover := (s.tb.holdover || outOfLock s.tb o) && !g
      todo := if s.tb.servo then o else s.tb.todo } ∧
    (fits.contains s.tb.len = true → b = 0) ∧
    (g = true → o.natAbs ≤ 4 * s.tb.lockWin ∧ 7 ≤ s.tb.runIn) ∧
    (s.tb.locked = false → lockCond s = true → o.natAbs ≤ 4 * s.tb.lockWin → 7 ≤ s.tb.runIn → g = true) := by
  subst ho
  obtain ⟨l, v, b, y, r, hh, hv, hb⟩ := heard_tb s n f fits
  have hrun := lockRun_tb (heard s n f fits) (beaconOffset s f)
  rw [hh] at hrun
  have hservo := servo_slews (lockRun (heard s n f fits) (beaconOffset s f)) (beaconOffset s f)
    (by rw [hrun]; exact h)
  refine ⟨l, v, b, y, r, gains (servo (lockRun (heard s n f fits) (beaconOffset s f)) (beaconOffset s f)), ?_, hb, ?_, ?_⟩
  · unfold judged
    rw [gainLock_tb, hservo, hrun]
    rfl
  · intro hg
    rw [hservo] at hg
    simp only [gains, hrun, Bool.and_eq_true, decide_eq_true_eq] at hg
    obtain ⟨-, hrunIn⟩ := hg
    unfold satInc at hrunIn
    split at hrunIn
    · exact ⟨‹_›, by split at hrunIn <;> omega⟩
    · omega
  · intro hl hc hin hr
    have hcond : lockCond (servo (lockRun (heard s n f fits) (beaconOffset s f)) (beaconOffset s f)) = true := by
      have hclk : (lockRun (heard s n f fits) (beaconOffset s f)).clk = s.clk :=
        (lockRun_frame _ _ .clk (by decide)).trans (heard_frame s n f fits .clk (by decide))
      have hport : (lockRun (heard s n f fits) (beaconOffset s f)).ports[(0 : PortN)] = s.ports[(0 : PortN)] :=
        (congrArg (fun p : Vector Port 17 => p[(0 : PortN)]) (lockRun_frame _ _ .ports (by decide))).trans
          (heard_up s n f fits)
      refine lockCond_of (s := s) ?_ ?_ ?_ ?_ ?_ ?_ hc <;> rw [hservo]
      · exact hclk
      · exact hport
      · rw [hrun]
        exact hv
      all_goals rw [hrun]
    have hfull : 8 ≤ (if (beaconOffset s f).natAbs ≤ 4 * s.tb.lockWin then satInc 8 s.tb.runIn else 0) := by
      rw [if_pos hin]
      unfold satInc
      split <;> omega
    have hunlocked : (servo (lockRun (heard s n f fits) (beaconOffset s f)) (beaconOffset s f)).tb.locked = false := by
      rw [hservo, hrun]
      exact congrArg (fun b => b && !outOfLock s.tb (beaconOffset s f)) hl
    have hrunIn : 8 ≤ (servo (lockRun (heard s n f fits) (beaconOffset s f)) (beaconOffset s f)).tb.runIn := by
      rw [hservo, hrun]
      exact hfull
    simp only [gains, hunlocked, hcond, hrunIn, Bool.not_false, Bool.and_self, decide_true]

/-- The time base after a beacon whose offset is a step: without lock or holdover, and its runs afresh. -/
theorem judged_tb_stepped (s : State) (n f : Nat) (fits : List Nat) (o : Int) (ho : beaconOffset s f = o)
    (hs : s.tb.servo = true) (h : 400 < o.natAbs) : ∃ l v b y r lo c,
    (judged s n f fits).tb = { s.tb with
      missed := 0, bcnOk := true, len := l, valid := v, fits := fits, badLen := b, synt := y
      offset := BitVec.ofInt 32 o, resid := r, time := s.tb.time + BitVec.ofInt 64 o, step := true, todo := 0
      runIn := 0, runOut := if o.natAbs ≤ 4 * s.tb.lockWin then 0 else satInc 3 s.tb.runOut
      locked := false, loss := lo, holdover := false, crews := c } ∧
    (fits.contains s.tb.len = true → b = 0) := by
  subst ho
  obtain ⟨l, v, b, y, r, hh, hv, hb⟩ := heard_tb s n f fits
  have hrun := lockRun_tb (heard s n f fits) (beaconOffset s f)
  rw [hh] at hrun
  obtain ⟨c, hc⟩ := timeStep_tb (lockRun (heard s n f fits) (beaconOffset s f)) (beaconOffset s f)
  rw [hrun] at hc
  have hjudged : (judged s n f fits).tb =
      (gainLock (timeStep (lockRun (heard s n f fits) (beaconOffset s f)) (beaconOffset s f))).tb :=
    congrArg (fun t => (gainLock t).tb) (servo_steps _ _ (by rw [hrun]; exact hs) h)
  have hno : gains (timeStep (lockRun (heard s n f fits) (beaconOffset s f)) (beaconOffset s f)) = false := by
    simp [gains, hc]
  refine ⟨l, v, b, y, r, s.tb.loss || outOfLock s.tb (beaconOffset s f) ||
    (s.tb.locked && !outOfLock s.tb (beaconOffset s f)), c, ?_, hb⟩
  rw [hjudged, gainLock_tb, hno, hc]
  simp only [Bool.or_false]
  rfl

/-! ## A beacon on UP -/

theorem beaconTake_frame (s : State) (n f : Nat) (fits : List Nat) :
    only (.bus :: judgeParts) s (beaconTake s n f fits) := by
  rw [beaconTake_eq]
  exact only_ite _ (judged_frame s n f fits).widen ((judged_frame s n f fits).seq (strokeStart_frame _ _ _))

/-- Off the grid an accepted beacon is the boundary of its stroke; nothing else of the time base depends on it. -/
theorem beaconTake_tb (s : State) (n f : Nat) (fits : List Nat) : ∃ k d so,
    (beaconTake s n f fits).tb = { (judged s n f fits).tb with stroke := k, bound := d, soOn := so } := by
  rw [beaconTake_eq]
  split
  · exact ⟨_, _, _, rfl⟩
  · exact ⟨_, _, _, rfl⟩

theorem beaconTake_stk (s : State) (n f : Nat) (fits : List Nat) (m : PortN) (ws : List Word) :
    Out.stk m ws ∈ (beaconTake s n f fits).out ↔
      (∃ j, carriesBeacon s j = true ∧ beaconOut s n f j = Out.stk m ws) ∨ Out.stk m ws ∈ s.out := by
  rw [beaconTake_eq]
  split
  · exact judged_stk s n f fits m ws
  · exact judged_stk s n f fits m ws

theorem carriesBeacon_iff (s : State) (m : DnN) : carriesBeacon s m = true ↔
    isUp s.ports[dnPort m] = true ∧ bit s.aon.ports[dnPort m].feather 3 = false ∧ s.aon.ports[dnPort m].hold = .none := by
  simp [carriesBeacon, and_assoc]

theorem dnPort_inj {m j : DnN} (h : dnPort m = dnPort j) : m = j :=
  Fin.ext (Nat.succ.inj (congrArg Fin.val h))

/-- The two halves of N as they go out again. -/
theorem wordOf_pair (a b : Word) : wordOf (a.toNat * 65536 + b.toNat) 1 = a ∧ wordOf (a.toNat * 65536 + b.toNat) 0 = b := by
  have hb := b.isLt
  constructor <;> apply BitVec.eq_of_toNat_eq <;> simp [wordOf] <;> omega

/-- A beacon that no flood cut, on an UP with a link. -/
theorem stkRx_good {s : State} {a b c d e f : Word} (hu : isUp s.ports[(0 : PortN)] = true) :
    stkRx s [a, b, c, d, e, f] (crc16 [a, b, c, d, e, f]) true =
      if (beaconFits (ofWords [f, e, d, c]) (a.toNat * 65536 + b.toNat)).contains s.tb.len ||
          (2 ≤ s.tb.badLen && !(beaconFits (ofWords [f, e, d, c]) (a.toNat * 65536 + b.toNat)).isEmpty) then
        beaconTake s (a.toNat * 65536 + b.toNat) (ofWords [f, e, d, c])
          (beaconFits (ofWords [f, e, d, c]) (a.toNat * 65536 + b.toNat))
      else beaconRefuse s := by
  unfold stkRx
  rw [if_neg (by simpa using hu), if_neg (by simp)]
  rfl

/-- What UP receives outside a flood. -/
theorem onRx_quiet {s t : State} {n : PortN} {f : State → State} (hq : s.ports[n].flooding = false) (h : f s = t) :
    onRx n f s = t := by
  unfold onRx whenDo
  rw [if_pos (by simpa using hq), h]

theorem onRx_flooded {s : State} {n : PortN} {f : State → State} (hq : s.ports[n].flooding = true) : onRx n f s = s := by
  unfold onRx whenDo
  rw [if_neg (by simp only [hq]; decide)]

/-- Off the grid an accepted beacon is the boundary of the stroke it names (R148). -/
theorem beaconTake_offGrid (s : State) (n f : Nat) (fits : List Nat) (h1 : s.tb.locked = false)
    (h2 : s.tb.holdover = false) : (beaconTake s n f fits).tb.stroke = BitVec.ofNat 32 n ∧
    (beaconTake s n f fits).tb.bound = (beaconTake s n f fits).tb.time ∧
    (beaconTake s n f fits).bus.schedAct = s.bus.sched := by
  rw [beaconTake_eq, if_neg (by simp [onGrid, h1, h2])]
  exact ⟨rfl, rfl, congrArg Bus.sched (judged_frame s n f fits .bus (by decide))⟩

/-- What an accepted beacon leaves of count, offset and run. -/
theorem beaconTake_counts (s : State) (n f : Nat) (fits : List Nat) (o : Int) (ho : beaconOffset s f = o)
    (hfit : fits.contains s.tb.len = true) :
    let t := beaconTake s n f fits
    t.tb.missed = 0 ∧ t.tb.bcnOk = true ∧ t.tb.badLen = 0 ∧ t.tb.offset = BitVec.ofInt 32 o ∧
    (¬ o.natAbs ≤ 4 * s.tb.lockWin → t.tb.runIn = 0 ∧ t.tb.runOut = satInc 3 s.tb.runOut) := by
  intro t
  obtain ⟨k, bd, so, htake⟩ := beaconTake_tb s n f fits
  by_cases hslew : o.natAbs ≤ 400 ∨ s.tb.servo = false
  · obtain ⟨l, v, bl, y, r, g, htb, hb, -, -⟩ := judged_tb_slewed s n f fits o ho hslew
    rw [htake, htb]
    exact ⟨rfl, rfl, hb hfit, rfl, fun h => ⟨if_neg h, if_neg h⟩⟩
  · obtain ⟨hservo, hbig⟩ : s.tb.servo = true ∧ 400 < o.natAbs := by simpa [not_or, and_comm] using hslew
    obtain ⟨l, v, bl, y, r, lo, cr, htb, hb⟩ := judged_tb_stepped s n f fits o ho hservo hbig
    rw [htake, htb]
    exact ⟨rfl, rfl, hb hfit, rfl, fun h => ⟨rfl, if_neg h⟩⟩

/-- An accepted beacon whose offset is no step. -/
theorem beaconTake_slewed (s : State) (n f : Nat) (fits : List Nat) (o : Int) (ho : beaconOffset s f = o)
    (hslew : o.natAbs ≤ 400 ∨ s.tb.servo = false) :
    let t := beaconTake s n f fits
    t.tb.time = s.tb.time ∧ t.tb.step = s.tb.step ∧ t.tb.todo = (if s.tb.servo then o else s.tb.todo) ∧
    (o.natAbs ≤ 4 * s.tb.lockWin → t.tb.runIn = satInc 8 s.tb.runIn ∧ t.tb.runOut = 0) ∧
    (s.tb.locked = false → lockCond s = true → o.natAbs ≤ 4 * s.tb.lockWin → 7 ≤ s.tb.runIn →
      t.tb.locked = true ∧ t.tb.holdover = false) ∧
    (s.tb.locked = false → s.tb.runIn < 7 → t.tb.locked = false) ∧
    (s.tb.locked = true → ¬ o.natAbs ≤ 4 * s.tb.lockWin → 2 ≤ s.tb.runOut →
      t.tb.locked = false ∧ t.tb.loss = true ∧ t.tb.holdover = true) := by
  intro t
  obtain ⟨k, bd, so, htake⟩ := beaconTake_tb s n f fits
  obtain ⟨l, v, bl, y, r, g, htb, -, hg, hgain⟩ := judged_tb_slewed s n f fits o ho hslew
  rw [htake, htb]
  refine ⟨rfl, rfl, rfl, fun h => ⟨if_pos h, if_pos h⟩, fun h1 h2 h3 h4 => ?_, fun h1 h2 => ?_, fun h1 h2 h3 => ?_⟩
  · simp [hgain h1 h2 h3 h4]
  · have hno : g = false := Bool.eq_false_iff.mpr fun h => absurd (hg h).2 (Nat.not_le.mpr h2)
    simp [h1, hno]
  · have hno : g = false := Bool.eq_false_iff.mpr fun h => h2 (hg h).1
    have hout : outOfLock s.tb o = true := by simp [outOfLock, h1, h3, Nat.lt_of_not_le h2]
    simp [hno, hout]

/-- An accepted beacon whose offset the servo adds at once. -/
theorem beaconTake_stepped (s : State) (n f : Nat) (fits : List Nat) (o : Int) (ho : beaconOffset s f = o)
    (hs : s.tb.servo = true) (h : 400 < o.natAbs) :
    let t := beaconTake s n f fits
    t.tb.time = s.tb.time + BitVec.ofInt 64 o ∧ t.tb.todo = 0 ∧ t.tb.step = true ∧ t.tb.locked = false ∧
      t.tb.holdover = false := by
  intro t
  obtain ⟨k, bd, so, htake⟩ := beaconTake_tb s n f fits
  obtain ⟨l, v, bl, y, r, lo, cr, htb, -⟩ := judged_tb_stepped s n f fits o ho hs h
  rw [htake, htb]
  exact ⟨rfl, rfl, rfl, rfl, rfl⟩

/-- An accepted beacon goes out on the ports that carry beacons and on no other (R151). -/
theorem beaconTake_sends (s : State) (a b : Word) (f : Nat) (fits : List Nat) (m : DnN) :
    (carriesBeacon s m = true →
      let x := (f + s.tb.hop.toNat + Config.residence s.fresh (dnPort m).val) % 2 ^ 64
      let ws := [a, b, wordOf x 3, wordOf x 2, wordOf x 1, wordOf x 0]
      Out.stk (dnPort m) (ws ++ [crc16 ws]) ∈ (beaconTake s (a.toNat * 65536 + b.toNat) f fits).out) ∧
    (∀ ws, ¬ carriesBeacon s m = true →
      Out.stk (dnPort m) ws ∈ (beaconTake s (a.toNat * 65536 + b.toNat) f fits).out → Out.stk (dnPort m) ws ∈ s.out) := by
  obtain ⟨ha, hb⟩ := wordOf_pair a b
  refine ⟨fun hm => (beaconTake_stk _ _ _ _ _ _).mpr (.inl ⟨m, hm, by simp only [beaconOut, ha, hb]⟩), fun ws hm h => ?_⟩
  refine ((beaconTake_stk _ _ _ _ _ _).mp h).resolve_left fun ⟨j, hj, hout⟩ => hm ?_
  rw [dnPort_inj (Out.stk.inj hout).1] at hj
  exact hj

/-- Settles O22: it holds. An accepted beacon is `beaconTake`: its time base is `judged_tb_slewed` or
`judged_tb_stepped`, and the beacons it sends are `beaconTake_stk`. -/
theorem strokeBeacons : Obligations.StrokeBeacons := by
  unfold Obligations.StrokeBeacons
  refine ⟨fun ws chk s hl hu => ?_, fun ws chk s hl => ?_, fun ws chk s hl hu hq hc => ?_,
    fun a b c d e f s hl hu hq hfit => ?_, fun a b c d e f s hl hu hq hfit => ?_⟩
  · have hrx : stkRx s ws chk true = s := if_pos (by simpa using hu)
    exact onLink_eq hl (by cases hq : s.ports[(0 : PortN)].flooding; exacts [onRx_quiet hq hrx, onRx_flooded hq])
  · have hrx : stkRx s ws chk false = s := by simp [stkRx]
    exact onLink_eq hl (by cases hq : s.ports[(0 : PortN)].flooding; exacts [onRx_quiet hq hrx, onRx_flooded hq])
  · have hrx : stkRx s ws chk true = countCode s 0 := by
      unfold stkRx
      rw [if_neg (by simpa using hu), if_pos (by simp [hc])]
    exact ⟨_, onLink_eq hl (onRx_quiet hq hrx), congrArg Port.codeErr (modPort_self s 0 _), portsBut_modPort s 0 _,
      modPort_only s 0 _⟩
  · intro o sends inWin
    have hrx := (stkRx_good (s := s) (a := a) (b := b) (c := c) (d := d) (e := e) (f := f) hu).trans
      (if_pos (by rw [hfit]; rfl))
    have hx := beaconTake_counts s (a.toNat * 65536 + b.toNat) _ _ o rfl hfit
    obtain ⟨hmissed, hok, hbad, hoffset, hout⟩ := hx
    have hslewed := beaconTake_slewed s (a.toNat * 65536 + b.toNat) (ofWords [f, e, d, c])
      (beaconFits (ofWords [f, e, d, c]) (a.toNat * 65536 + b.toNat)) o rfl
    have hstepped := beaconTake_stepped s (a.toNat * 65536 + b.toNat) (ofWords [f, e, d, c])
      (beaconFits (ofWords [f, e, d, c]) (a.toNat * 65536 + b.toNat)) o rfl
    refine ⟨_, onLink_eq hl (onRx_quiet hq hrx), hmissed, hok, hbad, hoffset, beaconTake_offGrid s _ _ _, fun m hm => ?_,
      fun m ws hm => ?_, fun h => ?_, fun h1 h2 => ?_, hstepped, fun hin h => ?_, hout, fun h1 h2 h3 h4 h5 => ?_,
      fun h1 h2 => ?_, fun h1 h2 h3 h4 => ?_, (beaconTake_frame _ _ _ _).widen⟩
    · exact (beaconTake_sends s a b _ _ m).1 ((carriesBeacon_iff s m).mpr hm)
    · exact (beaconTake_sends s a b _ _ m).2 ws (mt (carriesBeacon_iff s m).mp hm)
    · obtain ⟨htime, -, htodo, -⟩ := hslewed (.inr h)
      exact ⟨htime, htodo.trans (if_neg (by simp [h]))⟩
    · obtain ⟨htime, hstep, htodo, -⟩ := hslewed (.inl h2)
      exact ⟨htime, htodo.trans (if_pos h1), hstep⟩
    · obtain ⟨-, -, -, hrun, -⟩ := hslewed h
      exact hrun hin
    · obtain ⟨-, -, -, -, hgain, -⟩ := hslewed (.inl h5)
      exact hgain h1 h2 h3 h4
    · by_cases hslew : o.natAbs ≤ 400 ∨ s.tb.servo = false
      · obtain ⟨-, -, -, -, -, hstays, -⟩ := hslewed hslew
        exact hstays h1 h2
      · obtain ⟨hs, hbig⟩ : s.tb.servo = true ∧ 400 < o.natAbs := by simpa [not_or, and_comm] using hslew
        obtain ⟨-, -, -, hno, -⟩ := hstepped hs hbig
        exact hno
    · obtain ⟨-, -, -, -, -, -, hloses⟩ := hslewed (.inl h4)
      exact hloses h1 h2 h3
  · have hrx := (stkRx_good (s := s) (a := a) (b := b) (c := c) (d := d) (e := e) (f := f) hu).trans
      (if_neg (by rw [hfit]; simp))
    exact ⟨_, onLink_eq hl (onRx_quiet hq hrx), rfl, tb_frame s _⟩

end Sys2Proof.Machine
end

section
/-! PROOF. Slew ticks, the end of holdover, catches and the pins of the time base (O23). -/

namespace Sys2Proof.Machine

open Sys2Proof Sys2Proof.Safety

-- One proof after the other: side by side, the proofs of one text wait for each other in too many threads.
set_option Elab.async false

/-! ## What has been logged stays logged -/

/-- The entries that wait for the black box in one state still wait in another. -/
def logged (s t : State) : Prop := s.que.bbf <+: t.que.bbf

theorem logged_refl (s : State) : logged s s := List.prefix_rfl

theorem logged.trans {s t u : State} (h : logged s t) (g : logged t u) : logged s u := List.IsPrefix.trans h g

theorem logged_of_que {s t : State} (h : t.que.bbf = s.que.bbf) : logged s t := by
  rw [logged, h]

theorem bbLink_logged (s : State) (code src : Nat) (w2 w3 : Word) : logged s (bbLink s code src w2 w3) := by
  rw [logged, bbLink_bbf, bbfPush]
  split
  · exact List.prefix_append _ _
  · exact List.prefix_rfl

/-- Where the queue to the black box has room, an entry waits there. -/
theorem bbLink_mem (s : State) (code src : Nat) (w2 w3 : Word) (h : s.que.bbf.length < 16) :
    mkEntry code src w2 w3 false (now s) ∈ (bbLink s code src w2 w3).que.bbf := by
  rw [bbLink_bbf, bbfPush, if_pos h]
  exact List.mem_append_right _ (List.mem_singleton_self _)

theorem raiseTo_logged (s : State) (hit : DomN → Bool) (force : Bool) (k : Nat) (e : Ev) :
    logged s (raiseTo s hit force k e) := logged_of_que (evfOffer_bbf k e s.que)

theorem forEach_logged {α : Type} (l : List α) (f : State → α → State) (s : State) (h : ∀ a x, logged a (f a x)) :
    logged s (forEach l f s) := by
  induction l generalizing s with
  | nil => exact List.prefix_rfl
  | cons x l ih => exact (h s x).trans (ih (f s x))

theorem logged_ite (c : Prop) [Decidable c] {s t u : State} (ht : logged s t) (hu : logged s u) :
    logged s (if c then t else u) := by
  split <;> assumption

theorem logged_of_only {ps : List Part} {s t : State} (h : only ps s t) (hq : .que ∉ ps := by decide) : logged s t :=
  logged_of_que (congrArg Que.bbf (h .que hq))

theorem flagCrew_logged (s : State) (k : CrewN) (f : Word) : logged s (flagCrew s k f) := by
  exact (logged_of_que (raise_bbf (modCrew s k _) _)).trans (bbLink_logged _ _ _ _ _)

theorem completeHead_logged (s : State) (k : EpN) (status bytes : Nat) (cue late : Bool) :
    logged s (completeHead s k status bytes cue late) := by
  unfold completeHead completeDesc
  split
  · exact logged_refl s
  · exact (logged_of_only (modEp_frame s k _)).trans (logged_ite _ (logged_refl _) (raiseTo_logged _ _ _ _ _))

theorem epAsk_logged (s : State) (k : EpN) : logged s (epAsk s k) := by
  have hdrop : logged s (if ringRuns s k then dropBad s k else s) := by
    unfold dropBad
    exact logged_ite _ (logged_ite _ (completeHead_logged s k _ _ _ _) (logged_refl s)) (logged_refl s)
  exact hdrop.trans ((logged_of_only (askDesc_frame _ k)).trans (logged_of_only (askData_frame _ k)))

theorem cueDone_logged (s : State) (k : EpN) (atCatch : Bool) : logged s (cueDone s k atCatch) := by
  unfold cueDone
  have hask : ∀ (a : State) (f : Ep → Ep), logged a (epAsk (modEp a k f) k) := fun a f =>
    (logged_of_only (modEp_frame a k f)).trans (epAsk_logged _ k)
  exact logged_ite _ (logged_refl s) (logged_ite _ ((completeHead_logged s k _ _ _ _).trans (hask _ _)) (hask s _))

theorem releaseCues_logged (s : State) (f : PortN → CrewN × Nat → Bool) (atCatch : Bool) :
    logged s (releaseCues s f atCatch) := by
  unfold releaseCues
  have hset := (ports_frame s (Vector.ofFn fun n => freeCues s.tt.slots (f n) s.ports[n])).seq (tt_frame _ { s.tt with
    slots := Vector.ofFn fun j =>
      if portAll.any (fun n => releasesSlot (f n) j s.ports[n]) then none else s.tt.slots[j] }) (rs := [.ports, .tt])
  exact (logged_of_only hset).trans (forEach_logged _ _ _ fun a k =>
    logged_ite _ (cueDone_logged a k atCatch) (logged_refl a))

theorem releaseEarly_logged (s : State) (f : PortN → CrewN × Nat → Bool) (flag : Word) :
    logged s (releaseEarly s f flag) :=
  (forEach_logged _ _ s fun a k => flagCrew_logged a k flag).trans (releaseCues_logged _ f false)

/-! ## Catches -/

theorem catchCrew_catchOn (s : State) (k : CrewN) (j : Fin 4) :
    (catchCrew s k).tb.catchOn[j] = (s.tb.catchOn[j] || pinOf k s.tb.pins[j]) := by
  have htb : (releaseCues s (fun _ c => c.1 = k && c.2 ≤ now s) true).tb = s.tb := releaseCues_frame s _ true .tb (by decide)
  simp [catchCrew, htb]

/-- A catch leaves the time base but for the pins. -/
theorem catchCrew_tb (s : State) (k : CrewN) : ∃ v, (catchCrew s k).tb = { s.tb with catchOn := v } := by
  have htb : (releaseCues s (fun _ c => c.1 = k && c.2 ≤ now s) true).tb = s.tb := releaseCues_frame s _ true .tb (by decide)
  exact ⟨_, congrArg (fun b : Tb => { b with catchOn := Vector.ofFn fun j : Fin 4 => b.catchOn[j] || pinOf k b.pins[j] })
    htb⟩

theorem catchAll_tb (s : State) (crews : BitVec 8) : ∃ v, (catchAll s crews).tb = { s.tb with catchOn := v } := by
  have hcrews : ∀ (l : List CrewN) (a : State), ∃ v, (forEach l catchCrew a).tb = { a.tb with catchOn := v } := fun l => by
    induction l with
    | nil => exact fun a => ⟨a.tb.catchOn, rfl⟩
    | cons k l ih =>
      intro a
      obtain ⟨v, hv⟩ := ih (catchCrew a k)
      obtain ⟨w, hw⟩ := catchCrew_tb a k
      rw [hw] at hv
      exact ⟨v, hv⟩
  obtain ⟨v, hv⟩ := hcrews (crewAll.filter fun k => crews.getLsbD k.val && catchDue s k) s
  refine ⟨v, Eq.trans ?_ hv⟩
  unfold catchAll
  dsimp only
  split
  · exact snapRequest_frame _ 3 .tb (by decide)
  · rfl

/-- Time that has moved shows in the time base only as a boundary and as catches. -/
theorem timeMoved_tb (old : Nat) (s : State) : ∃ n b so v,
    (timeMoved old s).tb = { s.tb with stroke := n, bound := b, soOn := so, catchOn := v } := by
  obtain ⟨v, hv⟩ := catchAll_tb (gridCheck old s) 0xFF#8
  refine ⟨(gridCheck old s).tb.stroke, (gridCheck old s).tb.bound, (gridCheck old s).tb.soOn, v, hv.trans ?_⟩
  unfold gridCheck whenDo
  dsimp only
  split <;> rfl

/-- The ports after a catch: only cues set free. -/
theorem releaseCues_ports (s : State) (f : PortN → CrewN × Nat → Bool) (atCatch : Bool) (n : PortN) :
    (releaseCues s f atCatch).ports[n] = freeCues s.tt.slots (f n) s.ports[n] := by
  unfold releaseCues
  have hports := forEach_frame (ps := epParts) (cueEps s) (fun a k =>
    if s.ln.eps[k].crew.any (fun c => f 0 (c, s.ln.eps[k].catchAt)) then cueDone a k atCatch else a)
    { s with
      ports := Vector.ofFn fun n => freeCues s.tt.slots (f n) s.ports[n]
      tt := { s.tt with
        slots := Vector.ofFn fun j =>
          if portAll.any (fun n => releasesSlot (f n) j s.ports[n]) then none else s.tt.slots[j] } }
    (fun a k => only_ite _ (cueDone_frame a k atCatch) (only_refl _ a)) .ports (by decide)
  refine (congrArg (fun p : Vector Port 17 => p[n]) hports).trans ?_
  simp

/-- No cue that `f` sets free is held afterwards. -/
theorem freeCues_held {slots : Vector (Option Slot) 48} {f : CrewN × Nat → Bool} {p : Port} {x : TxPkt} {c : CrewN × Nat}
    (hx : x ∈ (freeCues slots f p).txq) (hc : x.cue = some c) : f c = false := by
  obtain ⟨y, -, rfl⟩ := List.mem_map.mp hx
  by_cases hy : y.cue.any f = true
  · rw [if_pos hy] at hc
    exact absurd hc (by simp)
  · rw [if_neg hy] at hc
    rw [hc] at hy
    simpa using hy

theorem crewBit_filter : ∀ k : CrewN, (crewAll.filter fun j => (1#8 <<< k.val).getLsbD j.val) = [k] := by decide

/-- The row of one crew whose catch has come. -/
theorem catchAll_one (s : State) (k : CrewN) (h : catchDue s k = true) : catchAll s (1#8 <<< k.val) =
    if s.tb.crews[k].snap then snapRequest (catchCrew s k) 3 else catchCrew s k := by
  have hks : (crewAll.filter fun j => (1#8 <<< k.val).getLsbD j.val && catchDue s j) = [k] := by
    simp only [Bool.and_comm (BitVec.getLsbD _ _)]
    rw [← List.filter_filter, crewBit_filter k]
    exact List.filter_eq_self.mpr fun j hj => List.mem_singleton.mp hj ▸ h
  unfold catchAll
  simp only [hks, List.any_cons, List.any_nil, Bool.or_false]
  rfl

/-- No crew's catch has come. -/
theorem catchAll_none (s : State) (crews : BitVec 8) (h : ∀ k, catchDue s k = false) : catchAll s crews = s := by
  unfold catchAll
  simp [h, forEach]

theorem catchDue_iff {s : State} {k : CrewN} : catchDue s k = true ↔ ∃ i, nextCatch s k = some i ∧ i ≤ now s := by
  simp [catchDue, Option.any_eq_true]

/-- A slew tick moves the time base by one tick, in the direction of what is left (R155). -/
theorem execSlewTick_on (s : State) (hl : linkOn s = true) : ∃ t n b so v, exec .slewTick s = .next t ∧
    t.tb = { slewTick s.tb with stroke := n, bound := b, soOn := so, catchOn := v } ∧
    only [.mtr, .aon, .doms, .ln, .hma, .que, .ports, .bus, .tt, .tb, .out] s t := by
  obtain ⟨n, b, so, v, h⟩ := timeMoved_tb (now s) { s with tb := slewTick s.tb }
  exact ⟨_, n, b, so, v, onLink_on s _ hl, h, (tb_frame s _).seq (timeMoved_frame _ _)⟩

/-- The time base once a holdover has ended (R157). -/
def holdoverOver (s : State) : State := { s with tb := { s.tb with holdover := false, holdExp := true } }

theorem holdoverExpiry_eq (s : State) : holdoverExpiry s =
    releaseEarly (bbLink (holdoverOver s) 0x42 0 (tbStat (holdoverOver s)) 0#16) (fun _ _ => true) 0x0800#16 := rfl

theorem holdoverExpiry_frame (s : State) :
    only [.bb, .aon, .doms, .ln, .hma, .que, .ports, .tt, .tb, .out] s (holdoverExpiry s) :=
  ((tb_frame s _).seq (bbLink_only (holdoverOver s) _ _ _ _) (rs := [.bb, .que, .tb])).seq (releaseEarly_frame _ _ _)

/-- Where the queue to the black box has room, the end of a holdover waits there. -/
theorem holdoverExpiry_logs (s : State) (h : s.que.bbf.length < 16) :
    mkEntry 0x42 0 (tbStat (holdoverOver s)) 0#16 false (now s) ∈ (holdoverExpiry s).que.bbf := by
  rw [holdoverExpiry_eq]
  exact (releaseEarly_logged _ _ _).subset (bbLink_mem (holdoverOver s) _ _ _ _ h)

/-- What a catch of one crew leaves alone. -/
theorem snapOrNot_frame (c : Bool) (s : State) :
    only (.mtr :: evParts) s (if c then snapRequest s 3 else s) :=
  only_ite _ (snapRequest_frame s 3) (only_refl _ s)

/-- Settles O23: it holds. Each row is one operation of the time base: `slewTick`, the release of all held cues, or
the catch of a crew. -/
theorem slewHoldoverAndPins : Obligations.SlewHoldoverAndPins := by
  unfold Obligations.SlewHoldoverAndPins
  refine ⟨fun s hl hs h => ?_, fun s hl hs h => ?_, fun s hl hh => ?_, fun s hl hh => ?_, fun k i s hl hk hi => ?_,
    fun crews s hl hk => ?_, fun i s hl => ?_, fun s hl => ?_⟩
  · obtain ⟨t, n, b, so, v, ht, htb, hframe⟩ := execSlewTick_on s hl
    have hslew : slewTick s.tb = { s.tb with time := s.tb.time + 1#64, todo := s.tb.todo - 1 } := by
      unfold slewTick
      rw [if_neg (by simp [hs]; omega), if_pos h]
    rw [hslew] at htb
    exact ⟨t, ht, (congrArg Tb.time htb :), (congrArg Tb.todo htb :), hframe⟩
  · obtain ⟨t, n, b, so, v, ht, htb, hframe⟩ := execSlewTick_on s hl
    have hslew : slewTick s.tb = { s.tb with time := s.tb.time - 1#64, todo := s.tb.todo + 1 } := by
      unfold slewTick
      rw [if_neg (by simp [hs]; omega), if_neg (by omega)]
    rw [hslew] at htb
    exact ⟨t, ht, (congrArg Tb.time htb :), (congrArg Tb.todo htb :), hframe⟩
  · obtain ⟨c, hc⟩ := releaseEarly_tb (bbLink (holdoverOver s) 0x42 0 (tbStat (holdoverOver s)) 0#16) (fun _ _ => true)
      0x0800#16
    rw [← holdoverExpiry_eq s] at hc
    exact ⟨_, onLink_eq hl (if_pos hh), (congrArg Tb.holdover hc :), (congrArg Tb.holdExp hc :), (congrArg Tb.time hc :),
      holdoverExpiry_logs s, holdoverExpiry_frame s⟩
  · exact onLink_eq hl (if_neg (by simp [hh]))
  · have hone := catchAll_one s k (catchDue_iff.mpr ⟨i, hk, hi⟩)
    have hsnap := snapOrNot_frame s.tb.crews[k].snap (catchCrew s k)
    obtain ⟨v, hv⟩ := catchCrew_tb s k
    have htb := (hsnap .tb (by decide)).trans hv
    refine ⟨_, onLink_eq hl hone, fun j => ?_, fun n x c hx hc => ?_, (congrArg Tb.crews htb :), (congrArg Tb.time htb :),
      fun h => ?_, ((releaseCues_frame s _ true).seq (tb_frame _ _) (rs := catchParts)).seq hsnap⟩
    · exact (congrArg (fun b : Tb => b.catchOn[j]) (hsnap .tb (by decide))).trans (catchCrew_catchOn s k j)
    · have hports := congrArg (fun p : Vector Port 17 => p[n]) (hsnap .ports (by decide))
      have hfree := releaseCues_ports s (fun _ c => c.1 = k && c.2 ≤ now s) true n
      have hheld := freeCues_held (hports.trans hfree ▸ hx) hc
      simpa using hheld
    · rw [if_neg (Bool.eq_false_iff.mp h)]
      exact releaseCues_frame s _ true .mtr (by decide)
  · exact onLink_eq hl (catchAll_none s crews fun k => Bool.eq_false_iff.mpr fun h => by
      obtain ⟨i, hi, hle⟩ := catchDue_iff.mp h
      exact absurd hle (Nat.not_le.mpr (hk k i hi)))
  · refine ⟨_, onLink_on s _ hl, vMod_get_self _ _ _, fun j hj => vMod_get_ne _ _ _ _ hj, rfl, tb_frame s _⟩
  · exact ⟨_, onLink_on s _ hl, rfl, tb_frame s _⟩

end Sys2Proof.Machine
end

section
/-! SUPPORT. What traffic leaves alone: the operations on packets, credits and training sets on their way touch of a
port only its buffers, its credits and what waits to be sent; they put out more and log more, and take nothing back. -/

namespace Sys2Proof.Machine

open Sys2Proof Sys2Proof.Safety

-- One proof after the other: side by side, the proofs of one text wait for each other in too many threads.
set_option Elab.async false

/-! ## The relation -/

/-- A port but for its traffic: packets in its buffers, credits, and what waits to be sent. -/
def standing (p : Port) : Port :=
  { p with
    ptx := 0, ntx := 0, retP := 0, retN := 0, crdP := 0, crdN := 0, dark := false
    tsDue := [], tallyDue := false, tallyWait := 0
    rx := [], rxCur := none, rxSusp := none, txq := [], txCur := none, recs := [] }

/-- A transmitter that was between packets still is, and one that was lit still is. -/
structure StaysFree (p q : Port) : Prop where
  free : p.txCur = none → q.txCur = none
  lit : p.dark = false → q.dark = false

theorem StaysFree.refl (p : Port) : StaysFree p p := ⟨id, id⟩

theorem StaysFree.trans {p q r : Port} (h : StaysFree p q) (g : StaysFree q r) : StaysFree p r :=
  ⟨fun x => g.free (h.free x), fun x => g.lit (h.lit x)⟩

/-- From `s` to `t` only traffic has passed on the ports, beside changes in the parts `ps`: what was put out and what
was logged still stands, and so do the ports' own fields and their holds; and nothing has begun to be sent. -/
structure Passes (ps : List Part) (s t : State) : Prop where
  parts : only ps s t
  ports : ∀ n : PortN, standing t.ports[n] = standing s.ports[n]
  frees : ∀ n : PortN, StaysFree s.ports[n] t.ports[n]
  susp : s.ula.susp = none → t.ula.susp = none
  outs : s.out <:+ t.out
  logs : s.que.bbf <+: t.que.bbf
  holds : t.aon.ports = s.aon.ports

theorem Passes.refl (ps : List Part) (s : State) : Passes ps s s :=
  ⟨only_refl ps s, fun _ => rfl, fun _ => StaysFree.refl _, id, List.suffix_rfl, List.prefix_rfl, rfl⟩

theorem Passes.seq {ps qs rs : List Part} {s t u : State} (h : Passes ps s t) (g : Passes qs t u)
    (hp : ∀ p ∈ ps, p ∈ rs := by decide) (hq : ∀ q ∈ qs, q ∈ rs := by decide) : Passes rs s u :=
  ⟨h.parts.seq g.parts hp hq, fun n => (g.ports n).trans (h.ports n), fun n => (h.frees n).trans (g.frees n),
    fun x => g.susp (h.susp x), h.outs.trans g.outs, h.logs.trans g.logs, g.holds.trans h.holds⟩

theorem Passes.widen {ps qs : List Part} {s t : State} (h : Passes ps s t) (hp : ∀ p ∈ ps, p ∈ qs := by decide) :
    Passes qs s t :=
  ⟨only_mono _ _ _ _ h.parts hp, h.ports, h.frees, h.susp, h.outs, h.logs, h.holds⟩

theorem passes_ite {ps : List Part} (c : Prop) [Decidable c] {s t u : State} (ht : Passes ps s t) (hu : Passes ps s u) :
    Passes ps s (if c then t else u) := by
  split <;> assumption

theorem forEach_passes {α : Type} {ps : List Part} (l : List α) (f : State → α → State) (s : State)
    (h : ∀ a x, Passes ps a (f a x)) : Passes ps s (forEach l f s) := by
  induction l generalizing s with
  | nil => exact Passes.refl ps s
  | cons x l ih => exact (h s x).seq (ih (f s x)) (fun _ h => h) (fun _ h => h)

/-- A change of parts that no traffic shows in. -/
theorem passes_of_only {ps : List Part} {s t : State} (h : only ps s t) (hp : .ports ∉ ps := by decide)
    (ho : .out ∉ ps := by decide) (hq : .que ∉ ps := by decide) (ha : .aon ∉ ps := by decide)
    (hu : .ula ∉ ps := by decide) : Passes ps s t :=
  have h1 : t.ports = s.ports := h .ports hp
  have h2 : t.out = s.out := h .out ho
  have h3 : t.que = s.que := h .que hq
  have h4 : t.aon = s.aon := h .aon ha
  have h5 : t.ula = s.ula := h .ula hu
  ⟨h, fun n => by rw [h1], fun n => by rw [h1]; exact StaysFree.refl _, by rw [h5]; exact id, by rw [h2], by rw [h3],
    by rw [h4]⟩

theorem setUla_passes (s : State) (u : Ula) (h : s.ula.susp = none → u.susp = none) :
    Passes [.ula] s { s with ula := u } :=
  ⟨ula_frame s u, fun _ => rfl, fun _ => StaysFree.refl _, h, List.suffix_rfl, List.prefix_rfl, rfl⟩

/-! ## Elements, outputs, events -/

theorem modPort_passes (s : State) (n : PortN) (f : Port → Port)
    (h : ∀ p, standing (f p) = standing p := by exact fun _ => rfl)
    (hf : ∀ p, StaysFree p (f p) := by intro p; constructor <;> simp) : Passes [.ports] s (modPort s n f) := by
  refine ⟨modPort_only s n f, fun m => ?_, fun m => ?_, id, List.suffix_rfl, List.prefix_rfl, rfl⟩
  all_goals
    by_cases hm : m = n
    · subst hm
      simp only [modPort_self, h, hf]
    · simp only [modPort_ne _ _ _ _ hm, StaysFree.refl]

theorem mapPorts_passes (s : State) (f : Port → Port) (h : ∀ p, standing (f p) = standing p := by exact fun _ => rfl)
    (hf : ∀ p, StaysFree p (f p) := by intro p; constructor <;> simp) :
    Passes [.ports] s { s with ports := s.ports.map f } := by
  have hm : ∀ m : PortN, (s.ports.map f)[m] = f s.ports[m] := fun m => Vector.getElem_map f m.isLt
  refine ⟨ports_frame s _, fun m => ?_, fun m => ?_, id, List.suffix_rfl, List.prefix_rfl, rfl⟩
  · exact (congrArg standing (hm m)).trans (h _)
  · show StaysFree s.ports[m] (s.ports.map f)[m]
    rw [hm]
    exact hf _

theorem emit_passes (s : State) (o : Out) : Passes [.out] s (emit s o) :=
  ⟨emit_only s o, fun _ => rfl, fun _ => StaysFree.refl _, id, List.suffix_cons o s.out, List.prefix_rfl, rfl⟩

theorem emits_passes (s : State) (os : List Out) : Passes [.out] s (emits s os) :=
  ⟨emits_frame s os, fun _ => rfl, fun _ => StaysFree.refl _, id, List.suffix_append _ _, List.prefix_rfl, rfl⟩

theorem bump_passes (s : State) : Passes [] s (bump s) := passes_of_only (bump_frame s)

theorem raiseTo_passes (s : State) (hit : DomN → Bool) (force : Bool) (k : Nat) (e : Ev) :
    Passes evParts s (raiseTo s hit force k e) :=
  ⟨raiseTo_only s hit force k e, fun _ => rfl, fun _ => StaysFree.refl _, id, List.suffix_append _ _,
    (evfOffer_bbf k e s.que) ▸ List.prefix_rfl, rfl⟩

theorem raise_passes (s : State) (e : Ev) : Passes evParts s (raise s e) := by
  unfold raise
  refine passes_ite _ (raiseTo_passes s _ _ _ _) ?_
  unfold xqPush
  refine ⟨(aon_frame s _).widen, fun _ => rfl, fun _ => StaysFree.refl _, id, List.suffix_rfl, List.prefix_rfl, ?_⟩
  dsimp only
  split <;> rfl

theorem bbLink_passes (s : State) (code src : Nat) (w2 w3 : Word) : Passes [.que, .bb] s (bbLink s code src w2 w3) :=
  ⟨bbLink_only s code src w2 w3, fun _ => rfl, fun _ => StaysFree.refl _, id, List.suffix_rfl,
    bbLink_logged s code src w2 w3, rfl⟩

/-! ## Credits and the transmitter (Packet) -/

theorem addCredits_standing (b : Bool) (k : Nat) (p : Port) : standing (addCredits b k p) = standing p := by
  cases b <;> rfl

theorem addCredits_free (b : Bool) (k : Nat) (p : Port) : StaysFree p (addCredits b k p) := by
  cases b
  · exact ⟨id, id⟩
  · exact ⟨id, id⟩

theorem sendCrd_passes (s : State) (n : PortN) : Passes [.ports, .out] s (sendCrd s n) :=
  (modPort_passes s n _).seq (emits_passes _ _)

theorem wakeTx_passes (s : State) (n : PortN) : Passes [.ports, .out] s (wakeTx s n) := by
  unfold wakeTx
  refine passes_ite _ ?_ (Passes.refl _ s)
  exact ((modPort_passes s n _).seq (emit_passes _ _) (rs := [.ports, .out])).seq (sendCrd_passes _ n)

theorem stayLit_passes (s : State) (n : PortN) : Passes [.ports, .out] s (stayLit s n) := by
  unfold stayLit
  exact passes_ite _ (Passes.refl _ s) (wakeTx_passes s n)

theorem returnCredits_passes (s : State) (n : PortN) (nonPer : Bool) (k : Nat) :
    Passes [.ports, .out] s (returnCredits s n nonPer k) := by
  have hmod := modPort_passes s n (fun p => if nonPer then { p with crdN := p.crdN + k } else { p with crdP := p.crdP + k })
    (fun p => by cases nonPer <;> rfl) fun p => by cases nonPer <;> exact ⟨id, id⟩
  unfold returnCredits
  exact passes_ite _ (Passes.refl _ s) (passes_ite _ (hmod.seq (sendCrd_passes _ n))
    (passes_ite _ (hmod.seq (wakeTx_passes _ n)) hmod.widen))

theorem putTsAt_passes (s : State) (n : PortN) (r : Nat) (k : TsKind) (a0 a1 : Word) :
    Passes [.ports, .out] s (putTsAt s n r k a0 a1) :=
  (wakeTx_passes s n).seq (emit_passes _ _)

theorem sendTs_passes (s : State) (n : PortN) (k : TsKind) (a0 a1 : Word) :
    Passes [.ports, .out] s (sendTs s n k a0 a1) := by
  unfold sendTs
  exact passes_ite _ (putTsAt_passes s n _ k a0 a1) (modPort_passes s n _).widen

theorem sendTs2_passes (s : State) (n : PortN) (k : TsKind) (a0 a1 : Word) :
    Passes [.ports, .out] s (sendTs2 s n k a0 a1) :=
  (sendTs_passes s n k a0 a1).seq (sendTs_passes _ n k a0 a1)

theorem flushTs_passes (s : State) (n : PortN) : Passes [.ports, .out] s (flushTs s n) :=
  (modPort_passes s n _).seq (forEach_passes _ _ _ fun a x => putTsAt_passes a n _ x.1 x.2.1 x.2.2)

theorem tallyTry_passes (s : State) (n : PortN) : Passes [.ports, .out] s (tallyTry s n) := by
  unfold tallyTry
  exact passes_ite _ ((modPort_passes s n _).seq (putTsAt_passes _ n _ _ _ _)) (Passes.refl _ s)

theorem wantTally_passes (s : State) (n : PortN) : Passes [.ports, .out] s (wantTally s n) := by
  unfold wantTally
  exact passes_ite _ ((modPort_passes s n _).seq (tallyTry_passes _ n)) (Passes.refl _ s)

theorem boundary_passes (s : State) (n : PortN) : Passes [.ports, .out] s (boundary s n) := by
  unfold boundary
  exact passes_ite _ ((flushTs_passes s n).seq (tallyTry_passes _ n)) (Passes.refl _ s)

/-! ## Copies of a received packet (Packet) -/

theorem sweepRx_passes (s : State) : Passes [.ports, .out] s (sweepRx s) := by
  unfold sweepRx
  exact forEach_passes _ _ s fun a n =>
    ((modPort_passes a n _).seq (returnCredits_passes _ n _ _) (rs := [.ports, .out])).seq
      (returnCredits_passes _ n _ _)

theorem closeEab_passes (s : State) (n : PortN) (reason : Nat) (whole : Bool) :
    Passes [.ports, .ula, .out] s (closeEab s n reason whole) := by
  unfold closeEab
  split
  · exact Passes.refl _ s
  · rename_i t ht
    have hmod := modPort_passes s n (fun p => addCredits (!t.pkt.hdr.pcls)
      (creditsOf t.len - creditsOf (if whole then t.len else min t.len (Config.wordsSent s.fresh)))
      { p with txCur := none }) (fun p => addCredits_standing _ _ _)
      fun p => StaysFree.trans (q := { p with txCur := none }) ⟨fun _ => rfl, id⟩ (addCredits_free _ _ _)
    have hula : ∀ a : State, Passes [.ula] a (if n = 0 then
        { a with ula := { a.ula with arb := { a.ula.arb with holder := none } } } else a) := fun a =>
      passes_ite _ (setUla_passes a _ id) (Passes.refl _ a)
    exact ((hmod.seq (hula _) (rs := [.ports, .ula, .out])).seq (emit_passes _ _) (rs := [.ports, .ula, .out])).seq
      (bump_passes _)

theorem closeSusp_passes (s : State) (reason : Nat) (whole : Bool) :
    Passes [.ports, .ula, .out] s (closeSusp s reason whole) := by
  unfold closeSusp
  split
  · exact Passes.refl _ s
  · exact ((modPort_passes s 0 _ (fun p => addCredits_standing _ _ p) fun p => addCredits_free _ _ p).seq
      (setUla_passes _ _ fun _ => rfl) (rs := [.ports, .ula, .out])).seq (emits_passes _ _)

theorem endTx_passes (s : State) (n : PortN) (reason : Nat) : Passes [.ports, .ula, .out] s (endTx s n reason) := by
  unfold endTx
  exact passes_ite _ ((closeEab_passes s n reason false).seq (closeSusp_passes _ reason false))
    (closeEab_passes s n reason false)

/-- The parts in which packets on their way show. -/
def wayParts : List Part := [.ula, .ports, .tt, .out]

theorem stompCopies_passes (s : State) (pid reason : Nat) (whole : Bool) :
    Passes wayParts s (stompCopies s pid reason whole) := by
  unfold stompCopies
  extract_lets b s0 s1 u s2
  have h0 : Passes wayParts s s0 := (passes_of_only (tt_frame s _)).widen
  have h1 : Passes wayParts s0 s1 := forEach_passes _ _ _ fun a n =>
    passes_ite _ ((closeEab_passes a n reason whole).seq (boundary_passes _ n)) (Passes.refl _ a)
  clear_value s1
  have h2 : Passes wayParts s1 s2 :=
    (mapPorts_passes s1 fun p => { p with txq := p.txq.filter fun t => t.pid != pid }).seq
      (setUla_passes _ _ fun h => by rw [h]; rfl)
  have hall : Passes wayParts s s2 := (h0.seq h1 (rs := wayParts)).seq h2
  exact passes_ite _ (hall.seq ((closeSusp_passes s2 reason whole).seq (boundary_passes _ 0) (rs := wayParts))) hall

theorem spoilRx_passes (s : State) (n : PortN) (pid reason : Nat) : Passes wayParts s (spoilRx s n pid reason) :=
  (stompCopies_passes s pid reason false).seq (modPort_passes _ n _)

theorem dropRx_passes (s : State) (n : PortN) (pid reason : Nat) (whole : Bool) :
    Passes wayParts s (dropRx s n pid reason whole) :=
  ((stompCopies_passes s pid reason whole).seq (modPort_passes _ n _) (rs := wayParts)).seq
    (sweepRx_passes _)

theorem dropAnswer_passes (s : State) (j : Fin 48) : Passes [.ports] s (dropAnswer s j) :=
  mapPorts_passes s _

theorem forgetSlot_passes (s : State) (j : Fin 48) (c : Nat) : Passes [.ports, .ula] s (forgetSlot s j c) :=
  ((dropAnswer_passes s j).seq (mapPorts_passes _ (fun p =>
    { p with txq := p.txq.map (detachSlot j c), txCur := p.txCur.map (detachSlot j c) }))
      (rs := [.ports, .ula])).seq (setUla_passes _ _ fun h => by rw [h]; rfl)

theorem modSlot_passes (s : State) (j : Fin 48) (f : Option Slot → Option Slot) : Passes [.tt] s (modSlot s j f) :=
  passes_of_only (modSlot_frame s j f)

theorem ulaPush_passes (s : State) (r : Nat) (t : TxPkt) : Passes [.ula] s (ulaPush s r t) := by
  unfold ulaPush
  exact passes_ite _ (setUla_passes s _ id) (Passes.refl _ s)

/-! ## The survey's packets (Walk) -/

theorem engineUp_passes (s : State) (p : Pkt) (act : OnEop) : Passes [.ula] s (engineUp s p act) := by
  unfold engineUp
  exact passes_ite _ (ulaPush_passes s 17 _) (Passes.refl _ s)

theorem sendAt_passes (s : State) (m : DnN) (ord : Nat) (p : Pkt) (act : OnEop) :
    Passes [.ports] s (sendAt s m ord p act) := modPort_passes s _ _

theorem sendDown_passes (s : State) (m : DnN) (p : Pkt) (act : OnEop) : Passes [.ports] s (sendDown s m p act) := by
  unfold sendDown
  exact passes_ite _ (sendAt_passes s m _ p act) (Passes.refl _ s)

theorem setWalk_passes (s : State) (w : Walk) : Passes [.sur] s (setWalk s w) := passes_of_only (sur_frame s _)

theorem sendBreak_passes (s : State) (m : DnN) (cause : Nat) : Passes [.ula] s (sendBreak s m cause) :=
  engineUp_passes s _ _

/-- The parts in which the walk of a survey shows. -/
def walkParts : List Part := [.ula, .ports, .sur]

theorem walkFrom_passes (l : List DnN) (s : State) : Passes walkParts s (walkFrom s l) := by
  induction l generalizing s with
  | nil => exact (setWalk_passes s .done).seq (engineUp_passes _ _ _)
  | cons m l ih =>
    unfold walkFrom
    refine passes_ite _ (ih s) ?_
    split
    · exact (setWalk_passes s _).seq (sendDown_passes _ m _ _)
    · exact passes_ite _ ((sendBreak_passes s m 3).seq (ih _)) (setWalk_passes s _).widen

theorem surveyDetach_passes (s : State) (m : DnN) : Passes walkParts s (surveyDetach s m) := by
  unfold surveyDetach
  exact passes_ite _ ((sendBreak_passes s m 2).seq (walkFrom_passes _ _)) (Passes.refl _ s)

/-! ## Outstanding work of a link that is lost (Link) -/

theorem dropOpen_passes (s : State) (n : PortN) (reason : Nat) : Passes wayParts s (dropOpen s n reason) := by
  unfold dropOpen
  split
  · exact (dropRx_passes s n _ reason false).seq (dropRx_passes _ n _ reason false)
  · exact dropRx_passes s n _ reason false
  · exact dropRx_passes s n _ reason false
  · exact (sweepRx_passes s).widen

theorem freeSlot_passes (s : State) (j : Fin 48) : Passes wayParts s (forgetSlot (modSlot s j fun _ => none) j (heldChunks s j)) :=
  (modSlot_passes s j _).seq (forgetSlot_passes _ j _)

theorem settleDown_passes (s : State) (m : DnN) : Passes wayParts s (settleDown s m) := by
  unfold settleDown
  have hgone := forEach_passes (recordGones s m ++ slotGones s m) (fun a t => ulaPush a (ulaOf m) t) s fun a t =>
    ulaPush_passes a _ t
  have hport := hgone.seq (modPort_passes _ (dnPort m) (fun p => { p with recs := [], txq := [] }))
    (rs := wayParts)
  exact (hport.seq (forEach_passes _ _ _ freeSlot_passes) (rs := wayParts)).seq (dropOpen_passes _ _ 3)

theorem settleUp_passes (s : State) : Passes wayParts s (settleUp s) := by
  unfold settleUp freeSlots
  have hfree := forEach_passes (List.finRange 48) _ s freeSlot_passes
  have hmap := (hfree.seq (mapPorts_passes _ (fun p => { p with recs := [] })) (rs := wayParts)).seq
    (setUla_passes _ (ulaEmpty (freeSlots s).ula) fun _ => rfl) (rs := wayParts)
  exact (hmap.seq (modPort_passes _ 0 _) (rs := wayParts)).seq (dropOpen_passes _ 0 3)

theorem setTb_passes (s : State) (b : Tb) : Passes [.tb] s { s with tb := b } := passes_of_only (tb_frame s b)

theorem loseLock_passes (s : State) : Passes lockParts s (loseLock s) := by
  unfold loseLock
  exact passes_ite _ (Passes.refl _ s) (((setTb_passes s _).seq (raise_passes _ _) (rs := lockParts)).seq
    (bbLink_passes _ _ _ _ _))

end Sys2Proof.Machine
end

section
/-! SUPPORT. What the training operations make of one port: link-up and link-down, the states they enter, and the
training sets that go out. -/

namespace Sys2Proof.Machine

open Sys2Proof Sys2Proof.Safety

-- One proof after the other: side by side, the proofs of one text wait for each other in too many threads.
set_option Elab.async false

theorem whenDo_holds {g : Bool} {f : State → State} {s : State} (h : g = true) : whenDo g f s = f s := if_pos h

theorem whenDo_fails {g : Bool} {f : State → State} {s : State} (h : g = false) : whenDo g f s = s :=
  if_neg (Bool.eq_false_iff.mp h)

/-! ## One port turns, the others pass -/

/-- From `s` to `t` port n has become `f` of what it was, but for its traffic; it holds what it held and has begun to
send nothing, and what was put out and logged still stands. -/
structure At (ps : List Part) (n : PortN) (f : Port → Port) (s t : State) : Prop where
  parts : only ps s t
  port : standing t.ports[n] = standing (f s.ports[n])
  frees : StaysFree s.ports[n] t.ports[n]
  susp : s.ula.susp = none → t.ula.susp = none
  outs : s.out <:+ t.out
  logs : s.que.bbf <+: t.que.bbf
  hold : t.aon.ports[n] = s.aon.ports[n]

theorem At.seq {ps qs rs : List Part} {n : PortN} {f g : Port → Port} {s t u : State} (h : At ps n f s t)
    (k : At qs n g t u) (hp : ∀ p ∈ ps, p ∈ rs := by decide) (hq : ∀ q ∈ qs, q ∈ rs := by decide)
    (hg : ∀ p, standing (g p) = standing (g (standing p)) := by exact fun _ => rfl) : At rs n (fun p => g (f p)) s u :=
  ⟨h.parts.seq k.parts hp hq, by rw [k.port, hg, h.port, ← hg], h.frees.trans k.frees, fun x => k.susp (h.susp x),
    h.outs.trans k.outs, h.logs.trans k.logs, k.hold.trans h.hold⟩

theorem At.as {ps : List Part} {n : PortN} {f g : Port → Port} {s t : State} (h : At ps n f s t)
    (hfg : ∀ p, standing (f p) = standing (g p) := by exact fun _ => rfl) : At ps n g s t :=
  { h with port := h.port.trans (hfg _) }

theorem At.widen {ps qs : List Part} {n : PortN} {f : Port → Port} {s t : State} (h : At ps n f s t)
    (hp : ∀ p ∈ ps, p ∈ qs := by decide) : At qs n f s t :=
  { h with parts := only_mono _ _ _ _ h.parts hp }

theorem at_refl (ps : List Part) (n : PortN) (s : State) : At ps n id s s :=
  ⟨only_refl ps s, rfl, StaysFree.refl _, id, List.suffix_rfl, List.prefix_rfl, rfl⟩

theorem at_ite {ps : List Part} {n : PortN} {f : Port → Port} (c : Prop) [Decidable c] {s t u : State}
    (ht : At ps n f s t) (hu : At ps n f s u) : At ps n f s (if c then t else u) := by
  split <;> assumption

theorem Passes.at {ps : List Part} {s t : State} (h : Passes ps s t) (n : PortN) : At ps n id s t :=
  ⟨h.parts, h.ports n, h.frees n, h.susp, h.outs, h.logs, congrArg (fun v : Vector AonPort 17 => v[n]) h.holds⟩

/-- From `s` to `t` port n has become `f` of what it was, and on the other ports only traffic has passed. -/
structure Turns (ps : List Part) (n : PortN) (f : Port → Port) (s t : State) : Prop where
  self : At ps n f s t
  others : ∀ m : PortN, m ≠ n → At ps m id s t

theorem Passes.turns {ps : List Part} {s t : State} (h : Passes ps s t) (n : PortN) : Turns ps n id s t :=
  ⟨h.at n, fun m _ => h.at m⟩

theorem Turns.seq {ps qs rs : List Part} {n : PortN} {f g : Port → Port} {s t u : State} (h : Turns ps n f s t)
    (k : Turns qs n g t u) (hp : ∀ p ∈ ps, p ∈ rs := by decide) (hq : ∀ q ∈ qs, q ∈ rs := by decide)
    (hg : ∀ p, standing (g p) = standing (g (standing p)) := by exact fun _ => rfl) : Turns rs n (fun p => g (f p)) s u :=
  ⟨h.self.seq k.self hp hq hg, fun m hm => (h.others m hm).seq (k.others m hm) hp hq⟩

theorem Turns.pass {ps qs rs : List Part} {n : PortN} {f : Port → Port} {s t u : State} (h : Turns ps n f s t)
    (k : Passes qs t u) (hp : ∀ p ∈ ps, p ∈ rs := by decide) (hq : ∀ q ∈ qs, q ∈ rs := by decide) :
    Turns rs n f s u := h.seq (k.turns n) hp hq

theorem Passes.turn {ps qs rs : List Part} {n : PortN} {g : Port → Port} {s t u : State} (h : Passes ps s t)
    (k : Turns qs n g t u) (hp : ∀ p ∈ ps, p ∈ rs := by decide) (hq : ∀ q ∈ qs, q ∈ rs := by decide)
    (hg : ∀ p, standing (g p) = standing (g (standing p)) := by exact fun _ => rfl) : Turns rs n g s u :=
  (h.turns n).seq k hp hq hg

theorem Turns.as {ps : List Part} {n : PortN} {f g : Port → Port} {s t : State} (h : Turns ps n f s t)
    (hfg : ∀ p, standing (f p) = standing (g p) := by exact fun _ => rfl) : Turns ps n g s t :=
  ⟨h.self.as hfg, h.others⟩

theorem Turns.widen {ps qs : List Part} {n : PortN} {f : Port → Port} {s t : State} (h : Turns ps n f s t)
    (hp : ∀ p ∈ ps, p ∈ qs := by decide) : Turns qs n f s t :=
  ⟨h.self.widen hp, fun m hm => (h.others m hm).widen hp⟩

theorem modPort_turns (s : State) (n : PortN) (f : Port → Port)
    (hf : ∀ p, StaysFree p (f p) := by intro p; constructor <;> simp) : Turns [.ports] n f s (modPort s n f) := by
  have hself := modPort_self s n f
  refine ⟨⟨modPort_only s n f, congrArg standing hself, by rw [hself]; exact hf _, id, List.suffix_rfl, List.prefix_rfl,
    rfl⟩, fun m hm => ?_⟩
  have hother := modPort_ne s n m f hm
  exact ⟨modPort_only s n f, congrArg standing hother, by rw [hother]; exact StaysFree.refl _, id, List.suffix_rfl,
    List.prefix_rfl, rfl⟩

/-- A port that was lit and between packets still is. -/
theorem At.ready {ps : List Part} {n : PortN} {f : Port → Port} {s t : State} (h : At ps n f s t) (hr : txReady s n) :
    txReady t n := by
  obtain ⟨hfree, hlit⟩ := hr
  refine ⟨?_, h.frees.lit hlit⟩
  simp only [txFree, Bool.and_eq_true, Bool.or_eq_true, Option.isNone_iff_eq_none] at hfree ⊢
  exact ⟨h.frees.free hfree.1, hfree.2.imp_right h.susp⟩

/-- An event bit of a port (R67). -/
def withEvt (bits : Word) (p : Port) : Port := { p with evt := p.evt ||| bits }

theorem portEvt_turns (s : State) (n : PortN) (bits : Word) :
    Turns (.ports :: evParts) n (withEvt bits) s (portEvt s n bits) := by
  unfold portEvt
  have hmod := modPort_turns s n (withEvt bits) fun _ => ⟨id, id⟩
  dsimp only
  split
  · exact hmod.widen
  · exact hmod.pass (raise_passes _ _)

@[simp] theorem portEvt_bbf (s : State) (n : PortN) (bits : Word) : (portEvt s n bits).que.bbf = s.que.bbf := by
  unfold portEvt
  dsimp only
  split
  · rfl
  · exact raise_bbf _ _

/-! ## What a port shows of itself -/

/-- PORT_STAT of a port depends on nothing of its traffic. -/
theorem portStat_of_standing {s t : State} {n : PortN} (h : standing t.ports[n] = standing s.ports[n]) :
    portStat t n = portStat s n := by
  have hst : t.ports[n].st = s.ports[n].st := (congrArg Port.st h :)
  have hrate : t.ports[n].rate = s.ports[n].rate := (congrArg Port.rate h :)
  have hdefer : t.ports[n].defer = s.ports[n].defer := (congrArg Port.defer h :)
  have hflood : t.ports[n].flooding = s.ports[n].flooding := (congrArg Port.flooding h :)
  have hp0 : t.ports[n].pcap0 = s.ports[n].pcap0 := (congrArg Port.pcap0 h :)
  have hfrag : t.ports[n].fragSent = s.ports[n].fragSent := (congrArg Port.fragSent h :)
  have hhold : t.ports[n].hold = s.ports[n].hold := (congrArg Port.hold h :)
  simp only [portStat, isUp, fragOn, hst, hrate, hdefer, hflood, hp0, hfrag, hhold]

/-! ## Training sets that go out -/

/-- On a lit port between packets a training set goes out at once. -/
theorem sendTs_ready {s : State} {n : PortN} (h : txReady s n) {k : TsKind} (hk : k ≠ .tally) (a0 a1 : Word) :
    sendTs s n k a0 a1 = emit s (setOut n (txRate s n) k a0 a1) := by
  have hwake : wakeTx s n = s := by
    unfold wakeTx
    rw [if_neg (by rw [h.2]; decide)]
  rw [sendTs, if_pos h.1, putTs, putTsAt, hwake, tsArgs, if_neg hk]
  rfl

theorem sendTs2_ready {s : State} {n : PortN} (h : txReady s n) {k : TsKind} (hk : k ≠ .tally) (a0 a1 : Word) :
    sendTs2 s n k a0 a1 = emit (emit s (setOut n (txRate s n) k a0 a1)) (setOut n (txRate s n) k a0 a1) := by
  have hready : txReady (emit s (setOut n (txRate s n) k a0 a1)) n := h
  rw [sendTs2, sendTs_ready h hk, sendTs_ready hready hk]
  rfl

/-- The port of a transmitter that is lit, with the credits that waited gone out (R182). -/
def woken (p : Port) : Port :=
  if p.dark then
    { p with
      dark := false, crdP := 0, crdN := 0
      retP := (p.retP + p.crdP) % 65536, retN := (p.retN + p.crdN) % 65536 }
  else p

theorem wakeTx_self (s : State) (n : PortN) : (wakeTx s n).ports[n] = woken s.ports[n] := by
  unfold wakeTx woken
  by_cases h : s.ports[n].dark = true
  · rw [if_pos h, if_pos h]
    refine (modPort_self _ n _).trans ?_
    have hlit : (emit (modPort s n fun p => { p with dark := false }) (.idl n (wakeWords s.ports[n]))).ports[n] =
        { s.ports[n] with dark := false } := modPort_self s n _
    rw [hlit]
  · rw [if_neg h, if_neg h]

theorem woken_dark (p : Port) : (woken p).dark = false := by
  unfold woken
  by_cases h : p.dark = true
  · rw [if_pos h]
  · rw [if_neg h]
    exact Bool.eq_false_iff.mpr h

theorem woken_txCur (p : Port) : (woken p).txCur = p.txCur := by
  unfold woken
  split <;> rfl

theorem txFree_of_passes {s t : State} {n : PortN} (hc : t.ports[n].txCur = s.ports[n].txCur) (hu : t.ula = s.ula) :
    txFree t n = txFree s n := by
  rw [txFree, txFree, hc, hu]

theorem txReady_modPort {s : State} {n : PortN} {f : Port → Port} (h : txReady s n)
    (hc : ∀ p, (f p).txCur = p.txCur := by exact fun _ => rfl)
    (hd : ∀ p, (f p).dark = p.dark := by exact fun _ => rfl) : txReady (modPort s n f) n := by
  have hport := modPort_self s n f
  exact ⟨(txFree_of_passes ((congrArg Port.txCur hport).trans (hc _)) rfl).trans h.1,
    (congrArg Port.dark hport).trans ((hd _).trans h.2)⟩

/-- A set that goes out leaves the port lit and between packets. -/
theorem putTs_ready {s : State} {n : PortN} (h : txFree s n = true) (k : TsKind) (a0 a1 : Word) :
    txReady (putTs s n k a0 a1) n := by
  have hport : (putTs s n k a0 a1).ports[n] = woken s.ports[n] := wakeTx_self s n
  have hula : (putTs s n k a0 a1).ula = s.ula := putTs_frame s n k a0 a1 .ula (by decide)
  refine ⟨?_, by rw [hport]; exact woken_dark _⟩
  rw [txFree, hport, woken_txCur, hula]
  exact h

theorem txRate_of_standing {s t : State} {n : PortN} (h : standing t.ports[n] = standing s.ports[n]) :
    txRate t n = txRate s n := by
  have hst : t.ports[n].st = s.ports[n].st := (congrArg Port.st h :)
  have hrate : t.ports[n].rate = s.ports[n].rate := (congrArg Port.rate h :)
  have htry : t.ports[n].tryRate = s.ports[n].tryRate := (congrArg Port.tryRate h :)
  simp only [txRate, hst, hrate, htry]

/-- A set that goes out, as it is put out. -/
theorem putTs_out (s : State) (n : PortN) {k : TsKind} (hk : k ≠ .tally) (a0 a1 : Word) :
    ∃ before, (putTs s n k a0 a1).out = setOut n (txRate s n) k a0 a1 :: (before ++ s.out) := by
  obtain ⟨before, hb⟩ := (wakeTx_passes s n).outs
  refine ⟨before, ?_⟩
  rw [hb, putTs, putTsAt, tsArgs, if_neg hk]
  rfl

/-- Two sets that go out at once, directly after each other. -/
theorem sendTs2_free (s : State) (n : PortN) (h : txFree s n = true) {k : TsKind} (hk : k ≠ .tally) (a0 a1 : Word) :
    ∃ before, (sendTs2 s n k a0 a1).out =
      setOut n (txRate s n) k a0 a1 :: setOut n (txRate s n) k a0 a1 :: (before ++ s.out) := by
  obtain ⟨before, hb⟩ := putTs_out s n hk a0 a1
  have hrate : txRate (putTs s n k a0 a1) n = txRate s n := txRate_of_standing ((putTsAt_passes s n _ k a0 a1).ports n)
  have hone : sendTs s n k a0 a1 = putTs s n k a0 a1 := if_pos h
  refine ⟨before, ?_⟩
  rw [sendTs2, hone, sendTs_ready (putTs_ready h k a0 a1) hk, hrate, ← hb]
  rfl

/-- Everything that port n was sending has ended. -/
theorem closeEab_txCur (s : State) (n : PortN) (reason : Nat) (whole : Bool) :
    (closeEab s n reason whole).ports[n].txCur = none ∧ (closeEab s n reason whole).ula.susp = s.ula.susp := by
  have hcredit : ∀ (b : Bool) (k : Nat) (p : Port), (addCredits b k p).txCur = p.txCur := fun b k p => by
    cases b <;> rfl
  have hports : ∀ a : State, (if n = 0 then
      { a with ula := { a.ula with arb := { a.ula.arb with holder := none } } } else a).ports = a.ports := fun a => by
    split <;> rfl
  have hsusp : ∀ a : State, (if n = 0 then
      { a with ula := { a.ula with arb := { a.ula.arb with holder := none } } } else a).ula.susp = a.ula.susp := fun a => by
    split <;> rfl
  unfold closeEab
  split
  · exact ⟨‹_›, rfl⟩
  · exact ⟨(congrArg (fun p : Vector Port 17 => p[n].txCur) (hports _)).trans
      ((congrArg Port.txCur (modPort_self s n _)).trans (hcredit _ _ _)), hsusp _⟩

theorem closeSusp_susp (s : State) (reason : Nat) (whole : Bool) : (closeSusp s reason whole).ula.susp = none ∧
    (closeSusp s reason whole).ports[(0 : PortN)].txCur = s.ports[(0 : PortN)].txCur := by
  have hcredit : ∀ (b : Bool) (k : Nat) (p : Port), (addCredits b k p).txCur = p.txCur := fun b k p => by
    cases b <;> rfl
  unfold closeSusp
  split
  · exact ⟨‹_›, rfl⟩
  · exact ⟨rfl, (congrArg Port.txCur (modPort_self s 0 _)).trans (hcredit _ _ _)⟩

theorem endTx_free (s : State) (n : PortN) (reason : Nat) : txFree (endTx s n reason) n = true := by
  obtain ⟨hcur, -⟩ := closeEab_txCur s n reason false
  unfold endTx
  by_cases hn : n = 0
  · subst hn
    obtain ⟨hsusp, hkept⟩ := closeSusp_susp (closeEab s 0 reason false) reason false
    rw [if_pos rfl, txFree, hkept, hcur, hsusp]
    rfl
  · rw [if_neg hn, txFree, hcur]
    simp [hn]

end Sys2Proof.Machine
end

section
/-! SUPPORT. Links that come up and go down, and the states that a port enters (R67, R71, R72, R169). -/

namespace Sys2Proof.Machine

open Sys2Proof Sys2Proof.Safety

-- One proof after the other: side by side, the proofs of one text wait for each other in too many threads.
set_option Elab.async false

/-! ## Link-down (R71, R124, R125) -/

/-- A port without its link: no rate, no credits, nothing that waits to be sent (R71). -/
def unlinked (p : Port) : Port :=
  { p with rate := 0, ptx := 0, ntx := 0, dark := false, tallyDue := false, tsDue := [], crdP := 0, crdN := 0 }

/-- The end of a survey sweep that a link-down of UP is. -/
def sweepEnded (x : Sur) : Sur := { x with sweep := none, walk := .idle, ended := true, probe := 0 }

/-- What a link-down settles of the port's work, by the side it is on (R124, R125). -/
def settleWork (n : PortN) (s3 : State) : State :=
  if h : n.val = 0 then loseLock { settleUp s3 with sur := sweepEnded s3.sur }
  else settleDown s3 ⟨n.val - 1, by omega⟩

/-- What a link-down settles once it has been logged. -/
def settleLink (n : PortN) (s2 : State) : State := portEvt (settleWork n (modPort s2 n unlinked)) n 0x0002#16

theorem linkDown_eq (s : State) (n : PortN) (reason : Nat) : linkDown s n reason =
    settleLink n (bbLink (endTx s n 3) 0x31 n.val (w16 reason) (portStat (endTx s n 3) n)) := rfl

/-- The parts in which a link-down shows. -/
def downParts : List Part := [.bb, .aon, .doms, .ula, .que, .ports, .tt, .tb, .sur, .out]

/-- A port whose link has gone down (R71). -/
def downPort (p : Port) : Port := withEvt 0x0002#16 { p with rate := 0 }

theorem settleWork_passes (n : PortN) (s : State) : Passes downParts s (settleWork n s) := by
  unfold settleWork
  split
  · have hsur : Passes [.sur] (settleUp s) { settleUp s with sur := sweepEnded s.sur } :=
      passes_of_only (sur_frame (settleUp s) (sweepEnded s.sur))
    exact ((settleUp_passes s).seq hsur (rs := downParts)).seq (loseLock_passes _)
  · exact (settleDown_passes s _).widen

theorem settleLink_turns (n : PortN) (s : State) : Turns downParts n downPort s (settleLink n s) :=
  (((modPort_turns s n unlinked fun _ => ⟨id, fun _ => rfl⟩).pass (settleWork_passes n _) (rs := downParts)).seq (portEvt_turns _ n 0x0002#16)
    (rs := downParts)).as

theorem linkDown_turns (s : State) (n : PortN) (reason : Nat) : Turns downParts n downPort s (linkDown s n reason) := by
  rw [linkDown_eq]
  exact ((endTx_passes s n 3).seq (bbLink_passes _ _ _ _ _) (rs := downParts)).turn (settleLink_turns n _)

theorem linkDown_logged (s : State) (n : PortN) (reason : Nat) :
    downLogged s (linkDown s n reason) n (w16 reason) 0 := by
  intro hroom
  have hend := endTx_passes s n 3
  have hque : (endTx s n 3).que = s.que := hend.parts .que (by decide)
  have hnow : now (endTx s n 3) = now s := congrArg (fun b : Tb => b.time.toNat) (hend.parts .tb (by decide))
  rw [linkDown_eq, portStat_of_standing (hend.ports n), ← hnow]
  exact (settleLink_turns n _).self.logs.subset (bbLink_mem _ _ _ _ _ (by rw [hque]; exact hroom))

/-! ## The states that a port enters (R67, R169) -/

theorem detectNow_turns (s : State) (n : PortN) (wait : Bool) :
    Turns [.pps, .ula, .ports, .sur] n (portDetect wait) s (detectNow s n wait) := by
  have hmod := modPort_turns s n (portDetect wait) fun _ => ⟨id, fun _ => rfl⟩
  unfold detectNow
  dsimp only
  split
  · exact hmod.widen
  · exact (hmod.pass (passes_of_only (modPps_frame _ _ _)) (rs := [.pps, .ports])).pass (surveyDetach_passes _ _)

/-- Without a selective suspend a port holds nothing. -/
theorem suspHold_notSusp {s : State} {n : PortN} (h : notSusp s n) : suspHold s n = s := by
  unfold suspHold
  exact if_neg (by rw [h]; simp)

theorem notSusp_of_hold {s t : State} {m : PortN} (h : t.aon.ports[m] = s.aon.ports[m]) (hs : notSusp s m) :
    notSusp t m := by
  rw [notSusp, h]
  exact hs

theorem toDetect_notSusp {s : State} {n : PortN} (wait : Bool) (h : notSusp s n) :
    toDetect s n wait = detectNow s n wait :=
  suspHold_notSusp (notSusp_of_hold (detectNow_turns s n wait).self.hold h)

/-- A port that enters DETECT with a selective suspend is held at once, and no more than held. -/
theorem suspHold_detect {s : State} {n : PortN} (h : s.ports[n].st = .detect) :
    suspHold s n = s ∨ suspHold s n = holdNow s n := by
  unfold suspHold
  simp only [h]
  split
  · exact .inr rfl
  · exact .inl rfl

theorem detectNow_st (s : State) (n : PortN) (wait : Bool) : (detectNow s n wait).ports[n].st = .detect :=
  (congrArg Port.st (detectNow_turns s n wait).self.port :)

/-- A port enters DETECT, and the hold of its selective suspend where it has one: its SD is what it was. -/
theorem toDetect_rule (s : State) (n : PortN) (wait : Bool) :
    (toDetect s n wait).ports = (detectNow s n wait).ports ∧
      (toDetect s n wait).aon.ports[n].sd = s.aon.ports[n].sd ∧
      only [.pps, .aon, .ula, .ports, .sur] s (toDetect s n wait) := by
  have hturn := detectNow_turns s n wait
  have hsd := congrArg AonPort.sd hturn.self.hold
  rcases suspHold_detect (detectNow_st s n wait) with h | h
  · rw [toDetect, h]
    exact ⟨rfl, hsd, hturn.self.parts.widen⟩
  · rw [toDetect, h]
    exact ⟨rfl, (congrArg AonPort.sd (modAon_self _ n _)).trans hsd, hturn.self.parts.seq (modAon_frame _ n _)⟩

theorem suspHold_frame (s : State) (n : PortN) : only [.pps, .aon, .ula, .ports, .sur] s (suspHold s n) := by
  unfold suspHold
  exact only_ite _ ((only_ite _ (only_refl [.pps, .ula, .ports, .sur] s) (detectNow_turns s n false).self.parts).seq
    (modAon_frame _ n _)) (only_refl _ s)

/-! ## Retrains (R72, R73) -/

/-- A port that a retrain has taken to ALIGN. -/
def retrained (p : Port) : Port := portAlign (downPort p)

/-- What a retrain sends first: EAB, and two TS_DOWN. -/
def retrainSent (s : State) (n : PortN) (reason : Nat) : State :=
  sendTs2 (modPort (endTx s n 3) n fun p => { p with tsDue := [] }) n .down (w16 s.ports[n].rate) (w16 reason)

theorem retrainSent_passes (s : State) (n : PortN) (reason : Nat) :
    Passes [.ula, .ports, .out] s (retrainSent s n reason) :=
  ((endTx_passes s n 3).seq (modPort_passes _ n fun p => { p with tsDue := [] }) (rs := [.ula, .ports, .out])).seq
    (sendTs2_passes _ n _ _ _)

theorem retrain_eq {s : State} {n : PortN} (h : notSusp s n) (reason : Nat) :
    retrain s n reason = modPort (linkDown (retrainSent s n reason) n reason) n portAlign := by
  have hdown := (linkDown_turns (retrainSent s n reason) n reason).seq (modPort_turns _ n portAlign fun _ => ⟨id, id⟩) (rs := downParts)
  exact suspHold_notSusp (notSusp_of_hold (hdown.self.hold.trans ((retrainSent_passes s n reason).at n).hold) h)

/-- A retrain takes the port to ALIGN, after two TS_DOWN with the rate and the reason, and logs both (R72). -/
theorem retrain_turns {s : State} {n : PortN} (h : notSusp s n) (reason : Nat) :
    Turns downParts n retrained s (retrain s n reason) := by
  rw [retrain_eq h]
  exact ((retrainSent_passes s n reason).turn (linkDown_turns _ n reason) (rs := downParts)).seq
    (modPort_turns _ n portAlign fun _ => ⟨id, id⟩)

theorem retrain_logged {s : State} {n : PortN} (h : notSusp s n) (reason : Nat) :
    downLogged s (retrain s n reason) n (w16 reason) 0 := by
  intro hroom
  have hsent := retrainSent_passes s n reason
  have hque : (retrainSent s n reason).que = s.que := hsent.parts .que (by decide)
  have hnow : now (retrainSent s n reason) = now s :=
    congrArg (fun b : Tb => b.time.toNat) (hsent.parts .tb (by decide))
  have hdown := linkDown_logged (retrainSent s n reason) n reason (by rw [hque]; exact hroom)
  rw [retrain_eq h, ← portStat_of_standing (hsent.ports n), ← hnow]
  exact hdown

theorem sentTwice_later {s t u : State} {x : Out} (h : sentTwice s t x) (g : t.out <:+ u.out) : sentTwice s u x := by
  obtain ⟨later, before, ht⟩ := h
  obtain ⟨more, hu⟩ := g
  exact ⟨more ++ later, before, by rw [← hu, ht, List.append_assoc]⟩

theorem sentTwice_after {s t u : State} {x : Out} (h : s.out <:+ t.out) (g : sentTwice t u x) : sentTwice s u x := by
  obtain ⟨later, before, hu⟩ := g
  obtain ⟨more, ht⟩ := h
  exact ⟨later, before ++ more, by rw [hu, ← ht, List.append_assoc]⟩

theorem sendTs2_twice {s : State} {n : PortN} (h : txFree s n = true) {k : TsKind} (hk : k ≠ .tally) (a0 a1 : Word) :
    sentTwice s (sendTs2 s n k a0 a1) (setOut n (txRate s n) k a0 a1) := by
  obtain ⟨before, hb⟩ := sendTs2_free s n h hk a0 a1
  exact ⟨[], before, hb⟩

theorem retrain_sends {s : State} {n : PortN} (h : notSusp s n) (reason : Nat) :
    sentTwice s (retrain s n reason) (setOut n (txRate s n) .down (w16 s.ports[n].rate) (w16 reason)) := by
  have hended := (endTx_passes s n 3).seq (modPort_passes _ n fun p => { p with tsDue := [] }) (rs := [.ula, .ports, .out])
  have hfree : txFree (modPort (endTx s n 3) n fun p => { p with tsDue := [] }) n = true := by
    rw [← endTx_free s n 3]
    have hcur := congrArg Port.txCur (modPort_self (endTx s n 3) n fun p => { p with tsDue := [] })
    exact txFree_of_passes hcur rfl
  have hsent := sendTs2_twice hfree (k := .down) (by decide) (w16 s.ports[n].rate) (w16 reason)
  rw [txRate_of_standing (hended.ports n)] at hsent
  have hrest := (linkDown_turns (retrainSent s n reason) n reason).seq (modPort_turns _ n portAlign fun _ => ⟨id, id⟩) (rs := downParts)
  rw [retrain_eq h]
  exact sentTwice_later (sentTwice_after hended.outs hsent) hrest.self.outs

/-! ## Link-up (R71) -/

theorem countAttach_passes (s : State) (n : PortN) : Passes [.cen] s (countAttach s n) := by
  unfold countAttach
  split
  · exact Passes.refl _ s
  · exact passes_ite _ (passes_of_only (cen_frame s _)) (Passes.refl _ s)

theorem upFresh_passes (s : State) : Passes [.sur, .tb] s (upFresh s) :=
  passes_of_only fun p hp => by cases p <;> first | rfl | exact absurd (by decide) hp

/-- The parts in which a link-up shows. -/
def upParts : List Part := [.bb, .aon, .doms, .que, .ports, .tb, .cen, .sur, .out]

/-- The state of a link by its rate: PADDLE for code 1, ACTIVE above (R71). -/
def upSt (r : Nat) : TrSt := if r = 1 then .paddle else .active

theorem linkUp_turns (s : State) (n : PortN) (r : Nat) : ∃ bits,
    Turns upParts n (fun p => withEvt bits (portUp (upSt r) r p)) s (linkUp s n r) := by
  refine ⟨if s.ports[n].lastRate.any (fun x => x != r) then 0x0005#16 else 0x0001#16, ?_⟩
  have hport := (countAttach_passes s n).turn (modPort_turns _ n (portUp (upSt r) r) fun _ => ⟨id, fun _ => rfl⟩) (rs := upParts)
  have hfresh : Passes upParts (modPort (countAttach s n) n (portUp (upSt r) r))
      (if n = 0 then upFresh (modPort (countAttach s n) n (portUp (upSt r) r))
       else modPort (countAttach s n) n (portUp (upSt r) r)) :=
    passes_ite _ (upFresh_passes _).widen (Passes.refl _ _)
  exact ((hport.pass hfresh (rs := upParts)).pass (bbLink_passes _ _ _ _ _) (rs := upParts)).seq (portEvt_turns _ n _)

end Sys2Proof.Machine
end

section
/-! PROOF. DETECT, reserve and ALIGN (O24), and training sets that fail their check or come within a packet (O25). -/

namespace Sys2Proof.Machine

open Sys2Proof Sys2Proof.Safety

-- One proof after the other: side by side, the proofs of one text wait for each other in too many threads.
set_option Elab.async false

/-! ## SD -/

theorem noteSd_sd (n : PortN) (b : Bool) (s : State) : (noteSd n b s).aon.ports[n].sd = b := by
  unfold noteSd
  exact congrArg AonPort.sd (modAon_self s n _)

theorem notSusp_noteSd {s : State} {n : PortN} (b : Bool) (h : notSusp s n) : notSusp (noteSd n b s) n := by
  unfold noteSd notSusp
  rw [modAon_self]
  exact h

theorem mayLeaveDetect_noteSd (n : PortN) (b : Bool) (s : State) :
    mayLeaveDetect (noteSd n b s) n = mayLeaveDetect s n := by
  have hport := modAon_self s n fun a => { a with sd := b, sdFell := a.sdFell || (!b && a.hold != .none) }
  unfold mayLeaveDetect noteSd
  rw [hport]
  rfl

/-- Row SD_QUALIFIED while the Link die runs. -/
theorem execSdQualified_on {n : PortN} {s : State} (hl : linkOn s = true) (h : mayLeaveDetect s n = true) :
    exec (.sdQualified n) s = .next (modPort (noteSd n true s) n portAlign) := by
  show onPower s _ = _
  rw [onPower_on s _ (powerOn_of_linkOn s hl), whenDo, if_pos hl, sdQualified,
    if_pos (by rw [mayLeaveDetect_noteSd]; exact h)]

/-- Row SIGNAL_LOSS while the Link die runs. -/
theorem execSignalLoss_on {x : SdLoss} {s : State} (hl : linkOn s = true) :
    exec (.signalLoss x) s = .next (sdLost (noteSd x.port false s) x.port x.fldHigh) := by
  show onPower s _ = _
  rw [onPower_on s _ (powerOn_of_linkOn s hl), whenDo, if_pos hl]

/-- Row SIGNAL_LOSS on a port outside a flood. -/
theorem execSignalLoss_dry {n : PortN} {fld : Bool} {s : State} (hl : linkOn s = true)
    (hf : s.ports[n].flooding = false) : ∃ f : Port → Bool, exec (.signalLoss ⟨n, fld⟩) s =
      .next (signalLost (modPort (noteSd n false s) n fun p => { p with fld := f p }) n) := by
  refine ⟨fun p => p.optical && fld, ?_⟩
  rw [execSignalLoss_on hl, sdLost, if_neg]
  show ¬ (s.ports[n].flooding && s.ports[n].optical && fld) = true
  rw [hf]
  simp

theorem signalLost_training {s : State} {n : PortN}
    (h : s.ports[n].st ∈ [.align, .caps, .switch, .ralign, .trial, .failed]) : signalLost s n = toDetect s n false := by
  unfold signalLost
  rcases hst : s.ports[n].st <;> simp_all

theorem signalLost_up {s : State} {n : PortN} (h : s.ports[n].st ∈ [.paddle, .active]) :
    signalLost s n = toDetect (linkDown s n 0) n false := by
  unfold signalLost
  rcases hst : s.ports[n].st <;> simp_all


/-! ## ALIGN and CAPS -/

theorem aligned_fresh {s : State} {n : PortN} (h : s.ports[n].st = .align) (hf : s.ports[n].fromTrial = false) :
    aligned s n = enterCaps s n := by
  simp [aligned, h, hf, -Fin.getElem_fin]

theorem aligned_elsewhere {s : State} {n : PortN} (h : s.ports[n].st ≠ .align) : aligned s n = s := by
  simp [aligned, h, -Fin.getElem_fin]

/-- CAPS is entered with two TS_CAP at Paddle (R67). -/
theorem enterCaps_ready {s : State} {n : PortN} (h : txReady s n) :
    enterCaps s n = emit (emit (modPort s n fun p => { p with st := .caps, fragSent := p.fragEn })
      (setOut n 1 .cap (portCap0 s n) (portCap1 s))) (setOut n 1 .cap (portCap0 s n) (portCap1 s)) := by
  have hport := modPort_self s n fun p => { p with st := .caps, fragSent := p.fragEn }
  have hrate : txRate (modPort s n fun p => { p with st := .caps, fragSent := p.fragEn }) n = 1 := by
    rw [txRate, hport]
  rw [enterCaps, sendTs2_ready (txReady_modPort h) (by decide), hrate]

/-- A training failure: DETECT held for 16 ms, and TFAIL (R67). -/
theorem trainFail_turns {s : State} {n : PortN} (h : notSusp s n) :
    Turns [.pps, .aon, .doms, .ula, .que, .ports, .sur, .out] n (fun p => withEvt 0x0008#16 (portDetect true p)) s
      (trainFail s n) := by
  rw [trainFail, toDetect_notSusp true h]
  exact (detectNow_turns s n true).seq (portEvt_turns _ n _)

/-- Settles O24: it holds. Each row enters one state of the training machine, by the rule of `detectNow`, `linkDown` or
`enterCaps`. -/
theorem detectAndAlign : Obligations.DetectAndAlign := by
  unfold Obligations.DetectAndAlign
  refine ⟨fun n s hl h => ?_, fun n s hp hl => ?_, fun n fld s hl hf hs hst => ?_, fun n fld s hl hf hst => ?_,
    fun n s hl hf ho => ?_, fun n s hl => ?_, fun n s hl hf hst htr hr => ?_, fun n s hl hst => ?_,
    fun n s hl hs hst => ?_, fun n s hl hs hst => ?_⟩
  · refine ⟨_, execSdQualified_on hl h, modPort_self (noteSd n true s) n portAlign, portsBut_modPort (noteSd n true s) n _,
      noteSd_sd n true s, (modAon_frame s n _).seq (modPort_only _ n _)⟩
  · refine ⟨noteSd n true s, ?_, noteSd_sd n true s, modAon_frame s n _⟩
    show onPower s _ = _
    rw [onPower_on s _ hp, whenDo_fails hl]
  · obtain ⟨f, hrun⟩ := execSignalLoss_dry (fld := fld) hl hf
    have hmod := modPort_turns (noteSd n false s) n fun p => { p with fld := f p }
    have hport := modPort_self (noteSd n false s) n fun p => { p with fld := f p }
    have ht := hmod.seq (detectNow_turns _ n false) (rs := [.pps, .ula, .ports, .sur])
    rw [signalLost_training (by rw [hport]; exact hst),
      toDetect_notSusp false (notSusp_of_hold hmod.self.hold (notSusp_noteSd false hs))] at hrun
    exact ⟨_, hrun, (congrArg Port.st ht.self.port :), (congrArg Port.rate ht.self.port :), (congrArg Port.cap ht.self.port :),
      (congrArg Port.wait16 ht.self.port :), (congrArg AonPort.sd ht.self.hold).trans (noteSd_sd n false s),
      (modAon_frame s n _).seq ht.self.parts⟩
  · obtain ⟨f, hrun⟩ := execSignalLoss_dry (fld := fld) hl hf
    have hport := modPort_self (noteSd n false s) n fun p => { p with fld := f p }
    have hmod := modPort_turns (noteSd n false s) n fun p => { p with fld := f p }
    have hdown := hmod.seq (linkDown_turns _ n 0) (rs := downParts)
    have ht := hdown.seq (detectNow_turns _ n false) (rs := .pps :: downParts)
    obtain ⟨hports, hsd, hframe⟩ := toDetect_rule (linkDown (modPort (noteSd n false s) n fun p => { p with fld := f p }) n 0)
      n false
    have hat := (congrArg (fun v : Vector Port 17 => standing v[n]) hports).trans ht.self.port
    rw [signalLost_up (by rw [hport]; exact hst)] at hrun
    exact ⟨_, hrun, (congrArg Port.st hat :), (congrArg Port.rate hat :), (congrArg Port.evt hat :),
      hsd.trans ((congrArg AonPort.sd hdown.self.hold).trans (noteSd_sd n false s)),
      ((modAon_frame s n _).seq hdown.self.parts (rs := downParts)).seq hframe⟩
  · have hlost : sdLost (noteSd n false s) n true =
        modPort (noteSd n false s) n fun p => { p with fld := p.optical && true } :=
      if_pos (by
        show (s.ports[n].flooding && s.ports[n].optical && true) = true
        rw [hf, ho]
        rfl)
    have hport := modPort_self (noteSd n false s) n fun p => { p with fld := p.optical && true }
    refine ⟨_, (execSignalLoss_on hl).trans (congrArg Host.Outcome.next hlost), ?_, portsBut_modPort (noteSd n false s) n _,
      (modAon_frame s n _).seq (modPort_only _ n _)⟩
    rw [hport]
    show ({ s.ports[n] with fld := s.ports[n].optical && true } : Port) = _
    rw [ho]
    rfl
  · exact ⟨_, onLink_on s _ hl, modPort_self s n _, portsBut_modPort s n _, modPort_only s n _⟩
  · have hrun := (aligned_fresh hst htr).trans (enterCaps_ready hr)
    refine ⟨_, onLink_eq hl (onRx_quiet hf hrun), congrArg Port.st (modPort_self s n _), portsBut_modPort s n _, rfl, ?_⟩
    exact ((modPort_only s n _).seq (emit_only _ _) (rs := [.ports, .out])).seq (emit_only _ _)
  · refine ⟨onLink_eq hl ?_, onLink_eq hl (whenDo_fails (by simpa using hst))⟩
    cases hf : s.ports[n].flooding
    · exact onRx_quiet hf (aligned_elsewhere hst)
    · exact onRx_flooded hf
  · have ht := trainFail_turns hs
    exact ⟨_, onLink_eq hl (whenDo_holds (by simpa using hst)), (congrArg Port.st ht.self.port :), (congrArg Port.wait16 ht.self.port :),
      (congrArg Port.evt ht.self.port :), ht.self.parts⟩
  · have ht := trainFail_turns hs
    exact ⟨_, onLink_eq hl (whenDo_holds (by simpa using hst)), (congrArg Port.st ht.self.port :), (congrArg Port.wait16 ht.self.port :),
      (congrArg Port.evt ht.self.port :), ht.self.parts⟩


/-! ## Training sets that mean nothing (R55, R62) -/

theorem onTs_bad {n : PortN} {k : TsKind} {a0 a1 chk : Word} {s : State} (f : State → State)
    (hf : s.ports[n].flooding = false) (h : chk ≠ trainCheck (tsCode k) a0 a1 ∨ tsMisplaced s.ports[n] = true) :
    onTs n k a0 a1 chk f s = countCode s n := by
  refine onRx_quiet hf (if_neg ?_)
  rcases h with h | h
  · simp [Ne.symm h]
  · simp only [h, Bool.not_true, Bool.and_false, Bool.false_eq_true, not_false_eq_true]

theorem onTs_flooded {n : PortN} {k : TsKind} {a0 a1 chk : Word} {s : State} (f : State → State)
    (hf : s.ports[n].flooding = true) : onTs n k a0 a1 chk f s = s := onRx_flooded hf

/-- A training set that comes as it should. -/
theorem onTs_good {n : PortN} {k : TsKind} {a0 a1 chk : Word} {s t : State} {f : State → State}
    (h : setComes s n k a0 a1 chk) (ht : f s = t) : onTs n k a0 a1 chk f s = t := by
  obtain ⟨-, hf, hm, hc⟩ := h
  refine onRx_quiet hf ((if_pos ?_).trans ht)
  rw [hm, hc]
  simp

/-- What the row of any training set does with one that fails its check, stands inside a packet, or is flooded. -/
theorem onTs_means_nothing {n : PortN} (k : TsKind) {a0 a1 chk : Word} {s : State} (f : State → State) {o : Outcome}
    (hl : linkOn s = true) (ho : o = onLink s (onTs n k a0 a1 chk f)) :
    (s.ports[n].flooding = true → o = .next s) ∧
    (s.ports[n].flooding = false → (chk ≠ trainCheck (tsCode k) a0 a1 ∨ tsMisplaced s.ports[n] = true) →
      ∃ t, o = .next t ∧ t.ports[n] = { s.ports[n] with codeErr := satInc 65535 s.ports[n].codeErr } ∧ portsBut n s t ∧
        only [.ports] s t) :=
  ⟨fun hf => ho.trans (onLink_eq hl (onTs_flooded f hf)), fun hf h => ⟨_, ho.trans (onLink_eq hl (onTs_bad f hf h)),
    modPort_self s n _, portsBut_modPort s n _, modPort_only s n _⟩⟩

/-- Settles O25: it holds. Every row of a training set is `onTs`, which looks at flood, place and check word before
the set's own meaning. -/
theorem badTrainingSets : Obligations.BadTrainingSets := by
  unfold Obligations.BadTrainingSets
  intro n clean a0 a1 chk s hl x hx
  simp only [List.mem_cons, List.not_mem_nil, or_false] at hx
  rcases hx with rfl | rfl | rfl | rfl | rfl | rfl | rfl | rfl | rfl | rfl
  · exact onTs_means_nothing .cap _ hl rfl
  · exact onTs_means_nothing .ack _ hl rfl
  · exact onTs_means_nothing .trial _ hl rfl
  · exact onTs_means_nothing .ready _ hl rfl
  · exact onTs_means_nothing .result _ hl rfl
  · exact onTs_means_nothing .go _ hl rfl
  · exact onTs_means_nothing .down _ hl rfl
  · exact onTs_means_nothing .dis _ hl rfl
  · exact onTs_means_nothing .tallyReq _ hl rfl
  · exact onTs_means_nothing .tally _ hl rfl

end Sys2Proof.Machine
end

section
/-! SUPPORT. How a port chooses its rate, and what the power budget's decisions, which may retrain other ports, leave of it (R66, R68, R294, R296). -/

namespace Sys2Proof.Machine

open Sys2Proof Sys2Proof.Safety

-- One proof after the other: side by side, the proofs of one text wait for each other in too many threads.
set_option Elab.async false

/-! ## The choice of a rate (R68) -/

/-- What the choice of a rate reads of a port. -/
def choice (p : Port) : Word × Bool × Nat × Nat × Bool × List Nat :=
  (p.pcap0, p.optical, p.maxRate, p.cap, p.fragEn, p.tried)

theorem commonRates_of {p q : Port} (h : choice p = choice q) : commonRates p = commonRates q := by
  simp only [choice, Prod.mk.injEq] at h
  obtain ⟨h1, h2, -⟩ := h
  have hmax : mediaMax p = mediaMax q := by simp only [mediaMax, h1, h2]
  rw [commonRates, hmax, h1, commonRates]

theorem portCap0_of {s t : State} {n : PortN} (hp : choice t.ports[n] = choice s.ports[n]) (hc : t.clk = s.clk)
    (hg : t.glob = s.glob) : portCap0 t n = portCap0 s n := by
  simp only [choice, Prod.mk.injEq] at hp
  obtain ⟨-, h2, h3, -, h5, -⟩ := hp
  simp only [portCap0, hc, hg, h2, h3, h5]

theorem candidates_of {s t : State} {n : PortN} (hp : choice t.ports[n] = choice s.ports[n]) (hc : t.clk = s.clk)
    (hg : t.glob = s.glob) : candidates t n = candidates s n := by
  have hmax : t.ports[n].maxRate = s.ports[n].maxRate := congrArg (fun x => x.2.2.1) hp
  have hcap : t.ports[n].cap = s.ports[n].cap := congrArg (fun x => x.2.2.2.1) hp
  rw [candidates, commonRates_of hp, portCap0_of hp hc hg, hmax, hcap, candidates]

theorem grantOk_of {s t : State} {n : PortN} (hp : t.pps = s.pps) (hg : t.ppsg = s.ppsg) : grantOk t n = grantOk s n := by
  simp only [grantOk, classOk, switched, hp, hg]

theorem nextTrial_of {s t : State} {n : PortN} (hp : choice t.ports[n] = choice s.ports[n]) (hc : t.clk = s.clk)
    (hg : t.glob = s.glob) (hgr : grantOk t n = grantOk s n) : nextTrial t n = nextTrial s n := by
  have htried : t.ports[n].tried = s.ports[n].tried := congrArg (fun x => x.2.2.2.2.2) hp
  simp only [nextTrial, candidates_of hp hc hg, hgr, hc, hg, htried]

theorem holdReason_of {s t : State} {n : PortN} (hp : choice t.ports[n] = choice s.ports[n]) (hc : t.clk = s.clk)
    (hg : t.glob = s.glob) (hgr : grantOk t n = grantOk s n) : holdReason t n = holdReason s n := by
  rw [holdReason, candidates_of hp hc hg, commonRates_of hp, hgr, hc, hg, holdReason]

/-- A change of a port that leaves what the choice reads. -/
theorem nextTrial_modPort (s : State) (n : PortN) {f : Port → Port}
    (h : ∀ p, choice (f p) = choice p := by exact fun _ => rfl) : nextTrial (modPort s n f) n = nextTrial s n :=
  nextTrial_of ((congrArg choice (modPort_self s n f)).trans (h _)) rfl rfl (grantOk_of rfl rfl)

theorem holdReason_modPort (s : State) (n : PortN) {f : Port → Port}
    (h : ∀ p, choice (f p) = choice p := by exact fun _ => rfl) : holdReason (modPort s n f) n = holdReason s n :=
  holdReason_of ((congrArg choice (modPort_self s n f)).trans (h _)) rfl rfl (grantOk_of rfl rfl)

theorem candidates_modPort (s : State) (n : PortN) {f : Port → Port}
    (h : ∀ p, choice (f p) = choice p := by exact fun _ => rfl) : candidates (modPort s n f) n = candidates s n :=
  candidates_of ((congrArg choice (modPort_self s n f)).trans (h _)) rfl rfl

/-- A rate that the partner's words do not offer is no candidate. -/
theorem candidates_offered {s : State} {n : PortN} {r : Nat} (h : bit s.ports[n].pcap0 (r - 1) = false) :
    (candidates s n).contains r = false := by
  rw [List.contains_eq_mem, decide_eq_false_iff_not]
  intro hr
  have hcommon := List.mem_of_mem_filter hr
  have hoffer := (List.mem_filter.mp hcommon).2
  rw [h] at hoffer
  exact Bool.noConfusion hoffer

/-! ## Starting a trial -/

/-- A port that starts the trial of a rate (R67). -/
def trying (r : Nat) (p : Port) : Port :=
  { p with
    st := .switch, tryRate := r, tried := p.tried ++ [r], setRx := 0, fromTrial := false, myErrs := none
    hisErrs := none, hold := 0, attempts := satInc 15 p.attempts }

theorem startTrial_eq {s : State} {n : PortN} (h : notSusp s n) (r : Nat) :
    startTrial s n r = sendTs2 (modPort s n (trying r)) n .trial (w16 r) 0#16 :=
  suspHold_notSusp (notSusp_of_hold ((sendTs2_passes (modPort s n (trying r)) n .trial (w16 r) 0#16).at n).hold h)

theorem startTrial_turns {s : State} {n : PortN} (h : notSusp s n) (r : Nat) :
    Turns [.ports, .out] n (trying r) s (startTrial s n r) := by
  rw [startTrial_eq h]
  exact (modPort_turns s n (trying r) fun _ => ⟨id, id⟩).pass (sendTs2_passes _ n _ _ _)

theorem startTrial_sends {s : State} {n : PortN} (h : notSusp s n) (hf : txFree s n = true) (r : Nat) :
    sentTwice s (startTrial s n r) (setOut n 1 .trial (w16 r) 0#16) := by
  have hport := modPort_self s n (trying r)
  have hcur : (modPort s n (trying r)).ports[n].txCur = s.ports[n].txCur := (congrArg Port.txCur hport :)
  have hfree : txFree (modPort s n (trying r)) n = true := (txFree_of_passes hcur rfl).trans hf
  have hrate : txRate (modPort s n (trying r)) n = 1 := by
    rw [txRate, hport]
    rfl
  have hsent := sendTs2_twice hfree (k := .trial) (by decide) (w16 r) 0#16
  rw [hrate] at hsent
  rw [startTrial_eq h]
  exact hsent

/-! ## Bystanders -/

/-- Port m stands by: only traffic has passed on it, and its class is decided as it was. -/
structure By (ps : List Part) (m : DnN) (s t : State) : Prop where
  at' : At ps (dnPort m) id s t
  pend : t.pps[m].pend = s.pps[m].pend

theorem by_refl (ps : List Part) (m : DnN) (s : State) : By ps m s s := ⟨at_refl _ _ s, rfl⟩

theorem By.seq {ps qs rs : List Part} {m : DnN} {s t u : State} (h : By ps m s t) (k : By qs m t u)
    (hp : ∀ p ∈ ps, p ∈ rs := by decide) (hq : ∀ q ∈ qs, q ∈ rs := by decide) : By rs m s u :=
  ⟨h.at'.seq k.at' hp hq, k.pend.trans h.pend⟩

theorem by_ite {ps : List Part} {m : DnN} (c : Prop) [Decidable c] {s t u : State} (ht : By ps m s t) (hu : By ps m s u) :
    By ps m s (if c then t else u) := by
  split <;> assumption

theorem Passes.by {ps : List Part} {s t : State} (h : Passes ps s t) (m : DnN) (hp : .pps ∉ ps := by decide) :
    By ps m s t :=
  ⟨h.at _, congrArg (fun v : Vector Pps 16 => v[m].pend) (h.parts .pps hp)⟩

theorem Turns.by {ps : List Part} {n : PortN} {f : Port → Port} {s t : State} (h : Turns ps n f s t) {m : DnN}
    (hn : dnPort m ≠ n) (hp : .pps ∉ ps := by decide) : By ps m s t :=
  ⟨h.others _ hn, congrArg (fun v : Vector Pps 16 => v[m].pend) (h.self.parts .pps hp)⟩

theorem modPps_by (s : State) (j m : DnN) (f : Pps → Pps) (h : ∀ p, (f p).pend = p.pend := by exact fun _ => rfl) :
    By [.pps] m s (modPps s j f) := by
  refine ⟨(passes_of_only (modPps_frame s j f)).at _, ?_⟩
  by_cases hj : m = j
  · subst hj
    rw [modPps_self, h]
  · rw [modPps_ne _ _ _ _ hj]

/-- The parts in which the budget's decisions show. -/
def budgetParts : List Part := [.bb, .pps, .aon, .doms, .ula, .que, .ports, .tt, .tb, .cen, .sur, .out]

theorem detectNow_by (s : State) {n : PortN} (wait : Bool) {m : DnN} (hn : dnPort m ≠ n) :
    By budgetParts m s (detectNow s n wait) := by
  refine ⟨((detectNow_turns s n wait).others _ hn).widen, ?_⟩
  unfold detectNow
  dsimp only
  split
  · rfl
  · refine (congrArg (fun v : Vector Pps 16 => v[m].pend) ((surveyDetach_passes _ _).parts .pps (by decide))).trans ?_
    refine (modPps_by (modPort s n (portDetect wait)) _ m _ fun p => ?_).pend
    unfold settleRsv
    split
    · split <;> rfl
    · rfl

theorem holdNow_by (s : State) {n : PortN} {m : DnN} (hn : dnPort m ≠ n) : By [.aon] m s (holdNow s n) :=
  ⟨⟨modAon_frame s n _, rfl, StaysFree.refl _, id, List.suffix_rfl, List.prefix_rfl, modAon_ne s n _ _ hn⟩, rfl⟩

theorem suspHold_by (s : State) {n : PortN} {m : DnN} (hn : dnPort m ≠ n) : By budgetParts m s (suspHold s n) := by
  unfold suspHold
  refine by_ite _ ?_ (by_refl _ m s)
  exact By.seq (t := if s.ports[n].st = .detect then s else detectNow s n false)
    (by_ite _ (by_refl _ m s) (detectNow_by s false hn)) (holdNow_by _ hn)

theorem startTrial_by (s : State) {n : PortN} (r : Nat) {m : DnN} (hn : dnPort m ≠ n) :
    By budgetParts m s (startTrial s n r) := by
  unfold startTrial
  exact ((((modPort_turns s n _).by hn).seq ((sendTs2_passes _ n _ _ _).by m) (rs := budgetParts))).seq (suspHold_by _ hn)

theorem retrain_by (s : State) {n : PortN} (reason : Nat) {m : DnN} (hn : dnPort m ≠ n) :
    By budgetParts m s (retrain s n reason) := by
  have hsent := (retrainSent_passes s n reason).by m
  have hdown := hsent.seq ((linkDown_turns (retrainSent s n reason) n reason).by hn) (rs := budgetParts)
  exact (hdown.seq ((modPort_turns _ n portAlign fun _ => ⟨id, id⟩).by hn) (rs := budgetParts)).seq (suspHold_by _ hn)

theorem reeval_by (s : State) {n : PortN} {m : DnN} (hn : dnPort m ≠ n) : By budgetParts m s (reeval s n) := by
  have hflush : By budgetParts m s (flushTs (endTx s n 3) n) :=
    ((endTx_passes s n 3).by m).seq ((flushTs_passes _ n).by m)
  unfold reeval
  refine by_ite _ (by_refl _ m s) (by_ite _ ?_ (by_ite _ (by_ite _ (by_refl _ m s)
    (hflush.seq (retrain_by _ 7 hn))) (by_refl _ m s)))
  split
  · exact by_ite _ (((linkDown_turns s n 10).by hn).seq (startTrial_by _ _ hn)) (by_refl _ m s)
  · exact ((modPort_turns s n _).by hn).seq (by_refl [] m _)

/-! ## The budget pass (R296) -/

theorem modLegs_by (s : State) (l m : DnN) (f : Pps → Pps) (h : ∀ p, (f p).pend = p.pend := by exact fun _ => rfl) :
    By [.pps] m s (modLegs s l f) := by
  unfold modLegs
  have hlist : ∀ (xs : List DnN) (a : State), By [.pps] m a
      (forEach xs (fun a x => if s.pps[x].lost && x != l then a else modPps a x f) a) := fun xs => by
    induction xs with
    | nil => exact fun a => by_refl _ m a
    | cons x xs ih => exact fun a => (by_ite _ (by_refl _ m a) (modPps_by a x m f h)).seq (ih _)
  exact hlist _ s

theorem passWait_by (s : State) (j m : DnN) : By [.pps] m s (passWait s j) := by
  have hrsv := modPps_by s j m fun q => { q with rsv := true, due := true }
  unfold passWait
  exact by_ite _ (by_ite _ (hrsv.seq (modLegs_by _ j m _)) hrsv) (by_refl _ m s)

theorem evBudget_passes (s : State) (src : Nat) : Passes evParts s (evBudget s src) := raise_passes s _

theorem passPend_by (s : State) (j m : DnN) (h : s.pps[m].pend = false) : By budgetParts m s (passPend s j) := by
  by_cases hj : j = m
  · subst hj
    unfold passPend
    rw [if_neg (by rw [h]; decide)]
    exact by_refl _ j s
  · have hport : dnPort m ≠ dnPort j := fun hp => hj (dnPort_inj hp).symm
    have hpps : ∀ f : Pps → Pps, By [.pps] m s (modPps s j f) := fun f =>
      ⟨(passes_of_only (modPps_frame s j f)).at _, by rw [modPps_ne _ _ _ _ (Ne.symm hj)]⟩
    unfold passPend
    exact by_ite _ (by_ite _ (((hpps _).seq ((evBudget_passes _ _).by m) (rs := budgetParts)).seq (reeval_by _ hport))
      (by_refl _ m s)) (by_refl _ m s)

/-- A budget pass leaves a port whose class is decided to its traffic. -/
theorem budgetPass_by (s : State) (m : DnN) (h : s.pps[m].pend = false) : By budgetParts m s (budgetPass s) := by
  unfold budgetPass
  have hlist : ∀ (xs : List DnN) (a : State), a.pps[m].pend = false →
      By budgetParts m a (forEach xs (fun a j => passPend (passWait a j) j) a) := fun xs => by
    induction xs with
    | nil => exact fun a _ => by_refl _ m a
    | cons x xs ih =>
      intro a ha
      have hwait := passWait_by a x m
      have hturn := hwait.seq (passPend_by (passWait a x) x m (hwait.pend.trans ha)) (rs := budgetParts)
      exact hturn.seq (ih _ (hturn.pend.trans ha))
  exact hlist _ s h

/-! ## The class of a partner (R294) -/

theorem foldl_add {α : Type} (f : α → Nat) (l : List α) (k : Nat) :
    l.foldl (fun a p => a + f p) k = k + (l.map f).sum := by
  induction l generalizing k with
  | nil => rfl
  | cons x l ih => rw [List.foldl_cons, ih, List.map_cons, List.sum_cons, Nat.add_assoc]

/-- What is granted and reserved is the sum of the allocations. -/
theorem allocations_eq (v : Vector Pps 16) : granted v + reserved v = (v.toList.map allocation).sum := by
  rw [granted, reserved, foldl_add, foldl_add, Nat.zero_add, Nat.zero_add, ← List.sum_map_add]
  rfl

/-- A change of one switch that leaves its allocation leaves what is granted and reserved. -/
theorem allocations_vMod (v : Vector Pps 16) (m : DnN) (f : Pps → Pps) (h : allocation (f v[m]) = allocation v[m]) :
    granted (vMod v m f) + reserved (vMod v m f) = granted v + reserved v := by
  have hmap : (vMod v m f).map allocation = v.map allocation := by
    ext j hj
    by_cases hm : m.val = j
    · subst hm
      simpa [vMod] using h
    · simp [vMod, hm]
  rw [allocations_eq, allocations_eq, ← Vector.toList_map, ← Vector.toList_map, hmap]

/-- A class is granted, and waits no more, or it waits, and the port keeps its allocation. -/
theorem decideClass_cases (free c : Nat) (p : Pps) :
    (decideClass free c p).2 = true ∧ (decideClass free c p).1.pend = false ∨
    (decideClass free c p).2 = false ∧ allocation (decideClass free c p).1 = allocation p := by
  unfold decideClass
  by_cases h : classWatts c ≤ free + allocation p
  · exact .inl (by simp [h])
  · refine .inr ?_
    simp only [if_neg h]
    exact ⟨trivial, Nat.add_zero _⟩

/-- A class that is decided leaves the port, and nothing waits. -/
theorem classGrant_decided (s : State) (m : DnN) (c : Nat)
    (h : switched s m = true → (decideClass (freeBudget s) c s.pps[m]).2 = true) :
    Passes budgetParts s (classGrant s m c) ∧ (classGrant s m c).pps[m].pend = false := by
  unfold classGrant
  by_cases hsw : switched s m = true
  · have hd := h hsw
    have hset : Passes budgetParts s (modPps s m fun _ => (decideClass (freeBudget s) c s.pps[m]).1) :=
      (passes_of_only (modPps_frame s m _)).widen
    have hev := hset.seq (evBudget_passes _ (dnPort m).val) (rs := budgetParts)
    have hpend : (decideClass (freeBudget s) c s.pps[m]).1.pend = false := by
      rcases decideClass_cases (freeBudget s) c s.pps[m] with ⟨-, h⟩ | ⟨h, -⟩
      · exact h
      · exact Bool.noConfusion (hd.symm.trans h)
    have hself := (congrArg Pps.pend (modPps_self s m fun _ => (decideClass (freeBudget s) c s.pps[m]).1)).trans hpend
    simp only [hsw, hd, Bool.not_true, Bool.false_eq_true, if_false]
    split
    · exact ⟨hev, (congrArg (fun v : Vector Pps 16 => v[m].pend)
        ((evBudget_passes _ _).parts .pps (by decide))).trans hself⟩
    · exact ⟨hset, hself⟩
  · rw [if_pos (by simpa using hsw)]
    exact ⟨(passes_of_only (modPps_frame s m _)).widen, congrArg Pps.pend (modPps_self s m _)⟩

/-- A class that must wait says so on its port, and moves no allocation. -/
theorem classGrant_waits (s : State) (m : DnN) (c : Nat) (hsw : switched s m = true)
    (hd : (decideClass (freeBudget s) c s.pps[m]).2 = false) :
    At budgetParts (dnPort m) (fun p => { p with hold := 1 }) s (classGrant s m c) ∧
      granted (classGrant s m c).pps + reserved (classGrant s m c).pps = granted s.pps + reserved s.pps := by
  have halloc : allocation (decideClass (freeBudget s) c s.pps[m]).1 = allocation s.pps[m] := by
    rcases decideClass_cases (freeBudget s) c s.pps[m] with ⟨h, -⟩ | ⟨-, h⟩
    · exact Bool.noConfusion (hd.symm.trans h)
    · exact h
  have hset : Passes budgetParts s (modPps s m fun _ => (decideClass (freeBudget s) c s.pps[m]).1) :=
    (passes_of_only (modPps_frame s m _)).widen
  have hport := (hset.turn (modPort_turns _ (dnPort m) fun q => { q with hold := 1 }) (rs := budgetParts)).pass
    (evBudget_passes _ (dnPort m).val) (rs := budgetParts)
  unfold classGrant
  simp only [hsw, hd, Bool.not_true, Bool.false_eq_true, if_false, Bool.not_false, if_true]
  exact ⟨hport.self, (congrArg (fun v : Vector Pps 16 => granted v + reserved v)
    ((evBudget_passes _ _).parts .pps (by decide))).trans (allocations_vMod s.pps m _ halloc)⟩

/-- The partner's class on Dm leaves the port itself but for the reason why it stays at Paddle. -/
theorem takeClass_at (s : State) (m : DnN) (c : Nat) : ∃ g : Nat → Nat,
    At budgetParts (dnPort m) (fun p => { p with hold := g p.hold }) s (takeClass s m c) := by
  unfold takeClass
  by_cases h : switched s m = true → (decideClass (freeBudget s) c s.pps[m]).2 = true
  · obtain ⟨hpass, hpend⟩ := classGrant_decided s m c h
    exact ⟨id, at_ite _ ((hpass.at _).seq (budgetPass_by _ m hpend).at') (hpass.at _)⟩
  · obtain ⟨hsw, hd⟩ : switched s m = true ∧ (decideClass (freeBudget s) c s.pps[m]).2 = false := by simpa using h
    obtain ⟨hat, htotal⟩ := classGrant_waits s m c hsw hd
    refine ⟨fun _ => 1, ?_⟩
    dsimp only
    rw [if_neg (by rw [htotal]; exact Nat.lt_irrefl _)]
    exact hat

end Sys2Proof.Machine
end

section
/-! PROOF. Capability exchange (O26). -/

namespace Sys2Proof.Machine

open Sys2Proof Sys2Proof.Safety

-- One proof after the other: side by side, the proofs of one text wait for each other in too many threads.
set_option Elab.async false

/-! ## The partner's words -/

/-- The words of a partner that are accepted are the port's, whatever else the comparison of media and the budget
note (R66, R294). -/
theorem acceptCap_at (s : State) (n : PortN) (a0 a1 : Word) : ∃ bits, ∃ g : Nat → Nat,
    At budgetParts n (fun p => { p with pcap0 := a0, pcap1 := a1, evt := p.evt ||| bits, hold := g p.hold }) s
      (acceptCap s n a0 a1) := by
  have hlit := (modPort_turns s n fun p => { p with pcap0 := a0, pcap1 := a1 }).pass (stayLit_passes _ n)
    (rs := budgetParts)
  have hmedium : ∃ bits, At budgetParts n (fun p => { p with pcap0 := a0, pcap1 := a1, evt := p.evt ||| bits }) s
      (if bit a0 7 != (stayLit (modPort s n fun p => { p with pcap0 := a0, pcap1 := a1 }) n).ports[n].optical then
        portEvt (stayLit (modPort s n fun p => { p with pcap0 := a0, pcap1 := a1 }) n) n 0x0080#16
       else stayLit (modPort s n fun p => { p with pcap0 := a0, pcap1 := a1 }) n) := by
    split
    · exact ⟨0x0080#16, (hlit.seq (portEvt_turns _ n _) (rs := budgetParts)).self⟩
    · exact ⟨0#16, hlit.self.as fun p => by simp⟩
  obtain ⟨bits, hbits⟩ := hmedium
  unfold acceptCap
  dsimp only
  by_cases hn : n.val = 0
  · rw [dif_pos hn]
    exact ⟨bits, id, hbits⟩
  · obtain ⟨m, rfl⟩ : ∃ m : DnN, n = dnPort m := ⟨⟨n.val - 1, by omega⟩, Fin.ext (by simp [dnPort]; omega)⟩
    rw [dif_neg hn]
    obtain ⟨g, hg⟩ := takeClass_at _ m (fld a0 8 3)
    exact ⟨bits, g, hbits.seq hg⟩

/-! ## TS_CAP in CAPS (R66, R67) -/

theorem capRx_caps {s : State} {n : PortN} (h : s.ports[n].st = .caps) (a0 a1 : Word) :
    capRx s n a0 a1 = capInCaps s n a0 a1 := by
  simp only [capRx, h]

theorem capRx_up {s : State} {n : PortN} (h : isUp s.ports[n] = true) (a0 a1 : Word) :
    capRx s n a0 a1 = capUpdated s n a0 a1 := by
  have hst : s.ports[n].st = .paddle ∨ s.ports[n].st = .active := by simpa [isUp, -Fin.getElem_fin] using h
  rcases hst with hst | hst <;> simp only [capRx, hst]

theorem capInCaps_first {s : State} {n : PortN} {a0 a1 : Word} (h : s.ports[n].capRx ≠ some (a0, a1)) :
    capInCaps s n a0 a1 = modPort s n fun q => { q with capRx := some (a0, a1), capTwo := false } :=
  if_pos (by simpa using h)

/-- A port in CAPS whose partner's words have been accepted for the second time. -/
def capAccepted (s : State) (n : PortN) (a0 a1 : Word) : State :=
  noteBest (acceptCap (modPort s n fun q => { q with capTwo := true }) n a0 a1) n

theorem capAccepted_at (s : State) (n : PortN) (a0 a1 : Word) : ∃ bits, ∃ g : Nat → Nat, ∃ b,
    At budgetParts n (fun p =>
      { p with capTwo := true, pcap0 := a0, pcap1 := a1, evt := p.evt ||| bits, hold := g p.hold, best := b }) s
      (capAccepted s n a0 a1) := by
  have hmod := (modPort_turns s n fun q => { q with capTwo := true }).self
  obtain ⟨bits, g, hcap⟩ := acceptCap_at (modPort s n fun q => { q with capTwo := true }) n a0 a1
  have hbest : ∀ (a : State) (b : Nat), At [.ports] n (fun p => { p with best := b }) a
      (modPort a n fun p => { p with best := b }) := fun a b => (modPort_turns a n fun p => { p with best := b }).self
  exact ⟨bits, g, _, (hmod.seq hcap (rs := budgetParts)).seq (hbest _ _)⟩

theorem capInCaps_second {s : State} {n : PortN} {a0 a1 : Word} (h : s.ports[n].capRx = some (a0, a1))
    (h2 : s.ports[n].capTwo = false) (hb : badCap a0 = false) (hk : s.ports[n].ackRx < 2) :
    capInCaps s n a0 a1 = sendTs2 (capAccepted s n a0 a1) n .ack a0 a1 := by
  obtain ⟨bits, g, b, hat⟩ := capAccepted_at s n a0 a1
  have hall := hat.seq ((sendTs2_passes (capAccepted s n a0 a1) n .ack a0 a1).at n) (rs := budgetParts)
  have hack : (sendTs2 (capAccepted s n a0 a1) n .ack a0 a1).ports[n].ackRx = s.ports[n].ackRx :=
    (congrArg Port.ackRx hall.port :)
  unfold capInCaps
  dsimp only
  rw [if_neg (by simp [h, -Fin.getElem_fin]), if_neg (by simp [h2, -Fin.getElem_fin]), if_neg (by simp [hb])]
  exact if_neg (by
    show ¬ 2 ≤ (sendTs2 (capAccepted s n a0 a1) n .ack a0 a1).ports[n].ackRx
    omega)

/-- A port that refuses its partner's words ends in FAILED (R66). -/
theorem refuseCap_turns {s : State} {n : PortN} (hu : isUp s.ports[n] = false) (hs : notSusp s n) :
    Turns budgetParts n (fun p => withEvt 0x0040#16 { freshPass p with st := .failed, rate := 0, retrain := false }) s
      (refuseCap s n) := by
  have hfail := (((modPort_turns s n (fun q => { freshPass q with st := .failed, rate := 0, retrain := false })
    fun _ => ⟨id, id⟩).pass (bbLink_passes _ 0x33 n.val s.ports[n].pcap0 s.ports[n].pcap1) (rs := budgetParts)).seq
    (portEvt_turns _ n 0x0040#16) (rs := budgetParts))
  have hidle := suspHold_notSusp (notSusp_of_hold hfail.self.hold hs)
  unfold refuseCap
  rw [if_neg (Bool.eq_false_iff.mp hu)]
  dsimp only
  rw [hidle]
  split
  · exact hfail
  · exact hfail.pass (surveyDetach_passes _ _)

theorem capInCaps_refused {s : State} {n : PortN} {a0 a1 : Word} (h : s.ports[n].capRx = some (a0, a1))
    (h2 : s.ports[n].capTwo = false) (hb : badCap a0 = true) : capInCaps s n a0 a1 = refuseCap s n := by
  unfold capInCaps
  dsimp only
  rw [if_neg (by simp [h, -Fin.getElem_fin]), if_neg (by simp [h2, -Fin.getElem_fin]), if_pos hb]

/-! ## TS_ACK (R67, R70) -/

theorem ackRx_other {s : State} {n : PortN} {a0 a1 : Word} (h : a0 ≠ portCap0 s n ∨ a1 ≠ portCap1 s) :
    ackRx s n a0 a1 = s := if_pos (by simpa using h)

/-- A TS_ACK that echoes the port's words, by how many have come. -/
theorem ackRx_first {s : State} {n : PortN} (h : s.ports[n].ackRx = 0) :
    ackRx s n (portCap0 s n) (portCap1 s) = modPort s n fun p => { p with ackRx := 1 } := by
  unfold ackRx
  rw [if_neg (by simp)]
  simp only [h]
  rfl

theorem ackRx_second {s : State} {n : PortN} (h : s.ports[n].ackRx = 1) :
    ackRx s n (portCap0 s n) (portCap1 s) =
      if s.ports[n].st = .caps then
        if s.ports[n].capTwo then capsDone (modPort s n fun p => { p with ackRx := 2 }) n
        else modPort s n fun p => { p with ackRx := 2 }
      else reeval (modPort s n fun p => { p with ackRx := 2 }) n := by
  unfold ackRx
  rw [if_neg (by simp)]
  simp only [h]
  rfl

theorem ackRx_second_up {s : State} (h : s.ports[(0 : PortN)].ackRx = 1) :
    ackRx s 0 (portCap0 s 0) (portCap1 s) = modPort s 0 fun p => { p with ackRx := 2 } := by
  rw [ackRx_second h]
  split
  · split <;> rfl
  · rfl

/-! ## What a parent does once CAPS is complete (R68) -/

theorem parentChoose_tries {s : State} {n : PortN} {r : Nat} (h : nextTrial s n = some r) :
    parentChoose s n = startTrial s n r := by
  simp only [parentChoose, h]

/-- The parent may try no rate: TS_GO, and a link at Paddle with the reason why (R68). -/
theorem parentChoose_stays {s : State} {n : PortN} (h : nextTrial s n = none) (hr : txReady s n) :
    (∃ bits, Turns upParts n (fun p => withEvt bits (portUp .paddle 1 { p with hold := holdReason s n })) s
      (parentChoose s n)) ∧ setOut n (txRate s n) .go 1#16 0#16 ∈ (parentChoose s n).out := by
  have hmod := modPort_turns s n fun p => { p with hold := holdReason s n }
  have hrate : txRate (modPort s n fun p => { p with hold := holdReason s n }) n = txRate s n := by
    rw [txRate, modPort_self, txRate]
  have hgo := sendTs_ready (hmod.self.ready hr) (k := .go) (by decide) 1#16 0#16
  have hsent := hmod.pass (sendTs_passes _ n .go 1#16 0#16) (rs := upParts)
  have heq : parentChoose s n =
      linkUp (sendTs (modPort s n fun p => { p with hold := holdReason s n }) n .go 1#16 0#16) n 1 := by
    simp only [parentChoose, h]
  obtain ⟨bits, hup⟩ := linkUp_turns (sendTs (modPort s n fun p => { p with hold := holdReason s n }) n .go 1#16 0#16) n 1
  rw [heq]
  refine ⟨⟨bits, hsent.seq hup⟩, hup.self.outs.subset ?_⟩
  rw [hgo, hrate]
  exact List.mem_cons_self

/-! ## The choice applied again (R70) -/

theorem reeval_paddle_tries {s : State} {n : PortN} {r : Nat} (hn : n ≠ 0) (hst : s.ports[n].st = .paddle)
    (h : nextTrial s n = some r) (hf : txFree s n = true) : reeval s n = startTrial (linkDown s n 10) n r := by
  unfold reeval
  simp only [hn, hst, h, hf, if_false, if_true]

theorem reeval_paddle_stays {s : State} {n : PortN} (hn : n ≠ 0) (hst : s.ports[n].st = .paddle)
    (h : nextTrial s n = none) : reeval s n = modPort s n fun q => { q with hold := holdReason s n } := by
  unfold reeval
  simp only [hn, hst, h, if_false, if_true]

/-- A link whose rate is no candidate any more retrains with reason 7, after EAB and the sets that waited. -/
theorem reeval_active_retrains {s : State} {n : PortN} (hn : n ≠ 0) (hst : s.ports[n].st = .active)
    (h : (candidates s n).contains s.ports[n].rate = false) :
    reeval s n = retrain (flushTs (endTx s n 3) n) n 7 := by
  unfold reeval
  simp only [hn, hst, h, if_false, if_true, Bool.false_and, Bool.false_eq_true, reduceCtorEq]

/-- A retrain because of the choice, from a link that is ACTIVE. -/
theorem reeval_active_rule {s : State} {n : PortN} (hn : n ≠ 0) (hst : s.ports[n].st = .active)
    (h : (candidates s n).contains s.ports[n].rate = false) (hs : notSusp s n) :
    Turns downParts n retrained s (reeval s n) ∧
      sentTwice s (reeval s n) (setOut n s.ports[n].rate .down (w16 s.ports[n].rate) 7#16) := by
  have hended := (endTx_passes s n 3).seq (flushTs_passes _ n) (rs := downParts)
  have hsusp := notSusp_of_hold (hended.at n).hold hs
  have hsent := retrain_sends hsusp 7
  have hrate : (flushTs (endTx s n 3) n).ports[n].rate = s.ports[n].rate := (congrArg Port.rate (hended.ports n) :)
  have htx : txRate (flushTs (endTx s n 3) n) n = s.ports[n].rate := by
    rw [txRate_of_standing (hended.ports n), txRate, hst]
  rw [hrate, htx] at hsent
  rw [reeval_active_retrains hn hst h]
  exact ⟨hended.turn (retrain_turns hsusp 7), sentTwice_after hended.outs hsent⟩

theorem startTrial_frame (s : State) (n : PortN) (r : Nat) : only budgetParts s (startTrial s n r) := by
  unfold startTrial
  exact ((modPort_only s n _).seq (sendTs2_passes _ n _ _ _).parts (rs := budgetParts)).seq (suspHold_frame _ n)

theorem retrain_frame (s : State) (n : PortN) (reason : Nat) : only budgetParts s (retrain s n reason) := by
  have hdown := (retrainSent_passes s n reason).parts.seq (linkDown_turns _ n reason).self.parts (rs := budgetParts)
  exact (hdown.seq (modPort_only _ n portAlign) (rs := budgetParts)).seq (suspHold_frame _ n)

/-- What applying the choice again may touch. -/
theorem reeval_frame (s : State) (n : PortN) : only budgetParts s (reeval s n) := by
  have hflush := (endTx_passes s n 3).parts.seq (flushTs_passes _ n).parts (rs := budgetParts)
  unfold reeval
  refine only_ite _ (only_refl _ s) (only_ite _ ?_ (only_ite _ (only_ite _ (only_refl _ s)
    (hflush.seq (retrain_frame _ n 7))) (only_refl _ s)))
  split
  · exact only_ite _ ((linkDown_turns s n 10).self.parts.seq (startTrial_frame _ n _)) (only_refl _ s)
  · exact (modPort_only s n _).widen

theorem parentChoose_frame (s : State) (n : PortN) : only budgetParts s (parentChoose s n) := by
  unfold parentChoose
  split
  · exact startTrial_frame s n _
  · obtain ⟨bits, hup⟩ := linkUp_turns
      (sendTs (modPort s n fun p => { p with hold := holdReason s n }) n .go 1#16 0#16) n 1
    exact ((modPort_only s n _).seq (sendTs_passes _ n _ _ _).parts (rs := budgetParts)).seq hup.self.parts

/-! ## A capability update (R70) -/

/-- A capability update that is accepted, up to where the choice is applied again. -/
def capNoted (s : State) (n : PortN) (a0 a1 : Word) : State :=
  portEvt (sendTs2 (acceptCap s n a0 a1) n .ack a0 a1) n 0x0100#16

theorem capUpdated_good {s : State} {n : PortN} {a0 a1 : Word} (h : badCap a0 = false) :
    capUpdated s n a0 a1 = reeval (capNoted s n a0 a1) n := if_neg (by simp [h])

theorem capNoted_at (s : State) (n : PortN) (a0 a1 : Word) : ∃ bits, ∃ g : Nat → Nat,
    At budgetParts n (fun p => { p with
      pcap0 := a0, pcap1 := a1, evt := p.evt ||| bits ||| 0x0100#16, hold := g p.hold }) s (capNoted s n a0 a1) := by
  obtain ⟨bits, g, hat⟩ := acceptCap_at s n a0 a1
  exact ⟨bits, g, (hat.seq ((sendTs2_passes _ n .ack a0 a1).at n) (rs := budgetParts)).seq (portEvt_turns _ n _).self⟩

/-- An update is answered with two TS_ACK at the link's rate. -/
theorem capNoted_sends {s : State} {n : PortN} (hr : txReady s n) (a0 a1 : Word) :
    sentTwice s (capNoted s n a0 a1) (setOut n (txRate s n) .ack a0 a1) := by
  obtain ⟨bits, g, hat⟩ := acceptCap_at s n a0 a1
  have hrate : txRate (acceptCap s n a0 a1) n = txRate s n := by
    have hst : (acceptCap s n a0 a1).ports[n].st = s.ports[n].st := (congrArg Port.st hat.port :)
    have hr : (acceptCap s n a0 a1).ports[n].rate = s.ports[n].rate := (congrArg Port.rate hat.port :)
    have ht : (acceptCap s n a0 a1).ports[n].tryRate = s.ports[n].tryRate := (congrArg Port.tryRate hat.port :)
    simp only [txRate, hst, hr, ht]
  have hsent := sendTs2_twice (hat.ready hr).1 (k := .ack) (by decide) a0 a1
  rw [hrate] at hsent
  exact sentTwice_later (sentTwice_after hat.outs hsent) (portEvt_turns _ n 0x0100#16).self.outs

/-- Event bits that have been set stand. -/
theorem evt_or_and (x c : Word) : (x ||| c) &&& c = c := by
  ext i hi
  simp only [BitVec.getElem_and, BitVec.getElem_or]
  exact (by decide : ∀ a b : Bool, ((a || b) && b) = b) _ _

/-- A training set that comes on port n, with its row's own meaning. -/
theorem onLink_onTs {n : PortN} {k : TsKind} {a0 a1 chk : Word} {s t : State} {f : State → State}
    (h : setComes s n k a0 a1 chk) (ht : f s = t) : onLink s (onTs n k a0 a1 chk f) = .next t :=
  onLink_eq h.1 (onTs_good h ht)

/-- Settles O26: it holds. A TS_CAP is kept, accepted or refused, a TS_ACK counts, and the choice of a rate is
`parentChoose` or `reeval`. -/
theorem capabilities : Obligations.Capabilities := by
  unfold Obligations.Capabilities
  refine ⟨fun n a0 a1 chk s hc hst hrx => ?_, fun n a0 a1 chk s hc hst hrx h2 hb hk hr => ?_,
    fun n a0 a1 chk s hc hst hs hrx h2 hb => ?_, fun a0 a1 chk s hc hu hb => ?_, fun n a0 a1 chk s hc h => ?_,
    fun n a0 a1 chk s hc h0 h1 hk => ?_, fun a0 a1 chk s hc h0 h1 hk => ?_,
    fun m a0 a1 chk s hc h0 h1 hk hst h2 hr hs => ?_, fun m a0 a1 chk s hc h0 h1 hk hr hs => ?_,
    fun m a0 a1 chk s hc hst hb hrate hoff hr hs => ?_, fun n s hl hu hr => ?_, fun n s hl hst => ?_⟩
  · exact ⟨_, onLink_onTs hc ((capRx_caps hst a0 a1).trans (capInCaps_first hrx)), modPort_self s n _,
      portsBut_modPort s n _, modPort_only s n _⟩
  · obtain ⟨bits, g, b, hat⟩ := capAccepted_at s n a0 a1
    have hall := hat.seq ((sendTs2_passes (capAccepted s n a0 a1) n .ack a0 a1).at n) (rs := budgetParts)
    have hrate : txRate (capAccepted s n a0 a1) n = 1 := by
      have hcaps : (capAccepted s n a0 a1).ports[n].st = .caps := (congrArg Port.st hat.port :).trans hst
      rw [txRate, hcaps]
    refine ⟨_, onLink_onTs hc ((capRx_caps hst a0 a1).trans (capInCaps_second hrx h2 hb hk)),
      (congrArg Port.capTwo hall.port :), (congrArg Port.pcap0 hall.port :), (congrArg Port.pcap1 hall.port :),
      (congrArg Port.st hall.port :).trans hst, ?_, hall.parts⟩
    rw [sendTs2_ready (hat.ready hr) (by decide), hrate]
    exact List.mem_cons_self
  · have ht := refuseCap_turns (by simp [isUp, hst, -Fin.getElem_fin]) hs
    exact ⟨_, onLink_onTs hc ((capRx_caps hst a0 a1).trans (capInCaps_refused hrx h2 hb)), (congrArg Port.st ht.self.port :),
      (congrArg Port.evt ht.self.port :), ht.self.parts⟩
  · obtain ⟨bits, g, hat⟩ := capNoted_at s 0 a0 a1
    have hevt : (capNoted s 0 a0 a1).ports[(0 : PortN)].evt = s.ports[(0 : PortN)].evt ||| bits ||| 0x0100#16 :=
      (congrArg Port.evt hat.port :)
    exact ⟨capNoted s 0 a0 a1, onLink_onTs hc ((capRx_up hu a0 a1).trans ((capUpdated_good hb).trans rfl)),
      (congrArg Port.pcap0 hat.port :), (congrArg Port.pcap1 hat.port :), (congrArg Port.rate hat.port :),
      by rw [hevt, evt_or_and], fun hr => capNoted_sends hr a0 a1, hat.parts⟩
  · exact onLink_onTs hc (ackRx_other h)
  · subst h0 h1
    exact ⟨_, onLink_onTs hc (ackRx_first hk), modPort_self s n _, portsBut_modPort s n _, modPort_only s n _⟩
  · subst h0 h1
    exact ⟨_, onLink_onTs hc (ackRx_second_up hk), modPort_self s 0 _, portsBut_modPort s 0 _, modPort_only s 0 _⟩
  · subst h0 h1
    have hrun := ackRx_second hk
    rw [if_pos hst, if_pos h2, capsDone, if_neg (dnPort_ne_zero m)] at hrun
    have hmod := modPort_turns s (dnPort m) fun p => { p with ackRx := 2 }
    have hsusp := notSusp_of_hold hmod.self.hold hs
    refine ⟨_, onLink_onTs hc hrun, fun r htry => ?_, fun hnone => ?_, ?_⟩
    · rw [parentChoose_tries ((nextTrial_modPort s (dnPort m)).trans htry)]
      have ht := hmod.seq (startTrial_turns hsusp r) (rs := [.ports, .out])
      exact ⟨(congrArg Port.st ht.self.port :), (congrArg Port.tryRate ht.self.port :),
        sentTwice_after hmod.self.outs (startTrial_sends hsusp (hmod.self.ready hr).1 r)⟩
    · obtain ⟨⟨bits, hup⟩, hgo⟩ := parentChoose_stays ((nextTrial_modPort s (dnPort m)).trans hnone) (hmod.self.ready hr)
      have hrate : txRate (modPort s (dnPort m) fun p => { p with ackRx := 2 }) (dnPort m) = 1 := by
        rw [txRate, modPort_self, hst]
      have ht := hmod.seq hup (rs := upParts)
      rw [hrate] at hgo
      exact ⟨(congrArg Port.st ht.self.port :), (congrArg Port.rate ht.self.port :),
        (congrArg Port.hold ht.self.port :).trans (holdReason_modPort s (dnPort m)), hgo⟩
    · cases htry : nextTrial (modPort s (dnPort m) fun p => { p with ackRx := 2 }) (dnPort m) with
      | some r =>
        rw [parentChoose_tries htry]
        exact (hmod.seq (startTrial_turns hsusp r) (rs := upParts)).self.parts
      | none =>
        obtain ⟨⟨bits, hup⟩, -⟩ := parentChoose_stays htry (hmod.self.ready hr)
        exact (hmod.seq hup (rs := upParts)).self.parts
  · subst h0 h1
    have hmod := modPort_turns s (dnPort m) fun p => { p with ackRx := 2 }
    have hport := modPort_self s (dnPort m) fun p => { p with ackRx := 2 }
    have hsusp := notSusp_of_hold hmod.self.hold hs
    have hne : s.ports[dnPort m].st ≠ .caps → ackRx s (dnPort m) (portCap0 s (dnPort m)) (portCap1 s) =
        reeval (modPort s (dnPort m) fun p => { p with ackRx := 2 }) (dnPort m) := fun hst =>
      (ackRx_second hk).trans (if_neg hst)
    refine ⟨_, onLink_onTs hc rfl, fun r hst htry => ?_, fun hst hnone => ?_, fun hst hcand => ?_, ?_⟩
    · rw [hne (by rw [hst]; decide), reeval_paddle_tries (dnPort_ne_zero m) (by rw [hport]; exact hst)
        ((nextTrial_modPort s (dnPort m)).trans htry) (hmod.self.ready hr).1]
      have hdown := hmod.seq (linkDown_turns _ (dnPort m) 10) (rs := downParts)
      have ht := hdown.seq (startTrial_turns (notSusp_of_hold hdown.self.hold hs) r) (rs := downParts)
      exact ⟨(congrArg Port.st ht.self.port :), (congrArg Port.tryRate ht.self.port :)⟩
    · rw [hne (by rw [hst]; decide), reeval_paddle_stays (dnPort_ne_zero m) (by rw [hport]; exact hst)
        ((nextTrial_modPort s (dnPort m)).trans hnone), modPort_self, hport, holdReason_modPort s (dnPort m)]
    · rw [hne (by rw [hst]; decide)]
      have hcand' : (candidates (modPort s (dnPort m) fun p => { p with ackRx := 2 }) (dnPort m)).contains
          (modPort s (dnPort m) fun p => { p with ackRx := 2 }).ports[dnPort m].rate = false := by
        rw [hport, candidates_modPort s (dnPort m)]
        exact hcand
      obtain ⟨hturn, hsent⟩ := reeval_active_rule (dnPort_ne_zero m) (by rw [hport]; exact hst) hcand' hsusp
      have ht := hmod.seq hturn (rs := downParts)
      rw [hport] at hsent
      exact ⟨(congrArg Port.st ht.self.port :), sentTwice_after hmod.self.outs hsent⟩
    · rw [ackRx_second hk]
      have hset : only budgetParts s (modPort s (dnPort m) fun p => { p with ackRx := 2 }) := hmod.self.parts.widen
      have hdone : only budgetParts s (capsDone (modPort s (dnPort m) fun p => { p with ackRx := 2 }) (dnPort m)) :=
        hset.seq (only_ite _ (only_refl budgetParts _) (parentChoose_frame _ _))
      exact (only_ite _ (only_ite _ hdone hset) (hset.seq (reeval_frame _ _) (rs := budgetParts))).widen
  · have hup : isUp s.ports[dnPort m] = true := by simp [isUp, hst, -Fin.getElem_fin]
    obtain ⟨bits, g, hat⟩ := capNoted_at s (dnPort m) a0 a1
    have hst' : (capNoted s (dnPort m) a0 a1).ports[dnPort m].st = .active := (congrArg Port.st hat.port :).trans hst
    have hrate' : (capNoted s (dnPort m) a0 a1).ports[dnPort m].rate = s.ports[dnPort m].rate :=
      (congrArg Port.rate hat.port :)
    have hoffered : bit (capNoted s (dnPort m) a0 a1).ports[dnPort m].pcap0
        ((capNoted s (dnPort m) a0 a1).ports[dnPort m].rate - 1) = false := by
      rw [hrate', show (capNoted s (dnPort m) a0 a1).ports[dnPort m].pcap0 = a0 from (congrArg Port.pcap0 hat.port :)]
      exact hoff
    obtain ⟨hturn, hdown⟩ := reeval_active_rule (dnPort_ne_zero m) hst' (candidates_offered hoffered)
      (notSusp_of_hold hat.hold hs)
    have hack := capNoted_sends hr a0 a1
    have htx : txRate s (dnPort m) = s.ports[dnPort m].rate := by rw [txRate, hst]
    have ht := hat.seq hturn.self (rs := budgetParts)
    have hevt : (reeval (capNoted s (dnPort m) a0 a1) (dnPort m)).ports[dnPort m].evt =
        s.ports[dnPort m].evt ||| bits ||| 0x0100#16 ||| 0x0002#16 := (congrArg Port.evt ht.port :)
    rw [htx] at hack
    rw [hrate'] at hdown
    refine ⟨_, onLink_onTs hc ((capRx_up hup a0 a1).trans (capUpdated_good hb)), (congrArg Port.st ht.port :), ?_,
      sentTwice_later hack hturn.self.outs, sentTwice_after hat.outs hdown, ht.parts.widen⟩
    rw [hevt, BitVec.or_assoc _ 0x0100#16]
    exact evt_or_and _ _
  · have hport := modPort_turns s n fun p => { p with ackRx := 0, setRx := 0, fragSent := p.fragEn }
    have hrate : txRate (modPort s n fun p => { p with ackRx := 0, setRx := 0, fragSent := p.fragEn }) n = txRate s n := by
      rw [txRate, modPort_self, txRate]
    have hrun : capUpdate s n = _ := if_pos (by rw [hu]; rfl)
    rw [sendTs_ready (hport.self.ready hr) (by decide), hrate] at hrun
    exact ⟨_, onLink_eq hl hrun, modPort_self s n _, portsBut_modPort s n _, rfl,
      (modPort_only s n _).seq (emit_only _ _)⟩
  · have hno : capUpdate s n = s := by
      simp only [List.mem_cons, List.not_mem_nil, or_false] at hst
      refine if_neg ?_
      rcases hst with h | h | h | h | h | h <;> simp [isUp, h, -Fin.getElem_fin]
    exact onLink_eq hl hno

end Sys2Proof.Machine
end

section
/-! PROOF. Switch, realign and trial (O27). -/

namespace Sys2Proof.Machine

open Sys2Proof Sys2Proof.Safety

-- One proof after the other: side by side, the proofs of one text wait for each other in too many threads.
set_option Elab.async false

/-! ## Link-up, exactly -/

theorem portEvt_ports (s : State) (n : PortN) (bits : Word) :
    (portEvt s n bits).ports = (modPort s n (withEvt bits)).ports := by
  unfold portEvt
  dsimp only
  split
  · rfl
  · exact raise_only _ _ .ports (by decide)

/-- A link-up leaves nothing of the port's earlier link (R60, R71). -/
theorem linkUp_port (s : State) (n : PortN) (r : Nat) : ∃ bits,
    (linkUp s n r).ports[n] = withEvt bits (portUp (upSt r) r s.ports[n]) := by
  have hcount : (countAttach s n).ports = s.ports := (countAttach_passes s n).parts .ports (by decide)
  have hfresh : ∀ a : State, (if n = 0 then upFresh a else a).ports = a.ports := fun a => by
    split <;> rfl
  refine ⟨if s.ports[n].lastRate.any (fun x => x != r) then 0x0005#16 else 0x0001#16,
    (congrArg (fun v : Vector Port 17 => v[n]) (portEvt_ports _ n _)).trans
      ((modPort_self _ n _).trans (congrArg (withEvt _) ?_))⟩
  refine (congrArg (fun v : Vector Port 17 => v[n]) (hfresh _)).trans ((modPort_self _ n _).trans ?_)
  exact congrArg (fun v : Vector Port 17 => portUp (upSt r) r v[n]) hcount

/-! ## RALIGN -/

/-- RALIGN begins with IDL at the trial's rate and two TS_READY (R67). -/
theorem enterRalign_ready {s : State} {n : PortN} (hr : txReady s n) : ∃ k, 64 ≤ k ∧
    (enterRalign s n).out = setOut n s.ports[n].tryRate .ready (w16 s.ports[n].tryRate) 0#16 ::
      setOut n s.ports[n].tryRate .ready (w16 s.ports[n].tryRate) 0#16 :: .idl n k :: s.out ∧
    (enterRalign s n).ports = (modPort s n fun p => { p with st := .ralign, setRx := 0 }).ports ∧
    only [.ports, .out] s (enterRalign s n) := by
  have hready : txReady (bump (emit (modPort s n fun p => { p with st := .ralign, setRx := 0 })
      (.idl n (64 + Config.readyIdl s.fresh)))) n :=
    (modPort_turns s n fun p => { p with st := .ralign, setRx := 0 }).self.ready hr
  have hrate : txRate (bump (emit (modPort s n fun p => { p with st := .ralign, setRx := 0 })
      (.idl n (64 + Config.readyIdl s.fresh)))) n = s.ports[n].tryRate := by
    have hport := modPort_self s n fun p => { p with st := .ralign, setRx := 0 }
    show txRate (modPort s n fun p => { p with st := .ralign, setRx := 0 }) n = _
    rw [txRate, hport]
  have hrun : enterRalign s n = _ := sendTs2_ready hready (by decide) (w16 s.ports[n].tryRate) 0#16
  rw [hrate] at hrun
  rw [hrun]
  exact ⟨64 + Config.readyIdl s.fresh, Nat.le_add_right _ _, rfl, rfl,
    fun p hp => by cases p <;> first | rfl | exact absurd (by decide) hp⟩

/-! ## The child's side -/

/-- A child that has received `k` TS_TRIAL for rate `r`. -/
def followed (r k : Nat) (q : Port) : Port :=
  { q with st := .switch, tryRate := r, setRx := k, fromTrial := false, myErrs := none, hisErrs := none }

/-- A TS_TRIAL for a rate above Paddle, on the PLL, outside an image load or within the trial it began. -/
theorem trialRx_up {s : State} {r : Nat} (h2 : 2 ≤ r) (h4 : r ≤ 4) (hp : s.clk.corePll = true)
    (hb : s.glob.cfgBusy = false ∨ followsTrial s.ports[(0 : PortN)] r = true) : trialRx s 0 r =
      match s.ports[(0 : PortN)].st with
      | .caps => if capsOver s.ports[(0 : PortN)] then childTrial s r else s
      | .switch => childTrial s r
      | .paddle => childTrial s r
      | _ => s := by
  have hgo : ¬ (decide (r < 2) || decide (4 < r) || !s.clk.corePll ||
      s.glob.cfgBusy && !followsTrial s.ports[(0 : PortN)] r) = true := by
    rcases hb with hb | hb <;> simp [hp, hb, -Fin.getElem_fin] <;> omega
  unfold trialRx
  dsimp only
  rw [if_pos rfl, if_neg hgo] <;> rfl

theorem trialRx_firc {s : State} {r : Nat} (h : s.clk.corePll = false) : trialRx s 0 r = s := by
  unfold trialRx
  dsimp only
  rw [if_pos rfl, if_pos (by simp [h])]

theorem childTrial_first {s : State} {r : Nat} (h : s.ports[(0 : PortN)].st = .caps) :
    childTrial s r = modPort s 0 (followed r 1) := by
  unfold childTrial childSwitch
  simp only [h]
  rfl

theorem childTrial_second {s : State} {r : Nat} (h : s.ports[(0 : PortN)].st = .switch)
    (ht : s.ports[(0 : PortN)].tryRate = r) (hk : s.ports[(0 : PortN)].setRx = 1) :
    childTrial s r = enterRalign (sendTs2 (modPort s 0 (followed r 2)) 0 .trial (w16 r) 0#16) 0 := by
  unfold childTrial childSwitch
  simp only [h, ht, hk]
  rfl

theorem childTrial_busy {s : State} {r : Nat} (h : s.ports[(0 : PortN)].st = .paddle) (hf : txFree s 0 = false) :
    childTrial s r = modPort s 0 fun q => { q with
      tryRate := r
      setRx := if s.ports[(0 : PortN)].tryRate = r then min 2 (s.ports[(0 : PortN)].setRx + 1) else 1 } := by
  unfold childTrial
  simp only [h, hf]
  rw [if_pos (by trivial), if_neg (by decide)]
  simp

/-! ## The parent's side -/

theorem trialRx_down {s : State} (m : DnN) {r : Nat} (h : s.ports[dnPort m].st = .switch)
    (ht : s.ports[dnPort m].tryRate = r) (hk : s.ports[dnPort m].setRx ≠ 0) :
    trialRx s (dnPort m) r = enterRalign s (dnPort m) := by
  unfold trialRx
  simp only [dnPort_ne_zero m, h, ht, hk, if_false, decide_true, Bool.and_self, if_true]

/-- A port at which a rate has failed (R69). -/
def rateFailed (n : PortN) (p : Port) : Port :=
  if n = 0 then portAlignTrial p
  else { portAlignTrial p with lastFail := p.tryRate, steps := satInc 15 p.steps }

theorem rateFailed_fields (n : PortN) (p : Port) : (rateFailed n p).st = .align ∧ (rateFailed n p).fromTrial = true ∧
    (n ≠ 0 → (rateFailed n p).lastFail = p.tryRate ∧ (rateFailed n p).steps = satInc 15 p.steps) := by
  unfold rateFailed
  split
  · exact ⟨rfl, rfl, fun h => absurd ‹_› h⟩
  · exact ⟨rfl, rfl, fun _ => ⟨rfl, rfl⟩⟩

/-- The time-out of SWITCH or of RALIGN fails the rate and sends nothing. -/
theorem failRate_rule (s : State) (n : PortN) : (failRate s n).ports[n].st = .align ∧
    (failRate s n).ports[n].fromTrial = true ∧
    (n ≠ 0 → (failRate s n).ports[n].lastFail = s.ports[n].tryRate ∧
      (failRate s n).ports[n].steps = satInc 15 s.ports[n].steps) ∧
    portsBut n s (failRate s n) ∧ only [.ports] s (failRate s n) := by
  have hport : (failRate s n).ports[n] = rateFailed n s.ports[n] := modPort_self s n _
  obtain ⟨h1, h2, h3⟩ := rateFailed_fields n s.ports[n]
  rw [hport]
  exact ⟨h1, h2, h3, portsBut_modPort s n _, modPort_only s n _⟩

/-! ## TRIAL -/

theorem readyRx_counts {s : State} {n : PortN} {clean r : Nat} (h : s.ports[n].st = .ralign)
    (ht : s.ports[n].tryRate = r) (hc : 64 ≤ clean) : readyRx s n clean r =
      if s.ports[n].setRx = 0 then modPort s n fun q => { q with setRx := 1 }
      else emit (modPort s n fun q => { q with st := .trial, setRx := 0, myErrs := none, hisErrs := none })
        (.prbs n prbsSeed 8192) := by
  unfold readyRx
  rw [if_neg (by simp [h, ht, -Fin.getElem_fin]; omega)]

/-- A count that leaves the other one open decides nothing. -/
theorem judge_open {s : State} {n : PortN} (h : n = 0 ∨ s.ports[n].myErrs = none ∨ s.ports[n].hisErrs = none) :
    judge s n = s := by
  unfold judge
  dsimp only
  split
  · rfl
  · split
    · rename_i a b ha hb
      rcases h with h | h | h
      · exact absurd h ‹_›
      · exact absurd (ha.symm.trans h) (by simp)
      · exact absurd (hb.symm.trans h) (by simp)
    · rfl

theorem judge_both {s : State} {n : PortN} {a b : Nat} (hn : n ≠ 0) (ha : s.ports[n].myErrs = some a)
    (hb : s.ports[n].hisErrs = some b) : judge s n =
      if a ≤ s.ports[n].trialThr && b ≤ s.ports[n].trialThr then
        linkUp (sendTs s n .go (w16 s.ports[n].tryRate) 0#16) n s.ports[n].tryRate
      else failRate (sendTs2 s n .down (w16 s.ports[n].tryRate) 1#16) n := by
  unfold judge
  simp only [hn, ha, hb, if_false]

theorem resultRx_counts {s : State} {n : PortN} {r : Nat} (h : s.ports[n].st = .trial) (ht : s.ports[n].tryRate = r)
    (e : Word) : resultRx s n r e = judge (modPort s n fun p => { p with hisErrs := some e.toNat }) n :=
  if_neg (by simp [h, ht, -Fin.getElem_fin])

/-- The parent is content with both counts: TS_GO, and the link at the new rate (R69, R71). -/
theorem judge_goes {s : State} {n : PortN} {a b : Nat} (hn : n ≠ 0) (ha : s.ports[n].myErrs = some a)
    (hb : s.ports[n].hisErrs = some b) (hst : s.ports[n].st = .trial) (hr : txReady s n)
    (hgood : a ≤ s.ports[n].trialThr ∧ b ≤ s.ports[n].trialThr) :
    (∃ bits, Turns upParts n (fun p => withEvt bits (portUp (upSt s.ports[n].tryRate) s.ports[n].tryRate p)) s
      (judge s n)) ∧ setOut n s.ports[n].tryRate .go (w16 s.ports[n].tryRate) 0#16 ∈ (judge s n).out := by
  have hrate : txRate s n = s.ports[n].tryRate := by rw [txRate, hst]
  obtain ⟨bits, hup⟩ := linkUp_turns (sendTs s n .go (w16 s.ports[n].tryRate) 0#16) n s.ports[n].tryRate
  rw [judge_both hn ha hb, if_pos (by simpa using hgood)]
  refine ⟨⟨bits, (sendTs_passes s n _ _ _).turn hup⟩, hup.self.outs.subset ?_⟩
  rw [sendTs_ready hr (by decide), hrate]
  exact List.mem_cons_self

/-- The parent refuses the rate: TS_DOWN with reason 1, and the rate has failed. -/
theorem judge_fails {s : State} {n : PortN} {a b : Nat} (hn : n ≠ 0) (ha : s.ports[n].myErrs = some a)
    (hb : s.ports[n].hisErrs = some b) (hst : s.ports[n].st = .trial) (hr : txReady s n)
    (hbad : ¬ (a ≤ s.ports[n].trialThr ∧ b ≤ s.ports[n].trialThr)) :
    (judge s n).ports[n] = rateFailed n s.ports[n] ∧
      setOut n s.ports[n].tryRate .down (w16 s.ports[n].tryRate) 1#16 ∈ (judge s n).out ∧
      only [.ports, .out] s (judge s n) := by
  have hrate : txRate s n = s.ports[n].tryRate := by rw [txRate, hst]
  rw [judge_both hn ha hb, if_neg (by simpa using hbad), sendTs2_ready hr (by decide), hrate]
  exact ⟨modPort_self _ n _, List.mem_cons_self,
    ((emit_only s _).seq (emit_only _ _) (rs := [.out])).seq (modPort_only _ n _)⟩

/-- Settles O27: it holds. The child follows with `childTrial`, both ends realign with `enterRalign`, and the parent's
judgement is `judge_goes` or `judge_fails`. -/
theorem trials : Obligations.Trials := by
  unfold Obligations.Trials
  refine ⟨fun a0 a1 chk s hc h2 h4 hp hb hst hov => ?_, fun a0 a1 chk s hc h2 h4 hp hst ht hk hr => ?_,
    fun a0 a1 chk s hc h2 h4 hp hb hst hf => ?_, fun a0 a1 chk s hc hp => ?_, fun m a0 a1 chk s hc hst ht hk hr => ?_,
    fun n s hl => ?_, fun n clean a0 a1 chk s hc hst ht hcl => ?_, fun n rx s hl hst hmy hhis hr => ?_,
    fun n a0 a1 chk s hc hst ht hmy => ?_, fun m a0 a1 chk e s hc hst ht hmy hr h2 => ?_,
    fun a0 a1 chk s hc hst hp ht h2 => ?_, fun a0 a1 chk s hc hst ht hov => ?_, fun m a0 a1 chk s hc => ?_,
    fun m s hl hst hno => ?_, fun m r s hl hst htry hf hs => ?_⟩
  · have hrun := trialRx_up h2 h4 hp (.inl hb)
    simp only [hst, hov, if_true, childTrial_first hst] at hrun
    have hport := modPort_self s 0 (followed (tsRate a0) 1)
    exact ⟨_, onLink_onTs hc hrun, congrArg Port.st hport, congrArg Port.tryRate hport, congrArg Port.setRx hport,
      portsBut_modPort s 0 _, modPort_only s 0 _⟩
  · have hrun := trialRx_up h2 h4 hp (.inr (by simp [followsTrial, hst, ht, hk, -Fin.getElem_fin]))
    simp only [hst, childTrial_second hst ht hk] at hrun
    have hmod := modPort_turns s 0 (followed (tsRate a0) 2) fun _ => ⟨id, id⟩
    have hport := modPort_self s 0 (followed (tsRate a0) 2)
    have hrate : txRate (modPort s 0 (followed (tsRate a0) 2)) 0 = 1 := by
      rw [txRate, hport]
      rfl
    rw [sendTs2_ready (hmod.self.ready hr) (by decide), hrate] at hrun
    have hready : txReady (emit (emit (modPort s 0 (followed (tsRate a0) 2)) (setOut 0 1 .trial (w16 (tsRate a0)) 0#16))
        (setOut 0 1 .trial (w16 (tsRate a0)) 0#16)) 0 := hmod.self.ready hr
    obtain ⟨k, hk64, hout, hports, hframe⟩ := enterRalign_ready hready
    have htry : (modPort s 0 (followed (tsRate a0) 2)).ports[(0 : PortN)].tryRate = tsRate a0 := congrArg Port.tryRate hport
    have hat := (congrArg (fun v : Vector Port 17 => v[(0 : PortN)]) hports).trans (modPort_self _ 0 _)
    refine ⟨_, onLink_onTs hc hrun, (congrArg Port.st hat :), ⟨k, hk64, ?_⟩, fun j hj => ?_, ?_⟩
    · refine hout.trans ?_
      show _ :: _ :: _ :: _ = _
      rw [show (emit (emit (modPort s 0 (followed (tsRate a0) 2)) (setOut 0 1 .trial (w16 (tsRate a0)) 0#16))
        (setOut 0 1 .trial (w16 (tsRate a0)) 0#16)).ports[(0 : PortN)].tryRate = tsRate a0 from htry]
      rfl
    · exact (congrArg (fun v : Vector Port 17 => v[j]) hports).trans
        ((portsBut_modPort _ 0 _ j hj).trans (portsBut_modPort s 0 _ j hj))
    · exact (((modPort_only s 0 _).seq (emit_only _ _) (rs := [.ports, .out])).seq (emit_only _ _)
        (rs := [.ports, .out])).seq hframe
  · have hrun := trialRx_up h2 h4 hp (.inl hb)
    simp only [hst, childTrial_busy hst hf] at hrun
    have hport := modPort_self s 0 fun q => { q with
      tryRate := tsRate a0
      setRx := if s.ports[(0 : PortN)].tryRate = tsRate a0 then min 2 (s.ports[(0 : PortN)].setRx + 1) else 1 }
    exact ⟨_, onLink_onTs hc hrun, (congrArg Port.st hport).trans hst, (congrArg Port.rate hport :),
      (congrArg Port.tryRate hport :), (congrArg Port.setRx hport :), portsBut_modPort s 0 _, modPort_only s 0 _⟩
  · exact onLink_onTs hc (trialRx_firc hp)
  · obtain ⟨k, hk64, hout, hports, hframe⟩ := enterRalign_ready hr
    rw [ht] at hout
    have hport := (congrArg (fun v : Vector Port 17 => v[dnPort m]) hports).trans (modPort_self s (dnPort m) _)
    exact ⟨_, onLink_onTs hc (trialRx_down m hst ht hk), (congrArg Port.st hport :), ⟨k, hk64, hout⟩,
      fun j hj => (congrArg (fun v : Vector Port 17 => v[j]) hports).trans (portsBut_modPort s (dnPort m) _ j hj), hframe⟩
  · obtain ⟨h1, h2, h3, h4, h5⟩ := failRate_rule s n
    refine ⟨fun hst => ⟨_, onLink_eq hl (whenDo_holds (by simpa using hst)), h1, h2, h3, h4, h5⟩,
      fun hst => ⟨_, onLink_eq hl (whenDo_holds (by simpa using hst)), h1, h2, h3, h4, h5⟩, fun hst hr => ?_⟩
    have hrate : txRate s n = s.ports[n].tryRate := by rw [txRate, hst]
    have hrun : whenDo (decide (s.ports[n].st = .trial))
        (fun s => failRate (sendTs2 s n .down (w16 s.ports[n].tryRate) 2#16) n) s = _ := whenDo_holds (by simpa using hst)
    rw [sendTs2_ready hr (by decide), hrate] at hrun
    obtain ⟨g1, g2, g3, g4, g5⟩ := failRate_rule (emit (emit s
      (setOut n s.ports[n].tryRate .down (w16 s.ports[n].tryRate) 2#16))
      (setOut n s.ports[n].tryRate .down (w16 s.ports[n].tryRate) 2#16)) n
    exact ⟨_, onLink_eq hl hrun, g1, g2, fun hn => (g3 hn).1, rfl, g4,
      ((emit_only s _).seq (emit_only _ _) (rs := [.out])).seq g5⟩
  · have hrun := readyRx_counts hst ht hcl
    refine ⟨_, onLink_onTs hc hrun, fun h0 => ?_, fun h0 => ?_, fun j hj => ?_, ?_⟩
    · rw [if_pos h0]
      exact ⟨modPort_self s n _, rfl⟩
    · rw [if_neg h0]
      exact ⟨modPort_self s n _, rfl⟩
    · split
      · exact portsBut_modPort s n _ j hj
      · exact portsBut_modPort s n _ j hj
    · exact only_ite _ (modPort_only s n _).widen ((modPort_only s n _).seq (emit_only _ _))
  · have hmod := modPort_turns s n fun p => { p with myErrs := some (min 65535 (trialErrs prbsSeed rx)) }
    have hport := modPort_self s n fun p => { p with myErrs := some (min 65535 (trialErrs prbsSeed rx)) }
    have hrate : txRate (modPort s n fun p => { p with myErrs := some (min 65535 (trialErrs prbsSeed rx)) }) n =
        s.ports[n].tryRate := by
      rw [txRate, hport, hst]
    have hrun : trialSent s n (min 65535 (trialErrs prbsSeed rx)) = _ := if_neg (by simp [hst, hmy, -Fin.getElem_fin])
    rw [sendTs_ready (hmod.self.ready hr) (by decide), hrate, judge_open ?_] at hrun
    · exact ⟨_, onLink_eq hl hrun, hport, portsBut_modPort s n _, rfl, (modPort_only s n _).seq (emit_only _ _)⟩
    · exact hhis.imp_right fun h => .inr ((congrArg Port.hisErrs hport :).trans h)
  · have hport := modPort_self s n fun p => { p with hisErrs := some a1.toNat }
    have hrun := (resultRx_counts hst ht a1).trans
      (judge_open (hmy.imp_right fun h => .inl ((congrArg Port.myErrs hport :).trans h)))
    exact ⟨_, onLink_onTs hc hrun, hport, portsBut_modPort s n _, modPort_only s n _⟩
  · have hmod := modPort_turns s (dnPort m) fun p => { p with hisErrs := some a1.toNat }
    have hport := modPort_self s (dnPort m) fun p => { p with hisErrs := some a1.toNat }
    have hmy' : (modPort s (dnPort m) fun p => { p with hisErrs := some a1.toNat }).ports[dnPort m].myErrs = some e :=
      (congrArg Port.myErrs hport :).trans hmy
    have hhis : (modPort s (dnPort m) fun p => { p with hisErrs := some a1.toNat }).ports[dnPort m].hisErrs =
        some a1.toNat := (congrArg Port.hisErrs hport :)
    have htry : (modPort s (dnPort m) fun p => { p with hisErrs := some a1.toNat }).ports[dnPort m].tryRate = tsRate a0 :=
      (congrArg Port.tryRate hport :).trans ht
    have hst' : (modPort s (dnPort m) fun p => { p with hisErrs := some a1.toNat }).ports[dnPort m].st = .trial :=
      (congrArg Port.st hport :).trans hst
    have hthr : (modPort s (dnPort m) fun p => { p with hisErrs := some a1.toNat }).ports[dnPort m].trialThr =
        s.ports[dnPort m].trialThr := (congrArg Port.trialThr hport :)
    have hup : upSt (tsRate a0) = .active := if_neg (by omega)
    have hgoes := judge_goes (dnPort_ne_zero m) hmy' hhis hst' (hmod.self.ready hr)
    have hfails := judge_fails (dnPort_ne_zero m) hmy' hhis hst' (hmod.self.ready hr)
    rw [hthr, htry] at hgoes hfails
    refine ⟨_, onLink_onTs hc (resultRx_counts hst ht a1), fun hgood => ?_, fun hbad => ?_, ?_⟩
    · obtain ⟨⟨bits, hturn⟩, hgo⟩ := hgoes hgood
      have hall := hmod.seq hturn (rs := upParts)
      exact ⟨(congrArg Port.st hall.self.port :).trans hup, (congrArg Port.rate hall.self.port :),
        (congrArg Port.epoch hall.self.port :), hgo⟩
    · obtain ⟨hfail, hdown, -⟩ := hfails hbad
      obtain ⟨h1, -, h3⟩ := rateFailed_fields (dnPort m)
        (modPort s (dnPort m) fun p => { p with hisErrs := some a1.toNat }).ports[dnPort m]
      rw [hfail]
      exact ⟨h1, (h3 (dnPort_ne_zero m)).1.trans htry, hdown⟩
    · by_cases hgood : e ≤ s.ports[dnPort m].trialThr ∧ a1.toNat ≤ s.ports[dnPort m].trialThr
      · obtain ⟨⟨bits, hturn⟩, -⟩ := hgoes hgood
        exact (hmod.seq hturn (rs := upParts)).self.parts
      · obtain ⟨-, -, hframe⟩ := hfails hgood
        exact hmod.self.parts.seq hframe
  · have hrun : goRx s (tsRate a0) = linkUp s 0 (tsRate a0) := by
      simp only [goRx, hst, ht, hp, decide_true, Bool.and_self, if_true]
    obtain ⟨bits, hport⟩ := linkUp_port s 0 (tsRate a0)
    obtain ⟨upBits, hup⟩ := linkUp_turns s 0 (tsRate a0)
    exact ⟨_, onLink_onTs hc ((if_pos rfl).trans hrun), (congrArg Port.st hport :).trans (if_neg (by omega)),
      (congrArg Port.rate hport :), (congrArg Port.ptx hport :), (congrArg Port.ntx hport :), hup.self.parts⟩
  · have hrun : goRx s (tsRate a0) = linkUp s 0 1 := by
      simp only [goRx, hst, ht, hov, decide_true, Bool.and_self, if_true]
    obtain ⟨bits, hport⟩ := linkUp_port s 0 1
    obtain ⟨upBits, hup⟩ := linkUp_turns s 0 1
    exact ⟨_, onLink_onTs hc ((if_pos rfl).trans hrun), (congrArg Port.st hport :), (congrArg Port.rate hport :),
      hup.self.parts⟩
  · exact onLink_onTs hc (if_neg (dnPort_ne_zero m))
  · have hrun := reeval_paddle_stays (dnPort_ne_zero m) hst hno
    exact ⟨_, onLink_eq hl ((whenDo_holds (by simpa using hst)).trans hrun), modPort_self s (dnPort m) _,
      portsBut_modPort s (dnPort m) _, modPort_only s (dnPort m) _⟩
  · have hdown := linkDown_turns s (dnPort m) 10
    have ht := hdown.seq (startTrial_turns (notSusp_of_hold hdown.self.hold hs) r) (rs := .pps :: downParts)
    have hrun := reeval_paddle_tries (dnPort_ne_zero m) hst htry hf
    exact ⟨_, onLink_eq hl ((whenDo_holds (by simpa using hst)).trans hrun), (congrArg Port.st ht.self.port :),
      (congrArg Port.tryRate ht.self.port :), (congrArg Port.rate ht.self.port :), ht.self.parts.widen⟩

end Sys2Proof.Machine
end

section
/-! SUPPORT. The bits of a word, and the rows that write PORT_CTRL (R8, R72, R76, R77). -/

namespace Sys2Proof.Machine

open Sys2Proof Sys2Proof.Safety

-- One proof after the other: side by side, the proofs of one text wait for each other in too many threads.
set_option Elab.async false


/-! ## The bits of a word -/

@[simp] theorem bit_or (v w : Word) (i : Nat) : bit (v ||| w) i = (bit v i || bit w i) := BitVec.getLsbD_or

@[simp] theorem bit_and (v w : Word) (i : Nat) : bit (v &&& w) i = (bit v i && bit w i) := BitVec.getLsbD_and

theorem bit_not (v : Word) (i : Nat) : bit (~~~v) i = (decide (i < 16) && !bit v i) := BitVec.getLsbD_not

theorem bit_twoPow (i j : Nat) : bit (BitVec.ofNat 16 (2 ^ i)) j = (decide (i = j) && decide (j < 16)) := by
  rw [bit, BitVec.getLsbD_ofNat, Nat.testBit_two_pow, Bool.and_comm]

theorem bit_atBit (b : Bool) (i j : Nat) : bit (atBit b i) j = (b && decide (i = j) && decide (j < 16)) := by
  cases b
  · simp [atBit, bit]
  · rw [atBit, if_pos rfl, bit_twoPow, Bool.true_and]

theorem bit_atBit_ne {i j : Nat} (b : Bool) (h : i ≠ j) : bit (atBit b i) j = false := by
  simp [bit_atBit, h]

theorem bit_atFld_low (v : Nat) {lo i : Nat} (len : Nat) (h : i < lo) : bit (atFld v lo len) i = false := by
  have hlow : Nat.testBit (v % 2 ^ len * 2 ^ lo) i = false := by
    rw [Nat.testBit_mul_two_pow]
    simp [Nat.not_le.mpr h]
  simp [bit, atFld, BitVec.getLsbD_ofNat, hlow]

theorem bit_setBit_self (w : Word) (b : Bool) {i : Nat} (h : i < 16) : bit (setBit w i b) i = b := by
  rw [setBit, bit_or, bit_and, bit_not, bit_twoPow, bit_atBit]
  simp [h]

theorem bit_setBit_ne (w : Word) (b : Bool) {i j : Nat} (h : i ≠ j) (hj : j < 16) :
    bit (setBit w i b) j = bit w j := by
  rw [setBit, bit_or, bit_and, bit_not, bit_twoPow, bit_atBit_ne b h]
  simp [h, hj]

/-! ## PORT_CTRL -/

theorem ctrlNow_en (s : State) (n : PortN) : bit (ctrlNow s n) 0 = s.ports[n].en := by
  have hmask : bit 0xFFF3#16 0 = true := by decide
  have hzero : bit 0#16 0 = false := by decide
  simp only [ctrlNow, portCtrl, orAll, List.foldl_cons, List.foldl_nil, bit_or, bit_and, hmask, hzero, bit_atBit,
    bit_atFld_low _ 3 (show 0 < 4 by omega), bit_atFld_low _ 5 (show 0 < 11 by omega)]
  simp

/-- The write-1 bits of PORT_CTRL read 0 as the rows write it back. -/
theorem ctrlNow_w1 (s : State) (n : PortN) : bit (ctrlNow s n) 2 = false ∧ bit (ctrlNow s n) 3 = false := by
  have h2 : bit 0xFFF3#16 2 = false := by decide
  have h3 : bit 0xFFF3#16 3 = false := by decide
  exact ⟨by rw [ctrlNow, bit_and, h2, Bool.and_false], by rw [ctrlNow, bit_and, h3, Bool.and_false]⟩

theorem regAtWord_portCtrl (n : PortN) : regAtWord (portOff0 n / 4) = some (.port n .ctrl) := by
  revert n
  decide

theorem regRow_portCtrl {p : Path} {s : State} (n : PortN) (v : Word) (h : reaches s p = true) :
    regRow p (portOff0 n) v s = .next (portCtrlWrite s n v) :=
  regRow_reaches s p _ v _ h (by unfold portOff0; omega) (by unfold portOff0; omega) (regAtWord_portCtrl n)

/-- A row that sets EN writes the fields back, and acts by the state of the port. -/
theorem exec_portEnable {p : Path} {n : PortN} {s : State} (h : reaches s p = true) :
    exec (.portEnable p n) s = .next (portOnWrite (modPort s n (portCtrlPut (ctrlNow s n ||| 0x0001#16))) n) := by
  obtain ⟨h2, h3⟩ := ctrlNow_w1 s n
  refine (regRow_portCtrl n _ h).trans (congrArg Host.Outcome.next ?_)
  simp only [portCtrlWrite, portEnWrite, bit_or, h2, h3, ctrlNow_en, show bit 0x0001#16 0 = true by decide,
    show bit 0x0001#16 2 = false by decide, show bit 0x0001#16 3 = false by decide, Bool.or_true, Bool.or_self, if_true]
  rfl

theorem exec_portDisable {p : Path} {n : PortN} {s : State} (h : reaches s p = true) :
    exec (.portDisable p n) s = .next (portOff (modPort s n (portCtrlPut (setBit (ctrlNow s n) 0 false))) n) := by
  obtain ⟨h2, h3⟩ := ctrlNow_w1 s n
  refine (regRow_portCtrl n _ h).trans (congrArg Host.Outcome.next ?_)
  have h0 : bit (setBit (ctrlNow s n) 0 false) 0 = false := bit_setBit_self _ _ (by omega)
  rw [← bit_setBit_ne (ctrlNow s n) false (i := 0) (j := 2) (by omega) (by omega)] at h2
  rw [← bit_setBit_ne (ctrlNow s n) false (i := 0) (j := 3) (by omega) (by omega)] at h3
  simp only [portCtrlWrite, portEnWrite, h0, h2, h3]
  rfl

theorem portOnWrite_running {s : State} {n : PortN} (h : s.ports[n].st ≠ .disabled) (h' : s.ports[n].st ≠ .disabling) :
    portOnWrite s n = modPort s n fun p => { p with en := true } := by
  unfold portOnWrite
  split
  · contradiction
  · contradiction
  · rfl

/-- Port n with EN written back, as a row that sets a write-1 bit leaves it. -/
def ctrlKept (v : Word) (p : Port) : Port := { portCtrlPut v p with en := true }

theorem modPort_modPort (s : State) (n : PortN) (f g : Port → Port) :
    modPort (modPort s n f) n g = modPort s n fun p => g (f p) := by
  have hports : (modPort (modPort s n f) n g).ports = (modPort s n fun p => g (f p)).ports := by
    refine Vector.ext fun i hi => ?_
    by_cases h : i = n.val
    · subst h
      exact (modPort_self (modPort s n f) n g).trans
        ((congrArg g (modPort_self s n f)).trans (modPort_self s n fun p => g (f p)).symm)
    · have hne : (⟨i, hi⟩ : PortN) ≠ n := fun h' => h (congrArg Fin.val h')
      exact (modPort_ne (modPort s n f) n ⟨i, hi⟩ g hne).trans
        ((modPort_ne s n ⟨i, hi⟩ f hne).trans (modPort_ne s n ⟨i, hi⟩ _ hne).symm)
  exact congrArg (fun v : Vector Port 17 => ({ s with ports := v } : State)) hports

theorem exec_portRetrain {p : Path} {n : PortN} {s : State} (h : reaches s p = true) (he : s.ports[n].en = true)
    (hu : isUp s.ports[n] = true) : ∃ v, exec (.portRetrain p n) s =
      .next (retrainWrite (modPort s n (ctrlKept v)) n) := by
  obtain ⟨h2, h3⟩ := ctrlNow_w1 s n
  refine ⟨ctrlNow s n ||| 0x0004#16, (regRow_portCtrl n _ h).trans (congrArg Host.Outcome.next ?_)⟩
  have hst := congrArg Port.st (modPort_self s n (portCtrlPut (ctrlNow s n ||| 0x0004#16)))
  have hon : s.ports[n].st ≠ .disabled ∧ s.ports[n].st ≠ .disabling := by
    constructor <;> intro hst <;> simp [isUp, hst, -Fin.getElem_fin] at hu
  simp only [portCtrlWrite, portEnWrite, bit_or, h2, h3, ctrlNow_en, he, show bit 0x0004#16 0 = false by decide,
    show bit 0x0004#16 2 = true by decide, show bit 0x0004#16 3 = false by decide, Bool.or_true, Bool.or_false,
    Bool.or_self, if_true]
  rw [portOnWrite_running (fun h => hon.1 (hst.symm.trans h)) (fun h => hon.2 (hst.symm.trans h)), modPort_modPort]
  rfl

theorem exec_portCntClr {p : Path} {n : PortN} {s : State} (h : reaches s p = true) (he : s.ports[n].en = true)
    (h1 : s.ports[n].st ≠ .disabled) (h1' : s.ports[n].st ≠ .disabling) : ∃ v, exec (.portCntClr p n) s =
      .next (portCntClr (modPort s n (ctrlKept v)) n) := by
  obtain ⟨h2, h3⟩ := ctrlNow_w1 s n
  refine ⟨ctrlNow s n ||| 0x0008#16, (regRow_portCtrl n _ h).trans (congrArg Host.Outcome.next ?_)⟩
  have hst := congrArg Port.st (modPort_self s n (portCtrlPut (ctrlNow s n ||| 0x0008#16)))
  simp only [portCtrlWrite, portEnWrite, bit_or, h2, h3, ctrlNow_en, he, show bit 0x0008#16 0 = false by decide,
    show bit 0x0008#16 2 = false by decide, show bit 0x0008#16 3 = true by decide, Bool.or_true, Bool.or_false,
    Bool.or_self, if_true]
  rw [portOnWrite_running (fun h => h1 (hst.symm.trans h)) (fun h => h1' (hst.symm.trans h)), modPort_modPort]
  rfl

end Sys2Proof.Machine
end

section
/-! PROOF. How links go down and retrain (O28). -/

namespace Sys2Proof.Machine

open Sys2Proof Sys2Proof.Safety

-- One proof after the other: side by side, the proofs of one text wait for each other in too many threads.
set_option Elab.async false


/-! ## A retrain of a port that has been written or has an event (R72, R73) -/

/-- What PORT_STAT and the transmit rate of a port depend on: not its traffic, its events, its cap nor PORT_CTRL. -/
def shown (p : Port) : Port :=
  { standing p with
    evt := 0#16, cap := 0, retrain := false, en := false, optical := false, maxRate := 0, fragEn := false
    floodMax := 0 }

theorem portStat_of_shown {s t : State} {n : PortN} (h : shown t.ports[n] = shown s.ports[n]) :
    portStat t n = portStat s n := by
  have hst : t.ports[n].st = s.ports[n].st := (congrArg Port.st h :)
  have hrate : t.ports[n].rate = s.ports[n].rate := (congrArg Port.rate h :)
  have hdefer : t.ports[n].defer = s.ports[n].defer := (congrArg Port.defer h :)
  have hflood : t.ports[n].flooding = s.ports[n].flooding := (congrArg Port.flooding h :)
  have hp0 : t.ports[n].pcap0 = s.ports[n].pcap0 := (congrArg Port.pcap0 h :)
  have hfrag : t.ports[n].fragSent = s.ports[n].fragSent := (congrArg Port.fragSent h :)
  have hhold : t.ports[n].hold = s.ports[n].hold := (congrArg Port.hold h :)
  simp only [portStat, isUp, fragOn, hst, hrate, hdefer, hflood, hp0, hfrag, hhold]

theorem txRate_of_shown {s t : State} {n : PortN} (h : shown t.ports[n] = shown s.ports[n]) :
    txRate t n = txRate s n := by
  have hst : t.ports[n].st = s.ports[n].st := (congrArg Port.st h :)
  have hrate : t.ports[n].rate = s.ports[n].rate := (congrArg Port.rate h :)
  have htry : t.ports[n].tryRate = s.ports[n].tryRate := (congrArg Port.tryRate h :)
  simp only [txRate, hst, hrate, htry]

theorem Turns.shows {ps : List Part} {n : PortN} {f : Port → Port} {s t : State} (h : Turns ps n f s t)
    (hf : ∀ p, shown (f p) = shown p := by exact fun _ => rfl) : shown t.ports[n] = shown s.ports[n] :=
  (congrArg shown h.self.port :).trans (hf _)

theorem Turns.retrain_sends {ps : List Part} {n : PortN} {f : Port → Port} {s t : State} (h : Turns ps n f s t)
    (hs : notSusp s n) (reason : Nat) (hf : ∀ p, shown (f p) = shown p := by exact fun _ => rfl) :
    sentTwice s (retrain t n reason) (setOut n (txRate s n) .down (w16 s.ports[n].rate) (w16 reason)) := by
  have hrate : t.ports[n].rate = s.ports[n].rate := (congrArg Port.rate (h.shows hf) :)
  rw [← txRate_of_shown (h.shows hf), ← hrate]
  exact sentTwice_after h.self.outs (Machine.retrain_sends (notSusp_of_hold h.self.hold hs) reason)

theorem Turns.retrain_logged {ps : List Part} {n : PortN} {f : Port → Port} {s t : State} {used : Nat}
    (h : Turns ps n f s t) (hs : notSusp s n) (reason : Nat) (hq : t.que.bbf.length ≤ s.que.bbf.length + used)
    (hf : ∀ p, shown (f p) = shown p := by exact fun _ => rfl) (htb : Part.tb ∉ ps := by decide) :
    downLogged s (retrain t n reason) n (w16 reason) used := by
  intro hroom
  have hnow : now t = now s := congrArg (fun b : Tb => b.time.toNat) (h.self.parts .tb htb)
  rw [← portStat_of_shown (h.shows hf), ← hnow]
  exact Machine.retrain_logged (notSusp_of_hold h.self.hold hs) reason (by omega)

/-! ## Error retrains (R72, R73) -/

/-- The cap that an error retrain leaves: one below the rate of an ACTIVE that has lasted less than 1 s (R73). -/
def errCap (within1s : Bool) (p : Port) : Nat := if p.st = .active ∧ within1s = true then p.rate - 1 else p.cap

/-- A port as an error retrain finds it: with its event, and capped. -/
def capped (bits : Word) (c : Nat) (p : Port) : Port := { withEvt bits p with cap := c }

/-- The parts in which an error retrain shows. -/
def errParts : List Part := [.bb, .pps, .aon, .doms, .ula, .que, .ports, .tt, .tb, .sur, .out]

theorem errRetrain_eq {s t : State} {n : PortN} {bits : Word} {ps : List Part} (h : Turns ps n (withEvt bits) s t)
    (reason : Nat) (within1s : Bool) : errRetrain t n reason within1s =
      retrain (modPort t n fun q => { q with cap := errCap within1s s.ports[n] }) n reason := by
  have hst : t.ports[n].st = s.ports[n].st := (congrArg Port.st h.self.port :)
  have hrate : t.ports[n].rate = s.ports[n].rate := (congrArg Port.rate h.self.port :)
  have hcap : t.ports[n].cap = s.ports[n].cap := (congrArg Port.cap h.self.port :)
  have hnext : (if t.ports[n].st = .active && within1s then t.ports[n].rate - 1 else t.ports[n].cap) =
      errCap within1s s.ports[n] := by
    rw [hst, hrate, hcap, errCap]
    simp only [Bool.and_eq_true, decide_eq_true_eq]
  rw [errRetrain, hnext]

/-- An error retrain of a port without a suspend: ALIGN with the cap, two TS_DOWN, and the entry that logs it. -/
theorem errRetrain_rule {s t : State} {n : PortN} {bits : Word} {ps : List Part} {used : Nat}
    (h : Turns ps n (withEvt bits) s t) (hs : notSusp s n) (reason : Nat) (within1s : Bool)
    (hq : t.que.bbf.length ≤ s.que.bbf.length + used) (hp : ∀ p ∈ ps, p ∈ errParts := by decide)
    (htb : Part.tb ∉ ps := by decide) :
    let u := errRetrain t n reason within1s
    u.ports[n].st = .align ∧ u.ports[n].evt = s.ports[n].evt ||| (bits ||| 0x0002#16) ∧
      u.ports[n].cap = errCap within1s s.ports[n] ∧
      sentTwice s u (setOut n (txRate s n) .down (w16 s.ports[n].rate) (w16 reason)) ∧
      downLogged s u n (w16 reason) used ∧ only errParts s u := by
  have hcap : Turns (.ports :: ps) n (capped bits (errCap within1s s.ports[n])) s
      (modPort t n fun q => { q with cap := errCap within1s s.ports[n] }) :=
    (h.seq (modPort_turns t n fun q => { q with cap := errCap within1s s.ports[n] })
      (fun _ hx => List.mem_cons_of_mem _ hx) (by simp) (fun _ => rfl)).as
  have hback := hcap.seq (retrain_turns (notSusp_of_hold hcap.self.hold hs) reason) (rs := errParts)
    (List.forall_mem_cons.mpr ⟨by decide, hp⟩)
  rw [errRetrain_eq h]
  exact ⟨(congrArg Port.st hback.self.port :), ((congrArg Port.evt hback.self.port :)).trans (BitVec.or_assoc _ _ _),
    (congrArg Port.cap hback.self.port :), hcap.retrain_sends hs reason,
    hcap.retrain_logged hs reason hq (fun _ => rfl) (by simp [htb]), hback.self.parts⟩

/-- A link that errors take down retrains with ERRTRN and reason 3 (R72). -/
theorem errorRetrain_rule {s : State} {n : PortN} (hs : notSusp s n) (within1s : Bool) :
    let u := errorRetrain s n within1s
    u.ports[n].st = .align ∧ u.ports[n].evt = s.ports[n].evt ||| 0x0202#16 ∧
      u.ports[n].cap = errCap within1s s.ports[n] ∧
      sentTwice s u (setOut n (txRate s n) .down (w16 s.ports[n].rate) 3#16) ∧ downLogged s u n 3#16 0 ∧
      only errParts s u :=
  errRetrain_rule (portEvt_turns s n 0x0200#16) hs 3 within1s (by rw [portEvt_bbf]; omega)

/-! ## TS_DOWN, TS_DIS and RETRAIN (R72) -/

theorem downRx_up {s : State} {n : PortN} (h : isUp s.ports[n] = true) (hs : notSusp s n) (reason : Nat) :
    downRx s n reason = modPort (linkDown s n reason) n portAlign := by
  have hturn := (linkDown_turns s n reason).seq (modPort_turns _ n portAlign fun _ => ⟨id, id⟩) (rs := downParts)
  have hrun : downRx s n reason = suspHold (modPort (linkDown s n reason) n portAlign) n := by
    unfold downRx
    rcases hst : s.ports[n].st <;> simp_all [isUp, -Fin.getElem_fin]
  exact hrun.trans (suspHold_notSusp (notSusp_of_hold hturn.self.hold hs))

theorem downRx_trial {s : State} {n : PortN} (h : s.ports[n].st ∈ [.switch, .ralign, .trial]) (reason : Nat) :
    downRx s n reason = failRate s n := by
  unfold downRx
  rcases hst : s.ports[n].st <;> simp_all [-Fin.getElem_fin]

theorem disRx_first {s : State} {n : PortN} (hu : isUp s.ports[n] = true) (h : s.ports[n].disRx = 0) :
    disRx s n = modPort s n fun p => { p with disRx := 1 } := by
  unfold disRx
  rw [if_neg (by rw [hu]; decide), if_pos h]

theorem disRx_second {s : State} {n : PortN} (hu : isUp s.ports[n] = true) (h : s.ports[n].disRx ≠ 0) :
    disRx s n = toDetect (linkDown s n 8) n false := by
  unfold disRx
  rw [if_neg (by rw [hu]; decide), if_neg h]

/-- A port that RETRAIN takes down: its cap is cleared, and RETRAIN reads 1. -/
theorem retrainWrite_up {s : State} {n : PortN} (hu : isUp s.ports[n] = true) :
    retrainWrite s n = modPort (retrain (modPort s n fun q => { q with cap := 4 }) n 5) n
      fun q => { q with retrain := decide (q.st = .align) } := by
  unfold retrainWrite
  rcases hst : s.ports[n].st <;> simp_all [isUp, -Fin.getElem_fin]


theorem bbLink_length (s : State) (code src : Nat) (w2 w3 : Word) :
    (bbLink s code src w2 w3).que.bbf.length ≤ s.que.bbf.length + 1 := by
  rw [bbLink_bbf]
  unfold bbfPush
  split <;> simp

/-- Settles O28: it holds.  Each row is a link-down or a retrain, after the event, the entry and the cap of its own
reason. -/
theorem linksGoDown : Obligations.LinksGoDown := by
  unfold Obligations.LinksGoDown
  refine ⟨fun n a0 a1 chk s hc hu hs => ?_, fun n a0 a1 chk s hc hst => ?_, fun n a0 a1 chk s hc hu => ?_,
    fun n w s hl hu ho hs => ?_, fun n w s hl hu hf hs => ?_, fun n w s hl hu hf hs => ?_, fun p n s hp he hu hs => ?_⟩
  · have ht := (linkDown_turns s n a1.toNat).seq (modPort_turns _ n portAlign fun _ => ⟨id, id⟩) (rs := downParts)
    have hlog := linkDown_logged s n a1.toNat
    rw [show w16 a1.toNat = a1 from BitVec.ofNat_toNat 16 a1] at hlog
    exact ⟨_, onLink_onTs hc (downRx_up hu hs a1.toNat), (congrArg Port.st ht.self.port :), (congrArg Port.rate ht.self.port :),
      (congrArg Port.evt ht.self.port :), hlog, ht.self.parts.widen⟩
  · obtain ⟨hal, hfrom, -, hbut, hframe⟩ := failRate_rule s n
    exact ⟨_, onLink_onTs hc (downRx_trial hst a1.toNat), hal, hfrom, hbut, hframe⟩
  · by_cases hd : s.ports[n].disRx = 0
    · exact ⟨_, onLink_onTs hc (disRx_first hu hd), fun _ => modPort_self s n _, fun h => absurd hd h,
        (modPort_only s n _).widen⟩
    · have hdown := linkDown_turns s n 8
      obtain ⟨hports, -, hframe⟩ := toDetect_rule (linkDown s n 8) n false
      have hat : standing (toDetect (linkDown s n 8) n false).ports[n] = _ :=
        (congrArg (fun v : Vector Port 17 => standing v[n]) hports).trans
          (hdown.seq (detectNow_turns _ n false) (rs := .pps :: downParts)).self.port
      have hque : (toDetect (linkDown s n 8) n false).que = (linkDown s n 8).que := hframe .que (by decide)
      refine ⟨_, onLink_onTs hc (disRx_second hu hd), fun h => absurd h hd, fun _ => ⟨(congrArg Port.st hat :),
        (congrArg Port.rate hat :), fun hroom => ?_⟩, hdown.self.parts.seq hframe⟩
      rw [hque]
      exact linkDown_logged s n 8 hroom
  · exact ⟨_, onLink_eq hl (whenDo_holds (by rw [hu, ho]; rfl)), errorRetrain_rule hs w⟩
  · exact ⟨_, onLink_eq hl (whenDo_holds (by rw [hu, hf]; rfl)), errorRetrain_rule hs w⟩
  · have hlogged := (portEvt_turns s n 0x0020#16).pass
      (bbLink_passes _ 0x32 n.val (portFlood s.ports[n]) 0#16) (rs := .bb :: .ports :: evParts)
    have hlen := bbLink_length (portEvt s n 0x0020#16) 0x32 n.val (portFlood s.ports[n]) 0#16
    rw [portEvt_bbf] at hlen
    exact ⟨_, onLink_eq hl (whenDo_holds (by rw [hu, hf]; rfl)), errRetrain_rule hlogged hs 4 w hlen⟩
  · obtain ⟨v, hrow⟩ := exec_portRetrain hp he hu
    have hkept := modPort_turns s n (ctrlKept v) fun _ => ⟨id, id⟩
    have hcap := hkept.seq (modPort_turns _ n fun q => { q with cap := 4 }) (rs := [.ports])
    have ht := (hcap.seq (retrain_turns (notSusp_of_hold hcap.self.hold hs) 5) (rs := errParts)).seq
      (modPort_turns _ n fun q => { q with retrain := decide (q.st = .align) }) (rs := errParts)
    have hup : isUp (modPort s n (ctrlKept v)).ports[n] = true :=
      (congrArg isUp (modPort_self s n (ctrlKept v))).trans hu
    rw [retrainWrite_up hup] at hrow
    exact ⟨_, hrow, (congrArg Port.st ht.self.port :), (congrArg Port.cap ht.self.port :),
      (congrArg Port.retrain ht.self.port :), hcap.retrain_sends hs 5, hcap.retrain_logged hs 5 (Nat.le_refl _),
      ht.self.parts⟩

end Sys2Proof.Machine
end

section
/-! PROOF. Floods, and the control of a port by PORT_CTRL (O29). -/

namespace Sys2Proof.Machine

open Sys2Proof Sys2Proof.Safety

-- One proof after the other: side by side, the proofs of one text wait for each other in too many threads.
set_option Elab.async false


/-! ## Floods (R74, R61) -/

theorem floodStart_electrical {s : State} {n : PortN} {f : Bool} (h : s.ports[n].optical = false) :
    floodStart s n f = s := by
  simp only [floodStart, h, Bool.not_false, if_true]

theorem floodStart_joined {s : State} {n : PortN} {f : Bool} (h : s.ports[n].optical = true)
    (hf : s.ports[n].flooding = true) : floodStart s n f = modPort s n fun q => { q with fld := q.fld || f } := by
  simp only [floodStart, h, hf, Bool.not_true, Bool.false_eq_true, if_true, if_false]

/-- A port on which an episode starts; `lost` says that it was receiving a packet. -/
def flooded (f lost : Bool) (p : Port) : Port :=
  withEvt 0x0010#16
    { p with
      flooding := true, fld := f, floodEp := satInc 255 p.floodEp
      floodDisc := if lost then satInc 255 p.floodDisc else p.floodDisc }

theorem floodStart_turns {s : State} {n : PortN} (f : Bool) (h : s.ports[n].optical = true)
    (hf : s.ports[n].flooding = false) : Turns [.aon, .doms, .ula, .que, .ports, .tt, .out] n
      (flooded f (rxGood s.ports[n]).isSome) s (floodStart s n f) := by
  have hstart := modPort_turns s n fun q =>
    { q with flooding := true, fld := f, floodEp := satInc 255 q.floodEp }
  unfold floodStart
  simp only [h, hf, Bool.not_true, Bool.false_eq_true, if_false]
  cases rxGood s.ports[n] with
  | none => exact (hstart.seq (portEvt_turns _ n _) (rs := [.aon, .doms, .ula, .que, .ports, .tt, .out])).as
  | some r =>
    have hlost := (hstart.pass (spoilRx_passes _ n r.pid 2) (rs := [.ula, .ports, .tt, .out])).seq
      (modPort_turns _ n fun p => { p with floodDisc := satInc 255 p.floodDisc }) (rs := [.ula, .ports, .tt, .out])
    exact (hlost.seq (portEvt_turns _ n _) (rs := [.aon, .doms, .ula, .que, .ports, .tt, .out])).as

/-- At a boundary of a link the tally is asked for at once. -/
theorem wantTally_sends {s : State} {n : PortN} (hu : isUp s.ports[n] = true) (hw : s.ports[n].tallyWait = 0)
    (hr : txReady s n) : (wantTally s n).out = setOut n (txRate s n) .tallyReq 0#16 0#16 :: s.out ∧
      (wantTally s n).ports[n].tallyWait = 25600 ∧ (wantTally s n).ports[n].tallyDue = false := by
  have hdue := modPort_self s n fun p => { p with tallyDue := true }
  have hfree := (txReady_modPort (f := fun p => { p with tallyDue := true }) hr).1
  have hasked := modPort_self (modPort s n fun p => { p with tallyDue := true }) n
    fun q => { q with tallyDue := false, tallyWait := 25600 }
  have hready : txReady (modPort (modPort s n fun p => { p with tallyDue := true }) n
    fun q => { q with tallyDue := false, tallyWait := 25600 }) n := txReady_modPort (txReady_modPort hr)
  have hrate : txRate (modPort (modPort s n fun p => { p with tallyDue := true }) n
      fun q => { q with tallyDue := false, tallyWait := 25600 }) n = txRate s n :=
    txRate_of_standing ((congrArg standing hasked).trans ((congrArg standing hdue :)))
  have hrun : wantTally s n = emit (modPort (modPort s n fun p => { p with tallyDue := true }) n
      fun q => { q with tallyDue := false, tallyWait := 25600 }) (setOut n (txRate s n) .tallyReq 0#16 0#16) := by
    have hgo : ((modPort s n fun p => { p with tallyDue := true }).ports[n].tallyDue &&
        decide ((modPort s n fun p => { p with tallyDue := true }).ports[n].tallyWait = 0) &&
        isUp (modPort s n fun p => { p with tallyDue := true }).ports[n] &&
        txFree (modPort s n fun p => { p with tallyDue := true }) n) = true := by
      rw [hfree, hdue]
      show (true && decide (s.ports[n].tallyWait = 0) && isUp s.ports[n] && true) = true
      rw [hw, hu]
      rfl
    rw [wantTally, if_pos hu, tallyTry, if_pos hgo]
    have hset := sendTs_ready hready (k := .tallyReq) (by decide) 0#16 0#16
    rw [sendTs, if_pos hready.1, hrate] at hset
    exact hset
  rw [hrun]
  exact ⟨rfl, (congrArg Port.tallyWait hasked :), (congrArg Port.tallyDue hasked :)⟩

/-- Within 64 µs of the last one, or inside a packet, the tally waits. -/
theorem wantTally_waits {s : State} {n : PortN} (hu : isUp s.ports[n] = true)
    (h : s.ports[n].tallyWait ≠ 0 ∨ txFree s n = false) :
    wantTally s n = modPort s n fun p => { p with tallyDue := true } := by
  have hdue := modPort_self s n fun p => { p with tallyDue := true }
  have hfree : txFree (modPort s n fun p => { p with tallyDue := true }) n = txFree s n :=
    txFree_of_passes (congrArg Port.txCur hdue :) rfl
  rw [wantTally, if_pos hu, tallyTry, if_neg]
  rw [hfree, hdue]
  rcases h with h | h <;> simp [h, -Fin.getElem_fin]

theorem wantTally_others (s : State) (n : PortN) : portsBut n s (wantTally s n) := by
  have hdue := portsBut_modPort s n fun p => { p with tallyDue := true }
  unfold wantTally
  split
  · unfold tallyTry
    dsimp only
    split
    · refine fun m hm => ?_
      have hasked := portsBut_modPort (modPort s n fun p => { p with tallyDue := true }) n
        (fun q => { q with tallyDue := false, tallyWait := 25600 }) m hm
      refine Eq.trans ?_ (hasked.trans (hdue m hm))
      unfold putTs putTsAt wakeTx
      dsimp only
      split
      · exact (modPort_ne _ n m _ hm).trans (modPort_ne _ n m _ hm)
      · rfl
    · exact hdue
  · exact fun _ _ => rfl

/-! ## Disabling (R76) -/

/-- The port of a set that goes out is lit, so that the next one goes out directly after it. -/
theorem putTsAt_lit (s : State) (n : PortN) (r : Nat) (k : TsKind) (a0 a1 : Word) :
    (putTsAt s n r k a0 a1).ports[n].dark = false :=
  (congrArg Port.dark (wakeTx_self s n)).trans (woken_dark _)

theorem putTsAt_ready {s : State} {n : PortN} (h : s.ports[n].dark = false) (r : Nat) {k : TsKind} (hk : k ≠ .tally)
    (a0 a1 : Word) : putTsAt s n r k a0 a1 = emit s (setOut n r k a0 a1) := by
  have hwake : wakeTx s n = s := by
    unfold wakeTx
    rw [if_neg (by rw [h]; decide)]
  rw [putTsAt, hwake, tsArgs, if_neg hk]
  rfl

/-- The state once the four TS_DIS of a disable are out. -/
def disSent (s : State) (n : PortN) : State :=
  bump (forEach [1, 2, 3, 4] (fun a (_ : Nat) => putTsAt a n (disRate s n) .dis 0#16 0#16) (endTx s n 3))

theorem disSent_passes (s : State) (n : PortN) : Passes [.ula, .ports, .out] s (disSent s n) :=
  ((endTx_passes s n 3).seq (forEach_passes [1, 2, 3, 4] _ _ fun a _ => putTsAt_passes a n _ _ _ _)
    (rs := [.ula, .ports, .out])).seq (bump_passes _)

theorem disSent_out (s : State) (n : PortN) : ∃ before,
    (disSent s n).out = setOut n (disRate s n) .dis 0#16 0#16 :: setOut n (disRate s n) .dis 0#16 0#16 ::
      setOut n (disRate s n) .dis 0#16 0#16 :: setOut n (disRate s n) .dis 0#16 0#16 :: (before ++ s.out) := by
  have hlit := putTsAt_lit (endTx s n 3) n (disRate s n) .dis 0#16 0#16
  obtain ⟨woke, hwoke⟩ := (wakeTx_passes (endTx s n 3) n).outs
  obtain ⟨ended, hended⟩ := (endTx_passes s n 3).outs
  have hfirst : (putTsAt (endTx s n 3) n (disRate s n) .dis 0#16 0#16).out =
      setOut n (disRate s n) .dis 0#16 0#16 :: (wakeTx (endTx s n 3) n).out := rfl
  refine ⟨woke ++ ended, ?_⟩
  show (putTsAt (putTsAt (putTsAt (putTsAt (endTx s n 3) n (disRate s n) .dis 0#16 0#16) n (disRate s n) .dis 0#16 0#16)
    n (disRate s n) .dis 0#16 0#16) n (disRate s n) .dis 0#16 0#16).out = _
  have hset := fun (a : State) (h : a.ports[n].dark = false) =>
    putTsAt_ready h (disRate s n) (k := .dis) (by decide) 0#16 0#16
  rw [hset _ hlit]
  have hlit' : ∀ (a : State) (x : Out), a.ports[n].dark = false → (emit a x).ports[n].dark = false := fun _ _ h => h
  rw [hset _ (hlit' _ _ hlit), hset _ (hlit' _ _ (hlit' _ _ hlit)), List.append_assoc, hended, hwoke, ← hfirst]
  rfl

/-- The link of a port that is disabled goes down. -/
def disDown (s : State) (n : PortN) : State := if isUp s.ports[n] then linkDown s n 8 else s

/-- A port in DISABLING. -/
def offPort (p : Port) : Port :=
  { portDetect false p with st := .disabling, en := false, defer := false, ptx := 0, ntx := 0 }

/-- What a disable leaves to the survey, and to UP's resume. -/
def offRest (held : Bool) (n : PortN) (t : State) : State :=
  if h : n.val = 0 then (if held then upResumed t else t) else surveyDetach t ⟨n.val - 1, by omega⟩

/-- A port that has been disabled, with its hold. -/
def offNow (s : State) (n : PortN) : State := modPort (disDown (disSent s n) n) n offPort

/-- The port without its hold. -/
def offFreed (s : State) (n : PortN) : State := modAon (offNow s n) n fun a => { a with hold := .none }

theorem portOff_running {s : State} {n : PortN} (h : s.ports[n].st ≠ .disabled) (h' : s.ports[n].st ≠ .disabling) :
    portOff s n = offRest (decide (s.aon.ports[n].hold ≠ .none)) n (offFreed s n) := by
  unfold portOff offRest
  split
  · contradiction
  · contradiction
  · by_cases hn : n.val = 0
    · by_cases hh : s.aon.ports[n].hold = .none
      · simp [hn, hh, -Fin.getElem_fin]
        rfl
      · simp [hn, hh, -Fin.getElem_fin]
        rfl
    · simp [hn, -Fin.getElem_fin]
      rfl

/-- The parts in which the end of UP's hold shows. -/
def resumedParts : List Part := [.bb, .aon, .doms, .que, .out]

theorem upResumed_passes (s : State) : Passes resumedParts s (upResumed s) := by
  have hseen : Passes [.aon] s { s with aon := { s.aon with bcnSeen := false } } :=
    ⟨fun p hp => by cases p <;> first | rfl | exact absurd (by decide) hp, fun _ => rfl, fun _ => StaysFree.refl _, id,
      List.suffix_rfl, List.prefix_rfl, rfl⟩
  have hraised := hseen.seq (raise_passes _ { code := 0x12, src := 0 }) (rs := resumedParts)
  unfold upResumed
  exact passes_ite _ (hraised.seq (bbLink_passes _ _ _ _ _)) hraised

theorem offRest_passes (held : Bool) (n : PortN) (s : State) :
    Passes [.bb, .aon, .doms, .ula, .que, .ports, .sur, .out] s (offRest held n s) := by
  unfold offRest
  split
  · exact passes_ite _ (upResumed_passes s).widen (Passes.refl _ s)
  · exact (surveyDetach_passes s _).widen

/-- The transmit credits of every port are what they were. -/
def sameCredits (s t : State) : Prop := ∀ n : PortN, t.ports[n].ptx = s.ports[n].ptx ∧ t.ports[n].ntx = s.ports[n].ntx

theorem sameCredits_of_ports {s t : State} (h : t.ports = s.ports) : sameCredits s t := fun n => by
  rw [h]
  exact ⟨rfl, rfl⟩

theorem sameCredits_trans {s t u : State} (h : sameCredits s t) (g : sameCredits t u) : sameCredits s u := fun n =>
  ⟨(g n).1.trans (h n).1, (g n).2.trans (h n).2⟩

theorem sendDown_credits (s : State) (m : DnN) (p : Pkt) (act : OnEop) : sameCredits s (sendDown s m p act) := by
  unfold sendDown
  split
  · intro n
    by_cases h : n = dnPort m
    · subst h
      have hself := modPort_self s (dnPort m) fun q => { q with txq := q.txq ++ [{ ownTx p act with ord := s.bus.pid }] }
      exact ⟨(congrArg Port.ptx hself :), (congrArg Port.ntx hself :)⟩
    · have hne := modPort_ne s (dnPort m) n (fun q => { q with txq := q.txq ++ [{ ownTx p act with ord := s.bus.pid }] }) h
      exact ⟨congrArg Port.ptx hne, congrArg Port.ntx hne⟩
  · exact sameCredits_of_ports rfl

theorem engineUp_ports (s : State) (p : Pkt) (act : OnEop) : (engineUp s p act).ports = s.ports :=
  (engineUp_passes s p act).parts .ports (by decide)

theorem walkFrom_credits (l : List DnN) (s : State) : sameCredits s (walkFrom s l) := by
  induction l generalizing s with
  | nil => exact sameCredits_of_ports (engineUp_ports _ _ _)
  | cons m l ih =>
    unfold walkFrom
    split
    · exact ih s
    · split
      · exact sendDown_credits (setWalk s _) m _ _
      · split
        · exact sameCredits_trans (sameCredits_of_ports (engineUp_ports _ _ _)) (ih _)
        · exact sameCredits_of_ports rfl

theorem surveyDetach_credits (s : State) (m : DnN) : sameCredits s (surveyDetach s m) := by
  unfold surveyDetach
  split
  · exact sameCredits_trans (sameCredits_of_ports (engineUp_ports _ _ _)) (walkFrom_credits _ _)
  · exact sameCredits_of_ports rfl

theorem offRest_credits (held : Bool) (n : PortN) (s : State) : sameCredits s (offRest held n s) := by
  unfold offRest
  split
  · split
    · exact sameCredits_of_ports ((upResumed_passes s).parts .ports (by decide))
    · exact sameCredits_of_ports rfl
  · exact surveyDetach_credits s _

theorem disRate_modPort {s : State} {n : PortN} {f : Port → Port} (hst : ∀ p, (f p).st = p.st := by exact fun _ => rfl)
    (hset : ∀ p, (f p).setRx = p.setRx := by exact fun _ => rfl) (hsh : ∀ p, shown (f p) = shown p := by exact fun _ => rfl) :
    disRate (modPort s n f) n = disRate s n := by
  have hport := modPort_self s n f
  have hrate : txRate (modPort s n f) n = txRate s n := txRate_of_shown ((congrArg shown hport).trans (hsh _))
  unfold disRate
  dsimp only
  rw [hrate, hport, hst, hset]
  rfl


theorem disDown_turns (s : State) (n : PortN) : ∃ f, Turns downParts n f (disSent s n) (disDown (disSent s n) n) ∧
    (isUp s.ports[n] = true → f = downPort) ∧ (isUp s.ports[n] = false → f = id) := by
  have hup : isUp (disSent s n).ports[n] = isUp s.ports[n] := (congrArg isUp ((disSent_passes s n).ports n) :)
  unfold disDown
  rw [hup]
  cases isUp s.ports[n]
  · exact ⟨id, (Passes.refl _ _).turns n, fun h => absurd h (by decide), fun _ => rfl⟩
  · exact ⟨downPort, linkDown_turns _ n 8, fun _ => rfl, fun h => absurd h (by decide)⟩

theorem offNow_turns (s : State) (n : PortN) : ∃ f, Turns downParts n (fun p => offPort (f p)) s (offNow s n) ∧
    (isUp s.ports[n] = true → f = downPort) ∧ (isUp s.ports[n] = false → f = id) := by
  obtain ⟨f, hturn, hlink, hnone⟩ := disDown_turns s n
  have hf : ∀ p, standing (f p) = standing (f (standing p)) := fun p => by
    cases hu : isUp s.ports[n]
    · rw [hnone hu]
      rfl
    · rw [hlink hu]
      rfl
  exact ⟨f, ((disSent_passes s n).turn hturn (rs := downParts) (hg := hf)).seq
    (modPort_turns _ n offPort fun _ => ⟨id, fun _ => rfl⟩), hlink, hnone⟩

/-- The four TS_DIS of a disable are out, directly after each other. -/
theorem offNow_out (s : State) (n : PortN) : ∃ later before,
    (offNow s n).out = later ++ setOut n (disRate s n) .dis 0#16 0#16 :: setOut n (disRate s n) .dis 0#16 0#16 ::
      setOut n (disRate s n) .dis 0#16 0#16 :: setOut n (disRate s n) .dis 0#16 0#16 :: (before ++ s.out) := by
  obtain ⟨f, hturn, -⟩ := disDown_turns s n
  obtain ⟨before, hout⟩ := disSent_out s n
  obtain ⟨later, hlater⟩ := hturn.self.outs
  have hsame : (offNow s n).out = (disDown (disSent s n) n).out := (modPort_only _ n offPort) .out (by decide)
  exact ⟨later, before, by rw [hsame, ← hlater, hout]⟩

theorem offNow_logged {s : State} {n : PortN} (hu : isUp s.ports[n] = true) : downLogged s (offNow s n) n 8#16 0 := by
  intro hroom
  have hsent := disSent_passes s n
  have hup : isUp (disSent s n).ports[n] = isUp s.ports[n] := (congrArg isUp (hsent.ports n) :)
  have hque : (disSent s n).que = s.que := hsent.parts .que (by decide)
  have hnow : now (disSent s n) = now s := congrArg (fun b : Tb => b.time.toNat) (hsent.parts .tb (by decide))
  have hlog : mkEntry 0x31 n.val 8#16 (portStat (disSent s n) n) false (now (disSent s n)) ∈
      (linkDown (disSent s n) n 8).que.bbf := linkDown_logged (disSent s n) n 8 (by rw [hque]; exact hroom)
  have hsame : (offNow s n).que = (disDown (disSent s n) n).que := (modPort_only _ n offPort) .que (by decide)
  rw [portStat_of_standing (hsent.ports n), hnow] at hlog
  rw [hsame, disDown, if_pos (hup.trans hu)]
  exact hlog

/-- A running port that is disabled (R76): DISABLING, four TS_DIS, and a link-down where it had a link. -/
theorem portOff_rule {s : State} {n : PortN} (h : s.ports[n].st ≠ .disabled) (h' : s.ports[n].st ≠ .disabling) :
    let t := portOff s n
    t.ports[n].st = .disabling ∧ t.ports[n].en = false ∧ t.ports[n].rate = 0 ∧ t.ports[n].ptx = 0 ∧
      t.ports[n].ntx = 0 ∧
      (let x := setOut n (disRate s n) .dis 0#16 0#16
       ∃ later before, t.out = later ++ x :: x :: x :: x :: (before ++ s.out)) ∧
      (isUp s.ports[n] = true → t.ports[n].evt = s.ports[n].evt ||| 0x0002#16 ∧ downLogged s t n 8#16 0) ∧
      (isUp s.ports[n] = false → t.ports[n].evt = s.ports[n].evt) ∧
      only [.bb, .aon, .doms, .ula, .que, .ports, .tt, .tb, .sur, .out] s t := by
  obtain ⟨f, hoff, hlink, hnone⟩ := offNow_turns s n
  have hexact : (offNow s n).ports[n] = _ := modPort_self (disDown (disSent s n) n) n offPort
  have hfreed : only [.aon] (offNow s n) (offFreed s n) := modAon_frame (offNow s n) n _
  have hports : (offFreed s n).ports = (offNow s n).ports := hfreed .ports (by decide)
  have hout : (offFreed s n).out = (offNow s n).out := hfreed .out (by decide)
  have hque : (offFreed s n).que = (offNow s n).que := hfreed .que (by decide)
  have hrest := offRest_passes (decide (s.aon.ports[n].hold ≠ .none)) n (offFreed s n)
  have hcredits := offRest_credits (decide (s.aon.ports[n].hold ≠ .none)) n (offFreed s n) n
  have hlogs := hrest.logs
  have hparts := (hoff.self.parts.seq hfreed (rs := downParts)).seq hrest.parts (rs := downParts)
  obtain ⟨more, hmore⟩ := hrest.outs
  rw [← portOff_running h h'] at hrest hcredits hlogs hparts hmore
  rw [hports, hexact] at hcredits
  have hport : standing (portOff s n).ports[n] = standing (offPort (f s.ports[n])) := by
    rw [hrest.ports n, hports]
    exact hoff.self.port
  have hevt : (portOff s n).ports[n].evt = (f s.ports[n]).evt := (congrArg Port.evt hport :)
  refine ⟨(congrArg Port.st hport :), (congrArg Port.en hport :), (congrArg Port.rate hport :), hcredits.1, hcredits.2, ?_,
    fun hu => ⟨?_, fun hroom => ?_⟩, fun hu => ?_, hparts⟩
  · obtain ⟨later, before, hdis⟩ := offNow_out s n
    exact ⟨more ++ later, before, by rw [← hmore, hout, hdis, List.append_assoc]⟩
  · rw [hevt, hlink hu]
    rfl
  · exact hlogs.subset (by rw [hque]; exact offNow_logged hu hroom)
  · rw [hevt, hnone hu]
    rfl

/-! ## Enabling and clearing (R76, R77) -/

/-- A port without a suspend that leaves DISABLED enters DETECT. -/
theorem leaveDisabled_rule {s : State} {n : PortN} :
    (leaveDisabled s n).ports[n].st = .detect ∧ (leaveDisabled s n).ports[n].en = true ∧
      (leaveDisabled s n).ports[n].defer = false ∧ only [.pps, .aon, .ula, .ports, .sur] s (leaveDisabled s n) := by
  have hmod := modPort_turns s n fun p => { p with en := true, defer := false }
  have hturn := hmod.seq (detectNow_turns _ n false) (rs := [.pps, .ula, .ports, .sur])
  obtain ⟨hports, -, hframe⟩ := toDetect_rule (modPort s n fun p => { p with en := true, defer := false }) n false
  have hat : standing (leaveDisabled s n).ports[n] = _ :=
    (congrArg (fun v : Vector Port 17 => standing v[n]) hports).trans hturn.self.port
  exact ⟨(congrArg Port.st hat :), (congrArg Port.en hat :), (congrArg Port.defer hat :), hmod.self.parts.seq hframe⟩

/-- Settles O29: it holds.  A flood turns the fields of its port, and PORT_CTRL writes its fields back and acts by the
port's state. -/
theorem floodsAndPortControl : Obligations.FloodsAndPortControl := by
  unfold Obligations.FloodsAndPortControl
  refine ⟨fun n f s hl ho => onLink_eq hl (floodStart_electrical ho), fun n f s hl ho hf => ?_, fun n f s hl ho hf => ?_,
    fun n s hl hf => ?_, fun p n s hp h h' => ?_, fun p n s hp h => ?_, fun p n s hp h hs => ?_, fun p n s hp h => ?_,
    fun n s hl h hd => ?_, fun n s hl h hd hs => ?_, fun p n s hp he h h' => ?_⟩
  · have ht := floodStart_turns f ho hf
    exact ⟨_, onLink_on s _ hl, (congrArg Port.flooding ht.self.port :), (congrArg Port.fld ht.self.port :),
      (congrArg Port.floodEp ht.self.port :), (congrArg Port.evt ht.self.port :), (congrArg Port.floodDisc ht.self.port :),
      ht.self.parts⟩
  · exact ⟨_, onLink_eq hl (floodStart_joined ho hf), modPort_self s n _, portsBut_modPort s n _, modPort_only s n _⟩
  · have hmod := modPort_turns s n fun p => { p with flooding := false, fld := false }
    have hport := modPort_self s n fun p => { p with flooding := false, fld := false }
    have ht := hmod.pass (wantTally_passes _ n) (rs := [.ports, .out])
    have hrate : txRate (modPort s n fun p => { p with flooding := false, fld := false }) n = txRate s n := by
      rw [txRate, hport, txRate]
    have hfree : txFree (modPort s n fun p => { p with flooding := false, fld := false }) n = txFree s n :=
      txFree_of_passes (congrArg Port.txCur hport :) rfl
    refine ⟨_, onLink_eq hl (whenDo_holds hf), (congrArg Port.flooding ht.self.port :), (congrArg Port.fld ht.self.port :),
      fun hu hw hr => ?_, fun hu hw => ?_, fun m hm => (wantTally_others _ n m hm).trans (portsBut_modPort s n _ m hm),
      ht.self.parts⟩
    · rw [← hrate]
      exact wantTally_sends ((congrArg isUp hport).trans hu) ((congrArg Port.tallyWait hport :).trans hw) (txReady_modPort hr)
    · rw [wantTally_waits ((congrArg isUp hport).trans hu) (hw.imp
        (fun g => fun e => g ((congrArg Port.tallyWait hport :).symm.trans e)) hfree.trans)]
      exact ⟨rfl, (congrArg Port.tallyDue (modPort_self _ n _) :)⟩
  · have hport := modPort_self s n (portCtrlPut (setBit (ctrlNow s n) 0 false))
    have hkept := modPort_turns s n (portCtrlPut (setBit (ctrlNow s n) 0 false)) fun _ => ⟨id, id⟩
    have hst := congrArg Port.st hport
    have hup := congrArg isUp hport
    obtain ⟨h1, h2, h3, h4, h5, ⟨later, before, hout⟩, hlink, hnone, hframe⟩ :=
      portOff_rule (s := modPort s n (portCtrlPut (setBit (ctrlNow s n) 0 false))) (n := n)
        (fun g => h (hst.symm.trans g)) (fun g => h' (hst.symm.trans g))
    rw [disRate_modPort] at hout
    refine ⟨_, exec_portDisable hp, h1, h2, h3, h4, h5, ⟨later, before, hout⟩, fun hu => ?_, fun hu => ?_,
      hkept.self.parts.seq hframe⟩
    · obtain ⟨hevt, hlog⟩ := hlink (hup.trans hu)
      refine ⟨hevt.trans (congrArg (fun q : Port => q.evt ||| 0x0002#16) hport :), fun hroom => ?_⟩
      rw [← portStat_of_shown (hkept.shows)]
      exact hlog hroom
    · exact (hnone (hup.trans hu)).trans (congrArg Port.evt hport :)
  · have hst := congrArg Port.st (modPort_self s n (portCtrlPut (setBit (ctrlNow s n) 0 false)))
    have hrow := exec_portDisable (n := n) hp
    unfold portOff at hrow
    rw [hst, modPort_modPort, modPort_modPort] at hrow
    rcases h with h | h <;> rw [show (portCtrlPut (setBit (ctrlNow s n) 0 false) s.ports[n]).st = _ from h] at hrow
    · exact ⟨_, hrow, (congrArg Port.st (modPort_self s n _) :), (congrArg Port.en (modPort_self s n _) :),
        fun g => absurd (h.symm.trans g) (by decide), portsBut_modPort s n _, modPort_only s n _⟩
    · exact ⟨_, hrow, (congrArg Port.st (modPort_self s n _) :), (congrArg Port.en (modPort_self s n _) :),
        fun _ => (congrArg Port.defer (modPort_self s n _) :), portsBut_modPort s n _, modPort_only s n _⟩
  · have hst := congrArg Port.st (modPort_self s n (portCtrlPut (ctrlNow s n ||| 0x0001#16)))
    have hrow := exec_portEnable (n := n) hp
    unfold portOnWrite at hrow
    rw [hst, show (portCtrlPut (ctrlNow s n ||| 0x0001#16) s.ports[n]).st = _ from h] at hrow
    obtain ⟨hdet, hen, -, hframe⟩ := leaveDisabled_rule (s := modPort s n (portCtrlPut (ctrlNow s n ||| 0x0001#16))) (n := n)
    exact ⟨_, hrow, hdet, hen, (modPort_only s n _).seq hframe⟩
  · have hst := congrArg Port.st (modPort_self s n (portCtrlPut (ctrlNow s n ||| 0x0001#16)))
    have hrow := exec_portEnable (n := n) hp
    unfold portOnWrite at hrow
    rw [hst, show (portCtrlPut (ctrlNow s n ||| 0x0001#16) s.ports[n]).st = _ from h, modPort_modPort] at hrow
    exact ⟨_, hrow, (congrArg Port.st (modPort_self s n _) :).trans h, (congrArg Port.en (modPort_self s n _) :),
      (congrArg Port.defer (modPort_self s n _) :), modPort_only s n _⟩
  · have hrun : (if s.ports[n].defer then leaveDisabled (modPort s n fun p => { p with st := .disabled, ptx := 0, ntx := 0 }) n
        else modPort s n fun p => { p with st := .disabled, ptx := 0, ntx := 0 }) =
        modPort s n fun p => { p with st := .disabled, ptx := 0, ntx := 0 } := if_neg (by rw [hd]; decide)
    exact ⟨_, onLink_eq hl ((whenDo_holds (by simpa using h)).trans hrun), modPort_self s n _, portsBut_modPort s n _,
      modPort_only s n _⟩
  · obtain ⟨hdet, hen, hdef, hframe⟩ :=
      leaveDisabled_rule (s := modPort s n fun p => { p with st := .disabled, ptx := 0, ntx := 0 }) (n := n)
    refine ⟨_, onLink_eq hl ((whenDo_holds (by simpa using h)).trans ?_), hdet, hen, hdef, (modPort_only s n _).seq hframe⟩
    show (if s.ports[n].defer then _ else _) = _
    rw [if_pos hd]
  · obtain ⟨v, hrow⟩ := exec_portCntClr hp he h h'
    unfold portCntClr at hrow
    rw [modPort_modPort] at hrow
    have hport := modPort_self s n fun p => { ctrlKept v p with hdrErr := 0, crcErr := 0, codeErr := 0, floodEp := 0, floodDisc := 0 }
    exact ⟨_, hrow, (congrArg Port.hdrErr hport :), (congrArg Port.crcErr hport :), (congrArg Port.codeErr hport :),
      (congrArg Port.floodEp hport :), (congrArg Port.floodDisc hport :), (congrArg Port.st hport :),
      portsBut_modPort s n _, modPort_only s n _⟩

end Sys2Proof.Machine
end

section
/-! PROOF. Credits (O30). -/

namespace Sys2Proof.Machine

open Sys2Proof Sys2Proof.Safety

-- One proof after the other: side by side, the proofs of one text wait for each other in too many threads.
set_option Elab.async false


/-- Row TS_TALLY_RX on a link (R61). -/
theorem exec_tsTallyRx {n : PortN} {a0 a1 chk : Word} {s : State} (hc : setComes s n .tally a0 a1 chk)
    (hu : isUp s.ports[n] = true) : exec (.tsTallyRx n a0 a1 chk) s = .next (modPort s n (tallyRx a0 a1)) :=
  onLink_onTs hc (whenDo_holds hu)

/-- D1 is ACTIVE and holds 50 non-periodic credits, two more than a receiver advertises. -/
def overCredited : State := modPort State.reset 1 fun p => { p with st := .active, ntx := 50 }

/-- Refutes O30: a tally keeps at most 48 non-periodic credits and gives the other class only what goes beyond 48 in the
words that it adds. Where a port holds 50 already, which no run of the machine brings about but the statement does not
rule out, a tally that adds none clamps them to 48, and the two that are lost do not go to the periodic class. -/
theorem not_creditsAndFragments : ¬ Obligations.CreditsAndFragments := by
  intro h
  obtain ⟨-, -, -, htally, -⟩ := h
  have hcomes : setComes overCredited 1 .tally 0#16 0#16 (trainCheck (tsCode .tally) 0#16 0#16) :=
    ⟨by decide, by decide, by decide, rfl⟩
  have hup : isUp overCredited.ports[(1 : PortN)] = true := by decide
  obtain ⟨t, hrun, -, -, ⟨-, -, hover⟩, -⟩ := htally 1 0#16 0#16 _ overCredited hcomes hup
  have ht : modPort overCredited 1 (tallyRx 0#16 0#16) = t :=
    Host.Outcome.next.inj ((exec_tsTallyRx hcomes hup).symm.trans hrun)
  obtain ⟨-, hptx⟩ := hover (by decide) (by decide)
  rw [← ht] at hptx
  exact absurd hptx (by decide)

end Sys2Proof.Machine
end

section
/-! PROOF. The hub function: its requests, their answers and the reading ones (O31, O32). -/

namespace Sys2Proof.Machine

open Sys2Proof Sys2Proof.Safety

-- One proof after the other: side by side, the proofs of one text wait for each other in too many threads.
set_option Elab.async false


/-! ## Handing a packet to the ULA -/

theorem vAt_setIfInBounds {α : Type} {k : Nat} (v : Vector α k) (d a : α) {i : Nat} (h : i < k) :
    vAt (v.setIfInBounds i a) d i = a := by
  rw [vAt, dif_pos h, Vector.getElem_setIfInBounds_self]

/-- While UP has a link, what is handed to a requester waits there. -/
theorem ulaPush_queued {s : State} (h : isUp s.ports[(0 : PortN)] = true) {r : Nat} (hr : r < 28) (t : TxPkt) :
    t ∈ vAt (ulaPush s r t).ula.reqs [] r := by
  have hrun : (ulaPush s r t).ula.reqs = s.ula.reqs.setIfInBounds r (vAt s.ula.reqs [] r ++ [t]) :=
    congrArg (fun u : State => u.ula.reqs) (if_pos h)
  rw [hrun, vAt_setIfInBounds _ _ _ hr]
  exact List.mem_append_right _ (List.mem_singleton_self t)

/-! ## Answers (R97, R99) -/

/-- A unicast request is answered through UP's link, and the answer kept. -/
theorem hubReply_answers {s : State} {r : HubReq} (hu : isUp s.ports[(0 : PortN)] = true) (hm : r.mc = false)
    (hq : s.bus.hubQ = []) (status : Nat) (odd : Bool) (data : List Word) :
    hubAnswered (hubReply s r status odd data) r status odd data := by
  have hsent := ulaPush_queued hu (r := 16) (by omega) (ownTx (hubAnswer r.pkt odd (w16 status :: data)) .none)
  have hbus : (ulaPush s 16 (ownTx (hubAnswer r.pkt odd (w16 status :: data)) .none)).bus = s.bus :=
    (ulaPush_passes s 16 _).parts .bus (by decide)
  unfold hubReply
  simp only [hm, Bool.false_eq_true, if_false]
  exact ⟨⟨(congrArg Bus.hubQ hbus).trans hq, rfl⟩, hsent⟩

/-- What is kept of an answer, for a retry. -/
def keptAnswer (r : HubReq) (odd : Bool) (ws : List Word) : Kept :=
  { tag := r.pkt.hdr.tag, block := hubBlock r.pkt, odd := odd, words := ws }

def withKept (k : Option Kept) (b : Bus) : Bus := { b with kept := k }

theorem hubReply_bus (s : State) (r : HubReq) (status : Nat) (odd : Bool) (data : List Word) :
    ∃ k, (hubReply s r status odd data).bus = withKept k s.bus := by
  have hbus : (ulaPush s 16 (ownTx (hubAnswer r.pkt odd (w16 status :: data)) .none)).bus = s.bus :=
    (ulaPush_passes s 16 _).parts .bus (by decide)
  unfold hubReply
  dsimp only
  split
  · exact ⟨s.bus.kept, rfl⟩
  · exact ⟨some (keptAnswer r odd (w16 status :: data)),
      (congrArg (withKept (some (keptAnswer r odd (w16 status :: data)))) hbus :)⟩

theorem hubReply_frame (s : State) (r : HubReq) (status : Nat) (odd : Bool) (data : List Word) :
    only [.ula, .bus] s (hubReply s r status odd data) := by
  have hsent := (ulaPush_passes s 16 (ownTx (hubAnswer r.pkt odd (w16 status :: data)) .none)).parts
  unfold hubReply
  exact only_ite _ (only_refl _ s) (hsent.seq (bus_frame _ _))

/-! ## The status of a request (R98) -/

theorem hubForm_short {p : Pkt} {toRoot : Bool} (h : hubForm p toRoot true = 0) : hubForm p toRoot false = 2 := by
  simp only [hubForm] at h ⊢
  (repeat' split at h) <;> simp_all

/-- With its form right, a request's status is DENIED, BADVAL, NOTREADY or OK, in that order. -/
theorem hubStatus_formed {p : Pkt} {toRoot : Bool} (h : hubForm p toRoot true = 0) (denied valOk ready : Bool) :
    hubStatus p toRoot true denied valOk ready = if denied then 4 else if !valOk then 3 else if !ready then 5 else 0 := by
  simp [hubStatus, h]

theorem hubStatus_badLength {p : Pkt} {toRoot : Bool} (h : hubForm p toRoot true = 0) (denied valOk ready : Bool) :
    hubStatus p toRoot false denied valOk ready = 2 := by
  simp [hubStatus, hubForm_short h]

/-! ## The request at the front of the queue (R99) -/

theorem hubDrain_idle (k : Nat) {s : State} (h : s.bus.hubQ = []) : hubDrain k s = s := by
  cases k with
  | zero => rfl
  | succ k =>
    unfold hubDrain
    simp [h]

/-- A row carries out the one request that waits, which it names. -/
theorem onHub_run {s u : State} {r : HubReq} {f : Pkt → Bool} {act : State → HubReq → State} (hl : linkOn s = true)
    (hq : s.bus.hubQ = [r]) (hb : hubBad r.pkt = none) (hf : f r.pkt = true) (hu : act (hubPop s) r = u)
    (he : u.bus.hubQ = []) : onLink s (onHub f act) = .next u := by
  refine onLink_eq hl ?_
  unfold onHub
  simp only [hq, List.head?_cons, hb, Option.isNone_none, hf, Bool.and_self, if_true, hu]
  exact hubDrain_idle 4 he

theorem hubPop_empty {s : State} {r : HubReq} (hq : s.bus.hubQ = [r]) : (hubPop s).bus.hubQ = [] := by
  show s.bus.hubQ.drop 1 = []
  rw [hq]
  rfl

/-- A request that reads, answered from the state as it stands. -/
theorem hubRow_reads {s : State} {r : HubReq} {req : Nat} {act : State → HubReq → State} {status : Nat} {odd : Bool}
    {data : List Word} (h : hubAsked s r req true)
    (hact : act (hubPop s) r = hubReply (hubPop s) r status odd data) :
    ∃ t, hubRow req act s = .next t ∧ hubAnswered t r status odd data ∧ only [.bus, .ula] s t := by
  obtain ⟨hl, hu, hq, hm, hb, hreq, -⟩ := h
  have hans := hubReply_answers (s := hubPop s) hu hm (hubPop_empty hq) status odd data
  obtain ⟨⟨hempty, -⟩, -⟩ := id hans
  exact ⟨_, onHub_run hl hq hb (by simpa using hreq) hact hempty, hans,
    (bus_frame s _).seq (hubReply_frame (hubPop s) r status odd data)⟩

theorem hubGet_ok (s : State) (r : HubReq) (bytes : List Nat) :
    hubGet s r 0 bytes = hubReply s r 0 (decide (bytes.length % 2 = 1)) (wordsOfBytes bytes) := if_pos rfl

theorem hubGet_refused (s : State) (r : HubReq) {status : Nat} (h : status ≠ 0) (bytes : List Nat) :
    hubGet s r status bytes = hubReply s r status false [] := if_neg h

/-- A request that reads, with its LENGTH and VALUE right. -/
theorem hubRow_ok {s : State} {r : HubReq} {req : Nat} {act : State → HubReq → State} {lenOk valOk ready : Bool}
    {bytes : List Nat} (h : hubAsked s r req true)
    (hact : act (hubPop s) r = hubGet (hubPop s) r (hubStatus r.pkt true lenOk false valOk ready) bytes)
    (hlen : lenOk = true) (hval : valOk = true) (hready : ready = true) :
    ∃ t, hubRow req act s = .next t ∧ hubRead t r bytes ∧ only [.bus, .ula] s t := by
  have hform : hubForm r.pkt true true = 0 := h.2.2.2.2.2.2
  refine hubRow_reads h (hact.trans ?_)
  rw [hlen, hubStatus_formed hform, hval, hready]
  exact hubGet_ok _ r bytes

/-- A request that reads and is refused. -/
theorem hubRow_refused {s : State} {r : HubReq} {req : Nat} {act : State → HubReq → State} {lenOk valOk ready : Bool}
    {bytes : List Nat} (h : hubAsked s r req true)
    (hact : act (hubPop s) r = hubGet (hubPop s) r (hubStatus r.pkt true lenOk false valOk ready) bytes)
    (hlen : lenOk = true) {status : Nat} (hst : (if !valOk then 3 else if !ready then 5 else 0) = status)
    (hne : status ≠ 0) :
    ∃ t, hubRow req act s = .next t ∧ hubAnswered t r status false [] ∧ only [.bus, .ula] s t := by
  have hform : hubForm r.pkt true true = 0 := h.2.2.2.2.2.2
  refine hubRow_reads h (hact.trans ?_)
  rw [hlen, hubStatus_formed hform]
  rw [if_neg (by decide), hst]
  exact hubGet_refused _ r hne bytes

/-- Settles O32: it holds.  Each reading request is answered by `hubGet`, with the status that its form, its operands
and what can be read give. -/
theorem hubReads : Obligations.HubReads := by
  unfold Obligations.HubReads
  refine ⟨fun r s h h1 h2 hv hi => ?_, fun r s h hn hv hi => ?_, fun r s h hv hi hn => ?_, fun r s h h1 h2 h3 hv hi => ?_,
    fun r ws s h hn hv hi hk => ?_, fun r s h hn hv hi hk => ?_, fun r s h h1 h2 hv => ?_⟩
  · exact hubRow_ok (act := getNodeInfo) h rfl (by simp [h1, h2]) (by simp [hv, hi]) rfl
  · exact hubRow_ok (act := getPortStatus) h rfl (by simp [hn]) (by simp [hv, hi]) rfl
  · exact hubRow_ok (act := getMeter) h rfl (by simp [hn]) (by simp [hv, hi]) rfl
  · exact hubRow_ok (act := readLog) h rfl (by simp [h1, h2, h3]) (by simp [hv, hi]) rfl
  · obtain ⟨t, hrun, hread, hframe⟩ := hubRow_ok (act := getSurveyRecord) h rfl (by simp [hn]) (by simp [hv, hi])
      (show s.sur.kept.isSome = true by rw [hk]; rfl)
    rw [show (hubPop s).sur.kept = some ws from hk] at hread
    exact ⟨t, hrun, hread, hframe⟩
  · exact hubRow_refused (act := getSurveyRecord) h rfl (by simp [hn]) (by simp [hv, hi, hubPop, hk]) (by decide)
  · exact hubRow_refused (act := getNodeInfo) h rfl (by simp [h1, h2]) (by simp [hv]) (by decide)

/-! ## Arrival (R94, R99) -/

theorem takeInbox_some {s t : State} {f : Inbox → Bool} {x : Inbox} (h : takeInbox s f = some (x, t)) :
    t = { s with bus := { s.bus with inbox := s.bus.inbox.eraseP f } } := by
  obtain ⟨y, -, hy⟩ := Option.map_eq_some_iff.mp h
  exact (Prod.mk.inj hy).2.symm

theorem takeInbox_frame {s t : State} {f : Inbox → Bool} {x : Inbox} (h : takeInbox s f = some (x, t)) :
    only [.bus] s t := by
  rw [takeInbox_some h]
  exact bus_frame s _

/-- Row HUBREQ_RX with a request in the inbox. -/
theorem exec_hubreqRx {s t : State} {x : Inbox} (hl : linkOn s = true)
    (h : takeInbox s (fun x => x.dest = .hub) = some (x, t)) : exec .hubreqRx s = .next (hubArrive t x) := by
  refine onLink_eq hl ?_
  rw [h]

/-- A unicast request that is neither a copy of a queued one nor a retry finds its place. -/
theorem hubArrive_new {s : State} {x : Inbox} (hm : x.mc = false) (hc : s.bus.hubQ.any (hubSame x.pkt) = false)
    (hk : hubRepeats s x.pkt = none) : hubArrive s x = hubPlace s { pkt := x.pkt, mc := false } := by
  simp [hubArrive, hm, hc, hk]

theorem hubArrive_retry {s : State} {x : Inbox} {k : Kept} (hm : x.mc = false)
    (hc : s.bus.hubQ.any (hubSame x.pkt) = false) (hk : hubRepeats s x.pkt = some k) :
    hubArrive s x = ulaPush s 16 (ownTx (hubAnswer x.pkt k.odd k.words) .none) := by
  simp [hubArrive, hm, hc, hk]

theorem hubPlace_empty {s : State} {r : HubReq} (hq : s.bus.hubQ = []) :
    hubPlace s r = hubDrain 4 { s with bus := { s.bus with hubQ := [r] } } := by
  have hpush : hubPush s r = { s with bus := { s.bus with hubQ := [r] } } := by rw [hubPush, hq, List.nil_append]
  rw [hubPlace, if_pos (by rw [hq]; decide), hpush]

theorem hubPlace_full {s : State} {r : HubReq} (hq : 4 ≤ s.bus.hubQ.length) (hm : r.mc = false) :
    hubPlace s r = ulaPush (countHubnak s) 16 (ownTx (hshk r.pkt.hdr 0x02 []) .none) := by
  rw [hubPlace, if_neg (by omega), if_neg (by rw [hm]; decide)]

theorem hubDrain_served {k : Nat} {s : State} {r : HubReq} (hq : s.bus.hubQ = [r]) (hb : hubBad r.pkt = none) :
    hubDrain k s = s := by
  cases k with
  | zero => rfl
  | succ k =>
    unfold hubDrain
    simp [hq, hb]

theorem hubDrain_unserved {s : State} {r : HubReq} {st : Nat} (hq : s.bus.hubQ = [r]) (hb : hubBad r.pkt = some st) :
    hubDrain 4 s = hubReply (hubPop s) r st false [] := by
  obtain ⟨k, hk⟩ := hubReply_bus (hubPop s) r st false []
  have hempty : (hubReply (hubPop s) r st false []).bus.hubQ = [] := by
    rw [hk]
    exact hubPop_empty hq
  have hrun : hubDrain 4 s = hubDrain 3 (hubReply (hubPop s) r st false []) := by
    conv_lhs => unfold hubDrain
    simp [hq, hb]
  exact hrun.trans (hubDrain_idle 3 hempty)

/-- Settles O31: it holds.  A request that is no copy and no retry finds its place, and `hubDrain` answers it at once
where no row serves it. -/
theorem hubArrivals : Obligations.HubArrivals := by
  unfold Obligations.HubArrivals
  refine ⟨fun x s t hl h hm hq hk hb => ?_, fun x s t hl h hm hq hc hk hu => ?_, fun x k s t hl h hm hc hk hu => ?_,
    fun x st s t hl h hm hq hk hb hu => ?_, fun s hl h => onLink_eq hl (by rw [h])⟩
  all_goals
    have hrow := exec_hubreqRx hl h
    have hframe := takeInbox_frame h
    have htaken := takeInbox_some h
    have hrep : hubRepeats t x.pkt = hubRepeats s x.pkt := by rw [htaken]; rfl
    have hqueue : t.bus.hubQ = s.bus.hubQ := by rw [htaken]
    have hup : isUp t.ports[(0 : PortN)] = isUp s.ports[(0 : PortN)] := by rw [htaken]
  · rw [hubArrive_new hm (by rw [hqueue, hq]; rfl) (hrep.trans hk), hubPlace_empty (hqueue.trans hq),
      hubDrain_served rfl hb] at hrow
    exact ⟨_, hrow, rfl, hframe.seq (bus_frame t _)⟩
  · rw [hubArrive_new hm (by rw [hqueue, hc]) (hrep.trans hk), hubPlace_full (by rw [hqueue]; exact hq) rfl] at hrow
    have hnak : t.bus.hubnak = s.bus.hubnak := by rw [htaken]
    have hpush := ulaPush_passes (countHubnak t) 16 (ownTx (hshk x.pkt.hdr 0x02 []) .none)
    refine ⟨_, hrow, ?_, ulaPush_queued (s := countHubnak t) (hup.trans hu) (by omega) _,
      (hframe.seq (bus_frame t _) (rs := [.bus, .ula])).seq hpush.parts⟩
    rw [← hnak]
    exact hpush.parts .bus (by decide)
  · rw [hubArrive_retry hm (by rw [hqueue, hc]) (hrep.trans hk)] at hrow
    have hpush := ulaPush_passes t 16 (ownTx (hubAnswer x.pkt k.odd k.words) .none)
    exact ⟨_, hrow, hpush.parts .bus (by decide), ulaPush_queued (hup.trans hu) (by omega) _, hframe.seq hpush.parts⟩
  · rw [hubArrive_new hm (by rw [hqueue, hq]; rfl) (hrep.trans hk), hubPlace_empty (hqueue.trans hq),
      hubDrain_unserved rfl hb] at hrow
    exact ⟨_, hrow, hubReply_answers (s := hubPop { t with bus := { t.bus with hubQ := [_] } }) (hup.trans hu) rfl rfl st
        false [],
      ((hframe.seq (bus_frame t _) (rs := [.bus, .ula])).seq (bus_frame _ _) (rs := [.bus, .ula])).seq
        (hubReply_frame _ _ st false [])⟩

end Sys2Proof.Machine
end

section
/-! PROOF. The port features of the hub function (O33). -/

namespace Sys2Proof.Machine

open Sys2Proof Sys2Proof.Safety

-- One proof after the other: side by side, the proofs of one text wait for each other in too many threads.
set_option Elab.async false


/-! ## Requests that write (R98, R100) -/

/-- A request that writes, as it is answered once its effect has left the state `u`. -/
theorem hubRow_writes {s u : State} {r : HubReq} {f : Pkt → Bool} {act : State → HubReq → State} {g : State → State}
    {req : Nat} (h : hubAsked s r req false) (hf : f r.pkt = true) (hact : act (hubPop s) r = hubDo (hubPop s) r 0 g)
    (hg : g (hubPop s) = u) (hup : isUp u.ports[(0 : PortN)] = isUp s.ports[(0 : PortN)]) (hq : u.bus.hubQ = []) :
    ∃ t, onLink s (onHub f act) = .next t ∧ hubAnswered t r 0 false [] ∧ only [.ula, .bus] u t := by
  obtain ⟨hl, hu, hwait, hm, hb, -, -⟩ := h
  have hans := hubReply_answers (s := u) (hup.trans hu) hm hq 0 false []
  obtain ⟨⟨hempty, -⟩, -⟩ := id hans
  have hrun : act (hubPop s) r = hubReply u r 0 false [] := by
    rw [hact, hubDo, if_pos rfl, hg]
  exact ⟨_, onHub_run hl hwait hb hf hrun hempty, hans, hubReply_frame u r 0 false []⟩

/-- A request that writes, refused: its status alone is answered, and nothing is written. -/
theorem hubRow_denied {s : State} {r : HubReq} {f : Pkt → Bool} {act : State → HubReq → State} {g : State → State}
    {req status : Nat} (h : hubAsked s r req false) (hf : f r.pkt = true)
    (hact : act (hubPop s) r = hubDo (hubPop s) r status g) (hst : status ≠ 0) :
    ∃ t, onLink s (onHub f act) = .next t ∧ hubAnswered t r status false [] ∧
      t.bus = withKept t.bus.kept (hubPop s).bus ∧ only [.ula, .bus] s t := by
  obtain ⟨hl, hu, hwait, hm, hb, -, -⟩ := h
  have hans := hubReply_answers (s := hubPop s) hu hm (hubPop_empty hwait) status false []
  obtain ⟨⟨hempty, -⟩, -⟩ := id hans
  have hrun : act (hubPop s) r = hubReply (hubPop s) r status false [] := by
    rw [hact, hubDo, if_neg hst]
  obtain ⟨k, hk⟩ := hubReply_bus (hubPop s) r status false []
  exact ⟨_, onHub_run hl hwait hb hf hrun hempty, hans, by rw [hk]; rfl,
    (bus_frame s _).seq (hubReply_frame (hubPop s) r status false [])⟩

/-! ## The rows of the port features -/

theorem hubDn_named {p : Pkt} {m : DnN} (h : hubIndex p = m.val + 1) : hubDnOk p = true ∧ hubDn p = m := by
  refine ⟨?_, Fin.ext ?_⟩
  · simp only [hubDnOk, h]
    have := m.isLt
    simp only [Bool.and_eq_true, decide_eq_true_eq]
    omega
  · show (hubIndex p - 1) % 16 = m.val
    rw [h]
    have := m.isLt
    omega

/-- A port feature acts on the port that INDEX names. -/
theorem featureRow_acts {s u : State} {r : HubReq} {m : DnN} {req feature : Nat} {denied : State → DnN → Bool}
    {f : State → DnN → State} (h : hubAsked s r req false) (hn : hubLen r.pkt = 0) (hi : hubIndex r.pkt = m.val + 1)
    (hv : (hubValue r.pkt).toNat = feature) (hd : denied (hubPop s) m = false) (hf : f (hubPop s) m = u)
    (hup : isUp u.ports[(0 : PortN)] = isUp s.ports[(0 : PortN)]) (hb : u.bus = (hubPop s).bus) :
    ∃ t, featureRow req feature denied f s = .next t ∧ hubAnswered t r 0 false [] ∧ only [.ula, .bus] u t := by
  obtain ⟨hok, hdn⟩ := hubDn_named hi
  have hreq : hubReq r.pkt = req := h.2.2.2.2.2.1
  have hform : hubForm r.pkt false true = 0 := h.2.2.2.2.2.2
  have hwait : s.bus.hubQ = [r] := h.2.2.1
  refine hubRow_writes (g := fun s => f s (hubDn r.pkt)) h (by simp [hreq, hv]) ?_ ((congrArg (f (hubPop s)) hdn).trans hf) hup
    ((congrArg Bus.hubQ hb).trans (hubPop_empty hwait))
  dsimp only
  rw [hok, hdn, hd, show decide (hubLen r.pkt = 0) = true by simp [hn], hubStatus_formed hform]
  rfl

/-- A port feature that the present state refuses. -/
theorem featureRow_denied {s : State} {r : HubReq} {m : DnN} {req feature : Nat} {denied : State → DnN → Bool}
    {f : State → DnN → State} (h : hubAsked s r req false) (hn : hubLen r.pkt = 0) (hi : hubIndex r.pkt = m.val + 1)
    (hv : (hubValue r.pkt).toNat = feature) (hd : denied (hubPop s) m = true) :
    ∃ t, featureRow req feature denied f s = .next t ∧ hubAnswered t r 4 false [] ∧ only [.ula, .bus] s t := by
  obtain ⟨hok, hdn⟩ := hubDn_named hi
  have hreq : hubReq r.pkt = req := h.2.2.2.2.2.1
  have hform : hubForm r.pkt false true = 0 := h.2.2.2.2.2.2
  obtain ⟨t, hrun, hans, -, hframe⟩ := hubRow_denied (status := 4) (g := fun s => f s (hubDn r.pkt)) h
    (f := fun p => hubReq p = req && (hubValue p).toNat = feature)
    (act := fun s r => hubDo s r (hubStatus r.pkt false (hubLen r.pkt = 0) (hubDnOk r.pkt && denied s (hubDn r.pkt))
      (hubDnOk r.pkt) true) fun s => f s (hubDn r.pkt)) (by simp [hreq, hv]) (by
      rw [hok, hdn, hd, show decide (hubLen r.pkt = 0) = true by simp [hn], hubStatus_formed hform]
      rfl) (by decide)
  exact ⟨t, hrun, hans, hframe⟩

/-- A port feature whose INDEX names no downstream port. -/
theorem featureRow_unnamed {s : State} {r : HubReq} {req feature : Nat} {denied : State → DnN → Bool}
    {f : State → DnN → State} (h : hubAsked s r req false) (hn : hubLen r.pkt = 0)
    (hi : hubIndex r.pkt = 0 ∨ 16 < hubIndex r.pkt) (hv : (hubValue r.pkt).toNat = feature) :
    ∃ t, featureRow req feature denied f s = .next t ∧ hubAnswered t r 3 false [] ∧ only [.ula, .bus] s t := by
  have hok : hubDnOk r.pkt = false := by
    simp only [hubDnOk]
    rcases hi with hi | hi
    · simp [hi]
    · simp [Nat.not_le.mpr hi]
  have hreq : hubReq r.pkt = req := h.2.2.2.2.2.1
  have hform : hubForm r.pkt false true = 0 := h.2.2.2.2.2.2
  obtain ⟨t, hrun, hans, -, hframe⟩ := hubRow_denied (status := 3) (g := fun s => f s (hubDn r.pkt)) h
    (f := fun p => hubReq p = req && (hubValue p).toNat = feature)
    (act := fun s r => hubDo s r (hubStatus r.pkt false (hubLen r.pkt = 0) (hubDnOk r.pkt && denied s (hubDn r.pkt))
      (hubDnOk r.pkt) true) fun s => f s (hubDn r.pkt)) (by simp [hreq, hv]) (by
      rw [hok, show decide (hubLen r.pkt = 0) = true by simp [hn], hubStatus_formed hform]
      rfl) (by decide)
  exact ⟨t, hrun, hans, hframe⟩

/-! ## What the effects leave of UP -/

theorem At.up {ps : List Part} {n : PortN} {s t : State} (h : At ps n id s t) :
    isUp t.ports[n] = isUp s.ports[n] := (congrArg isUp h.port :)

/-- UP keeps its link while a downstream port turns. -/
theorem Turns.up {ps : List Part} {m : DnN} {f : Port → Port} {s t : State} (h : Turns ps (dnPort m) f s t) :
    isUp t.ports[(0 : PortN)] = isUp s.ports[(0 : PortN)] := (h.others 0 (dnPort_ne_zero m).symm).up

theorem isUp_of_ports {s t : State} {n : PortN} (h : t.ports = s.ports) : isUp t.ports[n] = isUp s.ports[n] :=
  congrArg (fun v : Vector Port 17 => isUp v[n]) h

theorem leaveDisabled_up (s : State) (m : DnN) :
    isUp (leaveDisabled s (dnPort m)).ports[(0 : PortN)] = isUp s.ports[(0 : PortN)] := by
  have hturn := (modPort_turns s (dnPort m) fun p => { p with en := true, defer := false }).seq
    (detectNow_turns _ (dnPort m) false) (rs := [.pps, .ula, .ports, .sur])
  obtain ⟨hports, -⟩ := toDetect_rule (modPort s (dnPort m) fun p => { p with en := true, defer := false }) (dnPort m) false
  exact (isUp_of_ports hports).trans hturn.up

theorem portOff_up {s : State} {m : DnN} (h : s.ports[dnPort m].st ≠ .disabled) (h' : s.ports[dnPort m].st ≠ .disabling) :
    isUp (portOff s (dnPort m)).ports[(0 : PortN)] = isUp s.ports[(0 : PortN)] := by
  obtain ⟨f, hoff, -⟩ := offNow_turns s (dnPort m)
  have hfreed : only [.aon] (offNow s (dnPort m)) (offFreed s (dnPort m)) := modAon_frame (offNow s (dnPort m)) _ _
  have hrest := offRest_passes (decide (s.aon.ports[dnPort m].hold ≠ .none)) (dnPort m) (offFreed s (dnPort m))
  rw [portOff_running h h']
  exact ((hrest.at 0).up).trans ((isUp_of_ports (hfreed .ports (by decide))).trans hoff.up)

/-! ## PORT_FEATHER (R172, R173, R175) -/

/-- The state once PORT_FEATHER has been stored. -/
def feathered (s : State) (n : PortN) (v : Word) : State :=
  stayLit (modAon s n fun a => { a with feather := v &&& featherMask n }) n

theorem feathered_ports (s : State) (n : PortN) (v : Word) (k : PortN) :
    standing (feathered s n v).ports[k] = standing s.ports[k] := (stayLit_passes _ n).ports k

theorem feathered_aon (s : State) (n : PortN) (v : Word) :
    (feathered s n v).aon.ports[n] = { s.aon.ports[n] with feather := v &&& featherMask n } := by
  have hkept : (feathered s n v).aon = _ := (stayLit_passes (modAon s n fun a => { a with feather := v &&& featherMask n })
    n).parts .aon (by decide)
  exact (congrArg (fun a : Aon => a.ports[n]) hkept).trans (modAon_self s n _)

theorem feathered_frame (s : State) (n : PortN) (v : Word) : only [.aon, .ports, .out] s (feathered s n v) :=
  (modAon_frame s n _).seq (stayLit_passes _ n).parts

/-- The bits of PORT_FEATHER of a downstream port are those that are written. -/
theorem feather_bit (v : Word) (m : DnN) (i : Nat) (h : i < 8) : bit (v &&& featherMask (dnPort m)) i = bit v i := by
  have hmask : featherMask (dnPort m) = 0x00FF#16 := if_neg (dnPort_ne_zero m)
  have hbit : bit 0x00FF#16 i = true := by
    revert h
    revert i
    decide
  rw [hmask, bit_and, hbit, Bool.and_true]

theorem holdNow_aon (s : State) (n : PortN) :
    (holdNow s n).aon.ports[n] = { s.aon.ports[n] with hold := .held, sdFell := !s.aon.ports[n].sd } :=
  modAon_self s n _

/-- A suspend leaves PORT_FEATHER, and the hold of a port with a link. -/
theorem suspHold_aon (s : State) (n : PortN) :
    (suspHold s n).aon.ports[n].feather = s.aon.ports[n].feather ∧
      (isUp s.ports[n] = true → (suspHold s n).aon.ports[n].hold = s.aon.ports[n].hold) := by
  have hdet := congrArg AonPort.feather (detectNow_turns s n false).self.hold
  unfold suspHold
  dsimp only
  split
  case isTrue h =>
    refine ⟨?_, fun hu => ?_⟩
    · rw [holdNow_aon]
      show (if s.ports[n].st = .detect then s else detectNow s n false).aon.ports[n].feather = _
      split
      · rfl
      · exact hdet
    · simp [hu, -Fin.getElem_fin] at h
  case isFalse => exact ⟨rfl, fun _ => rfl⟩

theorem suspHold_up (s : State) (m : DnN) :
    isUp (suspHold s (dnPort m)).ports[(0 : PortN)] = isUp s.ports[(0 : PortN)] := by
  unfold suspHold
  dsimp only
  split
  · show isUp (if s.ports[dnPort m].st = .detect then s else detectNow s (dnPort m) false).ports[(0 : PortN)] = _
    split
    · rfl
    · exact (detectNow_turns s (dnPort m) false).up
  · rfl

/-- A write of PORT_FEATHER that leaves SUSP as it is stores its fields. -/
theorem featherWrite_same {s : State} {n : PortN} {v : Word}
    (h : bit (v &&& featherMask n) 3 = bit s.aon.ports[n].feather 3) : featherWrite s n v = feathered s n v := by
  unfold featherWrite
  dsimp only
  rw [h]
  cases bit s.aon.ports[n].feather 3 <;> rfl

theorem featherWrite_suspends {s : State} {n : PortN} {v : Word} (h : bit (v &&& featherMask n) 3 = true)
    (ho : bit s.aon.ports[n].feather 3 = false) : featherWrite s n v = suspHold (feathered s n v) n := by
  unfold featherWrite
  dsimp only
  rw [h, ho]
  rfl

theorem featherWrite_resumes {s : State} {n : PortN} {v : Word} (h : bit (v &&& featherMask n) 3 = false)
    (ho : bit s.aon.ports[n].feather 3 = true) : featherWrite s n v = resumePort (feathered s n v) n := by
  unfold featherWrite
  dsimp only
  rw [h, ho]
  rfl

theorem feathered_up (s : State) (m : DnN) (v : Word) :
    isUp (feathered s (dnPort m) v).ports[(0 : PortN)] = isUp s.ports[(0 : PortN)] :=
  (congrArg isUp (feathered_ports s (dnPort m) v 0) :)

/-- SUSP of a downstream port is set (R172). -/
theorem putFeather_suspend (s : State) (m : DnN) :
    bit (putFeather 3 true s m).aon.ports[dnPort m].feather 3 = true ∧
      (isUp s.ports[dnPort m] = true →
        (putFeather 3 true s m).aon.ports[dnPort m].hold = s.aon.ports[dnPort m].hold) ∧
      isUp (putFeather 3 true s m).ports[(0 : PortN)] = isUp s.ports[(0 : PortN)] ∧
      only [.pps, .aon, .ula, .ports, .sur, .out] s (putFeather 3 true s m) := by
  have hset : bit (setBit s.aon.ports[dnPort m].feather 3 true &&& featherMask (dnPort m)) 3 = true := by
    rw [feather_bit _ m 3 (by omega), bit_setBit_self _ _ (by omega)]
  have haon := feathered_aon s (dnPort m) (setBit s.aon.ports[dnPort m].feather 3 true)
  have hframe := feathered_frame s (dnPort m) (setBit s.aon.ports[dnPort m].feather 3 true)
  have hup := feathered_up s m (setBit s.aon.ports[dnPort m].feather 3 true)
  have hlink : isUp (feathered s (dnPort m) (setBit s.aon.ports[dnPort m].feather 3 true)).ports[dnPort m] =
      isUp s.ports[dnPort m] :=
    (congrArg isUp (feathered_ports s (dnPort m) (setBit s.aon.ports[dnPort m].feather 3 true) (dnPort m)) :)
  unfold putFeather
  by_cases hold : bit s.aon.ports[dnPort m].feather 3 = true
  · rw [featherWrite_same (hset.trans hold.symm)]
    exact ⟨(congrArg (fun a : AonPort => bit a.feather 3) haon).trans hset, fun _ => (congrArg AonPort.hold haon :), hup,
      hframe.widen⟩
  · rw [featherWrite_suspends hset (Bool.eq_false_iff.mpr hold)]
    obtain ⟨hfeather, hhold⟩ := suspHold_aon (feathered s (dnPort m) (setBit s.aon.ports[dnPort m].feather 3 true)) (dnPort m)
    refine ⟨?_, fun hu => (hhold (hlink.trans hu)).trans (congrArg AonPort.hold haon :), (suspHold_up _ m).trans hup,
      hframe.seq (suspHold_frame _ _)⟩
    rw [hfeather, haon]
    exact hset

/-- SUSP of a downstream port is cleared (R173): after its hold the beacon is driven. -/
theorem putFeather_resume (s : State) (m : DnN) :
    bit (putFeather 3 false s m).aon.ports[dnPort m].feather 3 = false ∧
      (bit s.aon.ports[dnPort m].feather 3 = true → s.aon.ports[dnPort m].hold = .held →
        s.aon.ports[dnPort m].bcn = .none → (putFeather 3 false s m).aon.ports[dnPort m].bcn = .drive) ∧
      isUp (putFeather 3 false s m).ports[(0 : PortN)] = isUp s.ports[(0 : PortN)] ∧
      only [.aon, .ports, .out] s (putFeather 3 false s m) := by
  have hclear : bit (setBit s.aon.ports[dnPort m].feather 3 false &&& featherMask (dnPort m)) 3 = false := by
    rw [feather_bit _ m 3 (by omega), bit_setBit_self _ _ (by omega)]
  have haon := feathered_aon s (dnPort m) (setBit s.aon.ports[dnPort m].feather 3 false)
  have hframe := feathered_frame s (dnPort m) (setBit s.aon.ports[dnPort m].feather 3 false)
  have hup := feathered_up s m (setBit s.aon.ports[dnPort m].feather 3 false)
  unfold putFeather
  by_cases hold : bit s.aon.ports[dnPort m].feather 3 = true
  · rw [featherWrite_resumes hclear hold]
    have hres : (resumePort (feathered s (dnPort m) (setBit s.aon.ports[dnPort m].feather 3 false)) (dnPort m)).aon.ports[dnPort m] =
      _ := modAon_self _ (dnPort m) _
    refine ⟨?_, fun _ hheld hbcn => ?_, hup, hframe.seq (modAon_frame _ _ _)⟩
    · rw [hres, haon]
      dsimp only
      (repeat' split) <;> exact hclear
    · rw [hres, haon]
      dsimp only
      rw [hheld, hbcn]
      rfl
  · have hsame := featherWrite_same (hclear.trans (Bool.eq_false_iff.mpr hold).symm)
    rw [hsame]
    exact ⟨(congrArg (fun a : AonPort => bit a.feather 3) haon).trans hclear, fun h => absurd h hold, hup, hframe.widen⟩

/-- BFWD of a downstream port is written (R175). -/
theorem putFeather_forward (b : Bool) (s : State) (m : DnN) :
    bit (putFeather 2 b s m).aon.ports[dnPort m].feather 2 = b ∧
      isUp (putFeather 2 b s m).ports[(0 : PortN)] = isUp s.ports[(0 : PortN)] ∧
      only [.aon, .ports, .out] s (putFeather 2 b s m) := by
  have hset : bit (setBit s.aon.ports[dnPort m].feather 2 b &&& featherMask (dnPort m)) 2 = b := by
    rw [feather_bit _ m 2 (by omega), bit_setBit_self _ _ (by omega)]
  have hsame : bit (setBit s.aon.ports[dnPort m].feather 2 b &&& featherMask (dnPort m)) 3 =
      bit s.aon.ports[dnPort m].feather 3 := by
    rw [feather_bit _ m 3 (by omega), bit_setBit_ne _ _ (by omega) (by omega)]
  have haon := feathered_aon s (dnPort m) (setBit s.aon.ports[dnPort m].feather 2 b)
  unfold putFeather
  rw [featherWrite_same hsame]
  exact ⟨(congrArg (fun a : AonPort => bit a.feather 2) haon).trans hset,
    feathered_up s m (setBit s.aon.ports[dnPort m].feather 2 b), feathered_frame _ _ _⟩

/-! ## RST (R63) -/

theorem wakeTx_others (s : State) (n : PortN) : portsBut n s (wakeTx s n) := fun m hm => by
  unfold wakeTx
  split
  · exact (modPort_ne _ n m _ hm).trans (modPort_ne _ n m _ hm)
  · rfl

theorem sendTs_others (s : State) (n : PortN) (k : TsKind) (a0 a1 : Word) : portsBut n s (sendTs s n k a0 a1) := by
  unfold sendTs
  split
  · exact wakeTx_others s n
  · exact portsBut_modPort s n _

/-- RST starts on a port (R63): its level, and a set between packets. -/
theorem driveRst_rule (arg : Nat) (s : State) (m : DnN) :
    Turns [.ports, .out] (dnPort m) (fun p => { p with rstOut := true, rstArg := arg }) s (driveRst arg s m) ∧
      .rst m arg true ∈ (driveRst arg s m).out ∧ portsBut (dnPort m) s (driveRst arg s m) := by
  have hlevel := (modPort_turns s (dnPort m) fun p => { p with rstOut := true, rstArg := arg }).pass
    (emit_passes _ (.rst m arg true)) (rs := [.ports, .out])
  have hsent := sendTs_passes (emit (modPort s (dnPort m) fun p => { p with rstOut := true, rstArg := arg }) (.rst m arg true))
    (dnPort m) .rst (w16 arg) 0#16
  refine ⟨hlevel.pass hsent, hsent.outs.subset List.mem_cons_self, fun k hk => ?_⟩
  exact (sendTs_others _ (dnPort m) _ _ _ k hk).trans (modPort_ne s (dnPort m) k _ hk)

/-- Settles O33: it holds.  A port feature does what the rows of PORT_CTRL, PORT_FEATHER and RST do, and answers. -/
theorem hubPortFeatures : Obligations.HubPortFeatures := by
  unfold Obligations.HubPortFeatures
  refine ⟨fun m r s h hn hi => ⟨fun hv hst hs => ?_, fun hv hu hs => ?_, fun hv hu => ?_, fun hv hu => ?_, fun hv => ?_,
    fun hv => ?_, fun hv => ?_⟩, fun m r s h hn hi => ⟨fun hv h1 h2 => ?_, fun hv => ?_, fun hv => ?_, fun hv => ?_,
    fun hv => ?_⟩, fun r s h hn hi x hx hv => ?_⟩
  · have hrun : portEnWrite (hubPop s) (dnPort m) true = leaveDisabled (hubPop s) (dnPort m) := by
      show portOnWrite (hubPop s) (dnPort m) = _
      unfold portOnWrite
      rw [show (hubPop s).ports[dnPort m].st = .disabled from hst]
    obtain ⟨hdet, hen, -, hframe⟩ := leaveDisabled_rule (s := hubPop s) (n := dnPort m)
    obtain ⟨t, ht, hans, hkept⟩ := featureRow_acts (denied := neverDenied)
      (f := fun s m => portEnWrite s (dnPort m) true) h hn hi hv rfl hrun (leaveDisabled_up (hubPop s) m)
      (hframe .bus (by decide))
    have hports : t.ports = _ := hkept .ports (by decide)
    refine ⟨t, ht, hans, ?_⟩
    rw [hports]
    exact ⟨hdet, hen, ((bus_frame s _).seq hframe (rs := [.pps, .aon, .ula, .ports, .sur, .bus])).seq hkept⟩
  · have hrun := retrainWrite_up (s := hubPop s) (n := dnPort m) hu
    have hcap := modPort_turns (hubPop s) (dnPort m) fun q => { q with cap := 4 }
    have hturn := (hcap.seq (retrain_turns (notSusp_of_hold hcap.self.hold hs) 5) (rs := errParts)).seq
      (modPort_turns _ (dnPort m) fun q => { q with retrain := decide (q.st = .align) }) (rs := errParts)
    obtain ⟨t, ht, hans, hkept⟩ := featureRow_acts (denied := neverDenied)
      (f := fun s m => retrainWrite s (dnPort m)) h hn hi hv rfl hrun hturn.up
      (hturn.self.parts .bus (by decide))
    have hports : t.ports = _ := hkept .ports (by decide)
    refine ⟨t, ht, hans, ?_⟩
    rw [hports]
    exact ⟨(congrArg Port.st hturn.self.port :), (congrArg Port.cap hturn.self.port :),
      (congrArg Port.retrain hturn.self.port :), ((bus_frame s _).seq hturn.self.parts (rs := .bus :: errParts)).seq hkept⟩
  · obtain ⟨hturn, hout, hbut⟩ := driveRst_rule 2 (hubPop s) m
    have hfree : (!isUp (hubPop s).ports[dnPort m]) = false := by
      show (!isUp s.ports[dnPort m]) = false
      rw [hu]
      rfl
    obtain ⟨t, ht, hans, hkept⟩ := featureRow_acts (denied := fun s m => !isUp s.ports[dnPort m]) h hn hi hv hfree rfl
      hturn.up (hturn.self.parts .bus (by decide))
    have hports : t.ports = _ := hkept .ports (by decide)
    refine ⟨t, ht, hans, ?_, ?_, fun k hk => ?_, ((bus_frame s _).seq hturn.self.parts (rs := [.ula, .ports, .out, .bus])).seq hkept⟩
    · rw [hports]
      exact (congrArg Port.rstOut hturn.self.port :)
    · rw [hkept .out (by decide)]
      exact hout
    · rw [hports]
      exact hbut k hk
  · have hheld : (!isUp (hubPop s).ports[dnPort m]) = true := by
      show (!isUp s.ports[dnPort m]) = true
      rw [hu]
      rfl
    obtain ⟨t, ht, hans, hframe⟩ := featureRow_denied (denied := fun s m => !isUp s.ports[dnPort m]) (f := driveRst 2)
      h hn hi hv hheld
    exact ⟨t, ht, hans, hframe.widen⟩
  · have hturn := modPort_turns (hubPop s) (dnPort m) fun p => { p with fragEn := true }
    obtain ⟨t, ht, hans, hkept⟩ := featureRow_acts (denied := neverDenied) (f := putFrag true) h hn hi hv rfl rfl hturn.up rfl
    have hports : t.ports = _ := hkept .ports (by decide)
    refine ⟨t, ht, hans, ?_, fun k hk => ?_,
      ((bus_frame s _).seq hturn.self.parts (rs := [.ula, .ports, .bus])).seq hkept⟩
    · rw [hports]
      exact modPort_self (hubPop s) (dnPort m) _
    · rw [hports]
      exact portsBut_modPort (hubPop s) (dnPort m) _ k hk
  · obtain ⟨hbit, hhold, hup, hframe⟩ := putFeather_suspend (hubPop s) m
    obtain ⟨t, ht, hans, hkept⟩ := featureRow_acts (denied := neverDenied) h hn hi hv rfl rfl hup
      (hframe .bus (by decide))
    have haon : t.aon = _ := hkept .aon (by decide)
    refine ⟨t, ht, hans, ?_⟩
    rw [haon]
    exact ⟨hbit, hhold, ((bus_frame s _).seq hframe (rs := [.pps, .aon, .ula, .ports, .sur, .out, .bus])).seq hkept⟩
  · obtain ⟨hbit, hup, hframe⟩ := putFeather_forward true (hubPop s) m
    obtain ⟨t, ht, hans, hkept⟩ := featureRow_acts (denied := neverDenied) h hn hi hv rfl rfl hup
      (hframe .bus (by decide))
    have haon : t.aon = _ := hkept .aon (by decide)
    refine ⟨t, ht, hans, ?_⟩
    rw [haon]
    exact ⟨hbit, ((bus_frame s _).seq hframe (rs := [.aon, .ula, .ports, .out, .bus])).seq hkept⟩
  · obtain ⟨hoff, hen, -, -, -, -, -, -, hframe⟩ := portOff_rule (s := hubPop s) (n := dnPort m) h1 h2
    obtain ⟨t, ht, hans, hkept⟩ := featureRow_acts (denied := neverDenied) (f := fun s m => portEnWrite s (dnPort m) false)
      h hn hi hv rfl rfl (portOff_up h1 h2) (hframe .bus (by decide))
    have hports : t.ports = _ := hkept .ports (by decide)
    refine ⟨t, ht, hans, ?_⟩
    rw [hports]
    exact ⟨hoff, hen, ((bus_frame s _).seq hframe
      (rs := [.bb, .aon, .doms, .ula, .que, .ports, .tt, .tb, .sur, .out, .bus])).seq hkept⟩
  · have hturn := modPort_turns (hubPop s) (dnPort m) fun p => { p with evt := p.evt &&& 0xFC00#16 }
    obtain ⟨t, ht, hans, hkept⟩ := featureRow_acts (denied := neverDenied)
      (f := fun s m => writeReg s .hub 0x03FF#16 (.port (dnPort m) .evt)) h hn hi hv rfl rfl hturn.up rfl
    have hports : t.ports = _ := hkept .ports (by decide)
    refine ⟨t, ht, hans, ?_, fun k hk => ?_,
      ((bus_frame s _).seq hturn.self.parts (rs := [.ula, .ports, .bus])).seq hkept⟩
    · rw [hports]
      exact modPort_self (hubPop s) (dnPort m) fun p => { p with evt := p.evt &&& 0xFC00#16 }
    · rw [hports]
      exact portsBut_modPort (hubPop s) (dnPort m) (fun p => { p with evt := p.evt &&& 0xFC00#16 }) k hk
  · have hturn := modPort_turns (hubPop s) (dnPort m) fun p => { p with fragEn := false }
    obtain ⟨t, ht, hans, hkept⟩ := featureRow_acts (denied := neverDenied) (f := putFrag false) h hn hi hv rfl rfl hturn.up rfl
    have hports : t.ports = _ := hkept .ports (by decide)
    refine ⟨t, ht, hans, ?_, fun k hk => ?_,
      ((bus_frame s _).seq hturn.self.parts (rs := [.ula, .ports, .bus])).seq hkept⟩
    · rw [hports]
      exact modPort_self (hubPop s) (dnPort m) _
    · rw [hports]
      exact portsBut_modPort (hubPop s) (dnPort m) _ k hk
  · obtain ⟨hbit, hdrive, hup, hframe⟩ := putFeather_resume (hubPop s) m
    obtain ⟨t, ht, hans, hkept⟩ := featureRow_acts (denied := neverDenied) h hn hi hv rfl rfl hup
      (hframe .bus (by decide))
    have haon : t.aon = _ := hkept .aon (by decide)
    refine ⟨t, ht, hans, ?_⟩
    rw [haon]
    exact ⟨hbit, hdrive, ((bus_frame s _).seq hframe (rs := [.aon, .ula, .ports, .out, .bus])).seq hkept⟩
  · obtain ⟨hbit, hup, hframe⟩ := putFeather_forward false (hubPop s) m
    obtain ⟨t, ht, hans, hkept⟩ := featureRow_acts (denied := neverDenied) h hn hi hv rfl rfl hup
      (hframe .bus (by decide))
    have haon : t.aon = _ := hkept .aon (by decide)
    refine ⟨t, ht, hans, ?_⟩
    rw [haon]
    exact ⟨hbit, ((bus_frame s _).seq hframe (rs := [.aon, .ula, .ports, .out, .bus])).seq hkept⟩
  · simp only [List.mem_cons, List.not_mem_nil, or_false] at hx
    have hbad : ∀ feature denied f, (hubValue r.pkt).toNat = feature →
        ∃ t, featureRow 4 feature denied f s = .next t ∧ hubAnswered t r 3 false [] ∧ only [.ula, .bus] s t :=
      fun _ _ _ => featureRow_unnamed h hn hi
    rcases hx with rfl | rfl | rfl | rfl | rfl | rfl
    · exact hbad 1 neverDenied (fun s m => portEnWrite s (dnPort m) true) hv
    · exact hbad 2 neverDenied (fun s m => retrainWrite s (dnPort m)) hv
    · exact hbad 4 (fun s m => !isUp s.ports[dnPort m]) (driveRst 2) hv
    · exact hbad 5 neverDenied (putFrag true) hv
    · exact hbad 6 neverDenied (putFeather 3 true) hv
    · exact hbad 7 neverDenied (putFeather 2 true) hv

end Sys2Proof.Machine
end

section
/-! PROOF. The hub requests that write tables, addresses and crews (O34). -/

namespace Sys2Proof.Machine

open Sys2Proof Sys2Proof.Safety

-- One proof after the other: side by side, the proofs of one text wait for each other in too many threads.
set_option Elab.async false


/-! ## Requests of one REQ code -/

/-- A request of REQ `req` that writes: its effect, then its answer. -/
theorem hubReq_writes {s u : State} {r : HubReq} {req : Nat} {act : State → HubReq → State} {g : State → State}
    {lenOk denied valOk : Bool} (h : hubAsked s r req false)
    (hact : act (hubPop s) r = hubDo (hubPop s) r (hubStatus r.pkt false lenOk denied valOk true) g)
    (hlen : lenOk = true) (hd : denied = false) (hval : valOk = true) (hg : g (hubPop s) = u)
    (hup : isUp u.ports[(0 : PortN)] = isUp s.ports[(0 : PortN)]) (hq : u.bus.hubQ = []) :
    ∃ t, hubRow req act s = .next t ∧ hubAnswered t r 0 false [] ∧ (∃ k, t.bus = withKept k u.bus) ∧
      only [.ula, .bus] u t := by
  obtain ⟨hl, hu, hwait, hm, hb, hreq, hform⟩ := h
  have hans := hubReply_answers (s := u) (hup.trans hu) hm hq 0 false []
  obtain ⟨⟨hempty, -⟩, -⟩ := id hans
  have hrun : act (hubPop s) r = hubReply u r 0 false [] := by
    rw [hact, hlen, hd, hval, hubStatus_formed hform, ← hg]
    rfl
  exact ⟨_, onHub_run hl hwait hb (by simpa using hreq) hrun hempty, hans, hubReply_bus u r 0 false [],
    hubReply_frame u r 0 false []⟩

/-- A request of REQ `req` that is refused. -/
theorem hubReq_refused {s : State} {r : HubReq} {req status : Nat} {act : State → HubReq → State} {g : State → State}
    {lenOk denied valOk : Bool} (h : hubAsked s r req false)
    (hact : act (hubPop s) r = hubDo (hubPop s) r (hubStatus r.pkt false lenOk denied valOk true) g)
    (hst : (if lenOk then if denied then 4 else if valOk then 0 else 3 else 2) = status) (hne : status ≠ 0) :
    ∃ t, hubRow req act s = .next t ∧ hubAnswered t r status false [] ∧ t.bus = withKept t.bus.kept (hubPop s).bus ∧
      only [.ula, .bus] s t := by
  have hform : hubForm r.pkt false true = 0 := h.2.2.2.2.2.2
  have hreq : hubReq r.pkt = req := h.2.2.2.2.2.1
  have hcode : hubStatus r.pkt false lenOk denied valOk true = status := by
    rw [← hst]
    cases lenOk
    · rw [hubStatus_badLength hform]
      rfl
    · rw [hubStatus_formed hform]
      cases denied <;> cases valOk <;> rfl
  exact hubRow_denied h (by simpa using hreq) (hact.trans (congrArg (fun x => hubDo (hubPop s) r x g) hcode)) hne

/-! ## Schedules -/

/-- Entries written one after the other hold what they were given, and the others what they held. -/
theorem schedWrites {n : PortN} {first : Nat} {ws : Nat → Word} (k : Nat) (s : State) :
    (∃ t, forEach (List.range k) (fun a i => schedWrite a n (first + i) (ws i)) s =
      { s with bus := { s.bus with sched := t } } ∧
      (∀ i < k, tabGet 0#16 t (schedKey n (first + i)) = ws i &&& 0xFFF0#16) ∧
      ∀ x, (∀ i < k, x ≠ schedKey n (first + i)) → tabGet 0#16 t x = tabGet 0#16 s.bus.sched x) := by
  induction k with
  | zero => exact ⟨s.bus.sched, rfl, fun i hi => absurd hi (Nat.not_lt_zero i), fun _ _ => rfl⟩
  | succ k ih =>
    obtain ⟨t, ht, hin, hout⟩ := ih
    refine ⟨tabSet 0#16 t (schedKey n (first + k)) (ws k &&& 0xFFF0#16), ?_, fun i hi => ?_, fun x hx => ?_⟩
    · rw [List.range_succ, forEach_snoc, ht]
      rfl
    · rw [tabGet_set]
      by_cases hik : i = k
      · rw [if_pos (by rw [hik]), hik]
      · rw [if_neg (by unfold schedKey; omega)]
        exact hin i (by omega)
    · rw [tabGet_set, if_neg (hx k (Nat.lt_succ_self k))]
      exact hout x fun i hi => hx i (by omega)

/-! ## Crews -/

/-- A crew without its flags. -/
def unflagged (c : Crew) : Crew := { c with miss := false, far := false, ovr := false, pass := false }

theorem flagCrew_crew (s : State) (k j : CrewN) (f : Word) :
    unflagged (flagCrew s k f).tb.crews[j] = unflagged s.tb.crews[j] ∧
      (j ≠ k → (flagCrew s k f).tb.crews[j] = s.tb.crews[j]) := by
  rw [flagCrew_tb]
  by_cases h : j = k
  · subst h
    rw [vMod_get_self]
    exact ⟨rfl, fun h => absurd rfl h⟩
  · rw [vMod_get_ne _ _ _ _ h]
    exact ⟨rfl, fun _ => rfl⟩

theorem flagCrews_crew {k : CrewN} (f : Word) (l : List CrewN) (hl : ∀ x ∈ l, x = k) (s : State) (j : CrewN) :
    unflagged (forEach l (fun a x => flagCrew a x f) s).tb.crews[j] = unflagged s.tb.crews[j] ∧
      (j ≠ k → (forEach l (fun a x => flagCrew a x f) s).tb.crews[j] = s.tb.crews[j]) := by
  induction l generalizing s with
  | nil => exact ⟨rfl, fun _ => rfl⟩
  | cons x l ih =>
    obtain ⟨hall, hother⟩ := ih (fun y hy => hl y (List.mem_cons_of_mem x hy)) (flagCrew s x f)
    obtain ⟨h1, h2⟩ := flagCrew_crew s x j f
    exact ⟨hall.trans h1, fun h => (hother h).trans (h2 (by rw [hl x List.mem_cons_self]; exact h))⟩

/-- Only the crew whose registers are written lets cues go. -/
theorem heldList_lostBy (s : State) (old new : Crew) (k : CrewN) : ∀ x ∈ heldList s (lostBy old new k), x = k := by
  have hone : ∀ n (c : CrewN × Nat), lostBy old new k n c = true → c.1 = k := fun n c h => by
    simp only [lostBy, Bool.and_eq_true, decide_eq_true_eq] at h
    exact h.1.1
  intro x hx
  simp only [heldList, List.mem_append, List.mem_map, List.mem_flatMap, List.mem_filter, List.mem_filterMap] at hx
  rcases hx with ⟨c, ⟨n, -, -, hc⟩, rfl⟩ | ⟨e, -, he⟩
  · exact hone n c hc
  · split at he
    · rename_i hany
      simp only [he, Option.any_some] at hany
      exact hone 0 _ hany
    · cases he

theorem flagCrews_ports (f : Word) (l : List CrewN) (s : State) :
    (forEach l (fun a x => flagCrew a x f) s).ports = s.ports :=
  (forEach_frame _ _ s fun a x => flagCrew_frame a x f) .ports (by decide)

theorem releaseCues_up (s : State) (f : PortN → CrewN × Nat → Bool) (atCatch : Bool) (n : PortN) :
    isUp (releaseCues s f atCatch).ports[n] = isUp s.ports[n] := by
  rw [releaseCues_ports]
  rfl

/-- A crew's registers are put; it may flag that it has let cues go. -/
theorem crewPut_rule (s : State) (k : CrewN) (new : Crew) :
    unflagged (crewPut s k new).tb.crews[k] = unflagged new ∧
      (∀ j : CrewN, j ≠ k → (crewPut s k new).tb.crews[j] = s.tb.crews[j]) ∧
      isUp (crewPut s k new).ports[(0 : PortN)] = isUp s.ports[(0 : PortN)] ∧
      only [.bb, .aon, .doms, .ln, .hma, .que, .ports, .tt, .tb, .out] s (crewPut s k new) := by
  have hlist := heldList_lostBy (modCrew s k fun _ => new) s.tb.crews[k] new k
  have htb : (crewPut s k new).tb = _ := releaseCues_frame (forEach (heldList (modCrew s k fun _ => new)
    (lostBy s.tb.crews[k] new k)) (fun a x => flagCrew a x 0x0800#16) (modCrew s k fun _ => new)) _ false .tb (by decide)
  rw [htb]
  refine ⟨?_, fun j hj => ?_, ?_, ((tb_frame s _).seq (releaseEarly_frame _ _ _))⟩
  · rw [(flagCrews_crew 0x0800#16 _ hlist (modCrew s k fun _ => new) k).1]
    exact congrArg unflagged (vMod_get_self _ k _)
  · rw [(flagCrews_crew 0x0800#16 _ hlist (modCrew s k fun _ => new) j).2 hj]
    exact vMod_get_ne _ _ _ _ hj
  · have hports := flagCrews_ports 0x0800#16 (heldList (modCrew s k fun _ => new) (lostBy s.tb.crews[k] new k))
      (modCrew s k fun _ => new)
    exact (releaseCues_up _ _ false 0).trans (isUp_of_ports hports)

/-! ## Addresses (R100) -/

/-- SET_ADDRESS of an address that a node may have: it changes once the response has been queued. -/
theorem setAddress_acts {s : State} {r : HubReq} (h : hubAsked s r 0x02 false) (hn : hubLen r.pkt = 0)
    (ha : addressOk (hubValue r.pkt) = true)
    (hi : hubIndex r.pkt = 0 ∨ (hubIndex r.pkt = 0x11 ∧ s.ln.en = true)) :
    ∃ t k, exec .setAddress s = .next t ∧ hubAnswered t r 0 false [] ∧
      t.bus = putAddress (hubIndex r.pkt = 0x11) (hubValue r.pkt) (withKept k (hubPop s).bus) ∧
      only [.ula, .bus] s t := by
  obtain ⟨hl, hu, hwait, hm, hb, hreq, hform⟩ := h
  obtain ⟨k, hk⟩ := hubReply_bus (hubPop s) r 0 false []
  obtain ⟨⟨hempty, hkept⟩, hsent⟩ := hubReply_answers (s := hubPop s) hu hm (hubPop_empty hwait) 0 false []
  have hval : (addressOk (hubValue r.pkt) && (decide (hubIndex r.pkt = 0) ||
      (decide (hubIndex r.pkt = 0x11) && (hubPop s).ln.en))) = true := by
    show (addressOk (hubValue r.pkt) && (decide (hubIndex r.pkt = 0) || (decide (hubIndex r.pkt = 0x11) && s.ln.en))) = true
    rcases hi with hi | ⟨hi, hen⟩
    · simp [ha, hi]
    · simp [ha, hi, hen]
  have hrun : setAddress (hubPop s) r = { hubReply (hubPop s) r 0 false [] with
      bus := putAddress (hubIndex r.pkt = 0x11) (hubValue r.pkt) (hubReply (hubPop s) r 0 false []).bus } := by
    unfold setAddress
    dsimp only
    rw [hval, show decide (hubLen r.pkt = 0) = true by simp [hn], hubStatus_formed hform]
    rfl
  have hput : ∀ b : Bus, (putAddress (hubIndex r.pkt = 0x11) (hubValue r.pkt) b).hubQ = b.hubQ ∧
      (putAddress (hubIndex r.pkt = 0x11) (hubValue r.pkt) b).kept = b.kept := fun b => by
    unfold putAddress
    split <;> exact ⟨rfl, rfl⟩
  refine ⟨_, k, onHub_run hl hwait hb (by simpa using hreq) hrun ((hput _).1.trans hempty),
    ⟨⟨(hput _).1.trans hempty, (hput _).2.trans hkept⟩, hsent⟩,
    congrArg (putAddress (hubIndex r.pkt = 0x11) (hubValue r.pkt)) hk, ?_⟩
  exact ((bus_frame s _).seq (hubReply_frame (hubPop s) r 0 false []) (rs := [.ula, .bus])).seq (bus_frame _ _)

/-- The range of a downstream port is written. -/
def putRange (r : HubReq) (s : State) : State :=
  modPort s (dnPort (hubDn r.pkt)) fun p => { p with rangeLo := hubData r.pkt 0, rangeHi := hubData r.pkt 1 }

/-- VALUE, INDEX and the range of a SET_ROUTE are right. -/
def routeOk (s : State) (r : HubReq) : Bool :=
  hubValue r.pkt = 0#16 && hubDnOk r.pkt && rangeFree s (hubDn r.pkt) (rangeOf (hubData r.pkt 0) (hubData r.pkt 1))

theorem setRoute_eq (s : State) (r : HubReq) : setRoute s r =
    hubDo s r (hubStatus r.pkt false (hubLen r.pkt = 4) false (routeOk s r) true) (putRange r) := rfl

theorem routeOk_named {s : State} {r : HubReq} {m : DnN} (hv : hubValue r.pkt = 0#16)
    (hi : hubIndex r.pkt = m.val + 1) :
    routeOk (hubPop s) r = rangeFree s m (rangeOf (hubData r.pkt 0) (hubData r.pkt 1)) := by
  obtain ⟨hok, hdn⟩ := hubDn_named hi
  rw [routeOk, hdn, hok, hv]
  rfl

theorem setAddress_refused {s : State} {r : HubReq} (h : hubAsked s r 0x02 false) (hn : hubLen r.pkt = 0)
    (ha : addressOk (hubValue r.pkt) = false) :
    ∃ t, exec .setAddress s = .next t ∧ hubAnswered t r 3 false [] ∧ t.bus.node = s.bus.node ∧
      t.bus.loc = s.bus.loc ∧ only [.ula, .bus] s t := by
  have hval : (addressOk (hubValue r.pkt) && (hubIndex r.pkt = 0 || (hubIndex r.pkt = 0x11 && (hubPop s).ln.en))) =
      false := by rw [ha, Bool.false_and]
  have hact : setAddress (hubPop s) r = hubDo (hubPop s) r
      (hubStatus r.pkt false true false false true) id := by
    have hform : hubForm r.pkt false true = 0 := h.2.2.2.2.2.2
    unfold setAddress
    dsimp only
    rw [hval, show decide (hubLen r.pkt = 0) = true by simp [hn], hubStatus_formed hform]
    rfl
  obtain ⟨t, ht, hans, hbus, hframe⟩ := hubReq_refused (act := setAddress) (status := 3) h hact rfl (by decide)
  exact ⟨t, ht, hans, (congrArg Bus.node hbus :), (congrArg Bus.loc hbus :), hframe⟩

theorem setRoute_acts {m : DnN} {s : State} {r : HubReq} (h : hubAsked s r 0x06 false) (hn : hubLen r.pkt = 4)
    (hv : hubValue r.pkt = 0#16) (hi : hubIndex r.pkt = m.val + 1)
    (hfree : rangeFree s m (rangeOf (hubData r.pkt 0) (hubData r.pkt 1)) = true) :
    ∃ t, exec .setRoute s = .next t ∧ hubAnswered t r 0 false [] ∧
      t.ports[dnPort m] = { s.ports[dnPort m] with rangeLo := hubData r.pkt 0, rangeHi := hubData r.pkt 1 } ∧
      portsBut (dnPort m) s t ∧ only [.ula, .ports, .bus] s t := by
  obtain ⟨-, hdn⟩ := hubDn_named hi
  have hwait : s.bus.hubQ = [r] := h.2.2.1
  have hput : putRange r (hubPop s) = modPort (hubPop s) (dnPort m) fun p =>
      { p with rangeLo := hubData r.pkt 0, rangeHi := hubData r.pkt 1 } := by rw [putRange, hdn]
  have hturn := modPort_turns (hubPop s) (dnPort m) fun p =>
    { p with rangeLo := hubData r.pkt 0, rangeHi := hubData r.pkt 1 }
  obtain ⟨t, ht, hans, -, hkept⟩ := hubReq_writes h (setRoute_eq (hubPop s) r) (by simp [hn]) rfl
    ((routeOk_named hv hi).trans hfree) hput hturn.up (hubPop_empty hwait)
  have hports : t.ports = _ := hkept .ports (by decide)
  refine ⟨t, ht, hans, ?_, fun k hk => ?_, ((bus_frame s _).seq hturn.self.parts (rs := [.ula, .ports, .bus])).seq hkept⟩
  · rw [hports]
    exact modPort_self (hubPop s) (dnPort m) _
  · rw [hports]
    exact portsBut_modPort (hubPop s) (dnPort m) _ k hk

theorem setRoute_refused {m : DnN} {s : State} {r : HubReq} (h : hubAsked s r 0x06 false) (hn : hubLen r.pkt = 4)
    (hv : hubValue r.pkt = 0#16) (hi : hubIndex r.pkt = m.val + 1)
    (hfree : rangeFree s m (rangeOf (hubData r.pkt 0) (hubData r.pkt 1)) = false) :
    ∃ t, exec .setRoute s = .next t ∧ hubAnswered t r 3 false [] ∧ only [.ula, .bus] s t := by
  obtain ⟨t, ht, hans, -, hframe⟩ := hubReq_refused (status := 3) h (setRoute_eq (hubPop s) r)
    (by rw [if_pos (by simp [hn]), if_neg (by decide), (routeOk_named hv hi).trans hfree]; rfl) (by decide)
  exact ⟨t, ht, hans, hframe⟩

/-! ## The multicast table and the schedules (R100) -/

/-- The entry that a SET_MCAST carries. -/
def mcastEnt (r : HubReq) : McEnt :=
  { grp := hubData r.pkt 0, ports := hubData r.pkt 1, loc := hubData r.pkt 2 &&& 0x8003#16, hits := 0#16 }

/-- The three words of a multicast entry are written together. -/
def putMcast (r : HubReq) (s : State) : State :=
  { s with bus := { s.bus with mc := tabSet McEnt.zero s.bus.mc (hubIndex r.pkt) (mcastEnt r) } }

theorem setMcast_eq (s : State) (r : HubReq) : setMcast s r =
    hubDo s r (hubStatus r.pkt false (hubLen r.pkt = 6) false (hubValue r.pkt = 0#16 && hubIndex r.pkt ≤ 255) true)
      (putMcast r) := rfl

theorem setMcast_acts {s : State} {r : HubReq} (h : hubAsked s r 0x07 false) (hn : hubLen r.pkt = 6)
    (hv : hubValue r.pkt = 0#16) (hi : hubIndex r.pkt ≤ 255) :
    ∃ t, exec .setMcast s = .next t ∧ hubAnswered t r 0 false [] ∧
      tabGet McEnt.zero t.bus.mc (hubIndex r.pkt) =
        { grp := hubData r.pkt 0, ports := hubData r.pkt 1, loc := hubData r.pkt 2 &&& 0x8003#16, hits := 0#16 } ∧
      (∀ k, k ≠ hubIndex r.pkt → tabGet McEnt.zero t.bus.mc k = tabGet McEnt.zero s.bus.mc k) ∧
      only [.ula, .bus] s t := by
  have hwait : s.bus.hubQ = [r] := h.2.2.1
  obtain ⟨t, ht, hans, ⟨k, hbus⟩, hkept⟩ := hubReq_writes h (setMcast_eq (hubPop s) r) (by simp [hn]) rfl
    (by simp [hv, hi]) (u := putMcast r (hubPop s)) rfl rfl (hubPop_empty hwait)
  have hmc : t.bus.mc = tabSet McEnt.zero s.bus.mc (hubIndex r.pkt) (mcastEnt r) :=
    congrArg Bus.mc hbus
  refine ⟨t, ht, hans, ?_, fun j hj => ?_,
    ((bus_frame s _).seq (bus_frame (hubPop s) _) (rs := [.ula, .bus])).seq hkept⟩
  · rw [hmc, tabGet_set, if_pos rfl]
    rfl
  · rw [hmc, tabGet_set, if_neg hj]

theorem setSchedule_acts {n : PortN} {s : State} {r : HubReq} (h : hubAsked s r 0x08 false)
    (hi : hubIndex r.pkt = n.val) (hodd : hubLen r.pkt % 2 = 0) (h2 : 2 ≤ hubLen r.pkt) (h128 : hubLen r.pkt ≤ 128)
    (hrun : (hubValue r.pkt).toNat + hubLen r.pkt / 2 ≤ (if n = 0 then 16 else 64)) :
    ∃ t, exec .setSchedule s = .next t ∧ hubAnswered t r 0 false [] ∧
      (∀ i < hubLen r.pkt / 2, tabGet 0#16 t.bus.sched (schedKey n ((hubValue r.pkt).toNat + i)) =
        hubData r.pkt i &&& 0xFFF0#16) ∧
      (∀ k, (∀ i < hubLen r.pkt / 2, k ≠ schedKey n ((hubValue r.pkt).toNat + i)) →
        tabGet 0#16 t.bus.sched k = tabGet 0#16 s.bus.sched k) ∧
      t.bus.schedAct = s.bus.schedAct ∧ only [.ula, .bus] s t := by
  have hwait : s.bus.hubQ = [r] := h.2.2.1
  have hport : hubPort r.pkt = n := Fin.ext ((congrArg (· % 17) hi).trans (Nat.mod_eq_of_lt n.isLt))
  obtain ⟨tab, htab, hin, hout⟩ := schedWrites (n := n) (first := (hubValue r.pkt).toNat)
    (ws := hubData r.pkt) (hubLen r.pkt / 2) (hubPop s)
  have hlen : (decide (hubLen r.pkt % 2 = 0) && decide (1 ≤ hubLen r.pkt / 2) && decide (hubLen r.pkt / 2 ≤ 64)) = true := by
    simp [hodd]
    omega
  have hval : (decide (hubIndex r.pkt ≤ 16) && decide ((hubValue r.pkt).toNat + hubLen r.pkt / 2 ≤
      if hubIndex r.pkt = 0 then 16 else 64)) = true := by
    have hn0 : (hubIndex r.pkt = 0) = (n = 0) := propext ⟨fun g => Fin.ext (hi.symm.trans g), fun g => by rw [hi, g]; rfl⟩
    have hn16 : hubIndex r.pkt ≤ 16 := by rw [hi]; exact Nat.lt_succ_iff.mp n.isLt
    simp only [hn0, hn16, hrun, decide_true, Bool.and_self]
  obtain ⟨t, ht, hans, ⟨k, hbus⟩, hkept⟩ := hubReq_writes (act := setSchedule) (u := { hubPop s with
    bus := { (hubPop s).bus with sched := tab } }) h rfl hlen rfl hval (by rw [hport]; exact htab) rfl (hubPop_empty hwait)
  have hsched : t.bus.sched = tab := congrArg Bus.sched hbus
  refine ⟨t, ht, hans, fun i hi => ?_, fun x hx => ?_, (congrArg Bus.schedAct hbus :),
    ((bus_frame s _).seq (bus_frame (hubPop s) _) (rs := [.ula, .bus])).seq hkept⟩
  · rw [hsched]
    exact hin i hi
  · rw [hsched]
    exact hout x hx

theorem setSchedule_long {n : PortN} {s : State} {r : HubReq} (h : hubAsked s r 0x08 false)
    (hi : hubIndex r.pkt = n.val) (hodd : hubLen r.pkt % 2 = 0) (h2 : 2 ≤ hubLen r.pkt) (h128 : hubLen r.pkt ≤ 128)
    (hrun : (if n = 0 then 16 else 64) < (hubValue r.pkt).toNat + hubLen r.pkt / 2) :
    ∃ t, exec .setSchedule s = .next t ∧ hubAnswered t r 3 false [] ∧ t.bus.sched = s.bus.sched ∧
      only [.ula, .bus] s t := by
  have hn0 : (hubIndex r.pkt = 0) = (n = 0) := propext ⟨fun g => Fin.ext (hi.symm.trans g), fun g => by rw [hi, g]; rfl⟩
  have hlen : (decide (hubLen r.pkt % 2 = 0) && decide (1 ≤ hubLen r.pkt / 2) && decide (hubLen r.pkt / 2 ≤ 64)) = true := by
    simp [hodd]
    omega
  have hval : (decide (hubIndex r.pkt ≤ 16) && decide ((hubValue r.pkt).toNat + hubLen r.pkt / 2 ≤
      if hubIndex r.pkt = 0 then 16 else 64)) = false := by
    simp only [hn0, decide_eq_false (Nat.not_le.mpr hrun), Bool.and_false]
  obtain ⟨t, ht, hans, hbus, hframe⟩ := hubReq_refused (act := setSchedule) (status := 3) h rfl
    (by rw [if_pos hlen, if_neg (by decide), hval]; rfl) (by decide)
  exact ⟨t, ht, hans, (congrArg Bus.sched hbus :), hframe⟩

theorem setSchedule_badLength {s : State} {r : HubReq} (h : hubAsked s r 0x08 false)
    (hn : hubLen r.pkt % 2 = 1 ∨ hubLen r.pkt < 2 ∨ 128 < hubLen r.pkt) :
    ∃ t, exec .setSchedule s = .next t ∧ hubAnswered t r 2 false [] ∧ t.bus.sched = s.bus.sched ∧
      only [.ula, .bus] s t := by
  have hlen : ¬ (decide (hubLen r.pkt % 2 = 0) && decide (1 ≤ hubLen r.pkt / 2) && decide (hubLen r.pkt / 2 ≤ 64)) = true := by
    simp only [Bool.and_eq_true, decide_eq_true_eq]
    omega
  obtain ⟨t, ht, hans, hbus, hframe⟩ := hubReq_refused (act := setSchedule) (status := 2) h rfl (if_neg hlen) (by decide)
  exact ⟨t, ht, hans, (congrArg Bus.sched hbus :), hframe⟩

/-! ## Crews (R100, R167) -/

/-- The registers of a crew are written together. -/
def putCrew (r : HubReq) (k : CrewN) (s : State) : State :=
  crewSet s k (hubData r.pkt 0) (hubData r.pkt 1) (hubData r.pkt 2) (hubData r.pkt 3)

/-- A crew as a SET_CREW writes it. -/
def crewFrom (r : HubReq) (c : Crew) : Crew :=
  crewCtrlWrite (hubData r.pkt 3)
    { c with mask0 := hubData r.pkt 0, mask1 := hubData r.pkt 1 &&& 0x0001#16, ofs := hubData r.pkt 2 }

theorem putCrew_rule (r : HubReq) (k : CrewN) (s : State) :
    unflagged (putCrew r k s).tb.crews[k] = unflagged (crewFrom r s.tb.crews[k]) ∧
      (∀ j : CrewN, j ≠ k → (putCrew r k s).tb.crews[j] = s.tb.crews[j]) ∧
      isUp (putCrew r k s).ports[(0 : PortN)] = isUp s.ports[(0 : PortN)] ∧
      only [.bb, .aon, .doms, .ln, .hma, .que, .ports, .tt, .tb, .out] s (putCrew r k s) :=
  crewPut_rule s k (crewFrom r s.tb.crews[k])

theorem setCrew_eq (s : State) (r : HubReq) : setCrew s r =
    hubDo s r (hubStatus r.pkt false (hubLen r.pkt = 8) false (hubValue r.pkt = 0#16 && hubIndex r.pkt ≤ 7) true)
      (putCrew r (hubCrew r.pkt)) := rfl

theorem setCrew_acts {k : CrewN} {s : State} {r : HubReq} (h : hubAsked s r 0x09 false) (hn : hubLen r.pkt = 8)
    (hv : hubValue r.pkt = 0#16) (hi : hubIndex r.pkt = k.val) :
    ∃ t, exec .setCrew s = .next t ∧ hubAnswered t r 0 false [] ∧
      t.tb.crews[k].mask0 = hubData r.pkt 0 ∧ t.tb.crews[k].mask1 = hubData r.pkt 1 &&& 0x0001#16 ∧
      t.tb.crews[k].ofs = hubData r.pkt 2 ∧ t.tb.crews[k].en = bit (hubData r.pkt 3) 0 ∧
      t.tb.crews[k].snap = bit (hubData r.pkt 3) 1 ∧ t.tb.crews[k].late = bit (hubData r.pkt 3) 2 ∧
      (∀ j : CrewN, j ≠ k → t.tb.crews[j] = s.tb.crews[j]) ∧
      only [.bb, .aon, .doms, .ln, .hma, .que, .ports, .tt, .tb, .out, .ula, .bus] s t := by
  have hwait : s.bus.hubQ = [r] := h.2.2.1
  have hcrew : hubCrew r.pkt = k := Fin.ext ((congrArg (· % 8) hi).trans (Nat.mod_eq_of_lt k.isLt))
  have hval : (decide (hubValue r.pkt = 0#16) && decide (hubIndex r.pkt ≤ 7)) = true := by
    have hk7 : hubIndex r.pkt ≤ 7 := by rw [hi]; exact Nat.lt_succ_iff.mp k.isLt
    simp [hv, hk7]
  obtain ⟨hnew, hothers, hup, hframe⟩ := putCrew_rule r k (hubPop s)
  obtain ⟨t, ht, hans, -, hkept⟩ := hubReq_writes h (setCrew_eq (hubPop s) r) (by simp [hn]) rfl hval
    (congrArg (fun k => putCrew r k (hubPop s)) hcrew) hup ((congrArg Bus.hubQ (hframe .bus (by decide))).trans (hubPop_empty hwait))
  have htb : t.tb = _ := hkept .tb (by decide)
  rw [← htb] at hnew hothers
  exact ⟨t, ht, hans, (congrArg Crew.mask0 hnew :), (congrArg Crew.mask1 hnew :), (congrArg Crew.ofs hnew :),
    (congrArg Crew.en hnew :), (congrArg Crew.snap hnew :), (congrArg Crew.late hnew :), hothers,
    ((bus_frame s _).seq hframe
      (rs := [.bb, .aon, .doms, .ln, .hma, .que, .ports, .tt, .tb, .out, .ula, .bus])).seq hkept⟩

/-- Settles O34: it holds.  Each request writes one table, and is answered. -/
theorem hubTables : Obligations.HubTables := by
  unfold Obligations.HubTables
  refine ⟨fun r s h hn ha => ⟨fun hi => ?_, fun hi hen => ?_⟩, fun _ _ h hn ha => setAddress_refused h hn ha,
    fun _ _ _ h hn hv hi => ⟨setRoute_acts h hn hv hi, setRoute_refused h hn hv hi⟩,
    fun _ _ h hn hv hi => setMcast_acts h hn hv hi, fun _ _ _ h hi hodd h2 h128 hrun => setSchedule_acts h hi hodd h2 h128 hrun,
    fun _ _ _ h hi hodd h2 h128 hrun => setSchedule_long h hi hodd h2 h128 hrun,
    fun _ _ h hn => setSchedule_badLength h hn, fun _ _ _ h hn hv hi => setCrew_acts h hn hv hi⟩
  · obtain ⟨t, k, ht, hans, hbus, hframe⟩ := setAddress_acts h hn ha (.inl hi)
    rw [hi] at hbus
    exact ⟨t, ht, hans, (congrArg Bus.node hbus :), (congrArg Bus.loc hbus :), hframe⟩
  · obtain ⟨t, k, ht, hans, hbus, hframe⟩ := setAddress_acts h hn ha (.inr ⟨hi, hen⟩)
    rw [hi] at hbus
    exact ⟨t, ht, hans, (congrArg Bus.loc hbus :), (congrArg Bus.node hbus :), hframe⟩

end Sys2Proof.Machine
end

section
/-! PROOF. The hub requests for power, clock and suspend (O35). -/

namespace Sys2Proof.Machine

open Sys2Proof Sys2Proof.Safety

-- One proof after the other: side by side, the proofs of one text wait for each other in too many threads.
set_option Elab.async false


/-! ## What the budget's decisions leave -/

/-- What of a switch no sharing out of the budget changes: its command, whether its leg is lost, and its faults. -/
def lasting (p : Pps) : Bool × Bool × Word := (p.on, p.lost, p.fault)

/-- From `s` to `t` the budget has been shared out: UP has the link it had, and of no switch has its command changed,
nor a loss of its leg, nor its faults. -/
structure Allots (s t : State) : Prop where
  parts : only errParts s t
  up : isUp t.ports[(0 : PortN)] = isUp s.ports[(0 : PortN)]
  kept : ∀ k : DnN, lasting t.pps[k] = lasting s.pps[k]

theorem Allots.refl (s : State) : Allots s s := ⟨only_refl _ s, rfl, fun _ => rfl⟩

theorem Allots.seq {s t u : State} (h : Allots s t) (k : Allots t u) : Allots s u :=
  ⟨only_trans _ _ _ _ h.parts k.parts, k.up.trans h.up, fun m => (k.kept m).trans (h.kept m)⟩

theorem allots_ite (c : Prop) [Decidable c] {s t u : State} (ht : Allots s t) (hu : Allots s u) :
    Allots s (if c then t else u) := by
  split <;> assumption

theorem forEach_allots {α : Type} (l : List α) (f : State → α → State) (s : State) (h : ∀ a x, Allots a (f a x)) :
    Allots s (forEach l f s) := by
  induction l generalizing s with
  | nil => exact Allots.refl s
  | cons x l ih => exact (h s x).seq (ih (f s x))

theorem Passes.allots {ps : List Part} {s t : State} (h : Passes ps s t) (hp : ∀ p ∈ ps, p ∈ errParts := by decide)
    (hpps : .pps ∉ ps := by decide) : Allots s t :=
  ⟨only_mono _ _ _ _ h.parts hp, (h.at 0).up,
    fun k => congrArg (fun v : Vector Pps 16 => lasting v[k]) (h.parts .pps hpps)⟩

theorem Turns.allots {ps : List Part} {m : DnN} {f : Port → Port} {s t : State} (h : Turns ps (dnPort m) f s t)
    (hp : ∀ p ∈ ps, p ∈ errParts := by decide) (hpps : .pps ∉ ps := by decide) : Allots s t :=
  ⟨only_mono _ _ _ _ h.self.parts hp, h.up,
    fun k => congrArg (fun v : Vector Pps 16 => lasting v[k]) (h.self.parts .pps hpps)⟩

theorem modPps_allots (s : State) (j : DnN) (f : Pps → Pps) (h : ∀ p, lasting (f p) = lasting p := by exact fun _ => rfl) :
    Allots s (modPps s j f) := by
  refine ⟨only_mono _ _ _ _ (modPps_frame s j f) (by decide), rfl, fun k => ?_⟩
  by_cases hk : k = j
  · subst hk
    rw [modPps_self, h]
  · rw [modPps_ne _ _ _ _ hk]

theorem modLegs_allots (s : State) (l : DnN) (f : Pps → Pps) (h : ∀ p, lasting (f p) = lasting p := by exact fun _ => rfl) :
    Allots s (modLegs s l f) :=
  forEach_allots _ _ s fun a x => allots_ite _ (Allots.refl a) (modPps_allots a x f h)

theorem settleRsv_lasting (b : Bool) (p : Pps) : lasting (if b then settleRsv p else p) = lasting p := by
  unfold settleRsv
  (repeat' split) <;> rfl

theorem detectNow_allots (s : State) (m : DnN) (wait : Bool) : Allots s (detectNow s (dnPort m) wait) := by
  have hport := modPort_turns s (dnPort m) (portDetect wait) fun _ => ⟨id, fun _ => rfl⟩
  unfold detectNow
  dsimp only
  split
  · exact hport.allots
  · exact (hport.allots.seq (modPps_allots _ _ _ (settleRsv_lasting _))).seq (surveyDetach_passes _ _).allots

theorem holdNow_allots (s : State) (n : PortN) : Allots s (holdNow s n) :=
  ⟨only_mono _ _ _ _ (modAon_frame s n _) (by decide), rfl, fun _ => rfl⟩

theorem suspHold_allots (s : State) (m : DnN) : Allots s (suspHold s (dnPort m)) := by
  unfold suspHold
  exact allots_ite _ ((allots_ite _ (Allots.refl s) (detectNow_allots s m false)).seq (holdNow_allots _ _)) (Allots.refl s)

theorem startTrial_allots (s : State) (m : DnN) (r : Nat) : Allots s (startTrial s (dnPort m) r) := by
  unfold startTrial
  exact ((modPort_turns s (dnPort m) _).allots.seq (sendTs2_passes _ (dnPort m) _ _ _).allots).seq (suspHold_allots _ m)

theorem retrain_allots (s : State) (m : DnN) (reason : Nat) : Allots s (retrain s (dnPort m) reason) := by
  have hsent := (retrainSent_passes s (dnPort m) reason).allots
  have hdown := hsent.seq (linkDown_turns (retrainSent s (dnPort m) reason) (dnPort m) reason).allots
  exact (hdown.seq (modPort_turns _ (dnPort m) portAlign fun _ => ⟨id, id⟩).allots).seq (suspHold_allots _ m)

/-- The choice applied again on a downstream port. -/
theorem reeval_allots (s : State) (m : DnN) : Allots s (reeval s (dnPort m)) := by
  have hflush : Allots s (flushTs (endTx s (dnPort m) 3) (dnPort m)) :=
    (endTx_passes s (dnPort m) 3).allots.seq (flushTs_passes _ (dnPort m)).allots
  unfold reeval
  refine allots_ite _ (Allots.refl s) (allots_ite _ ?_ (allots_ite _ (allots_ite _ (Allots.refl s)
    (hflush.seq (retrain_allots _ m 7))) (Allots.refl s)))
  split
  · exact allots_ite _ ((linkDown_turns s (dnPort m) 10).allots.seq (startTrial_allots _ m _)) (Allots.refl s)
  · exact (modPort_turns s (dnPort m) _).allots

theorem evBudget_allots (s : State) (src : Nat) : Allots s (evBudget s src) := (evBudget_passes s src).allots

theorem passWait_allots (s : State) (j : DnN) : Allots s (passWait s j) := by
  have hrsv := modPps_allots s j fun q => { q with rsv := true, due := true }
  unfold passWait
  exact allots_ite _ (allots_ite _ (hrsv.seq (modLegs_allots _ j _)) hrsv) (Allots.refl s)

theorem decideClass_lasting (free c : Nat) (p : Pps) : lasting (decideClass free c p).1 = lasting p := by
  unfold decideClass
  dsimp only
  (repeat' split) <;> rfl

theorem passPend_allots (s : State) (j : DnN) : Allots s (passPend s j) := by
  unfold passPend
  refine allots_ite _ (allots_ite _ ?_ (Allots.refl s)) (Allots.refl s)
  have hset : Allots s (modPps s j fun _ => (decideClass (freeBudget s) s.pps[j].req s.pps[j]).1) := by
    refine ⟨only_mono _ _ _ _ (modPps_frame s j _) (by decide), rfl, fun k => ?_⟩
    by_cases hk : k = j
    · subst hk
      rw [modPps_self, decideClass_lasting]
    · rw [modPps_ne _ _ _ _ hk]
  exact (hset.seq (evBudget_allots _ _)).seq (reeval_allots _ j)

theorem budgetPass_allots (s : State) : Allots s (budgetPass s) :=
  forEach_allots _ _ s fun a m => (passWait_allots a m).seq (passPend_allots _ m)

/-! ## The switch commands and the budget -/

theorem enterWait_allots (s : State) (l : DnN) (due : Bool) : Allots s (enterWait s l due) :=
  (modLegs_allots s l _).seq (evBudget_allots _ _)

theorem reserveStart_allots (s : State) (l : DnN) : Allots s (reserveStart s l) := by
  have hrsv := modPps_allots s l fun p => { p with rsv := true }
  unfold reserveStart startHeld
  exact allots_ite _ (allots_ite _ (hrsv.seq (modLegs_allots _ l _)) (hrsv.seq (enterWait_allots _ l true)))
    (enterWait_allots s l false)

theorem releaseAll_allots (s : State) (l : DnN) : Allots s (releaseAll s l) := by
  have hrel := modPps_allots s l release
  have hev : Allots s (if s.pps[l].pend then evBudget (modPps s l release) (dnPort l).val else modPps s l release) :=
    allots_ite _ (hrel.seq (evBudget_allots _ _)) hrel
  unfold releaseAll
  exact allots_ite _ hev (hev.seq (budgetPass_allots _))

theorem allots_on {s t : State} {m : DnN} {v : Bool}
    (h : Allots (modPps s m fun p => { p with on := v }) t) : t.pps[m].on = v ∧
      isUp t.ports[(0 : PortN)] = isUp s.ports[(0 : PortN)] ∧ only errParts s t :=
  ⟨(congrArg Prod.fst (h.kept m)).trans (congrArg Pps.on (modPps_self s m _) :), h.up,
    only_trans _ _ _ _ (only_mono _ _ _ _ (modPps_frame s m _) (by decide)) h.parts⟩

/-- A switch takes its command, and starts or stops by it. -/
theorem switchWrite_rule (s : State) (m : DnN) (v : Bool) : (switchWrite s m v).pps[m].on = v ∧
    isUp (switchWrite s m v).ports[(0 : PortN)] = isUp s.ports[(0 : PortN)] ∧ only errParts s (switchWrite s m v) := by
  refine allots_on ?_
  cases v
  · show Allots _ (switchOff s m)
    have hoff := (modLegs_allots (modPps s m fun p => { p with on := false }) m fun p =>
      { p with st := .off, due := false, discharging := true, voffArmed := false, limit := false, fold := false }).seq
        (releaseAll_allots _ m)
    unfold switchOff
    refine allots_ite _ (Allots.refl _) ?_
    split
    · exact hoff
    · exact modLegs_allots _ m _
    · exact hoff
    · exact Allots.refl _
  · show Allots _ (switchOn s m)
    unfold switchOn
    refine allots_ite _ (Allots.refl _) ?_
    split
    · exact reserveStart_allots _ m
    · exact reserveStart_allots _ m
    · exact Allots.refl _

/-- A budget that covers what is held is stored, and shared out where it has grown. -/
theorem budgetWrite_covers {s : State} {w : Nat} (h : granted s.pps + reserved s.pps ≤ min w 2240) :
    (budgetWrite s w).ppsg = { s.ppsg with budget := min w 2240 } ∧
      isUp (budgetWrite s w).ports[(0 : PortN)] = isUp s.ports[(0 : PortN)] ∧
      only (.ppsg :: errParts) s (budgetWrite s w) := by
  have hput : only [.ppsg] s { s with ppsg := { s.ppsg with budget := min w 2240 } } := ppsg_frame s _
  have hpass := budgetPass_allots { s with ppsg := { s.ppsg with budget := min w 2240 } }
  unfold budgetWrite
  dsimp only
  rw [if_neg (by omega)]
  split
  · exact ⟨hpass.parts .ppsg (by decide), hpass.up, hput.seq hpass.parts⟩
  · exact ⟨rfl, rfl, hput.widen⟩

/-! ## The clock plan (R23, R39) -/

theorem retrain_errParts (s : State) (n : PortN) (reason : Nat) : only errParts s (retrain s n reason) :=
  (((retrainSent_passes s n reason).parts.seq (linkDown_turns (retrainSent s n reason) n reason).self.parts
    (rs := errParts)).seq (modPort_only _ n portAlign) (rs := errParts)).seq (suspHold_frame _ n)

theorem fircPort_frame (s : State) (n : PortN) : only errParts s (fircPort s n) := by
  unfold fircPort
  split
  · exact retrain_errParts s n 6
  · exact (modPort_only s n _).widen
  · exact (modPort_only s n _).widen
  · exact (modPort_only s n _).widen
  · exact only_refl _ s

/-- The parts in which a write of the clock plan shows. -/
def planParts : List Part := .clk :: errParts

theorem clk_only (s : State) (k : Clk) : only [.clk] s { s with clk := k } := clk_frame s k

theorem coreToFirc_frame (s : State) : only planParts s (coreToFirc s) :=
  ((clk_only s { s.clk with corePll := false }).seq (forEach_frame portAll fircPort _ fircPort_frame)
    (rs := planParts)).seq (lockKeep_only _)

theorem refTo_frame (r : Nat) (s : State) (k : Clk) : only [.clk, .tb] s { refTo r s with clk := k } := fun p hp => by
  cases p <;> first | rfl | exact absurd (by decide) hp

theorem pllDrop_frame (s : State) : only planParts s (pllDrop s) :=
  (refTo_frame 0 s _).seq (coreToFirc_frame _)

theorem coreSelect_frame (s : State) : only planParts s (coreSelect s) := by
  unfold coreSelect
  exact only_ite _ (only_ite _ (clk_only s _).widen (only_refl _ s)) (only_ite _ (coreToFirc_frame s) (only_refl _ s))

theorem refFollow_frame (s : State) : only planParts s (refFollow s) := by
  unfold refFollow
  exact only_ite _ (only_refl _ s) (only_ite _ (pllDrop_frame s) ((refTo_frame _ s _).seq (lockCheck_only _)))

theorem planWrite_frame (s : State) (v : Word) : only planParts s (planWrite s v) := by
  have hput := clk_only s (planPut v s.clk)
  have hoff := fun (a : State) (k : Clk) => (clk_only a k)
  unfold planWrite
  exact only_ite _ (only_ite _ ((hput.seq (pllDrop_frame _) (rs := planParts)).seq (hoff _ _)) (hput.seq (hoff _ _)))
    (((hput.seq (refFollow_frame _) (rs := planParts)).seq (coreSelect_frame _) (rs := planParts)).seq (lockCheck_only _))
/-! ## The requests (R98, R100, R428) -/

/-- A reply is kept whether UP has its link or not. -/
theorem hubReply_keeps {s : State} {r : HubReq} (hm : r.mc = false) (hq : s.bus.hubQ = []) (status : Nat) (odd : Bool)
    (data : List Word) : hubKept (hubReply s r status odd data) r status odd data := by
  have hbus : (ulaPush s 16 (ownTx (hubAnswer r.pkt odd (w16 status :: data)) .none)).bus = s.bus :=
    (ulaPush_passes s 16 _).parts .bus (by decide)
  unfold hubReply
  simp only [hm, Bool.false_eq_true, if_false]
  exact ⟨(congrArg Bus.hubQ hbus).trans hq, rfl⟩

theorem setClockPlan_status {r : HubReq} (hform : hubForm r.pkt false true = 0) (hn : hubLen r.pkt = 0)
    (hi : hubIndex r.pkt = 0) (denied : Bool) :
    hubStatus r.pkt false (hubLen r.pkt = 0) denied (hubIndex r.pkt = 0) true = if denied then 4 else 0 := by
  rw [show decide (hubLen r.pkt = 0) = true by simp [hn], hubStatus_formed hform, hi]
  cases denied <;> rfl

theorem setClockPlan_acts {s : State} {r : HubReq} (h : hubAsked s r 0x0A false) (hn : hubLen r.pkt = 0)
    (hi : hubIndex r.pkt = 0) (hfree : s.glob.hubClk = false) :
    ∃ t, exec .setClockPlan s = .next t ∧
      hubKept t r (if 2 ≤ fld (hubValue r.pkt) 1 2 then 3 else 0) false [] ∧
      t.clk.plan = (if 2 ≤ fld (hubValue r.pkt) 1 2
        then (hubValue r.pkt &&& 0x0019#16) ||| (s.clk.plan &&& 0x0006#16) else hubValue r.pkt &&& 0x001F#16) ∧
      only [.bb, .pps, .aon, .clk, .doms, .ula, .que, .ports, .tt, .tb, .sur, .out, .bus] s t := by
  obtain ⟨hl, hu, hwait, hm, hb, hreq, hform⟩ := h
  have hstatus := setClockPlan_status hform hn hi (hubPop s).glob.hubClk
  rw [show (hubPop s).glob.hubClk = false from hfree] at hstatus
  have hframe := planWrite_frame (hubPop s) (hubValue r.pkt)
  have hempty : (planWrite (hubPop s) (hubValue r.pkt)).bus.hubQ = [] :=
    (congrArg Bus.hubQ (hframe .bus (by decide))).trans (hubPop_empty hwait)
  have hrun : setClockPlan (hubPop s) r = hubReply (planWrite (hubPop s) (hubValue r.pkt)) r
      (if 2 ≤ fld (hubValue r.pkt) 1 2 then 3 else 0) false [] := by
    unfold setClockPlan
    dsimp only
    rw [show (hubPop s).glob.hubClk = false from hfree, hstatus]
    by_cases hbad : 2 ≤ fld (hubValue r.pkt) 1 2 <;> simp [hbad]
  have hans := hubReply_keeps hm hempty (if 2 ≤ fld (hubValue r.pkt) 1 2 then 3 else 0) false []
  have hkept := hubReply_frame (planWrite (hubPop s) (hubValue r.pkt)) r
    (if 2 ≤ fld (hubValue r.pkt) 1 2 then 3 else 0) false []
  obtain ⟨hq, -⟩ := id hans
  refine ⟨_, onHub_run hl hwait hb (by simpa using hreq) hrun hq, hans, ?_,
    ((bus_frame s _).seq hframe (rs := .bus :: planParts)).seq hkept⟩
  rw [hkept .clk (by decide)]
  exact planWrite_plan (hubPop s) (hubValue r.pkt)

theorem setClockPlan_denied {s : State} {r : HubReq} (h : hubAsked s r 0x0A false) (hn : hubLen r.pkt = 0)
    (hi : hubIndex r.pkt = 0) (hlock : s.glob.hubClk = true) :
    ∃ t, exec .setClockPlan s = .next t ∧ hubAnswered t r 4 false [] ∧ only [.ula, .bus] s t := by
  have hform : hubForm r.pkt false true = 0 := h.2.2.2.2.2.2
  have hreq : hubReq r.pkt = 0x0A := h.2.2.2.2.2.1
  have hstatus := setClockPlan_status hform hn hi true
  have hrun : setClockPlan (hubPop s) r = hubDo (hubPop s) r 4 id := by
    unfold setClockPlan
    dsimp only
    rw [show (hubPop s).glob.hubClk = true from hlock, hstatus]
    rfl
  obtain ⟨t, ht, hans, -, hframe⟩ := hubRow_denied (f := fun p => hubReq p = 0x0A) h (by simpa using hreq) hrun (by decide)
  exact ⟨t, ht, hans, hframe⟩

/-- The command that a SET_PORT_POWER gives to the switch of port k. -/
def putPower (r : HubReq) (k : DnN) (s : State) : State := switchWrite s k (decide ((hubValue r.pkt).toNat = 1))

theorem setPortPower_eq (s : State) (r : HubReq) : setPortPower s r =
    hubDo s r (hubStatus r.pkt false (hubLen r.pkt = 0) s.glob.hubPwr
      (hubDnOk r.pkt && decide ((hubValue r.pkt).toNat ≤ 1)) true) (putPower r (hubDn r.pkt)) := rfl

theorem setPortPower_acts {m : DnN} {s : State} {r : HubReq} (h : hubAsked s r 0x0C false) (hn : hubLen r.pkt = 0)
    (hi : hubIndex r.pkt = m.val + 1) (hv : (hubValue r.pkt).toNat ≤ 1) (hfree : s.glob.hubPwr = false) :
    ∃ t, exec .setPortPower s = .next t ∧ hubAnswered t r 0 false [] ∧
      t.pps[m].on = decide ((hubValue r.pkt).toNat = 1) ∧
      only [.bb, .pps, .aon, .doms, .ula, .que, .ports, .tt, .tb, .sur, .out, .bus] s t := by
  obtain ⟨hok, hdn⟩ := hubDn_named hi
  have hwait : s.bus.hubQ = [r] := h.2.2.1
  obtain ⟨hon, hup, hframe⟩ : _ ∧ _ ∧ only errParts (hubPop s) (putPower r m (hubPop s)) :=
    switchWrite_rule (hubPop s) m (decide ((hubValue r.pkt).toNat = 1))
  have hempty : (putPower r m (hubPop s)).bus.hubQ = [] :=
    (congrArg Bus.hubQ (hframe .bus (by decide))).trans (hubPop_empty hwait)
  obtain ⟨t, ht, hans, -, hkept⟩ := hubReq_writes h (setPortPower_eq (hubPop s) r) (by simp [hn]) hfree (by simp [hok, hv])
    (congrArg (fun k => putPower r k (hubPop s)) hdn) hup hempty
  have hpps : t.pps = _ := hkept .pps (by decide)
  refine ⟨t, ht, hans, ?_, ((bus_frame s _).seq hframe (rs := .bus :: errParts)).seq hkept⟩
  rw [hpps]
  exact hon

theorem setBudget_acts {s : State} {r : HubReq} (h : hubAsked s r 0x10 false) (hn : hubLen r.pkt = 0)
    (hi : hubIndex r.pkt = 0) (hfree : s.glob.hubPwr = false)
    (hv : granted s.pps + reserved s.pps ≤ min (hubValue r.pkt).toNat 2240) :
    ∃ t, exec .setBudget s = .next t ∧ hubAnswered t r 0 false [] ∧
      t.ppsg.budget = min (hubValue r.pkt).toNat 2240 ∧
      only [.bb, .pps, .ppsg, .aon, .doms, .ula, .que, .ports, .tt, .tb, .sur, .out, .bus] s t := by
  have hwait : s.bus.hubQ = [r] := h.2.2.1
  obtain ⟨hput, hup, hframe⟩ := budgetWrite_covers (s := hubPop s) hv
  have hempty : (budgetWrite (hubPop s) (hubValue r.pkt).toNat).bus.hubQ = [] :=
    (congrArg Bus.hubQ (hframe .bus (by decide))).trans (hubPop_empty hwait)
  obtain ⟨t, ht, hans, -, hkept⟩ := hubReq_writes (act := setBudget) h rfl (by simp [hn]) hfree (by simp [hi]) rfl hup hempty
  have hppsg : t.ppsg = _ := hkept .ppsg (by decide)
  refine ⟨t, ht, hans, ?_, ((bus_frame s _).seq hframe (rs := .bus :: .ppsg :: errParts)).seq hkept⟩
  rw [hppsg, hput]

/-- On a headless part that is watched, SERVICE_WATCHDOG judges its value. -/
theorem serviceWatchdog_acts {s u : State} {r : HubReq} (h : hubAsked s r 0x0E false) (hn : hubLen r.pkt = 0)
    (hi : hubIndex r.pkt = 0) (hh : headless s = true)
    (hv : (decide (hubValue r.pkt = 0x5A3C#16) || decide (hubValue r.pkt = 0xA5C3#16)) = true)
    (hu : serviceWrite (hubPop s) .hub (hubValue r.pkt) = u) (hframe : only [.wdt] (hubPop s) u) :
    ∃ t, exec .serviceWatchdog s = .next t ∧ hubAnswered t r 0 false [] ∧ t.wdt = u.wdt ∧ only [.wdt, .ula, .bus] s t := by
  have hwait : s.bus.hubQ = [r] := h.2.2.1
  have hfree : (!headless (hubPop s)) = false := by
    show (!headless s) = false
    rw [hh]
    rfl
  have hempty : u.bus.hubQ = [] := (congrArg Bus.hubQ (hframe .bus (by decide))).trans (hubPop_empty hwait)
  obtain ⟨t, ht, hans, -, hkept⟩ := hubReq_writes (act := serviceWatchdog) h rfl (by simp [hn]) hfree
    (by rw [hv, hi]; rfl) hu (isUp_of_ports (hframe .ports (by decide))) hempty
  exact ⟨t, ht, hans, hkept .wdt (by decide), ((bus_frame s _).seq hframe (rs := [.wdt, .ula, .bus])).seq hkept⟩

/-- A write of the service register on the hub path of a headless part. -/
theorem serviceWrite_hub {s : State} {v : Word} (hh : headless s = true)
    (hv : (decide (v = 0x5A3C#16) || decide (v = 0xA5C3#16)) = true) : serviceWrite s .hub v = serviceJudge s .hub v :=
  whenDo_holds (Bool.and_eq_true_iff.mpr ⟨hh, hv⟩)

/-- Settles O35: it holds.  Each request makes its register's write, unless REGLOCK or the straps deny it. -/
theorem hubPowerAndClock : Obligations.HubPowerAndClock := by
  unfold Obligations.HubPowerAndClock
  refine ⟨fun _ _ h hn hi hfree => setClockPlan_acts h hn hi hfree,
    fun _ _ _ h hn hi hv hfree => setPortPower_acts h hn hi hv hfree,
    fun _ _ h hn hi hfree hv => setBudget_acts h hn hi hfree hv,
    fun r s hn hi => ⟨fun h hlock => setClockPlan_denied h hn hi hlock, fun h hlock => ?_, fun h hlock => ?_,
      fun h hlock => ?_⟩, fun r s h hn hi hh he hg => ⟨fun hv => ?_, fun hv ha ho => ?_⟩⟩
  · obtain ⟨t, ht, hans, -, hframe⟩ := hubReq_refused (act := setBudget) (status := 4) h rfl
      (by rw [if_pos (by simp [hn]), if_pos (show (hubPop s).glob.hubPwr = true from hlock)]) (by decide)
    exact ⟨t, ht, hans, hframe⟩
  · obtain ⟨t, ht, hans, -, hframe⟩ := hubReq_refused (status := 4) h (setPortPower_eq (hubPop s) r)
      (by rw [if_pos (by simp [hn]), if_pos (show (hubPop s).glob.hubPwr = true from hlock)]) (by decide)
    exact ⟨t, ht, hans, hframe⟩
  · have hden : (!headless (hubPop s)) = true := by
      show (!headless s) = true
      rw [hlock]
      rfl
    obtain ⟨t, ht, hans, -, hframe⟩ := hubReq_refused (act := serviceWatchdog) (status := 4) h rfl
      (by rw [if_pos (by simp [hn]), if_pos hden]) (by decide)
    exact ⟨t, ht, hans, hframe⟩
  · have hjudge : serviceWrite (hubPop s) .hub (hubValue r.pkt) = { hubPop s with wdt := armPath s.wdt .hub } := by
      rw [hv, serviceWrite_hub (s := hubPop s) (v := 0x5A3C#16) hh (by decide), serviceJudge,
        if_neg (by simp [hubPop, he, hg]), if_pos rfl]
      rfl
    obtain ⟨t, ht, hans, hwdt, hframe⟩ := serviceWatchdog_acts h hn hi hh (by rw [hv]; decide) hjudge
      (wdt_frame (hubPop s) _)
    exact ⟨t, ht, hans, (congrArg Wdt.armBus hwdt :), (congrArg Wdt.armHost hwdt :), (congrArg Wdt.armMg hwdt :),
      (congrArg Wdt.count hwdt :), hframe⟩
  · have hjudge : serviceWrite (hubPop s) .hub (hubValue r.pkt) = { hubPop s with wdt := serviced s.wdt } := by
      have harm : armedBy s.wdt .hub = true := ha
      rw [hv, serviceWrite_hub (s := hubPop s) (v := 0xA5C3#16) hh (by decide), serviceJudge,
        if_neg (by simp [hubPop, he, hg]), if_neg (by decide), if_neg (by simp [hubPop, harm]),
        if_pos (show wdtOpen (hubPop s).wdt = true from ho)]
      rfl
    obtain ⟨t, ht, hans, hwdt, hframe⟩ := serviceWatchdog_acts h hn hi hh (by rw [hv]; decide) hjudge
      (wdt_frame (hubPop s) _)
    exact ⟨t, ht, hans, (congrArg Wdt.count hwdt :), (congrArg Wdt.armBus hwdt :), hframe⟩

end Sys2Proof.Machine
end

section
/-! SUPPORT. What the work of one endpoint leaves: the other endpoints, and its own fields outside the ring and the buffer. -/

namespace Sys2Proof.Machine

open Sys2Proof Sys2Proof.Safety

-- One proof after the other: side by side, the proofs of one text wait for each other in too many threads.
set_option Elab.async false


/-- An endpoint without the state of its buffer and of its fetched descriptors. -/
def face (e : Ep) : Ep :=
  { e with
    full := false, sent := false, cueHeld := false, asked := 0, moved := 0, descs := [], len := 0, inData := false
    setup := false, cue := false, crew := none, drained := false, late := false, flight := [] }

/-- From `s` to `t` endpoint k has become `f` of what it was, but for its ring and its buffer; the other endpoints and
the rest of the local node are what they were. -/
structure Works (ps : List Part) (k : EpN) (f : Ep → Ep) (s t : State) : Prop where
  parts : only ps s t
  self : face t.ln.eps[k] = face (f s.ln.eps[k])
  others : ∀ j : EpN, j ≠ k → t.ln.eps[j] = s.ln.eps[j]
  rest : t.ln = { s.ln with eps := t.ln.eps }

theorem works_refl (k : EpN) (s : State) : Works [] k id s s := ⟨only_refl _ s, rfl, fun _ _ => rfl, rfl⟩

theorem Works.seq {ps qs rs : List Part} {k : EpN} {f g : Ep → Ep} {s t u : State} (h : Works ps k f s t)
    (w : Works qs k g t u) (hp : ∀ p ∈ ps, p ∈ rs := by decide) (hq : ∀ q ∈ qs, q ∈ rs := by decide)
    (hg : ∀ e, face (g e) = face (g (face e)) := by exact fun _ => rfl) : Works rs k (fun e => g (f e)) s u :=
  ⟨h.parts.seq w.parts hp hq, by rw [w.self, hg, h.self, ← hg], fun j hj => (w.others j hj).trans (h.others j hj), by
    rw [w.rest, h.rest]⟩

theorem Works.widen {ps qs : List Part} {k : EpN} {f : Ep → Ep} {s t : State} (h : Works ps k f s t)
    (hp : ∀ p ∈ ps, p ∈ qs := by decide) : Works qs k f s t :=
  { h with parts := only_mono _ _ _ _ h.parts hp }

theorem Works.as {ps : List Part} {k : EpN} {f g : Ep → Ep} {s t : State} (h : Works ps k f s t)
    (hfg : ∀ e, face (f e) = face (g e) := by exact fun _ => rfl) : Works ps k g s t :=
  { h with self := h.self.trans (hfg _) }

theorem works_ite {ps : List Part} {k : EpN} {f : Ep → Ep} (c : Prop) [Decidable c] {s t u : State}
    (ht : Works ps k f s t) (hu : Works ps k f s u) : Works ps k f s (if c then t else u) := by
  split <;> assumption

/-- What does not touch the local node leaves every endpoint. -/
theorem works_of_only {ps : List Part} {s t : State} (h : only ps s t) (k : EpN) (hp : .ln ∉ ps := by decide) :
    Works ps k id s t := by
  have hln : t.ln = s.ln := h .ln hp
  exact ⟨h, by rw [hln]; rfl, fun j _ => by rw [hln], by rw [hln]⟩

theorem Works.halt {ps : List Part} {k : EpN} {f : Ep → Ep} {s t : State} (h : Works ps k f s t) :
    t.ln.eps[k].halt = (f s.ln.eps[k]).halt := (congrArg Ep.halt h.self :)

theorem Works.stage {ps : List Part} {k : EpN} {f : Ep → Ep} {s t : State} (h : Works ps k f s t) :
    t.ln.eps[k].stage = (f s.ln.eps[k]).stage := (congrArg Ep.stage h.self :)

theorem modEp_works (s : State) (k : EpN) (f : Ep → Ep) : Works [.ln] k f s (modEp s k f) :=
  ⟨modEp_frame s k f, congrArg face (vMod_get_self _ k f), fun _ hj => vMod_get_ne _ _ _ _ hj, rfl⟩

theorem forEach_works {α : Type} {ps : List Part} (k : EpN) (l : List α) (f : State → α → State) (s : State)
    (h : ∀ a x, Works ps k id a (f a x)) : Works ps k id s (forEach l f s) := by
  induction l generalizing s with
  | nil => exact (works_refl k s).widen (by simp)
  | cons x l ih =>
    have hx := h s x
    have hl := ih (f s x)
    exact ⟨only_trans _ _ _ _ hx.parts hl.parts, hl.self.trans hx.self, fun j hj => (hl.others j hj).trans (hx.others j hj),
      by rw [show (forEach (x :: l) f s) = forEach l f (f s x) from rfl, hl.rest, hx.rest]⟩

/-! ## The ring and the completions of an endpoint -/

theorem completeDesc_works (s : State) (j k : EpN) (d : Desc) (status bytes : Nat) (tag : BitVec 7) (cue late : Bool) :
    Works evParts k id s (completeDesc s j d status bytes tag cue late) :=
  works_of_only (completeDesc_frame s j d status bytes tag cue late) k

theorem completeHead_works (s : State) (k : EpN) (status bytes : Nat) (cue late : Bool) :
    Works epParts k id s (completeHead s k status bytes cue late) := by
  unfold completeHead
  split
  · exact (works_refl k s).widen
  · exact ((modEp_works s k _).seq (completeDesc_works _ k k _ _ _ _ _ _) (rs := epParts)).as

theorem dropBad_works (s : State) (k : EpN) : Works epParts k id s (dropBad s k) := by
  unfold dropBad
  exact works_ite _ (completeHead_works s k _ _ _ _) (works_refl k s).widen

theorem askDesc_works (s : State) (k : EpN) : Works [.doms, .hma] k id s (askDesc s k) :=
  works_of_only (askDesc_frame s k) k

theorem askData_works (s : State) (k : EpN) : Works [.doms, .hma, .ln] k id s (askData s k) := by
  unfold askData
  dsimp only
  refine works_ite _ (works_refl k s).widen ?_
  split
  · exact (works_refl k s).widen
  · exact works_ite _ ((modEp_works s k _).as (g := id)).widen
      (works_ite _ (works_of_only (askRead_frame s _ _ _) k).widen
        (works_ite _ (works_of_only (hmaAsk_frame s _ _) k).widen (works_refl k s).widen))

theorem epAsk_works (s : State) (k : EpN) : Works epParts k id s (epAsk s k) := by
  have hdrop : Works epParts k id s (if ringRuns s k then dropBad s k else s) :=
    works_ite _ (dropBad_works s k) (works_refl k s).widen
  exact (hdrop.seq (askDesc_works _ k) (rs := epParts)).seq (askData_works _ k)

theorem emptyEp_works (s : State) (k : EpN) : Works epParts k id s (emptyEp s k) :=
  ((modEp_works s k emptied).seq (epAsk_works _ k) (rs := epParts)).as

/-! ## Ending an endpoint's work (R226, R236, R237) -/

theorem hmaDone_frame (s : State) (r : Nat) : only [.hma] s (hmaDone s r) := by
  unfold hmaDone
  exact only_ite _ (hma_frame s _) (only_refl _ s)

theorem cutDrain_works (s : State) (k : EpN) : Works [.hma] k id s (cutDrain s k) := by
  unfold cutDrain
  exact works_ite _ (works_of_only (hmaDone_frame s _) k) (works_refl k s).widen

theorem voidReads_frame (s : State) (f : ReadUse → Bool) : only [.pcie] s (voidReads s f) := pcie_frame s _

/-- The parts in which the end of an endpoint's work shows. -/
def stopParts : List Part := .pcie :: epParts

theorem completeAll_works (s : State) (k : EpN) (status : Nat) : Works stopParts k id s (completeAll s k status) := by
  have hvoid := ((modEp_works s k fun x => { x with descs := [], flight := [], asked := 0, moved := 0 }).seq
    (works_of_only (voidReads_frame _ fun u => u = .sendData k) k) (rs := stopParts)).as (g := id)
  exact (hvoid.seq (forEach_works k _ _ _ fun a x => completeDesc_works a k k x.1 status 0 _ x.2 false) (rs := stopParts))

theorem stopEp_works (s : State) (k : EpN) (status : Nat) : Works stopParts k id s (stopEp s k status) :=
  (((cutDrain_works s k).seq (completeAll_works _ k status) (rs := stopParts)).seq (modEp_works _ k emptied)
    (rs := stopParts)).as

/-! ## The ports and what has been put out, while an endpoint works -/

theorem raiseDom_passes (s : State) (d : DomN) (force : Bool) (e : Ev) : Passes evParts s (raiseDom s d force e) :=
  raiseTo_passes s _ force (now s) e

theorem completeDesc_passes (s : State) (k : EpN) (d : Desc) (status bytes : Nat) (tag : BitVec 7) (cue late : Bool) :
    Passes evParts s (completeDesc s k d status bytes tag cue late) := by
  unfold completeDesc
  exact passes_ite _ (Passes.refl _ s) (raiseDom_passes s _ _ _)

theorem modEp_passes (s : State) (k : EpN) (f : Ep → Ep) : Passes [.ln] s (modEp s k f) :=
  passes_of_only (modEp_frame s k f)

theorem completeHead_passes (s : State) (k : EpN) (status bytes : Nat) (cue late : Bool) :
    Passes epParts s (completeHead s k status bytes cue late) := by
  unfold completeHead
  split
  · exact Passes.refl _ s
  · exact (modEp_passes s k _).seq (completeDesc_passes _ k _ _ _ _ _ _)

theorem askDesc_passes (s : State) (k : EpN) : Passes [.doms, .hma] s (askDesc s k) := passes_of_only (askDesc_frame s k)

theorem askData_passes (s : State) (k : EpN) : Passes [.doms, .hma, .ln] s (askData s k) :=
  passes_of_only (askData_frame s k)

theorem epAsk_passes (s : State) (k : EpN) : Passes epParts s (epAsk s k) := by
  have hdrop : Passes epParts s (if ringRuns s k then dropBad s k else s) := by
    unfold dropBad
    exact passes_ite _ (passes_ite _ (completeHead_passes s k _ _ _ _) (Passes.refl _ s)) (Passes.refl _ s)
  exact (hdrop.seq (askDesc_passes _ k) (rs := epParts)).seq (askData_passes _ k)

theorem cutDrain_passes (s : State) (k : EpN) : Passes [.hma] s (cutDrain s k) := by
  unfold cutDrain
  exact passes_ite _ (passes_of_only (hmaDone_frame s _)) (Passes.refl _ s)

theorem completeAll_passes (s : State) (k : EpN) (status : Nat) : Passes stopParts s (completeAll s k status) := by
  have hvoid := (modEp_passes s k fun x => { x with descs := [], flight := [], asked := 0, moved := 0 }).seq
    (passes_of_only (voidReads_frame _ fun u => u = .sendData k)) (rs := stopParts)
  exact hvoid.seq (forEach_passes _ _ _ fun a x => completeDesc_passes a k x.1 status 0 _ x.2 false)

theorem stopEp_passes (s : State) (k : EpN) (status : Nat) : Passes stopParts s (stopEp s k status) :=
  ((cutDrain_passes s k).seq (completeAll_passes _ k status) (rs := stopParts)).seq (modEp_passes _ k emptied)

/-! ## A bus reset of one endpoint (R237) -/

/-- An endpoint as a bus reset leaves it (R237). -/
def busCleared1 (e : Ep) : Ep := { e with halt := false, seqValid := false, ans := .none, stage := 0 }

/-- What a bus reset does to one endpoint. -/
def resetEp (s : State) (k : EpN) : State := epAsk (modEp (stopEp s k 2) k busCleared1) k

theorem localBusReset_eq (s : State) : localBusReset s = forEach epAll resetEp s := by
  have hstep : (fun (a : State) (k : EpN) => epAsk (modEp (stopEp a k 2) k fun e =>
      { e with halt := false, seqValid := false, ans := .none, stage := 0 }) k) = resetEp := rfl
  rw [localBusReset, hstep]

theorem resetEp_passes (s : State) (k : EpN) : Passes stopParts s (resetEp s k) :=
  ((stopEp_passes s k 2).seq (modEp_passes _ k busCleared1) (rs := stopParts)).seq (epAsk_passes _ k)

theorem resetEp_works (s : State) (k : EpN) : Works stopParts k busCleared1 s (resetEp s k) :=
  ((stopEp_works s k 2).seq (modEp_works _ k busCleared1) (rs := stopParts)).seq (epAsk_works _ k)

end Sys2Proof.Machine
end

section
/-! PROOF. Tree and port resets (O36). -/

namespace Sys2Proof.Machine

open Sys2Proof Sys2Proof.Safety

-- One proof after the other: side by side, the proofs of one text wait for each other in too many threads.
set_option Elab.async false


/-! ## What both resets clear (R40, R42, R237) -/

/-- Endpoint k is neither halted nor inside a control transfer. -/
def isIdle (k : EpN) (s : State) : Prop := s.ln.eps[k].halt = false ∧ s.ln.eps[k].stage = 0

theorem epAll_nodup : epAll.Nodup := List.nodup_finRange 32

theorem mem_epAll (k : EpN) : k ∈ epAll := List.mem_finRange k

theorem localBusReset_cleared (s : State) (k : EpN) : isIdle k (localBusReset s) := by
  rw [localBusReset_eq]
  refine forEach_turn epAll epAll_nodup resetEp k (mem_epAll k) (fun _ => True) (isIdle k) (fun _ _ _ _ => trivial)
    (fun a _ => ?_) (fun a j hj h => ?_) s trivial
  · exact ⟨(resetEp_works a k).halt, (resetEp_works a k).stage⟩
  · rw [isIdle, (resetEp_works a j).others k (Ne.symm hj)]
    exact h

theorem localBusReset_passes (s : State) : Passes stopParts s (localBusReset s) := by
  rw [localBusReset_eq]
  exact forEach_passes epAll resetEp s resetEp_passes

/-- The state in which both resets clear the local node's transfers. -/
def resetFrom (s : State) : State :=
  { s with bus := busCleared s.bus, sur := sweepEnded s.sur }

/-- The parts in which a bus reset shows. -/
def resetParts : List Part := [.bb, .aon, .pcie, .doms, .ln, .hma, .que, .bus, .sur, .out]

theorem resetFrom_frame (s : State) : only [.bus, .sur] s (resetFrom s) := fun p hp => by
  cases p <;> first | rfl | exact absurd (by decide) hp

theorem reset_reports (s : State) (how : Word) :
    Passes [.bb, .aon, .doms, .que, .out] s (bbLink (raise s { code := 0x10, src := 0, w1 := how }) 0x34 0 how 0#16) :=
  (raise_passes s _).seq (bbLink_passes _ _ _ _ _)

theorem bothResets_eq (s : State) (how : Word) : bothResets s how =
    bbLink (raise (localBusReset (resetFrom s)) { code := 0x10, src := 0, w1 := how }) 0x34 0 how 0#16 := rfl

/-- A bus reset clears the addresses, the hub function, the sweep and the transfers of the local node. -/
theorem bothResets_rule (s : State) (how : Word) :
    (bothResets s how).bus = busCleared s.bus ∧ (bothResets s how).sur = sweepEnded s.sur ∧
      (∀ k : EpN, (bothResets s how).ln.eps[k].halt = false ∧ (bothResets s how).ln.eps[k].stage = 0) ∧
      s.out <:+ (bothResets s how).out ∧ only resetParts s (bothResets s how) := by
  have hlocal := (localBusReset_passes (resetFrom s)).parts
  have htold := (reset_reports (localBusReset (resetFrom s)) how).parts
  rw [bothResets_eq]
  refine ⟨?_, ?_, fun k => ?_, ?_, ((resetFrom_frame s).seq hlocal (rs := resetParts)).seq htold⟩
  · rw [htold .bus (by decide), hlocal .bus (by decide)]
    rfl
  · rw [htold .sur (by decide), hlocal .sur (by decide)]
    rfl
  · rw [htold .ln (by decide)]
    exact localBusReset_cleared (resetFrom s) k
  · exact (localBusReset_passes (resetFrom s)).outs.trans (reset_reports (localBusReset (resetFrom s)) how).outs

/-! ## Queues of a port that sends control words only -/

/-- Port n has the packets to send that it had, and receives what it received. -/
def sameQueue (n : PortN) (s t : State) : Prop :=
  t.ports[n].txq = s.ports[n].txq ∧ t.ports[n].txCur = s.ports[n].txCur ∧ t.ports[n].rxCur = s.ports[n].rxCur

theorem sameQueue.seq {n : PortN} {s t u : State} (h : sameQueue n s t) (k : sameQueue n t u) : sameQueue n s u :=
  ⟨k.1.trans h.1, k.2.1.trans h.2.1, k.2.2.trans h.2.2⟩

theorem sameQueue_refl (n : PortN) (s : State) : sameQueue n s s := ⟨rfl, rfl, rfl⟩

theorem sameQueue_ite {n : PortN} (c : Prop) [Decidable c] {s t u : State} (ht : sameQueue n s t) (hu : sameQueue n s u) :
    sameQueue n s (if c then t else u) := by
  split <;> assumption

theorem sameQueue_of_port {n : PortN} {s t : State} (h : t.ports[n] = s.ports[n]) : sameQueue n s t := by
  rw [sameQueue, h]
  exact ⟨rfl, rfl, rfl⟩

theorem modPort_sameQueue (s : State) (n m : PortN) (f : Port → Port)
    (hq : ∀ p, (f p).txq = p.txq := by exact fun _ => rfl)
    (hc : ∀ p, (f p).txCur = p.txCur := by exact fun _ => rfl)
    (hr : ∀ p, (f p).rxCur = p.rxCur := by exact fun _ => rfl) : sameQueue m s (modPort s n f) := by
  by_cases h : m = n
  · subst h
    rw [sameQueue, modPort_self]
    exact ⟨hq _, hc _, hr _⟩
  · exact sameQueue_of_port (modPort_ne s n m f h)

theorem wakeTx_sameQueue (s : State) (n m : PortN) : sameQueue m s (wakeTx s n) := by
  unfold wakeTx
  split
  · exact (modPort_sameQueue s n m _).seq (modPort_sameQueue _ n m _)
  · exact sameQueue_refl m s

theorem sendTs_sameQueue (s : State) (n m : PortN) (k : TsKind) (a0 a1 : Word) : sameQueue m s (sendTs s n k a0 a1) := by
  unfold sendTs
  split
  · exact wakeTx_sameQueue s n m
  · exact modPort_sameQueue s n m _

theorem flushTs_sameQueue (s : State) (n m : PortN) : sameQueue m s (flushTs s n) := by
  unfold flushTs
  have hlist : ∀ (l : List (TsKind × Word × Word)) (a : State),
      sameQueue m a (forEach l (fun a x => putTs a n x.1 x.2.1 x.2.2) a) := fun l => by
    induction l with
    | nil => exact fun a => sameQueue_refl m a
    | cons x l ih => exact fun a => (wakeTx_sameQueue a n m).seq (ih (putTs a n x.1 x.2.1 x.2.2))
  exact (modPort_sameQueue s n m _).seq (hlist _ _)

theorem boundary_sameQueue (s : State) (n m : PortN) : sameQueue m s (boundary s n) := by
  have hflush := flushTs_sameQueue s n m
  unfold boundary
  split
  · unfold tallyTry
    dsimp only
    split
    · exact hflush.seq ((modPort_sameQueue _ n m _).seq (wakeTx_sameQueue _ n m))
    · exact hflush
  · exact sameQueue_refl m s

theorem returnCredits_sameQueue (s : State) (n m : PortN) (b : Bool) (k : Nat) : sameQueue m s (returnCredits s n b k) := by
  have hput := modPort_sameQueue s n m (fun p => if b then { p with crdN := p.crdN + k } else { p with crdP := p.crdP + k })
    (fun p => by split <;> rfl) (fun p => by split <;> rfl) (fun p => by split <;> rfl)
  unfold returnCredits
  exact sameQueue_ite _ (sameQueue_refl m s) (sameQueue_ite _ (hput.seq (modPort_sameQueue _ n m _))
    (sameQueue_ite _ (hput.seq (wakeTx_sameQueue _ n m)) hput))

theorem sweepRx_sameQueue (s : State) (m : PortN) : sameQueue m s (sweepRx s) := by
  unfold sweepRx
  dsimp only
  have hlist : ∀ (l : List PortN) (f : State → PortN → State) (a : State), (∀ a n, sameQueue m a (f a n)) →
      sameQueue m a (forEach l f a) := fun l f a h => by
    induction l generalizing a with
    | nil => exact sameQueue_refl m a
    | cons x l ih => exact (h a x).seq (ih (f a x))
  exact hlist _ _ s fun a n => ((modPort_sameQueue a n m _).seq (returnCredits_sameQueue _ n m _ _)).seq
    (returnCredits_sameQueue _ n m _ _)

/-! ## A downstream port at a tree reset (R42, R126) -/

theorem putTs_others (s : State) (n : PortN) (k : TsKind) (a0 a1 : Word) : portsBut n s (putTs s n k a0 a1) :=
  wakeTx_others s n

theorem flushTs_others (s : State) (n : PortN) : portsBut n s (flushTs s n) := by
  unfold flushTs
  have hlist : ∀ (l : List (TsKind × Word × Word)) (a : State),
      portsBut n a (forEach l (fun a x => putTs a n x.1 x.2.1 x.2.2) a) := fun l => by
    induction l with
    | nil => exact fun a _ _ => rfl
    | cons x l ih => exact fun a m hm => (ih _ m hm).trans (putTs_others a n _ _ _ m hm)
  exact fun m hm => (hlist _ _ m hm).trans (portsBut_modPort s n _ m hm)

theorem boundary_others (s : State) (n : PortN) : portsBut n s (boundary s n) := by
  have hflush := flushTs_others s n
  unfold boundary
  split
  · unfold tallyTry
    dsimp only
    split
    · exact fun m hm => (putTs_others _ n _ _ _ m hm).trans ((portsBut_modPort _ n _ m hm).trans (hflush m hm))
    · exact hflush
  · exact fun _ _ => rfl

theorem closeEab_others (s : State) (m : DnN) (reason : Nat) (whole : Bool) :
    portsBut (dnPort m) s (closeEab s (dnPort m) reason whole) := fun k hk => by
  unfold closeEab
  split
  · rfl
  · simp only [if_neg (dnPort_ne_zero m)]
    exact modPort_ne s (dnPort m) k _ hk

/-- A port whose range is empty, and which has nothing to send. -/
def emptied1 (p : Port) : Port := { p with txq := [], rangeLo := 0xFFFF#16, rangeHi := 0#16 }

/-- A port that a tree reset has cleared, before RST starts. -/
def treeClosed (s : State) (m : DnN) : State := modPort (closeEab s (dnPort m) 4 false) (dnPort m) emptied1

theorem treePort_eq (s : State) (m : DnN) : treePort s m =
    if isUp s.ports[dnPort m] then boundary (driveRst 1 (treeClosed s m) m) (dnPort m) else treeClosed s m := rfl

theorem driveRst_sameQueue (arg : Nat) (s : State) (m : DnN) (k : PortN) : sameQueue k s (driveRst arg s m) :=
  (modPort_sameQueue s (dnPort m) k _).seq (sendTs_sameQueue _ (dnPort m) k _ _ _)

/-- What a tree reset makes of Dm: its range is empty, it sends nothing, and RST starts where it had a link. -/
def treeDone (m : DnN) (linked : Bool) (a : State) : Prop :=
  a.ports[dnPort m].rangeLo = 0xFFFF#16 ∧ a.ports[dnPort m].rangeHi = 0#16 ∧ a.ports[dnPort m].txq = [] ∧
    a.ports[dnPort m].txCur = none ∧ (linked = true → a.ports[dnPort m].rstOut = true ∧ .rst m 1 true ∈ a.out)

/-- Later traffic that starts nothing leaves what a tree reset has made of Dm. -/
theorem treeDone_later {m : DnN} {linked : Bool} {s t : State} (h : treeDone m linked s)
    (hport : standing t.ports[dnPort m] = standing s.ports[dnPort m])
    (hqueue : s.ports[dnPort m].txq = [] → s.ports[dnPort m].txCur = none →
      t.ports[dnPort m].txq = [] ∧ t.ports[dnPort m].txCur = none) (hout : s.out <:+ t.out) : treeDone m linked t := by
  obtain ⟨hlo, hhi, hq, hc, hrst⟩ := h
  obtain ⟨hq', hc'⟩ := hqueue hq hc
  exact ⟨((congrArg Port.rangeLo hport :)).trans hlo, ((congrArg Port.rangeHi hport :)).trans hhi, hq', hc',
    fun hl => ⟨((congrArg Port.rstOut hport :)).trans (hrst hl).1, hout.subset (hrst hl).2⟩⟩

theorem treeClosed_rule (s : State) (m : DnN) : treeDone m false (treeClosed s m) ∧
    portsBut (dnPort m) s (treeClosed s m) ∧ s.out <:+ (treeClosed s m).out ∧
    only [.ula, .ports, .out] s (treeClosed s m) := by
  have hself := modPort_self (closeEab s (dnPort m) 4 false) (dnPort m) emptied1
  have hclosed := closeEab_passes s (dnPort m) 4 false
  obtain ⟨hcur, -⟩ := closeEab_txCur s (dnPort m) 4 false
  have hport : (treeClosed s m).ports[dnPort m] = emptied1 (closeEab s (dnPort m) 4 false).ports[dnPort m] := hself
  refine ⟨⟨?_, ?_, ?_, ?_, fun h => absurd h (by decide)⟩, fun k hk => ?_, hclosed.outs,
    hclosed.parts.seq (modPort_only _ _ _)⟩
  · rw [hport]
    rfl
  · rw [hport]
    rfl
  · rw [hport]
    rfl
  · rw [hport]
    exact hcur
  · exact (modPort_ne _ _ k _ hk).trans (closeEab_others s m 4 false k hk)

theorem treePort_rule (s : State) (m : DnN) : treeDone m (isUp s.ports[dnPort m]) (treePort s m) ∧
    portsBut (dnPort m) s (treePort s m) ∧ s.out <:+ (treePort s m).out ∧ only [.ula, .ports, .out] s (treePort s m) := by
  obtain ⟨hdone, hbut, hout, hframe⟩ := treeClosed_rule s m
  rw [treePort_eq]
  cases hu : isUp s.ports[dnPort m]
  · rw [if_neg (by decide)]
    exact ⟨hdone, hbut, hout, hframe⟩
  · obtain ⟨hturn, hrst, hothers⟩ := driveRst_rule 1 (treeClosed s m) m
    have hlast := boundary_passes (driveRst 1 (treeClosed s m) m) (dnPort m)
    have hturned := hturn.pass hlast (rs := [.ports, .out])
    have hqueue := (driveRst_sameQueue 1 (treeClosed s m) m (dnPort m)).seq
      (boundary_sameQueue (driveRst 1 (treeClosed s m) m) (dnPort m) (dnPort m))
    obtain ⟨hlo, hhi, hq, hc, -⟩ := hdone
    rw [if_pos rfl]
    refine ⟨⟨((congrArg Port.rangeLo hturned.self.port :)).trans hlo, ((congrArg Port.rangeHi hturned.self.port :)).trans hhi,
      hqueue.1.trans hq, hqueue.2.1.trans hc, fun _ => ⟨(congrArg Port.rstOut hturned.self.port :), hlast.outs.subset hrst⟩⟩,
      fun k hk => ?_, hout.trans hturned.self.outs, hframe.seq hturned.self.parts⟩
    exact (boundary_others _ _ k hk).trans ((hothers k hk).trans (hbut k hk))

/-- Every downstream port, once each has had its turn. -/
theorem treePorts_done (s : State) (m : DnN) : treeDone m (isUp s.ports[dnPort m]) (forEach dnAll treePort s) := by
  refine forEach_turn dnAll (List.nodup_finRange 16) treePort m (List.mem_finRange m)
    (fun a => a.ports[dnPort m] = s.ports[dnPort m]) (treeDone m (isUp s.ports[dnPort m])) (fun a k hk h => ?_)
    (fun a h => ?_) (fun a k hk h => ?_) s rfl
  · exact ((treePort_rule a k).2.1 (dnPort m) fun hp => hk (dnPort_inj hp).symm).trans h
  · rw [← h]
    exact (treePort_rule a m).1
  · have hport := (treePort_rule a k).2.1 (dnPort m) fun hp => hk (dnPort_inj hp).symm
    exact treeDone_later h (congrArg standing hport) (fun hq hc => by rw [hport]; exact ⟨hq, hc⟩) (treePort_rule a k).2.2.1

/-! ## Slots and copies at a tree reset (R126) -/

/-- Port n has nothing to send. -/
def sendsNothing (n : PortN) (s : State) : Prop := s.ports[n].txq = [] ∧ s.ports[n].txCur = none

theorem sameQueue.sendsNothing {n : PortN} {s t : State} (h : sameQueue n s t) (hs : sendsNothing n s) : sendsNothing n t :=
  ⟨h.1.trans hs.1, h.2.1.trans hs.2⟩

/-- Slot j is freed, and nothing in flight refers to it any more. -/
def slotFreed (s : State) (j : Fin 48) : State := forgetSlot (modSlot s j fun _ => none) j (heldChunks s j)

theorem freeSlots_eq (s : State) : freeSlots s = forEach (List.finRange 48) slotFreed s := rfl

theorem slotFreed_slots (s : State) (j : Fin 48) : (slotFreed s j).tt.slots = (modSlot s j fun _ => none).tt.slots := rfl

theorem slotFreed_sendsNothing (s : State) (j : Fin 48) (n : PortN) (h : sendsNothing n s) :
    sendsNothing n (slotFreed s j) := by
  obtain ⟨hq, hc⟩ := h
  have hport : (slotFreed s j).ports[n].txq = s.ports[n].txq.map (detachSlot j (heldChunks s j)) ∧
      (slotFreed s j).ports[n].txCur = s.ports[n].txCur.map (detachSlot j (heldChunks s j)) := by
    simp [slotFreed, forgetSlot, dropAnswer, modSlot]
  rw [sendsNothing, hport.1, hport.2, hq, hc]
  exact ⟨rfl, rfl⟩

theorem freeSlots_passes (s : State) : Passes wayParts s (freeSlots s) :=
  forEach_passes (List.finRange 48) slotFreed s freeSlot_passes

theorem freeSlots_slots (s : State) (j : Fin 48) : (freeSlots s).tt.slots[j] = none := by
  rw [freeSlots_eq]
  refine forEach_turn (List.finRange 48) (List.nodup_finRange 48) slotFreed j (List.mem_finRange j) (fun _ => True)
    (fun a => a.tt.slots[j] = none) (fun _ _ _ _ => trivial) (fun a _ => ?_) (fun a i hi h => ?_) s trivial
  · rw [slotFreed_slots]
    exact modSlot_self a j _
  · rw [slotFreed_slots]
    exact (modSlot_ne a i j _ (Ne.symm hi)).trans h

theorem freeSlots_sendsNothing (s : State) (n : PortN) (h : sendsNothing n s) : sendsNothing n (freeSlots s) := by
  rw [freeSlots_eq]
  have hlist : ∀ (l : List (Fin 48)) (a : State), sendsNothing n a → sendsNothing n (forEach l slotFreed a) := fun l => by
    induction l with
    | nil => exact fun _ ha => ha
    | cons j l ih => exact fun a ha => ih _ (slotFreed_sendsNothing a j n ha)
  exact hlist _ s h

/-! ## The tree reset as a whole (R40, R42, R134) -/

/-- The downstream ports and the slots after a tree reset. -/
def treeSwept (s : State) : State := sweepRx (freeSlots (forEach dnAll treePort s))

/-- The tables that a tree reset clears besides. -/
def treeCleared (b : State) : State :=
  { b with
    bus := treeTables b.bus
    tb := { b.tb with crews := Vector.replicate 8 Crew.reset }
    cen := Cen.reset
    sur := Sur.reset }

theorem treeReset_eq (s : State) : treeReset s = treeCleared (bothResets (treeSwept s) 1#16) := by
  unfold treeReset treeCleared treeSwept
  exact rfl

theorem treeCleared_frame (b : State) : only [.bus, .tb, .cen, .sur] b (treeCleared b) := fun p hp => by
  cases p <;> first | rfl | exact absurd (by decide) hp

theorem treeCleared_tables (b : State) : (treeCleared b).bus = treeTables b.bus ∧ (treeCleared b).cen = Cen.reset ∧
    (treeCleared b).sur = Sur.reset ∧ (∀ k : CrewN, (treeCleared b).tb.crews[k] = Crew.reset) :=
  ⟨rfl, rfl, rfl, fun k => Vector.getElem_replicate (a := Crew.reset) k.isLt⟩

/-- The parts in which a tree reset shows. -/
def treeParts : List Part :=
  [.bb, .aon, .pcie, .doms, .ln, .hma, .ula, .que, .ports, .bus, .tt, .tb, .cen, .sur, .out]

theorem treeSwept_parts (s : State) : only wayParts s (treeSwept s) :=
  ((forEach_frame dnAll treePort s fun a m => (treePort_rule a m).2.2.2).seq (freeSlots_passes _).parts
    (rs := wayParts)).seq (sweepRx_passes _).parts

theorem treeSwept_slots (s : State) (j : Fin 48) : (treeSwept s).tt.slots[j] = none := by
  have htt : (treeSwept s).tt = (freeSlots (forEach dnAll treePort s)).tt := (sweepRx_passes _).parts .tt (by decide)
  rw [htt]
  exact freeSlots_slots _ j

theorem treeSwept_done (s : State) (m : DnN) : treeDone m (isUp s.ports[dnPort m]) (treeSwept s) := by
  have hports := treePorts_done s m
  have hfreed := freeSlots_passes (forEach dnAll treePort s)
  have hswept := sweepRx_passes (freeSlots (forEach dnAll treePort s))
  exact treeDone_later hports ((hswept.ports _).trans (hfreed.ports _))
    (fun hq hc => (sweepRx_sameQueue _ (dnPort m)).sendsNothing (freeSlots_sendsNothing _ (dnPort m) ⟨hq, hc⟩))
    (hfreed.outs.trans hswept.outs)

theorem treeReset_parts (s : State) : only treeParts s (treeReset s) := by
  rw [treeReset_eq]
  exact ((treeSwept_parts s).seq (bothResets_rule (treeSwept s) 1#16).2.2.2.2 (rs := treeParts)).seq (treeCleared_frame _)

theorem treeReset_ports (s : State) : (treeReset s).ports = (treeSwept s).ports := by
  rw [treeReset_eq]
  exact (treeCleared_frame _ .ports (by decide)).trans ((bothResets_rule (treeSwept s) 1#16).2.2.2.2 .ports (by decide))

theorem treeReset_outs (s : State) : (treeSwept s).out <:+ (treeReset s).out := by
  have hout := treeCleared_frame (bothResets (treeSwept s) 1#16) .out (by decide)
  rw [treeReset_eq, hout]
  exact (bothResets_rule (treeSwept s) 1#16).2.2.2.1

theorem treeReset_done (s : State) (m : DnN) : treeDone m (isUp s.ports[dnPort m]) (treeReset s) := by
  have hport : (treeReset s).ports[dnPort m] = (treeSwept s).ports[dnPort m] := by rw [treeReset_ports]
  refine treeDone_later (treeSwept_done s m) (congrArg standing hport) (fun hq hc => ?_) (treeReset_outs s)
  rw [hport]
  exact ⟨hq, hc⟩

theorem treeReset_slots (s : State) (j : Fin 48) : (treeReset s).tt.slots[j] = none := by
  have htt : (treeReset s).tt = (treeSwept s).tt := by
    rw [treeReset_eq]
    exact (treeCleared_frame _ .tt (by decide)).trans ((bothResets_rule (treeSwept s) 1#16).2.2.2.2 .tt (by decide))
  rw [htt]
  exact treeSwept_slots s j

theorem treeReset_tables (s : State) : (treeReset s).bus = treeTables (busCleared (treeSwept s).bus) ∧
    (treeReset s).cen = Cen.reset ∧ (treeReset s).sur = Sur.reset ∧ (∀ k : CrewN, (treeReset s).tb.crews[k] = Crew.reset) := by
  rw [← (bothResets_rule (treeSwept s) 1#16).1, treeReset_eq]
  exact treeCleared_tables _

theorem treeTables_downstream (b : Bus) : ∀ e ∈ (treeTables b).sched, e.1 < 64 := fun e he => by
  simpa using (List.mem_filter.mp he).2

/-! ## RST_DRIVE_END (R42, R63) -/

theorem endRst_others (s : State) (m : DnN) : portsBut (dnPort m) s (endRst s m) := by
  unfold endRst
  split
  · exact portsBut_modPort s (dnPort m) _
  · exact fun _ _ => rfl

theorem endRst_frame (s : State) (m : DnN) : only [.ports, .out] s (endRst s m) := by
  unfold endRst
  exact only_ite _ ((modPort_only s _ _).seq (emit_only _ _)) (only_refl _ s)

theorem endRst_outs (s : State) (m : DnN) : s.out <:+ (endRst s m).out := by
  unfold endRst
  split
  · exact List.suffix_cons _ _
  · exact List.suffix_rfl

/-- RST ends on Dm, and is reported where it was driven. -/
def rstEnded (m : DnN) (driven : Bool) (s : State) : Prop :=
  s.ports[dnPort m].rstOut = false ∧ (driven = true → .rst m 0 false ∈ s.out)

theorem endRst_ends (s : State) (m : DnN) : rstEnded m s.ports[dnPort m].rstOut (endRst s m) := by
  unfold endRst
  cases hd : s.ports[dnPort m].rstOut
  · rw [if_neg (by decide)]
    exact ⟨hd, fun h => absurd h (by decide)⟩
  · rw [if_pos rfl]
    exact ⟨(congrArg Port.rstOut (modPort_self s (dnPort m) _) :), fun _ => List.mem_cons_self⟩

/-- The ports whose RST ends now. -/
def rstOver (w : Word) : List DnN := dnAll.filter fun m => bit w m.val

theorem rstOver_nodup (w : Word) : (rstOver w).Nodup := (List.nodup_finRange 16).filter _

theorem mem_rstOver (w : Word) (m : DnN) : m ∈ rstOver w ↔ bit w m.val = true :=
  List.mem_filter.trans (and_iff_right (List.mem_finRange m))

theorem endRsts_skips (w : Word) (s : State) (m : DnN) (hm : bit w m.val = false) :
    (forEach (rstOver w) endRst s).ports[dnPort m] = s.ports[dnPort m] := by
  have hlist : ∀ (l : List DnN) (a : State), m ∉ l → (forEach l endRst a).ports[dnPort m] = a.ports[dnPort m] := fun l => by
    induction l with
    | nil => exact fun _ _ => rfl
    | cons k l ih =>
      intro a hl
      obtain ⟨hne, hrest⟩ := not_or.mp (mt List.mem_cons.mpr hl)
      exact (ih (endRst a k) hrest).trans (endRst_others a k (dnPort m) fun h => hne (dnPort_inj h))
  exact hlist _ s fun h => by
    rw [mem_rstOver, hm] at h
    exact absurd h (by decide)

theorem endRsts_ends (w : Word) (s : State) (m : DnN) (hm : bit w m.val = true) :
    rstEnded m s.ports[dnPort m].rstOut (forEach (rstOver w) endRst s) := by
  refine forEach_turn (rstOver w) (rstOver_nodup w) endRst m ((mem_rstOver w m).mpr hm)
    (fun a => a.ports[dnPort m] = s.ports[dnPort m]) (rstEnded m s.ports[dnPort m].rstOut) (fun a k hk h => ?_)
    (fun a h => ?_) (fun a k hk h => ?_) s rfl
  · exact (endRst_others a k (dnPort m) fun hp => hk (dnPort_inj hp).symm).trans h
  · rw [← h]
    exact endRst_ends a m
  · refine ⟨?_, fun hd => (endRst_outs a k).subset (h.2 hd)⟩
    rw [endRst_others a k (dnPort m) fun hp => hk (dnPort_inj hp).symm]
    exact h.1

theorem endRsts_rstOut (w : Word) (s : State) (m : DnN) :
    (forEach (rstOver w) endRst s).ports[dnPort m].rstOut = (s.ports[dnPort m].rstOut && !bit w m.val) := by
  cases hm : bit w m.val
  · rw [endRsts_skips w s m hm, Bool.not_false, Bool.and_true]
  · rw [(endRsts_ends w s m hm).1, Bool.not_true, Bool.and_false]

/-! ## The rows -/

theorem portReset_clears (s : State) (hl : linkOn s = true) (hq : s.ports[(0 : PortN)].flooding = false)
    (ha : upAligned s = true) : ∃ t, exec .portResetRx s = .next t ∧ t.bus.node = 0xFFFE#16 ∧ t.bus.loc = 0xFFFE#16 ∧
      t.bus.hubQ = [] ∧ t.bus.kept = none ∧ t.bus.mc = s.bus.mc ∧ t.bus.sched = s.bus.sched ∧ t.sur.sweep = none ∧
      t.sur.walk = .idle ∧ (∀ k : EpN, t.ln.eps[k].halt = false ∧ t.ln.eps[k].stage = 0) ∧
      only [.bb, .aon, .pcie, .doms, .ln, .hma, .que, .bus, .sur, .out] s t := by
  obtain ⟨hbus, hsur, heps, -, hparts⟩ := bothResets_rule s 2#16
  refine ⟨bothResets s 2#16, onLink_eq hl (onRx_quiet hq (whenDo_holds ha)), ?_⟩
  rw [hbus, hsur]
  exact ⟨rfl, rfl, rfl, rfl, rfl, rfl, rfl, rfl, heps, hparts⟩

theorem treeReset_clears (s : State) (hl : linkOn s = true) (hq : s.ports[(0 : PortN)].flooding = false)
    (ha : upAligned s = true) : ∃ t, exec .treeReset s = .next t ∧ t.bus.node = 0xFFFE#16 ∧ t.bus.loc = 0xFFFE#16 ∧
      t.bus.mc = [] ∧ (∀ e ∈ t.bus.sched, e.1 < 64) ∧ t.cen = Cen.reset ∧ t.sur = Sur.reset ∧
      (∀ k : CrewN, t.tb.crews[k] = Crew.reset) ∧ (∀ m : DnN, treeDone m (isUp s.ports[dnPort m]) t) ∧
      (∀ j : Fin 48, t.tt.slots[j] = none) ∧ only treeParts s t := by
  refine ⟨treeReset s, onLink_eq hl (onRx_quiet hq (whenDo_holds ha)), ?_⟩
  obtain ⟨hbus, hcen, hsur, hcrews⟩ := treeReset_tables s
  rw [hbus]
  exact ⟨rfl, rfl, rfl, treeTables_downstream _, hcen, hsur, hcrews, treeReset_done s, treeReset_slots s, treeReset_parts s⟩

theorem resets_unaligned (s : State) (hl : linkOn s = true) (ha : upAligned s = false) :
    exec .portResetRx s = .next s ∧ exec .treeReset s = .next s := by
  cases hq : s.ports[(0 : PortN)].flooding
  · exact ⟨onLink_eq hl (onRx_quiet hq (whenDo_fails ha)),
      onLink_eq hl (onRx_quiet hq (whenDo_fails ha))⟩
  · exact ⟨onLink_eq hl (onRx_flooded hq), onLink_eq hl (onRx_flooded hq)⟩

/-- Settles O36: it holds. Both resets clear through `bothResets`; a tree reset before that takes each downstream port
in turn and frees the slots, which nothing fills again. -/
theorem busResets : Obligations.BusResets := by
  refine ⟨portReset_clears, treeReset_clears, resets_unaligned, fun w s hl => ?_⟩
  exact ⟨_, onLink_eq hl rfl, endRsts_rstOut w s, fun m hm hd => (endRsts_ends w s m hm).2 hd,
    forEach_frame (rstOver w) endRst s endRst_frame⟩

end Sys2Proof.Machine
end

section
/-! PROOF. The packet header and its routing (O37). -/

namespace Sys2Proof.Machine

open Sys2Proof Sys2Proof.Safety

-- One proof after the other: side by side, the proofs of one text wait for each other in too many threads.
set_option Elab.async false


/-! ## A header enters the receive buffer -/

/-- The entry that a header makes in port n's receive buffer. -/
def entered (s : State) (n : PortN) (ws : List Word) (h : Hdr) (len : Nat) (mc bad : Bool) (dest : List Deliver) : RxPkt :=
  { pid := s.bus.pid, hdr := h, stamp := sopStamp s n ws, pll := onPll s, len := len, ended := false, mc := mc,
    bad := bad, got := 4, since := now s, dest := dest, old := false }

/-- Port p with a new entry r of number k, which it is receiving. -/
def receiving (r : RxPkt) (k : Nat) (p : Port) : Port := { p with rx := p.rx ++ [r], rxCur := some k }

theorem addRx_rule (s : State) (n : PortN) (ws : List Word) (h : Hdr) (len : Nat) (mc bad : Bool) (dest : List Deliver) :
    (addRx s n ws h len mc bad dest).ports[n] = receiving (entered s n ws h len mc bad dest) s.bus.pid s.ports[n] ∧
      (addRx s n ws h len mc bad dest).bus = { s.bus with pid := s.bus.pid + 1 } ∧
      portsBut n s (addRx s n ws h len mc bad dest) ∧ only [.ports, .bus] s (addRx s n ws h len mc bad dest) :=
  ⟨modPort_self _ n _, rfl, portsBut_modPort { s with bus := { s.bus with pid := s.bus.pid + 1 } } n _,
    (bus_frame s _).seq (modPort_only _ n _)⟩

theorem mem_receiving (r : RxPkt) (k : Nat) (p : Port) : r ∈ (receiving r k p).rx :=
  List.mem_append_right _ (List.mem_singleton_self r)

/-- With nothing in reception no packet is left without its close. -/
theorem rxUnclosed_idle {s : State} {n : PortN} (h : s.ports[n].rxCur = none) : rxUnclosed s n = s := by
  have hgood : rxGood s.ports[n] = none := by rw [rxGood, h]; rfl
  have hif : (if (rxGood s.ports[n]).isSome then malformRx (countCode s n) n else s) = s := by
    rw [hgood]
    exact if_neg (by decide)
  unfold rxUnclosed
  rw [hif]
  dsimp only
  rw [h]

theorem exec_headerFlooded {s : State} {n : PortN} {w0 w1 w2 w3 len : Word} (hl : linkOn s = true)
    (hu : isUp s.ports[n] = true) (hf : s.ports[n].flooding = true) (hc : s.ports[n].rxCur = none) :
    exec (.packetHeaderRx n w0 w1 w2 w3 len) s =
      .next (addRx (floodDrop s n) n [w0, w1, w2, w3] (hdrOf w0 w1 w2 w3) len.toNat false true []) := by
  refine onLink_eq hl ((whenDo_holds hu).trans ?_)
  rw [if_pos hf, floodHeader, rxUnclosed_idle hc]

theorem exec_header {s : State} {n : PortN} {w0 w1 w2 w3 len : Word} (hl : linkOn s = true) (hu : isUp s.ports[n] = true)
    (hf : s.ports[n].flooding = false) :
    exec (.packetHeaderRx n w0 w1 w2 w3 len) s = .next (headerRx s n w0 w1 w2 w3 len.toNat) := by
  refine onLink_eq hl ((whenDo_holds hu).trans ?_)
  exact if_neg (by simpa using hf)

/-! ## The check of a header (R82, R86) -/

/-- The state in which a header whose check failed enters. -/
def hdrCounted (s : State) (n : PortN) : State := modPort s n fun p => { p with hdrErr := satInc 255 p.hdrErr }

theorem headerRx_bad {s : State} {n : PortN} {w0 w1 w2 w3 : Word} {len : Nat} (hc : s.ports[n].rxCur = none)
    (hh : hdrOk w0 w1 w2 w3 = false) : headerRx s n w0 w1 w2 w3 len =
      addRx (hdrCounted s n) n [w0, w1, w2, w3] (hdrOf w0 w1 w2 w3) len false true [] := by
  unfold headerRx
  rw [rxUnclosed_idle hc, hh]
  rfl

theorem headerRx_up {s : State} {w0 w1 w2 w3 : Word} {len : Nat} (hc : s.ports[(0 : PortN)].rxCur = none)
    (hs : s.ports[(0 : PortN)].rxSusp = none) (hh : hdrOk w0 w1 w2 w3 = true) :
    headerRx s 0 w0 w1 w2 w3 len = headerUp s [w0, w1, w2, w3] (hdrOf w0 w1 w2 w3) len := by
  unfold headerRx
  rw [rxUnclosed_idle hc, hh]
  dsimp only
  rw [hs]
  rfl

theorem headerRx_down {s : State} {m : DnN} {w0 w1 w2 w3 : Word} {len : Nat} (hc : s.ports[dnPort m].rxCur = none)
    (hs : s.ports[dnPort m].rxSusp = none) (hh : hdrOk w0 w1 w2 w3 = true) :
    headerRx s (dnPort m) w0 w1 w2 w3 len = headerDown s m [w0, w1, w2, w3] (hdrOf w0 w1 w2 w3) len := by
  unfold headerRx
  rw [rxUnclosed_idle hc, hh]
  dsimp only
  rw [hs]
  rfl

/-! ## Routes from UP (R90, R91) -/

/-- An address that is no group and no broadcast. -/
theorem groupAddr_unicast {h : Hdr} (ha : h.addr.toNat < 0xF000) : groupAddr h = false := by
  simp [groupAddr]
  omega

theorem groupAddr_node {h : Hdr} (ha : h.addr.toNat < 0xF000 ∨ h.addr = 0xFFFE#16) : groupAddr h = false := by
  rcases ha with ha | ha
  · exact groupAddr_unicast ha
  · simp [groupAddr, ha]

/-- Neither broadcast nor multicast, by R90's first two rules. -/
theorem not_group {a : Word} (ha : a.toNat < 0xF000 ∨ a = 0xFFFE#16) :
    a ≠ 0xFFFF#16 ∧ (0xF000 ≤ a.toNat && a.toNat ≤ 0xFFFD) = false := by
  rcases ha with ha | ha
  · exact ⟨fun h => absurd ha (by rw [h]; decide), by simp; omega⟩
  · rw [ha]
    decide

theorem routeUp_node {s : State} {h : Hdr} {pid len : Nat} (ht : h.typ = 14#4) (hn : h.addr = s.bus.node)
    (ha : h.addr.toNat < 0xF000 ∨ h.addr = 0xFFFE#16) : routeUp s h pid len = (s, [.hub]) := by
  obtain ⟨hbroad, hgroup⟩ := not_group ha
  unfold routeUp
  simp [isNode, ht, hn ▸ hbroad, hn ▸ hgroup, hn]

/-- An address of a node below goes by the ports' ranges. -/
theorem routeUp_range {s : State} {h : Hdr} {pid len : Nat} (hn : h.addr ≠ s.bus.node) (he : s.ln.en = false)
    (ha : h.addr.toNat < 0xF000) :
    (rangePort s h.addr = none → routeUp s h pid len = (countNoroute s, [])) ∧
      (∀ m, rangePort s h.addr = some m → routeUp s h pid len = toPort s m h pid len) := by
  obtain ⟨hbroad, hgroup⟩ := not_group (.inl ha)
  unfold routeUp
  simp only [hbroad, hgroup, isNode, hn, he, if_false, decide_false, Bool.false_eq_true, Bool.false_and]
  exact ⟨fun hr => by rw [hr], fun m hr => by rw [hr]⟩

theorem echoTap_other {h : Hdr} (ht : h.typ ≠ 13#4) : echoTap h = [] := by
  simp [echoTap, ht]

theorem goneType_ne {h : Hdr} (hg : goneType h = true) : h.typ ≠ 13#4 ∧ h.typ ≠ 10#4 := by
  constructor <;> intro ht <;> rw [goneType, ht] at hg <;> exact absurd hg (by decide)

theorem toPort_gone {s : State} {m : DnN} {h : Hdr} {pid len : Nat} (hf : hopFull h = false)
    (hu : isUp s.ports[dnPort m] = false) (hg : goneType h = true) :
    toPort s m h pid len = (s, [.answer (ulaOf m) (goneOf h s.bus.node (dnPort m))]) := by
  unfold toPort
  simp [hf, hu, hg, (goneType_ne hg).2, -Fin.getElem_fin]

theorem toPort_forwards {s : State} {m : DnN} {h : Hdr} {pid len : Nat} (hf : hopFull h = false)
    (hu : isUp s.ports[dnPort m] = true) (hs : splitMode s m = false) (he : expectsAnswer h = false) :
    toPort s m h pid len = (copyDown s m h pid len, []) := by
  unfold toPort forwardDown
  simp [hf, hu, hs, he, -Fin.getElem_fin]

/-- A copy for Dm joins the end of the port's queue. -/
theorem copyDown_rule (s : State) (m : DnN) (h : Hdr) (pid len : Nat) :
    (∃ saf, (copyDown s m h pid len).ports[dnPort m] =
      { s.ports[dnPort m] with txq := s.ports[dnPort m].txq ++ [copyTx pid 0 (nextHop h) len saf] }) ∧
      only [.ports] s (copyDown s m h pid len) :=
  ⟨⟨_, modPort_self s (dnPort m) _⟩, modPort_only s (dnPort m) _⟩

/-! ## Routes from below (R89) -/

theorem upward_copies {s : State} {m : DnN} {h : Hdr} {pid len : Nat} (ha : h.addr.toNat < 0xF000)
    (hf : hopFull h = false) : upward s m h pid len = (copyUp s m h pid len, []) := by
  have hfresh : h.addr ≠ 0xFFFE#16 := fun heq => absurd ha (by rw [heq]; decide)
  unfold upward
  simp [groupAddr_unicast ha, hf, hfresh]

theorem headerDown_copies {s : State} {m : DnN} {ws : List Word} {h : Hdr} {len : Nat}
    (hans : isAnswerType h.typ.toNat = false) (ht : h.typ ≠ 13#4) (ha : h.addr.toNat < 0xF000) (hf : hopFull h = false) :
    headerDown s m ws h len = addRx (copyUp s m h s.bus.pid len) (dnPort m) ws h len false false [] := by
  unfold headerDown
  simp [hans, ht, upward_copies ha hf]

/-- A packet for a ULA requester joins the end of its queue. -/
theorem ulaPush_joins {s : State} (hu : isUp s.ports[(0 : PortN)] = true) {r : Nat} (hr : r < 28) (t : TxPkt) :
    vAt (ulaPush s r t).ula.reqs [] r = vAt s.ula.reqs [] r ++ [t] := by
  have hrun : (ulaPush s r t).ula.reqs = s.ula.reqs.setIfInBounds r (vAt s.ula.reqs [] r ++ [t]) :=
    congrArg (fun u : State => u.ula.reqs) (if_pos hu)
  rw [hrun, vAt_setIfInBounds _ _ _ hr]

theorem ulaPush_frame (s : State) (r : Nat) (t : TxPkt) : only [.ula] s (ulaPush s r t) :=
  only_ite _ (ula_frame s _) (only_refl _ s)

/-! ## The clauses of O37 -/

theorem headerFlooded_entered (n : PortN) (w0 w1 w2 w3 len : Word) (s : State) (hl : linkOn s = true)
    (hu : isUp s.ports[n] = true) (hf : s.ports[n].flooding = true) (hc : s.ports[n].rxCur = none) :
    ∃ t, exec (.packetHeaderRx n w0 w1 w2 w3 len) s = .next t ∧
      t.ports[n].floodDisc = satInc 255 s.ports[n].floodDisc ∧ t.ports[n].hdrErr = s.ports[n].hdrErr ∧
      (∃ r ∈ t.ports[n].rx, r.pid = s.bus.pid ∧ r.bad = true ∧ r.dest = []) ∧
      t.ports[n].rxCur = some s.bus.pid ∧ t.bus = { s.bus with pid := s.bus.pid + 1 } ∧
      portsBut n s t ∧ only [.ports, .bus] s t := by
  obtain ⟨hport, hbus, hbut, hparts⟩ :=
    addRx_rule (floodDrop s n) n [w0, w1, w2, w3] (hdrOf w0 w1 w2 w3) len.toNat false true []
  have hdrop : (floodDrop s n).ports[n] = { s.ports[n] with floodDisc := satInc 255 s.ports[n].floodDisc } :=
    modPort_self s n _
  have hmem := mem_receiving (entered (floodDrop s n) n [w0, w1, w2, w3] (hdrOf w0 w1 w2 w3) len.toNat false true [])
    (floodDrop s n).bus.pid (floodDrop s n).ports[n]
  rw [← hport] at hmem
  rw [hdrop] at hport
  exact ⟨_, exec_headerFlooded hl hu hf hc, (congrArg Port.floodDisc hport :), (congrArg Port.hdrErr hport :),
    ⟨_, hmem, rfl, rfl, rfl⟩, (congrArg Port.rxCur hport :), hbus,
    fun k hk => (hbut k hk).trans (modPort_ne s n k _ hk), (modPort_only s n _).seq hparts⟩

theorem headerBad_counts (n : PortN) (w0 w1 w2 w3 len : Word) (s : State) (hl : linkOn s = true)
    (hu : isUp s.ports[n] = true) (hf : s.ports[n].flooding = false) (hc : s.ports[n].rxCur = none)
    (hh : hdrOk w0 w1 w2 w3 = false) :
    ∃ t, exec (.packetHeaderRx n w0 w1 w2 w3 len) s = .next t ∧
      t.ports[n].hdrErr = satInc 255 s.ports[n].hdrErr ∧ t.ports[n].rxCur = some s.bus.pid ∧
      t.bus = { s.bus with pid := s.bus.pid + 1 } ∧ portsBut n s t ∧ only [.ports, .bus] s t := by
  obtain ⟨hport, hbus, hbut, hparts⟩ :=
    addRx_rule (hdrCounted s n) n [w0, w1, w2, w3] (hdrOf w0 w1 w2 w3) len.toNat false true []
  have hcounted : (hdrCounted s n).ports[n] = { s.ports[n] with hdrErr := satInc 255 s.ports[n].hdrErr } :=
    modPort_self s n _
  rw [hcounted] at hport
  refine ⟨_, exec_header hl hu hf, ?_⟩
  rw [headerRx_bad hc hh]
  exact ⟨(congrArg Port.hdrErr hport :), (congrArg Port.rxCur hport :), hbus,
    fun k hk => (hbut k hk).trans (modPort_ne s n k _ hk), (modPort_only s n _).seq hparts⟩

section
variable {w0 w1 w2 w3 len : Word} {s : State} (hl : linkOn s = true) (hu : isUp s.ports[(0 : PortN)] = true)
  (hf : s.ports[(0 : PortN)].flooding = false) (hc : s.ports[(0 : PortN)].rxCur = none)
  (hs : s.ports[(0 : PortN)].rxSusp = none) (hh : hdrOk w0 w1 w2 w3 = true)
include hl hu hf hc hs hh

/-- A header that passes on UP enters with the deliveries of its route. -/
theorem exec_headerUp {t : State} {dest : List Deliver}
    (hr : routeUp s (hdrOf w0 w1 w2 w3) s.bus.pid len.toNat = (t, dest)) :
    exec (.packetHeaderRx 0 w0 w1 w2 w3 len) s = .next (addRx t 0 [w0, w1, w2, w3] (hdrOf w0 w1 w2 w3) len.toNat
      (groupAddr (hdrOf w0 w1 w2 w3)) false (dest ++ echoTap (hdrOf w0 w1 w2 w3))) := by
  rw [exec_header hl hu hf, headerRx_up hc hs hh, headerUp, hr]

theorem headerUp_hub (ht : (hdrOf w0 w1 w2 w3).typ = 14#4) (hn : w1 = s.bus.node)
    (ha : w1.toNat < 0xF000 ∨ w1 = 0xFFFE#16) :
    ∃ t, exec (.packetHeaderRx 0 w0 w1 w2 w3 len) s = .next t ∧
      (∃ r ∈ t.ports[(0 : PortN)].rx, r.pid = s.bus.pid ∧ r.dest = [.hub] ∧ r.hdr = hdrOf w0 w1 w2 w3 ∧
        r.bad = false ∧ r.mc = false) ∧
      t.ports[(0 : PortN)].rxCur = some s.bus.pid ∧ t.bus = { s.bus with pid := s.bus.pid + 1 } ∧
      portsBut 0 s t ∧ only [.ports, .bus] s t := by
  have hrow := exec_headerUp hl hu hf hc hs hh (len := len) (routeUp_node ht hn ha)
  rw [groupAddr_node ha, echoTap_other (by rw [ht]; decide), List.append_nil] at hrow
  obtain ⟨hport, hbus, hbut, hparts⟩ := addRx_rule s 0 [w0, w1, w2, w3] (hdrOf w0 w1 w2 w3) len.toNat false false [.hub]
  refine ⟨_, hrow, ?_, (congrArg Port.rxCur hport :), hbus, hbut, hparts⟩
  rw [hport]
  exact ⟨_, mem_receiving _ _ _, rfl, rfl, rfl, rfl, rfl⟩

theorem headerUp_noroute (hn : w1 ≠ s.bus.node) (he : s.ln.en = false) (ha : w1.toNat < 0xF000)
    (hr : rangePort s w1 = none) :
    ∃ t, exec (.packetHeaderRx 0 w0 w1 w2 w3 len) s = .next t ∧
      t.bus = { s.bus with pid := s.bus.pid + 1, noroute := (s.bus.noroute + 1) % 256 } ∧
      portsBut 0 s t ∧ only [.ports, .bus] s t := by
  have hroute := (routeUp_range (h := hdrOf w0 w1 w2 w3) (pid := s.bus.pid) (len := len.toNat) hn he ha).1 hr
  obtain ⟨-, hbus, hbut, hparts⟩ := addRx_rule (countNoroute s) 0 [w0, w1, w2, w3] (hdrOf w0 w1 w2 w3) len.toNat
    (groupAddr (hdrOf w0 w1 w2 w3)) false ([] ++ echoTap (hdrOf w0 w1 w2 w3))
  exact ⟨_, exec_headerUp hl hu hf hc hs hh hroute, hbus, hbut, (bus_frame s _).seq hparts⟩

theorem headerUp_forwards (m : DnN) (hn : w1 ≠ s.bus.node) (he : s.ln.en = false) (ha : w1.toNat < 0xF000)
    (hr : rangePort s w1 = some m) (hop : hopFull (hdrOf w0 w1 w2 w3) = false) (hup : isUp s.ports[dnPort m] = true)
    (hsplit : splitMode s m = false) (hans : expectsAnswer (hdrOf w0 w1 w2 w3) = false) :
    ∃ t, exec (.packetHeaderRx 0 w0 w1 w2 w3 len) s = .next t ∧
      (∃ saf, t.ports[dnPort m] = { s.ports[dnPort m] with
        txq := s.ports[dnPort m].txq ++
          [copyTx s.bus.pid 0 (nextHop (hdrOf w0 w1 w2 w3)) len.toNat saf] }) ∧
      only [.ports, .bus] s t := by
  have hroute := ((routeUp_range (h := hdrOf w0 w1 w2 w3) (pid := s.bus.pid) (len := len.toNat) hn he ha).2 m hr).trans (toPort_forwards hop hup hsplit hans)
  obtain ⟨⟨saf, hcopy⟩, hframe⟩ := copyDown_rule s m (hdrOf w0 w1 w2 w3) s.bus.pid len.toNat
  obtain ⟨-, -, hbut, hparts⟩ := addRx_rule (copyDown s m (hdrOf w0 w1 w2 w3) s.bus.pid len.toNat) 0 [w0, w1, w2, w3]
    (hdrOf w0 w1 w2 w3) len.toNat (groupAddr (hdrOf w0 w1 w2 w3)) false ([] ++ echoTap (hdrOf w0 w1 w2 w3))
  exact ⟨_, exec_headerUp hl hu hf hc hs hh hroute, ⟨saf, (hbut _ (dnPort_ne_zero m)).trans hcopy⟩,
    hframe.seq hparts⟩

theorem headerUp_gone (m : DnN) (hn : w1 ≠ s.bus.node) (he : s.ln.en = false) (ha : w1.toNat < 0xF000)
    (hr : rangePort s w1 = some m) (hop : hopFull (hdrOf w0 w1 w2 w3) = false) (hup : isUp s.ports[dnPort m] = false)
    (hg : goneType (hdrOf w0 w1 w2 w3) = true) :
    ∃ t, exec (.packetHeaderRx 0 w0 w1 w2 w3 len) s = .next t ∧
      (∃ r ∈ t.ports[(0 : PortN)].rx, r.pid = s.bus.pid ∧
        r.dest = [.answer (ulaOf m) (goneOf (hdrOf w0 w1 w2 w3) s.bus.node (dnPort m))]) ∧
      t.ports[dnPort m] = s.ports[dnPort m] ∧ only [.ports, .bus] s t := by
  have hroute := ((routeUp_range (h := hdrOf w0 w1 w2 w3) (pid := s.bus.pid) (len := len.toNat) hn he ha).2 m hr).trans (toPort_gone hop hup hg)
  have hrow := exec_headerUp hl hu hf hc hs hh hroute
  rw [echoTap_other (goneType_ne hg).1, List.append_nil] at hrow
  obtain ⟨hport, -, hbut, hparts⟩ := addRx_rule s 0 [w0, w1, w2, w3] (hdrOf w0 w1 w2 w3) len.toNat
    (groupAddr (hdrOf w0 w1 w2 w3)) false [.answer (ulaOf m) (goneOf (hdrOf w0 w1 w2 w3) s.bus.node (dnPort m))]
  refine ⟨_, hrow, ?_, hbut _ (dnPort_ne_zero m), hparts⟩
  rw [hport]
  exact ⟨_, mem_receiving _ _ _, rfl, rfl⟩

end

theorem headerDown_upward (m : DnN) (w0 w1 w2 w3 len : Word) (s : State) (hl : linkOn s = true)
    (hu : isUp s.ports[dnPort m] = true) (hf : s.ports[dnPort m].flooding = false) (hc : s.ports[dnPort m].rxCur = none)
    (hs : s.ports[dnPort m].rxSusp = none) (hh : hdrOk w0 w1 w2 w3 = true) (hup : isUp s.ports[(0 : PortN)] = true)
    (ha : w1.toNat < 0xF000) (hans : isAnswerType (hdrOf w0 w1 w2 w3).typ.toNat = false)
    (ht : (hdrOf w0 w1 w2 w3).typ ≠ 13#4) (hop : hopFull (hdrOf w0 w1 w2 w3) = false) :
    ∃ t, exec (.packetHeaderRx (dnPort m) w0 w1 w2 w3 len) s = .next t ∧
      (∃ saf, vAt t.ula.reqs [] (ulaOf m) = vAt s.ula.reqs [] (ulaOf m) ++
        [copyTx s.bus.pid (dnPort m) (nextHop (hdrOf w0 w1 w2 w3)) len.toNat saf]) ∧
      t.ports[dnPort m].rxCur = some s.bus.pid ∧ portsBut (dnPort m) s t ∧ only [.ula, .ports, .bus] s t := by
  have hpush := ulaPush_frame s (ulaOf m) (copyTx s.bus.pid (dnPort m) (nextHop (hdrOf w0 w1 w2 w3)) len.toNat
    (decide (s.ports[dnPort m].rate < s.ports[0].rate)))
  have hjoin := ulaPush_joins hup (r := ulaOf m) (show m.val < 28 by omega) (copyTx s.bus.pid (dnPort m)
    (nextHop (hdrOf w0 w1 w2 w3)) len.toNat (decide (s.ports[dnPort m].rate < s.ports[0].rate)))
  obtain ⟨hport, -, hbut, hparts⟩ := addRx_rule (copyUp s m (hdrOf w0 w1 w2 w3) s.bus.pid len.toNat) (dnPort m)
    [w0, w1, w2, w3] (hdrOf w0 w1 w2 w3) len.toNat false false []
  have hpid : (copyUp s m (hdrOf w0 w1 w2 w3) s.bus.pid len.toNat).bus = s.bus := hpush .bus (by decide)
  have hsame : (copyUp s m (hdrOf w0 w1 w2 w3) s.bus.pid len.toNat).ports = s.ports := hpush .ports (by decide)
  refine ⟨_, exec_header hl hu hf, ?_⟩
  rw [headerRx_down hc hs hh, headerDown_copies hans ht ha hop]
  refine ⟨⟨_, hjoin⟩, (congrArg Port.rxCur hport :).trans (congrArg (fun b : Bus => some b.pid) hpid), fun k hk => (hbut k hk).trans ?_,
    hpush.seq hparts⟩
  rw [hsame]

/-- Settles O37: it holds. A header that passes enters the buffer with the deliveries of its route; the route itself
changes the packet's port or a queue of UP alone. -/
theorem packetHeaders : Obligations.PacketHeaders := by
  refine ⟨headerFlooded_entered, fun n w0 w1 w2 w3 len s hl hu => onLink_eq hl (whenDo_fails hu), headerBad_counts,
    fun w0 w1 w2 w3 len s hl hu hf hc hs hh => ⟨headerUp_hub hl hu hf hc hs hh, headerUp_noroute hl hu hf hc hs hh,
      headerUp_forwards hl hu hf hc hs hh, headerUp_gone hl hu hf hc hs hh⟩, headerDown_upward⟩

end Sys2Proof.Machine
end

section
/-! PROOF. The end of a packet, good and bad (O38). -/

namespace Sys2Proof.Machine

open Sys2Proof Sys2Proof.Safety

-- One proof after the other: side by side, the proofs of one text wait for each other in too many threads.
set_option Elab.async false


/-! ## The packet in reception, where copies of others end -/

/-- Port n receives the packet that it received. -/
def sameRx (n : PortN) (s t : State) : Prop := t.ports[n].rxCur = s.ports[n].rxCur

theorem sameQueue.sameRx {n : PortN} {s t : State} (h : sameQueue n s t) : sameRx n s t := h.2.2

theorem sameRx.seq {n : PortN} {s t u : State} (h : sameRx n s t) (k : sameRx n t u) : sameRx n s u := Eq.trans k h

theorem sameRx_refl (n : PortN) (s : State) : sameRx n s s := rfl

theorem sameRx_ite {n : PortN} (c : Prop) [Decidable c] {s t u : State} (ht : sameRx n s t) (hu : sameRx n s u) :
    sameRx n s (if c then t else u) := by
  split <;> assumption

theorem modPort_sameRx (s : State) (n m : PortN) (f : Port → Port)
    (hf : ∀ p, (f p).rxCur = p.rxCur := by exact fun _ => rfl) : sameRx m s (modPort s n f) := by
  by_cases h : m = n
  · subst h
    rw [sameRx, modPort_self, hf]
  · rw [sameRx, modPort_ne s n m f h]

theorem mapPorts_sameRx (s : State) (m : PortN) (f : Port → Port)
    (hf : ∀ p, (f p).rxCur = p.rxCur := by exact fun _ => rfl) : sameRx m s { s with ports := s.ports.map f } := by
  have hmap : (s.ports.map f)[m] = f s.ports[m] := Vector.getElem_map f m.isLt
  rw [sameRx, hmap, hf]

theorem forEach_sameRx {α : Type} (n : PortN) (l : List α) (f : State → α → State) (s : State)
    (h : ∀ a x, sameRx n a (f a x)) : sameRx n s (forEach l f s) := by
  induction l generalizing s with
  | nil => exact sameRx_refl n s
  | cons x l ih => exact (h s x).seq (ih (f s x))

theorem addCredits_rxCur (b : Bool) (k : Nat) (p : Port) : (addCredits b k p).rxCur = p.rxCur := by
  unfold addCredits
  split <;> rfl

theorem closeEab_sameRx (s : State) (n m : PortN) (reason : Nat) (whole : Bool) :
    sameRx m s (closeEab s n reason whole) := by
  unfold closeEab
  split
  · exact sameRx_refl m s
  · dsimp only
    split <;> exact modPort_sameRx s n m _ fun p => addCredits_rxCur _ _ _

theorem closeSusp_sameRx (s : State) (m : PortN) (reason : Nat) (whole : Bool) : sameRx m s (closeSusp s reason whole) := by
  unfold closeSusp
  split
  · exact sameRx_refl m s
  · exact modPort_sameRx s 0 m _ fun p => addCredits_rxCur _ _ _

theorem stompCopies_sameRx (s : State) (m : PortN) (pid reason : Nat) (whole : Bool) :
    sameRx m s (stompCopies s pid reason whole) := by
  unfold stompCopies
  extract_lets b s0 s1 u s2
  have h1 : sameRx m s0 s1 := forEach_sameRx m _ _ _ fun a n => sameRx_ite _
    ((closeEab_sameRx a n m reason whole).seq (boundary_sameQueue _ n m).sameRx) (sameRx_refl m a)
  clear_value s1
  have h2 : sameRx m s1 s2 := mapPorts_sameRx s1 m fun p => { p with txq := p.txq.filter fun t => t.pid != pid }
  have h0 : sameRx m s s0 := sameRx_refl m s
  have hall : sameRx m s s2 := h0.seq (h1.seq h2)
  clear_value s2
  exact sameRx_ite _ (hall.seq ((closeSusp_sameRx s2 m reason whole).seq (boundary_sameQueue _ 0 m).sameRx)) hall

/-- Packet `pid` of port p has come to its end, or to its discarding. -/
def rxDropped (pid : Nat) (p : Port) : Port :=
  { p with
    rx := p.rx.map fun r => if r.pid = pid then { r with ended := true, dest := [] } else r
    rxCur := if p.rxCur = some pid then none else p.rxCur
    rxSusp := if p.rxSusp = some pid then none else p.rxSusp }

theorem sweepRx_rxCur (s : State) (n : PortN) : (sweepRx s).ports[n].rxCur = s.ports[n].rxCur :=
  (sweepRx_sameQueue s n).sameRx

theorem dropRx_eq (s : State) (n : PortN) (pid reason : Nat) (whole : Bool) :
    dropRx s n pid reason whole = sweepRx (modPort (stompCopies s pid reason whole) n (rxDropped pid)) := rfl

/-- A packet that is dropped is in reception no longer. -/
theorem dropRx_ends {s : State} {n : PortN} {pid : Nat} (reason : Nat) (whole : Bool)
    (h : s.ports[n].rxCur = some pid) : (dropRx s n pid reason whole).ports[n].rxCur = none := by
  have hstomp : (stompCopies s pid reason whole).ports[n].rxCur = some pid :=
    (stompCopies_sameRx s n pid reason whole).trans h
  have hdropped : (modPort (stompCopies s pid reason whole) n (rxDropped pid)).ports[n].rxCur = none := by
    rw [modPort_self]
    exact if_pos hstomp
  rw [dropRx_eq]
  exact (sweepRx_rxCur _ n).trans hdropped

theorem Passes.counts {ps : List Part} {s t : State} (h : Passes ps s t) (n : PortN) :
    t.ports[n].crcErr = s.ports[n].crcErr ∧ t.ports[n].floodDisc = s.ports[n].floodDisc :=
  ⟨(congrArg Port.crcErr (h.ports n) :), (congrArg Port.floodDisc (h.ports n) :)⟩

/-- What dropping a packet leaves of its port's counts. -/
theorem dropRx_counts (s : State) (n : PortN) (pid reason : Nat) (whole : Bool) :
    (dropRx s n pid reason whole).ports[n].crcErr = s.ports[n].crcErr ∧
      (dropRx s n pid reason whole).ports[n].floodDisc = s.ports[n].floodDisc := by
  exact (dropRx_passes s n pid reason whole).counts n

theorem portsBut_ite {n : PortN} (c : Prop) [Decidable c] {s t u : State} (ht : portsBut n s t) (hu : portsBut n s u) :
    portsBut n s (if c then t else u) := by
  split <;> assumption

theorem portsBut.seq {n : PortN} {s t u : State} (h : portsBut n s t) (k : portsBut n t u) : portsBut n s u :=
  fun m hm => (k m hm).trans (h m hm)

theorem returnCredits_others (s : State) (n : PortN) (b : Bool) (k : Nat) : portsBut n s (returnCredits s n b k) := by
  have hput := portsBut_modPort s n fun p => if b then { p with crdN := p.crdN + k } else { p with crdP := p.crdP + k }
  unfold returnCredits
  exact portsBut_ite _ (fun _ _ => rfl) (portsBut_ite _ (portsBut.seq hput (portsBut_modPort _ n _))
    (portsBut_ite _ (portsBut.seq hput (wakeTx_others _ n)) hput))

/-! ## The length of the packet that ends -/

theorem setRxLen_rule (s : State) (n : PortN) (pid words : Nat) :
    (setRxLen s n pid words).ports[n].rxCur = s.ports[n].rxCur ∧
      (setRxLen s n pid words).ports[n].crcErr = s.ports[n].crcErr ∧
      (setRxLen s n pid words).ports[n].floodDisc = s.ports[n].floodDisc ∧ only [.ports] s (setRxLen s n pid words) := by
  have hport := modPort_self s n fun p => { p with rx := p.rx.map fun x => if x.pid = pid then { x with len := words } else x }
  exact ⟨(congrArg Port.rxCur hport :), (congrArg Port.crcErr hport :), (congrArg Port.floodDisc hport :),
    modPort_only s n _⟩

/-- Any packet in reception is dropped with its length. -/
theorem dropped_rule {s : State} {n : PortN} {pid : Nat} (words reason : Nat) (h : s.ports[n].rxCur = some pid) :
    (dropRx (setRxLen s n pid words) n pid reason false).ports[n].rxCur = none ∧
      (dropRx (setRxLen s n pid words) n pid reason false).ports[n].crcErr = s.ports[n].crcErr ∧
      (dropRx (setRxLen s n pid words) n pid reason false).ports[n].floodDisc = s.ports[n].floodDisc ∧
      only [.ula, .ports, .tt, .out] s (dropRx (setRxLen s n pid words) n pid reason false) := by
  obtain ⟨hcur, hcrc, hflood, hparts⟩ := setRxLen_rule s n pid words
  obtain ⟨hcrc', hflood'⟩ := dropRx_counts (setRxLen s n pid words) n pid reason false
  exact ⟨dropRx_ends reason false (hcur.trans h), hcrc'.trans hcrc, hflood'.trans hflood,
    hparts.seq (dropRx_passes _ n pid reason false).parts⟩

/-! ## The rows -/

theorem exec_trailer {s : State} {n : PortN} {p : List Word} {t0 t1 : Option Word} (hl : linkOn s = true)
    (hf : s.ports[n].flooding = false) (hu : isUp s.ports[n] = true) :
    exec (.packetTrailerRx n p t0 t1) s = .next (trailerRx s n (endWords p t0 t1)) :=
  onLink_eq hl ((whenDo_holds hu).trans (if_neg (by simpa using hf)))

theorem exec_eab {s : State} {n : PortN} {reason : BitVec 8} {words : Word} {pcls : Bool} (hl : linkOn s = true)
    (hf : s.ports[n].flooding = false) (hu : isUp s.ports[n] = true) :
    exec (.eabRx n reason words pcls) s = .next (eabRx s n reason.toNat words.toNat pcls) :=
  onLink_eq hl ((whenDo_holds hu).trans (if_neg (by simpa using hf)))

theorem exec_trailerFlooded {s : State} {n : PortN} {p : List Word} {t0 t1 : Option Word} (hl : linkOn s = true)
    (hu : isUp s.ports[n] = true) (hf : s.ports[n].flooding = true) :
    exec (.packetTrailerRx n p t0 t1) s = .next
      (if s.ports[n].rxCur.isSome then floodClose s n ((endWords p t0 t1).length + 4) false
       else if (endWords p t0 t1).length < 4 then
        floodClose s n (endWords p t0 t1).length (bit (wAt (endWords p t0 t1) 0) 10) else s) :=
  onLink_eq hl ((whenDo_holds hu).trans (if_pos hf))

theorem exec_eabFlooded {s : State} {n : PortN} {reason : BitVec 8} {words : Word} {pcls : Bool} (hl : linkOn s = true)
    (hu : isUp s.ports[n] = true) (hf : s.ports[n].flooding = true) :
    exec (.eabRx n reason words pcls) s = .next (floodClose s n words.toNat pcls) :=
  onLink_eq hl ((whenDo_holds hu).trans (if_pos hf))

theorem floodClose_some {s : State} {n : PortN} {pid : Nat} (h : s.ports[n].rxCur = some pid) (words : Nat) (pcls : Bool) :
    floodClose s n words pcls = dropRx (setRxLen s n pid words) n pid 2 false := by
  unfold floodClose
  rw [h]

theorem floodClose_none {s : State} {n : PortN} (h : s.ports[n].rxCur = none) (words : Nat) (pcls : Bool) :
    floodClose s n words pcls = returnCredits (floodDrop s n) n (!pcls) (creditsOf words) := by
  unfold floodClose
  rw [h]

theorem floodDrop_rule (s : State) (n : PortN) :
    (floodDrop s n).ports[n] = { s.ports[n] with floodDisc := satInc 255 s.ports[n].floodDisc } ∧
      portsBut n s (floodDrop s n) ∧ only [.ports] s (floodDrop s n) :=
  ⟨modPort_self s n _, portsBut_modPort s n _, modPort_only s n _⟩

/-! ## A good end (R87, R160) -/

theorem finishCopies_passes (pid : Nat) (payload : List Word) (s : State) :
    Passes [.ports, .ula] s (finishCopies pid payload s) := by
  unfold finishCopies
  exact (mapPorts_passes s _).seq (setUla_passes _ _ fun h => by rw [h]; rfl)

theorem finishCopies_sameRx (pid : Nat) (payload : List Word) (s : State) (n : PortN) :
    sameRx n s (finishCopies pid payload s) := mapPorts_sameRx s n _

/-- The parts in which the flags of a crew show. -/
def flagParts : List Part := [.bb, .aon, .doms, .que, .tb, .out]

theorem flagCrew_passes (s : State) (k : CrewN) (f : Word) : Passes flagParts s (flagCrew s k f) := by
  unfold flagCrew
  exact ((passes_of_only (modCrew_frame s k _)).seq (raise_passes _ _) (rs := flagParts)).seq (bbLink_passes _ _ _ _ _)

theorem flagCrew_sameRx (s : State) (k : CrewN) (f : Word) (n : PortN) : sameRx n s (flagCrew s k f) := by
  have hports : (flagCrew s k f).ports = s.ports := (flagCrew_passes s k f).parts .ports (by decide)
  rw [sameRx, hports]

theorem judgeCue_passes (s : State) (out : Nat) (p : Pkt) (full : Bool) :
    Passes flagParts s (judgeCue s out p full).2 ∧ ∀ n, sameRx n s (judgeCue s out p full).2 := by
  unfold judgeCue
  split
  · exact ⟨Passes.refl _ s, fun n => sameRx_refl n s⟩
  · dsimp only
    split
    · exact ⟨Passes.refl _ s, fun n => sameRx_refl n s⟩
    · split <;> exact ⟨flagCrew_passes s _ _, flagCrew_sameRx s _ _⟩

/-- The parts in which a cue shows. -/
def cueParts : List Part := [.bb, .aon, .doms, .que, .tb, .ports, .out]

theorem settleCue_passes (s : State) (m : DnN) (pid : Nat) :
    Passes cueParts s (settleCue s m pid) ∧ ∀ n, sameRx n s (settleCue s m pid) := by
  unfold settleCue
  dsimp only
  split
  · exact ⟨Passes.refl _ s, fun n => sameRx_refl n s⟩
  · rename_i t _
    obtain ⟨hjudge, hrx⟩ := judgeCue_passes s (dnPort m).val t.pkt (decide (384 < heldWords s.ports[dnPort m] + t.len))
    split
    · exact ⟨hjudge.seq (modPort_passes _ _ _), fun n => (hrx n).seq (modPort_sameRx _ _ n _)⟩
    · exact ⟨hjudge.widen, hrx⟩
    · exact ⟨(hjudge.seq (modPort_passes _ _ _) (rs := cueParts)).seq (sweepRx_passes _), fun n =>
        ((hrx n).seq (modPort_sameRx _ _ n _)).seq (sweepRx_sameQueue _ n).sameRx⟩

/-- The cues of a packet from UP are judged at every port. -/
def cuesSettled (n : PortN) (pid : Nat) (s : State) : State :=
  if n = 0 then forEach dnAll (fun a m => settleCue a m pid) s else s

theorem cuesSettled_passes (n : PortN) (pid : Nat) (s : State) :
    Passes cueParts s (cuesSettled n pid s) ∧ ∀ k, sameRx k s (cuesSettled n pid s) :=
  ⟨passes_ite _ (forEach_passes dnAll _ s fun a m => (settleCue_passes a m pid).1) (Passes.refl _ s),
    fun k => sameRx_ite _ (forEach_sameRx k dnAll _ s fun a m => (settleCue_passes a m pid).2 k) (sameRx_refl k s)⟩

/-- The received packet r of port p has come to its end with `len` words. -/
def rxEnded (r : RxPkt) (len : Nat) (p : Port) : Port :=
  { p with
    rxCur := none
    rx := p.rx.map fun x => if x.pid = r.pid then { x with ended := true, len := len } else x }

/-- The state in which the deliveries of a packet with a good trailer are made. -/
def beforeDelivery (s : State) (n : PortN) (r : RxPkt) (payload : List Word) : State :=
  cuesSettled n r.pid (finishCopies r.pid payload (modPort s n (rxEnded r (payload.length + 6))))

theorem trailerGood_hub (s : State) (n : PortN) (r : RxPkt) (payload : List Word) (hd : r.dest = [.hub]) :
    trailerGood s n r payload =
      sweepRx (inboxPush (beforeDelivery s n r payload) n r .hub { hdr := r.hdr, payload := payload }) := by
  unfold trailerGood
  rw [hd]
  rfl

theorem beforeDelivery_rule (s : State) (n : PortN) (r : RxPkt) (payload : List Word) :
    (beforeDelivery s n r payload).ports[n].rxCur = none ∧
      (beforeDelivery s n r payload).ports[n].crcErr = s.ports[n].crcErr ∧
      only [.bb, .aon, .doms, .ula, .que, .tb, .ports, .out] s (beforeDelivery s n r payload) := by
  have hport := modPort_self s n (rxEnded r (payload.length + 6))
  have hfin := finishCopies_passes r.pid payload (modPort s n (rxEnded r (payload.length + 6)))
  obtain ⟨hcues, hrx⟩ := cuesSettled_passes n r.pid (finishCopies r.pid payload (modPort s n (rxEnded r (payload.length + 6))))
  have hstand := (hcues.ports n).trans (hfin.ports n)
  refine ⟨(hrx n).trans ((finishCopies_sameRx r.pid payload _ n).trans (congrArg Port.rxCur hport :)),
    (congrArg Port.crcErr hstand :).trans (congrArg Port.crcErr hport :), ?_⟩
  exact ((modPort_only s n _).seq hfin.parts (rs := [.bb, .aon, .doms, .ula, .que, .tb, .ports, .out])).seq hcues.parts

theorem trailerGood_hands (s : State) (n : PortN) (r : RxPkt) (payload : List Word) (hd : r.dest = [.hub]) :
    (∃ x ∈ (trailerGood s n r payload).bus.inbox, x.pid = r.pid ∧ x.dest = .hub ∧ x.port = n ∧ x.mc = r.mc ∧
      x.pkt = { hdr := r.hdr, payload := payload }) ∧
      (trailerGood s n r payload).ports[n].crcErr = s.ports[n].crcErr ∧
      (trailerGood s n r payload).ports[n].rxCur = none ∧
      only [.bb, .aon, .doms, .ula, .que, .ports, .bus, .tt, .tb, .out] s (trailerGood s n r payload) := by
  rw [trailerGood_hub s n r payload hd]
  obtain ⟨hcur, hcrc, hparts⟩ := beforeDelivery_rule s n r payload
  have hsweep := sweepRx_passes (inboxPush (beforeDelivery s n r payload) n r .hub { hdr := r.hdr, payload := payload })
  refine ⟨?_, (congrArg Port.crcErr (hsweep.ports n) :).trans hcrc, (sweepRx_rxCur _ n).trans hcur,
    (hparts.seq (bus_frame _ _) (rs := [.bb, .aon, .doms, .ula, .que, .ports, .bus, .tt, .tb, .out])).seq hsweep.parts⟩
  rw [hsweep.parts .bus (by decide)]
  exact ⟨_, List.mem_append_right _ (List.mem_singleton_self _), rfl, rfl, rfl, rfl, rfl⟩

/-! ## The clauses of O38 -/

theorem findRx_pid {p : Port} {pid : Nat} {r : RxPkt} (h : findRx p pid = some r) : r.pid = pid := by
  simpa using List.find?_some h

theorem trailerRx_some {s : State} {n : PortN} {pid : Nat} {r : RxPkt} (ws : List Word)
    (hc : s.ports[n].rxCur = some pid) (hr : findRx s.ports[n] pid = some r) (hb : r.bad = false) :
    trailerRx s n ws = if bodyOk r.hdr ws then
        trailerGood (setRxLen s n r.pid (ws.length + 4)) n r (ws.take (ws.length - 2))
      else dropRx (countCrc (setRxLen s n r.pid (ws.length + 4)) n) n r.pid 1 true := by
  unfold trailerRx
  rw [hc, Option.bind_some, hr]
  exact if_neg (by simp [hb])

theorem trailerRx_none {s : State} {n : PortN} (ws : List Word) (hc : s.ports[n].rxCur = none) (hw : ws.length < 4) :
    trailerRx s n ws = returnCredits (countCrc s n) n (!bit (wAt ws 0) 10) (creditsOf ws.length) := by
  unfold trailerRx
  rw [hc, Option.bind_none]
  exact if_pos hw

theorem countCrc_rule (s : State) (n : PortN) : (countCrc s n).ports[n].crcErr = satInc 255 s.ports[n].crcErr ∧
    (countCrc s n).ports[n].rxCur = s.ports[n].rxCur ∧ portsBut n s (countCrc s n) ∧ only [.ports] s (countCrc s n) := by
  have hport := modPort_self s n fun p => { p with crcErr := satInc 255 p.crcErr }
  exact ⟨(congrArg Port.crcErr hport :), (congrArg Port.rxCur hport :), portsBut_modPort s n _, modPort_only s n _⟩

theorem trailer_judged (n : PortN) (p : List Word) (t0 t1 : Option Word) (ws : List Word) (pid : Nat) (r : RxPkt) (s : State)
    (hl : linkOn s = true) (hf : s.ports[n].flooding = false) (hu : isUp s.ports[n] = true) (hw : ws = endWords p t0 t1)
    (hc : s.ports[n].rxCur = some pid) (hr : findRx s.ports[n] pid = some r) (hb : r.bad = false) :
    (bodyOk r.hdr ws = false →
      ∃ t, exec (.packetTrailerRx n p t0 t1) s = .next t ∧ t.ports[n].crcErr = satInc 255 s.ports[n].crcErr ∧
        t.ports[n].rxCur = none ∧ only [.ula, .ports, .tt, .out] s t) ∧
    (bodyOk r.hdr ws = true → r.dest = [.hub] →
      ∃ t, exec (.packetTrailerRx n p t0 t1) s = .next t ∧
        (∃ x ∈ t.bus.inbox, x.pid = r.pid ∧ x.dest = .hub ∧ x.port = n ∧ x.mc = r.mc ∧
          x.pkt = { hdr := r.hdr, payload := ws.take (ws.length - 2) }) ∧
        t.ports[n].crcErr = s.ports[n].crcErr ∧ t.ports[n].rxCur = none ∧
        only [.bb, .aon, .doms, .ula, .que, .ports, .bus, .tt, .tb, .out] s t) := by
  obtain ⟨hcur, hcrc, -, hparts⟩ := setRxLen_rule s n r.pid (ws.length + 4)
  have hrow := (exec_trailer (p := p) (t0 := t0) (t1 := t1) hl hf hu).trans
    (congrArg Host.Outcome.next (trailerRx_some (endWords p t0 t1) hc hr hb))
  rw [← hw] at hrow
  constructor
  · intro hbody
    obtain ⟨hcrc', hcur', -, hparts'⟩ := countCrc_rule (setRxLen s n r.pid (ws.length + 4)) n
    rw [if_neg (by simp [hbody])] at hrow
    refine ⟨_, hrow, ((dropRx_counts _ n r.pid 1 true).1.trans hcrc').trans (congrArg (satInc 255) hcrc),
      dropRx_ends 1 true (hcur'.trans (hcur.trans (hc.trans (congrArg some (findRx_pid hr).symm)))),
      (hparts.seq hparts' (rs := wayParts)).seq (dropRx_passes _ n r.pid 1 true).parts⟩
  · intro hbody hd
    obtain ⟨hin, hcrc', hcur', hparts'⟩ :=
      trailerGood_hands (setRxLen s n r.pid (ws.length + 4)) n r (ws.take (ws.length - 2)) hd
    rw [if_pos hbody] at hrow
    exact ⟨_, hrow, hin, hcrc'.trans hcrc, hcur', hparts.seq hparts'⟩

theorem trailer_short (n : PortN) (p : List Word) (t0 t1 : Option Word) (s : State) (hl : linkOn s = true)
    (hf : s.ports[n].flooding = false) (hu : isUp s.ports[n] = true) (hc : s.ports[n].rxCur = none)
    (hw : (endWords p t0 t1).length < 4) :
    ∃ t, exec (.packetTrailerRx n p t0 t1) s = .next t ∧ t.ports[n].crcErr = satInc 255 s.ports[n].crcErr ∧
      portsBut n s t ∧ only [.ports, .out] s t := by
  obtain ⟨hcrc, -, hbut, hparts⟩ := countCrc_rule s n
  have hback := returnCredits_passes (countCrc s n) n (!bit (wAt (endWords p t0 t1) 0) 10) (creditsOf (endWords p t0 t1).length)
  refine ⟨_, (exec_trailer hl hf hu).trans (congrArg Host.Outcome.next (trailerRx_none _ hc hw)),
    (congrArg Port.crcErr (hback.ports n) :).trans hcrc, fun k hk => ?_, hparts.seq hback.parts⟩
  exact (returnCredits_others _ n _ _ k hk).trans (hbut k hk)

theorem trailer_flooded (n : PortN) (p : List Word) (t0 t1 : Option Word) (ws : List Word) (s : State)
    (hl : linkOn s = true) (hu : isUp s.ports[n] = true) (hf : s.ports[n].flooding = true) (hw : ws = endWords p t0 t1) :
    (s.ports[n].rxCur = none → 4 ≤ ws.length → exec (.packetTrailerRx n p t0 t1) s = .next s) ∧
    (s.ports[n].rxCur = none → ws.length < 4 →
      ∃ t u, exec (.packetTrailerRx n p t0 t1) s = .next t ∧
        u.ports[n] = { s.ports[n] with floodDisc := satInc 255 s.ports[n].floodDisc } ∧ portsBut n s u ∧
        only [.ports] s u ∧ t = returnCredits u n (!bit (wAt ws 0) 10) (creditsOf ws.length)) ∧
    (∀ pid, s.ports[n].rxCur = some pid →
      ∃ t, exec (.packetTrailerRx n p t0 t1) s = .next t ∧ t.ports[n].rxCur = none ∧
        t.ports[n].floodDisc = s.ports[n].floodDisc ∧ t.ports[n].crcErr = s.ports[n].crcErr ∧
        only [.ula, .ports, .tt, .out] s t) := by
  have hrow := exec_trailerFlooded (p := p) (t0 := t0) (t1 := t1) hl hu hf
  rw [← hw] at hrow
  refine ⟨fun hc hlong => ?_, fun hc hshort => ?_, fun pid hc => ?_⟩
  · rwa [hc, if_neg (by decide), if_neg (by omega)] at hrow
  · obtain ⟨hport, hbut, hparts⟩ := floodDrop_rule s n
    rw [hc, if_neg (by decide), if_pos hshort, floodClose_none hc] at hrow
    exact ⟨_, floodDrop s n, hrow, hport, hbut, hparts, rfl⟩
  · obtain ⟨hcur, hcrc, hflood, hparts⟩ := dropped_rule (ws.length + 4) 2 hc
    rw [if_pos (by rw [hc]; rfl), floodClose_some hc] at hrow
    exact ⟨_, hrow, hcur, hflood, hcrc, hparts⟩

theorem eab_flooded (n : PortN) (reason : BitVec 8) (words : Word) (pcls : Bool) (s : State) (hl : linkOn s = true)
    (hu : isUp s.ports[n] = true) (hf : s.ports[n].flooding = true) :
    (s.ports[n].rxCur = none →
      ∃ t u, exec (.eabRx n reason words pcls) s = .next t ∧
        u.ports[n] = { s.ports[n] with floodDisc := satInc 255 s.ports[n].floodDisc } ∧ portsBut n s u ∧
        only [.ports] s u ∧ t = returnCredits u n (!pcls) (creditsOf words.toNat)) ∧
    (∀ pid, s.ports[n].rxCur = some pid →
      ∃ t, exec (.eabRx n reason words pcls) s = .next t ∧ t.ports[n].rxCur = none ∧
        t.ports[n].floodDisc = s.ports[n].floodDisc ∧ only [.ula, .ports, .tt, .out] s t) := by
  have hrow := exec_eabFlooded (reason := reason) (words := words) (pcls := pcls) hl hu hf
  constructor
  · intro hc
    obtain ⟨hport, hbut, hparts⟩ := floodDrop_rule s n
    rw [floodClose_none hc] at hrow
    exact ⟨_, floodDrop s n, hrow, hport, hbut, hparts, rfl⟩
  · intro pid hc
    obtain ⟨hcur, -, hflood, hparts⟩ := dropped_rule words.toNat 2 hc
    rw [floodClose_some hc] at hrow
    exact ⟨_, hrow, hcur, hflood, hparts⟩

theorem eab_ends (n : PortN) (reason : BitVec 8) (words : Word) (pcls : Bool) (pid : Nat) (s : State)
    (hl : linkOn s = true) (hf : s.ports[n].flooding = false) (hu : isUp s.ports[n] = true)
    (hc : s.ports[n].rxCur = some pid) :
    ∃ t, exec (.eabRx n reason words pcls) s = .next t ∧ t.ports[n].rxCur = none ∧
      t.ports[n].crcErr = s.ports[n].crcErr ∧ only [.ula, .ports, .tt, .out] s t := by
  obtain ⟨hcur, hcrc, -, hparts⟩ := dropped_rule words.toNat reason.toNat hc
  refine ⟨_, exec_eab hl hf hu, ?_⟩
  unfold eabRx
  rw [hc]
  exact ⟨hcur, hcrc, hparts⟩

/-- Settles O38: it holds. A packet that is dropped leaves its port's counts and is in reception no longer, since
ending its copies sends control words alone; a good one for the hub joins the inbox. -/
theorem packetEnds : Obligations.PacketEnds := by
  refine ⟨trailer_judged, trailer_short, trailer_flooded, eab_flooded, eab_ends,
    fun n reason words pcls s hl hf hu hc => ?_⟩
  rw [exec_eab hl hf hu, eabRx, hc]

end Sys2Proof.Machine
end

section
/-! PROOF. What starts on a port and what its end brings (O39). -/

namespace Sys2Proof.Machine

open Sys2Proof Sys2Proof.Safety

-- One proof after the other: side by side, the proofs of one text wait for each other in too many threads.
set_option Elab.async false


/-! ## The selector (R114) -/

theorem exec_selectorStart {s : State} {m : DnN} (hl : linkOn s = true) : exec (.selectorStart m) s =
    .next (whenDo (atBoundary s (dnPort m)) (fun s => match selectTx s s.ports[dnPort m] with
      | some t => startTx (dnPort m) t s
      | none => s) s) := onLink_eq hl rfl

/-- A packet whose end brings nothing leaves as it is. -/
theorem startTx_plain (s : State) (n : PortN) {x : TxPkt} (hx : x.act = .none) : startTx n x s =
    modPort s n fun p => takeCredits x { p with txq := p.txq.erase x, txCur := some x } := by
  have hturn : withTurn s x = x := by rw [withTurn, hx]
  have hnote : noteT1 s x = s := by rw [noteT1, hx]; exact if_neg (by decide)
  rw [startTx, hturn, hnote]

theorem selector_starts (m : DnN) (x : TxPkt) (s : State) (hl : linkOn s = true) (hb : atBoundary s (dnPort m) = true)
    (hsel : selectTx s s.ports[dnPort m] = some x) (hx : x.act = .none) :
    ∃ t, exec (.selectorStart m) s = .next t ∧
      t.ports[dnPort m] = takeCredits x
        { s.ports[dnPort m] with txq := s.ports[dnPort m].txq.erase x, txCur := some x } ∧
      portsBut (dnPort m) s t ∧ only [.ports] s t := by
  refine ⟨_, exec_selectorStart hl, ?_⟩
  rw [whenDo_holds hb]
  simp only [hsel, startTx_plain s (dnPort m) hx]
  exact ⟨modPort_self s (dnPort m) _, portsBut_modPort s (dnPort m) _, modPort_only s (dnPort m) _⟩

theorem selector_idle (m : DnN) (s : State) (hl : linkOn s = true)
    (h : atBoundary s (dnPort m) = false ∨ selectTx s s.ports[dnPort m] = none) : exec (.selectorStart m) s = .next s := by
  rw [exec_selectorStart hl]
  rcases h with h | h
  · rw [whenDo_fails h]
  · unfold whenDo
    simp only [h, ite_self]

/-! ## Records (R107) -/

theorem record_expires (m : DnN) (addr : Word) (endp : BitVec 5) (tag : BitVec 7) (s : State) (hl : linkOn s = true)
    (hr : (s.ports[dnPort m].recs.any (fun r => r.addr = addr && r.endp = endp && r.tag = tag)) = true) :
    ∃ t, exec (.recordExpiry m addr endp tag) s = .next t ∧
      t.ports[dnPort m] = { s.ports[dnPort m] with
        recs := s.ports[dnPort m].recs.filter fun r => !(r.addr = addr && r.endp = endp && r.tag = tag) } ∧
      t.tt = { s.tt with errRec := satInc 15 s.tt.errRec } ∧ portsBut (dnPort m) s t ∧ only [.ports, .tt] s t :=
  ⟨_, onLink_eq hl (whenDo_holds hr), modPort_self s (dnPort m) _, rfl, portsBut_modPort s (dnPort m) _,
    (modPort_only s (dnPort m) _).seq (tt_frame _ _)⟩

/-! ## The end of a packet (R119, R289) -/

/-- Packet x has left port n, whose transmitter is free. -/
def packetOut (s : State) (n : PortN) (x : TxPkt) : State :=
  emit (modPort s n fun p => { p with txCur := none }) (.pkt n x.pkt)

/-- UP holds no grant any more. -/
def freeUp (n : PortN) (s : State) : State :=
  if n = 0 then { s with ula := { s.ula with arb := { s.ula.arb with holder := none } } } else s

theorem eopSent_plain {s : State} {n : PortN} {x : TxPkt} (hc : s.ports[n].txCur = some x) (hd : x.done = true)
    (hf : x.fail = none) (ha : x.act = .none) : eopSent s n = boundary (sweepRx (freeUp n (packetOut s n x))) n := by
  have hgo : (!x.done || x.fail.isSome) = false := by rw [hd, hf]; rfl
  unfold eopSent
  simp only [hc, hgo, ha]
  rfl

theorem eopSent_free {s : State} {n : PortN} (hc : s.ports[n].txCur = none) : eopSent s n = s := by
  unfold eopSent
  rw [hc]

theorem packetOut_passes (s : State) (n : PortN) (x : TxPkt) : Passes [.ports, .out] s (packetOut s n x) :=
  (modPort_passes s n _).seq (emit_passes _ _)

theorem freeUp_passes (n : PortN) (s : State) : Passes [.ula] s (freeUp n s) :=
  passes_ite _ (setUla_passes s _ id) (Passes.refl _ s)

/-- The parts in which the end of a packet shows. -/
def eopParts : List Part := [.ula, .ports, .out]

theorem eopEnd_passes (n : PortN) (s : State) : Passes eopParts s (boundary (sweepRx (freeUp n s)) n) :=
  ((freeUp_passes n s).seq (sweepRx_passes _) (rs := eopParts)).seq (boundary_passes _ n)

/-- The packet goes out, its port is free, and only traffic passes besides. -/
theorem eopSent_rule {s : State} {n : PortN} {x : TxPkt} (hc : s.ports[n].txCur = some x) (hd : x.done = true)
    (hf : x.fail = none) (ha : x.act = .none) :
    .pkt n x.pkt ∈ (eopSent s n).out ∧ (eopSent s n).ports[n].txCur = none ∧ Passes eopParts s (eopSent s n) := by
  have hend := eopEnd_passes n (packetOut s n x)
  have hfree : (packetOut s n x).ports[n].txCur = none := (congrArg Port.txCur (modPort_self s n _) :)
  rw [eopSent_plain hc hd hf ha]
  exact ⟨hend.outs.subset List.mem_cons_self, (hend.frees n).free hfree, (packetOut_passes s n x).seq hend⟩

/-! ## A TS_TRIAL that came during the packet (R67) -/

theorem childLeave_stays {s : State} (h : s.ports[(0 : PortN)].st ≠ .paddle ∨ s.ports[(0 : PortN)].setRx = 0) :
    childLeave s = s := by
  unfold childLeave
  refine if_neg ?_
  rcases h with h | h <;> simp [h, -Fin.getElem_fin]

theorem childLeave_leaves {s : State} (hp : s.ports[(0 : PortN)].st = .paddle) (hk : s.ports[(0 : PortN)].setRx = 1)
    (hf : txFree s 0 = true) (hpll : s.clk.corePll = true) (hcfg : s.glob.cfgBusy = false) :
    childLeave s = modPort (linkDown s 0 10) 0 (followed s.ports[(0 : PortN)].tryRate 1) := by
  unfold childLeave childSwitch
  simp only [hp, hk, hf, hpll, hcfg]
  rfl

theorem exec_eopSent {s : State} {n : PortN} (hl : linkOn s = true) :
    exec (.eopSent n) s = .next (if n = 0 then childLeave (eopSent s n) else eopSent s n) := onLink_eq hl rfl

/-- No TS_TRIAL takes port n out of PADDLE. -/
def noTrial (s : State) (n : PortN) : Prop := n ≠ 0 ∨ s.ports[n].st ≠ .paddle ∨ s.ports[n].setRx = 0

theorem leave_none {s t : State} {n : PortN} (h : noTrial s n) (ht : standing t.ports[n] = standing s.ports[n]) :
    (if n = 0 then childLeave t else t) = t := by
  split
  · rename_i hn
    subst hn
    have hst : t.ports[(0 : PortN)].st = s.ports[(0 : PortN)].st := (congrArg Port.st ht :)
    have hset : t.ports[(0 : PortN)].setRx = s.ports[(0 : PortN)].setRx := (congrArg Port.setRx ht :)
    exact childLeave_stays (by rw [hst, hset]; exact h.resolve_left (not_not.mpr rfl))
  · rfl

theorem eop_goesOut (n : PortN) (x : TxPkt) (s : State) (hl : linkOn s = true) (hc : s.ports[n].txCur = some x)
    (hd : x.done = true) (hf : x.fail = none) (ha : x.act = .none) (hn : noTrial s n) :
    ∃ t, exec (.eopSent n) s = .next t ∧ .pkt n x.pkt ∈ t.out ∧ t.ports[n].txCur = none ∧
      only [.ula, .ports, .out] s t := by
  obtain ⟨hout, hfree, hpass⟩ := eopSent_rule hc hd hf ha
  refine ⟨_, exec_eopSent hl, ?_⟩
  rw [leave_none hn (hpass.ports n)]
  exact ⟨hout, hfree, hpass.parts⟩

theorem eop_leavesPaddle (x : TxPkt) (s : State) (hl : linkOn s = true) (hc : s.ports[(0 : PortN)].txCur = some x)
    (hd : x.done = true) (hf : x.fail = none) (ha : x.act = .none) (hp : s.ports[(0 : PortN)].st = .paddle)
    (hk : s.ports[(0 : PortN)].setRx = 1) (hs : s.ula.susp = none) (hpll : s.clk.corePll = true)
    (hcfg : s.glob.cfgBusy = false) :
    ∃ t, exec (.eopSent 0) s = .next t ∧ .pkt 0 x.pkt ∈ t.out ∧ t.ports[(0 : PortN)].txCur = none ∧
      t.ports[(0 : PortN)].st = .switch ∧ t.ports[(0 : PortN)].tryRate = s.ports[(0 : PortN)].tryRate ∧
      only [.bb, .pps, .aon, .doms, .ula, .que, .ports, .tt, .tb, .cen, .sur, .out] s t := by
  obtain ⟨hout, hfree, hpass⟩ := eopSent_rule hc hd hf ha
  have hport := hpass.ports 0
  have htx : txFree (eopSent s 0) 0 = true := by
    rw [txFree, hfree, hpass.susp hs]
    rfl
  have htry : (eopSent s 0).ports[(0 : PortN)].tryRate = s.ports[(0 : PortN)].tryRate := (congrArg Port.tryRate hport :)
  have hleave := childLeave_leaves ((congrArg Port.st hport :).trans hp) ((congrArg Port.setRx hport :).trans hk) htx
    ((congrArg Clk.corePll (hpass.parts .clk (by decide))).trans hpll)
    ((congrArg Glob.cfgBusy (hpass.parts .glob (by decide))).trans hcfg)
  have hturn := (linkDown_turns (eopSent s 0) 0 10).seq (modPort_turns _ 0
    (followed (eopSent s 0).ports[(0 : PortN)].tryRate 1) fun _ => ⟨id, id⟩) (rs := downParts)
  refine ⟨_, exec_eopSent hl, ?_⟩
  rw [if_pos rfl, hleave]
  refine ⟨hturn.self.outs.subset hout, hturn.self.frees.free hfree, (congrArg Port.st hturn.self.port :),
    (congrArg Port.tryRate hturn.self.port :).trans htry, hpass.parts.seq hturn.self.parts⟩

/-- Settles O39: it holds. Between the start and the end of a packet only its port's queue and credits change; what goes
out at its end frees the transmitter, and UP then follows a TS_TRIAL that waited. -/
theorem selectorsAndEnds : Obligations.SelectorsAndEnds := by
  refine ⟨selector_starts, selector_idle, record_expires, eop_goesOut, eop_leavesPaddle, fun n s hl hc hn => ?_⟩
  rw [exec_eopSent hl, eopSent_free hc, leave_none hn rfl]

end Sys2Proof.Machine
end

section
/-! PROOF. The proxy forwarder and the transaction translator (O40). -/

namespace Sys2Proof.Machine

open Sys2Proof Sys2Proof.Safety

-- One proof after the other: side by side, the proofs of one text wait for each other in too many threads.
set_option Elab.async false


/-! ## Answers handed to UP -/

/-- A packet of the part's own waits at its requester, while UP has a link. -/
theorem pushed_rule {u : State} (hu : isUp u.ports[(0 : PortN)] = true) {r : Nat} (hr : r < 28) (t : TxPkt) :
    (ulaPush u r t).bus = u.bus ∧ t ∈ vAt (ulaPush u r t).ula.reqs [] r ∧ only [.ula] u (ulaPush u r t) :=
  ⟨ulaPush_frame u r t .bus (by decide), ulaPush_queued hu hr t, ulaPush_frame u r t⟩

theorem ulaOf_lt (m : DnN) : ulaOf m < 28 := by
  unfold ulaOf
  omega

/-- Taking a packet from the inbox leaves ports, tables and address alone. -/
theorem takeInbox_leaves {s t : State} {f : Inbox → Bool} {x : Inbox} (h : takeInbox s f = some (x, t)) :
    t.ports = s.ports ∧ t.tt = s.tt ∧ t.bus.node = s.bus.node := by
  rw [takeInbox_some h]
  exact ⟨rfl, rfl, rfl⟩

/-! ## The proxy forwarder (R95) -/

/-- The header inside a PROXY. -/
def innerOf (p : Pkt) : Hdr := hdrOf (wAt p.payload 0) (wAt p.payload 1) (wAt p.payload 2) (wAt p.payload 3)

/-- The packet inside a PROXY, under header h. -/
def proxied (p : Pkt) (h : Hdr) : Pkt := { hdr := h, payload := p.payload.drop 4 }

theorem exec_proxyRx {s u : State} {x : Inbox} (hl : linkOn s = true)
    (h : takeInbox s (fun x => x.dest = .proxy) = some (x, u)) : exec .proxyRx s = .next (proxyRx u x.pid x.pkt) := by
  refine onLink_eq hl ?_
  rw [h]

theorem exec_proxyRx_none {s : State} (hl : linkOn s = true) (h : takeInbox s (fun x => x.dest = .proxy) = none) :
    exec .proxyRx s = .next s := by
  refine onLink_eq hl ?_
  rw [h]

theorem proxyRx_bad {u : State} {ord : Nat} {p : Pkt} (hb : proxyBad p = true) :
    proxyRx u ord p = ulaPush u 16 (ownTx (hshk p.hdr 0x03 []) .none) := if_pos hb

theorem proxyRx_named {u : State} {ord : Nat} {p : Pkt} {m : DnN} (hb : proxyBad p = false)
    (ht : p.hdr.tsb.toNat = m.val + 1) : proxyRx u ord p = proxyTo u m ord p.hdr (innerOf p) (p.payload.drop 4) := by
  unfold proxyRx
  simp only [hb, ht, Nat.add_sub_cancel, m.isLt, Bool.false_eq_true, if_false, dif_pos]
  rfl

theorem proxyTo_gone {u : State} {m : DnN} {ord : Nat} {outer inner : Hdr} {l : List Word}
    (hm : isUp u.ports[dnPort m] = false) :
    proxyTo u m ord outer inner l = ulaPush u (ulaOf m) (ownTx (goneOf outer u.bus.node (dnPort m)) .none) := by
  unfold proxyTo
  rw [hm]
  rfl

theorem proxyTo_full {u : State} {m : DnN} {ord : Nat} {outer inner : Hdr} {l : List Word}
    (hm : isUp u.ports[dnPort m] = true) (he : expectsAnswer inner = true) (hr : recRoom u.ports[dnPort m] inner = false) :
    proxyTo u m ord outer inner l = ulaPush (countRec u) (ulaOf m) (ownTx (hshk outer 0x02 []) .none) := by
  unfold proxyTo
  rw [hm, he, hr]
  rfl

theorem proxyTo_sends {u : State} {m : DnN} {ord : Nat} {outer inner : Hdr} {l : List Word}
    (hm : isUp u.ports[dnPort m] = true) (hr : expectsAnswer inner = true → recRoom u.ports[dnPort m] inner = true)
    (hh : hopFull outer = false) : proxyTo u m ord outer inner l = proxySend u m ord outer inner l := by
  have hroom : (expectsAnswer inner && !recRoom u.ports[dnPort m] inner) = false := by
    cases he : expectsAnswer inner
    · rfl
    · rw [hr he]
      rfl
  unfold proxyTo
  rw [hm, hroom, hh]
  rfl

theorem proxySend_recorded {u : State} {m : DnN} {ord : Nat} {outer inner : Hdr} {l : List Word}
    (he : expectsAnswer inner = true) : proxySend u m ord outer inner l = modPort u (dnPort m) fun p =>
      { p with
        recs := p.recs.filter (fun r => !recMatch inner r) ++ [proxyRec inner outer]
        txq := p.txq ++ [{ ownTx { hdr := { inner with hop := outer.hop + 1#10,
                                                       epoch := BitVec.ofNat 4 u.ports[dnPort m].epoch },
                                   payload := l } .none with ord := ord }] } := by
  unfold proxySend
  rw [if_pos he]
  exact modPort_modPort u (dnPort m) _ _

theorem proxySend_plain {u : State} {m : DnN} {ord : Nat} {outer inner : Hdr} {l : List Word}
    (he : expectsAnswer inner = false) : proxySend u m ord outer inner l =
      sendAt u m ord { hdr := { inner with hop := outer.hop + 1#10 }, payload := l } .none := by
  unfold proxySend
  exact if_neg (by simp [he])

theorem recRoom_full {p : Port} {h : Hdr} (hlen : p.recs.length = 64) (hno : ∀ r ∈ p.recs, recMatch h r = false) :
    recRoom p h = false := by
  have hany : p.recs.any (recMatch h) = false := List.any_eq_false.mpr fun r hr => by simp [hno r hr]
  rw [recRoom, hany, hlen]
  rfl

theorem recRoom_free {p : Port} {h : Hdr} (hlen : p.recs.length < 64) : recRoom p h = true := by
  simp [recRoom, hlen]

theorem proxy_stalls (x : Inbox) (u s : State) (hl : linkOn s = true)
    (h : takeInbox s (fun x => x.dest = .proxy) = some (x, u)) (hu : isUp s.ports[(0 : PortN)] = true)
    (hb : proxyBad x.pkt = true) :
    ∃ t, exec .proxyRx s = .next t ∧ t.bus = u.bus ∧
      ownTx (hshk x.pkt.hdr 0x03 []) .none ∈ vAt t.ula.reqs [] 16 ∧ only [.ula, .bus] s t := by
  have hrow := exec_proxyRx hl h
  have hframe := takeInbox_frame h
  obtain ⟨hports, htt, hnode⟩ := takeInbox_leaves h
  obtain ⟨hbus, hmem, hula⟩ := pushed_rule (u := u) (by rw [hports]; exact hu) (r := 16) (by omega)
    (ownTx (hshk x.pkt.hdr 0x03 []) .none)
  rw [proxyRx_bad hb] at hrow
  exact ⟨_, hrow, hbus, hmem, hframe.seq hula⟩

theorem proxy_gone (m : DnN) (x : Inbox) (u s : State) (hl : linkOn s = true)
    (h : takeInbox s (fun x => x.dest = .proxy) = some (x, u)) (hu : isUp s.ports[(0 : PortN)] = true)
    (hb : proxyBad x.pkt = false) (ht : x.pkt.hdr.tsb.toNat = m.val + 1) (hm : isUp s.ports[dnPort m] = false) :
    ∃ t, exec .proxyRx s = .next t ∧ t.bus = u.bus ∧
      ownTx (goneOf x.pkt.hdr s.bus.node (dnPort m)) .none ∈ vAt t.ula.reqs [] (ulaOf m) ∧
      only [.ula, .bus] s t := by
  have hrow := exec_proxyRx hl h
  have hframe := takeInbox_frame h
  obtain ⟨hports, htt, hnode⟩ := takeInbox_leaves h
  obtain ⟨hbus, hmem, hula⟩ := pushed_rule (u := u) (by rw [hports]; exact hu) (ulaOf_lt m)
    (ownTx (goneOf x.pkt.hdr s.bus.node (dnPort m)) .none)
  rw [proxyRx_named hb ht, proxyTo_gone (by rw [hports]; exact hm), hnode] at hrow
  exact ⟨_, hrow, hbus, hmem, hframe.seq hula⟩

section
variable {m : DnN} {x : Inbox} {u s : State} (hl : linkOn s = true)
  (h : takeInbox s (fun x => x.dest = .proxy) = some (x, u)) (hb : proxyBad x.pkt = false)
  (ht : x.pkt.hdr.tsb.toNat = m.val + 1) (hm : isUp s.ports[dnPort m] = true)
include hl h hb ht hm

theorem proxy_naks (he : expectsAnswer (innerOf x.pkt) = true) (hlen : s.ports[dnPort m].recs.length = 64)
    (hno : ∀ r ∈ s.ports[dnPort m].recs, recMatch (innerOf x.pkt) r = false) (hu : isUp s.ports[(0 : PortN)] = true) :
    ∃ t, exec .proxyRx s = .next t ∧ t.bus = u.bus ∧
      ownTx (hshk x.pkt.hdr 0x02 []) .none ∈ vAt t.ula.reqs [] (ulaOf m) ∧
      t.tt = { s.tt with errRec := satInc 15 s.tt.errRec } ∧ only [.ula, .bus, .tt] s t := by
  have hrow := exec_proxyRx hl h
  have hframe := takeInbox_frame h
  obtain ⟨hports, htt, hnode⟩ := takeInbox_leaves h
  obtain ⟨hbus, hmem, hula⟩ := pushed_rule (u := countRec u) (by rw [← hports] at hu; exact hu) (ulaOf_lt m)
    (ownTx (hshk x.pkt.hdr 0x02 []) .none)
  rw [proxyRx_named hb ht, proxyTo_full (by rw [hports]; exact hm) he (by rw [hports]; exact recRoom_full hlen hno)] at hrow
  exact ⟨_, hrow, hbus, hmem, (hula .tt (by decide)).trans (by rw [countRec, htt]),
    (hframe.seq (tt_frame _ _) (rs := [.ula, .bus, .tt])).seq hula⟩

theorem proxy_records (he : expectsAnswer (innerOf x.pkt) = true) (hlen : s.ports[dnPort m].recs.length < 64)
    (hh : hopFull x.pkt.hdr = false) :
    ∃ t, exec .proxyRx s = .next t ∧ t.bus = u.bus ∧
      t.ports[dnPort m] = { s.ports[dnPort m] with
        recs := s.ports[dnPort m].recs.filter (fun r => !recMatch (innerOf x.pkt) r) ++
          [proxyRec (innerOf x.pkt) x.pkt.hdr],
        txq := s.ports[dnPort m].txq ++ [{ ownTx (proxied x.pkt { innerOf x.pkt with
          hop := x.pkt.hdr.hop + 1#10, epoch := BitVec.ofNat 4 s.ports[dnPort m].epoch }) .none with ord := x.pid }] } ∧
      portsBut (dnPort m) s t ∧ only [.ports, .bus] s t := by
  have hrow := exec_proxyRx hl h
  have hframe := takeInbox_frame h
  obtain ⟨hports, htt, hnode⟩ := takeInbox_leaves h
  rw [proxyRx_named hb ht, proxyTo_sends (by rw [hports]; exact hm) (fun _ => by rw [hports]; exact recRoom_free hlen) hh, proxySend_recorded he] at hrow
  refine ⟨_, hrow, rfl, ?_, fun k hk => ?_, hframe.seq (modPort_only _ (dnPort m) _)⟩
  · rw [← hports]
    exact modPort_self u (dnPort m) _
  · rw [← hports]
    exact modPort_ne u (dnPort m) k _ hk

theorem proxy_sends (he : expectsAnswer (innerOf x.pkt) = false) (hh : hopFull x.pkt.hdr = false) :
    ∃ t, exec .proxyRx s = .next t ∧ t.bus = u.bus ∧
      t.ports[dnPort m] = { s.ports[dnPort m] with
        txq := s.ports[dnPort m].txq ++ [{ ownTx (proxied x.pkt { innerOf x.pkt with
          hop := x.pkt.hdr.hop + 1#10 }) .none with ord := x.pid }] } ∧
      portsBut (dnPort m) s t ∧ only [.ports, .bus] s t := by
  have hrow := exec_proxyRx hl h
  have hframe := takeInbox_frame h
  obtain ⟨hports, htt, hnode⟩ := takeInbox_leaves h
  rw [proxyRx_named hb ht, proxyTo_sends (by rw [hports]; exact hm) (fun hans => absurd (hans.symm.trans he) (by decide)) hh,
    proxySend_plain he] at hrow
  refine ⟨_, hrow, rfl, ?_, fun k hk => ?_, hframe.seq (modPort_only _ (dnPort m) _)⟩
  · rw [← hports]
    exact modPort_self u (dnPort m) _
  · rw [← hports]
    exact modPort_ne u (dnPort m) k _ hk

end

end Sys2Proof.Machine
end

section
/-! PROOF. The transaction translator, and the whole of O40. -/

namespace Sys2Proof.Machine

open Sys2Proof Sys2Proof.Safety

-- One proof after the other: side by side, the proofs of one text wait for each other in too many threads.
set_option Elab.async false


/-! ## Rows of the translator -/

theorem onTt_some {s u : State} {typ : BitVec 4} {act : State → DnN → Nat → Pkt → State} {x : Inbox} {m : DnN}
    (h : takeInbox s (forTt typ) = some (x, u)) (hm : ttPort x.dest = some m) : onTt typ act s = act u m x.pid x.pkt := by
  unfold onTt
  simp only [h, hm]

/-- Taking a packet from the inbox leaves what the translator judges by. -/
theorem takeInbox_judges {s u : State} {f : Inbox → Bool} {x : Inbox} (h : takeInbox s f = some (x, u)) (m : DnN)
    (p : Pkt) : splitMode u m = splitMode s m ∧ splitRefused u p.hdr = splitRefused s p.hdr ∧
      findSlot u m p.hdr = findSlot s m p.hdr ∧ roomFor u p.payload.length = roomFor s p.payload.length ∧
      newSlot u m p = newSlot s m p := by
  rw [takeInbox_some h]
  exact ⟨rfl, rfl, rfl, rfl, rfl⟩

theorem ssplitRx_late {u : State} {m : DnN} {ord : Nat} {p : Pkt} (hh : hopFull p.hdr = false)
    (hs : splitMode u m = false) (ht : innerType p.hdr ≠ 6) :
    ssplitRx u m ord p = ulaPush u (ulaOf m) (ownTx (goneOf p.hdr u.bus.node (dnPort m)) .none) := by
  unfold ssplitRx
  simp only [hh, hs, Bool.false_eq_true, if_false, Bool.not_false, if_true]
  exact if_neg ht

theorem ssplitRx_refused {u : State} {m : DnN} {ord : Nat} {p : Pkt} (hh : hopFull p.hdr = false)
    (hp : p.hdr.pcls = false) (hs : splitMode u m = true) (hr : splitRefused u p.hdr = true) :
    ssplitRx u m ord p = ulaPush u 18 (ownTx (hshk p.hdr 0x03 []) .none) := by
  unfold ssplitRx
  simp only [hh, hs, hr, hp, Bool.false_eq_true, if_false, Bool.not_true, if_true]
  rfl

/-- A non-periodic SSPLIT that is not refused holds no POUT. -/
theorem notPout {u : State} {h : Hdr} (hp : h.pcls = false) (hr : splitRefused u h = false) : innerType h ≠ 6 := by
  intro ht
  rw [splitRefused, hp, ht] at hr
  simp [typeClass] at hr

theorem innerHdr_noCue {h : Hdr} (ht : innerType h ≠ 6) : (innerHdr h).tsb = 0#8 := by
  simp [innerHdr, ht]

theorem cueBit_zero {h : Hdr} (ht : h.tsb = 0#8) : cueBit h = false := by
  simp [cueBit, ht]

theorem ssplitRx_taken {u : State} {m : DnN} {ord : Nat} {p : Pkt} (hh : hopFull p.hdr = false)
    (hp : p.hdr.pcls = false) (hs : splitMode u m = true) (hr : splitRefused u p.hdr = false) :
    ssplitRx u m ord p = splitN u m ord p := by
  have hgood : splitMalformed p = false := by
    rw [splitMalformed, cueBit_zero (innerHdr_noCue (notPout hp hr)), Bool.false_and]
  unfold ssplitRx
  simp only [hh, hs, hr, hp, hgood, Bool.false_eq_true, if_false, Bool.not_true]

theorem splitN_full {u : State} {m : DnN} {ord : Nat} {p : Pkt} (hf : findSlot u m p.hdr = none)
    (hr : roomFor u p.payload.length = none) : splitN u m ord p = ulaPush u 18 (ownTx (hshk p.hdr 0x02 []) .none) := by
  unfold splitN
  rw [hf]
  dsimp only
  rw [hr] <;> rfl

theorem splitN_new {u : State} {m : DnN} {ord : Nat} {p : Pkt} {j : Fin 48} (hf : findSlot u m p.hdr = none)
    (hr : roomFor u p.payload.length = some j) :
    splitN u m ord p = acceptSplit (ttSend u (ssplitUp p.hdr j) .none) m j ord p := by
  unfold splitN
  rw [hf]
  dsimp only
  rw [hr]

theorem queueInner_plain {a : State} {m : DnN} {j : Fin 48} {ord : Nat} {q : Pkt} (hc : cueBit q.hdr = false) :
    queueInner a m j ord q =
      modPort a (dnPort m) fun p => { p with txq := p.txq ++ [{ ownTx q (.innerSent j) with ord := ord }] } := by
  unfold queueInner
  exact if_pos (by simp [hc])

theorem innerPkt_noCue (u : State) (m : DnN) (p : Pkt) (ht : innerType p.hdr ≠ 6) : cueBit (innerPkt u m p).hdr = false := by
  refine cueBit_zero ?_
  unfold innerPkt
  dsimp only
  split <;> exact innerHdr_noCue ht

/-- An SSPLIT takes its slot, and its inner request waits at the port. -/
theorem acceptSplit_rule {a : State} {m : DnN} {j : Fin 48} {ord : Nat} {p : Pkt} (ht : innerType p.hdr ≠ 6) :
    (acceptSplit a m j ord p).tt.slots[j] = some (newSlot a m p) ∧ (acceptSplit a m j ord p).ula = a.ula ∧
      (acceptSplit a m j ord p).bus = a.bus ∧ only [.ports, .tt] a (acceptSplit a m j ord p) := by
  unfold acceptSplit
  rw [queueInner_plain (innerPkt_noCue _ m p ht)]
  exact ⟨modSlot_self a j _, rfl, rfl,
    ((modSlot_frame a j _).seq (tt_frame _ _) (rs := [.ports, .tt])).seq (modPort_only _ _ _)⟩

/-! ## SSPLIT (R118 to R121) -/

section
variable {m : DnN} {x : Inbox} {u s : State} (hl : linkOn s = true) (h : takeInbox s (forTt 9#4) = some (x, u))
  (hm : ttPort x.dest = some m)
include hl h hm

theorem exec_ssplitRx : exec .ssplitRx s = .next (ssplitRx u m x.pid x.pkt) := onLink_eq hl (onTt_some h hm)

/-- The SSPLIT is answered, and nothing else changes. -/
theorem ssplit_answers (hu : isUp s.ports[(0 : PortN)] = true) {r : Nat} (hr : r < 28) {q : Pkt}
    (hact : ssplitRx u m x.pid x.pkt = ulaPush u r (ownTx q .none)) :
    ∃ t, exec .ssplitRx s = .next t ∧ t.bus = u.bus ∧ ownTx q .none ∈ vAt t.ula.reqs [] r ∧ only [.ula, .bus] s t := by
  obtain ⟨hports, -, -⟩ := takeInbox_leaves h
  obtain ⟨hbus, hmem, hula⟩ := pushed_rule (u := u) (by rw [hports]; exact hu) hr (ownTx q .none)
  rw [exec_ssplitRx hl h hm, hact]
  exact ⟨_, rfl, hbus, hmem, (takeInbox_frame h).seq hula⟩

theorem ssplit_taken (hu : isUp s.ports[(0 : PortN)] = true) (hh : hopFull x.pkt.hdr = false)
    (hp : x.pkt.hdr.pcls = false) (hs : splitMode s m = true) (j : Fin 48) (hr : splitRefused s x.pkt.hdr = false)
    (hf : findSlot s m x.pkt.hdr = none) (hroom : roomFor s x.pkt.payload.length = some j) :
    ∃ t, exec .ssplitRx s = .next t ∧ t.bus = u.bus ∧ t.tt.slots[j] = some (newSlot s m x.pkt) ∧
      ownTx (ssplitUp x.pkt.hdr j) .none ∈ vAt t.ula.reqs [] 18 ∧ only [.ula, .ports, .bus, .tt] s t := by
  obtain ⟨hports, -, -⟩ := takeInbox_leaves h
  obtain ⟨hs', hr', hf', hroom', hnew⟩ := takeInbox_judges h m x.pkt
  obtain ⟨hbus, hmem, hula⟩ := pushed_rule (u := u) (by rw [hports]; exact hu) (r := 18) (by omega)
    (ownTx (ssplitUp x.pkt.hdr j) .none)
  obtain ⟨hslot, hkept, hbus', hparts⟩ := acceptSplit_rule (a := ulaPush u 18 (ownTx (ssplitUp x.pkt.hdr j) .none)) (m := m)
    (j := j) (ord := x.pid) (notPout hp hr)
  have hsame : newSlot (ulaPush u 18 (ownTx (ssplitUp x.pkt.hdr j) .none)) m x.pkt = newSlot u m x.pkt := by
    unfold newSlot
    rw [hula .tt (by decide)]
  rw [exec_ssplitRx hl h hm, ssplitRx_taken hh hp (hs'.trans hs) (hr'.trans hr), splitN_new (hf'.trans hf) (hroom'.trans hroom)]
  refine ⟨_, rfl, hbus'.trans hbus, hslot.trans (congrArg some (hsame.trans hnew)), ?_,
    ((takeInbox_frame h).seq hula (rs := [.ula, .ports, .bus, .tt])).seq hparts⟩
  rw [ttSend, hkept]
  exact hmem

end

/-- An SSPLIT that is not periodic. -/
theorem ssplit_acts (m : DnN) (x : Inbox) (u s : State) (hl : linkOn s = true) (h : takeInbox s (forTt 9#4) = some (x, u))
    (hm : ttPort x.dest = some m) (hu : isUp s.ports[(0 : PortN)] = true) (hh : hopFull x.pkt.hdr = false)
    (hp : x.pkt.hdr.pcls = false) :
    (splitMode s m = false → innerType x.pkt.hdr ≠ 6 →
      ∃ t, exec .ssplitRx s = .next t ∧ t.bus = u.bus ∧
        ownTx (goneOf x.pkt.hdr s.bus.node (dnPort m)) .none ∈ vAt t.ula.reqs [] (ulaOf m) ∧
        only [.ula, .bus] s t) ∧
    (splitMode s m = true →
    (splitRefused s x.pkt.hdr = true →
      ∃ t, exec .ssplitRx s = .next t ∧ t.bus = u.bus ∧
        ownTx (hshk x.pkt.hdr 0x03 []) .none ∈ vAt t.ula.reqs [] 18 ∧ only [.ula, .bus] s t) ∧
    (∀ j, splitRefused s x.pkt.hdr = false → findSlot s m x.pkt.hdr = none →
      roomFor s x.pkt.payload.length = some j →
      ∃ t, exec .ssplitRx s = .next t ∧ t.bus = u.bus ∧ t.tt.slots[j] = some (newSlot s m x.pkt) ∧
        ownTx (ssplitUp x.pkt.hdr j) .none ∈ vAt t.ula.reqs [] 18 ∧ only [.ula, .ports, .bus, .tt] s t) ∧
    (splitRefused s x.pkt.hdr = false → findSlot s m x.pkt.hdr = none → roomFor s x.pkt.payload.length = none →
      ∃ t, exec .ssplitRx s = .next t ∧ t.bus = u.bus ∧
        ownTx (hshk x.pkt.hdr 0x02 []) .none ∈ vAt t.ula.reqs [] 18 ∧ only [.ula, .bus] s t)) := by
  obtain ⟨-, -, hnode⟩ := takeInbox_leaves h
  obtain ⟨hs', hr', hf', hroom', -⟩ := takeInbox_judges h m x.pkt
  refine ⟨fun hs ht => ?_, fun hs => ⟨fun hr => ?_, fun j hr hf hroom => ?_, fun hr hf hroom => ?_⟩⟩
  · rw [← hnode]
    exact ssplit_answers hl h hm hu (ulaOf_lt m) (ssplitRx_late hh (hs'.trans hs) ht)
  · exact ssplit_answers hl h hm hu (by omega) (ssplitRx_refused hh hp (hs'.trans hs) (hr'.trans hr))
  · exact ssplit_taken hl h hm hu hh hp hs j hr hf hroom
  · exact ssplit_answers hl h hm hu (by omega) ((ssplitRx_taken hh hp (hs'.trans hs) (hr'.trans hr)).trans
      (splitN_full (hf'.trans hf) (hroom'.trans hroom)))

/-! ## Slots that are freed (R119, R121) -/

theorem freeSlot_rule (s : State) (j : Fin 48) :
    (freeSlot s j).tt.slots[j] = none ∧ (freeSlot s j).bus = s.bus ∧ only wayParts s (freeSlot s j) := by
  have hsweep := (sweepRx_passes (slotFreed s j)).parts
  have hfreed := (freeSlot_passes s j).parts
  have hslot : (freeSlot s j).tt = (slotFreed s j).tt := hsweep .tt (by decide)
  have hall : only wayParts s (freeSlot s j) := hfreed.seq hsweep
  refine ⟨?_, hall .bus (by decide), hall⟩
  rw [hslot, slotFreed_slots]
  exact modSlot_self s j _

theorem vAt_map {α β : Type} {k : Nat} (v : Vector α k) (f : α → β) (d : α) (e : β) {i : Nat} (h : i < k) :
    vAt (v.map f) e i = f (vAt v d i) := by
  rw [vAt, vAt, dif_pos h, dif_pos h, Vector.getElem_map]

/-- A packet whose end brings nothing keeps its place when a slot is freed. -/
theorem freeSlot_keeps {s : State} {j : Fin 48} {r : Nat} (hr : r < 28) {q : Pkt}
    (h : ownTx q .none ∈ vAt s.ula.reqs [] r) : ownTx q .none ∈ vAt (freeSlot s j).ula.reqs [] r := by
  have hula : (freeSlot s j).ula = (slotFreed s j).ula := (sweepRx_passes (slotFreed s j)).parts .ula (by decide)
  have hmap : (slotFreed s j).ula.reqs = s.ula.reqs.map fun l => l.map (detachSlot j (heldChunks s j)) := rfl
  rw [hula, hmap, vAt_map _ _ [] [] hr]
  exact List.mem_map.mpr ⟨_, h, rfl⟩

/-! ## CSPLIT (R121) -/

section
variable {m : DnN} {x : Inbox} {u s : State} (hl : linkOn s = true) (h : takeInbox s (forTt 10#4) = some (x, u))
  (hm : ttPort x.dest = some m)
include hl h hm

theorem exec_csplitRx : exec .csplitRx s = .next (csplitRx u m x.pkt) := onLink_eq hl (onTt_some h hm)

/-- The CSPLIT is answered, and nothing else changes. -/
theorem csplit_answers (hu : isUp s.ports[(0 : PortN)] = true) {q : Pkt} {a : OnEop}
    (hact : csplitRx u m x.pkt = ulaPush u 18 (ownTx q a)) :
    ∃ t, exec .csplitRx s = .next t ∧ t.bus = u.bus ∧ ownTx q a ∈ vAt t.ula.reqs [] 18 ∧ only [.ula, .bus] s t := by
  obtain ⟨hports, -, -⟩ := takeInbox_leaves h
  obtain ⟨hbus, hmem, hula⟩ := pushed_rule (u := u) (by rw [hports]; exact hu) (r := 18) (by omega) (ownTx q a)
  rw [exec_csplitRx hl h hm, hact]
  exact ⟨_, rfl, hbus, hmem, (takeInbox_frame h).seq hula⟩

end

theorem csplitRx_none {u : State} {m : DnN} {p : Pkt} (hf : findSlot u m p.hdr = none) :
    csplitRx u m p = ulaPush u 18 (ownTx (hshk p.hdr 0x03 []) .none) := by
  unfold csplitRx
  rw [hf] <;> rfl

theorem csplitRx_slot {u : State} {m : DnN} {p : Pkt} {j : Fin 48} {y : Slot} (hf : findSlot u m p.hdr = some j)
    (hy : u.tt.slots[j] = some y) (ht : y.ityp.toNat = innerType p.hdr) (hp : y.pcls = p.hdr.pcls) :
    csplitRx u m p = csplitSlot u j y p.hdr := by
  unfold csplitRx
  rw [hf]
  dsimp only
  rw [hy]
  exact if_neg (by simp [ht, hp])

theorem csplitSlot_stored {u : State} {j : Fin 48} {y : Slot} {h : Hdr} {a : Pkt} (hs : y.st = .stored)
    (ha : y.ans = some a) : csplitSlot u j y h = ulaPush u 18 (ownTx (csplitUp h a) (.answerSent j)) := by
  unfold csplitSlot
  rw [hs, ha] <;> rfl

theorem csplitSlot_failed {u : State} {j : Fin 48} {y : Slot} {h : Hdr} (hs : y.st = .failed) :
    csplitSlot u j y h = freeSlot (ulaPush u 18 (ownTx (hshk h 0x02 []) .none)) j := by
  unfold csplitSlot
  rw [hs] <;> rfl

theorem csplit_acts (m : DnN) (x : Inbox) (u s : State) (hl : linkOn s = true) (h : takeInbox s (forTt 10#4) = some (x, u))
    (hm : ttPort x.dest = some m) (hu : isUp s.ports[(0 : PortN)] = true) :
    (findSlot s m x.pkt.hdr = none →
      ∃ t, exec .csplitRx s = .next t ∧ t.bus = u.bus ∧
        ownTx (hshk x.pkt.hdr 0x03 []) .none ∈ vAt t.ula.reqs [] 18 ∧ only [.ula, .bus] s t) ∧
    (∀ j y a, findSlot s m x.pkt.hdr = some j → s.tt.slots[j] = some y →
      y.ityp.toNat = innerType x.pkt.hdr → y.pcls = x.pkt.hdr.pcls → y.st = .stored → y.ans = some a →
      ∃ t, exec .csplitRx s = .next t ∧ t.bus = u.bus ∧
        ownTx (csplitUp x.pkt.hdr a) (.answerSent j) ∈ vAt t.ula.reqs [] 18 ∧ only [.ula, .bus] s t) ∧
    (∀ j y, findSlot s m x.pkt.hdr = some j → s.tt.slots[j] = some y →
      y.ityp.toNat = innerType x.pkt.hdr → y.pcls = x.pkt.hdr.pcls → y.st = .failed →
      ∃ t, exec .csplitRx s = .next t ∧ t.bus = u.bus ∧ t.tt.slots[j] = none ∧
        ownTx (hshk x.pkt.hdr 0x02 []) .none ∈ vAt t.ula.reqs [] 18 ∧
        only [.ula, .ports, .bus, .tt, .out] s t) := by
  obtain ⟨hports, htt, -⟩ := takeInbox_leaves h
  obtain ⟨-, -, hf', -, -⟩ := takeInbox_judges h m x.pkt
  refine ⟨fun hf => csplit_answers hl h hm hu (csplitRx_none (hf'.trans hf)), fun j y a hf hy ht hp hs ha => ?_,
    fun j y hf hy ht hp hs => ?_⟩
  · exact csplit_answers hl h hm hu ((csplitRx_slot (hf'.trans hf) (by rw [htt]; exact hy) ht hp).trans
      (csplitSlot_stored hs ha))
  · have hrow := exec_csplitRx hl h hm
    rw [csplitRx_slot (hf'.trans hf) (by rw [htt]; exact hy) ht hp, csplitSlot_failed hs] at hrow
    obtain ⟨hbus, hmem, hula⟩ := pushed_rule (u := u) (by rw [hports]; exact hu) (r := 18) (by omega)
      (ownTx (hshk x.pkt.hdr 0x02 []) .none)
    obtain ⟨hslot, hbus', hparts⟩ := freeSlot_rule (ulaPush u 18 (ownTx (hshk x.pkt.hdr 0x02 []) .none)) j
    exact ⟨_, hrow, hbus'.trans hbus, hslot, freeSlot_keeps (by omega) hmem,
      ((takeInbox_frame h).seq hula (rs := [.ula, .ports, .bus, .tt, .out])).seq hparts⟩

/-! ## Chunks (R119) -/

theorem storeAnswer_ansCh (x : Slot) : (storeAnswer x).ansCh = x.ansCh := by
  unfold storeAnswer
  split
  · split <;> rfl
  · rfl

theorem chunkStep_grants {s : State} {j : Fin 48} (hw : chunkWinner s = some j) (hc : chunksUsed s < 48) :
    (chunkStep s).tt.slots[j].map (·.ansCh) = s.tt.slots[j].map (fun x => x.ansCh + 1) := by
  have hstep : chunkStep s = sweepRx (noteHwm (modSlot s j fun o => o.map fun x =>
      storeAnswer { x with ansCh := x.ansCh + 1 })) := by
    unfold chunkStep
    rw [if_neg (by omega), hw]
  have htt := (sweepRx_passes (noteHwm (modSlot s j fun o => o.map fun x =>
    storeAnswer { x with ansCh := x.ansCh + 1 }))).parts .tt (by decide)
  have hslot := modSlot_self s j fun o => o.map fun x => storeAnswer { x with ansCh := x.ansCh + 1 }
  rw [hstep, htt]
  refine (congrArg (Option.map (·.ansCh)) hslot).trans ?_
  rw [Option.map_map]
  exact congrArg (Option.map · _) (funext fun x => storeAnswer_ansCh _)

theorem chunkStep_waits {s : State} (h : 48 ≤ chunksUsed s ∨ chunkWinner s = none) : chunkStep s = s := by
  unfold chunkStep
  rcases h with h | h
  · exact if_pos h
  · rw [h]
    exact ite_self s

/-! ## The ages of slots (R122, R123) -/

theorem onSlot_acts {s : State} {j : Fin 48} {x : Slot} {f : Slot → Bool} {act : State → State}
    (hx : s.tt.slots[j] = some x) (hf : f x = true) : onSlot s j f act = act s :=
  whenDo_holds (by rw [hx]; exact hf)

theorem onSlot_empty {s : State} {j : Fin 48} {f : Slot → Bool} {act : State → State} (hx : s.tt.slots[j] = none) :
    onSlot s j f act = s :=
  whenDo_fails (by rw [hx]; rfl)

/-- A slot whose answer has not come in time. -/
def failed1 (x : Slot) : Slot := { x with st := .failed, ansCh := 0, ans := none, rx := none, wants := none }

theorem failSlot_rule {s : State} {j : Fin 48} {x : Slot} (hx : s.tt.slots[j] = some x) :
    (failSlot s j).tt.slots[j].map (·.st) = some .failed ∧ (failSlot s j).tt.errTmo = satInc 15 s.tt.errTmo ∧
      only [.ports, .tt, .out] s (failSlot s j) := by
  have hslot : (modSlot (dropAnswer s j) j fun o => o.map failed1).tt.slots[j] = some (failed1 x) :=
    (modSlot_self (dropAnswer s j) j _).trans (congrArg (Option.map failed1) hx)
  have hsweep := fun a : State => (sweepRx_passes a).parts
  have hparts : only [.ports, .tt, .out] s (failSlot s j) :=
    (((dropAnswer_passes s j).parts.seq (modSlot_frame _ j fun o => o.map failed1) (rs := [.ports, .tt, .out])).seq
      (tt_frame _ _) (rs := [.ports, .tt, .out])).seq (hsweep _)
  refine ⟨?_, ?_, hparts⟩
  · unfold failSlot
    rw [hsweep _ .tt (by decide)]
    exact congrArg (Option.map (·.st)) hslot
  · unfold failSlot
    rw [hsweep _ .tt (by decide)]
    rfl

theorem slots_age (j : Fin 48) (x : Slot) (s : State) (hl : linkOn s = true) (hx : s.tt.slots[j] = some x) :
    (x.pcls = false → unanswered x = true → x.tmo ≤ x.strokes →
      ∃ t, exec (.ttSlotTimeout j) s = .next t ∧ t.tt.slots[j].map (·.st) = some .failed ∧
        t.tt.errTmo = satInc 15 s.tt.errTmo ∧ only [.ports, .tt, .out] s t) ∧
    (x.pcls = false → x.st ≠ .waiting → 2 * x.tmo ≤ x.strokes →
      ∃ t, exec (.ttSlotExpire j) s = .next t ∧ t.tt.slots[j] = none ∧ only [.ula, .ports, .tt, .out] s t) ∧
    (x.pcls = true → 2 ≤ x.strokes →
      ∃ t, exec (.periodicSlotExpire j) s = .next t ∧ t.tt.slots[j] = none ∧
        only [.ula, .ports, .tt, .out] s t) := by
  obtain ⟨hfreed, -, hparts⟩ := freeSlot_rule s j
  refine ⟨fun hp hu ht => ?_, fun hp hs ht => ?_, fun hp ht => ?_⟩
  · exact ⟨_, onLink_eq hl (onSlot_acts hx (by simp [hp, hu, ht])), failSlot_rule hx⟩
  · exact ⟨_, onLink_eq hl (onSlot_acts hx (by simp [hp, hs, ht])), hfreed, hparts⟩
  · exact ⟨_, onLink_eq hl (onSlot_acts hx (by simp [hp, ht])), hfreed, hparts⟩

/-! ## TT_CTRL (R119) -/

theorem ttCtrl_clears (p : Path) (s : State) (h : reaches s p = true) :
    ∃ t, exec (.ttCntClr p) s = .next t ∧
      t.tt = { s.tt with errTmo := 0, errPdrop := 0, errNosplit := 0, errRec := 0,
                         hwmS := slotsUsed s.tt, hwmC := chunksUsed s } ∧ only [.tt] s t := by
  have hrow : exec (.ttCntClr p) s = .next (ttWrite s (atBit s.tt.en 0 ||| 0x0002#16) .ttCtrl) :=
    regRow_reaches s p 0x3600 _ .ttCtrl h rfl (by decide) (by decide)
  have hen : bit (atBit s.tt.en 0 ||| 0x0002#16) 0 = s.tt.en := by cases s.tt.en <;> decide
  have hclr : bit (atBit s.tt.en 0 ||| 0x0002#16) 1 = true := by cases s.tt.en <;> decide
  have hact : ttWrite s (atBit s.tt.en 0 ||| 0x0002#16) .ttCtrl = ttCntClr s := by
    unfold ttWrite
    rw [if_pos hclr, hen]
  rw [hact] at hrow
  exact ⟨_, hrow, rfl, tt_frame s _⟩

/-- Settles O40: it holds. Taking the packet from the inbox leaves all that the forwarder and the translator judge by;
each answer waits at its requester, and freeing a slot keeps the answers whose end brings nothing. -/
theorem proxyAndSplits : Obligations.ProxyAndSplits := by
  refine ⟨proxy_stalls, proxy_gone, fun m x u s hl h hb ht hm => ⟨proxy_naks hl h hb ht hm, proxy_records hl h hb ht hm,
    proxy_sends hl h hb ht hm⟩, fun s hl h => exec_proxyRx_none hl h, ssplit_acts, csplit_acts,
    fun j s hl hw hc => ⟨_, onLink_eq hl rfl, chunkStep_grants hw hc, only_mono _ _ _ _ (chunkStep_frame s) (by decide)⟩,
    fun s hl h => onLink_eq hl (chunkStep_waits h), slots_age,
    fun j s hl hx => ⟨onLink_eq hl (onSlot_empty hx), onLink_eq hl (onSlot_empty hx), onLink_eq hl (onSlot_empty hx)⟩,
    ttCtrl_clears⟩

end Sys2Proof.Machine
end

section
/-! PROOF. Census heats (O41). -/

namespace Sys2Proof.Machine

open Sys2Proof Sys2Proof.Safety

-- One proof after the other: side by side, the proofs of one text wait for each other in too many threads.
set_option Elab.async false


/-! ## Packets of the engines (R128, R132) -/

theorem engineUp_assigned {s : State} (h : s.bus.node ≠ 0xFFFE#16) (p : Pkt) (act : OnEop) :
    engineUp s p act = ulaPush s 17 (ownTx p act) := if_pos (by simp [assigned, h])

/-- A hub with an address and a link hands its packet to UP, and nothing else changes. -/
theorem engineUp_sends {s : State} (h : s.bus.node ≠ 0xFFFE#16) (hu : isUp s.ports[(0 : PortN)] = true) (p : Pkt)
    (act : OnEop) : engineSent (engineUp s p act) p act ∧ only [.ula] s (engineUp s p act) := by
  rw [engineUp_assigned h]
  exact ⟨ulaPush_queued hu (by omega) _, ulaPush_frame s 17 _⟩

theorem engineSent_of_ula {s t : State} {p : Pkt} {act : OnEop} (h : engineSent s p act) (ht : t.ula = s.ula) :
    engineSent t p act := by
  rw [engineSent, ht]
  exact h

/-- A report is handed over, and its event raised. -/
theorem sendReport_rule {s : State} (hn : s.bus.node ≠ 0xFFFE#16) (hu : isUp s.ports[(0 : PortN)] = true) (h : Word)
    (k : Nat) (ws : List Word) :
    engineSent (sendReport s h k ws) { hdr := engineHdr 12#4 s.bus.node 0x02, payload := ws } .reportSent ∧
      only [.ula, .doms, .que, .aon, .out] s (sendReport s h k ws) := by
  obtain ⟨hsent, hframe⟩ := engineUp_sends hn hu { hdr := engineHdr 12#4 s.bus.node 0x02, payload := ws } .reportSent
  have hraise := raise_only (engineUp s { hdr := engineHdr 12#4 s.bus.node 0x02, payload := ws } .reportSent)
    { code := 0x14, src := 0, w1 := h, w2 := w16 k }
  exact ⟨engineSent_of_ula hsent (hraise .ula (by decide)), hframe.seq hraise⟩

/-! ## The state that a report is built in (R130) -/

theorem dropReport_passes (s : State) : Passes [.ports, .ula] s (dropReport s) := by
  unfold dropReport
  exact (mapPorts_passes s fun p => { p with txCur := p.txCur.map notReport }).seq
    (setUla_passes _ _ fun h => by rw [h]; rfl)

/-- The state in which a new report is built: an unsent report is gone, a sent one is delivered. -/
def reportBase (s : State) : State :=
  { dropReport s with cen := if s.cen.sent then deliverViews s.cen else s.cen }

/-- The census with a report of entries es for heat h. -/
def withReport (c : Cen) (h : Word) (ws : List Word) (go : Bool) (es : List (DnN × View × Nat)) : Cen :=
  { c with lastHeat := some h, report := ws, handed := go, sent := false, entries := es }

/-- A state with that report. -/
def reported (b : State) (h : Word) (ws : List Word) (go : Bool) (es : List (DnN × View × Nat)) : State :=
  { b with cen := withReport b.cen h ws go es }

theorem newReport_eq (s : State) (h : Word) (mode : Nat) {es : List (DnN × View × Nat)} {ws : List Word} {go : Bool}
    (hes : entriesOf (reportBase s) mode = es) (hws : reportWords (reportBase s) h mode es = ws)
    (hgo : (!es.isEmpty || mode != 0) = go) : newReport s h mode =
      if go then sendReport (reported (reportBase s) h ws go es) h es.length ws
      else reported (reportBase s) h ws go es := by
  subst hes hws hgo
  rfl

theorem reportBase_parts (s : State) : only [.ula, .ports, .cen] s (reportBase s) :=
  (dropReport_passes s).parts.seq (cen_frame (dropReport s) _)

theorem reportBase_ports (s : State) (n : PortN) : standing (reportBase s).ports[n] = standing s.ports[n] :=
  (dropReport_passes s).ports n

/-! ## What a report says (R131) -/

/-- Two states in which a report says the same. -/
structure TellsSame (s t : State) : Prop where
  cen : t.cen = s.cen
  ports : ∀ n : PortN, standing t.ports[n] = standing s.ports[n]
  en : t.ln.en = s.ln.en
  pll : t.clk.corePll = s.clk.corePll

theorem isUp_of_standing {p q : Port} (h : standing q = standing p) : isUp q = isUp p := by
  have hst : q.st = p.st := (congrArg Port.st h :)
  rw [isUp, isUp, hst]

theorem entryKind_same {s t : State} (h : TellsSame s t) (mode : Nat) (m : DnN) : entryKind t mode m = entryKind s mode m := by
  have hp := h.ports (dnPort m)
  have hr : t.ports[dnPort m].rate = s.ports[dnPort m].rate := (congrArg Port.rate hp :)
  have h0 : t.ports[dnPort m].pcap0 = s.ports[dnPort m].pcap0 := (congrArg Port.pcap0 hp :)
  have h1 : t.ports[dnPort m].pcap1 = s.ports[dnPort m].pcap1 := (congrArg Port.pcap1 hp :)
  unfold entryKind
  dsimp only
  rw [isUp_of_standing hp, hr, h0, h1, h.cen]

theorem entryView_same {s t : State} (h : TellsSame s t) (k : Nat) (m : DnN) : entryView t k m = entryView s k m := by
  have hp := h.ports (dnPort m)
  have hr : t.ports[dnPort m].rate = s.ports[dnPort m].rate := (congrArg Port.rate hp :)
  have h0 : t.ports[dnPort m].pcap0 = s.ports[dnPort m].pcap0 := (congrArg Port.pcap0 hp :)
  have h1 : t.ports[dnPort m].pcap1 = s.ports[dnPort m].pcap1 := (congrArg Port.pcap1 hp :)
  unfold entryView
  dsimp only
  rw [hr, h0, h1, h.cen]

theorem entriesOf_same {s t : State} (h : TellsSame s t) (mode : Nat) : entriesOf t mode = entriesOf s mode := by
  unfold entriesOf
  refine congrArg (fun f => dnAll.filterMap f) (funext fun m => ?_)
  dsimp only
  rw [entryKind_same h, entryView_same h, h.cen]

theorem entryWords_same {s t : State} (h : TellsSame s t) (m : DnN) (v : View) (k : Nat) :
    entryWords t m v k = entryWords s m v k := by
  have hp := h.ports (dnPort m)
  have he : t.ports[dnPort m].epoch = s.ports[dnPort m].epoch := (congrArg Port.epoch hp :)
  have hh : t.ports[dnPort m].hold = s.ports[dnPort m].hold := (congrArg Port.hold hp :)
  unfold entryWords
  dsimp only
  rw [he, hh]

theorem reportWords_same {s t : State} (h : TellsSame s t) (w : Word) (mode : Nat) (es : List (DnN × View × Nat)) :
    reportWords t w mode es = reportWords s w mode es := by
  have hup : (fun m : DnN => atBit (isUp t.ports[dnPort m]) m.val) = fun m : DnN => atBit (isUp s.ports[dnPort m]) m.val :=
    funext fun m => by rw [isUp_of_standing (h.ports (dnPort m))]
  unfold reportWords
  rw [h.en, h.pll, hup, funext fun e : DnN × View × Nat => entryWords_same h e.1 e.2.1 e.2.2]

/-- The state d that the statement builds a report in tells what the part's own does. -/
theorem reportBase_tells {s u : State} {f : Inbox → Bool} {x : Inbox} (h : takeInbox s f = some (x, u)) :
    TellsSame { s with cen := if s.cen.sent then deliverViews s.cen else s.cen } (reportBase u) := by
  have hparts := reportBase_parts u
  have htaken := takeInbox_frame h
  have hcen : u.cen = s.cen := htaken .cen (by decide)
  refine ⟨?_, fun n => ?_, ?_, ?_⟩
  · show (if u.cen.sent then deliverViews u.cen else u.cen) = _
    rw [hcen]
  · rw [reportBase_ports, (takeInbox_leaves h).1]
  · exact congrArg Ln.en ((hparts .ln (by decide)).trans (htaken .ln (by decide)))
  · exact congrArg Clk.corePll ((hparts .clk (by decide)).trans (htaken .clk (by decide)))

/-! ## The views that a report delivers (R130) -/

/-- One entry of a delivered report. -/
def deliverOne (c : Cen) (e : DnN × View × Nat) : Cen :=
  { c with
    views := vMod c.views e.1 fun _ => some e.2.1
    attaches := vMod c.attaches e.1 fun n => n - e.2.2 }

theorem deliverOne_ne (c : Cen) (e : DnN × View × Nat) {m : DnN} (h : e.1 ≠ m) :
    (deliverOne c e).views[m] = c.views[m] ∧ (deliverOne c e).attaches[m] = c.attaches[m] :=
  ⟨vMod_get_ne _ _ _ _ (Ne.symm h), vMod_get_ne _ _ _ _ (Ne.symm h)⟩

theorem deliverOne_self (c : Cen) (e : DnN × View × Nat) :
    (deliverOne c e).views[e.1] = some e.2.1 ∧ (deliverOne c e).attaches[e.1] = c.attaches[e.1] - e.2.2 :=
  ⟨vMod_get_self _ _ _, vMod_get_self _ _ _⟩

theorem deliver_skips (l : List (DnN × View × Nat)) (c : Cen) {m : DnN} (h : l.filter (fun e => e.1 = m) = []) :
    (l.foldl deliverOne c).views[m] = c.views[m] ∧ (l.foldl deliverOne c).attaches[m] = c.attaches[m] := by
  induction l generalizing c with
  | nil => exact ⟨rfl, rfl⟩
  | cons e l ih =>
    have hne : e.1 ≠ m := fun heq => by simp [heq] at h
    rw [List.filter_cons_of_neg (by simpa using hne)] at h
    obtain ⟨hview, hatt⟩ := ih (deliverOne c e) h
    obtain ⟨hview', hatt'⟩ := deliverOne_ne c e hne
    exact ⟨hview.trans hview', hatt.trans hatt'⟩

theorem deliver_takes (l : List (DnN × View × Nat)) (c : Cen) {m : DnN} {v : View} {n : Nat}
    (h : l.filter (fun e => e.1 = m) = [(m, v, n)]) :
    (l.foldl deliverOne c).views[m] = some v ∧ (l.foldl deliverOne c).attaches[m] = c.attaches[m] - n := by
  induction l generalizing c with
  | nil => exact absurd h (by simp)
  | cons e l ih =>
    by_cases he : e.1 = m
    · rw [List.filter_cons_of_pos (by simpa using he)] at h
      obtain ⟨heq, hrest⟩ := List.cons.inj h
      subst heq
      obtain ⟨hview, hatt⟩ := deliver_skips l (deliverOne c (m, v, n)) hrest
      obtain ⟨hview', hatt'⟩ := deliverOne_self c (m, v, n)
      exact ⟨hview.trans hview', hatt.trans hatt'⟩
    · rw [List.filter_cons_of_neg (by simpa using he)] at h
      obtain ⟨hview, hatt⟩ := ih (deliverOne c e) h
      obtain ⟨-, hatt'⟩ := deliverOne_ne c e he
      exact ⟨hview, hatt.trans (by rw [hatt'])⟩

/-! ## The row -/

theorem exec_censusOpen {s u : State} {x : Inbox} (hl : linkOn s = true)
    (h : takeInbox s (fun x => x.dest = .census) = some (x, u)) : exec .censusOpen s = .next (censusOpen u x.pkt) := by
  refine onLink_eq hl ?_
  rw [h]

theorem exec_censusOpen_none {s : State} (hl : linkOn s = true) (h : takeInbox s (fun x => x.dest = .census) = none) :
    exec .censusOpen s = .next s := by
  refine onLink_eq hl ?_
  rw [h]

section
variable {x : Inbox} {u s : State} (hl : linkOn s = true)
  (h : takeInbox s (fun x => x.dest = .census) = some (x, u)) (hn : s.bus.node ≠ 0xFFFE#16)
include hl h

theorem census_unassigned (hn : s.bus.node = 0xFFFE#16) : exec .censusOpen s = .next u := by
  have hnone : (!assigned u) = true := by simp [assigned, (takeInbox_leaves h).2.2, hn]
  rw [exec_censusOpen hl h, censusOpen]
  simp only [hnone, if_true]

include hn

theorem census_retries (hh : s.cen.lastHeat = some (wAt x.pkt.payload 0)) (hs : s.cen.sent = true)
    (hu : isUp s.ports[(0 : PortN)] = true) :
    ∃ t, exec .censusOpen s = .next t ∧
      engineSent t { hdr := engineHdr 12#4 s.bus.node 0x02, payload := retryWords s.cen.report } .reportSent ∧
      t.bus = u.bus ∧ only [.bus, .ula, .doms, .que, .aon, .out] s t := by
  obtain ⟨hports, -, hnode⟩ := takeInbox_leaves h
  have hcen : u.cen = s.cen := takeInbox_frame h .cen (by decide)
  have hone : (!assigned u) = false := by simp [assigned, hnode, hn]
  have hact : censusOpen u x.pkt = sendReport u (wAt x.pkt.payload 0) s.cen.entries.length (retryWords s.cen.report) := by
    unfold censusOpen
    simp [hone, hcen, hh, hs]
  obtain ⟨hsent, hparts⟩ := sendReport_rule (s := u) (by rw [hnode]; exact hn) (by rw [hports]; exact hu)
    (wAt x.pkt.payload 0) s.cen.entries.length (retryWords s.cen.report)
  rw [hnode] at hsent
  rw [exec_censusOpen hl h, hact]
  exact ⟨_, rfl, hsent, hparts .bus (by decide), (takeInbox_frame h).seq hparts⟩

theorem census_queued (hh : s.cen.lastHeat = some (wAt x.pkt.payload 0)) (hs : s.cen.sent = false)
    (hq : reportQueued s = true) : exec .censusOpen s = .next u := by
  have hcen : u.cen = s.cen := takeInbox_frame h .cen (by decide)
  have hone : (!assigned u) = false := by simp [assigned, (takeInbox_leaves h).2.2, hn]
  have hqueued : reportQueued u = true := by
    rw [takeInbox_some h]
    exact hq
  have hact : censusOpen u x.pkt = u := by
    unfold censusOpen
    simp [hone, hcen, hh, hs, hqueued]
  rw [exec_censusOpen hl h, hact]

theorem censusOpen_new
    (hh : s.cen.lastHeat ≠ some (wAt x.pkt.payload 0) ∨ s.cen.sent = false ∧ reportQueued s = false) :
    exec .censusOpen s = .next (newReport u (wAt x.pkt.payload 0) (fld (wAt x.pkt.payload 1) 0 2)) := by
  have hcen : u.cen = s.cen := takeInbox_frame h .cen (by decide)
  have hone : (!assigned u) = false := by simp [assigned, (takeInbox_leaves h).2.2, hn]
  have hqueued : reportQueued u = reportQueued s := by
    rw [takeInbox_some h]
    rfl
  have hact : censusOpen u x.pkt = newReport u (wAt x.pkt.payload 0) (fld (wAt x.pkt.payload 1) 0 2) := by
    unfold censusOpen
    rcases hh with hh | ⟨hs, hq⟩
    · simp [hone, hcen, hh]
    · simp [hone, hcen, hs, hqueued, hq]
  rw [exec_censusOpen hl h, hact]

/-- The state d tells what a new report says. -/
theorem newReport_sends
    (hh : s.cen.lastHeat ≠ some (wAt x.pkt.payload 0) ∨ s.cen.sent = false ∧ reportQueued s = false)
    {d : State} (hd : d = { s with cen := if s.cen.sent then deliverViews s.cen else s.cen })
    {mode : Nat} {es : List (DnN × View × Nat)} (hmode : mode = fld (wAt x.pkt.payload 1) 0 2) (hes : es = entriesOf d mode)
    (hgo : es ≠ [] ∨ mode ≠ 0) (hu : isUp s.ports[(0 : PortN)] = true) :
    ∃ t, exec .censusOpen s = .next t ∧
      t.cen = withReport d.cen (wAt x.pkt.payload 0) (reportWords d (wAt x.pkt.payload 0) mode es) true es ∧
      engineSent t { hdr := engineHdr 12#4 s.bus.node 0x02
                     payload := reportWords d (wAt x.pkt.payload 0) mode es } .reportSent ∧
      t.bus = u.bus ∧ only [.bus, .ula, .ports, .cen, .doms, .que, .aon, .out] s t := by
  obtain ⟨hports, -, hnode⟩ := takeInbox_leaves h
  have htells := reportBase_tells h
  have hbase := reportBase_parts u
  rw [← hd] at htells
  have hgo' : (!es.isEmpty || mode != 0) = true := by
    rcases hgo with hgo | hgo <;> simp [hgo]
  have hrow := censusOpen_new hl h hn hh
  rw [← hmode, newReport_eq u _ mode ((entriesOf_same htells mode).trans hes.symm) (reportWords_same htells _ mode es) hgo',
    if_pos rfl] at hrow
  have hbus : (reportBase u).bus = u.bus := hbase .bus (by decide)
  obtain ⟨hsent, hparts⟩ := sendReport_rule
    (s := reported (reportBase u) (wAt x.pkt.payload 0) (reportWords d (wAt x.pkt.payload 0) mode es) true es)
    (by show (reportBase u).bus.node ≠ _; rw [hbus, hnode]; exact hn)
    (by show isUp (reportBase u).ports[(0 : PortN)] = true; rw [isUp_of_standing (reportBase_ports u 0), hports]; exact hu)
    (wAt x.pkt.payload 0) es.length (reportWords d (wAt x.pkt.payload 0) mode es)
  have hnode' : (reportBase u).bus.node = s.bus.node := (congrArg Bus.node hbus).trans hnode
  refine ⟨_, hrow, (hparts .cen (by decide)).trans (by rw [reported, htells.cen]), hnode' ▸ hsent, (hparts .bus (by decide)).trans hbus, ?_⟩
  exact (((takeInbox_frame h).seq hbase (rs := [.bus, .ula, .ports, .cen, .doms, .que, .aon, .out])).seq
    (cen_frame _ _) (rs := [.bus, .ula, .ports, .cen, .doms, .que, .aon, .out])).seq hparts

theorem newReport_silent (hh : s.cen.sent = false)
    (hq : s.cen.lastHeat ≠ some (wAt x.pkt.payload 0) ∨ reportQueued s = false) {mode : Nat}
    {es : List (DnN × View × Nat)} (hmode : mode = fld (wAt x.pkt.payload 1) 0 2) (hes : es = entriesOf s mode)
    (he : es = []) (h0 : mode = 0) :
    ∃ t, exec .censusOpen s = .next t ∧
      t.cen = withReport s.cen (wAt x.pkt.payload 0) (reportWords s (wAt x.pkt.payload 0) mode es) false [] ∧
      t.bus = u.bus ∧ only [.bus, .ula, .ports, .cen] s t := by
  have htells := reportBase_tells h
  have hd : { s with cen := if s.cen.sent then deliverViews s.cen else s.cen } = s := by rw [hh]; rfl
  rw [hd] at htells
  have hbase := reportBase_parts u
  have hrow := censusOpen_new hl h hn (hq.imp_right fun hq => ⟨hh, hq⟩)
  rw [← hmode, newReport_eq u _ mode ((entriesOf_same htells mode).trans hes.symm) (reportWords_same htells _ mode es)
    (go := false) (by rw [he, h0]; rfl), if_neg (by decide)] at hrow
  refine ⟨_, hrow, ?_, hbase .bus (by decide), ((takeInbox_frame h).seq hbase (rs := [.bus, .ula, .ports, .cen])).seq
    (cen_frame _ _)⟩
  show withReport (reportBase u).cen _ _ _ es = _
  rw [htells.cen, he]

end

theorem census_takes (x : Inbox) (u s : State) (hl : linkOn s = true)
    (h : takeInbox s (fun x => x.dest = .census) = some (x, u)) (mode : Nat) (es : List (DnN × View × Nat))
    (hn : s.bus.node ≠ 0xFFFE#16) (hq : s.cen.lastHeat ≠ some (wAt x.pkt.payload 0) ∨ reportQueued s = false)
    (hs : s.cen.sent = false) (hmode : mode = fld (wAt x.pkt.payload 1) 0 2) (hes : es = entriesOf s mode) :
    ((es ≠ [] ∨ mode ≠ 0) → isUp s.ports[(0 : PortN)] = true →
      ∃ t, exec .censusOpen s = .next t ∧
        t.cen = withReport s.cen (wAt x.pkt.payload 0) (reportWords s (wAt x.pkt.payload 0) mode es) true es ∧
        engineSent t { hdr := engineHdr 12#4 s.bus.node 0x02
                       payload := reportWords s (wAt x.pkt.payload 0) mode es } .reportSent ∧
        t.bus = u.bus ∧ only [.bus, .ula, .ports, .cen, .doms, .que, .aon, .out] s t) ∧
    (es = [] → mode = 0 →
      ∃ t, exec .censusOpen s = .next t ∧
        t.cen = withReport s.cen (wAt x.pkt.payload 0) (reportWords s (wAt x.pkt.payload 0) mode es) false [] ∧
        t.bus = u.bus ∧ only [.bus, .ula, .ports, .cen] s t) :=
  ⟨newReport_sends hl h hn (hq.imp_right fun hq => ⟨hs, hq⟩) (d := s) (by rw [hs]; rfl) hmode hes,
    newReport_silent hl h hn hs hq hmode hes⟩

theorem census_delivers (x : Inbox) (u s : State) (hl : linkOn s = true)
    (h : takeInbox s (fun x => x.dest = .census) = some (x, u)) (mode : Nat) (d : State) (es : List (DnN × View × Nat))
    (hn : s.bus.node ≠ 0xFFFE#16) (hh : s.cen.lastHeat ≠ some (wAt x.pkt.payload 0)) (hs : s.cen.sent = true)
    (hmode : mode = fld (wAt x.pkt.payload 1) 0 2) (hd : d = { s with cen := deliverViews s.cen })
    (hes : es = entriesOf d mode) (hgo : es ≠ [] ∨ mode ≠ 0) (hu : isUp s.ports[(0 : PortN)] = true) :
    ∃ t, exec .censusOpen s = .next t ∧
      t.cen = withReport (deliverViews s.cen) (wAt x.pkt.payload 0) (reportWords d (wAt x.pkt.payload 0) mode es) true es ∧
      (∀ m v n, s.cen.entries.filter (fun e => e.1 = m) = [(m, v, n)] →
        t.cen.views[m] = some v ∧ t.cen.attaches[m] = s.cen.attaches[m] - n) ∧
      (∀ m, s.cen.entries.filter (fun e => e.1 = m) = [] →
        t.cen.views[m] = s.cen.views[m] ∧ t.cen.attaches[m] = s.cen.attaches[m]) ∧
      engineSent t { hdr := engineHdr 12#4 s.bus.node 0x02
                     payload := reportWords d (wAt x.pkt.payload 0) mode es } .reportSent ∧
      t.bus = u.bus ∧ only [.bus, .ula, .ports, .cen, .doms, .que, .aon, .out] s t := by
  obtain ⟨t, hrow, hcen, hsent, hbus, hparts⟩ :=
    newReport_sends hl h hn (.inl hh) (d := d) (by rw [hs]; exact hd) hmode hes hgo hu
  have hdelivered : d.cen = deliverViews s.cen := congrArg State.cen hd
  rw [hdelivered] at hcen
  refine ⟨t, hrow, hcen, fun m v n hm => ?_, fun m hm => ?_, hsent, hbus, hparts⟩
  · rw [hcen]
    exact deliver_takes s.cen.entries s.cen hm
  · rw [hcen]
    exact deliver_skips s.cen.entries s.cen hm

/-- Settles O41: it holds. A report says what the ports, the delivered views and two bits say, which taking the OPEN and
dropping an unsent report leave; each entry of a delivered report acts on its own port. -/
theorem censusHeats : Obligations.CensusHeats := by
  refine ⟨fun s hl h => exec_censusOpen_none hl h, fun x u s hl h => ⟨census_unassigned hl h,
    fun hn hh hs hu => census_retries hl h hn hh hs hu, fun hn hh hs hq => census_queued hl h hn hh hs hq,
    census_takes x u s hl h, census_delivers x u s hl h⟩⟩

end Sys2Proof.Machine
end

section
/-! PROOF. The probing of a survey sweep (O42). -/

namespace Sys2Proof.Machine

open Sys2Proof Sys2Proof.Safety

-- One proof after the other: side by side, the proofs of one text wait for each other in too many threads.
set_option Elab.async false


/-! ## Rows of the survey -/

theorem onSurvey_some {s u : State} {tsb : Nat} {up : Bool} {act : State → Inbox → State} {x : Inbox}
    (h : takeInbox s (fun x => x.dest = .survey && x.pkt.hdr.tsb.toNat = tsb && decide (x.port = 0) == up) = some (x, u)) :
    onSurvey tsb up act s = act u x := by
  unfold onSurvey
  rw [h]

/-- Taking a packet from the inbox leaves what the survey judges by. -/
theorem takeInbox_survey {s u : State} {f : Inbox → Bool} {x : Inbox} (h : takeInbox s f = some (x, u)) :
    u.sur = s.sur ∧ u.bus.node = s.bus.node ∧ u.bus.pid = s.bus.pid ∧ u.ports = s.ports ∧ u.tb = s.tb ∧
      (∀ y, thisSweep u y = thisSweep s y) := by
  rw [takeInbox_some h]
  exact ⟨rfl, rfl, rfl, rfl, rfl, fun _ => rfl⟩

/-! ## PROBEs (R137) -/

theorem sendProbe_rule {s : State} (hn : s.bus.node ≠ 0xFFFE#16) (hu : isUp s.ports[(0 : PortN)] = true) (k : Nat) :
    engineSent (sendProbe s k) (surveyPkt s.bus.node 0x02 [s.sur.sweep.getD 0#16, w16 k]) .probe ∧
      (sendProbe s k).sur = { s.sur with probe := k } ∧ only [.ula, .sur] s (sendProbe s k) := by
  obtain ⟨hsent, hframe⟩ := engineUp_sends (s := { s with sur := { s.sur with probe := k } }) hn hu
    (surveyPkt s.bus.node 0x02 [s.sur.sweep.getD 0#16, w16 k]) .probe
  exact ⟨hsent, hframe .sur (by decide), (sur_frame s _).seq hframe⟩

/-- The survey state of a sweep that has just begun. -/
def sweepBegun (s : State) (x : Inbox) : Sur :=
  { Sur.reset with
    sweep := some (wAt x.pkt.payload 0)
    tmo := max 1 (fld (wAt x.pkt.payload 1) 0 8)
    depth := (x.pkt.hdr.hop.toNat + 1) % 1024
    ended := false
    kept := s.sur.kept }

theorem surveyOpen_same {u : State} {x : Inbox} (h : u.sur.sweep = some (wAt x.pkt.payload 0)) : surveyOpen u x = u := by
  unfold surveyOpen
  exact if_pos (by simp [h])

theorem surveyOpen_new {u : State} {x : Inbox} (hn : u.bus.node ≠ 0xFFFE#16)
    (h : u.sur.sweep ≠ some (wAt x.pkt.payload 0)) : surveyOpen u x = sendProbe { u with sur := sweepBegun u x } 1 := by
  unfold surveyOpen
  exact if_neg (by simp [assigned, hn, h])

theorem survey_opens (x : Inbox) (u s : State) (h : surveyHas s 1 true x u) (hn : s.bus.node ≠ 0xFFFE#16) :
    (s.sur.sweep = some (wAt x.pkt.payload 0) → exec .surveyOpen s = .next u) ∧
    (s.sur.sweep ≠ some (wAt x.pkt.payload 0) → isUp s.ports[(0 : PortN)] = true →
      ∃ t, exec .surveyOpen s = .next t ∧ t.sur = { sweepBegun s x with probe := 1 } ∧
        engineSent t (surveyPkt s.bus.node 0x02 [wAt x.pkt.payload 0, 1#16]) .probe ∧
        t.bus = u.bus ∧ only [.bus, .ula, .sur] s t) := by
  obtain ⟨hl, hin⟩ := h
  obtain ⟨hsur, hnode, -, hports, -, -⟩ := takeInbox_survey hin
  have hrow : exec .surveyOpen s = .next (surveyOpen u x) := onLink_eq hl (onSurvey_some hin)
  constructor
  · intro hs
    rw [hrow, surveyOpen_same (by rw [hsur]; exact hs)]
  · intro hs hu
    obtain ⟨hsent, hsur', hparts⟩ := sendProbe_rule (s := { u with sur := sweepBegun u x }) (by rw [← hnode] at hn; exact hn)
      (by rw [← hports] at hu; exact hu) 1
    rw [surveyOpen_new (by rw [hnode]; exact hn) (by rw [hsur]; exact hs)] at hrow
    have hbegun : sweepBegun u x = sweepBegun s x := by rw [sweepBegun, sweepBegun, hsur]
    refine ⟨_, hrow, hsur'.trans (congrArg (fun c : Sur => { c with probe := 1 }) hbegun), ?_, hparts .bus (by decide),
      ((takeInbox_frame hin).seq (sur_frame u _) (rs := [.bus, .ula, .sur])).seq hparts⟩
    rw [← hnode]
    exact hsent

/-! ## The end of the probing (R137) -/

theorem probingEnds_walked {s : State} (h : s.sur.walk ≠ .probing) :
    probingEnds s = { s with sur := { s.sur with ended := true } } := by
  unfold probingEnds
  exact if_neg h

theorem exec_probeTimeout {s : State} (hl : linkOn s = true) : exec .probeTimeout s =
    .next (whenDo (s.sur.sweep.isSome && !s.sur.ended)
      (fun s => if s.sur.probe < 3 then sendProbe s (s.sur.probe + 1) else probingEnds s) s) := onLink_eq hl rfl

theorem probe_timesOut (s : State) (hl : linkOn s = true) :
    (∀ sw, s.sur.sweep = some sw → s.sur.ended = false → s.sur.probe < 3 → s.bus.node ≠ 0xFFFE#16 →
      isUp s.ports[(0 : PortN)] = true →
      ∃ t, exec .probeTimeout s = .next t ∧ t.sur = { s.sur with probe := s.sur.probe + 1 } ∧
        engineSent t (surveyPkt s.bus.node 0x02 [sw, w16 (s.sur.probe + 1)]) .probe ∧ only [.ula, .sur] s t) ∧
    (s.sur.sweep.isSome = true → s.sur.ended = false → 3 ≤ s.sur.probe → s.sur.walk ≠ .probing →
      ∃ t, exec .probeTimeout s = .next t ∧ t.sur = { s.sur with ended := true } ∧ only [.sur] s t) ∧
    ((s.sur.sweep = none ∨ s.sur.ended = true) → exec .probeTimeout s = .next s) := by
  refine ⟨fun sw hs he hp hn hu => ?_, fun hs he hp hw => ?_, fun h => ?_⟩
  · obtain ⟨hsent, hsur, hparts⟩ := sendProbe_rule hn hu (s.sur.probe + 1)
    rw [exec_probeTimeout hl, whenDo_holds (by simp [hs, he]), if_pos hp]
    refine ⟨_, rfl, hsur, ?_, hparts⟩
    simpa only [hs, Option.getD_some] using hsent
  · rw [exec_probeTimeout hl, whenDo_holds (by simp [hs, he]), if_neg (by omega), probingEnds_walked hw]
    exact ⟨_, rfl, rfl, sur_frame s _⟩
  · rw [exec_probeTimeout hl, whenDo_fails (by rcases h with h | h <;> simp [h])]

/-! ## PROBEs from below (R139) -/

theorem sendDown_assigned {s : State} (hn : s.bus.node ≠ 0xFFFE#16) (m : DnN) (p : Pkt) (act : OnEop) :
    sendDown s m p act = sendAt s m s.bus.pid p act := if_pos (by simp [assigned, hn])

/-- A packet sent on Dm joins the end of its queue. -/
theorem sendAt_rule (s : State) (m : DnN) (ord : Nat) (p : Pkt) (act : OnEop) :
    (sendAt s m ord p act).ports[dnPort m] =
      { s.ports[dnPort m] with txq := s.ports[dnPort m].txq ++ [{ ownTx p act with ord := ord }] } ∧
      portsBut (dnPort m) s (sendAt s m ord p act) ∧ only [.ports] s (sendAt s m ord p act) :=
  ⟨modPort_self s (dnPort m) _, portsBut_modPort s (dnPort m) _, modPort_only s (dnPort m) _⟩

/-- A row of a packet from below acts on the port that it came from. -/
theorem dn_row {α : Type} {n : PortN} {m : DnN} (h : n = dnPort m) (a : α) (f : DnN → α) :
    (if _h : n.val = 0 then a else f ⟨n.val - 1, by omega⟩) = f m := by
  subst h
  rfl

/-- The partner of Dm has joined the walk set. -/
def joined (s : State) (m : DnN) (a : Word) : State :=
  { s with sur := { s.sur with walkSet := vMod s.sur.walkSet m fun _ => some a } }

theorem surveyProbe_echoes {u : State} {m : DnN} {x : Inbox} (hn : u.bus.node ≠ 0xFFFE#16) (hw : u.sur.walk ≠ .waitProbe m) :
    surveyProbe u m x = sendAt (joined u m x.pkt.hdr.addr) m u.bus.pid
      (surveyPkt x.pkt.hdr.addr 0x03 [wAt x.pkt.payload 0, wAt x.pkt.payload 1, 0#16, 0#16]) (.echo x.stamp) := by
  unfold surveyProbe
  exact (if_neg hw).trans (sendDown_assigned (s := joined u m x.pkt.hdr.addr) hn m _ _)

theorem exec_surveyProbe {s u : State} {m : DnN} {x : Inbox} (h : surveyHas s 2 false x u) (hp : x.port = dnPort m) :
    exec .surveyProbe s = .next (if thisSweep u x then surveyProbe u m x else u) := by
  obtain ⟨hl, hin⟩ := h
  refine onLink_eq hl ((onSurvey_some hin).trans ?_)
  exact dn_row hp u fun m => if thisSweep u x then surveyProbe u m x else u

theorem probe_joins (m : DnN) (x : Inbox) (u s : State) (h : surveyHas s 2 false x u) (hp : x.port = dnPort m) :
    (thisSweep s x = false → exec .surveyProbe s = .next u) ∧
    (thisSweep s x = true → s.bus.node ≠ 0xFFFE#16 → s.sur.walk ≠ .waitProbe m →
      ∃ t, exec .surveyProbe s = .next t ∧ t.sur.walkSet[m] = some x.pkt.hdr.addr ∧
        t.ports[dnPort m] = { s.ports[dnPort m] with
          txq := s.ports[dnPort m].txq ++
            [{ ownTx (surveyPkt x.pkt.hdr.addr 0x03 [wAt x.pkt.payload 0, wAt x.pkt.payload 1, 0#16, 0#16])
                (.echo x.stamp) with ord := s.bus.pid }] } ∧
        t.bus = u.bus ∧ portsBut (dnPort m) s t ∧ only [.bus, .ports, .sur] s t) := by
  have hrow := exec_surveyProbe h hp
  obtain ⟨-, hin⟩ := h
  obtain ⟨hsur, hnode, hpid, hports, -, hsweep⟩ := takeInbox_survey hin
  rw [hsweep] at hrow
  constructor
  · intro hs
    rwa [hs, if_neg (by decide)] at hrow
  · intro hs hn hw
    rw [hs, if_pos rfl, surveyProbe_echoes (by rw [hnode]; exact hn) (by rw [hsur]; exact hw), hpid] at hrow
    obtain ⟨hport, hbut, hparts⟩ := sendAt_rule (joined u m x.pkt.hdr.addr) m s.bus.pid
      (surveyPkt x.pkt.hdr.addr 0x03 [wAt x.pkt.payload 0, wAt x.pkt.payload 1, 0#16, 0#16]) (.echo x.stamp)
    have hsame : (joined u m x.pkt.hdr.addr).ports = s.ports := hports
    rw [hsame] at hport
    refine ⟨_, hrow, ?_, hport, rfl, fun k hk => (hbut k hk).trans (by rw [hsame]),
      ((takeInbox_frame hin).seq (sur_frame u _) (rs := [.bus, .ports, .sur])).seq hparts⟩
    rw [hparts .sur (by decide)]
    exact vMod_get_self _ _ _

/-! ## The ECHO (R140) -/

/-- The delay of UP's link in the time base. -/
def delayOf (b : Tb) : BitVec 32 × Bool × Bool := (b.hop, b.dlyOk, b.dlyPll)

theorem loseLock_delay (s : State) : delayOf (loseLock s).tb = delayOf s.tb := by
  unfold loseLock
  split
  · rfl
  · rw [(bbLink_only _ _ _ _ _) .tb (by decide), (raise_only _ _) .tb (by decide)]
    rfl

theorem gainLock_delay (s : State) : delayOf (gainLock s).tb = delayOf s.tb := by
  unfold gainLock
  split
  · rw [(raise_only _ _) .tb (by decide)]
    rfl
  · rfl

theorem lockCheck_delay (s : State) : delayOf (lockCheck s).tb = delayOf s.tb := by
  unfold lockCheck lockKeep
  rw [gainLock_delay]
  split
  · exact loseLock_delay s
  · rfl

/-- The delay that an ECHO measures is noted. -/
def delayNoted (u : State) (x : Inbox) : State :=
  { u with
    sur := { u.sur with measured := true, measPll := u.sur.t1Pll && x.pll }
    tb := { u.tb with
      hop := hopDelay x.stamp u.sur.t1 ((wAt x.pkt.payload 2).toNat * 65536 + (wAt x.pkt.payload 3).toNat)
      dlyOk := true
      dlyPll := u.sur.t1Pll && x.pll } }

theorem surveyEcho_other {u : State} {x : Inbox}
    (h : thisSweep u x = false ∨ u.sur.ended = true ∨ (wAt x.pkt.payload 1).toNat ≠ u.sur.probe) : surveyEcho u x = u := by
  unfold surveyEcho
  exact if_pos (by rcases h with h | h | h <;> simp [h])

theorem surveyEcho_measures {u : State} {x : Inbox} (h : thisSweep u x = true) (he : u.sur.ended = false)
    (hp : (wAt x.pkt.payload 1).toNat = u.sur.probe) : surveyEcho u x = probingEnds (lockCheck (delayNoted u x)) := by
  unfold surveyEcho
  exact if_neg (by simp [h, he, hp])

theorem delayNoted_frame (u : State) (x : Inbox) : only [.sur, .tb] u (delayNoted u x) := fun p hp => by
  cases p <;> first | rfl | exact absurd (by decide) hp

theorem echo_measures (x : Inbox) (u s : State) (h : surveyHas s 3 true x u) :
    (thisSweep s x = false ∨ s.sur.ended = true ∨ (wAt x.pkt.payload 1).toNat ≠ s.sur.probe →
      exec .surveyEcho s = .next u) ∧
    (thisSweep s x = true → s.sur.ended = false → (wAt x.pkt.payload 1).toNat = s.sur.probe →
      s.sur.walk ≠ .probing →
      ∃ t, exec .surveyEcho s = .next t ∧
        t.sur = { s.sur with measured := true, measPll := s.sur.t1Pll && x.pll, ended := true } ∧
        t.tb.hop = hopDelay x.stamp s.sur.t1
          ((wAt x.pkt.payload 2).toNat * 65536 + (wAt x.pkt.payload 3).toNat) ∧
        t.tb.dlyOk = true ∧ t.tb.dlyPll = (s.sur.t1Pll && x.pll) ∧
        only [.bus, .tb, .sur, .bb, .doms, .que, .aon, .out] s t) := by
  obtain ⟨hl, hin⟩ := h
  obtain ⟨hsur, -, -, -, -, hsweep⟩ := takeInbox_survey hin
  have hrow : exec .surveyEcho s = .next (surveyEcho u x) := onLink_eq hl (onSurvey_some hin)
  constructor
  · intro h
    rw [hrow, surveyEcho_other (by rw [hsweep, hsur]; exact h)]
  · intro hs he hp hw
    have hlock := lockCheck_only (delayNoted u x)
    have hsur' : (lockCheck (delayNoted u x)).sur = (delayNoted u x).sur := hlock .sur (by decide)
    have hdelay := lockCheck_delay (delayNoted u x)
    have hnoted : (delayNoted u x).sur = { s.sur with measured := true, measPll := s.sur.t1Pll && x.pll } := by
      rw [← hsur]
      rfl
    rw [surveyEcho_measures (by rw [hsweep]; exact hs) (by rw [hsur]; exact he) (by rw [hsur]; exact hp),
      probingEnds_walked (by rw [hsur', hnoted]; exact hw), hsur', hnoted] at hrow
    refine ⟨_, hrow, rfl, ?_, congrArg (·.2.1) hdelay, (congrArg (·.2.2) hdelay).trans ?_, ?_⟩
    · rw [← hsur]
      exact congrArg (·.1) hdelay
    · rw [← hsur]
      rfl
    · exact (((takeInbox_frame hin).seq (delayNoted_frame u x) (rs := [.bus, .tb, .sur, .bb, .doms, .que, .aon, .out])).seq
        hlock (rs := [.bus, .tb, .sur, .bb, .doms, .que, .aon, .out])).seq (sur_frame _ _)

/-- Settles O42: it holds. Each packet acts on the sweep it names alone; the check of the lock that follows a measured
delay leaves the delay as it is. -/
theorem surveyProbing : Obligations.SurveyProbing := by
  exact ⟨survey_opens, probe_timesOut, probe_joins, echo_measures⟩

end Sys2Proof.Machine
end

section
/-! PROOF. The walk of a survey sweep (O43). -/

namespace Sys2Proof.Machine

open Sys2Proof Sys2Proof.Safety

-- One proof after the other: side by side, the proofs of one text wait for each other in too many threads.
set_option Elab.async false


/-! ## What waits for the engines' place in UP stays -/

/-- What waits at requester 17 goes on waiting. -/
def engineWaits (s t : State) : Prop := ∀ y ∈ vAt s.ula.reqs [] 17, y ∈ vAt t.ula.reqs [] 17

theorem engineWaits.seq {s t u : State} (h : engineWaits s t) (k : engineWaits t u) : engineWaits s u :=
  fun y hy => k y (h y hy)

theorem engineWaits_of_ula {s t : State} (h : t.ula = s.ula) : engineWaits s t := fun y hy => by
  rw [h]
  exact hy

theorem engineUp_waits (s : State) (p : Pkt) (act : OnEop) : engineWaits s (engineUp s p act) := by
  unfold engineUp
  split
  · intro y hy
    cases hu : isUp s.ports[(0 : PortN)]
    · have hsame : ulaPush s 17 (ownTx p act) = s := if_neg (Bool.eq_false_iff.mp hu)
      rw [hsame]
      exact hy
    · rw [ulaPush_joins hu (by omega)]
      exact List.mem_append_left _ hy
  · exact fun y hy => hy

theorem engineUp_frame (s : State) (p : Pkt) (act : OnEop) : only [.ula] s (engineUp s p act) :=
  only_ite _ (ulaPush_frame s 17 _) (only_refl _ s)

theorem sendDown_frame (s : State) (m : DnN) (p : Pkt) (act : OnEop) : only [.ports] s (sendDown s m p act) :=
  only_ite _ (modPort_only s (dnPort m) _) (only_refl _ s)

/-! ## Where the walk stops (R141, step 2) -/

/-- The walk over the ports of l has ended, or stands at one of them. -/
def stopsIn (l : List DnN) (w : Walk) : Prop := w = .done ∨ ∃ k ∈ l, w = .below k ∨ w = .waitProbe k

theorem stopsIn.later {l : List DnN} {w : Walk} (h : stopsIn l w) (m : DnN) : stopsIn (m :: l) w :=
  h.imp_right fun ⟨k, hk, hw⟩ => ⟨k, List.mem_cons_of_mem m hk, hw⟩

/-- The survey state with the walk at w. -/
def walking (c : Sur) (w : Walk) : Sur := { c with walk := w }

/-- A walk over l only moves where it stands, and what waits for UP stays. -/
theorem walkFrom_rule (l : List DnN) (s : State) : ∃ w, stopsIn l w ∧ (walkFrom s l).sur = walking s.sur w ∧
    engineWaits s (walkFrom s l) := by
  induction l generalizing s with
  | nil =>
    unfold walkFrom
    exact ⟨.done, .inl rfl, engineUp_frame _ _ _ .sur (by decide), engineUp_waits (setWalk s .done) _ _⟩
  | cons m l ih =>
    unfold walkFrom
    split
    · obtain ⟨w, hw, hsur, hwait⟩ := ih s
      exact ⟨w, hw.later m, hsur, hwait⟩
    · split
      · exact ⟨.below m, .inr ⟨m, List.mem_cons_self, .inl rfl⟩, sendDown_frame _ _ _ _ .sur (by decide),
          engineWaits_of_ula (sendDown_frame _ _ _ _ .ula (by decide))⟩
      · split
        · obtain ⟨w, hw, hsur, hwait⟩ := ih (sendBreak s m 3)
          refine ⟨w, hw.later m, hsur.trans ?_, (engineUp_waits s _ _).seq hwait⟩
          rw [sendBreak, engineUp_frame _ _ _ .sur (by decide)]
        · exact ⟨.waitProbe m, .inr ⟨m, List.mem_cons_self, .inr rfl⟩, rfl, fun y hy => hy⟩

theorem portsAfter_ne {m k : DnN} (h : k ∈ portsAfter m) : k ≠ m := by
  have hlt : m < k := by simpa using (List.mem_filter.mp h).2
  exact fun heq => absurd (heq ▸ hlt) (lt_irrefl _)

/-- A walk that goes on after Dm does not stand at Dm. -/
theorem walkNext_rule (s : State) (m : DnN) : ∃ w, (walkNext s m).sur = walking s.sur w ∧ w ≠ .below m ∧
    w ≠ .waitProbe m ∧ engineWaits s (walkNext s m) ∧ only walkParts s (walkNext s m) := by
  obtain ⟨w, hw, hsur, hwait⟩ := walkFrom_rule (portsAfter m) s
  refine ⟨w, hsur, fun h => ?_, fun h => ?_, hwait, (walkFrom_passes (portsAfter m) s).parts⟩
  · rcases hw with hw | ⟨k, hk, hw | hw⟩ <;> rw [h] at hw
    · exact absurd hw (by simp)
    · exact portsAfter_ne hk (Walk.below.inj hw).symm
    · exact absurd hw (by simp)
  · rcases hw with hw | ⟨k, hk, hw | hw⟩ <;> rw [h] at hw
    · exact absurd hw (by simp)
    · exact absurd hw (by simp)
    · exact portsAfter_ne hk (Walk.waitProbe.inj hw).symm

/-- A BREAK for Dm is handed over. -/
theorem sendBreak_rule {s : State} (hn : s.bus.node ≠ 0xFFFE#16) (hu : isUp s.ports[(0 : PortN)] = true) (m : DnN)
    (cause : Nat) : breakSent (sendBreak s m cause) m cause ∧ only [.ula] s (sendBreak s m cause) := by
  unfold sendBreak
  rw [engineUp_assigned hn]
  exact ⟨⟨_, ulaPush_queued hu (by omega) _, rfl, rfl⟩, ulaPush_frame s 17 _⟩

theorem breakSent_later {s t : State} {m : DnN} {cause : Nat} (h : breakSent s m cause) (hw : engineWaits s t) :
    breakSent t m cause := by
  obtain ⟨y, hy, hrest⟩ := h
  exact ⟨y, hw y hy, hrest⟩

/-- A BREAK for Dm, and the walk goes on. -/
theorem breakNext_rule {s : State} (hn : s.bus.node ≠ 0xFFFE#16) (hu : isUp s.ports[(0 : PortN)] = true) (m : DnN)
    (cause : Nat) : ∃ w, (walkNext (sendBreak s m cause) m).sur = walking s.sur w ∧ w ≠ .below m ∧ w ≠ .waitProbe m ∧
      breakSent (walkNext (sendBreak s m cause) m) m cause ∧
      only [.ula, .ports, .sur] s (walkNext (sendBreak s m cause) m) := by
  obtain ⟨hsent, hframe⟩ := sendBreak_rule hn hu m cause
  obtain ⟨w, hsur, hb, hp, hwait, hparts⟩ := walkNext_rule (sendBreak s m cause) m
  exact ⟨w, hsur.trans (by rw [hframe .sur (by decide)]), hb, hp, breakSent_later hsent hwait, hframe.seq hparts⟩

/-! ## The first port of a walk -/

theorem walkFrom_skips (s : State) (l r : List DnN) (h : ∀ k ∈ l, walkable s k = false) :
    walkFrom s (l ++ r) = walkFrom s r := by
  induction l with
  | nil => rfl
  | cons m l ih =>
    have hm := h m List.mem_cons_self
    rw [List.cons_append, walkFrom, if_pos (by simp [hm])]
    exact ih fun k hk => h k (List.mem_cons_of_mem m hk)

/-- The downstream ports below Dm, Dm, and those above. -/
theorem dnAll_split (m : DnN) : dnAll = dnAll.take m.val ++ m :: dnAll.drop (m.val + 1) := by
  have hlen : m.val < dnAll.length := by
    rw [dnAll, List.length_finRange]
    exact m.isLt
  have hget : dnAll[m.val] = m := List.getElem_finRange _
  have hdrop : dnAll.drop m.val = m :: dnAll.drop (m.val + 1) := by rw [List.drop_eq_getElem_cons hlen, hget]
  rw [← hdrop, List.take_append_drop]

theorem mem_below {m k : DnN} (h : k ∈ dnAll.take m.val) : k < m := by
  obtain ⟨i, hi, heq⟩ := List.mem_take_iff_getElem.mp h
  have hk : k.val = i := by
    rw [← heq]
    exact congrArg Fin.val (List.getElem_finRange _)
  exact Fin.lt_def.mpr (by rw [hk]; exact (Nat.lt_min.mp hi).1)

theorem walkFrom_first {s : State} {m : DnN} (h : ∀ k : DnN, k < m → walkable s k = false) :
    walkFrom s dnAll = walkFrom s (m :: dnAll.drop (m.val + 1)) := by
  conv => lhs; rw [dnAll_split m]
  exact walkFrom_skips s _ _ fun k hk => h k (mem_below hk)

theorem walkFrom_none {s : State} (h : ∀ m : DnN, walkable s m = false) :
    walkFrom s dnAll = engineUp (setWalk s .done) (surveyPkt s.bus.node 0x07 [s.sur.sweep.getD 0#16]) .none := by
  have hskip := walkFrom_skips s dnAll [] fun k _ => h k
  rw [List.append_nil] at hskip
  exact hskip

theorem walkFrom_waits {s : State} {m : DnN} {l : List DnN} (hm : walkable s m = true) (ha : s.sur.walkSet[m] = none)
    (hp : s.sur.probeLate = false) : walkFrom s (m :: l) = setWalk s (.waitProbe m) := by
  rw [walkFrom, if_neg (by simp [hm])]
  simp only [ha, hp, Bool.false_eq_true, if_false]

/-! ## The TOKEN (R141, step 1) -/

theorem surveyToken_other {u : State} {x : Inbox} (h : thisSweep u x = false) : surveyToken u x = u := by
  unfold surveyToken
  exact if_pos (by simp [h])

theorem surveyToken_held {u : State} {x : Inbox} (h : thisSweep u x = true) (hw : u.sur.walk = .idle) :
    surveyToken u x = if u.sur.ended then sendRecord u else setWalk u .probing := by
  unfold surveyToken
  rw [if_neg (by simp [h]), hw]

theorem surveyToken_done {u : State} {x : Inbox} (h : thisSweep u x = true) (hw : u.sur.walk = .done) :
    surveyToken u x = engineUp u (surveyPkt u.bus.node 0x07 [u.sur.sweep.getD 0#16]) .none := by
  unfold surveyToken
  rw [if_neg (by simp [h]), hw]

/-- The RECORD is on its way, with a copy kept. -/
def recordKept (s : State) : State := { s with sur := { s.sur with walk := .record, kept := some (recordWords s) } }

theorem sendRecord_rule {s : State} (hn : s.bus.node ≠ 0xFFFE#16) (hu : isUp s.ports[(0 : PortN)] = true) :
    (sendRecord s).sur = { s.sur with walk := .record, kept := some (recordWords s) } ∧
      engineSent (sendRecord s) (surveyPkt s.bus.node 0x05 (recordWords s)) .recordSent ∧
      only [.ula, .sur, .doms, .que, .aon, .out] s (sendRecord s) := by
  have hrun : sendRecord s = raise (engineUp (recordKept s) (surveyPkt s.bus.node 0x05 (recordWords s)) .recordSent)
      { code := 0x15, src := 0, w1 := s.sur.sweep.getD 0#16, w2 := w16 s.sur.depth } := if_neg (by simp [assigned, hn])
  obtain ⟨hsent, hframe⟩ := engineUp_sends (s := recordKept s) hn hu (surveyPkt s.bus.node 0x05 (recordWords s)) .recordSent
  have hraise := raise_only (engineUp (recordKept s) (surveyPkt s.bus.node 0x05 (recordWords s)) .recordSent)
    { code := 0x15, src := 0, w1 := s.sur.sweep.getD 0#16, w2 := w16 s.sur.depth }
  rw [hrun]
  exact ⟨(hraise .sur (by decide)).trans (hframe .sur (by decide)), engineSent_of_ula hsent (hraise .ula (by decide)),
    ((sur_frame s _).seq hframe (rs := [.ula, .sur, .doms, .que, .aon, .out])).seq hraise⟩

theorem token_walks (x : Inbox) (u s : State) (h : surveyHas s 4 true x u) :
    (thisSweep s x = false → exec .surveyToken s = .next u) ∧
    (thisSweep s x = true → s.sur.walk = .idle → s.sur.ended = true → s.bus.node ≠ 0xFFFE#16 →
      isUp s.ports[(0 : PortN)] = true →
      ∃ t, exec .surveyToken s = .next t ∧
        t.sur = { s.sur with walk := .record, kept := some (recordWords s) } ∧
        engineSent t (surveyPkt s.bus.node 0x05 (recordWords s)) .recordSent ∧
        only [.bus, .ula, .sur, .doms, .que, .aon, .out] s t) ∧
    (thisSweep s x = true → s.sur.walk = .idle → s.sur.ended = false →
      ∃ t, exec .surveyToken s = .next t ∧ t.sur = { s.sur with walk := .probing } ∧ only [.bus, .sur] s t) ∧
    (thisSweep s x = true → s.sur.walk = .done → s.bus.node ≠ 0xFFFE#16 → isUp s.ports[(0 : PortN)] = true →
      ∃ t, exec .surveyToken s = .next t ∧
        engineSent t (surveyPkt s.bus.node 0x07 [s.sur.sweep.getD 0#16]) .none ∧ only [.bus, .ula] s t) := by
  obtain ⟨hl, hin⟩ := h
  obtain ⟨hsur, hnode, -, hports, -, hsweep⟩ := takeInbox_survey hin
  have hframe := takeInbox_frame hin
  have hwords : recordWords u = recordWords s := by
    rw [takeInbox_some hin]
    rfl
  have hrow : exec .surveyToken s = .next (surveyToken u x) := onLink_eq hl (onSurvey_some hin)
  rw [← hsweep]
  refine ⟨fun ht => ?_, fun ht hw he hn hu => ?_, fun ht hw he => ?_, fun ht hw hn hu => ?_⟩
  · rw [hrow, surveyToken_other ht]
  · obtain ⟨hrec, hsent, hparts⟩ := sendRecord_rule (s := u) (by rw [hnode]; exact hn) (by rw [hports]; exact hu)
    rw [hwords, hsur] at hrec
    rw [hwords, hnode] at hsent
    rw [surveyToken_held ht (by rw [hsur]; exact hw), if_pos (by rw [hsur]; exact he)] at hrow
    exact ⟨_, hrow, hrec, hsent, hframe.seq hparts⟩
  · rw [surveyToken_held ht (by rw [hsur]; exact hw), if_neg (by rw [hsur, he]; decide)] at hrow
    exact ⟨_, hrow, congrArg (walking · .probing) hsur, hframe.seq (sur_frame u _)⟩
  · obtain ⟨hsent, hula⟩ := engineUp_sends (s := u) (by rw [hnode]; exact hn) (by rw [hports]; exact hu)
      (surveyPkt u.bus.node 0x07 [u.sur.sweep.getD 0#16]) .none
    rw [surveyToken_done ht (by rw [hsur]; exact hw)] at hrow
    refine ⟨_, hrow, ?_, hframe.seq hula⟩
    rw [hnode, hsur] at hsent
    rw [hnode, hsur]
    exact hsent

/-! ## The walk itself -/

theorem exec_recordSent {s : State} (hl : linkOn s = true) (hw : s.sur.walk = .recordOut) :
    exec .recordSent s = .next (walkFrom s dnAll) := onLink_eq hl (whenDo_holds (by simp [hw]))

theorem record_walks (s : State) (hl : linkOn s = true) (hw : s.sur.walk = .recordOut) (hn : s.bus.node ≠ 0xFFFE#16) :
    ((∀ m : DnN, walkable s m = false) → isUp s.ports[(0 : PortN)] = true →
      ∃ t, exec .recordSent s = .next t ∧ t.sur = { s.sur with walk := .done } ∧
        engineSent t (surveyPkt s.bus.node 0x07 [s.sur.sweep.getD 0#16]) .none ∧ only [.ula, .sur] s t) ∧
    (∀ (m : DnN) a, (∀ k : DnN, k < m → walkable s k = false) → walkable s m = true → s.sur.walkSet[m] = some a →
      ∃ t, exec .recordSent s = .next t ∧ t.sur = { s.sur with walk := .below m } ∧
        t.ports[dnPort m] = { s.ports[dnPort m] with
          txq := s.ports[dnPort m].txq ++
            [{ ownTx (surveyPkt a 0x04 [s.sur.sweep.getD 0#16]) .none with ord := s.bus.pid }] } ∧
        portsBut (dnPort m) s t ∧ only [.ports, .sur] s t) ∧
    (∀ m : DnN, (∀ k : DnN, k < m → walkable s k = false) → walkable s m = true → s.sur.walkSet[m] = none →
      (s.sur.probeLate = false →
        ∃ t, exec .recordSent s = .next t ∧ t.sur = { s.sur with walk := .waitProbe m } ∧ only [.sur] s t) ∧
      (s.sur.probeLate = true → isUp s.ports[(0 : PortN)] = true →
        ∃ t, exec .recordSent s = .next t ∧ breakSent t m 3 ∧ t.sur.walk ≠ .recordOut ∧
          only [.ula, .ports, .sur] s t)) := by
  refine ⟨fun hnone hu => ?_, fun m a hbelow hm ha => ?_, fun m hbelow hm ha => ⟨fun hp => ?_, fun hp hu => ?_⟩⟩
  · obtain ⟨hsent, hula⟩ := engineUp_sends (s := setWalk s .done) hn hu (surveyPkt s.bus.node 0x07 [s.sur.sweep.getD 0#16]) .none
    rw [exec_recordSent hl hw, walkFrom_none hnone]
    exact ⟨_, rfl, hula .sur (by decide), hsent, (sur_frame s _).seq hula⟩
  · obtain ⟨hport, hbut, hparts⟩ := sendAt_rule (setWalk s (.below m)) m s.bus.pid (surveyPkt a 0x04 [s.sur.sweep.getD 0#16]) .none
    rw [exec_recordSent hl hw, walkFrom_first hbelow, walkFrom, if_neg (by simp [hm])]
    simp only [ha, sendDown_assigned (s := setWalk s (.below m)) hn]
    exact ⟨_, rfl, hparts .sur (by decide), hport, hbut, (sur_frame s _).seq hparts⟩
  · rw [exec_recordSent hl hw, walkFrom_first hbelow, walkFrom_waits hm ha hp]
    exact ⟨_, rfl, rfl, sur_frame s _⟩
  · obtain ⟨hsent, hframe⟩ := sendBreak_rule hn hu m 3
    obtain ⟨w, hstop, hsur, hwait⟩ := walkFrom_rule (dnAll.drop (m.val + 1)) (sendBreak s m 3)
    rw [exec_recordSent hl hw, walkFrom_first hbelow, walkFrom, if_neg (by simp [hm])]
    simp only [ha, hp, if_true]
    refine ⟨_, rfl, breakSent_later hsent hwait, ?_, hframe.seq (walkFrom_passes _ _).parts⟩
    rw [hsur]
    rcases hstop with h | ⟨k, -, h | h⟩ <;> rw [h] <;> simp [walking]

theorem probeWait_ends (s : State) (hl : linkOn s = true) (hs : s.sur.sweep.isSome = true) :
    ((∀ m, s.sur.walk ≠ .waitProbe m) →
      ∃ t, exec .probeWaitTimeout s = .next t ∧ t.sur = { s.sur with probeLate := true } ∧ only [.sur] s t) ∧
    (∀ m, s.sur.walk = .waitProbe m → s.bus.node ≠ 0xFFFE#16 → isUp s.ports[(0 : PortN)] = true →
      ∃ t, exec .probeWaitTimeout s = .next t ∧ t.sur.probeLate = true ∧ breakSent t m 3 ∧
        t.sur.walk ≠ .waitProbe m ∧ only [.ula, .ports, .sur] s t) := by
  have hrow : exec .probeWaitTimeout s = .next (probeWaitOver s) := onLink_eq hl (whenDo_holds hs)
  rw [hrow]
  constructor
  · intro hw
    have hstay : probeWaitOver s = { s with sur := { s.sur with probeLate := true } } := by
      unfold probeWaitOver
      dsimp only
      split
      · rename_i m hm
        exact absurd hm (hw m)
      · rfl
    rw [hstay]
    exact ⟨_, rfl, rfl, sur_frame s _⟩
  · intro m hw hn hu
    obtain ⟨w, hsur, -, hp, hsent, hparts⟩ := breakNext_rule (s := { s with sur := { s.sur with probeLate := true } }) hn hu m 3
    have hgo : probeWaitOver s = walkNext (sendBreak { s with sur := { s.sur with probeLate := true } } m 3) m := by
      unfold probeWaitOver
      simp only [hw]
    rw [hgo]
    refine ⟨_, rfl, ?_, hsent, ?_, (sur_frame s _).seq hparts⟩
    · rw [hsur]
      rfl
    · rw [hsur]
      exact hp

theorem portTimeout_breaks (m : DnN) (s : State) (hl : linkOn s = true) :
    (s.sur.walk = .below m → s.bus.node ≠ 0xFFFE#16 → isUp s.ports[(0 : PortN)] = true →
      ∃ t, exec (.surveyPortTimeout m) s = .next t ∧ breakSent t m 1 ∧ t.sur.walk ≠ .below m ∧
        only [.ula, .ports, .sur] s t) ∧
    (s.sur.walk ≠ .below m → exec (.surveyPortTimeout m) s = .next s) := by
  refine ⟨fun hw hn hu => ?_, fun hw => onLink_eq hl (whenDo_fails (by simp [hw]))⟩
  obtain ⟨w, hsur, hb, -, hsent, hparts⟩ := breakNext_rule hn hu m 1
  refine ⟨_, onLink_eq hl (whenDo_holds (by simp [hw])), hsent, ?_, hparts⟩
  rw [hsur]
  exact hb

theorem return_walks (m : DnN) (x : Inbox) (u s : State) (h : surveyHas s 7 false x u) (hp : x.port = dnPort m) :
    (thisSweep s x = true → s.sur.walk = .below m →
      ∃ t, exec .surveyReturn s = .next t ∧ t = walkNext u m ∧ t.sur.walk ≠ .below m ∧
        only [.ula, .ports, .bus, .sur] s t) ∧
    ((thisSweep s x = false ∨ s.sur.walk ≠ .below m) → exec .surveyReturn s = .next u) := by
  obtain ⟨hl, hin⟩ := h
  obtain ⟨hsur, -, -, -, -, hsweep⟩ := takeInbox_survey hin
  have hrow : exec .surveyReturn s = .next (if thisSweep u x && u.sur.walk = .below m then walkNext u m else u) :=
    onLink_eq hl ((onSurvey_some hin).trans
      (dn_row hp u fun m => if thisSweep u x && u.sur.walk = .below m then walkNext u m else u))
  rw [hsweep, hsur] at hrow
  constructor
  · intro hs hw
    rw [if_pos (by simp [hs, hw])] at hrow
    obtain ⟨w, hsur', hb, -, -, hparts⟩ := walkNext_rule u m
    refine ⟨_, hrow, rfl, ?_, (takeInbox_frame hin).seq hparts⟩
    rw [hsur']
    exact hb
  · intro h
    rwa [if_neg (by rcases h with h | h <;> simp [h])] at hrow

theorem keep_goes (s : State) (hl : linkOn s = true) :
    (s.sur.walk ≠ .idle → s.sur.walk ≠ .done → s.bus.node ≠ 0xFFFE#16 → isUp s.ports[(0 : PortN)] = true →
      ∃ t, exec .keepTimer s = .next t ∧
        engineSent t (surveyPkt s.bus.node 0x08 [s.sur.sweep.getD 0#16]) .none ∧ only [.ula] s t) ∧
    ((s.sur.walk = .idle ∨ s.sur.walk = .done) → exec .keepTimer s = .next s) := by
  refine ⟨fun hi hd hn hu => ?_, fun h => onLink_eq hl (whenDo_fails (by rcases h with h | h <;> simp [h]))⟩
  obtain ⟨hsent, hparts⟩ := engineUp_sends hn hu (surveyPkt s.bus.node 0x08 [s.sur.sweep.getD 0#16]) .none
  exact ⟨_, onLink_eq hl (whenDo_holds (by simp [hi, hd])), hsent, hparts⟩

/-- Settles O43: it holds. A walk over a list of ports ends or stands at one of them, so that one which goes on after Dm
never stands at Dm, and no BREAK that waits for UP is lost. -/
theorem surveyWalk : Obligations.SurveyWalk := by
  refine ⟨token_walks, record_walks, fun s hl hw => onLink_eq hl (whenDo_fails (by simp [hw])), probeWait_ends,
    portTimeout_breaks, return_walks, fun x u s h => onLink_eq h.1 (onSurvey_some h.2), keep_goes⟩

end Sys2Proof.Machine
end

section
/-! PROOF. Holds and resumes of ports (O44). -/

namespace Sys2Proof.Machine

open Sys2Proof Sys2Proof.Safety

-- One proof after the other: side by side, the proofs of one text wait for each other in too many threads.
set_option Elab.async false


/-! ## Silence (R168, R169) -/

/-- The parts in which a hold of a port with a link shows. -/
def holdParts : List Part := [.bb, .pps, .aon, .doms, .ula, .que, .ports, .tt, .tb, .sur, .out]

/-- A port with a link goes down and is held. -/
theorem enterHold_rule {s : State} {n : PortN} (hu : isUp s.ports[n] = true) :
    (enterHold s n).aon.ports[n].hold = .idl ∧ (enterHold s n).ports[n].st = .detect ∧
      only holdParts s (enterHold s n) := by
  have hdet := (linkDown_turns s n 9).seq (detectNow_turns (linkDown s n 9) n false) (rs := holdParts)
  have hrun : enterHold s n = modAon (detectNow (linkDown s n 9) n false) n fun a => { a with hold := .idl, sdFell := !a.sd } :=
    congrArg (fun t => modAon t n _) (if_pos hu)
  rw [hrun]
  exact ⟨(congrArg AonPort.hold (modAon_self _ n _) :), detectNow_st _ n false, hdet.self.parts.seq (modAon_frame _ n _)⟩

theorem silence_asksStow (s : State) (hl : linkOn s = true) :
    (isUp s.ports[(0 : PortN)] = true →
      ∃ t, exec .upSuspendTimeout s = .next t ∧ t.aon.ports[(0 : PortN)].hold = .idl ∧
        t.ports[(0 : PortN)].st = .detect ∧ t.pm = { s.pm with suspendReq := true } ∧
        only [.pm, .bb, .pps, .aon, .doms, .ula, .que, .ports, .tt, .tb, .sur, .out] s t) ∧
    (isUp s.ports[(0 : PortN)] = false → exec .upSuspendTimeout s = .next s) := by
  refine ⟨fun hu => ?_, fun hu => onLink_eq hl (whenDo_fails hu)⟩
  obtain ⟨hhold, hst, hparts⟩ := enterHold_rule hu
  have htold := (raise_passes (enterHold s 0) { code := 0x11, src := 0 }).seq (bbLink_passes _ 0x35 0 0#16 0#16)
    (rs := [.bb, .aon, .doms, .que, .out])
  have hport := congrArg (fun v : Vector AonPort 17 => v[(0 : PortN)].hold) htold.holds
  have hall := hparts.seq htold.parts (rs := holdParts)
  refine ⟨_, onLink_eq hl (whenDo_holds hu), hport.trans hhold, ?_, ?_, (hall.seq (pm_frame _ _))⟩
  · exact (congrArg (fun v : Vector Port 17 => v[(0 : PortN)].st) (htold.parts .ports (by decide))).trans hst
  · exact congrArg (fun p : Pm => { p with suspendReq := true }) (hall .pm (by decide))

theorem silence_holds (m : DnN) (s : State) (hl : linkOn s = true) :
    (isUp s.ports[dnPort m] = true →
      ∃ t, exec (.portSilenceTimeout m) s = .next t ∧ t.aon.ports[dnPort m].hold = .idl ∧
        t.ports[dnPort m].st = .detect ∧
        only [.bb, .pps, .aon, .doms, .ula, .que, .ports, .tt, .tb, .sur, .out] s t) ∧
    (isUp s.ports[dnPort m] = false → exec (.portSilenceTimeout m) s = .next s) :=
  ⟨fun hu => ⟨_, onLink_eq hl (whenDo_holds hu), enterHold_rule hu⟩, fun hu => onLink_eq hl (whenDo_fails hu)⟩

theorem idl_ends (n : PortN) (s : State) (hl : linkOn s = true) :
    (s.aon.ports[n].hold = .idl → s.pm.suspendReq = false →
      ∃ t, exec (.holdIdlDone n) s = .next t ∧ t.aon.ports[n] = { s.aon.ports[n] with hold := .held } ∧
        (∀ k : PortN, k ≠ n → t.aon.ports[k] = s.aon.ports[k]) ∧ only [.aon] s t) ∧
    (s.aon.ports[n].hold ≠ .idl → exec (.holdIdlDone n) s = .next s) := by
  refine ⟨fun hh hr => ?_, fun hh => onLink_eq hl (whenDo_fails (by simpa using hh))⟩
  have hstay : idlDone s n = modAon s n fun a => { a with hold := .held } := if_neg (by simp [modAon, hr])
  exact ⟨_, onLink_eq hl ((whenDo_holds (by simpa using hh)).trans hstay), modAon_self s n _,
    fun k hk => modAon_ne s n k _ hk, modAon_frame s n _⟩

/-! ## SUSP (R172, R173) -/

theorem regAtWord_feather (n : PortN) : regAtWord ((portOff0 n + 0x38) / 4) = some (.port n .feather) := by
  revert n
  decide

theorem regRow_feather {p : Path} {s : State} (n : PortN) (v : Word) (h : reaches s p = true) :
    regRow p (portOff0 n + 0x38) v s = .next (featherWrite s n v) :=
  regRow_reaches s p _ v _ h (by unfold portOff0; omega) (by unfold portOff0; omega) (regAtWord_feather n)

/-- A suspended port without a link is held at once. -/
theorem suspHold_holds {s : State} {n : PortN} (hb : bit s.aon.ports[n].feather 3 = true)
    (hh : s.aon.ports[n].hold = .none) (hu : isUp s.ports[n] = false) (h1 : s.ports[n].st ≠ .disabled)
    (h2 : s.ports[n].st ≠ .disabling) : (suspHold s n).aon.ports[n].hold = .held := by
  unfold suspHold
  dsimp only
  rw [if_pos (by simp [hb, hh, hu, h1, h2, -Fin.getElem_fin])]
  exact (congrArg AonPort.hold (holdNow_aon _ n) :)

theorem susp_set (p : Path) (m : DnN) (s : State) (h : reaches s p = true) (hb : bit s.aon.ports[dnPort m].feather 3 = false) :
    ∃ t, exec (.portSuspend p m) s = .next t ∧ bit t.aon.ports[dnPort m].feather 3 = true ∧
      (isUp s.ports[dnPort m] = true → t.aon.ports[dnPort m].hold = s.aon.ports[dnPort m].hold) ∧
      (isUp s.ports[dnPort m] = false → s.aon.ports[dnPort m].hold = .none →
        s.ports[dnPort m].st ≠ .disabled → s.ports[dnPort m].st ≠ .disabling →
        t.aon.ports[dnPort m].hold = .held) ∧
      only [.pps, .aon, .ula, .ports, .sur, .out] s t := by
  have hset : bit ((s.aon.ports[dnPort m].feather ||| 0x0008#16) &&& featherMask (dnPort m)) 3 = true := by
    rw [feather_bit _ m 3 (by omega), bit_or, show bit 0x0008#16 3 = true by decide, Bool.or_true]
  have haon := feathered_aon s (dnPort m) (s.aon.ports[dnPort m].feather ||| 0x0008#16)
  have hframe := feathered_frame s (dnPort m) (s.aon.ports[dnPort m].feather ||| 0x0008#16)
  have hport := feathered_ports s (dnPort m) (s.aon.ports[dnPort m].feather ||| 0x0008#16) (dnPort m)
  have hst : (feathered s (dnPort m) (s.aon.ports[dnPort m].feather ||| 0x0008#16)).ports[dnPort m].st = s.ports[dnPort m].st :=
    (congrArg Port.st hport :)
  have hlink := isUp_of_standing hport
  have hbit := (congrArg (fun a : AonPort => bit a.feather 3) haon).trans hset
  have hhold : (feathered s (dnPort m) (s.aon.ports[dnPort m].feather ||| 0x0008#16)).aon.ports[dnPort m].hold =
    s.aon.ports[dnPort m].hold := (congrArg AonPort.hold haon :)
  obtain ⟨hfeather, hkept⟩ := suspHold_aon (feathered s (dnPort m) (s.aon.ports[dnPort m].feather ||| 0x0008#16)) (dnPort m)
  refine ⟨_, (regRow_feather (dnPort m) _ h).trans (congrArg Host.Outcome.next (featherWrite_suspends hset hb)), ?_,
    fun hu => (hkept (hlink.trans hu)).trans hhold, fun hu hn h1 h2 => ?_, hframe.seq (suspHold_frame _ _)⟩
  · rw [hfeather]
    exact hbit
  · exact suspHold_holds hbit (hhold.trans hn) (hlink.trans hu) (by rw [hst]; exact h1) (by rw [hst]; exact h2)

/-- A port whose SUSP is cleared: its beacon is driven after a hold. -/
def resumed1 (a : AonPort) : AonPort :=
  if a.hold = .none then a
  else match a.bcn with
    | .fwd _ => a
    | _ => { a with bcn := .drive }

theorem resumed1_rule (a : AonPort) : (resumed1 a).feather = a.feather ∧ (resumed1 a).hold = a.hold ∧
    (a.hold ≠ .none → a.bcn = .none → (resumed1 a).bcn = .drive) ∧ (a.hold = .none → (resumed1 a).bcn = a.bcn) := by
  unfold resumed1
  split
  · rename_i h
    exact ⟨rfl, rfl, fun hn => absurd h hn, fun _ => rfl⟩
  · rename_i h
    split
    · rename_i hf
      exact ⟨rfl, rfl, fun _ hb => by rw [hb] at hf; exact absurd hf (by simp), fun hn => absurd hn h⟩
    · exact ⟨rfl, rfl, fun _ _ => rfl, fun hn => absurd hn h⟩

theorem susp_cleared (p : Path) (m : DnN) (s : State) (h : reaches s p = true)
    (hb : bit s.aon.ports[dnPort m].feather 3 = true) :
    ∃ t, exec (.portResume p m) s = .next t ∧ bit t.aon.ports[dnPort m].feather 3 = false ∧
      t.aon.ports[dnPort m].hold = s.aon.ports[dnPort m].hold ∧
      (s.aon.ports[dnPort m].hold ≠ .none → s.aon.ports[dnPort m].bcn = .none →
        t.aon.ports[dnPort m].bcn = .drive) ∧
      (s.aon.ports[dnPort m].hold = .none → t.aon.ports[dnPort m].bcn = s.aon.ports[dnPort m].bcn) ∧
      only [.aon, .ports, .out] s t := by
  have hclear : bit (setBit s.aon.ports[dnPort m].feather 3 false &&& featherMask (dnPort m)) 3 = false := by
    rw [feather_bit _ m 3 (by omega), bit_setBit_self _ _ (by omega)]
  have haon := feathered_aon s (dnPort m) (setBit s.aon.ports[dnPort m].feather 3 false)
  have hframe := feathered_frame s (dnPort m) (setBit s.aon.ports[dnPort m].feather 3 false)
  have hres : (resumePort (feathered s (dnPort m) (setBit s.aon.ports[dnPort m].feather 3 false)) (dnPort m)).aon.ports[dnPort m] =
    resumed1 (feathered s (dnPort m) (setBit s.aon.ports[dnPort m].feather 3 false)).aon.ports[dnPort m] := modAon_self _ (dnPort m) _
  rw [haon] at hres
  obtain ⟨hfeather, hhold, hdrive, hstill⟩ := resumed1_rule { s.aon.ports[dnPort m] with
    feather := setBit s.aon.ports[dnPort m].feather 3 false &&& featherMask (dnPort m) }
  refine ⟨_, (regRow_feather (dnPort m) _ h).trans (congrArg Host.Outcome.next (featherWrite_resumes hclear hb)), ?_, ?_, ?_, ?_,
    hframe.seq (modAon_frame _ _ _)⟩
  · rw [hres, hfeather]
    exact hclear
  · rw [hres, hhold]
  · rw [hres]
    exact hdrive
  · rw [hres]
    exact hstill

/-! ## A beacon from above (R174 to R176) -/

theorem exec_onPower {s t : State} {f : State → State} (hp : powerOn s = true) (h : f s = t) : onPower s f = .next t := by
  rw [onPower_on s f hp, h]

/-- UP_BCN is asserted. -/
def upBcnOn (s : State) : State := { s with aon := { s.aon with upBcn := true } }

/-- The beacon from above is recognised: each held port takes its part. -/
def beaconTaken (s : State) : State :=
  { s with aon := { s.aon with
    upBcn := true
    bcnSeen := true
    ports := Vector.ofFn fun n : PortN => beaconPort (linkOn s) n s.aon.ports[n] } }

theorem beaconAbove_ignored {s : State} (h : s.aon.ports[(0 : PortN)].hold = .none ∨ s.aon.bcnSeen = true) :
    beaconAbove s = upBcnOn s := by
  unfold beaconAbove
  exact if_pos (by rcases h with h | h <;> simp [h, -Fin.getElem_fin])

theorem wakeHit_run {s : State} (h : s.pm.st = .run) (srcs : Word) (during : Bool) : wakeHit s srcs during = s := by
  unfold wakeHit
  dsimp only
  rw [h]
  exact ite_self s

theorem beaconAbove_taken {s : State} (hh : s.aon.ports[(0 : PortN)].hold ≠ .none) (hs : s.aon.bcnSeen = false)
    (hrun : s.pm.st = .run) : beaconAbove s = beaconTaken s := by
  have hgo : beaconAbove s = wakeHit (beaconTaken s) 0x0100#16 false := by
    unfold beaconAbove
    exact if_neg (by simp [hh, hs, -Fin.getElem_fin])
  exact hgo.trans (wakeHit_run (s := beaconTaken s) hrun _ _)

theorem beaconTaken_port (s : State) (m : DnN) :
    (beaconTaken s).aon.ports[dnPort m] = beaconPort (linkOn s) (dnPort m) s.aon.ports[dnPort m] :=
  Vector.getElem_ofFn (dnPort m).isLt

theorem beaconPort_forwards {run : Bool} {m : DnN} {a : AonPort} (hh : a.hold ≠ .none) (h3 : bit a.feather 3 = false)
    (h2 : bit a.feather 2 = true) (hb : a.bcn = .none) : (beaconPort run (dnPort m) a).bcn = .fwd false := by
  unfold beaconPort
  rw [if_neg (by simp [dnPort_ne_zero m, hh, h3]), if_pos h2, hb]

theorem beaconPort_drives {m : DnN} {a : AonPort} (hh : a.hold ≠ .none) (h3 : bit a.feather 3 = false)
    (h2 : bit a.feather 2 = false) (hb : a.bcn = .none) : (beaconPort true (dnPort m) a).bcn = .drive := by
  unfold beaconPort
  rw [if_neg (by simp [dnPort_ne_zero m, hh, h3]), if_neg (by simp [h2]), if_neg (by simp [hb]), if_pos rfl]

theorem beacon_taken (s : State) (hp : powerOn s = true) :
    ((s.aon.ports[(0 : PortN)].hold = .none ∨ s.aon.bcnSeen = true) →
      ∃ t, exec .beaconFromAbove s = .next t ∧ t.aon = { s.aon with upBcn := true } ∧ only [.aon] s t) ∧
    (s.aon.ports[(0 : PortN)].hold ≠ .none → s.aon.bcnSeen = false → s.pm.st = .run →
      ∃ t, exec .beaconFromAbove s = .next t ∧ t.aon.upBcn = true ∧ t.aon.bcnSeen = true ∧
        (∀ m : DnN, s.aon.ports[dnPort m].hold ≠ .none → bit s.aon.ports[dnPort m].feather 3 = false →
          (bit s.aon.ports[dnPort m].feather 2 = true → s.aon.ports[dnPort m].bcn = .none →
            t.aon.ports[dnPort m].bcn = .fwd false) ∧
          (bit s.aon.ports[dnPort m].feather 2 = false → s.aon.ports[dnPort m].bcn = .none → linkOn s = true →
            t.aon.ports[dnPort m].bcn = .drive)) ∧
        only [.aon] s t) := by
  refine ⟨fun h => ⟨upBcnOn s, exec_onPower hp (beaconAbove_ignored h), rfl, aon_frame s _⟩, fun hh hs hrun => ?_⟩
  refine ⟨beaconTaken s, exec_onPower hp (beaconAbove_taken hh hs hrun), rfl, rfl, fun m hm h3 => ⟨fun h2 hb => ?_,
    fun h2 hb hl => ?_⟩, aon_frame s _⟩
  · rw [beaconTaken_port]
    exact beaconPort_forwards hm h3 h2 hb
  · rw [beaconTaken_port, hl]
    exact beaconPort_drives hm h3 h2 hb

/-! ## The end of UP's hold (R175 to R177) -/

theorem raise_upBcn (s : State) (e : Ev) : (raise s e).aon.upBcn = s.aon.upBcn := by
  unfold raise
  split
  · rfl
  · show (xqPush s.aon e).upBcn = _
    unfold xqPush
    split <;> rfl

theorem upResumed_upBcn (s : State) : (upResumed s).aon.upBcn = s.aon.upBcn := by
  have hraise := raise_upBcn { s with aon := { s.aon with bcnSeen := false } } { code := 0x12, src := 0 }
  unfold upResumed
  dsimp only
  split
  · rw [bbLink_only _ _ _ _ _ .aon (by decide)]
    exact hraise
  · exact hraise

/-- UP's hold ends, and its SD stays. -/
theorem endUpHold_rule (s : State) : (endUpHold s).aon.ports[(0 : PortN)].hold = .none ∧
    (endUpHold s).aon.ports[(0 : PortN)].sd = s.aon.ports[(0 : PortN)].sd ∧
    (endUpHold s).aon.upBcn = s.aon.upBcn ∧ only resumedParts s (endUpHold s) := by
  have hres := upResumed_passes (modAon s 0 fun a => { a with hold := .none, sdFell := false })
  have hport := (congrArg (fun v : Vector AonPort 17 => v[(0 : PortN)]) hres.holds).trans (modAon_self s 0 _)
  exact ⟨(congrArg AonPort.hold hport :), (congrArg AonPort.sd hport :), upResumed_upBcn _, (modAon_frame s 0 _).seq hres.parts⟩

/-- UP_BCN is deasserted, and the forwarder follows. -/
def upBcnOff (s : State) : State :=
  { s with aon := { s.aon with upBcn := false, bcnSeen := false, ports := s.aon.ports.map fwdEnd } }

theorem upBcnFall_ends {s : State} (hb : s.aon.upBcn = true) (hh : s.aon.ports[(0 : PortN)].hold ≠ .none) :
    upBcnFall s = endUpHold (upBcnOff s) := if_pos (by simp [hb, hh, -Fin.getElem_fin])

theorem upBcnFall_stays {s : State} (h : s.aon.upBcn = false ∨ s.aon.ports[(0 : PortN)].hold = .none) :
    upBcnFall s = upBcnOff s := if_neg (by rcases h with h | h <;> simp [h, -Fin.getElem_fin])

theorem upBcn_falls (s : State) (hp : powerOn s = true) :
    (s.aon.upBcn = true → s.aon.ports[(0 : PortN)].hold ≠ .none →
      ∃ t, exec .upBcnDeassert s = .next t ∧ t.aon.ports[(0 : PortN)].hold = .none ∧ t.aon.upBcn = false ∧
        only [.bb, .aon, .doms, .que, .out] s t) ∧
    ((s.aon.upBcn = false ∨ s.aon.ports[(0 : PortN)].hold = .none) →
      ∃ t, exec .upBcnDeassert s = .next t ∧ t.aon.upBcn = false ∧ t.aon.bcnSeen = false ∧ only [.aon] s t) := by
  refine ⟨fun hb hh => ?_, fun h => ⟨upBcnOff s, exec_onPower hp (upBcnFall_stays h), rfl, rfl, aon_frame s _⟩⟩
  obtain ⟨hhold, -, hup, hparts⟩ := endUpHold_rule (upBcnOff s)
  exact ⟨_, exec_onPower hp (upBcnFall_ends hb hh), hhold, hup, (aon_frame s _).seq hparts⟩

/-- Each quiet downstream port is taken in turn: UP's own entry stays. -/
theorem quiet_rule (s : State) (f : AonPort → AonPort) :
    (forEach dnAll (fun a m => modAon a (dnPort m) f) s).aon.ports[(0 : PortN)] = s.aon.ports[(0 : PortN)] ∧
      only [.aon] s (forEach dnAll (fun a m => modAon a (dnPort m) f) s) := by
  refine ⟨?_, forEach_frame dnAll _ s fun a m => modAon_frame a (dnPort m) f⟩
  have hlist : ∀ (l : List DnN) (a : State),
      (forEach l (fun a m => modAon a (dnPort m) f) a).aon.ports[(0 : PortN)] = a.aon.ports[(0 : PortN)] := fun l => by
    induction l with
    | nil => exact fun _ => rfl
    | cons m l ih => exact fun a => (ih _).trans (modAon_ne a (dnPort m) 0 f (Ne.symm (dnPort_ne_zero m)))
  exact hlist dnAll s

theorem upSdEnd_rule (s : State) : (upSdEnd s).aon.ports[(0 : PortN)].hold = .none ∧
    (upSdEnd s).aon.ports[(0 : PortN)].sd = s.aon.ports[(0 : PortN)].sd ∧ only resumedParts s (upSdEnd s) := by
  obtain ⟨hhold, hsd, -, hparts⟩ := endUpHold_rule s
  unfold upSdEnd
  dsimp only
  split
  · obtain ⟨hport, haon⟩ := quiet_rule (endUpHold s) fun p => if isQuiet p then { p with bcn := .drive } else p
    exact ⟨(congrArg AonPort.hold hport).trans hhold, (congrArg AonPort.sd hport).trans hsd, hparts.seq haon⟩
  · obtain ⟨hport, haon⟩ := quiet_rule (endUpHold s) fun p => if isQuiet p then { p with bcnDue := true } else p
    exact ⟨(congrArg AonPort.hold hport).trans hhold, (congrArg AonPort.sd hport).trans hsd, hparts.seq haon⟩

theorem upHold_ends (s : State) (hp : powerOn s = true) :
    (s.aon.ports[(0 : PortN)].hold ≠ .none → s.aon.ports[(0 : PortN)].sdFell = true → s.aon.upBcn = false →
      ∃ t, exec .upHoldSdEnd s = .next t ∧ t.aon.ports[(0 : PortN)].hold = .none ∧
        t.aon.ports[(0 : PortN)].sd = true ∧ only [.bb, .aon, .doms, .que, .out] s t) ∧
    ((s.aon.ports[(0 : PortN)].hold = .none ∨ s.aon.ports[(0 : PortN)].sdFell = false ∨ s.aon.upBcn = true) →
      ∃ t, exec .upHoldSdEnd s = .next t ∧
        t.aon.ports[(0 : PortN)] = { s.aon.ports[(0 : PortN)] with sd := true } ∧ only [.aon] s t) := by
  have hport := modAon_self s 0 fun a => { a with sd := true }
  have hframe := modAon_frame s 0 fun a => { a with sd := true }
  constructor
  · intro hh hf hb
    obtain ⟨hhold, hsd, hparts⟩ := upSdEnd_rule (modAon s 0 fun a => { a with sd := true })
    exact ⟨_, exec_onPower hp (whenDo_holds (by simp [hh, hf, hb, -Fin.getElem_fin])), hhold,
      hsd.trans (congrArg AonPort.sd hport), hframe.seq hparts⟩
  · intro h
    refine ⟨_, exec_onPower hp (whenDo_fails ?_), hport, hframe⟩
    rcases h with h | h | h <;> simp [h, -Fin.getElem_fin]

/-! ## The end of a driven beacon (R173, R176) -/

theorem bcn_over (m : DnN) (s : State) (hp : powerOn s = true) :
    ∃ t, exec (.bcnDriveEnd m) s = .next t ∧
      (s.aon.ports[dnPort m].bcn = .drive → t.aon.ports[dnPort m].bcn = .none ∧
        (bit s.aon.ports[dnPort m].feather 3 = false → t.aon.ports[dnPort m].hold = .none)) ∧
      (∀ d, s.aon.ports[dnPort m].bcn = .fwd d → s.aon.upBcn = true →
        t.aon.ports[dnPort m].bcn = .fwd true ∧ t.aon.ports[dnPort m].hold = s.aon.ports[dnPort m].hold) ∧
      only [.aon] s t := by
  have hport := modAon_self s (dnPort m) (bcnOver s.aon.upBcn)
  refine ⟨_, exec_onPower hp rfl, fun hd => ?_, fun d hd hb => ?_, modAon_frame s (dnPort m) _⟩
  · have hover : bcnOver s.aon.upBcn s.aon.ports[dnPort m] = endDnHold s.aon.ports[dnPort m] := by rw [bcnOver, hd]
    rw [hport, hover]
    exact ⟨rfl, fun h3 => if_neg (Bool.eq_false_iff.mp h3)⟩
  · have hover : bcnOver s.aon.upBcn s.aon.ports[dnPort m] = { s.aon.ports[dnPort m] with bcn := .fwd true } := by
      rw [bcnOver, hd, hb]
      rfl
    rw [hport, hover]
    exact ⟨rfl, rfl⟩

/-- Settles O44: it holds. Each row acts on the hold and the beacon of its own port; what is raised beside it leaves both. -/
theorem holdsAndResumes : Obligations.HoldsAndResumes := by
  refine ⟨silence_asksStow, silence_holds, idl_ends, fun p m s h => ⟨susp_set p m s h, susp_cleared p m s h⟩, fun s hp => ?_,
    bcn_over⟩
  obtain ⟨hignored, htaken⟩ := beacon_taken s hp
  obtain ⟨hends, hstays⟩ := upBcn_falls s hp
  obtain ⟨hsd, hnone⟩ := upHold_ends s hp
  exact ⟨hignored, htaken, hends, hstays, hsd, hnone⟩

end Sys2Proof.Machine
end

section
/-! PROOF. Link feathering (O45). -/

namespace Sys2Proof.Machine

open Sys2Proof Sys2Proof.Safety

-- One proof after the other: side by side, the proofs of one text wait for each other in too many threads.
set_option Elab.async false


/-! ## A transmitter that wakes or goes dark (R180, R182) -/

theorem darken_rule (s : State) (n : PortN) : (darken s n).ports[n] = { s.ports[n] with dark := true } ∧
    portsBut n s (darken s n) ∧ only [.ports] s (darken s n) :=
  ⟨modPort_self s n _, portsBut_modPort s n _, modPort_only s n _⟩

/-- A dark transmitter wakes: IDL goes out, and the credits that waited. -/
theorem wakeTx_dark {s : State} {n : PortN} (hd : s.ports[n].dark = true) : (wakeTx s n).ports[n].dark = false ∧
    (wakeTx s n).ports[n].crdP = 0 ∧ (wakeTx s n).ports[n].crdN = 0 ∧ .idl n (wakeWords s.ports[n]) ∈ (wakeTx s n).out ∧
    portsBut n s (wakeTx s n) ∧ only [.ports, .out] s (wakeTx s n) := by
  have hself := wakeTx_self s n
  have hwoken : woken s.ports[n] = { s.ports[n] with
      dark := false, crdP := 0, crdN := 0
      retP := (s.ports[n].retP + s.ports[n].crdP) % 65536
      retN := (s.ports[n].retN + s.ports[n].crdN) % 65536 } := if_pos hd
  rw [hwoken] at hself
  have hout : .idl n (wakeWords s.ports[n]) ∈ (wakeTx s n).out := by
    unfold wakeTx
    rw [if_pos hd]
    exact (sendCrd_passes _ n).outs.subset List.mem_cons_self
  exact ⟨(congrArg Port.dark hself :), (congrArg Port.crdP hself :), (congrArg Port.crdN hself :), hout, wakeTx_others s n,
    (wakeTx_passes s n).parts⟩

theorem wakeTx_lit {s : State} {n : PortN} (hd : s.ports[n].dark = false) : wakeTx s n = s := if_neg (by simpa using hd)

/-! ## The rows -/

/-- The idle timer may darken port n: outside the periodic part, and not too near a window or a catch. -/
def mayDarken (n : PortN) (s : State) : Prop :=
  (schedRuns s n = true → inPeriodic s n (strokePos s) = false ∧ keepsLit s n = false) ∧
    (schedRuns s n = false → catchSoon s n (wakeTicks s n) = false)

theorem mayDarken_iff (n : PortN) (s : State) : (if schedRuns s n then !inPeriodic s n (strokePos s) && !keepsLit s n
    else !catchSoon s n (wakeTicks s n)) = true ↔ mayDarken n s := by
  unfold mayDarken
  cases schedRuns s n <;> simp

theorem idle_darkens (n : PortN) (s : State) (hl : linkOn s = true) :
    (feathers s.ports[n] s.aon.ports[n] = true → bit s.aon.ports[n].feather 1 = true → txIdle s n = true → mayDarken n s →
      ∃ t, exec (.txIdleDark n) s = .next t ∧ t.ports[n] = { s.ports[n] with dark := true } ∧
        portsBut n s t ∧ only [.ports] s t) ∧
    ((feathers s.ports[n] s.aon.ports[n] = false ∨ bit s.aon.ports[n].feather 1 = false ∨ txIdle s n = false ∨
        ¬ mayDarken n s) → exec (.txIdleDark n) s = .next s) := by
  constructor
  · intro hf h1 hi hm
    refine ⟨_, onLink_eq hl (whenDo_holds ?_), darken_rule s n⟩
    rw [hf, h1, hi, (mayDarken_iff n s).mpr hm]
    rfl
  · intro h
    refine onLink_eq hl (whenDo_fails ?_)
    rcases h with h | h | h | h
    · rw [h]
      rfl
    · rw [h, Bool.and_false]
      rfl
    · rw [h, Bool.and_false]
      rfl
    · rw [Bool.eq_false_iff.mpr (mt (mayDarken_iff n s).mp h), Bool.and_false]

theorem work_wakes (n : PortN) (s : State) (hl : linkOn s = true) :
    (s.ports[n].dark = true → txIdle s n = false →
      ∃ t, exec (.txWake n) s = .next t ∧ t.ports[n].dark = false ∧ .idl n (wakeWords s.ports[n]) ∈ t.out ∧
        portsBut n s t ∧ only [.ports, .out] s t) ∧
    ((s.ports[n].dark = false ∨ txIdle s n = true) → exec (.txWake n) s = .next s) := by
  constructor
  · intro hd hi
    obtain ⟨hlit, -, -, hout, hbut, hparts⟩ := wakeTx_dark hd
    exact ⟨_, onLink_eq hl (whenDo_holds (by simp [hi])), hlit, hout, hbut, hparts⟩
  · intro h
    cases hi : txIdle s n
    · have hd := h.resolve_right (by simp [hi])
      exact onLink_eq hl ((whenDo_holds (by simp [hi])).trans (wakeTx_lit hd))
    · exact onLink_eq hl (whenDo_fails (by simp [hi]))

theorem dark_ends (n : PortN) (s : State) (hl : linkOn s = true) :
    (s.ports[n].dark = true →
      ∃ t, exec (.darkLimit n) s = .next t ∧ t.ports[n].dark = true ∧ t.ports[n].crdP = 0 ∧ t.ports[n].crdN = 0 ∧
        .skp n ∈ t.out ∧ portsBut n s t ∧ only [.ports, .out] s t) ∧
    (s.ports[n].dark = false → exec (.darkLimit n) s = .next s) := by
  refine ⟨fun hd => ?_, fun hd => onLink_eq hl (whenDo_fails hd)⟩
  obtain ⟨-, hp, hn, -, hbut, hparts⟩ := wakeTx_dark hd
  obtain ⟨hport, hbut', hparts'⟩ := darken_rule (emit (wakeTx s n) (.skp n)) n
  exact ⟨_, onLink_eq hl (whenDo_holds hd), (congrArg Port.dark hport :), (congrArg Port.crdP hport :).trans hp,
    (congrArg Port.crdN hport :).trans hn, List.mem_cons_self, fun k hk => (hbut' k hk).trans (hbut k hk),
    (hparts.seq (emit_only _ _) (rs := [.ports, .out])).seq hparts'⟩

theorem window_wakes (n : PortN) (s : State) (hl : linkOn s = true) (hd : s.ports[n].dark = true)
    (h : (schedRuns s n = true ∧ inWindow s n (strokePos s + wakeTicks s n) = true) ∨
      catchSoon s n (wakeTicks s n) = true) :
    ∃ t, exec (.schedPrewake n) s = .next t ∧ t.ports[n].dark = false ∧
      .idl n (wakeWords s.ports[n]) ∈ t.out ∧ portsBut n s t ∧ only [.ports, .out] s t := by
  obtain ⟨hlit, -, -, hout, hbut, hparts⟩ := wakeTx_dark hd
  refine ⟨_, onLink_eq hl (whenDo_holds ?_), hlit, hout, hbut, hparts⟩
  rcases h with ⟨hr, hw⟩ | h
  · rw [hr, hw]
    rfl
  · rw [h, Bool.or_true]

theorem window_darkens (n : PortN) (s : State) (hl : linkOn s = true) :
    (schedRuns s n = true → inPeriodic s n (strokePos s) = true → keepsLit s n = false → txIdle s n = true →
      ∃ t, exec (.schedWindowEnd n) s = .next t ∧ t.ports[n] = { s.ports[n] with dark := true } ∧
        portsBut n s t ∧ only [.ports] s t) ∧
    ((schedRuns s n = false ∨ inPeriodic s n (strokePos s) = false ∨ keepsLit s n = true ∨ txIdle s n = false) →
      exec (.schedWindowEnd n) s = .next s) := by
  constructor
  · intro hr hp hk hi
    refine ⟨_, onLink_eq hl (whenDo_holds ?_), darken_rule s n⟩
    rw [hr, hp, hk, hi]
    rfl
  · intro h
    refine onLink_eq hl (whenDo_fails ?_)
    rcases h with h | h | h | h <;> simp [h]

/-- Settles O45: it holds. Going dark changes one bit of the port; waking sends IDL and the credits that waited. -/
theorem feathering : Obligations.Feathering := by
  exact ⟨idle_darkens, work_wakes, dark_ends, window_wakes, window_darkens⟩

end Sys2Proof.Machine
end

section
/-! SUPPORT. One port power switch: what its operations do to it, and what the budget pass leaves. -/

namespace Sys2Proof.Machine

open Sys2Proof Sys2Proof.Safety

-- One proof after the other: side by side, the proofs of one text wait for each other in too many threads.
set_option Elab.async false


/-! ## Changes of one switch -/

theorem vMod_vMod {α : Type} {k : Nat} (v : Vector α k) (i : Fin k) (f g : α → α) :
    vMod (vMod v i f) i g = vMod v i fun a => g (f a) := by
  refine Vector.ext fun j hj => ?_
  by_cases h : j = i.val
  · subst h
    exact (vMod_get_self (vMod v i f) i g).trans
      ((congrArg g (vMod_get_self v i f)).trans (vMod_get_self v i fun a => g (f a)).symm)
  · have hne : (⟨j, hj⟩ : Fin k) ≠ i := fun h' => h (congrArg Fin.val h')
    exact (vMod_get_ne (vMod v i f) i ⟨j, hj⟩ g hne).trans
      ((vMod_get_ne v i ⟨j, hj⟩ f hne).trans (vMod_get_ne v i ⟨j, hj⟩ (fun a => g (f a)) hne).symm)

theorem vMod_id {α : Type} {k : Nat} (v : Vector α k) (i : Fin k) {f : α → α} (h : f v[i] = v[i]) : vMod v i f = v := by
  refine Vector.ext fun j hj => ?_
  by_cases hji : j = i.val
  · subst hji
    exact (vMod_get_self v i f).trans h
  · exact vMod_get_ne v i ⟨j, hj⟩ f fun h' => hji (congrArg Fin.val h')

theorem modPps_modPps (s : State) (m : DnN) (f g : Pps → Pps) :
    modPps (modPps s m f) m g = modPps s m fun p => g (f p) :=
  congrArg (fun v : Vector Pps 16 => { s with pps := v }) (vMod_vMod s.pps m f g)

theorem modPps_id {s : State} {m : DnN} {f : Pps → Pps} (h : f s.pps[m] = s.pps[m]) : modPps s m f = s :=
  congrArg (fun v : Vector Pps 16 => { s with pps := v }) (vMod_id s.pps m h)

theorem modPps_rule (s : State) (m : DnN) (f : Pps → Pps) : (modPps s m f).pps[m] = f s.pps[m] ∧
    ppsBut m s (modPps s m f) ∧ only [.pps] s (modPps s m f) :=
  ⟨modPps_self s m f, ppsBut_modPps s m f, modPps_frame s m f⟩

theorem ppsBut_of_frame {ps : List Part} {s t : State} {m : DnN} (h : only ps s t) (hp : .pps ∉ ps := by decide) :
    ppsBut m s t := fun x _ => congrArg (fun v : Vector Pps 16 => v[x]) (h .pps hp)

theorem ppsBut.seq {m : DnN} {s t u : State} (h : ppsBut m s t) (k : ppsBut m t u) : ppsBut m s u :=
  fun x hx => (k x hx).trans (h x hx)

/-- Switch m of a state whose other parts have changed. -/
theorem pps_of_frame {ps : List Part} {s t : State} (h : only ps s t) (m : DnN) (hp : .pps ∉ ps := by decide) :
    t.pps[m] = s.pps[m] := congrArg (fun v : Vector Pps 16 => v[m]) (h .pps hp)

/-! ## A switch in no gang (R313, R314) -/

/-- The legs depend on the gangs and on what is fitted alone. -/
theorem gangLegs_of {s t : State} (hg : t.ppsg.gang = s.ppsg.gang) (hf : ∀ x : DnN, t.pps[x].fitted = s.pps[x].fitted)
    (m : DnN) : gangLegs t m = gangLegs s m := by
  unfold gangLegs
  rw [hg]
  exact congrArg (fun f => (gangMembers s.ppsg.gang m).filter f) (funext fun x => by rw [hf x])

theorem single_of {s t : State} {m : DnN} (h : single s m) (hg : t.ppsg.gang = s.ppsg.gang)
    (hf : ∀ x : DnN, t.pps[x].fitted = s.pps[x].fitted) : single t m :=
  ⟨(hf m).trans h.1, by rw [hg]; exact h.2.1, (gangLegs_of hg hf m).trans h.2.2⟩

theorem modLegs_single {s : State} {m : DnN} (h : single s m) (f : Pps → Pps) : modLegs s m f = modPps s m f := by
  unfold modLegs
  rw [h.2.2]
  exact if_neg (by simp)

theorem isLead_single {s : State} {m : DnN} (h : single s m) : isLead s.ppsg.gang m = true := by
  simp [isLead, h.2.1]

theorem switched_single {s : State} {m : DnN} (h : single s m) : switched s m = true := by
  rw [switched, h.1, isLead_single h]
  rfl

theorem leadNow_single {s : State} {m : DnN} (h : single s m) : leadNow s m = m := h.2.1

/-! ## What the budget pass leaves of a switch that neither waits nor asks (R296) -/

/-- From `s` to `t` other switches than m have acted. -/
structure Apart (m : DnN) (s t : State) : Prop where
  pps : t.pps[m] = s.pps[m]
  gang : t.ppsg = s.ppsg

theorem Apart.refl (m : DnN) (s : State) : Apart m s s := ⟨rfl, rfl⟩

theorem Apart.seq {m : DnN} {s t u : State} (h : Apart m s t) (k : Apart m t u) : Apart m s u :=
  ⟨k.pps.trans h.pps, k.gang.trans h.gang⟩

theorem apart_ite {m : DnN} (c : Prop) [Decidable c] {s t u : State} (ht : Apart m s t) (hu : Apart m s u) :
    Apart m s (if c then t else u) := by
  split <;> assumption

theorem apart_of_frame {ps : List Part} {s t : State} (h : only ps s t) (m : DnN) (hp : .pps ∉ ps := by decide)
    (hg : .ppsg ∉ ps := by decide) : Apart m s t := ⟨pps_of_frame h m hp, h .ppsg hg⟩

theorem modPps_apart {m k : DnN} (h : m ≠ k) (s : State) (f : Pps → Pps) : Apart m s (modPps s k f) :=
  ⟨modPps_ne s k m f h, rfl⟩

theorem detectNow_apart {m k : DnN} (h : m ≠ k) (s : State) (wait : Bool) : Apart m s (detectNow s (dnPort k) wait) := by
  have hport := apart_of_frame (modPort_only s (dnPort k) (portDetect wait)) m
  unfold detectNow
  dsimp only
  split
  · exact hport
  · exact (hport.seq (modPps_apart h _ _)).seq (apart_of_frame (surveyDetach_passes _ _).parts m)

theorem suspHold_apart {m k : DnN} (h : m ≠ k) (s : State) : Apart m s (suspHold s (dnPort k)) := by
  unfold suspHold
  exact apart_ite _ ((apart_ite _ (Apart.refl m s) (detectNow_apart h s false)).seq
    (apart_of_frame (modAon_frame _ _ _) m)) (Apart.refl m s)

theorem startTrial_apart {m k : DnN} (h : m ≠ k) (s : State) (r : Nat) : Apart m s (startTrial s (dnPort k) r) := by
  unfold startTrial
  exact ((apart_of_frame (modPort_only s (dnPort k) _) m).seq (apart_of_frame (sendTs2_passes _ (dnPort k) _ _ _).parts m)).seq
    (suspHold_apart h _)

theorem retrain_apart {m k : DnN} (h : m ≠ k) (s : State) (reason : Nat) : Apart m s (retrain s (dnPort k) reason) := by
  have hsent := apart_of_frame (retrainSent_passes s (dnPort k) reason).parts m
  have hdown := hsent.seq (apart_of_frame (linkDown_turns (retrainSent s (dnPort k) reason) (dnPort k) reason).self.parts m)
  exact (hdown.seq (apart_of_frame (modPort_only _ (dnPort k) portAlign) m)).seq (suspHold_apart h _)

theorem reeval_apart {m k : DnN} (h : m ≠ k) (s : State) : Apart m s (reeval s (dnPort k)) := by
  have hflush : Apart m s (flushTs (endTx s (dnPort k) 3) (dnPort k)) :=
    (apart_of_frame (endTx_passes s (dnPort k) 3).parts m).seq (apart_of_frame (flushTs_passes _ (dnPort k)).parts m)
  unfold reeval
  refine apart_ite _ (Apart.refl m s) (apart_ite _ ?_ (apart_ite _ (apart_ite _ (Apart.refl m s)
    (hflush.seq (retrain_apart h _ 7))) (Apart.refl m s)))
  split
  · exact apart_ite _ ((apart_of_frame (linkDown_turns s (dnPort k) 10).self.parts m).seq (startTrial_apart h _ _))
      (Apart.refl m s)
  · exact apart_of_frame (modPort_only s (dnPort k) _) m

/-- A switch that leads itself is no leg of another. -/
theorem not_leg {g : Word} {s : State} (hg : s.ppsg.gang = g) {m k : DnN} (hm : leadOf g m = m) (hk : leadOf g k = k)
    (h : m ≠ k) : m ∉ gangLegs s k := by
  intro hmem
  have hsame := (List.mem_filter.mp (List.mem_filter.mp hmem).1).2
  rw [hg] at hsame
  simp only [decide_eq_true_eq] at hsame
  exact h (hm.symm.trans (hsame.trans hk))

theorem modLegs_apart {m k : DnN} (s : State) (h : m ∉ gangLegs s k) (f : Pps → Pps) : Apart m s (modLegs s k f) := by
  have hlist : ∀ (l : List DnN) (a : State), m ∉ l →
      Apart m a (forEach l (fun a x => if s.pps[x].lost && x != k then a else modPps a x f) a) := fun l => by
    induction l with
    | nil => exact fun a _ => Apart.refl m a
    | cons x l ih =>
      intro a hl
      obtain ⟨hx, hrest⟩ := not_or.mp (mt List.mem_cons.mpr hl)
      exact (apart_ite _ (Apart.refl m a) (modPps_apart hx a f)).seq (ih _ hrest)
  exact hlist _ s h

theorem passWait_apart {m k : DnN} (s : State) (hm : leadOf s.ppsg.gang m = m) (h : m ≠ k) : Apart m s (passWait s k) := by
  have hrsv := modPps_apart h s fun q => { q with rsv := true, due := true }
  unfold passWait
  dsimp only
  split
  · rename_i hgo
    have hk : leadOf s.ppsg.gang k = k := by
      simp only [Bool.and_eq_true, isLead, decide_eq_true_eq] at hgo
      exact hgo.1.2
    exact apart_ite _ (hrsv.seq (modLegs_apart (modPps s k fun q => { q with rsv := true, due := true })
      (not_leg (s := modPps s k fun q => { q with rsv := true, due := true }) rfl hm hk h) _)) hrsv
  · exact Apart.refl m s

theorem passPend_apart {m k : DnN} (h : m ≠ k) (s : State) : Apart m s (passPend s k) := by
  unfold passPend
  exact apart_ite _ (apart_ite _ (((modPps_apart h s _).seq (apart_of_frame (evBudget_passes _ _).parts m)).seq
    (reeval_apart h _)) (Apart.refl m s)) (Apart.refl m s)

theorem passTurn_quiet {m : DnN} {s : State} (hw : s.pps[m].st ≠ .wait) (hp : s.pps[m].pend = false) :
    passPend (passWait s m) m = s := by
  have hwait : passWait s m = s := if_neg (by simp [hw, -Fin.getElem_fin])
  rw [hwait]
  exact if_neg (Bool.eq_false_iff.mp hp)

/-- The budget pass leaves a switch in no gang that neither waits nor has a class undecided. -/
theorem budgetPass_apart {s : State} {m : DnN} (hm : leadOf s.ppsg.gang m = m) (hw : s.pps[m].st ≠ .wait)
    (hp : s.pps[m].pend = false) : Apart m s (budgetPass s) := by
  have hlist : ∀ (l : List DnN) (a : State), Apart m s a → Apart m s (forEach l (fun a k => passPend (passWait a k) k) a) :=
    fun l => by
      induction l with
      | nil => exact fun a h => h
      | cons k l ih =>
        intro a h
        refine ih _ ?_
        by_cases hk : m = k
        · subst hk
          show Apart m s (passPend (passWait a m) m)
          rw [passTurn_quiet (by rw [h.pps]; exact hw) (by rw [h.pps]; exact hp)]
          exact h
        · exact (h.seq (passWait_apart a (by rw [h.gang]; exact hm) hk)).seq (passPend_apart hk _)
  exact hlist dnAll s (Apart.refl m s)

/-- Releasing the allocation of a switch that does not wait leaves it at that. -/
theorem releaseAll_rule {s : State} {m : DnN} (hm : leadOf s.ppsg.gang m = m) (hw : s.pps[m].st ≠ .wait) :
    (releaseAll s m).pps[m] = release s.pps[m] ∧ (releaseAll s m).ppsg = s.ppsg ∧ only errParts s (releaseAll s m) := by
  have hself := modPps_self s m release
  have hev : Apart m (modPps s m release)
      (if s.pps[m].pend then evBudget (modPps s m release) (dnPort m).val else modPps s m release) :=
    apart_ite _ (apart_of_frame (evBudget_passes _ _).parts m) (Apart.refl m _)
  have hpps := hev.pps.trans hself
  have hgang : (if s.pps[m].pend then evBudget (modPps s m release) (dnPort m).val else modPps s m release).ppsg = s.ppsg :=
    hev.gang
  refine ⟨?_, ?_, (releaseAll_allots s m).parts⟩
  · unfold releaseAll
    dsimp only
    split
    · exact hpps
    · exact (budgetPass_apart (by rw [hgang]; exact hm) (by rw [hpps]; exact hw) (by rw [hpps]; rfl)).pps.trans hpps
  · exact (releaseAll_allots s m).parts .ppsg (by decide)

end Sys2Proof.Machine
end

section
/-! SUPPORT. A switch in no gang: what its starts, its stops and its faults make of it. -/

namespace Sys2Proof.Machine

open Sys2Proof Sys2Proof.Safety

-- One proof after the other: side by side, the proofs of one text wait for each other in too many threads.
set_option Elab.async false


/-! ## What a change does to one switch -/

/-- From `s` to `t` switch m becomes `f` of itself; no other switch changes, and of the other parts only `ps`. -/
structure Switches (ps : List Part) (m : DnN) (f : Pps → Pps) (s t : State) : Prop where
  self : t.pps[m] = f s.pps[m]
  others : ppsBut m s t
  gang : t.ppsg = s.ppsg
  parts : only ps s t

theorem Switches.refl (ps : List Part) (m : DnN) (s : State) : Switches ps m (fun p => p) s s :=
  ⟨rfl, fun _ _ => rfl, rfl, only_refl _ s⟩

theorem Switches.seq {ps qs rs : List Part} {m : DnN} {f g : Pps → Pps} {s t u : State} (h : Switches ps m f s t)
    (k : Switches qs m g t u) (hp : ∀ p ∈ ps, p ∈ rs := by decide) (hq : ∀ q ∈ qs, q ∈ rs := by decide) :
    Switches rs m (fun p => g (f p)) s u :=
  ⟨k.self.trans (congrArg g h.self), ppsBut.seq h.others k.others, k.gang.trans h.gang, h.parts.seq k.parts hp hq⟩

theorem Switches.widen {ps rs : List Part} {m : DnN} {f : Pps → Pps} {s t : State} (h : Switches ps m f s t)
    (hp : ∀ p ∈ ps, p ∈ rs := by decide) : Switches rs m f s t := ⟨h.self, h.others, h.gang, h.parts.widen hp⟩

theorem switches_of_frame {ps : List Part} {s t : State} (h : only ps s t) (m : DnN) (hp : .pps ∉ ps := by decide)
    (hg : .ppsg ∉ ps := by decide) : Switches ps m (fun p => p) s t :=
  ⟨pps_of_frame h m hp, ppsBut_of_frame h hp, h .ppsg hg, h⟩

theorem modPps_switches (s : State) (m : DnN) (f : Pps → Pps) : Switches [.pps] m f s (modPps s m f) :=
  ⟨modPps_self s m f, ppsBut_modPps s m f, rfl, modPps_frame s m f⟩

theorem Switches.fitted {ps : List Part} {m : DnN} {f : Pps → Pps} {s t : State} (h : Switches ps m f s t)
    (hf : (f s.pps[m]).fitted = s.pps[m].fitted) (x : DnN) : t.pps[x].fitted = s.pps[x].fitted := by
  by_cases hx : x = m
  · subst hx
    rw [h.self, hf]
  · rw [h.others x hx]

theorem Switches.single {ps : List Part} {m : DnN} {f : Pps → Pps} {s t : State} (h : Switches ps m f s t)
    (hs : single s m) (hf : (f s.pps[m]).fitted = s.pps[m].fitted) : single t m :=
  single_of hs (congrArg PpsG.gang h.gang) (h.fitted hf)

/-! ## What is held of the budget (R292) -/

theorem freeBudget_modPps (s : State) (m : DnN) (f : Pps → Pps) (h : allocation (f s.pps[m]) = allocation s.pps[m]) :
    freeBudget (modPps s m f) = freeBudget s := by
  have hsum := allocations_vMod s.pps m f h
  unfold freeBudget
  show s.ppsg.budget - granted (vMod s.pps m f) - reserved (vMod s.pps m f) = _
  omega

theorem freeBudget_of_frame {ps : List Part} {s t : State} (h : only ps s t) (hp : .pps ∉ ps := by decide)
    (hg : .ppsg ∉ ps := by decide) : freeBudget t = freeBudget s := by
  rw [freeBudget, freeBudget, show t.pps = s.pps from h .pps hp, show t.ppsg = s.ppsg from h .ppsg hg]

/-! ## The states of a switch in no gang (R304) -/

/-- A switch as it enters RAMP. -/
def ramped (p : Pps) : Pps :=
  { p with st := .ramp, due := false, discharging := false, voffArmed := false, chkReq := true
           chkDue := false, recheck := false }

/-- A switch as it enters WAIT. -/
def waiting (due : Bool) (p : Pps) : Pps := { p with st := .wait, due := due, discharging := false, voffArmed := false }

/-- A switch as it enters OFF. -/
def idled (p : Pps) : Pps :=
  { p with st := .off, due := false, discharging := true, voffArmed := false, limit := false, fold := false }

/-- A switch as it enters STOPPING. -/
def stopped (p : Pps) : Pps := { p with st := .stopping, limit := false, fold := false }

theorem enterRamp_single {s : State} {m : DnN} (h : single s m) : Switches [.pps] m ramped s (enterRamp s m) := by
  unfold enterRamp
  rw [modLegs_single h]
  exact modPps_switches s m ramped

theorem enterOff_single {s : State} {m : DnN} (h : single s m) : Switches [.pps] m idled s (enterOff s m) := by
  unfold enterOff
  rw [modLegs_single h]
  exact modPps_switches s m idled

theorem enterStopping_single {s : State} {m : DnN} (h : single s m) :
    Switches [.pps] m stopped s (enterStopping s m) := by
  unfold enterStopping
  rw [modLegs_single h]
  exact modPps_switches s m stopped

theorem enterWait_eq (s : State) (m : DnN) (due : Bool) :
    enterWait s m due = evBudget (modLegs s m (waiting due)) (dnPort m).val := rfl

theorem enterWait_single {s : State} {m : DnN} (h : single s m) (due : Bool) :
    Switches (.pps :: evParts) m (waiting due) s (enterWait s m due) := by
  rw [enterWait_eq, modLegs_single h]
  exact (modPps_switches s m (waiting due)).seq (switches_of_frame (evBudget_passes _ _).parts m)

theorem freeBudget_enterWait {s : State} {m : DnN} (h : single s m) (due : Bool) :
    freeBudget (enterWait s m due) = freeBudget s := by
  rw [enterWait_eq, modLegs_single h, freeBudget_of_frame (evBudget_passes _ _).parts]
  exact freeBudget_modPps s m _ rfl

theorem canStart_of {s t : State} (hg : t.ppsg = s.ppsg) (hl : linkOn t = linkOn s) : canStart t = canStart s := by
  rw [canStart, canStart, hg, hl]

theorem Switches.canStart {m : DnN} {f : Pps → Pps} {ps : List Part} {s t : State} (h : Switches ps m f s t)
    (hr : .rst ∉ ps := by decide) (hp : .pm ∉ ps := by decide) : canStart t = canStart s :=
  canStart_of h.gang (linkOn_of_frame h.parts hr hp)

/-- A start with the allocation held: a ramp where VLINK and the sequencer allow it (R305, R318). -/
theorem startHeld_single {s : State} {m : DnN} (h : single s m) (hv : s.ppsg.vlow = false) (hl : linkOn s = true) :
    Switches [.pps] m ramped s (startHeld s m) := by
  have hstart : startHeld s m = enterRamp s m := if_pos (by rw [canStart, hv, hl]; rfl)
  rw [hstart]
  exact enterRamp_single h

/-- The reservation of a switch that waits, and its ramp unless VLINK is low (R296). -/
theorem passWait_single {s : State} {m : DnN} (h : single s m) (hw : s.pps[m].st = .wait) (hd : s.pps[m].due = false)
    (hl : linkOn s = true) (hb : 4 ≤ freeBudget s) :
    Switches [.pps] m (fun p => if s.ppsg.vlow then { p with rsv := true, due := true }
      else ramped { p with rsv := true, due := true }) s (passWait s m) := by
  have hgo : (s.pps[m].st = .wait && !s.pps[m].due && isLead s.ppsg.gang m && 4 ≤ freeBudget s) = true := by
    rw [decide_eq_true hw, hd, isLead_single h, decide_eq_true hb]
    rfl
  have hrsv := modPps_switches s m fun q => { q with rsv := true, due := true }
  have hcan : canStart (modPps s m fun q => { q with rsv := true, due := true }) = !s.ppsg.vlow := by
    rw [hrsv.canStart, canStart, hl, Bool.and_true]
  have hpass : passWait s m = if canStart (modPps s m fun q => { q with rsv := true, due := true })
      then enterRamp (modPps s m fun q => { q with rsv := true, due := true }) m
      else modPps s m fun q => { q with rsv := true, due := true } := if_pos hgo
  rw [hpass, hcan]
  cases s.ppsg.vlow
  · exact hrsv.seq (enterRamp_single (hrsv.single h rfl))
  · exact hrsv

theorem passWait_short {s : State} {m : DnN} (hb : freeBudget s < 4) : passWait s m = s :=
  if_neg (by simp only [show ¬ 4 ≤ freeBudget s by omega, decide_false, Bool.and_false]; exact Bool.false_ne_true)

/-! ## Faults of a switch in no gang (R307, R310) -/

/-- A switch with a fault recorded. -/
def faulted (bits : Word) (p : Pps) : Pps := { p with fault := p.fault ||| bits, faults := satInc 255 p.faults }

theorem recordFault_switches (s : State) (m : DnN) (bits : Word) :
    Switches [.bb, .pps, .aon, .doms, .que, .out] m (faulted bits) s (recordFault s m bits) := by
  have hput := modPps_switches s m (faulted bits)
  have hraise : ∀ (c : Prop) [Decidable c] (e : Ev), only evParts (modPps s m (faulted bits))
      (if c then modPps s m (faulted bits) else raise (modPps s m (faulted bits)) e) := fun c _ e =>
    only_ite c (only_refl _ _) (raise_only _ e)
  exact hput.seq (rs := [.bb, .pps, .aon, .doms, .que, .out]) ((switches_of_frame (hraise _ _) m).seq
    (rs := [.bb, .doms, .que, .aon, .out]) (switches_of_frame (bbPow_only _ _ _ _ _) m))

/-- A switch as it enters LATCHED. -/
def latching (why : Word) (p : Pps) : Pps :=
  { p with st := .latched, due := false, limit := false, fold := false, discharging := false, voffArmed := false
           recheck := false, latchBy := why }

theorem latchSwitch_eq {s : State} {m : DnN} (h : single s m) (why : Word) : ∃ w2 w3,
    latchSwitch s m m why = releaseAll (bbPow (modPps s m (latching why)) 0x21 (dnPort m).val w2 w3) m := by
  refine ⟨(modPps s m (latching why)).pps[m].fault, ppsFcnt (modPps s m (latching why)).pps[m], ?_⟩
  unfold latchSwitch
  dsimp only
  rw [modLegs_single h, modPps_modPps]
  rfl

/-- A switch in no gang latches, and its allocation is released (R295). -/
theorem latchSwitch_single {s : State} {m : DnN} (h : single s m) (why : Word) :
    (latchSwitch s m m why).pps[m] = release (latching why s.pps[m]) ∧ only errParts s (latchSwitch s m m why) := by
  obtain ⟨w2, w3, heq⟩ := latchSwitch_eq h why
  have hput := (modPps_switches s m (latching why)).seq (rs := [.pps, .bb])
    (switches_of_frame (bbPow_only _ 0x21 (dnPort m).val w2 w3) m)
  obtain ⟨hp, -, hparts⟩ := releaseAll_rule (m := m) (by rw [hput.gang]; exact h.2.1)
    (by rw [hput.self]; exact PpsSt.noConfusion)
  rw [heq]
  exact ⟨hp.trans (congrArg release hput.self), hput.parts.seq hparts⟩

end Sys2Proof.Machine
end

section
/-! PROOF. The commands of the switches, the budget, the gangs and the class of port 0 (O46). -/

namespace Sys2Proof.Machine

open Sys2Proof Sys2Proof.Safety

-- One proof after the other: side by side, the proofs of one text wait for each other in too many threads.
set_option Elab.async false


/-! ## The rows that write PPS_CTRL -/

theorem regAtWord_ppsCtrl (m : DnN) : regAtWord (ppsOff0 m / 4) = some (.pps m .ctrl) := by
  revert m
  decide

theorem regRow_ppsCtrl {p : Path} {s : State} (m : DnN) (v : Word) (h : reaches s p = true) :
    regRow p (ppsOff0 m) v s = .next (ppsCtrlWrite s m v) :=
  regRow_reaches s p _ v _ h (by unfold ppsOff0; omega) (by unfold ppsOff0; omega) (regAtWord_ppsCtrl m)

/-- FITTED written back leaves a fitted switch as it is. -/
theorem ppsCtrlWrite_fitted {s : State} {m : DnN} (h : s.pps[m].fitted = true) {v : Word} (hv : bit v 1 = true) :
    ppsCtrlWrite s m v = if bit v 2 then faultClear (switchWrite s m (bit v 0)) m else switchWrite s m (bit v 0) := by
  have hid : ∀ c : Prop, [Decidable c] → (if c then fitPut (bit v 1) s.pps[m] else s.pps[m]) = s.pps[m] := by
    intro c _
    rw [hv]
    split
    · simp [fitPut, h, -Fin.getElem_fin]
    · rfl
  unfold ppsCtrlWrite
  dsimp only
  rw [modPps_id (f := fun p => if legSt p = .off && legSt s.pps[leadNow s m] = .off then fitPut (bit v 1) p else p) (hid _)]

theorem exec_ppsOn {p : Path} {m : DnN} {s : State} (hr : reaches s p = true) (h : s.pps[m].fitted = true) :
    exec (.ppsOn p m) s = .next (switchOn s m) := by
  refine (regRow_ppsCtrl m _ hr).trans (congrArg Host.Outcome.next ?_)
  rw [h, ppsCtrlWrite_fitted h (by decide), show bit (atBit true 1 ||| 0x0001#16) 2 = false by decide,
    show bit (atBit true 1 ||| 0x0001#16) 0 = true by decide]
  rfl

theorem exec_ppsOff {p : Path} {m : DnN} {s : State} (hr : reaches s p = true) (h : s.pps[m].fitted = true) :
    exec (.ppsOff p m) s = .next (switchOff s m) := by
  refine (regRow_ppsCtrl m _ hr).trans (congrArg Host.Outcome.next ?_)
  rw [h, ppsCtrlWrite_fitted h (by decide), show bit (atBit true 1) 2 = false by decide,
    show bit (atBit true 1) 0 = false by decide]
  rfl

/-- ON written back as it stands starts and stops nothing, but in OFF and in DISCHARGE. -/
theorem switchWrite_same {s : State} {m : DnN} (h : s.pps[m].st = .latched ∨ s.pps[m].st = .off ∧ s.pps[m].on = false) :
    switchWrite s m s.pps[m].on = s := by
  have hput : ∀ b, s.pps[m].on = b → modPps s m (fun p => { p with on := b }) = s := fun b hb => modPps_id (by rw [← hb])
  cases hb : s.pps[m].on
  · show switchOff s m = s
    unfold switchOff
    dsimp only
    rw [hput false hb]
    rcases h with h | ⟨h, -⟩ <;> rw [h] <;> exact ite_self s
  · rcases h with h | ⟨-, h⟩
    · show switchOn s m = s
      unfold switchOn
      dsimp only
      rw [hput true hb, h]
      exact ite_self s
    · exact absurd (h.symm.trans hb) Bool.false_ne_true

theorem exec_ppsFclr {p : Path} {m : DnN} {s : State} (hr : reaches s p = true) (h : s.pps[m].fitted = true)
    (hst : s.pps[m].st = .latched ∨ s.pps[m].st = .off ∧ s.pps[m].on = false) :
    exec (.ppsFclr p m) s = .next (faultClear s m) := by
  have hbits : ∀ b, bit (orAll [atBit b 0, atBit true 1, 0x0004#16]) 0 = b ∧
      bit (orAll [atBit b 0, atBit true 1, 0x0004#16]) 1 = true ∧
      bit (orAll [atBit b 0, atBit true 1, 0x0004#16]) 2 = true := by decide
  obtain ⟨h0, h1, h2⟩ := hbits s.pps[m].on
  refine (regRow_ppsCtrl m _ hr).trans (congrArg Host.Outcome.next ?_)
  rw [h, ppsCtrlWrite_fitted h h1, h2, h0, if_pos rfl, switchWrite_same hst]

/-! ## ON and OFF (R293, R304) -/

theorem switchOn_off {s : State} {m : DnN} (h : single s m) (hst : s.pps[m].st = .off) :
    switchOn s m = reserveStart (modPps s m fun p => { p with on := true }) m := by
  unfold switchOn
  dsimp only
  rw [switched_single h, hst]
  rfl

theorem switchOn_starts {s : State} {m : DnN} (h : single s m) (hst : s.pps[m].st = .off) (hb : 4 ≤ freeBudget s)
    (hv : s.ppsg.vlow = false) (hl : linkOn s = true) :
    Switches [.pps] m (fun p => ramped { p with on := true, rsv := true }) s (switchOn s m) := by
  have hput := modPps_switches s m fun p => { p with on := true, rsv := true }
  have hstart : switchOn s m = startHeld (modPps s m fun p => { p with on := true, rsv := true }) m := by
    rw [switchOn_off h hst, reserveStart, freeBudget_modPps s m _ rfl, if_pos hb, modPps_modPps]
  rw [hstart]
  exact hput.seq (startHeld_single (hput.single h rfl) (by rw [hput.gang]; exact hv)
    ((linkOn_of_frame hput.parts).trans hl))

theorem switchOn_waits {s : State} {m : DnN} (h : single s m) (hst : s.pps[m].st = .off) (hb : freeBudget s < 4) :
    Switches (.pps :: evParts) m (fun p => waiting false { p with on := true }) s (switchOn s m) := by
  have hput := modPps_switches s m fun p => { p with on := true }
  have hwait : switchOn s m = enterWait (modPps s m fun p => { p with on := true }) m false := by
    rw [switchOn_off h hst, reserveStart, freeBudget_modPps s m _ rfl, if_neg (by omega)]
  rw [hwait]
  exact hput.seq (enterWait_single (hput.single h rfl) false)

theorem switchOn_noted {s : State} {m : DnN} (h : s.pps[m].st ≠ .off) (h' : s.pps[m].st ≠ .discharge) :
    switchOn s m = modPps s m fun p => { p with on := true } := by
  unfold switchOn
  dsimp only
  split
  · rfl
  · split
    · contradiction
    · contradiction
    · rfl

theorem switchOff_stops {s : State} {m : DnN} (h : single s m) (hst : s.pps[m].st = .on) :
    Switches [.pps] m (fun p => stopped { p with on := false }) s (switchOff s m) := by
  have hput := modPps_switches s m fun p => { p with on := false }
  have hoff : switchOff s m = enterStopping (modPps s m fun p => { p with on := false }) m := by
    unfold switchOff
    dsimp only
    rw [switched_single h, hst]
    rfl
  rw [hoff]
  exact hput.seq (enterStopping_single (hput.single h rfl))

theorem switchOff_noted {s : State} {m : DnN} (h : s.pps[m].st ≠ .on) (hw : s.pps[m].st ≠ .wait) (hr : s.pps[m].st ≠ .retry) :
    switchOff s m = modPps s m fun p => { p with on := false } := by
  unfold switchOff
  dsimp only
  split
  · rfl
  · split
    · contradiction
    · contradiction
    · contradiction
    · rfl

theorem switchOff_releases {s : State} {m : DnN} (h : single s m) (hst : s.pps[m].st = .wait ∨ s.pps[m].st = .retry) :
    (switchOff s m).pps[m] = release (idled { s.pps[m] with on := false }) ∧ only errParts s (switchOff s m) := by
  have hput := modPps_switches s m fun p => { p with on := false }
  have hoff : switchOff s m = releaseAll (enterOff (modPps s m fun p => { p with on := false }) m) m := by
    unfold switchOff
    dsimp only
    rw [switched_single h]
    rcases hst with hst | hst <;> rw [hst] <;> rfl
  have hidle := hput.seq (rs := [.pps]) (enterOff_single (hput.single h rfl))
  obtain ⟨hp, -, hparts⟩ := releaseAll_rule (m := m) (by rw [hidle.gang]; exact h.2.1)
    (by rw [hidle.self]; exact PpsSt.noConfusion)
  rw [hoff]
  exact ⟨hp.trans (congrArg release hidle.self), hidle.parts.seq hparts⟩

/-! ## FCLR (R312) -/

/-- A switch whose latch is cleared. -/
def unlatched (p : Pps) : Pps :=
  { p with lost := false, derated := false, latchBy := 0#16, recheck := bit p.latchBy 5
           chkReq := p.chkReq || bit p.latchBy 5, used := 0 }

theorem clearLegs_single {s : State} {m : DnN} (h : single s m) : clearLegs s m = modPps s m unlatched := by
  have hput : ∀ f : Pps → Pps, f s.pps[m] = unlatched s.pps[m] → modPps s m f = modPps s m unlatched := fun f hf => by
    refine congrArg (fun v : Vector Pps 16 => { s with pps := v }) (Vector.ext fun j hj => ?_)
    by_cases hm : j = m.val
    · subst hm
      exact (vMod_get_self s.pps m f).trans (hf.trans (vMod_get_self s.pps m unlatched).symm)
    · have hne : (⟨j, hj⟩ : DnN) ≠ m := fun h' => hm (congrArg Fin.val h')
      exact (vMod_get_ne s.pps m ⟨j, hj⟩ f hne).trans (vMod_get_ne s.pps m ⟨j, hj⟩ unlatched hne).symm
  unfold clearLegs
  rw [h.2.2]
  exact (modPps_modPps s m _ _).trans (hput _ rfl)

theorem faultClear_latched {s : State} {m : DnN} (h : single s m) (hst : s.pps[m].st = .latched) : faultClear s m =
    if bit s.pps[m].latchBy 2 && s.pps[m].voffHigh && s.pps[m].voffEn
    then latchSwitch (recordFault (modPps s m unlatched) m 0x0004#16) m m 0x0004#16
    else endLatch (modPps s m unlatched) m := by
  have hfind : stillShort s m = if bit s.pps[m].latchBy 2 && s.pps[m].voffHigh && s.pps[m].voffEn then some m else none := by
    unfold stillShort
    rw [h.2.2, List.find?_cons, List.find?_nil]
    split <;> simp_all
  unfold faultClear
  dsimp only
  rw [isLead_single h, if_neg (by decide), if_pos hst, hfind, clearLegs_single h]
  cases bit s.pps[m].latchBy 2 && s.pps[m].voffHigh && s.pps[m].voffEn <;> rfl

/-- A switch that is still short latches again (R312). -/
theorem faultClear_short {s : State} {m : DnN} (h : single s m) (hst : s.pps[m].st = .latched)
    (h2 : bit s.pps[m].latchBy 2 = true) (hh : s.pps[m].voffHigh = true) (he : s.pps[m].voffEn = true) :
    (faultClear s m).pps[m] = release (latching 0x0004#16 (faulted 0x0004#16 (unlatched s.pps[m]))) ∧
    only errParts s (faultClear s m) := by
  have hclear := (modPps_switches s m unlatched).seq (rs := [.bb, .pps, .aon, .doms, .que, .out])
    (recordFault_switches _ m 0x0004#16)
  obtain ⟨hp, hparts⟩ := latchSwitch_single (hclear.single h rfl) 0x0004#16
  rw [faultClear_latched h hst, h2, hh, he]
  exact ⟨hp.trans (congrArg (fun p => release (latching 0x0004#16 p)) hclear.self), hclear.parts.seq hparts⟩

theorem endLatch_off {s : State} {m : DnN} (h : single s m) (ho : s.pps[m].on = false) :
    Switches [.pps] m idled s (endLatch s m) := by
  have hend : endLatch s m = enterOff s m := if_neg (by rw [ho]; exact Bool.false_ne_true)
  rw [hend]
  exact enterOff_single h

theorem endLatch_waits {s : State} {m : DnN} (h : single s m) (ho : s.pps[m].on = true) (hb : freeBudget s < 4) :
    Switches (.pps :: evParts) m (waiting false) s (endLatch s m) := by
  have hend : endLatch s m = enterWait s m false := by
    refine (if_pos (by rw [ho, h.1]; rfl)).trans (passWait_short ?_)
    rw [freeBudget_enterWait h]
    exact hb
  rw [hend]
  exact enterWait_single h false

theorem endLatch_starts {s : State} {m : DnN} (h : single s m) (ho : s.pps[m].on = true) (hb : 4 ≤ freeBudget s)
    (hl : linkOn s = true) : Switches (.pps :: evParts) m (fun p => if s.ppsg.vlow
      then { waiting false p with rsv := true, due := true }
      else ramped { waiting false p with rsv := true, due := true }) s (endLatch s m) := by
  have hwait := enterWait_single h false
  have hend : endLatch s m = passWait (enterWait s m false) m := if_pos (by rw [ho, h.1]; rfl)
  have hpass := passWait_single (hwait.single h rfl) (by rw [hwait.self]; rfl) (by rw [hwait.self]; rfl)
    ((linkOn_of_frame hwait.parts).trans hl) (by rw [freeBudget_enterWait h]; exact hb)
  rw [hend]
  rw [hwait.gang] at hpass
  exact hwait.seq hpass

/-- FCLR on a latched switch (R312): its latch is cleared, and it waits, starts or is off by ON. -/
theorem faultClear_ends {s : State} {m : DnN} (h : single s m) (hst : s.pps[m].st = .latched) (hl : linkOn s = true)
    (hc : bit s.pps[m].latchBy 2 = false ∨ s.pps[m].voffHigh = false ∨ s.pps[m].voffEn = false) :
    (s.pps[m].on = false → Switches [.pps] m (fun p => idled (unlatched p)) s (faultClear s m)) ∧
    (s.pps[m].on = true → freeBudget s < 4 →
      Switches (.pps :: evParts) m (fun p => waiting false (unlatched p)) s (faultClear s m)) ∧
    (s.pps[m].on = true → 4 ≤ freeBudget s → Switches (.pps :: evParts) m (fun p => if s.ppsg.vlow
      then { waiting false (unlatched p) with rsv := true, due := true }
      else ramped { waiting false (unlatched p) with rsv := true, due := true }) s (faultClear s m)) := by
  have hclear := modPps_switches s m unlatched
  have hone := hclear.single h rfl
  have hon : (modPps s m unlatched).pps[m].on = s.pps[m].on := (congrArg Pps.on hclear.self :)
  have hfree : freeBudget (modPps s m unlatched) = freeBudget s := freeBudget_modPps s m unlatched rfl
  have hno : (bit s.pps[m].latchBy 2 && s.pps[m].voffHigh && s.pps[m].voffEn) = false := by
    rcases hc with hc | hc | hc <;> rw [hc] <;> simp only [Bool.and_false, Bool.false_and]
  rw [faultClear_latched h hst, hno, if_neg Bool.false_ne_true]
  exact ⟨fun ho => hclear.seq (endLatch_off hone (hon.trans ho)),
    fun ho hb => hclear.seq (endLatch_waits hone (hon.trans ho) (by rw [hfree]; exact hb)),
    fun ho hb => hclear.seq (endLatch_starts hone (hon.trans ho) (by rw [hfree]; exact hb)
      ((linkOn_of_frame hclear.parts).trans hl))⟩

theorem fclr_ends {p : Path} {m : DnN} {s : State} (hr : reaches s p = true) (h : single s m) (hst : s.pps[m].st = .latched)
    (hc : bit s.pps[m].latchBy 2 = false ∨ s.pps[m].voffHigh = false ∨ s.pps[m].voffEn = false) :
    ∃ t, exec (.ppsFclr p m) s = .next t ∧ t.pps[m].used = 0 ∧ t.pps[m].latchBy = 0#16 ∧
      t.pps[m].fault = s.pps[m].fault ∧ t.pps[m].recheck = (bit s.pps[m].latchBy 5 && t.pps[m].st != .ramp) ∧
      (bit s.pps[m].latchBy 5 = true → t.pps[m].chkReq = true) ∧
      (s.pps[m].on = false → t.pps[m].st = .off ∧ t.doms = s.doms ∧ t.out = s.out) ∧
      (s.pps[m].on = true → 4 ≤ freeBudget s → t.pps[m].rsv = true ∧
        t.pps[m].st = (if s.ppsg.vlow then .wait else .ramp)) ∧
      (s.pps[m].on = true → freeBudget s < 4 → t.pps[m].st = .wait ∧ t.pps[m].rsv = s.pps[m].rsv) ∧
      ppsBut m s t ∧ only [.pps, .doms, .que, .aon, .out] s t := by
  obtain ⟨hoff, hwait, hstart⟩ := faultClear_ends h hst (linkOn_of_reaches s p hr) hc
  have hkept : ∀ b : Bool, b = (b && true) ∧ (b = true → (s.pps[m].chkReq || b) = true) := fun b =>
    ⟨(Bool.and_true b).symm, fun hb => by rw [hb, Bool.or_true]⟩
  refine ⟨faultClear s m, exec_ppsFclr hr h.1 (.inl hst), ?_⟩
  cases ho : s.pps[m].on
  · obtain ⟨hp, hbut, -, hparts⟩ := hoff ho
    rw [hp]
    exact ⟨rfl, rfl, rfl, (hkept _).1, (hkept _).2, fun _ => ⟨rfl, hparts .doms (by decide), hparts .out (by decide)⟩,
      fun h => absurd h Bool.false_ne_true, fun h => absurd h Bool.false_ne_true, hbut, hparts.widen⟩
  · have hon : ¬ (true = false) := Bool.noConfusion
    rcases Nat.lt_or_ge (freeBudget s) 4 with hb | hb
    · obtain ⟨hp, hbut, -, hparts⟩ := hwait ho hb
      rw [hp]
      exact ⟨rfl, rfl, rfl, (hkept _).1, (hkept _).2, fun h => absurd h hon, fun _ h => absurd hb (by omega),
        fun _ _ => ⟨rfl, rfl⟩, hbut, hparts⟩
    · obtain ⟨hp, hbut, -, hparts⟩ := hstart ho hb
      rw [hp]
      cases s.ppsg.vlow
      · exact ⟨rfl, rfl, rfl, (Bool.and_false _).symm, fun _ => rfl, fun h => absurd h hon, fun _ _ => ⟨rfl, rfl⟩,
          fun _ h => absurd h (by omega), hbut, hparts⟩
      · exact ⟨rfl, rfl, rfl, (hkept _).1, (hkept _).2, fun h => absurd h hon, fun _ _ => ⟨rfl, rfl⟩,
          fun _ h => absurd h (by omega), hbut, hparts⟩

/-! ## FCLR in a gang that is off (R315) -/

/-- A leg of a gang that is off, its latch cleared. -/
def legCleared (p : Pps) : Pps :=
  { p with lost := false, derated := false, st := .off, latchBy := 0#16, recheck := bit p.latchBy 5
           chkReq := p.chkReq || bit p.latchBy 5 }

theorem forEach_modPps (f : Pps → Pps) (l : List DnN) (hl : l.Nodup) (s : State) :
    (∀ x ∈ l, (forEach l (fun a x => modPps a x f) s).pps[x] = f s.pps[x]) ∧
    (∀ x : DnN, x ∉ l → (forEach l (fun a x => modPps a x f) s).pps[x] = s.pps[x]) ∧
    only [.pps] s (forEach l (fun a x => modPps a x f) s) := by
  induction l generalizing s with
  | nil => exact ⟨fun _ hx => absurd hx List.not_mem_nil, fun _ _ => rfl, only_refl _ s⟩
  | cons y l ih =>
    obtain ⟨hy, hnd⟩ := List.nodup_cons.mp hl
    obtain ⟨hin, hout, hparts⟩ := ih hnd (modPps s y f)
    refine ⟨fun x hx => ?_, fun x hx => ?_, (modPps_frame s y f).seq hparts⟩
    · rcases List.mem_cons.mp hx with rfl | hx
      · exact (hout x hy).trans (modPps_self s x f)
      · exact (hin x hx).trans (congrArg f (modPps_ne s y x f fun he => hy (he ▸ hx)))
    · obtain ⟨hne, hx⟩ := not_or.mp (mt List.mem_cons.mpr hx)
      exact (hout x hx).trans (modPps_ne s y x f hne)

theorem gangLegs_nodup (s : State) (m : DnN) : (gangLegs s m).Nodup :=
  ((List.nodup_finRange 16).filter _).filter _

theorem mem_gangLegs_lead {s : State} {m : DnN} (h : leadOf s.ppsg.gang m = m) : m ∈ gangLegs s m :=
  List.mem_filter.mpr ⟨List.mem_filter.mpr ⟨List.mem_finRange m, decide_eq_true rfl⟩, by simp [h]⟩

theorem clearLegs_off {s : State} {m : DnN} (hm : leadOf s.ppsg.gang m = m) (hst : s.pps[m].st = .off) :
    (clearLegs s m).pps[m].used = 0 ∧
    (∀ x ∈ gangLegs s m, (clearLegs s m).pps[x].lost = false ∧ (clearLegs s m).pps[x].latchBy = 0#16 ∧
      (clearLegs s m).pps[x].st = .off) ∧
    (∀ x : DnN, x ∉ gangLegs s m → (clearLegs s m).pps[x] = s.pps[x]) ∧ only [.pps] s (clearLegs s m) := by
  have hclear : clearLegs s m = modPps (forEach (gangLegs s m) (fun a x => modPps a x legCleared) s) m
      fun q => { q with used := 0 } := by
    unfold clearLegs
    rw [hst]
    rfl
  obtain ⟨hin, hout, hparts⟩ := forEach_modPps legCleared (gangLegs s m) (gangLegs_nodup s m) s
  rw [hclear]
  refine ⟨by rw [modPps_self], fun x hx => ?_, fun x hx => ?_, hparts.seq (modPps_frame _ m _)⟩
  · by_cases hxm : x = m
    · subst hxm
      rw [modPps_self, hin x hx]
      exact ⟨rfl, rfl, rfl⟩
    · rw [modPps_ne _ _ _ _ hxm, hin x hx]
      exact ⟨rfl, rfl, rfl⟩
  · have hne : x ≠ m := fun he => hx (by rw [he]; exact mem_gangLegs_lead hm)
    rw [modPps_ne _ _ _ _ hne, hout x hx]

/-- A write of PPS_CTRL that carries FITTED as it stands leaves of the switch what FCLR looks at. -/
theorem fitPut_kept (c : Prop) [Decidable c] (p : Pps) : (if c then fitPut p.fitted p else p).fitted = p.fitted ∧
    (if c then fitPut p.fitted p else p).st = p.st ∧ (if c then fitPut p.fitted p else p).on = p.on ∧
    (if c then fitPut p.fitted p else p).lost = p.lost := by
  split
  · unfold fitPut
    cases hf : p.fitted <;> simp [hf]
  · exact ⟨rfl, rfl, rfl, rfl⟩

/-- FCLR in a gang that is off and has lost a leg clears every leg (R315). -/
theorem fclr_gang {p : Path} {m : DnN} {s : State} (hr : reaches s p = true) (hm : leadOf s.ppsg.gang m = m)
    (hst : s.pps[m].st = .off) (ho : s.pps[m].on = false) (hl : ∃ x ∈ gangLegs s m, s.pps[x].lost = true) :
    ∃ t, exec (.ppsFclr p m) s = .next t ∧ t.pps[m].used = 0 ∧
      (∀ x ∈ gangLegs s m, t.pps[x].lost = false ∧ t.pps[x].latchBy = 0#16 ∧ t.pps[x].st = .off) ∧
      (∀ x : DnN, x ∉ gangLegs s m → t.pps[x] = s.pps[x]) ∧ only [.pps] s t := by
  have hbits : ∀ b, bit (orAll [atBit false 0, atBit b 1, 0x0004#16]) 0 = false ∧
      bit (orAll [atBit false 0, atBit b 1, 0x0004#16]) 1 = b ∧
      bit (orAll [atBit false 0, atBit b 1, 0x0004#16]) 2 = true := by decide
  obtain ⟨h0, h1, h2⟩ := hbits s.pps[m].fitted
  obtain ⟨hfit, hst1, hon1, hlost1⟩ := fitPut_kept (legSt s.pps[m] = .off && legSt s.pps[leadNow s m] = .off) s.pps[m]
  obtain ⟨u, hu, hu2⟩ : ∃ u, u = modPps s m (fun p => if legSt p = .off && legSt s.pps[leadNow s m] = .off
      then fitPut s.pps[m].fitted p else p) ∧ Switches [.pps] m (fun p => if legSt p = .off && legSt s.pps[leadNow s m] = .off
      then fitPut s.pps[m].fitted p else p) s u := ⟨_, rfl, modPps_switches s m _⟩
  have hust : u.pps[m].st = .off := (congrArg Pps.st hu2.self).trans (hst1.trans hst)
  have huon : u.pps[m].on = false := (congrArg Pps.on hu2.self).trans (hon1.trans ho)
  have hum : leadOf u.ppsg.gang m = m := by rw [hu2.gang]; exact hm
  have hlegs : gangLegs u m = gangLegs s m := gangLegs_of (congrArg PpsG.gang hu2.gang) (hu2.fitted hfit) m
  have hlost : ∀ x : DnN, u.pps[x].lost = s.pps[x].lost := fun x => by
    by_cases hx : x = m
    · subst hx
      exact (congrArg Pps.lost hu2.self).trans hlost1
    · rw [hu2.others x hx]
  have hwrite : ppsCtrlWrite s m (orAll [atBit false 0, atBit s.pps[m].fitted 1, 0x0004#16]) = clearLegs u m := by
    have hsame := switchWrite_same (s := u) (m := m) (.inr ⟨hust, huon⟩)
    rw [huon] at hsame
    unfold ppsCtrlWrite
    dsimp only
    rw [h0, h1, h2, if_pos rfl, ← hu, hsame]
    obtain ⟨x, hx, hxl⟩ := hl
    have hany : (gangLegs u m).any (fun x => u.pps[x].lost) = true :=
      List.any_eq_true.mpr ⟨x, by rw [hlegs]; exact hx, by rw [hlost]; exact hxl⟩
    unfold faultClear
    dsimp only
    rw [if_neg (by simp [isLead, hum]), if_neg (by rw [hust]; exact PpsSt.noConfusion), hany, if_pos (by rw [hust]; rfl)]
  obtain ⟨hused, hin, hout, hparts⟩ := clearLegs_off hum hust
  refine ⟨clearLegs u m, ?_, hused, by rw [hlegs] at hin; exact hin, fun x hx => ?_, hu2.parts.seq hparts⟩
  · refine (regRow_ppsCtrl m _ hr).trans (congrArg Host.Outcome.next ?_)
    rw [ho]
    exact hwrite
  · have hne : x ≠ m := fun he => hx (by rw [he]; exact mem_gangLegs_lead hm)
    exact (hout x (by rw [hlegs]; exact hx)).trans (hu2.others x hne)

theorem fclr_nothing {p : Path} {m : DnN} {s : State} (hr : reaches s p = true) (hf : s.pps[m].fitted = true)
    (hst : s.pps[m].st = .off) (ho : s.pps[m].on = false) (hl : ∀ x ∈ gangLegs s m, s.pps[x].lost = false) :
    exec (.ppsFclr p m) s = .next s := by
  have hany : (gangLegs s m).any (fun x => s.pps[x].lost) = false :=
    List.any_eq_false.mpr fun x hx => Bool.eq_false_iff.mp (hl x hx)
  rw [exec_ppsFclr hr hf (.inr ⟨hst, ho⟩)]
  refine congrArg Host.Outcome.next ?_
  unfold faultClear
  dsimp only
  rw [hany, Bool.and_false, if_neg (c := s.pps[m].st = .latched) (by rw [hst]; exact PpsSt.noConfusion)]
  exact ite_self s

/-! ## The budget, the gangs and the class of port 0 (R297, R313, R298) -/

/-- A budget below what is held is clamped to it. -/
theorem budgetWrite_clamped {s : State} {w : Nat} (h : min w 2240 < granted s.pps + reserved s.pps) :
    (budgetWrite s w).ppsg = { s.ppsg with budget := granted s.pps + reserved s.pps, clamp := true } ∧
    only [.bb, .ppsg, .doms, .que, .aon, .out] s (budgetWrite s w) := by
  have hput : only [.ppsg] s { s with ppsg := { s.ppsg with budget := granted s.pps + reserved s.pps, clamp := true } } :=
    ppsg_frame s _
  have hev := (evBudget_passes { s with ppsg := { s.ppsg with budget := granted s.pps + reserved s.pps, clamp := true } } 0).parts
  have hbb := bbPow_only (evBudget { s with ppsg :=
    { s.ppsg with budget := granted s.pps + reserved s.pps, clamp := true } } 0) 0x23 0 (w16 w)
      (w16 (granted s.pps + reserved s.pps))
  have hw : budgetWrite s w = bbPow (evBudget { s with ppsg :=
    { s.ppsg with budget := granted s.pps + reserved s.pps, clamp := true } } 0) 0x23 0 (w16 w)
      (w16 (granted s.pps + reserved s.pps)) := if_pos h
  rw [hw]
  exact ⟨(hbb .ppsg (by decide)).trans (hev .ppsg (by decide)),
    hput.seq (hev.seq hbb (rs := [.bb, .doms, .que, .aon, .out]))⟩

theorem bit_setBits (v : Word) (l : List (Nat × Bool)) (hl : ∀ x ∈ l, x.1 < 16 ∧ x.2 = bit v x.1) (w : Word) {j : Nat}
    (hj : j < 16) : bit (l.foldl (fun w b => setBit w b.1 b.2) w) j =
      if j ∈ l.map (·.1) then bit v j else bit w j := by
  induction l generalizing w with
  | nil => rfl
  | cons x l ih =>
    obtain ⟨hx, hrest⟩ := List.forall_mem_cons.mp hl
    rw [List.foldl_cons, ih hrest]
    by_cases hjx : x.1 = j
    · subst hjx
      rw [bit_setBit_self _ _ hj, hx.2]
      simp
    · rw [bit_setBit_ne _ _ hjx hj]
      simp [Ne.symm hjx]

/-- The bits that a write of PPS_GANG gives are bits of the word written. -/
theorem gangQuad_bits (s : State) (v : Word) (q : Nat) :
    ∀ x ∈ (gangQuad s v q).2, (x.1 = 8 + q ∨ x.1 = 2 * q ∨ x.1 = 2 * q + 1) ∧ x.2 = bit v x.1 := by
  unfold gangQuad
  dsimp only
  split
  · split <;> simp
  · split
    · simp
    · split <;> split <;> simp

/-- A quad whose switches are all off takes every bit that changes. -/
theorem gangQuad_off {s : State} (v : Word) {q : Nat} (h : ∀ lo n, allOff s lo n = true) (j : Nat)
    (hj : j = 8 + q ∨ j = 2 * q ∨ j = 2 * q + 1) :
    (gangQuad s v q).1 = false ∧ (j ∈ (gangQuad s v q).2.map (·.1) ∨ bit s.ppsg.gang j = bit v j) := by
  unfold gangQuad
  dsimp only
  simp only [h, Bool.or_true, Bool.and_self, Bool.not_true, if_true]
  split
  · rcases hj with rfl | rfl | rfl <;> simp
  · rename_i hb
    have hsame : bit v (8 + q) = bit s.ppsg.gang (8 + q) := by simpa using hb
    split <;> rcases hj with rfl | rfl | rfl <;> simp [hsame]

/-- A quad with a switch that is not off keeps its own bit. -/
theorem gangQuad_refused {s : State} {v : Word} {q : Nat} (h : allOff s (4 * q) 4 = false)
    (hb : bit v (8 + q) ≠ bit s.ppsg.gang (8 + q)) : gangQuad s v q = (true, []) := by
  unfold gangQuad
  dsimp only
  rw [if_pos (bne_iff_ne.mpr hb), if_neg (by rw [h]; exact Bool.false_ne_true)]

/-- The bits that a write of PPS_GANG gives. -/
def gangBits (s : State) (v : Word) : List (Nat × Bool) := ((List.range 4).map (gangQuad s v)).flatMap (·.2)

theorem gangWrite_ppsg (s : State) (v : Word) : (gangWrite s v).ppsg = { s.ppsg with
    gang := setBit ((gangBits s v).foldl (fun w b => setBit w b.1 b.2) s.ppsg.gang) 12 (bit v 12)
    gangref := s.ppsg.gangref || ((List.range 4).map (gangQuad s v)).any (·.1) } := rfl

theorem gangWrite_bit (s : State) (v : Word) {j : Nat} (hj : j < 12) : bit (gangWrite s v).ppsg.gang j =
    if j ∈ (gangBits s v).map (·.1) then bit v j else bit s.ppsg.gang j := by
  have hbits : ∀ x ∈ gangBits s v, x.1 < 16 ∧ x.2 = bit v x.1 := fun x hx => by
    obtain ⟨e, he, hx⟩ := List.mem_flatMap.mp hx
    obtain ⟨q, hq, rfl⟩ := List.mem_map.mp he
    obtain ⟨hx1, hx2⟩ := gangQuad_bits s v q x hx
    have hq4 := List.mem_range.mp hq
    exact ⟨by omega, hx2⟩
  rw [gangWrite_ppsg]
  exact (bit_setBit_ne _ _ (by omega) (by omega)).trans (bit_setBits v _ hbits _ (by omega))

theorem allOff_of {s : State} (h : ∀ m : DnN, s.pps[m].st = .off ∧ s.pps[m].lost = false) (lo n : Nat) :
    allOff s lo n = true := by
  refine List.all_eq_true.mpr fun i _ => ?_
  by_cases hi : lo + i < 16
  · obtain ⟨hst, hlost⟩ := h ⟨lo + i, hi⟩
    have hleg : legSt s.pps[lo + i] = .off := by
      rw [legSt, show s.pps[lo + i].lost = false from hlost]
      exact hst
    simp [vAt, hi, hleg]
  · simp [vAt, hi]

theorem allOff_false {s : State} {m : DnN} (h : s.pps[m].st ≠ .off ∨ s.pps[m].lost = true) :
    allOff s (4 * (m.val / 4)) 4 = false := by
  have hleg : legSt s.pps[m.val] ≠ .off := by
    unfold legSt
    rcases h with h | h
    · split
      · exact PpsSt.noConfusion
      · exact h
    · rw [show s.pps[m.val].lost = true from h]
      exact PpsSt.noConfusion
  refine List.all_eq_false.mpr ⟨m.val % 4, List.mem_range.mpr (by omega), ?_⟩
  rw [Nat.div_add_mod]
  simp [vAt, hleg]

theorem gangWrite_off {s : State} (h : ∀ m : DnN, s.pps[m].st = .off ∧ s.pps[m].lost = false) (v : Word) :
    (∀ i, i < 13 → bit (gangWrite s v).ppsg.gang i = bit v i) ∧
    (gangWrite s v).ppsg = { s.ppsg with gang := (gangWrite s v).ppsg.gang } := by
  have hquad := fun q => gangQuad_off (q := q) v (allOff_of h)
  refine ⟨fun i hi => ?_, ?_⟩
  · by_cases h12 : i = 12
    · subst h12
      exact bit_setBit_self _ _ (by omega)
    · obtain ⟨q, hq, hiq⟩ : ∃ q, q < 4 ∧ (i = 8 + q ∨ i = 2 * q ∨ i = 2 * q + 1) := by
        rcases Nat.lt_or_ge i 8 with h8 | h8
        · exact ⟨i / 2, by omega, by omega⟩
        · exact ⟨i - 8, by omega, by omega⟩
      rw [gangWrite_bit s v (by omega)]
      rcases (hquad q i hiq).2 with hmem | hsame
      · have hin : i ∈ (gangBits s v).map (·.1) := by
          obtain ⟨x, hx, rfl⟩ := List.mem_map.mp hmem
          exact List.mem_map_of_mem (List.mem_flatMap.mpr
            ⟨_, List.mem_map_of_mem (List.mem_range.mpr hq), hx⟩)
        rw [if_pos hin]
      · rw [hsame, ite_self]
  · have hany : ((List.range 4).map (gangQuad s v)).any (·.1) = false := by
      refine List.any_eq_false.mpr fun e he => ?_
      obtain ⟨q, -, rfl⟩ := List.mem_map.mp he
      exact Bool.eq_false_iff.mp (hquad q (8 + q) (.inl rfl)).1
    rw [gangWrite_ppsg, hany, Bool.or_false]

theorem gangWrite_refused {s : State} {v : Word} {m : DnN} (h : s.pps[m].st ≠ .off ∨ s.pps[m].lost = true)
    (hb : bit v (8 + m.val / 4) ≠ bit s.ppsg.gang (8 + m.val / 4)) : (gangWrite s v).ppsg.gangref = true ∧
    bit (gangWrite s v).ppsg.gang (8 + m.val / 4) = bit s.ppsg.gang (8 + m.val / 4) := by
  have hq := gangQuad_refused (allOff_false h) hb
  refine ⟨?_, ?_⟩
  · have hany : ((List.range 4).map (gangQuad s v)).any (·.1) = true :=
      List.any_eq_true.mpr ⟨_, List.mem_map_of_mem (List.mem_range.mpr (show m.val / 4 < 4 by omega)), by rw [hq]⟩
    rw [gangWrite_ppsg, hany]
    exact Bool.or_true _
  · rw [gangWrite_bit s v (by omega), if_neg]
    intro hmem
    obtain ⟨x, hx, hx8⟩ := List.mem_map.mp hmem
    obtain ⟨e, he, hx⟩ := List.mem_flatMap.mp hx
    obtain ⟨q, hq4, rfl⟩ := List.mem_map.mp he
    have hq4 := List.mem_range.mp hq4
    obtain ⟨hx1, -⟩ := gangQuad_bits s v q x hx
    have hqm : q = m.val / 4 := by omega
    rw [hqm, hq] at hx
    exact absurd hx List.not_mem_nil

/-- Settles O46: it holds.  A fitted switch keeps FITTED in every row, so what is left is its command; the two rows of
the budget, the gang bits quad by quad, and the class of port 0 are writes of their own registers. -/
theorem switchCommands : Obligations.SwitchCommands := by
  unfold Obligations.SwitchCommands
  refine ⟨fun p m s hr h => ⟨fun hst hb hv => ?_, fun hst hb => ?_, fun h1 h2 => ?_, fun hst => ?_, fun h1 h2 h3 => ?_,
    fun hst => ?_, fun hst => ⟨fun hc => fclr_ends hr h hst hc, fun h2 hh he => ?_⟩⟩, fun p m s hr hm hst ho => ?_,
    fun p v s hr => ⟨fun hb hb' => ?_, fun hb => ?_, fun hoff => ?_, fun m hm hb => ?_, fun hc => ?_⟩⟩
  · obtain ⟨hp, hbut, -, hparts⟩ := switchOn_starts h hst hb hv (linkOn_of_reaches s p hr)
    exact ⟨_, exec_ppsOn hr h.1, hp, hbut, hparts⟩
  · obtain ⟨hp, hbut, -, hparts⟩ := switchOn_waits h hst hb
    exact ⟨_, exec_ppsOn hr h.1, congrArg Pps.on hp, congrArg Pps.st hp, congrArg Pps.due hp, hbut, hparts⟩
  · have hrule := modPps_rule s m fun p => { p with on := true }
    rw [← switchOn_noted h1 h2] at hrule
    exact ⟨_, exec_ppsOn hr h.1, hrule⟩
  · obtain ⟨hp, hbut, -, hparts⟩ := switchOff_stops h hst
    exact ⟨_, exec_ppsOff hr h.1, hp, hbut, hparts⟩
  · have hrule := modPps_rule s m fun p => { p with on := false }
    rw [← switchOff_noted h1 h2 h3] at hrule
    exact ⟨_, exec_ppsOff hr h.1, hrule⟩
  · obtain ⟨hp, hparts⟩ := switchOff_releases h hst
    exact ⟨_, exec_ppsOff hr h.1, congrArg Pps.on hp, congrArg Pps.st hp, congrArg Pps.grant hp, congrArg Pps.rsv hp,
      hparts⟩
  · obtain ⟨hp, hparts⟩ := faultClear_short h hst h2 hh he
    exact ⟨_, exec_ppsFclr hr h.1 (.inl hst), congrArg Pps.st hp, congrArg Pps.latchBy hp, congrArg Pps.fault hp, hparts⟩
  · exact ⟨fclr_gang hr (of_decide_eq_true hm) hst ho, fun hf hl => fclr_nothing hr hf hst ho hl⟩
  · obtain ⟨hg, hparts⟩ := budgetWrite_clamped (s := s) (w := fld v 0 12) (by omega)
    exact ⟨_, regRow_reaches s p 0x2C00 v .ppsBudget hr rfl (by decide) (by decide), hg, hparts⟩
  · obtain ⟨hg, -, hparts⟩ := budgetWrite_covers hb
    exact ⟨_, regRow_reaches s p 0x2C00 v .ppsBudget hr rfl (by decide) (by decide), hg, hparts.widen⟩
  · exact ⟨_, regRow_reaches s p 0x2C08 v .ppsGang hr rfl (by decide) (by decide), (gangWrite_off hoff v).1,
      (gangWrite_off hoff v).2, ppsg_frame s _⟩
  · exact ⟨_, regRow_reaches s p 0x2C08 v .ppsGang hr rfl (by decide) (by decide), (gangWrite_refused hm hb).1,
      (gangWrite_refused hm hb).2, ppsg_frame s _⟩
  · have hsame : pclassWrite s v = { s with glob := { s.glob with pclass0 := pclassVal (fld v 0 3) } } := by
      refine if_neg ?_
      rcases hc with hc | hc
      · simp [hc, -Fin.getElem_fin]
      · simp [hc]
    refine ⟨_, (regRow_reaches s p 0x1048 v (.port 0 .pclass) hr rfl (by decide) (by decide)).trans
      (congrArg Host.Outcome.next hsame), rfl, glob_frame s _⟩

end Sys2Proof.Machine
end

section
/-! PROOF. The faults and the timers of the switches (O47). -/

namespace Sys2Proof.Machine

open Sys2Proof Sys2Proof.Safety

-- One proof after the other: side by side, the proofs of one text wait for each other in too many threads.
set_option Elab.async false


/-! ## Which checks run (R307) -/

theorem leadPps_single {s : State} {m : DnN} (h : single s m) : s.pps[leadNow s m] = s.pps[m] :=
  congrArg (fun k : DnN => s.pps[k]) h.2.1

theorem driven_of {s : State} {m : DnN} (h : single s m)
    (hst : s.pps[m].st = .on ∨ (s.pps[m].st = .ramp ∧ s.pps[m].chkReq = false ∧ s.pps[m].chkDue = false)) :
    driven s m = true := by
  unfold driven checksRun
  rw [h.1, leadPps_single h]
  rcases hst with hst | ⟨hst, hc, hd⟩
  · rw [hst]
    rfl
  · rw [hst, hc, hd]
    rfl

theorem not_driven {s : State} {m : DnN} (h : single s m)
    (hst : s.pps[m].st = .off ∨ (s.pps[m].st = .ramp ∧ (s.pps[m].chkReq = true ∨ s.pps[m].chkDue = true))) :
    driven s m = false := by
  unfold driven checksRun
  rw [h.1, leadPps_single h]
  rcases hst with hst | ⟨hst, hc | hc⟩ <;> rw [hst]
  · rfl
  · rw [hc]
    cases s.pps[m].chkDue <;> rfl
  · rw [hc]
    cases s.pps[m].chkReq <;> rfl

theorem tripFault_driven {s : State} {m : DnN} (h : single s m) (hl : s.pps[m].lost = false) (hd : driven s m = true)
    (bits : Word) : tripFault s m bits = retire (recordFault s m bits) m := by
  unfold tripFault
  dsimp only
  rw [if_neg (by rw [checksRun, h.1, hl]; decide), if_pos hd, leadNow_single h]

theorem tripFault_idle {s : State} {m : DnN} (h : single s m) (hd : driven s m = false) (hst : s.pps[m].st ≠ .stopping)
    (bits : Word) : tripFault s m bits = s := by
  unfold tripFault
  dsimp only
  rw [leadPps_single h, hd, decide_eq_false hst]
  exact ite_self s

/-! ## A trip (R305, R310) -/

/-- A switch as it enters RETRY. -/
def retried (p : Pps) : Pps := { p with st := .retry, limit := false, fold := false, used := satInc 15 p.used }

theorem retire_single {s : State} {m : DnN} (h : single s m) : retire s m =
    if !s.pps[m].on then enterStopping s m
    else if s.pps[m].used < fld s.pps[m].retry 0 4 || fld s.pps[m].retry 0 4 = 15 then modPps s m retried
    else latchSwitch (recordRetryx s m) m m 0#16 := by
  unfold retire
  dsimp only
  rw [modLegs_single h, modPps_modPps]
  rfl

/-- Of RETRYX, its bit alone is new to the switch (R310). -/
theorem recordRetryx_switches (s : State) (m : DnN) : Switches [.pps, .aon, .doms, .que, .out] m
    (fun p => { p with fault := p.fault ||| 0x0080#16 }) s (recordRetryx s m) := by
  have hput := modPps_switches s m fun p => { p with fault := p.fault ||| 0x0080#16 }
  unfold recordRetryx
  split
  · rename_i hbit
    have hsame : s.pps[m].fault ||| 0x0080#16 = s.pps[m].fault := by
      refine BitVec.eq_of_getLsbD_eq fun i hi => ?_
      have hi7 : (0x0080#16).getLsbD i = decide (7 = i) := by
        revert i
        decide
      rw [BitVec.getLsbD_or, hi7]
      by_cases h7 : 7 = i
      · subst h7
        rw [show s.pps[m].fault.getLsbD 7 = true from hbit]
        rfl
      · rw [decide_eq_false h7, Bool.or_false]
    refine ⟨?_, fun _ _ => rfl, rfl, only_refl _ s⟩
    rw [hsame]
  · exact hput.seq (switches_of_frame (raise_only _ _) m)

section Trips
variable {s : State} {m : DnN} {bits : Word}

theorem tripFault_retries (h : single s m) (hl : s.pps[m].lost = false) (hd : driven s m = true)
    (ho : s.pps[m].on = true) (hu : s.pps[m].used < fld s.pps[m].retry 0 4) :
    Switches [.bb, .pps, .aon, .doms, .que, .out] m (fun p => retried (faulted bits p)) s (tripFault s m bits) := by
  have hrec := recordFault_switches s m bits
  have hgo : retire (recordFault s m bits) m = modPps (recordFault s m bits) m retried := by
    rw [retire_single (hrec.single h rfl), hrec.self]
    exact (if_neg (by simp [faulted, ho, -Fin.getElem_fin])).trans (if_pos (by simp [faulted, hu, -Fin.getElem_fin]))
  rw [tripFault_driven h hl hd, hgo]
  exact hrec.seq (modPps_switches _ m retried)

theorem tripFault_stops (h : single s m) (hl : s.pps[m].lost = false) (hd : driven s m = true)
    (ho : s.pps[m].on = false) :
    Switches [.bb, .pps, .aon, .doms, .que, .out] m (fun p => stopped (faulted bits p)) s (tripFault s m bits) := by
  have hrec := recordFault_switches s m bits
  have hgo : retire (recordFault s m bits) m = enterStopping (recordFault s m bits) m := by
    rw [retire_single (hrec.single h rfl), hrec.self]
    exact if_pos (by simp [faulted, ho, -Fin.getElem_fin])
  rw [tripFault_driven h hl hd, hgo]
  exact hrec.seq (enterStopping_single (hrec.single h rfl))

theorem tripFault_latches (h : single s m) (hl : s.pps[m].lost = false) (hd : driven s m = true)
    (ho : s.pps[m].on = true) (hu : fld s.pps[m].retry 0 4 ≤ s.pps[m].used) (h15 : fld s.pps[m].retry 0 4 ≠ 15) :
    (∃ n, (tripFault s m bits).pps[m] = release (latching 0#16
      { s.pps[m] with fault := s.pps[m].fault ||| bits ||| 0x0080#16, faults := n })) ∧
    only errParts s (tripFault s m bits) := by
  have hrec := (recordFault_switches s m bits).seq (rs := [.bb, .pps, .aon, .doms, .que, .out])
    (recordRetryx_switches _ m)
  have hone := (recordFault_switches s m bits).single h rfl
  have hgo : retire (recordFault s m bits) m = latchSwitch (recordRetryx (recordFault s m bits) m) m m 0#16 := by
    rw [retire_single hone, (recordFault_switches s m bits).self]
    exact (if_neg (by simp [faulted, ho, -Fin.getElem_fin])).trans
      (if_neg (by simp [faulted, h15, Nat.not_lt.mpr hu, -Fin.getElem_fin]))
  obtain ⟨hp, hparts⟩ := latchSwitch_single (hrec.single h rfl) 0#16
  rw [tripFault_driven h hl hd, hgo]
  exact ⟨⟨satInc 255 s.pps[m].faults, hp.trans (congrArg (fun p => release (latching 0#16 p)) hrec.self)⟩,
    hrec.parts.seq hparts⟩

end Trips

/-! ## The faults that latch a switch in no gang (R307) -/

/-- A fault is recorded, and the switch latches by it. -/
theorem latchFault_single {s : State} {m : DnN} (h : single s m) (bits : Word) :
    (latchSwitch (recordFault s m bits) m m bits).pps[m] = release (latching bits (faulted bits s.pps[m])) ∧
    only errParts s (latchSwitch (recordFault s m bits) m m bits) := by
  have hrec := recordFault_switches s m bits
  obtain ⟨hp, hparts⟩ := latchSwitch_single (hrec.single h rfl) bits
  exact ⟨hp.trans (congrArg (fun p => release (latching bits p)) hrec.self), hrec.parts.seq hparts⟩

theorem legFault_single {s : State} {m : DnN} (h : single s m) (bits : Word) :
    legFault s m bits = latchSwitch (recordFault s m bits) m m bits := by
  unfold legFault
  dsimp only
  rw [h.2.2, leadNow_single h]
  rfl

theorem reverseFault_single {s : State} {m : DnN} (h : single s m) : (reverseFault s m).pps[m].st = .latched ∧
    (reverseFault s m).pps[m].fault = (s.pps[m].fault ||| 0x0010#16) ∧ only errParts s (reverseFault s m) := by
  have hrec := recordFault_switches s m 0x0010#16
  unfold reverseFault
  dsimp only
  rw [leadPps_single h, leadNow_single h]
  split
  · rename_i hst
    exact ⟨(congrArg Pps.st hrec.self).trans hst, congrArg Pps.fault hrec.self, hrec.parts.widen⟩
  · obtain ⟨hp, hparts⟩ := latchFault_single h 0x0010#16
    exact ⟨congrArg Pps.st hp, congrArg Pps.fault hp, hparts⟩

/-- A switch in no gang has no other leg, so an open leg is no check of it (R315). -/
theorem legOpen_single {s : State} {m : DnN} (h : single s m) : legOpen s m = false := by
  have hnone : otherLegs s m = [] := by
    rw [otherLegs, h.2.2]
    simp
  unfold legOpen
  rw [hnone]
  rfl

/-! ## A leg that is lost (R315) -/

/-- A leg's turn in a change of the switch that l leads. -/
def legTurn (s : State) (l : DnN) (f : Pps → Pps) (a : State) (x : DnN) : State :=
  if s.pps[x].lost && x != l then a else modPps a x f

theorem legTurn_lead (s : State) (l : DnN) (f : Pps → Pps) (a : State) : (legTurn s l f a l).pps[l] = f a.pps[l] := by
  rw [legTurn, if_neg (by simp)]
  exact modPps_self a l f

theorem legTurn_other (s : State) {l x : DnN} (f : Pps → Pps) (a : State) (h : l ≠ x) :
    (legTurn s l f a x).pps[l] = a.pps[l] := by
  unfold legTurn
  split
  · rfl
  · exact modPps_ne _ _ _ _ h

/-- The lead takes every change of its switch, lost or not. -/
theorem modLegs_lead {s : State} {l : DnN} (h : leadOf s.ppsg.gang l = l) (f : Pps → Pps) :
    (modLegs s l f).pps[l] = f s.pps[l] := by
  have hlist : ∀ (k : List DnN) (a : State), k.Nodup → (forEach k (legTurn s l f) a).pps[l] =
      if l ∈ k then f a.pps[l] else a.pps[l] := fun k => by
    induction k with
    | nil => exact fun _ _ => rfl
    | cons x k ih =>
      intro a hnd
      obtain ⟨hx, hk⟩ := List.nodup_cons.mp hnd
      refine (ih _ hk).trans ?_
      by_cases hxl : l = x
      · subst hxl
        rw [if_neg hx, if_pos List.mem_cons_self, legTurn_lead]
      · rw [legTurn_other s f a hxl]
        simp only [List.mem_cons, hxl, false_or]
  exact (hlist _ s (gangLegs_nodup s l)).trans (if_pos (mem_gangLegs_lead h))

/-- A leg whose switch latches. -/
def legLatched (p : Pps) : Pps :=
  { p with st := .latched, due := false, limit := false, fold := false, discharging := false, voffArmed := false
           recheck := false }

/-- The legs of a switch that latches by leg m, before the black box has it. -/
def latchLegs (s : State) (l m : DnN) (why : Word) : State :=
  modPps (modLegs s l legLatched) m fun p => { p with latchBy := why }

theorem latchSwitch_legs (s : State) (l m : DnN) (why : Word) : ∃ w2 w3, latchSwitch s l m why =
    releaseAll (bbPow (latchLegs s l m why) 0x21 (dnPort l).val w2 w3) l := ⟨_, _, rfl⟩

theorem latchLegs_allots (s : State) (l m : DnN) (why : Word) : Allots s (latchLegs s l m why) :=
  (modLegs_allots s l legLatched).seq (modPps_allots _ m _)

theorem latchLegs_lead {s : State} {l : DnN} (h : leadOf s.ppsg.gang l = l) (m : DnN) (why : Word) :
    (latchLegs s l m why).pps[l].st = .latched := by
  have hlead := modLegs_lead h legLatched
  unfold latchLegs
  by_cases hm : l = m
  · subst hm
    rw [modPps_self, hlead]
    rfl
  · rw [modPps_ne _ _ _ _ hm, hlead]
    rfl

theorem bbPow_allots (s : State) (code src : Nat) (w2 w3 : Word) : Allots s (bbPow s code src w2 w3) :=
  ⟨only_mono _ _ _ _ (bbPow_only s code src w2 w3) (by decide), rfl, fun _ => rfl⟩

/-- No leg of a switch that latches loses its faults, nor what is lost of it. -/
theorem latchSwitch_allots (s : State) (l m : DnN) (why : Word) : Allots s (latchSwitch s l m why) := by
  obtain ⟨w2, w3, heq⟩ := latchSwitch_legs s l m why
  rw [heq]
  exact ((latchLegs_allots s l m why).seq (bbPow_allots _ _ _ _ _)).seq (releaseAll_allots _ l)

/-- The lead shows that its switch has latched. -/
theorem latchSwitch_lead {s : State} {l : DnN} (h : leadOf s.ppsg.gang l = l) (m : DnN) (why : Word) :
    (latchSwitch s l m why).pps[l].st = .latched := by
  obtain ⟨w2, w3, heq⟩ := latchSwitch_legs s l m why
  have hall := (latchLegs_allots s l m why).seq (bbPow_allots (latchLegs s l m why) 0x21 (dnPort l).val w2 w3)
  have hgang : (bbPow (latchLegs s l m why) 0x21 (dnPort l).val w2 w3).ppsg = s.ppsg := hall.parts .ppsg (by decide)
  have hlast : (bbPow (latchLegs s l m why) 0x21 (dnPort l).val w2 w3).pps[l].st = .latched := latchLegs_lead h m why
  obtain ⟨hp, -, -⟩ := releaseAll_rule (m := l) (by rw [hgang]; exact h) (by rw [hlast]; exact PpsSt.noConfusion)
  rw [heq]
  exact (congrArg Pps.st hp).trans hlast

/-- A leg as it is lost. -/
def legLost (lead : Bool) (why : Word) (p : Pps) : Pps :=
  { p with lost := true, st := if lead then p.st else .latched, limit := false, fold := false, latchBy := why
           recheck := false }

/-- The lost leg, and what the black box has of it. -/
def legGone (s : State) (m l : DnN) (why : Word) : State :=
  bbPow (modPps s m (legLost (m = l) why)) 0x22 (dnPort m).val (w16 (dnPort l).val) s.ppsg.gang

theorem legGone_rule (s : State) (m l : DnN) (why : Word) :
    Switches [.pps, .bb] m (legLost (m = l) why) s (legGone s m l why) :=
  (modPps_switches s m (legLost (m = l) why)).seq (switches_of_frame (bbPow_only _ _ _ _ _) m)

theorem loseLeg_eq (s : State) (m : DnN) (why : Word) : loseLeg s m why =
    if !bit s.ppsg.gang 12 || !((gangLegs s (leadNow s m)).any fun x => !(legGone s m (leadNow s m) why).pps[x].lost)
    then latchSwitch (legGone s m (leadNow s m) why) (leadNow s m) m why
    else pgCheckpoint (modPps (legGone s m (leadNow s m) why) (leadNow s m) fun p => { p with derated := true })
      (leadNow s m) := by
  have hput : modPps s m (fun p => { p with
      lost := true, st := if m = leadNow s m then p.st else .latched, limit := false, fold := false, latchBy := why
      recheck := false }) = modPps s m (legLost (m = leadNow s m) why) := by
    refine congrArg (modPps s m) (funext fun p => ?_)
    unfold legLost
    by_cases h : m = leadNow s m
    · rw [if_pos h, if_pos (decide_eq_true h)]
    · rw [if_neg h, if_neg (by simp [h])]
  unfold loseLeg legGone
  dsimp only
  rw [hput]

theorem legGone_lead {s : State} {m l : DnN} (hst : s.pps[l].st = .on) (why : Word) : (legGone s m l why).pps[l].st = .on := by
  have h := legGone_rule s m l why
  by_cases hm : l = m
  · subst hm
    rw [h.self]
    simp only [legLost, decide_true, if_true]
    exact hst
  · rw [h.others l hm]
    exact hst

/-- A lost leg latches its gang, or, with DERATE and legs left, leaves it running (R315). -/
theorem loseLeg_rule {s : State} {m l : DnN} (hm : leadOf s.ppsg.gang m = l) (hl : leadOf s.ppsg.gang l = l)
    (hst : s.pps[l].st = .on) (hleft : otherLegs s m ≠ []) (why : Word) :
    (loseLeg s m why).pps[m].lost = true ∧ (loseLeg s m why).pps[m].fault = s.pps[m].fault ∧
    (bit s.ppsg.gang 12 = false → (loseLeg s m why).pps[l].st = .latched) ∧
    (bit s.ppsg.gang 12 = true → (loseLeg s m why).pps[l].st = .on ∧ (loseLeg s m why).pps[l].derated = true) ∧
    only errParts s (loseLeg s m why) := by
  have hlead : leadNow s m = l := hm
  have hgone := legGone_rule s m l why
  have hkeep : lasting (legGone s m l why).pps[m] = (s.pps[m].on, true, s.pps[m].fault) := congrArg lasting hgone.self
  rw [loseLeg_eq, hlead]
  cases h12 : bit s.ppsg.gang 12
  · have hlatch := latchSwitch_lead (s := legGone s m l why) (by rw [hgone.gang]; exact hl) m why
    have hall := latchSwitch_allots (legGone s m l why) l m why
    have hlast := (hall.kept m).trans hkeep
    rw [Bool.not_false, Bool.true_or, if_pos rfl]
    exact ⟨congrArg (fun x => x.2.1) hlast, congrArg (fun x => x.2.2) hlast, fun _ => hlatch,
      fun h => absurd h Bool.false_ne_true, hgone.parts.seq hall.parts⟩
  · obtain ⟨x, hx⟩ := List.exists_mem_of_ne_nil _ hleft
    obtain ⟨hxl, hxc⟩ := List.mem_filter.mp hx
    have hxm : x ≠ m ∧ s.pps[x].lost = false := by simpa using hxc
    have hlegs : gangLegs s m = gangLegs s l := by rw [gangLegs, gangLegs, gangMembers, gangMembers, hm, hl]
    have hany : ((gangLegs s l).any fun x => !(legGone s m l why).pps[x].lost) = true :=
      List.any_eq_true.mpr ⟨x, by rw [← hlegs]; exact hxl, by rw [hgone.others x hxm.1, hxm.2]; rfl⟩
    have hput := modPps_switches (legGone s m l why) l fun p => { p with derated := true }
    have hon : (modPps (legGone s m l why) l fun p => { p with derated := true }).pps[l].st = .on :=
      (congrArg Pps.st hput.self).trans (legGone_lead hst why)
    have hpg : pgCheckpoint (modPps (legGone s m l why) l fun p => { p with derated := true }) l =
        modPps (legGone s m l why) l fun p => { p with derated := true } := by
      unfold pgCheckpoint
      rw [hon]
      rfl
    rw [hany, if_neg (by decide), hpg]
    have hlast := ((modPps_allots (legGone s m l why) l fun p => { p with derated := true }).kept m).trans hkeep
    exact ⟨congrArg (fun x => x.2.1) hlast, congrArg (fun x => x.2.2) hlast, fun h => absurd h (by decide),
      fun _ => ⟨hon, congrArg Pps.derated hput.self⟩, hgone.parts.seq hput.parts⟩

/-! ## Power-good and the timers (R303 to R306, R310) -/

theorem gangPg_single {s : State} {m : DnN} (h : single s m) : gangPg s m = (!s.pps[m].lost && s.pps[m].pg) := by
  unfold gangPg
  rw [h.2.2]
  cases hl : s.pps[m].lost <;> simp [hl, -Fin.getElem_fin]

/-- A switch with PG set. -/
def good (vgs : Word) (p : Pps) : Pps := { p with pg := true, vgs := fld vgs 0 8 }

theorem setPg_single {s : State} {m : DnN} (h : single s m) (hst : s.pps[m].st = .ramp) (hl : s.pps[m].lost = false)
    (vgs : Word) : Switches [.pps] m (fun p => if s.pps[m].on then { good vgs p with st := .on } else stopped (good vgs p))
      s (setPg s m vgs) := by
  have hput := modPps_switches s m (good vgs)
  have hone := hput.single h rfl
  have hpg : gangPg (modPps s m (good vgs)) m = true := by
    rw [gangPg_single hone, hput.self]
    show (!s.pps[m].lost && true) = true
    rw [hl]
    rfl
  have hset : setPg s m vgs = if (modPps s m (good vgs)).pps[m].on
      then modLegs (modPps s m (good vgs)) m fun p => { p with st := .on } else enterStopping (modPps s m (good vgs)) m := by
    unfold setPg pgCheckpoint
    rw [leadNow_single h]
    refine if_pos ?_
    rw [show (modPps s m fun p => { p with pg := true, vgs := fld vgs 0 8 }) = modPps s m (good vgs) from rfl, hpg,
      decide_eq_true ((congrArg Pps.st hput.self).trans hst)]
    rfl
  rw [hset, modLegs_single hone, show (modPps s m (good vgs)).pps[m].on = s.pps[m].on from (congrArg Pps.on hput.self :)]
  cases s.pps[m].on
  · exact hput.seq (rs := [.pps]) (enterStopping_single hone)
  · exact hput.seq (rs := [.pps]) (modPps_switches _ m fun p => { p with st := .on })

theorem gateOff_starts {s : State} {m : DnN} (h : single s m) (ho : s.pps[m].on = true) (hv : s.ppsg.vlow = false)
    (hl : linkOn s = true) (vgs : Word) :
    Switches [.pps] m (fun p => ramped { p with vgs := fld vgs 0 8 }) s (gateOff s m vgs) := by
  have hput := modPps_switches s m fun p => { p with vgs := fld vgs 0 8 }
  have hgo : gateOff s m vgs = startHeld (modPps s m fun p => { p with vgs := fld vgs 0 8 }) m := if_pos ho
  rw [hgo]
  exact hput.seq (startHeld_single (hput.single h rfl) (by rw [hput.gang]; exact hv)
    ((linkOn_of_frame hput.parts).trans hl))

theorem gateOff_discharges {s : State} {m : DnN} (h : single s m) (ho : s.pps[m].on = false) (vgs : Word) :
    (gateOff s m vgs).pps[m] = release { s.pps[m] with vgs := fld vgs 0 8, st := .discharge, discharging := true } ∧
    only errParts s (gateOff s m vgs) := by
  have hput := modPps_switches s m fun p => { p with vgs := fld vgs 0 8 }
  have hdis := modPps_switches s m fun p => { p with vgs := fld vgs 0 8, st := .discharge, discharging := true }
  have hgo : gateOff s m vgs =
      releaseAll (modPps s m fun p => { p with vgs := fld vgs 0 8, st := .discharge, discharging := true }) m := by
    unfold gateOff
    dsimp only
    rw [ho, if_neg Bool.false_ne_true, modLegs_single (hput.single h rfl), modPps_modPps]
  obtain ⟨hp, -, hparts⟩ := releaseAll_rule (m := m) (by rw [hdis.gang]; exact h.2.1)
    (by rw [hdis.self]; exact PpsSt.noConfusion)
  rw [hgo]
  exact ⟨hp.trans (congrArg release hdis.self), hdis.parts.seq hparts⟩

/-! ## The obligation -/

section Clauses
variable {m : DnN} {s : State} (hp : powerOn s = true) (h : single s m)
include hp h

theorem faults_driven (hl : s.pps[m].lost = false) (hd : driven s m = true) :
    (s.pps[m].on = true → s.pps[m].used < fld s.pps[m].retry 0 4 →
      (∃ t, exec (.oc m) s = .next t ∧ t.pps[m].st = .retry ∧ t.pps[m].fault = (s.pps[m].fault ||| 0x0001#16) ∧
        t.pps[m].used = satInc 15 s.pps[m].used ∧ t.pps[m].faults = satInc 255 s.pps[m].faults ∧
        ppsBut m s t ∧ only [.bb, .pps, .aon, .doms, .que, .out] s t) ∧
      (s.pps[m].limit = true ∨ linkOn s = false →
        ∃ t, exec (.foldTmo m) s = .next t ∧ t.pps[m].st = .retry ∧
          t.pps[m].fault = (s.pps[m].fault ||| 0x0002#16) ∧ ppsBut m s t ∧
          only [.bb, .pps, .aon, .doms, .que, .out] s t)) ∧
    (s.pps[m].on = true → fld s.pps[m].retry 0 4 ≤ s.pps[m].used → fld s.pps[m].retry 0 4 ≠ 15 →
      ∃ t, exec (.oc m) s = .next t ∧ t.pps[m].st = .latched ∧
        t.pps[m].fault = (s.pps[m].fault ||| 0x0001#16 ||| 0x0080#16) ∧ t.pps[m].grant = 0 ∧
        only [.bb, .pps, .aon, .doms, .ula, .que, .ports, .tt, .tb, .sur, .out] s t) ∧
    (s.pps[m].on = false →
      ∃ t, exec (.oc m) s = .next t ∧ t.pps[m].st = .stopping ∧
        t.pps[m].fault = (s.pps[m].fault ||| 0x0001#16) ∧ ppsBut m s t ∧
        only [.bb, .pps, .aon, .doms, .que, .out] s t) ∧
    (∀ vgs, s.pps[m].gateEn = true → fld vgs 0 8 < 30 →
      ∃ t, exec (.gateStuck m vgs) s = .next t ∧ t.pps[m].st = .latched ∧
        t.pps[m].fault = (s.pps[m].fault ||| 0x0008#16) ∧
        only [.bb, .pps, .aon, .doms, .ula, .que, .ports, .tt, .tb, .sur, .out] s t) := by
  refine ⟨fun ho hu => ⟨?_, fun hlim => ?_⟩, fun ho hu h15 => ?_, fun ho => ?_, fun vgs hg hv => ?_⟩
  · obtain ⟨hself, hbut, -, hparts⟩ := tripFault_retries (bits := 0x0001#16) h hl hd ho hu
    exact ⟨_, exec_onPower hp rfl, congrArg Pps.st hself, congrArg Pps.fault hself, congrArg Pps.used hself,
      congrArg Pps.faults hself, hbut, hparts⟩
  · obtain ⟨hself, hbut, -, hparts⟩ := tripFault_retries (bits := 0x0002#16) h hl hd ho hu
    have hgo : (driven s m && (s.pps[m].limit || !linkOn s)) = true := by
      rcases hlim with hlim | hlim <;> rw [hd, hlim] <;> simp
    exact ⟨_, exec_onPower hp (whenDo_holds hgo), congrArg Pps.st hself, congrArg Pps.fault hself, hbut, hparts⟩
  · obtain ⟨⟨_, hself⟩, hparts⟩ := tripFault_latches (bits := 0x0001#16) h hl hd ho hu h15
    exact ⟨_, exec_onPower hp rfl, congrArg Pps.st hself, congrArg Pps.fault hself, congrArg Pps.grant hself, hparts⟩
  · obtain ⟨hself, hbut, -, hparts⟩ := tripFault_stops (bits := 0x0001#16) h hl hd ho
    exact ⟨_, exec_onPower hp rfl, congrArg Pps.st hself, congrArg Pps.fault hself, hbut, hparts⟩
  · have hput := modPps_switches s m fun p => { p with vgs := fld vgs 0 8 }
    have hgo : (checksRun s m && driven s m && s.pps[m].gateEn && !s.pps[m].lost && fld vgs 0 8 < 30) = true := by
      rw [checksRun, h.1, hd, hg, hl, decide_eq_true hv]
      rfl
    obtain ⟨hself, hparts⟩ := latchFault_single (hput.single h rfl) 0x0008#16
    rw [← legFault_single (hput.single h rfl)] at hself hparts
    rw [hput.self] at hself
    exact ⟨_, exec_onPower hp (whenDo_holds hgo), congrArg Pps.st hself, congrArg Pps.fault hself,
      hput.parts.seq hparts⟩

theorem faults_held (hst : s.pps[m].st = .off ∨ (s.pps[m].st = .ramp ∧ (s.pps[m].chkReq = true ∨ s.pps[m].chkDue = true))) :
    exec (.oc m) s = .next s ∧ exec (.foldTmo m) s = .next s ∧
      ∀ vgs, exec (.gateStuck m vgs) s = .next s ∧ exec (.powerGood m vgs) s = .next s := by
  have hd := not_driven h hst
  have hstop : s.pps[m].st ≠ .stopping := by
    rcases hst with hst | ⟨hst, -⟩ <;> rw [hst] <;> exact PpsSt.noConfusion
  refine ⟨exec_onPower hp (tripFault_idle h hd hstop _), exec_onPower hp (whenDo_fails ?_), fun vgs =>
    ⟨exec_onPower hp (whenDo_fails ?_), exec_onPower hp (whenDo_fails ?_)⟩⟩ <;> rw [hd] <;> simp

theorem shortOff_rule :
    (s.pps[m].st = .off → s.pps[m].voffArmed = true → s.pps[m].voffEn = true →
      ∃ t, exec (.shortOff m) s = .next t ∧ t.pps[m].st = .latched ∧ t.pps[m].latchBy = 0x0004#16 ∧
        t.pps[m].fault = (s.pps[m].fault ||| 0x0004#16) ∧
        only [.bb, .pps, .aon, .doms, .ula, .que, .ports, .tt, .tb, .sur, .out] s t) ∧
    ((s.pps[m].st ≠ .off ∨ s.pps[m].voffArmed = false ∨ s.pps[m].voffEn = false) →
      exec (.shortOff m) s = .next s) := by
  refine ⟨fun hst ha he => ?_, fun hno => exec_onPower hp (whenDo_fails ?_)⟩
  · have hput := modPps_switches s m fun p => { p with voffHigh := true }
    have hgo : (checksRun s m && s.pps[m].st = .off && s.pps[m].voffArmed && s.pps[m].voffEn) = true := by
      rw [checksRun, h.1, decide_eq_true hst, ha, he]
      rfl
    obtain ⟨hself, hparts⟩ := latchFault_single (hput.single h rfl) 0x0004#16
    rw [hput.self] at hself
    refine ⟨_, exec_onPower hp ((whenDo_holds hgo).trans
      (congrArg (fun l => latchSwitch (recordFault (modPps s m fun p => { p with voffHigh := true }) m 0x0004#16) l m
        0x0004#16) (leadNow_single h))), congrArg Pps.st hself, congrArg Pps.latchBy hself, congrArg Pps.fault hself,
      hput.parts.seq hparts⟩
  · rcases hno with hno | hno | hno
    · rw [decide_eq_false hno]
      simp
    · rw [hno]
      simp
    · rw [hno]
      simp

end Clauses

/-- LEGOPEN in a gang that is on (R315). -/
theorem legOpen_rule {m l : DnN} {n sum : Int} {s : State} (hp : powerOn s = true) (hm : leadOf s.ppsg.gang m = l)
    (hl : leadOf s.ppsg.gang l = l) (hf : s.pps[m].fitted = true) (hst : s.pps[l].st = .on) (hpg : gangPg s m = true)
    (hlost : s.pps[m].lost = false) (hn : n = (otherLegs s m).length) (hsum : sum = sumReadings s (otherLegs s m)) :
    (0 < n → 8 * n * s.mtr.ports[m].i.toInt < sum → 125 * n * fld s.pps[l].ilim 0 8 ≤ 4 * sum →
      ∃ t, exec (.legopen m) s = .next t ∧ t.pps[m].lost = true ∧
        (bit s.ppsg.gang 12 = false → t.pps[l].st = .latched) ∧
        (bit s.ppsg.gang 12 = true → t.pps[l].st = .on ∧ t.pps[l].derated = true) ∧
        t.pps[m].fault = (s.pps[m].fault ||| 0x0040#16) ∧
        only [.bb, .pps, .aon, .doms, .ula, .que, .ports, .tt, .tb, .sur, .out] s t) ∧
    ((n = 0 ∨ sum ≤ 8 * n * s.mtr.ports[m].i.toInt ∨ 4 * sum < 125 * n * fld s.pps[l].ilim 0 8) →
      exec (.legopen m) s = .next s) := by
  have hilim : ilimN s m = fld s.pps[l].ilim 0 8 := congrArg (fun k : DnN => fld s.pps[k].ilim 0 8) hm
  have hlst : s.pps[leadNow s m].st = .on := (congrArg (fun k : DnN => s.pps[k].st) hm).trans hst
  have hopen : legOpen s m = (0 < n && 8 * n * s.mtr.ports[m].i.toInt < sum && 125 * n * fld s.pps[l].ilim 0 8 ≤ 4 * sum) := by
    unfold legOpen
    rw [hilim, ← hn, ← hsum]
  refine ⟨fun h0 h1 h2 => ?_, fun hno => exec_onPower hp (whenDo_fails ?_)⟩
  · have hgo : (checksRun s m && legOpen s m && s.pps[leadNow s m].st = .on && gangPg s m && !s.pps[m].lost) = true := by
      rw [checksRun, hf, hopen, decide_eq_true h0, decide_eq_true h1, decide_eq_true h2, hlst, hpg, hlost]
      rfl
    have hrec := recordFault_switches s m 0x0040#16
    have hlegs : otherLegs (recordFault s m 0x0040#16) m = otherLegs s m := by
      unfold otherLegs
      rw [gangLegs_of (congrArg PpsG.gang hrec.gang) (hrec.fitted rfl)]
      refine List.filter_congr fun x _ => ?_
      by_cases hx : x = m
      · subst hx
        simp
      · rw [hrec.others x hx]
    have hleft : otherLegs (recordFault s m 0x0040#16) m ≠ [] := fun he => by
      rw [hlegs] at he
      rw [he] at hn
      exact absurd (hn ▸ h0) (by decide)
    have hon : (recordFault s m 0x0040#16).pps[l].st = .on := by
      by_cases hlm : l = m
      · subst hlm
        exact (congrArg Pps.st hrec.self).trans hst
      · rw [hrec.others l hlm]
        exact hst
    obtain ⟨hlost, hfault, hlatch, hder, hparts⟩ := loseLeg_rule (by rw [hrec.gang]; exact hm) (by rw [hrec.gang]; exact hl)
      hon hleft 0x0040#16
    rw [hrec.gang] at hlatch hder
    exact ⟨_, exec_onPower hp (whenDo_holds hgo), hlost, hlatch, hder, hfault.trans (congrArg Pps.fault hrec.self),
      hrec.parts.seq hparts⟩
  · have hnot : legOpen s m = false := by
      rw [hopen]
      simp only [Bool.and_eq_false_iff, decide_eq_false_iff_not]
      omega
    rw [hnot]
    simp

/-- Power-good, and its loss (R303, R305). -/
theorem powerGood_rule {m : DnN} {s : State} (hp : powerOn s = true) (h : single s m) :
    (∀ vgs, s.pps[m].st = .ramp → s.pps[m].chkReq = false → s.pps[m].chkDue = false → s.pps[m].on = true →
      s.pps[m].lost = false → 80 ≤ fld vgs 0 8 →
      ∃ t, exec (.powerGood m vgs) s = .next t ∧
        t.pps[m] = { s.pps[m] with pg := true, vgs := fld vgs 0 8, st := .on } ∧ ppsBut m s t ∧ only [.pps] s t) ∧
    (∀ vgs, s.pps[m].st = .ramp → s.pps[m].chkReq = false → s.pps[m].chkDue = false → s.pps[m].on = false →
      s.pps[m].lost = false → 80 ≤ fld vgs 0 8 →
      ∃ t, exec (.powerGood m vgs) s = .next t ∧ t.pps[m].st = .stopping ∧ t.pps[m].pg = true ∧
        ppsBut m s t ∧ only [.pps] s t) ∧
    (∀ vgs, fld vgs 0 8 < 80 → exec (.powerGood m vgs) s = .next s) ∧
    (s.pps[m].pg = false → exec (.powerGoodLoss m) s = .next s) ∧
    (s.pps[m].pg = true → linkOn s = true →
      exec (.powerGoodLoss m) s = .next (signalLost (modPps s m fun p => { p with pg := false }) (dnPort m))) := by
  have hrun : ∀ vgs, s.pps[m].st = .ramp → s.pps[m].chkReq = false → s.pps[m].chkDue = false → s.pps[m].lost = false →
      80 ≤ fld vgs 0 8 → exec (.powerGood m vgs) s = .next (setPg s m vgs) := fun vgs hst hc hd hl hv => by
    refine exec_onPower hp (whenDo_holds ?_)
    rw [checksRun, h.1, driven_of h (.inr ⟨hst, hc, hd⟩), hl, decide_eq_true hv]
    rfl
  refine ⟨fun vgs hst hc hd ho hl hv => ?_, fun vgs hst hc hd ho hl hv => ?_, fun vgs hv => ?_, fun hpg => ?_,
    fun hpg hl => ?_⟩
  · obtain ⟨hself, hbut, -, hparts⟩ := setPg_single h hst hl vgs
    rw [ho] at hself
    exact ⟨_, hrun vgs hst hc hd hl hv, hself, hbut, hparts⟩
  · obtain ⟨hself, hbut, -, hparts⟩ := setPg_single h hst hl vgs
    rw [ho] at hself
    exact ⟨_, hrun vgs hst hc hd hl hv, congrArg Pps.st hself, congrArg Pps.pg hself, hbut, hparts⟩
  · refine exec_onPower hp (whenDo_fails ?_)
    rw [decide_eq_false (Nat.not_le.mpr hv), Bool.and_false]
  · exact exec_onPower hp (whenDo_fails hpg)
  · refine exec_onPower hp ((whenDo_holds hpg).trans ?_)
    have hput := modPps_switches s m fun p => { p with pg := false }
    have hloss : gangPg (modPps s m fun p => { p with pg := false }) m = false := by
      rw [gangPg_single (hput.single h rfl), hput.self]
      exact Bool.and_false _
    dsimp only
    rw [leadNow_single h, hl, switched_single h, hloss]
    rfl

/-- The timers of a switch in no gang (R304, R305, R306, R310). -/
theorem timers_rule {m : DnN} {s : State} (hp : powerOn s = true) (h : single s m) :
    (s.pps[m].st = .retry → s.ppsg.vlow = false → linkOn s = true →
      ∃ t, exec (.retryEnd m) s = .next t ∧ t.pps[m].st = .ramp ∧ t.pps[m].grant = s.pps[m].grant ∧
        ppsBut m s t ∧ only [.pps] s t) ∧
    (s.pps[m].st ≠ .retry → exec (.retryEnd m) s = .next s) ∧
    (gangPg s m = true →
      ∃ t, exec (.retryCountClear m) s = .next t ∧ t.pps[m] = { s.pps[m] with used := 0 } ∧ ppsBut m s t ∧
        only [.pps] s t) ∧
    (gangPg s m = false → exec (.retryCountClear m) s = .next s) ∧
    (∀ vgs, s.pps[m].st = .stopping → s.pps[m].on = true → s.ppsg.vlow = false → linkOn s = true →
      ∃ t, exec (.gateOffCheckpoint m vgs) s = .next t ∧ t.pps[m].st = .ramp ∧ t.pps[m].vgs = fld vgs 0 8 ∧
        t.pps[m].grant = s.pps[m].grant ∧ t.pps[m].rsv = s.pps[m].rsv ∧ ppsBut m s t ∧ only [.pps] s t) ∧
    (∀ vgs, s.pps[m].st = .stopping → s.pps[m].on = false →
      ∃ t, exec (.gateOffCheckpoint m vgs) s = .next t ∧ t.pps[m].st = .discharge ∧
        t.pps[m].discharging = true ∧ t.pps[m].grant = 0 ∧ t.pps[m].rsv = false ∧
        only [.bb, .pps, .aon, .doms, .ula, .que, .ports, .tt, .tb, .sur, .out] s t) ∧
    (∀ vgs, s.pps[m].st ≠ .stopping → exec (.gateOffCheckpoint m vgs) s = .next s) ∧
    (s.pps[m].st = .discharge →
      ∃ t, exec (.dischargeEnd m) s = .next t ∧ t.pps[m].st = .off ∧ t.pps[m].discharging = true ∧
        t.pps[m].voffArmed = false ∧ ppsBut m s t ∧ only [.pps] s t) ∧
    (s.pps[m].st ≠ .discharge → exec (.dischargeEnd m) s = .next s) ∧
    (s.pps[m].st = .off →
      ∃ t, exec (.offDischargeEnd m) s = .next t ∧
        t.pps[m] = { s.pps[m] with discharging := false, voffArmed := true } ∧ ppsBut m s t ∧ only [.pps] s t) ∧
    (s.pps[m].st ≠ .off → exec (.offDischargeEnd m) s = .next s) := by
  have hlead : ∀ x, s.pps[m].st = x → (s.pps[m].st = x && isLead s.ppsg.gang m) = true := fun x hx => by
    rw [decide_eq_true hx, isLead_single h]
    rfl
  have hother : ∀ x, s.pps[m].st ≠ x → (s.pps[m].st = x && isLead s.ppsg.gang m) = false := fun x hx => by
    rw [decide_eq_false hx, Bool.false_and]
  refine ⟨fun hst hv hl => ?_, fun hst => exec_onPower hp (whenDo_fails (hother _ hst)), fun hpg => ?_,
    fun hpg => exec_onPower hp (whenDo_fails hpg), fun vgs hst ho hv hl => ?_, fun vgs hst ho => ?_,
    fun vgs hst => exec_onPower hp (whenDo_fails (hother _ hst)), fun hst => ?_,
    fun hst => exec_onPower hp (whenDo_fails (hother _ hst)), fun hst => ?_, fun hst => exec_onPower hp (whenDo_fails ?_)⟩
  · obtain ⟨hself, hbut, -, hparts⟩ := startHeld_single h hv hl
    exact ⟨_, exec_onPower hp (whenDo_holds (hlead _ hst)), congrArg Pps.st hself, (congrArg Pps.grant hself :), hbut, hparts⟩
  · exact ⟨_, exec_onPower hp (whenDo_holds hpg), modPps_rule s m _⟩
  · obtain ⟨hself, hbut, -, hparts⟩ := gateOff_starts h ho hv hl vgs
    exact ⟨_, exec_onPower hp (whenDo_holds (hlead _ hst)), congrArg Pps.st hself, congrArg Pps.vgs hself,
      (congrArg Pps.grant hself :), (congrArg Pps.rsv hself :), hbut, hparts⟩
  · obtain ⟨hself, hparts⟩ := gateOff_discharges h ho vgs
    exact ⟨_, exec_onPower hp (whenDo_holds (hlead _ hst)), congrArg Pps.st hself, congrArg Pps.discharging hself,
      congrArg Pps.grant hself, congrArg Pps.rsv hself, hparts⟩
  · obtain ⟨hself, hbut, -, hparts⟩ := enterOff_single h
    exact ⟨_, exec_onPower hp (whenDo_holds (hlead _ hst)), congrArg Pps.st hself, congrArg Pps.discharging hself,
      congrArg Pps.voffArmed hself, hbut, hparts⟩
  · have hgo : (s.pps[m].st = .off && checksRun s m) = true := by
      rw [decide_eq_true hst, checksRun, h.1]
      rfl
    exact ⟨_, exec_onPower hp (whenDo_holds hgo), modPps_rule s m _⟩
  · rw [decide_eq_false hst, Bool.false_and]

/-- Settles O47: it holds.  A switch in no gang is its own lead and its only leg, so each fault and each timer changes
its record alone, until a latch releases its allocation and the budget pass runs over the other switches. -/
theorem switchFaultsAndTimers : Obligations.SwitchFaultsAndTimers := by
  unfold Obligations.SwitchFaultsAndTimers
  refine ⟨fun m s hp h hl => ⟨fun hst => faults_driven hp h hl (driven_of h hst), fun hlim hlink => ?_, faults_held hp h,
      (shortOff_rule hp h).1, (shortOff_rule hp h).2, ?_, ?_⟩,
    fun m l n sum s hp hm hl _ hf hst hpg hlost hn hsum => legOpen_rule hp hm hl hf hst hpg hlost hn hsum,
    fun m s hp h => ?_⟩
  · refine exec_onPower hp (whenDo_fails ?_)
    rw [hlim, hlink]
    exact Bool.and_false _
  · obtain ⟨hst, hfault, hparts⟩ := reverseFault_single h
    exact ⟨_, exec_onPower hp (whenDo_holds h.1), hst, hfault, hparts⟩
  · refine exec_onPower hp (whenDo_fails ?_)
    rw [legOpen_single h, Bool.and_false]
    rfl
  · obtain ⟨hon, hstop, hlow, hnone, hloss⟩ := powerGood_rule hp h
    exact ⟨hon, hstop, hlow, hnone, hloss, timers_rule hp h⟩

end Sys2Proof.Machine
end

section
/-! PROOF. The metering sequence, the bias checks and the snapshots (O48). -/

namespace Sys2Proof.Machine

open Sys2Proof Sys2Proof.Safety

-- One proof after the other: side by side, the proofs of one text wait for each other in too many threads.
set_option Elab.async false


/-! ## Faults of a leg, in a gang or not -/

theorem pgCheckpoint_parts (s : State) (l : DnN) : only errParts s (pgCheckpoint s l) := by
  unfold pgCheckpoint
  exact only_ite _ (only_ite _ (modLegs_allots s l _).parts (modLegs_allots s l _).parts) (only_refl _ s)

theorem loseLeg_parts (s : State) (m : DnN) (why : Word) : only errParts s (loseLeg s m why) := by
  have hgone := (legGone_rule s m (leadNow s m) why).parts
  rw [loseLeg_eq]
  exact only_ite _ (hgone.seq (latchSwitch_allots _ _ m why).parts)
    (hgone.seq ((modPps_frame _ _ _).seq (pgCheckpoint_parts _ _) (rs := errParts)))

theorem legFault_parts (s : State) (m : DnN) (bits : Word) : only errParts s (legFault s m bits) := by
  have hrec := (recordFault_switches s m bits).parts
  unfold legFault
  exact only_ite _ (hrec.seq (latchSwitch_allots _ _ m bits).parts) (hrec.seq (loseLeg_parts _ m bits))

/-- SENSE_FAULT of a switch in no gang latches it (R307). -/
theorem senseFault_single {s : State} {m : DnN} (h : single s m) :
    (senseFault s m).pps[m] = release (latching 0x0020#16 (faulted 0x0020#16 s.pps[m])) := by
  unfold senseFault
  rw [legFault_single h]
  exact (latchFault_single h 0x0020#16).1

/-! ## The loop of a switch in no gang that is on (R300) -/

theorem noteFold_self (s : State) (m : DnN) : (noteFold s).pps[m] =
    { s.pps[m] with fold := driven s m && !s.pps[m].lost && powerTerm s m } := by
  unfold noteFold
  exact Vector.getElem_ofFn _

theorem noteFold_parts (s : State) : only [.pps] s (noteFold s) := pps_frame s _

/-- A sample's own slot, its readings stored. -/
def paired (s : State) (m : DnN) (i v : Word) : State :=
  { s with mtr := { s.mtr with ports := vMod s.mtr.ports m (takePair i v) } }

theorem paired_port (s : State) (m : DnN) (i v : Word) : (paired s m i v).mtr.ports[m] = takePair i v s.mtr.ports[m] :=
  vMod_get_self _ m _

theorem paired_others (s : State) {m x : DnN} (h : x ≠ m) (i v : Word) :
    (paired s m i v).mtr.ports[x] = s.mtr.ports[x] := vMod_get_ne _ m x _ h

theorem notePair_parts (s : State) (m : DnN) (i v : Word) (reg : Bool) : only errParts s (notePair s m i v reg) := by
  have hput : ∀ f : Pps → Pps, only [.pps] s (noteFold (modPps s m f)) := fun f =>
    (modPps_frame s m f).seq (noteFold_parts _)
  unfold notePair
  dsimp only
  exact only_ite _ ((hput _).seq ((modPps_frame _ m _).seq (legFault_parts _ m 0x0020#16) (rs := errParts)))
    (hput _).widen

/-- What a pair sample stores of the switch. -/
def shownPair (lim : Bool) (v : Word) (p : Pps) : Pps := { p with limit := lim, voffHigh := 2000 < v.toNat, pinned := 0 }

theorem notePair_on {s : State} {m : DnN} (h : single s m) (hst : s.pps[m].st = .on) (hl : s.pps[m].lost = false)
    {i : Word} (hi : fullScale i = false) (v : Word) (reg : Bool) : (notePair s m i v reg).pps[m] =
      { s.pps[m] with limit := regulates s m i reg, voffHigh := 2000 < v.toNat, pinned := 0, fold := powerTerm s m } := by
  have hd := driven_of h (.inl hst)
  have hput := modPps_switches s m (shownPair (regulates s m i reg) v)
  have hone := hput.single h rfl
  have hd1 : driven (modPps s m (shownPair (regulates s m i reg) v)) m = true :=
    driven_of hone (.inl ((congrArg Pps.st hput.self).trans hst))
  have hl1 : (modPps s m (shownPair (regulates s m i reg) v)).pps[m].lost = false := (congrArg Pps.lost hput.self).trans hl
  have hlead : (modPps s m (shownPair (regulates s m i reg) v)).pps[leadNow (modPps s m (shownPair (regulates s m i reg) v)) m] =
      shownPair (regulates s m i reg) v s.pps[m] := (leadPps_single hone).trans hput.self
  have hterm : powerTerm (modPps s m (shownPair (regulates s m i reg) v)) m = powerTerm s m := by
    unfold powerTerm pfoldN ilimN
    rw [hlead, leadPps_single h]
    rfl
  have hnote : notePair s m i v reg = noteFold (modPps s m (shownPair (regulates s m i reg) v)) := by
    unfold notePair
    dsimp only
    rw [hi, hd, hl]
    rfl
  rw [hnote, noteFold_self, hd1, hl1, hterm, hput.self]
  rfl

theorem powerTerm_of {s : State} {m : DnN} (h : single s m) : powerTerm s m =
    decide (500000 * s.pps[m].pfold.toNat < 250 * fld s.pps[m].ilim 0 8 * vds s m) := by
  unfold powerTerm pfoldN ilimN
  rw [leadPps_single h, Nat.mul_assoc 250]
  exact decide_eq_decide.mpr (by omega)

/-- VLIM of a switch in no gang, in µV. -/
theorem vlim_of {s : State} {m : DnN} (h : single s m) : vlim s m =
    min (250 * fld s.pps[m].ilim 0 8) (500000 * s.pps[m].pfold.toNat / vds s m) := by
  unfold vlim pfoldN ilimN
  rw [leadPps_single h]

theorem regulates_of {s : State} {m : DnN} {i : Word} {reg : Bool} {lim tol : Int} (hl : (vlim s m : Int) = lim)
    (ht : (vlimTol s m : Int) = tol) : (2 * i.toInt < lim - tol → regulates s m i reg = false) ∧
    (lim + tol < 2 * i.toInt → regulates s m i reg = true) ∧
    (lim - tol ≤ 2 * i.toInt → 2 * i.toInt ≤ lim + tol → regulates s m i reg = reg) := by
  have h0 : 0 ≤ tol := by omega
  unfold regulates
  rw [hl, ht]
  refine ⟨fun h => if_pos h, fun h => ?_, fun h h' => ?_⟩
  · rw [if_neg (by omega), if_pos h]
  · rw [if_neg (by omega), if_neg (by omega)]

/-! ## The slots (R319, R320) -/

theorem exec_meterSample {m : DnN} {x : Sample} {s : State} (hl : linkOn s = true) (hs : s.mtr.slot = sampleSlot m x) :
    exec (.meterSample m x) s = .next (nextSlot (meterSample s m x)) :=
  onLink_eq hl (whenDo_holds (decide_eq_true hs))

/-- The slot after the one that runs. -/
def slotOn (s : State) : State := { s with mtr := { s.mtr with slot := s.mtr.slot + 1 } }

theorem slotOn_frame (s : State) : only [.mtr] s (slotOn s) := mtr_frame s _

theorem nextSlot_next {s : State} (h : s.mtr.slot < 31) : nextSlot s = slotOn s := if_neg (by omega)

theorem takeBias_passes (s : State) (m : DnN) (inj : Word) (h : biasOk s.mtr.ports[m].i inj = true) :
    takeBias s m inj = modPps s m fun p =>
      { p with senseOk := true, chkDue := false, recheck := p.recheck && p.chkReq } := by
  unfold takeBias
  rw [h]
  rfl

theorem takeBias_fails {s : State} {m : DnN} {inj : Word} (hs : single s m) (h : biasOk s.mtr.ports[m].i inj = false) :
    (takeBias s m inj).pps[m].st = .latched ∧ (takeBias s m inj).pps[m].senseOk = false ∧
    (takeBias s m inj).pps[m].fault = (s.pps[m].fault ||| 0x0020#16) ∧ only errParts s (takeBias s m inj) := by
  have hput := modPps_switches s m fun p => { p with senseOk := false, chkDue := false, recheck := p.recheck && p.chkReq }
  have hgo : takeBias s m inj = senseFault (modPps s m fun p =>
      { p with senseOk := false, chkDue := false, recheck := p.recheck && p.chkReq }) m := by
    unfold takeBias
    rw [h]
    rfl
  have hself := senseFault_single (hput.single hs rfl)
  rw [hput.self] at hself
  rw [hgo]
  exact ⟨congrArg Pps.st hself, congrArg Pps.senseOk hself, congrArg Pps.fault hself,
    hput.parts.seq (legFault_parts _ m 0x0020#16)⟩

theorem spareEnds_early {s : State} {m : DnN} (h : m.val < 15) (cur volt : Word) :
    spareEnds s m cur volt = if biasDue s m then takeBias s m cur else s := if_neg (by omega)

/-- A pair sample (R319, R324). -/
theorem pair_rule {m : DnN} {s : State} (hl : linkOn s = true) (hs : s.mtr.slot = 2 * m.val) (i v : Word) (reg : Bool) :
    ∃ t, exec (.meterSample m (.pair i v reg)) s = .next t ∧ t.mtr.slot = s.mtr.slot + 1 ∧
      t.mtr.frame = s.mtr.frame ∧ t.mtr.ports[m] = takePair i v s.mtr.ports[m] ∧
      (∀ x : DnN, x ≠ m → t.mtr.ports[x] = s.mtr.ports[x]) ∧
      t.pps = (notePair (paired s m i v) m i v reg).pps ∧ only (.mtr :: errParts) s t := by
  have hnote := notePair_parts (paired s m i v) m i v reg
  have hmtr : (notePair (paired s m i v) m i v reg).mtr = (paired s m i v).mtr := hnote .mtr (by decide)
  have hnext : nextSlot (notePair (paired s m i v) m i v reg) = slotOn (notePair (paired s m i v) m i v reg) :=
    nextSlot_next (by rw [hmtr]; exact lt_of_eq_of_lt hs (by omega))
  refine ⟨slotOn (notePair (paired s m i v) m i v reg),
    (exec_meterSample (x := .pair i v reg) hl hs).trans (congrArg Host.Outcome.next hnext), ?_, ?_, ?_, fun x hx => ?_, rfl, ?_⟩
  · exact (congrArg (fun t : Mtr => t.slot + 1) hmtr :)
  · exact (congrArg Mtr.frame hmtr :)
  · exact (congrArg (fun t : Mtr => t.ports[m]) hmtr).trans (paired_port s m i v)
  · exact (congrArg (fun t : Mtr => t.ports[x]) hmtr).trans (paired_others s hx i v)
  · exact (show only [.mtr] s (paired s m i v) from mtr_frame s _).seq (hnote.seq (slotOn_frame _) (rs := .mtr :: errParts))

/-- What a pair sample shows of the loop (R300). -/
theorem loop_rule {m : DnN} {s : State} (h : single s m) (hst : s.pps[m].st = .on) (hlost : s.pps[m].lost = false)
    {i : Word} (h1 : i ≠ 0x7FFF#16) (h2 : i ≠ 0x8000#16) (v : Word) (reg : Bool) :
    ∃ q, (notePair (paired s m i v) m i v reg).pps[m] = q ∧
      let vds := max 1000 (s.mtr.vlink.toNat - v.toNat)
      let ilim := 250 * fld s.pps[m].ilim 0 8
      let pow := 500000 * s.pps[m].pfold.toNat
      let lim : Int := (min ilim (pow / vds) : Nat)
      let tol : Int := (max (min ilim (pow / vds) / 20) 100 : Nat)
      (2 * i.toInt < lim - tol → q.limit = false) ∧ (lim + tol < 2 * i.toInt → q.limit = true) ∧
      (lim - tol ≤ 2 * i.toInt → 2 * i.toInt ≤ lim + tol → q.limit = reg) ∧
      q.fold = decide (pow < ilim * vds) ∧ q.st = .on := by
  have hone : single (paired s m i v) m := h
  have hfull : fullScale i = false := by
    unfold fullScale
    rw [decide_eq_false h1, decide_eq_false h2]
    rfl
  have hvds : vds (paired s m i v) m = max 1000 (s.mtr.vlink.toNat - v.toNat) := by
    unfold vds
    rw [paired_port]
    rfl
  have hvlim := vlim_of hone
  rw [hvds] at hvlim
  have htol : vlimTol (paired s m i v) m = max (vlim (paired s m i v) m / 20) 100 := rfl
  rw [hvlim] at htol
  have hterm := powerTerm_of hone
  rw [hvds] at hterm
  obtain ⟨hlow, hhigh, hin⟩ := regulates_of (i := i) (reg := reg) (congrArg Nat.cast hvlim) (congrArg Nat.cast htol)
  exact ⟨_, notePair_on hone hst hlost hfull v reg, hlow, hhigh, hin, hterm, hst⟩

theorem spare_rule {m : DnN} {s : State} (hl : linkOn s = true) (hs : s.mtr.slot = 2 * m.val + 1) (hm : m.val < 15)
    (cur volt : Word) :
    (biasDue s m = false →
      ∃ t, exec (.meterSample m (.spare cur volt)) s = .next t ∧ t.mtr = { s.mtr with slot := s.mtr.slot + 1 } ∧
        only [.mtr] s t) ∧
    (biasDue s m = true → biasOk s.mtr.ports[m].i cur = true →
      ∃ t, exec (.meterSample m (.spare cur volt)) s = .next t ∧ t.mtr = { s.mtr with slot := s.mtr.slot + 1 } ∧
        t.pps[m] = { s.pps[m] with senseOk := true, chkDue := false, recheck := s.pps[m].recheck && s.pps[m].chkReq } ∧
        ppsBut m s t ∧ only [.pps, .mtr] s t) ∧
    (biasDue s m = true → biasOk s.mtr.ports[m].i cur = false → single s m →
      ∃ t, exec (.meterSample m (.spare cur volt)) s = .next t ∧ t.pps[m].st = .latched ∧ t.pps[m].senseOk = false ∧
        t.pps[m].fault = (s.pps[m].fault ||| 0x0020#16) ∧ only (.mtr :: errParts) s t) := by
  have hslot : s.mtr.slot < 31 := lt_of_eq_of_lt hs (by omega)
  have hrun : ∀ t, spareEnds s m cur volt = t → t.mtr = s.mtr →
      exec (.meterSample m (.spare cur volt)) s = .next (slotOn t) := fun t ht hmtr => by
    refine (exec_meterSample (m := m) (x := .spare cur volt) hl hs).trans (congrArg Host.Outcome.next ?_)
    show nextSlot (spareEnds s m cur volt) = slotOn t
    rw [ht]
    exact nextSlot_next (by rw [hmtr]; exact hslot)
  have hends := spareEnds_early (s := s) hm cur volt
  refine ⟨fun hd => ?_, fun hd hok => ?_, fun hd hok h => ?_⟩
  · rw [hd] at hends
    exact ⟨_, hrun s hends rfl, rfl, slotOn_frame s⟩
  · rw [hd, if_pos rfl, takeBias_passes s m cur hok] at hends
    obtain ⟨hself, hbut, hparts⟩ := modPps_rule s m fun p =>
      { p with senseOk := true, chkDue := false, recheck := p.recheck && p.chkReq }
    exact ⟨_, hrun _ hends rfl, rfl, hself, hbut, hparts.seq (slotOn_frame _)⟩
  · rw [hd, if_pos rfl] at hends
    obtain ⟨hst, hok', hfault, hparts⟩ := takeBias_fails h hok
    exact ⟨_, hrun _ hends (hparts .mtr (by decide)), hst, hok', hfault, hparts.seq (slotOn_frame _)⟩

theorem biasDue_iff {m : DnN} {s : State} (h : single s m) (hl : s.pps[m].lost = false) : biasDue s m = true ↔
    (s.pps[m].chkDue = true ∧ (s.pps[m].recheck = true ∨ s.pps[m].st = .ramp ∨ s.pps[m].st = .on)) ∨
    (s.mtr.frame % 31 = 0 ∧ (s.pps[m].st = .ramp ∨ s.pps[m].st = .on)) := by
  have hstarts : starts s m = true ↔ s.pps[m].st = .ramp ∨ s.pps[m].st = .on := by
    unfold starts
    rw [leadPps_single h, Bool.or_eq_true, decide_eq_true_eq, decide_eq_true_eq]
  unfold biasDue senseRuns checksRun
  rw [h.1, hl, ← hstarts]
  cases starts s m <;> cases s.pps[m].recheck <;> cases s.pps[m].chkDue <;> simp

/-- Slot 31 ends the frame (R319). -/
theorem frame_rule {s : State} (hl : linkOn s = true) (hs : s.mtr.slot = 31) (hd : biasDue s 15 = false) (cur volt : Word) :
    ∃ t, exec (.meterSample 15 (.spare cur volt)) s = .next t ∧ t.mtr.slot = 0 ∧ t.mtr.frame = s.mtr.frame + 1 ∧
      t.mtr.vlink = (if s.mtr.frame % 8 = 0 then volt else s.mtr.vlink) ∧
      t.mtr.temp = (if s.mtr.frame % 8 = 4 then volt else s.mtr.temp) ∧ t.mtr.ports = s.mtr.ports ∧
      (∀ x : DnN, t.pps[x] = { s.pps[x] with chkDue := s.pps[x].chkDue || s.pps[x].chkReq, chkReq := false }) ∧
      only [.pps, .mtr] s t := by
  obtain ⟨u, hu⟩ : ∃ u, u = takeAux volt s.mtr := ⟨_, rfl⟩
  have haux : u.slot = s.mtr.slot ∧ u.frame = s.mtr.frame ∧ u.ports = s.mtr.ports ∧
      u.vlink = (if s.mtr.frame % 8 = 0 then volt else s.mtr.vlink) ∧
      u.temp = (if s.mtr.frame % 8 = 4 then volt else s.mtr.temp) := by
    rw [hu]
    unfold takeAux
    by_cases h0 : s.mtr.frame % 8 = 0
    · simp [h0]
    · by_cases h4 : s.mtr.frame % 8 = 4 <;> simp [h0, h4]
  obtain ⟨hslot, hframe, hports, hvlink, htemp⟩ := haux
  have hends : spareEnds s 15 cur volt = { s with mtr := u } := by
    unfold spareEnds
    rw [hd, hu]
    rfl
  have hrun : exec (.meterSample 15 (.spare cur volt)) s = .next (newFrame { s with mtr := u }) := by
    refine (exec_meterSample (m := 15) (x := .spare cur volt) hl hs).trans (congrArg Host.Outcome.next ?_)
    show nextSlot (spareEnds s 15 cur volt) = _
    rw [hends]
    exact if_pos (hslot.trans hs)
  refine ⟨_, hrun, rfl, congrArg (· + 1) hframe, hvlink, htemp, hports, fun x => Vector.getElem_map _ _, ?_⟩
  have hnew : only [.pps, .mtr] { s with mtr := u } (newFrame { s with mtr := u }) := by
    intro p hp; cases p <;> first | rfl | exact absurd (by decide) hp
  exact (mtr_frame s u).seq hnew

/-! ## Snapshots (R329 to R332) -/

theorem snapGo_row {p : Path} {s : State} (hr : reaches s p = true) : exec (.snapshotGo p) s = .next (snapGo s) :=
  regRow_reaches s p 0x3008 0x0001#16 .mtrSnap hr rfl (by decide) (by decide)

theorem snapGo_rule {p : Path} {s : State} (hr : reaches s p = true) :
    (s.mtr.copy = none →
      ∃ t, exec (.snapshotGo p) s = .next t ∧
        t.mtr = { s.mtr with go := true, copy := some (1, snapValues s.mtr) } ∧ only [.mtr] s t) ∧
    (s.mtr.copy ≠ none →
      ∃ t, exec (.snapshotGo p) s = .next t ∧ t.mtr = { s.mtr with go := true, merged := true } ∧
        only [.mtr] s t) := by
  have hl := linkOn_of_reaches s p hr
  refine ⟨fun hc => ?_, fun hc => ?_⟩
  · have hgo : snapGo s = { s with mtr := { s.mtr with go := true, copy := some (1, snapValues s.mtr) } } := by
      unfold snapGo snapRequest
      dsimp only
      rw [hc]
      exact if_pos hl
    exact ⟨_, (snapGo_row hr).trans (congrArg Host.Outcome.next hgo), rfl, mtr_frame s _⟩
  · obtain ⟨c, hc⟩ := Option.ne_none_iff_exists'.mp hc
    have hgo : snapGo s = { s with mtr := { s.mtr with go := true, merged := true } } := by
      unfold snapGo snapRequest
      dsimp only
      rw [hc]
    exact ⟨_, (snapGo_row hr).trans (congrArg Host.Outcome.next hgo), rfl, mtr_frame s _⟩

theorem snapBank_rule (s : State) (src : Nat) (l : List MSnap) : (snapBank s src l).mtr = { s.mtr with
      copy := none, go := false, src := src, seq := s.mtr.seq + 1#16
      ports := Vector.ofFn fun m => putSnap l m s.mtr.ports[m] } ∧
    only [.mtr, .doms, .que, .aon, .out] s (snapBank s src l) := by
  have hput : only [.mtr] s { s with mtr := { s.mtr with
      copy := none, go := false, src := src, seq := s.mtr.seq + 1#16
      ports := Vector.ofFn fun m => putSnap l m s.mtr.ports[m] } } := mtr_frame s _
  unfold snapBank
  dsimp only
  split
  · have hev := raise_only { s with mtr := { s.mtr with
      copy := none, go := false, src := src, seq := s.mtr.seq + 1#16
      ports := Vector.ofFn fun m => putSnap l m s.mtr.ports[m] } } { code := 0x06, src := 0, w1 := s.mtr.seq + 1#16 }
    exact ⟨hev .mtr (by decide), hput.seq hev⟩
  · exact ⟨rfl, hput.widen⟩

theorem snapDone_rule {s : State} {src : Nat} {l : List MSnap} (hc : s.mtr.copy = some (src, l)) (hw : s.mtr.waiters = []) :
    (snapDone s).mtr = { s.mtr with copy := none, go := false, src := src, seq := s.mtr.seq + 1#16
                                    ports := Vector.ofFn fun m => putSnap l m s.mtr.ports[m], waiters := [] } ∧
    only [.mtr, .doms, .que, .aon, .out] s (snapDone s) := by
  obtain ⟨hmtr, hparts⟩ := snapBank_rule s src l
  have hdone : snapDone s = { snapBank s src l with mtr := { (snapBank s src l).mtr with waiters := [] } } := by
    unfold snapDone
    rw [hc]
    unfold snapWaiters
    dsimp only
    rw [show (snapBank s src l).mtr.waiters = [] from (congrArg Mtr.waiters hmtr).trans hw]
    rfl
  rw [hdone]
  exact ⟨congrArg (fun t : Mtr => { t with waiters := [] }) hmtr, hparts.seq (mtr_frame _ _)⟩

/-- Settles O48: it holds.  A sample acts in the slot that runs and the slot goes on: a pair sample loads its port and
shows the loop, a spare one makes the bias check that is due, and slot 31 begins the next frame. -/
theorem metering : Obligations.Metering := by
  unfold Obligations.Metering
  refine ⟨fun m x s hl hs => onLink_eq hl (whenDo_fails (decide_eq_false hs)), fun m i v reg s hl hs => ?_,
    fun m cur volt s hl hs hm => ?_, fun m s h hlost => biasDue_iff h hlost,
    fun cur volt s hl hs hd => frame_rule hl hs hd cur volt, fun p s hr => snapGo_rule hr, fun s hp => ⟨fun src l hc hw => ?_,
    fun hc => ?_⟩⟩
  · obtain ⟨t, hrun, hslot, hframe, hport, hports, hpps, hparts⟩ := pair_rule hl hs i v reg
    refine ⟨t, hrun, hslot, hframe, hport, hports, fun h hst hlost h1 h2 => ?_, hparts.widen⟩
    obtain ⟨q, hq, hloop⟩ := loop_rule h hst hlost h1 h2 v reg
    rw [show t.pps[m] = q from (congrArg (fun x : Vector Pps 16 => x[m]) hpps).trans hq]
    exact hloop
  · obtain ⟨hnone, hok, hfail⟩ := spare_rule hl hs hm cur volt
    refine ⟨hnone, hok, fun hd hb h => ?_⟩
    obtain ⟨t, hrun, hst, hsense, hfault, hparts⟩ := hfail hd hb h
    exact ⟨t, hrun, hst, hsense, hfault, hparts.widen⟩
  · obtain ⟨hmtr, hparts⟩ := snapDone_rule hc hw
    refine ⟨_, exec_onPower hp rfl, congrArg Mtr.seq hmtr, congrArg Mtr.src hmtr, congrArg Mtr.copy hmtr,
      congrArg Mtr.go hmtr, fun m => ?_, hparts⟩
    exact (congrArg (fun t : Mtr => t.ports[m]) hmtr).trans (Vector.getElem_ofFn _)
  · refine exec_onPower hp ?_
    unfold snapDone
    rw [hc]

end Sys2Proof.Machine
end

section
/-! SUPPORT. The stow set (R341): what its writes at a restart may change. -/

namespace Sys2Proof.Machine

open Sys2Proof Sys2Proof.Safety

-- One proof after the other: side by side, the proofs of one text wait for each other in too many threads.
set_option Elab.async false


/-! ## The writes of PORT_CTRL, of the local node and of its endpoints -/

theorem portOff_parts (s : State) (n : PortN) : only errParts s (portOff s n) := by
  by_cases h : s.ports[n].st = .disabled
  · have hoff : portOff s n = modPort s n fun p => { p with en := false } := by
      unfold portOff
      rw [h]
    rw [hoff]
    exact (modPort_only s n _).widen
  · by_cases h' : s.ports[n].st = .disabling
    · have hoff : portOff s n = modPort s n fun p => { p with en := false, defer := false } := by
        unfold portOff
        rw [h']
      rw [hoff]
      exact (modPort_only s n _).widen
    · obtain ⟨-, -, -, -, -, -, -, -, hparts⟩ := portOff_rule h h'
      exact hparts.widen

theorem portOnWrite_parts (s : State) (n : PortN) : only errParts s (portOnWrite s n) := by
  unfold portOnWrite
  split
  · obtain ⟨-, -, -, hparts⟩ := leaveDisabled_rule (s := s) (n := n)
    exact hparts.widen
  · exact (modPort_only s n _).widen
  · exact (modPort_only s n _).widen

theorem retrainWrite_parts (s : State) (n : PortN) : only errParts s (retrainWrite s n) := by
  have hcap : only [.ports] s (modPort s n fun q => { q with cap := 4 }) := modPort_only s n _
  have hmark : only errParts s (modPort (modPort s n fun q => { q with cap := 4 }) n fun q => { portAlign q with retrain := true }) :=
    (hcap.seq (modPort_only _ n _) (rs := [.ports])).widen
  have htrain := (hcap.seq (retrain_errParts _ n 5) (rs := errParts)).seq (modPort_only _ n
    fun q => { q with retrain := decide (q.st = .align) }) (rs := errParts)
  have hdetect := hcap.seq ((detectNow_turns _ n false).self.parts.seq (suspHold_frame _ n) (rs := errParts)) (rs := errParts)
  unfold retrainWrite
  dsimp only
  split
  · exact htrain
  · exact htrain
  · exact only_ite _ hcap.widen hmark
  · exact only_ite _ hcap.widen hmark
  · exact only_ite _ hcap.widen hmark
  · exact only_ite _ hcap.widen hmark
  · exact only_ite _ hcap.widen hmark
  · exact hdetect
  · exact hcap.widen

theorem portCtrlWrite_parts (s : State) (n : PortN) (v : Word) : only errParts s (portCtrlWrite s n v) := by
  have hen : ∀ (a : State) b, only errParts a (portEnWrite a n b) := fun a b =>
    only_ite _ (portOnWrite_parts a n) (portOff_parts a n)
  have hput := (modPort_only s n (portCtrlPut v)).seq (hen _ (bit v 0)) (rs := errParts)
  have htrain := only_ite (bit v 2) (hput.seq (retrainWrite_parts _ n) (rs := errParts)) hput
  unfold portCtrlWrite
  exact only_ite _ (htrain.seq (modPort_only _ n _) (rs := errParts)) htrain

theorem capUpdate_parts (s : State) (n : PortN) : only [.ports, .out] s (capUpdate s n) := by
  unfold capUpdate
  exact only_ite _ ((modPort_only s n _).seq (sendTs_passes _ n .cap _ _).parts) (only_refl _ s)

theorem lnEnable_parts (s : State) : only (.ports :: epParts) s (lnEnable s) := by
  have hon : only [.ln, .ports, .out] s (capUpdate { s with ln := { s.ln with en := true } } 0) :=
    (show only [.ln] s { s with ln := { s.ln with en := true } } from ln_frame s _).seq (capUpdate_parts _ 0)
  unfold lnEnable
  exact only_ite _ (only_refl _ s) (hon.seq (forEach_frame _ _ _ fun a k => epAsk_frame a k) (rs := .ports :: epParts))

theorem lnDisable_parts (s : State) : only (.bus :: .ports :: stopParts) s (lnDisable s) := by
  have hstop : only stopParts s (forEach epAll (fun a k => stopEp a k 3) s) :=
    forEach_frame _ _ _ fun a k => (stopEp_passes a k 3).parts
  have hoff : ∀ u : State, only [.ln, .bus] u { u with
      ln := { u.ln with en := false }
      bus := { u.bus with loc := 0xFFFE#16, inbox := u.bus.inbox.filter fun x => x.dest != .loc } } := fun u =>
    (ln_frame u { u.ln with en := false }).seq (bus_frame { u with ln := { u.ln with en := false } } _)
  unfold lnDisable
  exact only_ite _ (only_refl _ s) ((hstop.seq (hoff _) (rs := .bus :: .ports :: stopParts)).seq (capUpdate_parts _ 0)
    (rs := .bus :: .ports :: stopParts))

theorem epCfgWrite_parts (s : State) (k : EpN) (v : Word) : only stopParts s (epCfgWrite s k v) := by
  have hon : ∀ a : State, only stopParts a (epEnable a k) := fun a =>
    only_ite _ (only_refl _ a) (only_ite _ ((modEp_frame a k _).seq (epAsk_frame _ k)) (modEp_frame a k _).widen)
  have hoff : ∀ a : State, only stopParts a (epDisable a k) := fun a =>
    only_ite _ (((cutDrain_passes a k).parts.seq (modEp_frame _ k fun e => { emptied e with en := false })
      (rs := [.hma, .ln])).seq (voidReads_frame _ _)) (only_refl _ a)
  have hput := (modEp_frame s k fun e => if e.en then e else { e with typ := epTypeVal k (fld v 1 2), dirIn := bit v 3 })
  have hset := hput.seq (only_ite (bit v 0) (hon _) (hoff _)) (rs := stopParts)
  unfold epCfgWrite
  exact only_ite _ (hset.seq (modEp_frame _ k _)) hset

/-! ## The registers of the set -/

/-- The parts that a write of the stow set may change, but for the class of port 0. -/
def stowParts : List Part :=
  [.bb, .pps, .aon, .pcie, .doms, .ln, .hma, .ula, .que, .ports, .bus, .tt, .tb, .sur, .out]

/-- The stow set before the class of port 0. -/
def stowHead : List Reg :=
  [Reg.nodeAddr, Reg.localAddr]
    ++ (portAll.flatMap fun n => [Reg.port n PortReg.ctrl, Reg.port n PortReg.train])
    ++ (dnAll.flatMap fun m => [Reg.port (dnPort m) PortReg.rangeLo, Reg.port (dnPort m) PortReg.rangeHi])

/-- The stow set after the class of port 0. -/
def stowTail : List Reg := stowTables ++ (stowTime ++ stowLocal)

theorem stowSet_split : stowSet = stowHead ++ .port 0 .pclass :: stowTail := by
  rw [stowSet, show stowPorts = stowHead ++ [.port 0 .pclass] from rfl, List.append_assoc]
  rfl

theorem stowHead_length : stowHead.length = 68 := by decide

theorem stowHead_parts {r : Reg} (h : r ∈ stowHead) (s : State) (v : Word) : only stowParts s (writeReg s .restore v r) := by
  have hkind : r = .nodeAddr ∨ r = .localAddr ∨ (∃ n, r = .port n .ctrl ∨ r = .port n .train) ∨
      (∃ m : DnN, r = .port (dnPort m) .rangeLo ∨ r = .port (dnPort m) .rangeHi) := by
    simp only [stowHead, List.mem_append, List.mem_flatMap, List.mem_cons, List.not_mem_nil, or_false] at h
    rcases h with ((h | h) | ⟨n, -, h⟩) | ⟨m, -, h⟩
    · exact .inl h
    · exact .inr (.inl h)
    · exact .inr (.inr (.inl ⟨n, h⟩))
    · exact .inr (.inr (.inr ⟨m, h⟩))
  rcases hkind with rfl | rfl | ⟨n, rfl | rfl⟩ | ⟨m, rfl | rfl⟩
  · exact (bus_frame s _).widen
  · exact (bus_frame s _).widen
  · exact (portCtrlWrite_parts s n v).widen
  · exact (modPort_only s n _).widen
  · exact only_ite _ (only_refl _ s) (modPort_only s _ _).widen
  · exact only_ite _ (only_refl _ s) (modPort_only s _ _).widen

theorem crewReg_parts (s : State) (k : CrewN) (v : Word) (x : CrewReg) : only stowParts s (crewWrite s k v x) := by
  have hput : ∀ new, only stowParts s (crewPut s k new) := fun new => by
    obtain ⟨-, -, -, hparts⟩ := crewPut_rule s k new
    exact hparts.widen
  cases x
  · exact hput _
  · exact hput _
  · exact hput _
  · exact hput _

theorem stowTime_parts {r : Reg} (h : r ∈ stowTime) (s : State) (v : Word) : only stowParts s (writeReg s .restore v r) := by
  have hkind : (∃ k x, r = .crew k x) ∨ r = .tbCtrl ∨ r = .tbSlew ∨ r = .prestroke ∨ (∃ i, r = .catchPin i) ∨
      r = .ttCtrl ∨ r = .ttTmo := by
    simp only [stowTime, List.mem_append, List.mem_flatMap, List.mem_cons, List.not_mem_nil, or_false] at h
    rcases h with ⟨k, -, h | h | h | h⟩ | h | h | h | h | h | h | h | h | h
    · exact .inl ⟨k, _, h⟩
    · exact .inl ⟨k, _, h⟩
    · exact .inl ⟨k, _, h⟩
    · exact .inl ⟨k, _, h⟩
    · exact .inr (.inl h)
    · exact .inr (.inr (.inl h))
    · exact .inr (.inr (.inr (.inl h)))
    · exact .inr (.inr (.inr (.inr (.inl ⟨_, h⟩))))
    · exact .inr (.inr (.inr (.inr (.inl ⟨_, h⟩))))
    · exact .inr (.inr (.inr (.inr (.inl ⟨_, h⟩))))
    · exact .inr (.inr (.inr (.inr (.inl ⟨_, h⟩))))
    · exact .inr (.inr (.inr (.inr (.inr (.inl h)))))
    · exact .inr (.inr (.inr (.inr (.inr (.inr h)))))
  rcases hkind with ⟨k, x, rfl⟩ | rfl | rfl | rfl | ⟨i, rfl⟩ | rfl | rfl
  · exact crewReg_parts s k v x
  · exact (show only [.tb] s { s with tb := tbCtrlPut v s.tb } from tb_frame s _).seq (lockCheck_only _)
  · exact (tb_frame s _).widen
  · exact (tb_frame s _).widen
  · exact (tb_frame s _).widen
  · exact only_ite _ ((show only [.tt] s { s with tt := { s.tt with en := bit v 0 } } from tt_frame s _).seq (tt_frame _ _))
      (tt_frame s _).widen
  · exact (tt_frame s _).widen

theorem stowLocal_parts {r : Reg} (h : r ∈ stowLocal) (s : State) (v : Word) : only stowParts s (writeReg s .restore v r) := by
  have hkind : r = .lnCtrl ∨ (∃ i, r = .lnUid i) ∨ r = .lnClass ∨ (∃ k, r = .ep k .cfg ∨ r = .ep k .buf ∨ r = .ep k .size) := by
    simp only [stowLocal, List.mem_append, List.mem_map, List.mem_cons, List.not_mem_nil, or_false] at h
    rcases h with (((h | h | h | h | h | h) | ⟨k, -, h⟩) | ⟨k, -, h⟩) | ⟨k, -, h⟩
    · exact .inl h
    · exact .inr (.inl ⟨_, h⟩)
    · exact .inr (.inl ⟨_, h⟩)
    · exact .inr (.inl ⟨_, h⟩)
    · exact .inr (.inl ⟨_, h⟩)
    · exact .inr (.inr (.inl h))
    · exact .inr (.inr (.inr ⟨k, .inl h.symm⟩))
    · exact .inr (.inr (.inr ⟨k, .inr (.inl h.symm)⟩))
    · exact .inr (.inr (.inr ⟨k, .inr (.inr h.symm)⟩))
  rcases hkind with rfl | ⟨i, rfl⟩ | rfl | ⟨k, rfl | rfl | rfl⟩
  · exact only_ite _ (lnEnable_parts s).widen (lnDisable_parts s).widen
  · exact (ln_frame s _).widen
  · exact (ln_frame s _).widen
  · exact (epCfgWrite_parts s k v).widen
  · exact (modEp_frame s k _).widen
  · exact (modEp_frame s k _).widen

theorem stowTail_parts {r : Reg} (h : r ∈ stowTail) (s : State) (v : Word) : only stowParts s (writeReg s .restore v r) := by
  rcases List.mem_append.mp h with h | h
  · have hkind : (∃ k x, r = .mc k x) ∨ ∃ n j, r = .sched n j := by
      simp only [stowTables, List.mem_append, List.mem_flatMap, List.mem_map, List.mem_cons, List.not_mem_nil, or_false] at h
      rcases h with (⟨k, -, h | h | h⟩ | ⟨m, -, j, -, h⟩) | ⟨j, -, h⟩
      · exact .inl ⟨k, _, h⟩
      · exact .inl ⟨k, _, h⟩
      · exact .inl ⟨k, _, h⟩
      · exact .inr ⟨_, _, h.symm⟩
      · exact .inr ⟨_, _, h.symm⟩
    rcases hkind with ⟨k, x, rfl⟩ | ⟨n, j, rfl⟩
    · exact (bus_frame s _).widen
    · exact (bus_frame s _).widen
  · rcases List.mem_append.mp h with h | h
    · exact stowTime_parts h s v
    · exact stowLocal_parts h s v

/-! ## B1 applied (R341) -/

/-- One register of B1, written. -/
def restoreReg (a : State) (x : Reg × Word) : State := writeReg a .restore x.2 x.1

theorem restoreRegs_parts (l : List (Reg × Word)) (h : ∀ x ∈ l, ∀ a v, only stowParts a (writeReg a .restore v x.1))
    (s : State) : only stowParts s (forEach l restoreReg s) := by
  induction l generalizing s with
  | nil => exact only_refl _ s
  | cons x l ih =>
    obtain ⟨hx, hl⟩ := List.forall_mem_cons.mp h
    exact only_trans _ _ _ _ (hx s x.2) (ih hl _)

theorem pclassWrite_rule (s : State) (v : Word) :
    (pclassWrite s v).glob = { s.glob with pclass0 := pclassVal (fld v 0 3) } ∧
    only [.glob, .ports, .out] s (pclassWrite s v) := by
  have hput : only [.glob] s { s with glob := { s.glob with pclass0 := pclassVal (fld v 0 3) } } := glob_frame s _
  unfold pclassWrite
  dsimp only
  split
  · have hcap := capUpdate_parts { s with glob := { s.glob with pclass0 := pclassVal (fld v 0 3) } } 0
    exact ⟨hcap .glob (by decide), hput.seq hcap⟩
  · exact ⟨rfl, hput.widen⟩

/-- Of the global registers, B1 restores the class of port 0 alone. -/
theorem applyB1_rule {s : State} {ws : List Word} {w : Word} (h : s.pm.b1 = some ws) (hw : ws[68]? = some w) :
    (applyB1 s).glob = { s.glob with pclass0 := pclassVal (fld w 0 3) } ∧
    only (.glob :: stowParts) s (applyB1 s) := by
  obtain ⟨hlen, hget⟩ := List.getElem?_eq_some_iff.mp hw
  have hws : ws = ws.take 68 ++ w :: ws.drop 69 := by
    rw [← hget, List.getElem_cons_drop hlen, List.take_append_drop]
  have hzip : stowSet.zip ws = stowHead.zip (ws.take 68) ++ (.port 0 .pclass, w) :: stowTail.zip (ws.drop 69) := by
    rw [stowSet_split]
    conv_lhs => rw [hws]
    rw [List.zip_append (by rw [stowHead_length, List.length_take]; omega)]
    rfl
  have happly : applyB1 s = forEach (stowTail.zip (ws.drop 69)) restoreReg
      (pclassWrite (forEach (stowHead.zip (ws.take 68)) restoreReg s) w) := by
    unfold applyB1
    rw [h]
    show forEach (stowSet.zip ws) restoreReg s = _
    rw [hzip]
    exact List.foldl_append
  have hhead := restoreRegs_parts (stowHead.zip (ws.take 68))
    (fun x hx a v => stowHead_parts (List.of_mem_zip hx).1 a v) s
  obtain ⟨hglob, hclass⟩ := pclassWrite_rule (forEach (stowHead.zip (ws.take 68)) restoreReg s) w
  have htail := restoreRegs_parts (stowTail.zip (ws.drop 69)) (fun x hx a v => stowTail_parts (List.of_mem_zip hx).1 a v)
    (pclassWrite (forEach (stowHead.zip (ws.take 68)) restoreReg s) w)
  rw [happly]
  refine ⟨?_, (hhead.seq hclass (rs := .glob :: stowParts)).seq htail⟩
  rw [htail .glob (by decide), hglob, hhead .glob (by decide)]

end Sys2Proof.Machine
end

section
/-! SUPPORT. What a wake delivers, and the release of the Link die reset (R341, R349 to R351). -/

namespace Sys2Proof.Machine

open Sys2Proof Sys2Proof.Safety

-- One proof after the other: side by side, the proofs of one text wait for each other in too many threads.
set_option Elab.async false


/-! ## What a wake delivers (R17, R175, R318, R354) -/

theorem forEach_same {α β : Type} (g : State → β) (l : List α) (f : State → α → State) (h : ∀ a x, g (f a x) = g a)
    (s : State) : g (forEach l f s) = g s := by
  induction l generalizing s with
  | nil => rfl
  | cons x l ih => exact (ih (f s x)).trans (h s x)

/-- The parts that deliveries at a wake may change. -/
def arriveParts : List Part := [.pm, .bb, .pps, .aon, .doms, .que, .out]

theorem deliverX_frame (s : State) (x : XEv) : only [.bb, .aon, .doms, .que, .out] s (deliverX s x) := by
  unfold deliverX
  exact only_ite _ ((raiseTo_only s _ false _ x.ev).seq (bbLink_only _ _ _ _ _)) (raiseTo_only s _ false _ x.ev).widen

theorem deliverX_xq (s : State) (x : XEv) : (deliverX s x).aon.xq = s.aon.xq := by
  unfold deliverX
  dsimp only
  split <;> rfl

theorem queueReport_frame (s : State) (last : Word) : only [.bb, .aon, .doms, .que, .out] s (queueReport s last) := by
  unfold queueReport
  exact (que_frame s _).seq ((raise_only _ _).seq (bbLink_only _ _ _ _ _) (rs := [.bb, .aon, .doms, .que, .out]))

/-- The queue emptied, and what it held delivered. -/
def queueDelivered (s : State) : State :=
  forEach s.aon.xq deliverX { s with aon := { s.aon with xq := [], xqDrop := 0, xqErr := [] } }

theorem queueDelivered_frame (s : State) : only [.bb, .aon, .doms, .que, .out] s (queueDelivered s) :=
  (show only [.aon] s { s with aon := { s.aon with xq := [], xqDrop := 0, xqErr := [] } } from aon_frame s _).seq
    (forEach_frame _ _ _ deliverX_frame)

theorem queueDelivered_xq (s : State) : (queueDelivered s).aon.xq = [] :=
  forEach_same (fun a => a.aon.xq) _ _ deliverX_xq _

/-- What was dropped of the queue, recorded. -/
def dropsTold (s : State) : State :=
  if s.aon.xqDrop = 0 then queueDelivered s else bbPow (queueDelivered s) 0x14 0 (w16 s.aon.xqDrop) 0#16

theorem deliverQueue_eq (s : State) : deliverQueue s = forEach s.aon.xqErr queueReport (dropsTold s) := rfl

theorem dropsTold_frame (s : State) : only [.bb, .aon, .doms, .que, .out] s (dropsTold s) :=
  only_ite _ (queueDelivered_frame s) ((queueDelivered_frame s).seq (bbPow_only _ _ _ _ _))

theorem deliverQueue_frame (s : State) : only [.bb, .aon, .doms, .que, .out] s (deliverQueue s) := by
  rw [deliverQueue_eq]
  exact (dropsTold_frame s).seq (forEach_frame _ _ _ queueReport_frame)

theorem deliverQueue_xq {s : State} (h : s.aon.xqErr = []) : (deliverQueue s).aon.xq = [] := by
  rw [deliverQueue_eq, h]
  show (dropsTold s).aon.xq = []
  unfold dropsTold
  split <;> exact queueDelivered_xq s

/-- With the Link die running an event waits in no queue to it. -/
theorem raise_xq {s : State} (hl : linkOn s = true) (e : Ev) : (raise s e).aon.xq = s.aon.xq := by
  unfold raise
  rw [if_pos hl]
  rfl

theorem replayWake_rule (s : State) : (replayWake s).pm = { s.pm with replay := 0#16 } ∧
    (linkOn s = true → (replayWake s).aon.xq = s.aon.xq) ∧ only [.pm, .doms, .que, .aon, .out] s (replayWake s) := by
  have hput : only [.pm] s { s with pm := { s.pm with replay := 0#16 } } := pm_frame s _
  unfold replayWake
  dsimp only
  split
  · exact ⟨rfl, fun _ => rfl, hput.widen⟩
  · have hev := raise_only { s with pm := { s.pm with replay := 0#16 } } { code := 0x13, src := 0, w1 := s.pm.wakeCause }
    exact ⟨hev .pm (by decide), fun hl => raise_xq (s := { s with pm := { s.pm with replay := 0#16 } }) hl _, hput.seq hev⟩

theorem applyHeld_none {s : State} (h : s.pm.mgHeld = none) : applyHeld s = s := by
  unfold applyHeld
  rw [h]

theorem driveDue_frame (s : State) : only [.aon] s (driveDue s) := forEach_frame _ _ _ fun a m => modAon_frame a (dnPort m) _

theorem modAon_xq (s : State) (n : PortN) (f : AonPort → AonPort) : (modAon s n f).aon.xq = s.aon.xq := rfl

theorem driveDue_xq (s : State) : (driveDue s).aon.xq = s.aon.xq := by
  unfold driveDue
  exact forEach_same (fun a => a.aon.xq) dnAll _ (fun a m => modAon_xq a (dnPort m) _) s

theorem enterRamp_frame (s : State) (l : DnN) : only [.pps] s (enterRamp s l) :=
  forEach_frame _ _ _ fun a x => only_ite _ (only_refl _ a) (modPps_frame a x _)

theorem startWaiting_frame (s : State) : only [.pps] s (startWaiting s) := by
  unfold startWaiting
  exact only_ite _ (forEach_frame _ _ _ fun a m => only_ite _ (enterRamp_frame a m) (only_refl _ a)) (only_refl _ s)

/-- What follows once the device is in RUN, with no management frame held. -/
theorem arrive_rule {s : State} (h : s.pm.mgHeld = none) : (arrive s).pm = { s.pm with replay := 0#16 } ∧
    (linkOn s = true → s.aon.xqErr = [] → (arrive s).aon.xq = []) ∧ only arriveParts s (arrive s) := by
  have hqueue := deliverQueue_frame s
  obtain ⟨hpm, hxq, hreplay⟩ := replayWake_rule (deliverQueue s)
  have hheld : applyHeld (replayWake (deliverQueue s)) = replayWake (deliverQueue s) :=
    applyHeld_none (by rw [hpm, hqueue .pm (by decide)]; exact h)
  have htail := (driveDue_frame (replayWake (deliverQueue s))).seq (startWaiting_frame _) (rs := arriveParts)
  have harrive : arrive s = startWaiting (driveDue (replayWake (deliverQueue s))) := by rw [arrive, hheld]
  rw [harrive]
  refine ⟨?_, fun hl he => ?_, (hqueue.seq hreplay (rs := arriveParts)).seq htail⟩
  · have hpm1 : (startWaiting (driveDue (replayWake (deliverQueue s)))).pm = (replayWake (deliverQueue s)).pm := by
      rw [startWaiting_frame _ .pm (by decide), driveDue_frame _ .pm (by decide)]
    rw [hpm1, hpm, hqueue .pm (by decide)]
  · have hxq1 : (startWaiting (driveDue (replayWake (deliverQueue s)))).aon = (driveDue (replayWake (deliverQueue s))).aon :=
      startWaiting_frame _ .aon (by decide)
    rw [hxq1, driveDue_xq, hxq ((linkOn_of_frame hqueue).trans hl)]
    exact deliverQueue_xq he

theorem suspendAfresh_none {s : State} (h : s.pm.suspendReq = false) : suspendAfresh s = s := by
  unfold suspendAfresh
  rw [h]
  rfl

/-! ## The release of the Link die reset (R341, R349) -/

theorem suspAll_frame (s : State) : only [.pps, .aon, .ula, .ports, .sur] s (suspAll s) :=
  forEach_frame _ _ _ fun a m => suspHold_frame a (dnPort m)

theorem loadImage_frame (s : State) : only [.glob, .out] s (loadImage s) := by
  unfold loadImage imageStart
  exact only_ite _ ((show only [.glob] s { s with glob := { s.glob with cfgBusy := true, cfgDone := false, cfgNone := false } }
    from glob_frame s _).seq (out_frame _ _)) (only_refl _ s)

theorem loadImage_restored {s : State} (h : s.pm.b1Ok = true) : loadImage s = s := by
  unfold loadImage
  rw [h, Bool.not_true, Bool.and_false]
  rfl

/-- What follows the registers at a release. -/
def released (s : State) : State := suspendAfresh (scanStart (loadImage (arrive (suspAll s))))

/-- The parts of that. -/
def releasedParts : List Part := [.pm, .bb, .pps, .aon, .glob, .doms, .ula, .que, .ports, .sur, .out]

theorem released_rule {s : State} (h : s.pm.mgHeld = none) (hr : s.pm.suspendReq = false) :
    (released s).pm = { s.pm with replay := 0#16 } ∧ (s.pm.b1Ok = true → (released s).glob = s.glob) ∧
    only releasedParts s (released s) := by
  have hsusp := suspAll_frame s
  have hpm0 : (suspAll s).pm = s.pm := hsusp .pm (by decide)
  obtain ⟨hpm, -, harrive⟩ := arrive_rule (s := suspAll s) (by rw [hpm0]; exact h)
  have himage := loadImage_frame (arrive (suspAll s))
  have hscan := scanStart_frame (loadImage (arrive (suspAll s)))
  have hpm1 : (scanStart (loadImage (arrive (suspAll s)))).pm = { s.pm with replay := 0#16 } := by
    rw [hscan .pm (by decide), himage .pm (by decide), hpm, hpm0]
  have hafresh : released s = scanStart (loadImage (arrive (suspAll s))) := suspendAfresh_none (by rw [hpm1]; exact hr)
  rw [hafresh]
  refine ⟨hpm1, fun hb => ?_, (hsusp.seq harrive (rs := releasedParts)).seq (himage.seq hscan (rs := releasedParts))⟩
  have hb1 : (arrive (suspAll s)).pm.b1Ok = true := by
    rw [hpm, hpm0]
    exact hb
  rw [hscan .glob (by decide), loadImage_restored hb1, harrive .glob (by decide), hsusp .glob (by decide)]

/-- The Link die out of reset, and the flash taken up again. -/
def cored (s : State) (x : Option Sfdp) : State :=
  bbLink (resumeLeft (releaseCore s x)) 0x01 0 s.rst.cause s.pm.wakeCause

theorem releaseCore_frame (s : State) (x : Option Sfdp) : only [.pm, .wdt, .ln, .tb, .fl, .bb] s (releaseCore s x) := by
  intro p hp; cases p <;> first | rfl | exact absurd (by decide) hp

theorem resumeLeft_frame (s : State) : only [.fl, .out] s (resumeLeft s) := by
  unfold resumeLeft
  exact only_ite _ ((show only [.fl] s { s with fl := { s.fl with leftDue := false } } from fl_frame s _).seq (out_frame _ _))
    (only_refl _ s)

theorem resumeLeft_sfdp (s : State) : (resumeLeft s).fl.sfdp = s.fl.sfdp := by
  unfold resumeLeft
  split <;> rfl

/-- The power state of a released Link die. -/
def runPm (b1 : Bool) (p : Pm) : Pm :=
  { p with st := .run, idle := 0, attempts := 0, puWait := false, why := 0, b1Ok := b1, b2Ok := false, b3Ok := false
           b4Ok := false }

theorem cored_rule (s : State) (x : Option Sfdp) : (cored s x).pm = runPm (b1Applies s) s.pm ∧
    (cored s x).wdt = wdtRelease s.pm s.wdt ∧ (cored s x).tb = { s.tb with time := startTime s } ∧
    (cored s x).fl.sfdp = x ∧ only [.pm, .wdt, .ln, .tb, .fl, .bb, .que, .out] s (cored s x) := by
  have hleft := resumeLeft_frame (releaseCore s x)
  have hlog := bbLink_only (resumeLeft (releaseCore s x)) 0x01 0 s.rst.cause s.pm.wakeCause
  refine ⟨?_, ?_, ?_, ?_, ((releaseCore_frame s x).seq hleft (rs := [.pm, .wdt, .ln, .tb, .fl, .bb, .out])).seq hlog⟩
  · exact (hlog .pm (by decide)).trans (hleft .pm (by decide))
  · exact (hlog .wdt (by decide)).trans (hleft .wdt (by decide))
  · exact (hlog .tb (by decide)).trans (hleft .tb (by decide))
  · exact (congrArg Fl.sfdp (hlog .fl (by decide))).trans (resumeLeft_sfdp _)

theorem linkRelease_eq (s : State) (x : Option Sfdp) : linkRelease s x = released
    (if s.pm.restart = 0 then recordWake (if b1Applies s then applyB1 (cored s x) else cored s x)
      else if b1Applies s then applyB1 (cored s x) else cored s x) := rfl

theorem recordWake_frame (s : State) : only [.bb] s (recordWake s) := bbPow_only s _ _ _ _

theorem wakeRecorded_frame (c : Prop) [Decidable c] (s : State) : only [.bb] s (if c then recordWake s else s) :=
  only_ite _ (recordWake_frame s) (only_refl _ s)

/-- A release that restores no B1. -/
theorem linkRelease_plain {s : State} (x : Option Sfdp) (h : b1Applies s = false) (hm : s.pm.mgHeld = none)
    (hr : s.pm.suspendReq = false) : (linkRelease s x).pm = { runPm false s.pm with replay := 0#16 } ∧
    (linkRelease s x).wdt = wdtRelease s.pm s.wdt ∧ (linkRelease s x).tb = { s.tb with time := startTime s } ∧
    (linkRelease s x).fl.sfdp = x ∧
    only [.pm, .wdt, .bb, .pps, .aon, .glob, .doms, .ln, .ula, .que, .fl, .ports, .tb, .sur, .out] s (linkRelease s x) := by
  obtain ⟨hpm, hwdt, htb, hsfdp, hcore⟩ := cored_rule s x
  rw [h] at hpm
  have hlog := wakeRecorded_frame (s.pm.restart = 0) (cored s x)
  have hpm1 := (hlog .pm (by decide)).trans hpm
  obtain ⟨hpm2, -, hrel⟩ := released_rule (s := if s.pm.restart = 0 then recordWake (cored s x) else cored s x)
    (by rw [hpm1]; exact hm) (by rw [hpm1]; exact hr)
  have heq : linkRelease s x = released (if s.pm.restart = 0 then recordWake (cored s x) else cored s x) := by
    rw [linkRelease_eq, h]
    rfl
  rw [heq]
  refine ⟨hpm2.trans (by rw [hpm1]), ?_, ?_, ?_, (hcore.seq hlog (rs := [.pm, .wdt, .ln, .tb, .fl, .bb, .que, .out])).seq hrel⟩
  · exact (hrel .wdt (by decide)).trans ((hlog .wdt (by decide)).trans hwdt)
  · exact (hrel .tb (by decide)).trans ((hlog .tb (by decide)).trans htb)
  · exact (congrArg Fl.sfdp (hrel .fl (by decide))).trans ((congrArg Fl.sfdp (hlog .fl (by decide))).trans hsfdp)

/-- A release that restores B1 (R341). -/
theorem linkRelease_restores {s : State} (x : Option Sfdp) {ws : List Word} {w : Word} (h0 : s.pm.restart = 0)
    (hb : s.pm.b1 = some ws) (hw : ws[68]? = some w) (hm : s.pm.mgHeld = none) (hr : s.pm.suspendReq = false) :
    (linkRelease s x).pm = { runPm true s.pm with replay := 0#16 } ∧ (linkRelease s x).wdt = wdtRelease s.pm s.wdt ∧
    (linkRelease s x).glob = { s.glob with pclass0 := pclassVal (fld w 0 3) } ∧ (linkRelease s x).fl.sfdp = x ∧
    only [.pm, .wdt, .bb, .pps, .aon, .glob, .pcie, .doms, .ln, .hma, .ula, .que, .fl, .ports, .bus, .tt, .tb, .sur, .out] s
      (linkRelease s x) := by
  have happ : b1Applies s = true := by
    rw [b1Applies, hb, h0]
    rfl
  obtain ⟨hpm, hwdt, -, hsfdp, hcore⟩ := cored_rule s x
  rw [happ] at hpm
  obtain ⟨hglob, happly⟩ := applyB1_rule (s := cored s x) (by rw [hpm]; exact hb) hw
  have hlog := recordWake_frame (applyB1 (cored s x))
  have hpm1 : (recordWake (applyB1 (cored s x))).pm = runPm true s.pm :=
    (hlog .pm (by decide)).trans ((happly .pm (by decide)).trans hpm)
  obtain ⟨hpm2, hkept, hrel⟩ := released_rule (s := recordWake (applyB1 (cored s x))) (by rw [hpm1]; exact hm)
    (by rw [hpm1]; exact hr)
  have heq : linkRelease s x = released (recordWake (applyB1 (cored s x))) := by
    rw [linkRelease_eq, happ, h0]
    rfl
  rw [heq]
  refine ⟨hpm2.trans (by rw [hpm1]), ?_, ?_, ?_, (hcore.seq (happly.seq hlog (rs := .glob :: stowParts)) (rs :=
    [.pm, .wdt, .bb, .pps, .aon, .glob, .pcie, .doms, .ln, .hma, .ula, .que, .fl, .ports, .bus, .tt, .tb, .sur, .out])).seq hrel⟩
  · exact (hrel .wdt (by decide)).trans ((hlog .wdt (by decide)).trans ((happly .wdt (by decide)).trans hwdt))
  · rw [hkept (by rw [hpm1]; rfl)]
    exact (hlog .glob (by decide)).trans (hglob.trans (by rw [hcore .glob (by decide)]))
  · exact (congrArg Fl.sfdp (hrel .fl (by decide))).trans ((congrArg Fl.sfdp (hlog .fl (by decide))).trans
      ((congrArg Fl.sfdp (happly .fl (by decide))).trans hsfdp))

end Sys2Proof.Machine
end

section
/-! PROOF. The wake order and its sources (O49). -/

namespace Sys2Proof.Machine

open Sys2Proof Sys2Proof.Safety

-- One proof after the other: side by side, the proofs of one text wait for each other in too many threads.
set_option Elab.async false


/-! ## A wake from FEATHER (R342, R350, R351) -/

theorem bankReset_frame (sel : Word) (s : State) : only [.bus, .ln, .doms] s (bankReset sel s) := by
  have hbus := only_ite (bit sel 1) (only_refl [.bus] s)
    (show only [.bus] s { s with bus := { s.bus with mc := [], sched := [], schedAct := [] } } from bus_frame s _)
  have hmem : ∀ a : State, only [.ln] a (if bit sel 2 then a else { a with ln := { a.ln with mem := [] } }) := fun a =>
    only_ite _ (only_refl _ a) (ln_frame a _)
  have hboth := hbus.seq (hmem _) (rs := [.bus, .ln, .doms])
  unfold bankReset
  refine only_ite _ hboth (hboth.seq (qs := [.doms, .ln]) ?_)
  intro p hp; cases p <;> first | rfl | exact absurd (by decide) hp

theorem bankReset_tables {sel : Word} (h : bit sel 1 = false) (s : State) :
    (bankReset sel s).bus.mc = [] ∧ (bankReset sel s).bus.sched = [] := by
  unfold bankReset
  rw [h]
  dsimp only
  constructor <;> (split <;> split) <;> rfl

/-- The device in RUN again, its banks as they were found. -/
def featherUp (s : State) : State :=
  let kept := banksKept s
  let s1 := bump (bankReset kept s)
  { s1 with
    pm := { s1.pm with st := .run, idle := 0, why := 0, b1Ok := false, b2Ok := bit kept 1
                       b3Ok := bit kept 2, b4Ok := bit kept 3 }
    wdt := { s1.wdt with paused := false }
    tb := { s1.tb with time := s1.tb.time + BitVec.ofNat 64 (ticksOf (s.aon.time - s.pm.featherAon)) } }

theorem featherWake_eq (s : State) : featherWake s = suspendAfresh (scanLate (arrive (recordWake (featherUp s)))) := rfl

theorem featherUp_frame (s : State) : only [.pm, .wdt, .tb, .bus, .ln, .doms] s (featherUp s) := by
  refine (bankReset_frame (banksKept s) s).seq (qs := [.pm, .wdt, .tb]) (t := bankReset (banksKept s) s) ?_
  intro p hp; cases p <;> first | rfl | exact absurd (by decide) hp

/-- What FEATHER's end makes of the power state. -/
def featherPm (kept : Word) (p : Pm) : Pm :=
  { p with st := .run, idle := 0, why := 0, b1Ok := false, b2Ok := bit kept 1, b3Ok := bit kept 2, b4Ok := bit kept 3 }

theorem featherUp_rule (s : State) : (featherUp s).pm = featherPm (banksKept s) s.pm ∧
    (featherUp s).wdt.paused = false ∧
    (featherUp s).tb.time = s.tb.time + BitVec.ofNat 64 (ticksOf (s.aon.time - s.pm.featherAon)) ∧
    (featherUp s).bus = (bankReset (banksKept s) s).bus := by
  have hbank := bankReset_frame (banksKept s) s
  exact ⟨congrArg (featherPm (banksKept s)) (hbank .pm (by decide)), rfl,
    congrArg (fun t : Tb => t.time + BitVec.ofNat 64 (ticksOf (s.aon.time - s.pm.featherAon))) (hbank .tb (by decide)), rfl⟩

theorem featherWake_rule {s : State} (hp : powerOn s = true) (hm : s.pm.mgHeld = none) (hr : s.pm.suspendReq = false)
    (he : s.aon.xqErr = []) :
    (featherWake s).pm = { featherPm (banksKept s) s.pm with replay := 0#16 } ∧ (featherWake s).wdt.paused = false ∧
    (featherWake s).aon.xq = [] ∧ (featherWake s).bus = (bankReset (banksKept s) s).bus ∧
    (featherWake s).tb.time = s.tb.time + BitVec.ofNat 64 (ticksOf (s.aon.time - s.pm.featherAon)) ∧
    only [.pm, .wdt, .bb, .pps, .aon, .doms, .ln, .que, .bus, .tb, .out] s (featherWake s) := by
  obtain ⟨hpm, hwdt, htb, hbus⟩ := featherUp_rule s
  have hup := featherUp_frame s
  have hlog := recordWake_frame (featherUp s)
  have hpm1 : (recordWake (featherUp s)).pm = featherPm (banksKept s) s.pm := (hlog .pm (by decide)).trans hpm
  have hl : linkOn (recordWake (featherUp s)) = true := by
    have hrst : (recordWake (featherUp s)).rst = s.rst := (hlog .rst (by decide)).trans (hup .rst (by decide))
    obtain ⟨hpor, hpin⟩ : s.rst.por = false ∧ s.rst.pin = false := by simpa [powerOn] using hp
    rw [linkOn, hpm1, hrst, hpor, hpin]
    rfl
  have haon : (recordWake (featherUp s)).aon = s.aon := (hlog .aon (by decide)).trans (hup .aon (by decide))
  obtain ⟨hpm2, hxq, harrive⟩ := arrive_rule (s := recordWake (featherUp s)) (by rw [hpm1]; exact hm)
  have hscan := scanLate_frame (arrive (recordWake (featherUp s)))
  have hpm3 : (scanLate (arrive (recordWake (featherUp s)))).pm = { featherPm (banksKept s) s.pm with replay := 0#16 } := by
    rw [hscan .pm (by decide), hpm2, hpm1]
  rw [featherWake_eq, suspendAfresh_none (by rw [hpm3]; exact hr)]
  refine ⟨hpm3, ?_, ?_, ?_, ?_, (hup.seq hlog (rs := [.pm, .wdt, .tb, .bus, .ln, .doms, .bb])).seq
    (harrive.seq hscan (rs := arriveParts))⟩
  · rw [hscan .wdt (by decide), harrive .wdt (by decide), hlog .wdt (by decide)]
    exact hwdt
  · rw [hscan .aon (by decide)]
    exact hxq hl (by rw [haon]; exact he)
  · rw [hscan .bus (by decide), harrive .bus (by decide), hlog .bus (by decide)]
    exact hbus
  · rw [hscan .tb (by decide), harrive .tb (by decide), hlog .tb (by decide)]
    exact htb

/-! ## The wake sources (R347, R354) -/

/-- The wake sources of a row, before any acts. -/
def noted (s : State) (h : Word) (during : Bool) : State := { s with pm := noteCause h during s.aon.time s.pm }

theorem wakeHit_none {s : State} {srcs : Word} {during : Bool} (h : wakeHits s srcs = 0#16) : wakeHit s srcs during = s := if_pos h

theorem wakeHit_acts {s : State} {srcs : Word} {during : Bool} (h : wakeHits s srcs ≠ 0#16) : wakeHit s srcs during =
    match s.pm.st with
    | .stow => beginWake (noted s (wakeHits s srcs) during)
    | .feather => featherWake (noted s (wakeHits s srcs) during)
    | .waking => if s.pm.restart = 0 then noted s (wakeHits s srcs) during else s
    | _ => s := by
  unfold wakeHit
  dsimp only
  rw [if_neg h]
  rfl

theorem wakeHit_stow {s : State} {srcs : Word} {during : Bool} (h : wakeHits s srcs ≠ 0#16) (hst : s.pm.st = .stow) :
    (wakeHit s srcs during).pm.st = .waking ∧ (wakeHit s srcs during).pm.pwrEn = true ∧
    (wakeHit s srcs during).pm.restart = 0 ∧
    (wakeHit s srcs during).pm.wakeCause = (s.pm.wakeCause ||| wakeHits s srcs) ∧
    only [.pm, .aon] s (wakeHit s srcs during) := by
  have hwake : wakeHit s srcs during = beginWake (noted s (wakeHits s srcs) during) := by
    rw [wakeHit_acts h, hst]
  rw [hwake]
  refine ⟨rfl, rfl, rfl, rfl, ?_⟩
  intro p hp; cases p <;> first | rfl | exact absurd (by decide) hp

/-- The levels of the pins, taken. -/
def pinned (s : State) (pins : BitVec 8) : State := { s with pm := { s.pm with pins := pins.setWidth 16 } }

section Sources
variable {pins : BitVec 8} {srcs h : Word} {s : State} (hp : powerOn s = true)
  (hh : h = wakeHits s (pinHits s.pm (pins.setWidth 16) ||| (srcs &&& 0x3F00#16)))
include hp hh

theorem wakeSource_row (during : Bool) : exec (.wakeSource pins srcs during) s =
    .next (wakeHit (pinned s pins) (pinHits s.pm (pins.setWidth 16) ||| (srcs &&& 0x3F00#16)) during) :=
  (fun _ => exec_onPower hp rfl) hh

theorem wakeSource_quiet (during : Bool) (hno : h = 0#16 ∨ s.pm.st = .run) :
    exec (.wakeSource pins srcs during) s = .next (pinned s pins) := by
  refine (wakeSource_row hp hh during).trans (congrArg Host.Outcome.next ?_)
  rcases hno with hno | hno
  · exact wakeHit_none (hh.symm.trans hno)
  · exact wakeHit_run (s := pinned s pins) hno _ _

theorem wakeSource_waking (during : Bool) (h0 : h ≠ 0#16) (hst : s.pm.st = .waking) :
    exec (.wakeSource pins srcs during) s =
      .next (if s.pm.restart = 0 then noted (pinned s pins) h during else pinned s pins) := by
  refine (wakeSource_row hp hh during).trans (congrArg Host.Outcome.next ?_)
  have hhit : wakeHits (pinned s pins) (pinHits s.pm (pins.setWidth 16) ||| (srcs &&& 0x3F00#16)) = h := hh.symm
  rw [wakeHit_acts (by rw [hhit]; exact h0), hhit, show (pinned s pins).pm.st = .waking from hst]
  rfl

theorem wakeSource_feather (during : Bool) (h0 : h ≠ 0#16) (hst : s.pm.st = .feather) :
    exec (.wakeSource pins srcs during) s = .next (featherWake (noted (pinned s pins) h during)) := by
  refine (wakeSource_row hp hh during).trans (congrArg Host.Outcome.next ?_)
  have hhit : wakeHits (pinned s pins) (pinHits s.pm (pins.setWidth 16) ||| (srcs &&& 0x3F00#16)) = h := hh.symm
  rw [wakeHit_acts (by rw [hhit]; exact h0), hhit, show (pinned s pins).pm.st = .feather from hst]

end Sources

/-- The wake sources of every state (R347, R350, R354). -/
theorem wakeSource_rule (pins : BitVec 8) (srcs : Word) (during : Bool) (h : Word) (s : State) (hp : powerOn s = true)
    (hh : h = wakeHits s (pinHits s.pm (pins.setWidth 16) ||| (srcs &&& 0x3F00#16))) :
    ((h = 0#16 ∨ s.pm.st = .run) →
      ∃ t, exec (.wakeSource pins srcs during) s = .next t ∧ t.pm = { s.pm with pins := pins.setWidth 16 } ∧
        only [.pm] s t) ∧
    (h ≠ 0#16 → s.pm.st = .waking → s.pm.restart = 0 →
      ∃ t, exec (.wakeSource pins srcs during) s = .next t ∧ t.pm.st = .waking ∧
        t.pm.wakeCause = (s.pm.wakeCause ||| h) ∧ only [.pm] s t) ∧
    (h ≠ 0#16 → s.pm.st = .waking → s.pm.restart ≠ 0 →
      ∃ t, exec (.wakeSource pins srcs during) s = .next t ∧ t.pm = { s.pm with pins := pins.setWidth 16 } ∧
        only [.pm] s t) ∧
    (h ≠ 0#16 → s.pm.st = .stow →
      ∃ t, exec (.wakeSource pins srcs during) s = .next t ∧ t.pm.st = .waking ∧ t.pm.pwrEn = true ∧
        t.pm.restart = 0 ∧ t.pm.wakeCause = (s.pm.wakeCause ||| h) ∧ only [.pm, .aon] s t) ∧
    (h ≠ 0#16 → s.pm.st = .feather → s.pm.mgHeld = none → s.pm.suspendReq = false →
      s.aon.xqErr = [] →
      ∃ t, exec (.wakeSource pins srcs during) s = .next t ∧ t.pm.st = .run ∧ t.wdt.paused = false ∧
        t.pm.wakeCause = (s.pm.wakeCause ||| h) ∧ t.aon.xq = [] ∧
        t.pm.b2Ok = bit (banksKept s) 1 ∧ t.pm.b3Ok = bit (banksKept s) 2 ∧ t.pm.b4Ok = bit (banksKept s) 3 ∧
        (bit (banksKept s) 1 = false → t.bus.mc = [] ∧ t.bus.sched = []) ∧
        t.tb.time = s.tb.time + BitVec.ofNat 64 (ticksOf (s.aon.time - s.pm.featherAon)) ∧
        only [.pm, .wdt, .bb, .pps, .aon, .doms, .ln, .que, .bus, .tb, .out] s t) := by
  have hpins : only [.pm] s (pinned s pins) := pm_frame s _
  have hnote : only [.pm] s (noted (pinned s pins) h during) := pm_frame s _
  refine ⟨fun hno => ⟨_, wakeSource_quiet hp hh during hno, rfl, hpins⟩, fun h0 hst hr => ?_, fun h0 hst hr => ?_,
    fun h0 hst => ?_, fun h0 hst hm hr he => ?_⟩
  · have hrow := wakeSource_waking hp hh during h0 hst
    rw [if_pos hr] at hrow
    exact ⟨_, hrow, hst, rfl, hnote⟩
  · have hrow := wakeSource_waking hp hh during h0 hst
    rw [if_neg hr] at hrow
    exact ⟨_, hrow, rfl, hpins⟩
  · have hhit : wakeHits (pinned s pins) (pinHits s.pm (pins.setWidth 16) ||| (srcs &&& 0x3F00#16)) = h := hh.symm
    obtain ⟨hst', hpwr, hrestart, hcause, hparts⟩ := wakeHit_stow (s := pinned s pins) (during := during)
      (srcs := pinHits s.pm (pins.setWidth 16) ||| (srcs &&& 0x3F00#16)) (by rw [hhit]; exact h0) hst
    rw [hhit] at hcause
    exact ⟨_, wakeSource_row hp hh during, hst', hpwr, hrestart, hcause, hpins.seq hparts⟩
  · have hrow := wakeSource_feather hp hh during h0 hst
    obtain ⟨hpm, hwdt, hxq, hbus, htb, hparts⟩ := featherWake_rule (s := noted (pinned s pins) h during) hp hm hr he
    refine ⟨_, hrow, congrArg Pm.st hpm, hwdt, (congrArg Pm.wakeCause hpm :), hxq, congrArg Pm.b2Ok hpm,
      congrArg Pm.b3Ok hpm, congrArg Pm.b4Ok hpm, fun hb => ?_, htb, hnote.seq hparts⟩
    rw [hbus]
    exact bankReset_tables hb _

/-! ## Power-up (R349, R352, R353) -/

theorem powerUp_rule {s : State} (hp : powerOn s = true) (hst : s.pm.st = .waking) (he : s.pm.pwrEn = true)
    (hc : s.pm.corePg = false) (h0 : bit s.pm.pwrSeq 0 = false) :
    (s.pm.attempts + 1 < 3 →
      ∃ t, exec .powerUpFailure s = .next t ∧
        t.pm = { s.pm with pwrEn := false, attempts := s.pm.attempts + 1, puWait := true } ∧
        logsPower s t 0x12 0 (w16 (s.pm.attempts + 1)) 0#16 ∧ only [.pm, .bb] s t) ∧
    (3 ≤ s.pm.attempts + 1 → (s.wdt.grace = false ∨ s.wdt.paused = true) →
      ∃ t, exec .powerUpFailure s = .next t ∧
        t.pm = { s.pm with pwrEn := false, st := .stow, why := 0, boost := bit s.pm.kregCtrl 0, puFail := true,
                           attempts := 0, puWait := false } ∧
        t.wdt = { s.wdt with paused := true } ∧ t.clk = { s.clk with xinOk := false } ∧
        logsPower s t 0x12 0 (w16 (s.pm.attempts + 1)) 0#16 ∧ only [.pm, .wdt, .bb, .clk] s t) ∧
    (3 ≤ s.pm.attempts + 1 → s.wdt.grace = true → s.wdt.paused = false →
      ∃ t, exec .powerUpFailure s = .next t ∧
        t.pm = { s.pm with pwrEn := false, puFail := true, attempts := 0, puWait := false } ∧
        logsPower s t 0x12 0 (w16 (s.pm.attempts + 1)) 0#16 ∧ only [.pm, .bb] s t) := by
  have hgo : (s.pm.st = .waking && s.pm.pwrEn && !s.pm.corePg && !bit s.pm.pwrSeq 0) = true := by
    rw [hst, he, hc, h0]
    rfl
  have hrow : exec .powerUpFailure s = .next (powerUpFail s) := exec_onPower hp (whenDo_holds hgo)
  refine ⟨fun h => ?_, fun h hg => ?_, fun h hg hw => ?_⟩
  · have hfail : powerUpFail s = bbPow { s with pm := { s.pm with
        pwrEn := false, attempts := s.pm.attempts + 1, puWait := true } } 0x12 0 (w16 (s.pm.attempts + 1)) 0#16 :=
      if_neg (by omega)
    rw [hfail] at hrow
    refine ⟨_, hrow, rfl, rfl, ?_⟩
    intro p hp; cases p <;> first | rfl | exact absurd (by decide) hp
  · have hcounts : graceCounts s.wdt = false := by
      unfold graceCounts
      rcases hg with hg | hg <;> simp [hg]
    have hfail : powerUpFail s = powerUpStop (bbPow { s with pm := { s.pm with
        pwrEn := false, attempts := s.pm.attempts + 1, puWait := true } } 0x12 0 (w16 (s.pm.attempts + 1)) 0#16) := if_pos h
    rw [hfail, powerUpStop] at hrow
    dsimp only at hrow
    rw [show graceCounts (bbPow { s with pm := { s.pm with
        pwrEn := false, attempts := s.pm.attempts + 1, puWait := true } } 0x12 0 (w16 (s.pm.attempts + 1)) 0#16).wdt = false
      from hcounts] at hrow
    refine ⟨_, hrow, rfl, rfl, rfl, rfl, ?_⟩
    intro p hp; cases p <;> first | rfl | exact absurd (by decide) hp
  · have hcounts : graceCounts s.wdt = true := by simp [graceCounts, hg, hw]
    have hfail : powerUpFail s = powerUpStop (bbPow { s with pm := { s.pm with
        pwrEn := false, attempts := s.pm.attempts + 1, puWait := true } } 0x12 0 (w16 (s.pm.attempts + 1)) 0#16) := if_pos h
    rw [hfail, powerUpStop] at hrow
    dsimp only at hrow
    rw [show graceCounts (bbPow { s with pm := { s.pm with
        pwrEn := false, attempts := s.pm.attempts + 1, puWait := true } } 0x12 0 (w16 (s.pm.attempts + 1)) 0#16).wdt = true
      from hcounts] at hrow
    refine ⟨_, hrow, rfl, rfl, ?_⟩
    intro p hp; cases p <;> first | rfl | exact absurd (by decide) hp

theorem abandonSave_rule (s : State) : (s.wdt.save = 1 → (abandonSave s).wdt.save = 3) ∧
    (abandonSave s).wdt.grace = s.wdt.grace ∧ only [.wdt] s (abandonSave s) := by
  unfold abandonSave
  split
  · exact ⟨fun _ => rfl, rfl, wdt_frame s _⟩
  · rename_i h
    exact ⟨fun h' => absurd h' h, rfl, only_refl _ s⟩

/-- The parts that a reset of the Link die at a loss of its power changes. -/
def cutParts : List Part := [.pm, .wdt, .bb, .pps, .mtr, .aon, .glob, .clk, .pcie, .doms, .ln, .hma, .ula, .que, .fl, .ports,
  .bus, .tt, .tb, .cen, .sur]

theorem linkReset_frame (s : State) (keep : Bool) : only cutParts s (linkReset s keep) := by
  intro p hp; cases p <;> first | rfl | exact absurd (by decide) hp

theorem restartLink_frame (s : State) (how : Nat) : only cutParts s (restartLink s how) := by
  intro p hp; cases p <;> first | rfl | exact absurd (by decide) hp

theorem cutLink_rule (s : State) : (cutLink s).pm.st = .waking ∧ (cutLink s).pm.restart = 1 ∧
    (cutLink s).pm.wakeCause = s.pm.wakeCause ∧ (cutLink s).ports = Vector.replicate 17 Port.reset ∧
    (cutLink s).bus = Bus.reset ∧ (cutLink s).tb = Tb.reset ∧ (cutLink s).pcie = Pcie.reset ∧
    (s.wdt.save = 1 → (cutLink s).wdt.save = 3) ∧ (cutLink s).wdt.grace = s.wdt.grace ∧ only cutParts s (cutLink s) := by
  obtain ⟨hsave, hgrace, hparts⟩ := abandonSave_rule s
  have hpm : (abandonSave s).pm = s.pm := hparts .pm (by decide)
  exact ⟨rfl, rfl, (congrArg Pm.wakeCause hpm :), rfl, rfl, rfl, rfl, hsave, hgrace,
    (hparts.seq (linkReset_frame _ false) (rs := cutParts)).seq (restartLink_frame _ 1)⟩

theorem powerLoss_rule {s : State} (hp : powerOn s = true) (hst : s.pm.st = .run ∨ s.pm.st = .feather)
    (he : s.pm.pwrEn = true) (h0 : bit s.pm.pwrSeq 0 = false) :
    ∃ t, exec .linkDiePowerLoss s = .next t ∧ t.pm.st = .waking ∧ t.pm.restart = 1 ∧ t.pm.lossWait = true ∧
      t.pm.pwrEn = false ∧ t.pm.wakeCause = (s.pm.wakeCause ||| 0x8000#16) ∧
      t.ports = Vector.replicate 17 Port.reset ∧ t.bus = Bus.reset ∧ t.tb = Tb.reset ∧ t.pcie = Pcie.reset ∧
      (s.wdt.save = 1 → t.wdt.save = 3) ∧ t.wdt.grace = s.wdt.grace ∧ only cutParts s t := by
  have hgo : ((s.pm.st = .run || s.pm.st = .feather) && s.pm.pwrEn && !bit s.pm.pwrSeq 0) = true := by
    rcases hst with hst | hst <;> rw [hst, he, h0] <;> rfl
  obtain ⟨hst', hrestart, hcause, hports, hbus, htb, hpcie, hsave, hgrace, hparts⟩ := cutLink_rule s
  have hrow : exec .linkDiePowerLoss s = .next (corelossStart s) := exec_onPower hp (whenDo_holds hgo)
  have hloss : only [.pm, .bb] (cutLink s) (corelossStart s) := by
    intro p hp; cases p <;> first | rfl | exact absurd (by decide) hp
  exact ⟨_, hrow, hst', hrestart, rfl, rfl, congrArg (· ||| 0x8000#16) hcause, hports, hbus, htb, hpcie, hsave, hgrace,
    hparts.seq hloss⟩

/-! ## PE_PERST_N and SD -/

theorem perst_rule {s : State} (h : s.rst.perst = true) :
    ((s.pm.st = .run ∨ powerOn s = false ∨ epStrap s = false) →
      ∃ t, exec .perstRelease s = .next t ∧ t.rst = { s.rst with perst := false } ∧ only [.rst] s t) ∧
    (s.pm.st = .stow → powerOn s = true → epStrap s = true → bit s.pm.wakeEn 11 = true →
      ∃ t, exec .perstRelease s = .next t ∧ t.rst = { s.rst with perst := false } ∧ t.pm.st = .waking ∧
        t.pm.wakeCause = (s.pm.wakeCause ||| 0x0800#16) ∧ only [.rst, .pm, .aon] s t) := by
  obtain ⟨u, hu⟩ : ∃ u : State, u = { s with rst := { s.rst with perst := false } } := ⟨_, rfl⟩
  have hfree : only [.rst] s u := by
    rw [hu]
    intro p hp; cases p <;> first | rfl | exact absurd (by decide) hp
  have hrst : u.rst = { s.rst with perst := false } := by rw [hu]
  have hpm : u.pm = s.pm := hfree .pm (by decide)
  have hrow : exec .perstRelease s = .next (if powerOn s && epStrap s then wakeHit u 0x0800#16 false else u) := by
    rw [hu]
    exact congrArg Host.Outcome.next (whenDo_holds h)
  refine ⟨fun hno => ⟨u, hrow.trans (congrArg Host.Outcome.next ?_), hrst, hfree⟩, fun hst hp he hw => ?_⟩
  · rcases hno with hno | hno | hno
    · rw [wakeHit_run (by rw [hpm]; exact hno), ite_self]
    · rw [hno]
      rfl
    · rw [hno, Bool.and_false]
      rfl
  · have hhit : wakeHits u 0x0800#16 = 0x0800#16 := by
      have hw' : u.pm.wakeEn.getLsbD 11 = true := by rw [hpm]; exact hw
      unfold wakeHits
      rw [if_neg (by rw [hpm, hst]; exact PmSt.noConfusion)]
      refine BitVec.eq_of_getLsbD_eq fun i hi => ?_
      rw [BitVec.getLsbD_and, BitVec.getLsbD_and]
      by_cases h11 : i = 11
      · subst h11
        rw [hw']
        rfl
      · have hnone : (0x0800#16).getLsbD i = false := by
          revert h11
          revert i
          decide
        rw [hnone]
        rfl
    obtain ⟨hst', -, -, hcause, hparts⟩ := wakeHit_stow (s := u) (srcs := 0x0800#16) (during := false)
      (by rw [hhit]; decide) (by rw [hpm]; exact hst)
    rw [hp, he] at hrow
    refine ⟨_, hrow, (hparts .rst (by decide)).trans hrst, hst', ?_, hfree.seq hparts⟩
    rw [hhit, hpm] at hcause
    exact hcause

theorem sd_rule {n : PortN} {s : State} (hp : powerOn s = true) :
    (s.ports[n].rxCur = none →
      ∃ t, exec (.sdChange n false) s = .next t ∧ t.aon.ports[n] = { s.aon.ports[n] with
        sd := false, sdFell := s.aon.ports[n].sdFell || s.aon.ports[n].hold != .none } ∧ only [.aon] s t) ∧
    (s.pm.st = .run →
      ∃ t, exec (.sdChange n true) s = .next t ∧ t.aon.ports[n] = { s.aon.ports[n] with sd := true } ∧
        only [.aon] s t) := by
  have hnote : ∀ level, (noteSd n level s).aon.ports[n] = { s.aon.ports[n] with
      sd := level, sdFell := s.aon.ports[n].sdFell || (!level && s.aon.ports[n].hold != .none) } := fun level =>
    vMod_get_self s.aon.ports n _
  have hparts : ∀ level, only [.aon] s (noteSd n level s) := fun level => modAon_frame s n _
  refine ⟨fun hrx => ⟨noteSd n false s, exec_onPower hp ?_, hnote false, hparts false⟩,
    fun hst => ⟨noteSd n true s, exec_onPower hp ?_, ?_, hparts true⟩⟩
  · unfold sdChange
    dsimp only
    rw [Bool.false_and, if_neg Bool.false_ne_true, if_pos (by decide)]
    unfold sdDrop
    rw [show (noteSd n false s).ports[n].rxCur = none from hrx]
  · unfold sdChange
    dsimp only
    rw [wakeHit_run (s := noteSd n true s) hst]
    exact ite_self _
  · rw [hnote true]
    simp

/-- Settles O49: it holds.  A wake source is noted and ends STOW or FEATHER; the release of the Link die reset restores
what B1 holds by writes that reach no part of the power state; and a failed power-up counts its attempts. -/
theorem wakeOrder : Obligations.WakeOrder := by
  unfold Obligations.WakeOrder
  refine ⟨wakeSource_rule, fun s hp => ⟨fun hst he => ?_, fun hno => exec_onPower hp (whenDo_fails ?_),
    fun x hm hb hheld hr _ => ?_, fun x ws w hm h0 hb hw hheld hr _ => ?_, fun x hm => exec_onPower hp (whenDo_fails hm),
    fun hst he hc h0 => powerUp_rule hp hst he hc h0, fun hst => ⟨exec_onPower hp (whenDo_fails ?_),
      exec_onPower hp (whenDo_fails ?_)⟩, fun hst hw => ?_, fun hst he h0 => ?_, fun h0 => exec_onPower hp (whenDo_fails ?_),
    fun hw => ?_, fun hw => exec_onPower hp (whenDo_fails hw)⟩, fun s => ⟨fun h => (perst_rule h).1,
    fun h => (perst_rule h).2, fun h => congrArg Host.Outcome.next (whenDo_fails h)⟩, fun n s hp => sd_rule hp⟩
  · have hgo : (s.pm.st = .waking && s.pm.pwrEn) = true := by
      rw [hst, he]
      rfl
    exact ⟨_, exec_onPower hp (whenDo_holds hgo), rfl, pm_frame s _⟩
  · rcases hno with hno | hno
    · rw [decide_eq_false hno, Bool.false_and]
    · rw [hno, Bool.and_false]
  · obtain ⟨hpm, hwdt, htb, hsfdp, hparts⟩ := linkRelease_plain x hb hheld hr
    exact ⟨_, exec_onPower hp (whenDo_holds hm), congrArg Pm.st hpm, congrArg Pm.attempts hpm, htb, hsfdp,
      congrArg Wdt.paused hwdt, hparts⟩
  · obtain ⟨hpm, hwdt, hglob, hsfdp, hparts⟩ := linkRelease_restores x h0 hb hw hheld hr
    exact ⟨_, exec_onPower hp (whenDo_holds hm), congrArg Pm.st hpm, congrArg Pm.attempts hpm, congrArg Pm.b1Ok hpm,
      congrArg Pm.b2Ok hpm, congrArg Pm.b3Ok hpm, congrArg Pm.b4Ok hpm, (congrArg Glob.cfgBusy hglob :),
      congrArg Glob.pclass0 hglob, hsfdp, congrArg Wdt.paused hwdt, hparts⟩
  · rw [decide_eq_false hst]
    rfl
  · rw [decide_eq_false hst]
    rfl
  · have hgo : (s.pm.st = .waking && s.pm.puWait) = true := by
      rw [hst, hw]
      rfl
    exact ⟨_, exec_onPower hp (whenDo_holds hgo), rfl, pm_frame s _⟩
  · obtain ⟨t, hrow, hst', hrestart, hloss, hpwr, hcause, hports, hbus, htb, hpcie, hsave, hgrace, hparts⟩ :=
      powerLoss_rule hp hst he h0
    exact ⟨t, hrow, hst', hrestart, hloss, hpwr, hcause, hports, hbus, htb, hpcie, hsave, hgrace, hparts⟩
  · rw [h0]
    exact Bool.and_false _
  · exact ⟨_, exec_onPower hp (whenDo_holds hw), rfl, pm_frame s _⟩

end Sys2Proof.Machine
end

section
/-! PROOF. Entry to FEATHER and STOW, the keep-alive regulator and VLINK (O50). -/

namespace Sys2Proof.Machine

open Sys2Proof Sys2Proof.Safety

-- One proof after the other: side by side, the proofs of one text wait for each other in too many threads.
set_option Elab.async false


/-! ## The entries (R339, R340) -/

theorem endLock_frame (s : State) : only [.bb, .aon, .doms, .ln, .hma, .que, .ports, .tt, .tb, .out] s (endLock s) :=
  ((loseLock_only s).seq (show only [.tb] (loseLock s) { loseLock s with tb := { (loseLock s).tb with holdover := false } }
    from tb_frame _ _) (rs := lockParts)).seq (releaseEarly_frame _ _ _)

theorem endLock_locked (s : State) : (endLock s).tb.locked = false := by
  obtain ⟨c, hc⟩ := releaseEarly_tb { loseLock s with tb := { (loseLock s).tb with holdover := false } } (fun _ _ => true) 0x0800#16
  have hlost : (loseLock s).tb.locked = false := congrArg Tb.locked (loseLock_tb s)
  exact (congrArg Tb.locked hc).trans hlost

/-- The parts that an entry to FEATHER may change. -/
def featherParts : List Part := [.pm, .wdt, .bb, .pps, .mtr, .aon, .clk, .doms, .ln, .hma, .que, .ports, .tt, .tb, .out]

/-- The entry to FEATHER, once the lock has ended. -/
def featherFrom (u : State) (sel : Word) (time : Nat) : State :=
  let s1 := meterStop u
  { s1 with
    clk := { s1.clk with plan := 0#16, pllLock := false, corePll := false, refAct := 0, fbDue := false }
    wdt := { s1.wdt with paused := true }
    pm := { s1.pm with st := .feather, why := 0, retUsed := sel, wakeCause := 0#16, featherAon := time } }

theorem enterFeather_eq (s : State) : enterFeather s = featherFrom (endLock s) s.pm.retSel s.aon.time := rfl

theorem featherFrom_rule (u : State) (sel : Word) (time : Nat) : (featherFrom u sel time).pm.st = .feather ∧
    (featherFrom u sel time).pm.retUsed = sel ∧ (featherFrom u sel time).pm.wakeCause = 0#16 ∧
    (featherFrom u sel time).clk.corePll = false ∧ (featherFrom u sel time).clk.plan = 0#16 ∧
    (featherFrom u sel time).wdt.paused = true ∧ (featherFrom u sel time).tb = u.tb ∧
    (featherFrom u sel time).mtr = { u.mtr with gap := true, frame := u.mtr.frame + 1, slot := 0 } ∧
    only [.pm, .wdt, .pps, .mtr, .clk] u (featherFrom u sel time) := by
  refine ⟨rfl, rfl, rfl, rfl, rfl, rfl, rfl, rfl, ?_⟩
  intro p hp; cases p <;> first | rfl | exact absurd (by decide) hp

theorem enterFeather_rule (s : State) : (enterFeather s).pm.st = .feather ∧ (enterFeather s).pm.retUsed = s.pm.retSel ∧
    (enterFeather s).pm.wakeCause = 0#16 ∧ (enterFeather s).clk.corePll = false ∧ (enterFeather s).clk.plan = 0#16 ∧
    (enterFeather s).wdt.paused = true ∧ (enterFeather s).tb.locked = false ∧
    (enterFeather s).mtr = { s.mtr with gap := true, frame := s.mtr.frame + 1, slot := 0 } ∧
    only featherParts s (enterFeather s) := by
  have hend := endLock_frame s
  obtain ⟨hst, hret, hcause, hpll, hplan, hwdt, htb, hmtr, hparts⟩ :=
    featherFrom_rule (endLock s) s.pm.retSel s.aon.time
  rw [← enterFeather_eq] at hst hret hcause hpll hplan hwdt htb hmtr hparts
  rw [show (endLock s).mtr = s.mtr from hend .mtr (by decide)] at hmtr
  exact ⟨hst, hret, hcause, hpll, hplan, hwdt, (congrArg Tb.locked htb).trans (endLock_locked s), hmtr, hend.seq hparts⟩

/-- The entry to STOW, of a device whose banks are as the entry finds them. -/
def stowFrom (s : State) (why : Nat) : State :=
  let s1 := meterStop (bbPow s 0x10 0 s.pm.retSel (w16 why))
  linkReset { s1 with
    clk := { s1.clk with xinOk := false }
    aon := { s1.aon with ports := Vector.ofFn fun n : PortN => { s.aon.ports[n] with enCopy := s.ports[n].en } }
    wdt := { s1.wdt with paused := true }
    pm := { s1.pm with st := .stow, why := 0, restart := 0, retUsed := s.pm.retSel, wakeCause := 0#16
                       b1 := if bit s.pm.retSel 0 then some (stowWords s) else none, pwrEn := false, corePg := false } } false

theorem enterStow_eq (s : State) (why : Nat) :
    enterStow s why = stowFrom (if s.pm.st = .feather then bankReset s.pm.retUsed s else s) why := rfl

theorem stowFrom_rule (s : State) (why : Nat) : (stowFrom s why).pm.st = .stow ∧ (stowFrom s why).pm.pwrEn = false ∧
    (stowFrom s why).wdt.paused = true ∧ (stowFrom s why).ports = Vector.replicate 17 Port.reset ∧
    (stowFrom s why).bus = Bus.reset ∧
    (stowFrom s why).pm.b1 = (if bit s.pm.retSel 0 then some (stowWords s) else none) ∧
    only cutParts s (stowFrom s why) := by
  refine ⟨rfl, rfl, rfl, rfl, rfl, rfl, ?_⟩
  intro p hp; cases p <;> first | rfl | exact absurd (by decide) hp

theorem enterStow_rule (s : State) (why : Nat) : (enterStow s why).pm.st = .stow ∧ (enterStow s why).pm.pwrEn = false ∧
    (enterStow s why).wdt.paused = true ∧ (enterStow s why).ports = Vector.replicate 17 Port.reset ∧
    (enterStow s why).bus = Bus.reset ∧
    (s.pm.st = .run → bit s.pm.retSel 0 = true → (enterStow s why).pm.b1 = some (stowWords s)) ∧
    only cutParts s (enterStow s why) := by
  have hbank : only [.bus, .ln, .doms] s (if s.pm.st = .feather then bankReset s.pm.retUsed s else s) :=
    only_ite _ (bankReset_frame _ s) (only_refl _ s)
  obtain ⟨hst, hpwr, hwdt, hports, hbus, hb1, hparts⟩ :=
    stowFrom_rule (if s.pm.st = .feather then bankReset s.pm.retUsed s else s) why
  rw [← enterStow_eq] at hst hpwr hwdt hports hbus hb1 hparts
  refine ⟨hst, hpwr, hwdt, hports, hbus, fun hrun hb => ?_, hbank.seq hparts⟩
  have hnot : s.pm.st ≠ .feather := by
    rw [hrun]
    exact PmSt.noConfusion
  rw [hb1, if_neg hnot]
  exact if_pos hb

/-! ## The idle timers (R337) -/

theorem idleOver_of {s : State} {u : Word} (h : u ≠ 0#16) (hi : 32 * u.toNat ≤ s.pm.idle) : idleOver s u = true := by
  rw [idleOver, bne_iff_ne.mpr h, decide_eq_true hi]
  rfl

theorem not_idleOver {s : State} {u : Word} (h : u = 0#16 ∨ s.pm.idle < 32 * u.toNat) : idleOver s u = false := by
  unfold idleOver
  rcases h with h | h
  · rw [h]
    rfl
  · rw [decide_eq_false (Nat.not_le.mpr h), Bool.and_false]

theorem featherExpiry_over {s : State} (h : idleOver s s.pm.featherIdle = true) : featherExpiry s =
    if whyFeather s != 0 then idleFails s else enterFeather s := by
  unfold featherExpiry
  rw [h]
  rfl

theorem stowExpiry_over {s : State} (h : idleOver s s.pm.stowIdle = true) (hst : s.pm.st = .run ∨ s.pm.st = .feather) :
    stowExpiry s = if whyFeather s != 0 then idleFails s else if whyStow s != 0 then denyReq s (whyStow s)
      else enterStow s 1 := by
  unfold stowExpiry
  rw [h, if_neg (by rcases hst with hst | hst <;> simp [hst])]

theorem stowExpiry_idle {s : State} (h : idleOver s s.pm.stowIdle = false ∨ (s.pm.st ≠ .run ∧ s.pm.st ≠ .feather)) :
    stowExpiry s = s := by
  refine if_pos ?_
  rcases h with h | ⟨h, h'⟩
  · rw [h]
    rfl
  · simp [h, h']

theorem featherIdle_rule {s : State} (hl : linkOn s = true) :
    (s.pm.featherIdle ≠ 0#16 → 32 * s.pm.featherIdle.toNat ≤ s.pm.idle → whyFeather s = 0 →
      exec .featherIdleExpiry s = .next (enterFeather s)) ∧
    (s.pm.featherIdle ≠ 0#16 → 32 * s.pm.featherIdle.toNat ≤ s.pm.idle → whyFeather s ≠ 0 →
      ∃ t, exec .featherIdleExpiry s = .next t ∧ t.pm = { s.pm with idle := 0, why := whyFeather s } ∧
        only [.pm] s t) ∧
    ((s.pm.featherIdle = 0#16 ∨ s.pm.idle < 32 * s.pm.featherIdle.toNat) →
      exec .featherIdleExpiry s = .next s) := by
  refine ⟨fun h hi hw => ?_, fun h hi hw => ⟨idleFails s, ?_, rfl, pm_frame s _⟩, fun h => onLink_eq hl ?_⟩
  · refine onLink_eq hl ((featherExpiry_over (idleOver_of h hi)).trans ?_)
    rw [hw]
    rfl
  · exact onLink_eq hl ((featherExpiry_over (idleOver_of h hi)).trans (if_pos (bne_iff_ne.mpr hw)))
  · unfold featherExpiry
    rw [not_idleOver h]
    rfl

theorem stowIdle_rule {s : State} (hp : powerOn s = true) :
    (s.pm.stowIdle ≠ 0#16 → 32 * s.pm.stowIdle.toNat ≤ s.pm.idle → whyStow s = 0 →
      (s.pm.st = .run ∨ s.pm.st = .feather) → whyFeather s = 0 → exec .stowIdleExpiry s = .next (enterStow s 1)) ∧
    (s.pm.stowIdle ≠ 0#16 → 32 * s.pm.stowIdle.toNat ≤ s.pm.idle → (s.pm.st = .run ∨ s.pm.st = .feather) →
      (whyFeather s ≠ 0 →
        ∃ t, exec .stowIdleExpiry s = .next t ∧ t.pm = { s.pm with idle := 0, why := whyFeather s } ∧
          only [.pm] s t) ∧
      (whyFeather s = 0 → whyStow s ≠ 0 →
        ∃ t, exec .stowIdleExpiry s = .next t ∧ t.pm = { s.pm with why := whyStow s } ∧ only [.pm] s t)) ∧
    ((s.pm.stowIdle = 0#16 ∨ s.pm.idle < 32 * s.pm.stowIdle.toNat ∨ (s.pm.st ≠ .run ∧ s.pm.st ≠ .feather)) →
      exec .stowIdleExpiry s = .next s) := by
  refine ⟨fun h hi hw hst hf => ?_, fun h hi hst => ⟨fun hf => ⟨idleFails s, ?_, rfl, pm_frame s _⟩,
    fun hf hw => ⟨denyReq s (whyStow s), ?_, rfl, pm_frame s _⟩⟩, fun h => exec_onPower hp (stowExpiry_idle ?_)⟩
  · refine exec_onPower hp ((stowExpiry_over (idleOver_of h hi) hst).trans ?_)
    rw [hf, hw]
    rfl
  · exact exec_onPower hp ((stowExpiry_over (idleOver_of h hi) hst).trans (if_pos (bne_iff_ne.mpr hf)))
  · refine exec_onPower hp ((stowExpiry_over (idleOver_of h hi) hst).trans ?_)
    rw [hf]
    exact if_pos (bne_iff_ne.mpr hw)
  · rcases h with h | h | h
    · exact .inl (not_idleOver (.inl h))
    · exact .inl (not_idleOver (.inr h))
    · exact .inr h

/-! ## Requests (R338) -/

/-- PM_CTRL written with its own bits and a request. -/
theorem reqWord {c : Word} (h : c &&& 0x0007#16 = c) : (c ||| 0x0010#16) &&& 0x0007#16 = c ∧ fld (c ||| 0x0010#16) 4 2 = 1 ∧
    (c ||| 0x0020#16) &&& 0x0007#16 = c ∧ fld (c ||| 0x0020#16) 4 2 = 2 := by
  have hall : ∀ n < 8, (BitVec.ofNat 16 n ||| 0x0010#16) &&& 0x0007#16 = BitVec.ofNat 16 n ∧
      fld (BitVec.ofNat 16 n ||| 0x0010#16) 4 2 = 1 ∧
      (BitVec.ofNat 16 n ||| 0x0020#16) &&& 0x0007#16 = BitVec.ofNat 16 n ∧
      fld (BitVec.ofNat 16 n ||| 0x0020#16) 4 2 = 2 := by decide
  have hlt : c.toNat < 8 := by
    rw [← h, BitVec.toNat_and]
    exact Nat.lt_succ_of_le Nat.and_le_right
  have hc := hall c.toNat hlt
  rwa [BitVec.ofNat_toNat, BitVec.setWidth_eq] at hc

theorem ctrlPut_same {s : State} {v : Word} (h : v &&& 0x0007#16 = s.pm.ctrl) :
    ({ s with pm := { s.pm with ctrl := v &&& 0x0007#16 } } : State) = s := by
  rw [h]

theorem pmReq_rule {p : Path} {s : State} (hr : reaches s p = true) (hc : s.pm.ctrl &&& 0x0007#16 = s.pm.ctrl) :
    exec (.pmReqFeather p) s = .next (if whyFeather s = 0 then enterFeather s else denyReq s (whyFeather s)) ∧
    exec (.pmReqStow p) s = .next (if whyStow s = 0 then enterStow s 2 else denyReq s (whyStow s)) := by
  obtain ⟨hf, hf1, hs, hs2⟩ := reqWord hc
  have hst : s.pm.st = .run := by
    have hl := linkOn_of_reaches s p hr
    simp only [linkOn, Bool.and_eq_true, decide_eq_true_eq] at hl
    exact hl.1.1
  have hrow : ∀ v, regRow p 0x400 v s = .next (pmCtrlWrite s v) := fun v =>
    regRow_reaches s p 0x400 v .pmCtrl hr rfl (by decide) (by decide)
  refine ⟨(hrow _).trans (congrArg Host.Outcome.next ?_), (hrow _).trans (congrArg Host.Outcome.next ?_)⟩
  · unfold pmCtrlWrite
    dsimp only
    rw [hf1, ctrlPut_same hf]
    show reqFeather s = _
    simp only [reqFeather, hst]
  · unfold pmCtrlWrite
    dsimp only
    rw [hs2, ctrlPut_same hs]
    show reqStow s = _
    simp only [reqStow, hst]

/-! ## VLINK is back (R318) -/

/-- One switch's turn as VLINK is back. -/
def waitTurn (a : State) (m : DnN) : State :=
  if a.pps[m].st = .wait && a.pps[m].due && isLead a.ppsg.gang m then enterRamp a m else a

theorem waitTurn_apart {m k : DnN} (a : State) (hm : leadOf a.ppsg.gang m = m) (h : m ≠ k) : Apart m a (waitTurn a k) := by
  unfold waitTurn
  split
  · rename_i hgo
    have hk : leadOf a.ppsg.gang k = k := by
      simp only [Bool.and_eq_true, isLead, decide_eq_true_eq] at hgo
      exact hgo.2
    exact modLegs_apart a (not_leg rfl hm hk h) _
  · exact Apart.refl m a

/-- A switch that waits with its budget starts at its turn, and the turns of the others leave it alone. -/
theorem startWaiting_ramps {s : State} {m : DnN} (hgo : canStart s = true) (hst : s.pps[m].st = .wait)
    (hd : s.pps[m].due = true) (hm : isLead s.ppsg.gang m = true) : (startWaiting s).pps[m].st = .ramp := by
  have hlead : leadOf s.ppsg.gang m = m := of_decide_eq_true hm
  have hlist : ∀ (l : List DnN) (a : State), leadOf a.ppsg.gang m = m → m ∉ l → Apart m a (forEach l waitTurn a) := fun l => by
    induction l with
    | nil => exact fun a _ _ => Apart.refl m a
    | cons k l ih =>
      intro a ha hl
      obtain ⟨hk, hrest⟩ := not_or.mp (mt List.mem_cons.mpr hl)
      have hturn := waitTurn_apart a ha hk
      exact hturn.seq (ih _ (by rw [hturn.gang]; exact ha) hrest)
  have hnd : (dnAll.take m.val ++ m :: dnAll.drop (m.val + 1)).Nodup := dnAll_split m ▸ List.nodup_finRange 16
  obtain ⟨hbelow, habove⟩ : m ∉ dnAll.take m.val ∧ m ∉ dnAll.drop (m.val + 1) := by
    obtain ⟨-, hcons, hdis⟩ := List.nodup_append.mp hnd
    exact ⟨fun hin => hdis m hin m List.mem_cons_self rfl, (List.nodup_cons.mp hcons).1⟩
  have hpre := hlist (dnAll.take m.val) s hlead hbelow
  obtain ⟨u, hu⟩ : ∃ u, u = forEach (dnAll.take m.val) waitTurn s := ⟨_, rfl⟩
  rw [← hu] at hpre
  have hulead : leadOf u.ppsg.gang m = m := by rw [hpre.gang]; exact hlead
  have hturn : waitTurn u m = enterRamp u m := by
    refine if_pos ?_
    rw [hpre.pps, hpre.gang, hst, hd, hm]
    rfl
  have hramp : (enterRamp u m).pps[m].st = .ramp := congrArg Pps.st (modLegs_lead hulead _)
  have hpost := hlist (dnAll.drop (m.val + 1)) (enterRamp u m) (by
    rw [show (enterRamp u m).ppsg = u.ppsg from enterRamp_frame u m .ppsg (by decide)]
    exact hulead) habove
  have hstart : startWaiting s = forEach (dnAll.drop (m.val + 1)) waitTurn (enterRamp u m) := by
    refine (if_pos hgo).trans ?_
    show forEach dnAll waitTurn s = _
    conv_lhs => rw [dnAll_split m]
    rw [← hturn, hu]
    exact List.foldl_append
  rw [hstart, hpost.pps]
  exact hramp

theorem vlink_rule {s : State} (hp : powerOn s = true) (hv : s.ppsg.vlow = true) (hst : s.pm.st = .run) :
    ∃ t, exec .vlinkRestored s = .next t ∧ t.ppsg = { s.ppsg with vlow := false } ∧
      (∀ m : DnN, s.pps[m].st = .wait → s.pps[m].due = true → isLead s.ppsg.gang m = true →
        t.pps[m].st = .ramp) ∧ only [.pps, .ppsg] s t := by
  obtain ⟨u, hu⟩ : ∃ u : State, u = { s with ppsg := { s.ppsg with vlow := false } } := ⟨_, rfl⟩
  have hput : only [.ppsg] s u := by
    rw [hu]
    exact ppsg_frame s _
  have hstart := startWaiting_frame u
  have hrun : exec .vlinkRestored s = .next (startWaiting u) := by
    refine exec_onPower hp ((whenDo_holds hv).trans ?_)
    rw [← hu]
    exact wakeHit_run (by rw [hstart .pm (by decide), hput .pm (by decide)]; exact hst) _ _
  have hcan : canStart u = true := by
    have hl : linkOn u = true := by
      obtain ⟨hpor, hpin⟩ : s.rst.por = false ∧ s.rst.pin = false := by simpa [powerOn] using hp
      rw [linkOn_of_frame hput, linkOn, hst, hpor, hpin]
      rfl
    rw [canStart, hl, hu]
    rfl
  have hppsg : u.ppsg = { s.ppsg with vlow := false } := by rw [hu]
  refine ⟨_, hrun, (hstart .ppsg (by decide)).trans hppsg, fun m hw hd hm => ?_, hput.seq hstart⟩
  have hsame : u.pps[m] = s.pps[m] := pps_of_frame hput m
  exact startWaiting_ramps hcan (by rw [hsame]; exact hw) (by rw [hsame]; exact hd) (by rw [hppsg]; exact hm)

/-! ## The keep-alive regulator (R343, R344) -/

theorem csFall_quiet {s : State} {srcs : Word} (h : s.pm.st = .run ∨ wakeHits s srcs = 0#16) (during : Bool) :
    wakeHit s srcs during = s := by
  rcases h with h | h
  · exact wakeHit_run h _ _
  · exact wakeHit_none h

theorem hits_disabled {s : State} {i : Nat} (h : bit s.pm.wakeEn i = false) :
    wakeHits s (BitVec.ofNat 16 (2 ^ i)) = 0#16 := by
  unfold wakeHits
  refine BitVec.eq_of_getLsbD_eq fun j hj => ?_
  have hone : (BitVec.ofNat 16 (2 ^ i)).getLsbD j = (decide (i = j) && decide (j < 16)) := bit_twoPow i j
  rw [BitVec.getLsbD_and, BitVec.getLsbD_and, hone]
  by_cases hij : i = j
  · subst hij
    rw [show s.pm.wakeEn.getLsbD i = false from h, Bool.and_false, Bool.false_and]
    exact (BitVec.getLsbD_zero).symm
  · rw [decide_eq_false hij]
    exact (BitVec.getLsbD_zero).symm

theorem kreg_rule {s : State} (hp : powerOn s = true) :
    (s.pm.st = .stow → bit s.pm.kregCtrl 0 = true → s.pm.boost = false → s.bb.flush = none →
      s.mg.cs = true → bit s.pm.kregCtrl 1 = true →
      ∃ t, exec .kregLowPower s = .next t ∧ t.pm = { s.pm with boost := true } ∧ only [.pm] s t) ∧
    (s.pm.st = .stow → bit s.pm.kregCtrl 0 = true → s.pm.boost = false → s.bb.flush = none →
      (s.mg.cs = false ∨ bit s.pm.kregCtrl 1 = false) →
      ∃ t, exec .kregLowPower s = .next t ∧ t.pm = { s.pm with kregLow := true } ∧ only [.pm] s t) ∧
    (s.pm.st ≠ .stow → exec .kregLowPower s = .next s ∧ exec .kregBoostEnd s = .next s) ∧
    (s.pm.st = .stow → s.pm.boost = true → (s.mg.cs = false ∨ bit s.pm.kregCtrl 1 = false) → s.bb.flush = none →
      ∃ t, exec .kregBoostEnd s = .next t ∧
        t.pm = { s.pm with boost := false, kregLow := bit s.pm.kregCtrl 0 } ∧ only [.pm] s t) := by
  have hlow : s.pm.st = .stow → bit s.pm.kregCtrl 0 = true → s.pm.boost = false → s.bb.flush = none →
      exec .kregLowPower s = .next { s with pm := if s.mg.cs && bit s.pm.kregCtrl 1 then { s.pm with boost := true }
        else { s.pm with kregLow := true } } := fun hst hk hb hf => by
    refine exec_onPower hp (whenDo_holds ?_)
    rw [hst, hk, hb, hf]
    rfl
  have hoff : (s.mg.cs = false ∨ bit s.pm.kregCtrl 1 = false) → (s.mg.cs && bit s.pm.kregCtrl 1) = false := fun h => by
    rcases h with h | h <;> rw [h] <;> simp
  refine ⟨fun hst hk hb hf hcs h1 => ⟨_, hlow hst hk hb hf, ?_, pm_frame s _⟩,
    fun hst hk hb hf hno => ⟨_, hlow hst hk hb hf, ?_, pm_frame s _⟩,
    fun hst => ⟨exec_onPower hp (whenDo_fails ?_), exec_onPower hp (whenDo_fails ?_)⟩, fun hst hb hno hf => ?_⟩
  · rw [hcs, h1]
    rfl
  · rw [hoff hno]
    rfl
  · rw [decide_eq_false hst]
    rfl
  · rw [decide_eq_false hst]
    rfl
  · refine ⟨_, exec_onPower hp (whenDo_holds ?_), rfl, pm_frame s _⟩
    rw [hst, hb, hoff hno, hf]
    rfl

theorem csFall_rule {s : State} (hp : powerOn s = true) :
    (s.pm.st = .run →
      ∃ t, exec .mgCsNFalling s = .next t ∧ t.mg = { s.mg with cs := true } ∧ only [.mg] s t) ∧
    (s.pm.st = .stow → bit s.pm.kregCtrl 1 = true → s.pm.kregLow = true → bit s.pm.wakeEn 12 = false →
      ∃ t, exec .mgCsNFalling s = .next t ∧ t.mg = { s.mg with cs := true } ∧
        t.pm = { s.pm with kregLow := false, boost := true } ∧ only [.pm, .mg] s t) := by
  have hput : ∀ p : Pm, only [.pm, .mg] s { s with mg := { s.mg with cs := true }, pm := p } := fun p => by
    intro q hq; cases q <;> first | rfl | exact absurd (by decide) hq
  refine ⟨fun hst => ?_, fun hst h1 hk hw => ?_⟩
  · have hfall : csFall s = { s with mg := { s.mg with cs := true } } := by
      unfold csFall
      dsimp only
      rw [hst]
      exact csFall_quiet (s := { s with mg := { s.mg with cs := true } }) (.inl hst) false
    refine ⟨_, exec_onPower hp hfall, rfl, ?_⟩
    intro q hq; cases q <;> first | rfl | exact absurd (by decide) hq
  · have hfall : csFall s = { s with mg := { s.mg with cs := true }, pm := { s.pm with kregLow := false, boost := true } } := by
      have hb : (s.pm.st = .stow && bit s.pm.kregCtrl 1 && s.pm.kregLow) = true := by
        rw [hst, h1, hk]
        rfl
      unfold csFall
      dsimp only
      rw [if_pos hb]
      exact csFall_quiet (s := { s with
        mg := { s.mg with cs := true }, pm := { s.pm with kregLow := false, boost := true } }) (.inr (hits_disabled
          (s := { s with mg := { s.mg with cs := true }, pm := { s.pm with kregLow := false, boost := true } })
          (i := 12) hw)) false
    exact ⟨_, exec_onPower hp hfall, rfl, rfl, hput _⟩

/-- Settles O50: it holds.  A timer or a request enters its state where the conditions' code is 0 and shows the code
otherwise; the regulator and VLINK's return act on their own fields. -/
theorem lowPowerEntry : Obligations.LowPowerEntry := by
  unfold Obligations.LowPowerEntry
  refine ⟨fun s hl => ?_, fun s hp => ?_, fun p s hr hc => ?_, fun s hp => ?_⟩
  · obtain ⟨henter, hfails, hnone⟩ := featherIdle_rule hl
    exact ⟨fun h hi hw => ⟨_, henter h hi hw, enterFeather_rule s⟩, hfails, hnone⟩
  · obtain ⟨henter, hfails, hnone⟩ := stowIdle_rule hp
    exact ⟨fun h hi hw hst hf => ⟨_, henter h hi hw hst hf, enterStow_rule s 1⟩, hfails, hnone⟩
  · obtain ⟨hfeather, hstow⟩ := pmReq_rule hr hc
    refine ⟨fun hw => ?_, fun hw => ?_, fun hw => ?_, fun hw => ?_⟩
    · rw [if_neg hw] at hfeather
      exact ⟨_, hfeather, rfl, pm_frame s _⟩
    · rw [if_pos hw] at hfeather
      obtain ⟨hst, -, -, -, -, -, -, -, hparts⟩ := enterFeather_rule s
      exact ⟨_, hfeather, hst, hparts⟩
    · rw [if_neg hw] at hstow
      exact ⟨_, hstow, rfl, pm_frame s _⟩
    · rw [if_pos hw] at hstow
      obtain ⟨hst, -, -, -, -, -, hparts⟩ := enterStow_rule s 2
      exact ⟨_, hstow, hst, hparts⟩
  · obtain ⟨hboost, hlow, hnone, hend⟩ := kreg_rule hp
    obtain ⟨hrun, hstow⟩ := csFall_rule hp
    refine ⟨hboost, hlow, hnone, hend, fun hk => ⟨_, exec_onPower hp (whenDo_holds hk), rfl, ?_⟩,
      fun hk => exec_onPower hp (whenDo_fails hk), hrun, hstow, vlink_rule hp, fun hv => exec_onPower hp (whenDo_fails hv)⟩
    intro q hq; cases q <;> first | rfl | exact absurd (by decide) hq

end Sys2Proof.Machine
end

section
/-! PROOF. The watchdog and its registers (O51). -/

namespace Sys2Proof.Machine

open Sys2Proof Sys2Proof.Safety

-- One proof after the other: side by side, the proofs of one text wait for each other in too many threads.
set_option Elab.async false


/-! ## Service (R360, R361) -/

theorem exec_serviceWrite {p : Path} {v : Word} {s : State} (hr : reaches s p = true) (hp : p = .pf ∨ p = .mg ∨ p = .hub) :
    exec (.wdtServiceWrite p v) s = .next (serviceReg s p v) := by
  rcases hp with rfl | rfl | rfl
  · exact regRow_reaches s .pf 0x610 v .wdtService hr rfl (by decide) (by decide)
  · exact regRow_reaches s .mg 0x610 v .wdtService hr rfl (by decide) (by decide)
  · exact regRow_reaches s .hub 0x610 v .wdtService hr rfl (by decide) (by decide)

/-- The holder's own window acts. -/
theorem exec_servicePf {v : Word} {s : State} (hr : reaches s .pf = true) (hh : holdsWdt s 0 = true) :
    exec (.wdtServiceWrite .pf v) s = .next (serviceJudge s .pf v) := by
  refine (exec_serviceWrite hr (.inl rfl)).trans (congrArg Host.Outcome.next ?_)
  refine (if_pos hh).trans (whenDo_holds ?_)
  rw [servicePath, hh]
  rfl

theorem wdtExpire_frame (s : State) (cause : Nat) : only [.wdt, .bb] s (wdtExpire s cause) := by
  intro p hp; cases p <;> first | rfl | exact absurd (by decide) hp

section Judge
variable {s : State} {p : Path} {v : Word}

theorem serviceJudge_idle (h : s.wdt.en = false ∨ s.wdt.grace = true) : serviceJudge s p v = s := by
  refine if_pos ?_
  rcases h with h | h <;> simp [h]

theorem serviceJudge_running (he : s.wdt.en = true) (hg : s.wdt.grace = false) : serviceJudge s p v =
    if v = 0x5A3C#16 then { s with wdt := armPath s.wdt p }
    else if v != 0xA5C3#16 || !armedBy s.wdt p then wdtExpire s 3
    else if wdtOpen s.wdt then { s with wdt := serviced s.wdt }
    else wdtExpire s 2 := if_neg (by simp [he, hg])

end Judge

theorem servicePf_rule {v : Word} {s : State} (hr : reaches s .pf = true) (hh : holdsWdt s 0 = true) :
    ((s.wdt.en = false ∨ s.wdt.grace = true) → exec (.wdtServiceWrite .pf v) s = .next s) ∧
    (s.wdt.en = true → s.wdt.grace = false →
      (v = 0x5A3C#16 →
        ∃ t, exec (.wdtServiceWrite .pf v) s = .next t ∧ t.wdt = { s.wdt with armHost := true } ∧ only [.wdt] s t) ∧
      (v = 0xA5C3#16 → s.wdt.armHost = true → wdtOpen s.wdt = true →
        ∃ t, exec (.wdtServiceWrite .pf v) s = .next t ∧ t.wdt = serviced s.wdt ∧ only [.wdt] s t) ∧
      (v = 0xA5C3#16 → s.wdt.armHost = true → wdtOpen s.wdt = false →
        ∃ t, exec (.wdtServiceWrite .pf v) s = .next t ∧ t.wdt.grace = true ∧ t.wdt.cause = 2 ∧ t.wdt.count = 0 ∧
          only [.wdt, .bb] s t) ∧
      (v ≠ 0x5A3C#16 → (v ≠ 0xA5C3#16 ∨ s.wdt.armHost = false) →
        ∃ t, exec (.wdtServiceWrite .pf v) s = .next t ∧ t.wdt.grace = true ∧ t.wdt.cause = 3 ∧ t.wdt.count = 0 ∧
          only [.wdt, .bb] s t)) := by
  have hrow := exec_servicePf (v := v) hr hh
  refine ⟨fun h => ?_, fun he hg => ?_⟩
  · rw [hrow, serviceJudge_idle h]
  · rw [serviceJudge_running he hg] at hrow
    have hsecond : v = 0xA5C3#16 → s.wdt.armHost = true → (v = 0x5A3C#16) = False ∧
        (v != 0xA5C3#16 || !armedBy s.wdt .pf) = false := fun hv ha => by
      subst hv
      rw [show armedBy s.wdt .pf = true from ha]
      decide
    refine ⟨fun hv => ?_, fun hv ha ho => ?_, fun hv ha ho => ?_, fun hv hno => ?_⟩
    · rw [if_pos hv] at hrow
      exact ⟨_, hrow, rfl, wdt_frame s _⟩
    · obtain ⟨h1, h2⟩ := hsecond hv ha
      rw [if_neg (by rw [h1]; exact id), h2, if_neg Bool.false_ne_true, if_pos ho] at hrow
      exact ⟨_, hrow, rfl, wdt_frame s _⟩
    · obtain ⟨h1, h2⟩ := hsecond hv ha
      rw [if_neg (by rw [h1]; exact id), h2, if_neg Bool.false_ne_true, if_neg (Bool.eq_false_iff.mp ho)] at hrow
      exact ⟨_, hrow, rfl, rfl, rfl, wdtExpire_frame s 2⟩
    · have hbad : (v != 0xA5C3#16 || !armedBy s.wdt .pf) = true := by
        rcases hno with hno | hno
        · rw [bne_iff_ne.mpr hno]
          rfl
        · rw [show armedBy s.wdt .pf = false from hno]
          exact Bool.or_true _
      rw [if_neg hv, if_pos hbad] at hrow
      exact ⟨_, hrow, rfl, rfl, rfl, wdtExpire_frame s 3⟩

theorem serviceHub_rule {v : Word} {s : State} (hr : reaches s .hub = true) :
    (headless s = false → exec (.wdtServiceWrite .hub v) s = .next s) ∧
    (v ≠ 0x5A3C#16 → v ≠ 0xA5C3#16 → exec (.wdtServiceWrite .hub v) s = .next s) ∧
    (v = 0x5A3C#16 → headless s = true → s.wdt.en = true → s.wdt.grace = false →
      ∃ t, exec (.wdtServiceWrite .hub v) s = .next t ∧ t.wdt = { s.wdt with armBus := true } ∧ only [.wdt] s t) := by
  have hrow := exec_serviceWrite (v := v) hr (.inr (.inr rfl))
  have hidle : (headless s && (decide (v = 0x5A3C#16) || decide (v = 0xA5C3#16))) = false → serviceReg s .hub v = s :=
    fun h => whenDo_fails (f := (serviceJudge · .hub v)) h
  refine ⟨fun hh => hrow.trans (congrArg Host.Outcome.next (hidle ?_)),
    fun h1 h2 => hrow.trans (congrArg Host.Outcome.next (hidle ?_)), fun hv hh he hg => ?_⟩
  · rw [hh, Bool.false_and]
  · rw [decide_eq_false h1, decide_eq_false h2]
    exact Bool.and_false _
  · have hjudge : serviceReg s .hub v = { s with wdt := armPath s.wdt .hub } := by
      refine (serviceWrite_hub hh (by rw [hv]; decide)).trans ?_
      rw [serviceJudge_running he hg, if_pos hv]
    rw [hjudge] at hrow
    exact ⟨_, hrow, rfl, wdt_frame s _⟩

/-! ## The key (R365) -/

theorem key_rule {p : Path} {s : State} (hr : reaches s p = true) (hp : p = .pf ∨ p = .mg) :
    (∀ v, v = 0x6B1D#16 →
      ∃ t, exec (.wdtKeyWrite p v) s = .next t ∧ t.wdt = { s.wdt with key := true } ∧ only [.wdt] s t) ∧
    (∀ v, v = 0xD1B6#16 → s.wdt.key = true → s.wdt.lock = false → s.wdt.grace = false →
      ∃ t, exec (.wdtKeyWrite p v) s = .next t ∧ t.wdt = { s.wdt with en := false, count := 0, key := false } ∧
        only [.wdt] s t) ∧
    (∀ v, v = 0xD1B6#16 → s.wdt.key = true → (s.wdt.lock = true ∨ s.wdt.grace = true) →
      ∃ t, exec (.wdtKeyWrite p v) s = .next t ∧ t.wdt = { s.wdt with wref := true, key := false } ∧
        only [.wdt] s t) ∧
    (∀ v, v ≠ 0x6B1D#16 → (v ≠ 0xD1B6#16 ∨ s.wdt.key = false) →
      ∃ t, exec (.wdtKeyWrite p v) s = .next t ∧ t.wdt = { s.wdt with key := false } ∧ only [.wdt] s t) := by
  have hrow : ∀ v w, wdtKeyWrite v s.wdt = w →
      ∃ t, exec (.wdtKeyWrite p v) s = .next t ∧ t.wdt = w ∧ only [.wdt] s t := fun v w hw =>
    ⟨_, exec_wdtKey s p v (by rcases hp with rfl | rfl <;> decide) hr, hw, wdt_frame s _⟩
  refine ⟨fun v hv => hrow v _ (if_pos hv), fun v hv hk hl hg => hrow v _ ?_, fun v hv hk hno => hrow v _ ?_,
    fun v hv hno => hrow v _ ((if_neg hv).trans (if_neg ?_))⟩
  · subst hv
    simp [wdtKeyWrite, wdtOff, hk, hl, hg]
  · subst hv
    have hbar : (s.wdt.lock || s.wdt.grace) = true := by
      rcases hno with h | h <;> rw [h]
      · rfl
      · exact Bool.or_true _
    unfold wdtKeyWrite
    rw [hk, hbar]
    rfl
  · rcases hno with h | h
    · simp [h]
    · simp [h]

/-! ## WDT_CTRL, WDT_PERIOD and WDT_WINDOW (R356, R359, R366) -/

theorem wdtCtrl_word (en lock hrst svc : Bool) :
    bit (orAll [atBit en 0, atBit lock 1, atBit hrst 2, atBit svc 3] ||| 0x0001#16) 0 = true ∧
    bit (orAll [atBit en 0, atBit lock 1, atBit hrst 2, atBit svc 3] ||| 0x0001#16) 1 = lock ∧
    bit (orAll [atBit en 0, atBit lock 1, atBit hrst 2, atBit svc 3] &&& 0x000C#16 ||| 0x0002#16) 0 = false ∧
    bit (orAll [atBit en 0, atBit lock 1, atBit hrst 2, atBit svc 3] &&& 0x000C#16 ||| 0x0002#16) 1 = true := by
  revert en lock hrst svc
  decide

/-- The gate of a locked field leaves EN, the lock and the count. -/
theorem ctrlGate_kept (free : Bool) (old new : Word) (v : Word) (w : Wdt) :
    (rwGate free old new (fun x => { x with hrstEn := bit v 2, mgSvc := bit v 3 }) w).en = w.en ∧
    (rwGate free old new (fun x => { x with hrstEn := bit v 2, mgSvc := bit v 3 }) w).lock = w.lock ∧
    (rwGate free old new (fun x => { x with hrstEn := bit v 2, mgSvc := bit v 3 }) w).count = w.count := by
  unfold rwGate wref
  split
  · exact ⟨rfl, rfl, rfl⟩
  · split <;> exact ⟨rfl, rfl, rfl⟩

theorem wdtSetEn_rule (w : Wdt) : (wdtSetEn w).en = true ∧ (wdtSetEn w).count = (if w.en then w.count else 0) ∧
    (wdtSetEn w).lock = w.lock := by
  unfold wdtSetEn
  cases h : w.en <;> simp [h]

theorem wdtCtrlWrite_rule (v : Word) (w : Wdt) : (wdtCtrlWrite v w).lock = (w.lock || bit v 1) ∧
    (bit v 0 = true → (wdtCtrlWrite v w).en = true ∧ (wdtCtrlWrite v w).count = (if w.en then w.count else 0)) ∧
    (bit v 0 = false → (wdtCtrlWrite v w).en = w.en) := by
  obtain ⟨hen, hlock, hcount⟩ := ctrlGate_kept (!w.lock) (atBit w.hrstEn 2 ||| atBit w.mgSvc 3) (v &&& 0x000C#16) v w
  unfold wdtCtrlWrite
  dsimp only
  obtain ⟨hset, hrestart, hkeep⟩ := wdtSetEn_rule (rwGate (!w.lock) (atBit w.hrstEn 2 ||| atBit w.mgSvc 3) (v &&& 0x000C#16)
    (fun x => { x with hrstEn := bit v 2, mgSvc := bit v 3 }) w)
  rw [hen, hcount] at hrestart
  cases h0 : bit v 0
  · exact ⟨congrArg (· || bit v 1) hlock, fun h => absurd h Bool.false_ne_true, fun _ => hen⟩
  · exact ⟨congrArg (· || bit v 1) (hkeep.trans hlock), fun _ => ⟨hset, hrestart⟩, fun h => absurd h (by decide)⟩

theorem ctrl_row {p : Path} {s : State} (hr : reaches s p = true) (v : Word) :
    regRow p 0x600 v s = .next { s with wdt := wdtCtrlWrite v s.wdt } :=
  (regRow_reaches s p 0x600 v .wdtCtrl hr rfl (by decide) (by decide)).trans
    (congrArg Host.Outcome.next (writeReg_wdt s p v _ (.inl rfl)))

theorem period_row {p : Path} {s : State} (hr : reaches s p = true) (v : Word) :
    exec (.wdtPeriodWrite p false v) s = .next { s with wdt := wdtPeriodWrite v s.wdt } := by
  refine (regRow_reaches s p 0x604 v .wdtPeriod hr rfl (by decide) (by decide)).trans (congrArg Host.Outcome.next ?_)
  simp [writeReg, wdtWrite, wdtPut]

theorem window_row {p : Path} {s : State} (hr : reaches s p = true) (v : Word) :
    exec (.wdtPeriodWrite p true v) s = .next { s with wdt := wdtWindowWrite v s.wdt } := by
  refine (regRow_reaches s p 0x608 v .wdtWindow hr rfl (by decide) (by decide)).trans (congrArg Host.Outcome.next ?_)
  simp [writeReg, wdtWrite, wdtPut]

theorem wdtRegs_rule {p : Path} {s : State} (hr : reaches s p = true) :
    (∃ t, exec (.wdtEnable p) s = .next t ∧ t.wdt.en = true ∧
      t.wdt.count = (if s.wdt.en then s.wdt.count else 0) ∧ t.wdt.lock = s.wdt.lock ∧ only [.wdt] s t) ∧
    (∃ t, exec (.wdtLockSet p) s = .next t ∧ t.wdt.lock = true ∧ t.wdt.en = s.wdt.en ∧ only [.wdt] s t) ∧
    (∀ v, wdtOpen s.wdt = true →
      (∃ t, exec (.wdtPeriodWrite p false v) s = .next t ∧
        t.wdt = { s.wdt with period := (if v = 0#16 then 1#16 else v), pend := true } ∧ only [.wdt] s t) ∧
      (∃ t, exec (.wdtPeriodWrite p true v) s = .next t ∧
        t.wdt = { s.wdt with window := v &&& 0x000F#16, pend := true } ∧ only [.wdt] s t)) ∧
    (∀ v, wdtOpen s.wdt = false → v ≠ 0#16 → v ≠ s.wdt.period →
      ∃ t, exec (.wdtPeriodWrite p false v) s = .next t ∧ t.wdt = { s.wdt with wref := true } ∧ only [.wdt] s t) := by
  obtain ⟨hon0, hon1, hlk0, hlk1⟩ := wdtCtrl_word s.wdt.en s.wdt.lock s.wdt.hrstEn s.wdt.mgSvc
  refine ⟨⟨_, ctrl_row hr _, ?_, ?_, ?_, wdt_frame s _⟩, ⟨_, ctrl_row hr _, ?_, ?_, wdt_frame s _⟩,
    fun v ho => ⟨⟨_, period_row hr v, if_pos ho, wdt_frame s _⟩, ⟨_, window_row hr v, if_pos ho, wdt_frame s _⟩⟩,
    fun v ho h0 hv => ⟨_, period_row hr v, ?_, wdt_frame s _⟩⟩
  · exact ((wdtCtrlWrite_rule _ s.wdt).2.1 hon0).1
  · exact ((wdtCtrlWrite_rule _ s.wdt).2.1 hon0).2
  · refine (wdtCtrlWrite_rule _ s.wdt).1.trans ?_
    rw [show bit (wdtCtrl s.wdt ||| 0x0001#16) 1 = s.wdt.lock from hon1, Bool.or_self]
  · refine (wdtCtrlWrite_rule _ s.wdt).1.trans ?_
    rw [show bit (wdtCtrl s.wdt &&& 0x000C#16 ||| 0x0002#16) 1 = true from hlk1, Bool.or_true]
  · exact (wdtCtrlWrite_rule _ s.wdt).2.2 hlk0
  · refine (if_neg (Bool.eq_false_iff.mp ho)).trans ?_
    rw [if_neg h0]
    exact if_neg hv

/-! ## Expiry and the end of grace (R362, R364) -/

/-- Grace over, before PWR_EN is seen to. -/
def graceOver (s : State) : State :=
  let s2 := restartLink (linkReset (bbPow s 0x71 0 (w16 s.wdt.save) (atBit s.wdt.hrstEn 0)) false) 2
  { s2 with wdt := graceEnd s2.wdt, rst := { s2.rst with cause := 0#16 } }

theorem watchdogReset_eq (s : State) : watchdogReset s = if pwrStuck (graceOver s) then raisePwr (graceOver s) else graceOver s :=
  rfl

/-- The parts that the end of grace changes. -/
def graceParts : List Part := .rst :: cutParts

theorem graceOver_frame (s : State) : only graceParts s (graceOver s) := by
  have hend : ∀ u : State, only [.wdt, .rst] u { u with wdt := graceEnd u.wdt, rst := { u.rst with cause := 0#16 } } :=
    fun u p hp => by cases p <;> first | rfl | exact absurd (by decide) hp
  have hlog := bbPow_only s 0x71 0 (w16 s.wdt.save) (atBit s.wdt.hrstEn 0)
  exact (hlog.seq (linkReset_frame _ false) (rs := graceParts)).seq ((restartLink_frame _ 2).seq (hend _) (rs := graceParts))

theorem bbStore_flushed (b : Bb) (e : Entry) : (bbStore b e).flushed = b.flushed := by
  unfold bbStore bbFreeze
  dsimp only
  (repeat' split) <;> rfl

theorem graceOver_pwr {s : State} (h : pwrStuck s = true) : pwrStuck (graceOver s) = true := by
  obtain ⟨⟨⟨⟨he, hp⟩, hl⟩, hf⟩, hd⟩ : (((s.pm.pwrEn = false ∧ s.pm.puWait = false) ∧ s.pm.lossWait = false) ∧
      s.bb.flush.isNone = true) ∧ s.bb.flushed = false := by
    simpa only [pwrStuck, Bool.and_eq_true, Bool.not_eq_true'] using h
  have hpw : (graceOver s).pm.puWait = (s.pm.puWait && !s.pm.pwrEn) := rfl
  have hlw : (graceOver s).pm.lossWait = (s.pm.lossWait && !s.pm.pwrEn) := rfl
  have hen : (graceOver s).pm.pwrEn = s.pm.pwrEn := rfl
  have hfl : (graceOver s).bb.flush = s.bb.flush := bbStore_flush s.bb _
  have hfd : (graceOver s).bb.flushed = s.bb.flushed := bbStore_flushed s.bb _
  rw [pwrStuck, hpw, hlw, hen, hfl, hfd, he, hp, hl, hf, hd]
  rfl

theorem graceOver_rule (s : State) : (graceOver s).wdt.grace = false ∧ (graceOver s).wdt.cause = 0 ∧
    (graceOver s).wdt.save = 0 ∧ (graceOver s).wdt.count = 0 ∧ (graceOver s).wdt.wref = false ∧
    (graceOver s).wdt.hostRst = s.wdt.hrstEn ∧ (graceOver s).wdt.expiries = (s.wdt.expiries + 1) % 65536 ∧
    (graceOver s).wdt.paused = true ∧ (graceOver s).wdt.lock = s.wdt.lock ∧ (graceOver s).wdt.en = s.wdt.en ∧
    (graceOver s).wdt.key = s.wdt.key := ⟨rfl, rfl, rfl, rfl, rfl, rfl, rfl, rfl, rfl, rfl, rfl⟩

theorem graceOver_dies (s : State) : (graceOver s).pm.st = .waking ∧ (graceOver s).pm.restart = 2 ∧
    (graceOver s).rst.cause = 0#16 ∧ (graceOver s).ports = Vector.replicate 17 Port.reset ∧
    (graceOver s).glob = Glob.reset ∧ (graceOver s).pcie = Pcie.reset ∧
    (graceOver s).bb = bbLinkReset (bbStore s.bb (mkEntry 0x71 0 (w16 s.wdt.save) (atBit s.wdt.hrstEn 0) true s.aon.time)) :=
  ⟨rfl, rfl, rfl, rfl, rfl, rfl, rfl⟩

/-- The end of grace, but for PWR_EN. -/
theorem watchdogReset_rule (s : State) : ∃ u, u = graceOver s ∧ only [.pm] u (watchdogReset s) ∧
    (watchdogReset s).pm.st = u.pm.st ∧ (watchdogReset s).pm.restart = u.pm.restart ∧
    (pwrStuck s = true → (watchdogReset s).pm.pwrEn = true) := by
  refine ⟨_, rfl, ?_⟩
  rw [watchdogReset_eq]
  split
  · exact ⟨pm_frame _ _, rfl, rfl, fun _ => rfl⟩
  · rename_i hno
    exact ⟨only_refl _ _, rfl, rfl, fun h => absurd (graceOver_pwr h) hno⟩

theorem graceEnd_rule {s : State} (hp : powerOn s = true) (hg : s.wdt.grace = true) (hw : s.wdt.paused = false) :
    ∃ t, exec .wdtGraceEnd s = .next t ∧ t.wdt.grace = false ∧ t.wdt.cause = 0 ∧ t.wdt.save = 0 ∧ t.wdt.count = 0 ∧
      t.wdt.wref = false ∧ t.wdt.hostRst = s.wdt.hrstEn ∧ t.wdt.expiries = (s.wdt.expiries + 1) % 65536 ∧
      t.wdt.paused = true ∧ t.wdt.lock = s.wdt.lock ∧ t.wdt.en = s.wdt.en ∧ t.wdt.key = s.wdt.key ∧
      t.pm.st = .waking ∧ t.pm.restart = 2 ∧ (pwrStuck s = true → t.pm.pwrEn = true) ∧ t.rst.cause = 0#16 ∧
      t.ports = Vector.replicate 17 Port.reset ∧ t.glob = Glob.reset ∧ t.pcie = Pcie.reset ∧
      t.bb = bbLinkReset (bbStore s.bb (mkEntry 0x71 0 (w16 s.wdt.save) (atBit s.wdt.hrstEn 0) true s.aon.time)) ∧
      only graceParts s t := by
  have hgo : graceCounts s.wdt = true := by
    rw [graceCounts, hg, hw]
    rfl
  obtain ⟨u, hu, hparts, hst, hrestart, hpwr⟩ := watchdogReset_rule s
  have hover := graceOver_rule s
  obtain ⟨hust, hurestart, hcause, hports, hglob, hpcie, hbb⟩ := graceOver_dies s
  have hframe := graceOver_frame s
  rw [← hu] at hover hust hurestart hcause hports hglob hpcie hbb hframe
  have hwdt : (watchdogReset s).wdt = u.wdt := hparts .wdt (by decide)
  rw [← hwdt] at hover
  obtain ⟨h1, h2, h3, h4, h5, h6, h7, h8, h9, h10, h11⟩ := hover
  exact ⟨_, exec_onPower hp (whenDo_holds hgo), h1, h2, h3, h4, h5, h6, h7, h8, h9, h10, h11, hst.trans hust,
    hrestart.trans hurestart, hpwr, (congrArg Rst.cause (hparts .rst (by decide))).trans hcause,
    (hparts .ports (by decide)).trans hports, (hparts .glob (by decide)).trans hglob,
    (hparts .pcie (by decide)).trans hpcie, (hparts .bb (by decide)).trans hbb, hframe.seq hparts⟩

/-- Settles O51: it holds.  A service write on an acting path is judged, the registers are gates on their own fields, and
an expiry and the end of grace set the watchdog's fields and restart the Link die. -/
theorem watchdogWrites : Obligations.WatchdogWrites := by
  unfold Obligations.WatchdogWrites
  refine ⟨fun v s hr hh => servicePf_rule hr hh, fun v s hr hm => ?_, fun v s hr => serviceHub_rule hr,
    fun p s hr hp => key_rule hr hp, fun p s hr _ => wdtRegs_rule hr,
    fun s hp => ⟨_, exec_onPower hp rfl, rfl, wdt_frame s _⟩, fun s hp => ⟨fun hc => ?_,
      fun hc => exec_onPower hp (whenDo_fails hc), fun hg hw => graceEnd_rule hp hg hw, fun hno => ?_⟩⟩
  · have hbar : (s.wdt.mgSvc && true) = false := by rw [hm, Bool.false_and]
    have hnone : serviceReg s .mg v = s := whenDo_fails (f := (serviceJudge · .mg v)) hbar
    exact (exec_serviceWrite hr (.inr (.inl rfl))).trans (congrArg Host.Outcome.next hnone)
  · exact ⟨_, exec_onPower hp (whenDo_holds hc), rfl, rfl, rfl, rfl, rfl, rfl, rfl, rfl, rfl, wdtExpire_frame s 1⟩
  · refine exec_onPower hp (whenDo_fails ?_)
    unfold graceCounts
    rcases hno with h | h <;> simp [h]

end Sys2Proof.Machine
end

section
/-! PROOF. The black box and the last gasp (O52). -/

namespace Sys2Proof.Machine

open Sys2Proof Sys2Proof.Safety

-- One proof after the other: side by side, the proofs of one text wait for each other in too many threads.
set_option Elab.async false


/-- LG_EN is set, and a scan is noted as waiting although no image load runs. -/
def scanOwed : State := { State.reset with bb := { State.reset.bb with ctrl := 0x0008#16, scanDue := true } }

/-- Refutes O52: a scan that LG_SCAN makes is no longer due, whether it reads the region or sets FULL.  The statement has
it change SCAN or FULL alone, so in a state where a scan is due while no image loads, which it does not rule out, it would
leave the scan due. -/
theorem not_blackBoxAndFlash : ¬ Obligations.BlackBoxAndFlash := by
  intro h
  obtain ⟨-, -, -, -, -, hscan, -⟩ := h
  have hl : linkOn scanOwed = true := by decide
  obtain ⟨-, -, hfull, -⟩ := hscan scanOwed hl
  obtain ⟨t, hrun, hbb, -⟩ := hfull (by decide) (by decide) (by decide) (by decide) (by decide)
  have ht : scanStart scanOwed = t := Host.Outcome.next.inj ((onLink_eq hl rfl).symm.trans hrun)
  have hdue : t.bb.scanDue = false := by
    rw [← ht, scanStart_go scanOwed hl (by decide) (by decide) (by decide) (by decide)]
    exact (scanGo_outcome scanOwed).1
  rw [hbb] at hdue
  exact absurd hdue (by decide)

end Sys2Proof.Machine
end

section
/-! SUPPORT. Taking a domain apart: what a teardown reaches and what it leaves alone. -/

namespace Sys2Proof.Machine

open Sys2Proof Sys2Proof.Safety

-- One proof after the other: side by side, the proofs of one text wait for each other in too many threads.
set_option Elab.async false


/-- What taking domains apart leaves alone, beside the parts not listed: a domain that is not OFF stays as it is or is in
TEARDOWN, a function keeps all but its FLR in progress, and neither the black-box FIFO nor the hub's own registers move. -/
structure Yields (ps : List Part) (s t : State) : Prop where
  parts : only ps s t
  states : ∀ x : DomN, s.doms[x].st ≠ .off → t.doms[x].st = s.doms[x].st ∨ t.doms[x].st = .teardown
  fns : ∀ x : DomN, t.pcie.fns[x] = { s.pcie.fns[x] with flr := t.pcie.fns[x].flr }
  nums : t.pcie.numVfs = s.pcie.numVfs
  bbf : t.que.bbf = s.que.bbf
  bus : t.bus = { s.bus with inbox := t.bus.inbox }

theorem Yields.refl (ps : List Part) (s : State) : Yields ps s s :=
  ⟨only_refl _ s, fun _ _ => .inl rfl, fun _ => rfl, rfl, rfl, rfl⟩

/-- A domain that is in TEARDOWN stays there. -/
theorem Yields.torn {ps : List Part} {s t : State} (h : Yields ps s t) {d : DomN} (hd : s.doms[d].st = .teardown) :
    t.doms[d].st = .teardown :=
  (h.states d (fun ho => by rw [hd] at ho; cases ho)).elim (fun e => e.trans hd) id

theorem Yields.seq {ps qs rs : List Part} {s t u : State} (h : Yields ps s t) (k : Yields qs t u)
    (hp : ∀ p ∈ ps, p ∈ rs := by decide) (hq : ∀ q ∈ qs, q ∈ rs := by decide) : Yields rs s u where
  parts := h.parts.seq k.parts hp hq
  states x hx := by
    rcases h.states x hx with he | ht
    · exact he ▸ k.states x (he ▸ hx)
    · exact .inr (k.torn ht)
  fns x := by rw [k.fns x, h.fns x]
  nums := k.nums.trans h.nums
  bbf := k.bbf.trans h.bbf
  bus := by rw [k.bus, h.bus]

theorem Yields.widen {ps qs : List Part} {s t : State} (h : Yields ps s t) (hp : ∀ p ∈ ps, p ∈ qs := by decide) :
    Yields qs s t := { h with parts := h.parts.widen hp }

theorem yields_ite {ps : List Part} (c : Prop) [Decidable c] {s t u : State} (ht : Yields ps s t) (hu : Yields ps s u) :
    Yields ps s (if c then t else u) := by
  split <;> assumption

theorem forEach_yields {α : Type} {ps : List Part} (l : List α) (f : State → α → State) (s : State)
    (h : ∀ a x, Yields ps a (f a x)) : Yields ps s (forEach l f s) := by
  induction l generalizing s with
  | nil => exact .refl ps s
  | cons x l ih => exact (h s x).seq (ih (f s x)) (fun _ => id) (fun _ => id)

/-- An operation that changes neither the domains, the endpoint, the queues nor the bus. -/
theorem yields_of_only {ps : List Part} {s t : State} (h : only ps s t)
    (hp : ∀ p ∈ ([.doms, .pcie, .que, .bus] : List Part), p ∉ ps := by decide) : Yields ps s t where
  parts := h
  states x _ := .inl (by rw [show t.doms = s.doms from h .doms (hp _ (by decide))])
  fns x := by rw [show t.pcie = s.pcie from h .pcie (hp _ (by decide))]
  nums := by rw [show t.pcie = s.pcie from h .pcie (hp _ (by decide))]
  bbf := by rw [show t.que = s.que from h .que (hp _ (by decide))]
  bus := by rw [show t.bus = s.bus from h .bus (hp _ (by decide))]

/-- A domain rewritten: its state stays, becomes TEARDOWN, or was OFF. -/
theorem modDom_yields (s : State) (d : DomN) (f : Dom → Dom)
    (h : s.doms[d].st ≠ .off → (f s.doms[d]).st = s.doms[d].st ∨ (f s.doms[d]).st = .teardown) :
    Yields [.doms] s (modDom s d f) where
  parts := modDom_frame s d f
  states x hx := by
    by_cases hd : x = d
    · subst hd; rw [modDom_self]; exact h hx
    · rw [modDom_ne s d x f hd]; exact .inl rfl
  fns _ := rfl
  nums := rfl
  bbf := rfl
  bus := rfl

theorem modFn_yields (s : State) (d : DomN) (f : Fn → Fn) (h : ∀ x, f x = { x with flr := (f x).flr }) :
    Yields [.pcie] s (modFn s d f) where
  parts := modFn_frame s d f
  states _ _ := .inl rfl
  fns x := by
    by_cases hd : x = d
    · subst hd; rw [modFn_self]; exact h _
    · rw [modFn_ne s d x f hd]
  nums := rfl
  bbf := rfl
  bus := rfl

/-! ## What is granted is issued (R246, step 4) -/

theorem sendPmes_frame (s : State) : only [.aon, .out] s (sendPmes s) :=
  (aon_frame s _).seq (emits_frame _ _)

theorem leaveL1_yields (s : State) : Yields [.aon, .pcie, .out] s (leaveL1 s) := by
  refine yields_ite _ ?_ (.refl _ s)
  have hp : Yields [.pcie] s { s with pcie := { s.pcie with link := .l0, clkReqHi := false } } :=
    ⟨pcie_frame s _, fun _ _ => .inl rfl, fun _ => rfl, rfl, rfl, rfl⟩
  exact hp.seq (yields_of_only (sendPmes_frame _))

theorem toHost_yields (s : State) (o : Out) : Yields [.aon, .pcie, .out] s (toHost s o) :=
  (leaveL1_yields s).seq (yields_of_only (out_frame _ _))

theorem hmaDone_yields (s : State) (r : Nat) : Yields [.hma] s (hmaDone s r) := yields_of_only (hmaDone_frame s r)

/-- The parts that issuing a request of the host-memory path may change. -/
abbrev issueParts : List Part := [.aon, .pcie, .hma, .out]

theorem issueLast_yields (s : State) (r : Nat) (q : HReq) : Yields issueParts s (issueLast s r q) := by
  unfold issueLast
  cases nextWrite s q with
  | none => exact (hmaDone_yields s r).widen
  | some p => exact (toHost_yields s _).seq (hmaDone_yields _ r)

theorem endGrant_yields (s : State) (r : Nat) (q : HReq) : Yields issueParts s (endGrant s r q) := by
  unfold endGrant
  split
  · exact (yields_of_only (hma_frame s _)).widen
  · exact issueLast_yields s r q

theorem issueGranted_yields (s : State) (d : DomN) : Yields issueParts s (issueGranted s d) := by
  unfold issueGranted
  split
  · exact yields_ite _ (endGrant_yields s _ _) (.refl _ s)
  · exact .refl _ s

theorem endGranted_yields (s : State) (d : DomN) : Yields issueParts s (endGranted s d) :=
  yields_ite _ (hmaDone_yields s 17).widen (issueGranted_yields s d)

/-! ## The steps of a teardown (R246) -/

theorem dropWatches_yields (s : State) (d : DomN) : Yields [.hma, .que] s (dropWatches s d) := by
  have hq (u : State) : Yields [.que] u { u with que := { u.que with watches := u.que.watches.filter fun w => w.1 != d } } :=
    ⟨que_frame u _, fun _ _ => .inl rfl, fun _ => rfl, rfl, rfl, rfl⟩
  exact (yields_ite (ps := [.hma]) _ (hmaDone_yields s 16) (.refl _ s)).seq (hq _)

theorem lnHshk_frame (s : State) (k : EpN) (h : Hdr) (code : Nat) : only [.ula] s (lnHshk s k h code) :=
  ulaPush_frame s _ _

theorem noteAns_frame (s : State) (k : EpN) (tag : BitVec 7) (a : EpAns) : only [.ln] s (noteAns s k tag a) :=
  modEp_frame s k _

theorem lnStall_frame (s : State) (k : EpN) (h : Hdr) : only [.ln, .ula] s (lnStall s k h) :=
  (lnHshk_frame s k h 0x03).seq (noteAns_frame _ k h.tag .stall)

theorem tornAnswer_frame (s : State) (x : Inbox) (k : EpN) : only [.ln, .ula] s (tornAnswer s x k) := by
  refine only_ite _ (only_refl _ s) (only_ite _ (lnStall_frame s k _) (only_ite _ ?_ ?_))
  · exact (lnHshk_frame s k _ 0x06).seq (noteAns_frame _ k _ .data)
  · exact (lnHshk_frame s k _ 0x02).widen

/-- A request that no endpoint serves leaves the inbox, and no more of the bus changes. -/
theorem serveOther_some {s u : State} {x : Inbox}
    (h : takeInbox s (fun x => unserved x && mayTake s x) = some (x, u)) : only [.ln, .ula] u (serveOther s) := by
  have hs : serveOther s = if !u.ln.en then u
      else if isTorn u (epIdx x.pkt.hdr) then tornAnswer u x (epIdx x.pkt.hdr)
      else lnStall u (epIdx x.pkt.hdr) x.pkt.hdr := by
    unfold serveOther; rw [h]
  rw [hs]
  exact only_ite _ (only_refl _ u) (only_ite _ (tornAnswer_frame u x _) (lnStall_frame u _ _))

theorem serveOther_none {s : State} (h : takeInbox s (fun x => unserved x && mayTake s x) = none) :
    serveOther s = s := by
  unfold serveOther; rw [h]

theorem takeInbox_yields {s u : State} {f : Inbox → Bool} {x : Inbox} (h : takeInbox s f = some (x, u)) :
    Yields [.bus] s u := by
  rw [takeInbox_some h]
  exact ⟨bus_frame s _, fun _ _ => .inl rfl, fun _ => rfl, rfl, rfl, rfl⟩

theorem serveOther_yields (s : State) : Yields [.ln, .ula, .bus] s (serveOther s) := by
  cases h : takeInbox s (fun x => unserved x && mayTake s x) with
  | none => rw [serveOther_none h]; exact .refl _ s
  | some y => exact (takeInbox_yields h).seq (yields_of_only (serveOther_some h))

theorem serveOthers_yields (s : State) : Yields [.ln, .ula, .bus] s (serveOthers s) :=
  forEach_yields _ _ s fun a _ => serveOther_yields a

/-- The parts that taking a domain apart may change. -/
abbrev tearParts : List Part := [.wdt, .mtr, .aon, .pcie, .doms, .ln, .hma, .ula, .que, .bus, .out]

/-- Steps 1 to 3 of R246 up to the requests that no endpoint serves: the domain's own registers, and its requests. -/
def tearHost (s : State) (d : DomN) (cause : Nat) : State :=
  let s2 := modDom (dropWatches (endGranted s d) d) d (tearDom cause (now s))
  dropShared (dropShared (dropReqs (dropReqs s2 d.val) (8 + d.val)) 17 d) 18 d

/-- And its requester of the ULA, its wait for a copy of the meters, and its endpoints. -/
def tearLocal (s : State) (d : DomN) : State :=
  { s with
    ula := { s.ula with reqs := s.ula.reqs.setIfInBounds (20 + d.val) [] }
    mtr := { s.mtr with waiters := s.mtr.waiters.filter fun x => x != d }
    ln := { s.ln with eps := s.ln.eps.map fun e => if e.owner = d then tearEp e else e } }

theorem tearBegin_eq (s : State) (d : DomN) (cause : Nat) :
    tearBegin s d cause = serveOthers (tearLocal (tearHost s d cause) d) := rfl

theorem tearLocal_frame (s : State) (d : DomN) : only [.mtr, .ln, .ula] s (tearLocal s d) := by
  intro p hp; cases p <;> first | rfl | exact absurd (by decide) hp

theorem dropShared_yields (s : State) (r : Nat) (d : DomN) : Yields [.hma] s (dropShared s r d) :=
  yields_of_only (setQueue_frame s r _)

theorem dropReqs_yields (s : State) (r : Nat) : Yields [.hma] s (dropReqs s r) := yields_of_only (setQueue_frame s r _)

theorem dropAll_yields (s : State) (d : DomN) :
    Yields [.hma] s (dropShared (dropShared (dropReqs (dropReqs s d.val) (8 + d.val)) 17 d) 18 d) :=
  ((dropReqs_yields s _).seq (dropReqs_yields _ _) (rs := [.hma])).seq
    ((dropShared_yields _ 17 d).seq (dropShared_yields _ 18 d) (rs := [.hma]))

theorem tearHost_yields (s : State) (d : DomN) (cause : Nat) :
    Yields [.aon, .pcie, .doms, .hma, .que, .out] s (tearHost s d cause) :=
  (((endGranted_yields s d).seq (dropWatches_yields _ d) (rs := [.aon, .pcie, .hma, .que, .out])).seq
    (modDom_yields _ d (tearDom cause (now s)) fun _ => .inr rfl)
    (rs := [.aon, .pcie, .doms, .hma, .que, .out])).seq (dropAll_yields _ d)

theorem tearBegin_yields (s : State) (d : DomN) (cause : Nat) : Yields tearParts s (tearBegin s d cause) :=
  ((tearHost_yields s d cause).seq (yields_of_only (tearLocal_frame _ d)) (rs := tearParts)).seq (serveOthers_yields _)

theorem tearBegin_st (s : State) (d : DomN) (cause : Nat) : (tearBegin s d cause).doms[d].st = .teardown := by
  have hd : (tearHost s d cause).doms[d].st = .teardown := by
    have hm : (modDom (dropWatches (endGranted s d) d) d (tearDom cause (now s))).doms[d].st = .teardown :=
      congrArg Dom.st (modDom_self _ d _)
    exact (dropAll_yields _ d).torn hm
  exact (serveOthers_yields _).torn ((yields_of_only (tearLocal_frame _ d)).torn hd)

/-! ## Every trigger of a teardown (R245) -/

theorem giveRight_yields (s : State) (d : DomN) : Yields [.doms, .wdt] s (giveRight s d) := by
  refine yields_ite _ (.refl _ s) ?_
  exact
    { parts := by intro p hp; cases p <;> first | rfl | exact absurd (by decide) hp
      states := fun x _ => .inl (by simp)
      fns := fun _ => rfl
      nums := rfl
      bbf := rfl
      bus := rfl }

theorem handBack_yields (s : State) (d : DomN) : Yields [.doms, .wdt, .ln] s (handBack s d) := by
  have hl (x : Ln) : Yields [.ln] s { s with ln := x } := yields_of_only (ln_frame s x)
  exact yields_ite _ ((hl _).seq (giveRight_yields _ 0)) (hl _).widen

theorem arbRelease_frame (s : State) (d : DomN) : only [.hma, .ula] s (arbRelease s d) := by
  intro p hp; cases p <;> first | rfl | exact absurd (by decide) hp

theorem qosReset_frame (s : State) (d : DomN) : only [.hma, .ula] s (qosReset s d) := by
  intro p hp; cases p <;> first | rfl | exact absurd (by decide) hp

theorem domSettle_yields (s : State) (d : DomN) (cause : Nat) (h : s.doms[d].st = .off) :
    Yields [.doms, .hma, .ula] s (domSettle s d cause) := by
  have hm := modDom_yields s d (domAfter d cause) fun hn => absurd h hn
  exact yields_ite _ (hm.seq (yields_of_only (qosReset_frame _ d))) hm.widen

theorem handBack_st (s : State) (d x : DomN) : (handBack s d).doms[x].st = s.doms[x].st := by
  unfold handBack giveRight
  dsimp only
  split
  · split
    · rfl
    · simp
  · rfl

theorem offReset_yields (s : State) (d : DomN) (cause : Nat) (h : s.doms[d].st = .off) :
    Yields [.wdt, .pcie, .doms, .ln, .hma, .ula] s (offReset s d cause) := by
  have ho : (arbRelease (handBack s d) d).doms[d].st = .off := (handBack_st s d d).trans h
  exact (((handBack_yields s d).seq (yields_of_only (arbRelease_frame _ d)) (rs := [.wdt, .doms, .ln, .hma, .ula])).seq
    (domSettle_yields _ d cause ho) (rs := [.wdt, .doms, .ln, .hma, .ula])).seq (modFn_yields _ d _ fun _ => rfl)

theorem teardown_yields (s : State) (d : DomN) (cause : Nat) : Yields tearParts s (teardown s d cause) := by
  unfold teardown
  split
  case h_1 h => exact yields_ite _ (offReset_yields s d cause h).widen (.refl _ s)
  case h_2 => exact (modDom_yields s d _ fun _ => .inl rfl).widen
  case h_3 => exact tearBegin_yields s d cause

/-- A domain that is not OFF is in TEARDOWN after a trigger. -/
theorem teardown_st (s : State) (d : DomN) (cause : Nat) (h : s.doms[d].st ≠ .off) :
    (teardown s d cause).doms[d].st = .teardown := by
  unfold teardown
  split
  case h_1 ho => exact absurd ho h
  case h_2 ht => rw [modDom_self]; exact ht
  case h_3 => exact tearBegin_st s d cause

/-- Taking several domains apart leaves each of them that was not OFF in TEARDOWN. -/
theorem forEach_teardown_st (l : List DomN) (f : State → DomN → State) {ps : List Part}
    (hf : ∀ a x, Yields ps a (f a x)) (ht : ∀ a x, a.doms[x].st ≠ .off → (f a x).doms[x].st = .teardown) (s : State)
    (d : DomN) (hd : d ∈ l) (h : s.doms[d].st ≠ .off) : (forEach l f s).doms[d].st = .teardown := by
  induction l generalizing s with
  | nil => exact absurd hd (by simp)
  | cons x l ih =>
    have hl : Yields ps (f s x) (forEach l f (f s x)) := forEach_yields l f (f s x) hf
    rcases List.mem_cons.mp hd with rfl | hm
    · exact hl.torn (ht s _ h)
    · refine ih (f s x) hm ?_
      rcases (hf s x).states d h with he | hx
      · rwa [he]
      · rw [hx]; decide

theorem teardownAll_yields (s : State) (cause : Nat) : Yields tearParts s (teardownAll s cause) :=
  forEach_yields _ _ s fun a x => teardown_yields a x cause

theorem mem_domAll (d : DomN) : d ∈ domAll := List.mem_finRange d

theorem teardownAll_st (s : State) (cause : Nat) (d : DomN) (h : s.doms[d].st ≠ .off) :
    (teardownAll s cause).doms[d].st = .teardown :=
  forEach_teardown_st _ _ (fun a x => teardown_yields a x cause) (fun a x => teardown_st a x cause) s d
    (List.mem_filter.mpr ⟨mem_domAll d, Bool.or_eq_true_iff.mpr (.inr (bne_iff_ne.mpr h))⟩) h

end Sys2Proof.Machine
end

section
/-! PROOF. The life of a domain (O60). -/

namespace Sys2Proof.Machine

open Sys2Proof Sys2Proof.Safety

-- One proof after the other: side by side, the proofs of one text wait for each other in too many threads.
set_option Elab.async false


/-- A multicast packet to the local node of a type that no endpoint serves. -/
def oddRequest : Inbox where
  pid := 0
  dest := .loc
  port := 0
  pkt := { hdr := { typ := 5#4, odd := false, pcls := false, hop := 0#10, addr := 0x0001#16, endp := 0#5,
                    epoch := 0#4, tag := 0#7, tsb := 0#8 }
           payload := [] }
  stamp := 0
  pll := true
  mc := true

/-- Domain 0 runs behind its open window, UP has a link, and a packet that no endpoint serves waits for the local
node. -/
def oddWaits : State :=
  { State.reset with
    pcie := { State.reset.pcie with fns := vMod State.reset.pcie.fns 0 fun f => { f with mse := true } }
    doms := vMod State.reset.doms 0 fun x => { x with st := .run, en := true }
    ln := { State.reset.ln with en := true }
    ports := vMod State.reset.ports 0 fun p => { p with st := .paddle }
    bus := { State.reset.bus with inbox := [oddRequest] } }

/-- With an empty inbox nothing waits for the local node. -/
theorem serveAll_empty {α : Type} (l : List α) {s : State} (h : s.bus.inbox = []) :
    forEach l (fun a _ => serveOther a) s = s := by
  induction l with
  | nil => rfl
  | cons x l ih =>
    have hs : serveOther s = s := serveOther_none (by unfold takeInbox; rw [h]; rfl)
    exact (congrArg (forEach l fun a _ => serveOther a) hs).trans ih

/-- The packet draws no answer, so it may be taken. -/
theorem oddRequest_taken {s : State} (h : s.bus.inbox = [oddRequest]) :
    takeInbox s (fun x => unserved x && mayTake s x) = some (oddRequest, { s with bus := { s.bus with inbox := [] } }) := by
  have hmay : (unserved oddRequest && mayTake s oddRequest) = true := by
    simp [unserved, mayTake, oddRequest, localTakes]
  unfold takeInbox
  rw [h, List.find?_cons, List.eraseP_cons, hmay]
  rfl

theorem forEach_cons {α : Type} (x : α) (l : List α) (f : State → α → State) (s : State) :
    forEach (x :: l) f s = forEach l f (f s x) := rfl

theorem serveOthers_cons (s : State) :
    serveOthers s = forEach (List.range' 1 7) (fun a _ => serveOther a) (serveOther s) := by
  unfold serveOthers
  rw [show List.range 8 = 0 :: List.range' 1 7 from by decide, forEach_cons]

theorem serveOthers_takes {s : State} (h : s.bus.inbox = [oddRequest]) : (serveOthers s).bus.inbox = [] := by
  have hbus : (serveOther s).bus = { s.bus with inbox := [] } := serveOther_some (oddRequest_taken h) .bus (by decide)
  have hempty : (serveOther s).bus.inbox = [] := congrArg Bus.inbox hbus
  have hrest : serveOthers s = serveOther s := (serveOthers_cons s).trans (serveAll_empty _ hempty)
  rw [hrest]
  exact hempty

/-- Refutes O60: a domain that is disabled begins its teardown, which empties its requester of the ULA, and what then may
be taken from the inbox of the local node is taken at once.  The statement lists no change of the bus. -/
theorem not_domainLife : ¬ Obligations.DomainLife := by
  intro h
  obtain ⟨-, -, hwin, -⟩ := h
  have hon : linkOn oddWaits = true := by decide
  obtain ⟨-, -, hrun, -⟩ := hwin 0 oddWaits hon (by decide)
  obtain ⟨-, t, ht, -, -, -, -, -, -, -, -, -, -, honly⟩ := hrun (by decide) (by decide)
  have hs : tearBegin oddWaits 0 1 = t :=
    Host.Outcome.next.inj ((exec_onPower (powerOn_of_linkOn oddWaits hon) rfl).symm.trans ht)
  have hwaits : (tearLocal (tearHost oddWaits 0 1) 0).bus.inbox = [oddRequest] := by
    have hb : (tearHost oddWaits 0 1).bus = oddWaits.bus := (tearHost_yields oddWaits 0 1).parts .bus (by decide)
    exact congrArg Bus.inbox hb
  have hnone : t.bus.inbox = [] := by rw [← hs, tearBegin_eq]; exact serveOthers_takes hwaits
  have hbus : t.bus = oddWaits.bus := honly .bus (by decide)
  rw [hbus] at hnone
  exact absurd hnone (by decide)

end Sys2Proof.Machine
end

section
/-! PROOF. Configuration space and the reads of the host (O53). -/

namespace Sys2Proof.Machine

open Sys2Proof Sys2Proof.Safety

-- One proof after the other: side by side, the proofs of one text wait for each other in too many threads.
set_option Elab.async false


/-! ## Configuration requests (R38, R198) -/

theorem epUp_of_cfgOpen {s : State} (h : cfgOpen s = true) : epUp s = true := by
  simp only [cfgOpen, Bool.and_eq_true] at h
  exact h.1.1

theorem onCfg_busy {s : State} (hu : epUp s = true) (hc : cfgOpen s = false) (d : DomN) (f : State → State) :
    onCfg d f s = emit s (.retryStatus d) := by
  simp [onCfg, hu, hc]

theorem onCfg_absent {s : State} (hc : cfgOpen s = true) {d : DomN} (hd : domExists s d = false) (f : State → State) :
    onCfg d f s = emit s (.badCompletion d true) := by
  simp [onCfg, epUp_of_cfgOpen hc, hc, hd]

theorem onCfg_done {s : State} {d : DomN} (h : cfgReaches s d) (f : State → State) :
    onCfg d f s = f (emit s (.completion d [])) := by
  obtain ⟨-, hc, hd⟩ := h
  simp [onCfg, epUp_of_cfgOpen hc, hc, hd]

/-- A configuration request that is carried out. -/
theorem onLink_onCfg {s : State} {d : DomN} (h : cfgReaches s d) (f : State → State) :
    onLink s (onCfg d f) = .next (f (emit s (.completion d []))) :=
  onLink_eq h.1 (onCfg_done h f)

theorem configRead_busy {s : State} (hl : linkOn s = true) (hu : epUp s = true) (hc : cfgOpen s = false) (d : DomN)
    (off : Nat) : configRead s d off = emit s (.retryStatus d) := by
  simp [configRead, hl, hu, hc]

theorem configRead_absent {s : State} (hl : linkOn s = true) (hc : cfgOpen s = true) {d : DomN}
    (hd : domExists s d = false) (off : Nat) : configRead s d off = emit s (.badCompletion d true) := by
  simp [configRead, hl, epUp_of_cfgOpen hc, hc, hd]

theorem configRead_done {s : State} {d : DomN} (h : cfgReaches s d) (off : Nat) :
    configRead s d off = emit s (.completion d [cfgRead s d off]) := by
  obtain ⟨hl, hc, hd⟩ := h
  simp [configRead, hl, epUp_of_cfgOpen hc, hc, hd]

/-- An FLR on the PF that is refused lets no holder of the path go on. -/
theorem resumeAside_emit (f : State → State) (s : State) (o : Out) (h : f s = emit s o) :
    resumeAside f s = emit s o := by
  unfold resumeAside
  rw [h]
  have he : emergency (emit s o) = emergency s := rfl
  cases hs : emergency s <;> simp [he, hs]

theorem config_busy (s : State) (hl : linkOn s = true) (hu : epUp s = true) (hc : cfgOpen s = false) :
    (∀ d f v, exec (.pcieConfigWrite d f v) s = .next (emit s (.retryStatus d))) ∧
    (∀ d, exec (.d3hotEntry d) s = .next (emit s (.retryStatus d)) ∧
      exec (.d0Return d) s = .next (emit s (.retryStatus d))) ∧
    (∀ n, exec (.numvfsWrite n) s = .next (emit s (.retryStatus 0))) ∧
    exec .vfEnable s = .next (emit s (.retryStatus 0)) ∧ exec .vfDisable s = .next (emit s (.retryStatus 0)) ∧
    exec .flrPf s = .next (emit s (.retryStatus 0)) ∧
    (∀ d off, exec (.tbTime0Read (.config d off)) s = .next (emit s (.retryStatus d))) := by
  refine ⟨fun d f v => ?_, fun d => ⟨?_, ?_⟩, fun n => ?_, ?_, ?_, ?_, fun d off => ?_⟩
  · exact onLink_eq hl (onCfg_busy hu hc d _)
  · exact onLink_eq hl (onCfg_busy hu hc d _)
  · exact onLink_eq hl (onCfg_busy hu hc d _)
  · exact onLink_eq hl (onCfg_busy hu hc 0 _)
  · exact onLink_eq hl (onCfg_busy hu hc 0 _)
  · exact onLink_eq hl (onCfg_busy hu hc 0 _)
  · exact onLink_eq hl (resumeAside_emit _ s _ (onCfg_busy hu hc 0 flrPf))
  · exact exec_onPower (powerOn_of_linkOn s hl) (configRead_busy hl hu hc d off)

theorem config_absent (d : DomN) (f : CfgField) (v : BitVec 64) (s : State) (hl : linkOn s = true)
    (hc : cfgOpen s = true) (hd : domExists s d = false) :
    exec (.pcieConfigWrite d f v) s = .next (emit s (.badCompletion d true)) ∧
    exec (.d3hotEntry d) s = .next (emit s (.badCompletion d true)) ∧
    ∀ off, exec (.tbTime0Read (.config d off)) s = .next (emit s (.badCompletion d true)) :=
  ⟨onLink_eq hl (onCfg_absent hc hd _), onLink_eq hl (onCfg_absent hc hd _),
    fun off => exec_onPower (powerOn_of_linkOn s hl) (configRead_absent hl hc hd off)⟩

/-! ## The virtual functions (R188, R245) -/

/-- What taking the virtual functions away leaves alone: as `Yields`, but that of the functions only the PF's own
registers stay. -/
structure Sheds (s t : State) : Prop where
  parts : only tearParts s t
  states : ∀ x : DomN, s.doms[x].st ≠ .off → t.doms[x].st = s.doms[x].st ∨ t.doms[x].st = .teardown
  pf : t.pcie.fns[(0 : DomN)] = { s.pcie.fns[(0 : DomN)] with flr := t.pcie.fns[(0 : DomN)].flr }
  nums : t.pcie.numVfs = s.pcie.numVfs
  bbf : t.que.bbf = s.que.bbf
  bus : t.bus = { s.bus with inbox := t.bus.inbox }

theorem Yields.sheds {s t : State} (h : Yields tearParts s t) : Sheds s t :=
  ⟨h.parts, h.states, h.fns 0, h.nums, h.bbf, h.bus⟩

theorem Sheds.torn {s t : State} (h : Sheds s t) {d : DomN} (hd : s.doms[d].st = .teardown) :
    t.doms[d].st = .teardown :=
  (h.states d (fun ho => by rw [hd] at ho; cases ho)).elim (fun e => e.trans hd) id

theorem Sheds.seq {s t u : State} (h : Sheds s t) (k : Sheds t u) : Sheds s u where
  parts := only_trans _ _ _ _ h.parts k.parts
  states x hx := by
    rcases h.states x hx with he | ht
    · exact he ▸ k.states x (he ▸ hx)
    · exact .inr (k.torn ht)
  pf := by rw [k.pf, h.pf]
  nums := k.nums.trans h.nums
  bbf := k.bbf.trans h.bbf
  bus := by rw [k.bus, h.bus]

/-- One virtual function ceases to exist. -/
def vfGone (cause : Nat) (a : State) (d : DomN) : State := modFn (teardown a d cause) d fun _ => Fn.reset

theorem vfGone_sheds (cause : Nat) (a : State) {d : DomN} (hd : d ≠ 0) : Sheds a (vfGone cause a d) := by
  have hm (u : State) : Sheds u (modFn u d fun _ => Fn.reset) :=
    ⟨(modFn_frame u d _).widen, fun _ _ => .inl rfl, by rw [modFn_ne u d 0 _ (Ne.symm hd)], rfl, rfl, rfl⟩
  exact (teardown_yields a d cause).sheds.seq (hm _)

theorem forEach_vfGone (cause : Nat) (l : List DomN) (hl : ∀ d ∈ l, d ≠ 0) (s : State) :
    Sheds s (forEach l (vfGone cause) s) ∧
    ∀ d ∈ l, s.doms[d].st ≠ .off → (forEach l (vfGone cause) s).doms[d].st = .teardown := by
  induction l generalizing s with
  | nil => exact ⟨(Yields.refl tearParts s).sheds, fun d hd => absurd hd (by simp)⟩
  | cons x l ih =>
    have hx := vfGone_sheds cause s (hl x List.mem_cons_self)
    obtain ⟨hrest, htorn⟩ := ih (fun d hd => hl d (List.mem_cons_of_mem _ hd)) (vfGone cause s x)
    refine ⟨hx.seq hrest, fun d hd hs => ?_⟩
    rcases List.mem_cons.mp hd with rfl | hm
    · exact hrest.torn (teardown_st s _ cause hs)
    · refine htorn d hm ?_
      rcases hx.states d hs with he | ht
      · rwa [he]
      · rw [ht]; decide

/-- The virtual functions cease to exist: the domain of each is torn down. -/
theorem vfsGone_rule (s : State) (cause : Nat) :
    Sheds s (vfsGone s cause) ∧ (vfsGone s cause).pcie.vfe = false ∧
    ∀ d : DomN, d ≠ 0 → domExists s d = true → s.doms[d].st ≠ .off → (vfsGone s cause).doms[d].st = .teardown := by
  obtain ⟨hsheds, htorn⟩ := forEach_vfGone cause (domAll.filter fun d => d != 0 && domExists s d)
    (fun d hd => by
      have hb := (List.mem_filter.mp hd).2
      simp only [Bool.and_eq_true, bne_iff_ne] at hb
      exact hb.1) s
  have hlast (u : State) : Sheds u { u with pcie := { u.pcie with vfe := false } } :=
    ⟨(pcie_frame u _).widen, fun _ _ => .inl rfl, rfl, rfl, rfl, rfl⟩
  refine ⟨hsheds.seq (hlast _), rfl, fun d hd hx hs => htorn d (List.mem_filter.mpr ⟨mem_domAll d, ?_⟩) hs⟩
  rw [hx, bne_iff_ne.mpr hd]; rfl

theorem emit_done (s : State) (o : Out) : o ∈ (emit s o).out := List.mem_cons_self

theorem config_vfs (s : State) (h : cfgReaches s 0) :
    (∃ t, exec .vfEnable s = .next t ∧ t.pcie = { s.pcie with vfe := true } ∧ .completion 0 [] ∈ t.out ∧
      only [.pcie, .out] s t) ∧
    (s.pcie.vfe = true →
      ∃ t, exec .vfDisable s = .next t ∧ t.pcie.vfe = false ∧ t.pcie.numVfs = s.pcie.numVfs ∧
        (∀ d : DomN, d ≠ 0 → domExists s d = true → s.doms[d].st ≠ .off → t.doms[d].st = .teardown) ∧
        t.bus = { s.bus with inbox := t.bus.inbox } ∧
        only [.wdt, .mtr, .aon, .pcie, .doms, .ln, .hma, .ula, .que, .bus, .out] s t) ∧
    (∀ n, s.pcie.vfe = false →
      ∃ t, exec (.numvfsWrite n) s = .next t ∧ t.pcie = { s.pcie with numVfs := min 7 n } ∧
        only [.pcie, .out] s t) ∧
    (∀ n, s.pcie.vfe = true →
      ∃ t, exec (.numvfsWrite n) s = .next t ∧ .completion 0 [] ∈ t.out ∧ only [.out] s t) ∧
    (∀ v : BitVec 64,
      (∃ t, exec (.pcieConfigWrite 0 .bar0 v) s = .next t ∧
        t.pcie = { s.pcie with bar0 := v.toNat / 65536 * 65536 } ∧ only [.pcie, .out] s t) ∧
      (∃ t, exec (.pcieConfigWrite 0 .cto v) s = .next t ∧ t.pcie = { s.pcie with cto := max 1 (min 1000 v.toNat) } ∧
        only [.pcie, .out] s t)) := by
  have hout := out_frame s (.completion 0 [] :: s.out)
  have hpcie (x : Pcie) : only [.pcie, .out] s { emit s (.completion 0 []) with pcie := x } :=
    hout.seq (pcie_frame _ x)
  refine ⟨⟨_, onLink_onCfg h _, rfl, emit_done s _, hpcie _⟩, fun hv => ?_, fun n hv => ?_, fun n hv => ?_,
    fun v => ⟨⟨_, onLink_onCfg h _, rfl, hpcie _⟩, ⟨_, onLink_onCfg h _, rfl, hpcie _⟩⟩⟩
  · obtain ⟨hsheds, hvfe, htorn⟩ := vfsGone_rule (emit s (.completion 0 [])) 4
    exact ⟨_, onLink_eq h.1 ((onCfg_done h _).trans (whenDo_holds hv)), hvfe, hsheds.nums, htorn, hsheds.bus,
      hout.seq hsheds.parts⟩
  · exact ⟨_, onLink_eq h.1 ((onCfg_done h _).trans (whenDo_holds (by simp [hv]))), rfl, hpcie _⟩
  · exact ⟨_, onLink_eq h.1 ((onCfg_done h _).trans (whenDo_fails (by simp [hv]))), emit_done s _, hout⟩

/-! ## Messages (R202 to R204, R207) -/

theorem getLsbD_putVec (x : BitVec 32) (v : Nat) (b : Bool) {k : Nat} (hk : k < 32) :
    (putVec x v b).getLsbD k = if k = v then b else x.getLsbD k := by
  unfold putVec
  by_cases hkv : k = v
  · subst hkv; cases b <;> simp [hk]
  · cases b <;> simp [hk, hkv]
    · intro; omega
    · intro; omega

theorem domsBut.seq {d : DomN} {s t u : State} (h : domsBut d s t) (k : domsBut d t u) : domsBut d s u :=
  fun x hx => (k x hx).trans (h x hx)

/-- What the handling of a message of vector v of domain d leaves alone. -/
structure Posts (d : DomN) (v : Nat) (s t : State) : Prop where
  parts : only [.doms] s t
  others : domsBut d s t
  table : t.doms[d].msix = s.doms[d].msix
  bits : ∀ k < 32, k ≠ v → t.doms[d].pba.getLsbD k = s.doms[d].pba.getLsbD k

theorem Posts.refl (d : DomN) (v : Nat) (s : State) : Posts d v s s :=
  ⟨only_refl _ s, fun _ _ => rfl, rfl, fun _ _ _ => rfl⟩

theorem Posts.seq {d : DomN} {v : Nat} {s t u : State} (h : Posts d v s t) (k : Posts d v t u) : Posts d v s u :=
  ⟨only_trans _ _ _ _ h.parts k.parts, domsBut.seq h.others k.others, k.table.trans h.table,
    fun j hj hv => (k.bits j hj hv).trans (h.bits j hj hv)⟩

theorem posts_ite {d : DomN} {v : Nat} (c : Prop) [Decidable c] {s t u : State} (ht : Posts d v s t)
    (hu : Posts d v s u) : Posts d v s (if c then t else u) := by
  split <;> assumption

theorem modDom_posts (s : State) (d : DomN) (v : Nat) (f : Dom → Dom) (hm : (f s.doms[d]).msix = s.doms[d].msix)
    (hb : ∀ k < 32, k ≠ v → (f s.doms[d]).pba.getLsbD k = s.doms[d].pba.getLsbD k) : Posts d v s (modDom s d f) where
  parts := modDom_frame s d f
  others := domsBut_modDom s d f
  table := by rw [modDom_self]; exact hm
  bits k hk hv := by rw [modDom_self]; exact hb k hk hv

theorem holdVec_posts (s : State) (d : DomN) (v : Nat) (b : Bool) : Posts d v s (holdVec s d v b) :=
  modDom_posts s d v _ rfl fun _ _ _ => rfl

theorem dueMsg_posts (s : State) (d : DomN) (v : Nat) : Posts d v s (dueMsg s d v) :=
  modDom_posts s d v _ rfl fun _ _ _ => rfl

theorem pbaVec_posts (s : State) (d : DomN) (v : Nat) (b : Bool) : Posts d v s (pbaVec s d v b) :=
  modDom_posts s d v _ rfl fun k hk hv => by simp only [getLsbD_putVec _ v b hk, if_neg hv]

theorem sendMsg_posts (s : State) (d : DomN) (v : Nat) : Posts d v s (sendMsg s d v) :=
  posts_ite _ (.refl d v s) (posts_ite _ (pbaVec_posts s d v true) (posts_ite _ (holdVec_posts s d v true)
    ((dueMsg_posts s d v).seq (pbaVec_posts _ d v false))))

theorem pbaRelease_posts (s : State) (d : DomN) (v : Nat) : Posts d v s (pbaRelease s d v) :=
  posts_ite _ (.refl d v s) (posts_ite _ ((pbaVec_posts s d v false).seq (holdVec_posts _ d v true))
    (((pbaVec_posts s d v false).seq (holdVec_posts _ d v false)).seq (sendMsg_posts _ d v)))

theorem heldRelease_posts (s : State) (d : DomN) (v : Nat) : Posts d v s (heldRelease s d v) :=
  posts_ite _ (.refl d v s) ((holdVec_posts s d v false).seq (sendMsg_posts _ d v))

theorem Posts.masked {d : DomN} {v : Nat} {s t : State} (h : Posts d v s t) (k : Nat) :
    vecMasked t d k = vecMasked s d k := by
  unfold vecMasked msixEnt
  rw [h.table, show t.pcie = s.pcie from h.parts .pcie (by decide)]

theorem Posts.enabled {d : DomN} {v : Nat} {s t : State} (h : Posts d v s t) :
    t.pcie.fns[d].msixEn = s.pcie.fns[d].msixEn := by
  rw [show t.pcie = s.pcie from h.parts .pcie (by decide)]

theorem pbaVec_clear (s : State) (d : DomN) {v : Nat} (hv : v < 32) :
    (pbaVec s d v false).doms[d].pba.getLsbD v = false := by
  unfold pbaVec
  rw [modDom_self]
  exact (getLsbD_putVec _ v false hv).trans (if_pos rfl)

/-- A hold keeps the PBA. -/
theorem holdVec_pba (s : State) (d : DomN) (v : Nat) (b : Bool) : (holdVec s d v b).doms[d].pba = s.doms[d].pba := by
  unfold holdVec
  rw [modDom_self]

/-- A message of a vector that is not masked leaves its PBA bit clear. -/
theorem sendMsg_clear {s : State} {d : DomN} {v : Nat} (hv : v < 32) (hm : vecMasked s d v = false)
    (hp : s.doms[d].pba.getLsbD v = false) : (sendMsg s d v).doms[d].pba.getLsbD v = false := by
  unfold sendMsg
  rw [hm]
  split
  · exact hp
  · rw [if_neg Bool.false_ne_true]
    split
    · rw [holdVec_pba]; exact hp
    · exact pbaVec_clear _ d hv

theorem pbaRelease_clear {s : State} {d : DomN} {v : Nat} (hv : v < 32) (he : s.pcie.fns[d].msixEn = true)
    (hm : vecMasked s d v = false) : (pbaRelease s d v).doms[d].pba.getLsbD v = false := by
  cases hp : s.doms[d].pba.getLsbD v with
  | false => unfold pbaRelease; rw [hp]; exact hp
  | true =>
    have hc := pbaVec_clear s d hv
    unfold pbaRelease
    rw [hp, hm, he, if_neg (by decide)]
    split
    · rw [holdVec_pba]; exact hc
    · refine sendMsg_clear hv ?_ (by rw [holdVec_pba]; exact hc)
      exact (((pbaVec_posts s d v false).seq (holdVec_posts _ d v false)).masked v).trans hm

theorem heldRelease_clear {s : State} {d : DomN} {v : Nat} (hv : v < 32) (hm : vecMasked s d v = false)
    (hp : s.doms[d].pba.getLsbD v = false) : (heldRelease s d v).doms[d].pba.getLsbD v = false := by
  unfold heldRelease
  split
  · exact hp
  · exact sendMsg_clear hv (((holdVec_posts s d v false).masked v).trans hm) (by rw [holdVec_pba]; exact hp)

/-- The messages of one vector that nothing keeps back any longer. -/
def releaseVec (d : DomN) (a : State) (v : Nat) : State := heldRelease (pbaRelease a d v) d v

theorem releaseVec_posts (d : DomN) (a : State) (v : Nat) : Posts d v a (releaseVec d a v) :=
  (pbaRelease_posts a d v).seq (heldRelease_posts _ d v)

theorem releaseVec_clear {a : State} {d : DomN} {v : Nat} (hv : v < 32) (he : a.pcie.fns[d].msixEn = true)
    (hm : vecMasked a d v = false) : (releaseVec d a v).doms[d].pba.getLsbD v = false :=
  heldRelease_clear hv (((pbaRelease_posts a d v).masked v).trans hm) (pbaRelease_clear hv he hm)

theorem releaseMsgs_eq (s : State) (d : DomN) : releaseMsgs s d = forEach (List.range 32) (releaseVec d) s := rfl

/-- Releasing a domain's messages touches that domain alone. -/
theorem releaseMsgs_rule (s : State) (d : DomN) : only [.doms] s (releaseMsgs s d) ∧ domsBut d s (releaseMsgs s d) := by
  rw [releaseMsgs_eq]
  generalize List.range 32 = l
  induction l generalizing s with
  | nil => exact ⟨only_refl _ s, fun _ _ => rfl⟩
  | cons v l ih =>
    have hv := releaseVec_posts d s v
    obtain ⟨hp, ho⟩ := ih (releaseVec d s v)
    exact ⟨only_trans _ _ _ _ hv.parts hp, domsBut.seq hv.others ho⟩

/-- It leaves no PBA bit set whose vector is not masked. -/
theorem releaseMsgs_clear {s : State} {d : DomN} (he : s.pcie.fns[d].msixEn = true) {k : Nat} (hk : k < 32)
    (hm : vecMasked s d k = false) : (releaseMsgs s d).doms[d].pba.getLsbD k = false := by
  rw [releaseMsgs_eq]
  refine (forEach_turn (List.range 32) List.nodup_range (releaseVec d) k (List.mem_range.mpr hk)
    (fun a => a.pcie.fns[d].msixEn = true ∧ vecMasked a d k = false)
    (fun a => a.doms[d].pba.getLsbD k = false) ?_ ?_ ?_ s ⟨he, hm⟩)
  · exact fun a v _ ⟨hae, ham⟩ =>
      ⟨(releaseVec_posts d a v).enabled.trans hae, ((releaseVec_posts d a v).masked k).trans ham⟩
  · exact fun a ⟨hae, ham⟩ => releaseVec_clear hk hae ham
  · exact fun a v hv ha => ((releaseVec_posts d a v).bits k hk (Ne.symm hv)).trans ha

/-! ## What every function has -/

theorem config_function (d : DomN) (v : BitVec 64) (s : State) (h : cfgReaches s d) :
    (∃ t, exec (.pcieConfigWrite d .msixEnable v) s = .next t ∧
      t.pcie.fns[d] = { s.pcie.fns[d] with msixEn := v.getLsbD 0 } ∧ domsBut d s t ∧
      (∀ k : Fin 32, v.getLsbD 0 = true → vecMasked s d k.val = false → t.doms[d].pba.getLsbD k.val = false) ∧
      only [.pcie, .doms, .out] s t) ∧
    (∃ t, exec (.pcieConfigWrite d .pmeEnable v) s = .next t ∧ t.aon.pmeEn[d] = v.getLsbD 0 ∧
      only [.aon, .out] s t) ∧
    (∃ t, exec (.pcieConfigWrite d .aerUncStatus v) s = .next t ∧
      t.pcie.fns[d] = { s.pcie.fns[d] with aerUnc := s.pcie.fns[d].aerUnc &&& ~~~(v.setWidth 32) } ∧
      only [.pcie, .out] s t) ∧
    (∀ off, ∃ t, exec (.tbTime0Read (.config d off)) s = .next t ∧ .completion d [cfgRead s d off] ∈ t.out ∧
      only [.out] s t) := by
  have hout := out_frame s (.completion d [] :: s.out)
  refine ⟨?_, ?_, ?_, fun off => ?_⟩
  · let u : State := modFn (emit s (.completion d [])) d fun f => { f with msixEn := v.getLsbD 0 }
    have hu : u.pcie.fns[d] = { s.pcie.fns[d] with msixEn := v.getLsbD 0 } := modFn_self _ d _
    obtain ⟨hparts, hothers⟩ := releaseMsgs_rule u d
    have hfn : (releaseMsgs u d).pcie = u.pcie := hparts .pcie (by decide)
    have hmask (k : Nat) : vecMasked u d k = vecMasked s d k := by
      unfold vecMasked
      rw [hu]
      rfl
    refine ⟨releaseMsgs u d, onLink_onCfg h _, by rw [hfn]; exact hu, hothers, fun k hv hm => ?_,
      (hout.seq (modFn_frame _ d _) (rs := [.pcie, .out])).seq hparts⟩
    exact releaseMsgs_clear (by rw [hu]; exact hv) k.isLt ((hmask k).trans hm)
  · exact ⟨_, onLink_onCfg h _, vMod_get_self _ d _, hout.seq (aon_frame _ _)⟩
  · exact ⟨_, onLink_onCfg h _, modFn_self _ d _, hout.seq (modFn_frame _ d _)⟩
  · exact ⟨_, exec_onPower (powerOn_of_linkOn s h.1) (configRead_done h off), emit_done s _, out_frame s _⟩

theorem config_constants (s : State) : cfgRead s 0 0x00 = 0x09171D9A#32 ∧ cfgRead s 0 0x08 = 0x0C8000A1#32 ∧
    cfgRead s 0 0x2C = 0x09171D9A#32 := ⟨rfl, rfl, rfl⟩

/-! ## Reads of a register (R146, R190, R193) -/

/-- A Max_Payload_Size of any code takes a DW. -/
theorem four_le_maxWrite (s : State) : 4 ≤ maxWrite s := by
  have h : 4 ≤ sizeOfCode s.pcie.fns[0].mps :=
    le_trans (by decide : 4 ≤ 128 * 1) (Nat.mul_le_mul_left 128 Nat.one_le_two_pow)
  exact Nat.le_min.mpr ⟨by decide, h⟩

/-- A completion of one DW is not parted. -/
theorem complete_one (s : State) (d : DomN) (addr : Nat) (w : BitVec 32) :
    complete s d addr [w] = emit s (.completion d [w]) := by
  have hs : rcbSplit (maxWrite s) 1 addr [w] = [[w]] := by
    simp [rcbSplit, four_le_maxWrite s]
  simp [complete, hs, emits, emit]

/-- A read of one DW through an open window. -/
theorem bar0Read_one {s : State} {d : DomN} (hl : linkOn s = true) (hw : winOpen s d = true) {off : Nat}
    (ha : off % 4 = 0) : bar0Read s d off 1 =
      emit (readDw d (s, []) off).1 (.completion d (readDw d (s, []) off).2) := by
  have hoff : off / 4 * 4 = off := by omega
  have hfold : ((List.range 1).map fun i => off / 4 * 4 + 4 * i).foldl (readDw d) (s, []) = readDw d (s, []) off := by
    simp [hoff]
  unfold bar0Read
  rw [hl, hw, hfold]
  exact complete_one _ d off _

/-- The DW at the offset of a register of PF BAR0. -/
theorem dwRead_pf {s : State} {off : Nat} {r : Reg} (hr : regAt .pf off = some r) (hlow : off < 0x6000) :
    dwRead s 0 off = (readReg s .pf r).setWidth 32 := by
  have hm : inMsix 0 off = false := by simp [inMsix, msixBase]; omega
  have hp : inPba 0 off = false := by simp [inPba, pbaBase]; omega
  have hpath : pathOf 0 = .pf := rfl
  unfold dwRead
  rw [hm, hp, hpath, hr]
  rfl

theorem aligned_of_regAt {off : Nat} {r : Reg} (h : regAt .pf off = some r) : off % 4 = 0 := by
  change regAtPf off = some r at h
  unfold regAtPf at h
  by_contra hn
  rw [if_neg hn] at h
  cases h

theorem register_read (off : Word) (r : Reg) (s : State) (hl : linkOn s = true) (hw : winOpen s 0 = true)
    (hr : regAt .pf off.toNat = some r) (hn : r ≠ .tbTime 0) (hlow : off.toNat < 0x6000) :
    ∃ t, exec (.tbTime0Read (.bar0 0 off 1)) s = .next t ∧
      .completion 0 [(readReg s .pf r).setWidth 32] ∈ t.out ∧ only [.out] s t := by
  have hpath : pathOf 0 = .pf := rfl
  have hdw : readDw 0 (s, []) off.toNat = (s, [(readReg s .pf r).setWidth 32]) := by
    unfold readDw
    rw [hpath, hr, if_neg fun h => hn (Option.some.inj h)]
    exact congrArg (fun w => (s, [w])) (dwRead_pf hr hlow)
  have hread := bar0Read_one hl hw (aligned_of_regAt hr)
  rw [hdw] at hread
  exact ⟨_, exec_onPower (powerOn_of_linkOn s hl) hread, emit_done s _, out_frame s _⟩

theorem latchTime_frame (s : State) (p : Path) : only [.tb] s (latchTime s p) := tb_frame s _

theorem latchTime_latch (s : State) (p : Path) :
    (latchTime s p).tb.latch[latchOf p] = { hi := now s / 65536, stroke := s.tb.stroke.toNat } :=
  vMod_get_self _ (latchOf p) _

theorem time_read (s : State) (hl : linkOn s = true) (hw : winOpen s 0 = true) :
    ∃ t, exec (.tbTime0Read (.reg .pf)) s = .next t ∧ .completion 0 [(wordOf (now s) 0).setWidth 32] ∈ t.out ∧
      t.tb.latch[latchOf .pf] = { hi := now s / 65536, stroke := s.tb.stroke.toNat } ∧
      t.tb.time = s.tb.time ∧ only [.tb, .out] s t := by
  have hpath : pathOf 0 = .pf := rfl
  have hr : regAt .pf 0x808 = some (.tbTime 0) := by decide
  have hdw : readDw 0 (s, []) 0x808 = (latchTime s .pf, [(wordOf (now s) 0).setWidth 32]) := by
    unfold readDw
    rw [hpath, hr, if_pos rfl]
    exact congrArg (fun w => (latchTime s .pf, [w])) (dwRead_pf hr (by decide))
  have hread := bar0Read_one (off := 0x808) hl hw (by decide)
  rw [hdw] at hread
  exact ⟨_, exec_onPower (powerOn_of_linkOn s hl) hread, emit_done _ _, latchTime_latch s .pf, rfl,
    (latchTime_frame s .pf).seq (out_frame _ _)⟩

theorem time_hub (s : State) (hl : linkOn s = true) :
    ∃ t, exec (.tbTime0Read (.reg .hub)) s = .next t ∧ .readData .hub (wordOf (now s) 0) ∈ t.out ∧
      t.tb.latch[latchOf .hub] = { hi := now s / 65536, stroke := s.tb.stroke.toNat } ∧ only [.tb, .out] s t :=
  have hread : timeRead s .hub = emit (latchTime s .hub) (.readData .hub (wordOf (now s) 0)) :=
    whenDo_holds (f := fun s => emit (latchTime s .hub) (.readData .hub (wordOf (now s) 0))) hl
  ⟨_, exec_onPower (powerOn_of_linkOn s hl) hread, emit_done _ _, latchTime_latch s .hub,
    (latchTime_frame s .hub).seq (out_frame _ _)⟩

/-- Settles O53: it holds. A configuration request is carried out, answered with Retry Status or with Unsupported Request
by `onCfg` alone; what unmasks messages releases every one of them in turn. -/
theorem hostConfigurationAndReads : Obligations.HostConfigurationAndReads :=
  ⟨config_busy, config_absent, config_vfs, config_function, config_constants, register_read, time_read, time_hub⟩

end Sys2Proof.Machine
end

section
/-! SUPPORT. Events, requests of the host-memory path and reads: what they leave alone. -/

namespace Sys2Proof.Machine

open Sys2Proof Sys2Proof.Safety

-- One proof after the other: side by side, the proofs of one text wait for each other in too many threads.
set_option Elab.async false


/-- A domain but for its events and its messages. -/
def settled (x : Dom) : Dom := { x with evq := [], evSeq := 0, evLost := 0, msgs := [] }

/-- The host-memory path but for the queues of its requesters. -/
def pathOnly (h : Hma) : Hma := { h with reqs := Vector.replicate 20 [] }

/-- The queues' registers and FIFOs but for the management event FIFO. -/
def unoffered (q : Que) : Que := { q with evf := [], evfLost := 0 }

/-- The endpoint's registers but for the state of its link and the reads that are outstanding. -/
def unread (p : Pcie) : Pcie := { p with link := .l0, clkReqHi := false, reads := [] }

/-- What raising events and asking for reads leaves alone, beside the parts not listed: the domains but for their events
and messages, the path but for the queues of its requesters, all queues but the management event FIFO, and what was
put out. -/
structure Asks (ps : List Part) (s t : State) : Prop where
  parts : only ps s t
  doms : ∀ x : DomN, settled t.doms[x] = settled s.doms[x]
  path : pathOnly t.hma = pathOnly s.hma
  que : unoffered t.que = unoffered s.que
  outs : s.out <:+ t.out

/-- What issuing reads leaves alone: not the path, but the endpoint's other registers. -/
structure Issues (ps : List Part) (s t : State) : Prop where
  parts : only ps s t
  doms : ∀ x : DomN, settled t.doms[x] = settled s.doms[x]
  pcie : unread t.pcie = unread s.pcie
  que : unoffered t.que = unoffered s.que
  outs : s.out <:+ t.out

theorem Asks.refl (ps : List Part) (s : State) : Asks ps s s :=
  ⟨only_refl _ s, fun _ => rfl, rfl, rfl, List.suffix_rfl⟩

theorem Asks.seq {ps qs rs : List Part} {s t u : State} (h : Asks ps s t) (k : Asks qs t u)
    (hp : ∀ p ∈ ps, p ∈ rs := by decide) (hq : ∀ q ∈ qs, q ∈ rs := by decide) : Asks rs s u :=
  ⟨h.parts.seq k.parts hp hq, fun x => (k.doms x).trans (h.doms x), k.path.trans h.path, k.que.trans h.que,
    h.outs.trans k.outs⟩

theorem Asks.widen {ps qs : List Part} {s t : State} (h : Asks ps s t) (hp : ∀ p ∈ ps, p ∈ qs := by decide) :
    Asks qs s t := { h with parts := h.parts.widen hp }

theorem asks_ite {ps : List Part} (c : Prop) [Decidable c] {s t u : State} (ht : Asks ps s t) (hu : Asks ps s u) :
    Asks ps s (if c then t else u) := by
  split <;> assumption

theorem forEach_asks {α : Type} {ps : List Part} (l : List α) (f : State → α → State) (s : State)
    (h : ∀ a x, Asks ps a (f a x)) : Asks ps s (forEach l f s) := by
  induction l generalizing s with
  | nil => exact .refl ps s
  | cons x l ih => exact (h s x).seq (ih (f s x)) (fun _ => id) (fun _ => id)

theorem Issues.refl (ps : List Part) (s : State) : Issues ps s s :=
  ⟨only_refl _ s, fun _ => rfl, rfl, rfl, List.suffix_rfl⟩

theorem Issues.seq {ps qs rs : List Part} {s t u : State} (h : Issues ps s t) (k : Issues qs t u)
    (hp : ∀ p ∈ ps, p ∈ rs := by decide) (hq : ∀ q ∈ qs, q ∈ rs := by decide) : Issues rs s u :=
  ⟨h.parts.seq k.parts hp hq, fun x => (k.doms x).trans (h.doms x), k.pcie.trans h.pcie,
    k.que.trans h.que, h.outs.trans k.outs⟩

theorem Issues.widen {ps qs : List Part} {s t : State} (h : Issues ps s t) (hp : ∀ p ∈ ps, p ∈ qs := by decide) :
    Issues qs s t := { h with parts := h.parts.widen hp }

theorem issues_ite {ps : List Part} (c : Prop) [Decidable c] {s t u : State} (ht : Issues ps s t)
    (hu : Issues ps s u) : Issues ps s (if c then t else u) := by
  split <;> assumption

theorem Asks.issues {ps : List Part} {s t : State} (h : Asks ps s t) (hp : .pcie ∉ ps := by decide) : Issues ps s t :=
  ⟨h.parts, h.doms, congrArg unread (h.parts .pcie hp : t.pcie = s.pcie), h.que, h.outs⟩

/-- An operation that changes neither the domains, the path, the queues nor what is put out. -/
theorem asks_of_only {ps : List Part} {s t : State} (h : only ps s t)
    (hp : ∀ p ∈ ([.doms, .hma, .que, .out] : List Part), p ∉ ps := by decide) : Asks ps s t where
  parts := h
  doms x := by rw [show t.doms = s.doms from h .doms (hp _ (by decide))]
  path := by rw [show t.hma = s.hma from h .hma (hp _ (by decide))]
  que := by rw [show t.que = s.que from h .que (hp _ (by decide))]
  outs := by rw [show t.out = s.out from h .out (hp _ (by decide))]

theorem Asks.arb {ps : List Part} {s t : State} (h : Asks ps s t) : t.hma.arb = s.hma.arb := (congrArg Hma.arb h.path :)

theorem Asks.cur {ps : List Part} {s t : State} (h : Asks ps s t) : t.hma.cur = s.hma.cur := (congrArg Hma.cur h.path :)

theorem Asks.bbf {ps : List Part} {s t : State} (h : Asks ps s t) : t.que.bbf = s.que.bbf := (congrArg Que.bbf h.que :)

theorem Asks.count {ps : List Part} {s t : State} (h : Asks ps s t) : t.que.errCnt = s.que.errCnt :=
  (congrArg Que.errCnt h.que :)

theorem Asks.left {ps : List Part} {s t : State} (h : Asks ps s t) : t.hma.left = s.hma.left :=
  (congrArg Hma.left h.path :)

/-! ## Events -/

theorem domRaise_settled (room ticks : Nat) (force : Bool) (e : Ev) (x : Dom) :
    settled (domRaise room ticks force e x) = settled x := rfl

theorem evfOffer_unoffered (ticks : Nat) (e : Ev) (q : Que) : unoffered (evfOffer ticks e q) = unoffered q := by
  unfold evfOffer
  split
  · rfl
  · split
    · rfl
    · split <;> rfl

theorem raiseTo_asks (s : State) (hit : DomN → Bool) (force : Bool) (ticks : Nat) (e : Ev) :
    Asks evParts s (raiseTo s hit force ticks e) where
  parts := raiseTo_only s hit force ticks e
  doms x := by
    have hx : (raiseTo s hit force ticks e).doms[x] =
        if hit x then domRaise (evRoom s x) ticks force e s.doms[x] else s.doms[x] := by simp [raiseTo]
    rw [hx]
    split
    · exact domRaise_settled _ _ _ _ _
    · rfl
  path := rfl
  que := evfOffer_unoffered ticks e s.que
  outs := List.suffix_append _ _

theorem raiseDom_asks (s : State) (d : DomN) (force : Bool) (e : Ev) : Asks evParts s (raiseDom s d force e) :=
  raiseTo_asks s _ force (now s) e

theorem raise_asks (s : State) (e : Ev) : Asks evParts s (raise s e) :=
  asks_ite _ (raiseTo_asks s _ false (now s) e) (asks_of_only (aon_frame s _)).widen

/-! ## Requests at the host-memory arbiter -/

theorem setQueue_asks (s : State) (r : Nat) (l : List HReq) : Asks [.hma] s (setQueue s r l) :=
  ⟨setQueue_frame s r l, fun _ => rfl, rfl, rfl, List.suffix_rfl⟩

theorem modDom_asks (s : State) (d : DomN) (f : Dom → Dom) (h : settled (f s.doms[d]) = settled s.doms[d]) :
    Asks [.doms] s (modDom s d f) where
  parts := modDom_frame s d f
  doms x := by
    by_cases hx : x = d
    · subst hx; rw [modDom_self]; exact h
    · rw [modDom_ne s d x f hx]
  path := rfl
  que := rfl
  outs := List.suffix_rfl

theorem feedOne_asks (s : State) (d : DomN) : Asks [.doms, .hma] s (feedOne s d) := by
  unfold feedOne
  dsimp only
  refine asks_ite _ (.refl _ s) ?_
  split
  · exact (modDom_asks s d _ (by rfl)).seq (setQueue_asks _ _ _)
  · exact asks_ite _ (setQueue_asks s _ _).widen (.refl _ s)

theorem tidy_asks (s : State) (r : Nat) : Asks [.doms, .hma] s (tidy s r) := by
  have hset := setQueue_asks s r ((queueOf s r).filter (wanted s))
  unfold tidy
  exact asks_ite _ (hset.seq (forEach_asks _ _ _ fun a _ => feedOne_asks a _)) hset.widen

theorem hmaAsk_asks (s : State) (r : Nat) (q : HReq) : Asks [.doms, .hma] s (hmaAsk s r q) :=
  asks_ite _ (tidy_asks s r) ((tidy_asks s r).seq (setQueue_asks _ r _))

theorem askRead_asks (s : State) (r : Nat) (d : DomN) (u : ReadUse) : Asks [.doms, .hma] s (askRead s r d u) :=
  asks_ite _ (.refl _ s) (hmaAsk_asks s r _)

theorem cmdAsk_asks (s : State) (d : DomN) : Asks [.doms, .hma] s (cmdAsk s d) :=
  asks_ite _ (askRead_asks s _ d _) (.refl _ s)

/-! ## Endpoints -/

theorem modEp_asks (s : State) (k : EpN) (f : Ep → Ep) : Asks [.ln] s (modEp s k f) := asks_of_only (modEp_frame s k f)

theorem completeDesc_asks (s : State) (k : EpN) (d : Desc) (status bytes : Nat) (tag : BitVec 7) (cue late : Bool) :
    Asks evParts s (completeDesc s k d status bytes tag cue late) :=
  asks_ite _ (.refl _ s) (raiseDom_asks s _ _ _)

theorem completeHead_asks (s : State) (k : EpN) (status bytes : Nat) (cue late : Bool) :
    Asks epParts s (completeHead s k status bytes cue late) := by
  unfold completeHead
  split
  · exact .refl _ s
  · exact (modEp_asks s k _).seq (completeDesc_asks _ k _ _ _ _ _ _)

theorem dropBad_asks (s : State) (k : EpN) : Asks epParts s (dropBad s k) :=
  asks_ite _ (completeHead_asks s k _ _ _ _) (.refl _ s)

theorem askDesc_asks (s : State) (k : EpN) : Asks [.doms, .hma] s (askDesc s k) :=
  asks_ite _ (askRead_asks s _ _ _) (.refl _ s)

theorem askData_asks (s : State) (k : EpN) : Asks [.doms, .hma, .ln] s (askData s k) := by
  unfold askData
  dsimp only
  refine asks_ite _ (.refl _ s) ?_
  split
  · exact .refl _ s
  · exact asks_ite _ (modEp_asks s k _).widen (asks_ite _ (askRead_asks s _ _ _).widen
      (asks_ite _ (hmaAsk_asks s _ _).widen (.refl _ s)))

theorem epAsk_asks (s : State) (k : EpN) : Asks epParts s (epAsk s k) := by
  have hdrop : Asks epParts s (if ringRuns s k then dropBad s k else s) := asks_ite _ (dropBad_asks s k) (.refl _ s)
  exact (hdrop.seq (askDesc_asks _ k) (rs := epParts)).seq (askData_asks _ k)

theorem emptyEp_asks (s : State) (k : EpN) : Asks epParts s (emptyEp s k) := (modEp_asks s k emptied).seq (epAsk_asks _ k)

theorem reask_asks (s : State) (d : DomN) : Asks epParts s (reask s d) :=
  (forEach_asks _ _ s fun a k => epAsk_asks a k).seq (cmdAsk_asks _ d)

/-! ## Reads go out (R189, R241) -/

/-- The parts that issuing a read may change. -/
abbrev readParts : List Part := [.aon, .pcie, .doms, .ln, .hma, .que, .out]

theorem sendPmes_issues (s : State) : Issues [.aon, .out] s (sendPmes s) :=
  ⟨sendPmes_frame s, fun _ => rfl, rfl, rfl, List.suffix_append _ _⟩

theorem leaveL1_issues (s : State) : Issues [.aon, .pcie, .out] s (leaveL1 s) := by
  refine issues_ite _ ?_ (.refl _ s)
  have hp : Issues [.pcie] s { s with pcie := { s.pcie with link := .l0, clkReqHi := false } } :=
    ⟨pcie_frame s _, fun _ => rfl, rfl, rfl, List.suffix_rfl⟩
  exact hp.seq (sendPmes_issues _)

theorem emit_issues (s : State) (o : Out) : Issues [.out] s (emit s o) :=
  ⟨out_frame s _, fun _ => rfl, rfl, rfl, List.suffix_cons _ _⟩

theorem toHost_issues (s : State) (o : Out) : Issues [.aon, .pcie, .out] s (toHost s o) :=
  (leaveL1_issues s).seq (emit_issues _ o)

theorem toHost_done (s : State) (o : Out) : o ∈ (toHost s o).out := List.mem_cons_self

theorem hmaDone_issues (s : State) (r : Nat) : Issues [.hma] s (hmaDone s r) :=
  issues_ite _ ⟨hma_frame s _, fun _ => rfl, rfl, rfl, List.suffix_rfl⟩ (.refl _ s)

theorem holdPath_issues (s : State) (r : Nat) (q : HReq) : Issues [.hma] s (holdPath s r q) :=
  ⟨hma_frame s _, fun _ => rfl, rfl, rfl, List.suffix_rfl⟩

theorem bump_issues (s : State) : Issues [] s (bump s) := (asks_of_only (bump_frame s)).issues

theorem noteAsked_asks (s : State) (x : ReadOut) : Asks [.ln] s (noteAsked s x) := by
  unfold noteAsked
  split
  · exact modEp_asks s _ _
  · exact .refl _ s

theorem putRead_issues (s : State) (x : ReadReq) : Issues readParts s (putRead s x) := by
  have hr (u : State) (l : List ReadOut) : Issues [.pcie] u { u with pcie := { u.pcie with reads := l } } :=
    ⟨pcie_frame u _, fun _ => rfl, rfl, rfl, List.suffix_rfl⟩
  exact ((toHost_issues s _).seq (hr _ _) (rs := readParts)).seq (noteAsked_asks _ _).issues

theorem afterRead_asks (s : State) (r : Nat) (q : HReq) : Asks epParts s (afterRead s r q) := by
  unfold afterRead
  split
  · exact (asks_ite (ps := [.hma]) _ (setQueue_asks s r _) (.refl _ s)).seq (reask_asks _ _)
  · exact reask_asks s _
  · exact .refl _ s

theorem grantRead_issues (s : State) (r : Nat) (q : HReq) : Issues readParts s (grantRead s r q) := by
  unfold grantRead
  split
  · exact .refl _ s
  · exact issues_ite _ (((bump_issues s).seq (putRead_issues _ _) (rs := readParts)).seq (afterRead_asks _ r q).issues)
      ((holdPath_issues s r q).seq (bump_issues _))

theorem issueHeld_issues (s : State) : Issues readParts s (issueHeld s) := by
  unfold issueHeld
  refine issues_ite _ (.refl _ s) ?_
  split
  · exact issues_ite _ ((hmaDone_issues s _).seq (grantRead_issues _ _ _)) (.refl _ s)
  · have hl (x : Hma) : Issues [.hma] s { s with hma := x } :=
      ⟨hma_frame s _, fun _ => rfl, rfl, rfl, List.suffix_rfl⟩
    exact ((hl _).seq (toHost_issues _ _) (rs := readParts)).seq (hmaDone_issues _ _)
  · exact .refl _ s

theorem resumeAside_rule (f : State → State) (s : State) :
    resumeAside f s = f s ∨ resumeAside f s = issueHeld (f s) := by
  unfold resumeAside
  dsimp only
  split
  · exact .inr rfl
  · exact .inl rfl

/-- Whether or not a holder of the path goes on. -/
theorem resumeAside_issues (f : State → State) (s : State) : Issues readParts (f s) (resumeAside f s) := by
  rcases resumeAside_rule f s with h | h <;> rw [h]
  · exact .refl _ _
  · exact issueHeld_issues _

theorem Issues.st {ps : List Part} {s t : State} (h : Issues ps s t) (x : DomN) : t.doms[x].st = s.doms[x].st :=
  (congrArg Dom.st (h.doms x) :)

theorem Asks.st {ps : List Part} {s t : State} (h : Asks ps s t) (x : DomN) : t.doms[x].st = s.doms[x].st :=
  (congrArg Dom.st (h.doms x) :)

/-! ## Granted requests end (R246) -/

theorem setHmaPart_issues (s : State) (x : Hma) : Issues [.hma] s { s with hma := x } :=
  ⟨hma_frame s _, fun _ => rfl, rfl, rfl, List.suffix_rfl⟩

theorem issueLast_issues (s : State) (r : Nat) (q : HReq) : Issues issueParts s (issueLast s r q) := by
  unfold issueLast
  cases nextWrite s q with
  | none => exact (hmaDone_issues s r).widen
  | some p => exact (toHost_issues s _).seq (hmaDone_issues _ r)

theorem endGranted_issues (s : State) (d : DomN) : Issues issueParts s (endGranted s d) := by
  have hend (r : Nat) (q : HReq) : Issues issueParts s (endGrant s r q) := by
    unfold endGrant
    split
    · exact (setHmaPart_issues s _).widen
    · exact issueLast_issues s r q
  have hgranted : Issues issueParts s (issueGranted s d) := by
    unfold issueGranted
    split
    · exact issues_ite _ (hend _ _) (.refl _ s)
    · exact .refl _ s
  exact issues_ite _ (hmaDone_issues s 17).widen hgranted

end Sys2Proof.Machine
end

section
/-! PROOF. Resets of the host interface, the link of the endpoint, and messages (O54). -/

namespace Sys2Proof.Machine

open Sys2Proof Sys2Proof.Safety

-- One proof after the other: side by side, the proofs of one text wait for each other in too many threads.
set_option Elab.async false


/-! ## An entry after what logs nothing -/

theorem bbfPush_bbf (q : Que) (e : Entry) : (bbfPush q e).bbf = if q.bbf.length < 16 then q.bbf ++ [e] else q.bbf := by
  unfold bbfPush; split <;> rfl

/-- An entry handed over after operations that have logged nothing and taken no time. -/
theorem bbLink_logs {s u : State} (hb : u.que.bbf = s.que.bbf) (ht : u.tb = s.tb) (code src : Nat) (w2 w3 : Word) :
    logsLink s (bbLink u code src w2 w3) code src w2 w3 := by
  have hn : now u = now s := congrArg (fun x : Tb => x.time.toNat) ht
  rw [logsLink, bbLink_bbf, bbfPush_bbf, bbfPush_bbf, hb, hn]

theorem drivePeWake_frame (s : State) : only [.aon] s (drivePeWake s) := aon_frame s _

theorem abandonSave_frame (s : State) : only [.wdt] s (abandonSave s) := only_ite _ (wdt_frame s _) (only_refl _ s)

/-! ## The endpoint is reset (R40, R209) -/

theorem hmaClear_rule (s : State) : only [.hma, .que] s (hmaClear s) ∧ (hmaClear s).hma.reqs = Vector.replicate 20 [] ∧
    (hmaClear s).que.watches = [] ∧ (hmaClear s).que.bbf = s.que.bbf :=
  ⟨by intro p hp; cases p <;> first | rfl | exact absurd (by decide) hp, rfl, rfl, rfl⟩

/-- Every domain taken apart, and the path cleared. -/
def hostEnded (s : State) (cause : Nat) : State := abandonSave (hmaClear (teardownAll s cause))

/-- The endpoint's registers after its reset. -/
def endpointAfter (sticky : Bool) (p : Pcie) : Pcie :=
  { Pcie.reset with fns := if sticky then p.fns.map fnSticky else Pcie.reset.fns }

theorem pcieReset_eq (s : State) (sticky : Bool) (cause w : Nat) :
    pcieReset s sticky cause w = drivePeWake (bbLink
      { hostEnded s cause with pcie := endpointAfter sticky (hostEnded s cause).pcie } 0x52 0 (w16 w) 0#16) := rfl

/-- The parts that a reset of the endpoint may change. -/
abbrev hostParts : List Part := [.wdt, .bb, .mtr, .aon, .pcie, .doms, .ln, .hma, .ula, .que, .bus, .out]

/-- What ends at a reset of the endpoint: its domains, and what they had asked for. -/
structure HostEnds (s t : State) : Prop where
  parts : only hostParts s t
  torn : ∀ d : DomN, s.doms[d].st ≠ .off → t.doms[d].st = .teardown
  reqs : t.hma.reqs = Vector.replicate 20 []
  watches : t.que.watches = []
  bus : t.bus = { s.bus with inbox := t.bus.inbox }

theorem hostEnded_ends (s : State) (cause : Nat) : HostEnds s (hostEnded s cause) ∧
    (hostEnded s cause).que.bbf = s.que.bbf ∧ (hostEnded s cause).pcie = (teardownAll s cause).pcie := by
  have hy := teardownAll_yields s cause
  obtain ⟨hc, hreqs, hwatch, hbbf⟩ := hmaClear_rule (teardownAll s cause)
  have ha := abandonSave_frame (hmaClear (teardownAll s cause))
  have hlast : only [.wdt, .hma, .que] (teardownAll s cause) (hostEnded s cause) := hc.seq ha
  have hdoms : (hostEnded s cause).doms = (teardownAll s cause).doms := hlast .doms (by decide)
  have hque : (hostEnded s cause).que = (hmaClear (teardownAll s cause)).que := ha .que (by decide)
  have hhma : (hostEnded s cause).hma = (hmaClear (teardownAll s cause)).hma := ha .hma (by decide)
  have hbus : (hostEnded s cause).bus = (teardownAll s cause).bus := hlast .bus (by decide)
  refine ⟨⟨hy.parts.seq hlast, fun d hd => ?_, ?_, ?_, ?_⟩, ?_, hlast .pcie (by decide)⟩
  · rw [hdoms]; exact teardownAll_st s cause d hd
  · rw [hhma, hreqs]
  · rw [hque, hwatch]
  · rw [hbus]; exact hy.bus
  · rw [hque, hbbf, hy.bbf]

theorem pcieReset_rule (s : State) (sticky : Bool) (cause w : Nat) :
    HostEnds s (pcieReset s sticky cause w) ∧ logsLink s (pcieReset s sticky cause w) 0x52 0 (w16 w) 0#16 ∧
    (pcieReset s sticky cause w).pcie = endpointAfter sticky (teardownAll s cause).pcie ∧
    (pcieReset s sticky cause w).rst = s.rst := by
  obtain ⟨he, hbbf, hpcie⟩ := hostEnded_ends s cause
  generalize hu : hostEnded s cause = u at he hbbf hpcie
  have hp := pcie_frame u (endpointAfter sticky u.pcie)
  have hl := bbLink_only { u with pcie := endpointAfter sticky u.pcie } 0x52 0 (w16 w) 0#16
  have hd := drivePeWake_frame (bbLink { u with pcie := endpointAfter sticky u.pcie } 0x52 0 (w16 w) 0#16)
  rw [pcieReset_eq, hu]
  have hwatch : (bbLink { u with pcie := endpointAfter sticky u.pcie } 0x52 0 (w16 w) 0#16).que.watches = u.que.watches := by
    unfold bbLink bbfPush
    dsimp only
    split <;> (try split) <;> rfl
  have hparts : only hostParts u (drivePeWake (bbLink { u with pcie := endpointAfter sticky u.pcie } 0x52 0 (w16 w) 0#16)) :=
    (hp.seq hl (rs := hostParts)).seq hd
  refine ⟨⟨only_trans _ _ _ _ he.parts hparts, fun d hd => he.torn d hd, ?_, hwatch.trans he.watches, he.bus⟩, ?_, ?_, ?_⟩
  · exact he.reqs
  · exact bbLink_logs hbbf (he.parts .tb (by decide)) _ _ _ _
  · exact congrArg (endpointAfter sticky) hpcie
  · exact he.parts .rst (by decide)

/-! ## PE_PERST_N (R40, R44) -/

theorem epStrap_of_epUp {s : State} (h : epUp s = true) : epStrap s = true := by
  simp only [epUp, Bool.and_eq_true] at h
  exact h.1

/-- PE_PERST_N falls on an endpoint that is up. -/
theorem exec_perstAssert {s : State} (hp : s.rst.por = false) (hu : epUp s = true) :
    exec .perstAssert s = .next (perstFall s) := by
  have hb : (s.rst.por || !epStrap s) = false := by rw [hp, epStrap_of_epUp hu]; rfl
  have hrow : (if (s.rst.por || !epStrap s) = true then { s with rst := { s.rst with perst := true } }
      else whenDo (epUp s) perstFall s) = perstFall s := by
    rw [hb, if_neg Bool.false_ne_true, whenDo_holds hu]
  exact congrArg Host.Outcome.next hrow

theorem perst_rows (s : State) :
    ((s.rst.por = true ∨ epStrap s = false) →
      ∃ t, exec .perstAssert s = .next t ∧ t.rst = { s.rst with perst := true } ∧ only [.rst] s t) ∧
    (s.rst.por = false → epStrap s = true → epUp s = false → exec .perstAssert s = .next s) ∧
    (epUp s = true → linkHeld s = true →
      ∃ t, exec .perstAssert s = .next t ∧
        t.rst = { s.rst with perst := true, cause := s.rst.cause ||| 0x0008#16 } ∧ t.pcie = Pcie.reset ∧
        t.hma.reqs = Vector.replicate 20 [] ∧ t.que.watches = [] ∧
        (∀ d : DomN, s.doms[d].st ≠ .off → t.doms[d].st = .teardown) ∧ logsLink s t 0x52 0 1#16 0#16 ∧
        t.bus = { s.bus with inbox := t.bus.inbox } ∧
        only [.rst, .wdt, .bb, .mtr, .aon, .pcie, .doms, .ln, .hma, .ula, .que, .bus, .out] s t) ∧
    (s.rst.por = false → epUp s = true → linkHeld s = false →
      ∃ t, exec .perstAssert s = .next t ∧
        t.rst = { s.rst with perst := true, cause := s.rst.cause ||| 0x0008#16 } ∧ t.pcie = Pcie.reset ∧
        only [.rst, .aon, .pcie] s t) := by
  refine ⟨fun h => ?_, fun hp hs hu => ?_, fun hu hh => ?_, fun hp hu hh => ?_⟩
  · have hb : (s.rst.por || !epStrap s) = true := by rcases h with h | h <;> simp [h]
    exact ⟨_, congrArg Host.Outcome.next (if_pos hb), rfl, rst_frame s _⟩
  · have hb : ¬ (s.rst.por || !epStrap s) = true := by simp [hp, hs]
    exact congrArg Host.Outcome.next ((if_neg hb).trans (whenDo_fails hu))
  · have hp : s.rst.por = false := by
      simp only [linkHeld, Bool.and_eq_true, Bool.not_eq_true'] at hh
      exact hh.1.2
    obtain ⟨he, hlog, hpcie, hrst⟩ := pcieReset_rule s false 5 1
    have hfall : perstFall s = { pcieReset s false 5 1 with rst := { (pcieReset s false 5 1).rst with
        perst := true, cause := (pcieReset s false 5 1).rst.cause ||| 0x0008#16 } } := by
      unfold perstFall
      rw [if_pos hh]
    generalize pcieReset s false 5 1 = u at he hlog hpcie hrst hfall
    refine ⟨_, (exec_perstAssert hp hu).trans (congrArg Host.Outcome.next hfall), ?_, hpcie, he.reqs, he.watches,
      he.torn, hlog, he.bus, he.parts.seq (rst_frame u _)⟩
    rw [hrst]
  · have hfall : perstFall s = { drivePeWake { s with pcie := Pcie.reset } with rst :=
        { s.rst with perst := true, cause := s.rst.cause ||| 0x0008#16 } } := by
      unfold perstFall
      rw [hh, if_neg Bool.false_ne_true]
      rfl
    refine ⟨_, (exec_perstAssert hp hu).trans (congrArg Host.Outcome.next hfall), rfl, rfl, ?_⟩
    exact ((pcie_frame s _).seq (drivePeWake_frame _) (rs := [.rst, .aon, .pcie])).seq (rst_frame _ _)

/-! ## A hot reset (R40) -/

theorem endpointAfter_sticky (p : Pcie) (d : DomN) : (endpointAfter true p).fns[d] = fnSticky p.fns[d] := by
  simp [endpointAfter]

theorem hotReset_rows (b : Bool) (s : State) (hl : linkOn s = true) :
    (epUp s = true →
      ∃ t, exec (.hotReset b) s = .next t ∧
        (∀ d : DomN, t.pcie.fns[d].aerUnc = s.pcie.fns[d].aerUnc ∧ t.pcie.fns[d].bme = false ∧
          t.pcie.fns[d].msixEn = false ∧ (s.doms[d].st ≠ .off → t.doms[d].st = .teardown)) ∧
        t.pcie.bar0 = 0 ∧ t.pcie.vfe = false ∧ t.hma.reqs = Vector.replicate 20 [] ∧
        logsLink s t 0x52 0 (if b then 3#16 else 2#16) 0#16 ∧ t.bus = { s.bus with inbox := t.bus.inbox } ∧
        only [.wdt, .bb, .mtr, .aon, .pcie, .doms, .ln, .hma, .ula, .que, .bus, .out] s t) ∧
    (epUp s = false → exec (.hotReset b) s = .next s) := by
  refine ⟨fun hu => ?_, fun hu => onLink_eq hl (whenDo_fails hu)⟩
  obtain ⟨he, hlog, hpcie, -⟩ := pcieReset_rule s true 6 (if b then 3 else 2)
  have hy := teardownAll_yields s 6
  have hfn (d : DomN) : (pcieReset s true 6 (if b then 3 else 2)).pcie.fns[d] = fnSticky (teardownAll s 6).pcie.fns[d] := by
    rw [hpcie, endpointAfter_sticky]
  have hw : w16 (if b then 3 else 2) = if b then 3#16 else 2#16 := by cases b <;> rfl
  refine ⟨_, onLink_eq hl (whenDo_holds hu), fun d => ⟨?_, ?_, ?_, he.torn d⟩, ?_, ?_, he.reqs, hw ▸ hlog, he.bus, he.parts⟩
  · rw [hfn, hy.fns d]; rfl
  · rw [hfn]; rfl
  · rw [hfn]; rfl
  · rw [hpcie]; rfl
  · rw [hpcie]; rfl

/-! ## Function-level resets (R209, R245) -/

/-- The endpoint's registers after an FLR on the PF. -/
def pfAfter (p : Pcie) : Pcie := { p with numVfs := 0, vfMse := false, bar0 := 0, bar2 := 0, vfBar0 := 0, cto := 200 }

/-- A function after an FLR: the PF keeps Max_Payload_Size. -/
def fnAfter (torn pf : Bool) (f : Fn) : Fn :=
  { fnSticky f with mps := if pf then f.mps else Fn.reset.mps, flr := torn }

/-- The domains of every function taken apart, and the save abandoned. -/
def pfEnded (s : State) : State := abandonSave (vfsGone (teardown s 0 3) 3)

theorem flrPf_eq (s : State) : flrPf s =
    bbLink { pfEnded s with pcie := pfAfter (modFn (pfEnded s) 0
      (fnAfter (decide ((pfEnded s).doms[(0 : DomN)].st = .teardown)) true)).pcie } 0x53 0 0#16 0#16 := rfl

theorem pfEnded_rule (s : State) : Sheds s (pfEnded s) ∧ (pfEnded s).pcie.vfe = false ∧
    (s.doms[(0 : DomN)].st ≠ .off → (pfEnded s).doms[(0 : DomN)].st = .teardown) := by
  obtain ⟨hsheds, hvfe, -⟩ := vfsGone_rule (teardown s 0 3) 3
  have hsave (u : State) : Yields tearParts u (abandonSave u) := (yields_of_only (abandonSave_frame u)).widen
  have hfirst := (teardown_yields s 0 3).sheds
  refine ⟨(hfirst.seq hsheds).seq (hsave _).sheds, ?_, fun h => ?_⟩
  · exact (congrArg Pcie.vfe (abandonSave_frame (vfsGone (teardown s 0 3) 3) .pcie (by decide))).trans hvfe
  · exact (hsave _).torn (hsheds.torn (teardown_st s 0 3 h))

/-- The registers that an FLR on the PF leaves. -/
theorem flrPf_rule (s : State) :
    (flrPf s).pcie.fns[(0 : DomN)].bme = false ∧
    (flrPf s).pcie.fns[(0 : DomN)].mps = s.pcie.fns[(0 : DomN)].mps ∧
    (flrPf s).pcie.fns[(0 : DomN)].aerUnc = s.pcie.fns[(0 : DomN)].aerUnc ∧ (flrPf s).pcie.vfe = false ∧
    (flrPf s).pcie.numVfs = 0 ∧ (flrPf s).pcie.bar0 = 0 ∧
    (s.doms[(0 : DomN)].st ≠ .off → (flrPf s).doms[(0 : DomN)].st = .teardown) ∧
    (flrPf s).bus = { s.bus with inbox := (flrPf s).bus.inbox } ∧ only hostParts s (flrPf s) := by
  obtain ⟨hsheds, hvfe, htorn⟩ := pfEnded_rule s
  have heq := flrPf_eq s
  generalize pfEnded s = u at hsheds hvfe htorn heq
  rw [heq]
  generalize decide (u.doms[(0 : DomN)].st = .teardown) = b
  have hfn : (pfAfter (modFn u 0 (fnAfter b true)).pcie).fns[(0 : DomN)] = fnAfter b true u.pcie.fns[(0 : DomN)] :=
    modFn_self u 0 _
  have hp := pcie_frame u (pfAfter (modFn u 0 (fnAfter b true)).pcie)
  have hl := bbLink_only { u with pcie := pfAfter (modFn u 0 (fnAfter b true)).pcie } 0x53 0 0#16 0#16
  refine ⟨(congrArg Fn.bme hfn).trans rfl, ?_, ?_, hvfe, rfl, rfl, htorn, hsheds.bus,
    (hsheds.parts.seq hp (rs := hostParts)).seq hl⟩
  · exact (congrArg Fn.mps hfn).trans ((congrArg Fn.mps hsheds.pf).trans rfl)
  · exact (congrArg Fn.aerUnc hfn).trans ((congrArg Fn.aerUnc hsheds.pf).trans rfl)

theorem flrPf_row (s : State) (h : cfgReaches s 0) :
    ∃ t, exec .flrPf s = .next t ∧ t.pcie.fns[(0 : DomN)].bme = false ∧
      t.pcie.fns[(0 : DomN)].mps = s.pcie.fns[(0 : DomN)].mps ∧
      t.pcie.fns[(0 : DomN)].aerUnc = s.pcie.fns[(0 : DomN)].aerUnc ∧ t.pcie.vfe = false ∧ t.pcie.numVfs = 0 ∧
      t.pcie.bar0 = 0 ∧ (s.doms[(0 : DomN)].st ≠ .off → t.doms[(0 : DomN)].st = .teardown) ∧
      t.bus = { s.bus with inbox := t.bus.inbox } ∧
      only [.wdt, .bb, .mtr, .aon, .pcie, .doms, .ln, .hma, .ula, .que, .bus, .out] s t := by
  have hi := resumeAside_issues (onCfg 0 flrPf) s
  rw [onCfg_done h flrPf] at hi
  obtain ⟨hbme, hmps, haer, hvfe, hnum, hbar, htorn, hbus, hparts⟩ := flrPf_rule (emit s (.completion 0 []))
  have hfns : (resumeAside (onCfg 0 flrPf) s).pcie.fns = (flrPf (emit s (.completion 0 []))).pcie.fns :=
    (congrArg Pcie.fns hi.pcie :)
  have hb : (resumeAside (onCfg 0 flrPf) s).bus = (flrPf (emit s (.completion 0 []))).bus := hi.parts .bus (by decide)
  refine ⟨_, onLink_eq h.1 rfl, ?_, ?_, ?_, ?_, ?_, ?_, fun hs => (hi.st 0).trans (htorn hs), ?_,
    ((out_frame s _).seq hparts (rs := hostParts)).seq hi.parts⟩
  · rw [hfns]; exact hbme
  · rw [hfns]; exact hmps
  · rw [hfns]; exact haer
  · exact (congrArg Pcie.vfe hi.pcie :).trans hvfe
  · exact (congrArg Pcie.numVfs hi.pcie :).trans hnum
  · exact (congrArg Pcie.bar0 hi.pcie :).trans hbar
  · rw [hb]; exact hbus

/-- Of the functions a teardown touches none but the domain's own. -/
theorem teardown_fns (s : State) {d x : DomN} (hx : x ≠ d) (cause : Nat) :
    (teardown s d cause).pcie.fns[x] = s.pcie.fns[x] := by
  unfold teardown
  split
  case h_1 =>
    split
    · have hpre : (domSettle (arbRelease (handBack s d) d) d cause).pcie = s.pcie := by
        have hset (u : State) : (domSettle u d cause).pcie = u.pcie := by unfold domSettle; split <;> rfl
        rw [hset, (arbRelease_frame _ d) .pcie (by decide), (handBack_yields s d).parts .pcie (by decide)]
      exact (modFn_ne _ d x _ hx).trans (congrArg (fun p : Pcie => p.fns[x]) hpre)
    · rfl
  case h_2 => rfl
  case h_3 =>
    have hissued : (endGranted s d).pcie.fns = s.pcie.fns := (congrArg Pcie.fns (endGranted_issues s d).pcie :)
    have hhost : only [.doms, .hma, .que] (endGranted s d) (tearHost s d cause) :=
      ((dropWatches_yields (endGranted s d) d).parts.seq (modDom_frame _ d (tearDom cause (now s)))
        (rs := [.doms, .hma, .que])).seq (dropAll_yields _ d).parts
    have hlocal := tearLocal_frame (tearHost s d cause) d
    have hserve := (serveOthers_yields (tearLocal (tearHost s d cause) d)).parts
    have hpcie : (tearBegin s d cause).pcie = (endGranted s d).pcie :=
      (congrArg State.pcie (tearBegin_eq s d cause)).trans
        (((hserve .pcie (by decide)).trans (hlocal .pcie (by decide))).trans (hhost .pcie (by decide)))
    exact (congrArg (fun p : Pcie => p.fns[x]) hpcie).trans (congrArg (fun v : Vector Fn 8 => v[x]) hissued)

theorem flrVf_eq (s : State) (d : DomN) : flrVf s d =
    bbLink (modFn (teardown s d 2) d (fnAfter (decide ((teardown s d 2).doms[d].st = .teardown)) false))
      0x53 d.val 0#16 0#16 := rfl

theorem flrVf_rule (s : State) (d : DomN) :
    (flrVf s d).pcie.fns[d].bme = false ∧ (flrVf s d).pcie.fns[d].aerUnc = s.pcie.fns[d].aerUnc ∧
    (s.doms[d].st ≠ .off → (flrVf s d).doms[d].st = .teardown) ∧
    (∀ x : DomN, x ≠ d → (flrVf s d).pcie.fns[x] = s.pcie.fns[x]) ∧
    (flrVf s d).bus = { s.bus with inbox := (flrVf s d).bus.inbox } ∧ only hostParts s (flrVf s d) := by
  have hy := teardown_yields s d 2
  have htorn := teardown_st s d 2
  have hothers {x : DomN} (hx : x ≠ d) := teardown_fns s hx 2
  rw [flrVf_eq]
  generalize teardown s d 2 = u at hy htorn hothers
  generalize decide (u.doms[d].st = .teardown) = b
  have hm := modFn_frame u d (fnAfter b false)
  have hl := bbLink_only (modFn u d (fnAfter b false)) 0x53 d.val 0#16 0#16
  have hfn : (modFn u d (fnAfter b false)).pcie.fns[d] = fnAfter b false u.pcie.fns[d] := modFn_self u d _
  refine ⟨(congrArg Fn.bme hfn).trans rfl, ?_, htorn, fun x hx => ?_, hy.bus,
    (hy.parts.seq hm (rs := hostParts)).seq hl⟩
  · exact (congrArg Fn.aerUnc hfn).trans ((congrArg Fn.aerUnc (hy.fns d)).trans rfl)
  · exact (modFn_ne u d x _ hx).trans (hothers hx)

theorem flrVf_row (v : VfN) (s : State) (h : cfgReaches s (vfDom v)) :
    ∃ t, exec (.flrVf v) s = .next t ∧ t.pcie.fns[vfDom v].bme = false ∧
      t.pcie.fns[vfDom v].aerUnc = s.pcie.fns[vfDom v].aerUnc ∧
      (s.doms[vfDom v].st ≠ .off → t.doms[vfDom v].st = .teardown) ∧
      (∀ d : DomN, d ≠ vfDom v → t.pcie.fns[d] = s.pcie.fns[d]) ∧
      t.bus = { s.bus with inbox := t.bus.inbox } ∧
      only [.wdt, .bb, .mtr, .aon, .pcie, .doms, .ln, .hma, .ula, .que, .bus, .out] s t := by
  obtain ⟨hbme, haer, htorn, hothers, hbus, hparts⟩ := flrVf_rule (emit s (.completion (vfDom v) [])) (vfDom v)
  exact ⟨_, onLink_onCfg h _, hbme, haer, htorn, hothers, hbus, (out_frame s _).seq hparts⟩

/-! ## Errors (R205, R206) -/

theorem logHeader_aerUnc (b : Nat) (hdr : BitVec 128) (f : Fn) : (logHeader b hdr f).aerUnc = f.aerUnc := by
  unfold logHeader; split <;> rfl

theorem aerFn_aerUnc (b : Nat) (adv : Bool) (hdr : BitVec 128) (f : Fn) :
    (aerFn b adv hdr f).aerUnc = f.aerUnc ||| (1#32 <<< b) := by
  unfold aerFn
  dsimp only
  split
  · rfl
  · rw [logHeader_aerUnc]

theorem sendErr_frame (s : State) (d : DomN) (m : Option ErrMsg) : only [.out] s (sendErr s d m) := by
  unfold sendErr
  split
  · exact out_frame s _
  · exact only_refl _ s

theorem aerLog_frame (s : State) (d : DomN) (b : Nat) (adv : Bool) : only [.pcie, .out] s (aerLog s d b adv) :=
  ((modFn_frame s d _).seq (bump_frame _) (rs := [.pcie, .out])).seq (sendErr_frame _ d _)

/-- An error is logged in its function. -/
theorem aerLog_logs (s : State) (d : DomN) (b : Nat) (adv : Bool) :
    (aerLog s d b adv).pcie.fns[d].aerUnc = s.pcie.fns[d].aerUnc ||| (1#32 <<< b) := by
  let u := bump (modFn s d (aerFn b adv (Config.tlpHeader s.fresh)))
  have hp : (aerLog s d b adv).pcie = u.pcie := sendErr_frame u d _ .pcie (by decide)
  have hu : u.pcie.fns[d] = aerFn b adv (Config.tlpHeader s.fresh) s.pcie.fns[d] := modFn_self s d _
  rw [hp, hu, aerFn_aerUnc]

/-- And reported, unless one of the masks keeps the message back. -/
theorem aerLog_silent {s : State} {d : DomN} {b : Nat} {adv : Bool}
    (h : uncMsg b adv s.pcie.fns[(0 : DomN)] s.pcie.fns[d] = none) : (aerLog s d b adv).out = s.out := by
  unfold aerLog
  rw [h]
  rfl

theorem aerLog_reports {s : State} {d : DomN} {b : Nat} {adv : Bool} {k : ErrMsg}
    (h : uncMsg b adv s.pcie.fns[(0 : DomN)] s.pcie.fns[d] = some k) :
    (aerLog s d b adv).out = .errMsg d k :: s.out := by
  unfold aerLog
  rw [h]
  rfl

theorem uncMsg_masked {b : Nat} {f : Fn} (h : f.aerUncMask.getLsbD b = true) (adv : Bool) (pf : Fn) :
    uncMsg b adv pf f = none := if_pos h

/-- A fatal error of a function is reported where SERR# Enable is set. -/
theorem uncMsg_fatal {b : Nat} {f pf : Fn} (hm : f.aerUncMask.getLsbD b = false) (hs : f.aerUncSev.getLsbD b = true)
    (he : pf.serr = true) (adv : Bool) : uncMsg b adv pf f = some .fatal := by
  simp [uncMsg, isAdvisory, hm, hs, he]

theorem aerLog_fatal {s : State} {d : DomN} {b : Nat} (hm : s.pcie.fns[d].aerUncMask.getLsbD b = false)
    (hs : s.pcie.fns[d].aerUncSev.getLsbD b = true) (he : s.pcie.fns[(0 : DomN)].serr = true) (adv : Bool) :
    .errMsg d .fatal ∈ (aerLog s d b adv).out := by
  rw [aerLog_reports (uncMsg_fatal hm hs he adv)]
  exact List.mem_cons_self

/-! ## The link of the endpoint (R185, R191, R208) -/

theorem sendPmes_done (s : State) (d : DomN) (h : s.aon.pmeDue[d] = true) : .pme d ∈ (sendPmes s).out := by
  refine List.mem_append_left _ (List.mem_reverse.mpr (List.mem_map.mpr ⟨d, ?_, rfl⟩))
  exact List.mem_filter.mpr ⟨mem_domAll d, h⟩

/-- PCIe reaches L0, with the width and the rate that the training found. -/
def reachedL0 (s : State) : State :=
  { bump s with
    pcie := { s.pcie with link := .l0, clkReqHi := false, x1 := Config.linkX1 s.fresh, gen1 := Config.linkGen1 s.fresh }
    aon := { s.aon with peWake := false } }

theorem reachedL0_frame (s : State) : only [.aon, .pcie] s (reachedL0 s) := by
  intro p hp; cases p <;> first | rfl | exact absurd (by decide) hp

theorem link_rows (s : State) (hl : linkOn s = true) :
    (epUp s = true → s.glob.cfgBusy = false →
      ∃ t, exec .pcieConfigReady s = .next t ∧ t.pcie = { s.pcie with ready := true } ∧ only [.pcie] s t) ∧
    ((epUp s = false ∨ s.glob.cfgBusy = true) → exec .pcieConfigReady s = .next s) ∧
    (epUp s = true → s.pcie.aspmL1 = true → s.pcie.link = .l0 → s.pcie.reads = [] → hostWork s = false →
      ∃ t, exec .l1Entry s = .next t ∧ t.pcie = { s.pcie with link := .l1, clkReqHi := s.pcie.clkPm } ∧
        only [.pcie] s t) ∧
    (hostWork s = true → exec .l1Entry s = .next s) ∧
    (s.pcie.link = .l1 →
      ∃ t, exec .l1Exit s = .next t ∧ t.pcie = { s.pcie with link := .l0, clkReqHi := false } ∧
        (∀ d : DomN, s.aon.pmeDue[d] = true → .pme d ∈ t.out) ∧ only [.aon, .pcie, .out] s t) ∧
    (s.pcie.link ≠ .l1 → exec .l1Exit s = .next s) ∧
    (epUp s = true →
      ∃ t, exec .pcieL0Reached s = .next t ∧
        t.pcie = { s.pcie with link := .l0, clkReqHi := false, x1 := t.pcie.x1, gen1 := t.pcie.gen1 } ∧ t.aon.peWake = false ∧
        only [.aon, .pcie, .out] s t) ∧
    (epUp s = true →
      ∃ t, exec .unexpectedCompletion s = .next t ∧
        t.pcie.fns[(0 : DomN)].aerUnc = (s.pcie.fns[(0 : DomN)].aerUnc ||| (1#32 <<< 16)) ∧
        (s.pcie.fns[(0 : DomN)].aerUncMask.getLsbD 16 = true → t.out = s.out) ∧ only [.pcie, .out] s t) := by
  refine ⟨fun hu hc => ⟨_, onLink_eq hl (whenDo_holds (by simp [hu, hc])), rfl, pcie_frame s _⟩,
    fun h => onLink_eq hl (whenDo_fails (by rcases h with h | h <;> simp [h])),
    fun hu ha hk hr hw => ⟨_, onLink_eq hl (whenDo_holds (by simp [hu, ha, hk, hr, hw])), rfl, pcie_frame s _⟩,
    fun hw => onLink_eq hl (whenDo_fails (by simp [hw])), fun hk => ?_, fun hk => onLink_eq hl (if_neg hk), fun hu => ?_,
    fun hu => ?_⟩
  · have hleave : leaveL1 s = sendPmes { s with pcie := { s.pcie with link := .l0, clkReqHi := false } } := if_pos hk
    exact ⟨_, onLink_eq hl hleave, rfl, fun d hd => sendPmes_done _ d hd, (pcie_frame s _).seq (sendPmes_frame _)⟩
  · have hrow : exec .pcieL0Reached s = .next (sendPmes (reachedL0 s)) :=
      onLink_eq hl (whenDo_holds (f := fun s => sendPmes (reachedL0 s)) hu)
    exact ⟨_, hrow, rfl, rfl, (reachedL0_frame s).seq (sendPmes_frame _)⟩
  · exact ⟨_, onLink_eq hl (if_pos hu), aerLog_logs s 0 16 true, fun hm => aerLog_silent (uncMsg_masked hm true _),
      aerLog_frame s 0 16 true⟩

theorem d3_rows (d : DomN) (s : State) (h : cfgReaches s d) :
    (∃ t, exec (.d3hotEntry d) s = .next t ∧ t.pcie.fns[d] = { s.pcie.fns[d] with d3 := true } ∧
      only [.pcie, .out] s t) ∧
    (∃ t, exec (.d0Return d) s = .next t ∧ t.pcie.fns[d] = { s.pcie.fns[d] with d3 := false } ∧
      only [.pcie, .doms, .out] s t) := by
  have hout := out_frame s (.completion d [] :: s.out)
  refine ⟨⟨_, onLink_onCfg h _, modFn_self _ d _, hout.seq (modFn_frame _ d _)⟩, ⟨_, onLink_onCfg h _, ?_⟩⟩
  unfold d0Return
  split
  case isTrue h3 =>
    obtain ⟨hparts, -⟩ := releaseMsgs_rule (modFn (emit s (.completion d [])) d fun f => { f with d3 := false }) d
    refine ⟨?_, (hout.seq (modFn_frame _ d _) (rs := [.pcie, .out])).seq hparts⟩
    have hp := hparts .pcie (by decide)
    exact (congrArg (fun p : Pcie => p.fns[d]) hp).trans (modFn_self _ d _)
  case isFalse h3 =>
    refine ⟨?_, hout.widen⟩
    have hf : s.pcie.fns[d].d3 = false := Bool.eq_false_iff.mpr h3
    change s.pcie.fns[d] = _
    rw [← hf]

/-! ## Requests that the endpoint does not serve (R190, R205, R207) -/

/-- A row that refuses a request to a function that exists. -/
theorem exec_refused {s t : State} (hl : linkOn s = true) (hu : epUp s = true) {d : DomN}
    (hd : domExists s d = true) {kind : BadRequest} (h : refuseRequest s d kind = t) :
    exec (.memRequestRefused d kind) s = .next t :=
  onLink_eq hl ((whenDo_holds (by rw [hu, hd]; rfl)).trans h)

/-- What the endpoint makes of the three kinds while the window is open, or the kind needs none. -/
theorem refuseRequest_open {s : State} {d : DomN} (h3 : s.pcie.fns[d].d3 = false) :
    refuseRequest s d .unsupported = emit (aerLog s d 20 true) (.badCompletion d true) ∧
    (winOpen s d = true → refuseRequest s d .tooLong = emit (aerLog s d 15 true) (.badCompletion d false)) ∧
    (winOpen s d = true → refuseRequest s d .poisonedWrite = aerLog s d 12 true) ∧
    (winOpen s d = true → refuseRequest s d .bar2Write = s) :=
  ⟨if_neg (by rw [h3]; decide), fun hw => if_pos hw, fun hw => if_pos hw, fun hw => if_pos hw⟩

/-- A closed window of a function in D0. -/
theorem winRefuse_closed {s : State} {d : DomN} (hu : epUp s = true) (hd : domExists s d = true)
    (h3 : s.pcie.fns[d].d3 = false) :
    winRefuse s d true = emit (aerLog s d 20 true) (.badCompletion d true) ∧ winRefuse s d false = aerLog s d 20 false := by
  have hb : ¬ (!epUp s || !domExists s d || s.pcie.fns[d].d3) = true := by rw [hu, hd, h3]; decide
  exact ⟨if_neg hb, if_neg hb⟩

theorem winRefuse_silent {s : State} {d : DomN} (h : domExists s d = false ∨ s.pcie.fns[d].d3 = true) (read : Bool) :
    winRefuse s d read = s := by
  have hb : (!epUp s || !domExists s d || s.pcie.fns[d].d3) = true := by
    rcases h with h | h <;> rw [h] <;> cases epUp s <;> simp
  exact if_pos hb

theorem winOpen_closed {s : State} {d : DomN} (h : domExists s d = false ∨ s.pcie.fns[d].d3 = true) :
    winOpen s d = false := by
  unfold winOpen
  rcases h with h | h <;> rw [h] <;> simp

theorem aerLog_completed (s : State) (d : DomN) (b : Nat) (ur : Bool) :
    let t := emit (aerLog s d b true) (.badCompletion d ur)
    t.pcie.fns[d].aerUnc = (s.pcie.fns[d].aerUnc ||| (1#32 <<< b)) ∧ .badCompletion d ur ∈ t.out ∧
      only [.pcie, .out] s t :=
  ⟨aerLog_logs s d b true, emit_done _ _, (aerLog_frame s d b true).seq (out_frame _ _)⟩

theorem refused_rows (d : DomN) (s : State) (hl : linkOn s = true) (hu : epUp s = true) (hd : domExists s d = true) :
    (∀ k b : Nat, ∀ kind, (k, b, kind) ∈
        [(0, 20, BadRequest.unsupported), (1, 15, .tooLong), (2, 12, .poisonedWrite)] →
      (kind ≠ .unsupported → winOpen s d = true) → s.pcie.fns[d].d3 = false →
      ∃ t, exec (.memRequestRefused d kind) s = .next t ∧ (k ≠ 2 → .badCompletion d (decide (k = 0)) ∈ t.out) ∧
        t.pcie.fns[d].aerUnc = (s.pcie.fns[d].aerUnc ||| (1#32 <<< b)) ∧
        (s.pcie.fns[d].aerUncMask.getLsbD b = false → s.pcie.fns[d].aerUncSev.getLsbD b = true →
          s.pcie.fns[(0 : DomN)].serr = true → .errMsg d .fatal ∈ t.out) ∧
        only [.pcie, .out] s t) ∧
    (winOpen s d = true → exec (.memRequestRefused d .bar2Write) s = .next s) ∧
    (winOpen s d = false → s.pcie.fns[d].d3 = false →
      (∃ t, exec (.memRequestRefused d .tooLong) s = .next t ∧ .badCompletion d true ∈ t.out ∧
        t.pcie.fns[d].aerUnc = (s.pcie.fns[d].aerUnc ||| (1#32 <<< 20)) ∧ only [.pcie, .out] s t) ∧
      (∀ kind, kind = .poisonedWrite ∨ kind = .bar2Write →
        ∃ t, exec (.memRequestRefused d kind) s = .next t ∧
          t.pcie.fns[d].aerUnc = (s.pcie.fns[d].aerUnc ||| (1#32 <<< 20)) ∧ only [.pcie, .out] s t)) ∧
    (s.pcie.fns[d].d3 = true → ∀ kind, (∀ e, kind ≠ .link e) → exec (.memRequestRefused d kind) s = .next s) ∧
    (∃ t, exec (.memRequestRefused d (.link .badTlp)) s = .next t ∧
      t.pcie.fns[(0 : DomN)].aerCor = (s.pcie.fns[(0 : DomN)].aerCor ||| (1#32 <<< 6)) ∧
      (s.pcie.fns[(0 : DomN)].aerCorMask.getLsbD 6 = false → s.pcie.fns[(0 : DomN)].errEn.getLsbD 0 = true →
        .errMsg 0 .cor ∈ t.out) ∧ only [.pcie, .out] s t) := by
  refine ⟨fun k b kind hmem hw h3 => ?_, fun hw => ?_, fun hw h3 => ⟨?_, fun kind hk => ?_⟩, fun h3 kind hk => ?_, ?_⟩
  · obtain ⟨hunsup, hlong, hpoison, -⟩ := refuseRequest_open h3
    simp only [List.mem_cons, Prod.mk.injEq, List.not_mem_nil, or_false] at hmem
    rcases hmem with ⟨rfl, rfl, rfl⟩ | ⟨rfl, rfl, rfl⟩ | ⟨rfl, rfl, rfl⟩
    · obtain ⟨hlog, hbad, hframe⟩ := aerLog_completed s d 20 true
      exact ⟨_, exec_refused hl hu hd hunsup, fun _ => hbad, hlog,
        fun hm hs he => List.mem_cons_of_mem _ (aerLog_fatal hm hs he true), hframe⟩
    · obtain ⟨hlog, hbad, hframe⟩ := aerLog_completed s d 15 false
      exact ⟨_, exec_refused hl hu hd (hlong (hw (by decide))), fun _ => hbad, hlog,
        fun hm hs he => List.mem_cons_of_mem _ (aerLog_fatal hm hs he true), hframe⟩
    · exact ⟨_, exec_refused hl hu hd (hpoison (hw (by decide))), fun h => absurd rfl h, aerLog_logs s d 12 true,
        fun hm hs he => aerLog_fatal hm hs he true, aerLog_frame s d 12 true⟩
  · exact exec_refused hl hu hd (if_pos hw)
  · obtain ⟨hread, -⟩ := winRefuse_closed hu hd h3
    obtain ⟨hlog, hbad, hframe⟩ := aerLog_completed s d 20 true
    exact ⟨_, exec_refused hl hu hd ((if_neg (by simp [hw])).trans hread), hbad, hlog, hframe⟩
  · obtain ⟨-, hwrite⟩ := winRefuse_closed hu hd h3
    have hkind : refuseRequest s d kind = aerLog s d 20 false := by
      rcases hk with rfl | rfl <;> exact (if_neg (by simp [hw])).trans hwrite
    exact ⟨_, exec_refused hl hu hd hkind, aerLog_logs s d 20 false, aerLog_frame s d 20 false⟩
  · have hw := winOpen_closed (s := s) (d := d) (.inr h3)
    have hsilent := winRefuse_silent (s := s) (d := d) (.inr h3)
    refine exec_refused hl hu hd ?_
    cases kind with
    | unsupported => exact if_pos h3
    | tooLong => exact (if_neg (by simp [hw])).trans (hsilent true)
    | poisonedWrite => exact (if_neg (by simp [hw])).trans (hsilent false)
    | bar2Write => exact (if_neg (by simp [hw])).trans (hsilent false)
    | link e => exact absurd rfl (hk e)
  · let u : State := modFn s 0 fun f => { f with aerCor := f.aerCor ||| (1#32 <<< 6), devStat := f.devStat ||| 1#4 }
    have hrow : refuseRequest s d (.link .badTlp) = sendErr u 0
        (if !s.pcie.fns[(0 : DomN)].aerCorMask.getLsbD 6 && s.pcie.fns[(0 : DomN)].errEn.getLsbD 0 then some .cor else none) := rfl
    refine ⟨_, exec_refused hl hu hd hrow, ?_, fun hm he => ?_, (modFn_frame s 0 _).seq (sendErr_frame u 0 _)⟩
    · have hp := sendErr_frame u 0
        (if !s.pcie.fns[(0 : DomN)].aerCorMask.getLsbD 6 && s.pcie.fns[(0 : DomN)].errEn.getLsbD 0 then some .cor else none)
        .pcie (by decide)
      exact (congrArg (fun p : Pcie => p.fns[(0 : DomN)].aerCor) hp).trans (congrArg Fn.aerCor (modFn_self s 0 _))
    · rw [hm, he]
      exact List.mem_cons_self

/-! ## Vectors (R202 to R204) -/

theorem sendMsg_live {s : State} {d : DomN} {v : Nat} (he : s.pcie.fns[d].msixEn = true)
    (hm : vecMasked s d v = false) (hf : fnLive s d = true) : sendMsg s d v = pbaVec (dueMsg s d v) d v false := by
  unfold sendMsg
  rw [he, hm, hf]
  rfl

/-- Entry v of the table is no longer masked, and the domain's other fields stay. -/
theorem clearMask_rule (s : State) (d : DomN) (v : Fin 32) :
    (clearMask s d v).doms[d] = { s.doms[d] with msix := vMod s.doms[d].msix v fun m => { m with mask := false } } :=
  modDom_self s d _

theorem clearMask_entry (s : State) (d : DomN) (v : Fin 32) : (clearMask s d v).doms[d].msix[v].mask = false := by
  rw [clearMask_rule]
  exact congrArg Msix.mask (vMod_get_self _ v _)

theorem Posts.entry {d : DomN} {k : Nat} {s t : State} (h : Posts d k s t) (v : Fin 32) :
    t.doms[d].msix[v] = s.doms[d].msix[v] := by rw [h.table]

theorem gap_rows (d : DomN) (v : Fin 32) (s : State) (hl : linkOn s = true) :
    (s.doms[d].gapRun.getLsbD v.val = false → exec (.gapTimerEnd d v) s = .next s) ∧
    (s.doms[d].gapRun.getLsbD v.val = true → s.doms[d].held.getLsbD v.val = false →
      ∃ t, exec (.gapTimerEnd d v) s = .next t ∧
        t.doms[d] = { s.doms[d] with gapRun := putVec s.doms[d].gapRun v.val false } ∧ domsBut d s t ∧
        only [.doms] s t) ∧
    (s.doms[d].gapRun.getLsbD v.val = true → s.doms[d].held.getLsbD v.val = true → fnLive s d = true →
      s.pcie.fns[d].msixEn = true → vecMasked s d v.val = false →
      ∃ t, exec (.gapTimerEnd d v) s = .next t ∧ t.doms[d].msgs = s.doms[d].msgs ++ [v.val] ∧
        t.doms[d].held = putVec s.doms[d].held v.val false ∧ domsBut d s t ∧ only [.doms] s t) := by
  refine ⟨fun hg => ?_, fun hg hh => ?_, fun hg hh hf he hm => ?_⟩
  · exact onLink_eq hl (if_pos (by rw [hg]; rfl))
  · have hrow : gapEnd s d v.val = gapVec s d v.val false := by
      unfold gapEnd
      rw [hg, hh]
      rfl
    exact ⟨_, onLink_eq hl hrow, modDom_self s d _, domsBut_modDom s d _, modDom_frame s d _⟩
  · have hrow : gapEnd s d v.val = pbaVec (dueMsg (holdVec s d v.val false) d v.val) d v.val false := by
      unfold gapEnd
      rw [hg, hh, hf]
      exact sendMsg_live he (((holdVec_posts s d v.val false).masked v.val).trans hm) hf
    have hposts := ((holdVec_posts s d v.val false).seq (dueMsg_posts _ d v.val)).seq (pbaVec_posts _ d v.val false)
    refine ⟨_, onLink_eq hl hrow, ?_, ?_, hposts.others, hposts.parts⟩ <;>
      rw [pbaVec, modDom_self, dueMsg, modDom_self, holdVec, modDom_self]

theorem unmask_rows (d : DomN) (v : Fin 32) (s : State) (hl : linkOn s = true) :
    (winOpen s d = true → v.val < vecCount d → s.doms[d].pba.getLsbD v.val = false →
      ∃ t, exec (.msixUnmask d (.vector v)) s = .next t ∧ t.doms[d].msix[v].mask = false ∧
        t.doms[d].msgs = s.doms[d].msgs ∧ domsBut d s t ∧ only [.doms] s t) ∧
    (winOpen s d = true → v.val < vecCount d → s.doms[d].pba.getLsbD v.val = true → s.pcie.fns[d].msixEn = true →
      s.pcie.fns[d].fnMask = false → s.doms[d].gapRun.getLsbD v.val = false → fnLive s d = true →
      ∃ t, exec (.msixUnmask d (.vector v)) s = .next t ∧ t.doms[d].msix[v].mask = false ∧
        t.doms[d].msgs = s.doms[d].msgs ++ [v.val] ∧ t.doms[d].pba.getLsbD v.val = false ∧ domsBut d s t ∧
        only [.doms] s t) ∧
    (cfgReaches s d →
      ∃ t, exec (.msixUnmask d .function) s = .next t ∧
        t.pcie.fns[d] = { s.pcie.fns[d] with fnMask := false } ∧ domsBut d s t ∧ only [.pcie, .doms, .out] s t) ∧
    (epUp s = true → domExists s d = true → s.pcie.fns[d].d3 = false → winOpen s d = false →
      ∃ t, exec (.msixUnmask d (.vector v)) s = .next t ∧
        t.pcie.fns[d].aerUnc = (s.pcie.fns[d].aerUnc ||| (1#32 <<< 20)) ∧ t.doms = s.doms ∧
        only [.pcie, .out] s t) ∧
    ((domExists s d = false ∨ s.pcie.fns[d].d3 = true) → exec (.msixUnmask d (.vector v)) s = .next s) := by
  have hopen (hw : winOpen s d = true) (hv : v.val < vecCount d) :
      exec (.msixUnmask d (.vector v)) s = .next (pbaRelease (clearMask s d v) d v.val) :=
    onLink_eq hl ((if_neg (by simp [hw])).trans (whenDo_holds (by simp [hv])))
  have hclear := clearMask_rule s d v
  have hother : domsBut d s (clearMask s d v) := domsBut_modDom s d _
  have hframe : only [.doms] s (clearMask s d v) := modDom_frame s d _
  have hentry := clearMask_entry s d v
  refine ⟨fun hw hv hp => ?_, fun hw hv hp he hfm hg hf => ?_, fun hc => ?_, fun hu hd h3 hw => ?_, fun h => ?_⟩
  · have hrel : pbaRelease (clearMask s d v) d v.val = clearMask s d v := by
      unfold pbaRelease
      rw [hclear, hp]
      rfl
    exact ⟨_, (hopen hw hv).trans (congrArg Host.Outcome.next hrel), hentry, by rw [hclear], hother, hframe⟩
  · have hmask : vecMasked (clearMask s d v) d v.val = false := by
      have hent : (msixEnt (clearMask s d v) d v.val).mask = false := by
        unfold msixEnt
        exact (congrArg Msix.mask (dif_pos v.isLt)).trans hentry
      unfold vecMasked
      rw [hent]
      exact (Bool.or_false _).trans hfm
    let u : State := holdVec (pbaVec (clearMask s d v) d v.val false) d v.val false
    have hu : Posts d v.val (clearMask s d v) u := (pbaVec_posts _ d v.val false).seq (holdVec_posts _ d v.val false)
    have hrel : pbaRelease (clearMask s d v) d v.val = pbaVec (dueMsg u d v.val) d v.val false := by
      have hx := hclear
      unfold pbaRelease
      rw [hmask, hx, hp, show (clearMask s d v).pcie.fns[d].msixEn = true from he, hg]
      exact sendMsg_live he ((hu.masked v.val).trans hmask) hf
    have hposts : Posts d v.val (clearMask s d v) (pbaVec (dueMsg u d v.val) d v.val false) :=
      (hu.seq (dueMsg_posts _ d v.val)).seq (pbaVec_posts _ d v.val false)
    refine ⟨_, (hopen hw hv).trans (congrArg Host.Outcome.next hrel), ?_, ?_, pbaVec_clear _ d v.isLt,
      domsBut.seq hother hposts.others, only_trans _ _ _ _ hframe hposts.parts⟩
    · rw [hposts.entry v]; exact hentry
    · have hmsgs : u.doms[d].msgs = s.doms[d].msgs := by
        rw [show u = holdVec (pbaVec (clearMask s d v) d v.val false) d v.val false from rfl, holdVec, modDom_self, pbaVec,
          modDom_self, hclear]
      rw [pbaVec, modDom_self, dueMsg, modDom_self]
      exact congrArg (· ++ [v.val]) hmsgs
  · obtain ⟨hparts, hothers⟩ := releaseMsgs_rule (modFn (emit s (.completion d [])) d fun f => { f with fnMask := false }) d
    refine ⟨_, onLink_onCfg hc (unmask · d .function), ?_, hothers,
      ((out_frame s _).seq (modFn_frame _ d _) (rs := [.pcie, .out])).seq hparts⟩
    have hp := hparts .pcie (by decide)
    exact (congrArg (fun p : Pcie => p.fns[d]) hp).trans (modFn_self _ d _)
  · obtain ⟨-, hwrite⟩ := winRefuse_closed hu hd h3
    refine ⟨_, onLink_eq hl ((if_pos (by simp [hw])).trans hwrite), aerLog_logs s d 20 false, ?_, aerLog_frame s d 20 false⟩
    exact aerLog_frame s d 20 false .doms (by decide)
  · exact onLink_eq hl ((if_pos (by simp [winOpen_closed h])).trans (winRefuse_silent h false))

/-- Settles O54: it holds. Every reset of the endpoint takes its domains apart by the one teardown, of which `Yields` says
what it leaves; errors are logged by `aerLog`, and messages handled by rules that touch their own domain alone. -/
theorem hostResetsAndLink : Obligations.HostResetsAndLink :=
  ⟨perst_rows, hotReset_rows, flrPf_row, flrVf_row, link_rows, d3_rows, refused_rows, fun d v s hl =>
    let ⟨hquiet, hend, hsend⟩ := gap_rows d v s hl
    ⟨hquiet, hend, hsend, unmask_rows d v s hl⟩⟩

end Sys2Proof.Machine
end

section
/-! SUPPORT. The decisions of the two arbiters: the winner, the books, and what a grant leaves alone. -/

namespace Sys2Proof.Machine

open Sys2Proof Sys2Proof.Safety

-- One proof after the other: side by side, the proofs of one text wait for each other in too many threads.
set_option Elab.async false


/-! ## The winner of a decision (R263) -/

/-- Requester x is no better than r: a lower level, or the same level and no older grant. -/
def notAbove (a : Arb) (lvl : Nat → Nat) (x r : Nat) : Prop :=
  lvl x < lvl r ∨ (lvl x = lvl r ∧ vAt a.gage 0 x ≤ vAt a.gage 0 r)

theorem notAbove_refl (a : Arb) (lvl : Nat → Nat) (r : Nat) : notAbove a lvl r r := .inr ⟨rfl, le_rfl⟩

theorem notAbove_trans {a : Arb} {lvl : Nat → Nat} {x y z : Nat} (h : notAbove a lvl x y) (k : notAbove a lvl y z) :
    notAbove a lvl x z := by
  unfold notAbove at *
  omega

/-- The better of two is one of them, and neither is above it. -/
theorem better_some (a : Arb) (lvl : Nat → Nat) (x r : Nat) : ∃ y, better a lvl (some x) r = some y ∧
    (y = x ∨ y = r) ∧ notAbove a lvl x y ∧ notAbove a lvl r y := by
  unfold better
  dsimp only
  split
  · rename_i h
    refine ⟨r, rfl, .inr rfl, ?_, notAbove_refl a lvl r⟩
    simp only [Bool.or_eq_true, Bool.and_eq_true, decide_eq_true_eq] at h
    unfold notAbove
    omega
  · rename_i h
    refine ⟨x, rfl, .inl rfl, notAbove_refl a lvl x, ?_⟩
    simp only [Bool.or_eq_true, Bool.and_eq_true, decide_eq_true_eq, not_or, not_and, not_lt] at h
    unfold notAbove
    omega

/-- The best of a list that a candidate is compared with. -/
theorem foldl_better (a : Arb) (lvl : Nat → Nat) (l : List Nat) (x : Nat) : ∃ y,
    l.foldl (better a lvl) (some x) = some y ∧ (y = x ∨ y ∈ l) ∧ notAbove a lvl x y ∧ ∀ z ∈ l, notAbove a lvl z y := by
  induction l generalizing x with
  | nil => exact ⟨x, rfl, .inl rfl, notAbove_refl a lvl x, fun z hz => absurd hz List.not_mem_nil⟩
  | cons r l ih =>
    obtain ⟨b, hb, hbm, hxb, hrb⟩ := better_some a lvl x r
    obtain ⟨y, hy, hym, hby, hl⟩ := ih b
    refine ⟨y, by rw [List.foldl_cons, hb, hy], ?_, notAbove_trans hxb hby, fun z hz => ?_⟩
    · rcases hym with rfl | hm
      · rcases hbm with rfl | rfl
        · exact .inl rfl
        · exact .inr List.mem_cons_self
      · exact .inr (List.mem_cons_of_mem _ hm)
    · rcases List.mem_cons.mp hz with rfl | hz
      · exact notAbove_trans hrb hby
      · exact hl z hz

/-- The best of a list: none of an empty one, else a member that no other is above. -/
theorem foldl_better_none (a : Arb) (lvl : Nat → Nat) (l : List Nat) :
    (l.foldl (better a lvl) none = none → l = []) ∧
    ∀ r, l.foldl (better a lvl) none = some r → r ∈ l ∧ ∀ z ∈ l, notAbove a lvl z r := by
  cases l with
  | nil => exact ⟨fun _ => rfl, fun r h => by cases h⟩
  | cons x l =>
    obtain ⟨y, hy, hym, hxy, hl⟩ := foldl_better a lvl l x
    have hfold : (x :: l).foldl (better a lvl) none = some y := hy
    rw [hfold]
    refine ⟨fun h => absurd h (by simp), fun r h => ?_⟩
    obtain rfl := Option.some.inj h
    refine ⟨?_, fun z hz => ?_⟩
    · rcases hym with rfl | hm
      · exact List.mem_cons_self
      · exact List.mem_cons_of_mem _ hm
    · rcases List.mem_cons.mp hz with rfl | hz
      · exact hxy
      · exact hl z hz

theorem winner_slot {a : Arb} {elig : Nat → Bool} {r : Nat} (ho : slotOwner (slotAt a a.ptr) = some r)
    (he : elig r = true) (n : Nat) (lvl : Nat → Nat) : winner a n elig lvl = some r := by
  unfold winner
  rw [ho, Option.filter_some, if_pos he]

theorem winner_open {a : Arb} {elig : Nat → Bool} (h : ∀ r, slotOwner (slotAt a a.ptr) = some r → elig r = false)
    (n : Nat) (lvl : Nat → Nat) :
    winner a n elig lvl = ((List.range n).filter elig).foldl (better a lvl) none := by
  have hf : (slotOwner (slotAt a a.ptr)).filter elig = none := by
    cases ho : slotOwner (slotAt a a.ptr) with
    | none => rfl
    | some r => rw [Option.filter_some, h r ho]; rfl
  unfold winner
  rw [hf]

/-- Whoever wins is eligible. -/
theorem winner_elig {a : Arb} {n : Nat} {elig : Nat → Bool} {lvl : Nat → Nat} {r : Nat}
    (h : winner a n elig lvl = some r) : elig r = true := by
  by_cases ho : ∃ x, slotOwner (slotAt a a.ptr) = some x ∧ elig x = true
  · obtain ⟨x, hx, he⟩ := ho
    rw [winner_slot hx he] at h
    exact Option.some.inj h ▸ he
  · rw [winner_open fun x hx => Bool.eq_false_iff.mpr fun he => ho ⟨x, hx, he⟩] at h
    exact (List.mem_filter.mp ((foldl_better_none a lvl _).2 r h).1).2

theorem winner_rule (a : Arb) (n : Nat) (elig : Nat → Bool) (lvl : Nat → Nat) :
    (∀ r, slotOwner (slotAt a a.ptr) = some r → elig r = true → winner a n elig lvl = some r) ∧
    ((∀ r, slotOwner (slotAt a a.ptr) = some r → elig r = false) →
      (winner a n elig lvl = none → ∀ r < n, elig r = false) ∧
      (∀ r, winner a n elig lvl = some r → r < n ∧ elig r = true ∧ ∀ x < n, elig x = true →
        lvl x < lvl r ∨ (lvl x = lvl r ∧ vAt a.gage 0 x ≤ vAt a.gage 0 r))) := by
  refine ⟨fun r ho he => winner_slot ho he n lvl, fun h => ?_⟩
  obtain ⟨hnone, hsome⟩ := foldl_better_none a lvl ((List.range n).filter elig)
  rw [winner_open h]
  refine ⟨fun hw r hr => ?_, fun r hw => ?_⟩
  · by_contra he
    have hm : r ∈ (List.range n).filter elig := List.mem_filter.mpr ⟨List.mem_range.mpr hr, Bool.not_eq_false _ ▸ he⟩
    rw [hnone hw] at hm
    exact List.not_mem_nil hm
  · obtain ⟨hm, hall⟩ := hsome r hw
    obtain ⟨hr, he⟩ := List.mem_filter.mp hm
    exact ⟨List.mem_range.mp hr, he, fun x hx hex => hall x (List.mem_filter.mpr ⟨List.mem_range.mpr hx, hex⟩)⟩

/-! ## The books of an arbiter (R264 to R267) -/

/-- A decision moves the pointer on and makes the winner the youngest; holder, suspension and cut-offs stay. -/
theorem bookWin_rule (a : Arb) (n : Nat) (elig : Nat → Bool) (lvl : Nat → Nat) (l3 : Nat → Bool) (win : Nat) :
    (bookWin a n elig lvl l3 win).ptr = (a.ptr + 1) % 64 ∧ vAt (bookWin a n elig lvl l3 win).gage 0 win = 0 ∧
    (bookWin a n elig lvl l3 win).holder = a.holder ∧ (bookWin a n elig lvl l3 win).aside = a.aside ∧
    (bookWin a n elig lvl l3 win).cuts = a.cuts := by
  refine ⟨rfl, ?_, rfl, rfl, rfl⟩
  unfold vAt
  split
  · simp [bookWin]
  · rfl

/-- The hints leave the rest of the books. -/
theorem bookHints_rule (a : Arb) (n : Nat) (l3 holds : Nat → Bool) :
    (bookHints a n l3 holds).ptr = a.ptr ∧ (bookHints a n l3 holds).gage = a.gage ∧
    (bookHints a n l3 holds).holder = a.holder ∧ (bookHints a n l3 holds).aside = a.aside ∧
    (bookHints a n l3 holds).cuts = a.cuts := by
  simp only [bookHints, and_self]

/-! ## A decision on UP (R263, R271) -/

/-- The parts that a decision on UP may change. -/
abbrev upGrantParts : List Part := [.bb, .aon, .doms, .ln, .ula, .que, .ports, .bus, .sur, .out]

/-- What a decision on UP leaves alone, beside the parts not listed. -/
structure UpGoes (s t : State) : Prop where
  parts : only upGrantParts s t
  others : portsBut 0 s t
  susp : t.ula.susp = s.ula.susp
  preCnt : t.ula.preCnt = s.ula.preCnt
  aside : t.ula.arb.aside = s.ula.arb.aside
  cuts : t.ula.arb.cuts = s.ula.arb.cuts
  outs : s.out <:+ t.out
  bus : t.bus = { s.bus with inbox := t.bus.inbox }

theorem UpGoes.refl (s : State) : UpGoes s s :=
  ⟨only_refl _ s, fun _ _ => rfl, rfl, rfl, rfl, rfl, List.suffix_rfl, rfl⟩

theorem UpGoes.seq {s t u : State} (h : UpGoes s t) (k : UpGoes t u) : UpGoes s u :=
  ⟨only_trans _ _ _ _ h.parts k.parts, portsBut.seq h.others k.others, k.susp.trans h.susp, k.preCnt.trans h.preCnt,
    k.aside.trans h.aside, k.cuts.trans h.cuts, h.outs.trans k.outs, by rw [k.bus, h.bus]⟩

/-- An operation that touches neither the ports, the ULA nor the bus. -/
theorem upGoes_of_only {ps : List Part} {s t : State} (h : only ps s t) (ho : s.out <:+ t.out)
    (hp : ∀ p ∈ ps, p ∈ upGrantParts := by decide)
    (hn : ∀ p ∈ ([.ports, .ula, .bus] : List Part), p ∉ ps := by decide) : UpGoes s t where
  parts := h.widen hp
  others n _ := by rw [show t.ports = s.ports from h .ports (hn _ (by decide))]
  susp := by rw [show t.ula = s.ula from h .ula (hn _ (by decide))]
  preCnt := by rw [show t.ula = s.ula from h .ula (hn _ (by decide))]
  aside := by rw [show t.ula = s.ula from h .ula (hn _ (by decide))]
  cuts := by rw [show t.ula = s.ula from h .ula (hn _ (by decide))]
  outs := ho
  bus := by rw [show t.bus = s.bus from h .bus (hn _ (by decide))]

/-- The ULA's books and queues rewritten. -/
theorem ula_upGoes (s : State) (u : Ula) (hs : u.susp = s.ula.susp) (hp : u.preCnt = s.ula.preCnt)
    (ha : u.arb.aside = s.ula.arb.aside) (hc : u.arb.cuts = s.ula.arb.cuts) : UpGoes s { s with ula := u } :=
  ⟨(ula_frame s u).widen, fun _ _ => rfl, hs, hp, ha, hc, List.suffix_rfl, rfl⟩

/-- The parts in which a flagged or a cut-off requester shows. -/
abbrev starveParts : List Part := [.bb, .doms, .que, .aon, .out]

theorem raiseStarve_asks (w : Nat) (s : State) (r : Nat) :
    only starveParts s (raiseStarve w s r) ∧ s.out <:+ (raiseStarve w s r).out := by
  have hr := raise_asks s { code := 0x0A, src := r, w1 := w16 w }
  exact ⟨hr.parts.seq (bbLink_only _ _ _ _ _), hr.outs⟩

theorem raiseStarves_rule (w : Nat) (l : List Nat) (s : State) :
    only starveParts s (forEach l (raiseStarve w) s) ∧ s.out <:+ (forEach l (raiseStarve w) s).out := by
  induction l generalizing s with
  | nil => exact ⟨only_refl _ s, List.suffix_rfl⟩
  | cons r l ih =>
    obtain ⟨hp, ho⟩ := raiseStarve_asks w s r
    obtain ⟨hps, hos⟩ := ih (raiseStarve w s r)
    exact ⟨only_trans _ _ _ _ hp hps, ho.trans hos⟩

/-- What an answer of the local node leaves alone: of the ULA only the queues change, and of the bus only the inbox. -/
structure Serves (s t : State) : Prop where
  parts : only [.ln, .ula, .bus] s t
  ula : { t.ula with reqs := s.ula.reqs } = s.ula
  bus : t.bus = { s.bus with inbox := t.bus.inbox }

theorem Serves.refl (s : State) : Serves s s := ⟨only_refl _ s, rfl, rfl⟩

theorem Serves.seq {s t u : State} (h : Serves s t) (k : Serves t u) : Serves s u where
  parts := only_trans _ _ _ _ h.parts k.parts
  ula := by
    have hk : ∀ q, { u.ula with reqs := q } = { t.ula with reqs := q } := fun q =>
      (congrArg (fun v : Ula => { v with reqs := q }) k.ula :)
    rw [hk, h.ula]
  bus := by rw [k.bus, h.bus]

theorem Serves.upGoes {s t : State} (h : Serves s t) : UpGoes s t where
  parts := h.parts.widen
  others n _ := by rw [show t.ports = s.ports from h.parts .ports (by decide)]
  susp := (congrArg Ula.susp h.ula :)
  preCnt := (congrArg Ula.preCnt h.ula :)
  aside := (congrArg (fun u : Ula => u.arb.aside) h.ula :)
  cuts := (congrArg (fun u : Ula => u.arb.cuts) h.ula :)
  outs := by rw [show t.out = s.out from h.parts .out (by decide)]
  bus := h.bus

theorem ln_serves (s : State) (x : Ln) : Serves s { s with ln := x } := ⟨(ln_frame s x).widen, rfl, rfl⟩

theorem lnHshk_serves (s : State) (k : EpN) (h : Hdr) (code : Nat) : Serves s (lnHshk s k h code) := by
  unfold lnHshk lnSend ulaPush
  split
  · exact ⟨(ula_frame s _).widen, rfl, rfl⟩
  · exact .refl s

theorem lnStall_serves (s : State) (k : EpN) (h : Hdr) : Serves s (lnStall s k h) :=
  (lnHshk_serves s k h 0x03).seq (ln_serves _ _)

theorem tornAnswer_serves (s : State) (x : Inbox) (k : EpN) : Serves s (tornAnswer s x k) := by
  unfold tornAnswer
  dsimp only
  split
  · exact .refl s
  · split
    · exact lnStall_serves s k _
    · split
      · exact (lnHshk_serves s k _ 0x06).seq (ln_serves _ _)
      · exact lnHshk_serves s k _ 0x02

theorem serveOther_serves (s : State) : Serves s (serveOther s) := by
  cases h : takeInbox s (fun x => unserved x && mayTake s x) with
  | none => rw [serveOther_none h]; exact .refl s
  | some y =>
    obtain ⟨x, u⟩ := y
    have htake : Serves s u := by
      rw [takeInbox_some h]
      exact ⟨(bus_frame s _).widen, rfl, rfl⟩
    have hs : serveOther s = if !u.ln.en then u
        else if isTorn u (epIdx x.pkt.hdr) then tornAnswer u x (epIdx x.pkt.hdr)
        else lnStall u (epIdx x.pkt.hdr) x.pkt.hdr := by
      unfold serveOther; rw [h]
    rw [hs]
    refine htake.seq ?_
    split
    · exact .refl u
    · split
      · exact tornAnswer_serves u x _
      · exact lnStall_serves u _ _

theorem noteT1_frame (s : State) (t : TxPkt) : only [.sur] s (noteT1 s t) := only_ite _ (sur_frame s _) (only_refl _ s)

theorem startTx_upGoes (s : State) (t : TxPkt) : UpGoes s (startTx 0 t s) := by
  have hn : UpGoes s (noteT1 s t) := by
    refine upGoes_of_only (noteT1_frame s t) ?_
    unfold noteT1
    split <;> exact List.suffix_rfl
  exact hn.seq ⟨(modPort_only _ 0 _).widen, portsBut_modPort _ 0 _, rfl, rfl, rfl, rfl, List.suffix_rfl, rfl⟩

/-- Requester r takes UP with packet t. -/
def upTaken (s : State) (r : Nat) (t : TxPkt) : State :=
  { s with ula := { s.ula with
    reqs := s.ula.reqs.setIfInBounds r ((vAt s.ula.reqs [] r).erase t)
    arb := { s.ula.arb with holder := some r } } }

theorem startUp_eq (s : State) (r : Nat) (t : TxPkt) : startUp s r t = serveOther (startTx 0 t (upTaken s r t)) := rfl

theorem startUp_upGoes (s : State) (r : Nat) (t : TxPkt) : UpGoes s (startUp s r t) :=
  ((ula_upGoes s (upTaken s r t).ula rfl rfl rfl rfl).seq (startTx_upGoes _ t)).seq (serveOther_serves _).upGoes

/-- The state in which the winner of UP starts: the books are written, and the starved are reported. -/
def upBooked (s : State) (above : Option Nat) (win : Nat) : State :=
  let elig (r : Nat) : Bool := (ulaCand s above r).isSome
  forEach (starved s.ula.arb 28 elig win) (raiseStarve 1) (setUla s
    (bookHints (bookWin s.ula.arb 28 elig (ulaLvl s above) (ulaL3 s) win) 28 (ulaMaskable s)
      (fun r => r = win || s.ula.arb.aside = some r)))

theorem upBooked_rule (s : State) (above : Option Nat) (win : Nat) : UpGoes s (upBooked s above win) ∧
    (upBooked s above win).ula.arb.ptr = (s.ula.arb.ptr + 1) % 64 ∧
    vAt (upBooked s above win).ula.arb.gage 0 win = 0 ∧ now (upBooked s above win) = now s := by
  unfold upBooked
  dsimp only
  obtain ⟨hptr, hgage, -, haside, hcuts⟩ := bookWin_rule s.ula.arb 28 (fun r => (ulaCand s above r).isSome)
    (ulaLvl s above) (ulaL3 s) win
  generalize bookWin s.ula.arb 28 (fun r => (ulaCand s above r).isSome) (ulaLvl s above) (ulaL3 s) win = a
    at hptr hgage haside hcuts
  obtain ⟨hbptr, hbgage, -, hbaside, hbcuts⟩ := bookHints_rule a 28 (ulaMaskable s)
    (fun r => r = win || s.ula.arb.aside = some r)
  generalize bookHints a 28 (ulaMaskable s) (fun r => r = win || s.ula.arb.aside = some r) = b
    at hbptr hbgage hbaside hbcuts
  obtain ⟨hparts, houts⟩ := raiseStarves_rule 1
    (starved s.ula.arb 28 (fun r => (ulaCand s above r).isSome) win) (setUla s b)
  have hu := hparts .ula (by decide)
  have hset : UpGoes s (setUla s b) :=
    ula_upGoes s { s.ula with arb := b } rfl rfl (hbaside.trans haside) (hbcuts.trans hcuts)
  refine ⟨hset.seq (upGoes_of_only hparts houts), ?_, ?_, ?_⟩
  · exact (congrArg (fun u : Ula => u.arb.ptr) hu).trans (hbptr.trans hptr)
  · exact (congrArg (fun u : Ula => vAt u.arb.gage 0 win) hu).trans ((congrArg (vAt · 0 win) hbgage).trans hgage)
  · exact congrArg (fun t : Tb => t.time.toNat) (hparts .tb (by decide))

theorem ulaGrant_some {s : State} {above : Option Nat} {win : Nat} {x : TxPkt} (h : ulaCand s above win = some x) :
    ulaGrant s above win = startUp (upBooked s above win) win x := by
  unfold ulaGrant
  rw [h]
  rfl

theorem ulaGrant_none {s : State} {above : Option Nat} {win : Nat} (h : ulaCand s above win = none) :
    ulaGrant s above win = upBooked s above win := by
  unfold ulaGrant
  rw [h]
  rfl

theorem ulaDecide_upGoes (s : State) (above : Option Nat) : UpGoes s (ulaDecide s above) := by
  unfold ulaDecide
  split
  · rename_i win _
    have hb := (upBooked_rule s above win).1
    cases h : ulaCand s above win with
    | none => rw [ulaGrant_none h]; exact hb
    | some x => rw [ulaGrant_some h]; exact hb.seq (startUp_upGoes _ win x)
  · exact .refl s

theorem countRun_upGoes (s : State) : UpGoes s (countRun s) := by
  unfold countRun
  split
  · exact ula_upGoes s _ rfl rfl rfl rfl
  · exact .refl s

theorem ulaDecision_upGoes (s : State) : UpGoes s (ulaDecision s) := by
  unfold ulaDecision
  dsimp only
  split
  · exact (ulaDecide_upGoes s _).seq (countRun_upGoes _)
  · exact ulaDecide_upGoes s _

/-- The winner holds UP, and its packet is being sent. -/
theorem startUp_rule (s : State) (r : Nat) (x : TxPkt) :
    (startUp s r x).ula.arb = { s.ula.arb with holder := some r } ∧
    (startUp s r x).ports[(0 : PortN)].txCur = some (withTurn s x) := by
  have hserve := serveOther_serves (startTx 0 x (upTaken s r x))
  have harb : (startTx 0 x (upTaken s r x)).ula.arb = { s.ula.arb with holder := some r } := by
    unfold startTx noteT1
    split <;> rfl
  have hcur : (startTx 0 x (upTaken s r x)).ports[(0 : PortN)].txCur = some (withTurn s x) := by
    unfold startTx
    rw [modPort_self]
    unfold takeCredits
    split <;> rfl
  rw [startUp_eq]
  refine ⟨(congrArg Ula.arb hserve.ula :).trans harb, ?_⟩
  have hp := hserve.parts .ports (by decide)
  exact (congrArg (fun v : Vector Port 17 => v[(0 : PortN)].txCur) hp).trans hcur

theorem withTurn_now {s t : State} (h : now t = now s) (x : TxPkt) : withTurn t x = withTurn s x := by
  unfold withTurn
  rw [h]

/-- A decision on UP that requester r wins with packet x. -/
theorem ulaDecision_wins {s : State} {r : Nat} {x : TxPkt}
    (hw : winner s.ula.arb 28 (fun y => (ulaCand s (suspLvl s) y).isSome) (ulaLvl s (suspLvl s)) = some r)
    (hc : ulaCand s (suspLvl s) r = some x) :
    (ulaDecision s).ula.arb.holder = some r ∧ (ulaDecision s).ports[(0 : PortN)].txCur = some (withTurn s x) ∧
    (ulaDecision s).ula.arb.ptr = (s.ula.arb.ptr + 1) % 64 ∧ vAt (ulaDecision s).ula.arb.gage 0 r = 0 := by
  have hd : ulaDecide s (suspLvl s) = startUp (upBooked s (suspLvl s) r) r x := by
    unfold ulaDecide
    rw [hw]
    exact ulaGrant_some hc
  obtain ⟨-, hptr, hgage, hnow⟩ := upBooked_rule s (suspLvl s) r
  obtain ⟨harb, hcur⟩ := startUp_rule (upBooked s (suspLvl s) r) r x
  rw [withTurn_now hnow] at hcur
  have hcount (u : State) : (countRun u).ula.arb = u.ula.arb ∧ (countRun u).ports = u.ports := by
    unfold countRun
    split <;> exact ⟨rfl, rfl⟩
  have hrun : ulaDecision s = countRun (startUp (upBooked s (suspLvl s) r) r x) := by
    unfold ulaDecision
    rw [hd]
    exact if_pos (by rw [show (startUp (upBooked s (suspLvl s) r) r x).ports[0].txCur = _ from hcur]; rfl)
  obtain ⟨hca, hcp⟩ := hcount (startUp (upBooked s (suspLvl s) r) r x)
  rw [hrun, hca, harb]
  refine ⟨rfl, ?_, hptr, hgage⟩
  exact (congrArg (fun v : Vector Port 17 => v[(0 : PortN)].txCur) hcp).trans hcur

/-! ## A decision of the host-memory path (R263) -/

/-- The parts that a decision of the host-memory path may change. -/
abbrev pathParts : List Part := [.bb, .aon, .pcie, .doms, .ln, .hma, .que, .out]

/-- The arbiter's books stay, and at most requester w has become its holder. -/
def heldBy (w : Nat) (s t : State) : Prop :=
  ∃ h, t.hma.arb = { s.hma.arb with holder := h } ∧ (h = s.hma.arb.holder ∨ h = some w)

theorem heldBy_same (w : Nat) {s t : State} (h : t.hma.arb = s.hma.arb) : heldBy w s t :=
  ⟨s.hma.arb.holder, h, .inl rfl⟩

theorem heldBy_of_only (w : Nat) {ps : List Part} {s t : State} (h : only ps s t) (hp : .hma ∉ ps := by decide) :
    heldBy w s t := heldBy_same w (congrArg Hma.arb (h .hma hp))

theorem heldBy.seq {w : Nat} {s t u : State} (h : heldBy w s t) (k : heldBy w t u) : heldBy w s u := by
  obtain ⟨x, hx, hxo⟩ := h
  obtain ⟨y, hy, hyo⟩ := k
  refine ⟨y, by rw [hy, hx], ?_⟩
  rcases hyo with hyo | hyo
  · rw [hyo, hx]; exact hxo
  · exact .inr hyo

theorem holdPath_heldBy (s : State) (r : Nat) (q : HReq) : heldBy r s (holdPath s r q) := ⟨some r, rfl, .inr rfl⟩

theorem toHost_hma (s : State) (o : Out) : (toHost s o).hma = s.hma := (toHost_issues s o).parts .hma (by decide)

theorem putRead_hma (s : State) (x : ReadReq) : (putRead s x).hma = s.hma := by
  unfold putRead
  dsimp only
  exact ((noteAsked_asks _ _).parts .hma (by decide)).trans (toHost_hma s (.hostRead x.out.dom x.addr x.out.len))

theorem grantRead_heldBy (s : State) (r : Nat) (q : HReq) : heldBy r s (grantRead s r q) := by
  unfold grantRead
  split
  · exact heldBy_same r rfl
  · rename_i x _
    split
    · exact heldBy_same r ((afterRead_asks _ r q).arb.trans (congrArg Hma.arb (putRead_hma (bump s) x)))
    · exact holdPath_heldBy s r q

theorem issueMsg_frame (s : State) (d : DomN) (v : Nat) : only [.aon, .pcie, .doms, .out] s (issueMsg s d v) :=
  only_ite _ (only_refl _ s) (only_ite _ (modDom_frame s d _).widen (toHost_issues s _).parts.widen)

theorem advance_frame (s : State) (p : Piece) (q : HReq) : only [.doms, .ln] s (advance s p q) := by
  unfold advance
  split
  · exact (modEp_frame s _ _).widen
  · exact (modDom_frame s _ _).widen
  · exact (modDom_frame s _ _).widen
  · exact (modDom_frame s _ _).widen
  · exact only_refl _ s

/-- A write that is not the last of its move. -/
theorem putOn_frame (s : State) (p : Piece) (q : HReq) :
    only [.aon, .pcie, .doms, .ln, .out] s (advance (putWrite s q p) p q) :=
  (toHost_issues s _).parts.seq (advance_frame _ p q)

theorem grantWrite_goes (s : State) (r : Nat) (q : HReq) :
    only pathParts s (grantWrite s r q) ∧ heldBy r s (grantWrite s r q) := by
  unfold grantWrite
  split
  · exact ⟨only_refl _ s, heldBy_same r rfl⟩
  · rename_i p _
    split
    · exact ⟨(holdPath_issues s r q).parts.widen, holdPath_heldBy s r q⟩
    · have hput := putOn_frame s p q
      have harb : (advance (putWrite s q p) p q).hma.arb = s.hma.arb := congrArg Hma.arb (hput .hma (by decide))
      exact ⟨hput.seq (setQueue_frame _ _ _), heldBy_same r harb⟩

theorem takeReq_goes (s : State) (r : Nat) (q : HReq) :
    only [.hma, .que] s (takeReq s r q) ∧ (takeReq s r q).hma.arb = s.hma.arb := by
  unfold takeReq
  split
  · exact ⟨(que_frame s _).widen, rfl⟩
  · exact ⟨(setQueue_frame s r _).widen, rfl⟩

/-- The grant of requester r. -/
theorem grantReq_goes (s : State) (r : Nat) : only pathParts s (grantReq s r) ∧ heldBy r s (grantReq s r) := by
  unfold grantReq
  split
  · exact ⟨only_refl _ s, heldBy_same r rfl⟩
  · rename_i q _
    dsimp only
    obtain ⟨hparts, harb⟩ := takeReq_goes s r q
    have htake : heldBy r s (takeReq s r q) := heldBy_same r harb
    split
    · exact ⟨hparts.seq (grantRead_issues _ r _).parts, htake.seq (grantRead_heldBy _ r _)⟩
    · exact ⟨hparts.seq (grantRead_issues _ r _).parts, htake.seq (grantRead_heldBy _ r _)⟩
    · exact ⟨hparts.seq (issueMsg_frame _ _ _), htake.seq (heldBy_of_only r (issueMsg_frame _ _ _))⟩
    · obtain ⟨hp, hh⟩ := grantWrite_goes (takeReq s r q) r q
      exact ⟨hparts.seq hp, htake.seq hh⟩

/-- The books after the decision that `win` takes, with the starved reported. -/
def pathBooked (s : State) (win : Nat) : State :=
  forEach (hmaStarved s win) (raiseStarve 0) (setHma s (bookHints
    { bookWin s.hma.arb 19 (hmaElig s) (hmaLvl s) (fun r => hmaLvl s r = 3) win with
      flags := (hmaStarved s win).foldl (fun f r => putVec f r true) s.hma.arb.flags }
    19 (fun r => hmaLvl s r = 3) (fun r => r = win)))

theorem hmaGrant_eq (s : State) (win : Nat) : hmaGrant s win = grantReq (pathBooked s win) win := rfl

theorem pathBooked_rule (s : State) (win : Nat) : only pathParts s (pathBooked s win) ∧
    (pathBooked s win).hma.arb.ptr = (s.hma.arb.ptr + 1) % 64 ∧ vAt (pathBooked s win).hma.arb.gage 0 win = 0 ∧
    (pathBooked s win).hma.arb.holder = s.hma.arb.holder ∧ (pathBooked s win).hma.arb.cuts = s.hma.arb.cuts := by
  unfold pathBooked
  obtain ⟨hptr, hgage, hhold, -, hcuts⟩ := bookWin_rule s.hma.arb 19 (hmaElig s) (hmaLvl s)
    (fun r => hmaLvl s r = 3) win
  generalize bookWin s.hma.arb 19 (hmaElig s) (hmaLvl s) (fun r => hmaLvl s r = 3) win = a at hptr hgage hhold hcuts
  generalize hmaStarved s win = l
  generalize l.foldl (fun f r => putVec f r true) s.hma.arb.flags = f
  obtain ⟨hbptr, hbgage, hbhold, -, hbcuts⟩ := bookHints_rule { a with flags := f } 19
    (fun r => hmaLvl s r = 3) (fun r => r = win)
  generalize bookHints { a with flags := f } 19 (fun r => hmaLvl s r = 3) (fun r => r = win) = b
    at hbptr hbgage hbhold hbcuts
  obtain ⟨hparts, -⟩ := raiseStarves_rule 0 l (setHma s b)
  have hh := hparts .hma (by decide)
  have hset : only [.hma] s (setHma s b) := hma_frame s _
  refine ⟨hset.seq hparts, ?_, ?_, ?_, ?_⟩
  · exact (congrArg (fun x : Hma => x.arb.ptr) hh).trans (hbptr.trans hptr)
  · exact (congrArg (fun x : Hma => vAt x.arb.gage 0 win) hh).trans ((congrArg (vAt · 0 win) hbgage).trans hgage)
  · exact (congrArg (fun x : Hma => x.arb.holder) hh).trans (hbhold.trans hhold)
  · exact (congrArg (fun x : Hma => x.arb.cuts) hh).trans (hbcuts.trans hcuts)

theorem hmaGrant_rule (s : State) (win : Nat) : only pathParts s (hmaGrant s win) ∧
    (hmaGrant s win).hma.arb.ptr = (s.hma.arb.ptr + 1) % 64 ∧ vAt (hmaGrant s win).hma.arb.gage 0 win = 0 ∧
    ((hmaGrant s win).hma.arb.holder = s.hma.arb.holder ∨ (hmaGrant s win).hma.arb.holder = some win) ∧
    (hmaGrant s win).hma.arb.cuts = s.hma.arb.cuts := by
  obtain ⟨hparts, hptr, hgage, hhold, hcuts⟩ := pathBooked_rule s win
  obtain ⟨hgp, x, hx, hxo⟩ := grantReq_goes (pathBooked s win) win
  rw [hmaGrant_eq, hx]
  exact ⟨only_trans _ _ _ _ hparts hgp, hptr, hgage, hhold ▸ hxo, hcuts⟩

theorem tidyAll_asks (s : State) : Asks [.doms, .hma] s (tidyAll s) := forEach_asks _ _ s tidy_asks

theorem hmaDecide_some {s : State} {r : Nat}
    (h : winner (tidyAll s).hma.arb 19 (hmaElig (tidyAll s)) (hmaLvl (tidyAll s)) = some r) :
    hmaDecide s = hmaGrant (tidyAll s) r := by
  unfold hmaDecide
  dsimp only
  rw [h]

theorem hmaDecide_none {s : State}
    (h : winner (tidyAll s).hma.arb 19 (hmaElig (tidyAll s)) (hmaLvl (tidyAll s)) = none) :
    hmaDecide s = tidyAll s := by
  unfold hmaDecide
  dsimp only
  rw [h]

/-- A decision cuts nobody off, and gives the path to nobody who is cut off. -/
theorem hmaDecide_rule (s : State) : only pathParts s (hmaDecide s) ∧ (hmaDecide s).hma.arb.cuts = s.hma.arb.cuts ∧
    ∀ r, s.hma.arb.holder = none → s.hma.arb.cuts.getLsbD r = true → (hmaDecide s).hma.arb.holder ≠ some r := by
  have ht := tidyAll_asks s
  cases h : winner (tidyAll s).hma.arb 19 (hmaElig (tidyAll s)) (hmaLvl (tidyAll s)) with
  | none =>
    rw [hmaDecide_none h]
    exact ⟨ht.parts.widen, congrArg Arb.cuts ht.arb, fun r hn _ => by rw [ht.arb, hn]; simp⟩
  | some win =>
    obtain ⟨hparts, -, -, hhold, hcuts⟩ := hmaGrant_rule (tidyAll s) win
    have helig := winner_elig h
    rw [hmaDecide_some h]
    refine ⟨ht.parts.seq hparts, hcuts.trans (congrArg Arb.cuts ht.arb), fun r hn hr => ?_⟩
    rcases hhold with hhold | hhold <;> rw [hhold]
    · rw [ht.arb, hn]; simp
    · intro hw
      obtain rfl := Option.some.inj hw
      simp only [hmaElig, Bool.and_eq_true, Bool.not_eq_true'] at helig
      rw [ht.arb, hr] at helig
      exact absurd helig.1.2 (by decide)

end Sys2Proof.Machine
end

section
/-! SUPPORT. The reset of a queue and its report (R278 to R280). -/

namespace Sys2Proof.Machine

open Sys2Proof Sys2Proof.Safety

-- One proof after the other: side by side, the proofs of one text wait for each other in too many threads.
set_option Elab.async false


/-- The parts that the reset of a queue may change. -/
abbrev discardParts : List Part := [.bb, .pps, .aon, .pcie, .doms, .ln, .hma, .ula, .que, .ports, .tt, .tb, .sur, .out]

/-- What the reset of a queue leaves alone: the parts not listed, and the count of the queue errors. -/
structure Resets (s t : State) : Prop where
  parts : only discardParts s t
  count : t.que.errCnt = s.que.errCnt

theorem Resets.refl (s : State) : Resets s s := ⟨only_refl _ s, rfl⟩

theorem Resets.seq {s t u : State} (h : Resets s t) (k : Resets t u) : Resets s u :=
  ⟨only_trans _ _ _ _ h.parts k.parts, k.count.trans h.count⟩

theorem resets_ite (c : Prop) [Decidable c] {s t u : State} (ht : Resets s t) (hu : Resets s u) :
    Resets s (if c then t else u) := by
  split <;> assumption

theorem forEach_resets {α : Type} (l : List α) (f : State → α → State) (s : State) (h : ∀ a x, Resets a (f a x)) :
    Resets s (forEach l f s) := by
  induction l generalizing s with
  | nil => exact .refl s
  | cons x l ih => exact (h s x).seq (ih (f s x))

/-- An operation that does not touch the queues' registers. -/
theorem resets_of_only {ps : List Part} {s t : State} (h : only ps s t) (hp : ∀ p ∈ ps, p ∈ discardParts := by decide)
    (hq : .que ∉ ps := by decide) : Resets s t := ⟨h.widen hp, congrArg Que.errCnt (h .que hq)⟩

theorem Asks.resets {ps : List Part} {s t : State} (h : Asks ps s t) (hp : ∀ p ∈ ps, p ∈ discardParts := by decide) :
    Resets s t := ⟨h.parts.widen hp, h.count⟩

theorem bbLink_resets (s : State) (code src : Nat) (w2 w3 : Word) : Resets s (bbLink s code src w2 w3) := by
  refine ⟨(bbLink_only s code src w2 w3).widen, ?_⟩
  have hpush (e : Entry) : (bbfPush s.que e).errCnt = s.que.errCnt := by unfold bbfPush; split <;> rfl
  unfold bbLink
  dsimp only
  split
  · exact hpush _
  · rfl

/-! ## Receive and transmit queues -/

theorem portEvt_resets (s : State) (n : PortN) (bits : Word) : Resets s (portEvt s n bits) :=
  resets_ite _ (resets_of_only (modPort_only s n _)) ((resets_of_only (modPort_only s n _)).seq (raise_asks _ _).resets)

theorem loseLock_resets (s : State) : Resets s (loseLock s) :=
  resets_ite _ (.refl s) (((resets_of_only (tb_frame s _)).seq (raise_asks _ _).resets).seq (bbLink_resets _ _ _ _ _))

theorem settleWork_resets (n : PortN) (s : State) : Resets s (settleWork n s) := by
  unfold settleWork
  split
  · exact ((resets_of_only (settleUp_passes s).parts).seq (resets_of_only (sur_frame _ _))).seq (loseLock_resets _)
  · exact resets_of_only (settleDown_passes s _).parts

theorem linkDown_resets (s : State) (n : PortN) (reason : Nat) : Resets s (linkDown s n reason) := by
  rw [linkDown_eq]
  have hsettle (u : State) : Resets u (settleLink n u) :=
    ((resets_of_only (modPort_only u n unlinked)).seq (settleWork_resets n _)).seq (portEvt_resets _ n _)
  exact ((resets_of_only (endTx_passes s n 3).parts).seq (bbLink_resets _ _ _ _ _)).seq (hsettle _)

theorem retrain_resets (s : State) (n : PortN) (reason : Nat) : Resets s (retrain s n reason) := by
  have hr : retrain s n reason = suspHold (modPort (linkDown (retrainSent s n reason) n reason) n portAlign) n := rfl
  rw [hr]
  exact (((resets_of_only (retrainSent_passes s n reason).parts).seq (linkDown_resets _ n reason)).seq
    (resets_of_only (modPort_only _ n portAlign))).seq (resets_of_only (suspHold_frame _ n))

theorem resetRx_resets (s : State) (n : PortN) : Resets s (resetRx s n) := by
  have hstomp : Resets s (forEach (s.ports[n].rx.map (·.pid)) (fun a pid => stompCopies a pid 4 false) s) :=
    forEach_resets _ _ s fun a pid => resets_of_only (stompCopies_passes a pid 4 false).parts
  have hswept := (hstomp.seq (resets_of_only (modPort_only _ n fun p => { p with rx := [], rxCur := none, rxSusp := none }))).seq
    (resets_of_only (sweepRx_frame _))
  exact resets_ite _ (hswept.seq (retrain_resets _ n 3)) hswept

theorem resetTx_resets (s : State) (n : PortN) : Resets s (resetTx s n) :=
  (((resets_of_only (endTx_passes s n 4).parts).seq (resets_of_only (modPort_only _ n _))).seq
    (resets_of_only (boundary_passes _ n).parts)).seq (resets_of_only (sweepRx_frame _))

/-- The state from which the slots of the translator are freed. -/
def ttCleared (s : State) : State :=
  { s with
    ports := s.ports.map fun p => { p with txq := p.txq.filter fun t => !isInner t, txCur := p.txCur.map dropChunks }
    ula := { s.ula with reqs := s.ula.reqs.map fun l => l.filter fun t => !isStored t } }

theorem resetTt_eq (s : State) : resetTt s = sweepRx (freeSlots (ttCleared s)) := rfl

theorem ttCleared_frame (s : State) : only [.ports, .ula] s (ttCleared s) := by
  intro p hp; cases p <;> first | rfl | exact absurd (by decide) hp

theorem resetTt_resets (s : State) : Resets s (resetTt s) := by
  rw [resetTt_eq]
  exact ((resets_of_only (ttCleared_frame s)).seq (resets_of_only (freeSlots_passes _).parts)).seq
    (resets_of_only (sweepRx_frame _))

theorem resetTt_slots (s : State) (j : Fin 48) : (resetTt s).tt.slots[j] = none := by
  have ht : (resetTt s).tt = (freeSlots (ttCleared s)).tt := by
    rw [resetTt_eq]
    exact sweepRx_frame _ .tt (by decide)
  exact (congrArg (fun x : Tt => x.slots[j]) ht).trans (freeSlots_slots _ j)

/-! ## The queues of the host-memory path -/

theorem hmaDone_resets (s : State) (r : Nat) : Resets s (hmaDone s r) := resets_of_only (hmaDone_frame s r)

theorem takeQueue_resets (s : State) (r : Nat) : Resets s (takeQueue s r).2 :=
  ((tidy_asks s r).resets.seq (setQueue_asks _ r []).resets).seq (hmaDone_resets _ r)

theorem watches_resets (s : State) (l : List Watch) : Resets s { s with que := { s.que with watches := l } } :=
  ⟨(que_frame s _).widen, rfl⟩

theorem dropWatches_resets (s : State) (d : DomN) : Resets s (dropWatches s d) :=
  (resets_ite _ (hmaDone_resets s 16) (.refl s)).seq (watches_resets _ _)

theorem domFault_resets (s : State) (d : DomN) : Resets s (domFault s d) :=
  resets_ite _ (.refl s) (((resets_of_only (modDom_frame s d _)).seq (dropWatches_resets _ d)).seq
    (bbLink_resets _ _ _ _ _))

theorem hostFault_resets (s : State) (d : DomN) : Resets s (hostFault s d) :=
  (resets_of_only (modDom_frame s d _)).seq (domFault_resets _ d)

theorem completeHead_resets (s : State) (k : EpN) (status bytes : Nat) (cue late : Bool) :
    Resets s (completeHead s k status bytes cue late) := (completeHead_asks s k status bytes cue late).resets

theorem resetOut_resets (s : State) (d : DomN) : Resets s (resetOut s d) := by
  refine ((takeQueue_resets s d.val).seq (hostFault_resets _ d)).seq (forEach_resets _ _ _ fun a q => ?_)
  split
  · exact (resets_of_only (voidReads_frame a _)).seq (completeHead_resets _ _ _ _ _ _)
  · exact .refl a

theorem resetIn_resets (s : State) (d : DomN) : Resets s (resetIn s d) := by
  refine (((takeQueue_resets s (8 + d.val)).seq (resets_of_only (modDom_frame _ d _))).seq (hostFault_resets _ d)).seq
    (forEach_resets _ _ _ fun a q => ?_)
  split
  · exact completeHead_resets a _ _ _ _ _
  · exact .refl a

theorem resetWatch_resets (s : State) : Resets s (resetWatch s) :=
  ((hmaDone_resets s 16).seq (watches_resets _ [])).seq (resets_of_only (doms_frame _ _))

theorem resetSum_resets (s : State) : Resets s (resetSum s) := by
  refine ((takeQueue_resets s 17).seq (resets_of_only (doms_frame _ _))).seq (forEach_resets _ _ _ fun a d => ?_)
  exact resets_ite _ (hmaAsk_asks a 17 _).resets (.refl a)

theorem finishCmd_resets (s : State) (d : DomN) (c : Cmd) (status : Nat) (r4 r5 : Word) :
    Resets s (finishCmd s d c status r4 r5) :=
  (resets_of_only (modDom_frame s d _)).seq (raiseDom_asks _ d _ _).resets

theorem resetStat_resets (s : State) : Resets s (resetStat s) := by
  refine (takeQueue_resets s 18).seq (forEach_resets _ _ _ fun a d => ?_)
  split
  · exact resets_ite _ ((resets_of_only (modDom_frame a d _)).seq (finishCmd_resets _ _ _ _ _ _)) (.refl a)
  · exact .refl a

theorem resetHma_resets (s : State) (r : Nat) : Resets s (resetHma s r) :=
  resets_ite _ (resetOut_resets s _) (resets_ite _ (resetIn_resets s _) (resets_ite _ (resetWatch_resets s)
    (resets_ite _ (resetSum_resets s) (resets_ite _ (resetStat_resets s) (.refl s)))))

/-- Whatever the reset of a queue discards, the count of the errors stands. -/
theorem queueEffect_resets (s : State) (q : Nat) : Resets s (queueEffect s q) := by
  unfold queueEffect
  split
  · exact resetRx_resets s _
  · split
    · exact resetTx_resets s _
    · exact resets_ite _ (resetTt_resets s) (resets_ite _ (resetHma_resets s _) (resets_ite _ (resetWatch_resets s)
        (resets_ite _ ⟨(que_frame s _).widen, rfl⟩ (resets_ite _ ⟨(que_frame s _).widen, rfl⟩
          (resets_of_only (aon_frame s _))))))

/-! ## The report (R279, R280) -/

theorem bbLink_report (s : State) (code src : Nat) (w2 w3 : Word) :
    (bbLink s code src w2 w3).que.errCnt = s.que.errCnt ∧ (bbLink s code src w2 w3).que.last = s.que.last := by
  have hpush (e : Entry) : (bbfPush s.que e).errCnt = s.que.errCnt ∧ (bbfPush s.que e).last = s.que.last := by
    unfold bbfPush; split <;> exact ⟨rfl, rfl⟩
  unfold bbLink
  dsimp only
  split
  · exact hpush _
  · exact ⟨rfl, rfl⟩

/-- The registers in which queue `last` names is reported. -/
def queueNoted (q : Que) (last : Word) : Que :=
  { queueErr q (queueBit (fld last 0 8)) with errCnt := satInc 65535 q.errCnt, last := last }

/-- The report of a reset: its event and its entry follow the registers. -/
theorem queueReport_eq (s : State) (last : Word) : queueReport s last =
    bbLink (raise { s with que := queueNoted s.que last }
      { code := 0x0C, src := queueBit (fld last 0 8), w1 := (queueNoted s.que last).err0
        w2 := (queueNoted s.que last).err1 })
      0x62 (fld last 0 8) last (w16 (queueNoted s.que last).errCnt) := rfl

theorem queueReport_rule (s : State) (last : Word) : only discardParts s (queueReport s last) ∧
    (queueReport s last).que.errCnt = satInc 65535 s.que.errCnt ∧ (queueReport s last).que.last = last := by
  rw [queueReport_eq]
  have hq : (queueNoted s.que last).errCnt = satInc 65535 s.que.errCnt ∧ (queueNoted s.que last).last = last := ⟨rfl, rfl⟩
  generalize queueNoted s.que last = q at hq
  generalize Ev.mk _ _ _ _ _ _ _ = e
  have hset := que_frame s q
  have hraise := raise_asks { s with que := q } e
  obtain ⟨hcnt, hlast⟩ := bbLink_report (raise { s with que := q } e) 0x62 (fld last 0 8) last (w16 q.errCnt)
  refine ⟨(hset.seq hraise.parts (rs := discardParts)).seq (bbLink_only _ _ _ _ _), ?_, ?_⟩
  · exact hcnt.trans (hraise.count.trans hq.1)
  · exact hlast.trans (((congrArg Que.last hraise.que :)).trans hq.2)

theorem bbReport_report (s : State) :
    (bbReport s).que.errCnt = s.que.errCnt ∧ (bbReport s).que.last = s.que.last := by
  have hpush (e : Entry) : (bbfPush s.que e).errCnt = s.que.errCnt ∧ (bbfPush s.que e).last = s.que.last := by
    unfold bbfPush; split <;> exact ⟨rfl, rfl⟩
  unfold bbReport
  split
  · exact ⟨rfl, rfl⟩
  · exact hpush _

/-- A mismatch on a queue of the table while the Link die runs. -/
theorem queueMismatch_run {s : State} {q : Nat} (hl : linkOn s = true) (hq : queueIds.contains q = true)
    (wr rd inj : Bool) :
    queueMismatch s q wr rd inj = bbReport (queueReport (queueEffect s q) (queueLast q wr rd inj)) := by
  unfold queueMismatch
  simp only [hq, hl, Bool.not_true, if_false, if_true, Bool.false_eq_true]

theorem queueMismatch_rule {s : State} {q : Nat} (hl : linkOn s = true) (hq : queueIds.contains q = true)
    (wr rd inj : Bool) : only discardParts s (queueMismatch s q wr rd inj) ∧
    (queueMismatch s q wr rd inj).que.errCnt = satInc 65535 s.que.errCnt ∧
    (queueMismatch s q wr rd inj).que.last = queueLast q wr rd inj ∧
    (queueMismatch s q wr rd inj).tt = (queueEffect s q).tt := by
  rw [queueMismatch_run hl hq]
  have heff := queueEffect_resets s q
  generalize queueEffect s q = u at heff
  obtain ⟨hparts, hcnt, hlast⟩ := queueReport_rule u (queueLast q wr rd inj)
  have htt : (queueReport u (queueLast q wr rd inj)).tt = u.tt := by
    rw [queueReport_eq]
    exact ((bbLink_only _ _ _ _ _) .tt (by decide)).trans ((raise_asks _ _).parts .tt (by decide))
  generalize queueReport u (queueLast q wr rd inj) = v at hparts hcnt hlast htt
  obtain ⟨hrcnt, hrlast⟩ := bbReport_report v
  have hr := bbReport_frame v
  refine ⟨(only_trans _ _ _ _ heff.parts hparts).seq hr, ?_, hrlast.trans hlast, ?_⟩
  · rw [hrcnt, hcnt, heff.count]
  · exact (hr .tt (by decide)).trans htt

end Sys2Proof.Machine
end

section
/-! PROOF. The two arbiters and the queue checks (O55). -/

namespace Sys2Proof.Machine

open Sys2Proof Sys2Proof.Safety

-- One proof after the other: side by side, the proofs of one text wait for each other in too many threads.
set_option Elab.async false


/-! ## Preemption and resumption of UP's packet (R272, R273) -/

/-- The suspended holder keeps its place aside. -/
theorem suspendUp_rule (s : State) (x : TxPkt) (sent : Nat) :
    only [.ula, .ports, .out] s (suspendUp s x sent) ∧ (suspendUp s x sent).ula.susp = some (x, sent) ∧
    (suspendUp s x sent).ula.preCnt = (s.ula.preCnt + 1) % 256 ∧ .pre 0 ∈ (suspendUp s x sent).out ∧
    (suspendUp s x sent).ula.arb.aside = s.ula.arb.holder ∧ (suspendUp s x sent).bus = s.bus :=
  ⟨by intro p hp; cases p <;> first | rfl | exact absurd (by decide) hp, rfl, rfl, emit_done _ _, rfl, rfl⟩

theorem preempt_rows (sent : Nat) (s : State) (hl : linkOn s = true) :
    (preemptible s sent = false → exec (.ulaPreempt sent) s = .next s) ∧
    (∀ x r, preemptible s sent = true → s.ports[(0 : PortN)].txCur = some x → s.ula.arb.holder = some r →
      (winner s.ula.arb 28 (fun y => (ulaCand s (some (nlvl s r)) y).isSome)
        (ulaLvl s (some (nlvl s r)))).isSome = true →
      ∃ t, exec (.ulaPreempt sent) s = .next t ∧ t.ula.susp = some (x, sent) ∧
        t.ula.preCnt = (s.ula.preCnt + 1) % 256 ∧ .pre 0 ∈ t.out ∧ t.ula.arb.aside = some r ∧
        t.bus = { s.bus with inbox := t.bus.inbox } ∧
        only [.bb, .aon, .doms, .ln, .ula, .que, .ports, .bus, .sur, .out] s t) := by
  refine ⟨fun h => onLink_eq hl (whenDo_fails h), fun x r hp hx hr hw => ?_⟩
  have hrow : preempt s sent = ulaDecision (suspendUp s x sent) := by
    unfold preempt
    rw [show s.ports[0].txCur = some x from hx, hr]
    exact if_pos hw
  obtain ⟨hparts, hsusp, hcnt, hpre, haside, hbus⟩ := suspendUp_rule s x sent
  have hgo := ulaDecision_upGoes (suspendUp s x sent)
  refine ⟨_, onLink_eq hl ((whenDo_holds (f := (preempt · sent)) hp).trans hrow), hgo.susp.trans hsusp,
    hgo.preCnt.trans hcnt, hgo.outs.subset hpre, hgo.aside.trans (haside.trans hr), ?_, hparts.seq hgo.parts⟩
  rw [hgo.bus, hbus]

theorem ulaResume_some {s : State} {x : TxPkt} {w : Nat} (hs : s.ula.susp = some (x, w)) :
    (x.fail = none → mustResume s = true → ulaResume s = resumeUp s x w) ∧
    (∀ r, x.fail = some r → ulaResume s = boundary (sweepRx (closeSusp s r x.done)) 0) := by
  unfold ulaResume
  rw [hs]
  dsimp only
  refine ⟨fun hf hm => ?_, fun r hf => ?_⟩
  · rw [hf]
    exact if_pos hm
  · rw [hf]

/-- The packet whose input failed is closed. -/
theorem closeSusp_rule {s : State} {x : TxPkt} {w : Nat} (hs : s.ula.susp = some (x, w)) (r : Nat) (whole : Bool) :
    only [.ula, .ports, .out] s (closeSusp s r whole) ∧ (closeSusp s r whole).ula.susp = none ∧
    .eab 0 x.pkt (if whole then x.len else w) r ∈ (closeSusp s r whole).out ∧ .rsm 0 w ∈ (closeSusp s r whole).out := by
  unfold closeSusp
  rw [hs]
  refine ⟨?_, rfl, List.mem_append_left _ ?_, List.mem_append_left _ ?_⟩
  · intro p hp; cases p <;> first | rfl | exact absurd (by decide) hp
  · exact List.mem_reverse.mpr (List.mem_cons_of_mem _ List.mem_cons_self)
  · exact List.mem_reverse.mpr List.mem_cons_self

theorem resume_rows (s : State) (hl : linkOn s = true) :
    (∀ x w, atBoundary s 0 = true → s.ula.susp = some (x, w) → x.fail = none → mustResume s = true →
      ∃ t, exec .ulaResume s = .next t ∧ t.ports[(0 : PortN)].txCur = some x ∧ t.ula.susp = none ∧
        t.ula.arb.holder = s.ula.arb.aside ∧ t.ula.arb.aside = none ∧ .rsm 0 w ∈ t.out ∧ portsBut 0 s t ∧
        only [.ula, .ports, .out] s t) ∧
    (∀ x w r, atBoundary s 0 = true → s.ula.susp = some (x, w) → x.fail = some r →
      ∃ t, exec .ulaResume s = .next t ∧ t.ula.susp = none ∧
        .eab 0 x.pkt (if x.done then x.len else w) r ∈ t.out ∧ .rsm 0 w ∈ t.out ∧
        only [.ula, .ports, .out] s t) ∧
    ((atBoundary s 0 = false ∨ s.ula.susp = none) → exec .ulaResume s = .next s) := by
  refine ⟨fun x w hb hs hf hm => ?_, fun x w r hb hs hf => ?_, fun h => ?_⟩
  · have hrow := (ulaResume_some hs).1 hf hm
    refine ⟨_, onLink_eq hl ((whenDo_holds hb).trans hrow), ?_, rfl, rfl, rfl, emit_done _ _,
      portsBut_modPort s 0 fun p => { p with txCur := some x }, ?_⟩
    · exact congrArg Port.txCur (modPort_self s 0 fun p => { p with txCur := some x })
    · intro p hp; cases p <;> first | rfl | exact absurd (by decide) hp
  · have hrow := (ulaResume_some hs).2 r hf
    obtain ⟨hparts, hsusp, heab, hrsm⟩ := closeSusp_rule hs r x.done
    have hafter : Passes [.ports, .out] (closeSusp s r x.done) (boundary (sweepRx (closeSusp s r x.done)) 0) :=
      (sweepRx_passes _).seq (boundary_passes _ 0)
    exact ⟨_, onLink_eq hl ((whenDo_holds hb).trans hrow), hafter.susp hsusp, hafter.outs.subset heab,
      hafter.outs.subset hrsm, hparts.seq hafter.parts⟩
  · rcases h with h | h
    · exact onLink_eq hl (whenDo_fails h)
    · have hrow : ulaResume s = s := by unfold ulaResume; rw [h]
      cases hb : atBoundary s 0 with
      | false => exact onLink_eq hl (whenDo_fails hb)
      | true => exact onLink_eq hl ((whenDo_holds hb).trans hrow)

/-! ## The emergency save (R270, R363) -/

/-- The message of a vector goes out, or waits in the PBA. -/
theorem issueMsg_rule (s : State) (d : DomN) (v : Nat) :
    (issueMsg s d v).doms[d].producer = s.doms[d].producer ∧ domsBut d s (issueMsg s d v) ∧
    only [.aon, .pcie, .doms, .out] s (issueMsg s d v) := by
  refine ⟨?_, ?_, issueMsg_frame s d v⟩ <;> unfold issueMsg
  · split
    · rfl
    · split
      · rw [pbaVec, modDom_self]
      · exact congrArg (fun x : Vector Dom 8 => x[d].producer) ((toHost_issues s _).parts .doms (by decide))
  · split
    · exact fun _ _ => rfl
    · split
      · exact domsBut_modDom s d _
      · exact fun x _ => congrArg (fun v : Vector Dom 8 => v[x]) ((toHost_issues s _).parts .doms (by decide))

/-- The save area and the entry have gone out. -/
def saveWritten (s : State) : State :=
  emits (leaveL1 s) (hostWrites s 0 (s.doms[(0 : DomN)].sum + 0x800)
    (hostBytes (saveArea { s with hma := { s.hma with arb := aside19 s.hma.arb } })) ++
      preWrites s.doms[(0 : DomN)] (preEvent s))

/-- And the entry stands in the books of domain 0. -/
def saveBooked (s : State) (u : State) : State :=
  { modDom u 0 preDom with que := evfOffer s.wdt.timeAtExp (preEvent s).ev (modDom u 0 preDom).que }

/-- The save is complete. -/
def saved (u : State) : State := { u with wdt := { u.wdt with save := 2 } }

theorem emergencySave_eq (s : State) : emergencySave s =
    saved (issueMsg (saveBooked s (saveWritten s)) 0 (vectorOf s.doms[(0 : DomN)] 0x0D)) := rfl

theorem saveWritten_frame (s : State) : only [.aon, .pcie, .out] s (saveWritten s) :=
  (leaveL1_issues s).parts.seq (emits_frame _ _)

theorem saveBooked_frame (s u : State) : only [.doms, .que] u (saveBooked s u) :=
  (modDom_frame u 0 preDom).seq (que_frame _ _)

/-- The save, the entry and the message of requester 19. -/
theorem emergencySave_rule (s : State) : (emergencySave s).wdt = { s.wdt with save := 2 } ∧
    (emergencySave s).doms[(0 : DomN)].producer = s.doms[(0 : DomN)].producer + 1#16 ∧
    (emergencySave s).hma = s.hma ∧ domsBut 0 s (emergencySave s) ∧
    only [.wdt, .aon, .pcie, .doms, .que, .out] s (emergencySave s) := by
  rw [emergencySave_eq]
  have hw := saveWritten_frame s
  generalize saveWritten s = u at hw
  have hb := saveBooked_frame s u
  have hprod : (saveBooked s u).doms[(0 : DomN)].producer = s.doms[(0 : DomN)].producer + 1#16 := by
    have hu : u.doms = s.doms := hw .doms (by decide)
    exact (congrArg Dom.producer (modDom_self u 0 preDom)).trans (congrArg (fun v : Vector Dom 8 => v[(0 : DomN)].producer + 1#16) hu)
  have hothers : domsBut 0 s (saveBooked s u) := fun x hx =>
    (modDom_ne u 0 x preDom hx).trans (congrArg (fun v : Vector Dom 8 => v[x]) (hw .doms (by decide)))
  generalize saveBooked s u = w at hb hprod hothers
  obtain ⟨hmprod, hmothers, hm⟩ := issueMsg_rule w 0 (vectorOf s.doms[(0 : DomN)] 0x0D)
  generalize issueMsg w 0 (vectorOf s.doms[(0 : DomN)] 0x0D) = v at hmprod hmothers hm
  have hall : only [.aon, .pcie, .doms, .que, .out] s v := (hw.seq hb (rs := [.aon, .pcie, .doms, .que, .out])).seq hm
  have hwdt : v.wdt = s.wdt := hall .wdt (by decide)
  refine ⟨?_, hmprod.trans hprod, hall .hma (by decide), domsBut.seq hothers hmothers, hall.seq (wdt_frame v _)⟩
  exact congrArg (fun x : Wdt => { x with save := 2 }) hwdt

theorem emergency_rows (s : State) (hl : linkOn s = true) :
    (s.wdt.save = 1 → fnLive s 0 = true → s.hma.arb.holder = none →
      ∃ t, exec .emergencyGrant s = .next t ∧ t.wdt = { s.wdt with save := 2 } ∧
        t.doms[(0 : DomN)].producer = s.doms[(0 : DomN)].producer + 1#16 ∧ t.hma.arb = s.hma.arb ∧
        domsBut 0 s t ∧ only [.wdt, .aon, .pcie, .doms, .hma, .que, .out] s t) ∧
    (∀ r d a bs, s.wdt.save = 1 → fnLive s 0 = true → s.hma.arb.holder = some r → s.hma.cur = none →
      s.hma.left = some (d, a, bs) →
      ∃ t, exec .emergencyGrant s = .next t ∧ t.wdt = { s.wdt with save := 2 } ∧
        t.doms[(0 : DomN)].producer = s.doms[(0 : DomN)].producer + 1#16 ∧ .hostWrite d a bs ∈ t.out ∧
        t.hma.left = none ∧ only [.wdt, .aon, .pcie, .doms, .ln, .hma, .que, .out] s t) ∧
    ((s.wdt.save ≠ 1 ∨ fnLive s 0 = false) → exec .emergencyGrant s = .next s) := by
  obtain ⟨hwdt, hprod, hhma, hothers, hparts⟩ := emergencySave_rule s
  have hgo (hs : s.wdt.save = 1) (hf : fnLive s 0 = true) :
      exec .emergencyGrant s = .next (issueHeld (emergencySave s)) := by
    have hb : (decide (s.wdt.save = 1) && fnLive s 0) = true := by rw [hf]; simp [hs]
    have hres : resumeAside emergencySave s = issueHeld (emergencySave s) := by
      have he : (emergency s && !emergency (emergencySave s)) = true := by
        unfold emergency
        rw [hwdt, hs]
        rfl
      exact if_pos he
    exact onLink_eq hl ((whenDo_holds hb).trans hres)
  have hcalm : emergency (emergencySave s) = false := by unfold emergency; rw [hwdt]; rfl
  generalize emergencySave s = u at hwdt hprod hhma hothers hparts hgo hcalm
  refine ⟨fun hs hf hh => ?_, fun r d a bs hs hf hh hc hleft => ?_, fun h => ?_⟩
  · have hheld : issueHeld u = u := by
      unfold issueHeld
      rw [hcalm, hhma, hh]
      rfl
    exact ⟨_, (hgo hs hf).trans (congrArg Host.Outcome.next hheld), hwdt, hprod, congrArg Hma.arb hhma, hothers,
      hparts.widen⟩
  · have hheld : issueHeld u = hmaDone (toHost { u with hma := { u.hma with left := none } } (.hostWrite d a bs)) r := by
      unfold issueHeld
      rw [hcalm, if_neg Bool.false_ne_true]
      have hh' : u.hma.arb.holder = some r := by rw [hhma]; exact hh
      have hc' : u.hma.cur = none := by rw [hhma]; exact hc
      have hl' : u.hma.left = some (d, a, bs) := by rw [hhma]; exact hleft
      rw [hh', hc', hl']
    have hset := hma_frame u { u.hma with left := none }
    have hput := toHost_issues { u with hma := { u.hma with left := none } } (.hostWrite d a bs)
    have hdone := toHost_done { u with hma := { u.hma with left := none } } (.hostWrite d a bs)
    have hhm : (toHost { u with hma := { u.hma with left := none } } (.hostWrite d a bs)).hma = { u.hma with left := none } :=
      hput.parts .hma (by decide)
    generalize toHost { u with hma := { u.hma with left := none } } (.hostWrite d a bs) = w at hput hdone hhm hheld
    have hlast := hmaDone_issues w r
    have hkept : (hmaDone w r).hma.left = none := by
      have hw : w.hma.left = none := congrArg Hma.left hhm
      unfold hmaDone
      split <;> exact hw
    have hframe : only [.aon, .pcie, .hma, .out] u (hmaDone w r) :=
      (hset.seq hput.parts (rs := [.aon, .pcie, .hma, .out])).seq hlast.parts
    refine ⟨_, (hgo hs hf).trans (congrArg Host.Outcome.next hheld), ?_, ?_, hlast.outs.subset hdone, hkept,
      hparts.seq hframe⟩
    · exact (hframe .wdt (by decide)).trans hwdt
    · exact (congrArg (fun v : Vector Dom 8 => v[(0 : DomN)].producer) (hframe .doms (by decide))).trans hprod
  · refine onLink_eq hl (whenDo_fails ?_)
    rcases h with h | h <;> simp [h]

/-! ## Cut-offs (R268, R269) -/

theorem raiseCutoff_asks (s : State) (w r : Nat) :
    only starveParts s (raiseCutoff s w r) ∧ s.out <:+ (raiseCutoff s w r).out := by
  have hr := raise_asks s { code := 0x0B, src := r, w1 := w16 w }
  exact ⟨hr.parts.seq (bbLink_only _ _ _ _ _), hr.outs⟩

/-- The holder r of the path cut off, its request kept: the state in which the next decision is taken. -/
def pathCut (s : State) (r : Nat) (q : HReq) : State :=
  let s1 := match q with
    | .watch d pre => { s with que := { s.que with watches := (d, pre) :: s.que.watches } }
    | _ => setQueue s r (q :: queueOf s r)
  hmaDone (setHma s1 { s1.hma.arb with cuts := putVec s1.hma.arb.cuts r true }) r

/-- A teardown that waits for the holder remembers that it was cut off. -/
def cutNoted (s u : State) (r : Nat) : State :=
  if r < 8 && s.doms[engineDom r].st = .teardown then modDom u (engineDom r) fun x => { x with tdCut := true } else u

theorem hmaCut_eq (s : State) (r : Nat) (q : HReq) :
    hmaCut s r q = hmaDecide (raiseCutoff (cutNoted s (pathCut s r q) r) 0 r) := rfl

theorem pathCut_rule {s : State} {r : Nat} (hh : s.hma.arb.holder = some r) (hr : r < 32) (q : HReq) :
    only [.hma, .que] s (pathCut s r q) ∧ (pathCut s r q).hma.arb.holder = none ∧
    (pathCut s r q).hma.arb.cuts.getLsbD r = true := by
  have hkept : ∃ u : State, only [.hma, .que] s u ∧ u.hma.arb = s.hma.arb ∧
      pathCut s r q = hmaDone (setHma u { u.hma.arb with cuts := putVec u.hma.arb.cuts r true }) r := by
    unfold pathCut
    split
    · rename_i d pre
      exact ⟨{ s with que := { s.que with watches := (d, pre) :: s.que.watches } }, (que_frame s _).widen, rfl, rfl⟩
    · exact ⟨setQueue s r (q :: queueOf s r), (setQueue_frame s r _).widen, rfl, rfl⟩
  obtain ⟨u, hu, harb, heq⟩ := hkept
  have hset : only [.hma] u (setHma u { u.hma.arb with cuts := putVec u.hma.arb.cuts r true }) := hma_frame u _
  have hdone : hmaDone (setHma u { u.hma.arb with cuts := putVec u.hma.arb.cuts r true }) r =
      { u with hma := { u.hma with
        cur := none, arb := { u.hma.arb with cuts := putVec u.hma.arb.cuts r true, holder := none } } } :=
    if_pos (show u.hma.arb.holder = some r by rw [harb]; exact hh)
  refine ⟨?_, ?_, ?_⟩
  · rw [heq]
    exact (hu.seq hset (rs := [.hma, .que])).seq (hmaDone_frame _ r)
  · rw [heq, hdone]
  · rw [heq, hdone]
    exact (getLsbD_putVec _ r true hr).trans (if_pos rfl)

theorem hmaCut_rule {s : State} {r : Nat} (hh : s.hma.arb.holder = some r) (hr : r < 32) (q : HReq) :
    (hmaCut s r q).hma.arb.cuts.getLsbD r = true ∧ (hmaCut s r q).hma.arb.holder ≠ some r ∧
    only pathParts s (hmaCut s r q) := by
  obtain ⟨hparts, hhold, hcuts⟩ := pathCut_rule hh hr q
  rw [hmaCut_eq]
  generalize pathCut s r q = u at hparts hhold hcuts
  have hnote : only [.doms] u (cutNoted s u r) := only_ite _ (modDom_frame u _ _) (only_refl _ u)
  generalize cutNoted s u r = v at hnote
  obtain ⟨hraise, -⟩ := raiseCutoff_asks v 0 r
  generalize raiseCutoff v 0 r = w at hraise
  have hall : only [.bb, .aon, .doms, .que, .out] u w := hnote.seq hraise
  have hhma : w.hma = u.hma := hall .hma (by decide)
  obtain ⟨hdp, hdc, hdh⟩ := hmaDecide_rule w
  have hwc : w.hma.arb.cuts.getLsbD r = true := by rw [hhma]; exact hcuts
  refine ⟨by rw [hdc]; exact hwc, hdh r (by rw [hhma]; exact hhold) hwc, ?_⟩
  exact (hparts.seq hall (rs := pathParts)).seq hdp

theorem pathCutoff_rows (s : State) (hl : linkOn s = true) :
    (∀ r q, s.hma.arb.holder = some r → s.hma.cur = some q → bit s.hma.arb.ctrl 0 = true → (r < 8 ∨ r = 16) →
      s.wdt.save ≠ 1 →
      ∃ t, exec (.holdCutoff .hma) s = .next t ∧ t.hma.arb.cuts.getLsbD r = true ∧ t.hma.arb.holder ≠ some r ∧
        only [.bb, .aon, .pcie, .doms, .ln, .hma, .que, .out] s t) ∧
    (bit s.hma.arb.ctrl 0 = false → exec (.holdCutoff .hma) s = .next s) := by
  have hrow {r : Nat} {q : HReq} (hh : s.hma.arb.holder = some r) (hq : s.hma.cur = some q) :
      holdCutoff s .hma = if bit s.hma.arb.ctrl 0 && (r < 8 || r = 16) && !emergency s then hmaCut s r q else s := by
    unfold holdCutoff
    rw [hh, hq]
  refine ⟨fun r q hh hq hb hr hs => ?_, fun hb => onLink_eq hl ?_⟩
  · obtain ⟨hcut, hhold, hparts⟩ := hmaCut_rule hh (show r < 32 by omega) q
    have hc : (bit s.hma.arb.ctrl 0 && (decide (r < 8) || decide (r = 16)) && !emergency s) = true := by
      simp [hb, hr, emergency, hs]
    exact ⟨_, onLink_eq hl ((hrow hh hq).trans (if_pos hc)), hcut, hhold, hparts⟩
  · cases hh : s.hma.arb.holder with
    | none => unfold holdCutoff; rw [hh]
    | some r =>
      cases hq : s.hma.cur with
      | none => unfold holdCutoff; rw [hh, hq]
      | some q => exact (hrow hh hq).trans (if_neg (by rw [hb]; simp))

/-- UP's packet closed with EAB, and the holder cut off. -/
def upCut (s : State) (r : Nat) : State :=
  setUla s { s.ula.arb with cuts := putVec s.ula.arb.cuts r true }

theorem ulaCut_eq (s : State) (r : Nat) : ulaCut s r =
    if atBoundary (raiseCutoff (upCut (boundary (sweepRx (closeEab s 0 3 false)) 0) r) 1 r) 0 &&
      mayRun (raiseCutoff (upCut (boundary (sweepRx (closeEab s 0 3 false)) 0) r) 1 r)
    then ulaDecision (raiseCutoff (upCut (boundary (sweepRx (closeEab s 0 3 false)) 0) r) 1 r)
    else raiseCutoff (upCut (boundary (sweepRx (closeEab s 0 3 false)) 0) r) 1 r := rfl

theorem closeEab_out {s : State} {n : PortN} {x : TxPkt} (h : s.ports[n].txCur = some x) (reason : Nat) (whole : Bool) :
    ∃ w, .eab n x.pkt w reason ∈ (closeEab s n reason whole).out := by
  unfold closeEab
  rw [h]
  exact ⟨_, emit_done _ _⟩

theorem ulaCut_rule {s : State} {r : Nat} {x : TxPkt} (hr : r < 32) (hx : s.ports[(0 : PortN)].txCur = some x) :
    (ulaCut s r).ula.arb.cuts.getLsbD r = true ∧ (∃ w, .eab 0 x.pkt w 3 ∈ (ulaCut s r).out) ∧
    (ulaCut s r).bus = { s.bus with inbox := (ulaCut s r).bus.inbox } ∧ only upGrantParts s (ulaCut s r) := by
  obtain ⟨w, hw⟩ := closeEab_out hx 3 false
  have hclose : Passes [.ports, .ula, .out] s (boundary (sweepRx (closeEab s 0 3 false)) 0) :=
    ((closeEab_passes s 0 3 false).seq (sweepRx_passes _) (rs := [.ports, .ula, .out])).seq (boundary_passes _ 0)
  have hafter : Passes [.ports, .out] (closeEab s 0 3 false) (boundary (sweepRx (closeEab s 0 3 false)) 0) :=
    (sweepRx_passes _).seq (boundary_passes _ 0)
  have heab := hafter.outs.subset hw
  rw [ulaCut_eq]
  generalize boundary (sweepRx (closeEab s 0 3 false)) 0 = u at hclose heab
  have hcut : only [.ula] u (upCut u r) := ula_frame u _
  have hset : (upCut u r).ula.arb.cuts.getLsbD r = true := (getLsbD_putVec _ r true hr).trans (if_pos rfl)
  have houts : (upCut u r).out = u.out := rfl
  generalize upCut u r = v at hcut hset houts
  obtain ⟨hraise, hrouts⟩ := raiseCutoff_asks v 1 r
  generalize raiseCutoff v 1 r = y at hraise hrouts
  have hall : only upGrantParts s y := (hclose.parts.seq hcut (rs := upGrantParts)).seq hraise
  have hbus : y.bus = s.bus :=
    ((hraise .bus (by decide) :)).trans (((hcut .bus (by decide) :)).trans (hclose.parts .bus (by decide)))
  have hycut : y.ula.arb.cuts.getLsbD r = true := (congrArg (fun a : Ula => a.arb.cuts.getLsbD r) (hraise .ula (by decide))).trans hset
  have hyout : .eab 0 x.pkt w 3 ∈ y.out := hrouts.subset (by rw [houts]; exact heab)
  have hgo : UpGoes y (if atBoundary y 0 && mayRun y then ulaDecision y else y) := by
    split
    · exact ulaDecision_upGoes y
    · exact .refl y
  refine ⟨?_, ⟨w, hgo.outs.subset hyout⟩, ?_, hall.seq hgo.parts⟩
  · rw [hgo.cuts]; exact hycut
  · rw [hgo.bus, hbus]

theorem upCutoff_rows (s : State) (hl : linkOn s = true) :
    (∀ r x, s.ula.arb.holder = some r → bit s.ula.arb.ctrl 0 = true → r < 16 → s.ports[(0 : PortN)].txCur = some x →
      x.done = false →
      ∃ t, exec (.holdCutoff .ula) s = .next t ∧ t.ula.arb.cuts.getLsbD r = true ∧
        (∃ w, .eab 0 x.pkt w 3 ∈ t.out) ∧ t.bus = { s.bus with inbox := t.bus.inbox } ∧
        only [.bb, .aon, .doms, .ln, .ula, .que, .ports, .bus, .sur, .out] s t) ∧
    (bit s.ula.arb.ctrl 0 = false → exec (.holdCutoff .ula) s = .next s) := by
  refine ⟨fun r x hh hb hr hx hd => ?_, fun hb => onLink_eq hl ?_⟩
  · have hc : (bit s.ula.arb.ctrl 0 && decide (r < 16) && s.ports[(0 : PortN)].txCur.any (fun t => !t.done)) = true := by
      rw [hx, hb]
      simp [hr, hd]
    have hrow : holdCutoff s .ula = ulaCut s r := by
      unfold holdCutoff
      rw [hh]
      exact if_pos hc
    exact ⟨_, onLink_eq hl hrow, ulaCut_rule (by omega) hx⟩
  · cases hh : s.ula.arb.holder with
    | none => unfold holdCutoff; rw [hh]
    | some r => unfold holdCutoff; rw [hh]; exact if_neg (by rw [hb]; simp)

/-! ## CUT bits (R269) -/

theorem cutOff_at (arb : ArbName) (half : Fin 2) : (cutOff arb + 4 * half.val) % 4 = 0 ∧
    cutOff arb + 4 * half.val < 0x10000 ∧
    regAtWord ((cutOff arb + 4 * half.val) / 4) = some (.arb arb (.cut half)) := by
  revert half
  cases arb <;> decide

theorem exec_cutClear {p : Path} (arb : ArbName) (half : Fin 2) (v : Word) {s : State} (h : reaches s p = true) :
    exec (.cutClear p arb half v) s = .next (arbWrite s p arb v (.cut half)) := by
  obtain ⟨h4, ho, hr⟩ := cutOff_at arb half
  exact regRow_reaches s p _ v _ h h4 ho hr

/-- Only the PF and the management port clear CUT bits. -/
theorem arbBarred_cut (p : Path) (i : Fin 2) : arbBarred p (.cut i) = (p != .pf && p != .mg) := Bool.and_true _

theorem cutClear_rows (p : Path) (half : Fin 2) (v : Word) (s : State) (h : reaches s p = true)
    (hp : p = .pf ∨ p = .mg) :
    (∃ t, exec (.cutClear p .hma half v) s = .next t ∧
      t.hma = { s.hma with arb := { s.hma.arb with
        cuts := s.hma.arb.cuts &&& ~~~(BitVec.ofNat 32 (v.toNat * 65536 ^ half.val)) } } ∧ only [.hma] s t) ∧
    (∃ t, exec (.cutClear p .ula half v) s = .next t ∧
      t.ula = { s.ula with arb := { s.ula.arb with
        cuts := s.ula.arb.cuts &&& ~~~(BitVec.ofNat 32 (v.toNat * 65536 ^ half.val)) } } ∧ only [.ula] s t) := by
  have hrow (arb : ArbName) : exec (.cutClear p arb half v) s =
      .next (cutClear s arb (BitVec.ofNat 32 (v.toNat * 65536 ^ half.val))) := by
    rw [exec_cutClear arb half v h]
    have hb : ¬ arbBarred p (.cut half) = true := by
      rw [arbBarred_cut]
      rcases hp with rfl | rfl <;> decide
    exact congrArg Host.Outcome.next (if_neg hb)
  exact ⟨⟨_, hrow .hma, rfl, hma_frame s _⟩, ⟨_, hrow .ula, rfl, ula_frame s _⟩⟩

theorem cutClear_barred (p : Path) (half : Fin 2) (v : Word) (arb : ArbName) (s : State) (h : reaches s p = true)
    (h1 : p ≠ .pf) (h2 : p ≠ .mg) : exec (.cutClear p arb half v) s = .next s := by
  rw [exec_cutClear arb half v h]
  have hb : arbBarred p (.cut half) = true := by
    rw [arbBarred_cut]
    simp [h1, h2]
  exact congrArg Host.Outcome.next (if_pos hb)

/-! ## The queue checks (R278 to R285) -/

theorem mismatch_rows (q : Nat) (wr rd : Bool) (s : State) (hp : powerOn s = true) :
    (queueIds.contains q = false → exec (.queuePointerMismatch q wr rd) s = .next s) ∧
    (queueIds.contains q = true → linkOn s = true →
      ∃ t, exec (.queuePointerMismatch q wr rd) s = .next t ∧ t.que.last = queueLast q wr rd false ∧
        t.que.errCnt = satInc 65535 s.que.errCnt ∧
        only [.bb, .pps, .aon, .pcie, .doms, .ln, .hma, .ula, .que, .ports, .tt, .tb, .sur, .out] s t) ∧
    (q = 0x73 → linkOn s = false →
      ∃ t, exec (.queuePointerMismatch q wr rd) s = .next t ∧ t.aon.xq = [] ∧
        t.aon.xqErr = s.aon.xqErr ++ [queueLast 0x73 wr rd false] ∧ only [.aon] s t) := by
  refine ⟨fun hq => exec_onPower hp ?_, fun hq hl => ?_, fun hq hl => ?_⟩
  · exact if_pos (by rw [hq]; rfl)
  · obtain ⟨hparts, hcnt, hlast, -⟩ := queueMismatch_rule hl hq wr rd false
    exact ⟨_, exec_onPower hp rfl, hlast, hcnt, hparts⟩
  · subst hq
    have hrow : queueMismatch s 0x73 wr rd false =
        { s with aon := { resetXq s.aon with xqErr := s.aon.xqErr ++ [queueLast 0x73 wr rd false] } } := by
      have hc : ¬ (!queueIds.contains 0x73) = true := by decide
      unfold queueMismatch
      dsimp only
      rw [if_neg hc, if_neg (by rw [hl]; exact Bool.false_ne_true)]
      exact if_pos rfl
    exact ⟨_, exec_onPower hp hrow, rfl, rfl, aon_frame s _⟩

theorem translator_row (wr rd : Bool) (s : State) (hl : linkOn s = true) :
    ∃ t, exec (.queuePointerMismatch 0x40 wr rd) s = .next t ∧ (∀ j : Fin 48, t.tt.slots[j] = none) ∧
      only [.bb, .pps, .aon, .pcie, .doms, .ln, .hma, .ula, .que, .ports, .tt, .tb, .sur, .out] s t := by
  obtain ⟨hparts, -, -, htt⟩ := queueMismatch_rule hl (q := 0x40) (by decide) wr rd false
  refine ⟨_, exec_onPower (powerOn_of_linkOn s hl) rfl, fun j => ?_, hparts⟩
  have heff : queueEffect s 0x40 = resetTt s := rfl
  exact (congrArg (fun x : Tt => x.slots[j]) (htt.trans (congrArg State.tt heff))).trans (resetTt_slots s j)

theorem queueLast_fields {q : Nat} (h : queueIds.contains q = true) (wr rd : Bool) :
    fld (queueLast q wr rd true) 0 8 = q ∧ bit (queueLast q wr rd true) 10 = true := by
  have hall : ∀ x ∈ queueIds, ∀ w r : Bool,
      fld (queueLast x w r true) 0 8 = x ∧ bit (queueLast x w r true) 10 = true := by decide
  exact hall q (List.contains_iff_mem.mp h) wr rd

/-- What a write of Q_CTRL with the queue in its upper byte says. -/
theorem qCtrl_fields {q : Nat} (h : q < 256) {b : Nat} (hb : b < 256) :
    fld (w16 (q * 256 + b)) 8 8 = q ∧ (∀ i < 8, bit (w16 (q * 256 + b)) i = b.testBit i) := by
  have hn : (w16 (q * 256 + b)).toNat = q * 256 + b :=
    (BitVec.toNat_ofNat _ 16).trans (Nat.mod_eq_of_lt (by omega))
  refine ⟨?_, fun i hi => ?_⟩
  · unfold fld
    rw [hn, Nat.shiftRight_eq_div_pow]
    omega
  · unfold bit
    rw [BitVec.getLsbD, hn, show q * 256 + b = 2 ^ 8 * q + b by omega, Nat.testBit_two_pow_mul_add _ hb,
      if_pos hi]

theorem queueInject_row (p : Path) (q : BitVec 8) (s : State) (h : reaches s p = true)
    (hq : queueIds.contains q.toNat = true) :
    ∃ t, exec (.queueInject p q) s = .next t ∧ t.que.errCnt = satInc 65535 s.que.errCnt ∧
      fld t.que.last 0 8 = q.toNat ∧ bit t.que.last 10 = true ∧
      only [.bb, .pps, .aon, .pcie, .doms, .ln, .hma, .ula, .que, .ports, .tt, .tb, .sur, .out] s t := by
  have hl := linkOn_of_reaches s p h
  obtain ⟨hfld, hbit⟩ := qCtrl_fields q.isLt (b := 1) (by decide)
  have hkept : (if bit (w16 (q.toNat * 256 + 1)) 1 then 0 else s.que.errCnt) = s.que.errCnt :=
    if_neg (by rw [hbit 1 (by decide)]; decide)
  have hrow : exec (.queueInject p q) s =
      .next (queueInject { s with que := { s.que with injQ := q.toNat, errCnt := s.que.errCnt } } q.toNat) := by
    refine (regRow_reaches s p 0xE00 _ .qCtrl h (by decide) (by decide) (by decide)).trans (congrArg _ ?_)
    refine (if_pos ?_).trans ?_
    · rw [hbit 0 (by decide)]; decide
    · rw [hfld, hkept]
  have hset := que_frame s { s.que with injQ := q.toNat, errCnt := s.que.errCnt }
  have hon : linkOn { s with que := { s.que with injQ := q.toNat, errCnt := s.que.errCnt } } = true := hl
  have hcnt : ({ s with que := { s.que with injQ := q.toNat, errCnt := s.que.errCnt } } : State).que.errCnt =
    s.que.errCnt := rfl
  generalize ({ s with que := { s.que with injQ := q.toNat, errCnt := s.que.errCnt } } : State) = u
    at hrow hset hon hcnt
  obtain ⟨hparts, herr, hlast, -⟩ := queueMismatch_rule hon hq (bit (Config.reading u.fresh) 0)
    (bit (Config.reading u.fresh) 1) true
  obtain ⟨hf, hb⟩ := queueLast_fields hq (bit (Config.reading u.fresh) 0) (bit (Config.reading u.fresh) 1)
  refine ⟨_, hrow, ?_, ?_, ?_, ?_⟩
  · exact herr.trans (congrArg (satInc 65535) hcnt)
  · exact (congrArg (fld · 0 8) hlast).trans hf
  · exact (congrArg (bit · 10) hlast).trans hb
  · exact (hset.seq hparts (rs := discardParts)).seq (bump_frame _)

theorem qCntClr_row (p : Path) (s : State) (h : reaches s p = true) (hi : s.que.injQ < 256) :
    ∃ t, exec (.qCntClr p) s = .next t ∧ t.que = { s.que with errCnt := 0 } ∧ only [.que] s t := by
  obtain ⟨hfld, hbit⟩ := qCtrl_fields hi (b := 2) (by decide)
  have hrow : exec (.qCntClr p) s = .next { s with que := { s.que with injQ := s.que.injQ, errCnt := 0 } } := by
    refine (regRow_reaches s p 0xE00 _ .qCtrl h (by decide) (by decide) (by decide)).trans (congrArg _ ?_)
    refine (if_neg ?_).trans ?_
    · rw [hbit 0 (by decide)]; decide
    · rw [hfld, if_pos (by rw [hbit 1 (by decide)]; decide)]
  exact ⟨_, hrow, rfl, que_frame s _⟩

theorem evfFlush_row (p : Path) (s : State) (h : reaches s p = true)
    (hc : s.que.evfCtrl &&& 0x1FFF#16 = s.que.evfCtrl) :
    ∃ t, exec (.evfFlush p) s = .next t ∧ t.que = { s.que with evf := [], evfLost := 0 } ∧ only [.que] s t := by
  have hkept : (s.que.evfCtrl ||| 0x2000#16) &&& 0x1FFF#16 = s.que.evfCtrl := by
    rw [BitVec.and_comm, BitVec.and_or_distrib_left, BitVec.and_comm _ s.que.evfCtrl, hc]
    exact BitVec.or_zero
  have hrow : exec (.evfFlush p) s =
      .next { s with que := evfFlush { s.que with evfCtrl := s.que.evfCtrl } } := by
    refine (regRow_reaches s p 0xE14 _ .evfCtrl h (by decide) (by decide) (by decide)).trans (congrArg _ ?_)
    refine congrArg (fun q : Que => { s with que := q }) ((if_pos ?_).trans ?_)
    · rw [bit_or]; exact Bool.or_true _
    · rw [hkept]
  exact ⟨_, hrow, rfl, que_frame s _⟩

/-- A read of EVF_DATA0 by the management port takes the oldest event. -/
theorem exec_evfPop {s : State} (hl : linkOn s = true) : ∃ t, exec .evfPop s = .next t ∧
    t.que = evfPop s.que ∧ only [.mg, .que, .out] s t := by
  have hr : mgReg 0x387 = some (.evfData 0) := by decide
  have hon : linkOn (emit s (.mgStatus (mgStatusByte s))) = true := hl
  refine ⟨_, exec_onPower (powerOn_of_linkOn s hl) rfl, ?_, ?_⟩
  all_goals
    unfold mgFrame
    dsimp only
    have hout := emit_only s (.mgStatus (mgStatusByte s))
    have hque : (emit s (.mgStatus (mgStatusByte s))).que = s.que := rfl
    generalize emit s (.mgStatus (mgStatusByte s)) = u at hon hout hque
    have hread : mgReadWord u 0x387 =
        emit { u with que := evfPop u.que } (.readData .mg (readReg { u with que := evfPop u.que } .mg (.evfData 0))) := by
      have hm : ¬ mgMisses u 0x387 = true := by unfold mgMisses; rw [hon]; exact Bool.false_ne_true
      unfold mgReadWord
      rw [if_neg hm, hr]
      rfl
    rw [hread]
  · exact congrArg evfPop hque
  · exact ((hout.seq (que_frame u (evfPop u.que)) (rs := [.mg, .que, .out])).seq (emit_only _ _)
      (rs := [.mg, .que, .out])).seq (mg_frame _ _)

theorem evfPop_rows (s : State) (hl : linkOn s = true) :
    (∀ e l, s.que.evf = e :: l →
      ∃ t, exec .evfPop s = .next t ∧ t.que = { s.que with evf := l, evfData := e } ∧ only [.mg, .que, .out] s t) ∧
    (s.que.evf = [] →
      ∃ t, exec .evfPop s = .next t ∧ t.que = { s.que with evfUnder := true } ∧ only [.mg, .que, .out] s t) := by
  obtain ⟨t, hrow, hque, hparts⟩ := exec_evfPop hl
  refine ⟨fun e l he => ⟨t, hrow, hque.trans ?_, hparts⟩, fun he => ⟨t, hrow, hque.trans ?_, hparts⟩⟩
  · unfold evfPop
    rw [he]
  · unfold evfPop
    split
    · rename_i h
      rw [he] at h
      cases h
    · rfl

/-! ## Decisions (R263) -/

theorem decision_rows (s : State) (hl : linkOn s = true) :
    (hmaFree s = false → exec .hmaDecision s = .next s) ∧
    (∀ r, hmaFree s = true → winner (tidyAll s).hma.arb 19 (hmaElig (tidyAll s)) (hmaLvl (tidyAll s)) = some r →
      ∃ t, exec .hmaDecision s = .next t ∧ t.hma.arb.ptr = (s.hma.arb.ptr + 1) % 64 ∧ vAt t.hma.arb.gage 0 r = 0 ∧
        only [.bb, .aon, .pcie, .doms, .ln, .hma, .que, .out] s t) ∧
    (hmaFree s = true → winner (tidyAll s).hma.arb 19 (hmaElig (tidyAll s)) (hmaLvl (tidyAll s)) = none →
      ∃ t, exec .hmaDecision s = .next t ∧ t.hma.arb = s.hma.arb ∧ only [.doms, .hma] s t) ∧
    ((atBoundary s 0 = false ∨ mayRun s = false) → exec .ulaDecision s = .next s) ∧
    (∀ r x, atBoundary s 0 = true → mayRun s = true →
      winner s.ula.arb 28 (fun y => (ulaCand s (suspLvl s) y).isSome) (ulaLvl s (suspLvl s)) = some r →
      ulaCand s (suspLvl s) r = some x →
      ∃ t, exec .ulaDecision s = .next t ∧ t.ula.arb.holder = some r ∧
        t.ports[(0 : PortN)].txCur = some (withTurn s x) ∧ t.ula.arb.ptr = (s.ula.arb.ptr + 1) % 64 ∧
        vAt t.ula.arb.gage 0 r = 0 ∧ portsBut 0 s t ∧ t.bus = { s.bus with inbox := t.bus.inbox } ∧
        only [.bb, .aon, .doms, .ln, .ula, .que, .ports, .bus, .sur, .out] s t) ∧
    (winner s.ula.arb 28 (fun y => (ulaCand s (suspLvl s) y).isSome) (ulaLvl s (suspLvl s)) = none →
      s.ports[(0 : PortN)].txCur = none → exec .ulaDecision s = .next s) := by
  have ht := tidyAll_asks s
  refine ⟨fun h => onLink_eq hl (whenDo_fails h), fun r hf hw => ?_, fun hf hw => ?_, fun h => ?_,
    fun r x hb hm hw hc => ?_, fun hw hx => ?_⟩
  · obtain ⟨hparts, hptr, hgage, -⟩ := hmaGrant_rule (tidyAll s) r
    refine ⟨_, onLink_eq hl ((whenDo_holds hf).trans (hmaDecide_some hw)), ?_, hgage, ht.parts.seq hparts⟩
    rw [hptr, ht.arb]
  · exact ⟨_, onLink_eq hl ((whenDo_holds hf).trans (hmaDecide_none hw)), ht.arb, ht.parts⟩
  · refine onLink_eq hl (whenDo_fails ?_)
    rcases h with h | h <;> simp [h]
  · obtain ⟨hhold, hcur, hptr, hgage⟩ := ulaDecision_wins hw hc
    have hgo := ulaDecision_upGoes s
    have hrun : (atBoundary s 0 && mayRun s) = true := by simp [hb, hm]
    exact ⟨_, onLink_eq hl (whenDo_holds hrun), hhold, hcur, hptr, hgage, hgo.others, hgo.bus, hgo.parts⟩
  · have hstay : ulaDecision s = s := by
      have hd : ulaDecide s (suspLvl s) = s := by unfold ulaDecide; rw [hw]
      unfold ulaDecision
      rw [hd]
      exact if_neg (by rw [show s.ports[0].txCur = none from hx]; exact Bool.false_ne_true)
    cases hrun : (atBoundary s 0 && mayRun s) with
    | false => exact onLink_eq hl (whenDo_fails hrun)
    | true => exact onLink_eq hl ((whenDo_holds hrun).trans hstay)

/-- Settles O55: it holds. A cut-off puts the holder's request back and a decision follows, which never takes a requester
whose CUT bit is set; the effect of a queue reset leaves the registers of the queue checks to its report. -/
theorem arbitersAndQueues : Obligations.ArbitersAndQueues := by
  unfold Obligations.ArbitersAndQueues
  refine ⟨preempt_rows, fun s hl => ?_, cutClear_rows, fun p half v arb s h h1 h2 => cutClear_barred p half v arb s h h1 h2,
    mismatch_rows, translator_row, fun p q s h => ⟨queueInject_row p q s h, qCntClr_row p s h, evfFlush_row p s h⟩,
    evfPop_rows, winner_rule, decision_rows⟩
  obtain ⟨hresume, hfail, hrest⟩ := resume_rows s hl
  obtain ⟨hsave, hleft, hnone⟩ := emergency_rows s hl
  obtain ⟨hcut, hoff⟩ := pathCutoff_rows s hl
  obtain ⟨hup, hupOff⟩ := upCutoff_rows s hl
  exact ⟨hresume, hfail, hrest, hsave, hleft, hnone, hcut, hup, hoff, hupOff⟩

end Sys2Proof.Machine
end

section
/-! SUPPORT. Commands of a ring: what their effects leave of the domains (R218, R219). -/

namespace Sys2Proof.Machine

open Sys2Proof Sys2Proof.Safety

-- One proof after the other: side by side, the proofs of one text wait for each other in too many threads.
set_option Elab.async false


/-- No domain has changed but in its events and messages. -/
def Calm (s t : State) : Prop := ∀ x : DomN, settled t.doms[x] = settled s.doms[x]

theorem Calm.refl (s : State) : Calm s s := fun _ => rfl

theorem Calm.seq {s t u : State} (h : Calm s t) (k : Calm t u) : Calm s u := fun x => (k x).trans (h x)

theorem calm_ite (c : Prop) [Decidable c] {s t u : State} (ht : Calm s t) (hu : Calm s u) :
    Calm s (if c then t else u) := by
  split <;> assumption

theorem calm_of_only {ps : List Part} {s t : State} (h : only ps s t) (hp : .doms ∉ ps := by decide) : Calm s t :=
  fun x => congrArg (fun v : Vector Dom 8 => settled v[x]) (h .doms hp)

theorem forEach_calm {α : Type} (l : List α) (f : State → α → State) (s : State) (h : ∀ a x, Calm a (f a x)) :
    Calm s (forEach l f s) := by
  induction l generalizing s with
  | nil => exact .refl s
  | cons x l ih => exact (h s x).seq (ih (f s x))

theorem Asks.calm {ps : List Part} {s t : State} (h : Asks ps s t) : Calm s t := h.doms

theorem Issues.calm {ps : List Part} {s t : State} (h : Issues ps s t) : Calm s t := h.doms

theorem raise_calm (s : State) (e : Ev) : Calm s (raise s e) := (raise_asks s e).calm

/-! ## Links that go down -/

theorem portEvt_calm (s : State) (n : PortN) (bits : Word) : Calm s (portEvt s n bits) :=
  calm_ite _ (calm_of_only (modPort_only s n _)) ((calm_of_only (modPort_only s n _)).seq (raise_calm _ _))

theorem loseLock_calm (s : State) : Calm s (loseLock s) :=
  calm_ite _ (.refl s) (((calm_of_only (tb_frame s _)).seq (raise_calm _ _)).seq (calm_of_only (bbLink_only _ _ _ _ _)))

theorem linkDown_calm (s : State) (n : PortN) (reason : Nat) : Calm s (linkDown s n reason) := by
  have hwork (u : State) : Calm u (settleWork n u) := by
    unfold settleWork
    split
    · exact ((calm_of_only (settleUp_passes u).parts).seq (calm_of_only (sur_frame _ _))).seq (loseLock_calm _)
    · exact calm_of_only (settleDown_passes u _).parts
  have hsettle (u : State) : Calm u (settleLink n u) :=
    ((calm_of_only (modPort_only u n unlinked)).seq (hwork _)).seq (portEvt_calm _ n _)
  rw [linkDown_eq]
  exact ((calm_of_only (endTx_passes s n 3).parts).seq (calm_of_only (bbLink_only _ _ _ _ _))).seq (hsettle _)

theorem retrain_calm (s : State) (n : PortN) (reason : Nat) : Calm s (retrain s n reason) := by
  have hr : retrain s n reason = suspHold (modPort (linkDown (retrainSent s n reason) n reason) n portAlign) n := rfl
  rw [hr]
  exact (((calm_of_only (retrainSent_passes s n reason).parts).seq (linkDown_calm _ n reason)).seq
    (calm_of_only (modPort_only _ n portAlign))).seq (calm_of_only (suspHold_frame _ n))

theorem startTrial_calm (s : State) (n : PortN) (r : Nat) : Calm s (startTrial s n r) := by
  unfold startTrial
  exact ((calm_of_only (modPort_only s n _)).seq (calm_of_only (sendTs2_passes _ n _ _ _).parts)).seq
    (calm_of_only (suspHold_frame _ n))

theorem reeval_calm (s : State) (n : PortN) : Calm s (reeval s n) := by
  have hflush : Calm s (flushTs (endTx s n 3) n) :=
    (calm_of_only (endTx_passes s n 3).parts).seq (calm_of_only (flushTs_passes _ n).parts)
  unfold reeval
  refine calm_ite _ (.refl s) (calm_ite _ ?_ (calm_ite _ (calm_ite _ (.refl s) (hflush.seq (retrain_calm _ n 7)))
    (.refl s)))
  split
  · exact calm_ite _ ((linkDown_calm s n 10).seq (startTrial_calm _ n _)) (.refl s)
  · exact calm_of_only (modPort_only s n _)

/-! ## Switches and the budget -/

theorem modLegs_calm (s : State) (l : DnN) (f : Pps → Pps) : Calm s (modLegs s l f) :=
  forEach_calm _ _ s fun a x => calm_ite _ (.refl a) (calm_of_only (modPps_frame a x f))

theorem evBudget_calm (s : State) (src : Nat) : Calm s (evBudget s src) := raise_calm s _

theorem passWait_calm (s : State) (m : DnN) : Calm s (passWait s m) := by
  have hrsv := calm_of_only (modPps_frame s m fun q => { q with rsv := true, due := true })
  exact calm_ite _ (calm_ite _ (hrsv.seq (modLegs_calm _ m _)) hrsv) (.refl s)

theorem passPend_calm (s : State) (m : DnN) : Calm s (passPend s m) :=
  calm_ite _ (calm_ite _ (((calm_of_only (modPps_frame s m _)).seq (evBudget_calm _ _)).seq (reeval_calm _ _)) (.refl s))
    (.refl s)

theorem budgetPass_calm (s : State) : Calm s (budgetPass s) :=
  forEach_calm _ _ s fun a m => (passWait_calm a m).seq (passPend_calm _ m)

theorem reserveStart_calm (s : State) (l : DnN) : Calm s (reserveStart s l) := by
  have hwait (u : State) (due : Bool) : Calm u (enterWait u l due) := (modLegs_calm u l _).seq (evBudget_calm _ _)
  exact calm_ite _ ((calm_of_only (modPps_frame s l _)).seq (calm_ite _ (modLegs_calm _ l _) (hwait _ true)))
    (hwait s false)

theorem releaseAll_calm (s : State) (l : DnN) : Calm s (releaseAll s l) := by
  have hrel := calm_of_only (modPps_frame s l release)
  have hev : Calm s (if s.pps[l].pend then evBudget (modPps s l release) (dnPort l).val else modPps s l release) :=
    calm_ite _ (hrel.seq (evBudget_calm _ _)) hrel
  unfold releaseAll
  exact calm_ite _ hev (hev.seq (budgetPass_calm _))

theorem switchWrite_calm (s : State) (m : DnN) (v : Bool) : Calm s (switchWrite s m v) := by
  have hcmd := calm_of_only (modPps_frame s m fun p => { p with on := v })
  cases v
  · have hoff : Calm _ (releaseAll (enterOff (modPps s m fun p => { p with on := false }) m) m) :=
      (modLegs_calm _ m _).seq (releaseAll_calm _ m)
    show Calm s (switchOff s m)
    unfold switchOff
    refine hcmd.seq (calm_ite _ (.refl _) ?_)
    split
    · exact hoff
    · exact modLegs_calm _ m _
    · exact hoff
    · exact .refl _
  · show Calm s (switchOn s m)
    unfold switchOn
    refine hcmd.seq (calm_ite _ (.refl _) ?_)
    split
    · exact reserveStart_calm _ m
    · exact reserveStart_calm _ m
    · exact .refl _

theorem budgetWrite_calm (s : State) (w : Nat) : Calm s (budgetWrite s w) := by
  have hput (b : PpsG) : Calm s { s with ppsg := b } := calm_of_only (ppsg_frame s b)
  exact calm_ite _ (((hput _).seq (evBudget_calm _ 0)).seq (calm_of_only (bbPow_only _ _ _ _ _)))
    (calm_ite _ ((hput _).seq (budgetPass_calm _)) (hput _))

/-! ## Crews and rings -/

theorem cueDone_calm (s : State) (k : EpN) (atCatch : Bool) : Calm s (cueDone s k atCatch) :=
  calm_ite _ (.refl s) (calm_ite _ ((completeHead_asks s k _ _ true false).calm.seq (emptyEp_asks _ k).calm)
    ((modEp_asks s k _).calm.seq (epAsk_asks _ k).calm))

/-- The cues of the ports that `f` names have been let go. -/
def portsFreed (s : State) (f : PortN → CrewN × Nat → Bool) : State :=
  { s with
    ports := Vector.ofFn fun n => freeCues s.tt.slots (f n) s.ports[n]
    tt := { s.tt with
      slots := Vector.ofFn fun j =>
        if portAll.any (fun n => releasesSlot (f n) j s.ports[n]) then none else s.tt.slots[j] } }

theorem portsTt_frame (s : State) (l : Vector Port 17) (x : Tt) :
    only [.ports, .tt] s { s with ports := l, tt := x } := by
  intro p hp; cases p <;> first | rfl | exact absurd (by decide) hp

theorem portsFreed_frame (s : State) (f : PortN → CrewN × Nat → Bool) : only [.ports, .tt] s (portsFreed s f) :=
  portsTt_frame s _ _

/-- After those of the ports the cues of the local node go. -/
theorem releaseCues_eq (s : State) (f : PortN → CrewN × Nat → Bool) (atCatch : Bool) : releaseCues s f atCatch =
    forEach (cueEps s) (fun a k => if s.ln.eps[k].crew.any (fun c => f 0 (c, s.ln.eps[k].catchAt)) then
      cueDone a k atCatch else a) (portsFreed s f) := rfl

theorem releaseCues_calm (s : State) (f : PortN → CrewN × Nat → Bool) (atCatch : Bool) :
    Calm s (releaseCues s f atCatch) := by
  rw [releaseCues_eq]
  have hset := calm_of_only (portsFreed_frame s f)
  generalize portsFreed s f = u at hset
  exact hset.seq (forEach_calm _ _ _ fun a k => calm_ite _ (cueDone_calm a k atCatch) (.refl a))

theorem flagCrew_calm (s : State) (k : CrewN) (f : Word) : Calm s (flagCrew s k f) :=
  ((calm_of_only (modCrew_frame s k _)).seq (raise_calm _ _)).seq (calm_of_only (bbLink_only _ _ _ _ _))

theorem crewSet_calm (s : State) (k : CrewN) (m0 m1 ofs ctrl : Word) : Calm s (crewSet s k m0 m1 ofs ctrl) :=
  ((calm_of_only (modCrew_frame s k _)).seq (forEach_calm _ _ _ fun a x => flagCrew_calm a x _)).seq
    (releaseCues_calm _ _ false)

theorem endGrant_issues (s : State) (r : Nat) (q : HReq) : Issues issueParts s (endGrant s r q) := by
  unfold endGrant
  split
  · exact (setHmaPart_issues s _).widen
  · exact issueLast_issues s r q

theorem dropEpReqs_issues (s : State) (k : EpN) : Issues issueParts s (dropEpReqs s k) := by
  have hend : Issues issueParts s (match s.hma.cur, s.hma.arb.holder with
      | some q, some r => if aboutEp k q then endGrant s r q else s
      | _, _ => s) := by
    split
    · exact issues_ite _ (endGrant_issues s _ _) (.refl _ s)
    · exact .refl _ s
  exact hend.seq (setHmaPart_issues _ _)

theorem completeAll_calm (s : State) (k : EpN) (status : Nat) : Calm s (completeAll s k status) := by
  unfold completeAll
  dsimp only
  exact ((calm_of_only (modEp_frame s k _)).seq (calm_of_only (voidReads_frame _ _))).seq
    (forEach_calm _ _ _ fun a x => (completeDesc_asks a k x.1 status 0 _ x.2 false).calm)

theorem stopEp_calm (s : State) (k : EpN) (status : Nat) : Calm s (stopEp s k status) :=
  ((calm_of_only (cutDrain_works s k).parts).seq (completeAll_calm _ k status)).seq (calm_of_only (modEp_frame _ k _))

theorem ringStop_calm (s : State) (k : EpN) : Calm s (ringStop s k) :=
  (((dropEpReqs_issues s k).calm.seq (stopEp_calm _ k 3)).seq (calm_of_only (voidReads_frame _ _))).seq
    (calm_of_only (modEp_frame _ k _))

theorem ringStop_frame (s : State) (k : EpN) :
    only [.aon, .pcie, .doms, .ln, .hma, .que, .out] s (ringStop s k) :=
  (((dropEpReqs_issues s k).parts.seq (stopEp_works _ k 3).parts (rs := [.aon, .pcie, .doms, .ln, .hma, .que, .out])).seq
    (voidReads_frame _ _) (rs := [.aon, .pcie, .doms, .ln, .hma, .que, .out])).seq (modEp_frame _ k _)

/-- Completing every descriptor leaves none. -/
theorem completeAll_descs (s : State) (k : EpN) (status : Nat) : (completeAll s k status).ln.eps[k].descs = [] := by
  unfold completeAll
  dsimp only
  generalize (s.ln.eps[k].flight.map fun x => (x.1, false)) ++
    s.ln.eps[k].descs.mapIdx (fun i d => (d, s.ln.eps[k].cueHeld && i == 0)) = l
  have hln := forEach_frame l (fun a x => completeDesc a k x.1 status 0 s.ln.eps[k].tag x.2 false)
    (voidReads (modEp s k fun x => { x with descs := [], flight := [], asked := 0, moved := 0 })
      fun u => u = .sendData k) fun a x => completeDesc_frame a k x.1 status 0 _ x.2 false
  exact (congrArg (fun v : Ln => v.eps[k].descs) (hln .ln (by decide))).trans
    (congrArg Ep.descs (vMod_get_self s.ln.eps k fun x => { x with descs := [], flight := [], asked := 0, moved := 0 }))

/-- An endpoint whose work has ended: no descriptor is left, and its buffer is empty. -/
theorem stopEp_rule (s : State) (k : EpN) (status : Nat) :
    (stopEp s k status).ln.eps[k].descs = [] ∧ (stopEp s k status).ln.eps[k].full = false := by
  have he := vMod_get_self (completeAll (cutDrain s k) k status).ln.eps k emptied
  exact ⟨(congrArg Ep.descs he).trans (completeAll_descs _ k status), congrArg Ep.full he⟩

/-- A stopped ring has no descriptors, and its endpoint's buffer is empty. -/
theorem ringStop_rule (s : State) (k : EpN) : (ringStop s k).ln.eps[k].ring = false ∧
    (ringStop s k).ln.eps[k].descs = [] ∧ (ringStop s k).ln.eps[k].full = false := by
  unfold ringStop
  dsimp only
  obtain ⟨hd, hf⟩ := stopEp_rule (dropEpReqs s k) k 3
  generalize stopEp (dropEpReqs s k) k 3 = u at hd hf
  have he := vMod_get_self u.ln.eps k fun e => { e with ring := false, ringErr := false }
  exact ⟨congrArg Ep.ring he, (congrArg Ep.descs he).trans hd, (congrArg Ep.full he).trans hf⟩

/-! ## A command in the ring (R218, R219) -/

/-- The front command of domain d has been taken off its ring. -/
def popped (s : State) (d : DomN) : State := modDom s d fun x => { x with cmdQ := s.doms[d].cmdQ.tail }

theorem popped_frame (s : State) (d : DomN) : only [.doms] s (popped s d) := modDom_frame s d _

theorem popped_self (s : State) (d : DomN) :
    (popped s d).doms[d] = { s.doms[d] with cmdQ := s.doms[d].cmdQ.tail } := modDom_self s d _

/-- The command at the front runs, and the ring goes on. -/
theorem runCmd_front {s : State} {d : DomN} {op : Nat} {c : Cmd} (h : cmdFront s d op c)
    (f : State → DomN → Cmd → State) : runCmd op f d s = cmdAsk (f (popped s d) d c) d := by
  obtain ⟨-, hready, hfront, hop⟩ := h
  unfold runCmd popped
  cases hq : s.doms[d].cmdQ with
  | nil => rw [hq] at hfront; cases hfront
  | cons x l =>
    rw [hq] at hfront
    obtain rfl := Option.some.inj hfront
    exact if_pos (by simp [hready, hop])

/-- A command whose OP the row does not carry out stays. -/
theorem runCmd_other {s : State} {d : DomN} {op : Nat} {c : Cmd} (h : cmdFront s d op c) {o : Nat} (ho : op ≠ o)
    (f : State → DomN → Cmd → State) : runCmd o f d s = s := by
  obtain ⟨-, -, hfront, hop⟩ := h
  unfold runCmd
  cases hq : s.doms[d].cmdQ with
  | nil => rfl
  | cons x l =>
    rw [hq] at hfront
    obtain rfl := Option.some.inj hfront
    exact if_neg (by simp [hop, ho])

theorem runCmd_empty {s : State} {d : DomN} (h : s.doms[d].cmdQ = []) (op : Nat) (f : State → DomN → Cmd → State) :
    runCmd op f d s = s := by
  unfold runCmd
  rw [h]

/-- What a command that ends leaves in its domain, and which parts its completion changes. -/
theorem finishCmd_rule (s : State) (d : DomN) (c : Cmd) (status : Nat) (r4 r5 : Word) :
    settled (finishCmd s d c status r4 r5).doms[d] =
      settled { s.doms[d] with cmdRun := none, lastCtag := c.w[1], lastStat := status } ∧
    pathOnly (finishCmd s d c status r4 r5).hma = pathOnly s.hma ∧
    only evParts s (finishCmd s d c status r4 r5) := by
  have hset := modDom_frame s d fun x => { x with cmdRun := none, lastCtag := c.w[1], lastStat := status }
  have hself := modDom_self s d fun x => { x with cmdRun := none, lastCtag := c.w[1], lastStat := status }
  unfold finishCmd
  dsimp only
  have hhma : (modDom s d fun x => { x with cmdRun := none, lastCtag := c.w[1], lastStat := status }).hma = s.hma := rfl
  generalize modDom s d (fun x => { x with cmdRun := none, lastCtag := c.w[1], lastStat := status }) = u
    at hset hself hhma
  have hraise := raiseDom_asks u d (s.doms[d].st = .easy)
    { code := 0x02, src := 0, w1 := w16 status, w2 := c.count, w3 := c.w[1], w4 := r4, w5 := r5 }
  exact ⟨(hraise.doms d).trans (congrArg settled hself), hraise.path.trans (congrArg pathOnly hhma), hset.seq hraise.parts⟩

/-- The parts in which the end of a command shows. -/
abbrev ringParts : List Part := [.aon, .doms, .hma, .que, .out]

/-- A command that ends on a state `u` whose command ring is that of `s` without its front. -/
theorem ends_on {s u : State} {d : DomN} (hq : u.doms[d].cmdQ = s.doms[d].cmdQ.tail) (c : Cmd) (status : Nat)
    (r4 r5 : Word) : cmdEnded s (cmdAsk (finishCmd u d c status r4 r5) d) d c status ∧
      (cmdAsk (finishCmd u d c status r4 r5) d).doms[d].denied = u.doms[d].denied ∧
      only ringParts u (cmdAsk (finishCmd u d c status r4 r5) d) := by
  obtain ⟨hdom, -, hparts⟩ := finishCmd_rule u d c status r4 r5
  generalize finishCmd u d c status r4 r5 = v at hdom hparts
  have hask := cmdAsk_asks v d
  have hall := (hask.doms d).trans hdom
  exact ⟨⟨(congrArg Dom.lastCtag hall :), (congrArg Dom.lastStat hall :), (congrArg Dom.cmdRun hall :),
    (congrArg Dom.cmdQ hall :).trans hq⟩, (congrArg Dom.denied hall :), hparts.seq hask.parts⟩

theorem Calm.cmdQ {s t : State} (h : Calm s t) (d : DomN) : t.doms[d].cmdQ = s.doms[d].cmdQ :=
  (congrArg Dom.cmdQ (h d) :)

/-- A command without an effect ends. -/
theorem ends_at_once (s : State) (d : DomN) (c : Cmd) (status : Nat) (r4 r5 : Word) :
    cmdEnded s (cmdAsk (finishCmd (popped s d) d c status r4 r5) d) d c status ∧
      only ringParts s (cmdAsk (finishCmd (popped s d) d c status r4 r5) d) := by
  obtain ⟨hend, -, hparts⟩ := ends_on (s := s) (congrArg Dom.cmdQ (popped_self s d)) c status r4 r5
  exact ⟨hend, (popped_frame s d).seq hparts⟩

/-- A command with effect `f` ends with OK. -/
theorem ends_with {s : State} {d : DomN} (c : Cmd) (f : State → State) (hf : Calm (popped s d) (f (popped s d)))
    (r4 : Word) : cmdEnded s (cmdAsk (endCmd (popped s d) d c 0 f r4) d) d c 0 ∧
      only ringParts (f (popped s d)) (cmdAsk (endCmd (popped s d) d c 0 f r4) d) := by
  obtain ⟨hend, -, hparts⟩ := ends_on (s := s)
    ((hf.cmdQ d).trans (congrArg Dom.cmdQ (popped_self s d))) c 0 r4 0#16
  exact ⟨hend, hparts⟩

/-- The command that waits for its host data to be written. -/
def dataRun (c : Cmd) (ws : List Word) (r4 : Nat) : CmdRun :=
  { cmd := c, r4 := w16 r4, r5 := 0#16, data := some (cmdBase c, hostBytes ws), snap := false }

/-- The command runs in domain d. -/
def running (s : State) (d : DomN) (r : CmdRun) : State := modDom s d fun x => { x with cmdRun := some r }

theorem running_rule (s : State) (d : DomN) (r : CmdRun) : (running s d r).doms[d].cmdRun = some r ∧
    (running s d r).doms[d].cmdQ = s.doms[d].cmdQ ∧ only [.doms] s (running s d r) := by
  have hself := modDom_self s d fun x => { x with cmdRun := some r }
  exact ⟨(congrArg Dom.cmdRun hself :), (congrArg Dom.cmdQ hself :), modDom_frame s d _⟩

theorem dataCmd_waits (s : State) (d : DomN) (c : Cmd) {ws : List Word} (hws : ws ≠ []) (r4 : Nat) :
    dataCmd s d c 0 ws r4 = hmaAsk (running s d (dataRun c ws r4)) 18 (.data d) := by
  have hc : (decide (0 = 0) && !ws.isEmpty) = true := by simp [hws]
  unfold dataCmd
  dsimp only
  rw [if_pos hc]
  rfl

/-- A command with host data leaves it with the statistics writer. -/
theorem data_waits {s : State} {d : DomN} (c : Cmd) {ws : List Word} (hws : ws ≠ []) (r4 : Nat) :
    Safety.cmdData s (cmdAsk (dataCmd (popped s d) d c 0 ws r4) d) d c r4 ws ∧
      only ringParts s (cmdAsk (dataCmd (popped s d) d c 0 ws r4) d) := by
  rw [dataCmd_waits (popped s d) d c hws r4]
  have hpop := popped_frame s d
  have hleft : (popped s d).doms[d].cmdQ = s.doms[d].cmdQ.tail := (congrArg Dom.cmdQ (popped_self s d) :)
  generalize popped s d = u at hpop hleft
  obtain ⟨hrun, hqueue, hset⟩ := running_rule u d (dataRun c ws r4)
  generalize running u d (dataRun c ws r4) = v at hrun hqueue hset
  have hask : Asks [.doms, .hma] v (cmdAsk (hmaAsk v 18 (.data d)) d) := (hmaAsk_asks v 18 _).seq (cmdAsk_asks _ d)
  generalize cmdAsk (hmaAsk v 18 (.data d)) d = t at hask
  have hdom := hask.doms d
  exact ⟨⟨(congrArg Dom.cmdRun hdom :).trans hrun, ((congrArg Dom.cmdQ hdom :).trans hqueue).trans hleft⟩,
    (hpop.seq hset (rs := ringParts)).seq hask.parts⟩

end Sys2Proof.Machine
end

section
/-! PROOF. The commands of the command ring (O57). -/

namespace Sys2Proof.Machine

open Sys2Proof Sys2Proof.Safety

-- One proof after the other: side by side, the proofs of one text wait for each other in too many threads.
set_option Elab.async false


/-! ## Rings and endpoints -/

theorem popped_ln (s : State) (d : DomN) : (popped s d).ln = s.ln := rfl

/-- The row of OP `op` starts the front command. -/
theorem exec_front {s : State} {d : DomN} {op : Nat} {c : Cmd} (h : cmdFront s d op c)
    {f : State → DomN → Cmd → State} {t : State} (ht : f (popped s d) d c = t) :
    onLink s (runCmd op f d) = .next (cmdAsk t d) :=
  onLink_eq h.1 ((runCmd_front h f).trans (congrArg (cmdAsk · d) ht))

/-- A command that ends at once with a status that is not OK. -/
theorem endCmd_refused {s : State} {d : DomN} {c : Cmd} {n : Nat} (status : Nat) (h : n = status) (hn : status ≠ 0)
    (f : State → State) (r4 : Word) : endCmd s d c n f r4 = finishCmd s d c status 0#16 0#16 := by
  subst h
  exact if_neg hn

theorem nop_row {d : DomN} {c : Cmd} {s : State} (h : cmdFront s d 0x01 c) :
    ∃ t, exec (.nop d) s = .next t ∧ cmdEnded s t d c 0 ∧ only [.aon, .doms, .hma, .que, .out] s t :=
  ⟨_, exec_front h rfl, ends_at_once s d c 0 0#16 0#16⟩

theorem epStatus_eq {s : State} {d : DomN} (c : Cmd) (ok busy : Bool) : epStatus (popped s d) d c ok busy =
    if !ok then 2 else if s.ln.eps[cmdEp c].owner != d then 4 else if busy then 5 else 0 := rfl

theorem epStatus_ok {s : State} {d : DomN} {c : Cmd} (h : s.ln.eps[cmdEp c].owner = d) :
    epStatus (popped s d) d c true false = 0 := by
  rw [epStatus_eq, h, bne_self_eq_false]
  rfl

/-- An endpoint's command with an effect on that endpoint alone. -/
theorem epCmd_ends {s : State} {d : DomN} (c : Cmd) (f : Ep → Ep) :
    cmdEnded s (cmdAsk (endCmd (popped s d) d c 0 (fun u => modEp u (cmdEp c) f) 0#16) d) d c 0 ∧
    (cmdAsk (endCmd (popped s d) d c 0 (fun u => modEp u (cmdEp c) f) 0#16) d).ln.eps[cmdEp c] = f s.ln.eps[cmdEp c] ∧
    epsBut (cmdEp c) s (cmdAsk (endCmd (popped s d) d c 0 (fun u => modEp u (cmdEp c) f) 0#16) d) ∧
    only [.aon, .doms, .ln, .hma, .que, .out] s
      (cmdAsk (endCmd (popped s d) d c 0 (fun u => modEp u (cmdEp c) f) 0#16) d) := by
  obtain ⟨hend, hparts⟩ := ends_with c (fun u => modEp u (cmdEp c) f)
    (modEp_asks (popped s d) (cmdEp c) f).calm 0#16
  have hmod := modEp_frame (popped s d) (cmdEp c) f
  have hself : (modEp (popped s d) (cmdEp c) f).ln.eps[cmdEp c] = f s.ln.eps[cmdEp c] := vMod_get_self _ _ _
  have hbut : epsBut (cmdEp c) s (modEp (popped s d) (cmdEp c) f) := epsBut_modEp (popped s d) (cmdEp c) f
  generalize cmdAsk (endCmd (popped s d) d c 0 (fun u => modEp u (cmdEp c) f) 0#16) d = t at hend hparts
  generalize modEp (popped s d) (cmdEp c) f = u at hparts hmod hself hbut
  have hln : t.ln = u.ln := hparts .ln (by decide)
  refine ⟨hend, by rw [hln]; exact hself, ?_, ((popped_frame s d).seq hmod (rs := [.doms, .ln])).seq hparts⟩
  unfold epsBut
  rw [hln]
  exact hbut

theorem ringSet_row {d : DomN} {c : Cmd} {s : State} (h : cmdFront s d 0x02 c) (h1 : fld c.w[2] 8 4 ≤ 8)
    (h2 : c.w[4].toNat % 64 = 0) (ho : s.ln.eps[cmdEp c].owner = d) (hr : s.ln.eps[cmdEp c].ring = false) :
    ∃ t, exec (.ringSet d) s = .next t ∧ cmdEnded s t d c 0 ∧
      t.ln.eps[cmdEp c] = { s.ln.eps[cmdEp c] with
        ring := true, ringErr := false, ringSize := fld c.w[2] 8 4, ringBase := cmdBase c,
        next := c.w[3], pi := c.w[3], piRaw := c.w[3], descs := [] } ∧ epsBut (cmdEp c) s t ∧
      only [.aon, .doms, .ln, .hma, .que, .out] s t := by
  have hstatus : epStatus (popped s d) d c (fld c.w[2] 8 4 ≤ 8 && c.w[4].toNat % 64 = 0)
      (popped s d).ln.eps[cmdEp c].ring = 0 := by
    rw [epStatus_eq, popped_ln, ho, hr, bne_self_eq_false]
    simp [h1, h2]
  exact ⟨_, exec_front h (congrArg (endCmd (popped s d) d c · (fun s => ringSet s c) 0#16) hstatus), epCmd_ends c _⟩

theorem ringSet_refused {d : DomN} {c : Cmd} {s : State} (h : cmdFront s d 0x02 c) :
    (fld c.w[2] 8 4 ≤ 8 → c.w[4].toNat % 64 = 0 → s.ln.eps[cmdEp c].owner ≠ d →
      ∃ t, exec (.ringSet d) s = .next t ∧ cmdEnded s t d c 4 ∧ only [.aon, .doms, .hma, .que, .out] s t) ∧
    (8 < fld c.w[2] 8 4 →
      ∃ t, exec (.ringSet d) s = .next t ∧ cmdEnded s t d c 2 ∧ only [.aon, .doms, .hma, .que, .out] s t) := by
  refine ⟨fun h1 h2 ho => ⟨_, exec_front h (endCmd_refused 4 ?_ (by decide) _ _), ends_at_once s d c 4 0#16 0#16⟩,
    fun h1 => ⟨_, exec_front h (endCmd_refused 2 ?_ (by decide) _ _), ends_at_once s d c 2 0#16 0#16⟩⟩
  · rw [epStatus_eq, bne_iff_ne.mpr ho]
    simp [h1, h2]
  · rw [epStatus_eq, show decide (fld c.w[2] 8 4 ≤ 8) = false by simp; omega]
    rfl

theorem ringStop_row {d : DomN} {c : Cmd} {s : State} (h : cmdFront s d 0x03 c) (ho : s.ln.eps[cmdEp c].owner = d) :
    ∃ t, exec (.ringStop d) s = .next t ∧ cmdEnded s t d c 0 ∧ t.ln.eps[cmdEp c].ring = false ∧
      t.ln.eps[cmdEp c].descs = [] ∧ t.ln.eps[cmdEp c].full = false ∧
      only [.aon, .pcie, .doms, .ln, .hma, .que, .out] s t := by
  have hrow := exec_front (f := cmdRingStop) h (congrArg (endCmd (popped s d) d c · (fun s => ringStop s (cmdEp c))
    (popped s d).ln.eps[cmdEp c].next) (epStatus_ok ho))
  refine ⟨_, hrow, ?_⟩
  obtain ⟨hend, hparts⟩ := ends_with c (fun s => ringStop s (cmdEp c)) (ringStop_calm (popped s d) (cmdEp c))
    (popped s d).ln.eps[cmdEp c].next
  obtain ⟨hring, hdescs, hfull⟩ := ringStop_rule (popped s d) (cmdEp c)
  have hstop := (popped_frame s d).seq (ringStop_frame (popped s d) (cmdEp c))
    (rs := [.aon, .pcie, .doms, .ln, .hma, .que, .out])
  generalize cmdAsk (endCmd (popped s d) d c 0 (fun s => ringStop s (cmdEp c))
    (popped s d).ln.eps[cmdEp c].next) d = t at hend hparts
  generalize ringStop (popped s d) (cmdEp c) = u at hparts hring hdescs hfull hstop
  have hln : t.ln = u.ln := hparts .ln (by decide)
  rw [hln]
  exact ⟨hend, hring, hdescs, hfull, hstop.seq hparts⟩

theorem epHalt_row {d : DomN} {c : Cmd} {s : State} (h : cmdFront s d 0x04 c) (ho : s.ln.eps[cmdEp c].owner = d)
    (hv : cmdP1 c = 1) (hs : stopOpen s (cmdEp c) = false) :
    ∃ t, exec (.epHalt d) s = .next t ∧ cmdEnded s t d c 0 ∧
      t.ln.eps[cmdEp c] = { s.ln.eps[cmdEp c] with halt := true } ∧ epsBut (cmdEp c) s t ∧
      only [.aon, .doms, .ln, .hma, .que, .out] s t := by
  have hstatus : epStatus (popped s d) d c (cmdP1 c ≤ 1) (stopOpen (popped s d) (cmdEp c)) = 0 := by
    have hopen : stopOpen (popped s d) (cmdEp c) = false := hs
    rw [epStatus_eq, ho, hopen, hv, bne_self_eq_false]
    rfl
  have heff : (fun s => epHalt s (cmdEp c) (cmdP1 c = 1)) = fun u => modEp u (cmdEp c) fun e => { e with halt := true } := by
    funext u
    simp [epHalt, hv]
  have hrow : cmdEpHalt (popped s d) d c =
      endCmd (popped s d) d c 0 (fun u => modEp u (cmdEp c) fun e => { e with halt := true }) 0#16 := by
    unfold cmdEpHalt
    rw [hstatus, heff]
  exact ⟨_, exec_front h hrow, epCmd_ends c _⟩

/-! ## Commands that a right gates (R199, R218) -/

theorem popped_rights (s : State) (d : DomN) : (popped s d).doms[d].rights = s.doms[d].rights :=
  (congrArg Dom.rights (popped_self s d) :)

/-- The domain holds the right, and the parameters are good. -/
theorem gate_ok {s : State} {d : DomN} {r : Nat} (h : bit s.doms[d].rights r = true) {ok : Bool} (hok : ok = true) :
    gate (popped s d) d r ok = 0 ∧ deny (popped s d) d r = popped s d := by
  unfold gate deny
  rw [popped_rights, h, hok]
  exact ⟨rfl, rfl⟩

/-- The domain holds the right, and the parameters are not good. -/
theorem gate_bad {s : State} {d : DomN} {r : Nat} (h : bit s.doms[d].rights r = true) {ok : Bool} (hok : ok = false) :
    gate (popped s d) d r ok = 2 ∧ deny (popped s d) d r = popped s d := by
  unfold gate deny
  rw [popped_rights, h, hok]
  exact ⟨rfl, rfl⟩

/-- A gated command that ends at once: its row, with the right held. -/
theorem gated_ends {s : State} {d : DomN} {r : Nat} {ok : Bool} (h : bit s.doms[d].rights r = true) (hok : ok = true)
    (c : Cmd) (f : State → State) (r4 : Word) :
    endCmd (deny (popped s d) d r) d c (gate (popped s d) d r ok) f r4 = endCmd (popped s d) d c 0 f r4 := by
  obtain ⟨hgate, hdeny⟩ := gate_ok h hok
  rw [hgate, hdeny]

theorem gated_refused {s : State} {d : DomN} {r : Nat} {ok : Bool} (h : bit s.doms[d].rights r = true) (hok : ok = false)
    (c : Cmd) (f : State → State) (r4 : Word) :
    endCmd (deny (popped s d) d r) d c (gate (popped s d) d r ok) f r4 = finishCmd (popped s d) d c 2 0#16 0#16 := by
  obtain ⟨hgate, hdeny⟩ := gate_bad h hok
  rw [hgate, hdeny]
  rfl

theorem portPower_row {d : DomN} {c : Cmd} {s : State} (h : cmdFront s d 0x10 c)
    (hr : bit s.doms[d].rights 0 = true) (hp : portOk c = true) (hv : cmdP1 c ≤ 1) :
    ∃ t, exec (.portPower d) s = .next t ∧ cmdEnded s t d c 0 ∧ t.pps[cmdDn c].on = decide (cmdP1 c = 1) ∧
      only [.bb, .pps, .aon, .doms, .hma, .ula, .que, .ports, .tt, .tb, .sur, .out] s t := by
  have hrow := exec_front (f := cmdPortPower) h (gated_ends (ok := portOk c && cmdP1 c ≤ 1) hr (by simp [hp, hv]) c
    (fun s => switchWrite s (cmdDn c) (cmdP1 c = 1)) 0#16)
  refine ⟨_, hrow, ?_⟩
  obtain ⟨hend, hparts⟩ := ends_with c (fun s => switchWrite s (cmdDn c) (cmdP1 c = 1))
    (switchWrite_calm (popped s d) (cmdDn c) (cmdP1 c = 1)) 0#16
  obtain ⟨hon, -, hsw⟩ := switchWrite_rule (popped s d) (cmdDn c) (cmdP1 c = 1)
  have hpop := popped_frame s d
  generalize cmdAsk (endCmd (popped s d) d c 0 (fun s => switchWrite s (cmdDn c) (cmdP1 c = 1)) 0#16) d = t
    at hend hparts
  generalize switchWrite (popped s d) (cmdDn c) (cmdP1 c = 1) = u at hparts hon hsw
  refine ⟨hend, ?_, ((hpop.seq hsw (rs := errParts)).seq hparts)⟩
  exact (congrArg (fun v : Vector Pps 16 => v[cmdDn c].on) (hparts .pps (by decide))).trans hon

theorem portPower_denied {d : DomN} {c : Cmd} {s : State} (h : cmdFront s d 0x10 c)
    (hr : bit s.doms[d].rights 0 = false) :
    ∃ t, exec (.portPower d) s = .next t ∧ cmdEnded s t d c 3 ∧
      t.doms[d].denied = satInc 255 s.doms[d].denied ∧ only [.aon, .doms, .hma, .que, .out] s t := by
  have hrow : cmdPortPower (popped s d) d c = finishCmd (denied (popped s d) d) d c 3 0#16 0#16 := by
    unfold cmdPortPower gate deny
    rw [popped_rights, hr]
    rfl
  have hden := modDom_frame (popped s d) d fun x => { x with denied := satInc 255 x.denied }
  have hself := (modDom_self (popped s d) d fun x => { x with denied := satInc 255 x.denied }).trans
    (congrArg (fun x : Dom => { x with denied := satInc 255 x.denied }) (popped_self s d))
  have hdef : denied (popped s d) d = modDom (popped s d) d fun x => { x with denied := satInc 255 x.denied } := rfl
  rw [← hdef] at hden hself
  refine ⟨_, exec_front h hrow, ?_⟩
  generalize denied (popped s d) d = u at hden hself
  obtain ⟨hend, hcount, hparts⟩ := ends_on (s := s) (u := u) (congrArg Dom.cmdQ hself) c 3 0#16 0#16
  exact ⟨hend, hcount.trans (congrArg Dom.denied hself), ((popped_frame s d).seq hden (rs := ringParts)).seq hparts⟩

theorem cmdSetBudget_row {d : DomN} {c : Cmd} {s : State} (h : cmdFront s d 0x11 c)
    (hr : bit s.doms[d].rights 0 = true) (hb : granted s.pps + reserved s.pps ≤ min (cmdP0 c) 2240) :
    ∃ t, exec (.cmdSetBudget d) s = .next t ∧ cmdEnded s t d c 0 ∧ t.ppsg.budget = min (cmdP0 c) 2240 ∧
      only [.bb, .pps, .ppsg, .aon, .doms, .hma, .ula, .que, .ports, .tt, .tb, .sur, .out] s t := by
  have hrow := exec_front (f := cmdSetBudget) h (gated_ends (ok := true) hr rfl c (fun s => budgetWrite s (cmdP0 c)) 0#16)
  refine ⟨_, hrow, ?_⟩
  obtain ⟨hend, hparts⟩ := ends_with c (fun s => budgetWrite s (cmdP0 c)) (budgetWrite_calm (popped s d) (cmdP0 c)) 0#16
  obtain ⟨hbud, -, hset⟩ := budgetWrite_covers (s := popped s d) (w := cmdP0 c) hb
  have hpop := popped_frame s d
  generalize cmdAsk (endCmd (popped s d) d c 0 (fun s => budgetWrite s (cmdP0 c)) 0#16) d = t at hend hparts
  generalize budgetWrite (popped s d) (cmdP0 c) = u at hparts hbud hset
  refine ⟨hend, ?_, (hpop.seq hset (rs := .ppsg :: errParts)).seq hparts⟩
  exact congrArg PpsG.budget ((hparts .ppsg (by decide)).trans hbud)

theorem ppsLimit_row {d : DomN} {c : Cmd} {s : State} (h : cmdFront s d 0x12 c)
    (hr : bit s.doms[d].rights 0 = true) (hp : portOk c = true) (hv : cmdP1 c ≤ 3) :
    ∃ t, exec (.ppsLimit d) s = .next t ∧ cmdEnded s t d c 0 ∧
      t.pps[cmdDn c] = limitPut (cmdP1 c) c.w[4] s.pps[cmdDn c] ∧ ppsBut (cmdDn c) s t ∧
      only [.pps, .aon, .doms, .hma, .que, .out] s t := by
  have hrow := exec_front (f := cmdPpsLimit) h (gated_ends (ok := portOk c && cmdP1 c ≤ 3) hr (by simp [hp, hv]) c
    (fun s => modPps s (cmdDn c) (limitPut (cmdP1 c) c.w[4])) 0#16)
  refine ⟨_, hrow, ?_⟩
  have hmod := modPps_frame (popped s d) (cmdDn c) (limitPut (cmdP1 c) c.w[4])
  obtain ⟨hend, hparts⟩ := ends_with c (fun s => modPps s (cmdDn c) (limitPut (cmdP1 c) c.w[4]))
    (calm_of_only hmod) 0#16
  have hself := modPps_self (popped s d) (cmdDn c) (limitPut (cmdP1 c) c.w[4])
  have hbut : ppsBut (cmdDn c) s (modPps (popped s d) (cmdDn c) (limitPut (cmdP1 c) c.w[4])) :=
    ppsBut_modPps (popped s d) (cmdDn c) _
  have hpop := popped_frame s d
  generalize cmdAsk (endCmd (popped s d) d c 0 (fun s => modPps s (cmdDn c) (limitPut (cmdP1 c) c.w[4])) 0#16) d = t
    at hend hparts
  generalize modPps (popped s d) (cmdDn c) (limitPut (cmdP1 c) c.w[4]) = u at hparts hmod hself hbut
  have hpps : t.pps = u.pps := hparts .pps (by decide)
  refine ⟨hend, by rw [hpps]; exact hself, ?_, (hpop.seq hmod (rs := [.pps, .doms])).seq hparts⟩
  unfold ppsBut
  rw [hpps]
  exact hbut

theorem ppsLimit_bad {d : DomN} {c : Cmd} {s : State} (h : cmdFront s d 0x12 c)
    (hr : bit s.doms[d].rights 0 = true) (hp : portOk c = false) :
    ∃ t, exec (.ppsLimit d) s = .next t ∧ cmdEnded s t d c 2 ∧ only [.aon, .doms, .hma, .que, .out] s t :=
  ⟨_, exec_front h (gated_refused (ok := portOk c && cmdP1 c ≤ 3) hr (by rw [hp]; rfl) c _ _),
    ends_at_once s d c 2 0#16 0#16⟩

/-- The command waits for the snapshot that it has asked for. -/
def snapAsked (u : State) (d : DomN) (c : Cmd) : State :=
  modDom { u with mtr := { u.mtr with copy := some (2, snapValues u.mtr), waiters := u.mtr.waiters ++ [d] } } d
    fun x => { x with cmdRun := some { cmd := c, r4 := 0#16, r5 := 0#16, data := none, snap := true } }

theorem snapWait_eq {s : State} (hl : linkOn s = true) (hc : s.mtr.copy = none) (d : DomN) (c : Cmd) :
    snapWait s d c = snapAsked s d c := by
  unfold snapWait snapRequest
  dsimp only
  rw [hc]
  dsimp only
  rw [hl]
  rfl

theorem meterSnap_row {d : DomN} {c : Cmd} {s : State} (h : cmdFront s d 0x20 c)
    (hr : bit s.doms[d].rights 2 = true) (hc : s.mtr.copy = none) :
    ∃ t, exec (.meterSnap d) s = .next t ∧
      t.mtr = { s.mtr with copy := some (2, snapValues s.mtr), waiters := s.mtr.waiters ++ [d] } ∧
      t.doms[d].cmdRun = some { cmd := c, r4 := 0#16, r5 := 0#16, data := none, snap := true } ∧
      only [.mtr, .aon, .doms, .hma, .que, .out] s t := by
  have hon : linkOn (popped s d) = true := h.1
  have hrow : cmdMeterSnap (popped s d) d c = snapAsked (popped s d) d c :=
    (if_pos (gate_ok hr rfl).1).trans (snapWait_eq hon hc d c)
  refine ⟨_, exec_front h hrow, ?_⟩
  have hset : only [.mtr] (popped s d)
      { popped s d with mtr := { s.mtr with copy := some (2, snapValues s.mtr), waiters := s.mtr.waiters ++ [d] } } :=
    mtr_frame _ _
  have hmod := modDom_frame { popped s d with mtr := { s.mtr with copy := some (2, snapValues s.mtr), waiters := s.mtr.waiters ++ [d] } }
    d fun x => { x with cmdRun := some { cmd := c, r4 := 0#16, r5 := 0#16, data := none, snap := true } }
  have hall : only [.mtr, .doms] s (snapAsked (popped s d) d c) :=
    ((popped_frame s d).seq hset (rs := [.mtr, .doms])).seq hmod
  have hmtr : (snapAsked (popped s d) d c).mtr =
    { s.mtr with copy := some (2, snapValues s.mtr), waiters := s.mtr.waiters ++ [d] } := rfl
  have hrun : (snapAsked (popped s d) d c).doms[d].cmdRun =
      some { cmd := c, r4 := 0#16, r5 := 0#16, data := none, snap := true } :=
    congrArg Dom.cmdRun (modDom_self _ d _)
  generalize snapAsked (popped s d) d c = u at hall hmtr hrun
  have hask := cmdAsk_asks u d
  exact ⟨(hask.parts .mtr (by decide)).trans hmtr, (congrArg Dom.cmdRun (hask.doms d) :).trans hrun,
    hall.seq hask.parts⟩

theorem meterRead_row {d : DomN} {c : Cmd} {s : State} (h : cmdFront s d 0x21 c)
    (hr : bit s.doms[d].rights 2 = true) (h0 : cmdP0 c ≤ 16) (h1 : cmdP1 c ≤ 1) (ha : addrOk c = true) :
    ∃ t, exec (.meterRead d) s = .next t ∧
      Safety.cmdData s t d c (2 * (meterInfo s (cmdP1 c = 1) (cmdP0 c)).length) (meterInfo s (cmdP1 c = 1) (cmdP0 c)) ∧
      only [.aon, .doms, .hma, .que, .out] s t := by
  obtain ⟨hgate, hdeny⟩ := gate_ok (ok := cmdP0 c ≤ 16 && cmdP1 c ≤ 1 && addrOk c) hr (by simp [h0, h1, ha])
  have hrow : cmdMeterRead (popped s d) d c = dataCmd (popped s d) d c 0 (meterInfo s (cmdP1 c = 1) (cmdP0 c))
      (2 * (meterInfo s (cmdP1 c = 1) (cmdP0 c)).length) := by
    unfold cmdMeterRead
    rw [hgate, hdeny]
    rfl
  exact ⟨_, exec_front h hrow, data_waits c (List.cons_ne_nil _ _) _⟩

theorem crewSet_row {d : DomN} {c : Cmd} {s : State} (h : cmdFront s d 0x30 c)
    (hr : bit s.doms[d].rights 1 = true) (h0 : cmdP0 c ≤ 7) :
    ∃ t, exec (.crewSet d) s = .next t ∧ cmdEnded s t d c 0 ∧
      (∀ k : CrewN, k.val = cmdP0 c → t.tb.crews[k].mask0 = c.w[4] ∧
        t.tb.crews[k].mask1 = (c.w[5] &&& 0x0001#16) ∧ t.tb.crews[k].ofs = c.w[6]) ∧
      only [.bb, .aon, .doms, .ln, .hma, .que, .ports, .tt, .tb, .out] s t := by
  have hrow := exec_front (f := cmdCrewSet) h (gated_ends (ok := cmdP0 c ≤ 7) hr (by simp [h0]) c
    (fun s => crewSet s ⟨cmdP0 c % 8, Nat.mod_lt _ (by decide)⟩ c.w[4] c.w[5] c.w[6] c.w[7]) 0#16)
  refine ⟨_, hrow, ?_⟩
  have hnamed (j : CrewN) (hj : j.val = cmdP0 c) : (⟨cmdP0 c % 8, Nat.mod_lt _ (by decide)⟩ : CrewN) = j :=
    Fin.ext ((Nat.mod_eq_of_lt (by omega)).trans hj.symm)
  generalize (⟨cmdP0 c % 8, Nat.mod_lt _ (by decide)⟩ : CrewN) = k at hnamed
  obtain ⟨hend, hparts⟩ := ends_with c (fun s => crewSet s k c.w[4] c.w[5] c.w[6] c.w[7])
    (crewSet_calm (popped s d) k c.w[4] c.w[5] c.w[6] c.w[7]) 0#16
  obtain ⟨hcrew, -, -, hset⟩ := crewPut_rule (popped s d) k (crewCtrlWrite c.w[7]
    { s.tb.crews[k] with mask0 := c.w[4], mask1 := c.w[5] &&& 0x0001#16, ofs := c.w[6] })
  have hpop := popped_frame s d
  generalize cmdAsk (endCmd (popped s d) d c 0 (fun s => crewSet s k c.w[4] c.w[5] c.w[6] c.w[7]) 0#16) d = t
    at hend hparts
  have hdef : crewSet (popped s d) k c.w[4] c.w[5] c.w[6] c.w[7] = crewPut (popped s d) k (crewCtrlWrite c.w[7]
    { s.tb.crews[k] with mask0 := c.w[4], mask1 := c.w[5] &&& 0x0001#16, ofs := c.w[6] }) := rfl
  rw [hdef] at hparts
  generalize crewPut (popped s d) k (crewCtrlWrite c.w[7]
    { s.tb.crews[k] with mask0 := c.w[4], mask1 := c.w[5] &&& 0x0001#16, ofs := c.w[6] }) = u at hparts hcrew hset
  have htb : t.tb = u.tb := hparts .tb (by decide)
  refine ⟨hend, fun j hj => ?_,
    (hpop.seq hset (rs := [.bb, .aon, .doms, .ln, .hma, .que, .ports, .tt, .tb, .out])).seq hparts⟩
  rw [htb, ← hnamed j hj]
  exact ⟨(congrArg Crew.mask0 hcrew :), (congrArg Crew.mask1 hcrew :), (congrArg Crew.ofs hcrew :)⟩

theorem catchPin_row {d : DomN} {c : Cmd} {s : State} (h : cmdFront s d 0x31 c)
    (hr : bit s.doms[d].rights 1 = true) (h0 : cmdP0 c ≤ 3) :
    ∃ t, exec (.catchPin d) s = .next t ∧ cmdEnded s t d c 0 ∧
      (∀ i : Fin 4, i.val = cmdP0 c → t.tb.pins[i] = pinPut c.w[3]) ∧
      only [.aon, .doms, .hma, .que, .tb, .out] s t := by
  have hrow := exec_front (f := cmdCatchPin) h (gated_ends (ok := cmdP0 c ≤ 3) hr (by simp [h0]) c
    (fun s => pinWrite s ⟨cmdP0 c % 4, Nat.mod_lt _ (by decide)⟩ c.w[3]) 0#16)
  refine ⟨_, hrow, ?_⟩
  have hnamed (j : Fin 4) (hj : j.val = cmdP0 c) : (⟨cmdP0 c % 4, Nat.mod_lt _ (by decide)⟩ : Fin 4) = j :=
    Fin.ext ((Nat.mod_eq_of_lt (by omega)).trans hj.symm)
  generalize (⟨cmdP0 c % 4, Nat.mod_lt _ (by decide)⟩ : Fin 4) = i at hnamed
  have hput : only [.tb] (popped s d) (pinWrite (popped s d) i c.w[3]) := tb_frame _ _
  obtain ⟨hend, hparts⟩ := ends_with c (fun s => pinWrite s i c.w[3]) (calm_of_only hput) 0#16
  have hpin : (pinWrite (popped s d) i c.w[3]).tb.pins[i] = pinPut c.w[3] := Vector.getElem_set_self i.isLt
  have hpop := popped_frame s d
  generalize cmdAsk (endCmd (popped s d) d c 0 (fun s => pinWrite s i c.w[3]) 0#16) d = t at hend hparts
  generalize pinWrite (popped s d) i c.w[3] = u at hparts hput hpin
  have htb : t.tb = u.tb := hparts .tb (by decide)
  refine ⟨hend, fun j hj => ?_, (hpop.seq hput (rs := [.tb, .doms])).seq hparts⟩
  rw [htb, ← hnamed j hj]
  exact hpin

theorem logEntries_words {b : Bb} {first count : Nat} (h0 : first ≤ 255) (h1 : 1 ≤ count) :
    (logEntries b first count).flatMap (fun e => e.toList) ≠ [] := by
  obtain ⟨n, hn⟩ : ∃ n, min count (256 - first) = n + 1 := ⟨min count (256 - first) - 1, by omega⟩
  intro hnil
  have hlen := congrArg List.length (List.flatMap_eq_nil_iff.mp hnil (bbSlot b (first + 0)) (by
    unfold logEntries
    rw [hn]
    exact List.mem_map.mpr ⟨0, List.mem_range.mpr (by omega), rfl⟩))
  rw [Vector.length_toList] at hlen
  cases hlen

theorem logRead_row {d : DomN} {c : Cmd} {s : State} (h : cmdFront s d 0x40 c)
    (hr : bit s.doms[d].rights 3 = true) (h0 : cmdP0 c ≤ 255) (h1 : 1 ≤ cmdP1 c) (h2 : cmdP1 c ≤ 256)
    (ha : addrOk c = true) :
    ∃ t, exec (.logRead d) s = .next t ∧
      Safety.cmdData s t d c (logEntries s.bb (cmdP0 c) (cmdP1 c)).length
        ((logEntries s.bb (cmdP0 c) (cmdP1 c)).flatMap fun e => e.toList) ∧
      only [.aon, .doms, .hma, .que, .out] s t := by
  obtain ⟨hgate, hdeny⟩ := gate_ok (ok := cmdP0 c ≤ 255 && 1 ≤ cmdP1 c && cmdP1 c ≤ 256 && addrOk c) hr
    (by simp [h0, h1, h2, ha])
  have hrow : cmdLogRead (popped s d) d c = dataCmd (popped s d) d c 0
      ((logEntries s.bb (cmdP0 c) (cmdP1 c)).flatMap fun e => e.toList)
      (logEntries s.bb (cmdP0 c) (cmdP1 c)).length := by
    unfold cmdLogRead
    rw [hgate, hdeny]
    rfl
  exact ⟨_, exec_front h hrow, data_waits c (logEntries_words h0 h1) _⟩

/-! ## Commands that every domain may give -/

theorem portStatus_row {d : DomN} {c : Cmd} {s : State} (n : PortN) (h : cmdFront s d 0x50 c) (hn : cmdP0 c = n.val)
    (ha : addrOk c = true) :
    ∃ t, exec (.portStatus d) s = .next t ∧ Safety.cmdData s t d c 16 (portInfo s n) ∧
      only [.aon, .doms, .hma, .que, .out] s t := by
  have hlt := n.isLt
  have hport : (⟨cmdP0 c % 17, Nat.mod_lt _ (by decide)⟩ : PortN) = n :=
    Fin.ext ((Nat.mod_eq_of_lt (by omega)).trans hn)
  have hrow : cmdPortStatus (popped s d) d c = dataCmd (popped s d) d c 0 (portInfo s n) 16 := by
    have hok : (cmdP0 c ≤ 16 && addrOk c) = true := by simp [ha]; omega
    unfold cmdPortStatus
    rw [if_pos hok, hport]
    rfl
  exact ⟨_, exec_front h hrow, data_waits c (List.cons_ne_nil _ _) _⟩

theorem nodeInfo_row {d : DomN} {c : Cmd} {s : State} (h : cmdFront s d 0x51 c) :
    (addrOk c = true →
      ∃ t, exec (.nodeInfo d) s = .next t ∧ Safety.cmdData s t d c 32 (nodeInfo s) ∧
        only [.aon, .doms, .hma, .que, .out] s t) ∧
    (addrOk c = false →
      ∃ t, exec (.nodeInfo d) s = .next t ∧ cmdEnded s t d c 2 ∧ only [.aon, .doms, .hma, .que, .out] s t) := by
  refine ⟨fun ha => ?_, fun ha => ?_⟩
  · have hrow : cmdNodeInfo (popped s d) d c = dataCmd (popped s d) d c 0 (nodeInfo s) 32 := by
      unfold cmdNodeInfo
      rw [if_pos ha]
      rfl
    exact ⟨_, exec_front h hrow, data_waits c (List.cons_ne_nil _ _) _⟩
  · have hrow : cmdNodeInfo (popped s d) d c = finishCmd (popped s d) d c 2 0#16 0#16 := by
      unfold cmdNodeInfo
      rw [if_neg (by rw [ha]; exact Bool.false_ne_true)]
      rfl
    exact ⟨_, exec_front h hrow, ends_at_once s d c 2 0#16 0#16⟩

/-! ## Host data (R219, R259) -/

/-- The last write of a command's data is issued, and the path is free. -/
theorem issueLast_ends {s : State} {r : Nat} (hh : s.hma.arb.holder = some r) (q : HReq) :
    (issueLast s r q).hma.cur = none ∧ (issueLast s r q).hma.arb.holder = none := by
  have hdone (u : State) (hu : u.hma.arb.holder = some r) :
      (hmaDone u r).hma.cur = none ∧ (hmaDone u r).hma.arb.holder = none := by
    unfold hmaDone
    rw [if_pos hu]
    exact ⟨rfl, rfl⟩
  unfold issueLast
  cases nextWrite s q with
  | none => exact hdone s hh
  | some p => exact hdone _ ((congrArg (fun x : Hma => x.arb.holder) (toHost_hma s _)).trans hh)

theorem dataDone_row {d : DomN} {r : CmdRun} {s : State} (hl : linkOn s = true) (hp : pathHeld s (.data d) = true)
    (hr : s.doms[d].cmdRun = some r) (hh : s.hma.arb.holder = some 18) :
    ∃ t, exec (.commandDataDone d) s = .next t ∧ t.doms[d].cmdRun = none ∧ t.doms[d].lastStat = 0 ∧
      t.doms[d].lastCtag = r.cmd.w[1] ∧ t.hma.cur = none ∧ t.hma.arb.holder = none ∧
      only [.aon, .pcie, .doms, .hma, .que, .out] s t := by
  have hissue := issueLast_issues s 18 (.data d)
  obtain ⟨hcur, hhold⟩ := issueLast_ends hh (.data d)
  have hrun : (issueLast s 18 (.data d)).doms[d].cmdRun = some r :=
    (congrArg Dom.cmdRun (hissue.doms d) :).trans hr
  refine ⟨_, onLink_eq hl (whenDo_holds hp), ?_⟩
  generalize issueLast s 18 (.data d) = u at hissue hcur hhold hrun
  have hrow : cmdDataDone u d = finishCmd u d r.cmd 0 r.r4 r.r5 := by
    unfold cmdDataDone
    rw [hrun]
  rw [hrow]
  obtain ⟨hdom, hpath, hparts⟩ := finishCmd_rule u d r.cmd 0 r.r4 r.r5
  exact ⟨(congrArg Dom.cmdRun hdom :), (congrArg Dom.lastStat hdom :), (congrArg Dom.lastCtag hdom :),
    (congrArg Hma.cur hpath :).trans hcur, (congrArg (fun x : Hma => x.arb.holder) hpath :).trans hhold,
    hissue.parts.seq hparts⟩

/-- Settles O57: it holds. A row takes the front command off the ring, and what its effect does beyond the command never
reaches the command ring of a domain. -/
theorem ringCommands : Obligations.RingCommands := by
  unfold Obligations.RingCommands
  refine ⟨fun d c s => ⟨nop_row, ringSet_row, fun h => (ringSet_refused h).1, fun h => (ringSet_refused h).2,
      ringStop_row, epHalt_row⟩,
    fun d c s => ⟨portPower_row, portPower_denied, cmdSetBudget_row, ppsLimit_row, ppsLimit_bad, meterSnap_row,
      meterRead_row, crewSet_row, catchPin_row, logRead_row, portStatus_row, fun h => (nodeInfo_row h).1,
      fun h => (nodeInfo_row h).2⟩,
    fun d c op s h ho => onLink_eq h.1 (runCmd_other h ho _),
    fun d s hl hq => ⟨onLink_eq hl (runCmd_empty hq _ _), onLink_eq hl (runCmd_empty hq _ _),
      onLink_eq hl (runCmd_empty hq _ _)⟩,
    fun d r s => dataDone_row, fun d s hl hp => onLink_eq hl (whenDo_fails hp)⟩

end Sys2Proof.Machine
end

section
/-! SUPPORT. The rings, the buffers and the answers of endpoints (R220 to R231). -/

namespace Sys2Proof.Machine

open Sys2Proof Sys2Proof.Safety

-- One proof after the other: side by side, the proofs of one text wait for each other in too many threads.
set_option Elab.async false


/-! ## Rings of endpoints (R220, R221) -/

/-- A SEND of no bytes has filled the buffer. -/
def filled (e : Ep) : Ep := { e with full := true, sent := false, len := 0, inData := true, setup := false, cue := false }

/-- The descriptor at the head has gone. -/
def beheaded (e : Ep) : Ep := { e with descs := e.descs.tail, asked := 0, moved := 0 }

theorem completeHead_ep {s : State} {k : EpN} {d : Desc} {l : List Desc} (h : s.ln.eps[k].descs = d :: l)
    (status bytes : Nat) (cue late : Bool) :
    (completeHead s k status bytes cue late).ln.eps[k] = beheaded s.ln.eps[k] := by
  have hrow : completeHead s k status bytes cue late = completeDesc (modEp s k fun e =>
      { e with descs := l, asked := 0, moved := 0 }) k d status bytes s.ln.eps[k].tag cue late := by
    unfold completeHead
    rw [h]
  have hln : (completeHead s k status bytes cue late).ln = (modEp s k fun e =>
      { e with descs := l, asked := 0, moved := 0 }).ln := by
    rw [hrow]
    exact completeDesc_frame _ k d status bytes _ cue late .ln (by decide)
  have htail : beheaded s.ln.eps[k] = { s.ln.eps[k] with descs := l, asked := 0, moved := 0 } := by
    unfold beheaded
    rw [h]
    rfl
  rw [hln, htail]
  exact vMod_get_self _ k _

theorem completeHead_nil {s : State} {k : EpN} (h : s.ln.eps[k].descs = []) (status bytes : Nat) (cue late : Bool) :
    completeHead s k status bytes cue late = s := by
  unfold completeHead
  rw [h]

theorem dropBad_ep (s : State) (k : EpN) :
    (dropBad s k).ln.eps[k] = s.ln.eps[k] ∨ (dropBad s k).ln.eps[k] = beheaded s.ln.eps[k] := by
  unfold dropBad
  dsimp only
  split
  · by_cases hd : s.ln.eps[k].descs = []
    · exact .inl (congrArg (fun u : State => u.ln.eps[k]) (completeHead_nil hd 5 0 false false))
    · obtain ⟨d, l, hd⟩ := List.exists_cons_of_ne_nil hd
      exact .inr (completeHead_ep hd 5 0 false false)
  · exact .inl rfl

theorem askData_ep (s : State) (k : EpN) : (askData s k).ln.eps[k] = s.ln.eps[k] ∨
    (s.ln.eps[k].full = false ∧ s.ln.eps[k].descs ≠ [] ∧ (askData s k).ln.eps[k] = filled s.ln.eps[k]) := by
  unfold askData
  dsimp only
  split
  · exact .inl rfl
  · split
    · exact .inl rfl
    · rename_i x l hd
      split
      · rename_i hc
        simp only [Bool.and_eq_true, Bool.not_eq_true'] at hc
        exact .inr ⟨hc.1.2, by rw [hd]; exact List.cons_ne_nil _ _, vMod_get_self _ k _⟩
      · split
        · exact .inl (congrArg (fun v : Ln => v.eps[k]) (askRead_frame s _ _ _ .ln (by decide)))
        · split
          · exact .inl (congrArg (fun v : Ln => v.eps[k]) (hmaAsk_frame s _ _ .ln (by decide)))
          · exact .inl rfl

/-- What going on with its ring does to an endpoint: a bad descriptor goes, and a SEND of no bytes fills an empty
buffer. -/
theorem epAsk_ep (s : State) (k : EpN) : ∃ x, (x = s.ln.eps[k] ∨ x = beheaded s.ln.eps[k]) ∧
    ((epAsk s k).ln.eps[k] = x ∨ (x.full = false ∧ x.descs ≠ [] ∧ (epAsk s k).ln.eps[k] = filled x)) := by
  have hdrop : (if ringRuns s k then dropBad s k else s).ln.eps[k] = s.ln.eps[k] ∨
      (if ringRuns s k then dropBad s k else s).ln.eps[k] = beheaded s.ln.eps[k] := by
    split
    · exact dropBad_ep s k
    · exact .inl rfl
  have hrow : epAsk s k = askData (askDesc (if ringRuns s k then dropBad s k else s) k) k := rfl
  rw [hrow]
  generalize (if ringRuns s k then dropBad s k else s) = u at hdrop
  have hask : (askDesc u k).ln.eps[k] = u.ln.eps[k] :=
    congrArg (fun v : Ln => v.eps[k]) (askDesc_frame u k .ln (by decide))
  have hdata := askData_ep (askDesc u k) k
  rw [hask] at hdata
  exact ⟨u.ln.eps[k], hdrop, hdata⟩

/-- A full buffer stays as it is. -/
theorem epAsk_full {s : State} {k : EpN} (h : s.ln.eps[k].full = true) :
    (epAsk s k).ln.eps[k] = s.ln.eps[k] ∨ (epAsk s k).ln.eps[k] = beheaded s.ln.eps[k] := by
  obtain ⟨x, hx, hy⟩ := epAsk_ep s k
  have hfull : x.full = true := by rcases hx with rfl | rfl <;> exact h
  rcases hy with hy | ⟨hf, -⟩
  · rw [hy]; exact hx
  · rw [hfull] at hf; cases hf

/-- The buffer that has been emptied: nothing is sent, and without descriptors it stays empty. -/
theorem epAsk_rule (s : State) (k : EpN) :
    (s.ln.eps[k].sent = false → (epAsk s k).ln.eps[k].sent = false) ∧
    (epAsk s k).ln.eps[k].descs <:+ s.ln.eps[k].descs ∧
    (s.ln.eps[k].descs = [] → (epAsk s k).ln.eps[k].full = s.ln.eps[k].full) ∧
    (epAsk s k).ln.eps[k].flight = s.ln.eps[k].flight := by
  obtain ⟨x, hx, hy⟩ := epAsk_ep s k
  have hxs : x.sent = s.ln.eps[k].sent ∧ x.descs <:+ s.ln.eps[k].descs ∧ x.full = s.ln.eps[k].full ∧
      x.flight = s.ln.eps[k].flight := by
    rcases hx with rfl | rfl
    · exact ⟨rfl, List.suffix_rfl, rfl, rfl⟩
    · exact ⟨rfl, List.tail_suffix _, rfl, rfl⟩
  obtain ⟨hsent, hdescs, hfull, hflight⟩ := hxs
  rcases hy with hy | ⟨-, hne, hy⟩ <;> rw [hy]
  · exact ⟨fun h => hsent.trans h, hdescs, fun _ => hfull, hflight⟩
  · refine ⟨fun _ => rfl, hdescs, fun h => absurd ?_ hne, hflight⟩
    rw [h] at hdescs
    exact List.suffix_nil.mp hdescs

theorem Works.but {ps : List Part} {k : EpN} {f : Ep → Ep} {s t : State} (h : Works ps k f s t) : epsBut k s t := by
  refine ⟨h.others, ?_⟩
  rw [h.rest]

theorem epsBut.seq {k : EpN} {s t u : State} (h : epsBut k s t) (g : epsBut k t u) : epsBut k s u := by
  obtain ⟨ho, hr⟩ := h
  obtain ⟨go, gr⟩ := g
  refine ⟨fun x hx => (go x hx).trans (ho x hx), ?_⟩
  have hmid := congrArg (fun v : Ln => { v with eps := s.ln.eps }) gr
  exact hmid.trans hr

/-- What does not touch the local node leaves every endpoint. -/
theorem epsBut_of_only {ps : List Part} {s t : State} (h : only ps s t) (k : EpN) (hp : .ln ∉ ps := by decide) :
    epsBut k s t := (works_of_only h k hp).but

theorem Works.owner {ps : List Part} {k : EpN} {s t : State} (h : Works ps k id s t) :
    t.ln.eps[k].owner = s.ln.eps[k].owner := (congrArg Ep.owner h.self :)

/-- The buffer of endpoint k empties, and its ring goes on. -/
theorem emptyEp_rule (s : State) (k : EpN) : (emptyEp s k).ln.eps[k].sent = false ∧
    (emptyEp s k).ln.eps[k].descs <:+ s.ln.eps[k].descs ∧
    (s.ln.eps[k].descs = [] → (emptyEp s k).ln.eps[k].full = false) := by
  have he := vMod_get_self s.ln.eps k emptied
  obtain ⟨hsent, hdescs, hfull, -⟩ := epAsk_rule (modEp s k emptied) k
  have hd : (modEp s k emptied).ln.eps[k].descs = s.ln.eps[k].descs := (congrArg Ep.descs he :)
  rw [hd] at hdescs
  exact ⟨hsent (congrArg Ep.sent he), hdescs, fun h => (hfull (hd.trans h)).trans (congrArg Ep.full he)⟩

/-- The oldest descriptor has completed, and the buffer is empty. -/
theorem completedEmpty_rule {s : State} {k : EpN} {d : Desc} {l : List Desc} (h : s.ln.eps[k].descs = d :: l)
    (status bytes : Nat) (cue late : Bool) :
    (emptyEp (completeHead s k status bytes cue late) k).ln.eps[k].sent = false ∧
    (emptyEp (completeHead s k status bytes cue late) k).ln.eps[k].descs <:+ l ∧
    (l = [] → (emptyEp (completeHead s k status bytes cue late) k).ln.eps[k].full = false) ∧
    Works epParts k id s (emptyEp (completeHead s k status bytes cue late) k) := by
  have hd : (completeHead s k status bytes cue late).ln.eps[k].descs = l := by
    rw [completeHead_ep h]
    exact congrArg List.tail h
  obtain ⟨hsent, hdescs, hfull⟩ := emptyEp_rule (completeHead s k status bytes cue late) k
  rw [hd] at hdescs hfull
  exact ⟨hsent, hdescs, hfull, (completeHead_works s k status bytes cue late).seq (emptyEp_works _ k)⟩

/-! ## Answers to the root (R229, R230) -/

theorem lnSend_rule {s : State} (hu : isUp s.ports[(0 : PortN)] = true) (k : EpN) (p : Pkt) (act : OnEop) :
    lnSent s (lnSend s k p act) k p act ∧ only [.ula] s (lnSend s k p act) := by
  have hlt := s.ln.eps[k].owner.isLt
  exact ⟨ulaPush_queued hu (by omega) _, ulaPush_frame s _ _⟩

theorem lnSend_ln (s : State) (k : EpN) (p : Pkt) (act : OnEop) : (lnSend s k p act).ln = s.ln :=
  ulaPush_frame s _ _ .ln (by decide)

/-- An answer that is recorded. -/
theorem noted_rule {s : State} (hu : isUp s.ports[(0 : PortN)] = true) (k : EpN) (p : Pkt) (act : OnEop)
    (tag : BitVec 7) (a : EpAns) : lnSent s (noteAns (lnSend s k p act) k tag a) k p act ∧
    (noteAns (lnSend s k p act) k tag a).ln.eps[k] = { s.ln.eps[k] with seqTag := tag, seqValid := true, ans := a } ∧
    epsBut k s (noteAns (lnSend s k p act) k tag a) ∧ only [.ln, .ula] s (noteAns (lnSend s k p act) k tag a) := by
  obtain ⟨hsent, hparts⟩ := lnSend_rule hu k p act
  have hln := lnSend_ln s k p act
  generalize lnSend s k p act = u at hsent hparts hln
  refine ⟨hsent, ?_, epsBut.seq (epsBut_of_only hparts k) (epsBut_modEp u k _), hparts.seq (modEp_frame u k _)⟩
  have he := vMod_get_self u.ln.eps k fun e => { e with seqTag := tag, seqValid := true, ans := a }
  rw [show u.ln.eps[k] = s.ln.eps[k] by rw [hln]] at he
  exact he

theorem isUp_of_only {ps : List Part} {s t : State} (h : only ps s t) (hp : .ports ∉ ps := by decide) (n : PortN) :
    isUp t.ports[n] = isUp s.ports[n] := congrArg (fun v : Vector Port 17 => isUp v[n]) (h .ports hp)

/-- An answer given after work on the endpoint. -/
theorem lnSent_of_works {ps : List Part} {k : EpN} {s u t : State} {p : Pkt} {act : OnEop} (h : Works ps k id s u)
    (hs : lnSent u t k p act) : lnSent s t k p act := by
  unfold lnSent at hs ⊢
  rw [h.owner] at hs
  exact hs

/-- What waits at the ULA still waits. -/
theorem lnSent_of_only {ps : List Part} {k : EpN} {s u t : State} {p : Pkt} {act : OnEop} (hs : lnSent s u k p act)
    (h : only ps u t) (hp : .ula ∉ ps := by decide) : lnSent s t k p act := by
  unfold lnSent
  rw [show t.ula = u.ula from h .ula hp]
  exact hs

/-! ## Sent data is confirmed (R231) -/

theorem confirmNew_same {s : State} {k : EpN} {h : Hdr} (hc : s.ln.eps[k].sent = false ∨ isNew s.ln.eps[k] h = false) :
    confirmNew s k h = s := by
  refine if_neg ?_
  rcases hc with hc | hc
  · rw [hc, Bool.false_and]
    exact Bool.false_ne_true
  · rw [hc, Bool.and_false]
    exact Bool.false_ne_true

theorem confirmNew_sent {s : State} {k : EpN} {h : Hdr} (hs : s.ln.eps[k].sent = true)
    (hn : isNew s.ln.eps[k] h = true) : confirmNew s k h = confirm s k := if_pos (by rw [hs, hn]; rfl)

theorem confirm_rule {s : State} {k : EpN} {d : Desc} {l : List Desc} (h : s.ln.eps[k].descs = d :: l) :
    (confirm s k).ln.eps[k].sent = false ∧ (confirm s k).ln.eps[k].descs <:+ l ∧
    (l = [] → (confirm s k).ln.eps[k].full = false) ∧ Works epParts k id s (confirm s k) :=
  completedEmpty_rule h 0 s.ln.eps[k].len false false

theorem stallNew_plain {s : State} (hu : isUp s.ports[(0 : PortN)] = true) {k : EpN} {h : Hdr}
    (hc : s.ln.eps[k].sent = false ∨ isNew s.ln.eps[k] h = false) :
    lnShook s (stallNew s k h) k h 0x03 ∧ (stallNew s k h).ln.eps[k].ans = .stall ∧ epsBut k s (stallNew s k h) ∧
      only [.ln, .ula] s (stallNew s k h) := by
  have hrow : stallNew s k h = noteAns (lnSend s k (hshk h 0x03 []) .none) k h.tag .stall :=
    congrArg (fun u => lnStall u k h) (confirmNew_same hc)
  obtain ⟨hsent, hself, hbut, hparts⟩ := noted_rule hu k (hshk h 0x03 []) .none h.tag .stall
  rw [hrow]
  exact ⟨hsent, congrArg Ep.ans hself, hbut, hparts⟩

theorem stallNew_confirms {s : State} (hu : isUp s.ports[(0 : PortN)] = true) {k : EpN} {h : Hdr}
    (hs : s.ln.eps[k].sent = true) (hn : isNew s.ln.eps[k] h = true) {d : Desc} {l : List Desc}
    (hd : s.ln.eps[k].descs = d :: l) :
    lnShook s (stallNew s k h) k h 0x03 ∧ (stallNew s k h).ln.eps[k].ans = .stall ∧
      (stallNew s k h).ln.eps[k].sent = false ∧ (stallNew s k h).ln.eps[k].descs <:+ l ∧
      only [.aon, .doms, .ln, .hma, .ula, .que, .out] s (stallNew s k h) := by
  have hrow : stallNew s k h = noteAns (lnSend (confirm s k) k (hshk h 0x03 []) .none) k h.tag .stall :=
    congrArg (fun u => lnStall u k h) (confirmNew_sent hs hn)
  obtain ⟨hoff, hdescs, -, hworks⟩ := confirm_rule hd
  rw [hrow]
  generalize confirm s k = u at hoff hdescs hworks
  obtain ⟨hsent, hself, -, hparts⟩ :=
    noted_rule ((isUp_of_only hworks.parts (n := 0)).trans hu) k (hshk h 0x03 []) .none h.tag .stall
  refine ⟨lnSent_of_works hworks hsent, congrArg Ep.ans hself, (congrArg Ep.sent hself).trans hoff, ?_,
    hworks.parts.seq hparts⟩
  rw [show (noteAns (lnSend u k (hshk h 0x03 []) .none) k h.tag .stall).ln.eps[k].descs = u.ln.eps[k].descs from
    (congrArg Ep.descs hself :)]
  exact hdescs

theorem confirmNak_plain {s : State} (hu : isUp s.ports[(0 : PortN)] = true) {k : EpN} {h : Hdr}
    (hc : s.ln.eps[k].sent = false) : lnShook s (confirmNak s k h) k h 0x02 ∧ only [.ula] s (confirmNak s k h) := by
  have hrow : confirmNak s k h = lnSend s k (hshk h 0x02 []) .none :=
    congrArg (fun u => lnNak u k h) (confirmNew_same (.inl hc))
  rw [hrow]
  exact lnSend_rule hu k _ _

theorem confirmNak_confirms {s : State} (hu : isUp s.ports[(0 : PortN)] = true) {k : EpN} {h : Hdr}
    (hs : s.ln.eps[k].sent = true) (hn : isNew s.ln.eps[k] h = true) {d : Desc} {l : List Desc}
    (hd : s.ln.eps[k].descs = d :: l) :
    lnShook s (confirmNak s k h) k h 0x02 ∧ (confirmNak s k h).ln.eps[k].sent = false ∧
      (confirmNak s k h).ln.eps[k].descs <:+ l ∧
      only [.aon, .doms, .ln, .hma, .ula, .que, .out] s (confirmNak s k h) := by
  have hrow : confirmNak s k h = lnSend (confirm s k) k (hshk h 0x02 []) .none := by
    unfold confirmNak
    rw [confirmNew_sent hs hn]
    rfl
  obtain ⟨hoff, hdescs, -, hworks⟩ := confirm_rule hd
  rw [hrow]
  generalize confirm s k = u at hoff hdescs hworks
  obtain ⟨hsent, hparts⟩ := lnSend_rule ((isUp_of_only hworks.parts (n := 0)).trans hu) k (hshk h 0x02 []) .none
  have hln := lnSend_ln u k (hshk h 0x02 []) .none
  refine ⟨lnSent_of_works hworks hsent, ?_, ?_, hworks.parts.seq hparts⟩ <;> rw [hln]
  · exact hoff
  · exact hdescs

/-! ## Data is stored (R221, R230) -/

/-- The endpoint that holds the packet's data. -/
def stored (e : Ep) (p : Pkt) (isSetup : Bool) (stroke : Nat) : Ep :=
  { e with
    full := true, sent := false, len := (payloadBytes p).length, setup := isSetup, cue := cueBit p.hdr
    cueHeld := false, crew := none, drained := false, late := false, inData := false, asked := 0
    moved := 0, tag := p.hdr.tag, stroke := stroke }

/-- From `s` to `t` endpoint k and endpoint memory alone have changed. -/
def memBut (k : EpN) (s t : State) : Prop :=
  (∀ x : EpN, x ≠ k → t.ln.eps[x] = s.ln.eps[x]) ∧ { t.ln with eps := s.ln.eps, mem := s.ln.mem } = s.ln

theorem epsBut.memBut {k : EpN} {s t : State} (h : epsBut k s t) : memBut k s t := by
  obtain ⟨ho, hr⟩ := h
  exact ⟨ho, (congrArg (fun v : Ln => { v with mem := s.ln.mem }) hr :)⟩

theorem memBut.seq {k : EpN} {s t u : State} (h : memBut k s t) (g : memBut k t u) : memBut k s u := by
  obtain ⟨ho, hr⟩ := h
  obtain ⟨go, gr⟩ := g
  refine ⟨fun x hx => (go x hx).trans (ho x hx), ?_⟩
  have hmid := congrArg (fun v : Ln => { v with eps := s.ln.eps, mem := s.ln.mem }) gr
  exact hmid.trans hr

theorem memBut.but {k : EpN} {s t : State} (h : memBut k s t) :
    epsBut k { s with ln := { s.ln with mem := t.ln.mem } } t := by
  obtain ⟨ho, hr⟩ := h
  exact ⟨ho, (congrArg (fun v : Ln => { v with mem := t.ln.mem }) hr :)⟩

theorem storeBuf_rule (s : State) (k : EpN) (p : Pkt) (isSetup : Bool) :
    (storeBuf s k p isSetup).ln.eps[k] = stored s.ln.eps[k] p isSetup s.tb.stroke.toNat ∧
    (storeBuf s k p isSetup).ln.mem = memWrite s.ln.mem (bufAddr s.ln.eps[k]) (payloadBytes p) ∧
    memBut k s (storeBuf s k p isSetup) ∧ only [.pcie, .ln] s (storeBuf s k p isSetup) := by
  refine ⟨vMod_get_self _ k _, rfl, ⟨fun x hx => vMod_get_ne _ _ _ _ hx, rfl⟩, ?_⟩
  intro q hq; cases q <;> first | rfl | exact absurd (by decide) hq

theorem epAsk_but (s : State) (k : EpN) : epsBut k s (epAsk s k) := (epAsk_works s k).but

theorem epsBut.mem {k : EpN} {s t : State} (h : epsBut k s t) : t.ln.mem = s.ln.mem := (congrArg Ln.mem h.2 :)

/-- A packet's data is stored, its answer recorded where there is one, and the ring goes on. -/
theorem acked_rule {s : State} (hu : isUp s.ports[(0 : PortN)] = true) (k : EpN) (p : Pkt) (h : Hdr) (isSetup : Bool) :
    ∃ e, (e = { stored s.ln.eps[k] p isSetup s.tb.stroke.toNat with seqTag := h.tag, seqValid := true, ans := .ack } ∨
        e = beheaded { stored s.ln.eps[k] p isSetup s.tb.stroke.toNat with seqTag := h.tag, seqValid := true, ans := .ack }) ∧
      (epAsk (lnAck (storeBuf s k p isSetup) k h) k).ln.eps[k] = e ∧
      lnShook s (epAsk (lnAck (storeBuf s k p isSetup) k h) k) k h 0x01 ∧
      (epAsk (lnAck (storeBuf s k p isSetup) k h) k).ln.mem =
        memWrite s.ln.mem (bufAddr s.ln.eps[k]) (payloadBytes p) ∧
      memBut k s (epAsk (lnAck (storeBuf s k p isSetup) k h) k) ∧
      only [.aon, .pcie, .doms, .ln, .hma, .ula, .que, .out] s (epAsk (lnAck (storeBuf s k p isSetup) k h) k) := by
  obtain ⟨hep, hmem, hbut, hparts⟩ := storeBuf_rule s k p isSetup
  generalize storeBuf s k p isSetup = v at hep hmem hbut hparts
  obtain ⟨hsent, hself, hnoted, hans⟩ := noted_rule ((isUp_of_only hparts (n := 0)).trans hu) k (hshk h 0x01 []) .none
    h.tag .ack
  have hdef : lnAck v k h = noteAns (lnSend v k (hshk h 0x01 []) .none) k h.tag .ack := rfl
  rw [← hdef] at hsent hself hnoted hans
  generalize lnAck v k h = w at hsent hself hnoted hans
  rw [hep] at hself
  have hfull : w.ln.eps[k].full = true := congrArg Ep.full hself
  have hlast := epAsk_full hfull
  rw [hself] at hlast
  have hwork := epAsk_works w k
  refine ⟨_, hlast, rfl, ?_, ?_, memBut.seq (memBut.seq hbut (epsBut.memBut hnoted)) (epsBut.memBut (epAsk_but w k)), ?_⟩
  · have howner : v.ln.eps[k].owner = s.ln.eps[k].owner := (congrArg Ep.owner hep :)
    unfold lnSent at hsent
    unfold lnShook lnSent
    rw [howner] at hsent
    rw [show (epAsk w k).ula = w.ula from hwork.parts .ula (by decide)]
    exact hsent
  · exact (epsBut.mem (epAsk_but w k)).trans ((epsBut.mem hnoted).trans hmem)
  · exact (hparts.seq hans (rs := [.aon, .pcie, .doms, .ln, .hma, .ula, .que, .out])).seq hwork.parts

/-! ## Packets for the local node (R240) -/

/-- A packet that is taken for the local node is acted on. -/
theorem local_row {s u : State} {f : Pkt → Bool} {k : EpN} {x : Inbox} (h : localHas s f k x u)
    (act : State → Inbox → EpN → State) : onLink s (onLocal f act) = .next (act u x k) := by
  obtain ⟨hl, -, htake, rfl, -, hen, -, htorn, -, -⟩ := h
  refine onLink_eq hl ?_
  have hu := takeInbox_some htake
  have hnode : u.ln.en = true := by rw [hu]; exact hen
  have hrun : isTorn u (epIdx x.pkt.hdr) = false := by rw [hu]; exact htorn
  unfold onLocal
  rw [htake]
  dsimp only
  rw [hnode, hrun]
  rfl

/-- The state without the packet that is taken. -/
theorem local_taken {s u : State} {f : Pkt → Bool} {k : EpN} {x : Inbox} (h : localHas s f k x u) :
    u.ln = s.ln ∧ u.ula = s.ula ∧ isUp u.ports[(0 : PortN)] = true ∧ epStalled u k = epStalled s k ∧ only [.bus] s u := by
  obtain ⟨-, hup, htake, -⟩ := h
  have hu := takeInbox_some htake
  have hparts := takeInbox_frame htake
  rw [hu] at hparts ⊢
  exact ⟨rfl, rfl, hup, rfl, hparts⟩

end Sys2Proof.Machine
end

section
/-! PROOF. The answers of the local node (O58). -/

namespace Sys2Proof.Machine

open Sys2Proof Sys2Proof.Safety

-- One proof after the other: side by side, the proofs of one text wait for each other in too many threads.
set_option Elab.async false


/-! ## A packet of the local node, taken from the inbox -/

theorem lnSent_ln {s u t : State} {k : EpN} {p : Pkt} {act : OnEop} (h : u.ln = s.ln) (hs : lnSent u t k p act) :
    lnSent s t k p act := by
  unfold lnSent at hs ⊢
  rw [← h]
  exact hs

theorem epsBut_ln {s u t : State} {k : EpN} (h : u.ln = s.ln) (hb : epsBut k u t) : epsBut k s t := by
  unfold epsBut at hb ⊢
  rw [← h]
  exact hb

theorem dataPkt_ln {s u : State} (h : u.ln = s.ln) (k : EpN) (hd : Hdr) (typ : BitVec 4) :
    dataPkt u k hd typ = dataPkt s k hd typ := by
  unfold dataPkt
  rw [h]

theorem noteAns_ep (s : State) (k : EpN) (tag : BitVec 7) (a : EpAns) :
    (noteAns s k tag a).ln.eps[k] = { s.ln.eps[k] with seqTag := tag, seqValid := true, ans := a } := vMod_get_self _ k _

theorem modEp_ep (s : State) (k : EpN) (f : Ep → Ep) : (modEp s k f).ln.eps[k] = f s.ln.eps[k] := vMod_get_self _ k f

/-- The parts of the local node's own work. -/
abbrev nodeParts : List Part := [.aon, .pcie, .doms, .ln, .hma, .ula, .que, .bus, .out]

/-! ## SETUP (R103, R230, R232) -/

/-- The endpoint that a SETUP resets. -/
def setupEp (p : Pkt) (e : Ep) : Ep :=
  { emptied e with
    setupLost := if e.full && e.setup then satInc 15 e.setupLost else e.setupLost
    halt := false
    descs := e.descs.filter fun d => !endedBySetup d
    stage := if wAt p.payload 3 = 0#16 then 2 else 1 }

/-- What stood before a SETUP has ended. -/
def setupEnded (s : State) (p : Pkt) : State :=
  forEach (s.ln.eps[(0 : EpN)].descs.filter endedBySetup)
    (fun a d => completeDesc a 0 d 3 0 s.ln.eps[(0 : EpN)].tag false false)
    (voidReads (modEp (cutDrain s 0) 0 (setupEp p)) fun u => u = .sendData 0)

theorem setupAct_stores {s : State} {x : Inbox} (hm : x.mc = false) (he : s.ln.eps[(0 : EpN)].en = true)
    (hp : x.pkt.payload.length = 4) (ho : x.pkt.hdr.odd = false)
    (hn : isNew s.ln.eps[(0 : EpN)] x.pkt.hdr = true ∨ s.ln.eps[(0 : EpN)].ans ≠ .ack) :
    setupAct s x 0 = epAsk (lnAck (storeBuf (setupEnded s x.pkt) 0 x.pkt true) 0 x.pkt.hdr) 0 := by
  have hc : ¬ (!s.ln.eps[(0 : EpN)].en || (0 : EpN) != 0 || x.pkt.payload.length != 4 || x.pkt.hdr.odd) = true := by
    rw [he, hp, ho]
    decide
  have hr : ¬ (!isNew s.ln.eps[(0 : EpN)] x.pkt.hdr && decide (s.ln.eps[(0 : EpN)].ans = .ack)) = true := by
    rcases hn with hn | hn
    · rw [hn]; exact Bool.false_ne_true
    · rw [decide_eq_false hn, Bool.and_false]; exact Bool.false_ne_true
  unfold setupAct
  dsimp only
  rw [if_neg (by rw [hm]; exact Bool.false_ne_true), if_neg hc, if_neg hr]
  rfl

theorem setupEnded_rule (s : State) (p : Pkt) :
    (setupEnded s p).ln.eps[(0 : EpN)] = setupEp p s.ln.eps[(0 : EpN)] ∧ epsBut 0 s (setupEnded s p) ∧
    only stopParts s (setupEnded s p) := by
  have hcut := cutDrain_works s 0
  have hcutLn : (cutDrain s 0).ln = s.ln := hcut.parts .ln (by decide)
  unfold setupEnded
  generalize cutDrain s 0 = u at hcut hcutLn
  have hself : (voidReads (modEp u 0 (setupEp p)) fun y => y = .sendData 0).ln.eps[(0 : EpN)] =
      setupEp p s.ln.eps[(0 : EpN)] := by
    rw [← hcutLn]
    exact vMod_get_self u.ln.eps 0 (setupEp p)
  have hmod : epsBut 0 u (voidReads (modEp u 0 (setupEp p)) fun y => y = .sendData 0) :=
    epsBut.seq (epsBut_modEp u 0 (setupEp p)) (epsBut_of_only (voidReads_frame _ _) 0)
  have hframe : only stopParts u (voidReads (modEp u 0 (setupEp p)) fun y => y = .sendData 0) :=
    (modEp_frame u 0 (setupEp p)).seq (voidReads_frame _ _)
  generalize (voidReads (modEp u 0 (setupEp p)) fun y => y = .sendData 0) = v at hself hmod hframe
  have hdone := forEach_frame (s.ln.eps[(0 : EpN)].descs.filter endedBySetup)
    (fun a d => completeDesc a 0 d 3 0 s.ln.eps[(0 : EpN)].tag false false) v
    fun a d => completeDesc_frame a 0 d 3 0 _ false false
  generalize forEach (s.ln.eps[(0 : EpN)].descs.filter endedBySetup)
    (fun a d => completeDesc a 0 d 3 0 s.ln.eps[(0 : EpN)].tag false false) v = w at hdone
  refine ⟨?_, epsBut.seq (epsBut.seq hcut.but hmod) (epsBut_of_only hdone 0),
    (hcut.parts.seq hframe (rs := stopParts)).seq hdone⟩
  exact (congrArg (fun y : Ln => y.eps[(0 : EpN)]) (hdone .ln (by decide))).trans hself

theorem payloadBytes_four {p : Pkt} (hp : p.payload.length = 4) (ho : p.hdr.odd = false) :
    (payloadBytes p).length = 8 := by
  obtain ⟨a, b, c, d, h⟩ := List.length_eq_four.mp hp
  unfold payloadBytes
  rw [h, ho]
  rfl

theorem setup_stores {x : Inbox} {u s : State} (h : localHas s (fun p => p.hdr.typ = 0#4) 0 x u)
    (hp : x.pkt.payload.length = 4) (ho : x.pkt.hdr.odd = false)
    (hn : isNew s.ln.eps[(0 : EpN)] x.pkt.hdr = true ∨ s.ln.eps[(0 : EpN)].ans ≠ .ack) :
    ∃ t, exec .localSetup s = .next t ∧ lnShook s t 0 x.pkt.hdr 0x01 ∧
      t.ln.eps[(0 : EpN)].full = true ∧ t.ln.eps[(0 : EpN)].setup = true ∧ t.ln.eps[(0 : EpN)].len = 8 ∧
      t.ln.eps[(0 : EpN)].stage = (if wAt x.pkt.payload 3 = 0#16 then 2 else 1) ∧
      t.ln.eps[(0 : EpN)].ans = .ack ∧ t.ln.eps[(0 : EpN)].seqTag = x.pkt.hdr.tag ∧
      (∀ d ∈ t.ln.eps[(0 : EpN)].descs, descOp d ≠ 2 ∧ descOp d ≠ 3 ∧ descOp d ≠ 4) ∧
      t.ln.mem = memWrite s.ln.mem (bufAddr s.ln.eps[(0 : EpN)]) (payloadBytes x.pkt) ∧
      epsBut 0 { s with ln := { s.ln with mem := t.ln.mem } } t ∧
      only [.aon, .pcie, .doms, .ln, .hma, .ula, .que, .bus, .out] s t := by
  obtain ⟨hln, -, hup, -, htaken⟩ := local_taken h
  obtain ⟨-, -, -, -, hm, -, -, -, hen, -⟩ := id h
  have hrow := setupAct_stores (s := u) hm (by rw [hln]; exact hen) hp ho (by rw [hln]; exact hn)
  refine ⟨_, (local_row h setupAct).trans (congrArg Host.Outcome.next hrow), ?_⟩
  obtain ⟨hep, hbut, hparts⟩ := setupEnded_rule u x.pkt
  generalize setupEnded u x.pkt = v at hep hbut hparts
  rw [hln] at hep
  obtain ⟨e, he, hself, hsent, hmem, hnode, hacked⟩ :=
    acked_rule ((isUp_of_only hparts (n := 0)).trans hup) 0 x.pkt x.pkt.hdr true
  generalize epAsk (lnAck (storeBuf v 0 x.pkt true) 0 x.pkt.hdr) 0 = t at hself hsent hmem hnode hacked
  rw [hep] at he hmem
  have hall := memBut.seq (epsBut.memBut (epsBut_ln hln hbut)) hnode
  have hdescs : e.descs <:+ s.ln.eps[(0 : EpN)].descs.filter fun d => !endedBySetup d := by
    rcases he with rfl | rfl
    · exact List.suffix_rfl
    · exact List.tail_suffix _
  have hlen := payloadBytes_four hp ho
  have hfields : e.full = true ∧ e.setup = true ∧ e.len = (payloadBytes x.pkt).length ∧
      e.stage = (if wAt x.pkt.payload 3 = 0#16 then 2 else 1) ∧ e.ans = .ack ∧ e.seqTag = x.pkt.hdr.tag := by
    rcases he with rfl | rfl <;> exact ⟨rfl, rfl, rfl, rfl, rfl, rfl⟩
  obtain ⟨hfull, hsetup, hel, hstage, hans, htag⟩ := hfields
  rw [hself]
  refine ⟨?_, hfull, hsetup, hel.trans hlen, hstage, hans, htag, fun d hd => ?_, ?_, hall.but,
    (htaken.seq hparts (rs := nodeParts)).seq hacked⟩
  · have howner : v.ln.eps[(0 : EpN)].owner = s.ln.eps[(0 : EpN)].owner := (congrArg Ep.owner hep :)
    unfold lnShook lnSent at hsent ⊢
    rw [howner] at hsent
    exact hsent
  · have hkept := (List.mem_filter.mp (hdescs.subset hd)).2
    simpa [endedBySetup, and_assoc] using hkept
  · rw [hmem, epsBut.mem hbut, hln]
    rfl

/-- What a SETUP draws that endpoint k does not take. -/
theorem setupAct_stalls {s : State} {x : Inbox} {k : EpN} (hm : x.mc = false)
    (hc : k ≠ 0 ∨ x.pkt.payload.length ≠ 4 ∨ x.pkt.hdr.odd = true) : setupAct s x k = stallNew s k x.pkt.hdr := by
  have hbad : (!s.ln.eps[k].en || k != 0 || x.pkt.payload.length != 4 || x.pkt.hdr.odd) = true := by
    simp only [Bool.or_eq_true, bne_iff_ne]
    rcases hc with hc | hc | hc
    · exact .inl (.inl (.inr hc))
    · exact .inl (.inr hc)
    · exact .inr hc
  unfold setupAct
  dsimp only
  rw [if_neg (by rw [hm]; exact Bool.false_ne_true), if_pos hbad]

/-! ## Rows that draw STALL -/

/-- The row answers STALL, and no sent data is confirmed. -/
theorem stalls_plain {s u : State} {f : Pkt → Bool} {k : EpN} {x : Inbox} (h : localHas s f k x u)
    {act : State → Inbox → EpN → State} (hact : act u x k = stallNew u k x.pkt.hdr)
    (hc : s.ln.eps[k].sent = false ∨ isNew s.ln.eps[k] x.pkt.hdr = false) :
    ∃ t, onLink s (onLocal f act) = .next t ∧ lnShook s t k x.pkt.hdr 0x03 ∧ t.ln.eps[k].ans = .stall ∧ epsBut k s t ∧
      only [.ln, .ula, .bus] s t := by
  obtain ⟨hln, -, hup, -, htaken⟩ := local_taken h
  rw [← hln] at hc
  obtain ⟨hsent, hans, hbut, hparts⟩ := stallNew_plain hup hc
  exact ⟨_, (local_row h act).trans (congrArg Host.Outcome.next hact), lnSent_ln hln hsent, hans, epsBut_ln hln hbut,
    htaken.seq hparts⟩

/-- The row answers STALL, and confirms the data that was sent. -/
theorem stalls_confirms {s u : State} {f : Pkt → Bool} {k : EpN} {x : Inbox} (h : localHas s f k x u)
    {act : State → Inbox → EpN → State} (hact : act u x k = stallNew u k x.pkt.hdr) (d : Desc) (l : List Desc)
    (hs : s.ln.eps[k].sent = true) (hn : isNew s.ln.eps[k] x.pkt.hdr = true) (hd : s.ln.eps[k].descs = d :: l) :
    ∃ t, onLink s (onLocal f act) = .next t ∧ lnShook s t k x.pkt.hdr 0x03 ∧ t.ln.eps[k].ans = .stall ∧
      t.ln.eps[k].sent = false ∧ t.ln.eps[k].descs <:+ l ∧
      only [.aon, .doms, .ln, .hma, .ula, .que, .bus, .out] s t := by
  obtain ⟨hln, -, hup, -, htaken⟩ := local_taken h
  rw [← hln] at hs hn hd
  obtain ⟨hsent, hans, hoff, hdescs, hparts⟩ := stallNew_confirms hup hs hn hd
  exact ⟨_, (local_row h act).trans (congrArg Host.Outcome.next hact), lnSent_ln hln hsent, hans, hoff, hdescs,
    htaken.seq hparts⟩

theorem setup_refused (k : EpN) (x : Inbox) (u s : State) (h : localHas s (fun p => p.hdr.typ = 0#4) k x u)
    (hc : k ≠ 0 ∨ x.pkt.payload.length ≠ 4 ∨ x.pkt.hdr.odd = true) :
    ((s.ln.eps[k].sent = false ∨ isNew s.ln.eps[k] x.pkt.hdr = false) →
      ∃ t, exec .localSetup s = .next t ∧ lnShook s t k x.pkt.hdr 0x03 ∧ t.ln.eps[k].ans = .stall ∧ epsBut k s t ∧
        only [.ln, .ula, .bus] s t) ∧
    (∀ d l, s.ln.eps[k].sent = true → isNew s.ln.eps[k] x.pkt.hdr = true → s.ln.eps[k].descs = d :: l →
      ∃ t, exec .localSetup s = .next t ∧ lnShook s t k x.pkt.hdr 0x03 ∧ t.ln.eps[k].ans = .stall ∧
        t.ln.eps[k].sent = false ∧ t.ln.eps[k].descs <:+ l ∧
        only [.aon, .doms, .ln, .hma, .ula, .que, .bus, .out] s t) := by
  obtain ⟨-, -, -, -, hm, -⟩ := id h
  exact ⟨stalls_plain h (setupAct_stalls hm hc), stalls_confirms h (setupAct_stalls hm hc)⟩

/-! ## OUT data (R102, R230) -/

/-- What OUT data draws that the endpoint takes. -/
theorem outAct_taken {s : State} {x : Inbox} {k : EpN} (hm : x.mc = false) (he : s.ln.eps[k].en = true)
    (hh : s.ln.eps[k].halt = false) (ht : takesOut s.ln.eps[k] x.pkt = true)
    (hs : (payloadBytes x.pkt).length ≤ s.ln.eps[k].size) : outAct s x k =
      if !isNew s.ln.eps[k] x.pkt.hdr && s.ln.eps[k].ans = .ack then lnAck (lnRetry s k) k x.pkt.hdr
      else if !isNew s.ln.eps[k] x.pkt.hdr && s.ln.eps[k].ans = .stall then lnStall (lnRetry s k) k x.pkt.hdr
      else if s.ln.eps[k].full then confirmNak s k x.pkt.hdr
      else epAsk (lnAck (storeBuf s k x.pkt false) k x.pkt.hdr) k := by
  have hc : ¬ (!s.ln.eps[k].en || s.ln.eps[k].halt || !takesOut s.ln.eps[k] x.pkt ||
      decide (s.ln.eps[k].size < (payloadBytes x.pkt).length)) = true := by
    rw [he, hh, ht, decide_eq_false (Nat.not_lt.mpr hs)]
    decide
  unfold outAct
  dsimp only
  rw [if_neg (by rw [hm]; exact Bool.false_ne_true), if_neg hc]

theorem outAct_stalls {s : State} {x : Inbox} {k : EpN} (hm : x.mc = false)
    (hc : takesOut s.ln.eps[k] x.pkt = false ∨ s.ln.eps[k].size < (payloadBytes x.pkt).length) :
    outAct s x k = stallNew s k x.pkt.hdr := by
  have hbad : (!s.ln.eps[k].en || s.ln.eps[k].halt || !takesOut s.ln.eps[k] x.pkt ||
      decide (s.ln.eps[k].size < (payloadBytes x.pkt).length)) = true := by
    simp only [Bool.or_eq_true, Bool.not_eq_true', decide_eq_true_eq]
    rcases hc with hc | hc
    · exact .inl (.inr hc)
    · exact .inr hc
  unfold outAct
  dsimp only
  rw [if_neg (by rw [hm]; exact Bool.false_ne_true), if_pos hbad]

theorem out_stores {k : EpN} {x : Inbox} {u s : State}
    (h : localHas s (fun p => p.hdr.typ = 3#4 || (p.hdr.typ = 1#4 && !p.payload.isEmpty)) k x u)
    (ht : takesOut s.ln.eps[k] x.pkt = true) (hs : (payloadBytes x.pkt).length ≤ s.ln.eps[k].size)
    (hn : isNew s.ln.eps[k] x.pkt.hdr = true) (hf : s.ln.eps[k].full = false) :
    ∃ t, exec .localOutData s = .next t ∧ lnShook s t k x.pkt.hdr 0x01 ∧ t.ln.eps[k].full = true ∧
      t.ln.eps[k].setup = false ∧ t.ln.eps[k].len = (payloadBytes x.pkt).length ∧ t.ln.eps[k].tag = x.pkt.hdr.tag ∧
      t.ln.eps[k].ans = .ack ∧ t.ln.eps[k].seqTag = x.pkt.hdr.tag ∧
      t.ln.mem = memWrite s.ln.mem (bufAddr s.ln.eps[k]) (payloadBytes x.pkt) ∧
      only [.aon, .pcie, .doms, .ln, .hma, .ula, .que, .bus, .out] s t := by
  obtain ⟨hln, -, hup, -, htaken⟩ := local_taken h
  obtain ⟨-, -, -, -, hm, -, -, -, hen, hhalt⟩ := id h
  rw [← hln] at ht hs hen hhalt hn hf
  have hact : outAct u x k = epAsk (lnAck (storeBuf u k x.pkt false) k x.pkt.hdr) k := by
    rw [outAct_taken hm hen hhalt ht hs, hn, hf, if_neg (by simp), if_neg (by simp), if_neg Bool.false_ne_true]
  obtain ⟨e, he, hself, hsent, hmem, -, hacked⟩ := acked_rule hup k x.pkt x.pkt.hdr false
  have hfields : e.full = true ∧ e.setup = false ∧ e.len = (payloadBytes x.pkt).length ∧ e.tag = x.pkt.hdr.tag ∧
      e.ans = .ack ∧ e.seqTag = x.pkt.hdr.tag := by
    rcases he with rfl | rfl <;> exact ⟨rfl, rfl, rfl, rfl, rfl, rfl⟩
  rw [← hself] at hfields
  obtain ⟨hfull, hsetup, hlen, htag, hans, hseq⟩ := hfields
  exact ⟨_, (local_row h outAct).trans (congrArg Host.Outcome.next hact), lnSent_ln hln hsent, hfull, hsetup, hlen, htag,
    hans, hseq, by rw [hmem, hln], htaken.seq hacked⟩

theorem out_naks {k : EpN} {x : Inbox} {u s : State}
    (h : localHas s (fun p => p.hdr.typ = 3#4 || (p.hdr.typ = 1#4 && !p.payload.isEmpty)) k x u)
    (ht : takesOut s.ln.eps[k] x.pkt = true) (hs : (payloadBytes x.pkt).length ≤ s.ln.eps[k].size)
    (hn : isNew s.ln.eps[k] x.pkt.hdr = true) (hf : s.ln.eps[k].full = true) (hsn : s.ln.eps[k].sent = false) :
    ∃ t, exec .localOutData s = .next t ∧ lnShook s t k x.pkt.hdr 0x02 ∧ only [.ula, .bus] s t := by
  obtain ⟨hln, -, hup, -, htaken⟩ := local_taken h
  obtain ⟨-, -, -, -, hm, -, -, -, hen, hhalt⟩ := id h
  rw [← hln] at ht hs hen hhalt hn hf hsn
  have hact : outAct u x k = confirmNak u k x.pkt.hdr := by
    rw [outAct_taken hm hen hhalt ht hs, hn, hf, if_neg (by simp), if_neg (by simp), if_pos rfl]
  obtain ⟨hsent, hparts⟩ := confirmNak_plain hup hsn
  exact ⟨_, (local_row h outAct).trans (congrArg Host.Outcome.next hact), lnSent_ln hln hsent, htaken.seq hparts⟩

theorem lnRetry_rule (s : State) (k : EpN) :
    (lnRetry s k).ln.eps[k] = { s.ln.eps[k] with retries := satInc 255 s.ln.eps[k].retries } ∧
    epsBut k s (lnRetry s k) ∧ only [.ln] s (lnRetry s k) :=
  ⟨modEp_ep s k _, epsBut_modEp s k _, modEp_frame s k _⟩

/-- The TAG of a retry is the one recorded. -/
theorem tag_of_retry {e : Ep} {h : Hdr} (hn : isNew e h = false) : e.seqTag = h.tag := by
  unfold isNew at hn
  simpa using (Bool.or_eq_false_iff.mp hn).2

theorem out_repeats {k : EpN} {x : Inbox} {u s : State}
    (h : localHas s (fun p => p.hdr.typ = 3#4 || (p.hdr.typ = 1#4 && !p.payload.isEmpty)) k x u)
    (ht : takesOut s.ln.eps[k] x.pkt = true) (hs : (payloadBytes x.pkt).length ≤ s.ln.eps[k].size)
    (hn : isNew s.ln.eps[k] x.pkt.hdr = false) (ha : s.ln.eps[k].ans = .ack) :
    ∃ t, exec .localOutData s = .next t ∧ lnShook s t k x.pkt.hdr 0x01 ∧ t.ln.mem = s.ln.mem ∧
      t.ln.eps[k] = { s.ln.eps[k] with retries := satInc 255 s.ln.eps[k].retries, seqValid := true } ∧
      epsBut k s t ∧ only [.ln, .ula, .bus] s t := by
  obtain ⟨hln, -, hup, -, htaken⟩ := local_taken h
  obtain ⟨-, -, -, -, hm, -, -, -, hen, hhalt⟩ := id h
  rw [← hln] at ht hs hen hhalt hn ha
  have hact : outAct u x k = noteAns (lnSend (lnRetry u k) k (hshk x.pkt.hdr 0x01 []) .none) k x.pkt.hdr.tag .ack := by
    rw [outAct_taken hm hen hhalt ht hs, hn, ha, if_pos (by simp)]
    rfl
  refine ⟨_, (local_row h outAct).trans (congrArg Host.Outcome.next hact), ?_⟩
  obtain ⟨hself, hbut, hmod⟩ := lnRetry_rule u k
  generalize lnRetry u k = v at hself hbut hmod
  obtain ⟨hsent, hv, hb, hparts⟩ := noted_rule ((isUp_of_only hmod (n := 0)).trans hup) k
    (hshk x.pkt.hdr 0x01 []) .none x.pkt.hdr.tag .ack
  generalize noteAns (lnSend v k (hshk x.pkt.hdr 0x01 []) .none) k x.pkt.hdr.tag .ack = t at hsent hv hb hparts
  have hall := epsBut_ln hln (epsBut.seq hbut hb)
  have howner : v.ln.eps[k].owner = u.ln.eps[k].owner := (congrArg Ep.owner hself :)
  refine ⟨?_, epsBut.mem hall, ?_, hall, (htaken.seq hmod (rs := [.ln, .ula, .bus])).seq hparts⟩
  · unfold lnSent at hsent
    unfold lnShook lnSent
    rw [howner, hln] at hsent
    exact hsent
  · have hold := tag_of_retry hn
    rw [hv, hself, ← hln, ← hold, ← ha]

theorem out_refused (k : EpN) (x : Inbox) (u s : State)
    (h : localHas s (fun p => p.hdr.typ = 3#4 || (p.hdr.typ = 1#4 && !p.payload.isEmpty)) k x u)
    (hc : takesOut s.ln.eps[k] x.pkt = false ∨ s.ln.eps[k].size < (payloadBytes x.pkt).length) :
    ((s.ln.eps[k].sent = false ∨ isNew s.ln.eps[k] x.pkt.hdr = false) →
      ∃ t, exec .localOutData s = .next t ∧ lnShook s t k x.pkt.hdr 0x03 ∧ t.ln.eps[k].ans = .stall ∧ epsBut k s t ∧
        only [.ln, .ula, .bus] s t) ∧
    (∀ d l, s.ln.eps[k].sent = true → isNew s.ln.eps[k] x.pkt.hdr = true → s.ln.eps[k].descs = d :: l →
      ∃ t, exec .localOutData s = .next t ∧ lnShook s t k x.pkt.hdr 0x03 ∧ t.ln.eps[k].ans = .stall ∧
        t.ln.eps[k].sent = false ∧ t.ln.eps[k].descs <:+ l ∧
        only [.aon, .doms, .ln, .hma, .ula, .que, .bus, .out] s t) := by
  obtain ⟨hln, -⟩ := local_taken h
  obtain ⟨-, -, -, -, hm, -⟩ := id h
  rw [← hln] at hc
  have hact := outAct_stalls hm hc
  exact ⟨stalls_plain h hact, stalls_confirms h hact⟩

end Sys2Proof.Machine
end

section
/-! PROOF. The answers of the local node to the root's requests (O58). -/

namespace Sys2Proof.Machine

open Sys2Proof Sys2Proof.Safety

-- One proof after the other: side by side, the proofs of one text wait for each other in too many threads.
set_option Elab.async false


/-! ## IN requests (R230, R231) -/

/-- What an IN request draws that the endpoint takes. -/
theorem inAct_taken {s : State} {x : Inbox} {k : EpN} (hm : x.mc = false) (he : s.ln.eps[k].en = true)
    (hh : s.ln.eps[k].halt = false) (ht : takesIn s.ln.eps[k] x.pkt = true) : inAct s x k =
      if !isNew s.ln.eps[k] x.pkt.hdr && s.ln.eps[k].ans = .stall then lnStall (lnRetry s k) k x.pkt.hdr
      else if !isNew s.ln.eps[k] x.pkt.hdr && s.ln.eps[k].sent then
        lnSend (lnRetry s k) k (dataPkt s k x.pkt.hdr (inType x.pkt.hdr)) .none
      else if !isNew s.ln.eps[k] x.pkt.hdr then lnNak s k x.pkt.hdr
      else if s.ln.eps[k].full && !s.ln.eps[k].sent && s.ln.eps[k].inData then
        noteAns (modEp (lnSend s k (dataPkt s k x.pkt.hdr (inType x.pkt.hdr)) .none) k fun e =>
          { e with sent := true, tag := x.pkt.hdr.tag }) k x.pkt.hdr.tag .data
      else confirmNak s k x.pkt.hdr := by
  have hc : ¬ (!s.ln.eps[k].en || s.ln.eps[k].halt || !takesIn s.ln.eps[k] x.pkt) = true := by
    rw [he, hh, ht]
    decide
  unfold inAct
  dsimp only
  rw [if_neg (by rw [hm]; exact Bool.false_ne_true), if_neg hc]

section
variable {k : EpN} {x : Inbox} {u s : State}
  (h : localHas s (fun p => p.hdr.typ = 4#4 || (p.hdr.typ = 1#4 && p.payload.isEmpty)) k x u)
  (ht : takesIn s.ln.eps[k] x.pkt = true)
include h ht

theorem in_sends (hn : isNew s.ln.eps[k] x.pkt.hdr = true) (hf : s.ln.eps[k].full = true)
    (hs : s.ln.eps[k].sent = false) (hi : s.ln.eps[k].inData = true) :
    ∃ t, exec .localInRequest s = .next t ∧
      lnSent s t k (dataPkt s k x.pkt.hdr (inType x.pkt.hdr)) .none ∧
      t.ln.eps[k] = { s.ln.eps[k] with
        sent := true, tag := x.pkt.hdr.tag, seqTag := x.pkt.hdr.tag, seqValid := true, ans := .data } ∧
      epsBut k s t ∧ only [.ln, .ula, .bus] s t := by
  obtain ⟨hln, -, hup, -, htaken⟩ := local_taken h
  obtain ⟨-, -, -, -, hm, -, -, -, hen, hhalt⟩ := id h
  rw [← hln] at ht hen hhalt hn hf hs hi
  have hact : inAct u x k = noteAns (modEp (lnSend u k (dataPkt u k x.pkt.hdr (inType x.pkt.hdr)) .none) k fun e =>
      { e with sent := true, tag := x.pkt.hdr.tag }) k x.pkt.hdr.tag .data := by
    rw [inAct_taken hm hen hhalt ht, hn, hf, hs, hi, if_neg (by simp), if_neg (by simp), if_neg (by simp), if_pos (by decide)]
  refine ⟨_, (local_row h inAct).trans (congrArg Host.Outcome.next hact), ?_⟩
  obtain ⟨hsent, hparts⟩ := lnSend_rule hup k (dataPkt u k x.pkt.hdr (inType x.pkt.hdr)) .none
  have hlnv := lnSend_ln u k (dataPkt u k x.pkt.hdr (inType x.pkt.hdr)) .none
  rw [dataPkt_ln hln] at hsent hparts hlnv ⊢
  generalize lnSend u k (dataPkt s k x.pkt.hdr (inType x.pkt.hdr)) .none = v at hsent hparts hlnv
  have hmod := modEp_frame v k fun e => { e with sent := true, tag := x.pkt.hdr.tag }
  have hself := modEp_ep v k fun e => { e with sent := true, tag := x.pkt.hdr.tag }
  have hbut := epsBut_modEp v k fun e => { e with sent := true, tag := x.pkt.hdr.tag }
  generalize modEp v k (fun e => { e with sent := true, tag := x.pkt.hdr.tag }) = w at hmod hself hbut
  have hnote := noteAns_frame w k x.pkt.hdr.tag .data
  refine ⟨lnSent_of_only (lnSent_of_only (lnSent_ln hln hsent) hmod) hnote, ?_, ?_, ?_⟩
  · rw [noteAns_ep, hself, hlnv, hln]
  · exact epsBut_ln hln (epsBut.seq (epsBut.seq (epsBut_of_only hparts k) hbut) (epsBut_modEp w k _))
  · exact ((htaken.seq hparts (rs := [.ula, .bus])).seq hmod (rs := [.ln, .ula, .bus])).seq hnote

theorem in_naks (hn : isNew s.ln.eps[k] x.pkt.hdr = true) (hf : s.ln.eps[k].full = false)
    (hs : s.ln.eps[k].sent = false) :
    ∃ t, exec .localInRequest s = .next t ∧ lnShook s t k x.pkt.hdr 0x02 ∧ only [.ula, .bus] s t := by
  obtain ⟨hln, -, hup, -, htaken⟩ := local_taken h
  obtain ⟨-, -, -, -, hm, -, -, -, hen, hhalt⟩ := id h
  rw [← hln] at ht hen hhalt hn hf hs
  have hact : inAct u x k = confirmNak u k x.pkt.hdr := by
    rw [inAct_taken hm hen hhalt ht, hn, hf, if_neg (by simp), if_neg (by simp), if_neg (by simp), if_neg (by simp)]
  obtain ⟨hsent, hparts⟩ := confirmNak_plain hup hs
  exact ⟨_, (local_row h inAct).trans (congrArg Host.Outcome.next hact), lnSent_ln hln hsent, htaken.seq hparts⟩

theorem in_confirms (d : Desc) (l : List Desc) (hn : isNew s.ln.eps[k] x.pkt.hdr = true)
    (hs : s.ln.eps[k].sent = true) (hd : s.ln.eps[k].descs = d :: l) :
    ∃ t, exec .localInRequest s = .next t ∧ lnShook s t k x.pkt.hdr 0x02 ∧ t.ln.eps[k].sent = false ∧
      t.ln.eps[k].descs <:+ l ∧ only [.aon, .doms, .ln, .hma, .ula, .que, .bus, .out] s t := by
  obtain ⟨hln, -, hup, -, htaken⟩ := local_taken h
  obtain ⟨-, -, -, -, hm, -, -, -, hen, hhalt⟩ := id h
  rw [← hln] at ht hen hhalt hn hs hd
  have hact : inAct u x k = confirmNak u k x.pkt.hdr := by
    rw [inAct_taken hm hen hhalt ht, hn, hs, if_neg (by simp), if_neg (by simp), if_neg (by simp), if_neg (by simp)]
  obtain ⟨hsent, hoff, hdescs, hparts⟩ := confirmNak_confirms hup hs hn hd
  exact ⟨_, (local_row h inAct).trans (congrArg Host.Outcome.next hact), lnSent_ln hln hsent, hoff, hdescs,
    htaken.seq hparts⟩

theorem in_repeats (hn : isNew s.ln.eps[k] x.pkt.hdr = false) (ha : s.ln.eps[k].ans ≠ .stall)
    (hs : s.ln.eps[k].sent = true) :
    ∃ t, exec .localInRequest s = .next t ∧
      lnSent s t k (dataPkt s k x.pkt.hdr (inType x.pkt.hdr)) .none ∧
      t.ln.eps[k] = { s.ln.eps[k] with retries := satInc 255 s.ln.eps[k].retries } ∧ epsBut k s t ∧
      only [.ln, .ula, .bus] s t := by
  obtain ⟨hln, -, hup, -, htaken⟩ := local_taken h
  obtain ⟨-, -, -, -, hm, -, -, -, hen, hhalt⟩ := id h
  rw [← hln] at ht hen hhalt hn ha hs
  have hact : inAct u x k = lnSend (lnRetry u k) k (dataPkt u k x.pkt.hdr (inType x.pkt.hdr)) .none := by
    rw [inAct_taken hm hen hhalt ht, hn, hs, if_neg (by rw [decide_eq_false ha, Bool.and_false]; exact Bool.false_ne_true), if_pos (by decide)]
  refine ⟨_, (local_row h inAct).trans (congrArg Host.Outcome.next hact), ?_⟩
  obtain ⟨hself, hbut, hmod⟩ := lnRetry_rule u k
  rw [dataPkt_ln hln]
  generalize lnRetry u k = v at hself hbut hmod
  obtain ⟨hsent, hparts⟩ := lnSend_rule ((isUp_of_only hmod (n := 0)).trans hup) k
    (dataPkt s k x.pkt.hdr (inType x.pkt.hdr)) .none
  have hlnv := lnSend_ln v k (dataPkt s k x.pkt.hdr (inType x.pkt.hdr)) .none
  generalize lnSend v k (dataPkt s k x.pkt.hdr (inType x.pkt.hdr)) .none = t at hsent hparts hlnv
  have howner : v.ln.eps[k].owner = u.ln.eps[k].owner := (congrArg Ep.owner hself :)
  refine ⟨?_, by rw [hlnv, hself, hln], epsBut_ln hln (epsBut.seq hbut (epsBut_of_only hparts k)),
    (htaken.seq hmod (rs := [.ln, .ula, .bus])).seq hparts⟩
  unfold lnSent at hsent ⊢
  rw [howner, hln] at hsent
  exact hsent

end

/-! ## CSTAT (R230, R232) -/

theorem cstatAct_new {s : State} {x : Inbox} (hm : x.mc = false) (he : s.ln.eps[(0 : EpN)].en = true)
    (hh : s.ln.eps[(0 : EpN)].halt = false) (hp : x.pkt.payload = [])
    (hn : isNew s.ln.eps[(0 : EpN)] x.pkt.hdr = true) (hs : s.ln.eps[(0 : EpN)].sent = false) :
    cstatAct s x 0 = cstatNew s 0 x.pkt.hdr := by
  have hc : ¬ (!s.ln.eps[(0 : EpN)].en || s.ln.eps[(0 : EpN)].halt || (0 : EpN) != 0 || !x.pkt.payload.isEmpty) = true := by
    rw [he, hh, hp]
    decide
  unfold cstatAct
  dsimp only
  rw [if_neg (by rw [hm]; exact Bool.false_ne_true), if_neg hc, hn, if_neg (by simp), if_neg (by simp),
    confirmNew_same (.inl hs)]

/-- The CSTAT ends the control transfer: an answer that is recorded, and its descriptor completes. -/
def cstatDone (s : State) (h : Hdr) (p : Pkt) (a : EpAns) : State :=
  epAsk (completeHead (modEp (noteAns (lnSend s 0 p .none) 0 h.tag a) 0 fun e => { e with stage := 0, tag := h.tag })
    0 0 0 false false) 0

theorem cstatDone_rule {s : State} (hu : isUp s.ports[(0 : PortN)] = true) {d : Desc} {l : List Desc}
    (hd : s.ln.eps[(0 : EpN)].descs = d :: l) (h : Hdr) (p : Pkt) (a : EpAns) :
    lnSent s (cstatDone s h p a) 0 p .none ∧ (cstatDone s h p a).ln.eps[(0 : EpN)].stage = 0 ∧
    (cstatDone s h p a).ln.eps[(0 : EpN)].ans = a ∧ (cstatDone s h p a).ln.eps[(0 : EpN)].descs <:+ l ∧
    only [.aon, .doms, .ln, .hma, .ula, .que, .out] s (cstatDone s h p a) := by
  unfold cstatDone
  obtain ⟨hsent, hself, -, hparts⟩ := noted_rule hu 0 p .none h.tag a
  generalize noteAns (lnSend s 0 p .none) 0 h.tag a = v at hsent hself hparts
  have hmod := modEp_frame v 0 fun e => { e with stage := 0, tag := h.tag }
  have hep := modEp_ep v 0 fun e => { e with stage := 0, tag := h.tag }
  rw [hself] at hep
  generalize modEp v 0 (fun e => { e with stage := 0, tag := h.tag }) = w at hmod hep
  have hwd : w.ln.eps[(0 : EpN)].descs = d :: l := (congrArg Ep.descs hep :).trans hd
  have hhead := completeHead_ep hwd 0 0 false false
  have hworks := (completeHead_works w 0 0 0 false false).seq (epAsk_works _ 0) (rs := epParts)
  obtain ⟨-, hdescs, -⟩ := epAsk_rule (completeHead w 0 0 0 false false) 0
  rw [show (completeHead w 0 0 0 false false).ln.eps[(0 : EpN)].descs = l from
    (congrArg Ep.descs hhead).trans (congrArg List.tail hwd)] at hdescs
  generalize epAsk (completeHead w 0 0 0 false false) 0 = t at hworks hdescs
  have hface := hworks.self.trans (congrArg face hep)
  exact ⟨lnSent_of_only (lnSent_of_only hsent hmod) hworks.parts, (congrArg Ep.stage hface :), (congrArg Ep.ans hface :),
    hdescs, (hparts.seq hmod (rs := [.ln, .ula])).seq hworks.parts⟩

/-- The CSTAT with which the status stage ends. -/
def statusPkt (h : Hdr) : Pkt := { hdr := { h with hop := 0#10, tsb := 0#8 }, payload := [] }

theorem cstatNew_some {s : State} {h : Hdr} (hs : epStalled s 0 = false) {d : Desc} {l : List Desc}
    (hd : s.ln.eps[(0 : EpN)].descs = d :: l) :
    (descOp d = 3 → cstatNew s 0 h = cstatDone s h (statusPkt h) .cstat) ∧
    (descOp d = 4 → cstatNew s 0 h = cstatDone s h (hshk h 0x03 []) .stall) := by
  refine ⟨fun ho => ?_, fun ho => ?_⟩ <;>
  · unfold cstatNew
    dsimp only
    rw [hs, hd, if_neg Bool.false_ne_true, List.head?_cons, Option.map_some, ho]
    rfl

theorem cstatNew_none {s : State} {h : Hdr} (hc : s.ln.eps[(0 : EpN)].descs = [] ∨ epStalled s 0 = true) :
    cstatNew s 0 h = lnNak (modEp s 0 fun e => { e with stage := if e.stage = 0 then 0 else 2 }) 0 h := by
  have hnone : (if epStalled s 0 then none else (s.ln.eps[(0 : EpN)].descs.head?).map descOp) = none := by
    rcases hc with hc | hc <;> rw [hc]
    · exact ite_self _
    · rfl
  unfold cstatNew
  dsimp only
  rw [hnone]

section
variable {x : Inbox} {u s : State} (h : localHas s (fun p => p.hdr.typ = 2#4) 0 x u) (hp : x.pkt.payload = [])
  (hn : isNew s.ln.eps[(0 : EpN)] x.pkt.hdr = true) (hs : s.ln.eps[(0 : EpN)].sent = false)
include h hp hn hs

theorem exec_cstat : exec .localCstat s = .next (cstatNew u 0 x.pkt.hdr) := by
  obtain ⟨hln, -⟩ := local_taken h
  obtain ⟨-, -, -, -, hm, -, -, -, hen, hhalt⟩ := id h
  rw [← hln] at hn hs hen hhalt
  exact (local_row h cstatAct).trans (congrArg Host.Outcome.next (cstatAct_new hm hen hhalt hp hn hs))

theorem cstat_ends (d : Desc) (l : List Desc) (hw : epStalled s 0 = false)
    (hd : s.ln.eps[(0 : EpN)].descs = d :: l) (ho : descOp d = 3) :
    ∃ t, exec .localCstat s = .next t ∧
      lnSent s t 0 { hdr := { x.pkt.hdr with hop := 0#10, tsb := 0#8 }, payload := [] } .none ∧
      t.ln.eps[(0 : EpN)].stage = 0 ∧ t.ln.eps[(0 : EpN)].ans = .cstat ∧ t.ln.eps[(0 : EpN)].descs <:+ l ∧
      only [.aon, .doms, .ln, .hma, .ula, .que, .bus, .out] s t := by
  obtain ⟨hln, -, hup, hstall, htaken⟩ := local_taken h
  have hrow := exec_cstat h hp hn hs
  rw [← hln] at hd
  rw [(cstatNew_some (hstall.trans hw) hd).1 ho] at hrow
  obtain ⟨hsent, hstage, hans, hdescs, hparts⟩ := cstatDone_rule hup hd x.pkt.hdr (statusPkt x.pkt.hdr) .cstat
  exact ⟨_, hrow, lnSent_ln hln hsent, hstage, hans, hdescs, htaken.seq hparts⟩

theorem cstat_stalls (d : Desc) (l : List Desc) (hw : epStalled s 0 = false)
    (hd : s.ln.eps[(0 : EpN)].descs = d :: l) (ho : descOp d = 4) :
    ∃ t, exec .localCstat s = .next t ∧ lnShook s t 0 x.pkt.hdr 0x03 ∧ t.ln.eps[(0 : EpN)].stage = 0 ∧
      t.ln.eps[(0 : EpN)].ans = .stall ∧ t.ln.eps[(0 : EpN)].descs <:+ l ∧
      only [.aon, .doms, .ln, .hma, .ula, .que, .bus, .out] s t := by
  obtain ⟨hln, -, hup, hstall, htaken⟩ := local_taken h
  have hrow := exec_cstat h hp hn hs
  rw [← hln] at hd
  rw [(cstatNew_some (hstall.trans hw) hd).2 ho] at hrow
  obtain ⟨hsent, hstage, hans, hdescs, hparts⟩ := cstatDone_rule hup hd x.pkt.hdr (hshk x.pkt.hdr 0x03 []) .stall
  exact ⟨_, hrow, lnSent_ln hln hsent, hstage, hans, hdescs, htaken.seq hparts⟩

theorem cstat_naks (hc : s.ln.eps[(0 : EpN)].descs = [] ∨ epStalled s 0 = true) :
    ∃ t, exec .localCstat s = .next t ∧ lnShook s t 0 x.pkt.hdr 0x02 ∧
      t.ln.eps[(0 : EpN)] = { s.ln.eps[(0 : EpN)] with
        stage := if s.ln.eps[(0 : EpN)].stage = 0 then 0 else 2 } ∧ epsBut 0 s t ∧ only [.ln, .ula, .bus] s t := by
  obtain ⟨hln, -, hup, hstall, htaken⟩ := local_taken h
  have hrow := exec_cstat h hp hn hs
  rw [← hln, ← hstall] at hc
  rw [cstatNew_none hc] at hrow
  refine ⟨_, hrow, ?_⟩
  have hmod := modEp_frame u 0 fun e => { e with stage := if e.stage = 0 then 0 else 2 }
  have hself := modEp_ep u 0 fun e => { e with stage := if e.stage = 0 then 0 else 2 }
  have hbut := epsBut_modEp u 0 fun e => { e with stage := if e.stage = 0 then 0 else 2 }
  generalize modEp u 0 (fun e => { e with stage := if e.stage = 0 then 0 else 2 }) = v at hmod hself hbut
  obtain ⟨hsent, hparts⟩ := lnSend_rule ((isUp_of_only hmod (n := 0)).trans hup) 0 (hshk x.pkt.hdr 0x02 []) .none
  have hlnv := lnSend_ln v 0 (hshk x.pkt.hdr 0x02 []) .none
  have hdef : lnNak v 0 x.pkt.hdr = lnSend v 0 (hshk x.pkt.hdr 0x02 []) .none := rfl
  rw [hdef]
  generalize lnSend v 0 (hshk x.pkt.hdr 0x02 []) .none = t at hsent hparts hlnv
  have howner : v.ln.eps[(0 : EpN)].owner = u.ln.eps[(0 : EpN)].owner := (congrArg Ep.owner hself :)
  refine ⟨?_, by rw [hlnv, hself, hln], epsBut_ln hln (epsBut.seq hbut (epsBut_of_only hparts 0)),
    (htaken.seq hmod (rs := [.ln, .bus])).seq hparts⟩
  unfold lnSent at hsent
  unfold lnShook lnSent
  rw [howner, hln] at hsent
  exact hsent

end

/-! ## PINQ (R230) -/

theorem pinqAct_taken {s : State} {x : Inbox} {k : EpN} (hm : x.mc = false) (he : s.ln.eps[k].en = true)
    (hh : s.ln.eps[k].halt = false) (hp : x.pkt.payload = []) (hty : s.ln.eps[k].typ = 2)
    (hd : s.ln.eps[k].dirIn = true) : pinqAct s x k =
      if s.ln.eps[k].full then
        epAsk (noteAns (modEp (lnSend s k (dataPkt s k x.pkt.hdr 8#4) (.pindSent k)) k fun e =>
          { emptied e with
            flight := e.flight ++ (e.descs.take 1).map fun d => (d, e.len, x.pkt.hdr.tag)
            descs := e.descs.drop 1
            tag := x.pkt.hdr.tag }) k x.pkt.hdr.tag .data) k
      else noteAns (lnHshk s k x.pkt.hdr 0x06) k x.pkt.hdr.tag .data := by
  have hc : ¬ (!s.ln.eps[k].en || s.ln.eps[k].halt || !(decide (s.ln.eps[k].typ = 2) && s.ln.eps[k].dirIn) ||
      !x.pkt.payload.isEmpty) = true := by
    rw [he, hh, hp, hty, hd]
    decide
  unfold pinqAct
  dsimp only
  rw [if_neg (by rw [hm]; exact Bool.false_ne_true), if_neg hc]

/-- The endpoint whose data is on its way. -/
def pindEp (tag : BitVec 7) (e : Ep) : Ep :=
  { emptied e with
    flight := e.flight ++ (e.descs.take 1).map fun d => (d, e.len, tag)
    descs := e.descs.drop 1
    tag := tag }

theorem pinq_sends {k : EpN} {x : Inbox} {u s : State} (h : localHas s (fun p => p.hdr.typ = 7#4) k x u)
    (hp : x.pkt.payload = []) (hty : s.ln.eps[k].typ = 2) (hdir : s.ln.eps[k].dirIn = true) (d : Desc)
    (l : List Desc) (hf : s.ln.eps[k].full = true) (hd : s.ln.eps[k].descs = d :: l) :
    ∃ t, exec .localPinq s = .next t ∧ lnSent s t k (dataPkt s k x.pkt.hdr 8#4) (.pindSent k) ∧
      t.ln.eps[k].flight = s.ln.eps[k].flight ++ [(d, s.ln.eps[k].len, x.pkt.hdr.tag)] ∧
      t.ln.eps[k].descs <:+ l ∧ only [.aon, .doms, .ln, .hma, .ula, .que, .bus, .out] s t := by
  obtain ⟨hln, -, hup, -, htaken⟩ := local_taken h
  obtain ⟨-, -, -, -, hm, -, -, -, hen, hhalt⟩ := id h
  rw [← hln] at hen hhalt hty hdir hf
  have hact : pinqAct u x k = epAsk (noteAns (modEp (lnSend u k (dataPkt u k x.pkt.hdr 8#4) (.pindSent k)) k
      (pindEp x.pkt.hdr.tag)) k x.pkt.hdr.tag .data) k :=
    (pinqAct_taken hm hen hhalt hp hty hdir).trans (if_pos hf)
  refine ⟨_, (local_row h pinqAct).trans (congrArg Host.Outcome.next hact), ?_⟩
  obtain ⟨hsent, hparts⟩ := lnSend_rule hup k (dataPkt u k x.pkt.hdr 8#4) (.pindSent k)
  have hlnv := lnSend_ln u k (dataPkt u k x.pkt.hdr 8#4) (.pindSent k)
  rw [dataPkt_ln hln] at hsent hparts hlnv ⊢
  generalize lnSend u k (dataPkt s k x.pkt.hdr 8#4) (.pindSent k) = v at hsent hparts hlnv
  have hmod := modEp_frame v k (pindEp x.pkt.hdr.tag)
  have hself := modEp_ep v k (pindEp x.pkt.hdr.tag)
  rw [hlnv, hln] at hself
  generalize modEp v k (pindEp x.pkt.hdr.tag) = w at hmod hself
  have hnote := noteAns_frame w k x.pkt.hdr.tag .data
  have hnoted := noteAns_ep w k x.pkt.hdr.tag .data
  rw [hself] at hnoted
  generalize noteAns w k x.pkt.hdr.tag .data = y at hnote hnoted
  obtain ⟨-, hdescs, -, hflight⟩ := epAsk_rule y k
  have hworks := epAsk_works y k
  generalize epAsk y k = t at hdescs hflight hworks
  rw [hnoted] at hdescs hflight
  refine ⟨lnSent_of_only (lnSent_of_only (lnSent_of_only (lnSent_ln hln hsent) hmod) hnote) hworks.parts, ?_, ?_,
    (((htaken.seq hparts (rs := [.ula, .bus])).seq hmod (rs := [.ln, .ula, .bus])).seq hnote
      (rs := [.ln, .ula, .bus])).seq hworks.parts⟩
  · rw [hflight]
    unfold pindEp
    rw [hd]
    rfl
  · unfold pindEp at hdescs
    rw [hd] at hdescs
    exact hdescs

theorem pinq_empty {k : EpN} {x : Inbox} {u s : State} (h : localHas s (fun p => p.hdr.typ = 7#4) k x u)
    (hp : x.pkt.payload = []) (hty : s.ln.eps[k].typ = 2) (hdir : s.ln.eps[k].dirIn = true)
    (hf : s.ln.eps[k].full = false) :
    ∃ t, exec .localPinq s = .next t ∧ lnShook s t k x.pkt.hdr 0x06 ∧ epsBut k s t ∧
      t.ln.eps[k] = { s.ln.eps[k] with seqTag := x.pkt.hdr.tag, seqValid := true, ans := .data } ∧
      only [.ln, .ula, .bus] s t := by
  obtain ⟨hln, -, hup, -, htaken⟩ := local_taken h
  obtain ⟨-, -, -, -, hm, -, -, -, hen, hhalt⟩ := id h
  rw [← hln] at hen hhalt hty hdir hf
  have hact : pinqAct u x k = noteAns (lnSend u k (hshk x.pkt.hdr 0x06 []) .none) k x.pkt.hdr.tag .data :=
    (pinqAct_taken hm hen hhalt hp hty hdir).trans (if_neg (by rw [hf]; exact Bool.false_ne_true))
  obtain ⟨hsent, hself, hbut, hparts⟩ := noted_rule hup k (hshk x.pkt.hdr 0x06 []) .none x.pkt.hdr.tag .data
  exact ⟨_, (local_row h pinqAct).trans (congrArg Host.Outcome.next hact), lnSent_ln hln hsent, epsBut_ln hln hbut,
    by rw [hself, hln], htaken.seq hparts⟩

/-! ## POUT (R230, R234) -/

theorem poutAct_taken {s : State} {x : Inbox} {k : EpN} (he : s.ln.eps[k].en = true)
    (hh : s.ln.eps[k].halt = false) (hty : s.ln.eps[k].typ = 2) (hd : s.ln.eps[k].dirIn = false)
    (hs : (payloadBytes x.pkt).length ≤ s.ln.eps[k].size) : poutAct s x k =
      if s.ln.eps[k].full then modEp s k fun e => { e with overrun := satInc 255 e.overrun }
      else poutStore s k x.pkt := by
  have hc : ¬ (!s.ln.eps[k].en || s.ln.eps[k].halt || !(decide (s.ln.eps[k].typ = 2) && !s.ln.eps[k].dirIn) ||
      decide (s.ln.eps[k].size < (payloadBytes x.pkt).length)) = true := by
    rw [he, hh, hty, hd, decide_eq_false (Nat.not_lt.mpr hs)]
    decide
  unfold poutAct
  dsimp only
  rw [if_neg hc]

theorem pout_stores {k : EpN} {x : Inbox} {u s : State} (h : localHas s (fun p => p.hdr.typ = 6#4) k x u)
    (hty : s.ln.eps[k].typ = 2) (hdir : s.ln.eps[k].dirIn = false)
    (hs : (payloadBytes x.pkt).length ≤ s.ln.eps[k].size) (hf : s.ln.eps[k].full = false)
    (hc : cueBit x.pkt.hdr = false) :
    ∃ t, exec .localPout s = .next t ∧ t.ln.eps[k].full = true ∧ t.ln.eps[k].cueHeld = false ∧
      t.ln.eps[k].len = (payloadBytes x.pkt).length ∧
      t.ln.mem = memWrite s.ln.mem (bufAddr s.ln.eps[k]) (payloadBytes x.pkt) ∧ t.ula = s.ula ∧
      only [.aon, .pcie, .doms, .ln, .hma, .que, .bus, .out] s t := by
  obtain ⟨hln, -, -, -, htaken⟩ := local_taken h
  obtain ⟨-, -, -, -, -, -, -, -, hen, hhalt⟩ := id h
  rw [← hln] at hen hhalt hty hdir hs hf
  have hact : poutAct u x k = epAsk (storeBuf u k x.pkt false) k :=
    ((poutAct_taken hen hhalt hty hdir hs).trans (if_neg (by rw [hf]; exact Bool.false_ne_true))).trans
      (if_neg (by rw [hc]; exact Bool.false_ne_true))
  refine ⟨_, (local_row h poutAct).trans (congrArg Host.Outcome.next hact), ?_⟩
  obtain ⟨hep, hmem, -, hparts⟩ := storeBuf_rule u k x.pkt false
  generalize storeBuf u k x.pkt false = v at hep hmem hparts
  have hlast := epAsk_full (s := v) (k := k) (congrArg Ep.full hep)
  have hworks := epAsk_works v k
  have hkept := epsBut.mem (epAsk_but v k)
  generalize epAsk v k = t at hlast hworks hkept
  rw [hep] at hlast
  have hfields : t.ln.eps[k].full = true ∧ t.ln.eps[k].cueHeld = false ∧
      t.ln.eps[k].len = (payloadBytes x.pkt).length := by
    rcases hlast with hlast | hlast <;> rw [hlast] <;> exact ⟨rfl, rfl, rfl⟩
  obtain ⟨hfull, hheld, hlen⟩ := hfields
  have hall : only [.aon, .pcie, .doms, .ln, .hma, .que, .bus, .out] s t :=
    (htaken.seq hparts (rs := [.pcie, .ln, .bus])).seq hworks.parts
  exact ⟨hfull, hheld, hlen, by rw [hkept, hmem, hln], hall .ula (by decide), hall⟩

theorem pout_overruns {k : EpN} {x : Inbox} {u s : State} (h : localHas s (fun p => p.hdr.typ = 6#4) k x u)
    (hty : s.ln.eps[k].typ = 2) (hdir : s.ln.eps[k].dirIn = false)
    (hs : (payloadBytes x.pkt).length ≤ s.ln.eps[k].size) (hf : s.ln.eps[k].full = true) :
    ∃ t, exec .localPout s = .next t ∧
      t.ln.eps[k] = { s.ln.eps[k] with overrun := satInc 255 s.ln.eps[k].overrun } ∧ epsBut k s t ∧
      only [.ln, .bus] s t := by
  obtain ⟨hln, -, -, -, htaken⟩ := local_taken h
  obtain ⟨-, -, -, -, -, -, -, -, hen, hhalt⟩ := id h
  rw [← hln] at hen hhalt hty hdir hs hf
  have hact : poutAct u x k = modEp u k fun e => { e with overrun := satInc 255 e.overrun } :=
    (poutAct_taken hen hhalt hty hdir hs).trans (if_pos hf)
  exact ⟨_, (local_row h poutAct).trans (congrArg Host.Outcome.next hact), by rw [modEp_ep, hln],
    epsBut_ln hln (epsBut_modEp u k _), htaken.seq (modEp_frame u k _)⟩

/-! ## Packets that no endpoint acts on (R226, R240, R246) -/

/-- A packet that a node discards which is not enabled. -/
theorem absent_row {s u : State} {x : Inbox} {f : Pkt → Bool} (hl : linkOn s = true) (hen : s.ln.en = false)
    (h : takeInbox s (forLocal f) = some (x, u)) (act : State → Inbox → EpN → State) :
    onLink s (onLocal f act) = .next u := by
  have hall : (fun y => forLocal f y && mayTake s y) = forLocal f := by
    funext y
    have hm : mayTake s y = true := by unfold mayTake; rw [hen]; rfl
    rw [hm, Bool.and_true]
  refine onLink_eq hl ?_
  have hoff : u.ln.en = false := by rw [takeInbox_some h]; exact hen
  unfold onLocal
  rw [hall, h]
  dsimp only
  rw [hoff]
  rfl

/-- No packet that the row takes: it changes nothing. -/
theorem onLocal_none {s : State} {f : Pkt → Bool} (hl : linkOn s = true)
    (h : ∀ y ∈ s.bus.inbox, (forLocal f y && mayTake s y) = false) (act : State → Inbox → EpN → State) :
    onLink s (onLocal f act) = .next s := by
  have hnone : takeInbox s (fun y => forLocal f y && mayTake s y) = none :=
    Option.map_eq_none_iff.mpr (List.find?_eq_none.mpr fun y hy => by simp [h y hy])
  refine onLink_eq hl ?_
  unfold onLocal
  rw [hnone]

/-- A packet for an endpoint whose owner is taken apart. -/
theorem torn_row {s u : State} {x : Inbox} {f : Pkt → Bool} (hl : linkOn s = true) (hen : s.ln.en = true)
    (ht : isTorn s (epIdx x.pkt.hdr) = true)
    (h : takeInbox s (fun p => forLocal f p && mayTake s p) = some (x, u)) (act : State → Inbox → EpN → State) :
    onLink s (onLocal f act) = .next (tornAnswer u x (epIdx x.pkt.hdr)) ∧ f x.pkt = true ∧ u.ln = s.ln ∧
      isUp u.ports[(0 : PortN)] = isUp s.ports[(0 : PortN)] ∧ only [.bus] s u := by
  have hu := takeInbox_some h
  have hf : f x.pkt = true := by
    obtain ⟨y, hy, he⟩ := Option.map_eq_some_iff.mp h
    obtain rfl := (Prod.mk.inj he).1
    have hy := List.find?_some hy
    simp only [forLocal, Bool.and_eq_true] at hy
    exact hy.1.2
  refine ⟨onLink_eq hl ?_, hf, by rw [hu], by rw [hu], takeInbox_frame h⟩
  have hnode : u.ln.en = true := by rw [hu]; exact hen
  have htorn : isTorn u (epIdx x.pkt.hdr) = true := by rw [hu]; exact ht
  unfold onLocal
  rw [h]
  dsimp only
  rw [hnode, htorn]
  rfl

theorem tornAnswer_eq {s : State} {x : Inbox} {k : EpN} (hm : x.mc = false) :
    (x.pkt.hdr.typ = 2#4 → tornAnswer s x k = lnSend s k (hshk x.pkt.hdr 0x02 []) .none) ∧
    (x.pkt.hdr.typ = 7#4 →
      tornAnswer s x k = noteAns (lnSend s k (hshk x.pkt.hdr 0x06 []) .none) k x.pkt.hdr.tag .data) ∧
    (x.pkt.hdr.typ = 6#4 → tornAnswer s x k = s) ∧
    (x.pkt.hdr.typ = 0#4 →
      tornAnswer s x k = noteAns (lnSend s k (hshk x.pkt.hdr 0x03 []) .none) k x.pkt.hdr.tag .stall) := by
  refine ⟨fun h => ?_, fun h => ?_, fun h => ?_, fun h => ?_⟩ <;>
  · unfold tornAnswer
    dsimp only
    rw [hm, h]
    rfl

theorem torn_rows (x : Inbox) (u s : State) (hl : linkOn s = true) (hup : isUp s.ports[(0 : PortN)] = true)
    (hen : s.ln.en = true) (hm : x.mc = false) (htorn : isTorn s (epIdx x.pkt.hdr) = true) :
    (takeInbox s (fun p => forLocal (fun q => q.hdr.typ = 2#4) p && mayTake s p) = some (x, u) →
      ∃ t, exec .localCstat s = .next t ∧ lnShook s t (epIdx x.pkt.hdr) x.pkt.hdr 0x02 ∧ only [.ula, .bus] s t) ∧
    (takeInbox s (fun p => forLocal (fun q => q.hdr.typ = 7#4) p && mayTake s p) = some (x, u) →
      ∃ t, exec .localPinq s = .next t ∧ lnShook s t (epIdx x.pkt.hdr) x.pkt.hdr 0x06 ∧ only [.ln, .ula, .bus] s t) ∧
    (takeInbox s (fun p => forLocal (fun q => q.hdr.typ = 6#4) p && mayTake s p) = some (x, u) →
      exec .localPout s = .next u) ∧
    (takeInbox s (fun p => forLocal (fun q => q.hdr.typ = 0#4) p && mayTake s p) = some (x, u) →
      ∃ t, exec .localSetup s = .next t ∧
        (lnShook s t (epIdx x.pkt.hdr) x.pkt.hdr 0x02 ∨ lnShook s t (epIdx x.pkt.hdr) x.pkt.hdr 0x03) ∧
        only [.ln, .ula, .bus] s t) := by
  obtain ⟨hstat, hpinq, hpout, hsetup⟩ := tornAnswer_eq (s := u) (k := epIdx x.pkt.hdr) hm
  refine ⟨fun h => ?_, fun h => ?_, fun h => ?_, fun h => ?_⟩
  · obtain ⟨hrow, hty, hln, hports, htaken⟩ := torn_row hl hen htorn h cstatAct
    rw [hstat (of_decide_eq_true hty)] at hrow
    obtain ⟨hsent, hparts⟩ := lnSend_rule (hports.trans hup) (epIdx x.pkt.hdr) (hshk x.pkt.hdr 0x02 []) .none
    exact ⟨_, hrow, lnSent_ln hln hsent, htaken.seq hparts⟩
  · obtain ⟨hrow, hty, hln, hports, htaken⟩ := torn_row hl hen htorn h pinqAct
    rw [hpinq (of_decide_eq_true hty)] at hrow
    obtain ⟨hsent, -, -, hparts⟩ := noted_rule (hports.trans hup) (epIdx x.pkt.hdr) (hshk x.pkt.hdr 0x06 []) .none
      x.pkt.hdr.tag .data
    exact ⟨_, hrow, lnSent_ln hln hsent, htaken.seq hparts⟩
  · obtain ⟨hrow, hty, -⟩ := torn_row hl hen htorn h poutAct
    rw [hpout (of_decide_eq_true hty)] at hrow
    exact hrow
  · obtain ⟨hrow, hty, hln, hports, htaken⟩ := torn_row hl hen htorn h setupAct
    rw [hsetup (of_decide_eq_true hty)] at hrow
    obtain ⟨hsent, -, -, hparts⟩ := noted_rule (hports.trans hup) (epIdx x.pkt.hdr) (hshk x.pkt.hdr 0x03 []) .none
      x.pkt.hdr.tag .stall
    exact ⟨_, hrow, .inr (lnSent_ln hln hsent), htaken.seq hparts⟩

/-- Settles O58: it holds. Going on with the ring leaves a full buffer, and takes at most the descriptor at the head; what
stands at the ULA for the endpoint's owner stays. -/
theorem localAnswers : Obligations.LocalAnswers := by
  unfold Obligations.LocalAnswers
  refine ⟨fun x u s => setup_stores, setup_refused, fun k x u s h ht hs => ⟨out_stores h ht hs, out_naks h ht hs,
      out_repeats h ht hs⟩, out_refused,
    fun k x u s h ht => ⟨in_sends h ht, in_naks h ht, in_confirms h ht, in_repeats h ht⟩,
    fun x u s h hp hn hs => ⟨cstat_ends h hp hn hs, cstat_stalls h hp hn hs, cstat_naks h hp hn hs⟩,
    fun k x u s h hp hty hd => ⟨pinq_sends h hp hty hd, pinq_empty h hp hty hd⟩,
    fun k x u s h hty hd hs => ⟨pout_stores h hty hd hs, pout_overruns h hty hd hs⟩,
    fun x u s hl hen => ⟨fun h => absent_row hl hen h pinqAct, fun h => absent_row hl hen h poutAct⟩,
    fun s hl hi => ?_, fun x u s hl hup hen hm _ htorn => torn_rows x u s hl hup hen hm htorn,
    fun x s hl hen hi hm hty hr => ?_⟩
  · have hnone (f : Pkt → Bool) (act : State → Inbox → EpN → State) : onLink s (onLocal f act) = .next s :=
      onLocal_none hl (by rw [hi]; simp) act
    exact ⟨hnone _ _, hnone _ _, hnone _ _, hnone _ _, hnone _ _, hnone _ _⟩
  · have hbarred : mayTake s x = false := by
      unfold mayTake
      rw [hen, hm, hr, decide_eq_false hty]
      rfl
    have hnone (f : Pkt → Bool) (act : State → Inbox → EpN → State) : onLink s (onLocal f act) = .next s :=
      onLocal_none hl (fun y hy => by
        rw [hi] at hy
        rw [List.mem_singleton.mp hy, hbarred, Bool.and_false]) act
    exact ⟨hnone _ _, hnone _ _, hnone _ _, hnone _ _, hnone _ _⟩

end Sys2Proof.Machine
end

section
/-! PROOF. The local node and its endpoints (O59). -/

namespace Sys2Proof.Machine

open Sys2Proof Sys2Proof.Safety

-- One proof after the other: side by side, the proofs of one text wait for each other in too many threads.
set_option Elab.async false


/-! ## The drain of a buffer (R221, R234) -/

/-- The last write of a request goes out. -/
theorem issueLast_wrote {s : State} (r : Nat) {q : HReq} {p : Piece} (h : nextWrite s q = some p) :
    .hostWrite (domOf q) p.addr p.bytes ∈ (issueLast s r q).out := by
  have hrow : issueLast s r q = hmaDone (toHost s (.hostWrite (domOf q) p.addr p.bytes)) r := by
    unfold issueLast
    rw [h]
    rfl
  rw [hrow]
  exact (hmaDone_issues _ r).outs.subset (toHost_done s _)

theorem drained_completes {s : State} {k : EpN} {d : Desc} {l : List Desc} (hd : s.ln.eps[k].descs = d :: l)
    (hc : s.ln.eps[k].cueHeld = false) : drained s k =
      emptyEp (completeHead s k (drainStatus s.ln.eps[k] d) (drainLen s.ln.eps[k]) s.ln.eps[k].cue s.ln.eps[k].late) k := by
  unfold drained
  dsimp only
  rw [hd]
  exact if_neg (by rw [hc]; exact Bool.false_ne_true)

theorem drained_waits {s : State} {k : EpN} {d : Desc} {l : List Desc} (hd : s.ln.eps[k].descs = d :: l)
    (hc : s.ln.eps[k].cueHeld = true) : drained s k = modEp s k fun e => { e with drained := true, moved := 0 } := by
  unfold drained
  dsimp only
  rw [hd]
  exact if_pos hc

theorem emptied_asks (s : State) (k : EpN) (status bytes : Nat) (cue late : Bool) :
    Asks epParts s (emptyEp (completeHead s k status bytes cue late) k) :=
  (completeHead_asks s k status bytes cue late).seq (emptyEp_asks _ k) (fun _ => id) (fun _ => id)

theorem recvDrain_held {k : EpN} {d : Desc} {l : List Desc} {s : State} (hl : linkOn s = true)
    (hd : s.ln.eps[k].descs = d :: l) (p : Piece) (hp : pathHeld s (.drain s.ln.eps[k].owner k) = true)
    (hh : s.hma.arb.holder = some (8 + s.ln.eps[k].owner.val))
    (hw : nextWrite s (.drain s.ln.eps[k].owner k) = some p) (hf : s.ln.eps[k].full = true) :
    (s.ln.eps[k].cueHeld = false →
      ∃ t, exec (.recvDrain k) s = .next t ∧ wrote t s.ln.eps[k].owner p ∧ t.hma.arb.holder = none ∧
        t.ln.eps[k].descs <:+ l ∧ (l = [] → t.ln.eps[k].full = false) ∧
        only [.aon, .pcie, .doms, .ln, .hma, .que, .out] s t) ∧
    (s.ln.eps[k].cueHeld = true →
      ∃ t, exec (.recvDrain k) s = .next t ∧ wrote t s.ln.eps[k].owner p ∧ t.hma.arb.holder = none ∧
        t.ln.eps[k] = { s.ln.eps[k] with drained := true, moved := 0 } ∧ epsBut k s t ∧
        only [.aon, .pcie, .ln, .hma, .out] s t) := by
  have hrow : drain s k = drained (issueLast s (8 + s.ln.eps[k].owner.val) (.drain s.ln.eps[k].owner k)) k :=
    if_pos (by rw [hp, hf]; rfl)
  have hwrote := issueLast_wrote (8 + s.ln.eps[k].owner.val) hw
  have hhold := (issueLast_ends hh (.drain s.ln.eps[k].owner k)).2
  have hissue := (issueLast_issues s (8 + s.ln.eps[k].owner.val) (.drain s.ln.eps[k].owner k)).parts
  generalize issueLast s (8 + s.ln.eps[k].owner.val) (.drain s.ln.eps[k].owner k) = u at hrow hwrote hhold hissue
  have hln : u.ln = s.ln := hissue .ln (by decide)
  have hud : u.ln.eps[k].descs = d :: l := by rw [hln]; exact hd
  refine ⟨fun hc => ?_, fun hc => ?_⟩
  · have huc : u.ln.eps[k].cueHeld = false := by rw [hln]; exact hc
    rw [drained_completes hud huc] at hrow
    obtain ⟨-, hdescs, hfull, -⟩ := completedEmpty_rule hud (drainStatus u.ln.eps[k] d) (drainLen u.ln.eps[k])
      u.ln.eps[k].cue u.ln.eps[k].late
    have hask := emptied_asks u k (drainStatus u.ln.eps[k] d) (drainLen u.ln.eps[k]) u.ln.eps[k].cue u.ln.eps[k].late
    exact ⟨_, onLink_eq hl hrow, hask.outs.subset hwrote, (congrArg Arb.holder hask.arb).trans hhold, hdescs, hfull,
      hissue.seq hask.parts⟩
  · have huc : u.ln.eps[k].cueHeld = true := by rw [hln]; exact hc
    rw [drained_waits hud huc] at hrow
    have hmod := modEp_frame u k fun e => { e with drained := true, moved := 0 }
    exact ⟨_, onLink_eq hl hrow, hwrote, hhold, by rw [modEp_ep, hln],
      epsBut_ln hln (epsBut_modEp u k fun e => { e with drained := true, moved := 0 }), hissue.seq hmod⟩

theorem drain_rows (k : EpN) (d : Desc) (l : List Desc) (s : State) (hl : linkOn s = true)
    (hd : s.ln.eps[k].descs = d :: l) :
    (pathHeld s (.drain s.ln.eps[k].owner k) = false → drainWanted s k = true → drainLen s.ln.eps[k] = 0 →
      epStalled s k = false → s.ln.eps[k].cueHeld = false →
      ∃ t, exec (.recvDrain k) s = .next t ∧ t.ln.eps[k].descs <:+ l ∧ (l = [] → t.ln.eps[k].full = false) ∧
        only [.aon, .doms, .ln, .hma, .que, .out] s t) ∧
    ((pathHeld s (.drain s.ln.eps[k].owner k) = false ∨ s.ln.eps[k].full = false) → drainWanted s k = false →
      exec (.recvDrain k) s = .next s) ∧
    (s.ln.eps[k].sent = true →
      ∃ t, exec (.confirmTimeout k) s = .next t ∧ t.ln.eps[k].sent = false ∧ t.ln.eps[k].descs <:+ l ∧
        (l = [] → t.ln.eps[k].full = false) ∧ only [.aon, .doms, .ln, .hma, .que, .out] s t) := by
  have hno (h : pathHeld s (.drain s.ln.eps[k].owner k) = false ∨ s.ln.eps[k].full = false) : drain s k =
      if drainWanted s k && drainLen s.ln.eps[k] = 0 && !epStalled s k then drained s k else s := by
    refine if_neg ?_
    rcases h with h | h <;> rw [h]
    · exact Bool.false_ne_true
    · rw [Bool.and_false]; exact Bool.false_ne_true
  refine ⟨fun hp hw hz hst hc => ?_, fun h hw => ?_, fun hs => ?_⟩
  · have hrow := (hno (.inl hp)).trans (if_pos (by rw [hw, hz, hst]; rfl))
    rw [drained_completes hd hc] at hrow
    obtain ⟨-, hdescs, hfull, hworks⟩ := completedEmpty_rule hd (drainStatus s.ln.eps[k] d) (drainLen s.ln.eps[k])
      s.ln.eps[k].cue s.ln.eps[k].late
    generalize emptyEp (completeHead s k (drainStatus s.ln.eps[k] d) (drainLen s.ln.eps[k]) s.ln.eps[k].cue
      s.ln.eps[k].late) k = t at hrow hdescs hfull hworks
    exact ⟨t, onLink_eq hl hrow, hdescs, hfull, hworks.parts.widen⟩
  · exact onLink_eq hl ((hno h).trans (if_neg (by rw [hw, Bool.false_and, Bool.false_and]; exact Bool.false_ne_true)))
  · obtain ⟨hsent, hdescs, hfull, hworks⟩ := confirm_rule hd
    exact ⟨_, onLink_eq hl (whenDo_holds hs), hsent, hdescs, hfull, hworks.parts.widen⟩

theorem epMissed_rows (k : EpN) (s : State) (hl : linkOn s = true) :
    (s.ln.eps[k].typ = 2 → s.ln.eps[k].period ≠ 0 → s.ln.eps[k].full = true →
      ∃ t, exec (.epMissed k) s = .next t ∧
        t.ln.eps[k] = { s.ln.eps[k] with missed := satInc 15 s.ln.eps[k].missed } ∧ epsBut k s t ∧ only [.ln] s t) ∧
    ((s.ln.eps[k].typ ≠ 2 ∨ s.ln.eps[k].period = 0 ∨ s.ln.eps[k].full = false) → exec (.epMissed k) s = .next s) := by
  refine ⟨fun h1 h2 h3 => ?_, fun h => onLink_eq hl (whenDo_fails ?_)⟩
  · have hc : (decide (s.ln.eps[k].typ = 2) && s.ln.eps[k].period != 0 && s.ln.eps[k].full) = true := by
      rw [decide_eq_true h1, bne_iff_ne.mpr h2, h3]
      rfl
    exact ⟨modEp s k fun e => { e with missed := satInc 15 e.missed }, onLink_eq hl (whenDo_holds hc), modEp_ep s k _,
      epsBut_modEp s k _, modEp_frame s k _⟩
  · have hoff : (decide (s.ln.eps[k].typ = 2) && s.ln.eps[k].period != 0 && s.ln.eps[k].full) = false := by
      rcases h with h | h | h
      · rw [decide_eq_false h, Bool.false_and, Bool.false_and]
      · rw [h, bne_self_eq_false, Bool.and_false, Bool.false_and]
      · rw [h, Bool.and_false]
    exact hoff

/-! ## LN_CTRL (R226) -/

theorem regRow_lnCtrl {p : Path} {s : State} (h : reaches s p = true) :
    exec (.lnEnable p) s = .next (lnEnable s) ∧ exec (.lnDisable p) s = .next (lnDisable s) :=
  ⟨regRow_reaches s p 0x3700 _ .lnCtrl h (by decide) (by decide) (by decide),
    regRow_reaches s p 0x3700 _ .lnCtrl h (by decide) (by decide) (by decide)⟩

/-- The local node is on. -/
def nodeOn (s : State) : State := { s with ln := { s.ln with en := true } }

/-- The update goes out at once where UP can send. -/
theorem capUpdate_sends {s : State} (hu : isUp s.ports[(0 : PortN)] = true) (hr : txReady s 0) :
    ∃ a b, setOut 0 (txRate s 0) .cap a b ∈ (capUpdate s 0).out := by
  obtain ⟨hfree, hdark⟩ := hr
  have hself := modPort_self s 0 fun p => { p with ackRx := 0, setRx := 0, fragSent := p.fragEn }
  have hula : (modPort s 0 fun p => { p with ackRx := 0, setRx := 0, fragSent := p.fragEn }).ula = s.ula := rfl
  have hrow : capUpdate s 0 = sendTs (modPort s 0 fun p => { p with ackRx := 0, setRx := 0, fragSent := p.fragEn }) 0 .cap
      (portCap0 s 0) (portCap1 s) := if_pos (Bool.or_eq_true_iff.mpr (.inl hu))
  generalize (modPort s 0 fun p => { p with ackRx := 0, setRx := 0, fragSent := p.fragEn }) = u at hself hula hrow
  have hready : txReady u 0 :=
    ⟨(txFree_of_passes (congrArg Port.txCur hself :) (by rw [hula])).trans hfree, (congrArg Port.dark hself :).trans hdark⟩
  have hrate : txRate u 0 = txRate s 0 := by
    unfold txRate
    dsimp only
    rw [hself]
  rw [hrow, sendTs_ready hready (by decide), hrate]
  exact ⟨_, _, emit_done _ _⟩

/-- Going on with rings leaves the node and its memory. -/
theorem asksAll_node (l : List EpN) (s : State) :
    (forEach l epAsk s).ln.en = s.ln.en ∧ (forEach l epAsk s).ln.mem = s.ln.mem := by
  induction l generalizing s with
  | nil => exact ⟨rfl, rfl⟩
  | cons k l ih =>
    obtain ⟨hen, hmem⟩ := ih (epAsk s k)
    exact ⟨hen.trans (congrArg Ln.en (epAsk_but s k).2 :), hmem.trans (epsBut.mem (epAsk_but s k))⟩

theorem lnEnable_rule {s : State} (hh : headless s = false) (he : s.ln.en = false) :
    (lnEnable s).ln.en = true ∧ (lnEnable s).ln.mem = s.ln.mem ∧
    (isUp s.ports[(0 : PortN)] = true → txReady s 0 → ∃ a b, setOut 0 (txRate s 0) .cap a b ∈ (lnEnable s).out) ∧
    only [.aon, .doms, .ln, .hma, .que, .ports, .out] s (lnEnable s) := by
  have hparts := lnEnable_parts s
  have hrow : lnEnable s = forEach epAll epAsk (capUpdate (nodeOn s) 0) := if_neg (by rw [hh, he]; exact Bool.false_ne_true)
  have hsend : isUp s.ports[(0 : PortN)] = true → txReady s 0 →
      ∃ a b, setOut 0 (txRate s 0) .cap a b ∈ (capUpdate (nodeOn s) 0).out :=
    fun hu hr => capUpdate_sends (s := nodeOn s) hu hr
  have hln : (capUpdate (nodeOn s) 0).ln = (nodeOn s).ln := capUpdate_parts _ 0 .ln (by decide)
  rw [hrow] at hparts ⊢
  generalize capUpdate (nodeOn s) 0 = u at hparts hsend hln
  have hgo := forEach_asks epAll epAsk u fun a k => epAsk_asks a k
  obtain ⟨hen, hmem⟩ := asksAll_node epAll u
  refine ⟨hen.trans ?_, hmem.trans ?_, fun hu hr => ?_, hparts.widen⟩
  · rw [hln]; rfl
  · rw [hln]; rfl
  · obtain ⟨a, b, hab⟩ := hsend hu hr
    exact ⟨a, b, hgo.outs.subset hab⟩

/-- Every endpoint's work has ended. -/
theorem stopAll_rule (s : State) (k : EpN) :
    (forEach epAll (fun a k => stopEp a k 3) s).ln.eps[k].full = false ∧
    (forEach epAll (fun a k => stopEp a k 3) s).ln.eps[k].descs = [] ∧
    (forEach epAll (fun a k => stopEp a k 3) s).ln.eps[k].en = s.ln.eps[k].en := by
  refine forEach_turn epAll epAll_nodup (fun a k => stopEp a k 3) k (mem_epAll k)
    (fun a => a.ln.eps[k].en = s.ln.eps[k].en)
    (fun a => a.ln.eps[k].full = false ∧ a.ln.eps[k].descs = [] ∧ a.ln.eps[k].en = s.ln.eps[k].en) ?_ ?_ ?_ s rfl
  · intro a m hm ha
    rw [(stopEp_works a m 3).others k hm.symm]
    exact ha
  · intro a ha
    obtain ⟨hdescs, hfull⟩ := stopEp_rule a k 3
    exact ⟨hfull, hdescs, (congrArg Ep.en (stopEp_works a k 3).self :).trans ha⟩
  · intro a m hm ha
    rw [(stopEp_works a m 3).others k hm.symm]
    exact ha

/-- The local node is off, and absent from the tree. -/
def nodeOff (s : State) : State :=
  { s with
    ln := { s.ln with en := false }
    bus := { s.bus with loc := 0xFFFE#16, inbox := s.bus.inbox.filter fun x => x.dest != .loc } }

theorem lnDisable_rule {s : State} (he : s.ln.en = true) :
    (lnDisable s).ln.en = false ∧ (lnDisable s).bus.loc = 0xFFFE#16 ∧ (∀ x ∈ (lnDisable s).bus.inbox, x.dest ≠ .loc) ∧
    (∀ k : EpN, (lnDisable s).ln.eps[k].full = false ∧ (lnDisable s).ln.eps[k].descs = [] ∧
      (lnDisable s).ln.eps[k].en = s.ln.eps[k].en) ∧
    only [.aon, .pcie, .doms, .ln, .hma, .que, .ports, .bus, .out] s (lnDisable s) := by
  have hparts := lnDisable_parts s
  have hrow : lnDisable s = capUpdate (nodeOff (forEach epAll (fun a k => stopEp a k 3) s)) 0 :=
    if_neg (by rw [he]; exact Bool.false_ne_true)
  have hstop := stopAll_rule s
  rw [hrow] at hparts ⊢
  generalize forEach epAll (fun a k => stopEp a k 3) s = u at hparts hstop
  have hcap := capUpdate_parts (nodeOff u) 0
  have hln : (capUpdate (nodeOff u) 0).ln = { u.ln with en := false } := hcap .ln (by decide)
  have hbus : (capUpdate (nodeOff u) 0).bus = { u.bus with
    loc := 0xFFFE#16, inbox := u.bus.inbox.filter fun x => x.dest != .loc } := hcap .bus (by decide)
  refine ⟨by rw [hln], by rw [hbus], fun x hx => ?_, fun k => ?_, hparts.widen⟩
  · rw [hbus] at hx
    simpa using (List.mem_filter.mp hx).2
  · rw [hln]
    exact hstop k

/-! ## EP_CFG (R228, R236) -/

theorem regAtWord_epCfg (k : EpN) : epOff0 k % 4 = 0 ∧ epOff0 k < 0x10000 ∧
    regAtWord (epOff0 k / 4) = some (.ep k .cfg) := by
  revert k
  decide

theorem regRow_epCfg {p : Path} {s : State} (k : EpN) (v : Word) (h : reaches s p = true) :
    regRow p (epOff0 k) v s = .next (epCfgWrite s k v) := by
  obtain ⟨h4, ho, hr⟩ := regAtWord_epCfg k
  exact regRow_reaches s p _ v _ h h4 ho hr

theorem modEp_same {s : State} {k : EpN} {f : Ep → Ep} (h : f s.ln.eps[k] = s.ln.eps[k]) : modEp s k f = s := by
  have heps : vMod s.ln.eps k f = s.ln.eps := by
    unfold vMod
    rw [show f s.ln.eps[k.val] = s.ln.eps[k.val] from h]
    exact Vector.set_getElem_self k.isLt
  unfold modEp
  rw [heps]

/-- EP_CFG of an endpoint with these fields. -/
def cfgWord (en : Bool) (typ : Nat) (dirIn : Bool) : Word := orAll [atBit en 0, atFld typ 1 2, atBit dirIn 3]

/-- What the rows on EP_CFG write: the type and the direction as they are, EN and CNT_CLR as the row says. -/
theorem cfgWord_fields : ∀ (en d : Bool) (t : Fin 3),
    (fld (cfgWord en t d ||| 0x0001#16) 1 2 = t ∧ bit (cfgWord en t d ||| 0x0001#16) 3 = d ∧
      bit (cfgWord en t d ||| 0x0001#16) 0 = true ∧ bit (cfgWord en t d ||| 0x0001#16) 4 = false) ∧
    (fld (cfgWord en t d ||| 0x0010#16) 1 2 = t ∧ bit (cfgWord en t d ||| 0x0010#16) 3 = d ∧
      bit (cfgWord en t d ||| 0x0010#16) 0 = en ∧ bit (cfgWord en t d ||| 0x0010#16) 4 = true) ∧
    bit (setBit (cfgWord en t d) 0 false) 0 = false ∧ bit (setBit (cfgWord en t d) 0 false) 4 = false := by
  decide

/-- A type that EP_CFG takes is one of three. -/
theorem typ_le {k : EpN} {t : Nat} (h : epTypeVal k t = t) : t < 3 := by
  unfold epTypeVal at h
  split at h
  · omega
  · split at h <;> omega

/-- A write of EP_CFG that leaves the type and the direction. -/
theorem epCfgWrite_kept {s : State} {k : EpN} {v : Word}
    (h : s.ln.eps[k].en = true ∨ (epTypeVal k (fld v 1 2) = s.ln.eps[k].typ ∧ bit v 3 = s.ln.eps[k].dirIn)) :
    epCfgWrite s k v =
      if bit v 4 then modEp (if bit v 0 then epEnable s k else epDisable s k) k fun e =>
        { e with overrun := 0, setupLost := 0, missed := 0 }
      else if bit v 0 then epEnable s k else epDisable s k := by
  have hsame : modEp s k (fun e => if e.en then e else { e with typ := epTypeVal k (fld v 1 2), dirIn := bit v 3 }) = s := by
    refine modEp_same ?_
    rcases h with h | ⟨ht, hd⟩
    · exact if_pos h
    · rw [ht, hd]
      exact ite_self _
  unfold epCfgWrite
  dsimp only
  rw [hsame]

theorem epEnable_row {p : Path} {k : EpN} {s : State} (h : reaches s p = true)
    (ht : epTypeVal k s.ln.eps[k].typ = s.ln.eps[k].typ) : exec (.epEnable p k) s = .next (epEnable s k) := by
  obtain ⟨⟨htyp, hdir, hen, hclr⟩, -⟩ := cfgWord_fields s.ln.eps[k].en s.ln.eps[k].dirIn ⟨_, typ_le ht⟩
  have hkept := epCfgWrite_kept (s := s) (k := k) (v := cfgWord s.ln.eps[k].en s.ln.eps[k].typ s.ln.eps[k].dirIn ||| 0x0001#16)
    (.inr ⟨by rw [htyp]; exact ht, hdir⟩)
  rw [hclr, hen, if_neg Bool.false_ne_true, if_pos rfl] at hkept
  exact (regRow_epCfg k _ h).trans (congrArg Host.Outcome.next hkept)

theorem epDisable_row {p : Path} {k : EpN} {s : State} (h : reaches s p = true)
    (ht : epTypeVal k s.ln.eps[k].typ = s.ln.eps[k].typ) (he : s.ln.eps[k].en = true) :
    exec (.epDisable p k) s = .next (epDisable s k) := by
  obtain ⟨-, -, hen, hclr⟩ := cfgWord_fields s.ln.eps[k].en s.ln.eps[k].dirIn ⟨_, typ_le ht⟩
  have hkept := epCfgWrite_kept (s := s) (k := k)
    (v := setBit (cfgWord s.ln.eps[k].en s.ln.eps[k].typ s.ln.eps[k].dirIn) 0 false) (.inl he)
  rw [hclr, hen, if_neg Bool.false_ne_true, if_neg Bool.false_ne_true] at hkept
  exact (regRow_epCfg k _ h).trans (congrArg Host.Outcome.next hkept)

theorem epCntClr_row {p : Path} {k : EpN} {s : State} (h : reaches s p = true)
    (ht : epTypeVal k s.ln.eps[k].typ = s.ln.eps[k].typ) :
    exec (.epCntClr p k) s = .next (modEp s k fun e => { e with overrun := 0, setupLost := 0, missed := 0 }) := by
  obtain ⟨-, ⟨htyp, hdir, hen, hclr⟩, -⟩ := cfgWord_fields s.ln.eps[k].en s.ln.eps[k].dirIn ⟨_, typ_le ht⟩
  have hstay : (if s.ln.eps[k].en then epEnable s k else epDisable s k) = s := by
    split
    · rename_i he
      exact if_pos he
    · rename_i he
      exact if_neg he
  have hkept := epCfgWrite_kept (s := s) (k := k) (v := cfgWord s.ln.eps[k].en s.ln.eps[k].typ s.ln.eps[k].dirIn ||| 0x0010#16)
    (.inr ⟨by rw [htyp]; exact ht, hdir⟩)
  rw [hclr, hen, if_pos rfl, hstay] at hkept
  exact (regRow_epCfg k _ h).trans (congrArg Host.Outcome.next hkept)

theorem epEnable_rule {s : State} {k : EpN} (he : s.ln.eps[k].en = false) :
    (bufOk s k = true → (epEnable s k).ln.eps[k].en = true ∧ (epEnable s k).ln.eps[k].typ = s.ln.eps[k].typ ∧
      (epEnable s k).ln.eps[k].dirIn = s.ln.eps[k].dirIn ∧ epsBut k s (epEnable s k) ∧
      only [.aon, .doms, .ln, .hma, .que, .out] s (epEnable s k)) ∧
    (bufOk s k = false → epEnable s k = modEp s k fun e => { e with allocErr := true }) := by
  have hon : epEnable s k = if bufOk s k then epAsk (modEp s k fun e => { e with en := true }) k
      else modEp s k fun e => { e with allocErr := true } := if_neg (by rw [he]; exact Bool.false_ne_true)
  refine ⟨fun hb => ?_, fun hb => hon.trans (if_neg (by rw [hb]; exact Bool.false_ne_true))⟩
  rw [hon.trans (if_pos hb)]
  have hworks : Works epParts k (fun e => { e with en := true }) s (epAsk (modEp s k fun e => { e with en := true }) k) :=
    (modEp_works s k fun e => { e with en := true }).seq (epAsk_works _ k)
  generalize epAsk (modEp s k fun e => { e with en := true }) k = t at hworks
  exact ⟨(congrArg Ep.en hworks.self :), (congrArg Ep.typ hworks.self :), (congrArg Ep.dirIn hworks.self :), hworks.but,
    hworks.parts.widen⟩

theorem epDisable_rule {s : State} {k : EpN} (he : s.ln.eps[k].en = true) :
    (epDisable s k).ln.eps[k] = { emptied s.ln.eps[k] with en := false } ∧ epsBut k s (epDisable s k) ∧
    only [.pcie, .ln, .hma] s (epDisable s k) := by
  have hrow : epDisable s k = voidReads (modEp (cutDrain s k) k fun e => { emptied e with en := false })
      fun u => u = .sendData k := if_pos he
  rw [hrow]
  have hcut := (cutDrain_works s k).parts
  generalize cutDrain s k = u at hcut
  have hln : u.ln = s.ln := hcut .ln (by decide)
  have hmod := modEp_frame u k fun e => { emptied e with en := false }
  have hself := modEp_ep u k fun e => { emptied e with en := false }
  have hbut := epsBut_modEp u k fun e => { emptied e with en := false }
  generalize modEp u k (fun e => { emptied e with en := false }) = v at hmod hself hbut
  have hvoid := voidReads_frame v fun y => y = .sendData k
  refine ⟨?_, epsBut_ln hln (epsBut.seq hbut (epsBut_of_only hvoid k)),
    (hcut.seq hmod (rs := [.ln, .hma])).seq hvoid⟩
  rw [← hln]
  exact (congrArg (fun y : Ln => y.eps[k]) (hvoid .ln (by decide))).trans hself

theorem lnCtrl_rows (p : Path) (s : State) (h : reaches s p = true) :
    (headless s = true → exec (.lnEnable p) s = .next s) ∧
    (s.ln.en = true → exec (.lnEnable p) s = .next s) ∧
    (headless s = false → s.ln.en = false →
      ∃ t, exec (.lnEnable p) s = .next t ∧ t.ln.en = true ∧ t.ln.mem = s.ln.mem ∧
        (isUp s.ports[(0 : PortN)] = true → txReady s 0 → ∃ a b, setOut 0 (txRate s 0) .cap a b ∈ t.out) ∧
        only [.aon, .doms, .ln, .hma, .que, .ports, .out] s t) ∧
    (s.ln.en = false → exec (.lnDisable p) s = .next s) ∧
    (s.ln.en = true →
      ∃ t, exec (.lnDisable p) s = .next t ∧ t.ln.en = false ∧ t.bus.loc = 0xFFFE#16 ∧
        (∀ x ∈ t.bus.inbox, x.dest ≠ .loc) ∧
        (∀ k : EpN, t.ln.eps[k].full = false ∧ t.ln.eps[k].descs = [] ∧ t.ln.eps[k].en = s.ln.eps[k].en) ∧
        only [.aon, .pcie, .doms, .ln, .hma, .que, .ports, .bus, .out] s t) := by
  obtain ⟨hon, hoff⟩ := regRow_lnCtrl h
  refine ⟨fun hh => hon.trans (congrArg _ (if_pos (by rw [hh]; rfl))),
    fun he => hon.trans (congrArg _ (if_pos (by rw [he, Bool.or_true]))), fun hh he => ⟨_, hon, lnEnable_rule hh he⟩,
    fun he => hoff.trans (congrArg _ (if_pos (by rw [he]; rfl))), fun he => ⟨_, hoff, lnDisable_rule he⟩⟩

/-- Settles O59: it holds. The writes of EP_CFG name one field and leave a type that the register takes; a drain ends with
the last write that is issued. -/
theorem localNodeAndEndpoints : Obligations.LocalNodeAndEndpoints := by
  unfold Obligations.LocalNodeAndEndpoints
  refine ⟨fun k d l s hl hd => ?_, fun k s hl => ⟨fun h => onLink_eq hl (whenDo_fails h), epMissed_rows k s hl⟩, lnCtrl_rows,
    fun p k s h ht => ⟨fun he hb => ?_, fun he hb => ?_, fun he => ?_, ?_⟩⟩
  · obtain ⟨hempty, hnone, hconfirm⟩ := drain_rows k d l s hl hd
    exact ⟨recvDrain_held hl hd, hempty, hnone, hconfirm⟩
  · exact ⟨_, epEnable_row h ht, (epEnable_rule he).1 hb⟩
  · refine ⟨_, (epEnable_row h ht).trans (congrArg _ ((epEnable_rule he).2 hb)), ?_⟩
    exact ⟨modEp_ep s k _, epsBut_modEp s k _, modEp_frame s k _⟩
  · exact ⟨_, epDisable_row h ht he, epDisable_rule he⟩
  · exact ⟨_, epCntClr_row h ht, modEp_ep s k _, epsBut_modEp s k _, modEp_frame s k _⟩

end Sys2Proof.Machine
end
